-- ==== Sys2Proof/Word.lean ====
section
/-! DEFINITION. The word types of the JV64-M1: the 32-bit register (R10), the byte, the 128-bit command (R163),
and a canonical sparse map used for everything the module addresses by number. -/
namespace Sys2Proof

/-- A 32-bit register value (R10). -/
abbrev W32 := BitVec 32
/-- A byte of memory. -/
abbrev Byte := BitVec 8
/-- A 128-bit command of a compute die (R163). -/
abbrev Cmd := BitVec 128

/-- A sparse map from numbers to values: keys strictly rising, no entry equal to what an unlisted key reads as. -/
abbrev Sparse (α : Type) := List (Nat × α)

/-- The value at `k`, where `d` says what an unlisted key reads as. -/
def Sparse.get {α : Type} (d : Nat → α) : Sparse α → Nat → α
  | [], k => d k
  | (a, x) :: m, k => if k = a then x else Sparse.get d m k

/-- The map with nothing listed at `k`. -/
def Sparse.erase {α : Type} : Sparse α → Nat → Sparse α
  | [], _ => []
  | (a, x) :: m, k => if k = a then Sparse.erase m k else (a, x) :: Sparse.erase m k

/-- The map with `v` at `k`. Writing the value an unlisted key reads as removes the entry. -/
def Sparse.set {α : Type} [DecidableEq α] (d : Nat → α) : Sparse α → Nat → α → Sparse α
  | [], k, v => if v = d k then [] else [(k, v)]
  | (a, x) :: m, k, v =>
    if k = a then Sparse.set d m k v
    else if k < a then
      (if v = d k then (a, x) :: Sparse.erase m k else (k, v) :: (a, x) :: Sparse.erase m k)
    else (a, x) :: Sparse.set d m k v

/-- Canonical form above a bound: keys rising from `lo` on, no entry at its unlisted value. -/
def Sparse.wfFrom {α : Type} [DecidableEq α] (d : Nat → α) : Nat → Sparse α → Bool
  | _, [] => true
  | lo, (a, x) :: m => decide (lo ≤ a) && decide (x ≠ d a) && Sparse.wfFrom d (a + 1) m

/-- The canonical form. -/
def Sparse.wf {α : Type} [DecidableEq α] (d : Nat → α) (m : Sparse α) : Bool := Sparse.wfFrom d 0 m

end Sys2Proof
end

