-- ==== Sys2Proof/Syntax.lean ====
section
/-! DEFINITION. The commands the JV64-M1 takes: one constructor for each row of spec/opcode_table.json, with the
operands of the row. A command that a program queue holds (a matrix-array, vector-engine, DMA, SYNC or GAS command)
carries the die, the queue that dispatched it and the 128-bit word (R163). What the outside world decides (a
temperature, whether a CRC holds, what a DIMM returned) is an operand. -/
namespace Sys2Proof

/-- Who reads or writes a register (R11, R36): the host, a service core of a compute die, the trust die, the safety
core, or the management port. -/
inductive View | host | core (d : Fin 40) | td | safety | mgmt
  deriving DecidableEq, Repr

/-- What a packet of the fabric carries (R22): a memory or register request, a response, bulk data (TC0, TC1), urgent control or
safety messages (TC2). -/
inductive PacketClass | request | response | bulk | urgent
  deriving DecidableEq, Repr

/-- Who makes an access to the module physical address space (R27). -/
inductive Requester
  | die (k : Fin 64)          -- a block of die k, in the DDIE numbering of R342
  | updateEngine (m : Fin 16) -- the update engine of memory die m
  | reduction                 -- the reduction path
  | hdma (canton : Fin 8)     -- a host-interface DMA engine working for a canton
  deriving DecidableEq, Repr

/-- An access to memory: a read of n bytes, a write of bytes, or a pennant addition (R169). -/
inductive MpaOp | read (n : Nat) | write (bs : List Byte) | add (inc : BitVec 64)
  deriving DecidableEq, Repr

/-- How a memory target answers: done, refused under R28, or a bus error of a tag failure or a poisoned line. -/
inductive MemResp | ok | refused | poisoned
  deriving DecidableEq, Repr

/-- A queue that reads memory, a command or a pennant, and what the memory answers. -/
structure QueueRead where
  queue : Fin 4
  res : MemResp
  deriving DecidableEq, Repr

/-- A write of a queue's CTL register: the queue, and the bits written beside the command's own (R191). -/
structure CtlWrite where
  queue : Fin 4
  also : BitVec 5
  deriving DecidableEq, Repr

/-- A parity error met by a matrix array (R119): none, in a weight register, in a staggering register. -/
inductive MaParity | none | weight | stagger
  deriving DecidableEq, Repr

/-- A register parity error met by a vector-engine instruction (R156): an element of a tile register, a scalar
register, or a byte of a mask register. -/
inductive VeBad | tile (t : Fin 16) (k : Fin 4096) | scalar (n : Fin 16) | mask (v : Fin 8) (byte : Fin 1024)
  deriving DecidableEq, Repr

/-- Which access of a matrix array it is (R178); `other` for every other requester. -/
inductive LsKind | feed | hoist | bitmap | other
  deriving DecidableEq, Repr

/-- A bank port of the local store or the GAS: the store, the bank, and whether it is the write port (R177, R181). -/
structure BankPort where
  gas : Bool
  bank : Fin 64
  write : Bool
  deriving DecidableEq, Repr

/-- Bytes of the local store or the GAS that an access reads or writes in one cycle. -/
structure StoreSpan where
  gas : Bool
  off : Nat
  len : Nat
  write : Bool
  deriving DecidableEq, Repr

/-- One access presented to the arbiters of a die's stores (R178): requester 0-3 MA0-MA3, 4 VE, 5 DMA, 6 fabric, 7 drain,
8 zero; for a requester that is no array, the bytes it moves. What an array needs follows from its state. -/
structure LsAccess where
  req : Fin 9
  kind : LsKind
  spans : List StoreSpan
  deriving DecidableEq, Repr

/-- A SECDED finding on a 64-byte line of the local store or the GAS (R180): corrected, or uncorrectable. -/
structure StoreEcc where
  line : Nat
  uncorrectable : Bool
  deriving DecidableEq, Repr


/-- A stage with a shared arbiter (R362, R363): a torus output stage, a transit link, a fabric port, a memory channel. -/
inductive ArbStage
  | link (l : Fin 6)
  | transit (l dest : Fin 6)
  | fabric (die : Fin 64) (port : Fin 5)
  | memory (m : Fin 16) (ch : Fin 2)
  deriving DecidableEq, Repr

/-- A torus packet that a die of the module hands to a link output stage (R341, R342): class 0-2, DST with its direction
bits (24 bits), destination die, content. -/
structure TorusSend where
  tc : Fin 3
  dst : BitVec 24
  ddie : Fin 64
  content : List Byte
  deriving DecidableEq, Repr

/-- A request at a shared arbiter: the requester (at a link output stage 0-5 the link die it arrived at, 6 the fabric
port), its plane (canton), whether its traffic is urgent (TC2, VC3, a safety request), its age rank (a smaller number
is older), its units or flits, and the packet a die hands over with it at a link output stage. -/
structure ArbReq where
  requester : Nat
  plane : Fin 8
  urgent : Bool
  age : Nat
  units : Nat
  send : Option TorusSend
  deriving DecidableEq, Repr


/-- What is wrong on the wires of an item's bursts when a DIMM answers a fetch (R235): for each burst its 16 beats of 40
bits, 1 where the bit that comes differs from the bit that was written. No burst listed: all come as they were written. -/
abbrev BurstErrs := List (List (BitVec 40))

/-- What an access of the counter cache met (R250, R260): good, corrected, uncorrectable, or a resident line's tag
mismatch. -/
inductive CacheFault | ok | corrected | ecc | badTag
  deriving DecidableEq, Repr

/-- A line of a seal engine's line cache or tag cache (R250): channel; level 1 or 2 for an L1 or L2 line, 3 for a data
tag line, 4 for an L1 tag line; its index. -/
structure SealLine where
  ch : Fin 2
  level : Nat
  idx : Nat
  deriving DecidableEq, Repr

/-- What the DIMM and the counter cache answer while one block is served: the data bursts, their tag line, the L1 line and
its tag line, the L2 line and its tag line at the primary place and at the mirror, the counter cache; in an overflow of
the L1 line its other blocks with damaged bursts and its data tag lines with damaged ones, in a parent overflow the child
lines with damaged bursts (an L2 line's first entry is its primary copy, a second its mirror copy); the lines that the
caches write back to make room. Items that are not fetched are not looked at. -/
structure Fetched where
  data : BurstErrs
  dtag : BurstErrs
  l1 : BurstErrs
  l1tag : BurstErrs
  l2 : BurstErrs
  l2tag : BurstErrs
  m2 : BurstErrs
  m2tag : BurstErrs
  cache : CacheFault
  lost : List (Fin 64 × BurstErrs)
  lostTags : List (Fin 8 × BurstErrs)
  kids : List (Fin 64 × BurstErrs)
  evict : List SealLine
  deriving DecidableEq, Repr

/-- What the fetches of an update engine's reads meet, by 256-byte block of the MPA space (R252, R290); a block that is not
listed comes as it was written. -/
abbrev BlockReads := List (BitVec 40 × Fetched)

/-- A turn of the interval audit: a shard, and what its reads meet (R293). -/
structure AuditTurn where
  shard : Fin 16384
  reads : BlockReads
  deriving DecidableEq, Repr

/-- A record to be taken back (R298): the module and the die that sealed it, and what the engine's reads meet. -/
structure SealedRecord where
  module : BitVec 24
  die : BitVec 8
  reads : BlockReads
  deriving DecidableEq, Repr

/-- A turn of an update engine for its running command, and what its reads meet (R300). -/
structure EngineTurn where
  m : Fin 16
  reads : BlockReads
  deriving DecidableEq, Repr

/-- A collective piece with its header (R319): job, group, leg (`gather`), direction (`minus`), POISON, URGENT, OPSEQ,
PSN, OPB, stage, INV and OVF, LEN, OFFSET, sender's member index; and its payload. -/
structure Piece where
  job : Nat
  grp : Nat
  gather : Bool
  minus : Bool
  poison : Bool
  urgent : Bool
  opseq : Nat
  psn : Nat
  opb : Nat
  stg : Nat
  inv : Bool
  ovf : Bool
  len : Nat
  offset : Nat
  srcidx : Nat
  data : List Byte
  deriving DecidableEq, Repr

/-- A torus packet on the wire (R341, R342): its route header and its ciphertext followed by the 16-byte tag. -/
structure TorusPacket where
  seq : Nat
  epoch : Nat
  tc : Nat
  dl : Bool
  dst : Nat
  ddie : Nat
  body : Nat
  text : List Byte
  deriving DecidableEq, Repr

/-- How a torus packet arrived (R337-R339): symbols corrected, uncorrectable codewords, units failing their CRC, and
whether an abort unit cut it off. -/
structure Arrival where
  corrected : Nat
  uncorrectable : Nat
  crcErr : Nat
  aborted : Bool
  deriving DecidableEq, Repr

/-- A plane record of a control codeword (R340); `naks`: offset above ACK and packets − 1. -/
structure PlaneRec where
  ack : Nat
  cred : List Nat
  retire : Bool
  force : Bool
  forceAck : Bool
  naks : List (Nat × Nat)
  deriving DecidableEq, Repr

/-- A control codeword (R340). -/
structure CtlWord where
  cseq : Nat
  lanest : Nat
  planes : List PlaneRec
  deriving DecidableEq, Repr

/-- What a training found (R349, R350): lanes that passed, the neighbour's module, port, stepping and canton shape
(CANTON_LOG2), whether attestation and key agreement succeeded, and the link session secret. -/
structure TrainResult where
  lanes : BitVec 16
  module_ : BitVec 17
  port : Fin 8
  stepping : Fin 16
  shape : Fin 4
  agreed : Bool
  secret : List Byte
  deriving DecidableEq, Repr

/-- Why a port goes down (R352): codeword lock lost for more than 1 ms, or a lane failed. -/
inductive DownCause | lock | lane (n : Fin 16)
  deriving DecidableEq, Repr

/-- A Nguku frame (R386): its header, and its ciphertext followed by the 16-byte tag. -/
structure SiteFrame where
  magic : Nat
  version : Nat
  ftype : Nat
  job : Nat
  srcSite : Nat
  dstSite : Nat
  stale : Bool
  sealed_ : Bool
  age : Nat
  sxid : Nat
  round : Nat
  item : Nat
  srcModule : Nat
  srcDie : Nat
  fseq : Nat
  aux : Nat
  text : List Byte
  deriving DecidableEq, Repr

/-- A packet other than a Nguku frame at a site port (R384). -/
inductive SitePacket
  | neighbourSolicitation | echoRequest | ipv4 | extensionHeader | fragment | dhcpv6 | routerAdvertisement | other
  deriving DecidableEq, Repr

/-- An instruction at the test access port (R435): the public ones, internal scan of the dies on a chain, any other
private one. -/
inductive TapInstr | bypass | idcode | samplePreload | extest | clamp | highz | scan (dies : List (Fin 64)) | other
  deriving DecidableEq, Repr

/-- Which message of a key agreement SEC_CMD KAGREE runs (R415): it starts one for a purpose, or hands in KA1, KA2 or
KA3. -/
inductive KaStep | start (purpose : Fin 16) | one | two | three
  deriving DecidableEq, Repr

/-- What a training of the host link found (R443, R444): CXL negotiated, lanes excluded, 32 GT/s. -/
structure HostTrain where
  cxl : Bool
  bad : BitVec 16
  r32 : Bool
  deriving DecidableEq, Repr

/-- What a management request SECBUF does as the host view (R459): it reads or writes SEC_BUF, or writes SEC_CMD (with
the message a KAGREE hands in). -/
inductive SecBufOp | read (off len : Nat) | write (off : Nat) (bytes : List Byte) | cmd (x : W32) (step : KaStep)
  deriving DecidableEq, Repr

/-- What a tenant image asks of the service firmware (R463): to start a queue, to post ring descriptors, to drain a
region of a variant. -/
inductive HyperCall
  | queue (d : Fin 40) (q : Fin 4)
  | ring (g : Fin 16) (tail : BitVec 16)
  | drain (d : Fin 40) (q : Fin 4) (table : Fin 16) (variant : BitVec 12) (w : Cmd)
  deriving DecidableEq, Repr

/-- Module types of DIMMs (R230). -/
inductive DimmType | mrdimm | rdimm | lrdimm | udimm | nvdimm
  deriving DecidableEq, Repr

/-- A DIMM as a start finds it (R230-R233): fitted, its module type, data bits, bits per device, physical ranks, whether its
SPD hub, sensors and PMIC answer over I3C Basic, capacity in GiB, organisation, RANKCFG, the rates its SPD declares (8,800
and 12,800 MT/s), whether its channel trains. -/
structure Dimm where
  fitted : Bool
  type : DimmType
  bits : Nat
  device : Nat
  phys : Nat
  sideband : Bool
  gib : Nat
  org : Nat
  ranks : Fin 3
  r88 : Bool
  r128 : Bool
  trains : Bool
  deriving DecidableEq, Repr

/-- The commands of an adapter pass that the job controller writes from a segment table (R217, R219): MPA of the table, and
for each variant (4,096 for base-only rows) the commands of its segment with the micro-batch's first row in their array
addresses. -/
structure AdapterProgram where
  segs : BitVec 48
  progs : List (Nat × List Cmd)
  deriving DecidableEq, Repr

/-- A write of a queue's TAIL, and the adapter pass that goes with it (R161, R219). -/
structure TailWrite where
  tail : BitVec 16
  adapter : Option AdapterProgram
  deriving DecidableEq, Repr

/-- A sequence for a micro-batch (R216, R217): its token rows, whether it begins a micro-batch, and the MPAs of the
micro-batch's row tags and segment table. -/
structure BatchSeq where
  rows : Nat
  fresh : Bool
  tags : BitVec 48
  segs : BitVec 48
  deriving DecidableEq, Repr

/-- The end of a period's work (R225): its kind, and the evaluation batches that have not finished. -/
structure PeriodEnd where
  kind : BitVec 2
  running : List Nat
  deriving DecidableEq, Repr

/-- A failing bit or logic block that BIST finds (R516): die, instance (for logic the block of R518; for a die without
block numbers there, the model's number), word, bit, whether it is logic, whether it fails only at the lowered voltage,
whether the instance still fails after its repair (R517). -/
structure BistFail where
  die : Fin 64
  inst : Nat
  word : Nat
  bit : Nat
  logic : Bool
  margin : Bool
  still : Bool
  deriving DecidableEq, Repr

/-- What a start meets (R481): slot straps, mean voltage and fall of the hold-up bank in mV (R497), whether the PUF
response can be corrected and gives the certified key (R404), what BIST finds, whether a die was tested outside its
temperatures, dies whose PLL does not lock, fabric ports that do not train, the 32 sockets in the order M00A, M00B, ...,
and durations of BIST and of the start in ms. -/
structure StartEnv where
  straps : BitVec 22
  bankMv : Nat
  dropMv : Nat
  pufOk : Bool
  keyOk : Bool
  fails : List BistFail
  hot : Bool
  bistMs : Nat
  plls : List (Fin 64)
  ports : List (Fin 64 × Fin 4)
  dimms : List Dimm
  ms : Nat
  deriving DecidableEq, Repr

/-- What the safety core samples (R522, R530): hottest sensor of each die and DIMM temperatures in °C (0xFF: none), rail
groups and input current in 0.1 A, cold-plate inlet and outlet in 0.1 °C, input voltage as 1 ms average and lowest 10 µs
sample in mV. -/
structure SafetySample where
  dies : List Nat
  dimms : List Nat
  rails : List Nat
  inputCur : Nat
  inlet : Nat
  outlet : Nat
  vin : Nat
  vinMin : Nat
  deriving DecidableEq, Repr

/-- A command to the module: one constructor per row of spec/opcode_table.json. -/
inductive Instr
  /-- R11. A write to a register field that has no behaviour of its own stores, clears (RW1C), or ignores the value by its access type. -/
  | registerWrite (v : View) (addr : Nat) (x hw : W32)
  /-- R35. A read of a reserved CRS address returns 0, a write to one is ignored, and the trust die raises a category-0 event. -/
  | crsReservedAccess (v : View) (addr : Nat) (wr : Option W32)
  /-- R36. A service-core access to another canton's die or view is refused (read 0, write ignored) with a security alarm. -/
  | crsForeignAccess (d : Fin 40) (addr : Nat) (wr : Option W32)
  /-- R28. An access entering the fabric is checked once at its entry die; it is forwarded, or refused with a bus error and an event. -/
  | mpaAccess (r : Requester) (op : MpaOp) (addr : Nat)
  /-- R20. A receiver checks a flit's CRC-16, and on error discards it and requests a re-send from the sender's retry buffer. -/
  | fabricFlitReceive (die : Fin 64) (port : Fin 4) (crcOk : Bool)
  /-- R25. After 16 consecutive failed re-sends a fabric port is declared down, and an event of canton or module scope is raised. -/
  | fabricPortDown (die : Fin 64) (port : Fin 4)
  /-- R23. A packet's head flit crosses a router by cut-through, or waits whole at a busy output stage until granted. -/
  | fabricPacketHop (id : Nat) (src dst : Fin 64) (cls : PacketClass) (flits : Nat) (busy : Bool)
  /-- R363. A shared arbiter decides the grant for the next cycle from the requests present, in the class and time-division order of its stage. -/
  | arbiterDecision (st : ArbStage) (reqs : List ArbReq)
  /-- R362. The trust die masks or unmasks an arbiter requester; a masked requester's grant lapses and its transfer in progress is cut off. -/
  | requesterMaskChange (st : ArbStage) (requester : Nat) (masked : Bool)
  /-- R66. A command held for unseeded generators proceeds once its unit's generators are seeded. -/
  | seedWaitRelease (die : Fin 64)
  /-- R96. An array moves the next command from its input FIFO into a free look-ahead place, in queue order. -/
  | maCommandAccept (d : Fin 40) (a : Fin 4)
  /-- R113. MA_HOIST names a new weight set to stream into the array behind the last old pass. -/
  | maHoist (d : Fin 40) (a q : Fin 4) (w : Cmd)
  /-- R114. MA_PASS feeds M tile rows through the array under the weight set of the preceding hoist. -/
  | maPass (d : Fin 40) (a q : Fin 4) (w : Cmd)
  /-- R115. MA_CCFG issues any open batch and configures the batch collector, resetting BUF to 0. -/
  | maCcfg (d : Fin 40) (a q : Fin 4) (w : Cmd)
  /-- R116. MA_REQ adds one request's rows to the collector's open batch, issuing the batch first if the rows would not fit. -/
  | maReq (d : Fin 40) (a q : Fin 4) (w : Cmd)
  /-- R117. MA_FLUSH issues the open collector batch, if any. -/
  | maFlush (d : Fin 40) (a q : Fin 4) (w : Cmd)
  /-- R92. A hoist's weight stream starts once it heads the hoist path, its first row is granted, and the previous front has started. -/
  | maStreamStart (d : Fin 40) (a : Fin 4)
  /-- R91. A hoist's front starts at max(L+128, E+1) and swaps each element's passing register into its active register. -/
  | maFrontStart (d : Fin 40) (a : Fin 4)
  /-- R99. The array reads one 64-byte line of a pass's tile-row bitmap ahead of the feed. -/
  | maMaskLineRead (d : Fin 40) (a : Fin 4) (line : Nat)
  /-- R83. In each cycle the array offers a slot's feed access; if granted the tile row is fed, otherwise a bubble is fed. -/
  | maSlotFeed (d : Fin 40) (a : Fin 4)
  /-- R84. An output accumulator writes round(d + c) for a slot's column to its destination, in ZERO or ACC mode. -/
  | maOutputWrite (d : Fin 40) (a : Fin 4) (col : Fin 128) (par : MaParity)
  /-- R87. A pass completes in the cycle after its last destination write and signals its counter. -/
  | maPassComplete (d : Fin 40) (a : Fin 4)
  /-- R104. MAXWAIT cycles after a batch's first request, the collector issues the batch. -/
  | maCollectorTimeout (d : Fin 40) (a : Fin 4)
  /-- R105. After a batch's last write the collector increments SIGCTR once. -/
  | maBatchComplete (d : Fin 40) (a : Fin 4)
  /-- R122. A write of CLEAR sets all of an array's performance counters to 0 in that cycle. -/
  | maPerfClear (d : Fin 40) (a : Fin 4)
  /-- R137. VADD adds two operands element by element, rounding once to DSTF. -/
  | vadd (d : Fin 40) (q : Fin 4) (w : Cmd) (bad : List VeBad)
  /-- R137. VSUB subtracts b from a element by element. -/
  | vsub (d : Fin 40) (q : Fin 4) (w : Cmd) (bad : List VeBad)
  /-- R137. VMUL multiplies two operands element by element. -/
  | vmul (d : Fin 40) (q : Fin 4) (w : Cmd) (bad : List VeBad)
  /-- R137. VFMA computes a × b + c with one rounding. -/
  | vfma (d : Fin 40) (q : Fin 4) (w : Cmd) (bad : List VeBad)
  /-- R137. VFNMA computes c − a × b with one rounding. -/
  | vfnma (d : Fin 40) (q : Fin 4) (w : Cmd) (bad : List VeBad)
  /-- R137. VMIN takes the element-wise minimum. -/
  | vmin (d : Fin 40) (q : Fin 4) (w : Cmd) (bad : List VeBad)
  /-- R137. VMAX takes the element-wise maximum. -/
  | vmax (d : Fin 40) (q : Fin 4) (w : Cmd) (bad : List VeBad)
  /-- R137. VSEL selects a or b per element by a mask operand. -/
  | vsel (d : Fin 40) (q : Fin 4) (w : Cmd) (bad : List VeBad)
  /-- R137. VCMPEQ writes a mask of a = b. -/
  | vcmpeq (d : Fin 40) (q : Fin 4) (w : Cmd) (bad : List VeBad)
  /-- R137. VCMPLT writes a mask of a < b. -/
  | vcmplt (d : Fin 40) (q : Fin 4) (w : Cmd) (bad : List VeBad)
  /-- R137. VCMPLE writes a mask of a ≤ b. -/
  | vcmple (d : Fin 40) (q : Fin 4) (w : Cmd) (bad : List VeBad)
  /-- R137. VCMPUN writes a mask of whether a or b is NaN. -/
  | vcmpun (d : Fin 40) (q : Fin 4) (w : Cmd) (bad : List VeBad)
  /-- R138. VSPLIT writes the significand of a to OPD and its exponent to OPC. -/
  | vsplit (d : Fin 40) (q : Fin 4) (w : Cmd) (bad : List VeBad)
  /-- R138. VSCALE writes a × 2^b rounded once to DSTF. -/
  | vscale (d : Fin 40) (q : Fin 4) (w : Cmd) (bad : List VeBad)
  /-- R140. VCVT converts OPA from SRCF to DSTF, with block scales where either format is scaled. -/
  | vcvt (d : Fin 40) (q : Fin 4) (w : Cmd) (bad : List VeBad)
  /-- R143. VRCPE writes the defined reciprocal estimate. -/
  | vrcpe (d : Fin 40) (q : Fin 4) (w : Cmd) (bad : List VeBad)
  /-- R144. VRSQE writes the defined reciprocal-square-root estimate. -/
  | vrsqe (d : Fin 40) (q : Fin 4) (w : Cmd) (bad : List VeBad)
  /-- R145. VEXP2E writes 2^g for x rounded to a multiple of 2^−11. -/
  | vexp2e (d : Fin 40) (q : Fin 4) (w : Cmd) (bad : List VeBad)
  /-- R147. VRSUM reduces the active elements to their sum along the chosen axis. -/
  | vrsum (d : Fin 40) (q : Fin 4) (w : Cmd) (bad : List VeBad)
  /-- R147. VRPROD reduces the active elements to their product. -/
  | vrprod (d : Fin 40) (q : Fin 4) (w : Cmd) (bad : List VeBad)
  /-- R147. VRMAX reduces the active elements to their maximum. -/
  | vrmax (d : Fin 40) (q : Fin 4) (w : Cmd) (bad : List VeBad)
  /-- R147. VRMIN reduces the active elements to their minimum. -/
  | vrmin (d : Fin 40) (q : Fin 4) (w : Cmd) (bad : List VeBad)
  /-- R147. VRMEAN reduces the active elements to their mean. -/
  | vrmean (d : Fin 40) (q : Fin 4) (w : Cmd) (bad : List VeBad)
  /-- R147. VRIMAX returns the INT32 index of the maximum. -/
  | vrimax (d : Fin 40) (q : Fin 4) (w : Cmd) (bad : List VeBad)
  /-- R147. VRIMIN returns the INT32 index of the minimum. -/
  | vrimin (d : Fin 40) (q : Fin 4) (w : Cmd) (bad : List VeBad)
  /-- R135. VTLOAD loads a rectangle of local store into a tile register, optionally transposed. -/
  | vtload (d : Fin 40) (q : Fin 4) (w : Cmd) (bad : List VeBad)
  /-- R135. VTSTORE stores a tile-register rectangle to local store, rounding once to FMT. -/
  | vtstore (d : Fin 40) (q : Fin 4) (w : Cmd) (bad : List VeBad)
  /-- R136. VTTRANS writes the transpose of one tile register to another. -/
  | vttrans (d : Fin 40) (q : Fin 4) (w : Cmd) (bad : List VeBad)
  /-- R136. VSETS loads a scalar register with a 32-bit immediate. -/
  | vsets (d : Fin 40) (q : Fin 4) (w : Cmd) (bad : List VeBad)
  /-- R139. VMLOAD loads a mask register from a stream. -/
  | vmload (d : Fin 40) (q : Fin 4) (w : Cmd) (bad : List VeBad)
  /-- R139. VMSTORE writes a mask register to a stream. -/
  | vmstore (d : Fin 40) (q : Fin 4) (w : Cmd) (bad : List VeBad)
  /-- R139. VMOP applies the mask function named in SRCF to mask registers. -/
  | vmop (d : Fin 40) (q : Fin 4) (w : Cmd) (bad : List VeBad)
  /-- R136. VGETF waits for earlier instructions, copies the arithmetic flags to a scalar register and optionally clears them. -/
  | vgetf (d : Fin 40) (q : Fin 4) (w : Cmd) (bad : List VeBad)
  /-- R149. An instruction stalled on a register or line dependence proceeds once the earlier access is done. -/
  | veDependenceRelease (d : Fin 40) (cycles : Nat) (bad : List VeBad)
  /-- R159. A write of CLEAR sets the vector-engine performance counters to 0. -/
  | vePerfClear (d : Fin 40)
  /-- R161. A write of a queue's TAIL exposes new commands, or puts the queue into FAULT 0x8 on overrun. -/
  | seqQueueTailWrite (d : Fin 40) (q : Fin 4) (write : TailWrite)
  /-- R162. A queue dispatches its head command to a unit FIFO with room, or faults it at the head. -/
  | seqDispatch (d : Fin 40) (fetch : QueueRead)
  /-- R164. A command with SIG completes and the sequencer increments counter 16q + s in the next cycle. -/
  | seqCompletionSignal (d : Fin 40)
  /-- R166. A service-core write sets a sequencer counter, ahead of the increments of that cycle. -/
  | seqCtrWrite (d : Fin 40) (c : Fin 256) (value : BitVec 16)
  /-- R166. A service-core write adds INC to a sequencer counter. -/
  | seqCtrInc (d : Fin 40) (c : Fin 256) (inc : BitVec 16)
  /-- R171. SYNC_WAIT holds its queue until a counter reaches a threshold. -/
  | syncWait (d : Fin 40) (q : Fin 4) (w : Cmd)
  /-- R167. A waited counter reaches its threshold and the queue proceeds. -/
  | syncWaitSatisfied (d : Fin 40) (q : Fin 4)
  /-- R171. SYNC_SIGNAL adds INC to a counter. -/
  | syncSignal (d : Fin 40) (q : Fin 4) (w : Cmd)
  /-- R169. SYNC_PWAIT holds its queue until a pennant reaches THRESH. -/
  | syncPwait (d : Fin 40) (q : Fin 4) (w : Cmd)
  /-- R169. A remote pennant is read again every 16 × PPOLL cycles, and the wait ends when it meets the threshold. -/
  | pennantPoll (d : Fin 40) (poll : QueueRead)
  /-- R169. SYNC_PSIGNAL adds an increment atomically to a pennant at the memory that holds it. -/
  | syncPsignal (d : Fin 40) (q : Fin 4) (w : Cmd)
  /-- R172. SYNC_SETBASE sets one of a queue's base registers. -/
  | syncSetbase (d : Fin 40) (q : Fin 4) (w : Cmd)
  /-- R173. SYNC_CALL runs a block of commands fetched from memory, to a depth of 4. -/
  | syncCall (d : Fin 40) (q : Fin 4) (w : Cmd)
  /-- R173. SYNC_HALT puts the queue into HALTED and interrupts the service cores. -/
  | syncHalt (d : Fin 40) (q : Fin 4) (w : Cmd)
  /-- R170. A wait that lasts WDOG × 1,024 cycles raises 0x4067 once and continues. -/
  | seqWaitWatchdog (d : Fin 40) (q : Fin 4)
  /-- R191. START moves a queue from IDLE, HALTED or STOPPED to RUN. -/
  | queueStart (d : Fin 40) (write : CtlWrite)
  /-- R191. STOP ends a queue's dispatch, abandoning any wait at its head. -/
  | queueStop (d : Fin 40) (write : CtlWrite)
  /-- R191. RESUME returns a faulted queue to RUN, retrying the held command. -/
  | queueResume (d : Fin 40) (write : CtlWrite)
  /-- R191. RESUME with SKIP discards the held command and continues. -/
  | queueResumeSkip (d : Fin 40) (write : CtlWrite)
  /-- R191. ABORT returns a queue to IDLE, discards unstarted commands and clears the call stack. -/
  | queueAbort (d : Fin 40) (write : CtlWrite)
  /-- R174. DMA_COPY copies a contiguous range between MPAs. -/
  | dmaCopy (d : Fin 40) (q : Fin 4) (w : Cmd)
  /-- R175. DMA_COPY2D copies rows described by a descriptor in local store. -/
  | dmaCopy2d (d : Fin 40) (q : Fin 4) (w : Cmd)
  /-- R174. DMA_FILL writes a 32-bit pattern over a range. -/
  | dmaFill (d : Fin 40) (q : Fin 4) (w : Cmd)
  /-- R176. The DMA unit starts its next command in FIFO order when fewer than eight are in flight, reading any descriptor then. -/
  | dmaCommandStart (d : Fin 40)
  /-- R176. A target acknowledges a DMA packet, freeing an outstanding place, or returns a bus error that faults the queue. -/
  | dmaPacketAck (d : Fin 40) (cmd pkt : Nat) (res : MemResp)
  /-- R178. In each cycle the local-store arbiter grants whole accesses in reservation, urgent and cyclic order. -/
  | lsArbitrate (d : Fin 40) (accs : List LsAccess) (lsEcc gasEcc : List StoreEcc)
  /-- R183. GAS_ZERO writes +0 over a GAS region. -/
  | gasZero (d : Fin 40) (q : Fin 4) (w : Cmd)
  /-- R183. GAS_DRAIN covers a GAS region's granules and makes it the contribution of a collective. -/
  | gasDrain (d : Fin 40) (q : Fin 4) (w : Cmd)
  /-- R184. A drain starts once every earlier writer of its covered granules has completed and fewer than four drains are active. -/
  | gasDrainStart (d : Fin 40)
  /-- R185. The drain engine reads a piece the collective asks for and zeroes it under ZAFTER. -/
  | gasDrainPieceRead (d : Fin 40) (group opseq piece : Nat)
  /-- R207. The job controller replays the block below to rebuild an unreadable kept input, or reports the step lost. -/
  | keptInputRebuild (d : Fin 40) (q : Fin 4) (first below : Bool) (base : Fin 8) (fresh : BitVec 48) (copy : List Byte)
  /-- R215. The job controller activates a variant table, or refuses it with 0x5234. -/
  | variantTableActivate (k : Fin 8) (addr : BitVec 48)
  /-- R218. The data loader admits a sequence, or drops it with 0x5230. -/
  | sequenceAdmit (k : Fin 8) (table : Fin 16) (tag : W32) (seq : BatchSeq)
  /-- R221. The job controller issues an adapter drain with the variant's group, or refuses a foreign request with 0x5431. -/
  | adapterDrainRequest (d : Fin 40) (q : Fin 4) (table : Fin 16) (variant : BitVec 12) (w : Cmd)
  /-- R229. A rise of CAD_CTL.EN restarts the timer at 0 and starts period 0 as a step period. -/
  | cadEnable (k : Fin 8)
  /-- R225. Service firmware reports the end of the current period's work. -/
  | cadDone (k : Fin 8) (report : PeriodEnd)
  /-- R229. The timer reaches the period deadline, sets LATE if work continues and interrupts the service cores once. -/
  | cadDeadline (k : Fin 8) (waiting : List Nat)
  /-- R224. The next period begins at max(end, deadline), with its debt, length and deadline computed. -/
  | cadPeriodStart (k : Fin 8)
  /-- R226. The evaluation scheduler starts a batch only before the window deadline. -/
  | evalBatchStart (k : Fin 8) (batch : Nat)
  /-- R233. A running channel recalibrates every 100 ms. -/
  | channelRecalibrate (m : Fin 16) (c : Fin 2)
  /-- R234. A DIMM temperature reading halves the refresh interval or caps the channel and raises 0x301A. -/
  | dimmTempSample (m : Fin 16) (c : Fin 2) (temps : List Nat)
  /-- R252. The seal engine accepts a read, checks the poison table and fetches data, tags and counters. -/
  | sealRead (m : Fin 16) (n : Nat)
  /-- R252. With every burst in, the engine verifies the tag and releases the plaintext or returns a bus error. -/
  | sealReadComplete (m : Fin 16) (n : Nat) (f : Fetched)
  /-- R253. A full-block write is encrypted under the next counter and tagged. -/
  | sealFullWrite (m : Fin 16) (n : Nat) (f : Fetched)
  /-- R254. A partial write reads, verifies, merges and re-encrypts the block, or is refused. -/
  | sealPartialWrite (m : Fin 16) (n : Nat) (f : Fetched)
  /-- R254. A pennant addition is served as an 8-byte partial write of old value plus increment. -/
  | sealAtomicAdd (m : Fin 16) (n : Nat) (f : Fetched)
  /-- R259. A write of an entry index to SEAL_REINIT starts clearing that poison entry. -/
  | sealReinit (m : Fin 16) (index : Fin 1024)
  /-- R259. A reinit finishes, sets DONE and clears its poison entry. -/
  | sealReinitComplete (m : Fin 16) (lost : List (Fin 64))
  /-- R262. The patrol scrub reads the next burst, writes back corrected bits and optionally verifies tags. -/
  | patrolScrubStep (m : Fin 16) (f mirror block : BurstErrs)
  /-- R262. Every 10 ms the resident store and its tags are scrubbed and verified. -/
  | residentScrub (m : Fin 16) (r : CacheFault)
  /-- R263. The seal engines finish initialising the counter tree and set SEAL_STATUS.TREE. -/
  | treeInitComplete (m : Fin 16)
  /-- R267. A write of CLEAR sets the seal performance counters to 0. -/
  | sealPerfClear (m : Fin 16)
  /-- R288. A rise of UE_CTL.EN reads descriptors, the schedule and journal copies and recovers interrupted shards. -/
  | ueEnable (m : Fin 16) (tables journals : BlockReads)
  /-- R301. Setting PAUSE stops the engine at the next square boundary. -/
  | uePause (m : Fin 16)
  /-- R301. UE_CTL.RESET waits for the burst in hand-over, then clears the SRAM journal, the output buffer and EN. -/
  | ueReset (m : Fin 16)
  /-- R273. A reduced square arrives in the landing buffer, tagged with shard and square. -/
  | ueSquareLand (m : Fin 16) (shard square : Nat) (outer : Bool) (data : List Byte)
  /-- R286. The engine takes a ready square and commits it in moment, master and copy bursts. -/
  | ueSquareCommit (m : Fin 16) (reads : BlockReads)
  /-- R286. Every write of a burst is acknowledged, and the engine starts the next burst or finishes the square. -/
  | ueBurstAck (m : Fin 16)
  /-- R282. A write of UE_NORMIN supplies a layer or step norm, sets the clip factor and releases held squares. -/
  | ueNormin (m : Fin 16) (sumsq : W32)
  /-- R300. RELOAD rereads the table, schedule and journal copies. -/
  | ueReload (m : Fin 16) (tables journals : BlockReads)
  /-- R292. REDERIVE rewrites both working copies of an IDLE shard from its master. -/
  | ueRederive (m : Fin 16) (shard : Fin 16384) (reads : BlockReads)
  /-- R293. AUDIT recomputes a shard's working copies and counts the differing elements. -/
  | ueAudit (m : Fin 16) (shard : Fin 16384) (reads : BlockReads)
  /-- R293. An IDLE shard is audited once per EVERY steps. -/
  | ueAuditInterval (m : Fin 16) (turn : AuditTurn)
  /-- R295. EXPORT writes sealed records of the selected kinds to the destination, stopping at LIMIT. -/
  | ueExport (m : Fin 16) (shard : Fin 16384) (reads : BlockReads)
  /-- R298. IMPORT authenticates a record and writes its intersection, or restores the journal from a kind-5 record. -/
  | ueImport (m : Fin 16) (shard : Fin 16384) (record : SealedRecord)
  /-- R300. DISABLE marks the shard DISABLED and discards its held and landed squares. -/
  | ueDisable (m : Fin 16) (shard : Fin 16384)
  /-- R280. SNAPSHOT copies MASTER to SNAP of an OUTER shard. -/
  | ueSnapshot (m : Fin 16) (shard : Fin 16384) (reads : BlockReads)
  /-- R300. A running engine command finishes and sets DONE, or stops on a bus error and sets REFUSED. -/
  | ueCommandComplete (turn : EngineTurn)
  /-- R306. CREATE takes a group from FREE to READY and claims slots, or enters staged mode. -/
  | groupCreate (k : Fin 8) (g : Fin 4096)
  /-- R325. CLAIM retries the slot claim of a staged group. -/
  | groupClaim (k : Fin 8) (g : Fin 4096)
  /-- R329. RESUME clears STALLED and resends unacknowledged pieces. -/
  | groupResume (k : Fin 8) (g : Fin 4096)
  /-- R330. ABORT marks the operations in progress aborted, aborts their drains and sends abort messages. -/
  | groupAbort (k : Fin 8) (g : Fin 4096)
  /-- R330. RESET aborts the operations in progress and returns the group to READY with HEAD set to TAIL. -/
  | groupReset (k : Fin 8) (g : Fin 4096)
  /-- R306. FREE releases the group's slots and staging granules. -/
  | groupFree (k : Fin 8) (g : Fin 4096)
  /-- R309. A write of GC_QTAIL posts descriptors, or puts the group into FAULT on overrun. -/
  | groupTailWrite (k : Fin 8) (g : Fin 4096) (tail : BitVec 16)
  /-- R311. The queue link die checks a reached descriptor and refuses it with 0x2233 if it breaks a rule. -/
  | descriptorFetch (g : Fin 4096)
  /-- R312. The queue link die reads a trigger pennant every 16 × TPOLL cycles. -/
  | triggerPoll (g : Fin 4096)
  /-- R312. An operation starts once its conditions hold. -/
  | operationStart (g : Fin 4096)
  /-- R316. A link die adds a piece's local and incoming values and hands the result on. -/
  | pieceCombine (g : Fin 4096) (opseq : BitVec 16) (gather : Bool) (u : Fin 7) (off len : Nat)
  /-- R321. A member receives a piece and checks job, context, descriptor and PSN. -/
  | pieceReceive (k : Fin 8) (u : Fin 7) (p : Piece)
  /-- R320. A receiver sends a cumulative acknowledgement at least every 8 pieces or 1 µs. -/
  | pieceAckSend (g : Fin 4096) (u : Fin 7)
  /-- R320. A cumulative acknowledgement frees the sender's acknowledged pieces. -/
  | pieceAck (g : Fin 4096) (u : Fin 7) (member : Nat) (psn : BitVec 32)
  /-- R321. A sender offers a piece refused with NOCTX again every 1 µs. -/
  | noctxRetry (g : Fin 4096) (u : Fin 7) (psn : BitVec 32)
  /-- R313. An operation completes, writes the descriptor status and adds DONEINC to DONE. -/
  | operationComplete (g : Fin 4096) (opseq : BitVec 16)
  /-- R327. A member whose oldest piece has waited sends a beacon downstream every PATIENCE / 8. -/
  | beaconSend (g : Fin 4096)
  /-- R327. A beacon names the slowest member, and the member relays it. -/
  | beaconReceive (g : Fin 4096) (u : Fin 6) (opseq : BitVec 16) (named : BitVec 17)
  /-- R328. No progress for PATIENCE µs puts the group into STALLED and raises 0x2232. -/
  | groupStall (g : Fin 4096)
  /-- R330. A member receiving an abort message aborts those operations once and relays the message. -/
  | abortMessageReceive (g : Fin 4096) (opseqs : List Nat)
  /-- R334. A write of CL_PERF_CTL.CLEAR clears the slot peak and piece counters. -/
  | clCounterClear (k : Fin 8) (l : Fin 6)
  /-- R337. A port sends an authenticated control codeword with ACKs, credits and NAKs once per 1,536 codewords. -/
  | controlCodewordSend (l : Fin 6)
  /-- R340. A received control codeword is authenticated and its ACKs, NAKs, credits and epoch controls are applied. -/
  | controlCodewordReceive (l : Fin 6) (c : CtlWord) (tag : List Byte)
  /-- R346. A received packet is checked, decrypted, held above gaps and delivered in order or routed on. -/
  | torusPacketReceive (l : Fin 6) (k : Fin 8) (p : TorusPacket) (a : Arrival)
  /-- R349. LK_CFG.RETRAIN starts an LRST training of the port. -/
  | linkRetrain (l : Fin 6)
  /-- R349. Training completes: identity exchanged, keys loaded, sequence numbers zeroed and the port UP. -/
  | linkTrainComplete (l : Fin 6) (r : TrainResult)
  /-- R350. A port held down by a neighbour failure retries training every 1 s. -/
  | linkTrainRetry (l : Fin 6)
  /-- R352. A port goes down, raises 0x2243 and retrains, possibly at width 8. -/
  | linkDown (l : Fin 6) (why : DownCause)
  /-- R352. Packets routed to a down port are discarded after HOLDMS, raising 0x2246. -/
  | downPortHoldExpire (l : Fin 6) (k : Fin 8)
  /-- R359. A plane's sender starts the next key epoch after 2^32 packets or the rekey period. -/
  | epochChange (l : Fin 6) (k : Fin 8)
  /-- R360. A forced rekey moves a plane to the next epoch at once and discards its unacknowledged packets. -/
  | forcedRekey (v : View) (l : Fin 6) (planes : BitVec 8)
  /-- R369. A write of LK_CNT_CTL.CLEAR sets all link counters to 0. -/
  | linkCounterClear (l : Fin 6)
  /-- R536. A cable inserted into an enabled port starts a training. -/
  | cableInsert (l : Fin 6)
  /-- R536. A cable removed from a running port takes the port down. -/
  | cableRemove (l : Fin 6)
  /-- R373. A rise of SX_CTL.EN checks every exchange entry and refuses bad ones with 0x3244. -/
  | sxEnable (m : Fin 16)
  /-- R375. OPENALL opens the round on every IDLE holder entry, quantises its delta and sends it to the leader. -/
  | openall (m : Fin 16)
  /-- R398. BOOT makes a never-joined holder request a snapshot from its leader. -/
  | boot (m : Fin 16) (shard : Fin 16384)
  /-- R399. DISABLE takes a shard's entry out of the exchange and abandons any open round. -/
  | sxDisable (m : Fin 16) (shard : Fin 16384)
  /-- R379. A leader receives a contribution chunk, acknowledges it, or refuses it as late, behind or not led. -/
  | data (m : Fin 16) (f : SiteFrame)
  /-- R379. A leader receives a contributor's DONE, admitting that site to the quorum set. -/
  | done (m : Fin 16) (f : SiteFrame)
  /-- R389. A sender receives acknowledged FSEQ ranges and stops resending those items. -/
  | sack (m : Fin 16) (f : SiteFrame)
  /-- R380. A quorum member learns the included sites of each chunk and sends its mask correction. -/
  | include_ (m : Fin 16) (f : SiteFrame)
  /-- R380. A leader adds a received mask correction into its correction slot. -/
  | corr (m : Fin 16) (f : SiteFrame)
  /-- R388. A holder receives the merge header with status, lineage and counted chunks. -/
  | mhead (m : Fin 16) (f : SiteFrame)
  /-- R381. A holder receives one merge item of the merged delta. -/
  | merge (m : Fin 16) (f : SiteFrame)
  /-- R397. A source receiving SNAPREQ serves SNAPHEAD and its SNAP and momentum items. -/
  | snapreq (m : Fin 16) (f : SiteFrame)
  /-- R397. A rebasing holder receives SNAPHEAD, enters REBASE and folds its progress. -/
  | snaphead (m : Fin 16) (f : SiteFrame)
  /-- R397. A rebasing holder writes a received snapshot item into SNAP or outer momentum. -/
  | snap (m : Fin 16) (f : SiteFrame)
  /-- R388. A received NOTICE reports LATE, BEHIND, NOTLEAD, NOCTX or YIELD and the holder acts on it. -/
  | notice (m : Fin 16) (f : SiteFrame)
  /-- R393. A received PROBE updates the out-of-touch view and the peer's port state. -/
  | probe (m : Fin 16) (f : SiteFrame)
  /-- R393. A PROBE is sent to each counterpart module every 1 s when no other frame goes to it. -/
  | probeSend (m : Fin 16) (site : Fin 64) (module_ : BitVec 17)
  /-- R379. At the data deadline the leader fixes the quorum set, then merges or sends INCLUDE or no-quorum. -/
  | leaderDataDeadline (m : Fin 16) (shard : Fin 16384)
  /-- R380. At the correction deadline chunks missing corrections are excluded, and the merge is formed and sent. -/
  | leaderCorrDeadline (m : Fin 16) (shard : Fin 16384)
  /-- R389. An item unacknowledged after RTO is resent in a new frame. -/
  | frameResendTimeout (m : Fin 16) (n : Nat)
  /-- R389. A receiver sends SACK at least every 32 frames or 1 ms. -/
  | sackSend (m : Fin 16) (site : Fin 64) (module_ : BitVec 17) (die : Fin 16)
  /-- R393. After SP_LOSTMS without an authenticated frame a site is out of touch, and rounds led by it are abandoned. -/
  | siteOutOfTouch (k : Fin 8) (site : Fin 64)
  /-- R382. The site-local collective's DONE pennant returns the exchange entry to IDLE. -/
  | exchangeCollectiveDone (m : Fin 16) (shard : Fin 16384)
  /-- R384. A Packet Too Big message below 8,448 bytes marks the path unusable and raises 0x1253. -/
  | packetTooBig (p : Fin 2) (site : Fin 64) (mtu : Nat)
  /-- R540. A site port comes up or goes down and frames move to the other port. -/
  | sitePortLinkChange (p : Fin 2) (up : Bool)
  /-- R402. A write of SX_CNT_CTL.CLEAR sets the exchange counters to 0. -/
  | sxCounterClear (m : Fin 16)
  /-- R403. A write of SP_CNT_CTL.CLEAR sets the site-engine counters to 0. -/
  | spCounterClear
  /-- R409. The SPDM responder answers GET_VERSION. -/
  | spdmGetVersion (tcp : Bool)
  /-- R409. The responder answers GET_CAPABILITIES. -/
  | spdmGetCapabilities (tcp : Bool)
  /-- R409. The responder answers NEGOTIATE_ALGORITHMS. -/
  | spdmNegotiateAlgorithms (tcp offered : Bool)
  /-- R409. The responder returns the digest of the ensign in slot 0. -/
  | spdmGetDigests (tcp : Bool)
  /-- R405. The responder returns the ensign. -/
  | spdmGetCertificate (tcp : Bool) (slot off len : Nat)
  /-- R409. The responder signs a challenge with the identity key. -/
  | spdmChallenge (tcp : Bool) (nonce : List Byte)
  /-- R410. The responder returns the measurement blocks, signed over a nonce. -/
  | spdmGetMeasurements (tcp : Bool) (index : Nat) (nonce : Option (List Byte))
  /-- R409. The responder starts a secure session for IDE key management. -/
  | spdmKeyExchange (tcp : Bool) (share : List Byte)
  /-- R409. The responder completes the secure session. -/
  | spdmFinish (tcp : Bool) (proof : List Byte)
  /-- R409. The responder ends the secure session. -/
  | spdmEndSession (tcp : Bool)
  /-- R409. The responder takes one chunk of a long request. -/
  | spdmChunkSend (tcp : Bool) (seq : Nat) (part : List Byte)
  /-- R409. The responder returns one chunk of a long response. -/
  | spdmChunkGet (tcp : Bool) (seq : Nat)
  /-- R431. The responder serves a CXL IDE_KM request over the secure session. -/
  | spdmVendorDefinedRequest (tcp : Bool) (keys : List Byte)
  /-- R449. The DOE instance answers a Discovery request. -/
  | doeDiscovery (index : Nat)
  /-- R449. A DOE Abort ends the request in progress within 1 ms and discards its values. -/
  | doeAbort
  /-- R441. A write of SEC_OWN takes or releases SEC_BUF ownership, zeroising the buffer on release. -/
  | secOwnWrite (v : View) (x : W32)
  /-- R419. ASSIGN verifies assignment, manifest and policy and moves a FREE canton to ASSIGNED with fresh keys. -/
  | secAssign (v : View) (k : Fin 8)
  /-- R415. KAGREE runs one message of a hybrid key agreement for the purpose named. -/
  | secKagree (v : View) (k : Fin 8) (step : KaStep)
  /-- R415. A responder receives KA1 and answers with a signed KA2. -/
  | ka1 (msg : List Byte)
  /-- R416. An initiator receives KA2, verifies it and sends KA3. -/
  | ka2 (n : Nat) (msg : List Byte)
  /-- R416. A responder receives KA3, verifies it and derives the secret for its purpose. -/
  | ka3 (n : Nat) (msg : List Byte)
  /-- R416. A KA2 or KA3 not following its KA1 within 10 s discards the exchange with 0x0468. -/
  | kaTimeout (n : Nat)
  /-- R423. DATAKEY unwraps party data keys into HD key slots bound to the party. -/
  | secDatakey (v : View) (k : Fin 8)
  /-- R423. A party's signed withdrawal destroys a data-key slot at once. -/
  | datakeyWithdraw (k : Fin 8) (keyId : BitVec 32) (sig : List Byte)
  /-- R425. CKPT generates a checkpoint key, loads it into the update engines and writes a wrapped envelope. -/
  | secCkpt (v : View) (k : Fin 8) (slot : Fin 16)
  /-- R426. RESUME submits a checkpoint envelope into a key slot to gather shares. -/
  | secResume (v : View) (k : Fin 8) (slot : Fin 16)
  /-- R426. SHARE submits one party's share; at the threshold the key is rebuilt and checked against the KCV. -/
  | secShare (v : View) (k : Fin 8)
  /-- R428. RELEASE verifies a k-of-n release request and loads a release key and authorisation. -/
  | secRelease (v : View) (k : Fin 8) (slot : Fin 16)
  /-- R432. CONSENT records a party's consent, making a bit effective once every party has signed. -/
  | secConsent (v : View) (k : Fin 8)
  /-- R432. One party's withdrawal clears the named consent bits and ends sessions they allow. -/
  | consentWithdraw (k : Fin 8) (party : Nat) (bits : BitVec 8) (sig : List Byte)
  /-- R414. KEYDROP destroys the checkpoint or release key of a slot. -/
  | secKeydrop (v : View) (k : Fin 8) (slot : Fin 16)
  /-- R436. SCRUB starts quiescing an ASSIGNED canton for the scrub between users. -/
  | secScrub (v : View) (k : Fin 8)
  /-- R436. Once quiesced, the canton's keys are erased, its state zeroised, and the tree re-initialised. -/
  | scrubQuiesced (k : Fin 8)
  /-- R436. A quiesce beyond 100 ms forces a CRST of the canton and raises 0x0266. -/
  | scrubQuiesceTimeout (k : Fin 8)
  /-- R436. After overwrite and rekey the fresh keys are destroyed and the canton is FREE. -/
  | scrubComplete (k : Fin 8)
  /-- R424. The HD cipher decrypts a party record from sealed DRAM into sealed DRAM, or refuses it with 0x146A. -/
  | partyRecordDecrypt (k : Fin 8) (src dst : Nat)
  /-- R431. A CXL IDE integrity failure stops all DMA of every canton and raises 0x1463. -/
  | ideIntegrityFailure
  /-- R435. A TAP instruction acts, or behaves as BYPASS when not allowed. -/
  | tapInstruction (ti : TapInstr)
  /-- R435. Before internal scan, the trust die destroys keys, zeroises dies, sets SCANNED and raises 0x0469. -/
  | scanEnable
  /-- R443. The host link trains as CXL or PCIe, at ×16 or ×8 with lane reversal, or stays down. -/
  | hostLinkTrain (t : HostTrain)
  /-- R500. PERST# retrains the host link and returns host-written HI fields to cold-reset values. -/
  | perstAssert
  /-- R500. FLR returns host-written HI fields to cold-reset values without retraining. -/
  | functionLevelReset
  /-- R442. The HD answers every host snoop with a miss. -/
  | hostSnoop (addr : Nat)
  /-- R447. A BAR0 access of a wrong size completes with Completer Abort and raises 0x1269. -/
  | bar0BadAccess (addr size : Nat)
  /-- R448. Unmasking an MSI-X vector with its pending bit set delivers the interrupt. -/
  | msixVectorUnmask (v : Fin 64)
  /-- R450. A write of EN = 0 to a region takes effect once its descriptors in progress complete. -/
  | regionDisable (k : Fin 8) (r : Fin 16)
  /-- R451. A write of EN = 1 starts a ring, ignored before the purpose-3 agreement. -/
  | ringEnable (k : Fin 8) (g : Fin 16)
  /-- R454. A write of EN = 0 stops a ring after its descriptors in progress complete. -/
  | ringDisable (k : Fin 8) (g : Fin 16)
  /-- R453. The HD starts a ring descriptor, up to four in progress, moving a host record in its direction. -/
  | ringDescriptorStart (k : Fin 8) (g : Fin 16) (host : Option (List Byte))
  /-- R453. A descriptor completes in ring order, writes STATUS and SEQ, and adds to DONE or stops the ring. -/
  | ringDescriptorComplete (k : Fin 8) (g : Fin 16)
  /-- R454. RESTART retries a stopped descriptor with the same expected SEQ. -/
  | ringRestart (k : Fin 8) (g : Fin 16)
  /-- R454. ABORT discards the descriptors from HEAD to TAIL. -/
  | ringAbort (k : Fin 8) (g : Fin 16)
  /-- R456. A write to a DP_DATA window streams bytes or host records to DP_ADDR, or is refused. -/
  | dpDataWrite (p : Fin 2) (bytes : List Byte)
  /-- R456. A read of a DP_DATA window streams bytes from DP_ADDR, or returns zeros if refused. -/
  | dpDataRead (p : Fin 2) (len : Nat)
  /-- R466. A write of DP_CTL sets the port's mode and restarts DP_COUNT. -/
  | dpCtlWrite (p : Fin 2) (x : W32)
  /-- R455. A read of DP_STATUS returns only after earlier window writes are acknowledged. -/
  | dpStatusRead (p : Fin 2)
  /-- R508. The trust die receives an event, assigns ESEQ and logs it. -/
  | eventReceive
  /-- R457. A write of HI_HOSTTIME_HI sets the host time base. -/
  | hosttimeWrite (x : W32)
  /-- R458. A host write of HI_MBOXk_TO_HI posts a message and interrupts the canton's cores. -/
  | mboxToWrite (k : Fin 8) (x : W32)
  /-- R458. A canton write of HI_MBOXk_FROM_HI posts a message and raises MSI-X vector 2 + k. -/
  | mboxFromWrite (k : Fin 8) (x : W32)
  /-- R466. A canton read of TO_HI clears TOFULL. -/
  | mboxToRead (k : Fin 8)
  /-- R466. A host read of FROM_HI clears FROMFULL. -/
  | mboxFromRead (k : Fin 8)
  /-- R459. A management INFO request returns serial, module ID, stepping and MAC addresses. -/
  | info
  /-- R459. A management READ request returns readable registers. -/
  | mgmtRead (addrs : List Nat)
  /-- R459. A signed management WRITE writes host-writable fields. -/
  | mgmtWrite (addr : Nat) (x : W32) (mseq : BitVec 64) (sig : List Byte)
  /-- R459. A signed DPSET sets DP_ADDR and DP_CTL of bulk data port 1. -/
  | dpset (addr : BitVec 48) (ctl : W32) (mseq : BitVec 64) (sig : List Byte)
  /-- R459. DPDATA streams bytes through bulk data port 1. -/
  | dpdata (bytes : List Byte)
  /-- R459. DPREAD returns bytes through bulk data port 1. -/
  | dpread (len : Nat)
  /-- R459. A signed SECBUF reads or writes SEC_BUF and SEC_CMD as the host view. -/
  | secbuf (op : SecBufOp) (mseq : BitVec 64) (sig : List Byte)
  /-- R463. The trust die measures a tenant image and SFW starts it if admitted, raising 0x4070. -/
  | tenantImageStart (k : Fin 8) (mpa len : Nat)
  /-- R463. A tenant image asks SFW for queue, ring or drain work, which SFW checks. -/
  | tenantHypercall (k : Fin 8) (img : Nat) (call : HyperCall)
  /-- R464. An unresolved guest fault halts that image and raises 0x4271. -/
  | guestFault (d : Fin 40) (img : Nat)
  /-- R464. A service-core cache error is corrected, or an uncorrectable scratchpad error is fatal for the canton. -/
  | serviceCoreCacheError (d : Fin 40) (scratchpadLost : Bool)
  /-- R481. Input above 43.5 V for 1 ms with REFCLK starts the cold start-up sequence. -/
  | powerOn (env : StartEnv)
  /-- R481. Start-up reaches RUN, with every canton FREE, and raises 0x0078. -/
  | startUpComplete (env : StartEnv)
  /-- R470. A PLL not locked within 1 ms leaves its die failed. -/
  | pllLockTimeout (die : Fin 64)
  /-- R538. MRST_N held low for 10 µs holds the module in reset. -/
  | mrstNAssert
  /-- R538. The rising edge of MRST_N begins the MRST start. -/
  | mrstNRelease (env : StartEnv)
  /-- R489. WAKE_N low for 1 ms in STANDBY starts the module by MRST. -/
  | wakeAssert (env : StartEnv)
  /-- R500. RST_CMD MRST resets every die and the trust-die main domain. -/
  | rstMrst (v : View) (env : StartEnv)
  /-- R500. RST_CMD SRST resets the compute, memory and link dies. -/
  | rstSrst (v : View) (env : StartEnv)
  /-- R500. RST_CMD CRST resets one canton, with the scrub when it is ASSIGNED. -/
  | rstCrst (v : View) (k : Fin 8)
  /-- R500. RST_CMD DRST resets one compute, link or host-interface die. -/
  | rstDrst (v : View) (die : Fin 64)
  /-- R500. RST_CMD LRST retrains one torus port. -/
  | rstLrst (v : View) (port : Fin 6)
  /-- R502. A reset finishes, and a waiting reset request then runs. -/
  | resetComplete
  /-- R471. No REFCLK edge for 1 µs quenches the module and switches the always-on domain to its oscillator. -/
  | refclkLoss
  /-- R471. REFCLK present for 10 ms starts the module by MRST. -/
  | refclkRestore (env : StartEnv)
  /-- R494. Input below 42.0 V enters THROTTLED within 2 µs. -/
  | supplyWarning (mv : BitVec 16)
  /-- R494. Input above 43.5 V for 1 ms clears the warning and counts the dip. -/
  | supplyWarningClear (lowest : BitVec 16)
  /-- R495. Input below 38.0 V causes an undervoltage POR on the hold-up bank. -/
  | undervoltage
  /-- R495. After an undervoltage POR, input above 43.5 V for 1 ms starts the module. -/
  | inputRecovery (env : StartEnv)
  /-- R496. Input above 60.0 V for 10 µs quenches the module. -/
  | overvoltage
  /-- R496. Input within 44–58 V for 100 ms restarts the module after an overvoltage quench. -/
  | overvoltageRecovery (env : StartEnv)
  /-- R494. Input or bank below 12.0 V removes power from the always-on domain. -/
  | alwaysOnPowerLoss
  /-- R489. A die sensor at or above THROT_C enters THROTTLED within 1 ms. -/
  | thermalThrottle (die : Fin 64) (temp : BitVec 8)
  /-- R489. With every cause cleared for 100 ms, THROTTLED returns to RUN. -/
  | throttleExit
  /-- R490. The trust die lowers or raises a canton's FRAC against its power cap. -/
  | powerCapAdjust (k : Fin 8) (watts : BitVec 16)
  /-- R491. PWR_CTL.PARK requests that a canton be parked once quiesced. -/
  | park (k : Fin 8)
  /-- R491. Every 1 ms the trust die checks quiescence and parks the canton, or abandons after 1 s. -/
  | parkQuiesceCheck (k : Fin 8)
  /-- R492. PWR_CTL.UNPARK powers a parked canton up and restores it. -/
  | unpark (k : Fin 8) (bad : List (Fin 16))
  /-- R493. PWR_CTL.STANDBY enters STANDBY when every canton is FREE, or is refused. -/
  | standby
  /-- R498. A deferred non-volatile write starts once the hold-up condition passes. -/
  | nvWriteStart (bankMv : Nat)
  /-- R499. A non-volatile write deferred for 10 s raises 0x027F. -/
  | nvWriteDeferTimeout
  /-- R483. FL_CMD BIND binds a new operator key when its signatures verify. -/
  | bind
  /-- R487. FL_CMD ERASE erases a writable image slot. -/
  | erase (kind : Fin 8) (slot : Fin 2)
  /-- R487. FL_CMD PROGRAM writes FL_BUF to a 64 KiB chunk of a slot. -/
  | program (kind : Fin 8) (slot : Fin 2)
  /-- R487. FL_CMD COMMIT validates a slot's image and writes a slot select record naming it. -/
  | commit (kind : Fin 8) (slot : Fin 2)
  /-- R485. FL_CMD MCR checks FL_BUF and writes it to the MCR copy not in force. -/
  | mcr
  /-- R487. A flash command finishes and sets DONE or REFUSED. -/
  | flCommandComplete (ok : Bool)
  /-- R524. A fast-path trip or safety-core request stops every clock in the package within 600 ns. -/
  | quench (causes : BitVec 5) (monitor : BitVec 8)
  /-- R503. Once every cause has cleared, the trust die restarts the module by the including reset. -/
  | quenchRestart (env : StartEnv)
  /-- R522. The safety core samples slow-path monitors and requests a quench or raises 0x0090. -/
  | safetySample (x : SafetySample)
  /-- R523. Every 10 s the safety core tests a fast-path comparator and sets STFAIL on failure. -/
  | comparatorSelfTest (monitor : BitVec 8) (ok : Bool)
  /-- R528. After DELAYMS the trust die performs a CRST of a contained canton with AUTOCRST set. -/
  | autoCrst (k : Fin 8)
  /-- R511. The trust die programs a log page when full or 1 s after its oldest record, erasing the next sector. -/
  | eventLogPageProgram
  /-- R541. A debug probe sets DBGCONN only while DBGCONN consent is in force. -/
  | debugProbeInsert
  /-- R541. Removing the debug probe clears DBGCONN and ends any debug session. -/
  | debugProbeRemove
  /-- R10. A read of a hardware-updated _LO register latches its _HI half, so the following _HI read returns one consistent value. -/
  | registerPairRead (v : View) (addr : Nat) (hi : Bool)
  /-- R507. A read of PWR_VIN returns MINMV and restarts the lowest-sample tracking. -/
  | pwrVinRead
  /-- R465. The trained host link goes down, HI_LINK.MODE reads 0 and event 0x1268 is raised. -/
  | hostLinkDown
  /-- R384. A site port receives a non-Nguku packet: it answers Neighbour Solicitation and ICMPv6 echo, or drops IPv4, extension-header and fragmented packets and counts them in SP_DROP. -/
  | sitePortPacketReceive (p : Fin 2) (x : SitePacket)
  /-- R390. When a site-port frame slot comes up in a canton's time-division and the peer's pacing allows, the site engine sends one queued frame. -/
  | sitePortTransmitSlot (p : Fin 2)
  /-- R448. When HOLDOFF µs have passed since the last vector-0 interrupt and records arrived meanwhile, MSI-X vector 0 is raised. -/
  | eventRingHoldoffExpire
  /-- R449. A signed SPDM response that was answered with ResponseNotReady becomes ready in the DOE mailbox, at most 200 ms after its request. -/
  | doeResponseReady
  /-- R498. A flash page program or sector erase finishes, freeing the single non-volatile write slot and releasing any MRST that waited for it. -/
  | nvWriteComplete
  deriving DecidableEq, Repr

end Sys2Proof
end

