-- ==== Sys2Proof/Decode.lean ====
section
/-! DEFINITION. The word decoder of the opcode table. -/
namespace Sys2Proof

/-- The command a table word spells. No row of spec/opcode_table.json has bits, so no word spells a command. -/
def decodeTableWord (_nbits _w : Nat) : Option Instr := none

end Sys2Proof
end

