-- ==== Sys2Proof/Config.lean ====
section
/-! DEFINITION. What the spec leaves open: free values (opaque, so that nothing can be proved of them), and the
cryptographic functions, whose results no rule of the spec spells out. -/
namespace Sys2Proof.Config

/-- A value the spec leaves undefined, or draws from the TRNG or the PUF: the n-th one met in a run, as bits of any
width. UNVERIFIED by construction: no body. -/
opaque freeBits : Nat → Nat
/-- The cause byte of an event for which the spec names the source and the category only (by rule number). -/
opaque cause : Nat → BitVec 8
/-- A cryptographic function of the spec (by name and input bytes): its output bytes. -/
opaque crypto : String → List Byte → List Byte
/-- Whether a signature, a tag or a proof holds (by name and input bytes). -/
opaque verify : String → List Byte → Bool
/-- What each byte of the boot flash held at delivery (R473): its contents are the module's own. -/
opaque factory : Nat → BitVec 8
/-- The stepping of the module (R9). -/
opaque stepping : BitVec 4
/-- The version of the trust-die ROM (R410). -/
opaque romVersion : BitVec 32
/-- The MAC addresses of SP0, SP1 and the management port, 6 bytes each (R459). -/
opaque macs : Nat → BitVec 8

end Sys2Proof.Config
end

