-- ==== Sys2Proof/Machine/Bits.lean ====
section
/-! DEFINITION. Bit fields, sign extension and byte order (R10, R51). -/
namespace Sys2Proof

/-- Bits [hi:lo] of a number. -/
def bitsN (n hi lo : Nat) : Nat := (n >>> lo) % 2 ^ (hi + 1 - lo)

/-- Bits [hi:lo] of a 128-bit command. -/
def cbits (w : Cmd) (hi lo : Nat) : Nat := bitsN w.toNat hi lo

/-- One bit of a 128-bit command. -/
def cbit (w : Cmd) (i : Nat) : Bool := w.toNat.testBit i

/-- Two's-complement value of the low `w` bits of `n`. -/
def signedN (w n : Nat) : Int :=
  if n % 2 ^ w < 2 ^ (w - 1) then (n % 2 ^ w : Nat) else ((n % 2 ^ w : Nat) : Int) - ((2 ^ w : Nat) : Int)

/-- The low `w` bits of an integer, as a number. -/
def unsignedN (w : Nat) (i : Int) : Nat := (i % ((2 ^ w : Nat) : Int)).toNat

/-- Little-endian bytes of a number. -/
def leBytes : Nat → Nat → List Byte
  | 0, _ => []
  | k + 1, n => BitVec.ofNat 8 n :: leBytes k (n / 256)

/-- The number that little-endian bytes spell. -/
def leNat : List Byte → Nat
  | [] => 0
  | b :: bs => b.toNat + 256 * leNat bs

/-- The whole part of a base-2 logarithm, by bit length; 0 for 0. -/
def log2N (n : Nat) : Nat := Nat.log2 n

/-- A value saturated at a limit. -/
def satN (lim n : Nat) : Nat := if n ≤ lim then n else lim

/-- Square root of a number, rounded down, by bits: `fuel` is the number of result bits still to decide. -/
def isqrtBits (n : Nat) : Nat → Nat → Nat
  | 0, r => r
  | k + 1, r =>
    let r' := r + 2 ^ k
    if r' * r' ≤ n then isqrtBits n k r' else isqrtBits n k r

/-- Square root of a number, rounded down. -/
def isqrt (n : Nat) : Nat := isqrtBits n (Nat.log2 n / 2 + 1) 0

/-- An element put into a list sorted by rank, behind equals. -/
def insertBy {α : Type} (rank : α → Nat) (x : α) : List α → List α
  | [] => [x]
  | y :: ys => if rank x < rank y then x :: y :: ys else y :: insertBy rank x ys

/-- A list sorted by rank, equals in their order. -/
def sortBy {α : Type} (rank : α → Nat) (l : List α) : List α := l.foldl (fun m x => insertBy rank x m) []

end Sys2Proof
end

