-- ==== Sys2Proof/Machine/Float.lean ====
section
/-! DEFINITION. Number formats, conversion and rounding (R46-R67, R71-R74 of 02_arithmetic_formats.md). A value is
kept exactly, as a signed dyadic number, and rounded once to a destination format. -/
namespace Sys2Proof

/-- The floating-point element formats of R48. -/
inductive NFmt | fp32 | bf16 | fp16 | e4m3 | e5m2 | e2m1
  deriving DecidableEq, Repr

/-- Fraction bits f of R48. -/
def NFmt.frac : NFmt → Nat
  | .fp32 => 23 | .bf16 => 7 | .fp16 => 10 | .e4m3 => 3 | .e5m2 => 2 | .e2m1 => 1

/-- Bias of R48. -/
def NFmt.bias : NFmt → Nat
  | .fp32 => 127 | .bf16 => 127 | .fp16 => 15 | .e4m3 => 7 | .e5m2 => 15 | .e2m1 => 1

/-- Width in bits (R48). -/
def NFmt.width : NFmt → Nat
  | .fp32 => 32 | .bf16 => 16 | .fp16 => 16 | .e4m3 => 8 | .e5m2 => 8 | .e2m1 => 4

/-- Magnitude bits of the largest finite value (R48, R49). -/
def NFmt.maxCode : NFmt → Nat
  | .fp32 => 0x7F7FFFFF | .bf16 => 0x7F7F | .fp16 => 0x7BFF | .e4m3 => 0x7E | .e5m2 => 0x7B | .e2m1 => 7

/-- Magnitude bits of infinity, where the format has one (R49). -/
def NFmt.infCode : NFmt → Option Nat
  | .fp32 => some 0x7F800000 | .bf16 => some 0x7F80 | .fp16 => some 0x7C00 | .e5m2 => some 0x7C
  | .e4m3 => none | .e2m1 => none

/-- Canonical NaN (R49); E2M1 has none. -/
def NFmt.nanCode : NFmt → Option Nat
  | .fp32 => some 0x7FC00000 | .bf16 => some 0x7FC0 | .fp16 => some 0x7E00 | .e4m3 => some 0x7F
  | .e5m2 => some 0x7E | .e2m1 => none

/-- An exact value: NaN, a signed infinity, or (-1)^s * m * 2^e (a signed zero when m = 0). -/
inductive FVal
  | nan
  | inf (s : Bool)
  | fin (s : Bool) (m : Nat) (e : Int)
  deriving DecidableEq, Repr

/-- The arithmetic flags of R67, with the parity flag of the vector engine. -/
structure Flags where
  inv : Bool := false
  dz : Bool := false
  ovf : Bool := false
  unf : Bool := false
  emp : Bool := false
  par : Bool := false
  deriving DecidableEq, Repr

/-- No flag. -/
def Flags.none : Flags := {}

/-- Flags gathered from two sources. -/
def Flags.or (a b : Flags) : Flags :=
  ⟨a.inv || b.inv, a.dz || b.dz, a.ovf || b.ovf, a.unf || b.unf, a.emp || b.emp, a.par || b.par⟩

/-- The value a code stands for (R48-R50). Every NaN pattern reads as NaN. -/
def NFmt.decode (f : NFmt) (code : Nat) : FVal :=
  let s := code.testBit (f.width - 1)
  let mag := code % 2 ^ (f.width - 1)
  if mag ≤ f.maxCode then
    let ex := mag / 2 ^ f.frac
    let fr := mag % 2 ^ f.frac
    if ex = 0 then .fin s fr (1 - (f.bias : Int) - (f.frac : Int))
    else .fin s (2 ^ f.frac + fr) ((ex : Int) - (f.bias : Int) - (f.frac : Int))
  else if f.infCode = some mag then .inf s
  else .nan

/-- Sign bit put before magnitude bits. -/
def NFmt.signed (f : NFmt) (s : Bool) (mag : Nat) : Nat := mag + (if s then 2 ^ (f.width - 1) else 0)

/-- How a result is rounded (R61): to nearest even, or stochastically with a 16-bit draw (R62). -/
inductive Rnd | rne | sr (draw : Nat)
  deriving DecidableEq, Repr

/-- floor(log2 (n/d)) for positive n and d. -/
def floorLog2Q (n d : Nat) : Int :=
  let l : Int := (log2N n : Int) - (log2N d : Int)
  if n * 2 ^ (-l).toNat < d * 2 ^ l.toNat then l - 1 else l

/-- The grid point of a format at or below n/d * 2^e, its exponent range continued above (R62): the magnitude code,
and the distance to it as a fraction r/D of the step. -/
def gridBelow (f : NFmt) (n d : Nat) (e : Int) : Nat × Nat × Nat :=
  let ex := max (floorLog2Q n d + e) (1 - (f.bias : Int))
  let q := ex - (f.frac : Int)
  let num := n * 2 ^ (e - q).toNat
  let den := d * 2 ^ (q - e).toNat
  (num / den + (ex + (f.bias : Int) - 1).toNat * 2 ^ f.frac, num % den, den)

/-- Magnitude code after rounding, possibly beyond the range, and whether it is inexact (R61, R62). -/
def roundMag (f : NFmt) (mode : Rnd) (n d : Nat) (e : Int) : Nat × Bool :=
  if n = 0 then (0, false) else
  let (c, r, den) := gridBelow f n d e
  match mode with
  | .rne => (if den < 2 * r ∨ (2 * r = den ∧ c % 2 = 1) then c + 1 else c, decide (r ≠ 0))
  | .sr draw =>
    if f.maxCode < c then (c, true)
    else (if draw < 65536 * r / den then c + 1 else c, decide (r ≠ 0))

/-- The infinity of a sign, or the largest finite value where the format saturates (R59). -/
def NFmt.infResult (f : NFmt) (sat5 s : Bool) : Nat × Flags :=
  match f.infCode with
  | some c => if f = .e5m2 ∧ sat5 = true then (f.signed s f.maxCode, { ovf := true }) else (f.signed s c, Flags.none)
  | none => (f.signed s f.maxCode, { ovf := true })

/-- A nonzero finite exact value (-1)^s * n/d * 2^e rounded once, with the result beyond range of R59. -/
def roundQ (f : NFmt) (sat5 : Bool) (mode : Rnd) (s : Bool) (n d : Nat) (e : Int) : Nat × Flags :=
  let (c, inex) := roundMag f mode n d e
  if f.maxCode < c then ((f.infResult sat5 s).1, { ovf := true })
  else (f.signed s c, { unf := inex && decide (c < 2 ^ f.frac) })

/-- Conversion of an exact value to a format (R58, R59). -/
def NFmt.round (f : NFmt) (sat5 : Bool) (mode : Rnd) : FVal → Nat × Flags
  | .nan => match f.nanCode with
    | some c => (c, Flags.none)
    | none => (0, { inv := true })
  | .inf s => f.infResult sat5 s
  | .fin s m e => roundQ f sat5 mode s m 1 e

/-- Round to nearest even without flags: the code alone. -/
def NFmt.rne (f : NFmt) (v : FVal) : Nat := (f.round false .rne v).1

/-- An integer as an exact value. -/
def FVal.ofInt (i : Int) : FVal := .fin (decide (i < 0)) i.natAbs 0

/-- The nearest integer magnitude, or a stochastic one (R60, R62). -/
def roundNatMag (mode : Rnd) (m : Nat) (e : Int) : Nat :=
  let num := m * 2 ^ e.toNat
  let den := 2 ^ (-e).toNat
  let k := num / den
  let r := num % den
  match mode with
  | .rne => if den < 2 * r ∨ (2 * r = den ∧ k % 2 = 1) then k + 1 else k
  | .sr draw => if draw < 65536 * r / den then k + 1 else k

/-- An integer saturated to `w` bits (R59); the flag says a limit was taken. -/
def satInt (w : Nat) (i : Int) : Int × Bool :=
  let hi : Int := ((2 ^ (w - 1) : Nat) : Int) - 1
  let lo : Int := -((2 ^ (w - 1) : Nat) : Int)
  if hi < i then (hi, true) else if i < lo then (lo, true) else (i, false)

/-- Conversion to a `w`-bit integer (R59, R60). -/
def roundInt (w : Nat) (mode : Rnd) : FVal → Int × Flags
  | .nan => (0, { inv := true })
  | .inf s => (if s then -((2 ^ (w - 1) : Nat) : Int) else ((2 ^ (w - 1) : Nat) : Int) - 1, { inv := true })
  | .fin s m e =>
    let k : Int := (roundNatMag mode m e : Nat)
    let (r, o) := satInt w (if s then -k else k)
    (r, { ovf := o })

/-! ### Exact arithmetic -/

/-- Negation. -/
def FVal.neg : FVal → FVal
  | .nan => .nan
  | .inf s => .inf !s
  | .fin s m e => .fin (!s) m e

/-- Magnitude. -/
def FVal.abs : FVal → FVal
  | .nan => .nan
  | .inf _ => .inf false
  | .fin _ m e => .fin false m e

/-- The signed integer m * 2^(e - lo) for lo ≤ e. -/
def alignInt (s : Bool) (m : Nat) (e lo : Int) : Int :=
  let v : Int := (m * 2 ^ (e - lo).toNat : Nat)
  if s then -v else v

/-- The exact value i * 2^e, +0 for 0. -/
def FVal.ofScaled (i : Int) (e : Int) : FVal := .fin (decide (i < 0)) i.natAbs e

/-- Exact sum; the flag is the invalid operation (R67). A zero sum of opposite signs is +0 (IEEE 754, R137). -/
def FVal.add : FVal → FVal → FVal × Bool
  | .nan, _ => (.nan, false)
  | _, .nan => (.nan, false)
  | .inf s, .inf t => if s = t then (.inf s, false) else (.nan, true)
  | .inf s, .fin _ _ _ => (.inf s, false)
  | .fin _ _ _, .inf t => (.inf t, false)
  | .fin s m e, .fin t n g =>
    if m = 0 ∧ n = 0 then (.fin (s && t) 0 0, false)
    else
      let lo := min e g
      (FVal.ofScaled (alignInt s m e lo + alignInt t n g lo) lo, false)

/-- Exact product; the flag is the invalid operation 0 × ∞ (R67). -/
def FVal.mul : FVal → FVal → FVal × Bool
  | .nan, _ => (.nan, false)
  | _, .nan => (.nan, false)
  | .inf s, .inf t => (.inf (s != t), false)
  | .inf s, .fin t n _ => if n = 0 then (.nan, true) else (.inf (s != t), false)
  | .fin s m _, .inf t => if m = 0 then (.nan, true) else (.inf (s != t), false)
  | .fin s m e, .fin t n g => (.fin (s != t) (m * n) (e + g), false)

/-- Exact a * b + c (R61, one rounding follows). 0 × ∞ is invalid also beside a NaN c only when neither factor is NaN
and c is no NaN (R67 names operations on non-NaN inputs). -/
def FVal.fma (a b c : FVal) : FVal × Bool :=
  match c with
  | .nan => (.nan, false)
  | _ =>
    let (p, i) := FVal.mul a b
    let (r, j) := FVal.add p c
    (r, i || j)

/-- Exact value times 2^k. -/
def FVal.scale2 (k : Int) : FVal → FVal
  | .fin s m e => .fin s m (e + k)
  | v => v

/-- Whether the value is NaN. -/
def FVal.isNaN : FVal → Bool
  | .nan => true
  | _ => false

/-- Whether the value is finite. -/
def FVal.isFin : FVal → Bool
  | .fin _ _ _ => true
  | _ => false

/-- Whether the value is ±0. -/
def FVal.isZero : FVal → Bool
  | .fin _ m _ => m == 0
  | _ => false

/-- Sign bit. -/
def FVal.sign : FVal → Bool
  | .nan => false
  | .inf s => s
  | .fin s _ _ => s

/-- a < b by value; false beside NaN (−0 = +0). -/
def FVal.lt : FVal → FVal → Bool
  | .nan, _ => false
  | _, .nan => false
  | .inf s, .inf t => s && !t
  | .inf s, .fin _ _ _ => s
  | .fin _ _ _, .inf t => !t
  | .fin s m e, .fin t n g =>
    let lo := min e g
    decide (alignInt s m e lo < alignInt t n g lo)

/-- a = b by value; false beside NaN. -/
def FVal.eq (a b : FVal) : Bool := !a.isNaN && !b.isNaN && !FVal.lt a b && !FVal.lt b a

/-- The order of maximum and minimum: −0 below +0 (R73). -/
def FVal.below (a b : FVal) : Bool :=
  FVal.lt a b || (FVal.eq a b && a.sign && !b.sign)

/-- Maximum: NaN if either is NaN (R73, R137). -/
def FVal.max (a b : FVal) : FVal :=
  if a.isNaN || b.isNaN then .nan else if FVal.below a b then b else a

/-- Minimum: NaN if either is NaN (R73, R137). -/
def FVal.min (a b : FVal) : FVal :=
  if a.isNaN || b.isNaN then .nan else if FVal.below b a then b else a

/-- floor(log2 |x|) of a nonzero finite value (0 otherwise). -/
def FVal.log2 : FVal → Int
  | .fin _ m e => if m = 0 then 0 else (log2N m : Int) + e
  | _ => 0

/-! ### FP32 operations, each rounded once to nearest even -/

/-- FP32 code as an exact value. -/
def f32 (c : Nat) : FVal := NFmt.fp32.decode c

/-- An exact result with its invalid flag, rounded to FP32. -/
def f32Round (r : FVal × Bool) : Nat × Flags :=
  let (c, fl) := NFmt.fp32.round false .rne r.1
  (c, { fl with inv := fl.inv || r.2 })

/-- FP32 addition. -/
def f32Add (a b : Nat) : Nat × Flags := f32Round (FVal.add (f32 a) (f32 b))
/-- FP32 subtraction. -/
def f32Sub (a b : Nat) : Nat × Flags := f32Round (FVal.add (f32 a) (f32 b).neg)
/-- FP32 multiplication. -/
def f32Mul (a b : Nat) : Nat × Flags := f32Round (FVal.mul (f32 a) (f32 b))
/-- FP32 fused multiply-add a * b + c. -/
def f32Fma (a b c : Nat) : Nat × Flags := f32Round (FVal.fma (f32 a) (f32 b) (f32 c))

/-- FP32 division, IEEE 754 (R67: the update engine). -/
def f32Div (a b : Nat) : Nat × Flags :=
  match f32 a, f32 b with
  | .nan, _ => (0x7FC00000, Flags.none)
  | _, .nan => (0x7FC00000, Flags.none)
  | .inf _, .inf _ => (0x7FC00000, { inv := true })
  | .inf s, .fin t _ _ => (NFmt.fp32.signed (s != t) 0x7F800000, Flags.none)
  | .fin s _ _, .inf t => (NFmt.fp32.signed (s != t) 0, Flags.none)
  | .fin s m e, .fin t n g =>
    if n = 0 then
      if m = 0 then (0x7FC00000, { inv := true })
      else (NFmt.fp32.signed (s != t) 0x7F800000, { dz := true })
    else roundQ .fp32 false .rne (s != t) m n (e - g)

/-- Square root of a positive dyadic value to `extra` more than FP32's precision, with a sticky bit. -/
def sqrtDyadic (m : Nat) (e : Int) : Nat × Int :=
  -- an even exponent with at least 64 result bits
  let sh : Nat := 130 + (if (e - 130) % 2 = 0 then 0 else 1)
  let mm := m * 2 ^ sh
  let r := isqrt mm
  (2 * r + (if r * r = mm then 0 else 1), (e - (sh : Int)) / 2 - 1)

/-- FP32 square root, IEEE 754. -/
def f32Sqrt (a : Nat) : Nat × Flags :=
  match f32 a with
  | .nan => (0x7FC00000, Flags.none)
  | .inf false => (0x7F800000, Flags.none)
  | .inf true => (0x7FC00000, { inv := true })
  | .fin s m e =>
    if m = 0 then (NFmt.fp32.signed s 0, Flags.none)
    else if s then (0x7FC00000, { inv := true })
    else
      let (r, g) := sqrtDyadic m e
      NFmt.fp32.round false .rne (.fin false r g)

/-! ### Block scales -/

/-- emax of R57. -/
def NFmt.emax : NFmt → Int
  | .e4m3 => 8 | .e5m2 => 15 | .e2m1 => 2 | .fp32 => 127 | .bf16 => 127 | .fp16 => 15

/-- The largest magnitude of a list of values, +0 for none. -/
def FVal.maxAbs : List FVal → FVal
  | [] => .fin false 0 0
  | v :: vs => FVal.max v.abs (FVal.maxAbs vs)

/-- The scale byte of a block (R57): `xs` are its present elements. -/
def blockScale (f : NFmt) (xs : List FVal) : Nat :=
  if xs.any (fun v => !v.isFin) then 0xFF
  else
    let a := FVal.maxAbs xs
    if a.isZero then 0x7F
    else
      let s0 := a.log2 - f.emax
      let excess := match a with
        | .fin _ m e => decide (f.maxCode < (roundMag f .rne m 1 (e - s0)).1)
        | _ => false
      let s1 := if excess then s0 + 1 else s0
      ((min (max s1 (-127)) 127) + 127).toNat

/-- One element of a block under scale byte `b` (R57, UNF as R67 says of block-scaled destinations). -/
def blockElem (f : NFmt) (mode : Rnd) (b : Nat) (x : FVal) : Nat × Flags :=
  if b = 0xFF then (0, Flags.none)
  else match x with
    | .fin s m e =>
      let (c, inex) := roundMag f mode m 1 (e - ((b : Int) - 127))
      if f.maxCode < c then (f.signed s f.maxCode, Flags.none)
      else (f.signed s c, { unf := inex && decide (c < 2 ^ f.frac) })
    | _ => (0, Flags.none)

/-- The value of an element code under scale byte `b` (R54, R55). -/
def scaledValue (f : NFmt) (b code : Nat) : FVal :=
  if b = 0xFF then .nan else (f.decode code).scale2 ((b : Int) - 127)

/-! ### Stochastic-rounding generators (R63) -/

/-- One advance of a generator. -/
def genAdvance (s : BitVec 64) : BitVec 64 :=
  let a := s ^^^ (s <<< 13)
  let b := a ^^^ (a >>> 7)
  b ^^^ (b <<< 17)

/-- Draw k of a generator's four. -/
def genDraw (s : BitVec 64) (k : Nat) : Nat :=
  ((s * 0x2545F4914F6CDD1D#64).toNat >>> (16 * k)) % 65536

end Sys2Proof
end

