-- ==== Sys2Proof/Machine/Regs.lean ====
section
/-! DEFINITION. The control registers of the module, from the field tables of spec/: for each register its
address in the CRS (R34), for each field its bits, and one table with access type (R11), cold-reset value and
retention class (R15). Registers that one address shows per group, view, canton or site are kept under
`addr + bank * 2^26` (the CRS has 2^26 bytes). -/
namespace Sys2Proof

/-- A field of a register: most and least significant bit. -/
abbrev Fld := Nat × Nat

/-- Access types of R11, with the writer that some tables name beside them. -/
inductive Acc | ro | rw | rw1c | wo | rwl | safe | rwHost | rwCanton | rwOwner | woHost
  deriving DecidableEq, Repr

/-- Retention classes of R15. -/
inductive Kept | a | w | c | n
  deriving DecidableEq, Repr

/-- Which dies hold a register. `ld0`: link die 0 alone (R334); `any`: every die; `cdmd`: compute and memory dies. -/
inductive DieKind | td | hd | cd | md | ld | ld0 | any | cdmd
  deriving DecidableEq, Repr

/-- One field of a register table. -/
structure FieldRow where
  hi : Nat
  lo : Nat
  acc : Acc
  reset : Nat
  kept : Kept
  deriving DecidableEq, Repr

/-- One register: its die, offset in the die's CRS range, repetition (count and stride), and its fields. -/
structure RegRow where
  name : String
  die : DieKind
  off : Nat
  dims : List (Nat × Nat)
  fields : List FieldRow
  deriving DecidableEq, Repr

/-- CRS base of the trust die (R34). -/
def tdBase : Nat := 0
/-- CRS base of the host-interface die (R34). -/
def hdBase : Nat := 0x100000
/-- CRS base of link die `n` (R34). -/
def ldBase (n : Nat) : Nat := 0x200000 + n * 0x10000
/-- CRS base of memory die `n` (R34). -/
def mdBase (n : Nat) : Nat := 0x400000 + n * 0x40000
/-- CRS base of compute die `n` (R34). -/
def cdBase (n : Nat) : Nat := 0x1000000 + n * 0x100000
/-- Key of bank `b` of a register that one address shows per group, view or site. -/
def bank (b addr : Nat) : Nat := addr + b * 0x4000000

/-! ### Addresses -/
namespace R
/-- ARCH_CFG (R39, 01_module_architecture.md). -/
def ARCH_CFG : Nat := tdBase + 0x100
/-- ARCH_CANTON_BASE (R39, 01_module_architecture.md). -/
def ARCH_CANTON_BASE (i : Nat) : Nat := tdBase + 0x120 + i * 16
/-- ARCH_CANTON_SIZE (R39, 01_module_architecture.md). -/
def ARCH_CANTON_SIZE (i : Nat) : Nat := tdBase + 0x124 + i * 16
/-- ARCH_CANTON_SPREAD (R39, 01_module_architecture.md). -/
def ARCH_CANTON_SPREAD (i : Nat) : Nat := tdBase + 0x128 + i * 16
/-- FAB_PORT_STATUS (R40, 01_module_architecture.md). -/
def FAB_PORT_STATUS (b : Nat) : Nat := b + 0xf00
/-- ARITH_SR_STATUS (R66, 02_arithmetic_formats.md). -/
def ARITH_SR_STATUS (b : Nat) : Nat := b + 0xf20
/-- MA_STATUS (R121, 03_matrix_arrays.md). -/
def MA_STATUS (d i : Nat) : Nat := cdBase d + 0x20000 + i * 4096
/-- MA_FAULT (R121, 03_matrix_arrays.md). -/
def MA_FAULT (d i : Nat) : Nat := cdBase d + 0x20004 + i * 4096
/-- MA_COLL (R121, 03_matrix_arrays.md). -/
def MA_COLL (d i : Nat) : Nat := cdBase d + 0x20010 + i * 4096
/-- MA_COLL_TIMER (R121, 03_matrix_arrays.md). -/
def MA_COLL_TIMER (d i : Nat) : Nat := cdBase d + 0x20014 + i * 4096
/-- MA_PERF_ACTIVE_LO (R121, 03_matrix_arrays.md). -/
def MA_PERF_ACTIVE_LO (d i : Nat) : Nat := cdBase d + 0x20020 + i * 4096
/-- MA_PERF_ACTIVE_HI (R121, 03_matrix_arrays.md). -/
def MA_PERF_ACTIVE_HI (d i : Nat) : Nat := cdBase d + 0x20024 + i * 4096
/-- MA_PERF_MAC_LO (R121, 03_matrix_arrays.md). -/
def MA_PERF_MAC_LO (d i : Nat) : Nat := cdBase d + 0x20028 + i * 4096
/-- MA_PERF_MAC_HI (R121, 03_matrix_arrays.md). -/
def MA_PERF_MAC_HI (d i : Nat) : Nat := cdBase d + 0x2002c + i * 4096
/-- MA_PERF_ILOCK (R121, 03_matrix_arrays.md). -/
def MA_PERF_ILOCK (d i : Nat) : Nat := cdBase d + 0x20030 + i * 4096
/-- MA_PERF_HWAIT (R121, 03_matrix_arrays.md). -/
def MA_PERF_HWAIT (d i : Nat) : Nat := cdBase d + 0x20034 + i * 4096
/-- MA_PERF_BUBBLE (R121, 03_matrix_arrays.md). -/
def MA_PERF_BUBBLE (d i : Nat) : Nat := cdBase d + 0x20038 + i * 4096
/-- MA_PERF_MASKED (R121, 03_matrix_arrays.md). -/
def MA_PERF_MASKED (d i : Nat) : Nat := cdBase d + 0x2003c + i * 4096
/-- MA_PERF_HUNUSED (R121, 03_matrix_arrays.md). -/
def MA_PERF_HUNUSED (d i : Nat) : Nat := cdBase d + 0x20040 + i * 4096
/-- MA_PERF_CTL (R121, 03_matrix_arrays.md). -/
def MA_PERF_CTL (d i : Nat) : Nat := cdBase d + 0x20044 + i * 4096
/-- VE_STATUS (R159, 04_vector_engine.md). -/
def VE_STATUS (d : Nat) : Nat := cdBase d + 0x24000
/-- VE_FAULT (R159, 04_vector_engine.md). -/
def VE_FAULT (d : Nat) : Nat := cdBase d + 0x24004
/-- VE_PERF_ACTIVE_LO (R159, 04_vector_engine.md). -/
def VE_PERF_ACTIVE_LO (d : Nat) : Nat := cdBase d + 0x24020
/-- VE_PERF_ACTIVE_HI (R159, 04_vector_engine.md). -/
def VE_PERF_ACTIVE_HI (d : Nat) : Nat := cdBase d + 0x24024
/-- VE_PERF_ELEM_LO (R159, 04_vector_engine.md). -/
def VE_PERF_ELEM_LO (d : Nat) : Nat := cdBase d + 0x24028
/-- VE_PERF_ELEM_HI (R159, 04_vector_engine.md). -/
def VE_PERF_ELEM_HI (d : Nat) : Nat := cdBase d + 0x2402c
/-- VE_PERF_LSWAIT (R159, 04_vector_engine.md). -/
def VE_PERF_LSWAIT (d : Nat) : Nat := cdBase d + 0x24030
/-- VE_PERF_DEPWAIT (R159, 04_vector_engine.md). -/
def VE_PERF_DEPWAIT (d : Nat) : Nat := cdBase d + 0x24034
/-- VE_PERF_MASKED (R159, 04_vector_engine.md). -/
def VE_PERF_MASKED (d : Nat) : Nat := cdBase d + 0x24038
/-- VE_PERF_CTL (R159, 04_vector_engine.md). -/
def VE_PERF_CTL (d : Nat) : Nat := cdBase d + 0x24044
/-- SEQ_CFG (R193, 05_compute_die_programs.md). -/
def SEQ_CFG (d : Nat) : Nat := cdBase d + 0x10000
/-- SEQ_FAULT (R193, 05_compute_die_programs.md). -/
def SEQ_FAULT (d : Nat) : Nat := cdBase d + 0x10004
/-- SEQ_FAULT_IDX (R193, 05_compute_die_programs.md). -/
def SEQ_FAULT_IDX (d : Nat) : Nat := cdBase d + 0x10008
/-- SEQ_Q_BASE_LO (R193, 05_compute_die_programs.md). -/
def SEQ_Q_BASE_LO (d i : Nat) : Nat := cdBase d + 0x10100 + i * 32
/-- SEQ_Q_BASE_HI (R193, 05_compute_die_programs.md). -/
def SEQ_Q_BASE_HI (d i : Nat) : Nat := cdBase d + 0x10104 + i * 32
/-- SEQ_Q_SIZE (R193, 05_compute_die_programs.md). -/
def SEQ_Q_SIZE (d i : Nat) : Nat := cdBase d + 0x10108 + i * 32
/-- SEQ_Q_HEAD (R193, 05_compute_die_programs.md). -/
def SEQ_Q_HEAD (d i : Nat) : Nat := cdBase d + 0x1010c + i * 32
/-- SEQ_Q_TAIL (R193, 05_compute_die_programs.md). -/
def SEQ_Q_TAIL (d i : Nat) : Nat := cdBase d + 0x10110 + i * 32
/-- SEQ_Q_CTL (R193, 05_compute_die_programs.md). -/
def SEQ_Q_CTL (d i : Nat) : Nat := cdBase d + 0x10114 + i * 32
/-- SEQ_Q_STATUS (R193, 05_compute_die_programs.md). -/
def SEQ_Q_STATUS (d i : Nat) : Nat := cdBase d + 0x10118 + i * 32
/-- SEQ_CTR (R193, 05_compute_die_programs.md). -/
def SEQ_CTR (d i : Nat) : Nat := cdBase d + 0x10400 + i * 4
/-- SEQ_CTR_INC (R193, 05_compute_die_programs.md). -/
def SEQ_CTR_INC (d : Nat) : Nat := cdBase d + 0x10800
/-- GAS_STATUS (R193, 05_compute_die_programs.md). -/
def GAS_STATUS (d : Nat) : Nat := cdBase d + 0x18000
/-- GAS_ERRADDR (R193, 05_compute_die_programs.md). -/
def GAS_ERRADDR (d : Nat) : Nat := cdBase d + 0x18004
/-- GAS_DRAINMAP (R193, 05_compute_die_programs.md). -/
def GAS_DRAINMAP (d i : Nat) : Nat := cdBase d + 0x18020 + i * 4
/-- LS_STATUS (R193, 05_compute_die_programs.md). -/
def LS_STATUS (d : Nat) : Nat := cdBase d + 0x1c000
/-- LS_ERRADDR (R193, 05_compute_die_programs.md). -/
def LS_ERRADDR (d : Nat) : Nat := cdBase d + 0x1c004
/-- LS_PERF_REFUSED (R193, 05_compute_die_programs.md). -/
def LS_PERF_REFUSED (d : Nat) : Nat := cdBase d + 0x1c010
/-- CAD_CTL (R229, 06_training_passes.md). -/
def CAD_CTL (i : Nat) : Nat := tdBase + 0x400 + i * 64
/-- CAD_STEP_PERIOD (R229, 06_training_passes.md). -/
def CAD_STEP_PERIOD (i : Nat) : Nat := tdBase + 0x404 + i * 64
/-- CAD_ROUND_PERIOD (R229, 06_training_passes.md). -/
def CAD_ROUND_PERIOD (i : Nat) : Nat := tdBase + 0x408 + i * 64
/-- CAD_EVAL_PERIOD (R229, 06_training_passes.md). -/
def CAD_EVAL_PERIOD (i : Nat) : Nat := tdBase + 0x40c + i * 64
/-- CAD_EVERY (R229, 06_training_passes.md). -/
def CAD_EVERY (i : Nat) : Nat := tdBase + 0x410 + i * 64
/-- CAD_STATUS (R229, 06_training_passes.md). -/
def CAD_STATUS (i : Nat) : Nat := tdBase + 0x414 + i * 64
/-- CAD_DEBT (R229, 06_training_passes.md). -/
def CAD_DEBT (i : Nat) : Nat := tdBase + 0x418 + i * 64
/-- CAD_COUNT (R229, 06_training_passes.md). -/
def CAD_COUNT (i : Nat) : Nat := tdBase + 0x41c + i * 64
/-- CAD_DONE (R229, 06_training_passes.md). -/
def CAD_DONE (i : Nat) : Nat := tdBase + 0x430 + i * 64
/-- CAD_TIMER_LO (R229, 06_training_passes.md). -/
def CAD_TIMER_LO (i : Nat) : Nat := tdBase + 0x420 + i * 64
/-- CAD_TIMER_HI (R229, 06_training_passes.md). -/
def CAD_TIMER_HI (i : Nat) : Nat := tdBase + 0x424 + i * 64
/-- CAD_DEADLINE_LO (R229, 06_training_passes.md). -/
def CAD_DEADLINE_LO (i : Nat) : Nat := tdBase + 0x428 + i * 64
/-- CAD_DEADLINE_HI (R229, 06_training_passes.md). -/
def CAD_DEADLINE_HI (i : Nat) : Nat := tdBase + 0x42c + i * 64
/-- MC_STATUS (R267, 07_memory_and_sealing.md). -/
def MC_STATUS (d i : Nat) : Nat := mdBase d + 0x8000 + i * 256
/-- MC_ECC (R267, 07_memory_and_sealing.md). -/
def MC_ECC (d i : Nat) : Nat := mdBase d + 0x8004 + i * 256
/-- MC_SCRUB_CTL (R267, 07_memory_and_sealing.md). -/
def MC_SCRUB_CTL (d : Nat) : Nat := mdBase d + 0x8200
/-- MC_SCRUB_STATUS (R267, 07_memory_and_sealing.md). -/
def MC_SCRUB_STATUS (d : Nat) : Nat := mdBase d + 0x8204
/-- SEAL_STATUS (R267, 07_memory_and_sealing.md). -/
def SEAL_STATUS (d : Nat) : Nat := mdBase d + 0x10000
/-- SEAL_DATAMIB (R267, 07_memory_and_sealing.md). -/
def SEAL_DATAMIB (d i : Nat) : Nat := mdBase d + 0x10010 + i * 4
/-- SEAL_GEN (R267, 07_memory_and_sealing.md). -/
def SEAL_GEN (d : Nat) : Nat := mdBase d + 0x10018
/-- SEAL_POISON_CNT (R267, 07_memory_and_sealing.md). -/
def SEAL_POISON_CNT (d : Nat) : Nat := mdBase d + 0x10020
/-- SEAL_PIDX (R267, 07_memory_and_sealing.md). -/
def SEAL_PIDX (d : Nat) : Nat := mdBase d + 0x10024
/-- SEAL_PREC0 (R267, 07_memory_and_sealing.md). -/
def SEAL_PREC0 (d : Nat) : Nat := mdBase d + 0x10028
/-- SEAL_PREC1 (R267, 07_memory_and_sealing.md). -/
def SEAL_PREC1 (d : Nat) : Nat := mdBase d + 0x1002c
/-- SEAL_PREC2 (R267, 07_memory_and_sealing.md). -/
def SEAL_PREC2 (d : Nat) : Nat := mdBase d + 0x10030
/-- SEAL_PREC3 (R267, 07_memory_and_sealing.md). -/
def SEAL_PREC3 (d : Nat) : Nat := mdBase d + 0x10034
/-- SEAL_PREC4 (R267, 07_memory_and_sealing.md). -/
def SEAL_PREC4 (d : Nat) : Nat := mdBase d + 0x10038
/-- SEAL_PREC5 (R267, 07_memory_and_sealing.md). -/
def SEAL_PREC5 (d : Nat) : Nat := mdBase d + 0x1003c
/-- SEAL_REINIT (R267, 07_memory_and_sealing.md). -/
def SEAL_REINIT (d : Nat) : Nat := mdBase d + 0x10040
/-- SEAL_REINIT_STATUS (R267, 07_memory_and_sealing.md). -/
def SEAL_REINIT_STATUS (d : Nat) : Nat := mdBase d + 0x10044
/-- CC_STATUS (R267, 07_memory_and_sealing.md). -/
def CC_STATUS (d : Nat) : Nat := mdBase d + 0x10080
/-- SEAL_PERF_OVF (R267, 07_memory_and_sealing.md). -/
def SEAL_PERF_OVF (d : Nat) : Nat := mdBase d + 0x10060
/-- SEAL_PERF_RMW (R267, 07_memory_and_sealing.md). -/
def SEAL_PERF_RMW (d : Nat) : Nat := mdBase d + 0x10064
/-- SEAL_PERF_CCMISS (R267, 07_memory_and_sealing.md). -/
def SEAL_PERF_CCMISS (d : Nat) : Nat := mdBase d + 0x10068
/-- SEAL_PERF_TCMISS (R267, 07_memory_and_sealing.md). -/
def SEAL_PERF_TCMISS (d : Nat) : Nat := mdBase d + 0x1006c
/-- SEAL_PERF_CTL (R267, 07_memory_and_sealing.md). -/
def SEAL_PERF_CTL (d : Nat) : Nat := mdBase d + 0x10074
/-- UE_CTL (R303, 08_update_engine.md). -/
def UE_CTL (d : Nat) : Nat := mdBase d + 0x20000
/-- UE_STATUS (R303, 08_update_engine.md). -/
def UE_STATUS (d : Nat) : Nat := mdBase d + 0x20004
/-- UE_FAULT (R303, 08_update_engine.md). -/
def UE_FAULT (d : Nat) : Nat := mdBase d + 0x20008
/-- UE_TABLE_CNT (R303, 08_update_engine.md). -/
def UE_TABLE_CNT (d : Nat) : Nat := mdBase d + 0x20018
/-- UE_CLIPMAX (R303, 08_update_engine.md). -/
def UE_CLIPMAX (d : Nat) : Nat := mdBase d + 0x20040
/-- UE_LAGNORM (R303, 08_update_engine.md). -/
def UE_LAGNORM (d : Nat) : Nat := mdBase d + 0x20044
/-- UE_NORMTAG (R303, 08_update_engine.md). -/
def UE_NORMTAG (d : Nat) : Nat := mdBase d + 0x20048
/-- UE_NORMIN (R303, 08_update_engine.md). -/
def UE_NORMIN (d : Nat) : Nat := mdBase d + 0x2004c
/-- UE_HOLDCAP (R303, 08_update_engine.md). -/
def UE_HOLDCAP (d : Nat) : Nat := mdBase d + 0x20050
/-- UE_CMD (R303, 08_update_engine.md). -/
def UE_CMD (d : Nat) : Nat := mdBase d + 0x20060
/-- UE_CMDARG_LO (R303, 08_update_engine.md). -/
def UE_CMDARG_LO (d : Nat) : Nat := mdBase d + 0x20064
/-- UE_CMDARG_HI (R303, 08_update_engine.md). -/
def UE_CMDARG_HI (d : Nat) : Nat := mdBase d + 0x20068
/-- UE_CMDSTAT (R303, 08_update_engine.md). -/
def UE_CMDSTAT (d : Nat) : Nat := mdBase d + 0x2006c
/-- UE_AUDIT_CTL (R303, 08_update_engine.md). -/
def UE_AUDIT_CTL (d : Nat) : Nat := mdBase d + 0x20070
/-- UE_AUDIT_DIFF (R303, 08_update_engine.md). -/
def UE_AUDIT_DIFF (d : Nat) : Nat := mdBase d + 0x20074
/-- UE_TABLE_LO (R303, 08_update_engine.md). -/
def UE_TABLE_LO (d : Nat) : Nat := mdBase d + 0x20010
/-- UE_TABLE_HI (R303, 08_update_engine.md). -/
def UE_TABLE_HI (d : Nat) : Nat := mdBase d + 0x20014
/-- UE_SCHED_LO (R303, 08_update_engine.md). -/
def UE_SCHED_LO (d : Nat) : Nat := mdBase d + 0x20020
/-- UE_SCHED_HI (R303, 08_update_engine.md). -/
def UE_SCHED_HI (d : Nat) : Nat := mdBase d + 0x20024
/-- UE_PEN_LO (R303, 08_update_engine.md). -/
def UE_PEN_LO (d : Nat) : Nat := mdBase d + 0x20028
/-- UE_PEN_HI (R303, 08_update_engine.md). -/
def UE_PEN_HI (d : Nat) : Nat := mdBase d + 0x2002c
/-- UE_NRING_LO (R303, 08_update_engine.md). -/
def UE_NRING_LO (d : Nat) : Nat := mdBase d + 0x20030
/-- UE_NRING_HI (R303, 08_update_engine.md). -/
def UE_NRING_HI (d : Nat) : Nat := mdBase d + 0x20034
/-- UE_NANCNT (R303, 08_update_engine.md). -/
def UE_NANCNT (d : Nat) : Nat := mdBase d + 0x20080
/-- UE_SKIPCNT (R303, 08_update_engine.md). -/
def UE_SKIPCNT (d : Nat) : Nat := mdBase d + 0x20084
/-- UE_RECOVCNT (R303, 08_update_engine.md). -/
def UE_RECOVCNT (d : Nat) : Nat := mdBase d + 0x20088
/-- UE_PERF_ELEM_LO (R303, 08_update_engine.md). -/
def UE_PERF_ELEM_LO (d : Nat) : Nat := mdBase d + 0x200a0
/-- UE_PERF_ELEM_HI (R303, 08_update_engine.md). -/
def UE_PERF_ELEM_HI (d : Nat) : Nat := mdBase d + 0x200a4
/-- UE_PERF_STALL (R303, 08_update_engine.md). -/
def UE_PERF_STALL (d : Nat) : Nat := mdBase d + 0x200a8
/-- UE_PERF_HOLD (R303, 08_update_engine.md). -/
def UE_PERF_HOLD (d : Nat) : Nat := mdBase d + 0x200ac
/-- UE_PERF_CTL (R303, 08_update_engine.md). -/
def UE_PERF_CTL (d : Nat) : Nat := mdBase d + 0x200b4
/-- CL_SLOTS (R334, 09_collectives.md). -/
def CL_SLOTS (d v : Nat) : Nat := bank (1 + v) (ldBase d + 0x4000)
/-- CL_BUSY (R334, 09_collectives.md). -/
def CL_BUSY (d v : Nat) : Nat := bank (1 + v) (ldBase d + 0x4004)
/-- CL_REFUSED (R334, 09_collectives.md). -/
def CL_REFUSED (d v : Nat) : Nat := bank (1 + v) (ldBase d + 0x4008)
/-- CL_STAGEDGRP (R334, 09_collectives.md). -/
def CL_STAGEDGRP (d v : Nat) : Nat := bank (1 + v) (ldBase d + 0x400c)
/-- CL_PERF_DUPS (R334, 09_collectives.md). -/
def CL_PERF_DUPS (d v : Nat) : Nat := bank (1 + v) (ldBase d + 0x4018)
/-- CL_PERF_CTL (R334, 09_collectives.md). -/
def CL_PERF_CTL (d v : Nat) : Nat := bank (1 + v) (ldBase d + 0x401c)
/-- CL_PERF_PIECES_LO (R334, 09_collectives.md). -/
def CL_PERF_PIECES_LO (d v : Nat) : Nat := bank (1 + v) (ldBase d + 0x4010)
/-- CL_PERF_PIECES_HI (R334, 09_collectives.md). -/
def CL_PERF_PIECES_HI (d v : Nat) : Nat := bank (1 + v) (ldBase d + 0x4014)
/-- GC_SEL (R334, 09_collectives.md). -/
def GC_SEL (v : Nat) : Nat := bank (1 + v) (ldBase 0 + 0x8000)
/-- GC_CMD (R334, 09_collectives.md). -/
def GC_CMD (v : Nat) : Nat := bank (1 + v) (ldBase 0 + 0x8004)
/-- GC_CMDSTAT (R334, 09_collectives.md). -/
def GC_CMDSTAT (v : Nat) : Nat := bank (1 + v) (ldBase 0 + 0x8008)
/-- GC_CFG (R334, 09_collectives.md). -/
def GC_CFG (g : Nat) : Nat := bank (1 + g) (ldBase 0 + 0x8010)
/-- GC_JOB (R334, 09_collectives.md). -/
def GC_JOB (g : Nat) : Nat := bank (1 + g) (ldBase 0 + 0x8014)
/-- GC_MEMB (R334, 09_collectives.md). -/
def GC_MEMB (g : Nat) : Nat := bank (1 + g) (ldBase 0 + 0x8018)
/-- GC_MYIDX (R334, 09_collectives.md). -/
def GC_MYIDX (g : Nat) : Nat := bank (1 + g) (ldBase 0 + 0x801c)
/-- GC_PRED (R334, 09_collectives.md). -/
def GC_PRED (g : Nat) : Nat := bank (1 + g) (ldBase 0 + 0x8020)
/-- GC_SUCC (R334, 09_collectives.md). -/
def GC_SUCC (g : Nat) : Nat := bank (1 + g) (ldBase 0 + 0x8024)
/-- GC_BOXO (R334, 09_collectives.md). -/
def GC_BOXO (g : Nat) : Nat := bank (1 + g) (ldBase 0 + 0x8028)
/-- GC_BOXE (R334, 09_collectives.md). -/
def GC_BOXE (g : Nat) : Nat := bank (1 + g) (ldBase 0 + 0x802c)
/-- GC_QBASE_LO (R334, 09_collectives.md). -/
def GC_QBASE_LO (g : Nat) : Nat := bank (1 + g) (ldBase 0 + 0x8030)
/-- GC_QBASE_HI (R334, 09_collectives.md). -/
def GC_QBASE_HI (g : Nat) : Nat := bank (1 + g) (ldBase 0 + 0x8034)
/-- GC_QCTL (R334, 09_collectives.md). -/
def GC_QCTL (g : Nat) : Nat := bank (1 + g) (ldBase 0 + 0x8038)
/-- GC_QHEAD (R334, 09_collectives.md). -/
def GC_QHEAD (g : Nat) : Nat := bank (1 + g) (ldBase 0 + 0x803c)
/-- GC_QTAIL (R334, 09_collectives.md). -/
def GC_QTAIL (g : Nat) : Nat := bank (1 + g) (ldBase 0 + 0x8040)
/-- GC_SLOT (R334, 09_collectives.md). -/
def GC_SLOT (g : Nat) : Nat := bank (1 + g) (ldBase 0 + 0x8044)
/-- GC_STAGE (R334, 09_collectives.md). -/
def GC_STAGE (g : Nat) : Nat := bank (1 + g) (ldBase 0 + 0x8048)
/-- GC_PATIENCE (R334, 09_collectives.md). -/
def GC_PATIENCE (g : Nat) : Nat := bank (1 + g) (ldBase 0 + 0x804c)
/-- GC_STATUS (R334, 09_collectives.md). -/
def GC_STATUS (g : Nat) : Nat := bank (1 + g) (ldBase 0 + 0x8050)
/-- GC_SLOWEST (R334, 09_collectives.md). -/
def GC_SLOWEST (g : Nat) : Nat := bank (1 + g) (ldBase 0 + 0x8054)
/-- GC_STALL (R334, 09_collectives.md). -/
def GC_STALL (g : Nat) : Nat := bank (1 + g) (ldBase 0 + 0x8058)
/-- GC_LAGLOC (R334, 09_collectives.md). -/
def GC_LAGLOC (g : Nat) : Nat := bank (1 + g) (ldBase 0 + 0x8078)
/-- GC_LAGOUT (R334, 09_collectives.md). -/
def GC_LAGOUT (g : Nat) : Nat := bank (1 + g) (ldBase 0 + 0x807c)
/-- GC_LAG (R334, 09_collectives.md). -/
def GC_LAG (i g : Nat) : Nat := bank (1 + g) (ldBase 0 + 0x8060 + i * 4)
/-- LK_CFG (R369, 10_links_and_torus.md). -/
def LK_CFG (d : Nat) : Nat := ldBase d + 0x1000
/-- LK_STATUS (R369, 10_links_and_torus.md). -/
def LK_STATUS (d : Nat) : Nat := ldBase d + 0x1004
/-- LK_NBR (R369, 10_links_and_torus.md). -/
def LK_NBR (d : Nat) : Nat := ldBase d + 0x1008
/-- LK_LANES (R369, 10_links_and_torus.md). -/
def LK_LANES (d : Nat) : Nat := ldBase d + 0x100c
/-- LK_REKEY_CFG (R369, 10_links_and_torus.md). -/
def LK_REKEY_CFG (d : Nat) : Nat := ldBase d + 0x1010
/-- LK_REKEY_CMD (R369, 10_links_and_torus.md). -/
def LK_REKEY_CMD (d : Nat) : Nat := ldBase d + 0x1014
/-- LK_ARB (R369, 10_links_and_torus.md). -/
def LK_ARB (d : Nat) : Nat := ldBase d + 0x1018
/-- LK_EPOCH (R369, 10_links_and_torus.md). -/
def LK_EPOCH (d i : Nat) : Nat := ldBase d + 0x1020 + i * 4
/-- LK_FEC_CORR_LO (R369, 10_links_and_torus.md). -/
def LK_FEC_CORR_LO (d : Nat) : Nat := ldBase d + 0x1040
/-- LK_FEC_CORR_HI (R369, 10_links_and_torus.md). -/
def LK_FEC_CORR_HI (d : Nat) : Nat := ldBase d + 0x1044
/-- LK_FEC_UNC (R369, 10_links_and_torus.md). -/
def LK_FEC_UNC (d : Nat) : Nat := ldBase d + 0x1048
/-- LK_CRCERR (R369, 10_links_and_torus.md). -/
def LK_CRCERR (d : Nat) : Nat := ldBase d + 0x104c
/-- LK_RETX (R369, 10_links_and_torus.md). -/
def LK_RETX (d : Nat) : Nat := ldBase d + 0x1050
/-- LK_DUPS (R369, 10_links_and_torus.md). -/
def LK_DUPS (d : Nat) : Nat := ldBase d + 0x1054
/-- LK_TAGFAIL (R369, 10_links_and_torus.md). -/
def LK_TAGFAIL (d : Nat) : Nat := ldBase d + 0x1058
/-- LK_CTLFAIL (R369, 10_links_and_torus.md). -/
def LK_CTLFAIL (d : Nat) : Nat := ldBase d + 0x105c
/-- LK_REKEYS (R369, 10_links_and_torus.md). -/
def LK_REKEYS (d : Nat) : Nat := ldBase d + 0x1060
/-- LK_DROP (R369, 10_links_and_torus.md). -/
def LK_DROP (d : Nat) : Nat := ldBase d + 0x1064
/-- LK_REVOKE (R369, 10_links_and_torus.md). -/
def LK_REVOKE (d : Nat) : Nat := ldBase d + 0x1068
/-- LK_TC2WAIT (R369, 10_links_and_torus.md). -/
def LK_TC2WAIT (d : Nat) : Nat := ldBase d + 0x106c
/-- LK_STALE (R369, 10_links_and_torus.md). -/
def LK_STALE (d : Nat) : Nat := ldBase d + 0x1070
/-- LK_CNT_CTL (R369, 10_links_and_torus.md). -/
def LK_CNT_CTL (d : Nat) : Nat := ldBase d + 0x1074
/-- LK_SEQ_LO (R369, 10_links_and_torus.md). -/
def LK_SEQ_LO (d plane : Nat) : Nat := bank (1 + plane) (ldBase d + 0x1080)
/-- LK_SEQ_HI (R369, 10_links_and_torus.md). -/
def LK_SEQ_HI (d plane : Nat) : Nat := bank (1 + plane) (ldBase d + 0x1084)
/-- SX_CTL (R402, 11_site_exchange.md). -/
def SX_CTL (d : Nat) : Nat := mdBase d + 0x21000
/-- SX_STATUS (R402, 11_site_exchange.md). -/
def SX_STATUS (d : Nat) : Nat := mdBase d + 0x21004
/-- SX_FAULT (R402, 11_site_exchange.md). -/
def SX_FAULT (d : Nat) : Nat := mdBase d + 0x21008
/-- SX_TABLE_CNT (R402, 11_site_exchange.md). -/
def SX_TABLE_CNT (d : Nat) : Nat := mdBase d + 0x21018
/-- SX_PARAM (R402, 11_site_exchange.md). -/
def SX_PARAM (d : Nat) : Nat := mdBase d + 0x21030
/-- SX_DISCOUNT (R402, 11_site_exchange.md). -/
def SX_DISCOUNT (d : Nat) : Nat := mdBase d + 0x21034
/-- SX_DATA_US (R402, 11_site_exchange.md). -/
def SX_DATA_US (d : Nat) : Nat := mdBase d + 0x21038
/-- SX_CORR_US (R402, 11_site_exchange.md). -/
def SX_CORR_US (d : Nat) : Nat := mdBase d + 0x2103c
/-- SX_CMD (R402, 11_site_exchange.md). -/
def SX_CMD (d : Nat) : Nat := mdBase d + 0x21040
/-- SX_CMDSTAT (R402, 11_site_exchange.md). -/
def SX_CMDSTAT (d : Nat) : Nat := mdBase d + 0x21044
/-- SX_CNT_CTL (R402, 11_site_exchange.md). -/
def SX_CNT_CTL (d : Nat) : Nat := mdBase d + 0x21074
/-- SX_TABLE_LO (R303, 08_update_engine.md). -/
def SX_TABLE_LO (d : Nat) : Nat := mdBase d + 0x21010
/-- SX_TABLE_HI (R303, 08_update_engine.md). -/
def SX_TABLE_HI (d : Nat) : Nat := mdBase d + 0x21014
/-- SX_SITES_LO (R303, 08_update_engine.md). -/
def SX_SITES_LO (d : Nat) : Nat := mdBase d + 0x21020
/-- SX_SITES_HI (R303, 08_update_engine.md). -/
def SX_SITES_HI (d : Nat) : Nat := mdBase d + 0x21024
/-- SX_PEN_LO (R303, 08_update_engine.md). -/
def SX_PEN_LO (d : Nat) : Nat := mdBase d + 0x21028
/-- SX_PEN_HI (R303, 08_update_engine.md). -/
def SX_PEN_HI (d : Nat) : Nat := mdBase d + 0x2102c
/-- SX_CNT_MERGED (R402, 11_site_exchange.md). -/
def SX_CNT_MERGED (d : Nat) : Nat := mdBase d + 0x21060
/-- SX_CNT_ZERO (R402, 11_site_exchange.md). -/
def SX_CNT_ZERO (d : Nat) : Nat := mdBase d + 0x21064
/-- SX_CNT_FOLD (R402, 11_site_exchange.md). -/
def SX_CNT_FOLD (d : Nat) : Nat := mdBase d + 0x21068
/-- SX_CNT_REBASE (R402, 11_site_exchange.md). -/
def SX_CNT_REBASE (d : Nat) : Nat := mdBase d + 0x2106c
/-- SX_CNT_ABANDON (R402, 11_site_exchange.md). -/
def SX_CNT_ABANDON (d : Nat) : Nat := mdBase d + 0x21070
/-- SP_CFG (R403, 11_site_exchange.md). -/
def SP_CFG : Nat := hdBase + 0x4000
/-- SP_STATUS (R403, 11_site_exchange.md). -/
def SP_STATUS : Nat := hdBase + 0x4004
/-- SP_UDP (R403, 11_site_exchange.md). -/
def SP_UDP : Nat := hdBase + 0x4008
/-- SP_LOSTMS (R403, 11_site_exchange.md). -/
def SP_LOSTMS : Nat := hdBase + 0x4020
/-- SP_PSEL (R403, 11_site_exchange.md). -/
def SP_PSEL (v : Nat) : Nat := bank (1 + v) (hdBase + 0x4024)
/-- SP_PEER (R403, 11_site_exchange.md). -/
def SP_PEER (v site : Nat) : Nat := bank (1 + 64 * v + site) (hdBase + 0x4028)
/-- SP_RATE (R403, 11_site_exchange.md). -/
def SP_RATE (v site : Nat) : Nat := bank (1 + 64 * v + site) (hdBase + 0x402c)
/-- SP_CNT_CTL (R403, 11_site_exchange.md). -/
def SP_CNT_CTL : Nat := hdBase + 0x4060
/-- SP_PREFIX_LO (R403, 11_site_exchange.md). -/
def SP_PREFIX_LO : Nat := hdBase + 0x4010
/-- SP_PREFIX_HI (R403, 11_site_exchange.md). -/
def SP_PREFIX_HI : Nat := hdBase + 0x4014
/-- SP_RTR_LO (R403, 11_site_exchange.md). -/
def SP_RTR_LO : Nat := hdBase + 0x4018
/-- SP_RTR_HI (R403, 11_site_exchange.md). -/
def SP_RTR_HI : Nat := hdBase + 0x401c
/-- SP_TXFR_LO (R403, 11_site_exchange.md). -/
def SP_TXFR_LO : Nat := hdBase + 0x4040
/-- SP_TXFR_HI (R403, 11_site_exchange.md). -/
def SP_TXFR_HI : Nat := hdBase + 0x4044
/-- SP_RXFR_LO (R403, 11_site_exchange.md). -/
def SP_RXFR_LO : Nat := hdBase + 0x4048
/-- SP_RXFR_HI (R403, 11_site_exchange.md). -/
def SP_RXFR_HI : Nat := hdBase + 0x404c
/-- SP_RETX (R403, 11_site_exchange.md). -/
def SP_RETX : Nat := hdBase + 0x4050
/-- SP_DUPS (R403, 11_site_exchange.md). -/
def SP_DUPS : Nat := hdBase + 0x4054
/-- SP_AUTHFAIL (R403, 11_site_exchange.md). -/
def SP_AUTHFAIL : Nat := hdBase + 0x4058
/-- SP_DROP (R403, 11_site_exchange.md). -/
def SP_DROP : Nat := hdBase + 0x405c
/-- SEC_STATUS (R441, 12_confidentiality.md). -/
def SEC_STATUS : Nat := tdBase + 0x1000
/-- SEC_OWN (R441, 12_confidentiality.md). -/
def SEC_OWN : Nat := tdBase + 0x1004
/-- SEC_CMD (R441, 12_confidentiality.md). -/
def SEC_CMD : Nat := tdBase + 0x1008
/-- SEC_CMDSTAT (R441, 12_confidentiality.md). -/
def SEC_CMDSTAT : Nat := tdBase + 0x100c
/-- CPOL_STATUS (R441, 12_confidentiality.md). -/
def CPOL_STATUS (i : Nat) : Nat := tdBase + 0x1100 + i * 16
/-- CPOL_SEQ (R441, 12_confidentiality.md). -/
def CPOL_SEQ (i : Nat) : Nat := tdBase + 0x1104 + i * 16
/-- SCRUB_STATUS (R441, 12_confidentiality.md). -/
def SCRUB_STATUS (i : Nat) : Nat := tdBase + 0x1108 + i * 16
/-- HI_LINK (R466, 13_host_and_services.md). -/
def HI_LINK : Nat := hdBase + 0x1000
/-- HI_EVQ_BASE_LO (R466, 13_host_and_services.md). -/
def HI_EVQ_BASE_LO : Nat := hdBase + 0x1010
/-- HI_EVQ_BASE_HI (R466, 13_host_and_services.md). -/
def HI_EVQ_BASE_HI : Nat := hdBase + 0x1014
/-- HI_EVQ_CTL (R466, 13_host_and_services.md). -/
def HI_EVQ_CTL : Nat := hdBase + 0x1018
/-- HI_EVQ_HEAD (R466, 13_host_and_services.md). -/
def HI_EVQ_HEAD : Nat := hdBase + 0x101c
/-- HI_EVQ_TAIL (R466, 13_host_and_services.md). -/
def HI_EVQ_TAIL : Nat := hdBase + 0x1020
/-- HI_EVQ_DROP (R466, 13_host_and_services.md). -/
def HI_EVQ_DROP : Nat := hdBase + 0x1024
/-- HI_HOSTTIME_LO (R466, 13_host_and_services.md). -/
def HI_HOSTTIME_LO : Nat := hdBase + 0x1008
/-- HI_HOSTTIME_HI (R466, 13_host_and_services.md). -/
def HI_HOSTTIME_HI : Nat := hdBase + 0x100c
/-- HI_MBOX_TO_LO (R466, 13_host_and_services.md). -/
def HI_MBOX_TO_LO (i : Nat) : Nat := hdBase + 0x1100 + i * 16
/-- HI_MBOX_TO_HI (R466, 13_host_and_services.md). -/
def HI_MBOX_TO_HI (i : Nat) : Nat := hdBase + 0x1104 + i * 16
/-- HI_MBOX_FROM_LO (R466, 13_host_and_services.md). -/
def HI_MBOX_FROM_LO (i : Nat) : Nat := hdBase + 0x1108 + i * 16
/-- HI_MBOX_FROM_HI (R466, 13_host_and_services.md). -/
def HI_MBOX_FROM_HI (i : Nat) : Nat := hdBase + 0x110c + i * 16
/-- HI_OUT_LO (R466, 13_host_and_services.md). -/
def HI_OUT_LO (i : Nat) : Nat := hdBase + 0x1200 + i * 16
/-- HI_OUT_HI (R466, 13_host_and_services.md). -/
def HI_OUT_HI (i : Nat) : Nat := hdBase + 0x1204 + i * 16
/-- HI_OUT_LEN (R466, 13_host_and_services.md). -/
def HI_OUT_LEN (i : Nat) : Nat := hdBase + 0x1208 + i * 16
/-- HI_MBOX_STAT (R466, 13_host_and_services.md). -/
def HI_MBOX_STAT (i : Nat) : Nat := hdBase + 0x120c + i * 16
/-- HI_RGN_LO (R466, 13_host_and_services.md). -/
def HI_RGN_LO (i j : Nat) : Nat := hdBase + 0x2000 + i * 256 + j * 16
/-- HI_RGN_HI (R466, 13_host_and_services.md). -/
def HI_RGN_HI (i j : Nat) : Nat := hdBase + 0x2004 + i * 256 + j * 16
/-- HI_RGN_SIZE (R466, 13_host_and_services.md). -/
def HI_RGN_SIZE (i j : Nat) : Nat := hdBase + 0x2008 + i * 256 + j * 16
/-- HI_RING_LO (R466, 13_host_and_services.md). -/
def HI_RING_LO (i j : Nat) : Nat := hdBase + 0x3000 + i * 256 + j * 16
/-- HI_RING_HI (R466, 13_host_and_services.md). -/
def HI_RING_HI (i j : Nat) : Nat := hdBase + 0x3004 + i * 256 + j * 16
/-- HI_RING_CTL (R466, 13_host_and_services.md). -/
def HI_RING_CTL (i j : Nat) : Nat := hdBase + 0x3008 + i * 256 + j * 16
/-- HI_RING_IDX (R466, 13_host_and_services.md). -/
def HI_RING_IDX (i j : Nat) : Nat := hdBase + 0x300c + i * 256 + j * 16
/-- DP_ADDR_LO (R466, 13_host_and_services.md). -/
def DP_ADDR_LO (i : Nat) : Nat := hdBase + 0x5000 + i * 32
/-- DP_ADDR_HI (R466, 13_host_and_services.md). -/
def DP_ADDR_HI (i : Nat) : Nat := hdBase + 0x5004 + i * 32
/-- DP_CTL (R466, 13_host_and_services.md). -/
def DP_CTL (i : Nat) : Nat := hdBase + 0x5008 + i * 32
/-- DP_STATUS (R466, 13_host_and_services.md). -/
def DP_STATUS (i : Nat) : Nat := hdBase + 0x500c + i * 32
/-- DP_COUNT (R466, 13_host_and_services.md). -/
def DP_COUNT (i : Nat) : Nat := hdBase + 0x5010 + i * 32
/-- BOOT_STATUS (R507, 14_start_power_reset.md). -/
def BOOT_STATUS : Nat := tdBase + 0x2000
/-- BOOT_SLOTS (R507, 14_start_power_reset.md). -/
def BOOT_SLOTS : Nat := tdBase + 0x2004
/-- BOOT_TIME (R507, 14_start_power_reset.md). -/
def BOOT_TIME : Nat := tdBase + 0x2008
/-- RST_CMD (R507, 14_start_power_reset.md). -/
def RST_CMD : Nat := tdBase + 0x2010
/-- RST_CAUSE (R507, 14_start_power_reset.md). -/
def RST_CAUSE : Nat := tdBase + 0x2014
/-- RST_COUNT (R507, 14_start_power_reset.md). -/
def RST_COUNT : Nat := tdBase + 0x2018
/-- PWR_STATUS (R507, 14_start_power_reset.md). -/
def PWR_STATUS : Nat := tdBase + 0x2020
/-- PWR_CTL (R507, 14_start_power_reset.md). -/
def PWR_CTL : Nat := tdBase + 0x2024
/-- PWR_VIN (R507, 14_start_power_reset.md). -/
def PWR_VIN : Nat := tdBase + 0x2028
/-- PWR_DIPS (R507, 14_start_power_reset.md). -/
def PWR_DIPS : Nat := tdBase + 0x202c
/-- PWR_HOLDUP (R507, 14_start_power_reset.md). -/
def PWR_HOLDUP : Nat := tdBase + 0x2030
/-- CLK_STATUS (R507, 14_start_power_reset.md). -/
def CLK_STATUS : Nat := tdBase + 0x2060
/-- FL_CMD (R507, 14_start_power_reset.md). -/
def FL_CMD : Nat := tdBase + 0x2080
/-- FL_ADDR (R507, 14_start_power_reset.md). -/
def FL_ADDR : Nat := tdBase + 0x2084
/-- FL_STATUS (R507, 14_start_power_reset.md). -/
def FL_STATUS : Nat := tdBase + 0x2088
/-- PWR_CANTON (R507, 14_start_power_reset.md). -/
def PWR_CANTON (i : Nat) : Nat := tdBase + 0x2040 + i * 4
/-- EVL_STATUS (R532, 15_reliability_and_test.md). -/
def EVL_STATUS : Nat := tdBase + 0x3000
/-- EVL_UNSTORED (R532, 15_reliability_and_test.md). -/
def EVL_UNSTORED : Nat := tdBase + 0x3004
/-- EVL_BOOTNO (R532, 15_reliability_and_test.md). -/
def EVL_BOOTNO : Nat := tdBase + 0x3040
/-- BIST_STATUS (R532, 15_reliability_and_test.md). -/
def BIST_STATUS : Nat := tdBase + 0x3200
/-- BIST_CTL (R532, 15_reliability_and_test.md). -/
def BIST_CTL : Nat := tdBase + 0x3204
/-- BIST_TIME (R532, 15_reliability_and_test.md). -/
def BIST_TIME : Nat := tdBase + 0x3208
/-- BIST_FIDX (R532, 15_reliability_and_test.md). -/
def BIST_FIDX : Nat := tdBase + 0x320c
/-- BIST_FREC0 (R532, 15_reliability_and_test.md). -/
def BIST_FREC0 : Nat := tdBase + 0x3210
/-- BIST_FREC1 (R532, 15_reliability_and_test.md). -/
def BIST_FREC1 : Nat := tdBase + 0x3214
/-- SF_STATUS (R532, 15_reliability_and_test.md). -/
def SF_STATUS : Nat := tdBase + 0x3300
/-- SF_QLAST (R532, 15_reliability_and_test.md). -/
def SF_QLAST : Nat := tdBase + 0x3304
/-- SF_QCOUNT (R532, 15_reliability_and_test.md). -/
def SF_QCOUNT : Nat := tdBase + 0x3308
/-- SF_TJMAX (R532, 15_reliability_and_test.md). -/
def SF_TJMAX : Nat := tdBase + 0x3310
/-- SF_DIMMMAX (R532, 15_reliability_and_test.md). -/
def SF_DIMMMAX : Nat := tdBase + 0x3314
/-- SF_ILIM (R532, 15_reliability_and_test.md). -/
def SF_ILIM : Nat := tdBase + 0x3318
/-- SF_QLIMIT (R532, 15_reliability_and_test.md). -/
def SF_QLIMIT : Nat := tdBase + 0x331c
/-- CONT_STATUS (R532, 15_reliability_and_test.md). -/
def CONT_STATUS : Nat := tdBase + 0x3400
/-- CONT_CTL (R532, 15_reliability_and_test.md). -/
def CONT_CTL : Nat := tdBase + 0x3404
/-- HLTH_SEL (R532, 15_reliability_and_test.md). -/
def HLTH_SEL : Nat := tdBase + 0x3500
/-- HLTH_VAL (R532, 15_reliability_and_test.md). -/
def HLTH_VAL : Nat := tdBase + 0x3504
/-- EVL_NEXT_LO (R532, 15_reliability_and_test.md). -/
def EVL_NEXT_LO : Nat := tdBase + 0x3008
/-- EVL_NEXT_HI (R532, 15_reliability_and_test.md). -/
def EVL_NEXT_HI : Nat := tdBase + 0x300c
/-- EVL_SEL_LO (R532, 15_reliability_and_test.md). -/
def EVL_SEL_LO : Nat := tdBase + 0x3010
/-- EVL_SEL_HI (R532, 15_reliability_and_test.md). -/
def EVL_SEL_HI : Nat := tdBase + 0x3014
/-- EVL_REC (R532, 15_reliability_and_test.md). -/
def EVL_REC (i : Nat) : Nat := tdBase + 0x3020 + i * 4
/-- LG_REC (R532, 15_reliability_and_test.md). -/
def LG_REC (i : Nat) : Nat := tdBase + 0x3100 + i * 4
end R
/-! ### Fields -/
namespace F
def ARCH_CFG_CANTON_LOG2 : Fld := (1, 0)
def ARCH_CFG_POP32 : Fld := (2, 2)
def ARCH_CFG_DSPEED : Fld := (3, 3)
def ARCH_CFG_DIMM_GIB : Fld := (16, 8)
def ARCH_CANTON_BASE_MIB : Fld := (22, 0)
def ARCH_CANTON_SIZE_MIB : Fld := (22, 0)
def ARCH_CANTON_SPREAD_MIB : Fld := (22, 0)
def FAB_PORT_STATUS_UP : Fld := (3, 0)
def FAB_PORT_STATUS_FENCED : Fld := (7, 4)
def FAB_PORT_STATUS_DOWN : Fld := (11, 8)
def FAB_PORT_STATUS_RETRY_CNT : Fld := (31, 16)
def ARITH_SR_STATUS_SEEDED : Fld := (0, 0)
def ARITH_SR_STATUS_SEED_COUNT : Fld := (31, 16)
def MA_STATUS_BUSY : Fld := (0, 0)
def MA_STATUS_HPEND : Fld := (1, 1)
def MA_STATUS_HWAIT : Fld := (2, 2)
def MA_STATUS_ILOCK : Fld := (3, 3)
def MA_STATUS_COPEN : Fld := (4, 4)
def MA_STATUS_WFMT : Fld := (7, 5)
def MA_STATUS_INV : Fld := (8, 8)
def MA_STATUS_OVF : Fld := (9, 9)
def MA_STATUS_UNF : Fld := (10, 10)
def MA_STATUS_PARERR : Fld := (11, 11)
def MA_STATUS_ACTCOL : Fld := (23, 16)
def MA_FAULT_CODE : Fld := (3, 0)
def MA_FAULT_VALID : Fld := (4, 4)
def MA_FAULT_OPCODE : Fld := (15, 8)
def MA_COLL_ROWS : Fld := (7, 0)
def MA_COLL_BUF : Fld := (8, 8)
def MA_COLL_CFG : Fld := (9, 9)
def MA_COLL_BATCHES : Fld := (31, 16)
def MA_COLL_TIMER_WAITED : Fld := (19, 0)
def MA_PERF_ACTIVE_LO_COUNT : Fld := (31, 0)
def MA_PERF_ACTIVE_HI_COUNT : Fld := (31, 0)
def MA_PERF_MAC_LO_COUNT : Fld := (31, 0)
def MA_PERF_MAC_HI_COUNT : Fld := (31, 0)
def MA_PERF_ILOCK_COUNT : Fld := (31, 0)
def MA_PERF_HWAIT_COUNT : Fld := (31, 0)
def MA_PERF_BUBBLE_COUNT : Fld := (31, 0)
def MA_PERF_MASKED_COUNT : Fld := (31, 0)
def MA_PERF_HUNUSED_COUNT : Fld := (31, 0)
def MA_PERF_CTL_FREEZE : Fld := (0, 0)
def MA_PERF_CTL_CLEAR : Fld := (1, 1)
def VE_STATUS_BUSY : Fld := (0, 0)
def VE_STATUS_LSWAIT : Fld := (1, 1)
def VE_STATUS_SRHOLD : Fld := (2, 2)
def VE_STATUS_INV : Fld := (8, 8)
def VE_STATUS_DZ : Fld := (9, 9)
def VE_STATUS_OVF : Fld := (10, 10)
def VE_STATUS_UNF : Fld := (11, 11)
def VE_STATUS_EMPTY : Fld := (12, 12)
def VE_STATUS_PARERR : Fld := (13, 13)
def VE_FAULT_CODE : Fld := (3, 0)
def VE_FAULT_VALID : Fld := (4, 4)
def VE_FAULT_OPCODE : Fld := (15, 8)
def VE_PERF_ACTIVE_LO_COUNT : Fld := (31, 0)
def VE_PERF_ACTIVE_HI_COUNT : Fld := (31, 0)
def VE_PERF_ELEM_LO_COUNT : Fld := (31, 0)
def VE_PERF_ELEM_HI_COUNT : Fld := (31, 0)
def VE_PERF_LSWAIT_COUNT : Fld := (31, 0)
def VE_PERF_DEPWAIT_COUNT : Fld := (31, 0)
def VE_PERF_MASKED_COUNT : Fld := (31, 0)
def VE_PERF_CTL_FREEZE : Fld := (0, 0)
def VE_PERF_CTL_CLEAR : Fld := (1, 1)
def SEQ_CFG_PPOLL : Fld := (7, 0)
def SEQ_CFG_WDOG : Fld := (23, 8)
def SEQ_FAULT_CODE : Fld := (3, 0)
def SEQ_FAULT_VALID : Fld := (4, 4)
def SEQ_FAULT_QUEUE : Fld := (7, 6)
def SEQ_FAULT_UNIT : Fld := (11, 8)
def SEQ_FAULT_OPCODE : Fld := (19, 12)
def SEQ_FAULT_DEPTH : Fld := (22, 20)
def SEQ_FAULT_IDX_INDEX : Fld := (15, 0)
def SEQ_Q_BASE_LO_ADDR : Fld := (31, 12)
def SEQ_Q_BASE_HI_ADDR : Fld := (15, 0)
def SEQ_Q_SIZE_LOG2 : Fld := (3, 0)
def SEQ_Q_HEAD_INDEX : Fld := (15, 0)
def SEQ_Q_TAIL_INDEX : Fld := (15, 0)
def SEQ_Q_CTL_CMD : Fld := (4, 0)
def SEQ_Q_STATUS_STATE : Fld := (2, 0)
def SEQ_Q_STATUS_DEPTH : Fld := (5, 3)
def SEQ_Q_STATUS_EMPTY : Fld := (6, 6)
def SEQ_Q_STATUS_WCTR : Fld := (15, 8)
def SEQ_CTR_VALUE : Fld := (15, 0)
def SEQ_CTR_INC_CTR : Fld := (7, 0)
def SEQ_CTR_INC_INC : Fld := (31, 16)
def GAS_STATUS_DRAINING : Fld := (0, 0)
def GAS_STATUS_ACTIVE : Fld := (3, 1)
def GAS_STATUS_DABORT : Fld := (4, 4)
def GAS_STATUS_DPOISON : Fld := (5, 5)
def GAS_STATUS_ECCCOR : Fld := (6, 6)
def GAS_STATUS_ECCUNC : Fld := (7, 7)
def GAS_STATUS_ECCCNT : Fld := (31, 16)
def GAS_ERRADDR_LINE : Fld := (17, 0)
def GAS_ERRADDR_VALID : Fld := (31, 31)
def GAS_DRAINMAP_COVERED : Fld := (31, 0)
def LS_STATUS_ECCCOR : Fld := (0, 0)
def LS_STATUS_ECCUNC : Fld := (1, 1)
def LS_STATUS_ECCCNT : Fld := (31, 16)
def LS_ERRADDR_LINE : Fld := (19, 0)
def LS_ERRADDR_VALID : Fld := (31, 31)
def LS_PERF_REFUSED_COUNT : Fld := (31, 0)
def CAD_CTL_EN : Fld := (0, 0)
def CAD_CTL_CATCHUP : Fld := (15, 8)
def CAD_CTL_RESYNC : Fld := (23, 16)
def CAD_CTL_ECARRY : Fld := (24, 24)
def CAD_STEP_PERIOD_US : Fld := (31, 0)
def CAD_ROUND_PERIOD_US : Fld := (31, 0)
def CAD_EVAL_PERIOD_US : Fld := (31, 0)
def CAD_EVERY_EVAL : Fld := (15, 0)
def CAD_EVERY_ROUND : Fld := (31, 16)
def CAD_STATUS_KIND : Fld := (1, 0)
def CAD_STATUS_LATE : Fld := (2, 2)
def CAD_STATUS_DEBT : Fld := (3, 3)
def CAD_STATUS_STEP : Fld := (31, 16)
def CAD_DEBT_US : Fld := (31, 0)
def CAD_COUNT_LATE : Fld := (15, 0)
def CAD_COUNT_RESYNCS : Fld := (31, 16)
def CAD_DONE_KIND : Fld := (1, 0)
def CAD_TIMER_LO_US : Fld := (31, 0)
def CAD_TIMER_HI_US : Fld := (31, 0)
def CAD_DEADLINE_LO_US : Fld := (31, 0)
def CAD_DEADLINE_HI_US : Fld := (31, 0)
def MC_STATUS_PRESENT : Fld := (0, 0)
def MC_STATUS_TRAINED : Fld := (1, 1)
def MC_STATUS_THROT : Fld := (2, 2)
def MC_STATUS_RANKCFG : Fld := (5, 4)
def MC_STATUS_TEMP : Fld := (15, 8)
def MC_ECC_CORR : Fld := (15, 0)
def MC_ECC_UNC : Fld := (31, 16)
def MC_SCRUB_CTL_EN : Fld := (0, 0)
def MC_SCRUB_CTL_TAGSCRUB : Fld := (1, 1)
def MC_SCRUB_CTL_HOURS : Fld := (15, 8)
def MC_SCRUB_STATUS_PROGRESS : Fld := (9, 0)
def MC_SCRUB_STATUS_PASSES : Fld := (31, 16)
def SEAL_STATUS_KEYS : Fld := (0, 0)
def SEAL_STATUS_TREE : Fld := (1, 1)
def SEAL_STATUS_MIRRORX : Fld := (2, 2)
def SEAL_STATUS_CCFATAL : Fld := (4, 4)
def SEAL_STATUS_TAGFAIL : Fld := (8, 8)
def SEAL_STATUS_POISONED : Fld := (9, 9)
def SEAL_STATUS_PREFUSED : Fld := (10, 10)
def SEAL_STATUS_TAGFAILCNT : Fld := (31, 16)
def SEAL_DATAMIB_MIB : Fld := (19, 0)
def SEAL_GEN_GENA : Fld := (7, 0)
def SEAL_GEN_GENB : Fld := (15, 8)
def SEAL_POISON_CNT_ENTRIES : Fld := (10, 0)
def SEAL_POISON_CNT_TOTAL : Fld := (31, 16)
def SEAL_PIDX_INDEX : Fld := (9, 0)
def SEAL_PREC0_VALID : Fld := (0, 0)
def SEAL_PREC0_CH : Fld := (1, 1)
def SEAL_PREC0_CLASS : Fld := (4, 2)
def SEAL_PREC0_SECURITY : Fld := (5, 5)
def SEAL_PREC0_MAPPED : Fld := (6, 6)
def SEAL_PREC0_KIND : Fld := (9, 7)
def SEAL_PREC1_LBLOCK : Fld := (29, 0)
def SEAL_PREC2_MPA : Fld := (31, 0)
def SEAL_PREC3_MPA : Fld := (7, 0)
def SEAL_PREC3_TENSOR : Fld := (31, 8)
def SEAL_PREC4_ELEM : Fld := (31, 0)
def SEAL_PREC5_ELEM : Fld := (15, 0)
def SEAL_REINIT_INDEX : Fld := (9, 0)
def SEAL_REINIT_STATUS_BUSY : Fld := (0, 0)
def SEAL_REINIT_STATUS_DONE : Fld := (1, 1)
def SEAL_REINIT_STATUS_REFUSED : Fld := (2, 2)
def CC_STATUS_ECCCOR : Fld := (0, 0)
def CC_STATUS_ECCUNC : Fld := (1, 1)
def CC_STATUS_ECCCNT : Fld := (31, 16)
def SEAL_PERF_OVF_COUNT : Fld := (31, 0)
def SEAL_PERF_RMW_COUNT : Fld := (31, 0)
def SEAL_PERF_CCMISS_COUNT : Fld := (31, 0)
def SEAL_PERF_TCMISS_COUNT : Fld := (31, 0)
def SEAL_PERF_CTL_FREEZE : Fld := (0, 0)
def SEAL_PERF_CTL_CLEAR : Fld := (1, 1)
def UE_CTL_EN : Fld := (0, 0)
def UE_CTL_CLIPMODE : Fld := (2, 1)
def UE_CTL_PAUSE : Fld := (3, 3)
def UE_CTL_RESET : Fld := (4, 4)
def UE_STATUS_BUSY : Fld := (0, 0)
def UE_STATUS_HOLDING : Fld := (1, 1)
def UE_STATUS_LAGFALL : Fld := (2, 2)
def UE_STATUS_INV : Fld := (3, 3)
def UE_STATUS_OVF : Fld := (4, 4)
def UE_STATUS_UNF : Fld := (5, 5)
def UE_STATUS_SRHOLD : Fld := (6, 6)
def UE_STATUS_RECOVER : Fld := (7, 7)
def UE_STATUS_DZ : Fld := (8, 8)
def UE_STATUS_HELD : Fld := (23, 16)
def UE_FAULT_CODE : Fld := (3, 0)
def UE_FAULT_VALID : Fld := (4, 4)
def UE_FAULT_SHARD : Fld := (21, 8)
def UE_TABLE_CNT_COUNT : Fld := (14, 0)
def UE_CLIPMAX_VALUE : Fld := (31, 0)
def UE_LAGNORM_VALUE : Fld := (31, 0)
def UE_NORMTAG_STEP : Fld := (15, 0)
def UE_NORMTAG_LAYER : Fld := (31, 16)
def UE_NORMIN_SUMSQ : Fld := (31, 0)
def UE_HOLDCAP_GRANULES : Fld := (7, 0)
def UE_CMD_SHARD : Fld := (13, 0)
def UE_CMD_OP : Fld := (19, 16)
def UE_CMDARG_LO_ADDR : Fld := (31, 6)
def UE_CMDARG_HI_ADDR : Fld := (15, 0)
def UE_CMDSTAT_BUSY : Fld := (0, 0)
def UE_CMDSTAT_DONE : Fld := (1, 1)
def UE_CMDSTAT_REFUSED : Fld := (2, 2)
def UE_CMDSTAT_PARTIAL : Fld := (3, 3)
def UE_AUDIT_CTL_EVERY : Fld := (15, 0)
def UE_AUDIT_CTL_FIX : Fld := (16, 16)
def UE_AUDIT_DIFF_COUNT : Fld := (31, 0)
def UE_TABLE_LO_ADDR : Fld := (31, 12)
def UE_TABLE_HI_ADDR : Fld := (15, 0)
def UE_SCHED_LO_ADDR : Fld := (31, 12)
def UE_SCHED_HI_ADDR : Fld := (15, 0)
def UE_PEN_LO_ADDR : Fld := (31, 12)
def UE_PEN_HI_ADDR : Fld := (15, 0)
def UE_NRING_LO_ADDR : Fld := (31, 12)
def UE_NRING_HI_ADDR : Fld := (15, 0)
def UE_NANCNT_COUNT : Fld := (31, 0)
def UE_SKIPCNT_COUNT : Fld := (31, 0)
def UE_RECOVCNT_COUNT : Fld := (31, 0)
def UE_PERF_ELEM_LO_COUNT : Fld := (31, 0)
def UE_PERF_ELEM_HI_COUNT : Fld := (31, 0)
def UE_PERF_STALL_COUNT : Fld := (31, 0)
def UE_PERF_HOLD_COUNT : Fld := (31, 0)
def UE_PERF_CTL_FREEZE : Fld := (0, 0)
def UE_PERF_CTL_CLEAR : Fld := (1, 1)
def CL_SLOTS_SHARE : Fld := (10, 0)
def CL_SLOTS_CLAIMED : Fld := (26, 16)
def CL_BUSY_NOW : Fld := (10, 0)
def CL_BUSY_PEAK : Fld := (26, 16)
def CL_REFUSED_COUNT : Fld := (31, 0)
def CL_STAGEDGRP_COUNT : Fld := (12, 0)
def CL_PERF_DUPS_COUNT : Fld := (31, 0)
def CL_PERF_CTL_FREEZE : Fld := (0, 0)
def CL_PERF_CTL_CLEAR : Fld := (1, 1)
def CL_PERF_PIECES_LO_COUNT : Fld := (31, 0)
def CL_PERF_PIECES_HI_COUNT : Fld := (31, 0)
def GC_SEL_GROUP : Fld := (11, 0)
def GC_CMD_OP : Fld := (2, 0)
def GC_CMDSTAT_BUSY : Fld := (0, 0)
def GC_CMDSTAT_DONE : Fld := (1, 1)
def GC_CMDSTAT_REFUSED : Fld := (2, 2)
def GC_CFG_ALG : Fld := (0, 0)
def GC_CFG_OUTS : Fld := (2, 1)
def GC_CFG_CANTON : Fld := (7, 5)
def GC_JOB_ID : Fld := (31, 0)
def GC_MEMB_NM1 : Fld := (16, 0)
def GC_MYIDX_INDEX : Fld := (16, 0)
def GC_PRED_MODULE : Fld := (16, 0)
def GC_SUCC_MODULE : Fld := (16, 0)
def GC_BOXO_ORIGIN : Fld := (20, 0)
def GC_BOXE_EXTENT : Fld := (20, 0)
def GC_QBASE_LO_ADDR : Fld := (31, 12)
def GC_QBASE_HI_ADDR : Fld := (15, 0)
def GC_QCTL_SIZE : Fld := (3, 0)
def GC_QCTL_QLD : Fld := (6, 4)
def GC_QCTL_TPOLL : Fld := (15, 8)
def GC_QHEAD_INDEX : Fld := (15, 0)
def GC_QTAIL_INDEX : Fld := (15, 0)
def GC_SLOT_NSLOT : Fld := (10, 0)
def GC_SLOT_GRANTED : Fld := (16, 16)
def GC_STAGE_MD : Fld := (3, 0)
def GC_STAGE_GRAN : Fld := (13, 8)
def GC_PATIENCE_US : Fld := (31, 0)
def GC_STATUS_STATE : Fld := (2, 0)
def GC_STATUS_STAGED : Fld := (3, 3)
def GC_STATUS_REASON : Fld := (7, 4)
def GC_STATUS_INFLIGHT : Fld := (10, 8)
def GC_STATUS_OPSEQ : Fld := (31, 16)
def GC_SLOWEST_MODULE : Fld := (16, 0)
def GC_SLOWEST_VALID : Fld := (17, 17)
def GC_SLOWEST_SRCDIE : Fld := (23, 18)
def GC_SLOWEST_LOCAL : Fld := (24, 24)
def GC_STALL_MODULE : Fld := (16, 0)
def GC_STALL_VALID : Fld := (17, 17)
def GC_STALL_SRCDIE : Fld := (23, 18)
def GC_STALL_LOCAL : Fld := (24, 24)
def GC_LAGLOC_COUNT : Fld := (31, 0)
def GC_LAGOUT_COUNT : Fld := (31, 0)
def GC_LAG_COUNT : Fld := (31, 0)
def LK_CFG_EN : Fld := (0, 0)
def LK_CFG_FULLEQ : Fld := (1, 1)
def LK_CFG_RETRAIN : Fld := (2, 2)
def LK_CFG_HOLDMS : Fld := (15, 4)
def LK_STATUS_STATE : Fld := (2, 0)
def LK_STATUS_WIDTH8 : Fld := (3, 3)
def LK_STATUS_HALF : Fld := (4, 4)
def LK_STATUS_DOWNSEEN : Fld := (5, 5)
def LK_STATUS_NARROWED : Fld := (6, 6)
def LK_STATUS_TRAINS : Fld := (31, 16)
def LK_NBR_MODULE : Fld := (16, 0)
def LK_NBR_PORT : Fld := (19, 17)
def LK_NBR_STEPPING : Fld := (23, 20)
def LK_NBR_VALID : Fld := (24, 24)
def LK_LANES_ACTIVE : Fld := (15, 0)
def LK_LANES_FAILED : Fld := (31, 16)
def LK_REKEY_CFG_MS : Fld := (15, 0)
def LK_REKEY_CMD_FORCE : Fld := (7, 0)
def LK_ARB_CLOG2 : Fld := (1, 0)
def LK_ARB_WCON : Fld := (2, 2)
def LK_EPOCH_TXEP : Fld := (7, 0)
def LK_EPOCH_RXEP : Fld := (15, 8)
def LK_EPOCH_RXTWO : Fld := (16, 16)
def LK_EPOCH_RETIRING : Fld := (17, 17)
def LK_FEC_CORR_LO_COUNT : Fld := (31, 0)
def LK_FEC_CORR_HI_COUNT : Fld := (31, 0)
def LK_FEC_UNC_COUNT : Fld := (31, 0)
def LK_CRCERR_COUNT : Fld := (31, 0)
def LK_RETX_COUNT : Fld := (31, 0)
def LK_DUPS_COUNT : Fld := (31, 0)
def LK_TAGFAIL_COUNT : Fld := (31, 0)
def LK_CTLFAIL_COUNT : Fld := (31, 0)
def LK_REKEYS_COUNT : Fld := (31, 0)
def LK_DROP_COUNT : Fld := (31, 0)
def LK_REVOKE_COUNT : Fld := (31, 0)
def LK_TC2WAIT_COUNT : Fld := (31, 0)
def LK_STALE_COUNT : Fld := (31, 0)
def LK_CNT_CTL_FREEZE : Fld := (0, 0)
def LK_CNT_CTL_CLEAR : Fld := (1, 1)
def LK_SEQ_LO_SEQ : Fld := (31, 0)
def LK_SEQ_HI_SEQ : Fld := (31, 0)
def SX_CTL_EN : Fld := (0, 0)
def SX_CTL_SITE : Fld := (7, 2)
def SX_STATUS_BUSY : Fld := (0, 0)
def SX_STATUS_LEADING : Fld := (1, 1)
def SX_STATUS_BEHIND : Fld := (2, 2)
def SX_STATUS_OPEN : Fld := (31, 16)
def SX_FAULT_CODE : Fld := (3, 0)
def SX_FAULT_VALID : Fld := (4, 4)
def SX_FAULT_SHARD : Fld := (21, 8)
def SX_TABLE_CNT_COUNT : Fld := (14, 0)
def SX_PARAM_STALEMAX : Fld := (7, 0)
def SX_PARAM_QUORUM : Fld := (15, 8)
def SX_PARAM_HEAD : Fld := (23, 16)
def SX_PARAM_S0 : Fld := (31, 24)
def SX_DISCOUNT_VALUE : Fld := (31, 0)
def SX_DATA_US_US : Fld := (31, 0)
def SX_CORR_US_US : Fld := (31, 0)
def SX_CMD_SHARD : Fld := (13, 0)
def SX_CMD_OP : Fld := (19, 16)
def SX_CMDSTAT_BUSY : Fld := (0, 0)
def SX_CMDSTAT_DONE : Fld := (1, 1)
def SX_CMDSTAT_REFUSED : Fld := (2, 2)
def SX_CNT_CTL_FREEZE : Fld := (0, 0)
def SX_CNT_CTL_CLEAR : Fld := (1, 1)
def SX_TABLE_LO_ADDR : Fld := (31, 12)
def SX_TABLE_HI_ADDR : Fld := (15, 0)
def SX_SITES_LO_ADDR : Fld := (31, 12)
def SX_SITES_HI_ADDR : Fld := (15, 0)
def SX_PEN_LO_ADDR : Fld := (31, 12)
def SX_PEN_HI_ADDR : Fld := (15, 0)
def SX_CNT_MERGED_COUNT : Fld := (31, 0)
def SX_CNT_ZERO_COUNT : Fld := (31, 0)
def SX_CNT_FOLD_COUNT : Fld := (31, 0)
def SX_CNT_REBASE_COUNT : Fld := (31, 0)
def SX_CNT_ABANDON_COUNT : Fld := (31, 0)
def SP_CFG_EN0 : Fld := (0, 0)
def SP_CFG_EN1 : Fld := (1, 1)
def SP_CFG_VLANEN : Fld := (2, 2)
def SP_CFG_VLAN : Fld := (14, 3)
def SP_CFG_DSCP : Fld := (20, 15)
def SP_STATUS_UP0 : Fld := (0, 0)
def SP_STATUS_UP1 : Fld := (1, 1)
def SP_STATUS_DOWNSEEN : Fld := (2, 2)
def SP_UDP_PORT : Fld := (15, 0)
def SP_LOSTMS_MS : Fld := (19, 0)
def SP_PSEL_SITE : Fld := (5, 0)
def SP_PEER_OUT : Fld := (0, 0)
def SP_PEER_PORTDOWN : Fld := (1, 1)
def SP_PEER_SRTT : Fld := (31, 2)
def SP_RATE_GBPS : Fld := (15, 0)
def SP_CNT_CTL_FREEZE : Fld := (0, 0)
def SP_CNT_CTL_CLEAR : Fld := (1, 1)
def SP_PREFIX_LO_PREFIX : Fld := (31, 0)
def SP_PREFIX_HI_PREFIX : Fld := (31, 0)
def SP_RTR_LO_IID : Fld := (31, 0)
def SP_RTR_HI_IID : Fld := (31, 0)
def SP_TXFR_LO_COUNT : Fld := (31, 0)
def SP_TXFR_HI_COUNT : Fld := (31, 0)
def SP_RXFR_LO_COUNT : Fld := (31, 0)
def SP_RXFR_HI_COUNT : Fld := (31, 0)
def SP_RETX_COUNT : Fld := (31, 0)
def SP_DUPS_COUNT : Fld := (31, 0)
def SP_AUTHFAIL_COUNT : Fld := (31, 0)
def SP_DROP_COUNT : Fld := (31, 0)
def SEC_STATUS_IDOK : Fld := (0, 0)
def SEC_STATUS_SCANNED : Fld := (1, 1)
def SEC_STATUS_DBGCONN : Fld := (2, 2)
def SEC_STATUS_IDE : Fld := (3, 3)
def SEC_OWN_VIEW : Fld := (3, 0)
def SEC_CMD_OP : Fld := (3, 0)
def SEC_CMD_CANTON : Fld := (6, 4)
def SEC_CMD_SLOT : Fld := (11, 8)
def SEC_CMDSTAT_BUSY : Fld := (0, 0)
def SEC_CMDSTAT_DONE : Fld := (1, 1)
def SEC_CMDSTAT_REFUSED : Fld := (2, 2)
def SEC_CMDSTAT_CODE : Fld := (7, 4)
def CPOL_STATUS_STATE : Fld := (1, 0)
def CPOL_STATUS_CONSENT : Fld := (12, 8)
def CPOL_STATUS_OPFLAGS : Fld := (17, 16)
def CPOL_SEQ_SEQ : Fld := (31, 0)
def SCRUB_STATUS_STEP : Fld := (3, 0)
def SCRUB_STATUS_PEND : Fld := (4, 4)
def SCRUB_STATUS_FORCED : Fld := (5, 5)
def SCRUB_STATUS_COUNT : Fld := (31, 16)
def HI_LINK_MODE : Fld := (1, 0)
def HI_LINK_X8 : Fld := (2, 2)
def HI_LINK_R32 : Fld := (3, 3)
def HI_LINK_REV : Fld := (4, 4)
def HI_LINK_TRAINS : Fld := (31, 16)
def HI_EVQ_BASE_LO_ADDR : Fld := (31, 12)
def HI_EVQ_BASE_HI_ADDR : Fld := (31, 0)
def HI_EVQ_CTL_EN : Fld := (0, 0)
def HI_EVQ_CTL_SIZE : Fld := (4, 1)
def HI_EVQ_CTL_HOLDOFF : Fld := (31, 16)
def HI_EVQ_HEAD_INDEX : Fld := (15, 0)
def HI_EVQ_TAIL_INDEX : Fld := (15, 0)
def HI_EVQ_DROP_COUNT : Fld := (31, 0)
def HI_HOSTTIME_LO_NS : Fld := (31, 0)
def HI_HOSTTIME_HI_NS : Fld := (31, 0)
def HI_MBOX_TO_LO_MSG : Fld := (31, 0)
def HI_MBOX_TO_HI_MSG : Fld := (31, 0)
def HI_MBOX_FROM_LO_MSG : Fld := (31, 0)
def HI_MBOX_FROM_HI_MSG : Fld := (31, 0)
def HI_OUT_LO_ADDR : Fld := (31, 12)
def HI_OUT_HI_ADDR : Fld := (15, 0)
def HI_OUT_LEN_PAGES : Fld := (23, 0)
def HI_MBOX_STAT_TOFULL : Fld := (0, 0)
def HI_MBOX_STAT_FROMFULL : Fld := (1, 1)
def HI_MBOX_STAT_OVR : Fld := (2, 2)
def HI_RGN_LO_EN : Fld := (0, 0)
def HI_RGN_LO_TOMOD : Fld := (1, 1)
def HI_RGN_LO_TOHOST : Fld := (2, 2)
def HI_RGN_LO_BUSY : Fld := (3, 3)
def HI_RGN_LO_ADDR : Fld := (31, 12)
def HI_RGN_HI_ADDR : Fld := (31, 0)
def HI_RGN_SIZE_PAGES : Fld := (24, 0)
def HI_RING_LO_ADDR : Fld := (31, 12)
def HI_RING_HI_ADDR : Fld := (15, 0)
def HI_RING_CTL_EN : Fld := (0, 0)
def HI_RING_CTL_SIZE : Fld := (4, 1)
def HI_RING_CTL_VEC : Fld := (10, 5)
def HI_RING_CTL_STATE : Fld := (12, 11)
def HI_RING_CTL_RESTART : Fld := (13, 13)
def HI_RING_CTL_ABORT : Fld := (14, 14)
def HI_RING_IDX_TAIL : Fld := (15, 0)
def HI_RING_IDX_HEAD : Fld := (31, 16)
def DP_ADDR_LO_MPA : Fld := (31, 0)
def DP_ADDR_HI_MPA : Fld := (15, 0)
def DP_CTL_INC : Fld := (0, 0)
def DP_CTL_DIR : Fld := (1, 1)
def DP_CTL_KEY : Fld := (2, 2)
def DP_CTL_CANTON : Fld := (5, 3)
def DP_STATUS_ERR : Fld := (0, 0)
def DP_STATUS_CODE : Fld := (3, 1)
def DP_COUNT_BYTES : Fld := (31, 0)
def BOOT_STATUS_PHASE : Fld := (3, 0)
def BOOT_STATUS_START : Fld := (6, 4)
def BOOT_STATUS_RCAUSE : Fld := (11, 8)
def BOOT_STATUS_STARTS : Fld := (31, 16)
def BOOT_SLOTS_SLOTS : Fld := (9, 0)
def BOOT_SLOTS_FALLBACK : Fld := (14, 10)
def BOOT_TIME_MS : Fld := (31, 0)
def RST_CMD_KIND : Fld := (2, 0)
def RST_CMD_CANTON : Fld := (5, 3)
def RST_CMD_DIE : Fld := (11, 6)
def RST_CMD_PORT : Fld := (14, 12)
def RST_CAUSE_LAST : Fld := (3, 0)
def RST_COUNT_UVPOR : Fld := (15, 0)
def RST_COUNT_RESETS : Fld := (31, 16)
def PWR_STATUS_STATE : Fld := (0, 0)
def PWR_STATUS_SUPPLY : Fld := (1, 1)
def PWR_STATUS_THERMAL : Fld := (2, 2)
def PWR_STATUS_PARKED : Fld := (15, 8)
def PWR_CTL_PARK : Fld := (7, 0)
def PWR_CTL_UNPARK : Fld := (15, 8)
def PWR_CTL_STANDBY : Fld := (16, 16)
def PWR_VIN_MV : Fld := (15, 0)
def PWR_VIN_MINMV : Fld := (31, 16)
def PWR_DIPS_DIPS : Fld := (15, 0)
def PWR_DIPS_THROTTLES : Fld := (31, 16)
def PWR_HOLDUP_UF : Fld := (15, 0)
def PWR_HOLDUP_VALID : Fld := (16, 16)
def PWR_HOLDUP_LOW : Fld := (17, 17)
def PWR_HOLDUP_DEFER : Fld := (18, 18)
def CLK_STATUS_REFOK : Fld := (0, 0)
def CLK_STATUS_RCOSC : Fld := (1, 1)
def CLK_STATUS_LOSSES : Fld := (31, 16)
def FL_CMD_OP : Fld := (2, 0)
def FL_CMD_KIND : Fld := (5, 3)
def FL_CMD_SLOT : Fld := (6, 6)
def FL_ADDR_CHUNK : Fld := (5, 0)
def FL_STATUS_BUSY : Fld := (0, 0)
def FL_STATUS_DONE : Fld := (1, 1)
def FL_STATUS_REFUSED : Fld := (2, 2)
def FL_STATUS_DEFER : Fld := (3, 3)
def FL_STATUS_CODE : Fld := (7, 4)
def PWR_CANTON_WATTS : Fld := (15, 0)
def PWR_CANTON_FRAC : Fld := (18, 16)
def EVL_STATUS_FLASHBUSY : Fld := (0, 0)
def EVL_STATUS_STALL : Fld := (1, 1)
def EVL_STATUS_SELVALID : Fld := (2, 2)
def EVL_UNSTORED_COUNT : Fld := (31, 0)
def EVL_BOOTNO_BOOTNO : Fld := (15, 0)
def BIST_STATUS_FAILS : Fld := (12, 0)
def BIST_STATUS_OVERFLOW : Fld := (13, 13)
def BIST_STATUS_HOT : Fld := (14, 14)
def BIST_STATUS_UNUSABLE : Fld := (31, 16)
def BIST_CTL_RETEST : Fld := (0, 0)
def BIST_TIME_MS : Fld := (31, 0)
def BIST_FIDX_INDEX : Fld := (11, 0)
def BIST_FREC0_DIE : Fld := (5, 0)
def BIST_FREC0_INST : Fld := (13, 6)
def BIST_FREC0_REPAIRED : Fld := (14, 14)
def BIST_FREC0_UNUSABLE : Fld := (15, 15)
def BIST_FREC0_MARGIN : Fld := (16, 16)
def BIST_FREC1_WORD : Fld := (19, 0)
def BIST_FREC1_BIT : Fld := (25, 20)
def SF_STATUS_QHOLD : Fld := (0, 0)
def SF_STATUS_STFAIL : Fld := (1, 1)
def SF_STATUS_QUENCHED : Fld := (2, 2)
def SF_QLAST_OVERCURRENT : Fld := (0, 0)
def SF_QLAST_OVERTEMP : Fld := (1, 1)
def SF_QLAST_OVERVOLT : Fld := (2, 2)
def SF_QLAST_REFCLK : Fld := (3, 3)
def SF_QLAST_SLOWPATH : Fld := (4, 4)
def SF_QLAST_MONITOR : Fld := (15, 8)
def SF_QCOUNT_TOTAL : Fld := (15, 0)
def SF_QCOUNT_RECENT : Fld := (23, 16)
def SF_TJMAX_TEMP : Fld := (7, 0)
def SF_DIMMMAX_TEMP : Fld := (7, 0)
def SF_ILIM_IN : Fld := (15, 0)
def SF_ILIM_RAILPCT : Fld := (23, 16)
def SF_QLIMIT_COUNT : Fld := (7, 0)
def CONT_STATUS_CFATAL : Fld := (7, 0)
def CONT_STATUS_UNUSABLE : Fld := (15, 8)
def CONT_CTL_AUTOCRST : Fld := (7, 0)
def CONT_CTL_DELAYMS : Fld := (23, 8)
def HLTH_SEL_ITEM : Fld := (15, 0)
def HLTH_VAL_VALUE : Fld := (31, 0)
def EVL_NEXT_LO_ESEQ : Fld := (31, 0)
def EVL_NEXT_HI_ESEQ : Fld := (31, 0)
def EVL_SEL_LO_ESEQ : Fld := (31, 0)
def EVL_SEL_HI_ESEQ : Fld := (31, 0)
def EVL_REC_WORD : Fld := (31, 0)
def LG_REC_WORD : Fld := (31, 0)
end F
/-! ### The table -/
/-- Register tables of spec/, part 0. -/
def regTable0 : List RegRow := [
  ⟨"ARCH_CFG", .td, 0x100, [], [⟨1, 0, .ro, 0, .w⟩, ⟨2, 2, .ro, 0, .w⟩, ⟨3, 3, .ro, 0, .w⟩, ⟨16, 8, .ro, 0, .w⟩]⟩,
  ⟨"ARCH_CANTON_BASE", .td, 0x120, [(8, 16)], [⟨22, 0, .ro, 0, .w⟩]⟩,
  ⟨"ARCH_CANTON_SIZE", .td, 0x124, [(8, 16)], [⟨22, 0, .ro, 0, .w⟩]⟩,
  ⟨"ARCH_CANTON_SPREAD", .td, 0x128, [(8, 16)], [⟨22, 0, .ro, 0, .w⟩]⟩,
  ⟨"FAB_PORT_STATUS", .any, 0xf00, [], [⟨3, 0, .ro, 0, .n⟩, ⟨7, 4, .ro, 0, .n⟩, ⟨11, 8, .rw1c, 0, .w⟩, ⟨31, 16, .ro, 0, .n⟩]⟩,
  ⟨"ARITH_SR_STATUS", .cdmd, 0xf20, [], [⟨0, 0, .ro, 0, .n⟩, ⟨31, 16, .ro, 0, .w⟩]⟩,
  ⟨"MA_STATUS", .cd, 0x20000, [(4, 4096)], [⟨0, 0, .ro, 0, .n⟩, ⟨1, 1, .ro, 0, .n⟩, ⟨2, 2, .ro, 0, .n⟩, ⟨3, 3, .ro, 0, .n⟩, ⟨4, 4, .ro, 0, .n⟩, ⟨7, 5, .ro, 7, .n⟩, ⟨8, 8, .rw1c, 0, .n⟩, ⟨9, 9, .rw1c, 0, .n⟩, ⟨10, 10, .rw1c, 0, .n⟩, ⟨11, 11, .rw1c, 0, .n⟩, ⟨23, 16, .ro, 0, .n⟩]⟩,
  ⟨"MA_FAULT", .cd, 0x20004, [(4, 4096)], [⟨3, 0, .ro, 0, .n⟩, ⟨4, 4, .rw1c, 0, .n⟩, ⟨15, 8, .ro, 0, .n⟩]⟩,
  ⟨"MA_COLL", .cd, 0x20010, [(4, 4096)], [⟨7, 0, .ro, 0, .n⟩, ⟨8, 8, .ro, 0, .n⟩, ⟨9, 9, .ro, 0, .n⟩, ⟨31, 16, .ro, 0, .n⟩]⟩,
  ⟨"MA_COLL_TIMER", .cd, 0x20014, [(4, 4096)], [⟨19, 0, .ro, 0, .n⟩]⟩,
  ⟨"MA_PERF_ACTIVE_LO", .cd, 0x20020, [(4, 4096)], [⟨31, 0, .ro, 0, .n⟩]⟩,
  ⟨"MA_PERF_ACTIVE_HI", .cd, 0x20024, [(4, 4096)], [⟨31, 0, .ro, 0, .n⟩]⟩,
  ⟨"MA_PERF_MAC_LO", .cd, 0x20028, [(4, 4096)], [⟨31, 0, .ro, 0, .n⟩]⟩,
  ⟨"MA_PERF_MAC_HI", .cd, 0x2002c, [(4, 4096)], [⟨31, 0, .ro, 0, .n⟩]⟩,
  ⟨"MA_PERF_ILOCK", .cd, 0x20030, [(4, 4096)], [⟨31, 0, .ro, 0, .n⟩]⟩,
  ⟨"MA_PERF_HWAIT", .cd, 0x20034, [(4, 4096)], [⟨31, 0, .ro, 0, .n⟩]⟩,
  ⟨"MA_PERF_BUBBLE", .cd, 0x20038, [(4, 4096)], [⟨31, 0, .ro, 0, .n⟩]⟩,
  ⟨"MA_PERF_MASKED", .cd, 0x2003c, [(4, 4096)], [⟨31, 0, .ro, 0, .n⟩]⟩,
  ⟨"MA_PERF_HUNUSED", .cd, 0x20040, [(4, 4096)], [⟨31, 0, .ro, 0, .n⟩]⟩,
  ⟨"MA_PERF_CTL", .cd, 0x20044, [(4, 4096)], [⟨0, 0, .rw, 0, .n⟩, ⟨1, 1, .wo, 0, .n⟩]⟩,
  ⟨"VE_STATUS", .cd, 0x24000, [], [⟨0, 0, .ro, 0, .n⟩, ⟨1, 1, .ro, 0, .n⟩, ⟨2, 2, .ro, 0, .n⟩, ⟨8, 8, .rw1c, 0, .n⟩, ⟨9, 9, .rw1c, 0, .n⟩, ⟨10, 10, .rw1c, 0, .n⟩, ⟨11, 11, .rw1c, 0, .n⟩, ⟨12, 12, .rw1c, 0, .n⟩, ⟨13, 13, .rw1c, 0, .n⟩]⟩,
  ⟨"VE_FAULT", .cd, 0x24004, [], [⟨3, 0, .ro, 0, .n⟩, ⟨4, 4, .rw1c, 0, .n⟩, ⟨15, 8, .ro, 0, .n⟩]⟩,
  ⟨"VE_PERF_ACTIVE_LO", .cd, 0x24020, [], [⟨31, 0, .ro, 0, .n⟩]⟩,
  ⟨"VE_PERF_ACTIVE_HI", .cd, 0x24024, [], [⟨31, 0, .ro, 0, .n⟩]⟩,
  ⟨"VE_PERF_ELEM_LO", .cd, 0x24028, [], [⟨31, 0, .ro, 0, .n⟩]⟩]
/-- Register tables of spec/, part 1. -/
def regTable1 : List RegRow := [
  ⟨"VE_PERF_ELEM_HI", .cd, 0x2402c, [], [⟨31, 0, .ro, 0, .n⟩]⟩,
  ⟨"VE_PERF_LSWAIT", .cd, 0x24030, [], [⟨31, 0, .ro, 0, .n⟩]⟩,
  ⟨"VE_PERF_DEPWAIT", .cd, 0x24034, [], [⟨31, 0, .ro, 0, .n⟩]⟩,
  ⟨"VE_PERF_MASKED", .cd, 0x24038, [], [⟨31, 0, .ro, 0, .n⟩]⟩,
  ⟨"VE_PERF_CTL", .cd, 0x24044, [], [⟨0, 0, .rw, 0, .n⟩, ⟨1, 1, .wo, 0, .n⟩]⟩,
  ⟨"SEQ_CFG", .cd, 0x10000, [], [⟨7, 0, .rw, 16, .n⟩, ⟨23, 8, .rw, 0, .n⟩]⟩,
  ⟨"SEQ_FAULT", .cd, 0x10004, [], [⟨3, 0, .ro, 0, .n⟩, ⟨4, 4, .rw1c, 0, .n⟩, ⟨7, 6, .ro, 0, .n⟩, ⟨11, 8, .ro, 0, .n⟩, ⟨19, 12, .ro, 0, .n⟩, ⟨22, 20, .ro, 0, .n⟩]⟩,
  ⟨"SEQ_FAULT_IDX", .cd, 0x10008, [], [⟨15, 0, .ro, 0, .n⟩]⟩,
  ⟨"SEQ_Q_BASE_LO", .cd, 0x10100, [(4, 32)], [⟨31, 12, .rw, 0, .n⟩]⟩,
  ⟨"SEQ_Q_BASE_HI", .cd, 0x10104, [(4, 32)], [⟨15, 0, .rw, 0, .n⟩]⟩,
  ⟨"SEQ_Q_SIZE", .cd, 0x10108, [(4, 32)], [⟨3, 0, .rw, 4, .n⟩]⟩,
  ⟨"SEQ_Q_HEAD", .cd, 0x1010c, [(4, 32)], [⟨15, 0, .ro, 0, .n⟩]⟩,
  ⟨"SEQ_Q_TAIL", .cd, 0x10110, [(4, 32)], [⟨15, 0, .rw, 0, .n⟩]⟩,
  ⟨"SEQ_Q_CTL", .cd, 0x10114, [(4, 32)], [⟨4, 0, .wo, 0, .n⟩]⟩,
  ⟨"SEQ_Q_STATUS", .cd, 0x10118, [(4, 32)], [⟨2, 0, .ro, 0, .n⟩, ⟨5, 3, .ro, 0, .n⟩, ⟨6, 6, .ro, 1, .n⟩, ⟨15, 8, .ro, 0, .n⟩]⟩,
  ⟨"SEQ_CTR", .cd, 0x10400, [(256, 4)], [⟨15, 0, .rw, 0, .n⟩]⟩,
  ⟨"SEQ_CTR_INC", .cd, 0x10800, [], [⟨7, 0, .wo, 0, .n⟩, ⟨31, 16, .wo, 0, .n⟩]⟩,
  ⟨"GAS_STATUS", .cd, 0x18000, [], [⟨0, 0, .ro, 0, .n⟩, ⟨3, 1, .ro, 0, .n⟩, ⟨4, 4, .rw1c, 0, .n⟩, ⟨5, 5, .rw1c, 0, .n⟩, ⟨6, 6, .rw1c, 0, .n⟩, ⟨7, 7, .rw1c, 0, .n⟩, ⟨31, 16, .ro, 0, .n⟩]⟩,
  ⟨"GAS_ERRADDR", .cd, 0x18004, [], [⟨17, 0, .ro, 0, .n⟩, ⟨31, 31, .rw1c, 0, .n⟩]⟩,
  ⟨"GAS_DRAINMAP", .cd, 0x18020, [(8, 4)], [⟨31, 0, .ro, 0, .n⟩]⟩,
  ⟨"LS_STATUS", .cd, 0x1c000, [], [⟨0, 0, .rw1c, 0, .n⟩, ⟨1, 1, .rw1c, 0, .n⟩, ⟨31, 16, .ro, 0, .n⟩]⟩,
  ⟨"LS_ERRADDR", .cd, 0x1c004, [], [⟨19, 0, .ro, 0, .n⟩, ⟨31, 31, .rw1c, 0, .n⟩]⟩,
  ⟨"LS_PERF_REFUSED", .cd, 0x1c010, [], [⟨31, 0, .ro, 0, .n⟩]⟩,
  ⟨"CAD_CTL", .td, 0x400, [(8, 64)], [⟨0, 0, .rw, 0, .n⟩, ⟨15, 8, .rw, 0, .n⟩, ⟨23, 16, .rw, 0, .n⟩, ⟨24, 24, .rw, 1, .n⟩]⟩,
  ⟨"CAD_STEP_PERIOD", .td, 0x404, [(8, 64)], [⟨31, 0, .rw, 0, .n⟩]⟩]
/-- Register tables of spec/, part 2. -/
def regTable2 : List RegRow := [
  ⟨"CAD_ROUND_PERIOD", .td, 0x408, [(8, 64)], [⟨31, 0, .rw, 0, .n⟩]⟩,
  ⟨"CAD_EVAL_PERIOD", .td, 0x40c, [(8, 64)], [⟨31, 0, .rw, 0, .n⟩]⟩,
  ⟨"CAD_EVERY", .td, 0x410, [(8, 64)], [⟨15, 0, .rw, 0, .n⟩, ⟨31, 16, .rw, 0, .n⟩]⟩,
  ⟨"CAD_STATUS", .td, 0x414, [(8, 64)], [⟨1, 0, .ro, 0, .n⟩, ⟨2, 2, .ro, 0, .n⟩, ⟨3, 3, .ro, 0, .n⟩, ⟨31, 16, .ro, 0, .n⟩]⟩,
  ⟨"CAD_DEBT", .td, 0x418, [(8, 64)], [⟨31, 0, .ro, 0, .n⟩]⟩,
  ⟨"CAD_COUNT", .td, 0x41c, [(8, 64)], [⟨15, 0, .ro, 0, .n⟩, ⟨31, 16, .ro, 0, .n⟩]⟩,
  ⟨"CAD_DONE", .td, 0x430, [(8, 64)], [⟨1, 0, .wo, 0, .n⟩]⟩,
  ⟨"CAD_TIMER_LO", .td, 0x420, [(8, 64)], [⟨31, 0, .ro, 0, .n⟩]⟩,
  ⟨"CAD_TIMER_HI", .td, 0x424, [(8, 64)], [⟨31, 0, .ro, 0, .n⟩]⟩,
  ⟨"CAD_DEADLINE_LO", .td, 0x428, [(8, 64)], [⟨31, 0, .ro, 0, .n⟩]⟩,
  ⟨"CAD_DEADLINE_HI", .td, 0x42c, [(8, 64)], [⟨31, 0, .ro, 0, .n⟩]⟩,
  ⟨"MC_STATUS", .md, 0x8000, [(2, 256)], [⟨0, 0, .ro, 0, .w⟩, ⟨1, 1, .ro, 0, .w⟩, ⟨2, 2, .ro, 0, .n⟩, ⟨5, 4, .ro, 0, .w⟩, ⟨15, 8, .ro, 0, .n⟩]⟩,
  ⟨"MC_ECC", .md, 0x8004, [(2, 256)], [⟨15, 0, .ro, 0, .w⟩, ⟨31, 16, .ro, 0, .w⟩]⟩,
  ⟨"MC_SCRUB_CTL", .md, 0x8200, [], [⟨0, 0, .rw, 1, .n⟩, ⟨1, 1, .rw, 0, .n⟩, ⟨15, 8, .rw, 24, .n⟩]⟩,
  ⟨"MC_SCRUB_STATUS", .md, 0x8204, [], [⟨9, 0, .ro, 0, .n⟩, ⟨31, 16, .ro, 0, .n⟩]⟩,
  ⟨"SEAL_STATUS", .md, 0x10000, [], [⟨0, 0, .ro, 0, .n⟩, ⟨1, 1, .ro, 0, .n⟩, ⟨2, 2, .ro, 0, .w⟩, ⟨4, 4, .ro, 0, .n⟩, ⟨8, 8, .rw1c, 0, .n⟩, ⟨9, 9, .rw1c, 0, .n⟩, ⟨10, 10, .rw1c, 0, .n⟩, ⟨31, 16, .ro, 0, .n⟩]⟩,
  ⟨"SEAL_DATAMIB", .md, 0x10010, [(2, 4)], [⟨19, 0, .ro, 0, .w⟩]⟩,
  ⟨"SEAL_GEN", .md, 0x10018, [], [⟨7, 0, .ro, 0, .n⟩, ⟨15, 8, .ro, 0, .n⟩]⟩,
  ⟨"SEAL_POISON_CNT", .md, 0x10020, [], [⟨10, 0, .ro, 0, .n⟩, ⟨31, 16, .ro, 0, .w⟩]⟩,
  ⟨"SEAL_PIDX", .md, 0x10024, [], [⟨9, 0, .rw, 0, .n⟩]⟩,
  ⟨"SEAL_PREC0", .md, 0x10028, [], [⟨0, 0, .ro, 0, .n⟩, ⟨1, 1, .ro, 0, .n⟩, ⟨4, 2, .ro, 0, .n⟩, ⟨5, 5, .ro, 0, .n⟩, ⟨6, 6, .ro, 0, .n⟩, ⟨9, 7, .ro, 0, .n⟩]⟩,
  ⟨"SEAL_PREC1", .md, 0x1002c, [], [⟨29, 0, .ro, 0, .n⟩]⟩,
  ⟨"SEAL_PREC2", .md, 0x10030, [], [⟨31, 0, .ro, 0, .n⟩]⟩,
  ⟨"SEAL_PREC3", .md, 0x10034, [], [⟨7, 0, .ro, 0, .n⟩, ⟨31, 8, .ro, 0, .n⟩]⟩,
  ⟨"SEAL_PREC4", .md, 0x10038, [], [⟨31, 0, .ro, 0, .n⟩]⟩]
/-- Register tables of spec/, part 3. -/
def regTable3 : List RegRow := [
  ⟨"SEAL_PREC5", .md, 0x1003c, [], [⟨15, 0, .ro, 0, .n⟩]⟩,
  ⟨"SEAL_REINIT", .md, 0x10040, [], [⟨9, 0, .wo, 0, .n⟩]⟩,
  ⟨"SEAL_REINIT_STATUS", .md, 0x10044, [], [⟨0, 0, .ro, 0, .n⟩, ⟨1, 1, .rw1c, 0, .n⟩, ⟨2, 2, .rw1c, 0, .n⟩]⟩,
  ⟨"CC_STATUS", .md, 0x10080, [], [⟨0, 0, .rw1c, 0, .n⟩, ⟨1, 1, .rw1c, 0, .n⟩, ⟨31, 16, .ro, 0, .w⟩]⟩,
  ⟨"SEAL_PERF_OVF", .md, 0x10060, [], [⟨31, 0, .ro, 0, .n⟩]⟩,
  ⟨"SEAL_PERF_RMW", .md, 0x10064, [], [⟨31, 0, .ro, 0, .n⟩]⟩,
  ⟨"SEAL_PERF_CCMISS", .md, 0x10068, [], [⟨31, 0, .ro, 0, .n⟩]⟩,
  ⟨"SEAL_PERF_TCMISS", .md, 0x1006c, [], [⟨31, 0, .ro, 0, .n⟩]⟩,
  ⟨"SEAL_PERF_CTL", .md, 0x10074, [], [⟨0, 0, .rw, 0, .n⟩, ⟨1, 1, .wo, 0, .n⟩]⟩,
  ⟨"UE_CTL", .md, 0x20000, [], [⟨0, 0, .rw, 0, .n⟩, ⟨2, 1, .rw, 1, .n⟩, ⟨3, 3, .rw, 0, .n⟩, ⟨4, 4, .wo, 0, .n⟩]⟩,
  ⟨"UE_STATUS", .md, 0x20004, [], [⟨0, 0, .ro, 0, .n⟩, ⟨1, 1, .ro, 0, .n⟩, ⟨2, 2, .rw1c, 0, .n⟩, ⟨3, 3, .rw1c, 0, .n⟩, ⟨4, 4, .rw1c, 0, .n⟩, ⟨5, 5, .rw1c, 0, .n⟩, ⟨6, 6, .ro, 0, .n⟩, ⟨7, 7, .ro, 0, .n⟩, ⟨8, 8, .rw1c, 0, .n⟩, ⟨23, 16, .ro, 0, .n⟩]⟩,
  ⟨"UE_FAULT", .md, 0x20008, [], [⟨3, 0, .ro, 0, .n⟩, ⟨4, 4, .rw1c, 0, .n⟩, ⟨21, 8, .ro, 0, .n⟩]⟩,
  ⟨"UE_TABLE_CNT", .md, 0x20018, [], [⟨14, 0, .rw, 0, .n⟩]⟩,
  ⟨"UE_CLIPMAX", .md, 0x20040, [], [⟨31, 0, .rw, 0, .n⟩]⟩,
  ⟨"UE_LAGNORM", .md, 0x20044, [], [⟨31, 0, .rw, 0, .n⟩]⟩,
  ⟨"UE_NORMTAG", .md, 0x20048, [], [⟨15, 0, .rw, 0, .n⟩, ⟨31, 16, .rw, 0, .n⟩]⟩,
  ⟨"UE_NORMIN", .md, 0x2004c, [], [⟨31, 0, .wo, 0, .n⟩]⟩,
  ⟨"UE_HOLDCAP", .md, 0x20050, [], [⟨7, 0, .rw, 96, .n⟩]⟩,
  ⟨"UE_CMD", .md, 0x20060, [], [⟨13, 0, .wo, 0, .n⟩, ⟨19, 16, .wo, 0, .n⟩]⟩,
  ⟨"UE_CMDARG_LO", .md, 0x20064, [], [⟨31, 6, .rw, 0, .n⟩]⟩,
  ⟨"UE_CMDARG_HI", .md, 0x20068, [], [⟨15, 0, .rw, 0, .n⟩]⟩,
  ⟨"UE_CMDSTAT", .md, 0x2006c, [], [⟨0, 0, .ro, 0, .n⟩, ⟨1, 1, .rw1c, 0, .n⟩, ⟨2, 2, .rw1c, 0, .n⟩, ⟨3, 3, .rw1c, 0, .n⟩]⟩,
  ⟨"UE_AUDIT_CTL", .md, 0x20070, [], [⟨15, 0, .rw, 0, .n⟩, ⟨16, 16, .rw, 0, .n⟩]⟩,
  ⟨"UE_AUDIT_DIFF", .md, 0x20074, [], [⟨31, 0, .ro, 0, .n⟩]⟩,
  ⟨"UE_TABLE_LO", .md, 0x20010, [], [⟨31, 12, .rw, 0, .n⟩]⟩]
/-- Register tables of spec/, part 4. -/
def regTable4 : List RegRow := [
  ⟨"UE_TABLE_HI", .md, 0x20014, [], [⟨15, 0, .rw, 0, .n⟩]⟩,
  ⟨"UE_SCHED_LO", .md, 0x20020, [], [⟨31, 12, .rw, 0, .n⟩]⟩,
  ⟨"UE_SCHED_HI", .md, 0x20024, [], [⟨15, 0, .rw, 0, .n⟩]⟩,
  ⟨"UE_PEN_LO", .md, 0x20028, [], [⟨31, 12, .rw, 0, .n⟩]⟩,
  ⟨"UE_PEN_HI", .md, 0x2002c, [], [⟨15, 0, .rw, 0, .n⟩]⟩,
  ⟨"UE_NRING_LO", .md, 0x20030, [], [⟨31, 12, .rw, 0, .n⟩]⟩,
  ⟨"UE_NRING_HI", .md, 0x20034, [], [⟨15, 0, .rw, 0, .n⟩]⟩,
  ⟨"UE_NANCNT", .md, 0x20080, [], [⟨31, 0, .ro, 0, .n⟩]⟩,
  ⟨"UE_SKIPCNT", .md, 0x20084, [], [⟨31, 0, .ro, 0, .n⟩]⟩,
  ⟨"UE_RECOVCNT", .md, 0x20088, [], [⟨31, 0, .ro, 0, .n⟩]⟩,
  ⟨"UE_PERF_ELEM_LO", .md, 0x200a0, [], [⟨31, 0, .ro, 0, .n⟩]⟩,
  ⟨"UE_PERF_ELEM_HI", .md, 0x200a4, [], [⟨31, 0, .ro, 0, .n⟩]⟩,
  ⟨"UE_PERF_STALL", .md, 0x200a8, [], [⟨31, 0, .ro, 0, .n⟩]⟩,
  ⟨"UE_PERF_HOLD", .md, 0x200ac, [], [⟨31, 0, .ro, 0, .n⟩]⟩,
  ⟨"UE_PERF_CTL", .md, 0x200b4, [], [⟨0, 0, .rw, 0, .n⟩, ⟨1, 1, .wo, 0, .n⟩]⟩,
  ⟨"CL_SLOTS", .ld, 0x4000, [], [⟨10, 0, .ro, 0, .w⟩, ⟨26, 16, .ro, 0, .n⟩]⟩,
  ⟨"CL_BUSY", .ld, 0x4004, [], [⟨10, 0, .ro, 0, .n⟩, ⟨26, 16, .ro, 0, .n⟩]⟩,
  ⟨"CL_REFUSED", .ld, 0x4008, [], [⟨31, 0, .ro, 0, .n⟩]⟩,
  ⟨"CL_STAGEDGRP", .ld, 0x400c, [], [⟨12, 0, .ro, 0, .n⟩]⟩,
  ⟨"CL_PERF_DUPS", .ld, 0x4018, [], [⟨31, 0, .ro, 0, .n⟩]⟩,
  ⟨"CL_PERF_CTL", .ld, 0x401c, [], [⟨0, 0, .rw, 0, .n⟩, ⟨1, 1, .wo, 0, .n⟩]⟩,
  ⟨"CL_PERF_PIECES_LO", .ld, 0x4010, [], [⟨31, 0, .ro, 0, .n⟩]⟩,
  ⟨"CL_PERF_PIECES_HI", .ld, 0x4014, [], [⟨31, 0, .ro, 0, .n⟩]⟩,
  ⟨"GC_SEL", .ld0, 0x8000, [], [⟨11, 0, .rw, 0, .n⟩]⟩,
  ⟨"GC_CMD", .ld0, 0x8004, [], [⟨2, 0, .wo, 0, .n⟩]⟩]
/-- Register tables of spec/, part 5. -/
def regTable5 : List RegRow := [
  ⟨"GC_CMDSTAT", .ld0, 0x8008, [], [⟨0, 0, .ro, 0, .n⟩, ⟨1, 1, .rw1c, 0, .n⟩, ⟨2, 2, .rw1c, 0, .n⟩]⟩,
  ⟨"GC_CFG", .ld0, 0x8010, [], [⟨0, 0, .rw, 0, .n⟩, ⟨2, 1, .rw, 0, .n⟩, ⟨7, 5, .ro, 0, .n⟩]⟩,
  ⟨"GC_JOB", .ld0, 0x8014, [], [⟨31, 0, .rw, 0, .n⟩]⟩,
  ⟨"GC_MEMB", .ld0, 0x8018, [], [⟨16, 0, .rw, 0, .n⟩]⟩,
  ⟨"GC_MYIDX", .ld0, 0x801c, [], [⟨16, 0, .rw, 0, .n⟩]⟩,
  ⟨"GC_PRED", .ld0, 0x8020, [], [⟨16, 0, .rw, 0, .n⟩]⟩,
  ⟨"GC_SUCC", .ld0, 0x8024, [], [⟨16, 0, .rw, 0, .n⟩]⟩,
  ⟨"GC_BOXO", .ld0, 0x8028, [], [⟨20, 0, .rw, 0, .n⟩]⟩,
  ⟨"GC_BOXE", .ld0, 0x802c, [], [⟨20, 0, .rw, 0, .n⟩]⟩,
  ⟨"GC_QBASE_LO", .ld0, 0x8030, [], [⟨31, 12, .rw, 0, .n⟩]⟩,
  ⟨"GC_QBASE_HI", .ld0, 0x8034, [], [⟨15, 0, .rw, 0, .n⟩]⟩,
  ⟨"GC_QCTL", .ld0, 0x8038, [], [⟨3, 0, .rw, 2, .n⟩, ⟨6, 4, .rw, 0, .n⟩, ⟨15, 8, .rw, 16, .n⟩]⟩,
  ⟨"GC_QHEAD", .ld0, 0x803c, [], [⟨15, 0, .ro, 0, .n⟩]⟩,
  ⟨"GC_QTAIL", .ld0, 0x8040, [], [⟨15, 0, .rw, 0, .n⟩]⟩,
  ⟨"GC_SLOT", .ld0, 0x8044, [], [⟨10, 0, .rw, 128, .n⟩, ⟨16, 16, .ro, 0, .n⟩]⟩,
  ⟨"GC_STAGE", .ld0, 0x8048, [], [⟨3, 0, .rw, 0, .n⟩, ⟨13, 8, .rw, 4, .n⟩]⟩,
  ⟨"GC_PATIENCE", .ld0, 0x804c, [], [⟨31, 0, .rw, 1000, .n⟩]⟩,
  ⟨"GC_STATUS", .ld0, 0x8050, [], [⟨2, 0, .ro, 0, .n⟩, ⟨3, 3, .ro, 0, .n⟩, ⟨7, 4, .ro, 0, .n⟩, ⟨10, 8, .ro, 0, .n⟩, ⟨31, 16, .rw, 0, .n⟩]⟩,
  ⟨"GC_SLOWEST", .ld0, 0x8054, [], [⟨16, 0, .ro, 0, .n⟩, ⟨17, 17, .ro, 0, .n⟩, ⟨23, 18, .ro, 0, .n⟩, ⟨24, 24, .ro, 0, .n⟩]⟩,
  ⟨"GC_STALL", .ld0, 0x8058, [], [⟨16, 0, .ro, 0, .n⟩, ⟨17, 17, .ro, 0, .n⟩, ⟨23, 18, .ro, 0, .n⟩, ⟨24, 24, .ro, 0, .n⟩]⟩,
  ⟨"GC_LAGLOC", .ld0, 0x8078, [], [⟨31, 0, .ro, 0, .n⟩]⟩,
  ⟨"GC_LAGOUT", .ld0, 0x807c, [], [⟨31, 0, .ro, 0, .n⟩]⟩,
  ⟨"GC_LAG", .ld0, 0x8060, [(6, 4)], [⟨31, 0, .ro, 0, .n⟩]⟩,
  ⟨"LK_CFG", .ld, 0x1000, [], [⟨0, 0, .rw, 1, .n⟩, ⟨1, 1, .rw, 0, .n⟩, ⟨2, 2, .wo, 0, .n⟩, ⟨15, 4, .rw, 100, .n⟩]⟩,
  ⟨"LK_STATUS", .ld, 0x1004, [], [⟨2, 0, .ro, 0, .n⟩, ⟨3, 3, .ro, 0, .n⟩, ⟨4, 4, .ro, 0, .n⟩, ⟨5, 5, .rw1c, 0, .w⟩, ⟨6, 6, .rw1c, 0, .w⟩, ⟨31, 16, .ro, 0, .w⟩]⟩]
/-- Register tables of spec/, part 6. -/
def regTable6 : List RegRow := [
  ⟨"LK_NBR", .ld, 0x1008, [], [⟨16, 0, .ro, 0, .n⟩, ⟨19, 17, .ro, 0, .n⟩, ⟨23, 20, .ro, 0, .n⟩, ⟨24, 24, .ro, 0, .n⟩]⟩,
  ⟨"LK_LANES", .ld, 0x100c, [], [⟨15, 0, .ro, 0, .n⟩, ⟨31, 16, .ro, 0, .w⟩]⟩,
  ⟨"LK_REKEY_CFG", .ld, 0x1010, [], [⟨15, 0, .rw, 1000, .n⟩]⟩,
  ⟨"LK_REKEY_CMD", .ld, 0x1014, [], [⟨7, 0, .wo, 0, .n⟩]⟩,
  ⟨"LK_ARB", .ld, 0x1018, [], [⟨1, 0, .ro, 0, .w⟩, ⟨2, 2, .ro, 0, .n⟩]⟩,
  ⟨"LK_EPOCH", .ld, 0x1020, [(8, 4)], [⟨7, 0, .ro, 0, .n⟩, ⟨15, 8, .ro, 0, .n⟩, ⟨16, 16, .ro, 0, .n⟩, ⟨17, 17, .ro, 0, .n⟩]⟩,
  ⟨"LK_FEC_CORR_LO", .ld, 0x1040, [], [⟨31, 0, .ro, 0, .w⟩]⟩,
  ⟨"LK_FEC_CORR_HI", .ld, 0x1044, [], [⟨31, 0, .ro, 0, .w⟩]⟩,
  ⟨"LK_FEC_UNC", .ld, 0x1048, [], [⟨31, 0, .ro, 0, .w⟩]⟩,
  ⟨"LK_CRCERR", .ld, 0x104c, [], [⟨31, 0, .ro, 0, .w⟩]⟩,
  ⟨"LK_RETX", .ld, 0x1050, [], [⟨31, 0, .ro, 0, .w⟩]⟩,
  ⟨"LK_DUPS", .ld, 0x1054, [], [⟨31, 0, .ro, 0, .w⟩]⟩,
  ⟨"LK_TAGFAIL", .ld, 0x1058, [], [⟨31, 0, .ro, 0, .w⟩]⟩,
  ⟨"LK_CTLFAIL", .ld, 0x105c, [], [⟨31, 0, .ro, 0, .w⟩]⟩,
  ⟨"LK_REKEYS", .ld, 0x1060, [], [⟨31, 0, .ro, 0, .w⟩]⟩,
  ⟨"LK_DROP", .ld, 0x1064, [], [⟨31, 0, .ro, 0, .w⟩]⟩,
  ⟨"LK_REVOKE", .ld, 0x1068, [], [⟨31, 0, .ro, 0, .w⟩]⟩,
  ⟨"LK_TC2WAIT", .ld, 0x106c, [], [⟨31, 0, .ro, 0, .w⟩]⟩,
  ⟨"LK_STALE", .ld, 0x1070, [], [⟨31, 0, .ro, 0, .w⟩]⟩,
  ⟨"LK_CNT_CTL", .ld, 0x1074, [], [⟨0, 0, .rw, 0, .n⟩, ⟨1, 1, .wo, 0, .n⟩]⟩,
  ⟨"LK_SEQ_LO", .ld, 0x1080, [], [⟨31, 0, .ro, 0, .n⟩]⟩,
  ⟨"LK_SEQ_HI", .ld, 0x1084, [], [⟨31, 0, .ro, 0, .n⟩]⟩,
  ⟨"SX_CTL", .md, 0x21000, [], [⟨0, 0, .rw, 0, .n⟩, ⟨7, 2, .rw, 0, .n⟩]⟩,
  ⟨"SX_STATUS", .md, 0x21004, [], [⟨0, 0, .ro, 0, .n⟩, ⟨1, 1, .ro, 0, .n⟩, ⟨2, 2, .ro, 0, .n⟩, ⟨31, 16, .ro, 0, .n⟩]⟩,
  ⟨"SX_FAULT", .md, 0x21008, [], [⟨3, 0, .ro, 0, .n⟩, ⟨4, 4, .rw1c, 0, .n⟩, ⟨21, 8, .ro, 0, .n⟩]⟩]
/-- Register tables of spec/, part 7. -/
def regTable7 : List RegRow := [
  ⟨"SX_TABLE_CNT", .md, 0x21018, [], [⟨14, 0, .rw, 0, .n⟩]⟩,
  ⟨"SX_PARAM", .md, 0x21030, [], [⟨7, 0, .rw, 4, .n⟩, ⟨15, 8, .rw, 128, .n⟩, ⟨23, 16, .rw, 32, .n⟩, ⟨31, 24, .rw, 111, .n⟩]⟩,
  ⟨"SX_DISCOUNT", .md, 0x21034, [], [⟨31, 0, .rw, 1056964608, .n⟩]⟩,
  ⟨"SX_DATA_US", .md, 0x21038, [], [⟨31, 0, .rw, 300000, .n⟩]⟩,
  ⟨"SX_CORR_US", .md, 0x2103c, [], [⟨31, 0, .rw, 250000, .n⟩]⟩,
  ⟨"SX_CMD", .md, 0x21040, [], [⟨13, 0, .wo, 0, .n⟩, ⟨19, 16, .wo, 0, .n⟩]⟩,
  ⟨"SX_CMDSTAT", .md, 0x21044, [], [⟨0, 0, .ro, 0, .n⟩, ⟨1, 1, .rw1c, 0, .n⟩, ⟨2, 2, .rw1c, 0, .n⟩]⟩,
  ⟨"SX_CNT_CTL", .md, 0x21074, [], [⟨0, 0, .rw, 0, .n⟩, ⟨1, 1, .wo, 0, .n⟩]⟩,
  ⟨"SX_TABLE_LO", .md, 0x21010, [], [⟨31, 12, .rw, 0, .n⟩]⟩,
  ⟨"SX_TABLE_HI", .md, 0x21014, [], [⟨15, 0, .rw, 0, .n⟩]⟩,
  ⟨"SX_SITES_LO", .md, 0x21020, [], [⟨31, 12, .rw, 0, .n⟩]⟩,
  ⟨"SX_SITES_HI", .md, 0x21024, [], [⟨15, 0, .rw, 0, .n⟩]⟩,
  ⟨"SX_PEN_LO", .md, 0x21028, [], [⟨31, 12, .rw, 0, .n⟩]⟩,
  ⟨"SX_PEN_HI", .md, 0x2102c, [], [⟨15, 0, .rw, 0, .n⟩]⟩,
  ⟨"SX_CNT_MERGED", .md, 0x21060, [], [⟨31, 0, .ro, 0, .n⟩]⟩,
  ⟨"SX_CNT_ZERO", .md, 0x21064, [], [⟨31, 0, .ro, 0, .n⟩]⟩,
  ⟨"SX_CNT_FOLD", .md, 0x21068, [], [⟨31, 0, .ro, 0, .n⟩]⟩,
  ⟨"SX_CNT_REBASE", .md, 0x2106c, [], [⟨31, 0, .ro, 0, .n⟩]⟩,
  ⟨"SX_CNT_ABANDON", .md, 0x21070, [], [⟨31, 0, .ro, 0, .n⟩]⟩,
  ⟨"SP_CFG", .hd, 0x4000, [], [⟨0, 0, .ro, 0, .w⟩, ⟨1, 1, .ro, 0, .w⟩, ⟨2, 2, .ro, 0, .w⟩, ⟨14, 3, .ro, 0, .w⟩, ⟨20, 15, .ro, 0, .w⟩]⟩,
  ⟨"SP_STATUS", .hd, 0x4004, [], [⟨0, 0, .ro, 0, .n⟩, ⟨1, 1, .ro, 0, .n⟩, ⟨2, 2, .rw1c, 0, .w⟩]⟩,
  ⟨"SP_UDP", .hd, 0x4008, [], [⟨15, 0, .ro, 47301, .w⟩]⟩,
  ⟨"SP_LOSTMS", .hd, 0x4020, [], [⟨19, 0, .rw, 60000, .n⟩]⟩,
  ⟨"SP_PSEL", .hd, 0x4024, [], [⟨5, 0, .rw, 0, .n⟩]⟩,
  ⟨"SP_PEER", .hd, 0x4028, [], [⟨0, 0, .ro, 0, .n⟩, ⟨1, 1, .ro, 0, .n⟩, ⟨31, 2, .ro, 0, .n⟩]⟩]
/-- Register tables of spec/, part 8. -/
def regTable8 : List RegRow := [
  ⟨"SP_RATE", .hd, 0x402c, [], [⟨15, 0, .rw, 400, .n⟩]⟩,
  ⟨"SP_CNT_CTL", .hd, 0x4060, [], [⟨0, 0, .rw, 0, .n⟩, ⟨1, 1, .wo, 0, .n⟩]⟩,
  ⟨"SP_PREFIX_LO", .hd, 0x4010, [], [⟨31, 0, .ro, 0, .w⟩]⟩,
  ⟨"SP_PREFIX_HI", .hd, 0x4014, [], [⟨31, 0, .ro, 0, .w⟩]⟩,
  ⟨"SP_RTR_LO", .hd, 0x4018, [], [⟨31, 0, .ro, 0, .w⟩]⟩,
  ⟨"SP_RTR_HI", .hd, 0x401c, [], [⟨31, 0, .ro, 0, .w⟩]⟩,
  ⟨"SP_TXFR_LO", .hd, 0x4040, [], [⟨31, 0, .ro, 0, .w⟩]⟩,
  ⟨"SP_TXFR_HI", .hd, 0x4044, [], [⟨31, 0, .ro, 0, .w⟩]⟩,
  ⟨"SP_RXFR_LO", .hd, 0x4048, [], [⟨31, 0, .ro, 0, .w⟩]⟩,
  ⟨"SP_RXFR_HI", .hd, 0x404c, [], [⟨31, 0, .ro, 0, .w⟩]⟩,
  ⟨"SP_RETX", .hd, 0x4050, [], [⟨31, 0, .ro, 0, .w⟩]⟩,
  ⟨"SP_DUPS", .hd, 0x4054, [], [⟨31, 0, .ro, 0, .w⟩]⟩,
  ⟨"SP_AUTHFAIL", .hd, 0x4058, [], [⟨31, 0, .ro, 0, .w⟩]⟩,
  ⟨"SP_DROP", .hd, 0x405c, [], [⟨31, 0, .ro, 0, .w⟩]⟩,
  ⟨"SEC_STATUS", .td, 0x1000, [], [⟨0, 0, .ro, 0, .n⟩, ⟨1, 1, .ro, 0, .a⟩, ⟨2, 2, .ro, 0, .n⟩, ⟨3, 3, .ro, 0, .n⟩]⟩,
  ⟨"SEC_OWN", .td, 0x1004, [], [⟨3, 0, .rw, 15, .n⟩]⟩,
  ⟨"SEC_CMD", .td, 0x1008, [], [⟨3, 0, .wo, 0, .n⟩, ⟨6, 4, .wo, 0, .n⟩, ⟨11, 8, .wo, 0, .n⟩]⟩,
  ⟨"SEC_CMDSTAT", .td, 0x100c, [], [⟨0, 0, .ro, 0, .n⟩, ⟨1, 1, .rw1c, 0, .n⟩, ⟨2, 2, .rw1c, 0, .n⟩, ⟨7, 4, .ro, 0, .n⟩]⟩,
  ⟨"CPOL_STATUS", .td, 0x1100, [(8, 16)], [⟨1, 0, .ro, 0, .n⟩, ⟨12, 8, .ro, 0, .n⟩, ⟨17, 16, .ro, 0, .n⟩]⟩,
  ⟨"CPOL_SEQ", .td, 0x1104, [(8, 16)], [⟨31, 0, .ro, 0, .n⟩]⟩,
  ⟨"SCRUB_STATUS", .td, 0x1108, [(8, 16)], [⟨3, 0, .ro, 0, .n⟩, ⟨4, 4, .ro, 0, .a⟩, ⟨5, 5, .rw1c, 0, .w⟩, ⟨31, 16, .ro, 0, .w⟩]⟩,
  ⟨"HI_LINK", .hd, 0x1000, [], [⟨1, 0, .ro, 0, .n⟩, ⟨2, 2, .ro, 0, .n⟩, ⟨3, 3, .ro, 0, .n⟩, ⟨4, 4, .ro, 0, .n⟩, ⟨31, 16, .ro, 0, .w⟩]⟩,
  ⟨"HI_EVQ_BASE_LO", .hd, 0x1010, [], [⟨31, 12, .rwHost, 0, .n⟩]⟩,
  ⟨"HI_EVQ_BASE_HI", .hd, 0x1014, [], [⟨31, 0, .rwHost, 0, .n⟩]⟩,
  ⟨"HI_EVQ_CTL", .hd, 0x1018, [], [⟨0, 0, .rwHost, 0, .n⟩, ⟨4, 1, .rwHost, 0, .n⟩, ⟨31, 16, .rwHost, 0, .n⟩]⟩]
/-- Register tables of spec/, part 9. -/
def regTable9 : List RegRow := [
  ⟨"HI_EVQ_HEAD", .hd, 0x101c, [], [⟨15, 0, .rwHost, 0, .n⟩]⟩,
  ⟨"HI_EVQ_TAIL", .hd, 0x1020, [], [⟨15, 0, .ro, 0, .n⟩]⟩,
  ⟨"HI_EVQ_DROP", .hd, 0x1024, [], [⟨31, 0, .ro, 0, .n⟩]⟩,
  ⟨"HI_HOSTTIME_LO", .hd, 0x1008, [], [⟨31, 0, .rwHost, 0, .n⟩]⟩,
  ⟨"HI_HOSTTIME_HI", .hd, 0x100c, [], [⟨31, 0, .rwHost, 0, .n⟩]⟩,
  ⟨"HI_MBOX_TO_LO", .hd, 0x1100, [(8, 16)], [⟨31, 0, .rwHost, 0, .n⟩]⟩,
  ⟨"HI_MBOX_TO_HI", .hd, 0x1104, [(8, 16)], [⟨31, 0, .rwHost, 0, .n⟩]⟩,
  ⟨"HI_MBOX_FROM_LO", .hd, 0x1108, [(8, 16)], [⟨31, 0, .rwCanton, 0, .n⟩]⟩,
  ⟨"HI_MBOX_FROM_HI", .hd, 0x110c, [(8, 16)], [⟨31, 0, .rwCanton, 0, .n⟩]⟩,
  ⟨"HI_OUT_LO", .hd, 0x1200, [(8, 16)], [⟨31, 12, .rwCanton, 0, .n⟩]⟩,
  ⟨"HI_OUT_HI", .hd, 0x1204, [(8, 16)], [⟨15, 0, .rwCanton, 0, .n⟩]⟩,
  ⟨"HI_OUT_LEN", .hd, 0x1208, [(8, 16)], [⟨23, 0, .rwCanton, 0, .n⟩]⟩,
  ⟨"HI_MBOX_STAT", .hd, 0x120c, [(8, 16)], [⟨0, 0, .ro, 0, .n⟩, ⟨1, 1, .ro, 0, .n⟩, ⟨2, 2, .rw1c, 0, .n⟩]⟩,
  ⟨"HI_RGN_LO", .hd, 0x2000, [(8, 256), (16, 16)], [⟨0, 0, .rwHost, 0, .n⟩, ⟨1, 1, .rwHost, 0, .n⟩, ⟨2, 2, .rwHost, 0, .n⟩, ⟨3, 3, .ro, 0, .n⟩, ⟨31, 12, .rwHost, 0, .n⟩]⟩,
  ⟨"HI_RGN_HI", .hd, 0x2004, [(8, 256), (16, 16)], [⟨31, 0, .rwHost, 0, .n⟩]⟩,
  ⟨"HI_RGN_SIZE", .hd, 0x2008, [(8, 256), (16, 16)], [⟨24, 0, .rwHost, 0, .n⟩]⟩,
  ⟨"HI_RING_LO", .hd, 0x3000, [(8, 256), (16, 16)], [⟨31, 12, .rwCanton, 0, .n⟩]⟩,
  ⟨"HI_RING_HI", .hd, 0x3004, [(8, 256), (16, 16)], [⟨15, 0, .rwCanton, 0, .n⟩]⟩,
  ⟨"HI_RING_CTL", .hd, 0x3008, [(8, 256), (16, 16)], [⟨0, 0, .rwCanton, 0, .n⟩, ⟨4, 1, .rwCanton, 4, .n⟩, ⟨10, 5, .rwCanton, 16, .n⟩, ⟨12, 11, .ro, 0, .n⟩, ⟨13, 13, .wo, 0, .n⟩, ⟨14, 14, .wo, 0, .n⟩]⟩,
  ⟨"HI_RING_IDX", .hd, 0x300c, [(8, 256), (16, 16)], [⟨15, 0, .rwCanton, 0, .n⟩, ⟨31, 16, .ro, 0, .n⟩]⟩,
  ⟨"DP_ADDR_LO", .hd, 0x5000, [(2, 32)], [⟨31, 0, .rwOwner, 0, .n⟩]⟩,
  ⟨"DP_ADDR_HI", .hd, 0x5004, [(2, 32)], [⟨15, 0, .rwOwner, 0, .n⟩]⟩,
  ⟨"DP_CTL", .hd, 0x5008, [(2, 32)], [⟨0, 0, .rwOwner, 1, .n⟩, ⟨1, 1, .rwOwner, 0, .n⟩, ⟨2, 2, .rwOwner, 0, .n⟩, ⟨5, 3, .rwOwner, 0, .n⟩]⟩,
  ⟨"DP_STATUS", .hd, 0x500c, [(2, 32)], [⟨0, 0, .rw1c, 0, .n⟩, ⟨3, 1, .ro, 0, .n⟩]⟩,
  ⟨"DP_COUNT", .hd, 0x5010, [(2, 32)], [⟨31, 0, .ro, 0, .n⟩]⟩]
/-- Register tables of spec/, part 10. -/
def regTable10 : List RegRow := [
  ⟨"BOOT_STATUS", .td, 0x2000, [], [⟨3, 0, .ro, 0, .n⟩, ⟨6, 4, .ro, 0, .a⟩, ⟨11, 8, .ro, 0, .n⟩, ⟨31, 16, .ro, 0, .a⟩]⟩,
  ⟨"BOOT_SLOTS", .td, 0x2004, [], [⟨9, 0, .ro, 0, .n⟩, ⟨14, 10, .ro, 0, .n⟩]⟩,
  ⟨"BOOT_TIME", .td, 0x2008, [], [⟨31, 0, .ro, 0, .w⟩]⟩,
  ⟨"RST_CMD", .td, 0x2010, [], [⟨2, 0, .woHost, 0, .n⟩, ⟨5, 3, .woHost, 0, .n⟩, ⟨11, 6, .woHost, 0, .n⟩, ⟨14, 12, .woHost, 0, .n⟩]⟩,
  ⟨"RST_CAUSE", .td, 0x2014, [], [⟨3, 0, .ro, 0, .a⟩]⟩,
  ⟨"RST_COUNT", .td, 0x2018, [], [⟨15, 0, .ro, 0, .a⟩, ⟨31, 16, .ro, 0, .a⟩]⟩,
  ⟨"PWR_STATUS", .td, 0x2020, [], [⟨0, 0, .ro, 0, .n⟩, ⟨1, 1, .ro, 0, .n⟩, ⟨2, 2, .ro, 0, .n⟩, ⟨15, 8, .ro, 0, .n⟩]⟩,
  ⟨"PWR_CTL", .td, 0x2024, [], [⟨7, 0, .woHost, 0, .n⟩, ⟨15, 8, .woHost, 0, .n⟩, ⟨16, 16, .woHost, 0, .n⟩]⟩,
  ⟨"PWR_VIN", .td, 0x2028, [], [⟨15, 0, .ro, 0, .n⟩, ⟨31, 16, .ro, 65535, .n⟩]⟩,
  ⟨"PWR_DIPS", .td, 0x202c, [], [⟨15, 0, .ro, 0, .a⟩, ⟨31, 16, .ro, 0, .w⟩]⟩,
  ⟨"PWR_HOLDUP", .td, 0x2030, [], [⟨15, 0, .ro, 0, .w⟩, ⟨16, 16, .ro, 0, .w⟩, ⟨17, 17, .ro, 0, .w⟩, ⟨18, 18, .ro, 0, .n⟩]⟩,
  ⟨"CLK_STATUS", .td, 0x2060, [], [⟨0, 0, .ro, 0, .n⟩, ⟨1, 1, .ro, 0, .a⟩, ⟨31, 16, .ro, 0, .a⟩]⟩,
  ⟨"FL_CMD", .td, 0x2080, [], [⟨2, 0, .woHost, 0, .n⟩, ⟨5, 3, .woHost, 0, .n⟩, ⟨6, 6, .woHost, 0, .n⟩]⟩,
  ⟨"FL_ADDR", .td, 0x2084, [], [⟨5, 0, .rwHost, 0, .n⟩]⟩,
  ⟨"FL_STATUS", .td, 0x2088, [], [⟨0, 0, .ro, 0, .n⟩, ⟨1, 1, .rw1c, 0, .n⟩, ⟨2, 2, .rw1c, 0, .n⟩, ⟨3, 3, .ro, 0, .n⟩, ⟨7, 4, .ro, 0, .n⟩]⟩,
  ⟨"PWR_CANTON", .td, 0x2040, [(8, 4)], [⟨15, 0, .ro, 0, .n⟩, ⟨18, 16, .ro, 7, .n⟩]⟩,
  ⟨"EVL_STATUS", .td, 0x3000, [], [⟨0, 0, .ro, 0, .n⟩, ⟨1, 1, .ro, 0, .n⟩, ⟨2, 2, .ro, 0, .n⟩]⟩,
  ⟨"EVL_UNSTORED", .td, 0x3004, [], [⟨31, 0, .ro, 0, .w⟩]⟩,
  ⟨"EVL_BOOTNO", .td, 0x3040, [], [⟨15, 0, .ro, 0, .n⟩]⟩,
  ⟨"BIST_STATUS", .td, 0x3200, [], [⟨12, 0, .ro, 0, .w⟩, ⟨13, 13, .ro, 0, .w⟩, ⟨14, 14, .ro, 0, .w⟩, ⟨31, 16, .ro, 0, .w⟩]⟩,
  ⟨"BIST_CTL", .td, 0x3204, [], [⟨0, 0, .rwHost, 0, .w⟩]⟩,
  ⟨"BIST_TIME", .td, 0x3208, [], [⟨31, 0, .ro, 0, .w⟩]⟩,
  ⟨"BIST_FIDX", .td, 0x320c, [], [⟨11, 0, .rw, 0, .n⟩]⟩,
  ⟨"BIST_FREC0", .td, 0x3210, [], [⟨5, 0, .ro, 0, .w⟩, ⟨13, 6, .ro, 0, .w⟩, ⟨14, 14, .ro, 0, .w⟩, ⟨15, 15, .ro, 0, .w⟩, ⟨16, 16, .ro, 0, .w⟩]⟩,
  ⟨"BIST_FREC1", .td, 0x3214, [], [⟨19, 0, .ro, 0, .w⟩, ⟨25, 20, .ro, 0, .w⟩]⟩]
/-- Register tables of spec/, part 11. -/
def regTable11 : List RegRow := [
  ⟨"SF_STATUS", .td, 0x3300, [], [⟨0, 0, .ro, 0, .a⟩, ⟨1, 1, .ro, 0, .w⟩, ⟨2, 2, .ro, 0, .a⟩]⟩,
  ⟨"SF_QLAST", .td, 0x3304, [], [⟨0, 0, .ro, 0, .a⟩, ⟨1, 1, .ro, 0, .a⟩, ⟨2, 2, .ro, 0, .a⟩, ⟨3, 3, .ro, 0, .a⟩, ⟨4, 4, .ro, 0, .a⟩, ⟨15, 8, .ro, 0, .a⟩]⟩,
  ⟨"SF_QCOUNT", .td, 0x3308, [], [⟨15, 0, .ro, 0, .a⟩, ⟨23, 16, .ro, 0, .a⟩]⟩,
  ⟨"SF_TJMAX", .td, 0x3310, [], [⟨7, 0, .safe, 115, .n⟩]⟩,
  ⟨"SF_DIMMMAX", .td, 0x3314, [], [⟨7, 0, .safe, 100, .n⟩]⟩,
  ⟨"SF_ILIM", .td, 0x3318, [], [⟨15, 0, .safe, 1650, .n⟩, ⟨23, 16, .safe, 125, .n⟩]⟩,
  ⟨"SF_QLIMIT", .td, 0x331c, [], [⟨7, 0, .safe, 3, .n⟩]⟩,
  ⟨"CONT_STATUS", .td, 0x3400, [], [⟨7, 0, .ro, 0, .n⟩, ⟨15, 8, .ro, 0, .w⟩]⟩,
  ⟨"CONT_CTL", .td, 0x3404, [], [⟨7, 0, .rwHost, 255, .w⟩, ⟨23, 8, .rwHost, 10, .w⟩]⟩,
  ⟨"HLTH_SEL", .td, 0x3500, [], [⟨15, 0, .rw, 0, .n⟩]⟩,
  ⟨"HLTH_VAL", .td, 0x3504, [], [⟨31, 0, .ro, 0, .n⟩]⟩,
  ⟨"EVL_NEXT_LO", .td, 0x3008, [], [⟨31, 0, .ro, 0, .w⟩]⟩,
  ⟨"EVL_NEXT_HI", .td, 0x300c, [], [⟨31, 0, .ro, 0, .w⟩]⟩,
  ⟨"EVL_SEL_LO", .td, 0x3010, [], [⟨31, 0, .rw, 0, .n⟩]⟩,
  ⟨"EVL_SEL_HI", .td, 0x3014, [], [⟨31, 0, .rw, 0, .n⟩]⟩,
  ⟨"EVL_REC", .td, 0x3020, [(8, 4)], [⟨31, 0, .ro, 0, .n⟩]⟩,
  ⟨"LG_REC", .td, 0x3100, [(64, 4)], [⟨31, 0, .ro, 0, .n⟩]⟩]
/-- Every register of the module. -/
def regTable : List RegRow :=
  regTable0 ++ regTable1 ++ regTable2 ++ regTable3 ++ regTable4 ++ regTable5 ++ regTable6 ++ regTable7 ++ regTable8 ++ regTable9 ++ regTable10 ++ regTable11

/-- Whether `off` is one of the places of a register repeated as `dims` says from offset `base`. -/
def dimsHit (base : Nat) : List (Nat × Nat) → Nat → Bool
  | [], off => off == base
  | [(c, st)], off => decide (base ≤ off) && decide ((off - base) % st = 0) && decide ((off - base) / st < c)
  | (c, st) :: (c2, st2) :: _, off =>
    decide (base ≤ off) && decide ((off - base) / st < c) &&
      (decide (((off - base) % st) % st2 = 0) && decide (((off - base) % st) / st2 < c2))

/-- A CRS address as a die and an offset in its range; none for a reserved range (R34). -/
def crsDie (a : Nat) : Option (DieKind × Nat × Nat) :=
  if a < 0x100000 then some (.td, 0, a)
  else if a < 0x200000 then some (.hd, 0, a - 0x100000)
  else if a < 0x260000 then some (.ld, (a - 0x200000) / 0x10000, (a - 0x200000) % 0x10000)
  else if a < 0x400000 then none
  else if a < 0x800000 then some (.md, (a - 0x400000) / 0x40000, (a - 0x400000) % 0x40000)
  else if a < 0x1000000 then none
  else if a < 0x3800000 then some (.cd, (a - 0x1000000) / 0x100000, (a - 0x1000000) % 0x100000)
  else none

/-- Whether a register row belongs to a die. -/
def DieKind.holds (row : DieKind) (k : DieKind) (n : Nat) : Bool :=
  match row with
  | .any => true
  | .cdmd => k == .cd || k == .md
  | .ld0 => k == .ld && n == 0
  | r => r == k

/-- The register at a CRS address (its bank, above bit 26, put aside). -/
def regAt (a : Nat) : Option RegRow :=
  match crsDie (a % 0x4000000) with
  | none => none
  | some (k, n, off) => regTable.find? (fun r => r.die.holds k n && dimsHit r.off r.dims off)

/-- Value of a register after a cold reset (0 where no register stands). -/
def regReset (a : Nat) : BitVec 32 :=
  match regAt a with
  | none => 0
  | some r => BitVec.ofNat 32 (r.fields.foldl (fun n f => n + f.reset * 2 ^ f.lo) 0)

/-- The bits of a register whose fields satisfy `p`. -/
def regMask (a : Nat) (p : FieldRow → Bool) : BitVec 32 :=
  match regAt a with
  | none => 0
  | some r => BitVec.ofNat 32
      (r.fields.foldl (fun n f => if p f then n + (2 ^ (f.hi + 1) - 2 ^ f.lo) else n) 0)

end Sys2Proof
end

