-- ==== Sys2Proof/Machine/State.lean ====
section
/-! DEFINITION. The state of the module: every register (by CRS address), memory (by MPA), every queue, buffer,
engine and counter the spec gives it, and the queue of waiting commands. State after reset stands at the end. -/
namespace Sys2Proof.Machine

/-- Reasons to stop with a fault. The module never stops: what the manual calls a refusal, a bus error or a security
alarm is a next state (a fault register, an event, a response). So there is no constructor. -/
inductive Fault
  deriving DecidableEq, Repr

/-- Reasons to refuse a command. -/
inductive Refusal
  /-- Raised by `exec` alone, for a command whose meaning is not written. Safe: the run ends. -/
  | notModelled (mnemonic : String)
  deriving DecidableEq, Repr

/-- An event raised by a die (R16): its code, the die (DDIE numbering), the canton if it names one, and DETAIL. -/
structure Event where
  code : Nat
  die : Nat
  canton : Option Nat
  detail : List Byte
  deriving DecidableEq, Repr

/-- What the last access of the outside world was answered. -/
inductive Resp
  | none
  | value (x : W32)
  | data (bs : List Byte)
  | done
  | busError
  | tooLong
  | miss
  | code (n : Nat)
  deriving DecidableEq, Repr

/-! ### Package fabric (R18-R26, R362-R366) -/

/-- A packet in the fabric: what it carries and its turn order (R22), where its head is and whether it waits at an output
stage (R23). -/
structure Packet where
  id : Nat
  src : Fin 64
  dst : Fin 64
  cls : PacketClass
  turn : Fin 3
  flits : Nat
  col : Nat
  row : Nat
  waiting : Bool
  arrive : Nat
  deriving DecidableEq, Repr

/-- One shared arbiter (R362-R366): the grant decided for the next cycle and whether its packet restarts after a
revocation; per plane the transfer in progress with the units still to carry, the packet revoked, and the requester
granted last; masked requesters; the slot count; the urgent budget of each plane and its slots since the last refill. -/
structure ArbState where
  grant : Option (ArbReq × Bool)
  busy : Vector (Option (ArbReq × Nat)) 8
  revoked : Vector (Option ArbReq) 8
  masked : List Nat
  last : Vector Nat 8
  slot : Nat
  budget : Vector Nat 8
  used : Vector Nat 8
  deriving DecidableEq, Repr

/-- An arbiter after reset: nothing granted, the urgent budget at its depth of two packets (R365). -/
def ArbState.reset : ArbState :=
  ⟨none, Vector.replicate 8 none, Vector.replicate 8 none, [], Vector.replicate 8 0, 0, Vector.replicate 8 2, Vector.replicate 8 0⟩

/-! ### Compute die: sequencer (R160-R173) -/

/-- A command in a unit FIFO: the queue that dispatched it, the word, its queue index (or place in the innermost call
block), the call depth, its place in the die's dispatch order, and whether it is a repeat that signals nothing. -/
structure UCmd where
  q : Fin 4
  w : Cmd
  idx : Nat
  depth : Nat
  seq : Nat
  quiet : Bool
  deriving DecidableEq, Repr

/-- One active call block (R173): address of its next command, commands left, place in the block. -/
structure Frame where
  addr : Nat
  left : Nat
  pos : Nat
  deriving DecidableEq, Repr

/-- One program queue beside its registers: call stack (innermost first), base registers 1-7 (R172; place 0 stays 0),
the waiting SYNC command with the ACLK cycle its wait began, its last pennant examination, and whether the watchdog of
that wait has fired (R170); the code of its fault, the units that its commands have stopped with the place of each
command in the dispatch order, and pennant additions whose memory answered with an error (R191). -/
structure QueueState where
  stack : List Frame
  bases : Vector (BitVec 42) 8
  wait : Option Cmd
  since : Nat
  polled : Nat
  barked : Bool
  fcode : Nat
  funit : List (Fin 8 × Nat)
  back : List UCmd
  deriving DecidableEq, Repr

/-- A queue after reset (R192): no call, base registers 0. -/
def QueueState.reset : QueueState := ⟨[], Vector.replicate 8 0, none, 0, 0, false, 0, [], []⟩

/-! ### Compute die: matrix arrays (R79-R122) -/

/-- A weight set as the array holds it: format, scales present, diagonal, hoisted columns, active rows, the bytes of
array rows (row i at place i) and the scale bytes of R89. -/
structure WeightSet where
  fmt : Nat
  scaled : Bool
  diag : Bool
  cols : BitVec 128
  depth : Nat
  data : List Byte
  scales : List Byte
  deriving DecidableEq, Repr

/-- The cleared registers of a reset array (R110): no weight set. -/
def WeightSet.empty : WeightSet := ⟨7, false, false, 0, 0, [], []⟩

/-- A hoist in the array: its number, command, the cycle in which its first row was read and then the stream's start L
(R92), the paused cycles (R93), the array rows read so far (the bottom row first, R90) with their scale bytes, and one
more than the cycle of the last row read. -/
structure Hoist where
  no : Nat
  e : UCmd
  cols : BitVec 128
  start : Nat
  paused : Nat
  rows : List (List Byte)
  scales : List Byte
  rowAt : Nat
  deriving DecidableEq, Repr

/-- A row of a collector batch: request identifier, row in the request, addresses of the row and its scales, and the
MA_REQ it came with. -/
structure ReqRow where
  rid : Nat
  row : Nat
  addr : Nat
  saddr : Nat
  e : UCmd
  deriving DecidableEq, Repr

/-- A pass in the array (R82, R114), or an issued batch (R105): the hoist it runs under, its fields, the next slot,
the bitmap lines read with the cycle of their reading, and what it signals when complete. -/
structure Pass where
  no : Nat
  hoist : Nat
  e : UCmd
  slots : Nat
  fmt : Nat
  scaled : Bool
  aaddr : Nat
  stride : Nat
  saddr : Nat
  daddr : Nat
  gas : Bool
  acc : Bool
  zeroMasked : Bool
  maskAt : Option Nat
  lines : List (Nat × Nat × List Byte)
  pos : Nat
  rows : List ReqRow
  batch : Option Nat
  table : Nat
  hcmd : Cmd
  own : Option WeightSet
  endAt : Nat
  deriving DecidableEq, Repr

/-- A tile row (or a masked slot written +0) on its way to its output writes: feed cycle, the columns whose sums are still
to come; `held`: destination elements its output path has read, by column; `outs`: outputs of lines not yet complete. -/
structure FedRow where
  pass : Nat
  slot : Nat
  fed : Nat
  masked : Bool
  data : List Byte
  scales : List Byte
  fmt : Nat
  scaled : Bool
  set : WeightSet
  setNo : Nat
  dest : Nat
  acc : Bool
  stagger : Bool
  todo : BitVec 128
  held : List (Nat × Nat)
  outs : List (Nat × Nat)
  deriving DecidableEq, Repr

/-- The batch collector (R102-R106): configuration in force, rows of the open batch, the cycle of its first request. -/
structure Collector where
  cfg : Option Cmd
  cfgq : UCmd
  rows : List ReqRow
  opened : Nat
  deriving DecidableEq, Repr

/-- One matrix array beside its registers (R96): the pass feeding, the pass held, the hoist streaming, the hoist
waiting; the active weight set; last front and last slot; rows on their way; passes fed but not complete. `stopPass`,
`stopHoist`: the command a poisoned line has stopped (R180). One more than the cycle of: the last slot (`lastFeed`), the
last offer of a slot (`offered`), the last command accepted (`accAt`), the last CLEAR (`clrAt`), the last cycle of waiting
counted (`waitAt`). -/
structure MArray where
  feeding : Option Pass
  held : Option Pass
  streaming : Option Hoist
  waiting : Option Hoist
  active : WeightSet
  hoists : Nat
  fronts : Nat
  frontAt : Nat
  lastSlot : Nat
  used : Bool
  lastHoist : Option Cmd
  passes : Nat
  rows : List FedRow
  draining : List Pass
  issued : List Pass
  coll : Collector
  bad : List (Nat × Nat)
  lastFeed : Nat
  actCmd : Cmd
  stopPass : Option UCmd
  stopHoist : Option UCmd
  offered : Nat
  accAt : Nat
  clrAt : Nat
  waitAt : Nat
  deriving DecidableEq, Repr

/-- A word that stands where no command is. -/
def UCmd.none : UCmd := ⟨0, 0, 0, 0, 0, true⟩

/-- A reset array (R110). -/
def MArray.reset : MArray :=
  ⟨none, none, none, none, WeightSet.empty, 0, 0, 0, 0, true, none, 0, [], [], [], ⟨none, UCmd.none, [], 0⟩, [], 0, 0, none, none, 0, 0, 0, 0⟩

/-! ### Compute die: vector engine (R123-R159) -/

/-- Vector-engine registers (R124, R125): tile registers (element i of TRt under 4096t + i), scalar and mask
registers, and the 128 generators (R63); the cycle from which the next beat may issue, the cycle after the last write of
the instructions executed (R152, R153), and one more than the cycle of the last CLEAR. -/
structure VEng where
  tiles : Sparse W32
  scal : Vector W32 16
  masks : Vector (BitVec 8192) 8
  gens : Vector (BitVec 64) 128
  issueAt : Nat
  doneAt : Nat
  clrAt : Nat
  deriving DecidableEq, Repr

/-- A reset vector engine (R157). -/
def VEng.reset : VEng := ⟨[], Vector.replicate 16 0, Vector.replicate 8 0, Vector.replicate 128 0, 0, 0, 0⟩

/-! ### Compute die: DMA and the gradient accumulator store (R174-R187) -/

/-- A DMA packet in flight: source (none for a fill), destination, length, the memory request it waits for (0: none), and
its bytes once they have been read. -/
structure DmaPacket where
  src : Option Nat
  dst : Nat
  len : Nat
  req : Nat
  data : Option (List Byte)
  deriving DecidableEq, Repr

/-- What a DMA command has still to issue (R174-R176): source row (none for a fill) and destination row addresses, row
length, rows left, strides, and the offset in the row. -/
structure DmaTodo where
  src : Option Nat
  dst : Nat
  len : Nat
  rows : Nat
  sstride : Int
  dstride : Int
  off : Nat
  deriving DecidableEq, Repr

/-- A DMA command in flight (R176): what is still to issue, packets outstanding, fill pattern. -/
structure DmaCmd where
  e : UCmd
  pattern : W32
  todo : DmaTodo
  out : List DmaPacket
  deriving DecidableEq, Repr

/-- A drain of the GAS (R183-R187): command, region in lines, group and sequence, ZAFTER, whether it has started, the
pieces read, and the granules released. -/
structure Drain where
  e : UCmd
  line : Nat
  len : Nat
  group : Nat
  opseq : Nat
  zafter : Bool
  started : Bool
  read : List Nat
  released : List Nat
  deriving DecidableEq, Repr

/-- The arbiters of a die's two stores (R178, R181, R550): reservations held (cycle, port, requester), consecutive
refusals per access, the first non-urgent requester last granted in the local store and in the GAS, and what was granted
and refused in the last decided cycle; a grant leaves the list when it is used. -/
structure StoreArb where
  resv : List (Nat × BankPort × Fin 9)
  refused : List (Fin 9 × LsKind × Nat)
  lastLs : Nat
  lastGas : Nat
  cycle : Nat
  grants : List (Fin 9 × LsKind)
  denied : List (Fin 9 × LsKind)
  deriving DecidableEq, Repr

/-- Idle store arbiters. -/
def StoreArb.reset : StoreArb := ⟨[], [], 0, 0, 0, [], []⟩

/-- A write held while its granule is covered by a drain (R184): the die where it entered the fabric, its address. -/
structure HeldWrite where
  src : Nat
  addr : Nat
  op : MpaOp
  deriving DecidableEq, Repr

/-- A piece a drain has read for its collective (R185, R187): group, sequence, byte offset in the region, data, poison. -/
structure DrainPiece where
  group : Nat
  opseq : Nat
  off : Nat
  data : List Byte
  poisoned : Bool
  deriving DecidableEq, Repr

/-- One compute die beside its registers and memory. `due`: counter increments on their way (cycle, counter, amount); `came`:
those that have arrived in the last cycle (R166); `psig`: pennant additions in DRAM with their memory requests. -/
structure CDie where
  queues : Vector QueueState 4
  fifos : Vector (List UCmd) 8
  stopped : Vector Bool 8
  lastTook : Vector (Fin 4) 8
  seq : Nat
  due : List (Nat × Nat × Nat)
  came : List (Nat × Nat × Nat)
  psig : List (UCmd × Nat)
  arrays : Vector MArray 4
  ve : VEng
  dma : List DmaCmd
  drains : List Drain
  arb : StoreArb
  held : List HeldWrite
  sent : List DrainPiece
  unusable : List (Fin 4)
  coreIrq : Bool
  deriving DecidableEq, Repr

/-- A reset compute die (R192). -/
def CDie.reset : CDie :=
  ⟨Vector.replicate 4 QueueState.reset, Vector.replicate 8 [], Vector.replicate 8 false, Vector.replicate 8 0, 0, [], [], [],
   Vector.replicate 4 MArray.reset, VEng.reset, [], [], StoreArb.reset, [], [], [], false⟩



/-! ### Training passes (R207-R229) -/

/-- An active variant table (R214): its ID, address, job, number of variants, and the adapters its entries hold. -/
structure VariantTable where
  id : Nat
  addr : Nat
  job : Nat
  nvar : Nat
  adapters : Nat
  deriving DecidableEq, Repr

/-- A sequence placed in the micro-batch under way of a canton (R216-R218): canton, variant table, row tag, token rows. -/
structure AdmittedSeq where
  canton : Nat
  table : Nat
  tag : W32
  rows : Nat
  deriving DecidableEq, Repr

/-- One cadence controller beside its registers (R223-R227), `on` once EN has risen: the tick EN rose, t_i and s_i in µs, the number of the
current step, whether the deadline has passed, e_i once the
work has ended, evaluation batches started in the window and those carried over. -/
structure Cadence where
  origin : Nat
  nominal : Nat
  start : Nat
  step : Nat
  passed : Bool
  ended : Option Nat
  started : List Nat
  carried : List Nat
  on : Bool
  deriving DecidableEq, Repr

/-- A cadence controller after reset: nothing runs. -/
def Cadence.reset : Cadence := ⟨0, 0, 0, 0, false, none, [], [], false⟩



/-! ### Memory die: seal engine (R230-R267) -/

/-- A request at a memory die's seal engine: the request it is part of (R252, R254), who sent it (DDIE), and an access
inside one 256-byte block. -/
structure SealReq where
  id : Nat
  src : Nat
  op : MpaOp
  mpa : Nat
  deriving DecidableEq, Repr

/-- An entry of the poison table (R256, R261): channel, class, channel-local base in 256-byte blocks, whether a tag
failure caused it, first MPA, and tensor, kind and first element where the update engine holds a shard there. -/
structure PoisonEntry where
  ch : Fin 2
  cls : Nat
  lblock : Nat
  security : Bool
  mpa : Nat
  mapped : Option (Nat × Nat × Nat)
  deriving DecidableEq, Repr

/-- A channel of a memory die: counters of its tree (R243-R249: minors by 2^40 × level + child index, MAJORs by
2^40 × level + line index, the root), the roots saved in PARKED, the tick of the last recalibration (R233), whether
refresh runs at half the interval (R234), the second and number of its 0x3101 events (R266), and whether it has left
self-refresh and not yet recalibrated (R233). -/
structure SealChan where
  minors : Sparse Nat
  majors : Sparse Nat
  root : Nat
  saved : Nat
  recalAt : Nat
  halved : Bool
  eccSec : Nat
  eccNum : Nat
  stale : Bool
  deriving DecidableEq, Repr

/-- A channel with a tree of zeros. -/
def SealChan.reset : SealChan := ⟨[], [], 0, 0, 0, false, 0, 0, false⟩

/-- The seal engine of a memory die beside its registers: requests waiting, reads accepted, channels, cached lines with
their dirty mark (newest first), the session keys K_enc and K_tag (R239), the poison table, the entry a reinit clears, whether the channels are in self-refresh (R260, R264), the
scrub position in bursts, the tick of the last resident scrub and of the last patrol step. -/
structure Seal where
  reqs : List SealReq
  reads : List SealReq
  chans : Vector SealChan 2
  lines : List (SealLine × Bool)
  keys : Option (List Byte × List Byte)
  ptab : List (Nat × PoisonEntry)
  reinit : Option Nat
  asleep : Bool
  scrub : Nat
  scrubbed : Nat
  patrolAt : Nat
  deriving DecidableEq, Repr

/-- A reset seal engine. -/
def Seal.reset : Seal := ⟨[], [], Vector.replicate 2 SealChan.reset, [], none, [], none, false, 0, 0, 0⟩


/-! ### Memory die: update engine (R268-R303) -/

/-- A shard descriptor (R270). Floating-point fields are FP32 codes. -/
structure ShardDesc where
  tensor : Nat
  ndim : Nat
  valid : Bool
  layer : Nat
  opt : Nat
  outer : Bool
  frozen : Bool
  wfmt : Nat
  mbf16 : Bool
  srm : Bool
  srw : Bool
  src : Bool
  spare : Bool
  shape : List Nat
  lo : List Nat
  hi : List Nat
  lrmul : Nat
  decay : Nat
  beta1 : Nat
  beta2 : Nat
  eps : Nat
  olr : Nat
  omu : Nat
  master : Nat
  mom1 : Nat
  mom2 : Nat
  plain : Nat
  pscale : Nat
  trans : Nat
  tscale : Nat
  recov : Nat
  jcopy : Nat
  snap : Nat
  omom : Nat
  deriving DecidableEq, Repr

/-- A journal entry (R287). STATE: 0 IDLE, 1 ACTIVE, 2 HELD, 3 SPLIT, 4 FAULT, 5 DISABLED. -/
structure Journal where
  tstep : Nat
  mstep : Nat
  wstep : Nat
  cursor : Nat
  copies : Bool
  outer : Bool
  state : Nat
  clip : Nat
  lr : Nat
  bc1 : Nat
  bc2 : Nat
  norm : Nat
  ostep : Nat
  istep : Nat
  deriving DecidableEq, Repr

/-- A shard of the engine's table: index, descriptor (none where its entry was unreadable), journal entry. -/
structure Shard where
  idx : Nat
  desc : Option ShardDesc
  j : Journal
  deriving DecidableEq, Repr

/-- A square in the reduction landing buffer (R273): its granules, its place in the landing order, and once the engine
has examined it the step it belongs to. -/
structure Landed where
  shard : Nat
  square : Nat
  outer : Bool
  grans : List Nat
  order : Nat
  step : Option Nat
  deriving DecidableEq, Repr

/-- The landing record of a shard step (R288): squares landed so far, the clipping mode the step started under, and the norm
given for it, none where the total was not finite (R282, R285). -/
structure LandRec where
  shard : Nat
  outer : Bool
  step : Nat
  count : Nat
  mode : Nat
  norm : Option (Option Nat)
  deriving DecidableEq, Repr

/-- A segment of the learning-rate schedule (R276). -/
structure SchedSeg where
  start : Nat
  kind : Nat
  period : Nat
  a : Nat
  b : Nat
  deriving DecidableEq, Repr

/-- The burst in hand-over (R286): shard, square, phase 1-3, the request it travels as, the tick it was handed over. -/
structure Burst where
  shard : Nat
  square : Nat
  phase : Nat
  id : Nat
  at_ : Nat
  deriving DecidableEq, Repr

/-- A running command (R300): operation, shard, the request its writes travel as, whether a bus error stopped it, whether
an export stopped at LIMIT, whether its work is still to be done (it waits for earlier writes, for seeding, or for its
turn), the MPA of its command block, and for an import the module and die that sealed the record (R296). -/
structure UeCmd where
  op : Nat
  shard : Nat
  id : Nat
  failed : Bool
  partialEnd : Bool
  todo : Bool
  arg : Nat
  module : Nat
  die : Nat
  deriving DecidableEq, Repr

/-- Where an export stopped at LIMIT (R296): shard, checkpoint, channel and kinds of its block, records written, NEXTSEQ. -/
structure ExportStop where
  shard : Nat
  ckpt : Nat
  chan : Nat
  kinds : Nat
  done : Nat
  seq : Nat
  deriving DecidableEq, Repr

/-- The update engine of a memory die beside its registers. `norms`: per layer and step, the gradients taken, in order
(shard, FP32 codes); `lagged`: steps fallen back to LAG (R284); `posted`: update pennants posted per layer and kind (R291);
`audit`: the shard under an audit of UE_AUDIT_CTL (R293); `load`: tables to be read once earlier writes are made (R251,
R288); `cont`: where an export stopped (R296). -/
structure Ue where
  shards : List Shard
  landed : List Landed
  recs : List LandRec
  order : Nat
  sched : Option (List SchedSeg)
  norms : List (Nat × Nat × List (Nat × List Nat))
  nrec : Nat
  lagged : List Nat
  burst : Option Burst
  recov : List Nat
  last : Option Nat
  cmd : Option UeCmd
  gens : Vector (BitVec 64) 24
  refused : List (Nat × Nat)
  nans : List (Nat × Nat)
  posted : List (Nat × Bool × Nat)
  audited : List (Nat × Nat)
  stagedGrans : List Nat
  syncAt : Nat
  audit : Option Nat
  load : Bool
  cont : Option ExportStop
  deriving DecidableEq, Repr

/-- A reset update engine. -/
def Ue.reset : Ue :=
  ⟨[], [], [], 0, none, [], 0, [], none, [], none, none, Vector.replicate 24 0, [], [], [], [], [], 0, none, false, none⟩

/-- One memory die beside its registers and memory. -/
structure MDie where
  eng : Seal
  ue : Ue
  deriving DecidableEq, Repr

/-- A reset memory die. -/
def MDie.reset : MDie := ⟨Seal.reset, Ue.reset⟩

/-- A release authorisation held by the trust die (R427, R428): canton, job, KEYSLOT, first and last inner step, and
its tensor ranges (first and last tensor ID). -/
structure Release where
  canton : Nat
  job : Nat
  slot : Nat
  fromStep : Nat
  untilStep : Nat
  ranges : List (Nat × Nat)
  deriving DecidableEq, Repr


/-! ### Groups (R304-R334) -/

/-- A descriptor of a communication queue (R310); `spare` says that a reserved bit or byte is not 0. -/
structure GDesc where
  opseq : Nat
  op : Nat
  red : Nat
  dtype : Nat
  opb : Nat
  sk : Nat
  dk : Nat
  urgent : Bool
  outer : Bool
  len : Nat
  trig : Nat
  tthresh : Nat
  src : Nat
  dst : Nat
  srcmap : Nat
  dstmap : Nat
  root : Nat
  done : Nat
  doneinc : Nat
  spare : Bool
  deriving DecidableEq, Repr

/-- A run of a landing map (R315): offset in bytes, elements, shard, memory die, square and element offset. -/
structure LandRun where
  off : Nat
  n : Nat
  shard : Nat
  md : Nat
  square : Nat
  sqoff : Nat
  deriving DecidableEq, Repr

/-- A square being put together from delivered pieces (R315): the FP32 codes that have arrived, by place. -/
structure AsmSquare where
  md : Nat
  shard : Nat
  square : Nat
  vals : List (Nat × Nat)
  deriving DecidableEq, Repr

/-- A result of a reduce stage at this member: stage (3: none before), direction, byte offset, element codes, POISON. -/
structure StageResult where
  stage : Nat
  minus : Bool
  off : Nat
  vals : List Nat
  poison : Bool
  deriving DecidableEq, Repr

/-- An operation in progress: queue index, descriptor, ranges combined (ring, offset, bytes), results of stages, ranges
written to destinations, landing runs and squares, its arithmetic flags, whether a poisoned piece was delivered, lag
units at its start, the requests of its local writes, and the request of its status once that has been written. -/
structure GOp where
  idx : Nat
  d : GDesc
  combined : List (Nat × Nat × Nat)
  results : List StageResult
  written : List (Nat × Nat)
  runs : List LandRun
  asm : List AsmSquare
  inv : Bool
  ovf : Bool
  poison : Bool
  lag : Nat
  writes : List Nat
  closing : Option Nat
  deriving DecidableEq, Repr

/-- A ring of a group (u = 0-5), or its direct traffic (6): the next PSN sent, the next PSN expected, unacknowledged
pieces with the member they go to, pieces waiting in slots, pieces received since the last acknowledgement and the
tick of the first of them, the PSN refused with NOCTX and the tick it was last offered, the module the last beacon
named, and the tick a beacon was last sent. -/
structure GRing where
  next : Nat
  expect : Nat
  unacked : List (Nat × Piece)
  waiting : List Piece
  owed : Nat
  owedAt : Nat
  noctx : Option Nat
  offeredAt : Nat
  beacon : Option Nat
  beaconAt : Nat
  deriving DecidableEq, Repr

/-- A ring after CREATE or RESET. -/
def GRing.reset : GRing := ⟨0, 0, [], [], 0, 0, none, 0, none, 0⟩

/-- A group beside its registers: the next descriptor to check, the OPSEQ expected of it, descriptors checked but not
started, operations in progress, rings, OPSEQs completed or aborted, descriptors completed above HEAD, whether the
trigger of the first waiting descriptor has been met and when it was last read, ticks of the last progress and of the
last lag count, cycles left over per lag counter, and staging granules held. -/
structure Group where
  fetch : Nat
  expect : Nat
  fetched : List (Nat × GDesc)
  ops : List GOp
  rings : Vector GRing 7
  aborted : List Nat
  finished : List Nat
  fired : Bool
  polledAt : Nat
  progressAt : Nat
  lagAt : Nat
  lagRest : Vector Nat 8
  grans : List Nat
  direct : List (Nat × Nat)
  deriving DecidableEq, Repr

/-- A group after CREATE. -/
def Group.reset : Group :=
  ⟨0, 0, [], [], Vector.replicate 7 GRing.reset, [], [], false, 0, 0, 0, Vector.replicate 8 0, [], []⟩

/-- A message a group sends over the torus (R319-R330): to a module, from a group. -/
inductive GMsg
  | piece (target : Nat) (p : Piece)
  | ack (target grp u psn : Nat)
  | noctx (target grp u psn : Nat)
  | beacon (target grp opseq named : Nat)
  | abort (target grp : Nat) (opseqs : List Nat)
  deriving DecidableEq, Repr


/-! ### Link dies: torus ports (R335-R369) -/

/-- A packet that waits at a port (R352, R355): the requester it came by, plane, class, DL, DST with direction bits,
destination die, content, and the tick it began to wait. -/
structure TPacket where
  requester : Nat
  plane : Nat
  tc : Nat
  dl : Bool
  dst : Nat
  ddie : Nat
  content : List Byte
  since : Nat
  deriving DecidableEq, Repr

/-- A packet in the replay buffer (R345): its ciphertext, and how often it has been resent. -/
structure Sent where
  p : TorusPacket
  resent : Nat
  deriving DecidableEq, Repr

/-- A plane of a port beside its registers (R343-R347, R358-R361). Sending: keys by epoch, packets sent and the tick
begun in the current epoch, the replay buffer, EPCTL bits due in the next control codeword, whether a forced rekey
awaits FORCEACK. Receiving: keys by epoch, the lowest SEQ not received, one above the highest SEQ met, packets held
above a gap, SEQs delivered above the gap, SEQs aborted by revocation, tag failures per SEQ, the lowest SEQ accepted
under the newest epoch, whether the SEQs below the next packet are given up. Credits to send and credits to return per virtual channel, and whether 0x2246 has been
raised since the port went down. -/
structure LinkPlane where
  txKeys : List (Nat × List Byte)
  sent : Nat
  epochAt : Nat
  replay : List Sent
  retire : Bool
  force : Bool
  answer : Bool
  forcing : Bool
  rxKeys : List (Nat × List Byte)
  next : Nat
  top : Nat
  held : List (Nat × TPacket)
  passed : List Nat
  aborted : List Nat
  tagFails : List (Nat × Nat)
  first : Option Nat
  skip : Bool
  credits : Vector Nat 6
  returns : Vector Nat 6
  dropped : Bool
  deriving DecidableEq, Repr

/-- A plane that holds nothing. -/
def LinkPlane.reset : LinkPlane :=
  ⟨[], 0, 0, [], false, false, false, false, [], 0, 0, [], [], [], [], none, false, Vector.replicate 6 0, Vector.replicate 6 0, false⟩

/-- A torus port beside its registers (R335-R369): control key, next CSEQ, control codewords failed in succession, tick
of the last control codeword, planes, packets waiting, tick the port went down, tick to retry training, cable present,
the second and number of rate-limited events (epoch, resend, tag), the last control codeword with its tag and the last
packet sent. -/
structure LinkPort where
  control : Option (List Byte)
  cseq : Nat
  ctlFails : Nat
  ctlAt : Nat
  planes : Vector LinkPlane 8
  queue : List TPacket
  downAt : Nat
  retryAt : Option Nat
  cable : Bool
  rates : Vector (Nat × Nat) 3
  ctl : Option (CtlWord × List Byte)
  last : Option TorusPacket
  deriving DecidableEq, Repr

/-- A port after power-on: no key, nothing waiting, a cable present (log 60). -/
def LinkPort.reset : LinkPort :=
  ⟨none, 0, 0, 0, Vector.replicate 8 LinkPlane.reset, [], 0, none, true, Vector.replicate 3 (0, 0), none, none⟩


/-! ### Site exchange (R370-R403) -/

/-- An item that a holder sends over the site ports (R388): shard index, destination site, module and memory die, frame
fields, payload; the FSEQ of its last frame, the tick that frame was sent, and the frames sent for it. -/
structure SxItem where
  shard : Nat
  site : Nat
  module : Nat
  ftype : Nat
  sxid : Nat
  round : Nat
  item : Nat
  stale : Bool
  sealed_ : Bool
  age : Nat
  aux : Nat
  data : List Byte
  fseq : Nat
  at_ : Nat
  tries : Nat
  deriving DecidableEq, Repr

/-- A contributor's round of a shard (R375, R380-R382): its leader's site; the MHEAD header once received (lineage, Q
bitmap, W_Q) and its parts of counted chunks; merge items received with AUX and data. -/
structure SxRound where
  shard : Nat
  leader : Nat
  head : Option (Nat × Nat × Nat)
  counted : List (Nat × List Byte)
  merged : List (Nat × Nat × List Byte)
  deriving DecidableEq, Repr

/-- A leader's collection of a shard (R379-R381): round, tick of its open, sites whose DONE has arrived, sites that sent
anything, the quorum set as a bitmap and W_Q, tick of INCLUDE, the sites counted for each chunk, corrections received
(site, chunk). -/
structure SxLead where
  shard : Nat
  round : Nat
  openAt : Option Nat
  done : List Nat
  senders : List Nat
  quorum : Nat
  wq : Nat
  includedAt : Option Nat
  incl : List Nat
  corrs : List (Nat × Nat)
  deriving DecidableEq, Repr

/-- A rebase of a shard (R396-R398): source site, module and memory die; SNAPHEAD once received (round, lineage, items);
items received; whether it is a BOOT, and whether it leaves a branch (R400). -/
structure SxRebase where
  shard : Nat
  site : Nat
  module : Nat
  die : Nat
  head : Option (Nat × Nat × Nat)
  got : List Nat
  boot : Bool
  branch : Bool
  deriving DecidableEq, Repr

/-- The exchange quantiser of a memory die beside its registers and its table in memory: items not acknowledged, rounds,
collections, rebases, sites shunned per shard until EN rises (R399), per sending module the FSEQs owed a SACK with the
tick of the first, and whether an OPENALL waits for seeding (R66). -/
structure Sx where
  items : List SxItem
  rounds : List SxRound
  leads : List SxLead
  rebases : List SxRebase
  shunned : List (Nat × Nat)
  owed : List (Nat × Nat × List Nat)
  openWaits : Bool
  deriving DecidableEq, Repr

/-- A quantiser that does nothing. -/
def Sx.reset : Sx := ⟨[], [], [], [], [], [], false⟩

/-- The site engine of the host-interface die beside its registers: items queued with their memory die, next FSEQ per
memory die and module, tick of the last authenticated frame per canton and site, tick of the last frame sent per memory
die and module, tick from which pacing allows a frame per canton and site, slots passed per port, port state reported by a
peer module, unusable paths (port, site), second and number of rate-limited events (resend, tag), the last frame sent with
its port and the address and UDP port it goes to, and answers to other packets. -/
structure SiteEngine where
  queue : List (Nat × SxItem)
  fseqs : List ((Nat × Nat) × Nat)
  heard : List ((Nat × Nat) × Nat)
  sentTo : List ((Nat × Nat) × Nat)
  pace : List ((Nat × Nat) × Nat)
  slots : Vector Nat 2
  peerPorts : List ((Nat × Nat) × Nat)
  badPaths : List (Nat × Nat)
  rates : Vector (Nat × Nat) 2
  last : Option (Nat × (Nat × Nat) × SiteFrame)
  answered : List SitePacket
  deriving DecidableEq, Repr

/-- A site engine that has sent nothing. -/
def SiteEngine.reset : SiteEngine := ⟨[], [], [], [], [], Vector.replicate 2 0, [], [], Vector.replicate 2 (0, 0), none, []⟩


/-! ### Identity, parties and cantons (R404-R441) -/

/-- A party of a job manifest (R420): ID, RSA-4096 signing modulus, P-384 and ML-KEM-1024 wrapping keys. -/
structure Party where
  id : Nat
  modulus : List Byte
  p384 : List Byte
  mlkem : List Byte
  deriving DecidableEq, Repr

/-- The job manifest of an ASSIGNED canton (R420): parties, thresholds, the host agent's modulus, admitted tenant-image
digests, and its SHA-512. -/
structure Manifest where
  parties : List Party
  resumeK : Nat
  releaseK : Nat
  agent : List Byte
  images : List (List Byte)
  digest : List Byte
  deriving DecidableEq, Repr

/-- A party data key in a key slot of the host-interface die (R423). -/
structure DataKey where
  party : Nat
  keyId : Nat
  key : List Byte
  deriving DecidableEq, Repr

/-- A checkpoint envelope gathering shares (R426): KEYSLOT, CKPT, OWNER, shares needed, KCV, shares by party. -/
structure Gather where
  slot : Nat
  ckpt : Nat
  owner : Nat
  need : Nat
  kcv : List Byte
  shares : List (Nat × List Byte)
  deriving DecidableEq, Repr

/-- A tenant image started in a canton (R463): MPA, length, digest, whether it runs. -/
structure TenantImage where
  mpa : Nat
  len : Nat
  digest : List Byte
  runs : Bool
  deriving DecidableEq, Repr

/-- What the trust die holds for one canton beside its registers: manifest while ASSIGNED, session seed (R65), ephemeral
keys, host-path keys by direction with the next SEQ per (ring, direction) and the records per direction (R429, R430),
data keys, wrapping keys by party (R423), gathering envelopes, REQIDs accepted (R427), consent records of the current
SEQ (R432), tenant images, and the tick the scrub began. -/
structure CantonSec where
  manifest : Option Manifest
  seed : List Byte
  ephemeral : List Byte
  hostKeys : Option (List Byte × List Byte)
  hostSeq : List ((Nat × Nat) × Nat)
  moved : Nat × Nat
  dataKeys : List DataKey
  wraps : List (Nat × List Byte)
  gathers : List Gather
  reqIds : List Nat
  consents : List (Nat × Nat)
  images : List TenantImage
  scrubAt : Nat
  deriving DecidableEq, Repr

/-- A canton with no key and no policy. -/
def CantonSec.reset : CantonSec := ⟨none, [], [], none, [], (0, 0), [], [], [], [], [], [], 0⟩

/-- A key agreement in progress (R415, R416): purpose, canton, whether this module is the initiator, ephemeral
secrets, KA1, KA2 once made or received, the tick of KA1. -/
structure Agreement where
  purpose : Nat
  canton : Nat
  initiator : Bool
  secret : List Byte
  ka1 : List Byte
  ka2 : List Byte
  at_ : Nat
  deriving DecidableEq, Repr

/-- What the SPDM responder answers (R409, R410, R449). -/
inductive SpdmAnswer
  | none
  | error
  | notReady
  | version (versions : List Nat)
  | capabilities (chunks : Bool)
  | algorithms (names : List String)
  | digests (slot0 : List Byte)
  | certificate (part : List Byte) (left : Nat)
  | challengeAuth (digest measured signature : List Byte)
  | measurements (blocks : List (Nat × List Byte)) (signature : List Byte)
  | keyExchange (share signature : List Byte)
  | finish
  | ended
  | chunkAck (seq : Nat)
  | chunk (seq : Nat) (part : List Byte) (last : Bool)
  | ideKm (answer : List Byte)
  | discovery (type : String) (next : Nat)
  deriving DecidableEq, Repr

/-- The SPDM responder (R409, R449): version and algorithms agreed, secure session (its key, whether FINISH has
completed it), chunks of a long request, a long response with the bytes already fetched, the last answer, and the
signed response not ready yet with the tick of its request. -/
structure Spdm where
  agreed : Bool
  session : Option (List Byte × Bool)
  chunks : List Byte
  long : List Byte
  answer : SpdmAnswer
  waiting : Option (SpdmAnswer × Nat)
  deriving DecidableEq, Repr

/-- A responder that has been asked nothing. -/
def Spdm.reset : Spdm := ⟨false, none, [], [], .none, none⟩

/-- The trust die's security state: identity key (R404), cantons, agreements, link session secrets by neighbour
(R417), SEC_BUF by offset (R441), the SPDM responder, CXL IDE keys, the TAP instruction in force and the cantons whose
dies a scan has opened (R435), whether a debug probe is fitted (R541), whether the PUF is locked. -/
structure SecState where
  identity : Option (List Byte)
  cantons : Vector CantonSec 8
  agreements : List Agreement
  linkSecrets : List (Nat × List Byte)
  buf : Sparse Byte
  spdm : Spdm
  ideKeys : List Byte
  tap : TapInstr
  scanned : List Nat
  probe : Bool
  pufLocked : Bool
  owedErase : List Nat
  deriving DecidableEq, Repr

/-- The trust die with no key. -/
def SecState.reset : SecState :=
  ⟨none, Vector.replicate 8 CantonSec.reset, [], [], [], Spdm.reset, [], .bypass, [], false, false, []⟩


/-! ### Host attachment (R442-R466) -/

/-- A ring descriptor in progress (R452, R453): index, its 64 bytes, STATUS found so far, SEQ of its record. -/
structure RingJob where
  idx : Nat
  desc : List Byte
  status : Nat
  seq : Nat
  deriving DecidableEq, Repr

/-- The host-interface die beside its registers: descriptors in progress per canton and ring; what it has written to
host memory (address, bytes); MSI-X masks and pending bits (R448) and the interrupts sent; host time written with its
tick (R457); tick of the last vector-0 interrupt, whether records came since, whether the ring's overflow has been
reported; bytes of an unfinished host record and memory requests not acknowledged per bulk data port (R455, R456); the
largest MSEQ accepted (R459) and the management answer; regions with EN falling (R450). -/
structure HostState where
  rings : List ((Nat × Nat) × List RingJob)
  writes : List (Nat × List Byte)
  masked : BitVec 64
  waiting : BitVec 64
  irqs : List Nat
  time : Option (Nat × Nat)
  irqAt : Option Nat
  owed : Bool
  overflow : Bool
  stream : Vector (List Byte) 2
  acks : Vector (List Nat) 2
  mseq : Option Nat
  answer : List Byte
  closing : List (Nat × Nat)
  deriving DecidableEq, Repr

/-- A host-interface die after reset: every MSI-X vector masked. -/
def HostState.reset : HostState :=
  ⟨[], [], BitVec.allOnes 64, 0, [], none, none, false, false, Vector.replicate 2 [], Vector.replicate 2 [], none, [], []⟩


/-! ### Start-up, power and resets (R467-R507) -/

/-- What the always-on domain is doing (R481-R503, R526, R538): no power; a start in progress; running (RUN, THROTTLED
or the recovery profile); STANDBY; MRST_N held low; an undervoltage or overvoltage POR waiting for its input; REFCLK
lost; quenched; held after too many quenches. -/
inductive PowerMode | off | starting | running | standby | mrstLow | undervolt | overvolt | noRef | quenched | held
  deriving DecidableEq, Repr

/-- A reset (R500): kind 1 MRST, 2 SRST, 3 CRST, 4 DRST, 5 LRST, with its canton, die or port. -/
structure ResetReq where
  kind : Nat
  idx : Nat
  deriving DecidableEq, Repr

/-- An image of a start (R412, R477, R478): slot (0 A, 1 B, 2 golden), version, security version, interface epoch,
mismatch code, SHA-512 of the image. -/
structure BootImage where
  slot : Nat
  version : Nat
  secver : Nat
  epoch : Nat
  mismatch : Nat
  digest : List Byte
  deriving DecidableEq, Repr

/-- A non-volatile write (R498): flash address, bytes of a page (none: a sector erase), what it belongs to (1 event
log, 2 last-gasp area, 0 other), and the tick it was asked for. -/
structure NvWrite where
  addr : Nat
  page : Option (List Byte)
  owner : Nat
  since : Nat
  deriving DecidableEq, Repr

/-- A flash command that runs (R487): OP, KIND, SLOT, CHUNK. -/
structure FlashCmd where
  op : Nat
  kind : Nat
  slot : Nat
  chunk : Nat
  deriving DecidableEq, Repr

/-- The always-on domain and the power manager beside their registers: boot flash (by offset; an unlisted byte holds
what it held at delivery), FL_BUF, flash command; the images of the last start in the order manifest, TFW, SFW, LMC,
UMC; the module configuration record in force; straps latched (R542); the power mode; the reset in progress and those
that wait (R502), and the MRST that waits for a flash operation; non-volatile write in progress, those that wait and
whether the wait has been reported (R499); park requests with their ticks (R491); the tick from which every throttle
cause is cleared and that from which the input stays above 43.5 V; lowest voltage of the dip; power averages kept per
canton: tick of the last change of FRAC (R490); whether LMC and UMC are loaded and the service cores run; kind of the
start in progress (START encoding, R507) and its tick; RST_CAUSE of that start. -/
structure PowerState where
  flash : Sparse Byte
  flBuf : Sparse Byte
  flCmd : Option FlashCmd
  images : List BootImage
  mcr : List Byte
  straps : Nat
  mode : PowerMode
  resetNow : Option ResetReq
  resets : List ResetReq
  mrstWaits : Option Nat
  nv : Option NvWrite
  nvWait : List NvWrite
  nvTold : Bool
  park : List (Nat × Nat)
  coolAt : Nat
  dipMin : Nat
  capAt : Vector Nat 8
  coresRun : Bool
  startKind : Nat
  startAt : Nat
  lastCode : Nat
  deriving DecidableEq, Repr

/-- The always-on domain at power-up. -/
def PowerState.reset : PowerState :=
  ⟨[], [], none, [], [], 0, .off, none, [], none, none, [], false, [], 0, 0xFFFF, Vector.replicate 8 0, false, 0, 0, 0⟩


/-! ### Errors, self-test and the quench path (R508-R532) -/

/-- An event record (R457, R508): the event, its ESEQ, its HTIME, whether it has been copied to the flash. -/
structure EvRecord where
  ev : Event
  eseq : Nat
  htime : Nat
  stored : Bool
  deriving DecidableEq, Repr

/-- The causes of a quench (R524, R525), in the order of SF_QLAST: overcurrent, overtemperature, overvoltage, REFCLK,
safety core. -/
inductive QuenchCause | overcurrent | overtemp | overvolt | refclk | slowPath
  deriving DecidableEq, Repr

/-- The event log, BIST and the safety partition beside their registers: RAM window (newest first, R510); ESEQs that
wait for a page, each with its tick; sector sequence, sector and page of the next program; tokens of the copy
budget and the tick they were counted (R512); losses not yet reported and the tick of the last report; ESEQ of the
newest record programmed; last-gasp LSEQ, the last one reported, the page written next (R513); fail records of the last
BIST (R516); repair-map entries in force (R518); blocks found unusable as (die, block) (R520); the capability map
(R521); event counts by canton (8: none) and category (R530); ticks at which contained cantons are reset (R528); ticks
of quenches (R526) and the causes present; sensors: hottest of each die, DIMMs with the last over-limit reading, rail
groups, input current, cold plate; comparators found failed (R523). -/
structure RelState where
  window : List EvRecord
  waiting : List (Nat × Nat)
  sseq : Nat
  sector : Nat
  page : Nat
  tokens : Nat
  tokenAt : Nat
  lost : Nat
  lostAt : Option Nat
  flashed : Nat
  lseq : Nat
  lgShown : Nat
  lgPage : Nat
  fails : List (W32 × W32)
  repairs : List Nat
  unusable : List (Nat × Nat)
  capMap : List Byte
  counts : Sparse Nat
  containAt : List (Nat × Nat)
  quenches : List Nat
  causes : List QuenchCause
  quenchAt : Nat
  temps : Vector Nat 64
  dimmTemps : Vector Nat 32
  dimmOver : Vector Bool 32
  rails : Vector Nat 11
  inputCur : Nat
  inlet : Nat
  outlet : Nat
  stFailed : List Nat
  deriving DecidableEq, Repr

/-- The trust die's records at power-up: nothing logged, no sensor read (0xFF). -/
def RelState.reset : RelState :=
  ⟨[], [], 0, 0, 0, 4096, 0, 0, none, 0, 0, 0, 0, [], [], [], [], [], [], [], [], 0, Vector.replicate 64 0xFF,
   Vector.replicate 32 0xFF, Vector.replicate 32 false, Vector.replicate 11 0, 0, 0, 0, []⟩

/-! ### The module -/

/-- The JV64-M1 as one block. `now`: time in ticks of 1/4.2 GHz (an ACLK cycle is 2, an FCLK cycle 3 ticks, R468).
`regs`: the registers that differ from their cold-reset value, by CRS address (R11-R15, R34). `mem`: memory by MPA (R27).
`poison`: 64-byte lines marked poisoned (R180). `events`: events raised, oldest first (R16). `resp`: the answer to the
last access. `free`: how many free values have been taken (the model's own field). `latch`: the latched halves of
register pairs (R10), by view and address. `cleared`: the cycle in which counters were last cleared, by control register (R122). `inReset`: dies held in reset (R500). `hostMask`: bits the host may write (R486), by address.
`fabRetry`: consecutive failed re-sends of a fabric port, by 4 × die + port (R20,
R25). `packets`: packets crossing the fabric (R21-R23). `arbs`: shared arbiters (R362-R366). `cds`, `mds`, `ports`,
`exch`: compute dies, memory dies, torus ports, exchange quantisers. `deadDies`: dies out of use since the last start
(R470, R520). `tables`, `cads`, `admitted`: active variant tables, cadence controllers and sequences admitted per canton
(R214, R218, R223). `lostSteps`: steps reported lost (die, queue) (R207). `reqNo`: the number of the next memory request. `got`:
memory requests answered (request, MPA, bytes). `busErrs`: bus errors delivered (die, MPA, request;
0: a write that is no request). `moduleId`, `torusLen`: module ID
and axis lengths of the torus (R353). `jobs`: the job of each canton. `keySlots`: checkpoint and release keys (canton,
slot, key) (R425, R428). `releases`: release authorisations. `groups`: groups that are not FREE (R304). `outbox`:
messages handed to the torus. `arrived`: torus packets delivered to the module. `sites`: the site engine.
`pairSecrets`: pair secrets by canton and module (R417). `sec`, `host`, `pwr`, `rel`: trust die, host-interface die,
always-on domain, event log and safety partition. `pending`: the commands that wait (the model's own field). -/
structure State where
  now : Nat
  regs : Sparse W32
  mem : List Host.Cell
  poison : Sparse Bool
  events : List Event
  resp : Resp
  free : Nat
  latch : List ((View × Nat) × W32)
  inReset : Vector Bool 64
  hostMask : Sparse W32
  cleared : Sparse Nat
  fabRetry : Sparse Nat
  packets : List Packet
  arbs : List (ArbStage × ArbState)
  cds : Vector CDie 40
  deadDies : List Nat
  tables : Vector (List VariantTable) 8
  cads : Vector Cadence 8
  admitted : List AdmittedSeq
  lostSteps : List (Nat × Nat)
  reqNo : Nat
  got : List (Nat × Nat × Option (List Byte))
  busErrs : List (Nat × Nat × Nat)
  mds : Vector MDie 16
  moduleId : Nat
  jobs : Vector Nat 8
  keySlots : List (Nat × Nat × List Byte)
  releases : List Release
  groups : List (Nat × Group)
  outbox : List GMsg
  torusLen : Nat × Nat × Nat
  ports : Vector LinkPort 6
  arrived : List TPacket
  exch : Vector Sx 16
  sites : SiteEngine
  pairSecrets : List (Nat × Nat × List Byte)
  sec : SecState
  host : HostState
  pwr : PowerState
  rel : RelState
  pending : List Instr
  deriving DecidableEq, Repr

/-- The module right after power-on reset: every register at its cold-reset value (no register listed), memory with
nothing listed, every queue and engine empty, no command waiting. -/
def State.reset : State where
  now := 0
  regs := []
  mem := []
  poison := []
  events := []
  resp := .none
  free := 0
  latch := []
  inReset := Vector.replicate 64 false
  hostMask := []
  cleared := []
  fabRetry := []
  packets := []
  arbs := []
  cds := Vector.replicate 40 CDie.reset
  deadDies := []
  tables := Vector.replicate 8 []
  cads := Vector.replicate 8 Cadence.reset
  admitted := []
  lostSteps := []
  reqNo := 0
  got := []
  busErrs := []
  mds := Vector.replicate 16 MDie.reset
  moduleId := 0
  jobs := Vector.replicate 8 0
  keySlots := []
  releases := []
  groups := []
  outbox := []
  torusLen := (1, 1, 1)
  ports := Vector.replicate 6 LinkPort.reset
  arrived := []
  exch := Vector.replicate 16 Sx.reset
  sites := SiteEngine.reset
  pairSecrets := []
  sec := SecState.reset
  host := HostState.reset
  pwr := PowerState.reset
  rel := RelState.reset
  pending := []

end Sys2Proof.Machine
end

