-- ==== Sys2Proof/Machine/Ops.lean ====
section
/-! DEFINITION. The named operations over registers, memory, events and the module's map (R10-R17, R27-R40). -/
namespace Sys2Proof.Machine

/-- What a meaning answers. -/
abbrev Out := Host.Outcome State Fault Refusal

/-! ### Registers -/

/-- A register's value. -/
def State.rd (s : State) (a : Nat) : W32 := Sparse.get regReset s.regs a

/-- A register set whole. -/
def State.wr (s : State) (a : Nat) (x : W32) : State := { s with regs := Sparse.set regReset s.regs a x }

/-- A field of a register value. -/
def fldOf (x : W32) (f : Fld) : Nat := bitsN x.toNat f.1 f.2

/-- The bits of a field. -/
def fldMask (f : Fld) : W32 := BitVec.ofNat 32 (2 ^ (f.1 + 1) - 2 ^ f.2)

/-- A register value with a field replaced. -/
def fldSet (x : W32) (f : Fld) (n : Nat) : W32 :=
  (x &&& ~~~ fldMask f) ||| (BitVec.ofNat 32 (n * 2 ^ f.2) &&& fldMask f)

/-- A field of a register. -/
def State.get (s : State) (a : Nat) (f : Fld) : Nat := fldOf (s.rd a) f

/-- Whether a one-bit field is 1. -/
def State.flag (s : State) (a : Nat) (f : Fld) : Bool := s.get a f == 1

/-- A register with one field replaced; the hardware's own write. -/
def State.put (s : State) (a : Nat) (f : Fld) (n : Nat) : State := s.wr a (fldSet (s.rd a) f n)

/-- A one-bit field set to 1 where `c` holds. -/
def State.setIf (s : State) (c : Bool) (a : Nat) (f : Fld) : State := if c then s.put a f 1 else s

/-- A counter field raised by n, stopping at its largest value. -/
def State.bump (s : State) (a : Nat) (f : Fld) (n : Nat) : State :=
  s.put a f (satN (2 ^ (f.1 + 1 - f.2) - 1) (s.get a f + n))

/-- A counter field raised by n, wrapping. -/
def State.bumpWrap (s : State) (a : Nat) (f : Fld) (n : Nat) : State := s.put a f (s.get a f + n)

/-- The 64-bit value of a _LO and _HI pair. -/
def State.get64 (s : State) (lo hi : Nat) : Nat := (s.rd lo).toNat + 2 ^ 32 * (s.rd hi).toNat

/-- A _LO and _HI pair set. -/
def State.put64 (s : State) (lo hi n : Nat) : State :=
  (s.wr lo (BitVec.ofNat 32 n)).wr hi (BitVec.ofNat 32 (n / 2 ^ 32))

/-- A 64-bit pair raised by n, wrapping. -/
def State.add64 (s : State) (lo hi n : Nat) : State := s.put64 lo hi (s.get64 lo hi + n)

/-- Registers cleared to 0 one after the other. -/
def State.zeroRegs (s : State) (as : List Nat) : State := as.foldl (fun t a => t.wr a 0) s

/-! ### Time -/

/-- Ticks per microsecond (4.2 GHz). -/
def ticksPerUs : Nat := 4200

/-- The ACLK cycle the module is in. -/
def State.aclk (s : State) : Nat := s.now / 2

/-! ### Free values -/

/-- The next free value of `w` bits, and the state that has used it. -/
def State.fresh (s : State) (w : Nat) : Nat × State :=
  (Config.freeBits s.free % 2 ^ w, { s with free := s.free + 1 })

/-! ### Cantons and the floor plan -/

/-- Number of cantons (R39). -/
def State.cantons (s : State) : Nat := 2 ^ s.get R.ARCH_CFG F.ARCH_CFG_CANTON_LOG2

/-- The number of cantons as a power of two. -/
def State.cantonLog (s : State) : Nat := s.get R.ARCH_CFG F.ARCH_CFG_CANTON_LOG2

/-- The canton of a column in a shape of 2^log cantons. -/
def cantonOfCol (log col : Nat) : Nat := col * 2 ^ log / 8


/-- The canton that a floor-plan column belongs to (R37). -/
def State.colCanton (s : State) (col : Nat) : Nat := col * s.cantons / 8

/-- Column and row of a die, in the DDIE numbering (R342): 0-39 CD, 40-55 MD, 56-61 LD, 62 HD, 63 TD. -/
def diePos (k : Nat) : Nat × Nat :=
  if k < 40 then (k % 8, 1 + k / 8)
  else if k < 48 then (k - 40, 0)
  else if k < 56 then (k - 48, 6)
  else if k = 56 then (0, 7) else if k = 58 then (1, 7) else if k = 60 then (2, 7)
  else if k = 63 then (3, 7) else if k = 62 then (4, 7)
  else if k = 61 then (5, 7) else if k = 59 then (6, 7) else (7, 7)

/-- The canton of a die; none for the shared dies of row 7 (R38). -/
def State.dieCanton (s : State) (k : Nat) : Option Nat :=
  if k < 56 then some (s.colCanton (diePos k).1) else none

/-- Whether a canton takes work: it is ASSIGNED (R418) and not contained (R528). -/
def State.takesWork (s : State) (k : Nat) : Bool :=
  s.get (R.CPOL_STATUS k) F.CPOL_STATUS_STATE == 1 && !(s.get R.CONT_STATUS F.CONT_STATUS_CFATAL).testBit k

/-- The compute dies of a canton. -/
def State.cantonCds (s : State) (k : Nat) : List Nat := (List.range 40).filter (fun d => s.colCanton (d % 8) == k)

/-- The memory dies of a canton, ascending (R31). -/
def State.cantonMds (s : State) (k : Nat) : List Nat := (List.range 16).filter (fun m => s.colCanton (m % 8) == k)

/-- CRS base of a die in the DDIE numbering. -/
def dieCrs (k : Nat) : Nat :=
  if k < 40 then cdBase k else if k < 56 then mdBase (k - 40) else if k < 62 then ldBase (k - 56)
  else if k = 62 then hdBase else tdBase

/-- Source class of a die's events (R16). -/
def dieClass (k : Nat) : Nat := if k < 40 then 4 else if k < 56 then 3 else if k < 62 then 2 else if k = 62 then 1 else 0

/-! ### Events (R16, R508, R509) -/

/-- DETAIL of R509: SUB, AUX and VALUE. -/
def detail (sub aux value : Nat) : List Byte := leBytes 2 sub ++ leBytes 2 aux ++ leBytes 8 value

/-- An event sent to the trust die. -/
def State.raise (s : State) (code die : Nat) (canton : Option Nat) (det : List Byte) : State :=
  { s with events := s.events ++ [⟨code, die, canton, det⟩] }

/-- An event of a die whose cause byte the spec does not give (by rule number). -/
def State.raiseCat (s : State) (cat die rule : Nat) (canton : Option Nat) (det : List Byte) : State :=
  s.raise (dieClass die * 4096 + cat * 256 + (Config.cause rule).toNat) die canton det

/-! ### Memory (R27) -/

/-- What an unlisted address reads as: 0 (stores are zeroised, R192; an unwritten DRAM block reads zeros, R245). -/
def memDefault : Nat → Byte := fun _ => 0

/-- The canonical form of memory: addresses strictly rising, no entry 0. -/
def Memory.wf (m : List Host.Cell) : Bool := Sparse.wf memDefault m

/-- One byte of memory. -/
def State.byte (s : State) (a : Nat) : Byte := Sparse.get memDefault s.mem a

/-- n bytes of memory from an address on. -/
def State.bytes (s : State) (a : Nat) : Nat → List Byte
  | 0 => []
  | n + 1 => s.byte a :: State.bytes s (a + 1) n

/-- Memory with bytes written from an address on. -/
def memPut (m : List Host.Cell) (a : Nat) : List Byte → List Host.Cell
  | [] => m
  | b :: bs => memPut (Sparse.set memDefault m a b) (a + 1) bs

/-- Bytes written to memory. -/
def State.putBytes (s : State) (a : Nat) (bs : List Byte) : State := { s with mem := memPut s.mem a bs }

/-- A little-endian number in memory, of n bytes. -/
def State.num (s : State) (a n : Nat) : Nat := leNat (s.bytes a n)

/-- A little-endian number of n bytes written to memory. -/
def State.putNum (s : State) (a n v : Nat) : State := s.putBytes a (leBytes n v)

/-- MPA of compute die n's local store. -/
def lsBase (n : Nat) : Nat := 0xF00000000000 + n * 0x4000000
/-- MPA of compute die n's gradient accumulator store. -/
def gasBase (n : Nat) : Nat := lsBase n + 0x3000000
/-- MPA of memory die n's reduction landing buffer. -/
def landBase (n : Nat) : Nat := 0xF00100000000 + n * 0x800000
/-- MPA of link die n's reduction memory. -/
def redBase (n : Nat) : Nat := 0xF00200000000 + n * 0x400000
/-- Bytes of a local store. -/
def lsBytes : Nat := 0x3000000
/-- Bytes of a gradient accumulator store. -/
def gasBytes : Nat := 0x1000000

/-- Whether any 64-byte line of a range of a store is poisoned (R180). -/
def State.poisoned (s : State) (a n : Nat) : Bool :=
  (List.range ((a + n + 63) / 64 - a / 64)).any (fun i => Sparse.get (fun _ => false) s.poison (a / 64 + i))

/-- The poison marks after a write: a line stops being poisoned when one write covers all 64 bytes of it (R180). -/
def State.coverLines (s : State) (a n : Nat) : State :=
  { s with poison := s.poison.filter (fun p => !(decide (a ≤ p.1 * 64) && decide (p.1 * 64 + 64 ≤ a + n))) }

/-- A write into a local store or GAS: the bytes, and the poison marks (R179, R180). -/
def State.storeWrite (s : State) (a : Nat) (bs : List Byte) : State := (s.putBytes a bs).coverLines a bs.length

/-- A range of memory zeroised, its lines no longer poisoned (R180, R192). -/
def State.zeroRange (s : State) (a n : Nat) : State :=
  let t := { s with mem := s.mem.filter (fun c => !(decide (a ≤ c.1) && decide (c.1 < a + n))) }
  t.coverLines a n

/-! ### Buffers (R441, R487) -/

/-- Bytes put into a sparse map. -/
def sparsePut (d : Nat → Byte) (m : Sparse Byte) (a : Nat) : List Byte → Sparse Byte
  | [] => m
  | b :: bs => sparsePut d (Sparse.set d m a b) (a + 1) bs

/-- A byte of a buffer that holds 0 where nothing is listed. -/
def zeroByte : Nat → Byte := fun _ => 0

/-- n bytes of SEC_BUF from an offset on. -/
def State.buf (s : State) (off : Nat) : Nat → List Byte
  | 0 => []
  | n + 1 => Sparse.get zeroByte s.sec.buf off :: State.buf s (off + 1) n

/-- Bytes written to SEC_BUF, which holds 256 KiB. -/
def State.bufPut (s : State) (off : Nat) (bs : List Byte) : State :=
  { s with sec := { s.sec with buf := sparsePut zeroByte s.sec.buf off (bs.take (0x40000 - off)) } }

/-! ### Where an MPA lies (R27, R29, R31, R33) -/

/-- What stands at an MPA. -/
inductive Place
  | reserved
  | dram (canton : Nat)
  | cd (d : Nat) (off : Nat)
  | landing (m : Nat)
  | redmem (l : Nat)
  deriving DecidableEq, Repr

/-- Base of canton k's slice in bytes. -/
def State.sliceBase (s : State) (k : Nat) : Nat := s.get (R.ARCH_CANTON_BASE k) F.ARCH_CANTON_BASE_MIB * 2 ^ 20
/-- Size of canton k's slice in bytes. -/
def State.sliceSize (s : State) (k : Nat) : Nat := s.get (R.ARCH_CANTON_SIZE k) F.ARCH_CANTON_SIZE_MIB * 2 ^ 20
/-- Size of canton k's spread region in bytes. -/
def State.spreadSize (s : State) (k : Nat) : Nat := s.get (R.ARCH_CANTON_SPREAD k) F.ARCH_CANTON_SPREAD_MIB * 2 ^ 20
/-- Channels per memory die: 2, or 1 with 16 DIMMs. -/
def State.channels (s : State) : Nat := 1 + s.get R.ARCH_CFG F.ARCH_CFG_POP32
/-- Size of each owned region of canton k: whole MiB, a multiple of the channel count (R33). -/
def State.ownedSize (s : State) (k : Nat) : Nat :=
  let mib := (s.sliceSize k - s.spreadSize k) / 2 ^ 20 / (s.cantonMds k).length
  mib / s.channels * s.channels * 2 ^ 20

/-- Whether group g has a context in canton k (R183, R306). -/
def State.groupIn (s : State) (g k : Nat) : Bool :=
  s.get (R.GC_STATUS g) F.GC_STATUS_STATE != 0 && s.get (R.GC_CFG g) F.GC_CFG_CANTON == k

/-- Whether a canton is parked (R491: its dies and slice answer as reserved). -/
def State.parked (s : State) (k : Nat) : Bool := (s.rd R.PWR_STATUS).toNat.testBit (8 + k)

/-- Whether a quench is in force or its restart is pending (R525): every clock but those of the always-on domain stands. -/
def State.frozen (s : State) : Bool := s.flag R.SF_STATUS F.SF_STATUS_QUENCHED

/-- Whether a die does not answer: it is in reset (R192), it is unusable (R520), its canton is parked, or its clocks stand. -/
def State.dieOff (s : State) (k : Nat) : Bool :=
  s.inReset.getD k false || s.deadDies.contains k || (match s.dieCanton k with | some c => s.parked c | none => false) ||
    (s.frozen && decide (k < 63))


/-- What stands at an MPA. -/
def State.placeOf (s : State) (a : Nat) : Place :=
  if a < 0x80000000000 then
    match (List.range s.cantons).find? (fun k => decide (s.sliceBase k ≤ a) && decide (a < s.sliceBase k + s.sliceSize k)) with
    | none => .reserved
    | some k =>
      let off := a - s.sliceBase k
      if s.parked k then .reserved
      else if off < s.spreadSize k then .dram k
      else if off - s.spreadSize k < s.ownedSize k * (s.cantonMds k).length then .dram k
      else .reserved
  else if a < 0xF00000000000 then .reserved
  else if a < 0xF000A0000000 then
    let d := (a - 0xF00000000000) / 0x4000000
    if s.dieOff d then .reserved else .cd d ((a - 0xF00000000000) % 0x4000000)
  else if a < 0xF00100000000 then .reserved
  else if a < 0xF00108000000 then
    let m := (a - 0xF00100000000) / 0x800000
    if s.dieOff (40 + m) then .reserved else .landing m
  else if a < 0xF00200000000 then .reserved
  else if a < 0xF00201800000 then
    let l := (a - 0xF00200000000) / 0x400000
    if s.dieOff (56 + l) then .reserved else .redmem l
  else .reserved

/-- Memory die, channel and channel-local address of a DRAM address (R31, R33). -/
def State.channelOf (s : State) (a : Nat) : Option (Nat × Nat × Nat) :=
  match s.placeOf a with
  | .dram k =>
    let mds := s.cantonMds k
    let c := s.channels
    let n := mds.length * c
    let off := a - s.sliceBase k
    let page := off / 4096
    if off < s.spreadSize k then
      some (mds.getD (page % n / c) 0, page % n % c, page / n * 4096 + a % 4096)
    else
      let b := off - s.spreadSize k
      let bb := b % s.ownedSize k
      let p := bb / 4096
      some (mds.getD (b / s.ownedSize k) 0, (if c = 2 then p % 2 else 0), s.spreadSize k / n + p / c * 4096 + bb % 4096)
  | _ => none

/-- Base of memory die m's owned region and its size (R31). -/
def State.ownedRegion (s : State) (m : Nat) : Nat × Nat :=
  let k := s.colCanton (m % 8)
  let i := (s.cantonMds k).idxOf m
  (s.sliceBase k + s.spreadSize k + i * s.ownedSize k, s.ownedSize k)

/-- The canton a requester works for. -/
def State.reqCanton (s : State) : Requester → Option Nat
  | .die k => s.dieCanton k
  | .updateEngine m => some (s.colCanton (m.val % 8))
  | .reduction => none
  | .hdma k => some k

/-- The die where a requester's access enters the fabric; the reduction path's, LD0 for all (the model's choice, log 124). -/
def entryDie : Requester → Nat
  | .die k => k
  | .updateEngine m => 40 + m
  | .reduction => 56
  | .hdma _ => 62

/-- Whether a canton's policy allows memory inspection (R28, R432: consent bit 2). -/
def State.inspect (s : State) (k : Nat) : Bool := (s.get (R.CPOL_STATUS k) F.CPOL_STATUS_CONSENT).testBit 2

/-- What R28 says of an access. -/
inductive Verdict | ok | busError (cat : Nat)
  deriving DecidableEq, Repr

/-- The check of R28 at one address. -/
def State.check (s : State) (r : Requester) (write : Bool) (a : Nat) : Verdict :=
  match s.placeOf a with
  | .reserved => .busError 2
  | .dram k => if s.reqCanton r = some k then .ok else .busError 4
  | .cd d _ => if s.reqCanton r = some (s.colCanton (d % 8)) then .ok else .busError 4
  | .landing m =>
    if r = .reduction then .ok
    else if write then .busError 4
    else match r with
      | .updateEngine u => if u.val = m then .ok else .busError 4
      | _ =>
        match s.reqCanton r with
        | some k => if k = s.colCanton (m % 8) ∧ s.inspect k = true then .ok else .busError 4
        | none => .busError 4
  | .redmem _ =>
    if r = .reduction then .ok
    else if write then .busError 4
    else match s.reqCanton r with
      | some k => if s.inspect k = true then .ok else .busError 4
      | none => .busError 4

/-- The check of R28 over a range: its first byte, every MiB boundary in it, and its last byte. Nothing of the address map
begins or ends inside a MiB (R27, R33). -/
def State.checkRange (s : State) (r : Requester) (write : Bool) (a n : Nat) : Verdict :=
  let inner := (List.range ((a + (n - 1)) / 2 ^ 20 - a / 2 ^ 20)).map (fun i => (a / 2 ^ 20 + i + 1) * 2 ^ 20)
  (a :: inner ++ [a + (n - 1)]).foldl (fun v x => match v with | .ok => s.check r write x | e => e) .ok

/-! ### Compute and memory dies -/

/-- Compute die d. -/
def State.cd (s : State) (d : Fin 40) : CDie := s.cds[d]
/-- Compute die d replaced. -/
def State.setCd (s : State) (d : Fin 40) (c : CDie) : State := { s with cds := s.cds.set d c }
/-- Memory die m. -/
def State.md (s : State) (m : Fin 16) : MDie := s.mds[m]
/-- Memory die m replaced. -/
def State.setMd (s : State) (m : Fin 16) (c : MDie) : State := { s with mds := s.mds.set m c }

/-! ### Groups (R304) -/

/-- The context of group g; none while it is FREE. -/
def State.grp (s : State) (g : Nat) : Option Group := (s.groups.find? (fun x => x.1 == g)).map (fun x => x.2)
/-- The context of group g set. -/
def State.setGrp (s : State) (g : Nat) (x : Group) : State :=
  { s with groups := (g, x) :: s.groups.filter (fun y => y.1 != g) }

/-! ### Numbers taken into range -/

/-- A number of a memory die taken into range. -/
def fin16 (n : Nat) : Fin 16 := ⟨n % 16, Nat.mod_lt _ (by decide)⟩
/-- A number of an array taken into range. -/
def fin4 (n : Nat) : Fin 4 := ⟨n % 4, Nat.mod_lt _ (by decide)⟩
/-- A number of a compute die taken into range. -/
def fin40 (n : Nat) : Fin 40 := ⟨n % 40, Nat.mod_lt _ (by decide)⟩

/-! ### Accesses served by the stores of a compute die (R179, R180, R184) -/

/-- Whether a byte of a die's GAS lies in a granule that a drain covers and has not released (R184). -/
def CDie.covers (c : CDie) (off : Nat) : Bool :=
  c.drains.any (fun g => decide (g.line * 64 / 65536 ≤ off / 65536) &&
    decide (off / 65536 ≤ (g.line + g.len - 1) * 64 / 65536) && !g.released.contains (off / 65536))

/-- Whether a range of a die's GAS touches a covered granule. -/
def CDie.coversRange (c : CDie) (off n : Nat) : Bool :=
  (List.range ((off + n + 65535) / 65536 - off / 65536)).any (fun i => c.covers ((off / 65536 + i) * 65536))

/-- Whether a range of a die's window, from its local store on, touches a covered granule. -/
def CDie.coversWindow (c : CDie) (off n : Nat) : Bool :=
  decide (lsBytes < off + n) && c.coversRange (max off lsBytes - lsBytes) (off + n - max off lsBytes)

/-- A write into a store: words written whole are written; the parts of words at its ends are merged, unless the word they
are merged into is poisoned (R179). The Bool: a merged word was poisoned. -/
def State.mergeWrite (s : State) (a : Nat) (bs : List Byte) : State × Bool :=
  let lead := min bs.length ((4 - a % 4) % 4)
  let tail := (bs.length - lead) % 4
  let whole := (bs.drop lead).take (bs.length - lead - tail)
  let part := fun (t : State × Bool) (x : Nat) (l : List Byte) =>
    if l.isEmpty then t else if t.1.poisoned x l.length then (t.1, true) else (t.1.storeWrite x l, t.2)
  let t := part (s, false) a (bs.take lead)
  let t := if whole.isEmpty then t else (t.1.storeWrite (a + lead) whole, t.2)
  part t (a + bs.length - tail) (bs.drop (bs.length - tail))

/-- A write or an addition carried out by a store; a bus error where a word it reads is poisoned. -/
def State.storeApply (s : State) (a : Nat) (op : MpaOp) : State × Bool :=
  match op with
  | .read _ => (s, false)
  | .write bs => s.mergeWrite a bs
  | .add inc => if s.poisoned a 8 then (s, true) else (s.putNum a 8 (s.num a 8 + inc.toNat), false)

/-- An access from the fabric served by a store of a compute die; a write into a covered granule is held (R184). -/
def State.storeAccess (s : State) (src d off a : Nat) (op : MpaOp) : State :=
  match op with
  | .read n => if s.poisoned a n then { s with resp := .busError } else { s with resp := .data (s.bytes a n) }
  | op =>
    if (s.cd (fin40 d)).coversWindow off (match op with | .write bs => bs.length | _ => 8) then
      let c := s.cd (fin40 d)
      s.setCd (fin40 d) { c with held := c.held ++ [⟨src, a, op⟩] }
    else
      let t := s.storeApply a op
      { t.1 with resp := if t.2 then .busError else .done }

/-- A write or an addition by a block of the module to a store: held like any from the fabric; a bus error is delivered
to the die it comes from. -/
def State.storePost (s : State) (src d off a : Nat) (op : MpaOp) : State :=
  if (s.cd (fin40 d)).coversWindow off (match op with | .write bs => bs.length | _ => 8) then
    let c := s.cd (fin40 d)
    s.setCd (fin40 d) { c with held := c.held ++ [⟨src, a, op⟩] }
  else
    let t := s.storeApply a op
    if t.2 then { t.1 with busErrs := t.1.busErrs ++ [(src, a, 0)] } else t.1

/-- The pieces of a range that lie within one 256-byte seal block each (R251): address and length; `fuel` blocks. -/
def blockPieces : Nat → Nat → Nat → List (Nat × Nat)
  | 0, _, _ => []
  | fuel + 1, a, n =>
    if n = 0 then []
    else
      let k := min n (256 - a % 256)
      (a, k) :: blockPieces fuel (a + k) (n - k)

/-- A new request number: the parts forwarded from here on belong to one request. -/
def State.newReq (s : State) : State := { s with reqNo := s.reqNo + 1 }

/-- A part of the current request forwarded to the seal engine that owns a DRAM address. -/
def State.forward (s : State) (src : Nat) (op : MpaOp) (a : Nat) : State :=
  match s.channelOf a with
  | some (m, _, _) =>
    let m := fin16 m
    let c := s.md m
    s.setMd m { c with eng := { c.eng with reqs := c.eng.reqs ++ [⟨s.reqNo, src, op, a⟩] } }
  | none => s

/-- The parts of a write forwarded to seal engines, as parts of the current request (R253, R254). -/
def State.forwardWrite (s : State) (src a : Nat) (bs : List Byte) : State :=
  (blockPieces (bs.length / 256 + 2) a bs.length).foldl
    (fun t p => t.forward src (.write ((bs.drop (p.1 - a)).take p.2)) p.1) s

/-- Bytes written by a die to an MPA: at once into a store, by requests to the seal engine into DRAM (R253, R254). -/
def State.mpaWrite (s : State) (src a : Nat) (bs : List Byte) : State :=
  match s.placeOf a with
  | .dram _ => s.newReq.forwardWrite src a bs
  | .cd d off => s.storePost src d off a (.write bs)
  | .reserved => s
  | _ => s.storeWrite a bs

/-- A pennant's addition by a block of the module (R169): at once into a store, by a request to the seal engine into DRAM. -/
def State.mpaAdd (s : State) (src a inc : Nat) : State :=
  match s.placeOf a with
  | .dram _ => s.newReq.forward src (.add (BitVec.ofNat 64 inc)) a
  | .cd d off => s.storePost src d off a (.add (BitVec.ofNat 64 inc))
  | _ => s

/-- A pennant's addition by a requester (R169), checked as every access of its canton is (R28): at once into a store, by a
request to the seal engine into DRAM. -/
def State.pennantTo (s : State) (r : Requester) (a inc : Nat) : State :=
  match s.checkRange r true a 8 with
  | .busError cat => s.raiseCat cat (entryDie r) 28 (s.reqCanton r) (detail 0 0 a)
  | .ok => s.mpaAdd (entryDie r) a inc

/-- Whether the counters under a counter control register stand: FREEZE (its bit 0) is set, or a CLEAR is made in this FCLK
cycle (R122). -/
def State.countsStand (s : State) (ctl : Nat) : Bool :=
  s.flag ctl (0, 0) || Sparse.get (fun _ => 0) s.cleared ctl == s.now / 3 + 1

/-- A CLEAR under a counter control register: its counters read 0, and what is due in this cycle is lost (R122). -/
def State.clearCounts (s : State) (ctl : Nat) (l : List Nat) : State :=
  { s with cleared := Sparse.set (fun _ => 0) s.cleared ctl (s.now / 3 + 1) }.zeroRegs l

/-- Whether requests of a die still wait at any seal engine for a range of DRAM. -/
def State.waitingAt (s : State) (src a n : Nat) : Bool :=
  s.mds.toList.any (fun m => (m.eng.reqs ++ m.eng.reads).any
    (fun r => r.src == src && decide (a ≤ r.mpa) && decide (r.mpa < a + n)))

/-- Whether a seal engine has answered a request of a die for a range of DRAM with a bus error. -/
def State.erred (s : State) (src a n : Nat) : Bool :=
  s.busErrs.any (fun e => e.1 == src && decide (a ≤ e.2.1) && decide (e.2.1 < a + n))

/-- Whether a request has been answered with a bus error. -/
def State.reqErred (s : State) (id : Nat) : Bool := s.busErrs.any (fun e => e.2.2 == id && id != 0)

/-- The bus errors of a request taken note of. -/
def State.dropErrs (s : State) (id : Nat) : State := { s with busErrs := s.busErrs.filter (fun e => e.2.2 != id) }

/-- Whether parts of a request still wait at any seal engine. -/
def State.reqWaits (s : State) (id : Nat) : Bool :=
  s.mds.toList.any (fun m => (m.eng.reqs ++ m.eng.reads).any (fun r => r.id == id))

end Sys2Proof.Machine
end

