-- ==== Sys2Proof/Machine/SeqOps.lean ====
section
/-! DEFINITION. What the die sequencer and the units share (R162-R168, R190): unit FIFOs, completion signals, queue
faults, refusals recorded by a unit. -/
namespace Sys2Proof.Machine

/-- Opcode of a command (R163). -/
def opcodeOf (w : Cmd) : Nat := cbits w 7 0
/-- UNIT of a command (R163). -/
def unitOf (w : Cmd) : Nat := cbits w 11 8
/-- SIG of a command (R163). -/
def sigOf (w : Cmd) : Nat := cbits w 15 12

/-- The canton of compute die d. -/
def State.cdCanton (s : State) (d : Fin 40) : Nat := s.colCanton (d.val % 8)

/-- The input FIFO of a unit. -/
def CDie.fifo (c : CDie) (u : Fin 8) : List UCmd := c.fifos[u]

/-- A unit's input FIFO replaced. -/
def CDie.setFifo (c : CDie) (u : Fin 8) (l : List UCmd) : CDie := { c with fifos := c.fifos.set u l }

/-- The command at the head of a unit's FIFO. -/
def State.head? (s : State) (d : Fin 40) (u : Fin 8) : Option UCmd := ((s.cd d).fifo u).head?

/-- The head of a unit's FIFO taken away. -/
def State.popHead (s : State) (d : Fin 40) (u : Fin 8) : State :=
  s.setCd d ((s.cd d).setFifo u ((s.cd d).fifo u).tail)

/-- A completion due at a cycle: the increment of counter 16q + SIG (R164, R165). Nothing for SIG = 0 or a repeat. -/
def State.completeAt (s : State) (d : Fin 40) (e : UCmd) (at_ : Nat) : State :=
  if sigOf e.w = 0 ∨ e.quiet = true then s
  else
    let c := s.cd d
    s.setCd d { c with due := c.due ++ [(at_, 16 * e.q.val + sigOf e.w, 1)] }

/-- A completion now: its increment is due in the next cycle (R165). -/
def State.complete (s : State) (d : Fin 40) (e : UCmd) : State := s.completeAt d e (s.aclk + 1)

/-- The fault record of the sequencer (R190): the first fault stays while VALID = 1. -/
def State.recordFault (s : State) (d : Fin 40) (q code unit opcode depth idx : Nat) : State :=
  let a := R.SEQ_FAULT d
  if s.flag a F.SEQ_FAULT_VALID then s
  else
    let x : W32 := BitVec.ofNat 32
      (code % 16 + 16 + (q % 4) * 2 ^ 6 + (unit % 16) * 2 ^ 8 + (opcode % 256) * 2 ^ 12 + (depth % 8) * 2 ^ 20)
    (s.wr a x).wr (R.SEQ_FAULT_IDX d) (BitVec.ofNat 32 (idx % 65536))

/-- A queue enters FAULT (R190): the record, event 0x4260, the interrupt of the die's service cores. -/
def State.queueFault (s : State) (d : Fin 40) (q : Fin 4) (code unit opcode depth idx : Nat) : State :=
  let t := s.recordFault d q code unit opcode depth idx
  let t := t.put (R.SEQ_Q_STATUS d q) F.SEQ_Q_STATUS_STATE 5
  let c := t.cd d
  let qs := { c.queues[q] with fcode := code }
  let t := t.setCd d { c with coreIrq := true, queues := c.queues.set q qs }
  t.raise 0x4260 d (some (s.cdCanton d)) (detail q code (t.rd (R.SEQ_FAULT d)).toNat)

/-- A fault that a unit finds in a command it executes: the unit's FIFO stops with the command at its head (R191). -/
def State.unitFault (s : State) (d : Fin 40) (u : Fin 8) (e : UCmd) (code : Nat) : State :=
  let c := s.cd d
  let qs := { c.queues[e.q] with funit := (c.queues[e.q]).funit ++ [(u, e.seq)] }
  let t := s.setCd d { c with stopped := c.stopped.set u true, queues := c.queues.set e.q qs }
  t.queueFault d e.q code (unitOf e.w) (opcodeOf e.w) e.depth e.idx

/-- A unit's own fault record, CODE [3:0], VALID [4], OPCODE [15:8]: the first refusal stays while VALID = 1. -/
def State.recordRefusal (s : State) (a code opcode : Nat) : State :=
  if (s.rd a).getLsbD 4 then s else s.wr a (BitVec.ofNat 32 (code % 16 + 16 + (opcode % 256) * 256))

/-- The first cause that holds: causes come in ascending order (R118, R155, R190). -/
def firstCause : List (Nat × Bool) → Option Nat
  | [] => none
  | (c, b) :: l => if b then some c else firstCause l

/-- Whether a byte range lies inside a store of `size` bytes. -/
def inStore (size a n : Nat) : Bool := decide (a + n ≤ size)

/-! ### What a queue finds in a command before dispatch (R190, R191) -/

/-- The cause for which a queue refuses the command at its head before dispatch (R190): the lowest code. `canton` is
the die's, `depth` the call depth, `unusable` the arrays BIST has marked. -/
def State.headCause (s : State) (d : Fin 40) (w : Cmd) (depth : Nat) : Option Nat :=
  let u := unitOf w
  let op := opcodeOf w
  let line4 := cbits w 33 16 * 64
  let len4 := (cbits w 51 34 + 1) * 64
  firstCause
    [(1, decide (8 ≤ u)),
     (2, (u == 5 && !(decide (0x50 ≤ op) && decide (op ≤ 0x52))) || (u == 6 && !(decide (0x60 ≤ op) && decide (op ≤ 0x66))) ||
         (u == 7 && !(op == 0x70 || op == 0x71))),
     (3, (u == 5 && ((op == 0x50 && cbits w 127 126 != 0) || (op == 0x51 && cbits w 127 36 != 0) || (op == 0x52 && cbits w 127 113 != 0))) ||
         (u == 6 && ((op == 0x60 && cbits w 127 40 != 0) || (op == 0x61 && cbits w 127 40 != 0) || (op == 0x62 && cbits w 127 112 != 0) ||
           (op == 0x63 && cbits w 127 80 != 0) || (op == 0x64 && cbits w 127 61 != 0) ||
           (op == 0x65 && (cbits w 127 79 != 0 || sigOf w != 0)) || (op == 0x66 && cbits w 127 16 != 0))) ||
         (u == 7 && ((op == 0x70 && cbits w 127 52 != 0) || (op == 0x71 && cbits w 127 81 != 0)))),
     (4, (u == 5 && op == 0x51 && !inStore lsBytes (cbits w 35 16 * 64) 64) ||
         (u == 7 && !inStore gasBytes line4 len4) ||
         (u == 7 && op == 0x71 && (cbits w 33 16 % 64 != 0 || (cbits w 51 34 + 1) % 64 != 0))),
     (5, (u == 6 && op == 0x64 && cbits w 18 16 == 0) || (u == 6 && op == 0x65 && decide (4 ≤ depth))),
     (0xA, u == 7 && op == 0x71 && !s.groupIn (cbits w 63 52) (s.cdCanton d)),
     (0xB, decide (u < 4) && (s.cd d).unusable.any (fun a => a.val == u))]

/-- Whether a command waits in a unit's FIFO. -/
def CDie.waits (c : CDie) (u : Fin 8) (q : Fin 4) (w : Cmd) : Bool := (c.fifo u).any (fun e => e.q == q && e.w == w)

/-- A command of queue q dispatched to a unit, where it does not wait there already (R162): checked as at the head of its
queue (R190), then put behind the commands that wait; nothing where the FIFO has no room. Its place in its queue is that
of HEAD. -/
def State.atHead (s : State) (d : Fin 40) (u : Fin 8) (q : Fin 4) (w : Cmd) : State :=
  let c := s.cd d
  let idx := s.get (R.SEQ_Q_HEAD d q) F.SEQ_Q_HEAD_INDEX
  let depth := (c.queues[q]).stack.length
  if c.waits u q w || decide (16 ≤ (c.fifo u).length) then s
  else match s.headCause d w depth with
    | some code => s.queueFault d q code (unitOf w) (opcodeOf w) depth idx
    | none => s.setCd d { c.setFifo u (c.fifo u ++ [⟨q, w, idx, depth, c.seq, false⟩]) with seq := c.seq + 1 }

/-- Command (q, w) come to a unit, and whether the unit executes it: when it stands at the head of the FIFO (R162). One
that has to wait is dispatched and waits. A die in reset, and one whose clocks stand, does nothing (R110, R157, R192). -/
def State.enter (s : State) (d : Fin 40) (u : Fin 8) (q : Fin 4) (w : Cmd) : State × Bool :=
  if s.dieOff d then (s, false)
  else
    let t := s.atHead d u q w
    (t, match t.head? d u with | some e => e.q == q && e.w == w | none => false)

/-- Whether the module is in the THROTTLED state (half-mast). -/
def State.throttled (s : State) : Bool := s.flag R.PWR_STATUS F.PWR_STATUS_STATE

end Sys2Proof.Machine
end

