-- ==== Sys2Proof/Machine/Operands.lean ====
section
/-! DEFINITION. Operand forms of the vector engine: encoding, ranges, reading and writing of elements (R124-R129, R51,
R132, R156). -/
namespace Sys2Proof.Machine

/-- A vector-engine operand (R124): byte address of a stream, start element of a tile operand (over all tile
registers), a scalar or mask register, none; `bad` for an encoding whose kind is not defined. -/
inductive Opnd | stream (a : Nat) | tile (k : Nat) | scalar (n : Nat) | none | mask (v : Nat) | bad
  deriving DecidableEq, Repr

/-- A 21-bit operand field (R124). -/
def opnd (n : Nat) : Opnd :=
  if n.testBit 20 then .stream (n % 2 ^ 20 * 64)
  else match n / 2 ^ 18 with
    | 0 => .tile (n % 16 * 4096 + n / 16 % 4096)
    | 1 => .scalar (n % 16)
    | 2 => .none
    | 3 => .mask (n % 8)
    | _ => .bad

/-- Whether an operand field has a reserved bit set (R124). -/
def opndReserved (n : Nat) : Bool :=
  if n.testBit 20 then false
  else match n / 2 ^ 18 with
    | 0 => n / 2 ^ 16 % 4 != 0
    | 1 => n % 2 ^ 18 / 16 != 0
    | 2 => n % 2 ^ 18 != 0
    | 3 => n % 2 ^ 18 / 8 != 0
    | _ => false

/-- Element format of a code of R132; none for the integers and E8M0. -/
def vNFmt : Nat → Option NFmt
  | 0 => some .fp32 | 1 => some .bf16 | 2 => some .fp16 | 5 => some .e4m3 | 6 => some .e5m2 | 7 => some .e2m1
  | 13 => some .e4m3 | 14 => some .e5m2 | 15 => some .e2m1 | _ => none

/-- Bits of an element in a format of R132. -/
def vBits : Nat → Nat
  | 0 => 32 | 1 => 16 | 2 => 16 | 3 => 32 | 4 => 8 | 5 => 8 | 6 => 8 | 7 => 4 | 8 => 8 | 13 => 8 | 14 => 8 | 15 => 4
  | _ => 8

/-- Integer formats. -/
def vInt (f : Nat) : Bool := f == 3 || f == 4
/-- Block-scaled formats. -/
def vScaled (f : Nat) : Bool := decide (13 ≤ f)
/-- Reserved format codes. -/
def vReserved (f : Nat) : Bool := decide (9 ≤ f) && decide (f ≤ 12)

/-- An operand element as a value: exact float or integer. -/
inductive Val | f (v : FVal) | i (n : Int)
  deriving DecidableEq, Repr

/-- The float of a value. -/
def Val.float : Val → FVal
  | .f v => v
  | .i n => FVal.ofInt n

/-- The integer of a value (0 for a float). -/
def Val.int : Val → Int
  | .f _ => 0
  | .i n => n

/-- Element k of `bits` bits of a stream at an MPA (R51, R124). -/
def State.elemAt (s : State) (a bits k : Nat) : Nat :=
  if bits = 4 then (s.byte (a + k / 2)).toNat / (if k % 2 = 0 then 1 else 16) % 16
  else s.num (a + k * (bits / 8)) (bits / 8)

/-- Element k of `bits` bits written into a stream. -/
def State.putElem (s : State) (a bits k x : Nat) : State :=
  if bits = 4 then
    let b := (s.byte (a + k / 2)).toNat
    s.putBytes (a + k / 2) [BitVec.ofNat 8 (if k % 2 = 0 then b / 16 * 16 + x % 16 else b % 16 + x % 16 * 16)]
  else s.putNum (a + k * (bits / 8)) (bits / 8) x

/-- Vector engine of die d. -/
def State.ve (s : State) (d : Fin 40) : VEng := (s.cd d).ve
/-- Vector engine of die d replaced. -/
def State.setVe (s : State) (d : Fin 40) (v : VEng) : State := s.setCd d { s.cd d with ve := v }

/-- What an unlisted tile element holds. -/
def tileDefault : Nat → W32 := fun _ => 0

/-- Tile element i (4096t + index) of a vector engine. -/
def VEng.tile (v : VEng) (i : Nat) : Nat := (Sparse.get tileDefault v.tiles i).toNat

/-- Whether a parity error is met at tile element i. -/
def badTile (bad : List VeBad) (i : Nat) : Bool :=
  bad.any (fun b => match b with | .tile t k => t.val * 4096 + k.val == i | _ => false)

/-- Whether a parity error is met in scalar register n. -/
def badScalar (bad : List VeBad) (n : Nat) : Bool :=
  bad.any (fun b => match b with | .scalar m => m.val == n | _ => false)

/-- Whether a parity error is met in a byte of mask register v. -/
def badMask (bad : List VeBad) (v byte : Nat) : Bool :=
  bad.any (fun b => match b with | .mask u k => u.val == v && k.val == byte | _ => false)

/-- Bit k of mask register v; a byte with a parity error reads 0 (R156). -/
def maskBitOf (e : VEng) (bad : List VeBad) (v k : Nat) : Bool :=
  !badMask bad v (k / 8) && (e.masks.getD v 0).toNat.testBit k

/-- A raw 32-bit register element: the parity replacement is the canonical NaN, or −2^31 in the integer domain. -/
def regWord (int lost : Bool) (x : Nat) : Nat := if lost then (if int then 0x80000000 else 0x7FC00000) else x

/-- Element k of a value operand, read in format `fmt` (R126, R156). -/
def State.readElem (s : State) (d : Fin 40) (bad : List VeBad) (o : Opnd) (fmt k : Nat) : Val :=
  let e := s.ve d
  let word := fun (x : Nat) => if vInt fmt then Val.i (signedN 32 x) else Val.f (f32 x)
  match o with
  | .stream a =>
    let c := s.elemAt (lsBase d + a) (vBits fmt) k
    if vInt fmt then .i (signedN (vBits fmt) c)
    else match vNFmt fmt with
      | some f => .f (f.decode c)
      | none => .f .nan
  | .tile i => word (regWord (vInt fmt) (badTile bad (i + k)) (e.tile (i + k)))
  | .scalar n => word (regWord (vInt fmt) (badScalar bad n) (e.scal.getD n 0).toNat)
  | _ => .f .nan

/-- Whether reading the active ones of N elements of an operand meets a parity error (R129, R156). -/
def opndParity (bad : List VeBad) (act : Nat → Bool) (o : Opnd) (n : Nat) : Bool :=
  match o with
  | .tile i => (List.range n).any (fun k => act k && badTile bad (i + k))
  | .scalar m => badScalar bad m && (List.range n).any act
  | .mask v => (List.range n).any (fun k => act k && badMask bad v (k / 8))
  | _ => false

/-- The 32-bit register word of a result code: widened exactly to FP32, or sign-extended to INT32 (R127). -/
def widen (fmt c : Nat) : Nat :=
  if vInt fmt then unsignedN 32 (signedN (vBits fmt) c)
  else match vNFmt fmt with
    | some f => NFmt.fp32.rne (f.decode c)
    | none => c

/-- Element k of a destination written with a result code of format `fmt` (R127). -/
def State.writeElem (s : State) (d : Fin 40) (o : Opnd) (fmt k c : Nat) : State :=
  match o with
  | .stream a => s.putElem (lsBase d + a) (vBits fmt) k c
  | .tile i =>
    let e := s.ve d
    s.setVe d { e with tiles := Sparse.set tileDefault e.tiles (i + k) (BitVec.ofNat 32 (widen fmt c)) }
  | .scalar n =>
    let e := s.ve d
    s.setVe d { e with scal := e.scal.setIfInBounds n (BitVec.ofNat 32 (widen fmt c)) }
  | _ => s

/-- Elements of a destination written from `k` on; `none` leaves an element as it is (R129). -/
def State.writeElems (s : State) (d : Fin 40) (o : Opnd) (fmt : Nat) : Nat → List (Option Nat) → State
  | _, [] => s
  | k, x :: xs =>
    State.writeElems (match x with | some c => s.writeElem d o fmt k c | none => s) d o fmt (k + 1) xs

/-- Mask register v with bits from `k` on written. -/
def writeMaskBits (m : BitVec 8192) : Nat → List (Option Bool) → BitVec 8192
  | _, [] => m
  | k, x :: xs =>
    let one := BitVec.ofNat 8192 (2 ^ k)
    writeMaskBits (match x with | some true => m ||| one | some false => m &&& ~~~ one | none => m) (k + 1) xs

/-- Bits of a mask register of die d written. -/
def State.writeMask (s : State) (d : Fin 40) (v k : Nat) (bs : List (Option Bool)) : State :=
  let e := s.ve d
  s.setVe d { e with masks := e.masks.setIfInBounds v (writeMaskBits (e.masks.getD v 0) k bs) }

/-- Bytes of a stream of n elements. -/
def streamLen (fmt n : Nat) : Nat := (n * vBits fmt + 7) / 8

/-- The byte range in the local store, or the element range over the tile registers, of an operand of n elements. -/
inductive Span | none | ls (a n width : Nat) | tile (k n : Nat)
  deriving DecidableEq, Repr

/-- The range an operand covers. -/
def spanOf (o : Opnd) (fmt n : Nat) : Span :=
  match o with
  | .stream a => .ls a (streamLen fmt n) (vBits fmt)
  | .tile k => .tile k n
  | _ => .none

/-- Whether a range lies inside its store (0x4) and its tile registers (0x5). -/
def spanFault (sp : Span) : Bool × Bool :=
  match sp with
  | .none => (false, false)
  | .ls a n _ => (!inStore lsBytes a n, false)
  | .tile k n => (false, decide (65536 < k + n))

/-- Whether a destination overlaps a source otherwise than from the same element with the same width (R150). -/
def spanClash (dst src : Span) : Bool :=
  match dst, src with
  | .ls a n w, .ls b m v => decide (a < b + m) && decide (b < a + n) && !(a == b && w == v)
  | .tile k n, .tile j m => decide (k < j + m) && decide (j < k + n) && k != j
  | _, _ => false

/-- Whether two destinations overlap at all. -/
def spanMeet (x y : Span) : Bool :=
  match x, y with
  | .ls a n _, .ls b m _ => decide (a < b + m) && decide (b < a + n)
  | .tile k n, .tile j m => decide (k < j + m) && decide (j < k + n)
  | _, _ => false

end Sys2Proof.Machine
end

