-- ==== Sys2Proof/Machine/Ports.lean ====
section
/-! DEFINITION. Ports of the package fabric (R18-R40) and torus ports: what register writes, trainings and resets share
(R335-R353, R368, R369). -/
namespace Sys2Proof.Machine

/-! ### Ports of the package fabric (R18, R20, R37, R40) -/

/-- The die at a floor-plan position. -/
def dieAt (col row : Nat) : Nat :=
  if row = 0 then 40 + col
  else if row < 6 then 8 * (row - 1) + col
  else if row = 6 then 48 + col
  else [56, 58, 60, 63, 62, 61, 59, 57].getD col 63

/-- The die across a fabric port: 0 north, 1 east, 2 south, 3 west; none at the edge of the mesh. -/
def neighbour (die port : Nat) : Option Nat :=
  let p := diePos die
  if port = 0 then (if p.2 = 0 then none else some (dieAt p.1 (p.2 - 1)))
  else if port = 1 then (if p.1 = 7 then none else some (dieAt (p.1 + 1) p.2))
  else if port = 2 then (if p.2 = 7 then none else some (dieAt p.1 (p.2 + 1)))
  else (if p.1 = 0 then none else some (dieAt (p.1 - 1) p.2))

/-- Whether a fabric link is fenced: a horizontal link of rows 0-6 between columns of two cantons, of 2^log (R37). -/
def fenced (log die port : Nat) : Bool :=
  match neighbour die port with
  | none => false
  | some o => decide ((diePos die).2 < 7) && cantonOfCol log (diePos die).1 != cantonOfCol log (diePos o).1

/-- Whether a die's port has been declared down (R20). -/
def State.portDown (s : State) (die port : Nat) : Bool := (s.get (R.FAB_PORT_STATUS (dieCrs die)) F.FAB_PORT_STATUS_DOWN).testBit port

/-- Whether a link carries no flit: fenced, or declared down on either side. -/
def State.linkShut (s : State) (die port : Nat) : Bool :=
  match neighbour die port with
  | none => true
  | some o => fenced s.cantonLog die port || s.portDown die port || s.portDown o ((port + 2) % 4)

/-- Whether a port trains: its link is neither fenced nor down nor found unusable, and the dies of both ends answer. -/
def State.portTrains (s : State) (log die port : Nat) : Bool :=
  match neighbour die port with
  | none => false
  | some o =>
    !fenced log die port && !s.portDown die port && !s.portDown o ((port + 2) % 4) && !s.dieOff die && !s.dieOff o &&
      !s.rel.unusable.contains (die, 0x200 + port) && !s.rel.unusable.contains (o, 0x200 + (port + 2) % 4)

/-- UP of one port of a die. -/
def State.fabUp (s : State) (die port : Nat) (on : Bool) : State :=
  let a := R.FAB_PORT_STATUS (dieCrs die)
  let up := s.get a F.FAB_PORT_STATUS_UP
  s.put a F.FAB_PORT_STATUS_UP (if on then up ||| 2 ^ port else if up.testBit port then up - 2 ^ port else up)

/-- UP and FENCED of every port after dies have come up or gone (R37, R40). -/
def State.trainFabric (s : State) (log : Nat) : State :=
  (List.range 64).foldl (fun t d =>
    let bits := fun (f : Nat → Bool) => [0, 1, 2, 3].foldl (fun a p => if f p then a + 2 ^ p else a) 0
    let a := R.FAB_PORT_STATUS (dieCrs d)
    (t.put a F.FAB_PORT_STATUS_UP (bits (t.portTrains log d))).put a F.FAB_PORT_STATUS_FENCED
      (if t.dieOff d then 0 else bits (fenced log d))) s

/-- Ticks per second. -/
def secTicks : Nat := 4200000000
/-- Ticks per millisecond. -/
def msTicks : Nat := 4200000

/-- Port l. -/
def State.port (s : State) (l : Fin 6) : LinkPort := s.ports[l]
/-- Port l replaced. -/
def State.setPort (s : State) (l : Fin 6) (p : LinkPort) : State := { s with ports := s.ports.set l p }
/-- Plane k of port l. -/
def State.plane (s : State) (l : Fin 6) (k : Fin 8) : LinkPlane := (s.port l).planes[k]
/-- Plane k of port l replaced. -/
def State.setPlane (s : State) (l : Fin 6) (k : Fin 8) (p : LinkPlane) : State :=
  s.setPort l { s.port l with planes := (s.port l).planes.set k p }
/-- STATE of a port: 0 UNUSED, 1 TRAIN, 2 UP, 3 DOWN. -/
def State.portState (s : State) (l : Fin 6) : Nat := s.get (R.LK_STATUS l) F.LK_STATUS_STATE
/-- Port numbers. -/
def allPorts : List (Fin 6) := [0, 1, 2, 3, 4, 5]
/-- Plane numbers. -/
def allPlanes : List (Fin 8) := [0, 1, 2, 3, 4, 5, 6, 7]
/-- A number taken as a port. -/
def fin6 (n : Nat) : Fin 6 := ⟨n % 6, Nat.mod_lt _ (by decide)⟩
/-- A number taken as a plane or canton. -/
def fin8 (n : Nat) : Fin 8 := ⟨n % 8, Nat.mod_lt _ (by decide)⟩

/-- A link counter raised, unless LK_CNT_CTL.FREEZE holds it (R369). -/
def State.lkCount (s : State) (l : Fin 6) (a : Nat) (n : Nat) : State :=
  if s.countsStand (R.LK_CNT_CTL l) then s else s.bump a (31, 0) n

/-- An event of a torus port (R368, R509): port, plane, a counter. -/
def State.linkEvent (s : State) (l : Fin 6) (code plane value : Nat) : State :=
  s.raise code (56 + l.val) none (detail l plane value)

/-- An event of a port raised at most `cap` times a second (R361, R368): kind 0 epoch, 1 resend, 2 tag. -/
def State.linkEventCapped (s : State) (l : Fin 6) (kind : Fin 3) (cap code plane value : Nat) : State :=
  let p := s.port l
  let sec := s.now / secTicks
  let n := if p.rates[kind].1 = sec then p.rates[kind].2 else 0
  if cap ≤ n then s
  else (s.setPort l { p with rates := p.rates.set kind (sec, n + 1) }).linkEvent l code plane value

/-- Epoch and sequence registers of a port cleared. -/
def State.zeroEpochs (s : State) (l : Fin 6) : State :=
  allPlanes.foldl (fun t k => t.zeroRegs [R.LK_EPOCH l k.val, R.LK_SEQ_LO l k.val, R.LK_SEQ_HI l k.val]) s

/-- A port leaves its session (R351): packets in the replay buffer and above gaps are discarded and counted in LK_DROP,
every key is destroyed, every sequence number is 0; STATE is set. A port that was UP is down from now on. -/
def State.endSession (s : State) (l : Fin 6) (st : Nat) : State :=
  let p := s.port l
  let lost := p.planes.toList.foldl (fun n x => n + x.replay.length + x.held.length) 0
  let t := s.setPort l { p with
    control := none, cseq := 0, ctlFails := 0, retryAt := none
    planes := p.planes.map (fun x => { LinkPlane.reset with dropped := x.dropped })
    downAt := if s.portState l = 2 then s.now else p.downAt }
  ((t.lkCount l (R.LK_DROP l) lost).zeroEpochs l).put (R.LK_STATUS l) F.LK_STATUS_STATE st

/-- A training starts (R349): an LRST. A port held down by LK_CFG.EN stays DOWN; an UNUSED port does nothing. -/
def State.startTraining (s : State) (l : Fin 6) : State :=
  if s.portState l = 0 then s
  else s.endSession l (if s.flag (R.LK_CFG l) F.LK_CFG_EN then 1 else 3)

/-- A port goes down (R352): DOWNSEEN, event 0x2243, and it retrains. -/
def State.linkDown (s : State) (l : Fin 6) : State :=
  if s.portState l = 0 then s
  else ((s.put (R.LK_STATUS l) F.LK_STATUS_DOWNSEEN 1).startTraining l).linkEvent l 0x2243 0 (s.rd (R.LK_DROP l)).toNat

/-! ### The torus (R353-R355) -/

/-- Coordinate of a module on axis 0-2 (R353). -/
def State.moduleCoord (s : State) (id axis : Nat) : Nat :=
  if axis = 0 then id % max s.torusLen.1 1
  else if axis = 1 then id / max s.torusLen.1 1 % max s.torusLen.2.1 1
  else id / max s.torusLen.1 1 / max s.torusLen.2.1 1 % max s.torusLen.2.2 1

/-- Length of axis 0-2. -/
def State.axisLen (s : State) (axis : Nat) : Nat :=
  max (if axis = 0 then s.torusLen.1 else if axis = 1 then s.torusLen.2.1 else s.torusLen.2.2) 1

/-- Module ID of coordinates (R353). -/
def State.moduleIdOf (s : State) (x y z : Nat) : Nat := x + s.axisLen 0 * (y + s.axisLen 1 * z)

/-- The module that faces port l (R335, R353). -/
def State.facing (s : State) (l : Fin 6) : Nat :=
  let step := fun (axis : Nat) =>
    let c := s.moduleCoord s.moduleId axis
    if axis = l.val / 2 then (if l.val % 2 = 0 then c + 1 else c + s.axisLen axis - 1) % s.axisLen axis else c
  s.moduleIdOf (step 0) (step 1) (step 2)

/-- The port by which a packet for DST (module in bits 16:0, directions in bits 19:17) leaves (R355); none where it has
arrived. -/
def State.outPort (s : State) (dst : Nat) : Option (Fin 6) :=
  let m := bitsN dst 16 0
  match [0, 1, 2].find? (fun axis => s.moduleCoord m axis != s.moduleCoord s.moduleId axis) with
  | none => none
  | some axis => some (fin6 (2 * axis + (if dst.testBit (17 + axis) then 1 else 0)))

/-- DST with the direction bits of the shorter way round on each axis, ties + (R354). -/
def State.shortWay (s : State) (m : Nat) : Nat :=
  [0, 1, 2].foldl (fun d axis =>
    let n := s.axisLen axis
    if (s.moduleCoord m axis + n - s.moduleCoord s.moduleId axis) % n ≤ n / 2 then d else d + 2 ^ (17 + axis)) m

/-- Whether the hop out of port l crosses the dateline of its axis (R355). -/
def State.dateline (s : State) (l : Fin 6) : Bool :=
  let c := s.moduleCoord s.moduleId (l.val / 2)
  if l.val % 2 = 0 then c + 1 == s.axisLen (l.val / 2) else c == 0

/-- Port ID (R353): module, port, plane. -/
def portId (module port plane : Nat) : Nat := module % 2 ^ 17 + port % 8 * 2 ^ 17 + plane % 8 * 2 ^ 20

end Sys2Proof.Machine
end

