-- ==== Sys2Proof/Machine/Crypto.lean ====
section
/-! DEFINITION. Sealed records: the shape of what the opaque cryptographic functions of Config answer (R296, R414). -/
namespace Sys2Proof.Machine

/-- A byte string brought to a length. -/
def fit (n : Nat) (bs : List Byte) : List Byte := (bs ++ List.replicate (n - bs.length) 0).take n

/-- AES-256-GCM: ciphertext and 16-byte tag. -/
def gcmSeal (key nonce aad plain : List Byte) : List Byte :=
  fit (plain.length + 16) (Config.crypto "AES-256-GCM" (key ++ nonce ++ aad ++ plain))

/-- AES-256-GCM: the plaintext of a sealed text whose tag holds. -/
def gcmOpen (key nonce aad sealed_ : List Byte) : Option (List Byte) :=
  if Config.verify "AES-256-GCM" (key ++ nonce ++ aad ++ sealed_) then
    some (fit (sealed_.length - 16) (Config.crypto "AES-256-GCM-OPEN" (key ++ nonce ++ aad ++ sealed_)))
  else none

/-- The bytes of a text label. -/
def label (t : String) : List Byte := t.toList.map (fun c => BitVec.ofNat 8 c.toNat)

/-- HMAC-SHA-512 of a message under a key. -/
def hmac (key msg : List Byte) : List Byte := fit 64 (Config.crypto "HMAC-SHA-512" (key ++ msg))

/-- SHA-512. -/
def sha512 (msg : List Byte) : List Byte := fit 64 (Config.crypto "SHA-512" msg)

end Sys2Proof.Machine
end

