-- ==== Sys2Proof/Machine/Galois.lean ====
section
/-! DEFINITION. Arithmetic of GF(2^8) (R235, R425) and of GF(2^128) (R242). -/
namespace Sys2Proof.Machine

/-- Product in GF(2^8) with x^8 + x^4 + x^3 + x + 1: `fuel` bits of b still to take. -/
def gfMulAux : Nat → Nat → Nat → Nat → Nat
  | 0, _, _, acc => acc
  | n + 1, a, b, acc =>
    let a2 := if a < 128 then 2 * a else (2 * a) ^^^ 0x11B
    gfMulAux n a2 (b / 2) (if b % 2 = 1 then acc ^^^ a else acc)

/-- Product in GF(2^8). -/
def gfMul (a b : Nat) : Nat := gfMulAux 8 a b 0

/-- a to the power n in GF(2^8). -/
def gfPow (a : Nat) : Nat → Nat
  | 0 => 1
  | n + 1 => gfMul a (gfPow a n)

/-- Inverse in GF(2^8). -/
def gfInv (a : Nat) : Nat := gfPow a 254

/-- Product of GHASH (R242, NIST SP 800-38D): `fuel` bits of x still to take, the most significant first; v is the other
factor shifted on, z the sum so far. -/
def ghashMulAux : Nat → BitVec 128 → BitVec 128 → BitVec 128 → BitVec 128
  | 0, _, _, z => z
  | n + 1, x, v, z =>
    ghashMulAux n (x <<< 1) (if v.getLsbD 0 then (v >>> 1) ^^^ (0xE1 : BitVec 128) <<< 120 else v >>> 1)
      (if x.getLsbD 127 then z ^^^ v else z)

/-- Product of GHASH. -/
def ghashMul (x y : BitVec 128) : BitVec 128 := ghashMulAux 128 x y 0

/-- GHASH of blocks under a hash key. -/
def ghash (h : BitVec 128) (xs : List (BitVec 128)) : BitVec 128 := xs.foldl (fun y x => ghashMul (y ^^^ x) h) 0

end Sys2Proof.Machine
end

