-- ==== Sys2Proof/Machine/Dimm.lean ====
section
/-! DEFINITION. What stands in a DIMM and how it is coded: bursts (R235, R236), regions (R237), the cipher and its tags
(R240-R242), counter lines (R243). -/
namespace Sys2Proof.Machine

/-! ### Bursts (R235, R236) -/

/-- One burst of a subchannel: 16 beats of 40 bits. -/
abbrev Beats := List (BitVec 40)

/-- The 8-bit symbol that codeword i takes from device d: the device's 4 bits on beats 2i and 2i + 1, the earlier beat in
the low half (the model's choice, log 126). -/
def symbolOf (b : Beats) (i d : Nat) : Nat :=
  let nib := fun (t : Nat) => (b.getD t 0).toNat / 16 ^ d % 16
  nib (2 * i) + 16 * nib (2 * i + 1)

/-- The ten symbols of codeword i. -/
def codeword (b : Beats) (i : Nat) : List Nat := (List.range 10).map (symbolOf b i)

/-- A check sum of a codeword: symbol j weighted by 2^(k·j). -/
def syndrome (k : Nat) (c : List Nat) : Nat := c.zipIdx.foldl (fun n p => n ^^^ gfMul (gfPow 2 (k * p.2)) p.1) 0

/-- A codeword as the code reads it: unchanged where both sums are 0, one symbol corrected where one explains them, none
where the error is detected (R236). -/
def decodeWord (c : List Nat) : Option (List Nat) :=
  let s0 := syndrome 0 c
  let s1 := syndrome 1 c
  if s0 = 0 ∧ s1 = 0 then some c
  else if s0 = 0 then none
  else ((List.range 10).find? (fun j => gfMul (gfPow 2 j) s0 == s1)).map (fun j => c.set j (c.getD j 0 ^^^ s0))

/-- The codeword of eight data symbols: check symbols that make both sums 0. Generator 2, field x^8 + x^4 + x^3 + x + 1
(the model's choice, log 126). -/
def encodeWord (data : List Nat) : List Nat :=
  let a := syndrome 0 data
  let b := syndrome 1 data
  let c9 := gfMul (b ^^^ gfMul (gfPow 2 8) a) (gfInv (gfPow 2 9 ^^^ gfPow 2 8))
  data ++ [a ^^^ c9, c9]

/-- A burst of 64 bytes of data: byte 8i + d is the symbol of codeword i on device d (the model's choice, log 126). -/
def encodeBurst (data : List Byte) : Beats :=
  let words := (List.range 8).map (fun i => encodeWord ((List.range 8).map (fun d => (data.getD (8 * i + d) 0).toNat)))
  (List.range 16).map (fun t => BitVec.ofNat 40 ((words.getD (t / 2) []).zipIdx.foldl (fun n p => n + p.1 / 16 ^ (t % 2) % 16 * 16 ^ p.2) 0))

/-- The 64 bytes of a burst after correction; none where a codeword shows a detected error. -/
def decodeBurst (b : Beats) : Option (List Byte) :=
  let words := (List.range 8).map (fun i => decodeWord (codeword b i))
  if words.any (fun w => w.isNone) then none
  else some (words.flatMap (fun w => ((w.getD []).take 8).map (fun x => BitVec.ofNat 8 x)))

/-- What a fetch of one item from a DIMM meets (R236, R242, R255): good, corrected by the code, uncorrectable, or wrong
bytes that only the seal tag tells. -/
inductive Fetch | ok | corrected | ecc | badTag
  deriving DecidableEq, Repr

/-- What the errors of an item's bursts make of its fetch. The code is linear, so the bursts of the errors alone say what is
left after correction. -/
def fetchOf (errs : BurstErrs) : Fetch :=
  let left := errs.map decodeBurst
  if left.any (fun r => r.isNone) then .ecc
  else if left.any (fun r => (r.getD []).any (fun x => x != 0)) then .badTag
  else if errs.any (fun b => b.any (fun x => x != 0)) then .corrected
  else .ok

/-- Whether slot i (8 bytes) of a tag line comes out wrong. -/
def slotWrong (errs : BurstErrs) (i : Nat) : Bool :=
  errs.any (fun b => match decodeBurst b with
    | some r => ((r.drop (8 * i)).take 8).any (fun x => x != 0)
    | none => false)

/-! ### Regions of a channel's DIMM (R237) -/

/-- Start of the data tags of a DIMM that holds n MiB of data. -/
def tagBase (n : Nat) : Nat := n * 2 ^ 20
/-- Start of the L1 lines. -/
def l1Base (n : Nat) : Nat := tagBase n + n * 32768
/-- Start of the L1 tags. -/
def l1tBase (n : Nat) : Nat := l1Base n + n * 4096
/-- Start of the L2 lines. -/
def l2Base (n : Nat) : Nat := l1tBase n + n * 512
/-- Start of the L2 tags. -/
def l2tBase (n : Nat) : Nat := l2Base n + n * 64
/-- Start of the mirror. -/
def mirBase (n : Nat) : Nat := l2tBase n + n * 8
/-- Start of the park area. -/
def parkBase (n : Nat) : Nat := (mirBase n + n * 72 + 4095) / 4096 * 4096

/-- DIMM address of line `idx` of level 1 or 2. -/
def lineAddr (n level idx : Nat) : Nat := if level = 1 then l1Base n + 64 * idx else l2Base n + 64 * idx
/-- DIMM address of the tag of a data block (level 0), an L1 line or an L2 line. -/
def tagAddr (n level idx : Nat) : Nat :=
  if level = 0 then tagBase n + 8 * idx else if level = 1 then l1tBase n + 8 * idx else l2tBase n + 8 * idx
/-- Address in the mirror channel's DIMM of L2 line q (`tag` false) or its tag; n is the mirrored channel's. -/
def mirrorAddr (own n q : Nat) (tag : Bool) : Nat := if tag then mirBase own + 64 * n + 8 * q else mirBase own + 64 * q

/-! ### The cipher (R240-R242) -/

/-- The counter block of an item (R240): MAJOR, MINOR, channel number, index, level and word, as 16 bytes, the most
significant first. -/
def counterBlock (major minor chan index level word : Nat) : List Byte :=
  (leBytes 16 (major * 2 ^ 64 + minor * 2 ^ 57 + chan * 2 ^ 52 + index * 2 ^ 16 + level * 2 ^ 12 + word)).reverse

/-- AES-256 of one block. -/
def aes (key block : List Byte) : List Byte := fit 16 (Config.crypto "AES-256" (key ++ block))

/-- A 16-byte word encrypted, or decrypted, under a counter block (R241). -/
def cipherWord (key cb word : List Byte) : List Byte := List.zipWith (fun a b => a ^^^ b) word (aes key cb)

/-- A block of bytes as GHASH takes it: the first byte the most significant. -/
def wordOf (bs : List Byte) : BitVec 128 := BitVec.ofNat 128 (leNat bs.reverse)

/-- The tag of an item (R242): GHASH over its 16-byte words and its length block, under H = AES(K_tag, 0), xor the AES of
its counter block; bits [63:0], stored least significant byte first (the model's choice, log 126). -/
def sealTag (key cb item : List Byte) : List Byte :=
  let words := (List.range (item.length / 16)).map (fun i => wordOf ((item.drop (16 * i)).take 16))
  let h := wordOf (aes key (List.replicate 16 0))
  leBytes 8 ((ghash h (words ++ [BitVec.ofNat 128 (8 * item.length)]) ^^^ wordOf (aes key cb)).toNat % 2 ^ 64)

/-! ### Counter lines (R243) -/

/-- The 64 bytes of a counter line: MAJOR, then 64 minors of 7 bits. -/
def lineBytes (major : Nat) (minors : List Nat) : List Byte :=
  leBytes 8 major ++ leBytes 56 (minors.zipIdx.foldl (fun n p => n + p.1 % 128 * 2 ^ (7 * p.2)) 0)

end Sys2Proof.Machine
end

