-- ==== Sys2Proof/Machine/Shards.lean ====
section
/-! DEFINITION. Shard descriptors, their geometry and the working-copy layout (R196-R200, R268-R272). -/
namespace Sys2Proof.Machine

/-- A field of a structure in memory, as a number. -/
def fieldAt (bs : List Byte) (off n : Nat) : Nat := leNat ((bs.drop off).take n)

/-- Whether every byte of a range is 0. -/
def zeroAt (bs : List Byte) (off n : Nat) : Bool := ((bs.drop off).take n).all (· == 0)

/-- A descriptor read from its 256 bytes (R270); `spare` says that a reserved bit or byte is not 0. -/
def parseDesc (b : List Byte) : ShardDesc :=
  let x3 := fieldAt b 3 1
  let x6 := fieldAt b 6 1
  let x7 := fieldAt b 7 1
  let dims := fun (o : Nat) => (List.range 4).map (fun d => fieldAt b (o + 6 * d) 6)
  let mpa := fun (o : Nat) => fieldAt b o 6
  let vec := x3 % 4 == 0
  let scaled := x7 % 8 == 0 || x7 % 8 == 1 || x7 % 8 == 2
  let outer := x6.testBit 2
  -- the fields of arrays that the shard uses (R272), in the order of the table: the others are ignored whatever they hold
  let used := [true, true, x6 % 4 == 0, true, !vec && scaled, !vec, !vec && scaled, x6 % 4 == 2 || outer, true, outer, outer]
  let high := (List.range 11).any (fun i => used.getD i false && fieldAt b (112 + 8 * i + 6) 2 != 0)
  { tensor := fieldAt b 0 3, ndim := x3 % 4, valid := x3.testBit 7, layer := fieldAt b 4 2, opt := x6 % 4,
    outer := x6.testBit 2, frozen := x6.testBit 3, wfmt := x7 % 8, mbf16 := x7.testBit 3, srm := x7.testBit 4,
    srw := x7.testBit 5, src := x7.testBit 6,
    spare := bitsN x3 6 2 != 0 || bitsN x6 7 4 != 0 || x7.testBit 7 || !zeroAt b 108 4 || !zeroAt b 200 56 || high,
    shape := dims 8, lo := dims 32, hi := dims 56, lrmul := fieldAt b 80 4, decay := fieldAt b 84 4,
    beta1 := fieldAt b 88 4, beta2 := fieldAt b 92 4, eps := fieldAt b 96 4, olr := fieldAt b 100 4,
    omu := fieldAt b 104 4, master := mpa 112, mom1 := mpa 120, mom2 := mpa 128, plain := mpa 136, pscale := mpa 144,
    trans := mpa 152, tscale := mpa 160, recov := mpa 168, jcopy := mpa 176, snap := mpa 184, omom := mpa 192 }

/-- Whether the shard is a vector (R271). -/
def ShardDesc.vector (d : ShardDesc) : Bool := d.ndim == 0
/-- Shape in a dimension. -/
def ShardDesc.shp (d : ShardDesc) (i : Nat) : Nat := d.shape.getD i 1
/-- Shard extent in a dimension. -/
def ShardDesc.ext (d : ShardDesc) (i : Nat) : Nat := d.hi.getD i 0 + 1 - d.lo.getD i 0
/-- Whether the working format has block scales. -/
def ShardDesc.scaled (d : ShardDesc) : Bool := d.wfmt == 0 || d.wfmt == 1 || d.wfmt == 2
/-- Element format of the working copies (codes of R112). -/
def ShardDesc.fmt (d : ShardDesc) : NFmt :=
  if d.wfmt = 0 then .e4m3 else if d.wfmt = 1 then .e5m2 else if d.wfmt = 2 then .e2m1 else .bf16
/-- Side of a square (R271). -/
def ShardDesc.side (d : ShardDesc) : Nat := if d.wfmt = 2 then 256 else 128
/-- Reduction indices per tile (R196). -/
def ShardDesc.tk (d : ShardDesc) : Nat := if d.wfmt = 2 then 256 else if d.wfmt = 4 then 64 else 128
/-- K_s. -/
def ShardDesc.ks (d : ShardDesc) : Nat := d.ext 2
/-- N_s; the length of a vector. -/
def ShardDesc.ns (d : ShardDesc) : Nat := d.ext 3
/-- Matrices of the shard. -/
def ShardDesc.mats (d : ShardDesc) : Nat := d.ext 0 * d.ext 1
/-- Quotient rounded up. -/
def ceilDiv (a b : Nat) : Nat := (a + b - 1) / b
/-- Squares along K. -/
def ShardDesc.kq (d : ShardDesc) : Nat := ceilDiv d.ks d.side
/-- Squares along N. -/
def ShardDesc.nq (d : ShardDesc) : Nat := ceilDiv d.ns d.side
/-- Elements of a square. -/
def ShardDesc.sq (d : ShardDesc) : Nat := if d.vector then 16384 else d.side * d.side
/-- Squares of the shard. -/
def ShardDesc.nsq (d : ShardDesc) : Nat := if d.vector then ceilDiv d.ns 16384 else d.mats * d.kq * d.nq
/-- Landing granules of a square (R273). -/
def ShardDesc.grans (d : ShardDesc) : Nat := if d.wfmt = 2 then 4 else 1
/-- Bytes of a moment. -/
def ShardDesc.mbytes (d : ShardDesc) : Nat := if d.mbf16 then 2 else 4

/-- Matrix, first k and first n of a square (R271). -/
def ShardDesc.origin (d : ShardDesc) (s : Nat) : Nat × Nat × Nat :=
  if d.vector then (0, 0, 16384 * s)
  else
    let r := s % (d.kq * d.nq)
    (s / (d.kq * d.nq), r % d.kq * d.side, r / d.kq * d.side)

/-- Whether element i of a square lies inside the shard (R271: the others are padding). -/
def ShardDesc.present (d : ShardDesc) (s i : Nat) : Bool :=
  let o := d.origin s
  if d.vector then decide (o.2.2 + i < d.ns)
  else decide (o.2.1 + i / d.side < d.ks) && decide (o.2.2 + i % d.side < d.ns)

/-- Bytes a tile of the plain (`tr = false`) or transposed copy and its scale tile take, and tiles per matrix (R197). -/
def ShardDesc.tiles (d : ShardDesc) (tr : Bool) : Nat :=
  if tr then ceilDiv d.ns d.tk * ceilDiv d.ks 128 else ceilDiv d.ks d.tk * ceilDiv d.ns 128
/-- Bytes of a scale tile (R196). -/
def ShardDesc.stile (d : ShardDesc) : Nat := if d.wfmt = 2 then 1024 else 512

/-- An array of a shard: what it is (kinds of SEAL_PREC0.KIND, 7 for REC, SNAP and OMOM), its MPA, its size. -/
structure ShardArray where
  kind : Nat
  mpa : Nat
  bytes : Nat
  align : Nat
  deriving DecidableEq, Repr

/-- The arrays a shard uses (R272). -/
def ShardDesc.arrays (d : ShardDesc) : List ShardArray :=
  let e := d.nsq * d.sq
  let m := d.nsq * d.sq * d.mbytes
  [⟨0, d.master, 4 * e, 4096⟩, ⟨1, d.mom1, m, 4096⟩,
   ⟨3, d.plain, if d.vector then 2 * e else 16384 * d.tiles false * d.mats, 16384⟩, ⟨6, d.jcopy, 256, 256⟩] ++
  (if d.opt = 0 then [⟨2, d.mom2, m, 4096⟩] else []) ++
  (if d.opt = 2 ∨ d.outer = true then [⟨7, d.recov, if d.outer then 4 * d.sq else d.sq / 4, 4096⟩] else []) ++
  (if d.outer then [⟨7, d.snap, 4 * e, 4096⟩, ⟨7, d.omom, 4 * e, 4096⟩] else []) ++
  (if d.vector then [] else [⟨4, d.trans, 16384 * d.tiles true * d.mats, 16384⟩]) ++
  (if !d.vector && d.scaled then
    [⟨5, d.pscale, d.stile * d.tiles false * d.mats, 4096⟩, ⟨5, d.tscale, d.stile * d.tiles true * d.mats, 4096⟩] else [])

/-- Whether a range of a weight shard starts and ends on whole tiles, or ends at the tensor edge (R198, R272). -/
def rangeAligned (step lo hi shape : Nat) : Bool := lo % step == 0 && ((hi + 1) % step == 0 || hi + 1 == shape)

/-- Whether a descriptor may be used (R272), in an owned region (its base and size). -/
def ShardDesc.ok (d : ShardDesc) (own : Nat × Nat) : Bool :=
  !d.spare && decide (d.opt < 3) && (d.wfmt == 4 || (d.scaled && !d.vector)) && decide (d.layer < 65535) &&
  (List.range (3 - d.ndim)).all (fun i => d.shp i == 1) && (List.range 4).all (fun i => d.shp i != 0) &&
  decide (d.shp 0 * d.shp 1 * d.shp 2 * d.shp 3 ≤ 2 ^ 48) &&
  (List.range 4).all (fun i => decide (d.lo.getD i 0 ≤ d.hi.getD i 0) && decide (d.hi.getD i 0 < d.shp i)) &&
  decide (d.nsq ≤ 2 ^ 24) &&
  (if d.vector then rangeAligned 16384 (d.lo.getD 3 0) (d.hi.getD 3 0) (d.shp 3)
   else rangeAligned d.side (d.lo.getD 2 0) (d.hi.getD 2 0) (d.shp 2) &&
        rangeAligned d.side (d.lo.getD 3 0) (d.hi.getD 3 0) (d.shp 3)) &&
  d.arrays.all (fun a => a.mpa % a.align == 0 && decide (own.1 ≤ a.mpa) && decide (a.mpa + a.bytes ≤ own.1 + own.2))

/-- Logical element index of matrix j, coordinates (k, n) of a shard (R268). -/
def ShardDesc.element (d : ShardDesc) (j k n : Nat) : Nat :=
  let c := fun (i x : Nat) => d.lo.getD i 0 + x
  ((c 0 (j / d.ext 1) * d.shp 1 + c 1 (j % d.ext 1)) * d.shp 2 + c 2 k) * d.shp 3 + c 3 n

/-- Matrix and coordinates of the element at place `o` of an array in square order (R271). -/
def ShardDesc.coordOf (d : ShardDesc) (o : Nat) : Nat × Nat × Nat :=
  let g := d.origin (o / d.sq)
  let i := o % d.sq
  if d.vector then (0, 0, g.2.2 + i) else (g.1, g.2.1 + i / d.side, g.2.2 + i % d.side)

/-- Matrix and coordinates of row r, column c of tile t of a working copy (R197). -/
def ShardDesc.tileCoord (d : ShardDesc) (tr : Bool) (t r c : Nat) : Nat × Nat × Nat :=
  let per := d.tiles tr
  let u := t % per
  let rt := ceilDiv (if tr then d.ns else d.ks) d.tk
  let a := u % rt * d.tk + r
  let b := u / rt * 128 + c
  if tr then (t / per, b, a) else (t / per, a, b)

/-- Logical element at byte `off` of an array of a shard. -/
def ShardDesc.elementAt (d : ShardDesc) (a : ShardArray) (off : Nat) : Nat :=
  let el := fun (p : Nat × Nat × Nat) => d.element p.1 p.2.1 p.2.2
  if a.kind = 0 then el (d.coordOf (off / 4))
  else if a.kind = 1 ∨ a.kind = 2 then el (d.coordOf (off / d.mbytes))
  else if a.kind = 3 ∨ a.kind = 4 then
    if d.vector then el (d.coordOf (off / 2))
    else
      let b := off % 16384
      let rc := if d.wfmt = 2 then (b / 128 * 2, b % 128) else if d.wfmt = 4 then (b / 256, b % 256 / 2) else (b / 128, b % 128)
      el (d.tileCoord (a.kind == 4) (off / 16384) rc.1 rc.2)
  else if a.kind = 5 then
    let b := off % d.stile
    el (d.tileCoord (a.mpa == d.tscale) (off / d.stile) (b / 128 * 32) (b % 128))
  else if a.mpa = d.snap ∨ a.mpa = d.omom then el (d.coordOf (off / 4))
  else el (d.coordOf 0)

/-- Tensor, kind and first logical element of a poisoned range in the engine's shards (R261). -/
def Ue.mapRange (u : Ue) (pages : List (Nat × Nat)) : Option (Nat × Nat × Nat) :=
  pages.findSome? (fun p =>
    u.shards.findSome? (fun sh =>
      match sh.desc with
      | none => none
      | some d =>
        (d.arrays.find? (fun a => decide (p.1 < a.mpa + a.bytes) && decide (a.mpa < p.1 + p.2))).map
          (fun a => (d.tensor, a.kind, d.elementAt a (p.1 - a.mpa)))))

/-! ### The seal engine's poison table as its registers show it (R256, R261, R267) -/

/-- Seal engine of memory die m. -/
def State.eng (s : State) (m : Fin 16) : Seal := (s.md m).eng
/-- Seal engine of memory die m replaced. -/
def State.setEng (s : State) (m : Fin 16) (e : Seal) : State := s.setMd m { s.md m with eng := e }

/-- Bytes of a poison class. -/
def classBytes (k : Nat) : Nat := 256 * 8 ^ k

/-- Channel-local base of an entry in bytes. -/
def PoisonEntry.base (e : PoisonEntry) : Nat := e.lblock * 256

/-- The entries that a channel-local range touches. -/
def State.poisonHits (s : State) (m : Fin 16) (c : Fin 2) (l n : Nat) : List (Nat × PoisonEntry) :=
  (s.eng m).ptab.filter (fun p =>
    p.2.ch == c && decide (p.2.base < l + n) && decide (l < p.2.base + classBytes p.2.cls))

/-- Whether a read of DRAM touches a poisoned range (R257). -/
def State.dramPoisoned (s : State) (a n : Nat) : Bool :=
  (blockPieces (n / 256 + 2) a n).any (fun p =>
    match s.channelOf p.1 with
    | some (m, c, l) => !(s.poisonHits (fin16 m) ⟨c % 2, Nat.mod_lt _ (by decide)⟩ (l / 256 * 256) 256).isEmpty
    | none => false)

/-- SEAL_PREC0 to SEAL_PREC5 show the entry that SEAL_PIDX names, SEAL_POISON_CNT counts the entries. -/
def State.syncPoison (s : State) (m : Fin 16) : State :=
  let tab := (s.eng m).ptab
  let s := s.put (R.SEAL_POISON_CNT m) F.SEAL_POISON_CNT_ENTRIES tab.length
  match tab.find? (fun p => p.1 == s.get (R.SEAL_PIDX m) F.SEAL_PIDX_INDEX) with
  | none =>
    s.zeroRegs [R.SEAL_PREC0 m, R.SEAL_PREC1 m, R.SEAL_PREC2 m, R.SEAL_PREC3 m, R.SEAL_PREC4 m, R.SEAL_PREC5 m]
  | some (_, e) =>
    let (ten, kind, el) := e.mapped.getD (0, 0, 0)
    let x := 1 + 2 * e.ch.val + 4 * e.cls + 32 * e.security.toNat + 64 * e.mapped.isSome.toNat + 128 * kind
    let t := (s.wr (R.SEAL_PREC0 m) (BitVec.ofNat 32 x)).wr (R.SEAL_PREC1 m) (BitVec.ofNat 32 e.lblock)
    let t := (t.wr (R.SEAL_PREC2 m) (BitVec.ofNat 32 (e.mpa / 256))).wr (R.SEAL_PREC3 m) (BitVec.ofNat 32 (e.mpa / 2 ^ 40 % 256 + 256 * ten))
    (t.wr (R.SEAL_PREC4 m) (BitVec.ofNat 32 el)).wr (R.SEAL_PREC5 m) (BitVec.ofNat 32 (el / 2 ^ 32 % 65536))

end Sys2Proof.Machine
end

