-- ==== Sys2Proof/Machine/Seal.lean ====
section
/-! DEFINITION. Memory channels and the seal engine (07_memory_and_sealing.md, R233-R267). -/
namespace Sys2Proof.Machine

/-! ### Counters (R243-R249) -/

/-- A number that reads as 0 where nothing is listed. -/
def zeroDefault : Nat → Nat := fun _ => 0

/-- Key of a counter: its level and index. -/
def levelKey (lvl i : Nat) : Nat := lvl * 2 ^ 40 + i

/-- Minor counter that governs child i of level `lvl` − 1: a seal block for level 1, a line of the level below else. -/
def SealChan.minor (c : SealChan) (lvl i : Nat) : Nat := Sparse.get zeroDefault c.minors (levelKey lvl i)
/-- A minor counter set. -/
def SealChan.setMinor (c : SealChan) (lvl i v : Nat) : SealChan :=
  { c with minors := Sparse.set zeroDefault c.minors (levelKey lvl i) v }
/-- MAJOR of a line. -/
def SealChan.major (c : SealChan) (lvl line : Nat) : Nat := Sparse.get zeroDefault c.majors (levelKey lvl line)
/-- MAJOR set. -/
def SealChan.setMajor (c : SealChan) (lvl line v : Nat) : SealChan :=
  { c with majors := Sparse.set zeroDefault c.majors (levelKey lvl line) v }

/-- MAJOR incremented in its bits [55:0] alone (R249). -/
def nextMajor (x : Nat) : Nat := x / 2 ^ 56 * 2 ^ 56 + (x + 1) % 2 ^ 56

/-- All 64 minors of a line set to one value. -/
def SealChan.fillMinors (c : SealChan) (lvl line v : Nat) : SealChan :=
  (List.range 64).foldl (fun c j => c.setMinor lvl (64 * line + j) v) c

/-- Line `idx` of level `lvl` changed (R247): its parent's minor goes up, a parent at 127 overflows, and a parent in the
resident store is itself a changed line; a change of L5 increments the root. The number is that of the overflows. -/
def SealChan.touch : Nat → SealChan → Nat → Nat → SealChan × Nat
  | 0, c, _, _ => (c, 0)
  | fuel + 1, c, lvl, idx =>
    if 5 ≤ lvl then ({ c with root := c.root + 1 }, 0)
    else
      let up := lvl + 1
      let v := c.minor up idx
      let r := if v = 127 then ((c.setMajor up (idx / 64) (nextMajor (c.major up (idx / 64)))).fillMinors up (idx / 64) 0, 1)
        else (c.setMinor up idx (v + 1), 0)
      if 3 ≤ up then
        let q := SealChan.touch fuel r.1 up (idx / 64)
        (q.1, r.2 + q.2)
      else r

/-! ### Channels (R233, R234) -/

/-- Channel c of memory die m. -/
def State.chan (s : State) (m : Fin 16) (c : Fin 2) : SealChan := (s.eng m).chans[c]
/-- Channel c of memory die m replaced. -/
def State.setChan (s : State) (m : Fin 16) (c : Fin 2) (x : SealChan) : State :=
  s.setEng m { s.eng m with chans := (s.eng m).chans.set c x }

/-- Ticks of a second. -/
def ticksPerSec : Nat := 4200000000

/-- A seal or channel event: channel, poison entry or 0xFFFF, first MPA (R509). -/
def State.sealEvent (s : State) (m : Fin 16) (c : Fin 2) (code entry mpa : Nat) : State :=
  s.raise code (40 + m.val) (some (s.colCanton (m.val % 8))) (detail c entry mpa)

/-- Whether a seal engine of canton k has stopped the canton (R260): it stays so until a CRST. -/
def State.cantonStopped (s : State) (k : Nat) : Bool :=
  (s.cantonMds k).any (fun m => s.flag (R.SEAL_STATUS m) F.SEAL_STATUS_CCFATAL)

/-- The channels of a memory die leave self-refresh, unless the canton is stopped (R260): each recalibrates before it
takes traffic (R233). -/
def State.wake (s : State) (m : Fin 16) : State :=
  let e := s.eng m
  if e.asleep && !s.cantonStopped (s.colCanton (m.val % 8)) then
    s.setEng m { e with asleep := false, chans := e.chans.map (fun c => { c with stale := true }) }
  else s

/-- CHANNEL_RECALIBRATE (R233): a running channel recalibrates once 100 ms have gone by; one that left self-refresh does
so before it takes traffic. -/
def execChannelRecalibrate (m : Fin 16) (c : Fin 2) (s : State) : Out :=
  let x := s.chan m c
  if s.flag (R.MC_STATUS m c) F.MC_STATUS_TRAINED = true ∧ (s.eng m).asleep = false ∧
      (x.stale = true ∨ x.recalAt + ticksPerSec / 10 ≤ s.now) then
    .next (s.setChan m c { x with recalAt := s.now, stale := false })
  else .next s

/-- DIMM_TEMP_SAMPLE (R234): TEMP takes the hottest sensor; refresh runs at half the interval from 85 °C on; from 95 °C
on the channel is capped, with 0x301A, until every sensor reads below 90 °C. -/
def execDimmTempSample (m : Fin 16) (c : Fin 2) (temps : List Nat) (s : State) : Out :=
  let hot := temps.foldl max 0
  let a := R.MC_STATUS m c
  let capped := s.flag a F.MC_STATUS_THROT
  let t := (s.setChan m c { s.chan m c with halved := decide (85 ≤ hot) }).put a F.MC_STATUS_TEMP (satN 255 hot)
  if 95 ≤ hot ∧ capped = false then .next ((t.put a F.MC_STATUS_THROT 1).sealEvent m c 0x301A 0xFFFF 0)
  else if hot < 90 then .next (t.put a F.MC_STATUS_THROT 0)
  else .next t

/-! ### Poison (R255-R261) -/

/-- The MPA of a channel-local address (R261). -/
def State.mpaOf (s : State) (m : Fin 16) (c : Fin 2) (l : Nat) : Nat :=
  let k := s.colCanton (m.val % 8)
  let mds := s.cantonMds k
  let e := mds.idxOf m.val
  let n := mds.length * s.channels
  let p := e * s.channels + c.val
  if l < s.spreadSize k / n then s.sliceBase k + (l / 4096 * n + p) * 4096 + l % 4096
  else
    let o := l - s.spreadSize k / n
    s.sliceBase k + s.spreadSize k + e * s.ownedSize k + (o / 4096 * s.channels + c.val) * 4096 + o % 4096

/-- The MPA ranges of a channel-local range that is a power of two and aligned: one, or one for each page. -/
def State.mpaPages (s : State) (m : Fin 16) (c : Fin 2) (l n : Nat) : List (Nat × Nat) :=
  if n ≤ 4096 then [(s.mpaOf m c l, n)]
  else (List.range (n / 4096)).map (fun i => (s.mpaOf m c (l + 4096 * i), 4096))

/-- The canton stopped by a fatal finding of a seal engine (R260): CCFATAL, its channels in self-refresh until a CRST. -/
def State.stopCanton (s : State) (m : Fin 16) : State :=
  let t := s.put (R.SEAL_STATUS m) F.SEAL_STATUS_CCFATAL 1
  (t.cantonMds (t.colCanton (m.val % 8))).foldl
    (fun t i => t.setEng (fin16 i) { t.eng (fin16 i) with asleep := true }) t

/-- A tag failure counted. -/
def State.tagFail (s : State) (m : Fin 16) : State :=
  (s.put (R.SEAL_STATUS m) F.SEAL_STATUS_TAGFAIL 1).bump (R.SEAL_STATUS m) F.SEAL_STATUS_TAGFAILCNT 1

/-- A channel-local range entered in the poison table (R256, R261). A range inside an entry adds nothing; entries inside
the range give way to it; a full table stops the canton (0x330C). Free entries are taken in ascending order (DESIGN
CHOICE: log 31). -/
def State.addPoison (s : State) (m : Fin 16) (c : Fin 2) (cls l : Nat) (security : Bool) : State :=
  let size := classBytes cls
  let base := l / size * size
  let hits := s.poisonHits m c base size
  if hits.any (fun p => decide (cls ≤ p.2.cls)) then s
  else
    let mpa := s.mpaOf m c base
    let e : PoisonEntry := ⟨c, cls, base / 256, security, mpa, (s.md m).ue.mapRange (s.mpaPages m c base size)⟩
    let rest := (s.eng m).ptab.filter (fun p => !hits.any (fun h => h.1 == p.1))
    let at_ := match hits with
      | h :: _ => some h.1
      | [] => (List.range 1024).find? (fun i => !(s.eng m).ptab.any (fun p => p.1 == i))
    match at_ with
    | none => (s.stopCanton m).sealEvent m c 0x330C 0xFFFF mpa
    | some i =>
      let t := s.setEng m { s.eng m with ptab := rest ++ [(i, e)] }
      let t := (t.put (R.SEAL_STATUS m) F.SEAL_STATUS_POISONED 1).bump (R.SEAL_POISON_CNT m) F.SEAL_POISON_CNT_TOTAL 1
      t.syncPoison m

/-- The entry that holds a channel-local address, or 0xFFFF. -/
def State.entryAt (s : State) (m : Fin 16) (c : Fin 2) (l : Nat) : Nat :=
  match s.poisonHits m c l 1 with
  | p :: _ => p.1
  | [] => 0xFFFF

/-- A fetch failure (R255): its range poisoned, its event raised, a tag mismatch counted. A tag mismatch inside a range
already poisoned is no further alarm (R257). -/
def State.failItem (s : State) (m : Fin 16) (c : Fin 2) (cls l code : Nat) (badTag : Bool) : State :=
  let size := classBytes cls
  let base := l / size * size
  if badTag && (s.poisonHits m c base size).any (fun p => decide (cls ≤ p.2.cls)) then s
  else
    let t := s.addPoison m c cls l badTag
    let t := if badTag then t.tagFail m else t
    t.sealEvent m c code (t.entryAt m c l) (t.mpaOf m c base)

/-- A corrected DIMM error (R255, R266): counted; 0x3101 for at most 16 of them in a second of a channel. -/
def State.corrected (s : State) (m : Fin 16) (c : Fin 2) : State :=
  let t := s.bump (R.MC_ECC m c) F.MC_ECC_CORR 1
  let x := t.chan m c
  let sec := t.now / ticksPerSec
  let n := if x.eccSec = sec then x.eccNum else 0
  let t := t.setChan m c { x with eccSec := sec, eccNum := n + 1 }
  if n < 16 then t.sealEvent m c 0x3101 0xFFFF 0 else t

/-- What the bursts of a fetched item met, counted in MC_ECC: a correction, or an uncorrectable error. -/
def State.noteFetch (s : State) (m : Fin 16) (c : Fin 2) (b : BurstErrs) : State :=
  match fetchOf b with
  | .corrected => s.corrected m c
  | .ecc => s.bump (R.MC_ECC m c) F.MC_ECC_UNC 1
  | _ => s

/-- The channel that mirrors the L2 lines of channel c of memory die m (R248): the other channel of the die with 32 DIMMs,
channel A of the die across the column with 16. -/
def State.mirrorOf (s : State) (m : Fin 16) (c : Fin 2) : Fin 16 × Fin 2 :=
  if s.flag R.ARCH_CFG F.ARCH_CFG_POP32 then (m, if c = 0 then 1 else 0) else (fin16 (m.val ^^^ 8), 0)

/-- Nothing amiss in a fetch. -/
def Fetched.good : Fetched := ⟨[], [], [], [], [], [], [], [], .ok, [], [], [], []⟩

/-! ### Caches and fetches (R247, R250-R255) -/

/-- A performance counter raised, unless they are frozen. -/
def State.sealTally (s : State) (m : Fin 16) (a n : Nat) : State :=
  if s.countsStand (R.SEAL_PERF_CTL m) then s else s.bump a F.SEAL_PERF_OVF_COUNT n

/-- Whether a line is cached. -/
def State.cached (s : State) (m : Fin 16) (ln : SealLine) : Bool := (s.eng m).lines.any (fun p => p.1 == ln)

/-- A cached line marked dirty. -/
def State.dirty (s : State) (m : Fin 16) (ln : SealLine) : State :=
  s.setEng m { s.eng m with lines := (s.eng m).lines.map (fun p => if p.1 = ln then (p.1, true) else p) }

/-- Errors that a list gives for an item. -/
def errsOf {n : Nat} (l : List (Fin n × BurstErrs)) (j : Nat) : List BurstErrs :=
  (l.filter (fun p => p.1.val == j)).map (fun p => p.2)

/-- A child line read and verified in an overflow of its parent (R247), with its errors: an L1 line, or an L2 line at its
primary place and at its mirror. A cached child is trusted and not read. -/
def State.checkKid (s : State) (m : Fin 16) (ln : SealLine) (errs : List BurstErrs) : State :=
  if s.cached m ln then s
  else
    let one := errs.getD 0 []
    let t := s.noteFetch m ln.ch one
    let f := fetchOf one
    if f = .ok ∨ f = .corrected then t
    else if ln.level = 1 then
      t.failItem m ln.ch 2 (ln.idx * 16384) (if f = .badTag then 0x3412 else 0x3206) (f == .badTag)
    else
      let l := ln.idx * 2 ^ 20
      let two := errs.getD 1 []
      let (mm, mc) := t.mirrorOf m ln.ch
      let t := t.noteFetch mm mc two
      let g := fetchOf two
      let forged := f == .badTag || g == .badTag
      if g = .ok ∨ g = .corrected then
        let t := t.sealEvent m ln.ch 0x3102 0xFFFF (t.mpaOf m ln.ch l)
        if f = .badTag then (t.tagFail m).sealEvent m ln.ch 0x3413 0xFFFF (t.mpaOf m ln.ch l) else t
      else t.failItem m ln.ch 4 l (if forged then 0x3413 else 0x3207) forged

/-- A changed counter line written back (R247): its parent's minor goes up; at 127 the parent overflows and each of its 64
children is read and verified, `kids` giving their errors. A resident child is verified by the counter cache. -/
def State.touchLine (s : State) (m : Fin 16) (ln : SealLine) (kids : List (Fin 64 × BurstErrs)) : State :=
  let spill := (s.chan m ln.ch).minor (ln.level + 1) ln.idx == 127
  let r := SealChan.touch 6 (s.chan m ln.ch) ln.level ln.idx
  let t := (s.setChan m ln.ch r.1).sealTally m (R.SEAL_PERF_OVF m) r.2
  let t := if ln.level = 1 then (t.dirty m ⟨ln.ch, 2, ln.idx / 64⟩).dirty m ⟨ln.ch, 4, ln.idx / 8⟩ else t
  if spill && decide (ln.level ≤ 2) then
    (List.range 64).foldl (fun t j =>
      if ln.idx / 64 * 64 + j = ln.idx then t
      else t.checkKid m ⟨ln.ch, ln.level, ln.idx / 64 * 64 + j⟩ (errsOf kids j)) t
  else t

/-- One line leaves its cache; a changed counter line is written back first. -/
def State.evictOne (s : State) (m : Fin 16) (kids : List (Fin 64 × BurstErrs)) (ln : SealLine) : State :=
  match (s.eng m).lines.find? (fun p => p.1 == ln) with
  | none => s
  | some (_, changed) =>
    let t := if changed && decide (ln.level ≤ 2) then s.touchLine m ln kids else s
    t.setEng m { t.eng m with lines := (t.eng m).lines.filter (fun p => p.1 != ln) }

/-- A line leaves its cache. An L1 line needs its L2 line there (R250): an L2 line takes its L1 lines with it, each written
back before it. -/
def State.evictLine (s : State) (m : Fin 16) (kids : List (Fin 64 × BurstErrs)) (ln : SealLine) : State :=
  let under := if ln.level = 2 then
      ((s.eng m).lines.filter (fun p => p.1.ch == ln.ch && p.1.level == 1 && p.1.idx / 64 == ln.idx)).map (fun p => p.1)
    else []
  (under ++ [ln]).foldl (fun t x => t.evictOne m kids x) s

/-- A line taken into its cache; the oldest of a full cache makes room, never the parent of the line that comes (R250). -/
def State.fillLine (s : State) (m : Fin 16) (kids : List (Fin 64 × BurstErrs)) (ln : SealLine) : State :=
  if s.cached m ln then s
  else
    let same := (s.eng m).lines.filter (fun p => decide (p.1.level ≤ 2) == decide (ln.level ≤ 2))
    let cap := if ln.level ≤ 2 then 32768 else 4096
    let old := same.filter (fun p => !(ln.level == 1 && p.1 == ⟨ln.ch, 2, ln.idx / 64⟩))
    let t := if cap ≤ same.length then
        (match old.getLast? with | some p => s.evictLine m kids p.1 | none => s)
      else s
    t.setEng m { t.eng m with lines := (ln, false) :: (t.eng m).lines }

/-- One stage after another, the later only where the earlier went well. -/
def thenStage (r : State × Bool) (f : State → State × Bool) : State × Bool := if r.2 then f r.1 else r

/-- What the counter cache answers (R255, R260). -/
def State.cacheStage (s : State) (m : Fin 16) (c : Fin 2) : CacheFault → State × Bool
  | .ok => (s, true)
  | .corrected =>
    (((s.put (R.CC_STATUS m) F.CC_STATUS_ECCCOR 1).bump (R.CC_STATUS m) F.CC_STATUS_ECCCNT 1).sealEvent m c 0x3103 0xFFFF 0, true)
  | .ecc => (((s.put (R.CC_STATUS m) F.CC_STATUS_ECCUNC 1).stopCanton m).sealEvent m c 0x330B 0xFFFF 0, false)
  | .badTag => (((s.tagFail m).stopCanton m).sealEvent m c 0x3414 0xFFFF 0, false)

/-- A counter line with its tag line as one fetch tells them: the line bad or its tag bad. -/
def lineBad (line : BurstErrs) : Bool := fetchOf line == .ecc || fetchOf line == .badTag
/-- A tag, in slot i of its line, that cannot be read or comes out wrong. -/
def tagBad (tags : BurstErrs) (i : Nat) : Bool := fetchOf tags == .ecc || slotWrong tags i

/-- The L2 line above a block fetched and verified (R248, R255): where the primary line or its tag fails, the mirror copy of
what failed is taken, and the line stands if one copy of it and one of its tag are good. -/
def State.l2Stage (s : State) (m : Fin 16) (c : Fin 2) (l : Nat) (f : Fetched) : State × Bool :=
  let q := l / 2 ^ 20
  let ln : SealLine := ⟨c, 2, q⟩
  if s.cached m ln then (s, true)
  else
    let t := s.sealTally m (R.SEAL_PERF_CCMISS m) 1
    let t := (t.noteFetch m c f.l2).noteFetch m c f.l2tag
    let slot := q % 8
    if !lineBad f.l2 && !tagBad f.l2tag slot then (t.fillLine m f.kids ln, true)
    else
      let (mm, mc) := t.mirrorOf m c
      let t := (t.noteFetch mm mc f.m2).noteFetch mm mc f.m2tag
      let mpa := t.mpaOf m c (q * 2 ^ 20)
      let forged1 := fetchOf f.l2 == .badTag || slotWrong f.l2tag slot
      let forged2 := fetchOf f.m2 == .badTag || slotWrong f.m2tag slot
      if !(lineBad f.l2 && lineBad f.m2) && !(tagBad f.l2tag slot && tagBad f.m2tag slot) then
        let t := t.sealEvent m c 0x3102 0xFFFF mpa
        let t := if forged1 then (t.tagFail m).sealEvent m c 0x3413 0xFFFF mpa else t
        (t.fillLine m f.kids ln, true)
      else if fetchOf f.l2tag = .ecc ∧ fetchOf f.m2tag = .ecc then (t.failItem m c 5 l 0x3207 false, false)
      else
        let forged := forged1 || forged2
        (t.failItem m c 4 l (if forged then 0x3413 else 0x3207) forged, false)

/-- The L1 line above a block fetched and verified, after its L2 line (R252, R255). -/
def State.l1Stage (s : State) (m : Fin 16) (c : Fin 2) (l : Nat) (f : Fetched) : State × Bool :=
  let i := l / 16384
  let ln : SealLine := ⟨c, 1, i⟩
  let tagLn : SealLine := ⟨c, 4, i / 8⟩
  if s.cached m ln then (s, true)
  else thenStage (s.l2Stage m c l f) (fun s =>
    let held := s.cached m tagLn
    let t := s.sealTally m (R.SEAL_PERF_CCMISS m) 1
    let t := if held then t else (t.sealTally m (R.SEAL_PERF_TCMISS m) 1).noteFetch m c f.l1tag
    let t := t.noteFetch m c f.l1
    if !held && fetchOf f.l1tag == .ecc then (t.failItem m c 3 l 0x3205 false, false)
    else if fetchOf f.l1 = .ecc then (t.failItem m c 2 l 0x3206 false, false)
    else if fetchOf f.l1 = .badTag ∨ (!held && slotWrong f.l1tag (i % 8)) = true then (t.failItem m c 2 l 0x3412 true, false)
    else ((t.fillLine m f.kids tagLn).fillLine m f.kids ln, true))

/-- The tag line of a block fetched (R252, R255). -/
def State.tagStage (s : State) (m : Fin 16) (c : Fin 2) (l : Nat) (f : Fetched) : State × Bool :=
  let ln : SealLine := ⟨c, 3, l / 2048⟩
  if s.cached m ln then (s, true)
  else
    let t := (s.sealTally m (R.SEAL_PERF_TCMISS m) 1).noteFetch m c f.dtag
    if fetchOf f.dtag = .ecc then (t.failItem m c 1 l 0x3205 false, false) else (t.fillLine m f.kids ln, true)

/-- The data of a written block fetched and its tag verified (R252, R254, R255); `tag` says that the tag came out wrong. -/
def State.dataStage (s : State) (m : Fin 16) (c : Fin 2) (l : Nat) (f : Fetched) (tag part : Bool) : State × Bool :=
  let t := s.noteFetch m c f.data
  if fetchOf f.data = .ecc then (t.failItem m c 0 l 0x3204 false, false)
  else if tag = true ∨ fetchOf f.data = .badTag then (t.failItem m c 0 l (if part then 0x3411 else 0x3410) true, false)
  else (t, true)

/-- Whether a block has been written since its L1 line was initialised (R245). -/
def State.writtenBlock (s : State) (m : Fin 16) (c : Fin 2) (l : Nat) : Bool := (s.chan m c).minor 1 (l / 256) != 0

/-- Counters, tags and, where it is needed, data of a block (R252-R254): `old` says that the old block is read, `part` that
a partial write reads it (RMW counts it). -/
def State.fetchBlock (s : State) (m : Fin 16) (c : Fin 2) (l : Nat) (f : Fetched) (old part : Bool) : State × Bool :=
  let t := f.evict.foldl (fun t ln => t.evictLine m f.kids ln) s
  let r := thenStage (t.cacheStage m c f.cache) (fun t => t.l1Stage m c l f)
  thenStage r (fun t =>
    let wr := t.writtenBlock m c l
    let tagged := wr || !old || part
    let tag := !t.cached m ⟨c, 3, l / 2048⟩ && slotWrong f.dtag (l / 256 % 8)
    let t := if wr && part then t.sealTally m (R.SEAL_PERF_RMW m) 1 else t
    thenStage (if tagged then t.tagStage m c l f else (t, true)) (fun t =>
      if wr && old then t.dataStage m c l f tag part else (t, true)))

/-- Tag line j of L1 line `line`, and the written blocks of it other than `own`, read and verified in an overflow (R246):
blocks that fail, alone or with their tag line, are poisoned; the line is in the tag cache and changed. -/
def State.overflowTags (s : State) (m : Fin 16) (c : Fin 2) (line own : Nat) (f : Fetched) (j : Nat) : State :=
  let ln : SealLine := ⟨c, 3, 8 * line + j⟩
  let held := s.cached m ln
  let tags := (errsOf f.lostTags j).getD 0 []
  let t := if held then s else (s.sealTally m (R.SEAL_PERF_TCMISS m) 1).noteFetch m c tags
  let t := if !held && fetchOf tags == .ecc then t.failItem m c 1 ((8 * line + j) * 2048) 0x3205 false
    else (List.range 8).foldl (fun t i =>
      let b := 64 * line + 8 * j + i
      if b = own ∨ t.writtenBlock m c (b * 256) = false then t
      else
        let e := (errsOf f.lost (8 * j + i)).getD 0 []
        let t := t.noteFetch m c e
        if fetchOf e = .ecc then t.failItem m c 0 (b * 256) 0x3204 false
        else if fetchOf e = .badTag ∨ (!held && slotWrong tags i) = true then t.failItem m c 0 (b * 256) 0x3410 true
        else t) t
  (t.fillLine m f.kids ln).dirty m ln

/-- The counters of an overflow of an L1 line (R246): MAJOR goes up, the written blocks take minor 1, those that `zero`
names and the unwritten ones minor 0. -/
def SealChan.overflow (x : SealChan) (line : Nat) (zero : Nat → Bool) : SealChan :=
  (List.range 64).foldl (fun y j =>
    if y.minor 1 (64 * line + j) = 0 then y
    else y.setMinor 1 (64 * line + j) (if zero j then 0 else 1)) (x.setMajor 1 line (nextMajor (x.major 1 line)))

/-- The minor of a written block incremented, or its L1 line overflowed (R246): the other written blocks are read and
verified and take minor 1 under the new MAJOR. -/
def State.nextCounter (s : State) (m : Fin 16) (c : Fin 2) (l : Nat) (f : Fetched) : State :=
  let x := s.chan m c
  let blk := l / 256
  let line := l / 16384
  let v := x.minor 1 blk
  let t :=
    if v = 127 then
      let t := (List.range 8).foldl (fun t j => t.overflowTags m c line blk f j) s
      let y := ((t.chan m c).overflow line (fun _ => false)).setMinor 1 blk 1
      (t.setChan m c y).sealTally m (R.SEAL_PERF_OVF m) 1
    else s.setChan m c (x.setMinor 1 blk (v + 1))
  (t.dirty m ⟨c, 1, line⟩).dirty m ⟨c, 3, l / 2048⟩

/-! ### Serving requests (R251-R254, R257) -/

/-- A part of a request answered: with bytes (none written back for a write), or with a bus error. When no part of the
request waits any more, the request is answered as a whole. -/
def State.answer (s : State) (r : SealReq) (res : Option (List Byte)) : State :=
  let got := s.got ++ [(r.id, r.mpa, res)]
  let s := if res.isNone then { s with busErrs := s.busErrs ++ [(r.src, r.mpa, r.id)] } else s
  let s :=
    if res.isNone ∧ 40 ≤ r.src ∧ r.src < 56 then
      let m := fin16 (r.src - 40)
      let u := (s.md m).ue
      s.setMd m { s.md m with ue := { u with refused := u.refused ++ [(r.id, r.mpa)] } }
    else s
  if s.reqWaits r.id then { s with got := got }
  else
    let mine := sortBy (fun p => p.2.1) (got.filter (fun p => p.1 == r.id))
    let rest := got.filter (fun p => p.1 != r.id)
    let data := mine.foldl (fun bs p => bs ++ p.2.2.getD []) []
    let a := if mine.any (fun p => p.2.2.isNone) then Resp.busError else if data.isEmpty then .done else .data data
    { s with got := rest, resp := a }

/-- Whether an engine refuses every access: its canton is stopped (R260), by it or by another engine of the canton, whose
channels then sleep too (DEDUCED: log 110), or it holds no keys (R418). -/
def State.sealShut (s : State) (m : Fin 16) : Bool :=
  s.cantonStopped (s.colCanton (m.val % 8)) || !s.flag (R.SEAL_STATUS m) F.SEAL_STATUS_KEYS

/-- Request i of an engine, with the channel-local address of its block, where it may be served now: the tree is
initialised, the channel runs and is calibrated, and no earlier request waits for the same block (R233, R251, R263). -/
def State.servable (s : State) (m : Fin 16) (i : Nat) : Option (SealReq × Fin 2 × Nat) :=
  let e := s.eng m
  match e.reqs[i]? with
  | none => none
  | some r =>
    if !s.sealShut m && (e.asleep || !s.flag (R.SEAL_STATUS m) F.SEAL_STATUS_TREE) then none
    else if (e.reqs.take i ++ e.reads).any (fun x => x.mpa / 256 == r.mpa / 256) then none
    else match s.channelOf r.mpa with
      | none => none
      | some (_, c, l) =>
        let c : Fin 2 := ⟨c % 2, Nat.mod_lt _ (by decide)⟩
        if (s.chan m c).stale && !s.sealShut m then none else some (r, c, l / 256 * 256)

/-- A request taken from the waiting ones. -/
def State.dropReq (s : State) (m : Fin 16) (i : Nat) : State := s.setEng m { s.eng m with reqs := (s.eng m).reqs.eraseIdx i }

/-- An access to a poisoned range refused (R257): PREFUSED and its event. -/
def State.poisonRefused (s : State) (m : Fin 16) (c : Fin 2) (l : Nat) : State :=
  let t := s.put (R.SEAL_STATUS m) F.SEAL_STATUS_PREFUSED 1
  t.sealEvent m c 0x3208 (t.entryAt m c l) (t.mpaOf m c l)

/-- A request to a poisoned range refused with a bus error (R257). -/
def State.refusePoison (s : State) (m : Fin 16) (c : Fin 2) (l : Nat) (r : SealReq) : State := (s.poisonRefused m c l).answer r none

/-- SEAL_READ (R252, R257): the engine accepts a read, checks the poison table and starts its fetches. -/
def execSealRead (m : Fin 16) (i : Nat) (s : State) : Out :=
  match s.servable m i with
  | none => .next s
  | some (r, c, l) =>
    match r.op with
    | .read _ =>
      let t := s.dropReq m i
      if s.sealShut m then .next (t.answer r none)
      else if !(t.poisonHits m c l 256).isEmpty then .next (t.refusePoison m c l r)
      else .next (t.setEng m { t.eng m with reads := (t.eng m).reads ++ [r] })
    | _ => .next s

/-- SEAL_READ_COMPLETE (R245, R252, R255): counters and tag verified, the engine releases the plaintext, zeros for an
unwritten block; or it answers with a bus error. -/
def execSealReadComplete (m : Fin 16) (i : Nat) (f : Fetched) (s : State) : Out :=
  match (s.eng m).reads[i]? with
  | none => .next s
  | some r =>
    match s.channelOf r.mpa, r.op with
    | some (_, c, l), .read n =>
      let c : Fin 2 := ⟨c % 2, Nat.mod_lt _ (by decide)⟩
      let l := l / 256 * 256
      let t := s.setEng m { s.eng m with reads := (s.eng m).reads.eraseIdx i }
      if s.sealShut m then .next (t.answer r none)
      else
        let x := t.fetchBlock m c l f true false
        if x.2 then
          .next (x.1.answer r (some (if x.1.writtenBlock m c l then x.1.bytes r.mpa n else List.replicate n 0)))
        else .next (x.1.answer r none)
    | _, _ => .next (s.setEng m { s.eng m with reads := (s.eng m).reads.eraseIdx i })

/-- SEAL_FULL_WRITE (R253, R257): all 256 bytes of a block, under its next counter. A block poisoned alone (class 0)
loses its entry; a larger poisoned range refuses the write. -/
def execSealFullWrite (m : Fin 16) (i : Nat) (f : Fetched) (s : State) : Out :=
  match s.servable m i with
  | none => .next s
  | some (r, c, l) =>
    match r.op with
    | .write bs =>
      if bs.length ≠ 256 then .next s
      else
        let t := s.dropReq m i
        let hits := t.poisonHits m c l 256
        if s.sealShut m then .next (t.answer r none)
        else if hits.any (fun p => p.2.cls != 0) then .next (t.refusePoison m c l r)
        else
          let x := t.fetchBlock m c l f false false
          if x.2 then
            let t := (x.1.nextCounter m c l f).putBytes r.mpa bs
            let t := t.setEng m { t.eng m with ptab := (t.eng m).ptab.filter (fun p => !hits.any (fun h => h == p)) }
            .next ((t.syncPoison m).answer r (some []))
          else .next (x.1.answer r none)
    | _ => .next s

/-- A partial write or a pennant addition served as one step (R254): the old block read and verified, the bytes that
`new` makes of it merged, the block under its next counter. -/
def State.partialWrite (s : State) (m : Fin 16) (i : Nat) (f : Fetched) (r : SealReq) (c : Fin 2) (l : Nat)
    (new : State → List Byte) : State :=
  let t := s.dropReq m i
  if s.sealShut m then t.answer r none
  else if !(t.poisonHits m c l 256).isEmpty then t.refusePoison m c l r
  else
    let x := t.fetchBlock m c l f true true
    if x.2 then ((x.1.nextCounter m c l f).putBytes r.mpa (new x.1)).answer r (some [])
    else x.1.answer r none

/-- SEAL_PARTIAL_WRITE (R254): fewer than 256 bytes of one block. -/
def execSealPartialWrite (m : Fin 16) (i : Nat) (f : Fetched) (s : State) : Out :=
  match s.servable m i with
  | none => .next s
  | some (r, c, l) =>
    match r.op with
    | .write bs => if bs.length = 256 then .next s else .next (s.partialWrite m i f r c l (fun _ => bs))
    | _ => .next s

/-- SEAL_ATOMIC_ADD (R169, R254): an 8-byte partial write of the old value plus the increment. -/
def execSealAtomicAdd (m : Fin 16) (i : Nat) (f : Fetched) (s : State) : Out :=
  match s.servable m i with
  | none => .next s
  | some (r, c, l) =>
    match r.op with
    | .add inc => .next (s.partialWrite m i f r c l (fun t => leBytes 8 (t.num r.mpa 8 + inc.toNat)))
    | _ => .next s

/-! ### Reads by a block of a memory die (R251, R252, R257)

The update engine's reads are served at once (log 10), once no earlier request waits for what they read. -/

/-- Blocks, by MPA / 256, that ranges touch. -/
def blocksOf (l : List (Nat × Nat)) : List Nat :=
  (l.flatMap (fun p => if p.2 = 0 then [] else (List.range ((p.1 + p.2 - 1) / 256 + 1 - p.1 / 256)).map (fun i => p.1 / 256 + i))).eraseDups

/-- Whether a block must be waited for: a request waits for it, or its channel takes no traffic yet (R233, R263). -/
def State.blockBusy (s : State) (b : Nat) : Bool :=
  match s.channelOf (256 * b) with
  | none => false
  | some (k, c, _) =>
    let m := fin16 k
    let e := s.eng m
    !s.sealShut m && (e.asleep || !s.flag (R.SEAL_STATUS m) F.SEAL_STATUS_TREE || (s.chan m ⟨c % 2, Nat.mod_lt _ (by decide)⟩).stale ||
      e.reqs.any (fun r => r.mpa / 256 == b))

/-- A block of DRAM read by its seal engine (R252, R255, R257): whether it comes back. -/
def State.readBlock (s : State) (reads : BlockReads) (b : Nat) : State × Bool :=
  match s.channelOf (256 * b) with
  | none => (s, true)
  | some (k, c, l) =>
    let m := fin16 k
    let c : Fin 2 := ⟨c % 2, Nat.mod_lt _ (by decide)⟩
    if s.sealShut m then (s, false)
    else if !(s.poisonHits m c l 256).isEmpty then (s.poisonRefused m c l, false)
    else s.fetchBlock m c l ((reads.find? (fun p => p.1.toNat == b)).map (fun p => p.2) |>.getD Fetched.good) true false

/-- Blocks read one after the other: whether all come back. -/
def State.readBlocks (s : State) (reads : BlockReads) (bs : List Nat) : State × Bool :=
  bs.foldl (fun r b => let x := r.1.readBlock reads b; (x.1, r.2 && x.2)) (s, true)

/-- Bytes that a block of a memory die writes at once (log 10): each DRAM block written moves on its counter, its line
overflowing where it must (R245, R246). -/
def State.dramPut (s : State) (a : Nat) (bs : List Byte) : State :=
  let t := (blocksOf [(a, bs.length)]).foldl (fun t b =>
    match t.channelOf (256 * b) with
    | none => t
    | some (k, c, l) =>
      let m := fin16 k
      let c : Fin 2 := ⟨c % 2, Nat.mod_lt _ (by decide)⟩
      (t.fetchBlock m c l Fetched.good false false).1.nextCounter m c l Fetched.good) s
  t.putBytes a bs

/-! ### Reinitialisation (R258, R259) -/

/-- Generation register field of a channel. -/
def genField (c : Fin 2) : Fld := if c = 0 then F.SEAL_GEN_GENA else F.SEAL_GEN_GENB

/-- SEAL_REINIT (R259): the clearing of a poison entry starts, or is refused with 0x3209: an entry without VALID, or a
class 2-5 reinit past generation 255. Ignored while one is in progress. -/
def execSealReinit (m : Fin 16) (index : Fin 1024) (s : State) : Out :=
  if s.flag (R.SEAL_REINIT_STATUS m) F.SEAL_REINIT_STATUS_BUSY then .next s
  else
    let refuse := fun (c : Fin 2) (mpa : Nat) =>
      (s.put (R.SEAL_REINIT_STATUS m) F.SEAL_REINIT_STATUS_REFUSED 1).sealEvent m c 0x3209 index mpa
    match (s.eng m).ptab.find? (fun p => p.1 == index.val) with
    | none => .next (refuse 0 0)
    | some (_, e) =>
      if 2 ≤ e.cls ∧ s.get (R.SEAL_GEN m) (genField e.ch) = 255 then .next (refuse e.ch e.mpa)
      else
        .next ((s.setEng m { s.eng m with reinit := some index.val }).put (R.SEAL_REINIT_STATUS m) F.SEAL_REINIT_STATUS_BUSY 1)

/-- Plaintext of a channel-local range lost: it reads as zeros. -/
def State.wipe (s : State) (m : Fin 16) (c : Fin 2) (l n : Nat) : State :=
  (s.mpaPages m c l n).foldl (fun t p => t.zeroRange p.1 p.2) s

/-- Classes 0 and 1 (R259): the L1 line overflows with the lost blocks at minor 0, the others keep their content; every tag
line of it is written anew. -/
def State.reinitBlocks (s : State) (m : Fin 16) (e : PoisonEntry) (lost : List (Fin 64)) : State :=
  let line := e.base / 16384
  let covered := fun (j : Nat) => decide (e.base ≤ (64 * line + j) * 256) && decide ((64 * line + j) * 256 < e.base + classBytes e.cls)
  let gone := fun (j : Nat) => (e.cls == 1 && covered j) || lost.any (fun k => k.val == j)
  let t := (s.fillLine m [] ⟨e.ch, 2, line / 64⟩).fillLine m [] ⟨e.ch, 1, line⟩
  let t := (t.setChan m e.ch ((t.chan m e.ch).overflow line gone)).sealTally m (R.SEAL_PERF_OVF m) 1
  let t := t.dirty m ⟨e.ch, 1, line⟩
  let t := (List.range 8).foldl (fun t j =>
    let ln : SealLine := ⟨e.ch, 3, 8 * line + j⟩
    (t.fillLine m [] ln).dirty m ln) t
  (List.range 64).foldl (fun t j => if gone j then t.wipe m e.ch ((64 * line + j) * 256) 256 else t) t

/-- Classes 2-5 (R259): the lost L1 and L2 lines are written new under the channel's next generation, past the caches, and
their parents updated under R247. -/
def State.reinitLines (s : State) (m : Fin 16) (e : PoisonEntry) : State :=
  let g := s.get (R.SEAL_GEN m) (genField e.ch) + 1
  let s := s.put (R.SEAL_GEN m) (genField e.ch) g
  let n := classBytes e.cls
  let l1 := (List.range (n / 16384)).map (fun i => e.base / 16384 + i)
  let l2 := if e.cls < 4 then [] else (List.range (n / 2 ^ 20)).map (fun i => e.base / 2 ^ 20 + i)
  let renew := fun (lvl : Nat) (c : SealChan) (i : Nat) => (c.setMajor lvl i (g * 2 ^ 56)).fillMinors lvl i 0
  let stale := fun (p : SealLine × Bool) => p.1.ch == e.ch &&
    ((p.1.level == 1 && l1.contains p.1.idx) || (p.1.level == 2 && l2.contains p.1.idx))
  let s := s.setEng m { s.eng m with lines := (s.eng m).lines.filter (fun p => !stale p) }
  let s := if e.cls < 4 then s.fillLine m [] ⟨e.ch, 2, e.base / 2 ^ 20⟩ else s
  let t := s.setChan m e.ch (l2.foldl (renew 2) (l1.foldl (renew 1) (s.chan m e.ch)))
  let t := if e.cls < 4 then l1.foldl (fun t i => t.touchLine m ⟨e.ch, 1, i⟩ []) t
    else l2.foldl (fun t i => t.touchLine m ⟨e.ch, 2, i⟩ []) t
  t.wipe m e.ch e.base n

/-- SEAL_REINIT_COMPLETE (R259): the reinit finishes, sets DONE and clears its entry; where a full write has meanwhile
removed the entry (R257), nothing is left to do. `lost` names the blocks of the L1 line whose own tag cannot be verified. -/
def execSealReinitComplete (m : Fin 16) (lost : List (Fin 64)) (s : State) : Out :=
  match (s.eng m).reinit with
  | none => .next s
  | some i =>
    let t := match (s.eng m).ptab.find? (fun p => p.1 == i) with
      | none => s
      | some (_, e) => if e.cls < 2 then s.reinitBlocks m e lost else s.reinitLines m e
    let t := t.setEng m { t.eng m with reinit := none, ptab := (t.eng m).ptab.filter (fun p => p.1 != i) }
    let t := (t.put (R.SEAL_REINIT_STATUS m) F.SEAL_REINIT_STATUS_BUSY 0).put (R.SEAL_REINIT_STATUS m) F.SEAL_REINIT_STATUS_DONE 1
    .next (t.syncPoison m)

/-! ### Scrub, initialisation, counters (R262, R263, R267) -/

/-- Bursts of a channel's DIMM: data and metadata, the park area included (R237). -/
def dimmBursts (ns : Nat) : Nat := if ns = 0 then 0 else (parkBase ns + 320 * 1024) / 64

/-- N_s of a channel. -/
def State.nsOf (s : State) (m : Fin 16) (c : Fin 2) : Nat := s.get (R.SEAL_DATAMIB m c) F.SEAL_DATAMIB_MIB

/-- An uncorrectable burst at byte address `a` of a DIMM with N_s = n, met by the scrub (R237, R255). A burst of the mirror
is written anew from its primary; the park area holds nothing while the canton runs. -/
def State.scrubFail (s : State) (m : Fin 16) (c : Fin 2) (n a : Nat) (mirror : BurstErrs) : State :=
  if a < tagBase n then s.failItem m c 0 a 0x3204 false
  else if a < l1Base n then s.failItem m c 1 ((a - tagBase n) / 64 * 2048) 0x3205 false
  else if a < l1tBase n then s.failItem m c 2 ((a - l1Base n) / 64 * 16384) 0x3206 false
  else if a < l2Base n then s.failItem m c 3 ((a - l1tBase n) / 64 * 131072) 0x3205 false
  else if a < mirBase n then
    let tags := decide (l2tBase n ≤ a)
    let l := if tags then (a - l2tBase n) / 64 * 2 ^ 23 else (a - l2Base n) / 64 * 2 ^ 20
    let (mm, mc) := s.mirrorOf m c
    let t := s.noteFetch mm mc mirror
    let f := fetchOf mirror
    if f = .ecc ∨ f = .badTag then
      t.failItem m c (if tags then 5 else 4) l (if f = .badTag then 0x3413 else 0x3207) (f == .badTag)
    else t.sealEvent m c 0x3102 0xFFFF (t.mpaOf m c l)
  else s

/-- PATROL_SCRUB_STEP (R262): the next burst, `f` its errors, is read in its turn, one pass in HOURS hours; a corrected one
is written back, an uncorrectable one treated as in R255 (`mirror`: the copy of an L2 line or tag line). With TAGSCRUB the
tag of a written block is verified with its last burst (`block`: the errors of its four). -/
def execPatrolScrubStep (m : Fin 16) (f mirror block : BurstErrs) (s : State) : Out :=
  if !s.flag (R.MC_SCRUB_CTL m) F.MC_SCRUB_CTL_EN || (s.eng m).asleep then .next s
  else
    let na := dimmBursts (s.nsOf m 0)
    let total := na + dimmBursts (s.nsOf m 1)
    let pass := s.get (R.MC_SCRUB_CTL m) F.MC_SCRUB_CTL_HOURS * 3600 * ticksPerSec
    if total = 0 ∨ s.now < (s.eng m).patrolAt + pass / total then .next s
    else
      let p := (s.eng m).scrub % total
      let c : Fin 2 := if p < na then 0 else 1
      let a := 64 * (if p < na then p else p - na)
      let n := s.nsOf m c
      let t := s.noteFetch m c f
      let t := if fetchOf f = .ecc then t.scrubFail m c n a mirror else t
      let check := s.flag (R.MC_SCRUB_CTL m) F.MC_SCRUB_CTL_TAGSCRUB && decide (a < tagBase n) && a % 256 == 192 && s.writtenBlock m c a
      let t := if check && fetchOf block == .badTag then t.failItem m c 0 a 0x3410 true else t
      let q := p + 1
      let t := t.setEng m { t.eng m with scrub := q % total, patrolAt := s.now }
      let t := t.put (R.MC_SCRUB_STATUS m) F.MC_SCRUB_STATUS_PROGRESS (q % total * 1024 / total)
      .next (if q = total then t.bump (R.MC_SCRUB_STATUS m) F.MC_SCRUB_STATUS_PASSES 1 else t)

/-- RESIDENT_SCRUB (R262): every 10 ms the resident store and its tags are scrubbed and verified. -/
def execResidentScrub (m : Fin 16) (r : CacheFault) (s : State) : Out :=
  if (s.eng m).asleep ∨ s.now < (s.eng m).scrubbed + ticksPerSec / 100 then .next s
  else .next ((s.setEng m { s.eng m with scrubbed := s.now }).cacheStage m 0 r).1

/-- The tree of a memory die written new (R263): every counter and root 0, no block written, no range poisoned. -/
def State.newTree (s : State) (m : Fin 16) : State :=
  let e := s.eng m
  let t := s.setEng m { e with chans := e.chans.map (fun c => { c with minors := [], majors := [], root := 0 }), lines := [], ptab := [] }
  let t := { t with mem := t.mem.filter (fun c => match t.channelOf c.1 with | some q => q.1 != m.val | none => true) }
  (t.wr (R.SEAL_GEN m) 0).syncPoison m

/-- TREE_INIT_COMPLETE (R263): with keys loaded and the canton not stopped, the engine has initialised its tree and sets TREE. -/
def execTreeInitComplete (m : Fin 16) (s : State) : Out :=
  if s.flag (R.SEAL_STATUS m) F.SEAL_STATUS_KEYS = true ∧ s.flag (R.SEAL_STATUS m) F.SEAL_STATUS_TREE = false ∧
      s.cantonStopped (s.colCanton (m.val % 8)) = false then
    .next ((s.newTree m).put (R.SEAL_STATUS m) F.SEAL_STATUS_TREE 1)
  else .next s

/-- SEAL_PERF_CLEAR (R267): the performance counters are set to 0. -/
def execSealPerfClear (m : Fin 16) (s : State) : Out :=
  .next (s.clearCounts (R.SEAL_PERF_CTL m) [R.SEAL_PERF_OVF m, R.SEAL_PERF_RMW m, R.SEAL_PERF_CCMISS m, R.SEAL_PERF_TCMISS m])

/-! ### Parking (R264) -/

/-- The engine parked: caches written back, roots sent to the always-on domain, channels in self-refresh. -/
def State.sealPark (s : State) (m : Fin 16) : State :=
  let t := ((s.eng m).lines.map (fun p => p.1)).foldl (fun t ln => t.evictLine m [] ln) s
  let e := t.eng m
  t.setEng m { e with asleep := true, chans := e.chans.map (fun c => { c with saved := c.root }) }

/-- The engine taken out of PARKED: the park area (`ok`: it comes back as it was written) verified against the saved
roots, or alarm 0x3415 and the canton stopped. -/
def State.sealUnpark (s : State) (m : Fin 16) (ok : Bool) : State :=
  if ok && (s.eng m).chans.toList.all (fun c => c.saved == c.root) then s.wake m
  else ((s.tagFail m).stopCanton m).sealEvent m 0 0x3415 0xFFFF 0

/-! ### What a channel's DIMM holds (R237, R240-R243, R248)

The state keeps plaintext and counters; what stands on the DIMM once the caches are written back follows from them. -/

/-- CHAN of a counter block (R240). -/
def chanNo (m : Fin 16) (c : Fin 2) : Nat := 2 * m.val + c.val

/-- The counter block of word w of seal block i (R240). -/
def State.blockCb (s : State) (m : Fin 16) (c : Fin 2) (i w : Nat) : List Byte :=
  let x := s.chan m c
  counterBlock (x.major 1 (i / 64)) (x.minor 1 i) (chanNo m c) i 0 w

/-- The ciphertext of seal block i (R241). -/
def State.cipherBlock (s : State) (m : Fin 16) (c : Fin 2) (i : Nat) : List Byte :=
  let plain := s.bytes (s.mpaOf m c (256 * i)) 256
  let key := ((s.eng m).keys.getD ([], [])).1
  (List.range 16).flatMap (fun w => cipherWord key (s.blockCb m c i w) ((plain.drop (16 * w)).take 16))

/-- The tag of seal block i (R242). -/
def State.blockTag (s : State) (m : Fin 16) (c : Fin 2) (i : Nat) : List Byte :=
  sealTag ((s.eng m).keys.getD ([], [])).2 (s.blockCb m c i 0) (s.cipherBlock m c i)

/-- Line `idx` of a level (R243). -/
def SealChan.line (x : SealChan) (lvl idx : Nat) : List Byte :=
  lineBytes (x.major lvl idx) ((List.range 64).map (fun j => x.minor lvl (64 * idx + j)))

/-- The tag of line `idx` of a level under its parent's counters (R242, R247): the root alone governs L5 (its value as
MAJOR with MINOR 0 is the model's choice, log 126). -/
def State.lineTag (s : State) (m : Fin 16) (c : Fin 2) (lvl idx : Nat) : List Byte :=
  let x := s.chan m c
  let cb := if lvl = 5 then counterBlock x.root 0 (chanNo m c) idx lvl 0
    else counterBlock (x.major (lvl + 1) (idx / 64)) (x.minor (lvl + 1) idx) (chanNo m c) idx lvl 0
  sealTag ((s.eng m).keys.getD ([], [])).2 cb (x.line lvl idx)

/-- Resident lines of a channel as the park area holds them (R264): levels 3, 4, 5 in ascending order, then their tags in
that order (the model's choice, log 126). -/
def State.parkImage (s : State) (m : Fin 16) (c : Fin 2) : List Byte :=
  let n := s.nsOf m c
  let all := (List.range (ceilDiv n 64)).map (fun i => (3, i)) ++ (List.range (ceilDiv n 4096)).map (fun i => (4, i)) ++ [(5, 0)]
  all.flatMap (fun p => (s.chan m c).line p.1 p.2) ++ all.flatMap (fun p => s.lineTag m c p.1 p.2)

/-- The L2 line or tag byte at offset o of a mirror area (R237, R248): the mirrored channel's lines, then its tags. -/
def State.mirrorByte (s : State) (m : Fin 16) (c : Fin 2) (o : Nat) : Option Byte :=
  let n := s.nsOf m c
  if o < 64 * n then ((s.chan m c).line 2 (o / 64))[o % 64]?
  else (s.lineTag m c 2 ((o - 64 * n) / 8))[(o - 64 * n) % 8]?

/-- The channel whose L2 lines are mirrored on channel c of memory die m (R248): the relation is its own inverse. -/
def State.mirroredOn (s : State) (m : Fin 16) (c : Fin 2) : Fin 16 × Fin 2 := s.mirrorOf m c

/-- The byte that the engine has put at address `a` of a channel's DIMM once its caches are written back; none where it has
written nothing (an unwritten block and its tag, R263). -/
def State.dimmByte (s : State) (m : Fin 16) (c : Fin 2) (a : Nat) : Option Byte :=
  let n := s.nsOf m c
  let x := s.chan m c
  if a < tagBase n then
    if s.writtenBlock m c a then (s.cipherBlock m c (a / 256))[a % 256]? else none
  else if a < l1Base n then
    let o := a - tagBase n
    if x.minor 1 (o / 8) != 0 then (s.blockTag m c (o / 8))[o % 8]? else none
  else if a < l1tBase n then (x.line 1 ((a - l1Base n) / 64))[(a - l1Base n) % 64]?
  else if a < l2Base n then (s.lineTag m c 1 ((a - l1tBase n) / 8))[(a - l1tBase n) % 8]?
  else if a < l2tBase n then (x.line 2 ((a - l2Base n) / 64))[(a - l2Base n) % 64]?
  else if a < mirBase n then (s.lineTag m c 2 ((a - l2tBase n) / 8))[(a - l2tBase n) % 8]?
  else if a < parkBase n then
    let p := s.mirroredOn m c
    s.mirrorByte p.1 p.2 (a - mirBase n)
  else if (s.eng m).asleep then (s.parkImage m c)[a - parkBase n]? else none

end Sys2Proof.Machine
end

