-- ==== Sys2Proof/Machine/Double.lean ====
section
/-! DEFINITION. The binary64 arithmetic of the update-engine microcode (R277): every value is an exact dyadic number,
rounded once to nearest even after each operation. -/
namespace Sys2Proof

/-- A nonzero magnitude n/d * 2^e rounded to binary64 as significand and exponent; none beyond its range. -/
def d64Mag (n d : Nat) (e : Int) : Option (Nat × Int) :=
  let ex := max (floorLog2Q n d + e) (-1022)
  let q := ex - 52
  let num := n * 2 ^ (e - q).toNat
  let den := d * 2 ^ (q - e).toNat
  let c := num / den
  let r := num % den
  let c := if den < 2 * r ∨ (2 * r = den ∧ c % 2 = 1) then c + 1 else c
  if decide (1023 < (log2N c : Int) + q) then none else some (c, q)

/-- The quotient of two dyadic magnitudes with a sign, rounded to binary64. -/
def d64Q (s : Bool) (n d : Nat) (e : Int) : FVal :=
  if n = 0 then .fin s 0 0
  else match d64Mag n d e with
    | some (m, g) => .fin s m g
    | none => .inf s

/-- A value rounded to binary64. -/
def d64 : FVal → FVal
  | .fin s m e => d64Q s m 1 e
  | v => v

/-- Binary64 sum. -/
def d64Add (a b : FVal) : FVal := d64 (FVal.add a b).1
/-- Binary64 difference. -/
def d64Sub (a b : FVal) : FVal := d64 (FVal.add a b.neg).1
/-- Binary64 product. -/
def d64Mul (a b : FVal) : FVal := d64 (FVal.mul a b).1

/-- y^n for an exact y, rounded once (R277). -/
def pown (y : FVal) (n : Nat) : FVal :=
  match y with
  | .nan => if n = 0 then .fin false 1 0 else .nan
  | .inf s => if n = 0 then .fin false 1 0 else .inf (s && n % 2 == 1)
  | .fin s m e => d64 (.fin (s && n % 2 == 1) (m ^ n) (e * n))

/-- π × 2^320, rounded down. -/
def piFix : Nat := 0x3243f6a8885a308d313198a2e03707344a4093822299f31d0082efa98ec4e6c89452821e638d01377

/-- Terms of the cosine series in units of 2^-320: the sum so far, the next term and its number. -/
def cosSeries (y2 : Nat) : Nat → Int → Nat → Nat → Int
  | 0, acc, _, _ => acc
  | fuel + 1, acc, term, k =>
    let acc := if k % 2 = 0 then acc + (term : Int) else acc - (term : Int)
    cosSeries y2 fuel acc (term * y2 / 2 ^ 320 / ((2 * k + 1) * (2 * k + 2))) (k + 1)

/-- cos (π × x) for 0 ≤ x ≤ 1/2, x = num / 2^320, in units of 2^-320. -/
def cosFix (num : Nat) : Int :=
  let y := num * piFix / 2 ^ 320
  cosSeries (y * y / 2 ^ 320) 90 0 (2 ^ 320) 0

/-- cos (π × x) for x in [0, 1], rounded once to binary64 (R277). The series is summed with 320 fraction bits, far
beyond the 53 that remain (UNVERIFIED: log 41). -/
def cospi (x : FVal) : FVal :=
  match x with
  | .fin _ m e =>
    let num := m * 2 ^ (e + 320).toNat / 2 ^ (-(e + 320)).toNat
    if 2 * num = 2 ^ 320 then .fin false 0 0
    else if 2 * num < 2 ^ 320 then d64 (FVal.ofScaled (cosFix num) (-320))
    else d64 (FVal.ofScaled (-(cosFix (2 ^ 320 - num))) (-320))
  | _ => .nan

/-- RNE32: a binary64 value rounded to an FP32 code, with the flags of that rounding. -/
def rne32f (v : FVal) : Nat × Flags := NFmt.fp32.round false .rne v
/-- RNE32: the code alone. -/
def rne32 (v : FVal) : Nat := (rne32f v).1

end Sys2Proof
end

