-- ==== Sys2Proof/Machine/UpdateMath.lean ====
section
/-! DEFINITION. The arithmetic of the update engine (R274-R282) and the derivation of working copies (R199, R200). -/
namespace Sys2Proof.Machine

/-! ### Schedule and scalars (R276-R278) -/

/-- An entry of the schedule table (R276). -/
def parseSeg (b : List Byte) : SchedSeg := ⟨fieldAt b 0 4, fieldAt b 4 1, fieldAt b 5 3, fieldAt b 8 4, fieldAt b 12 4⟩

/-- Entries up to and with the end marker; none where the table has none in its 16 places. -/
def takeSched (b : List Byte) : Nat → Nat → Option (List SchedSeg)
  | 0, _ => none
  | fuel + 1, i =>
    let e := parseSeg ((b.drop (16 * i)).take 16)
    if e.kind = 0xFF then some [e] else (takeSched b fuel (i + 1)).map (fun l => e :: l)

/-- Whether the entries rise strictly and each is well formed. -/
def segsOk : List SchedSeg → Bool
  | [] => false
  | [e] => e.kind == 0xFF
  | e :: f :: l =>
    decide (e.start < f.start) && decide (e.kind < 4) && (if e.kind = 3 then e.period != 0 else e.period == 0) && segsOk (f :: l)

/-- The schedule of a table (R276); none where the table breaks a rule. -/
def parseSched (b : List Byte) : Option (List SchedSeg) :=
  match takeSched b 16 0 with
  | some (e :: f :: l) => if e.start = 0 ∧ segsOk (e :: f :: l) = true then some (e :: f :: l) else none
  | _ => none

/-- 1 in binary64. -/
def one64 : FVal := .fin false 1 0

/-- The segment of step t with its end: the last whose START is at most t (R277). -/
def segFor (t : Nat) : List SchedSeg → Option (SchedSeg × Nat)
  | e :: f :: l =>
    if f.kind = 0xFF then some (e, f.start)
    else if f.start ≤ t then segFor t (f :: l) else some (e, f.start)
  | _ => none

/-- START of the end marker. -/
def schedEnd (l : List SchedSeg) : Nat := (l.getLast?.map (fun e => e.start)).getD 0

/-- The rate lr(t) in binary64 (R277). -/
def lrAt (l : List SchedSeg) (t : Nat) : FVal :=
  match segFor t l with
  | none => .fin false 0 0
  | some (e, next) =>
    let a := f32 e.a
    let b := f32 e.b
    let x := if schedEnd l ≤ t then one64 else d64Q false (t - e.start) (next - e.start) 0
    if e.kind = 0 then a
    else if e.kind = 1 then d64Add a (d64Mul (d64Sub b a) x)
    else if e.kind = 2 then
      d64Add b (d64Mul (d64Sub a b) ((d64Add one64 (cospi x)).scale2 (-1)))
    else d64Mul a (pown b ((min t (schedEnd l) - e.start) / e.period))

/-- The scalars of a shard step (R278), as FP32 codes. -/
structure Scalars where
  c : Nat
  eta : Nat
  dec : Nat
  a1 : Nat
  a2 : Nat
  bc1 : Nat
  bc2 : Nat
  deriving DecidableEq, Repr

/-- FP32 code of 1. -/
def oneCode : Nat := 0x3F800000

/-- An FP32 code negated. -/
def negCode (x : Nat) : Nat := x ^^^ 0x80000000

/-- The scalars that follow from a journal entry and the descriptor: dec, a1 and a2 beside those kept. -/
def ShardDesc.scalars (d : ShardDesc) (j : Journal) : Scalars :=
  ⟨j.clip, j.lr, (f32Fma (negCode j.lr) d.decay oneCode).1, rne32 (d64Sub one64 (f32 d.beta1)),
   rne32 (d64Sub one64 (f32 d.beta2)), j.bc1, j.bc2⟩

/-- η of step t, with its flags. -/
def ShardDesc.etaAt (d : ShardDesc) (l : List SchedSeg) (t : Nat) : Nat × Flags := rne32f (d64Mul (lrAt l t) (f32 d.lrmul))

/-- A bias correction 1 − β^t, with its flags. -/
def biasCorr (beta t : Nat) : Nat × Flags := rne32f (d64Sub one64 (pown (f32 beta) t))

/-- The flags of the scalars that are formed from η and the descriptor alone: dec, a1 and a2 (R67, R278). -/
def ShardDesc.scalarFlags (d : ShardDesc) (eta : Nat) : Flags :=
  ((f32Fma (negCode eta) d.decay oneCode).2.or (rne32f (d64Sub one64 (f32 d.beta1))).2).or (rne32f (d64Sub one64 (f32 d.beta2))).2

/-! ### One element (R279, R280) -/

/-- An exact result with its invalid flag, written in FP32 or BF16 with one rounding. -/
def wrAs (bf : Bool) (mode : Rnd) (r : FVal × Bool) : Nat × Flags :=
  let (c, fl) := (if bf then NFmt.bf16 else NFmt.fp32).round false mode r.1
  (c, { fl with inv := fl.inv || r.2 })

/-- A moment's code as an FP32 code. -/
def momCode (bf : Bool) (c : Nat) : Nat := if bf then c * 65536 else c

/-- The clipped gradient of an element; the flag says that a non-finite one was replaced by +0 (R279). -/
def clipped (c g : Nat) : Nat × Bool × Flags :=
  let (x, fl) := f32Mul c g
  if (f32 x).isFin then (x, false, fl) else (0, true, fl)

/-- Sign of a value as 0b00, 0b01 or 0b11 (R286). -/
def lionSign (x : Nat) : Nat := if (f32 x).isNaN || (f32 x).isZero then 0 else if (f32 x).sign then 3 else 1

/-- The moment phase of an element: first moment, second moment, recovery record, replaced gradient, flags (R279). -/
def ShardDesc.moments (d : ShardDesc) (k : Scalars) (r1 r2 : Rnd) (grad m v : Nat) : Nat × Nat × Nat × Bool × Flags :=
  let (g, bad, f0) := clipped k.c grad
  let m := momCode d.mbf16 m
  let v := momCode d.mbf16 v
  if d.opt = 0 then
    let (p, f1) := f32Mul d.beta1 m
    let (m', f2) := wrAs d.mbf16 r1 (FVal.fma (f32 k.a1) (f32 g) (f32 p))
    let (q, f3) := f32Mul d.beta2 v
    let (gg, f4) := f32Mul g g
    let (v', f5) := wrAs d.mbf16 r2 (FVal.fma (f32 k.a2) (f32 gg) (f32 q))
    (m', v', 0, bad, ((((f0.or f1).or f2).or f3).or f4).or f5)
  else if d.opt = 1 then
    let (m', f1) := wrAs d.mbf16 r1 (FVal.fma (f32 d.beta1) (f32 m) (f32 g))
    (m', 0, 0, bad, f0.or f1)
  else
    let (p, f1) := f32Mul d.beta1 m
    let (z, f2) := f32Fma k.a1 g p
    let f3 : Flags := if (f32 z).isNaN then { inv := true } else Flags.none
    let (q, f4) := f32Mul d.beta2 m
    let (m', f5) := wrAs d.mbf16 r1 (FVal.fma (f32 k.a2) (f32 g) (f32 q))
    (m', 0, lionSign z, bad, ((((f0.or f1).or f2).or f3).or f4).or f5)

/-- The master phase of an element, from the moments as written (R279). `rec` is the Lion sign. -/
def ShardDesc.masterOf (d : ShardDesc) (k : Scalars) (r : Rnd) (w m v sg : Nat) : Nat × Flags :=
  let (x, f0) := f32Mul k.dec w
  let m := momCode d.mbf16 m
  let v := momCode d.mbf16 v
  if d.opt = 0 then
    let (a, f1) := f32Div m k.bc1
    let (b, f2) := f32Div v k.bc2
    let (c, f3) := f32Sqrt b
    let (e, f4) := f32Add c d.eps
    let (u, f5) := f32Div a e
    let (w', f6) := wrAs false r (FVal.fma (f32 (negCode k.eta)) (f32 u) (f32 x))
    (w', (((((f0.or f1).or f2).or f3).or f4).or f5).or f6)
  else
    let u := if d.opt = 1 then m else if sg = 1 then oneCode else if sg = 3 then negCode oneCode else 0
    let (w', f1) := wrAs false r (FVal.fma (f32 (negCode k.eta)) (f32 u) (f32 x))
    (w', f0.or f1)

/-- The outer momentum of an element and its recovery record Gout (R280). -/
def ShardDesc.outerMom (d : ShardDesc) (r : Rnd) (delta o : Nat) : Nat × Nat × Flags :=
  let gout := negCode delta
  let (h, f) := wrAs false r (FVal.fma (f32 d.omu) (f32 o) (f32 gout))
  (h, gout, f)

/-- The master of an element after an outer step (R280). -/
def ShardDesc.outerMaster (d : ShardDesc) (r : Rnd) (h gout snap : Nat) : Nat × Flags :=
  let (x, f0) := f32Fma d.omu h gout
  let (w, f1) := wrAs false r (FVal.fma (f32 (negCode d.olr)) (f32 x) (f32 snap))
  (w, f0.or f1)

/-! ### Stochastic draws (R63-R65, R275) -/

/-- Draws of bank b for n elements, 16 a cycle: each of its four generators advances once for its four lanes. A use of which
`on` names no lane, four elements of padding, rounds nothing and advances nothing (R64). -/
def bankDraws (gens : Vector (BitVec 64) 24) (b n : Nat) (on : Nat → Bool) : Vector (BitVec 64) 24 × List Nat :=
  (List.range ((n + 3) / 4)).foldl (fun (acc : Vector (BitVec 64) 24 × List Nat) i =>
    if [0, 1, 2, 3].any (fun k => on (4 * i + k)) then
      let g := 4 * b + i % 4
      let st := genAdvance (acc.1.getD g 0)
      (acc.1.setIfInBounds g st, acc.2 ++ [genDraw st 0, genDraw st 1, genDraw st 2, genDraw st 3])
    else (acc.1, acc.2 ++ [0, 0, 0, 0])) (gens, [])

/-- Rounding modes of n elements of a bank: stochastic ones with draws, or all to nearest even without a draw. -/
def bankModes (gens : Vector (BitVec 64) 24) (sr : Bool) (b n : Nat) (on : Nat → Bool) : Vector (BitVec 64) 24 × Array Rnd :=
  if sr then
    let r := bankDraws gens b n on
    (r.1, (r.2.map Rnd.sr).toArray)
  else (gens, (List.replicate n Rnd.rne).toArray)

/-! ### Working copies of a square (R197, R199, R200) -/

/-- Extent left in the shard from a coordinate on, at most a square's side. -/
def left (ext from_ side : Nat) : Nat := min side (ext - from_)

/-- Index in the square (row-major over k, n) of reduction row r and column c of a copy. -/
def sqIdx (tr : Bool) (side r c : Nat) : Nat := if tr then c * side + r else r * side + c

/-- Scale bytes of a square's copy: block b of column c at place side·b + c. Blocks outside the tensor hold 0x7F. -/
def ShardDesc.scalesOf (d : ShardDesc) (tr : Bool) (w : Array Nat) (rows cols : Nat) : Array Nat :=
  ((List.range (d.side / 32)).flatMap (fun b => (List.range d.side).map (fun c =>
    if c < cols then
      blockScale d.fmt (((List.range 32).filter (fun i => decide (32 * b + i < rows))).map
        (fun i => f32 (w.getD (sqIdx tr d.side (32 * b + i) c) 0)))
    else 0x7F))).toArray

/-- Element code at row r, column c of a square's copy; 0 outside the tensor. -/
def ShardDesc.codeOf (d : ShardDesc) (tr : Bool) (w : Array Nat) (scales : Array Nat) (modes : Array Rnd) (rows cols r c : Nat) :
    Nat × Flags :=
  if r < rows ∧ c < cols then
    let i := sqIdx tr d.side r c
    let x := f32 (w.getD i 0)
    let mode := modes.getD i .rne
    if d.scaled then blockElem d.fmt mode (scales.getD (d.side * (r / 32) + c) 0x7F) x else NFmt.bf16.round false mode x
  else (0, Flags.none)

/-- The 16,384 bytes of a tile (R89), from the code at each row and column. -/
def ShardDesc.tileBytes (d : ShardDesc) (code : Nat → Nat → Nat) : List Byte :=
  if d.wfmt = 2 then
    (List.range 16384).map (fun b => BitVec.ofNat 8 (code (b / 128 * 2) (b % 128) % 16 + code (b / 128 * 2 + 1) (b % 128) % 16 * 16))
  else if d.wfmt = 4 then
    (List.range 8192).flatMap (fun b => leBytes 2 (code (b / 128) (b % 128)))
  else (List.range 16384).map (fun b => BitVec.ofNat 8 (code (b / 128) (b % 128)))

/-- The writes of one copy of a square, data tile and scale tile in turn: address and bytes, with the flags raised. -/
def ShardDesc.copyWrites (d : ShardDesc) (tr : Bool) (s : Nat) (w : Array Nat) (modes : Array Rnd) : List (Nat × List Byte) × Flags :=
  let (j, k0, n0) := d.origin s
  let rExt := if tr then d.ns else d.ks
  let cExt := if tr then d.ks else d.ns
  let r0 := if tr then n0 else k0
  let c0 := if tr then k0 else n0
  let rows := left rExt r0 d.side
  let cols := left cExt c0 d.side
  let scales := if d.scaled then d.scalesOf tr w rows cols else #[]
  let code := fun (r c : Nat) => d.codeOf tr w scales modes rows cols r c
  let tiles := ((List.range (d.side / d.tk)).flatMap (fun a => (List.range (d.side / 128)).map (fun b => (a, b)))).filter
    (fun p => decide (r0 + p.1 * d.tk < rExt) && decide (c0 + p.2 * 128 < cExt))
  let writes := tiles.flatMap (fun p =>
    let t := j * d.tiles tr + (c0 / 128 + p.2) * ceilDiv rExt d.tk + (r0 / d.tk + p.1)
    let data := d.tileBytes (fun r c => (code (p.1 * d.tk + r) (p.2 * 128 + c)).1)
    let scl := (List.range (d.tk / 32)).flatMap (fun b => (List.range 128).map (fun c =>
      BitVec.ofNat 8 (scales.getD (d.side * (p.1 * d.tk / 32 + b) + p.2 * 128 + c) 0x7F)))
    ((if tr then d.trans else d.plain) + 16384 * t, data) ::
      (if d.scaled then [((if tr then d.tscale else d.pscale) + d.stile * t, scl)] else []))
  let fl := (List.range rows).foldl (fun f r => (List.range cols).foldl (fun f c => f.or (code r c).2) f) Flags.none
  (writes, fl)

/-- The copy of a vector's square: a flat BF16 array (R271). -/
def ShardDesc.vectorWrites (d : ShardDesc) (s : Nat) (w : Array Nat) (modes : Array Rnd) : List (Nat × List Byte) × Flags :=
  let r := (List.range 16384).map (fun i =>
    if d.present s i then NFmt.bf16.round false (modes.getD i .rne) (f32 (w.getD i 0)) else (0, Flags.none))
  ([(d.plain + 32768 * s, r.flatMap (fun x => leBytes 2 x.1))], r.foldl (fun f x => f.or x.2) Flags.none)

/-- Both copies of a square, plain before transposed (R201), from its master codes; the generators advanced. -/
def ShardDesc.copies (d : ShardDesc) (gens : Vector (BitVec 64) 24) (s : Nat) (w : List Nat) :
    Vector (BitVec 64) 24 × List (Nat × List Byte) × Flags :=
  let a := w.toArray
  let (g1, m1) := bankModes gens d.src 3 d.sq (d.present s)
  if d.vector then
    let (x, f) := d.vectorWrites s a m1
    (g1, x, f)
  else
    let (g2, m2) := bankModes g1 d.src 4 d.sq (d.present s)
    let (x, f1) := d.copyWrites false s a m1
    let (y, f2) := d.copyWrites true s a m2
    (g2, x ++ y, f1.or f2)

/-! ### The sum of squares (R281) -/

/-- Lane accumulators after one square's gradients. -/
def laneSums (lanes : Array (Nat × Flags)) (xs : List Nat) : Array (Nat × Flags) :=
  (xs.zipIdx).foldl (fun l p =>
    let i := p.2 % 16
    let old := l.getD i (0, Flags.none)
    let (q, f1) := f32Mul p.1 p.1
    let (r, f2) := f32Add old.1 q
    l.setIfInBounds i (r, (old.2.or f1).or f2)) lanes

/-- A level of the tree: lanes 2t and 2t + 1 paired. -/
def pairSums : List (Nat × Flags) → List (Nat × Flags)
  | a :: b :: l =>
    let (r, f) := f32Add a.1 b.1
    (r, (a.2.or b.2).or f) :: pairSums l
  | l => l

/-- The FP32 sum of squares of a list of squares, and its flags. -/
def sumSquares (sqs : List (List Nat)) : Nat × Flags :=
  let lanes := sqs.foldl laneSums ((List.replicate 16 (0, Flags.none)).toArray)
  (pairSums (pairSums (pairSums (pairSums lanes.toList)))).headD (0, Flags.none)

end Sys2Proof.Machine
end

