-- ==== Sys2Proof/Machine/Update.lean ====
section
/-! DEFINITION. The update engine of a memory die (08_update_engine.md, R268-R303). -/
namespace Sys2Proof.Machine

/-! ### State of the engine -/

/-- Update engine of memory die m. -/
def State.ue (s : State) (m : Fin 16) : Ue := (s.md m).ue
/-- Update engine of memory die m replaced. -/
def State.setUe (s : State) (m : Fin 16) (u : Ue) : State := s.setMd m { s.md m with ue := u }
/-- Die number of a memory die. -/
def mdDie (m : Fin 16) : Nat := 40 + m.val
/-- Canton of a memory die. -/
def State.mdCanton (s : State) (m : Fin 16) : Nat := s.colCanton (m.val % 8)
/-- A base register pair: bits [31:12] and [47:32]. -/
def State.base4k (s : State) (lo hi : Nat) : Nat := (s.rd lo).toNat / 4096 * 4096 + (s.rd hi).toNat % 65536 * 2 ^ 32

/-- A shard of the engine by index. -/
def State.shard? (s : State) (m : Fin 16) (i : Nat) : Option Shard := (s.ue m).shards.find? (fun x => x.idx == i)
/-- A shard's journal entry replaced. -/
def State.setJ (s : State) (m : Fin 16) (i : Nat) (j : Journal) : State :=
  let u := s.ue m
  s.setUe m { u with shards := u.shards.map (fun x => if x.idx = i then { x with j := j } else x) }

/-- UE_FAULT (R302): the first fault stays while VALID = 1. -/
def State.ueFault (s : State) (m : Fin 16) (code shard : Nat) : State :=
  if s.flag (R.UE_FAULT m) F.UE_FAULT_VALID then s
  else s.wr (R.UE_FAULT m) (BitVec.ofNat 32 (code + 16 + shard % 16384 * 256))

/-- An update-engine event (R302, R509): shard, step, tensor ID. -/
def State.ueEvent (s : State) (m : Fin 16) (code shard step : Nat) : State :=
  let ten := match s.shard? m shard with
    | some x => (x.desc.map (fun d => d.tensor)).getD 0
    | none => 0
  s.raise code (mdDie m) (some (s.mdCanton m)) (detail shard (step % 65536) ten)

/-- Sticky arithmetic flags of UE_STATUS (R67, R274). -/
def State.ueFlags (s : State) (m : Fin 16) (f : Flags) : State :=
  let a := R.UE_STATUS m
  (((s.setIf f.inv a F.UE_STATUS_INV).setIf f.ovf a F.UE_STATUS_OVF).setIf f.unf a F.UE_STATUS_UNF).setIf f.dz a F.UE_STATUS_DZ

/-- A PERF counter raised, unless they are frozen. -/
def State.uePerf (s : State) (m : Fin 16) (a n : Nat) : State :=
  if s.countsStand (R.UE_PERF_CTL m) then s else s.bump a F.UE_PERF_STALL_COUNT n

/-! ### Norms and held squares (R281-R284) -/

/-- A journal entry that counts no step. -/
def Journal.reset : Journal := ⟨0, 0, 0, 0, false, false, 0, 0, 0, 0, 0, 0, 0, 0⟩

/-- The landing record of a shard step. -/
def Ue.rec? (u : Ue) (shard : Nat) (outer : Bool) (step : Nat) : Option LandRec :=
  u.recs.find? (fun r => r.shard == shard && r.outer == outer && r.step == step)

/-- The norm N that an inner shard step uses, where it is known (R283): UE_LAGNORM, or the layer total or step total given
for it. -/
def State.normFor (s : State) (m : Fin 16) (r : LandRec) : Option Nat :=
  if r.mode = 1 ∨ (s.ue m).lagged.contains r.step = true then some (s.rd (R.UE_LAGNORM m)).toNat else r.norm.getD none

/-- Whether a shard is applying inner step t. -/
def Journal.applies (j : Journal) (t : Nat) : Bool := j.state == 1 && !j.outer && j.tstep == t

/-- Whether a landed square waits for a norm (R283). -/
def State.heldSquare (s : State) (m : Fin 16) (l : Landed) : Bool :=
  match l.outer, l.step, s.shard? m l.shard with
  | false, some t, some sh =>
    match (s.ue m).rec? l.shard false t with
    | some r => (s.normFor m r).isNone && !sh.j.applies t
    | none => false
  | _, _, _ => false

/-- Granules held for a norm. -/
def State.heldGrans (s : State) (m : Fin 16) : Nat :=
  ((s.ue m).landed.filter (s.heldSquare m)).foldl (fun n l => n + l.grans.length) 0

/-- STATE of the shards that apply no step: HELD while a square of theirs waits for a norm, IDLE else (R287). -/
def State.heldShards (s : State) (m : Fin 16) : State :=
  let held := ((s.ue m).landed.filter (s.heldSquare m)).map (fun l => l.shard)
  let u := s.ue m
  s.setUe m { u with shards := u.shards.map (fun x =>
    if x.j.state = 0 ∨ x.j.state = 2 then { x with j := { x.j with state := if held.contains x.idx then 2 else 0 } } else x) }

/-- STATE of the shards and UE_STATUS brought up to date, and the cycles with squares held counted. -/
def State.ueSync (s : State) (m : Fin 16) : State :=
  let s := s.heldShards m
  let u := s.ue m
  let held := s.heldGrans m
  let was := s.flag (R.UE_STATUS m) F.UE_STATUS_HOLDING
  let t := if was then s.uePerf m (R.UE_PERF_HOLD m) ((s.now - u.syncAt) / 3) else s
  let t := t.setUe m { t.ue m with syncAt := t.now }
  let a := R.UE_STATUS m
  let t := t.put a F.UE_STATUS_BUSY (u.burst.isSome || u.cmd.isSome || !u.recov.isEmpty).toNat
  let t := t.put a F.UE_STATUS_HOLDING (decide (0 < held)).toNat
  let t := t.put a F.UE_STATUS_RECOVER (!u.recov.isEmpty).toNat
  t.put a F.UE_STATUS_HELD held

/-- Shards of a layer that count for its norm record and its pennants (R281, R291). -/
def Ue.layerShards (u : Ue) (layer : Nat) : List (Shard × ShardDesc) :=
  u.shards.filterMap (fun x =>
    match x.desc with
    | some d => if d.layer = layer ∧ d.frozen = false ∧ x.j.state ≠ 5 then some (x, d) else none
    | none => none)

/-- Bytes written by the engine where R28 lets it: an access refused there is not made. -/
def State.uePost (s : State) (m : Fin 16) (a : Nat) (bs : List Byte) : State :=
  match s.checkRange (.updateEngine m) true a bs.length with
  | .busError cat => s.raiseCat cat (mdDie m) 28 (some (s.mdCanton m)) (detail 0 0 a)
  | .ok => s.mpaWrite (mdDie m) a bs

/-- The norm record of a layer's step, once the squares of every shard that counts have landed (R281). -/
def State.checkNorm (s : State) (m : Fin 16) (layer step : Nat) : State :=
  let u := s.ue m
  match u.norms.find? (fun x => x.1 == layer && x.2.1 == step) with
  | none => s
  | some (_, _, sqs) =>
    let shs := u.layerShards layer
    let mine := sqs.filter (fun q => shs.any (fun x => x.1.idx == q.1))
    let total := shs.foldl (fun n x => n + x.2.nsq) 0
    if total = 0 ∨ mine.length < total then s
    else
      let r := sumSquares (mine.map (fun q => q.2))
      let bad := mine.any (fun q => q.2.any (fun x => !(f32 x).isFin))
      let rec_ := leBytes 4 step ++ leBytes 2 layer ++ leBytes 2 bad.toNat ++ leBytes 4 r.1 ++ leBytes 4 0
      let t := s.setUe m { u with norms := u.norms.filter (fun x => !(x.1 == layer && x.2.1 == step)), nrec := u.nrec + 1 }
      let base := t.base4k (R.UE_NRING_LO m) (R.UE_NRING_HI m)
      let t := t.uePost m (base + 16 * (u.nrec % 256)) rec_
      (t.pennantTo (.updateEngine m) (base + 4096) 1).ueFlags m r.2

/-! ### Pennants (R291) -/

/-- Inner or outer steps that a shard has finished, its working copies included. -/
def Journal.done (j : Journal) (outer : Bool) : Nat :=
  let n := if outer then j.ostep else j.istep
  if j.state = 1 ∧ j.outer = outer ∧ j.tstep = n then n - 1 else n

/-- The least step all shards of a group have finished. -/
def leastDone (l : List (Shard × ShardDesc)) (outer : Bool) : Nat :=
  match l with
  | [] => 0
  | x :: xs => xs.foldl (fun n y => min n (y.1.j.done outer)) (x.1.j.done outer)

/-- The update pennants of a layer that have fallen due, posted (R291). -/
def State.checkLayer (s : State) (m : Fin 16) (layer : Nat) : State :=
  let shs := (s.ue m).layerShards layer
  if shs.any (fun x => x.1.j.state == 3 || x.1.j.state == 4) then s
  else
    [false, true].foldl (fun t o =>
      let grp := shs.filter (fun x => !o || x.2.outer)
      if grp.isEmpty then t
      else
        let n := leastDone grp o
        let u := t.ue m
        let last := match u.posted.find? (fun p => p.1 == layer && p.2.1 == o) with
          | some (_, _, k) => k
          | none => n
        let t := t.setUe m { u with posted := (layer, o, max n last) :: u.posted.filter (fun p => !(p.1 == layer && p.2.1 == o)) }
        let a := t.base4k (R.UE_PEN_LO m) (R.UE_PEN_HI m) + 8 * layer
        (List.range (n - last)).foldl (fun t _ => t.pennantTo (.updateEngine m) a 1) t) s

/-! ### Journal (R287) -/

/-- The 64 bytes of a journal entry. -/
def Journal.pack (j : Journal) : List Byte :=
  leBytes 4 j.tstep ++ leBytes 4 j.mstep ++ leBytes 4 j.wstep ++ leBytes 3 j.cursor ++
  leBytes 1 (j.copies.toNat + 2 * j.outer.toNat + 4 * j.state) ++ leBytes 4 j.clip ++ leBytes 4 j.lr ++ leBytes 4 j.bc1 ++
  leBytes 4 j.bc2 ++ leBytes 4 j.norm ++ leBytes 4 j.ostep ++ leBytes 4 j.istep ++ List.replicate 20 0

/-- A journal entry from its bytes. -/
def Journal.unpack (b : List Byte) : Journal :=
  let f := fieldAt b 15 1
  ⟨fieldAt b 0 4, fieldAt b 4 4, fieldAt b 8 4, fieldAt b 12 3, f.testBit 0, f.testBit 1, f / 4 % 8, fieldAt b 16 4,
   fieldAt b 20 4, fieldAt b 24 4, fieldAt b 28 4, fieldAt b 32 4, fieldAt b 36 4, fieldAt b 40 4⟩

/-- The full-block write of a journal copy. -/
def journalBlock (j : Journal) : List Byte := j.pack ++ List.replicate 192 0

/-- A shard's journal copy written. -/
def State.writeJournal (s : State) (m : Fin 16) (d : ShardDesc) (j : Journal) : State :=
  s.mpaWrite (mdDie m) d.jcopy (journalBlock j)

/-- A shard put into FAULT (R290): code 0x2 or 0x9, event 0x3226. -/
def State.ueStop (s : State) (m : Fin 16) (i code : Nat) : State :=
  match s.shard? m i with
  | none => s
  | some x =>
    let t := s.setJ m i { x.j with state := 4 }
    (t.ueFault m code i).ueEvent m 0x3226 i x.j.tstep

/-! ### What the engine reads (R28, R251, R252, R290) -/

/-- A range read by the engine (R28, R252): an access refused at the fabric, a block that its seal engine cannot give, or a
poisoned word of a store fails it. -/
def State.ueRead (s : State) (m : Fin 16) (reads : BlockReads) (a n : Nat) : State × Bool :=
  match s.checkRange (.updateEngine m) false a n with
  | .busError cat => (s.raiseCat cat (mdDie m) 28 (some (s.mdCanton m)) (detail 0 0 a), false)
  | .ok => if s.poisoned a n then (s, false) else s.readBlocks reads (blocksOf [(a, n)])

/-- Whether a block of some ranges must be waited for (R251). -/
def State.rangesBusy (s : State) (l : List (Nat × Nat)) : Bool := (blocksOf l).any s.blockBusy

/-- The state of a square that an update reads (R280, R299): master and moments, or outer momentum and round start; in
recovery the recovery record too (R288). -/
def ShardDesc.squareReads (d : ShardDesc) (sq : Nat) (outer recovery : Bool) : List (Nat × Nat) :=
  let o := sq * d.sq
  let b := d.mbytes
  (if outer then [(d.omom + 4 * o, 4 * d.sq), (d.snap + 4 * o, 4 * d.sq)]
   else [(d.master + 4 * o, 4 * d.sq), (d.mom1 + b * o, b * d.sq)] ++ (if d.opt = 0 then [(d.mom2 + b * o, b * d.sq)] else [])) ++
  (if recovery && outer then [(d.recov, 4 * d.sq)] else if recovery && d.opt == 2 then [(d.recov, d.sq / 4)] else [])

/-- The arrays of a shard that an audit reads: master and working copies (R293). -/
def ShardDesc.auditReads (d : ShardDesc) : List (Nat × Nat) :=
  (d.arrays.filter (fun a => a.kind == 0 || a.kind == 3 || a.kind == 4 || a.kind == 5)).map (fun a => (a.mpa, a.bytes))

/-- The bytes of a shard's master. -/
def ShardDesc.masterReads (d : ShardDesc) : List (Nat × Nat) := [(d.master, 4 * (d.nsq * d.sq))]

/-- Whether work that draws in a shard's working copies, or in its whole update, must wait for seeding (R66). -/
def State.unseeded (s : State) (m : Fin 16) : Bool := !s.flag (R.ARITH_SR_STATUS (mdBase m)) F.ARITH_SR_STATUS_SEEDED

/-- n codes of w bytes from memory. -/
def State.codes (s : State) (a w n : Nat) : List Nat := (List.range n).map (fun i => s.num (a + i * w) w)

/-! ### Bursts (R286) -/

/-- A burst handed to the seal engine: its writes, then the journal copy. -/
def State.handOver (s : State) (m : Fin 16) (shard square phase : Nat) (writes : List (Nat × List Byte)) (d : ShardDesc)
    (copy : Journal) : State :=
  let t := s.newReq
  let t := (writes ++ [(d.jcopy, journalBlock copy)]).foldl (fun t w => t.forwardWrite (mdDie m) w.1 w.2) t
  t.setUe m { t.ue m with burst := some ⟨shard, square, phase, t.reqNo, t.now⟩ }

/-- The gradient codes of a landed square; padding counts as +0 (R271). -/
def State.gradients (s : State) (m : Fin 16) (d : ShardDesc) (l : Landed) : List Nat :=
  (List.range d.sq).map (fun i =>
    if d.present l.square i then s.num (landBase m + l.grans.getD (4 * i / 65536) 0 * 65536 + 4 * i % 65536) 4 else 0)

/-- Elements of a square computed one by one; padding is held at +0 (R271). -/
def overSquare {α : Type} (d : ShardDesc) (sq : Nat) (zero : α) (f : Nat → α) : List α :=
  (List.range d.sq).map (fun i => if d.present sq i then f i else zero)

/-- Burst 1 of a square (R279, R280, R286): moments and recovery record, journal copy with MSTEP = t. -/
def State.burstMoments (s : State) (m : Fin 16) (sh : Shard) (d : ShardDesc) (l : Landed) : State :=
  let j := sh.j
  let o := l.square * d.sq
  let g := (s.gradients m d l).toArray
  let u := s.ue m
  let (g1, r1) := bankModes u.gens d.srm 0 d.sq (d.present l.square)
  let j' := { j with mstep := j.tstep }
  if l.outer then
    let old := (s.codes (d.omom + 4 * o) 4 d.sq).toArray
    let xs := overSquare d l.square (0, 0, Flags.none) (fun i => d.outerMom (r1.getD i .rne) (g.getD i 0) (old.getD i 0))
    let fl := xs.foldl (fun f x => f.or x.2.2) Flags.none
    let t := (s.setUe m { u with gens := g1 }).setJ m sh.idx j'
    (t.ueFlags m fl).handOver m sh.idx l.square 1
      [(d.omom + 4 * o, xs.flatMap (fun x => leBytes 4 x.1)), (d.recov, xs.flatMap (fun x => leBytes 4 x.2.1))] d j'
  else
    let (g2, r2) := if d.opt = 0 then bankModes g1 d.srm 1 d.sq (d.present l.square) else (g1, r1)
    let b := d.mbytes
    let ms := (s.codes (d.mom1 + b * o) b d.sq).toArray
    let vs := if d.opt = 0 then (s.codes (d.mom2 + b * o) b d.sq).toArray else #[]
    let k := d.scalars j
    let xs := overSquare d l.square (0, 0, 0, false, Flags.none) (fun i =>
      d.moments k (r1.getD i .rne) (r2.getD i .rne) (g.getD i 0) (ms.getD i 0) (vs.getD i 0))
    let fl := xs.foldl (fun f x => f.or x.2.2.2.2) Flags.none
    let nan := (xs.filter (fun x => x.2.2.2.1)).length
    let signs := (List.range (d.sq / 4)).map (fun q => BitVec.ofNat 8
      ((List.range 4).foldl (fun n i => n + (xs.getD (4 * q + i) (0, 0, 0, false, Flags.none)).2.2.1 * 4 ^ i) 0))
    let t := (s.setUe m { u with gens := g2 }).setJ m sh.idx j'
    let t := t.ueFlags m fl
    let t := if nan = 0 then t else
      let t := t.bump (R.UE_NANCNT m) F.UE_NANCNT_COUNT nan
      if (t.ue m).nans.contains (sh.idx, j.tstep) then t
      else (t.setUe m { t.ue m with nans := (sh.idx, j.tstep) :: (t.ue m).nans.filter (fun x => x.1 != sh.idx) }).ueEvent m 0x3122 sh.idx j.tstep
    t.handOver m sh.idx l.square 1
      ([(d.mom1 + b * o, xs.flatMap (fun x => leBytes b x.1))] ++
       (if d.opt = 0 then [(d.mom2 + b * o, xs.flatMap (fun x => leBytes b x.2.1))] else []) ++
       (if d.opt = 2 then [(d.recov, signs)] else [])) d j'

/-- Burst 2 of square CURSOR (R279, R280, R286, R288): the master copy from the moments as written. -/
def State.burstMaster (s : State) (m : Fin 16) (sh : Shard) (d : ShardDesc) : State :=
  let j := sh.j
  let sq := j.cursor
  let o := sq * d.sq
  let u := s.ue m
  let (g1, r1) := bankModes u.gens d.srw 2 d.sq (d.present sq)
  let xs :=
    if j.outer then
      let h := (s.codes (d.omom + 4 * o) 4 d.sq).toArray
      let gout := (s.codes d.recov 4 d.sq).toArray
      let snap := (s.codes (d.snap + 4 * o) 4 d.sq).toArray
      overSquare d sq (0, Flags.none) (fun i => d.outerMaster (r1.getD i .rne) (h.getD i 0) (gout.getD i 0) (snap.getD i 0))
    else
      let b := d.mbytes
      let w := (s.codes (d.master + 4 * o) 4 d.sq).toArray
      let ms := (s.codes (d.mom1 + b * o) b d.sq).toArray
      let vs := if d.opt = 0 then (s.codes (d.mom2 + b * o) b d.sq).toArray else #[]
      let sg := if d.opt = 2 then (s.codes d.recov 1 (d.sq / 4)).toArray else #[]
      let k := d.scalars j
      overSquare d sq (0, Flags.none) (fun i =>
        d.masterOf k (r1.getD i .rne) (w.getD i 0) (ms.getD i 0) (vs.getD i 0) (sg.getD (i / 4) 0 / 4 ^ (i % 4) % 4))
  let j' := { j with wstep := j.tstep, copies := true }
  let t := (s.setUe m { u with gens := g1 }).setJ m sh.idx j'
  (t.ueFlags m (xs.foldl (fun f x => f.or x.2) Flags.none)).handOver m sh.idx sq 2
    [(d.master + 4 * o, xs.flatMap (fun x => leBytes 4 x.1))] d j'

/-- The journal entry after square CURSOR is finished (R287). -/
def Journal.next (j : Journal) (nsq : Nat) : Journal :=
  if j.cursor + 1 = nsq then
    let k := { j with copies := false, state := 0, cursor := 0, mstep := j.tstep, wstep := j.tstep }
    if j.outer then { k with ostep := j.tstep } else { k with istep := j.tstep }
  else { j with copies := false, cursor := j.cursor + 1, mstep := j.tstep - 1, wstep := j.tstep - 1 }

/-- The working copies of a square derived from its master in memory: their writes, the generators and flags kept. -/
def State.derive (s : State) (m : Fin 16) (d : ShardDesc) (sq : Nat) : State × List (Nat × List Byte) :=
  let w := s.codes (d.master + 4 * (sq * d.sq)) 4 d.sq
  let (g, writes, fl) := d.copies (s.ue m).gens sq w
  ((s.setUe m { s.ue m with gens := g }).ueFlags m fl, writes)

/-- Burst 3 of square CURSOR (R286): SNAP of an outer step, plain tiles, transposed tiles, the journal copy. -/
def State.burstCopies (s : State) (m : Fin 16) (sh : Shard) (d : ShardDesc) : State :=
  let sq := sh.j.cursor
  let (t, writes) := s.derive m d sq
  let snap := if sh.j.outer then [(d.snap + 4 * (sq * d.sq), s.bytes (d.master + 4 * (sq * d.sq)) (4 * d.sq))] else []
  t.handOver m sh.idx sq 3 (snap ++ writes) d (sh.j.next d.nsq)

/-! ### Landing (R273, R281, R284) -/

/-- A landed square discarded, its granules freed. -/
def State.dropLanded (s : State) (m : Fin 16) (order : Nat) : State :=
  let u := s.ue m
  s.setUe m { u with landed := u.landed.filter (fun l => l.order != order) }

/-- The norm already given for a step whose record is being made for one more shard (R282): the value serves every shard it
covers. -/
def Ue.givenNorm (u : Ue) (layer t mode : Nat) : Option (Option Nat) :=
  u.recs.findSome? (fun r =>
    let same := match (u.shards.find? (fun x => x.idx == r.shard)).bind (fun x => x.desc) with
      | some d => mode == 2 || d.layer == layer
      | none => false
    if r.outer = false ∧ r.step = t ∧ r.mode = mode ∧ same = true then r.norm else none)

/-- The step that the next square of a shard belongs to, with its record updated (R288). -/
def Ue.landStep (u : Ue) (sh : Shard) (d : ShardDesc) (outer : Bool) (mode : Nat) : Nat × Ue :=
  let mine := u.recs.filter (fun r => r.shard == sh.idx && r.outer == outer)
  match mine.find? (fun r => decide (r.count < d.nsq)) with
  | some r =>
    (r.step, { u with recs := u.recs.map (fun x => if x = r then { x with count := x.count + 1 } else x) })
  | none =>
    let t := mine.foldl (fun n r => max n r.step) (sh.j.done outer) + 1
    (t, { u with recs := u.recs ++ [⟨sh.idx, outer, t, 1, mode, if outer then none else u.givenNorm d.layer t mode⟩] })

/-- An audit that a landing for its shard ends without a result (R293). The command AUDIT then sets DONE (DESIGN CHOICE:
log 45). -/
def State.endAudit (s : State) (m : Fin 16) (shard : Nat) : State :=
  let u := s.ue m
  let t := if u.audit = some shard then s.setUe m { u with audit := none } else s
  match u.cmd with
  | some c =>
    if c.op = 3 ∧ c.shard = shard ∧ c.todo = true then
      ((t.setUe m { t.ue m with cmd := none }).put (R.UE_CMDSTAT m) F.UE_CMDSTAT_BUSY 0).put (R.UE_CMDSTAT m) F.UE_CMDSTAT_DONE 1
    else t
  | none => t

/-- A square that waits for its norm past UE_HOLDCAP makes its step fall back to LAG (R284). -/
def State.holdCap (s : State) (m : Fin 16) (shard step : Nat) : State :=
  if s.get (R.UE_HOLDCAP m) F.UE_HOLDCAP_GRANULES < s.heldGrans m then
    let t := s.setUe m { s.ue m with lagged := step :: (s.ue m).lagged }
    (t.put (R.UE_STATUS m) F.UE_STATUS_LAGFALL 1).ueEvent m 0x3020 shard step
  else s

/-- The engine examines a landed square (R273): discarded for a FROZEN or DISABLED shard, discarded with code 0x4 for no
valid shard or a merged delta of a shard without OUTER; otherwise it joins its shard's step and the sum of squares. -/
def State.takeSquare (s : State) (m : Fin 16) (l : Landed) : State :=
  let s := s.endAudit m l.shard
  match s.shard? m l.shard with
  | none => (s.dropLanded m l.order).ueFault m 4 l.shard
  | some sh =>
    match sh.desc with
    | none => (s.dropLanded m l.order)
    | some d =>
      if d.frozen ∨ sh.j.state = 5 then s.dropLanded m l.order
      else if l.outer ∧ d.outer = false then (s.dropLanded m l.order).ueFault m 4 l.shard
      else if sh.j.state = 3 ∨ sh.j.state = 4 ∨ ((s.ue m).cmd.map (fun c => c.shard)) = some l.shard then s
      else
        let (t, u) := (s.ue m).landStep sh d l.outer (s.get (R.UE_CTL m) F.UE_CTL_CLIPMODE)
        let u := { u with landed := u.landed.map (fun x => if x.order = l.order then { x with step := some t } else x) }
        let s := s.setUe m u
        if l.outer then s
        else
          let g := s.gradients m d l
          let sqs := match u.norms.find? (fun x => x.1 == d.layer && x.2.1 == t) with
            | some (_, _, q) => q
            | none => []
          let u := { u with norms := (d.layer, t, sqs ++ [(l.shard, g)]) :: u.norms.filter (fun x => !(x.1 == d.layer && x.2.1 == t)) }
          let s := (s.setUe m u).checkNorm m d.layer t
          s.holdCap m l.shard t

/-- Whether the engine takes squares: EN, no PAUSE, tables read, no recovery. -/
def State.ueTakes (s : State) (m : Fin 16) : Bool :=
  s.takesWork (s.mdCanton m) && s.flag (R.UE_CTL m) F.UE_CTL_EN && !s.flag (R.UE_CTL m) F.UE_CTL_PAUSE && !(s.ue m).load && (s.ue m).recov.isEmpty

/-- The landed squares not yet examined, examined in landing order. -/
def State.takeAll (s : State) (m : Fin 16) : State :=
  if s.ueTakes m then
    ((s.ue m).landed.filter (fun l => l.step.isNone)).foldl (fun t l => t.takeSquare m l) s
  else s

/-- The lowest granules of the landing buffer that are free, as many as a square takes (R273). -/
def Ue.freeGrans (u : Ue) (n : Nat) : Option (List Nat) :=
  let used := u.landed.flatMap (fun l => l.grans) ++ u.stagedGrans
  let free := (List.range 128).filter (fun g => !used.contains g)
  if free.length < n then none else some (free.take n)

/-- UE_SQUARE_LAND (R273): a reduced square arrives in the landing buffer. It is held back at the link die while the
buffer is full or its shard is in SPLIT or FAULT (R45, R290). -/
def execUeSquareLand (m : Fin 16) (shard square : Nat) (outer : Bool) (data : List Byte) (s : State) : Out :=
  let sh := s.shard? m shard
  let u := s.ue m
  let n := (data.length + 65535) / 65536
  if sh.any (fun x => x.j.state == 3 || x.j.state == 4) then .next s
  else match u.freeGrans n with
    | none => .next s
    | some gs =>
      let l : Landed := ⟨shard, square, outer, gs, u.order, none⟩
      let t := s.setUe m { u with landed := u.landed ++ [l], order := u.order + 1 }
      let t := (gs.zipIdx).foldl (fun t p => t.putBytes (landBase m + p.1 * 65536) ((data.drop (p.2 * 65536)).take 65536)) t
      .next ((t.takeAll m).ueSync m)

/-! ### Committing squares (R278, R286, R290) -/

/-- The clip factor of a norm (R282). -/
def State.clipFor (s : State) (m : Fin 16) (n : Nat) : Nat × Flags :=
  let cap := (s.rd (R.UE_CLIPMAX m)).toNat
  if (f32 cap).isZero = true ∨ ((f32 cap).isNaN = false ∧ (f32 n).isNaN = false ∧ FVal.lt (f32 cap) (f32 n) = false) then
    (oneCode, Flags.none)
  else f32Div cap n

/-- Whether the exchange makes a shard's squares wait (R397): every one during its rebase, those of an outer step while a
snapshot of the shard is served. -/
def State.exchHolds (s : State) (m : Fin 16) (shard : Nat) (outer : Bool) : Bool :=
  let serves := fun (i : SxItem) => i.shard == shard && (i.ftype == 9 || i.ftype == 10)
  (s.exch[m]).rebases.any (fun r => r.shard == shard && r.head.isSome) ||
    (outer && ((s.exch[m]).items.any serves || s.sites.queue.any (fun q => q.1 == m.val && serves q.2)))

/-- The squares an engine may commit next: shard, descriptor, landed square; that of the shard it last committed first,
then by landing order (R286). -/
def State.readySquares (s : State) (m : Fin 16) : List (Shard × ShardDesc × Landed) :=
  let u := s.ue m
  let ok := fun (l : Landed) =>
    match s.shard? m l.shard, l.step with
    | some sh, some t =>
      match sh.desc with
      | none => none
      | some d =>
        let j := sh.j
        let timed := l.outer || u.sched.isSome
        if 3 ≤ j.state ∨ timed = false ∨ (u.cmd.map (fun c => c.shard)) = some l.shard ∨ s.exchHolds m l.shard l.outer = true then none
        else if j.state = 1 then
          (if j.outer = l.outer ∧ j.tstep = t ∧ j.cursor = l.square then some (sh, d, l) else none)
        else
          let nxt := (if l.outer then j.ostep else j.istep) + 1
          let known := l.outer || match u.rec? l.shard false t with
            | some r => (s.normFor m r).isSome
            | none => false
          if t = nxt ∧ l.square = 0 ∧ known = true then some (sh, d, l) else none
    | _, _ => none
  sortBy (fun x => (if u.last = some x.1.idx then 0 else 2 ^ 64) + x.2.2.order) (u.landed.filterMap ok)

/-- The scalars of a shard step entered in its journal, before its first square is written (R278), and their flags (R67). -/
def State.beginStep (s : State) (m : Fin 16) (sh : Shard) (d : ShardDesc) (l : Landed) : State × Shard :=
  let t := (if l.outer then sh.j.ostep else sh.j.istep) + 1
  let base := { sh.j with state := 1, outer := l.outer, tstep := t, cursor := 0, copies := false, mstep := t - 1, wstep := t - 1 }
  if l.outer then
    let j := { base with clip := oneCode, lr := 0, bc1 := oneCode, bc2 := oneCode, norm := 0 }
    (s.setJ m sh.idx j, { sh with j := j })
  else
    let n := match (s.ue m).rec? sh.idx false t with
      | some r => (s.normFor m r).getD 0
      | none => 0
    let (c, f0) := s.clipFor m n
    let (eta, f1) := d.etaAt ((s.ue m).sched.getD []) t
    let (b1, f2) := if d.opt = 0 then biasCorr d.beta1 t else (oneCode, Flags.none)
    let (b2, f3) := if d.opt = 0 then biasCorr d.beta2 t else (oneCode, Flags.none)
    let j := { base with clip := c, norm := n, lr := eta, bc1 := b1, bc2 := b2 }
    ((s.setJ m sh.idx j).ueFlags m ((((f0.or f1).or f2).or f3).or (d.scalarFlags eta)), { sh with j := j })

/-- Recovery of the next shard whose copy was ACTIVE (R288): its master phase, its copies, or on to its squares, which
need its landing record; without it the shard is SPLIT (R290). State that cannot be read puts it into FAULT. -/
def State.recoverShard (s : State) (m : Fin 16) (reads : BlockReads) (i : Nat) : State :=
  match s.shard? m i with
  | none => s
  | some sh =>
    match sh.desc with
    | none => s
    | some d =>
      let j := sh.j
      let try_ := fun (l : List (Nat × Nat)) (go : State → State) =>
        let r := s.readBlocks reads (blocksOf l)
        if r.2 then go r.1 else r.1.ueStop m i 2
      if j.state ≠ 1 then s
      else if j.cursor < d.nsq ∧ j.mstep = j.wstep + 1 then
        try_ (d.squareReads j.cursor j.outer true) (fun s => s.burstMaster m sh d)
      else if j.cursor < d.nsq ∧ j.copies = true then
        try_ [(d.master + 4 * (j.cursor * d.sq), 4 * d.sq)] (fun s => s.burstCopies m sh d)
      else if ((s.ue m).rec? i j.outer j.tstep).isSome then s
      else ((s.setJ m i { j with state := 3 }).ueFault m 0xA i).ueEvent m 0x3225 i j.tstep

/-- Whether recovery of a shard must wait: for seeding where it draws (R66), or for earlier writes to what it reads. -/
def State.recoverWaits (s : State) (m : Fin 16) (i : Nat) : Bool × Bool :=
  match s.shard? m i with
  | none => (false, false)
  | some sh =>
    match sh.desc with
    | none => (false, false)
    | some d =>
      let j := sh.j
      let work := j.state == 1 && decide (j.cursor < d.nsq) && (j.mstep == j.wstep + 1 || j.copies)
      (work && (d.srw || d.src) && s.unseeded m, work && s.rangesBusy (d.squareReads j.cursor j.outer true))

/-- Recovery gone on with until a burst is in hand-over, it must wait, or every shard is done. A shard that ends neither
SPLIT nor in FAULT is counted as recovered (R288). -/
def State.recoverNext (s : State) (m : Fin 16) (reads : BlockReads) : Nat → State
  | 0 => s
  | fuel + 1 =>
    let u := s.ue m
    if u.burst.isSome then s
    else match u.recov with
      | [] => s
      | i :: rest =>
        let w := s.recoverWaits m i
        if w.1 then s.put (R.UE_STATUS m) F.UE_STATUS_SRHOLD 1
        else if w.2 then s
        else
          let t := s.recoverShard m reads i
          if (t.ue m).burst.isSome then t
          else
            let t := match t.shard? m i with
              | some sh =>
                if sh.j.state = 3 ∨ sh.j.state = 4 then t
                else (t.bump (R.UE_RECOVCNT m) F.UE_RECOVCNT_COUNT 1).ueEvent m 0x3123 i sh.j.tstep
              | none => t
            (t.setUe m { t.ue m with recov := rest }).recoverNext m reads fuel

/-- A burst refused in part (R290): FAULT, and the journal copy written once more. -/
def State.burstRefused (s : State) (m : Fin 16) (b : Burst) (d : ShardDesc) (bad : List Nat) : State :=
  let t := s.ueStop m b.shard (if bad.all (· == d.jcopy) then 9 else 2)
  match t.shard? m b.shard with
  | some sh => t.writeJournal m d sh.j
  | none => t

/-- The update of inner step t of a shard skipped (R285): nothing of it is changed, its squares are discarded, its steps
advance to t, in the journal copy too. -/
def State.skipShard (s : State) (m : Fin 16) (x : Shard) (d : ShardDesc) (t : Nat) : State :=
  let j := { x.j with tstep := t, mstep := t, wstep := t, istep := t, outer := false, cursor := 0, copies := false, state := 0 }
  let s := s.setJ m x.idx j
  let u := s.ue m
  let s := s.setUe m { u with
    landed := u.landed.filter (fun l => !(l.shard == x.idx && !l.outer && l.step == some t)),
    recs := u.recs.filter (fun r => !(r.shard == x.idx && !r.outer && r.step == t)) }
  (s.bump (R.UE_SKIPCNT m) F.UE_SKIPCNT_COUNT 1).writeJournal m d j

/-- Steps skipped that a shard has come to, its last step finished (R285). -/
def State.skipDue (s : State) (m : Fin 16) (i : Nat) : Nat → State
  | 0 => s
  | fuel + 1 =>
    match s.shard? m i with
    | none => s
    | some x =>
      match x.desc, (s.ue m).rec? i false (x.j.istep + 1) with
      | some d, some r =>
        if (x.j.state = 0 ∨ x.j.state = 2) ∧ r.norm = some none then (s.skipShard m x d (x.j.istep + 1)).skipDue m i fuel else s
      | _, _ => s

/-- A finished square: journal moved on, and with the shard's last square the step ends and its pennants fall due
(R287, R291). -/
def State.finishSquare (s : State) (m : Fin 16) (sh : Shard) (d : ShardDesc) : State :=
  let j := sh.j.next d.nsq
  let t := s.setJ m sh.idx j
  let u := t.ue m
  let t := t.setUe m { u with landed := u.landed.filter (fun l =>
    !(l.shard == sh.idx && l.outer == sh.j.outer && l.step == some sh.j.tstep && l.square == sh.j.cursor)) }
  if j.state = 0 then
    let u := t.ue m
    let t := t.setUe m { u with recs := u.recs.filter (fun r => !(r.shard == sh.idx && r.outer == sh.j.outer && r.step == sh.j.tstep)) }
    (t.skipDue m sh.idx (u.recs.length + 1)).checkLayer m d.layer
  else t

/-- UE_BURST_ACK (R286): every write of the burst acknowledged, the engine frees the landing granules (burst 1), starts
the next burst, or finishes the square. -/
def execUeBurstAck (m : Fin 16) (s : State) : Out :=
  let u := s.ue m
  match u.burst with
  | none => .next s
  | some b =>
    if s.reqWaits b.id then .next s
    else
      let bad := (u.refused.filter (fun r => r.1 == b.id)).map (fun r => r.2)
      let t := s.setUe m { u with burst := none, refused := u.refused.filter (fun r => r.1 != b.id), last := some b.shard }
      let t := t.uePerf m (R.UE_PERF_STALL m) ((t.now - b.at_) / 3)
      match t.shard? m b.shard with
      | none => .next (t.ueSync m)
      | some sh =>
        match sh.desc with
        | none => .next (t.ueSync m)
        | some d =>
          let t :=
            if bad ≠ [] then t.burstRefused m b d bad
            else if b.phase = 1 then
              let u := t.ue m
              let t := t.setUe m { u with landed := u.landed.filter (fun l =>
                !(l.shard == b.shard && l.square == b.square && l.outer == sh.j.outer && l.step == some sh.j.tstep)) }
              t.burstMaster m sh d
            else if b.phase = 2 then
              let t := if t.countsStand (R.UE_PERF_CTL m) then t
                else t.add64 (R.UE_PERF_ELEM_LO m) (R.UE_PERF_ELEM_HI m) d.sq
              t.burstCopies m sh d
            else t.finishSquare m sh d
          .next ((t.takeAll m).ueSync m)

/-! ### Norms given, and steps skipped (R282, R285) -/

/-- A total of step t that is not finite skips the update of every shard it covers (R285): at once where the shard has
finished step t − 1; where it is still applying that step, or an outer step, after it. -/
def State.skipStep (s : State) (m : Fin 16) (layer t : Nat) : State :=
  let mine := (s.ue m).shards.filterMap (fun x =>
    match x.desc with
    | some d =>
      let at_ := if x.j.state = 1 ∧ x.j.outer = false then x.j.tstep else x.j.istep
      if (layer = 0xFFFF ∨ d.layer = layer) ∧ d.frozen = false ∧ x.j.state ≤ 2 ∧ at_ + 1 = t then some (x, d) else none
    | none => none)
  let r := mine.foldl (fun s p =>
    if p.1.j.state ≠ 1 then s.skipShard m p.1 p.2 t
    else
      let u := s.ue m
      if (u.rec? p.1.idx false t).isSome then
        s.setUe m { u with recs := u.recs.map (fun r => if r.shard = p.1.idx ∧ r.outer = false ∧ r.step = t then { r with norm := some none } else r) }
      else s.setUe m { u with recs := u.recs ++ [⟨p.1.idx, false, t, 0, if layer = 0xFFFF then 2 else 0, some none⟩] }) s
  match mine with
  | [] => r
  | x :: _ =>
    let r := r.ueEvent m 0x3021 x.1.idx t
    ((mine.map (fun p => p.2.layer)).eraseDups).foldl (fun s l => s.checkLayer m l) r

/-- Whether a norm of UE_NORMIN is for a landing record (R282): its step and, in LAYER mode, its layer are named, the step
has not begun and has not fallen back to LAG, and squares of it wait. -/
def State.normWanted (s : State) (m : Fin 16) (layer step : Nat) (r : LandRec) : Bool :=
  match s.shard? m r.shard with
  | some sh =>
    match sh.desc with
    | some d =>
      !r.outer && r.step % 65536 == step && !sh.j.applies r.step && !(s.ue m).lagged.contains r.step &&
        ((layer == 0xFFFF && r.mode == 2) || (layer != 0xFFFF && r.mode == 0 && d.layer == layer)) &&
        (s.ue m).landed.any (fun l => l.shard == r.shard && !l.outer && l.step == some r.step)
    | none => false
  | none => false

/-- UE_NORMIN (R282, R285): a layer or step norm. A finite step total always sets UE_LAGNORM. The value serves the
pending steps it names, a later one in place of an earlier; one that is not finite skips the update of every shard it
covers. -/
def execUeNormin (m : Fin 16) (sumsq : W32) (s : State) : Out :=
  let layer := s.get (R.UE_NORMTAG m) F.UE_NORMTAG_LAYER
  let step := s.get (R.UE_NORMTAG m) F.UE_NORMTAG_STEP
  let fin := (f32 sumsq.toNat).isFin
  let (n, fl) := f32Sqrt sumsq.toNat
  let t := if fin then s.ueFlags m fl else s
  let t := if fin ∧ layer = 0xFFFF then t.wr (R.UE_LAGNORM m) (BitVec.ofNat 32 n) else t
  let mine := (s.ue m).recs.filter (s.normWanted m layer step)
  let u := t.ue m
  let t := t.setUe m { u with recs := u.recs.map (fun r => if mine.contains r then { r with norm := some (if fin then some n else none) } else r) }
  let t := if fin then t else ((mine.map (fun r => r.step)).eraseDups).foldl (fun t k => t.skipStep m layer k) t
  .next ((t.takeAll m).ueSync m)

/-! ### Tables and control (R270-R276, R288, R300, R301) -/

/-- A shard of the descriptor table taken up. -/
def State.addShard (s : State) (m : Fin 16) (x : Shard) : State := s.setUe m { s.ue m with shards := (s.ue m).shards ++ [x] }

/-- A descriptor refused (R272): code 1, 0x3224 with its tensor, and its shard is DISABLED, without a descriptor. -/
def State.refuseDesc (s : State) (m : Fin 16) (i : Nat) (d : Option ShardDesc) : State :=
  let t := ((s.addShard m ⟨i, d, { Journal.reset with state := 5 }⟩).ueFault m 1 i).ueEvent m 0x3224 i 0
  t.setUe m { t.ue m with shards := (t.ue m).shards.map (fun x => if x.idx = i then { x with desc := none } else x) }

/-- A shard with its journal copy; one whose copy cannot be read is in FAULT, code 9 (R288, R290). -/
def State.loadJournal (s : State) (m : Fin 16) (reads : BlockReads) (i : Nat) (d : ShardDesc) : State :=
  let r := s.ueRead m reads d.jcopy 256
  if r.2 then r.1.addShard m ⟨i, some d, Journal.unpack (r.1.bytes d.jcopy 64)⟩
  else ((r.1.addShard m ⟨i, some d, { Journal.reset with state := 4 }⟩).ueFault m 9 i).ueEvent m 0x3226 i 0

/-- Entry i of the descriptor table. -/
def State.loadShard (s : State) (m : Fin 16) (reads : BlockReads) (i : Nat) : State :=
  let a := s.base4k (R.UE_TABLE_LO m) (R.UE_TABLE_HI m) + 256 * i
  let r := s.ueRead m reads a 256
  let d := parseDesc (r.1.bytes a 256)
  if r.2 = false then r.1.refuseDesc m i none
  else if d.valid = false then r.1
  else if d.ok (s.ownedRegion m) then r.1.loadJournal m reads i d
  else r.1.refuseDesc m i (some d)

/-- The shards of the descriptor table with their journal copies (R272, R288, R290). -/
def State.loadShards (s : State) (m : Fin 16) (reads : BlockReads) : State :=
  (List.range (min 16384 (s.get (R.UE_TABLE_CNT m) F.UE_TABLE_CNT_COUNT))).foldl (fun t i => t.loadShard m reads i)
    (s.setUe m { s.ue m with shards := [] })

/-- Table, schedule and journal copies read, the pennants counted on from the steps they hold, and every ACTIVE shard
queued for recovery (R276, R288, R291). -/
def State.loadTables (s : State) (m : Fin 16) (reads : BlockReads) : State :=
  let a := s.base4k (R.UE_SCHED_LO m) (R.UE_SCHED_HI m)
  let r := (s.loadShards m reads).ueRead m reads a 256
  let t := r.1
  let sched := if r.2 then parseSched (t.bytes a 256) else none
  let t := if sched.isNone then t.ueFault m 5 0 else t
  let act := (t.ue m).shards.filter (fun x => x.j.state == 1)
  let layers := (((t.ue m).shards.filterMap (fun x => x.desc.map (fun d => d.layer)))).eraseDups
  let t := t.setUe m { t.ue m with sched := sched, recov := act.map (fun x => x.idx), posted := [], load := false }
  layers.foldl (fun t l => t.checkLayer m l) t

/-- Whether writes that the engine has handed over wait at a seal engine (R251): tables and journal copies are read after
them. -/
def State.ueWritesWait (s : State) (m : Fin 16) : Bool :=
  s.mds.toList.any (fun d => d.eng.reqs.any (fun r => r.src == mdDie m))

/-- Whether the engine runs: EN, in a die that works. -/
def State.ueRuns (s : State) (m : Fin 16) : Bool := s.takesWork (s.mdCanton m) && s.flag (R.UE_CTL m) F.UE_CTL_EN

/-- The engine's next turn before it takes squares: tables that wait to be read, then recovery (R288). -/
def State.ueTurn (s : State) (m : Fin 16) (reads : BlockReads) : State :=
  if s.ueRuns m then
    let s := if (s.ue m).load && !s.ueWritesWait m then s.loadTables m reads else s
    if (s.ue m).load then s else s.recoverNext m reads 16385
  else s

/-- UE_ENABLE (R288): a rise of EN reads descriptors, schedule and journal copies, once the engine's earlier writes are
made, and recovers interrupted shards before new work. -/
def execUeEnable (m : Fin 16) (tables journals : BlockReads) (s : State) : Out :=
  if s.flag (R.UE_CTL m) F.UE_CTL_EN || !s.takesWork (s.mdCanton m) then .next s
  else
    let t := s.put (R.UE_CTL m) F.UE_CTL_EN 1
    let t := (t.setUe m { t.ue m with load := true }).ueTurn m (tables ++ journals)
    .next ((t.takeAll m).ueSync m)

/-- UE_SQUARE_COMMIT (R286): the engine's turn. Tables and recovery come first (R288); else it takes a ready square and hands
over its first burst. A step that draws waits for seeding (R66), one whose blocks earlier requests wait for waits for them
(R251); unreadable state puts the shard into FAULT before any write (R290). -/
def execUeSquareCommit (m : Fin 16) (reads : BlockReads) (s : State) : Out :=
  let s := ((s.ueTurn m reads).takeAll m).ueSync m
  if !s.ueTakes m || (s.ue m).burst.isSome then .next s
  else match s.readySquares m with
    | [] => .next s
    | (sh, d, l) :: _ =>
      if (d.srm || d.srw || d.src) && s.unseeded m then .next (s.put (R.UE_STATUS m) F.UE_STATUS_SRHOLD 1)
      else
        let t := s.put (R.UE_STATUS m) F.UE_STATUS_SRHOLD 0
        let need := d.squareReads l.square l.outer false
        if t.rangesBusy need then .next t
        else
          let r := if sh.j.state = 1 then (t, sh) else t.beginStep m sh d l
          let q := r.1.readBlocks reads (blocksOf need)
          if q.2 then .next ((q.1.burstMoments m r.2 d l).ueSync m) else .next ((q.1.ueStop m sh.idx 2).ueSync m)

/-- UE_PAUSE (R301): the engine stops at the next square boundary. -/
def execUePause (m : Fin 16) (s : State) : Out := .next (s.put (R.UE_CTL m) F.UE_CTL_PAUSE 1)

/-- UE_RESET (R289, R301): the SRAM journal, the output buffer and EN cleared; the landing buffer and DRAM untouched, a
burst handed over whole; norms must be written again. -/
def execUeReset (m : Fin 16) (s : State) : Out :=
  let u := s.ue m
  let t := s.setUe m { u with
    shards := [], burst := none, recov := [], last := none, cmd := none, lagged := [], sched := none, audit := none, load := false,
    cont := none, recs := u.recs.map (fun r => { r with norm := none }) }
  let t := (t.put (R.UE_CTL m) F.UE_CTL_EN 0).put (R.UE_CMDSTAT m) F.UE_CMDSTAT_BUSY 0
  .next ((t.put (R.UE_STATUS m) F.UE_STATUS_SRHOLD 0).ueSync m)

/-! ### Commands (R292-R298, R300) -/

/-- A command refused before it starts (R294, R300). -/
def State.refuseCmd (s : State) (m : Fin 16) (shard code : Nat) : State :=
  (s.put (R.UE_CMDSTAT m) F.UE_CMDSTAT_REFUSED 1).ueFault m code shard

/-- MPA of the command block (R294). -/
def State.cmdArg (s : State) (m : Fin 16) : Nat :=
  (s.rd (R.UE_CMDARG_LO m)).toNat / 64 * 64 + (s.rd (R.UE_CMDARG_HI m)).toNat % 65536 * 2 ^ 32

/-- A command taken: BUSY, its work still to be done. -/
def State.startCmd (s : State) (m : Fin 16) (op shard : Nat) (module die : Nat := 0) : State :=
  (s.setUe m { s.ue m with cmd := some ⟨op, shard, 0, false, false, true, s.cmdArg m, module, die⟩ }).put
    (R.UE_CMDSTAT m) F.UE_CMDSTAT_BUSY 1

/-- The work of the running command done: its writes travel as the current request; `part`: an export stopped at LIMIT. -/
def State.sentCmd (s : State) (m : Fin 16) (part : Bool := false) : State :=
  let u := s.ue m
  s.setUe m { u with cmd := u.cmd.map (fun c => { c with id := s.reqNo, todo := false, partialEnd := part }) }

/-- The running command stopped by a bus error (R300): the shard in FAULT. -/
def State.failCmd (s : State) (m : Fin 16) : State :=
  let u := s.ue m
  let t := s.setUe m { u with cmd := u.cmd.map (fun c => { c with failed := true, todo := false }) }
  match u.cmd with
  | some c => t.ueStop m c.shard 2
  | none => t

/-- The running command refused on what its block or record says (R294, R297, R298). -/
def State.refuseRun (s : State) (m : Fin 16) (code event : Nat) : State :=
  match (s.ue m).cmd with
  | none => s
  | some c =>
    let t := ((s.setUe m { s.ue m with cmd := none }).put (R.UE_CMDSTAT m) F.UE_CMDSTAT_BUSY 0).refuseCmd m c.shard code
    if event = 0 then t else t.ueEvent m event c.shard ((t.shard? m c.shard).map (fun x => x.j.istep) |>.getD 0)

/-- Whether an engine is busy with a command, which ignores further writes (R300). -/
def State.cmdBusy (s : State) (m : Fin 16) : Bool := s.flag (R.UE_CMDSTAT m) F.UE_CMDSTAT_BUSY

/-- The shard a command may run on: states that accept it (R294). -/
def State.cmdShard (s : State) (m : Fin 16) (shard : Nat) (states : List Nat) : Option (Shard × ShardDesc) :=
  match s.shard? m shard with
  | some x => if states.contains x.j.state && s.takesWork (s.mdCanton m) then x.desc.map (fun d => (x, d)) else none
  | none => none

/-- The copies of every square of a shard rewritten from its master, as one request (R292). -/
def State.rederive (s : State) (m : Fin 16) (d : ShardDesc) : State :=
  (List.range d.nsq).foldl (fun t sq =>
    let r := t.derive m d sq
    r.2.foldl (fun t w => t.forwardWrite (mdDie m) w.1 w.2) r.1) s.newReq

/-- REDERIVE's work (R292): both working copies of the shard rewritten from its master, without a step; a shard whose copies
draw waits for seeding (R66). -/
def State.runRederive (s : State) (m : Fin 16) (reads : BlockReads) (d : ShardDesc) : State :=
  if d.src && s.unseeded m then s.put (R.UE_STATUS m) F.UE_STATUS_SRHOLD 1
  else
    let s := s.put (R.UE_STATUS m) F.UE_STATUS_SRHOLD 0
    if s.rangesBusy d.masterReads then s
    else
      let r := s.readBlocks reads (blocksOf d.masterReads)
      if r.2 then (r.1.rederive m d).sentCmd m else r.1.failCmd m

/-- Whether a stored code is a grid neighbour of a value scaled by 2^(127 − B), the value itself where it lies on the
grid (R293). -/
def neighbourCode (f : NFmt) (b code : Nat) (x : FVal) : Bool :=
  match x with
  | .fin s mm e =>
    if b = 0xFF then code == 0
    else if mm = 0 then code == f.signed s 0
    else
      let e := e - ((b : Int) - 127)
      let (c, r, _) := gridBelow f mm 1 e
      let lo := min c f.maxCode
      let hi := min (if r = 0 then c else c + 1) f.maxCode
      code == f.signed s lo || code == f.signed s hi
  | _ => code == 0

/-- Differing elements of a square's copies (R293): codes that differ from the recomputed ones, or that are no grid
neighbour where the copy was written stochastically; a differing scale byte counts the 32 elements of its block. The
padding of the square's tiles, code 0 under scale 0x7F (R199), counts as well. -/
def State.auditSquare (s : State) (d : ShardDesc) (sq : Nat) : Nat :=
  let w := s.codes (d.master + 4 * (sq * d.sq)) 4 d.sq
  let rne := Array.replicate d.sq Rnd.rne
  if d.vector then
    ((List.range 16384).filter (fun i =>
      let c := s.num (d.plain + 32768 * sq + 2 * i) 2
      let x := f32 (w.getD i 0)
      if d.src then !neighbourCode .bf16 127 c x else c != (NFmt.bf16.round false .rne x).1)).length
  else
    let g := d.origin sq
    let side := d.side
    [false, true].foldl (fun n tr =>
      let rows := if tr then left d.ns g.2.2 side else left d.ks g.2.1 side
      let cols := if tr then left d.ks g.2.1 side else left d.ns g.2.2 side
      let r0 := if tr then g.2.2 else g.2.1
      let c0 := if tr then g.2.1 else g.2.2
      let rExt := if tr then d.ns else d.ks
      let cExt := if tr then d.ks else d.ns
      let rAll := min side (ceilDiv (rExt - r0) d.tk * d.tk)
      let cAll := min side (ceilDiv (cExt - c0) 128 * 128)
      let scales := if d.scaled then d.scalesOf tr w.toArray rows cols else #[]
      let tile := fun (r c : Nat) => g.1 * d.tiles tr + ((c0 + c) / 128) * ceilDiv rExt d.tk + (r0 + r) / d.tk
      let stored := fun (r c : Nat) =>
        let a := (if tr then d.trans else d.plain) + 16384 * tile r c
        let rr := (r0 + r) % d.tk
        let cc := (c0 + c) % 128
        if d.wfmt = 2 then (s.byte (a + 128 * (rr / 2) + cc)).toNat / 16 ^ (rr % 2) % 16
        else if d.wfmt = 4 then s.num (a + 256 * rr + 2 * cc) 2
        else (s.byte (a + 128 * rr + cc)).toNat
      let scl := fun (b c : Nat) =>
        (s.byte ((if tr then d.tscale else d.pscale) + d.stile * tile (32 * b) c + 128 * ((r0 + 32 * b) % d.tk / 32) + (c0 + c) % 128)).toNat
      let badScale := fun (r c : Nat) => d.scaled && scl (r / 32) c != scales.getD (side * (r / 32) + c) 0x7F
      let blocks := if d.scaled then (List.range (rAll / 32)).foldl (fun n b =>
        (List.range cAll).foldl (fun n c => if badScale (32 * b) c then n + 32 else n) n) 0 else 0
      let cells := (List.range rAll).foldl (fun n r => (List.range cAll).foldl (fun n c =>
        if badScale r c then n
        else
          let x := f32 (w.getD (sqIdx tr side r c) 0)
          let b := scales.getD (side * (r / 32) + c) 0x7F
          let good := if rows ≤ r ∨ cols ≤ c then stored r c == 0
            else if d.src then neighbourCode d.fmt (if d.scaled then b else 127) (stored r c) x
            else stored r c == (d.codeOf tr w.toArray scales rne rows cols r c).1
          if good then n else n + 1) n) 0
      n + blocks + cells) 0

/-- An audit pass of a shard (R293): UE_AUDIT_DIFF, event 0x3027, and with FIX the copies rewritten. -/
def State.auditShard (s : State) (m : Fin 16) (sh : Shard) (d : ShardDesc) : State :=
  let n := (List.range d.nsq).foldl (fun n q => n + s.auditSquare d q) 0
  let t := s.wr (R.UE_AUDIT_DIFF m) (BitVec.ofNat 32 (satN (2 ^ 32 - 1) n))
  let t := t.setUe m { t.ue m with audited := (sh.idx, sh.j.istep) :: (t.ue m).audited.filter (fun x => x.1 != sh.idx) }
  if n = 0 then t.newReq
  else
    let t := t.ueEvent m 0x3027 sh.idx sh.j.istep
    if t.flag (R.UE_AUDIT_CTL m) F.UE_AUDIT_CTL_FIX then t.rederive m d else t.newReq

/-- What an audit pass waits for (R66, R293): ready squares, whose updates come first, earlier requests to what it reads,
and seeding where FIX may draw. -/
def State.auditWaits (s : State) (m : Fin 16) (d : ShardDesc) : Bool :=
  !(s.readySquares m).isEmpty || s.rangesBusy d.auditReads ||
    (d.src && s.flag (R.UE_AUDIT_CTL m) F.UE_AUDIT_CTL_FIX && s.unseeded m)

/-- AUDIT's work (R293); without a read of its own where the pass has started. -/
def State.runAudit (s : State) (m : Fin 16) (reads : BlockReads) (sh : Shard) (d : ShardDesc) : State :=
  if s.auditWaits m d then s
  else if (s.ue m).audit = some sh.idx then ((s.setUe m { s.ue m with audit := none }).auditShard m sh d).sentCmd m
  else
    let r := s.readBlocks reads (blocksOf d.auditReads)
    if r.2 then (r.1.auditShard m sh d).sentCmd m else r.1.failCmd m

/-- UE_AUDIT_INTERVAL (R293): with EVERY ≠ 0 an IDLE shard is audited once in every EVERY steps, below every update. The
audit starts, and at a later turn has its result, unless a landing for the shard has ended it. -/
def execUeAuditInterval (m : Fin 16) (turn : AuditTurn) (s : State) : Out :=
  let every := s.get (R.UE_AUDIT_CTL m) F.UE_AUDIT_CTL_EVERY
  match s.cmdShard m turn.shard [0] with
  | none => .next s
  | some (sh, d) =>
    let last := match (s.ue m).audited.find? (fun x => x.1 == sh.idx) with | some (_, t) => t | none => 0
    if every = 0 ∨ sh.j.istep < last + every ∨ s.cmdBusy m = true ∨ s.ueTakes m = false ∨ s.auditWaits m d = true then .next s
    else if (s.ue m).audit ≠ some sh.idx then .next (s.setUe m { s.ue m with audit := some sh.idx })
    else
      let t := s.setUe m { s.ue m with audit := none }
      let r := t.readBlocks turn.reads (blocksOf d.auditReads)
      if r.2 then .next (r.1.auditShard m sh d) else .next ((r.1.ueStop m sh.idx 2).ueSync m)

/-- Fields of a command block (R294). -/
structure CmdBlock where
  mpa : Nat
  addr : Nat
  limit : Nat
  ckpt : Nat
  seq : Nat
  slot : Nat
  chan : Nat
  kinds : Nat
  deriving DecidableEq, Repr

/-- The command block at an MPA. -/
def State.cmdBlock (s : State) (a : Nat) : CmdBlock :=
  let b := s.bytes a 64
  ⟨a, fieldAt b 0 8 % 2 ^ 48, fieldAt b 8 8, fieldAt b 16 8, fieldAt b 24 4, fieldAt b 28 1 % 16, fieldAt b 29 1, fieldAt b 30 2⟩

/-- The checkpoint or release key in a KEYSLOT of a canton (R414, R425). -/
def State.slotKey (s : State) (canton slot : Nat) : Option (List Byte) :=
  (s.keySlots.find? (fun k => k.1 == canton && k.2.1 == slot)).map (fun k => k.2.2)

/-- A rectangle of a shard: matrix, first k and n, extents; matrix none stands for the whole shard. -/
structure Rect where
  mat : Option Nat
  k0 : Nat
  n0 : Nat
  kn : Nat
  nn : Nat
  deriving DecidableEq, Repr

/-- The rectangles of the records of a kind (R295): the whole shard, or pieces of at most 1 GiB cut at block
boundaries: bands of block rows of a matrix, or of block columns of one block row (DESIGN CHOICE: log 44). -/
def ShardDesc.rects (d : ShardDesc) (width : Nat) : List Rect :=
  if d.mats * d.ks * d.ns * width ≤ 2 ^ 30 then [⟨none, 0, 0, d.ks, d.ns⟩]
  else
    let band := 2 ^ 30 / (d.ns * width) / 128 * 128
    let cols := 2 ^ 30 / (128 * width) / 128 * 128
    (List.range d.mats).flatMap (fun j =>
      if 128 ≤ band then
        (List.range (ceilDiv d.ks band)).map (fun i => ⟨some j, band * i, 0, min band (d.ks - band * i), d.ns⟩)
      else
        (List.range (ceilDiv d.ks 128)).flatMap (fun i => (List.range (ceilDiv d.ns cols)).map (fun c =>
          ⟨some j, 128 * i, cols * c, min 128 (d.ks - 128 * i), min cols (d.ns - cols * c)⟩)))

/-- The rectangles of the kind-8 records of a shard whose tiles take `size` bytes (R295, R297): the whole shard, or pieces of
at most 1 GiB cut at tile boundaries: bands of tile rows of a matrix, or tiles of one tile row (DESIGN CHOICE: log 44). -/
def ShardDesc.tileRects (d : ShardDesc) (size : Nat) : List Rect :=
  let most := 2 ^ 30 / size
  let kt := ceilDiv d.ks d.tk
  let nt := ceilDiv d.ns 128
  if d.vector then
    (List.range (ceilDiv d.nsq 32768)).map (fun i => ⟨none, 0, 2 ^ 29 * i, d.ks, min (2 ^ 29) (d.ns - 2 ^ 29 * i)⟩)
  else if d.mats * kt * nt ≤ most then [⟨none, 0, 0, d.ks, d.ns⟩]
  else
    let band := most / nt * d.tk
    (List.range d.mats).flatMap (fun j =>
      if d.tk ≤ band then
        (List.range (ceilDiv d.ks band)).map (fun i => ⟨some j, band * i, 0, min band (d.ks - band * i), d.ns⟩)
      else
        (List.range kt).flatMap (fun i => (List.range (ceilDiv nt most)).map (fun c =>
          ⟨some j, d.tk * i, 128 * most * c, min d.tk (d.ks - d.tk * i), min (128 * most) (d.ns - 128 * most * c)⟩)))

/-- The tiles of a rectangle cut at tile boundaries, row-major over (K tile, N tile): their numbers in an array (R197). -/
def ShardDesc.tilesIn (d : ShardDesc) (r : Rect) : List Nat :=
  let mats := match r.mat with | some j => [j] | none => List.range d.mats
  mats.flatMap (fun j => (List.range (ceilDiv r.kn d.tk)).flatMap (fun a => (List.range (ceilDiv r.nn 128)).map (fun b =>
    j * d.tiles false + (r.n0 / 128 + b) * ceilDiv d.ks d.tk + (r.k0 / d.tk + a))))

/-- The elements (matrix, k, n) of a rectangle in record order (R295): blocks of 128 × 128, row-major. -/
def ShardDesc.order (d : ShardDesc) (r : Rect) : List (Nat × Nat × Nat) :=
  let mats := match r.mat with | some j => [j] | none => List.range d.mats
  mats.flatMap (fun j => (List.range (ceilDiv r.kn 128)).flatMap (fun bk => (List.range (ceilDiv r.nn 128)).flatMap (fun bn =>
    (List.range (min 128 (r.kn - 128 * bk))).flatMap (fun k => (List.range (min 128 (r.nn - 128 * bn))).map (fun n =>
      (j, r.k0 + 128 * bk + k, r.n0 + 128 * bn + n))))))

/-- Place of element (j, k, n) in an array in square order (R271). -/
def ShardDesc.placeIn (d : ShardDesc) (p : Nat × Nat × Nat) : Nat :=
  if d.vector then p.2.2
  else
    (p.1 * (d.kq * d.nq) + p.2.2 / d.side * d.kq + p.2.1 / d.side) * (d.side * d.side) + p.2.1 % d.side * d.side + p.2.2 % d.side

/-- Array and element width of a record kind 0-4; none where the shard has no such array. -/
def ShardDesc.kindArray (d : ShardDesc) (kind : Nat) : Option (Nat × Nat) :=
  if kind = 0 then some (d.master, 4)
  else if kind = 1 then some (d.mom1, d.mbytes)
  else if kind = 2 then (if d.opt = 0 then some (d.mom2, d.mbytes) else none)
  else if kind = 3 then (if d.outer then some (d.omom, 4) else none)
  else if kind = 4 then (if d.outer then some (d.snap, 4) else none)
  else none

/-- The bounds of a rectangle in the tensor, in a dimension: first and last coordinate. -/
def ShardDesc.bounds (d : ShardDesc) (r : Rect) (dim : Nat) : Nat × Nat :=
  let lo := d.lo.getD dim 0
  if dim = 2 then (lo + r.k0, lo + r.k0 + r.kn - 1)
  else if dim = 3 then (lo + r.n0, lo + r.n0 + r.nn - 1)
  else match r.mat with
    | none => (lo, d.hi.getD dim 0)
    | some j => let x := lo + (if dim = 0 then j / d.ext 1 else j % d.ext 1); (x, x)

/-- The 128-byte header of a record (R295). -/
def State.recordHeader (s : State) (m : Fin 16) (d : ShardDesc) (j : Journal) (kind fmt seq ckpt len : Nat) (r : Rect) : List Byte :=
  let job := s.jobs.getD (s.mdCanton m) 0
  leBytes 2 1 ++ leBytes 1 kind ++ leBytes 1 fmt ++ leBytes 4 job ++ leBytes 3 d.tensor ++ leBytes 1 d.ndim ++
  leBytes 4 j.istep ++ leBytes 4 j.ostep ++ leBytes 4 seq ++ (List.range 4).flatMap (fun i => leBytes 6 (d.shp i)) ++
  (List.range 4).flatMap (fun i => leBytes 6 (d.bounds r i).1) ++ (List.range 4).flatMap (fun i => leBytes 6 (d.bounds r i).2) ++
  leBytes 8 len ++ leBytes 8 ckpt ++ List.replicate 16 0

/-- The nonce of a record (R296). -/
def State.recordNonce (s : State) (m : Fin 16) (seq : Nat) : List Byte :=
  leBytes 3 s.moduleId ++ leBytes 1 (mdDie m) ++ leBytes 4 seq ++ List.replicate 4 0

/-- Element code of a working format (R132). -/
def wfmtCode (w : Nat) : Nat := if w = 0 then 0xD else if w = 1 then 0xE else if w = 2 then 0xF else 1

/-- A record that an export writes: kind, format code, rectangle, the blocks it is read from, payload. -/
structure PlanRec where
  kind : Nat
  fmt : Nat
  rect : Rect
  blocks : List Nat
  pay : List Byte
  deriving DecidableEq, Repr

/-- The records an export writes, in order (R295, R297). -/
def State.exportPlan (s : State) (d : ShardDesc) (j : Journal) (b : CmdBlock) : List PlanRec :=
  let whole : Rect := ⟨none, 0, 0, d.ks, d.ns⟩
  let one := fun (kind fmt : Nat) (r : Rect) (src : List (Nat × Nat)) =>
    (⟨kind, fmt, r, blocksOf src, src.flatMap (fun p => s.bytes p.1 p.2)⟩ : PlanRec)
  let data := fun (kind : Nat) =>
    match d.kindArray kind with
    | none => []
    | some (a, w) => (d.rects w).map (fun r => one kind (if w = 2 then 1 else 0) r ((d.order r).map (fun p => (a + w * d.placeIn p, w))))
  let tiles := fun (base size fmt : Nat) =>
    (d.tileRects size).map (fun r => one 8 fmt r ((d.tilesIn r).map (fun t => (base + size * t, size))))
  if b.chan = 1 then
    (if d.vector then (d.tileRects 32768).map (fun r => one 8 1 r [(d.plain + 2 * r.n0, 2 * r.nn)]) else tiles d.plain 16384 (wfmtCode d.wfmt)) ++
    (if d.scaled && !d.vector then tiles d.pscale d.stile 8 else [])
  else
    ((List.range 5).flatMap (fun k => if b.kinds.testBit k then data k else [])) ++
    (if b.kinds.testBit 5 then [⟨5, 0, whole, [], j.pack⟩] else [])

/-- Bytes written by the engine as part of the current request (R28): false where the access is refused. -/
def State.ueSend (s : State) (m : Fin 16) (a : Nat) (bs : List Byte) : State × Bool :=
  match s.checkRange (.updateEngine m) true a bs.length with
  | .busError cat => (s.raiseCat cat (mdDie m) 28 (some (s.mdCanton m)) (detail 0 0 a), false)
  | .ok =>
    match s.placeOf a with
    | .cd x off => (s.storePost (mdDie m) x off a (.write bs), true)
    | _ => (s.forwardWrite (mdDie m) a bs, true)

/-- How an export's records ended: all written, stopped at LIMIT, stopped by a bus error. -/
inductive ExportEnd | done | limit | bad
  deriving DecidableEq, Repr

/-- Records written one after the other while they fit LIMIT: the state, bytes written, records written, how it ended. -/
def State.exportRun (m : Fin 16) (d : ShardDesc) (j : Journal) (b : CmdBlock) (key : List Byte) (reads : BlockReads) :
    List PlanRec → State → Nat → Nat → State × Nat × Nat × ExportEnd
  | [], s, n, k => (s, n, k, .done)
  | p :: rest, s, n, k =>
    let size := 128 + p.pay.length + 16
    if b.limit < n + size then (s, n, k, .limit)
    else
      let r := s.readBlocks reads p.blocks
      if r.2 = false then (r.1, n, k, .bad)
      else
        let h := s.recordHeader m d j p.kind p.fmt (b.seq + k) b.ckpt p.pay.length p.rect
        let w := r.1.ueSend m (b.addr + n) (h ++ gcmSeal key (s.recordNonce m (b.seq + k)) h p.pay)
        if w.2 then State.exportRun m d j b key reads rest w.1 (n + size) (k + 1) else (w.1, n, k, .bad)

/-- Whether the trust die holds a release authorisation for a shard under a slot (R297, R428). -/
def State.released (s : State) (canton : Nat) (d : ShardDesc) (j : Journal) (slot : Nat) : Bool :=
  s.releases.any (fun r => r.canton == canton && r.slot == slot && r.job == s.jobs.getD canton 0 &&
    decide (r.fromStep ≤ j.istep) && decide (j.istep ≤ r.untilStep) &&
    r.ranges.any (fun x => decide (x.1 ≤ d.tensor) && decide (d.tensor ≤ x.2)))

/-- Records of an export that an earlier block has written (R296): a block of the same shard, checkpoint, channel and kinds
that starts at the NEXTSEQ of an export stopped at LIMIT goes on after them (DEDUCED: log 44). -/
def State.exportFrom (s : State) (m : Fin 16) (shard : Nat) (b : CmdBlock) : Nat :=
  match (s.ue m).cont with
  | some c => if c.shard = shard ∧ c.ckpt = b.ckpt ∧ c.chan = b.chan ∧ c.kinds = b.kinds ∧ c.seq = b.seq then c.done else 0
  | none => 0

/-- EXPORT's work (R294-R297): sealed records of the selected kinds written to the destination, stopping at LIMIT; the
release channel only under an authorisation, only kind 8. -/
def State.runExport (s : State) (m : Fin 16) (reads : BlockReads) (c : UeCmd) (sh : Shard) (d : ShardDesc) : State :=
  let k := s.mdCanton m
  if s.rangesBusy [(c.arg, 64)] then s
  else
    let r := s.ueRead m reads c.arg 64
    if r.2 = false then r.1.failCmd m
    else
      let s := r.1
      let b := s.cmdBlock c.arg
      if b.chan = 1 ∧ s.released k d sh.j b.slot = false then s.refuseRun m 8 0x3428
      else if 1 < b.chan ∨ (b.chan = 1 ∧ b.kinds ≠ 256) ∨ (b.chan = 0 ∧ b.kinds / 64 ≠ 0) then s.refuseRun m 6 0
      else match s.slotKey k b.slot with
        | none => s.refuseRun m 6 0
        | some key =>
          let skip := s.exportFrom m c.shard b
          let plan := (s.exportPlan d sh.j b).drop skip
          if plan.any (fun p => p.blocks.any s.blockBusy) then s
          else
            let r := State.exportRun m d sh.j b key reads plan s.newReq 0 0
            if r.2.2.2 = .bad then r.1.failCmd m
            else
              let part := r.2.2.2 == .limit
              let t := r.1.setUe m { r.1.ue m with
                cont := if part then some ⟨c.shard, b.ckpt, b.chan, b.kinds, skip + r.2.2.1, b.seq + r.2.2.1⟩ else none }
              let w := t.ueSend m (b.mpa + 32) (leBytes 8 r.2.1 ++ leBytes 4 (b.seq + r.2.2.1))
              if w.2 then w.1.sentCmd m part else w.1.failCmd m

/-- The rectangle bounds in a record header. -/
def headerBounds (h : List Byte) (dim : Nat) : Nat × Nat := (fieldAt h (48 + 6 * dim) 6, fieldAt h (72 + 6 * dim) 6)

/-- The elements of a record of kind 0-4 in order: tensor coordinates. -/
def recordCoords (h : List Byte) : List (Nat × Nat × Nat × Nat) :=
  let b := headerBounds h
  let n := fun (i : Nat) => (b i).2 + 1 - (b i).1
  (List.range (n 0)).flatMap (fun c0 => (List.range (n 1)).flatMap (fun c1 =>
    (List.range (ceilDiv (n 2) 128)).flatMap (fun bk => (List.range (ceilDiv (n 3) 128)).flatMap (fun bn =>
      (List.range (min 128 (n 2 - 128 * bk))).flatMap (fun k => (List.range (min 128 (n 3 - 128 * bn))).map (fun x =>
        ((b 0).1 + c0, (b 1).1 + c1, (b 2).1 + 128 * bk + k, (b 3).1 + 128 * bn + x)))))))

/-- The intersection of a record with a shard written into the array of its kind (R298). -/
def State.importElems (s : State) (m : Fin 16) (d : ShardDesc) (h pay : List Byte) (a w : Nat) : State :=
  let inside := fun (i x : Nat) => decide (d.lo.getD i 0 ≤ x) && decide (x ≤ d.hi.getD i 0)
  ((recordCoords h).zipIdx).foldl (fun s p =>
    let (c0, c1, c2, c3) := p.1
    if inside 0 c0 && inside 1 c1 && inside 2 c2 && inside 3 c3 then
      let j := (c0 - d.lo.getD 0 0) * d.ext 1 + (c1 - d.lo.getD 1 0)
      s.forwardWrite (mdDie m) (a + w * d.placeIn (j, c2 - d.lo.getD 2 0, c3 - d.lo.getD 3 0)) ((pay.drop (w * p.2)).take w)
    else s) s

/-- The journal restored from a record's entry (R298): the five steps set, the shard IDLE. Its landing records and squares are
taken anew (R290), norms of what it undoes dropped. The pennant that a shard in SPLIT or FAULT withheld is posted (R291);
of a shard that joins or goes back, counting starts at the steps now held. -/
def State.importJournal (s : State) (m : Fin 16) (sh : Shard) (d : ShardDesc) (r : Journal) : State :=
  let j := { sh.j with tstep := r.tstep, mstep := r.mstep, wstep := r.wstep, istep := r.istep, ostep := r.ostep, state := 0 }
  let t := (s.setJ m sh.idx j).forwardWrite (mdDie m) d.jcopy (journalBlock j)
  let u := t.ue m
  let recs := u.recs.filter (fun x => x.shard != sh.idx)
  let repaired := sh.j.state == 3 || sh.j.state == 4
  let u : Ue := { u with
    recs := recs,
    landed := u.landed.map (fun l => if l.shard = sh.idx then { l with step := none } else l),
    norms := u.norms.map (fun n => (n.1, n.2.1, n.2.2.filter (fun q => q.1 != sh.idx))),
    lagged := u.lagged.filter (fun k => decide (k ≤ j.istep) || recs.any (fun r => !r.outer && r.step == k)) }
  let shs := u.layerShards d.layer
  let posted := u.posted.filterMap (fun p =>
    if p.1 ≠ d.layer then some p
    else if repaired then some (p.1, p.2.1, min p.2.2 (leastDone (shs.filter (fun x => !p.2.1 || x.2.outer)) p.2.1))
    else none)
  (t.setUe m { u with posted := posted }).checkLayer m d.layer

/-- IMPORT's work (R298): a record authenticated, under the nonce of R296 with the SEQ of its header and the module and die
that the command names, before any write; its intersection with the shard written, or the journal restored from kind 5. -/
def State.runImport (s : State) (m : Fin 16) (reads : BlockReads) (c : UeCmd) (sh : Shard) (d : ShardDesc) : State :=
  let k := s.mdCanton m
  if s.rangesBusy [(c.arg, 64)] then s
  else
    let r := s.ueRead m reads c.arg 64
    if r.2 = false then r.1.failCmd m
    else
      let s := r.1
      let b := s.cmdBlock c.arg
      if s.rangesBusy [(b.addr, 128)] then s
      else
        let r := s.ueRead m reads b.addr 128
        let h := s.bytes b.addr 128
        let len := fieldAt h 96 8
        if r.2 = false then r.1.failCmd m
        else if r.1.rangesBusy [(b.addr + 128, len + 16)] then r.1
        else
          let r := r.1.ueRead m reads (b.addr + 128) (len + 16)
          let s := r.1
          let nonce := leBytes 3 c.module ++ leBytes 1 c.die ++ leBytes 4 (fieldAt h 20 4) ++ List.replicate 4 0
          if r.2 = false then s.failCmd m
          else match s.slotKey k b.slot with
            | none => s.refuseRun m 7 0x3429
            | some key =>
              if fieldAt h 4 4 ≠ s.jobs.getD k 0 ∨ fieldAt h 0 2 ≠ 1 then s.refuseRun m 7 0x3429
              else match gcmOpen key nonce h (s.bytes (b.addr + 128) (len + 16)) with
                | none => s.refuseRun m 7 0x3429
                | some pay =>
                  let kind := fieldAt h 2 1
                  let same := fieldAt h 8 3 = d.tensor
                  let t := s.newReq
                  if kind = 5 ∧ same then
                    let id := t.reqNo
                    let t := t.importJournal m sh d (Journal.unpack pay)
                    let u := t.ue m
                    t.setUe m { u with cmd := u.cmd.map (fun c => { c with id := id, todo := false }) }
                  else match d.kindArray kind with
                    | none => s.refuseRun m 7 0
                    | some (a, w) =>
                      if fieldAt h 3 1 ≠ (if w = 2 then 1 else 0) then s.refuseRun m 7 0
                      else (if same then t.importElems m d h pay a w else t).sentCmd m

/-- SNAPSHOT's work (R280, R300): MASTER copied to SNAP. -/
def State.runSnapshot (s : State) (m : Fin 16) (reads : BlockReads) (d : ShardDesc) : State :=
  if s.rangesBusy d.masterReads then s
  else
    let r := s.readBlocks reads (blocksOf d.masterReads)
    if r.2 then (r.1.newReq.forwardWrite (mdDie m) d.snap (r.1.bytes d.master (4 * (d.nsq * d.sq)))).sentCmd m else r.1.failCmd m

/-- RELOAD's work (R300): table, schedule and journal copies reread, once the engine's earlier writes are made. -/
def State.runReload (s : State) (m : Fin 16) (reads : BlockReads) : State :=
  if s.ueWritesWait m then s
  else
    let t := (s.loadTables m reads).sentCmd m
    let u := t.ue m
    t.setUe m { u with cmd := u.cmd.map (fun c => { c with id := 0 }) }

/-- The work of the running command, where nothing makes it wait (R292-R298, R300). -/
def State.runCmd (s : State) (m : Fin 16) (reads : BlockReads) : State :=
  match (s.ue m).cmd with
  | none => s
  | some c =>
    if c.todo = false then s
    else if c.op = 1 then s.runReload m reads
    else match s.shard? m c.shard with
      | none => s
      | some sh =>
        match sh.desc with
        | none => s
        | some d =>
          if c.op = 2 then s.runRederive m reads d
          else if c.op = 3 then s.runAudit m reads sh d
          else if c.op = 4 then s.runExport m reads c sh d
          else if c.op = 5 then s.runImport m reads c sh d
          else s.runSnapshot m reads d

/-- A shard command taken and, where nothing makes it wait, its work done at once; refused in a state that does not accept
it (R294). -/
def State.command (s : State) (m : Fin 16) (op : Nat) (shard : Fin 16384) (states : List Nat) (reads : BlockReads)
    (module die : Nat := 0) : Out :=
  if s.cmdBusy m then .next s
  else match s.cmdShard m shard states with
    | none => .next (s.refuseCmd m shard 6)
    | some _ => .next (((s.startCmd m op shard module die).runCmd m reads).ueSync m)

/-- UE_RELOAD (R300): table, schedule and journal copies reread; refused while a shard is ACTIVE or HELD. -/
def execUeReload (m : Fin 16) (tables journals : BlockReads) (s : State) : Out :=
  if s.cmdBusy m then .next s
  else if (s.ue m).shards.any (fun x => x.j.state == 1 || x.j.state == 2) then .next (s.refuseCmd m 0 6)
  else
    let reads := tables ++ journals
    let t := (s.startCmd m 1 16384).runCmd m reads
    .next (((t.ueTurn m reads).takeAll m).ueSync m)

/-- UE_REDERIVE (R292): both working copies of an IDLE shard rewritten from its master, without a step. -/
def execUeRederive (m : Fin 16) (shard : Fin 16384) (reads : BlockReads) (s : State) : Out := s.command m 2 shard [0] reads

/-- AUDIT's pass started where nothing makes it wait: what it compares is read, and a bus error stops it (R293, R300). -/
def State.startAudit (s : State) (m : Fin 16) (reads : BlockReads) (sh : Shard) (d : ShardDesc) : State :=
  if s.auditWaits m d then s
  else
    let r := s.readBlocks reads (blocksOf d.auditReads)
    if r.2 then r.1.setUe m { r.1.ue m with audit := some sh.idx } else r.1.failCmd m

/-- UE_AUDIT (R293): the shard is to be audited now; the pass has its result at a later turn, unless a landing for the shard
ends it. -/
def execUeAudit (m : Fin 16) (shard : Fin 16384) (reads : BlockReads) (s : State) : Out :=
  if s.cmdBusy m then .next s
  else match s.cmdShard m shard [0] with
    | none => .next (s.refuseCmd m shard 6)
    | some (sh, d) =>
      let t := (s.setUe m { s.ue m with audit := none }).startCmd m 3 shard
      .next ((t.startAudit m reads sh d).ueSync m)

/-- UE_EXPORT (R294-R297): sealed records of an IDLE shard. -/
def execUeExport (m : Fin 16) (shard : Fin 16384) (reads : BlockReads) (s : State) : Out := s.command m 4 shard [0] reads

/-- UE_IMPORT (R298): a record taken back, in SPLIT, FAULT and DISABLED too. Which module and die sealed it the command
block does not say: the command names them (the model's choice, log 44). -/
def execUeImport (m : Fin 16) (shard : Fin 16384) (record : SealedRecord) (s : State) : Out :=
  s.command m 5 shard [0, 3, 4, 5] record.reads record.module.toNat record.die.toNat

/-- UE_DISABLE (R300): the shard DISABLED, its squares discarded; it no longer counts for its layer (R281, R291). -/
def execUeDisable (m : Fin 16) (shard : Fin 16384) (s : State) : Out :=
  if s.cmdBusy m then .next s
  else match s.cmdShard m shard [0, 3, 4] with
    | none => .next (s.refuseCmd m shard 6)
    | some (sh, d) =>
      let j := { sh.j with state := 5 }
      let t := (s.startCmd m 6 shard).setJ m shard j
      let u := t.ue m
      let t := t.setUe m { u with landed := u.landed.filter (fun l => l.shard != shard.val), recs := u.recs.filter (fun r => r.shard != shard.val) }
      let t := (t.newReq.forwardWrite (mdDie m) d.jcopy (journalBlock j)).sentCmd m
      let steps := ((t.ue m).norms.filter (fun x => x.1 == d.layer)).map (fun x => x.2.1)
      let t := steps.foldl (fun t k => t.checkNorm m d.layer k) t
      .next ((t.checkLayer m d.layer).ueSync m)

/-- UE_SNAPSHOT (R280, R300): MASTER copied to SNAP of an OUTER shard. -/
def execUeSnapshot (m : Fin 16) (shard : Fin 16384) (reads : BlockReads) (s : State) : Out :=
  match (s.shard? m shard).bind (fun x => x.desc) with
  | some d => if d.outer then s.command m 7 shard [0] reads else if s.cmdBusy m then .next s else .next (s.refuseCmd m shard 6)
  | none => s.command m 7 shard [0] reads

/-- UE_COMMAND_COMPLETE (R300): a running command whose work has waited does it; one whose work is done finishes once its
writes are acknowledged and sets DONE, or, stopped by a bus error, sets REFUSED with the shard in FAULT. -/
def execUeCommandComplete (turn : EngineTurn) (s : State) : Out :=
  let m := turn.m
  let u := s.ue m
  match u.cmd with
  | none => .next s
  | some c =>
    if c.todo then .next (((s.runCmd m turn.reads).takeAll m).ueSync m)
    else if s.reqWaits c.id ∨ (c.op = 1 ∧ u.recov ≠ []) then .next s
    else
      let bad := (u.refused.filter (fun r => r.1 == c.id)).map (fun r => r.2)
      let t := s.setUe m { u with cmd := none, refused := u.refused.filter (fun r => r.1 != c.id) }
      let t := t.put (R.UE_CMDSTAT m) F.UE_CMDSTAT_BUSY 0
      let t := if c.partialEnd then t.put (R.UE_CMDSTAT m) F.UE_CMDSTAT_PARTIAL 1 else t
      let jc := match t.shard? m c.shard with | some x => (x.desc.map (fun d => d.jcopy)).getD 0 | none => 0
      let t :=
        if c.failed then t.put (R.UE_CMDSTAT m) F.UE_CMDSTAT_REFUSED 1
        else if bad ≠ [] then (t.ueStop m c.shard (if bad.all (· == jc) then 9 else 2)).put (R.UE_CMDSTAT m) F.UE_CMDSTAT_REFUSED 1
        else t.put (R.UE_CMDSTAT m) F.UE_CMDSTAT_DONE 1
      .next ((t.takeAll m).ueSync m)

end Sys2Proof.Machine
end

