-- ==== Sys2Proof/Machine/Exchange.lean ====
section
/-! DEFINITION. Loosely coupled sites: the exchange quantiser of a memory die and the site engine
(11_site_exchange.md, R370-R403; R540). -/
namespace Sys2Proof.Machine

/-! ### Tables (R370-R373) -/

/-- An exchange entry as it stands in memory (R372). -/
structure SxEntry where
  idx : Nat
  sxid : Nat
  valid : Bool
  sealed_ : Bool
  sr : Bool
  holder : Bool
  spare : Bool
  state : Nat
  lstate : Nat
  age : Nat
  round : Nat
  nchunk : Nat
  lineage : Nat
  ef : Nat
  send : Nat
  recv : Nat
  merged : Nat
  peers : Nat
  deriving DecidableEq, Repr

/-- The quantiser of memory die m. -/
def State.sx (s : State) (m : Fin 16) : Sx := s.exch[m]
/-- The quantiser of memory die m replaced. -/
def State.setSx (s : State) (m : Fin 16) (x : Sx) : State := { s with exch := s.exch.set m x }
/-- MPA of entry i of the exchange table. -/
def State.sxAt (s : State) (m : Fin 16) (i : Nat) : Nat := s.base4k (R.SX_TABLE_LO m) (R.SX_TABLE_HI m) + 128 * i

/-- Entry i of the exchange table. -/
def State.sxEntry (s : State) (m : Fin 16) (i : Nat) : SxEntry :=
  let b := s.bytes (s.sxAt m i) 128
  let f := fieldAt b 4 1
  { idx := i, sxid := fieldAt b 0 4, valid := f.testBit 0, sealed_ := f.testBit 1, sr := f.testBit 2, holder := f.testBit 3,
    spare := f / 16 != 0 || !zeroAt b 64 64, state := fieldAt b 5 1, lstate := fieldAt b 6 1, age := fieldAt b 7 1,
    round := fieldAt b 8 4, nchunk := fieldAt b 12 4, lineage := fieldAt b 16 8, ef := fieldAt b 24 6, send := fieldAt b 32 6,
    recv := fieldAt b 40 6, merged := fieldAt b 48 6, peers := fieldAt b 56 6 }

/-- A field of an exchange entry that the quantiser writes: byte offset, bytes, value. -/
def State.sxPut (s : State) (m : Fin 16) (i off n v : Nat) : State := s.dramPut (s.sxAt m i + off) (leBytes n v)
/-- STATE of an entry: 0 IDLE, 1 OPEN, 2 APPLY, 3 BEHIND, 4 REBASE, 5 FAULT. -/
def State.sxState (s : State) (m : Fin 16) (i v : Nat) : State := s.sxPut m i 5 1 v
/-- LSTATE of an entry: 0 NONE, 1 COLLECT, 2 CORRECT, 3 SEND. -/
def State.sxLead (s : State) (m : Fin 16) (i v : Nat) : State := s.sxPut m i 6 1 v

/-- Entries of the exchange table. -/
def State.sxCount (s : State) (m : Fin 16) : Nat := s.get (R.SX_TABLE_CNT m) F.SX_TABLE_CNT_COUNT
/-- The valid holder entries of a memory die. -/
def State.sxHolders (s : State) (m : Fin 16) : List SxEntry :=
  ((List.range (s.sxCount m)).map (s.sxEntry m)).filter (fun e => e.valid && e.holder)
/-- The valid entry of an SXID. -/
def State.sxFind (s : State) (m : Fin 16) (sxid : Nat) : Option SxEntry := (s.sxHolders m).find? (fun e => e.sxid == sxid)

/-- Own site. -/
def State.ownSite (s : State) (m : Fin 16) : Nat := s.get (R.SX_CTL m) F.SX_CTL_SITE
/-- WEIGHT of site j; 0: not configured (R370). -/
def State.siteWeight (s : State) (m : Fin 16) (j : Nat) : Nat := s.num (s.base4k (R.SX_SITES_LO m) (R.SX_SITES_HI m) + 32 * j + 8) 1
/-- Configured sites, ascending. -/
def State.sitesOf (s : State) (m : Fin 16) : List Nat := (List.range 64).filter (fun j => s.siteWeight m j != 0)
/-- W_all (R370). -/
def State.weightAll (s : State) (m : Fin 16) : Nat := (List.range 64).foldl (fun n j => n + s.siteWeight m j) 0
/-- Module and memory die of the exchange holder at site j (R372). -/
def State.peerOf (s : State) (e : SxEntry) (j : Nat) : Nat × Nat :=
  let w := s.num (e.peers + 4 * j) 4
  (bitsN w 16 0, bitsN w 20 17)

/-- Elements of a contribution chunk (R373). -/
def SxEntry.chunkElems (e : SxEntry) : Nat := if e.sealed_ then 4096 else 16384
/-- Bytes of a contribution chunk (R376, R378). -/
def SxEntry.chunkBytes (e : SxEntry) : Nat := if e.sealed_ then 8192 else 8320
/-- Elements of a shard as the exchange counts them (R373). -/
def ShardDesc.exchElems (d : ShardDesc) : Nat := d.nsq * d.sq

/-- A quantiser fault (R402); the first stays. -/
def State.sxFault (s : State) (m : Fin 16) (code shard : Nat) : State :=
  if s.flag (R.SX_FAULT m) F.SX_FAULT_VALID then s
  else s.wr (R.SX_FAULT m) (BitVec.ofNat 32 (code + 16 + shard % 16384 * 256))
/-- A quantiser event (R401, R509): shard, ROUND, SXID. -/
def State.sxEvent (s : State) (m : Fin 16) (code : Nat) (e : SxEntry) : State :=
  s.raise code (mdDie m) (some (s.mdCanton m)) (detail e.idx (e.round % 65536) e.sxid)
/-- An exchange counter raised, unless frozen. -/
def State.sxTally (s : State) (m : Fin 16) (a n : Nat) : State :=
  if s.countsStand (R.SX_CNT_CTL m) then s else s.bump a (31, 0) n
/-- SX_STATUS brought up to the entries. -/
def State.sxSync (s : State) (m : Fin 16) : State :=
  let es := s.sxHolders m
  let a := R.SX_STATUS m
  let n := (es.filter (fun e => e.state == 1 || e.state == 2)).length
  let s := s.put a F.SX_STATUS_BUSY (if es.any (fun e => (e.state != 0 && decide (e.state < 5) && e.state != 3) || e.lstate != 0) then 1 else 0)
  let s := s.put a F.SX_STATUS_LEADING (if es.any (fun e => e.lstate != 0) then 1 else 0)
  let s := s.put a F.SX_STATUS_BEHIND (if es.any (fun e => e.state == 3 || e.state == 4) then 1 else 0)
  s.put a F.SX_STATUS_OPEN (min n 65535)

/-- Receive-area bytes before its slots (R373). -/
def recvHead (nchunk : Nat) : Nat := (8 * nchunk + 4095) / 4096 * 4096

/-- Whether an entry passes the checks at a rise of EN (R373); NCHUNK beside it. -/
def State.sxOk (s : State) (m : Fin 16) (e : SxEntry) : Bool × Nat :=
  match (s.shard? m e.idx).bind (fun x => x.desc) with
  | none => (false, 0)
  | some d =>
    let n := d.exchElems / e.chunkElems
    let own := s.ownedRegion m
    let inside := fun (a bytes align : Nat) => a % align == 0 && decide (own.1 ≤ a) && decide (a + bytes ≤ own.1 + own.2)
    let sites := (s.sitesOf m).length
    let recv := recvHead n + (sites - 1 + (if e.sealed_ then 1 else 0)) * (e.chunkBytes * n)
    (d.outer && decide (n ≤ 2 ^ 24) && !e.spare && decide (e.state ≤ 5) && decide (e.lstate ≤ 3) &&
      inside e.ef (4 * d.exchElems) 4096 && inside e.merged (4 * d.exchElems) 4096 && inside e.send (e.chunkBytes * n) 4096 &&
      inside e.recv recv 4096 && inside e.peers 256 256, n)

/-- SX_ENABLE (R373): a rise of SX_CTL.EN checks every valid entry and refuses bad ones: STATE FAULT, SX_FAULT 0x1,
0x3244. A site table without the own site is noted as invalid (0x2). -/
def execSxEnable (m : Fin 16) (s : State) : Out :=
  if s.flag (R.SX_CTL m) F.SX_CTL_EN then .next s
  else
    let s := s.put (R.SX_CTL m) F.SX_CTL_EN 1
    let s := s.setSx m { s.sx m with shunned := [] }
    let s := if s.siteWeight m (s.ownSite m) = 0 then s.sxFault m 2 0 else s
    let es := ((List.range (s.sxCount m)).map (s.sxEntry m)).filter (fun e => e.valid)
    .next ((es.foldl (fun t e =>
      let r := t.sxOk m e
      if r.1 then (if e.state = 5 then t.sxState m e.idx 0 else t).sxPut m e.idx 12 4 r.2
      else ((t.sxState m e.idx 5).sxFault m 1 e.idx).sxEvent m 0x3244 e) s).sxSync m)

/-! ### Leaders and items (R374, R386-R389) -/

/-- Value kept under a pair of numbers. -/
def lookup2 (l : List ((Nat × Nat) × Nat)) (a b : Nat) : Nat := match l.find? (fun x => x.1 == (a, b)) with | some x => x.2 | none => 0
/-- A value kept under a pair of numbers. -/
def store2 (l : List ((Nat × Nat) × Nat)) (a b v : Nat) : List ((Nat × Nat) × Nat) := ((a, b), v) :: l.filter (fun x => x.1 != (a, b))

/-- Whether a site is out of touch in the module's view of a canton (R393). -/
def State.outOfTouch (s : State) (k j : Nat) : Bool := s.flag (R.SP_PEER k j) F.SP_PEER_OUT

/-- The leader that a holder would choose now (R374): the first site of the order that is not out of touch. -/
def State.leaderOf (s : State) (m : Fin 16) (e : SxEntry) : Option Nat :=
  ((List.range 64).map (fun j => (e.sxid + j) % 64)).find? (fun j =>
    s.siteWeight m j != 0 && (j == s.ownSite m || (!s.outOfTouch (s.mdCanton m) j && !(s.sx m).shunned.contains (e.idx, j))))

/-- The leader that a holder stands by: the one of its open round, otherwise the one it would choose (R374). -/
def State.choice (s : State) (m : Fin 16) (e : SxEntry) : Option Nat :=
  match (if e.state = 1 then (s.sx m).rounds.find? (fun r => r.shard == e.idx) else none) with
  | some r => some r.leader
  | none => s.leaderOf m e

/-- The pair secret with a module (R378, R387). -/
def State.pairSecret (s : State) (k module : Nat) : Option (List Byte) :=
  (s.pairSecrets.find? (fun x => x.1 == k && x.2.1 == module)).map (fun x => x.2.2)

/-- An item queued at the site engine. -/
def State.sxQueue (s : State) (m : Fin 16) (i : SxItem) : State := { s with sites := { s.sites with queue := s.sites.queue ++ [(m.val, i)] } }

/-- An item of an entry for a site. -/
def State.sxItem (s : State) (e : SxEntry) (site ftype item aux : Nat) (stale : Bool) (data : List Byte) : SxItem :=
  ⟨e.idx, site, (s.peerOf e site).1, ftype, e.sxid, e.round, item, stale, e.sealed_, e.age, aux, data, 0, 0, 0⟩

/-- A NOTICE to a module (R388): kind, site named, ROUND and LINEAGE. -/
def State.notice (s : State) (m : Fin 16) (f : SiteFrame) (kind named round lineage : Nat) : State :=
  s.sxQueue m ⟨0, f.srcSite, f.srcModule, 0x0B, f.sxid, f.round, 0, false, f.sealed_, 0, kind + 256 * named,
    leBytes 4 round ++ leBytes 8 lineage, 0, 0, 0⟩

/-- Items of a shard of given types dropped, sent or not (R389). -/
def State.sxDrop (s : State) (m : Fin 16) (shard : Nat) (types : List Nat) : State :=
  let gone := fun (i : SxItem) => i.shard == shard && types.contains i.ftype
  let x := s.sx m
  { s.setSx m { x with items := x.items.filter (fun i => !gone i) } with
    sites := { s.sites with queue := s.sites.queue.filter (fun q => !(q.1 == m.val && gone q.2)) } }

/-- DATA frames of some chunks of a shard dropped, sent or not (R380). -/
def State.sxDropChunks (s : State) (m : Fin 16) (shard : Nat) (out : Nat → Bool) : State :=
  let gone := fun (i : SxItem) => i.shard == shard && i.ftype == 1 && out i.item
  let x := s.sx m
  { s.setSx m { x with items := x.items.filter (fun i => !gone i) } with
    sites := { s.sites with queue := s.sites.queue.filter (fun q => !(q.1 == m.val && gone q.2)) } }

/-- The pennant of a shard posted at SX_PEN (R382); a refused access is fault 0x3 (R402). -/
def State.sxPennant (s : State) (m : Fin 16) (shard : Nat) : State :=
  let pen := s.base4k (R.SX_PEN_LO m) (R.SX_PEN_HI m) + 8 * shard
  let t := if s.checkRange (.updateEngine m) true pen 8 == .ok then s else s.sxFault m 3 shard
  t.pennantTo (.updateEngine m) pen 1

/-! ### Forming a delta (R375-R378) -/

/-- FP32 code of a whole number. -/
def codeOfNat (n : Nat) : Nat := NFmt.fp32.rne (.fin false n 0)

/-- x of an element (R375): RNE(RNE(w − S) + e), with its flags. -/
def State.sxDelta (s : State) (e : SxEntry) (d : ShardDesc) (o : Nat) : Nat × Flags :=
  let (x, f1) := f32Sub (s.num (d.master + 4 * o) 4) (s.num (d.snap + 4 * o) 4)
  let (y, f2) := f32Add x (s.num (e.ef + 4 * o) 4)
  (y, f1.or f2)

/-- y of an element: RNE(WEIGHT_own × x), with its flags. -/
def State.sxWeighted (s : State) (m : Fin 16) (x : Nat) : Nat × Flags := f32Mul (codeOfNat (s.siteWeight m (s.ownSite m))) x

/-- Flags met one after the other. -/
def orFlags (l : List Flags) : Flags := l.foldl Flags.or Flags.none

/-- The least integer t with v ≤ 127 × 2^t, for a positive finite v. -/
def ceilLog2Over127 (v : FVal) : Int :=
  let t0 := v.log2 - 8
  match (List.range 4).find? (fun (i : Nat) => !FVal.lt (.fin false 127 (t0 + (i : Int))) v) with
  | some i => t0 + (i : Int)
  | none => t0 + 4

/-- The shared exponent s_c of a SEALED chunk (R377). -/
def State.sealedExp (s : State) (m : Fin 16) (e : SxEntry) (c : Nat) : Int :=
  let a := FVal.maxAbs ((s.codes (e.merged + 4 * (4096 * c)) 4 4096).map f32)
  let par := R.SX_PARAM m
  if a.isZero ∨ e.round = 1 then (s.get par F.SX_PARAM_S0 : Int) - 127
  else
    let wmax := (List.range 64).foldl (fun n j => max n (s.siteWeight m j)) 0
    let v := f32 (NFmt.fp32.rne (FVal.mul (.fin false (s.get par F.SX_PARAM_HEAD * wmax) (-4)) a).1)
    if v.isFin then (if v.isZero then -127 else min (max (ceilLog2Over127 v) (-127)) 127) else 127

/-- The mask seed σ of a pair for a shard (R378). -/
def maskSeed (secret : List Byte) (sxid : Nat) : List Byte := (hmac secret (label "JV-NG-MASK" ++ leBytes 4 sxid)).take 32

/-- Mask word k of a chunk under a seed (R378). -/
def maskWord (seed : List Byte) (round sxid c k : Nat) : Nat :=
  let block := fit 16 (Config.crypto "AES-256" (seed ++ leBytes 4 (k / 8) ++ leBytes 4 c ++ leBytes 4 sxid ++ leBytes 4 round))
  leNat ((block.drop (2 * (k % 8))).take 2)

/-- The mask word between this holder and site j; 0 without a pair secret. -/
def State.pairMask (s : State) (m : Fin 16) (e : SxEntry) (j c k : Nat) : Nat :=
  match s.pairSecret (s.mdCanton m) (s.peerOf e j).1 with
  | some z => maskWord (maskSeed z e.sxid) e.round e.sxid c k
  | none => 0

/-- The sum of this site's masks over some sites: those above it added, those below it subtracted, mod 2^16. -/
def State.maskSum (s : State) (m : Fin 16) (e : SxEntry) (js : List Nat) (c k : Nat) : Nat :=
  js.foldl (fun n j =>
    if j = s.ownSite m then n
    else if s.ownSite m < j then (n + s.pairMask m e j c k) % 65536 else (n + 65536 - s.pairMask m e j c k) % 65536) 0

/-- An OPEN chunk (R376): codes and scale bytes, with the generators used and the flags raised. The generators advance for
every four elements, whether or not a block's scale leaves them to be rounded (the model's choice, log 127). -/
def openChunk (gens : Vector (BitVec 64) 24) (sr : Bool) (ys : List Nat) : Vector (BitVec 64) 24 × List Byte × Flags :=
  let (g, modes) := bankModes gens sr 5 ys.length (fun _ => true)
  let vals := (ys.map f32).toArray
  let scales := ((List.range 128).map (fun b => blockScale .e2m1 ((List.range 128).map (fun i => vals.getD (128 * b + i) (.fin false 0 0))))).toArray
  let code := fun (i : Nat) => blockElem .e2m1 (modes.getD i .rne) (scales.getD (i / 128) 0) (vals.getD i (.fin false 0 0))
  (g, (List.range 8192).map (fun i => BitVec.ofNat 8 ((code (2 * i)).1 + 16 * (code (2 * i + 1)).1)) ++ scales.toList.map (BitVec.ofNat 8),
   orFlags ((List.range ys.length).map (fun i => (code i).2)))

/-- q of a SEALED element (R377): y / 2^s_c rounded stochastically, then clamped to ±127; with the flags of the rounding. -/
def sealedQ (mode : Rnd) (e : Int) (y : Nat) : Int × Flags :=
  let r := roundInt 32 mode ((f32 y).scale2 (-e))
  (min (max r.1 (-127)) 127, r.2)

/-- A contribution chunk of a shard formed and written to SEND (R375-R378): the state, and s_c + 127 in SEALED mode. The
flags it raises are the engine's (R67). -/
def State.formChunk (s : State) (m : Fin 16) (e : SxEntry) (d : ShardDesc) (c : Nat) : State × Nat :=
  let n := e.chunkElems
  let raw := (List.range n).map (fun i =>
    let x := s.sxDelta e d (n * c + i)
    let y := s.sxWeighted m x.1
    (y.1, x.2.or y.2))
  let ys := raw.map (fun y => y.1)
  let fl := orFlags (raw.map (fun y => y.2))
  let u := s.ue m
  if e.sealed_ then
    let sc := s.sealedExp m e c
    let (g, modes) := bankModes u.gens true 5 n (fun _ => true)
    let qs := (ys.zipIdx).map (fun y => sealedQ (modes.getD y.2 .rne) sc y.1)
    let words := (qs.zipIdx).flatMap (fun q =>
      leBytes 2 (((q.1.1 % 65536).toNat + s.maskSum m e (s.sitesOf m) c q.2) % 65536))
    (((s.setUe m { u with gens := g }).ueFlags m (fl.or (orFlags (qs.map (fun q => q.2))))).dramPut (e.send + 8192 * c) words, (sc + 127).toNat)
  else
    let (g, bs, f2) := openChunk u.gens e.sr ys
    (((s.setUe m { u with gens := g }).ueFlags m (fl.or f2)).dramPut (e.send + 8320 * c) bs, 0)

/-! ### Rebasing (R395-R398) -/

/-- A snapshot requested from a source (R397). -/
def State.askSnapshot (s : State) (m : Fin 16) (e : SxEntry) (site module die : Nat) (boot branch : Bool) : State :=
  let x := s.sx m
  let t := s.setSx m { x with rebases := ⟨e.idx, site, module, die, none, [], boot, branch⟩ :: x.rebases.filter (fun r => r.shard != e.idx) }
  t.sxQueue m { s.sxItem e site 8 0 0 false [] with module := module }

/-- The receive area of a shard cleared: the bitmap of chunks received (R373). -/
def State.clearRecv (s : State) (e : SxEntry) : State := s.dramPut e.recv (List.replicate (8 * e.nchunk) 0)

/-- Whether a collection of the entry's present round is kept (R379). -/
def State.collects (s : State) (m : Fin 16) (e : SxEntry) : Bool := (s.sx m).leads.any (fun l => l.shard == e.idx && l.round == e.round)

/-- A shard found behind (R395): STATE BEHIND; nothing more is sent in its round, as contributor or as leader: a collection
of the round is given up. -/
def State.sxBehind (s : State) (m : Fin 16) (e : SxEntry) : State :=
  let led := s.collects m e
  let x := s.sx m
  let t := s.setSx m { x with rounds := x.rounds.filter (fun r => r.shard != e.idx)
                              leads := x.leads.filter (fun l => !(l.shard == e.idx && l.round == e.round)) }
  let t := t.sxDrop m e.idx [1, 2, 4, 5]
  (if led then (t.clearRecv e).sxLead m e.idx 0 else t).sxState m e.idx 3

/-- A round abandoned (R393): IDLE, counted, 0x3245; EF, ROUND and SNAP unchanged. -/
def State.sxAbandon (s : State) (m : Fin 16) (e : SxEntry) : State :=
  let x := s.sx m
  let t := (s.setSx m { x with rounds := x.rounds.filter (fun r => r.shard != e.idx) }).sxDrop m e.idx [1, 2, 5]
  ((t.sxState m e.idx 0).sxTally m (R.SX_CNT_ABANDON m) 1).sxEvent m 0x3245 e

/-! ### Commands (R375, R398, R399, R402) -/

/-- The contribution of an opened shard sent to a leader: every chunk as DATA, then DONE. -/
def State.contribute (s : State) (m : Fin 16) (e : SxEntry) (leader : Nat) (auxs : List Nat) : State :=
  let t := (auxs.zipIdx).foldl (fun t c =>
    t.sxQueue m (s.sxItem e leader 1 c.2 c.1 (e.age != 0) (s.bytes (e.send + e.chunkBytes * c.2) e.chunkBytes))) s
  t.sxQueue m (s.sxItem e leader 2 0 0 (e.age != 0)
    (leBytes 4 e.nchunk ++ leBytes 1 (s.siteWeight m (s.ownSite m)) ++ List.replicate 11 0))

/-- This holder's collection of a shard as leader; a new one where its receive area is free. -/
def State.leadOf (s : State) (m : Fin 16) (e : SxEntry) : SxLead :=
  match (s.sx m).leads.find? (fun l => l.shard == e.idx && l.round == e.round) with
  | some l => l
  | none => ⟨e.idx, e.round, none, [], [], 0, 0, none, [], []⟩
/-- A collection set. -/
def State.setLead (s : State) (m : Fin 16) (l : SxLead) : State :=
  let x := s.sx m
  s.setSx m { x with leads := l :: x.leads.filter (fun y => y.shard != l.shard) }
/-- A contributor's round set. -/
def State.setRound (s : State) (m : Fin 16) (r : SxRound) : State :=
  let x := s.sx m
  s.setSx m { x with rounds := r :: x.rounds.filter (fun y => y.shard != r.shard) }

/-- The receive area taken by a collection of the present round: a new collection starts with no chunk received (R379). -/
def State.claimRecv (s : State) (m : Fin 16) (e : SxEntry) : State := if s.collects m e then s else s.clearRecv e

/-- One entry's round opened (R375). -/
def State.openEntry (s : State) (m : Fin 16) (e : SxEntry) : State :=
  match (s.shard? m e.idx).bind (fun x => x.desc), s.leaderOf m e with
  | some d, some leader =>
    let missing := e.sealed_ && (s.sitesOf m).any (fun j =>
      j != s.ownSite m && (s.pairSecret (s.mdCanton m) (s.peerOf e j).1).isNone)
    if missing then s.sxFault m 4 e.idx
    else
      let r := (List.range e.nchunk).foldl (fun (x : State × List Nat) c =>
        let q := x.1.formChunk m e d c
        (q.1, x.2 ++ [q.2])) (s, [])
      let t := (r.1.sxState m e.idx 1).setRound m ⟨e.idx, leader, none, [], []⟩
      if leader = s.ownSite m then
        let l := t.leadOf m e
        ((t.claimRecv m e).setLead m { l with openAt := some t.now }).sxLead m e.idx 1
      else t.contribute m e leader r.2
  | _, _ => s

/-- The round opened on every valid HOLDER entry in IDLE; a BEHIND entry starts its snapshot (R375). -/
def State.openRound (s : State) (m : Fin 16) : State :=
  let t := (s.sxHolders m).foldl (fun t e =>
    if e.state = 0 then t.openEntry m e
    else if e.state = 3 then
      (match t.sx m |>.rebases.find? (fun r => r.shard == e.idx), t.leaderOf m e with
        | some r, _ => t.askSnapshot m e r.site r.module r.die r.boot r.branch
        | none, some j => t.askSnapshot m e j (t.peerOf e j).1 (t.peerOf e j).2 false false
        | none, none => t)
    else t) s
  (t.put (R.SX_CMDSTAT m) F.SX_CMDSTAT_DONE 1).sxSync m

/-- OPENALL (R375): the round opens. Drawing waits for seeding (R66): the command stays BUSY until then. -/
def execOpenall (m : Fin 16) (s : State) : Out :=
  if s.flag (R.SX_CMDSTAT m) F.SX_CMDSTAT_BUSY then .next s
  else if s.flag (R.SX_CTL m) F.SX_CTL_EN = false then
    .next ((s.put (R.SX_CMDSTAT m) F.SX_CMDSTAT_REFUSED 1).sxFault m 5 0)
  else if (s.sxHolders m).any (fun e => e.state == 0 && (e.sealed_ || e.sr)) && s.unseeded m then
    .next (((s.setSx m { s.sx m with openWaits := true }).put (R.UE_STATUS m) F.UE_STATUS_SRHOLD 1).put (R.SX_CMDSTAT m) F.SX_CMDSTAT_BUSY 1)
  else .next (s.openRound m)

/-- BOOT (R398): a holder with ROUND 0 requests a snapshot from its leader. -/
def execBoot (m : Fin 16) (shard : Fin 16384) (s : State) : Out :=
  if s.flag (R.SX_CMDSTAT m) F.SX_CMDSTAT_BUSY then .next s
  else
    let e := s.sxEntry m shard
    match s.leaderOf m e with
    | some j =>
      if s.flag (R.SX_CTL m) F.SX_CTL_EN && decide (shard.val < s.sxCount m) && e.valid && e.holder && e.round == 0 && e.state != 5 then
        .next (((s.askSnapshot m e j (s.peerOf e j).1 (s.peerOf e j).2 true false).put (R.SX_CMDSTAT m) F.SX_CMDSTAT_DONE 1).sxSync m)
      else .next ((s.put (R.SX_CMDSTAT m) F.SX_CMDSTAT_REFUSED 1).sxFault m 5 shard)
    | none => .next ((s.put (R.SX_CMDSTAT m) F.SX_CMDSTAT_REFUSED 1).sxFault m 5 shard)

/-- SX_DISABLE (R399): VALID and STATE cleared, an open round abandoned, received data discarded. -/
def execSxDisable (m : Fin 16) (shard : Fin 16384) (s : State) : Out :=
  if s.flag (R.SX_CMDSTAT m) F.SX_CMDSTAT_BUSY then .next s
  else
    let e := s.sxEntry m shard
    if s.flag (R.SX_CTL m) F.SX_CTL_EN && decide (shard.val < s.sxCount m) && e.valid then
      let t := if e.state = 1 then s.sxAbandon m e else s
      let t := if e.lstate ≠ 0 then (t.clearRecv e).sxLead m shard 0 else t
      let x := t.sx m
      let t := t.setSx m { x with leads := x.leads.filter (fun l => l.shard != shard.val), rebases := x.rebases.filter (fun r => r.shard != shard.val) }
      let t := t.sxDrop m shard [1, 2, 4, 5, 6, 7, 8, 9, 10]
      let t := (t.sxState m shard 0).sxPut m shard 4 1 (s.num (s.sxAt m shard + 4) 1 / 2 * 2)
      .next ((t.put (R.SX_CMDSTAT m) F.SX_CMDSTAT_DONE 1).sxSync m)
    else .next ((s.put (R.SX_CMDSTAT m) F.SX_CMDSTAT_REFUSED 1).sxFault m 5 shard)

/-! ### Receiving a frame (R386, R387, R389, R391, R393) -/

/-- Header of a frame with PLEN bytes of ciphertext (R386). -/
def siteHeader (f : SiteFrame) (plen : Nat) : List Byte :=
  leBytes 2 f.magic ++ leBytes 1 f.version ++ leBytes 1 f.ftype ++ leBytes 4 f.job ++ leBytes 1 f.srcSite ++ leBytes 1 f.dstSite ++
  leBytes 1 ((if f.stale then 1 else 0) + (if f.sealed_ then 2 else 0)) ++ leBytes 1 f.age ++ leBytes 4 f.sxid ++ leBytes 4 f.round ++
  leBytes 4 f.item ++ leBytes 3 (f.srcModule % 2 ^ 17 + f.srcDie % 16 * 2 ^ 17) ++ leBytes 1 0 ++ leBytes 8 f.fseq ++ leBytes 4 plen ++
  leBytes 8 f.aux ++ List.replicate 16 0

/-- Key of a direction and epoch (R387). -/
def siteKey (secret : List Byte) (src dst fseq : Nat) : List Byte :=
  (hmac secret (label "JV-NG-TX" ++ leBytes 3 src ++ leBytes 3 dst ++ leBytes 4 (fseq / 2 ^ 32))).take 32

/-- Nonce of a frame: header bytes 24-26, byte 8 and bytes 28-35 (R387). -/
def siteNonce (h : List Byte) : List Byte := (h.drop 24).take 3 ++ (h.drop 8).take 1 ++ (h.drop 28).take 8

/-- A site-engine counter raised, unless frozen. -/
def State.spTally (s : State) (a n : Nat) : State := if s.countsStand R.SP_CNT_CTL then s else s.bump a (31, 0) n

/-- A site-engine event at most 16 times a second: kind 0 resend, 1 tag. -/
def State.siteCapped (s : State) (kind : Fin 2) (code : Nat) (canton : Nat) (det : List Byte) : State :=
  let sec := s.now / secTicks
  let n := if s.sites.rates[kind].1 = sec then s.sites.rates[kind].2 else 0
  if 16 ≤ n then s
  else ({ s with sites := { s.sites with rates := s.sites.rates.set kind (sec, n + 1) } }).raise code 62 (some canton) det

/-- An authenticated frame from a site (R393): the site is in touch; a mark is cleared with 0x1051. -/
def State.siteHeard (s : State) (k j : Nat) : State :=
  let t := { s with sites := { s.sites with heard := store2 s.sites.heard k j s.now } }
  if s.outOfTouch k j then
    (t.put (R.SP_PEER k j) F.SP_PEER_OUT 0).raise 0x1051 62 (some k) (detail 0 j (t.rd R.SP_RXFR_LO).toNat)
  else t

/-- The site engine's checks of a received frame (R391, SITE_FRAME_AUTH_FAIL): the state, and the payload of a good
frame. -/
def State.authFrame (s : State) (m : Fin 16) (f : SiteFrame) : State × Option (List Byte) :=
  let k := s.mdCanton m
  if f.magic ≠ 0x4E47 ∨ f.version ≠ 1 ∨ f.job ≠ s.jobs.getD k 0 ∨ f.dstSite ≠ s.ownSite m then
    (s.raise 0x1455 62 (some k) (detail 0 f.srcSite f.fseq), none)
  else
    let h := siteHeader f (f.text.length - 16)
    match (s.pairSecret k f.srcModule).bind (fun z => gcmOpen (siteKey z f.srcModule s.moduleId f.fseq) (siteNonce h) h f.text) with
    | none =>
      let t := s.spTally R.SP_AUTHFAIL 1
      (t.siteCapped 1 0x1454 k (detail 0 f.srcSite (t.rd R.SP_AUTHFAIL).toNat), none)
    | some data =>
      let t := if s.countsStand R.SP_CNT_CTL then s else s.add64 R.SP_RXFR_LO R.SP_RXFR_HI 1
      (t.siteHeard k f.srcSite, some data)

/-- A frame's FSEQ owed a SACK (R389). -/
def State.oweSack (s : State) (m : Fin 16) (f : SiteFrame) : State :=
  let x := s.sx m
  let key := f.srcModule * 16 + f.srcDie
  let old := match x.owed.find? (fun o => o.1 == key) with | some o => o.2 | none => (s.now, [])
  let old := if old.2.isEmpty then (s.now, []) else old
  s.setSx m { x with owed := (key, old.1, old.2 ++ [f.fseq]) :: x.owed.filter (fun o => o.1 != key) }

/-- A second copy of an item: acknowledged, discarded, counted (R389). -/
def State.dupFrame (s : State) (m : Fin 16) (f : SiteFrame) : State := (s.oweSack m f).spTally R.SP_DUPS 1

/-- A frame of a shard handed to its holder entry; without a valid entry NOTICE NOCTX is answered (R391). -/
def State.onFrame (s : State) (m : Fin 16) (f : SiteFrame) (act : State → SxEntry → List Byte → State) : State :=
  match s.authFrame m f with
  | (t, none) => t
  | (t, some data) =>
    match (if s.flag (R.SX_CTL m) F.SX_CTL_EN then t.sxFind m f.sxid else none) with
    | none => t.notice m f 4 (s.ownSite m) 0 0
    | some e => (act t e data).sxSync m

/-- Another holder's ROUND and LINEAGE compared with this shard's (R395, R400): behind, or on the losing branch. -/
def State.meet (s : State) (m : Fin 16) (e : SxEntry) (f : SiteFrame) (round lineage : Nat) : State :=
  if e.state = 3 ∨ e.state = 4 ∨ e.state = 5 then s
  else
    let branch := round = e.round ∧ lineage ≠ e.lineage ∧ lineage < e.lineage
    if e.round < round ∨ branch then
      let t := (s.sxBehind m e)
      let x := t.sx m
      let new : SxRebase := ⟨e.idx, f.srcSite, f.srcModule, f.srcDie, none, [], false, decide branch⟩
      t.setSx m { x with rebases := new :: x.rebases.filter (fun r => r.shard != e.idx) }
    else s

/-! ### The leader (R379-R381) -/

/-- Slot of a contributing site in the receive area: the place among the configured sites other than its own. -/
def State.recvSlot (s : State) (m : Fin 16) (e : SxEntry) (j : Nat) : Nat :=
  let others := (s.sitesOf m).filter (fun i => i != s.ownSite m)
  e.recv + recvHead e.nchunk + others.idxOf j * (e.chunkBytes * e.nchunk)
/-- The correction slot. -/
def State.corrSlot (s : State) (m : Fin 16) (e : SxEntry) : Nat :=
  e.recv + recvHead e.nchunk + ((s.sitesOf m).length - 1) * (e.chunkBytes * e.nchunk)
/-- Sites whose chunk c has been received, as a bitmap. -/
def State.recvBits (s : State) (e : SxEntry) (c : Nat) : Nat := s.num (e.recv + 8 * c) 8

/-- Whether a leader's data deadline has passed (R379). -/
def State.pastData (s : State) (m : Fin 16) (l : SxLead) : Bool :=
  match l.openAt with
  | some t => decide (t + (s.rd (R.SX_DATA_US m)).toNat * ticksPerUs ≤ s.now)
  | none => false

/-- Whether a leader's correction deadline has passed: SX_CORR_US after its data deadline (R380). -/
def State.pastCorr (s : State) (m : Fin 16) (l : SxLead) : Bool :=
  match l.openAt with
  | some t => decide (t + ((s.rd (R.SX_DATA_US m)).toNat + (s.rd (R.SX_CORR_US m)).toNat) * ticksPerUs ≤ s.now)
  | none => false

/-- What a leader does with a frame of a contributor before it takes it (R374, R379, R395, R400): answered with a NOTICE,
or passed on with the collection. A shard that is BEHIND, in REBASE or in FAULT takes nothing; a frame of a round whose merge
this leader is still sending is LATE; one of a greater round leaves this shard behind, answered with NOTICE YIELD. -/
def State.leadCheck (s : State) (m : Fin 16) (f : SiteFrame) (e : SxEntry) (act : SxLead → State) : State :=
  if 3 ≤ e.state then s
  else match s.choice m e with
  | none => s
  | some j =>
    if j ≠ s.ownSite m then s.notice m f 3 j e.round e.lineage
    else if f.round < e.round then
      s.notice m f (if e.lstate = 3 ∧ (s.sx m).leads.any (fun l => l.shard == e.idx && l.round == f.round) = true then 1 else 2)
        (s.ownSite m) e.round e.lineage
    else if e.round < f.round then (s.notice m f 5 (s.ownSite m) e.round e.lineage).meet m e f f.round 0
    else if e.lstate = 3 ∧ (s.sx m).leads.any (fun l => l.shard == e.idx && l.round != e.round) then s
    else
      let l := s.leadOf m e
      if s.pastData m l ∨ 2 ≤ e.lstate then s.notice m f 1 (s.ownSite m) e.round e.lineage
      else if s.siteWeight m f.srcSite = 0 ∨ f.srcSite = s.ownSite m then s
      else act { l with senders := if l.senders.contains f.srcSite then l.senders else f.srcSite :: l.senders }

/-- DATA (R379): a leader stores a contribution chunk and acknowledges it; a copy is discarded; late, behind and
misdirected chunks are answered with a NOTICE. -/
def execData (m : Fin 16) (f : SiteFrame) (s : State) : Out :=
  .next (s.onFrame m f (fun s e data =>
    s.leadCheck m f e (fun l =>
      if data.length ≠ e.chunkBytes ∨ e.nchunk ≤ f.item then s
      else
        let slot := s.recvSlot m e f.srcSite
        let s := s.claimRecv m e
        if (s.recvBits e f.item).testBit f.srcSite then (s.setLead m l).dupFrame m f
        else
          -- the exponent of a SEALED chunk is derived alike at every site (R377), so AUX need not be kept
          let t := (s.setLead m l).dramPut (slot + e.chunkBytes * f.item) data
          (t.dramPut (e.recv + 8 * f.item) (leBytes 8 (s.recvBits e f.item + 2 ^ f.srcSite))).oweSack m f)))

/-- DONE (R379): the contributor's site is admitted to the quorum set. -/
def execDone (m : Fin 16) (f : SiteFrame) (s : State) : Out :=
  .next (s.onFrame m f (fun s e _ =>
    s.leadCheck m f e (fun l =>
      if l.done.contains f.srcSite then (s.setLead m l).dupFrame m f
      else ((s.claimRecv m e).setLead m { l with done := f.srcSite :: l.done }).oweSack m f)))

/-- A correction word by word (R380): the masks of this site with the configured sites outside I_c. -/
def State.correction (s : State) (m : Fin 16) (e : SxEntry) (incl c : Nat) : List Byte :=
  let out := (s.sitesOf m).filter (fun j => !incl.testBit j)
  (List.range 4096).flatMap (fun k => leBytes 2 (s.maskSum m e out c k))

/-- Whether a chunk's sum needs corrections: some configured site is not counted (R380). -/
def State.needsCorr (s : State) (m : Fin 16) (incl : Nat) : Bool := (s.sitesOf m).any (fun j => !incl.testBit j)

/-- Words added into the correction slot of a chunk, mod 2^16 (R380). -/
def State.addCorr (s : State) (m : Fin 16) (e : SxEntry) (c : Nat) (words : List Byte) : State :=
  let a := s.corrSlot m e + 8192 * c
  s.dramPut a ((List.range 4096).flatMap (fun k => leBytes 2 ((s.num (a + 2 * k) 2 + fieldAt words (2 * k) 2) % 65536)))

/-- Sites of a bitmap, ascending. -/
def bitSites (n : Nat) : List Nat := (List.range 64).filter (fun j => n.testBit j)

/-- Whether every correction a leader has asked for is present. -/
def State.corrsIn (s : State) (m : Fin 16) (l : SxLead) : Bool :=
  (l.incl.zipIdx).all (fun p => !s.needsCorr m p.1 ||
    (bitSites p.1).all (fun j => j == s.ownSite m || l.corrs.contains (j, p.2)))

/-- A signed 16-bit word. -/
def signed16 (n : Nat) : Int := if n < 32768 then (n : Int) else (n : Int) - 65536

/-- q_W (R381): RNE(1 / W_Q). -/
def recipCode (wq : Nat) : Nat := (f32Div oneCode (codeOfNat wq)).1

/-- Merge items of a chunk (R381): AUX and 4,096 elements each, with the flags raised. -/
def State.mergeChunk (s : State) (m : Fin 16) (e : SxEntry) (l : SxLead) (c : Nat) : List (Nat × List Byte) × Flags :=
  let incl := bitSites (l.incl.getD c 0)
  let base := fun (j : Nat) => (if j = s.ownSite m then e.send else s.recvSlot m e j) + e.chunkBytes * c
  if e.sealed_ then
    let corr := s.corrSlot m e + 8192 * c
    let aux := (s.sealedExp m e c + 127).toNat
    let word := fun (k : Nat) =>
      if incl.isEmpty then 0
      else
        let sum := incl.foldl (fun n j => n + s.num (base j + 2 * k) 2) 0
        (sum + (if s.needsCorr m (l.incl.getD c 0) then 65536 - s.num (corr + 2 * k) 2 else 0)) % 65536
    ([(aux, (List.range 4096).flatMap (fun k => leBytes 2 (word k)))], Flags.none)
  else
    let q := recipCode l.wq
    let elem := fun (k : Nat) =>
      if incl.isEmpty then (0, Flags.none)
      else
        let acc := incl.foldl (fun (a : Nat × Flags) j =>
          let v := scaledValue .e2m1 (s.num (base j + 8192 + k / 128) 1) (s.elemAt (base j) 4 k)
          let r := f32Round (FVal.add (f32 a.1) v)
          (r.1, a.2.or r.2)) (0, Flags.none)
        let p := f32Mul acc.1 q
        let b := NFmt.bf16.round false .rne (f32 p.1)
        (b.1, (acc.2.or p.2).or b.2)
    ((List.range 4).map (fun i => (0, (List.range 4096).flatMap (fun k => leBytes 2 (elem (4096 * i + k)).1))),
     orFlags ((List.range 16384).map (fun k => (elem k).2)))

/-- D of element k of a merge item (R381), with its flags. -/
def mergeValue (sealed_ : Bool) (wq aux : Nat) (data : List Byte) (k : Nat) : Nat × Flags :=
  let w := fieldAt data (2 * k) 2
  if sealed_ then
    NFmt.fp32.round false .rne (FVal.mul ((FVal.ofInt (signed16 w)).scale2 ((aux : Int) - 127)) (f32 (recipCode wq))).1
  else (w * 65536, Flags.none)

/-- ŷ_own of an element from SEND (R382): decoded in OPEN mode; in SEALED mode q recovered by removing the masks. -/
def State.ownValue (s : State) (m : Fin 16) (e : SxEntry) (o : Nat) : FVal :=
  let c := o / e.chunkElems
  let k := o % e.chunkElems
  let a := e.send + e.chunkBytes * c
  if e.sealed_ then
    (FVal.ofInt (signed16 ((s.num (a + 2 * k) 2 + 65536 - s.maskSum m e (s.sitesOf m) c k) % 65536))).scale2 (s.sealedExp m e c)
  else scaledValue .e2m1 (s.num (a + 8192 + k / 128) 1) (s.elemAt a 4 k)

/-- A round applied at a holder (HOLDER_APPLY, R382): error feedback, MERGED, LINEAGE, ROUND, the pennant; STATE APPLY. -/
def State.applyRound (s : State) (m : Fin 16) (e : SxEntry) (leader quorum wq : Nat) (counted : Nat → Bool)
    (items : List (Nat × Nat × List Byte)) : State :=
  match (s.shard? m e.idx).bind (fun x => x.desc) with
  | none => s
  | some d =>
    let n := d.exchElems
    let w := codeOfNat (s.siteWeight m (s.ownSite m))
    let fed := (List.range n).map (fun o =>
      let x := s.sxDelta e d o
      if counted (o / e.chunkElems) then
        let own := NFmt.fp32.round false .rne (s.ownValue m e o)
        let q := f32Div own.1 w
        let r := f32Sub x.1 q.1
        (r.1, ((x.2.or own.2).or q.2).or r.2)
      else x)
    let efs := fed.flatMap (fun x => leBytes 4 x.1)
    let vals := (List.range (n / 4096)).flatMap (fun i =>
      match items.find? (fun it => it.1 == i) with
      | some it => (List.range 4096).map (fun k => mergeValue e.sealed_ wq it.2.1 it.2.2 k)
      | none => List.replicate 4096 (0, Flags.none))
    let ds := vals.flatMap (fun v => leBytes 4 v.1)
    let t := ((s.ueFlags m (orFlags (fed.map (fun x => x.2) ++ vals.map (fun v => v.2)))).dramPut e.ef efs).dramPut e.merged ds
    let lin := leNat ((sha512 (leBytes 8 e.lineage ++ leBytes 4 e.round ++ leBytes 1 leader ++ leBytes 8 quorum)).take 8)
    let t := ((t.sxPut m e.idx 16 8 lin).sxPut m e.idx 8 4 (e.round + 1)).sxPut m e.idx 7 1 0
    let t := (t.sxPennant m e.idx).sxState m e.idx 2
    let lacking := ((List.range e.nchunk).filter (fun c => !counted c)).length
    let t := (t.sxTally m (R.SX_CNT_MERGED m) 1).sxTally m (R.SX_CNT_ZERO m) lacking
    let x := t.sx m
    t.setSx m { x with rounds := x.rounds.filter (fun r => r.shard != e.idx) }

/-- Bytes of the counted-chunk bits of a part of MHEAD for a site (R388). -/
def countedBits (incl : List Nat) (site part : Nat) : List Byte :=
  let mine := (incl.drop (65536 * part)).take 65536
  (List.range ((mine.length + 7) / 8)).map (fun b => BitVec.ofNat 8
    ((List.range 8).foldl (fun n i => n + (if (mine.getD (8 * b + i) 0).testBit site then 2 ^ i else 0)) 0))

/-- MHEAD sent to a site (R388): every part. -/
def State.sendMhead (s : State) (m : Fin 16) (e : SxEntry) (l : SxLead) (status site : Nat) : State :=
  let parts := max 1 ((e.nchunk + 65535) / 65536)
  (List.range parts).foldl (fun t p =>
    let head := if p = 0 then leBytes 8 e.lineage ++ leBytes 8 l.quorum ++ leBytes 4 e.nchunk ++ List.replicate 44 0 else []
    t.sxQueue m (s.sxItem e site 6 p (status + 65536 * l.wq) false (head ++ countedBits l.incl site p))) s

/-- The merge formed and sent, and applied at the leader (R381). -/
def State.formMerge (s : State) (m : Fin 16) (e : SxEntry) (l : SxLead) : State :=
  let chunks := (List.range e.nchunk).map (fun c => s.mergeChunk m e l c)
  let s := s.ueFlags m (orFlags (chunks.map (fun c => c.2)))
  let items := chunks.flatMap (fun c => c.1)
  let numbered := (items.zipIdx).map (fun p => (p.2, p.1.1, p.1.2))
  let t := l.senders.foldl (fun t j =>
    numbered.foldl (fun t i => t.sxQueue m (s.sxItem e j 7 i.1 i.2.1 false i.2.2)) (t.sendMhead m e l 0 j)) s
  let own := s.ownSite m
  let t := t.applyRound m e own l.quorum l.wq (fun c => (l.incl.getD c 0).testBit own) numbered
  let t := t.clearRecv e
  if l.senders.isEmpty then
    let x := t.sx m
    (t.setSx m { x with leads := x.leads.filter (fun y => y.shard != e.idx) }).sxLead m e.idx 0
  else (t.setLead m l).sxLead m e.idx 3

/-- The frames of chunks whose site is not counted destroyed in the receive area (R380). -/
def State.destroyUncounted (s : State) (m : Fin 16) (e : SxEntry) (incl : List Nat) : State :=
  (incl.zipIdx).foldl (fun t p =>
    ((bitSites (s.recvBits e p.2)).filter (fun j => !p.1.testBit j && j != s.ownSite m)).foldl (fun t j =>
      t.dramPut (s.recvSlot m e j + e.chunkBytes * p.2) (List.replicate e.chunkBytes 0)) t) s

/-- LEADER_DATA_DEADLINE (R379, R380): the quorum set is fixed. Without quorum MHEAD with STATUS 1 ends the round; with
it an OPEN round is merged, and a SEALED round sends INCLUDE and takes corrections. -/
def execLeaderDataDeadline (m : Fin 16) (shard : Fin 16384) (s : State) : Out :=
  let e := s.sxEntry m shard
  match (s.sx m).leads.find? (fun l => l.shard == shard.val && l.round == e.round) with
  | none => .next s
  | some l =>
    if s.pastData m l = false ∨ e.lstate ≠ 1 then .next s
    else
      let own := s.ownSite m
      let q := own :: l.done
      let quorum := (List.range 64).foldl (fun n j => if q.contains j && s.siteWeight m j != 0 then n + 2 ^ j else n) 0
      let wq := (bitSites quorum).foldl (fun n j => n + s.siteWeight m j) 0
      if 256 * wq ≤ s.get (R.SX_PARAM m) F.SX_PARAM_QUORUM * s.weightAll m then
        let l := { l with quorum := quorum, wq := wq, incl := List.replicate e.nchunk 0 }
        let t := l.senders.foldl (fun t j => t.sendMhead m e l 1 j) s
        let t := (((t.clearRecv e).sxLead m shard 0).sxState m shard 0).sxEvent m 0x3041 e
        let x := t.sx m
        .next ((t.setSx m { x with leads := x.leads.filter (fun y => y.shard != shard.val),
                                   rounds := x.rounds.filter (fun r => r.shard != shard.val) }).sxSync m)
      else
        let incl := (List.range e.nchunk).map (fun c => (s.recvBits e c ||| 2 ^ own) &&& quorum)
        let l := { l with quorum := quorum, wq := wq, incl := incl }
        let lacking := incl.foldl (fun n w => n + ((bitSites quorum).filter (fun j => !w.testBit j)).length) 0
        let t := if lacking = 0 then s else (s.sxTally m (R.SX_CNT_ZERO m) lacking).sxEvent m 0x3040 e
        if e.sealed_ then
          let l := { l with includedAt := some s.now }
          let t := t.destroyUncounted m e incl
          let parts := (e.nchunk + 1023) / 1024
          let t := ((bitSites quorum).filter (fun j => j != own)).foldl (fun t j =>
            (List.range parts).foldl (fun t p =>
              t.sxQueue m (s.sxItem e j 4 p 0 false (((incl.drop (1024 * p)).take 1024).flatMap (fun w => leBytes 8 w)))) t) t
          -- corrections start from 0; the leader adds its own
          let t := (t.dramPut (t.corrSlot m e) (List.replicate (8192 * e.nchunk) 0)).sxLead m shard 2
          let t := (incl.zipIdx).foldl (fun t p => if t.needsCorr m p.1 then t.addCorr m e p.2 (t.correction m e p.1 p.2) else t) t
          if t.corrsIn m l then .next ((t.formMerge m e l).sxSync m) else .next ((t.setLead m l).sxSync m)
        else .next ((t.formMerge m e l).sxSync m)

/-- LEADER_CORR_DEADLINE (R380, R381): a chunk whose corrections are not all present is excluded for every site, and the
merge is formed. -/
def execLeaderCorrDeadline (m : Fin 16) (shard : Fin 16384) (s : State) : Out :=
  let e := s.sxEntry m shard
  match (s.sx m).leads.find? (fun l => l.shard == shard.val && l.round == e.round) with
  | none => .next s
  | some l =>
    if l.includedAt = none ∨ e.lstate ≠ 2 ∨ s.pastCorr m l = false then .next s
    else
      let incl := (l.incl.zipIdx).map (fun p =>
        if !s.needsCorr m p.1 || (bitSites p.1).all (fun j => j == s.ownSite m || l.corrs.contains (j, p.2)) then p.1 else 0)
      let lost := (l.incl.zip incl).foldl (fun n p => if p.2 = 0 then n + (bitSites p.1).length else n) 0
      let t := if lost = 0 then s else (s.sxTally m (R.SX_CNT_ZERO m) lost).sxEvent m 0x3040 e
      .next ((t.formMerge m e { l with incl := incl }).sxSync m)

/-- CORR (R380): a correction that comes before the deadline is added into the correction slot once per site and chunk; with
the last one asked for the merge is formed. -/
def execCorr (m : Fin 16) (f : SiteFrame) (s : State) : Out :=
  .next (s.onFrame m f (fun s e data =>
    match (s.sx m).leads.find? (fun l => l.shard == e.idx && l.round == e.round) with
    | none => s
    | some l =>
      if f.round ≠ e.round ∨ e.lstate ≠ 2 ∨ s.pastCorr m l = true ∨ (l.incl.getD f.item 0).testBit f.srcSite = false ∨ data.length ≠ 8192 then s
      else if l.corrs.contains (f.srcSite, f.item) then s.dupFrame m f
      else
        let l := { l with corrs := (f.srcSite, f.item) :: l.corrs }
        let t := ((s.addCorr m e f.item data).setLead m l).oweSack m f
        if s.corrsIn m l then t.formMerge m e l else t))

/-! ### The contributor (R380-R382) -/

/-- INCLUDE (R380): a member counted in a chunk whose sum lacks sites sends its correction to the leader. -/
def execInclude_ (m : Fin 16) (f : SiteFrame) (s : State) : Out :=
  .next (s.onFrame m f (fun s e data =>
    match (s.sx m).rounds.find? (fun r => r.shard == e.idx) with
    | none => s
    | some r =>
      if f.round ≠ e.round ∨ e.state ≠ 1 ∨ r.leader ≠ f.srcSite then s
      else if r.counted.any (fun p => p.1 == 65536 + f.item) then s.dupFrame m f
      else
        -- parts of INCLUDE are noted above the parts of MHEAD
        let t := (s.setRound m { r with counted := (65536 + f.item, []) :: r.counted }).oweSack m f
        -- frames still held of chunks that are not counted are destroyed before the answer
        let out := fun (c : Nat) => decide (1024 * f.item ≤ c) && decide (c < 1024 * f.item + data.length / 8) &&
          !(fieldAt data (8 * (c - 1024 * f.item)) 8).testBit (s.ownSite m)
        let t := t.sxDropChunks m e.idx out
        (List.range (data.length / 8)).foldl (fun t i =>
          let w := fieldAt data (8 * i) 8
          if w.testBit (s.ownSite m) && s.needsCorr m w then
            t.sxQueue m (s.sxItem e f.srcSite 5 (1024 * f.item + i) 0 false (s.correction m e w (1024 * f.item + i)))
          else t) t))

/-- The round applied once MHEAD and every MERGE item are held (R382). -/
def State.tryApply (s : State) (m : Fin 16) (e : SxEntry) : State :=
  match (s.sx m).rounds.find? (fun r => r.shard == e.idx) with
  | none => s
  | some r =>
    match r.head with
    | none => s
    | some (_, q, wq) =>
      let items := e.nchunk * e.chunkElems / 4096
      let parts := max 1 ((e.nchunk + 65535) / 65536)
      if (List.range parts).all (fun p => r.counted.any (fun c => c.1 == p)) && (List.range items).all (fun i => r.merged.any (fun x => x.1 == i)) then
        -- a contribution that was abandoned is treated as not counted (R393)
        let counted := fun (c : Nat) => e.state == 1 && (match r.counted.find? (fun p => p.1 == c / 65536) with
          | some p => (fieldAt p.2 (c % 65536 / 8) 1).testBit (c % 8)
          | none => false)
        s.applyRound m e r.leader q wq counted r.merged
      else s

/-- The round record of a holder that receives a merge; one of its own where it had none (R382). -/
def State.roundOf (s : State) (m : Fin 16) (e : SxEntry) (leader : Nat) : SxRound :=
  match (s.sx m).rounds.find? (fun r => r.shard == e.idx) with
  | some r => r
  | none => ⟨e.idx, leader, none, [], []⟩

/-- MHEAD (R388, R392, R395): DATA, DONE and CORR are no longer resent; STATUS 1 ends the round with nothing changed; a
greater ROUND or a winning lineage leaves the shard behind; otherwise the header is kept. -/
def execMhead (m : Fin 16) (f : SiteFrame) (s : State) : Out :=
  .next (s.onFrame m f (fun s e data =>
    let lineage := if f.item = 0 then fieldAt data 0 8 else e.lineage
    if e.state = 3 ∨ e.state = 4 ∨ e.state = 5 then s.oweSack m f
    else if f.round < e.round then s.dupFrame m f
    else if e.round < f.round ∨ lineage ≠ e.lineage then (s.meet m e f f.round lineage).oweSack m f
    else
      let r := s.roundOf m e f.srcSite
      if r.counted.any (fun p => p.1 == f.item) then s.dupFrame m f
      else
        let t := (s.sxDrop m e.idx [1, 2, 5]).oweSack m f
        if f.aux % 256 = 1 then
          let x := t.sx m
          (t.setSx m { x with rounds := x.rounds.filter (fun y => y.shard != e.idx) }).sxState m e.idx 0
        else
          let bits := if f.item = 0 then data.drop 64 else data
          let r := { r with
            leader := f.srcSite
            head := if f.item = 0 then some (lineage, fieldAt data 8 8, f.aux / 65536 % 65536) else r.head
            counted := (f.item, bits) :: r.counted }
          (t.setRound m r).tryApply m e))

/-- MERGE (R381, R382): one item of the merged delta; with the last the round is applied. -/
def execMerge (m : Fin 16) (f : SiteFrame) (s : State) : Out :=
  .next (s.onFrame m f (fun s e data =>
    if e.state = 3 ∨ e.state = 4 ∨ e.state = 5 ∨ e.round < f.round then s
    else if f.round < e.round then s.dupFrame m f
    else
      let r := s.roundOf m e f.srcSite
      if r.merged.any (fun x => x.1 == f.item) then s.dupFrame m f
      else if data.length ≠ 8192 then s
      else ((s.setRound m { r with merged := (f.item, f.aux % 256, data) :: r.merged }).oweSack m f).tryApply m e))

/-- EXCHANGE_COLLECTIVE_DONE (R382): the site-local collective's DONE pennant returns the entry to IDLE. -/
def execExchangeCollectiveDone (m : Fin 16) (shard : Fin 16384) (s : State) : Out :=
  if (s.sxEntry m shard).state = 2 then .next ((s.sxState m shard 0).sxSync m) else .next s

/-! ### Snapshots (R397) -/

/-- SNAPREQ (R397): a source whose shard is IDLE or OPEN, and runs no outer step, serves SNAPHEAD and every element of
SNAP and of the outer momentum. -/
def execSnapreq (m : Fin 16) (f : SiteFrame) (s : State) : Out :=
  .next (s.onFrame m f (fun s e _ =>
    match s.shard? m e.idx with
    | none => s
    | some sh =>
      match sh.desc with
      | none => s
      | some d =>
        if 2 ≤ e.state ∨ (sh.j.state = 1 ∧ sh.j.outer = true) then s
        else if (s.sx m).items.any (fun i => i.shard == e.idx && i.site == f.srcSite && (i.ftype == 9 || i.ftype == 10)) then s.dupFrame m f
        else
          let n := d.exchElems / 2048
          let target := { s.sxItem e f.srcSite 9 0 0 false (leBytes 8 e.lineage ++ leBytes 4 (2 * n)) with module := f.srcModule }
          let t := (s.oweSack m f).sxQueue m target
          (List.range (2 * n)).foldl (fun t i =>
            let a := if i < n then d.snap + 8192 * i else d.omom + 8192 * (i - n)
            t.sxQueue m { target with ftype := 10, item := i, aux := if i < n then 0 else 1, data := s.bytes a 8192 }) t))

/-- δ^k, formed once in FP32 (R396). -/
def discount (delta k : Nat) : Nat := NFmt.fp32.rne ((List.range k).foldl (fun v _ => (FVal.mul v (f32 delta)).1) (.fin false 1 0))

/-- A behind shard folds its local progress into EF, or discards it beyond STALEMAX (STALE_FOLD, R396); BOOT sets EF to +0
without a fold (R398). -/
def State.staleFold (s : State) (m : Fin 16) (e : SxEntry) (d : ShardDesc) (round : Nat) (boot : Bool) : State :=
  let n := d.exchElems
  let k := max 1 (round - e.round)
  if boot then s.dramPut e.ef (List.replicate (4 * n) 0)
  else if k ≤ s.get (R.SX_PARAM m) F.SX_PARAM_STALEMAX then
    let dk := discount (s.rd (R.SX_DISCOUNT m)).toNat k
    let fed := (List.range n).map (fun o =>
      let (x, f1) := f32Sub (s.num (d.master + 4 * o) 4) (s.num (d.snap + 4 * o) 4)
      let (y, f2) := f32Mul dk x
      let (z, f3) := f32Add (s.num (e.ef + 4 * o) 4) y
      (z, (f1.or f2).or f3))
    (((s.ueFlags m (orFlags (fed.map (fun x => x.2)))).dramPut e.ef (fed.flatMap (fun x => leBytes 4 x.1))).sxPut m e.idx 7 1 k).sxTally m (R.SX_CNT_FOLD m) 1
  else (s.dramPut e.ef (List.replicate (4 * n) 0)).sxEvent m 0x3042 e

/-- The rebase finished once every item has arrived (REBASE_COMPLETE, R397): SNAP copied to MASTER, ROUND and LINEAGE,
working copies rederived, which waits for seeding where they draw (R66), the pennant posted, counted, 0x3143; STATE
returns to IDLE (DEDUCED, log 66). -/
def State.tryRebase (s : State) (m : Fin 16) (e : SxEntry) (d : ShardDesc) : State :=
  match (s.sx m).rebases.find? (fun r => r.shard == e.idx) with
  | none => s
  | some r =>
    match r.head with
    | none => s
    | some (round, lineage, items) =>
      if !(List.range items).all (fun i => r.got.contains i) then s
      else if d.src && s.unseeded m then s.put (R.UE_STATUS m) F.UE_STATUS_SRHOLD 1
      else
        let t := s.dramPut d.master (s.bytes d.snap (4 * d.exchElems))
        let t := (t.sxPut m e.idx 8 4 round).sxPut m e.idx 16 8 lineage
        let t := t.rederive m d
        let t := (t.sxPennant m e.idx).sxState m e.idx 0
        let x := t.sx m
        let t := t.setSx m { x with rebases := x.rebases.filter (fun y => y.shard != e.idx) }
        let t := if r.branch then t.sxEvent m 0x3048 e else t
        (t.sxTally m (R.SX_CNT_REBASE m) 1).sxEvent m 0x3143 e

/-- SNAPHEAD (R396, R397): the rebasing holder takes STATE REBASE and folds its progress. -/
def execSnaphead (m : Fin 16) (f : SiteFrame) (s : State) : Out :=
  .next (s.onFrame m f (fun s e data =>
    match (s.sx m).rebases.find? (fun r => r.shard == e.idx), (s.shard? m e.idx).bind (fun x => x.desc) with
    | some r, some d =>
      if r.site ≠ f.srcSite ∨ r.module ≠ f.srcModule then s
      else if r.head.isSome then s.dupFrame m f
      else
        let x := s.sx m
        let r' := { r with head := some (f.round, fieldAt data 0 8, fieldAt data 8 4) }
        let t := s.setSx m { x with rebases := r' :: x.rebases.filter (fun y => y.shard != e.idx) }
        let t := (((t.sxState m e.idx 4).staleFold m e d f.round r.boot).sxDrop m e.idx [8]).oweSack m f
        t.tryRebase m e d
    | _, _ => s))

/-- SNAP (R397): an item of the snapshot is written into SNAP or the outer momentum. -/
def execSnap (m : Fin 16) (f : SiteFrame) (s : State) : Out :=
  .next (s.onFrame m f (fun s e data =>
    match (s.sx m).rebases.find? (fun r => r.shard == e.idx), (s.shard? m e.idx).bind (fun x => x.desc) with
    | some r, some d =>
      let n := d.exchElems / 2048
      if r.site ≠ f.srcSite ∨ r.module ≠ f.srcModule ∨ r.head.isNone ∨ data.length ≠ 8192 ∨ 2 * n ≤ f.item then s
      else if r.got.contains f.item then s.dupFrame m f
      else
        let x := s.sx m
        let a := if f.aux % 2 = 0 then d.snap + 8192 * (f.item % n) else d.omom + 8192 * (f.item % n)
        let t := (s.setSx m { x with rebases := { r with got := f.item :: r.got } :: x.rebases.filter (fun y => y.shard != e.idx) }).dramPut a data
        (t.oweSack m f).tryRebase m e d
    | _, _ => s))

/-! ### Acknowledgement, notices, probes (R388, R389, R393) -/

/-- A leader whose items have all been acknowledged, or whose sites are out of touch, is done with its round (R381). -/
def State.leadDone (s : State) (m : Fin 16) (shard : Nat) : State :=
  let waits := fun (i : SxItem) => i.shard == shard && (i.ftype == 6 || i.ftype == 7) && !s.outOfTouch (s.mdCanton m) i.site
  let x := s.sx m
  if (s.sxEntry m shard).lstate = 3 ∧ x.items.any waits = false ∧ s.sites.queue.any (fun q => q.1 == m.val && waits q.2) = false then
    (s.setSx m { x with leads := x.leads.filter (fun l => l.shard != shard) }).sxLead m shard 0
  else s

/-- What was sent to a site for a shard counted as unsent (R391): no longer resent. -/
def State.sxUnsend (s : State) (m : Fin 16) (e : SxEntry) (site : Nat) : State :=
  let gone := fun (i : SxItem) => i.shard == e.idx && i.sxid == e.sxid && i.site == site
  let x := s.sx m
  { s.setSx m { x with items := x.items.filter (fun i => !gone i) } with
    sites := { s.sites with queue := s.sites.queue.filter (fun q => !(q.1 == m.val && gone q.2)) } }

/-- SRTT of a site after a sample in µs, with gain 1/8 (R389). -/
def State.srttSample (s : State) (k j us : Nat) : State :=
  let old := s.get (R.SP_PEER k j) F.SP_PEER_SRTT
  s.put (R.SP_PEER k j) F.SP_PEER_SRTT (if old = 0 then us else (7 * old + us) / 8)

/-- SACK (R389): acknowledged items are no longer resent; items sent once give a round-trip sample. -/
def execSack (m : Fin 16) (f : SiteFrame) (s : State) : Out :=
  match s.authFrame m f with
  | (t, none) => .next t
  | (t, some data) =>
    let n := min (fieldAt data 0 2) 680
    let ranges := (List.range n).map (fun i => (fieldAt data (2 + 12 * i) 8, fieldAt data (10 + 12 * i) 4))
    let hit := fun (i : SxItem) => i.module == f.srcModule && ranges.any (fun r => decide (r.1 ≤ i.fseq) && decide (i.fseq < r.1 + r.2))
    let x := t.sx m
    let gone := x.items.filter hit
    let t := t.setSx m { x with items := x.items.filter (fun i => !hit i) }
    let t := (gone.filter (fun i => i.tries == 1)).foldl (fun t i => t.srttSample (s.mdCanton m) i.site ((s.now - i.at_) / ticksPerUs)) t
    .next ((((gone.map (fun i => i.shard)).eraseDups).foldl (fun t i => t.leadDone m i) t).sxSync m)

/-- NOTICE (R374, R388, R391, R395, R399, R400), of the round this holder has open with that leader: LATE stops resending;
NOTLEAD sends the contribution to the site named; NOCTX abandons the round and shuns the site for the shard; YIELD abandons
it. From a site that is not its leader NOCTX leaves what was sent there unsent. BEHIND, NOTLEAD and YIELD show the sender's
ROUND and LINEAGE. -/
def execNotice (m : Fin 16) (f : SiteFrame) (s : State) : Out :=
  .next (s.onFrame m f (fun s e data =>
    let kind := f.aux % 256
    let named := f.aux / 256 % 64
    let s := if kind = 2 ∨ kind = 3 ∨ kind = 5 then s.meet m e f (fieldAt data 0 4) (fieldAt data 4 8) else s
    let mine := if e.state = 1 ∧ f.round = e.round then
        (s.sx m).rounds.find? (fun r => r.shard == e.idx && r.leader == f.srcSite) else none
    match mine with
    | none => if kind = 4 then (s.sxUnsend m e f.srcSite).leadDone m e.idx else s
    | some r =>
      if kind = 1 then s.sxDrop m e.idx [1, 2, 5]
      else if kind = 3 ∧ s.siteWeight m named ≠ 0 ∧ named ≠ s.ownSite m ∧ named ≠ r.leader then
        let t := (s.sxDrop m e.idx [1, 2]).setRound m { r with leader := named }
        t.contribute m e named ((List.range e.nchunk).map (fun c => if e.sealed_ then (s.sealedExp m e c + 127).toNat else 0))
      else if kind = 4 then
        let t := s.sxAbandon m e
        let x := t.sx m
        t.setSx m { x with shunned := (e.idx, f.srcSite) :: x.shunned }
      else if kind = 5 then s.sxAbandon m e
      else s))

/-- PROBE (R393, R395): the peer site is in touch, its port state is noted, and a greater ROUND leaves the shard behind. -/
def execProbe (m : Fin 16) (f : SiteFrame) (s : State) : Out :=
  match s.authFrame m f with
  | (t, none) => .next t
  | (t, some data) =>
    let k := s.mdCanton m
    let ports := fieldAt data 8 1
    let t := { t with sites := { t.sites with peerPorts := store2 t.sites.peerPorts k f.srcModule (4 + ports % 4) } }
    let t := t.put (R.SP_PEER k f.srcSite) F.SP_PEER_PORTDOWN (if ports % 4 = 3 then 0 else 1)
    match t.sxFind m f.sxid with
    | some e => .next ((if e.round < f.round then t.meet m e f f.round 0 else t).sxSync m)
    | none => .next t

/-- The module's out-of-touch view of a canton as a bitmap. -/
def State.outBits (s : State) (k : Nat) : Nat := (List.range 64).foldl (fun n j => if s.outOfTouch k j then n + 2 ^ j else n) 0

/-- PROBE_SEND (R393): a PROBE goes to a counterpart module to which no frame has gone for 1 s. -/
def execProbeSend (m : Fin 16) (site : Fin 64) (module_ : BitVec 17) (s : State) : Out :=
  let k := s.mdCanton m
  if s.now < lookup2 s.sites.sentTo m module_.toNat + secTicks then .next s
  else
    let ports := s.get R.SP_STATUS F.SP_STATUS_UP0 + 2 * s.get R.SP_STATUS F.SP_STATUS_UP1
    let data := leBytes 8 (s.outBits k) ++ leBytes 1 ports
    let t := s.sxQueue m ⟨0, site, module_.toNat, 0x0C, 0, 0, 0, false, false, 0, 0, data, 0, 0, 0⟩
    .next { t with sites := { t.sites with sentTo := store2 t.sites.sentTo m module_.toNat s.now } }

/-- FSEQs as ranges of start and count, at most 680. -/
def seqRanges : List Nat → List (Nat × Nat)
  | [] => []
  | q :: l => match seqRanges l with
    | (a, n) :: r => if q + 1 = a then (q, n + 1) :: r else (q, 1) :: (a, n) :: r
    | [] => [(q, 1)]

/-- SACK_SEND (R389): the FSEQ ranges owed are acknowledged. The rule bounds how late that may be, not how early. -/
def execSackSend (m : Fin 16) (site : Fin 64) (module_ : BitVec 17) (die : Fin 16) (s : State) : Out :=
  let x := s.sx m
  let key := module_.toNat * 16 + die.val
  match x.owed.find? (fun o => o.1 == key) with
  | none => .next s
  | some (_, _, seqs) =>
    if seqs = [] then .next s
    else
      let rs := (seqRanges (seqs.mergeSort (fun a b => decide (a ≤ b)))).take 680
      let data := leBytes 2 rs.length ++ rs.flatMap (fun r => leBytes 8 r.1 ++ leBytes 4 r.2)
      let t := s.setSx m { x with owed := x.owed.filter (fun o => o.1 != key) }
      .next (t.sxQueue m ⟨0, site, module_.toNat, 0x03, 0, 0, 0, false, false, 0, 0, data, 0, 0, 0⟩)

/-- RTO of a site in ticks (R389): max(2 × SRTT + 1 ms, 2 ms), at most 1 s; 400 ms before the first sample. -/
def State.rto (s : State) (k j : Nat) : Nat :=
  let srtt := s.get (R.SP_PEER k j) F.SP_PEER_SRTT
  if srtt = 0 then 400 * msTicks else min (max (2 * srtt * ticksPerUs + msTicks) (2 * msTicks)) secTicks

/-- FRAME_RESEND_TIMEOUT (R389): an item unacknowledged RTO after it was sent is queued again for a new frame. -/
def execFrameResendTimeout (m : Fin 16) (i : Nat) (s : State) : Out :=
  let x := s.sx m
  match x.items[i]? with
  | none => .next s
  | some it =>
    let k := s.mdCanton m
    if s.now < it.at_ + s.rto k it.site then .next s
    else
      let t := ((s.setSx m { x with items := x.items.eraseIdx i }).sxQueue m it).spTally R.SP_RETX 1
      .next (t.siteCapped 0 0x1152 k (detail 0 it.site (t.rd R.SP_RETX).toNat))

/-- SITE_OUT_OF_TOUCH (R393): after SP_LOSTMS without an authenticated frame a site is marked, 0x1050, and the rounds it
leads are abandoned. -/
def execSiteOutOfTouch (k : Fin 8) (site : Fin 64) (s : State) : Out :=
  let lost := s.get R.SP_LOSTMS F.SP_LOSTMS_MS * msTicks
  if s.outOfTouch k site ∨ s.now < lookup2 s.sites.heard k site + lost then .next s
  else
    let t := (s.put (R.SP_PEER k site) F.SP_PEER_OUT 1).raise 0x1050 62 (some k.val) (detail 0 site (s.rd R.SP_RXFR_LO).toNat)
    .next ((s.cantonMds k).foldl (fun t md =>
      let m := fin16 md
      let led := (t.sx m).rounds.filter (fun r => r.leader == site.val)
      let t := led.foldl (fun t r =>
        let e := t.sxEntry m r.shard
        if e.state = 1 ∧ site.val ≠ t.ownSite m then t.sxAbandon m e else t) t
      (((t.sx m).leads.map (fun l => l.shard)).foldl (fun t i => t.leadDone m i) t).sxSync m) t)

/-! ### Site ports (R384, R385, R390, R540) -/

/-- PACKET_TOO_BIG (R384): a Packet Too Big message below 8,448 bytes marks the path unusable and raises 0x1253. -/
def execPacketTooBig (p : Fin 2) (site : Fin 64) (mtu : Nat) (s : State) : Out :=
  if 8448 ≤ mtu then .next s
  else .next (({ s with sites := { s.sites with badPaths := (p.val, site.val) :: s.sites.badPaths.filter (fun b => b != (p.val, site.val)) } }).raise
    0x1253 62 none (detail p site mtu))

/-- UP bit of a site port. -/
def upField (p : Fin 2) : Fld := if p = 0 then F.SP_STATUS_UP0 else F.SP_STATUS_UP1

/-- SITE_PORT_LINK_CHANGE (R385, R540): an enabled site port comes up, or a port goes down with DOWNSEEN and 0x1253. -/
def execSitePortLinkChange (p : Fin 2) (up : Bool) (s : State) : Out :=
  let en := s.flag R.SP_CFG (if p = 0 then F.SP_CFG_EN0 else F.SP_CFG_EN1)
  if up then .next (if en then s.put R.SP_STATUS (upField p) 1 else s)
  else if s.flag R.SP_STATUS (upField p) then
    .next (((s.put R.SP_STATUS (upField p) 0).put R.SP_STATUS F.SP_STATUS_DOWNSEEN 1).raise 0x1253 62 none
      (detail p 0 (s.rd R.SP_DROP).toNat))
  else .next s

/-- SITE_PORT_PACKET_RECEIVE (R384): Neighbour Solicitation and ICMPv6 echo are answered; what is not supported is dropped
and counted. -/
def execSitePortPacketReceive (p : Fin 2) (x : SitePacket) (s : State) : Out :=
  if s.flag R.SP_STATUS (upField p) = false then .next s
  else match x with
    | .neighbourSolicitation => .next { s with sites := { s.sites with answered := s.sites.answered ++ [x] } }
    | .echoRequest => .next { s with sites := { s.sites with answered := s.sites.answered ++ [x] } }
    | _ => .next (s.spTally R.SP_DROP 1)

/-- The port a frame for a site leaves on (R385): (SXID xor site) & 1, the other where that port is down at either end or
its path is unusable. -/
def State.portFor (s : State) (k : Nat) (i : SxItem) : Nat :=
  let b := (i.sxid ^^^ i.site) % 2
  let peer := lookup2 s.sites.peerPorts k i.module
  let good := fun (p : Nat) => s.flag R.SP_STATUS (if p = 0 then F.SP_STATUS_UP0 else F.SP_STATUS_UP1) &&
    (peer < 4 || peer.testBit p) && !s.sites.badPaths.contains (p, i.site)
  if good b then b else 1 - b

/-- IPv6 address of port p of a module at site j, and the UDP port of the exchange there (R370, R385). -/
def State.siteAddress (s : State) (m : Fin 16) (j module p : Nat) : Nat × Nat :=
  let e := s.base4k (R.SX_SITES_LO m) (R.SX_SITES_HI m) + 32 * j
  (s.num e 8 * 2 ^ 64 + 0x4A56000000000000 + module * 256 + p, s.num (e + 9) 2)

/-- Bytes on the wire of a frame with a payload of n bytes (R390). -/
def State.wireBytes (s : State) (n : Nat) : Nat := n + 64 + 16 + 8 + 40 + 14 + (if s.flag R.SP_CFG F.SP_CFG_VLANEN then 4 else 0) + 4 + 8 + 12

/-- SITE_PORT_TRANSMIT_SLOT (R387, R390): in a frame slot of a canton, the oldest queued frame of the canton for this port
whose peer's pacing allows it is sealed and sent; an idle slot goes to the next canton only where sharing is allowed. -/
def execSitePortTransmitSlot (p : Fin 2) (s : State) : Out :=
  let slot := s.sites.slots[p]
  let s := { s with sites := { s.sites with slots := s.sites.slots.set p (slot + 1) } }
  if s.flag R.SP_STATUS (upField p) = false then .next s
  else
    let c := s.cantons
    let order := (if s.flag (R.LK_ARB 0) F.LK_ARB_WCON then List.range c else [0]).map (fun i => (slot + i) % c)
    let ready := fun (k : Nat) (q : Nat × SxItem) =>
      s.colCanton (q.1 % 8) == k && s.portFor k q.2 == p.val && s.get (R.SP_RATE k q.2.site) F.SP_RATE_GBPS != 0 &&
        decide (lookup2 s.sites.pace k q.2.site ≤ s.now)
    match order.findSome? (fun k => (s.sites.queue.find? (ready k)).map (fun q => (k, q))) with
    | none => .next s
    | some (k, q) =>
      let m := fin16 q.1
      let i := q.2
      match s.pairSecret k i.module with
      | none => .next (({ s with sites := { s.sites with queue := s.sites.queue.erase q } }).sxFault m 4 i.shard)
      | some z =>
        let seq := lookup2 s.sites.fseqs m i.module
        let f : SiteFrame := ⟨0x4E47, 1, i.ftype, s.jobs.getD k 0, s.ownSite m, i.site, i.stale, i.sealed_, i.age, i.sxid, i.round, i.item,
          s.moduleId, m, seq, i.aux, []⟩
        let h := siteHeader f i.data.length
        let f := { f with text := gcmSeal (siteKey z s.moduleId i.module seq) (siteNonce h) h i.data }
        let rate := s.get (R.SP_RATE k i.site) F.SP_RATE_GBPS
        let hold := s.wireBytes i.data.length * 8 * 42 / (10 * rate)
        let t := { s with sites := { s.sites with
          queue := s.sites.queue.erase q
          fseqs := store2 s.sites.fseqs m i.module (seq + 1)
          sentTo := store2 s.sites.sentTo m i.module s.now
          pace := store2 s.sites.pace k i.site (s.now + hold)
          last := some (p.val, s.siteAddress m i.site i.module p, f) } }
        let t := if s.countsStand R.SP_CNT_CTL then t else t.add64 R.SP_TXFR_LO R.SP_TXFR_HI 1
        -- SACK, PROBE and NOTICE are not acknowledged (R388)
        if i.ftype = 3 ∨ i.ftype = 11 ∨ i.ftype = 12 then .next t
        else
          let x := t.sx m
          .next (t.setSx m { x with items := x.items ++ [{ i with fseq := seq, at_ := s.now, tries := i.tries + 1 }] })

/-- SX_COUNTER_CLEAR (R402): SX_CNT_CTL.CLEAR sets the exchange counters to 0. -/
def execSxCounterClear (m : Fin 16) (s : State) : Out :=
  .next (s.clearCounts (R.SX_CNT_CTL m) [R.SX_CNT_MERGED m, R.SX_CNT_ZERO m, R.SX_CNT_FOLD m, R.SX_CNT_REBASE m, R.SX_CNT_ABANDON m])

/-- SP_COUNTER_CLEAR (R403): SP_CNT_CTL.CLEAR sets the site-engine counters to 0. -/
def execSpCounterClear (s : State) : Out :=
  .next (s.clearCounts R.SP_CNT_CTL [R.SP_TXFR_LO, R.SP_TXFR_HI, R.SP_RXFR_LO, R.SP_RXFR_HI, R.SP_RETX, R.SP_DUPS, R.SP_AUTHFAIL, R.SP_DROP])

end Sys2Proof.Machine
end

