-- ==== Sys2Proof/Machine/Cadence.lean ====
section
/-! DEFINITION. The cadence controller's periods and timer (06_training_passes.md, R223-R229). -/
namespace Sys2Proof.Machine

/-- Canton k's cadence controller replaced. -/
def State.setCad (s : State) (k : Fin 8) (c : Cadence) : State := { s with cads := s.cads.set k c }

/-- Microseconds since EN rose: 0 before it has risen, and standing still while the controller does not run (R229; the
latter is the model's choice, log 128). -/
def State.cadTimer (s : State) (k : Fin 8) : Nat :=
  if s.cads[k].on then (s.now - s.cads[k].origin) / ticksPerUs else s.get64 (R.CAD_TIMER_LO k) (R.CAD_TIMER_HI k)

/-- Current deadline d_i. -/
def State.cadDeadline (s : State) (k : Fin 8) : Nat := s.get64 (R.CAD_DEADLINE_LO k) (R.CAD_DEADLINE_HI k)

/-- Kind of the current period: 0 none, 1 step, 2 outer round, 3 evaluation. -/
def State.cadKind (s : State) (k : Fin 8) : Nat := s.get (R.CAD_STATUS k) F.CAD_STATUS_KIND

/-- Nominal length P of a kind. -/
def State.cadPeriod (s : State) (k : Fin 8) (kind : Nat) : Nat :=
  if kind = 1 then (s.rd (R.CAD_STEP_PERIOD k)).toNat
  else if kind = 2 then (s.rd (R.CAD_ROUND_PERIOD k)).toNat
  else (s.rd (R.CAD_EVAL_PERIOD k)).toNat

/-- Whether the controller runs. -/
def State.cadRuns (s : State) (k : Fin 8) : Bool := s.flag (R.CAD_CTL k) F.CAD_CTL_EN && s.cads[k].on && s.cadKind k != 0

/-- CAD_TIMER brought up to the present. -/
def State.cadTick (s : State) (k : Fin 8) : State := s.put64 (R.CAD_TIMER_LO k) (R.CAD_TIMER_HI k) (s.cadTimer k)

/-- A period of a kind that begins at `start` with nominal start `nom` (R224): its debt, length and deadline. -/
def State.cadBegin (s : State) (k : Fin 8) (kind nom start : Nat) : State :=
  let debt := start - nom
  let p := s.cadPeriod k kind
  let len := p - min debt (s.get (R.CAD_CTL k) F.CAD_CTL_CATCHUP * p / 256)
  let c := s.cads[k]
  let t := s.setCad k { c with nominal := nom, start := start, passed := false, ended := none, started := [] }
  let t := t.put64 (R.CAD_DEADLINE_LO k) (R.CAD_DEADLINE_HI k) (start + len)
  let t := t.put (R.CAD_STATUS k) F.CAD_STATUS_KIND kind
  let t := t.put (R.CAD_STATUS k) F.CAD_STATUS_LATE 0
  let t := t.put (R.CAD_STATUS k) F.CAD_STATUS_DEBT (if debt = 0 then 0 else 1)
  let t := t.put (R.CAD_STATUS k) F.CAD_STATUS_STEP c.step
  t.wr (R.CAD_DEBT k) (BitVec.ofNat 32 (satN (2 ^ 32 - 1) debt))

/-- The controller starts: the timer at 0, period 0 a step period (R229). -/
def State.cadStart (s : State) (k : Fin 8) : State :=
  let t := s.setCad k { Cadence.reset with origin := s.now, on := true }
  (t.cadBegin k 1 0 0).cadTick k

/-- What EN and STEP_PERIOD make of the controller once one of them is written (R229): EN is ignored while STEP_PERIOD is 0,
so it starts when both stand, and stops when one of them falls. -/
def State.cadSync (s : State) (k : Fin 8) : State :=
  let want := s.flag (R.CAD_CTL k) F.CAD_CTL_EN && s.cadPeriod k 1 != 0
  let c := s.cads[k]
  if want && !c.on then s.cadStart k
  else if !want && c.on then (s.cadTick k).setCad k { c with on := false }
  else s

end Sys2Proof.Machine
end

