-- ==== Sys2Proof/Machine/Records.lean ====
section
/-! DEFINITION. Event records (R457, R508) and what the selector registers EVL_SEL, BIST_FIDX and HLTH_SEL show (R530,
R532). -/
namespace Sys2Proof.Machine

/-- A byte string brought to a length with zeros. -/
def padTo (n : Nat) (bs : List Byte) : List Byte := (bs ++ List.replicate (n - bs.length) 0).take n

/-- The 32 bytes of an event record (R457). -/
def EvRecord.bytes (r : EvRecord) : List Byte :=
  leBytes 2 r.ev.code ++ leBytes 1 r.ev.die ++ leBytes 1 (r.ev.canton.getD 0xFF) ++ leBytes 8 r.eseq ++ leBytes 8 r.htime ++ padTo 12 r.ev.detail

/-- Category of an event code (R16). -/
def evCategory (code : Nat) : Nat := code / 256 % 16

/-- The record that EVL_SEL selects shown in EVL_REC, with SELVALID; zeros where it is not in the RAM window. -/
def State.showRecord (s : State) : State :=
  let n := s.get64 R.EVL_SEL_LO R.EVL_SEL_HI
  let r := s.rel.window.find? (fun (x : EvRecord) => x.eseq == n)
  let bs := match r with | some x => x.bytes | none => List.replicate 32 0
  (List.range 8).foldl (fun t w => t.wr (R.EVL_REC w) (BitVec.ofNat 32 (leNat ((bs.drop (4 * w)).take 4))))
    (s.put R.EVL_STATUS F.EVL_STATUS_SELVALID (if r.isSome then 1 else 0))

/-- The fail record that BIST_FIDX selects shown in BIST_FREC0 and BIST_FREC1 (R516). -/
def State.showFail (s : State) : State :=
  let f := s.rel.fails.getD (s.get R.BIST_FIDX F.BIST_FIDX_INDEX) (0, 0)
  (s.wr R.BIST_FREC0 f.1).wr R.BIST_FREC1 f.2

/-- The value of a health item (R530). -/
def State.healthItem (s : State) (i : Nat) : Nat :=
  let x := s.rel
  if i < 64 then x.temps.toList.getD i 0
  else if 0x100 ≤ i ∧ i < 0x120 then x.dimmTemps.toList.getD (i - 0x100) 0
  else if 0x200 ≤ i ∧ i < 0x20B then x.rails.toList.getD (i - 0x200) 0
  else if i = 0x300 then x.inputCur else if i = 0x301 then x.inlet else if i = 0x302 then x.outlet
  else if 0x400 ≤ i ∧ i < 0x445 ∧ i % 8 < 5 then Sparse.get (fun _ => 0) x.counts (i - 0x400)
  else 0

/-- The item that HLTH_SEL selects shown in HLTH_VAL. -/
def State.showHealth (s : State) : State := s.wr R.HLTH_VAL (BitVec.ofNat 32 (s.healthItem (s.get R.HLTH_SEL F.HLTH_SEL_ITEM)))

end Sys2Proof.Machine
end

