-- ==== Sys2Proof/Machine/Slots.lean ====
section
/-! DEFINITION. Where reductions in flight stand (R41, R323-R325): the slots of a link die's reduction memory, and the
staging granules of a landing buffer. -/
namespace Sys2Proof.Machine

/-- Canton of a group. -/
def State.gCanton (s : State) (g : Nat) : Nat := s.get (R.GC_CFG g) F.GC_CFG_CANTON

/-- Whether an operation copies bytes (OP 2, 3, 5). -/
def GDesc.copies (d : GDesc) : Bool := d.op == 2 || d.op == 3 || d.op == 5
/-- Bytes of an element in the operation's data (R308). -/
def GDesc.width (d : GDesc) : Nat := if d.copies || d.dtype == 0 then 4 else 2

/-- Bytes of the GAS region that feeds an operation: one FP32 element for each element of the data (R314, R316; for BF16
data the model's reading, log 130). -/
def GDesc.drainBytes (d : GDesc) : Nat := d.len / d.width * 4

/-- Payload bytes of FP32 codes: rounded once to BF16 where that is the type (R316). -/
def GDesc.toBytes (d : GDesc) (xs : List Nat) : List Byte :=
  xs.flatMap (fun x => if d.width = 2 then leBytes 2 (NFmt.bf16.rne (f32 x)) else leBytes 4 x)

/-- What a ring of a group holds in slots: pieces that wait, pieces not yet acknowledged, and results between two stages
that left this ring. -/
def Group.inSlots (x : Group) (u : Nat) : List (List Byte) :=
  let r := x.rings[u % 7]'(Nat.mod_lt _ (by decide))
  let between := x.ops.flatMap (fun o => (o.results.filter (fun q => 2 * q.stage + q.minus.toNat == u)).map (fun q => o.d.toBytes q.vals))
  r.waiting.map (fun p => p.data) ++ r.unacked.map (fun p => p.2.data) ++ between

/-- Whether a group is in staged mode. -/
def State.isStaged (s : State) (g : Nat) : Bool := s.flag (R.GC_STATUS g) F.GC_STATUS_STAGED

/-- The reduction memory of link die l brought up to date: each canton's share of slots holds its pieces in turn from the
share's first slot on (the model's choice, log 126). -/
def State.showReduction (s : State) (l : Nat) : State :=
  let share := 1024 / s.cantons
  (List.range s.cantons).foldl (fun t k =>
    let held := (s.groups.filter (fun g => s.gCanton g.1 == k && !s.isStaged g.1)).flatMap (fun g => g.2.inSlots l)
    (held.take share).zipIdx.foldl (fun t p => t.putBytes (redBase l + (k * share + p.2) * 4096) p.1) t) s

/-- The staging granules of memory die m brought up to date: sixteen pieces to a granule, ring by ring (log 126). -/
def State.showStaged (s : State) (m : Nat) : State :=
  (s.groups.filter (fun g => s.isStaged g.1 && s.get (R.GC_STAGE g.1) F.GC_STAGE_MD == m)).foldl (fun t g =>
    let held := ((List.range 6).flatMap (fun u => g.2.inSlots u)).take (16 * g.2.grans.length)
    held.zipIdx.foldl (fun t p =>
      t.putBytes (landBase m + g.2.grans.getD (p.2 / 16) 0 * 65536 + p.2 % 16 * 4096) p.1) t) s

/-- A store brought up to date before a read of it. -/
def State.showPlace (s : State) : Place → State
  | .redmem l => s.showReduction l
  | .landing m => s.showStaged m
  | _ => s

end Sys2Proof.Machine
end

