-- ==== Sys2Proof/Machine/Fabric.lean ====
section
/-! DEFINITION. Register access (R10-R14, R35, R36), accesses to memory entering the fabric (R28), and the package
fabric (R18-R25). -/
namespace Sys2Proof.Machine

/-! ### REGISTER_WRITE (R11-R14) -/

/-- The view number of a register bank: canton k of a service core, 8 for every other writer. -/
def State.viewNo (s : State) : View → Nat
  | .core d => s.colCanton (d.val % 8)
  | _ => 8

/-- The canton a register belongs to: that of its die, or the index of a per-canton register of a shared die. -/
def State.regCanton (s : State) (a : Nat) : Option Nat :=
  match crsDie (a % 0x4000000), regAt a with
  | some (.cd, n, _), _ => some (s.colCanton (n % 8))
  | some (.md, n, _), _ => some (s.colCanton (n % 8))
  | some (_, _, off), some r =>
    match r.dims with
    | (8, st) :: _ => if r.name == "EVL_REC" then none else some ((off - r.off) / st)
    | _ => none
  | _, _ => none

/-- Registers of one canton that every view reads (R441): CPOL_STATUSk, CPOL_SEQk and SCRUB_STATUSk. -/
def openReg (a : Nat) : Bool :=
  match regAt a with
  | some r => r.name == "CPOL_STATUS" || r.name == "CPOL_SEQ" || r.name == "SCRUB_STATUS"
  | none => false

/-- Whether a service core's access to a register is refused under R36: another canton's die or view. -/
def State.foreign (s : State) (d : Fin 40) (a : Nat) (read : Bool) : Bool :=
  match s.regCanton a with
  | some k => k != s.colCanton (d.val % 8) && !(read && openReg a)
  | none => false

/-- Whether a writer's plain write stores into a field (R11, R36, R447, R486). -/
def viewWrites (v : View) (f : FieldRow) : Bool :=
  match v, f.acc with
  | .host, .rwHost => true
  | .core _, .rw => true
  | .core _, .rwCanton => true
  | .core _, .rw1c => true
  | .td, .rw => true
  | .td, .rwHost => true
  | .td, .rwCanton => true
  | .td, .rwOwner => true
  | .td, .rw1c => true
  | .safety, .safe => true
  | _, _ => false

/-- Bits the host may write by the module configuration record: RW and RW1C fields among the masked bits (R486). -/
def State.hostBits (s : State) (a : Nat) : W32 :=
  regMask a (fun f => f.acc == .rw || f.acc == .rw1c || f.acc == .rwHost) &&& Sparse.get (fun _ => 0) s.hostMask a

/-- Bits a view may write. LK_CFG, LK_REKEY_CFG and LK_ARB take the trust die's writes only (R369). -/
def State.writable (s : State) (v : View) (a : Nat) : W32 :=
  let held := match crsDie (a % 0x4000000) with
    | some (.md, n, off) => if off = 0x21000 ∧ s.flag (R.SX_CTL n) F.SX_CTL_EN then fldMask F.SX_CTL_SITE else 0
    | some (.hd, _, off) =>
      -- SIZE fields take writes only while EN = 0 (R466)
      if off = 0x1018 ∧ (s.rd a).getLsbD 0 = true then fldMask F.HI_EVQ_CTL_SIZE
      else if 0x3000 ≤ off ∧ off < 0x3800 ∧ off % 16 = 8 ∧ (s.rd a).getLsbD 0 = true then fldMask F.HI_RING_CTL_SIZE
      else 0
    | _ => 0
  let own := regMask a (viewWrites v) &&& ~~~ held
  match v with
  | .host => own ||| (s.hostBits a &&& ~~~ held) ||| (match crsDie (a % 0x4000000) with
      | some (.hd, _, off) => if 0x5000 ≤ off ∧ off < 0x5020 then regMask a (fun f => f.acc == .rwOwner || f.acc == .rw1c) else 0
      | _ => 0)
  | .mgmt => match crsDie (a % 0x4000000) with
      | some (.hd, _, off) => if 0x5020 ≤ off ∧ off < 0x5040 then regMask a (fun f => f.acc == .rwOwner || f.acc == .rw1c) else 0
      | _ => 0
  | .core _ =>
    match crsDie (a % 0x4000000) with
    | some (.ld, _, off) => if off = 0x1000 ∨ off = 0x1010 ∨ off = 0x1018 then 0 else own
    | _ => own
  | _ => own

/-- Fields whose every write has a row of its own: die, offset of the register (its first place), lowest bit. -/
def ownFields : List (DieKind × Nat × Nat) :=
  [(.cd, 0x10110, 0), (.cd, 0x10400, 0), (.td, 0x1004, 0), (.ld0, 0x8040, 0), (.hd, 0x100c, 0), (.hd, 0x1104, 0),
   (.hd, 0x110c, 0), (.hd, 0x3008, 0), (.hd, 0x5008, 0), (.hd, 0x5008, 1), (.hd, 0x5008, 2), (.hd, 0x5008, 3)]

/-- Fields whose rise to 1 has a row of its own: CAD_CTL.EN, UE_CTL.EN, UE_CTL.PAUSE, SX_CTL.EN. -/
def ownRise : List (DieKind × Nat × Nat) :=
  [(.td, 0x400, 0), (.md, 0x20000, 0), (.md, 0x20000, 3), (.md, 0x21000, 0)]

/-- Fields whose fall to 0 has a row of its own: HI_RGN_LO.EN. -/
def ownFall : List (DieKind × Nat × Nat) := [(.hd, 0x2000, 0)]

/-- Enumerated fields with reserved encodings (R14): die, register, lowest bit, smallest and largest encoding allowed. -/
def enumFields : List (DieKind × Nat × Nat × Nat × Nat) :=
  [(.cd, 0x10108, 0, 4, 15),      -- SEQ_Q_SIZE.LOG2
   (.td, 0x400, 8, 0, 128),       -- CAD_CTL.CATCHUP
   (.md, 0x20000, 1, 0, 2),       -- UE_CTL.CLIPMODE
   (.md, 0x20018, 0, 0, 16384),   -- UE_TABLE_CNT.COUNT
   (.md, 0x20050, 0, 1, 128),     -- UE_HOLDCAP.GRANULES
   (.md, 0x8200, 8, 1, 255),      -- MC_SCRUB_CTL.HOURS
   (.ld, 0x1000, 4, 1, 4095),     -- LK_CFG.HOLDMS
   (.md, 0x21018, 0, 0, 16384),   -- SX_TABLE_CNT.COUNT
   (.md, 0x21030, 0, 1, 64),      -- SX_PARAM.STALEMAX
   (.md, 0x21030, 8, 1, 255),     -- SX_PARAM.QUORUM
   (.md, 0x21030, 16, 16, 255),   -- SX_PARAM.HEAD
   (.md, 0x21034, 0, 0, 0x3F800000), -- SX_DISCOUNT
   (.hd, 0x4020, 0, 1000, 600000),   -- SP_LOSTMS.MS
   (.hd, 0x1018, 1, 0, 10),          -- HI_EVQ_CTL.SIZE
   (.hd, 0x2008, 0, 1, 16777216),    -- HI_RGN_SIZE.PAGES
   (.hd, 0x3008, 1, 4, 12),          -- HI_RING_CTL.SIZE
   (.hd, 0x3008, 5, 16, 63),         -- HI_RING_CTL.VEC
   (.ld0, 0x8038, 0, 2, 12),      -- GC_QCTL.SIZE
   (.ld0, 0x8038, 4, 0, 5),       -- GC_QCTL.QLD
   (.ld0, 0x8044, 0, 4, 1024),    -- GC_SLOT.NSLOT
   (.ld0, 0x8048, 8, 1, 32)]      -- GC_STAGE.GRAN

/-- The bits of a register that a list of fields names. -/
def namedBits (l : List (DieKind × Nat × Nat)) (r : RegRow) : W32 :=
  r.fields.foldl (fun m f => if l.contains (r.die, r.off, f.lo) then m ||| fldMask (f.hi, f.lo) else m) 0

/-- The bits of enumerated fields into which `x` writes a reserved encoding (R14). -/
def reservedBits (r : RegRow) (x : W32) : W32 :=
  r.fields.foldl (fun m f =>
    match enumFields.find? (fun e => e.1 == r.die && e.2.1 == r.off && e.2.2.1 == f.lo) with
    | some (_, _, _, lo, hi) =>
      if bitsN x.toNat f.hi f.lo < lo ∨ hi < bitsN x.toNat f.hi f.lo then m ||| fldMask (f.hi, f.lo) else m
    | none => m) 0

/-- Writes that a register does not take in its present state: the ring registers of a queue that is not IDLE (R193),
the group window while the group is not FREE (R306), the exchange quantiser's while it runs (R402). -/
def State.writeHeld (s : State) (r : RegRow) (a : Nat) : Bool :=
  match crsDie (a % 0x4000000) with
  | some (.cd, n, off) =>
    (r.off == 0x10100 || r.off == 0x10104 || r.off == 0x10108) &&
      s.get (R.SEQ_Q_STATUS n ((off - 0x10100) / 0x20)) F.SEQ_Q_STATUS_STATE != 0
  | some (.ld, _, off) =>
    decide (0x8010 ≤ off) && decide (off < 0x804C) && r.off != 0x8040 && decide (0x4000000 ≤ a) &&
      s.get (R.GC_STATUS (a / 0x4000000 - 1)) F.GC_STATUS_STATE != 0
  | some (.md, n, off) =>
    -- SX fields marked RW take writes only while EN is 0 (R402)
    ((decide (0x21010 ≤ off) && decide (off < 0x21040)) || off == 0x21074) && s.flag (R.SX_CTL n) F.SX_CTL_EN
  | some (.hd, _, off) =>
    -- a region's registers take writes only while EN is 0 (R450), but for EN itself
    decide (0x2000 ≤ off) && decide (off < 0x2800) && off % 16 != 0 && (s.rd (a / 16 * 16)).getLsbD 0
  | _ => false

/-- Whether a canton's view addresses the window of a group that another canton holds (R334). -/
def State.otherGroup (s : State) (v : View) (r : RegRow) (a : Nat) : Bool :=
  match v with
  | .core d =>
    r.die == .ld0 && decide (0x8010 ≤ r.off) && decide (r.off < 0x8080) && decide (0x4000000 ≤ a) &&
      s.get (R.GC_STATUS (a / 0x4000000 - 1)) F.GC_STATUS_STATE != 0 &&
      s.get (R.GC_CFG (a / 0x4000000 - 1)) F.GC_CFG_CANTON != s.colCanton (d.val % 8)
  | _ => false

/-- Registers whose VALID bit, when cleared, clears the whole record (MA_FAULT, VE_FAULT, SEQ_FAULT, UE_FAULT,
SX_FAULT). -/
def recordRegs : List (DieKind × Nat) :=
  [(.cd, 0x20004), (.cd, 0x24004), (.cd, 0x10004), (.md, 0x20008), (.md, 0x21008)]

/-- The key of the register that a view reaches at a CRS address: group window registers by the view's GC_SEL (R334),
per-view registers by the view, per-site registers by the view and its SP_PSEL (R403), LK_SEQ by the view's plane. -/
def State.keyFor (s : State) (v : View) (a : Nat) : Nat :=
  let vn := s.viewNo v
  match crsDie a with
  | some (.ld, n, off) =>
    if n = 0 ∧ 0x8000 ≤ off ∧ off < 0x800C then bank (1 + vn) a
    else if n = 0 ∧ 0x8010 ≤ off ∧ off < 0x8080 then bank (1 + s.get (R.GC_SEL vn) F.GC_SEL_GROUP) a
    else if 0x4000 ≤ off ∧ off < 0x4020 then bank (1 + vn) a
    else if off = 0x1080 ∨ off = 0x1084 then bank (1 + vn) a
    else a
  | some (.hd, _, off) =>
    if off = 0x4024 then bank (1 + vn) a
    else if off = 0x4028 ∨ off = 0x402C then bank (1 + 64 * vn + s.get (R.SP_PSEL vn) F.SP_PSEL_SITE) a else a
  | _ => a

/-- Whether a register of a die that does not answer is addressed (R192: as a reserved address). -/
def State.regOff (s : State) (a : Nat) : Bool :=
  match crsDie (a % 0x4000000) with
  | some (.cd, n, _) => s.dieOff n
  | some (.md, n, _) => s.dieOff (40 + n)
  | some (.ld, n, _) => s.dieOff (56 + n)
  | some (.hd, _, _) => s.dieOff 62
  | _ => false

/-- The register value after a write of `x` by a view, where hardware sets the RW1C bits `hw` in the same cycle
(R11, R12, R14). -/
def State.written (s : State) (v : View) (r : RegRow) (a : Nat) (x hw : W32) : W32 :=
  let old := s.rd a
  let can := s.writable v a &&& ~~~ (namedBits ownFields r ||| reservedBits r x)
  let w1c := regMask a (fun f => f.acc == .rw1c)
  let rise := namedBits ownRise r
  let fall := namedBits ownFall r
  let plain := can &&& ~~~ w1c
  let stored := (old &&& ~~~ plain) ||| (x &&& plain)
  let kept := (stored &&& ~~~ (rise ||| fall)) ||| (stored &&& old &&& rise) ||| ((stored ||| old) &&& fall)
  (kept &&& ~~~ (x &&& can &&& w1c)) ||| (hw &&& w1c)

/-- What a register write changes beside the register: the poison record shown (R267), a reserved update-engine
command refused with REFUSED and code 0x6 (R300), and CLEAR of UE_PERF_CTL (R303). -/
def State.afterWrite (s : State) (v : View) (a : Nat) (x : W32) : State :=
  match crsDie a with
  | some (.md, n, off) =>
    if off = 0x10024 then s.syncPoison (fin16 n)
    else if off = 0x20060 then
      let op := fldOf x F.UE_CMD_OP
      let may := match v with | .core _ => true | .td => true | _ => false
      if may && (op == 0 || decide (7 < op)) && !s.flag (R.UE_CMDSTAT n) F.UE_CMDSTAT_BUSY then
        let t := s.put (R.UE_CMDSTAT n) F.UE_CMDSTAT_REFUSED 1
        if t.flag (R.UE_FAULT n) F.UE_FAULT_VALID then t
        else t.wr (R.UE_FAULT n) (BitVec.ofNat 32 (6 + 16 + fldOf x F.UE_CMD_SHARD * 256))
      else s
    else if off = 0x21040 then
      let op := fldOf x F.SX_CMD_OP
      let may := match v with | .core _ => true | .td => true | _ => false
      if may && (op == 0 || decide (3 < op)) && !s.flag (R.SX_CMDSTAT n) F.SX_CMDSTAT_BUSY then
        let t := s.put (R.SX_CMDSTAT n) F.SX_CMDSTAT_REFUSED 1
        if t.flag (R.SX_FAULT n) F.SX_FAULT_VALID then t
        else t.wr (R.SX_FAULT n) (BitVec.ofNat 32 (5 + 16 + fldOf x F.SX_CMD_SHARD * 256))
      else s
    else if off = 0x200B4 ∧ x.getLsbD 1 = true then
      match v with
      | .core _ => s.clearCounts (R.UE_PERF_CTL n) [R.UE_PERF_ELEM_LO n, R.UE_PERF_ELEM_HI n, R.UE_PERF_STALL n, R.UE_PERF_HOLD n]
      | .td => s.clearCounts (R.UE_PERF_CTL n) [R.UE_PERF_ELEM_LO n, R.UE_PERF_ELEM_HI n, R.UE_PERF_STALL n, R.UE_PERF_HOLD n]
      | _ => s
    else s
  | some (.ld, n, off) =>
    -- LK_CFG.EN (R369): 0 holds the port down, 1 lets it train
    if off = 0x1000 then
      let l := fin6 n
      if s.flag (R.LK_CFG l) F.LK_CFG_EN then (if s.portState l = 3 then s.startTraining l else s)
      else if s.portState l = 1 ∨ s.portState l = 2 then s.endSession l 3 else s
    else s
  | some (.td, _, off) =>
    -- CAD_CTL and CAD_STEP_PERIOD (R229)
    if 0x400 ≤ off ∧ off < 0x600 then s.cadSync (fin8 ((off - 0x400) / 64))
    else if off = 0x3010 ∨ off = 0x3014 then s.showRecord
    else if off = 0x320C then s.showFail
    else if off = 0x3500 then s.showHealth
    else s
  | _ => s

/-- Whether a CRS address lies in SEC_BUF or FL_BUF (R441, R507). -/
def inBuf (a : Nat) : Bool := decide (0x80000 ≤ a) && decide (a < 0xD0000)

/-- Four bytes written to SEC_BUF by the view that owns it (R441), or to FL_BUF by the host (R507). -/
def State.bufWrite (s : State) (v : View) (a : Nat) (x : W32) : State :=
  let bs := leBytes 4 x.toNat
  if a < 0xC0000 then (if s.get R.SEC_OWN F.SEC_OWN_VIEW = s.viewNo v then s.bufPut (a - 0x80000) bs else s)
  else if v = .host ∨ v = .mgmt then { s with pwr := { s.pwr with flBuf := sparsePut zeroByte s.pwr.flBuf (a - 0xC0000) bs } }
  else s

/-- A register write (R11-R14). A foreign or a reserved address is left alone: R35 and R36 have rows of their own. -/
def regWrite (v : View) (addr : Nat) (x hw : W32) (s : State) : State :=
  let a := s.keyFor v addr
  if inBuf addr then s.bufWrite v addr x else
  match regAt a with
  | none => s
  | some r =>
    let foreign := match v with
      | .core d => s.foreign d addr false
      | _ => false
    if foreign || s.regOff addr || s.writeHeld r a || s.otherGroup v r a then s
    else
      let y := s.written v r a x hw
      -- a cleared VALID clears its record
      if recordRegs.contains (r.die, r.off) && (s.rd a).getLsbD 4 && !y.getLsbD 4 then
        let t := s.wr a 0
        if r.off = 0x10004 then t.wr (a + 4) 0 else t
      else (s.wr a y).afterWrite v a x

/-- REGISTER_WRITE. -/
def execRegisterWrite (v : View) (addr : Nat) (x hw : W32) (s : State) : Out := .next (regWrite v addr x hw s)

/-- Whether a CRS address holds no register: outside every die's registers and the buffer windows of the trust die, or
in a die that does not answer. -/
def State.crsReserved (s : State) (a : Nat) : Bool :=
  s.regOff a || ((regAt a).isNone && !inBuf a)

/-- CRS_RESERVED_ACCESS (R35): a read answers 0, a write does nothing, the trust die raises a category-0 event. -/
def execCrsReservedAccess (_v : View) (addr : Nat) (wr : Option W32) (s : State) : Out :=
  if s.crsReserved addr then
    let t := { s with resp := if wr.isNone then .value 0 else .done }
    .next (t.raiseCat 0 63 35 none (detail 0 0 addr))
  else .next s

/-- CRS_FOREIGN_ACCESS (R36): a read answers 0, a write does nothing, a security alarm is raised. -/
def execCrsForeignAccess (d : Fin 40) (addr : Nat) (wr : Option W32) (s : State) : Out :=
  if s.foreign d addr wr.isNone then
    let t := { s with resp := if wr.isNone then .value 0 else .done }
    .next (t.raiseCat 4 d 36 (some (s.colCanton (d.val % 8))) (detail 0 0 addr))
  else .next s

/-! ### MPA_ACCESS (R28) -/

/-- Bytes an access moves. -/
def mpaLen : MpaOp → Nat
  | .read n => n
  | .write bs => bs.length
  | .add _ => 8

/-- Whether an access changes memory. -/
def mpaWrites : MpaOp → Bool
  | .read _ => false
  | _ => true

/-- MPA_ACCESS (R28): the check at the entry die; a refused access gets a bus error and an event and never reaches its
target, a DRAM access is forwarded to the seal engine that owns it, an access to a store is served. -/
def execMpaAccess (r : Requester) (op : MpaOp) (addr : Nat) (s : State) : Out :=
  match s.checkRange r (mpaWrites op) addr (mpaLen op) with
  | .busError cat =>
    .next (({ s with resp := .busError }).raiseCat cat (entryDie r) 28 (s.reqCanton r) (detail 0 0 addr))
  | .ok =>
    match s.placeOf addr, op with
    | .dram _, .write bs => .next (s.newReq.forwardWrite (entryDie r) addr bs)
    | .dram _, .read n =>
      .next ((blockPieces (n / 256 + 2) addr n).foldl (fun t p => t.forward (entryDie r) (.read p.2) p.1) s.newReq)
    | .dram _, .add i => .next (s.newReq.forward (entryDie r) (.add i) addr)
    | .cd d off, op => .next (s.storeAccess (entryDie r) d off addr op)
    | p, .read n => .next { s with resp := .data ((s.showPlace p).bytes addr n) }
    | _, .write bs => .next (s.storeWrite addr bs)
    | _, .add i => .next (s.putNum addr 8 (s.num addr 8 + i.toNat))

/-! ### The package fabric (R18-R25) -/

/-- Key of a port in the table of consecutive failed re-sends. -/
def portKey (die port : Nat) : Nat := die * 4 + port

/-- FABRIC_FLIT_RECEIVE (R20): a flit whose CRC-16 fails is discarded and its re-send requested from the sender's retry
buffer, which counts in RETRY_CNT; a good flit ends the row of failures. No flit comes over a link held idle or down. -/
def execFabricFlitReceive (die : Fin 64) (port : Fin 4) (crcOk : Bool) (s : State) : Out :=
  let k := portKey die port
  let n := Sparse.get (fun _ => 0) s.fabRetry k
  if s.linkShut die port then .next s
  else if crcOk then .next { s with fabRetry := Sparse.set (fun _ => 0) s.fabRetry k 0 }
  else
    match neighbour die port with
    | none => .next s
    | some o =>
      let t := { s with fabRetry := Sparse.set (fun _ => 0) s.fabRetry k (n + 1) }
      .next (t.bump (R.FAB_PORT_STATUS (dieCrs o)) F.FAB_PORT_STATUS_RETRY_CNT 1)

/-- The canton a fabric link belongs to; none for a link of row 7 or from row 6 to row 7 (R25). -/
def State.linkCanton (s : State) (die other : Nat) : Option Nat :=
  if (diePos die).2 = 7 ∨ (diePos other).2 = 7 then none else s.dieCanton die

/-- Failures in a row after which a port is down: a flit and 16 re-sends of it (R20). -/
def flitTries : Nat := 17

/-- FABRIC_PORT_DOWN (R20, R25): after 16 consecutive failed re-sends the port is down, and the die on each side raises
a fatal event, of the canton whose link it is or of the module. DOWN is set at the receiving die alone, UP falls on both
sides (the model's choice, log 124). -/
def execFabricPortDown (die : Fin 64) (port : Fin 4) (s : State) : Out :=
  match neighbour die port with
  | none => .next s
  | some o =>
    if Sparse.get (fun _ => 0) s.fabRetry (portKey die port) < flitTries then .next s
    else
      let c := s.linkCanton die o
      let far := (port.val + 2) % 4
      let a := R.FAB_PORT_STATUS (dieCrs die)
      let t := ((s.fabUp die port false).fabUp o far false).put a F.FAB_PORT_STATUS_DOWN (s.get a F.FAB_PORT_STATUS_DOWN ||| 2 ^ port.val)
      .next ((t.raiseCat 3 die 25 c (detail port 0 0)).raiseCat 3 o 25 c (detail far 0 0))

/-- Where a packet's next hop leads (R21): towards row 7 vertical first, otherwise horizontal first. -/
def nextHop (col row dcol drow : Nat) : Nat × Nat :=
  let vert := (col, if row < drow then row + 1 else if drow < row then row - 1 else row)
  let horiz := (if col < dcol then col + 1 else if dcol < col then col - 1 else col, row)
  if drow = 7 then (if row ≠ 7 then vert else horiz)
  else if col ≠ dcol then horiz else vert

/-- Ticks of one router hop: 6 FCLK cycles (R23). -/
def hopTicks : Nat := 18

/-- Turn order of a packet (R21): 0 horizontal then vertical in rows 0-6, 1 vertical then horizontal into row 7, 2 out of
row 7; a packet between dies of row 7 turns nowhere and uses 2 (log 124). -/
def turnOrder (src dst : Fin 64) : Fin 3 :=
  if (diePos src).2 = 7 then 2 else if (diePos dst).2 = 7 then 1 else 0

/-- Virtual channel of a packet (R22). -/
def classVc : PacketClass → Fin 4
  | .request => 0
  | .response => 1
  | .bulk => 2
  | .urgent => 3

/-- Most flits of a packet: 64, 1 of an urgent one (R20). -/
def classMost : PacketClass → Nat
  | .urgent => 1
  | _ => 64

/-- What a die's buffer for a virtual channel and a turn order holds (R22): the packets that wait there. -/
def State.fabBuffer (s : State) (die : Nat) (vc : Fin 4) (turn : Fin 3) : List Packet :=
  s.packets.filter (fun p => p.waiting && (p.col, p.row) == diePos die && classVc p.cls == vc && p.turn == turn)

/-- The port through which a packet leaves a position for the next. -/
def portTo (p q : Nat × Nat) : Nat := if q.2 < p.2 then 0 else if p.1 < q.1 then 1 else if p.2 < q.2 then 2 else 3

/-- FABRIC_PACKET_HOP (R20-R23): the head of packet `id` crosses a router by cut-through, or waits whole at a busy
output stage. A packet not yet in the fabric starts at its source; one that reaches its destination leaves; one whose
link is held idle or down waits, and is not routed round it (R25, R37). No packet has no flit, or more than its class
allows. -/
def execFabricPacketHop (id : Nat) (src dst : Fin 64) (cls : PacketClass) (flits : Nat) (busy : Bool) (s : State) : Out :=
  let start : Packet := ⟨id, src, dst, cls, turnOrder src dst, flits, (diePos src).1, (diePos src).2, false, s.now⟩
  let p := (s.packets.find? (fun p => p.id == id)).getD start
  let rest := s.packets.filter (fun p => p.id != id)
  let target := diePos p.dst
  let pos := nextHop p.col p.row target.1 target.2
  if p.flits = 0 ∨ classMost p.cls < p.flits then .next s
  else if busy || s.linkShut (dieAt p.col p.row) (portTo (p.col, p.row) pos) then .next { s with packets := { p with waiting := true } :: rest }
  else
    let q : Packet := { p with col := pos.1, row := pos.2, waiting := false, arrive := max p.arrive s.now + hopTicks }
    if pos = target then .next { s with packets := rest } else .next { s with packets := q :: rest }

end Sys2Proof.Machine
end

