-- ==== Sys2Proof/Machine/MatrixArray.lean ====
section
/-! DEFINITION. The matrix arrays MA0-MA3 of a compute die and the hoist front (03_matrix_arrays.md, R68, R69,
R79-R122). -/
namespace Sys2Proof.Machine

/-- Matrix array a of die d. -/
def State.ma (s : State) (d : Fin 40) (a : Fin 4) : MArray := (s.cd d).arrays[a]

/-- Matrix array a of die d replaced. -/
def State.setMa (s : State) (d : Fin 40) (a : Fin 4) (m : MArray) : State :=
  s.setCd d { s.cd d with arrays := (s.cd d).arrays.set a m }

/-- The unit number of an array. -/
def maUnit (a : Fin 4) : Fin 8 := ⟨a.val, by omega⟩

/-! ### Fields of the commands (R112-R116) -/

/-- Format code of R112 as an element format; none for INT8 and for reserved codes. -/
def maFmt : Nat → Option NFmt
  | 0 => some .e4m3 | 1 => some .e5m2 | 2 => some .e2m1 | 4 => some .bf16 | _ => none

/-- Whether activation and weight formats form a pair of R47. -/
def maPair (a w : Nat) : Bool := (decide (a < 2) && decide (w < 2)) || (a == w && decide (2 ≤ a) && decide (a < 5))

/-- INT8 and BF16 carry no block scales (R47). -/
def noScale (f : Nat) : Bool := f == 3 || f == 4

/-- The cause of a refusal of MA_HOIST (R113, R118). -/
def hoistCause (w : Cmd) : Option Nat :=
  let f := cbits w 58 56
  let scaled := cbit w 59
  let diag := cbit w 60
  firstCause
    [(2, decide (5 ≤ f)),
     (3, (scaled && noScale f) || (diag && (f == 2 || scaled))),
     (4, !inStore lsBytes (cbits w 35 16 * 64) (if diag then 128 else 16384) ||
         (scaled && !inStore lsBytes (cbits w 55 36 * 64) (if f = 2 then 1024 else 512)) ||
         (cbit w 61 && !inStore lsBytes (cbits w 81 62 * 64) 16)),
     (6, f == 4 && (cbits w 88 82 + 1) % 2 == 1),
     (9, cbits w 127 89 != 0)]

/-- The cause of a refusal of MA_PASS under the weight set of the last hoist (R114, R118). -/
def passCause (last : Option Cmd) (w : Cmd) : Option Nat :=
  let f := cbits w 56 54
  let m := cbits w 45 36 + 1
  let st := cbits w 53 46
  firstCause
    [(2, decide (5 ≤ f) || (match last with | some h => !maPair f (cbits h 58 56) | none => false)),
     (3, cbit w 57 && noScale f),
     (4, !inStore lsBytes (cbits w 35 16 * 64 + (m - 1) * st * 64) 128 ||
         (cbit w 57 && !inStore lsBytes (cbits w 77 58 * 64) (8 * m)) ||
         !inStore (if cbit w 98 then gasBytes else lsBytes) (cbits w 97 78 * 64) (512 * m) ||
         (cbit w 101 && !inStore lsBytes (cbits w 121 102 * 64) ((m + 7) / 8))),
     (5, decide (st < 2)),
     (7, last.isNone),
     (9, cbits w 127 122 != 0)]

/-- The cause of a refusal of MA_CCFG (R115, R118). -/
def ccfgCause (w : Cmd) : Option Nat :=
  let f := cbits w 18 16
  firstCause
    [(2, decide (5 ≤ f)), (3, cbit w 19 && noScale f),
     (4, !inStore lsBytes (cbits w 59 40 * 64) 131072 || !inStore lsBytes (cbits w 79 60 * 64) 1024),
     (9, cbits w 127 88 != 0)]

/-- The cause of a refusal of MA_REQ (R95, R102, R103, R116). -/
def reqCause (last cfg : Option Cmd) (w : Cmd) : Option Nat :=
  let rows := cbits w 42 36 + 1
  firstCause
    [(2, match last, cfg with | some h, some c => !maPair (cbits c 18 16) (cbits h 58 56) | _, _ => false),
     (4, !inStore lsBytes (cbits w 35 16 * 64) (128 * rows) ||
         (match cfg with | some c => cbit c 19 && !inStore lsBytes (cbits w 78 59 * 64) (8 * rows) | none => false)),
     (7, last.isNone), (8, cfg.isNone),
     (9, cbits w 127 79 != 0)]

/-! ### Status and counters -/

/-- Number of 1 bits among the first n of a column set. -/
def countCols (b : BitVec 128) : Nat → Nat
  | 0 => 0
  | n + 1 => countCols b n + (if b.toNat.testBit n then 1 else 0)

/-- Status bits that follow from the array's state (BUSY, HPEND, COPEN) and the collector's ROWS. -/
def State.maSync (s : State) (d : Fin 40) (a : Fin 4) : State :=
  let m := s.ma d a
  let st := R.MA_STATUS d a
  let busy := !m.rows.isEmpty || m.streaming.isSome || (match m.feeding with | some p => decide (0 < p.pos) | none => false) ||
    (decide (0 < m.fronts) && decide (s.aclk ≤ m.frontAt + 254))
  let t := s.put st F.MA_STATUS_BUSY busy.toNat
  let t := t.put st F.MA_STATUS_HPEND (m.waiting.isSome || m.streaming.isSome).toNat
  let t := t.put st F.MA_STATUS_COPEN (!m.coll.rows.isEmpty).toNat
  t.put (R.MA_COLL d a) F.MA_COLL_ROWS m.coll.rows.length

/-- Whether an array's performance counters stand: FREEZE is set (R121), or a CLEAR is made in this cycle (R122). -/
def State.maStill (s : State) (d : Fin 40) (a : Fin 4) : Bool :=
  s.flag (R.MA_PERF_CTL d a) F.MA_PERF_CTL_FREEZE || (s.ma d a).clrAt == s.aclk + 1

/-- The array's status brought up to date where it is read: beside `maSync`, whether the interlock holds the feed and a
stream waits at the top edge in this cycle, and the age of the open batch (R121). -/
def State.maShow (s : State) (d : Fin 40) (a : Fin 4) : State :=
  let m := s.ma d a
  let st := R.MA_STATUS d a
  let ilock := m.feeding.any (fun p => decide (m.fronts < p.hoist) || decide (s.aclk < m.frontAt))
  let hwait := m.waiting.isSome && m.streaming.any (fun g => decide (128 ≤ g.rows.length))
  let t := ((s.maSync d a).put st F.MA_STATUS_ILOCK ilock.toNat).put st F.MA_STATUS_HWAIT hwait.toNat
  t.put (R.MA_COLL_TIMER d a) F.MA_COLL_TIMER_WAITED (if m.coll.rows.isEmpty then 0 else s.aclk - m.coll.opened)

/-- A performance counter of an array raised, unless the counters stand. -/
def State.maPerf (s : State) (d : Fin 40) (a : Fin 4) (reg : Nat) (n : Nat) : State :=
  if s.maStill d a then s else s.bump reg (31, 0) n

/-- A 64-bit performance counter of an array raised, unless the counters stand. -/
def State.maPerf64 (s : State) (d : Fin 40) (a : Fin 4) (lo hi n : Nat) : State :=
  if s.maStill d a then s else s.add64 lo hi n

/-- Arithmetic flags gathered into MA_STATUS (R120). -/
def State.maFlags (s : State) (d : Fin 40) (a : Fin 4) (f : Flags) : State :=
  let st := R.MA_STATUS d a
  ((s.setIf f.inv st F.MA_STATUS_INV).setIf f.ovf st F.MA_STATUS_OVF).setIf f.unf st F.MA_STATUS_UNF

/-- An array refuses the command at its FIFO head (R118): the record, event 0x4240, the report to the sequencer. -/
def State.maRefuse (s : State) (d : Fin 40) (a : Fin 4) (e : UCmd) (code : Nat) : State :=
  let t := s.recordRefusal (R.MA_FAULT d a) code (opcodeOf e.w)
  let t := t.raise 0x4240 d (some (t.cdCanton d)) (detail a code (t.rd (R.MA_FAULT d a)).toNat)
  t.unitFault d (maUnit a) e 9

/-! ### The collector (R102-R106) -/

/-- The open batch issued as a pass of its rows (R105): it takes the buffer BUF names and toggles BUF. Nothing when no
batch is open. -/
def State.issueBatch (s : State) (d : Fin 40) (a : Fin 4) : State :=
  let m := s.ma d a
  match m.coll.rows, m.coll.cfg with
  | [], _ => s
  | _, none => s
  | rows, some cfg =>
    let buf := s.get (R.MA_COLL d a) F.MA_COLL_BUF
    let p : Pass :=
      { no := m.passes, hoist := m.hoists, e := m.coll.cfgq, slots := rows.length, fmt := cbits cfg 18 16,
        scaled := cbit cfg 19, aaddr := 0, stride := 0, saddr := 0,
        daddr := cbits cfg 59 40 * 64 + buf * 65536, gas := false, acc := false, zeroMasked := false, maskAt := none,
        lines := [], pos := 0, rows := rows, batch := some (cbits cfg 87 80),
        table := cbits cfg 79 60 * 64 + buf * 512, hcmd := m.lastHoist.getD 0, own := none, endAt := 0 }
    let m := { m with passes := m.passes + 1, coll := { m.coll with rows := [] } }
    let m := match m.feeding with
      | none => { m with feeding := some p }
      | some _ => { m with issued := m.issued ++ [p] }
    let t := (s.setMa d a m).put (R.MA_COLL d a) F.MA_COLL_BUF (1 - buf)
    let t := t.bumpWrap (R.MA_COLL d a) F.MA_COLL_BATCHES 1
    (t.put (R.MA_COLL_TIMER d a) F.MA_COLL_TIMER_WAITED 0).maSync d a

/-! ### Accepting a command (R96, R111-R118) -/

/-- MA_HOIST takes the waiting place of the look-ahead. -/
def State.acceptHoist (s : State) (d : Fin 40) (a : Fin 4) (e : UCmd) : State :=
  let m := s.ma d a
  match m.waiting with
  | some _ => s
  | none =>
    let h : Hoist := ⟨m.hoists + 1, e, 0, 0, 0, [], [], 0⟩
    let m := { m with waiting := some h, hoists := m.hoists + 1, lastHoist := some e.w, accAt := s.aclk + 1 }
    ((s.popHead d (maUnit a)).setMa d a m).maSync d a

/-- MA_PASS takes the feeding place, or the held place. -/
def State.acceptPass (s : State) (d : Fin 40) (a : Fin 4) (e : UCmd) : State :=
  let m := s.ma d a
  let w := e.w
  let p : Pass :=
    { no := m.passes, hoist := m.hoists, e := e, slots := cbits w 45 36 + 1, fmt := cbits w 56 54, scaled := cbit w 57,
      aaddr := cbits w 35 16 * 64, stride := cbits w 53 46 * 64, saddr := cbits w 77 58 * 64,
      daddr := cbits w 97 78 * 64, gas := cbit w 98, acc := cbit w 99, zeroMasked := cbit w 100,
      maskAt := if cbit w 101 then some (cbits w 121 102 * 64) else none, lines := [], pos := 0, rows := [],
      batch := none, table := 0, hcmd := m.lastHoist.getD 0, own := none, endAt := 0 }
  match m.feeding, m.held, m.issued with
  | none, none, [] =>
    ((s.popHead d (maUnit a)).setMa d a { m with feeding := some p, passes := m.passes + 1, accAt := s.aclk + 1 }).maSync d a
  | some _, none, [] =>
    ((s.popHead d (maUnit a)).setMa d a { m with held := some p, passes := m.passes + 1, accAt := s.aclk + 1 }).maSync d a
  | _, _, _ => s

/-- MA_CCFG: the new configuration, BUF back to 0 (R102, R115). It completes when accepted. -/
def State.acceptCcfg (s : State) (d : Fin 40) (a : Fin 4) (e : UCmd) : State :=
  let m := s.ma d a
  let t := (s.popHead d (maUnit a)).setMa d a { m with coll := { m.coll with cfg := some e.w, cfgq := e }, accAt := s.aclk + 1 }
  let t := (t.put (R.MA_COLL d a) F.MA_COLL_CFG 1).put (R.MA_COLL d a) F.MA_COLL_BUF 0
  (t.complete d e).maSync d a

/-- The rows of a request (R103). -/
def reqRows (e : UCmd) (scaled : Bool) : List ReqRow :=
  (List.range (cbits e.w 42 36 + 1)).map (fun i =>
    ⟨cbits e.w 58 43, i, cbits e.w 35 16 * 64 + 128 * i, if scaled then cbits e.w 78 59 * 64 + 8 * i else 0, e⟩)

/-- MA_REQ: the request joins the open batch, which is issued first where it would not fit, and at once when it is full
or MAXWAIT = 0 (R103, R104). It completes when accepted. -/
def State.acceptReq (s : State) (d : Fin 40) (a : Fin 4) (e : UCmd) (cfg : Cmd) : State :=
  let rows := reqRows e (cbit cfg 19)
  let s := if 128 < (s.ma d a).coll.rows.length + rows.length then s.issueBatch d a else s
  let m := s.ma d a
  let opened := if m.coll.rows.isEmpty then s.aclk else m.coll.opened
  let t := (s.popHead d (maUnit a)).setMa d a { m with coll := { m.coll with rows := m.coll.rows ++ rows, opened := opened }, accAt := s.aclk + 1 }
  let t := (t.complete d e).maSync d a
  if (t.ma d a).coll.rows.length = 128 ∨ cbits cfg 39 20 = 0 then t.issueBatch d a else t

/-- The command at an array's FIFO head moves into the array when the place it needs is free, or is refused (R96,
R118); at most one moves in a cycle. A head that is no MA_REQ first issues the open batch (R104). -/
def State.maAccept (s : State) (d : Fin 40) (a : Fin 4) : State :=
  if (s.cd d).stopped[maUnit a] || (s.ma d a).accAt == s.aclk + 1 then s else
  match s.head? d (maUnit a) with
  | none => s
  | some e =>
    let op := opcodeOf e.w
    let s := if op = 4 then s else s.issueBatch d a
    let m := s.ma d a
    if op = 1 then
      match hoistCause e.w with
      | some c => s.maRefuse d a e c
      | none => s.acceptHoist d a e
    else if op = 2 then
      match passCause m.lastHoist e.w with
      | some c => s.maRefuse d a e c
      | none => s.acceptPass d a e
    else if op = 3 then
      match ccfgCause e.w with
      | some c => s.maRefuse d a e c
      | none => s.acceptCcfg d a e
    else if op = 4 then
      match reqCause m.lastHoist m.coll.cfg e.w with
      | some c => s.maRefuse d a e c
      | none => s.acceptReq d a e (m.coll.cfg.getD 0)
    else if op = 5 then
      if cbits e.w 127 16 ≠ 0 then s.maRefuse d a e 9
      else (((s.popHead d (maUnit a)).complete d e).setMa d a { s.ma d a with accAt := s.aclk + 1 })
    else s.maRefuse d a e 1

/-- MA_COMMAND_ACCEPT (R96). -/
def execMaCommandAccept (d : Fin 40) (a : Fin 4) (s : State) : Out := .next (if s.dieOff d then s else s.maAccept d a)

/-- A command come to an array, accepted where it stands at the head of the array's FIFO. -/
def State.maEnter (s : State) (d : Fin 40) (a q : Fin 4) (w : Cmd) : State :=
  let t := s.enter d (maUnit a) q w
  if t.2 then t.1.maAccept d a else t.1

/-- MA_HOIST (R113): the command at the head of the array's FIFO, accepted. -/
def execMaHoist (d : Fin 40) (a q : Fin 4) (w : Cmd) (s : State) : Out := .next (s.maEnter d a q w)

/-- MA_PASS (R114). -/
def execMaPass (d : Fin 40) (a q : Fin 4) (w : Cmd) (s : State) : Out := .next (s.maEnter d a q w)

/-- MA_CCFG (R115). -/
def execMaCcfg (d : Fin 40) (a q : Fin 4) (w : Cmd) (s : State) : Out := .next (s.maEnter d a q w)

/-- MA_REQ (R116). -/
def execMaReq (d : Fin 40) (a q : Fin 4) (w : Cmd) (s : State) : Out := .next (s.maEnter d a q w)

/-- MA_FLUSH (R117). -/
def execMaFlush (d : Fin 40) (a q : Fin 4) (w : Cmd) (s : State) : Out := .next (s.maEnter d a q w)

/-- MA_COLLECTOR_TIMEOUT (R104): MAXWAIT cycles after the first request of the open batch, the batch is issued. -/
def execMaCollectorTimeout (d : Fin 40) (a : Fin 4) (s : State) : Out :=
  let m := s.ma d a
  if s.dieOff d then .next s else
  match m.coll.cfg with
  | some cfg =>
    if !m.coll.rows.isEmpty && decide (m.coll.opened + cbits cfg 39 20 ≤ s.aclk) then .next (s.issueBatch d a)
    else .next s
  | none => .next s

/-! ### Weights (R89-R101, R107) -/

/-- Whether the arbiters granted an access of a requester in this cycle that has not been made yet (R83, R178). -/
def State.granted (s : State) (d : Fin 40) (r : Fin 9) (k : LsKind) : Bool :=
  let b := (s.cd d).arb
  b.cycle == s.aclk && b.grants.contains (r, k)

/-- A granted access made: its grant is used up. -/
def State.useGrant (s : State) (d : Fin 40) (r : Fin 9) (k : LsKind) : State :=
  let c := s.cd d
  s.setCd d { c with arb := { c.arb with grants := c.arb.grants.filter (fun g => g != (r, k)) } }

/-- The requester number of an array. -/
def maReq (a : Fin 4) : Fin 9 := ⟨a.val, by omega⟩

/-- The bytes array row i of a weight block holds (R89); of a diagonal vector, its element in its own column (R107). -/
def State.weightRow (s : State) (d : Fin 40) (w : Cmd) (i : Nat) : List Byte :=
  let base := lsBase d + cbits w 35 16 * 64
  let bf := cbits w 58 56 = 4
  if cbit w 60 then
    (List.range 128).map (fun j => if j = (if bf then i / 2 else i) then s.byte (base + i) else 0)
  else if bf then
    (List.range 128).map (fun j => s.byte (base + 256 * (i / 2) + 2 * j + i % 2))
  else s.bytes (base + 128 * i) 128

/-- The columns a hoist writes (R100, R107). -/
def State.hoistCols (s : State) (d : Fin 40) (w : Cmd) : BitVec 128 :=
  let m : Nat := if cbit w 61 then s.num (lsBase d + cbits w 81 62 * 64) 16 else 2 ^ 128 - 1
  BitVec.ofNat 128 (if cbit w 60 = true ∧ cbits w 58 56 = 4 then m % 2 ^ 64 else m)

/-- The scale bytes of a weight set (R89). -/
def State.weightScales (s : State) (d : Fin 40) (w : Cmd) : List Byte :=
  if cbit w 59 then s.bytes (lsBase d + cbits w 55 36 * 64) (if cbits w 58 56 = 2 then 1024 else 512) else []

/-- The range of local store that array row i of a weight set is read from. -/
def rowSpan (w : Cmd) (i : Nat) : Nat × Nat :=
  let base := cbits w 35 16 * 64
  if cbit w 60 then (base, 128)
  else if cbits w 58 56 = 4 then (base + 256 * (i / 2), 256) else (base + 128 * i, 128)

/-- A whole weight set read from its HOIST fields. -/
def State.loadSet (s : State) (d : Fin 40) (w : Cmd) : WeightSet :=
  { fmt := cbits w 58 56, scaled := cbit w 59, diag := cbit w 60, cols := s.hoistCols d w, depth := cbits w 88 82 + 1,
    data := (List.range 128).flatMap (fun i => s.weightRow d w i), scales := s.weightScales d w }

/-- The scale bytes read beside array row i, 4 (8 of E2M1) in each cycle (R83, R90): offset from T, and their number. -/
def scaleSpan (w : Cmd) (i : Nat) : Nat × Nat :=
  let n := if cbits w 58 56 = 2 then 8 else 4
  if cbit w 59 then (n * i, n) else (0, 0)

/-- The next row read by a stream (R90): array row 127 − t with its scale bytes; for BF16 the pair of rows of one weight
row in one read. -/
def State.streamRow (s : State) (d : Fin 40) (h : Hoist) : Hoist :=
  let i := 127 - h.rows.length
  let next := s.weightRow d h.e.w i
  let sp := scaleSpan h.e.w i
  if cbits h.e.w 58 56 = 4 then { h with rows := h.rows ++ [next, s.weightRow d h.e.w (i - 1)], rowAt := s.aclk + 1 }
  else { h with rows := h.rows ++ [next], rowAt := s.aclk + 1,
                scales := s.bytes (lsBase d + cbits h.e.w 55 36 * 64 + sp.1) sp.2 ++ h.scales }

/-- Whether a line that the read of array row i of a weight set touches is poisoned (R180). -/
def State.rowPoisoned (s : State) (d : Fin 40) (w : Cmd) (i : Nat) : Bool :=
  let sp := rowSpan w i
  let sc := scaleSpan w i
  s.poisoned (lsBase d + sp.1) sp.2 || (cbit w 59 && s.poisoned (lsBase d + cbits w 55 36 * 64 + sc.1) sc.2)

/-- Whether the column mask of a hoist lies in a poisoned line. -/
def State.maskPoisoned (s : State) (d : Fin 40) (w : Cmd) : Bool := cbit w 61 && s.poisoned (lsBase d + cbits w 81 62 * 64) 16

/-- Reservations of an array discarded, where a fault stops its output path (R550). -/
def CDie.dropResv (c : CDie) (a : Fin 4) : CDie :=
  { c with arb := { c.arb with resv := c.arb.resv.filter (fun r => r.2.2.val != a.val) } }

/-- A poisoned line met by a read of a pass: the array stops feeding, with code 0x7 (R180). -/
def State.passPoison (s : State) (d : Fin 40) (a : Fin 4) (e : UCmd) : State :=
  (s.setMa d a { s.ma d a with stopPass := some e }).unitFault d (maUnit a) e 7

/-- A poisoned line met by a read of a hoist: its stream stops, with code 0x7 (R180). -/
def State.hoistPoison (s : State) (d : Fin 40) (a : Fin 4) (e : UCmd) : State :=
  (s.setMa d a { s.ma d a with stopHoist := some e }).unitFault d (maUnit a) e 7

/-- MA_STREAM_START (R92): the waiting hoist reads its first weight row in the first cycle in which that read is granted
and the hoist is at the head of the hoist path, every row of the stream before it having been read. Its stream starts in
that cycle, or with the front of the stream before it. Until then it waits at the top edge, and each cycle is counted
once. The column mask is read with the first row (log 125). -/
def execMaStreamStart (d : Fin 40) (a : Fin 4) (s : State) : Out :=
  let m := s.ma d a
  let st := R.MA_STATUS d a
  match m.waiting with
  | none => .next s
  | some h =>
    if s.dieOff d || m.stopHoist.isSome then .next s
    else if m.streaming.any (fun g => decide (g.rows.length < 128)) then .next s
    else
      let reads := h.rows.isEmpty && s.granted d (maReq a) .hoist
      if reads && (s.rowPoisoned d h.e.w 127 || s.maskPoisoned d h.e.w) then .next ((s.useGrant d (maReq a) .hoist).hoistPoison d a h.e)
      else
        let s := if reads then s.useGrant d (maReq a) .hoist else s
        let h := if reads then { (s.streamRow d h) with start := s.aclk, cols := s.hoistCols d h.e.w } else h
        if m.streaming.isSome then
          let t := s.setMa d a { m with waiting := some h, waitAt := s.aclk + 1 }
          if m.waitAt = s.aclk + 1 then .next t
          else .next ((t.put st F.MA_STATUS_HWAIT 1).maPerf d a (R.MA_PERF_HWAIT d a) 1)
        else if h.rows.isEmpty then .next s
        else
          let t := s.setMa d a { m with waiting := none, streaming := some { h with start := max h.start m.frontAt } }
          .next ((t.put st F.MA_STATUS_HWAIT 0).maSync d a)

/-- The earliest cycle of a hoist's front: max(L + 128 + paused cycles, E + 1) (R91, R93). -/
def frontCycle (h : Hoist) (lastSlot : Nat) : Nat := max (h.start + 128 + h.paused) (lastSlot + 1)

/-- The weight set that a streamed hoist puts into the active registers (R90, R100, R101). -/
def setOf (h : Hoist) : WeightSet :=
  { fmt := cbits h.e.w 58 56, scaled := cbit h.e.w 59, diag := cbit h.e.w 60, cols := h.cols,
    depth := cbits h.e.w 88 82 + 1, data := h.rows.reverse.flatten, scales := h.scales }

/-- MA_FRONT_START (R91): when the stream is in place and the last pass before the hoist has fed its last slot, the
front starts at S and every element takes its new weight as the front crosses it. The hoist completes when its front
has crossed PE(127, 127) (R165). -/
def execMaFrontStart (d : Fin 40) (a : Fin 4) (s : State) : Out :=
  let m := s.ma d a
  match m.streaming with
  | none => .next s
  | some h =>
    if s.dieOff d then .next s else
    let old := fun (p : Pass) => decide (p.hoist < h.no)
    let pending := (m.feeding.toList ++ m.held.toList ++ m.issued).any old
    let S := frontCycle h m.lastSlot
    if h.rows.length < 128 ∨ pending = true ∨ s.aclk < S then .next s
    else
      let w := setOf h
      let unused := decide (0 < m.fronts) && !m.used
      let m' := { m with
        streaming := none, active := w, actCmd := h.e.w, frontAt := S, fronts := h.no, used := false,
        bad := m.bad.filter (fun b => m.rows.any (fun r => r.setNo == b.1)) }
      let t := s.setMa d a m'
      let t := if unused then t.maPerf d a (R.MA_PERF_HUNUSED d a) 1 else t
      let st := R.MA_STATUS d a
      let t := (t.put st F.MA_STATUS_WFMT w.fmt).put st F.MA_STATUS_ACTCOL (countCols w.cols 128)
      .next ((t.completeAt d h.e (S + 255)).maSync d a)

/-! ### Passes (R82-R88, R94-R99) -/

/-- The bit of a slot in the bitmap lines read, if its line has been read in an earlier cycle (R99). -/
def maskBit (lines : List (Nat × Nat × List Byte)) (now slot : Nat) : Option Bool :=
  match lines.find? (fun l => l.1 == slot / 512 && decide (l.2.1 < now)) with
  | some (_, _, bs) => some ((bs.getD (slot % 512 / 8) 0).toNat.testBit (slot % 8))
  | none => none

/-- Whether a pass still has to read a line of its bitmap. -/
def Pass.wantsLine (p : Pass) (line : Nat) : Bool :=
  p.maskAt.isSome && decide (line * 512 < p.slots) && !(p.lines.any (fun l => l.1 == line))

/-- MA_MASK_LINE_READ (R99): one 64-byte line of a pass's tile-row bitmap, read once, by an access granted in this
cycle. -/
def execMaMaskLineRead (d : Fin 40) (a : Fin 4) (line : Nat) (s : State) : Out :=
  let m := s.ma d a
  if s.dieOff d || !s.granted d (maReq a) .bitmap || m.stopPass.isSome then .next s else
  let at_ := fun (p : Pass) => lsBase d + p.maskAt.getD 0 + 64 * line
  let read := fun (p : Pass) => { p with lines := p.lines ++ [(line, s.aclk, s.bytes (at_ p) 64)] }
  let t := s.useGrant d (maReq a) .bitmap
  match m.feeding, m.held with
  | some p, h =>
    if p.wantsLine line then
      .next (if s.poisoned (at_ p) 64 then t.passPoison d a p.e else t.setMa d a { m with feeding := some (read p) })
    else
      match h with
      | some p =>
        if p.wantsLine line then
          .next (if s.poisoned (at_ p) 64 then t.passPoison d a p.e else t.setMa d a { m with held := some (read p) })
        else .next s
      | none => .next s
  | none, _ => .next s

/-- Multiply-accumulates of one fed slot under a weight set (R121). -/
def macsOf (w : WeightSet) : Nat :=
  let rows := if w.fmt = 4 then w.depth / 2 else w.depth
  let n := if w.diag then countCols w.cols (min 128 rows) else rows * countCols w.cols 128
  if w.fmt = 2 then 2 * n else n

/-- Where slot m of a pass reads its activation row, and its scales (R89, R103). -/
def slotAddr (p : Pass) (m : Nat) : Nat × Nat :=
  match p.batch with
  | some _ => (match p.rows[m]? with | some r => (r.addr, r.saddr) | none => (0, 0))
  | none => (p.aaddr + m * p.stride, p.saddr + 8 * m)

/-- The command a fault of slot m names: for a batch, the MA_REQ whose row it is (R180). -/
def slotCmd (p : Pass) (m : Nat) : UCmd :=
  match p.batch with
  | some _ => (match p.rows[m]? with | some r => r.e | none => p.e)
  | none => p.e

/-- The feeding pass moved past a slot: on its last slot it leaves the feeding place and the next pass takes it. -/
def MArray.passSlot (m : MArray) (p : Pass) (now : Nat) : MArray :=
  if p.pos + 1 < p.slots then { m with feeding := some { p with pos := p.pos + 1 } }
  else
    let m := { m with lastSlot := now, draining := m.draining ++ [{ p with pos := p.slots, endAt := now }] }
    match m.held, m.issued with
    | some h, _ => { m with feeding := some h, held := none }
    | none, i :: is => { m with feeding := some i, issued := is }
    | none, [] => { m with feeding := none }

/-- Whether a drain dispatched before a pass covers part of its destination (R88, R184). -/
def drainHolds (c : CDie) (p : Pass) : Bool :=
  p.gas && c.drains.any (fun g => decide (g.e.seq < p.e.seq) &&
    (List.range ((p.daddr + 512 * p.slots + 65535) / 65536 - p.daddr / 65536)).any (fun i =>
      let gr := p.daddr / 65536 + i
      decide (g.line * 64 / 65536 ≤ gr) && decide (gr ≤ (g.line + g.len - 1) * 64 / 65536) && !g.released.contains gr))

/-- The destination store of a pass. -/
def passBase (d : Fin 40) (p : Pass) : Nat := (if p.gas then gasBase d else lsBase d) + p.daddr

/-- A row on its way to the output writes, where its set has a hoisted column (R100). -/
def MArray.feedRow (m : MArray) (r : FedRow) : MArray := if r.todo = 0 then m else { m with rows := m.rows ++ [r] }

/-- The feeding pass stopped by a poisoned line: it goes back to its first slot under a number of its own; the rows it has
fed are still written (R180). -/
def MArray.rewind (m : MArray) (p : Pass) : MArray :=
  { m with feeding := some { p with pos := 0, no := m.passes }, passes := m.passes + 1 }

/-- MA_SLOT_FEED (R83, R94, R99, R109): the array offers the next slot of its feeding pass, once in a cycle, and in
THROTTLED once in two. A slot before the front of its weight set is held by the interlock; a masked slot is a gated bubble
(with +0 written under ZERO); a slot whose feed access is not granted, or whose bitmap line has not been read before, is a
bubble and is offered again; a granted slot is fed. A pass left without a weight set by a discarded hoist is refused
(R95). -/
def State.slotFeed (s : State) (d : Fin 40) (a : Fin 4) (p : Pass) : State :=
  let m := { s.ma d a with offered := s.aclk + 1 }
  let st := R.MA_STATUS d a
  let w := p.own.getD m.active
  let ok := s.granted d (maReq a) .feed
  let row : FedRow :=
    { pass := p.no, slot := p.pos, fed := s.aclk, masked := true, data := [], scales := [], fmt := p.fmt,
      scaled := p.scaled, set := w, setNo := p.hoist, dest := passBase d p + 512 * p.pos, acc := p.acc, stagger := false,
      todo := w.cols, held := [], outs := [] }
  let s := s.setMa d a m
  if decide (m.fronts < p.hoist) || decide (s.aclk < m.frontAt) then
    (s.put st F.MA_STATUS_ILOCK 1).maPerf d a (R.MA_PERF_ILOCK d a) 1
  else
    let s := s.put st F.MA_STATUS_ILOCK 0
    let bubble := s.maPerf d a (R.MA_PERF_BUBBLE d a) 1
    let m' := { m.passSlot p s.aclk with lastFeed := s.aclk + 1 }
    if s.throttled && decide (m.lastFeed ≠ 0) && decide (s.aclk ≤ m.lastFeed) then s
    else if p.pos == 0 && drainHolds (s.cd d) p then s
    else match (match p.maskAt with | some _ => maskBit p.lines s.aclk p.pos | none => some true) with
      | none => bubble
      | some false =>
        if !p.zeroMasked then ((s.setMa d a m').maPerf d a (R.MA_PERF_MASKED d a) 1).maSync d a
        else if ok then
          (((s.useGrant d (maReq a) .feed).setMa d a (m'.feedRow row)).maPerf d a (R.MA_PERF_MASKED d a) 1).maSync d a
        else bubble
      | some true =>
        if !ok then bubble
        else
          let s := s.useGrant d (maReq a) .feed
          let ad := slotAddr p p.pos
          if s.poisoned (lsBase d + ad.1) 128 || (p.scaled && s.poisoned (lsBase d + ad.2) 8) then
            ((s.setMa d a (m.rewind p)).passPoison d a (slotCmd p p.pos)).maSync d a
          else
            let row := { row with masked := false, data := s.bytes (lsBase d + ad.1) 128,
                                  scales := if p.scaled then s.bytes (lsBase d + ad.2) 8 else [] }
            let t := s.setMa d a { m'.feedRow row with used := true }
            let t := t.maPerf64 d a (R.MA_PERF_ACTIVE_LO d a) (R.MA_PERF_ACTIVE_HI d a) 1
            (t.maPerf64 d a (R.MA_PERF_MAC_LO d a) (R.MA_PERF_MAC_HI d a) (macsOf w)).maSync d a

/-- MA_SLOT_FEED. -/
def execMaSlotFeed (d : Fin 40) (a : Fin 4) (s : State) : Out :=
  let m := s.ma d a
  match m.feeding with
  | none => .next s
  | some p =>
    if s.dieOff d || m.stopPass.isSome || decide (m.offered = s.aclk + 1) then .next s
    else if p.hoist = 0 then .next ((s.setMa d a { m with stopPass := some p.e }).maRefuse d a p.e 7)
    else .next (s.slotFeed d a p)

/-! ### Column sums and output writes (R68, R69, R84) -/

/-- The scale byte that applies to reduction block b of a row or a column; 0x7F when that side carries none (R81). -/
def scaleAt (scaled : Bool) (l : List Byte) (i : Nat) : Nat := if scaled then (l.getD i 0).toNat else 0x7F

/-- The term of a block-scaled pair: times 2^(Ba + Bw − 254), rounded into FP32; NaN for a scale byte 0xFF (R68). -/
def scaledTerm (ba bw : Nat) (p : FVal × Bool) : FVal × Flags :=
  if ba = 0xFF ∨ bw = 0xFF then (.nan, Flags.none)
  else
    let (c, fl) := NFmt.fp32.round false .rne (p.1.scale2 ((ba : Int) + (bw : Int) - 254))
    (NFmt.fp32.decode c, { fl with inv := p.2 })

/-- A byte of array row i, column j of a weight set. -/
def wByte (w : WeightSet) (i j : Nat) : Nat := (w.data.getD (128 * i + j) 0).toNat

/-- The float term of index k in column j (array row k, or row pair 2k, 2k + 1 for BF16), with its flags (R68). -/
def floatTerm (r : FedRow) (j k : Nat) : FVal × Flags :=
  let w := r.set
  let av := fun i => (r.data.getD i 0).toNat
  let fa := (maFmt r.fmt).getD .e4m3
  let fw := (maFmt w.fmt).getD .e4m3
  let scaled := r.scaled || w.scaled
  let fin := fun (b : Nat) (p : FVal × Bool) =>
    if scaled then scaledTerm (scaleAt r.scaled r.scales b) (scaleAt w.scaled w.scales (128 * b + j)) p
    else (p.1, ({ inv := p.2 } : Flags))
  if r.fmt = 4 then
    let x := fa.decode (av (2 * k) + 256 * av (2 * k + 1))
    let y := fw.decode (wByte w (2 * k) j + 256 * wByte w (2 * k + 1) j)
    fin 0 (FVal.mul x y)
  else if r.fmt = 2 then
    let p := FVal.mul (fa.decode (av k % 16)) (fw.decode (wByte w k j % 16))
    let q := FVal.mul (fa.decode (av k / 16)) (fw.decode (wByte w k j / 16))
    fin (k / 16) ((FVal.add p.1 q.1).1, false)
  else fin (k / 32) (FVal.mul (fa.decode (av k)) (fw.decode (wByte w k j)))

/-- The indices of the terms that are not masked: all active ones, or the diagonal one (R101, R107). -/
def termIndices (w : WeightSet) (j : Nat) : List Nat :=
  let n := if w.fmt = 4 then w.depth / 2 else w.depth
  if w.diag then (if j < n then [j] else []) else List.range n

/-- The column sum c of R69, FP32 code and flags: from +0, one rounding per term, top to bottom. -/
def columnSum (r : FedRow) (j : Nat) : Nat × Flags :=
  (termIndices r.set j).foldl (fun (c, fl) k =>
    let (p, f1) := floatTerm r j k
    let (c', f2) := f32Round (FVal.add (f32 c) p)
    (c', (fl.or f1).or f2)) (0, Flags.none)

/-- The column sum of an INT8 pass, exact (R69). -/
def columnSumInt (r : FedRow) (j : Nat) : Int :=
  (termIndices r.set j).foldl (fun (c : Int) k =>
    c + signedN 8 (r.data.getD k 0).toNat * signedN 8 (wByte r.set k j)) 0

/-- What the output accumulator of column j writes for a row, where the destination holds d (R84): the 32-bit code and
flags. -/
def outputWord (r : FedRow) (j d : Nat) : Nat × Flags :=
  if r.masked then (0, Flags.none)
  else if r.fmt = 3 then
    let (v, o) := satInt 32 ((if r.acc then signedN 32 d else 0) + columnSumInt r j)
    (unsignedN 32 v, { ovf := o })
  else
    let (c, f1) := columnSum r j
    let (o, f2) := f32Add (if r.acc then d else 0) c
    (o, f1.or f2)

/-- The value written in place of an output lost to a parity error (R119). -/
def parityWord (r : FedRow) : Nat := if r.fmt = 3 then 0x80000000 else 0x7FC00000

/-- An array stopped by a poisoned destination line met by slot `slot` of pass `no`: that pass goes back to its first slot
and is fed again before any later one, and a later one that had begun to feed goes back to its own first slot. Rows of
earlier slots, and of what the later pass has fed, are still written (R180, R191). -/
def MArray.backToFirst (m : MArray) (no slot : Nat) : MArray :=
  let rows := m.rows.filter (fun r => !(r.pass == no && decide (slot ≤ r.slot)))
  match m.draining.find? (fun p => p.no == no) with
  | some p =>
    let begun := m.feeding.toList.map (fun f => if f.pos = 0 then f else { f with pos := 0, no := m.passes + 1 })
    { m with draining := m.draining.filter (fun x => x.no != no), rows := rows, passes := m.passes + 2,
             feeding := some { p with pos := 0, no := m.passes }, held := none, issued := begun ++ m.held.toList ++ m.issued }
  | none =>
    match m.feeding with
    | some p => { m with rows := rows, feeding := some { p with pos := 0, no := m.passes }, passes := m.passes + 1 }
    | none => { m with rows := rows }

/-- The row whose column is written next: the oldest with that column to write (R85: in queue order). -/
def MArray.nextRow (m : MArray) (col : Nat) : Option FedRow := m.rows.find? (fun r => r.todo.toNat.testBit col)

/-- Whether an earlier row still has to write the destination element of column `col` of a row, as another column: that
write comes first, whatever the offset between the two destinations (R85). -/
def MArray.earlierWrite (m : MArray) (r : FedRow) (col : Nat) : Bool :=
  (m.rows.takeWhile (fun x => !(x.pass == r.pass && x.slot == r.slot))).any (fun x =>
    decide (x.dest ≤ r.dest + 4 * col) && decide (r.dest + 4 * col < x.dest + 512) &&
      x.todo.toNat.testBit ((r.dest + 4 * col - x.dest) / 4))

/-- Hoisted columns of a destination line (16 columns). -/
def lineCols (cols : BitVec 128) (line : Nat) : List Nat :=
  ((List.range 16).map (fun i => 16 * line + i)).filter (fun j => cols.toNat.testBit j)

/-- Whether two rows are the same slot of the same pass. -/
def FedRow.same (x r : FedRow) : Bool := x.pass == r.pass && x.slot == r.slot

/-- A row of an array replaced. -/
def MArray.setRow (m : MArray) (r : FedRow) : MArray := { m with rows := m.rows.map (fun x => if x.same r then r else x) }

/-- What earlier rows of the array have computed for an address and not yet written, the newest (R85). -/
def MArray.ahead (m : MArray) (r : FedRow) (at_ : Nat) : Option Nat :=
  (m.rows.takeWhile (fun x => !x.same r)).foldl (fun v x =>
    match x.outs.find? (fun o => x.dest + 4 * o.1 == at_) with
    | some o => some o.2
    | none => v) none

/-- A destination element as a row's output path meets it (R84, R85): what it has read of the line before, else the value
that an earlier row is about to write, else memory's. -/
def State.destOf (s : State) (m : MArray) (r : FedRow) (col : Nat) : Nat :=
  match r.held.find? (fun h => h.1 == col) with
  | some h => h.2
  | none => (m.ahead r (r.dest + 4 * col)).getD (s.num (r.dest + 4 * col) 4)

/-- A row whose output path has read a destination line, once (R179). -/
def State.readDest (s : State) (m : MArray) (r : FedRow) (line : Nat) : FedRow :=
  if r.held.any (fun h => h.1 / 16 == line) then r
  else { r with held := r.held ++ (lineCols r.set.cols line).map (fun c => (c, s.destOf m r c)) }

/-- An output computed: its column is done, it waits for its line, and rows that have read the element before take the
new value (R85). -/
def MArray.computed (m : MArray) (r : FedRow) (col x : Nat) : MArray :=
  { m with rows := m.rows.map (fun y =>
      if y.same r then { r with todo := r.todo &&& ~~~ (BitVec.ofNat 128 (2 ^ col)), outs := r.outs ++ [(col, x)] }
      else { y with held := y.held.map (fun h => if y.dest + 4 * h.1 = r.dest + 4 * col then (h.1, x) else h) }) }

/-- Whether every output of the line of a column has been computed. -/
def FedRow.lineDone (r : FedRow) (col : Nat) : Bool := (lineCols r.set.cols (col / 16)).all (fun c => !r.todo.toNat.testBit c)

/-- The line of a column written where its last element is complete (R179); a row with nothing left to write leaves the
array. -/
def State.writeLine (s : State) (d : Fin 40) (a : Fin 4) (r : FedRow) (col : Nat) : State :=
  if r.lineDone col then
    let (mine, rest) := r.outs.partition (fun o => o.1 / 16 == col / 16)
    let t := mine.foldl (fun t o => t.putNum (r.dest + 4 * o.1) 4 o.2) s
    let t := if mine.length = 16 then t.coverLines (r.dest + 64 * (col / 16)) 64 else t
    let m := (t.ma d a).setRow { r with outs := rest }
    t.setMa d a { m with rows := m.rows.filter (fun x => x.todo != 0 || !x.outs.isEmpty) }
  else s

/-- What parity finds in a row before its column is written (R119): a weight register's error marks the column of that
weight set; a staggering register's error marks the row, and is found before the row's first output. -/
def MArray.parity (m : MArray) (r : FedRow) (col : Nat) : MaParity → MArray
  | .none => m
  | .weight => { m with bad := (r.setNo, col) :: m.bad }
  | .stagger =>
    if r.todo = r.set.cols then
      { m with rows := m.rows.map (fun (x : FedRow) => if x.pass = r.pass ∧ x.slot = r.slot then { x with stagger := true } else x) }
    else m

/-- A poisoned line met by the output path of a row: its pass stops with code 0x7 (R180). -/
def State.outPoison (s : State) (d : Fin 40) (a : Fin 4) (r : FedRow) : State :=
  let m := s.ma d a
  let e := match (m.draining ++ m.feeding.toList).find? (fun p => p.no == r.pass) with
    | some p => slotCmd p r.slot
    | none => UCmd.none
  let t := s.setCd d ((s.cd d).dropResv a)
  (((t.setMa d a (m.backToFirst r.pass r.slot)).passPoison d a e).maSync d a)

/-- The output of a row's column, computed 128 + j cycles after its feed (R84, R119). -/
def State.output (s : State) (d : Fin 40) (a : Fin 4) (r : FedRow) (col : Nat) (par : MaParity) : State :=
  let found := par = .weight ∨ (par = .stagger ∧ r.todo = r.set.cols)
  let m := (s.ma d a).parity r col par
  let r := (m.rows.find? (fun x => x.same r)).getD r
  let lost := r.stagger = true ∨ m.bad.contains (r.setNo, col) = true
  let (x, fl) := if lost ∧ r.masked = false then (parityWord r, Flags.none) else outputWord r col (s.destOf m r col)
  let m := m.computed r col x
  let t := (s.setMa d a m).writeLine d a ((m.rows.find? (fun y => y.same r)).getD r) col
  let t := t.maFlags d a fl
  let t := if found then
      (t.put (R.MA_STATUS d a) F.MA_STATUS_PARERR 1).raise 0x4241 d (some (t.cdCanton d)) (detail a 0 (t.rd (R.MA_FAULT d a)).toNat)
    else t
  t.maSync d a

/-- First hoisted column of the line of a column. -/
def FedRow.firstOf (r : FedRow) (col : Nat) : Nat := (lineCols r.set.cols (col / 16)).headD col

/-- MA_OUTPUT_WRITE (R82, R84, R119, R179): the output path of the oldest row with column j to write. In ACC mode its
destination line is read from 126 + f cycles after the feed on, f the line's first hoisted column; 128 + j cycles after
the feed the output is computed, and the line is written when its last element is complete. A parity error replaces
the output, whose flags are then not set (log 125), sets PARERR and raises 0x4241; the +0 of a masked slot is written all
the same (log 125). -/
def execMaOutputWrite (d : Fin 40) (a : Fin 4) (col : Fin 128) (par : MaParity) (s : State) : Out :=
  let m := s.ma d a
  match m.nextRow col with
  | none => .next s
  | some r =>
    let reads := r.acc && !r.masked
    let line := col.val / 16
    if s.dieOff d || decide (s.aclk < r.fed + 126 + r.firstOf col) then .next s
    else if reads && !r.held.any (fun h => h.1 / 16 == line) && s.poisoned (r.dest + 64 * line) 64 then .next (s.outPoison d a r)
    else
      let r := if reads then s.readDest m r line else r
      let t := if reads then s.setMa d a (m.setRow r) else s
      if s.aclk < r.fed + 128 + col.val ∨ m.earlierWrite r col.val = true then .next t else .next (t.output d a r col par)

/-- The first pass fed whole whose every write is made, if its last slot's time has passed (R82, R87). -/
def MArray.finished (m : MArray) (now : Nat) (batch : Bool) : Option Pass :=
  match m.draining with
  | [] => none
  | p :: _ =>
    if p.batch.isSome = batch ∧ !(m.rows.any (fun r => r.pass == p.no)) ∧ p.endAt + 256 ≤ now then some p else none

/-- The weight set in force again after a retried pass that had its own set hoisted (R191). -/
def State.afterRetry (s : State) (d : Fin 40) (m : MArray) (p : Pass) : MArray :=
  if p.own.isSome then { m with active := s.loadSet d m.actCmd, bad := m.bad.filter (fun b => b.1 != m.fronts) } else m

/-- MA_PASS_COMPLETE (R87): in the cycle after its last destination write a pass is complete and its SIG is due. -/
def execMaPassComplete (d : Fin 40) (a : Fin 4) (s : State) : Out :=
  let m := s.ma d a
  if s.dieOff d then .next s else
  match m.finished s.aclk false with
  | none => .next s
  | some p =>
    .next (((s.setMa d a (s.afterRetry d { m with draining := m.draining.tail } p)).complete d p.e).maSync d a)

/-- A side-table entry (R105). -/
def sideEntry (r : Option ReqRow) : Nat :=
  match r with
  | some r => r.rid % 65536 + r.row % 128 * 65536 + 2 ^ 31
  | none => 0

/-- MA_BATCH_COMPLETE (R105): after the batch's last write its side table stands and SIGCTR is incremented once. The side
table is written in this one step (log 125). -/
def execMaBatchComplete (d : Fin 40) (a : Fin 4) (s : State) : Out :=
  let m := s.ma d a
  if s.dieOff d then .next s else
  match m.finished s.aclk true with
  | none => .next s
  | some p =>
    let tab := (List.range 128).flatMap (fun i => leBytes 4 (sideEntry p.rows[i]?))
    let t := s.setMa d a (s.afterRetry d { m with draining := m.draining.tail } p)
    let t := t.storeWrite (lsBase d + p.table) tab
    let c := t.cd d
    .next ((t.setCd d { c with due := c.due ++ [(s.aclk + 1, p.batch.getD 0, 1)] }).maSync d a)

/-- MA_PERF_CLEAR (R122): every performance counter of the array reads 0, and what this cycle would count is lost. -/
def execMaPerfClear (d : Fin 40) (a : Fin 4) (s : State) : Out :=
  if s.dieOff d then .next s else
  .next ((s.setMa d a { s.ma d a with clrAt := s.aclk + 1 }).zeroRegs [R.MA_PERF_ACTIVE_LO d a, R.MA_PERF_ACTIVE_HI d a, R.MA_PERF_MAC_LO d a, R.MA_PERF_MAC_HI d a,
    R.MA_PERF_ILOCK d a, R.MA_PERF_HWAIT d a, R.MA_PERF_BUBBLE d a, R.MA_PERF_MASKED d a, R.MA_PERF_HUNUSED d a])

/-! ### Retry and discard after a stop (R191) -/

/-- The feeding pass discarded. -/
def MArray.dropFeeding (m : MArray) : MArray :=
  match m.held, m.issued with
  | some h, _ => { m with feeding := some h, held := none }
  | none, i :: is => { m with feeding := some i, issued := is }
  | none, [] => { m with feeding := none }

/-- The command of the weight set that a pass after `h` runs under once `h` is discarded: of the hoist before it. -/
def MArray.hoistBefore (m : MArray) (no : Nat) : Option Cmd :=
  match m.streaming with
  | some g => if g.no < no then some g.e.w else if m.fronts = 0 then none else some m.actCmd
  | none => if m.fronts = 0 then none else some m.actCmd

/-- A discarded hoist: it and everything after it count as if it had not been queued, so that the passes that would have
run under it run under the set before it (R95). -/
def MArray.dropHoist (m : MArray) (no : Nat) : MArray :=
  let before := m.hoistBefore no
  let low := fun (p : Pass) =>
    if p.hoist = no then { p with hoist := p.hoist - 1, hcmd := before.getD 0 }
    else if no < p.hoist then { p with hoist := p.hoist - 1 } else p
  { m with hoists := m.hoists - 1, feeding := m.feeding.map low, held := m.held.map low, issued := m.issued.map low,
           waiting := m.waiting.map (fun h => if no < h.no then { h with no := h.no - 1 } else h),
           lastHoist := if m.hoists = no then before else m.lastHoist }

/-- RESUME of an array stopped by command `seq` (R191): a stopped pass is fed again from its first slot; where a later
front has started it runs under its own weight set, hoisted again from the same HOIST fields. A stopped hoist is streamed
from its first row. -/
def State.maResume (s : State) (d : Fin 40) (a : Fin 4) (seq : Nat) : State :=
  let m := s.ma d a
  if m.stopPass.any (fun e => e.seq == seq) then
    let m := { m with stopPass := none }
    match m.feeding with
    | some p =>
      if p.pos = 0 ∧ p.hoist < m.fronts then
        s.setMa d a { m with feeding := some { p with own := some (s.loadSet d p.hcmd) }, bad := m.bad.filter (fun b => b.1 != p.hoist) }
      else s.setMa d a m
    | none => s.setMa d a m
  else if m.stopHoist.any (fun e => e.seq == seq) then
    let again := fun (h : Hoist) => if h.e.seq = seq then { h with rows := [], scales := [], paused := 0, rowAt := 0 } else h
    s.setMa d a { m with stopHoist := none, streaming := m.streaming.map again, waiting := m.waiting.map again }
  else s

/-- A command that waits in a unit's FIFO taken out, by its place in the dispatch order. -/
def State.dropSeq (s : State) (d : Fin 40) (u : Fin 8) (seq : Nat) : State :=
  s.setCd d ((s.cd d).setFifo u (((s.cd d).fifo u).filter (fun e => e.seq != seq)))

/-- RESUME with SKIP of an array stopped by command `seq` (R191): the stopped pass, the stopped hoist or the command in the
FIFO is discarded. -/
def State.maSkip (s : State) (d : Fin 40) (a : Fin 4) (seq : Nat) : State :=
  let m := s.ma d a
  if m.stopPass.any (fun e => e.seq == seq) then s.setMa d a { m.dropFeeding with stopPass := none }
  else if m.stopHoist.any (fun e => e.seq == seq) then
    match m.streaming, m.waiting with
    | some g, w =>
      if g.e.seq = seq then s.setMa d a { (m.dropHoist g.no) with streaming := none, stopHoist := none }
      else match w with
        | some h => s.setMa d a { (m.dropHoist h.no) with waiting := none, stopHoist := none }
        | none => s
    | none, some h => s.setMa d a { (m.dropHoist h.no) with waiting := none, stopHoist := none }
    | none, none => s
  else s.dropSeq d (maUnit a) seq

end Sys2Proof.Machine
end

