-- ==== Sys2Proof/Machine/Flags.lean ====
section
/-! DEFINITION. Arithmetic flags of the vector engine (R67, R136, R156, R159). -/
namespace Sys2Proof.Machine

/-- The six flags as bits [13:8] of VE_STATUS: INV, DZ, OVF, UNF, EMPTY, PARERR. -/
def flagBits (f : Flags) : Nat :=
  f.inv.toNat + 2 * f.dz.toNat + 4 * f.ovf.toNat + 8 * f.unf.toNat + 16 * f.emp.toNat + 32 * f.par.toNat

/-- Bits [13:8] of VE_STATUS. -/
def veFlagField : Fld := (13, 8)

/-- Flags gathered into VE_STATUS: each stays set until software clears it (R67). -/
def State.veFlags (s : State) (d : Fin 40) (f : Flags) : State :=
  s.put (R.VE_STATUS d) veFlagField (s.get (R.VE_STATUS d) veFlagField ||| flagBits f)

/-- A register parity error met by an instruction (R156): PARERR and event 0x4251. -/
def State.veParity (s : State) (d : Fin 40) (met : Bool) : State :=
  if met then (s.veFlags d { par := true }).raise 0x4251 d (some (s.cdCanton d)) (detail 0 0 0) else s

end Sys2Proof.Machine
end

