-- ==== Sys2Proof/Machine/Vector.lean ====
section
/-! DEFINITION. The vector engine of a compute die (04_vector_engine.md, R123-R159; R71-R74 for reductions). -/
namespace Sys2Proof.Machine

/-! ### Fields of layouts E, R and T (R131, R134, R135) -/

/-- N of layouts E and R. -/
def eN (w : Cmd) : Nat := cbits w 28 16 + 1
/-- SRCF. -/
def eSrc (w : Cmd) : Nat := cbits w 32 29
/-- DSTF. -/
def eDst (w : Cmd) : Nat := cbits w 36 33
/-- OPA. -/
def eA (w : Cmd) : Opnd := opnd (cbits w 57 37)
/-- OPB. -/
def eB (w : Cmd) : Opnd := opnd (cbits w 78 58)
/-- OPC. -/
def eC (w : Cmd) : Opnd := opnd (cbits w 99 79)
/-- OPD. -/
def eD (w : Cmd) : Opnd := opnd (cbits w 120 100)
/-- MSEL. -/
def eMsel (w : Cmd) : Nat := cbits w 123 121
/-- MASKEN. -/
def eMasken (w : Cmd) : Bool := cbit w 124
/-- MPOL. -/
def eMpol (w : Cmd) : Bool := cbit w 125
/-- SR of layout E. -/
def eSr (w : Cmd) : Bool := cbit w 126
/-- SATE5 of layout E. -/
def eSat5 (w : Cmd) : Bool := cbit w 127
/-- AXIS of layout R. -/
def rAxis (w : Cmd) : Nat := cbits w 59 58

/-- Opcodes with layout R. -/
def isRed (op : Nat) : Bool := decide (0x30 ≤ op) && decide (op ≤ 0x36)
/-- Index reductions. -/
def isIdx (op : Nat) : Bool := op == 0x35 || op == 0x36
/-- Comparisons. -/
def isCmp (op : Nat) : Bool := decide (0x18 ≤ op) && decide (op ≤ 0x1B)
/-- Estimates. -/
def isEst (op : Nat) : Bool := decide (0x20 ≤ op) && decide (op ≤ 0x22)
/-- VMLOAD, VMSTORE and VMOP. -/
def isMaskOp (op : Nat) : Bool := decide (0x44 ≤ op) && decide (op ≤ 0x46)
/-- The opcodes of R130. -/
def veOpcode (op : Nat) : Bool :=
  (decide (0x10 ≤ op) && decide (op ≤ 0x1E)) || isEst op || isRed op || (decide (0x40 ≤ op) && decide (op ≤ 0x47))

/-- Results of a reduction (R147). -/
def redCount (w : Cmd) : Nat := if rAxis w = 1 then eN w / 64 else if rAxis w = 2 then 64 else 1

/-- Results an instruction of layout E or R writes. -/
def resultCount (op : Nat) (w : Cmd) : Nat := if isRed op then redCount w else eN w

/-! ### Refusals (R155) -/

/-- Operand roles of R133. -/
inductive Role | val | dest | stream | maskR | none | scale (used : Bool)
  deriving DecidableEq, Repr

/-- Whether an operand's kind is allowed in a role. -/
def roleOk (r : Role) (o : Opnd) : Bool :=
  match r, o with
  | .val, .stream _ => true | .val, .tile _ => true | .val, .scalar _ => true
  | .dest, .stream _ => true | .dest, .tile _ => true | .dest, .scalar _ => true
  | .stream, .stream _ => true
  | .maskR, .mask _ => true
  | .none, .none => true
  | .scale true, .stream _ => true
  | .scale false, .none => true
  | _, _ => false

/-- The roles of OPA, OPB, OPC and OPD (R133, R139, R140, R147). -/
def rolesOf (op : Nat) (w : Cmd) : Role × Role × Role × Role :=
  if op = 0x13 ∨ op = 0x14 then (.val, .val, .val, .dest)
  else if op = 0x17 then (.val, .val, .maskR, .dest)
  else if isCmp op then (.val, .val, .none, .maskR)
  else if op = 0x1C then (.val, .none, .dest, .dest)
  else if op = 0x1D then (.val, .val, .none, .dest)
  else if op = 0x1E then (.val, .scale (vScaled (eSrc w)), .scale (vScaled (eDst w)), .dest)
  else if isEst op then (.val, .none, .none, .dest)
  else if op = 0x44 then (.stream, .none, .none, .maskR)
  else if op = 0x45 then (.maskR, .none, .none, .stream)
  else if op = 0x46 then (.maskR, (if 4 ≤ eSrc w ∧ eSrc w ≤ 6 then .none else .maskR), .none, .maskR)
  else (.val, .val, .none, .dest)

/-- Format of arithmetic: float and integer source formats. -/
def srcOk (f : Nat) : Bool := decide (f ≤ 4)
/-- Destination formats of a domain (R137). -/
def dstOk (src dst : Nat) : Bool :=
  if vInt src then vInt dst else dst == 0 || dst == 1 || dst == 2 || dst == 5 || dst == 6 || dst == 7

/-- Refusal 0x2 of layouts E and R; the SRCF of a VMOP is a function, not a format. -/
def formatBad (op : Nat) (w : Cmd) : Bool :=
  let s := eSrc w
  let f := eDst w
  if op = 0x46 then vReserved f
  else if vReserved s || vReserved f then true
  else if isMaskOp op then false
  else if op = 0x1E then false
  else if isCmp op then !srcOk s
  else if isIdx op then !srcOk s || f != 3
  else if op = 0x1C || op = 0x1D || isEst op then !(decide (s ≤ 2)) || !dstOk s f
  else !srcOk s || !dstOk s f

/-- Format in which OPC is written or OPB is read, where it is no SRCF operand: INT32 exponents, E8M0 scales. -/
def auxFmt (op : Nat) : Nat := if op = 0x1E then 8 else 3

/-- Ranges of the operands of layouts E and R: sources and destinations (R125, R150). -/
def eSpans (op : Nat) (w : Cmd) : List Span × List Span :=
  let n := eN w
  let bits := fun (o : Opnd) => match o with
    | .stream a => Span.ls a ((n + 7) / 8) 1
    | _ => Span.none
  if isRed op then ([spanOf (eA w) (eSrc w) n], [spanOf (eD w) (if isIdx op then 3 else eDst w) (redCount w)])
  else if op = 0x44 then ([bits (eA w)], [])
  else if op = 0x45 then ([], [bits (eD w)])
  else if op = 0x46 then ([], [])
  else if op = 0x1E then
    ([spanOf (eA w) (eSrc w) n, spanOf (eB w) 8 ((n + 31) / 32)],
     [spanOf (eD w) (eDst w) n, spanOf (eC w) 8 ((n + 31) / 32)])
  else if op = 0x1C then ([spanOf (eA w) (eSrc w) n], [spanOf (eD w) (eDst w) n, spanOf (eC w) 3 n])
  else if op = 0x1D then ([spanOf (eA w) (eSrc w) n, spanOf (eB w) 3 n], [spanOf (eD w) (eDst w) n])
  else ([spanOf (eA w) (eSrc w) n, spanOf (eB w) (eSrc w) n, spanOf (eC w) (eSrc w) n],
        [spanOf (eD w) (eDst w) n])

/-- Whether an operand is a scalar. -/
def isScalar (o : Opnd) : Bool := match o with | .scalar _ => true | _ => false
/-- Whether an operand is a tile operand. -/
def isTile (o : Opnd) : Bool := match o with | .tile _ => true | _ => false
/-- Whether an operand is a stream. -/
def isStream (o : Opnd) : Bool := match o with | .stream _ => true | _ => false

/-- The cause of a refusal of an instruction of layout E or R. A destination of VCVT that overlaps its own scales is none
(the model's choice, log 127). -/
def eCause (op : Nat) (w : Cmd) : Option Nat :=
  let (ra, rb, rc, rd) := rolesOf op w
  let red := isRed op
  let (srcs, dsts) := eSpans op w
  let all := srcs ++ dsts
  let kindBad := !roleOk ra (eA w) || !roleOk rd (eD w) || (!red && (!roleOk rb (eB w) || !roleOk rc (eC w))) ||
    (op == 0x1E && !isStream (eA w) && !(eSrc w == 0 || eSrc w == 3)) ||
    (op == 0x1E && (vScaled (eDst w) || eDst w == 8) && !isStream (eD w)) ||
    (red && (if rAxis w = 1 ∨ rAxis w = 2 then !isTile (eA w) else isScalar (eA w)))
  let spanBad := red && ((rAxis w == 1 && (match eA w with | .tile k => k % 4096 % 64 != 0 | _ => false)) ||
    (rAxis w == 1 && eN w % 64 != 0) ||
    (rAxis w == 2 && ((match eA w with | .tile k => k % 4096 != 0 | _ => false) || eN w != 4096)))
  firstCause
    [(2, formatBad op w),
     (3, kindBad),
     (4, all.any (fun x => (spanFault x).1)),
     (5, all.any (fun x => (spanFault x).2) || spanBad),
     (6, dsts.any (fun x => srcs.any (fun y => spanClash x y)) || (op == 0x1C && spanMeet (dsts.getD 0 .none) (dsts.getD 1 .none)) ||
         (op == 0x1C && isScalar (eD w) && eD w == eC w)),
     (7, (isScalar (eD w) && resultCount op w != 1) || (op == 0x1C && isScalar (eC w) && eN w != 1)),
     (8, (eSr w && op != 0x1E) || (eSat5 w && (red || isCmp op || isMaskOp op))),
     (9, opndReserved (cbits w 57 37) || opndReserved (cbits w 120 100) ||
         (!red && (opndReserved (cbits w 78 58) || opndReserved (cbits w 99 79))) ||
         (red && (rAxis w == 3 || cbits w 78 60 != 0 || cbits w 99 79 != 0 || eMpol w)) ||
         (isMaskOp op && (eMasken w || eMpol w)) || (op == 0x46 && decide (7 ≤ eSrc w)))]

/-- The cause of a refusal of VTLOAD or VTSTORE (R135). -/
def tCause (op : Nat) (w : Cmd) : Option Nat :=
  let rows := cbits w 21 16 + 1
  let cols := cbits w 27 22 + 1
  let f := cbits w 83 80
  let (tr, tc) := if cbit w 86 then (cols, rows) else (rows, cols)
  firstCause
    [(2, decide (8 ≤ f)),
     (4, !inStore lsBytes (cbits w 47 28 * 64 + (rows - 1) * cbits w 63 48 * 64) (streamLen f cols)),
     (5, decide (64 < cbits w 73 68 + tr) || decide (64 < cbits w 79 74 + tc)),
     (8, op == 0x40 && (cbit w 84 || cbit w 85)),
     (9, cbits w 127 87 != 0)]

/-- The cause of a refusal of a vector-engine instruction (R155): the lowest that holds. -/
def veCause (w : Cmd) : Option Nat :=
  let op := opcodeOf w
  if !veOpcode op then some 1
  else if op = 0x40 ∨ op = 0x41 then tCause op w
  else if op = 0x42 then (if cbits w 127 24 ≠ 0 then some 9 else none)
  else if op = 0x43 then (if cbits w 127 52 ≠ 0 then some 9 else none)
  else if op = 0x47 then (if cbits w 127 21 ≠ 0 then some 9 else none)
  else eCause op w

/-! ### Rounding to a destination format (R58-R60, R141) -/

/-- E8M0 code of a value (R141). -/
def e8m0Of (v : FVal) : Nat × Flags :=
  match v with
  | .fin _ m _ =>
    if m = 0 then (0, { unf := true })
    else
      let b := v.log2 + 127
      if b < 0 then (0, { unf := true }) else if 0xFE < b then (0xFE, { ovf := true }) else (b.toNat, Flags.none)
  | _ => (0xFF, Flags.none)

/-- A value rounded once to an unscaled format of R132: the code and flags. -/
def roundTo (fmt : Nat) (sat5 : Bool) (mode : Rnd) (v : Val) : Nat × Flags :=
  if vInt fmt then
    match v with
    | .i n => let (r, o) := satInt (vBits fmt) n; (unsignedN (vBits fmt) r, { ovf := o })
    | .f x => let (r, fl) := roundInt (vBits fmt) mode x; (unsignedN (vBits fmt) r, fl)
  else if fmt = 8 then e8m0Of v.float
  else match vNFmt fmt with
    | some f => f.round sat5 mode v.float
    | none => (0, Flags.none)

/-! ### Estimates (R143-R145) -/

/-- num / den rounded to the nearest integer, ties to even. -/
def rneDiv (num den : Nat) : Nat :=
  let k := num / den
  let r := num % den
  if den < 2 * r ∨ (2 * r = den ∧ k % 2 = 1) then k + 1 else k

/-- The reciprocal estimate of a finite nonzero value (R143). -/
def rcpE (s : Bool) (m : Nat) (e : Int) : FVal :=
  let l := log2N m
  let t := (m - 2 ^ l) * 2 ^ 12 / 2 ^ l
  .fin s (rneDiv (2 ^ 25) (2 ^ 13 + 2 * t + 1)) (-12 - (e + (l : Int)))

/-- The reciprocal-square-root estimate of a positive finite value (R144). -/
def rsqE (m : Nat) (e : Int) : FVal :=
  let l := log2N m
  let ex := e + (l : Int)
  let odd := ex % 2 != 0
  let e' := if odd then ex - 1 else ex
  let f := (if odd then 2 * m else m) * 2 ^ 11 / 2 ^ l
  let n := 2 * f + 1
  let r0 := isqrt (2 ^ 38 / n)
  let r := if n * (2 * r0 + 1) * (2 * r0 + 1) < 2 ^ 40 then r0 + 1 else r0
  .fin false r (-13 - e' / 2)

/-- The largest r with r^2048 ≤ lim, by bits. -/
def root2048 (lim : Nat) : Nat → Nat → Nat
  | 0, r => r
  | k + 1, r => if (r + 2 ^ k) ^ 2048 ≤ lim then root2048 lim k (r + 2 ^ k) else root2048 lim k r

/-- 2^(g/2048) as a dyadic value with a sticky last bit: 30 bits decide every rounding of the module's formats. -/
def exp2Dyadic (g : Int) : FVal :=
  let i := min (max (g / 2048) (-4096)) 4096
  let j := (g % 2048).toNat
  if j = 0 then .fin false 1 i
  else .fin false (2 * root2048 (2 ^ (j + 30 * 2048)) 31 0 + 1) (i - 31)

/-- x to the nearest multiple of 2^−11, ties to even, times 2^11 (R145); large magnitudes are held at ±2^30, where the
result is already beyond every format. -/
def exp2Arg (s : Bool) (m : Nat) (e : Int) : Int :=
  let big : Bool := decide (20 < (log2N m : Int) + e)
  let k : Int := if big ∧ m ≠ 0 then 2 ^ 30 else (roundNatMag .rne m (max (e + 11) (-2000)) : Nat)
  if s then -k else k

/-- An estimate of a decoded input: the value to round, or a finished result with DZ (R143-R145). -/
def estimate (op dst : Nat) (sat5 : Bool) (x : FVal) : Nat × Flags :=
  let fmt := (vNFmt dst).getD .fp32
  let out := fun (v : FVal) => fmt.round sat5 .rne v
  let infDz := fun (s : Bool) => let (c, fl) := fmt.infResult sat5 s; (c, { fl with dz := true })
  match x with
  | .nan => out .nan
  | .inf s =>
    if op = 0x20 then out (.fin s 0 0)
    else if op = 0x21 then (if s then ((out .nan).1, { (out .nan).2 with inv := true }) else out (.fin false 0 0))
    else (if s then out (.fin false 0 0) else out (.inf false))
  | .fin s m e =>
    if op = 0x22 then out (exp2Dyadic (exp2Arg s m e))
    else if m = 0 then infDz s
    else if op = 0x20 then out (rcpE s m e)
    else if s then ((out .nan).1, { (out .nan).2 with inv := true })
    else out (rsqE m e)

/-! ### Element-wise operations (R137, R138) -/

/-- The value before rounding of an arithmetic instruction, with its invalid flag (R137). -/
def arith (op : Nat) (a b c : Val) (sel : Bool) : Val × Bool :=
  match a, b with
  | .i x, _ =>
    let y := b.int
    let z := c.int
    let r : Int :=
      if op = 0x10 then x + y else if op = 0x11 then x - y else if op = 0x12 then x * y
      else if op = 0x13 then x * y + z else if op = 0x14 then z - x * y
      else if op = 0x15 then min x y else if op = 0x16 then max x y
      else (if sel then x else y)
    (.i r, false)
  | .f x, _ =>
    let y := b.float
    let z := c.float
    let r : FVal × Bool :=
      if op = 0x10 then FVal.add x y else if op = 0x11 then FVal.add x y.neg else if op = 0x12 then FVal.mul x y
      else if op = 0x13 then FVal.fma x y z else if op = 0x14 then FVal.fma x.neg y z
      else if op = 0x15 then (FVal.min x y, false) else if op = 0x16 then (FVal.max x y, false)
      else (if sel then x else y, false)
    (.f r.1, r.2)

/-- A comparison (R137). -/
def compare (op : Nat) (a b : Val) : Bool :=
  match a, b with
  | .i x, .i y =>
    if op = 0x18 then decide (x = y) else if op = 0x19 then decide (x < y) else if op = 0x1A then decide (x ≤ y) else false
  | _, _ =>
    let x := a.float
    let y := b.float
    if op = 0x18 then FVal.eq x y else if op = 0x19 then FVal.lt x y
    else if op = 0x1A then FVal.lt x y || FVal.eq x y else x.isNaN || y.isNaN

/-- VSPLIT: the significand and the exponent of a value (R138). -/
def splitVal (x : FVal) : FVal × Int :=
  match x with
  | .fin s m e => if m = 0 then (.fin s 0 0, 0) else (.fin s m (-(log2N m : Int)), e + (log2N m : Int))
  | v => (v, 0)

/-- Whether element k is active (R129). -/
def State.active (s : State) (d : Fin 40) (bad : List VeBad) (w : Cmd) (k : Nat) : Bool :=
  !eMasken w || maskBitOf (s.ve d) bad (eMsel w) k

/-- The result of element k where it is inactive: left alone (KEEP) or +0 (ZERO). -/
def inactive (w : Cmd) : Option Nat := if eMpol w then some 0 else none

/-- Draws for elements 0 to n−1 from the generators of a vector engine (R63, R64): each group of four lanes with an
active element advances its generator once per beat. -/
def drawAll (gens : Vector (BitVec 64) 128) (act : Nat → Bool) (n : Nat) : Vector (BitVec 64) 128 × List Nat :=
  (List.range ((n + 3) / 4)).foldl (fun (acc : Vector (BitVec 64) 128 × List Nat) c =>
    let g := c % 128
    let used := (List.range 4).any (fun i => decide (4 * c + i < n) && act (4 * c + i))
    if used then
      let st := genAdvance (acc.1.getD g 0)
      (acc.1.setIfInBounds g st, acc.2 ++ [genDraw st 0, genDraw st 1, genDraw st 2, genDraw st 3])
    else (acc.1, acc.2 ++ [0, 0, 0, 0])) (gens, [])

/-- Offset of the first poisoned line of a range of local store, in bytes from its start. -/
def State.firstPoison (s : State) (a n : Nat) : Option Nat :=
  ((List.range ((a + n + 63) / 64 - a / 64)).find? (fun i => Sparse.get (fun _ => false) s.poison (a / 64 + i))).map
    (fun i => (a / 64 + i) * 64 - a)

/-- Elements of one beat (R123, R152): 1,024 on the BF16 path, where every value operand is a BF16 stream or a scalar and
DSTF is BF16; else 512. -/
def veBeat (w : Cmd) : Nat :=
  let op := opcodeOf w
  let ok := fun (o : Opnd) => isScalar o || (isStream o && eSrc w == 1)
  if 0x10 ≤ op ∧ op ≤ 0x17 ∧ eDst w = 1 ∧ ok (eA w) = true ∧ ok (eB w) = true ∧
      ((op = 0x13 ∨ op = 0x14) → ok (eC w) = true) then 1024 else 512

/-- Elements done before the first beat that reads a poisoned line of a source (R180): whole beats. -/
def State.cleanElems (s : State) (d : Fin 40) (spans : List Span) (beat n : Nat) : Nat :=
  spans.foldl (fun k sp =>
    match sp with
    | .ls a len width =>
      match s.firstPoison (lsBase d + a) len with
      | some off => min k (off * 8 / (if width = 0 then 1 else width) / beat * beat)
      | none => k
    | _ => k) n

/-- The first of N elements of `bits` bits of a stream at an MPA whose write is merged into a poisoned word (R179): it is
written, another element of its word is not, and the word's line is poisoned. `wr`: which elements are written. -/
def State.mergeStop (s : State) (a bits n : Nat) (wr : Nat → Bool) : Option Nat :=
  let per := 32 / (if bits = 0 then 32 else bits)
  (List.range n).find? (fun k =>
    wr k && (List.range per).any (fun i => decide (n ≤ k / per * per + i) || !wr (k / per * per + i)) &&
      s.poisoned (a + 4 * (k / per)) 4)

/-- Elements done before the first beat that merges an element into a poisoned word of a stream destination. -/
def State.cleanDest (s : State) (d : Fin 40) (o : Opnd) (fmt beat n : Nat) (wr : Nat → Bool) : Nat :=
  match o with
  | .stream a => (match s.mergeStop (lsBase d + a) (vBits fmt) n wr with | some k => k / beat * beat | none => n)
  | _ => n

/-- The poison marks after a stream destination is written whole (R180). -/
def State.coverDest (s : State) (d : Fin 40) (o : Opnd) (fmt n : Nat) : State :=
  match o with
  | .stream a => s.coverLines (lsBase d + a) (streamLen fmt n)
  | _ => s

/-- Flags of the active elements. -/
def allFlags (l : List (Option (Nat × Flags))) : Flags :=
  l.foldl (fun f x => match x with | some (_, g) => f.or g | none => f) Flags.none

/-- Codes to write for the elements 0 to n−1: the results of active ones, MPOL for the others. -/
def destCodes (w : Cmd) (l : List (Option (Nat × Flags))) : List (Option Nat) :=
  l.map (fun x => match x with | some (c, _) => some c | none => inactive w)

/-- A destination written with the results of n elements (R127-R129) and the flags set. -/
def State.writeResults (s : State) (d : Fin 40) (w : Cmd) (o : Opnd) (fmt : Nat) (l : List (Option (Nat × Flags))) : State :=
  let t := s.writeElems d o fmt 0 (destCodes w l)
  let t := if (destCodes w l).all Option.isSome then t.coverDest d o fmt l.length else t
  t.veFlags d (allFlags l)

/-- Element-wise arithmetic, selection, scaling and estimates on elements 0 to n−1. -/
def State.veElem (s : State) (d : Fin 40) (bad : List VeBad) (w : Cmd) (n : Nat) : State :=
  let op := opcodeOf w
  let f := eSrc w
  let one := fun (k : Nat) =>
    let a := s.readElem d bad (eA w) f k
    if isEst op then estimate op (eDst w) (eSat5 w) a.float
    else if op = 0x1D then
      let b := (s.readElem d bad (eB w) 3 k).int
      roundTo (eDst w) (eSat5 w) .rne (.f (a.float.scale2 (min (max b (-4096)) 4096)))
    else
      let b := s.readElem d bad (eB w) f k
      let c := s.readElem d bad (eC w) f k
      let sel := match eC w with | .mask v => maskBitOf (s.ve d) bad v k | _ => false
      let (v, inv) := arith op a b c sel
      let (r, fl) := roundTo (eDst w) (eSat5 w) .rne v
      (r, { fl with inv := fl.inv || inv })
  let l := (List.range n).map (fun k => if s.active d bad w k then some (one k) else none)
  s.writeResults d w (eD w) (eDst w) l

/-- VSPLIT (R138): both destinations, no flag. -/
def State.veSplit (s : State) (d : Fin 40) (bad : List VeBad) (w : Cmd) (n : Nat) : State :=
  let parts := (List.range n).map (fun k =>
    if s.active d bad w k then some (splitVal (s.readElem d bad (eA w) (eSrc w) k).float) else none)
  let m := parts.map (fun p => p.map (fun q => ((roundTo (eDst w) (eSat5 w) .rne (.f q.1)).1, Flags.none)))
  let e := parts.map (fun p => p.map (fun q => (unsignedN 32 q.2, Flags.none)))
  (s.writeResults d w (eD w) (eDst w) m).writeResults d w (eC w) 3 e

/-- Comparisons: a mask destination (R137). -/
def State.veCmp (s : State) (d : Fin 40) (bad : List VeBad) (w : Cmd) (n : Nat) : State :=
  let l := (List.range n).map (fun k =>
    if s.active d bad w k then
      some (compare (opcodeOf w) (s.readElem d bad (eA w) (eSrc w) k) (s.readElem d bad (eB w) (eSrc w) k))
    else if eMpol w then some false else none)
  match eD w with
  | .mask v => s.writeMask d v 0 l
  | _ => s

/-! ### Conversion (R140-R142) -/

/-- Element k of VCVT's source as a value, scaled where SRCF is. -/
def State.cvtSource (s : State) (d : Fin 40) (bad : List VeBad) (w : Cmd) (k : Nat) : Val :=
  let f := eSrc w
  if vScaled f then
    match eA w, eB w with
    | .stream a, .stream b =>
      .f (scaledValue ((vNFmt f).getD .e4m3) (s.byte (lsBase d + b + k / 32)).toNat (s.elemAt (lsBase d + a) (vBits f) k))
    | _, _ => .f .nan
  else if f = 8 then
    match eA w with
    | .stream a =>
      let b := (s.byte (lsBase d + a + k)).toNat
      .f (if b = 0xFF then .nan else .fin false 1 ((b : Int) - 127))
    | _ => .f .nan
  else s.readElem d bad (eA w) f k

/-- VCVT of one element to an unscaled destination; E8M0 to an integer is B − 127 (R141). -/
def cvtOne (src dst : Nat) (sat5 : Bool) (mode : Rnd) (v : Val) : Nat × Flags :=
  if src = 8 ∧ vInt dst = true then
    match v with
    | .f (.fin _ _ e) => roundTo dst sat5 mode (.i e)
    | _ => (0, { inv := true })
  else roundTo dst sat5 mode v

/-- VCVT on elements 0 to n−1. With SR every group of active elements draws, also those that no rounding is left for (R64;
the model's choice, log 127). The elements that a last block lacks are not written (R128 before R56; DEDUCED: log 127). -/
def State.veCvt (s : State) (d : Fin 40) (bad : List VeBad) (w : Cmd) (n : Nat) : State :=
  let act := fun k => s.active d bad w k
  let draws := if eSr w ∧ eDst w ≠ 8 then drawAll (s.ve d).gens act n else ((s.ve d).gens, [])
  let mode := fun (k : Nat) => if eSr w then Rnd.sr (draws.2.getD k 0) else Rnd.rne
  let vals := (List.range n).map (fun k => s.cvtSource d bad w k)
  let s1 := s.setVe d { s.ve d with gens := draws.1 }
  if vScaled (eDst w) then
    let f := (vNFmt (eDst w)).getD .e4m3
    let scales := (List.range ((n + 31) / 32)).map (fun i =>
      let ks := (List.range 32).filter (fun j => decide (32 * i + j < n) && act (32 * i + j))
      if ks.isEmpty then 0x7F else blockScale f (ks.map (fun j => (vals.getD (32 * i + j) (.f .nan)).float)))
    let l := (List.range n).map (fun k =>
      if act k then some (blockElem f (mode k) (scales.getD (k / 32) 0x7F) (vals.getD k (.f .nan)).float) else none)
    let t := s1.writeResults d w (eD w) (eDst w) l
    let t := t.writeElems d (eC w) 8 0 (scales.map some)
    t.coverDest d (eC w) 8 scales.length
  else
    let l := (List.range n).map (fun k =>
      if act k then some (cvtOne (eSrc w) (eDst w) (eSat5 w) (mode k) (vals.getD k (.f .nan))) else none)
    s1.writeResults d w (eD w) (eDst w) l

/-! ### Reductions (R71-R74, R147, R148) -/

/-- One level of the tree: results 2t and 2t + 1 combined (R71). -/
def pairUp (op : Option Nat → Option Nat → Option Nat × Flags) : List (Option Nat) → List (Option Nat) × Flags
  | a :: b :: l =>
    let (r, f) := op a b
    let (rs, g) := pairUp op l
    (r :: rs, f.or g)
  | l => (l, Flags.none)

/-- `k` levels of the tree. -/
def treeUp (op : Option Nat → Option Nat → Option Nat × Flags) : Nat → List (Option Nat) → List (Option Nat) × Flags
  | 0, l => (l, Flags.none)
  | k + 1, l =>
    let (l1, f) := pairUp op l
    let (l2, g) := treeUp op k l1
    (l2, f.or g)

/-- One FP32 combination of a sum (0x30, 0x34) or a product (0x31); an absent side passes the other. -/
def redOp (op : Nat) (a b : Option Nat) : Option Nat × Flags :=
  match a, b with
  | some x, some y => let (r, f) := if op = 0x31 then f32Mul x y else f32Add x y; (some r, f)
  | some x, none => (some x, Flags.none)
  | none, y => (y, Flags.none)

/-- The sum or product of a list of elements (absent where masked), in FP32 and in the order of R71: 512 lanes from the
identity and nine levels for a stream, six levels for a tile row or column. -/
def redFloat (op : Nat) (stream : Bool) (l : List (Option Nat)) : Nat × Flags :=
  let ident := if op = 0x31 then 0x3F800000 else 0
  if stream then
    let lanes := (List.range 512).map (fun lane =>
      (List.range ((l.length + 511) / 512)).foldl (fun (acc : Nat × Flags) b =>
        match (l.getD (512 * b + lane) none) with
        | some x => let (r, f) := redOp op (some acc.1) (some x); (r.getD 0, acc.2.or f)
        | none => acc) (ident, Flags.none))
    let fl := lanes.foldl (fun f p => f.or p.2) Flags.none
    let (r, g) := treeUp (redOp op) 9 (lanes.map (fun p => some p.1))
    ((r.getD 0 none).getD ident, fl.or g)
  else
    let (r, g) := treeUp (redOp op) 6 l
    ((r.getD 0 none).getD ident, g)

/-- Index of the selected element among present ones: a NaN first of all, ties to the lowest (R73). -/
def redIndex (max : Bool) (l : List (Nat × Val)) : Nat :=
  match l.find? (fun p => p.2.float.isNaN) with
  | some p => p.1
  | none =>
    match l with
    | [] => 0
    | p :: ps =>
      (ps.foldl (fun (b : Nat × Val) q =>
        let better := match q.2, b.2 with
          | .i x, .i y => if max then decide (y < x) else decide (x < y)
          | _, _ => if max then FVal.below b.2.float q.2.float else FVal.below q.2.float b.2.float
        if better then q else b) p).1

/-- Identity of an empty reduction in the destination format (R74). -/
def emptyIdentity (op dst : Nat) : Nat :=
  if isIdx op then 0xFFFFFFFF
  else if op = 0x30 ∨ op = 0x34 then 0
  else if op = 0x31 then (if vInt dst then 1 else ((vNFmt dst).getD .fp32).rne (.fin false 1 0))
  else
    let neg := op = 0x32
    if vInt dst then (if neg then 2 ^ (vBits dst - 1) else 2 ^ (vBits dst - 1) - 1)
    else (((vNFmt dst).getD .fp32).infResult false (decide neg)).1

/-- Nearest integer of a quotient, ties to even. -/
def divRne (a : Int) (n : Nat) : Int := if a < 0 then -(rneDiv a.natAbs n : Nat) else (rneDiv a.natAbs n : Nat)

/-- One reduction over the elements `l` (place and value, absent where masked) (R147, R148). -/
def reduce (op dst : Nat) (stream : Bool) (l : List (Nat × Option Val)) : Nat × Flags :=
  let present := l.filterMap (fun p => p.2.map (fun v => (p.1, v)))
  match present with
  | [] => (emptyIdentity op dst, { emp := true })
  | (_, v0) :: _ =>
    if isIdx op then (redIndex (op == 0x35) present, Flags.none)
    else match v0 with
      | .i _ =>
        let vs := present.map (fun p => p.2.int)
        let (raw, o) := if op = 0x31 then satInt 32 (vs.foldl (· * ·) 1) else satInt 32 (vs.foldl (· + ·) 0)
        let r := if op = 0x32 then vs.foldl max (vs.headD 0) else if op = 0x33 then vs.foldl min (vs.headD 0)
          else if op = 0x34 then divRne raw vs.length else raw
        let o := o && !(op == 0x32 || op == 0x33)
        let (c, fl) := roundTo dst false .rne (.i r)
        (c, { fl with ovf := fl.ovf || o })
      | .f _ =>
        let vs := present.map (fun p => p.2.float)
        if op = 0x32 then roundTo dst false .rne (.f (vs.foldl FVal.max (vs.headD .nan)))
        else if op = 0x33 then roundTo dst false .rne (.f (vs.foldl FVal.min (vs.headD .nan)))
        else
          let (r, fl) := redFloat op stream (l.map (fun p => p.2.map (fun v => NFmt.fp32.rne v.float)))
          let (r, fl2) := if op = 0x34 then f32Mul r (roundQ .fp32 false .rne false 1 vs.length 0).1 else (r, Flags.none)
          let (c, fl3) := roundTo dst false .rne (.f (f32 r))
          (c, (fl.or fl2).or fl3)

/-- A reduction instruction (R147). -/
def State.veReduce (s : State) (d : Fin 40) (bad : List VeBad) (w : Cmd) : State :=
  let op := opcodeOf w
  let n := eN w
  let dst := if isIdx op then 3 else eDst w
  let at_ := fun (place k : Nat) =>
    (place, if s.active d bad w k then some (s.readElem d bad (eA w) (eSrc w) k) else none)
  let groups : List (List (Nat × Option Val)) :=
    if rAxis w = 1 then (List.range (n / 64)).map (fun r => (List.range 64).map (fun c => at_ c (64 * r + c)))
    else if rAxis w = 2 then (List.range 64).map (fun c => (List.range 64).map (fun r => at_ r (64 * r + c)))
    else [(List.range n).map (fun k => at_ k k)]
  let l := groups.map (fun g => some (reduce op dst (rAxis w == 0) g))
  s.writeResults d w (eD w) dst l

/-! ### Moves (R135, R136, R139) -/

/-- Tile element of local-store element c of row r (R135). -/
def tilePos (w : Cmd) (r c : Nat) : Nat :=
  let (i, j) := if cbit w 86 then (cbits w 73 68 + c, cbits w 79 74 + r) else (cbits w 73 68 + r, cbits w 79 74 + c)
  cbits w 67 64 * 4096 + 64 * i + j

/-- MPA of local-store row r of a VTLOAD or VTSTORE. -/
def tRow (d : Fin 40) (w : Cmd) (r : Nat) : Nat := lsBase d + cbits w 47 28 * 64 + r * cbits w 63 48 * 64

/-- VTLOAD rows from `r` on: each element decoded exactly to FP32 or INT32. -/
def State.tloadRows (s : State) (d : Fin 40) (w : Cmd) (cols : Nat) : Nat → Nat → State
  | _, 0 => s
  | r, k + 1 =>
    let f := cbits w 83 80
    let t := (List.range cols).foldl (fun t c =>
      t.writeElem d (.tile (tilePos w r c)) f 0 (s.elemAt (tRow d w r) (vBits f) c)) s
    State.tloadRows t d w cols (r + 1) k

/-- Whether row r of a VTLOAD reads a poisoned line. -/
def State.tPoison (s : State) (d : Fin 40) (w : Cmd) (r : Nat) : Bool :=
  s.poisoned (tRow d w r) (streamLen (cbits w 83 80) (cbits w 27 22 + 1))

/-- A tile element as the value VTSTORE rounds: FP32, or INT32 for an integer format (R156). -/
def State.tileVal (s : State) (d : Fin 40) (bad : List VeBad) (fmt i : Nat) : Val :=
  let x := regWord (vInt fmt) (badTile bad i) ((s.ve d).tile i)
  if vInt fmt then .i (signedN 32 x) else .f (f32 x)

/-- VTSTORE of the first `rows` rows in ascending order, each element rounded once to FMT. -/
def State.veTstore (s : State) (d : Fin 40) (bad : List VeBad) (w : Cmd) (rows : Nat) : State :=
  let cols := cbits w 27 22 + 1
  let f := cbits w 83 80
  let draws := if cbit w 84 then drawAll (s.ve d).gens (fun _ => true) (rows * cols) else ((s.ve d).gens, [])
  let res := (List.range rows).map (fun r => (List.range cols).map (fun c =>
    roundTo f (cbit w 85) (if cbit w 84 then .sr (draws.2.getD (r * cols + c) 0) else .rne) (s.tileVal d bad f (tilePos w r c))))
  let s1 := s.setVe d { s.ve d with gens := draws.1 }
  let t := (List.range rows).foldl (fun t r =>
    ((res.getD r []).zipIdx.foldl (fun t p => t.putElem (tRow d w r) (vBits f) p.2 p.1.1) t).coverLines (tRow d w r) (streamLen f cols)) s1
  t.veFlags d (res.flatten.foldl (fun fl p => fl.or p.2) Flags.none)

/-- VTTRANS (R136, R150): the whole source read before it is written; a lost element is the canonical NaN (R156). -/
def State.veTtrans (s : State) (d : Fin 40) (bad : List VeBad) (w : Cmd) : State :=
  let src := cbits w 19 16 * 4096
  let dst := cbits w 23 20 * 4096
  let e := s.ve d
  let tiles := (List.range 4096).foldl (fun (m : Sparse W32) k =>
    let i := src + 64 * (k % 64) + k / 64
    Sparse.set tileDefault m (dst + k) (BitVec.ofNat 32 (regWord false (badTile bad i) (e.tile i)))) e.tiles
  s.setVe d { e with tiles := tiles }

/-- A mask function of VMOP (R139). -/
def maskFn (f : Nat) (a b : Bool) : Bool :=
  match f with
  | 0 => a && b | 1 => a || b | 2 => a && !b | 3 => a != b | 4 => !a | 5 => true | _ => false

/-- VMLOAD, VMSTORE and VMOP (R139). -/
def State.veMask (s : State) (d : Fin 40) (bad : List VeBad) (w : Cmd) : State :=
  let n := eN w
  let bit := fun (o : Opnd) (k : Nat) => match o with
    | .mask v => maskBitOf (s.ve d) bad v k
    | .stream a => (s.byte (lsBase d + a + k / 8)).toNat.testBit (k % 8)
    | _ => false
  match eD w with
  | .mask v =>
    if opcodeOf w = 0x44 then s.writeMask d v 0 ((List.range n).map (fun k => some (bit (eA w) k)))
    else s.writeMask d v 0 ((List.range n).map (fun k => some (maskFn (eSrc w) (bit (eA w) k) (bit (eB w) k))))
  | .stream a =>
    let byte := fun (i : Nat) => BitVec.ofNat 8
      ((List.range 8).foldl (fun x j => if 8 * i + j < n ∧ bit (eA w) (8 * i + j) = true then x + 2 ^ j else x) 0)
    s.storeWrite (lsBase d + a) ((List.range ((n + 7) / 8)).map byte)
  | _ => s

/-- VSETS (R136). -/
def State.veSets (s : State) (d : Fin 40) (w : Cmd) : State :=
  let e := s.ve d
  s.setVe d { e with scal := e.scal.setIfInBounds (cbits w 19 16) (BitVec.ofNat 32 (cbits w 51 20)) }

/-- VGETF (R136): the six flags as an INT32, then cleared with CLR. -/
def State.veGetf (s : State) (d : Fin 40) (w : Cmd) : State :=
  let e := s.ve d
  let x := s.get (R.VE_STATUS d) veFlagField
  let t := s.setVe d { e with scal := e.scal.setIfInBounds (cbits w 19 16) (BitVec.ofNat 32 x) }
  if cbit w 20 then t.put (R.VE_STATUS d) veFlagField 0 else t

/-! ### Issue -/

/-- Whether an instruction selects stochastic rounding (R142). -/
def veSr (w : Cmd) : Bool := (opcodeOf w == 0x1E && eSr w) || (opcodeOf w == 0x41 && cbit w 84)

/-- Elements of an instruction: of a move the elements it moves, 1 for a scalar register (log 125). -/
def veCount (w : Cmd) : Nat :=
  let op := opcodeOf w
  if op = 0x40 ∨ op = 0x41 then (cbits w 21 16 + 1) * (cbits w 27 22 + 1)
  else if op = 0x42 then 4096
  else if op = 0x43 ∨ op = 0x47 then 1
  else eN w

/-- Whether the first `n` elements of an instruction meet a register parity error: in an active element, or in a byte of
the mask that MASKEN names (R129, R156). -/
def State.veMeets (s : State) (d : Fin 40) (bad : List VeBad) (w : Cmd) (n : Nat) : Bool :=
  let op := opcodeOf w
  let act := fun (k : Nat) => s.active d bad w k
  let cols := cbits w 27 22 + 1
  if op = 0x41 then (List.range n).any (fun k => badTile bad (tilePos w (k / cols) (k % cols)))
  else if op = 0x42 then (List.range n).any (fun k => badTile bad (cbits w 19 16 * 4096 + k))
  else if op = 0x40 ∨ op = 0x43 ∨ op = 0x47 then false
  else opndParity bad act (eA w) n || (!isRed op && (opndParity bad act (eB w) n || (op != 0x1C && opndParity bad act (eC w) n))) ||
    (eMasken w && opndParity bad (fun _ => true) (.mask (eMsel w)) n)

/-- Whether the engine's performance counters stand: FREEZE is set (R159), or a CLEAR is made in this cycle (R122). -/
def State.veStill (s : State) (d : Fin 40) : Bool :=
  s.flag (R.VE_PERF_CTL d) F.VE_PERF_CTL_FREEZE || (s.ve d).clrAt == s.aclk + 1

/-- The performance counters of R159: beats, active and inactive elements. -/
def State.vePerf (s : State) (d : Fin 40) (beat n act : Nat) : State :=
  if s.veStill d then s
  else
    ((s.add64 (R.VE_PERF_ACTIVE_LO d) (R.VE_PERF_ACTIVE_HI d) ((n + beat - 1) / beat)).add64
      (R.VE_PERF_ELEM_LO d) (R.VE_PERF_ELEM_HI d) act).bump (R.VE_PERF_MASKED d) F.VE_PERF_MASKED_COUNT (n - act)

/-- How many elements of an accepted instruction are done: all, or those before the beat or row that reads a poisoned line
or merges into a poisoned word (R179, R180). A reduction and a mask instruction are done whole or not at all. -/
def State.veDone (s : State) (d : Fin 40) (bad : List VeBad) (w : Cmd) : Nat :=
  let op := opcodeOf w
  let n := veCount w
  let rows := cbits w 21 16 + 1
  let cols := cbits w 27 22 + 1
  let beat := veBeat w
  let all := fun (_ : Nat) => true
  let whole := fun (k m : Nat) => if k < m then 0 else n
  if op = 0x40 then ((List.range rows).find? (fun r => s.tPoison d w r)).getD rows * cols
  else if op = 0x41 then
    ((List.range rows).find? (fun r => (s.mergeStop (tRow d w r) (vBits (cbits w 83 80)) cols all).isSome)).getD rows * cols
  else if op = 0x42 ∨ op = 0x43 ∨ op = 0x47 then n
  else
    let k := s.cleanElems d (eSpans op w).1 beat n
    if isRed op then
      let m := redCount w
      if k < n then 0 else whole (s.cleanDest d (eD w) (if isIdx op then 3 else eDst w) 1 m all) m
    else if isMaskOp op then
      if k < n then 0 else whole (s.cleanDest d (eD w) 4 1 ((n + 7) / 8) all) ((n + 7) / 8)
    else
      let k := min k (s.cleanDest d (eD w) (eDst w) beat n (fun k => s.active d bad w k || eMpol w))
      if op = 0x1E ∧ vScaled (eDst w) = true then min k (32 * s.cleanDest d (eC w) 8 1 ((n + 31) / 32) all / beat * beat) else k

/-- The effect of the first k elements of an accepted instruction. -/
def State.veEffect (s : State) (d : Fin 40) (bad : List VeBad) (w : Cmd) (k : Nat) : State :=
  let op := opcodeOf w
  let cols := cbits w 27 22 + 1
  if op = 0x40 then s.tloadRows d w cols 0 (k / cols)
  else if op = 0x41 then s.veTstore d bad w (k / cols)
  else if op = 0x42 then s.veTtrans d bad w
  else if op = 0x43 then s.veSets d w
  else if op = 0x47 then s.veGetf d w
  else if isRed op then (if k = 0 then s else s.veReduce d bad w)
  else if isMaskOp op then (if k = 0 then s else s.veMask d bad w)
  else if isCmp op then s.veCmp d bad w k
  else if op = 0x1C then s.veSplit d bad w k
  else if op = 0x1E then s.veCvt d bad w k
  else s.veElem d bad w k

/-! ### Rates and latencies (R152-R154) -/

/-- Bytes of local store that ranges cover. -/
def spanBytes (l : List Span) : Nat := l.foldl (fun n x => match x with | .ls _ m _ => n + m | _ => n) 0

/-- Beats of an instruction of n elements (R123, R152). -/
def veBeats (w : Cmd) (n : Nat) : Nat :=
  let op := opcodeOf w
  let per := fun (k : Nat) => (n + k - 1) / k
  if op = 0x40 ∨ op = 0x41 then (n / (cbits w 27 22 + 1) + 7) / 8
  else if op = 0x22 ∨ op = 0x42 then per 256
  else if op = 0x43 ∨ op = 0x47 ∨ isMaskOp op = true then 1
  else per (veBeat w)

/-- ACLK cycles from an instruction's last beat to its last write (R152). -/
def veLatency (w : Cmd) : Nat :=
  let op := opcodeOf w
  if op = 0x1E then (if vScaled (eDst w) then 10 else 6)
  else if op ≤ 0x1D then 6
  else if op = 0x20 ∨ op = 0x21 then 8
  else if op = 0x22 then 10
  else if isRed op then (if rAxis w = 0 then 12 else 9)
  else if op ≤ 0x42 then 4
  else 2

/-- Stream bytes an instruction reads and writes (R153). -/
def veTraffic (w : Cmd) : Nat × Nat :=
  let op := opcodeOf w
  let moved := (cbits w 21 16 + 1) * streamLen (cbits w 83 80) (cbits w 27 22 + 1)
  if op = 0x40 then (moved, 0) else if op = 0x41 then (0, moved)
  else if op = 0x42 ∨ op = 0x43 ∨ op = 0x47 then (0, 0)
  else (spanBytes (eSpans op w).1, spanBytes (eSpans op w).2)

/-- Cycles an instruction occupies the engine (R153); in THROTTLED a beat issues in every other cycle (R154). -/
def State.veCycles (s : State) (w : Cmd) : Nat :=
  let beats := veBeats w (veCount w)
  max (if s.throttled then 2 * beats else beats) (max (((veTraffic w).1 + 2047) / 2048) (((veTraffic w).2 + 2047) / 2048))

/-- The cycle in which an instruction issues its first beat: once the one before has issued its last, and for VGETF once
every earlier one has made its last write (R136). -/
def State.veStart (s : State) (d : Fin 40) (w : Cmd) : Nat :=
  let t := max s.aclk (s.ve d).issueAt
  if opcodeOf w = 0x47 then max t (s.ve d).doneAt else t

/-- The cycle of an instruction's last write (R152, R165). -/
def State.veLast (s : State) (d : Fin 40) (w : Cmd) : Nat := s.veStart d w + s.veCycles w - 1 + veLatency w

/-- The engine's timeline after an instruction. -/
def State.veTick (s : State) (d : Fin 40) (w : Cmd) : State :=
  let e := s.ve d
  s.setVe d { e with issueAt := s.veStart d w + s.veCycles w, doneAt := max e.doneAt (s.veLast d w + 1) }

/-- VE_STATUS brought up to date where it is read (R159): BUSY until the last write, LSWAIT in a cycle in which the
engine's access is refused. -/
def State.veShow (s : State) (d : Fin 40) : State :=
  let b := (s.cd d).arb
  let t := s.put (R.VE_STATUS d) F.VE_STATUS_BUSY (decide (s.aclk < (s.ve d).doneAt)).toNat
  t.put (R.VE_STATUS d) F.VE_STATUS_LSWAIT (b.cycle == s.aclk && b.denied.any (fun x => x.1 == 4)).toNat

/-- The unit number of the vector engine. -/
def veUnit : Fin 8 := 4

/-- The vector engine refuses the instruction at its FIFO head (R155). -/
def State.veRefuse (s : State) (d : Fin 40) (e : UCmd) (code : Nat) : State :=
  let t := s.recordRefusal (R.VE_FAULT d) code (opcodeOf e.w)
  let t := t.raise 0x4250 d (some (t.cdCanton d)) (detail 0 code (t.rd (R.VE_FAULT d)).toNat)
  t.unitFault d veUnit e 9

/-- The instruction at the vector engine's FIFO head: refused (R155), held for seeding (R66), stopped at a poisoned
line (R180), or executed whole; it completes with its last write (R152, R165). -/
def State.veHead (s : State) (d : Fin 40) (bad : List VeBad) : State :=
  if (s.cd d).stopped[veUnit] then s else
  match s.head? d veUnit with
  | none => s
  | some e =>
    match veCause e.w with
    | some c => s.veRefuse d e c
    | none =>
      if veSr e.w && !s.flag (R.ARITH_SR_STATUS (cdBase d)) F.ARITH_SR_STATUS_SEEDED then
        s.put (R.VE_STATUS d) F.VE_STATUS_SRHOLD 1
      else
        let n := s.veDone d bad e.w
        let act := if opcodeOf e.w < 0x40 then ((List.range n).filter (fun k => s.active d bad e.w k)).length else n
        let t := (s.veEffect d bad e.w n).put (R.VE_STATUS d) F.VE_STATUS_SRHOLD 0
        let t := (t.veParity d (s.veMeets d bad e.w n)).vePerf d (if opcodeOf e.w < 0x40 then veBeat e.w else 512) n act
        let t := t.veTick d e.w
        if n < veCount e.w then t.unitFault d veUnit e 7 else (t.popHead d veUnit).completeAt d e (s.veLast d e.w + 1)

/-- A vector-engine command come to the engine, and executed when it stands at the head of the FIFO. -/
def State.veRun (s : State) (d : Fin 40) (q : Fin 4) (w : Cmd) (bad : List VeBad) : State :=
  let t := s.enter d veUnit q w
  if t.2 then t.1.veHead d bad else t.1

/-- VADD (R137). -/
def execVadd (d : Fin 40) (q : Fin 4) (w : Cmd) (bad : List VeBad) (s : State) : Out := .next (s.veRun d q w bad)
/-- VSUB (R137). -/
def execVsub (d : Fin 40) (q : Fin 4) (w : Cmd) (bad : List VeBad) (s : State) : Out := .next (s.veRun d q w bad)
/-- VMUL (R137). -/
def execVmul (d : Fin 40) (q : Fin 4) (w : Cmd) (bad : List VeBad) (s : State) : Out := .next (s.veRun d q w bad)
/-- VFMA (R137). -/
def execVfma (d : Fin 40) (q : Fin 4) (w : Cmd) (bad : List VeBad) (s : State) : Out := .next (s.veRun d q w bad)
/-- VFNMA (R137). -/
def execVfnma (d : Fin 40) (q : Fin 4) (w : Cmd) (bad : List VeBad) (s : State) : Out := .next (s.veRun d q w bad)
/-- VMIN (R137). -/
def execVmin (d : Fin 40) (q : Fin 4) (w : Cmd) (bad : List VeBad) (s : State) : Out := .next (s.veRun d q w bad)
/-- VMAX (R137). -/
def execVmax (d : Fin 40) (q : Fin 4) (w : Cmd) (bad : List VeBad) (s : State) : Out := .next (s.veRun d q w bad)
/-- VSEL (R137). -/
def execVsel (d : Fin 40) (q : Fin 4) (w : Cmd) (bad : List VeBad) (s : State) : Out := .next (s.veRun d q w bad)
/-- VCMPEQ (R137). -/
def execVcmpeq (d : Fin 40) (q : Fin 4) (w : Cmd) (bad : List VeBad) (s : State) : Out := .next (s.veRun d q w bad)
/-- VCMPLT (R137). -/
def execVcmplt (d : Fin 40) (q : Fin 4) (w : Cmd) (bad : List VeBad) (s : State) : Out := .next (s.veRun d q w bad)
/-- VCMPLE (R137). -/
def execVcmple (d : Fin 40) (q : Fin 4) (w : Cmd) (bad : List VeBad) (s : State) : Out := .next (s.veRun d q w bad)
/-- VCMPUN (R137). -/
def execVcmpun (d : Fin 40) (q : Fin 4) (w : Cmd) (bad : List VeBad) (s : State) : Out := .next (s.veRun d q w bad)
/-- VSPLIT (R138). -/
def execVsplit (d : Fin 40) (q : Fin 4) (w : Cmd) (bad : List VeBad) (s : State) : Out := .next (s.veRun d q w bad)
/-- VSCALE (R138). -/
def execVscale (d : Fin 40) (q : Fin 4) (w : Cmd) (bad : List VeBad) (s : State) : Out := .next (s.veRun d q w bad)
/-- VCVT (R140). -/
def execVcvt (d : Fin 40) (q : Fin 4) (w : Cmd) (bad : List VeBad) (s : State) : Out := .next (s.veRun d q w bad)
/-- VRCPE (R143). -/
def execVrcpe (d : Fin 40) (q : Fin 4) (w : Cmd) (bad : List VeBad) (s : State) : Out := .next (s.veRun d q w bad)
/-- VRSQE (R144). -/
def execVrsqe (d : Fin 40) (q : Fin 4) (w : Cmd) (bad : List VeBad) (s : State) : Out := .next (s.veRun d q w bad)
/-- VEXP2E (R145). -/
def execVexp2e (d : Fin 40) (q : Fin 4) (w : Cmd) (bad : List VeBad) (s : State) : Out := .next (s.veRun d q w bad)
/-- VRSUM (R147, R148). -/
def execVrsum (d : Fin 40) (q : Fin 4) (w : Cmd) (bad : List VeBad) (s : State) : Out := .next (s.veRun d q w bad)
/-- VRPROD (R147, R148). -/
def execVrprod (d : Fin 40) (q : Fin 4) (w : Cmd) (bad : List VeBad) (s : State) : Out := .next (s.veRun d q w bad)
/-- VRMAX (R147, R148). -/
def execVrmax (d : Fin 40) (q : Fin 4) (w : Cmd) (bad : List VeBad) (s : State) : Out := .next (s.veRun d q w bad)
/-- VRMIN (R147, R148). -/
def execVrmin (d : Fin 40) (q : Fin 4) (w : Cmd) (bad : List VeBad) (s : State) : Out := .next (s.veRun d q w bad)
/-- VRMEAN (R147, R148). -/
def execVrmean (d : Fin 40) (q : Fin 4) (w : Cmd) (bad : List VeBad) (s : State) : Out := .next (s.veRun d q w bad)
/-- VRIMAX (R147, R148). -/
def execVrimax (d : Fin 40) (q : Fin 4) (w : Cmd) (bad : List VeBad) (s : State) : Out := .next (s.veRun d q w bad)
/-- VRIMIN (R147, R148). -/
def execVrimin (d : Fin 40) (q : Fin 4) (w : Cmd) (bad : List VeBad) (s : State) : Out := .next (s.veRun d q w bad)
/-- VTLOAD (R135). -/
def execVtload (d : Fin 40) (q : Fin 4) (w : Cmd) (bad : List VeBad) (s : State) : Out := .next (s.veRun d q w bad)
/-- VTSTORE (R135). -/
def execVtstore (d : Fin 40) (q : Fin 4) (w : Cmd) (bad : List VeBad) (s : State) : Out := .next (s.veRun d q w bad)
/-- VTTRANS (R136). -/
def execVttrans (d : Fin 40) (q : Fin 4) (w : Cmd) (bad : List VeBad) (s : State) : Out := .next (s.veRun d q w bad)
/-- VSETS (R136). -/
def execVsets (d : Fin 40) (q : Fin 4) (w : Cmd) (bad : List VeBad) (s : State) : Out := .next (s.veRun d q w bad)
/-- VMLOAD (R139). -/
def execVmload (d : Fin 40) (q : Fin 4) (w : Cmd) (bad : List VeBad) (s : State) : Out := .next (s.veRun d q w bad)
/-- VMSTORE (R139). -/
def execVmstore (d : Fin 40) (q : Fin 4) (w : Cmd) (bad : List VeBad) (s : State) : Out := .next (s.veRun d q w bad)
/-- VMOP (R139). -/
def execVmop (d : Fin 40) (q : Fin 4) (w : Cmd) (bad : List VeBad) (s : State) : Out := .next (s.veRun d q w bad)
/-- VGETF (R136). -/
def execVgetf (d : Fin 40) (q : Fin 4) (w : Cmd) (bad : List VeBad) (s : State) : Out := .next (s.veRun d q w bad)

/-- VE_DEPENDENCE_RELEASE (R149): an instruction stalled for `cycles` cycles on a register or line dependence, each
counted in VE_PERF_DEPWAIT, proceeds. -/
def execVeDependenceRelease (d : Fin 40) (cycles : Nat) (bad : List VeBad) (s : State) : Out :=
  if s.dieOff d then .next s
  else
    let t := if s.veStill d then s else s.bump (R.VE_PERF_DEPWAIT d) F.VE_PERF_DEPWAIT_COUNT cycles
    .next ((t.setVe d { t.ve d with issueAt := max (t.ve d).issueAt t.aclk + cycles }).veHead d bad)

/-- VE_PERF_CLEAR (R159, R122). -/
def execVePerfClear (d : Fin 40) (s : State) : Out :=
  if s.dieOff d then .next s else
  .next ((s.setVe d { s.ve d with clrAt := s.aclk + 1 }).zeroRegs [R.VE_PERF_ACTIVE_LO d, R.VE_PERF_ACTIVE_HI d, R.VE_PERF_ELEM_LO d, R.VE_PERF_ELEM_HI d,
    R.VE_PERF_LSWAIT d, R.VE_PERF_DEPWAIT d, R.VE_PERF_MASKED d])

end Sys2Proof.Machine
end

