-- ==== Sys2Proof/Machine/Store.lean ====
section
/-! DEFINITION. The DMA unit, the arbiters of local store and GAS, and the gradient accumulator store
(05_compute_die_programs.md, R174-R187, R550). -/
namespace Sys2Proof.Machine

/-! ### DMA (R174-R176) -/

/-- The DMA unit's number. -/
def dmaUnit : Fin 8 := 5
/-- The GAS unit's number. -/
def gasUnit : Fin 8 := 7

/-- An MPA field relocated by a base register (R172). -/
def State.relocate (s : State) (d : Fin 40) (q : Fin 4) (field unit b : Nat) : Nat :=
  (field * unit + 64 * (((s.cd d).queues[q]).bases.getD b 0).toNat) % 2 ^ 48

/-- What a DMA command has to move (R174, R175); none for a descriptor that breaks a rule. -/
def State.dmaPlan (s : State) (d : Fin 40) (e : UCmd) : Option (DmaTodo × W32) :=
  let w := e.w
  if opcodeOf w = 0x50 then
    some (⟨some (s.relocate d e.q (cbits w 63 22) 64 (cbits w 18 16)), s.relocate d e.q (cbits w 105 64) 64 (cbits w 21 19),
      (cbits w 125 106 + 1) * 64, 1, 0, 0, 0⟩, 0)
  else if opcodeOf w = 0x52 then
    some (⟨none, s.relocate d e.q (cbits w 57 16) 64 (cbits w 60 58), (cbits w 80 61 + 1) * 64, 1, 0, 0, 0⟩,
      BitVec.ofNat 32 (cbits w 112 81))
  else
    let a := lsBase d + cbits w 35 16 * 64
    let src := s.num a 8
    let dst := s.num (a + 8) 8
    let len := s.num (a + 16) 4
    let bsel := s.num (a + 22) 1
    if 2 ^ 48 ≤ src ∨ 2 ^ 48 ≤ dst ∨ len = 0 ∨ 16777216 < len ∨ bsel.testBit 3 = true ∨ bsel.testBit 7 = true ∨
        s.num (a + 23) 1 ≠ 0 ∨ s.num (a + 40) 24 ≠ 0 then none
    else
      some (⟨some (s.relocate d e.q src 1 (bsel % 8)), s.relocate d e.q dst 1 (bsel / 16 % 8), len, s.num (a + 20) 2 + 1,
        signedN 64 (s.num (a + 24) 8), signedN 64 (s.num (a + 32) 8), 0⟩, 0)

/-- Rows a command has still to write: address and length. -/
def DmaTodo.dstRows (t : DmaTodo) : List (Nat × Nat) :=
  (List.range t.rows).map (fun (r : Nat) => ((((t.dst : Int) + r * t.dstride) % 2 ^ 48).toNat, t.len))

/-- The next packet of a command: at most 4 KiB, across no 4 KiB boundary (R176). -/
def nextPacket (t : DmaTodo) : Option (DmaPacket × DmaTodo) :=
  if t.rows = 0 then none
  else
    let src := t.src.map (· + t.off)
    let dst := t.dst + t.off
    let room := min (4096 - dst % 4096) (match src with | some a => 4096 - a % 4096 | none => 4096)
    let n := min (t.len - t.off) room
    let p : DmaPacket := ⟨src, dst, n, 0, none⟩
    if t.off + n < t.len then some (p, { t with off := t.off + n })
    else
      let step := fun (a : Nat) (by_ : Int) => (((a : Int) + by_) % 2 ^ 48).toNat
      some (p, { t with src := t.src.map (fun a => step a t.sstride), dst := step t.dst t.dstride, rows := t.rows - 1, off := 0 })

/-- The bytes a packet moves. -/
def State.packetData (s : State) (pattern : W32) (p : DmaPacket) : List Byte :=
  match p.src with
  | some a => s.bytes a p.len
  | none => (List.range p.len).map (fun i => BitVec.ofNat 8 (pattern.toNat / 256 ^ ((p.dst + i) % 4)))

/-- Packets outstanding over all commands in flight. -/
def CDie.dmaOut (c : CDie) : Nat := c.dma.foldl (fun n x => n + x.out.length) 0

/-- Whether an MPA lies in the DRAM window. -/
def inDram (a : Nat) : Bool := decide (a < 0x80000000000)

/-- A command that met an error: out of flight, back at the FIFO head, its queue in FAULT (R176, R191). -/
def State.dmaFail (s : State) (d : Fin 40) (x : DmaCmd) (code : Nat) : State :=
  let c := s.cd d
  let t := s.setCd d ({ c with dma := c.dma.filter (fun y => y.e.seq != x.e.seq) }.setFifo dmaUnit (x.e :: c.fifo dmaUnit))
  t.unitFault d dmaUnit x.e code

/-- A packet with its bytes in hand sent to its target: DRAM gets write requests; a store is written when it lands. -/
def State.packetSend (s : State) (d : Fin 40) (p : DmaPacket) (data : List Byte) : State × DmaPacket :=
  if inDram p.dst then
    let t := s.newReq
    (t.forwardWrite d p.dst data, { p with req := t.reqNo, data := some data })
  else (s, { p with req := 0, data := some data })

/-- A packet issued (R176): a source in DRAM is asked of the seal engines; of a store or a fill the bytes are at hand. -/
def State.packetIssue (s : State) (d : Fin 40) (pattern : W32) (p : DmaPacket) : State × DmaPacket :=
  match p.src.filter inDram with
  | some a =>
    let t := s.newReq
    ((blockPieces (p.len / 256 + 2) a p.len).foldl (fun t x => t.forward d (.read x.2) x.1) t, { p with req := t.reqNo })
  | none => s.packetSend d p (s.packetData pattern p)

/-- The die as a requester. -/
def asReq (d : Fin 40) : Requester := .die ⟨d.val, by omega⟩

/-- Packets of command x issued while it has fewer than 16 and the unit fewer than 64 outstanding (R176). -/
def State.dmaIssue (s : State) (d : Fin 40) (seq : Nat) : Nat → State
  | 0 => s
  | fuel + 1 =>
    match (s.cd d).dma.find? (fun y => y.e.seq == seq) with
    | none => s
    | some x =>
      if 16 ≤ x.out.length ∨ 64 ≤ (s.cd d).dmaOut then s
      else match nextPacket x.todo with
        | none => s
        | some (p, todo) =>
          let rd := match p.src with | some a => s.checkRange (asReq d) false a p.len | none => .ok
          let wr := s.checkRange (asReq d) true p.dst p.len
          match rd, wr with
          | .ok, .ok =>
            if p.src.any (fun a => !inDram a && s.poisoned a p.len) then s.dmaFail d x 7
            else
              let r := s.packetIssue d x.pattern p
              let c := r.1.cd d
              let x' := { x with todo := todo, out := x.out ++ [r.2] }
              (r.1.setCd d { c with dma := c.dma.map (fun y => if y.e.seq = seq then x' else y) }).dmaIssue d seq fuel
          | .busError cat, _ =>
            (s.raiseCat cat d 28 (some (s.cdCanton d)) (detail 0 0 (p.src.getD 0))).dmaFail d x 6
          | .ok, .busError cat => (s.raiseCat cat d 28 (some (s.cdCanton d)) (detail 0 0 p.dst)).dmaFail d x 6

/-- Every command in flight issues what the packets outstanding leave room for, the oldest first (R176). -/
def State.dmaPump (s : State) (d : Fin 40) : State := ((s.cd d).dma.map (fun x => x.e.seq)).foldl (fun t q => t.dmaIssue d q 16) s

/-- The part of an MPA range that lies in the GAS of a die: offset and length. -/
def gasPart (d : Fin 40) (a n : Nat) : Nat × Nat :=
  let lo := max a (gasBase d)
  (lo - gasBase d, min (a + n) (gasBase d + gasBytes) - lo)

/-- Whether a drain dispatched before a DMA command covers part of its destination in the die's GAS (R184). -/
def dmaHeld (d : Fin 40) (c : CDie) (seq : Nat) (t : DmaTodo) : Bool :=
  let earlier := { c with drains := c.drains.filter (fun g => decide (g.e.seq < seq)) }
  !earlier.drains.isEmpty && t.dstRows.any (fun r =>
    let g := gasPart d r.1 r.2
    decide (0 < g.2) && earlier.coversRange g.1 g.2)

/-- The DMA unit starts the command at its FIFO head when fewer than eight are in flight, reading any descriptor then
(R175, R176). -/
def State.dmaStart (s : State) (d : Fin 40) : State :=
  if (s.cd d).stopped[dmaUnit] || !s.takesWork (s.cdCanton d) then s else
  match s.head? d dmaUnit with
  | none => s
  | some e =>
    if 8 ≤ (s.cd d).dma.length then s
    else if opcodeOf e.w = 0x51 ∧ s.poisoned (lsBase d + cbits e.w 35 16 * 64) 64 = true then s.unitFault d dmaUnit e 7
    else match s.dmaPlan d e with
      | none => s.unitFault d dmaUnit e 3
      | some (todo, pat) =>
        if dmaHeld d (s.cd d) e.seq todo then s
        else
          let t := s.popHead d dmaUnit
          let t := t.setCd d { t.cd d with dma := (t.cd d).dma ++ [⟨e, pat, todo, []⟩] }
          t.dmaIssue d e.seq 16

/-- A DMA command come to the unit, started where it stands at the head of the FIFO. -/
def State.dmaEnter (s : State) (d : Fin 40) (q : Fin 4) (w : Cmd) : State :=
  let t := s.enter d dmaUnit q w
  if t.2 then t.1.dmaStart d else t.1

/-- DMA_COPY (R174): the command starts at the head of the DMA unit's FIFO. -/
def execDmaCopy (d : Fin 40) (q : Fin 4) (w : Cmd) (s : State) : Out := .next (s.dmaEnter d q w)
/-- DMA_COPY2D (R175). -/
def execDmaCopy2d (d : Fin 40) (q : Fin 4) (w : Cmd) (s : State) : Out := .next (s.dmaEnter d q w)
/-- DMA_FILL (R174). -/
def execDmaFill (d : Fin 40) (q : Fin 4) (w : Cmd) (s : State) : Out := .next (s.dmaEnter d q w)
/-- DMA_COMMAND_START (R176). -/
def execDmaCommandStart (d : Fin 40) (s : State) : Out := .next (if s.dieOff d then s else s.dmaStart d)

/-- Packet `pkt` of command x acknowledged: its place is free and the next packets are issued; the last packet completes
the command. -/
def State.dmaAcked (s : State) (d : Fin 40) (cmd pkt : Nat) (x : DmaCmd) : State :=
  let c := s.cd d
  let x' := { x with out := x.out.eraseIdx pkt }
  let t :=
    if x'.out.isEmpty && (nextPacket x'.todo).isNone then (s.setCd d { c with dma := c.dma.eraseIdx cmd }).complete d x.e
    else s.setCd d { c with dma := c.dma.set cmd x' }
  t.dmaPump d

/-- A packet's bytes land in a store of a compute die: held while its granule of another die's GAS is covered (R184), refused
where that die has gone into reset (R192), stopped where a word it is merged into is poisoned (R179). -/
def State.dmaLand (s : State) (d : Fin 40) (cmd pkt : Nat) (x : DmaCmd) (p : DmaPacket) (data : List Byte) : State :=
  match s.checkRange (asReq d) true p.dst p.len, s.placeOf p.dst with
  | .busError cat, _ => (s.raiseCat cat d 28 (some (s.cdCanton d)) (detail 0 0 p.dst)).dmaFail d x 6
  | .ok, .cd k off =>
    if k ≠ d.val ∧ (s.cd (fin40 k)).coversWindow off p.len = true then s
    else
      let r := s.mergeWrite p.dst data
      if r.2 then r.1.dmaFail d x 7 else r.1.dmaAcked d cmd pkt x
  | .ok, _ => s.dmaAcked d cmd pkt x

/-- DMA_PACKET_ACK (R176): packet `pkt` of the command at place `cmd` comes to its end. Bytes read from DRAM go on to their
target; a target that has made the write acknowledges the packet. An error stops the command and faults its queue with
code 0x6 (R28) or 0x7 (tag failure, poison). A packet whose DRAM requests still wait is not yet done. -/
def execDmaPacketAck (d : Fin 40) (cmd pkt : Nat) (res : MemResp) (s : State) : Out :=
  match (s.cd d).dma[cmd]? with
  | none => .next s
  | some x =>
    match x.out[pkt]? with
    | none => .next s
    | some p =>
      if s.dieOff d then .next s
      else if res = .refused then .next ((s.raiseCat 2 d 28 (some (s.cdCanton d)) (detail 0 0 p.dst)).dmaFail d x 6)
      else if res = .poisoned then .next (s.dmaFail d x 7)
      else if p.req ≠ 0 ∧ s.reqWaits p.req = true then .next s
      else if s.reqErred p.req then .next ((s.dropErrs p.req).dmaFail d x 7)
      else match p.data with
        | none =>
          let data := s.packetData x.pattern p
          if inDram p.dst then
            let r := s.packetSend d p data
            let c := r.1.cd d
            .next (r.1.setCd d { c with dma := c.dma.set cmd { x with out := x.out.set pkt r.2 } })
          else .next (s.dmaLand d cmd pkt x p data)
        | some data => .next (if inDram p.dst then s.dmaAcked d cmd pkt x else s.dmaLand d cmd pkt x p data)

/-! ### The store arbiters (R177-R181, R550) -/

/-- The bank port of a byte address of a store (R177, R181). -/
def bankPort (gas write : Bool) (off : Nat) : BankPort := ⟨gas, ⟨off / 64 % 64, Nat.mod_lt _ (by decide)⟩, write⟩

/-- The bank ports that a range of a store needs: one for each 64-byte line. -/
def spanPorts (x : StoreSpan) : List BankPort :=
  if x.len = 0 then [] else
  (List.range ((x.off + x.len + 63) / 64 - x.off / 64)).map (fun i => bankPort x.gas x.write ((x.off / 64 + i) * 64))

/-- The reservations of a feed access (R550): for each line of the destination row with a hoisted column, the write port
in the cycle in which its last element is complete, and in ACC mode the read port in the cycle before its first element
is needed (R179; log 125). Cycles count from the feed. -/
def feedResv (p : Pass) (cols : BitVec 128) (masked : Bool) : List (Nat × BankPort) :=
  (List.range 8).flatMap (fun l =>
    let at_ := p.daddr + 512 * p.pos + 64 * l
    match lineCols cols l with
    | [] => []
    | j :: js =>
      (if p.acc && !masked then [(126 + j, bankPort p.gas false at_)] else []) ++ [(128 + (js.getLast?.getD j), bankPort p.gas true at_)])

/-- What an access needs in this cycle, and what it reserves (R178, R550). -/
def State.accNeeds (s : State) (d : Fin 40) (x : LsAccess) : List BankPort × List (Nat × BankPort) :=
  let m := s.ma d (fin4 x.req)
  let ls := fun (off len : Nat) => spanPorts ⟨false, off, len, false⟩
  let row := fun (h : Hoist) =>
    let i := 127 - h.rows.length
    if cbits h.e.w 58 56 = 4 ∧ h.rowAt = s.aclk then [] -- the low bytes of a BF16 row: nothing is read (R90)
    else
      let sp := rowSpan h.e.w i
      let sc := scaleSpan h.e.w i
      ls sp.1 sp.2 ++ ls (cbits h.e.w 55 36 * 64 + sc.1) sc.2
  match x.kind with
  | .feed =>
    match m.feeding with
    | none => ([], [])
    | some p =>
      let cols := (p.own.getD m.active).cols
      match (match p.maskAt with | some _ => maskBit p.lines s.aclk p.pos | none => some true) with
      | none => ([], [])
      | some false => ([], if p.zeroMasked then feedResv p cols true else [])
      | some true =>
        let ad := slotAddr p p.pos
        (ls ad.1 128 ++ (if p.scaled then ls ad.2 8 else []), feedResv p cols false)
  | .hoist =>
    match m.streaming, m.waiting with
    | some h, w =>
      if h.rows.length < 128 then (row h, [])
      else (match w with | some h => (if h.rows.isEmpty then row h else [], []) | none => ([], []))
    | none, some h => (if h.rows.isEmpty then row h else [], [])
    | none, none => ([], [])
  | .bitmap =>
    let line := fun (p : Pass) => ((List.range 2).find? p.wantsLine).map (fun l => ls (p.maskAt.getD 0 + 64 * l) 64)
    (((m.feeding.toList ++ m.held.toList).filterMap line).headD [], [])
  | .other => (x.spans.flatMap spanPorts, [])

/-- An access with its needs. -/
abbrev Want := LsAccess × List BankPort × List (Nat × BankPort)

/-- Whether an access takes part in the arbitration of a store. -/
def touches (gas : Bool) (x : Want) : Bool :=
  (x.2.1 ++ x.2.2.map (fun r => r.2)).any (fun p => p.gas == gas)

/-- Consecutive refusals of an access. -/
def refusals (l : List (Fin 9 × LsKind × Nat)) (r : Fin 9) (k : LsKind) : Nat :=
  match l.find? (fun x => x.1 == r && x.2.1 == k) with
  | some (_, _, n) => n
  | none => 0

/-- The count of refusals of an access set. -/
def setRefusals (l : List (Fin 9 × LsKind × Nat)) (r : Fin 9) (k : LsKind) (n : Nat) : List (Fin 9 × LsKind × Nat) :=
  (r, k, n) :: l.filter (fun x => !(x.1 == r && x.2.1 == k))

/-- Whether a requester is urgent: one of its accesses has been refused in 8 consecutive cycles in which it was presented,
and has not been granted since (R178). -/
def StoreArb.urgent (b : StoreArb) (r : Fin 9) : Bool := b.refused.any (fun x => x.1 == r && decide (8 ≤ x.2.2))

/-- Place of an array's access among its own: feed, hoist, bitmap. -/
def kindRank : LsKind → Nat
  | .feed => 0 | .hoist => 1 | .bitmap => 2 | .other => 0

/-- The order in which accesses are visited: urgent requesters by number; then those that need the local store, in the
cyclic order of its seven requesters; then those that need the GAS alone, in the cyclic order of its own (R178, R181;
how the two orders meet is the model's choice, log 125). -/
def visitOrder (b : StoreArb) (l : List Want) : List Want :=
  let rank := fun (x : Want) =>
    let r := x.1.req.val
    (if b.urgent x.1.req then r
      else if touches true x && !touches false x then 200 + (r + 9 - (b.lastGas + 1) % 9) % 9
      else 100 + (r + 7 - (b.lastLs + 1) % 7) % 7) * 4 + kindRank x.1.kind
  sortBy rank l

/-- What a cycle's visits have come to: ports taken, reservations held, accesses granted and refused. -/
abbrev Visited := List BankPort × List (Nat × BankPort × Fin 9) × List Want × List Want

/-- One visit: an access is granted when every port it needs is free in this cycle, and every port it reserves is free in
its cycle and needed by no waiting access of another urgent requester; it then takes them all (R178, R550). -/
def visit (now : Nat) (waiting : List Want) (v : Visited) (x : Want) : Visited :=
  let free := x.2.1.all (fun p => !v.1.contains p) &&
    x.2.2.all (fun r => !v.2.1.any (fun y => y.1 == now + r.1 && y.2.1 == r.2) &&
      !waiting.any (fun w => !(w.1.req == x.1.req && w.1.kind == x.1.kind) && w.2.1.contains r.2))
  if free then (v.1 ++ x.2.1, v.2.1 ++ x.2.2.map (fun r => (now + r.1, r.2, x.1.req)), v.2.2.1 ++ [x], v.2.2.2)
  else (v.1, v.2.1, v.2.2.1, v.2.2.2 ++ [x])

/-- The arbiters after one cycle's decision. -/
def StoreArb.decide_ (b : StoreArb) (now : Nat) (l : List Want) : StoreArb :=
  let live := b.resv.filter (fun r => decide (now ≤ r.1))
  let taken := (live.filter (fun r => r.1 == now)).map (fun r => r.2.1)
  let waiting := l.filter (fun x => decide (8 ≤ refusals b.refused x.1.req x.1.kind))
  let v := (visitOrder b l).foldl (visit now waiting) (taken, live, [], [])
  let key := fun (x : Want) => (x.1.req, x.1.kind)
  let granted := v.2.2.1.map key
  let counts := l.foldl (fun c x =>
    setRefusals c x.1.req x.1.kind (if granted.contains (key x) then 0 else refusals b.refused x.1.req x.1.kind + 1)) b.refused
  let first := fun (gas : Bool) (old : Nat) =>
    match v.2.2.1.find? (fun x => touches gas x && !b.urgent x.1.req) with
    | some x => x.1.req.val
    | none => old
  { resv := v.2.1, refused := counts, lastLs := first false b.lastLs, lastGas := first true b.lastGas, cycle := now,
    grants := granted, denied := v.2.2.2.map key }

/-- The stream of an array in a cycle the arbiters have decided: a granted access reads its next weight row, a refused one
pauses the stream (R90, R93); one row in a cycle at most. -/
def State.hoistAccess (s : State) (d : Fin 40) (a : Fin 4) : State :=
  let m := s.ma d a
  let b := (s.cd d).arb
  match m.streaming with
  | none => s
  | some h =>
    if 128 ≤ h.rows.length ∨ h.rowAt = s.aclk + 1 ∨ m.stopHoist.isSome = true then s
    else if cbits h.e.w 58 56 = 4 ∧ h.rowAt = s.aclk then s.useGrant d (maReq a) .hoist
    else if b.grants.contains (maReq a, .hoist) then
      let t := s.useGrant d (maReq a) .hoist
      if s.rowPoisoned d h.e.w (127 - h.rows.length) then t.hoistPoison d a h.e
      else
        let h := if h.rows.isEmpty then { h with start := max s.aclk m.frontAt } else h
        t.setMa d a { m with streaming := some (s.streamRow d h) }
    else if b.denied.contains (maReq a, .hoist) then
      s.setMa d a { m with streaming := some { h with paused := h.paused + 1 } }
    else s

/-- A SECDED finding in the local store, or with `gas` in the GAS (R180): a corrected word is repaired and counted; an
uncorrectable one poisons its line. -/
def State.eccFinding (s : State) (d : Fin 40) (gas : Bool) (f : StoreEcc) : State :=
  let st := if gas then R.GAS_STATUS d else R.LS_STATUS d
  let cor := if gas then F.GAS_STATUS_ECCCOR else F.LS_STATUS_ECCCOR
  let unc := if gas then F.GAS_STATUS_ECCUNC else F.LS_STATUS_ECCUNC
  let err := if gas then R.GAS_ERRADDR d else R.LS_ERRADDR d
  let base := if gas then gasBase d else lsBase d
  if f.uncorrectable then
    let t := { s with poison := Sparse.set (fun _ => false) s.poison (base / 64 + f.line) true }
    let t := (t.put st unc 1).wr err (BitVec.ofNat 32 (f.line % 2 ^ 20 + 2 ^ 31))
    t.raise (if gas then 0x4266 else 0x4264) d (some (t.cdCanton d)) (detail 0 0 f.line)
  else
    let t := (s.put st cor 1).bump st (31, 16) 1
    t.raise (if gas then 0x4165 else 0x4163) d (some (t.cdCanton d)) (detail 0 0 f.line)

/-- LS_ARBITRATE (R178, R180, R181, R550): one cycle's decision of the arbiters of the die's two stores on the accesses
presented; refusals are counted, streams advance or pause, and SECDED findings are handled. -/
def execLsArbitrate (d : Fin 40) (accs : List LsAccess) (lsEcc gasEcc : List StoreEcc) (s : State) : Out :=
  if s.dieOff d then .next s
  else
    let c := s.cd d
    let l : List Want := accs.map (fun x => (x, s.accNeeds d x))
    let b := c.arb.decide_ s.aclk l
    let t := s.setCd d { c with arb := b }
    let lsRefused := l.any (fun x => b.denied.contains (x.1.req, x.1.kind) && touches false x)
    let t := if lsRefused then t.bump (R.LS_PERF_REFUSED d) F.LS_PERF_REFUSED_COUNT 1 else t
    let t := if b.denied.any (fun x => x.1 == 4) && !t.veStill d then t.bump (R.VE_PERF_LSWAIT d) F.VE_PERF_LSWAIT_COUNT 1 else t
    let t := ([0, 1, 2, 3] : List (Fin 4)).foldl (fun t a => t.hoistAccess d a) t
    let t := lsEcc.foldl (fun t f => t.eccFinding d false f) t
    .next (gasEcc.foldl (fun t f => t.eccFinding d true f) t)

/-! ### The gradient accumulator store (R181-R187) -/

/-- Granules a drain covers. -/
def Drain.granules (g : Drain) : List Nat :=
  (List.range ((g.line + g.len - 1) * 64 / 65536 + 1 - g.line * 64 / 65536)).map (fun i => g.line * 64 / 65536 + i)

/-- Drains that have left the GAS unit's FIFO. -/
def CDie.activeDrains (c : CDie) : List Drain :=
  c.drains.filter (fun g => !((c.fifo gasUnit).any (fun e => e.seq == g.e.seq)))

/-- DRAINING, ACTIVE and the drain map after a change of the drains (R193). -/
def State.gasSync (s : State) (d : Fin 40) : State :=
  let c := s.cd d
  let t := s.put (R.GAS_STATUS d) F.GAS_STATUS_DRAINING (c.drains.any (fun g => decide (g.released.length < g.granules.length))).toNat
  let t := t.put (R.GAS_STATUS d) F.GAS_STATUS_ACTIVE c.activeDrains.length
  (List.range 8).foldl (fun t i =>
    t.wr (R.GAS_DRAINMAP d i) (BitVec.ofNat 32 ((List.range 32).foldl (fun n b =>
      if c.covers ((32 * i + b) * 65536) then n + 2 ^ b else n) 0))) t

/-- The drain a GAS_DRAIN names, covering its granules from its dispatch (R184). -/
def State.coverDrain (s : State) (d : Fin 40) (e : UCmd) : State :=
  let c := s.cd d
  if c.drains.any (fun g => g.e.seq == e.seq) then s
  else
    let g : Drain := ⟨e, cbits e.w 33 16, cbits e.w 51 34 + 1, cbits e.w 63 52, cbits e.w 79 64, cbit e.w 80, false, [], []⟩
    (s.setCd d { c with drains := c.drains ++ [g] }).gasSync d

/-- The command at the GAS unit's FIFO head: GAS_ZERO writes +0 once no earlier drain covers its region; a GAS_DRAIN
becomes active when fewer than four are (R183, R184, R186). -/
def State.gasHead (s : State) (d : Fin 40) : State :=
  if (s.cd d).stopped[gasUnit] then s else
  match s.head? d gasUnit with
  | none => s
  | some e =>
    if opcodeOf e.w = 0x70 then
      let a := cbits e.w 33 16 * 64
      let n := (cbits e.w 51 34 + 1) * 64
      let c := s.cd d
      if { c with drains := c.drains.filter (fun g => decide (g.e.seq < e.seq)) }.coversRange a n then s
      else ((s.zeroRange (gasBase d + a) n).popHead d gasUnit).complete d e
    else
      let t := s.coverDrain d e
      if 4 ≤ (t.cd d).activeDrains.length then t else (t.popHead d gasUnit).gasSync d

/-- Drains that wait in the GAS unit's FIFO cover their granules (R184). -/
def State.coverWaiting (s : State) (d : Fin 40) : State :=
  (((s.cd d).fifo gasUnit).filter (fun e => opcodeOf e.w == 0x71)).foldl (fun t e => t.coverDrain d e) s

/-- A GAS command come to the unit, acted on where it stands at the head of the FIFO. -/
def State.gasEnter (s : State) (d : Fin 40) (q : Fin 4) (w : Cmd) : State :=
  let t := s.enter d gasUnit q w
  if t.2 then t.1.gasHead d else t.1.coverWaiting d

/-- GAS_ZERO (R183). -/
def execGasZero (d : Fin 40) (q : Fin 4) (w : Cmd) (s : State) : Out := .next (s.gasEnter d q w)
/-- GAS_DRAIN (R183-R186). -/
def execGasDrain (d : Fin 40) (q : Fin 4) (w : Cmd) (s : State) : Out := .next (s.gasEnter d q w)

/-- Whether two line ranges share a drain granule. -/
def granulesMeet (l1 n1 l2 n2 : Nat) : Bool :=
  decide (l1 / 1024 ≤ (l2 + n2 - 1) / 1024) && decide (l2 / 1024 ≤ (l1 + n1 - 1) / 1024)

/-- Whether a writer dispatched before a drain and touching its granules has not completed (R184). -/
def State.writerBefore (s : State) (d : Fin 40) (g : Drain) : Bool :=
  let c := s.cd d
  let mine := fun (a n : Nat) => let r := gasPart d a n; decide (0 < r.2) && granulesMeet (r.1 / 64) ((r.1 + r.2 + 63) / 64 - r.1 / 64) g.line g.len
  let meets := fun (a n : Nat) => granulesMeet (a / 64) ((n + 63) / 64) g.line g.len
  let pass := fun (p : Pass) => p.gas && decide (p.e.seq < g.e.seq) && meets p.daddr (512 * p.slots)
  let inFifo := fun (e : UCmd) => decide (e.seq < g.e.seq) &&
    ((decide (unitOf e.w < 4) && opcodeOf e.w == 2 && cbit e.w 98 && meets (cbits e.w 97 78 * 64) (512 * (cbits e.w 45 36 + 1))) ||
     (unitOf e.w == 7 && opcodeOf e.w == 0x70 && meets (cbits e.w 33 16 * 64) ((cbits e.w 51 34 + 1) * 64)) ||
     (unitOf e.w == 5 && (s.dmaPlan d e).any (fun t => t.1.dstRows.any (fun r => mine r.1 r.2))))
  let dma := fun (x : DmaCmd) => decide (x.e.seq < g.e.seq) &&
    (x.todo.dstRows.any (fun r => mine r.1 r.2) || x.out.any (fun p => mine p.dst p.len))
  c.arrays.toList.any (fun m => (m.feeding.toList ++ m.held.toList ++ m.issued ++ m.draining).any pass) ||
    c.fifos.toList.any (fun l => l.any inFifo) || c.dma.any dma

/-- GAS_DRAIN_START (R184, R186): the oldest active drain not started starts once every earlier writer of its granules
has completed and no earlier drain still covers one of them. -/
def execGasDrainStart (d : Fin 40) (s : State) : Out :=
  let c := s.cd d
  let ready := fun (g : Drain) => !s.dieOff d && !g.started && !s.writerBefore d g &&
    !(c.drains.any (fun x => decide (x.e.seq < g.e.seq) && granulesMeet x.line x.len g.line g.len))
  match c.activeDrains.find? ready with
  | none => .next s
  | some g =>
    .next (s.setCd d { c with drains := c.drains.map (fun x => if x.e.seq = g.e.seq then { x with started := true } else x) })

/-- Whether every line of a drain's region inside granule `gr` has been read. -/
def Drain.granuleRead (g : Drain) (gr : Nat) : Bool :=
  (List.range (g.len / 64)).all (fun p => (g.line + 64 * p) * 64 / 65536 != gr || g.read.contains p)

/-- Writes from the fabric that were held for a granule now released (R184). -/
def State.releaseHeld (s : State) (d : Fin 40) : State :=
  let c := s.cd d
  let free := fun (h : HeldWrite) => !c.coversWindow (h.addr - lsBase d) (match h.op with | .write bs => bs.length | _ => 8)
  let t := s.setCd d { c with held := c.held.filter (fun h => !free h) }
  (c.held.filter free).foldl (fun t h =>
    let r := t.storeApply h.addr h.op
    if r.2 then { r.1 with busErrs := r.1.busErrs ++ [(h.src, h.addr, 0)] } else r.1) t

/-- A drain that has released its last granule completes, and is out of the GAS unit's FIFO (R186, R187). -/
def State.drainDone (s : State) (d : Fin 40) (g : Drain) : State :=
  let c := s.cd d
  let c := c.setFifo gasUnit ((c.fifo gasUnit).filter (fun e => e.seq != g.e.seq))
  let t := s.setCd d { c with drains := c.drains.filter (fun x => x.e.seq != g.e.seq) }
  ((t.complete d g.e).gasSync d).releaseHeld d

/-- An aborted drain (R187): every granule is released, unread lines stay, DABORT is set, 0x4262 is raised, and the
drain completes. -/
def State.drainAbort (s : State) (d : Fin 40) (g : Drain) : State :=
  let t := s.put (R.GAS_STATUS d) F.GAS_STATUS_DABORT 1
  (t.raise 0x4262 d (some (t.cdCanton d)) (detail g.group g.opseq 0)).drainDone d g

/-- Whether the collective a drain feeds runs: its descriptor has been reached in the group's queue (R185). -/
def State.opRuns (s : State) (g opseq : Nat) : Bool := (s.grp g).any (fun x => x.ops.any (fun o => o.d.opseq == opseq))

/-- Whether the collective of an OPSEQ takes a region of `n` bytes (R314). -/
def State.opTakes (s : State) (g opseq n : Nat) : Bool :=
  (s.grp g).any (fun x => x.ops.any (fun o => o.d.opseq == opseq && o.d.drainBytes == n))

/-- Whether the group has aborted the collective of an OPSEQ, and runs it no more (R187). -/
def State.opAborted (s : State) (g opseq : Nat) : Bool :=
  !s.opRuns g opseq && (s.grp g).any (fun x => x.aborted.contains opseq)

/-- The first drain of a GROUP and an OPSEQ on a die, with its place among the die's drains. -/
def CDie.drainOf (c : CDie) (group opseq : Nat) : Option (Nat × Drain) :=
  (c.drains.findIdx? (fun g => g.group == group && g.opseq == opseq)).bind (fun i => c.drains[i]?.map (fun g => (i, g)))

/-- GAS_DRAIN_PIECE_READ (R185-R187): once the collective's descriptor has been reached, the drain engine reads a piece of
4 KiB the collective asks for, zeroes it under ZAFTER, and releases each granule whose lines are all read. A poisoned line
marks the piece. A drain whose collective has been aborted ends as R187 says. The drain is the first of its GROUP and OPSEQ. -/
def execGasDrainPieceRead (d : Fin 40) (group opseq piece : Nat) (s : State) : Out :=
  let c := s.cd d
  match c.drainOf group opseq with
  | none => .next s
  | some (drain, g) =>
    if s.dieOff d then .next s
    else if s.opAborted g.group g.opseq then .next (s.drainAbort d g)
    else if !g.started || !s.opTakes g.group g.opseq (g.len * 64) || decide (g.len / 64 ≤ piece) || g.read.contains piece then .next s
    else
      let a := gasBase d + (g.line + 64 * piece) * 64
      let bad := s.poisoned a 4096
      let out : DrainPiece := ⟨g.group, g.opseq, 4096 * piece, s.bytes a 4096, bad⟩
      let g := { g with read := piece :: g.read }
      let g := { g with released := g.granules.filter g.granuleRead }
      let t := s.setCd d { c with drains := c.drains.set drain g, sent := c.sent ++ [out] }
      let t := if bad then t.put (R.GAS_STATUS d) F.GAS_STATUS_DPOISON 1 else t
      let t := if g.zafter then t.zeroRange a 4096 else t
      if g.released.length = g.granules.length then .next (t.drainDone d g)
      else .next ((t.gasSync d).releaseHeld d)

end Sys2Proof.Machine
end

