-- ==== Sys2Proof/Machine/Sequencer.lean ====
section
/-! DEFINITION. The die sequencer: program queues, counters, pennants, SYNC commands and queue control
(05_compute_die_programs.md, R160-R173, R190, R191). -/
namespace Sys2Proof.Machine

/-! ### Queues -/

/-- STATE of a queue: 0 IDLE, 1 RUN, 2 WAIT, 3 PWAIT, 4 HALTED, 5 FAULT, 6 STOPPED (R193). -/
def State.qState (s : State) (d : Fin 40) (q : Fin 4) : Nat := s.get (R.SEQ_Q_STATUS d q) F.SEQ_Q_STATUS_STATE

/-- STATE set. -/
def State.setQState (s : State) (d : Fin 40) (q : Fin 4) (n : Nat) : State :=
  s.put (R.SEQ_Q_STATUS d q) F.SEQ_Q_STATUS_STATE n

/-- Queue q beside its registers. -/
def State.que (s : State) (d : Fin 40) (q : Fin 4) : QueueState := (s.cd d).queues[q]

/-- Queue q replaced. -/
def State.setQue (s : State) (d : Fin 40) (q : Fin 4) (x : QueueState) : State :=
  s.setCd d { s.cd d with queues := (s.cd d).queues.set q x }

/-- HEAD and TAIL. -/
def State.qHead (s : State) (d : Fin 40) (q : Fin 4) : Nat := s.get (R.SEQ_Q_HEAD d q) F.SEQ_Q_HEAD_INDEX
/-- TAIL. -/
def State.qTail (s : State) (d : Fin 40) (q : Fin 4) : Nat := s.get (R.SEQ_Q_TAIL d q) F.SEQ_Q_TAIL_INDEX
/-- Ring entries, 2^SIZE. -/
def State.qSize (s : State) (d : Fin 40) (q : Fin 4) : Nat := 2 ^ s.get (R.SEQ_Q_SIZE d q) F.SEQ_Q_SIZE_LOG2
/-- MPA of the ring. -/
def State.qBase (s : State) (d : Fin 40) (q : Fin 4) : Nat :=
  (s.rd (R.SEQ_Q_BASE_LO d q)).toNat / 4096 * 4096 + s.get (R.SEQ_Q_BASE_HI d q) F.SEQ_Q_BASE_HI_ADDR * 2 ^ 32

/-- DEPTH and EMPTY follow the call stack, HEAD and TAIL. -/
def State.qSync (s : State) (d : Fin 40) (q : Fin 4) : State :=
  let n := (s.que d q).stack.length
  let t := s.put (R.SEQ_Q_STATUS d q) F.SEQ_Q_STATUS_DEPTH n
  t.put (R.SEQ_Q_STATUS d q) F.SEQ_Q_STATUS_EMPTY (decide (s.qHead d q = s.qTail d q) && n == 0).toNat

/-- Address, place and depth of the command a queue comes to next: of the innermost call block, or of the ring; none
for an empty queue. -/
def State.nextAt (s : State) (d : Fin 40) (q : Fin 4) : Option (Nat × Nat × Nat) :=
  match (s.que d q).stack with
  | f :: _ => some (f.addr, f.pos, (s.que d q).stack.length)
  | [] =>
    if s.qHead d q = s.qTail d q then none
    else some (s.qBase d q + 16 * (s.qHead d q % s.qSize d q), s.qHead d q, 0)

/-- The command word at an MPA. -/
def State.cmdAt (s : State) (a : Nat) : Cmd := BitVec.ofNat 128 (s.num a 16)

/-- Call blocks that have run out, dropped. -/
def dropDone : List Frame → List Frame
  | [] => []
  | f :: fs => if f.left = 0 then dropDone fs else f :: fs

/-- A queue moved past its next command; a block stays on the stack until it is left. -/
def State.pass (s : State) (d : Fin 40) (q : Fin 4) : State :=
  let x := s.que d q
  match x.stack with
  | f :: fs => s.setQue d q { x with stack := { f with addr := f.addr + 16, left := f.left - 1, pos := f.pos + 1 } :: fs }
  | [] => s.put (R.SEQ_Q_HEAD d q) F.SEQ_Q_HEAD_INDEX (s.qHead d q + 1)

/-- A queue moved past its next command, out of the blocks that have run out. -/
def State.advance (s : State) (d : Fin 40) (q : Fin 4) : State :=
  let t := s.pass d q
  (t.setQue d q { t.que d q with stack := dropDone (t.que d q).stack }).qSync d q

/-- A fault found at the head of a queue (R191): the command stays there. -/
def State.headFault (s : State) (d : Fin 40) (q : Fin 4) (w : Cmd) (code idx depth : Nat) : State :=
  s.queueFault d q code (unitOf w) (opcodeOf w) depth idx

/-- Whether a read by the die meets a poisoned line of a store or a poisoned range of DRAM (R180, R257). -/
def State.badRead (s : State) (a n : Nat) : Bool := if inDram a then s.dramPoisoned a n else s.poisoned a n

/-! ### SYNC commands (R166-R173) -/

/-- The SYNC command as an entry that signals (R164). -/
def asCmd (q : Fin 4) (w : Cmd) (idx depth : Nat) : UCmd := ⟨q, w, idx, depth, 0, false⟩

/-- A counter's value. -/
def State.ctr (s : State) (d : Fin 40) (c : Nat) : Nat := s.get (R.SEQ_CTR d c) F.SEQ_CTR_VALUE

/-- Whether a wait on a counter is satisfied (R167). -/
def State.waitMet (s : State) (d : Fin 40) (w : Cmd) : Bool :=
  decide ((s.ctr d (cbits w 23 16) + 2 ^ 16 - cbits w 39 24) % 2 ^ 16 < 2 ^ 15)

/-- The pennant address of SYNC_PWAIT and SYNC_PSIGNAL. -/
def State.pennantAt (s : State) (d : Fin 40) (q : Fin 4) (w : Cmd) : Nat :=
  s.relocate d q (cbits w 60 16) 8 (cbits w 63 61)

/-- Whether a pennant is at its threshold (R169). -/
def State.pennantMet (s : State) (d : Fin 40) (q : Fin 4) (w : Cmd) : Bool :=
  decide (cbits w 111 64 ≤ s.num (s.pennantAt d q w) 8)

/-- An increment of counter c that arrives in the next cycle (R166). -/
def State.ctrDue (s : State) (d : Fin 40) (c n : Nat) : State :=
  s.setCd d { s.cd d with due := (s.cd d).due ++ [(s.aclk + 1, c, n)] }

/-- A queue that goes on past the SYNC command it waited at. -/
def State.proceed (s : State) (d : Fin 40) (q : Fin 4) (w : Cmd) (idx depth : Nat) : State :=
  let t := s.setQue d q { s.que d q with wait := none, barked := false }
  ((t.setQState d q 1).complete d (asCmd q w idx depth)).advance d q

/-- A queue that waits at a SYNC command. -/
def State.hold (s : State) (d : Fin 40) (q : Fin 4) (w : Cmd) (st : Nat) : State :=
  (s.setQue d q { s.que d q with wait := some w, since := s.aclk, polled := s.aclk, barked := false }).setQState d q st

/-- SYNC_PSIGNAL with its address resolved (R172): a retry adds at the same place. -/
def resolved (w : Cmd) (a : Nat) : Cmd := BitVec.ofNat 128 (w.toNat % 2 ^ 16 + a / 8 % 2 ^ 45 * 2 ^ 16 + w.toNat / 2 ^ 64 * 2 ^ 64)

/-- A pennant addition of SYNC_PSIGNAL sent to the seal engine that owns its DRAM (R169). -/
def State.psigSend (s : State) (d : Fin 40) (e : UCmd) (a : Nat) : State :=
  let t := s.newReq.forward d (.add (BitVec.ofNat 64 (cbits e.w 79 64))) a
  t.setCd d { t.cd d with psig := (t.cd d).psig ++ [({ e with w := resolved e.w a }, t.reqNo)] }

/-- A SYNC command executed by its queue (R162, R171-R173). -/
def State.syncExec (s : State) (d : Fin 40) (q : Fin 4) (w : Cmd) (idx depth : Nat) : State :=
  let op := opcodeOf w
  let e := asCmd q w idx depth
  if op = 0x60 then
    if s.waitMet d w then s.proceed d q w idx depth
    else (s.hold d q w 2).put (R.SEQ_Q_STATUS d q) F.SEQ_Q_STATUS_WCTR (cbits w 23 16)
  else if op = 0x61 then ((s.ctrDue d (cbits w 23 16) (cbits w 39 24)).complete d e).advance d q
  else if op = 0x62 ∨ op = 0x63 then
    let a := s.pennantAt d q w
    match s.check (asReq d) (op = 0x63) a with
    | .busError cat =>
      (s.raiseCat cat d 28 (some (s.cdCanton d)) (detail 0 0 a)).headFault d q w 6 idx depth
    | .ok =>
      if s.badRead a 8 && (op == 0x62 || !inDram a) then s.headFault d q w 7 idx depth
      else if op = 0x62 then (if s.pennantMet d q w then s.proceed d q w idx depth else s.hold d q w 3)
      else if inDram a then (s.psigSend d e a).advance d q
      else ((s.mpaAdd d a (cbits w 79 64)).complete d e).advance d q
  else if op = 0x64 then
    let x := s.que d q
    let t := s.setQue d q { x with bases := x.bases.setIfInBounds (cbits w 18 16) (BitVec.ofNat 42 (cbits w 60 19)) }
    (t.complete d e).advance d q
  else if op = 0x65 then
    let a := s.relocate d q (cbits w 59 16) 16 (cbits w 62 60)
    let t := s.pass d q
    let x := t.que d q
    (t.setQue d q { x with stack := ⟨a, cbits w 78 63 + 1, 0⟩ :: x.stack }).qSync d q
  else
    let t := ((s.complete d e).advance d q).setQState d q 4
    t.setCd d { t.cd d with coreIrq := true }

/-- A SYNC command that has come to the head of queue q of die d: checked (R190) and executed. Nothing happens where
the queue does not run, another command stands at its head, or the die is in reset or its clocks stand (R192). -/
def State.syncHead (s : State) (d : Fin 40) (q : Fin 4) (w : Cmd) : State :=
  match s.nextAt d q with
  | none => s
  | some (a, idx, depth) =>
    if s.dieOff d = true ∨ s.qState d q ≠ 1 ∨ s.cmdAt a ≠ w then s
    else match s.headCause d w depth with
      | some c => s.headFault d q w c idx depth
      | none => s.syncExec d q w idx depth

/-- SYNC_WAIT (R171, R167). -/
def execSyncWait (d : Fin 40) (q : Fin 4) (w : Cmd) (s : State) : Out := .next (s.syncHead d q w)
/-- SYNC_SIGNAL (R171, R166). -/
def execSyncSignal (d : Fin 40) (q : Fin 4) (w : Cmd) (s : State) : Out := .next (s.syncHead d q w)
/-- SYNC_PWAIT (R169). -/
def execSyncPwait (d : Fin 40) (q : Fin 4) (w : Cmd) (s : State) : Out := .next (s.syncHead d q w)
/-- SYNC_PSIGNAL (R169). -/
def execSyncPsignal (d : Fin 40) (q : Fin 4) (w : Cmd) (s : State) : Out := .next (s.syncHead d q w)
/-- SYNC_SETBASE (R172). -/
def execSyncSetbase (d : Fin 40) (q : Fin 4) (w : Cmd) (s : State) : Out := .next (s.syncHead d q w)
/-- SYNC_CALL (R173). -/
def execSyncCall (d : Fin 40) (q : Fin 4) (w : Cmd) (s : State) : Out := .next (s.syncHead d q w)
/-- SYNC_HALT (R173). -/
def execSyncHalt (d : Fin 40) (q : Fin 4) (w : Cmd) (s : State) : Out := .next (s.syncHead d q w)

/-- Place and depth of the command a waiting queue stands at. -/
def State.waitPlace (s : State) (d : Fin 40) (q : Fin 4) : Nat × Nat :=
  match s.nextAt d q with
  | some (_, i, n) => (i, n)
  | none => (0, 0)

/-- SYNC_WAIT_SATISFIED (R167): a queue in WAIT whose counter has reached its threshold proceeds. -/
def execSyncWaitSatisfied (d : Fin 40) (q : Fin 4) (s : State) : Out :=
  match (s.que d q).wait with
  | some w =>
    if s.dieOff d = false ∧ s.qState d q = 2 ∧ s.waitMet d w = true then
      .next (s.proceed d q w (s.waitPlace d q).1 (s.waitPlace d q).2)
    else .next s
  | none => .next s

/-- Whether a pennant lies in the die's own local store. -/
def ownPennant (d : Fin 40) (a : Nat) : Bool := decide (lsBase d ≤ a) && decide (a < lsBase d + lsBytes)

/-- ACLK cycles between two readings of a remote pennant (R169). -/
def State.pollCycles (s : State) (d : Fin 40) : Nat :=
  let p := s.get (R.SEQ_CFG d) F.SEQ_CFG_PPOLL
  16 * (if p = 0 then 16 else p)

/-- PENNANT_POLL (R169): a queue in PWAIT examines its pennant again, a remote one no sooner than 16 × PPOLL cycles
after the last examination; it proceeds when the threshold is met. -/
def execPennantPoll (d : Fin 40) (poll : QueueRead) (s : State) : Out :=
  let q := poll.queue
  match (s.que d q).wait with
  | some w =>
    let a := s.pennantAt d q w
    if s.dieOff d = true ∨ s.qState d q ≠ 3 then .next s
    else if ownPennant d a = false ∧ s.aclk < (s.que d q).polled + s.pollCycles d then .next s
    else
      let p := s.waitPlace d q
      match s.check (asReq d) false a with
      | .busError cat =>
        .next ((s.raiseCat cat d 28 (some (s.cdCanton d)) (detail 0 0 a)).headFault d q w 6 p.1 p.2)
      | .ok =>
        if poll.res = .refused then .next (s.headFault d q w 6 p.1 p.2)
        else if s.badRead a 8 || poll.res == .poisoned then .next (s.headFault d q w 7 p.1 p.2)
        else if s.pennantMet d q w then .next (s.proceed d q w p.1 p.2)
        else .next (s.setQue d q { s.que d q with polled := s.aclk })
  | none => .next s

/-- SEQ_WAIT_WATCHDOG (R170): a wait of WDOG × 1,024 cycles raises 0x4067 once and goes on. -/
def execSeqWaitWatchdog (d : Fin 40) (q : Fin 4) (s : State) : Out :=
  let x := s.que d q
  let n := s.get (R.SEQ_CFG d) F.SEQ_CFG_WDOG
  let waits := s.qState d q = 2 ∨ s.qState d q = 3
  if s.dieOff d = false ∧ waits ∧ n ≠ 0 ∧ x.barked = false ∧ x.since + n * 1024 ≤ s.aclk then
    let t := s.setQue d q { x with barked := true }
    .next (t.raise 0x4067 d (some (t.cdCanton d)) (detail q 0 0))
  else .next s

/-! ### Dispatch (R160-R165) -/

/-- TAIL set (R160, R161): it exposes new commands; an overrun puts the queue into FAULT with 0x8. -/
def State.queueTail (s : State) (d : Fin 40) (q : Fin 4) (tail : Nat) : State :=
  if s.dieOff d then s else
  let h := s.qHead d q
  let t := (s.put (R.SEQ_Q_TAIL d q) F.SEQ_Q_TAIL_INDEX tail).qSync d q
  if s.qSize d q < (tail + 2 ^ 16 - h) % 2 ^ 16 then t.headFault d q 0 8 h (s.que d q).stack.length else t

/-- The unit a running queue offers a command to; none where it offers none. -/
def State.offers (s : State) (d : Fin 40) (q : Fin 4) : Option Nat :=
  if s.qState d q ≠ 1 then none
  else (s.nextAt d q).map (fun p => unitOf (s.cmdAt p.1))

/-- Whether another queue's offer to the unit comes first in the rotation (R162). -/
def State.yields (s : State) (d : Fin 40) (q : Fin 4) (u : Fin 8) : Bool :=
  let last := ((s.cd d).lastTook[u]).val
  let turn := fun (x : Nat) => (x + 3 - last) % 4
  ([0, 1, 2, 3] : List (Fin 4)).any (fun x => x != q && decide (turn x.val < turn q.val) && s.offers d x == some u.val)

/-- SEQ_DISPATCH (R162): a running queue fetches the command at its head and dispatches it to a unit FIFO with room,
executes it where it is a SYNC command, or faults it at the head (R190, R191). -/
def execSeqDispatch (d : Fin 40) (fetch : QueueRead) (s : State) : Out :=
  let q := fetch.queue
  if s.dieOff d = true ∨ s.qState d q ≠ 1 then .next s else
  match s.nextAt d q with
  | none => .next s
  | some (a, idx, depth) =>
    match s.check (asReq d) false a with
    | .busError cat =>
      .next ((s.raiseCat cat d 28 (some (s.cdCanton d)) (detail 0 0 a)).headFault d q 0 6 idx depth)
    | .ok =>
      if fetch.res = .refused then .next (s.headFault d q 0 6 idx depth)
      else if s.badRead a 16 || fetch.res == .poisoned then .next (s.headFault d q 0 7 idx depth)
      else
        let w := s.cmdAt a
        match s.headCause d w depth with
        | some c => .next (s.headFault d q w c idx depth)
        | none =>
          if h : unitOf w < 8 then
            let u : Fin 8 := ⟨unitOf w, h⟩
            if u = 6 then .next (s.syncExec d q w idx depth)
            else if 16 ≤ ((s.cd d).fifo u).length ∨ s.yields d q u = true then .next s
            else
              let c := s.cd d
              let e : UCmd := ⟨q, w, idx, depth, c.seq, false⟩
              let c' := { c.setFifo u (c.fifo u ++ [e]) with seq := c.seq + 1, lastTook := c.lastTook.set u q }
              let t := (s.setCd d c').advance d q
              .next (if u = 7 ∧ opcodeOf w = 0x71 then t.coverDrain d e else t)
          else .next s

/-- Increments of a list summed into the counters (R166). -/
def State.addCtrs (s : State) (d : Fin 40) (l : List (Nat × Nat × Nat)) : State :=
  l.foldl (fun t x => t.put (R.SEQ_CTR d x.2.1) F.SEQ_CTR_VALUE (t.ctr d x.2.1 + x.2.2)) s

/-- Pennant additions that their DRAM has acknowledged, now complete (R165). One that met a bus error faults its queue with
code 0x6 or 0x7 and waits there for RESUME (R191; the model's choice, log 125): HEAD has moved past it by then (R162). -/
def State.settlePsig (s : State) (d : Fin 40) : State :=
  let done := (s.cd d).psig.filter (fun p => !s.reqWaits p.2)
  let t := s.setCd d { s.cd d with psig := (s.cd d).psig.filter (fun p => s.reqWaits p.2) }
  done.foldl (fun t p =>
    if s.reqErred p.2 then
      let t := (t.dropErrs p.2).setQue d p.1.q { t.que d p.1.q with back := (t.que d p.1.q).back ++ [p.1] }
      t.queueFault d p.1.q 7 6 (opcodeOf p.1.w) p.1.depth p.1.idx
    else t.complete d p.1) t

/-- SEQ_COMPLETION_SIGNAL (R164-R166): the increments that have arrived are summed into their counters; those of this very
cycle stay known, for a write in it. -/
def execSeqCompletionSignal (d : Fin 40) (s : State) : Out :=
  if s.dieOff d then .next s else
  let c := s.cd d
  let now := c.due.filter (fun x => decide (x.1 ≤ s.aclk))
  let came := (c.came ++ now).filter (fun x => x.1 == s.aclk)
  let t := s.setCd d { c with due := c.due.filter (fun x => !decide (x.1 ≤ s.aclk)), came := came }
  .next ((t.addCtrs d now).settlePsig d)

/-- SEQ_CTR_WRITE (R166): the value replaces what earlier increments made of the counter; it takes effect before the
increments that arrive in this cycle, which are added to it. -/
def execSeqCtrWrite (d : Fin 40) (c : Fin 256) (value : BitVec 16) (s : State) : Out :=
  if s.dieOff d then .next s else
  let x := s.cd d
  let mine := fun (x : Nat × Nat × Nat) => decide (x.1 ≤ s.aclk) && x.2.1 == c.val
  let came := (x.came ++ x.due.filter mine).filter (fun x => x.1 == s.aclk)
  let t := s.setCd d { x with due := x.due.filter (fun x => !mine x), came := came }
  .next ((t.put (R.SEQ_CTR d c) F.SEQ_CTR_VALUE value.toNat).addCtrs d (came.filter mine))

/-- SEQ_CTR_INC (R166): the addition arrives in the next cycle. -/
def execSeqCtrInc (d : Fin 40) (c : Fin 256) (inc : BitVec 16) (s : State) : Out :=
  .next (if s.dieOff d then s else s.ctrDue d c inc.toNat)

/-! ### Queue control (R191) -/

/-- START: IDLE, HALTED or STOPPED to RUN, where the canton takes work (R418, R528). -/
def State.queueStart (s : State) (d : Fin 40) (q : Fin 4) : State :=
  let st := s.qState d q
  if (st = 0 ∨ st = 4 ∨ st = 6) ∧ s.takesWork (s.cdCanton d) = true then s.setQState d q 1 else s

/-- STOP: RUN, WAIT or PWAIT to STOPPED; a wait is abandoned and stays at the head. -/
def State.queueStop (s : State) (d : Fin 40) (q : Fin 4) : State :=
  let st := s.qState d q
  if st = 1 ∨ st = 2 ∨ st = 3 then (s.setQue d q { s.que d q with wait := none }).setQState d q 6 else s

/-- Whether a unit is stopped by the fault of some queue of the die. -/
def CDie.heldUnit (c : CDie) (u : Fin 8) : Bool := c.queues.toList.any (fun x => x.funit.any (fun f => f.1 == u))

/-- One command that a unit held for a queue's fault: retried, or discarded. -/
def State.restartUnit (s : State) (d : Fin 40) (skip : Bool) (f : Fin 8 × Nat) : State :=
  let t := if (s.cd d).heldUnit f.1 then s else s.setCd d { s.cd d with stopped := (s.cd d).stopped.set f.1 false }
  if h : f.1.val < 4 then (if skip then t.maSkip d ⟨f.1.val, h⟩ f.2 else t.maResume d ⟨f.1.val, h⟩ f.2)
  else if skip then t.dropSeq d f.1 f.2 else t

/-- What a queue's faults held, retried or discarded (R191): the commands at the heads of unit FIFOs, pennant additions that
met an error, else with SKIP the command at the head of the queue. -/
def State.restart (s : State) (d : Fin 40) (q : Fin 4) (skip : Bool) : State :=
  let x := s.que d q
  let t := s.setQue d q { x with funit := [], back := [], fcode := 0 }
  if x.funit.isEmpty && x.back.isEmpty then (if skip then t.advance d q else t)
  else
    let t := x.funit.foldl (fun t f => t.restartUnit d skip f) t
    if skip then t else x.back.foldl (fun t e => t.psigSend d e (cbits e.w 60 16 * 8)) t

/-- RESUME, with or without SKIP: FAULT to RUN; no effect for fault code 0x8. -/
def State.queueResume (s : State) (d : Fin 40) (q : Fin 4) (skip : Bool) : State :=
  if s.qState d q = 5 ∧ (s.que d q).fcode ≠ 8 then (s.restart d q skip).setQState d q 1 else s

/-- Commands of queue q that wait in unit FIFOs, discarded, with the drains they had covered granules for. -/
def CDie.dropQueued (c : CDie) (q : Fin 4) : CDie :=
  let gone := (c.fifo gasUnit).filter (fun e => e.q == q)
  { c with
    fifos := c.fifos.map (fun l => l.filter (fun e => e.q != q)),
    drains := c.drains.filter (fun g => !(gone.any (fun e => e.seq == g.e.seq))) }

/-- ABORT: IDLE from any state; HEAD becomes TAIL, the call stack is cleared, a wait is cancelled, commands that have not
begun and stopped commands are discarded, a unit this queue stopped goes on, writes held for a drain that is gone are
made. -/
def State.queueAbort (s : State) (d : Fin 40) (q : Fin 4) : State :=
  let x := s.que d q
  let held := (s.head? d 4).any (fun e => e.q == q)
  let t := s.setQue d q { x with stack := [], wait := none, funit := [], back := [], fcode := 0 }
  let t := x.funit.foldl (fun t f => t.restartUnit d true f) t
  let t := t.setCd d ((t.cd d).dropQueued q)
  let t := if held then t.put (R.VE_STATUS d) F.VE_STATUS_SRHOLD 0 else t
  let t := (t.put (R.SEQ_Q_HEAD d q) F.SEQ_Q_HEAD_INDEX (t.qTail d q)).setQState d q 0
  ((t.qSync d q).gasSync d).releaseHeld d

/-- A write of SEQ_Qq_CTL (R191, R193): ABORT alone acts where it is set; else RESUME (with SKIP), STOP and START act in
this order. A die in reset takes none, nor one whose clocks stand (R192). -/
def State.queueCtl (s : State) (d : Fin 40) (q : Fin 4) (bits : BitVec 5) : State :=
  if s.dieOff d then s
  else if bits.getLsbD 4 then s.queueAbort d q
  else
    let t := if bits.getLsbD 2 then s.queueResume d q (bits.getLsbD 3) else s
    let t := if bits.getLsbD 1 then t.queueStop d q else t
    if bits.getLsbD 0 then t.queueStart d q else t

/-- QUEUE_START (R191): a write of CTL with START. -/
def execQueueStart (d : Fin 40) (write : CtlWrite) (s : State) : Out := .next (s.queueCtl d write.queue (write.also ||| 1))

/-- QUEUE_STOP. -/
def execQueueStop (d : Fin 40) (write : CtlWrite) (s : State) : Out := .next (s.queueCtl d write.queue (write.also ||| 2))

/-- QUEUE_RESUME: with SKIP among the other bits, as QUEUE_RESUME_SKIP. -/
def execQueueResume (d : Fin 40) (write : CtlWrite) (s : State) : Out := .next (s.queueCtl d write.queue (write.also ||| 4))

/-- QUEUE_RESUME_SKIP. -/
def execQueueResumeSkip (d : Fin 40) (write : CtlWrite) (s : State) : Out := .next (s.queueCtl d write.queue (write.also ||| 12))

/-- QUEUE_ABORT. -/
def execQueueAbort (d : Fin 40) (write : CtlWrite) (s : State) : Out := .next (s.queueCtl d write.queue (write.also ||| 16))

end Sys2Proof.Machine
end

