-- ==== Sys2Proof/Machine/Group.lean ====
section
/-! DEFINITION. Groups, communication queues and in-fabric reduction (09_collectives.md, R304-R334). -/
namespace Sys2Proof.Machine

/-! ### Groups -/

/-- The context of group g dropped. -/
def State.dropGrp (s : State) (g : Nat) : State := { s with groups := s.groups.filter (fun y => y.1 != g) }
/-- STATE of a group: 0 FREE, 1 READY, 2 ACTIVE, 3 STALLED, 4 ABORTED, 5 FAULT. -/
def State.gState (s : State) (g : Nat) : Nat := s.get (R.GC_STATUS g) F.GC_STATUS_STATE
/-- Whether a canton holds a group (R304). -/
def State.holds (s : State) (k g : Nat) : Bool := s.gState g != 0 && s.gCanton g == k
/-- The link die that serves a group's queue, as a die number. -/
def State.gDie (s : State) (g : Nat) : Nat := 56 + s.get (R.GC_QCTL g) F.GC_QCTL_QLD
/-- A group event (R333, R509): group, OPSEQ, the module named in GC_STALL. -/
def State.gEvent (s : State) (g code opseq : Nat) : State :=
  let named := if s.flag (R.GC_STALL g) F.GC_STALL_VALID then s.get (R.GC_STALL g) F.GC_STALL_MODULE else 0
  s.raise code (s.gDie g) (some (s.gCanton g)) (detail g opseq named)
/-- A group command that completed. -/
def State.gDone (s : State) (k : Nat) : State := s.put (R.GC_CMDSTAT k) F.GC_CMDSTAT_DONE 1
/-- A group command that was refused. -/
def State.gRefuse (s : State) (k : Nat) : State := s.put (R.GC_CMDSTAT k) F.GC_CMDSTAT_REFUSED 1
/-- Service cores of a canton interrupted. -/
def State.coresIrq (s : State) (k : Nat) : State :=
  (s.cantonCds k).foldl (fun t d => t.setCd (fin40 d) { t.cd (fin40 d) with coreIrq := true }) s

/-- INFLIGHT, HEAD and the READY or ACTIVE state brought up to the operations in progress. -/
def State.gSync (s : State) (g : Nat) : State :=
  match s.grp g with
  | none => s
  | some x =>
    let t := s.put (R.GC_STATUS g) F.GC_STATUS_INFLIGHT x.ops.length
    if s.gState g = 1 ∨ s.gState g = 2 then t.put (R.GC_STATUS g) F.GC_STATUS_STATE (if x.ops.isEmpty then 1 else 2) else t

/-- A group put into FAULT (R309, R311, R314): reason 4 DESC or 5 ACCESS, event 0x2233. -/
def State.gFault (s : State) (g reason opseq : Nat) : State :=
  ((s.put (R.GC_STATUS g) F.GC_STATUS_STATE 5).put (R.GC_STATUS g) F.GC_STATUS_REASON reason).gEvent g 0x2233 opseq

/-! ### Shape (R305, R308, R316) -/

/-- The shape of a group: algorithm AXIS, members, this member's index, and the extents of the box. -/
structure GShape where
  axis : Bool
  n : Nat
  me : Nat
  ext : Nat × Nat × Nat
  deriving DecidableEq, Repr

/-- The shape of a group from its registers. -/
def State.shape (s : State) (g : Nat) : GShape :=
  let e := s.get (R.GC_BOXE g) F.GC_BOXE_EXTENT
  ⟨s.flag (R.GC_CFG g) F.GC_CFG_ALG, s.get (R.GC_MEMB g) F.GC_MEMB_NM1 + 1, s.get (R.GC_MYIDX g) F.GC_MYIDX_INDEX,
   (bitsN e 6 0 + 1, bitsN e 13 7 + 1, bitsN e 20 14 + 1)⟩

/-- Coordinate of a member on the ring of a stage: its index under RING1, its box coordinate x, y or z under AXIS. -/
def GShape.coord (h : GShape) (stage j : Nat) : Nat :=
  if !h.axis then j
  else if stage = 0 then j / (h.ext.2.2 * h.ext.2.1)
  else if stage = 1 then j / h.ext.2.2 % h.ext.2.1
  else j % h.ext.2.2

/-- Length of the rings of a stage. -/
def GShape.ringLen (h : GShape) (stage : Nat) : Nat :=
  if !h.axis then (if stage = 0 then h.n else 1)
  else if stage = 0 then h.ext.1 else if stage = 1 then h.ext.2.1 else h.ext.2.2

/-- The stages with more than one member. -/
def GShape.stages (h : GShape) : List Nat := [0, 1, 2].filter (fun t => decide (1 < h.ringLen t))

/-- Module ID of box coordinate c on the ring of a stage through this member (R305, R353). -/
def State.moduleAt (s : State) (g : Nat) (h : GShape) (stage c : Nat) : Nat :=
  let o := s.get (R.GC_BOXO g) F.GC_BOXO_ORIGIN
  let co := fun (t : Nat) => if t = stage then c else h.coord t h.me
  let x := (bitsN o 6 0 + co 0) % max s.torusLen.1 1
  let y := (bitsN o 13 7 + co 1) % max s.torusLen.2.1 1
  let z := (bitsN o 20 14 + co 2) % max s.torusLen.2.2 1
  x + s.torusLen.1 * (y + s.torusLen.2.1 * z)

/-- The member after this one on ring u (even +, odd −), as a module ID. -/
def State.nextModule (s : State) (g : Nat) (h : GShape) (u : Nat) : Nat :=
  if !h.axis then
    (if u % 2 = 0 then s.get (R.GC_SUCC g) F.GC_SUCC_MODULE else s.get (R.GC_PRED g) F.GC_PRED_MODULE)
  else
    let r := h.ringLen (u / 2)
    s.moduleAt g h (u / 2) ((h.coord (u / 2) h.me + (if u % 2 = 0 then 1 else r - 1)) % r)

/-- The member before this one on ring u, as a module ID. -/
def State.prevModule (s : State) (g : Nat) (h : GShape) (u : Nat) : Nat := s.nextModule g h (if u % 2 = 0 then u + 1 else u - 1)

/-- Chunk size C (R308). -/
def GDesc.chunk (d : GDesc) (n : Nat) : Nat :=
  if d.op = 3 then d.len else if d.op = 0 ∨ d.op = 4 then (d.len + 64 * n - 1) / (64 * n) * 64 else d.len / n

/-- Offset and bytes of member j's chunk. -/
def GDesc.chunkOf (d : GDesc) (n j : Nat) : Nat × Nat :=
  if d.op = 3 then (if j = d.root then (0, d.len) else (0, 0))
  else
    let c := d.chunk n
    (j * c, min ((j + 1) * c) d.len - min (j * c) d.len)

/-- Offset and bytes of the half of member j's chunk that travels in a direction (R308). -/
def GDesc.halfOf (d : GDesc) (n j : Nat) (minus : Bool) : Nat × Nat :=
  let (off, size) := d.chunkOf n j
  let plus := (size / d.width + 1) / 2 * d.width
  if minus then (off + plus, size - plus) else (off, min plus size)

/-- The member whose chunk holds a byte of the data. -/
def GDesc.homeOf (d : GDesc) (n off : Nat) : Nat := if d.op = 3 then d.root else off / max (d.chunk n) 1

/-- The home coordinate of a part on the ring of a stage (R317: ROOT's for OP 4). -/
def GDesc.homeCoord (d : GDesc) (h : GShape) (stage off : Nat) : Nat :=
  h.coord stage (if d.op = 4 then d.root else d.homeOf h.n off)

/-- The half-chunks of the part that a byte belongs to at a stage, in member order (R316). -/
def GDesc.partRuns (d : GDesc) (h : GShape) (stage : Nat) (minus : Bool) (off : Nat) : List (Nat × Nat) :=
  let j := d.homeOf h.n off
  let mine := if !h.axis ∨ stage = 2 then [j]
    else (List.range h.n).filter (fun i => h.coord 0 i == h.coord 0 j && (stage == 0 || h.coord 1 i == h.coord 1 j))
  (mine.map (fun i => d.halfOf h.n i minus)).filter (fun r => r.2 != 0)

/-- `n` bytes of a list of ranges from byte `off` of the data on. -/
def sliceRuns (off n : Nat) : List (Nat × Nat) → List (Nat × Nat)
  | [] => []
  | r :: rs =>
    if r.1 ≤ off ∧ off < r.1 + r.2 then
      let k := min n (r.1 + r.2 - off)
      if k = n then [(off, k)]
      else match rs with
        | [] => [(off, k)]
        | q :: _ => (off, k) :: sliceRuns q.1 (n - k) rs
    else sliceRuns off n rs

/-- Bytes of a list of ranges. -/
def runBytes (l : List (Nat × Nat)) : Nat := l.foldl (fun n r => n + r.2) 0

/-- The direction in which a byte travels. -/
def GDesc.minusAt (d : GDesc) (h : GShape) (off : Nat) : Bool :=
  let r := d.halfOf h.n (d.homeOf h.n off) true
  decide (r.1 ≤ off) && r.2 != 0

/-! ### Descriptors (R309-R311) -/

/-- A descriptor from its bytes (R310). -/
def parseGDesc (b : List Byte) : GDesc :=
  let o := fieldAt b 2 1
  let k := fieldAt b 3 1
  let mpa := fun (x : Nat) => fieldAt b x 6
  let high := fieldAt b 14 2 != 0 || fieldAt b 30 2 != 0 || fieldAt b 38 2 != 0 || fieldAt b 62 2 != 0
  { opseq := fieldAt b 0 2, op := o % 16, red := o / 16 % 4, dtype := o / 64, opb := o, sk := k % 4, dk := k / 4 % 4,
    urgent := k.testBit 4, outer := k.testBit 5, len := fieldAt b 4 4, trig := mpa 8, tthresh := fieldAt b 16 8,
    src := mpa 24, dst := mpa 32, srcmap := fieldAt b 40 5, dstmap := fieldAt b 45 5, root := fieldAt b 50 3,
    done := mpa 56, doneinc := fieldAt b 64 2,
    spare := k / 64 != 0 || high || !zeroAt b 53 3 || !zeroAt b 66 14 || decide (2 ^ 17 ≤ fieldAt b 50 3) }

/-- The landing map at an MPA (R315), for data of `width` bytes an element: its runs; none where it breaks the layout. -/
def State.landMap (s : State) (a k width : Nat) : Option (List LandRun) :=
  let n := s.num a 4
  if n = 0 ∨ 65536 < n then none
  else
    let runs := (List.range n).map (fun i =>
      let b := s.bytes (a + 16 + 16 * i) 16
      (⟨fieldAt b 0 5, fieldAt b 5 3, fieldAt b 8 2, fieldAt b 10 1, fieldAt b 11 3, fieldAt b 14 2⟩ : LandRun))
    if runs.all (fun r => r.off % 4 == 0 && r.n != 0 && decide (r.shard < 16384) && decide (r.md < 16) &&
        s.colCanton (r.md % 8) == k) &&
       (runs.zip runs.tail).all (fun p => decide (p.1.off + width * p.1.n ≤ p.2.off)) then some runs else none

/-- Bytes of the operation's data that a landing run takes: its elements are FP32, or BF16 in the data (R315). -/
def LandRun.bytesIn (d : GDesc) (r : LandRun) : Nat := r.n * d.width

/-- Compute dies named by a map. -/
def mapDies (m : Nat) : List Nat := (List.range 40).filter (fun i => m.testBit i)

/-- Whether a checked descriptor may run (R311), beside its OPSEQ. -/
def State.descOk (s : State) (g : Nat) (d : GDesc) : Bool :=
  let h := s.shape g
  let k := s.gCanton g
  let inCanton := fun (m : Nat) => decide (m < 2 ^ 40) && (mapDies m).all (fun i => s.colCanton (i % 8) == k)
  let nop := d.op == 6
  !d.spare && decide (d.op ≤ 6) && d.red != 3 && decide (d.dtype < 2) && d.sk != 3 && d.dk != 3 &&
  d.trig % 8 == 0 && d.done % 8 == 0 && (nop || (decide (4 ≤ d.len) && decide (d.len ≤ 2 ^ 30))) &&
  (nop || d.op == 0 || d.op == 3 || d.op == 4 || d.len % (4 * h.n) == 0) && (nop || d.len % d.width == 0) &&
  (d.sk != 2 || (d.op == 0 || d.op == 1 || d.op == 4)) &&
  (d.sk != 1 || !(d.op == 2 || d.op == 3 || d.op == 5) || (mapDies d.srcmap).length == 1) &&
  (d.dk != 2 || (d.red == 0 && (d.op == 0 || d.op == 1) &&
    (match s.landMap d.dst k d.width with
      | none => false
      | some runs =>
        d.op == 0 ||
          (let c := d.chunkOf h.n h.me
           let inC := runs.filter (fun r => decide (r.off < c.1 + c.2) && decide (c.1 < r.off + r.bytesIn d))
           decide (c.2 ≤ inC.foldl (fun n r => n + (min (r.off + r.bytesIn d) (c.1 + c.2) - max r.off c.1)) 0))))) &&
  inCanton d.srcmap && inCanton d.dstmap && (d.sk == 0 || nop || d.srcmap != 0) && (d.dk != 1 || nop || d.dstmap != 0) &&
  (d.sk != 1 || nop || decide (d.src + d.len ≤ lsBytes)) && (d.dk != 1 || nop || decide (d.dst + d.len ≤ lsBytes)) &&
  (!(d.op == 3 || d.op == 4) || decide (d.root < h.n)) && (!d.urgent || decide (d.len ≤ 32))

/-- MPA of descriptor i of a group's queue (R309). -/
def State.descAt (s : State) (g i : Nat) : Nat :=
  s.base4k (R.GC_QBASE_LO g) (R.GC_QBASE_HI g) + 128 * (i % 2 ^ s.get (R.GC_QCTL g) F.GC_QCTL_SIZE)

/-- GROUP_TAIL_WRITE (R309, R334): TAIL posts descriptors; an overrun puts the group into FAULT with reason DESC. -/
def execGroupTailWrite (k : Fin 8) (g : Fin 4096) (tail : BitVec 16) (s : State) : Out :=
  if s.gState g ≠ 0 ∧ s.gCanton g ≠ k.val then .next s
  else
    let t := s.put (R.GC_QTAIL g) F.GC_QTAIL_INDEX tail.toNat
    let head := s.get (R.GC_QHEAD g) F.GC_QHEAD_INDEX
    if s.gState g ≠ 0 ∧ 2 ^ s.get (R.GC_QCTL g) F.GC_QCTL_SIZE < (tail.toNat + 2 ^ 16 - head) % 2 ^ 16 then .next (t.gFault g 4 0)
    else .next t

/-- A collective access that R28 refuses: its event from the group's link die, and the group's fault (R332). -/
def State.gRefused (s : State) (g opseq : Nat) (write : Bool) (l : List (Nat × Nat)) : State :=
  let r : Requester := .hdma ⟨s.gCanton g % 8, Nat.mod_lt _ (by decide)⟩
  let bad := l.findSome? (fun q => match s.checkRange r write q.1 q.2 with | .ok => none | .busError c => some (c, q.1))
  match bad with
  | some (c, a) => (s.raiseCat c (s.gDie g) 28 (some (s.gCanton g)) (detail 0 0 a)).gFault g 5 opseq
  | none => s.gFault g 5 opseq

/-- DESCRIPTOR_FETCH (R311): the queue link die checks the descriptor it has reached; one that breaks a rule puts the
group into FAULT with 0x2233. -/
def execDescriptorFetch (g : Fin 4096) (s : State) : Out :=
  match s.grp g with
  | none => .next s
  | some x =>
    if x.fetch = s.get (R.GC_QTAIL g) F.GC_QTAIL_INDEX ∨ 4 ≤ s.gState g then .next s
    else
      let a := s.descAt g x.fetch
      match s.checkRange (.hdma ⟨s.gCanton g % 8, Nat.mod_lt _ (by decide)⟩) false a 128 with
      | .busError _ => .next (s.gRefused g x.expect false [(a, 128)])
      | .ok =>
        let d := parseGDesc (s.bytes a 80)
        if s.descOk g d = false ∨ d.opseq ≠ x.expect then .next (s.gFault g 4 d.opseq)
        else
          .next (s.setGrp g { x with
            fetch := (x.fetch + 1) % 65536, expect := (x.expect + 1) % 65536, fetched := x.fetched ++ [(x.fetch, d)],
            finished := x.finished.filter (fun i => i != x.fetch) })

/-- TRIGGER_POLL (R312): the trigger pennant of the first descriptor not started is read every 16 × TPOLL cycles. -/
def execTriggerPoll (g : Fin 4096) (s : State) : Out :=
  match s.grp g with
  | none => .next s
  | some x =>
    match x.fetched with
    | [] => .next s
    | (_, d) :: _ =>
      let n := s.get (R.GC_QCTL g) F.GC_QCTL_TPOLL
      let gap := 16 * (if n = 0 then 256 else n) * 3
      if d.trig = 0 ∨ s.now < x.polledAt + gap then .next s
      else match s.checkRange (.hdma ⟨s.gCanton g % 8, Nat.mod_lt _ (by decide)⟩) false d.trig 8 with
        | .busError _ => .next (s.gRefused g d.opseq false [(d.trig, 8)])
        | .ok => .next (s.setGrp g { x with polledAt := s.now, fired := decide (d.tthresh ≤ s.num d.trig 8) })

/-! ### Lag (R326, R327) -/

/-- An operation replaced. -/
def Group.setOp (x : Group) (o : GOp) : Group := { x with ops := x.ops.map (fun p => if p.d.opseq = o.d.opseq then o else p) }

/-- Whether a byte range of the data has been combined on a ring. -/
def GOp.combinedAt (o : GOp) (u off : Nat) : Bool :=
  o.combined.any (fun c => c.1 == u && decide (c.2.1 ≤ off) && decide (off < c.2.1 + c.2.2))

/-- Bytes that the reduce leg brings to this member on ring u. -/
def GDesc.reduceBytes (d : GDesc) (h : GShape) (u : Nat) : Nat :=
  if d.copies ∨ d.op = 6 then 0
  else
    let t := u / 2
    let minus := u % 2 == 1
    let here := fun (j : Nat) => (List.range t).all (fun e => h.ringLen e ≤ 1 ||
      h.coord e h.me == h.coord e (if d.op = 4 then d.root else j))
    if h.stages.contains t then runBytes (((List.range h.n).filter here).map (fun j => d.halfOf h.n j minus)) else 0

/-- Bytes that an operation writes at this member's destinations. -/
def GDesc.writeBytes (d : GDesc) (h : GShape) : Nat :=
  if d.op = 6 then 0
  else if d.op = 1 then (d.chunkOf h.n h.me).2
  else if d.op = 4 then (if h.me = d.root then d.len else 0)
  else d.len

/-- Bytes combined on a ring. -/
def GOp.done (o : GOp) (u : Nat) : Nat := runBytes ((o.combined.filter (fun c => c.1 == u)).map (fun c => c.2))

/-- Drains that feed an operation (R183, R314). -/
def State.feeding (s : State) (g opseq : Nat) : List (Fin 40 × Drain) :=
  (List.range 40).flatMap (fun i => ((s.cd (fin40 i)).drains.filter (fun x => x.group == g && x.opseq == opseq)).map
    (fun x => (fin40 i, x)))

/-- A drain piece at a byte offset of its region. -/
def State.drainPiece (s : State) (d g opseq off : Nat) : Option DrainPiece :=
  (s.cd (fin40 d)).sent.find? (fun p => p.group == g && p.opseq == opseq && p.off == off / 4096 * 4096)

/-- The first compute die whose drain has not delivered what a combination at `off` needs; none where all have. -/
def State.lateSource (s : State) (g : Nat) (d : GDesc) (off : Nat) : Option Nat :=
  if d.sk ≠ 2 then none else (mapDies d.srcmap).find? (fun i => (s.drainPiece i g d.opseq off).isNone)

/-- Whether the reduction of a part on ring u starts at this member, so that nothing comes in for it (R317). -/
def GOp.startsPart (o : GOp) (h : GShape) (u off : Nat) : Bool :=
  let r := h.ringLen (u / 2)
  h.coord (u / 2) h.me == (o.d.homeCoord h (u / 2) off + (if u % 2 = 1 then r - 1 else 1)) % r

/-- The first half-chunk, by member and direction, of which a byte has not been written. -/
def GOp.unwritten (o : GOp) (h : GShape) : Option (Nat × Bool) :=
  ((List.range h.n).flatMap (fun j => [(j, false), (j, true)])).find? (fun p =>
    let r := o.d.halfOf h.n p.1 p.2
    decide (runBytes (o.written.filter (fun w => decide (r.1 ≤ w.1) && decide (w.1 < r.1 + r.2))) < r.2))

/-- What the oldest unfinished piece of the reduce leg on ring u waits for: 0-5 the upstream of a ring, 6 a local source
with its die, 7 handing on (R326); none where every piece is combined. -/
def State.ringCause (s : State) (g : Nat) (x : Group) (o : GOp) (u : Nat) : Option (Nat × Option Nat) :=
  let h := s.shape g
  if o.d.reduceBytes h u ≤ o.done u then none
  else
    let starts := ((List.range h.n).map (fun j => o.d.halfOf h.n j (u % 2 == 1))).filter (fun r => r.2 != 0)
    match starts.find? (fun r => !o.combinedAt u r.1) with
    | none => some (7, none)
    | some r =>
      match (if h.stages.head? = some (u / 2) then s.lateSource g o.d r.1 else none) with
      | some die => some (6, some die)
      | none =>
        let arrived := (x.rings[u % 7]'(Nat.mod_lt _ (by decide))).waiting.any (fun p => !p.gather && p.opseq == o.d.opseq && p.offset == r.1)
        some (if arrived || o.startsPart h u r.1 then 7 else u, none)

/-- What the oldest piece still to be delivered waits for, with the ring it travels on. -/
def State.deliverCause (s : State) (g : Nat) (x : Group) (o : GOp) : Nat × Option Nat × Nat :=
  let h := s.shape g
  match h.stages.getLast? with
  | none => (match s.lateSource g o.d (runBytes o.written) with | some die => (6, some die, 0) | none => (7, none, 0))
  | some t =>
    let piece := o.unwritten h
    let ring := 2 * t + (piece.any (fun p => p.2)).toNat
    if x.rings.toList.any (fun r => r.waiting.any (fun p => p.opseq == o.d.opseq)) then (7, none, ring)
    else if o.d.copies && piece.any (fun p => (if o.d.op = 3 then o.d.root else p.1) == h.me) then (6, none, ring)
    else (ring, none, ring)

/-- What the oldest unfinished piece of an operation waits for, its late die, and the ring of the piece (R326). -/
def State.lagCause (s : State) (g : Nat) (x : Group) (o : GOp) : Nat × Option Nat × Nat :=
  match (List.range 6).findSome? (fun u => (s.ringCause g x o u).map (fun c => (c.1, c.2, u))) with
  | some r => r
  | none =>
    if runBytes o.written < o.d.writeBytes (s.shape g) then s.deliverCause g x o
    else if x.rings.toList.any (fun r => r.unacked.any (fun p => p.2.opseq == o.d.opseq)) then (7, none, 0)
    else if !(s.feeding g o.d.opseq).isEmpty then (6, none, 0) else (7, none, 0)

/-- Whether an operation has a piece that is not finished at this member. -/
def State.unfinished (s : State) (g : Nat) (x : Group) (o : GOp) : Bool :=
  (List.range 6).any (fun u => (s.ringCause g x o u).isSome) || decide (runBytes o.written < o.d.writeBytes (s.shape g)) ||
  x.rings.toList.any (fun r => r.unacked.any (fun p => p.2.opseq == o.d.opseq))

/-- The operation that lag is charged for: the oldest with an unfinished piece, else the oldest (R326). -/
def State.lagOp (s : State) (g : Nat) (x : Group) : Option GOp := (x.ops.find? (s.unfinished g x)).or x.ops.head?

/-- A piece that waits in a slot for a descriptor not yet started, with its ring (R321, R327). -/
def Group.early (x : Group) : Option (Fin 7 × Piece) :=
  [0, 1, 2, 3, 4, 5, 6].findSome? (fun (u : Fin 7) =>
    (x.rings[u].waiting.find? (fun p => !x.ops.any (fun o => o.d.opseq == p.opseq))).map (fun p => (u, p)))

/-- The member that refuses a piece with NOCTX, as a module ID. -/
def Group.refusedBy (x : Group) : Option Nat :=
  x.rings.toList.findSome? (fun r => r.noctx.bind (fun n => (r.unacked.find? (fun p => p.2.psn == n)).map (fun p => p.1)))

/-- GC_SLOWEST written: the module, the die waited on, LOCAL (R327). -/
def State.nameSlowest (s : State) (g module die : Nat) (isLocal : Bool) : State :=
  s.wr (R.GC_SLOWEST g) (BitVec.ofNat 32 (module % 2 ^ 17 + 2 ^ 17 + die * 2 ^ 18 + (if isLocal then 2 ^ 24 else 0)))

/-- The lag counted up to now, and GC_SLOWEST named (R326, R327). A member that waits to hand a piece on, and is not refused
with NOCTX, names nobody. -/
def State.lagSync (s : State) (g : Nat) : State :=
  match s.grp g with
  | none => s
  | some x =>
    match s.lagOp g x with
    | none =>
      let t := s.setGrp g { x with lagAt := s.now }
      if x.early.isSome then t.nameSlowest g s.moduleId 0 true else t
    | some o =>
      let c := (s.lagCause g x o).1
      let cycles := (s.now - x.lagAt) / 3 + x.lagRest.getD c 0
      let reg := if c < 6 then R.GC_LAG c g else if c = 6 then R.GC_LAGLOC g else R.GC_LAGOUT g
      let t := s.bump reg F.GC_LAGLOC_COUNT (cycles / 64)
      let x' := { x with lagAt := s.now, lagRest := x.lagRest.setIfInBounds c (cycles % 64) }
      let t := t.setGrp g (x'.setOp { o with lag := o.lag + cycles / 64 })
      if c = 6 then t.nameSlowest g s.moduleId ((s.lagCause g x o).2.1.getD 0) true
      else if c = 7 then (match x.refusedBy with | some m => t.nameSlowest g m 0 false | none => t)
      else t.nameSlowest g ((x.rings[c % 7]'(Nat.mod_lt _ (by decide))).beacon.getD (s.prevModule g (s.shape g) c)) 0 false

/-- Slots holding a piece on link die l for a canton, and the largest number since CLEAR (R324, R334). -/
def State.slotSync (s : State) (k : Nat) : State :=
  (List.range 6).foldl (fun t l =>
    let now := t.groups.foldl (fun n x =>
      if t.gCanton x.1 = k ∧ t.isStaged x.1 = false then
        let r := x.2.rings[l % 7]'(Nat.mod_lt _ (by decide))
        n + r.waiting.length + r.unacked.length
      else n) 0
    let a := R.CL_BUSY l k
    let t := t.put a F.CL_BUSY_NOW now
    if t.countsStand (R.CL_PERF_CTL l k) = true ∨ now ≤ t.get a F.CL_BUSY_PEAK then t else t.put a F.CL_BUSY_PEAK now) s

/-- Everything kept beside the registers of a group brought up to date. -/
def State.gUpdate (s : State) (g : Nat) : State := ((s.lagSync g).gSync g).slotSync (s.gCanton g)

/-- Pieces forwarded or delivered counted on a link die. -/
def State.countPiece (s : State) (k l : Nat) : State :=
  if s.countsStand (R.CL_PERF_CTL l k) then s
  else s.add64 (R.CL_PERF_PIECES_LO l k) (R.CL_PERF_PIECES_HI l k) 1

/-! ### Commands (R304, R306, R323-R331) -/

/-- Free slots of a canton on link die l. -/
def State.freeSlots (s : State) (k l : Nat) : Nat := 1024 / s.cantons - s.get (R.CL_SLOTS l k) F.CL_SLOTS_CLAIMED

/-- Slots claimed or returned on all six link dies. -/
def State.claimSlots (s : State) (k g : Nat) (claim : Bool) : State :=
  let n := s.get (R.GC_SLOT g) F.GC_SLOT_NSLOT
  let t := (List.range 6).foldl (fun t l =>
    let c := t.get (R.CL_SLOTS l k) F.CL_SLOTS_CLAIMED
    t.put (R.CL_SLOTS l k) F.CL_SLOTS_CLAIMED (if claim then c + n else c - n)) s
  t.put (R.GC_SLOT g) F.GC_SLOT_GRANTED claim.toNat

/-- Groups of a canton in staged mode, counted in every CL_STAGEDGRP of the canton. -/
def State.stagedCount (s : State) (k : Nat) : State :=
  let n := (s.groups.filter (fun x => s.gCanton x.1 == k && s.flag (R.GC_STATUS x.1) F.GC_STATUS_STAGED)).length
  (List.range 6).foldl (fun t l => t.put (R.CL_STAGEDGRP l k) F.CL_STAGEDGRP_COUNT n) s

/-- The memory die of a group's staging granules. -/
def State.stageMd (s : State) (g : Nat) : Fin 16 := fin16 (s.get (R.GC_STAGE g) F.GC_STAGE_MD)

/-- The staging granules of a group returned (R325). -/
def State.returnGrans (s : State) (k g : Nat) : State :=
  match s.grp g with
  | none => s
  | some x =>
    let m := s.stageMd g
    let u := s.ue m
    let t := s.setUe m { u with stagedGrans := u.stagedGrans.filter (fun i => !x.grans.contains i) }
    let t := t.setGrp g { x with grans := [] }
    (t.put (R.GC_STATUS g) F.GC_STATUS_STAGED 0).stagedCount k

/-- Whether the box of an AXIS group fits the torus and holds this module, with this member's index (R305). -/
def State.boxIndex (s : State) (g : Nat) : Option Nat :=
  let h := s.shape g
  let o := s.get (R.GC_BOXO g) F.GC_BOXO_ORIGIN
  let (lx, ly, lz) := s.torusLen
  let rel := fun (me len orig : Nat) => (me + len - orig % max len 1) % max len 1
  let x := rel (s.moduleId % max lx 1) lx (bitsN o 6 0)
  let y := rel (s.moduleId / max lx 1 % max ly 1) ly (bitsN o 13 7)
  let z := rel (s.moduleId / (max lx 1 * max ly 1)) lz (bitsN o 20 14)
  if h.ext.1 ≤ lx ∧ h.ext.2.1 ≤ ly ∧ h.ext.2.2 ≤ lz ∧ x < h.ext.1 ∧ y < h.ext.2.1 ∧ z < h.ext.2.2
  then some (z + h.ext.2.2 * (y + h.ext.2.1 * x)) else none

/-- The counters and sequence numbers of a group zeroed, HEAD at TAIL, OPSEQ taken (R306, R330). -/
def State.gZero (s : State) (g : Nat) (grans : List Nat) : State :=
  let tail := s.get (R.GC_QTAIL g) F.GC_QTAIL_INDEX
  let t := s.put (R.GC_QHEAD g) F.GC_QHEAD_INDEX tail
  let t := t.zeroRegs (((List.range 6).map (fun u => R.GC_LAG u g)) ++ [R.GC_LAGLOC g, R.GC_LAGOUT g, R.GC_SLOWEST g])
  let t := t.put (R.GC_STATUS g) F.GC_STATUS_REASON 0
  let t := t.put (R.GC_STATUS g) F.GC_STATUS_STATE 1
  t.setGrp g { Group.reset with fetch := tail, expect := s.get (R.GC_STATUS g) F.GC_STATUS_OPSEQ, progressAt := s.now, lagAt := s.now, grans := grans }

/-- GROUP_CREATE (R304-R306, R323, R325): from FREE to READY with its slots claimed on all six link dies, or in staged
mode with granules of a landing buffer (0x2030); refused where neither is free, or another group holds the context. -/
def execGroupCreate (k : Fin 8) (g : Fin 4096) (s : State) : Out :=
  if s.gState g ≠ 0 ∨ s.takesWork k = false then .next (s.gRefuse k)
  else
    let axis := (s.shape g).axis
    let idx := if axis then s.boxIndex g else some (s.shape g).me
    match idx with
    | none => .next (s.gRefuse k)
    | some me =>
      let h := s.shape g
      let n := if axis then h.ext.1 * h.ext.2.1 * h.ext.2.2 else h.n
      let t := (s.put (R.GC_MEMB g) F.GC_MEMB_NM1 (n - 1)).put (R.GC_MYIDX g) F.GC_MYIDX_INDEX me
      let t := t.put (R.GC_CFG g) F.GC_CFG_CANTON k
      let need := s.get (R.GC_SLOT g) F.GC_SLOT_NSLOT
      let lack := (List.range 6).filter (fun l => decide (s.freeSlots k l < need))
      if lack.isEmpty then
        .next ((((t.gZero g []).claimSlots k g true).gDone k).gUpdate g)
      else
        let m := s.stageMd g
        match (s.ue m).freeGrans (s.get (R.GC_STAGE g) F.GC_STAGE_GRAN) with
        | none => .next (s.gRefuse k)
        | some gs =>
          if s.mdCanton m ≠ k.val then .next (s.gRefuse k)
          else
            let t := t.gZero g gs
            let t := t.setUe m { t.ue m with stagedGrans := (t.ue m).stagedGrans ++ gs }
            let t := t.put (R.GC_STATUS g) F.GC_STATUS_STAGED 1
            let t := lack.foldl (fun t l => t.bump (R.CL_REFUSED l k) F.CL_REFUSED_COUNT 1) t
            .next ((((t.stagedCount k).gEvent g 0x2030 (s.get (R.GC_STATUS g) F.GC_STATUS_OPSEQ)).gDone k).gUpdate g)

/-- GROUP_CLAIM (R325): a staged group that is READY with nothing in progress retries its claim. -/
def execGroupClaim (k : Fin 8) (g : Fin 4096) (s : State) : Out :=
  match s.grp g with
  | none => .next (s.gRefuse k)
  | some x =>
    if s.holds k g = false ∨ s.gState g ≠ 1 ∨ x.ops ≠ [] ∨ s.flag (R.GC_STATUS g) F.GC_STATUS_STAGED = false then .next (s.gRefuse k)
    else
      let lack := (List.range 6).filter (fun l => decide (s.freeSlots k l < s.get (R.GC_SLOT g) F.GC_SLOT_NSLOT))
      if lack.isEmpty then .next (((s.returnGrans k g).claimSlots k g true).gDone k)
      else .next ((lack.foldl (fun t l => t.bump (R.CL_REFUSED l k) F.CL_REFUSED_COUNT 1) s).gDone k)

/-- The unacknowledged pieces of chosen rings sent again, from the oldest PSN on (R329). -/
def State.resend (s : State) (g : Nat) (rings : List Nat) : State :=
  match s.grp g with
  | none => s
  | some x =>
    let again : List (Nat × Piece) := (x.rings.toList.zipIdx.filter (fun (r : GRing × Nat) => rings.contains r.2)).flatMap (fun (r : GRing × Nat) => r.1.unacked)
    if again.isEmpty then s
    else
      let t := { s with outbox := s.outbox ++ again.map (fun (p : Nat × Piece) => GMsg.piece p.1 p.2) }
      let x' := { x with rings := x.rings.map (fun (r : GRing) => { r with noctx := none }) }
      (t.setGrp g x').gEvent g 0x2131 ((again.head?.map (fun (p : Nat × Piece) => p.2.opseq)).getD 0)

/-- GROUP_RESUME (R329): STALLED is cleared, patience starts again, unacknowledged pieces are sent again. -/
def execGroupResume (k : Fin 8) (g : Fin 4096) (s : State) : Out :=
  match s.grp g with
  | none => .next (s.gRefuse k)
  | some x =>
    if s.holds k g = false ∨ 4 ≤ s.gState g then .next (s.gRefuse k)
    else
      let t := s.put (R.GC_STATUS g) F.GC_STATUS_STATE (if x.ops.isEmpty then 1 else 2)
      let t := (t.put (R.GC_STATUS g) F.GC_STATUS_REASON 0).setGrp g { x with progressAt := s.now }
      .next (((t.resend g (List.range 7)).gDone k).gUpdate g)

/-- STATUS and the other completion bytes of a descriptor, bytes 80-91 (R310, R313). -/
def completionBytes (status : Nat) (o : GOp) (slowest : Nat) : List Byte :=
  leBytes 1 status ++ leBytes 1 (o.inv.toNat + 2 * o.ovf.toNat) ++ leBytes 2 0 ++ leBytes 4 o.lag ++ leBytes 3 slowest ++ leBytes 1 0

/-- HEAD moved past the descriptors that have completed in order (R309). -/
def advanceHead (finished : List Nat) : Nat → Nat → Nat
  | 0, h => h
  | fuel + 1, h => if finished.contains h then advanceHead finished fuel ((h + 1) % 65536) else h

/-- Steps 1-4 of ABORT on some operations (R330): STATUS = 3, drains aborted, slots released, abort messages on every
ring. -/
def State.abortOps (s : State) (g : Nat) (opseqs : List Nat) : State :=
  match s.grp g with
  | none => s
  | some x =>
    let h := s.shape g
    let gone := x.ops.filter (fun o => opseqs.contains o.d.opseq)
    let slow := s.get (R.GC_SLOWEST g) F.GC_SLOWEST_MODULE
    let t := gone.foldl (fun t o => t.mpaWrite (s.gDie g) (s.descAt g o.idx + 80) (completionBytes 3 o slow)) s
    let t := gone.foldl (fun t o => (t.feeding g o.d.opseq).foldl (fun t p => t.drainAbort p.1 p.2) t) t
    let mine := fun (q : Nat) => opseqs.contains q
    let rings := x.rings.map (fun r =>
      { r with unacked := r.unacked.filter (fun p => !mine p.2.opseq), waiting := r.waiting.filter (fun p => !mine p.opseq) })
    let finished := x.finished ++ gone.map (fun o => o.idx)
    let head := advanceHead finished 65536 (t.get (R.GC_QHEAD g) F.GC_QHEAD_INDEX)
    let t := t.put (R.GC_QHEAD g) F.GC_QHEAD_INDEX head
    let t := t.setGrp g { x with ops := x.ops.filter (fun o => !mine o.d.opseq), rings := rings, aborted := x.aborted ++ opseqs, finished := finished }
    let target := (h.stages.flatMap (fun st => [2 * st, 2 * st + 1])).map (fun u => t.nextModule g h u)
    { t with outbox := t.outbox ++ target.map (fun m => GMsg.abort m g opseqs) }

/-- OPSEQs of the operations in progress. -/
def Group.running (x : Group) : List Nat := x.ops.map (fun o => o.d.opseq)

/-- GROUP_ABORT (R330): every operation in progress aborted; ABORTED, 0x2234. -/
def execGroupAbort (k : Fin 8) (g : Fin 4096) (s : State) : Out :=
  match s.grp g with
  | none => .next (s.gRefuse k)
  | some x =>
    if s.holds k g = false then .next (s.gRefuse k)
    else
      let t := (s.lagSync g).abortOps g x.running
      let t := (t.put (R.GC_STATUS g) F.GC_STATUS_STATE 4).gEvent g 0x2234 (x.running.headD 0)
      .next ((t.gDone k).gUpdate g)

/-- GROUP_RESET (R330): accepted in ABORTED, STALLED and FAULT; operations in progress aborted, HEAD at TAIL, READY. -/
def execGroupReset (k : Fin 8) (g : Fin 4096) (s : State) : Out :=
  match s.grp g with
  | none => .next (s.gRefuse k)
  | some x =>
    if s.holds k g = false ∨ s.gState g < 3 then .next (s.gRefuse k)
    else
      let t := s.abortOps g x.running
      let t := if x.ops.isEmpty then t else t.gEvent g 0x2234 (x.running.headD 0)
      .next (((t.gZero g x.grans).gDone k).gUpdate g)

/-- GROUP_FREE (R306): slots and staging granules released; only with no operation in progress. -/
def execGroupFree (k : Fin 8) (g : Fin 4096) (s : State) : Out :=
  match s.grp g with
  | none => .next (s.gRefuse k)
  | some x =>
    if s.holds k g = false ∨ x.ops ≠ [] then .next (s.gRefuse k)
    else
      let t := if s.flag (R.GC_SLOT g) F.GC_SLOT_GRANTED then s.claimSlots k g false else s
      let t := if s.flag (R.GC_STATUS g) F.GC_STATUS_STAGED then t.returnGrans k g else t
      let t := (t.put (R.GC_STATUS g) F.GC_STATUS_STATE 0).put (R.GC_STATUS g) F.GC_STATUS_INFLIGHT 0
      .next (((t.dropGrp g).slotSync k).gDone k)

/-! ### Starting and completing operations (R312, R313) -/

/-- A completed operation whose status has been written: DONEINC added to DONE, HEAD moved (R309, R313). -/
def State.finishOp (s : State) (g : Nat) (x : Group) (o : GOp) : State :=
  let t := if o.d.done = 0 then s else s.mpaAdd (s.gDie g) o.d.done o.d.doneinc
  let finished := x.finished ++ [o.idx]
  let head := advanceHead finished 65536 (t.get (R.GC_QHEAD g) F.GC_QHEAD_INDEX)
  let t := t.put (R.GC_QHEAD g) F.GC_QHEAD_INDEX head
  let t := t.setGrp g { x with ops := x.ops.filter (fun p => p.d.opseq != o.d.opseq), finished := finished, progressAt := t.now }
  -- pieces of the drains that fed it have been used up
  (List.range 40).foldl (fun t i =>
    let c := t.cd (fin40 i)
    if c.sent.any (fun p => p.group == g && p.opseq == o.d.opseq) then
      t.setCd (fin40 i) { c with sent := c.sent.filter (fun p => !(p.group == g && p.opseq == o.d.opseq)) }
    else t) t

/-- The service of an operation with nothing left to do (R313): bytes 80-91 of its descriptor are written; once that write
is acknowledged, DONE follows. -/
def State.endOp (s : State) (g : Nat) (x : Group) (o : GOp) : State :=
  match o.closing with
  | some id => if s.reqWaits id then s else s.finishOp g x o
  | none =>
    let slow := s.get (R.GC_SLOWEST g) F.GC_SLOWEST_MODULE
    let t := s.mpaWrite (s.gDie g) (s.descAt g o.idx + 80) (completionBytes (if o.poison then 2 else 1) o slow)
    if t.reqNo ≠ s.reqNo ∧ t.reqWaits t.reqNo = true then t.setGrp g (x.setOp { o with closing := some t.reqNo }) else t.finishOp g x o

/-- The number of a direct piece's sender, kept in the array behind DST (R320): where it stands. -/
def GDesc.psnAt (d : GDesc) (srcidx : Nat) : Nat :=
  (if d.dk = 1 then lsBase ((mapDies d.dstmap).headD 0) else 0) + d.dst + d.len + 4 * srcidx

/-- OPERATION_START (R312): the first descriptor not started starts when fewer than OUTS + 1 operations are in progress,
its trigger has been met, and the group is not STALLED, ABORTED or FAULT. A NOP completes at once. -/
def execOperationStart (g : Fin 4096) (s : State) : Out :=
  match s.grp g with
  | none => .next s
  | some x =>
    match x.fetched with
    | [] => .next s
    | (i, d) :: rest =>
      if 3 ≤ s.gState g ∨ s.takesWork (s.gCanton g) = false ∨ s.get (R.GC_CFG g) F.GC_CFG_OUTS + 1 ≤ x.ops.length ∨ (d.trig ≠ 0 ∧ x.fired = false) then .next s
      else
        let s := s.lagSync g
        match s.grp g with
        | none => .next s
        | some x =>
          let runs := if d.dk = 2 then (s.landMap d.dst (s.gCanton g) d.width).getD [] else []
          let o : GOp := ⟨i, d, [], [], [], runs, [], false, false, false, 0, [], none⟩
          let x' := { x with fetched := rest, fired := false, ops := x.ops ++ [o], progressAt := s.now }
          let t := s.setGrp g x'
          let t := if d.op = 5 then (x.rings[6].waiting.filter (fun p => p.opseq == d.opseq)).foldl (fun t p =>
              t.mpaWrite (s.gDie g) (d.psnAt p.srcidx) (leBytes 4 (p.psn + 1))) t else t
          if d.op = 6 then .next ((t.endOp g x' o).gUpdate g) else .next (t.gUpdate g)

/-- Whether everything an operation owes at this member is done (R313). -/
def State.opDone (s : State) (g : Nat) (x : Group) (o : GOp) : Bool :=
  let h := s.shape g
  (List.range 6).all (fun u => o.done u == o.d.reduceBytes h u) && runBytes o.written == o.d.writeBytes h &&
  x.rings.toList.all (fun r => !(r.unacked.any (fun p => p.2.opseq == o.d.opseq))) &&
  (o.d.op != 5 || (o.combined.filter (fun c => c.1 == 6)).length == h.n - 1) &&
  o.writes.all (fun id => !s.reqWaits id) && (s.feeding g o.d.opseq).isEmpty

/-- OPERATION_COMPLETE (R313): the descriptor's status is written, then DONEINC is added to DONE. -/
def execOperationComplete (g : Fin 4096) (opseq : BitVec 16) (s : State) : Out :=
  let s := s.lagSync g
  match s.grp g with
  | none => .next s
  | some x =>
    match x.ops.find? (fun o => o.d.opseq == opseq.toNat) with
    | none => .next s
    | some o => if s.opDone g x o then .next ((s.endOp g x o).gUpdate g) else .next s

/-! ### Combining pieces (R314-R319) -/

/-- A group stopped by a mismatch (R314, R321). -/
def State.gMismatch (s : State) (g opseq : Nat) : State :=
  let t := (s.put (R.GC_STATUS g) F.GC_STATUS_STATE 3).put (R.GC_STATUS g) F.GC_STATUS_REASON 3
  let t := t.wr (R.GC_STALL g) (t.rd (R.GC_SLOWEST g))
  (t.gEvent g 0x2232 opseq).coresIrq (t.gCanton g)

/-- One ⊕ of R316 on FP32 codes. -/
def foldOp (red a b : Nat) : Nat × Flags :=
  if red = 0 then f32Add a b
  else if red = 1 then (NFmt.fp32.rne (FVal.max (f32 a) (f32 b)), Flags.none)
  else (NFmt.fp32.rne (FVal.min (f32 a) (f32 b)), Flags.none)

/-- ⊕ of two lists. -/
def redAll (red : Nat) (xs ys : List Nat) : List Nat × Flags :=
  let r := List.zipWith (fun a b => foldOp red a b) xs ys
  (r.map (fun p => p.1), r.foldl (fun f p => f.or p.2) Flags.none)

/-- FP32 codes of payload bytes in the data's type. -/
def GDesc.toCodes (d : GDesc) (bs : List Byte) : List Nat :=
  (List.range (bs.length / d.width)).map (fun i =>
    let x := leNat ((bs.drop (i * d.width)).take d.width)
    if d.width = 2 then x * 65536 else x)

/-- Bytes of a source of an operation: of the MPA range, or of one die's local store. -/
def State.sourceBytes (s : State) (d : GDesc) (h : GShape) (base : Nat) (runs : List (Nat × Nat)) : List Byte :=
  let shift := if d.op = 2 then (d.chunkOf h.n h.me).1 else 0
  runs.flatMap (fun r => s.bytes (base + d.src + (r.1 - shift)) r.2)

/-- FP32 codes of a drain's region for some ranges (R314, R316: a GAS source is FP32); none while a piece is missing. -/
def State.drainCodes (s : State) (die g : Nat) (d : GDesc) (runs : List (Nat × Nat)) : Option (List Nat × Bool) :=
  let offs := runs.flatMap (fun r => (List.range (r.2 / d.width)).map (fun i => (r.1 + i * d.width) / d.width * 4))
  let got := offs.map (fun o => (s.drainPiece die g d.opseq o).map (fun p => (leNat ((p.data.drop (o % 4096)).take 4), p.poisoned)))
  if got.any (fun x => x.isNone) then none
  else some (got.map (fun x => (x.getD (0, false)).1), got.any (fun x => (x.getD (0, false)).2))

/-- The sources of an operation in ascending die order, each as FP32 codes for some ranges, with POISON; none while one
is not ready (R314). A source whose read gets a bus error (R180, R257) poisons the piece (the model's choice, log 130). -/
def State.sources (s : State) (g : Nat) (d : GDesc) (h : GShape) (runs : List (Nat × Nat)) : Option (List (List Nat) × Bool) :=
  if d.sk = 0 then some ([d.toCodes (s.sourceBytes d h 0 runs)], runs.any (fun r => s.badRead (d.src + r.1) r.2))
  else if d.sk = 1 then
    let dies := mapDies d.srcmap
    let bad := dies.any (fun i => runs.any (fun r => s.badRead (lsBase i + d.src + r.1) r.2))
    some (dies.map (fun i => d.toCodes (s.sourceBytes d h (lsBase i) runs)), bad)
  else
    let got := (mapDies d.srcmap).map (fun i => s.drainCodes i g d runs)
    if got.any (fun x => x.isNone) then none
    else some (got.map (fun x => (x.getD ([], false)).1), got.any (fun x => (x.getD ([], false)).2))

/-- Whether R28 lets a group reach the MPA range of a source or destination. -/
def State.reachable (s : State) (g : Nat) (write : Bool) (a n : Nat) : Bool :=
  s.checkRange (.hdma ⟨s.gCanton g % 8, Nat.mod_lt _ (by decide)⟩) write a n == .ok

/-- Where a byte of the data goes at this member's destination, as an offset from DST (R307). -/
def GDesc.destOff (d : GDesc) (h : GShape) (off : Nat) : Nat := if d.op = 1 then off - (d.chunkOf h.n h.me).1 else off

/-- Payload bytes put at their places in DST: an MPA range or the local stores of DSTMAP. -/
def State.deliverBytes (s : State) (g : Nat) (d : GDesc) (h : GShape) (runs : List (Nat × Nat)) (bs : List Byte) : State × List Nat :=
  let r := runs.foldl (fun (acc : State × List Nat × List Byte) run =>
    let (t, ids, bs) := acc
    let part := bs.take run.2
    let off := d.destOff h run.1
    if d.dk = 0 then
      let t' := t.mpaWrite (s.gDie g) (d.dst + off) part
      (t', if t'.reqNo = t.reqNo then ids else ids ++ [t'.reqNo], bs.drop run.2)
    else
      ((mapDies d.dstmap).foldl (fun t i => t.mpaWrite (s.gDie g) (lsBase i + d.dst + off) part) t, ids, bs.drop run.2)) (s, [], bs)
  (r.1, r.2.1)

/-- Elements of a square as the memory die's table has it, or 16,384. -/
def State.squareElems (s : State) (m shard : Nat) : Nat :=
  match s.shard? (fin16 m) shard with
  | some x => (x.desc.map (fun d => d.sq)).getD 16384
  | none => 16384

/-- Elements of delivered codes spread over the landing runs: memory die, shard, square, place, code (R315). -/
def State.spread (s : State) (o : GOp) (runs : List (Nat × Nat)) (codes : List Nat) : List (Nat × Nat × Nat × Nat × Nat) :=
  let w := o.d.width
  let offs := runs.flatMap (fun r => (List.range (r.2 / w)).map (fun i => r.1 + i * w))
  (offs.zip codes).filterMap (fun p =>
    match o.runs.find? (fun r => decide (r.off ≤ p.1) && decide (p.1 < r.off + r.bytesIn o.d)) with
    | none => none
    | some r =>
      let sq := s.squareElems r.md r.shard
      let e := r.sqoff + (p.1 - r.off) / w
      some (r.md, r.shard, r.square + e / sq, e % sq, p.2))

/-- Elements of a square that the landing map lists. -/
def State.listed (s : State) (o : GOp) (md shard square : Nat) : Nat :=
  (o.runs.filter (fun r => r.md == md && r.shard == shard)).foldl (fun n r =>
    let sq := s.squareElems md shard
    let a := r.square * sq + r.sqoff
    n + (min (a + r.n) ((square + 1) * sq) - max a (square * sq))) 0

/-- Codes added to the square under assembly. -/
def addAsm (asm : List AsmSquare) (x : Nat × Nat × Nat × Nat × Nat) : List AsmSquare :=
  let is := fun (q : AsmSquare) => q.md == x.1 && q.shard == x.2.1 && q.square == x.2.2.1
  if asm.any is then asm.map (fun q => if is q then { q with vals := (x.2.2.2.1, x.2.2.2.2) :: q.vals } else q)
  else asm ++ [⟨x.1, x.2.1, x.2.2.1, [(x.2.2.2.1, x.2.2.2.2)]⟩]

/-- The bytes of an assembled square in row-major order. -/
def AsmSquare.bytes (q : AsmSquare) (n : Nat) : List Byte :=
  let m := q.vals.foldl (fun (m : Sparse Nat) p => Sparse.set (fun _ => 0) m p.1 p.2) []
  (List.range n).flatMap (fun i => leBytes 4 (Sparse.get (fun _ => 0) m i))

/-- Codes delivered through the landing map: squares that are whole land (R273); none where a landing buffer holds one
back, and the piece then waits in its slot (R45, R315). -/
def State.deliverLanding (s : State) (o : GOp) (runs : List (Nat × Nat)) (codes : List Nat) : Option (State × List AsmSquare) :=
  let asm := (s.spread o runs codes).foldl addAsm o.asm
  let whole := asm.filter (fun q => decide (s.listed o q.md q.shard q.square ≤ q.vals.length))
  let rest := asm.filter (fun q => !decide (s.listed o q.md q.shard q.square ≤ q.vals.length))
  whole.foldl (fun acc q =>
    match acc with
    | none => none
    | some (t, r) =>
      let m := fin16 q.md
      let before := (t.ue m).order
      match execUeSquareLand m q.shard q.square o.d.outer (q.bytes (s.squareElems q.md q.shard)) t with
      | .next t' => if (t'.ue m).order = before then none else some (t', r)
      | _ => none) (some (s, rest))

/-- A result delivered at this member's destinations: codes rounded to the data's type, canonical NaNs where poisoned
(R316, R321); none where it must wait. -/
def State.deliver (s : State) (g : Nat) (o : GOp) (h : GShape) (runs : List (Nat × Nat)) (codes : List Nat) (raw : Option (List Byte))
    (poison : Bool) : Option (State × GOp) :=
  let d := o.d
  let codes := if poison then codes.map (fun _ => 0x7FC00000) else codes
  let o := { o with written := o.written ++ runs, poison := o.poison || poison }
  if d.dk = 2 then
    (s.deliverLanding o runs codes).map (fun r => (r.1, { o with asm := r.2 }))
  else
    let bs := match raw with
      | some b => if poison then d.toBytes codes else b
      | none => d.toBytes codes
    let r := s.deliverBytes g d h runs bs
    some (r.1, { o with writes := o.writes ++ r.2 })

/-- A piece sent on ring u to the next member: numbered, kept until acknowledged, counted (R319, R320). -/
def State.sendPiece (s : State) (g u : Nat) (x : Group) (target : Nat) (p : Piece) : State × Group :=
  let u' : Fin 7 := ⟨u % 7, Nat.mod_lt _ (by decide)⟩
  let r := x.rings[u']
  let q := { p with psn := r.next }
  let x' := { x with rings := x.rings.set u' { r with next := (r.next + 1) % 2 ^ 32, unacked := r.unacked ++ [(target, q)] }, progressAt := s.now }
  let _ := g
  ({ s with outbox := s.outbox ++ [.piece target q] }, x')

/-- The header of a piece of an operation (R319). -/
def State.header (s : State) (g : Nat) (o : GOp) (h : GShape) (gather minus poison : Bool) (stg off : Nat) (fl : Bool × Bool)
    (data : List Byte) : Piece :=
  { job := (s.rd (R.GC_JOB g)).toNat, grp := g, gather := gather, minus := minus, poison := poison, urgent := o.d.urgent,
    opseq := o.d.opseq, psn := 0, opb := o.d.opb, stg := stg, inv := fl.1, ovf := fl.2, len := o.d.len, offset := off,
    srcidx := h.me, data := data }

/-- A gathered piece started from this member on the rings of the given stages (R317). -/
def State.fanOut (s : State) (g : Nat) (x : Group) (o : GOp) (h : GShape) (stages : List Nat) (off : Nat) (minus poison : Bool)
    (data : List Byte) : State × Group :=
  stages.foldl (fun acc t =>
    let u := 2 * t + minus.toNat
    acc.1.sendPiece g u acc.2 (acc.1.nextModule g h u) (acc.1.header g o h true minus poison t off (false, false) data)) (s, x)

/-- A completed result at its last home: delivered, and for OP 0 sent on the gather rings (R317); none where it waits. -/
def State.completed (s : State) (g : Nat) (x : Group) (o : GOp) (h : GShape) (runs : List (Nat × Nat)) (codes : List Nat)
    (minus poison : Bool) : Option State :=
  let here := o.d.op ≠ 4 ∨ h.me = o.d.root
  let r := if here then s.deliver g o h runs codes none poison else some (s, o)
  r.map (fun (t, o) =>
    let t := if poison then t.gEvent g 0x2235 o.d.opseq else t
    let x := x.setOp o
    let off := (runs.head?.map (fun q => q.1)).getD 0
    let (t, x) := if o.d.op = 0 then t.fanOut g x o h h.stages off minus poison (o.d.toBytes codes) else (t, x)
    (t.setGrp g x).countPiece (t.gCanton g) (if h.stages.isEmpty then 0 else 2 * h.stages.getLastD 0 + minus.toNat))

/-- Slots that a ring of the group has (R323, R325). -/
def State.slotCap (s : State) (g : Nat) : Nat :=
  if s.isStaged g then 16 * s.get (R.GC_STAGE g) F.GC_STAGE_GRAN else s.get (R.GC_SLOT g) F.GC_SLOT_NSLOT

/-- Whether the slots of a ring are all held, so that a source waits with a new piece (R324). -/
def State.slotsFull (s : State) (g : Nat) (x : Group) (u : Nat) : Bool :=
  let r := x.rings[u % 7]'(Nat.mod_lt _ (by decide))
  decide (s.slotCap g ≤ r.waiting.length + r.unacked.length)

/-- Whether the bytes of a part before byte `off` have been combined: local contributions are prepared in piece order (R324). -/
def GOp.earlierDone (o : GOp) (part : List (Nat × Nat)) (u off : Nat) : Bool :=
  part.all (fun r => decide (min (r.1 + r.2) off - r.1 ≤
    runBytes ((o.combined.filter (fun c => c.1 == u && decide (r.1 ≤ c.2.1) && decide (c.2.1 < r.1 + r.2))).map (fun c => c.2))))

/-- A reduce-leg piece combined at this member (R316, R317): local contribution or the previous stage's result, and the
incoming value; handed on to the next member, or complete at its home. -/
def State.combineReduce (s : State) (g : Nat) (x : Group) (o : GOp) (u off len : Nat) : State :=
  let h := s.shape g
  let d := o.d
  let t := u / 2
  let minus := u % 2 == 1
  let alone := h.stages.isEmpty
  let runs := if alone then [(off, min len (d.len - off))] else sliceRuns off len (d.partRuns h t minus off)
  let first := alone || h.stages.head? == some t
  let prev := (h.stages.filter (fun e => decide (e < t))).getLast?
  let home := d.homeCoord h t off
  let r := h.ringLen t
  let c := h.coord t h.me
  let starts := alone || decide (c = (home + (if minus then r - 1 else 1)) % r)
  let ring := x.rings[u % 7]'(Nat.mod_lt _ (by decide))
  let inc := ring.waiting.find? (fun p => !p.gather && p.opseq == d.opseq && p.offset == off && p.data.length == runBytes runs)
  let loc : Option (List (List Nat) × Bool) :=
    if first then s.sources g d h runs
    else (o.results.find? (fun q => some q.stage == prev && q.minus == minus && q.off == off && q.vals.length * d.width == runBytes runs)).map
      (fun q => ([q.vals], q.poison))
  if (!alone && (runBytes runs != len || !h.stages.contains t)) || d.copies || 4096 < len || len = 0 || o.combinedAt u off ||
     (!alone && first && !o.earlierDone (d.partRuns h t minus off) u off) || (!alone && starts && c != home && s.slotsFull g x u) ||
     (alone && (o.written.any (fun w => decide (w.1 ≤ off) && decide (off < w.1 + w.2)) || decide (d.len < off + len))) then s
  else if d.sk = 0 ∧ first = true ∧ runs.all (fun q => s.reachable g false (d.src + q.1) q.2) = false then
    s.gRefused g d.opseq false (runs.map (fun q => (d.src + q.1, q.2)))
  else if d.dk = 0 ∧ (alone ∨ c = home) ∧ runs.all (fun q => s.reachable g true (d.dst + d.destOff h q.1) q.2) = false ∧ (d.op ≠ 4 ∨ h.me = d.root) then
    s.gRefused g d.opseq true (runs.map (fun q => (d.dst + d.destOff h q.1, q.2)))
  else match loc with
    | none => s
    | some (srcs, bad) =>
      if !starts && inc.isNone then s
      else
        let inCodes := match inc with | some p => d.toCodes p.data | none => []
        let staged := s.flag (R.GC_STATUS g) F.GC_STATUS_STAGED
        let chain := fun (a : List Nat × Flags) (b : List Nat) => let q := redAll d.red a.1 b; (q.1, a.2.or q.2)
        let out : List Nat × Flags :=
          if starts then (match srcs with | a :: l => l.foldl chain (a, Flags.none) | [] => ([], Flags.none))
          else if staged && first then srcs.foldl chain (inCodes, Flags.none)
          else
            let l := match srcs with | a :: l => l.foldl chain (a, Flags.none) | [] => ([], Flags.none)
            chain l inCodes
        let poison := bad || (match inc with | some p => p.poison | none => false)
        let o := { o with combined := o.combined ++ (if alone then [] else runs.map (fun q => (u, q.1, q.2))), inv := o.inv || out.2.inv, ovf := o.ovf || out.2.ovf }
        let waiting := match inc with | some p => ring.waiting.erase p | none => ring.waiting
        let u' : Fin 7 := ⟨u % 7, Nat.mod_lt _ (by decide)⟩
        let x := { x with rings := x.rings.set u' { ring with waiting := waiting }, progressAt := s.now }
        if alone then (s.completed g x o h runs out.1 minus poison).getD s
        else if c = home then
          -- the values of the results are kept as the type of the data would carry them between stages
          if h.stages.getLast? = some t then (s.completed g x o h runs out.1 minus poison).getD s
          else
            let o := { o with results := o.results ++ [⟨t, minus, off, out.1, poison⟩] }
            s.setGrp g (x.setOp o)
        else
          let fl := match inc with | some p => (p.inv || out.2.inv, p.ovf || out.2.ovf) | none => (out.2.inv, out.2.ovf)
          let p := s.header g o h false minus poison t off fl (d.toBytes out.1)
          let q := s.sendPiece g u (x.setOp o) (s.nextModule g h u) p
          (q.1.setGrp g q.2).countPiece (s.gCanton g) u

/-- A gather-leg piece (R317): one that waits on ring u is written here and passed on, along its ring and on the rings of
the lower stages; or, for OP 2 and OP 3, this member's own chunk starts from here. -/
def State.combineGather (s : State) (g : Nat) (x : Group) (o : GOp) (u off len : Nat) : State :=
  let h := s.shape g
  let d := o.d
  let ring := x.rings[u % 7]'(Nat.mod_lt _ (by decide))
  let u' : Fin 7 := ⟨u % 7, Nat.mod_lt _ (by decide)⟩
  match ring.waiting.find? (fun p => p.gather && p.opseq == d.opseq && p.offset == off && p.data.length == len) with
  | some p =>
    let t := u / 2
    let runs := sliceRuns off len (d.partRuns h t p.minus off)
    if d.dk = 0 ∧ runs.all (fun q => s.reachable g true (d.dst + d.destOff h q.1) q.2) = false then
      s.gRefused g d.opseq true (runs.map (fun q => (d.dst + d.destOff h q.1, q.2)))
    else match s.deliver g o h runs (d.toCodes p.data) (some p.data) p.poison with
      | none => s
      | some (s', o) =>
        let s' := if p.poison then s'.gEvent g 0x2235 d.opseq else s'
        let x := { x with rings := x.rings.set u' { ring with waiting := ring.waiting.erase p }, progressAt := s.now }
        let x := x.setOp o
        let r := h.ringLen t
        let nxt := (h.coord t h.me + (if p.minus then r - 1 else 1)) % r
        let q := if nxt = d.homeCoord h t off then (s', x)
          else s'.sendPiece g u x (s'.nextModule g h u) { p with srcidx := h.me }
        let q := q.1.fanOut g q.2 o h (h.stages.filter (fun e => decide (e < t))) off p.minus p.poison p.data
        (q.1.setGrp g q.2).countPiece (s.gCanton g) u
  | none =>
    let own := (d.op = 2 ∧ d.homeOf h.n off = h.me) ∨ (d.op = 3 ∧ h.me = d.root)
    let minus := d.minusAt h off
    let full := h.stages.any (fun e => s.slotsFull g x (2 * e + minus.toNat))
    let half := d.halfOf h.n h.me minus
    if own ∧ full = false ∧ 0 < len ∧ len ≤ 4096 ∧ half.1 ≤ off ∧ off + len ≤ half.1 + half.2 ∧
        o.written.any (fun w => decide (w.1 ≤ off) && decide (off < w.1 + w.2)) = false then
      let base := if d.sk = 1 then lsBase ((mapDies d.srcmap).headD 0) else 0
      let shift := if d.op = 2 then (d.chunkOf h.n h.me).1 else 0
      if d.sk = 0 ∧ s.reachable g false (d.src + (off - shift)) len = false then s.gRefused g d.opseq false [(d.src + (off - shift), len)]
      else if d.dk = 0 ∧ s.reachable g true (d.dst + off) len = false then s.gRefused g d.opseq true [(d.dst + off, len)]
      else
        let data := s.bytes (base + d.src + (off - shift)) len
        let bad := s.badRead (base + d.src + (off - shift)) len
        match s.deliver g o h [(off, len)] (d.toCodes data) (some data) bad with
        | none => s
        | some (s', o) =>
          let s' := if bad then s'.gEvent g 0x2235 d.opseq else s'
          let q := s'.fanOut g (x.setOp o) o h h.stages off minus bad data
          (q.1.setGrp g q.2).countPiece (s.gCanton g) 0
    else s

/-- Payload as it is delivered: canonical NaNs where it is poisoned (R321). -/
def GDesc.blotted (d : GDesc) (poison : Bool) (data : List Byte) : List Byte :=
  if poison then d.toBytes ((d.toCodes data).map (fun _ => 0x7FC00000)) else data

/-- Direct pieces of ALLTOALL (R317, R320): this member's block for member off / C sent, or written where it is its own;
or a block that has arrived written at DST + j × C. -/
def State.combineDirect (s : State) (g : Nat) (x : Group) (o : GOp) (off len : Nat) : State :=
  let h := s.shape g
  let d := o.d
  let c := max (d.chunk h.n) 1
  let j := off / c
  let ring := x.rings[6]
  match ring.waiting.find? (fun p => p.opseq == d.opseq && p.offset == off && p.data.length == len) with
  | some p =>
    let dst := p.srcidx * c + off % c
    if d.dk = 0 ∧ s.reachable g true (d.dst + dst) len = false then s.gRefused g d.opseq true [(d.dst + dst, len)]
    else
      let r := s.deliverBytes g d h [(dst, len)] (d.blotted p.poison p.data)
      let r := (if p.poison then r.1.gEvent g 0x2235 d.opseq else r.1, r.2)
      let o := { o with written := o.written ++ [(dst, len)], writes := o.writes ++ r.2, poison := o.poison || p.poison }
      let x := { x with rings := x.rings.set 6 { ring with waiting := ring.waiting.erase p }, progressAt := s.now }
      (r.1.setGrp g (x.setOp o)).countPiece (s.gCanton g) 0
  | none =>
    if d.op ≠ 5 ∨ h.n ≤ j ∨ len = 0 ∨ 4096 < len ∨ c < off % c + len ∨ o.combinedAt 6 off = true then s
    else
      let base := if d.sk = 1 then lsBase ((mapDies d.srcmap).headD 0) else 0
      if d.sk = 0 ∧ s.reachable g false (d.src + off) len = false then s.gRefused g d.opseq false [(d.src + off, len)]
      else
        let data := s.bytes (base + d.src + off) len
        let bad := s.badRead (base + d.src + off) len
        if j = h.me then
          let r := s.deliverBytes g d h [(off, len)] (d.blotted bad data)
          let t := if bad then r.1.gEvent g 0x2235 d.opseq else r.1
          t.setGrp g (x.setOp { o with poison := o.poison || bad, written := o.written ++ [(off, len)], combined := o.combined ++ [(7, off, len)], writes := o.writes ++ r.2 })
        else
          let target := if h.axis then
              (s.moduleAt g { h with me := j } 0 (h.coord 0 j))
            else j
          let key := match x.direct.find? (fun p => p.1 == target) with | some (_, n) => n | none => 0
          let p := { s.header g o h true false bad 0 off (false, false) data with psn := key }
          let x := { x with direct := (target, key + 1) :: x.direct.filter (fun q => q.1 != target),
                            rings := x.rings.set 6 { ring with unacked := ring.unacked ++ [(target, p)] }, progressAt := s.now }
          let o := { o with combined := o.combined ++ [(6, off, len)] }
          ({ s with outbox := s.outbox ++ [GMsg.piece target p] }.setGrp g (x.setOp o)).countPiece (s.gCanton g) 0

/-- PIECE_COMBINE (R314-R318): the link die adds a piece's local and incoming values and hands the result on, or passes a
gathered or direct piece. `off` and `len` name the piece by its first byte and its bytes. -/
def execPieceCombine (g : Fin 4096) (opseq : BitVec 16) (gather : Bool) (u : Fin 7) (off len : Nat) (s : State) : Out :=
  let s := s.lagSync g
  match s.grp g with
  | none => .next s
  | some x =>
    match x.ops.find? (fun o => o.d.opseq == opseq.toNat) with
    | none => .next s
    | some o =>
      let wrong := o.d.sk = 2 ∧ (s.feeding g o.d.opseq).any (fun q => q.2.len * 64 != o.d.drainBytes) = true ∧ s.gState g < 3
      let t := if wrong then s.gMismatch g o.d.opseq
        else if u.val = 6 then s.combineDirect g x o off len
        else if gather then s.combineGather g x o u off len else s.combineReduce g x o u off len
      .next (t.gUpdate g)

/-! ### Receiving and acknowledging pieces (R320, R321) -/

/-- The sequence number expected on a ring: the ring's own; for direct pieces one more than the last that waits from that
sender, or the sender's word behind DST (R320). -/
def State.expected (s : State) (x : Group) (u : Fin 7) (p : Piece) : Nat :=
  if u.val = 6 then
    match (x.rings[u].waiting.filter (fun q => q.srcidx == p.srcidx)).getLast? with
    | some q => (q.psn + 1) % 2 ^ 32
    | none =>
      match ((x.ops.map (fun o => o.d)) ++ (x.fetched.map (fun q => q.2))).find? (fun d => d.opseq == p.opseq) with
      | some d => s.num (d.psnAt p.srcidx) 4
      | none => p.psn
  else (x.rings[u]).expect

/-- A piece as the content of a torus packet (R319). -/
def pieceBytes (p : Piece) : List Byte :=
  leBytes 4 p.job ++
  leBytes 2 (p.grp % 4096 + (if p.gather then 4096 else 0) + (if p.minus then 8192 else 0) + (if p.poison then 16384 else 0) +
    (if p.urgent then 32768 else 0)) ++
  leBytes 2 p.opseq ++ leBytes 4 p.psn ++ [BitVec.ofNat 8 p.opb] ++
  leBytes 1 (p.stg % 4 + (if p.inv then 4 else 0) + (if p.ovf then 8 else 0)) ++ leBytes 2 (p.data.length - 1) ++
  leBytes 4 p.len ++ leBytes 5 p.offset ++ leBytes 3 (p.srcidx % 2 ^ 17) ++ leBytes 4 0 ++ p.data

/-- PIECE_RECEIVE (R320, R321, R324): a piece arrives in canton k's plane on ring u. Another job or canton is a security
alarm (0x2437); a FREE context refuses it with NOCTX; a duplicate is discarded; one that disagrees with the descriptor
stalls the group; otherwise it waits in a slot, while slots are free. -/
def execPieceReceive (k : Fin 8) (u : Fin 7) (p : Piece) (s : State) : Out :=
  let g := p.grp % 4096
  let s := { s with arrived := s.arrived.filter (fun (a : TPacket) => !(a.plane == k.val && a.content == pieceBytes p)) }
  match s.grp g with
  | none => .next { s with outbox := s.outbox ++ [.noctx (s.prevModule g (s.shape g) u) g u p.psn] }
  | some x =>
    if p.job ≠ (s.rd (R.GC_JOB g)).toNat ∨ s.gCanton g ≠ k.val then .next (s.gEvent g 0x2437 p.opseq)
    else
      let s := s.lagSync g
      let x := (s.grp g).getD x
      let r := x.rings[u]
      let want := s.expected x u p
      let desc := ((x.ops.map (fun o => o.d)) ++ (x.fetched.map (fun q => q.2))).find? (fun d => d.opseq == p.opseq)
      if (p.psn + 2 ^ 32 - want) % 2 ^ 32 ≥ 2 ^ 31 then
        .next (if s.countsStand (R.CL_PERF_CTL (u.val % 6) k) then s else s.bump (R.CL_PERF_DUPS (u.val % 6) k) F.CL_PERF_DUPS_COUNT 1)
      else if p.psn ≠ want ∨ s.slotCap g ≤ r.waiting.length + r.unacked.length then .next s
      else if desc.any (fun d => d.opb != p.opb || d.len != p.len) then .next (s.gMismatch g p.opseq)
      else if x.aborted.contains p.opseq then
        .next (s.setGrp g { x with rings := x.rings.set u { r with expect := (r.expect + 1) % 2 ^ 32, owed := r.owed + 1 } })
      else
        let r := { r with waiting := r.waiting ++ [p], expect := (r.expect + 1) % 2 ^ 32, owed := r.owed + 1,
                          owedAt := if r.owed = 0 then s.now else r.owedAt }
        let t := s.setGrp g { x with rings := x.rings.set u r }
        let t := if u.val = 6 then
            (match x.ops.find? (fun o => o.d.opseq == p.opseq) with
              | some o => t.mpaWrite (s.gDie g) (o.d.psnAt p.srcidx) (leBytes 4 (want + 1))
              | none => t)
          else t
        .next (t.gUpdate g)

/-- PIECE_ACK_SEND (R320): a cumulative acknowledgement of the pieces that are owed one. The rule bounds how late it may
be sent, not how early. -/
def execPieceAckSend (g : Fin 4096) (u : Fin 7) (s : State) : Out :=
  match s.grp g with
  | none => .next s
  | some x =>
    let r := x.rings[u]
    if r.owed = 0 then .next s
    else
      let t := s.setGrp g { x with rings := x.rings.set u { r with owed := 0 } }
      .next { t with outbox := t.outbox ++ [.ack (s.prevModule g (s.shape g) u) g u ((r.expect + 2 ^ 32 - 1) % 2 ^ 32)] }

/-- PIECE_ACK (R320): the sender's pieces up to a PSN are freed; direct pieces those sent to one member. -/
def execPieceAck (g : Fin 4096) (u : Fin 7) (member : Nat) (psn : BitVec 32) (s : State) : Out :=
  let s := s.lagSync g
  match s.grp g with
  | none => .next s
  | some x =>
    let r := x.rings[u]
    let covered := fun (p : Nat × Piece) =>
      decide ((psn.toNat + 2 ^ 32 - p.2.psn) % 2 ^ 32 < 2 ^ 31) && (u.val != 6 || p.1 == member)
    let r' := { r with unacked := r.unacked.filter (fun p => !covered p), noctx := if r.unacked.any covered then none else r.noctx }
    let t := s.setGrp g { x with rings := x.rings.set u r', progressAt := if r.unacked.any covered then s.now else x.progressAt }
    .next (t.gUpdate g)

/-- NOCTX_RETRY (R321, R327): a piece refused with NOCTX is noted, and offered again every 1 µs. -/
def execNoctxRetry (g : Fin 4096) (u : Fin 7) (psn : BitVec 32) (s : State) : Out :=
  match s.grp g with
  | none => .next s
  | some x =>
    let r := x.rings[u]
    match r.unacked.find? (fun p => p.2.psn == psn.toNat) with
    | none => .next s
    | some p =>
      if r.noctx = some psn.toNat ∧ s.now < r.offeredAt + ticksPerUs then .next s
      else
        let again := r.noctx = some psn.toNat
        let t := s.setGrp g { x with rings := x.rings.set u { r with noctx := some psn.toNat, offeredAt := s.now } }
        .next ((if again then { t with outbox := t.outbox ++ [.piece p.1 p.2] } else t).lagSync g)

/-! ### Beacons, stalls and abort messages (R327, R328, R330) -/

/-- Ticks of PATIENCE; 0 where the group never stalls. -/
def State.patience (s : State) (g : Nat) : Nat := (s.rd (R.GC_PATIENCE g)).toNat * ticksPerUs

/-- The rings that a member's beacons leave on, and the operation they name: the ring of the oldest piece, and where local
sources are late every ring with a piece that waits for them (R327, and its example). -/
def State.beaconRings (s : State) (g : Nat) (x : Group) : List (Fin 7) × Nat :=
  match s.lagOp g x with
  | some o =>
    let c := s.lagCause g x o
    let late := if c.1 = 6 then [0, 1, 2, 3, 4, 5].filter (fun (u : Fin 7) => (s.ringCause g x o u).any (fun q => q.1 == 6)) else []
    let own : Fin 7 := ⟨c.2.2 % 7, Nat.mod_lt _ (by decide)⟩
    (if late.contains own then late else own :: late, o.d.opseq)
  | none => match x.early with | some (u, p) => ([u], p.opseq) | none => ([], 0)

/-- A beacon sent downstream on a ring, at most once per PATIENCE / 8. -/
def State.sendBeacon (s : State) (g : Nat) (u : Fin 7) (opseq named : Nat) : State :=
  match s.grp g with
  | none => s
  | some x =>
    let r := x.rings[u]
    if s.now < r.beaconAt + s.patience g / 8 then s
    else
      let t := s.setGrp g { x with rings := x.rings.set u { r with beaconAt := s.now } }
      { t with outbox := t.outbox ++ [.beacon (s.nextModule g (s.shape g) u) g opseq named] }

/-- BEACON_SEND (R327): a member whose oldest piece has waited longer than PATIENCE / 8 sends beacons downstream. -/
def execBeaconSend (g : Fin 4096) (s : State) : Out :=
  let s := s.lagSync g
  match s.grp g with
  | none => .next s
  | some x =>
    if s.patience g = 0 ∨ s.now ≤ x.progressAt + s.patience g / 8 then .next s
    else
      let b := s.beaconRings g x
      .next (b.1.foldl (fun t u => t.sendBeacon g u b.2 (s.get (R.GC_SLOWEST g) F.GC_SLOWEST_MODULE)) s)

/-- BEACON_RECEIVE (R327): the module a beacon names is kept for its ring; where the oldest piece waits on that upstream
it becomes GC_SLOWEST, and the beacon is relayed at once, at most once per interval. -/
def execBeaconReceive (g : Fin 4096) (u : Fin 6) (opseq : BitVec 16) (named : BitVec 17) (s : State) : Out :=
  let s := s.lagSync g
  match s.grp g with
  | none => .next s
  | some x =>
    let u7 : Fin 7 := ⟨u.val, by omega⟩
    let x := { x with rings := x.rings.set u7 { x.rings[u7] with beacon := some named.toNat } }
    let t := (s.setGrp g x).lagSync g
    let x := (t.grp g).getD x
    match t.lagOp g x with
    | none => .next t
    | some o =>
      if (t.lagCause g x o).1 = u.val ∧ x.running.contains opseq.toNat = true then .next (t.sendBeacon g u7 opseq.toNat named.toNat)
      else .next t

/-- GROUP_STALL (R328): no progress for PATIENCE µs with an operation in progress: STALLED, GC_STALL, REASON TIMEOUT or
NOCTX, 0x2232, the service cores interrupted. -/
def execGroupStall (g : Fin 4096) (s : State) : Out :=
  let s := s.lagSync g
  match s.grp g with
  | none => .next s
  | some x =>
    if x.ops = [] ∨ s.patience g = 0 ∨ s.now < x.progressAt + s.patience g ∨ 3 ≤ s.gState g then .next s
    else
      let reason := if x.rings.toList.any (fun r => r.noctx.isSome) then 2 else 1
      let t := (s.put (R.GC_STATUS g) F.GC_STATUS_STATE 3).put (R.GC_STATUS g) F.GC_STATUS_REASON reason
      let t := t.wr (R.GC_STALL g) (t.rd (R.GC_SLOWEST g))
      .next ((t.gEvent g 0x2232 (x.running.headD 0)).coresIrq (t.gCanton g))

/-- ABORT_MESSAGE_RECEIVE (R330): the member does as ABORT does for those operations once, and relays the message once. -/
def execAbortMessageReceive (g : Fin 4096) (opseqs : List Nat) (s : State) : Out :=
  match s.grp g with
  | none => .next s
  | some x =>
    let new := opseqs.filter (fun q => !x.aborted.contains q)
    if new = [] then .next s
    else
      let hit := new.filter (fun q => x.running.contains q)
      let t := (s.lagSync g).abortOps g new
      .next (((t.put (R.GC_STATUS g) F.GC_STATUS_STATE 4).gEvent g 0x2234 (hit.headD (new.headD 0))).gUpdate g)

/-- CL_COUNTER_CLEAR (R334): the slot peak and the piece counters of canton k on link die l. -/
def execClCounterClear (k : Fin 8) (l : Fin 6) (s : State) : Out :=
  .next ((s.put (R.CL_BUSY l k) F.CL_BUSY_PEAK 0).clearCounts (R.CL_PERF_CTL l k) [R.CL_PERF_PIECES_LO l k, R.CL_PERF_PIECES_HI l k, R.CL_PERF_DUPS l k])

end Sys2Proof.Machine
end

