-- ==== Sys2Proof/Machine/Link.lean ====
section
/-! DEFINITION. Torus links: packets, control codewords, training, epochs, and the shared arbiter
(10_links_and_torus.md, R335-R369; R536 for cables). -/
namespace Sys2Proof.Machine

/-! ### Packets on the wire (R341, R342, R358) -/

/-- Route header of a packet (R342). -/
def torusHeader (p : TorusPacket) : List Byte :=
  leBytes 8 p.seq ++ leBytes 1 p.epoch ++ leBytes 1 (p.tc % 4 + (if p.dl then 4 else 0)) ++ leBytes 3 (p.dst % 2 ^ 20) ++
  leBytes 1 (p.body % 128) ++ leBytes 1 (p.ddie % 64) ++ leBytes 1 0

/-- Units of a packet: its head and its body (R341). -/
def torusUnits (p : TorusPacket) : Nat := 1 + p.body

/-- Nonce of a packet (R358): EPOCH, SEQ big-endian, the sender's port ID. -/
def torusNonce (epoch seq port : Nat) : List Byte := leBytes 1 epoch ++ (leBytes 8 seq).reverse ++ leBytes 3 port

/-- The packet a port sends for content (R358). -/
def sealPacket (key : List Byte) (port seq epoch : Nat) (t : TPacket) : TorusPacket :=
  let p : TorusPacket := ⟨seq, epoch, t.tc, t.dl, t.dst, t.ddie, (t.content.length - 32 + 63) / 64, []⟩
  { p with text := gcmSeal key (torusNonce epoch seq port) (torusHeader p) t.content }

/-- The key of the next epoch (R358). -/
def nextEpochKey (key : List Byte) (plane epoch : Nat) : List Byte :=
  (hmac key (label "JV-LK-EP" ++ leBytes 1 plane ++ leBytes 1 epoch)).take 32

/-- The key of an epoch among those held. -/
def keyOf (ks : List (Nat × List Byte)) (e : Nat) : Option (List Byte) := (ks.find? (fun x => x.1 == e)).map (fun x => x.2)

/-- This module's port ID on port l and plane k. -/
def State.ownPort (s : State) (l : Fin 6) (k : Nat) : Nat := portId s.moduleId l k
/-- The neighbour's port ID on port l and plane k. -/
def State.nbrPort (s : State) (l : Fin 6) (k : Nat) : Nat :=
  portId (s.get (R.LK_NBR l) F.LK_NBR_MODULE) (s.get (R.LK_NBR l) F.LK_NBR_PORT) k

/-- Bytes of a plane's share of a 2 MiB port buffer (R343). -/
def State.planeShare (s : State) : Nat := 2 ^ 21 / s.cantons
/-- Bytes a plane's replay share holds: 64 for each unit. -/
def LinkPlane.replayBytes (x : LinkPlane) : Nat := x.replay.foldl (fun n r => n + 64 * torusUnits r.p) 0
/-- Bytes a plane holds above gaps. -/
def LinkPlane.heldBytes (x : LinkPlane) : Nat := x.held.foldl (fun n r => n + 32 + r.2.content.length) 0

/-! ### The sender's side -/

/-- The old epoch's key destroyed and RETIRE due once ACK covers every packet of the old epoch (EPOCH_RETIRE, R359). -/
def State.checkRetire (s : State) (l : Fin 6) (k : Fin 8) : State :=
  let x := s.plane l k
  let ep := s.get (R.LK_EPOCH l k) F.LK_EPOCH_TXEP
  if s.flag (R.LK_EPOCH l k) F.LK_EPOCH_RETIRING && x.replay.all (fun r => r.p.epoch == ep) then
    (s.setPlane l k { x with txKeys := x.txKeys.filter (fun e => e.1 == ep), retire := true }).put
      (R.LK_EPOCH l k) F.LK_EPOCH_RETIRING 0
  else s

/-- Packets whose SEQ is refused are sent again, unchanged, TC2 first (PACKET_RESEND, R347); a SEQ already resent 16 times
takes the port down. -/
def State.resendPackets (s : State) (l : Fin 6) (k : Fin 8) (hit : Nat → Bool) : State :=
  let x := s.plane l k
  let again := x.replay.filter (fun r => hit r.p.seq)
  if again.isEmpty then s
  else if again.any (fun r => decide (16 ≤ r.resent)) then s.linkDown l
  else
    let x := { x with replay := x.replay.map (fun r => if hit r.p.seq then { r with resent := r.resent + 1 } else r) }
    let t := (s.setPlane l k x).lkCount l (R.LK_RETX l) again.length
    let order := again.filter (fun r => r.p.tc == 2) ++ again.filter (fun r => r.p.tc != 2)
    let t := t.setPort l { t.port l with last := (order.getLast?).map (fun r => r.p) }
    t.linkEventCapped l 1 16 0x2140 k (t.rd (R.LK_RETX l)).toNat

/-! ### CONTROL_CODEWORD_SEND (R337, R340) -/

/-- The gaps above the lowest SEQ not received, as ranges of SEQ and count (R347); `fuel` SEQs are looked at. -/
def gapsFrom (got : Nat → Bool) : Nat → Nat → Option (Nat × Nat) → List (Nat × Nat)
  | 0, _, cur => cur.toList
  | fuel + 1, q, cur =>
    if got q then cur.toList ++ gapsFrom got fuel (q + 1) none
    else gapsFrom got fuel (q + 1) (some (match cur with | some (a, n) => (a, n + 1) | none => (q, 1)))

/-- Whether a SEQ has been received, or waits for its restart after a revocation. -/
def LinkPlane.received (x : LinkPlane) (q : Nat) : Bool :=
  decide (q < x.next) || x.held.any (fun h => h.1 == q) || x.passed.contains q || x.aborted.contains q

/-- The plane record of the next control codeword (R340, R347). ACK is one below the lowest SEQ not received, so that
2^64 − 1 stands for none (DEDUCED, log 61). -/
def LinkPlane.record (x : LinkPlane) : PlaneRec :=
  let gaps := (gapsFrom x.received (x.top - x.next) x.next none).take 12
  ⟨(x.next + 2 ^ 64 - 1) % 2 ^ 64, x.returns.toList, x.retire, x.force, x.answer, gaps.map (fun g => (g.1 + 1 - x.next, g.2 - 1))⟩

/-- Bytes of a plane record (R340). -/
def planeRecBytes (r : PlaneRec) : List Byte :=
  leBytes 8 r.ack ++ ((List.range 6).flatMap (fun i => leBytes 2 (r.cred.getD i 0))) ++
  leBytes 1 ((if r.retire then 1 else 0) + (if r.force then 2 else 0) + (if r.forceAck then 4 else 0)) ++ leBytes 1 r.naks.length ++
  ((List.range 12).flatMap (fun i => let n := r.naks.getD i (0, 0); leBytes 2 n.1 ++ leBytes 2 n.2)) ++ leBytes 2 0

/-- Bytes 0-625 of a control codeword (R340). -/
def ctlBytes (c : CtlWord) : List Byte :=
  leBytes 8 c.cseq ++ leBytes 8 c.lanest ++
  ((List.range 8).flatMap (fun i => planeRecBytes (c.planes.getD i ⟨0, [], false, false, false, []⟩))) ++ List.replicate 34 0

/-- TAG of a control codeword (R340): GMAC under the port's control key, nonce CSEQ and the sender's port ID. -/
def ctlTag (key : List Byte) (port : Nat) (c : CtlWord) : List Byte :=
  fit 16 (Config.crypto "AES-256-GMAC" (key ++ leBytes 8 c.cseq ++ leBytes 4 port ++ ctlBytes c))

/-- Ticks of 1,536 codewords: 2.458 µs at width 16, twice that at width 8 (R337). -/
def State.ctlPeriod (s : State) (l : Fin 6) : Nat :=
  if s.flag (R.LK_STATUS l) F.LK_STATUS_WIDTH8 then 20643 else 10321

/-- CONTROL_CODEWORD_SEND (R337, R340): once per 1,536 codewords, with ACKs, credits, NAKs and epoch controls. -/
def execControlCodewordSend (l : Fin 6) (s : State) : Out :=
  let p := s.port l
  if s.portState l ≠ 2 ∨ s.now < p.ctlAt + s.ctlPeriod l then .next s
  else
    let lanest := (s.rd (R.LK_STATUS l)).toNat + 2 ^ 32 * (s.rd (R.LK_LANES l)).toNat
    let c : CtlWord := ⟨p.cseq, lanest, p.planes.toList.map LinkPlane.record⟩
    .next (s.setPort l { p with
      cseq := p.cseq + 1, ctlAt := s.now, ctl := some (c, ctlTag (p.control.getD []) (s.ownPort l 0) c)
      planes := p.planes.map (fun x =>
        { x with returns := Vector.replicate 6 0, retire := false, force := false, answer := false }) })

/-- A plane's ACK, credits and NAKs applied (R340, R345, R347). -/
def State.applyAck (s : State) (l : Fin 6) (k : Fin 8) (r : PlaneRec) : State :=
  let x := s.plane l k
  let upto := (r.ack + 1) % 2 ^ 64
  let x := { x with
    replay := x.replay.filter (fun q => decide (upto ≤ q.p.seq))
    credits := Vector.ofFn (fun (i : Fin 6) => x.credits[i] + r.cred.getD i 0) }
  let nak := fun (q : Nat) => r.naks.any (fun n => decide (r.ack + n.1 ≤ q + 2 ^ 64 * (if r.ack = 2 ^ 64 - 1 then 1 else 0)) &&
    decide (q + 2 ^ 64 * (if r.ack = 2 ^ 64 - 1 then 1 else 0) ≤ r.ack + n.1 + n.2))
  ((s.setPlane l k x).checkRetire l k).resendPackets l k nak

/-! ### TORUS_PACKET_RECEIVE (R339, R341, R346, R355, R357, R361) -/

/-- A delivered packet handed on (R355, R357): into the fabric where it has arrived, or into the queue of the port it
leaves by. Credits of its virtual channel are due to the neighbour. -/
def State.routePacket (s : State) (l : Fin 6) (k : Fin 8) (t : TPacket) : State :=
  let x := s.plane l k
  let vc : Fin 6 := fin6 (2 * t.tc + (if t.dl then 1 else 0))
  let units := 1 + (t.content.length - 32 + 63) / 64
  let s := s.setPlane l k { x with returns := x.returns.set vc (x.returns[vc] + units) }
  match s.outPort t.dst with
  | none => { s with arrived := s.arrived ++ [{ t with since := s.now }] }
  | some o =>
    -- DL is cleared on a turn and set on the hop over the dateline (R355)
    let dl := (t.dl && o.val / 2 == l.val / 2) || s.dateline o
    let q := s.port o
    s.setPort o { q with queue := q.queue ++ [{ t with requester := l, dl := dl, since := s.now }] }

/-- The next held packet that may be delivered (R346): every lower SEQ delivered, or aborted and not restarted. -/
def LinkPlane.ready (x : LinkPlane) : Option (Nat × TPacket) :=
  x.held.find? (fun h => (List.range (h.1 - x.next)).all (fun i =>
    x.passed.contains (x.next + i) || x.aborted.contains (x.next + i)))

/-- The lowest SEQ not received moved up past the SEQs already delivered. -/
def LinkPlane.advance (x : LinkPlane) : Nat → LinkPlane
  | 0 => x
  | fuel + 1 =>
    if x.passed.contains x.next then
      LinkPlane.advance { x with next := x.next + 1, passed := x.passed.filter (fun q => q != x.next) } fuel
    else x

/-- Deliverable packets delivered, one after the other. -/
def State.deliverPackets (s : State) (l : Fin 6) (k : Fin 8) : Nat → State
  | 0 => s
  | fuel + 1 =>
    let x := s.plane l k
    match x.ready with
    | none => s
    | some (q, t) =>
      let x := { x with held := x.held.filter (fun h => h.1 != q), passed := q :: x.passed }
      let s := s.setPlane l k (x.advance (x.passed.length + 1))
      State.deliverPackets (s.routePacket l k t) l k fuel

/-- A packet that fails its tag (TORUS_TAG_FAIL, R361): discarded, its SEQ reported as a NAK, LK_TAGFAIL, 0x2447; the
fourth failure of one SEQ retrains the port with 0x2448. -/
def State.tagFailed (s : State) (l : Fin 6) (k : Fin 8) (seq : Nat) : State :=
  let x := s.plane l k
  let n := (match x.tagFails.find? (fun f => f.1 == seq) with | some f => f.2 | none => 0) + 1
  let x := { x with tagFails := (seq, n) :: x.tagFails.filter (fun f => f.1 != seq), top := max x.top (seq + 1) }
  let t := (s.setPlane l k x).lkCount l (R.LK_TAGFAIL l) 1
  let c := (t.rd (R.LK_TAGFAIL l)).toNat
  let t := t.linkEventCapped l 2 16 0x2447 k c
  if n = 4 then (t.linkEvent l 0x2448 k c).startTraining l else t

/-- A packet whose tag holds (R346, R347): a duplicate is counted, one above a gap held while there is room, otherwise it
and what it lets through are delivered. -/
def State.acceptPacket (s : State) (l : Fin 6) (k : Fin 8) (p : TorusPacket) (content : List Byte) : State :=
  let x := s.plane l k
  let x := if x.skip then { x with skip := false, next := max x.next p.seq, passed := x.passed.filter (fun q => decide (p.seq ≤ q)),
                                   aborted := x.aborted.filter (fun q => decide (p.seq ≤ q)) } else x
  if p.seq < x.next ∨ x.passed.contains p.seq = true ∨ x.held.any (fun h => h.1 == p.seq) = true then
    (s.setPlane l k x).lkCount l (R.LK_DUPS l) 1
  else
    let t : TPacket := ⟨l, k, p.tc, p.dl, p.dst, p.ddie, content, s.now⟩
    let y := { x with first := if x.rxKeys.head?.map (fun e => e.1) = some p.epoch then some (min p.seq (x.first.getD p.seq)) else x.first
                      top := max x.top (p.seq + 1), aborted := x.aborted.filter (fun q => q != p.seq),
                      tagFails := x.tagFails.filter (fun f => f.1 != p.seq) }
    -- a packet above a gap that does not fit the receive share is discarded and reported as a NAK (R347)
    if x.next < p.seq ∧ s.planeShare < x.heldBytes + 32 + content.length then s.setPlane l k y
    else
      let held := (p.seq, t) :: y.held
      (s.setPlane l k { y with held := held.mergeSort (fun a b => decide (a.1 ≤ b.1)) }).deliverPackets l k held.length

/-- TORUS_PACKET_RECEIVE: forward error correction and CRC, revocation, epoch, tag, order and routing of an arriving
packet. -/
def execTorusPacketReceive (l : Fin 6) (k : Fin 8) (p : TorusPacket) (a : Arrival) (s : State) : Out :=
  if s.portState l ≠ 2 ∨ s.cantons ≤ k.val then .next s
  else
    let frozen := s.countsStand (R.LK_CNT_CTL l)
    let s := if frozen then s else s.add64 (R.LK_FEC_CORR_LO l) (R.LK_FEC_CORR_HI l) a.corrected
    let s := (s.lkCount l (R.LK_FEC_UNC l) a.uncorrectable).lkCount l (R.LK_CRCERR l) a.crcErr
    let x := s.plane l k
    -- a failed unit loses the packet (R339); the units of an uncorrectable codeword are treated as failed (R337)
    if 0 < a.crcErr ∨ 0 < a.uncorrectable then .next s
    else if a.aborted then
      .next (s.setPlane l k { x with aborted := if x.received p.seq then x.aborted else p.seq :: x.aborted, top := max x.top (p.seq + 1) })
    else match keyOf x.rxKeys p.epoch with
      | none => .next (s.lkCount l (R.LK_TAGFAIL l) 1)
      | some key =>
        match gcmOpen key (torusNonce p.epoch p.seq (s.nbrPort l k)) (torusHeader p) p.text with
        | none => .next (s.tagFailed l k p.seq)
        | some content => .next (s.acceptPacket l k p content)

/-! ### CONTROL_CODEWORD_RECEIVE (R340, R347, R359, R360) -/

/-- The packets of a destroyed epoch given up (R360): what is held of them is discarded and their SEQs are no gap. They lie
below the first packet accepted under the epoch after it; where none has been accepted, below the next that is. -/
def LinkPlane.giveUp (x : LinkPlane) : LinkPlane :=
  match x.first with
  | none => { x with held := [], skip := true }
  | some q =>
    let x := { x with next := max x.next q, held := x.held.filter (fun h => decide (q ≤ h.1))
                      passed := x.passed.filter (fun p => decide (q ≤ p)), aborted := x.aborted.filter (fun p => decide (q ≤ p)) }
    x.advance (x.passed.length + 1)

/-- The receiver gives up its oldest epoch and derives the one after its newest in advance (R359); `drop` discards the
packets of the old epoch as well, answers with FORCEACK and delivers what no longer waits for them (R360). -/
def State.retireRx (s : State) (l : Fin 6) (k : Fin 8) (drop : Bool) : State :=
  let x := s.plane l k
  match x.rxKeys with
  | (e, key) :: _ =>
    let n := (e + 1) % 256
    let x := if drop then { x.giveUp with answer := true } else x
    let t := (s.setPlane l k { x with rxKeys := [(n, nextEpochKey key k n), (e, key)], first := none }).put
      (R.LK_EPOCH l k) F.LK_EPOCH_RXEP n
    if drop then t.deliverPackets l k x.held.length else t
  | [] => s

/-- The groups of the module, or of one canton, whose rings use port l resend on them (R329). -/
def State.resendOn (s : State) (l : Fin 6) (k : Option (Fin 8)) : State :=
  (s.groups.filter (fun x => match k with | some k => s.gCanton x.1 == k.val | none => true)).foldl (fun t x =>
    let h := t.shape x.1
    let rings := (List.range 7).filter (fun u =>
      if u = 6 then true
      else if h.axis then u == l.val
      else decide (u < 2) && t.outPort (t.shortWay (t.nextModule x.1 h u)) == some l)
    let direct := t.outPort
    let rings := rings.filter (fun u => u != 6 ||
      (match (t.grp x.1) with
        | some g => (g.rings[6]).unacked.any (fun (q : Nat × Piece) => direct (t.shortWay q.1) == some l)
        | none => false))
    t.resend x.1 rings) s

/-- A plane record applied (R340, R359, R360). -/
def State.applyRecord (s : State) (l : Fin 6) (k : Fin 8) (r : PlaneRec) : State :=
  let t := s.applyAck l k r
  if t.portState l ≠ 2 then t
  else
    let t := if r.retire then t.retireRx l k false else t
    let t := if r.force then t.retireRx l k true else t
    let x := t.plane l k
    if r.forceAck && x.forcing then
      -- the packets it discarded are sent again by the groups they carried (R351, R360)
      ((t.setPlane l k { x with forcing := false }).linkEvent l 0x2042 k (t.rd (R.LK_REKEYS l)).toNat).resendOn l (some k)
    else t

/-- CONTROL_CODEWORD_RECEIVE (R340): the tag is checked; on failure LK_CTLFAIL counts, 0x2449 is raised, and the fourth
failure in succession retrains the port; a good codeword's records are applied. -/
def execControlCodewordReceive (l : Fin 6) (c : CtlWord) (tag : List Byte) (s : State) : Out :=
  let p := s.port l
  match (if s.portState l = 2 then p.control else none) with
  | none => .next s
  | some key =>
    if tag = ctlTag key (s.nbrPort l 0) c then
      let t := s.setPort l { p with ctlFails := 0 }
      .next (((allPlanes.take s.cantons).zip c.planes).foldl
        (fun t r => if t.portState l = 2 then t.applyRecord l r.1 r.2 else t) t)
    else
      let t := (s.setPort l { p with ctlFails := p.ctlFails + 1 }).lkCount l (R.LK_CTLFAIL l) 1
      let t := t.linkEvent l 0x2449 0 (t.rd (R.LK_CTLFAIL l)).toNat
      .next (if p.ctlFails + 1 = 4 then t.startTraining l else t)

/-! ### Training and port failure (R349-R352, R536) -/

/-- LINK_RETRAIN (R349, R369): LK_CFG.RETRAIN, which the trust die writes, starts an LRST of the port. -/
def execLinkRetrain (l : Fin 6) (s : State) : Out := .next (s.startTraining l)

/-- Lanes of a half of a port. -/
def halfMask (h : Nat) : Nat := if h = 0 then 0xFF else 0xFF00

/-- Credits a plane starts with: its share of the receive buffer in 64-byte units, 32 KiB of it for TC2
(DESIGN CHOICE, log 62). -/
def State.startCredits (s : State) : Vector Nat 6 :=
  let bulk := (2 ^ 21 - 2 ^ 15) / 64 / s.cantons / 4
  let urgent := 2 ^ 15 / 64 / s.cantons / 2
  Vector.ofFn (fun (i : Fin 6) => if i.val < 4 then bulk else urgent)

/-- Control key, or epoch-0 key of a plane, of a link session secret (R349). -/
def linkKey (secret : List Byte) (name : String) (plane : Nat) : List Byte := fit 32 (Config.crypto name (secret ++ leBytes 1 plane))

/-- A port that a training leaves down (R350): it retries every second. -/
def State.trainFailed (s : State) (l : Fin 6) (code : Nat) : State :=
  let t := s.endSession l 3
  (t.setPort l { t.port l with retryAt := some (s.now + secTicks) }).linkEvent l code 0 (s.rd (R.LK_NBR l)).toNat

/-- A port brought UP with the keys of a session (R349 steps 5 and 6): epochs 0 and, derived in advance, 1 for
receiving (R359; DEDUCED, log 63). -/
def State.portUp (s : State) (l : Fin 6) (secret : List Byte) : State :=
  let p := s.port l
  let fresh := fun (k : Fin 8) =>
    let key := linkKey secret "LINK-EPOCH-0" k
    { LinkPlane.reset with
      txKeys := [(0, key)], rxKeys := [(1, nextEpochKey key k 1), (0, key)], epochAt := s.now, credits := s.startCredits }
  let t := s.setPort l { p with
    control := some (linkKey secret "LINK-CONTROL" 0), cseq := 0, ctlFails := 0, ctlAt := s.now, retryAt := none
    planes := Vector.ofFn (fun (k : Fin 8) => if k.val < s.cantons then fresh k else LinkPlane.reset) }
  let t := (allPlanes.take s.cantons).foldl (fun t k =>
    (t.put (R.LK_EPOCH l k.val) F.LK_EPOCH_RXEP 1).put (R.LK_EPOCH l k.val) F.LK_EPOCH_RXTWO 1) (t.zeroEpochs l)
  t.put (R.LK_STATUS l) F.LK_STATUS_STATE 2

/-- LINK_TRAIN_COMPLETE (R336, R343, R349, R350): the outcome of a training. Width 16 with every lane, width 8 with a
whole half, otherwise the port goes down; the identity is exchanged; a wrong coordinate, port or canton shape (0x2245)
or a failed agreement (0x244A) keeps the port down; otherwise keys are loaded, the port is UP and groups resend. -/
def execLinkTrainComplete (l : Fin 6) (r : TrainResult) (s : State) : Out :=
  if s.portState l ≠ 1 then .next s
  else
    let s := (s.put (R.LK_LANES l) F.LK_LANES_FAILED
        (s.get (R.LK_LANES l) F.LK_LANES_FAILED ||| (0xFFFF - r.lanes.toNat))).bump (R.LK_STATUS l) F.LK_STATUS_TRAINS 1
    let half := [0, 1].find? (fun h => r.lanes.toNat &&& halfMask h == halfMask h)
    match half with
    | none => .next ((s.put (R.LK_LANES l) F.LK_LANES_ACTIVE 0).linkDown l)
    | some h =>
      let narrow := r.lanes.toNat ≠ 0xFFFF
      let s := s.put (R.LK_LANES l) F.LK_LANES_ACTIVE (if narrow then halfMask h else 0xFFFF)
      let s := (s.put (R.LK_STATUS l) F.LK_STATUS_WIDTH8 (if narrow then 1 else 0)).put (R.LK_STATUS l) F.LK_STATUS_HALF (if narrow then h else 0)
      let s := if narrow then (s.put (R.LK_STATUS l) F.LK_STATUS_NARROWED 1).linkEvent l 0x2144 0 (s.rd (R.LK_LANES l)).toNat else s
      let s := s.wr (R.LK_NBR l) (BitVec.ofNat 32 (r.module_.toNat + 2 ^ 17 * r.port + 2 ^ 20 * r.stepping + 2 ^ 24))
      if r.module_.toNat ≠ s.facing l ∨ r.port.val ≠ l.val ^^^ 1 ∨ r.shape.val ≠ s.get R.ARCH_CFG F.ARCH_CFG_CANTON_LOG2 then
        .next (s.trainFailed l 0x2245)
      else if r.agreed = false then .next (s.trainFailed l 0x244A)
      else .next ((s.portUp l r.secret).resendOn l none)

/-- LINK_TRAIN_RETRY (R350): a port that a training left down trains again 1 s later. -/
def execLinkTrainRetry (l : Fin 6) (s : State) : Out :=
  match (s.port l).retryAt with
  | some t => if s.portState l = 3 ∧ t ≤ s.now then .next (s.startTraining l) else .next s
  | none => .next s

/-- LINK_DOWN (R352): lost codeword lock takes the port down; a failed lane makes it retrain at width 8 while a whole
half of good lanes remains, and takes it down otherwise. -/
def execLinkDown (l : Fin 6) (why : DownCause) (s : State) : Out :=
  if s.portState l ≠ 2 then .next s
  else match why with
    | .lock => .next (s.linkDown l)
    | .lane n =>
      let good := s.get (R.LK_LANES l) F.LK_LANES_ACTIVE &&& (0xFFFF - 2 ^ n.val)
      let t := s.put (R.LK_LANES l) F.LK_LANES_ACTIVE good
      if [0, 1].any (fun h => good &&& halfMask h == halfMask h) then .next (t.startTraining l) else .next (t.linkDown l)

/-- DOWN_PORT_HOLD_EXPIRE (R352): packets of a plane that have waited LK_CFG.HOLDMS at a down port are discarded and
counted; 0x2246 once per plane. -/
def execDownPortHoldExpire (l : Fin 6) (k : Fin 8) (s : State) : Out :=
  let p := s.port l
  let hold := s.get (R.LK_CFG l) F.LK_CFG_HOLDMS * msTicks
  let old := fun (t : TPacket) => t.plane == k.val && decide (max t.since p.downAt + hold ≤ s.now)
  let n := (p.queue.filter old).length
  if s.portState l = 2 ∨ s.portState l = 0 ∨ n = 0 then .next s
  else
    let t := (s.setPort l { p with queue := p.queue.filter (fun q => !old q) }).lkCount l (R.LK_DROP l) n
    let x := t.plane l k
    if x.dropped then .next t
    else .next ((t.setPlane l k { x with dropped := true }).linkEvent l 0x2246 k (t.rd (R.LK_DROP l)).toNat)

/-- CABLE_INSERT (R536): a cable inserted into an enabled port starts a training. -/
def execCableInsert (l : Fin 6) (s : State) : Out :=
  let t := s.setPort l { s.port l with cable := true }
  if (s.port l).cable = false ∧ s.flag (R.LK_CFG l) F.LK_CFG_EN then .next (t.startTraining l) else .next t

/-- CABLE_REMOVE (R536): a cable removed while its port runs takes the port down. -/
def execCableRemove (l : Fin 6) (s : State) : Out :=
  let t := s.setPort l { s.port l with cable := false }
  if s.portState l = 2 then .next (t.linkDown l) else .next t

/-! ### Epochs (R359, R360) -/

/-- A plane's sender moved to its next epoch. -/
def State.nextEpoch (s : State) (l : Fin 6) (k : Fin 8) : State :=
  let x := s.plane l k
  let e := s.get (R.LK_EPOCH l k) F.LK_EPOCH_TXEP
  let n := (e + 1) % 256
  let key := nextEpochKey ((keyOf x.txKeys e).getD []) k n
  let x := { x with txKeys := (n, key) :: x.txKeys.take 1, sent := 0, epochAt := s.now }
  ((s.setPlane l k x).put (R.LK_EPOCH l k) F.LK_EPOCH_TXEP n).lkCount l (R.LK_REKEYS l) 1

/-- EPOCH_CHANGE (R359, R368): after 2^32 packets or the rekey period, and once RETIRE for the epoch before has been
sent, new packets use the next epoch; 0x2041 at most once a second per port. -/
def execEpochChange (l : Fin 6) (k : Fin 8) (s : State) : Out :=
  let x := s.plane l k
  let ms := s.get (R.LK_REKEY_CFG l) F.LK_REKEY_CFG_MS
  if s.portState l ≠ 2 ∨ s.cantons ≤ k.val ∨ s.flag (R.LK_EPOCH l k) F.LK_EPOCH_RETIRING ∨ x.retire = true ∨
      (x.sent < 2 ^ 32 ∧ (ms = 0 ∨ s.now < x.epochAt + ms * msTicks)) then .next s
  else
    let t := (s.nextEpoch l k).put (R.LK_EPOCH l k) F.LK_EPOCH_RETIRING 1
    .next ((t.linkEventCapped l 0 1 0x2041 k (t.rd (R.LK_REKEYS l)).toNat).checkRetire l k)

/-- A forced rekey of plane k of port l (R360): the next epoch at once, the old keys destroyed, unacknowledged packets
discarded and counted, FORCE due. -/
def State.forceRekey (s : State) (l : Fin 6) (k : Fin 8) : State :=
  if s.portState l ≠ 2 ∨ s.cantons ≤ k.val then s
  else
    let t := s.nextEpoch l k
    let x := t.plane l k
    let retire := x.retire || s.flag (R.LK_EPOCH l k) F.LK_EPOCH_RETIRING
    let t := t.setPlane l k { x with txKeys := x.txKeys.take 1, replay := [], force := true, forcing := true, retire := retire }
    (t.put (R.LK_EPOCH l k) F.LK_EPOCH_RETIRING 0).lkCount l (R.LK_DROP l) x.replay.length

/-- FORCED_REKEY (R360, R369): LK_REKEY_CMD.FORCE. A canton's view acts on its own plane only; the trust die on any. -/
def execForcedRekey (v : View) (l : Fin 6) (planes : BitVec 8) (s : State) : Out :=
  let may : Fin 8 → Bool := fun k => match v with
    | .td => true
    | .core d => s.colCanton (d.val % 8) == k.val
    | _ => false
  .next ((allPlanes.filter (fun (k : Fin 8) => planes.getLsbD k.val && may k)).foldl (fun t k => t.forceRekey l k) s)

/-- LINK_COUNTER_CLEAR (R369): LK_CNT_CTL.CLEAR sets every link counter of the port to 0. -/
def execLinkCounterClear (l : Fin 6) (s : State) : Out :=
  .next (s.clearCounts (R.LK_CNT_CTL l) [R.LK_FEC_CORR_LO l, R.LK_FEC_CORR_HI l, R.LK_FEC_UNC l, R.LK_CRCERR l, R.LK_RETX l, R.LK_DUPS l,
    R.LK_TAGFAIL l, R.LK_CTLFAIL l, R.LK_REKEYS l, R.LK_DROP l, R.LK_REVOKE l, R.LK_TC2WAIT l, R.LK_STALE l])

/-! ### The shared arbiter (R362-R366) -/

/-- The arbiter of a stage. -/
def State.arb (s : State) (st : ArbStage) : ArbState :=
  match s.arbs.find? (fun x => x.1 == st) with | some x => x.2 | none => ArbState.reset
/-- The arbiter of a stage set. -/
def State.setArb (s : State) (st : ArbStage) (a : ArbState) : State :=
  { s with arbs := (st, a) :: s.arbs.filter (fun x => x.1 != st) }

/-- The link die whose counters a stage counts in: only a link output stage has them (R363-R365). -/
def counted : ArbStage → Option (Fin 6)
  | .link l => some l
  | _ => none

/-- Whether a stage serves planes by time-division (R366): link output stages, transit links, and the fabric links
within row 7. -/
def divided : ArbStage → Bool
  | .link _ => true
  | .transit _ _ => true
  | .fabric d p => (diePos d).2 == 7 && (p.val == 1 || p.val == 3)
  | .memory _ _ => false

/-- Whether idle slots of a stage are shared (LK_ARB.WCON, R366). -/
def State.sharing (s : State) : ArbStage → Bool
  | .link l => s.flag (R.LK_ARB l) F.LK_ARB_WCON
  | .transit l _ => s.flag (R.LK_ARB l) F.LK_ARB_WCON
  | _ => s.flag (R.LK_ARB 0) F.LK_ARB_WCON

/-- A counter of a link output stage raised. -/
def State.arbCount (s : State) (st : ArbStage) (a : Nat → Nat) (n : Nat) : State :=
  match (counted st) with
  | some l => s.lkCount l (a l.val) n
  | none => s

/-- Whether a group's message is the one a packet carries. -/
def GMsg.carries (m : GMsg) (dst : Nat) (content : List Byte) : Bool :=
  match m with
  | .piece target p => target == bitsN dst 16 0 && content == pieceBytes p
  | _ => false

/-- The packet a request would send at a link output stage: the one it hands over, or the first of its requester,
plane and class that waits. A message takes the shorter way on each axis; a collective piece is sent in the direction of
its ring (R354). -/
def State.requestPacket (s : State) (l : Fin 6) (r : ArbReq) : Option TPacket :=
  match r.send with
  | some x =>
    let dst := if s.outbox.any (fun m => m.carries x.dst.toNat x.content) then x.dst.toNat else s.shortWay (bitsN x.dst.toNat 16 0)
    some ⟨r.requester, r.plane, x.tc, s.dateline l && (s.outPort dst == some l), dst, x.ddie, x.content, s.now⟩
  | none => (s.port l).queue.find? (fun t => t.requester == r.requester && t.plane == r.plane.val && (t.tc == 2) == r.urgent)

/-- Whether a link output stage may send a packet of a request (R344, R345): the port is UP, the replay share has space,
and a packet that is not TC2 has its credits. -/
def State.maySend (s : State) (st : ArbStage) (r : ArbReq) : Bool :=
  match st with
  | .link l =>
    match s.requestPacket l r with
    | none => false
    | some t =>
      let x := s.plane l r.plane
      let units := 1 + (t.content.length - 32 + 63) / 64
      let vc : Fin 6 := fin6 (2 * t.tc + (if t.dl then 1 else 0))
      s.portState l == 2 && decide (r.plane.val < s.cantons) && decide (x.replayBytes + 64 * units ≤ s.planeShare) &&
        (t.tc == 2 || decide (units ≤ x.credits[vc]))
  | _ => true

/-- A packet's head unit sent (R345, R358): it takes the next SEQ, is encrypted under the current epoch, and stays in the
replay buffer; its credits are used. -/
def State.sendHead (s : State) (l : Fin 6) (r : ArbReq) : State :=
  match s.requestPacket l r with
  | none => s
  | some t =>
    let k := r.plane
    let x := s.plane l k
    let seq := s.get64 (R.LK_SEQ_LO l k.val) (R.LK_SEQ_HI l k.val)
    let e := s.get (R.LK_EPOCH l k) F.LK_EPOCH_TXEP
    let p := sealPacket ((keyOf x.txKeys e).getD []) (s.ownPort l k) seq e t
    let vc : Fin 6 := fin6 (2 * t.tc + (if t.dl then 1 else 0))
    let x := { x with
      replay := x.replay ++ [⟨p, 0⟩], sent := x.sent + 1
      credits := x.credits.set vc (x.credits[vc] - torusUnits p) }
    let u := s.setPlane l k x
    let q := u.port l
    let u := u.setPort l { q with last := some p, queue := if r.send.isSome then q.queue else q.queue.erase t }
    let u := { u with outbox := match u.outbox.find? (fun (m : GMsg) => m.carries t.dst t.content) with | some m => u.outbox.erase m | none => u.outbox }
    u.put64 (R.LK_SEQ_LO l k.val) (R.LK_SEQ_HI l k.val) (seq + 1)

/-- Units of a request's packet. -/
def State.requestUnits (s : State) (st : ArbStage) (r : ArbReq) : Nat :=
  match st with
  | .link l => match s.requestPacket l r with
    | some t => 1 + (t.content.length - 32 + 63) / 64
    | none => r.units
  | _ => r.units

/-- The granted cycle passes (R362, R363): a masked requester's grant lapses; a request withdrawn after the decision leaves
the cycle idle, counted in LK_STALE; otherwise one unit is carried, and a packet that starts takes its SEQ. -/
def State.carry (s : State) (st : ArbStage) (a : ArbState) (reqs : List ArbReq) : State × ArbState :=
  match a.grant with
  | none => (s, a)
  | some (g, again) =>
    let a := { a with grant := none }
    let p : Fin 8 := if divided st then g.plane else 0
    if a.masked.contains g.requester then (s, a)
    else match a.busy[p] with
      | some (r, n) => (s, { a with busy := a.busy.set p (if n ≤ 1 then none else some (r, n - 1)) })
      | none =>
        if again then
          let n := s.requestUnits st g
          (s, { a with busy := a.busy.set p (if n ≤ 1 then none else some (g, n - 1)), revoked := a.revoked.set p none })
        else if reqs.contains g && s.maySend st g then
          let n := s.requestUnits st g
          let s := match st with | .link l => s.sendHead l g | _ => s
          (s, { a with busy := a.busy.set p (if n ≤ 1 then none else some ({ g with units := n }, n - 1)), last := a.last.set p g.requester })
        else (s.arbCount st R.LK_STALE 1, a)

/-- The request next in rotation after a requester. -/
def nextInTurn (last : Nat) (l : List ArbReq) : Option ArbReq :=
  let low := fun (m : List ArbReq) => m.foldl (fun (b : Option ArbReq) r =>
    match b with | some x => if r.requester < x.requester then some r else b | none => some r) none
  (low (l.filter (fun r => decide (last < r.requester)))).or (low l)

/-- The oldest of urgent requests. -/
def oldest (l : List ArbReq) : Option ArbReq :=
  l.foldl (fun (b : Option ArbReq) r => match b with | some x => if r.age < x.age then some r else b | none => some r) none

/-- The grant of one plane (R364, R365): urgent packets oldest first, within the budget at a link output stage; an urgent
request revokes a bulk transfer in progress, whose next cycle carries the abort unit; a revoked packet restarts when no
urgent request waits; bulk requests take turns. Answers the state, the arbiter, and whether the slot is used. -/
def State.decidePlane (s : State) (st : ArbStage) (a : ArbState) (reqs : List ArbReq) (p : Fin 8) : State × ArbState × Bool :=
  let mine := reqs.filter (fun r => (!(divided st) || r.plane == p) && !a.masked.contains r.requester && s.maySend st r)
  let urgent := oldest (mine.filter (fun r => r.urgent))
  let limited := (counted st).isSome && a.budget[p] == 0
  match a.busy[p] with
  | some (r, n) =>
    if r.urgent then (s, { a with grant := some (r, false) }, true)
    else if urgent.isSome && !limited then
      (s.arbCount st R.LK_REVOKE 1,
        { a with busy := a.busy.set p none, revoked := a.revoked.set p (some { r with units := max r.units n }) }, true)
    else (if urgent.isSome then s.arbCount st R.LK_TC2WAIT 1 else s, { a with grant := some (r, false) }, true)
  | none =>
    match urgent with
    | some u =>
      if limited then
        let s := s.arbCount st R.LK_TC2WAIT 1
        match a.revoked[p] with
        | some r => (s, { a with grant := some (r, true) }, true)
        | none =>
          match nextInTurn a.last[p] (mine.filter (fun r => !r.urgent)) with
          | some r => (s, { a with grant := some (r, false) }, true)
          | none => (s, a, false)
      else (s, { a with grant := some (u, false), budget := if (counted st).isSome then a.budget.set p (a.budget[p] - 1) else a.budget }, true)
    | none =>
      match a.revoked[p] with
      | some r => (s, { a with grant := some (r, true) }, true)
      | none =>
        match nextInTurn a.last[p] (mine.filter (fun r => !r.urgent)) with
        | some r => (s, { a with grant := some (r, false) }, true)
        | none => (s, a, false)

/-- The slot moves on (R365, R366): each 128 slots of a plane give its urgent budget one packet, up to two. -/
def ArbState.nextSlot (a : ArbState) (p : Fin 8) : ArbState :=
  let n := a.used[p] + 1
  { a with slot := a.slot + 1, used := a.used.set p (n % 128),
           budget := if n = 128 then a.budget.set p (min 2 (a.budget[p] + 1)) else a.budget }

/-- ARBITER_DECISION (R363-R366): the cycle granted before passes, then the grant of the next cycle is decided from the
requests present: the plane of the slot, and where idle slots are shared the next plane in rotation that is ready. -/
def execArbiterDecision (st : ArbStage) (reqs : List ArbReq) (s : State) : Out :=
  let (s, a) := s.carry st (s.arb st) reqs
  let c := if divided st then s.cantons else 1
  let turn := fun (i : Nat) => fin8 ((a.slot + i) % c)
  let planes := (if s.sharing st then List.range c else [0]).map turn
  let r := planes.foldl (fun (x : State × ArbState × Bool) p => if x.2.2 then x else x.1.decidePlane st x.2.1 reqs p) (s, a, false)
  .next (r.1.setArb st (r.2.1.nextSlot (turn 0)))

/-- REQUESTER_MASK_CHANGE (R362): a masked requester's requests are ignored from the next decision on, its grant lapses,
and its transfer in progress is cut off as a revocation that is never restarted. -/
def execRequesterMaskChange (st : ArbStage) (requester : Nat) (masked : Bool) (s : State) : Out :=
  let a := s.arb st
  if masked then
    let cut := a.busy.toList.filter (fun b => b.any (fun x => x.1.requester == requester))
    let a := { a with
      masked := if a.masked.contains requester then a.masked else requester :: a.masked
      grant := a.grant.filter (fun g => g.1.requester != requester)
      busy := a.busy.map (fun b => b.filter (fun x => x.1.requester != requester))
      revoked := a.revoked.map (fun b => b.filter (fun x => x.requester != requester)) }
    .next ((s.arbCount st R.LK_REVOKE cut.length).setArb st a)
  else .next (s.setArb st { a with masked := a.masked.filter (fun r => r != requester) })

end Sys2Proof.Machine
end

