-- ==== Sys2Proof/Machine/Flash.lean ====
section
/-! DEFINITION. The boot flash: two-copy records, images and slots, the operator key and the module configuration record
(R472-R478, R483-R486). -/
namespace Sys2Proof.Machine

/-- n random bytes of the TRNG or a DRBG (R404, R414): free values. -/
def State.rand (s : State) (n : Nat) : List Byte × State := (leBytes n (s.fresh (8 * n)).1, (s.fresh (8 * n)).2)

/-- n bytes of the boot flash from an offset on. -/
def State.fl (s : State) (a : Nat) : Nat → List Byte
  | 0 => []
  | n + 1 => Sparse.get Config.factory s.pwr.flash a :: State.fl s (a + 1) n

/-- A little-endian number of the boot flash. -/
def State.flNum (s : State) (a n : Nat) : Nat := leNat (s.fl a n)

/-- Bytes programmed into the boot flash. -/
def State.flPut (s : State) (a : Nat) (bs : List Byte) : State :=
  { s with pwr := { s.pwr with flash := sparsePut Config.factory s.pwr.flash a bs } }

/-- A range of the boot flash erased. -/
def State.flErase (s : State) (a n : Nat) : State := s.flPut a (List.replicate n 0xFF)

/-- Whether an RSASSA-PSS signature over a label and data verifies under a modulus (R406, R407). -/
def pssOk (modulus : List Byte) (lab : String) (data sig : List Byte) : Bool :=
  Config.verify "RSASSA-PSS" (modulus ++ sha512 (label lab ++ data) ++ sig)

/-- CRC-32 of bytes, as 4 bytes. -/
def crc32 (bs : List Byte) : List Byte := fit 4 (Config.crypto "CRC-32" bs)

/-- The copy of a two-copy record in force (R474): of those that verify the one with the higher SEQ, which stands at
offset `at_` of the record. -/
def State.inForce (s : State) (a0 a1 at_ : Nat) (ok : Nat → Bool) : Option Nat :=
  if ok a0 && ok a1 then some (if s.flNum (a0 + at_) 4 < s.flNum (a1 + at_) 4 then a1 else a0)
  else if ok a0 then some a0 else if ok a1 then some a1 else none

/-- The copy a new version is written to (R474): the other one. -/
def State.otherCopy (s : State) (a0 a1 at_ : Nat) (ok : Nat → Bool) : Nat := if s.inForce a0 a1 at_ ok = some a0 then a1 else a0

/-- The module serial: 16 bytes of the directory (R473, R549). -/
def State.serial (s : State) : List Byte := s.fl 0 16

/-! ### Operator key binding (R483) -/

/-- Whether a copy of the binding verifies. -/
def State.bindingOk (s : State) (a : Nat) : Bool :=
  s.fl a 4 == label "JVBD" && pssOk (s.fl (a + 8) 512) "JV-BIND" (s.serial ++ s.fl a 520) (s.fl (a + 520) 512)

/-- The bound operator key's modulus. -/
def State.operatorKey (s : State) : Option (List Byte) :=
  (s.inForce 0x1000000 0x1010000 4 s.bindingOk).map (fun a => s.fl (a + 8) 512)

/-- Whether a signature of the operator key over a label and data verifies. -/
def State.operatorSigned (s : State) (lab : String) (data sig : List Byte) : Bool :=
  match s.operatorKey with
  | some k => pssOk k lab data sig
  | none => false

/-! ### Images and slots (R473, R475-R478) -/

/-- Flash offset and size of a slot: kinds 0 manifest, 1 TFW, 2 SFW, 3 LMC, 4 UMC; slots 0 A, 1 B, 2 golden (R473). -/
def slotPlace (kind slot : Nat) : Nat × Nat :=
  match kind with
  | 0 => ([0x1060000, 0x1070000, 0x30000].getD slot 0, 0x10000)
  | 1 => ([0x2000000, 0x2400000, 0x400000].getD slot 0, 0x400000)
  | 2 => ([0x2800000, 0x2A00000, 0x800000].getD slot 0, 0x200000)
  | 3 => ([0x2C00000, 0x2D00000, 0xA00000].getD slot 0, 0x100000)
  | _ => ([0x2E00000, 0x2F00000, 0xB00000].getD slot 0, 0x100000)

/-- Whether the image of a slot is valid (R475). -/
def State.imageValid (s : State) (kind slot : Nat) : Bool :=
  let p := slotPlace kind slot
  let len := s.flNum (p.1 + 20) 4
  s.fl p.1 4 == label "JVIM" && s.flNum (p.1 + 4) 1 == (if kind = 0 then 5 else kind) && s.flNum (p.1 + 5) 3 == 0 &&
    (s.fl (p.1 + 88) 3496).all (· == 0) && decide (len ≤ p.2 - 4096) && sha512 (s.fl (p.1 + 4096) len) == s.fl (p.1 + 24) 64 &&
    pssOk (label "ROM-FIRMWARE-KEY") "JV-IMG" (s.fl p.1 3584) (s.fl (p.1 + 3584) 512) &&
    (s.flNum (p.1 + 18) 2).testBit Config.stepping.toNat

/-- Whether a copy of the slot select record verifies: SEQ, one slot byte per kind, 3 bytes, CRC-32 (R474). -/
def State.selectOk (s : State) (a : Nat) : Bool := crc32 (s.fl a 12) == s.fl (a + 12) 4

/-- The slot that the slot select record names for a kind; A where no record verifies. -/
def State.namedSlot (s : State) (kind : Nat) : Nat :=
  match s.inForce 0x1020000 0x1030000 0 s.selectOk with
  | some a => s.flNum (a + 4 + kind) 1
  | none => 0

/-- The slot a start takes for a kind (R477): the named one, else the other writable one, else the golden one. -/
def State.chooseSlot (s : State) (kind : Nat) : Option Nat :=
  let n := s.namedSlot kind
  [n, if n = 0 then 1 else 0, 2].find? (fun x => s.imageValid kind x)

/-- Whether the manifest in a slot admits four epochs on this stepping (R476). `anyEpoch` asks for an entry of this
stepping alone. -/
def State.admits4 (s : State) (slot : Nat) (epochs : List Nat) (anyEpoch : Bool) : Bool :=
  let b := (slotPlace 0 slot).1 + 4096
  (List.range (min (s.flNum b 4) 4096)).any (fun i =>
    let e := b + 16 + 16 * i
    (s.flNum e 2).testBit Config.stepping.toNat &&
      (anyEpoch || (List.range 4).all (fun j => s.flNum (e + 2 + 2 * j) 2 == epochs.getD j 0)))

/-- The images a start takes, with their mismatch codes (R412, R478); a kind without a valid image has code 1. -/
def State.bootImages (s : State) : List BootImage :=
  let slots := (List.range 5).map (fun k => s.chooseSlot k)
  let epochOf := fun (k : Nat) => match slots.getD k none with
    | some x => s.flNum ((slotPlace k x).1 + 16) 2
    | none => 0
  let epochs := [epochOf 1, epochOf 2, epochOf 3, epochOf 4]
  let whole := match slots.getD 0 none with
    | none => 2
    | some m => if s.admits4 m epochs false then 0 else if s.admits4 m epochs true then 2 else 3
  (List.range 5).map (fun k =>
    match slots.getD k none with
    | none => ⟨2, 0, 0, 0, 1, []⟩
    | some x =>
      let a := (slotPlace k x).1
      ⟨x, s.flNum (a + 8) 4, s.flNum (a + 12) 4, s.flNum (a + 16) 2, whole, sha512 (s.fl a (4096 + s.flNum (a + 20) 4))⟩)

/-! ### Module configuration record (R484-R486) -/

/-- A field of an MCR. -/
def mcrNum (m : List Byte) (off n : Nat) : Nat := leNat ((m.drop off).take n)

/-- Bytes of an MCR before its signature. -/
def mcrSize (m : List Byte) : Nat := 1024 + 8 * mcrNum m 10 2

/-- Register names that no host-writable entry may name (R485). -/
def barredRegs (n : String) : Bool :=
  ["ARCH_CFG", "ARCH_CANTON_BASE", "ARCH_CANTON_SIZE", "ARCH_CANTON_SPREAD", "SEC_STATUS", "SEC_OWN", "SEC_CMD", "SEC_CMDSTAT",
   "CPOL_STATUS", "CPOL_SEQ", "SCRUB_STATUS"].contains n

/-- Whether a host-writable entry is allowed (R485): a register of the TD, HD or LD ranges, RW fields, none of class A. -/
def hwEntryOk (addr mask : Nat) : Bool :=
  match crsDie addr, regAt addr with
  | some (d, _, _), some r =>
    (d == .td || d == .hd || d == .ld) && !barredRegs r.name &&
      (BitVec.ofNat 32 mask &&& ~~~ regMask addr (fun f => (f.acc == .rw || f.acc == .rwHost || f.acc == .rwCanton || f.acc == .rwOwner) && f.kept != .a)) == 0
  | _, _ => false

/-- Host-writable entry i of an MCR: address and mask. -/
def mcrEntry (m : List Byte) (i : Nat) : Nat × Nat := (mcrNum m (1024 + 8 * i) 4, mcrNum m (1028 + 8 * i) 4)

/-- Whether every field of an MCR lies in its range and reserved bytes are 0 (R484). -/
def mcrFieldsOk (m : List Byte) : Bool :=
  (m.take 4) == label "JVMC" && mcrNum m 8 2 == 1 && decide (mcrNum m 10 2 ≤ 7936) && decide (mcrNum m 92 1 < 4) &&
    decide (mcrNum m 93 1 ≤ 2) && decide (mcrNum m 94 1 ≤ 127) && decide (mcrNum m 95 1 ≤ 127) && decide (mcrNum m 96 1 ≤ 127) &&
    decide (80 ≤ mcrNum m 97 1) && decide (mcrNum m 97 1 ≤ 105) && decide (mcrNum m 98 1 ≤ 1) && mcrNum m 99 1 == 0 &&
    decide (mcrNum m 148 4 < 2 ^ 21) && mcrNum m 154 2 == 0 && ((m.drop 210).take 814).all (· == 0)

/-- What R485 finds in an MCR, beside a copy with SEQ `inForce`: 0 accepted, 1 signature, 2 another rule. -/
def State.mcrCheck (s : State) (m : List Byte) (inForce : Option Nat) : Nat :=
  let n := mcrSize m
  if !(s.operatorSigned "JV-MCR" (m.take n) ((m.drop n).take 512) &&
      (match s.operatorKey with | some k => sha512 k == (m.drop 28).take 64 | none => false)) then 1
  else if !(mcrFieldsOk m && ((m.drop 12).take 16 == s.serial || ((m.drop 12).take 16).all (· == 0)) && (match inForce with | some n => decide (n < mcrNum m 4 4) | none => true) &&
      (List.range (mcrNum m 10 2)).all (fun i => hwEntryOk (mcrEntry m i).1 (mcrEntry m i).2)) then 2
  else 0

/-- An MCR copy of the flash. -/
def State.mcrCopy (s : State) (a : Nat) : List Byte := s.fl a (min (mcrSize (s.fl a 1024) + 512) 65536)

/-- Whether an MCR copy verifies. -/
def State.mcrOk (s : State) (a : Nat) : Bool :=
  let m := s.mcrCopy a
  s.operatorSigned "JV-MCR" (m.take (mcrSize m)) ((m.drop (mcrSize m)).take 512)

/-- The MCR copy in force. -/
def State.mcrInForce (s : State) : Option Nat := s.inForce 0x1080000 0x1090000 4 s.mcrOk

/-! ### Repair map (R518) -/

/-- Entries of a repair-map copy. -/
def State.repairEntries (s : State) (a : Nat) : List Nat := (List.range (min (s.flNum (a + 8) 4) 8000)).map (fun i => s.flNum (a + 16 + 8 * i) 8)

/-- Whether a copy of the repair map verifies under the identity key. -/
def State.repairOk (s : State) (a : Nat) : Bool :=
  let n := 16 + 8 * min (s.flNum (a + 8) 4) 8000
  match s.sec.identity with
  | some k => s.fl (a + 4) 4 == label "JVRM" && pssOk k "JV-RPM" (s.fl a n) (s.fl (a + n) 512)
  | none => false

/-- The repair map in force. -/
def State.repairInForce (s : State) : Option Nat := s.inForce 0x1040000 0x1050000 0 s.repairOk

/-- The identity key's signature over a label and data (R406). -/
def State.sign (s : State) (lab : String) (data : List Byte) : List Byte :=
  fit 512 (Config.crypto "RSASSA-PSS" (s.sec.identity.getD [] ++ sha512 (label lab ++ data)))

end Sys2Proof.Machine
end

