-- ==== Sys2Proof/Machine/Measure.lean ====
section
/-! DEFINITION. Canton policy and what the module attests (R409-R413, R418, R421). -/
namespace Sys2Proof.Machine

/-- STATE of a canton: 0 FREE, 1 ASSIGNED, 2 SCRUBBING (R418). -/
def State.polState (s : State) (k : Nat) : Nat := s.get (R.CPOL_STATUS k) F.CPOL_STATUS_STATE
/-- Security record of canton k. -/
def State.canton (s : State) (k : Nat) : CantonSec := s.sec.cantons[k % 8]'(Nat.mod_lt _ (by decide))
/-- Security record of canton k replaced. -/
def State.setCanton (s : State) (k : Nat) (c : CantonSec) : State :=
  { s with sec := { s.sec with cantons := s.sec.cantons.set (k % 8) c (Nat.mod_lt _ (by decide)) } }
/-- The security state replaced. -/
def State.setSec (s : State) (x : SecState) : State := { s with sec := x }

/-- Effective consent bits of canton k (R421). -/
def State.consent (s : State) (k : Nat) : Nat := s.get (R.CPOL_STATUS k) F.CPOL_STATUS_CONSENT

/-- Whether a consent bit is in force on a shared die: every ASSIGNED canton has it (R433). -/
def State.sharedConsent (s : State) (bit : Nat) : Bool :=
  (List.range s.cantons).all (fun k => s.polState k != 1 || (s.consent k).testBit bit)

/-- The canton policy record (R421). -/
def State.policyRecord (s : State) (k : Nat) : List Byte :=
  let c := s.canton k
  match c.manifest with
  | none => List.replicate 256 0
  | some m => fit 256 (leBytes 2 1 ++ leBytes 1 k ++ leBytes 1 (s.get (R.CPOL_STATUS k) F.CPOL_STATUS_OPFLAGS) ++ leBytes 4 (s.jobs.getD k 0) ++
      leBytes 4 (s.rd (R.CPOL_SEQ k)).toNat ++ leBytes 1 m.parties.length ++ leBytes 1 m.resumeK ++ leBytes 1 m.releaseK ++
      leBytes 1 (s.consent k) ++ m.digest)

/-- The public block of a canton (R411). -/
def State.publicBlock (s : State) (k : Nat) : List Byte :=
  fit 80 (leBytes 1 (s.polState k) ++ leBytes 1 (s.consent k) ++ leBytes 1 (s.get (R.CPOL_STATUS k) F.CPOL_STATUS_OPFLAGS) ++ [0] ++
    leBytes 4 (s.rd (R.CPOL_SEQ k)).toNat ++ sha512 (s.policyRecord k))

/-- Whether the module runs the recovery profile (R479). -/
def State.recovery (s : State) : Bool := s.get R.BOOT_STATUS F.BOOT_STATUS_PHASE == 9

/-- Image of a kind: 0 manifest, 1 TFW, 2 SFW, 3 LMC, 4 UMC. -/
def State.image (s : State) (kind : Nat) : BootImage := s.pwr.images.getD kind ⟨2, 0, 0, 0, 1, []⟩

/-- An entry of block 17 (R412). -/
def BootImage.entry (b : BootImage) : List Byte :=
  leBytes 4 b.version ++ leBytes 4 b.secver ++ leBytes 2 b.epoch ++ leBytes 1 b.slot ++ leBytes 1 b.mismatch ++ [0, 0, 0, 0]

/-- Digests sorted, by their value as numbers. -/
def sortDigests (l : List (List Byte)) : List (List Byte) := sortBy (fun d => leNat d.reverse) l

/-- Measurement block i (R410); none for a block the recovery profile does not answer (R413). -/
def State.measurement (s : State) (i : Nat) : Option (List Byte) :=
  if s.recovery && !(i == 1 || i == 8 || i == 17 || i == 18) then none
  else if i = 1 then some (leBytes 4 Config.romVersion.toNat)
  else if 2 ≤ i ∧ i ≤ 5 then some (fit 64 (s.image (i - 1)).digest)
  else if i = 6 then some (sha512 s.pwr.mcr)
  else if i = 7 then some (sha512 (match s.repairInForce with | some a => s.fl a (528 + 8 * min (s.flNum (a + 8) 4) 8000) | none => []))
  else if i = 8 then some s.rel.capMap
  else if 9 ≤ i ∧ i ≤ 16 then some (s.publicBlock (i - 9))
  else if i = 17 then some ((s.image 1).entry ++ (s.image 2).entry ++ (s.image 3).entry ++ (s.image 4).entry ++ (s.image 0).entry)
  else if i = 18 then some (leBytes 4 s.moduleId ++ leBytes 1 (bitsN s.pwr.straps 6 0) ++ leBytes 1 (bitsN s.pwr.straps 13 7) ++
    leBytes 1 (bitsN s.pwr.straps 20 14) ++ leBytes 1 Config.stepping.toNat ++ leBytes 1 (s.get R.ARCH_CFG F.ARCH_CFG_CANTON_LOG2) ++
    leBytes 4 (s.rd R.SEC_STATUS).toNat)
  else if 19 ≤ i ∧ i ≤ 26 then
    some (sha512 ((sortDigests ((s.canton (i - 19)).images.map (fun x => x.digest))).foldl (fun a d => a ++ d) []))
  else none

/-- All measurement blocks the module answers, in index order. -/
def State.measurements (s : State) : List (Nat × List Byte) :=
  (List.range 27).filterMap (fun i => (s.measurement i).map (fun b => (i, b)))

/-- RD of a key agreement (R415): SHA-512 of all measurement blocks. -/
def State.measureDigest (s : State) : List Byte := sha512 (s.measurements.foldl (fun a b => a ++ b.2) [])

/-- WORK_CONSERVE_UPDATE (R422): LK_ARB.WCON follows SHAREOK and SHARE of every ASSIGNED canton. -/
def State.workConserve (s : State) : State :=
  let ok := (List.range s.cantons).all (fun k => s.polState k != 1 ||
    ((s.get (R.CPOL_STATUS k) F.CPOL_STATUS_OPFLAGS).testBit 1 && (s.consent k).testBit 4))
  (List.range 6).foldl (fun t l => t.put (R.LK_ARB l) F.LK_ARB_WCON (if ok then 1 else 0)) s

/-! ### SPDM responder (R409-R413, R449) -/

/-- The SPDM responder replaced. -/
def State.setSpdm (s : State) (x : Spdm) : State := s.setSec { s.sec with spdm := x }

/-- Whether every attestation request is answered with an SPDM ERROR (R404, R480): no identity key, or a failed
public-key or hash engine of the trust die. -/
def State.spdmFails (s : State) : Bool := !s.flag R.SEC_STATUS F.SEC_STATUS_IDOK

/-- A request answered at once: ResponseNotReady through the DOE until the identity is settled (R481), an ERROR
without an identity (R404), else the answer. -/
def State.spdmAnswer (s : State) (tcp : Bool) (a : SpdmAnswer) : State :=
  let x := s.sec.spdm
  if tcp = false ∧ s.pwr.mode = .starting ∧ s.get R.BOOT_STATUS F.BOOT_STATUS_PHASE < 3 then s.setSpdm { x with answer := .notReady }
  else if s.spdmFails then s.setSpdm { x with answer := .error }
  else s.setSpdm { x with answer := a, long := [] }

/-- A signed response: at once over TCP; through the DOE it is answered with ResponseNotReady first (R449). -/
def State.spdmSigned (s : State) (tcp : Bool) (a : SpdmAnswer) : State :=
  if tcp ∨ s.spdmFails then s.spdmAnswer tcp a
  else
    let t := s.spdmAnswer tcp .notReady
    t.setSpdm { t.sec.spdm with waiting := some (a, s.now) }

/-- The ensign (R405): three certificates, 64 KiB of flash at most. -/
def State.ensign (s : State) : List Byte := s.fl 0x20000 0x10000

/-- SPDM_GET_VERSION (R409): versions 1.2 and 1.3; a new connection begins. -/
def execSpdmGetVersion (tcp : Bool) (s : State) : Out :=
  .next ((s.setSpdm Spdm.reset).spdmAnswer tcp (.version [0x12, 0x13]))

/-- SPDM_GET_CAPABILITIES (R409). -/
def execSpdmGetCapabilities (tcp : Bool) (s : State) : Out := .next (s.spdmAnswer tcp (.capabilities true))

/-- SPDM_NEGOTIATE_ALGORITHMS (R409): the one set the module has, where the requester offers it. -/
def execSpdmNegotiateAlgorithms (tcp offered : Bool) (s : State) : Out :=
  if offered then
    .next ((s.setSpdm { s.sec.spdm with agreed := true }).spdmAnswer tcp
      (.algorithms ["TPM_ALG_RSAPSS_4096", "TPM_ALG_SHA_512", "secp384r1", "AES-256-GCM"]))
  else .next ((s.setSpdm { s.sec.spdm with agreed := false }).spdmAnswer tcp .error)

/-- SPDM_GET_DIGESTS (R409): the digest of the ensign in slot 0. -/
def execSpdmGetDigests (tcp : Bool) (s : State) : Out := .next (s.spdmAnswer tcp (.digests (sha512 s.ensign)))

/-- SPDM_GET_CERTIFICATE (R405, R409): a part of the ensign; other slots hold nothing. -/
def execSpdmGetCertificate (tcp : Bool) (slot off len : Nat) (s : State) : Out :=
  if slot = 0 then
    let part := (s.ensign.drop off).take len
    .next (s.spdmAnswer tcp (.certificate part (s.ensign.length - off - part.length)))
  else .next (s.spdmAnswer tcp .error)

/-- SPDM_CHALLENGE (R406, R409): the identity key's signature over the requester's nonce, the ensign's digest and the
measurement digest. -/
def execSpdmChallenge (tcp : Bool) (nonce : List Byte) (s : State) : Out :=
  let d := sha512 s.ensign
  let m := s.measureDigest
  .next (s.spdmSigned tcp (.challengeAuth d m (s.sign "JV-SPDM" (nonce ++ d ++ m))))

/-- SPDM_GET_MEASUREMENTS (R409-R413): the block asked for, or all of them (index 0), with a signature over the nonce
where one is given; the response reflects the module at this instant. -/
def execSpdmGetMeasurements (tcp : Bool) (index : Nat) (nonce : Option (List Byte)) (s : State) : Out :=
  let blocks := if index = 0 then s.measurements else s.measurements.filter (fun b => b.1 == index)
  let bytes := blocks.foldl (fun a b => a ++ leBytes 1 b.1 ++ b.2) []
  if blocks.isEmpty then .next (s.spdmAnswer tcp .error)
  else
    match nonce with
    | none => .next (s.spdmAnswer tcp (.measurements blocks []))
    | some n => .next (s.spdmSigned tcp (.measurements blocks (s.sign "JV-SPDM" (n ++ bytes))))

/-- SPDM_KEY_EXCHANGE (R409): a secure session is started, over secp384r1. -/
def execSpdmKeyExchange (tcp : Bool) (share : List Byte) (s : State) : Out :=
  let (priv, t) := s.rand 48
  let pub := fit 96 (Config.crypto "P384-PUBLIC" priv)
  let key := fit 64 (Config.crypto "P384-ECDH" (priv ++ share))
  let t := if t.spdmFails then t else t.setSpdm { t.sec.spdm with session := some (key, false) }
  .next (t.spdmSigned tcp (.keyExchange pub (t.sign "JV-SPDM" (share ++ pub))))

/-- SPDM_FINISH (R409): the secure session is completed where its proof holds. -/
def execSpdmFinish (tcp : Bool) (proof : List Byte) (s : State) : Out :=
  match s.sec.spdm.session with
  | some (key, _) =>
    if Config.verify "SPDM-FINISH" (key ++ proof) then
      .next ((s.setSpdm { s.sec.spdm with session := some (key, true) }).spdmAnswer tcp .finish)
    else .next ((s.setSpdm { s.sec.spdm with session := none }).spdmAnswer tcp .error)
  | none => .next (s.spdmAnswer tcp .error)

/-- SPDM_END_SESSION (R409). -/
def execSpdmEndSession (tcp : Bool) (s : State) : Out :=
  match s.sec.spdm.session with
  | some _ => .next ((s.setSpdm { s.sec.spdm with session := none }).spdmAnswer tcp .ended)
  | none => .next (s.spdmAnswer tcp .error)

/-- SPDM_CHUNK_SEND (R409, R449): one chunk of a long request is taken; chunk 0 begins a new one. -/
def execSpdmChunkSend (tcp : Bool) (seq : Nat) (part : List Byte) (s : State) : Out :=
  let x := s.sec.spdm
  .next ((s.setSpdm { x with chunks := if seq = 0 then part else x.chunks ++ part }).spdmAnswer tcp (.chunkAck seq))

/-- Bytes of a chunk of a long response (R449: an object holds at most 64 KiB). -/
def chunkBytes : Nat := 65536

/-- The bytes of a long response: a certificate or measurement blocks. -/
def SpdmAnswer.bytes : SpdmAnswer → List Byte
  | .certificate p _ => p
  | .measurements bl sig => bl.foldl (fun a b => a ++ leBytes 1 b.1 ++ b.2) [] ++ sig
  | .challengeAuth d m g => d ++ m ++ g
  | .ideKm a => a
  | _ => []

/-- SPDM_CHUNK_GET (R409, R449): one chunk of the last response. -/
def execSpdmChunkGet (tcp : Bool) (seq : Nat) (s : State) : Out :=
  let x := s.sec.spdm
  let long := if x.long.isEmpty then x.answer.bytes else x.long
  let part := (long.drop (seq * chunkBytes)).take chunkBytes
  if part.isEmpty then .next (s.spdmAnswer tcp .error)
  else
    let last := decide (long.length ≤ (seq + 1) * chunkBytes)
    let t := s.spdmAnswer tcp (.chunk seq part last)
    .next (t.setSpdm { t.sec.spdm with long := if last then [] else long })

/-- SPDM_VENDOR_DEFINED_REQUEST (R431): CXL IDE_KM over the completed secure session: keys are programmed, the link IDE
stream is secure. -/
def execSpdmVendorDefinedRequest (tcp : Bool) (keys : List Byte) (s : State) : Out :=
  match s.sec.spdm.session with
  | some (_, true) =>
    let t := (s.setSec { s.sec with ideKeys := keys }).put R.SEC_STATUS F.SEC_STATUS_IDE 1
    .next (t.spdmAnswer tcp (.ideKm []))
  | _ => .next (s.spdmAnswer tcp .error)

/-- DOE_DISCOVERY (R449): the data-object type at an index and the next index, 0 after the last. -/
def execDoeDiscovery (index : Nat) (s : State) : Out :=
  let types := ["DOE Discovery", "CMA/SPDM", "Secured CMA/SPDM"]
  match types[index]? with
  | some t => .next (s.setSpdm { s.sec.spdm with answer := .discovery t ((index + 1) % 3) })
  | none => .next (s.setSpdm { s.sec.spdm with answer := .error })

/-- DOE_ABORT (R449): the request in progress ends, its values are discarded. -/
def execDoeAbort (s : State) : Out :=
  .next (s.setSpdm { s.sec.spdm with answer := .none, waiting := none, chunks := [], long := [] })

/-- DOE_RESPONSE_READY (R449): the signed response answered with ResponseNotReady is ready. -/
def execDoeResponseReady (s : State) : Out :=
  match s.sec.spdm.waiting with
  | some (a, _) => .next (s.setSpdm { s.sec.spdm with answer := a, waiting := none })
  | none => .next s

end Sys2Proof.Machine
end

