-- ==== Sys2Proof/Machine/Training.lean ====
section
/-! DEFINITION. Kept inputs, variant tables, admission, adapter drains, and the cadence controller
(06_training_passes.md, R205-R229). -/
namespace Sys2Proof.Machine

/-! ### Kept block inputs (R207) -/

/-- KEPT_INPUT_REBUILD (R207): where a backward queue stands in FAULT with code 0x7, the job controller writes the
replayed kept input at a fresh MPA, sets the base register that names it and raises 0x5133; where the block is the
first, or the input of the block below is unreadable too, it reports the step lost. `copy` is what the replay of the
block below has computed. -/
def execKeptInputRebuild (d : Fin 40) (q : Fin 4) (first below : Bool) (base : Fin 8) (fresh : BitVec 48)
    (copy : List Byte) (s : State) : Out :=
  if s.qState d q = 5 ∧ (s.que d q).fcode = 7 then
    if first = true ∨ below = false then .next { s with lostSteps := s.lostSteps ++ [(d.val, q.val)] }
    else
      let t := s.mpaWrite d fresh.toNat copy
      let x := t.que d q
      -- base register 0 is hard-wired to 0 (R172)
      let t := if base.val = 0 then t
        else t.setQue d q { x with bases := x.bases.set base (BitVec.ofNat 42 (fresh.toNat / 64)) }
      .next (t.raise 0x5133 d (some (t.cdCanton d)) (detail 0 ((t.cads.getD (t.cdCanton d) Cadence.reset).step % 65536) fresh.toNat))
  else .next s

/-! ### Variant tables (R213-R218) -/

/-- The compute die whose service core runs a canton's firmware controllers: the canton's first in row 1. -/
def State.svcDie (s : State) (k : Nat) : Nat := k * 8 / s.cantons

/-- DETAIL of a service-firmware event of canton k (R509): layer, table or party, the step, a value. -/
def State.svcDetail (s : State) (k sub value : Nat) : List Byte :=
  detail sub ((s.cads.getD k Cadence.reset).step % 65536) value

/-- Number of 1 bits. -/
def popcount (n : Nat) : Nat → Nat
  | 0 => 0
  | w + 1 => n % 2 + popcount (n / 2) w



/-- Whether a table header holds no reserved encoding (R214). -/
def headerOk (h : List Byte) : Bool :=
  fieldAt h 0 2 == 1 && decide (fieldAt h 2 1 ≤ 15) && decide (1 ≤ fieldAt h 3 1) && decide (fieldAt h 3 1 ≤ 64) &&
  decide (1 ≤ fieldAt h 4 2) && decide (fieldAt h 4 2 ≤ 4096) && zeroAt h 6 2 && zeroAt h 12 52

/-- Whether entry i of a table holds no reserved encoding, an even rank in BF16, and tensor IDs below 2^24 (R213, R215). -/
def entryOk (i nslot : Nat) (e : List Byte) : Bool :=
  let wfmt := fieldAt e 14 1
  let slots := (List.range 64).filter (fun b => (fieldAt e 20 8).testBit b)
  fieldAt e 0 2 == i && decide (fieldAt e 2 1 < 32) && decide (fieldAt e 12 2 < 4096) && decide (wfmt % 128 < 2) &&
  (wfmt % 128 != 0 || (fieldAt e 3 1 + 1) % 2 == 0) && decide (fieldAt e 15 1 < 2) && zeroAt e 19 1 &&
  slots.all (fun b => decide (b < nslot) && decide (fieldAt e 16 3 + 2 * b + 1 < 2 ^ 24)) && zeroAt e 28 36

/-- Adapters a canton may hold: 4,096 × its compute dies / 40 (R213). -/
def State.adapterLimit (s : State) (k : Nat) : Nat := 4096 * (s.cantonCds k).length / 40

/-- VARIANT_TABLE_ACTIVATE (R214, R215): the table becomes active in its canton; one that would exceed the canton's
limits or holds a reserved encoding is refused with 0x5234 and stays inactive. A table with the ID of an active one
replaces it (DESIGN CHOICE: log 20). -/
def execVariantTableActivate (k : Fin 8) (addr : BitVec 48) (s : State) : Out :=
  let a := addr.toNat
  let h := s.bytes a 64
  let nvar := fieldAt h 4 2
  let entries := (List.range nvar).map (fun i => s.bytes (a + 64 + 64 * i) 64)
  let n := entries.foldl (fun n e => n + popcount (fieldAt e 20 8) 64) 0
  let others := s.tables[k].filter (fun t => t.id != fieldAt h 2 1)
  let held := others.foldl (fun n t => n + t.adapters) 0
  let ok := a % 4096 == 0 && s.placeOf a == .dram k && s.placeOf (a + 63 + 64 * nvar) == .dram k && headerOk h &&
    ((List.range nvar).zip entries).all (fun p => entryOk p.1 (fieldAt h 3 1) p.2) &&
    decide (others.length < 16) && decide (held + n ≤ s.adapterLimit k)
  if ok then
    .next { s with tables := s.tables.set k (others ++ [⟨fieldAt h 2 1, a, fieldAt h 8 4, nvar, n⟩]) }
  else .next (s.raise 0x5234 (s.svcDie k) (some k) (s.svcDetail k (fieldAt h 2 1) a))

/-- The active table of a canton with an ID. -/
def State.tableOf (s : State) (k : Fin 8) (id : Nat) : Option VariantTable := s.tables[k].find? (fun t => t.id == id)

/-- Entry v of a table (R215). -/
def State.variantEntry (s : State) (t : VariantTable) (v : Nat) : List Byte := s.bytes (t.addr + 64 + 64 * v) 64

/-- Bytes that firmware writes from a die's service core: into DRAM at once (log 10). -/
def State.putNow (s : State) (die a : Nat) (bs : List Byte) : State :=
  match s.placeOf a with
  | .dram _ => s.dramPut a bs
  | _ => s.mpaWrite die a bs

/-- Whether the data loader admits a sequence (R216, R218). -/
def State.admits (s : State) (k : Fin 8) (table : Nat) (tag : W32) : Bool :=
  let v := bitsN tag.toNat 11 0
  let party := bitsN tag.toNat 17 13
  match s.tableOf k table with
  | none => false
  | some t =>
    t.job == s.jobs[k] &&
      (tag.getLsbD 12 || (decide (v < t.nvar) && (fieldAt (s.variantEntry t v) 8 4).testBit party))

/-- Place of a sequence in its micro-batch (R217): by variant index, base-only rows last. -/
def AdmittedSeq.key (a : AdmittedSeq) : Nat := if a.tag.getLsbD 12 then 4096 else bitsN a.tag.toNat 11 0

/-- A sequence placed in a micro-batch: after those of its variant and of lower ones. -/
def placeSeq (l : List AdmittedSeq) (a : AdmittedSeq) : List AdmittedSeq :=
  l.filter (fun b => decide (b.key ≤ a.key)) ++ a :: l.filter (fun b => decide (a.key < b.key))

/-- The segments of a micro-batch: key, first row, rows; each variant present forms one (R217). -/
def segmentsOf (l : List AdmittedSeq) : List (Nat × Nat × Nat) :=
  ((l.map (fun a => a.key)).eraseDups).map (fun v =>
    (v, (l.filter (fun a => decide (a.key < v))).foldl (fun n a => n + a.rows) 0,
     (l.filter (fun a => a.key == v)).foldl (fun n a => n + a.rows) 0))

/-- Rows of a micro-batch. -/
def rowsOf (l : List AdmittedSeq) : Nat := l.foldl (fun n a => n + a.rows) 0

/-- The row tags of a micro-batch, one a row (R216). -/
def rowTags (l : List AdmittedSeq) : List Byte := l.flatMap (fun a => (List.replicate a.rows (leBytes 4 a.tag.toNat)).flatten)

/-- The segment table of a micro-batch (R217). -/
def segmentTable (table : Nat) (l : List AdmittedSeq) : List Byte :=
  let segs := segmentsOf l
  leBytes 2 segs.length ++ leBytes 1 table ++ List.replicate 5 0 ++
    segs.flatMap (fun g => leBytes 8 (g.2.1 + (g.2.2 - 1) * 2 ^ 16 + (if g.1 = 4096 then 2 ^ 44 else g.1 * 2 ^ 32)))

/-- SEQUENCE_ADMIT (R216-R218): the data loader admits a sequence of token rows, all with one row tag, to the
micro-batch under way of its canton, or drops it and raises 0x5230 naming the party, the variant and the table. It writes
the micro-batch's row tags and its segment table. A micro-batch begins where the command says so, or where
the sequence would take the one under way past its bounds or to another table (DESIGN CHOICE: log 129). -/
def execSequenceAdmit (k : Fin 8) (table : Fin 16) (tag : W32) (seq : BatchSeq) (s : State) : Out :=
  if s.admits k table tag then
    let a : AdmittedSeq := ⟨k.val, table.val, tag &&& 0x7FFFF, seq.rows⟩
    let mine := s.admitted.filter (fun (b : AdmittedSeq) => b.canton == k.val)
    let batch := placeSeq mine a
    let excess := decide (65536 < rowsOf batch) || decide (1024 < (segmentsOf batch).length) || mine.any (fun b => b.table != table.val)
    let batch := if seq.fresh || excess then [a] else batch
    let t := { s with admitted := s.admitted.filter (fun (b : AdmittedSeq) => b.canton != k.val) ++ batch, resp := .done }
    let t := t.putNow (s.svcDie k) seq.tags.toNat (rowTags batch)
    .next (t.putNow (s.svcDie k) seq.segs.toNat (segmentTable table batch))
  else
    .next ((s.raise 0x5230 (s.svcDie k) (some k)
      (s.svcDetail k (bitsN tag.toNat 17 13) (bitsN tag.toNat 11 0 + 65536 * table.val))))

/-! ### A segment's commands (R219) -/

/-- An MA_PASS fed from row `first` of a micro-batch, `n` slots: its row, scale and destination addresses moved on. -/
def passRows (w : Cmd) (first n : Nat) : Cmd :=
  let put := fun (x : Nat) (hi lo v : Nat) => x - bitsN x hi lo * 2 ^ lo + v % 2 ^ (hi - lo + 1) * 2 ^ lo
  let x := w.toNat
  let x := put x 35 16 (cbits w 35 16 + cbits w 53 46 * first)
  let x := put x 45 36 (n - 1)
  let x := put x 77 58 (cbits w 77 58 + 8 * first / 64)
  BitVec.ofNat 128 (put x 97 78 (cbits w 97 78 + 8 * first))

/-- A command of a segment of `n` rows from row `first`: an MA_PASS as often as 1,024 slots at a time take. -/
def segmentCmd (w : Cmd) (first n : Nat) : List Cmd :=
  if unitOf w < 4 ∧ cbits w 7 0 = 2 then
    (List.range ((n + 1023) / 1024)).map (fun i => passRows w (first + 1024 * i) (min 1024 (n - 1024 * i)))
  else [w]

/-- The commands of an adapter pass, segment by segment in the order of the segment table (R219). -/
def State.adapterCmds (s : State) (a : AdapterProgram) : List Cmd :=
  let base := a.segs.toNat
  (List.range (s.num base 2)).flatMap (fun i =>
    let e := s.num (base + 8 + 8 * i) 8
    let v := if e.testBit 44 then 4096 else bitsN e 43 32
    match a.progs.find? (fun p => p.1 == v) with
    | none => []
    | some (_, l) => l.flatMap (fun w => segmentCmd w (bitsN e 15 0) (bitsN e 31 16 + 1)))

/-- Commands written into a ring from an index on. -/
def State.ringPut (s : State) (d : Fin 40) (q : Fin 4) (from_ : Nat) (l : List Cmd) : State :=
  (l.zipIdx).foldl (fun t p => t.putNow d (s.qBase d q + 16 * ((from_ + p.2) % s.qSize d q)) (leBytes 16 p.1.toNat)) s

/-- SEQ_QUEUE_TAIL_WRITE (R160, R161, R219): TAIL exposes new commands. With an adapter pass the job controller first writes
the commands of each segment behind them, the first row and the count in each MA_PASS. -/
def execSeqQueueTailWrite (d : Fin 40) (q : Fin 4) (write : TailWrite) (s : State) : Out :=
  match write.adapter with
  | none => .next (s.queueTail d q write.tail.toNat)
  | some a =>
    let l := s.adapterCmds a
    .next ((s.ringPut d q write.tail.toNat l).queueTail d q ((write.tail.toNat + l.length) % 65536))

/-! ### Adapter drains (R221, R222) -/

/-- Tensor IDs of the shards that a collective delivers to, as far as its descriptor has been read. -/
def State.destTensors (s : State) (g opseq : Nat) : List Nat :=
  match s.grp g with
  | none => []
  | some x =>
    match (x.fetched.map (fun p => p.2) ++ x.ops.map (fun o => o.d)).find? (fun d => d.opseq == opseq) with
    | some d =>
      if d.dk = 2 then
        ((s.landMap d.dst (s.gCanton g) d.width).getD []).filterMap (fun r =>
          (((s.md (fin16 r.md)).ue.shards.find? (fun x => x.idx == r.shard)).bind (fun x => x.desc)).map (fun d => d.tensor))
      else []
    | none => []

/-- Whether an adapter of a variant may be drained as a command asks (R221): its group is the variant's, the collective
delivers to shards of the variant's adapters alone, and the region holds nothing that another group drains. -/
def State.drainRight (s : State) (d : Fin 40) (e : List Byte) (w : Cmd) : Bool :=
  let g := cbits w 63 52
  let own := fun (t : Nat) => (List.range 64).any (fun b =>
    (fieldAt e 20 8).testBit b && (t == fieldAt e 16 3 + 2 * b || t == fieldAt e 16 3 + 2 * b + 1))
  let lo := cbits w 33 16
  let hi := lo + cbits w 51 34
  fieldAt e 12 2 == g && (s.destTensors g (cbits w 79 64)).all own &&
    !(s.cd d).drains.any (fun x => x.group != g && decide (x.line ≤ hi) && decide (lo < x.line + x.len))

/-- ADAPTER_DRAIN_REQUEST (R221, R222): the job controller puts a GAS_DRAIN of an adapter's region into a queue when it may
be drained so; any other request is refused before dispatch, with security alarm 0x5431. The drains of a FROZEN variant
are skipped. -/
def execAdapterDrainRequest (d : Fin 40) (q : Fin 4) (table : Fin 16) (variant : BitVec 12) (w : Cmd) (s : State) : Out :=
  let k : Fin 8 := ⟨s.cdCanton d % 8, Nat.mod_lt _ (by decide)⟩
  let v := variant.toNat
  match (s.tableOf k table).bind (fun t => if v < t.nvar then some (s.variantEntry t v) else none) with
  | none => .next (s.raise 0x5431 d (some k) (s.svcDetail k table v))
  | some e =>
    if s.drainRight d e w = false then .next (s.raise 0x5431 d (some k) (s.svcDetail k table v))
    else if (fieldAt e 14 1).testBit 7 then .next s
    else
      let tail := s.qTail d q
      .next ((s.ringPut d q tail [w]).queueTail d q ((tail + 1) % 65536))

/-! ### The cadence controller (R223-R229) -/

/-- CAD_ENABLE (R229): EN rises; the controller starts, or waits for a STEP_PERIOD other than 0. -/
def execCadEnable (k : Fin 8) (s : State) : Out :=
  if s.flag (R.CAD_CTL k) F.CAD_CTL_EN then .next s else .next ((s.put (R.CAD_CTL k) F.CAD_CTL_EN 1).cadSync k)

/-- Whether the update pennants of the present step have been posted on every memory die of a canton (R43, R225): no shard
that counts for a pennant is at work, waits, or has stopped, no square waits to be taken, and all stand at one step
(DEDUCED: log 128). -/
def State.stepPosted (s : State) (k : Nat) : Bool :=
  let ues := (s.cantonMds k).map (fun m => s.ue (fin16 m))
  let shs := ues.flatMap (fun u => u.shards.filter (fun x =>
    (match x.desc with | some d => !d.frozen | none => false) && x.j.state != 5))
  ues.all (fun u => u.landed.isEmpty) && shs.all (fun x => x.j.state == 0) &&
    (match shs with | [] => true | x :: l => l.all (fun y => y.j.istep == x.j.istep))

/-- Whether the outer round of a canton has ended (R394): every HOLDER entry IDLE, BEHIND or in FAULT. -/
def State.roundEnded (s : State) (k : Nat) : Bool :=
  (s.cantonMds k).all (fun m => (s.sxHolders (fin16 m)).all (fun e => e.state == 0 || e.state == 3 || e.state == 5))

/-- Whether the work of canton k's period has ended (R225); `running`: evaluation batches that have not finished. -/
def State.workEnded (s : State) (k : Fin 8) (running : List Nat) : Bool :=
  if s.cadKind k = 1 then s.stepPosted k
  else if s.cadKind k = 2 then s.roundEnded k
  else !s.cads[k].started.any (fun b => running.contains b)

/-- CAD_DONE (R43, R225, R229): firmware reports the end of the period's work; another kind's report is ignored, as is one
before the work has ended. -/
def execCadDone (k : Fin 8) (report : PeriodEnd) (s : State) : Out :=
  let c := s.cads[k]
  if s.cadRuns k = true ∧ report.kind.toNat = s.cadKind k ∧ c.ended = none ∧ s.workEnded k report.running = true then
    .next ((s.setCad k { c with ended := some (s.cadTimer k) }).cadTick k)
  else .next s

/-- The service cores of canton k interrupted. -/
def State.cantonIrq (s : State) (k : Nat) : State :=
  (s.cantonCds k).foldl (fun t d => t.setCd (fin40 d) { t.cd (fin40 d) with coreIrq := true }) s

/-- The deadline of the present period passes (R226-R229). The canton's service cores are interrupted once; work that has not
ended by then is late (0x5020); evaluation batches not started wait for the next window or are dropped (0x5024). -/
def State.cadPass (s : State) (k : Fin 8) (waiting : List Nat) : State :=
  let c := s.cads[k]
  let carry := s.flag (R.CAD_CTL k) F.CAD_CTL_ECARRY
  let left := waiting ++ c.carried.filter (fun b => !waiting.contains b)
  let eval := s.cadKind k == 3
  let late := match c.ended with | none => true | some e => decide (s.cadDeadline k < e)
  let t := ((s.setCad k { c with passed := true, carried := if eval then (if carry then left else []) else c.carried }).cantonIrq k).cadTick k
  let t :=
    if late then
      let t := t.put (R.CAD_STATUS k) F.CAD_STATUS_LATE 1
      let t := t.bump (R.CAD_COUNT k) F.CAD_COUNT_LATE 1
      t.raise 0x5020 (s.svcDie k) (some k) (s.svcDetail k 0 (s.cadKind k))
    else t
  if eval && !carry && !left.isEmpty then t.raise 0x5024 (s.svcDie k) (some k) (s.svcDetail k 0 left.length) else t

/-- CAD_DEADLINE (R226-R229): the timer reaches the deadline. `waiting`: evaluation batches not started. -/
def execCadDeadline (k : Fin 8) (waiting : List Nat) (s : State) : Out :=
  if s.cadRuns k = true ∧ s.cads[k].passed = false ∧ s.cadDeadline k ≤ s.cadTimer k then .next (s.cadPass k waiting) else .next s

/-- The kind of the period after the current one (R223): the outer round first, the evaluation window second. -/
def State.cadNext (s : State) (k : Fin 8) : Nat :=
  let n := s.cads[k].step + 1
  let due := fun (every : Nat) => every != 0 && n % every == 0
  let eval := due (s.get (R.CAD_EVERY k) F.CAD_EVERY_EVAL)
  if s.cadKind k = 1 then
    (if due (s.get (R.CAD_EVERY k) F.CAD_EVERY_ROUND) then 2 else if eval then 3 else 1)
  else if s.cadKind k = 2 then (if eval then 3 else 1)
  else 1

/-- CAD_PERIOD_START (R223, R224, R227): the next period begins at max(e, d), the deadline having passed. A debt above RESYNC step periods moves the
nominal grid (0x5022); a debt that has come back to 0 raises 0x5021. -/
def execCadPeriodStart (k : Fin 8) (s : State) : Out :=
  let c := s.cads[k]
  match c.ended with
  | none => .next s
  | some e =>
    let start := max e (s.cadDeadline k)
    if s.cadRuns k = false ∨ s.cadTimer k < start then .next s
    else
      let s := if c.passed then s else s.cadPass k []
      let c := s.cads[k]
      let kind := s.cadNext k
      let nom := c.nominal + s.cadPeriod k (s.cadKind k)
      let before := s.flag (R.CAD_STATUS k) F.CAD_STATUS_DEBT
      let resync := s.get (R.CAD_CTL k) F.CAD_CTL_RESYNC
      let move := resync ≠ 0 ∧ resync * s.cadPeriod k 1 < start - nom
      let t := if kind = 1 then s.setCad k { c with step := c.step + 1 } else s
      let t := (t.cadBegin k kind (if move then start else nom) start).cadTick k
      if move then
        .next ((t.bump (R.CAD_COUNT k) F.CAD_COUNT_RESYNCS 1).raise 0x5022 (s.svcDie k) (some k) (s.svcDetail k 0 (start - nom)))
      else if before = true ∧ start - nom = 0 then .next (t.raise 0x5021 (s.svcDie k) (some k) (s.svcDetail k 0 start))
      else .next t

/-- EVAL_BATCH_START (R226): an evaluation batch starts only while the timer is before the window's deadline. -/
def execEvalBatchStart (k : Fin 8) (batch : Nat) (s : State) : Out :=
  let c := s.cads[k]
  if s.cadRuns k = true ∧ s.cadKind k = 3 ∧ s.cadTimer k < s.cadDeadline k ∧ c.started.contains batch = false then
    .next (s.setCad k { c with started := c.started ++ [batch], carried := c.carried.filter (fun b => b != batch) })
  else .next s

end Sys2Proof.Machine
end

