-- ==== Sys2Proof/Machine/Reset.lean ====
section
/-! DEFINITION. What resets, the scrub and parking do to dies, cantons and keys (R15, R192, R331, R414, R436, R500-R505),
and the seeding of the generators (R65, R66). -/
namespace Sys2Proof.Machine

/-- The state a meaning answers. -/
def outState (o : Out) (s : State) : State :=
  match o with
  | .next t => t
  | _ => s

/-! ### Registers (R15, R504) -/

/-- The die of a register, in the DDIE numbering. -/
def regDie (a : Nat) : Option Nat :=
  match crsDie (a % 0x4000000) with
  | some (.cd, n, _) => some n
  | some (.md, n, _) => some (40 + n)
  | some (.ld, n, _) => some (56 + n)
  | some (.hd, _, _) => some 62
  | some (.td, _, _) => some 63
  | _ => none

/-- The registers that `hit` names return to their cold-reset values in the fields of the classes that `lose` names. -/
def State.resetRegs (s : State) (hit : Nat → Bool) (lose : Kept → Bool) : State :=
  { s with regs := s.regs.filterMap (fun p =>
      if hit p.1 then
        let m := regMask p.1 (fun f => lose f.kept)
        let x := (p.2 &&& ~~~m) ||| (regReset p.1 &&& m)
        if x = regReset p.1 then none else some (p.1, x)
      else some p) }

/-- Class N alone. -/
def loseN : Kept → Bool := fun k => k == .n
/-- Classes C and N. -/
def loseCN : Kept → Bool := fun k => k == .n || k == .c
/-- Classes W, C and N. -/
def loseWCN : Kept → Bool := fun k => k != .a

/-- Whether a register of a shared die belongs to canton k's view and is cleared by a CRST (R504, R505): CAD_*, mailbox,
outbound window, regions and rings of k; CL_*, GC_SEL, GC_CMD, GC_CMDSTAT and SP_* of the view. -/
def cantonView (k a : Nat) : Bool :=
  match crsDie (a % 0x4000000) with
  | some (.td, _, off) => decide (0x400 + 64 * k ≤ off) && decide (off < 0x440 + 64 * k)
  | some (.hd, _, off) =>
    (decide (0x1100 + 16 * k ≤ off) && decide (off < 0x1110 + 16 * k)) || (decide (0x1200 + 16 * k ≤ off) && decide (off < 0x1210 + 16 * k)) ||
      (decide (0x2000 + 256 * k ≤ off) && decide (off < 0x2100 + 256 * k)) || (decide (0x3000 + 256 * k ≤ off) && decide (off < 0x3100 + 256 * k)) ||
      (off == 0x4024 && a / 0x4000000 == 1 + k) ||
      ((off == 0x4028 || off == 0x402C) && decide (1 + 64 * k ≤ a / 0x4000000) && decide (a / 0x4000000 < 65 + 64 * k))
  | some (.ld, n, off) =>
    a / 0x4000000 == 1 + k && ((decide (0x4000 ≤ off) && decide (off < 0x4020)) || (n == 0 && decide (0x8000 ≤ off) && decide (off < 0x800C)))
  | _ => false

/-! ### Groups (R331) -/

/-- Contexts of the groups that `hit` names are cleared: slots and staging granules returned, the window at its
cold-reset values (R331, R505). -/
def State.clearContexts (s : State) (hit : Nat → Bool) : State :=
  (s.groups.filter (fun x => hit x.1)).foldl (fun t x =>
    let k := t.gCanton x.1
    let t := if t.flag (R.GC_SLOT x.1) F.GC_SLOT_GRANTED then t.claimSlots k x.1 false else t
    let t := if t.flag (R.GC_STATUS x.1) F.GC_STATUS_STAGED then t.returnGrans k x.1 else t
    let t := (t.dropGrp x.1).resetRegs (fun a =>
      match crsDie (a % 0x4000000) with
      | some (.ld, 0, off) => a / 0x4000000 == 1 + x.1 && decide (0x8010 ≤ off) && decide (off < 0x8080)
      | _ => false) loseN
    t.slotSync k) s

/-! ### Dies -/

/-- A compute die's units cleared and its stores zeroised (R192, R436): the sequencer's queues too where `queues`. An access
the die had begun to serve receives a bus error. -/
def State.zeroCd (s : State) (d : Fin 40) (queues : Bool) : State :=
  let c := s.cd d
  let s := { s with busErrs := s.busErrs ++ c.held.map (fun (h : HeldWrite) => (h.src, h.addr, 0)) }
  let t := s.setCd d { CDie.reset with unusable := c.unusable, queues := if queues then CDie.reset.queues else c.queues }
  (t.zeroRange (lsBase d) lsBytes).zeroRange (gasBase d) gasBytes

/-- A memory die's landing buffer, caches, poison table, update engine and exchange quantiser cleared; keys stay as
they are. -/
def State.zeroMd (s : State) (m : Fin 16) : State :=
  let e := (s.md m).eng
  let t := s.setMd m { eng := { Seal.reset with keys := e.keys, chans := e.chans, asleep := e.asleep }, ue := Ue.reset }
  let t := { t with exch := t.exch.set m Sx.reset }
  (t.zeroRange (landBase m) 0x800000).syncPoison m

/-- A reset that includes compute die d (R192, R504). -/
def State.resetCd (s : State) (d : Fin 40) : State :=
  (s.zeroCd d true).resetRegs (fun a => regDie a == some d.val) loseN

/-- A reset that includes memory die m: its DRAM content and keys are lost. -/
def State.resetMd (s : State) (m : Fin 16) : State :=
  let t := (s.zeroMd m).resetRegs (fun a => regDie a == some (40 + m.val)) loseN
  ((t.setEng m { t.eng m with keys := none }).wake m).newTree m

/-- A reset that includes link die l (R331, R504): its registers, its reduction memory, its arbiters; its port trains. -/
def State.resetLd (s : State) (l : Fin 6) : State :=
  let st := s.portState l
  let t := (s.zeroRange (redBase l) 0x400000).endSession l (if st = 0 then 0 else 3)
  let t := (t.clearContexts (fun _ => true)).resetRegs (fun a => regDie a == some (56 + l.val)) loseN
  let t := { t with arbs := t.arbs.filter (fun p => match p.1 with | .link x => x != l | .transit x _ => x != l | _ => true) }
  if st = 0 then t else (t.put (R.LK_STATUS l) F.LK_STATUS_STATE 1).startTraining l

/-- Host-path keys destroyed (R429, R501). -/
def State.dropHostKeys (s : State) (k : Nat) : State :=
  s.setCanton k { s.canton k with hostKeys := none, hostSeq := [], moved := (0, 0) }

/-- A reset that includes the host-interface die (R501, R504, R505): its registers, rings and ports; every host-path
key; the link is down until it trains. MSEQ counts since POR. -/
def State.resetHd (s : State) : State :=
  let t := (List.range 8).foldl (fun t k => t.dropHostKeys k) s
  let t := t.resetRegs (fun a => regDie a == some 62) loseN
  let t := { t with host := { HostState.reset with mseq := s.host.mseq }, sites := SiteEngine.reset }
  (t.setSec { t.sec with ideKeys := [] }).put R.SEC_STATUS F.SEC_STATUS_IDE 0

/-! ### Seeding (R65, R66) -/

/-- The first state of a generator: bits [63:0] of the hash, 1 for 0. -/
def genSeed (seed : List Byte) (die unit idx : Nat) : BitVec 64 :=
  let x := leNat ((sha512 (seed ++ leBytes 1 die ++ leBytes 1 unit ++ leBytes 2 idx)).take 8)
  BitVec.ofNat 64 (if x = 0 then 1 else x)

/-- SR_GENERATOR_SEED: every generator of a die seeded from a session seed. -/
def State.seedDie (s : State) (seed : List Byte) (die : Nat) : State :=
  let mark := fun (t : State) (b : Nat) =>
    (t.put (R.ARITH_SR_STATUS b) F.ARITH_SR_STATUS_SEEDED 1).bump (R.ARITH_SR_STATUS b) F.ARITH_SR_STATUS_SEED_COUNT 1
  if die < 40 then
    let d := fin40 die
    let c := s.cd d
    mark (s.setCd d { c with ve := { c.ve with gens := Vector.ofFn (fun i => genSeed seed die 1 i.val) } }) (cdBase die)
  else
    let m := fin16 (die - 40)
    let u := s.ue m
    mark (s.setUe m { u with gens := Vector.ofFn (fun i => genSeed seed die 2 i.val) }) (mdBase m)

/-- The dies of a canton that answer. -/
def State.liveDies (s : State) (k : Nat) : List Nat :=
  (s.cantonCds k ++ (s.cantonMds k).map (fun m => 40 + m)).filter (fun d => !s.deadDies.contains d)

/-- Every die of a canton seeded from its session seed. -/
def State.seedCanton (s : State) (k : Nat) : State := (s.liveDies k).foldl (fun t d => t.seedDie (t.canton k).seed d) s

/-- Work of a memory die that has waited for seeding goes on (R66): OPENALL, finished snapshots. What the update engine holds
back goes on at its next turn. -/
def State.releaseMd (s : State) (m : Fin 16) : State :=
  let t := s.put (R.UE_STATUS m) F.UE_STATUS_SRHOLD 0
  let t := if (t.sx m).openWaits then
      ((t.setSx m { t.sx m with openWaits := false }).put (R.SX_CMDSTAT m) F.SX_CMDSTAT_BUSY 0).openRound m
    else t
  (t.sx m).rebases.foldl (fun t r =>
    match (t.shard? m r.shard).bind (fun x => x.desc) with
    | some d => t.tryRebase m (t.sxEntry m r.shard) d
    | none => t) t

/-- SEED_WAIT_RELEASE (R66): a vector engine held for seeding executes the instruction at its head; a memory die's
hold is lifted. -/
def execSeedWaitRelease (die : Fin 64) (s : State) : Out :=
  if s.dieOff die then .next s
  else if die.val < 40 then
    if s.flag (R.ARITH_SR_STATUS (cdBase die)) F.ARITH_SR_STATUS_SEEDED && s.flag (R.VE_STATUS die) F.VE_STATUS_SRHOLD then
      .next ((s.put (R.VE_STATUS die) F.VE_STATUS_SRHOLD 0).veHead (fin40 die) [])
    else .next s
  else if die.val < 56 then
    if s.flag (R.ARITH_SR_STATUS (mdBase (die.val - 40))) F.ARITH_SR_STATUS_SEEDED then
      .next (s.releaseMd (fin16 (die.val - 40)))
    else .next s
  else .next s

/-! ### Keys of a canton (R414) -/

/-- Crypto-erase: every key of the canton and its release authorisations. -/
def State.eraseKeys (s : State) (k : Nat) : State :=
  let c := s.canton k
  let t := s.setCanton k { CantonSec.reset with scrubAt := c.scrubAt }
  let t := { t with
    keySlots := t.keySlots.filter (fun x => x.1 != k)
    releases := t.releases.filter (fun r => r.canton != k)
    pairSecrets := t.pairSecrets.filter (fun x => x.1 != k) }
  let t := t.setSec { t.sec with agreements := t.sec.agreements.filter (fun (a : Agreement) => a.purpose == 1 || a.canton != k) }
  (t.cantonMds k).foldl (fun t m =>
    (t.setEng (fin16 m) { t.eng (fin16 m) with keys := none }).put (R.SEAL_STATUS m) F.SEAL_STATUS_KEYS 0) t

/-- Fresh seal keys loaded into the canton's memory dies; their trees are to be initialised (R239, R263). -/
def State.freshKeys (s : State) (k : Nat) : State :=
  ((s.cantonMds k).filter (fun m => !s.deadDies.contains (40 + m))).foldl (fun t m =>
    let (e, t) := t.rand 32
    let (g, t) := t.rand 32
    let t := (t.setEng (fin16 m) { t.eng (fin16 m) with keys := some (e, g) }).wake (fin16 m)
    (t.put (R.SEAL_STATUS m) F.SEAL_STATUS_KEYS 1).put (R.SEAL_STATUS m) F.SEAL_STATUS_TREE 0) s

/-- Whether the trees of every memory die of a canton stand. -/
def State.treesUp (s : State) (k : Nat) : Bool :=
  (s.cantonMds k).all (fun m => s.deadDies.contains (40 + m) || s.flag (R.SEAL_STATUS m) F.SEAL_STATUS_TREE)

/-! ### The scrub (R436-R438) -/

/-- A ring descriptor of a canton is in progress. -/
def State.ringBusy (s : State) (k : Nat) : Bool := s.host.rings.any (fun r => r.1.1 == k && !r.2.isEmpty)

/-- Whether work of a canton still runs after its queues have been stopped: a queue that runs or waits, a unit command
that is not stopped, a DMA command, a ring descriptor, a group operation. -/
def State.busyCanton (s : State) (k : Nat) : Bool :=
  (s.cantonCds k).any (fun d =>
    let c := s.cd (fin40 d)
    [0, 1, 2, 3].any (fun (q : Fin 4) => let x := s.qState (fin40 d) q; x == 1 || x == 2 || x == 3) ||
      [0, 1, 2, 3, 4, 5, 6, 7].any (fun (u : Fin 8) => !(c.fifo u).isEmpty && !c.stopped[u]) || !c.dma.isEmpty) ||
    s.ringBusy k || s.groups.any (fun x => s.gCanton x.1 == k && !x.2.ops.isEmpty)

/-- Every program queue of a canton stopped, as STOP does (R191). -/
def State.stopQueues (s : State) (k : Nat) : State :=
  (s.cantonCds k).foldl (fun t d => [0, 1, 2, 3].foldl (fun t q => t.queueStop (fin40 d) q) t) s

/-- Every group of a canton aborted (R330). -/
def State.abortGroups (s : State) (k : Nat) : State :=
  (s.groups.filter (fun x => s.gCanton x.1 == k)).foldl (fun t x =>
    if x.2.ops.isEmpty then t
    else
      let t := (t.lagSync x.1).abortOps x.1 x.2.running
      ((t.put (R.GC_STATUS x.1) F.GC_STATUS_STATE 4).gEvent x.1 0x2234 (x.2.running.headD 0)).gUpdate x.1) s

/-- Step 1 of the scrub: queues stopped, groups aborted, update engines paused, frames of the canton's exchange stopped,
tenant images halted. -/
def State.quiesce (s : State) (k : Nat) : State :=
  let t := (s.stopQueues k).abortGroups k
  let t := (t.cantonMds k).foldl (fun t m => t.put (R.UE_CTL m) F.UE_CTL_PAUSE 1) t
  let t := { t with sites := { t.sites with queue := t.sites.queue.filter (fun (x : Nat × SxItem) => t.colCanton (x.1 % 8) != k) } }
  t.setCanton k { t.canton k with images := (t.canton k).images.map (fun i => { i with runs := false }) }

/-- STEP of a canton's scrub. -/
def State.setStep (s : State) (k n : Nat) : State := s.put (R.SCRUB_STATUS k) F.SCRUB_STATUS_STEP n

/-- A canton becomes SCRUBBING: PEND records it, and that the scrub is to overwrite where OVERWRITE is set (R438). -/
def State.scrubbing (s : State) (k : Nat) : State :=
  let s := if (s.get (R.CPOL_STATUS k) F.CPOL_STATUS_OPFLAGS).testBit 0 && !s.sec.owedErase.contains k then
      { s with sec := { s.sec with owedErase := k :: s.sec.owedErase } }
    else s
  ((s.put (R.CPOL_STATUS k) F.CPOL_STATUS_STATE 2).put (R.CPOL_STATUS k) F.CPOL_STATUS_CONSENT 0).put (R.SCRUB_STATUS k) F.SCRUB_STATUS_PEND 1

/-- Step 4 of the scrub: stores, registers, landing buffers, slots, caches, tables and journals zeroised. -/
def State.zeroCanton (s : State) (k : Nat) : State :=
  let t := s.clearContexts (fun g => s.gCanton g == k)
  let t := (t.cantonCds k).foldl (fun t d => (t.zeroCd (fin40 d) false).put (R.ARITH_SR_STATUS (cdBase d)) F.ARITH_SR_STATUS_SEEDED 0) t
  (t.cantonMds k).foldl (fun t m => (t.zeroMd (fin16 m)).put (R.ARITH_SR_STATUS (mdBase m)) F.ARITH_SR_STATUS_SEEDED 0) t

/-- Steps 3-5: keys erased, state zeroised, fresh keys loaded; the trees are being initialised. -/
def State.scrubErase (s : State) (k : Nat) : State :=
  let t := (((s.eraseKeys k).zeroCanton k).freshKeys k).scrubbing k
  { t.setStep k 5 with jobs := t.jobs.set (k % 8) 0 (Nat.mod_lt _ (by decide)) }

/-- A canton reset (R500, R504, R528): its dies and views; the containment bit cleared; the scrub of R436 with the reset
in place of step 1 where the canton is ASSIGNED or SCRUBBING; the plane of a FREE one is rekeyed at once. -/
def State.crst (s : State) (k : Nat) : State :=
  let st := s.polState k
  let t := s.clearContexts (fun g => s.gCanton g == k)
  let t := (t.cantonCds k).foldl (fun t d => t.resetCd (fin40 d)) t
  let t := (t.cantonMds k).foldl (fun t m => t.resetMd (fin16 m)) t
  let t := t.resetRegs (fun a => cantonView k a) loseN
  let t := { t with
    host := { t.host with rings := t.host.rings.filter (fun (r : (Nat × Nat) × List RingJob) => r.1.1 != k) }
    cads := t.cads.set (k % 8) Cadence.reset (Nat.mod_lt _ (by decide))
    tables := t.tables.set (k % 8) [] (Nat.mod_lt _ (by decide)) }
  let fatal := t.get R.CONT_STATUS F.CONT_STATUS_CFATAL
  let t := t.put R.CONT_STATUS F.CONT_STATUS_CFATAL (if fatal.testBit k then fatal - 2 ^ k else fatal)
  let t := { t with rel := { t.rel with containAt := t.rel.containAt.filter (fun (x : Nat × Nat) => x.1 != k) } }
  let parked := t.get R.PWR_STATUS F.PWR_STATUS_PARKED
  let t := t.put R.PWR_STATUS F.PWR_STATUS_PARKED (if parked.testBit k then parked - 2 ^ k else parked)
  if st = 0 then allPorts.foldl (fun t l => t.forceRekey l (fin8 k)) (t.eraseKeys k) else t.scrubErase k

end Sys2Proof.Machine
end

