-- ==== Sys2Proof/Machine/HostOps.lean ====
section
/-! DEFINITION. What security commands and the host-interface die share: MSI-X (R448), SEC_BUF (R441), checked reads and
writes of sealed memory (R28, R257). -/
namespace Sys2Proof.Machine

/-- The host-interface state replaced. -/
def State.setHost (s : State) (h : HostState) : State := { s with host := h }

/-- MSI-X vector v raised (R448): sent, or marked pending while masked. -/
def State.msix (s : State) (v : Nat) : State :=
  if s.host.masked.getLsbD v then s.setHost { s.host with waiting := s.host.waiting ||| BitVec.ofNat 64 (2 ^ v) }
  else s.setHost { s.host with irqs := s.host.irqs ++ [v] }

/-- Whether every block of a range of memory can be read: no poisoned line, no poisoned block (R180, R257). -/
def State.readable (s : State) (a n : Nat) : Bool :=
  match s.placeOf a with
  | .dram _ => (blockPieces (n / 256 + 2) a n).all (fun p =>
      match s.channelOf p.1 with
      | some (m, c, l) => (s.poisonHits (fin16 m) ⟨c % 2, Nat.mod_lt _ (by decide)⟩ l p.2).isEmpty
      | none => false)
  | .reserved => false
  | _ => !s.poisoned a n

/-- Whether a range lies whole in canton k's DRAM slice. -/
def State.inSlice (s : State) (k a n : Nat) : Bool := s.placeOf a == .dram k && s.placeOf (a + (n - 1)) == .dram k

/-- Host time in ns (R457): the last time written plus what REFCLK counted since; 0 if never written. -/
def State.hostNs (s : State) : Nat :=
  match s.host.time with
  | some (ns, t) => ns + (s.now - t) * 5 / 21
  | none => 0

/-- Whether a block stands in the list of unusable blocks (R520). Blocks beside those of R518 are numbered: 0x100 CXL
controller and 0x101 management port of the HD; 0x102 public-key or hash engine, 0x103 main domain of the TD; 0x104 any
other. -/
def State.blockLost (s : State) (die block : Nat) : Bool := s.rel.unusable.contains (die, block)

/-- Whether the dies have no power or no clock (R493, R495, R496, R503, R526, R538). -/
def State.dark (s : State) : Bool :=
  match s.pwr.mode with
  | .off => false
  | .starting => false
  | .running => false
  | _ => true

/-- Whether the host link can never train (R480). -/
def State.hostLost (s : State) : Bool := s.blockLost 62 0x100 || s.blockLost 62 0xF0 || s.blockLost 63 0x103

/-- Whether the management port serves nothing (R480). -/
def State.mgmtLost (s : State) : Bool := s.dark || s.blockLost 62 0x101 || s.blockLost 62 0xF0 || s.blockLost 63 0x103

/-- A pennant's addition by the host-interface die for canton k (R169), checked as an access of the canton (R28). -/
def State.hdmaPennant (s : State) (k a inc : Nat) : State := s.pennantTo (.hdma (fin8 k)) a inc

/-- Ticks of ten seconds. -/
def tenSeconds : Nat := 42000000000

end Sys2Proof.Machine
end

