-- ==== Sys2Proof/Machine/Shamir.lean ====
section
/-! DEFINITION. Shamir sharing over GF(2^8) (R425, R426). -/
namespace Sys2Proof.Machine

/-- Value of a polynomial, coefficients from the constant on. -/
def gfEval (x : Nat) : List Nat → Nat
  | [] => 0
  | c :: cs => c ^^^ gfMul x (gfEval x cs)

/-- The share at x of a key, bytewise; `coeffs` holds the random coefficient bytes of each degree from 1 on. -/
def shareAt (key : List Byte) (coeffs : List (List Byte)) (x : Nat) : List Byte :=
  key.zipIdx.map (fun b => BitVec.ofNat 8 (gfEval x (b.1.toNat :: coeffs.map (fun c => (c.getD b.2 0).toNat))))

/-- The weight of the share at x among the shares at xs, for the value at 0. -/
def lagrange (xs : List Nat) (x : Nat) : Nat :=
  xs.foldl (fun w y => if y = x then w else gfMul w (gfMul y (gfInv (x ^^^ y)))) 1

/-- The key that shares rebuild. -/
def rebuild (shares : List (Nat × List Byte)) : List Byte :=
  (List.range 32).map (fun i => BitVec.ofNat 8
    (shares.foldl (fun a s => a ^^^ gfMul (lagrange (shares.map (fun (p : Nat × List Byte) => p.1)) s.1) (s.2.getD i 0).toNat) 0))

end Sys2Proof.Machine
end

