-- ==== Sys2Proof/Machine/Security.lean ====
section
/-! DEFINITION. Security commands, key agreement, consent, the scrub and the test port (R414-R441). -/
namespace Sys2Proof.Machine

/-! ### SEC_OWN and the frame of a command (R441) -/

/-- SEC_OWN_WRITE (R441): a write of the own view or 0xF takes effect where the buffer is free or the writer's; a
release zeroises SEC_BUF. -/
def execSecOwnWrite (v : View) (x : W32) (s : State) : Out :=
  let me := s.viewNo v
  let own := s.get R.SEC_OWN F.SEC_OWN_VIEW
  let new := fldOf x F.SEC_OWN_VIEW
  if (new = me ∨ new = 15) ∧ (own = 15 ∨ own = me) then
    let t := s.put R.SEC_OWN F.SEC_OWN_VIEW new
    .next (if new = 15 then t.setSec { t.sec with buf := [] } else t)
  else .next s

/-- The interrupt that ends a command: MSI-X vector 10 for the host view (R448), the canton's service cores (R460). -/
def State.secIrq (s : State) (v : View) : State := if s.viewNo v = 8 then s.msix 10 else s.cantonIrq (s.viewNo v)

/-- A command completed. -/
def State.secDone (s : State) (v : View) : State := (s.put R.SEC_CMDSTAT F.SEC_CMDSTAT_DONE 1).secIrq v

/-- A command refused with a code: 1 signature, 2 state, 3 format, 4 capacity, 5 not owner. -/
def State.secRefuse (s : State) (v : View) (code : Nat) : State :=
  ((s.put R.SEC_CMDSTAT F.SEC_CMDSTAT_REFUSED 1).put R.SEC_CMDSTAT F.SEC_CMDSTAT_CODE code).secIrq v

/-- The frame of every SEC_CMD: ignored while one runs; refused in the recovery profile (R479), from a view that does
not own SEC_BUF or may not name the canton; else `f` answers the state and a refusal code, 0 for done. -/
def State.secCmd (s : State) (v : View) (k : Nat) (f : State × Nat) : State :=
  if s.flag R.SEC_CMDSTAT F.SEC_CMDSTAT_BUSY then s
  else if s.recovery then s.secRefuse v 2
  else if s.get R.SEC_OWN F.SEC_OWN_VIEW ≠ s.viewNo v then s.secRefuse v 5
  else if (s.viewNo v ≠ 8 ∧ s.viewNo v ≠ k) ∨ s.cantons ≤ k then s.secRefuse v 2
  else if f.2 = 0 then f.1.secDone v else f.1.secRefuse v f.2

/-- A trust-die event of a canton (R440). -/
def State.secEvent (s : State) (code k : Nat) : State := s.raise code 63 (some k) (detail 0 0 0)

/-- A signature that fails: code 1 and alarm 0x0467. -/
def State.badSig (s : State) (k : Nat) : State × Nat := (s.secEvent 0x0467 k, 1)

/-- A party of a canton's manifest. -/
def CantonSec.party? (c : CantonSec) (id : Nat) : Option Party :=
  match c.manifest with
  | some m => m.parties.find? (fun p => p.id == id)
  | none => none

/-- Parties of a canton's manifest. -/
def CantonSec.parties (c : CantonSec) : List Party := match c.manifest with | some m => m.parties | none => []

/-- Every change of a canton's policy raises SEQ, voids older consent records and raises 0x0060 (R421, R432, R440). -/
def State.policyChanged (s : State) (k : Nat) : State :=
  let t := s.bumpWrap (R.CPOL_SEQ k) F.CPOL_SEQ_SEQ 1
  (t.setCanton k { t.canton k with consents := [] }).secEvent 0x0060 k

/-! ### ASSIGN (R419-R421) -/

/-- Bytes of a party's entry in a manifest: ID (1 B, 3 reserved), modulus, P-384 and ML-KEM keys (R420). -/
def partyBytes : Nat := 2181

/-- A party's entry. -/
def parseParty (b : List Byte) : Party := ⟨fieldAt b 0 1, (b.drop 4).take 512, (b.drop 516).take 97, (b.drop 613).take 1568⟩

/-- A job manifest at the start of a byte string, with its job, its bytes before the signatures, and the signatures. The
header is read as VERSION (2 B), NPARTY, RESUME_K (1 B each), JOB (4 B), RELEASE_K, a reserved byte, image count (2 B). -/
def parseManifest (b : List Byte) : Manifest × Nat × List Byte × List (List Byte) × Nat :=
  let n := fieldAt b 2 1
  let imgs := fieldAt b 10 2
  let size := 32 + n * partyBytes + 512 + 64 * imgs
  let parties := (List.range n).map (fun i => parseParty (b.drop (32 + i * partyBytes)))
  let agent := (b.drop (32 + n * partyBytes)).take 512
  let images := (List.range imgs).map (fun i => (b.drop (32 + n * partyBytes + 512 + 64 * i)).take 64)
  let sigs := (List.range n).map (fun i => (b.drop (size + 512 * i)).take 512)
  let total := size + 512 * n
  (⟨parties, fieldAt b 3 1, fieldAt b 8 1, agent, images, sha512 (b.take total)⟩, fieldAt b 4 4, b.take size, sigs, total)

/-- Whether every party has signed a manifest (R420). -/
def manifestSigned (m : Manifest) (body : List Byte) (sigs : List (List Byte)) : Bool :=
  (m.parties.zip sigs).all (fun p => pssOk p.1.modulus "JV-MAN" body p.2)

/-- ASSIGN's checks and effect. SEC_BUF holds the assignment (canton, OPFLAGS, 2 reserved bytes, JOB, operator signature),
the manifest and the policy record. -/
def State.assign (s : State) (k : Nat) : State × Nat :=
  let a := s.buf 0 520
  let b := s.buf 520 (0x40000 - 520)
  let (m, job, body, sigs, total) := parseManifest b
  let pol := (b.drop total).take 256
  let flags := fieldAt a 1 1
  if (s.get R.CONT_STATUS F.CONT_STATUS_UNUSABLE).testBit k then (s.raise 0x0387 63 (some k) (leBytes 12 0), 2)
  else if s.polState k ≠ 0 ∨ s.flag (R.SCRUB_STATUS k) F.SCRUB_STATUS_PEND = true then (s, 2)
  else if fieldAt a 0 1 ≠ k ∨ 3 < flags ∨ fieldAt a 2 2 ≠ 0 ∨ m.parties.length < 1 ∨ 32 < m.parties.length ∨ m.resumeK < 1 ∨
      m.parties.length < m.resumeK ∨ m.releaseK < 1 ∨ m.parties.length < m.releaseK ∨ fieldAt a 4 4 ≠ job ∨ fieldAt pol 0 2 ≠ 1 ∨
      fieldAt pol 2 1 ≠ k ∨ fieldAt pol 3 1 ≠ flags ∨ fieldAt pol 4 4 ≠ job ∨ fieldAt pol 12 1 ≠ m.parties.length ∨
      fieldAt pol 13 1 ≠ m.resumeK ∨ fieldAt pol 14 1 ≠ m.releaseK ∨ fieldAt pol 15 1 ≠ 0 ∨ zeroAt pol 80 176 = false then (s, 3)
  else if !(s.operatorSigned "JV-ASG" (a.take 8) ((a.drop 8).take 512) && manifestSigned m body sigs && (pol.drop 16).take 64 == m.digest) then
    s.badSig k
  else
    let (seed, t) := s.rand 8
    let (eph, t) := t.rand 112
    let t := t.setCanton k { CantonSec.reset with manifest := some m, seed := seed, ephemeral := eph }
    let t := { t with jobs := t.jobs.set (k % 8) job (Nat.mod_lt _ (by decide)) }
    let t := (t.freshKeys k).seedCanton k
    let t := ((t.put (R.CPOL_STATUS k) F.CPOL_STATUS_STATE 1).put (R.CPOL_STATUS k) F.CPOL_STATUS_OPFLAGS flags).put (R.CPOL_STATUS k)
      F.CPOL_STATUS_CONSENT 0
    ((t.policyChanged k).workConserve, 0)

/-- SEC_ASSIGN (R419): a FREE canton to ASSIGNED. -/
def execSecAssign (v : View) (k : Fin 8) (s : State) : Out := .next (s.secCmd v k (s.assign k))

/-! ### Key agreement (R415-R417) -/

/-- ID of a party in a key agreement. -/
def partyId (p : Nat) : Nat := 0x80000000 + p

/-- Whether the state admits a purpose: 1 while a port trains, 2-4 for an ASSIGNED canton (R417). -/
def State.admitsKa (s : State) (purpose k : Nat) : Bool :=
  if purpose = 1 then allPorts.any (fun l => s.portState l == 1)
  else decide (2 ≤ purpose) && decide (purpose ≤ 4) && decide (k < s.cantons) && s.polState k == 1

/-- Whether an ID may stand at the other end of a purpose. -/
def idFits (purpose id : Nat) : Bool :=
  if purpose = 3 then id == 0xFFFFFFFF
  else if purpose = 4 then decide (0x80000000 ≤ id) && decide (id < 0x80000100)
  else decide (id < 2 ^ 17)

/-- Whether a signature of the other end verifies: a module's through its ensign, a party's or the host agent's by the
manifest (R416). -/
def State.peerSigned (s : State) (k id : Nat) (lab : String) (data sig : List Byte) : Bool :=
  let c := s.canton k
  if id = 0xFFFFFFFF then (match c.manifest with | some m => pssOk m.agent lab data sig | none => false)
  else if 0x80000000 ≤ id then (match c.party? (id - 0x80000000) with | some p => pssOk p.modulus lab data sig | none => false)
  else Config.verify "ENSIGN" (leBytes 4 id ++ sha512 (label lab ++ data) ++ sig)

/-- Alarm 0x0468 of a key agreement that fails (R416). -/
def State.kaAlarm (s : State) (purpose k : Nat) : State :=
  s.raise 0x0468 63 (if purpose = 1 then none else some k) (detail 0 0 0)

/-- T of R416. -/
def kaHash (ka1 ka2 : List Byte) : List Byte := sha512 (ka1 ++ ka2.take 1765)

/-- The secret of R416. -/
def kaSecret (ka1 ka2 z k : List Byte) : List Byte :=
  hmac ((ka1.drop 12).take 32 ++ (ka2.drop 4).take 32) (label "JV-HYB-1" ++ z ++ k ++ kaHash ka1 ka2)

/-- What a secret becomes (R417, R423, R429). -/
def State.useSecret (s : State) (purpose k peer : Nat) (sec : List Byte) : State :=
  let c := s.canton k
  if purpose = 1 then s.setSec { s.sec with linkSecrets := (peer, sec) :: s.sec.linkSecrets.filter (fun (x : Nat × List Byte) => x.1 != peer) }
  else if purpose = 2 then { s with pairSecrets := (k, peer, sec) :: s.pairSecrets.filter (fun x => !(x.1 == k && x.2.1 == peer)) }
  else if purpose = 3 then
    s.setCanton k { c with hostKeys := some ((hmac sec (label "JV-HP" ++ [0])).take 32, (hmac sec (label "JV-HP" ++ [1])).take 32),
                           hostSeq := [], moved := (0, 0) }
  else
    let p := peer - 0x80000000
    s.setCanton k { c with wraps := (p, (hmac sec (label "JV-WRAP" ++ leBytes 1 p)).take 32) :: c.wraps.filter (fun (x : Nat × List Byte) => x.1 != p) }

/-- KA1 made by this module as initiator; the message stands in the answer. -/
def State.kaStart (s : State) (purpose k : Nat) : State × List Byte :=
  let (n, t) := s.rand 32
  let (priv, t) := t.rand 112
  let ka1 := leBytes 1 1 ++ leBytes 1 purpose ++ leBytes 1 k ++ [0] ++ leBytes 4 (s.jobs.getD k 0) ++ leBytes 4 s.moduleId ++ n ++
    fit 97 (Config.crypto "P384-PUBLIC" priv) ++ fit 1568 (Config.crypto "ML-KEM-EK" priv)
  (t.setSec { t.sec with agreements := t.sec.agreements ++ [⟨purpose, k, true, priv, ka1, [], t.now⟩] }, ka1)

/-- A responder receives KA1: it answers with a signed KA2; a malformed KA1 raises the alarm (R416), a purpose that the
canton's state does not admit is refused (R417). -/
def State.kaOne (s : State) (ka1 : List Byte) : State × Option (List Byte) :=
  let purpose := fieldAt ka1 1 1
  let k := fieldAt ka1 2 1
  if ka1.length ≠ 1709 ∨ fieldAt ka1 0 1 ≠ 1 ∨ fieldAt ka1 3 1 ≠ 0 ∨ idFits purpose (fieldAt ka1 8 4) = false ∨
      (purpose ≠ 1 ∧ fieldAt ka1 4 4 ≠ s.jobs.getD k 0) then (s.kaAlarm purpose k, none)
  else if s.admitsKa purpose k = false then (s, none)
  else
    let (n, t) := s.rand 32
    let (priv, t) := t.rand 112
    let ek := (ka1.drop 141).take 1568
    let head := leBytes 4 t.moduleId ++ n ++ fit 97 (Config.crypto "P384-PUBLIC" priv) ++ fit 1568 (Config.crypto "ML-KEM-CT" (ek ++ priv)) ++ t.measureDigest
    let ka2 := head ++ t.sign "JV-KA-R" (kaHash ka1 head)
    (t.setSec { t.sec with agreements := t.sec.agreements ++ [⟨purpose, k, false, priv, ka1, ka2, t.now⟩] }, some ka2)

/-- An exchange taken away, all its values discarded. -/
def State.dropKa (s : State) (i : Nat) : State := s.setSec { s.sec with agreements := s.sec.agreements.eraseIdx i }

/-- Whether RD of a KA2 is as it must be: 64 zero bytes where the responder is a party (R415). -/
def rdFits (ka2 : List Byte) : Bool := !(decide (0x80000000 ≤ fieldAt ka2 0 4) && decide (fieldAt ka2 0 4 < 0x80000100)) || zeroAt ka2 1701 64

/-- An initiator receives KA2 in exchange i: it verifies S_r, derives the secret and answers with KA3. -/
def State.kaTwo (s : State) (i : Nat) (ka2 : List Byte) : State × Option (List Byte) :=
  match s.sec.agreements[i]? with
  | none => (s, none)
  | some a =>
    let id := fieldAt ka2 0 4
    let t := s.dropKa i
    let h := kaHash a.ka1 ka2
    let sr := (ka2.drop 1765).take 512
    if a.initiator = false then (s, none)
    else if ka2.length ≠ 2277 ∨ idFits a.purpose id = false ∨ rdFits ka2 = false ∨ a.at_ + tenSeconds < s.now ∨ s.peerSigned a.canton id "JV-KA-R" h sr = false then
      (t.kaAlarm a.purpose a.canton, none)
    else
      let z := fit 48 (Config.crypto "P384-ECDH" (a.secret ++ (ka2.drop 36).take 97))
      let k := fit 32 (Config.crypto "ML-KEM-DECAPS" (a.secret ++ (ka2.drop 133).take 1568))
      (t.useSecret a.purpose a.canton id (kaSecret a.ka1 ka2 z k), some (t.sign "JV-KA-I" (h ++ sr)))

/-- A responder receives KA3 in exchange i: it verifies S_i and derives the secret. -/
def State.kaThree (s : State) (i : Nat) (ka3 : List Byte) : State × Bool :=
  match s.sec.agreements[i]? with
  | none => (s, false)
  | some a =>
    let id := fieldAt a.ka1 8 4
    let t := s.dropKa i
    let h := kaHash a.ka1 a.ka2
    if a.initiator = true then (s, false)
    else if ka3.length ≠ 512 ∨ a.at_ + tenSeconds < s.now ∨
        s.peerSigned a.canton id "JV-KA-I" (h ++ (a.ka2.drop 1765).take 512) ka3 = false then (t.kaAlarm a.purpose a.canton, false)
    else
      let z := fit 48 (Config.crypto "P384-ECDH" (a.secret ++ (a.ka1.drop 44).take 97))
      let k := fit 32 (Config.crypto "ML-KEM-K" ((a.ka1.drop 141).take 1568 ++ a.secret))
      (t.useSecret a.purpose a.canton id (kaSecret a.ka1 a.ka2 z k), true)

/-- What the other end is sent: a message, or nothing. -/
def State.answerMsg (s : State) (m : Option (List Byte)) : State :=
  match m with
  | some b => { s with resp := .data b }
  | none => { s with resp := .none }

/-- KA1 (R415): a responder answers with KA2. -/
def execKa1 (msg : List Byte) (s : State) : Out := .next ((s.kaOne msg).1.answerMsg (s.kaOne msg).2)

/-- KA2 (R416): the initiator of exchange i verifies and answers with KA3. -/
def execKa2 (i : Nat) (msg : List Byte) (s : State) : Out := .next ((s.kaTwo i msg).1.answerMsg (s.kaTwo i msg).2)

/-- KA3 (R416): the responder of exchange i verifies and derives the secret. -/
def execKa3 (i : Nat) (msg : List Byte) (s : State) : Out := .next ((s.kaThree i msg).1.answerMsg none)

/-- The oldest exchange of a canton in a role. -/
def State.kaOf (s : State) (k : Nat) (initiator : Bool) : Option Nat :=
  s.sec.agreements.findIdx? (fun (a : Agreement) => a.canton == k && a.initiator == initiator && a.purpose != 1)

/-- KAGREE's effect: the message stands in SEC_BUF, the answer replaces it. -/
def State.kagree (s : State) (k : Nat) (step : KaStep) : State × Nat :=
  match step with
  | .start p =>
    if s.admitsKa p k = false ∨ p.val = 1 then (s, 2)
    else
      let r := s.kaStart p k
      (r.1.bufPut 0 r.2, 0)
  | .one =>
    let msg := s.buf 0 1709
    if fieldAt msg 2 1 ≠ k ∨ s.admitsKa (fieldAt msg 1 1) k = false then (s, 2)
    else match s.kaOne msg with
      | (t, some b) => (t.bufPut 0 b, 0)
      | (t, none) => (t, 3)
  | .two =>
    match s.kaOf k true with
    | none => (s, 2)
    | some i =>
      match s.kaTwo i (s.buf 0 2277) with
      | (t, some b) => (t.bufPut 0 b, 0)
      | (t, none) => (t, 1)
  | .three =>
    match s.kaOf k false with
    | none => (s, 2)
    | some i =>
      match s.kaThree i (s.buf 0 512) with
      | (t, true) => (t, 0)
      | (t, false) => (t, 1)

/-- SEC_KAGREE (R415): one message of a key agreement through SEC_BUF. -/
def execSecKagree (v : View) (k : Fin 8) (step : KaStep) (s : State) : Out := .next (s.secCmd v k (s.kagree k step))

/-- KA_TIMEOUT (R416): an exchange without its next message within 10 s is discarded with 0x0468. -/
def execKaTimeout (i : Nat) (s : State) : Out :=
  match s.sec.agreements[i]? with
  | none => .next s
  | some a => if s.now < a.at_ + tenSeconds then .next s else .next ((s.dropKa i).kaAlarm a.purpose a.canton)

/-! ### Party data (R423, R424) -/

/-- One entry of DATAKEY unwrapped: KEYID and key. -/
def unwrapKey (w e : List Byte) : Option (Nat × List Byte) :=
  (gcmOpen w (e.take 4 ++ List.replicate 8 0) [] ((e.drop 4).take 48)).map (fun key => (fieldAt e 0 4, key))

/-- DATAKEY's effect. SEC_BUF holds the party (1 B), the number of entries (1 B), 2 reserved bytes, the entries. -/
def State.dataKey (s : State) (k : Nat) : State × Nat :=
  let c := s.canton k
  let p := fieldAt (s.buf 0 4) 0 1
  let n := fieldAt (s.buf 0 4) 1 1
  if s.polState k ≠ 1 then (s, 2)
  else match c.wraps.find? (fun (x : Nat × List Byte) => x.1 == p) with
    | none => (s, 2)
    | some (_, w) =>
      let got := (List.range n).map (fun i => unwrapKey w (s.buf (4 + 52 * i) 52))
      let keys := got.filterMap (fun (x : Option (Nat × List Byte)) => x)
      if keys.length ≠ n then (s, 1)
      else if keys.any (fun x => c.dataKeys.any (fun (y : DataKey) => y.keyId == x.1 && y.party != p)) then (s, 2)
      else
        let rest := c.dataKeys.filter (fun (y : DataKey) => !keys.any (fun x => x.1 == y.keyId))
        let all : List DataKey := rest ++ keys.map (fun x => (⟨p, x.1, x.2⟩ : DataKey))
        if 8 < (all.filter (fun (y : DataKey) => y.party == p)).length ∨ 64 < all.length then (s, 4)
        else (s.setCanton k { c with dataKeys := all }, 0)

/-- SEC_DATAKEY (R423): a party's data keys into key slots bound to it. -/
def execSecDatakey (v : View) (k : Fin 8) (s : State) : Out := .next (s.secCmd v k (s.dataKey k))

/-- DATAKEY_WITHDRAW (R423): a party's signed withdrawal destroys its key slot at once. -/
def execDatakeyWithdraw (k : Fin 8) (keyId : BitVec 32) (sig : List Byte) (s : State) : Out :=
  let c := s.canton k
  match c.dataKeys.find? (fun (y : DataKey) => y.keyId == keyId.toNat) with
  | none => .next s
  | some d =>
    match c.party? d.party with
    | none => .next s
    | some p =>
      if pssOk p.modulus "JV-WDR" (leBytes 4 (s.jobs.getD k 0) ++ leBytes 4 keyId.toNat) sig then
        .next (s.setCanton k { c with dataKeys := c.dataKeys.filter (fun (y : DataKey) => y.keyId != keyId.toNat) })
      else .next (s.badSig k).1

/-- PARTY_RECORD_DECRYPT (R424): a party record in sealed DRAM is decrypted into sealed DRAM with the slot its KEYID
names, if PARTY is that slot's party; the party stands in the answer. A tag that fails raises 0x146A. -/
def execPartyRecordDecrypt (k : Fin 8) (src dst : Nat) (s : State) : Out :=
  let h := s.bytes src 32
  let len := fieldAt h 16 4
  let refused := { s with resp := .busError }
  if s.polState k ≠ 1 ∨ s.inSlice k src 32 = false ∨ s.readable src 32 = false then .next refused
  else match (s.canton k).dataKeys.find? (fun (y : DataKey) => y.keyId == fieldAt h 4 4) with
    | none => .next refused
    | some d =>
      if d.party ≠ fieldAt h 0 1 ∨ len < 1 ∨ 16777216 < len ∨ s.inSlice k src (48 + len) = false ∨ s.inSlice k dst len = false ∨
          s.readable src (48 + len) = false then .next refused
      else match gcmOpen d.key ((h.drop 4).take 12) h (s.bytes (src + 32) (len + 16)) with
        | none => .next (refused.raise 0x146A 62 (some k.val) (detail 0 k 0))
        | some plain => .next { s.mpaWrite 62 dst plain with resp := .code d.party }

/-! ### Checkpoint and release keys (R425-R428) -/

/-- A key loaded into a KEYSLOT of every update engine of a canton. -/
def State.loadSlot (s : State) (k slot : Nat) (key : List Byte) : State :=
  { s with keySlots := (k, slot, key) :: s.keySlots.filter (fun x => !(x.1 == k && x.2.1 == slot)) }

/-- A share entry of R425: a 32-byte text wrapped to a P-384 and an ML-KEM key, with a label context and the header. -/
def wrapEntry (rnd p384 mlkem ctx header text : List Byte) : List Byte :=
  let z := fit 48 (Config.crypto "P384-ECDH" (rnd ++ p384))
  let key := fit 32 (Config.crypto "ML-KEM-K" (mlkem ++ rnd))
  let w := (hmac key (label "JV-CKW" ++ z ++ ctx)).take 32
  fit 97 (Config.crypto "P384-PUBLIC" rnd) ++ fit 1568 (Config.crypto "ML-KEM-CT" (mlkem ++ rnd)) ++
    gcmSeal w (List.replicate 12 0) header text

/-- The header of an envelope (96 bytes): VERSION (2 B), RESUME_K, NSHARE, JOB, CKPT (8 B), inner step (4 B), OWNER (1 B),
11 reserved bytes, KCV (16 B), reserved (R425). -/
def envelopeHeader (resumeK nshare job ckpt step owner : Nat) (kcv : List Byte) : List Byte :=
  fit 96 (leBytes 2 1 ++ leBytes 1 resumeK ++ leBytes 1 nshare ++ leBytes 4 job ++ leBytes 8 ckpt ++ leBytes 4 step ++ leBytes 1 owner ++
    List.replicate 11 0 ++ kcv)

/-- The key check value (R425). -/
def kcvOf (key : List Byte) : List Byte := (hmac key (label "JV-KCV")).take 16

/-- Random bytes drawn several times, 32 each. -/
def State.rands (s : State) (len : Nat) : Nat → List (List Byte) × State
  | 0 => ([], s)
  | n + 1 =>
    let (b, t) := s.rand len
    let r := State.rands t len n
    (b :: r.1, r.2)

/-- CKPT's effect (R425). SEC_BUF holds OWNER (1 B), 3 reserved bytes, the inner step (4 B). -/
def State.ckpt (s : State) (k slot : Nat) : State × Nat :=
  let c := s.canton k
  let owner := fieldAt (s.buf 0 8) 0 1
  let step := fieldAt (s.buf 0 8) 4 4
  let parties := if owner = 0xFF then c.parties else c.parties.filter (fun p => p.id == owner)
  match s.polState k, c.manifest with
  | 1, some m =>
    if parties.isEmpty then (s, 3)
    else
      let (key, t) := s.rand 32
      let (id, t) := t.rand 8
      let (coeffs, t) := t.rands 32 (if owner = 0xFF then m.resumeK - 1 else 0)
      let (rnds, t) := t.rands 112 parties.length
      let header := envelopeHeader m.resumeK parties.length (s.jobs.getD k 0) (leNat id) step owner (kcvOf key)
      let entries := (parties.zip rnds).flatMap (fun p =>
        wrapEntry p.2 p.1.p384 p.1.mlkem (id ++ leBytes 1 p.1.id) header (if owner = 0xFF then shareAt key coeffs (p.1.id + 1) else key))
      let env := header ++ entries
      ((t.loadSlot k slot key).bufPut 0 (env ++ t.sign "JV-CKE" env), 0)
  | _, _ => (s, 2)

/-- SEC_CKPT (R425): a checkpoint key into the update engines, its envelope into SEC_BUF. -/
def execSecCkpt (v : View) (k : Fin 8) (slot : Fin 16) (s : State) : Out := .next (s.secCmd v k (s.ckpt k slot))

/-- RESUME's effect (R426): the envelope in SEC_BUF gathers shares for a KEYSLOT. -/
def State.resume (s : State) (k slot : Nat) : State × Nat :=
  let h := s.buf 0 96
  let n := fieldAt h 3 1
  let size := 96 + 1713 * n
  let env := s.buf 0 size
  let owner := fieldAt h 20 1
  let c := s.canton k
  if s.polState k ≠ 1 ∨ fieldAt h 4 4 ≠ s.jobs.getD k 0 then (s, 2)
  else if fieldAt h 0 2 ≠ 1 ∨ n = 0 ∨ fieldAt h 2 1 = 0 ∨ zeroAt h 21 11 = false ∨ zeroAt h 48 48 = false then (s, 3)
  else if Config.verify "ENSIGN" (sha512 (label "JV-CKE" ++ env) ++ s.buf size 512) = false then s.badSig k
  else
    let g : Gather := ⟨slot, fieldAt h 8 8, owner, if owner = 0xFF then fieldAt h 2 1 else 1, (h.drop 32).take 16, []⟩
    (s.setCanton k { c with gathers := g :: c.gathers.filter (fun (x : Gather) => x.slot != slot) }, 0)

/-- SEC_RESUME (R426). -/
def execSecResume (v : View) (k : Fin 8) (slot : Fin 16) (s : State) : Out := .next (s.secCmd v k (s.resume k slot))

/-- SHARE's effect (R426). SEC_BUF holds CKPT (8 B), the party (1 B), 3 reserved bytes, the sealed share (48 B). -/
def State.share (s : State) (k : Nat) : State × Nat :=
  let b := s.buf 0 60
  let ckpt := fieldAt b 0 8
  let p := fieldAt b 8 1
  let c := s.canton k
  match c.gathers.find? (fun (g : Gather) => g.ckpt == ckpt), c.wraps.find? (fun (x : Nat × List Byte) => x.1 == p) with
  | some g, some (_, w) =>
    if s.polState k ≠ 1 ∨ (g.owner ≠ 0xFF ∧ g.owner ≠ p) then (s, 2)
    else match gcmOpen w (b.take 8 ++ [0, 0, 0, 0]) [] ((b.drop 12).take 48) with
      | none => (s, 1)
      | some share =>
        let shares := g.shares.filter (fun (x : Nat × List Byte) => x.1 != p + 1) ++ [(p + 1, share)]
        let rest := c.gathers.filter (fun (x : Gather) => x.slot != g.slot)
        if shares.length < g.need then (s.setCanton k { c with gathers := { g with shares := shares } :: rest }, 0)
        else
          let key := if g.owner = 0xFF then rebuild shares else share
          if kcvOf key = g.kcv then
            (((s.setCanton k { c with gathers := rest }).loadSlot k g.slot key).secEvent 0x0065 k, 0)
          else ((s.setCanton k { c with gathers := { g with shares := [] } :: rest }).secEvent 0x046A k, 0)
  | _, _ => (s, 2)

/-- SEC_SHARE (R426): one party's share; at the threshold the key is rebuilt and checked. -/
def execSecShare (v : View) (k : Fin 8) (s : State) : Out := .next (s.secCmd v k (s.share k))

/-- Range i of a release request: first tensor, OWNER, last tensor. -/
def releaseRange (b : List Byte) (i : Nat) : Nat × Nat × Nat :=
  (fieldAt b (96 + 8 * i) 3, fieldAt b (99 + 8 * i) 1, fieldAt b (100 + 8 * i) 3)

/-- Signers of a release request whose signatures verify: `n` entries of 516 bytes from offset `size`, distinct parties. -/
def State.releaseSigners (s : State) (k size : Nat) (b : List Byte) : List Nat :=
  (s.canton k).parties.filterMap (fun p =>
    if ((List.range 32).any (fun i =>
      let e := s.buf (size + 516 * i) 516
      fieldAt e 0 1 == p.id && zeroAt e 1 3 && pssOk p.modulus "JV-REL" b ((e.drop 4).take 512))) then some p.id else none)

/-- RELEASE's effect (R427, R428). -/
def State.release (s : State) (k slot : Nat) : State × Nat :=
  let h := s.buf 0 96
  let n := fieldAt h 2 2
  let size := 96 + 8 * n + 97 + 1568
  let b := s.buf 0 size
  let keys := (b.drop (96 + 8 * n)).take 1665
  let ranges := (List.range n).map (releaseRange b)
  let c := s.canton k
  match s.polState k, c.manifest with
  | 1, some m =>
    if fieldAt h 4 4 ≠ s.jobs.getD k 0 ∨ c.reqIds.contains (fieldAt h 8 8) then (s, 2)
    else if fieldAt h 0 2 ≠ 1 ∨ n < 1 ∨ 64 < n ∨ zeroAt h 88 8 = false ∨ (List.range n).any (fun i => !zeroAt b (103 + 8 * i) 1) then (s, 3)
    else if 4 ≤ (s.releases.filter (fun r => r.canton == k)).length then (s, 4)
    else
      let signed := s.releaseSigners k size b
      if signed.length < m.releaseK ∨ ranges.any (fun r => r.2.1 != 0xFF && !signed.contains r.2.1) = true ∨ sha512 keys ≠ (h.drop 24).take 64 then
        s.badSig k
      else
        let (key, t) := s.rand 32
        let (rnd, t) := t.rand 112
        let out := wrapEntry rnd (keys.take 97) (keys.drop 97) ((h.drop 8).take 8) h key
        let t := (t.loadSlot k slot key).bufPut 0 (out ++ t.sign "JV-RLE" out)
        let t := t.setCanton k { t.canton k with reqIds := fieldAt h 8 8 :: c.reqIds }
        let r : Release := ⟨k, s.jobs.getD k 0, slot, fieldAt h 16 4, fieldAt h 20 4, ranges.map (fun r => (r.1, r.2.2))⟩
        ({ t with releases := r :: t.releases }.secEvent 0x0064 k, 0)
  | _, _ => (s, 2)

/-- SEC_RELEASE (R428): a k-of-n request accepted: a release key and an authorisation. -/
def execSecRelease (v : View) (k : Fin 8) (slot : Fin 16) (s : State) : Out := .next (s.secCmd v k (s.release k slot))

/-- KEYDROP's effect (R414, R428): the key of a slot, its authorisation and its gathering envelope. -/
def State.keyDrop (s : State) (k slot : Nat) : State :=
  let t := { s with
    keySlots := s.keySlots.filter (fun x => !(x.1 == k && x.2.1 == slot))
    releases := s.releases.filter (fun r => !(r.canton == k && r.slot == slot)) }
  t.setCanton k { t.canton k with gathers := (t.canton k).gathers.filter (fun (g : Gather) => g.slot != slot) }

/-- SEC_KEYDROP (R414). -/
def execSecKeydrop (v : View) (k : Fin 8) (slot : Fin 16) (s : State) : Out :=
  .next (s.secCmd v k (if s.polState k = 1 then (s.keyDrop k slot, 0) else (s, 2)))

/-! ### Consent (R432) -/

/-- The text of a consent record. -/
def State.consentText (s : State) (k bits : Nat) : List Byte :=
  leBytes 4 s.moduleId ++ leBytes 1 k ++ leBytes 4 (s.jobs.getD k 0) ++ leBytes 4 (s.rd (R.CPOL_SEQ k)).toNat ++ leBytes 1 bits

/-- The bits that a party's records of the current SEQ carry. -/
def CantonSec.bitsOf (c : CantonSec) (p : Nat) : Nat :=
  (c.consents.filter (fun (x : Nat × Nat) => x.1 == p)).foldl (fun a x => a ||| x.2) 0

/-- CONSENT's effect. SEC_BUF holds the party, the bits (1 B each), 2 reserved bytes, SEQ (4 B), the signature. -/
def State.consentCmd (s : State) (k : Nat) : State × Nat :=
  let b := s.buf 0 520
  let bits := fieldAt b 1 1
  let c := s.canton k
  match s.polState k, c.party? (fieldAt b 0 1) with
  | 1, some p =>
    if 32 ≤ bits ∨ fieldAt b 2 2 ≠ 0 then (s, 3)
    else if fieldAt b 4 4 ≠ (s.rd (R.CPOL_SEQ k)).toNat then (s, 2)
    else if pssOk p.modulus "JV-CON" (s.consentText k bits) ((b.drop 8).take 512) = false then s.badSig k
    else
      let c := { c with consents := (p.id, bits) :: c.consents }
      let all := c.parties.foldl (fun a q => a &&& c.bitsOf q.id) 31
      let t := s.setCanton k c
      if all ||| t.consent k = t.consent k then (t, 0)
      else
        let t := (t.put (R.CPOL_STATUS k) F.CPOL_STATUS_CONSENT (all ||| t.consent k)).secEvent 0x0061 k
        ((t.policyChanged k).workConserve, 0)
  | _, _ => (s, 2)

/-- SEC_CONSENT (R432). -/
def execSecConsent (v : View) (k : Fin 8) (s : State) : Out := .next (s.secCmd v k (s.consentCmd k))

/-! ### Test port (R433, R435, R541) -/

/-- Step 1 of the scrub begins (R436): the canton is SCRUBBING and quiesces. -/
def State.beginScrub (s : State) (k : Nat) : State :=
  let t := ((s.quiesce k).scrubbing k).setStep k 1
  (t.setCanton k { t.canton k with scrubAt := t.now }).workConserve

/-- A scan ends: the cantons it opened go to SCRUBBING (R435). -/
def State.endScan (s : State) : State :=
  match s.sec.tap with
  | .scan _ => s.sec.scanned.foldl (fun t k => t.beginScrub k) (s.setSec { s.sec with scanned := [], tap := .bypass })
  | _ => s.setSec { s.sec with tap := .bypass }

/-- A debug session ends: DBGCONN clears, the TAP is in BYPASS. -/
def State.endDebug (s : State) : State := s.endScan.put R.SEC_STATUS F.SEC_STATUS_DBGCONN 0

/-- CONSENT_WITHDRAW (R432): one party's signed record clears the bits it names; sessions they allow end. -/
def execConsentWithdraw (k : Fin 8) (party : Nat) (bits : BitVec 8) (sig : List Byte) (s : State) : Out :=
  match s.polState k, (s.canton k).party? party with
  | 1, some p =>
    if pssOk p.modulus "JV-WDC" (s.consentText k bits.toNat) sig = false then .next (s.badSig k).1
    else
      let old := s.consent k
      let new := (BitVec.ofNat 8 old &&& ~~~ bits).toNat
      if new = old then .next s
      else
        let t := (s.put (R.CPOL_STATUS k) F.CPOL_STATUS_CONSENT new).secEvent 0x0062 k
        let t := if bits.getLsbD 3 then t.endDebug else t
        .next (t.policyChanged k).workConserve
  | _, _ => .next s

/-- Whether internal scan of the dies on a chain is allowed (R433): SCAN consent of each canton that owns one, of every
ASSIGNED canton where a shared die is on the chain. -/
def State.scanAllowed (s : State) (dies : List (Fin 64)) : Bool :=
  dies.all (fun d => match s.dieCanton d with
    | some k => s.polState k != 1 || (s.consent k).testBit 0
    | none => s.sharedConsent 0)

/-- The instruction as it acts (R435, R541): private ones, and the boundary ones while a canton is not FREE, behave as
BYPASS; without the debug connector only BYPASS and IDCODE act. -/
def State.tapActs (s : State) (i : TapInstr) : TapInstr :=
  let free := (List.range s.cantons).all (fun k => s.polState k == 0)
  let conn := s.flag R.SEC_STATUS F.SEC_STATUS_DBGCONN
  match i with
  | .bypass => .bypass
  | .idcode => .idcode
  | .samplePreload => if conn && free then .samplePreload else .bypass
  | .extest => if conn && free then .extest else .bypass
  | .clamp => if conn && free then .clamp else .bypass
  | .highz => if conn && free then .highz else .bypass
  | .scan ds => if conn && s.scanAllowed ds then .scan ds else .bypass
  | .other => .bypass

/-- TAP_INSTRUCTION (R435): the instruction in force; IDCODE shows stepping, part and maker. -/
def execTapInstruction (i : TapInstr) (s : State) : Out :=
  let t := s.endScan
  let act := t.tapActs i
  let t := t.setSec { t.sec with tap := act }
  .next (if act = .idcode then { t with resp := .value (BitVec.ofNat 32 (Config.stepping.toNat * 2 ^ 28 + 0xA640 * 2 ^ 12 + 0x76B)) } else t)

/-- The dies of a scan chain zeroised as in step 3 of R435. -/
def State.zeroDie (s : State) (d : Nat) : State :=
  if d < 40 then s.zeroCd (fin40 d) true else if d < 56 then s.zeroMd (fin16 (d - 40))
  else if d < 62 then s.zeroRange (redBase (d - 56)) 0x400000 else s

/-- SCAN_ENABLE (R435): before the chain opens, the keys of each canton that owns a die on it are destroyed (of every
canton for a shared die), the dies zeroised, the trust die's own secrets erased where it is on the chain; SCANNED and
0x0469. -/
def execScanEnable (s : State) : Out :=
  match s.sec.tap with
  | .scan dies =>
    let shared := dies.any (fun (d : Fin 64) => decide (56 ≤ d.val))
    let hit := (List.range s.cantons).filter (fun k => shared || dies.any (fun (d : Fin 64) => s.dieCanton d == some k))
    let owned := hit.filter (fun k => s.polState k != 0)
    let t := hit.foldl (fun t k => t.eraseKeys k) s
    let t := dies.foldl (fun t d => t.zeroDie d) t
    let td := dies.any (fun (d : Fin 64) => d.val == 63)
    let t := if td then
        (t.setSec { t.sec with identity := none, pufLocked := true, linkSecrets := [] }).put R.SEC_STATUS F.SEC_STATUS_IDOK 0
      else t
    let t := t.setSec { t.sec with scanned := owned }
    .next ((t.put R.SEC_STATUS F.SEC_STATUS_SCANNED 1).raise 0x0469 63 none (detail 0 0 0)).workConserve
  | _ => .next s

/-- DEBUG_PROBE_INSERT (R541): DBGCONN is set only while DBGCONN consent is in force for every ASSIGNED canton. -/
def execDebugProbeInsert (s : State) : Out :=
  let t := s.setSec { s.sec with probe := true }
  .next (if t.sharedConsent 3 then t.put R.SEC_STATUS F.SEC_STATUS_DBGCONN 1 else t)

/-- DEBUG_PROBE_REMOVE (R541): DBGCONN clears and any debug session ends. -/
def execDebugProbeRemove (s : State) : Out := .next (s.setSec { s.sec with probe := false }).endDebug

/-! ### The scrub (R436) -/

/-- SEC_SCRUB (R436): an ASSIGNED canton is SCRUBBING; step 1 quiesces it. -/
def execSecScrub (v : View) (k : Fin 8) (s : State) : Out :=
  .next (s.secCmd v k (if s.polState k = 1 then (s.beginScrub k, 0) else (s, 2)))

/-- SCRUB_QUIESCED (R436): once nothing of the canton runs, keys are erased, state zeroised, fresh keys loaded for the
tree. -/
def execScrubQuiesced (k : Fin 8) (s : State) : Out :=
  if s.polState k = 2 ∧ s.get (R.SCRUB_STATUS k) F.SCRUB_STATUS_STEP = 1 ∧ s.busyCanton k = false then .next (s.scrubErase k)
  else .next s

/-- SCRUB_QUIESCE_TIMEOUT (R436): beyond 100 ms the canton is reset, with 0x0266. -/
def execScrubQuiesceTimeout (k : Fin 8) (s : State) : Out :=
  if s.polState k = 2 ∧ s.get (R.SCRUB_STATUS k) F.SCRUB_STATUS_STEP = 1 ∧ (s.canton k).scrubAt + 100 * msTicks < s.now then
    .next (((s.crst k).put (R.SCRUB_STATUS k) F.SCRUB_STATUS_FORCED 1).secEvent 0x0266 k)
  else .next s

/-- Every data block of a canton's slice written with zeros (R436): nothing of it stays listed. -/
def State.overwrite (s : State) (k : Nat) : State := s.zeroRange (s.sliceBase k) (s.sliceSize k)

/-- SCRUB_COMPLETE (R436): the trees stand; the overwrite where OVERWRITE is set, the forced rekey of the plane on every
port, the fresh keys destroyed; the canton is FREE. -/
def execScrubComplete (k : Fin 8) (s : State) : Out :=
  if s.polState k = 2 ∧ s.get (R.SCRUB_STATUS k) F.SCRUB_STATUS_STEP = 5 ∧ s.treesUp k = true then
    let excess := (s.get (R.CPOL_STATUS k) F.CPOL_STATUS_OPFLAGS).testBit 0
    let t := if excess then s.overwrite k else s
    let t := allPorts.foldl (fun t l => t.forceRekey l k) t
    let t := t.eraseKeys k
    let t := (t.cantonMds k).foldl (fun t m => t.put (R.SEAL_STATUS m) F.SEAL_STATUS_TREE 0) t
    let t := (t.wr (R.CPOL_STATUS k) 0).setSec { t.sec with owedErase := t.sec.owedErase.filter (fun j => j != k.val) }
    let t := ((t.setStep k 0).put (R.SCRUB_STATUS k) F.SCRUB_STATUS_PEND 0).bump (R.SCRUB_STATUS k) F.SCRUB_STATUS_COUNT 1
    .next (t.secEvent 0x0063 k).workConserve
  else .next s

/-- IDE_INTEGRITY_FAILURE (R431): the link is insecure, all DMA of every canton stops, alarm 0x1463. -/
def execIdeIntegrityFailure (s : State) : Out :=
  let t := s.put R.SEC_STATUS F.SEC_STATUS_IDE 0
  let t := (List.range 8).foldl (fun t k => (List.range 16).foldl (fun t g =>
    if t.get (R.HI_RING_CTL k g) F.HI_RING_CTL_STATE = 1 then t.put (R.HI_RING_CTL k g) F.HI_RING_CTL_STATE 2 else t) t) t
  let t := t.setHost { t.host with rings := [] }
  .next (t.raise 0x1463 62 none (detail 0 0 0))

end Sys2Proof.Machine
end

