-- ==== Sys2Proof/Machine/Host.lean ====
section
/-! DEFINITION. Host attachment, rings, bulk data port, mailboxes and service cores (R442-R466). -/
namespace Sys2Proof.Machine

/-! ### The host link (R442-R448) -/

/-- HOST_LINK_TRAIN (R443, R444): ×16, or ×8 on the half without excluded lanes, reversed for lanes 8-15; excluded lanes
in both halves keep the link down (0x1268). A host-interface die that cannot train never does (R480). -/
def execHostLinkTrain (t : HostTrain) (s : State) : Out :=
  let lo := bitsN t.bad.toNat 7 0 != 0
  let hi := bitsN t.bad.toNat 15 8 != 0
  if s.hostLost || s.dark then .next (s.put R.HI_LINK F.HI_LINK_MODE 0)
  else if lo && hi then .next ((s.put R.HI_LINK F.HI_LINK_MODE 0).raise 0x1268 62 none (detail 0 0 0))
  else
    let u := (s.put R.HI_LINK F.HI_LINK_MODE (if t.cxl then 1 else 2)).put R.HI_LINK F.HI_LINK_X8 (if lo || hi then 1 else 0)
    let u := (u.put R.HI_LINK F.HI_LINK_R32 (if t.r32 then 1 else 0)).put R.HI_LINK F.HI_LINK_REV (if lo then 1 else 0)
    let u := u.bump R.HI_LINK F.HI_LINK_TRAINS 1
    .next (u.raise 0x1067 62 none (detail 0 0 (bitsN (u.rd R.HI_LINK).toNat 4 0)))

/-- HOST_LINK_DOWN (R465): a trained link goes down. -/
def execHostLinkDown (s : State) : Out :=
  if s.get R.HI_LINK F.HI_LINK_MODE = 0 then .next s
  else .next ((s.put R.HI_LINK F.HI_LINK_MODE 0).raise 0x1268 62 none (detail 0 0 0))

/-- BUSY of every region of canton k, and the regions whose EN = 0 can now take effect (R450). -/
def State.regionSync (s : State) (k : Nat) : State :=
  (List.range 16).foldl (fun t r =>
    let used := t.host.rings.any (fun (x : (Nat × Nat) × List RingJob) =>
      x.1.1 == k && x.2.any (fun (j : RingJob) => bitsN (leNat ((j.desc.drop 20).take 1)) 3 0 == r))
    let t := t.put (R.HI_RGN_LO k r) F.HI_RGN_LO_BUSY (if used then 1 else 0)
    if !used && t.host.closing.contains (k, r) then
      (t.put (R.HI_RGN_LO k r) F.HI_RGN_LO_EN 0).setHost { t.host with closing := t.host.closing.filter (fun (x : Nat × Nat) => x != (k, r)) }
    else t) s

/-- Region that a descriptor names. -/
def RingJob.region (j : RingJob) : Nat := bitsN (leNat ((j.desc.drop 20).take 1)) 3 0

/-- The host-written HI fields return to their cold-reset values (R500): regions are disabled, and the descriptors in
progress that name them end with STATUS 5 (R454). -/
def State.hostFieldsReset (s : State) : State :=
  let rings := s.host.rings.map (fun (x : (Nat × Nat) × List RingJob) =>
    (x.1, x.2.map (fun (j : RingJob) => if j.status = 1 ∧ s.flag (R.HI_RGN_LO x.1.1 j.region) F.HI_RGN_LO_EN then { j with status := 5 } else j)))
  let t := { s with regs := s.regs.filterMap (fun (p : Nat × W32) =>
    match crsDie p.1 with
    | some (.hd, _, off) =>
      if 0x1000 ≤ off ∧ off < 0x4000 then
        let m := regMask p.1 (fun (f : FieldRow) => f.acc == Acc.rwHost)
        let x : W32 := (p.2 &&& ~~~m) ||| (regReset p.1 &&& m)
        if x = regReset p.1 then none else some (p.1, x)
      else some p
    | _ => some p) }
  t.setHost { t.host with rings := rings, time := none, closing := [], owed := false, overflow := false }

/-- PERST_ASSERT (R500): the host-written HI fields return to cold reset, the host link retrains. -/
def execPerstAssert (s : State) : Out := .next (s.hostFieldsReset.put R.HI_LINK F.HI_LINK_MODE 0)

/-- FUNCTION_LEVEL_RESET (R500): as PERST#, without the retrain. -/
def execFunctionLevelReset (s : State) : Out := .next s.hostFieldsReset

/-- HOST_SNOOP (R442): the HD never holds a host line after a transfer, and answers every snoop with a miss. -/
def execHostSnoop (_addr : Nat) (s : State) : Out := .next { s with resp := .miss }

/-- BAR0_BAD_ACCESS (R447): an access that is not of 4 or 8 bytes and naturally aligned completes with Completer Abort and
raises 0x1269. -/
def execBar0BadAccess (addr size : Nat) (s : State) : Out :=
  if (size = 4 ∨ size = 8) ∧ addr % size = 0 then .next s
  else .next ({ s with resp := .busError }.raise 0x1269 62 none (detail 0 0 addr))

/-- MSIX_VECTOR_UNMASK (R448): a pending interrupt is delivered. -/
def execMsixVectorUnmask (v : Fin 64) (s : State) : Out :=
  let b := BitVec.ofNat 64 (2 ^ v.val)
  let h := { s.host with masked := s.host.masked &&& ~~~ b, waiting := s.host.waiting &&& ~~~ b }
  .next (s.setHost (if s.host.waiting.getLsbD v then { h with irqs := h.irqs ++ [v.val] } else h))

/-! ### Regions and rings (R450-R454) -/

/-- REGION_DISABLE (R450): EN = 0 takes effect once no descriptor in progress names the region. -/
def execRegionDisable (k : Fin 8) (r : Fin 16) (s : State) : Out :=
  if s.flag (R.HI_RGN_LO k r) F.HI_RGN_LO_EN then
    .next ((s.setHost { s.host with closing := (k.val, r.val) :: s.host.closing.filter (fun (x : Nat × Nat) => x != (k.val, r.val)) }).regionSync k)
  else .next s

/-- Descriptors in progress of a ring. -/
def State.jobsOf (s : State) (k g : Nat) : List RingJob :=
  match s.host.rings.find? (fun (x : (Nat × Nat) × List RingJob) => x.1 == (k, g)) with
  | some x => x.2
  | none => []

/-- Descriptors in progress of a ring replaced. -/
def State.setJobs (s : State) (k g : Nat) (l : List RingJob) : State :=
  let rest := s.host.rings.filter (fun (x : (Nat × Nat) × List RingJob) => x.1 != (k, g))
  (s.setHost { s.host with rings := if l.isEmpty then rest else ((k, g), l) :: rest }).regionSync k

/-- STATE of a ring: 0 IDLE, 1 RUN, 2 STOPPED. -/
def State.ringState (s : State) (k g : Nat) : Nat := s.get (R.HI_RING_CTL k g) F.HI_RING_CTL_STATE

/-- STATE of a ring set. -/
def State.setRingState (s : State) (k g n : Nat) : State := s.put (R.HI_RING_CTL k g) F.HI_RING_CTL_STATE n

/-- A ring whose EN is 0 is IDLE once no descriptor is in progress (R454). -/
def State.ringIdle (s : State) (k g : Nat) : State :=
  if (s.jobsOf k g).isEmpty && !s.flag (R.HI_RING_CTL k g) F.HI_RING_CTL_EN then s.setRingState k g 0 else s

/-- RING_ENABLE (R451): ignored before the canton's purpose-3 agreement, and by a canton that takes no work (R528). -/
def execRingEnable (k : Fin 8) (g : Fin 16) (s : State) : Out :=
  if (s.canton k).hostKeys.isSome && s.takesWork k && !s.flag (R.HI_RING_CTL k g) F.HI_RING_CTL_EN then
    .next ((s.put (R.HI_RING_CTL k g) F.HI_RING_CTL_EN 1).setRingState k g 1)
  else .next s

/-- RING_DISABLE (R454): the ring stops after its descriptors in progress. -/
def execRingDisable (k : Fin 8) (g : Fin 16) (s : State) : Out :=
  .next ((s.put (R.HI_RING_CTL k g) F.HI_RING_CTL_EN 0).ringIdle k g)

/-- HEAD of a ring. -/
def State.ringHead (s : State) (k g : Nat) : Nat := s.get (R.HI_RING_IDX k g) F.HI_RING_IDX_HEAD
/-- TAIL of a ring. -/
def State.ringTail (s : State) (k g : Nat) : Nat := s.get (R.HI_RING_IDX k g) F.HI_RING_IDX_TAIL

/-- MPA of a ring's descriptor. -/
def State.ringDescAt (s : State) (k g idx : Nat) : Nat :=
  s.get (R.HI_RING_LO k g) F.HI_RING_LO_ADDR * 4096 + s.get (R.HI_RING_HI k g) F.HI_RING_HI_ADDR * 2 ^ 32 +
    64 * (idx % 2 ^ s.get (R.HI_RING_CTL k g) F.HI_RING_CTL_SIZE)

/-- Next SEQ of a ring in a direction (R429). -/
def CantonSec.seqOf (c : CantonSec) (ring dir : Nat) : Nat :=
  match c.hostSeq.find? (fun (x : (Nat × Nat) × Nat) => x.1 == (ring, dir)) with
  | some x => x.2
  | none => 0

/-- Next SEQ replaced. -/
def CantonSec.setSeq (c : CantonSec) (ring dir n : Nat) : CantonSec :=
  { c with hostSeq := ((ring, dir), n) :: c.hostSeq.filter (fun (x : (Nat × Nat) × Nat) => x.1 != (ring, dir)) }

/-- Records a canton has moved in a direction. -/
def CantonSec.movedIn (c : CantonSec) (dir : Nat) : Nat := if dir = 0 then c.moved.1 else c.moved.2

/-- Whether a canton's records have reached 2^32 in one direction (R430). -/
def CantonSec.spent (c : CantonSec) : Bool := decide (2 ^ 32 ≤ c.moved.1) || decide (2 ^ 32 ≤ c.moved.2)

/-- A record moved: SEQ rises, and the 2^32nd of a direction raises 0x1062. -/
def State.recordMoved (s : State) (k ring dir : Nat) : State :=
  let c := s.canton k
  let c := c.setSeq ring dir (c.seqOf ring dir + 1)
  let c := { c with moved := if dir = 0 then (c.moved.1 + 1, c.moved.2) else (c.moved.1, c.moved.2 + 1) }
  let t := s.setCanton k c
  if c.movedIn dir = 2 ^ 32 then t.raise 0x1062 62 (some k) (detail ring k 0) else t

/-- The header of a host record (R429). -/
def hostHeader (dir k ring len seq : Nat) : List Byte :=
  leBytes 1 dir ++ leBytes 1 k ++ leBytes 2 ring ++ leBytes 4 len ++ leBytes 8 seq ++ List.replicate 16 0

/-- Nonce of a host record: the first 4 header bytes and SEQ. -/
def hostNonce (h : List Byte) : List Byte := h.take 4 ++ (h.drop 8).take 8

/-- A record received in direction 0: its plaintext, or the STATUS of what fails first: header (4), SEQ (3), tag (2). -/
def State.openRecord (s : State) (k ring len : Nat) (bytes : List Byte) : Except Nat (List Byte) :=
  let h := bytes.take 32
  let c := s.canton k
  match c.hostKeys with
  | none => .error 2
  | some (key, _) =>
    if fieldAt h 0 1 ≠ 0 ∨ fieldAt h 1 1 ≠ k ∨ fieldAt h 2 2 ≠ ring ∨ fieldAt h 4 4 ≠ len then .error 4
    else if fieldAt h 8 8 ≠ c.seqOf ring 0 then .error 3
    else match gcmOpen key (hostNonce h) h ((bytes.drop 32).take (len + 16)) with
      | some plain => .ok plain
      | none => .error 2

/-- What the HD does with a descriptor (R453): the state with the data moved, and STATUS (1 where nothing failed). -/
def State.runDesc (s : State) (k g : Nat) (desc : List Byte) (host : Option (List Byte)) : State × Nat :=
  let mpa := fieldAt desc 0 6
  let hoff := fieldAt desc 8 8
  let len := fieldAt desc 16 4
  let r := bitsN (fieldAt desc 20 1) 3 0
  let dir := bitsN (fieldAt desc 21 1) 0 0
  let rgn := R.HI_RGN_LO k r
  let base := s.get rgn F.HI_RGN_LO_ADDR * 4096 + (s.rd (R.HI_RGN_HI k r)).toNat * 2 ^ 32
  let allowed := s.flag rgn (if dir = 0 then F.HI_RGN_LO_TOMOD else F.HI_RGN_LO_TOHOST)
  if s.flag rgn F.HI_RGN_LO_EN = false ∨ allowed = false ∨ hoff % 16 ≠ 0 ∨ len < 1 ∨ 1048576 < len ∨
      s.get (R.HI_RGN_SIZE k r) F.HI_RGN_SIZE_PAGES * 4096 < hoff + len + 48 then (s, 5)
  else
    match host with
    | none => (s, 5)
    | some bytes =>
      if dir = 0 then
        match s.openRecord k g len bytes with
        | .error n => (s, n)
        | .ok plain =>
          match s.checkRange (.hdma (fin8 k)) true mpa len with
          | .ok => ((s.mpaWrite 62 mpa plain).recordMoved k g 0, 1)
          | .busError _ => (s, 6)
      else
        match s.checkRange (.hdma (fin8 k)) false mpa len, (s.canton k).hostKeys with
        | .ok, some (_, key) =>
          if s.readable mpa len = false then (s, 7)
          else
            let h := hostHeader 1 k g len ((s.canton k).seqOf g 1)
            let rec_ := h ++ gcmSeal key (hostNonce h) h (s.bytes mpa len)
            ((s.setHost { s.host with writes := s.host.writes ++ [(base + hoff, rec_)] }).recordMoved k g 1, 1)
        | _, _ => (s, 6)

/-- RING_DESCRIPTOR_START (R453, R454): the next descriptor of a running ring, up to four in progress and none behind a
failed one. `host` is what the host's memory answers; none is a host completion error. -/
def execRingDescriptorStart (k : Fin 8) (g : Fin 16) (host : Option (List Byte)) (s : State) : Out :=
  let jobs := s.jobsOf k g
  let idx := (s.ringHead k g + jobs.length) % 2 ^ 16
  if s.ringState k g = 1 ∧ s.flag (R.HI_RING_CTL k g) F.HI_RING_CTL_EN = true ∧ s.takesWork k = true ∧ idx ≠ s.ringTail k g ∧
      jobs.length < 4 ∧ jobs.all (fun (j : RingJob) => j.status == 1) = true ∧ (s.canton k).hostKeys.isSome = true ∧ (s.canton k).spent = false then
    let a := s.ringDescAt k g idx
    match s.checkRange (.hdma (fin8 k)) false a 64 with
    | .busError _ => .next (s.setJobs k g (jobs ++ [⟨idx, List.replicate 64 0, 6, 0⟩]))
    | .ok =>
      if s.readable a 64 = false then .next (s.setJobs k g (jobs ++ [⟨idx, List.replicate 64 0, 7, 0⟩]))
      else
        let desc := s.bytes a 64
        let dir := bitsN (fieldAt desc 21 1) 0 0
        let seq := (s.canton k).seqOf g dir
        let r := s.runDesc k g desc host
        .next (r.1.setJobs k g (jobs ++ [⟨idx, desc, r.2, seq⟩]))
  else .next s

/-- SEQ of the descriptors behind a failed one is expected again, since none of them counts as started (R454). -/
def State.seqBack (s : State) (k g : Nat) (jobs : List RingJob) : State :=
  let back := fun (d : Nat) => (jobs.filter (fun (j : RingJob) => j.status == 1 && bitsN (fieldAt j.desc 21 1) 0 0 == d)).length
  let c := s.canton k
  s.setCanton k ((c.setSeq g 0 (c.seqOf g 0 - back 0)).setSeq g 1 (c.seqOf g 1 - back 1))

/-- Event of a descriptor's STATUS (R454). -/
def statusEvent (st : Nat) : Nat := if st = 2 then 0x1460 else if st = 3 then 0x1461 else if st = 4 then 0x1264 else 0x1265

/-- RING_DESCRIPTOR_COMPLETE (R453, R454): the oldest descriptor, once its writes are acknowledged: STATUS and SEQ, DONE,
the ring's vector; or STATUS alone, the event, and the ring STOPPED. -/
def execRingDescriptorComplete (k : Fin 8) (g : Fin 16) (s : State) : Out :=
  match s.jobsOf k g with
  | [] => .next s
  | j :: rest =>
    let mpa := fieldAt j.desc 0 6
    let len := fieldAt j.desc 16 4
    let toModule := bitsN (fieldAt j.desc 21 1) 0 0 == 0
    if j.status = 1 ∧ toModule = true ∧ s.waitingAt 62 mpa len = true then .next s
    else
      let lost := j.status == 1 && toModule && s.erred 62 mpa len
      let s := if lost then { s with busErrs := s.busErrs.filter (fun (e : Nat × Nat × Nat) => !(e.1 == 62 && decide (mpa ≤ e.2.1) && decide (e.2.1 < mpa + len))) } else s
      let st := if lost then 6 else j.status
      let at_ := s.ringDescAt k g j.idx + 48
      if st = 1 then
        let t := s.mpaWrite 62 at_ (leBytes 8 1 ++ leBytes 8 j.seq)
        let done := fieldAt j.desc 24 8
        let t := if done = 0 then t else t.hdmaPennant k done (fieldAt j.desc 32 2)
        let t := (t.put (R.HI_RING_IDX k g) F.HI_RING_IDX_HEAD ((j.idx + 1) % 2 ^ 16)).setJobs k g rest
        let t := if (fieldAt j.desc 21 1).testBit 1 then t.msix (t.get (R.HI_RING_CTL k g) F.HI_RING_CTL_VEC) else t
        .next (t.ringIdle k g)
      else
        let t := s.mpaWrite 62 at_ (leBytes 8 st)
        let t := (t.seqBack k g (if lost then j :: rest else rest)).setJobs k g []
        .next (((t.setRingState k g 2).raise (statusEvent st) 62 (some k.val) (detail g k j.idx)).ringIdle k g)

/-- A stopped ring runs again, or is IDLE where EN is 0. -/
def State.ringAgain (s : State) (k g : Nat) : State := s.setRingState k g (if s.flag (R.HI_RING_CTL k g) F.HI_RING_CTL_EN then 1 else 0)

/-- RING_RESTART (R454): the stopped descriptor is retried from its start with the same expected SEQ. -/
def execRingRestart (k : Fin 8) (g : Fin 16) (s : State) : Out :=
  if s.ringState k g = 2 then .next (s.ringAgain k g) else .next s

/-- RING_ABORT (R454): every descriptor from HEAD to TAIL is discarded, none written. -/
def execRingAbort (k : Fin 8) (g : Fin 16) (s : State) : Out :=
  let t := (s.setJobs k g []).put (R.HI_RING_IDX k g) F.HI_RING_IDX_HEAD (s.ringTail k g)
  .next (if s.ringState k g = 2 then t.ringAgain k g else t)

/-! ### Bulk data port (R455, R456, R466) -/

/-- DP_ADDR of a port. -/
def State.dpAddr (s : State) (p : Nat) : Nat := s.get64 (R.DP_ADDR_LO p) (R.DP_ADDR_HI p) % 2 ^ 48
/-- DP_ADDR of a port set. -/
def State.setDpAddr (s : State) (p a : Nat) : State := s.put64 (R.DP_ADDR_LO p) (R.DP_ADDR_HI p) (a % 2 ^ 48)

/-- An access refused with a code (R456): ERR, CODE, event 0x1269, vector 11 for the host's port. -/
def State.dpRefuse (s : State) (p k code : Nat) : State :=
  let t := ((s.put (R.DP_STATUS p) F.DP_STATUS_ERR 1).put (R.DP_STATUS p) F.DP_STATUS_CODE code).raise 0x1269 62 (some k) (detail p k code)
  if p = 0 then t.msix 11 else t

/-- DP_ADDR advanced where INC is 1. -/
def State.dpAdvance (s : State) (p n : Nat) : State :=
  if s.flag (R.DP_CTL p) F.DP_CTL_INC then s.setDpAddr p (s.dpAddr p + n) else s

/-- Whether a write of a range would merge into a poisoned block (R257). -/
def State.mergesPoison (s : State) (a n : Nat) : Bool :=
  (blockPieces (n / 256 + 2) a n).any (fun p => decide (p.2 < 256) && !s.readable (p.1 / 256 * 256) 256)

/-- Bytes stored through a port: the seal engine's acknowledgement is outstanding (R455). -/
def State.dpStore (s : State) (p : Fin 2) (bs : List Byte) : State :=
  let t := s.mpaWrite 62 (s.dpAddr p) bs
  t.setHost { t.host with acks := t.host.acks.set p (t.host.acks[p] ++ [t.reqNo]) }

/-- The whole records at the front of a port's stream are opened one after the other (R456); `fuel` records at most. -/
def State.dpRecords (s : State) (p : Fin 2) (k : Nat) : Nat → State
  | 0 => s
  | fuel + 1 =>
    let st := s.host.stream[p]
    let len := fieldAt st 4 4
    if st.length < 32 ∨ (len ≤ 1048576 ∧ st.length < 48 + len) then s
    else
      let drop := fun (t : State) (l : List Byte) => t.setHost { t.host with stream := t.host.stream.set p l }
      if len < 1 ∨ 1048576 < len ∨ (s.canton k).spent = true then (drop s []).dpRefuse p k 5
      else match s.openRecord k 0xFFFF len st with
        | .error n =>
          let t := if n = 2 ∨ n = 3 then s.raise (statusEvent n) 62 (some k) (detail p k 0) else s
          (drop t []).dpRefuse p k 5
        | .ok plain =>
          if s.inSlice k (s.dpAddr p) len = false then (drop s []).dpRefuse p k 1
          else if s.mergesPoison (s.dpAddr p) len then (drop s []).dpRefuse p k 6
          else
            let t := ((s.dpStore p plain).setDpAddr p (s.dpAddr p + len)).recordMoved k 0xFFFF 0
            State.dpRecords (drop t (st.drop (48 + len))) p k fuel

/-- A write through a port (R455, R456). -/
def State.dpWrite (s : State) (p : Fin 2) (bs : List Byte) : State :=
  let ctl := R.DP_CTL p
  let k := s.get ctl F.DP_CTL_CANTON
  let a := s.dpAddr p
  let hostPath := s.flag ctl F.DP_CTL_KEY
  if bs.isEmpty ∨ 4096 < bs.length ∨ bs.length % 4 ≠ 0 ∨ s.flag (R.DP_STATUS p) F.DP_STATUS_ERR = true then s
  else if s.polState k ≠ 1 ∨ (hostPath = false ∧ s.inSlice k a bs.length = false) then s.dpRefuse p k 1
  else if s.flag ctl F.DP_CTL_DIR then s.dpRefuse p k 2
  else if hostPath then
    if (s.canton k).hostKeys.isNone then s.dpRefuse p k 4
    else
      let t := s.bumpWrap (R.DP_COUNT p) F.DP_COUNT_BYTES bs.length
      let t := t.setHost { t.host with stream := t.host.stream.set p (t.host.stream[p] ++ bs) }
      t.dpRecords p k (bs.length / 48 + 2)
  else if s.mergesPoison a bs.length then s.dpRefuse p k 6
  else ((s.dpStore p bs).bumpWrap (R.DP_COUNT p) F.DP_COUNT_BYTES bs.length).dpAdvance p bs.length

/-- DP_DATA_WRITE. -/
def execDpDataWrite (p : Fin 2) (bytes : List Byte) (s : State) : Out := .next (s.dpWrite p bytes)

/-- Whether a range lies in a canton's outbound window (R456). -/
def State.inOut (s : State) (k a n : Nat) : Bool :=
  let base := s.get (R.HI_OUT_LO k) F.HI_OUT_LO_ADDR * 4096 + s.get (R.HI_OUT_HI k) F.HI_OUT_HI_ADDR * 2 ^ 32
  decide (base ≤ a) && decide (a + n ≤ base + s.get (R.HI_OUT_LEN k) F.HI_OUT_LEN_PAGES * 4096)

/-- A read through a port (R455, R456): a refused read returns zeros. -/
def State.dpRead (s : State) (p : Fin 2) (n : Nat) : State :=
  let ctl := R.DP_CTL p
  let k := s.get ctl F.DP_CTL_CANTON
  let a := s.dpAddr p
  let zeros := { s with resp := .data (List.replicate n 0) }
  if n = 0 ∨ 4096 < n ∨ n % 4 ≠ 0 ∨ s.flag (R.DP_STATUS p) F.DP_STATUS_ERR = true then zeros
  else if s.polState k ≠ 1 ∨ s.inSlice k a n = false then zeros.dpRefuse p k 1
  else if s.flag ctl F.DP_CTL_DIR = false then zeros.dpRefuse p k 2
  else if s.flag ctl F.DP_CTL_KEY then zeros.dpRefuse p k 4
  else if s.inOut k a n = false then zeros.dpRefuse p k 3
  else if s.readable a n = false then zeros.dpRefuse p k 6
  else ({ s with resp := .data (s.bytes a n) }.bumpWrap (R.DP_COUNT p) F.DP_COUNT_BYTES n).dpAdvance p n

/-- DP_DATA_READ. -/
def execDpDataRead (p : Fin 2) (len : Nat) (s : State) : Out := .next (s.dpRead p len)

/-- DP_CTL of a port written by its owner (R466): DP_COUNT restarts. -/
def State.setDpCtl (s : State) (p : Fin 2) (x : W32) : State :=
  let t := (s.wr (R.DP_CTL p) (x &&& 0x3F)).wr (R.DP_COUNT p) 0
  t.setHost { t.host with stream := t.host.stream.set p [] }

/-- DP_CTL_WRITE. -/
def execDpCtlWrite (p : Fin 2) (x : W32) (s : State) : Out := .next (s.setDpCtl p x)

/-- DP_STATUS_READ (R455): returns only after every earlier write of the port has been acknowledged; no answer before. -/
def execDpStatusRead (p : Fin 2) (s : State) : Out :=
  let left := s.host.acks[p].filter (fun id => s.reqWaits id)
  let t := s.setHost { s.host with acks := s.host.acks.set p left }
  .next (if left.isEmpty then { t with resp := .value (s.rd (R.DP_STATUS p)) } else { t with resp := .none })

/-! ### Time, mailboxes, event-ring interrupts (R448, R457, R458) -/

/-- Host time set (R457). -/
def State.setHostTime (s : State) (x : W32) : State :=
  let t := s.wr R.HI_HOSTTIME_HI x
  t.setHost { t.host with time := some (t.get64 R.HI_HOSTTIME_LO R.HI_HOSTTIME_HI, t.now) }

/-- HOSTTIME_WRITE: the write of _HI sets the time. -/
def execHosttimeWrite (x : W32) (s : State) : Out := .next (s.setHostTime x)

/-- A message posted: an unread one is overwritten, which sets OVR. -/
def State.post (s : State) (k a : Nat) (full : Fld) (x : W32) : State :=
  let st := R.HI_MBOX_STAT k
  ((s.wr a x).setIf (s.flag st full) st F.HI_MBOX_STAT_OVR).put st full 1

/-- A message to canton k: the canton's service cores are interrupted. -/
def State.mboxTo (s : State) (k : Nat) (x : W32) : State := (s.post k (R.HI_MBOX_TO_HI k) F.HI_MBOX_STAT_TOFULL x).cantonIrq k

/-- MBOX_TO_WRITE (R458). -/
def execMboxToWrite (k : Fin 8) (x : W32) (s : State) : Out := .next (s.mboxTo k x)

/-- MBOX_FROM_WRITE (R458): vector 2 + k. -/
def execMboxFromWrite (k : Fin 8) (x : W32) (s : State) : Out :=
  .next ((s.post k (R.HI_MBOX_FROM_HI k) F.HI_MBOX_STAT_FROMFULL x).msix (2 + k))

/-- MBOX_TO_READ (R466): clears TOFULL. -/
def execMboxToRead (k : Fin 8) (s : State) : Out :=
  .next { s.put (R.HI_MBOX_STAT k) F.HI_MBOX_STAT_TOFULL 0 with resp := .value (s.rd (R.HI_MBOX_TO_HI k)) }

/-- MBOX_FROM_READ (R466): clears FROMFULL. -/
def execMboxFromRead (k : Fin 8) (s : State) : Out :=
  .next { s.put (R.HI_MBOX_STAT k) F.HI_MBOX_STAT_FROMFULL 0 with resp := .value (s.rd (R.HI_MBOX_FROM_HI k)) }

/-- Ticks of HOLDOFF. -/
def State.holdoff (s : State) : Nat := s.get R.HI_EVQ_CTL F.HI_EVQ_CTL_HOLDOFF * ticksPerUs

/-- Whether vector 0 may be raised again (R448). -/
def State.holdoffOver (s : State) : Bool :=
  match s.host.irqAt with
  | none => true
  | some t => decide (t + s.holdoff ≤ s.now)

/-- Vector 0 raised. -/
def State.evqIrq (s : State) : State := (s.setHost { s.host with irqAt := some s.now, owed := false }).msix 0

/-- EVENT_RING_HOLDOFF_EXPIRE (R448): records came since the last vector-0 interrupt. -/
def execEventRingHoldoffExpire (s : State) : Out :=
  if s.host.owed && s.holdoffOver then .next s.evqIrq else .next s

/-! ### Tenant images and service cores (R463, R464) -/

/-- TENANT_IMAGE_START (R408, R463): the image is measured; one in the manifest's image list is started, at most 8 of at
most 256 MiB each; another is refused with alarm 0x0467. -/
def execTenantImageStart (k : Fin 8) (mpa len : Nat) (s : State) : Out :=
  let c := s.canton k
  if s.polState k ≠ 1 ∨ len = 0 ∨ 2 ^ 28 < len ∨ 8 ≤ (c.images.filter (fun (i : TenantImage) => i.runs)).length ∨ s.inSlice k mpa len = false ∨
      s.readable mpa len = false then .next s
  else
    let d := sha512 (s.bytes mpa len)
    match c.manifest with
    | none => .next s
    | some m =>
      if m.images.contains d then
        let img : TenantImage := ⟨mpa, len, d, true⟩
        .next ((s.setCanton k { c with images := c.images ++ [img] }).raise 0x4070 (s.svcDie k) (some k.val) (detail 0 0 0))
      else .next (s.secEvent 0x0467 k)

/-- TENANT_HYPERCALL (R463): a running image's request for its own canton; the service firmware checks a drain as R221
does. -/
def execTenantHypercall (k : Fin 8) (img : Nat) (call : HyperCall) (s : State) : Out :=
  let runs := match (s.canton k).images[img]? with | some i => i.runs | none => false
  if runs then
    match call with
    | .queue d q => if s.cdCanton d = k.val then execQueueStart d ⟨q, 0⟩ s else .next s
    | .ring g tail => .next (s.put (R.HI_RING_IDX k g) F.HI_RING_IDX_TAIL tail.toNat)
    | .drain d q table variant w => if s.cdCanton d = k.val then execAdapterDrainRequest d q table variant w s else .next s
  else .next s

/-- GUEST_FAULT (R464): the image halts, alone. -/
def execGuestFault (d : Fin 40) (img : Nat) (s : State) : Out :=
  let k := s.cdCanton d
  let c := s.canton k
  match c.images[img]? with
  | some i =>
    if i.runs then
      .next ((s.setCanton k { c with images := c.images.set img { i with runs := false } }).raise 0x4271 d (some k) (detail img 0 0))
    else .next s
  | none => .next s

/-- SERVICE_CORE_CACHE_ERROR (R464): corrected, or an uncorrectable scratchpad error, fatal for the canton. -/
def execServiceCoreCacheError (d : Fin 40) (scratchpadLost : Bool) (s : State) : Out :=
  .next (s.raise (if scratchpadLost then 0x4373 else 0x4172) d (some (s.cdCanton d)) (detail 0 0 0))

end Sys2Proof.Machine
end

