-- ==== Sys2Proof/Machine/Nv.lean ====
section
/-! DEFINITION. Non-volatile writes under the hold-up rule, the event log's pages, the last-gasp record and the boot-flash
commands (R483-R487, R497-R499, R510-R513). -/
namespace Sys2Proof.Machine

/-- The power state replaced. -/
def State.setPwr (s : State) (x : PowerState) : State := { s with pwr := x }
/-- The reliability state replaced. -/
def State.setRel (s : State) (x : RelState) : State := { s with rel := x }

/-! ### Writes (R498, R499) -/

/-- Whether a write passes R498: 650 J/F times C_meas less 0.06 J against 2.4 W times 3 ms or 400 ms. -/
def State.nvPasses (s : State) (w : NvWrite) : Bool :=
  s.flag R.PWR_HOLDUP F.PWR_HOLDUP_VALID &&
    decide (60000 + (if w.page.isSome then 7200 else 960000) ≤ 650 * s.get R.PWR_HOLDUP F.PWR_HOLDUP_UF)

/-- DEFER bits after a change of what waits. -/
def State.deferSync (s : State) : State :=
  let held := s.pwr.nvWait.filter (fun (w : NvWrite) => !s.nvPasses w)
  let t := s.put R.PWR_HOLDUP F.PWR_HOLDUP_DEFER (if held.isEmpty then 0 else 1)
  let t := t.put R.FL_STATUS F.FL_STATUS_DEFER (if held.any (fun (w : NvWrite) => w.owner == 3) then 1 else 0)
  let t := t.put R.EVL_STATUS F.EVL_STATUS_STALL (if held.any (fun (w : NvWrite) => w.owner == 1 && w.page.isNone) then 1 else 0)
  if held.isEmpty then t.setPwr { t.pwr with nvTold := false } else t

/-- Writes asked for, in order. -/
def State.nvAsk (s : State) (l : List NvWrite) : State := (s.setPwr { s.pwr with nvWait := s.pwr.nvWait ++ l }).deferSync

/-- The writes that erase a range of whole sectors. -/
def eraseWrites (owner now a n : Nat) : List NvWrite := (List.range (n / 4096)).map (fun i => ⟨a + 4096 * i, none, owner, now⟩)

/-- The writes that program bytes, page by page. -/
def pageWrites (owner now a : Nat) (bs : List Byte) : List NvWrite :=
  (List.range ((bs.length + 255) / 256)).map (fun i => ⟨a + 256 * i, some (bs.drop (256 * i) |>.take 256), owner, now⟩)

/-- A 64 KiB record written to a copy: erased, then programmed (R474). -/
def recordWrites (owner now a : Nat) (bs : List Byte) : List NvWrite := eraseWrites owner now a 0x10000 ++ pageWrites owner now a bs

/-- The first waiting write that passes R498 and follows no waiting write of the same owner. -/
def State.nvNext (s : State) : Option Nat :=
  let l := s.pwr.nvWait
  (List.range l.length).find? (fun i =>
    match l[i]? with
    | some w => s.nvPasses w && !(l.take i).any (fun (x : NvWrite) => x.owner == w.owner)
    | none => false)

/-- NV_WRITE_START (R498, R513): one write at a time, and only one that passes; the others are deferred. On the hold-up
bank a page program starts only where the bank reads at least 13.0 V. -/
def execNvWriteStart (bankMv : Nat) (s : State) : Out :=
  match s.pwr.nv, s.nvNext with
  | none, some i =>
    match s.pwr.nvWait[i]? with
    | some w =>
      if s.pwr.mode = .undervolt ∧ bankMv < 13000 then .next s
      else
      let t := s.setPwr { s.pwr with nv := some w, nvWait := s.pwr.nvWait.eraseIdx i }
      let t := if w.owner = 1 then t.put R.EVL_STATUS F.EVL_STATUS_FLASHBUSY 1 else t
      .next t.deferSync
    | none => .next s
  | _, _ => .next s.deferSync

/-- NV_WRITE_DEFER_TIMEOUT (R499): a write deferred for more than 10 s raises 0x027F. -/
def execNvWriteDeferTimeout (s : State) : Out :=
  if s.pwr.nvWait.any (fun (w : NvWrite) => !s.nvPasses w && decide (w.since + tenSeconds < s.now)) && !s.pwr.nvTold then
    .next ((s.setPwr { s.pwr with nvTold := true }).raise 0x027F 63 none (detail 0 0 0))
  else .next s

/-- ESEQs of the records in a page of the event log: the slots that are not empty. -/
def pageEseqs (bs : List Byte) : List Nat :=
  (List.range 8).filterMap (fun i =>
    let r := (bs.drop (32 * i)).take 32
    if r.take 4 == label "JVEL" ∨ leNat (r.take 2) = 0xFFFF then none else some (leNat ((r.drop 4).take 6)))

/-- What a finished write leaves: the flash, and the records it stored (R513). -/
def State.nvDone (s : State) : State :=
  match s.pwr.nv with
  | none => s
  | some w =>
    let t := s.setPwr { s.pwr with nv := none }
    match w.page with
    | none => t.flErase (w.addr / 4096 * 4096) 4096
    | some bs =>
      let t := t.flPut w.addr bs
      if w.owner = 1 then
        let es := pageEseqs bs
        t.setRel { t.rel with
          flashed := es.foldl max t.rel.flashed
          window := t.rel.window.map (fun (r : EvRecord) => if es.contains (r.eseq % 2 ^ 48) then { r with stored := true } else r) }
      else t

/-- The state once the write in progress has finished. -/
def State.nvFinish (s : State) : State :=
  match s.pwr.nv with
  | some w => if w.owner = 1 then s.nvDone.put R.EVL_STATUS F.EVL_STATUS_FLASHBUSY 0 else s.nvDone
  | none => s

/-! ### Event-log pages (R510, R511) -/

/-- Flash address of a log page. -/
def logPage (sector page : Nat) : Nat := 0x4100000 + sector * 4096 + page * 256

/-- A record as the flash holds it: bytes 4-11 are ESEQ [47:0] and BOOTNO. -/
def State.flashRecord (s : State) (r : EvRecord) : List Byte :=
  r.bytes.take 4 ++ leBytes 6 r.eseq ++ leBytes 2 (s.get R.EVL_BOOTNO F.EVL_BOOTNO_BOOTNO) ++ r.bytes.drop 12

/-- The sector header, with its CRC-32. -/
def State.sectorHeader (s : State) (eseq : Nat) : List Byte :=
  let h := label "JVEL" ++ leBytes 4 s.rel.sseq ++ leBytes 6 eseq ++ leBytes 2 (s.get R.EVL_BOOTNO F.EVL_BOOTNO_BOOTNO) ++ List.replicate 12 0xFF
  h ++ crc32 h

/-- Slots of the page to be programmed next. -/
def State.pageSlots (s : State) : Nat := if s.rel.page = 0 then 7 else 8

/-- EVENT_LOG_PAGE_PROGRAM (R511): a full page, or one whose oldest record has waited 1 s, is programmed; with page 0 of a
sector the next sector is erased. -/
def execEventLogPageProgram (s : State) : Out :=
  let x := s.rel
  let n := s.pageSlots
  let due := match x.waiting with
    | [] => false
    | w :: _ => decide (n ≤ x.waiting.length) || decide (w.2 + secTicks ≤ s.now)
  if due then
    let now := (x.waiting.take n).map (fun (w : Nat × Nat) => w.1)
    let recs := now.filterMap (fun e => x.window.find? (fun (r : EvRecord) => r.eseq == e))
    let body := recs.foldl (fun a r => a ++ s.flashRecord r) (if x.page = 0 then s.sectorHeader (now.headD 0) else [])
    let page := (body ++ List.replicate (256 - body.length) 0xFF).take 256
    let next := (x.sector + 1) % 16128
    let t := s.setRel { x with
      waiting := x.waiting.drop n
      page := if x.page = 15 then 0 else x.page + 1
      sector := if x.page = 15 then next else x.sector
      sseq := if x.page = 15 then x.sseq + 1 else x.sseq }
    .next (t.nvAsk ([⟨logPage x.sector x.page, some page, 1, s.now⟩] ++ (if x.page = 0 then [⟨logPage next 0, none, 1, s.now⟩] else [])))
  else .next s

/-! ### The last-gasp record (R513) -/

/-- The record. -/
def State.lastGaspBytes (s : State) (cause : Nat) : List Byte :=
  let x := s.rel
  let last4 := (x.window.filter (fun (r : EvRecord) => decide (3 ≤ evCategory r.ev.code))).take 4
  let cst := (List.range 8).foldl (fun a k => a + s.polState k * 4 ^ k) 0
  let b := label "JVLG" ++ leBytes 4 (x.lseq + 1) ++ leBytes 2 (s.get R.EVL_BOOTNO F.EVL_BOOTNO_BOOTNO) ++ leBytes 1 cause ++
    leBytes 1 (s.rd R.SF_QLAST).toNat ++ leBytes 6 (match x.window with | r :: _ => r.eseq | [] => 0) ++ leBytes 6 x.flashed ++
    leBytes 2 (s.get R.PWR_VIN F.PWR_VIN_MINMV) ++ leBytes 2 (s.get R.PWR_HOLDUP F.PWR_HOLDUP_UF) ++
    leBytes 1 (bitsN (s.rd R.PWR_STATUS).toNat 2 0) ++ leBytes 2 cst ++ leBytes 1 (s.get R.PWR_STATUS F.PWR_STATUS_PARKED) ++
    x.temps.toList.flatMap (fun t => leBytes 1 t) ++ padTo 128 (last4.flatMap (fun (r : EvRecord) => r.bytes))
  let b := padTo 252 b
  b ++ crc32 b

/-- LAST_GASP_WRITE: the record goes to the next page of the area, ahead of every write that waits. CAUSE 1 undervoltage,
2 overvoltage, 3 REFCLK loss, 4 quench. -/
def State.lastGasp (s : State) (cause : Nat) : State :=
  let w : NvWrite := ⟨0x4000000 + s.rel.lgPage % 4096 * 256, some (s.lastGaspBytes cause), 2, s.now⟩
  let t := s.setPwr { s.pwr with nvWait := w :: s.pwr.nvWait }
  (t.setRel { t.rel with lseq := t.rel.lseq + 1, lgPage := (t.rel.lgPage + 1) % 4096 }).deferSync

/-! ### Boot-flash commands (R483, R485, R487) -/

/-- A command refused with a code: 1 signature, 2 format or invalid image, 3 protected or out of range, 5 state. -/
def State.flRefuse (s : State) (code : Nat) : State :=
  (s.put R.FL_STATUS F.FL_STATUS_REFUSED 1).put R.FL_STATUS F.FL_STATUS_CODE code

/-- A command that runs, with its writes. -/
def State.flRun (s : State) (c : FlashCmd) (l : List NvWrite) : State :=
  ((s.put R.FL_STATUS F.FL_STATUS_BUSY 1).setPwr { s.pwr with flCmd := some c }).nvAsk l

/-- The frame of every FL_CMD: ignored while one runs. -/
def State.flCmd (s : State) (f : State) : Out := .next (if s.flag R.FL_STATUS F.FL_STATUS_BUSY then s else f)

/-- n bytes of FL_BUF. -/
def State.flBuf (s : State) (off n : Nat) : List Byte := (List.range n).map (fun i => Sparse.get zeroByte s.pwr.flBuf (off + i))

/-- BIND (R483): NEWSIG must verify, and OLDSIG under the bound key where one is bound; else refused with alarm 0x0467. -/
def execBind (s : State) : Out :=
  let b := s.flBuf 0 1544
  let text := s.serial ++ b.take 520
  let new := pssOk ((b.drop 8).take 512) "JV-BIND" text ((b.drop 520).take 512)
  let old := match s.operatorKey with
    | none => true
    | some k => pssOk k "JV-BIND" text ((b.drop 1032).take 512)
  s.flCmd (if b.take 4 != label "JVBD" then s.flRefuse 2
    else if !(new && old) then (s.flRefuse 1).raise 0x0467 63 none (detail 0 0 0)
    else s.flRun ⟨1, 0, 0, 0⟩ (recordWrites 3 s.now (s.otherCopy 0x1000000 0x1010000 4 s.bindingOk) b))

/-- Whether ERASE or PROGRAM of a slot is refused with code 3: not a slot of a kind, or the one the record in force names. -/
def State.slotBarred (s : State) (kind slot : Nat) : Bool := decide (4 < kind) || s.namedSlot kind == slot

/-- ERASE (R487). -/
def execErase (kind : Fin 8) (slot : Fin 2) (s : State) : Out :=
  let p := slotPlace kind slot
  s.flCmd (if s.slotBarred kind slot then s.flRefuse 3 else s.flRun ⟨2, kind, slot, 0⟩ (eraseWrites 3 s.now p.1 p.2))

/-- PROGRAM (R487): FL_BUF to the chunk that FL_ADDR names. -/
def execProgram (kind : Fin 8) (slot : Fin 2) (s : State) : Out :=
  let p := slotPlace kind slot
  let c := s.get R.FL_ADDR F.FL_ADDR_CHUNK
  s.flCmd (if s.slotBarred kind slot ∨ p.2 < (c + 1) * 0x10000 then s.flRefuse 3
    else s.flRun ⟨3, kind, slot, c⟩ (pageWrites 3 s.now (p.1 + c * 0x10000) (s.flBuf 0 0x10000)))

/-- The slot select record that names a slot for one kind. -/
def State.selectRecord (s : State) (kind slot : Nat) : List Byte :=
  let seq := match s.inForce 0x1020000 0x1030000 0 s.selectOk with | some a => s.flNum a 4 + 1 | none => 1
  let b := leBytes 4 seq ++ (List.range 5).map (fun k => BitVec.ofNat 8 (if k = kind then slot else s.namedSlot k)) ++ [0, 0, 0]
  b ++ crc32 b

/-- COMMIT (R487): the slot's image must be valid; then a slot select record names the slot. -/
def execCommit (kind : Fin 8) (slot : Fin 2) (s : State) : Out :=
  s.flCmd (if 4 < kind.val then s.flRefuse 3
    else if s.imageValid kind slot = false then s.flRefuse 2
    else s.flRun ⟨4, kind, slot, 0⟩
      (recordWrites 3 s.now (s.otherCopy 0x1020000 0x1030000 0 s.selectOk) (s.selectRecord kind slot)))

/-- MCR (R485, R487): FL_BUF is checked, and written to the copy not in force. -/
def execMcr (s : State) : Out :=
  let m := s.flBuf 0 0x10000
  let seq := s.mcrInForce.map (fun a => s.flNum (a + 4) 4)
  s.flCmd (match s.mcrCheck m seq with
    | 1 => (s.flRefuse 1).raise 0x0467 63 none (detail 0 0 0)
    | 0 => s.flRun ⟨5, 0, 0, 0⟩ (recordWrites 3 s.now (s.otherCopy 0x1080000 0x1090000 4 s.mcrOk) (m.take (mcrSize m + 512)))
    | _ => s.flRefuse 2)

/-- FL_COMMAND_COMPLETE (R487): once no write of the command is left, DONE; where the flash failed, REFUSED with code 6. -/
def execFlCommandComplete (ok : Bool) (s : State) : Out :=
  let left := s.pwr.nvWait.any (fun (w : NvWrite) => w.owner == 3) || (match s.pwr.nv with | some w => w.owner == 3 | none => false)
  match s.pwr.flCmd with
  | none => .next s
  | some _ =>
    if left then .next s
    else
      let t := (s.put R.FL_STATUS F.FL_STATUS_BUSY 0).setPwr { s.pwr with flCmd := none }
      .next (if ok then t.put R.FL_STATUS F.FL_STATUS_DONE 1 else t.flRefuse 6)

end Sys2Proof.Machine
end

