-- ==== Sys2Proof/Machine/Start.lean ====
section
/-! DEFINITION. What a start does: straps, hold-up, images, identity, BIST, dies, DIMMs, the module configuration record,
and the recovery profile (R404, R477-R482, R497, R511-R521). -/
namespace Sys2Proof.Machine

/-- A step of a start: the state it goes on from, or the recovery profile it ends in. -/
abbrev Stage := Except State State

/-- DETAIL of an event of chapter 15: its bytes, zeros after them. -/
def bytes12 (bs : List Byte) : List Byte := padTo 12 bs

/-! ### Step 1: straps, event log, last-gasp record -/

/-- SSEQ of a sector of the log with a valid header (R510). -/
def State.sectorSeq (s : State) (i : Nat) : Option Nat :=
  let a := 0x4100000 + 4096 * i
  if s.fl a 4 == label "JVEL" && crc32 (s.fl a 28) == s.fl (a + 28) 4 then some (s.flNum (a + 4) 4) else none

/-- The sector with the highest SSEQ, with it. -/
def State.newestSector (s : State) : Option (Nat × Nat) :=
  (List.range 16128).foldl (fun best i =>
    match s.sectorSeq i, best with
    | some n, some (_, m) => if m < n then some (i, n) else best
    | some n, none => some (i, n)
    | none, _ => best) none

/-- BOOTNO values in a sector: of its header and of its records. -/
def State.sectorBoots (s : State) (i : Nat) : List Nat :=
  let a := 0x4100000 + 4096 * i
  s.flNum (a + 14) 2 :: (List.range 127).filterMap (fun j =>
    let r := a + 32 + 32 * j
    if s.flNum r 2 = 0xFFFF then none else some (s.flNum (r + 10) 2))

/-- The first page of a sector, after page 0, whose first slot is empty. -/
def State.emptyPage (s : State) (i : Nat) : Option Nat :=
  ((List.range 15).map (· + 1)).find? (fun p => s.flNum (logPage i p) 2 == 0xFFFF)

/-- The log found in the flash (R511): BOOTNO of this start and where the next page goes. -/
def State.openLog (s : State) : State :=
  match s.newestSector with
  | none => (s.wr R.EVL_BOOTNO 0).setRel { s.rel with sseq := 0, sector := 0, page := 0 }
  | some (i, n) =>
    let t := s.wr R.EVL_BOOTNO (BitVec.ofNat 32 (((s.sectorBoots i).foldl max 0 + 1) % 2 ^ 16))
    match s.emptyPage i with
    | some p => t.setRel { t.rel with sseq := n, sector := i, page := p }
    | none => t.setRel { t.rel with sseq := n + 1, sector := (i + 1) % 16128, page := 0 }

/-- LSEQ of a last-gasp page whose CRC verifies. -/
def State.gaspSeq (s : State) (p : Nat) : Option Nat :=
  let a := 0x4000000 + 256 * p
  if s.fl a 4 == label "JVLG" && crc32 (s.fl a 252) == s.fl (a + 252) 4 then some (s.flNum (a + 4) 4) else none

/-- The newest last-gasp record shown, with 0x008B where it is newer than the last one reported; the sector ahead erased
(R513). -/
def State.openGasp (s : State) : State :=
  let best := (List.range 4096).foldl (fun (best : Option (Nat × Nat)) p =>
    match s.gaspSeq p, best with
    | some n, some (_, m) => if m < n then some (p, n) else best
    | some n, none => some (p, n)
    | none, _ => best) none
  match best with
  | none => s
  | some (p, n) =>
    let a := 0x4000000 + 256 * p
    let t := (List.range 64).foldl (fun t w => t.wr (R.LG_REC w) (BitVec.ofNat 32 (s.flNum (a + 4 * w) 4))) s
    let t := if t.rel.lseq ≤ n then t.setRel { t.rel with lseq := n, lgPage := (p + 1) % 4096 } else t
    let ahead := (t.rel.lgPage / 16 + 1) % 256
    let t := if (t.fl (0x4000000 + 4096 * ahead) 4096).all (· == 0xFF) then t
      else t.nvAsk [⟨0x4000000 + 4096 * ahead, none, 2, t.now⟩]
    if t.rel.lgShown < n then
      (t.setRel { t.rel with lgShown := n }).raise 0x008B 63 none (bytes12 (leBytes 4 n ++ s.fl (a + 10) 1))
    else t

/-- Step 1 (R481, R542): straps latched, the kind of start and its cause recorded. -/
def State.start1 (s : State) (env : StartEnv) : State :=
  let t := s.setPwr { s.pwr with straps := env.straps.toNat }
  let t := (t.put R.BOOT_STATUS F.BOOT_STATUS_PHASE 0).put R.CLK_STATUS F.CLK_STATUS_REFOK 1
  let t := t.put R.SEC_STATUS F.SEC_STATUS_DBGCONN (if t.sec.probe then 1 else 0)
  t.openLog.openGasp

/-! ### Step 2: the hold-up bank (R497) -/

/-- C_meas in µF of a bank at V̄ mV that falls by ΔV mV in 50 ms under 20 W. -/
def holdUpUf (bankMv dropMv : Nat) : Nat := min 0xFFFF (950000000000 / max 1 (bankMv * dropMv))

/-- Step 2. -/
def State.start2 (s : State) (env : StartEnv) : State :=
  let uf := holdUpUf env.bankMv env.dropMv
  let t := (s.put R.PWR_HOLDUP F.PWR_HOLDUP_UF uf).put R.PWR_HOLDUP F.PWR_HOLDUP_VALID 1
  if uf < 3000 then (t.put R.PWR_HOLDUP F.PWR_HOLDUP_LOW 1).raise 0x027F 63 none (detail 0 0 uf) else t

/-! ### The recovery profile (R479, R480) -/

/-- A start that fails: only trust die, host-interface die and management port are powered. A module that neither host
nor management port reaches is dark: a last-gasp record is written. -/
def State.recoverStart (s : State) (rcause : Nat) : State :=
  let t := (s.put R.BOOT_STATUS F.BOOT_STATUS_PHASE 9).put R.BOOT_STATUS F.BOOT_STATUS_RCAUSE rcause
  let t := { t with inReset := Vector.ofFn (fun (i : Fin 64) => decide (i.val < 62)) }
  let t := t.setPwr { t.pwr with mode := .running, coresRun := false, resetNow := none }
  let t := match t.rel.capMap with
    | a :: b :: c :: f :: r => t.setRel { t.rel with capMap := a :: b :: c :: (f ||| 2) :: r }
    | _ => t
  if t.hostLost && t.mgmtLost then t.lastGasp 0 else t

/-- A recovery start with event 0x0380. -/
def State.recover380 (s : State) (rcause : Nat) : Stage := .error ((s.recoverStart rcause).raise 0x0380 63 none (detail rcause 0 0))

/-! ### Step 3: images and the module configuration record (R477, R478, R484-R486) -/

/-- Slots a start has chosen: SLOTS and FALLBACK, with 0x017E for each kind not taken from the named slot. -/
def State.showSlots (s : State) (imgs : List BootImage) : State :=
  (List.range 5).foldl (fun t k =>
    let x := (imgs.getD k ⟨2, 0, 0, 0, 1, []⟩).slot
    let t := t.put R.BOOT_SLOTS (2 * k + 1, 2 * k) x
    if x = s.namedSlot k then t.put R.BOOT_SLOTS (10 + k, 10 + k) 0
    else (t.put R.BOOT_SLOTS (10 + k, 10 + k) 1).raise 0x017E 63 none (detail k x 0)) s

/-- Step 3. At an SRST manifest and TFW stay those that run. -/
def State.start3 (s : State) (srst : Bool) : Stage :=
  let new := s.bootImages
  let imgs := if srst then s.pwr.images.take 2 ++ new.drop 2 else new
  let t := ((s.put R.BOOT_STATUS F.BOOT_STATUS_PHASE 1).setPwr { s.pwr with images := imgs }).showSlots imgs
  if imgs.any (fun (b : BootImage) => b.mismatch == 1) then t.recover380 2
  else if imgs.any (fun (b : BootImage) => b.mismatch != 0) then t.recover380 1
  else if t.operatorKey.isNone then t.recover380 3
  else match t.mcrInForce with
    | none => t.recover380 4
    | some a =>
      let m := t.mcrCopy a
      if t.mcrCheck m none ≠ 0 then t.recover380 4
      else
        let t := t.setPwr { t.pwr with mcr := m.take (mcrSize m) }
        if mcrNum m 98 1 = 1 then t.recover380 8 else .ok t

/-! ### Step 4: identity (R404) -/

/-- The identity key that the PUF gives: the same at every derivation. -/
def identityKey : List Byte := fit 512 (Config.crypto "IDENTITY" [])

/-- Step 4: derived at a POR, kept by other starts. -/
def State.start4 (s : State) (por : Bool) (env : StartEnv) : Stage :=
  let t := s.put R.BOOT_STATUS F.BOOT_STATUS_PHASE 2
  let key := if por then (if env.pufOk && env.keyOk && !t.sec.pufLocked then some identityKey else none) else t.sec.identity
  let t := (t.setSec { t.sec with identity := key }).put R.SEC_STATUS F.SEC_STATUS_IDOK (if key.isSome then 1 else 0)
  if key.isNone then .error ((t.recoverStart 6).raise 0x0370 63 none (detail 0 0 0)) else .ok t

/-! ### Step 5: BIST (R514-R519) -/

/-- A repair-map entry (R518). -/
def mapEntry (die inst kind faulty spare : Nat) : Nat := die + inst * 2 ^ 6 + kind * 2 ^ 14 + faulty * 2 ^ 16 + spare * 2 ^ 36
/-- DIE of an entry. -/
def entryDieOf (e : Nat) : Nat := bitsN e 5 0
/-- INST of an entry. -/
def entryInst (e : Nat) : Nat := bitsN e 13 6
/-- KIND of an entry. -/
def entryKind (e : Nat) : Nat := bitsN e 15 14
/-- FAULTY of an entry. -/
def entryFaulty (e : Nat) : Nat := bitsN e 35 16

/-- Spare rows and columns of an instance (R514). -/
def sparesOf (die inst : Nat) : Nat × Nat :=
  if die < 40 then (if inst < 64 then (16, 4) else if inst < 144 then (8, 2) else (4, 0))
  else if die < 62 then (8, 2) else (4, 0)

/-- The block that owns an instance or is a piece of logic (R518, R520). -/
def blockOf (f : BistFail) : Nat :=
  if f.die.val < 40 then
    if f.logic then (if 0xF1 ≤ f.inst ∧ f.inst ≤ 0xF6 then f.inst else 0xF0)
    else if f.inst = 144 ∨ f.inst = 145 then 0xF5 else if f.inst = 146 ∨ f.inst = 147 then 0xF6 else 0xF0
  else if f.logic then f.inst % 256 else if f.die.val < 62 then 0xF0 else 4

/-- Physical row and column of a failing cell (R516). -/
def cellOf (f : BistFail) : Nat × Nat := (f.word / 16, 39 * (f.word % 16) + f.bit)

/-- Distinct elements, in order. -/
def distinct (l : List Nat) : List Nat := l.foldl (fun a x => if a.contains x then a else a ++ [x]) []

/-- What repair does with one failing instance (R517): the new entries, or none where it is unusable. -/
def repairInst (old : List Nat) (die inst : Nat) (fails : List BistFail) : Option (List Nat) :=
  let mine := old.filter (fun e => entryDieOf e == die && entryInst e == inst && decide (entryKind e < 2))
  let usedRows := mine.filter (fun e => entryKind e == 0)
  let usedCols := mine.filter (fun e => entryKind e == 1)
  let cells := (fails.map cellOf).filter (fun c => !usedRows.any (fun e => entryFaulty e == c.1) && !usedCols.any (fun e => entryFaulty e == c.2))
  let cols := (distinct (cells.map (fun c => c.2))).filter (fun j =>
    decide (3 ≤ (distinct ((cells.filter (fun c => c.2 == j)).map (fun c => c.1))).length))
  let cols := cols.take ((sparesOf die inst).2 - usedCols.length)
  let rows := distinct ((cells.filter (fun c => !cols.contains c.2)).map (fun c => c.1))
  if fails.any (fun (f : BistFail) => f.still) || decide ((sparesOf die inst).1 < usedRows.length + rows.length) then none
  else some ((rows.mapIdx (fun i r => mapEntry die inst 0 r (usedRows.length + i))) ++
    cols.mapIdx (fun i c => mapEntry die inst 1 c (usedCols.length + i)))

/-- What BIST has found so far: entries of the map, new repairs, new marks, fail records. -/
structure BistRun where
  map_ : List Nat
  repairs : List Nat
  marks : List Nat
  recs : List (W32 × W32)
  deriving DecidableEq, Repr

/-- A fail record (R516). -/
def failRecord (f : BistFail) (repaired unusable : Bool) : W32 × W32 :=
  (BitVec.ofNat 32 (f.die.val + (if f.logic then blockOf f else f.inst % 256) * 64 + (if repaired then 2 ^ 14 else 0) + (if unusable then 2 ^ 15 else 0) +
      (if f.margin then 2 ^ 16 else 0)),
   BitVec.ofNat 32 (if f.logic then 0 else f.word % 2 ^ 20 + f.bit % 64 * 2 ^ 20))

/-- One failing instance or block taken up: repaired, or its block marked unusable. -/
def BistRun.take (b : BistRun) (die inst : Nat) (fails : List BistFail) : BistRun :=
  let logic := fails.any (fun (f : BistFail) => f.logic)
  match if logic then none else repairInst b.map_ die inst fails with
  | some es => { b with map_ := b.map_ ++ es, repairs := b.repairs ++ es, recs := b.recs ++ fails.map (fun f => failRecord f true false) }
  | none =>
    let blk := match fails with | f :: _ => blockOf f | [] => 0xF0
    let mark := mapEntry die blk 2 0 0
    let b := { b with recs := b.recs ++ fails.map (fun f => failRecord f false true) }
    if b.map_.contains mark then b else { b with map_ := b.map_ ++ [mark], marks := b.marks ++ [mark] }

/-- The instances that fail, in the order of the records. -/
def failPlaces (l : List BistFail) : List (Fin 64 × Nat × Bool) :=
  l.foldl (fun a f => let p := (f.die, f.inst, f.logic); if a.contains p then a else a ++ [p]) []

/-- BIST_RUN over the map that is in force. -/
def runBist (old : List Nat) (fails : List BistFail) : BistRun :=
  (failPlaces fails).foldl (fun b p => b.take p.1.val p.2.1 (fails.filter (fun f => f.die == p.1 && f.inst == p.2.1 && f.logic == p.2.2))) ⟨old, [], [], []⟩

/-- The bytes of a repair map, signed by the identity key (R518). -/
def State.repairBytes (s : State) (seq : Nat) (es : List Nat) : List Byte :=
  let b := leBytes 4 seq ++ label "JVRM" ++ leBytes 4 es.length ++ leBytes 4 0 ++ es.flatMap (fun e => leBytes 8 e)
  b ++ s.sign "JV-RPM" b

/-- The block of a mark: blocks of R518 by their numbers, the model's own from 0x100 on. -/
def markBlock (e : Nat) : Nat × Nat := (entryDieOf e, if entryInst e < 0xF0 then 0x100 + entryInst e else entryInst e)

/-- Step 5: BIST runs; fail records, new repairs and marks are reported, and a new repair map is asked for. -/
def State.start5 (s : State) (env : StartEnv) : State :=
  let t := s.put R.BOOT_STATUS F.BOOT_STATUS_PHASE 3
  let copies := [(0, 0x1040000), (1, 0x1050000)]
  let t := copies.foldl (fun t c => if t.repairOk c.2 then t else t.raise 0x018D 63 none (bytes12 (leBytes 1 c.1))) t
  let stored := match t.repairInForce with | some a => t.repairEntries a | none => []
  let old := if t.flag R.BIST_CTL F.BIST_CTL_RETEST then stored.filter (fun e => entryKind e != 2) else stored
  let b := runBist old env.fails
  let map_ := b.map_.take 8000
  let t := b.repairs.foldl (fun t e => t.raise 0x0185 63 none (bytes12 (leBytes 8 e))) t
  let t := b.marks.foldl (fun t e => t.raise 0x0286 63 none (bytes12 (leBytes 8 e))) t
  let marks := map_.filter (fun e => entryKind e == 2)
  let t := t.setRel { t.rel with fails := b.recs.take 4096, repairs := map_, unusable := marks.map markBlock }
  let t := (t.put R.BIST_STATUS F.BIST_STATUS_FAILS (min b.recs.length 4096)).put R.BIST_STATUS F.BIST_STATUS_OVERFLOW (if 4096 < b.recs.length then 1 else 0)
  let t := (t.put R.BIST_STATUS F.BIST_STATUS_HOT (if env.hot then 1 else 0)).put R.BIST_STATUS F.BIST_STATUS_UNUSABLE marks.length
  let t := ((t.put R.BIST_CTL F.BIST_CTL_RETEST 0).wr R.BIST_TIME (BitVec.ofNat 32 env.bistMs)).showFail
  let t := t.raise 0x0084 63 none
    (bytes12 (leBytes 2 (min b.recs.length 0xFFFF) ++ leBytes 2 b.repairs.length ++ leBytes 2 marks.length ++ leBytes 4 env.bistMs))
  if map_ = stored then t
  else
    let seq := match t.repairInForce with | some a => t.flNum a 4 + 1 | none => 1
    t.nvAsk (recordWrites 0 t.now (t.otherCopy 0x1040000 0x1050000 0 t.repairOk) (t.repairBytes seq map_))

/-! ### Step 6: dies, fabric, capability map (R470, R520, R521) -/

/-- Whether a block that is not a unit of a compute die is unusable on a die. -/
def State.dieBad (s : State) (d : Nat) : Bool :=
  s.rel.unusable.any (fun (x : Nat × Nat) => x.1 == d && (decide (40 ≤ d) || x.2 == 0xF0) && decide (x.2 < 0x200))

/-- Whether a failed fabric port stands for a link inside a canton's columns, rows 0-6. -/
def State.linkBad (s : State) (log k : Nat) : Bool :=
  s.rel.unusable.any (fun (x : Nat × Nat) =>
    decide (0x200 ≤ x.2) && match neighbour x.1 (x.2 - 0x200) with
      | some o => decide ((diePos x.1).2 < 7) && decide ((diePos o).2 < 7) && cantonOfCol log (diePos x.1).1 == k && cantonOfCol log (diePos o).1 == k
      | none => false)

/-- Compute dies of a canton in a shape. -/
def cdsOf (log k : Nat) : List Nat := (List.range 40).filter (fun d => cantonOfCol log (d % 8) == k)
/-- Memory dies of a canton in a shape, in the DDIE numbering. -/
def mdsOf (log k : Nat) : List Nat := ((List.range 16).filter (fun m => cantonOfCol log (m % 8) == k)).map (· + 40)

/-- Why a canton is unusable (R520): a die. -/
def State.cantonBad (s : State) (log k : Nat) : Option Nat :=
  match (mdsOf log k).find? (fun d => s.dieBad d) with
  | some d => some d
  | none =>
    if s.linkBad log k then (s.rel.unusable.find? (fun (x : Nat × Nat) => decide (0x200 ≤ x.2))).map (fun (x : Nat × Nat) => x.1)
    else if (cdsOf log k).all (fun d => s.dieBad d) then (cdsOf log k).head? else none

/-- A die or link without which no canton can run (R520): a link die, the HD, the TD, a link of row 7 or to it. -/
def State.moduleBad (s : State) : Option Nat :=
  (s.rel.unusable.find? (fun (x : Nat × Nat) =>
    if x.2 < 0x200 then decide (56 ≤ x.1)
    else match neighbour x.1 (x.2 - 0x200) with
      | some o => decide ((diePos x.1).2 = 7) || decide ((diePos o).2 = 7)
      | none => false)).map (fun (x : Nat × Nat) => x.1)

/-- The capability map (R521). -/
def State.formMap (s : State) (log : Nat) : List Byte :=
  let bad := fun (d b : Nat) => s.rel.unusable.contains (d, b)
  let cantons := (List.range (2 ^ log)).foldl (fun a k => if (s.cantonBad log k).isNone then a + 2 ^ k else a) 0
  let bit := fun (c : Bool) (i : Nat) => if c then 2 ^ i else 0
  let cd := (List.range 40).map (fun d =>
    BitVec.ofNat 8 (bit (!s.dieBad d) 0 + (List.range 6).foldl (fun a i => a + bit (!bad d (0xF1 + i)) (1 + i)) 0))
  let md := (List.range 16).map (fun m => BitVec.ofNat 8 (bit (!s.dieBad (40 + m)) 0 + bit (!bad (40 + m) 0x101) 1 + bit (!bad (40 + m) 0x102) 2))
  let rest := (List.range 8).map (fun i => BitVec.ofNat 8 (bit (!s.dieBad (56 + i)) 0))
  fit 80 (leBytes 2 1 ++ leBytes 1 cantons ++ leBytes 1 (bit (!s.rel.unusable.isEmpty) 0) ++ cd ++ md ++ rest ++
    leBytes 2 (s.rel.repairs.filter (fun e => decide (entryKind e < 2))).length ++ leBytes 2 (min 0xFFFF s.rel.fails.length))

/-- Which dies and arrays are out of use: dies that fail, and every die of an unusable canton (R520). -/
def State.setDead (s : State) (log : Nat) : State :=
  let badK := (List.range (2 ^ log)).filter (fun k => (s.cantonBad log k).isSome)
  let dead := (List.range 56).filter (fun d => s.dieBad d || badK.contains (cantonOfCol log (diePos d).1))
  let t := { s with deadDies := dead }
  let t := t.put R.CONT_STATUS F.CONT_STATUS_UNUSABLE (badK.foldl (fun a k => a + 2 ^ k) 0)
  { t with cds := t.cds.mapFinIdx (fun d c _ =>
      { c with unusable := [0, 1, 2, 3].filter (fun (i : Fin 4) => t.rel.unusable.contains (d, 0xF1 + i.val)) }) }

/-- Step 6: PLLs that do not lock and ports that do not train count as failures; unusable dies and cantons are taken out
of use; the capability map is formed. -/
def State.start6 (s : State) (env : StartEnv) (srst : Bool) : Stage :=
  let log := mcrNum s.pwr.mcr 92 1 % 4
  let t := s.put R.BOOT_STATUS F.BOOT_STATUS_PHASE 4
  let keep := if srst then t.rel.unusable.filter (fun (x : Nat × Nat) => decide (x.2 < 0x200)) else t.rel.unusable
  let more := env.plls.map (fun (d : Fin 64) => (d.val, 0xF0)) ++ env.ports.map (fun (p : Fin 64 × Fin 4) => (p.1.val, 0x200 + p.2.val))
  let t := t.setRel { t.rel with unusable := keep ++ more.filter (fun x => !keep.contains x) }
  let t := { t with inReset := Vector.replicate 64 false }
  let t := (t.setDead log).trainFabric log
  let t := if srst then t else t.setRel { t.rel with capMap := t.formMap log }
  let badK := (List.range (2 ^ log)).filterMap (fun k => (t.cantonBad log k).map (fun d => (k, d)))
  let t := badK.foldl (fun t x => t.raise 0x0387 63 (some x.1) (bytes12 (leBytes 1 x.2))) t
  match t.moduleBad with
  | some d => .error ((t.recoverStart 7).raise 0x038E 63 none (bytes12 (leBytes 1 d)))
  | none =>
    if badK.length = 2 ^ log then
      .error ((t.recoverStart 7).raise 0x038E 63 none (bytes12 (leBytes 1 ((badK.map (fun (x : Nat × Nat) => x.2)).headD 0))))
    else .ok t

/-! ### Step 7: DIMMs (R230-R233) -/

/-- An empty socket. -/
def Dimm_none : Dimm := ⟨false, .udimm, 0, 0, 0, false, 0, 0, 0, false, false, false⟩

/-- Usable MiB of a DIMM (R238): stripes of 1,061 KiB. -/
def usableMib (gib : Nat) : Nat := gib * 2 ^ 20 / 1061

/-- Whether a DIMM is of a kind that R230 supports. -/
def dimmSupported (d : Dimm) : Bool :=
  d.type == .mrdimm && d.bits == 80 && d.device == 4 && (d.phys == 2 || d.phys == 4) && d.sideband &&
    [64, 96, 128, 192, 256].contains d.gib

/-- A socket that makes the population invalid; `use` are the sockets whose channels are checked. -/
def badSocket (mcrSpeed : Nat) (use : List (Nat × Dimm)) : Option Nat :=
  let fitted := use.filter (fun x => x.2.fitted)
  let first := match fitted with | x :: _ => x.2 | [] => Dimm_none
  let full := fitted.any (fun x => x.1 % 2 == 1)
  let rate := fun (d : Dimm) => if mcrSpeed = 1 then d.r88 else if mcrSpeed = 2 then d.r128 else true
  let auto := mcrSpeed != 0 || fitted.all (fun x => x.2.r88) || fitted.all (fun x => x.2.r128)
  match use.find? (fun x =>
    if x.2.fitted then
      !dimmSupported x.2 || x.2.gib != first.gib || x.2.org != first.org ||
        x.2.ranks != first.ranks || !rate x.2 || !x.2.trains
    else full || x.1 % 2 == 0) with
  | some x => some x.1
  | none => if auto then none else (fitted.head?).map (fun x => x.1)

/-- Step 7: the DIMMs of every usable canton are checked and trained. -/
def State.start7 (s : State) (env : StartEnv) : Stage :=
  let t := s.put R.BOOT_STATUS F.BOOT_STATUS_PHASE 5
  let speed := mcrNum t.pwr.mcr 93 1
  let use := (List.range 32).filterMap (fun j => if t.deadDies.contains (40 + j / 2) then none else some (j, env.dimms.getD j Dimm_none))
  match badSocket speed use with
  | some j => .error ((t.recoverStart 5).raise 0x3318 (40 + j / 2) none (detail (j % 2) 0xFFFF 0))
  | none =>
    let fitted := use.filter (fun x => x.2.fitted)
    let first := match fitted with | x :: _ => x.2 | [] => Dimm_none
    let fast := if speed = 0 then fitted.all (fun x => x.2.r128) else speed == 2
    let t := use.foldl (fun t x =>
      let a := R.MC_STATUS (x.1 / 2) (x.1 % 2)
      let on := if x.2.fitted then 1 else 0
      let t := ((t.put a F.MC_STATUS_PRESENT on).put a F.MC_STATUS_TRAINED on).put a F.MC_STATUS_RANKCFG x.2.ranks.val
      t.wr (R.SEAL_DATAMIB (x.1 / 2) (x.1 % 2)) (BitVec.ofNat 32 (if x.2.fitted then usableMib x.2.gib else 0))) t
    -- a channel trained anew is calibrated; L2 mirrors stand on the partner die where every B socket is empty (R248)
    let full := fitted.any (fun x => x.1 % 2 == 1)
    let t := (List.range 16).foldl (fun t m =>
      let e := t.eng (fin16 m)
      (t.setEng (fin16 m) { e with chans := e.chans.map (fun c => { c with stale := false, recalAt := t.now }) }).put
        (R.SEAL_STATUS m) F.SEAL_STATUS_MIRRORX (if full || t.deadDies.contains (40 + m) then 0 else 1)) t
    let a := R.ARCH_CFG
    .ok (((t.put a F.ARCH_CFG_POP32 (if full then 1 else 0)).put a F.ARCH_CFG_DSPEED (if fast then 1 else 0)).put
      a F.ARCH_CFG_DIMM_GIB first.gib)

/-! ### Step 8: the MCR (R29, R33, R40, R353, R486, R542) -/

/-- Size of a canton's slice in MiB. -/
def State.sliceMib (s : State) (log k : Nat) : Nat :=
  if (s.cantonBad log k).isSome then 0
  else (mdsOf log k).foldl (fun a d =>
    a + (s.rd (R.SEAL_DATAMIB (d - 40) 0)).toNat + (s.rd (R.SEAL_DATAMIB (d - 40) 1)).toNat) 0

/-- Slice registers of every canton; those beyond the shape read 0. -/
def State.setSlices (s : State) (log : Nat) (m : List Byte) : State :=
  (List.range 8).foldl (fun t k =>
    let size := if k < 2 ^ log then s.sliceMib log k else 0
    let base := if k < 2 ^ log then (List.range k).foldl (fun a j => a + s.sliceMib log j) 0 else 0
    let spread := if size = 0 then 0 else mcrNum m (100 + 4 * k) 4 * 1024
    ((t.wr (R.ARCH_CANTON_BASE k) (BitVec.ofNat 32 base)).wr (R.ARCH_CANTON_SIZE k) (BitVec.ofNat 32 size)).wr
      (R.ARCH_CANTON_SPREAD k) (BitVec.ofNat 32 spread)) s

/-- Coordinate of an axis in the straps (R542). -/
def strapCoord (straps axis : Nat) : Nat := bitsN straps (7 * axis + 6) (7 * axis)

/-- Whether the 22 strap bits hold an even number of ones (R542). -/
def strapsEven (straps : Nat) : Bool := ((List.range 22).filter (fun i => straps.testBit i)).length % 2 == 0

/-- Step 8: the shape, slices, torus, site ports and host-writable subset of the MCR take effect. -/
def State.start8 (s : State) : Stage :=
  let m := s.pwr.mcr
  let log := mcrNum m 92 1 % 4
  let t := s.put R.BOOT_STATUS F.BOOT_STATUS_PHASE 6
  let len := fun (i : Nat) => mcrNum m (94 + i) 1 + 1
  let st := t.pwr.straps
  let spreadBad := (List.range (2 ^ log)).any (fun k =>
    let size := t.sliceMib log k
    size != 0 && decide (size < mcrNum m (100 + 4 * k) 4 * 1024))
  if 131072 < len 0 * len 1 * len 2 ∨ len 0 ≤ strapCoord st 0 ∨ len 1 ≤ strapCoord st 1 ∨ len 2 ≤ strapCoord st 2 ∨ spreadBad = true then
    t.recover380 4
  else
    let t := (t.put R.ARCH_CFG F.ARCH_CFG_CANTON_LOG2 log).setSlices log m
    let t := { t with
      torusLen := (len 0, len 1, len 2)
      moduleId := strapCoord st 0 + len 0 * (strapCoord st 1 + len 1 * strapCoord st 2)
      hostMask := (List.range (mcrNum m 10 2)).foldl (fun h i => Sparse.set (fun _ => 0) h (mcrEntry m i).1 (BitVec.ofNat 32 (mcrEntry m i).2)) [] }
    let t := (t.wr R.SP_CFG (BitVec.ofNat 32 (mcrNum m 148 4))).wr R.SP_UDP (BitVec.ofNat 32 (mcrNum m 152 2))
    let t := (t.put64 R.SP_PREFIX_LO R.SP_PREFIX_HI (mcrNum m 156 8)).put64 R.SP_RTR_LO R.SP_RTR_HI (mcrNum m 164 8)
    let t := (List.range 6).foldl (fun t l => t.put (R.LK_ARB l) F.LK_ARB_CLOG2 log) t
    let t := if strapsEven st then t else allPorts.foldl (fun t l => (t.put (R.LK_STATUS l) F.LK_STATUS_STATE 3).linkEvent l 0x2245 0 0) t
    .ok (t.put R.BOOT_STATUS F.BOOT_STATUS_PHASE 7)

/-! ### The whole start (R481, R482) -/

/-- Whether a kind of start is a POR: 0 cold, 1 undervoltage, 6 after overvoltage. -/
def porStart (kind : Nat) : Bool := kind == 0 || kind == 1 || kind == 6

/-- Steps 1-8 of the start in progress, those that its kind runs (R482): PHASE 7, or 9 in the recovery profile. -/
def State.startSteps (s : State) (env : StartEnv) : State :=
  let kind := s.pwr.startKind
  let srst := kind == 3
  let t := if srst then s else s.start1 env
  let t := if porStart kind then t.start2 env else t
  let r := do
    let t ← t.start3 srst
    let t ← if srst then pure t else t.start4 (porStart kind) env
    let t := if srst then t else t.start5 env
    let t ← t.start6 env srst
    let t ← t.start7 env
    t.start8
  match r with
  | .ok t => t
  | .error t => (t.wr R.BOOT_TIME (BitVec.ofNat 32 env.ms))

/-- Step 9 (R462, R481, R438): the cores run, every canton is FREE but one whose scrub is unfinished, which completes
steps 3-8; PHASE RUN and 0x0078. -/
def State.start9 (s : State) (env : StartEnv) : State :=
  let t := (s.put R.BOOT_STATUS F.BOOT_STATUS_PHASE 8).put R.BOOT_STATUS F.BOOT_STATUS_RCAUSE 0
  let t := t.setPwr { t.pwr with mode := .running, coresRun := true }
  let t := (List.range t.cantons).foldl (fun t k =>
    if t.flag (R.SCRUB_STATUS k) F.SCRUB_STATUS_PEND then
      (t.scrubErase k).put (R.CPOL_STATUS k) F.CPOL_STATUS_OPFLAGS (if t.sec.owedErase.contains k then 1 else 0)
    else t.put (R.CPOL_STATUS k) F.CPOL_STATUS_STATE 0) t
  (t.wr R.BOOT_TIME (BitVec.ofNat 32 env.ms)).raise 0x0078 63 none (detail t.pwr.startKind 0 env.ms)

/-- Step 10: the torus ports train; those of an axis of length 1 are UNUSED, all stay down after a strap parity error. -/
def State.start10 (s : State) : State :=
  allPorts.foldl (fun t (l : Fin 6) =>
    if t.axisLen (l.val / 2) = 1 then t.put (R.LK_STATUS l) F.LK_STATUS_STATE 0
    else if strapsEven t.pwr.straps then (t.put (R.LK_STATUS l) F.LK_STATUS_STATE 3).startTraining l
    else t) s

end Sys2Proof.Machine
end

