-- ==== Sys2Proof/Machine/Power.lean ====
section
/-! DEFINITION. Resets, quenches and power states (R467-R507, R524-R526, R538). -/
namespace Sys2Proof.Machine

/-! ### What resets do to the module (R500, R504) -/

/-- A reset of every die: DRAM, stores, engines, sessions and keys are lost; registers lose the classes that `lose` names;
the always-on domain, the boot flash, the event log and the identity key stay. -/
def State.allReset (s : State) (lose : Kept → Bool) : State :=
  let t := s.resetRegs (fun _ => true) lose
  { State.reset with
    now := s.now
    regs := t.regs
    events := s.events
    resp := s.resp
    free := s.free
    inReset := Vector.ofFn (fun (i : Fin 64) => decide (i.val < 62))
    deadDies := s.deadDies
    reqNo := s.reqNo
    moduleId := s.moduleId
    torusLen := s.torusLen
    hostMask := s.hostMask
    sec := { SecState.reset with identity := s.sec.identity, probe := s.sec.probe, pufLocked := s.sec.pufLocked, owedErase := s.sec.owedErase }
    host := { HostState.reset with mseq := s.host.mseq }
    pwr := { s.pwr with
      flCmd := none, nvWait := s.pwr.nvWait.filter (fun (w : NvWrite) => w.owner == 1 || w.owner == 2), resetNow := none, resets := [],
      mrstWaits := none, park := [], coresRun := false }
    rel := { s.rel with containAt := [], causes := [] }
    pending := s.pending }

/-- What a POR loses beside a reset of every die (R457, R459, R530): ESEQ starts at 0 with an empty window, the health
counters and MSEQ start anew. -/
def State.porLoss (s : State) : State :=
  ({ s with host := { s.host with mseq := none } }).setRel
    { s.rel with window := [], waiting := [], tokens := 4096, tokenAt := s.now, lost := 0, lostAt := none, flashed := 0, fails := [], counts := [] }

/-- Loss of input power (R494, R504): nothing stays but the boot flash, where a write in progress has completed (R472). -/
def State.coldLoss (s : State) : State :=
  let f := s.nvFinish
  { State.reset with
    now := s.now
    free := s.free
    pwr := { PowerState.reset with flash := f.pwr.flash }
    rel := { RelState.reset with lseq := s.rel.lseq, lgShown := s.rel.lgShown, lgPage := s.rel.lgPage }
    sec := { SecState.reset with probe := s.sec.probe }
    pending := s.pending }

/-- An SRST (R500, R504): compute, memory and link dies are reset; of the trust die and the host-interface die class C and
the per-canton registers are lost; every canton is FREE without keys. -/
def State.srst (s : State) : State :=
  let t := (List.range 40).foldl (fun t d => t.resetCd (fin40 d)) s
  let t := (List.range 16).foldl (fun t m => t.resetMd (fin16 m)) t
  let t := allPorts.foldl (fun t l => t.resetLd l) t
  let t := (List.range 8).foldl (fun t k => ((t.eraseKeys k).resetRegs (cantonView k) loseN).put (R.CPOL_STATUS k) F.CPOL_STATUS_STATE 0) t
  let t := (List.range 8).foldl (fun t k =>
    (((t.put (R.CPOL_STATUS k) F.CPOL_STATUS_CONSENT 0).put (R.CPOL_STATUS k) F.CPOL_STATUS_OPFLAGS 0).put (R.SCRUB_STATUS k) F.SCRUB_STATUS_STEP 0)) t
  let t := t.resetRegs (fun _ => true) (fun k => k == .c)
  let t := (t.put R.CONT_STATUS F.CONT_STATUS_CFATAL 0).put R.PWR_STATUS F.PWR_STATUS_PARKED 0
  { t with
    mem := [], poison := [], groups := [], arbs := [], packets := [], outbox := [], arrived := [], admitted := [], lostSteps := [],
    got := [], busErrs := [], fabRetry := []
    cads := Vector.replicate 8 Cadence.reset
    tables := Vector.replicate 8 []
    jobs := Vector.replicate 8 0
    sites := { SiteEngine.reset with fseqs := t.sites.fseqs }
    host := { t.host with rings := [] }
    inReset := Vector.ofFn (fun (i : Fin 64) => decide (i.val < 62))
    rel := { t.rel with containAt := [] }
    pwr := { t.pwr with park := [], coresRun := false } }

/-! ### The start of a start -/

/-- START and RST_CAUSE of a start that begins: kinds 0 cold POR, 1 undervoltage POR, 2 MRST, 3 SRST, 4 STANDBY exit, 5
after REFCLK loss, 6 after overvoltage. -/
def State.beginStart (s : State) (kind last : Nat) : State :=
  let t := if kind = 0 then s.coldLoss
    else if kind = 3 then s.srst
    else if porStart kind then (s.allReset loseWCN).porLoss else s.allReset loseCN
  let t := (t.put R.BOOT_STATUS F.BOOT_STATUS_START kind).put R.RST_CAUSE F.RST_CAUSE_LAST last
  let t := if kind = 0 then t else t.bump R.BOOT_STATUS F.BOOT_STATUS_STARTS 1
  let t := if kind = 0 ∨ porStart kind = true then t else t.bump R.RST_COUNT F.RST_COUNT_RESETS 1
  let t := (t.put R.SF_STATUS F.SF_STATUS_QUENCHED 0).put R.SF_STATUS F.SF_STATUS_QHOLD 0
  let t := t.put R.BOOT_STATUS F.BOOT_STATUS_PHASE (if kind = 3 then 4 else 0)
  t.setPwr { t.pwr with mode := .starting, startKind := kind, startAt := t.now, lastCode := last }

/-- Event 0x007D: kind (0 POR, else as RST_CMD.KIND) and source: 0 input power, 1 pin, 2 host, 3 management, 4 canton, 5
trust die. -/
def State.resetEvent (s : State) (kind src : Nat) : State := s.raise 0x007D 63 none (detail kind src 0)

/-- A whole start: reset, then the steps. -/
def State.startNow (s : State) (kind last src : Nat) (env : StartEnv) : State :=
  ((s.beginStart kind last).resetEvent (if porStart kind then 0 else if kind = 3 then 2 else 1) src).startSteps env

/-- POWER_ON (R481): the input above 43.5 V for 1 ms with REFCLK starts a module without power: cold POR. -/
def execPowerOn (env : StartEnv) (s : State) : Out :=
  if s.pwr.mode = .off then .next (s.startNow 0 0 0 env) else .next s

/-! ### Reset requests (R500-R502) -/

/-- Whether one reset includes another (R500); every reset includes its like. -/
def State.includes (s : State) (a b : ResetReq) : Bool :=
  a == b || a.kind == 1 ||
    (a.kind == 2 && (b.kind == 3 || b.kind == 5 || (b.kind == 4 && decide (b.idx < 62)))) ||
    (a.kind == 3 && b.kind == 4 && decide (b.idx < 40) && s.colCanton (b.idx % 8) == a.idx) ||
    (a.kind == 4 && b.kind == 5 && a.idx == 56 + b.idx)

/-- Dies put into reset or taken out of it; the fabric ports beside them fall, or train again (R40). -/
def State.holdDies (s : State) (ds : List Nat) (hold : Bool) : State :=
  if ds.isEmpty then s
  else
    let t := { s with inReset := s.inReset.mapFinIdx (fun i x _ => if ds.contains i then hold else x) }
    t.trainFabric t.cantonLog

/-- Dies that a reset holds. -/
def State.resetDies (s : State) (r : ResetReq) : List Nat :=
  if r.kind = 3 then s.cantonCds r.idx ++ (s.cantonMds r.idx).map (fun m => 40 + m) else if r.kind = 4 then [r.idx] else []

/-- What a reset does when it begins. A DRST of a memory die is a CRST of its canton (R501). -/
def State.runReset (s : State) (r : ResetReq) : State :=
  if r.kind = 1 then s.beginStart 2 5
  else if r.kind = 2 then s.beginStart 3 6
  else if r.kind = 3 then (s.crst r.idx).holdDies (s.resetDies r) true
  else if r.kind = 4 then
    if r.idx < 40 then
      let t := (s.resetCd (fin40 r.idx)).holdDies [r.idx] true
      let k := t.colCanton (r.idx % 8)
      if t.polState k = 1 then t.seedDie (t.canton k).seed r.idx else t
    else if r.idx < 62 then (s.resetLd (fin6 (r.idx - 56))).holdDies [r.idx] true
    else s.resetHd.holdDies [r.idx] true
  else s.startTraining (fin6 r.idx)

/-- A reset that begins now, with its event. -/
def State.startReset (s : State) (r : ResetReq) (src : Nat) : State :=
  let t := s.runReset r
  (t.setPwr { t.pwr with resetNow := some r }).resetEvent r.kind src

/-- A reset request (R502): before RUN only an MRST is taken, which a start by POR or MRST includes; one that the reset in progress includes is discarded, one
that includes it aborts it, another waits. -/
def State.askReset (s : State) (r : ResetReq) (src : Nat) : State × Bool :=
  if s.get R.BOOT_STATUS F.BOOT_STATUS_PHASE ≠ 8 ∧ (r.kind ≠ 1 ∨ (s.pwr.mode = .starting ∧ s.pwr.startKind ≠ 3)) then (s, false)
  else match s.pwr.resetNow with
    | none => (s.startReset r src, true)
    | some n =>
      if s.includes n r then (s, false)
      else if s.includes r n then (s.startReset r src, true)
      else (s.setPwr { s.pwr with resets := s.pwr.resets ++ [r] }, false)

/-- Source number of a view. -/
def viewSrc : View → Nat
  | .host => 2
  | .mgmt => 3
  | .core _ => 4
  | _ => 5

/-- Whether a view may ask for a reset (R500): the host and the management port for any, a canton for a CRST of itself
and a DRST of its own compute dies. -/
def State.mayReset (s : State) (v : View) (r : ResetReq) : Bool :=
  match v with
  | .host => true
  | .mgmt => true
  | .td => true
  | .core d => (r.kind == 3 && r.idx == s.cdCanton d) || (r.kind == 4 && decide (r.idx < 40) && s.colCanton (r.idx % 8) == s.cdCanton d)
  | .safety => false

/-- A reset request of a view. -/
def State.viewReset (s : State) (v : View) (r : ResetReq) : State × Bool :=
  if s.mayReset v r && !s.dark then s.askReset r (viewSrc v) else (s, false)

/-- RST_MRST (R500, R502): an MRST that finds a flash operation in progress waits for it. -/
def execRstMrst (v : View) (env : StartEnv) (s : State) : Out :=
  if s.pwr.nv.isSome ∧ s.mayReset v ⟨1, 0⟩ = true ∧ (s.pwr.mode ≠ .starting ∨ s.pwr.startKind = 3) ∧ s.dark = false then
    .next (s.setPwr { s.pwr with mrstWaits := some 5 })
  else
    let r := s.viewReset v ⟨1, 0⟩
    .next (if r.2 then r.1.startSteps env else r.1)

/-- RST_SRST (R500): from the host. -/
def execRstSrst (v : View) (env : StartEnv) (s : State) : Out :=
  let r := s.viewReset v ⟨2, 0⟩
  .next (if r.2 then r.1.startSteps env else r.1)

/-- RST_CRST (R500). -/
def execRstCrst (v : View) (k : Fin 8) (s : State) : Out :=
  if k.val < s.cantons then .next (s.viewReset v ⟨3, k⟩).1 else .next s

/-- RST_DRST (R500, R501): one compute, link or host-interface die; a memory die's is a CRST; the trust die has none. -/
def execRstDrst (v : View) (die : Fin 64) (s : State) : Out :=
  if die.val = 63 then .next s
  else if 40 ≤ die.val ∧ die.val < 56 then .next (s.viewReset v ⟨3, s.colCanton (diePos die).1⟩).1
  else .next (s.viewReset v ⟨4, die⟩).1

/-- RST_LRST (R500): one torus port retrains. -/
def execRstLrst (v : View) (port : Fin 6) (s : State) : Out := .next (s.viewReset v ⟨5, port⟩).1

/-- The reset in progress finishes: its dies leave reset, the next waiting request runs. -/
def State.finishReset (s : State) : State :=
  match s.pwr.resetNow with
  | none => s
  | some r =>
    let t := (s.holdDies (s.resetDies r) false).setPwr { s.pwr with resetNow := none }
    match t.pwr.resets with
    | [] => t
    | n :: rest => ((t.setPwr { t.pwr with resets := rest }).askReset n 5).1

/-- RESET_COMPLETE (R502): not before the start of an MRST or SRST is complete. -/
def execResetComplete (s : State) : Out := if s.pwr.mode = .starting then .next s else .next s.finishReset

/-- START_UP_COMPLETE (R481): steps 9 and 10; the steps before them where they have not run yet. -/
def execStartUpComplete (env : StartEnv) (s : State) : Out :=
  if s.pwr.mode = .starting then
    let t := if s.get R.BOOT_STATUS F.BOOT_STATUS_PHASE = 7 then s else s.startSteps env
    if t.get R.BOOT_STATUS F.BOOT_STATUS_PHASE = 7 then .next ((t.start9 env).start10).finishReset else .next t
  else .next s

/-- A start that meets nothing. -/
def quietEnv : StartEnv := ⟨0, 0, 0, true, true, [], false, 0, [], [], [], 0⟩

/-- PLL_LOCK_TIMEOUT (R470): the die counts as one that fails BIST. -/
def execPllLockTimeout (die : Fin 64) (s : State) : Out :=
  if s.pwr.mode = .starting then
    let phase := s.get R.BOOT_STATUS F.BOOT_STATUS_PHASE
    match s.start6 { quietEnv with plls := [die] } false with
    | .ok t =>
      let t := if phase = 7 then t.setSlices (mcrNum t.pwr.mcr 92 1 % 4) t.pwr.mcr else t
      .next (t.put R.BOOT_STATUS F.BOOT_STATUS_PHASE phase)
    | .error t => .next t
  else .next s

/-! ### Pins and clocks (R471, R489, R538) -/

/-- The module held in reset by MRST_N. -/
def State.pinHold (s : State) : State :=
  let kind := if s.pwr.mode = .standby then 4 else 2
  let t := s.allReset loseCN
  t.setPwr { t.pwr with mode := .mrstLow, startKind := kind }

/-- MRST_N_ASSERT (R538): low for 10 µs; a flash operation in progress completes first (R502). -/
def execMrstNAssert (s : State) : Out :=
  if s.pwr.mode = .off ∨ s.pwr.mode = .undervolt then .next s
  else if s.pwr.nv.isSome then .next (s.setPwr { s.pwr with mrstWaits := some 4 })
  else .next s.pinHold

/-- MRST_N_RELEASE (R538): the rising edge begins the start. -/
def execMrstNRelease (env : StartEnv) (s : State) : Out :=
  if s.pwr.mode = .mrstLow then .next (s.startNow s.pwr.startKind 4 1 env)
  else if s.pwr.mrstWaits = some 4 then .next (s.setPwr { s.pwr with mrstWaits := some 9 })
  else .next s

/-- NV_WRITE_COMPLETE (R498, R502): the slot is free; an MRST that waited takes effect. -/
def execNvWriteComplete (s : State) : Out :=
  let t := s.nvFinish.deferSync
  match s.pwr.nv, t.pwr.mrstWaits with
  | some _, some 4 => .next t.pinHold
  | some _, some 9 => .next ((t.beginStart (if t.pwr.mode = .standby then 4 else 2) 4).resetEvent 1 1)
  | some _, some _ => .next ((t.setPwr { t.pwr with mrstWaits := none }).askReset ⟨1, 0⟩ 2).1
  | _, _ => .next t

/-- WAKE_ASSERT (R489, R538): WAKE_N acts in STANDBY alone. -/
def execWakeAssert (env : StartEnv) (s : State) : Out :=
  if s.pwr.mode = .standby then .next (s.startNow 4 5 1 env) else .next s

/-! ### Quenches (R524-R526) -/

/-- Cause number i of SF_QLAST. -/
def causeOf (i : Nat) : QuenchCause :=
  if i = 0 then .overcurrent else if i = 1 then .overtemp else if i = 2 then .overvolt else if i = 3 then .refclk else .slowPath

/-- Causes of a bitmap. -/
def causesOf (bits : Nat) : List QuenchCause := ((List.range 5).filter (fun i => bits.testBit i)).map causeOf

/-- A quench: every clock of the package stops and every unit freezes. Its causes are recorded at the first trip; later
ones only hold the restart. More than SF_QLIMIT within 3,600 s leave the module held. -/
def State.quench (s : State) (bits monitor gasp : Nat) (mode : PowerMode) : State :=
  let more := (causesOf bits).filter (fun c => !s.rel.causes.contains c)
  if s.flag R.SF_STATUS F.SF_STATUS_QUENCHED then s.setRel { s.rel with causes := s.rel.causes ++ more }
  else
    let recent := s.now :: s.rel.quenches.filter (fun t => decide (s.now < t + 3600 * secTicks))
    let t := s.wr R.SF_QLAST (BitVec.ofNat 32 (bits % 32 + monitor % 256 * 256))
    let t := (t.put R.SF_STATUS F.SF_STATUS_QUENCHED 1).bump R.SF_QCOUNT F.SF_QCOUNT_TOTAL 1
    let t := t.put R.SF_QCOUNT F.SF_QCOUNT_RECENT (min 255 recent.length)
    let t := t.setRel { t.rel with causes := more, quenchAt := t.now, quenches := recent }
    let t := ((t.setPwr { t.pwr with mode := mode }).raise 0x0389 63 none (bytes12 (leBytes 4 (t.rd R.SF_QLAST).toNat))).lastGasp gasp
    if t.get R.SF_QLIMIT F.SF_QLIMIT_COUNT < recent.length then
      let t := (t.put R.SF_STATUS F.SF_STATUS_QHOLD 1).setPwr { t.pwr with mode := .held }
      ({ t with inReset := Vector.replicate 64 true }).raise 0x038A 63 none (bytes12 (leBytes 4 (t.rd R.SF_QCOUNT).toNat))
    else t

/-- Whether the module's dies have clocks that a quench can stop. -/
def State.clocked (s : State) : Bool := s.pwr.mode == .starting || s.pwr.mode == .running || s.pwr.mode == .off

/-- QUENCH (R524): causes in the order of SF_QLAST, and the first monitor to trip. -/
def execQuench (causes : BitVec 5) (monitor : BitVec 8) (s : State) : Out :=
  if (s.clocked || s.flag R.SF_STATUS F.SF_STATUS_QUENCHED) && causes != 0 then .next (s.quench causes.toNat monitor.toNat 4 .quenched)
  else .next s

/-- REFCLK_LOSS (R471): a quench, and the always-on domain runs from its oscillator; in STANDBY only the event. -/
def execRefclkLoss (s : State) : Out :=
  let t := ((s.put R.CLK_STATUS F.CLK_STATUS_REFOK 0).put R.CLK_STATUS F.CLK_STATUS_RCOSC 1).bump R.CLK_STATUS F.CLK_STATUS_LOSSES 1
  let t := t.raise 0x0381 63 none (detail 0 0 (t.get R.CLK_STATUS F.CLK_STATUS_LOSSES))
  .next (if s.clocked || s.flag R.SF_STATUS F.SF_STATUS_QUENCHED then t.quench 8 221 3 .noRef else t)

/-- A cause of a quench that has cleared. -/
def State.causeGone (s : State) (c : QuenchCause) : State := s.setRel { s.rel with causes := s.rel.causes.filter (fun x => x != c) }

/-- REFCLK_RESTORE (R471): 10 ms of REFCLK start the module by MRST, once no other cause of a quench is left (R525). -/
def execRefclkRestore (env : StartEnv) (s : State) : Out :=
  let t := s.causeGone .refclk
  if s.pwr.mode = .noRef then
    .next (if t.rel.causes.isEmpty then t.startNow 5 3 0 env else t.setPwr { t.pwr with mode := .quenched })
  else if s.pwr.mode = .standby ∧ s.flag R.CLK_STATUS F.CLK_STATUS_REFOK = false then .next (t.startNow 5 3 0 env)
  else .next (t.put R.CLK_STATUS F.CLK_STATUS_REFOK 1)

/-- OVERVOLTAGE (R496): a quench; the restart is as after an undervoltage POR. -/
def execOvervoltage (s : State) : Out :=
  if s.clocked || s.flag R.SF_STATUS F.SF_STATUS_QUENCHED then
    let t := (s.quench 4 0 2 .overvolt).put R.RST_CAUSE F.RST_CAUSE_LAST 2
    .next (t.raise 0x0383 63 none (detail 0 0 (t.get R.PWR_VIN F.PWR_VIN_MV)))
  else .next s

/-- OVERVOLTAGE_RECOVERY (R496): the input within 44-58 V for 100 ms. -/
def execOvervoltageRecovery (env : StartEnv) (s : State) : Out :=
  let t := s.causeGone .overvolt
  if s.pwr.mode = .overvolt then
    .next (if t.rel.causes.isEmpty then t.startNow 6 2 0 env else t.setPwr { t.pwr with mode := .quenched })
  else .next t

/-- Throttle temperature (R484); 105 °C without an MCR. -/
def State.throtC (s : State) : Nat := if s.pwr.mcr.isEmpty then 105 else mcrNum s.pwr.mcr 97 1

/-- Whether every sensor that has been read is below a temperature (0xFF: not read). -/
def allBelow (l : List Nat) (t : Nat) : Bool := l.all (fun x => x == 0xFF || decide (x < t))

/-- Whether every cause of the quench has cleared (R525). -/
def State.quenchOver (s : State) : Bool :=
  let hot := s.rel.causes.contains .overtemp || s.rel.causes.contains .slowPath
  !s.rel.causes.contains .overvolt && !s.rel.causes.contains .refclk &&
    (!s.rel.causes.contains .overcurrent || decide (s.rel.quenchAt + secTicks ≤ s.now)) &&
    (!hot || (allBelow s.rel.temps.toList (s.throtC - 9) && allBelow s.rel.dimmTemps.toList (s.get R.SF_DIMMMAX F.SF_DIMMMAX_TEMP - 9)))

/-- QUENCH_RESTART (R503, R525): the reset that includes every reset the causes and an abandoned start call for. -/
def execQuenchRestart (env : StartEnv) (s : State) : Out :=
  if s.pwr.mode = .quenched ∧ s.quenchOver = true then
    let q := (s.rd R.SF_QLAST).toNat
    let phase := s.get R.BOOT_STATUS F.BOOT_STATUS_PHASE
    let old := s.pwr.startKind
    if q.testBit 2 then .next (s.startNow 6 2 0 env)
    else if phase < 8 ∧ porStart old = true ∧ old ≠ 0 then .next (s.startNow old s.pwr.lastCode 0 env)
    else if phase < 8 ∧ old = 0 then
      .next ((((s.beginStart 1 0).put R.BOOT_STATUS F.BOOT_STATUS_START 0).resetEvent 0 5).startSteps env)
    else if q.testBit 3 then .next (s.startNow 5 3 5 env)
    else if phase < 8 ∧ old ≠ 3 then .next (s.startNow old s.pwr.lastCode 5 env)
    else if phase = 9 then .next (s.startNow 2 5 5 env)
    else .next (s.startNow 3 7 5 env)
  else .next s

/-! ### The 48 V input (R494, R495) -/

/-- THROTTLED entered, with its cause class: 0 supply, 1 thermal. -/
def State.enterThrottle (s : State) (cause : Nat) : State :=
  if s.throttled then s
  else ((s.put R.PWR_STATUS F.PWR_STATUS_STATE 1).bump R.PWR_DIPS F.PWR_DIPS_THROTTLES 1).raise 0x0079 63 none (detail cause 0 0)

/-- Lowest sample of the input. -/
def State.vinLow (s : State) (mv : Nat) : State := s.put R.PWR_VIN F.PWR_VIN_MINMV (min (s.get R.PWR_VIN F.PWR_VIN_MINMV) mv)

/-- SUPPLY_WARNING (R494): the input below 42.0 V. -/
def execSupplyWarning (mv : BitVec 16) (s : State) : Out :=
  let t := (s.put R.PWR_STATUS F.PWR_STATUS_SUPPLY 1).vinLow mv.toNat
  .next ((t.setPwr { t.pwr with dipMin := min t.pwr.dipMin mv.toNat }).enterThrottle 0)

/-- SUPPLY_WARNING_CLEAR (R494): the input above 43.5 V for 1 ms; the dip is counted. `lowest` is its lowest sample. -/
def execSupplyWarningClear (lowest : BitVec 16) (s : State) : Out :=
  if s.flag R.PWR_STATUS F.PWR_STATUS_SUPPLY then
    let low := min s.pwr.dipMin lowest.toNat
    let t := ((s.put R.PWR_STATUS F.PWR_STATUS_SUPPLY 0).bump R.PWR_DIPS F.PWR_DIPS_DIPS 1).vinLow low
    .next ((t.setPwr { t.pwr with dipMin := 0xFFFF }).raise 0x007B 63 none (detail 0 0 low))
  else .next s

/-- UNDERVOLTAGE (R495): the rails go off, every die is reset, the always-on domain runs on the bank. Classes C and N are
lost here, class W when the input returns. -/
def execUndervoltage (s : State) : Out :=
  if s.pwr.mode = .off ∨ s.pwr.mode = .undervolt then .next s
  else
    let t := (s.lastGasp 1).allReset loseCN
    let t := (t.put R.RST_CAUSE F.RST_CAUSE_LAST 1).bump R.RST_COUNT F.RST_COUNT_UVPOR 1
    .next ((t.setPwr { t.pwr with mode := .undervolt }).raise 0x0382 63 none (detail 0 0 0))

/-- INPUT_RECOVERY (R495): after an undervoltage POR the input has stayed above 43.5 V for 1 ms. -/
def execInputRecovery (env : StartEnv) (s : State) : Out :=
  if s.pwr.mode = .undervolt then .next (s.startNow 1 1 0 env) else .next s

/-- ALWAYS_ON_POWER_LOSS (R494): below 12.0 V the always-on domain loses power. -/
def execAlwaysOnPowerLoss (s : State) : Out := .next s.coldLoss

/-! ### THROTTLED, power caps (R489, R490) -/

/-- The thermal throttle entered. -/
def State.thermal (s : State) : State :=
  let t := s.setPwr { s.pwr with coolAt := s.now }
  (t.put R.PWR_STATUS F.PWR_STATUS_THERMAL 1).enterThrottle 1

/-- THERMAL_THROTTLE (R489): a die sensor at or above THROT_C. -/
def execThermalThrottle (die : Fin 64) (temp : BitVec 8) (s : State) : Out :=
  if s.throtC ≤ temp.toNat then .next (s.setRel { s.rel with temps := s.rel.temps.set die temp.toNat }).thermal else .next s

/-- THROTTLE_EXIT (R489): every cause cleared: no supply warning, every sensor below THROT_C − 5 °C for 100 ms. -/
def execThrottleExit (s : State) : Out :=
  let thermal := s.flag R.PWR_STATUS F.PWR_STATUS_THERMAL
  if s.throttled = true ∧ s.flag R.PWR_STATUS F.PWR_STATUS_SUPPLY = false ∧
      (thermal = false ∨ (allBelow s.rel.temps.toList (s.throtC - 5) = true ∧ s.pwr.coolAt + 100 * msTicks ≤ s.now)) then
    .next (((s.put R.PWR_STATUS F.PWR_STATUS_STATE 0).put R.PWR_STATUS F.PWR_STATUS_THERMAL 0).raise 0x007A 63 none (detail 0 0 0))
  else .next s

/-- POWER_CAP_ADJUST (R490): FRAC after a 1 ms average of canton k's power. -/
def execPowerCapAdjust (k : Fin 8) (watts : BitVec 16) (s : State) : Out :=
  let a := R.PWR_CANTON k
  let cap := mcrNum s.pwr.mcr (132 + 2 * k.val) 2
  let t := s.put a F.PWR_CANTON_WATTS watts.toNat
  let f := t.get a F.PWR_CANTON_FRAC
  let mark := fun (t : State) => t.setPwr { t.pwr with capAt := t.pwr.capAt.set k t.now }
  if cap = 0 then .next (t.put a F.PWR_CANTON_FRAC 7)
  else if cap < watts.toNat then .next (mark (t.put a F.PWR_CANTON_FRAC (f - 1)))
  else if 95 * cap ≤ 100 * watts.toNat then .next (mark t)
  else if t.pwr.capAt[k] + 10 * msTicks ≤ t.now then .next (mark (t.put a F.PWR_CANTON_FRAC (min 7 (f + 1))))
  else .next t

/-! ### PARKED and STANDBY (R491-R493) -/

/-- Event 0x007C: 0 parked, 1 unparked, 2 abandoned, 3 STANDBY refused; the canton. -/
def State.parkEvent (s : State) (what k : Nat) : State := s.raise 0x007C 63 (some k) (detail what k 0)

/-- PARK (R491): canton k is to be parked once quiesced. -/
def execPark (k : Fin 8) (s : State) : Out :=
  if k.val < s.cantons ∧ s.parked k = false ∧ s.pwr.mode = .running ∧ s.pwr.park.all (fun (x : Nat × Nat) => x.1 != k.val) = true then
    .next (s.setPwr { s.pwr with park := s.pwr.park ++ [(k.val, s.now)] })
  else .next s

/-- Whether canton k is quiesced (R491). -/
def State.quiesced (s : State) (k : Nat) : Bool :=
  (s.cantonCds k).all (fun d =>
    let c := s.cd (fin40 d)
    [0, 1, 2, 3].all (fun (q : Fin 4) => let x := s.qState (fin40 d) q; x == 0 || x == 4 || x == 6) &&
      [0, 1, 2, 3, 4, 5, 6, 7].all (fun (u : Fin 8) => (c.fifo u).isEmpty) && c.drains.isEmpty && c.dma.isEmpty) &&
    !s.ringBusy k && !s.groups.any (fun x => s.gCanton x.1 == k && !x.2.ops.isEmpty) &&
    (s.cantonMds k).all (fun m =>
      let u := (s.md (fin16 m)).ue
      let x := s.exch[fin16 m]
      u.landed.isEmpty && u.burst.isNone && u.cmd.isNone && u.stagedGrans.isEmpty && x.items.isEmpty && x.rounds.isEmpty &&
        x.leads.all (fun (l : SxLead) => l.openAt.isNone))

/-- PARKED bit of a canton. -/
def State.setParked (s : State) (k : Nat) (on : Bool) : State :=
  let p := s.get R.PWR_STATUS F.PWR_STATUS_PARKED
  s.put R.PWR_STATUS F.PWR_STATUS_PARKED (if on then p ||| 2 ^ k else if p.testBit k then p - 2 ^ k else p)

/-- Entry to PARKED (R491, R264): the seal engines park; classes W and C and the keys are kept; all else of the dies is
lost. -/
def State.parkCanton (s : State) (k : Nat) : State :=
  let t := (s.cantonMds k).foldl (fun t m => t.sealPark (fin16 m)) s
  let t := (s.cantonCds k).foldl (fun t d => t.zeroCd (fin40 d) true) t
  let t := (s.cantonMds k).foldl (fun t m =>
    let u := t.zeroMd (fin16 m)
    u.setEng (fin16 m) { u.eng (fin16 m) with asleep := true, ptab := (t.eng (fin16 m)).ptab }) t
  let dies := s.cantonCds k ++ (s.cantonMds k).map (fun m => 40 + m)
  -- what the seal engine keeps beside its keys: KEYS, TREE, CCFATAL and the generation of its reinitialisations
  let keep := (s.cantonMds k).flatMap (fun m => [(R.SEAL_STATUS m, s.rd (R.SEAL_STATUS m) &&& 0x17), (R.SEAL_GEN m, s.rd (R.SEAL_GEN m))])
  let t := t.resetRegs (fun a => match regDie a with | some d => dies.contains d | none => false) loseN
  let t := keep.foldl (fun t p => t.wr p.1 p.2) t
  let t := (s.cantonMds k).foldl (fun t m => t.syncPoison (fin16 m)) t
  let t := t.setCanton k { t.canton k with images := (t.canton k).images.map (fun i => { i with runs := false }) }
  let t := t.setParked k true
  (t.trainFabric t.cantonLog).parkEvent 0 k

/-- PARK_QUIESCE_CHECK (R491): every 1 ms; after 1 s the request is abandoned. -/
def execParkQuiesceCheck (k : Fin 8) (s : State) : Out :=
  match s.pwr.park.find? (fun (x : Nat × Nat) => x.1 == k.val) with
  | none => .next s
  | some (_, since) =>
    let t := s.setPwr { s.pwr with park := s.pwr.park.filter (fun (x : Nat × Nat) => x.1 != k.val) }
    if s.quiesced k then .next (t.parkCanton k)
    else if since + secTicks ≤ s.now then .next (t.parkEvent 2 k)
    else .next s

/-- UNPARK (R492): power-up, zeroisation, keys, the park area verified (`ok`, per memory die), generators reseeded. -/
def execUnpark (k : Fin 8) (bad : List (Fin 16)) (s : State) : Out :=
  if s.parked k then
    let t := s.setParked k false
    let t := (t.cantonCds k).foldl (fun t d => t.zeroCd (fin40 d) true) t
    let t := if t.polState k = 1 then t.seedCanton k else t
    let t := (t.cantonMds k).foldl (fun t m => t.sealUnpark (fin16 m) (!bad.contains (fin16 m))) t
    .next ((t.trainFabric t.cantonLog).parkEvent 1 k)
  else .next (s.setPwr { s.pwr with park := s.pwr.park.filter (fun (x : Nat × Nat) => x.1 != k.val) })

/-- STANDBY (R493): only while every canton is FREE. -/
def execStandby (s : State) : Out :=
  if s.pwr.mode = .running ∧ s.throttled = false ∧ s.get R.BOOT_STATUS F.BOOT_STATUS_PHASE = 8 ∧
      (List.range 8).all (fun k => s.polState k == 0) = true then
    let t := s.allReset loseCN
    .next (t.setPwr { t.pwr with mode := .standby })
  else .next (s.raise 0x007C 63 none (detail 3 0 0))

/-- PWR_VIN_READ (R507): MINMV is returned and its tracking restarts. -/
def execPwrVinRead (s : State) : Out :=
  .next { s.put R.PWR_VIN F.PWR_VIN_MINMV 0xFFFF with resp := .value (s.rd R.PWR_VIN) }

end Sys2Proof.Machine
end

