-- ==== Sys2Proof/Machine/Events.lean ====
section
/-! DEFINITION. The event log, containment, the safety core and paired register reads (R10, R457, R508-R532). -/
namespace Sys2Proof.Machine

/-! ### The host event ring (R457) -/

/-- Records of the host event ring. -/
def State.evqSize (s : State) : Nat := 2 ^ (6 + s.get R.HI_EVQ_CTL F.HI_EVQ_CTL_SIZE)

/-- EVENT_RING_WRITE: a record into the host's ring; where it is full the record is counted in DROP, and 0x1066 raised once
per overflow. Vector 0 follows at most once per HOLDOFF. -/
def State.evqWrite (s : State) (r : EvRecord) : State :=
  if s.flag R.HI_EVQ_CTL F.HI_EVQ_CTL_EN = false ∨ s.get R.HI_LINK F.HI_LINK_MODE = 0 then s
  else
    let head := s.get R.HI_EVQ_HEAD F.HI_EVQ_HEAD_INDEX
    let tail := s.get R.HI_EVQ_TAIL F.HI_EVQ_TAIL_INDEX
    if min s.evqSize 65535 ≤ (tail + 2 ^ 16 - head) % 2 ^ 16 then
      let t := s.bump R.HI_EVQ_DROP F.HI_EVQ_DROP_COUNT 1
      if t.host.overflow then t
      else (t.setHost { t.host with overflow := true }).raise 0x1066 62 none (detail 0 0 (t.rd R.HI_EVQ_DROP).toNat)
    else
      let base := s.get R.HI_EVQ_BASE_LO F.HI_EVQ_BASE_LO_ADDR * 4096 + (s.rd R.HI_EVQ_BASE_HI).toNat * 2 ^ 32
      let t := s.setHost { s.host with overflow := false, writes := s.host.writes ++ [(base + 32 * (tail % s.evqSize), r.bytes)] }
      let t := t.put R.HI_EVQ_TAIL F.HI_EVQ_TAIL_INDEX ((tail + 1) % 2 ^ 16)
      if t.holdoffOver then t.evqIrq else t.setHost { t.host with owed := true }

/-! ### The log (R508-R512) -/

/-- Ticks of one token of the copy budget: 64 a second. -/
def tokenTicks : Nat := 65625000

/-- Tokens counted up to now, 4,096 at most. -/
def State.refill (s : State) : State :=
  let n := (s.now - s.rel.tokenAt) / tokenTicks
  s.setRel { s.rel with tokens := min 4096 (s.rel.tokens + n), tokenAt := s.rel.tokenAt + n * tokenTicks }

/-- A record that is not copied to the flash (R512). -/
def State.loseRecord (s : State) : State :=
  (s.bump R.EVL_UNSTORED F.EVL_UNSTORED_COUNT 1).setRel { s.rel with lost := s.rel.lost + 1 }

/-- Losses reported, at most once per 60 s. -/
def State.tellLosses (s : State) : State :=
  let due := match s.rel.lostAt with
    | none => true
    | some t => decide (t + 60 * secTicks ≤ s.now)
  if 0 < s.rel.lost ∧ due = true then
    (s.setRel { s.rel with lost := 0, lostAt := some s.now }).raise 0x008F 63 none (bytes12 (leBytes 4 s.rel.lost))
  else s

/-- A record that is copied waits for a page: categories 3 and 4 always, others while the budget holds a token. -/
def State.copyRecord (s : State) (eseq cat : Nat) : State :=
  let t := s.refill
  if 3 ≤ cat then t.setRel { t.rel with waiting := t.rel.waiting ++ [(eseq, t.now)] }
  else if 0 < t.rel.tokens then t.setRel { t.rel with waiting := t.rel.waiting ++ [(eseq, t.now)], tokens := t.rel.tokens - 1 }
  else t.loseRecord

/-- A record put into the RAM window: the newest 4,096 stay; one that leaves before it was copied is lost. -/
def State.windowPut (s : State) (r : EvRecord) : State :=
  let gone := s.rel.window[4095]?
  let t := s.setRel { s.rel with window := r :: s.rel.window.take 4095 }
  match gone with
  | some o =>
    if t.rel.waiting.any (fun (w : Nat × Nat) => w.1 == o.eseq) then
      (t.setRel { t.rel with waiting := t.rel.waiting.filter (fun (w : Nat × Nat) => w.1 != o.eseq) }).loseRecord
    else t
  | none => t

/-- Health counter of a category and a canton (R530). -/
def State.countEvent (s : State) (e : Event) : State :=
  let i := 8 * (e.canton.getD 8) + evCategory e.code
  let n := Sparse.get (fun _ => 0) s.rel.counts i
  (s.setRel { s.rel with counts := Sparse.set (fun _ => 0) s.rel.counts i (min 0xFFFFFFFF (n + 1)) }).showHealth

/-- An event logged: ESEQ, the window, the copy, the host ring, vector 1 for fatal events and alarms. -/
def State.logEvent (s : State) (e : Event) : State :=
  let eseq := s.get64 R.EVL_NEXT_LO R.EVL_NEXT_HI
  let r : EvRecord := ⟨e, eseq, s.hostNs, false⟩
  let t := s.add64 R.EVL_NEXT_LO R.EVL_NEXT_HI 1
  let t := ((t.windowPut r).copyRecord eseq (evCategory e.code)).countEvent e
  let t := (t.evqWrite r).showRecord
  let t := if 3 ≤ evCategory e.code then t.msix 1 else t
  t.tellLosses

/-! ### Containment (R527-R529) -/

/-- CANTON_CONTAIN (R528): queues and unit FIFOs stopped, CFATAL, 0x0388 with the first event's code, vector 1, the
automatic CRST due. -/
def State.contain (s : State) (k code : Nat) : State :=
  let t := s.stopQueues k
  let t := (t.cantonCds k).foldl (fun t d => t.setCd (fin40 d) { t.cd (fin40 d) with stopped := Vector.replicate 8 true }) t
  let t := t.put R.CONT_STATUS F.CONT_STATUS_CFATAL (t.get R.CONT_STATUS F.CONT_STATUS_CFATAL ||| 2 ^ k)
  let t := (t.raise 0x0388 63 (some k) (bytes12 (leBytes 2 code))).msix 1
  if (t.get R.CONT_CTL F.CONT_CTL_AUTOCRST).testBit k then
    t.setRel { t.rel with containAt := t.rel.containAt ++ [(k, t.now + t.get R.CONT_CTL F.CONT_CTL_DELAYMS * msTicks)] }
  else t

/-- Module-fatal events that a restart of R503 or the recovery profile follows already. -/
def fatalCovered (code : Nat) : Bool := [0x0380, 0x0381, 0x0382, 0x0383, 0x0389, 0x038A, 0x038E, 0x3318, 0x0370].contains code

/-- FATAL_MODULE_MRST (R529): the last-gasp record and an MRST with RST_CAUSE.LAST = 5. -/
def State.fatalMrst (s : State) : State :=
  let t := s.lastGasp 0
  if t.pwr.nv.isSome then t.setPwr { t.pwr with mrstWaits := some 5 } else (t.askReset ⟨1, 0⟩ 5).1

/-- What an event's category calls for (R527): containment of its canton, or a restart of the module. -/
def State.actOn (s : State) (e : Event) : State :=
  if evCategory e.code ≠ 3 then s
  else match e.canton with
    | some k =>
      if s.polState k = 2 ∨ (s.get R.CONT_STATUS F.CONT_STATUS_CFATAL).testBit k = true then s else s.contain k e.code
    | none => if fatalCovered e.code then s else s.fatalMrst

/-- EVENT_RECEIVE (R508): the trust die takes the oldest event on its way. -/
def execEventReceive (s : State) : Out :=
  match s.events with
  | [] => .next s
  | e :: rest => .next (({ s with events := rest }.logEvent e).actOn e)

/-- AUTO_CRST (R528): the CRST of a contained canton with AUTOCRST set, once DELAYMS have passed. -/
def execAutoCrst (k : Fin 8) (s : State) : Out :=
  if s.rel.containAt.any (fun (x : Nat × Nat) => x.1 == k.val && decide (x.2 ≤ s.now)) && (s.get R.CONT_CTL F.CONT_CTL_AUTOCRST).testBit k then
    .next ((s.setRel { s.rel with containAt := s.rel.containAt.filter (fun (x : Nat × Nat) => x.1 != k.val) }).askReset ⟨3, k⟩ 5).1
  else .next s

/-! ### The safety core (R522, R523) -/

/-- Value and threshold of a fast-path monitor in a sample. Monitors in the order of R522: 0 input voltage, 1 input
current, 2-12 rail groups, 13-172 four sensors per compute die, 173-220 two per other die, 221 REFCLK. -/
def State.monitorTrips (s : State) (x : SafetySample) (m : Nat) : Bool :=
  if m = 0 then decide (60000 < x.vin)
  else if m = 1 then decide (s.get R.SF_ILIM F.SF_ILIM_IN < x.inputCur)
  else if m < 13 then
    let rating := if m < 10 then 6400 else if m < 12 then 4800 else 4000
    decide (rating * s.get R.SF_ILIM F.SF_ILIM_RAILPCT < 100 * x.rails.getD (m - 2) 0)
  else if m < 221 then
    let t := x.dies.getD (if m < 173 then (m - 13) / 4 else 40 + (m - 173) / 2) 0xFF
    t != 0xFF && decide (s.get R.SF_TJMAX F.SF_TJMAX_TEMP ≤ t)
  else false

/-- Cause of a monitor, as a bit of SF_QLAST. -/
def monitorCause (m : Nat) : Nat := if m = 0 then 4 else if m < 13 then 1 else if m < 221 then 2 else 8

/-- SAFETY_SAMPLE (R489, R522, R523, R530): sensor values; a DIMM over SF_DIMMMAX in two successive readings, or a monitor
whose comparator failed its test beyond its threshold, quenches with every cause present (R525); a die at THROT_C
throttles; a cold-plate temperature that leaves its range raises 0x0090. -/
def execSafetySample (x : SafetySample) (s : State) : Out :=
  let excess := Vector.ofFn (fun (i : Fin 32) => x.dimms.getD i 0xFF != 0xFF && decide (s.get R.SF_DIMMMAX F.SF_DIMMMAX_TEMP ≤ x.dimms.getD i 0xFF))
  let twice := (List.range 32).any (fun i => excess.toList.getD i false && s.rel.dimmOver.toList.getD i false)
  let wasOut := decide (450 < s.rel.inlet) || decide (600 < s.rel.outlet)
  let isOut := decide (450 < x.inlet) || decide (600 < x.outlet)
  let t := s.setRel { s.rel with
    temps := Vector.ofFn (fun (i : Fin 64) => x.dies.getD i 0xFF)
    dimmTemps := Vector.ofFn (fun (i : Fin 32) => x.dimms.getD i 0xFF)
    dimmOver := excess
    rails := Vector.ofFn (fun (i : Fin 11) => x.rails.getD i 0)
    inputCur := x.inputCur, inlet := x.inlet, outlet := x.outlet }
  let t := (t.put R.PWR_VIN F.PWR_VIN_MV x.vin).vinLow x.vinMin
  let t := (if isOut && !wasOut then t.raise 0x0090 63 none (bytes12 (leBytes 2 x.inlet ++ leBytes 2 x.outlet)) else t).showHealth
  let t := if x.dies.any (fun d => d != 0xFF && decide (s.throtC ≤ d)) then t.thermal
    else if allBelow x.dies (s.throtC - 5) then t else t.setPwr { t.pwr with coolAt := t.now }
  let trips := t.rel.stFailed.filter (fun m => t.monitorTrips x m)
  if !t.clocked then .next t
  else
    let causes := trips.foldl (fun c m => c ||| monitorCause m) (if twice then 2 else 0)
    .next (if causes = 0 then t
      else t.quench (16 + causes) (if twice then 255 else trips.headD 255) 4 (if trips.contains 0 then .overvolt else .quenched))

/-- COMPARATOR_SELF_TEST (R523): a comparator that fails its test is reported and its monitor sampled from then on. -/
def execComparatorSelfTest (monitor : BitVec 8) (ok : Bool) (s : State) : Out :=
  if ok then .next s
  else
    let m := monitor.toNat
    let t := s.setRel { s.rel with stFailed := if s.rel.stFailed.contains m then s.rel.stFailed else s.rel.stFailed ++ [m] }
    .next ((t.put R.SF_STATUS F.SF_STATUS_STFAIL 1).raise 0x028C 63 none (bytes12 (leBytes 2 m)))

/-! ### Reads of pairs (R10) -/

/-- _LO registers of the pairs that the hardware updates: die and offset. -/
def hwPairs : List (DieKind × Nat) :=
  [(.cd, 0x20020), (.cd, 0x20028), (.cd, 0x24020), (.cd, 0x24028), (.td, 0x420), (.td, 0x428), (.td, 0x3008), (.md, 0x200A0), (.ld, 0x4010),
   (.ld, 0x1040), (.ld, 0x1080), (.hd, 0x4010), (.hd, 0x4018), (.hd, 0x4040), (.hd, 0x4048), (.hd, 0x5000)]

/-- Registers that follow the time brought up to date where one is read: the cadence timers, the status of
an array or a vector engine. -/
def State.readSync (s : State) (a : Nat) : State :=
  match crsDie (a % 0x4000000) with
  | some (.cd, n, off) => 
    if 0x20000 ≤ off ∧ off < 0x24000 then s.maShow (fin40 n) (fin4 ((off - 0x20000) / 0x1000))
    else if off = 0x24000 then s.veShow (fin40 n) else s
  | some (.td, _, off) => if 0x400 ≤ off ∧ off < 0x600 then s.cadTick (fin8 ((off - 0x400) / 64)) else s
  | _ => s

/-- Whether a health item is one of a canton's own dies, DIMMs or counters (R530). -/
def State.ownItem (s : State) (k i : Nat) : Bool :=
  if i < 64 then s.dieCanton i == some k
  else if 0x100 ≤ i ∧ i < 0x120 then s.dieCanton (40 + (i - 0x100) / 2) == some k
  else decide (0x400 ≤ i) && decide (i < 0x440) && (i - 0x400) / 8 == k

/-- Whether a canton view reads 0 where others read a record or an item (R439): EVL_REC of a record that names another
canton (R532), HLTH_VAL of an item that is not its own (R530). -/
def State.veiled (s : State) (v : View) (r : RegRow) : Bool :=
  match v with
  | .core d =>
    let k := s.colCanton (d.val % 8)
    if r.die == .td && r.name == "EVL_REC" then
      match s.rel.window.find? (fun (x : EvRecord) => x.eseq == s.get64 R.EVL_SEL_LO R.EVL_SEL_HI) with
      | some x => x.ev.canton.isSome && x.ev.canton != some k
      | none => false
    else r.die == .td && r.name == "HLTH_VAL" && !s.ownItem k (s.get R.HLTH_SEL F.HLTH_SEL_ITEM)
  | _ => false

/-- A register as a view reads it: of the bits that PWR_STATUS and CONT_STATUS hold per canton, a canton's view shows its
own (R439, R507). -/
def State.shown (s : State) (v : View) (r : RegRow) (x : W32) : W32 :=
  match v with
  | .core d =>
    let k := s.colCanton (d.val % 8)
    if r.die == .td && r.name == "PWR_STATUS" then x &&& BitVec.ofNat 32 (0xFF + 2 ^ (8 + k))
    else if r.die == .td && r.name == "CONT_STATUS" then x &&& BitVec.ofNat 32 (2 ^ k + 2 ^ (8 + k))
    else x
  | _ => x

/-- Four bytes of SEC_BUF, for the view that owns it (R441); FL_BUF takes writes only (R507). -/
def State.bufRead (s : State) (v : View) (a : Nat) : W32 :=
  if a < 0xC0000 ∧ s.get R.SEC_OWN F.SEC_OWN_VIEW = s.viewNo v then BitVec.ofNat 32 (leNat (s.buf (a - 0x80000) 4)) else 0

/-- What a view reads at a CRS address: 0 for another canton's registers, another canton's group window, records and items
that its view does not show, and dies that do not answer (R36, R192, R334, R466). -/
def State.regRead (s : State) (v : View) (addr : Nat) : W32 :=
  let a := s.keyFor v addr
  let foreign := match v with
    | .core d => s.foreign d addr true
    | _ => false
  if inBuf addr then s.bufRead v addr else
  match regAt a with
  | none => 0
  | some r => if foreign || s.regOff addr || s.otherGroup v r a || s.veiled v r then 0 else s.shown v r (s.rd a)

/-- Whether a view's read of a CRS address is refused, or meets no register (R35, R36, R334). -/
def State.readRefused (s : State) (v : View) (addr : Nat) : Bool :=
  let foreign := match v with
    | .core d => s.foreign d addr true
    | _ => false
  match regAt (s.keyFor v addr) with
  | none => true
  | some r => foreign || s.regOff addr || s.otherGroup v r (s.keyFor v addr)

/-- REGISTER_PAIR_READ (R10): a read of _LO latches _HI for that view; its read of _HI that follows answers the latched
value. A refused read latches nothing and takes nothing. -/
def execRegisterPairRead (v : View) (addr : Nat) (hi : Bool) (s : State) : Out :=
  let t := s.readSync addr
  let key := t.keyFor v addr
  let mine := fun (k : Nat) (p : (View × Nat) × W32) => p.1 == (v, k)
  if t.readRefused v addr then .next { t with resp := .value (t.regRead v addr) }
  else if hi then
    match t.latch.find? (mine key) with
    | some (_, x) => .next { t with resp := .value x, latch := t.latch.filter (fun p => !mine key p) }
    | none => .next { t with resp := .value (t.regRead v addr) }
  else
    let pair := match regAt key with
      | some r => hwPairs.contains (r.die, r.off)
      | none => false
    let t := { t with resp := .value (t.regRead v addr) }
    .next (if pair then { t with latch := ((v, key + 4), t.regRead v (addr + 4)) :: t.latch.filter (fun p => !mine (key + 4) p) } else t)

end Sys2Proof.Machine
end

