-- ==== Sys2Proof/Machine/Management.lean ====
section
/-! DEFINITION. The management protocol (R459). -/
namespace Sys2Proof.Machine

/-- A request that the management port serves; a port that is down answers nothing. -/
def State.mgmt (s : State) (f : State) : Out := .next (if s.mgmtLost then { s with resp := .none } else f)

/-- INFO (R459): serial, module ID, stepping, the MAC addresses. -/
def execInfo (s : State) : Out :=
  s.mgmt { s with resp := .data (s.serial ++ leBytes 4 s.moduleId ++ leBytes 1 Config.stepping.toNat ++ (List.range 18).map Config.macs) }

/-- READ (R459): registers, 4 bytes each. -/
def execMgmtRead (addrs : List Nat) (s : State) : Out :=
  let t := addrs.foldl (fun t a => t.readSync a) s
  s.mgmt { t with resp := .data (addrs.flatMap (fun a => leBytes 4 (t.regRead .mgmt a).toNat)) }

/-- The bytes a request's signature covers after the module ID: header and body. -/
def mgmtText (type : Nat) (mseq : Nat) (body : List Byte) : List Byte :=
  leBytes 2 0x4A4D ++ leBytes 1 type ++ [0] ++ leBytes 4 body.length ++ leBytes 8 mseq ++ body

/-- A signed request: taken where the operator key's signature verifies and MSEQ exceeds every MSEQ accepted since POR;
else dropped with alarm 0x0467. Without the trust die's public-key or hash engine none verifies (R480). -/
def State.mgmtSigned (s : State) (type : Nat) (mseq : BitVec 64) (body sig : List Byte) (f : State → State) : Out :=
  let fresh := match s.host.mseq with
    | none => true
    | some m => decide (m < mseq.toNat)
  if fresh && !s.blockLost 63 0x102 && s.operatorSigned "JV-MGT" (leBytes 4 s.moduleId ++ mgmtText type mseq.toNat body) sig then
    s.mgmt (f (s.setHost { s.host with mseq := some mseq.toNat }))
  else s.mgmt ({ s with resp := .none }.raise 0x0467 63 none (detail 0 0 0))

/-- A write of RST_CMD by the management port. -/
def State.rstCmdWrite (s : State) (x : W32) : State :=
  let kind := fldOf x F.RST_CMD_KIND
  if kind = 1 then (s.viewReset .mgmt ⟨1, 0⟩).1
  else if kind = 2 then (s.viewReset .mgmt ⟨2, 0⟩).1
  else if kind = 3 then outState (execRstCrst .mgmt (fin8 (fldOf x F.RST_CMD_CANTON)) s) s
  else if kind = 4 then outState (execRstDrst .mgmt ⟨fldOf x F.RST_CMD_DIE % 64, Nat.mod_lt _ (by decide)⟩ s) s
  else if kind = 5 then outState (execRstLrst .mgmt (fin6 (fldOf x F.RST_CMD_PORT)) s) s
  else s

/-- A write of PWR_CTL: park and unpark requests, STANDBY. -/
def State.pwrCtlWrite (s : State) (x : W32) : State :=
  let t := (List.range 8).foldl (fun t k => if (fldOf x F.PWR_CTL_PARK).testBit k then outState (execPark (fin8 k) t) t else t) s
  let t := (List.range 8).foldl (fun t k => if (fldOf x F.PWR_CTL_UNPARK).testBit k then outState (execUnpark (fin8 k) [] t) t else t) t
  if fldOf x F.PWR_CTL_STANDBY = 1 then outState (execStandby t) t else t

/-- A write of FL_CMD. -/
def State.flCmdWrite (s : State) (x : W32) : State :=
  let op := fldOf x (2, 0)
  let kind := fin8 (fldOf x (5, 3))
  let slot : Fin 2 := ⟨fldOf x (6, 6) % 2, Nat.mod_lt _ (by decide)⟩
  if op = 1 then outState (execBind s) s
  else if op = 2 then outState (execErase kind slot s) s
  else if op = 3 then outState (execProgram kind slot s) s
  else if op = 4 then outState (execCommit kind slot s) s
  else if op = 5 then outState (execMcr s) s
  else s

/-- A write of SEC_CMD by the host view. -/
def State.secCmdWrite (s : State) (x : W32) (step : KaStep) : State :=
  let k := fin8 (fldOf x F.SEC_CMD_CANTON)
  let slot := fin16 (fldOf x F.SEC_CMD_SLOT)
  let o := match fldOf x F.SEC_CMD_OP with
    | 1 => execSecAssign .host k s
    | 2 => execSecKagree .host k step s
    | 3 => execSecDatakey .host k s
    | 4 => execSecCkpt .host k slot s
    | 5 => execSecResume .host k slot s
    | 6 => execSecShare .host k s
    | 7 => execSecRelease .host k slot s
    | 8 => execSecConsent .host k s
    | 9 => execSecKeydrop .host k slot s
    | 10 => execSecScrub .host k s
    | _ => .next s
  outState o s

/-- A write of a host-writable field, with what the field does: host time, mailbox, region, SEC_OWN, SEC_CMD, resets, power
and flash commands. A KAGREE that comes by a write starts an agreement of the purpose in SEC_BUF's first byte. The host's bulk data port is not reached (R466). -/
def State.hostWrite (s : State) (addr : Nat) (x : W32) : State :=
  match crsDie addr with
  | some (.hd, _, off) =>
    if off = 0x100C then s.setHostTime x
    else if 0x1104 ≤ off ∧ off < 0x1180 ∧ off % 16 = 4 then s.mboxTo ((off - 0x1100) / 16) x
    else if 0x5000 ≤ off ∧ off < 0x5040 then s
    else if 0x2000 ≤ off ∧ off < 0x2800 ∧ off % 16 = 0 ∧ x.getLsbD 0 = false then
      let t := regWrite .host addr x 0 s
      outState (execRegionDisable (fin8 ((off - 0x2000) / 256)) ⟨(off - 0x2000) / 16 % 16, Nat.mod_lt _ (by decide)⟩ t) t
    else regWrite .host addr x 0 s
  | some (.td, _, off) =>
    if off = 0x1004 then outState (execSecOwnWrite .host x s) s
    else if off = 0x1008 then s.secCmdWrite x (.start (fin16 (fieldAt (s.buf 0 1) 0 1)))
    else if off = 0x2010 then s.rstCmdWrite x
    else if off = 0x2024 then s.pwrCtlWrite x
    else if off = 0x2080 then s.flCmdWrite x
    else regWrite .host addr x 0 s
  | _ => regWrite .host addr x 0 s

/-- WRITE (R459): host-writable fields, as a host BAR0 write. -/
def execMgmtWrite (addr : Nat) (x : W32) (mseq : BitVec 64) (sig : List Byte) (s : State) : Out :=
  s.mgmtSigned 3 mseq (leBytes 4 addr ++ leBytes 4 x.toNat) sig (fun t => { t.hostWrite addr x with resp := .done })

/-- DPSET (R459): DP_ADDR and DP_CTL of bulk data port 1. -/
def execDpset (addr : BitVec 48) (ctl : W32) (mseq : BitVec 64) (sig : List Byte) (s : State) : Out :=
  s.mgmtSigned 4 mseq (leBytes 8 addr.toNat ++ leBytes 4 ctl.toNat) sig (fun t => { (t.setDpAddr 1 addr.toNat).setDpCtl 1 ctl with resp := .done })

/-- DPDATA (R459): bytes through port 1. -/
def execDpdata (bytes : List Byte) (s : State) : Out := s.mgmt { s.dpWrite 1 bytes with resp := .done }

/-- DPREAD (R459): bytes out of port 1. -/
def execDpread (len : Nat) (s : State) : Out := s.mgmt (s.dpRead 1 len)

/-- Body of a SECBUF request. -/
def SecBufOp_bytes : SecBufOp → List Byte
  | .read off len => leBytes 4 0 ++ leBytes 4 off ++ leBytes 4 len
  | .write off bs => leBytes 4 1 ++ leBytes 4 off ++ bs
  | .cmd x _ => leBytes 4 2 ++ leBytes 4 x.toNat

/-- SECBUF (R459): SEC_BUF and SEC_CMD as the host view. -/
def execSecbuf (op : SecBufOp) (mseq : BitVec 64) (sig : List Byte) (s : State) : Out :=
  s.mgmtSigned 7 mseq (SecBufOp_bytes op) sig (fun t =>
    let mine := t.get R.SEC_OWN F.SEC_OWN_VIEW == 8
    match op with
    | .read off len => { t with resp := .data (if mine then t.buf off len else List.replicate len 0) }
    | .write off bs => { (if mine then t.bufPut off bs else t) with resp := .done }
    | .cmd x step => { t.secCmdWrite x step with resp := .done })

end Sys2Proof.Machine
end

