-- ==== Sys2Proof/Machine/Dispatch.lean ====
section
/-! DEFINITION. One arm for each command: the meaning it calls. -/
namespace Sys2Proof.Machine

/-- The effect of a command on everything but the queue of waiting commands. -/
def exec (i : Instr) (s : State) : Host.Outcome State Fault Refusal :=
  match i with
  | .registerWrite v addr x hw => Sys2Proof.Machine.execRegisterWrite v addr x hw s
  | .crsReservedAccess v addr wr => Sys2Proof.Machine.execCrsReservedAccess v addr wr s
  | .crsForeignAccess d addr wr => Sys2Proof.Machine.execCrsForeignAccess d addr wr s
  | .mpaAccess r op addr => Sys2Proof.Machine.execMpaAccess r op addr s
  | .fabricFlitReceive die port crcOk => Sys2Proof.Machine.execFabricFlitReceive die port crcOk s
  | .fabricPortDown die port => Sys2Proof.Machine.execFabricPortDown die port s
  | .fabricPacketHop id src dst cls flits busy => Sys2Proof.Machine.execFabricPacketHop id src dst cls flits busy s
  | .arbiterDecision st reqs => Sys2Proof.Machine.execArbiterDecision st reqs s
  | .requesterMaskChange st requester masked => Sys2Proof.Machine.execRequesterMaskChange st requester masked s
  | .seedWaitRelease die => Sys2Proof.Machine.execSeedWaitRelease die s
  | .maCommandAccept d a => Sys2Proof.Machine.execMaCommandAccept d a s
  | .maHoist d a q w => Sys2Proof.Machine.execMaHoist d a q w s
  | .maPass d a q w => Sys2Proof.Machine.execMaPass d a q w s
  | .maCcfg d a q w => Sys2Proof.Machine.execMaCcfg d a q w s
  | .maReq d a q w => Sys2Proof.Machine.execMaReq d a q w s
  | .maFlush d a q w => Sys2Proof.Machine.execMaFlush d a q w s
  | .maStreamStart d a => Sys2Proof.Machine.execMaStreamStart d a s
  | .maFrontStart d a => Sys2Proof.Machine.execMaFrontStart d a s
  | .maMaskLineRead d a line => Sys2Proof.Machine.execMaMaskLineRead d a line s
  | .maSlotFeed d a => Sys2Proof.Machine.execMaSlotFeed d a s
  | .maOutputWrite d a col par => Sys2Proof.Machine.execMaOutputWrite d a col par s
  | .maPassComplete d a => Sys2Proof.Machine.execMaPassComplete d a s
  | .maCollectorTimeout d a => Sys2Proof.Machine.execMaCollectorTimeout d a s
  | .maBatchComplete d a => Sys2Proof.Machine.execMaBatchComplete d a s
  | .maPerfClear d a => Sys2Proof.Machine.execMaPerfClear d a s
  | .vadd d q w bad => Sys2Proof.Machine.execVadd d q w bad s
  | .vsub d q w bad => Sys2Proof.Machine.execVsub d q w bad s
  | .vmul d q w bad => Sys2Proof.Machine.execVmul d q w bad s
  | .vfma d q w bad => Sys2Proof.Machine.execVfma d q w bad s
  | .vfnma d q w bad => Sys2Proof.Machine.execVfnma d q w bad s
  | .vmin d q w bad => Sys2Proof.Machine.execVmin d q w bad s
  | .vmax d q w bad => Sys2Proof.Machine.execVmax d q w bad s
  | .vsel d q w bad => Sys2Proof.Machine.execVsel d q w bad s
  | .vcmpeq d q w bad => Sys2Proof.Machine.execVcmpeq d q w bad s
  | .vcmplt d q w bad => Sys2Proof.Machine.execVcmplt d q w bad s
  | .vcmple d q w bad => Sys2Proof.Machine.execVcmple d q w bad s
  | .vcmpun d q w bad => Sys2Proof.Machine.execVcmpun d q w bad s
  | .vsplit d q w bad => Sys2Proof.Machine.execVsplit d q w bad s
  | .vscale d q w bad => Sys2Proof.Machine.execVscale d q w bad s
  | .vcvt d q w bad => Sys2Proof.Machine.execVcvt d q w bad s
  | .vrcpe d q w bad => Sys2Proof.Machine.execVrcpe d q w bad s
  | .vrsqe d q w bad => Sys2Proof.Machine.execVrsqe d q w bad s
  | .vexp2e d q w bad => Sys2Proof.Machine.execVexp2e d q w bad s
  | .vrsum d q w bad => Sys2Proof.Machine.execVrsum d q w bad s
  | .vrprod d q w bad => Sys2Proof.Machine.execVrprod d q w bad s
  | .vrmax d q w bad => Sys2Proof.Machine.execVrmax d q w bad s
  | .vrmin d q w bad => Sys2Proof.Machine.execVrmin d q w bad s
  | .vrmean d q w bad => Sys2Proof.Machine.execVrmean d q w bad s
  | .vrimax d q w bad => Sys2Proof.Machine.execVrimax d q w bad s
  | .vrimin d q w bad => Sys2Proof.Machine.execVrimin d q w bad s
  | .vtload d q w bad => Sys2Proof.Machine.execVtload d q w bad s
  | .vtstore d q w bad => Sys2Proof.Machine.execVtstore d q w bad s
  | .vttrans d q w bad => Sys2Proof.Machine.execVttrans d q w bad s
  | .vsets d q w bad => Sys2Proof.Machine.execVsets d q w bad s
  | .vmload d q w bad => Sys2Proof.Machine.execVmload d q w bad s
  | .vmstore d q w bad => Sys2Proof.Machine.execVmstore d q w bad s
  | .vmop d q w bad => Sys2Proof.Machine.execVmop d q w bad s
  | .vgetf d q w bad => Sys2Proof.Machine.execVgetf d q w bad s
  | .veDependenceRelease d cycles bad => Sys2Proof.Machine.execVeDependenceRelease d cycles bad s
  | .vePerfClear d => Sys2Proof.Machine.execVePerfClear d s
  | .seqQueueTailWrite d q write => Sys2Proof.Machine.execSeqQueueTailWrite d q write s
  | .seqDispatch d fetch => Sys2Proof.Machine.execSeqDispatch d fetch s
  | .seqCompletionSignal d => Sys2Proof.Machine.execSeqCompletionSignal d s
  | .seqCtrWrite d c value => Sys2Proof.Machine.execSeqCtrWrite d c value s
  | .seqCtrInc d c inc => Sys2Proof.Machine.execSeqCtrInc d c inc s
  | .syncWait d q w => Sys2Proof.Machine.execSyncWait d q w s
  | .syncWaitSatisfied d q => Sys2Proof.Machine.execSyncWaitSatisfied d q s
  | .syncSignal d q w => Sys2Proof.Machine.execSyncSignal d q w s
  | .syncPwait d q w => Sys2Proof.Machine.execSyncPwait d q w s
  | .pennantPoll d poll => Sys2Proof.Machine.execPennantPoll d poll s
  | .syncPsignal d q w => Sys2Proof.Machine.execSyncPsignal d q w s
  | .syncSetbase d q w => Sys2Proof.Machine.execSyncSetbase d q w s
  | .syncCall d q w => Sys2Proof.Machine.execSyncCall d q w s
  | .syncHalt d q w => Sys2Proof.Machine.execSyncHalt d q w s
  | .seqWaitWatchdog d q => Sys2Proof.Machine.execSeqWaitWatchdog d q s
  | .queueStart d write => Sys2Proof.Machine.execQueueStart d write s
  | .queueStop d write => Sys2Proof.Machine.execQueueStop d write s
  | .queueResume d write => Sys2Proof.Machine.execQueueResume d write s
  | .queueResumeSkip d write => Sys2Proof.Machine.execQueueResumeSkip d write s
  | .queueAbort d write => Sys2Proof.Machine.execQueueAbort d write s
  | .dmaCopy d q w => Sys2Proof.Machine.execDmaCopy d q w s
  | .dmaCopy2d d q w => Sys2Proof.Machine.execDmaCopy2d d q w s
  | .dmaFill d q w => Sys2Proof.Machine.execDmaFill d q w s
  | .dmaCommandStart d => Sys2Proof.Machine.execDmaCommandStart d s
  | .dmaPacketAck d cmd pkt res => Sys2Proof.Machine.execDmaPacketAck d cmd pkt res s
  | .lsArbitrate d accs lsEcc gasEcc => Sys2Proof.Machine.execLsArbitrate d accs lsEcc gasEcc s
  | .gasZero d q w => Sys2Proof.Machine.execGasZero d q w s
  | .gasDrain d q w => Sys2Proof.Machine.execGasDrain d q w s
  | .gasDrainStart d => Sys2Proof.Machine.execGasDrainStart d s
  | .gasDrainPieceRead d group opseq piece => Sys2Proof.Machine.execGasDrainPieceRead d group opseq piece s
  | .keptInputRebuild d q first below base fresh copy => Sys2Proof.Machine.execKeptInputRebuild d q first below base fresh copy s
  | .variantTableActivate k addr => Sys2Proof.Machine.execVariantTableActivate k addr s
  | .sequenceAdmit k table tag seq => Sys2Proof.Machine.execSequenceAdmit k table tag seq s
  | .adapterDrainRequest d q table variant w => Sys2Proof.Machine.execAdapterDrainRequest d q table variant w s
  | .cadEnable k => Sys2Proof.Machine.execCadEnable k s
  | .cadDone k report => Sys2Proof.Machine.execCadDone k report s
  | .cadDeadline k waiting => Sys2Proof.Machine.execCadDeadline k waiting s
  | .cadPeriodStart k => Sys2Proof.Machine.execCadPeriodStart k s
  | .evalBatchStart k batch => Sys2Proof.Machine.execEvalBatchStart k batch s
  | .channelRecalibrate m c => Sys2Proof.Machine.execChannelRecalibrate m c s
  | .dimmTempSample m c temps => Sys2Proof.Machine.execDimmTempSample m c temps s
  | .sealRead m n => Sys2Proof.Machine.execSealRead m n s
  | .sealReadComplete m n f => Sys2Proof.Machine.execSealReadComplete m n f s
  | .sealFullWrite m n f => Sys2Proof.Machine.execSealFullWrite m n f s
  | .sealPartialWrite m n f => Sys2Proof.Machine.execSealPartialWrite m n f s
  | .sealAtomicAdd m n f => Sys2Proof.Machine.execSealAtomicAdd m n f s
  | .sealReinit m index => Sys2Proof.Machine.execSealReinit m index s
  | .sealReinitComplete m lost => Sys2Proof.Machine.execSealReinitComplete m lost s
  | .patrolScrubStep m f mirror block => Sys2Proof.Machine.execPatrolScrubStep m f mirror block s
  | .residentScrub m r => Sys2Proof.Machine.execResidentScrub m r s
  | .treeInitComplete m => Sys2Proof.Machine.execTreeInitComplete m s
  | .sealPerfClear m => Sys2Proof.Machine.execSealPerfClear m s
  | .ueEnable m tables journals => Sys2Proof.Machine.execUeEnable m tables journals s
  | .uePause m => Sys2Proof.Machine.execUePause m s
  | .ueReset m => Sys2Proof.Machine.execUeReset m s
  | .ueSquareLand m shard square outer data => Sys2Proof.Machine.execUeSquareLand m shard square outer data s
  | .ueSquareCommit m reads => Sys2Proof.Machine.execUeSquareCommit m reads s
  | .ueBurstAck m => Sys2Proof.Machine.execUeBurstAck m s
  | .ueNormin m sumsq => Sys2Proof.Machine.execUeNormin m sumsq s
  | .ueReload m tables journals => Sys2Proof.Machine.execUeReload m tables journals s
  | .ueRederive m shard reads => Sys2Proof.Machine.execUeRederive m shard reads s
  | .ueAudit m shard reads => Sys2Proof.Machine.execUeAudit m shard reads s
  | .ueAuditInterval m turn => Sys2Proof.Machine.execUeAuditInterval m turn s
  | .ueExport m shard reads => Sys2Proof.Machine.execUeExport m shard reads s
  | .ueImport m shard record => Sys2Proof.Machine.execUeImport m shard record s
  | .ueDisable m shard => Sys2Proof.Machine.execUeDisable m shard s
  | .ueSnapshot m shard reads => Sys2Proof.Machine.execUeSnapshot m shard reads s
  | .ueCommandComplete turn => Sys2Proof.Machine.execUeCommandComplete turn s
  | .groupCreate k g => Sys2Proof.Machine.execGroupCreate k g s
  | .groupClaim k g => Sys2Proof.Machine.execGroupClaim k g s
  | .groupResume k g => Sys2Proof.Machine.execGroupResume k g s
  | .groupAbort k g => Sys2Proof.Machine.execGroupAbort k g s
  | .groupReset k g => Sys2Proof.Machine.execGroupReset k g s
  | .groupFree k g => Sys2Proof.Machine.execGroupFree k g s
  | .groupTailWrite k g tail => Sys2Proof.Machine.execGroupTailWrite k g tail s
  | .descriptorFetch g => Sys2Proof.Machine.execDescriptorFetch g s
  | .triggerPoll g => Sys2Proof.Machine.execTriggerPoll g s
  | .operationStart g => Sys2Proof.Machine.execOperationStart g s
  | .pieceCombine g opseq gather u off len => Sys2Proof.Machine.execPieceCombine g opseq gather u off len s
  | .pieceReceive k u p => Sys2Proof.Machine.execPieceReceive k u p s
  | .pieceAckSend g u => Sys2Proof.Machine.execPieceAckSend g u s
  | .pieceAck g u member psn => Sys2Proof.Machine.execPieceAck g u member psn s
  | .noctxRetry g u psn => Sys2Proof.Machine.execNoctxRetry g u psn s
  | .operationComplete g opseq => Sys2Proof.Machine.execOperationComplete g opseq s
  | .beaconSend g => Sys2Proof.Machine.execBeaconSend g s
  | .beaconReceive g u opseq named => Sys2Proof.Machine.execBeaconReceive g u opseq named s
  | .groupStall g => Sys2Proof.Machine.execGroupStall g s
  | .abortMessageReceive g opseqs => Sys2Proof.Machine.execAbortMessageReceive g opseqs s
  | .clCounterClear k l => Sys2Proof.Machine.execClCounterClear k l s
  | .controlCodewordSend l => Sys2Proof.Machine.execControlCodewordSend l s
  | .controlCodewordReceive l c tag => Sys2Proof.Machine.execControlCodewordReceive l c tag s
  | .torusPacketReceive l k p a => Sys2Proof.Machine.execTorusPacketReceive l k p a s
  | .linkRetrain l => Sys2Proof.Machine.execLinkRetrain l s
  | .linkTrainComplete l r => Sys2Proof.Machine.execLinkTrainComplete l r s
  | .linkTrainRetry l => Sys2Proof.Machine.execLinkTrainRetry l s
  | .linkDown l why => Sys2Proof.Machine.execLinkDown l why s
  | .downPortHoldExpire l k => Sys2Proof.Machine.execDownPortHoldExpire l k s
  | .epochChange l k => Sys2Proof.Machine.execEpochChange l k s
  | .forcedRekey v l planes => Sys2Proof.Machine.execForcedRekey v l planes s
  | .linkCounterClear l => Sys2Proof.Machine.execLinkCounterClear l s
  | .cableInsert l => Sys2Proof.Machine.execCableInsert l s
  | .cableRemove l => Sys2Proof.Machine.execCableRemove l s
  | .sxEnable m => Sys2Proof.Machine.execSxEnable m s
  | .openall m => Sys2Proof.Machine.execOpenall m s
  | .boot m shard => Sys2Proof.Machine.execBoot m shard s
  | .sxDisable m shard => Sys2Proof.Machine.execSxDisable m shard s
  | .data m f => Sys2Proof.Machine.execData m f s
  | .done m f => Sys2Proof.Machine.execDone m f s
  | .sack m f => Sys2Proof.Machine.execSack m f s
  | .include_ m f => Sys2Proof.Machine.execInclude_ m f s
  | .corr m f => Sys2Proof.Machine.execCorr m f s
  | .mhead m f => Sys2Proof.Machine.execMhead m f s
  | .merge m f => Sys2Proof.Machine.execMerge m f s
  | .snapreq m f => Sys2Proof.Machine.execSnapreq m f s
  | .snaphead m f => Sys2Proof.Machine.execSnaphead m f s
  | .snap m f => Sys2Proof.Machine.execSnap m f s
  | .notice m f => Sys2Proof.Machine.execNotice m f s
  | .probe m f => Sys2Proof.Machine.execProbe m f s
  | .probeSend m site module_ => Sys2Proof.Machine.execProbeSend m site module_ s
  | .leaderDataDeadline m shard => Sys2Proof.Machine.execLeaderDataDeadline m shard s
  | .leaderCorrDeadline m shard => Sys2Proof.Machine.execLeaderCorrDeadline m shard s
  | .frameResendTimeout m n => Sys2Proof.Machine.execFrameResendTimeout m n s
  | .sackSend m site module_ die => Sys2Proof.Machine.execSackSend m site module_ die s
  | .siteOutOfTouch k site => Sys2Proof.Machine.execSiteOutOfTouch k site s
  | .exchangeCollectiveDone m shard => Sys2Proof.Machine.execExchangeCollectiveDone m shard s
  | .packetTooBig p site mtu => Sys2Proof.Machine.execPacketTooBig p site mtu s
  | .sitePortLinkChange p up => Sys2Proof.Machine.execSitePortLinkChange p up s
  | .sxCounterClear m => Sys2Proof.Machine.execSxCounterClear m s
  | .spCounterClear => Sys2Proof.Machine.execSpCounterClear s
  | .spdmGetVersion tcp => Sys2Proof.Machine.execSpdmGetVersion tcp s
  | .spdmGetCapabilities tcp => Sys2Proof.Machine.execSpdmGetCapabilities tcp s
  | .spdmNegotiateAlgorithms tcp offered => Sys2Proof.Machine.execSpdmNegotiateAlgorithms tcp offered s
  | .spdmGetDigests tcp => Sys2Proof.Machine.execSpdmGetDigests tcp s
  | .spdmGetCertificate tcp slot off len => Sys2Proof.Machine.execSpdmGetCertificate tcp slot off len s
  | .spdmChallenge tcp nonce => Sys2Proof.Machine.execSpdmChallenge tcp nonce s
  | .spdmGetMeasurements tcp index nonce => Sys2Proof.Machine.execSpdmGetMeasurements tcp index nonce s
  | .spdmKeyExchange tcp share => Sys2Proof.Machine.execSpdmKeyExchange tcp share s
  | .spdmFinish tcp proof => Sys2Proof.Machine.execSpdmFinish tcp proof s
  | .spdmEndSession tcp => Sys2Proof.Machine.execSpdmEndSession tcp s
  | .spdmChunkSend tcp seq part => Sys2Proof.Machine.execSpdmChunkSend tcp seq part s
  | .spdmChunkGet tcp seq => Sys2Proof.Machine.execSpdmChunkGet tcp seq s
  | .spdmVendorDefinedRequest tcp keys => Sys2Proof.Machine.execSpdmVendorDefinedRequest tcp keys s
  | .doeDiscovery index => Sys2Proof.Machine.execDoeDiscovery index s
  | .doeAbort => Sys2Proof.Machine.execDoeAbort s
  | .secOwnWrite v x => Sys2Proof.Machine.execSecOwnWrite v x s
  | .secAssign v k => Sys2Proof.Machine.execSecAssign v k s
  | .secKagree v k step => Sys2Proof.Machine.execSecKagree v k step s
  | .ka1 msg => Sys2Proof.Machine.execKa1 msg s
  | .ka2 n msg => Sys2Proof.Machine.execKa2 n msg s
  | .ka3 n msg => Sys2Proof.Machine.execKa3 n msg s
  | .kaTimeout n => Sys2Proof.Machine.execKaTimeout n s
  | .secDatakey v k => Sys2Proof.Machine.execSecDatakey v k s
  | .datakeyWithdraw k keyId sig => Sys2Proof.Machine.execDatakeyWithdraw k keyId sig s
  | .secCkpt v k slot => Sys2Proof.Machine.execSecCkpt v k slot s
  | .secResume v k slot => Sys2Proof.Machine.execSecResume v k slot s
  | .secShare v k => Sys2Proof.Machine.execSecShare v k s
  | .secRelease v k slot => Sys2Proof.Machine.execSecRelease v k slot s
  | .secConsent v k => Sys2Proof.Machine.execSecConsent v k s
  | .consentWithdraw k party bits sig => Sys2Proof.Machine.execConsentWithdraw k party bits sig s
  | .secKeydrop v k slot => Sys2Proof.Machine.execSecKeydrop v k slot s
  | .secScrub v k => Sys2Proof.Machine.execSecScrub v k s
  | .scrubQuiesced k => Sys2Proof.Machine.execScrubQuiesced k s
  | .scrubQuiesceTimeout k => Sys2Proof.Machine.execScrubQuiesceTimeout k s
  | .scrubComplete k => Sys2Proof.Machine.execScrubComplete k s
  | .partyRecordDecrypt k src dst => Sys2Proof.Machine.execPartyRecordDecrypt k src dst s
  | .ideIntegrityFailure => Sys2Proof.Machine.execIdeIntegrityFailure s
  | .tapInstruction ti => Sys2Proof.Machine.execTapInstruction ti s
  | .scanEnable => Sys2Proof.Machine.execScanEnable s
  | .hostLinkTrain t => Sys2Proof.Machine.execHostLinkTrain t s
  | .perstAssert => Sys2Proof.Machine.execPerstAssert s
  | .functionLevelReset => Sys2Proof.Machine.execFunctionLevelReset s
  | .hostSnoop addr => Sys2Proof.Machine.execHostSnoop addr s
  | .bar0BadAccess addr size => Sys2Proof.Machine.execBar0BadAccess addr size s
  | .msixVectorUnmask v => Sys2Proof.Machine.execMsixVectorUnmask v s
  | .regionDisable k r => Sys2Proof.Machine.execRegionDisable k r s
  | .ringEnable k g => Sys2Proof.Machine.execRingEnable k g s
  | .ringDisable k g => Sys2Proof.Machine.execRingDisable k g s
  | .ringDescriptorStart k g host => Sys2Proof.Machine.execRingDescriptorStart k g host s
  | .ringDescriptorComplete k g => Sys2Proof.Machine.execRingDescriptorComplete k g s
  | .ringRestart k g => Sys2Proof.Machine.execRingRestart k g s
  | .ringAbort k g => Sys2Proof.Machine.execRingAbort k g s
  | .dpDataWrite p bytes => Sys2Proof.Machine.execDpDataWrite p bytes s
  | .dpDataRead p len => Sys2Proof.Machine.execDpDataRead p len s
  | .dpCtlWrite p x => Sys2Proof.Machine.execDpCtlWrite p x s
  | .dpStatusRead p => Sys2Proof.Machine.execDpStatusRead p s
  | .eventReceive => Sys2Proof.Machine.execEventReceive s
  | .hosttimeWrite x => Sys2Proof.Machine.execHosttimeWrite x s
  | .mboxToWrite k x => Sys2Proof.Machine.execMboxToWrite k x s
  | .mboxFromWrite k x => Sys2Proof.Machine.execMboxFromWrite k x s
  | .mboxToRead k => Sys2Proof.Machine.execMboxToRead k s
  | .mboxFromRead k => Sys2Proof.Machine.execMboxFromRead k s
  | .info => Sys2Proof.Machine.execInfo s
  | .mgmtRead addrs => Sys2Proof.Machine.execMgmtRead addrs s
  | .mgmtWrite addr x mseq sig => Sys2Proof.Machine.execMgmtWrite addr x mseq sig s
  | .dpset addr ctl mseq sig => Sys2Proof.Machine.execDpset addr ctl mseq sig s
  | .dpdata bytes => Sys2Proof.Machine.execDpdata bytes s
  | .dpread len => Sys2Proof.Machine.execDpread len s
  | .secbuf op mseq sig => Sys2Proof.Machine.execSecbuf op mseq sig s
  | .tenantImageStart k mpa len => Sys2Proof.Machine.execTenantImageStart k mpa len s
  | .tenantHypercall k img call => Sys2Proof.Machine.execTenantHypercall k img call s
  | .guestFault d img => Sys2Proof.Machine.execGuestFault d img s
  | .serviceCoreCacheError d scratchpadLost => Sys2Proof.Machine.execServiceCoreCacheError d scratchpadLost s
  | .powerOn env => Sys2Proof.Machine.execPowerOn env s
  | .startUpComplete env => Sys2Proof.Machine.execStartUpComplete env s
  | .pllLockTimeout die => Sys2Proof.Machine.execPllLockTimeout die s
  | .mrstNAssert => Sys2Proof.Machine.execMrstNAssert s
  | .mrstNRelease env => Sys2Proof.Machine.execMrstNRelease env s
  | .wakeAssert env => Sys2Proof.Machine.execWakeAssert env s
  | .rstMrst v env => Sys2Proof.Machine.execRstMrst v env s
  | .rstSrst v env => Sys2Proof.Machine.execRstSrst v env s
  | .rstCrst v k => Sys2Proof.Machine.execRstCrst v k s
  | .rstDrst v die => Sys2Proof.Machine.execRstDrst v die s
  | .rstLrst v port => Sys2Proof.Machine.execRstLrst v port s
  | .resetComplete => Sys2Proof.Machine.execResetComplete s
  | .refclkLoss => Sys2Proof.Machine.execRefclkLoss s
  | .refclkRestore env => Sys2Proof.Machine.execRefclkRestore env s
  | .supplyWarning mv => Sys2Proof.Machine.execSupplyWarning mv s
  | .supplyWarningClear lowest => Sys2Proof.Machine.execSupplyWarningClear lowest s
  | .undervoltage => Sys2Proof.Machine.execUndervoltage s
  | .inputRecovery env => Sys2Proof.Machine.execInputRecovery env s
  | .overvoltage => Sys2Proof.Machine.execOvervoltage s
  | .overvoltageRecovery env => Sys2Proof.Machine.execOvervoltageRecovery env s
  | .alwaysOnPowerLoss => Sys2Proof.Machine.execAlwaysOnPowerLoss s
  | .thermalThrottle die temp => Sys2Proof.Machine.execThermalThrottle die temp s
  | .throttleExit => Sys2Proof.Machine.execThrottleExit s
  | .powerCapAdjust k watts => Sys2Proof.Machine.execPowerCapAdjust k watts s
  | .park k => Sys2Proof.Machine.execPark k s
  | .parkQuiesceCheck k => Sys2Proof.Machine.execParkQuiesceCheck k s
  | .unpark k bad => Sys2Proof.Machine.execUnpark k bad s
  | .standby => Sys2Proof.Machine.execStandby s
  | .nvWriteStart bankMv => Sys2Proof.Machine.execNvWriteStart bankMv s
  | .nvWriteDeferTimeout => Sys2Proof.Machine.execNvWriteDeferTimeout s
  | .bind => Sys2Proof.Machine.execBind s
  | .erase kind slot => Sys2Proof.Machine.execErase kind slot s
  | .program kind slot => Sys2Proof.Machine.execProgram kind slot s
  | .commit kind slot => Sys2Proof.Machine.execCommit kind slot s
  | .mcr => Sys2Proof.Machine.execMcr s
  | .flCommandComplete ok => Sys2Proof.Machine.execFlCommandComplete ok s
  | .quench causes monitor => Sys2Proof.Machine.execQuench causes monitor s
  | .quenchRestart env => Sys2Proof.Machine.execQuenchRestart env s
  | .safetySample x => Sys2Proof.Machine.execSafetySample x s
  | .comparatorSelfTest monitor ok => Sys2Proof.Machine.execComparatorSelfTest monitor ok s
  | .autoCrst k => Sys2Proof.Machine.execAutoCrst k s
  | .eventLogPageProgram => Sys2Proof.Machine.execEventLogPageProgram s
  | .debugProbeInsert => Sys2Proof.Machine.execDebugProbeInsert s
  | .debugProbeRemove => Sys2Proof.Machine.execDebugProbeRemove s
  | .registerPairRead v addr hi => Sys2Proof.Machine.execRegisterPairRead v addr hi s
  | .pwrVinRead => Sys2Proof.Machine.execPwrVinRead s
  | .hostLinkDown => Sys2Proof.Machine.execHostLinkDown s
  | .sitePortPacketReceive p x => Sys2Proof.Machine.execSitePortPacketReceive p x s
  | .sitePortTransmitSlot p => Sys2Proof.Machine.execSitePortTransmitSlot p s
  | .eventRingHoldoffExpire => Sys2Proof.Machine.execEventRingHoldoffExpire s
  | .doeResponseReady => Sys2Proof.Machine.execDoeResponseReady s
  | .nvWriteComplete => Sys2Proof.Machine.execNvWriteComplete s

end Sys2Proof.Machine
end

