-- ==== Sys2Proof/WellFormed.lean ====
section
/-! DEFINITION. Which terms of the command syntax stand for commands the module can be given: the opcode and UNIT of a
command word are those of its row (R163, R171, R174, R183, R111), addresses are aligned and inside their window, lengths
are lengths the spec names, header fields fit their bits. The machine answers on every term; a statement that needs a
real command assumes it well-formed. -/
namespace Sys2Proof

/-- A command word carries this UNIT (bits 11:8) and this opcode (bits 7:0) (R163). -/
def isUnit (w : Cmd) (u op : Nat) : Bool :=
  decide (w.toNat / 256 % 16 = u) && decide (w.toNat % 256 = op)

/-- A register address: 4-byte aligned, inside the 64 MiB of CRS (R11). -/
def isReg (addr : Nat) : Bool := decide (addr % 4 = 0) && decide (addr < 2 ^ 26)

/-- The length of a data access of a data port (R455): a multiple of 4, from 4 to 4096 bytes. -/
def isDpLen (n : Nat) : Bool := decide (n % 4 = 0) && decide (4 ≤ n) && decide (n ≤ 4096)

/-- An access to the module physical address space moves at least one byte (R27). -/
def isAccess : MpaOp → Bool
  | .read n => decide (0 < n)
  | .write bs => decide (0 < bs.length)
  | .add _ => true

/-- A request at an arbiter: it moves something, and only a torus output stage takes a packet with it (R362). -/
def isReq (st : ArbStage) (r : ArbReq) : Bool :=
  decide (0 < r.units) &&
    (match st, r.send with
     | .link _, _ => true
     | _, none => true
     | _, some _ => false)

/-- The header fields of a collective piece fit their bits (R319), and LEN is the length of its payload. -/
def isPiece (p : Piece) : Bool :=
  decide (p.job < 2 ^ 32) && decide (p.grp < 2 ^ 12) && decide (p.opseq < 2 ^ 16) && decide (p.psn < 2 ^ 32) &&
    decide (p.srcidx < 2 ^ 16) && decide (p.data.length = p.len)

/-- The header fields of a torus packet fit their bits (R341, R342). -/
def isTorus (p : TorusPacket) : Bool :=
  decide (p.seq < 2 ^ 64) && decide (p.tc < 4) && decide (p.dst < 2 ^ 24) && decide (p.ddie < 64) &&
    decide (16 ≤ p.text.length)

/-- A control codeword has one record for each of the eight planes (R340). -/
def isCtl (c : CtlWord) : Bool := decide (c.planes.length = 8) && decide (c.lanest < 2 ^ 64)

/-- The header fields of a Nguku frame fit their bits (R386). -/
def isFrame (f : SiteFrame) : Bool :=
  decide (f.ftype < 16) && decide (f.job < 2 ^ 32) && decide (f.srcSite < 64) && decide (f.dstSite < 64) &&
    decide (f.srcModule < 2 ^ 17) && decide (f.srcDie < 16)

/-- What a start meets: the 32 sockets of the module (R229). -/
def isEnv (e : StartEnv) : Bool := decide (e.dimms.length = 32)

/-- A sample of the safety core: one entry for each of the 64 dies, temperatures in a byte (R522). -/
def isSample (x : SafetySample) : Bool :=
  decide (x.dies.length = 64) && x.dies.all (fun t => decide (t < 256)) && x.dimms.all (fun t => decide (t < 256))

/-- The term stands for a command. -/
def wellFormed (i : Instr) : Bool :=
  match i with
  | .registerWrite _ addr _ _ => isReg addr
  | .crsReservedAccess _ addr _ => isReg addr
  | .crsForeignAccess _ addr _ => isReg addr
  | .mpaAccess _ op _ => isAccess op
  | .fabricFlitReceive _ _ _ => true
  | .fabricPortDown _ _ => true
  | .fabricPacketHop _ _ _ cls flits _ => decide (0 < flits) && decide (flits ≤ match cls with | .urgent => 1 | _ => 64)
  | .arbiterDecision st reqs => reqs.all (fun r => isReq st r)
  | .requesterMaskChange _ requester _ => decide (requester < 16)
  | .seedWaitRelease _ => true
  | .maCommandAccept _ _ => true
  | .maHoist _ a _ w => isUnit w a.val 0x01
  | .maPass _ a _ w => isUnit w a.val 0x02
  | .maCcfg _ a _ w => isUnit w a.val 0x03
  | .maReq _ a _ w => isUnit w a.val 0x04
  | .maFlush _ a _ w => isUnit w a.val 0x05
  | .maStreamStart _ _ => true
  | .maFrontStart _ _ => true
  | .maMaskLineRead _ _ _ => true
  | .maSlotFeed _ _ => true
  | .maOutputWrite _ _ _ _ => true
  | .maPassComplete _ _ => true
  | .maCollectorTimeout _ _ => true
  | .maBatchComplete _ _ => true
  | .maPerfClear _ _ => true
  | .vadd _ _ w _ => isUnit w 4 0x10
  | .vsub _ _ w _ => isUnit w 4 0x11
  | .vmul _ _ w _ => isUnit w 4 0x12
  | .vfma _ _ w _ => isUnit w 4 0x13
  | .vfnma _ _ w _ => isUnit w 4 0x14
  | .vmin _ _ w _ => isUnit w 4 0x15
  | .vmax _ _ w _ => isUnit w 4 0x16
  | .vsel _ _ w _ => isUnit w 4 0x17
  | .vcmpeq _ _ w _ => isUnit w 4 0x18
  | .vcmplt _ _ w _ => isUnit w 4 0x19
  | .vcmple _ _ w _ => isUnit w 4 0x1A
  | .vcmpun _ _ w _ => isUnit w 4 0x1B
  | .vsplit _ _ w _ => isUnit w 4 0x1C
  | .vscale _ _ w _ => isUnit w 4 0x1D
  | .vcvt _ _ w _ => isUnit w 4 0x1E
  | .vrcpe _ _ w _ => isUnit w 4 0x20
  | .vrsqe _ _ w _ => isUnit w 4 0x21
  | .vexp2e _ _ w _ => isUnit w 4 0x22
  | .vrsum _ _ w _ => isUnit w 4 0x30
  | .vrprod _ _ w _ => isUnit w 4 0x31
  | .vrmax _ _ w _ => isUnit w 4 0x32
  | .vrmin _ _ w _ => isUnit w 4 0x33
  | .vrmean _ _ w _ => isUnit w 4 0x34
  | .vrimax _ _ w _ => isUnit w 4 0x35
  | .vrimin _ _ w _ => isUnit w 4 0x36
  | .vtload _ _ w _ => isUnit w 4 0x40
  | .vtstore _ _ w _ => isUnit w 4 0x41
  | .vttrans _ _ w _ => isUnit w 4 0x42
  | .vsets _ _ w _ => isUnit w 4 0x43
  | .vmload _ _ w _ => isUnit w 4 0x44
  | .vmstore _ _ w _ => isUnit w 4 0x45
  | .vmop _ _ w _ => isUnit w 4 0x46
  | .vgetf _ _ w _ => isUnit w 4 0x47
  | .veDependenceRelease _ _ _ => true
  | .vePerfClear _ => true
  | .seqQueueTailWrite _ _ _ => true
  | .seqDispatch _ _ => true
  | .seqCompletionSignal _ => true
  | .seqCtrWrite _ _ _ => true
  | .seqCtrInc _ _ _ => true
  | .syncWait _ _ w => isUnit w 6 0x60
  | .syncWaitSatisfied _ _ => true
  | .syncSignal _ _ w => isUnit w 6 0x61
  | .syncPwait _ _ w => isUnit w 6 0x62
  | .pennantPoll _ _ => true
  | .syncPsignal _ _ w => isUnit w 6 0x63
  | .syncSetbase _ _ w => isUnit w 6 0x64
  | .syncCall _ _ w => isUnit w 6 0x65
  | .syncHalt _ _ w => isUnit w 6 0x66
  | .seqWaitWatchdog _ _ => true
  | .queueStart _ _ => true
  | .queueStop _ _ => true
  | .queueResume _ _ => true
  | .queueResumeSkip _ _ => true
  | .queueAbort _ _ => true
  | .dmaCopy _ _ w => isUnit w 5 0x50
  | .dmaCopy2d _ _ w => isUnit w 5 0x51
  | .dmaFill _ _ w => isUnit w 5 0x52
  | .dmaCommandStart _ => true
  | .dmaPacketAck _ _ _ _ => true
  | .lsArbitrate _ _ _ _ => true
  | .gasZero _ _ w => isUnit w 7 0x70
  | .gasDrain _ _ w => isUnit w 7 0x71
  | .gasDrainStart _ => true
  | .gasDrainPieceRead _ _ _ _ => true
  | .keptInputRebuild _ _ _ _ _ _ _ => true
  | .variantTableActivate _ _ => true
  | .sequenceAdmit _ _ _ seq => decide (0 < seq.rows) && decide (seq.rows ≤ 65536)
  | .adapterDrainRequest _ _ _ _ w => isUnit w 7 0x71
  | .cadEnable _ => true
  | .cadDone _ _ => true
  | .cadDeadline _ waiting => waiting.all (fun x => decide (x < 40))
  | .cadPeriodStart _ => true
  | .evalBatchStart _ _ => true
  | .channelRecalibrate _ _ => true
  | .dimmTempSample _ _ temps => temps.all (fun t => decide (t < 256))
  | .sealRead _ _ => true
  | .sealReadComplete _ _ _ => true
  | .sealFullWrite _ _ _ => true
  | .sealPartialWrite _ _ _ => true
  | .sealAtomicAdd _ _ _ => true
  | .sealReinit _ _ => true
  | .sealReinitComplete _ lost => lost.Nodup
  | .patrolScrubStep _ _ _ _ => true
  | .residentScrub _ _ => true
  | .treeInitComplete _ => true
  | .sealPerfClear _ => true
  | .ueEnable _ _ _ => true
  | .uePause _ => true
  | .ueReset _ => true
  | .ueSquareLand _ shard _ _ _ => decide (shard < 16384)
  | .ueSquareCommit _ _ => true
  | .ueBurstAck _ => true
  | .ueNormin _ _ => true
  | .ueReload _ _ _ => true
  | .ueRederive _ _ _ => true
  | .ueAudit _ _ _ => true
  | .ueAuditInterval _ _ => true
  | .ueExport _ _ _ => true
  | .ueImport _ _ _ => true
  | .ueDisable _ _ => true
  | .ueSnapshot _ _ _ => true
  | .ueCommandComplete _ => true
  | .groupCreate _ _ => true
  | .groupClaim _ _ => true
  | .groupResume _ _ => true
  | .groupAbort _ _ => true
  | .groupReset _ _ => true
  | .groupFree _ _ => true
  | .groupTailWrite _ _ _ => true
  | .descriptorFetch _ => true
  | .triggerPoll _ => true
  | .operationStart _ => true
  | .pieceCombine _ _ _ _ _ len => decide (0 < len)
  | .pieceReceive _ _ p => isPiece p
  | .pieceAckSend _ _ => true
  | .pieceAck _ _ _ _ => true
  | .noctxRetry _ _ _ => true
  | .operationComplete _ _ => true
  | .beaconSend _ => true
  | .beaconReceive _ _ _ _ => true
  | .groupStall _ => true
  | .abortMessageReceive _ _ => true
  | .clCounterClear _ _ => true
  | .controlCodewordSend _ => true
  | .controlCodewordReceive _ c tag => isCtl c && decide (tag.length = 16)
  | .torusPacketReceive _ _ p _ => isTorus p
  | .linkRetrain _ => true
  | .linkTrainComplete _ _ => true
  | .linkTrainRetry _ => true
  | .linkDown _ _ => true
  | .downPortHoldExpire _ _ => true
  | .epochChange _ _ => true
  | .forcedRekey _ _ _ => true
  | .linkCounterClear _ => true
  | .cableInsert _ => true
  | .cableRemove _ => true
  | .sxEnable _ => true
  | .openall _ => true
  | .boot _ _ => true
  | .sxDisable _ _ => true
  | .data _ f => isFrame f
  | .done _ f => isFrame f
  | .sack _ f => isFrame f
  | .include_ _ f => isFrame f
  | .corr _ f => isFrame f
  | .mhead _ f => isFrame f
  | .merge _ f => isFrame f
  | .snapreq _ f => isFrame f
  | .snaphead _ f => isFrame f
  | .snap _ f => isFrame f
  | .notice _ f => isFrame f
  | .probe _ f => isFrame f
  | .probeSend _ _ _ => true
  | .leaderDataDeadline _ _ => true
  | .leaderCorrDeadline _ _ => true
  | .frameResendTimeout _ _ => true
  | .sackSend _ _ _ _ => true
  | .siteOutOfTouch _ _ => true
  | .exchangeCollectiveDone _ _ => true
  | .packetTooBig _ _ mtu => decide (mtu < 65536)
  | .sitePortLinkChange _ _ => true
  | .sxCounterClear _ => true
  | .spCounterClear => true
  | .sitePortPacketReceive _ _ => true
  | .sitePortTransmitSlot _ => true
  | .spdmGetVersion _ => true
  | .spdmGetCapabilities _ => true
  | .spdmNegotiateAlgorithms _ _ => true
  | .spdmGetDigests _ => true
  | .spdmGetCertificate _ slot _ _ => decide (slot < 8)
  | .spdmChallenge _ nonce => decide (nonce.length = 32)
  | .spdmGetMeasurements _ index nonce => (match nonce with | some n => decide (n.length = 32) | none => true) && decide (index < 256)
  | .spdmKeyExchange _ _ => true
  | .spdmFinish _ _ => true
  | .spdmEndSession _ => true
  | .spdmChunkSend _ _ _ => true
  | .spdmChunkGet _ _ => true
  | .spdmVendorDefinedRequest _ _ => true
  | .doeDiscovery _ => true
  | .doeAbort => true
  | .doeResponseReady => true
  | .secOwnWrite _ _ => true
  | .secAssign _ _ => true
  | .secKagree _ _ _ => true
  | .ka1 _ => true
  | .ka2 _ _ => true
  | .ka3 _ _ => true
  | .kaTimeout _ => true
  | .secDatakey _ _ => true
  | .datakeyWithdraw _ _ _ => true
  | .secCkpt _ _ _ => true
  | .secResume _ _ _ => true
  | .secShare _ _ => true
  | .secRelease _ _ _ => true
  | .secConsent _ _ => true
  | .consentWithdraw _ party _ _ => decide (party < 16)
  | .secKeydrop _ _ _ => true
  | .secScrub _ _ => true
  | .scrubQuiesced _ => true
  | .scrubQuiesceTimeout _ => true
  | .scrubComplete _ => true
  | .partyRecordDecrypt _ _ _ => true
  | .ideIntegrityFailure => true
  | .tapInstruction _ => true
  | .scanEnable => true
  | .debugProbeInsert => true
  | .debugProbeRemove => true
  | .hostLinkTrain _ => true
  | .perstAssert => true
  | .functionLevelReset => true
  | .hostSnoop addr => decide (addr < 2 ^ 48)
  | .bar0BadAccess addr _ => decide (addr < 2 ^ 26)
  | .msixVectorUnmask _ => true
  | .regionDisable _ _ => true
  | .ringEnable _ _ => true
  | .ringDisable _ _ => true
  | .ringDescriptorStart _ _ _ => true
  | .ringDescriptorComplete _ _ => true
  | .ringRestart _ _ => true
  | .ringAbort _ _ => true
  | .dpDataWrite _ bytes => isDpLen bytes.length
  | .dpDataRead _ len => isDpLen len
  | .dpCtlWrite _ _ => true
  | .dpStatusRead _ => true
  | .eventReceive => true
  | .hosttimeWrite _ => true
  | .mboxToWrite _ _ => true
  | .mboxFromWrite _ _ => true
  | .mboxToRead _ => true
  | .mboxFromRead _ => true
  | .info => true
  | .mgmtRead addrs => addrs.all isReg
  | .mgmtWrite addr _ _ _ => isReg addr
  | .dpset _ _ _ _ => true
  | .dpdata bytes => isDpLen bytes.length
  | .dpread len => isDpLen len
  | .secbuf _ _ _ => true
  | .tenantImageStart _ mpa len => decide (mpa < 2 ^ 48) && decide (0 < len)
  | .tenantHypercall _ _ _ => true
  | .guestFault _ _ => true
  | .serviceCoreCacheError _ _ => true
  | .hostLinkDown => true
  | .eventRingHoldoffExpire => true
  | .nvWriteStart _ => true
  | .nvWriteDeferTimeout => true
  | .bind => true
  | .erase _ _ => true
  | .program _ _ => true
  | .commit _ _ => true
  | .mcr => true
  | .flCommandComplete _ => true
  | .eventLogPageProgram => true
  | .powerOn env => isEnv env
  | .startUpComplete env => isEnv env
  | .pllLockTimeout _ => true
  | .mrstNAssert => true
  | .mrstNRelease env => isEnv env
  | .wakeAssert env => isEnv env
  | .rstMrst _ env => isEnv env
  | .rstSrst _ env => isEnv env
  | .rstCrst _ _ => true
  | .rstDrst _ _ => true
  | .rstLrst _ _ => true
  | .resetComplete => true
  | .refclkLoss => true
  | .refclkRestore env => isEnv env
  | .supplyWarning _ => true
  | .supplyWarningClear _ => true
  | .undervoltage => true
  | .inputRecovery env => isEnv env
  | .overvoltage => true
  | .overvoltageRecovery env => isEnv env
  | .alwaysOnPowerLoss => true
  | .thermalThrottle _ _ => true
  | .throttleExit => true
  | .powerCapAdjust _ _ => true
  | .park _ => true
  | .parkQuiesceCheck _ => true
  | .unpark _ _ => true
  | .standby => true
  | .quench _ _ => true
  | .quenchRestart env => isEnv env
  | .nvWriteComplete => true
  | .pwrVinRead => true
  | .safetySample x => isSample x
  | .comparatorSelfTest _ _ => true
  | .autoCrst _ => true
  | .registerPairRead _ addr _ => isReg addr

end Sys2Proof
end

