-- ==== Sys2Proof/Safety.lean ====
section
/-! DEFINITION. What a safe run is, in the terms statements use: outcomes, frames, the invariant. -/
namespace Sys2Proof.Machine

/-- The outcome is a next state, and P holds of it. -/
def Yields (o : Out) (P : State → Prop) : Prop := ∃ t, o = .next t ∧ P t

/-- Every register but the listed ones reads as before. -/
def OnlyRegs (as : List Nat) (s t : State) : Prop := ∀ a, a ∉ as → t.rd a = s.rd a

/-- Every byte of memory reads as before. -/
def SameMem (s t : State) : Prop := ∀ a, t.byte a = s.byte a

/-- Every byte of memory outside n bytes from a reads as before. -/
def MemOutside (a n : Nat) (s t : State) : Prop := ∀ b, (b < a ∨ a + n ≤ b) → t.byte b = s.byte b

/-- Whether byte i of a write of n bytes lies in a word written only in part, on a poisoned line: such bytes are not
written (R179). -/
def State.mergeLost (s : State) (a n i : Nat) : Bool :=
  (decide ((a + i) / 4 * 4 < a) || decide (a + n < (a + i) / 4 * 4 + 4)) && s.poisoned (a + i) 1

/-- The structural invariant: memory, registers and poison marks are in canonical form, so that equal contents are equal
data (R10, R27, R180). -/
structure Inv (s : State) : Prop where
  mem : Memory.wf s.mem = true
  regs : Sparse.wf regReset s.regs = true
  poison : Sparse.wf (fun _ => false) s.poison = true

/-! ### What a queue meets -/

/-- A command word stands at the head of a running queue of a die with its clock, and has no cause to be refused (R162,
R190). -/
structure AtHead (s : State) (d : Fin 40) (q : Fin 4) (w : Cmd) (a idx depth : Nat) : Prop where
  clock : s.dieOff d = false
  runs : s.qState d q = 1
  place : s.nextAt d q = some (a, idx, depth)
  word : s.cmdAt a = w
  fine : s.headCause d w depth = none

/-- The increments a command's completion adds one cycle on (R164, R165): none for SIG = 0. -/
def sigDue (q : Fin 4) (w : Cmd) (cycle : Nat) : List (Nat × Nat × Nat) :=
  if sigOf w = 0 then [] else [(cycle, 16 * q.val + sigOf w, 1)]

/-- A queue outside any call block has moved on by one command of its ring (R160). -/
def MovedOn (d : Fin 40) (q : Fin 4) (s t : State) : Prop :=
  (s.que d q).stack = [] → t.qHead d q = (s.qHead d q + 1) % 65536

/-! ### What an array writes -/

/-- Whether column j is the last of its destination line that a row has still to compute (R179). -/
def FedRow.lastOf (r : FedRow) (j : Nat) : Bool :=
  (lineCols r.set.cols (j / 16)).all (fun c => c == j || !r.todo.toNat.testBit c)

/-! ### What the vector engine meets -/

/-- An instruction stands at the head of the vector engine's FIFO with no cause to be refused (R155), its generators
seeded where it draws (R66), no poisoned line in its way (R179, R180), and its die has its clock. -/
structure VeReady (s : State) (d : Fin 40) (q : Fin 4) (w : Cmd) (bad : List VeBad) : Prop where
  head : ∃ e, s.head? d veUnit = some e ∧ e.q = q ∧ e.w = w ∧ e.quiet = false
  free : (s.cd d).stopped[veUnit] = false
  runs : s.dieOff d = false
  fine : veCause w = none
  seeded : veSr w = true → s.flag (R.ARITH_SR_STATUS (cdBase d)) F.ARITH_SR_STATUS_SEEDED = true
  clean : s.veDone d bad w = veCount w

/-- The bytes of memory in the destination of a vector-engine instruction (R124, R127, R135, R139). -/
def VeWrites (d : Fin 40) (w : Cmd) (b : Nat) : Prop :=
  (opcodeOf w = 0x41 ∧ ∃ r, r < cbits w 21 16 + 1 ∧ tRow d w r ≤ b ∧
    b < tRow d w r + streamLen (cbits w 83 80) (cbits w 27 22 + 1)) ∨
  ((opcodeOf w < 0x40 ∨ opcodeOf w = 0x45) ∧ ∃ a n width, Span.ls a n width ∈ (eSpans (opcodeOf w) w).2 ∧
    lsBase d + a ≤ b ∧ b < lsBase d + a + n)

/-- A 32-bit integer result: the exact value saturated, as a two's-complement word (R137). -/
def sat32 (z : Int) : Nat := unsignedN 32 (max (-2 ^ 31) (min (2 ^ 31 - 1) z))

/-- An integer element of a tile register. -/
def tileInt (s : State) (d : Fin 40) (i : Nat) : Int := signedN 32 ((s.ve d).tile i)

/-! ### What the DMA and GAS units meet -/

/-- The first n packets of what a DMA command has to move (R176). -/
def firstPackets : Nat → DmaTodo → List DmaPacket
  | 0, _ => []
  | n + 1, t => match nextPacket t with
    | some (p, u) => p :: firstPackets n u
    | none => []

/-- A command of a unit stands at the head of its FIFO, with no cause to be refused; the unit is not stopped, and its die
has its clock. -/
structure UnitReady (s : State) (d : Fin 40) (u : Fin 8) (e : UCmd) : Prop where
  runs : s.dieOff d = false
  head : s.head? d u = some e
  free : (s.cd d).stopped[u] = false
  fine : s.headCause d e.w e.depth = none
  loud : e.quiet = false

/-! ### What a seal engine answers -/

/-- A request's part is answered (R252-R254): kept while other parts wait, and given to the outside once it is the whole
answer. `u` is the state with the part taken from the engine. -/
def Answered (u t : State) (r : SealReq) (res : Option (List Byte)) : Prop :=
  (u.reqWaits r.id = true → t.got = u.got ++ [(r.id, r.mpa, res)]) ∧
  (u.reqWaits r.id = false → u.got.filter (fun p => p.1 == r.id) = [] →
    t.got = u.got ∧ t.resp = match res with | none => .busError | some [] => .done | some d => .data d)

/-! ### What the exchange quantiser meets -/

/-- Two ranges of memory do not meet. -/
def Apart (a n b k : Nat) : Prop := a + n ≤ b ∨ b + k ≤ a

/-- A frame authenticated (R391) at a quantiser that runs, with its payload and the valid holder entry it is for. -/
structure FrameFor (s u : State) (m : Fin 16) (f : SiteFrame) (data : List Byte) (e : SxEntry) : Prop where
  auth : s.authFrame m f = (u, some data)
  runs : s.flag (R.SX_CTL m) F.SX_CTL_EN = true
  entry : u.sxFind m f.sxid = some e

/-- A leader takes frames of a contributor's round (R374, R379): it leads, the round is its own, its data deadline has
not passed, and the site is another configured one. -/
structure Collects (u : State) (m : Fin 16) (f : SiteFrame) (e : SxEntry) : Prop where
  calm : e.state < 3
  leads : u.choice m e = some (u.ownSite m)
  round : f.round = e.round
  open_ : e.lstate < 2
  early : u.pastData m (u.leadOf m e) = false
  site : u.siteWeight m f.srcSite ≠ 0 ∧ f.srcSite ≠ u.ownSite m ∧ f.srcSite < 64

/-! ### What a group's rings hold -/

/-- Ring u of a group: 0-5 along the axes, 6 the layers of a canton (R314). -/
def ringOf (x : Group) (u : Fin 7) : GRing := x.rings[u]

/-! ### What a security command meets -/

/-- The SPDM responder can answer: an identity is derived (R404), and the requester is not told to wait (R481). -/
def SpdmReady (s : State) (tcp : Bool) : Prop :=
  s.flag R.SEC_STATUS F.SEC_STATUS_IDOK = true ∧
  (tcp = true ∨ s.pwr.mode ≠ .starting ∨ 3 ≤ s.get R.BOOT_STATUS F.BOOT_STATUS_PHASE)

/-- A security command is taken up (R441, R479): none runs, the module is not in the recovery profile, the view owns
SEC_BUF and may name canton k, which exists. -/
structure SecReady (s : State) (v : View) (k : Fin 8) : Prop where
  idle : s.flag R.SEC_CMDSTAT F.SEC_CMDSTAT_BUSY = false
  normal : s.recovery = false
  owner : s.get R.SEC_OWN F.SEC_OWN_VIEW = s.viewNo v
  named : (s.viewNo v = 8 ∨ s.viewNo v = k) ∧ k.val < s.cantons

/-- A security command completed (R441). -/
def SecDone (t : State) : Prop := t.flag R.SEC_CMDSTAT F.SEC_CMDSTAT_DONE = true

/-- A security command was refused with a code (R441). -/
def SecRefused (t : State) (code : Nat) : Prop :=
  t.flag R.SEC_CMDSTAT F.SEC_CMDSTAT_REFUSED = true ∧ t.get R.SEC_CMDSTAT F.SEC_CMDSTAT_CODE = code

/-- One event more, of a code, a die and a canton. -/
def OneEvent (s t : State) (code die : Nat) (k : Option Nat) : Prop :=
  ∃ e, t.events = s.events ++ [e] ∧ e.code = code ∧ e.die = die ∧ e.canton = k

end Sys2Proof.Machine
end

