-- ==== Sys2Proof/Certificates/Slice0/Obligations.lean ====
section
/-! DEFINITION. The statements about the machine, for the provers. -/
open Sys2Proof Sys2Proof.Machine

/-- One step takes the command at the front of the queue and runs exec on it with the rest (rests on 00_scope.md). For
every command c and every state s whose queue of waiting commands is c followed by r, step answers what exec answers
for c on s with the queue r. With no command waiting the block idles: only its time base moves, by one tick (the
model's choice, log 1). The queue of waiting commands is the model's own (log 1). -/
def Obligations.StepRunsTheFrontCommand : Prop :=
(∀ (s : State) (c : Instr) (r : List Instr), s.pending = c :: r → step s = exec c { s with pending := r }) ∧
  (∀ s : State, s.pending = [] → step s = .next { s with now := s.now + 1 })

/-- After reset every register reads its cold-reset value, memory reads 0, every queue and engine is empty (rests on
R15, R192, R245, R60, 00_scope.md). Right after reset each register address reads the cold-reset value of the register
tables, every byte of memory reads 0, no command waits, no event is out, every program queue of every compute die is
IDLE with an empty ring and no call in progress, and the state satisfies the structural invariant. That a byte of
memory nothing has written reads 0 is R192 for the stores and R245 for DRAM, and the model's choice elsewhere (log 3).
-/
def Obligations.ResetLeavesTheModuleIdle : Prop :=
(∀ a, State.reset.rd a = regReset a) ∧ (∀ a, State.reset.byte a = 0) ∧ State.reset.pending = [] ∧
  State.reset.events = [] ∧
  (∀ (d : Fin 40) (q : Fin 4), (State.reset.que d q).stack = [] ∧ (State.reset.que d q).wait = none ∧
    ∀ u : Fin 8, (State.reset.cd d).fifo u = []) ∧
  Inv State.reset

/-- Every step keeps memory, registers and poison marks in canonical form (rests on R10, R27, R180). From every state
that meets the invariant, whatever command stands at the front of the queue, the next state of a step meets it too:
memory lists addresses strictly rising and no byte 0, registers list addresses strictly rising and no value a register
has after a cold reset, poison marks likewise; so equal contents are equal data in every state a run can reach. The
canonical form is the model's (log 2); what it holds is R10 (registers), R27 (memory), R180 (poison). -/
def Obligations.EveryStepKeepsTheCanonicalForms : Prop :=
∀ s t : State, Inv s → step s = .next t → Inv t

/-- Every command completes in every state, and changes nothing of the queue that waits behind it (rests on
00_scope.md). Whatever command runs, in whatever state, it answers a next state (no command of the table faults or is
refused), and the commands waiting behind it are the same after it as before it: a command's effect is on everything
but the queue. The queue is the model's own (log 1). -/
def Obligations.NoCommandTouchesTheQueue : Prop :=
∀ (c : Instr) (s : State), Yields (exec c s) (fun t => t.pending = s.pending)

/-- A register write stores RW fields, clears RW1C bits written as 1, and leaves RO fields alone (rests on R11, R12,
R14, R36). For every register r of a compute die (other than a fault record whose cleared VALID bit clears it whole),
written by the trust die while the die answers, the register takes the write in its present state and no field gets a
reserved encoding: the write completes; an RO field keeps its value; an RW field without a row of its own takes the
value written; a bit of an RW1C field is cleared where 1 is written and kept where 0 is written, and is 1 where the
hardware sets it in the same cycle. Every other register and every other piece of state is unchanged. -/
def Obligations.RegisterWriteFollowsAccessTypes : Prop :=
∀ (s : State) (d : Fin 40) (off : Nat) (r : RegRow) (x hw : W32),
    off < 0x100000 → regAt (cdBase d + off) = some r → r.die = .cd → recordRegs.contains (r.die, r.off) = false →
    s.dieOff d = false → s.writeHeld r (cdBase d + off) = false → reservedBits r x = 0 →
    Yields (exec (.registerWrite .td (cdBase d + off) x hw) s) (fun t =>
      (∀ f ∈ r.fields,
        (f.acc = .ro → fldOf (t.rd (cdBase d + off)) (f.hi, f.lo) = fldOf (s.rd (cdBase d + off)) (f.hi, f.lo)) ∧
        (f.acc = .rw → ownFields.contains (r.die, r.off, f.lo) = false →
          fldOf (t.rd (cdBase d + off)) (f.hi, f.lo) = fldOf x (f.hi, f.lo)) ∧
        (f.acc = .rw1c → ∀ i, f.lo ≤ i → i ≤ f.hi →
          (t.rd (cdBase d + off)).getLsbD i = (hw.getLsbD i || ((s.rd (cdBase d + off)).getLsbD i && !x.getLsbD i)))) ∧
      OnlyRegs [cdBase d + off] s t ∧ t = { s with regs := t.regs })

/-- A reserved or foreign register access reads 0 or is ignored, and raises its event (rests on R35, R36). An access
to a reserved CRS address answers 0 to a read, ignores a write, and the trust die raises one event of category 0 (its
cause byte is a free value, log 5). A service core's access to another canton's die or view answers 0 to a read,
ignores a write, and raises a security alarm (category 4) of that core's die. Nothing else changes: no register, no
byte of memory. -/
def Obligations.ReservedAndForeignRegistersReadZero : Prop :=
(∀ (s : State) (v : View) (addr : Nat) (wr : Option W32), s.crsReserved addr = true →
    Yields (exec (.crsReservedAccess v addr wr) s) (fun t =>
      t.resp = (if wr.isNone then .value 0 else .done) ∧
      (∃ e : Event, t.events = s.events ++ [e] ∧ e.die = 63 ∧ e.code / 256 = 0x00) ∧
      t = { s with resp := t.resp, events := t.events })) ∧
  (∀ (s : State) (d : Fin 40) (addr : Nat) (wr : Option W32), s.foreign d addr wr.isNone = true →
    Yields (exec (.crsForeignAccess d addr wr) s) (fun t =>
      t.resp = (if wr.isNone then .value 0 else .done) ∧
      (∃ e : Event, t.events = s.events ++ [e] ∧ e.die = d.val ∧ e.code / 256 = 0x44) ∧
      t = { s with resp := t.resp, events := t.events }))

/-- A memory access is served, held or refused with a bus error and an event, and changes nothing else (rests on R28,
R27, R179, R180, R184). An access to the module physical address space that the check of R28 refuses answers a bus
error, raises one event at its entry die in the category the check names (2 reserved, 4 forbidden) and reaches no
target. An allowed read of a compute die's store answers the bytes there, or a bus error where a line of it is
poisoned; one of a landing buffer or a reduction memory answers the bytes there, as reductions in flight stand there.
An allowed write to a store writes each of its bytes, but for those of a word it writes only in part on a poisoned
line, for which it answers a bus error; every byte outside the range reads as before. An addition adds to the 8 bytes
of its address, modulo 2^64, or answers a bus error where their line is poisoned. A write or an addition into a
granule that a drain covers is held. An access to DRAM within one block becomes one request to the seal engine that
owns it; any write to DRAM stores nothing by itself. -/
def Obligations.MemoryAccessIsCheckedOnceOnEntry : Prop :=
(∀ (s : State) (r : Requester) (op : MpaOp) (addr cat : Nat),
    s.checkRange r (mpaWrites op) addr (mpaLen op) = .busError cat →
    Yields (exec (.mpaAccess r op addr) s) (fun t => t.resp = .busError ∧
      (∃ e : Event, t.events = s.events ++ [e] ∧ e.die = entryDie r ∧ e.code / 256 = dieClass (entryDie r) * 16 + cat) ∧
      t = { s with resp := t.resp, events := t.events })) ∧
  (∀ (s : State) (r : Requester) (addr n d off : Nat),
    s.checkRange r false addr n = .ok → s.placeOf addr = .cd d off →
    Yields (exec (.mpaAccess r (.read n) addr) s) (fun t =>
      t.resp = (if s.poisoned addr n then .busError else .data (s.bytes addr n)) ∧ t = { s with resp := t.resp })) ∧
  (∀ (s : State) (r : Requester) (addr n : Nat),
    s.checkRange r false addr n = .ok → ((∃ m, s.placeOf addr = .landing m) ∨ ∃ l, s.placeOf addr = .redmem l) →
    Yields (exec (.mpaAccess r (.read n) addr) s) (fun t =>
      t.resp = .data ((s.showPlace (s.placeOf addr)).bytes addr n) ∧ t = { s with resp := t.resp })) ∧
  (∀ (s : State) (r : Requester) (bs : List Byte) (addr d off : Nat),
    s.checkRange r true addr bs.length = .ok → s.placeOf addr = .cd d off →
    (s.cd (fin40 d)).coversWindow off bs.length = false →
    Yields (exec (.mpaAccess r (.write bs) addr) s) (fun t =>
      t.resp = (if (List.range bs.length).any (s.mergeLost addr bs.length) then .busError else .done) ∧
      (∀ i, i < bs.length →
        t.byte (addr + i) = if s.mergeLost addr bs.length i then s.byte (addr + i) else bs.getD i 0) ∧
      MemOutside addr bs.length s t ∧ t = { s with mem := t.mem, poison := t.poison, resp := t.resp })) ∧
  (∀ (s : State) (r : Requester) (inc : BitVec 64) (addr d off : Nat),
    s.checkRange r true addr 8 = .ok → s.placeOf addr = .cd d off → (s.cd (fin40 d)).coversWindow off 8 = false →
    Yields (exec (.mpaAccess r (.add inc) addr) s) (fun t =>
      t.resp = (if s.poisoned addr 8 then .busError else .done) ∧
      t.num addr 8 = (if s.poisoned addr 8 then s.num addr 8 else (s.num addr 8 + inc.toNat) % 2 ^ 64) ∧
      MemOutside addr 8 s t ∧ t = { s with mem := t.mem, resp := t.resp })) ∧
  (∀ (s : State) (r : Requester) (op : MpaOp) (addr d off : Nat), mpaWrites op = true →
    s.checkRange r true addr (mpaLen op) = .ok → s.placeOf addr = .cd d off →
    (s.cd (fin40 d)).coversWindow off (mpaLen op) = true →
    exec (.mpaAccess r op addr) s = .next (s.setCd (fin40 d)
      { s.cd (fin40 d) with held := (s.cd (fin40 d)).held ++ [(⟨entryDie r, addr, op⟩ : HeldWrite)] })) ∧
  (∀ (s : State) (r : Requester) (op : MpaOp) (addr k m c b : Nat),
    s.checkRange r (mpaWrites op) addr (mpaLen op) = .ok → s.placeOf addr = .dram k →
    s.channelOf addr = some (m, c, b) → 0 < mpaLen op → addr % 256 + mpaLen op ≤ 256 →
    exec (.mpaAccess r op addr) s = .next ({ s with reqNo := s.reqNo + 1 }.setMd (fin16 m)
      { s.md (fin16 m) with
        eng := { s.eng (fin16 m) with reqs := (s.eng (fin16 m)).reqs ++ [(⟨s.reqNo + 1, entryDie r, op, addr⟩ : SealReq)] } })) ∧
  (∀ (s : State) (r : Requester) (bs : List Byte) (addr k : Nat),
    s.checkRange r true addr bs.length = .ok → s.placeOf addr = .dram k →
    Yields (exec (.mpaAccess r (.write bs) addr) s) (fun t => SameMem s t ∧ t.regs = s.regs ∧ t.events = s.events))

/-- A bad flit is re-sent and counted, a dead port goes down, a packet's hop brings it one step nearer (rests on R20,
R21, R22, R23, R25, R37). A flit over a link that is neither held idle nor down, whose CRC fails, makes the receiving
port ask for a re-send: the row of failures of that port grows by one and RETRY_CNT of the die across the port is
counted up; a good flit ends the row; over a link held idle or down no flit comes. After a flit and 16 re-sends of it
have failed, and not before, a port is declared down: DOWN is set for it, UP cleared on both sides (the model's
choice, log 124), and the dies on both sides raise a fatal event (category 3). The head of a packet of an allowed
length (1 to 64 flits, 1 of an urgent one) crosses one router: its distance to the destination, in columns and rows,
falls by exactly one, and it leaves the fabric where that distance becomes 0; at a busy output stage, or where the
link is held idle or down, it keeps its place and is marked waiting. No command of these changes memory. -/
def Obligations.FabricFlitsAndPacketsMove : Prop :=
(∀ (s : State) (die : Fin 64) (port : Fin 4) (o : Nat), neighbour die port = some o → s.linkShut die port = false →
    Yields (exec (.fabricFlitReceive die port false) s) (fun t =>
      Sparse.get (fun _ => 0) t.fabRetry (portKey die port) = Sparse.get (fun _ => 0) s.fabRetry (portKey die port) + 1 ∧
      (let old := s.get (R.FAB_PORT_STATUS (dieCrs o)) F.FAB_PORT_STATUS_RETRY_CNT
       t.get (R.FAB_PORT_STATUS (dieCrs o)) F.FAB_PORT_STATUS_RETRY_CNT =
         satN (2 ^ (F.FAB_PORT_STATUS_RETRY_CNT.1 + 1 - F.FAB_PORT_STATUS_RETRY_CNT.2) - 1) (old + 1)) ∧
      OnlyRegs [R.FAB_PORT_STATUS (dieCrs o)] s t ∧ t = { s with regs := t.regs, fabRetry := t.fabRetry }) ∧
    Yields (exec (.fabricFlitReceive die port true) s) (fun t =>
      Sparse.get (fun _ => 0) t.fabRetry (portKey die port) = 0 ∧ t = { s with fabRetry := t.fabRetry })) ∧
  (∀ (s : State) (die : Fin 64) (port : Fin 4) (ok : Bool), s.linkShut die port = true →
    exec (.fabricFlitReceive die port ok) s = .next s) ∧
  (∀ (s : State) (die : Fin 64) (port : Fin 4) (o : Nat), neighbour die port = some o →
    (Sparse.get (fun _ => 0) s.fabRetry (portKey die port) < 17 → exec (.fabricPortDown die port) s = .next s) ∧
    (17 ≤ Sparse.get (fun _ => 0) s.fabRetry (portKey die port) →
     Yields (exec (.fabricPortDown die port) s) (fun t =>
      (t.get (R.FAB_PORT_STATUS (dieCrs die)) F.FAB_PORT_STATUS_DOWN).testBit port = true ∧
      (t.get (R.FAB_PORT_STATUS (dieCrs die)) F.FAB_PORT_STATUS_UP).testBit port = false ∧
      (t.get (R.FAB_PORT_STATUS (dieCrs o)) F.FAB_PORT_STATUS_UP).testBit ((port.val + 2) % 4) = false ∧
      (∃ e f : Event, t.events = s.events ++ [e, f] ∧ e.die = die.val ∧ f.die = o ∧ e.code / 256 % 16 = 3 ∧ f.code / 256 % 16 = 3) ∧
      OnlyRegs [R.FAB_PORT_STATUS (dieCrs die), R.FAB_PORT_STATUS (dieCrs o)] s t ∧
      t = { s with regs := t.regs, events := t.events }))) ∧
  (∀ (s : State) (id : Nat) (src dst : Fin 64) (cls : PacketClass) (flits : Nat) (busy shut : Bool) (p : Packet),
    (s.packets.find? (fun x => x.id == id)).getD
      (⟨id, src, dst, cls, turnOrder src dst, flits, (diePos src).1, (diePos src).2, false, s.now⟩ : Packet) = p →
    0 < p.flits → p.flits ≤ classMost p.cls →
    s.linkShut (dieAt p.col p.row) (portTo (p.col, p.row) (nextHop p.col p.row (diePos p.dst).1 (diePos p.dst).2)) = shut →
    (busy = false → shut = false → (p.col, p.row) ≠ diePos p.dst →
      Yields (exec (.fabricPacketHop id src dst cls flits busy) s) (fun t =>
       (∃ q, (t.packets = q :: s.packets.filter (fun x => x.id != id) ∨
           (t.packets = s.packets.filter (fun x => x.id != id) ∧ (q.col, q.row) = diePos p.dst)) ∧
         ((q.col : Int) - (diePos p.dst).1).natAbs + ((q.row : Int) - (diePos p.dst).2).natAbs + 1 =
           ((p.col : Int) - (diePos p.dst).1).natAbs + ((p.row : Int) - (diePos p.dst).2).natAbs) ∧
       t = { s with packets := t.packets })) ∧
    (busy = true ∨ shut = true →
      Yields (exec (.fabricPacketHop id src dst cls flits busy) s) (fun t =>
       t.packets = { p with waiting := true } :: s.packets.filter (fun x => x.id != id) ∧
       t = { s with packets := t.packets })))

/-- A matrix array takes hoists, passes and collector commands from the head of its FIFO (rests on R96, R102, R103,
R104, R105, R113, R114, R115, R116, R117, R164, R165). With the command at the head of the array's FIFO, the array not
stopped and its die running, no other command taken in this cycle, and the fields within the rules, the command's own
row and the acceptance step alike take it: MA_HOIST takes the free waiting place under the next hoist number; MA_PASS,
with no batch open, takes the feeding place of an idle array, or the held place behind a feeding pass, with its slots,
formats and destination; MA_CCFG puts its configuration in force, sets CFG and BUF = 0 and completes. MA_REQ that fits
the open batch adds its rows to it and completes; a batch that then holds 128 rows, or MAXWAIT = 0, is issued at once
as a pass of its rows. MA_FLUSH issues the open batch (no row stays open, BUF toggles) and completes. Each leaves the
FIFO; a completion sends the increment of SIG; only MA_STATUS and the collector registers change, and no byte of
memory. -/
def Obligations.ArraysAcceptTheirCommands : Prop :=
∀ (s : State) (d : Fin 40) (a q : Fin 4) (w : Cmd) (e : UCmd), s.head? d (maUnit a) = some e → e.q = q → e.w = w →
    e.quiet = false → (s.cd d).stopped[maUnit a] = false → s.dieOff d = false → (s.ma d a).accAt ≠ s.aclk + 1 →
    (isUnit w a 0x01 = true → hoistCause w = none → (s.ma d a).waiting = none →
      ∀ c ∈ ([.maHoist d a q w, .maCommandAccept d a] : List Instr), Yields (exec c s) (fun t =>
        (∃ h, (t.ma d a).waiting = some h ∧ h.e = e ∧ h.no = (s.ma d a).hoists + 1) ∧
        (t.ma d a).hoists = (s.ma d a).hoists + 1 ∧ (t.ma d a).lastHoist = some w ∧
        (t.cd d).fifo (maUnit a) = ((s.cd d).fifo (maUnit a)).tail ∧
        OnlyRegs [R.MA_STATUS d a, R.MA_COLL d a, R.MA_COLL_TIMER d a] s t ∧ t = { s with regs := t.regs, cds := t.cds })) ∧
    (isUnit w a 0x02 = true → (s.ma d a).coll.rows = [] → passCause (s.ma d a).lastHoist w = none →
      (s.ma d a).held = none → (s.ma d a).issued = [] →
      ∀ c ∈ ([.maPass d a q w, .maCommandAccept d a] : List Instr), Yields (exec c s) (fun t =>
        (∃ p, ((s.ma d a).feeding = none → (t.ma d a).feeding = some p) ∧
          ((s.ma d a).feeding ≠ none → (t.ma d a).feeding = (s.ma d a).feeding ∧ (t.ma d a).held = some p) ∧
          p.e = e ∧ p.hoist = (s.ma d a).hoists ∧ p.slots = cbits w 45 36 + 1 ∧
          p.fmt = cbits w 56 54 ∧ p.aaddr = 64 * cbits w 35 16 ∧ p.daddr = 64 * cbits w 97 78 ∧ p.gas = cbit w 98 ∧
          p.acc = cbit w 99 ∧ p.pos = 0) ∧
        (t.cd d).fifo (maUnit a) = ((s.cd d).fifo (maUnit a)).tail ∧
        OnlyRegs [R.MA_STATUS d a, R.MA_COLL d a] s t ∧ t = { s with regs := t.regs, cds := t.cds })) ∧
    (isUnit w a 0x03 = true → ccfgCause w = none →
      ∀ c ∈ ([.maCcfg d a q w, .maCommandAccept d a] : List Instr), Yields (exec c s) (fun t =>
        (t.ma d a).coll.cfg = some w ∧ t.get (R.MA_COLL d a) F.MA_COLL_CFG = 1 ∧ t.get (R.MA_COLL d a) F.MA_COLL_BUF = 0 ∧
        (t.cd d).due = (s.cd d).due ++ sigDue q w (s.aclk + 1) ∧
        (t.cd d).fifo (maUnit a) = ((s.cd d).fifo (maUnit a)).tail ∧
        OnlyRegs [R.MA_STATUS d a, R.MA_COLL d a, R.MA_COLL_TIMER d a] s t ∧ t = { s with regs := t.regs, cds := t.cds })) ∧
    (∀ cfg, isUnit w a 0x04 = true → (s.ma d a).coll.cfg = some cfg →
      reqCause (s.ma d a).lastHoist (s.ma d a).coll.cfg w = none →
      (s.ma d a).coll.rows.length + (cbits w 42 36 + 1) ≤ 128 →
      ∀ c ∈ ([.maReq d a q w, .maCommandAccept d a] : List Instr), Yields (exec c s) (fun t =>
        ((s.ma d a).coll.rows.length + (cbits w 42 36 + 1) < 128 → cbits cfg 39 20 ≠ 0 →
          (t.ma d a).coll.rows = (s.ma d a).coll.rows ++ reqRows e (cbit cfg 19)) ∧
        ((s.ma d a).coll.rows.length + (cbits w 42 36 + 1) = 128 ∨ cbits cfg 39 20 = 0 →
          (t.ma d a).coll.rows = [] ∧
          ∃ p ∈ (t.ma d a).feeding.toList ++ (t.ma d a).issued,
            p.rows = (s.ma d a).coll.rows ++ reqRows e (cbit cfg 19) ∧ p.batch = some (cbits cfg 87 80)) ∧
        (t.cd d).due = (s.cd d).due ++ sigDue q w (s.aclk + 1) ∧
        (t.cd d).fifo (maUnit a) = ((s.cd d).fifo (maUnit a)).tail ∧
        OnlyRegs [R.MA_STATUS d a, R.MA_COLL d a, R.MA_COLL_TIMER d a] s t ∧ t = { s with regs := t.regs, cds := t.cds })) ∧
    (∀ cfg, isUnit w a 0x05 = true → (s.ma d a).coll.cfg = some cfg → cbits w 127 16 = 0 →
      ∀ c ∈ ([.maFlush d a q w, .maCommandAccept d a] : List Instr), Yields (exec c s) (fun t =>
        (t.ma d a).coll.rows = [] ∧
        ((s.ma d a).coll.rows ≠ [] →
          t.get (R.MA_COLL d a) F.MA_COLL_BUF = 1 - s.get (R.MA_COLL d a) F.MA_COLL_BUF) ∧
        (t.cd d).due = (s.cd d).due ++ sigDue q w (s.aclk + 1) ∧
        (t.cd d).fifo (maUnit a) = ((s.cd d).fifo (maUnit a)).tail ∧
        OnlyRegs [R.MA_STATUS d a, R.MA_COLL d a, R.MA_COLL_TIMER d a] s t ∧ t = { s with regs := t.regs, cds := t.cds }))

/-- A granted stream starts, a front swaps the weight set in, bitmap lines are read, and a granted slot is fed (rests
on R83, R89, R90, R91, R92, R93, R94, R99, R100, R109, R165). On a die that runs, in an array that no poisoned line
has stopped: the waiting hoist whose first weight row is granted, with nothing streaming and no poison met, becomes
the streaming hoist, begun in this cycle, with its column mask. A hoist whose 128 rows are in place, with no older
pass left to feed and the cycle max(L + 128 + paused, E + 1) reached, becomes the active weight set at that cycle, and
its increment of SIG is due when the front has crossed (254 cycles on, one more for the signal). A granted, unread
bitmap line of the feeding pass is read. A feeding pass whose front has started, offered once in this cycle: an
unmasked slot that is granted is fed, its 128 bytes (and 8 scale bytes) entering the array; a masked slot under KEEP
is passed over; a slot that is not granted is a bubble, offered again. Memory never changes. -/
def Obligations.WeightsStreamSwapAndFeed : Prop :=
∀ (s : State) (d : Fin 40) (a : Fin 4), s.dieOff d = false →
    (∀ h : Hoist, (s.ma d a).stopHoist = none → (s.ma d a).waiting = some h → (s.ma d a).streaming = none →
      s.granted d (maReq a) .hoist = true → s.rowPoisoned d h.e.w 127 = false → s.maskPoisoned d h.e.w = false →
      h.rows = [] →
      Yields (exec (.maStreamStart d a) s) (fun t => (t.ma d a).waiting = none ∧
        (∃ g, (t.ma d a).streaming = some g ∧ g.e = h.e ∧ g.no = h.no ∧ g.start = max s.aclk (s.ma d a).frontAt ∧
          g.cols = s.hoistCols d h.e.w ∧ g.rows.head? = some (s.weightRow d h.e.w 127) ∧
          g.rows.length = (if cbits h.e.w 58 56 = 4 then 2 else 1)) ∧
        OnlyRegs [R.MA_STATUS d a, R.MA_COLL d a] s t ∧ t = { s with regs := t.regs, cds := t.cds })) ∧
    (∀ h : Hoist, (s.ma d a).streaming = some h → 128 ≤ h.rows.length →
      (∀ p ∈ (s.ma d a).feeding.toList ++ (s.ma d a).held.toList ++ (s.ma d a).issued, h.no ≤ p.hoist) →
      max (h.start + 128 + h.paused) ((s.ma d a).lastSlot + 1) ≤ s.aclk → h.e.quiet = false →
      Yields (exec (.maFrontStart d a) s) (fun t => (t.ma d a).streaming = none ∧ (t.ma d a).active = setOf h ∧
        (t.ma d a).frontAt = max (h.start + 128 + h.paused) ((s.ma d a).lastSlot + 1) ∧ (t.ma d a).fronts = h.no ∧
        (t.cd d).due = (s.cd d).due ++ sigDue h.e.q h.e.w ((t.ma d a).frontAt + 255) ∧
        OnlyRegs [R.MA_STATUS d a, R.MA_COLL d a, R.MA_PERF_HUNUSED d a] s t ∧
        t = { s with regs := t.regs, cds := t.cds })) ∧
    (∀ (p : Pass) (line at_ : Nat), (s.ma d a).stopPass = none → (s.ma d a).feeding = some p → p.maskAt = some at_ →
      line * 512 < p.slots → (∀ l ∈ p.lines, l.1 ≠ line) → s.granted d (maReq a) .bitmap = true →
      s.poisoned (lsBase d + at_ + 64 * line) 64 = false →
      Yields (exec (.maMaskLineRead d a line) s) (fun t =>
        (t.ma d a).feeding =
          some { p with lines := p.lines ++ [(line, s.aclk, s.bytes (lsBase d + at_ + 64 * line) 64)] } ∧
        t = { s with cds := t.cds })) ∧
    (∀ p : Pass, (s.ma d a).stopPass = none → (s.ma d a).feeding = some p → (s.ma d a).offered ≠ s.aclk + 1 →
      p.hoist ≠ 0 → p.hoist ≤ (s.ma d a).fronts → (s.ma d a).frontAt ≤ s.aclk →
      (s.throttled = true → (s.ma d a).lastFeed ≠ 0 → (s.ma d a).lastFeed < s.aclk) →
      (p.pos = 0 → drainHolds (s.cd d) p = false) →
      ((p.maskAt = none ∨ maskBit p.lines s.aclk p.pos = some true) → s.granted d (maReq a) .feed = true →
       s.poisoned (lsBase d + (slotAddr p p.pos).1) 128 = false →
       (p.scaled = true → s.poisoned (lsBase d + (slotAddr p p.pos).2) 8 = false) →
       Yields (exec (.maSlotFeed d a) s) (fun t =>
        (∃ r, (t.ma d a).rows = ((s.ma d a).feedRow r).rows ∧ r.pass = p.no ∧ r.slot = p.pos ∧ r.fed = s.aclk ∧
          r.masked = false ∧ r.data = s.bytes (lsBase d + (slotAddr p p.pos).1) 128 ∧
          r.scales = (if p.scaled then s.bytes (lsBase d + (slotAddr p p.pos).2) 8 else []) ∧
          r.set = p.own.getD (s.ma d a).active ∧ r.todo = r.set.cols ∧ r.dest = passBase d p + 512 * p.pos) ∧
        t = { s with regs := t.regs, cds := t.cds })) ∧
      (p.maskAt ≠ none → maskBit p.lines s.aclk p.pos = some false → p.zeroMasked = false →
       Yields (exec (.maSlotFeed d a) s) (fun t =>
        (t.ma d a).rows = (s.ma d a).rows ∧
        (p.pos + 1 < p.slots → (t.ma d a).feeding = some { p with pos := p.pos + 1 }) ∧
        t = { s with regs := t.regs, cds := t.cds })) ∧
      ((p.maskAt = none ∨ maskBit p.lines s.aclk p.pos = some true) → s.granted d (maReq a) .feed = false →
       Yields (exec (.maSlotFeed d a) s) (fun t =>
        t.ma d a = { s.ma d a with offered := s.aclk + 1 } ∧ t = { s with regs := t.regs, cds := t.cds })))

/-- An INT8 output is the saturated exact sum; lines are written whole; passes and batches complete; counters clear
(rests on R69, R84, R85, R87, R104, R105, R120, R122, R179). The oldest row with column j to come, INT8, not masked,
its parity good, its time come, no earlier row still to write that element, and no poison met: its output is the
destination element as the output path has read it (0 in ZERO mode) plus the exact sum of products over the active
rows, saturated to 32 bits, OVF being set where it saturates. It waits in its row until its line's last hoisted column
has come; then every output of that line is written, and no byte outside the line changes. The first pass whose every
write is made and whose last slot's time has passed leaves the array and sends its increment of SIG; a batch leaves
it, writes its 512-byte side table and sends one increment to SIGCTR. MAXWAIT cycles after the open batch's first
request the batch is issued. CLEAR sets every performance counter of the array to 0. -/
def Obligations.OutputsAreWrittenAndPassesComplete : Prop :=
∀ (s : State) (d : Fin 40) (a : Fin 4), s.dieOff d = false →
    (∀ (j : Fin 128) (r : FedRow) (v : Int) (x : Nat), (s.ma d a).nextRow j = some r →
      (s.ma d a).rows.find? (fun y => y.same r) = some r →
      r.fed + 128 + j.val ≤ s.aclk → r.fed + 126 + r.firstOf j ≤ s.aclk → (s.ma d a).earlierWrite r j = false →
      r.fmt = 3 → r.masked = false → r.stagger = false → (s.ma d a).bad.contains (r.setNo, j.val) = false →
      r.set.diag = false → r.set.fmt = 3 →
      (r.acc = true → s.poisoned (r.dest + 64 * (j.val / 16)) 64 = false) →
      v = (if r.acc then signedN 32 (s.destOf (s.ma d a) r j) else 0) +
          ((List.range r.set.depth).map (fun k =>
            signedN 8 (r.data.getD k 0).toNat * signedN 8 (r.set.data.getD (128 * k + j.val) 0).toNat)).sum →
      x = unsignedN 32 (max (-2 ^ 31) (min (2 ^ 31 - 1) v)) →
      Yields (exec (.maOutputWrite d a j .none) s) (fun t =>
        (r.lastOf j = false → SameMem s t ∧ ∃ y ∈ (t.ma d a).rows, y.same r = true ∧ y.outs = r.outs ++ [(j.val, x)] ∧
          y.todo = r.todo &&& ~~~ (BitVec.ofNat 128 (2 ^ j.val))) ∧
        (r.lastOf j = true → t.num (r.dest + 4 * j.val) 4 = x ∧
          (∀ o ∈ r.outs, o.1 / 16 = j.val / 16 → o.1 ≠ j.val → (∀ p ∈ r.outs, p.1 = o.1 → p = o) → o.2 < 2 ^ 32 →
            t.num (r.dest + 4 * o.1) 4 = o.2)) ∧
        ((v < -2 ^ 31 ∨ 2 ^ 31 ≤ v) → t.flag (R.MA_STATUS d a) F.MA_STATUS_OVF = true) ∧
        MemOutside (r.dest + 64 * (j.val / 16)) 64 s t ∧ OnlyRegs [R.MA_STATUS d a, R.MA_COLL d a] s t ∧
        t = { s with regs := t.regs, cds := t.cds, mem := t.mem, poison := t.poison })) ∧
    (∀ p : Pass, (s.ma d a).finished s.aclk false = some p → p.e.quiet = false →
      Yields (exec (.maPassComplete d a) s) (fun t => (t.ma d a).draining = (s.ma d a).draining.tail ∧
        (t.cd d).due = (s.cd d).due ++ sigDue p.e.q p.e.w (s.aclk + 1) ∧
        OnlyRegs [R.MA_STATUS d a, R.MA_COLL d a] s t ∧ t = { s with regs := t.regs, cds := t.cds })) ∧
    (∀ (p : Pass) (c : Nat), (s.ma d a).finished s.aclk true = some p → p.batch = some c →
      Yields (exec (.maBatchComplete d a) s) (fun t => (t.ma d a).draining = (s.ma d a).draining.tail ∧
        (∀ i, i < 128 → t.num (lsBase d + p.table + 4 * i) 4 = sideEntry p.rows[i]?) ∧
        MemOutside (lsBase d + p.table) 512 s t ∧ (t.cd d).due = (s.cd d).due ++ [(s.aclk + 1, c, 1)] ∧
        OnlyRegs [R.MA_STATUS d a, R.MA_COLL d a] s t ∧
        t = { s with regs := t.regs, cds := t.cds, mem := t.mem, poison := t.poison })) ∧
    (∀ cfg : Cmd, (s.ma d a).coll.cfg = some cfg → (s.ma d a).coll.rows ≠ [] →
      (s.ma d a).coll.opened + cbits cfg 39 20 ≤ s.aclk →
      Yields (exec (.maCollectorTimeout d a) s) (fun t => (t.ma d a).coll.rows = [] ∧
        (∃ p ∈ (t.ma d a).feeding.toList ++ (t.ma d a).issued, p.rows = (s.ma d a).coll.rows ∧
          p.batch = some (cbits cfg 87 80)) ∧
        OnlyRegs [R.MA_STATUS d a, R.MA_COLL d a, R.MA_COLL_TIMER d a] s t ∧
        t = { s with regs := t.regs, cds := t.cds })) ∧
    Yields (exec (.maPerfClear d a) s) (fun t =>
      (∀ r ∈ [R.MA_PERF_ACTIVE_LO d a, R.MA_PERF_ACTIVE_HI d a, R.MA_PERF_MAC_LO d a, R.MA_PERF_MAC_HI d a,
        R.MA_PERF_ILOCK d a, R.MA_PERF_HWAIT d a, R.MA_PERF_BUBBLE d a, R.MA_PERF_MASKED d a, R.MA_PERF_HUNUSED d a],
        t.rd r = 0) ∧
      OnlyRegs [R.MA_PERF_ACTIVE_LO d a, R.MA_PERF_ACTIVE_HI d a, R.MA_PERF_MAC_LO d a, R.MA_PERF_MAC_HI d a,
        R.MA_PERF_ILOCK d a, R.MA_PERF_HWAIT d a, R.MA_PERF_BUBBLE d a, R.MA_PERF_MASKED d a, R.MA_PERF_HUNUSED d a] s t ∧
      t = { s with regs := t.regs, cds := t.cds })

/-- Every vector-engine instruction completes at the head of the FIFO and changes only what it names (rests on R124,
R127, R130, R135, R139, R151, R155, R159, R164, R165). For each of the 33 vector-engine instructions, at the head of
the vector engine's FIFO with no cause to be refused, generators seeded where it draws, no poisoned line in its way,
and its die having its clock: it completes. It leaves the FIFO, sends the increment of its SIG for the cycle after its
last write, writes no byte of memory outside its destination, and changes no register but VE_STATUS and the engine's
performance counters; other dies, and this die's queues, arrays and other units are untouched, and no event is raised
where it meets no register parity error. -/
def Obligations.VectorInstructionsCompleteWithTheirFrame : Prop :=
∀ (s : State) (d : Fin 40) (q : Fin 4) (w : Cmd) (bad : List VeBad), VeReady s d q w bad →
    ∀ p ∈ ([(Instr.vadd, 0x10), (Instr.vsub, 0x11), (Instr.vmul, 0x12), (Instr.vfma, 0x13), (Instr.vfnma, 0x14),
        (Instr.vmin, 0x15), (Instr.vmax, 0x16), (Instr.vsel, 0x17), (Instr.vcmpeq, 0x18), (Instr.vcmplt, 0x19),
        (Instr.vcmple, 0x1A), (Instr.vcmpun, 0x1B), (Instr.vsplit, 0x1C), (Instr.vscale, 0x1D), (Instr.vcvt, 0x1E),
        (Instr.vrcpe, 0x20), (Instr.vrsqe, 0x21), (Instr.vexp2e, 0x22), (Instr.vrsum, 0x30), (Instr.vrprod, 0x31),
        (Instr.vrmax, 0x32), (Instr.vrmin, 0x33), (Instr.vrmean, 0x34), (Instr.vrimax, 0x35), (Instr.vrimin, 0x36),
        (Instr.vtload, 0x40), (Instr.vtstore, 0x41), (Instr.vttrans, 0x42), (Instr.vsets, 0x43), (Instr.vmload, 0x44),
        (Instr.vmstore, 0x45), (Instr.vmop, 0x46), (Instr.vgetf, 0x47)] :
        List ((Fin 40 → Fin 4 → Cmd → List VeBad → Instr) × Nat)), isUnit w 4 p.2 = true →
      Yields (exec (p.1 d q w bad) s) (fun t =>
        (t.cd d).fifo veUnit = ((s.cd d).fifo veUnit).tail ∧
        (t.cd d).due = (s.cd d).due ++ sigDue q w (s.veLast d w + 1) ∧
        (∀ b, ¬ VeWrites d w b → t.byte b = s.byte b) ∧
        OnlyRegs [R.VE_STATUS d, R.VE_PERF_ACTIVE_LO d, R.VE_PERF_ACTIVE_HI d, R.VE_PERF_ELEM_LO d, R.VE_PERF_ELEM_HI d,
          R.VE_PERF_MASKED d] s t ∧
        (∀ e : Fin 40, e ≠ d → t.cd e = s.cd e) ∧ (t.cd d).arrays = (s.cd d).arrays ∧
        (t.cd d).queues = (s.cd d).queues ∧ (s.veMeets d bad w (veCount w) = false → t.events = s.events) ∧
        t = { s with regs := t.regs, mem := t.mem, poison := t.poison, cds := t.cds, events := t.events })

/-- Arithmetic on tile registers: integers exact and saturated, floats rounded once (rests on R61, R127, R137). An
unmasked instruction of SRCF = DSTF = INT32 on tile operands writes into element k of its destination, for every k
below N, the exact sum, difference, product, a × b + c, c − a × b, minimum or maximum of the source elements saturated
to 32 bits; one of FP32 writes the FP32 word of the sum, difference, product or fused product rounded once. VSEL
writes a where its mask bit is 1 and b elsewhere. Every tile element outside the destination keeps its value. No
parity error is met in these forms. -/
def Obligations.TileArithmeticIsExactOrRoundedOnce : Prop :=
∀ (s : State) (d : Fin 40) (q : Fin 4) (w : Cmd) (i j l m : Nat), VeReady s d q w [] →
    eMasken w = false → eSat5 w = false → eA w = .tile i → eB w = .tile j → eD w = .tile m →
    (eSrc w = 3 → eDst w = 3 → eC w = .tile l ∨ eC w = .none →
      ∀ p ∈ ([(Instr.vadd, 0x10, fun a b _ => a + b), (Instr.vsub, 0x11, fun a b _ => a - b),
          (Instr.vmul, 0x12, fun a b _ => a * b), (Instr.vfma, 0x13, fun a b c => a * b + c),
          (Instr.vfnma, 0x14, fun a b c => c - a * b), (Instr.vmin, 0x15, fun a b _ => min a b),
          (Instr.vmax, 0x16, fun a b _ => max a b)] :
          List ((Fin 40 → Fin 4 → Cmd → List VeBad → Instr) × Nat × (Int → Int → Int → Int))), isUnit w 4 p.2.1 = true →
        Yields (exec (p.1 d q w []) s) (fun t =>
          (∀ k, k < eN w → (t.ve d).tile (m + k) =
            sat32 (p.2.2 (tileInt s d (i + k)) (tileInt s d (j + k)) (tileInt s d (l + k)))) ∧
          (∀ x, (x < m ∨ m + eN w ≤ x) → (t.ve d).tile x = (s.ve d).tile x))) ∧
    (eSrc w = 0 → eDst w = 0 → eC w = .tile l ∨ eC w = .none →
      ∀ p ∈ ([(Instr.vadd, 0x10, fun a b _ => f32Add a b), (Instr.vsub, 0x11, fun a b _ => f32Sub a b),
          (Instr.vmul, 0x12, fun a b _ => f32Mul a b), (Instr.vfma, 0x13, fun a b c => f32Fma a b c)] :
          List ((Fin 40 → Fin 4 → Cmd → List VeBad → Instr) × Nat × (Nat → Nat → Nat → Nat × Flags))), isUnit w 4 p.2.1 = true →
        Yields (exec (p.1 d q w []) s) (fun t =>
          (∀ k, k < eN w → (t.ve d).tile (m + k) =
            widen 0 (p.2.2 ((s.ve d).tile (i + k)) ((s.ve d).tile (j + k)) ((s.ve d).tile (l + k))).1) ∧
          (∀ x, (x < m ∨ m + eN w ≤ x) → (t.ve d).tile x = (s.ve d).tile x))) ∧
    (∀ v, eSrc w = 3 → eDst w = 3 → eC w = .mask v → isUnit w 4 0x17 = true →
      Yields (exec (.vsel d q w []) s) (fun t =>
        (∀ k, k < eN w → (t.ve d).tile (m + k) =
          if ((s.ve d).masks.getD v 0).toNat.testBit k then (s.ve d).tile (i + k) else (s.ve d).tile (j + k)) ∧
        (∀ x, (x < m ∨ m + eN w ≤ x) → (t.ve d).tile x = (s.ve d).tile x)))

/-- Comparisons and mask instructions write bits 0 to N − 1 of their mask and leave the rest (rests on R129, R137,
R139). An unmasked comparison of INT32 tile operands writes bit k of its mask, for k below N, as a = b, a < b, a ≤ b,
or 0 for VCMPUN, and leaves the bits at N and above; VMLOAD writes bit k from bit k mod 8 of byte k / 8 of its stream;
VMOP with AND, OR or XOR writes the function of its two masks; each leaves the bits at N and above. VMSTORE writes bit
k of its mask to bit k mod 8 of byte k / 8 of its stream, and 0 beyond N in the last byte. -/
def Obligations.ComparisonsAndMaskOperationsSetBits : Prop :=
∀ (s : State) (d : Fin 40) (q : Fin 4) (w : Cmd) (v : Nat), VeReady s d q w [] → v < 8 →
    (∀ i j : Nat, eMasken w = false → eSrc w = 3 → eA w = .tile i → eB w = .tile j → eD w = .mask v →
      ∀ p ∈ ([(Instr.vcmpeq, 0x18, fun a b => decide (a = b)), (Instr.vcmplt, 0x19, fun a b => decide (a < b)),
          (Instr.vcmple, 0x1A, fun a b => decide (a ≤ b)), (Instr.vcmpun, 0x1B, fun _ _ => false)] :
          List ((Fin 40 → Fin 4 → Cmd → List VeBad → Instr) × Nat × (Int → Int → Bool))), isUnit w 4 p.2.1 = true →
        Yields (exec (p.1 d q w []) s) (fun t => ∀ k, k < 8192 →
          ((t.ve d).masks.getD v 0).getLsbD k =
            if k < eN w then p.2.2 (tileInt s d (i + k)) (tileInt s d (j + k)) else ((s.ve d).masks.getD v 0).getLsbD k)) ∧
    (∀ a : Nat, eA w = .stream a → eD w = .mask v → isUnit w 4 0x44 = true →
      Yields (exec (.vmload d q w []) s) (fun t => ∀ k, k < 8192 →
        ((t.ve d).masks.getD v 0).getLsbD k =
          if k < eN w then (s.byte (lsBase d + a + k / 8)).toNat.testBit (k % 8) else ((s.ve d).masks.getD v 0).getLsbD k)) ∧
    (∀ x y : Nat, x < 8 → y < 8 → eA w = .mask x → eB w = .mask y → eD w = .mask v → isUnit w 4 0x46 = true →
      ∀ p ∈ ([(0, and), (1, or), (3, xor)] : List (Nat × (Bool → Bool → Bool))), eSrc w = p.1 →
      Yields (exec (.vmop d q w []) s) (fun t => ∀ k, k < 8192 →
        ((t.ve d).masks.getD v 0).getLsbD k =
          if k < eN w then p.2 (((s.ve d).masks.getD x 0).getLsbD k) (((s.ve d).masks.getD y 0).getLsbD k)
          else ((s.ve d).masks.getD v 0).getLsbD k)) ∧
    (∀ a : Nat, eA w = .mask v → eD w = .stream a → isUnit w 4 0x45 = true →
      Yields (exec (.vmstore d q w []) s) (fun t => ∀ k, k < 8 * ((eN w + 7) / 8) →
        (t.byte (lsBase d + a + k / 8)).toNat.testBit (k % 8) =
          (decide (k < eN w) && ((s.ve d).masks.getD v 0).getLsbD k)))

/-- VTLOAD, VTTRANS, VSETS, VGETF move what they name; a release runs the head; CLEAR clears the counters (rests on
R135, R136, R149, R159, R67). VTLOAD in INT32 puts element c of row r of the local store into the tile element at its
row and column (swapped under TRANS), and leaves every tile element outside that rectangle; VTTRANS writes the
transpose of its source tile and leaves every other tile; VSETS writes its immediate into a scalar register; VGETF
writes the six flags of VE_STATUS into a scalar register and clears them where CLR is 1. A dependence release counts
its cycles (unless the counters stand) and then executes the head instruction: a VSETS writes its immediate. VE_PERF
clear sets the performance counters to 0 and touches nothing else. -/
def Obligations.MovesBetweenTilesScalarsAndStore : Prop :=
(∀ (s : State) (d : Fin 40) (q : Fin 4) (w : Cmd), VeReady s d q w [] →
    (isUnit w 4 0x40 = true → cbits w 83 80 = 3 →
      Yields (exec (.vtload d q w []) s) (fun t =>
        (∀ r c, r < cbits w 21 16 + 1 → c < cbits w 27 22 + 1 →
          (t.ve d).tile (tilePos w r c) = s.num (tRow d w r + 4 * c) 4) ∧
        (∀ x, (∀ r c, r < cbits w 21 16 + 1 → c < cbits w 27 22 + 1 → x ≠ tilePos w r c) →
          (t.ve d).tile x = (s.ve d).tile x))) ∧
    (isUnit w 4 0x42 = true →
      Yields (exec (.vttrans d q w []) s) (fun t =>
        (∀ i j, i < 64 → j < 64 → (t.ve d).tile (cbits w 23 20 * 4096 + 64 * i + j) =
          (s.ve d).tile (cbits w 19 16 * 4096 + 64 * j + i)) ∧
        (∀ x, x / 4096 ≠ cbits w 23 20 → (t.ve d).tile x = (s.ve d).tile x))) ∧
    (isUnit w 4 0x43 = true →
      Yields (exec (.vsets d q w []) s) (fun t =>
        (∀ n : Fin 16, (t.ve d).scal[n] = if n.val = cbits w 19 16 then BitVec.ofNat 32 (cbits w 51 20) else (s.ve d).scal[n]) ∧
        (t.ve d).tiles = (s.ve d).tiles)) ∧
    (isUnit w 4 0x47 = true →
      Yields (exec (.vgetf d q w []) s) (fun t =>
        (∀ n : Fin 16, (t.ve d).scal[n] =
          if n.val = cbits w 19 16 then BitVec.ofNat 32 (s.get (R.VE_STATUS d) veFlagField) else (s.ve d).scal[n]) ∧
        (cbit w 20 = true → t.get (R.VE_STATUS d) veFlagField = 0) ∧
        (cbit w 20 = false → t.get (R.VE_STATUS d) veFlagField = s.get (R.VE_STATUS d) veFlagField)))) ∧
  (∀ (s : State) (d : Fin 40) (n : Nat) (e : UCmd), VeReady s d e.q e.w [] → s.head? d veUnit = some e →
    isUnit e.w 4 0x43 = true → s.veStill d = false →
    Yields (exec (.veDependenceRelease d n []) s) (fun t =>
      t.get (R.VE_PERF_DEPWAIT d) F.VE_PERF_DEPWAIT_COUNT =
        min (2 ^ 32 - 1) (s.get (R.VE_PERF_DEPWAIT d) F.VE_PERF_DEPWAIT_COUNT + n) ∧
      (∀ k : Fin 16, (t.ve d).scal[k] =
        if k.val = cbits e.w 19 16 then BitVec.ofNat 32 (cbits e.w 51 20) else (s.ve d).scal[k]) ∧
      (t.cd d).fifo veUnit = ((s.cd d).fifo veUnit).tail)) ∧
  (∀ (s : State) (d : Fin 40), s.dieOff d = false →
    Yields (exec (.vePerfClear d) s) (fun t =>
      (∀ r ∈ [R.VE_PERF_ACTIVE_LO d, R.VE_PERF_ACTIVE_HI d, R.VE_PERF_ELEM_LO d, R.VE_PERF_ELEM_HI d, R.VE_PERF_LSWAIT d,
        R.VE_PERF_DEPWAIT d, R.VE_PERF_MASKED d], t.rd r = 0) ∧
      OnlyRegs [R.VE_PERF_ACTIVE_LO d, R.VE_PERF_ACTIVE_HI d, R.VE_PERF_ELEM_LO d, R.VE_PERF_ELEM_HI d, R.VE_PERF_LSWAIT d,
        R.VE_PERF_DEPWAIT d, R.VE_PERF_MASKED d] s t ∧ t = { s with regs := t.regs, cds := t.cds } ∧
      (t.ve d).gens = (s.ve d).gens ∧ (t.ve d).tiles = (s.ve d).tiles ∧ (t.ve d).masks = (s.ve d).masks))

/-- SYNC_WAIT, SIGNAL, SETBASE, CALL and HALT act on counters, base registers, call stack and queue state (rests on
R164, R166, R167, R171, R172, R173). At the head of a running queue, with no cause to refuse it: SYNC_WAIT whose
condition holds leaves the queue running past it, otherwise the queue is in WAIT holding the command, with WCTR naming
the counter; SYNC_SIGNAL sends INC to counter CTR for the next cycle; SYNC_SETBASE writes BASE into base register N;
SYNC_CALL pushes a block of CNT + 1 commands at its relocated address; SYNC_HALT puts the queue into HALTED and
interrupts the service cores. Each command but a wait that holds moves HEAD on, and each but these two (whose SIG is
sent later, or is none) sends the increment its SIG asks for; registers other than the queue's STATUS and HEAD keep
their values, and memory is unchanged. -/
def Obligations.SyncCommandsExecuteAtTheHead : Prop :=
∀ (s : State) (d : Fin 40) (q : Fin 4) (w : Cmd) (a idx depth : Nat), AtHead s d q w a idx depth →
    (isUnit w 6 0x60 = true → s.waitMet d w = true →
      Yields (exec (.syncWait d q w) s) (fun t => t.qState d q = 1 ∧ (t.que d q).wait = none ∧
        (t.cd d).due = (s.cd d).due ++ sigDue q w (s.aclk + 1) ∧ MovedOn d q s t ∧
        OnlyRegs [R.SEQ_Q_STATUS d q, R.SEQ_Q_HEAD d q] s t ∧ t = { s with regs := t.regs, cds := t.cds })) ∧
    (isUnit w 6 0x60 = true → s.waitMet d w = false →
      Yields (exec (.syncWait d q w) s) (fun t => t.qState d q = 2 ∧ (t.que d q).wait = some w ∧
        t.get (R.SEQ_Q_STATUS d q) F.SEQ_Q_STATUS_WCTR = cbits w 23 16 ∧
        (t.cd d).due = (s.cd d).due ∧
        OnlyRegs [R.SEQ_Q_STATUS d q] s t ∧ t = { s with regs := t.regs, cds := t.cds })) ∧
    (isUnit w 6 0x61 = true →
      Yields (exec (.syncSignal d q w) s) (fun t =>
        (t.cd d).due = (s.cd d).due ++ [(s.aclk + 1, cbits w 23 16, cbits w 39 24)] ++ sigDue q w (s.aclk + 1) ∧
        MovedOn d q s t ∧
        OnlyRegs [R.SEQ_Q_STATUS d q, R.SEQ_Q_HEAD d q] s t ∧ t = { s with regs := t.regs, cds := t.cds })) ∧
    (isUnit w 6 0x64 = true →
      Yields (exec (.syncSetbase d q w) s) (fun t =>
        (∀ n : Fin 8, (t.que d q).bases[n] =
          if n.val = cbits w 18 16 then BitVec.ofNat 42 (cbits w 60 19) else (s.que d q).bases[n]) ∧
        (t.cd d).due = (s.cd d).due ++ sigDue q w (s.aclk + 1) ∧ MovedOn d q s t ∧
        OnlyRegs [R.SEQ_Q_STATUS d q, R.SEQ_Q_HEAD d q] s t ∧ t = { s with regs := t.regs, cds := t.cds })) ∧
    (isUnit w 6 0x65 = true →
      Yields (exec (.syncCall d q w) s) (fun t =>
        (t.que d q).stack.head? = some ⟨s.relocate d q (cbits w 59 16) 16 (cbits w 62 60), cbits w 78 63 + 1, 0⟩ ∧
        MovedOn d q s t ∧
        OnlyRegs [R.SEQ_Q_STATUS d q, R.SEQ_Q_HEAD d q] s t ∧ t = { s with regs := t.regs, cds := t.cds })) ∧
    (isUnit w 6 0x66 = true →
      Yields (exec (.syncHalt d q w) s) (fun t => t.qState d q = 4 ∧ (t.cd d).coreIrq = true ∧
        (t.cd d).due = (s.cd d).due ++ sigDue q w (s.aclk + 1) ∧ MovedOn d q s t ∧
        OnlyRegs [R.SEQ_Q_STATUS d q, R.SEQ_Q_HEAD d q] s t ∧ t = { s with regs := t.regs, cds := t.cds }))

/-- SYNC_PSIGNAL adds to a pennant, SYNC_PWAIT and a poll proceed once it is at its threshold (rests on R165, R169,
R172, R180, R190, R257, R28). With the pennant's address allowed by R28 and readable: SYNC_PSIGNAL at the head of a
queue, its pennant in a store and its granule not covered by a drain, raises the 64-bit little-endian pennant by INC
modulo 2^64, changes no byte outside it, and moves on; its pennant in DRAM, the addition goes to the seal engine that
owns it and the queue moves on, SIG waiting for the answer. SYNC_PWAIT proceeds at once where the pennant is at least
THRESH and otherwise puts the queue into PWAIT holding the command; a poll of a queue in PWAIT, when it is due and the
memory answers, lets the queue go on where the threshold is met. None of the three changes a register but the queue's
STATUS and HEAD. -/
def Obligations.PennantsAreAddedToAndWaitedFor : Prop :=
∀ (s : State) (d : Fin 40) (q : Fin 4) (w : Cmd) (a idx depth p : Nat), s.pennantAt d q w = p →
    (∀ n off : Nat, AtHead s d q w a idx depth → isUnit w 6 0x63 = true → s.check (asReq d) true p = .ok → inDram p = false →
      s.poisoned p 8 = false → s.placeOf p = .cd n off → (s.cd (fin40 n)).coversWindow off 8 = false →
      Yields (exec (.syncPsignal d q w) s) (fun t =>
        t.num p 8 = (s.num p 8 + cbits w 79 64) % 2 ^ 64 ∧ MemOutside p 8 s t ∧
        (t.cd d).due = (s.cd d).due ++ sigDue q w (s.aclk + 1) ∧ MovedOn d q s t ∧
        OnlyRegs [R.SEQ_Q_STATUS d q, R.SEQ_Q_HEAD d q] s t ∧ t = { s with regs := t.regs, cds := t.cds, mem := t.mem })) ∧
    (∀ m c b : Nat, AtHead s d q w a idx depth → isUnit w 6 0x63 = true → s.check (asReq d) true p = .ok → inDram p = true →
      s.channelOf p = some (m, c, b) →
      Yields (exec (.syncPsignal d q w) s) (fun t =>
        (t.eng (fin16 m)).reqs = (s.eng (fin16 m)).reqs ++
          [(⟨s.reqNo + 1, d.val, .add (BitVec.ofNat 64 (cbits w 79 64)), p⟩ : SealReq)] ∧
        (∃ e, (t.cd d).psig = (s.cd d).psig ++ [(e, s.reqNo + 1)] ∧ e.q = q) ∧
        (t.cd d).due = (s.cd d).due ∧ MovedOn d q s t ∧ OnlyRegs [R.SEQ_Q_STATUS d q, R.SEQ_Q_HEAD d q] s t ∧
        t = { s with regs := t.regs, cds := t.cds, mds := t.mds, reqNo := t.reqNo })) ∧
    (AtHead s d q w a idx depth → isUnit w 6 0x62 = true → s.check (asReq d) false p = .ok → s.badRead p 8 = false →
      Yields (exec (.syncPwait d q w) s) (fun t =>
        (if cbits w 111 64 ≤ s.num p 8 then t.qState d q = 1 ∧ (t.que d q).wait = none ∧ MovedOn d q s t
          else t.qState d q = 3 ∧ (t.que d q).wait = some w) ∧
        OnlyRegs [R.SEQ_Q_STATUS d q, R.SEQ_Q_HEAD d q] s t ∧ t = { s with regs := t.regs, cds := t.cds })) ∧
    (s.dieOff d = false → (s.que d q).wait = some w → s.qState d q = 3 → s.check (asReq d) false p = .ok →
      s.badRead p 8 = false → (ownPennant d p = true ∨ (s.que d q).polled + s.pollCycles d ≤ s.aclk) →
      Yields (exec (.pennantPoll d ⟨q, .ok⟩) s) (fun t =>
        (if cbits w 111 64 ≤ s.num p 8 then t.qState d q = 1 ∧ (t.que d q).wait = none ∧ MovedOn d q s t
          else t.qState d q = 3 ∧ (t.que d q).wait = some w ∧ (t.que d q).polled = s.aclk) ∧
        OnlyRegs [R.SEQ_Q_STATUS d q, R.SEQ_Q_HEAD d q] s t ∧ t = { s with regs := t.regs, cds := t.cds }))

/-- A wait of WDOG × 1,024 cycles raises 0x4067 once, and the wait continues (stated: R170). For a queue of a die with
its clock, in WAIT or PWAIT, whose wait began at cycle `since`: where WDOG is not 0, WDOG × 1,024 cycles have passed
and the watchdog of this wait has not fired, event 0x4067 of the die is raised and the queue keeps its state, its
command and its place; a second watchdog command then raises nothing; where WDOG is 0 nothing happens at all. -/
def Obligations.WatchdogBarksOncePerWait : Prop :=
∀ (s : State) (d : Fin 40) (q : Fin 4) (n : Nat), s.get (R.SEQ_CFG d) F.SEQ_CFG_WDOG = n → s.dieOff d = false →
    (s.qState d q = 2 ∨ s.qState d q = 3) →
    (n ≠ 0 → (s.que d q).since + n * 1024 ≤ s.aclk → (s.que d q).barked = false →
      Yields (exec (.seqWaitWatchdog d q) s) (fun t =>
        (∃ e : Event, t.events = s.events ++ [e] ∧ e.code = 0x4067 ∧ e.die = d.val) ∧
        t.qState d q = s.qState d q ∧ (t.que d q).wait = (s.que d q).wait ∧ (t.que d q).since = (s.que d q).since ∧
        t = { s with events := t.events, cds := t.cds } ∧ exec (.seqWaitWatchdog d q) t = .next t)) ∧
    (n = 0 → exec (.seqWaitWatchdog d q) s = .next s)

/-- Counters take writes first and then the increments of the cycle, modulo 2^16; a satisfied wait proceeds (rests on
R164, R165, R166, R167). On a die with its clock: a write of SEQ_CTRc sets the value and then adds every increment for
c that arrives in this cycle, modulo 2^16, those of earlier cycles being overwritten; every other counter keeps its
value. A write of SEQ_CTR_INC sends its value to the counter for the next cycle and changes no register.
SEQ_COMPLETION_SIGNAL, where no pennant addition is outstanding, adds to every counter the sum of the increments that
have arrived, modulo 2^16, and keeps the ones still to come. A queue in WAIT whose counter has reached the threshold
in the sense of R167 runs on past its command. -/
def Obligations.CountersSumTheirIncrements : Prop :=
(∀ (s : State) (d : Fin 40) (c : Fin 256) (v : BitVec 16), s.dieOff d = false →
    Yields (exec (.seqCtrWrite d c v) s) (fun t =>
      t.ctr d c = (v.toNat + ((((s.cd d).came ++ (s.cd d).due).filter
        (fun x => x.1 == s.aclk && x.2.1 == c.val)).map (fun x => x.2.2)).sum) % 2 ^ 16 ∧
      OnlyRegs [R.SEQ_CTR d c] s t ∧ t = { s with regs := t.regs, cds := t.cds })) ∧
  (∀ (s : State) (d : Fin 40) (c : Fin 256) (n : BitVec 16), s.dieOff d = false →
    Yields (exec (.seqCtrInc d c n) s) (fun t =>
      (t.cd d).due = (s.cd d).due ++ [(s.aclk + 1, c.val, n.toNat)] ∧ t = { s with cds := t.cds })) ∧
  (∀ (s : State) (d : Fin 40) (c : Fin 256), s.dieOff d = false → (s.cd d).psig = [] →
    Yields (exec (.seqCompletionSignal d) s) (fun t =>
      t.ctr d c = (s.ctr d c + (((s.cd d).due.filter (fun x => decide (x.1 ≤ s.aclk) && x.2.1 == c.val)).map (fun x => x.2.2)).sum) % 2 ^ 16 ∧
      (t.cd d).due = (s.cd d).due.filter (fun x => decide (s.aclk < x.1)) ∧ t = { s with regs := t.regs, cds := t.cds })) ∧
  (∀ (s : State) (d : Fin 40) (q : Fin 4) (w : Cmd), s.dieOff d = false → (s.que d q).wait = some w → s.qState d q = 2 →
    (s.ctr d (cbits w 23 16) + 2 ^ 16 - cbits w 39 24) % 2 ^ 16 < 2 ^ 15 →
    Yields (exec (.syncWaitSatisfied d q) s) (fun t => t.qState d q = 1 ∧ (t.que d q).wait = none ∧
      (t.cd d).due = (s.cd d).due ++ sigDue q w (s.aclk + 1) ∧ MovedOn d q s t ∧
      OnlyRegs [R.SEQ_Q_STATUS d q, R.SEQ_Q_HEAD d q] s t ∧ t = { s with regs := t.regs, cds := t.cds }))

/-- TAIL exposes commands, a queue dispatches its head command to its unit, and queue control moves the state (rests
on R160, R161, R162, R191, R193, R219, R28). On a die with its clock: a write of TAIL that leaves at most 2^SIZE
commands in the ring sets TAIL and keeps the queue's state; with an adapter pass the commands of its segments are
written into the ring first, behind TAIL, which then exposes them as well. A running queue whose head command is
readable, has no cause to be refused, names a unit other than SYNC and meets room in that unit's FIFO and no earlier
offer, puts it at the FIFO's end (with its queue, place and depth) and moves on. Of a write of CTL: START takes an
IDLE, HALTED or STOPPED queue of a canton that takes work to RUN; STOP takes a queue in RUN, WAIT or PWAIT to STOPPED
and drops its wait; RESUME and RESUME with SKIP take a queue in FAULT for a code other than 0x8 to RUN, every unit
that it alone held going on, SKIP of a fault found at its head moving it on by one command; ABORT takes any queue to
IDLE with HEAD = TAIL, no call in progress and none of its commands in a unit FIFO. Of several bits written at once
ABORT acts alone, else RESUME, STOP and START in this order, each on the state the one before it leaves. -/
def Obligations.QueuesDispatchInOrder : Prop :=
(∀ (s : State) (d : Fin 40) (q : Fin 4) (tail : BitVec 16), s.dieOff d = false →
    (tail.toNat + 2 ^ 16 - s.qHead d q) % 2 ^ 16 ≤ s.qSize d q →
    Yields (exec (.seqQueueTailWrite d q ⟨tail, none⟩) s) (fun t => t.qTail d q = tail.toNat ∧ t.qState d q = s.qState d q ∧
      OnlyRegs [R.SEQ_Q_TAIL d q, R.SEQ_Q_STATUS d q] s t ∧ t = { s with regs := t.regs })) ∧
  (∀ (s : State) (d : Fin 40) (q : Fin 4) (tail : BitVec 16) (p : AdapterProgram) (w : Cmd) (a n off : Nat),
    s.dieOff d = false → s.adapterCmds p = [w] → (tail.toNat + 1 + 2 ^ 16 - s.qHead d q) % 2 ^ 16 ≤ s.qSize d q →
    a = s.qBase d q + 16 * (tail.toNat % s.qSize d q) → s.placeOf a = .cd n off →
    (s.cd (fin40 n)).coversWindow off 16 = false →
    Yields (exec (.seqQueueTailWrite d q ⟨tail, some p⟩) s) (fun t =>
      t.qTail d q = (tail.toNat + 1) % 2 ^ 16 ∧ t.cmdAt a = w ∧ MemOutside a 16 s t ∧
      OnlyRegs [R.SEQ_Q_TAIL d q, R.SEQ_Q_STATUS d q] s t ∧
      t = { s with regs := t.regs, mem := t.mem, poison := t.poison })) ∧
  (∀ (s : State) (d : Fin 40) (q : Fin 4) (w : Cmd) (a idx depth : Nat) (u : Fin 8), AtHead s d q w a idx depth →
    s.check (asReq d) false a = .ok → s.badRead a 16 = false → unitOf w = u.val → u ≠ 6 →
    ((s.cd d).fifo u).length < 16 → s.yields d q u = false →
    Yields (exec (.seqDispatch d ⟨q, .ok⟩) s) (fun t =>
      (t.cd d).fifo u = (s.cd d).fifo u ++ [⟨q, w, idx, depth, (s.cd d).seq, false⟩] ∧
      (∀ v : Fin 8, v ≠ u → (t.cd d).fifo v = (s.cd d).fifo v) ∧ MovedOn d q s t ∧ SameMem s t)) ∧
  (∀ (s : State) (d : Fin 40) (q : Fin 4), s.dieOff d = false →
    ((s.qState d q = 0 ∨ s.qState d q = 4 ∨ s.qState d q = 6) → s.takesWork (s.cdCanton d) = true →
      Yields (exec (.queueStart d ⟨q, 0⟩) s) (fun t => t.qState d q = 1 ∧
        OnlyRegs [R.SEQ_Q_STATUS d q] s t ∧ t = { s with regs := t.regs })) ∧
    ((s.qState d q = 1 ∨ s.qState d q = 2 ∨ s.qState d q = 3) →
      Yields (exec (.queueStop d ⟨q, 0⟩) s) (fun t => t.qState d q = 6 ∧ (t.que d q).wait = none ∧
        OnlyRegs [R.SEQ_Q_STATUS d q] s t ∧ t = { s with regs := t.regs, cds := t.cds })) ∧
    (s.qState d q = 5 → (s.que d q).fcode ≠ 8 → (s.que d q).funit = [] → (s.que d q).back = [] →
      Yields (exec (.queueResume d ⟨q, 0⟩) s) (fun t => t.qState d q = 1 ∧
        OnlyRegs [R.SEQ_Q_STATUS d q] s t ∧ t = { s with regs := t.regs, cds := t.cds }) ∧
      Yields (exec (.queueResumeSkip d ⟨q, 0⟩) s) (fun t => t.qState d q = 1 ∧ MovedOn d q s t ∧
        OnlyRegs [R.SEQ_Q_STATUS d q, R.SEQ_Q_HEAD d q] s t ∧ t = { s with regs := t.regs, cds := t.cds })) ∧
    (s.qState d q = 5 → (s.que d q).fcode ≠ 8 →
      ∀ c ∈ ([.queueResume d ⟨q, 0⟩, .queueResumeSkip d ⟨q, 0⟩, .queueAbort d ⟨q, 0⟩] : List Instr), Yields (exec c s) (fun t =>
        ∀ f ∈ (s.que d q).funit, (∀ p : Fin 4, p ≠ q → ∀ g ∈ (s.que d p).funit, g.1 ≠ f.1) →
          (t.cd d).stopped[f.1] = false)) ∧
    (∀ also : BitVec 5, also.getLsbD 4 = true →
      ∀ c ∈ ([.queueStart d ⟨q, also⟩, .queueStop d ⟨q, also⟩, .queueResume d ⟨q, also⟩, .queueResumeSkip d ⟨q, also⟩,
        .queueAbort d ⟨q, 0⟩] : List Instr), Yields (exec c s) (fun t => t.qState d q = 0 ∧ t.qHead d q = t.qTail d q ∧
      (t.que d q).stack = [] ∧ (t.que d q).wait = none ∧ ((s.cd d).held = [] → SameMem s t) ∧
      ∀ (u : Fin 8), ∀ e ∈ (t.cd d).fifo u, e.q ≠ q)) ∧
    (∀ (also b : BitVec 5) (resumed stopped : Nat),
      ∀ p ∈ ([((fun b => Instr.queueStart d ⟨q, b⟩), 1), ((fun b => Instr.queueStop d ⟨q, b⟩), 2), ((fun b => Instr.queueResume d ⟨q, b⟩), 4),
        ((fun b => Instr.queueResumeSkip d ⟨q, b⟩), 12)] : List ((BitVec 5 → Instr) × BitVec 5)), also ||| p.2 = b → b.getLsbD 4 = false →
      resumed = (if b.getLsbD 2 = true ∧ s.qState d q = 5 ∧ (s.que d q).fcode ≠ 8 then 1 else s.qState d q) →
      stopped = (if b.getLsbD 1 = true ∧ (resumed = 1 ∨ resumed = 2 ∨ resumed = 3) then 6 else resumed) →
      Yields (exec (p.1 also) s) (fun t => t.qState d q =
        if b.getLsbD 0 = true ∧ (stopped = 0 ∨ stopped = 4 ∨ stopped = 6) ∧ s.takesWork (s.cdCanton d) = true then 1
        else stopped)))

/-- A DMA command issues up to 16 packets in order, and an acknowledged packet has moved its bytes (rests on R164,
R174, R175, R176, R179, R180, R184, R191, R192, R28). A DMA_COPY, DMA_COPY2D or DMA_FILL at the head of the DMA unit's
FIFO, in a canton that takes work, with no command in flight, no drain in the way, every packet allowed by R28 and no
poisoned source in a store: it leaves the FIFO and is in flight with exactly its first 16 packets outstanding, each of
at most 4 KiB and across no 4 KiB boundary of its destination; no byte of memory changes yet. DMA_COMMAND_START does
the same. A DMA_COPY moves LEN + 1 lines from SRC to DST, both relocated by their base registers. A packet to a store
that its target takes has moved exactly its bytes (of a fill: the pattern), every byte outside reads as before; one to
DRAM whose requests are answered is done. The last one's command leaves the unit and sends the increment of its SIG. A
packet that is refused, or whose source is bad, puts its command back at the head of the FIFO and its queue into
FAULT. -/
def Obligations.DmaIssuesPacketsAndMovesBytes : Prop :=
(∀ (s : State) (d : Fin 40) (e : UCmd) (todo : DmaTodo) (pat : W32), UnitReady s d dmaUnit e →
    s.takesWork (s.cdCanton d) = true → (s.cd d).dma = [] → s.dmaPlan d e = some (todo, pat) →
    (opcodeOf e.w = 0x51 → s.poisoned (lsBase d + cbits e.w 35 16 * 64) 64 = false) →
    dmaHeld d (s.cd d) e.seq todo = false →
    (∀ p ∈ firstPackets 16 todo, (∀ a, p.src = some a → s.checkRange (asReq d) false a p.len = .ok ∧
      (inDram a = false → s.poisoned a p.len = false)) ∧ s.checkRange (asReq d) true p.dst p.len = .ok) →
    ∀ p ∈ ([(Instr.dmaCopy d e.q e.w, 0x50), (Instr.dmaCopy2d d e.q e.w, 0x51), (Instr.dmaFill d e.q e.w, 0x52),
        (Instr.dmaCommandStart d, opcodeOf e.w)] : List (Instr × Nat)), isUnit e.w 5 p.2 = true →
      Yields (exec p.1 s) (fun t =>
        (t.cd d).fifo dmaUnit = ((s.cd d).fifo dmaUnit).tail ∧
        (∃ x, (t.cd d).dma = [x] ∧ x.e = e ∧ x.pattern = pat ∧
          x.out.map (fun y => (y.src, y.dst, y.len)) = (firstPackets 16 todo).map (fun y => (y.src, y.dst, y.len)) ∧
          ∀ y ∈ x.out, y.len ≤ 4096 ∧ y.dst % 4096 + y.len ≤ 4096) ∧
        (p.2 = 0x50 → todo.src = some ((cbits e.w 63 22 * 64 + 64 * ((s.que d e.q).bases.getD (cbits e.w 18 16) 0).toNat) % 2 ^ 48) ∧
          todo.dst = (cbits e.w 105 64 * 64 + 64 * ((s.que d e.q).bases.getD (cbits e.w 21 19) 0).toNat) % 2 ^ 48 ∧
          todo.len = (cbits e.w 125 106 + 1) * 64 ∧ todo.rows = 1) ∧
        t = { s with cds := t.cds, mds := t.mds, reqNo := t.reqNo })) ∧
  (∀ (s : State) (d : Fin 40) (cmd pkt : Nat) (x : DmaCmd) (p : DmaPacket) (data : List Byte), s.dieOff d = false →
    (s.cd d).dma[cmd]? = some x → x.out[pkt]? = some p → (p.req ≠ 0 → s.reqWaits p.req = false) →
    s.reqErred p.req = false → data = p.data.getD (s.packetData x.pattern p) → data.length = p.len → x.e.quiet = false →
    (∀ k off : Nat, inDram p.dst = false → s.checkRange (asReq d) true p.dst p.len = .ok → s.placeOf p.dst = .cd k off →
      (k = d.val ∨ (s.cd (fin40 k)).coversWindow off p.len = false) →
      (∀ i ∈ List.range p.len, s.mergeLost p.dst p.len i = false) →
      Yields (exec (.dmaPacketAck d cmd pkt .ok) s) (fun t =>
        (∀ i, i < p.len → t.byte (p.dst + i) = data.getD i 0) ∧ MemOutside p.dst p.len s t ∧
        ((s.cd d).dma = [x] → x.out = [p] → (nextPacket x.todo).isNone = true →
          (t.cd d).dma = [] ∧ (t.cd d).due = (s.cd d).due ++ sigDue x.e.q x.e.w (s.aclk + 1) ∧
          t = { s with cds := t.cds, mem := t.mem, poison := t.poison }))) ∧
    (inDram p.dst = true → p.data.isSome = true → (s.cd d).dma = [x] → x.out = [p] → (nextPacket x.todo).isNone = true →
      Yields (exec (.dmaPacketAck d cmd pkt .ok) s) (fun t =>
        (t.cd d).dma = [] ∧ (t.cd d).due = (s.cd d).due ++ sigDue x.e.q x.e.w (s.aclk + 1) ∧ t = { s with cds := t.cds }))) ∧
  (∀ (s : State) (d : Fin 40) (cmd pkt : Nat) (x : DmaCmd) (res : MemResp), s.dieOff d = false →
    (s.cd d).dma[cmd]? = some x → x.out[pkt]?.isSome = true → res ≠ .ok →
    Yields (exec (.dmaPacketAck d cmd pkt res) s) (fun t => t.qState d x.e.q = 5 ∧
      (t.cd d).fifo dmaUnit = x.e :: (s.cd d).fifo dmaUnit ∧ (∀ y ∈ (t.cd d).dma, y.e.seq ≠ x.e.seq) ∧
      t = { s with regs := t.regs, cds := t.cds, events := t.events }))

/-- GAS_ZERO zeroes its lines, a drain covers, reads and releases its granules, the arbiters count what they refuse
(rests on R178, R180, R183, R184, R185, R186, R187, R192, R550). GAS_ZERO that no earlier drain covers makes every
byte of its lines 0 and no other, leaves the FIFO and completes. GAS_DRAIN with fewer than four drains active becomes
active: its region, group and OPSEQ stand among the die's drains. A sole drain that no earlier writer of its granules
holds starts. A piece of a started drain whose collective runs and takes the region, once read, goes to the collective
with the 4 KiB of the GAS as they stood and the mark of a poisoned line, under ZAFTER those bytes become 0, and no
other byte changes while no held write waits; the last piece completes the drain. A drain whose collective the group
has aborted sets DABORT, raises 0x4262, leaves unread lines as they are, and completes. The arbiters' decision on
accesses that differ in requester and kind sets to 0 the row of refusals of an access it grants and adds one to that
of an access it refuses; an access that comes alone while nothing is reserved is granted. A SECDED finding is counted
and raises its event; an uncorrectable one poisons its line. -/
def Obligations.GasIsZeroedDrainedAndArbitrated : Prop :=
(∀ (s : State) (d : Fin 40) (e : UCmd), UnitReady s d gasUnit e →
    (isUnit e.w 7 0x70 = true → (s.cd d).drains = [] →
      Yields (exec (.gasZero d e.q e.w) s) (fun t =>
        (∀ b, t.byte b = if gasBase d + 64 * cbits e.w 33 16 ≤ b ∧
            b < gasBase d + 64 * cbits e.w 33 16 + 64 * (cbits e.w 51 34 + 1) then 0 else s.byte b) ∧
        (t.cd d).fifo gasUnit = ((s.cd d).fifo gasUnit).tail ∧
        (t.cd d).due = (s.cd d).due ++ sigDue e.q e.w (s.aclk + 1) ∧
        t = { s with mem := t.mem, poison := t.poison, cds := t.cds })) ∧
    (isUnit e.w 7 0x71 = true → (s.cd d).drains = [] →
      Yields (exec (.gasDrain d e.q e.w) s) (fun t =>
        (∃ g, (t.cd d).drains = [g] ∧ g.e = e ∧ g.line = cbits e.w 33 16 ∧ g.len = cbits e.w 51 34 + 1 ∧
          g.group = cbits e.w 63 52 ∧ g.opseq = cbits e.w 79 64 ∧ g.zafter = cbit e.w 80 ∧ g.started = false ∧
          g.released = [] ∧ g.read = []) ∧
        (t.cd d).fifo gasUnit = ((s.cd d).fifo gasUnit).tail ∧ SameMem s t ∧
        t = { s with regs := t.regs, cds := t.cds }))) ∧
  (∀ (s : State) (d : Fin 40) (g : Drain), s.dieOff d = false → (s.cd d).drains = [g] →
    (g.started = false → ((s.cd d).fifo gasUnit).any (fun x => x.seq == g.e.seq) = false → s.writerBefore d g = false →
      Yields (exec (.gasDrainStart d) s) (fun t =>
        (t.cd d).drains = [{ g with started := true }] ∧ t = { s with cds := t.cds })) ∧
    (∀ piece : Nat, g.started = true → s.opTakes g.group g.opseq (g.len * 64) = true → piece < g.len / 64 →
      piece ∉ g.read → (s.cd d).held = [] →
      Yields (exec (.gasDrainPieceRead d g.group g.opseq piece) s) (fun t =>
        (∃ o, (t.cd d).sent = (s.cd d).sent ++ [o] ∧ o.group = g.group ∧ o.opseq = g.opseq ∧ o.off = 4096 * piece ∧
          o.data = s.bytes (gasBase d + 64 * g.line + 4096 * piece) 4096 ∧
          o.poisoned = s.poisoned (gasBase d + 64 * g.line + 4096 * piece) 4096) ∧
        (∀ b, t.byte b = if g.zafter = true ∧ gasBase d + 64 * g.line + 4096 * piece ≤ b ∧
          b < gasBase d + 64 * g.line + 4096 * piece + 4096 then 0 else s.byte b) ∧
        ((∀ p ∈ List.range (g.len / 64), p = piece ∨ p ∈ g.read) → g.e.quiet = false →
          (t.cd d).drains = [] ∧ (t.cd d).due = (s.cd d).due ++ sigDue g.e.q g.e.w (s.aclk + 1)) ∧
        t = { s with regs := t.regs, cds := t.cds, mem := t.mem, poison := t.poison })) ∧
    (∀ piece : Nat, s.opAborted g.group g.opseq = true → (s.cd d).held = [] → g.e.quiet = false →
      Yields (exec (.gasDrainPieceRead d g.group g.opseq piece) s) (fun t =>
        t.flag (R.GAS_STATUS d) F.GAS_STATUS_DABORT = true ∧ (t.cd d).drains = [] ∧
        (∃ v : Event, t.events = s.events ++ [v] ∧ v.code = 0x4262 ∧ v.die = d.val) ∧
        (t.cd d).due = (s.cd d).due ++ sigDue g.e.q g.e.w (s.aclk + 1) ∧ SameMem s t))) ∧
  (∀ (s : State) (d : Fin 40), s.dieOff d = false →
    (∀ accs : List LsAccess, (accs.map (fun x => (x.req, x.kind))).Nodup →
      Yields (exec (.lsArbitrate d accs [] []) s) (fun t =>
        (∀ x ∈ accs, (refusals (t.cd d).arb.refused x.req x.kind = 0 ∨
            refusals (t.cd d).arb.refused x.req x.kind = refusals (s.cd d).arb.refused x.req x.kind + 1) ∧
          (x.kind ≠ .hoist → ((x.req, x.kind) ∈ (t.cd d).arb.grants ↔ refusals (t.cd d).arb.refused x.req x.kind = 0))) ∧
        (∀ x, accs = [x] → (s.cd d).arb.resv = [] → x.kind ≠ .hoist → (t.cd d).arb.grants = [(x.req, x.kind)]) ∧
        t = { s with regs := t.regs, cds := t.cds, events := t.events })) ∧
    (∀ (f : StoreEcc) (gas : Bool), Yields (exec (.lsArbitrate d [] (if gas then [] else [f]) (if gas then [f] else [])) s) (fun t =>
      (∀ l, Sparse.get (fun _ => false) t.poison l =
        if f.uncorrectable = true ∧ l = (if gas then gasBase d else lsBase d) / 64 + f.line then true
        else Sparse.get (fun _ => false) s.poison l) ∧
      (∃ v : Event, t.events = s.events ++ [v] ∧ v.die = d.val ∧
        v.code = match gas, f.uncorrectable with
          | true, true => 0x4266 | true, false => 0x4165 | false, true => 0x4264 | false, false => 0x4163) ∧
      t = { s with regs := t.regs, cds := t.cds, poison := t.poison, events := t.events })))

/-- Kept inputs are rebuilt, variant tables activated, sequences admitted, adapter drains queued, held draws released
(rests on R66, R207, R213, R214, R215, R216, R217, R218, R221, R222, R160). A kept input whose block below can be read
is rebuilt for a queue in FAULT with code 0x7: the copy lies at the fresh address of a die's store, the base register
names it, and 0x5133 is raised; where it is the first block or the one below cannot be read, the step is reported
lost. A variant table within the canton's limits and without a reserved encoding becomes an active table of the
canton. A sequence whose row tag names an entry that allows its party (or the plain row) is admitted; one that begins
a micro-batch has its row tag written for each of its rows and a segment table of one segment; any other sequence is
dropped with 0x5230. An adapter drain of the variant's own group that delivers to its own adapters is put at the tail
of the queue's ring, TAIL then exposing it, or skipped where the variant is FROZEN; any other is refused with the
alarm 0x5431. A vector-engine conversion held for unseeded generators runs once they are seeded; an update engine's
hold is lifted. -/
def Obligations.TrainingFirmwareActsOnItsTables : Prop :=
(∀ (s : State) (d : Fin 40) (q : Fin 4) (base : Fin 8) (fresh : BitVec 48) (copy : List Byte),
    s.qState d q = 5 → (s.que d q).fcode = 7 →
    (∀ first below : Bool, first = true ∨ below = false →
      Yields (exec (.keptInputRebuild d q first below base fresh copy) s) (fun t =>
        t = { s with lostSteps := s.lostSteps ++ [(d.val, q.val)] })) ∧
    (∀ x off, s.placeOf fresh.toNat = .cd x off → (s.cd (fin40 x)).coversWindow off copy.length = false → base ≠ 0 →
      (∀ i ∈ List.range copy.length, s.mergeLost fresh.toNat copy.length i = false) →
      Yields (exec (.keptInputRebuild d q false true base fresh copy) s) (fun t =>
        (∀ i, i < copy.length → t.byte (fresh.toNat + i) = copy.getD i 0) ∧ MemOutside fresh.toNat copy.length s t ∧
        (∀ n : Fin 8, (t.que d q).bases[n] = if n = base then BitVec.ofNat 42 (fresh.toNat / 64) else (s.que d q).bases[n]) ∧
        (∃ e : Event, t.events = s.events ++ [e] ∧ e.code = 0x5133 ∧ e.die = d.val) ∧ t.regs = s.regs))) ∧
  (∀ (s : State) (k : Fin 8) (addr : BitVec 48) (h : List Byte) (es : List (List Byte)),
    s.bytes addr.toNat 64 = h → addr.toNat % 4096 = 0 → headerOk h = true →
    (List.range (fieldAt h 4 2)).map (fun i => s.bytes (addr.toNat + 64 + 64 * i) 64) = es →
    s.placeOf addr.toNat = .dram k → s.placeOf (addr.toNat + 63 + 64 * fieldAt h 4 2) = .dram k →
    (∀ p ∈ (List.range (fieldAt h 4 2)).zip es, entryOk p.1 (fieldAt h 3 1) p.2 = true) → s.tables[k] = [] →
    es.foldl (fun n e => n + popcount (fieldAt e 20 8) 64) 0 ≤ s.adapterLimit k →
    Yields (exec (.variantTableActivate k addr) s) (fun t =>
      (∃ v, t.tables[k] = [v] ∧ v.id = fieldAt h 2 1 ∧ v.addr = addr.toNat ∧ v.nvar = fieldAt h 4 2) ∧
      (∀ j : Fin 8, j ≠ k → t.tables[j] = s.tables[j]) ∧ t = { s with tables := t.tables })) ∧
  (∀ (s : State) (k : Fin 8) (table : Fin 16) (tag : W32) (rows : Nat) (tags segs : BitVec 48),
    (s.admits k table tag = true → 0 < rows → rows ≤ 65536 → s.placeOf tags.toNat = .dram k → s.placeOf segs.toNat = .dram k →
      Apart tags.toNat (4 * rows) segs.toNat 16 →
      Yields (exec (.sequenceAdmit k table tag ⟨rows, true, tags, segs⟩) s) (fun t =>
        (∃ a : AdmittedSeq, t.admitted = s.admitted.filter (fun (b : AdmittedSeq) => b.canton != k.val) ++ [a] ∧ a.tag = tag &&& 0x7FFFF ∧
          a.rows = rows ∧ a.table = table.val) ∧
        t.resp = .done ∧ (∀ i, i < rows → t.num (tags.toNat + 4 * i) 4 = (tag &&& 0x7FFFF).toNat) ∧
        t.num segs.toNat 2 = 1 ∧ t.num (segs.toNat + 2) 1 = table.val ∧
        t.num (segs.toNat + 8) 8 = (rows - 1) * 2 ^ 16 +
          (if tag.getLsbD 12 then 2 ^ 44 else bitsN tag.toNat 11 0 * 2 ^ 32))) ∧
    (s.admits k table tag = true → 0 < rows → ∀ mine : List AdmittedSeq,
      s.admitted.filter (fun (b : AdmittedSeq) => b.canton == k.val) = mine → rowsOf mine + rows ≤ 65536 →
      (segmentsOf (placeSeq mine ⟨k.val, table.val, tag &&& 0x7FFFF, rows⟩)).length ≤ 1024 →
      (∀ b ∈ mine, b.table = table.val) →
      Yields (exec (.sequenceAdmit k table tag ⟨rows, false, tags, segs⟩) s) (fun t =>
        t.admitted = s.admitted.filter (fun (b : AdmittedSeq) => b.canton != k.val) ++
          placeSeq mine ⟨k.val, table.val, tag &&& 0x7FFFF, rows⟩ ∧ t.resp = .done)) ∧
    (s.admits k table tag = false → ∀ fresh : Bool, Yields (exec (.sequenceAdmit k table tag ⟨rows, fresh, tags, segs⟩) s) (fun t =>
      (∃ e : Event, t.events = s.events ++ [e] ∧ e.code = 0x5230) ∧ t = { s with events := t.events }))) ∧
  (∀ (s : State) (d : Fin 40) (q : Fin 4) (table : Fin 16) (variant : BitVec 12) (w : Cmd) (v : VariantTable) (e : List Byte)
      (x off : Nat), s.dieOff d = false →
    s.tableOf ⟨s.cdCanton d % 8, Nat.mod_lt _ (by decide)⟩ table = some v → variant.toNat < v.nvar →
    s.variantEntry v variant.toNat = e →
    (s.drainRight d e w = true → (fieldAt e 14 1).testBit 7 = false →
      s.placeOf (s.qBase d q + 16 * (s.qTail d q % s.qSize d q)) = .cd x off → (s.cd (fin40 x)).coversWindow off 16 = false →
      (s.qTail d q + 1 + 2 ^ 16 - s.qHead d q) % 2 ^ 16 ≤ s.qSize d q →
      Yields (exec (.adapterDrainRequest d q table variant w) s) (fun t =>
        t.qTail d q = (s.qTail d q + 1) % 2 ^ 16 ∧ t.cmdAt (s.qBase d q + 16 * (s.qTail d q % s.qSize d q)) = w ∧
        MemOutside (s.qBase d q + 16 * (s.qTail d q % s.qSize d q)) 16 s t ∧
        OnlyRegs [R.SEQ_Q_TAIL d q, R.SEQ_Q_STATUS d q] s t)) ∧
    (s.drainRight d e w = true → (fieldAt e 14 1).testBit 7 = true →
      exec (.adapterDrainRequest d q table variant w) s = .next s) ∧
    (s.drainRight d e w = false →
      Yields (exec (.adapterDrainRequest d q table variant w) s) (fun t =>
        (∃ e : Event, t.events = s.events ++ [e] ∧ e.code = 0x5431 ∧ e.die = d.val) ∧ t = { s with events := t.events }))) ∧
  (∀ (s : State) (d : Fin 40) (e : UCmd), s.flag (R.ARITH_SR_STATUS (cdBase d)) F.ARITH_SR_STATUS_SEEDED = true →
    s.flag (R.VE_STATUS d) F.VE_STATUS_SRHOLD = true → s.head? d veUnit = some e → isUnit e.w 4 0x1E = true →
    VeReady (s.put (R.VE_STATUS d) F.VE_STATUS_SRHOLD 0) d e.q e.w [] →
    Yields (exec (.seedWaitRelease ⟨d.val, by omega⟩) s) (fun t =>
      (t.cd d).fifo veUnit = ((s.cd d).fifo veUnit).tail ∧
      (t.cd d).due = (s.cd d).due ++ sigDue e.q e.w (s.veLast d e.w + 1) ∧
      (∀ b, ¬ VeWrites d e.w b → t.byte b = s.byte b) ∧
      OnlyRegs [R.VE_STATUS d, R.VE_PERF_ACTIVE_LO d, R.VE_PERF_ACTIVE_HI d, R.VE_PERF_ELEM_LO d, R.VE_PERF_ELEM_HI d,
        R.VE_PERF_MASKED d] s t ∧ t.flag (R.VE_STATUS d) F.VE_STATUS_SRHOLD = false)) ∧
  (∀ (s : State) (m : Fin 16), s.dieOff (40 + m.val) = false →
    s.flag (R.ARITH_SR_STATUS (mdBase m)) F.ARITH_SR_STATUS_SEEDED = true → (s.sx m).openWaits = false → (s.sx m).rebases = [] →
    Yields (exec (.seedWaitRelease ⟨40 + m.val, by omega⟩) s) (fun t =>
      t.flag (R.UE_STATUS m) F.UE_STATUS_SRHOLD = false ∧ OnlyRegs [R.UE_STATUS m] s t ∧ t = { s with regs := t.regs }))

/-- A cadence controller starts, ends and lengthens its periods as its registers say (rests on R43, R223, R224, R225,
R226, R227, R228, R229). CAD_ENABLE with a step period starts a step period at 0 with that deadline; without one the
controller waits. CAD_DONE of the running kind, once the period's work has ended, sets e. At the deadline work that
has not ended by then (e not known, or above d) makes the period late: LATE is set, counted, 0x5020 is raised; in any
case every service core of the canton is interrupted. The next period, once e is known and the timer has reached
max(e, d), starts at max(e, d) with nominal start t + P, and, where no resynchronisation applies, its length is P′
less the debt made good, at most CATCHUP × P′ / 256; DEBT says whether it starts late, and 0x5021 is raised where a
debt has come back to 0. An evaluation batch starts while the timer is before the window's deadline, once. -/
def Obligations.CadencePeriodsFollowTheirDeadlines : Prop :=
(∀ (s : State) (k : Fin 8), s.flag (R.CAD_CTL k) F.CAD_CTL_EN = false → s.cads[k].on = false →
    ((s.rd (R.CAD_STEP_PERIOD k)).toNat ≠ 0 →
     Yields (exec (.cadEnable k) s) (fun t => t.flag (R.CAD_CTL k) F.CAD_CTL_EN = true ∧ t.cadKind k = 1 ∧
      t.cadDeadline k = (s.rd (R.CAD_STEP_PERIOD k)).toNat ∧ t.cads[k].start = 0 ∧ t.cads[k].nominal = 0 ∧
      t.cads[k].step = 0 ∧ t.cads[k].on = true ∧ t.cadTimer k = 0 ∧ t = { s with regs := t.regs, cads := t.cads })) ∧
    ((s.rd (R.CAD_STEP_PERIOD k)).toNat = 0 →
     Yields (exec (.cadEnable k) s) (fun t => t.flag (R.CAD_CTL k) F.CAD_CTL_EN = true ∧
      OnlyRegs [R.CAD_CTL k] s t ∧ t = { s with regs := t.regs }))) ∧
  (∀ (s : State) (k : Fin 8) (kind : BitVec 2) (running : List Nat), s.cadRuns k = true → kind.toNat = s.cadKind k →
    s.cads[k].ended = none → s.workEnded k running = true →
    Yields (exec (.cadDone k ⟨kind, running⟩) s) (fun t => t.cads[k].ended = some (s.cadTimer k) ∧
      OnlyRegs [R.CAD_TIMER_LO k, R.CAD_TIMER_HI k] s t ∧ t = { s with regs := t.regs, cads := t.cads })) ∧
  (∀ (s : State) (k : Fin 8) (waiting : List Nat), s.cadRuns k = true → s.cads[k].passed = false →
    s.cadDeadline k ≤ s.cadTimer k →
    (s.cadKind k ≠ 3 → (∀ e, s.cads[k].ended = some e → s.cadDeadline k < e) →
     Yields (exec (.cadDeadline k waiting) s) (fun t => t.cads[k].passed = true ∧ t.flag (R.CAD_STATUS k) F.CAD_STATUS_LATE = true ∧
      t.get (R.CAD_COUNT k) F.CAD_COUNT_LATE = min (2 ^ 16 - 1) (s.get (R.CAD_COUNT k) F.CAD_COUNT_LATE + 1) ∧
      (∃ e : Event, t.events = s.events ++ [e] ∧ e.code = 0x5020 ∧ e.canton = some k.val) ∧
      (∀ d : Fin 40, s.cdCanton d = k.val → (t.cd d).coreIrq = true) ∧ SameMem s t)) ∧
    (∀ e, s.cads[k].ended = some e → e ≤ s.cadDeadline k → s.cadKind k ≠ 3 →
     Yields (exec (.cadDeadline k waiting) s) (fun t => t.cads[k].passed = true ∧ t.events = s.events ∧
      (∀ d : Fin 40, s.cdCanton d = k.val → (t.cd d).coreIrq = true) ∧
      OnlyRegs [R.CAD_TIMER_LO k, R.CAD_TIMER_HI k] s t ∧ SameMem s t)) ∧
    (s.cadKind k = 3 →
     Yields (exec (.cadDeadline k waiting) s) (fun t => t.cads[k].passed = true ∧
      t.cads[k].carried = (if s.flag (R.CAD_CTL k) F.CAD_CTL_ECARRY then
        waiting ++ s.cads[k].carried.filter (fun b => !waiting.contains b) else []) ∧ SameMem s t))) ∧
  (∀ (s : State) (k : Fin 8) (e start nom kind p : Nat), s.cadRuns k = true → s.cads[k].ended = some e →
    (s.cads[k].passed = true ∨ (e ≤ s.cadDeadline k ∧ s.cadKind k ≠ 3)) →
    start = max e (s.cadDeadline k) → start ≤ s.cadTimer k → nom = s.cads[k].nominal + s.cadPeriod k (s.cadKind k) →
    s.get (R.CAD_CTL k) F.CAD_CTL_RESYNC = 0 → kind = s.cadNext k → p = s.cadPeriod k kind → start + p < 2 ^ 64 →
    Yields (exec (.cadPeriodStart k) s) (fun t => t.cads[k].start = start ∧ t.cads[k].nominal = nom ∧ t.cadKind k = kind ∧
      t.cadDeadline k = start + (p - min (start - nom) (s.get (R.CAD_CTL k) F.CAD_CTL_CATCHUP * p / 256)) ∧
      t.flag (R.CAD_STATUS k) F.CAD_STATUS_DEBT = decide (nom < start) ∧
      (if s.flag (R.CAD_STATUS k) F.CAD_STATUS_DEBT = true ∧ start ≤ nom then
        ∃ v : Event, t.events = s.events ++ [v] ∧ v.code = 0x5021 else t.events = s.events) ∧ SameMem s t)) ∧
  (∀ (s : State) (k : Fin 8) (b : Nat), s.cadRuns k = true → s.cadKind k = 3 → s.cadTimer k < s.cadDeadline k →
    b ∉ s.cads[k].started →
    Yields (exec (.evalBatchStart k b) s) (fun t => t.cads[k].started = s.cads[k].started ++ [b] ∧
      b ∉ t.cads[k].carried ∧ t = { s with cads := t.cads }))

/-- A seal engine accepts a read of unpoisoned memory, and releases bytes only once the block is verified (rests on
R245, R251, R252, R255, R257). A read that may be served by an engine with keys, of a running canton, moves from the
waiting requests to the accepted ones where no poisoned range is touched; where one is, it is refused: bit PREFUSED,
event 0x3208, a bus error. When an accepted read completes, its block's bytes (zeros for a block not written since its
line was initialised) are answered where its fetches and checks succeed, and a bus error where one fails; in neither
case does memory change. An engine that is shut by then answers a bus error, for either. -/
def Obligations.SealedReadsReleaseOnlyVerifiedBlocks : Prop :=
(∀ (s u : State) (m : Fin 16) (i n : Nat) (r : SealReq) (c : Fin 2) (l : Nat), s.servable m i = some (r, c, l) → r.op = .read n →
    s.dropReq m i = u →
    (s.sealShut m = false → u.poisonHits m c l 256 = [] →
      Yields (exec (.sealRead m i) s) (fun t => (t.eng m).reqs = (s.eng m).reqs.eraseIdx i ∧
        (t.eng m).reads = (s.eng m).reads ++ [r] ∧ t = { s with mds := t.mds })) ∧
    (s.sealShut m = false → u.poisonHits m c l 256 ≠ [] →
      Yields (exec (.sealRead m i) s) (fun t => t.flag (R.SEAL_STATUS m) F.SEAL_STATUS_PREFUSED = true ∧
        (∃ e : Event, t.events = s.events ++ [e] ∧ e.code = 0x3208 ∧ e.die = 40 + m.val) ∧ Answered u t r none ∧
        (t.eng m).reads = (s.eng m).reads ∧ OnlyRegs [R.SEAL_STATUS m] s t ∧ SameMem s t)) ∧
    (s.sealShut m = true → Yields (exec (.sealRead m i) s) (fun t => Answered u t r none ∧ t.regs = s.regs ∧ SameMem s t))) ∧
  (∀ (s u : State) (m : Fin 16) (i n : Nat) (f : Fetched) (r : SealReq) (die : Nat) (c : Fin 2) (l : Nat) (x : State × Bool),
    (s.eng m).reads[i]? = some r → r.op = .read n → s.channelOf r.mpa = some (die, c.val, l) → s.sealShut m = false →
    s.setEng m { s.eng m with reads := (s.eng m).reads.eraseIdx i } = u →
    u.fetchBlock m c (l / 256 * 256) f true false = x →
    Yields (exec (.sealReadComplete m i f) s) (fun t => SameMem s t ∧ (t.eng m).reads = (s.eng m).reads.eraseIdx i ∧
      (x.2 = true → Answered u t r (some (if s.writtenBlock m c (l / 256 * 256) then s.bytes r.mpa n else List.replicate n 0))) ∧
      (x.2 = false → Answered u t r none))) ∧
  (∀ (s u : State) (m : Fin 16) (i n : Nat) (f : Fetched) (r : SealReq) (die : Nat) (c : Fin 2) (l : Nat),
    (s.eng m).reads[i]? = some r → r.op = .read n → s.channelOf r.mpa = some (die, c.val, l) → s.sealShut m = true →
    s.setEng m { s.eng m with reads := (s.eng m).reads.eraseIdx i } = u →
    Yields (exec (.sealReadComplete m i f) s) (fun t => Answered u t r none ∧ t.regs = s.regs ∧ SameMem s t))

/-- A write stores its bytes under the block's next counter, or is refused and stores nothing (rests on R169, R246,
R251, R253, R254, R257). At an engine with keys, of a running canton: a full write of 256 bytes whose block is
poisoned by no entry or by single-block entries alone, whose fetches succeed, stores its bytes and no other, raises
the block's minor counter (1 after an overflow at 127), removes those entries and is answered. Touched by a larger
poisoned range it is refused with 0x3208. A partial write and a pennant addition of an unpoisoned block store their
bytes, or the 64-bit sum, where the old block's fetches and checks succeed; where one fails, memory keeps every byte
and a bus error is answered. -/
def Obligations.SealedWritesTakeTheNextCounter : Prop :=
(∀ (s u : State) (m : Fin 16) (i : Nat) (f : Fetched) (r : SealReq) (c : Fin 2) (l : Nat) (bs : List Byte) (x : State × Bool),
    s.servable m i = some (r, c, l) → r.op = .write bs → bs.length = 256 → s.sealShut m = false → s.dropReq m i = u →
    u.fetchBlock m c l f false false = x →
    ((∀ p ∈ u.poisonHits m c l 256, p.2.cls = 0) → x.2 = true →
      Yields (exec (.sealFullWrite m i f) s) (fun t =>
        (∀ j, j < 256 → t.byte (r.mpa + j) = bs.getD j 0) ∧ MemOutside r.mpa 256 s t ∧
        (t.chan m c).minor 1 (l / 256) = (if (s.chan m c).minor 1 (l / 256) = 127 then 1 else (s.chan m c).minor 1 (l / 256) + 1) ∧
        (∀ p ∈ u.poisonHits m c l 256, p ∉ (t.eng m).ptab) ∧ Answered u t r (some []))) ∧
    ((∀ p ∈ u.poisonHits m c l 256, p.2.cls = 0) → x.2 = false →
      Yields (exec (.sealFullWrite m i f) s) (fun t => SameMem s t ∧ Answered u t r none)) ∧
    ((∃ p ∈ u.poisonHits m c l 256, p.2.cls ≠ 0) →
      Yields (exec (.sealFullWrite m i f) s) (fun t => SameMem s t ∧ Answered u t r none ∧
        ∃ e : Event, t.events = s.events ++ [e] ∧ e.code = 0x3208 ∧ e.die = 40 + m.val))) ∧
  (∀ (s u : State) (m : Fin 16) (i : Nat) (f : Fetched) (r : SealReq) (c : Fin 2) (l : Nat) (x : State × Bool),
    s.servable m i = some (r, c, l) → s.sealShut m = false → s.dropReq m i = u → u.poisonHits m c l 256 = [] →
    u.fetchBlock m c l f true true = x →
    (∀ bs : List Byte, r.op = .write bs → bs.length ≠ 256 →
      Yields (exec (.sealPartialWrite m i f) s) (fun t =>
        (x.2 = true → (∀ j, j < bs.length → t.byte (r.mpa + j) = bs.getD j 0) ∧ MemOutside r.mpa bs.length s t ∧
          (t.chan m c).minor 1 (l / 256) = (if (s.chan m c).minor 1 (l / 256) = 127 then 1 else (s.chan m c).minor 1 (l / 256) + 1) ∧
          Answered u t r (some [])) ∧
        (x.2 = false → SameMem s t ∧ Answered u t r none))) ∧
    (∀ inc, r.op = .add inc →
      Yields (exec (.sealAtomicAdd m i f) s) (fun t =>
        (x.2 = true → t.num r.mpa 8 = (s.num r.mpa 8 + inc.toNat) % 2 ^ 64 ∧ MemOutside r.mpa 8 s t ∧ Answered u t r (some [])) ∧
        (x.2 = false → SameMem s t ∧ Answered u t r none))))

/-- SEAL_REINIT clears one entry and zeroes what is lost; a new tree starts empty; scrubs walk on and stop on fatal
faults (rests on R258, R259, R260, R262, R263). SEAL_REINIT of a valid entry (below generation 255 for class 2 and
above) sets BUSY for it, otherwise it sets REFUSED and raises 0x3209; while BUSY it does nothing. Completed, the entry
is gone and DONE set: for class 2 and above the whole range reads 0 and the channel's generation rises by one, for
class 1 its blocks read 0, for class 0 exactly the blocks of its line that cannot be verified do; every other byte is
kept; where a full write has removed the entry meanwhile, nothing but DONE remains. A tree initialised under loaded
keys, in a canton that is not stopped, sets TREE, and leaves no poison, generation 0, counters 0 and zeros in all
memory of the die. A patrol step that is due and meets nothing wrong only moves on. A resident scrub of a running
channel is due every 10 ms, and an uncorrectable error in it stops the canton with 0x330B. -/
def Obligations.PoisonIsClearedByReinitAndTreesByKeys : Prop :=
(∀ (s : State) (m : Fin 16) (index : Fin 1024),
    (s.flag (R.SEAL_REINIT_STATUS m) F.SEAL_REINIT_STATUS_BUSY = true → exec (.sealReinit m index) s = .next s) ∧
    (s.flag (R.SEAL_REINIT_STATUS m) F.SEAL_REINIT_STATUS_BUSY = false →
      (∀ e : PoisonEntry, (s.eng m).ptab.find? (fun p => p.1 == index.val) = some (index.val, e) →
        (e.cls < 2 ∨ s.get (R.SEAL_GEN m) (genField e.ch) ≠ 255) →
        Yields (exec (.sealReinit m index) s) (fun t => t.flag (R.SEAL_REINIT_STATUS m) F.SEAL_REINIT_STATUS_BUSY = true ∧
          (t.eng m).reinit = some index.val ∧ OnlyRegs [R.SEAL_REINIT_STATUS m] s t ∧ t = { s with regs := t.regs, mds := t.mds })) ∧
      (((s.eng m).ptab.find? (fun p => p.1 == index.val) = none ∨ ∃ e, (s.eng m).ptab.find? (fun p => p.1 == index.val) = some (index.val, e) ∧
          2 ≤ e.cls ∧ s.get (R.SEAL_GEN m) (genField e.ch) = 255) →
        Yields (exec (.sealReinit m index) s) (fun t => t.flag (R.SEAL_REINIT_STATUS m) F.SEAL_REINIT_STATUS_REFUSED = true ∧
          (∃ v : Event, t.events = s.events ++ [v] ∧ v.code = 0x3209 ∧ v.die = 40 + m.val) ∧ OnlyRegs [R.SEAL_REINIT_STATUS m] s t ∧
          t = { s with regs := t.regs, events := t.events })))) ∧
  (∀ (s : State) (m : Fin 16) (lost : List (Fin 64)) (i : Nat) (e : PoisonEntry), (s.eng m).reinit = some i →
    (s.eng m).ptab.find? (fun p => p.1 == i) = some (i, e) →
    Yields (exec (.sealReinitComplete m lost) s) (fun t => (∀ p ∈ (t.eng m).ptab, p.1 ≠ i) ∧ (t.eng m).reinit = none ∧
      t.flag (R.SEAL_REINIT_STATUS m) F.SEAL_REINIT_STATUS_DONE = true ∧ t.flag (R.SEAL_REINIT_STATUS m) F.SEAL_REINIT_STATUS_BUSY = false ∧
      (2 ≤ e.cls → t.get (R.SEAL_GEN m) (genField e.ch) = (s.get (R.SEAL_GEN m) (genField e.ch) + 1) % 256 ∧
        (∀ b, (∃ p ∈ s.mpaPages m e.ch e.base (classBytes e.cls), p.1 ≤ b ∧ b < p.1 + p.2) → t.byte b = 0) ∧
        (∀ b, (∀ p ∈ s.mpaPages m e.ch e.base (classBytes e.cls), b < p.1 ∨ p.1 + p.2 ≤ b) → t.byte b = s.byte b)) ∧
      (e.cls < 2 → ∀ gone : Nat → Prop,
        (∀ j, gone j ↔ (∃ k ∈ lost, k.val = j) ∨ (e.cls = 1 ∧ j < 64 ∧ e.base ≤ (64 * (e.base / 16384) + j) * 256 ∧
          (64 * (e.base / 16384) + j) * 256 < e.base + 2048)) →
        (∀ j n, gone j → n < 256 → t.byte (s.mpaOf m e.ch ((64 * (e.base / 16384) + j) * 256) + n) = 0) ∧
        (∀ b, (∀ j, gone j → b < s.mpaOf m e.ch ((64 * (e.base / 16384) + j) * 256) ∨
          s.mpaOf m e.ch ((64 * (e.base / 16384) + j) * 256) + 256 ≤ b) → t.byte b = s.byte b)))) ∧
  (∀ (s : State) (m : Fin 16) (lost : List (Fin 64)) (i : Nat), (s.eng m).reinit = some i →
    (s.eng m).ptab.find? (fun p => p.1 == i) = none →
    Yields (exec (.sealReinitComplete m lost) s) (fun t => (t.eng m).reinit = none ∧
      t.flag (R.SEAL_REINIT_STATUS m) F.SEAL_REINIT_STATUS_DONE = true ∧ t.flag (R.SEAL_REINIT_STATUS m) F.SEAL_REINIT_STATUS_BUSY = false ∧
      SameMem s t)) ∧
  (∀ (s : State) (m : Fin 16), s.flag (R.SEAL_STATUS m) F.SEAL_STATUS_KEYS = true → s.flag (R.SEAL_STATUS m) F.SEAL_STATUS_TREE = false →
    s.cantonStopped (s.colCanton (m.val % 8)) = false →
    Yields (exec (.treeInitComplete m) s) (fun t => t.flag (R.SEAL_STATUS m) F.SEAL_STATUS_TREE = true ∧ t.rd (R.SEAL_GEN m) = 0 ∧
      (t.eng m).ptab = [] ∧ (∀ (c : Fin 2) (b : Nat), (t.chan m c).minor 1 b = 0 ∧ (t.chan m c).root = 0) ∧
      (∀ a c l, s.channelOf a = some (m.val, c, l) → t.byte a = 0) ∧
      (∀ a, (∀ c l, s.channelOf a ≠ some (m.val, c, l)) → t.byte a = s.byte a))) ∧
  (∀ (s : State) (m : Fin 16) (mirror block : BurstErrs) (total : Nat), s.flag (R.MC_SCRUB_CTL m) F.MC_SCRUB_CTL_EN = true →
    (s.eng m).asleep = false → dimmBursts (s.nsOf m 0) + dimmBursts (s.nsOf m 1) = total → total ≠ 0 → fetchOf block ≠ .badTag →
    (s.eng m).patrolAt + s.get (R.MC_SCRUB_CTL m) F.MC_SCRUB_CTL_HOURS * 3600 * ticksPerSec / total ≤ s.now →
    Yields (exec (.patrolScrubStep m [] mirror block) s) (fun t => (t.eng m).scrub = ((s.eng m).scrub % total + 1) % total ∧ (t.eng m).patrolAt = s.now ∧
      t.get (R.MC_SCRUB_STATUS m) F.MC_SCRUB_STATUS_PROGRESS = ((s.eng m).scrub % total + 1) % total * 1024 / total ∧
      OnlyRegs [R.MC_SCRUB_STATUS m] s t ∧ t = { s with regs := t.regs, mds := t.mds })) ∧
  (∀ (s : State) (m : Fin 16), (s.eng m).asleep = false → (s.eng m).scrubbed + ticksPerSec / 100 ≤ s.now →
    Yields (exec (.residentScrub m .ok) s) (fun t => (t.eng m).scrubbed = s.now ∧ t = { s with mds := t.mds }) ∧
    Yields (exec (.residentScrub m .ecc) s) (fun t => t.flag (R.SEAL_STATUS m) F.SEAL_STATUS_CCFATAL = true ∧
      (∀ n : Fin 16, s.colCanton (n.val % 8) = s.colCanton (m.val % 8) → (t.eng n).asleep = true) ∧
      ∃ e : Event, t.events = s.events ++ [e] ∧ e.code = 0x330B ∧ e.die = 40 + m.val))

/-- Channels recalibrate every 100 ms, follow their DIMM's temperature, and clear their counters on command (rests on
R233, R234, R267). A trained, running channel recalibrates once 100 ms have passed since the last time, or once it has
left self-refresh, and not before. The hottest sensor sets TEMP (at most 255); refresh runs at half the interval from
85 degrees on; from 95 degrees on the channel is capped with THROT, and 0x301A where it was not yet; below 90 the cap
lifts; between 90 and 94 it stays as it is. SEAL_PERF_CLEAR sets the four performance counters to 0 and nothing else.
-/
def Obligations.MemoryChannelsRunTheirUpkeep : Prop :=
(∀ (s : State) (m : Fin 16) (c : Fin 2), s.flag (R.MC_STATUS m c) F.MC_STATUS_TRAINED = true → (s.eng m).asleep = false →
    ((s.chan m c).stale = true ∨ (s.chan m c).recalAt + ticksPerSec / 10 ≤ s.now →
      Yields (exec (.channelRecalibrate m c) s) (fun t => t.chan m c = { s.chan m c with recalAt := s.now, stale := false } ∧ t = { s with mds := t.mds })) ∧
    ((s.chan m c).stale = false → s.now < (s.chan m c).recalAt + ticksPerSec / 10 → exec (.channelRecalibrate m c) s = .next s)) ∧
  (∀ (s : State) (m : Fin 16) (c : Fin 2) (temps : List Nat) (hot : Nat), hot ∈ temps → (∀ x ∈ temps, x ≤ hot) →
    Yields (exec (.dimmTempSample m c temps) s) (fun t =>
      t.get (R.MC_STATUS m c) F.MC_STATUS_TEMP = min 255 hot ∧ (t.chan m c).halved = decide (85 ≤ hot) ∧
      t.flag (R.MC_STATUS m c) F.MC_STATUS_THROT =
        (if 95 ≤ hot then true else if hot < 90 then false else s.flag (R.MC_STATUS m c) F.MC_STATUS_THROT) ∧
      (if 95 ≤ hot ∧ s.flag (R.MC_STATUS m c) F.MC_STATUS_THROT = false then
        ∃ e : Event, t.events = s.events ++ [e] ∧ e.code = 0x301A ∧ e.die = 40 + m.val else t.events = s.events) ∧
      OnlyRegs [R.MC_STATUS m c] s t ∧ SameMem s t)) ∧
  (∀ (s : State) (m : Fin 16), Yields (exec (.sealPerfClear m) s) (fun t =>
    (∀ a ∈ [R.SEAL_PERF_OVF m, R.SEAL_PERF_RMW m, R.SEAL_PERF_CCMISS m, R.SEAL_PERF_TCMISS m], t.rd a = 0) ∧
    OnlyRegs [R.SEAL_PERF_OVF m, R.SEAL_PERF_RMW m, R.SEAL_PERF_CCMISS m, R.SEAL_PERF_TCMISS m] s t ∧
    t = { s with regs := t.regs, cleared := t.cleared }))

/-- Squares land in free granules, are committed in three bursts, and move the journal on; unreadable state faults
(rests on R273, R278, R281, R282, R286, R287, R290). A square arriving at an engine that takes none now lands in the
lowest free granules and waits; with too few free, or for a shard in SPLIT or FAULT, it stays at the link die. A
finite norm sets UE_LAGNORM where it is a step's, and is kept for the landing records it is for. With a square ready,
its generators seeded where its step draws and no request in the way of what it reads, a commit puts its shard into
ACTIVE for that step, with its moments phase noted in the journal and burst 1 in hand-over; where what it reads does
not come back the shard is in FAULT, with event 0x3226, and nothing is written. When every write of a burst is
acknowledged, burst 1 frees the granules and burst 2 follows, then burst 3, then the journal moves to the next square,
or ends the step after the last one; a refused burst puts the shard into FAULT. -/
def Obligations.UpdateEngineLandsCommitsAndFinishes : Prop :=
(∀ (s : State) (m : Fin 16) (shard square : Nat) (outer : Bool) (data : List Byte) (gs : List Nat),
    (s.shard? m shard).any (fun x => x.j.state == 3 || x.j.state == 4) = false →
    (s.ue m).freeGrans ((data.length + 65535) / 65536) = some gs → s.ueTakes m = false →
    Yields (exec (.ueSquareLand m shard square outer data) s) (fun t =>
      (t.ue m).landed = (s.ue m).landed ++ [⟨shard, square, outer, gs, (s.ue m).order, none⟩] ∧
      (∀ i, i < data.length → t.byte (landBase m + gs.getD (i / 65536) 0 * 65536 + i % 65536) = data.getD i 0) ∧
      MemOutside (landBase m) (128 * 65536) s t ∧ OnlyRegs [R.UE_STATUS m, R.UE_PERF_HOLD m] s t ∧ t.events = s.events)) ∧
  (∀ (s : State) (m : Fin 16) (shard square : Nat) (outer : Bool) (data : List Byte),
    ((s.shard? m shard).any (fun x => x.j.state == 3 || x.j.state == 4) = true ∨
      (s.ue m).freeGrans ((data.length + 65535) / 65536) = none) → exec (.ueSquareLand m shard square outer data) s = .next s) ∧
  (∀ (s : State) (m : Fin 16) (x : W32) (layer step : Nat), (f32 x.toNat).isFin = true →
    s.get (R.UE_NORMTAG m) F.UE_NORMTAG_LAYER = layer → s.get (R.UE_NORMTAG m) F.UE_NORMTAG_STEP = step →
    (∀ l ∈ (s.ue m).landed, l.step.isSome = true) →
    Yields (exec (.ueNormin m x) s) (fun t =>
      (layer = 0xFFFF → t.rd (R.UE_LAGNORM m) = BitVec.ofNat 32 (f32Sqrt x.toNat).1) ∧
      (layer ≠ 0xFFFF → t.rd (R.UE_LAGNORM m) = s.rd (R.UE_LAGNORM m)) ∧
      (∀ r ∈ (s.ue m).recs, if s.normWanted m layer step r then { r with norm := some (some (f32Sqrt x.toNat).1) } ∈ (t.ue m).recs
        else r ∈ (t.ue m).recs) ∧
      OnlyRegs [R.UE_LAGNORM m, R.UE_STATUS m, R.UE_PERF_HOLD m] s t ∧ SameMem s t ∧ t.events = s.events)) ∧
  (∀ (s u : State) (m : Fin 16) (reads : BlockReads) (sh : Shard) (d : ShardDesc) (l : Landed)
      (rest : List (Shard × ShardDesc × Landed)) (v q : State) (ok : Bool),
    ((s.ueTurn m reads).takeAll m).ueSync m = u → u.ueTakes m = true → (u.ue m).burst = none → u.readySquares m = (sh, d, l) :: rest →
    ((d.srm || d.srw || d.src) = true → u.flag (R.ARITH_SR_STATUS (mdBase m)) F.ARITH_SR_STATUS_SEEDED = true) →
    u.put (R.UE_STATUS m) F.UE_STATUS_SRHOLD 0 = v → v.rangesBusy (d.squareReads l.square l.outer false) = false →
    (if sh.j.state = 1 then v else (v.beginStep m sh d l).1).readBlocks reads (blocksOf (d.squareReads l.square l.outer false)) = (q, ok) →
    (ok = true → Yields (exec (.ueSquareCommit m reads) s) (fun t =>
      (∃ b, (t.ue m).burst = some b ∧ b.shard = sh.idx ∧ b.square = l.square ∧ b.phase = 1) ∧
      (∃ x, t.shard? m sh.idx = some x ∧ x.j.state = 1 ∧ x.j.outer = l.outer ∧ x.j.mstep = x.j.tstep ∧ x.j.cursor = l.square ∧
        (sh.j.state ≠ 1 → x.j.tstep = (if l.outer then sh.j.ostep else sh.j.istep) + 1 ∧ x.j.wstep + 1 = x.j.tstep)) ∧
      (t.ue m).landed = (u.ue m).landed ∧ SameMem u t)) ∧
    (ok = false → Yields (exec (.ueSquareCommit m reads) s) (fun t => (t.ue m).burst = none ∧
      (∃ x, t.shard? m sh.idx = some x ∧ x.j.state = 4) ∧ (∃ e : Event, t.events = q.events ++ [e] ∧ e.code = 0x3226 ∧ e.die = 40 + m.val) ∧
      (∀ n : Fin 16, (t.eng n).reqs = (q.eng n).reqs) ∧ SameMem u t))) ∧
  (∀ (s : State) (m : Fin 16) (b : Burst) (sh : Shard) (d : ShardDesc), (s.ue m).burst = some b → s.reqWaits b.id = false →
    s.shard? m b.shard = some sh → sh.desc = some d → sh.j.state = 1 → b.square = sh.j.cursor → (∀ l ∈ (s.ue m).landed, l.step.isSome = true) →
    ((∀ r ∈ (s.ue m).refused, r.1 ≠ b.id) →
      (b.phase = 1 ∨ b.phase = 2 → Yields (exec (.ueBurstAck m) s) (fun t =>
        (∃ c, (t.ue m).burst = some c ∧ c.shard = sh.idx ∧ c.square = b.square ∧ c.phase = b.phase + 1) ∧
        (t.ue m).landed = if b.phase = 2 then (s.ue m).landed else (s.ue m).landed.filter (fun l =>
          !(l.shard == b.shard && l.square == b.square && l.outer == sh.j.outer && l.step == some sh.j.tstep)))) ∧
      (b.phase = 3 → (∀ r ∈ (s.ue m).recs, r.norm ≠ some none) → Yields (exec (.ueBurstAck m) s) (fun t => (t.ue m).burst = none ∧
        ∃ x, t.shard? m b.shard = some x ∧ x.j.copies = false ∧
          (if sh.j.cursor + 1 = d.nsq then
            (x.j.state = 0 ∨ x.j.state = 2) ∧ x.j.cursor = 0 ∧ (if sh.j.outer then x.j.ostep else x.j.istep) = sh.j.tstep
            else x.j.state = 1 ∧ x.j.cursor = sh.j.cursor + 1)))) ∧
    ((∃ r ∈ (s.ue m).refused, r.1 = b.id) →
      Yields (exec (.ueBurstAck m) s) (fun t => (t.ue m).burst = none ∧ (∃ x, t.shard? m b.shard = some x ∧ x.j.state = 4) ∧
        ∃ e ∈ t.events, e.code = 0x3226 ∧ e.die = 40 + m.val)))

/-- EN reads the tables, PAUSE stops at a square boundary, RESET clears the engine but no buffer; commands end once
(rests on R272, R276, R288, R289, R290, R300, R301). A rise of EN in a canton that takes work, with an empty
descriptor table and none of the engine's writes waiting, sets EN with no shard, and faults with code 0x5 where the
schedule cannot be read; while writes wait the tables wait too; with EN set it does nothing. PAUSE sets its bit alone.
RESET clears the engine's table, burst, command and recovery, the norms given and EN, and leaves the landed squares,
memory and the seal engines untouched. RELOAD is ignored while a command runs and refused (code 0x6) while a shard is
ACTIVE or HELD. DISABLE puts an accepting shard into DISABLED and discards its squares, with BUSY set. A running
command whose work is done ends when its writes are acknowledged: DONE, with PARTIAL where an export stopped at LIMIT,
or REFUSED where a bus error stopped it. -/
def Obligations.UpdateEngineIsEnabledPausedAndReset : Prop :=
(∀ (s : State) (m : Fin 16) (tables journals : BlockReads),
    (s.flag (R.UE_CTL m) F.UE_CTL_EN = true → exec (.ueEnable m tables journals) s = .next s) ∧
    (s.flag (R.UE_CTL m) F.UE_CTL_EN = false → s.takesWork (s.mdCanton m) = true → s.get (R.UE_TABLE_CNT m) F.UE_TABLE_CNT_COUNT = 0 →
      (s.ue m).burst = none → s.ueWritesWait m = false → ∀ (v q : State) (ok : Bool),
      (s.put (R.UE_CTL m) F.UE_CTL_EN 1).setUe m { s.ue m with load := true, shards := [] } = v →
      v.ueRead m (tables ++ journals) (s.base4k (R.UE_SCHED_LO m) (R.UE_SCHED_HI m)) 256 = (q, ok) →
      Yields (exec (.ueEnable m tables journals) s) (fun t => t.flag (R.UE_CTL m) F.UE_CTL_EN = true ∧ (t.ue m).shards = [] ∧ (t.ue m).recov = [] ∧
        (t.ue m).load = false ∧
        (t.ue m).sched = (if ok then parseSched (s.bytes (s.base4k (R.UE_SCHED_LO m) (R.UE_SCHED_HI m)) 256) else none) ∧
        ((t.ue m).sched = none → s.flag (R.UE_FAULT m) F.UE_FAULT_VALID = false →
          t.rd (R.UE_FAULT m) = BitVec.ofNat 32 (5 + 16)) ∧ SameMem s t)) ∧
    (s.flag (R.UE_CTL m) F.UE_CTL_EN = false → s.takesWork (s.mdCanton m) = true → s.ueWritesWait m = true →
      Yields (exec (.ueEnable m tables journals) s) (fun t => t.flag (R.UE_CTL m) F.UE_CTL_EN = true ∧ (t.ue m).load = true ∧ SameMem s t)) ∧
    Yields (exec (.uePause m) s) (fun t => t.flag (R.UE_CTL m) F.UE_CTL_PAUSE = true ∧ OnlyRegs [R.UE_CTL m] s t ∧ t = { s with regs := t.regs }) ∧
    Yields (exec (.ueReset m) s) (fun t => t.flag (R.UE_CTL m) F.UE_CTL_EN = false ∧ (t.ue m).shards = [] ∧ (t.ue m).burst = none ∧
      (t.ue m).cmd = none ∧ (t.ue m).recov = [] ∧ (t.ue m).landed = (s.ue m).landed ∧
      (t.ue m).recs = (s.ue m).recs.map (fun r => { r with norm := none }) ∧
      t.flag (R.UE_CMDSTAT m) F.UE_CMDSTAT_BUSY = false ∧ (∀ n : Fin 16, t.eng n = s.eng n) ∧
      OnlyRegs [R.UE_CTL m, R.UE_CMDSTAT m, R.UE_STATUS m, R.UE_PERF_HOLD m] s t ∧ t = { s with regs := t.regs, mds := t.mds }) ∧
    (s.cmdBusy m = true → exec (.ueReload m tables journals) s = .next s) ∧
    (s.cmdBusy m = false → (∃ x ∈ (s.ue m).shards, x.j.state = 1 ∨ x.j.state = 2) →
      Yields (exec (.ueReload m tables journals) s) (fun t => t.flag (R.UE_CMDSTAT m) F.UE_CMDSTAT_REFUSED = true ∧
        (s.flag (R.UE_FAULT m) F.UE_FAULT_VALID = false → t.rd (R.UE_FAULT m) = BitVec.ofNat 32 (6 + 16)) ∧
        OnlyRegs [R.UE_CMDSTAT m, R.UE_FAULT m] s t ∧ t = { s with regs := t.regs })) ∧
    (s.cmdBusy m = false → (∀ x ∈ (s.ue m).shards, x.j.state ≠ 1 ∧ x.j.state ≠ 2) →
      (s.ueWritesWait m = false → s.get (R.UE_TABLE_CNT m) F.UE_TABLE_CNT_COUNT = 0 →
        Yields (exec (.ueReload m tables journals) s) (fun t => t.flag (R.UE_CMDSTAT m) F.UE_CMDSTAT_BUSY = true ∧ (t.ue m).shards = [] ∧
          ∃ c, (t.ue m).cmd = some c ∧ c.op = 1 ∧ c.failed = false ∧ c.todo = false)) ∧
      (s.ueWritesWait m = true →
        Yields (exec (.ueReload m tables journals) s) (fun t => t.flag (R.UE_CMDSTAT m) F.UE_CMDSTAT_BUSY = true ∧
          ∃ c, (t.ue m).cmd = some c ∧ c.op = 1 ∧ c.todo = true)))) ∧
  (∀ (s : State) (m : Fin 16) (shard : Fin 16384) (x : Shard) (d : ShardDesc), s.cmdBusy m = false → (s.ue m).norms = [] →
    s.cmdShard m shard [0, 3, 4] = some (x, d) →
    Yields (exec (.ueDisable m shard) s) (fun t => (∃ y, t.shard? m shard = some y ∧ y.j.state = 5) ∧
      (t.ue m).landed = (s.ue m).landed.filter (fun l => l.shard != shard.val) ∧ t.flag (R.UE_CMDSTAT m) F.UE_CMDSTAT_BUSY = true ∧
      ∃ c, (t.ue m).cmd = some c ∧ c.op = 6 ∧ c.shard = shard.val ∧ c.todo = false)) ∧
  (∀ (s : State) (m : Fin 16) (reads : BlockReads) (c : UeCmd), (s.ue m).cmd = some c → c.todo = false → s.reqWaits c.id = false →
    (c.op = 1 → (s.ue m).recov = []) →
    Yields (exec (.ueCommandComplete ⟨m, reads⟩) s) (fun t => (t.ue m).cmd = none ∧ t.flag (R.UE_CMDSTAT m) F.UE_CMDSTAT_BUSY = false ∧
      (c.partialEnd = true → t.flag (R.UE_CMDSTAT m) F.UE_CMDSTAT_PARTIAL = true) ∧
      (if c.failed = true ∨ (∃ r ∈ (s.ue m).refused, r.1 = c.id) then t.flag (R.UE_CMDSTAT m) F.UE_CMDSTAT_REFUSED = true
        else t.flag (R.UE_CMDSTAT m) F.UE_CMDSTAT_DONE = true)))

/-- REDERIVE, AUDIT, EXPORT, IMPORT and SNAPSHOT run on a shard whose state admits them, or are refused or fail (rests
on R280, R292, R293, R294, R295, R297, R298, R300). While a command runs another is ignored. On a shard whose state
does not admit it a command is REFUSED with code 0x6 (while no fault is recorded) and does nothing else; one whose
reads meet a bus error puts the shard into FAULT. Where nothing makes them wait: REDERIVE and SNAPSHOT run (BUSY),
SNAPSHOT's writes being exactly the master's bytes sent to SNAP; AUDIT reads what it compares and starts, as
AUDIT_INTERVAL does when it is due, and at a later turn each sets AUDIT_DIFF to the differing elements and raises
0x3027 where there are any. EXPORT on the release channel without an authorisation is refused with code 0x8 and
0x3428; otherwise, with its key, it runs, ending PARTIAL where LIMIT stops it. IMPORT of a record that does not open
is refused with code 0x7 and 0x3429; a journal record of the shard's own tensor restores its steps and returns it to
IDLE, one of an array is written where it meets the shard. -/
def Obligations.UpdateEngineCommandsRunOnTheirShards : Prop :=
∀ (s : State) (m : Fin 16) (shard : Fin 16384) (reads : BlockReads) (module : BitVec 24) (die : BitVec 8),
    (s.cmdBusy m = true → ∀ c ∈ [Instr.ueRederive m shard reads, .ueAudit m shard reads, .ueExport m shard reads, .ueImport m shard ⟨module, die, reads⟩,
      .ueSnapshot m shard reads, .ueAuditInterval m ⟨shard, reads⟩], exec c s = .next s) ∧
    (s.cmdBusy m = false → s.cmdShard m shard [0, 3, 4, 5] = none → s.flag (R.UE_FAULT m) F.UE_FAULT_VALID = false →
      ∀ c ∈ [Instr.ueRederive m shard reads, .ueAudit m shard reads, .ueExport m shard reads, .ueImport m shard ⟨module, die, reads⟩, .ueSnapshot m shard reads],
        Yields (exec c s) (fun t => t.flag (R.UE_CMDSTAT m) F.UE_CMDSTAT_REFUSED = true ∧
          t.rd (R.UE_FAULT m) = BitVec.ofNat 32 (6 + 16 + shard.val * 256) ∧ OnlyRegs [R.UE_CMDSTAT m, R.UE_FAULT m] s t ∧
          t = { s with regs := t.regs })) ∧
    (∀ (x : Shard) (d : ShardDesc), s.cmdBusy m = false → s.cmdShard m shard [0] = some (x, d) →
      (∀ (u q : State) (ok : Bool), (d.src = true → s.unseeded m = false) →
        (s.startCmd m 2 shard).put (R.UE_STATUS m) F.UE_STATUS_SRHOLD 0 = u → u.rangesBusy d.masterReads = false →
        u.readBlocks reads (blocksOf d.masterReads) = (q, ok) →
        Yields (exec (.ueRederive m shard reads) s) (fun t => t.flag (R.UE_CMDSTAT m) F.UE_CMDSTAT_BUSY = true ∧ SameMem s t ∧
          (∃ k, (t.ue m).cmd = some k ∧ k.op = 2 ∧ k.shard = shard.val ∧ k.todo = false ∧ k.failed = !ok) ∧
          (ok = true → t.events = q.events) ∧
          (ok = false → (∃ y, t.shard? m shard = some y ∧ y.j.state = 4) ∧ ∃ e : Event, t.events = q.events ++ [e] ∧ e.code = 0x3226))) ∧
      (∀ (u q : State) (ok : Bool), d.outer = true → s.startCmd m 7 shard = u → u.rangesBusy d.masterReads = false →
        u.readBlocks reads (blocksOf d.masterReads) = (q, ok) →
        Yields (exec (.ueSnapshot m shard reads) s) (fun t => t.flag (R.UE_CMDSTAT m) F.UE_CMDSTAT_BUSY = true ∧ SameMem s t ∧
          (∃ k, (t.ue m).cmd = some k ∧ k.op = 7 ∧ k.shard = shard.val ∧ k.todo = false ∧ k.failed = !ok) ∧
          (ok = true → ∀ n : Fin 16, (t.eng n).reqs =
            ((q.newReq.forwardWrite (mdDie m) d.snap (s.bytes d.master (4 * (d.nsq * d.sq)))).eng n).reqs) ∧
          (ok = false → (∃ y, t.shard? m shard = some y ∧ y.j.state = 4) ∧ ∃ e : Event, t.events = q.events ++ [e] ∧ e.code = 0x3226))) ∧
      (∀ u : State, (s.setUe m { s.ue m with audit := none }).startCmd m 3 shard = u →
        (u.auditWaits m d = true →
          Yields (exec (.ueAudit m shard reads) s) (fun t => t.flag (R.UE_CMDSTAT m) F.UE_CMDSTAT_BUSY = true ∧ SameMem s t ∧
            t.events = s.events ∧ (t.ue m).audit = none ∧
            ∃ k, (t.ue m).cmd = some k ∧ k.op = 3 ∧ k.shard = shard.val ∧ k.todo = true ∧ k.failed = false)) ∧
        (∀ (q : State) (ok : Bool), u.auditWaits m d = false → u.readBlocks reads (blocksOf d.auditReads) = (q, ok) →
          Yields (exec (.ueAudit m shard reads) s) (fun t => t.flag (R.UE_CMDSTAT m) F.UE_CMDSTAT_BUSY = true ∧ SameMem s t ∧
            (∃ k, (t.ue m).cmd = some k ∧ k.op = 3 ∧ k.shard = shard.val ∧ k.todo = ok ∧ k.failed = !ok) ∧
            (ok = true → t.events = q.events ∧ (t.ue m).audit = some x.idx) ∧
            (ok = false → (∃ y, t.shard? m shard = some y ∧ y.j.state = 4) ∧ ∃ e : Event, t.events = q.events ++ [e] ∧ e.code = 0x3226)))) ∧
      (s.ueTakes m = true → s.get (R.UE_AUDIT_CTL m) F.UE_AUDIT_CTL_EVERY ≠ 0 → (s.ue m).audited = [] →
        s.get (R.UE_AUDIT_CTL m) F.UE_AUDIT_CTL_EVERY ≤ x.j.istep → s.auditWaits m d = false →
        ((s.ue m).audit = none → Yields (exec (.ueAuditInterval m ⟨shard, reads⟩) s) (fun t =>
          t = s.setUe m { s.ue m with audit := some x.idx })) ∧
        (∀ (q : State) (n : Nat), (s.ue m).audit = some x.idx →
          (s.setUe m { s.ue m with audit := none }).readBlocks reads (blocksOf d.auditReads) = (q, true) →
          (List.range d.nsq).foldl (fun n k => n + s.auditSquare d k) 0 = n →
          Yields (exec (.ueAuditInterval m ⟨shard, reads⟩) s) (fun t => t.rd (R.UE_AUDIT_DIFF m) = BitVec.ofNat 32 (min (2 ^ 32 - 1) n) ∧
            (if n = 0 then t.events = q.events else ∃ e : Event, t.events = q.events ++ [e] ∧ e.code = 0x3027 ∧ e.die = 40 + m.val) ∧
            (x.idx, x.j.istep) ∈ (t.ue m).audited ∧ (t.ue m).audit = none ∧ SameMem s t))) ∧
      (∀ (u q : State) (b : CmdBlock), s.startCmd m 4 shard = u → u.rangesBusy [(s.cmdArg m, 64)] = false →
        u.ueRead m reads (s.cmdArg m) 64 = (q, true) → s.cmdBlock (s.cmdArg m) = b →
        (b.chan = 1 → s.released (s.mdCanton m) d x.j b.slot = false → s.flag (R.UE_FAULT m) F.UE_FAULT_VALID = false →
          Yields (exec (.ueExport m shard reads) s) (fun t => t.flag (R.UE_CMDSTAT m) F.UE_CMDSTAT_REFUSED = true ∧
            t.flag (R.UE_CMDSTAT m) F.UE_CMDSTAT_BUSY = false ∧ (t.ue m).cmd = none ∧
            t.rd (R.UE_FAULT m) = BitVec.ofNat 32 (8 + 16 + shard.val * 256) ∧
            (∃ e : Event, t.events = q.events ++ [e] ∧ e.code = 0x3428) ∧ SameMem s t)) ∧
        (∀ (key : List Byte) (v w : State) (n k : Nat) (stop : ExportEnd), b.chan = 0 → b.kinds < 64 →
          q.slotKey (s.mdCanton m) b.slot = some key →
          (((q.exportPlan d x.j b).drop (q.exportFrom m shard b)).any (fun p => p.blocks.any q.blockBusy)) = false →
          State.exportRun m d x.j b key reads ((q.exportPlan d x.j b).drop (q.exportFrom m shard b)) q.newReq 0 0 = (v, n, k, stop) →
          stop ≠ .bad →
          v.setUe m { v.ue m with cont :=
            (if stop == .limit then some ⟨shard, b.ckpt, b.chan, b.kinds, q.exportFrom m shard b + k, b.seq + k⟩ else none) } = w →
          w.checkRange (.updateEngine m) true (b.mpa + 32) 12 = .ok →
          Yields (exec (.ueExport m shard reads) s) (fun t => t.flag (R.UE_CMDSTAT m) F.UE_CMDSTAT_BUSY = true ∧
            (t.ue m).cont = (w.ue m).cont ∧
            ∃ c, (t.ue m).cmd = some c ∧ c.op = 4 ∧ c.shard = shard.val ∧ c.failed = false ∧ c.todo = false ∧
              c.partialEnd = (stop == .limit))))) ∧
    (∀ (c : UeCmd) (x : Shard) (d : ShardDesc) (q : State) (n : Nat), (s.ue m).cmd = some c → c.op = 3 → c.todo = true →
      s.shard? m c.shard = some x → x.desc = some d → (∀ l ∈ (s.ue m).landed, l.step.isSome = true) → s.auditWaits m d = false →
      (if (s.ue m).audit = some x.idx then (s, true) else s.readBlocks reads (blocksOf d.auditReads)) = (q, true) →
      (List.range d.nsq).foldl (fun n k => n + s.auditSquare d k) 0 = n →
      Yields (exec (.ueCommandComplete ⟨m, reads⟩) s) (fun t => t.rd (R.UE_AUDIT_DIFF m) = BitVec.ofNat 32 (min (2 ^ 32 - 1) n) ∧
        (if n = 0 then t.events = q.events else ∃ e : Event, t.events = q.events ++ [e] ∧ e.code = 0x3027 ∧ e.die = 40 + m.val) ∧
        (x.idx, x.j.istep) ∈ (t.ue m).audited ∧ (∃ k, (t.ue m).cmd = some k ∧ k.op = 3 ∧ k.todo = false) ∧ SameMem s t)) ∧
    (∀ (x : Shard) (d : ShardDesc) (u q p v : State) (b : CmdBlock) (h key : List Byte), s.cmdBusy m = false →
      s.cmdShard m shard [0, 3, 4, 5] = some (x, d) → s.startCmd m 5 shard module.toNat die.toNat = u →
      u.rangesBusy [(s.cmdArg m, 64)] = false → u.ueRead m reads (s.cmdArg m) 64 = (q, true) → s.cmdBlock (s.cmdArg m) = b →
      q.rangesBusy [(b.addr, 128)] = false → q.ueRead m reads b.addr 128 = (p, true) → s.bytes b.addr 128 = h →
      p.rangesBusy [(b.addr + 128, fieldAt h 96 8 + 16)] = false →
      p.ueRead m reads (b.addr + 128) (fieldAt h 96 8 + 16) = (v, true) →
      v.slotKey (s.mdCanton m) b.slot = some key → fieldAt h 4 4 = v.jobs.getD (s.mdCanton m) 0 → fieldAt h 0 2 = 1 →
      ∀ (nonce text : List Byte), leBytes 3 module.toNat ++ leBytes 1 die.toNat ++ leBytes 4 (fieldAt h 20 4) ++ List.replicate 4 0 = nonce →
      s.bytes (b.addr + 128) (fieldAt h 96 8 + 16) = text →
      Yields (exec (.ueImport m shard ⟨module, die, reads⟩) s) (fun t =>
        (gcmOpen key nonce h text = none →
          t.flag (R.UE_CMDSTAT m) F.UE_CMDSTAT_REFUSED = true ∧ t.flag (R.UE_CMDSTAT m) F.UE_CMDSTAT_BUSY = false ∧ (t.ue m).cmd = none ∧
          (∃ e : Event, t.events = v.events ++ [e] ∧ e.code = 0x3429) ∧ (∀ n : Fin 16, (t.eng n).reqs = (v.eng n).reqs) ∧ SameMem s t) ∧
        (∀ pay : List Byte, gcmOpen key nonce h text = some pay → fieldAt h 8 3 = d.tensor →
          (fieldAt h 2 1 = 5 → t.flag (R.UE_CMDSTAT m) F.UE_CMDSTAT_BUSY = true ∧ ∃ y, t.shard? m shard = some y ∧ y.j.state = 0 ∧
            y.j.istep = fieldAt pay 40 4 ∧ y.j.ostep = fieldAt pay 36 4) ∧
          (∀ a w : Nat, fieldAt h 2 1 < 5 → d.kindArray (fieldAt h 2 1) = some (a, w) → fieldAt h 3 1 = (if w = 2 then 1 else 0) →
            t.flag (R.UE_CMDSTAT m) F.UE_CMDSTAT_BUSY = true ∧ SameMem s t ∧ t.events = v.events ∧
            ∀ n : Fin 16, (t.eng n).reqs = ((v.newReq.importElems m d h pay a w).eng n).reqs))))

/-- CREATE, CLAIM, RESUME, ABORT, RESET and FREE move a group between its states and set DONE, or are refused (rests
on R304, R306, R323, R325, R329, R330, R334). CREATE of a FREE context in a canton that takes work, whose box fits
where it has one, with its slots free on every link die, makes it READY with nothing in progress and the slots
claimed; where slots lack and the granules are free in a memory die of the canton, it is staged, with 0x2030; of a
context in use, or with a box that does not fit, it is refused. CLAIM of a READY staged idle group whose slots are now
free makes it slotted and returns its granules. RESUME sends every unacknowledged piece again and leaves it READY or
ACTIVE. ABORT ends every operation and leaves it ABORTED with 0x2234. RESET of a stopped group ends them too, sets
HEAD to TAIL and leaves it READY. FREE of an idle group drops its context and returns its slots. A command on a group
that the canton does not hold is REFUSED and does nothing else. -/
def Obligations.GroupCommandsMoveAGroupsState : Prop :=
∀ (s : State) (k : Fin 8) (g : Fin 4096),
    (s.gState g = 0 → s.takesWork k = true → ((s.shape g).axis = true → (s.boxIndex g).isSome = true) →
      (∀ l, l < 6 → s.get (R.GC_SLOT g) F.GC_SLOT_NSLOT ≤ s.freeSlots k l) →
      Yields (exec (.groupCreate k g) s) (fun t => t.gState g = 1 ∧ t.gCanton g = k.val ∧ t.flag (R.GC_SLOT g) F.GC_SLOT_GRANTED = true ∧
        t.flag (R.GC_CMDSTAT k) F.GC_CMDSTAT_DONE = true ∧
        (∃ y : Group, t.grp g = some y ∧ y.ops = [] ∧ y.fetched = [] ∧ y.fetch = s.get (R.GC_QTAIL g) F.GC_QTAIL_INDEX ∧
          y.expect = s.get (R.GC_STATUS g) F.GC_STATUS_OPSEQ ∧ ∀ u : Fin 7, (ringOf y u) = GRing.reset) ∧
        (∀ l, l < 6 → t.get (R.CL_SLOTS l k) F.CL_SLOTS_CLAIMED =
          (s.get (R.CL_SLOTS l k) F.CL_SLOTS_CLAIMED + s.get (R.GC_SLOT g) F.GC_SLOT_NSLOT) % 2 ^ 11) ∧ SameMem s t ∧ t.events = s.events)) ∧
    (∀ gs : List Nat, s.gState g = 0 → s.takesWork k = true → ((s.shape g).axis = true → (s.boxIndex g).isSome = true) →
      (∃ l, l < 6 ∧ s.freeSlots k l < s.get (R.GC_SLOT g) F.GC_SLOT_NSLOT) →
      (s.ue (s.stageMd g)).freeGrans (s.get (R.GC_STAGE g) F.GC_STAGE_GRAN) = some gs → s.mdCanton (s.stageMd g) = k.val →
      Yields (exec (.groupCreate k g) s) (fun t => t.gState g = 1 ∧ t.flag (R.GC_STATUS g) F.GC_STATUS_STAGED = true ∧
        (t.ue (s.stageMd g)).stagedGrans = (s.ue (s.stageMd g)).stagedGrans ++ gs ∧ (∃ y : Group, t.grp g = some y ∧ y.grans = gs ∧ y.ops = []) ∧
        ∃ e : Event, t.events = s.events ++ [e] ∧ e.code = 0x2030)) ∧
    ((s.gState g ≠ 0 ∨ s.takesWork k = false ∨ ((s.shape g).axis = true ∧ s.boxIndex g = none)) → Yields (exec (.groupCreate k g) s) (fun t =>
      t.flag (R.GC_CMDSTAT k) F.GC_CMDSTAT_REFUSED = true ∧ OnlyRegs [R.GC_CMDSTAT k] s t ∧ t = { s with regs := t.regs })) ∧
    ((s.grp g = none ∨ s.holds k g = false) →
      ∀ c ∈ [Instr.groupClaim k g, .groupResume k g, .groupAbort k g, .groupReset k g, .groupFree k g],
        Yields (exec c s) (fun t => t.flag (R.GC_CMDSTAT k) F.GC_CMDSTAT_REFUSED = true ∧ OnlyRegs [R.GC_CMDSTAT k] s t ∧ t = { s with regs := t.regs })) ∧
    (∀ x : Group, s.grp g = some x → s.holds k g = true →
      (s.gState g = 1 → x.ops = [] → s.flag (R.GC_STATUS g) F.GC_STATUS_STAGED = true →
        (∀ l, l < 6 → s.get (R.GC_SLOT g) F.GC_SLOT_NSLOT ≤ s.freeSlots k l) →
        Yields (exec (.groupClaim k g) s) (fun t => t.flag (R.GC_STATUS g) F.GC_STATUS_STAGED = false ∧
          t.flag (R.GC_SLOT g) F.GC_SLOT_GRANTED = true ∧ t.flag (R.GC_CMDSTAT k) F.GC_CMDSTAT_DONE = true ∧
          (t.ue (s.stageMd g)).stagedGrans = (s.ue (s.stageMd g)).stagedGrans.filter (fun i => !x.grans.contains i) ∧ SameMem s t)) ∧
      (s.gState g < 4 → Yields (exec (.groupResume k g) s) (fun t => t.gState g = (if x.ops = [] then 1 else 2) ∧
        t.get (R.GC_STATUS g) F.GC_STATUS_REASON = 0 ∧ (∃ y : Group, t.grp g = some y ∧ y.progressAt = s.now) ∧
        (∀ (u : Fin 7), ∀ p ∈ (ringOf x u).unacked, GMsg.piece p.1 p.2 ∈ t.outbox) ∧ SameMem s t)) ∧
      Yields (exec (.groupAbort k g) s) (fun t => t.gState g = 4 ∧ t.flag (R.GC_CMDSTAT k) F.GC_CMDSTAT_DONE = true ∧
        (∃ y : Group, t.grp g = some y ∧ y.ops = [] ∧ ∀ o ∈ x.ops, o.d.opseq ∈ y.aborted) ∧ ∃ e ∈ t.events, e.code = 0x2234) ∧
      (3 ≤ s.gState g → Yields (exec (.groupReset k g) s) (fun t => t.gState g = 1 ∧ t.flag (R.GC_CMDSTAT k) F.GC_CMDSTAT_DONE = true ∧
        t.get (R.GC_QHEAD g) F.GC_QHEAD_INDEX = s.get (R.GC_QTAIL g) F.GC_QTAIL_INDEX ∧
        (∃ y : Group, t.grp g = some y ∧ y.ops = [] ∧ y.fetched = [] ∧ y.expect = s.get (R.GC_STATUS g) F.GC_STATUS_OPSEQ))) ∧
      (x.ops = [] → Yields (exec (.groupFree k g) s) (fun t => t.gState g = 0 ∧ t.grp g = none ∧
        t.flag (R.GC_CMDSTAT k) F.GC_CMDSTAT_DONE = true ∧
        (s.flag (R.GC_SLOT g) F.GC_SLOT_GRANTED = true → ∀ l, l < 6 → t.get (R.CL_SLOTS l k) F.CL_SLOTS_CLAIMED =
          s.get (R.CL_SLOTS l k) F.CL_SLOTS_CLAIMED - s.get (R.GC_SLOT g) F.GC_SLOT_NSLOT) ∧ SameMem s t)))

/-- TAIL posts descriptors, each is checked, triggered, started and completed in order; stalls and aborts stop the
group (rests on R309, R311, R312, R313, R328, R330, R334). A write of TAIL by the group's canton sets it; an overrun
faults the group (reason 4, 0x2233). The next descriptor is taken where its read is allowed and it may run, and
otherwise faults the group: reason 5 for the read (after the event of the refused access), 4 for the rest. A trigger
poll that is due notes whether the pennant has met its threshold. The first descriptor taken starts when the group may
start one and its trigger is met; a NOP has nothing to do. An operation with all its work done writes its status, and
once that write is acknowledged leaves the list, its DONE pennant (in a store) rising by DONEINC and no other byte
changing. No progress for PATIENCE makes the group STALLED, names the module and interrupts the cores. A member that
receives an abort message aborts those operations once and enters ABORTED. The canton's counters are cleared by
CL_COUNTER_CLEAR. -/
def Obligations.CommunicationQueuesRunInOrder : Prop :=
(∀ (s : State) (k : Fin 8) (g : Fin 4096) (tail : BitVec 16) (n : Nat), (tail.toNat + 2 ^ 16 - s.get (R.GC_QHEAD g) F.GC_QHEAD_INDEX) % 2 ^ 16 = n →
    ((s.gState g = 0 ∨ (s.gCanton g = k.val ∧ n ≤ 2 ^ s.get (R.GC_QCTL g) F.GC_QCTL_SIZE)) →
      Yields (exec (.groupTailWrite k g tail) s) (fun t => t.get (R.GC_QTAIL g) F.GC_QTAIL_INDEX = tail.toNat ∧
        OnlyRegs [R.GC_QTAIL g] s t ∧ t = { s with regs := t.regs })) ∧
    (s.gState g ≠ 0 → s.gCanton g = k.val → 2 ^ s.get (R.GC_QCTL g) F.GC_QCTL_SIZE < n →
      Yields (exec (.groupTailWrite k g tail) s) (fun t => t.gState g = 5 ∧ t.get (R.GC_STATUS g) F.GC_STATUS_REASON = 4 ∧
        (∃ e : Event, t.events = s.events ++ [e] ∧ e.code = 0x2233) ∧ t = { s with regs := t.regs, events := t.events })) ∧
    (s.gState g ≠ 0 → s.gCanton g ≠ k.val → exec (.groupTailWrite k g tail) s = .next s)) ∧
  (∀ (s : State) (g : Fin 4096) (x : Group) (d : GDesc) (r : Requester), s.grp g = some x → x.fetch ≠ s.get (R.GC_QTAIL g) F.GC_QTAIL_INDEX →
    s.gState g < 4 → r = .hdma ⟨s.gCanton g % 8, Nat.mod_lt _ (by decide)⟩ → parseGDesc (s.bytes (s.descAt g x.fetch) 80) = d →
    (s.checkRange r false (s.descAt g x.fetch) 128 = .ok → s.descOk g d = true → d.opseq = x.expect →
      Yields (exec (.descriptorFetch g) s) (fun t => t.grp g = some { x with
        fetch := (x.fetch + 1) % 65536, expect := (x.expect + 1) % 65536, fetched := x.fetched ++ [(x.fetch, d)],
        finished := x.finished.filter (fun i => i != x.fetch) } ∧
        t = { s with groups := t.groups })) ∧
    (s.checkRange r false (s.descAt g x.fetch) 128 ≠ .ok ∨ s.descOk g d = false ∨ d.opseq ≠ x.expect →
      Yields (exec (.descriptorFetch g) s) (fun t => t.gState g = 5 ∧
        t.get (R.GC_STATUS g) F.GC_STATUS_REASON = (if s.checkRange r false (s.descAt g x.fetch) 128 = .ok then 4 else 5) ∧
        (∃ e : Event, e.code = 0x2233 ∧ (if s.checkRange r false (s.descAt g x.fetch) 128 = .ok then t.events = s.events ++ [e]
          else ∃ b : Event, t.events = s.events ++ [b, e] ∧
            s.checkRange r false (s.descAt g x.fetch) 128 = .busError (b.code / 256 % 16))) ∧
        t = { s with regs := t.regs, events := t.events }))) ∧
  (∀ (s : State) (g : Fin 4096) (x : Group) (i n : Nat) (d : GDesc) (rest : List (Nat × GDesc)), s.grp g = some x → x.fetched = (i, d) :: rest →
    (s.get (R.GC_QCTL g) F.GC_QCTL_TPOLL = n → d.trig ≠ 0 → x.polledAt + 16 * (if n = 0 then 256 else n) * 3 ≤ s.now →
      s.checkRange (.hdma ⟨s.gCanton g % 8, Nat.mod_lt _ (by decide)⟩) false d.trig 8 = .ok →
      Yields (exec (.triggerPoll g) s) (fun t => t.grp g = some { x with polledAt := s.now, fired := decide (d.tthresh ≤ s.num d.trig 8) } ∧
        t = { s with groups := t.groups })) ∧
    ((s.gState g = 1 ∨ s.gState g = 2) → s.takesWork (s.gCanton g) = true → x.ops.length < s.get (R.GC_CFG g) F.GC_CFG_OUTS + 1 →
      (d.trig = 0 ∨ x.fired = true) →
      (d.op ≠ 6 → Yields (exec (.operationStart g) s) (fun t => t.gState g = 2 ∧
        (∃ (y : Group) (o : GOp), t.grp g = some y ∧ y.fetched = rest ∧ y.ops.map (fun p => p.d) = x.ops.map (fun p => p.d) ++ [d] ∧ o ∈ y.ops ∧
          o.idx = i ∧ o.d = d ∧ y.fired = false) ∧
        ((d.op = 5 → ∀ p ∈ (ringOf x 6).waiting, p.opseq ≠ d.opseq) → SameMem s t ∧ t.events = s.events))) ∧
      (d.op = 6 → (∀ o ∈ x.ops, o.d.opseq ≠ d.opseq) →
        ((∀ k, s.placeOf (s.descAt g i + 80) ≠ .dram k) → Yields (exec (.operationStart g) s) (fun t =>
          ∃ y : Group, t.grp g = some y ∧ y.fetched = rest ∧ y.ops.map (fun p => p.d) = x.ops.map (fun p => p.d) ∧ i ∈ y.finished)) ∧
        ((∃ k, s.placeOf (s.descAt g i + 80) = .dram k) → (s.channelOf (s.descAt g i + 80)).isSome = true →
          Yields (exec (.operationStart g) s) (fun t => SameMem s t ∧ ∃ y : Group, t.grp g = some y ∧ y.fetched = rest ∧
            ∃ o ∈ y.ops, o.idx = i ∧ o.d = d ∧ o.closing.isSome = true))))) ∧
  (∀ (s u : State) (g : Fin 4096) (opseq : BitVec 16) (x : Group) (o : GOp), s.lagSync g = u → u.grp g = some x →
    x.ops.find? (fun p => p.d.opseq == opseq.toNat) = some o →
    (u.opDone g x o = true → o.closing = none → (∃ k, u.placeOf (u.descAt g o.idx + 80) = .dram k) →
      (u.channelOf (u.descAt g o.idx + 80)).isSome = true →
      Yields (exec (.operationComplete g opseq) s) (fun t => SameMem u t ∧
        ∃ y : Group, t.grp g = some y ∧ ∃ p ∈ y.ops, p.d = o.d ∧ p.closing.isSome = true)) ∧
    (∀ id : Nat, u.opDone g x o = true → o.closing = some id → u.reqWaits id = false →
      (o.d.done ≠ 0 → ∃ d j, u.placeOf o.d.done = .cd d j ∧ (u.cd (fin40 d)).coversWindow j 8 = false ∧ u.poisoned o.d.done 8 = false) →
      Yields (exec (.operationComplete g opseq) s) (fun t =>
        (∃ y : Group, t.grp g = some y ∧ (∀ p ∈ y.ops, p.d.opseq ≠ opseq.toNat) ∧ o.idx ∈ y.finished) ∧
        (if o.d.done = 0 then SameMem u t
          else t.num o.d.done 8 = (u.num o.d.done 8 + o.d.doneinc) % 2 ^ 64 ∧ MemOutside o.d.done 8 u t))) ∧
    (u.opDone g x o = false → exec (.operationComplete g opseq) s = .next u)) ∧
  (∀ (s u : State) (g : Fin 4096) (x : Group), s.lagSync g = u → u.grp g = some x → x.ops ≠ [] → u.patience g ≠ 0 →
    x.progressAt + u.patience g ≤ u.now → u.gState g < 3 →
    Yields (exec (.groupStall g) s) (fun t => t.gState g = 3 ∧
      t.get (R.GC_STATUS g) F.GC_STATUS_REASON = (if x.rings.toList.any (fun r => r.noctx.isSome) then 2 else 1) ∧
      t.rd (R.GC_STALL g) = u.rd (R.GC_SLOWEST g) ∧ (∃ e : Event, t.events = u.events ++ [e] ∧ e.code = 0x2232) ∧
      (∀ d : Fin 40, u.colCanton (d.val % 8) = u.gCanton g → (t.cd d).coreIrq = true) ∧
      OnlyRegs [R.GC_STATUS g, R.GC_STALL g] u t ∧ SameMem u t)) ∧
  (∀ (s : State) (g : Fin 4096) (x : Group) (opseqs : List Nat), s.grp g = some x →
    ((∀ q ∈ opseqs, q ∈ x.aborted) → exec (.abortMessageReceive g opseqs) s = .next s) ∧
    ((∃ q ∈ opseqs, q ∉ x.aborted) → Yields (exec (.abortMessageReceive g opseqs) s) (fun t => t.gState g = 4 ∧
      (∃ e ∈ t.events, e.code = 0x2234) ∧ ∃ y : Group, t.grp g = some y ∧ ∀ q ∈ opseqs, q ∉ x.aborted → q ∈ y.aborted ∧ q ∉ y.running))) ∧
  (∀ (s : State) (k : Fin 8) (l : Fin 6), Yields (exec (.clCounterClear k l) s) (fun t => t.get (R.CL_BUSY l k) F.CL_BUSY_PEAK = 0 ∧
    t.get (R.CL_BUSY l k) F.CL_BUSY_NOW = s.get (R.CL_BUSY l k) F.CL_BUSY_NOW ∧
    t.get64 (R.CL_PERF_PIECES_LO l k) (R.CL_PERF_PIECES_HI l k) = 0 ∧ t.rd (R.CL_PERF_DUPS l k) = 0 ∧
    OnlyRegs [R.CL_BUSY l k, R.CL_PERF_PIECES_LO l k, R.CL_PERF_PIECES_HI l k, R.CL_PERF_DUPS l k] s t ∧
    t = { s with regs := t.regs, cleared := t.cleared }))

/-- Pieces are taken in order once, combined with the local value, passed on, acknowledged, and late members are named
(rests on R314, R316, R317, R319, R320, R321, R327). A piece for a FREE context is answered NOCTX; one of another job
or canton raises 0x2437 and is not kept; one already received is not kept; the expected one, agreeing with its
descriptor, waits in a slot. Pieces owed one bring a cumulative acknowledgement, which frees the sender's pieces; a
piece refused with NOCTX is noted and offered again after 1 microsecond. On a RING1 ring a member that starts a part
sends its own values to the next member; its home adds the incoming values to its own and, without a gather leg,
writes the sums at the destination and nothing else; a gathered piece is written there too. A member that waits too
long sends beacons on the rings it holds up; a beacon received is kept for its ring. -/
def Obligations.PiecesAreCombinedNumberedAndAcknowledged : Prop :=
(∀ (s : State) (k : Fin 8) (u : Fin 7) (p : Piece) (g : Nat), p.grp % 4096 = g →
    (s.grp g = none → Yields (exec (.pieceReceive k u p) s) (fun t =>
      t.outbox = s.outbox ++ [GMsg.noctx (s.prevModule g (s.shape g) u) g u p.psn] ∧ t.groups = s.groups ∧ t.regs = s.regs ∧ SameMem s t)) ∧
    (∀ x : Group, s.grp g = some x →
      ((p.job ≠ (s.rd (R.GC_JOB g)).toNat ∨ s.gCanton g ≠ k.val) → Yields (exec (.pieceReceive k u p) s) (fun t =>
        (∃ e : Event, t.events = s.events ++ [e] ∧ e.code = 0x2437) ∧ t.groups = s.groups ∧ t.regs = s.regs ∧ SameMem s t)) ∧
      (p.job = (s.rd (R.GC_JOB g)).toNat → s.gCanton g = k.val → u ≠ 6 →
        (2 ^ 31 ≤ (p.psn + 2 ^ 32 - (ringOf x u).expect) % 2 ^ 32 → Yields (exec (.pieceReceive k u p) s) (fun t =>
          ∃ y : Group, t.grp g = some y ∧ y.rings = x.rings)) ∧
        (p.psn = (ringOf x u).expect → p.psn < 2 ^ 32 → s.flag (R.GC_STATUS g) F.GC_STATUS_STAGED = false →
          (ringOf x u).waiting.length + (ringOf x u).unacked.length < s.get (R.GC_SLOT g) F.GC_SLOT_NSLOT →
          (∀ o ∈ x.ops, o.d.opseq = p.opseq → o.d.opb = p.opb ∧ o.d.len = p.len) →
          (∀ q ∈ x.fetched, q.2.opseq = p.opseq → q.2.opb = p.opb ∧ q.2.len = p.len) → p.opseq ∉ x.aborted →
          Yields (exec (.pieceReceive k u p) s) (fun t => (∃ y : Group, t.grp g = some y ∧
            (ringOf y u) = { (ringOf x u) with waiting := (ringOf x u).waiting ++ [p], expect := ((ringOf x u).expect + 1) % 2 ^ 32, owed := (ringOf x u).owed + 1, owedAt := if (ringOf x u).owed = 0 then s.now else (ringOf x u).owedAt } ∧
            ∀ v : Fin 7, v ≠ u → (ringOf y v) = (ringOf x v)) ∧ SameMem s t ∧ t.events = s.events))))) ∧
  (∀ (s : State) (g : Fin 4096) (u : Fin 7) (x : Group), s.grp g = some x →
    ((ringOf x u).owed ≠ 0 →
      Yields (exec (.pieceAckSend g u) s) (fun t =>
        t.outbox = s.outbox ++ [GMsg.ack (s.prevModule g (s.shape g) u) g u (((ringOf x u).expect + 2 ^ 32 - 1) % 2 ^ 32)] ∧
        t.grp g = some { x with rings := x.rings.set u { (ringOf x u) with owed := 0 } } ∧ t = { s with groups := t.groups, outbox := t.outbox })) ∧
    (∀ (psn : BitVec 32) (member : Nat), u ≠ 6 → Yields (exec (.pieceAck g u member psn) s) (fun t => SameMem s t ∧ ∃ y : Group, t.grp g = some y ∧
      (ringOf y u).unacked = (ringOf x u).unacked.filter (fun (p : Nat × Piece) => !decide ((psn.toNat + 2 ^ 32 - p.2.psn) % 2 ^ 32 < 2 ^ 31)) ∧
      ∀ v : Fin 7, v ≠ u → (ringOf y v) = (ringOf x v))) ∧
    (∀ (psn : BitVec 32) (p : Nat × Piece), (ringOf x u).unacked.find? (fun (p : Nat × Piece) => p.2.psn == psn.toNat) = some p →
      ((ringOf x u).noctx ≠ some psn.toNat ∨ (ringOf x u).offeredAt + ticksPerUs ≤ s.now) →
      Yields (exec (.noctxRetry g u psn) s) (fun t => (∃ y : Group, t.grp g = some y ∧ (ringOf y u).noctx = some psn.toNat ∧ (ringOf y u).offeredAt = s.now) ∧
        t.outbox = s.outbox ++ (if (ringOf x u).noctx = some psn.toNat then [GMsg.piece p.1 p.2] else []) ∧ SameMem s t))) ∧
  (∀ (s v : State) (g : Fin 4096) (u : Fin 7) (opseq : BitVec 16) (x : Group) (o : GOp) (h : GShape) (off len home : Nat) (minus : Bool),
    s.lagSync g = v → v.grp g = some x → x.ops.find? (fun (q : GOp) => q.d.opseq == opseq.toNat) = some o → v.shape g = h → h.axis = false → 1 < h.n →
    u.val < 2 → minus = (u.val == 1) → sliceRuns off len (o.d.partRuns h 0 minus off) = [(off, len)] → 0 < len → len ≤ 4096 →
    len % o.d.width = 0 → o.d.copies = false → o.combinedAt u off = false → o.earlierDone (o.d.partRuns h 0 minus off) u off = true →
    o.d.sk = 0 → v.reachable g false (o.d.src + off) len = true →
    o.d.homeCoord h 0 off = home → h.me < h.n → home < h.n →
    (h.me = (home + (if minus then h.n - 1 else 1)) % h.n → v.slotsFull g x u = false →
      Yields (exec (.pieceCombine g opseq false u off len) s) (fun t => SameMem v t ∧
        ∃ p : Piece, t.outbox = v.outbox ++ [GMsg.piece (v.nextModule g h u) p] ∧ p.data = o.d.toBytes (o.d.toCodes (v.bytes (o.d.src + off) len)) ∧
          p.offset = off ∧ p.opseq = o.d.opseq ∧ p.gather = false ∧ p.minus = minus ∧ p.psn = (ringOf x u).next)) ∧
    (∀ (q : Piece) (d j : Nat), h.me = home →
      (ringOf x u).waiting.find? (fun (p : Piece) => !p.gather && p.opseq == o.d.opseq && p.offset == off && p.data.length == len) = some q →
      q.poison = false → v.badRead (o.d.src + off) len = false → o.d.op = 1 → o.d.dk = 0 → v.flag (R.GC_STATUS g) F.GC_STATUS_STAGED = false →
      v.reachable g true (o.d.dst + o.d.destOff h off) len = true → v.placeOf (o.d.dst + o.d.destOff h off) = .cd d j →
      (v.cd (fin40 d)).coversWindow j len = false → v.poisoned (o.d.dst + o.d.destOff h off) len = false →
      Yields (exec (.pieceCombine g opseq false u off len) s) (fun t =>
        t.bytes (o.d.dst + o.d.destOff h off) len = o.d.toBytes (List.zipWith (fun a b => (foldOp o.d.red a b).1)
          (o.d.toCodes (v.bytes (o.d.src + off) len)) (o.d.toCodes q.data)) ∧
        MemOutside (o.d.dst + o.d.destOff h off) len v t ∧ t.outbox = v.outbox ∧
        ∃ y : Group, t.grp g = some y ∧ (ringOf y u).waiting = (ringOf x u).waiting.erase q))) ∧
  (∀ (s v : State) (g : Fin 4096) (u : Fin 7) (opseq : BitVec 16) (x : Group) (o : GOp) (h : GShape) (off len d j : Nat) (p : Piece),
    s.lagSync g = v → v.grp g = some x → x.ops.find? (fun (q : GOp) => q.d.opseq == opseq.toNat) = some o → v.shape g = h → u.val < 6 →
    (o.d.sk = 2 → ∀ q ∈ v.feeding g o.d.opseq, q.2.len * 64 = o.d.drainBytes) →
    (ringOf x u).waiting.find? (fun (p : Piece) => p.gather && p.opseq == o.d.opseq && p.offset == off && p.data.length == len) = some p →
    sliceRuns off len (o.d.partRuns h (u.val / 2) p.minus off) = [(off, len)] → p.poison = false → o.d.dk = 0 →
    v.reachable g true (o.d.dst + o.d.destOff h off) len = true → v.placeOf (o.d.dst + o.d.destOff h off) = .cd d j →
    (v.cd (fin40 d)).coversWindow j len = false → v.poisoned (o.d.dst + o.d.destOff h off) len = false →
    Yields (exec (.pieceCombine g opseq true u off len) s) (fun t => t.bytes (o.d.dst + o.d.destOff h off) len = p.data ∧
      MemOutside (o.d.dst + o.d.destOff h off) len v t)) ∧
  (∀ (s v : State) (g : Fin 4096) (x : Group), s.lagSync g = v → v.grp g = some x →
    (v.patience g ≠ 0 → x.progressAt + v.patience g / 8 < v.now →
      Yields (exec (.beaconSend g) s) (fun t => t = { v with groups := t.groups, outbox := t.outbox } ∧
        ∀ u ∈ (v.beaconRings g x).1, (ringOf x u).beaconAt + v.patience g / 8 ≤ v.now →
          GMsg.beacon (v.nextModule g (v.shape g) u) g (v.beaconRings g x).2 (v.get (R.GC_SLOWEST g) F.GC_SLOWEST_MODULE) ∈ t.outbox)) ∧
    (∀ (u : Fin 6) (opseq : BitVec 16) (named : BitVec 17), x.ops = [] →
      Yields (exec (.beaconReceive g u opseq named) s) (fun t => t.outbox = v.outbox ∧ SameMem v t ∧
        ∃ y : Group, t.grp g = some y ∧ (y.rings[u.val]'(by omega)).beacon = some named.toNat)))

/-- A control codeword reports every plane once per period; one received releases what it acknowledges (rests on R337,
R340, R345). On a port that is UP, once a control period has passed, CONTROL_CODEWORD_SEND sends a codeword with the
next CSEQ with its tag, whose plane records give ACK (one below the lowest SEQ not received), the credits to return
and the epoch bits due, and clears what it reported; before that nothing happens. CONTROL_CODEWORD_RECEIVE under a
control key: where the tag fails, the failure is counted and 0x2449 raised, the fourth in succession starting a
training, and no plane is changed before that; where it holds and the records carry no NAK and no epoch bit, each
configured plane's replay buffer keeps exactly the packets above ACK, its credits grow by the credits returned, and no
event is raised. The key derivations and tags are opaque. -/
def Obligations.ControlCodewordsAcknowledgeAndReturn : Prop :=
(∀ (s : State) (l : Fin 6), s.portState l = 2 →
    ((s.port l).ctlAt + s.ctlPeriod l ≤ s.now →
      Yields (exec (.controlCodewordSend l) s) (fun t =>
        (∃ c, (t.port l).ctl = some (c, ctlTag ((s.port l).control.getD []) (s.ownPort l 0) c) ∧ c.cseq = (s.port l).cseq ∧ c.planes.length = 8 ∧
          ∀ k : Fin 8, ∃ r, c.planes[k.val]? = some r ∧ r.ack = ((s.plane l k).next + 2 ^ 64 - 1) % 2 ^ 64 ∧
            r.cred = (s.plane l k).returns.toList ∧ r.retire = (s.plane l k).retire ∧ r.force = (s.plane l k).force ∧
            r.forceAck = (s.plane l k).answer) ∧
        (t.port l).cseq = (s.port l).cseq + 1 ∧ (t.port l).ctlAt = s.now ∧
        (∀ k : Fin 8, t.plane l k = { s.plane l k with returns := Vector.replicate 6 0, retire := false, force := false, answer := false }) ∧
        (∀ m : Fin 6, m ≠ l → t.port m = s.port m) ∧ t = { s with ports := t.ports })) ∧
    (s.now < (s.port l).ctlAt + s.ctlPeriod l → exec (.controlCodewordSend l) s = .next s)) ∧
  (∀ (s : State) (l : Fin 6) (c : CtlWord) (tag key : List Byte), s.portState l = 2 → (s.port l).control = some key →
    Yields (exec (.controlCodewordReceive l c tag) s) (fun t =>
      (tag ≠ ctlTag key (s.nbrPort l 0) c →
        (∃ e : Event, t.events = s.events ++ [e] ∧ e.code = 0x2449 ∧ e.die = 56 + l.val) ∧
        (s.countsStand (R.LK_CNT_CTL l) = false →
          (s.port l).ctlFails + 1 ≠ 4 → t.get (R.LK_CTLFAIL l) (31, 0) = satN (2 ^ 32 - 1) (s.get (R.LK_CTLFAIL l) (31, 0) + 1)) ∧
        ((s.port l).ctlFails + 1 ≠ 4 → (t.port l).ctlFails = (s.port l).ctlFails + 1 ∧ ∀ k : Fin 8, t.plane l k = s.plane l k) ∧
        ((s.port l).ctlFails + 1 = 4 → t.portState l = if s.flag (R.LK_CFG l) F.LK_CFG_EN then 1 else 3)) ∧
      (tag = ctlTag key (s.nbrPort l 0) c →
        (∀ r ∈ c.planes, r.naks = [] ∧ r.retire = false ∧ r.force = false ∧ r.forceAck = false) →
        t.events = s.events ∧ (t.port l).ctlFails = 0 ∧
        ∀ (k : Fin 8) (r : PlaneRec), k.val < s.cantons → c.planes[k.val]? = some r →
          (t.plane l k).replay = (s.plane l k).replay.filter (fun q => decide ((r.ack + 1) % 2 ^ 64 ≤ q.p.seq)) ∧
          ∀ i : Fin 6, (t.plane l k).credits[i] = (s.plane l k).credits[i] + r.cred.getD i 0)))

/-- A packet of a good unit is delivered in order and once; a bad unit, a duplicate or a failed tag delivers nothing
(rests on R339, R341, R345, R346, R355, R357, R361). On an UP port and a configured plane: a packet with a unit that
failed its CRC, or with an uncorrectable codeword, is lost: errors are counted and nothing else changes. For a packet
of good units under an epoch key held: where the tag fails nothing is delivered, the SEQ takes one more tag failure
and stays unreceived, and the fourth failure of that SEQ restarts the session; where it opens, a SEQ already delivered
only counts as a duplicate, and the next SEQ of a plane with nothing held or passed is delivered: into the fabric
where its destination is this module, with its units due back as credits, the plane then expecting the following SEQ.
The cipher is opaque. -/
def Obligations.TorusPacketsArriveOnceInOrder : Prop :=
∀ (s : State) (l : Fin 6) (k : Fin 8) (p : TorusPacket) (a : Arrival) (x : LinkPlane), s.portState l = 2 → k.val < s.cantons →
    s.plane l k = x →
    ((0 < a.crcErr ∨ 0 < a.uncorrectable) →
      Yields (exec (.torusPacketReceive l k p a) s) (fun t => t = { s with regs := t.regs } ∧
        OnlyRegs [R.LK_FEC_CORR_LO l, R.LK_FEC_CORR_HI l, R.LK_FEC_UNC l, R.LK_CRCERR l] s t ∧
        (s.countsStand (R.LK_CNT_CTL l) = false →
          t.get (R.LK_CRCERR l) (31, 0) = satN (2 ^ 32 - 1) (s.get (R.LK_CRCERR l) (31, 0) + a.crcErr)))) ∧
    (∀ key, a.crcErr = 0 → a.uncorrectable = 0 → a.aborted = false → keyOf x.rxKeys p.epoch = some key →
      Yields (exec (.torusPacketReceive l k p a) s) (fun t =>
        (gcmOpen key (torusNonce p.epoch p.seq (s.nbrPort l k)) (torusHeader p) p.text = none →
          t.arrived = s.arrived ∧ (∀ m : Fin 6, (t.port m).queue = (s.port m).queue) ∧
          ((x.tagFails.find? (fun f => f.1 == p.seq)) = none →
            (p.seq, 1) ∈ (t.plane l k).tagFails ∧ (t.plane l k).next = x.next ∧ p.seq < (t.plane l k).top) ∧
          (x.tagFails.find? (fun f => f.1 == p.seq) = some (p.seq, 3) →
            t.portState l = (if s.flag (R.LK_CFG l) F.LK_CFG_EN then 1 else 3) ∧ ∃ e ∈ t.events, e.code = 0x2448 ∧ e.die = 56 + l.val)) ∧
        (∀ content, gcmOpen key (torusNonce p.epoch p.seq (s.nbrPort l k)) (torusHeader p) p.text = some content → x.skip = false →
          (p.seq < x.next → t.arrived = s.arrived ∧ t.ports = s.ports ∧ t.events = s.events ∧
            (s.countsStand (R.LK_CNT_CTL l) = false →
              t.get (R.LK_DUPS l) (31, 0) = satN (2 ^ 32 - 1) (s.get (R.LK_DUPS l) (31, 0) + 1))) ∧
          (p.seq = x.next → x.held = [] → x.passed = [] → s.outPort p.dst = none →
            t.arrived = s.arrived ++ [⟨l, k, p.tc, p.dl, p.dst, p.ddie, content, s.now⟩] ∧ t.events = s.events ∧
            (t.plane l k).next = x.next + 1 ∧ (t.plane l k).held = [] ∧ (t.plane l k).passed = [] ∧
            (t.plane l k).returns[fin6 (2 * p.tc + if p.dl then 1 else 0)] =
              x.returns[fin6 (2 * p.tc + if p.dl then 1 else 0)] + 1 + (content.length - 32 + 63) / 64))))

/-- Trainings, failures and cables move a port between TRAIN, UP and DOWN, and a lost session leaves no key (rests on
R336, R349, R350, R351, R352, R536). A retraining of a port in use ends its session: the port is in TRAIN (DOWN while
LK_CFG.EN is 0), no key, no packet of a replay buffer and no sequence number is left, and the discarded packets are
counted. A training with every lane, the right neighbour and an agreed secret brings the port UP at width 16 with
fresh epoch-0 keys and empty buffers; one without a whole half of lanes takes the port down with 0x2243 and it
retrains; one with a wrong neighbour (0x2245) or without agreement (0x244A) leaves it DOWN, to be retried 1 s later; a
retry that is due trains again. An UP port that loses lock, or whose cable is pulled, sets DOWNSEEN, raises 0x2243 and
retrains; a lost lane is taken out of use, and takes the port down only where no whole half is left. A cable put into
an enabled port starts a training. -/
def Obligations.PortsTrainGoDownAndRetry : Prop :=
∀ (s : State) (l : Fin 6),
    (s.portState l ≠ 0 → Yields (exec (.linkRetrain l) s) (fun t =>
      t.portState l = (if s.flag (R.LK_CFG l) F.LK_CFG_EN then 1 else 3) ∧ (t.port l).control = none ∧ (t.port l).cseq = 0 ∧
      (∀ k : Fin 8, t.plane l k = { LinkPlane.reset with dropped := (s.plane l k).dropped } ∧ t.rd (R.LK_EPOCH l k) = 0 ∧
        t.get64 (R.LK_SEQ_LO l k) (R.LK_SEQ_HI l k) = 0) ∧
      (s.countsStand (R.LK_CNT_CTL l) = false → t.get (R.LK_DROP l) (31, 0) = satN (2 ^ 32 - 1)
        (s.get (R.LK_DROP l) (31, 0) + (allPlanes.map (fun k => (s.plane l k).replay.length + (s.plane l k).held.length)).sum)) ∧
      (∀ m : Fin 6, m ≠ l → t.port m = s.port m) ∧ t = { s with regs := t.regs, ports := t.ports })) ∧
    (∀ r : TrainResult, s.portState l = 1 →
      (r.lanes = 0xFFFF → r.module_.toNat = s.facing l → r.port.val = l.val ^^^ 1 →
        r.shape.val = s.get R.ARCH_CFG F.ARCH_CFG_CANTON_LOG2 → r.agreed = true → s.groups = [] →
        Yields (exec (.linkTrainComplete l r) s) (fun t => t.portState l = 2 ∧ t.flag (R.LK_STATUS l) F.LK_STATUS_WIDTH8 = false ∧
          t.get (R.LK_LANES l) F.LK_LANES_ACTIVE = 0xFFFF ∧ (t.port l).control = some (linkKey r.secret "LINK-CONTROL" 0) ∧
          (∀ k : Fin 8, k.val < s.cantons → (t.plane l k).txKeys = [(0, linkKey r.secret "LINK-EPOCH-0" k)] ∧
            (t.plane l k).next = 0 ∧ (t.plane l k).replay = [] ∧ t.get (R.LK_EPOCH l k) F.LK_EPOCH_TXEP = 0) ∧
          t = { s with regs := t.regs, ports := t.ports })) ∧
      (r.lanes.toNat &&& 0xFF ≠ 0xFF → r.lanes.toNat &&& 0xFF00 ≠ 0xFF00 →
        Yields (exec (.linkTrainComplete l r) s) (fun t => t.portState l = (if s.flag (R.LK_CFG l) F.LK_CFG_EN then 1 else 3) ∧
          t.flag (R.LK_STATUS l) F.LK_STATUS_DOWNSEEN = true ∧ t.get (R.LK_LANES l) F.LK_LANES_ACTIVE = 0 ∧ ∃ e : Event, t.events = s.events ++ [e] ∧ e.code = 0x2243 ∧ e.die = 56 + l.val)) ∧
      (r.lanes = 0xFFFF → (r.module_.toNat ≠ s.facing l ∨ r.port.val ≠ l.val ^^^ 1 ∨
          r.shape.val ≠ s.get R.ARCH_CFG F.ARCH_CFG_CANTON_LOG2) →
        Yields (exec (.linkTrainComplete l r) s) (fun t => t.portState l = 3 ∧ (t.port l).retryAt = some (s.now + secTicks) ∧
          ∃ e : Event, t.events = s.events ++ [e] ∧ e.code = 0x2245 ∧ e.die = 56 + l.val)) ∧
      (r.lanes = 0xFFFF → r.module_.toNat = s.facing l → r.port.val = l.val ^^^ 1 →
        r.shape.val = s.get R.ARCH_CFG F.ARCH_CFG_CANTON_LOG2 → r.agreed = false →
        Yields (exec (.linkTrainComplete l r) s) (fun t => t.portState l = 3 ∧ (t.port l).retryAt = some (s.now + secTicks) ∧
          ∃ e : Event, t.events = s.events ++ [e] ∧ e.code = 0x244A ∧ e.die = 56 + l.val))) ∧
    (∀ u, (s.port l).retryAt = some u → s.portState l = 3 → u ≤ s.now → s.flag (R.LK_CFG l) F.LK_CFG_EN = true →
      Yields (exec (.linkTrainRetry l) s) (fun t => t.portState l = 1 ∧ (t.port l).retryAt = none)) ∧
    (s.portState l = 2 →
      (∀ c : Instr, (c = .linkDown l .lock ∨ c = .cableRemove l) →
        Yields (exec c s) (fun t => t.portState l = (if s.flag (R.LK_CFG l) F.LK_CFG_EN then 1 else 3) ∧
          t.flag (R.LK_STATUS l) F.LK_STATUS_DOWNSEEN = true ∧ (t.port l).control = none ∧ (t.port l).downAt = s.now ∧
          ∃ e : Event, t.events = s.events ++ [e] ∧ e.code = 0x2243 ∧ e.die = 56 + l.val)) ∧
      (∀ n : Fin 16, Yields (exec (.linkDown l (.lane n)) s) (fun t =>
        t.get (R.LK_LANES l) F.LK_LANES_ACTIVE = s.get (R.LK_LANES l) F.LK_LANES_ACTIVE &&& (0xFFFF - 2 ^ n.val) ∧
        t.portState l = (if s.flag (R.LK_CFG l) F.LK_CFG_EN then 1 else 3) ∧
        (if [0, 1].any (fun h => t.get (R.LK_LANES l) F.LK_LANES_ACTIVE &&& halfMask h == halfMask h) then t.events = s.events
          else ∃ e : Event, t.events = s.events ++ [e] ∧ e.code = 0x2243)))) ∧
    (s.portState l ≠ 0 → (s.port l).cable = false → s.flag (R.LK_CFG l) F.LK_CFG_EN = true →
      Yields (exec (.cableInsert l) s) (fun t => t.portState l = 1 ∧ (t.port l).cable = true ∧ t.events = s.events))

/-- An epoch change derives the next key and keeps the old, a forced rekey destroys it; old packets and counters go
(rests on R352, R358, R359, R360, R369). On an UP port and a configured plane with no retirement under way, once 2^32
packets or the rekey period have passed, EPOCH_CHANGE moves the sender to the next epoch (modulo 256) under the key
derived from the present one, keeps the present key while packets of its epoch are unacknowledged, and counts the
rekey. FORCED_REKEY by the trust die moves each plane named to its next epoch, keeps no older key, discards the replay
buffer and asks for FORCE. At a port that is not UP the packets of a plane that have waited the hold time are
discarded, the others kept, with 0x2246 the first time. A clear sets every link counter of the port to 0 and changes
nothing else. -/
def Obligations.EpochsAdvanceAndDownPortsDiscard : Prop :=
∀ (s : State) (l : Fin 6) (k : Fin 8),
    (∀ (key : List Byte) (rest : List (Nat × List Byte)) (ep : Nat), s.portState l = 2 → k.val < s.cantons →
      s.flag (R.LK_EPOCH l k) F.LK_EPOCH_RETIRING = false → (s.plane l k).retire = false →
      s.get (R.LK_EPOCH l k) F.LK_EPOCH_TXEP = ep → (s.plane l k).txKeys = (ep, key) :: rest →
      (2 ^ 32 ≤ (s.plane l k).sent ∨ (s.get (R.LK_REKEY_CFG l) F.LK_REKEY_CFG_MS ≠ 0 ∧
        (s.plane l k).epochAt + s.get (R.LK_REKEY_CFG l) F.LK_REKEY_CFG_MS * msTicks ≤ s.now)) →
      Yields (exec (.epochChange l k) s) (fun t =>
        t.get (R.LK_EPOCH l k) F.LK_EPOCH_TXEP = (ep + 1) % 256 ∧
        keyOf (t.plane l k).txKeys ((ep + 1) % 256) = some (nextEpochKey key k ((ep + 1) % 256)) ∧
        (t.plane l k).sent = 0 ∧ (t.plane l k).epochAt = s.now ∧ (t.plane l k).replay = (s.plane l k).replay ∧
        ((∃ r ∈ (s.plane l k).replay, r.p.epoch = ep) →
          keyOf (t.plane l k).txKeys ep = some key ∧ t.flag (R.LK_EPOCH l k) F.LK_EPOCH_RETIRING = true) ∧
        ((s.plane l k).replay = [] → (t.plane l k).retire = true ∧ keyOf (t.plane l k).txKeys ep = none ∧
          t.flag (R.LK_EPOCH l k) F.LK_EPOCH_RETIRING = false) ∧
        (s.countsStand (R.LK_CNT_CTL l) = false →
          t.get (R.LK_REKEYS l) (31, 0) = satN (2 ^ 32 - 1) (s.get (R.LK_REKEYS l) (31, 0) + 1)))) ∧
    (∀ (planes : BitVec 8), s.portState l = 2 → k.val < s.cantons →
      Yields (exec (.forcedRekey .td l planes) s) (fun t =>
        (planes.getLsbD k.val = true →
          t.get (R.LK_EPOCH l k) F.LK_EPOCH_TXEP = (s.get (R.LK_EPOCH l k) F.LK_EPOCH_TXEP + 1) % 256 ∧
          (t.plane l k).txKeys.length = 1 ∧ (t.plane l k).replay = [] ∧ (t.plane l k).force = true ∧ (t.plane l k).forcing = true) ∧
        (planes.getLsbD k.val = false → t.plane l k = s.plane l k ∧ t.rd (R.LK_EPOCH l k) = s.rd (R.LK_EPOCH l k)) ∧
        t = { s with regs := t.regs, ports := t.ports })) ∧
    (∀ (old : List TPacket), (s.portState l = 1 ∨ s.portState l = 3) → old ≠ [] →
      (s.port l).queue.filter (fun q => q.plane == k.val && decide (max q.since (s.port l).downAt +
        s.get (R.LK_CFG l) F.LK_CFG_HOLDMS * msTicks ≤ s.now)) = old →
      Yields (exec (.downPortHoldExpire l k) s) (fun t =>
        (∀ q, q ∈ (t.port l).queue ↔ q ∈ (s.port l).queue ∧ q ∉ old) ∧ (t.plane l k).dropped = true ∧
        (s.countsStand (R.LK_CNT_CTL l) = false →
          t.get (R.LK_DROP l) (31, 0) = satN (2 ^ 32 - 1) (s.get (R.LK_DROP l) (31, 0) + old.length)) ∧
        (if (s.plane l k).dropped then t.events = s.events else ∃ e : Event, t.events = s.events ++ [e] ∧ e.code = 0x2246 ∧ e.die = 56 + l.val))) ∧
    Yields (exec (.linkCounterClear l) s) (fun t =>
      (∀ a ∈ [R.LK_FEC_CORR_LO l, R.LK_FEC_CORR_HI l, R.LK_FEC_UNC l, R.LK_CRCERR l, R.LK_RETX l, R.LK_DUPS l, R.LK_TAGFAIL l,
        R.LK_CTLFAIL l, R.LK_REKEYS l, R.LK_DROP l, R.LK_REVOKE l, R.LK_TC2WAIT l, R.LK_STALE l], t.rd a = 0) ∧
      OnlyRegs [R.LK_FEC_CORR_LO l, R.LK_FEC_CORR_HI l, R.LK_FEC_UNC l, R.LK_CRCERR l, R.LK_RETX l, R.LK_DUPS l, R.LK_TAGFAIL l,
        R.LK_CTLFAIL l, R.LK_REKEYS l, R.LK_DROP l, R.LK_REVOKE l, R.LK_TC2WAIT l, R.LK_STALE l] s t ∧
      t = { s with regs := t.regs, cleared := t.cleared })

/-- An arbiter grants urgent packets oldest first, then in rotation; urgent revokes bulk within its budget; masks cut
off (rests on R362, R363, R364, R365, R366). At a stage that is not divided among planes, with nothing granted, in
progress or revoked: where an unmasked urgent request is present the oldest of them is granted, otherwise the unmasked
request next in rotation after the requester granted last. At a link output stage, in the slot of a plane whose bulk
transfer is in progress, a sendable urgent request within its budget revokes it (counted, the revoked packet kept),
and over its budget waits (counted) while the transfer goes on. A requester that withdrew leaves its cycle idle,
counted in LK_STALE. Masking a requester ends its grant, its transfer in progress and its revoked packet for good, and
leaves those of others; unmasking lifts the mask alone. -/
def Obligations.ArbitersServeUrgentFirst : Prop :=
(∀ (s : State) (st : ArbStage) (reqs : List ArbReq) (a : ArbState), s.arb st = a → divided st = false → a.grant = none →
    a.busy[(0 : Fin 8)] = none → a.revoked[(0 : Fin 8)] = none →
    ((∃ r ∈ reqs, r.urgent = true ∧ a.masked.contains r.requester = false) →
      Yields (exec (.arbiterDecision st reqs) s) (fun t => ∃ u ∈ reqs, (t.arb st).grant = some (u, false) ∧ u.urgent = true ∧
        a.masked.contains u.requester = false ∧
        (∀ r ∈ reqs, r.urgent = true → a.masked.contains r.requester = false → u.age ≤ r.age) ∧ t = { s with arbs := t.arbs })) ∧
    ((∀ r ∈ reqs, r.urgent = false) → (∃ r ∈ reqs, a.masked.contains r.requester = false) →
      Yields (exec (.arbiterDecision st reqs) s) (fun t => ∃ u ∈ reqs, (t.arb st).grant = some (u, false) ∧
        a.masked.contains u.requester = false ∧
        (∀ r ∈ reqs, a.masked.contains r.requester = false →
          (a.last[(0 : Fin 8)] < r.requester → a.last[(0 : Fin 8)] < u.requester ∧ u.requester ≤ r.requester) ∧
          (u.requester ≤ a.last[(0 : Fin 8)] → u.requester ≤ r.requester)) ∧ t = { s with arbs := t.arbs }))) ∧
  (∀ (s : State) (l : Fin 6) (reqs : List ArbReq) (a : ArbState) (p : Fin 8) (r : ArbReq) (n : Nat), s.arb (.link l) = a →
    a.grant = none → p.val = a.slot % s.cantons → a.busy[p] = some (r, n) → r.urgent = false →
    (∃ u ∈ reqs, u.urgent = true ∧ u.plane = p ∧ a.masked.contains u.requester = false ∧ s.maySend (.link l) u = true) →
    s.countsStand (R.LK_CNT_CTL l) = false →
    Yields (exec (.arbiterDecision (.link l) reqs) s) (fun t => (t.arb (.link l)).slot = a.slot + 1 ∧
      (if a.budget[p] = 0 then (t.arb (.link l)).grant = some (r, false) ∧ (t.arb (.link l)).busy[p] = some (r, n) ∧
          t.get (R.LK_TC2WAIT l) (31, 0) = satN (2 ^ 32 - 1) (s.get (R.LK_TC2WAIT l) (31, 0) + 1) ∧ OnlyRegs [R.LK_TC2WAIT l] s t
        else (t.arb (.link l)).busy[p] = none ∧ (t.arb (.link l)).revoked[p] = some { r with units := max r.units n } ∧
          t.get (R.LK_REVOKE l) (31, 0) = satN (2 ^ 32 - 1) (s.get (R.LK_REVOKE l) (31, 0) + 1) ∧ OnlyRegs [R.LK_REVOKE l] s t))) ∧
  (∀ (s : State) (l : Fin 6) (a : ArbState) (g : ArbReq), s.arb (.link l) = a → a.grant = some (g, false) → a.masked.contains g.requester = false →
    (∀ p : Fin 8, a.busy[p] = none ∧ a.revoked[p] = none) → s.countsStand (R.LK_CNT_CTL l) = false →
    Yields (exec (.arbiterDecision (.link l) []) s) (fun t => (t.arb (.link l)).grant = none ∧
      t.get (R.LK_STALE l) (31, 0) = satN (2 ^ 32 - 1) (s.get (R.LK_STALE l) (31, 0) + 1) ∧ OnlyRegs [R.LK_STALE l] s t)) ∧
  (∀ (s : State) (st : ArbStage) (q : Nat),
    Yields (exec (.requesterMaskChange st q true) s) (fun t => (t.arb st).masked.contains q = true ∧
      (t.arb st).grant = (s.arb st).grant.filter (fun g => g.1.requester != q) ∧
      (∀ p : Fin 8, (t.arb st).busy[p] = (s.arb st).busy[p].filter (fun x => x.1.requester != q) ∧
        (t.arb st).revoked[p] = (s.arb st).revoked[p].filter (fun x => x.requester != q)) ∧
      t = { s with arbs := t.arbs, regs := t.regs }) ∧
    Yields (exec (.requesterMaskChange st q false) s) (fun t => (t.arb st).masked = (s.arb st).masked.filter (fun r => r != q) ∧
      (t.arb st).grant = (s.arb st).grant ∧ t = { s with arbs := t.arbs }))

/-- A frame with a wrong header or tag does nothing but its alarm; frames leave by slot, pace and port, in sequence
(rests on R384, R385, R387, R389, R390, R391, R403). A received frame of a wrong magic, version, job or destination
site raises 0x1455 and changes nothing else; one that fails its tag changes only the site engine's counter and alarm;
an authentic one at a quantiser that does not run, or without a valid entry there, is answered with a NOTICE and
nothing else. In a slot of an UP site port the canton whose slot it is comes first: its oldest queued item that the
port and its peer's pace allow leaves with the next FSEQ of its peer, the pace moves on, and it is kept for resending
unless it is a SACK, NOTICE or PROBE; without the peer's secret it is dropped with fault 0x4. Where nothing of the
canton may leave and slots are not shared, only the slot passes. An item unacknowledged past its RTO is queued again
and counted. Owed acknowledgements go out in one SACK. A solicitation or an echo request is answered, other packets
are dropped and counted. Ports come up and go down with their event; counters are cleared on command. -/
def Obligations.SiteFramesAreAuthenticatedAndPaced : Prop :=
(∀ (s : State) (m : Fin 16) (f : SiteFrame), ∀ c ∈ [Instr.data m f, .done m f, .sack m f, .include_ m f, .corr m f, .mhead m f,
      .merge m f, .snapreq m f, .snaphead m f, .snap m f, .notice m f, .probe m f],
    ((f.magic ≠ 0x4E47 ∨ f.version ≠ 1 ∨ f.job ≠ s.jobs.getD (s.mdCanton m) 0 ∨ f.dstSite ≠ s.ownSite m) →
      Yields (exec c s) (fun t => (∃ e : Event, t.events = s.events ++ [e] ∧ e.code = 0x1455 ∧ e.die = 62) ∧ t = { s with events := t.events })) ∧
    (∀ u, s.authFrame m f = (u, none) → Yields (exec c s) (fun t => t = u ∧
      (OnlyRegs [R.SP_AUTHFAIL] s t ∧ t = { s with regs := t.regs, events := t.events, sites := t.sites })))) ∧
  (∀ (s : State) (m : Fin 16) (f : SiteFrame) (u : State) (data : List Byte), ∀ c ∈ [Instr.data m f, .done m f, .include_ m f, .corr m f, .mhead m f,
      .merge m f, .snapreq m f, .snaphead m f, .snap m f, .notice m f],
    s.authFrame m f = (u, some data) → (s.flag (R.SX_CTL m) F.SX_CTL_EN = false ∨ u.sxFind m f.sxid = none) →
    Yields (exec c s) (fun t => t = { u with sites := t.sites } ∧
      ∃ i : SxItem, t.sites.queue = u.sites.queue ++ [(m.val, i)] ∧ i.ftype = 0x0B ∧ i.aux % 256 = 4 ∧ i.site = f.srcSite ∧ i.module = f.srcModule)) ∧
  (∀ (s : State) (p : Fin 2) (k : Nat), s.flag R.SP_STATUS (upField p) = true → 0 < s.cantons → s.sites.slots[p] % s.cantons = k →
    (∀ (q : Nat × SxItem) (m : Fin 16) (z : List Byte), fin16 q.1 = m →
      s.sites.queue.find? (fun q => s.colCanton (q.1 % 8) == k && s.portFor k q.2 == p.val && s.get (R.SP_RATE k q.2.site) F.SP_RATE_GBPS != 0 &&
        decide (lookup2 s.sites.pace k q.2.site ≤ s.now)) = some q → s.pairSecret k q.2.module = some z →
      Yields (exec (.sitePortTransmitSlot p) s) (fun t => t.sites.queue = s.sites.queue.erase q ∧
        t.sites.slots = s.sites.slots.set p (s.sites.slots[p] + 1) ∧
        (∃ f, t.sites.last = some (p.val, s.siteAddress m q.2.site q.2.module p, f) ∧ f.fseq = lookup2 s.sites.fseqs m q.2.module ∧
          f.ftype = q.2.ftype ∧ f.dstSite = q.2.site ∧ f.round = q.2.round ∧ f.item = q.2.item ∧ f.aux = q.2.aux ∧ f.sxid = q.2.sxid) ∧
        lookup2 t.sites.fseqs m q.2.module = lookup2 s.sites.fseqs m q.2.module + 1 ∧
        lookup2 t.sites.sentTo m q.2.module = s.now ∧
        lookup2 t.sites.pace k q.2.site = s.now + s.wireBytes q.2.data.length * 8 * 42 / (10 * s.get (R.SP_RATE k q.2.site) F.SP_RATE_GBPS) ∧
        (t.sx m).items = (s.sx m).items ++ (if q.2.ftype = 3 ∨ q.2.ftype = 11 ∨ q.2.ftype = 12 then [] else
          [{ q.2 with fseq := lookup2 s.sites.fseqs m q.2.module, at_ := s.now, tries := q.2.tries + 1 }]) ∧ SameMem s t ∧
        OnlyRegs [R.SP_TXFR_LO, R.SP_TXFR_HI] s t)) ∧
    (∀ (q : Nat × SxItem) (m : Fin 16), fin16 q.1 = m →
      s.sites.queue.find? (fun q => s.colCanton (q.1 % 8) == k && s.portFor k q.2 == p.val && s.get (R.SP_RATE k q.2.site) F.SP_RATE_GBPS != 0 &&
        decide (lookup2 s.sites.pace k q.2.site ≤ s.now)) = some q → s.pairSecret k q.2.module = none →
      Yields (exec (.sitePortTransmitSlot p) s) (fun t => t.sites.queue = s.sites.queue.erase q ∧ t.flag (R.SX_FAULT m) F.SX_FAULT_VALID = true ∧
        OnlyRegs [R.SX_FAULT m] s t ∧ t = { s with regs := t.regs, sites := t.sites })) ∧
    (s.sites.queue.find? (fun q => s.colCanton (q.1 % 8) == k && s.portFor k q.2 == p.val && s.get (R.SP_RATE k q.2.site) F.SP_RATE_GBPS != 0 &&
        decide (lookup2 s.sites.pace k q.2.site ≤ s.now)) = none → k = 0 → s.flag (R.LK_ARB 0) F.LK_ARB_WCON = false →
      Yields (exec (.sitePortTransmitSlot p) s) (fun t => t.sites.queue = s.sites.queue ∧
        t.sites.slots = s.sites.slots.set p (s.sites.slots[p] + 1) ∧ t = { s with sites := t.sites }))) ∧
  (∀ (s : State) (m : Fin 16) (i : Nat) (it : SxItem), (s.sx m).items[i]? = some it → it.at_ + s.rto (s.mdCanton m) it.site ≤ s.now →
    Yields (exec (.frameResendTimeout m i) s) (fun t => (t.sx m).items = (s.sx m).items.eraseIdx i ∧
      t.sites.queue = s.sites.queue ++ [(m.val, it)] ∧ SameMem s t ∧ OnlyRegs [R.SP_RETX] s t ∧
      (s.countsStand R.SP_CNT_CTL = false → t.get R.SP_RETX (31, 0) = satN (2 ^ 32 - 1) (s.get R.SP_RETX (31, 0) + 1)))) ∧
  (∀ (s : State) (m : Fin 16) (site : Fin 64) (md : BitVec 17) (die : Fin 16) (k since : Nat) (seqs : List Nat),
    (s.sx m).owed.find? (fun o => o.1 == md.toNat * 16 + die.val) = some (k, since, seqs) → seqs ≠ [] →
    Yields (exec (.sackSend m site md die) s) (fun t => (∃ i : SxItem, t.sites.queue = s.sites.queue ++ [(m.val, i)] ∧ i.ftype = 3 ∧
      i.site = site.val ∧ i.module = md.toNat) ∧ (∀ o ∈ (t.sx m).owed, o.1 ≠ md.toNat * 16 + die.val) ∧
      t = { s with exch := t.exch, sites := t.sites })) ∧
  (∀ (s : State) (p : Fin 2), s.flag R.SP_STATUS (upField p) = true →
    (∀ x : SitePacket, (x = .neighbourSolicitation ∨ x = .echoRequest) →
      Yields (exec (.sitePortPacketReceive p x) s) (fun t => t.sites.answered = s.sites.answered ++ [x] ∧ t = { s with sites := t.sites })) ∧
    (∀ x : SitePacket, x ≠ .neighbourSolicitation → x ≠ .echoRequest → s.countsStand R.SP_CNT_CTL = false →
      Yields (exec (.sitePortPacketReceive p x) s) (fun t => t.get R.SP_DROP (31, 0) = satN (2 ^ 32 - 1) (s.get R.SP_DROP (31, 0) + 1) ∧
        OnlyRegs [R.SP_DROP] s t ∧ t = { s with regs := t.regs })) ∧
    Yields (exec (.sitePortLinkChange p false) s) (fun t => t.flag R.SP_STATUS (upField p) = false ∧
      t.flag R.SP_STATUS F.SP_STATUS_DOWNSEEN = true ∧ (∃ e : Event, t.events = s.events ++ [e] ∧ e.code = 0x1253 ∧ e.die = 62) ∧
      OnlyRegs [R.SP_STATUS] s t ∧ t = { s with regs := t.regs, events := t.events })) ∧
  (∀ (s : State) (p : Fin 2) (x : SitePacket), s.flag R.SP_STATUS (upField p) = false → exec (.sitePortPacketReceive p x) s = .next s) ∧
  (∀ (s : State) (p : Fin 2), s.flag R.SP_CFG (if p = 0 then F.SP_CFG_EN0 else F.SP_CFG_EN1) = true →
    Yields (exec (.sitePortLinkChange p true) s) (fun t => t.flag R.SP_STATUS (upField p) = true ∧ OnlyRegs [R.SP_STATUS] s t ∧
      t = { s with regs := t.regs })) ∧
  (∀ (s : State) (p : Fin 2) (site : Fin 64) (mtu : Nat),
    (mtu < 8448 → Yields (exec (.packetTooBig p site mtu) s) (fun t => (p.val, site.val) ∈ t.sites.badPaths ∧
      (∃ e : Event, t.events = s.events ++ [e] ∧ e.code = 0x1253) ∧ t = { s with sites := t.sites, events := t.events })) ∧
    (8448 ≤ mtu → exec (.packetTooBig p site mtu) s = .next s)) ∧
  (∀ (s : State), Yields (exec .spCounterClear s) (fun t =>
    (∀ a ∈ [R.SP_TXFR_LO, R.SP_TXFR_HI, R.SP_RXFR_LO, R.SP_RXFR_HI, R.SP_RETX, R.SP_DUPS, R.SP_AUTHFAIL, R.SP_DROP], t.rd a = 0) ∧
    OnlyRegs [R.SP_TXFR_LO, R.SP_TXFR_HI, R.SP_RXFR_LO, R.SP_RXFR_HI, R.SP_RETX, R.SP_DUPS, R.SP_AUTHFAIL, R.SP_DROP] s t ∧
    t = { s with regs := t.regs, cleared := t.cleared }))

/-- A leader stores each chunk once, admits sites by DONE, adds corrections once, and merges or gives up at its
deadlines (rests on R373, R379, R380, R381, R382, R389). For an authentic frame at the leader of the round: a DATA
chunk not yet received is stored in its site's slot, its bit set, its FSEQ owed an acknowledgement, and nothing else
in memory changes, but that the first frame of a collection clears the bitmap of received chunks; a chunk received
before changes no memory; a DONE admits its site; a correction asked for and not yet present is added word by word
modulo 2^16, once. At the data deadline: with weight of at most QUORUM/256 of the whole the round ends, IDLE, with
0x3041; with more, an OPEN round of a leader alone is merged: ROUND rises by one, STATE is APPLY, LSTATE NONE (where
the pennant and the receive bitmap lie outside the table entry). At the correction deadline the merge is formed
likewise. Before its deadline neither does anything. Acknowledged items are dropped; the end of the site-local
collective returns the entry to IDLE. -/
def Obligations.LeadersCollectAndMerge : Prop :=
(∀ (s : State) (m : Fin 16) (f : SiteFrame) (u : State) (data : List Byte) (e : SxEntry), FrameFor s u m f data e → Collects u m f e →
    data.length = e.chunkBytes → f.item < e.nchunk →
    ((u.collects m e = true → (u.recvBits e f.item).testBit f.srcSite = false) →
      Yields (exec (.data m f) s) (fun t =>
        (∀ i, i < e.chunkBytes → t.byte (u.recvSlot m e f.srcSite + e.chunkBytes * f.item + i) = data.getD i 0) ∧
        t.recvBits e f.item = (if u.collects m e then u.recvBits e f.item else 0) + 2 ^ f.srcSite ∧
        (∀ b, (if u.collects m e then b < e.recv + 8 * f.item ∨ e.recv + 8 * f.item + 8 ≤ b
            else b < e.recv ∨ e.recv + 8 * e.nchunk ≤ b) → (b < u.recvSlot m e f.srcSite + e.chunkBytes * f.item ∨
          u.recvSlot m e f.srcSite + e.chunkBytes * f.item + e.chunkBytes ≤ b) → t.byte b = s.byte b) ∧
        (∃ o ∈ (t.sx m).owed, o.1 = f.srcModule * 16 + f.srcDie ∧ f.fseq ∈ o.2.2))) ∧
    (u.collects m e = true → (u.recvBits e f.item).testBit f.srcSite = true → Yields (exec (.data m f) s) (fun t => SameMem s t ∧
        (∃ o ∈ (t.sx m).owed, o.1 = f.srcModule * 16 + f.srcDie ∧ f.fseq ∈ o.2.2)))) ∧
  (∀ (s : State) (m : Fin 16) (f : SiteFrame) (u : State) (data : List Byte) (e : SxEntry), FrameFor s u m f data e → Collects u m f e →
    Yields (exec (.done m f) s) (fun t => (∃ l ∈ (t.sx m).leads, l.shard = e.idx ∧ f.srcSite ∈ l.done) ∧ MemOutside e.recv (8 * e.nchunk) s t ∧
      (u.collects m e = true → SameMem s t))) ∧
  (∀ (s : State) (m : Fin 16) (f : SiteFrame) (u : State) (data : List Byte) (e : SxEntry) (l : SxLead), FrameFor s u m f data e →
    (u.sx m).leads.find? (fun l => l.shard == e.idx && l.round == e.round) = some l → f.round = e.round → e.lstate = 2 →
    u.pastCorr m l = false → (l.incl.getD f.item 0).testBit f.srcSite = true → data.length = 8192 →
    (l.corrs.contains (f.srcSite, f.item) = true → Yields (exec (.corr m f) s) (fun t => SameMem s t)) ∧
    (l.corrs.contains (f.srcSite, f.item) = false →
      u.corrsIn m { l with corrs := (f.srcSite, f.item) :: l.corrs } = false →
      Yields (exec (.corr m f) s) (fun t => (∀ k, k < 4096 → t.num (u.corrSlot m e + 8192 * f.item + 2 * k) 2 =
          (u.num (u.corrSlot m e + 8192 * f.item + 2 * k) 2 + fieldAt data (2 * k) 2) % 65536) ∧
        MemOutside (u.corrSlot m e + 8192 * f.item) 8192 s t ∧
        (∃ l' ∈ (t.sx m).leads, l'.shard = l.shard ∧ (f.srcSite, f.item) ∈ l'.corrs)))) ∧
  (∀ (s : State) (m : Fin 16) (shard : Fin 16384) (e : SxEntry) (l : SxLead), s.sxEntry m shard = e →
    (s.sx m).leads.find? (fun l => l.shard == shard.val && l.round == e.round) = some l →
    (s.pastData m l = false → exec (.leaderDataDeadline m shard) s = .next s) ∧
    (s.pastCorr m l = false → exec (.leaderCorrDeadline m shard) s = .next s)) ∧
  (∀ (s : State) (m : Fin 16) (shard : Fin 16384) (e : SxEntry) (l : SxLead) (wq : Nat), s.sxEntry m shard = e →
    (s.sx m).leads.find? (fun l => l.shard == shard.val && l.round == e.round) = some l → s.pastData m l = true → e.lstate = 1 →
    wq = (((List.range 64).filter (fun j => (s.ownSite m :: l.done).contains j && s.siteWeight m j != 0)).map (fun j => s.siteWeight m j)).sum →
    (256 * wq ≤ s.get (R.SX_PARAM m) F.SX_PARAM_QUORUM * s.weightAll m →
      Yields (exec (.leaderDataDeadline m shard) s) (fun t => (t.sxEntry m shard).state = 0 ∧ (t.sxEntry m shard).lstate = 0 ∧
        (∃ v : Event, t.events = s.events ++ [v] ∧ v.code = 0x3041 ∧ v.die = 40 + m.val) ∧ (∀ y ∈ (t.sx m).leads, y.shard ≠ shard.val) ∧
        (∀ y ∈ (t.sx m).rounds, y.shard ≠ shard.val))) ∧
    (∀ d, s.get (R.SX_PARAM m) F.SX_PARAM_QUORUM * s.weightAll m < 256 * wq → e.sealed_ = false → l.senders = [] →
      (s.shard? m shard).bind (fun x => x.desc) = some d → Apart (s.sxAt m shard) 128 (s.base4k (R.SX_PEN_LO m) (R.SX_PEN_HI m) + 8 * shard) 8 →
      Apart (s.sxAt m shard) 128 e.recv (8 * e.nchunk) →
      Yields (exec (.leaderDataDeadline m shard) s) (fun t => (t.sxEntry m shard).state = 2 ∧ (t.sxEntry m shard).lstate = 0 ∧
        (t.sxEntry m shard).age = 0 ∧ (t.sxEntry m shard).round = (e.round + 1) % 2 ^ 32))) ∧
  (∀ (s : State) (m : Fin 16) (shard : Fin 16384) (e : SxEntry) (l : SxLead) (d : ShardDesc), s.sxEntry m shard = e →
    (s.sx m).leads.find? (fun l => l.shard == shard.val && l.round == e.round) = some l → l.includedAt ≠ none → e.lstate = 2 →
    s.pastCorr m l = true → l.senders = [] →
    (s.shard? m shard).bind (fun x => x.desc) = some d → Apart (s.sxAt m shard) 128 (s.base4k (R.SX_PEN_LO m) (R.SX_PEN_HI m) + 8 * shard) 8 →
    Apart (s.sxAt m shard) 128 e.recv (8 * e.nchunk) →
    Yields (exec (.leaderCorrDeadline m shard) s) (fun t => (t.sxEntry m shard).state = 2 ∧ (t.sxEntry m shard).lstate = 0 ∧
      (t.sxEntry m shard).age = 0 ∧ (t.sxEntry m shard).round = (e.round + 1) % 2 ^ 32)) ∧
  (∀ (s : State) (m : Fin 16) (f : SiteFrame) (u : State) (data : List Byte), s.authFrame m f = (u, some data) →
    Yields (exec (.sack m f) s) (fun t => ∀ i ∈ (t.sx m).items, i ∈ (u.sx m).items ∧
      ¬ (i.module = f.srcModule ∧ fieldAt data 0 2 ≠ 0 ∧ fieldAt data 2 8 ≤ i.fseq ∧ i.fseq < fieldAt data 2 8 + fieldAt data 10 4))) ∧
  (∀ (s : State) (m : Fin 16) (shard : Fin 16384),
    ((s.sxEntry m shard).state = 2 → Yields (exec (.exchangeCollectiveDone m shard) s) (fun t => (t.sxEntry m shard).state = 0 ∧
      MemOutside (s.sxAt m shard + 5) 1 s t ∧ t.events = s.events ∧ t.exch = s.exch ∧ t.sites = s.sites ∧
      OnlyRegs (R.SX_STATUS m :: (List.finRange 16).flatMap (fun n => [R.SEAL_PERF_CCMISS n, R.SEAL_PERF_TCMISS n, R.SEAL_PERF_OVF n])) s t)) ∧
    ((s.sxEntry m shard).state ≠ 2 → exec (.exchangeCollectiveDone m shard) s = .next s))

/-- Holders open and end rounds on command, answer INCLUDE, gather MHEAD and MERGE, and follow NOTICE (rests on R373,
R374, R375, R378, R380, R382, R388, R393, R395, R398, R399, R402). A rise of EN checks the entries (with an empty
table and an own site in the site table only EN and the status change); with EN set it does nothing. OPENALL without
EN is refused with code 0x5; without any holder entry it is done at once; the one IDLE entry of an OPEN exchange
becomes OPEN under its leader, its chunks queued as DATA and DONE to another leader, or a collection begun here. BOOT
of a valid holder in round 0 asks its leader for a snapshot; DISABLE of a valid entry clears VALID and STATE, abandons
its open round and forgets its collection. For an authentic frame: an INCLUDE part of the own round sends the
correction of each chunk that counts this site and lacks others, and drops DATA of chunks that do not; MHEAD with
STATUS 1 ends the round with nothing changed, with STATUS 0 its header is kept; a MERGE item is kept once, and the
last applies the round: ROUND rises, STATE is APPLY (where the pennant lies outside the entry); from the leader of the
open round NOTICE LATE drops what is left to send, and NOTICE NOCTX abandons the round, counted, with 0x3245, and
shuns the site. -/
def Obligations.HoldersOpenContributeAndApply : Prop :=
(∀ (s : State) (m : Fin 16),
    (s.flag (R.SX_CTL m) F.SX_CTL_EN = true → exec (.sxEnable m) s = .next s) ∧
    (s.flag (R.SX_CTL m) F.SX_CTL_EN = false → s.sxCount m = 0 → s.siteWeight m (s.ownSite m) ≠ 0 →
      Yields (exec (.sxEnable m) s) (fun t => t.flag (R.SX_CTL m) F.SX_CTL_EN = true ∧ (t.sx m).shunned = [] ∧
        OnlyRegs [R.SX_CTL m, R.SX_STATUS m] s t ∧ t = { s with regs := t.regs, exch := t.exch })) ∧
    (s.flag (R.SX_CTL m) F.SX_CTL_EN = false → s.flag (R.SX_CMDSTAT m) F.SX_CMDSTAT_BUSY = false → s.flag (R.SX_FAULT m) F.SX_FAULT_VALID = false →
      Yields (exec (.openall m) s) (fun t => t.flag (R.SX_CMDSTAT m) F.SX_CMDSTAT_REFUSED = true ∧ t.rd (R.SX_FAULT m) = BitVec.ofNat 32 (5 + 16) ∧
        OnlyRegs [R.SX_CMDSTAT m, R.SX_FAULT m] s t ∧ t = { s with regs := t.regs })) ∧
    (s.flag (R.SX_CTL m) F.SX_CTL_EN = true → s.flag (R.SX_CMDSTAT m) F.SX_CMDSTAT_BUSY = false → s.sxHolders m = [] →
      Yields (exec (.openall m) s) (fun t => t.flag (R.SX_CMDSTAT m) F.SX_CMDSTAT_DONE = true ∧
        OnlyRegs [R.SX_CMDSTAT m, R.SX_STATUS m] s t ∧ t = { s with regs := t.regs })) ∧
    (∀ e d leader, s.flag (R.SX_CTL m) F.SX_CTL_EN = true → s.flag (R.SX_CMDSTAT m) F.SX_CMDSTAT_BUSY = false → s.sxHolders m = [e] →
      e.state = 0 → e.sealed_ = false → (e.sr = false ∨ s.unseeded m = false) → (s.shard? m e.idx).bind (fun x => x.desc) = some d →
      s.leaderOf m e = some leader →
      Yields (exec (.openall m) s) (fun t => t.flag (R.SX_CMDSTAT m) F.SX_CMDSTAT_DONE = true ∧
        (∃ r ∈ (t.sx m).rounds, r.shard = e.idx ∧ r.leader = leader) ∧
        (leader ≠ s.ownSite m → (t.sxEntry m e.idx).state = 1 ∧
          (∀ c, c < e.nchunk → ∃ q ∈ t.sites.queue, q.1 = m.val ∧ q.2.ftype = 1 ∧ q.2.site = leader ∧ q.2.item = c ∧
            q.2.data = t.bytes (e.send + e.chunkBytes * c) e.chunkBytes) ∧
          (∃ q ∈ t.sites.queue, q.1 = m.val ∧ q.2.ftype = 2 ∧ q.2.site = leader)) ∧
        (leader = s.ownSite m → (t.sxEntry m e.idx).lstate = 1 ∧ ∃ l ∈ (t.sx m).leads, l.shard = e.idx ∧ l.openAt = some s.now))) ∧
    Yields (exec (.sxCounterClear m) s) (fun t =>
      (∀ a ∈ [R.SX_CNT_MERGED m, R.SX_CNT_ZERO m, R.SX_CNT_FOLD m, R.SX_CNT_REBASE m, R.SX_CNT_ABANDON m], t.rd a = 0) ∧
      OnlyRegs [R.SX_CNT_MERGED m, R.SX_CNT_ZERO m, R.SX_CNT_FOLD m, R.SX_CNT_REBASE m, R.SX_CNT_ABANDON m] s t ∧
      t = { s with regs := t.regs, cleared := t.cleared })) ∧
  (∀ (s : State) (m : Fin 16) (shard : Fin 16384) (e : SxEntry), s.sxEntry m shard = e → s.flag (R.SX_CTL m) F.SX_CTL_EN = true →
    s.flag (R.SX_CMDSTAT m) F.SX_CMDSTAT_BUSY = false → shard.val < s.sxCount m → e.valid = true →
    (∀ j, e.holder = true → e.round = 0 → e.state ≠ 5 → s.leaderOf m e = some j →
      Yields (exec (.boot m shard) s) (fun t => t.flag (R.SX_CMDSTAT m) F.SX_CMDSTAT_DONE = true ∧
        (∃ r ∈ (t.sx m).rebases, r.shard = shard.val ∧ r.site = j ∧ r.boot = true ∧ r.head = none) ∧
        (∃ i : SxItem, t.sites.queue = s.sites.queue ++ [(m.val, i)] ∧ i.ftype = 8 ∧ i.site = j) ∧ SameMem s t)) ∧
    Yields (exec (.sxDisable m shard) s) (fun t => t.flag (R.SX_CMDSTAT m) F.SX_CMDSTAT_DONE = true ∧
      (t.sxEntry m shard).valid = false ∧ (t.sxEntry m shard).state = 0 ∧ (∀ l ∈ (t.sx m).leads, l.shard ≠ shard.val) ∧
      (∀ r ∈ (t.sx m).rebases, r.shard ≠ shard.val) ∧ (e.lstate = 0 → MemOutside (s.sxAt m shard + 4) 2 s t) ∧
      (e.state = 1 → (∀ r ∈ (t.sx m).rounds, r.shard ≠ shard.val) ∧ ∃ v : Event, t.events = s.events ++ [v] ∧ v.code = 0x3245))) ∧
  (∀ (s : State) (m : Fin 16) (f : SiteFrame) (u : State) (data : List Byte) (e : SxEntry) (r : SxRound) (i : Nat), FrameFor s u m f data e →
    (u.sx m).rounds.find? (fun r => r.shard == e.idx) = some r → f.round = e.round → e.state = 1 → r.leader = f.srcSite →
    r.counted.any (fun p => p.1 == 65536 + f.item) = false → i < data.length / 8 →
    ((fieldAt data (8 * i) 8).testBit (u.ownSite m) = true → u.needsCorr m (fieldAt data (8 * i) 8) = true →
      Yields (exec (.include_ m f) s) (fun t => SameMem s t ∧
        ∃ q ∈ t.sites.queue, q.1 = m.val ∧ q.2.ftype = 5 ∧ q.2.site = f.srcSite ∧ q.2.item = 1024 * f.item + i ∧
        q.2.data = u.correction m e (fieldAt data (8 * i) 8) (1024 * f.item + i))) ∧
    ((fieldAt data (8 * i) 8).testBit (u.ownSite m) = false → Yields (exec (.include_ m f) s) (fun t => SameMem s t ∧
      (∀ q ∈ t.sites.queue, q.1 = m.val → q.2.shard = e.idx → q.2.ftype = 1 → q.2.item ≠ 1024 * f.item + i) ∧
      (∀ q ∈ (t.sx m).items, q.shard = e.idx → q.ftype = 1 → q.item ≠ 1024 * f.item + i)))) ∧
  (∀ (s : State) (m : Fin 16) (f : SiteFrame) (u : State) (data : List Byte) (e : SxEntry), FrameFor s u m f data e →
    e.state < 3 → f.round = e.round → f.item = 0 → fieldAt data 0 8 = e.lineage → (u.roundOf m e f.srcSite).counted = [] →
    (f.aux % 256 = 1 → Yields (exec (.mhead m f) s) (fun t => (t.sxEntry m e.idx).state = 0 ∧ (t.sxEntry m e.idx).round = e.round ∧
      (∀ r ∈ (t.sx m).rounds, r.shard ≠ e.idx) ∧ MemOutside (u.sxAt m e.idx + 5) 1 s t)) ∧
    (f.aux % 256 ≠ 1 → (u.roundOf m e f.srcSite).merged = [] → 0 < e.nchunk * e.chunkElems / 4096 →
      Yields (exec (.mhead m f) s) (fun t => SameMem s t ∧ (∃ r ∈ (t.sx m).rounds, r.shard = e.idx ∧
        r.head = some (e.lineage, fieldAt data 8 8, f.aux / 65536 % 65536) ∧ r.leader = f.srcSite)))) ∧
  (∀ (s : State) (m : Fin 16) (f : SiteFrame) (u : State) (data : List Byte) (e : SxEntry) (r : SxRound), FrameFor s u m f data e →
    e.state < 3 → f.round = e.round → data.length = 8192 → u.roundOf m e f.srcSite = r → r.merged.any (fun x => x.1 == f.item) = false →
    (r.head = none → Yields (exec (.merge m f) s) (fun t => SameMem s t ∧
      (∃ r ∈ (t.sx m).rounds, r.shard = e.idx ∧ (f.item, f.aux % 256, data) ∈ r.merged))) ∧
    (∀ lin q wq d, r.head = some (lin, q, wq) →
      (List.range (max 1 ((e.nchunk + 65535) / 65536))).all (fun p => r.counted.any (fun c => c.1 == p)) = true →
      (List.range (e.nchunk * e.chunkElems / 4096)).all (fun i => i == f.item || r.merged.any (fun x => x.1 == i)) = true →
      (u.shard? m e.idx).bind (fun x => x.desc) = some d →
      Apart (u.sxAt m e.idx) 128 (u.base4k (R.SX_PEN_LO m) (R.SX_PEN_HI m) + 8 * e.idx) 8 →
      Yields (exec (.merge m f) s) (fun t => (t.sxEntry m e.idx).state = 2 ∧ (t.sxEntry m e.idx).age = 0 ∧
        (t.sxEntry m e.idx).round = (e.round + 1) % 2 ^ 32 ∧ (∀ r ∈ (t.sx m).rounds, r.shard ≠ e.idx)))) ∧
  (∀ (s : State) (m : Fin 16) (f : SiteFrame) (u : State) (data : List Byte) (e : SxEntry), FrameFor s u m f data e →
    e.state = 1 → f.round = e.round → (u.sx m).rounds.any (fun r => r.shard == e.idx && r.leader == f.srcSite) = true →
    (f.aux % 256 = 1 → Yields (exec (.notice m f) s) (fun t => SameMem s t ∧ (∀ i ∈ (t.sx m).items, i.shard = e.idx → i.ftype ∉ [1, 2, 5]) ∧
      (∀ q ∈ t.sites.queue, q.1 = m.val → q.2.shard = e.idx → q.2.ftype ∉ [1, 2, 5]))) ∧
    (f.aux % 256 = 4 → Yields (exec (.notice m f) s) (fun t => (t.sxEntry m e.idx).state = 0 ∧ (e.idx, f.srcSite) ∈ (t.sx m).shunned ∧
      (∃ v : Event, t.events = u.events ++ [v] ∧ v.code = 0x3245) ∧ (∀ r ∈ (t.sx m).rounds, r.shard ≠ e.idx) ∧ MemOutside (u.sxAt m e.idx + 5) 1 s t)))

/-- A source serves its whole snapshot, a behind holder takes it item by item, and silent sites are marked (rests on
R393, R395, R396, R397, R398). For an authentic frame: SNAPREQ at a source that is IDLE or OPEN and runs no outer step
queues SNAPHEAD and one SNAP item for each 8 KiB of SNAP and of the outer momentum, with the bytes there. SNAPHEAD
from the source asked puts the rebasing holder into REBASE with the header kept; under BOOT the error feedback is
zeroed (where it lies outside the table entry). A SNAP item of that source is written at its place in SNAP or the
outer momentum, and nothing else while items are missing; with the last the entry is IDLE again and 0x3143 raised
(where the generators are seeded). PROBE notes the peer's ports, and one of a greater ROUND leaves the shard BEHIND. A
counterpart not sent to for 1 s is probed. A site silent for the loss time is marked out of touch with 0x1050, not
before, and once. -/
def Obligations.SnapshotsRebaseAndSitesStayInTouch : Prop :=
(∀ (s : State) (m : Fin 16) (f : SiteFrame) (u : State) (data : List Byte) (e : SxEntry) (sh : Shard) (d : ShardDesc), FrameFor s u m f data e →
    u.shard? m e.idx = some sh → sh.desc = some d → e.state < 2 → (sh.j.state = 1 → sh.j.outer = false) →
    (u.sx m).items.any (fun i => i.shard == e.idx && i.site == f.srcSite && (i.ftype == 9 || i.ftype == 10)) = false →
    Yields (exec (.snapreq m f) s) (fun t => SameMem s t ∧
      (∃ q ∈ t.sites.queue, q.1 = m.val ∧ q.2.ftype = 9 ∧ q.2.module = f.srcModule ∧ fieldAt q.2.data 8 4 = 2 * (d.exchElems / 2048) % 2 ^ 32) ∧
      (∀ i, i < d.exchElems / 2048 →
        (∃ q ∈ t.sites.queue, q.1 = m.val ∧ q.2.ftype = 10 ∧ q.2.item = i ∧ q.2.aux = 0 ∧ q.2.data = u.bytes (d.snap + 8192 * i) 8192) ∧
        (∃ q ∈ t.sites.queue, q.1 = m.val ∧ q.2.ftype = 10 ∧ q.2.item = d.exchElems / 2048 + i ∧ q.2.aux = 1 ∧
          q.2.data = u.bytes (d.omom + 8192 * i) 8192)))) ∧
  (∀ (s : State) (m : Fin 16) (f : SiteFrame) (u : State) (data : List Byte) (e : SxEntry) (r : SxRebase) (d : ShardDesc) (i : Nat),
    FrameFor s u m f data e → (u.sx m).rebases.find? (fun r => r.shard == e.idx) = some r →
    (u.shard? m e.idx).bind (fun x => x.desc) = some d → r.site = f.srcSite → r.module = f.srcModule → r.head = none →
    i < fieldAt data 8 4 → i ∉ r.got → Apart (u.sxAt m e.idx) 128 e.ef (4 * d.exchElems) →
    Yields (exec (.snaphead m f) s) (fun t => (t.sxEntry m e.idx).state = 4 ∧
      (r.boot = true → ∀ b, e.ef ≤ b → b < e.ef + 4 * d.exchElems → t.byte b = 0) ∧
      (∃ q ∈ (t.sx m).rebases, q.shard = e.idx ∧ q.head = some (f.round, fieldAt data 0 8, fieldAt data 8 4)))) ∧
  (∀ (s : State) (m : Fin 16) (f : SiteFrame) (u : State) (data : List Byte) (e : SxEntry) (r : SxRebase) (d : ShardDesc)
      (round lineage items n a : Nat), FrameFor s u m f data e →
    (u.sx m).rebases.find? (fun r => r.shard == e.idx) = some r → (u.shard? m e.idx).bind (fun x => x.desc) = some d →
    r.site = f.srcSite → r.module = f.srcModule → r.head = some (round, lineage, items) → data.length = 8192 → d.exchElems / 2048 = n →
    f.item < 2 * n → f.item ∉ r.got → a = (if f.aux % 2 = 0 then d.snap + 8192 * (f.item % n) else d.omom + 8192 * (f.item % n)) →
    (∀ i, i < items → i ∉ f.item :: r.got → Yields (exec (.snap m f) s) (fun t => t.bytes a 8192 = data ∧ MemOutside a 8192 s t ∧
      (∃ q ∈ (t.sx m).rebases, q.shard = e.idx ∧ f.item ∈ q.got))) ∧
    ((List.range items).all (fun i => (f.item :: r.got).contains i) = true → (d.src = false ∨ u.unseeded m = false) →
      Yields (exec (.snap m f) s) (fun t => (t.sxEntry m e.idx).state = 0 ∧ (∀ q ∈ (t.sx m).rebases, q.shard ≠ e.idx) ∧
        (∃ v ∈ t.events, v.code = 0x3143 ∧ v.die = 40 + m.val)))) ∧
  (∀ (s : State) (m : Fin 16) (f : SiteFrame) (u : State) (data : List Byte), s.authFrame m f = (u, some data) → f.srcSite < 64 →
    ((∀ e, u.sxFind m f.sxid = some e → f.round ≤ e.round) → Yields (exec (.probe m f) s) (fun t =>
      lookup2 t.sites.peerPorts (s.mdCanton m) f.srcModule = 4 + fieldAt data 8 1 % 4 ∧
      t.flag (R.SP_PEER (s.mdCanton m) f.srcSite) F.SP_PEER_PORTDOWN = decide (fieldAt data 8 1 % 4 ≠ 3) ∧ SameMem s t)) ∧
    (∀ e, u.sxFind m f.sxid = some e → e.round < f.round → e.state < 3 → Yields (exec (.probe m f) s) (fun t =>
      (t.sxEntry m e.idx).state = 3 ∧ (∃ r ∈ (t.sx m).rebases, r.shard = e.idx ∧ r.site = f.srcSite ∧ r.module = f.srcModule)))) ∧
  (∀ (s : State) (m : Fin 16) (site : Fin 64) (md : BitVec 17),
    (s.now < lookup2 s.sites.sentTo m md.toNat + secTicks → exec (.probeSend m site md) s = .next s) ∧
    (lookup2 s.sites.sentTo m md.toNat + secTicks ≤ s.now → Yields (exec (.probeSend m site md) s) (fun t =>
      (∃ i : SxItem, t.sites.queue = s.sites.queue ++ [(m.val, i)] ∧ i.ftype = 0x0C ∧ i.site = site.val ∧ i.module = md.toNat) ∧
      lookup2 t.sites.sentTo m md.toNat = s.now ∧ t = { s with sites := t.sites }))) ∧
  (∀ (s : State) (k : Fin 8) (site : Fin 64) (lost : Nat), s.get R.SP_LOSTMS F.SP_LOSTMS_MS * msTicks = lost →
    ((s.outOfTouch k site = true ∨ s.now < lookup2 s.sites.heard k site + lost) → exec (.siteOutOfTouch k site) s = .next s) ∧
    (s.outOfTouch k site = false → lookup2 s.sites.heard k site + lost ≤ s.now → Yields (exec (.siteOutOfTouch k site) s) (fun t =>
      t.outOfTouch k site = true ∧ (∃ e ∈ t.events, e.code = 0x1050 ∧ e.die = 62))))

/-- SPDM requests are answered as the module's support says, with an error without an identity and not ready too early
(rests on R404, R405, R409, R410, R413, R431, R449, R481). Without an identity key each SPDM request is answered with
an ERROR; through the DOE before the identity is settled, with ResponseNotReady. Otherwise: GET_VERSION begins a
connection and answers 1.2 and 1.3; the one algorithm set is agreed if offered; the ensign's digest, and parts of it
from slot 0 alone, are answered; a measurement block asked for is answered as it stands; signed answers come at once
over TCP and after ResponseNotReady through the DOE; FINISH completes a session whose proof holds and drops one whose
does not; END_SESSION ends it; chunks are gathered and given out in order; IDE keys are taken only in a completed
session. Discovery names three types; DOE_ABORT discards the request; a waiting response becomes ready. None of these
touches memory, and only IDE_KM a register, SEC_STATUS. -/
def Obligations.SpdmRespondsOnlyWithAnIdentity : Prop :=
∀ (s : State) (tcp : Bool),
    (∀ (n share proof part keys : List Byte) (o : Bool) (a b c : Nat) (m : Option (List Byte)), ∀ i ∈ [Instr.spdmGetVersion tcp,
        .spdmGetCapabilities tcp, .spdmNegotiateAlgorithms tcp o, .spdmGetDigests tcp, .spdmGetCertificate tcp a b c, .spdmChallenge tcp n,
        .spdmGetMeasurements tcp a m, .spdmKeyExchange tcp share, .spdmFinish tcp proof, .spdmEndSession tcp, .spdmChunkSend tcp a part,
        .spdmChunkGet tcp a, .spdmVendorDefinedRequest tcp keys],
      (s.flag R.SEC_STATUS F.SEC_STATUS_IDOK = false → (tcp = true ∨ s.pwr.mode ≠ .starting ∨ 3 ≤ s.get R.BOOT_STATUS F.BOOT_STATUS_PHASE) →
        Yields (exec i s) (fun t => t.sec.spdm.answer = .error ∧ SameMem s t)) ∧
      (tcp = false → s.pwr.mode = .starting → s.get R.BOOT_STATUS F.BOOT_STATUS_PHASE < 3 →
        Yields (exec i s) (fun t => t.sec.spdm.answer = .notReady ∧ SameMem s t))) ∧
    (SpdmReady s tcp →
      Yields (exec (.spdmGetVersion tcp) s) (fun t => t.sec.spdm = { Spdm.reset with answer := .version [0x12, 0x13] } ∧ t = { s with sec := t.sec }) ∧
      Yields (exec (.spdmGetCapabilities tcp) s) (fun t => t.sec.spdm = { s.sec.spdm with answer := .capabilities true, long := [] } ∧
        t = { s with sec := t.sec }) ∧
      Yields (exec (.spdmNegotiateAlgorithms tcp true) s) (fun t => t.sec.spdm.agreed = true ∧ t = { s with sec := t.sec } ∧
        t.sec.spdm.answer = .algorithms ["TPM_ALG_RSAPSS_4096", "TPM_ALG_SHA_512", "secp384r1", "AES-256-GCM"]) ∧
      Yields (exec (.spdmNegotiateAlgorithms tcp false) s) (fun t => t.sec.spdm.agreed = false ∧ t.sec.spdm.answer = .error ∧ t = { s with sec := t.sec }) ∧
      Yields (exec (.spdmGetDigests tcp) s) (fun t => t.sec.spdm.answer = .digests (sha512 s.ensign) ∧ t = { s with sec := t.sec }) ∧
      (∀ (off len : Nat), Yields (exec (.spdmGetCertificate tcp 0 off len) s) (fun t => t = { s with sec := t.sec } ∧ ∃ part left,
        t.sec.spdm.answer = .certificate part left ∧ part = (s.ensign.drop off).take len ∧ left = 0x10000 - off - part.length)) ∧
      (∀ (slot off len : Nat), slot ≠ 0 → Yields (exec (.spdmGetCertificate tcp slot off len) s) (fun t => t.sec.spdm.answer = .error ∧ t = { s with sec := t.sec })) ∧
      (∀ n : List Byte, Yields (exec (.spdmChallenge tcp n) s) (fun t => t = { s with sec := t.sec } ∧ ∃ a, a = SpdmAnswer.challengeAuth (sha512 s.ensign)
          s.measureDigest (s.sign "JV-SPDM" (n ++ sha512 s.ensign ++ s.measureDigest)) ∧
        (if tcp then t.sec.spdm.answer = a else t.sec.spdm.answer = .notReady ∧ t.sec.spdm.waiting = some (a, s.now)))) ∧
      (∀ (i : Nat) (b : List Byte), i ≠ 0 → s.measurement i = some b →
        Yields (exec (.spdmGetMeasurements tcp i none) s) (fun t => t.sec.spdm.answer = .measurements [(i, b)] [] ∧ t = { s with sec := t.sec }) ∧
        ∀ n : List Byte, Yields (exec (.spdmGetMeasurements tcp i (some n)) s) (fun t => t = { s with sec := t.sec } ∧ ∃ a,
          a = SpdmAnswer.measurements [(i, b)] (s.sign "JV-SPDM" (n ++ (leBytes 1 i ++ b))) ∧
          (if tcp then t.sec.spdm.answer = a else t.sec.spdm.answer = .notReady ∧ t.sec.spdm.waiting = some (a, s.now)))) ∧
      (∀ share : List Byte, Yields (exec (.spdmKeyExchange tcp share) s) (fun t => (∃ key, t.sec.spdm.session = some (key, false)) ∧
        (if tcp then ∃ p g, t.sec.spdm.answer = .keyExchange p g else t.sec.spdm.answer = .notReady ∧ ∃ p g, t.sec.spdm.waiting = some (.keyExchange p g, s.now)) ∧
        t = { s with sec := t.sec, free := t.free })) ∧
      (∀ (key : List Byte) (done : Bool) (proof : List Byte), s.sec.spdm.session = some (key, done) →
        Yields (exec (.spdmFinish tcp proof) s) (fun t => (if Config.verify "SPDM-FINISH" (key ++ proof)
          then t.sec.spdm.session = some (key, true) ∧ t.sec.spdm.answer = .finish
          else t.sec.spdm.session = none ∧ t.sec.spdm.answer = .error) ∧ t = { s with sec := t.sec }) ∧
        Yields (exec (.spdmEndSession tcp) s) (fun t => t.sec.spdm.session = none ∧ t.sec.spdm.answer = .ended ∧ t = { s with sec := t.sec })) ∧
      (∀ (q : Nat) (part : List Byte), Yields (exec (.spdmChunkSend tcp q part) s) (fun t => t.sec.spdm.chunks = (if q = 0 then part else s.sec.spdm.chunks ++ part) ∧
        t.sec.spdm.answer = .chunkAck q ∧ t = { s with sec := t.sec })) ∧
      (∀ q : Nat, q * 65536 < s.sec.spdm.long.length → Yields (exec (.spdmChunkGet tcp q) s) (fun t =>
        t.sec.spdm.answer = .chunk q ((s.sec.spdm.long.drop (q * 65536)).take 65536) (decide (s.sec.spdm.long.length ≤ (q + 1) * 65536)) ∧
        t.sec.spdm.long = (if s.sec.spdm.long.length ≤ (q + 1) * 65536 then [] else s.sec.spdm.long) ∧ t = { s with sec := t.sec })) ∧
      (∀ (key keys : List Byte), s.sec.spdm.session = some (key, true) → Yields (exec (.spdmVendorDefinedRequest tcp keys) s) (fun t => t.sec.ideKeys = keys ∧
        t.flag R.SEC_STATUS F.SEC_STATUS_IDE = true ∧ t.sec.spdm.answer = .ideKm [] ∧ OnlyRegs [R.SEC_STATUS] s t ∧ t = { s with sec := t.sec, regs := t.regs })) ∧
      (∀ keys : List Byte, (∀ key : List Byte, s.sec.spdm.session ≠ some (key, true)) → Yields (exec (.spdmVendorDefinedRequest tcp keys) s) (fun t =>
        t.sec.ideKeys = s.sec.ideKeys ∧ t.sec.spdm.answer = .error ∧ t = { s with sec := t.sec }))) ∧
    (∀ i : Nat, i < 3 → Yields (exec (.doeDiscovery i) s) (fun t => (∃ name, t.sec.spdm.answer = .discovery name ((i + 1) % 3)) ∧ t = { s with sec := t.sec })) ∧
    Yields (exec .doeAbort s) (fun t => t.sec.spdm = { s.sec.spdm with answer := .none, waiting := none, chunks := [], long := [] } ∧ t = { s with sec := t.sec }) ∧
    (∀ (a : SpdmAnswer) (at_ : Nat), s.sec.spdm.waiting = some (a, at_) → Yields (exec .doeResponseReady s) (fun t => t.sec.spdm = { s.sec.spdm with answer := a, waiting := none } ∧
      t = { s with sec := t.sec }))

/-- SEC commands are framed by SEC_OWN and BUSY; ASSIGN needs every signature; a scrub leaves no key and no data
(rests on R414, R418, R419, R420, R421, R435, R436, R438, R441, R479). SEC_OWN changes only to the writer's view or
0xF, from a free or its own buffer, and a release zeroises the buffer. While a command runs a SEC command does
nothing; in the recovery profile, from a view that does not own the buffer, or for another canton it is refused with
code 2, 5, 2, with nothing else changed. ASSIGN of a FREE canton whose argument is well formed and signed by the
operator and every party makes it ASSIGNED with its job, operator flags, no consent, its manifest, SEQ raised and
0x0060; an unusable canton is refused with code 2 and 0x0387, one that is not FREE with code 2; with a bad signature
it stays FREE, with 0x0467 and code 1. SCRUB of an ASSIGNED canton makes it SCRUBBING, PEND set, at step 1, its queues
stopped and update engines paused; quiesced, its keys, authorisations and stores are gone, the fresh trees are step 5;
beyond 100 ms a CRST is forced with 0x0266. At the end the canton is FREE, counted, with 0x0063, no seal key, and with
OVERWRITE every byte of its slice reads 0. -/
def Obligations.CantonsAreAssignedAndScrubbed : Prop :=
(∀ (s : State) (v : View) (x : W32),
    ((fldOf x F.SEC_OWN_VIEW = s.viewNo v ∨ fldOf x F.SEC_OWN_VIEW = 15) →
      (s.get R.SEC_OWN F.SEC_OWN_VIEW = 15 ∨ s.get R.SEC_OWN F.SEC_OWN_VIEW = s.viewNo v) →
      Yields (exec (.secOwnWrite v x) s) (fun t => t.get R.SEC_OWN F.SEC_OWN_VIEW = fldOf x F.SEC_OWN_VIEW ∧
        t.sec = { s.sec with buf := if fldOf x F.SEC_OWN_VIEW = 15 then [] else s.sec.buf } ∧ OnlyRegs [R.SEC_OWN] s t ∧ t = { s with regs := t.regs, sec := t.sec })) ∧
    (¬ ((fldOf x F.SEC_OWN_VIEW = s.viewNo v ∨ fldOf x F.SEC_OWN_VIEW = 15) ∧
      (s.get R.SEC_OWN F.SEC_OWN_VIEW = 15 ∨ s.get R.SEC_OWN F.SEC_OWN_VIEW = s.viewNo v)) → exec (.secOwnWrite v x) s = .next s)) ∧
  (∀ (s : State) (v : View) (k : Fin 8) (slot : Fin 16) (st : KaStep), ∀ c ∈ [Instr.secAssign v k, .secKagree v k st, .secDatakey v k, .secCkpt v k slot,
      .secResume v k slot, .secShare v k, .secRelease v k slot, .secConsent v k, .secKeydrop v k slot, .secScrub v k],
    (s.flag R.SEC_CMDSTAT F.SEC_CMDSTAT_BUSY = true → exec c s = .next s) ∧
    (s.flag R.SEC_CMDSTAT F.SEC_CMDSTAT_BUSY = false →
      (s.recovery = true → Yields (exec c s) (fun t => SecRefused t 2 ∧ OnlyRegs [R.SEC_CMDSTAT] s t ∧ t.sec = s.sec ∧ SameMem s t ∧ t.events = s.events)) ∧
      (s.recovery = false → s.get R.SEC_OWN F.SEC_OWN_VIEW ≠ s.viewNo v →
        Yields (exec c s) (fun t => SecRefused t 5 ∧ OnlyRegs [R.SEC_CMDSTAT] s t ∧ t.sec = s.sec ∧ SameMem s t ∧ t.events = s.events)) ∧
      (s.recovery = false → s.get R.SEC_OWN F.SEC_OWN_VIEW = s.viewNo v → ((s.viewNo v ≠ 8 ∧ s.viewNo v ≠ k) ∨ s.cantons ≤ k) →
        Yields (exec c s) (fun t => SecRefused t 2 ∧ OnlyRegs [R.SEC_CMDSTAT] s t ∧ t.sec = s.sec ∧ SameMem s t ∧ t.events = s.events))) ∧
    (SecReady s v k → Yields (exec c s) (fun t => SecDone t ∨ ∃ n, SecRefused t n ∧ 1 ≤ n ∧ n ≤ 4))) ∧
  (∀ (s : State) (v : View) (k : Fin 8) (m : Manifest) (job : Nat) (body : List Byte) (sigs : List (List Byte)) (total : Nat) (pol : List Byte), SecReady s v k →
    s.polState k = 0 → s.flag (R.SCRUB_STATUS k) F.SCRUB_STATUS_PEND = false → (s.get R.CONT_STATUS F.CONT_STATUS_UNUSABLE).testBit k = false →
    parseManifest (s.buf 520 (0x40000 - 520)) = (m, job, body, sigs, total) → ((s.buf 520 (0x40000 - 520)).drop total).take 256 = pol →
    fieldAt (s.buf 0 520) 0 1 = k.val → fieldAt (s.buf 0 520) 1 1 ≤ 3 → fieldAt (s.buf 0 520) 2 2 = 0 → fieldAt (s.buf 0 520) 4 4 = job →
    1 ≤ m.parties.length → m.parties.length ≤ 32 → 1 ≤ m.resumeK → m.resumeK ≤ m.parties.length → 1 ≤ m.releaseK → m.releaseK ≤ m.parties.length →
    fieldAt pol 0 2 = 1 → fieldAt pol 2 1 = k.val → fieldAt pol 3 1 = fieldAt (s.buf 0 520) 1 1 → fieldAt pol 4 4 = job →
    fieldAt pol 12 1 = m.parties.length → fieldAt pol 13 1 = m.resumeK → fieldAt pol 14 1 = m.releaseK → fieldAt pol 15 1 = 0 → zeroAt pol 80 176 = true →
    Yields (exec (.secAssign v k) s) (fun t =>
      (s.operatorSigned "JV-ASG" ((s.buf 0 520).take 8) (((s.buf 0 520).drop 8).take 512) = true → manifestSigned m body sigs = true →
        (pol.drop 16).take 64 = m.digest →
        SecDone t ∧ t.polState k = 1 ∧ t.get (R.CPOL_STATUS k) F.CPOL_STATUS_OPFLAGS = fieldAt (s.buf 0 520) 1 1 ∧ t.consent k = 0 ∧
        t.jobs.getD k 0 = job ∧ (t.canton k).manifest = some m ∧ (t.rd (R.CPOL_SEQ k)).toNat = ((s.rd (R.CPOL_SEQ k)).toNat + 1) % 2 ^ 32 ∧
        OneEvent s t 0x0060 63 (some k.val) ∧ (∀ x ∈ s.cantonMds k, x + 40 ∉ s.deadDies → (t.eng (fin16 x)).keys.isSome = true)) ∧
      (s.operatorSigned "JV-ASG" ((s.buf 0 520).take 8) (((s.buf 0 520).drop 8).take 512) = false ∨ manifestSigned m body sigs = false ∨
        (pol.drop 16).take 64 ≠ m.digest →
        SecRefused t 1 ∧ t.polState k = 0 ∧ OneEvent s t 0x0467 63 (some k.val) ∧ t.sec = s.sec))) ∧
  (∀ (s : State) (v : View) (k : Fin 8), SecReady s v k →
    ((s.get R.CONT_STATUS F.CONT_STATUS_UNUSABLE).testBit k = true → Yields (exec (.secAssign v k) s) (fun t =>
      SecRefused t 2 ∧ OneEvent s t 0x0387 63 (some k.val) ∧ t.sec = s.sec ∧ t.polState k = s.polState k)) ∧
    ((s.get R.CONT_STATUS F.CONT_STATUS_UNUSABLE).testBit k = false → s.polState k ≠ 0 → Yields (exec (.secAssign v k) s) (fun t =>
      SecRefused t 2 ∧ t.events = s.events ∧ t.sec = s.sec ∧ t.polState k = s.polState k)) ∧
    (s.polState k ≠ 1 → Yields (exec (.secScrub v k) s) (fun t => SecRefused t 2 ∧ t.events = s.events ∧ t.sec = s.sec ∧ t.polState k = s.polState k))) ∧
  (∀ (s : State) (v : View) (k : Fin 8), SecReady s v k → s.polState k = 1 →
    Yields (exec (.secScrub v k) s) (fun t => SecDone t ∧ t.polState k = 2 ∧ t.consent k = 0 ∧ t.flag (R.SCRUB_STATUS k) F.SCRUB_STATUS_PEND = true ∧
      t.get (R.SCRUB_STATUS k) F.SCRUB_STATUS_STEP = 1 ∧ (t.canton k).scrubAt = s.now ∧
      (∀ d ∈ s.cantonCds k, ∀ q : Fin 4, t.qState (fin40 d) q = (if s.qState (fin40 d) q = 1 ∨ s.qState (fin40 d) q = 2 ∨ s.qState (fin40 d) q = 3
        then 6 else s.qState (fin40 d) q)) ∧
      (∀ m ∈ s.cantonMds k, t.flag (R.UE_CTL m) F.UE_CTL_PAUSE = true) ∧ (∀ i ∈ (t.canton k).images, i.runs = false))) ∧
  (∀ (s : State) (k : Fin 8), s.polState k = 2 → s.get (R.SCRUB_STATUS k) F.SCRUB_STATUS_STEP = 1 →
    (s.busyCanton k = false → Yields (exec (.scrubQuiesced k) s) (fun t => t.polState k = 2 ∧ t.get (R.SCRUB_STATUS k) F.SCRUB_STATUS_STEP = 5 ∧
      t.canton k = { CantonSec.reset with scrubAt := (s.canton k).scrubAt } ∧ (∀ x ∈ t.keySlots, x.1 ≠ k.val) ∧ (∀ r ∈ t.releases, r.canton ≠ k.val) ∧
      (∀ x ∈ t.pairSecrets, x.1 ≠ k.val) ∧ t.jobs.getD k 0 = 0 ∧ (∀ d ∈ s.cantonCds k, ∀ i, i < lsBytes → t.byte (lsBase (fin40 d) + i) = 0) ∧ t.events = s.events)) ∧
    (s.busyCanton k = true → exec (.scrubQuiesced k) s = .next s) ∧
    ((s.canton k).scrubAt + 100 * msTicks < s.now → Yields (exec (.scrubQuiesceTimeout k) s) (fun t => t.flag (R.SCRUB_STATUS k) F.SCRUB_STATUS_FORCED = true ∧
      t.get (R.SCRUB_STATUS k) F.SCRUB_STATUS_STEP = 5 ∧ (∀ x ∈ t.keySlots, x.1 ≠ k.val) ∧ OneEvent s t 0x0266 63 (some k.val))) ∧
    (s.now ≤ (s.canton k).scrubAt + 100 * msTicks → exec (.scrubQuiesceTimeout k) s = .next s)) ∧
  (∀ (s : State) (k : Fin 8), s.polState k = 2 → s.get (R.SCRUB_STATUS k) F.SCRUB_STATUS_STEP = 5 → s.treesUp k = true →
    Yields (exec (.scrubComplete k) s) (fun t => t.polState k = 0 ∧ t.get (R.SCRUB_STATUS k) F.SCRUB_STATUS_STEP = 0 ∧
      t.flag (R.SCRUB_STATUS k) F.SCRUB_STATUS_PEND = false ∧
      t.get (R.SCRUB_STATUS k) F.SCRUB_STATUS_COUNT = satN (2 ^ 16 - 1) (s.get (R.SCRUB_STATUS k) F.SCRUB_STATUS_COUNT + 1) ∧
      (∀ m ∈ s.cantonMds k, (t.eng (fin16 m)).keys = none ∧ t.flag (R.SEAL_STATUS m) F.SEAL_STATUS_KEYS = false) ∧
      OneEvent s t 0x0063 63 (some k.val) ∧
      ((s.get (R.CPOL_STATUS k) F.CPOL_STATUS_OPFLAGS).testBit 0 = true → ∀ i, i < s.sliceSize k → t.byte (s.sliceBase k + i) = 0) ∧
      ((s.get (R.CPOL_STATUS k) F.CPOL_STATUS_OPFLAGS).testBit 0 = false → SameMem s t)))

/-- KA1 is answered by a signed KA2, a bad or late message discards the exchange, keys of parties open their records
only (rests on R415, R416, R417, R423, R424, R440, R441). A malformed KA1 raises 0x0468 and begins nothing; one with a
purpose the state does not admit is refused without a change; an admitted one begins an exchange and is answered with
KA2. KA2 and KA3 whose length, other end or RD is wrong, that come later than 10 s, or whose signature fails discard
the exchange with 0x0468; a right one ends it, derives the secret for its purpose, and KA2 is answered with KA3. After
10 s without a message the exchange is discarded with 0x0468. SEC_KAGREE starts an agreement or hands in a message
through SEC_BUF. DATAKEY unwraps each entry with the party's wrapping key into slots of that party, or is refused
whole: code 1 for a tag, 2 for a KEYID of another party, 4 beyond 8 per party or 64. A signed withdrawal destroys its
slot. A party record is decrypted into memory only with the slot its KEYID names and of its PARTY, and answered with
that party; with a failed tag nothing is written and 0x146A raised. -/
def Obligations.KeyAgreementsAndPartyData : Prop :=
(∀ (s : State) (msg : List Byte) (p k : Nat), fieldAt msg 1 1 = p → fieldAt msg 2 1 = k →
    ((msg.length ≠ 1709 ∨ fieldAt msg 0 1 ≠ 1 ∨ fieldAt msg 3 1 ≠ 0 ∨ idFits p (fieldAt msg 8 4) = false ∨
        (p ≠ 1 ∧ fieldAt msg 4 4 ≠ s.jobs.getD k 0)) →
      Yields (exec (.ka1 msg) s) (fun t => OneEvent s t 0x0468 63 (if p = 1 then none else some k) ∧ t.sec = s.sec ∧ t.resp = .none)) ∧
    (msg.length = 1709 → fieldAt msg 0 1 = 1 → fieldAt msg 3 1 = 0 → s.admitsKa p k = false → idFits p (fieldAt msg 8 4) = true →
        (p = 1 ∨ fieldAt msg 4 4 = s.jobs.getD k 0) →
      Yields (exec (.ka1 msg) s) (fun t => t.resp = .none ∧ t = { s with resp := t.resp })) ∧
    (msg.length = 1709 → fieldAt msg 0 1 = 1 → fieldAt msg 3 1 = 0 → s.admitsKa p k = true → idFits p (fieldAt msg 8 4) = true →
        (p = 1 ∨ fieldAt msg 4 4 = s.jobs.getD k 0) →
      Yields (exec (.ka1 msg) s) (fun t => ∃ (a : Agreement) (ka2 : List Byte), t.resp = .data ka2 ∧ ka2.length = 2277 ∧ t.sec.agreements = s.sec.agreements ++ [a] ∧ a.purpose = p ∧ a.canton = k ∧
        a.initiator = false ∧ a.ka1 = msg ∧ a.ka2 = ka2 ∧ a.at_ = s.now ∧ t.events = s.events ∧ t = { s with sec := t.sec, free := t.free, resp := t.resp }))) ∧
  (∀ (s : State) (i : Nat) (msg : List Byte) (a : Agreement), s.sec.agreements[i]? = some a → a.initiator = true →
    Yields (exec (.ka2 i msg) s) (fun t => t.sec.agreements = s.sec.agreements.eraseIdx i ∧
      (if msg.length ≠ 2277 ∨ idFits a.purpose (fieldAt msg 0 4) = false ∨ rdFits msg = false ∨ a.at_ + 42000000000 < s.now ∨
          s.peerSigned a.canton (fieldAt msg 0 4) "JV-KA-R" (kaHash a.ka1 msg) ((msg.drop 1765).take 512) = false
        then OneEvent s t 0x0468 63 (if a.purpose = 1 then none else some a.canton) ∧ t.resp = .none ∧ t.sec.linkSecrets = s.sec.linkSecrets ∧
          t.pairSecrets = s.pairSecrets ∧ t.sec.cantons = s.sec.cantons
        else t.events = s.events ∧ (∃ b, t.resp = .data b ∧ b.length = 512) ∧
          (a.purpose = 1 → ∃ x, (fieldAt msg 0 4, x) ∈ t.sec.linkSecrets) ∧ (a.purpose = 2 → ∃ x, (a.canton, fieldAt msg 0 4, x) ∈ t.pairSecrets) ∧
          (a.purpose = 3 → (t.canton a.canton).hostKeys.isSome = true ∧ (t.canton a.canton).hostSeq = []) ∧
          (a.purpose = 4 → ∃ x, (fieldAt msg 0 4 - 0x80000000, x) ∈ (t.canton a.canton).wraps)))) ∧
  (∀ (s : State) (i : Nat) (msg : List Byte) (a : Agreement), s.sec.agreements[i]? = some a → a.initiator = false →
    Yields (exec (.ka3 i msg) s) (fun t => t.sec.agreements = s.sec.agreements.eraseIdx i ∧ t.resp = .none ∧
      (if msg.length ≠ 512 ∨ a.at_ + 42000000000 < s.now ∨ s.peerSigned a.canton (fieldAt a.ka1 8 4) "JV-KA-I" (kaHash a.ka1 a.ka2 ++ (a.ka2.drop 1765).take 512) msg = false
        then OneEvent s t 0x0468 63 (if a.purpose = 1 then none else some a.canton) ∧ t.sec.linkSecrets = s.sec.linkSecrets ∧
          t.pairSecrets = s.pairSecrets ∧ t.sec.cantons = s.sec.cantons
        else t.events = s.events ∧
          (a.purpose = 1 → ∃ x, (fieldAt a.ka1 8 4, x) ∈ t.sec.linkSecrets) ∧ (a.purpose = 2 → ∃ x, (a.canton, fieldAt a.ka1 8 4, x) ∈ t.pairSecrets) ∧
          (a.purpose = 3 → (t.canton a.canton).hostKeys.isSome = true ∧ (t.canton a.canton).hostSeq = []) ∧
          (a.purpose = 4 → ∃ x, (fieldAt a.ka1 8 4 - 0x80000000, x) ∈ (t.canton a.canton).wraps)))) ∧
  (∀ (s : State) (i : Nat) (a : Agreement), s.sec.agreements[i]? = some a →
    (a.at_ + 42000000000 ≤ s.now → Yields (exec (.kaTimeout i) s) (fun t => t.sec = { s.sec with agreements := s.sec.agreements.eraseIdx i } ∧
      OneEvent s t 0x0468 63 (if a.purpose = 1 then none else some a.canton) ∧ t = { s with sec := t.sec, events := t.events })) ∧
    (s.now < a.at_ + 42000000000 → exec (.kaTimeout i) s = .next s)) ∧
  (∀ (s : State) (v : View) (k : Fin 8) (p : Fin 16), SecReady s v k → s.polState k = 1 → (p = 2 ∨ p = 3 ∨ p = 4) →
    Yields (exec (.secKagree v k (.start p)) s) (fun t => SecDone t ∧ ∃ a, t.sec.agreements = s.sec.agreements ++ [a] ∧ a.purpose = p.val ∧ a.canton = k.val ∧
      a.initiator = true ∧ a.at_ = s.now ∧ a.ka1.length = 1709 ∧ t.buf 0 1709 = a.ka1)) ∧
  (∀ (s : State) (v : View) (k : Fin 8), SecReady s v k →
    (fieldAt (s.buf 0 1709) 2 1 = k.val → s.admitsKa (fieldAt (s.buf 0 1709) 1 1) k = true →
      Yields (exec (.secKagree v k .one) s) (fun t => t.sec.agreements = (s.kaOne (s.buf 0 1709)).1.sec.agreements ∧
        (match (s.kaOne (s.buf 0 1709)).2 with | some b => SecDone t ∧ t.buf 0 b.length = b | none => SecRefused t 3))) ∧
    (∀ i, s.kaOf k true = some i → Yields (exec (.secKagree v k .two) s) (fun t => t.sec.agreements = (s.kaTwo i (s.buf 0 2277)).1.sec.agreements ∧
      (match (s.kaTwo i (s.buf 0 2277)).2 with | some b => SecDone t ∧ t.buf 0 b.length = b | none => SecRefused t 1))) ∧
    (∀ i, s.kaOf k false = some i → Yields (exec (.secKagree v k .three) s) (fun t => t.sec = (s.kaThree i (s.buf 0 512)).1.sec ∧
      (if (s.kaThree i (s.buf 0 512)).2 then SecDone t else SecRefused t 1)))) ∧
  (∀ (s : State) (v : View) (k : Fin 8) (p n : Nat) (w : List Byte), SecReady s v k → s.polState k = 1 →
    fieldAt (s.buf 0 4) 0 1 = p → fieldAt (s.buf 0 4) 1 1 = n → ((s.canton k).wraps.find? (fun x => x.1 == p)) = some (p, w) →
    Yields (exec (.secDatakey v k) s) (fun t =>
      (∀ (keys : List (Nat × List Byte)) (all : List DataKey), ((List.range n).map (fun i => unwrapKey w (s.buf (4 + 52 * i) 52))) = keys.map some →
        (s.canton k).dataKeys.filter (fun y => !keys.any (fun x => x.1 == y.keyId)) ++ keys.map (fun x => (⟨p, x.1, x.2⟩ : DataKey)) = all →
        ((∃ x ∈ keys, ∃ y ∈ (s.canton k).dataKeys, y.keyId = x.1 ∧ y.party ≠ p) → SecRefused t 2 ∧ t.sec = s.sec) ∧
        ((∀ x ∈ keys, ∀ y ∈ (s.canton k).dataKeys, y.keyId = x.1 → y.party = p) →
          (8 < (all.filter (fun y => y.party == p)).length ∨ 64 < all.length → SecRefused t 4 ∧ t.sec = s.sec) ∧
          ((all.filter (fun y => y.party == p)).length ≤ 8 → all.length ≤ 64 → SecDone t ∧ (t.canton k).dataKeys = all))) ∧
      ((∃ i, i < n ∧ unwrapKey w (s.buf (4 + 52 * i) 52) = none) → SecRefused t 1 ∧ t.sec = s.sec))) ∧
  (∀ (s : State) (k : Fin 8) (id : BitVec 32) (sig : List Byte) (d : DataKey) (p : Party), (s.canton k).dataKeys.find? (fun y => y.keyId == id.toNat) = some d →
    (s.canton k).party? d.party = some p →
    Yields (exec (.datakeyWithdraw k id sig) s) (fun t => if pssOk p.modulus "JV-WDR" (leBytes 4 (s.jobs.getD k 0) ++ leBytes 4 id.toNat) sig
      then (∀ y, y ∈ (t.canton k).dataKeys ↔ y ∈ (s.canton k).dataKeys ∧ y.keyId ≠ id.toNat) ∧ t = { s with sec := t.sec }
      else OneEvent s t 0x0467 63 (some k.val) ∧ t = { s with events := t.events })) ∧
  (∀ (s : State) (k : Fin 8) (src dst len : Nat) (h : List Byte) (d : DataKey), s.bytes src 32 = h → fieldAt h 16 4 = len → s.polState k = 1 →
    (s.canton k).dataKeys.find? (fun y => y.keyId == fieldAt h 4 4) = some d →
    (d.party = fieldAt h 0 1 → 1 ≤ len → len ≤ 16777216 → s.inSlice k src 32 = true → s.inSlice k src (48 + len) = true → s.inSlice k dst len = true →
      s.readable src 32 = true → s.readable src (48 + len) = true →
      Yields (exec (.partyRecordDecrypt k src dst) s) (fun t =>
        (∀ plain : List Byte, gcmOpen d.key ((h.drop 4).take 12) h (s.bytes (src + 32) (len + 16)) = some plain →
          t = { s.mpaWrite 62 dst plain with resp := .code d.party }) ∧
        (gcmOpen d.key ((h.drop 4).take 12) h (s.bytes (src + 32) (len + 16)) = none →
          OneEvent s t 0x146A 62 (some k.val) ∧ SameMem s t ∧ t = { s with events := t.events, resp := t.resp }))) ∧
    (d.party ≠ fieldAt h 0 1 → Yields (exec (.partyRecordDecrypt k src dst) s) (fun t => t.resp = .busError ∧ t = { s with resp := t.resp })))

/-- CKPT keys and envelopes, shares against the KCV, releases by RELEASE_K parties, consent by all and withdrawal by
one (rests on R421, R422, R425, R426, R427, R428, R432, R440, R441). CKPT loads a fresh key into the slot and puts an
envelope (header with RESUME_K, shares, job, step, OWNER) into SEC_BUF. RESUME of an envelope of the canton's job with
a good signature begins to gather its shares; a bad signature gives code 1 and 0x0467. A share of a party that the
envelope does not name is refused with code 2, one that fails its tag with code 1. With the last share needed the key
is loaded, rebuilt where the envelope is for RESUME_K parties, with 0x0065 where it meets the KCV; otherwise every
share is discarded with 0x046A. RELEASE with a fresh REQID, fewer than 4 authorisations and valid signatures holds the
authorisation with its ranges and steps and raises 0x0064; with a failed check it gives code 1 and 0x0467. KEYDROP
ends the slot's key, authorisation and gathering. A consent record of the current SEQ makes effective the bits that
every party's records carry, with 0x0061, 0x0060 and SEQ raised; an old SEQ gives code 2. One party's withdrawal
clears its bits with 0x0062, and ends a debug session for DBGCONN (stated where no scan has opened a canton: such a
canton goes to SCRUBBING). -/
def Obligations.CheckpointsReleasesAndConsent : Prop :=
(∀ (s : State) (v : View) (k : Fin 8) (slot : Fin 16) (m : Manifest) (o : Nat) (ps : List Party), SecReady s v k → s.polState k = 1 →
    (s.canton k).manifest = some m → m.parties.length ≤ 32 → m.resumeK < 256 → fieldAt (s.buf 0 8) 0 1 = o →
    ps = (if o = 0xFF then m.parties else m.parties.filter (fun p => p.id == o)) →
    (ps ≠ [] → Yields (exec (.secCkpt v k slot) s) (fun t => SecDone t ∧ t.events = s.events ∧ SameMem s t ∧
      (∃ key, key.length = 32 ∧ (k.val, slot.val, key) ∈ t.keySlots ∧ (t.buf 32 16) = kcvOf key) ∧
      fieldAt (t.buf 0 96) 0 2 = 1 ∧ fieldAt (t.buf 0 96) 2 1 = m.resumeK ∧ fieldAt (t.buf 0 96) 3 1 = ps.length ∧
      fieldAt (t.buf 0 96) 4 4 = s.jobs.getD k 0 % 2 ^ 32 ∧ fieldAt (t.buf 0 96) 16 4 = fieldAt (s.buf 0 8) 4 4 ∧ fieldAt (t.buf 0 96) 20 1 = o)) ∧
    (ps = [] → Yields (exec (.secCkpt v k slot) s) (fun t => SecRefused t 3 ∧ t.sec = s.sec ∧ t.keySlots = s.keySlots))) ∧
  (∀ (s : State) (v : View) (k : Fin 8) (slot : Fin 16) (n : Nat), SecReady s v k → s.polState k = 1 → fieldAt (s.buf 0 96) 4 4 = s.jobs.getD k 0 →
    fieldAt (s.buf 0 96) 0 2 = 1 → fieldAt (s.buf 0 96) 3 1 = n → n ≠ 0 → fieldAt (s.buf 0 96) 2 1 ≠ 0 → zeroAt (s.buf 0 96) 21 11 = true → zeroAt (s.buf 0 96) 48 48 = true →
    Yields (exec (.secResume v k slot) s) (fun t =>
      if Config.verify "ENSIGN" (sha512 (label "JV-CKE" ++ s.buf 0 (96 + 1713 * n)) ++ s.buf (96 + 1713 * n) 512)
      then SecDone t ∧ t.events = s.events ∧ ∃ g ∈ (t.canton k).gathers, g.slot = slot.val ∧ g.ckpt = fieldAt (s.buf 0 96) 8 8 ∧ g.owner = fieldAt (s.buf 0 96) 20 1 ∧
        g.need = (if fieldAt (s.buf 0 96) 20 1 = 0xFF then fieldAt (s.buf 0 96) 2 1 else 1) ∧ g.kcv = ((s.buf 0 96).drop 32).take 16 ∧ g.shares = []
      else SecRefused t 1 ∧ OneEvent s t 0x0467 63 (some k.val) ∧ t.sec = s.sec)) ∧
  (∀ (s : State) (v : View) (k : Fin 8) (g : Gather) (p : Nat) (w : List Byte), SecReady s v k → s.polState k = 1 → fieldAt (s.buf 0 60) 8 1 = p →
    (s.canton k).gathers.find? (fun g => g.ckpt == fieldAt (s.buf 0 60) 0 8) = some g → (s.canton k).wraps.find? (fun x => x.1 == p) = some (p, w) →
    (g.owner = 0xFF ∨ g.owner = p → Yields (exec (.secShare v k) s) (fun t =>
      (gcmOpen w ((s.buf 0 60).take 8 ++ [0, 0, 0, 0]) [] (((s.buf 0 60).drop 12).take 48) = none → SecRefused t 1 ∧ t.sec = s.sec) ∧
      (∀ (share key : List Byte) (shares : List (Nat × List Byte)),
        gcmOpen w ((s.buf 0 60).take 8 ++ [0, 0, 0, 0]) [] (((s.buf 0 60).drop 12).take 48) = some share →
        g.shares.filter (fun x => x.1 != p + 1) ++ [(p + 1, share)] = shares → key = (if g.owner = 0xFF then rebuild shares else share) →
        SecDone t ∧
        (if shares.length < g.need then t.events = s.events ∧ t.keySlots = s.keySlots ∧ { g with shares := shares } ∈ (t.canton k).gathers
         else if kcvOf key = g.kcv then OneEvent s t 0x0065 63 (some k.val) ∧ (k.val, g.slot, key) ∈ t.keySlots ∧
          (∀ x ∈ (t.canton k).gathers, x.slot ≠ g.slot)
         else OneEvent s t 0x046A 63 (some k.val) ∧ t.keySlots = s.keySlots ∧ (∀ x ∈ (t.canton k).gathers, x.slot = g.slot → x.shares = []))))) ∧
    (g.owner ≠ 0xFF → g.owner ≠ p → Yields (exec (.secShare v k) s) (fun t => SecRefused t 2 ∧ t.sec = s.sec ∧ t.keySlots = s.keySlots))) ∧
  (∀ (s : State) (v : View) (k : Fin 8) (slot : Fin 16) (n : Nat) (h b : List Byte) (m : Manifest), SecReady s v k → s.polState k = 1 → (s.canton k).manifest = some m →
    s.buf 0 96 = h → fieldAt h 2 2 = n → s.buf 0 (96 + 8 * n + 97 + 1568) = b → fieldAt h 4 4 = s.jobs.getD k 0 → (s.canton k).reqIds.contains (fieldAt h 8 8) = false →
    fieldAt h 0 2 = 1 → 1 ≤ n → n ≤ 64 → zeroAt h 88 8 = true → (∀ i, i < n → zeroAt b (103 + 8 * i) 1 = true) →
    (s.releases.filter (fun r => r.canton == k.val)).length < 4 →
    Yields (exec (.secRelease v k slot) s) (fun t =>
      if m.releaseK ≤ (s.releaseSigners k (96 + 8 * n + 97 + 1568) b).length ∧
          (∀ i, i < n → (releaseRange b i).2.1 = 0xFF ∨ (releaseRange b i).2.1 ∈ s.releaseSigners k (96 + 8 * n + 97 + 1568) b) ∧
          sha512 ((b.drop (96 + 8 * n)).take 1665) = (h.drop 24).take 64
      then SecDone t ∧ OneEvent s t 0x0064 63 (some k.val) ∧ (∃ key, (k.val, slot.val, key) ∈ t.keySlots) ∧ fieldAt h 8 8 ∈ (t.canton k).reqIds ∧
        ∃ r, t.releases = r :: s.releases ∧ r.canton = k.val ∧ r.slot = slot.val ∧ r.job = s.jobs.getD k 0 ∧ r.fromStep = fieldAt h 16 4 ∧ r.untilStep = fieldAt h 20 4 ∧
          r.ranges = (List.range n).map (fun i => ((releaseRange b i).1, (releaseRange b i).2.2))
      else SecRefused t 1 ∧ OneEvent s t 0x0467 63 (some k.val) ∧ t.releases = s.releases ∧ t.keySlots = s.keySlots)) ∧
  (∀ (s : State) (v : View) (k : Fin 8) (slot : Fin 16), SecReady s v k →
    (s.polState k = 1 → Yields (exec (.secKeydrop v k slot) s) (fun t => SecDone t ∧ (∀ x, x ∈ t.keySlots ↔ x ∈ s.keySlots ∧ ¬ (x.1 = k.val ∧ x.2.1 = slot.val)) ∧
      (∀ r, r ∈ t.releases ↔ r ∈ s.releases ∧ ¬ (r.canton = k.val ∧ r.slot = slot.val)) ∧ (∀ g ∈ (t.canton k).gathers, g.slot ≠ slot.val) ∧ SameMem s t)) ∧
    (s.polState k ≠ 1 → Yields (exec (.secKeydrop v k slot) s) (fun t => SecRefused t 2 ∧ t.keySlots = s.keySlots ∧ t.releases = s.releases ∧ t.sec = s.sec))) ∧
  (∀ (s : State) (v : View) (k : Fin 8) (p : Party) (bits : Nat), SecReady s v k → s.polState k = 1 → (s.canton k).party? (fieldAt (s.buf 0 520) 0 1) = some p →
    fieldAt (s.buf 0 520) 1 1 = bits → bits < 32 → fieldAt (s.buf 0 520) 2 2 = 0 →
    (fieldAt (s.buf 0 520) 4 4 = (s.rd (R.CPOL_SEQ k)).toNat →
      Yields (exec (.secConsent v k) s) (fun t => if pssOk p.modulus "JV-CON" (s.consentText k bits) (((s.buf 0 520).drop 8).take 512)
        then SecDone t ∧ ∃ all, all = (s.canton k).parties.foldl (fun a q => a &&& ({ s.canton k with consents := (p.id, bits) :: (s.canton k).consents } : CantonSec).bitsOf q.id) 31 ∧
          (all ||| s.consent k = s.consent k → t.consent k = s.consent k ∧ (p.id, bits) ∈ (t.canton k).consents ∧ t.events = s.events) ∧
          (all ||| s.consent k ≠ s.consent k → t.consent k = all ||| s.consent k ∧ (t.canton k).consents = [] ∧
            (t.rd (R.CPOL_SEQ k)).toNat = ((s.rd (R.CPOL_SEQ k)).toNat + 1) % 2 ^ 32 ∧
            ∃ e f : Event, t.events = s.events ++ [e, f] ∧ e.code = 0x0061 ∧ f.code = 0x0060)
        else SecRefused t 1 ∧ OneEvent s t 0x0467 63 (some k.val) ∧ t.consent k = s.consent k)) ∧
    (fieldAt (s.buf 0 520) 4 4 ≠ (s.rd (R.CPOL_SEQ k)).toNat → Yields (exec (.secConsent v k) s) (fun t => SecRefused t 2 ∧ t.sec = s.sec ∧ t.consent k = s.consent k))) ∧
  (∀ (s : State) (k : Fin 8) (party : Nat) (bits : BitVec 8) (sig : List Byte) (p : Party), s.polState k = 1 → (s.canton k).party? party = some p →
    (bits.getLsbD 3 = true → s.sec.scanned = []) →
    Yields (exec (.consentWithdraw k party bits sig) s) (fun t => if pssOk p.modulus "JV-WDC" (s.consentText k bits.toNat) sig
      then t.consent k = s.consent k &&& (255 - bits.toNat) ∧ (s.consent k &&& bits.toNat = 0 → t = s) ∧
        (s.consent k &&& bits.toNat ≠ 0 → (t.rd (R.CPOL_SEQ k)).toNat = ((s.rd (R.CPOL_SEQ k)).toNat + 1) % 2 ^ 32 ∧
          (∃ e f : Event, t.events = s.events ++ [e, f] ∧ e.code = 0x0062 ∧ f.code = 0x0060) ∧
          (bits.getLsbD 3 = true → t.flag R.SEC_STATUS F.SEC_STATUS_DBGCONN = false ∧ t.sec.tap = .bypass))
      else t.consent k = s.consent k ∧ OneEvent s t 0x0467 63 (some k.val) ∧ t = { s with events := t.events }))

/-- The TAP acts only as consent and the canton states allow; before a scan opens, keys and stores of its dies are
gone (rests on R431, R433, R435, R440, R541). BYPASS and IDCODE are always in force, IDCODE answering stepping, part
0xA640 and 0x76B. A boundary instruction is in force only with the debug connector and every canton FREE, an internal
scan only with it and SCAN consent of each ASSIGNED canton concerned (of all for a shared die); otherwise BYPASS.
Enabling a scan destroys the keys of each canton with a die on the chain (of every canton for a shared die), zeroises
its compute dies, erases the identity where the trust die is on it, sets SCANNED and raises 0x0469. The cantons that a
scan opened are SCRUBBING when it ends. DBGCONN is set by a probe only with DBGCONN consent of every ASSIGNED canton,
and clears when it is removed. An IDE failure clears IDE, stops every ring that runs, and raises 0x1463. -/
def Obligations.ScanAndDebugOpenOnlyUnderConsent : Prop :=
(∀ (s : State), (∀ ds : List (Fin 64), s.sec.tap ≠ .scan ds) →
    Yields (exec (.tapInstruction .bypass) s) (fun t => t.sec = { s.sec with tap := .bypass } ∧ t = { s with sec := t.sec }) ∧
    Yields (exec (.tapInstruction .idcode) s) (fun t => t.sec = { s.sec with tap := .idcode } ∧
      t.resp = .value (BitVec.ofNat 32 (Config.stepping.toNat * 2 ^ 28 + 0xA640 * 2 ^ 12 + 0x76B)) ∧ t = { s with sec := t.sec, resp := t.resp }) ∧
    (∀ i ∈ [TapInstr.samplePreload, .extest, .clamp, .highz], Yields (exec (.tapInstruction i) s) (fun t => t = { s with sec := t.sec } ∧
      t.sec = { s.sec with tap := if s.flag R.SEC_STATUS F.SEC_STATUS_DBGCONN = true ∧ (∀ k, k < s.cantons → s.polState k = 0) then i else .bypass })) ∧
    (∀ ds : List (Fin 64), Yields (exec (.tapInstruction (.scan ds)) s) (fun t => t = { s with sec := t.sec } ∧
      (t.sec.tap = .scan ds ∨ t.sec.tap = .bypass) ∧
      (t.sec.tap = .scan ds ↔ s.flag R.SEC_STATUS F.SEC_STATUS_DBGCONN = true ∧ ∀ d ∈ ds, match s.dieCanton d with
        | some k => s.polState k = 1 → (s.consent k).testBit 0 = true
        | none => ∀ k, k < s.cantons → s.polState k = 1 → (s.consent k).testBit 0 = true)))) ∧
  (∀ (s : State) (ds : List (Fin 64)), s.sec.tap = .scan ds → (∀ k ∈ s.sec.scanned, k < 8) →
    (∀ i : TapInstr, Yields (exec (.tapInstruction i) s) (fun t => t.sec.scanned = [] ∧ ∀ k ∈ s.sec.scanned, t.polState k = 2 ∧ t.get (R.SCRUB_STATUS k) F.SCRUB_STATUS_STEP = 1)) ∧
    Yields (exec .debugProbeRemove s) (fun t => t.sec.scanned = [] ∧ t.sec.tap = .bypass ∧ t.sec.probe = false ∧ t.flag R.SEC_STATUS F.SEC_STATUS_DBGCONN = false ∧
      ∀ k ∈ s.sec.scanned, t.polState k = 2 ∧ t.get (R.SCRUB_STATUS k) F.SCRUB_STATUS_STEP = 1)) ∧
  (∀ (s : State) (ds : List (Fin 64)), s.sec.tap = .scan ds →
    Yields (exec .scanEnable s) (fun t => t.flag R.SEC_STATUS F.SEC_STATUS_SCANNED = true ∧ OneEvent s t 0x0469 63 none ∧
      (∀ k, k < s.cantons → ((∃ d ∈ ds, s.dieCanton d = some k) ∨ (∃ d ∈ ds, 56 ≤ d.val)) →
        (∀ x ∈ t.keySlots, x.1 ≠ k) ∧ (∀ r ∈ t.releases, r.canton ≠ k) ∧ t.canton k = { CantonSec.reset with scrubAt := (s.canton k).scrubAt } ∧
        (∀ m ∈ s.cantonMds k, (t.eng (fin16 m)).keys = none)) ∧
      (∀ d ∈ ds, d.val < 40 → ∀ i, i < lsBytes → t.byte (lsBase (fin40 d.val) + i) = 0) ∧
      ((∃ d ∈ ds, d.val = 63) → t.sec.identity = none ∧ t.flag R.SEC_STATUS F.SEC_STATUS_IDOK = false ∧ t.sec.pufLocked = true))) ∧
  (∀ (s : State), Yields (exec .debugProbeInsert s) (fun t => t.sec = { s.sec with probe := true } ∧
    t.flag R.SEC_STATUS F.SEC_STATUS_DBGCONN = (s.flag R.SEC_STATUS F.SEC_STATUS_DBGCONN ||
      decide (∀ k, k < s.cantons → s.polState k = 1 → (s.consent k).testBit 3 = true)) ∧ OnlyRegs [R.SEC_STATUS] s t ∧ t = { s with sec := t.sec, regs := t.regs })) ∧
  (∀ (s : State), (∀ ds : List (Fin 64), s.sec.tap ≠ .scan ds) → Yields (exec .debugProbeRemove s) (fun t => t.sec = { s.sec with probe := false, tap := .bypass } ∧
    t.flag R.SEC_STATUS F.SEC_STATUS_DBGCONN = false ∧ OnlyRegs [R.SEC_STATUS] s t ∧ t = { s with sec := t.sec, regs := t.regs })) ∧
  (∀ (s : State), Yields (exec .ideIntegrityFailure s) (fun t => t.flag R.SEC_STATUS F.SEC_STATUS_IDE = false ∧ OneEvent s t 0x1463 62 none ∧ t.host.rings = [] ∧
    (∀ k g, k < 8 → g < 16 → t.get (R.HI_RING_CTL k g) F.HI_RING_CTL_STATE = (if s.get (R.HI_RING_CTL k g) F.HI_RING_CTL_STATE = 1 then 2
      else s.get (R.HI_RING_CTL k g) F.HI_RING_CTL_STATE)) ∧ SameMem s t))

/-- The host link trains by its lanes, resets clear host-written fields, vectors pend while masked, mailboxes
overwrite (rests on R442, R443, R444, R447, R448, R457, R458, R465, R466, R500). A training with no excluded lane, or
excluded lanes of one half only, brings the link up: ×16 or ×8, reversed for lanes 0-7, in the mode and rate found,
counted, with 0x1067; with lanes excluded in both halves MODE is 0, with 0x1268; without power or a working die it
stays down. An up link that goes down raises 0x1268. PERST# and a function-level reset disable every region, ring and
event ring of the host fields, without touching memory; PERST# takes the link down. Snoops are answered with a miss; a
bad BAR0 access is aborted with 0x1269, a good one does nothing. Unmasking a vector delivers what pended, once.
Writing HOSTTIME_HI sets the time. A mailbox message replaces the old one, sets OVR if that was unread, and interrupts
the canton's dies or raises vector 2 + k; a read answers the word and clears FULL. Vector 0 follows owed records after
the hold-off. -/
def Obligations.HostLinkInterruptsAndMailboxes : Prop :=
(∀ (s : State) (r : HostTrain), s.hostLost = false → s.dark = false →
    (¬ (r.bad.toNat % 256 ≠ 0 ∧ r.bad.toNat / 256 ≠ 0) →
      Yields (exec (.hostLinkTrain r) s) (fun t => t.get R.HI_LINK F.HI_LINK_MODE = (if r.cxl then 1 else 2) ∧
        t.flag R.HI_LINK F.HI_LINK_X8 = decide (r.bad.toNat ≠ 0) ∧ t.flag R.HI_LINK F.HI_LINK_REV = decide (r.bad.toNat % 256 ≠ 0) ∧
        t.flag R.HI_LINK F.HI_LINK_R32 = r.r32 ∧
        t.get R.HI_LINK F.HI_LINK_TRAINS = satN (2 ^ (F.HI_LINK_TRAINS.1 + 1 - F.HI_LINK_TRAINS.2) - 1) (s.get R.HI_LINK F.HI_LINK_TRAINS + 1) ∧ (∃ e : Event, t.events = s.events ++ [e] ∧ e.code = 0x1067 ∧ e.die = 62) ∧
        OnlyRegs [R.HI_LINK] s t ∧ t = { s with regs := t.regs, events := t.events })) ∧
    (r.bad.toNat % 256 ≠ 0 → r.bad.toNat / 256 ≠ 0 →
      Yields (exec (.hostLinkTrain r) s) (fun t => t.get R.HI_LINK F.HI_LINK_MODE = 0 ∧ OneEvent s t 0x1268 62 none ∧ OnlyRegs [R.HI_LINK] s t))) ∧
  (∀ (s : State) (r : HostTrain), (s.hostLost = true ∨ s.dark = true) →
    Yields (exec (.hostLinkTrain r) s) (fun t => t.get R.HI_LINK F.HI_LINK_MODE = 0 ∧ OnlyRegs [R.HI_LINK] s t ∧ t = { s with regs := t.regs })) ∧
  (∀ (s : State), s.get R.HI_LINK F.HI_LINK_MODE = 0 → exec .hostLinkDown s = .next s) ∧
  (∀ (s : State), s.get R.HI_LINK F.HI_LINK_MODE ≠ 0 →
    Yields (exec .hostLinkDown s) (fun t => t.get R.HI_LINK F.HI_LINK_MODE = 0 ∧ OneEvent s t 0x1268 62 none ∧ OnlyRegs [R.HI_LINK] s t ∧
      t = { s with regs := t.regs, events := t.events })) ∧
  (∀ (s : State), Inv s → ∀ c ∈ [Instr.perstAssert, .functionLevelReset], Yields (exec c s) (fun t =>
    (∀ k r, k < 8 → r < 16 → t.flag (R.HI_RGN_LO k r) F.HI_RGN_LO_EN = false) ∧ t.host.time = none ∧ t.flag R.HI_EVQ_CTL F.HI_EVQ_CTL_EN = false ∧
    (∀ x ∈ t.host.rings, ∀ j ∈ x.2, j.status ≠ 1 ∨ s.flag (R.HI_RGN_LO x.1.1 j.region) F.HI_RGN_LO_EN = false) ∧
    t.get R.HI_LINK F.HI_LINK_MODE = (if c = .perstAssert then 0 else s.get R.HI_LINK F.HI_LINK_MODE) ∧ t = { s with regs := t.regs, host := t.host })) ∧
  (∀ (s : State) (a n : Nat), Yields (exec (.hostSnoop a) s) (fun t => t = { s with resp := .miss }) ∧
    ((n = 4 ∨ n = 8) → a % n = 0 → exec (.bar0BadAccess a n) s = .next s) ∧
    (((n ≠ 4 ∧ n ≠ 8) ∨ a % n ≠ 0) → Yields (exec (.bar0BadAccess a n) s) (fun t => OneEvent s t 0x1269 62 none ∧ t.resp = .busError ∧
      t = { s with events := t.events, resp := t.resp }))) ∧
  (∀ (s : State) (v : Fin 64), Yields (exec (.msixVectorUnmask v) s) (fun t => t.host.masked.getLsbD v.val = false ∧ t.host.waiting.getLsbD v.val = false ∧
    (∀ w : Fin 64, w ≠ v → t.host.masked.getLsbD w.val = s.host.masked.getLsbD w.val ∧ t.host.waiting.getLsbD w.val = s.host.waiting.getLsbD w.val) ∧
    t.host.irqs = s.host.irqs ++ (if s.host.waiting.getLsbD v.val then [v.val] else []) ∧ t = { s with host := t.host })) ∧
  (∀ (s : State) (x : W32), Yields (exec (.hosttimeWrite x) s) (fun t =>
    t.host.time = some ((s.rd R.HI_HOSTTIME_LO).toNat + 2 ^ 32 * x.toNat, s.now) ∧ t.rd R.HI_HOSTTIME_HI = x ∧ OnlyRegs [R.HI_HOSTTIME_HI] s t ∧
    t = { s with regs := t.regs, host := t.host })) ∧
  (∀ (s : State) (k : Fin 8) (x : W32),
    Yields (exec (.mboxToWrite k x) s) (fun t => t.rd (R.HI_MBOX_TO_HI k) = x ∧ t.flag (R.HI_MBOX_STAT k) F.HI_MBOX_STAT_TOFULL = true ∧
      t.flag (R.HI_MBOX_STAT k) F.HI_MBOX_STAT_OVR = (s.flag (R.HI_MBOX_STAT k) F.HI_MBOX_STAT_OVR || s.flag (R.HI_MBOX_STAT k) F.HI_MBOX_STAT_TOFULL) ∧
      (∀ d ∈ s.cantonCds k, (t.cd (fin40 d)).coreIrq = true) ∧ OnlyRegs [R.HI_MBOX_TO_HI k, R.HI_MBOX_STAT k] s t ∧ t = { s with regs := t.regs, cds := t.cds }) ∧
    Yields (exec (.mboxFromWrite k x) s) (fun t => t.rd (R.HI_MBOX_FROM_HI k) = x ∧ t.flag (R.HI_MBOX_STAT k) F.HI_MBOX_STAT_FROMFULL = true ∧
      t.flag (R.HI_MBOX_STAT k) F.HI_MBOX_STAT_OVR = (s.flag (R.HI_MBOX_STAT k) F.HI_MBOX_STAT_OVR || s.flag (R.HI_MBOX_STAT k) F.HI_MBOX_STAT_FROMFULL) ∧
      (if s.host.masked.getLsbD (2 + k.val) then t.host.waiting.getLsbD (2 + k.val) = true ∧ t.host.irqs = s.host.irqs
        else t.host.irqs = s.host.irqs ++ [2 + k.val] ∧ t.host.waiting = s.host.waiting) ∧
      OnlyRegs [R.HI_MBOX_FROM_HI k, R.HI_MBOX_STAT k] s t ∧ t = { s with regs := t.regs, host := t.host }) ∧
    Yields (exec (.mboxToRead k) s) (fun t => t.resp = .value (s.rd (R.HI_MBOX_TO_HI k)) ∧ t.flag (R.HI_MBOX_STAT k) F.HI_MBOX_STAT_TOFULL = false ∧
      OnlyRegs [R.HI_MBOX_STAT k] s t ∧ t = { s with regs := t.regs, resp := t.resp }) ∧
    Yields (exec (.mboxFromRead k) s) (fun t => t.resp = .value (s.rd (R.HI_MBOX_FROM_HI k)) ∧ t.flag (R.HI_MBOX_STAT k) F.HI_MBOX_STAT_FROMFULL = false ∧
      OnlyRegs [R.HI_MBOX_STAT k] s t ∧ t = { s with regs := t.regs, resp := t.resp })) ∧
  (∀ (s : State), (s.host.owed = false ∨ (∃ u, s.host.irqAt = some u ∧ s.now < u + s.holdoff)) → exec .eventRingHoldoffExpire s = .next s) ∧
  (∀ (s : State), s.host.owed = true → (∀ u, s.host.irqAt = some u → u + s.holdoff ≤ s.now) →
    Yields (exec .eventRingHoldoffExpire s) (fun t => t = { s with host := t.host } ∧
      t.host = (if s.host.masked.getLsbD 0 then { s.host with irqAt := some s.now, owed := false, waiting := s.host.waiting ||| 1 }
        else { s.host with irqAt := some s.now, owed := false, irqs := s.host.irqs ++ [0] })))

/-- A ring starts up to four descriptors in order, moves one record each, and stops at the first that fails (rests on
R429, R430, R450, R451, R453, R454). A ring of a canton with host-path keys that takes work is enabled into RUN;
disabling an idle one returns it to IDLE. A running ring starts the descriptor after those in progress, if there are
fewer than four and none has failed: into the module, a record whose header, SEQ and tag hold is decrypted to memory
and counted; from the module, the data is sealed into the region at HOFF with the next SEQ; otherwise the descriptor
carries STATUS 5 (region), 4 (header), 3 (SEQ), 2 (tag). A completed descriptor writes STATUS 1 and SEQ, advances HEAD
and leaves the queue once its writes are acknowledged; one whose write failed, or a failed one, writes its STATUS,
stops the ring and raises the event. RESTART runs it again; ABORT discards all and sets HEAD to TAIL. A region no
descriptor names is disabled at once, another when its descriptors complete. -/
def Obligations.RingsMoveHostRecordsInOrder : Prop :=
(∀ (s : State) (k : Fin 8) (g : Fin 16),
    ((s.canton k).hostKeys.isSome = true → s.takesWork k = true → s.flag (R.HI_RING_CTL k g) F.HI_RING_CTL_EN = false →
      Yields (exec (.ringEnable k g) s) (fun t => t.flag (R.HI_RING_CTL k g) F.HI_RING_CTL_EN = true ∧ t.ringState k g = 1 ∧
        OnlyRegs [R.HI_RING_CTL k g] s t ∧ t = { s with regs := t.regs })) ∧
    ((s.canton k).hostKeys = none → exec (.ringEnable k g) s = .next s) ∧
    Yields (exec (.ringDisable k g) s) (fun t => t.flag (R.HI_RING_CTL k g) F.HI_RING_CTL_EN = false ∧
      t.ringState k g = (if s.jobsOf k g = [] then 0 else s.ringState k g) ∧ OnlyRegs [R.HI_RING_CTL k g] s t ∧ t = { s with regs := t.regs })) ∧
  (∀ (s : State) (k : Fin 8) (g : Fin 16) (host : Option (List Byte)) (a idx : Nat) (desc : List Byte) (dir len r : Nat), s.ringState k g = 1 →
    s.flag (R.HI_RING_CTL k g) F.HI_RING_CTL_EN = true → s.takesWork k = true → (s.canton k).hostKeys.isSome = true → (s.canton k).spent = false →
    idx = (s.ringHead k g + (s.jobsOf k g).length) % 65536 → idx ≠ s.ringTail k g → (s.jobsOf k g).length < 4 → (∀ j ∈ s.jobsOf k g, j.status = 1) →
    s.ringDescAt k g idx = a → s.checkRange (.hdma (fin8 k.val)) false a 64 = .ok → s.readable a 64 = true → s.bytes a 64 = desc →
    bitsN (fieldAt desc 21 1) 0 0 = dir → fieldAt desc 16 4 = len → bitsN (fieldAt desc 20 1) 3 0 = r →
    ((s.flag (R.HI_RGN_LO k r) F.HI_RGN_LO_EN = false ∨ s.flag (R.HI_RGN_LO k r) (if dir = 0 then F.HI_RGN_LO_TOMOD else F.HI_RGN_LO_TOHOST) = false ∨
        fieldAt desc 8 8 % 16 ≠ 0 ∨ len < 1 ∨ 1048576 < len ∨ s.get (R.HI_RGN_SIZE k r) F.HI_RGN_SIZE_PAGES * 4096 < fieldAt desc 8 8 + len + 48) →
      Yields (exec (.ringDescriptorStart k g host) s) (fun t => (∃ j : RingJob, t.jobsOf k g = s.jobsOf k g ++ [j] ∧ j.idx = idx ∧ j.status = 5) ∧ SameMem s t ∧
        t.host.writes = s.host.writes ∧ t.sec = s.sec)) ∧
    (s.flag (R.HI_RGN_LO k r) F.HI_RGN_LO_EN = true → s.flag (R.HI_RGN_LO k r) (if dir = 0 then F.HI_RGN_LO_TOMOD else F.HI_RGN_LO_TOHOST) = true →
        fieldAt desc 8 8 % 16 = 0 → 1 ≤ len → len ≤ 1048576 → fieldAt desc 8 8 + len + 48 ≤ s.get (R.HI_RGN_SIZE k r) F.HI_RGN_SIZE_PAGES * 4096 →
      (∀ (bytes : List Byte) (keys : List Byte × List Byte), host = some bytes → dir = 0 → (s.canton k).hostKeys = some keys → s.checkRange (.hdma (fin8 k.val)) true (fieldAt desc 0 6) len = .ok →
        Yields (exec (.ringDescriptorStart k g host) s) (fun t => ∃ j : RingJob, t.jobsOf k g = s.jobsOf k g ++ [j] ∧ j.idx = idx ∧ j.desc = desc ∧
          ((fieldAt (bytes.take 32) 0 1 ≠ 0 ∨ fieldAt (bytes.take 32) 1 1 ≠ k.val ∨ fieldAt (bytes.take 32) 2 2 ≠ g.val ∨ fieldAt (bytes.take 32) 4 4 ≠ len) →
            j.status = 4 ∧ SameMem s t ∧ t.sec = s.sec) ∧
          (fieldAt (bytes.take 32) 0 1 = 0 → fieldAt (bytes.take 32) 1 1 = k.val → fieldAt (bytes.take 32) 2 2 = g.val → fieldAt (bytes.take 32) 4 4 = len →
            if fieldAt (bytes.take 32) 8 8 ≠ (s.canton k).seqOf g 0 then j.status = 3 ∧ SameMem s t ∧ t.sec = s.sec
            else match gcmOpen keys.1 (hostNonce (bytes.take 32)) (bytes.take 32) ((bytes.drop 32).take (len + 16)) with
              | none => j.status = 2 ∧ SameMem s t ∧ t.sec = s.sec
              | some plain => t.cds = (s.mpaWrite 62 (fieldAt desc 0 6) plain).cds ∧ t.mds = (s.mpaWrite 62 (fieldAt desc 0 6) plain).mds ∧
                  t.mem = (s.mpaWrite 62 (fieldAt desc 0 6) plain).mem ∧ j.status = 1 ∧ j.seq = (s.canton k).seqOf g 0 ∧ (t.canton k).seqOf g 0 = (s.canton k).seqOf g 0 + 1 ∧
                  (t.canton k).moved.1 = (s.canton k).moved.1 + 1))) ∧
      (∀ (bytes : List Byte) (keys : List Byte × List Byte), host = some bytes → dir = 1 → (s.canton k).hostKeys = some keys → s.checkRange (.hdma (fin8 k.val)) false (fieldAt desc 0 6) len = .ok →
        s.readable (fieldAt desc 0 6) len = true →
        Yields (exec (.ringDescriptorStart k g host) s) (fun t => (∃ j : RingJob, t.jobsOf k g = s.jobsOf k g ++ [j] ∧ j.idx = idx ∧ j.status = 1 ∧ j.seq = (s.canton k).seqOf g 1) ∧
          (t.canton k).seqOf g 1 = (s.canton k).seqOf g 1 + 1 ∧ SameMem s t ∧
          ∃ w, t.host.writes = s.host.writes ++ [w] ∧
            w.1 = s.get (R.HI_RGN_LO k r) F.HI_RGN_LO_ADDR * 4096 + (s.rd (R.HI_RGN_HI k r)).toNat * 2 ^ 32 + fieldAt desc 8 8 ∧
            w.2 = hostHeader 1 k g len ((s.canton k).seqOf g 1) ++ gcmSeal keys.2 (hostNonce (hostHeader 1 k g len ((s.canton k).seqOf g 1)))
              (hostHeader 1 k g len ((s.canton k).seqOf g 1)) (s.bytes (fieldAt desc 0 6) len))))) ∧
  (∀ (s : State) (k : Fin 8) (g : Fin 16) (j : RingJob) (rest : List RingJob), s.jobsOf k g = j :: rest →
    (j.status = 1 → bitsN (fieldAt j.desc 21 1) 0 0 = 0 → s.waitingAt 62 (fieldAt j.desc 0 6) (fieldAt j.desc 16 4) = true →
      exec (.ringDescriptorComplete k g) s = .next s) ∧
    (j.status = 1 → bitsN (fieldAt j.desc 21 1) 0 0 = 0 → s.waitingAt 62 (fieldAt j.desc 0 6) (fieldAt j.desc 16 4) = false →
        s.erred 62 (fieldAt j.desc 0 6) (fieldAt j.desc 16 4) = true →
      Yields (exec (.ringDescriptorComplete k g) s) (fun t => t.jobsOf k g = [] ∧ OneEvent s t 0x1265 62 (some k.val) ∧
        t.ringState k g = (if s.flag (R.HI_RING_CTL k g) F.HI_RING_CTL_EN then 2 else 0) ∧ t.ringHead k g = s.ringHead k g)) ∧
    (j.status = 1 → (bitsN (fieldAt j.desc 21 1) 0 0 = 0 → s.waitingAt 62 (fieldAt j.desc 0 6) (fieldAt j.desc 16 4) = false ∧
        s.erred 62 (fieldAt j.desc 0 6) (fieldAt j.desc 16 4) = false) →
      Yields (exec (.ringDescriptorComplete k g) s) (fun t => t.jobsOf k g = rest ∧ t.ringHead k g = (j.idx + 1) % 65536 ∧
        t.ringState k g = (if rest = [] ∧ s.flag (R.HI_RING_CTL k g) F.HI_RING_CTL_EN = false then 0 else s.ringState k g) ∧ t.sec = s.sec ∧
        (fieldAt j.desc 24 8 = 0 → t.events = s.events) ∧
        (∀ d off, fieldAt j.desc 24 8 = 0 → s.placeOf (s.ringDescAt k g j.idx + 48) = .cd d off → (s.cd (fin40 d)).coversWindow off 16 = false →
          t.num (s.ringDescAt k g j.idx + 48) 8 = 1 ∧ t.num (s.ringDescAt k g j.idx + 56) 8 = j.seq % 2 ^ 64 ∧
          MemOutside (s.ringDescAt k g j.idx + 48) 16 s t))) ∧
    (j.status ≠ 1 → Yields (exec (.ringDescriptorComplete k g) s) (fun t => t.jobsOf k g = [] ∧
      t.ringState k g = (if s.flag (R.HI_RING_CTL k g) F.HI_RING_CTL_EN then 2 else 0) ∧ t.ringHead k g = s.ringHead k g ∧
      ∃ e : Event, t.events = s.events ++ [e] ∧ e.canton = some k.val ∧ e.code = (if j.status = 2 then 0x1460 else if j.status = 3 then 0x1461 else if j.status = 4 then 0x1264 else 0x1265)))) ∧
  (∀ (s : State) (k : Fin 8) (g : Fin 16), (s.ringState k g = 2 →
      Yields (exec (.ringRestart k g) s) (fun t => t.ringState k g = (if s.flag (R.HI_RING_CTL k g) F.HI_RING_CTL_EN then 1 else 0) ∧ OnlyRegs [R.HI_RING_CTL k g] s t ∧ t = { s with regs := t.regs })) ∧
    Yields (exec (.ringAbort k g) s) (fun t => t.jobsOf k g = [] ∧ t.ringHead k g = s.ringTail k g ∧ t.ringTail k g = s.ringTail k g ∧
      t.ringState k g = (if s.ringState k g = 2 then (if s.flag (R.HI_RING_CTL k g) F.HI_RING_CTL_EN then 1 else 0) else s.ringState k g) ∧
      t = { s with regs := t.regs, host := t.host })) ∧
  (∀ (s : State) (k : Fin 8) (r : Fin 16), s.flag (R.HI_RGN_LO k r) F.HI_RGN_LO_EN = true → s.host.closing = [] →
    ((∀ x ∈ s.host.rings, x.1.1 = k.val → ∀ j ∈ x.2, j.region ≠ r.val) →
      Yields (exec (.regionDisable k r) s) (fun t => t.flag (R.HI_RGN_LO k r) F.HI_RGN_LO_EN = false ∧ t.flag (R.HI_RGN_LO k r) F.HI_RGN_LO_BUSY = false ∧
        t.host.closing = [] ∧ t = { s with regs := t.regs, host := t.host })) ∧
    ((∃ x ∈ s.host.rings, x.1.1 = k.val ∧ ∃ j ∈ x.2, j.region = r.val) →
      Yields (exec (.regionDisable k r) s) (fun t => t.flag (R.HI_RGN_LO k r) F.HI_RGN_LO_EN = true ∧ t.flag (R.HI_RGN_LO k r) F.HI_RGN_LO_BUSY = true ∧
        t.host.closing = [(k.val, r.val)] ∧ t = { s with regs := t.regs, host := t.host })))

/-- A bulk data port stores clear bytes at DP_ADDR, reads only its outbound window, and refuses by code until ERR
clears (rests on R455, R456, R466). With a well-formed length and ERR 0: a write to a canton that is not ASSIGNED, or
outside its slice in the clear, is refused with code 1; with DIR 1 code 2; a HOSTPATH write before the agreement, code
4; a merge into poison, code 6; each refusal sets ERR and CODE, raises 0x1269 (and vector 11 on port 0) and changes
nothing else. A clear write is forwarded to the seal engines, counted and advances DP_ADDR under INC. Under HOSTPATH
bytes gather until they make a record; a record that opens is forwarded at DP_ADDR, which moves past it; one of a
length out of range, or of a spent canton, is refused with code 5. A read answers the bytes of the outbound window;
outside the slice it is refused with 1, with DIR 0 with 2, under HOSTPATH 4, outside the window 3, poisoned 6, each
answered with zeros. While ERR is 1 a write does nothing and a read answers zeros. A write of DP_CTL restarts DP_COUNT
and the stream. DP_STATUS is answered only once every earlier write is acknowledged. -/
def Obligations.BulkPortsAreCheckedPerAccess : Prop :=
∀ (s : State) (p : Fin 2) (k a : Nat), s.get (R.DP_CTL p) F.DP_CTL_CANTON = k → s.dpAddr p = a →
    (∀ (bs : List Byte), bs ≠ [] → bs.length ≤ 4096 → bs.length % 4 = 0 →
      (s.flag (R.DP_STATUS p) F.DP_STATUS_ERR = true → exec (.dpDataWrite p bs) s = .next s) ∧
      (s.flag (R.DP_STATUS p) F.DP_STATUS_ERR = false →
        (∀ code : Nat, ((code = 1 ∧ (s.polState k ≠ 1 ∨ (s.flag (R.DP_CTL p) F.DP_CTL_KEY = false ∧ s.inSlice k a bs.length = false))) ∨
            (code = 2 ∧ s.polState k = 1 ∧ (s.flag (R.DP_CTL p) F.DP_CTL_KEY = true ∨ s.inSlice k a bs.length = true) ∧ s.flag (R.DP_CTL p) F.DP_CTL_DIR = true) ∨
            (code = 4 ∧ s.polState k = 1 ∧ s.flag (R.DP_CTL p) F.DP_CTL_DIR = false ∧ s.flag (R.DP_CTL p) F.DP_CTL_KEY = true ∧ (s.canton k).hostKeys = none) ∨
            (code = 6 ∧ s.polState k = 1 ∧ s.flag (R.DP_CTL p) F.DP_CTL_DIR = false ∧ s.flag (R.DP_CTL p) F.DP_CTL_KEY = false ∧ s.inSlice k a bs.length = true ∧
              s.mergesPoison a bs.length = true)) →
          Yields (exec (.dpDataWrite p bs) s) (fun t => t.flag (R.DP_STATUS p) F.DP_STATUS_ERR = true ∧ t.get (R.DP_STATUS p) F.DP_STATUS_CODE = code ∧
            OneEvent s t 0x1269 62 (some k) ∧ OnlyRegs [R.DP_STATUS p] s t ∧ (p = 1 → t.host = s.host) ∧
            (p = 0 → t.host = if s.host.masked.getLsbD 11 then { s.host with waiting := s.host.waiting ||| BitVec.ofNat 64 (2 ^ 11) } else { s.host with irqs := s.host.irqs ++ [11] }) ∧
            t = { s with regs := t.regs, events := t.events, host := t.host })) ∧
        (∀ (st : List Byte) (keys : List Byte × List Byte), s.polState k = 1 → s.flag (R.DP_CTL p) F.DP_CTL_KEY = true → s.flag (R.DP_CTL p) F.DP_CTL_DIR = false →
            (s.canton k).hostKeys = some keys → s.host.stream[p] ++ bs = st →
          ((st.length < 32 ∨ (fieldAt st 4 4 ≤ 1048576 ∧ st.length < 48 + fieldAt st 4 4)) →
            Yields (exec (.dpDataWrite p bs) s) (fun t => t.host.stream[p] = st ∧ t.dpAddr p = a ∧
              t.get (R.DP_COUNT p) F.DP_COUNT_BYTES = (s.get (R.DP_COUNT p) F.DP_COUNT_BYTES + bs.length) % 2 ^ 32 ∧
              OnlyRegs [R.DP_COUNT p] s t ∧ t = { s with regs := t.regs, host := t.host })) ∧
          (((32 ≤ st.length ∧ 1048576 < fieldAt st 4 4) ∨ (48 + fieldAt st 4 4 ≤ st.length ∧ (fieldAt st 4 4 = 0 ∨ (s.canton k).spent = true))) →
            Yields (exec (.dpDataWrite p bs) s) (fun t => t.host.stream[p] = [] ∧ t.flag (R.DP_STATUS p) F.DP_STATUS_ERR = true ∧
              t.get (R.DP_STATUS p) F.DP_STATUS_CODE = 5 ∧ OneEvent s t 0x1269 62 (some k))) ∧
          (∀ (len : Nat) (plain : List Byte), fieldAt st 4 4 = len → 1 ≤ len → len ≤ 1048576 → st.length = 48 + len → (s.canton k).spent = false → k < 8 →
            s.openRecord k 0xFFFF len st = .ok plain → s.inSlice k a len = true → s.mergesPoison a len = false →
            Yields (exec (.dpDataWrite p bs) s) (fun t => t.host.stream[p] = [] ∧ t.dpAddr p = (a + len) % 2 ^ 48 ∧
              (t.canton k).seqOf 0xFFFF 0 = (s.canton k).seqOf 0xFFFF 0 + 1 ∧ t.mds = (s.newReq.forwardWrite 62 a plain).mds ∧
              OnlyRegs [R.DP_COUNT p, R.DP_ADDR_LO p, R.DP_ADDR_HI p] s t))) ∧
        (s.polState k = 1 → s.flag (R.DP_CTL p) F.DP_CTL_KEY = false → s.inSlice k a bs.length = true → s.flag (R.DP_CTL p) F.DP_CTL_DIR = false →
          s.mergesPoison a bs.length = false →
          Yields (exec (.dpDataWrite p bs) s) (fun t => t.dpAddr p = (if s.flag (R.DP_CTL p) F.DP_CTL_INC then (a + bs.length) % 2 ^ 48 else a) ∧
            t.get (R.DP_COUNT p) F.DP_COUNT_BYTES = (s.get (R.DP_COUNT p) F.DP_COUNT_BYTES + bs.length) % 2 ^ 32 ∧ t.events = s.events ∧ t.sec = s.sec ∧
            (∃ u, u = s.newReq.forwardWrite 62 a bs ∧ t.cds = u.cds ∧ t.mds = u.mds ∧ t.host.acks[p] = s.host.acks[p] ++ [u.reqNo]) ∧
            OnlyRegs [R.DP_COUNT p, R.DP_ADDR_LO p, R.DP_ADDR_HI p] s t)))) ∧
    (∀ n : Nat, 0 < n → n ≤ 4096 → n % 4 = 0 →
      (s.flag (R.DP_STATUS p) F.DP_STATUS_ERR = true → exec (.dpDataRead p n) s = .next { s with resp := .data (List.replicate n 0) }) ∧
      (s.flag (R.DP_STATUS p) F.DP_STATUS_ERR = false →
        (∀ code : Nat, ((code = 1 ∧ (s.polState k ≠ 1 ∨ s.inSlice k a n = false)) ∨
            (code = 2 ∧ s.polState k = 1 ∧ s.inSlice k a n = true ∧ s.flag (R.DP_CTL p) F.DP_CTL_DIR = false) ∨
            (code = 4 ∧ s.polState k = 1 ∧ s.inSlice k a n = true ∧ s.flag (R.DP_CTL p) F.DP_CTL_DIR = true ∧ s.flag (R.DP_CTL p) F.DP_CTL_KEY = true) ∨
            (code = 3 ∧ s.polState k = 1 ∧ s.inSlice k a n = true ∧ s.flag (R.DP_CTL p) F.DP_CTL_DIR = true ∧ s.flag (R.DP_CTL p) F.DP_CTL_KEY = false ∧ s.inOut k a n = false) ∨
            (code = 6 ∧ s.polState k = 1 ∧ s.inSlice k a n = true ∧ s.flag (R.DP_CTL p) F.DP_CTL_DIR = true ∧ s.flag (R.DP_CTL p) F.DP_CTL_KEY = false ∧ s.inOut k a n = true ∧
              s.readable a n = false)) →
          Yields (exec (.dpDataRead p n) s) (fun t => t.resp = .data (List.replicate n 0) ∧ t.flag (R.DP_STATUS p) F.DP_STATUS_ERR = true ∧
            t.get (R.DP_STATUS p) F.DP_STATUS_CODE = code ∧ OneEvent s t 0x1269 62 (some k) ∧ OnlyRegs [R.DP_STATUS p] s t)) ∧
        (s.polState k = 1 → s.inSlice k a n = true → s.flag (R.DP_CTL p) F.DP_CTL_DIR = true → s.flag (R.DP_CTL p) F.DP_CTL_KEY = false → s.inOut k a n = true →
          s.readable a n = true →
          Yields (exec (.dpDataRead p n) s) (fun t => t.resp = .data (s.bytes a n) ∧ t.dpAddr p = (if s.flag (R.DP_CTL p) F.DP_CTL_INC then (a + n) % 2 ^ 48 else a) ∧
            t.get (R.DP_COUNT p) F.DP_COUNT_BYTES = (s.get (R.DP_COUNT p) F.DP_COUNT_BYTES + n) % 2 ^ 32 ∧
            OnlyRegs [R.DP_COUNT p, R.DP_ADDR_LO p, R.DP_ADDR_HI p] s t ∧ t = { s with regs := t.regs, resp := t.resp })))) ∧
    (∀ x : W32, Yields (exec (.dpCtlWrite p x) s) (fun t => t.rd (R.DP_CTL p) = x &&& 0x3F ∧ t.rd (R.DP_COUNT p) = 0 ∧ t.host.stream[p] = [] ∧
      OnlyRegs [R.DP_CTL p, R.DP_COUNT p] s t ∧ t = { s with regs := t.regs, host := t.host })) ∧
    ((∀ id ∈ s.host.acks[p], s.reqWaits id = false) → Yields (exec (.dpStatusRead p) s) (fun t => t.resp = .value (s.rd (R.DP_STATUS p)) ∧ t.host.acks[p] = [] ∧
      t = { s with host := t.host, resp := t.resp })) ∧
    ((∃ id ∈ s.host.acks[p], s.reqWaits id = true) → Yields (exec (.dpStatusRead p) s) (fun t => t.resp = .none ∧ t.host.acks[p] ≠ [] ∧ t = { s with host := t.host, resp := t.resp }))

/-- A tenant image starts only if its digest is in the manifest; its hypercalls reach its own canton; a fault halts it
alone (rests on R408, R463, R464, R465). An image of 1 byte to 256 MiB in the canton's slice, with fewer than 8
running, is measured: if the manifest lists its digest it is added as running, with 0x4070; if not, nothing starts and
0x0467 is raised. A running image's hypercall for a compute die of its canton does what the command does; for another
canton, or from an image that does not run, it does nothing; it moves the tail of a ring of its own canton. A guest
fault halts that image alone, with 0x4271. A cache error raises 0x4172, or 0x4373 for the scratchpad, and changes
nothing else. -/
def Obligations.TenantImagesRunMeasuredAndConfined : Prop :=
(∀ (s : State) (k : Fin 8) (mpa len : Nat) (m : Manifest), s.polState k = 1 → (s.canton k).manifest = some m → 0 < len → len ≤ 2 ^ 28 →
    ((s.canton k).images.filter (fun i => i.runs)).length < 8 → s.inSlice k mpa len = true → s.readable mpa len = true →
    Yields (exec (.tenantImageStart k mpa len) s) (fun t => if sha512 (s.bytes mpa len) ∈ m.images
      then (t.canton k).images = (s.canton k).images ++ [⟨mpa, len, sha512 (s.bytes mpa len), true⟩] ∧
        (∃ e : Event, t.events = s.events ++ [e] ∧ e.code = 0x4070 ∧ e.canton = some k.val) ∧ t = { s with sec := t.sec, events := t.events }
      else OneEvent s t 0x0467 63 (some k.val) ∧ t = { s with events := t.events })) ∧
  (∀ (s : State) (k : Fin 8) (n : Nat) (i : TenantImage) (d : Fin 40) (q : Fin 4) (g : Fin 16) (x : BitVec 16) (table : Fin 16) (variant : BitVec 12) (w : Cmd),
    (s.canton k).images[n]? = some i →
    (i.runs = true → s.cdCanton d = k.val → s.dieOff d = false →
      ((s.qState d q = 0 ∨ s.qState d q = 4 ∨ s.qState d q = 6) → s.takesWork k = true →
        Yields (exec (.tenantHypercall k n (.queue d q)) s) (fun t => t.qState d q = 1 ∧ OnlyRegs [R.SEQ_Q_STATUS d q] s t ∧ t = { s with regs := t.regs })) ∧
      (∀ (v : VariantTable) (e : List Byte), s.tableOf ⟨s.cdCanton d % 8, Nat.mod_lt _ (by decide)⟩ table = some v → variant.toNat < v.nvar →
        s.variantEntry v variant.toNat = e →
        (∀ dd off : Nat, s.drainRight d e w = true → (fieldAt e 14 1).testBit 7 = false →
          s.placeOf (s.qBase d q + 16 * (s.qTail d q % s.qSize d q)) = .cd dd off → (s.cd (fin40 dd)).coversWindow off 16 = false →
          (s.qTail d q + 1 + 2 ^ 16 - s.qHead d q) % 2 ^ 16 ≤ s.qSize d q →
          Yields (exec (.tenantHypercall k n (.drain d q table variant w)) s) (fun t => t.qTail d q = (s.qTail d q + 1) % 2 ^ 16 ∧
            t.cmdAt (s.qBase d q + 16 * (s.qTail d q % s.qSize d q)) = w)) ∧
        (s.drainRight d e w = false → Yields (exec (.tenantHypercall k n (.drain d q table variant w)) s) (fun t =>
          OneEvent s t 0x5431 d.val (some k.val) ∧ t = { s with events := t.events })))) ∧
    (i.runs = true → Yields (exec (.tenantHypercall k n (.ring g x)) s) (fun t => t.ringTail k g = x.toNat ∧ OnlyRegs [R.HI_RING_IDX k g] s t ∧ t = { s with regs := t.regs })) ∧
    (i.runs = true → s.cdCanton d ≠ k.val → exec (.tenantHypercall k n (.queue d q)) s = .next s ∧ exec (.tenantHypercall k n (.drain d q table variant w)) s = .next s) ∧
    (i.runs = false → ∀ c : HyperCall, exec (.tenantHypercall k n c) s = .next s)) ∧
  (∀ (s : State) (d : Fin 40) (n : Nat) (i : TenantImage), (s.canton (s.cdCanton d)).images[n]? = some i → i.runs = true → s.cdCanton d < 8 →
    Yields (exec (.guestFault d n) s) (fun t => (t.canton (s.cdCanton d)).images = (s.canton (s.cdCanton d)).images.set n { i with runs := false } ∧
      (∀ j, j < 8 → j ≠ s.cdCanton d → t.canton j = s.canton j) ∧ OneEvent s t 0x4271 d.val (some (s.cdCanton d)) ∧ t = { s with sec := t.sec, events := t.events })) ∧
  (∀ (s : State) (d : Fin 40) (b : Bool), Yields (exec (.serviceCoreCacheError d b) s) (fun t =>
    OneEvent s t (if b then 0x4373 else 0x4172) d.val (some (s.cdCanton d)) ∧ t = { s with events := t.events }))

/-- A management request that changes state needs the operator's signature and a higher MSEQ, else it is dropped with
0x0467 (rests on R459, R466, R480). A management port that is lost answers nothing. INFO answers serial, module ID,
stepping and MAC addresses; READ the registers named. WRITE, DPSET and SECBUF take effect only where the operator
key's signature over header and body verifies, the trust die's signature engine works, and MSEQ exceeds every MSEQ
accepted; then MSEQ is kept. Otherwise nothing changes but alarm 0x0467. WRITE does what a host write of the register
does; DPSET sets DP_ADDR and DP_CTL of port 1 and restarts its count; SECBUF reads and writes the buffer only while
the host view owns it. DPDATA and DPREAD are a write and a read through port 1. -/
def Obligations.ManagementRequestsAreSignedInOrder : Prop :=
(∀ (s : State), s.mgmtLost = false →
    Yields (exec .info s) (fun t => t.resp = .data (s.serial ++ leBytes 4 s.moduleId ++ leBytes 1 Config.stepping.toNat ++ (List.range 18).map Config.macs) ∧
      t = { s with resp := t.resp }) ∧
    (∀ l : List Nat, ∀ u : State, u = l.foldl (fun u a => u.readSync a) s → Yields (exec (.mgmtRead l) s) (fun t =>
      t = { u with resp := .data (l.flatMap (fun a => leBytes 4 (u.regRead .mgmt a).toNat)) } ∧
      ((∀ a ∈ l, ∀ u : State, u.readSync a = u) → t = { s with resp := .data (l.flatMap (fun a => leBytes 4 (s.regRead .mgmt a).toNat)) }))) ∧
    (∀ (mseq : BitVec 64) (sig : List Byte) (fresh : Bool), fresh = decide (∀ m, s.host.mseq = some m → m < mseq.toNat) →
      (∀ (a : Nat) (x : W32) (off : Nat), Yields (exec (.mgmtWrite a x mseq sig) s) (fun t =>
          if fresh = true ∧ s.blockLost 63 0x102 = false ∧
              s.operatorSigned "JV-MGT" (leBytes 4 s.moduleId ++ mgmtText 3 mseq.toNat (leBytes 4 a ++ leBytes 4 x.toNat)) sig = true
          then t = { State.hostWrite { s with host := { s.host with mseq := some mseq.toNat } } a x with resp := .done } ∧
            ((∀ d n o, crsDie a = some (d, n, o) → d ≠ .hd ∧ d ≠ .td) →
              t = { regWrite .host a x 0 { s with host := { s.host with mseq := some mseq.toNat } } with resp := .done }) ∧
            ((∃ n, crsDie a = some (.td, n, off)) →
              (off = 0x2010 → t = { State.rstCmdWrite { s with host := { s.host with mseq := some mseq.toNat } } x with resp := .done }) ∧
              (off = 0x2024 → t = { State.pwrCtlWrite { s with host := { s.host with mseq := some mseq.toNat } } x with resp := .done }) ∧
              (off = 0x2080 → t = { State.flCmdWrite { s with host := { s.host with mseq := some mseq.toNat } } x with resp := .done }))
          else OneEvent s t 0x0467 63 none ∧ t = { s with events := t.events, resp := .none })) ∧
      (∀ (a : BitVec 48) (ctl : W32), Yields (exec (.dpset a ctl mseq sig) s) (fun t =>
        if fresh = true ∧ s.blockLost 63 0x102 = false ∧
            s.operatorSigned "JV-MGT" (leBytes 4 s.moduleId ++ mgmtText 4 mseq.toNat (leBytes 8 a.toNat ++ leBytes 4 ctl.toNat)) sig = true
        then t.dpAddr 1 = a.toNat ∧ t.rd (R.DP_CTL 1) = ctl &&& 0x3F ∧ t.rd (R.DP_COUNT 1) = 0 ∧ t.host.mseq = some mseq.toNat ∧ t.resp = .done ∧
          OnlyRegs [R.DP_ADDR_LO 1, R.DP_ADDR_HI 1, R.DP_CTL 1, R.DP_COUNT 1] s t ∧ t = { s with regs := t.regs, host := t.host, resp := t.resp }
        else OneEvent s t 0x0467 63 none ∧ t = { s with events := t.events, resp := .none })) ∧
      (∀ off len : Nat, Yields (exec (.secbuf (.read off len) mseq sig) s) (fun t =>
        if fresh = true ∧ s.blockLost 63 0x102 = false ∧
            s.operatorSigned "JV-MGT" (leBytes 4 s.moduleId ++ mgmtText 7 mseq.toNat (leBytes 4 0 ++ leBytes 4 off ++ leBytes 4 len)) sig = true
        then t.resp = .data (if s.get R.SEC_OWN F.SEC_OWN_VIEW = 8 then s.buf off len else List.replicate len 0) ∧ t.host.mseq = some mseq.toNat ∧
          t = { s with host := t.host, resp := t.resp }
        else OneEvent s t 0x0467 63 none ∧ t = { s with events := t.events, resp := .none })) ∧
      (∀ (off : Nat) (bs : List Byte), Yields (exec (.secbuf (.write off bs) mseq sig) s) (fun t =>
        if fresh = true ∧ s.blockLost 63 0x102 = false ∧
            s.operatorSigned "JV-MGT" (leBytes 4 s.moduleId ++ mgmtText 7 mseq.toNat (leBytes 4 1 ++ leBytes 4 off ++ bs)) sig = true
        then t.host.mseq = some mseq.toNat ∧ (s.get R.SEC_OWN F.SEC_OWN_VIEW ≠ 8 → t.sec = s.sec) ∧
          (s.get R.SEC_OWN F.SEC_OWN_VIEW = 8 → off + bs.length ≤ 0x40000 → t.buf off bs.length = bs) ∧ t = { s with host := t.host, sec := t.sec, resp := .done }
        else OneEvent s t 0x0467 63 none ∧ t = { s with events := t.events, resp := .none })) ∧
      (∀ (x : W32) (step : KaStep), Yields (exec (.secbuf (.cmd x step) mseq sig) s) (fun t =>
        if fresh = true ∧ s.blockLost 63 0x102 = false ∧
            s.operatorSigned "JV-MGT" (leBytes 4 s.moduleId ++ mgmtText 7 mseq.toNat (leBytes 4 2 ++ leBytes 4 x.toNat)) sig = true
        then t = { State.secCmdWrite { s with host := { s.host with mseq := some mseq.toNat } } x step with resp := .done }
        else OneEvent s t 0x0467 63 none ∧ t = { s with events := t.events, resp := .none }))) ∧
    (∀ bs : List Byte, Yields (exec (.dpdata bs) s) (fun t => t = { s.dpWrite 1 bs with resp := .done })) ∧
    (∀ n : Nat, Yields (exec (.dpread n) s) (fun t => t = s.dpRead 1 n))) ∧
  (∀ s : State, s.mgmtLost = true → ∀ (l : List Nat) (bs sig : List Byte) (n : Nat) (m : BitVec 64) (a : BitVec 48) (x : W32) (op : SecBufOp),
    ∀ c ∈ ([.info, .mgmtRead l, .dpdata bs, .dpread n, .mgmtWrite n x m sig, .dpset a x m sig, .secbuf op m sig] : List Instr), Yields (exec c s) (fun t => t = { s with resp := .none }))

/-- Each event gets the next ESEQ and stands first in the window; fatal ones contain a canton or restart the module
(rests on R10, R457, R508, R512, R527, R528, R529). The trust die takes the oldest event on its way into the window
with the next ESEQ and the host time. One of categories 0-2, with a token left and the host ring off, waits to be
copied and nothing else is raised; of an alarm, vector 1 is raised as well and no token is needed. With the host ring
on and not full, its record is written at TAIL and TAIL advances; full, it is counted in DROP, with 0x1066 once. A
fatal event of a canton that is not SCRUBBING contains it: its queues and units stop, CFATAL, 0x0388, and the
automatic CRST is due. A fatal module event starts an MRST, RST_CAUSE 5, with a last-gasp record, once a flash write
in progress is done. An automatic CRST that is due resets its canton and clears CFATAL. A view's read of _LO of a
hardware pair latches _HI, which its next read of _HI answers; a refused read does neither. -/
def Obligations.EventsAreLoggedAndActedOn : Prop :=
(∀ (s : State) (e : Event) (rest : List Event) (n : Nat), s.events = e :: rest → n = s.get64 R.EVL_NEXT_LO R.EVL_NEXT_HI →
    Yields (exec .eventReceive s) (fun t => ∃ r : EvRecord, t.rel.window = r :: s.rel.window.take 4095 ∧ r.ev = e ∧ r.eseq = n ∧ r.htime = s.hostNs) ∧
    (s.flag R.HI_EVQ_CTL F.HI_EVQ_CTL_EN = false → s.rel.lost = 0 → s.rel.window.length < 4096 →
      (evCategory e.code < 3 → 0 < s.refill.rel.tokens →
        Yields (exec .eventReceive s) (fun t => t.rel.waiting = s.rel.waiting ++ [(n, s.now)] ∧ t.events = rest ∧
          t.get64 R.EVL_NEXT_LO R.EVL_NEXT_HI = (n + 1) % 2 ^ 64 ∧ t = { s with regs := t.regs, rel := t.rel, events := rest })) ∧
      (4 ≤ evCategory e.code → s.host.masked.getLsbD 1 = false →
        Yields (exec .eventReceive s) (fun t => t.rel.waiting = s.rel.waiting ++ [(n, s.now)] ∧ t.host = { s.host with irqs := s.host.irqs ++ [1] } ∧
          t = { s with regs := t.regs, rel := t.rel, events := rest, host := t.host }))) ∧
    (s.flag R.HI_EVQ_CTL F.HI_EVQ_CTL_EN = true → s.get R.HI_LINK F.HI_LINK_MODE ≠ 0 → evCategory e.code < 3 →
      ((s.get R.HI_EVQ_TAIL F.HI_EVQ_TAIL_INDEX + 65536 - s.get R.HI_EVQ_HEAD F.HI_EVQ_HEAD_INDEX) % 65536 < min s.evqSize 65535 →
        Yields (exec .eventReceive s) (fun t => t.get R.HI_EVQ_TAIL F.HI_EVQ_TAIL_INDEX = (s.get R.HI_EVQ_TAIL F.HI_EVQ_TAIL_INDEX + 1) % 65536 ∧
          ∃ r : EvRecord, r.ev = e ∧ r.eseq = n ∧ t.host.writes = s.host.writes ++ [(s.get R.HI_EVQ_BASE_LO F.HI_EVQ_BASE_LO_ADDR * 4096 +
            (s.rd R.HI_EVQ_BASE_HI).toNat * 2 ^ 32 + 32 * (s.get R.HI_EVQ_TAIL F.HI_EVQ_TAIL_INDEX % s.evqSize), r.bytes)])) ∧
      (min s.evqSize 65535 ≤ (s.get R.HI_EVQ_TAIL F.HI_EVQ_TAIL_INDEX + 65536 - s.get R.HI_EVQ_HEAD F.HI_EVQ_HEAD_INDEX) % 65536 →
        Yields (exec .eventReceive s) (fun t => t.host.writes = s.host.writes ∧ t.host.overflow = true ∧
          t.get R.HI_EVQ_DROP F.HI_EVQ_DROP_COUNT = satN (2 ^ 32 - 1) (s.get R.HI_EVQ_DROP F.HI_EVQ_DROP_COUNT + 1) ∧
          ((∃ x ∈ t.events, x.code = 0x1066) ∨ s.host.overflow = true)))) ∧
    (∀ k : Fin 8, evCategory e.code = 3 → e.canton = some k.val → s.polState k ≠ 2 → (s.get R.CONT_STATUS F.CONT_STATUS_CFATAL).testBit k = false →
      Yields (exec .eventReceive s) (fun t => (t.get R.CONT_STATUS F.CONT_STATUS_CFATAL).testBit k = true ∧
        (∀ d ∈ s.cantonCds k, (∀ u : Fin 8, (t.cd (fin40 d)).stopped[u] = true) ∧ ∀ q : Fin 4, t.qState (fin40 d) q ≠ 1 ∧ t.qState (fin40 d) q ≠ 2 ∧ t.qState (fin40 d) q ≠ 3) ∧
        (∃ x ∈ t.events, x.code = 0x0388 ∧ x.canton = some k.val) ∧
        ((s.get R.CONT_CTL F.CONT_CTL_AUTOCRST).testBit k = true →
          (k.val, s.now + s.get R.CONT_CTL F.CONT_CTL_DELAYMS * msTicks) ∈ t.rel.containAt) ∧ t.pwr = s.pwr ∧ SameMem s t)) ∧
    (evCategory e.code = 3 → e.canton = none → fatalCovered e.code = false → s.pwr.nv = none → s.get R.BOOT_STATUS F.BOOT_STATUS_PHASE = 8 → s.pwr.resetNow = none →
      Yields (exec .eventReceive s) (fun t => t.pwr.mode = .starting ∧ t.pwr.startKind = 2 ∧ t.get R.RST_CAUSE F.RST_CAUSE_LAST = 5 ∧
        (∃ w ∈ t.pwr.nvWait, w.owner = 2) ∧ (∀ a, t.byte a = 0))) ∧
    (∀ w : NvWrite, evCategory e.code = 3 → e.canton = none → fatalCovered e.code = false → s.pwr.nv = some w →
      Yields (exec .eventReceive s) (fun t => t.pwr.mrstWaits = some 5 ∧ t.pwr.nv = some w ∧ t.pwr.mode = s.pwr.mode ∧ SameMem s t))) ∧
  (∀ (s : State) (k : Fin 8),
    ((s.get R.CONT_CTL F.CONT_CTL_AUTOCRST).testBit k = true → (∃ u, (k.val, u) ∈ s.rel.containAt ∧ u ≤ s.now) → s.get R.BOOT_STATUS F.BOOT_STATUS_PHASE = 8 → s.pwr.resetNow = none →
      Yields (exec (.autoCrst k) s) (fun t => t.pwr.resetNow = some ⟨3, k.val⟩ ∧ (t.get R.CONT_STATUS F.CONT_STATUS_CFATAL).testBit k = false ∧
        OneEvent s t 0x007D 63 none ∧ (∀ x ∈ t.rel.containAt, x.1 ≠ k.val))) ∧
    ((∀ x ∈ s.rel.containAt, x.1 = k.val → s.now < x.2) → exec (.autoCrst k) s = .next s)) ∧
  (∀ (s u : State) (v : View) (a key : Nat), s.readSync a = u → u.keyFor v a = key →
    (u.readRefused v a = true → ∀ hi : Bool, Yields (exec (.registerPairRead v a hi) s) (fun t => t = { u with resp := .value (u.regRead v a) })) ∧
    (u.readRefused v a = false →
      (∀ r : RegRow, regAt key = some r →
        ((r.die, r.off) ∈ hwPairs → Yields (exec (.registerPairRead v a false) s) (fun t => t.resp = .value (u.regRead v a) ∧
          t.latch.find? (fun p => p.1 == (v, key + 4)) = some ((v, key + 4), u.regRead v (a + 4)) ∧ t = { u with resp := t.resp, latch := t.latch } ∧
          ∀ q : View × Nat, q ≠ (v, key + 4) → t.latch.find? (fun p => p.1 == q) = u.latch.find? (fun p => p.1 == q))) ∧
        ((r.die, r.off) ∉ hwPairs → Yields (exec (.registerPairRead v a false) s) (fun t => t = { u with resp := .value (u.regRead v a) }))) ∧
      (∀ x, u.latch.find? (fun p => p.1 == (v, key)) = some ((v, key), x) → Yields (exec (.registerPairRead v a true) s) (fun t => t.resp = .value x ∧
        t.latch = u.latch.filter (fun p => !(p.1 == (v, key))) ∧ t = { u with resp := t.resp, latch := t.latch })) ∧
      (u.latch.find? (fun p => p.1 == (v, key)) = none → Yields (exec (.registerPairRead v a true) s) (fun t => t = { u with resp := .value (u.regRead v a) }))))

/-- Temperatures throttle, trips and two hot DIMM readings quench once, and the exit needs every cause gone (rests on
R489, R490, R494, R503, R522, R523, R524, R525, R526, R530). A sample with every sensor at least 5 °C below THROT_C,
no DIMM over its limit and the cold plate in range only records its values and the input. A die at THROT_C or above
enters THROTTLED once with 0x0079; a supply warning does the same, keeps the lowest sample, and when the input is back
the dip is counted with 0x007B; THROTTLED ends with 0x007A only once the supply is back and every sensor cool for 100
ms. A DIMM over its limit twice quenches (where no failed comparator adds causes). A quench from a clocked module
records causes and monitor, counts, raises 0x0389, asks for a last-gasp record, and leaves the module quenched, or
held with 0x038A beyond the limit; a quenched module only adds causes. A comparator that fails its test is reported
with 0x028C. A canton above its power cap loses an eighth at a time; one without a cap has all. -/
def Obligations.SensorsThrottleAndQuench : Prop :=
(∀ (s : State) (x : SafetySample), allBelow x.dies (s.throtC - 5) = true → (∀ d ∈ x.dies, d = 0xFF ∨ d < s.throtC) →
    (∀ i, i < 32 → x.dimms.getD i 0xFF = 0xFF ∨ x.dimms.getD i 0xFF < s.get R.SF_DIMMMAX F.SF_DIMMMAX_TEMP) → x.inlet ≤ 450 → x.outlet ≤ 600 → s.rel.stFailed = [] → x.vin < 2 ^ 16 →
    Yields (exec (.safetySample x) s) (fun t => t.get R.PWR_VIN F.PWR_VIN_MV = x.vin ∧
      t.get R.PWR_VIN F.PWR_VIN_MINMV = min (s.get R.PWR_VIN F.PWR_VIN_MINMV) x.vinMin ∧ t.rel.inputCur = x.inputCur ∧ t.rel.inlet = x.inlet ∧ t.rel.outlet = x.outlet ∧
      (∀ i : Fin 64, t.rel.temps[i] = x.dies.getD i 0xFF) ∧ (∀ i : Fin 32, t.rel.dimmTemps[i] = x.dimms.getD i 0xFF) ∧
      OnlyRegs [R.PWR_VIN, R.HLTH_VAL] s t ∧ t = { s with regs := t.regs, rel := t.rel })) ∧
  (∀ (s : State) (x : SafetySample), (∃ d ∈ x.dies, d ≠ 0xFF ∧ s.throtC ≤ d) → s.throttled = false → x.inlet ≤ 450 → x.outlet ≤ 600 → s.rel.stFailed = [] →
    (∀ i, i < 32 → x.dimms.getD i 0xFF = 0xFF ∨ x.dimms.getD i 0xFF < s.get R.SF_DIMMMAX F.SF_DIMMMAX_TEMP) →
    Yields (exec (.safetySample x) s) (fun t => t.throttled = true ∧ t.flag R.PWR_STATUS F.PWR_STATUS_THERMAL = true ∧ OneEvent s t 0x0079 63 none ∧ t.pwr.coolAt = s.now)) ∧
  (∀ (s : State) (x : SafetySample) (i : Fin 32), s.clocked = true → s.rel.dimmOver[i] = true → x.dimms.getD i 0xFF ≠ 0xFF →
    s.get R.SF_DIMMMAX F.SF_DIMMMAX_TEMP ≤ x.dimms.getD i 0xFF → s.flag R.SF_STATUS F.SF_STATUS_QUENCHED = false → s.rel.quenches = [] → s.get R.SF_QLIMIT F.SF_QLIMIT_COUNT ≠ 0 → s.rel.stFailed = [] →
    Yields (exec (.safetySample x) s) (fun t => t.flag R.SF_STATUS F.SF_STATUS_QUENCHED = true ∧ t.pwr.mode = .quenched ∧ t.rd R.SF_QLAST = BitVec.ofNat 32 (18 + 255 * 256) ∧
      ∃ e ∈ t.events, e.code = 0x0389)) ∧
  (∀ (s : State) (c : BitVec 5) (m : BitVec 8), c ≠ 0 →
    (s.clocked = true → s.flag R.SF_STATUS F.SF_STATUS_QUENCHED = false →
      Yields (exec (.quench c m) s) (fun t => t.flag R.SF_STATUS F.SF_STATUS_QUENCHED = true ∧ t.rd R.SF_QLAST = BitVec.ofNat 32 (c.toNat + m.toNat * 256) ∧
        t.rel.quenchAt = s.now ∧ (∃ w ∈ t.pwr.nvWait, w.owner = 2 ∧ w.since = s.now) ∧ (∃ e ∈ t.events, e.code = 0x0389 ∧ e.die = 63) ∧
        t.get R.SF_QCOUNT F.SF_QCOUNT_TOTAL = satN (2 ^ 16 - 1) (s.get R.SF_QCOUNT F.SF_QCOUNT_TOTAL + 1) ∧ SameMem s t ∧
        (if s.get R.SF_QLIMIT F.SF_QLIMIT_COUNT < (s.rel.quenches.filter (fun u => decide (s.now < u + 3600 * secTicks))).length + 1
          then t.pwr.mode = .held ∧ t.flag R.SF_STATUS F.SF_STATUS_QHOLD = true ∧ ∃ e ∈ t.events, e.code = 0x038A
          else t.pwr.mode = .quenched))) ∧
    (s.flag R.SF_STATUS F.SF_STATUS_QUENCHED = true → Yields (exec (.quench c m) s) (fun t => (∀ x ∈ causesOf c.toNat, x ∈ t.rel.causes) ∧ t = { s with rel := t.rel }))) ∧
  (∀ (s : State) (m : BitVec 8), exec (.comparatorSelfTest m true) s = .next s ∧
    Yields (exec (.comparatorSelfTest m false) s) (fun t => t.flag R.SF_STATUS F.SF_STATUS_STFAIL = true ∧ m.toNat ∈ t.rel.stFailed ∧ OneEvent s t 0x028C 63 none ∧
      OnlyRegs [R.SF_STATUS] s t ∧ t = { s with regs := t.regs, rel := t.rel, events := t.events })) ∧
  (∀ (s : State) (die : Fin 64) (temp : BitVec 8), (s.throtC ≤ temp.toNat → s.throttled = false →
      Yields (exec (.thermalThrottle die temp) s) (fun t => t.throttled = true ∧ t.flag R.PWR_STATUS F.PWR_STATUS_THERMAL = true ∧ t.rel.temps[die] = temp.toNat ∧
        t.get R.PWR_DIPS F.PWR_DIPS_THROTTLES = satN (2 ^ 16 - 1) (s.get R.PWR_DIPS F.PWR_DIPS_THROTTLES + 1) ∧ OneEvent s t 0x0079 63 none ∧ SameMem s t)) ∧
    (temp.toNat < s.throtC → exec (.thermalThrottle die temp) s = .next s)) ∧
  (∀ (s : State) (mv : BitVec 16),
    (s.throttled = false → Yields (exec (.supplyWarning mv) s) (fun t => t.throttled = true ∧ t.flag R.PWR_STATUS F.PWR_STATUS_SUPPLY = true ∧
      t.get R.PWR_VIN F.PWR_VIN_MINMV = min (s.get R.PWR_VIN F.PWR_VIN_MINMV) mv.toNat ∧ t.pwr.dipMin = min s.pwr.dipMin mv.toNat ∧ OneEvent s t 0x0079 63 none)) ∧
    (s.flag R.PWR_STATUS F.PWR_STATUS_SUPPLY = true → Yields (exec (.supplyWarningClear mv) s) (fun t => t.flag R.PWR_STATUS F.PWR_STATUS_SUPPLY = false ∧
      t.get R.PWR_DIPS F.PWR_DIPS_DIPS = satN (2 ^ 16 - 1) (s.get R.PWR_DIPS F.PWR_DIPS_DIPS + 1) ∧ t.throttled = s.throttled ∧ OneEvent s t 0x007B 63 none ∧ t.pwr.dipMin = 0xFFFF))) ∧
  (∀ (s : State), s.throttled = true →
    (s.flag R.PWR_STATUS F.PWR_STATUS_SUPPLY = false → allBelow s.rel.temps.toList (s.throtC - 5) = true → s.pwr.coolAt + 100 * msTicks ≤ s.now →
      Yields (exec .throttleExit s) (fun t => t.throttled = false ∧ t.flag R.PWR_STATUS F.PWR_STATUS_THERMAL = false ∧ OneEvent s t 0x007A 63 none ∧
        OnlyRegs [R.PWR_STATUS] s t ∧ t = { s with regs := t.regs, events := t.events })) ∧
    (s.flag R.PWR_STATUS F.PWR_STATUS_SUPPLY = true ∨ (s.flag R.PWR_STATUS F.PWR_STATUS_THERMAL = true ∧
        (allBelow s.rel.temps.toList (s.throtC - 5) = false ∨ s.now < s.pwr.coolAt + 100 * msTicks)) → exec .throttleExit s = .next s)) ∧
  (∀ (s : State) (k : Fin 8) (w : BitVec 16) (cap : Nat), mcrNum s.pwr.mcr (132 + 2 * k.val) 2 = cap →
    Yields (exec (.powerCapAdjust k w) s) (fun t => t.get (R.PWR_CANTON k) F.PWR_CANTON_WATTS = w.toNat ∧ OnlyRegs [R.PWR_CANTON k] s t ∧
      (cap = 0 → t.get (R.PWR_CANTON k) F.PWR_CANTON_FRAC = 7) ∧
      (cap ≠ 0 → cap < w.toNat → t.get (R.PWR_CANTON k) F.PWR_CANTON_FRAC = s.get (R.PWR_CANTON k) F.PWR_CANTON_FRAC - 1 ∧ t.pwr.capAt[k] = s.now) ∧
      (cap ≠ 0 → w.toNat ≤ cap → 95 * cap ≤ 100 * w.toNat → t.get (R.PWR_CANTON k) F.PWR_CANTON_FRAC = s.get (R.PWR_CANTON k) F.PWR_CANTON_FRAC) ∧
      (cap ≠ 0 → 100 * w.toNat < 95 * cap → t.get (R.PWR_CANTON k) F.PWR_CANTON_FRAC =
        (if s.pwr.capAt[k] + 10 * msTicks ≤ s.now then min 7 (s.get (R.PWR_CANTON k) F.PWR_CANTON_FRAC + 1) else s.get (R.PWR_CANTON k) F.PWR_CANTON_FRAC)) ∧
      t = { s with regs := t.regs, pwr := t.pwr }))

/-- A flash write starts alone and only when the bank covers it; commands are framed by BUSY and end DONE or REFUSED
(rests on R483, R485, R487, R498, R499, R502, R510, R511, R513). With no write in progress, the first waiting write
starts if the hold-up bank is measured and its energy covers a page program or a sector erase; otherwise it waits,
DEFER set, and after 10 s 0x027F is raised once. A write that completes puts its page into the flash, or erases its
sector, and nothing else of the flash; a held MRST_N, one released meanwhile, or an MRST that waited then takes
effect. A full page of event records, or one whose oldest is 1 s old, is asked for, with an erase of the next sector
at page 0. While a flash command runs, another does nothing. ERASE and PROGRAM of the slot in use, a kind beyond 4 or
a chunk beyond the slot are refused with code 3, others are begun; COMMIT needs a valid image (code 2), BIND the JVBD
mark (code 2) and both signatures (code 1, 0x0467), MCR what R485 asks. A command is DONE when its last write is, or
REFUSED with code 6 if the flash failed. -/
def Obligations.FlashWritesWaitForTheHoldUpBank : Prop :=
(∀ (s : State) (w : NvWrite) (rest : List NvWrite) (mv : Nat), s.pwr.nv = none → s.pwr.nvWait = w :: rest → (s.pwr.mode ≠ .undervolt ∨ 13000 ≤ mv) →
    (s.flag R.PWR_HOLDUP F.PWR_HOLDUP_VALID = true → 60000 + (if w.page.isSome then 7200 else 960000) ≤ 650 * s.get R.PWR_HOLDUP F.PWR_HOLDUP_UF →
      Yields (exec (.nvWriteStart mv) s) (fun t => t.pwr.nv = some w ∧ t.pwr.nvWait = rest ∧ t.pwr.flash = s.pwr.flash ∧
        (w.owner = 1 → t.flag R.EVL_STATUS F.EVL_STATUS_FLASHBUSY = true) ∧ t = { s with regs := t.regs, pwr := t.pwr })) ∧
    (s.flag R.PWR_HOLDUP F.PWR_HOLDUP_VALID = false → Yields (exec (.nvWriteStart mv) s) (fun t => t.pwr.nv = none ∧ t.pwr.nvWait = s.pwr.nvWait ∧
        t.flag R.PWR_HOLDUP F.PWR_HOLDUP_DEFER = true ∧ t = { s with regs := t.regs, pwr := t.pwr }) ∧
      (w.since + 42000000000 < s.now → s.pwr.nvTold = false → Yields (exec .nvWriteDeferTimeout s) (fun t => t.pwr = { s.pwr with nvTold := true } ∧ OneEvent s t 0x027F 63 none ∧
        t = { s with pwr := t.pwr, events := t.events })) ∧
      (s.pwr.nvTold = true → exec .nvWriteDeferTimeout s = .next s))) ∧
  (∀ (s : State) (w : NvWrite), s.pwr.nv = some w → Sparse.wf Config.factory s.pwr.flash = true →
    (s.pwr.mrstWaits = none → Yields (exec .nvWriteComplete s) (fun t => t.pwr.nv = none ∧ t.pwr.mode = s.pwr.mode ∧ t.events = s.events ∧
      (match w.page with
        | some bs => t.fl w.addr bs.length = bs ∧ ∀ a, (a < w.addr ∨ w.addr + bs.length ≤ a) → Sparse.get Config.factory t.pwr.flash a = Sparse.get Config.factory s.pwr.flash a
        | none => t.fl (w.addr / 4096 * 4096) 4096 = List.replicate 4096 0xFF ∧
          ∀ a, a / 4096 ≠ w.addr / 4096 → Sparse.get Config.factory t.pwr.flash a = Sparse.get Config.factory s.pwr.flash a))) ∧
    (s.pwr.mrstWaits = some 4 → Yields (exec .nvWriteComplete s) (fun t => t.pwr.nv = none ∧ t.pwr.mode = .mrstLow ∧ ∀ a, t.byte a = 0)) ∧
    (s.pwr.mrstWaits = some 9 → Yields (exec .nvWriteComplete s) (fun t => t.pwr.nv = none ∧ t.pwr.mrstWaits = none ∧ t.pwr.mode = .starting ∧
      t.pwr.startKind = (if s.pwr.mode = .standby then 4 else 2) ∧ t.get R.RST_CAUSE F.RST_CAUSE_LAST = 4 ∧ (∃ e ∈ t.events, e.code = 0x007D) ∧ ∀ a, t.byte a = 0)) ∧
    (s.pwr.mrstWaits = some 5 → s.get R.BOOT_STATUS F.BOOT_STATUS_PHASE = 8 → s.pwr.resetNow = none → Yields (exec .nvWriteComplete s) (fun t => t.pwr.nv = none ∧
      t.pwr.mrstWaits = none ∧ t.pwr.mode = .starting ∧ t.pwr.startKind = 2 ∧ t.get R.RST_CAUSE F.RST_CAUSE_LAST = 5 ∧ (∃ e ∈ t.events, e.code = 0x007D) ∧ ∀ a, t.byte a = 0))) ∧
  (∀ (s : State) (e u : Nat) (l : List (Nat × Nat)), s.rel.waiting = (e, u) :: l → (s.pageSlots ≤ s.rel.waiting.length ∨ u + secTicks ≤ s.now) →
    Yields (exec .eventLogPageProgram s) (fun t => t.rel.waiting = s.rel.waiting.drop s.pageSlots ∧
      (∃ w : NvWrite, ∃ p, w.addr = 0x4100000 + s.rel.sector * 4096 + s.rel.page * 256 ∧ w.page = some p ∧ p.length = 256 ∧ w.owner = 1 ∧
        t.pwr.nvWait = s.pwr.nvWait ++ w :: (if s.rel.page = 0 then [⟨0x4100000 + (s.rel.sector + 1) % 16128 * 4096, none, 1, s.now⟩] else [])) ∧
      t.rel.page = (if s.rel.page = 15 then 0 else s.rel.page + 1) ∧ t.rel.sector = (if s.rel.page = 15 then (s.rel.sector + 1) % 16128 else s.rel.sector) ∧
      t = { s with regs := t.regs, pwr := t.pwr, rel := t.rel })) ∧
  (∀ (s : State) (kind : Fin 8) (slot : Fin 2),
    (s.flag R.FL_STATUS F.FL_STATUS_BUSY = true → ∀ c ∈ [Instr.bind, .erase kind slot, .program kind slot, .commit kind slot, .mcr], exec c s = .next s) ∧
    (s.flag R.FL_STATUS F.FL_STATUS_BUSY = false →
      ((4 < kind.val ∨ s.namedSlot kind = slot) → ∀ c ∈ [Instr.erase kind slot, .program kind slot], Yields (exec c s) (fun t => t.flag R.FL_STATUS F.FL_STATUS_REFUSED = true ∧
        t.get R.FL_STATUS F.FL_STATUS_CODE = 3 ∧ OnlyRegs [R.FL_STATUS] s t ∧ t = { s with regs := t.regs })) ∧
      (kind.val ≤ 4 → s.namedSlot kind ≠ slot →
        Yields (exec (.erase kind slot) s) (fun t => t.flag R.FL_STATUS F.FL_STATUS_BUSY = true ∧ t.pwr.flCmd = some ⟨2, kind, slot, 0⟩ ∧
          t.pwr.nvWait = s.pwr.nvWait ++ (List.range ((slotPlace kind slot).2 / 4096)).map (fun i => ⟨(slotPlace kind slot).1 + 4096 * i, none, 3, s.now⟩)) ∧
        ((slotPlace kind slot).2 < (s.get R.FL_ADDR F.FL_ADDR_CHUNK + 1) * 0x10000 → Yields (exec (.program kind slot) s) (fun t =>
          t.flag R.FL_STATUS F.FL_STATUS_REFUSED = true ∧ t.get R.FL_STATUS F.FL_STATUS_CODE = 3 ∧ t = { s with regs := t.regs })) ∧
        ((s.get R.FL_ADDR F.FL_ADDR_CHUNK + 1) * 0x10000 ≤ (slotPlace kind slot).2 → Yields (exec (.program kind slot) s) (fun t => t.flag R.FL_STATUS F.FL_STATUS_BUSY = true ∧
          t.pwr.flCmd = some ⟨3, kind, slot, s.get R.FL_ADDR F.FL_ADDR_CHUNK⟩ ∧ ∃ l, t.pwr.nvWait = s.pwr.nvWait ++ l ∧ l.length = 256 ∧
            ∀ i (h : i < l.length), (l[i]).addr = (slotPlace kind slot).1 + s.get R.FL_ADDR F.FL_ADDR_CHUNK * 0x10000 + 256 * i ∧ (l[i]).page = some (s.flBuf (256 * i) 256)))) ∧
      (kind.val ≤ 4 → Yields (exec (.commit kind slot) s) (fun t => if s.imageValid kind slot = true
        then t.flag R.FL_STATUS F.FL_STATUS_BUSY = true ∧ t.pwr.flCmd = some ⟨4, kind, slot, 0⟩ ∧ t.events = s.events
        else t.flag R.FL_STATUS F.FL_STATUS_REFUSED = true ∧ t.get R.FL_STATUS F.FL_STATUS_CODE = 2 ∧ t = { s with regs := t.regs })) ∧
      (s.flBuf 0 4 ≠ label "JVBD" → Yields (exec .bind s) (fun t => t.flag R.FL_STATUS F.FL_STATUS_REFUSED = true ∧ t.get R.FL_STATUS F.FL_STATUS_CODE = 2 ∧ t = { s with regs := t.regs })) ∧
      (s.flBuf 0 4 = label "JVBD" → Yields (exec .bind s) (fun t => if pssOk (s.flBuf 8 512) "JV-BIND" (s.serial ++ s.flBuf 0 520) (s.flBuf 520 512) = true ∧
            (∀ k, s.operatorKey = some k → pssOk k "JV-BIND" (s.serial ++ s.flBuf 0 520) (s.flBuf 1032 512) = true)
        then t.flag R.FL_STATUS F.FL_STATUS_BUSY = true ∧ t.pwr.flCmd = some ⟨1, 0, 0, 0⟩ ∧ t.events = s.events
        else t.flag R.FL_STATUS F.FL_STATUS_REFUSED = true ∧ t.get R.FL_STATUS F.FL_STATUS_CODE = 1 ∧ OneEvent s t 0x0467 63 none ∧ t = { s with regs := t.regs, events := t.events })) ∧
      Yields (exec .mcr s) (fun t => match s.mcrCheck (s.flBuf 0 0x10000) (s.mcrInForce.map (fun a => s.flNum (a + 4) 4)) with
        | 0 => t.flag R.FL_STATUS F.FL_STATUS_BUSY = true ∧ t.pwr.flCmd = some ⟨5, 0, 0, 0⟩ ∧ t.events = s.events
        | 1 => t.flag R.FL_STATUS F.FL_STATUS_REFUSED = true ∧ t.get R.FL_STATUS F.FL_STATUS_CODE = 1 ∧ OneEvent s t 0x0467 63 none ∧ t = { s with regs := t.regs, events := t.events }
        | _ => t.flag R.FL_STATUS F.FL_STATUS_REFUSED = true ∧ t.get R.FL_STATUS F.FL_STATUS_CODE = 2 ∧ t = { s with regs := t.regs }))) ∧
  (∀ (s : State) (c : FlashCmd) (ok : Bool), s.pwr.flCmd = some c →
    ((∀ w ∈ s.pwr.nvWait, w.owner ≠ 3) → (∀ w, s.pwr.nv = some w → w.owner ≠ 3) → Yields (exec (.flCommandComplete ok) s) (fun t => t.flag R.FL_STATUS F.FL_STATUS_BUSY = false ∧
      t.pwr = { s.pwr with flCmd := none } ∧ (if ok then t.flag R.FL_STATUS F.FL_STATUS_DONE = true
        else t.flag R.FL_STATUS F.FL_STATUS_REFUSED = true ∧ t.get R.FL_STATUS F.FL_STATUS_CODE = 6) ∧ OnlyRegs [R.FL_STATUS] s t ∧ t = { s with regs := t.regs, pwr := t.pwr })) ∧
    ((∃ w ∈ s.pwr.nvWait, w.owner = 3) → exec (.flCommandComplete ok) s = .next s))

/-- A memory die's DRST is its canton's CRST, the trust die has none, and the HD's destroys every host-path key
(stated: R501). For every view and state: a DRST asked for a memory die does exactly what a CRST of the die's canton
does, whatever that is in that state (done, queued or refused); a DRST of the trust die does nothing. A DRST of the
host-interface die that begins (asked for by the host or the management port of a module in RUN that is neither dark
nor in a reset) leaves no canton a host-path key, so that no ring can be enabled until a new agreement has completed,
and every canton keeps its party data keys, which are in the host-interface die's key slots again. -/
def Obligations.DieResetsStayWithinTheirRule : Prop :=
(∀ (s : State) (v : View) (die : Fin 64) (k : Fin 8), 40 ≤ die.val → die.val < 56 → s.dieCanton die.val = some k.val →
    exec (.rstDrst v die) s = exec (.rstCrst v k) s) ∧
  (∀ (s : State) (v : View) (die : Fin 64), die.val = 63 → exec (.rstDrst v die) s = .next s) ∧
  (∀ (s : State) (v : View) (die : Fin 64), die.val = 62 → (v = .host ∨ v = .mgmt) → s.dark = false → s.get R.BOOT_STATUS F.BOOT_STATUS_PHASE = 8 → s.pwr.resetNow = none →
    Yields (exec (.rstDrst v die) s) (fun t => t.pwr.resetNow = some ⟨4, 62⟩ ∧ ∀ k : Fin 8, (t.canton k).hostKeys = none ∧ (t.canton k).dataKeys = (s.canton k).dataKeys ∧
      ∀ g : Fin 16, exec (.ringEnable k g) t = .next t))

/-- Resets are taken from their sources, one includes, aborts or waits for another, and each reaches its dies alone
(rests on R15, R500, R501, R502, R504, R506). A reset asked for by the safety core, or of a dark module, does nothing;
before RUN the host's SRST, CRST, DRST and LRST do nothing, and so does one that the reset in progress includes; one
that neither includes nor is included waits. Begun in RUN: a CRST of an ASSIGNED canton makes it SCRUBBING at step 5,
without keys, its dies held in reset and its local stores zero; a DRST of a compute die zeroes its local store and no
other memory; an LRST retrains a port in use. Each raises 0x007D. An MRST leaves memory, keys and authorisations gone,
the identity as it was, RST_CAUSE 5, the count raised, and the start at PHASE 7 or in the recovery profile; with a
flash operation in progress it only waits. An SRST likewise with RST_CAUSE 6. When a reset is complete its dies leave
reset, and the oldest one that waits begins. -/
def Obligations.ResetsReachWhatTheyName : Prop :=
(∀ (s : State) (v : View) (env : StartEnv) (k : Fin 8) (die : Fin 64) (l : Fin 6), ∀ c ∈ [Instr.rstMrst v env, .rstSrst v env, .rstCrst v k, .rstDrst v die, .rstLrst v l],
    (s.dark = true → exec c s = .next s) ∧ (v = .safety → exec c s = .next s)) ∧
  (∀ (s : State) (env : StartEnv) (k : Fin 8) (die : Fin 64) (l : Fin 6), s.dark = false → k.val < s.cantons → die.val < 40 →
    (s.get R.BOOT_STATUS F.BOOT_STATUS_PHASE ≠ 8 → ∀ c ∈ [Instr.rstSrst .host env, .rstCrst .host k, .rstDrst .host die, .rstLrst .host l], exec c s = .next s) ∧
    (s.get R.BOOT_STATUS F.BOOT_STATUS_PHASE = 8 →
      (∀ n : ResetReq, s.pwr.resetNow = some n → s.includes n ⟨3, k.val⟩ = true → exec (.rstCrst .host k) s = .next s) ∧
      (∀ n : ResetReq, s.pwr.resetNow = some n → s.includes n ⟨3, k.val⟩ = false → s.includes ⟨3, k.val⟩ n = false →
        Yields (exec (.rstCrst .host k) s) (fun t => t.pwr.resets = s.pwr.resets ++ [⟨3, k.val⟩] ∧ t = { s with pwr := t.pwr })) ∧
      (s.pwr.resetNow = none →
        (s.polState k = 1 → Yields (exec (.rstCrst .host k) s) (fun t => t.pwr.resetNow = some ⟨3, k.val⟩ ∧ t.polState k = 2 ∧ t.get (R.SCRUB_STATUS k) F.SCRUB_STATUS_STEP = 5 ∧
          t.flag (R.SCRUB_STATUS k) F.SCRUB_STATUS_PEND = true ∧ (∀ x ∈ t.keySlots, x.1 ≠ k.val) ∧ OneEvent s t 0x007D 63 none ∧
          (∀ d ∈ s.cantonCds k, t.inReset.toList.getD d false = true ∧ ∀ i, i < lsBytes → t.byte (lsBase (fin40 d) + i) = 0) ∧
          (∀ d : Fin 40, d.val ∉ s.cantonCds k → ∀ i, i < lsBytes → t.byte (lsBase d + i) = s.byte (lsBase d + i)))) ∧
        Yields (exec (.rstDrst .host die) s) (fun t => t.pwr.resetNow = some ⟨4, die.val⟩ ∧ t.inReset[die] = true ∧ OneEvent s t 0x007D 63 none ∧
          (∀ i, i < lsBytes → t.byte (lsBase (fin40 die.val) + i) = 0) ∧
          (∀ a, (a < lsBase (fin40 die.val) ∨ lsBase (fin40 die.val) + lsBytes ≤ a) → (a < gasBase (fin40 die.val) ∨ gasBase (fin40 die.val) + gasBytes ≤ a) → t.byte a = s.byte a)) ∧
        (s.portState l ≠ 0 → Yields (exec (.rstLrst .host l) s) (fun t => t.pwr.resetNow = some ⟨5, l.val⟩ ∧ OneEvent s t 0x007D 63 none ∧ SameMem s t ∧
          t.portState l = (if s.flag (R.LK_CFG l) F.LK_CFG_EN then 1 else 3) ∧ ∀ m : Fin 6, m ≠ l → t.port m = s.port m)) ∧
        (Inv s → s.pwr.nv = none → Yields (exec (.rstMrst .host env) s) (fun t => (∀ a, t.byte a = 0) ∧ t.keySlots = [] ∧ t.releases = [] ∧ t.sec.identity = s.sec.identity ∧
          t.get R.RST_CAUSE F.RST_CAUSE_LAST = 5 ∧ t.get R.RST_COUNT F.RST_COUNT_RESETS = satN (2 ^ 16 - 1) (s.get R.RST_COUNT F.RST_COUNT_RESETS + 1) ∧
          t.get R.BOOT_STATUS F.BOOT_STATUS_START = 2 ∧ (t.get R.BOOT_STATUS F.BOOT_STATUS_PHASE = 7 ∨ t.get R.BOOT_STATUS F.BOOT_STATUS_PHASE = 9) ∧
          ∃ e ∈ t.events, e.code = 0x007D)) ∧
        (s.pwr.nv.isSome = true → s.pwr.mode ≠ .starting → exec (.rstMrst .host env) s = .next { s with pwr := { s.pwr with mrstWaits := some 5 } }) ∧
        Yields (exec (.rstSrst .host env) s) (fun t => (∀ a, t.byte a = 0) ∧ (∀ j, j < 8 → t.polState j = 0) ∧ (∀ x ∈ t.keySlots, 8 ≤ x.1) ∧
          t.sec.identity = s.sec.identity ∧ t.get R.RST_CAUSE F.RST_CAUSE_LAST = 6 ∧ t.get R.BOOT_STATUS F.BOOT_STATUS_START = 3 ∧ t.host.mseq = s.host.mseq ∧
          (t.get R.BOOT_STATUS F.BOOT_STATUS_PHASE = 7 ∨ t.get R.BOOT_STATUS F.BOOT_STATUS_PHASE = 9) ∧ ∃ e ∈ t.events, e.code = 0x007D)))) ∧
  (∀ (s : State) (r : ResetReq), s.pwr.resetNow = some r →
    (s.pwr.mode = .starting → exec .resetComplete s = .next s) ∧
    (s.pwr.mode ≠ .starting → s.pwr.resets = [] → Yields (exec .resetComplete s) (fun t => t.pwr.resetNow = none ∧
      (∀ d ∈ s.resetDies r, t.inReset.toList.getD d false = false) ∧ (∀ d : Fin 64, d.val ∉ s.resetDies r → t.inReset[d] = s.inReset[d]) ∧
      (∀ a, (∀ d, d < 64 → a ≠ R.FAB_PORT_STATUS (dieCrs d)) → t.rd a = s.rd a) ∧ t = { s with regs := t.regs, pwr := t.pwr, inReset := t.inReset })) ∧
    (∀ (n : ResetReq) (rest : List ResetReq), s.pwr.mode ≠ .starting → s.pwr.resets = n :: rest → s.get R.BOOT_STATUS F.BOOT_STATUS_PHASE = 8 →
      3 ≤ n.kind → n.kind ≤ 5 → Yields (exec .resetComplete s) (fun t => t.pwr.resetNow = some n ∧ t.pwr.resets = rest ∧ OneEvent s t 0x007D 63 none)))

/-- Each way back to power begins the start of its kind, with its cause, from empty memory, and ends at PHASE 7 or
recovery (rests on R470, R471, R477, R479, R481, R482, R495, R496, R503, R504, R525, R538). Power to a module without
any, an input that recovers from an undervoltage, the rising edge of MRST_N, WAKE_N in STANDBY, REFCLK returned after
its loss, and an input back in range after an overvoltage each begin the start of their kind: START and RST_CAUSE
record it, memory and keys are empty, and the steps end at PHASE 7, or 9 in the recovery profile. A quench from RUN
whose causes have cleared, neither overvoltage nor REFCLK, restarts by SRST with RST_CAUSE 7. In another mode these do
nothing (MRST_N, WAKE_N, power, the input). MRST_N held low resets the module, or waits for the flash operation in
progress, which a rising edge then notes. A start at PHASE 7 is completed: RUN, cores running, every canton FREE but
one whose scrub is unfinished, which is SCRUBBING; ports of an axis of length 1 are UNUSED; one whose steps have not
run runs them first, and ends in RUN or the recovery profile. A PLL that does not lock puts its die out of use, and a
shared die ends the start with RCAUSE 7 and 0x038E. -/
def Obligations.StartsFollowTheirCauses : Prop :=
(∀ (s : State) (env : StartEnv) (c : Instr) (start last : Nat),
    ((c = .powerOn env ∧ s.pwr.mode = .off ∧ start = 0 ∧ last = 0) ∨ (c = .inputRecovery env ∧ s.pwr.mode = .undervolt ∧ start = 1 ∧ last = 1) ∨
      (c = .mrstNRelease env ∧ s.pwr.mode = .mrstLow ∧ s.pwr.startKind = start ∧ (start = 2 ∨ start = 4) ∧ last = 4) ∨
      (c = .wakeAssert env ∧ s.pwr.mode = .standby ∧ start = 4 ∧ last = 5) ∨
      (c = .refclkRestore env ∧ s.pwr.mode = .noRef ∧ (∀ x ∈ s.rel.causes, x = .refclk) ∧ start = 5 ∧ last = 3) ∨
      (c = .overvoltageRecovery env ∧ s.pwr.mode = .overvolt ∧ (∀ x ∈ s.rel.causes, x = .overvolt) ∧ start = 6 ∧ last = 2)) →
    Yields (exec c s) (fun t => t.get R.BOOT_STATUS F.BOOT_STATUS_START = start ∧ t.get R.RST_CAUSE F.RST_CAUSE_LAST = last ∧ (∀ a, t.byte a = 0) ∧ t.keySlots = [] ∧ t.releases = [] ∧
      t.flag R.SF_STATUS F.SF_STATUS_QUENCHED = false ∧ (t.get R.BOOT_STATUS F.BOOT_STATUS_PHASE = 7 ∨ t.get R.BOOT_STATUS F.BOOT_STATUS_PHASE = 9) ∧
      ∃ e ∈ t.events, e.code = 0x007D ∧ e.die = 63)) ∧
  (∀ (s : State) (env : StartEnv), (s.pwr.mode ≠ .off → exec (.powerOn env) s = .next s) ∧ (s.pwr.mode ≠ .undervolt → exec (.inputRecovery env) s = .next s) ∧
    (s.pwr.mode ≠ .standby → exec (.wakeAssert env) s = .next s) ∧ (s.pwr.mode ≠ .mrstLow → s.pwr.mrstWaits ≠ some 4 → exec (.mrstNRelease env) s = .next s) ∧
    (s.pwr.mode ≠ .mrstLow → s.pwr.mrstWaits = some 4 → exec (.mrstNRelease env) s = .next { s with pwr := { s.pwr with mrstWaits := some 9 } }) ∧
    (s.pwr.mode ≠ .quenched → exec (.quenchRestart env) s = .next s) ∧ (s.pwr.mode ≠ .starting → exec (.startUpComplete env) s = .next s)) ∧
  (∀ (s : State) (env : StartEnv), s.pwr.mode = .quenched → s.quenchOver = true → s.get R.BOOT_STATUS F.BOOT_STATUS_PHASE = 8 → (s.rd R.SF_QLAST).toNat.testBit 2 = false →
    (s.rd R.SF_QLAST).toNat.testBit 3 = false →
    Yields (exec (.quenchRestart env) s) (fun t => t.get R.BOOT_STATUS F.BOOT_STATUS_START = 3 ∧ t.get R.RST_CAUSE F.RST_CAUSE_LAST = 7 ∧ (∀ a, t.byte a = 0) ∧
      (∀ k, k < 8 → t.polState k = 0) ∧ t.flag R.SF_STATUS F.SF_STATUS_QUENCHED = false ∧ t.sec.identity = s.sec.identity)) ∧
  (∀ (s : State), s.pwr.mode ≠ .off → s.pwr.mode ≠ .undervolt →
    (s.pwr.nv = none → Yields (exec .mrstNAssert s) (fun t => t.pwr.mode = .mrstLow ∧ (∀ a, t.byte a = 0) ∧ t.keySlots = [] ∧ t.sec.identity = s.sec.identity ∧
      t.pwr.startKind = (if s.pwr.mode = .standby then 4 else 2))) ∧
    (s.pwr.nv.isSome = true → Yields (exec .mrstNAssert s) (fun t => t = { s with pwr := { s.pwr with mrstWaits := some 4 } }))) ∧
  (∀ (s : State) (env : StartEnv), s.pwr.mode = .starting → s.get R.BOOT_STATUS F.BOOT_STATUS_PHASE = 7 → s.pwr.resets = [] → s.cantons ≤ 8 →
    Yields (exec (.startUpComplete env) s) (fun t => t.pwr.mode = .running ∧ t.get R.BOOT_STATUS F.BOOT_STATUS_PHASE = 8 ∧ t.pwr.coresRun = true ∧ t.pwr.resetNow = none ∧
      (∃ e ∈ t.events, e.code = 0x0078) ∧
      (∀ k, k < s.cantons → t.polState k = (if s.flag (R.SCRUB_STATUS k) F.SCRUB_STATUS_PEND then 2 else 0)) ∧
      (∀ l : Fin 6, s.axisLen (l.val / 2) = 1 → t.portState l = 0))) ∧
  (∀ (s : State) (env : StartEnv), s.pwr.mode = .starting → s.get R.BOOT_STATUS F.BOOT_STATUS_PHASE ≠ 7 → s.pwr.resets = [] →
    Yields (exec (.startUpComplete env) s) (fun t => t.pwr.mode = .running ∧
      ((t.get R.BOOT_STATUS F.BOOT_STATUS_PHASE = 8 ∧ t.pwr.coresRun = true) ∨ (t.get R.BOOT_STATUS F.BOOT_STATUS_PHASE = 9 ∧ t.pwr.coresRun = false)))) ∧
  (∀ (s : State) (die : Fin 64), s.pwr.mode = .starting →
    (die.val < 56 → Yields (exec (.pllLockTimeout die) s) (fun t => die.val ∈ t.deadDies ∧ (die.val, 0xF0) ∈ t.rel.unusable)) ∧
    (56 ≤ die.val → Yields (exec (.pllLockTimeout die) s) (fun t => t.get R.BOOT_STATUS F.BOOT_STATUS_PHASE = 9 ∧ t.get R.BOOT_STATUS F.BOOT_STATUS_RCAUSE = 7 ∧
      ∃ e ∈ t.events, e.code = 0x038E)))

/-- Undervoltage, overvoltage and REFCLK loss stop the module with their records; parking and STANDBY need an idle
canton (rests on R471, R488, R489, R491, R492, R493, R494, R495, R496, R506, R507). An undervoltage ends in a module
without memory or keys, RST_CAUSE 1, counted, with 0x0382 and a last-gasp record asked for. An overvoltage of a
clocked module quenches it, RST_CAUSE 2, with 0x0383. A loss of REFCLK is counted and shown with 0x0381, and quenches
a clocked module; in STANDBY it does nothing more. When the always-on domain loses power every register is at cold
reset and only the flash stays. PARK of a running canton not yet asked for is kept; once quiesced the canton is PARKED
with 0x007C, its local stores zero; not quiesced, it waits up to 1 s and is then abandoned with 0x007C. UNPARK of a
PARKED canton clears the bit with 0x007C, a park area that does not verify stops the canton with 0x3415; of another
canton it drops the request. STANDBY is entered from RUN with every canton FREE, otherwise only 0x007C is raised.
Reading PWR_VIN restarts MINMV. -/
def Obligations.PowerIsLostParkedAndStoodBy : Prop :=
(∀ (s : State), Inv s → s.pwr.mode ≠ .off → s.pwr.mode ≠ .undervolt → Yields (exec .undervoltage s) (fun t => t.pwr.mode = .undervolt ∧ (∀ a, t.byte a = 0) ∧ t.keySlots = [] ∧
    t.get R.RST_CAUSE F.RST_CAUSE_LAST = 1 ∧ t.get R.RST_COUNT F.RST_COUNT_UVPOR = satN (2 ^ 16 - 1) (s.get R.RST_COUNT F.RST_COUNT_UVPOR + 1) ∧
    (∃ w ∈ t.pwr.nvWait, w.owner = 2 ∧ w.since = s.now) ∧ OneEvent s t 0x0382 63 none)) ∧
  (∀ (s : State), s.clocked = true → s.flag R.SF_STATUS F.SF_STATUS_QUENCHED = false → s.rel.quenches = [] → s.get R.SF_QLIMIT F.SF_QLIMIT_COUNT ≠ 0 →
    Yields (exec .overvoltage s) (fun t => t.pwr.mode = .overvolt ∧ t.flag R.SF_STATUS F.SF_STATUS_QUENCHED = true ∧ t.get R.RST_CAUSE F.RST_CAUSE_LAST = 2 ∧
      (∃ e f : Event, t.events = s.events ++ [e, f] ∧ e.code = 0x0389 ∧ f.code = 0x0383) ∧ SameMem s t) ∧
    Yields (exec .refclkLoss s) (fun t => t.pwr.mode = .noRef ∧ t.flag R.CLK_STATUS F.CLK_STATUS_REFOK = false ∧ t.flag R.CLK_STATUS F.CLK_STATUS_RCOSC = true ∧
      t.get R.CLK_STATUS F.CLK_STATUS_LOSSES = satN (2 ^ 16 - 1) (s.get R.CLK_STATUS F.CLK_STATUS_LOSSES + 1) ∧
      (∃ e f : Event, t.events = s.events ++ [e, f] ∧ e.code = 0x0381 ∧ f.code = 0x0389) ∧ SameMem s t)) ∧
  (∀ (s : State), s.pwr.mode = .standby → s.flag R.SF_STATUS F.SF_STATUS_QUENCHED = false →
    Yields (exec .refclkLoss s) (fun t => OneEvent s t 0x0381 63 none ∧ OnlyRegs [R.CLK_STATUS] s t ∧ t = { s with regs := t.regs, events := t.events })) ∧
  (∀ (s : State), Yields (exec .alwaysOnPowerLoss s) (fun t => (∀ a, t.rd a = regReset a) ∧ (∀ a, t.byte a = 0) ∧ t.pwr.mode = .off ∧ t.keySlots = [] ∧
    t.sec.identity = none ∧ t.pwr.flash = s.nvFinish.pwr.flash ∧ (s.pwr.nv = none → t.pwr.flash = s.pwr.flash) ∧ t.now = s.now)) ∧
  (∀ (s : State) (k : Fin 8), k.val < s.cantons → s.parked k = false → s.pwr.mode = .running → (∀ x ∈ s.pwr.park, x.1 ≠ k.val) →
    Yields (exec (.park k) s) (fun t => t.pwr.park = s.pwr.park ++ [(k.val, s.now)] ∧ t = { s with pwr := t.pwr })) ∧
  (∀ (s : State) (k : Fin 8) (since : Nat), s.pwr.park.find? (fun x => x.1 == k.val) = some (k.val, since) →
    (s.quiesced k = true → Yields (exec (.parkQuiesceCheck k) s) (fun t => t.parked k = true ∧ (∀ x ∈ t.pwr.park, x.1 ≠ k.val) ∧ (∃ e ∈ t.events, e.code = 0x007C ∧ e.canton = some k.val) ∧
      (∀ d ∈ s.cantonCds k, ∀ i, i < lsBytes → t.byte (lsBase (fin40 d) + i) = 0) ∧ t.keySlots = s.keySlots ∧ (∀ x ∈ (t.canton k).images, x.runs = false))) ∧
    (s.quiesced k = false → since + secTicks ≤ s.now → Yields (exec (.parkQuiesceCheck k) s) (fun t => OneEvent s t 0x007C 63 (some k.val) ∧ (∀ x ∈ t.pwr.park, x.1 ≠ k.val) ∧
      t = { s with pwr := t.pwr, events := t.events })) ∧
    (s.quiesced k = false → s.now < since + secTicks → exec (.parkQuiesceCheck k) s = .next s)) ∧
  (∀ (s : State) (k : Fin 8),
    (s.parked k = true → (∀ m ∈ s.cantonMds k, ∀ c : Fin 2, (s.chan (fin16 m) c).saved = (s.chan (fin16 m) c).root) → Yields (exec (.unpark k []) s) (fun t => t.parked k = false ∧ (∀ j : Fin 8, j ≠ k → t.parked j = s.parked j) ∧ OneEvent s t 0x007C 63 (some k.val) ∧
      (∀ d ∈ s.cantonCds k, ∀ i, i < lsBytes → t.byte (lsBase (fin40 d) + i) = 0))) ∧
    (∀ bad : List (Fin 16), s.parked k = true → (∃ m ∈ s.cantonMds k, fin16 m ∈ bad) → Yields (exec (.unpark k bad) s) (fun t => t.parked k = false ∧
      (∃ e ∈ t.events, e.code = 0x3415 ∧ e.canton = some k.val) ∧ t.cantonStopped k = true ∧ ∀ m ∈ s.cantonMds k, (t.eng (fin16 m)).asleep = true)) ∧
    (∀ bad : List (Fin 16), s.parked k = false → Yields (exec (.unpark k bad) s) (fun t => (∀ x, x ∈ t.pwr.park ↔ x ∈ s.pwr.park ∧ x.1 ≠ k.val) ∧ t = { s with pwr := t.pwr }))) ∧
  (∀ (s : State),
    (s.pwr.mode = .running → s.throttled = false → s.get R.BOOT_STATUS F.BOOT_STATUS_PHASE = 8 → (∀ k, k < 8 → s.polState k = 0) →
      Yields (exec .standby s) (fun t => t.pwr.mode = .standby ∧ (∀ a, t.byte a = 0) ∧ t.sec.identity = s.sec.identity ∧ t.events = s.events)) ∧
    ((∃ k, k < 8 ∧ s.polState k ≠ 0) → Yields (exec .standby s) (fun t => OneEvent s t 0x007C 63 none ∧ t = { s with events := t.events })) ∧
    Yields (exec .pwrVinRead s) (fun t => t.resp = .value (s.rd R.PWR_VIN) ∧ t.get R.PWR_VIN F.PWR_VIN_MINMV = 0xFFFF ∧ t.get R.PWR_VIN F.PWR_VIN_MV = s.get R.PWR_VIN F.PWR_VIN_MV ∧
      OnlyRegs [R.PWR_VIN] s t ∧ t = { s with regs := t.regs, resp := t.resp }))
end

