-- ==== Sys2Proof/Laws/Sparse.lean ====
section
/-! SUPPORT. The laws of the sparse map: a read after a write, every other place left alone, the canonical form kept. -/
namespace Sys2Proof

variable {α : Type} (d : Nat → α)

@[simp] theorem Sparse.get_nil (k : Nat) : Sparse.get d [] k = d k := rfl

theorem Sparse.get_erase_of_ne (m : Sparse α) {k j : Nat} (h : j ≠ k) :
    Sparse.get d (Sparse.erase m k) j = Sparse.get d m j := by
  induction m with
  | nil => rfl
  | cons p m ih =>
    obtain ⟨a, x⟩ := p
    simp only [Sparse.erase]
    split
    · next hk => subst hk; simp [Sparse.get, h, ih]
    · simp [Sparse.get, ih]

theorem Sparse.get_erase_self (m : Sparse α) (k : Nat) : Sparse.get d (Sparse.erase m k) k = d k := by
  induction m with
  | nil => rfl
  | cons p m ih =>
    obtain ⟨a, x⟩ := p
    simp only [Sparse.erase]
    split
    · exact ih
    · next hk => simp [Sparse.get, hk, ih]

variable [DecidableEq α]

/-- A read after a write to the same place gives the value written. -/
theorem Sparse.get_set_self (m : Sparse α) (k : Nat) (v : α) : Sparse.get d (Sparse.set d m k v) k = v := by
  induction m with
  | nil => simp only [Sparse.set]; split <;> simp_all [Sparse.get]
  | cons p m ih =>
    obtain ⟨a, x⟩ := p
    simp only [Sparse.set]
    split
    · exact ih
    · next hk =>
      split
      · split
        · next hv => simp [Sparse.get, hk, Sparse.get_erase_self, hv]
        · simp [Sparse.get]
      · simp [Sparse.get, hk, ih]

/-- A write leaves every other place alone. -/
theorem Sparse.get_set_of_ne (m : Sparse α) {k j : Nat} (v : α) (h : j ≠ k) :
    Sparse.get d (Sparse.set d m k v) j = Sparse.get d m j := by
  induction m with
  | nil => simp only [Sparse.set]; split <;> simp [Sparse.get, h]
  | cons p m ih =>
    obtain ⟨a, x⟩ := p
    simp only [Sparse.set]
    split
    · next hk => subst hk; simp [Sparse.get, h, ih]
    · split
      · split <;> simp [Sparse.get, h, Sparse.get_erase_of_ne]
      · simp [Sparse.get, ih]

theorem Sparse.get_set (m : Sparse α) (k j : Nat) (v : α) :
    Sparse.get d (Sparse.set d m k v) j = if j = k then v else Sparse.get d m j := by
  split
  · next h => subst h; exact Sparse.get_set_self d m _ v
  · next h => exact Sparse.get_set_of_ne d m v h

/-! ### The canonical form -/

theorem Sparse.wfFrom_mono {m : Sparse α} {a b : Nat} (h : Sparse.wfFrom d b m = true) (hab : a ≤ b) :
    Sparse.wfFrom d a m = true := by
  cases m with
  | nil => rfl
  | cons p m =>
    obtain ⟨k, x⟩ := p
    simp only [Sparse.wfFrom, Bool.and_eq_true, decide_eq_true_eq] at h ⊢
    exact ⟨⟨le_trans hab h.1.1, h.1.2⟩, h.2⟩

theorem Sparse.wfFrom_erase {m : Sparse α} {a : Nat} (k : Nat) (h : Sparse.wfFrom d a m = true) :
    Sparse.wfFrom d a (Sparse.erase m k) = true := by
  induction m generalizing a with
  | nil => rfl
  | cons p m ih =>
    obtain ⟨b, x⟩ := p
    simp only [Sparse.wfFrom, Bool.and_eq_true, decide_eq_true_eq] at h
    simp only [Sparse.erase]
    split
    · exact ih (Sparse.wfFrom_mono d h.2 (by omega))
    · simp only [Sparse.wfFrom, Bool.and_eq_true, decide_eq_true_eq]
      exact ⟨h.1, ih h.2⟩

theorem Sparse.wfFrom_set_above {m : Sparse α} {k : Nat} (v : α) (h : Sparse.wfFrom d (k + 1) m = true) :
    Sparse.wfFrom d k (Sparse.set d m k v) = true := by
  cases m with
  | nil => simp only [Sparse.set]; split <;> simp_all [Sparse.wfFrom]
  | cons p m =>
    obtain ⟨b, x⟩ := p
    simp only [Sparse.wfFrom, Bool.and_eq_true, decide_eq_true_eq] at h
    have hne : ¬ k = b := by omega
    have hlt : k < b := by omega
    simp only [Sparse.set, if_neg hne, if_pos hlt]
    split
    · simp only [Sparse.wfFrom, Bool.and_eq_true, decide_eq_true_eq]
      exact ⟨⟨by omega, h.1.2⟩, Sparse.wfFrom_erase d k h.2⟩
    · next hv =>
      simp only [Sparse.wfFrom, Bool.and_eq_true, decide_eq_true_eq]
      exact ⟨⟨le_refl k, hv⟩, ⟨by omega, h.1.2⟩, Sparse.wfFrom_erase d k h.2⟩

theorem Sparse.wfFrom_set {m : Sparse α} {a : Nat} (k : Nat) (v : α) (hk : a ≤ k) (h : Sparse.wfFrom d a m = true) :
    Sparse.wfFrom d a (Sparse.set d m k v) = true := by
  induction m generalizing a with
  | nil => simp only [Sparse.set]; split <;> simp_all [Sparse.wfFrom]
  | cons p m ih =>
    obtain ⟨b, x⟩ := p
    simp only [Sparse.wfFrom, Bool.and_eq_true, decide_eq_true_eq] at h
    simp only [Sparse.set]
    split
    · next e =>
      subst e
      exact Sparse.wfFrom_mono d (Sparse.wfFrom_set_above d v h.2) h.1.1
    · split
      · split
        · simp only [Sparse.wfFrom, Bool.and_eq_true, decide_eq_true_eq]
          exact ⟨h.1, Sparse.wfFrom_erase d k h.2⟩
        · next hlt hv =>
          simp only [Sparse.wfFrom, Bool.and_eq_true, decide_eq_true_eq]
          exact ⟨⟨hk, hv⟩, ⟨by omega, h.1.2⟩, Sparse.wfFrom_erase d k h.2⟩
      · simp only [Sparse.wfFrom, Bool.and_eq_true, decide_eq_true_eq]
        exact ⟨h.1, ih (by omega) h.2⟩

/-- A write keeps the canonical form. -/
theorem Sparse.wf_set {m : Sparse α} (k : Nat) (v : α) (h : Sparse.wf d m = true) :
    Sparse.wf d (Sparse.set d m k v) = true := Sparse.wfFrom_set d k v (Nat.zero_le k) h

/-- Leaving entries out keeps the canonical form. -/
theorem Sparse.wfFrom_filter {m : Sparse α} {a : Nat} (p : Nat × α → Bool) (h : Sparse.wfFrom d a m = true) :
    Sparse.wfFrom d a (m.filter p) = true := by
  induction m generalizing a with
  | nil => rfl
  | cons q m ih =>
    obtain ⟨b, x⟩ := q
    simp only [Sparse.wfFrom, Bool.and_eq_true, decide_eq_true_eq] at h
    simp only [List.filter]
    split
    · simp only [Sparse.wfFrom, Bool.and_eq_true, decide_eq_true_eq]
      exact ⟨h.1, ih h.2⟩
    · exact ih (Sparse.wfFrom_mono d h.2 (by omega))

theorem Sparse.wf_filter {m : Sparse α} (p : Nat × α → Bool) (h : Sparse.wf d m = true) :
    Sparse.wf d (m.filter p) = true := Sparse.wfFrom_filter d p h

/-- A key below every listed one reads as an unlisted key. -/
theorem Sparse.get_below {m : Sparse α} {a k : Nat} (h : Sparse.wfFrom d a m = true) (hk : k < a) :
    Sparse.get d m k = d k := by
  induction m generalizing a with
  | nil => rfl
  | cons p m ih =>
    obtain ⟨b, x⟩ := p
    simp only [Sparse.wfFrom, Bool.and_eq_true, decide_eq_true_eq] at h
    have hne : ¬ k = b := by omega
    simp only [Sparse.get, if_neg hne]
    exact ih h.2 (by omega)

theorem Sparse.ext_from {m n : Sparse α} {a : Nat} (hm : Sparse.wfFrom d a m = true) (hn : Sparse.wfFrom d a n = true)
    (h : ∀ k, Sparse.get d m k = Sparse.get d n k) : m = n := by
  induction m generalizing n a with
  | nil =>
    cases n with
    | nil => rfl
    | cons p n =>
      obtain ⟨b, x⟩ := p
      simp only [Sparse.wfFrom, Bool.and_eq_true, decide_eq_true_eq] at hn
      have := h b
      simp [Sparse.get] at this
      exact absurd this.symm hn.1.2
  | cons p m ih =>
    obtain ⟨b, x⟩ := p
    simp only [Sparse.wfFrom, Bool.and_eq_true, decide_eq_true_eq] at hm
    cases n with
    | nil =>
      have := h b
      simp [Sparse.get] at this
      exact absurd this hm.1.2
    | cons q n =>
      obtain ⟨c, y⟩ := q
      simp only [Sparse.wfFrom, Bool.and_eq_true, decide_eq_true_eq] at hn
      have hbc : b = c := by
        rcases Nat.lt_trichotomy b c with hlt | heq | hgt
        · have e := h b
          have hne : ¬ b = c := by omega
          simp only [Sparse.get, if_true, if_neg hne] at e
          rw [Sparse.get_below d hn.2 (by omega)] at e
          exact absurd e hm.1.2
        · exact heq
        · have e := h c
          have hne : ¬ c = b := by omega
          simp only [Sparse.get, if_true, if_neg hne] at e
          rw [Sparse.get_below d hm.2 (by omega)] at e
          exact absurd e.symm hn.1.2
      subst hbc
      have hx : x = y := by have := h b; simpa [Sparse.get] using this
      subst hx
      congr 1
      refine ih hm.2 hn.2 (fun k => ?_)
      by_cases hk : k = b
      · subst hk
        rw [Sparse.get_below d hm.2 (by omega), Sparse.get_below d hn.2 (by omega)]
      · have := h k
        simpa [Sparse.get, hk] using this

/-- Equal contents are equal data: two canonical maps that read alike everywhere are the same list. -/
theorem Sparse.ext {m n : Sparse α} (hm : Sparse.wf d m = true) (hn : Sparse.wf d n = true)
    (h : ∀ k, Sparse.get d m k = Sparse.get d n k) : m = n := Sparse.ext_from d hm hn h

end Sys2Proof
end

