-- ==== Sys2Proof/Laws/State.lean ====
section
/-! SUPPORT. What each named update of State leaves in each field: one lemma per field per update, true by unfolding,
so that no later proof unfolds a record update. -/
namespace Sys2Proof.Machine

variable (s : State)

/-! ### wr -/
@[simp] theorem State.wr_now (a : Nat) (x : W32) : (s.wr a x).now = s.now := rfl
@[simp] theorem State.wr_regs (a : Nat) (x : W32) : (s.wr a x).regs = Sparse.set regReset s.regs a x := rfl
@[simp] theorem State.wr_mem (a : Nat) (x : W32) : (s.wr a x).mem = s.mem := rfl
@[simp] theorem State.wr_poison (a : Nat) (x : W32) : (s.wr a x).poison = s.poison := rfl
@[simp] theorem State.wr_events (a : Nat) (x : W32) : (s.wr a x).events = s.events := rfl
@[simp] theorem State.wr_resp (a : Nat) (x : W32) : (s.wr a x).resp = s.resp := rfl
@[simp] theorem State.wr_free (a : Nat) (x : W32) : (s.wr a x).free = s.free := rfl
@[simp] theorem State.wr_latch (a : Nat) (x : W32) : (s.wr a x).latch = s.latch := rfl
@[simp] theorem State.wr_inReset (a : Nat) (x : W32) : (s.wr a x).inReset = s.inReset := rfl
@[simp] theorem State.wr_hostMask (a : Nat) (x : W32) : (s.wr a x).hostMask = s.hostMask := rfl
@[simp] theorem State.wr_cleared (a : Nat) (x : W32) : (s.wr a x).cleared = s.cleared := rfl
@[simp] theorem State.wr_fabRetry (a : Nat) (x : W32) : (s.wr a x).fabRetry = s.fabRetry := rfl
@[simp] theorem State.wr_packets (a : Nat) (x : W32) : (s.wr a x).packets = s.packets := rfl
@[simp] theorem State.wr_arbs (a : Nat) (x : W32) : (s.wr a x).arbs = s.arbs := rfl
@[simp] theorem State.wr_cds (a : Nat) (x : W32) : (s.wr a x).cds = s.cds := rfl
@[simp] theorem State.wr_deadDies (a : Nat) (x : W32) : (s.wr a x).deadDies = s.deadDies := rfl
@[simp] theorem State.wr_tables (a : Nat) (x : W32) : (s.wr a x).tables = s.tables := rfl
@[simp] theorem State.wr_cads (a : Nat) (x : W32) : (s.wr a x).cads = s.cads := rfl
@[simp] theorem State.wr_admitted (a : Nat) (x : W32) : (s.wr a x).admitted = s.admitted := rfl
@[simp] theorem State.wr_lostSteps (a : Nat) (x : W32) : (s.wr a x).lostSteps = s.lostSteps := rfl
@[simp] theorem State.wr_reqNo (a : Nat) (x : W32) : (s.wr a x).reqNo = s.reqNo := rfl
@[simp] theorem State.wr_got (a : Nat) (x : W32) : (s.wr a x).got = s.got := rfl
@[simp] theorem State.wr_busErrs (a : Nat) (x : W32) : (s.wr a x).busErrs = s.busErrs := rfl
@[simp] theorem State.wr_mds (a : Nat) (x : W32) : (s.wr a x).mds = s.mds := rfl
@[simp] theorem State.wr_moduleId (a : Nat) (x : W32) : (s.wr a x).moduleId = s.moduleId := rfl
@[simp] theorem State.wr_jobs (a : Nat) (x : W32) : (s.wr a x).jobs = s.jobs := rfl
@[simp] theorem State.wr_keySlots (a : Nat) (x : W32) : (s.wr a x).keySlots = s.keySlots := rfl
@[simp] theorem State.wr_releases (a : Nat) (x : W32) : (s.wr a x).releases = s.releases := rfl
@[simp] theorem State.wr_groups (a : Nat) (x : W32) : (s.wr a x).groups = s.groups := rfl
@[simp] theorem State.wr_outbox (a : Nat) (x : W32) : (s.wr a x).outbox = s.outbox := rfl
@[simp] theorem State.wr_torusLen (a : Nat) (x : W32) : (s.wr a x).torusLen = s.torusLen := rfl
@[simp] theorem State.wr_ports (a : Nat) (x : W32) : (s.wr a x).ports = s.ports := rfl
@[simp] theorem State.wr_arrived (a : Nat) (x : W32) : (s.wr a x).arrived = s.arrived := rfl
@[simp] theorem State.wr_exch (a : Nat) (x : W32) : (s.wr a x).exch = s.exch := rfl
@[simp] theorem State.wr_sites (a : Nat) (x : W32) : (s.wr a x).sites = s.sites := rfl
@[simp] theorem State.wr_pairSecrets (a : Nat) (x : W32) : (s.wr a x).pairSecrets = s.pairSecrets := rfl
@[simp] theorem State.wr_sec (a : Nat) (x : W32) : (s.wr a x).sec = s.sec := rfl
@[simp] theorem State.wr_host (a : Nat) (x : W32) : (s.wr a x).host = s.host := rfl
@[simp] theorem State.wr_pwr (a : Nat) (x : W32) : (s.wr a x).pwr = s.pwr := rfl
@[simp] theorem State.wr_rel (a : Nat) (x : W32) : (s.wr a x).rel = s.rel := rfl
@[simp] theorem State.wr_pending (a : Nat) (x : W32) : (s.wr a x).pending = s.pending := rfl
@[simp] theorem State.byte_wr (a : Nat) (x : W32) (r : Nat) : (s.wr a x).byte r = s.byte r := rfl
@[simp] theorem State.cd_wr (a : Nat) (x : W32) (r : Fin 40) : (s.wr a x).cd r = s.cd r := rfl
@[simp] theorem State.md_wr (a : Nat) (x : W32) (r : Fin 16) : (s.wr a x).md r = s.md r := rfl

/-! ### put -/
@[simp] theorem State.put_now (a : Nat) (f : Fld) (n : Nat) : (s.put a f n).now = s.now := rfl
@[simp] theorem State.put_regs (a : Nat) (f : Fld) (n : Nat) : (s.put a f n).regs = Sparse.set regReset s.regs a (fldSet (s.rd a) f n) := rfl
@[simp] theorem State.put_mem (a : Nat) (f : Fld) (n : Nat) : (s.put a f n).mem = s.mem := rfl
@[simp] theorem State.put_poison (a : Nat) (f : Fld) (n : Nat) : (s.put a f n).poison = s.poison := rfl
@[simp] theorem State.put_events (a : Nat) (f : Fld) (n : Nat) : (s.put a f n).events = s.events := rfl
@[simp] theorem State.put_resp (a : Nat) (f : Fld) (n : Nat) : (s.put a f n).resp = s.resp := rfl
@[simp] theorem State.put_free (a : Nat) (f : Fld) (n : Nat) : (s.put a f n).free = s.free := rfl
@[simp] theorem State.put_latch (a : Nat) (f : Fld) (n : Nat) : (s.put a f n).latch = s.latch := rfl
@[simp] theorem State.put_inReset (a : Nat) (f : Fld) (n : Nat) : (s.put a f n).inReset = s.inReset := rfl
@[simp] theorem State.put_hostMask (a : Nat) (f : Fld) (n : Nat) : (s.put a f n).hostMask = s.hostMask := rfl
@[simp] theorem State.put_cleared (a : Nat) (f : Fld) (n : Nat) : (s.put a f n).cleared = s.cleared := rfl
@[simp] theorem State.put_fabRetry (a : Nat) (f : Fld) (n : Nat) : (s.put a f n).fabRetry = s.fabRetry := rfl
@[simp] theorem State.put_packets (a : Nat) (f : Fld) (n : Nat) : (s.put a f n).packets = s.packets := rfl
@[simp] theorem State.put_arbs (a : Nat) (f : Fld) (n : Nat) : (s.put a f n).arbs = s.arbs := rfl
@[simp] theorem State.put_cds (a : Nat) (f : Fld) (n : Nat) : (s.put a f n).cds = s.cds := rfl
@[simp] theorem State.put_deadDies (a : Nat) (f : Fld) (n : Nat) : (s.put a f n).deadDies = s.deadDies := rfl
@[simp] theorem State.put_tables (a : Nat) (f : Fld) (n : Nat) : (s.put a f n).tables = s.tables := rfl
@[simp] theorem State.put_cads (a : Nat) (f : Fld) (n : Nat) : (s.put a f n).cads = s.cads := rfl
@[simp] theorem State.put_admitted (a : Nat) (f : Fld) (n : Nat) : (s.put a f n).admitted = s.admitted := rfl
@[simp] theorem State.put_lostSteps (a : Nat) (f : Fld) (n : Nat) : (s.put a f n).lostSteps = s.lostSteps := rfl
@[simp] theorem State.put_reqNo (a : Nat) (f : Fld) (n : Nat) : (s.put a f n).reqNo = s.reqNo := rfl
@[simp] theorem State.put_got (a : Nat) (f : Fld) (n : Nat) : (s.put a f n).got = s.got := rfl
@[simp] theorem State.put_busErrs (a : Nat) (f : Fld) (n : Nat) : (s.put a f n).busErrs = s.busErrs := rfl
@[simp] theorem State.put_mds (a : Nat) (f : Fld) (n : Nat) : (s.put a f n).mds = s.mds := rfl
@[simp] theorem State.put_moduleId (a : Nat) (f : Fld) (n : Nat) : (s.put a f n).moduleId = s.moduleId := rfl
@[simp] theorem State.put_jobs (a : Nat) (f : Fld) (n : Nat) : (s.put a f n).jobs = s.jobs := rfl
@[simp] theorem State.put_keySlots (a : Nat) (f : Fld) (n : Nat) : (s.put a f n).keySlots = s.keySlots := rfl
@[simp] theorem State.put_releases (a : Nat) (f : Fld) (n : Nat) : (s.put a f n).releases = s.releases := rfl
@[simp] theorem State.put_groups (a : Nat) (f : Fld) (n : Nat) : (s.put a f n).groups = s.groups := rfl
@[simp] theorem State.put_outbox (a : Nat) (f : Fld) (n : Nat) : (s.put a f n).outbox = s.outbox := rfl
@[simp] theorem State.put_torusLen (a : Nat) (f : Fld) (n : Nat) : (s.put a f n).torusLen = s.torusLen := rfl
@[simp] theorem State.put_ports (a : Nat) (f : Fld) (n : Nat) : (s.put a f n).ports = s.ports := rfl
@[simp] theorem State.put_arrived (a : Nat) (f : Fld) (n : Nat) : (s.put a f n).arrived = s.arrived := rfl
@[simp] theorem State.put_exch (a : Nat) (f : Fld) (n : Nat) : (s.put a f n).exch = s.exch := rfl
@[simp] theorem State.put_sites (a : Nat) (f : Fld) (n : Nat) : (s.put a f n).sites = s.sites := rfl
@[simp] theorem State.put_pairSecrets (a : Nat) (f : Fld) (n : Nat) : (s.put a f n).pairSecrets = s.pairSecrets := rfl
@[simp] theorem State.put_sec (a : Nat) (f : Fld) (n : Nat) : (s.put a f n).sec = s.sec := rfl
@[simp] theorem State.put_host (a : Nat) (f : Fld) (n : Nat) : (s.put a f n).host = s.host := rfl
@[simp] theorem State.put_pwr (a : Nat) (f : Fld) (n : Nat) : (s.put a f n).pwr = s.pwr := rfl
@[simp] theorem State.put_rel (a : Nat) (f : Fld) (n : Nat) : (s.put a f n).rel = s.rel := rfl
@[simp] theorem State.put_pending (a : Nat) (f : Fld) (n : Nat) : (s.put a f n).pending = s.pending := rfl
@[simp] theorem State.byte_put (a : Nat) (f : Fld) (n : Nat) (r : Nat) : (s.put a f n).byte r = s.byte r := rfl
@[simp] theorem State.cd_put (a : Nat) (f : Fld) (n : Nat) (r : Fin 40) : (s.put a f n).cd r = s.cd r := rfl
@[simp] theorem State.md_put (a : Nat) (f : Fld) (n : Nat) (r : Fin 16) : (s.put a f n).md r = s.md r := rfl

/-! ### bump -/
@[simp] theorem State.bump_now (a : Nat) (f : Fld) (n : Nat) : (s.bump a f n).now = s.now := rfl
@[simp] theorem State.bump_mem (a : Nat) (f : Fld) (n : Nat) : (s.bump a f n).mem = s.mem := rfl
@[simp] theorem State.bump_poison (a : Nat) (f : Fld) (n : Nat) : (s.bump a f n).poison = s.poison := rfl
@[simp] theorem State.bump_events (a : Nat) (f : Fld) (n : Nat) : (s.bump a f n).events = s.events := rfl
@[simp] theorem State.bump_resp (a : Nat) (f : Fld) (n : Nat) : (s.bump a f n).resp = s.resp := rfl
@[simp] theorem State.bump_free (a : Nat) (f : Fld) (n : Nat) : (s.bump a f n).free = s.free := rfl
@[simp] theorem State.bump_latch (a : Nat) (f : Fld) (n : Nat) : (s.bump a f n).latch = s.latch := rfl
@[simp] theorem State.bump_inReset (a : Nat) (f : Fld) (n : Nat) : (s.bump a f n).inReset = s.inReset := rfl
@[simp] theorem State.bump_hostMask (a : Nat) (f : Fld) (n : Nat) : (s.bump a f n).hostMask = s.hostMask := rfl
@[simp] theorem State.bump_cleared (a : Nat) (f : Fld) (n : Nat) : (s.bump a f n).cleared = s.cleared := rfl
@[simp] theorem State.bump_fabRetry (a : Nat) (f : Fld) (n : Nat) : (s.bump a f n).fabRetry = s.fabRetry := rfl
@[simp] theorem State.bump_packets (a : Nat) (f : Fld) (n : Nat) : (s.bump a f n).packets = s.packets := rfl
@[simp] theorem State.bump_arbs (a : Nat) (f : Fld) (n : Nat) : (s.bump a f n).arbs = s.arbs := rfl
@[simp] theorem State.bump_cds (a : Nat) (f : Fld) (n : Nat) : (s.bump a f n).cds = s.cds := rfl
@[simp] theorem State.bump_deadDies (a : Nat) (f : Fld) (n : Nat) : (s.bump a f n).deadDies = s.deadDies := rfl
@[simp] theorem State.bump_tables (a : Nat) (f : Fld) (n : Nat) : (s.bump a f n).tables = s.tables := rfl
@[simp] theorem State.bump_cads (a : Nat) (f : Fld) (n : Nat) : (s.bump a f n).cads = s.cads := rfl
@[simp] theorem State.bump_admitted (a : Nat) (f : Fld) (n : Nat) : (s.bump a f n).admitted = s.admitted := rfl
@[simp] theorem State.bump_lostSteps (a : Nat) (f : Fld) (n : Nat) : (s.bump a f n).lostSteps = s.lostSteps := rfl
@[simp] theorem State.bump_reqNo (a : Nat) (f : Fld) (n : Nat) : (s.bump a f n).reqNo = s.reqNo := rfl
@[simp] theorem State.bump_got (a : Nat) (f : Fld) (n : Nat) : (s.bump a f n).got = s.got := rfl
@[simp] theorem State.bump_busErrs (a : Nat) (f : Fld) (n : Nat) : (s.bump a f n).busErrs = s.busErrs := rfl
@[simp] theorem State.bump_mds (a : Nat) (f : Fld) (n : Nat) : (s.bump a f n).mds = s.mds := rfl
@[simp] theorem State.bump_moduleId (a : Nat) (f : Fld) (n : Nat) : (s.bump a f n).moduleId = s.moduleId := rfl
@[simp] theorem State.bump_jobs (a : Nat) (f : Fld) (n : Nat) : (s.bump a f n).jobs = s.jobs := rfl
@[simp] theorem State.bump_keySlots (a : Nat) (f : Fld) (n : Nat) : (s.bump a f n).keySlots = s.keySlots := rfl
@[simp] theorem State.bump_releases (a : Nat) (f : Fld) (n : Nat) : (s.bump a f n).releases = s.releases := rfl
@[simp] theorem State.bump_groups (a : Nat) (f : Fld) (n : Nat) : (s.bump a f n).groups = s.groups := rfl
@[simp] theorem State.bump_outbox (a : Nat) (f : Fld) (n : Nat) : (s.bump a f n).outbox = s.outbox := rfl
@[simp] theorem State.bump_torusLen (a : Nat) (f : Fld) (n : Nat) : (s.bump a f n).torusLen = s.torusLen := rfl
@[simp] theorem State.bump_ports (a : Nat) (f : Fld) (n : Nat) : (s.bump a f n).ports = s.ports := rfl
@[simp] theorem State.bump_arrived (a : Nat) (f : Fld) (n : Nat) : (s.bump a f n).arrived = s.arrived := rfl
@[simp] theorem State.bump_exch (a : Nat) (f : Fld) (n : Nat) : (s.bump a f n).exch = s.exch := rfl
@[simp] theorem State.bump_sites (a : Nat) (f : Fld) (n : Nat) : (s.bump a f n).sites = s.sites := rfl
@[simp] theorem State.bump_pairSecrets (a : Nat) (f : Fld) (n : Nat) : (s.bump a f n).pairSecrets = s.pairSecrets := rfl
@[simp] theorem State.bump_sec (a : Nat) (f : Fld) (n : Nat) : (s.bump a f n).sec = s.sec := rfl
@[simp] theorem State.bump_host (a : Nat) (f : Fld) (n : Nat) : (s.bump a f n).host = s.host := rfl
@[simp] theorem State.bump_pwr (a : Nat) (f : Fld) (n : Nat) : (s.bump a f n).pwr = s.pwr := rfl
@[simp] theorem State.bump_rel (a : Nat) (f : Fld) (n : Nat) : (s.bump a f n).rel = s.rel := rfl
@[simp] theorem State.bump_pending (a : Nat) (f : Fld) (n : Nat) : (s.bump a f n).pending = s.pending := rfl
@[simp] theorem State.byte_bump (a : Nat) (f : Fld) (n : Nat) (r : Nat) : (s.bump a f n).byte r = s.byte r := rfl
@[simp] theorem State.cd_bump (a : Nat) (f : Fld) (n : Nat) (r : Fin 40) : (s.bump a f n).cd r = s.cd r := rfl
@[simp] theorem State.md_bump (a : Nat) (f : Fld) (n : Nat) (r : Fin 16) : (s.bump a f n).md r = s.md r := rfl

/-! ### bumpWrap -/
@[simp] theorem State.bumpWrap_now (a : Nat) (f : Fld) (n : Nat) : (s.bumpWrap a f n).now = s.now := rfl
@[simp] theorem State.bumpWrap_mem (a : Nat) (f : Fld) (n : Nat) : (s.bumpWrap a f n).mem = s.mem := rfl
@[simp] theorem State.bumpWrap_poison (a : Nat) (f : Fld) (n : Nat) : (s.bumpWrap a f n).poison = s.poison := rfl
@[simp] theorem State.bumpWrap_events (a : Nat) (f : Fld) (n : Nat) : (s.bumpWrap a f n).events = s.events := rfl
@[simp] theorem State.bumpWrap_resp (a : Nat) (f : Fld) (n : Nat) : (s.bumpWrap a f n).resp = s.resp := rfl
@[simp] theorem State.bumpWrap_free (a : Nat) (f : Fld) (n : Nat) : (s.bumpWrap a f n).free = s.free := rfl
@[simp] theorem State.bumpWrap_latch (a : Nat) (f : Fld) (n : Nat) : (s.bumpWrap a f n).latch = s.latch := rfl
@[simp] theorem State.bumpWrap_inReset (a : Nat) (f : Fld) (n : Nat) : (s.bumpWrap a f n).inReset = s.inReset := rfl
@[simp] theorem State.bumpWrap_hostMask (a : Nat) (f : Fld) (n : Nat) : (s.bumpWrap a f n).hostMask = s.hostMask := rfl
@[simp] theorem State.bumpWrap_cleared (a : Nat) (f : Fld) (n : Nat) : (s.bumpWrap a f n).cleared = s.cleared := rfl
@[simp] theorem State.bumpWrap_fabRetry (a : Nat) (f : Fld) (n : Nat) : (s.bumpWrap a f n).fabRetry = s.fabRetry := rfl
@[simp] theorem State.bumpWrap_packets (a : Nat) (f : Fld) (n : Nat) : (s.bumpWrap a f n).packets = s.packets := rfl
@[simp] theorem State.bumpWrap_arbs (a : Nat) (f : Fld) (n : Nat) : (s.bumpWrap a f n).arbs = s.arbs := rfl
@[simp] theorem State.bumpWrap_cds (a : Nat) (f : Fld) (n : Nat) : (s.bumpWrap a f n).cds = s.cds := rfl
@[simp] theorem State.bumpWrap_deadDies (a : Nat) (f : Fld) (n : Nat) : (s.bumpWrap a f n).deadDies = s.deadDies := rfl
@[simp] theorem State.bumpWrap_tables (a : Nat) (f : Fld) (n : Nat) : (s.bumpWrap a f n).tables = s.tables := rfl
@[simp] theorem State.bumpWrap_cads (a : Nat) (f : Fld) (n : Nat) : (s.bumpWrap a f n).cads = s.cads := rfl
@[simp] theorem State.bumpWrap_admitted (a : Nat) (f : Fld) (n : Nat) : (s.bumpWrap a f n).admitted = s.admitted := rfl
@[simp] theorem State.bumpWrap_lostSteps (a : Nat) (f : Fld) (n : Nat) : (s.bumpWrap a f n).lostSteps = s.lostSteps := rfl
@[simp] theorem State.bumpWrap_reqNo (a : Nat) (f : Fld) (n : Nat) : (s.bumpWrap a f n).reqNo = s.reqNo := rfl
@[simp] theorem State.bumpWrap_got (a : Nat) (f : Fld) (n : Nat) : (s.bumpWrap a f n).got = s.got := rfl
@[simp] theorem State.bumpWrap_busErrs (a : Nat) (f : Fld) (n : Nat) : (s.bumpWrap a f n).busErrs = s.busErrs := rfl
@[simp] theorem State.bumpWrap_mds (a : Nat) (f : Fld) (n : Nat) : (s.bumpWrap a f n).mds = s.mds := rfl
@[simp] theorem State.bumpWrap_moduleId (a : Nat) (f : Fld) (n : Nat) : (s.bumpWrap a f n).moduleId = s.moduleId := rfl
@[simp] theorem State.bumpWrap_jobs (a : Nat) (f : Fld) (n : Nat) : (s.bumpWrap a f n).jobs = s.jobs := rfl
@[simp] theorem State.bumpWrap_keySlots (a : Nat) (f : Fld) (n : Nat) : (s.bumpWrap a f n).keySlots = s.keySlots := rfl
@[simp] theorem State.bumpWrap_releases (a : Nat) (f : Fld) (n : Nat) : (s.bumpWrap a f n).releases = s.releases := rfl
@[simp] theorem State.bumpWrap_groups (a : Nat) (f : Fld) (n : Nat) : (s.bumpWrap a f n).groups = s.groups := rfl
@[simp] theorem State.bumpWrap_outbox (a : Nat) (f : Fld) (n : Nat) : (s.bumpWrap a f n).outbox = s.outbox := rfl
@[simp] theorem State.bumpWrap_torusLen (a : Nat) (f : Fld) (n : Nat) : (s.bumpWrap a f n).torusLen = s.torusLen := rfl
@[simp] theorem State.bumpWrap_ports (a : Nat) (f : Fld) (n : Nat) : (s.bumpWrap a f n).ports = s.ports := rfl
@[simp] theorem State.bumpWrap_arrived (a : Nat) (f : Fld) (n : Nat) : (s.bumpWrap a f n).arrived = s.arrived := rfl
@[simp] theorem State.bumpWrap_exch (a : Nat) (f : Fld) (n : Nat) : (s.bumpWrap a f n).exch = s.exch := rfl
@[simp] theorem State.bumpWrap_sites (a : Nat) (f : Fld) (n : Nat) : (s.bumpWrap a f n).sites = s.sites := rfl
@[simp] theorem State.bumpWrap_pairSecrets (a : Nat) (f : Fld) (n : Nat) : (s.bumpWrap a f n).pairSecrets = s.pairSecrets := rfl
@[simp] theorem State.bumpWrap_sec (a : Nat) (f : Fld) (n : Nat) : (s.bumpWrap a f n).sec = s.sec := rfl
@[simp] theorem State.bumpWrap_host (a : Nat) (f : Fld) (n : Nat) : (s.bumpWrap a f n).host = s.host := rfl
@[simp] theorem State.bumpWrap_pwr (a : Nat) (f : Fld) (n : Nat) : (s.bumpWrap a f n).pwr = s.pwr := rfl
@[simp] theorem State.bumpWrap_rel (a : Nat) (f : Fld) (n : Nat) : (s.bumpWrap a f n).rel = s.rel := rfl
@[simp] theorem State.bumpWrap_pending (a : Nat) (f : Fld) (n : Nat) : (s.bumpWrap a f n).pending = s.pending := rfl
@[simp] theorem State.byte_bumpWrap (a : Nat) (f : Fld) (n : Nat) (r : Nat) : (s.bumpWrap a f n).byte r = s.byte r := rfl
@[simp] theorem State.cd_bumpWrap (a : Nat) (f : Fld) (n : Nat) (r : Fin 40) : (s.bumpWrap a f n).cd r = s.cd r := rfl
@[simp] theorem State.md_bumpWrap (a : Nat) (f : Fld) (n : Nat) (r : Fin 16) : (s.bumpWrap a f n).md r = s.md r := rfl

/-! ### put64 -/
@[simp] theorem State.put64_now (lo hi n : Nat) : (s.put64 lo hi n).now = s.now := rfl
@[simp] theorem State.put64_mem (lo hi n : Nat) : (s.put64 lo hi n).mem = s.mem := rfl
@[simp] theorem State.put64_poison (lo hi n : Nat) : (s.put64 lo hi n).poison = s.poison := rfl
@[simp] theorem State.put64_events (lo hi n : Nat) : (s.put64 lo hi n).events = s.events := rfl
@[simp] theorem State.put64_resp (lo hi n : Nat) : (s.put64 lo hi n).resp = s.resp := rfl
@[simp] theorem State.put64_free (lo hi n : Nat) : (s.put64 lo hi n).free = s.free := rfl
@[simp] theorem State.put64_latch (lo hi n : Nat) : (s.put64 lo hi n).latch = s.latch := rfl
@[simp] theorem State.put64_inReset (lo hi n : Nat) : (s.put64 lo hi n).inReset = s.inReset := rfl
@[simp] theorem State.put64_hostMask (lo hi n : Nat) : (s.put64 lo hi n).hostMask = s.hostMask := rfl
@[simp] theorem State.put64_cleared (lo hi n : Nat) : (s.put64 lo hi n).cleared = s.cleared := rfl
@[simp] theorem State.put64_fabRetry (lo hi n : Nat) : (s.put64 lo hi n).fabRetry = s.fabRetry := rfl
@[simp] theorem State.put64_packets (lo hi n : Nat) : (s.put64 lo hi n).packets = s.packets := rfl
@[simp] theorem State.put64_arbs (lo hi n : Nat) : (s.put64 lo hi n).arbs = s.arbs := rfl
@[simp] theorem State.put64_cds (lo hi n : Nat) : (s.put64 lo hi n).cds = s.cds := rfl
@[simp] theorem State.put64_deadDies (lo hi n : Nat) : (s.put64 lo hi n).deadDies = s.deadDies := rfl
@[simp] theorem State.put64_tables (lo hi n : Nat) : (s.put64 lo hi n).tables = s.tables := rfl
@[simp] theorem State.put64_cads (lo hi n : Nat) : (s.put64 lo hi n).cads = s.cads := rfl
@[simp] theorem State.put64_admitted (lo hi n : Nat) : (s.put64 lo hi n).admitted = s.admitted := rfl
@[simp] theorem State.put64_lostSteps (lo hi n : Nat) : (s.put64 lo hi n).lostSteps = s.lostSteps := rfl
@[simp] theorem State.put64_reqNo (lo hi n : Nat) : (s.put64 lo hi n).reqNo = s.reqNo := rfl
@[simp] theorem State.put64_got (lo hi n : Nat) : (s.put64 lo hi n).got = s.got := rfl
@[simp] theorem State.put64_busErrs (lo hi n : Nat) : (s.put64 lo hi n).busErrs = s.busErrs := rfl
@[simp] theorem State.put64_mds (lo hi n : Nat) : (s.put64 lo hi n).mds = s.mds := rfl
@[simp] theorem State.put64_moduleId (lo hi n : Nat) : (s.put64 lo hi n).moduleId = s.moduleId := rfl
@[simp] theorem State.put64_jobs (lo hi n : Nat) : (s.put64 lo hi n).jobs = s.jobs := rfl
@[simp] theorem State.put64_keySlots (lo hi n : Nat) : (s.put64 lo hi n).keySlots = s.keySlots := rfl
@[simp] theorem State.put64_releases (lo hi n : Nat) : (s.put64 lo hi n).releases = s.releases := rfl
@[simp] theorem State.put64_groups (lo hi n : Nat) : (s.put64 lo hi n).groups = s.groups := rfl
@[simp] theorem State.put64_outbox (lo hi n : Nat) : (s.put64 lo hi n).outbox = s.outbox := rfl
@[simp] theorem State.put64_torusLen (lo hi n : Nat) : (s.put64 lo hi n).torusLen = s.torusLen := rfl
@[simp] theorem State.put64_ports (lo hi n : Nat) : (s.put64 lo hi n).ports = s.ports := rfl
@[simp] theorem State.put64_arrived (lo hi n : Nat) : (s.put64 lo hi n).arrived = s.arrived := rfl
@[simp] theorem State.put64_exch (lo hi n : Nat) : (s.put64 lo hi n).exch = s.exch := rfl
@[simp] theorem State.put64_sites (lo hi n : Nat) : (s.put64 lo hi n).sites = s.sites := rfl
@[simp] theorem State.put64_pairSecrets (lo hi n : Nat) : (s.put64 lo hi n).pairSecrets = s.pairSecrets := rfl
@[simp] theorem State.put64_sec (lo hi n : Nat) : (s.put64 lo hi n).sec = s.sec := rfl
@[simp] theorem State.put64_host (lo hi n : Nat) : (s.put64 lo hi n).host = s.host := rfl
@[simp] theorem State.put64_pwr (lo hi n : Nat) : (s.put64 lo hi n).pwr = s.pwr := rfl
@[simp] theorem State.put64_rel (lo hi n : Nat) : (s.put64 lo hi n).rel = s.rel := rfl
@[simp] theorem State.put64_pending (lo hi n : Nat) : (s.put64 lo hi n).pending = s.pending := rfl
@[simp] theorem State.byte_put64 (lo hi n : Nat) (r : Nat) : (s.put64 lo hi n).byte r = s.byte r := rfl
@[simp] theorem State.cd_put64 (lo hi n : Nat) (r : Fin 40) : (s.put64 lo hi n).cd r = s.cd r := rfl
@[simp] theorem State.md_put64 (lo hi n : Nat) (r : Fin 16) : (s.put64 lo hi n).md r = s.md r := rfl

/-! ### add64 -/
@[simp] theorem State.add64_now (lo hi n : Nat) : (s.add64 lo hi n).now = s.now := rfl
@[simp] theorem State.add64_mem (lo hi n : Nat) : (s.add64 lo hi n).mem = s.mem := rfl
@[simp] theorem State.add64_poison (lo hi n : Nat) : (s.add64 lo hi n).poison = s.poison := rfl
@[simp] theorem State.add64_events (lo hi n : Nat) : (s.add64 lo hi n).events = s.events := rfl
@[simp] theorem State.add64_resp (lo hi n : Nat) : (s.add64 lo hi n).resp = s.resp := rfl
@[simp] theorem State.add64_free (lo hi n : Nat) : (s.add64 lo hi n).free = s.free := rfl
@[simp] theorem State.add64_latch (lo hi n : Nat) : (s.add64 lo hi n).latch = s.latch := rfl
@[simp] theorem State.add64_inReset (lo hi n : Nat) : (s.add64 lo hi n).inReset = s.inReset := rfl
@[simp] theorem State.add64_hostMask (lo hi n : Nat) : (s.add64 lo hi n).hostMask = s.hostMask := rfl
@[simp] theorem State.add64_cleared (lo hi n : Nat) : (s.add64 lo hi n).cleared = s.cleared := rfl
@[simp] theorem State.add64_fabRetry (lo hi n : Nat) : (s.add64 lo hi n).fabRetry = s.fabRetry := rfl
@[simp] theorem State.add64_packets (lo hi n : Nat) : (s.add64 lo hi n).packets = s.packets := rfl
@[simp] theorem State.add64_arbs (lo hi n : Nat) : (s.add64 lo hi n).arbs = s.arbs := rfl
@[simp] theorem State.add64_cds (lo hi n : Nat) : (s.add64 lo hi n).cds = s.cds := rfl
@[simp] theorem State.add64_deadDies (lo hi n : Nat) : (s.add64 lo hi n).deadDies = s.deadDies := rfl
@[simp] theorem State.add64_tables (lo hi n : Nat) : (s.add64 lo hi n).tables = s.tables := rfl
@[simp] theorem State.add64_cads (lo hi n : Nat) : (s.add64 lo hi n).cads = s.cads := rfl
@[simp] theorem State.add64_admitted (lo hi n : Nat) : (s.add64 lo hi n).admitted = s.admitted := rfl
@[simp] theorem State.add64_lostSteps (lo hi n : Nat) : (s.add64 lo hi n).lostSteps = s.lostSteps := rfl
@[simp] theorem State.add64_reqNo (lo hi n : Nat) : (s.add64 lo hi n).reqNo = s.reqNo := rfl
@[simp] theorem State.add64_got (lo hi n : Nat) : (s.add64 lo hi n).got = s.got := rfl
@[simp] theorem State.add64_busErrs (lo hi n : Nat) : (s.add64 lo hi n).busErrs = s.busErrs := rfl
@[simp] theorem State.add64_mds (lo hi n : Nat) : (s.add64 lo hi n).mds = s.mds := rfl
@[simp] theorem State.add64_moduleId (lo hi n : Nat) : (s.add64 lo hi n).moduleId = s.moduleId := rfl
@[simp] theorem State.add64_jobs (lo hi n : Nat) : (s.add64 lo hi n).jobs = s.jobs := rfl
@[simp] theorem State.add64_keySlots (lo hi n : Nat) : (s.add64 lo hi n).keySlots = s.keySlots := rfl
@[simp] theorem State.add64_releases (lo hi n : Nat) : (s.add64 lo hi n).releases = s.releases := rfl
@[simp] theorem State.add64_groups (lo hi n : Nat) : (s.add64 lo hi n).groups = s.groups := rfl
@[simp] theorem State.add64_outbox (lo hi n : Nat) : (s.add64 lo hi n).outbox = s.outbox := rfl
@[simp] theorem State.add64_torusLen (lo hi n : Nat) : (s.add64 lo hi n).torusLen = s.torusLen := rfl
@[simp] theorem State.add64_ports (lo hi n : Nat) : (s.add64 lo hi n).ports = s.ports := rfl
@[simp] theorem State.add64_arrived (lo hi n : Nat) : (s.add64 lo hi n).arrived = s.arrived := rfl
@[simp] theorem State.add64_exch (lo hi n : Nat) : (s.add64 lo hi n).exch = s.exch := rfl
@[simp] theorem State.add64_sites (lo hi n : Nat) : (s.add64 lo hi n).sites = s.sites := rfl
@[simp] theorem State.add64_pairSecrets (lo hi n : Nat) : (s.add64 lo hi n).pairSecrets = s.pairSecrets := rfl
@[simp] theorem State.add64_sec (lo hi n : Nat) : (s.add64 lo hi n).sec = s.sec := rfl
@[simp] theorem State.add64_host (lo hi n : Nat) : (s.add64 lo hi n).host = s.host := rfl
@[simp] theorem State.add64_pwr (lo hi n : Nat) : (s.add64 lo hi n).pwr = s.pwr := rfl
@[simp] theorem State.add64_rel (lo hi n : Nat) : (s.add64 lo hi n).rel = s.rel := rfl
@[simp] theorem State.add64_pending (lo hi n : Nat) : (s.add64 lo hi n).pending = s.pending := rfl
@[simp] theorem State.byte_add64 (lo hi n : Nat) (r : Nat) : (s.add64 lo hi n).byte r = s.byte r := rfl
@[simp] theorem State.cd_add64 (lo hi n : Nat) (r : Fin 40) : (s.add64 lo hi n).cd r = s.cd r := rfl
@[simp] theorem State.md_add64 (lo hi n : Nat) (r : Fin 16) : (s.add64 lo hi n).md r = s.md r := rfl

/-! ### raise -/
@[simp] theorem State.raise_now (code die : Nat) (c : Option Nat) (det : List Byte) : (s.raise code die c det).now = s.now := rfl
@[simp] theorem State.raise_regs (code die : Nat) (c : Option Nat) (det : List Byte) : (s.raise code die c det).regs = s.regs := rfl
@[simp] theorem State.raise_mem (code die : Nat) (c : Option Nat) (det : List Byte) : (s.raise code die c det).mem = s.mem := rfl
@[simp] theorem State.raise_poison (code die : Nat) (c : Option Nat) (det : List Byte) : (s.raise code die c det).poison = s.poison := rfl
@[simp] theorem State.raise_events (code die : Nat) (c : Option Nat) (det : List Byte) : (s.raise code die c det).events = s.events ++ [⟨code, die, c, det⟩] := rfl
@[simp] theorem State.raise_resp (code die : Nat) (c : Option Nat) (det : List Byte) : (s.raise code die c det).resp = s.resp := rfl
@[simp] theorem State.raise_free (code die : Nat) (c : Option Nat) (det : List Byte) : (s.raise code die c det).free = s.free := rfl
@[simp] theorem State.raise_latch (code die : Nat) (c : Option Nat) (det : List Byte) : (s.raise code die c det).latch = s.latch := rfl
@[simp] theorem State.raise_inReset (code die : Nat) (c : Option Nat) (det : List Byte) : (s.raise code die c det).inReset = s.inReset := rfl
@[simp] theorem State.raise_hostMask (code die : Nat) (c : Option Nat) (det : List Byte) : (s.raise code die c det).hostMask = s.hostMask := rfl
@[simp] theorem State.raise_cleared (code die : Nat) (c : Option Nat) (det : List Byte) : (s.raise code die c det).cleared = s.cleared := rfl
@[simp] theorem State.raise_fabRetry (code die : Nat) (c : Option Nat) (det : List Byte) : (s.raise code die c det).fabRetry = s.fabRetry := rfl
@[simp] theorem State.raise_packets (code die : Nat) (c : Option Nat) (det : List Byte) : (s.raise code die c det).packets = s.packets := rfl
@[simp] theorem State.raise_arbs (code die : Nat) (c : Option Nat) (det : List Byte) : (s.raise code die c det).arbs = s.arbs := rfl
@[simp] theorem State.raise_cds (code die : Nat) (c : Option Nat) (det : List Byte) : (s.raise code die c det).cds = s.cds := rfl
@[simp] theorem State.raise_deadDies (code die : Nat) (c : Option Nat) (det : List Byte) : (s.raise code die c det).deadDies = s.deadDies := rfl
@[simp] theorem State.raise_tables (code die : Nat) (c : Option Nat) (det : List Byte) : (s.raise code die c det).tables = s.tables := rfl
@[simp] theorem State.raise_cads (code die : Nat) (c : Option Nat) (det : List Byte) : (s.raise code die c det).cads = s.cads := rfl
@[simp] theorem State.raise_admitted (code die : Nat) (c : Option Nat) (det : List Byte) : (s.raise code die c det).admitted = s.admitted := rfl
@[simp] theorem State.raise_lostSteps (code die : Nat) (c : Option Nat) (det : List Byte) : (s.raise code die c det).lostSteps = s.lostSteps := rfl
@[simp] theorem State.raise_reqNo (code die : Nat) (c : Option Nat) (det : List Byte) : (s.raise code die c det).reqNo = s.reqNo := rfl
@[simp] theorem State.raise_got (code die : Nat) (c : Option Nat) (det : List Byte) : (s.raise code die c det).got = s.got := rfl
@[simp] theorem State.raise_busErrs (code die : Nat) (c : Option Nat) (det : List Byte) : (s.raise code die c det).busErrs = s.busErrs := rfl
@[simp] theorem State.raise_mds (code die : Nat) (c : Option Nat) (det : List Byte) : (s.raise code die c det).mds = s.mds := rfl
@[simp] theorem State.raise_moduleId (code die : Nat) (c : Option Nat) (det : List Byte) : (s.raise code die c det).moduleId = s.moduleId := rfl
@[simp] theorem State.raise_jobs (code die : Nat) (c : Option Nat) (det : List Byte) : (s.raise code die c det).jobs = s.jobs := rfl
@[simp] theorem State.raise_keySlots (code die : Nat) (c : Option Nat) (det : List Byte) : (s.raise code die c det).keySlots = s.keySlots := rfl
@[simp] theorem State.raise_releases (code die : Nat) (c : Option Nat) (det : List Byte) : (s.raise code die c det).releases = s.releases := rfl
@[simp] theorem State.raise_groups (code die : Nat) (c : Option Nat) (det : List Byte) : (s.raise code die c det).groups = s.groups := rfl
@[simp] theorem State.raise_outbox (code die : Nat) (c : Option Nat) (det : List Byte) : (s.raise code die c det).outbox = s.outbox := rfl
@[simp] theorem State.raise_torusLen (code die : Nat) (c : Option Nat) (det : List Byte) : (s.raise code die c det).torusLen = s.torusLen := rfl
@[simp] theorem State.raise_ports (code die : Nat) (c : Option Nat) (det : List Byte) : (s.raise code die c det).ports = s.ports := rfl
@[simp] theorem State.raise_arrived (code die : Nat) (c : Option Nat) (det : List Byte) : (s.raise code die c det).arrived = s.arrived := rfl
@[simp] theorem State.raise_exch (code die : Nat) (c : Option Nat) (det : List Byte) : (s.raise code die c det).exch = s.exch := rfl
@[simp] theorem State.raise_sites (code die : Nat) (c : Option Nat) (det : List Byte) : (s.raise code die c det).sites = s.sites := rfl
@[simp] theorem State.raise_pairSecrets (code die : Nat) (c : Option Nat) (det : List Byte) : (s.raise code die c det).pairSecrets = s.pairSecrets := rfl
@[simp] theorem State.raise_sec (code die : Nat) (c : Option Nat) (det : List Byte) : (s.raise code die c det).sec = s.sec := rfl
@[simp] theorem State.raise_host (code die : Nat) (c : Option Nat) (det : List Byte) : (s.raise code die c det).host = s.host := rfl
@[simp] theorem State.raise_pwr (code die : Nat) (c : Option Nat) (det : List Byte) : (s.raise code die c det).pwr = s.pwr := rfl
@[simp] theorem State.raise_rel (code die : Nat) (c : Option Nat) (det : List Byte) : (s.raise code die c det).rel = s.rel := rfl
@[simp] theorem State.raise_pending (code die : Nat) (c : Option Nat) (det : List Byte) : (s.raise code die c det).pending = s.pending := rfl
@[simp] theorem State.rd_raise (code die : Nat) (c : Option Nat) (det : List Byte) (r : Nat) : (s.raise code die c det).rd r = s.rd r := rfl
@[simp] theorem State.byte_raise (code die : Nat) (c : Option Nat) (det : List Byte) (r : Nat) : (s.raise code die c det).byte r = s.byte r := rfl
@[simp] theorem State.cd_raise (code die : Nat) (c : Option Nat) (det : List Byte) (r : Fin 40) : (s.raise code die c det).cd r = s.cd r := rfl
@[simp] theorem State.md_raise (code die : Nat) (c : Option Nat) (det : List Byte) (r : Fin 16) : (s.raise code die c det).md r = s.md r := rfl

/-! ### raiseCat -/
@[simp] theorem State.raiseCat_now (cat die rule : Nat) (c : Option Nat) (det : List Byte) : (s.raiseCat cat die rule c det).now = s.now := rfl
@[simp] theorem State.raiseCat_regs (cat die rule : Nat) (c : Option Nat) (det : List Byte) : (s.raiseCat cat die rule c det).regs = s.regs := rfl
@[simp] theorem State.raiseCat_mem (cat die rule : Nat) (c : Option Nat) (det : List Byte) : (s.raiseCat cat die rule c det).mem = s.mem := rfl
@[simp] theorem State.raiseCat_poison (cat die rule : Nat) (c : Option Nat) (det : List Byte) : (s.raiseCat cat die rule c det).poison = s.poison := rfl
@[simp] theorem State.raiseCat_events (cat die rule : Nat) (c : Option Nat) (det : List Byte) : (s.raiseCat cat die rule c det).events = s.events ++ [⟨dieClass die * 4096 + cat * 256 + (Config.cause rule).toNat, die, c, det⟩] := rfl
@[simp] theorem State.raiseCat_resp (cat die rule : Nat) (c : Option Nat) (det : List Byte) : (s.raiseCat cat die rule c det).resp = s.resp := rfl
@[simp] theorem State.raiseCat_free (cat die rule : Nat) (c : Option Nat) (det : List Byte) : (s.raiseCat cat die rule c det).free = s.free := rfl
@[simp] theorem State.raiseCat_latch (cat die rule : Nat) (c : Option Nat) (det : List Byte) : (s.raiseCat cat die rule c det).latch = s.latch := rfl
@[simp] theorem State.raiseCat_inReset (cat die rule : Nat) (c : Option Nat) (det : List Byte) : (s.raiseCat cat die rule c det).inReset = s.inReset := rfl
@[simp] theorem State.raiseCat_hostMask (cat die rule : Nat) (c : Option Nat) (det : List Byte) : (s.raiseCat cat die rule c det).hostMask = s.hostMask := rfl
@[simp] theorem State.raiseCat_cleared (cat die rule : Nat) (c : Option Nat) (det : List Byte) : (s.raiseCat cat die rule c det).cleared = s.cleared := rfl
@[simp] theorem State.raiseCat_fabRetry (cat die rule : Nat) (c : Option Nat) (det : List Byte) : (s.raiseCat cat die rule c det).fabRetry = s.fabRetry := rfl
@[simp] theorem State.raiseCat_packets (cat die rule : Nat) (c : Option Nat) (det : List Byte) : (s.raiseCat cat die rule c det).packets = s.packets := rfl
@[simp] theorem State.raiseCat_arbs (cat die rule : Nat) (c : Option Nat) (det : List Byte) : (s.raiseCat cat die rule c det).arbs = s.arbs := rfl
@[simp] theorem State.raiseCat_cds (cat die rule : Nat) (c : Option Nat) (det : List Byte) : (s.raiseCat cat die rule c det).cds = s.cds := rfl
@[simp] theorem State.raiseCat_deadDies (cat die rule : Nat) (c : Option Nat) (det : List Byte) : (s.raiseCat cat die rule c det).deadDies = s.deadDies := rfl
@[simp] theorem State.raiseCat_tables (cat die rule : Nat) (c : Option Nat) (det : List Byte) : (s.raiseCat cat die rule c det).tables = s.tables := rfl
@[simp] theorem State.raiseCat_cads (cat die rule : Nat) (c : Option Nat) (det : List Byte) : (s.raiseCat cat die rule c det).cads = s.cads := rfl
@[simp] theorem State.raiseCat_admitted (cat die rule : Nat) (c : Option Nat) (det : List Byte) : (s.raiseCat cat die rule c det).admitted = s.admitted := rfl
@[simp] theorem State.raiseCat_lostSteps (cat die rule : Nat) (c : Option Nat) (det : List Byte) : (s.raiseCat cat die rule c det).lostSteps = s.lostSteps := rfl
@[simp] theorem State.raiseCat_reqNo (cat die rule : Nat) (c : Option Nat) (det : List Byte) : (s.raiseCat cat die rule c det).reqNo = s.reqNo := rfl
@[simp] theorem State.raiseCat_got (cat die rule : Nat) (c : Option Nat) (det : List Byte) : (s.raiseCat cat die rule c det).got = s.got := rfl
@[simp] theorem State.raiseCat_busErrs (cat die rule : Nat) (c : Option Nat) (det : List Byte) : (s.raiseCat cat die rule c det).busErrs = s.busErrs := rfl
@[simp] theorem State.raiseCat_mds (cat die rule : Nat) (c : Option Nat) (det : List Byte) : (s.raiseCat cat die rule c det).mds = s.mds := rfl
@[simp] theorem State.raiseCat_moduleId (cat die rule : Nat) (c : Option Nat) (det : List Byte) : (s.raiseCat cat die rule c det).moduleId = s.moduleId := rfl
@[simp] theorem State.raiseCat_jobs (cat die rule : Nat) (c : Option Nat) (det : List Byte) : (s.raiseCat cat die rule c det).jobs = s.jobs := rfl
@[simp] theorem State.raiseCat_keySlots (cat die rule : Nat) (c : Option Nat) (det : List Byte) : (s.raiseCat cat die rule c det).keySlots = s.keySlots := rfl
@[simp] theorem State.raiseCat_releases (cat die rule : Nat) (c : Option Nat) (det : List Byte) : (s.raiseCat cat die rule c det).releases = s.releases := rfl
@[simp] theorem State.raiseCat_groups (cat die rule : Nat) (c : Option Nat) (det : List Byte) : (s.raiseCat cat die rule c det).groups = s.groups := rfl
@[simp] theorem State.raiseCat_outbox (cat die rule : Nat) (c : Option Nat) (det : List Byte) : (s.raiseCat cat die rule c det).outbox = s.outbox := rfl
@[simp] theorem State.raiseCat_torusLen (cat die rule : Nat) (c : Option Nat) (det : List Byte) : (s.raiseCat cat die rule c det).torusLen = s.torusLen := rfl
@[simp] theorem State.raiseCat_ports (cat die rule : Nat) (c : Option Nat) (det : List Byte) : (s.raiseCat cat die rule c det).ports = s.ports := rfl
@[simp] theorem State.raiseCat_arrived (cat die rule : Nat) (c : Option Nat) (det : List Byte) : (s.raiseCat cat die rule c det).arrived = s.arrived := rfl
@[simp] theorem State.raiseCat_exch (cat die rule : Nat) (c : Option Nat) (det : List Byte) : (s.raiseCat cat die rule c det).exch = s.exch := rfl
@[simp] theorem State.raiseCat_sites (cat die rule : Nat) (c : Option Nat) (det : List Byte) : (s.raiseCat cat die rule c det).sites = s.sites := rfl
@[simp] theorem State.raiseCat_pairSecrets (cat die rule : Nat) (c : Option Nat) (det : List Byte) : (s.raiseCat cat die rule c det).pairSecrets = s.pairSecrets := rfl
@[simp] theorem State.raiseCat_sec (cat die rule : Nat) (c : Option Nat) (det : List Byte) : (s.raiseCat cat die rule c det).sec = s.sec := rfl
@[simp] theorem State.raiseCat_host (cat die rule : Nat) (c : Option Nat) (det : List Byte) : (s.raiseCat cat die rule c det).host = s.host := rfl
@[simp] theorem State.raiseCat_pwr (cat die rule : Nat) (c : Option Nat) (det : List Byte) : (s.raiseCat cat die rule c det).pwr = s.pwr := rfl
@[simp] theorem State.raiseCat_rel (cat die rule : Nat) (c : Option Nat) (det : List Byte) : (s.raiseCat cat die rule c det).rel = s.rel := rfl
@[simp] theorem State.raiseCat_pending (cat die rule : Nat) (c : Option Nat) (det : List Byte) : (s.raiseCat cat die rule c det).pending = s.pending := rfl
@[simp] theorem State.rd_raiseCat (cat die rule : Nat) (c : Option Nat) (det : List Byte) (r : Nat) : (s.raiseCat cat die rule c det).rd r = s.rd r := rfl
@[simp] theorem State.byte_raiseCat (cat die rule : Nat) (c : Option Nat) (det : List Byte) (r : Nat) : (s.raiseCat cat die rule c det).byte r = s.byte r := rfl
@[simp] theorem State.cd_raiseCat (cat die rule : Nat) (c : Option Nat) (det : List Byte) (r : Fin 40) : (s.raiseCat cat die rule c det).cd r = s.cd r := rfl
@[simp] theorem State.md_raiseCat (cat die rule : Nat) (c : Option Nat) (det : List Byte) (r : Fin 16) : (s.raiseCat cat die rule c det).md r = s.md r := rfl

/-! ### putBytes -/
@[simp] theorem State.putBytes_now (a : Nat) (bs : List Byte) : (s.putBytes a bs).now = s.now := rfl
@[simp] theorem State.putBytes_regs (a : Nat) (bs : List Byte) : (s.putBytes a bs).regs = s.regs := rfl
@[simp] theorem State.putBytes_mem (a : Nat) (bs : List Byte) : (s.putBytes a bs).mem = memPut s.mem a bs := rfl
@[simp] theorem State.putBytes_poison (a : Nat) (bs : List Byte) : (s.putBytes a bs).poison = s.poison := rfl
@[simp] theorem State.putBytes_events (a : Nat) (bs : List Byte) : (s.putBytes a bs).events = s.events := rfl
@[simp] theorem State.putBytes_resp (a : Nat) (bs : List Byte) : (s.putBytes a bs).resp = s.resp := rfl
@[simp] theorem State.putBytes_free (a : Nat) (bs : List Byte) : (s.putBytes a bs).free = s.free := rfl
@[simp] theorem State.putBytes_latch (a : Nat) (bs : List Byte) : (s.putBytes a bs).latch = s.latch := rfl
@[simp] theorem State.putBytes_inReset (a : Nat) (bs : List Byte) : (s.putBytes a bs).inReset = s.inReset := rfl
@[simp] theorem State.putBytes_hostMask (a : Nat) (bs : List Byte) : (s.putBytes a bs).hostMask = s.hostMask := rfl
@[simp] theorem State.putBytes_cleared (a : Nat) (bs : List Byte) : (s.putBytes a bs).cleared = s.cleared := rfl
@[simp] theorem State.putBytes_fabRetry (a : Nat) (bs : List Byte) : (s.putBytes a bs).fabRetry = s.fabRetry := rfl
@[simp] theorem State.putBytes_packets (a : Nat) (bs : List Byte) : (s.putBytes a bs).packets = s.packets := rfl
@[simp] theorem State.putBytes_arbs (a : Nat) (bs : List Byte) : (s.putBytes a bs).arbs = s.arbs := rfl
@[simp] theorem State.putBytes_cds (a : Nat) (bs : List Byte) : (s.putBytes a bs).cds = s.cds := rfl
@[simp] theorem State.putBytes_deadDies (a : Nat) (bs : List Byte) : (s.putBytes a bs).deadDies = s.deadDies := rfl
@[simp] theorem State.putBytes_tables (a : Nat) (bs : List Byte) : (s.putBytes a bs).tables = s.tables := rfl
@[simp] theorem State.putBytes_cads (a : Nat) (bs : List Byte) : (s.putBytes a bs).cads = s.cads := rfl
@[simp] theorem State.putBytes_admitted (a : Nat) (bs : List Byte) : (s.putBytes a bs).admitted = s.admitted := rfl
@[simp] theorem State.putBytes_lostSteps (a : Nat) (bs : List Byte) : (s.putBytes a bs).lostSteps = s.lostSteps := rfl
@[simp] theorem State.putBytes_reqNo (a : Nat) (bs : List Byte) : (s.putBytes a bs).reqNo = s.reqNo := rfl
@[simp] theorem State.putBytes_got (a : Nat) (bs : List Byte) : (s.putBytes a bs).got = s.got := rfl
@[simp] theorem State.putBytes_busErrs (a : Nat) (bs : List Byte) : (s.putBytes a bs).busErrs = s.busErrs := rfl
@[simp] theorem State.putBytes_mds (a : Nat) (bs : List Byte) : (s.putBytes a bs).mds = s.mds := rfl
@[simp] theorem State.putBytes_moduleId (a : Nat) (bs : List Byte) : (s.putBytes a bs).moduleId = s.moduleId := rfl
@[simp] theorem State.putBytes_jobs (a : Nat) (bs : List Byte) : (s.putBytes a bs).jobs = s.jobs := rfl
@[simp] theorem State.putBytes_keySlots (a : Nat) (bs : List Byte) : (s.putBytes a bs).keySlots = s.keySlots := rfl
@[simp] theorem State.putBytes_releases (a : Nat) (bs : List Byte) : (s.putBytes a bs).releases = s.releases := rfl
@[simp] theorem State.putBytes_groups (a : Nat) (bs : List Byte) : (s.putBytes a bs).groups = s.groups := rfl
@[simp] theorem State.putBytes_outbox (a : Nat) (bs : List Byte) : (s.putBytes a bs).outbox = s.outbox := rfl
@[simp] theorem State.putBytes_torusLen (a : Nat) (bs : List Byte) : (s.putBytes a bs).torusLen = s.torusLen := rfl
@[simp] theorem State.putBytes_ports (a : Nat) (bs : List Byte) : (s.putBytes a bs).ports = s.ports := rfl
@[simp] theorem State.putBytes_arrived (a : Nat) (bs : List Byte) : (s.putBytes a bs).arrived = s.arrived := rfl
@[simp] theorem State.putBytes_exch (a : Nat) (bs : List Byte) : (s.putBytes a bs).exch = s.exch := rfl
@[simp] theorem State.putBytes_sites (a : Nat) (bs : List Byte) : (s.putBytes a bs).sites = s.sites := rfl
@[simp] theorem State.putBytes_pairSecrets (a : Nat) (bs : List Byte) : (s.putBytes a bs).pairSecrets = s.pairSecrets := rfl
@[simp] theorem State.putBytes_sec (a : Nat) (bs : List Byte) : (s.putBytes a bs).sec = s.sec := rfl
@[simp] theorem State.putBytes_host (a : Nat) (bs : List Byte) : (s.putBytes a bs).host = s.host := rfl
@[simp] theorem State.putBytes_pwr (a : Nat) (bs : List Byte) : (s.putBytes a bs).pwr = s.pwr := rfl
@[simp] theorem State.putBytes_rel (a : Nat) (bs : List Byte) : (s.putBytes a bs).rel = s.rel := rfl
@[simp] theorem State.putBytes_pending (a : Nat) (bs : List Byte) : (s.putBytes a bs).pending = s.pending := rfl
@[simp] theorem State.rd_putBytes (a : Nat) (bs : List Byte) (r : Nat) : (s.putBytes a bs).rd r = s.rd r := rfl
@[simp] theorem State.cd_putBytes (a : Nat) (bs : List Byte) (r : Fin 40) : (s.putBytes a bs).cd r = s.cd r := rfl
@[simp] theorem State.md_putBytes (a : Nat) (bs : List Byte) (r : Fin 16) : (s.putBytes a bs).md r = s.md r := rfl

/-! ### putNum -/
@[simp] theorem State.putNum_now (a n v : Nat) : (s.putNum a n v).now = s.now := rfl
@[simp] theorem State.putNum_regs (a n v : Nat) : (s.putNum a n v).regs = s.regs := rfl
@[simp] theorem State.putNum_mem (a n v : Nat) : (s.putNum a n v).mem = memPut s.mem a (leBytes n v) := rfl
@[simp] theorem State.putNum_poison (a n v : Nat) : (s.putNum a n v).poison = s.poison := rfl
@[simp] theorem State.putNum_events (a n v : Nat) : (s.putNum a n v).events = s.events := rfl
@[simp] theorem State.putNum_resp (a n v : Nat) : (s.putNum a n v).resp = s.resp := rfl
@[simp] theorem State.putNum_free (a n v : Nat) : (s.putNum a n v).free = s.free := rfl
@[simp] theorem State.putNum_latch (a n v : Nat) : (s.putNum a n v).latch = s.latch := rfl
@[simp] theorem State.putNum_inReset (a n v : Nat) : (s.putNum a n v).inReset = s.inReset := rfl
@[simp] theorem State.putNum_hostMask (a n v : Nat) : (s.putNum a n v).hostMask = s.hostMask := rfl
@[simp] theorem State.putNum_cleared (a n v : Nat) : (s.putNum a n v).cleared = s.cleared := rfl
@[simp] theorem State.putNum_fabRetry (a n v : Nat) : (s.putNum a n v).fabRetry = s.fabRetry := rfl
@[simp] theorem State.putNum_packets (a n v : Nat) : (s.putNum a n v).packets = s.packets := rfl
@[simp] theorem State.putNum_arbs (a n v : Nat) : (s.putNum a n v).arbs = s.arbs := rfl
@[simp] theorem State.putNum_cds (a n v : Nat) : (s.putNum a n v).cds = s.cds := rfl
@[simp] theorem State.putNum_deadDies (a n v : Nat) : (s.putNum a n v).deadDies = s.deadDies := rfl
@[simp] theorem State.putNum_tables (a n v : Nat) : (s.putNum a n v).tables = s.tables := rfl
@[simp] theorem State.putNum_cads (a n v : Nat) : (s.putNum a n v).cads = s.cads := rfl
@[simp] theorem State.putNum_admitted (a n v : Nat) : (s.putNum a n v).admitted = s.admitted := rfl
@[simp] theorem State.putNum_lostSteps (a n v : Nat) : (s.putNum a n v).lostSteps = s.lostSteps := rfl
@[simp] theorem State.putNum_reqNo (a n v : Nat) : (s.putNum a n v).reqNo = s.reqNo := rfl
@[simp] theorem State.putNum_got (a n v : Nat) : (s.putNum a n v).got = s.got := rfl
@[simp] theorem State.putNum_busErrs (a n v : Nat) : (s.putNum a n v).busErrs = s.busErrs := rfl
@[simp] theorem State.putNum_mds (a n v : Nat) : (s.putNum a n v).mds = s.mds := rfl
@[simp] theorem State.putNum_moduleId (a n v : Nat) : (s.putNum a n v).moduleId = s.moduleId := rfl
@[simp] theorem State.putNum_jobs (a n v : Nat) : (s.putNum a n v).jobs = s.jobs := rfl
@[simp] theorem State.putNum_keySlots (a n v : Nat) : (s.putNum a n v).keySlots = s.keySlots := rfl
@[simp] theorem State.putNum_releases (a n v : Nat) : (s.putNum a n v).releases = s.releases := rfl
@[simp] theorem State.putNum_groups (a n v : Nat) : (s.putNum a n v).groups = s.groups := rfl
@[simp] theorem State.putNum_outbox (a n v : Nat) : (s.putNum a n v).outbox = s.outbox := rfl
@[simp] theorem State.putNum_torusLen (a n v : Nat) : (s.putNum a n v).torusLen = s.torusLen := rfl
@[simp] theorem State.putNum_ports (a n v : Nat) : (s.putNum a n v).ports = s.ports := rfl
@[simp] theorem State.putNum_arrived (a n v : Nat) : (s.putNum a n v).arrived = s.arrived := rfl
@[simp] theorem State.putNum_exch (a n v : Nat) : (s.putNum a n v).exch = s.exch := rfl
@[simp] theorem State.putNum_sites (a n v : Nat) : (s.putNum a n v).sites = s.sites := rfl
@[simp] theorem State.putNum_pairSecrets (a n v : Nat) : (s.putNum a n v).pairSecrets = s.pairSecrets := rfl
@[simp] theorem State.putNum_sec (a n v : Nat) : (s.putNum a n v).sec = s.sec := rfl
@[simp] theorem State.putNum_host (a n v : Nat) : (s.putNum a n v).host = s.host := rfl
@[simp] theorem State.putNum_pwr (a n v : Nat) : (s.putNum a n v).pwr = s.pwr := rfl
@[simp] theorem State.putNum_rel (a n v : Nat) : (s.putNum a n v).rel = s.rel := rfl
@[simp] theorem State.putNum_pending (a n v : Nat) : (s.putNum a n v).pending = s.pending := rfl
@[simp] theorem State.rd_putNum (a n v : Nat) (r : Nat) : (s.putNum a n v).rd r = s.rd r := rfl
@[simp] theorem State.cd_putNum (a n v : Nat) (r : Fin 40) : (s.putNum a n v).cd r = s.cd r := rfl
@[simp] theorem State.md_putNum (a n v : Nat) (r : Fin 16) : (s.putNum a n v).md r = s.md r := rfl

/-! ### coverLines -/
@[simp] theorem State.coverLines_now (a n : Nat) : (s.coverLines a n).now = s.now := rfl
@[simp] theorem State.coverLines_regs (a n : Nat) : (s.coverLines a n).regs = s.regs := rfl
@[simp] theorem State.coverLines_mem (a n : Nat) : (s.coverLines a n).mem = s.mem := rfl
@[simp] theorem State.coverLines_events (a n : Nat) : (s.coverLines a n).events = s.events := rfl
@[simp] theorem State.coverLines_resp (a n : Nat) : (s.coverLines a n).resp = s.resp := rfl
@[simp] theorem State.coverLines_free (a n : Nat) : (s.coverLines a n).free = s.free := rfl
@[simp] theorem State.coverLines_latch (a n : Nat) : (s.coverLines a n).latch = s.latch := rfl
@[simp] theorem State.coverLines_inReset (a n : Nat) : (s.coverLines a n).inReset = s.inReset := rfl
@[simp] theorem State.coverLines_hostMask (a n : Nat) : (s.coverLines a n).hostMask = s.hostMask := rfl
@[simp] theorem State.coverLines_cleared (a n : Nat) : (s.coverLines a n).cleared = s.cleared := rfl
@[simp] theorem State.coverLines_fabRetry (a n : Nat) : (s.coverLines a n).fabRetry = s.fabRetry := rfl
@[simp] theorem State.coverLines_packets (a n : Nat) : (s.coverLines a n).packets = s.packets := rfl
@[simp] theorem State.coverLines_arbs (a n : Nat) : (s.coverLines a n).arbs = s.arbs := rfl
@[simp] theorem State.coverLines_cds (a n : Nat) : (s.coverLines a n).cds = s.cds := rfl
@[simp] theorem State.coverLines_deadDies (a n : Nat) : (s.coverLines a n).deadDies = s.deadDies := rfl
@[simp] theorem State.coverLines_tables (a n : Nat) : (s.coverLines a n).tables = s.tables := rfl
@[simp] theorem State.coverLines_cads (a n : Nat) : (s.coverLines a n).cads = s.cads := rfl
@[simp] theorem State.coverLines_admitted (a n : Nat) : (s.coverLines a n).admitted = s.admitted := rfl
@[simp] theorem State.coverLines_lostSteps (a n : Nat) : (s.coverLines a n).lostSteps = s.lostSteps := rfl
@[simp] theorem State.coverLines_reqNo (a n : Nat) : (s.coverLines a n).reqNo = s.reqNo := rfl
@[simp] theorem State.coverLines_got (a n : Nat) : (s.coverLines a n).got = s.got := rfl
@[simp] theorem State.coverLines_busErrs (a n : Nat) : (s.coverLines a n).busErrs = s.busErrs := rfl
@[simp] theorem State.coverLines_mds (a n : Nat) : (s.coverLines a n).mds = s.mds := rfl
@[simp] theorem State.coverLines_moduleId (a n : Nat) : (s.coverLines a n).moduleId = s.moduleId := rfl
@[simp] theorem State.coverLines_jobs (a n : Nat) : (s.coverLines a n).jobs = s.jobs := rfl
@[simp] theorem State.coverLines_keySlots (a n : Nat) : (s.coverLines a n).keySlots = s.keySlots := rfl
@[simp] theorem State.coverLines_releases (a n : Nat) : (s.coverLines a n).releases = s.releases := rfl
@[simp] theorem State.coverLines_groups (a n : Nat) : (s.coverLines a n).groups = s.groups := rfl
@[simp] theorem State.coverLines_outbox (a n : Nat) : (s.coverLines a n).outbox = s.outbox := rfl
@[simp] theorem State.coverLines_torusLen (a n : Nat) : (s.coverLines a n).torusLen = s.torusLen := rfl
@[simp] theorem State.coverLines_ports (a n : Nat) : (s.coverLines a n).ports = s.ports := rfl
@[simp] theorem State.coverLines_arrived (a n : Nat) : (s.coverLines a n).arrived = s.arrived := rfl
@[simp] theorem State.coverLines_exch (a n : Nat) : (s.coverLines a n).exch = s.exch := rfl
@[simp] theorem State.coverLines_sites (a n : Nat) : (s.coverLines a n).sites = s.sites := rfl
@[simp] theorem State.coverLines_pairSecrets (a n : Nat) : (s.coverLines a n).pairSecrets = s.pairSecrets := rfl
@[simp] theorem State.coverLines_sec (a n : Nat) : (s.coverLines a n).sec = s.sec := rfl
@[simp] theorem State.coverLines_host (a n : Nat) : (s.coverLines a n).host = s.host := rfl
@[simp] theorem State.coverLines_pwr (a n : Nat) : (s.coverLines a n).pwr = s.pwr := rfl
@[simp] theorem State.coverLines_rel (a n : Nat) : (s.coverLines a n).rel = s.rel := rfl
@[simp] theorem State.coverLines_pending (a n : Nat) : (s.coverLines a n).pending = s.pending := rfl
@[simp] theorem State.rd_coverLines (a n : Nat) (r : Nat) : (s.coverLines a n).rd r = s.rd r := rfl

@[simp] theorem State.cd_coverLines (a n : Nat) (r : Fin 40) : (s.coverLines a n).cd r = s.cd r := rfl
@[simp] theorem State.md_coverLines (a n : Nat) (r : Fin 16) : (s.coverLines a n).md r = s.md r := rfl

/-! ### storeWrite -/
@[simp] theorem State.storeWrite_now (a : Nat) (bs : List Byte) : (s.storeWrite a bs).now = s.now := rfl
@[simp] theorem State.storeWrite_regs (a : Nat) (bs : List Byte) : (s.storeWrite a bs).regs = s.regs := rfl
@[simp] theorem State.storeWrite_mem (a : Nat) (bs : List Byte) : (s.storeWrite a bs).mem = memPut s.mem a bs := rfl
@[simp] theorem State.storeWrite_events (a : Nat) (bs : List Byte) : (s.storeWrite a bs).events = s.events := rfl
@[simp] theorem State.storeWrite_resp (a : Nat) (bs : List Byte) : (s.storeWrite a bs).resp = s.resp := rfl
@[simp] theorem State.storeWrite_free (a : Nat) (bs : List Byte) : (s.storeWrite a bs).free = s.free := rfl
@[simp] theorem State.storeWrite_latch (a : Nat) (bs : List Byte) : (s.storeWrite a bs).latch = s.latch := rfl
@[simp] theorem State.storeWrite_inReset (a : Nat) (bs : List Byte) : (s.storeWrite a bs).inReset = s.inReset := rfl
@[simp] theorem State.storeWrite_hostMask (a : Nat) (bs : List Byte) : (s.storeWrite a bs).hostMask = s.hostMask := rfl
@[simp] theorem State.storeWrite_cleared (a : Nat) (bs : List Byte) : (s.storeWrite a bs).cleared = s.cleared := rfl
@[simp] theorem State.storeWrite_fabRetry (a : Nat) (bs : List Byte) : (s.storeWrite a bs).fabRetry = s.fabRetry := rfl
@[simp] theorem State.storeWrite_packets (a : Nat) (bs : List Byte) : (s.storeWrite a bs).packets = s.packets := rfl
@[simp] theorem State.storeWrite_arbs (a : Nat) (bs : List Byte) : (s.storeWrite a bs).arbs = s.arbs := rfl
@[simp] theorem State.storeWrite_cds (a : Nat) (bs : List Byte) : (s.storeWrite a bs).cds = s.cds := rfl
@[simp] theorem State.storeWrite_deadDies (a : Nat) (bs : List Byte) : (s.storeWrite a bs).deadDies = s.deadDies := rfl
@[simp] theorem State.storeWrite_tables (a : Nat) (bs : List Byte) : (s.storeWrite a bs).tables = s.tables := rfl
@[simp] theorem State.storeWrite_cads (a : Nat) (bs : List Byte) : (s.storeWrite a bs).cads = s.cads := rfl
@[simp] theorem State.storeWrite_admitted (a : Nat) (bs : List Byte) : (s.storeWrite a bs).admitted = s.admitted := rfl
@[simp] theorem State.storeWrite_lostSteps (a : Nat) (bs : List Byte) : (s.storeWrite a bs).lostSteps = s.lostSteps := rfl
@[simp] theorem State.storeWrite_reqNo (a : Nat) (bs : List Byte) : (s.storeWrite a bs).reqNo = s.reqNo := rfl
@[simp] theorem State.storeWrite_got (a : Nat) (bs : List Byte) : (s.storeWrite a bs).got = s.got := rfl
@[simp] theorem State.storeWrite_busErrs (a : Nat) (bs : List Byte) : (s.storeWrite a bs).busErrs = s.busErrs := rfl
@[simp] theorem State.storeWrite_mds (a : Nat) (bs : List Byte) : (s.storeWrite a bs).mds = s.mds := rfl
@[simp] theorem State.storeWrite_moduleId (a : Nat) (bs : List Byte) : (s.storeWrite a bs).moduleId = s.moduleId := rfl
@[simp] theorem State.storeWrite_jobs (a : Nat) (bs : List Byte) : (s.storeWrite a bs).jobs = s.jobs := rfl
@[simp] theorem State.storeWrite_keySlots (a : Nat) (bs : List Byte) : (s.storeWrite a bs).keySlots = s.keySlots := rfl
@[simp] theorem State.storeWrite_releases (a : Nat) (bs : List Byte) : (s.storeWrite a bs).releases = s.releases := rfl
@[simp] theorem State.storeWrite_groups (a : Nat) (bs : List Byte) : (s.storeWrite a bs).groups = s.groups := rfl
@[simp] theorem State.storeWrite_outbox (a : Nat) (bs : List Byte) : (s.storeWrite a bs).outbox = s.outbox := rfl
@[simp] theorem State.storeWrite_torusLen (a : Nat) (bs : List Byte) : (s.storeWrite a bs).torusLen = s.torusLen := rfl
@[simp] theorem State.storeWrite_ports (a : Nat) (bs : List Byte) : (s.storeWrite a bs).ports = s.ports := rfl
@[simp] theorem State.storeWrite_arrived (a : Nat) (bs : List Byte) : (s.storeWrite a bs).arrived = s.arrived := rfl
@[simp] theorem State.storeWrite_exch (a : Nat) (bs : List Byte) : (s.storeWrite a bs).exch = s.exch := rfl
@[simp] theorem State.storeWrite_sites (a : Nat) (bs : List Byte) : (s.storeWrite a bs).sites = s.sites := rfl
@[simp] theorem State.storeWrite_pairSecrets (a : Nat) (bs : List Byte) : (s.storeWrite a bs).pairSecrets = s.pairSecrets := rfl
@[simp] theorem State.storeWrite_sec (a : Nat) (bs : List Byte) : (s.storeWrite a bs).sec = s.sec := rfl
@[simp] theorem State.storeWrite_host (a : Nat) (bs : List Byte) : (s.storeWrite a bs).host = s.host := rfl
@[simp] theorem State.storeWrite_pwr (a : Nat) (bs : List Byte) : (s.storeWrite a bs).pwr = s.pwr := rfl
@[simp] theorem State.storeWrite_rel (a : Nat) (bs : List Byte) : (s.storeWrite a bs).rel = s.rel := rfl
@[simp] theorem State.storeWrite_pending (a : Nat) (bs : List Byte) : (s.storeWrite a bs).pending = s.pending := rfl
@[simp] theorem State.rd_storeWrite (a : Nat) (bs : List Byte) (r : Nat) : (s.storeWrite a bs).rd r = s.rd r := rfl
@[simp] theorem State.cd_storeWrite (a : Nat) (bs : List Byte) (r : Fin 40) : (s.storeWrite a bs).cd r = s.cd r := rfl
@[simp] theorem State.md_storeWrite (a : Nat) (bs : List Byte) (r : Fin 16) : (s.storeWrite a bs).md r = s.md r := rfl

/-! ### zeroRange -/
@[simp] theorem State.zeroRange_now (a n : Nat) : (s.zeroRange a n).now = s.now := rfl
@[simp] theorem State.zeroRange_regs (a n : Nat) : (s.zeroRange a n).regs = s.regs := rfl
@[simp] theorem State.zeroRange_events (a n : Nat) : (s.zeroRange a n).events = s.events := rfl
@[simp] theorem State.zeroRange_resp (a n : Nat) : (s.zeroRange a n).resp = s.resp := rfl
@[simp] theorem State.zeroRange_free (a n : Nat) : (s.zeroRange a n).free = s.free := rfl
@[simp] theorem State.zeroRange_latch (a n : Nat) : (s.zeroRange a n).latch = s.latch := rfl
@[simp] theorem State.zeroRange_inReset (a n : Nat) : (s.zeroRange a n).inReset = s.inReset := rfl
@[simp] theorem State.zeroRange_hostMask (a n : Nat) : (s.zeroRange a n).hostMask = s.hostMask := rfl
@[simp] theorem State.zeroRange_cleared (a n : Nat) : (s.zeroRange a n).cleared = s.cleared := rfl
@[simp] theorem State.zeroRange_fabRetry (a n : Nat) : (s.zeroRange a n).fabRetry = s.fabRetry := rfl
@[simp] theorem State.zeroRange_packets (a n : Nat) : (s.zeroRange a n).packets = s.packets := rfl
@[simp] theorem State.zeroRange_arbs (a n : Nat) : (s.zeroRange a n).arbs = s.arbs := rfl
@[simp] theorem State.zeroRange_cds (a n : Nat) : (s.zeroRange a n).cds = s.cds := rfl
@[simp] theorem State.zeroRange_deadDies (a n : Nat) : (s.zeroRange a n).deadDies = s.deadDies := rfl
@[simp] theorem State.zeroRange_tables (a n : Nat) : (s.zeroRange a n).tables = s.tables := rfl
@[simp] theorem State.zeroRange_cads (a n : Nat) : (s.zeroRange a n).cads = s.cads := rfl
@[simp] theorem State.zeroRange_admitted (a n : Nat) : (s.zeroRange a n).admitted = s.admitted := rfl
@[simp] theorem State.zeroRange_lostSteps (a n : Nat) : (s.zeroRange a n).lostSteps = s.lostSteps := rfl
@[simp] theorem State.zeroRange_reqNo (a n : Nat) : (s.zeroRange a n).reqNo = s.reqNo := rfl
@[simp] theorem State.zeroRange_got (a n : Nat) : (s.zeroRange a n).got = s.got := rfl
@[simp] theorem State.zeroRange_busErrs (a n : Nat) : (s.zeroRange a n).busErrs = s.busErrs := rfl
@[simp] theorem State.zeroRange_mds (a n : Nat) : (s.zeroRange a n).mds = s.mds := rfl
@[simp] theorem State.zeroRange_moduleId (a n : Nat) : (s.zeroRange a n).moduleId = s.moduleId := rfl
@[simp] theorem State.zeroRange_jobs (a n : Nat) : (s.zeroRange a n).jobs = s.jobs := rfl
@[simp] theorem State.zeroRange_keySlots (a n : Nat) : (s.zeroRange a n).keySlots = s.keySlots := rfl
@[simp] theorem State.zeroRange_releases (a n : Nat) : (s.zeroRange a n).releases = s.releases := rfl
@[simp] theorem State.zeroRange_groups (a n : Nat) : (s.zeroRange a n).groups = s.groups := rfl
@[simp] theorem State.zeroRange_outbox (a n : Nat) : (s.zeroRange a n).outbox = s.outbox := rfl
@[simp] theorem State.zeroRange_torusLen (a n : Nat) : (s.zeroRange a n).torusLen = s.torusLen := rfl
@[simp] theorem State.zeroRange_ports (a n : Nat) : (s.zeroRange a n).ports = s.ports := rfl
@[simp] theorem State.zeroRange_arrived (a n : Nat) : (s.zeroRange a n).arrived = s.arrived := rfl
@[simp] theorem State.zeroRange_exch (a n : Nat) : (s.zeroRange a n).exch = s.exch := rfl
@[simp] theorem State.zeroRange_sites (a n : Nat) : (s.zeroRange a n).sites = s.sites := rfl
@[simp] theorem State.zeroRange_pairSecrets (a n : Nat) : (s.zeroRange a n).pairSecrets = s.pairSecrets := rfl
@[simp] theorem State.zeroRange_sec (a n : Nat) : (s.zeroRange a n).sec = s.sec := rfl
@[simp] theorem State.zeroRange_host (a n : Nat) : (s.zeroRange a n).host = s.host := rfl
@[simp] theorem State.zeroRange_pwr (a n : Nat) : (s.zeroRange a n).pwr = s.pwr := rfl
@[simp] theorem State.zeroRange_rel (a n : Nat) : (s.zeroRange a n).rel = s.rel := rfl
@[simp] theorem State.zeroRange_pending (a n : Nat) : (s.zeroRange a n).pending = s.pending := rfl
@[simp] theorem State.rd_zeroRange (a n : Nat) (r : Nat) : (s.zeroRange a n).rd r = s.rd r := rfl
@[simp] theorem State.cd_zeroRange (a n : Nat) (r : Fin 40) : (s.zeroRange a n).cd r = s.cd r := rfl
@[simp] theorem State.md_zeroRange (a n : Nat) (r : Fin 16) : (s.zeroRange a n).md r = s.md r := rfl

/-! ### setCd -/
@[simp] theorem State.setCd_now (d : Fin 40) (c : CDie) : (s.setCd d c).now = s.now := rfl
@[simp] theorem State.setCd_regs (d : Fin 40) (c : CDie) : (s.setCd d c).regs = s.regs := rfl
@[simp] theorem State.setCd_mem (d : Fin 40) (c : CDie) : (s.setCd d c).mem = s.mem := rfl
@[simp] theorem State.setCd_poison (d : Fin 40) (c : CDie) : (s.setCd d c).poison = s.poison := rfl
@[simp] theorem State.setCd_events (d : Fin 40) (c : CDie) : (s.setCd d c).events = s.events := rfl
@[simp] theorem State.setCd_resp (d : Fin 40) (c : CDie) : (s.setCd d c).resp = s.resp := rfl
@[simp] theorem State.setCd_free (d : Fin 40) (c : CDie) : (s.setCd d c).free = s.free := rfl
@[simp] theorem State.setCd_latch (d : Fin 40) (c : CDie) : (s.setCd d c).latch = s.latch := rfl
@[simp] theorem State.setCd_inReset (d : Fin 40) (c : CDie) : (s.setCd d c).inReset = s.inReset := rfl
@[simp] theorem State.setCd_hostMask (d : Fin 40) (c : CDie) : (s.setCd d c).hostMask = s.hostMask := rfl
@[simp] theorem State.setCd_cleared (d : Fin 40) (c : CDie) : (s.setCd d c).cleared = s.cleared := rfl
@[simp] theorem State.setCd_fabRetry (d : Fin 40) (c : CDie) : (s.setCd d c).fabRetry = s.fabRetry := rfl
@[simp] theorem State.setCd_packets (d : Fin 40) (c : CDie) : (s.setCd d c).packets = s.packets := rfl
@[simp] theorem State.setCd_arbs (d : Fin 40) (c : CDie) : (s.setCd d c).arbs = s.arbs := rfl
@[simp] theorem State.setCd_cds (d : Fin 40) (c : CDie) : (s.setCd d c).cds = s.cds.set d c := rfl
@[simp] theorem State.setCd_deadDies (d : Fin 40) (c : CDie) : (s.setCd d c).deadDies = s.deadDies := rfl
@[simp] theorem State.setCd_tables (d : Fin 40) (c : CDie) : (s.setCd d c).tables = s.tables := rfl
@[simp] theorem State.setCd_cads (d : Fin 40) (c : CDie) : (s.setCd d c).cads = s.cads := rfl
@[simp] theorem State.setCd_admitted (d : Fin 40) (c : CDie) : (s.setCd d c).admitted = s.admitted := rfl
@[simp] theorem State.setCd_lostSteps (d : Fin 40) (c : CDie) : (s.setCd d c).lostSteps = s.lostSteps := rfl
@[simp] theorem State.setCd_reqNo (d : Fin 40) (c : CDie) : (s.setCd d c).reqNo = s.reqNo := rfl
@[simp] theorem State.setCd_got (d : Fin 40) (c : CDie) : (s.setCd d c).got = s.got := rfl
@[simp] theorem State.setCd_busErrs (d : Fin 40) (c : CDie) : (s.setCd d c).busErrs = s.busErrs := rfl
@[simp] theorem State.setCd_mds (d : Fin 40) (c : CDie) : (s.setCd d c).mds = s.mds := rfl
@[simp] theorem State.setCd_moduleId (d : Fin 40) (c : CDie) : (s.setCd d c).moduleId = s.moduleId := rfl
@[simp] theorem State.setCd_jobs (d : Fin 40) (c : CDie) : (s.setCd d c).jobs = s.jobs := rfl
@[simp] theorem State.setCd_keySlots (d : Fin 40) (c : CDie) : (s.setCd d c).keySlots = s.keySlots := rfl
@[simp] theorem State.setCd_releases (d : Fin 40) (c : CDie) : (s.setCd d c).releases = s.releases := rfl
@[simp] theorem State.setCd_groups (d : Fin 40) (c : CDie) : (s.setCd d c).groups = s.groups := rfl
@[simp] theorem State.setCd_outbox (d : Fin 40) (c : CDie) : (s.setCd d c).outbox = s.outbox := rfl
@[simp] theorem State.setCd_torusLen (d : Fin 40) (c : CDie) : (s.setCd d c).torusLen = s.torusLen := rfl
@[simp] theorem State.setCd_ports (d : Fin 40) (c : CDie) : (s.setCd d c).ports = s.ports := rfl
@[simp] theorem State.setCd_arrived (d : Fin 40) (c : CDie) : (s.setCd d c).arrived = s.arrived := rfl
@[simp] theorem State.setCd_exch (d : Fin 40) (c : CDie) : (s.setCd d c).exch = s.exch := rfl
@[simp] theorem State.setCd_sites (d : Fin 40) (c : CDie) : (s.setCd d c).sites = s.sites := rfl
@[simp] theorem State.setCd_pairSecrets (d : Fin 40) (c : CDie) : (s.setCd d c).pairSecrets = s.pairSecrets := rfl
@[simp] theorem State.setCd_sec (d : Fin 40) (c : CDie) : (s.setCd d c).sec = s.sec := rfl
@[simp] theorem State.setCd_host (d : Fin 40) (c : CDie) : (s.setCd d c).host = s.host := rfl
@[simp] theorem State.setCd_pwr (d : Fin 40) (c : CDie) : (s.setCd d c).pwr = s.pwr := rfl
@[simp] theorem State.setCd_rel (d : Fin 40) (c : CDie) : (s.setCd d c).rel = s.rel := rfl
@[simp] theorem State.setCd_pending (d : Fin 40) (c : CDie) : (s.setCd d c).pending = s.pending := rfl
@[simp] theorem State.rd_setCd (d : Fin 40) (c : CDie) (r : Nat) : (s.setCd d c).rd r = s.rd r := rfl
@[simp] theorem State.byte_setCd (d : Fin 40) (c : CDie) (r : Nat) : (s.setCd d c).byte r = s.byte r := rfl
@[simp] theorem State.md_setCd (d : Fin 40) (c : CDie) (r : Fin 16) : (s.setCd d c).md r = s.md r := rfl

/-! ### setMd -/
@[simp] theorem State.setMd_now (m : Fin 16) (c : MDie) : (s.setMd m c).now = s.now := rfl
@[simp] theorem State.setMd_regs (m : Fin 16) (c : MDie) : (s.setMd m c).regs = s.regs := rfl
@[simp] theorem State.setMd_mem (m : Fin 16) (c : MDie) : (s.setMd m c).mem = s.mem := rfl
@[simp] theorem State.setMd_poison (m : Fin 16) (c : MDie) : (s.setMd m c).poison = s.poison := rfl
@[simp] theorem State.setMd_events (m : Fin 16) (c : MDie) : (s.setMd m c).events = s.events := rfl
@[simp] theorem State.setMd_resp (m : Fin 16) (c : MDie) : (s.setMd m c).resp = s.resp := rfl
@[simp] theorem State.setMd_free (m : Fin 16) (c : MDie) : (s.setMd m c).free = s.free := rfl
@[simp] theorem State.setMd_latch (m : Fin 16) (c : MDie) : (s.setMd m c).latch = s.latch := rfl
@[simp] theorem State.setMd_inReset (m : Fin 16) (c : MDie) : (s.setMd m c).inReset = s.inReset := rfl
@[simp] theorem State.setMd_hostMask (m : Fin 16) (c : MDie) : (s.setMd m c).hostMask = s.hostMask := rfl
@[simp] theorem State.setMd_cleared (m : Fin 16) (c : MDie) : (s.setMd m c).cleared = s.cleared := rfl
@[simp] theorem State.setMd_fabRetry (m : Fin 16) (c : MDie) : (s.setMd m c).fabRetry = s.fabRetry := rfl
@[simp] theorem State.setMd_packets (m : Fin 16) (c : MDie) : (s.setMd m c).packets = s.packets := rfl
@[simp] theorem State.setMd_arbs (m : Fin 16) (c : MDie) : (s.setMd m c).arbs = s.arbs := rfl
@[simp] theorem State.setMd_cds (m : Fin 16) (c : MDie) : (s.setMd m c).cds = s.cds := rfl
@[simp] theorem State.setMd_deadDies (m : Fin 16) (c : MDie) : (s.setMd m c).deadDies = s.deadDies := rfl
@[simp] theorem State.setMd_tables (m : Fin 16) (c : MDie) : (s.setMd m c).tables = s.tables := rfl
@[simp] theorem State.setMd_cads (m : Fin 16) (c : MDie) : (s.setMd m c).cads = s.cads := rfl
@[simp] theorem State.setMd_admitted (m : Fin 16) (c : MDie) : (s.setMd m c).admitted = s.admitted := rfl
@[simp] theorem State.setMd_lostSteps (m : Fin 16) (c : MDie) : (s.setMd m c).lostSteps = s.lostSteps := rfl
@[simp] theorem State.setMd_reqNo (m : Fin 16) (c : MDie) : (s.setMd m c).reqNo = s.reqNo := rfl
@[simp] theorem State.setMd_got (m : Fin 16) (c : MDie) : (s.setMd m c).got = s.got := rfl
@[simp] theorem State.setMd_busErrs (m : Fin 16) (c : MDie) : (s.setMd m c).busErrs = s.busErrs := rfl
@[simp] theorem State.setMd_mds (m : Fin 16) (c : MDie) : (s.setMd m c).mds = s.mds.set m c := rfl
@[simp] theorem State.setMd_moduleId (m : Fin 16) (c : MDie) : (s.setMd m c).moduleId = s.moduleId := rfl
@[simp] theorem State.setMd_jobs (m : Fin 16) (c : MDie) : (s.setMd m c).jobs = s.jobs := rfl
@[simp] theorem State.setMd_keySlots (m : Fin 16) (c : MDie) : (s.setMd m c).keySlots = s.keySlots := rfl
@[simp] theorem State.setMd_releases (m : Fin 16) (c : MDie) : (s.setMd m c).releases = s.releases := rfl
@[simp] theorem State.setMd_groups (m : Fin 16) (c : MDie) : (s.setMd m c).groups = s.groups := rfl
@[simp] theorem State.setMd_outbox (m : Fin 16) (c : MDie) : (s.setMd m c).outbox = s.outbox := rfl
@[simp] theorem State.setMd_torusLen (m : Fin 16) (c : MDie) : (s.setMd m c).torusLen = s.torusLen := rfl
@[simp] theorem State.setMd_ports (m : Fin 16) (c : MDie) : (s.setMd m c).ports = s.ports := rfl
@[simp] theorem State.setMd_arrived (m : Fin 16) (c : MDie) : (s.setMd m c).arrived = s.arrived := rfl
@[simp] theorem State.setMd_exch (m : Fin 16) (c : MDie) : (s.setMd m c).exch = s.exch := rfl
@[simp] theorem State.setMd_sites (m : Fin 16) (c : MDie) : (s.setMd m c).sites = s.sites := rfl
@[simp] theorem State.setMd_pairSecrets (m : Fin 16) (c : MDie) : (s.setMd m c).pairSecrets = s.pairSecrets := rfl
@[simp] theorem State.setMd_sec (m : Fin 16) (c : MDie) : (s.setMd m c).sec = s.sec := rfl
@[simp] theorem State.setMd_host (m : Fin 16) (c : MDie) : (s.setMd m c).host = s.host := rfl
@[simp] theorem State.setMd_pwr (m : Fin 16) (c : MDie) : (s.setMd m c).pwr = s.pwr := rfl
@[simp] theorem State.setMd_rel (m : Fin 16) (c : MDie) : (s.setMd m c).rel = s.rel := rfl
@[simp] theorem State.setMd_pending (m : Fin 16) (c : MDie) : (s.setMd m c).pending = s.pending := rfl
@[simp] theorem State.rd_setMd (m : Fin 16) (c : MDie) (r : Nat) : (s.setMd m c).rd r = s.rd r := rfl
@[simp] theorem State.byte_setMd (m : Fin 16) (c : MDie) (r : Nat) : (s.setMd m c).byte r = s.byte r := rfl
@[simp] theorem State.cd_setMd (m : Fin 16) (c : MDie) (r : Fin 40) : (s.setMd m c).cd r = s.cd r := rfl

/-! ### setPort -/
@[simp] theorem State.setPort_now (l : Fin 6) (p : LinkPort) : (s.setPort l p).now = s.now := rfl
@[simp] theorem State.setPort_regs (l : Fin 6) (p : LinkPort) : (s.setPort l p).regs = s.regs := rfl
@[simp] theorem State.setPort_mem (l : Fin 6) (p : LinkPort) : (s.setPort l p).mem = s.mem := rfl
@[simp] theorem State.setPort_poison (l : Fin 6) (p : LinkPort) : (s.setPort l p).poison = s.poison := rfl
@[simp] theorem State.setPort_events (l : Fin 6) (p : LinkPort) : (s.setPort l p).events = s.events := rfl
@[simp] theorem State.setPort_resp (l : Fin 6) (p : LinkPort) : (s.setPort l p).resp = s.resp := rfl
@[simp] theorem State.setPort_free (l : Fin 6) (p : LinkPort) : (s.setPort l p).free = s.free := rfl
@[simp] theorem State.setPort_latch (l : Fin 6) (p : LinkPort) : (s.setPort l p).latch = s.latch := rfl
@[simp] theorem State.setPort_inReset (l : Fin 6) (p : LinkPort) : (s.setPort l p).inReset = s.inReset := rfl
@[simp] theorem State.setPort_hostMask (l : Fin 6) (p : LinkPort) : (s.setPort l p).hostMask = s.hostMask := rfl
@[simp] theorem State.setPort_cleared (l : Fin 6) (p : LinkPort) : (s.setPort l p).cleared = s.cleared := rfl
@[simp] theorem State.setPort_fabRetry (l : Fin 6) (p : LinkPort) : (s.setPort l p).fabRetry = s.fabRetry := rfl
@[simp] theorem State.setPort_packets (l : Fin 6) (p : LinkPort) : (s.setPort l p).packets = s.packets := rfl
@[simp] theorem State.setPort_arbs (l : Fin 6) (p : LinkPort) : (s.setPort l p).arbs = s.arbs := rfl
@[simp] theorem State.setPort_cds (l : Fin 6) (p : LinkPort) : (s.setPort l p).cds = s.cds := rfl
@[simp] theorem State.setPort_deadDies (l : Fin 6) (p : LinkPort) : (s.setPort l p).deadDies = s.deadDies := rfl
@[simp] theorem State.setPort_tables (l : Fin 6) (p : LinkPort) : (s.setPort l p).tables = s.tables := rfl
@[simp] theorem State.setPort_cads (l : Fin 6) (p : LinkPort) : (s.setPort l p).cads = s.cads := rfl
@[simp] theorem State.setPort_admitted (l : Fin 6) (p : LinkPort) : (s.setPort l p).admitted = s.admitted := rfl
@[simp] theorem State.setPort_lostSteps (l : Fin 6) (p : LinkPort) : (s.setPort l p).lostSteps = s.lostSteps := rfl
@[simp] theorem State.setPort_reqNo (l : Fin 6) (p : LinkPort) : (s.setPort l p).reqNo = s.reqNo := rfl
@[simp] theorem State.setPort_got (l : Fin 6) (p : LinkPort) : (s.setPort l p).got = s.got := rfl
@[simp] theorem State.setPort_busErrs (l : Fin 6) (p : LinkPort) : (s.setPort l p).busErrs = s.busErrs := rfl
@[simp] theorem State.setPort_mds (l : Fin 6) (p : LinkPort) : (s.setPort l p).mds = s.mds := rfl
@[simp] theorem State.setPort_moduleId (l : Fin 6) (p : LinkPort) : (s.setPort l p).moduleId = s.moduleId := rfl
@[simp] theorem State.setPort_jobs (l : Fin 6) (p : LinkPort) : (s.setPort l p).jobs = s.jobs := rfl
@[simp] theorem State.setPort_keySlots (l : Fin 6) (p : LinkPort) : (s.setPort l p).keySlots = s.keySlots := rfl
@[simp] theorem State.setPort_releases (l : Fin 6) (p : LinkPort) : (s.setPort l p).releases = s.releases := rfl
@[simp] theorem State.setPort_groups (l : Fin 6) (p : LinkPort) : (s.setPort l p).groups = s.groups := rfl
@[simp] theorem State.setPort_outbox (l : Fin 6) (p : LinkPort) : (s.setPort l p).outbox = s.outbox := rfl
@[simp] theorem State.setPort_torusLen (l : Fin 6) (p : LinkPort) : (s.setPort l p).torusLen = s.torusLen := rfl
@[simp] theorem State.setPort_ports (l : Fin 6) (p : LinkPort) : (s.setPort l p).ports = s.ports.set l p := rfl
@[simp] theorem State.setPort_arrived (l : Fin 6) (p : LinkPort) : (s.setPort l p).arrived = s.arrived := rfl
@[simp] theorem State.setPort_exch (l : Fin 6) (p : LinkPort) : (s.setPort l p).exch = s.exch := rfl
@[simp] theorem State.setPort_sites (l : Fin 6) (p : LinkPort) : (s.setPort l p).sites = s.sites := rfl
@[simp] theorem State.setPort_pairSecrets (l : Fin 6) (p : LinkPort) : (s.setPort l p).pairSecrets = s.pairSecrets := rfl
@[simp] theorem State.setPort_sec (l : Fin 6) (p : LinkPort) : (s.setPort l p).sec = s.sec := rfl
@[simp] theorem State.setPort_host (l : Fin 6) (p : LinkPort) : (s.setPort l p).host = s.host := rfl
@[simp] theorem State.setPort_pwr (l : Fin 6) (p : LinkPort) : (s.setPort l p).pwr = s.pwr := rfl
@[simp] theorem State.setPort_rel (l : Fin 6) (p : LinkPort) : (s.setPort l p).rel = s.rel := rfl
@[simp] theorem State.setPort_pending (l : Fin 6) (p : LinkPort) : (s.setPort l p).pending = s.pending := rfl
@[simp] theorem State.rd_setPort (l : Fin 6) (p : LinkPort) (r : Nat) : (s.setPort l p).rd r = s.rd r := rfl
@[simp] theorem State.byte_setPort (l : Fin 6) (p : LinkPort) (r : Nat) : (s.setPort l p).byte r = s.byte r := rfl
@[simp] theorem State.cd_setPort (l : Fin 6) (p : LinkPort) (r : Fin 40) : (s.setPort l p).cd r = s.cd r := rfl
@[simp] theorem State.md_setPort (l : Fin 6) (p : LinkPort) (r : Fin 16) : (s.setPort l p).md r = s.md r := rfl

/-! ### setCad -/
@[simp] theorem State.setCad_now (k : Fin 8) (c : Cadence) : (s.setCad k c).now = s.now := rfl
@[simp] theorem State.setCad_regs (k : Fin 8) (c : Cadence) : (s.setCad k c).regs = s.regs := rfl
@[simp] theorem State.setCad_mem (k : Fin 8) (c : Cadence) : (s.setCad k c).mem = s.mem := rfl
@[simp] theorem State.setCad_poison (k : Fin 8) (c : Cadence) : (s.setCad k c).poison = s.poison := rfl
@[simp] theorem State.setCad_events (k : Fin 8) (c : Cadence) : (s.setCad k c).events = s.events := rfl
@[simp] theorem State.setCad_resp (k : Fin 8) (c : Cadence) : (s.setCad k c).resp = s.resp := rfl
@[simp] theorem State.setCad_free (k : Fin 8) (c : Cadence) : (s.setCad k c).free = s.free := rfl
@[simp] theorem State.setCad_latch (k : Fin 8) (c : Cadence) : (s.setCad k c).latch = s.latch := rfl
@[simp] theorem State.setCad_inReset (k : Fin 8) (c : Cadence) : (s.setCad k c).inReset = s.inReset := rfl
@[simp] theorem State.setCad_hostMask (k : Fin 8) (c : Cadence) : (s.setCad k c).hostMask = s.hostMask := rfl
@[simp] theorem State.setCad_cleared (k : Fin 8) (c : Cadence) : (s.setCad k c).cleared = s.cleared := rfl
@[simp] theorem State.setCad_fabRetry (k : Fin 8) (c : Cadence) : (s.setCad k c).fabRetry = s.fabRetry := rfl
@[simp] theorem State.setCad_packets (k : Fin 8) (c : Cadence) : (s.setCad k c).packets = s.packets := rfl
@[simp] theorem State.setCad_arbs (k : Fin 8) (c : Cadence) : (s.setCad k c).arbs = s.arbs := rfl
@[simp] theorem State.setCad_cds (k : Fin 8) (c : Cadence) : (s.setCad k c).cds = s.cds := rfl
@[simp] theorem State.setCad_deadDies (k : Fin 8) (c : Cadence) : (s.setCad k c).deadDies = s.deadDies := rfl
@[simp] theorem State.setCad_tables (k : Fin 8) (c : Cadence) : (s.setCad k c).tables = s.tables := rfl
@[simp] theorem State.setCad_cads (k : Fin 8) (c : Cadence) : (s.setCad k c).cads = s.cads.set k c := rfl
@[simp] theorem State.setCad_admitted (k : Fin 8) (c : Cadence) : (s.setCad k c).admitted = s.admitted := rfl
@[simp] theorem State.setCad_lostSteps (k : Fin 8) (c : Cadence) : (s.setCad k c).lostSteps = s.lostSteps := rfl
@[simp] theorem State.setCad_reqNo (k : Fin 8) (c : Cadence) : (s.setCad k c).reqNo = s.reqNo := rfl
@[simp] theorem State.setCad_got (k : Fin 8) (c : Cadence) : (s.setCad k c).got = s.got := rfl
@[simp] theorem State.setCad_busErrs (k : Fin 8) (c : Cadence) : (s.setCad k c).busErrs = s.busErrs := rfl
@[simp] theorem State.setCad_mds (k : Fin 8) (c : Cadence) : (s.setCad k c).mds = s.mds := rfl
@[simp] theorem State.setCad_moduleId (k : Fin 8) (c : Cadence) : (s.setCad k c).moduleId = s.moduleId := rfl
@[simp] theorem State.setCad_jobs (k : Fin 8) (c : Cadence) : (s.setCad k c).jobs = s.jobs := rfl
@[simp] theorem State.setCad_keySlots (k : Fin 8) (c : Cadence) : (s.setCad k c).keySlots = s.keySlots := rfl
@[simp] theorem State.setCad_releases (k : Fin 8) (c : Cadence) : (s.setCad k c).releases = s.releases := rfl
@[simp] theorem State.setCad_groups (k : Fin 8) (c : Cadence) : (s.setCad k c).groups = s.groups := rfl
@[simp] theorem State.setCad_outbox (k : Fin 8) (c : Cadence) : (s.setCad k c).outbox = s.outbox := rfl
@[simp] theorem State.setCad_torusLen (k : Fin 8) (c : Cadence) : (s.setCad k c).torusLen = s.torusLen := rfl
@[simp] theorem State.setCad_ports (k : Fin 8) (c : Cadence) : (s.setCad k c).ports = s.ports := rfl
@[simp] theorem State.setCad_arrived (k : Fin 8) (c : Cadence) : (s.setCad k c).arrived = s.arrived := rfl
@[simp] theorem State.setCad_exch (k : Fin 8) (c : Cadence) : (s.setCad k c).exch = s.exch := rfl
@[simp] theorem State.setCad_sites (k : Fin 8) (c : Cadence) : (s.setCad k c).sites = s.sites := rfl
@[simp] theorem State.setCad_pairSecrets (k : Fin 8) (c : Cadence) : (s.setCad k c).pairSecrets = s.pairSecrets := rfl
@[simp] theorem State.setCad_sec (k : Fin 8) (c : Cadence) : (s.setCad k c).sec = s.sec := rfl
@[simp] theorem State.setCad_host (k : Fin 8) (c : Cadence) : (s.setCad k c).host = s.host := rfl
@[simp] theorem State.setCad_pwr (k : Fin 8) (c : Cadence) : (s.setCad k c).pwr = s.pwr := rfl
@[simp] theorem State.setCad_rel (k : Fin 8) (c : Cadence) : (s.setCad k c).rel = s.rel := rfl
@[simp] theorem State.setCad_pending (k : Fin 8) (c : Cadence) : (s.setCad k c).pending = s.pending := rfl
@[simp] theorem State.rd_setCad (k : Fin 8) (c : Cadence) (r : Nat) : (s.setCad k c).rd r = s.rd r := rfl
@[simp] theorem State.byte_setCad (k : Fin 8) (c : Cadence) (r : Nat) : (s.setCad k c).byte r = s.byte r := rfl
@[simp] theorem State.cd_setCad (k : Fin 8) (c : Cadence) (r : Fin 40) : (s.setCad k c).cd r = s.cd r := rfl
@[simp] theorem State.md_setCad (k : Fin 8) (c : Cadence) (r : Fin 16) : (s.setCad k c).md r = s.md r := rfl

/-! ### setSx -/
@[simp] theorem State.setSx_now (m : Fin 16) (x : Sx) : (s.setSx m x).now = s.now := rfl
@[simp] theorem State.setSx_regs (m : Fin 16) (x : Sx) : (s.setSx m x).regs = s.regs := rfl
@[simp] theorem State.setSx_mem (m : Fin 16) (x : Sx) : (s.setSx m x).mem = s.mem := rfl
@[simp] theorem State.setSx_poison (m : Fin 16) (x : Sx) : (s.setSx m x).poison = s.poison := rfl
@[simp] theorem State.setSx_events (m : Fin 16) (x : Sx) : (s.setSx m x).events = s.events := rfl
@[simp] theorem State.setSx_resp (m : Fin 16) (x : Sx) : (s.setSx m x).resp = s.resp := rfl
@[simp] theorem State.setSx_free (m : Fin 16) (x : Sx) : (s.setSx m x).free = s.free := rfl
@[simp] theorem State.setSx_latch (m : Fin 16) (x : Sx) : (s.setSx m x).latch = s.latch := rfl
@[simp] theorem State.setSx_inReset (m : Fin 16) (x : Sx) : (s.setSx m x).inReset = s.inReset := rfl
@[simp] theorem State.setSx_hostMask (m : Fin 16) (x : Sx) : (s.setSx m x).hostMask = s.hostMask := rfl
@[simp] theorem State.setSx_cleared (m : Fin 16) (x : Sx) : (s.setSx m x).cleared = s.cleared := rfl
@[simp] theorem State.setSx_fabRetry (m : Fin 16) (x : Sx) : (s.setSx m x).fabRetry = s.fabRetry := rfl
@[simp] theorem State.setSx_packets (m : Fin 16) (x : Sx) : (s.setSx m x).packets = s.packets := rfl
@[simp] theorem State.setSx_arbs (m : Fin 16) (x : Sx) : (s.setSx m x).arbs = s.arbs := rfl
@[simp] theorem State.setSx_cds (m : Fin 16) (x : Sx) : (s.setSx m x).cds = s.cds := rfl
@[simp] theorem State.setSx_deadDies (m : Fin 16) (x : Sx) : (s.setSx m x).deadDies = s.deadDies := rfl
@[simp] theorem State.setSx_tables (m : Fin 16) (x : Sx) : (s.setSx m x).tables = s.tables := rfl
@[simp] theorem State.setSx_cads (m : Fin 16) (x : Sx) : (s.setSx m x).cads = s.cads := rfl
@[simp] theorem State.setSx_admitted (m : Fin 16) (x : Sx) : (s.setSx m x).admitted = s.admitted := rfl
@[simp] theorem State.setSx_lostSteps (m : Fin 16) (x : Sx) : (s.setSx m x).lostSteps = s.lostSteps := rfl
@[simp] theorem State.setSx_reqNo (m : Fin 16) (x : Sx) : (s.setSx m x).reqNo = s.reqNo := rfl
@[simp] theorem State.setSx_got (m : Fin 16) (x : Sx) : (s.setSx m x).got = s.got := rfl
@[simp] theorem State.setSx_busErrs (m : Fin 16) (x : Sx) : (s.setSx m x).busErrs = s.busErrs := rfl
@[simp] theorem State.setSx_mds (m : Fin 16) (x : Sx) : (s.setSx m x).mds = s.mds := rfl
@[simp] theorem State.setSx_moduleId (m : Fin 16) (x : Sx) : (s.setSx m x).moduleId = s.moduleId := rfl
@[simp] theorem State.setSx_jobs (m : Fin 16) (x : Sx) : (s.setSx m x).jobs = s.jobs := rfl
@[simp] theorem State.setSx_keySlots (m : Fin 16) (x : Sx) : (s.setSx m x).keySlots = s.keySlots := rfl
@[simp] theorem State.setSx_releases (m : Fin 16) (x : Sx) : (s.setSx m x).releases = s.releases := rfl
@[simp] theorem State.setSx_groups (m : Fin 16) (x : Sx) : (s.setSx m x).groups = s.groups := rfl
@[simp] theorem State.setSx_outbox (m : Fin 16) (x : Sx) : (s.setSx m x).outbox = s.outbox := rfl
@[simp] theorem State.setSx_torusLen (m : Fin 16) (x : Sx) : (s.setSx m x).torusLen = s.torusLen := rfl
@[simp] theorem State.setSx_ports (m : Fin 16) (x : Sx) : (s.setSx m x).ports = s.ports := rfl
@[simp] theorem State.setSx_arrived (m : Fin 16) (x : Sx) : (s.setSx m x).arrived = s.arrived := rfl
@[simp] theorem State.setSx_exch (m : Fin 16) (x : Sx) : (s.setSx m x).exch = s.exch.set m x := rfl
@[simp] theorem State.setSx_sites (m : Fin 16) (x : Sx) : (s.setSx m x).sites = s.sites := rfl
@[simp] theorem State.setSx_pairSecrets (m : Fin 16) (x : Sx) : (s.setSx m x).pairSecrets = s.pairSecrets := rfl
@[simp] theorem State.setSx_sec (m : Fin 16) (x : Sx) : (s.setSx m x).sec = s.sec := rfl
@[simp] theorem State.setSx_host (m : Fin 16) (x : Sx) : (s.setSx m x).host = s.host := rfl
@[simp] theorem State.setSx_pwr (m : Fin 16) (x : Sx) : (s.setSx m x).pwr = s.pwr := rfl
@[simp] theorem State.setSx_rel (m : Fin 16) (x : Sx) : (s.setSx m x).rel = s.rel := rfl
@[simp] theorem State.setSx_pending (m : Fin 16) (x : Sx) : (s.setSx m x).pending = s.pending := rfl
@[simp] theorem State.rd_setSx (m : Fin 16) (x : Sx) (r : Nat) : (s.setSx m x).rd r = s.rd r := rfl
@[simp] theorem State.byte_setSx (m : Fin 16) (x : Sx) (r : Nat) : (s.setSx m x).byte r = s.byte r := rfl
@[simp] theorem State.cd_setSx (m : Fin 16) (x : Sx) (r : Fin 40) : (s.setSx m x).cd r = s.cd r := rfl
@[simp] theorem State.md_setSx (m : Fin 16) (x : Sx) (r : Fin 16) : (s.setSx m x).md r = s.md r := rfl

/-! ### setGrp -/
@[simp] theorem State.setGrp_now (g : Nat) (x : Group) : (s.setGrp g x).now = s.now := rfl
@[simp] theorem State.setGrp_regs (g : Nat) (x : Group) : (s.setGrp g x).regs = s.regs := rfl
@[simp] theorem State.setGrp_mem (g : Nat) (x : Group) : (s.setGrp g x).mem = s.mem := rfl
@[simp] theorem State.setGrp_poison (g : Nat) (x : Group) : (s.setGrp g x).poison = s.poison := rfl
@[simp] theorem State.setGrp_events (g : Nat) (x : Group) : (s.setGrp g x).events = s.events := rfl
@[simp] theorem State.setGrp_resp (g : Nat) (x : Group) : (s.setGrp g x).resp = s.resp := rfl
@[simp] theorem State.setGrp_free (g : Nat) (x : Group) : (s.setGrp g x).free = s.free := rfl
@[simp] theorem State.setGrp_latch (g : Nat) (x : Group) : (s.setGrp g x).latch = s.latch := rfl
@[simp] theorem State.setGrp_inReset (g : Nat) (x : Group) : (s.setGrp g x).inReset = s.inReset := rfl
@[simp] theorem State.setGrp_hostMask (g : Nat) (x : Group) : (s.setGrp g x).hostMask = s.hostMask := rfl
@[simp] theorem State.setGrp_cleared (g : Nat) (x : Group) : (s.setGrp g x).cleared = s.cleared := rfl
@[simp] theorem State.setGrp_fabRetry (g : Nat) (x : Group) : (s.setGrp g x).fabRetry = s.fabRetry := rfl
@[simp] theorem State.setGrp_packets (g : Nat) (x : Group) : (s.setGrp g x).packets = s.packets := rfl
@[simp] theorem State.setGrp_arbs (g : Nat) (x : Group) : (s.setGrp g x).arbs = s.arbs := rfl
@[simp] theorem State.setGrp_cds (g : Nat) (x : Group) : (s.setGrp g x).cds = s.cds := rfl
@[simp] theorem State.setGrp_deadDies (g : Nat) (x : Group) : (s.setGrp g x).deadDies = s.deadDies := rfl
@[simp] theorem State.setGrp_tables (g : Nat) (x : Group) : (s.setGrp g x).tables = s.tables := rfl
@[simp] theorem State.setGrp_cads (g : Nat) (x : Group) : (s.setGrp g x).cads = s.cads := rfl
@[simp] theorem State.setGrp_admitted (g : Nat) (x : Group) : (s.setGrp g x).admitted = s.admitted := rfl
@[simp] theorem State.setGrp_lostSteps (g : Nat) (x : Group) : (s.setGrp g x).lostSteps = s.lostSteps := rfl
@[simp] theorem State.setGrp_reqNo (g : Nat) (x : Group) : (s.setGrp g x).reqNo = s.reqNo := rfl
@[simp] theorem State.setGrp_got (g : Nat) (x : Group) : (s.setGrp g x).got = s.got := rfl
@[simp] theorem State.setGrp_busErrs (g : Nat) (x : Group) : (s.setGrp g x).busErrs = s.busErrs := rfl
@[simp] theorem State.setGrp_mds (g : Nat) (x : Group) : (s.setGrp g x).mds = s.mds := rfl
@[simp] theorem State.setGrp_moduleId (g : Nat) (x : Group) : (s.setGrp g x).moduleId = s.moduleId := rfl
@[simp] theorem State.setGrp_jobs (g : Nat) (x : Group) : (s.setGrp g x).jobs = s.jobs := rfl
@[simp] theorem State.setGrp_keySlots (g : Nat) (x : Group) : (s.setGrp g x).keySlots = s.keySlots := rfl
@[simp] theorem State.setGrp_releases (g : Nat) (x : Group) : (s.setGrp g x).releases = s.releases := rfl
@[simp] theorem State.setGrp_outbox (g : Nat) (x : Group) : (s.setGrp g x).outbox = s.outbox := rfl
@[simp] theorem State.setGrp_torusLen (g : Nat) (x : Group) : (s.setGrp g x).torusLen = s.torusLen := rfl
@[simp] theorem State.setGrp_ports (g : Nat) (x : Group) : (s.setGrp g x).ports = s.ports := rfl
@[simp] theorem State.setGrp_arrived (g : Nat) (x : Group) : (s.setGrp g x).arrived = s.arrived := rfl
@[simp] theorem State.setGrp_exch (g : Nat) (x : Group) : (s.setGrp g x).exch = s.exch := rfl
@[simp] theorem State.setGrp_sites (g : Nat) (x : Group) : (s.setGrp g x).sites = s.sites := rfl
@[simp] theorem State.setGrp_pairSecrets (g : Nat) (x : Group) : (s.setGrp g x).pairSecrets = s.pairSecrets := rfl
@[simp] theorem State.setGrp_sec (g : Nat) (x : Group) : (s.setGrp g x).sec = s.sec := rfl
@[simp] theorem State.setGrp_host (g : Nat) (x : Group) : (s.setGrp g x).host = s.host := rfl
@[simp] theorem State.setGrp_pwr (g : Nat) (x : Group) : (s.setGrp g x).pwr = s.pwr := rfl
@[simp] theorem State.setGrp_rel (g : Nat) (x : Group) : (s.setGrp g x).rel = s.rel := rfl
@[simp] theorem State.setGrp_pending (g : Nat) (x : Group) : (s.setGrp g x).pending = s.pending := rfl
@[simp] theorem State.rd_setGrp (g : Nat) (x : Group) (r : Nat) : (s.setGrp g x).rd r = s.rd r := rfl
@[simp] theorem State.byte_setGrp (g : Nat) (x : Group) (r : Nat) : (s.setGrp g x).byte r = s.byte r := rfl
@[simp] theorem State.cd_setGrp (g : Nat) (x : Group) (r : Fin 40) : (s.setGrp g x).cd r = s.cd r := rfl
@[simp] theorem State.md_setGrp (g : Nat) (x : Group) (r : Fin 16) : (s.setGrp g x).md r = s.md r := rfl

/-! ### setArb -/
@[simp] theorem State.setArb_now (st : ArbStage) (a : ArbState) : (s.setArb st a).now = s.now := rfl
@[simp] theorem State.setArb_regs (st : ArbStage) (a : ArbState) : (s.setArb st a).regs = s.regs := rfl
@[simp] theorem State.setArb_mem (st : ArbStage) (a : ArbState) : (s.setArb st a).mem = s.mem := rfl
@[simp] theorem State.setArb_poison (st : ArbStage) (a : ArbState) : (s.setArb st a).poison = s.poison := rfl
@[simp] theorem State.setArb_events (st : ArbStage) (a : ArbState) : (s.setArb st a).events = s.events := rfl
@[simp] theorem State.setArb_resp (st : ArbStage) (a : ArbState) : (s.setArb st a).resp = s.resp := rfl
@[simp] theorem State.setArb_free (st : ArbStage) (a : ArbState) : (s.setArb st a).free = s.free := rfl
@[simp] theorem State.setArb_latch (st : ArbStage) (a : ArbState) : (s.setArb st a).latch = s.latch := rfl
@[simp] theorem State.setArb_inReset (st : ArbStage) (a : ArbState) : (s.setArb st a).inReset = s.inReset := rfl
@[simp] theorem State.setArb_hostMask (st : ArbStage) (a : ArbState) : (s.setArb st a).hostMask = s.hostMask := rfl
@[simp] theorem State.setArb_cleared (st : ArbStage) (a : ArbState) : (s.setArb st a).cleared = s.cleared := rfl
@[simp] theorem State.setArb_fabRetry (st : ArbStage) (a : ArbState) : (s.setArb st a).fabRetry = s.fabRetry := rfl
@[simp] theorem State.setArb_packets (st : ArbStage) (a : ArbState) : (s.setArb st a).packets = s.packets := rfl
@[simp] theorem State.setArb_cds (st : ArbStage) (a : ArbState) : (s.setArb st a).cds = s.cds := rfl
@[simp] theorem State.setArb_deadDies (st : ArbStage) (a : ArbState) : (s.setArb st a).deadDies = s.deadDies := rfl
@[simp] theorem State.setArb_tables (st : ArbStage) (a : ArbState) : (s.setArb st a).tables = s.tables := rfl
@[simp] theorem State.setArb_cads (st : ArbStage) (a : ArbState) : (s.setArb st a).cads = s.cads := rfl
@[simp] theorem State.setArb_admitted (st : ArbStage) (a : ArbState) : (s.setArb st a).admitted = s.admitted := rfl
@[simp] theorem State.setArb_lostSteps (st : ArbStage) (a : ArbState) : (s.setArb st a).lostSteps = s.lostSteps := rfl
@[simp] theorem State.setArb_reqNo (st : ArbStage) (a : ArbState) : (s.setArb st a).reqNo = s.reqNo := rfl
@[simp] theorem State.setArb_got (st : ArbStage) (a : ArbState) : (s.setArb st a).got = s.got := rfl
@[simp] theorem State.setArb_busErrs (st : ArbStage) (a : ArbState) : (s.setArb st a).busErrs = s.busErrs := rfl
@[simp] theorem State.setArb_mds (st : ArbStage) (a : ArbState) : (s.setArb st a).mds = s.mds := rfl
@[simp] theorem State.setArb_moduleId (st : ArbStage) (a : ArbState) : (s.setArb st a).moduleId = s.moduleId := rfl
@[simp] theorem State.setArb_jobs (st : ArbStage) (a : ArbState) : (s.setArb st a).jobs = s.jobs := rfl
@[simp] theorem State.setArb_keySlots (st : ArbStage) (a : ArbState) : (s.setArb st a).keySlots = s.keySlots := rfl
@[simp] theorem State.setArb_releases (st : ArbStage) (a : ArbState) : (s.setArb st a).releases = s.releases := rfl
@[simp] theorem State.setArb_groups (st : ArbStage) (a : ArbState) : (s.setArb st a).groups = s.groups := rfl
@[simp] theorem State.setArb_outbox (st : ArbStage) (a : ArbState) : (s.setArb st a).outbox = s.outbox := rfl
@[simp] theorem State.setArb_torusLen (st : ArbStage) (a : ArbState) : (s.setArb st a).torusLen = s.torusLen := rfl
@[simp] theorem State.setArb_ports (st : ArbStage) (a : ArbState) : (s.setArb st a).ports = s.ports := rfl
@[simp] theorem State.setArb_arrived (st : ArbStage) (a : ArbState) : (s.setArb st a).arrived = s.arrived := rfl
@[simp] theorem State.setArb_exch (st : ArbStage) (a : ArbState) : (s.setArb st a).exch = s.exch := rfl
@[simp] theorem State.setArb_sites (st : ArbStage) (a : ArbState) : (s.setArb st a).sites = s.sites := rfl
@[simp] theorem State.setArb_pairSecrets (st : ArbStage) (a : ArbState) : (s.setArb st a).pairSecrets = s.pairSecrets := rfl
@[simp] theorem State.setArb_sec (st : ArbStage) (a : ArbState) : (s.setArb st a).sec = s.sec := rfl
@[simp] theorem State.setArb_host (st : ArbStage) (a : ArbState) : (s.setArb st a).host = s.host := rfl
@[simp] theorem State.setArb_pwr (st : ArbStage) (a : ArbState) : (s.setArb st a).pwr = s.pwr := rfl
@[simp] theorem State.setArb_rel (st : ArbStage) (a : ArbState) : (s.setArb st a).rel = s.rel := rfl
@[simp] theorem State.setArb_pending (st : ArbStage) (a : ArbState) : (s.setArb st a).pending = s.pending := rfl
@[simp] theorem State.rd_setArb (st : ArbStage) (a : ArbState) (r : Nat) : (s.setArb st a).rd r = s.rd r := rfl
@[simp] theorem State.byte_setArb (st : ArbStage) (a : ArbState) (r : Nat) : (s.setArb st a).byte r = s.byte r := rfl
@[simp] theorem State.cd_setArb (st : ArbStage) (a : ArbState) (r : Fin 40) : (s.setArb st a).cd r = s.cd r := rfl
@[simp] theorem State.md_setArb (st : ArbStage) (a : ArbState) (r : Fin 16) : (s.setArb st a).md r = s.md r := rfl

/-! ### setSec -/
@[simp] theorem State.setSec_now (x : SecState) : (s.setSec x).now = s.now := rfl
@[simp] theorem State.setSec_regs (x : SecState) : (s.setSec x).regs = s.regs := rfl
@[simp] theorem State.setSec_mem (x : SecState) : (s.setSec x).mem = s.mem := rfl
@[simp] theorem State.setSec_poison (x : SecState) : (s.setSec x).poison = s.poison := rfl
@[simp] theorem State.setSec_events (x : SecState) : (s.setSec x).events = s.events := rfl
@[simp] theorem State.setSec_resp (x : SecState) : (s.setSec x).resp = s.resp := rfl
@[simp] theorem State.setSec_free (x : SecState) : (s.setSec x).free = s.free := rfl
@[simp] theorem State.setSec_latch (x : SecState) : (s.setSec x).latch = s.latch := rfl
@[simp] theorem State.setSec_inReset (x : SecState) : (s.setSec x).inReset = s.inReset := rfl
@[simp] theorem State.setSec_hostMask (x : SecState) : (s.setSec x).hostMask = s.hostMask := rfl
@[simp] theorem State.setSec_cleared (x : SecState) : (s.setSec x).cleared = s.cleared := rfl
@[simp] theorem State.setSec_fabRetry (x : SecState) : (s.setSec x).fabRetry = s.fabRetry := rfl
@[simp] theorem State.setSec_packets (x : SecState) : (s.setSec x).packets = s.packets := rfl
@[simp] theorem State.setSec_arbs (x : SecState) : (s.setSec x).arbs = s.arbs := rfl
@[simp] theorem State.setSec_cds (x : SecState) : (s.setSec x).cds = s.cds := rfl
@[simp] theorem State.setSec_deadDies (x : SecState) : (s.setSec x).deadDies = s.deadDies := rfl
@[simp] theorem State.setSec_tables (x : SecState) : (s.setSec x).tables = s.tables := rfl
@[simp] theorem State.setSec_cads (x : SecState) : (s.setSec x).cads = s.cads := rfl
@[simp] theorem State.setSec_admitted (x : SecState) : (s.setSec x).admitted = s.admitted := rfl
@[simp] theorem State.setSec_lostSteps (x : SecState) : (s.setSec x).lostSteps = s.lostSteps := rfl
@[simp] theorem State.setSec_reqNo (x : SecState) : (s.setSec x).reqNo = s.reqNo := rfl
@[simp] theorem State.setSec_got (x : SecState) : (s.setSec x).got = s.got := rfl
@[simp] theorem State.setSec_busErrs (x : SecState) : (s.setSec x).busErrs = s.busErrs := rfl
@[simp] theorem State.setSec_mds (x : SecState) : (s.setSec x).mds = s.mds := rfl
@[simp] theorem State.setSec_moduleId (x : SecState) : (s.setSec x).moduleId = s.moduleId := rfl
@[simp] theorem State.setSec_jobs (x : SecState) : (s.setSec x).jobs = s.jobs := rfl
@[simp] theorem State.setSec_keySlots (x : SecState) : (s.setSec x).keySlots = s.keySlots := rfl
@[simp] theorem State.setSec_releases (x : SecState) : (s.setSec x).releases = s.releases := rfl
@[simp] theorem State.setSec_groups (x : SecState) : (s.setSec x).groups = s.groups := rfl
@[simp] theorem State.setSec_outbox (x : SecState) : (s.setSec x).outbox = s.outbox := rfl
@[simp] theorem State.setSec_torusLen (x : SecState) : (s.setSec x).torusLen = s.torusLen := rfl
@[simp] theorem State.setSec_ports (x : SecState) : (s.setSec x).ports = s.ports := rfl
@[simp] theorem State.setSec_arrived (x : SecState) : (s.setSec x).arrived = s.arrived := rfl
@[simp] theorem State.setSec_exch (x : SecState) : (s.setSec x).exch = s.exch := rfl
@[simp] theorem State.setSec_sites (x : SecState) : (s.setSec x).sites = s.sites := rfl
@[simp] theorem State.setSec_pairSecrets (x : SecState) : (s.setSec x).pairSecrets = s.pairSecrets := rfl
@[simp] theorem State.setSec_sec (x : SecState) : (s.setSec x).sec = x := rfl
@[simp] theorem State.setSec_host (x : SecState) : (s.setSec x).host = s.host := rfl
@[simp] theorem State.setSec_pwr (x : SecState) : (s.setSec x).pwr = s.pwr := rfl
@[simp] theorem State.setSec_rel (x : SecState) : (s.setSec x).rel = s.rel := rfl
@[simp] theorem State.setSec_pending (x : SecState) : (s.setSec x).pending = s.pending := rfl
@[simp] theorem State.rd_setSec (x : SecState) (r : Nat) : (s.setSec x).rd r = s.rd r := rfl
@[simp] theorem State.byte_setSec (x : SecState) (r : Nat) : (s.setSec x).byte r = s.byte r := rfl
@[simp] theorem State.cd_setSec (x : SecState) (r : Fin 40) : (s.setSec x).cd r = s.cd r := rfl
@[simp] theorem State.md_setSec (x : SecState) (r : Fin 16) : (s.setSec x).md r = s.md r := rfl

/-! ### setSpdm -/
@[simp] theorem State.setSpdm_now (x : Spdm) : (s.setSpdm x).now = s.now := rfl
@[simp] theorem State.setSpdm_regs (x : Spdm) : (s.setSpdm x).regs = s.regs := rfl
@[simp] theorem State.setSpdm_mem (x : Spdm) : (s.setSpdm x).mem = s.mem := rfl
@[simp] theorem State.setSpdm_poison (x : Spdm) : (s.setSpdm x).poison = s.poison := rfl
@[simp] theorem State.setSpdm_events (x : Spdm) : (s.setSpdm x).events = s.events := rfl
@[simp] theorem State.setSpdm_resp (x : Spdm) : (s.setSpdm x).resp = s.resp := rfl
@[simp] theorem State.setSpdm_free (x : Spdm) : (s.setSpdm x).free = s.free := rfl
@[simp] theorem State.setSpdm_latch (x : Spdm) : (s.setSpdm x).latch = s.latch := rfl
@[simp] theorem State.setSpdm_inReset (x : Spdm) : (s.setSpdm x).inReset = s.inReset := rfl
@[simp] theorem State.setSpdm_hostMask (x : Spdm) : (s.setSpdm x).hostMask = s.hostMask := rfl
@[simp] theorem State.setSpdm_cleared (x : Spdm) : (s.setSpdm x).cleared = s.cleared := rfl
@[simp] theorem State.setSpdm_fabRetry (x : Spdm) : (s.setSpdm x).fabRetry = s.fabRetry := rfl
@[simp] theorem State.setSpdm_packets (x : Spdm) : (s.setSpdm x).packets = s.packets := rfl
@[simp] theorem State.setSpdm_arbs (x : Spdm) : (s.setSpdm x).arbs = s.arbs := rfl
@[simp] theorem State.setSpdm_cds (x : Spdm) : (s.setSpdm x).cds = s.cds := rfl
@[simp] theorem State.setSpdm_deadDies (x : Spdm) : (s.setSpdm x).deadDies = s.deadDies := rfl
@[simp] theorem State.setSpdm_tables (x : Spdm) : (s.setSpdm x).tables = s.tables := rfl
@[simp] theorem State.setSpdm_cads (x : Spdm) : (s.setSpdm x).cads = s.cads := rfl
@[simp] theorem State.setSpdm_admitted (x : Spdm) : (s.setSpdm x).admitted = s.admitted := rfl
@[simp] theorem State.setSpdm_lostSteps (x : Spdm) : (s.setSpdm x).lostSteps = s.lostSteps := rfl
@[simp] theorem State.setSpdm_reqNo (x : Spdm) : (s.setSpdm x).reqNo = s.reqNo := rfl
@[simp] theorem State.setSpdm_got (x : Spdm) : (s.setSpdm x).got = s.got := rfl
@[simp] theorem State.setSpdm_busErrs (x : Spdm) : (s.setSpdm x).busErrs = s.busErrs := rfl
@[simp] theorem State.setSpdm_mds (x : Spdm) : (s.setSpdm x).mds = s.mds := rfl
@[simp] theorem State.setSpdm_moduleId (x : Spdm) : (s.setSpdm x).moduleId = s.moduleId := rfl
@[simp] theorem State.setSpdm_jobs (x : Spdm) : (s.setSpdm x).jobs = s.jobs := rfl
@[simp] theorem State.setSpdm_keySlots (x : Spdm) : (s.setSpdm x).keySlots = s.keySlots := rfl
@[simp] theorem State.setSpdm_releases (x : Spdm) : (s.setSpdm x).releases = s.releases := rfl
@[simp] theorem State.setSpdm_groups (x : Spdm) : (s.setSpdm x).groups = s.groups := rfl
@[simp] theorem State.setSpdm_outbox (x : Spdm) : (s.setSpdm x).outbox = s.outbox := rfl
@[simp] theorem State.setSpdm_torusLen (x : Spdm) : (s.setSpdm x).torusLen = s.torusLen := rfl
@[simp] theorem State.setSpdm_ports (x : Spdm) : (s.setSpdm x).ports = s.ports := rfl
@[simp] theorem State.setSpdm_arrived (x : Spdm) : (s.setSpdm x).arrived = s.arrived := rfl
@[simp] theorem State.setSpdm_exch (x : Spdm) : (s.setSpdm x).exch = s.exch := rfl
@[simp] theorem State.setSpdm_sites (x : Spdm) : (s.setSpdm x).sites = s.sites := rfl
@[simp] theorem State.setSpdm_pairSecrets (x : Spdm) : (s.setSpdm x).pairSecrets = s.pairSecrets := rfl
@[simp] theorem State.setSpdm_sec (x : Spdm) : (s.setSpdm x).sec = { s.sec with spdm := x } := rfl
@[simp] theorem State.setSpdm_host (x : Spdm) : (s.setSpdm x).host = s.host := rfl
@[simp] theorem State.setSpdm_pwr (x : Spdm) : (s.setSpdm x).pwr = s.pwr := rfl
@[simp] theorem State.setSpdm_rel (x : Spdm) : (s.setSpdm x).rel = s.rel := rfl
@[simp] theorem State.setSpdm_pending (x : Spdm) : (s.setSpdm x).pending = s.pending := rfl
@[simp] theorem State.rd_setSpdm (x : Spdm) (r : Nat) : (s.setSpdm x).rd r = s.rd r := rfl
@[simp] theorem State.byte_setSpdm (x : Spdm) (r : Nat) : (s.setSpdm x).byte r = s.byte r := rfl
@[simp] theorem State.cd_setSpdm (x : Spdm) (r : Fin 40) : (s.setSpdm x).cd r = s.cd r := rfl
@[simp] theorem State.md_setSpdm (x : Spdm) (r : Fin 16) : (s.setSpdm x).md r = s.md r := rfl

/-! ### setCanton -/
@[simp] theorem State.setCanton_now (k : Nat) (c : CantonSec) : (s.setCanton k c).now = s.now := rfl
@[simp] theorem State.setCanton_regs (k : Nat) (c : CantonSec) : (s.setCanton k c).regs = s.regs := rfl
@[simp] theorem State.setCanton_mem (k : Nat) (c : CantonSec) : (s.setCanton k c).mem = s.mem := rfl
@[simp] theorem State.setCanton_poison (k : Nat) (c : CantonSec) : (s.setCanton k c).poison = s.poison := rfl
@[simp] theorem State.setCanton_events (k : Nat) (c : CantonSec) : (s.setCanton k c).events = s.events := rfl
@[simp] theorem State.setCanton_resp (k : Nat) (c : CantonSec) : (s.setCanton k c).resp = s.resp := rfl
@[simp] theorem State.setCanton_free (k : Nat) (c : CantonSec) : (s.setCanton k c).free = s.free := rfl
@[simp] theorem State.setCanton_latch (k : Nat) (c : CantonSec) : (s.setCanton k c).latch = s.latch := rfl
@[simp] theorem State.setCanton_inReset (k : Nat) (c : CantonSec) : (s.setCanton k c).inReset = s.inReset := rfl
@[simp] theorem State.setCanton_hostMask (k : Nat) (c : CantonSec) : (s.setCanton k c).hostMask = s.hostMask := rfl
@[simp] theorem State.setCanton_cleared (k : Nat) (c : CantonSec) : (s.setCanton k c).cleared = s.cleared := rfl
@[simp] theorem State.setCanton_fabRetry (k : Nat) (c : CantonSec) : (s.setCanton k c).fabRetry = s.fabRetry := rfl
@[simp] theorem State.setCanton_packets (k : Nat) (c : CantonSec) : (s.setCanton k c).packets = s.packets := rfl
@[simp] theorem State.setCanton_arbs (k : Nat) (c : CantonSec) : (s.setCanton k c).arbs = s.arbs := rfl
@[simp] theorem State.setCanton_cds (k : Nat) (c : CantonSec) : (s.setCanton k c).cds = s.cds := rfl
@[simp] theorem State.setCanton_deadDies (k : Nat) (c : CantonSec) : (s.setCanton k c).deadDies = s.deadDies := rfl
@[simp] theorem State.setCanton_tables (k : Nat) (c : CantonSec) : (s.setCanton k c).tables = s.tables := rfl
@[simp] theorem State.setCanton_cads (k : Nat) (c : CantonSec) : (s.setCanton k c).cads = s.cads := rfl
@[simp] theorem State.setCanton_admitted (k : Nat) (c : CantonSec) : (s.setCanton k c).admitted = s.admitted := rfl
@[simp] theorem State.setCanton_lostSteps (k : Nat) (c : CantonSec) : (s.setCanton k c).lostSteps = s.lostSteps := rfl
@[simp] theorem State.setCanton_reqNo (k : Nat) (c : CantonSec) : (s.setCanton k c).reqNo = s.reqNo := rfl
@[simp] theorem State.setCanton_got (k : Nat) (c : CantonSec) : (s.setCanton k c).got = s.got := rfl
@[simp] theorem State.setCanton_busErrs (k : Nat) (c : CantonSec) : (s.setCanton k c).busErrs = s.busErrs := rfl
@[simp] theorem State.setCanton_mds (k : Nat) (c : CantonSec) : (s.setCanton k c).mds = s.mds := rfl
@[simp] theorem State.setCanton_moduleId (k : Nat) (c : CantonSec) : (s.setCanton k c).moduleId = s.moduleId := rfl
@[simp] theorem State.setCanton_jobs (k : Nat) (c : CantonSec) : (s.setCanton k c).jobs = s.jobs := rfl
@[simp] theorem State.setCanton_keySlots (k : Nat) (c : CantonSec) : (s.setCanton k c).keySlots = s.keySlots := rfl
@[simp] theorem State.setCanton_releases (k : Nat) (c : CantonSec) : (s.setCanton k c).releases = s.releases := rfl
@[simp] theorem State.setCanton_groups (k : Nat) (c : CantonSec) : (s.setCanton k c).groups = s.groups := rfl
@[simp] theorem State.setCanton_outbox (k : Nat) (c : CantonSec) : (s.setCanton k c).outbox = s.outbox := rfl
@[simp] theorem State.setCanton_torusLen (k : Nat) (c : CantonSec) : (s.setCanton k c).torusLen = s.torusLen := rfl
@[simp] theorem State.setCanton_ports (k : Nat) (c : CantonSec) : (s.setCanton k c).ports = s.ports := rfl
@[simp] theorem State.setCanton_arrived (k : Nat) (c : CantonSec) : (s.setCanton k c).arrived = s.arrived := rfl
@[simp] theorem State.setCanton_exch (k : Nat) (c : CantonSec) : (s.setCanton k c).exch = s.exch := rfl
@[simp] theorem State.setCanton_sites (k : Nat) (c : CantonSec) : (s.setCanton k c).sites = s.sites := rfl
@[simp] theorem State.setCanton_pairSecrets (k : Nat) (c : CantonSec) : (s.setCanton k c).pairSecrets = s.pairSecrets := rfl
@[simp] theorem State.setCanton_host (k : Nat) (c : CantonSec) : (s.setCanton k c).host = s.host := rfl
@[simp] theorem State.setCanton_pwr (k : Nat) (c : CantonSec) : (s.setCanton k c).pwr = s.pwr := rfl
@[simp] theorem State.setCanton_rel (k : Nat) (c : CantonSec) : (s.setCanton k c).rel = s.rel := rfl
@[simp] theorem State.setCanton_pending (k : Nat) (c : CantonSec) : (s.setCanton k c).pending = s.pending := rfl
@[simp] theorem State.rd_setCanton (k : Nat) (c : CantonSec) (r : Nat) : (s.setCanton k c).rd r = s.rd r := rfl
@[simp] theorem State.byte_setCanton (k : Nat) (c : CantonSec) (r : Nat) : (s.setCanton k c).byte r = s.byte r := rfl
@[simp] theorem State.cd_setCanton (k : Nat) (c : CantonSec) (r : Fin 40) : (s.setCanton k c).cd r = s.cd r := rfl
@[simp] theorem State.md_setCanton (k : Nat) (c : CantonSec) (r : Fin 16) : (s.setCanton k c).md r = s.md r := rfl

/-! ### setHost -/
@[simp] theorem State.setHost_now (h : HostState) : (s.setHost h).now = s.now := rfl
@[simp] theorem State.setHost_regs (h : HostState) : (s.setHost h).regs = s.regs := rfl
@[simp] theorem State.setHost_mem (h : HostState) : (s.setHost h).mem = s.mem := rfl
@[simp] theorem State.setHost_poison (h : HostState) : (s.setHost h).poison = s.poison := rfl
@[simp] theorem State.setHost_events (h : HostState) : (s.setHost h).events = s.events := rfl
@[simp] theorem State.setHost_resp (h : HostState) : (s.setHost h).resp = s.resp := rfl
@[simp] theorem State.setHost_free (h : HostState) : (s.setHost h).free = s.free := rfl
@[simp] theorem State.setHost_latch (h : HostState) : (s.setHost h).latch = s.latch := rfl
@[simp] theorem State.setHost_inReset (h : HostState) : (s.setHost h).inReset = s.inReset := rfl
@[simp] theorem State.setHost_hostMask (h : HostState) : (s.setHost h).hostMask = s.hostMask := rfl
@[simp] theorem State.setHost_cleared (h : HostState) : (s.setHost h).cleared = s.cleared := rfl
@[simp] theorem State.setHost_fabRetry (h : HostState) : (s.setHost h).fabRetry = s.fabRetry := rfl
@[simp] theorem State.setHost_packets (h : HostState) : (s.setHost h).packets = s.packets := rfl
@[simp] theorem State.setHost_arbs (h : HostState) : (s.setHost h).arbs = s.arbs := rfl
@[simp] theorem State.setHost_cds (h : HostState) : (s.setHost h).cds = s.cds := rfl
@[simp] theorem State.setHost_deadDies (h : HostState) : (s.setHost h).deadDies = s.deadDies := rfl
@[simp] theorem State.setHost_tables (h : HostState) : (s.setHost h).tables = s.tables := rfl
@[simp] theorem State.setHost_cads (h : HostState) : (s.setHost h).cads = s.cads := rfl
@[simp] theorem State.setHost_admitted (h : HostState) : (s.setHost h).admitted = s.admitted := rfl
@[simp] theorem State.setHost_lostSteps (h : HostState) : (s.setHost h).lostSteps = s.lostSteps := rfl
@[simp] theorem State.setHost_reqNo (h : HostState) : (s.setHost h).reqNo = s.reqNo := rfl
@[simp] theorem State.setHost_got (h : HostState) : (s.setHost h).got = s.got := rfl
@[simp] theorem State.setHost_busErrs (h : HostState) : (s.setHost h).busErrs = s.busErrs := rfl
@[simp] theorem State.setHost_mds (h : HostState) : (s.setHost h).mds = s.mds := rfl
@[simp] theorem State.setHost_moduleId (h : HostState) : (s.setHost h).moduleId = s.moduleId := rfl
@[simp] theorem State.setHost_jobs (h : HostState) : (s.setHost h).jobs = s.jobs := rfl
@[simp] theorem State.setHost_keySlots (h : HostState) : (s.setHost h).keySlots = s.keySlots := rfl
@[simp] theorem State.setHost_releases (h : HostState) : (s.setHost h).releases = s.releases := rfl
@[simp] theorem State.setHost_groups (h : HostState) : (s.setHost h).groups = s.groups := rfl
@[simp] theorem State.setHost_outbox (h : HostState) : (s.setHost h).outbox = s.outbox := rfl
@[simp] theorem State.setHost_torusLen (h : HostState) : (s.setHost h).torusLen = s.torusLen := rfl
@[simp] theorem State.setHost_ports (h : HostState) : (s.setHost h).ports = s.ports := rfl
@[simp] theorem State.setHost_arrived (h : HostState) : (s.setHost h).arrived = s.arrived := rfl
@[simp] theorem State.setHost_exch (h : HostState) : (s.setHost h).exch = s.exch := rfl
@[simp] theorem State.setHost_sites (h : HostState) : (s.setHost h).sites = s.sites := rfl
@[simp] theorem State.setHost_pairSecrets (h : HostState) : (s.setHost h).pairSecrets = s.pairSecrets := rfl
@[simp] theorem State.setHost_sec (h : HostState) : (s.setHost h).sec = s.sec := rfl
@[simp] theorem State.setHost_host (h : HostState) : (s.setHost h).host = h := rfl
@[simp] theorem State.setHost_pwr (h : HostState) : (s.setHost h).pwr = s.pwr := rfl
@[simp] theorem State.setHost_rel (h : HostState) : (s.setHost h).rel = s.rel := rfl
@[simp] theorem State.setHost_pending (h : HostState) : (s.setHost h).pending = s.pending := rfl
@[simp] theorem State.rd_setHost (h : HostState) (r : Nat) : (s.setHost h).rd r = s.rd r := rfl
@[simp] theorem State.byte_setHost (h : HostState) (r : Nat) : (s.setHost h).byte r = s.byte r := rfl
@[simp] theorem State.cd_setHost (h : HostState) (r : Fin 40) : (s.setHost h).cd r = s.cd r := rfl
@[simp] theorem State.md_setHost (h : HostState) (r : Fin 16) : (s.setHost h).md r = s.md r := rfl

/-! ### setPwr -/
@[simp] theorem State.setPwr_now (x : PowerState) : (s.setPwr x).now = s.now := rfl
@[simp] theorem State.setPwr_regs (x : PowerState) : (s.setPwr x).regs = s.regs := rfl
@[simp] theorem State.setPwr_mem (x : PowerState) : (s.setPwr x).mem = s.mem := rfl
@[simp] theorem State.setPwr_poison (x : PowerState) : (s.setPwr x).poison = s.poison := rfl
@[simp] theorem State.setPwr_events (x : PowerState) : (s.setPwr x).events = s.events := rfl
@[simp] theorem State.setPwr_resp (x : PowerState) : (s.setPwr x).resp = s.resp := rfl
@[simp] theorem State.setPwr_free (x : PowerState) : (s.setPwr x).free = s.free := rfl
@[simp] theorem State.setPwr_latch (x : PowerState) : (s.setPwr x).latch = s.latch := rfl
@[simp] theorem State.setPwr_inReset (x : PowerState) : (s.setPwr x).inReset = s.inReset := rfl
@[simp] theorem State.setPwr_hostMask (x : PowerState) : (s.setPwr x).hostMask = s.hostMask := rfl
@[simp] theorem State.setPwr_cleared (x : PowerState) : (s.setPwr x).cleared = s.cleared := rfl
@[simp] theorem State.setPwr_fabRetry (x : PowerState) : (s.setPwr x).fabRetry = s.fabRetry := rfl
@[simp] theorem State.setPwr_packets (x : PowerState) : (s.setPwr x).packets = s.packets := rfl
@[simp] theorem State.setPwr_arbs (x : PowerState) : (s.setPwr x).arbs = s.arbs := rfl
@[simp] theorem State.setPwr_cds (x : PowerState) : (s.setPwr x).cds = s.cds := rfl
@[simp] theorem State.setPwr_deadDies (x : PowerState) : (s.setPwr x).deadDies = s.deadDies := rfl
@[simp] theorem State.setPwr_tables (x : PowerState) : (s.setPwr x).tables = s.tables := rfl
@[simp] theorem State.setPwr_cads (x : PowerState) : (s.setPwr x).cads = s.cads := rfl
@[simp] theorem State.setPwr_admitted (x : PowerState) : (s.setPwr x).admitted = s.admitted := rfl
@[simp] theorem State.setPwr_lostSteps (x : PowerState) : (s.setPwr x).lostSteps = s.lostSteps := rfl
@[simp] theorem State.setPwr_reqNo (x : PowerState) : (s.setPwr x).reqNo = s.reqNo := rfl
@[simp] theorem State.setPwr_got (x : PowerState) : (s.setPwr x).got = s.got := rfl
@[simp] theorem State.setPwr_busErrs (x : PowerState) : (s.setPwr x).busErrs = s.busErrs := rfl
@[simp] theorem State.setPwr_mds (x : PowerState) : (s.setPwr x).mds = s.mds := rfl
@[simp] theorem State.setPwr_moduleId (x : PowerState) : (s.setPwr x).moduleId = s.moduleId := rfl
@[simp] theorem State.setPwr_jobs (x : PowerState) : (s.setPwr x).jobs = s.jobs := rfl
@[simp] theorem State.setPwr_keySlots (x : PowerState) : (s.setPwr x).keySlots = s.keySlots := rfl
@[simp] theorem State.setPwr_releases (x : PowerState) : (s.setPwr x).releases = s.releases := rfl
@[simp] theorem State.setPwr_groups (x : PowerState) : (s.setPwr x).groups = s.groups := rfl
@[simp] theorem State.setPwr_outbox (x : PowerState) : (s.setPwr x).outbox = s.outbox := rfl
@[simp] theorem State.setPwr_torusLen (x : PowerState) : (s.setPwr x).torusLen = s.torusLen := rfl
@[simp] theorem State.setPwr_ports (x : PowerState) : (s.setPwr x).ports = s.ports := rfl
@[simp] theorem State.setPwr_arrived (x : PowerState) : (s.setPwr x).arrived = s.arrived := rfl
@[simp] theorem State.setPwr_exch (x : PowerState) : (s.setPwr x).exch = s.exch := rfl
@[simp] theorem State.setPwr_sites (x : PowerState) : (s.setPwr x).sites = s.sites := rfl
@[simp] theorem State.setPwr_pairSecrets (x : PowerState) : (s.setPwr x).pairSecrets = s.pairSecrets := rfl
@[simp] theorem State.setPwr_sec (x : PowerState) : (s.setPwr x).sec = s.sec := rfl
@[simp] theorem State.setPwr_host (x : PowerState) : (s.setPwr x).host = s.host := rfl
@[simp] theorem State.setPwr_pwr (x : PowerState) : (s.setPwr x).pwr = x := rfl
@[simp] theorem State.setPwr_rel (x : PowerState) : (s.setPwr x).rel = s.rel := rfl
@[simp] theorem State.setPwr_pending (x : PowerState) : (s.setPwr x).pending = s.pending := rfl
@[simp] theorem State.rd_setPwr (x : PowerState) (r : Nat) : (s.setPwr x).rd r = s.rd r := rfl
@[simp] theorem State.byte_setPwr (x : PowerState) (r : Nat) : (s.setPwr x).byte r = s.byte r := rfl
@[simp] theorem State.cd_setPwr (x : PowerState) (r : Fin 40) : (s.setPwr x).cd r = s.cd r := rfl
@[simp] theorem State.md_setPwr (x : PowerState) (r : Fin 16) : (s.setPwr x).md r = s.md r := rfl

/-! ### setRel -/
@[simp] theorem State.setRel_now (x : RelState) : (s.setRel x).now = s.now := rfl
@[simp] theorem State.setRel_regs (x : RelState) : (s.setRel x).regs = s.regs := rfl
@[simp] theorem State.setRel_mem (x : RelState) : (s.setRel x).mem = s.mem := rfl
@[simp] theorem State.setRel_poison (x : RelState) : (s.setRel x).poison = s.poison := rfl
@[simp] theorem State.setRel_events (x : RelState) : (s.setRel x).events = s.events := rfl
@[simp] theorem State.setRel_resp (x : RelState) : (s.setRel x).resp = s.resp := rfl
@[simp] theorem State.setRel_free (x : RelState) : (s.setRel x).free = s.free := rfl
@[simp] theorem State.setRel_latch (x : RelState) : (s.setRel x).latch = s.latch := rfl
@[simp] theorem State.setRel_inReset (x : RelState) : (s.setRel x).inReset = s.inReset := rfl
@[simp] theorem State.setRel_hostMask (x : RelState) : (s.setRel x).hostMask = s.hostMask := rfl
@[simp] theorem State.setRel_cleared (x : RelState) : (s.setRel x).cleared = s.cleared := rfl
@[simp] theorem State.setRel_fabRetry (x : RelState) : (s.setRel x).fabRetry = s.fabRetry := rfl
@[simp] theorem State.setRel_packets (x : RelState) : (s.setRel x).packets = s.packets := rfl
@[simp] theorem State.setRel_arbs (x : RelState) : (s.setRel x).arbs = s.arbs := rfl
@[simp] theorem State.setRel_cds (x : RelState) : (s.setRel x).cds = s.cds := rfl
@[simp] theorem State.setRel_deadDies (x : RelState) : (s.setRel x).deadDies = s.deadDies := rfl
@[simp] theorem State.setRel_tables (x : RelState) : (s.setRel x).tables = s.tables := rfl
@[simp] theorem State.setRel_cads (x : RelState) : (s.setRel x).cads = s.cads := rfl
@[simp] theorem State.setRel_admitted (x : RelState) : (s.setRel x).admitted = s.admitted := rfl
@[simp] theorem State.setRel_lostSteps (x : RelState) : (s.setRel x).lostSteps = s.lostSteps := rfl
@[simp] theorem State.setRel_reqNo (x : RelState) : (s.setRel x).reqNo = s.reqNo := rfl
@[simp] theorem State.setRel_got (x : RelState) : (s.setRel x).got = s.got := rfl
@[simp] theorem State.setRel_busErrs (x : RelState) : (s.setRel x).busErrs = s.busErrs := rfl
@[simp] theorem State.setRel_mds (x : RelState) : (s.setRel x).mds = s.mds := rfl
@[simp] theorem State.setRel_moduleId (x : RelState) : (s.setRel x).moduleId = s.moduleId := rfl
@[simp] theorem State.setRel_jobs (x : RelState) : (s.setRel x).jobs = s.jobs := rfl
@[simp] theorem State.setRel_keySlots (x : RelState) : (s.setRel x).keySlots = s.keySlots := rfl
@[simp] theorem State.setRel_releases (x : RelState) : (s.setRel x).releases = s.releases := rfl
@[simp] theorem State.setRel_groups (x : RelState) : (s.setRel x).groups = s.groups := rfl
@[simp] theorem State.setRel_outbox (x : RelState) : (s.setRel x).outbox = s.outbox := rfl
@[simp] theorem State.setRel_torusLen (x : RelState) : (s.setRel x).torusLen = s.torusLen := rfl
@[simp] theorem State.setRel_ports (x : RelState) : (s.setRel x).ports = s.ports := rfl
@[simp] theorem State.setRel_arrived (x : RelState) : (s.setRel x).arrived = s.arrived := rfl
@[simp] theorem State.setRel_exch (x : RelState) : (s.setRel x).exch = s.exch := rfl
@[simp] theorem State.setRel_sites (x : RelState) : (s.setRel x).sites = s.sites := rfl
@[simp] theorem State.setRel_pairSecrets (x : RelState) : (s.setRel x).pairSecrets = s.pairSecrets := rfl
@[simp] theorem State.setRel_sec (x : RelState) : (s.setRel x).sec = s.sec := rfl
@[simp] theorem State.setRel_host (x : RelState) : (s.setRel x).host = s.host := rfl
@[simp] theorem State.setRel_pwr (x : RelState) : (s.setRel x).pwr = s.pwr := rfl
@[simp] theorem State.setRel_rel (x : RelState) : (s.setRel x).rel = x := rfl
@[simp] theorem State.setRel_pending (x : RelState) : (s.setRel x).pending = s.pending := rfl
@[simp] theorem State.rd_setRel (x : RelState) (r : Nat) : (s.setRel x).rd r = s.rd r := rfl
@[simp] theorem State.byte_setRel (x : RelState) (r : Nat) : (s.setRel x).byte r = s.byte r := rfl
@[simp] theorem State.cd_setRel (x : RelState) (r : Fin 40) : (s.setRel x).cd r = s.cd r := rfl
@[simp] theorem State.md_setRel (x : RelState) (r : Fin 16) : (s.setRel x).md r = s.md r := rfl

/-! ### bufPut -/
@[simp] theorem State.bufPut_now (off : Nat) (bs : List Byte) : (s.bufPut off bs).now = s.now := rfl
@[simp] theorem State.bufPut_regs (off : Nat) (bs : List Byte) : (s.bufPut off bs).regs = s.regs := rfl
@[simp] theorem State.bufPut_mem (off : Nat) (bs : List Byte) : (s.bufPut off bs).mem = s.mem := rfl
@[simp] theorem State.bufPut_poison (off : Nat) (bs : List Byte) : (s.bufPut off bs).poison = s.poison := rfl
@[simp] theorem State.bufPut_events (off : Nat) (bs : List Byte) : (s.bufPut off bs).events = s.events := rfl
@[simp] theorem State.bufPut_resp (off : Nat) (bs : List Byte) : (s.bufPut off bs).resp = s.resp := rfl
@[simp] theorem State.bufPut_free (off : Nat) (bs : List Byte) : (s.bufPut off bs).free = s.free := rfl
@[simp] theorem State.bufPut_latch (off : Nat) (bs : List Byte) : (s.bufPut off bs).latch = s.latch := rfl
@[simp] theorem State.bufPut_inReset (off : Nat) (bs : List Byte) : (s.bufPut off bs).inReset = s.inReset := rfl
@[simp] theorem State.bufPut_hostMask (off : Nat) (bs : List Byte) : (s.bufPut off bs).hostMask = s.hostMask := rfl
@[simp] theorem State.bufPut_cleared (off : Nat) (bs : List Byte) : (s.bufPut off bs).cleared = s.cleared := rfl
@[simp] theorem State.bufPut_fabRetry (off : Nat) (bs : List Byte) : (s.bufPut off bs).fabRetry = s.fabRetry := rfl
@[simp] theorem State.bufPut_packets (off : Nat) (bs : List Byte) : (s.bufPut off bs).packets = s.packets := rfl
@[simp] theorem State.bufPut_arbs (off : Nat) (bs : List Byte) : (s.bufPut off bs).arbs = s.arbs := rfl
@[simp] theorem State.bufPut_cds (off : Nat) (bs : List Byte) : (s.bufPut off bs).cds = s.cds := rfl
@[simp] theorem State.bufPut_deadDies (off : Nat) (bs : List Byte) : (s.bufPut off bs).deadDies = s.deadDies := rfl
@[simp] theorem State.bufPut_tables (off : Nat) (bs : List Byte) : (s.bufPut off bs).tables = s.tables := rfl
@[simp] theorem State.bufPut_cads (off : Nat) (bs : List Byte) : (s.bufPut off bs).cads = s.cads := rfl
@[simp] theorem State.bufPut_admitted (off : Nat) (bs : List Byte) : (s.bufPut off bs).admitted = s.admitted := rfl
@[simp] theorem State.bufPut_lostSteps (off : Nat) (bs : List Byte) : (s.bufPut off bs).lostSteps = s.lostSteps := rfl
@[simp] theorem State.bufPut_reqNo (off : Nat) (bs : List Byte) : (s.bufPut off bs).reqNo = s.reqNo := rfl
@[simp] theorem State.bufPut_got (off : Nat) (bs : List Byte) : (s.bufPut off bs).got = s.got := rfl
@[simp] theorem State.bufPut_busErrs (off : Nat) (bs : List Byte) : (s.bufPut off bs).busErrs = s.busErrs := rfl
@[simp] theorem State.bufPut_mds (off : Nat) (bs : List Byte) : (s.bufPut off bs).mds = s.mds := rfl
@[simp] theorem State.bufPut_moduleId (off : Nat) (bs : List Byte) : (s.bufPut off bs).moduleId = s.moduleId := rfl
@[simp] theorem State.bufPut_jobs (off : Nat) (bs : List Byte) : (s.bufPut off bs).jobs = s.jobs := rfl
@[simp] theorem State.bufPut_keySlots (off : Nat) (bs : List Byte) : (s.bufPut off bs).keySlots = s.keySlots := rfl
@[simp] theorem State.bufPut_releases (off : Nat) (bs : List Byte) : (s.bufPut off bs).releases = s.releases := rfl
@[simp] theorem State.bufPut_groups (off : Nat) (bs : List Byte) : (s.bufPut off bs).groups = s.groups := rfl
@[simp] theorem State.bufPut_outbox (off : Nat) (bs : List Byte) : (s.bufPut off bs).outbox = s.outbox := rfl
@[simp] theorem State.bufPut_torusLen (off : Nat) (bs : List Byte) : (s.bufPut off bs).torusLen = s.torusLen := rfl
@[simp] theorem State.bufPut_ports (off : Nat) (bs : List Byte) : (s.bufPut off bs).ports = s.ports := rfl
@[simp] theorem State.bufPut_arrived (off : Nat) (bs : List Byte) : (s.bufPut off bs).arrived = s.arrived := rfl
@[simp] theorem State.bufPut_exch (off : Nat) (bs : List Byte) : (s.bufPut off bs).exch = s.exch := rfl
@[simp] theorem State.bufPut_sites (off : Nat) (bs : List Byte) : (s.bufPut off bs).sites = s.sites := rfl
@[simp] theorem State.bufPut_pairSecrets (off : Nat) (bs : List Byte) : (s.bufPut off bs).pairSecrets = s.pairSecrets := rfl
@[simp] theorem State.bufPut_host (off : Nat) (bs : List Byte) : (s.bufPut off bs).host = s.host := rfl
@[simp] theorem State.bufPut_pwr (off : Nat) (bs : List Byte) : (s.bufPut off bs).pwr = s.pwr := rfl
@[simp] theorem State.bufPut_rel (off : Nat) (bs : List Byte) : (s.bufPut off bs).rel = s.rel := rfl
@[simp] theorem State.bufPut_pending (off : Nat) (bs : List Byte) : (s.bufPut off bs).pending = s.pending := rfl
@[simp] theorem State.rd_bufPut (off : Nat) (bs : List Byte) (r : Nat) : (s.bufPut off bs).rd r = s.rd r := rfl
@[simp] theorem State.byte_bufPut (off : Nat) (bs : List Byte) (r : Nat) : (s.bufPut off bs).byte r = s.byte r := rfl
@[simp] theorem State.cd_bufPut (off : Nat) (bs : List Byte) (r : Fin 40) : (s.bufPut off bs).cd r = s.cd r := rfl
@[simp] theorem State.md_bufPut (off : Nat) (bs : List Byte) (r : Fin 16) : (s.bufPut off bs).md r = s.md r := rfl

/-! ### flPut -/
@[simp] theorem State.flPut_now (a : Nat) (bs : List Byte) : (s.flPut a bs).now = s.now := rfl
@[simp] theorem State.flPut_regs (a : Nat) (bs : List Byte) : (s.flPut a bs).regs = s.regs := rfl
@[simp] theorem State.flPut_mem (a : Nat) (bs : List Byte) : (s.flPut a bs).mem = s.mem := rfl
@[simp] theorem State.flPut_poison (a : Nat) (bs : List Byte) : (s.flPut a bs).poison = s.poison := rfl
@[simp] theorem State.flPut_events (a : Nat) (bs : List Byte) : (s.flPut a bs).events = s.events := rfl
@[simp] theorem State.flPut_resp (a : Nat) (bs : List Byte) : (s.flPut a bs).resp = s.resp := rfl
@[simp] theorem State.flPut_free (a : Nat) (bs : List Byte) : (s.flPut a bs).free = s.free := rfl
@[simp] theorem State.flPut_latch (a : Nat) (bs : List Byte) : (s.flPut a bs).latch = s.latch := rfl
@[simp] theorem State.flPut_inReset (a : Nat) (bs : List Byte) : (s.flPut a bs).inReset = s.inReset := rfl
@[simp] theorem State.flPut_hostMask (a : Nat) (bs : List Byte) : (s.flPut a bs).hostMask = s.hostMask := rfl
@[simp] theorem State.flPut_cleared (a : Nat) (bs : List Byte) : (s.flPut a bs).cleared = s.cleared := rfl
@[simp] theorem State.flPut_fabRetry (a : Nat) (bs : List Byte) : (s.flPut a bs).fabRetry = s.fabRetry := rfl
@[simp] theorem State.flPut_packets (a : Nat) (bs : List Byte) : (s.flPut a bs).packets = s.packets := rfl
@[simp] theorem State.flPut_arbs (a : Nat) (bs : List Byte) : (s.flPut a bs).arbs = s.arbs := rfl
@[simp] theorem State.flPut_cds (a : Nat) (bs : List Byte) : (s.flPut a bs).cds = s.cds := rfl
@[simp] theorem State.flPut_deadDies (a : Nat) (bs : List Byte) : (s.flPut a bs).deadDies = s.deadDies := rfl
@[simp] theorem State.flPut_tables (a : Nat) (bs : List Byte) : (s.flPut a bs).tables = s.tables := rfl
@[simp] theorem State.flPut_cads (a : Nat) (bs : List Byte) : (s.flPut a bs).cads = s.cads := rfl
@[simp] theorem State.flPut_admitted (a : Nat) (bs : List Byte) : (s.flPut a bs).admitted = s.admitted := rfl
@[simp] theorem State.flPut_lostSteps (a : Nat) (bs : List Byte) : (s.flPut a bs).lostSteps = s.lostSteps := rfl
@[simp] theorem State.flPut_reqNo (a : Nat) (bs : List Byte) : (s.flPut a bs).reqNo = s.reqNo := rfl
@[simp] theorem State.flPut_got (a : Nat) (bs : List Byte) : (s.flPut a bs).got = s.got := rfl
@[simp] theorem State.flPut_busErrs (a : Nat) (bs : List Byte) : (s.flPut a bs).busErrs = s.busErrs := rfl
@[simp] theorem State.flPut_mds (a : Nat) (bs : List Byte) : (s.flPut a bs).mds = s.mds := rfl
@[simp] theorem State.flPut_moduleId (a : Nat) (bs : List Byte) : (s.flPut a bs).moduleId = s.moduleId := rfl
@[simp] theorem State.flPut_jobs (a : Nat) (bs : List Byte) : (s.flPut a bs).jobs = s.jobs := rfl
@[simp] theorem State.flPut_keySlots (a : Nat) (bs : List Byte) : (s.flPut a bs).keySlots = s.keySlots := rfl
@[simp] theorem State.flPut_releases (a : Nat) (bs : List Byte) : (s.flPut a bs).releases = s.releases := rfl
@[simp] theorem State.flPut_groups (a : Nat) (bs : List Byte) : (s.flPut a bs).groups = s.groups := rfl
@[simp] theorem State.flPut_outbox (a : Nat) (bs : List Byte) : (s.flPut a bs).outbox = s.outbox := rfl
@[simp] theorem State.flPut_torusLen (a : Nat) (bs : List Byte) : (s.flPut a bs).torusLen = s.torusLen := rfl
@[simp] theorem State.flPut_ports (a : Nat) (bs : List Byte) : (s.flPut a bs).ports = s.ports := rfl
@[simp] theorem State.flPut_arrived (a : Nat) (bs : List Byte) : (s.flPut a bs).arrived = s.arrived := rfl
@[simp] theorem State.flPut_exch (a : Nat) (bs : List Byte) : (s.flPut a bs).exch = s.exch := rfl
@[simp] theorem State.flPut_sites (a : Nat) (bs : List Byte) : (s.flPut a bs).sites = s.sites := rfl
@[simp] theorem State.flPut_pairSecrets (a : Nat) (bs : List Byte) : (s.flPut a bs).pairSecrets = s.pairSecrets := rfl
@[simp] theorem State.flPut_sec (a : Nat) (bs : List Byte) : (s.flPut a bs).sec = s.sec := rfl
@[simp] theorem State.flPut_host (a : Nat) (bs : List Byte) : (s.flPut a bs).host = s.host := rfl
@[simp] theorem State.flPut_rel (a : Nat) (bs : List Byte) : (s.flPut a bs).rel = s.rel := rfl
@[simp] theorem State.flPut_pending (a : Nat) (bs : List Byte) : (s.flPut a bs).pending = s.pending := rfl
@[simp] theorem State.rd_flPut (a : Nat) (bs : List Byte) (r : Nat) : (s.flPut a bs).rd r = s.rd r := rfl
@[simp] theorem State.byte_flPut (a : Nat) (bs : List Byte) (r : Nat) : (s.flPut a bs).byte r = s.byte r := rfl
@[simp] theorem State.cd_flPut (a : Nat) (bs : List Byte) (r : Fin 40) : (s.flPut a bs).cd r = s.cd r := rfl
@[simp] theorem State.md_flPut (a : Nat) (bs : List Byte) (r : Fin 16) : (s.flPut a bs).md r = s.md r := rfl

/-! ### newReq -/
@[simp] theorem State.newReq_now : s.newReq.now = s.now := rfl
@[simp] theorem State.newReq_regs : s.newReq.regs = s.regs := rfl
@[simp] theorem State.newReq_mem : s.newReq.mem = s.mem := rfl
@[simp] theorem State.newReq_poison : s.newReq.poison = s.poison := rfl
@[simp] theorem State.newReq_events : s.newReq.events = s.events := rfl
@[simp] theorem State.newReq_resp : s.newReq.resp = s.resp := rfl
@[simp] theorem State.newReq_free : s.newReq.free = s.free := rfl
@[simp] theorem State.newReq_latch : s.newReq.latch = s.latch := rfl
@[simp] theorem State.newReq_inReset : s.newReq.inReset = s.inReset := rfl
@[simp] theorem State.newReq_hostMask : s.newReq.hostMask = s.hostMask := rfl
@[simp] theorem State.newReq_cleared : s.newReq.cleared = s.cleared := rfl
@[simp] theorem State.newReq_fabRetry : s.newReq.fabRetry = s.fabRetry := rfl
@[simp] theorem State.newReq_packets : s.newReq.packets = s.packets := rfl
@[simp] theorem State.newReq_arbs : s.newReq.arbs = s.arbs := rfl
@[simp] theorem State.newReq_cds : s.newReq.cds = s.cds := rfl
@[simp] theorem State.newReq_deadDies : s.newReq.deadDies = s.deadDies := rfl
@[simp] theorem State.newReq_tables : s.newReq.tables = s.tables := rfl
@[simp] theorem State.newReq_cads : s.newReq.cads = s.cads := rfl
@[simp] theorem State.newReq_admitted : s.newReq.admitted = s.admitted := rfl
@[simp] theorem State.newReq_lostSteps : s.newReq.lostSteps = s.lostSteps := rfl
@[simp] theorem State.newReq_reqNo : s.newReq.reqNo = s.reqNo + 1 := rfl
@[simp] theorem State.newReq_got : s.newReq.got = s.got := rfl
@[simp] theorem State.newReq_busErrs : s.newReq.busErrs = s.busErrs := rfl
@[simp] theorem State.newReq_mds : s.newReq.mds = s.mds := rfl
@[simp] theorem State.newReq_moduleId : s.newReq.moduleId = s.moduleId := rfl
@[simp] theorem State.newReq_jobs : s.newReq.jobs = s.jobs := rfl
@[simp] theorem State.newReq_keySlots : s.newReq.keySlots = s.keySlots := rfl
@[simp] theorem State.newReq_releases : s.newReq.releases = s.releases := rfl
@[simp] theorem State.newReq_groups : s.newReq.groups = s.groups := rfl
@[simp] theorem State.newReq_outbox : s.newReq.outbox = s.outbox := rfl
@[simp] theorem State.newReq_torusLen : s.newReq.torusLen = s.torusLen := rfl
@[simp] theorem State.newReq_ports : s.newReq.ports = s.ports := rfl
@[simp] theorem State.newReq_arrived : s.newReq.arrived = s.arrived := rfl
@[simp] theorem State.newReq_exch : s.newReq.exch = s.exch := rfl
@[simp] theorem State.newReq_sites : s.newReq.sites = s.sites := rfl
@[simp] theorem State.newReq_pairSecrets : s.newReq.pairSecrets = s.pairSecrets := rfl
@[simp] theorem State.newReq_sec : s.newReq.sec = s.sec := rfl
@[simp] theorem State.newReq_host : s.newReq.host = s.host := rfl
@[simp] theorem State.newReq_pwr : s.newReq.pwr = s.pwr := rfl
@[simp] theorem State.newReq_rel : s.newReq.rel = s.rel := rfl
@[simp] theorem State.newReq_pending : s.newReq.pending = s.pending := rfl
@[simp] theorem State.rd_newReq (r : Nat) : s.newReq.rd r = s.rd r := rfl
@[simp] theorem State.byte_newReq (r : Nat) : s.newReq.byte r = s.byte r := rfl
@[simp] theorem State.cd_newReq (r : Fin 40) : s.newReq.cd r = s.cd r := rfl
@[simp] theorem State.md_newReq (r : Fin 16) : s.newReq.md r = s.md r := rfl

/-! ### dropErrs -/
@[simp] theorem State.dropErrs_now (id : Nat) : (s.dropErrs id).now = s.now := rfl
@[simp] theorem State.dropErrs_regs (id : Nat) : (s.dropErrs id).regs = s.regs := rfl
@[simp] theorem State.dropErrs_mem (id : Nat) : (s.dropErrs id).mem = s.mem := rfl
@[simp] theorem State.dropErrs_poison (id : Nat) : (s.dropErrs id).poison = s.poison := rfl
@[simp] theorem State.dropErrs_events (id : Nat) : (s.dropErrs id).events = s.events := rfl
@[simp] theorem State.dropErrs_resp (id : Nat) : (s.dropErrs id).resp = s.resp := rfl
@[simp] theorem State.dropErrs_free (id : Nat) : (s.dropErrs id).free = s.free := rfl
@[simp] theorem State.dropErrs_latch (id : Nat) : (s.dropErrs id).latch = s.latch := rfl
@[simp] theorem State.dropErrs_inReset (id : Nat) : (s.dropErrs id).inReset = s.inReset := rfl
@[simp] theorem State.dropErrs_hostMask (id : Nat) : (s.dropErrs id).hostMask = s.hostMask := rfl
@[simp] theorem State.dropErrs_cleared (id : Nat) : (s.dropErrs id).cleared = s.cleared := rfl
@[simp] theorem State.dropErrs_fabRetry (id : Nat) : (s.dropErrs id).fabRetry = s.fabRetry := rfl
@[simp] theorem State.dropErrs_packets (id : Nat) : (s.dropErrs id).packets = s.packets := rfl
@[simp] theorem State.dropErrs_arbs (id : Nat) : (s.dropErrs id).arbs = s.arbs := rfl
@[simp] theorem State.dropErrs_cds (id : Nat) : (s.dropErrs id).cds = s.cds := rfl
@[simp] theorem State.dropErrs_deadDies (id : Nat) : (s.dropErrs id).deadDies = s.deadDies := rfl
@[simp] theorem State.dropErrs_tables (id : Nat) : (s.dropErrs id).tables = s.tables := rfl
@[simp] theorem State.dropErrs_cads (id : Nat) : (s.dropErrs id).cads = s.cads := rfl
@[simp] theorem State.dropErrs_admitted (id : Nat) : (s.dropErrs id).admitted = s.admitted := rfl
@[simp] theorem State.dropErrs_lostSteps (id : Nat) : (s.dropErrs id).lostSteps = s.lostSteps := rfl
@[simp] theorem State.dropErrs_reqNo (id : Nat) : (s.dropErrs id).reqNo = s.reqNo := rfl
@[simp] theorem State.dropErrs_got (id : Nat) : (s.dropErrs id).got = s.got := rfl
@[simp] theorem State.dropErrs_busErrs (id : Nat) : (s.dropErrs id).busErrs = s.busErrs.filter (fun e => e.2.2 != id) := rfl
@[simp] theorem State.dropErrs_mds (id : Nat) : (s.dropErrs id).mds = s.mds := rfl
@[simp] theorem State.dropErrs_moduleId (id : Nat) : (s.dropErrs id).moduleId = s.moduleId := rfl
@[simp] theorem State.dropErrs_jobs (id : Nat) : (s.dropErrs id).jobs = s.jobs := rfl
@[simp] theorem State.dropErrs_keySlots (id : Nat) : (s.dropErrs id).keySlots = s.keySlots := rfl
@[simp] theorem State.dropErrs_releases (id : Nat) : (s.dropErrs id).releases = s.releases := rfl
@[simp] theorem State.dropErrs_groups (id : Nat) : (s.dropErrs id).groups = s.groups := rfl
@[simp] theorem State.dropErrs_outbox (id : Nat) : (s.dropErrs id).outbox = s.outbox := rfl
@[simp] theorem State.dropErrs_torusLen (id : Nat) : (s.dropErrs id).torusLen = s.torusLen := rfl
@[simp] theorem State.dropErrs_ports (id : Nat) : (s.dropErrs id).ports = s.ports := rfl
@[simp] theorem State.dropErrs_arrived (id : Nat) : (s.dropErrs id).arrived = s.arrived := rfl
@[simp] theorem State.dropErrs_exch (id : Nat) : (s.dropErrs id).exch = s.exch := rfl
@[simp] theorem State.dropErrs_sites (id : Nat) : (s.dropErrs id).sites = s.sites := rfl
@[simp] theorem State.dropErrs_pairSecrets (id : Nat) : (s.dropErrs id).pairSecrets = s.pairSecrets := rfl
@[simp] theorem State.dropErrs_sec (id : Nat) : (s.dropErrs id).sec = s.sec := rfl
@[simp] theorem State.dropErrs_host (id : Nat) : (s.dropErrs id).host = s.host := rfl
@[simp] theorem State.dropErrs_pwr (id : Nat) : (s.dropErrs id).pwr = s.pwr := rfl
@[simp] theorem State.dropErrs_rel (id : Nat) : (s.dropErrs id).rel = s.rel := rfl
@[simp] theorem State.dropErrs_pending (id : Nat) : (s.dropErrs id).pending = s.pending := rfl
@[simp] theorem State.rd_dropErrs (id : Nat) (r : Nat) : (s.dropErrs id).rd r = s.rd r := rfl
@[simp] theorem State.byte_dropErrs (id : Nat) (r : Nat) : (s.dropErrs id).byte r = s.byte r := rfl
@[simp] theorem State.cd_dropErrs (id : Nat) (r : Fin 40) : (s.dropErrs id).cd r = s.cd r := rfl
@[simp] theorem State.md_dropErrs (id : Nat) (r : Fin 16) : (s.dropErrs id).md r = s.md r := rfl

/-! ### fresh -/
@[simp] theorem State.fresh_now (w : Nat) : (s.fresh w).2.now = s.now := rfl
@[simp] theorem State.fresh_regs (w : Nat) : (s.fresh w).2.regs = s.regs := rfl
@[simp] theorem State.fresh_mem (w : Nat) : (s.fresh w).2.mem = s.mem := rfl
@[simp] theorem State.fresh_poison (w : Nat) : (s.fresh w).2.poison = s.poison := rfl
@[simp] theorem State.fresh_events (w : Nat) : (s.fresh w).2.events = s.events := rfl
@[simp] theorem State.fresh_resp (w : Nat) : (s.fresh w).2.resp = s.resp := rfl
@[simp] theorem State.fresh_free (w : Nat) : (s.fresh w).2.free = s.free + 1 := rfl
@[simp] theorem State.fresh_latch (w : Nat) : (s.fresh w).2.latch = s.latch := rfl
@[simp] theorem State.fresh_inReset (w : Nat) : (s.fresh w).2.inReset = s.inReset := rfl
@[simp] theorem State.fresh_hostMask (w : Nat) : (s.fresh w).2.hostMask = s.hostMask := rfl
@[simp] theorem State.fresh_cleared (w : Nat) : (s.fresh w).2.cleared = s.cleared := rfl
@[simp] theorem State.fresh_fabRetry (w : Nat) : (s.fresh w).2.fabRetry = s.fabRetry := rfl
@[simp] theorem State.fresh_packets (w : Nat) : (s.fresh w).2.packets = s.packets := rfl
@[simp] theorem State.fresh_arbs (w : Nat) : (s.fresh w).2.arbs = s.arbs := rfl
@[simp] theorem State.fresh_cds (w : Nat) : (s.fresh w).2.cds = s.cds := rfl
@[simp] theorem State.fresh_deadDies (w : Nat) : (s.fresh w).2.deadDies = s.deadDies := rfl
@[simp] theorem State.fresh_tables (w : Nat) : (s.fresh w).2.tables = s.tables := rfl
@[simp] theorem State.fresh_cads (w : Nat) : (s.fresh w).2.cads = s.cads := rfl
@[simp] theorem State.fresh_admitted (w : Nat) : (s.fresh w).2.admitted = s.admitted := rfl
@[simp] theorem State.fresh_lostSteps (w : Nat) : (s.fresh w).2.lostSteps = s.lostSteps := rfl
@[simp] theorem State.fresh_reqNo (w : Nat) : (s.fresh w).2.reqNo = s.reqNo := rfl
@[simp] theorem State.fresh_got (w : Nat) : (s.fresh w).2.got = s.got := rfl
@[simp] theorem State.fresh_busErrs (w : Nat) : (s.fresh w).2.busErrs = s.busErrs := rfl
@[simp] theorem State.fresh_mds (w : Nat) : (s.fresh w).2.mds = s.mds := rfl
@[simp] theorem State.fresh_moduleId (w : Nat) : (s.fresh w).2.moduleId = s.moduleId := rfl
@[simp] theorem State.fresh_jobs (w : Nat) : (s.fresh w).2.jobs = s.jobs := rfl
@[simp] theorem State.fresh_keySlots (w : Nat) : (s.fresh w).2.keySlots = s.keySlots := rfl
@[simp] theorem State.fresh_releases (w : Nat) : (s.fresh w).2.releases = s.releases := rfl
@[simp] theorem State.fresh_groups (w : Nat) : (s.fresh w).2.groups = s.groups := rfl
@[simp] theorem State.fresh_outbox (w : Nat) : (s.fresh w).2.outbox = s.outbox := rfl
@[simp] theorem State.fresh_torusLen (w : Nat) : (s.fresh w).2.torusLen = s.torusLen := rfl
@[simp] theorem State.fresh_ports (w : Nat) : (s.fresh w).2.ports = s.ports := rfl
@[simp] theorem State.fresh_arrived (w : Nat) : (s.fresh w).2.arrived = s.arrived := rfl
@[simp] theorem State.fresh_exch (w : Nat) : (s.fresh w).2.exch = s.exch := rfl
@[simp] theorem State.fresh_sites (w : Nat) : (s.fresh w).2.sites = s.sites := rfl
@[simp] theorem State.fresh_pairSecrets (w : Nat) : (s.fresh w).2.pairSecrets = s.pairSecrets := rfl
@[simp] theorem State.fresh_sec (w : Nat) : (s.fresh w).2.sec = s.sec := rfl
@[simp] theorem State.fresh_host (w : Nat) : (s.fresh w).2.host = s.host := rfl
@[simp] theorem State.fresh_pwr (w : Nat) : (s.fresh w).2.pwr = s.pwr := rfl
@[simp] theorem State.fresh_rel (w : Nat) : (s.fresh w).2.rel = s.rel := rfl
@[simp] theorem State.fresh_pending (w : Nat) : (s.fresh w).2.pending = s.pending := rfl
@[simp] theorem State.rd_fresh (w : Nat) (r : Nat) : (s.fresh w).2.rd r = s.rd r := rfl
@[simp] theorem State.byte_fresh (w : Nat) (r : Nat) : (s.fresh w).2.byte r = s.byte r := rfl
@[simp] theorem State.cd_fresh (w : Nat) (r : Fin 40) : (s.fresh w).2.cd r = s.cd r := rfl
@[simp] theorem State.md_fresh (w : Nat) (r : Fin 16) : (s.fresh w).2.md r = s.md r := rfl

/-! ### Dies -/
@[simp] theorem State.cd_setCd_self (d : Fin 40) (c : CDie) : (s.setCd d c).cd d = c := by simp [State.cd, State.setCd]
theorem State.cd_setCd_of_ne {d e : Fin 40} (c : CDie) (h : e ≠ d) : (s.setCd d c).cd e = s.cd e := by
  have : d.val ≠ e.val := fun h' => h (Fin.ext h'.symm)
  simp [State.cd, State.setCd, this]
@[simp] theorem State.md_setMd_self (m : Fin 16) (c : MDie) : (s.setMd m c).md m = c := by simp [State.md, State.setMd]
theorem State.md_setMd_of_ne {m e : Fin 16} (c : MDie) (h : e ≠ m) : (s.setMd m c).md e = s.md e := by
  have : m.val ≠ e.val := fun h' => h (Fin.ext h'.symm)
  simp [State.md, State.setMd, this]

end Sys2Proof.Machine
end

