-- ==== Sys2Proof/Laws/Memory.lean ====
section
/-! SUPPORT. The laws of memory: a read after a write, every other byte left alone, the canonical form kept by every
memory operation. -/
namespace Sys2Proof.Machine

theorem memPut_get (m : List Host.Cell) (a : Nat) (bs : List Byte) (b : Nat) :
    Sparse.get memDefault (memPut m a bs) b =
      if a ≤ b ∧ b < a + bs.length then bs.getD (b - a) 0 else Sparse.get memDefault m b := by
  induction bs generalizing m a with
  | nil => simp [memPut]
  | cons x bs ih =>
    rw [memPut, ih, Sparse.get_set]
    by_cases h1 : b = a
    · subst h1; simp
    · by_cases h2 : a + 1 ≤ b ∧ b < a + 1 + bs.length
      · have h3 : a ≤ b ∧ b < a + (x :: bs).length := by simp; omega
        have h4 : b - a = (b - (a + 1)) + 1 := by omega
        rw [if_pos h2, if_pos h3, h4]; simp
      · have h3 : ¬ (a ≤ b ∧ b < a + (x :: bs).length) := by simp; omega
        simp only [if_neg h2, if_neg h3, if_neg h1]

/-- A byte read after bytes were written. -/
theorem State.byte_putBytes (s : State) (a : Nat) (bs : List Byte) (b : Nat) :
    (s.putBytes a bs).byte b = if a ≤ b ∧ b < a + bs.length then bs.getD (b - a) 0 else s.byte b :=
  memPut_get s.mem a bs b

/-- A write leaves every byte outside the written range alone. -/
theorem State.byte_putBytes_of_outside (s : State) (a : Nat) (bs : List Byte) (b : Nat) (h : b < a ∨ a + bs.length ≤ b) :
    (s.putBytes a bs).byte b = s.byte b := by
  rw [State.byte_putBytes, if_neg (by omega)]

@[simp] theorem State.byte_coverLines (s : State) (a n b : Nat) : (s.coverLines a n).byte b = s.byte b := rfl

theorem State.byte_storeWrite (s : State) (a : Nat) (bs : List Byte) (b : Nat) :
    (s.storeWrite a bs).byte b = if a ≤ b ∧ b < a + bs.length then bs.getD (b - a) 0 else s.byte b :=
  memPut_get s.mem a bs b

theorem Sparse_get_filter_key {α : Type} (d : Nat → α) (m : Sparse α) (p : Nat → Bool) (b : Nat) :
    Sparse.get d (m.filter (fun c => p c.1)) b = if p b then Sparse.get d m b else d b := by
  induction m with
  | nil => simp
  | cons c m ih =>
    obtain ⟨k, x⟩ := c
    by_cases hp : p k
    · simp only [List.filter, hp, Sparse.get, ih]
      by_cases hb : b = k
      · subst hb; simp [hp]
      · simp [hb]
    · simp only [List.filter, hp, ih, Sparse.get]
      by_cases hb : b = k
      · subst hb; simp [hp]
      · simp [hb]

/-- A zeroised range reads 0, every byte outside it as before. -/
theorem State.byte_zeroRange (s : State) (a n b : Nat) :
    (s.zeroRange a n).byte b = if a ≤ b ∧ b < a + n then 0 else s.byte b := by
  have h := Sparse_get_filter_key memDefault s.mem (fun k => !(decide (a ≤ k) && decide (k < a + n))) b
  have e : (s.zeroRange a n).byte b =
      Sparse.get memDefault (s.mem.filter (fun c => !(decide (a ≤ c.1) && decide (c.1 < a + n)))) b := rfl
  rw [e, h]
  by_cases h1 : a ≤ b ∧ b < a + n
  · simp [h1, memDefault]
  · rw [if_neg h1, if_pos (by simp; omega)]; rfl

theorem memPut_wf (bs : List Byte) (m : List Host.Cell) (a : Nat) (h : Memory.wf m = true) :
    Memory.wf (memPut m a bs) = true := by
  induction bs generalizing m a with
  | nil => exact h
  | cons x bs ih => exact ih _ _ (Sparse.wf_set memDefault a x h)

theorem State.putBytes_wf (s : State) (a : Nat) (bs : List Byte) (h : Memory.wf s.mem = true) :
    Memory.wf (s.putBytes a bs).mem = true := memPut_wf bs s.mem a h

theorem State.storeWrite_wf (s : State) (a : Nat) (bs : List Byte) (h : Memory.wf s.mem = true) :
    Memory.wf (s.storeWrite a bs).mem = true := memPut_wf bs s.mem a h

theorem State.putNum_wf (s : State) (a n v : Nat) (h : Memory.wf s.mem = true) :
    Memory.wf (s.putNum a n v).mem = true := memPut_wf _ s.mem a h

theorem State.zeroRange_wf (s : State) (a n : Nat) (h : Memory.wf s.mem = true) :
    Memory.wf (s.zeroRange a n).mem = true :=
  Sparse.wf_filter memDefault _ h

/-- Reading n bytes gives n bytes. -/
@[simp] theorem State.length_bytes (s : State) (a n : Nat) : (s.bytes a n).length = n := by
  induction n generalizing a with
  | zero => rfl
  | succ n ih => simp [State.bytes, ih]

theorem leBytes_length (k n : Nat) : (leBytes k n).length = k := by
  induction k generalizing n with
  | zero => rfl
  | succ k ih => simp [leBytes, ih]

/-- Two states with one memory read alike. -/
theorem State.byte_congr {s t : State} (h : s.mem = t.mem) (a : Nat) : s.byte a = t.byte a := by
  simp [State.byte, h]

/-- The canonical form makes equal memories equal data. -/
theorem Memory.ext {m n : List Host.Cell} (hm : Memory.wf m = true) (hn : Memory.wf n = true)
    (h : ∀ a, Sparse.get memDefault m a = Sparse.get memDefault n a) : m = n := Sparse.ext memDefault hm hn h

end Sys2Proof.Machine
end

