-- ==== Sys2Proof/Laws/Registers.lean ====
section
/-! SUPPORT. The laws of registers and fields: what a read gives after a write of the same or of another register, of the
same or of a disjoint field. -/
namespace Sys2Proof.Machine

/-- A register read after a write. -/
@[simp] theorem State.rd_wr (s : State) (a b : Nat) (x : W32) : (s.wr a x).rd b = if b = a then x else s.rd b :=
  Sparse.get_set regReset s.regs a b x

theorem State.rd_wr_self (s : State) (a : Nat) (x : W32) : (s.wr a x).rd a = x := by simp

theorem State.rd_wr_of_ne (s : State) {a b : Nat} (x : W32) (h : b ≠ a) : (s.wr a x).rd b = s.rd b := by simp [h]

@[simp] theorem State.rd_put (s : State) (a b : Nat) (f : Fld) (n : Nat) :
    (s.put a f n).rd b = if b = a then fldSet (s.rd a) f n else s.rd b := by simp [State.put]

theorem State.rd_put_of_ne (s : State) {a b : Nat} (f : Fld) (n : Nat) (h : b ≠ a) : (s.put a f n).rd b = s.rd b := by
  simp [h]

/-! ### Bits of a field -/

theorem testBit_bitsN (n hi lo i : Nat) : (bitsN n hi lo).testBit i = (decide (i < hi + 1 - lo) && n.testBit (lo + i)) := by
  simp [bitsN, Nat.testBit_mod_two_pow, Nat.testBit_shiftRight]

theorem fldMask_testBit (f : Fld) (h : f.2 ≤ f.1) (i : Nat) :
    (2 ^ (f.1 + 1) - 2 ^ f.2).testBit i = (decide (f.2 ≤ i) && decide (i ≤ f.1)) := by
  have e : 2 ^ (f.1 + 1) - 2 ^ f.2 = (2 ^ (f.1 + 1 - f.2) - 1) <<< f.2 := by
    rw [Nat.shiftLeft_eq, Nat.sub_mul, ← Nat.pow_add]
    congr 2 <;> omega
  rw [e, Nat.testBit_shiftLeft, Nat.testBit_two_pow_sub_one]
  by_cases h1 : f.2 ≤ i
  · have : (i - f.2 < f.1 + 1 - f.2) ↔ i ≤ f.1 := by omega
    simp [h1, this]
  · simp [h1]

theorem fldMask_getLsbD (f : Fld) (h : f.2 ≤ f.1) (i : Nat) (hi : i < 32) :
    (fldMask f).getLsbD i = (decide (f.2 ≤ i) && decide (i ≤ f.1)) := by
  simp only [fldMask, BitVec.getLsbD_ofNat, hi, decide_true, Bool.true_and]
  exact fldMask_testBit f h i

theorem fldSet_getLsbD (x : W32) (f : Fld) (n : Nat) (h : f.2 ≤ f.1) (i : Nat) (hi : i < 32) :
    (fldSet x f n).getLsbD i = if f.2 ≤ i ∧ i ≤ f.1 then n.testBit (i - f.2) else x.getLsbD i := by
  simp only [fldSet, BitVec.getLsbD_or, BitVec.getLsbD_and, BitVec.getLsbD_not, fldMask_getLsbD f h i hi,
    BitVec.getLsbD_ofNat, hi, decide_true, Bool.true_and]
  by_cases h1 : f.2 ≤ i
  · by_cases h2 : i ≤ f.1
    · simp [h1, h2, Nat.testBit_mul_two_pow]
    · simp [h1, h2]
  · simp [h1]

theorem fldOf_testBit (x : W32) (f : Fld) (i : Nat) :
    (fldOf x f).testBit i = (decide (i < f.1 + 1 - f.2) && x.getLsbD (f.2 + i)) := by
  simp [fldOf, testBit_bitsN, BitVec.getLsbD]

/-- A field read after the field was set: the value in the bits it has. -/
theorem fldOf_fldSet (x : W32) (f : Fld) (n : Nat) (h : f.2 ≤ f.1) (h32 : f.1 < 32) :
    fldOf (fldSet x f n) f = n % 2 ^ (f.1 + 1 - f.2) := by
  apply Nat.eq_of_testBit_eq
  intro i
  rw [fldOf_testBit, Nat.testBit_mod_two_pow]
  by_cases hi : i < f.1 + 1 - f.2
  · rw [fldSet_getLsbD x f n h _ (by omega)]
    have h1 : f.2 ≤ f.2 + i ∧ f.2 + i ≤ f.1 := by omega
    simp [hi, h1]
  · simp [hi]

/-- A field read after a disjoint field was set: unchanged. -/
theorem fldOf_fldSet_of_disjoint (x : W32) (f g : Fld) (n : Nat) (hf : f.2 ≤ f.1) (hg : g.1 < 32)
    (h : f.1 < g.2 ∨ g.1 < f.2) : fldOf (fldSet x f n) g = fldOf x g := by
  apply Nat.eq_of_testBit_eq
  intro i
  rw [fldOf_testBit, fldOf_testBit]
  by_cases hi : i < g.1 + 1 - g.2
  · rw [fldSet_getLsbD x f n hf _ (by omega)]
    have h1 : ¬ (f.2 ≤ g.2 + i ∧ g.2 + i ≤ f.1) := by omega
    simp [h1]
  · simp [hi]

theorem State.get_put_self (s : State) (a : Nat) (f : Fld) (n : Nat) (h : f.2 ≤ f.1) (h32 : f.1 < 32) :
    (s.put a f n).get a f = n % 2 ^ (f.1 + 1 - f.2) := by
  simp [State.get, fldOf_fldSet _ f n h h32]

theorem State.get_put_of_disjoint (s : State) (a : Nat) (f g : Fld) (n : Nat) (hf : f.2 ≤ f.1) (hg : g.1 < 32)
    (h : f.1 < g.2 ∨ g.1 < f.2) : (s.put a f n).get a g = s.get a g := by
  simp [State.get, fldOf_fldSet_of_disjoint _ f g n hf hg h]

theorem State.get_put_of_ne (s : State) {a b : Nat} (f g : Fld) (n : Nat) (h : b ≠ a) :
    (s.put a f n).get b g = s.get b g := by
  simp [State.get, h]

theorem State.get_wr_of_ne (s : State) {a b : Nat} (g : Fld) (x : W32) (h : b ≠ a) : (s.wr a x).get b g = s.get b g := by
  simp [State.get, h]

theorem State.get_wr_self (s : State) (a : Nat) (g : Fld) (x : W32) : (s.wr a x).get a g = fldOf x g := by
  simp [State.get]

/-- Registers cleared one after the other read 0, every other one as before. -/
theorem State.rd_zeroRegs (as : List Nat) (s : State) (b : Nat) :
    (s.zeroRegs as).rd b = if b ∈ as then 0 else s.rd b := by
  induction as generalizing s with
  | nil => simp [State.zeroRegs]
  | cons a as ih =>
    have := ih (s.wr a 0)
    simp only [State.zeroRegs, List.foldl_cons] at this ⊢
    rw [this, State.rd_wr]
    by_cases h1 : b ∈ as <;> by_cases h2 : b = a <;> simp [h1, h2]

/-- Clearing registers changes registers alone. -/
theorem State.zeroRegs_eq (as : List Nat) (s : State) : s.zeroRegs as = { s with regs := (s.zeroRegs as).regs } := by
  induction as generalizing s with
  | nil => rfl
  | cons a as ih =>
    have h := ih (s.wr a 0)
    simp only [State.zeroRegs, List.foldl_cons] at h ⊢
    rw [h]; rfl

end Sys2Proof.Machine
end

