-- ==== Sys2Proof/Laws/Keeps.lean ====
section
/-! SUPPORT. What every shared operation of the model keeps: the commands that wait in the queue, and the canonical
forms of memory, of the registers and of the poison marks; one lemma per operation that gives a state. -/
namespace Sys2Proof.Machine

/-- What every operation of the model keeps: the commands that wait, and the canonical forms. -/
structure Keeps (s t : State) : Prop where
  pending : t.pending = s.pending
  mem : Memory.wf s.mem = true → Memory.wf t.mem = true
  regs : Sparse.wf regReset s.regs = true → Sparse.wf regReset t.regs = true
  poison : Sparse.wf (fun _ => false) s.poison = true → Sparse.wf (fun _ => false) t.poison = true

/-- Every next state an outcome gives keeps them. -/
structure KeepsOut (s : State) (o : Out) : Prop where
  next_of : ∀ t, o = .next t → Keeps s t

theorem Keeps.refl (s : State) : Keeps s s := ⟨rfl, id, id, id⟩

theorem Keeps.trans {s t u : State} (h : Keeps s t) (k : Keeps t u) : Keeps s u :=
  ⟨k.pending.trans h.pending, k.mem ∘ h.mem, k.regs ∘ h.regs, k.poison ∘ h.poison⟩

theorem KeepsOut.next {s t : State} (h : Keeps s t) : KeepsOut s (.next t) := by
  constructor; intro u e; cases e; exact h

theorem Keeps.cond {s t u : State} {c : Prop} {d : Decidable c} (h : c → Keeps s t) (k : ¬ c → Keeps s u) :
    Keeps s (@ite State c d t u) := by
  by_cases e : c
  · rw [if_pos e]; exact h e
  · rw [if_neg e]; exact k e

theorem KeepsOut.cond {s : State} {t u : Out} {c : Prop} {d : Decidable c} (h : c → KeepsOut s t) (k : ¬ c → KeepsOut s u) :
    KeepsOut s (@ite Out c d t u) := by
  by_cases e : c
  · rw [if_pos e]; exact h e
  · rw [if_neg e]; exact k e

theorem Keeps.foldl {s : State} {α : Type} {g : State → α → State} {l : List α} {t : State}
    (hg : ∀ u x, Keeps s u → Keeps s (g u x)) (h : Keeps s t) : Keeps s (l.foldl g t) := by
  induction l generalizing t with
  | nil => exact h
  | cons x l ih => exact ih (hg t x h)

theorem Keeps.snd {s : State} {α : Type} {p : α × State} {a : α} {t : State} (e : p = (a, t)) (h : Keeps s p.2) :
    Keeps s t := by subst e; exact h

theorem Keeps.fst {s : State} {α : Type} {p : State × α} {a : α} {t : State} (e : p = (t, a)) (h : Keeps s p.1) :
    Keeps s t := by subst e; exact h

/-- A record update of fields other than the four. -/
theorem Keeps.record {s t : State} (h : Keeps s t) {now : Nat} {events : List Event} {resp : Resp} {free : Nat} {latch : List ((View × Nat) × W32)} {inReset : Vector Bool 64} {hostMask : Sparse W32} {cleared : Sparse Nat} {fabRetry : Sparse Nat} {packets : List Packet} {arbs : List (ArbStage × ArbState)} {cds : Vector CDie 40} {deadDies : List Nat} {tables : Vector (List VariantTable) 8} {cads : Vector Cadence 8} {admitted : List AdmittedSeq} {lostSteps : List (Nat × Nat)} {reqNo : Nat} {got : List (Nat × Nat × Option (List Byte))} {busErrs : List (Nat × Nat × Nat)} {mds : Vector MDie 16} {moduleId : Nat} {jobs : Vector Nat 8} {keySlots : List (Nat × Nat × List Byte)} {releases : List Release} {groups : List (Nat × Group)} {outbox : List GMsg} {torusLen : Nat × Nat × Nat} {ports : Vector LinkPort 6} {arrived : List TPacket} {exch : Vector Sx 16} {sites : SiteEngine} {pairSecrets : List (Nat × Nat × List Byte)} {sec : SecState} {host : HostState} {pwr : PowerState} {rel : RelState} :
    Keeps s (State.mk now t.regs t.mem t.poison events resp free latch inReset hostMask cleared fabRetry packets arbs cds deadDies tables cads admitted lostSteps reqNo got busErrs mds moduleId jobs keySlots releases groups outbox torusLen ports arrived exch sites pairSecrets sec host pwr rel t.pending) := ⟨h.pending, h.mem, h.regs, h.poison⟩

theorem Keeps.foldl1 {s : State} {α β : Type} {g : State × β → α → State × β} {l : List α} {p : State × β}
    (hg : ∀ u x, Keeps s u.1 → Keeps s (g u x).1) (h : Keeps s p.1) : Keeps s (l.foldl g p).1 := by
  induction l generalizing p with
  | nil => exact h
  | cons x l ih => exact ih (hg p x h)

/-- Every state a stage of a start ends in keeps them. -/
structure KeepsStage (s : State) (r : Stage) : Prop where
  ok_of : ∀ t, r = .ok t → Keeps s t
  error_of : ∀ t, r = .error t → Keeps s t

theorem KeepsStage.ok {s t : State} (h : Keeps s t) : KeepsStage s (.ok t) :=
  ⟨fun _ e => (by cases e; exact h), fun _ e => (by cases e)⟩

theorem KeepsStage.error {s t : State} (h : Keeps s t) : KeepsStage s (.error t) :=
  ⟨fun _ e => (by cases e), fun _ e => (by cases e; exact h)⟩

theorem KeepsStage.bind {s : State} {r : Stage} {f : State → Stage} (h : KeepsStage s r)
    (hf : ∀ t, Keeps s t → KeepsStage s (f t)) : KeepsStage s (r >>= f) := by
  cases r with
  | ok t => exact hf t (h.ok_of t rfl)
  | error t => exact KeepsStage.error (h.error_of t rfl)

theorem KeepsStage.cond {s : State} {t u : Stage} {c : Prop} {d : Decidable c} (h : c → KeepsStage s t)
    (k : ¬ c → KeepsStage s u) : KeepsStage s (@ite Stage c d t u) := by
  by_cases e : c
  · rw [if_pos e]; exact h e
  · rw [if_neg e]; exact k e

/-- A map over the entries of a sparse map that keeps keys and lists no default keeps the canonical form. -/
theorem Sparse.wf_filterMap {α : Type} [DecidableEq α] (d : Nat → α) (f : Nat × α → Option (Nat × α))
    (hf : ∀ p q, p.2 ≠ d p.1 → f p = some q → q.1 = p.1 ∧ q.2 ≠ d q.1) {m : Sparse α} (h : Sparse.wf d m = true) :
    Sparse.wf d (m.filterMap f) = true := by
  suffices H : ∀ (m : Sparse α) (a : Nat), Sparse.wfFrom d a m = true → Sparse.wfFrom d a (m.filterMap f) = true from H m 0 h
  intro m
  induction m with
  | nil => intro a h; exact h
  | cons p m ih =>
    intro a h
    obtain ⟨k, x⟩ := p
    simp only [Sparse.wfFrom, Bool.and_eq_true, decide_eq_true_eq] at h
    cases e : f (k, x) with
    | none =>
      rw [List.filterMap_cons_none e]
      exact Sparse.wfFrom_mono d (ih _ h.2) (by omega)
    | some q =>
      obtain ⟨k', x'⟩ := q
      obtain ⟨e1, e2⟩ := hf _ _ h.1.2 e
      simp only at e1 e2
      subst e1
      rw [List.filterMap_cons_some e]
      simp only [Sparse.wfFrom, Bool.and_eq_true, decide_eq_true_eq]
      exact ⟨⟨h.1.1, e2⟩, ih _ h.2⟩


theorem State.setCad_keeps {s0 : State} (s : State) (k : Fin 8) (c : Cadence) (hk : Keeps s0 s) : Keeps s0 (State.setCad
    s k c) := by
  unfold State.setCad
  repeat' first
    | with_reducible assumption | with_reducible exact Keeps.refl _ | with_reducible apply Keeps.foldl1 | extract_lets
    | with_reducible apply Keeps.cond | with_reducible apply KeepsOut.cond | with_reducible apply Keeps.foldl
    | (with_reducible apply Keeps.snd (by assumption)) | (with_reducible apply Keeps.fst (by assumption)) | intro _
    | split | fail_if_no_progress dsimp +zetaDelta only | (fail_if_no_progress with_reducible refine Keeps.record ?_)

theorem State.wr_keeps {s0 : State} (s : State) (a : Nat) (x : W32) (hk : Keeps s0 s) : Keeps s0 (s.wr a x) :=
  ⟨hk.pending, hk.mem, fun k => Sparse.wf_set regReset a x (hk.regs k), hk.poison⟩

theorem State.put64_keeps {s0 : State} (s : State) (lo : Nat) (hi : Nat) (n : Nat) (hk : Keeps s0 s) : Keeps s0
    (State.put64 s lo hi n) := by
  unfold State.put64
  repeat' first
    | with_reducible assumption | with_reducible exact Keeps.refl _ | with_reducible apply State.wr_keeps

theorem State.cadTick_keeps {s0 : State} (s : State) (k : Fin 8) (hk : Keeps s0 s) : Keeps s0 (State.cadTick s k) := by
  unfold State.cadTick
  repeat' first
    | with_reducible assumption | with_reducible exact Keeps.refl _ | with_reducible apply State.put64_keeps

theorem State.put_keeps {s0 : State} (s : State) (a : Nat) (f : Fld) (n : Nat) (hk : Keeps s0 s) :
    Keeps s0 (s.put a f n) := State.wr_keeps _ _ _ hk

theorem State.cadBegin_keeps {s0 : State} (s : State) (k : Fin 8) (kind : Nat) (nom : Nat) (start : Nat) (hk : Keeps s0
    s) : Keeps s0 (State.cadBegin s k kind nom start) := by
  unfold State.cadBegin
  repeat' first
    | with_reducible assumption | with_reducible exact Keeps.refl _ | with_reducible apply State.put_keeps
    | with_reducible apply State.put64_keeps | with_reducible apply State.setCad_keeps
    | with_reducible apply State.wr_keeps

theorem State.cadStart_keeps {s0 : State} (s : State) (k : Fin 8) (hk : Keeps s0 s) : Keeps s0 (State.cadStart s k) := by
  unfold State.cadStart
  repeat' first
    | with_reducible assumption | with_reducible exact Keeps.refl _ | with_reducible apply State.cadBegin_keeps
    | with_reducible apply State.cadTick_keeps | with_reducible apply State.setCad_keeps

theorem State.cadSync_keeps {s0 : State} (s : State) (k : Fin 8) (hk : Keeps s0 s) : Keeps s0 (State.cadSync s k) := by
  unfold State.cadSync
  repeat' first
    | with_reducible assumption | with_reducible exact Keeps.refl _ | with_reducible apply State.cadStart_keeps
    | with_reducible apply State.cadTick_keeps | with_reducible apply State.setCad_keeps
    | with_reducible apply Keeps.foldl1 | extract_lets | with_reducible apply Keeps.cond
    | with_reducible apply KeepsOut.cond | with_reducible apply Keeps.foldl | intro _

theorem State.bump_keeps {s0 : State} (s : State) (a : Nat) (f : Fld) (n : Nat) (hk : Keeps s0 s) : Keeps s0 (State.bump
    s a f n) := by
  unfold State.bump
  repeat' first
    | with_reducible assumption | with_reducible exact Keeps.refl _ | with_reducible apply State.put_keeps

theorem State.setHost_keeps {s0 : State} (s : State) (h : HostState) (hk : Keeps s0 s) : Keeps s0 (State.setHost s h) := by
  unfold State.setHost
  repeat' first
    | with_reducible assumption | with_reducible exact Keeps.refl _ | with_reducible apply Keeps.foldl1 | extract_lets
    | with_reducible apply Keeps.cond | with_reducible apply KeepsOut.cond | with_reducible apply Keeps.foldl
    | (with_reducible apply Keeps.snd (by assumption)) | (with_reducible apply Keeps.fst (by assumption)) | intro _
    | split | fail_if_no_progress dsimp +zetaDelta only | (fail_if_no_progress with_reducible refine Keeps.record ?_)

theorem State.msix_keeps {s0 : State} (s : State) (v : Nat) (hk : Keeps s0 s) : Keeps s0 (State.msix s v) := by
  unfold State.msix
  repeat' first
    | with_reducible assumption | with_reducible exact Keeps.refl _ | with_reducible apply State.setHost_keeps
    | with_reducible apply Keeps.foldl1 | extract_lets | with_reducible apply Keeps.cond
    | with_reducible apply KeepsOut.cond | with_reducible apply Keeps.foldl | intro _

theorem State.evqIrq_keeps {s0 : State} (s : State) (hk : Keeps s0 s) : Keeps s0 (State.evqIrq s) := by
  unfold State.evqIrq
  repeat' first
    | with_reducible assumption | with_reducible exact Keeps.refl _ | with_reducible apply State.msix_keeps
    | with_reducible apply State.setHost_keeps

theorem State.raise_keeps {s0 : State} (s : State) (code : Nat) (die : Nat) (canton : Option Nat) (det : List Byte) (hk
    : Keeps s0 s) : Keeps s0 (State.raise s code die canton det) := by
  unfold State.raise
  repeat' first
    | with_reducible assumption | with_reducible exact Keeps.refl _ | with_reducible apply Keeps.foldl1 | extract_lets
    | with_reducible apply Keeps.cond | with_reducible apply KeepsOut.cond | with_reducible apply Keeps.foldl
    | (with_reducible apply Keeps.snd (by assumption)) | (with_reducible apply Keeps.fst (by assumption)) | intro _
    | split | fail_if_no_progress dsimp +zetaDelta only | (fail_if_no_progress with_reducible refine Keeps.record ?_)

theorem State.evqWrite_keeps {s0 : State} (s : State) (r : EvRecord) (hk : Keeps s0 s) : Keeps s0 (State.evqWrite s r) := by
  unfold State.evqWrite
  repeat' first
    | with_reducible assumption | with_reducible exact Keeps.refl _ | with_reducible apply State.bump_keeps
    | with_reducible apply State.evqIrq_keeps | with_reducible apply State.put_keeps
    | with_reducible apply State.raise_keeps | with_reducible apply State.setHost_keeps
    | with_reducible apply Keeps.foldl1 | extract_lets | with_reducible apply Keeps.cond
    | with_reducible apply KeepsOut.cond | with_reducible apply Keeps.foldl | intro _

theorem State.setRel_keeps {s0 : State} (s : State) (x : RelState) (hk : Keeps s0 s) : Keeps s0 (State.setRel s x) := by
  unfold State.setRel
  repeat' first
    | with_reducible assumption | with_reducible exact Keeps.refl _ | with_reducible apply Keeps.foldl1 | extract_lets
    | with_reducible apply Keeps.cond | with_reducible apply KeepsOut.cond | with_reducible apply Keeps.foldl
    | (with_reducible apply Keeps.snd (by assumption)) | (with_reducible apply Keeps.fst (by assumption)) | intro _
    | split | fail_if_no_progress dsimp +zetaDelta only | (fail_if_no_progress with_reducible refine Keeps.record ?_)

theorem State.refill_keeps {s0 : State} (s : State) (hk : Keeps s0 s) : Keeps s0 (State.refill s) := by
  unfold State.refill
  repeat' first
    | with_reducible assumption | with_reducible exact Keeps.refl _ | with_reducible apply State.setRel_keeps

theorem State.loseRecord_keeps {s0 : State} (s : State) (hk : Keeps s0 s) : Keeps s0 (State.loseRecord s) := by
  unfold State.loseRecord
  repeat' first
    | with_reducible assumption | with_reducible exact Keeps.refl _ | with_reducible apply State.bump_keeps
    | with_reducible apply State.setRel_keeps

theorem State.tellLosses_keeps {s0 : State} (s : State) (hk : Keeps s0 s) : Keeps s0 (State.tellLosses s) := by
  unfold State.tellLosses
  repeat' first
    | with_reducible assumption | with_reducible exact Keeps.refl _ | with_reducible apply State.raise_keeps
    | with_reducible apply State.setRel_keeps | with_reducible apply Keeps.foldl1 | extract_lets
    | with_reducible apply Keeps.cond | with_reducible apply KeepsOut.cond | with_reducible apply Keeps.foldl
    | intro _

theorem State.copyRecord_keeps {s0 : State} (s : State) (eseq : Nat) (cat : Nat) (hk : Keeps s0 s) : Keeps s0
    (State.copyRecord s eseq cat) := by
  unfold State.copyRecord
  repeat' first
    | with_reducible assumption | with_reducible exact Keeps.refl _ | with_reducible apply State.loseRecord_keeps
    | with_reducible apply State.refill_keeps | with_reducible apply State.setRel_keeps
    | with_reducible apply Keeps.foldl1 | extract_lets | with_reducible apply Keeps.cond
    | with_reducible apply KeepsOut.cond | with_reducible apply Keeps.foldl | intro _

theorem State.windowPut_keeps {s0 : State} (s : State) (r : EvRecord) (hk : Keeps s0 s) : Keeps s0 (State.windowPut s r) := by
  unfold State.windowPut
  try dsimp only
  repeat' first
    | with_reducible assumption | with_reducible exact Keeps.refl _ | with_reducible apply State.loseRecord_keeps
    | with_reducible apply State.setRel_keeps | with_reducible apply Keeps.foldl1 | with_reducible apply Keeps.cond
    | with_reducible apply KeepsOut.cond | with_reducible apply Keeps.foldl
    | (with_reducible apply Keeps.snd (by assumption)) | (with_reducible apply Keeps.fst (by assumption)) | intro _
    | split

theorem State.showHealth_keeps {s0 : State} (s : State) (hk : Keeps s0 s) : Keeps s0 (State.showHealth s) := by
  unfold State.showHealth
  repeat' first
    | with_reducible assumption | with_reducible exact Keeps.refl _ | with_reducible apply State.wr_keeps

theorem State.countEvent_keeps {s0 : State} (s : State) (e : Event) (hk : Keeps s0 s) : Keeps s0 (State.countEvent s e) := by
  unfold State.countEvent
  repeat' first
    | with_reducible assumption | with_reducible exact Keeps.refl _ | with_reducible apply State.setRel_keeps
    | with_reducible apply State.showHealth_keeps

theorem State.add64_keeps {s0 : State} (s : State) (lo : Nat) (hi : Nat) (n : Nat) (hk : Keeps s0 s) : Keeps s0
    (State.add64 s lo hi n) := by
  unfold State.add64
  repeat' first
    | with_reducible assumption | with_reducible exact Keeps.refl _ | with_reducible apply State.put64_keeps

theorem State.showRecord_keeps {s0 : State} (s : State) (hk : Keeps s0 s) : Keeps s0 (State.showRecord s) := by
  unfold State.showRecord
  repeat' first
    | with_reducible assumption | with_reducible exact Keeps.refl _ | with_reducible apply State.put_keeps
    | with_reducible apply State.wr_keeps | with_reducible apply Keeps.foldl1 | extract_lets
    | with_reducible apply Keeps.cond | with_reducible apply KeepsOut.cond | with_reducible apply Keeps.foldl
    | intro _

theorem State.logEvent_keeps {s0 : State} (s : State) (e : Event) (hk : Keeps s0 s) : Keeps s0 (State.logEvent s e) := by
  unfold State.logEvent
  repeat' first
    | with_reducible assumption | with_reducible exact Keeps.refl _ | with_reducible apply State.add64_keeps
    | with_reducible apply State.copyRecord_keeps | with_reducible apply State.countEvent_keeps
    | with_reducible apply State.evqWrite_keeps | with_reducible apply State.msix_keeps
    | with_reducible apply State.showRecord_keeps | with_reducible apply State.tellLosses_keeps
    | with_reducible apply State.windowPut_keeps | with_reducible apply Keeps.foldl1 | extract_lets
    | with_reducible apply Keeps.cond | with_reducible apply KeepsOut.cond | with_reducible apply Keeps.foldl
    | intro _

theorem State.setCd_keeps {s0 : State} (s : State) (d : Fin 40) (c : CDie) (hk : Keeps s0 s) : Keeps s0 (State.setCd s d c) := by
  unfold State.setCd
  repeat' first
    | with_reducible assumption | with_reducible exact Keeps.refl _ | with_reducible apply Keeps.foldl1 | extract_lets
    | with_reducible apply Keeps.cond | with_reducible apply KeepsOut.cond | with_reducible apply Keeps.foldl
    | (with_reducible apply Keeps.snd (by assumption)) | (with_reducible apply Keeps.fst (by assumption)) | intro _
    | split | fail_if_no_progress dsimp +zetaDelta only | (fail_if_no_progress with_reducible refine Keeps.record ?_)

theorem State.setQState_keeps {s0 : State} (s : State) (d : Fin 40) (q : Fin 4) (n : Nat) (hk : Keeps s0 s) : Keeps s0
    (State.setQState s d q n) := by
  unfold State.setQState
  repeat' first
    | with_reducible assumption | with_reducible exact Keeps.refl _ | with_reducible apply State.put_keeps

theorem State.setQue_keeps {s0 : State} (s : State) (d : Fin 40) (q : Fin 4) (x : QueueState) (hk : Keeps s0 s) : Keeps
    s0 (State.setQue s d q x) := by
  unfold State.setQue
  repeat' first
    | with_reducible assumption | with_reducible exact Keeps.refl _ | with_reducible apply State.setCd_keeps

theorem State.queueStop_keeps {s0 : State} (s : State) (d : Fin 40) (q : Fin 4) (hk : Keeps s0 s) : Keeps s0
    (State.queueStop s d q) := by
  unfold State.queueStop
  repeat' first
    | with_reducible assumption | with_reducible exact Keeps.refl _ | with_reducible apply State.setQState_keeps
    | with_reducible apply State.setQue_keeps | with_reducible apply Keeps.foldl1 | extract_lets
    | with_reducible apply Keeps.cond | with_reducible apply KeepsOut.cond | with_reducible apply Keeps.foldl
    | intro _

theorem State.stopQueues_keeps {s0 : State} (s : State) (k : Nat) (hk : Keeps s0 s) : Keeps s0 (State.stopQueues s k) := by
  unfold State.stopQueues
  repeat' first
    | with_reducible assumption | with_reducible exact Keeps.refl _ | with_reducible apply State.queueStop_keeps
    | with_reducible apply Keeps.foldl1 | extract_lets | with_reducible apply Keeps.cond
    | with_reducible apply KeepsOut.cond | with_reducible apply Keeps.foldl | intro _

theorem State.contain_keeps {s0 : State} (s : State) (k : Nat) (code : Nat) (hk : Keeps s0 s) : Keeps s0 (State.contain
    s k code) := by
  unfold State.contain
  repeat' first
    | with_reducible assumption | with_reducible exact Keeps.refl _ | with_reducible apply State.msix_keeps
    | with_reducible apply State.put_keeps | with_reducible apply State.raise_keeps
    | with_reducible apply State.setCd_keeps | with_reducible apply State.setRel_keeps
    | with_reducible apply State.stopQueues_keeps | with_reducible apply Keeps.foldl1 | extract_lets
    | with_reducible apply Keeps.cond | with_reducible apply KeepsOut.cond | with_reducible apply Keeps.foldl
    | intro _

theorem State.setPwr_keeps {s0 : State} (s : State) (x : PowerState) (hk : Keeps s0 s) : Keeps s0 (State.setPwr s x) := by
  unfold State.setPwr
  repeat' first
    | with_reducible assumption | with_reducible exact Keeps.refl _ | with_reducible apply Keeps.foldl1 | extract_lets
    | with_reducible apply Keeps.cond | with_reducible apply KeepsOut.cond | with_reducible apply Keeps.foldl
    | (with_reducible apply Keeps.snd (by assumption)) | (with_reducible apply Keeps.fst (by assumption)) | intro _
    | split | fail_if_no_progress dsimp +zetaDelta only | (fail_if_no_progress with_reducible refine Keeps.record ?_)

theorem State.resetEvent_keeps {s0 : State} (s : State) (kind : Nat) (src : Nat) (hk : Keeps s0 s) : Keeps s0
    (State.resetEvent s kind src) := by
  unfold State.resetEvent
  repeat' first
    | with_reducible assumption | with_reducible exact Keeps.refl _ | with_reducible apply State.raise_keeps

theorem State.flCmd_keeps {s0 : State} (s : State) (f : State) (hk : Keeps s0 s) (hk1 : Keeps s0 f) : KeepsOut s0
    (State.flCmd s f) := by
  unfold State.flCmd
  repeat' first
    | with_reducible assumption | with_reducible exact Keeps.refl _ | with_reducible apply KeepsOut.next
    | with_reducible apply Keeps.foldl1 | extract_lets | with_reducible apply Keeps.cond
    | with_reducible apply KeepsOut.cond | with_reducible apply Keeps.foldl | intro _

theorem State.resetRegs_keeps {s0 : State} (s : State) (hit : Nat → Bool) (lose : Kept → Bool) (hk : Keeps s0 s) :
    Keeps s0 (s.resetRegs hit lose) := by
  refine ⟨hk.pending, hk.mem, fun k => Sparse.wf_filterMap _ _ ?_ (hk.regs k), hk.poison⟩
  intro p q hp e
  dsimp only at e
  split at e
  · split at e
    · cases e
    · next h => cases e; exact ⟨rfl, h⟩
  · cases e; exact ⟨rfl, hp⟩

theorem State.allReset_keeps {s0 : State} (s : State) (lose : Kept → Bool) (hk : Keeps s0 s) :
    Keeps s0 (s.allReset lose) :=
  ⟨hk.pending, fun _ => rfl, fun k => (State.resetRegs_keeps s (fun _ => true) lose hk).regs k, fun _ => rfl⟩

theorem State.flPut_keeps {s0 : State} (s : State) (a : Nat) (bs : List Byte) (hk : Keeps s0 s) : Keeps s0 (State.flPut
    s a bs) := by
  unfold State.flPut
  repeat' first
    | with_reducible assumption | with_reducible exact Keeps.refl _ | with_reducible apply Keeps.foldl1 | extract_lets
    | with_reducible apply Keeps.cond | with_reducible apply KeepsOut.cond | with_reducible apply Keeps.foldl
    | (with_reducible apply Keeps.snd (by assumption)) | (with_reducible apply Keeps.fst (by assumption)) | intro _
    | split | fail_if_no_progress dsimp +zetaDelta only | (fail_if_no_progress with_reducible refine Keeps.record ?_)

theorem State.flErase_keeps {s0 : State} (s : State) (a : Nat) (n : Nat) (hk : Keeps s0 s) : Keeps s0 (State.flErase s a n) := by
  unfold State.flErase
  repeat' first
    | with_reducible assumption | with_reducible exact Keeps.refl _ | with_reducible apply State.flPut_keeps

theorem State.nvDone_keeps {s0 : State} (s : State) (hk : Keeps s0 s) : Keeps s0 (State.nvDone s) := by
  unfold State.nvDone
  repeat' first
    | with_reducible assumption | with_reducible exact Keeps.refl _ | with_reducible apply State.flErase_keeps
    | with_reducible apply State.flPut_keeps | with_reducible apply State.setPwr_keeps
    | with_reducible apply State.setRel_keeps | with_reducible apply Keeps.foldl1 | extract_lets
    | with_reducible apply Keeps.cond | with_reducible apply KeepsOut.cond | with_reducible apply Keeps.foldl
    | (with_reducible apply Keeps.snd (by assumption)) | (with_reducible apply Keeps.fst (by assumption)) | intro _
    | split

theorem State.nvFinish_keeps {s0 : State} (s : State) (hk : Keeps s0 s) : Keeps s0 (State.nvFinish s) := by
  unfold State.nvFinish
  repeat' first
    | with_reducible assumption | with_reducible exact Keeps.refl _ | with_reducible apply State.nvDone_keeps
    | with_reducible apply State.put_keeps | with_reducible apply Keeps.foldl1 | extract_lets
    | with_reducible apply Keeps.cond | with_reducible apply KeepsOut.cond | with_reducible apply Keeps.foldl
    | (with_reducible apply Keeps.snd (by assumption)) | (with_reducible apply Keeps.fst (by assumption)) | intro _
    | split

theorem State.coldLoss_keeps {s0 : State} (s : State) (hk : Keeps s0 s) : Keeps s0 s.coldLoss :=
  ⟨hk.pending, fun _ => rfl, fun _ => rfl, fun _ => rfl⟩

theorem State.porLoss_keeps {s0 : State} (s : State) (hk : Keeps s0 s) : Keeps s0 (State.porLoss s) := by
  unfold State.porLoss
  repeat' first
    | with_reducible assumption | with_reducible exact Keeps.refl _ | with_reducible apply State.setRel_keeps
    | with_reducible apply Keeps.foldl1 | extract_lets | with_reducible apply Keeps.cond
    | with_reducible apply KeepsOut.cond | with_reducible apply Keeps.foldl
    | (with_reducible apply Keeps.snd (by assumption)) | (with_reducible apply Keeps.fst (by assumption)) | intro _
    | split | fail_if_no_progress dsimp +zetaDelta only | (fail_if_no_progress with_reducible refine Keeps.record ?_)

theorem State.setCanton_keeps {s0 : State} (s : State) (k : Nat) (c : CantonSec) (hk : Keeps s0 s) : Keeps s0
    (State.setCanton s k c) := by
  unfold State.setCanton
  repeat' first
    | with_reducible assumption | with_reducible exact Keeps.refl _ | with_reducible apply Keeps.foldl1 | extract_lets
    | with_reducible apply Keeps.cond | with_reducible apply KeepsOut.cond | with_reducible apply Keeps.foldl
    | (with_reducible apply Keeps.snd (by assumption)) | (with_reducible apply Keeps.fst (by assumption)) | intro _
    | split | fail_if_no_progress dsimp +zetaDelta only | (fail_if_no_progress with_reducible refine Keeps.record ?_)

theorem State.setMd_keeps {s0 : State} (s : State) (m : Fin 16) (c : MDie) (hk : Keeps s0 s) : Keeps s0 (State.setMd s m c) := by
  unfold State.setMd
  repeat' first
    | with_reducible assumption | with_reducible exact Keeps.refl _ | with_reducible apply Keeps.foldl1 | extract_lets
    | with_reducible apply Keeps.cond | with_reducible apply KeepsOut.cond | with_reducible apply Keeps.foldl
    | (with_reducible apply Keeps.snd (by assumption)) | (with_reducible apply Keeps.fst (by assumption)) | intro _
    | split | fail_if_no_progress dsimp +zetaDelta only | (fail_if_no_progress with_reducible refine Keeps.record ?_)

theorem State.setEng_keeps {s0 : State} (s : State) (m : Fin 16) (e : Seal) (hk : Keeps s0 s) : Keeps s0 (State.setEng s
    m e) := by
  unfold State.setEng
  repeat' first
    | with_reducible assumption | with_reducible exact Keeps.refl _ | with_reducible apply State.setMd_keeps

theorem State.setSec_keeps {s0 : State} (s : State) (x : SecState) (hk : Keeps s0 s) : Keeps s0 (State.setSec s x) := by
  unfold State.setSec
  repeat' first
    | with_reducible assumption | with_reducible exact Keeps.refl _ | with_reducible apply Keeps.foldl1 | extract_lets
    | with_reducible apply Keeps.cond | with_reducible apply KeepsOut.cond | with_reducible apply Keeps.foldl
    | (with_reducible apply Keeps.snd (by assumption)) | (with_reducible apply Keeps.fst (by assumption)) | intro _
    | split | fail_if_no_progress dsimp +zetaDelta only | (fail_if_no_progress with_reducible refine Keeps.record ?_)

theorem State.eraseKeys_keeps {s0 : State} (s : State) (k : Nat) (hk : Keeps s0 s) : Keeps s0 (State.eraseKeys s k) := by
  unfold State.eraseKeys
  repeat' first
    | with_reducible assumption | with_reducible exact Keeps.refl _ | with_reducible apply State.put_keeps
    | with_reducible apply State.setCanton_keeps | with_reducible apply State.setEng_keeps
    | with_reducible apply State.setSec_keeps | with_reducible apply Keeps.foldl1 | extract_lets
    | with_reducible apply Keeps.cond | with_reducible apply KeepsOut.cond | with_reducible apply Keeps.foldl
    | (with_reducible apply Keeps.snd (by assumption)) | (with_reducible apply Keeps.fst (by assumption)) | intro _
    | split | fail_if_no_progress dsimp +zetaDelta only | (fail_if_no_progress with_reducible refine Keeps.record ?_)

theorem State.coverLines_keeps {s0 : State} (s : State) (a n : Nat) (hk : Keeps s0 s) : Keeps s0 (s.coverLines a n) :=
  ⟨hk.pending, hk.mem, hk.regs, fun k => Sparse.wf_filter _ _ (hk.poison k)⟩

theorem State.zeroRange_keeps {s0 : State} (s : State) (a n : Nat) (hk : Keeps s0 s) : Keeps s0 (s.zeroRange a n) :=
  ⟨hk.pending, fun k => State.zeroRange_wf s a n (hk.mem k), hk.regs, fun k => Sparse.wf_filter _ _ (hk.poison k)⟩

theorem State.zeroCd_keeps {s0 : State} (s : State) (d : Fin 40) (queues : Bool) (hk : Keeps s0 s) : Keeps s0
    (State.zeroCd s d queues) := by
  unfold State.zeroCd
  repeat' first
    | with_reducible assumption | with_reducible exact Keeps.refl _ | with_reducible apply State.setCd_keeps
    | with_reducible apply State.zeroRange_keeps | with_reducible apply Keeps.foldl1 | extract_lets
    | with_reducible apply Keeps.cond | with_reducible apply KeepsOut.cond | with_reducible apply Keeps.foldl
    | (with_reducible apply Keeps.snd (by assumption)) | (with_reducible apply Keeps.fst (by assumption)) | intro _
    | split | fail_if_no_progress dsimp +zetaDelta only | (fail_if_no_progress with_reducible refine Keeps.record ?_)

theorem State.resetCd_keeps {s0 : State} (s : State) (d : Fin 40) (hk : Keeps s0 s) : Keeps s0 (State.resetCd s d) := by
  unfold State.resetCd
  repeat' first
    | with_reducible assumption | with_reducible exact Keeps.refl _ | with_reducible apply State.resetRegs_keeps
    | with_reducible apply State.zeroCd_keeps

theorem State.claimSlots_keeps {s0 : State} (s : State) (k : Nat) (g : Nat) (claim : Bool) (hk : Keeps s0 s) : Keeps s0
    (State.claimSlots s k g claim) := by
  unfold State.claimSlots
  repeat' first
    | with_reducible assumption | with_reducible exact Keeps.refl _ | with_reducible apply State.put_keeps
    | with_reducible apply Keeps.foldl1 | extract_lets | with_reducible apply Keeps.cond
    | with_reducible apply KeepsOut.cond | with_reducible apply Keeps.foldl | intro _

theorem State.dropGrp_keeps {s0 : State} (s : State) (g : Nat) (hk : Keeps s0 s) : Keeps s0 (State.dropGrp s g) := by
  unfold State.dropGrp
  repeat' first
    | with_reducible assumption | with_reducible exact Keeps.refl _ | with_reducible apply Keeps.foldl1 | extract_lets
    | with_reducible apply Keeps.cond | with_reducible apply KeepsOut.cond | with_reducible apply Keeps.foldl
    | (with_reducible apply Keeps.snd (by assumption)) | (with_reducible apply Keeps.fst (by assumption)) | intro _
    | split | fail_if_no_progress dsimp +zetaDelta only | (fail_if_no_progress with_reducible refine Keeps.record ?_)

theorem State.setGrp_keeps {s0 : State} (s : State) (g : Nat) (x : Group) (hk : Keeps s0 s) : Keeps s0 (State.setGrp s g x) := by
  unfold State.setGrp
  repeat' first
    | with_reducible assumption | with_reducible exact Keeps.refl _ | with_reducible apply Keeps.foldl1 | extract_lets
    | with_reducible apply Keeps.cond | with_reducible apply KeepsOut.cond | with_reducible apply Keeps.foldl
    | (with_reducible apply Keeps.snd (by assumption)) | (with_reducible apply Keeps.fst (by assumption)) | intro _
    | split | fail_if_no_progress dsimp +zetaDelta only | (fail_if_no_progress with_reducible refine Keeps.record ?_)

theorem State.setUe_keeps {s0 : State} (s : State) (m : Fin 16) (u : Ue) (hk : Keeps s0 s) : Keeps s0 (State.setUe s m u) := by
  unfold State.setUe
  repeat' first
    | with_reducible assumption | with_reducible exact Keeps.refl _ | with_reducible apply State.setMd_keeps

theorem State.stagedCount_keeps {s0 : State} (s : State) (k : Nat) (hk : Keeps s0 s) : Keeps s0 (State.stagedCount s k) := by
  unfold State.stagedCount
  repeat' first
    | with_reducible assumption | with_reducible exact Keeps.refl _ | with_reducible apply State.put_keeps
    | with_reducible apply Keeps.foldl1 | extract_lets | with_reducible apply Keeps.cond
    | with_reducible apply KeepsOut.cond | with_reducible apply Keeps.foldl | intro _

theorem State.returnGrans_keeps {s0 : State} (s : State) (k : Nat) (g : Nat) (hk : Keeps s0 s) : Keeps s0
    (State.returnGrans s k g) := by
  unfold State.returnGrans
  repeat' first
    | with_reducible assumption | with_reducible exact Keeps.refl _ | with_reducible apply State.put_keeps
    | with_reducible apply State.setGrp_keeps | with_reducible apply State.setUe_keeps
    | with_reducible apply State.stagedCount_keeps | with_reducible apply Keeps.foldl1 | extract_lets
    | with_reducible apply Keeps.cond | with_reducible apply KeepsOut.cond | with_reducible apply Keeps.foldl
    | (with_reducible apply Keeps.snd (by assumption)) | (with_reducible apply Keeps.fst (by assumption)) | intro _
    | split

theorem State.slotSync_keeps {s0 : State} (s : State) (k : Nat) (hk : Keeps s0 s) : Keeps s0 (State.slotSync s k) := by
  unfold State.slotSync
  repeat' first
    | with_reducible assumption | with_reducible exact Keeps.refl _ | with_reducible apply State.put_keeps
    | with_reducible apply Keeps.foldl1 | extract_lets | with_reducible apply Keeps.cond
    | with_reducible apply KeepsOut.cond | with_reducible apply Keeps.foldl | intro _

theorem State.clearContexts_keeps {s0 : State} (s : State) (hit : Nat → Bool) (hk : Keeps s0 s) : Keeps s0
    (State.clearContexts s hit) := by
  unfold State.clearContexts
  repeat' first
    | with_reducible assumption | with_reducible exact Keeps.refl _ | with_reducible apply State.claimSlots_keeps
    | with_reducible apply State.dropGrp_keeps | with_reducible apply State.resetRegs_keeps
    | with_reducible apply State.returnGrans_keeps | with_reducible apply State.slotSync_keeps
    | with_reducible apply Keeps.foldl1 | extract_lets | with_reducible apply Keeps.cond
    | with_reducible apply KeepsOut.cond | with_reducible apply Keeps.foldl | intro _

theorem State.lkCount_keeps {s0 : State} (s : State) (l : Fin 6) (a : Nat) (n : Nat) (hk : Keeps s0 s) : Keeps s0
    (State.lkCount s l a n) := by
  unfold State.lkCount
  repeat' first
    | with_reducible assumption | with_reducible exact Keeps.refl _ | with_reducible apply State.bump_keeps
    | with_reducible apply Keeps.foldl1 | extract_lets | with_reducible apply Keeps.cond
    | with_reducible apply KeepsOut.cond | with_reducible apply Keeps.foldl | intro _

theorem State.setPort_keeps {s0 : State} (s : State) (l : Fin 6) (p : LinkPort) (hk : Keeps s0 s) : Keeps s0
    (State.setPort s l p) := by
  unfold State.setPort
  repeat' first
    | with_reducible assumption | with_reducible exact Keeps.refl _ | with_reducible apply Keeps.foldl1 | extract_lets
    | with_reducible apply Keeps.cond | with_reducible apply KeepsOut.cond | with_reducible apply Keeps.foldl
    | (with_reducible apply Keeps.snd (by assumption)) | (with_reducible apply Keeps.fst (by assumption)) | intro _
    | split | fail_if_no_progress dsimp +zetaDelta only | (fail_if_no_progress with_reducible refine Keeps.record ?_)

theorem State.zeroRegs_keeps {s0 : State} (s : State) (as : List Nat) (hk : Keeps s0 s) : Keeps s0 (State.zeroRegs s as) := by
  unfold State.zeroRegs
  repeat' first
    | with_reducible assumption | with_reducible exact Keeps.refl _ | with_reducible apply State.wr_keeps
    | with_reducible apply Keeps.foldl1 | extract_lets | with_reducible apply Keeps.cond
    | with_reducible apply KeepsOut.cond | with_reducible apply Keeps.foldl | intro _

theorem State.zeroEpochs_keeps {s0 : State} (s : State) (l : Fin 6) (hk : Keeps s0 s) : Keeps s0 (State.zeroEpochs s l) := by
  unfold State.zeroEpochs
  repeat' first
    | with_reducible assumption | with_reducible exact Keeps.refl _ | with_reducible apply State.zeroRegs_keeps
    | with_reducible apply Keeps.foldl1 | extract_lets | with_reducible apply Keeps.cond
    | with_reducible apply KeepsOut.cond | with_reducible apply Keeps.foldl | intro _

theorem State.endSession_keeps {s0 : State} (s : State) (l : Fin 6) (st : Nat) (hk : Keeps s0 s) : Keeps s0
    (State.endSession s l st) := by
  unfold State.endSession
  repeat' first
    | with_reducible assumption | with_reducible exact Keeps.refl _ | with_reducible apply State.lkCount_keeps
    | with_reducible apply State.put_keeps | with_reducible apply State.setPort_keeps
    | with_reducible apply State.zeroEpochs_keeps

theorem State.startTraining_keeps {s0 : State} (s : State) (l : Fin 6) (hk : Keeps s0 s) : Keeps s0 (State.startTraining
    s l) := by
  unfold State.startTraining
  repeat' first
    | with_reducible assumption | with_reducible exact Keeps.refl _ | with_reducible apply State.endSession_keeps
    | with_reducible apply Keeps.foldl1 | extract_lets | with_reducible apply Keeps.cond
    | with_reducible apply KeepsOut.cond | with_reducible apply Keeps.foldl | intro _

theorem State.resetLd_keeps {s0 : State} (s : State) (l : Fin 6) (hk : Keeps s0 s) : Keeps s0 (State.resetLd s l) := by
  unfold State.resetLd
  repeat' first
    | with_reducible assumption | with_reducible exact Keeps.refl _ | with_reducible apply State.clearContexts_keeps
    | with_reducible apply State.endSession_keeps | with_reducible apply State.put_keeps
    | with_reducible apply State.resetRegs_keeps | with_reducible apply State.startTraining_keeps
    | with_reducible apply State.zeroRange_keeps | with_reducible apply Keeps.foldl1 | extract_lets
    | with_reducible apply Keeps.cond | with_reducible apply KeepsOut.cond | with_reducible apply Keeps.foldl
    | (with_reducible apply Keeps.snd (by assumption)) | (with_reducible apply Keeps.fst (by assumption)) | intro _
    | split | fail_if_no_progress dsimp +zetaDelta only | (fail_if_no_progress with_reducible refine Keeps.record ?_)

theorem State.syncPoison_keeps {s0 : State} (s : State) (m : Fin 16) (hk : Keeps s0 s) : Keeps s0 (State.syncPoison s m) := by
  unfold State.syncPoison
  repeat' first
    | with_reducible assumption | with_reducible exact Keeps.refl _ | with_reducible apply State.put_keeps
    | with_reducible apply State.wr_keeps | with_reducible apply State.zeroRegs_keeps
    | with_reducible apply Keeps.foldl1 | extract_lets | with_reducible apply Keeps.cond
    | with_reducible apply KeepsOut.cond | with_reducible apply Keeps.foldl
    | (with_reducible apply Keeps.snd (by assumption)) | (with_reducible apply Keeps.fst (by assumption)) | intro _
    | split

theorem State.newTree_keeps {s0 : State} (s : State) (m : Fin 16) (hk : Keeps s0 s) : Keeps s0 (s.newTree m) := by
  unfold State.newTree
  apply State.syncPoison_keeps
  apply State.wr_keeps
  exact ⟨hk.pending, fun k => Sparse.wf_filter _ _ (hk.mem k), hk.regs, hk.poison⟩

theorem State.wake_keeps {s0 : State} (s : State) (m : Fin 16) (hk : Keeps s0 s) : Keeps s0 (State.wake s m) := by
  unfold State.wake
  repeat' first
    | with_reducible assumption | with_reducible exact Keeps.refl _ | with_reducible apply State.setEng_keeps
    | with_reducible apply Keeps.foldl1 | extract_lets | with_reducible apply Keeps.cond
    | with_reducible apply KeepsOut.cond | with_reducible apply Keeps.foldl | intro _

theorem State.zeroMd_keeps {s0 : State} (s : State) (m : Fin 16) (hk : Keeps s0 s) : Keeps s0 (State.zeroMd s m) := by
  unfold State.zeroMd
  repeat' first
    | with_reducible assumption | with_reducible exact Keeps.refl _ | with_reducible apply State.setMd_keeps
    | with_reducible apply State.syncPoison_keeps | with_reducible apply State.zeroRange_keeps
    | with_reducible apply Keeps.foldl1 | extract_lets | with_reducible apply Keeps.cond
    | with_reducible apply KeepsOut.cond | with_reducible apply Keeps.foldl
    | (with_reducible apply Keeps.snd (by assumption)) | (with_reducible apply Keeps.fst (by assumption)) | intro _
    | split | fail_if_no_progress dsimp +zetaDelta only | (fail_if_no_progress with_reducible refine Keeps.record ?_)

theorem State.resetMd_keeps {s0 : State} (s : State) (m : Fin 16) (hk : Keeps s0 s) : Keeps s0 (State.resetMd s m) := by
  unfold State.resetMd
  repeat' first
    | with_reducible assumption | with_reducible exact Keeps.refl _ | with_reducible apply State.newTree_keeps
    | with_reducible apply State.resetRegs_keeps | with_reducible apply State.setEng_keeps
    | with_reducible apply State.wake_keeps | with_reducible apply State.zeroMd_keeps

theorem State.srst_keeps {s0 : State} (s : State) (hk : Keeps s0 s) : Keeps s0 s.srst := by
  have he : ∀ (t : State), Keeps s0 t → ∀ (now : Nat) r1 r2 r3 r4 r5 r6 r7 r8 r9 r10 r11 r12 r13 r14 r15 r16 r17 r18 r19 r20
      r21 r22 r23 r24 r25 r26 r27 r28 r29 r30 r31 r32 r33 r34 r35 r36, Keeps s0 (State.mk now t.regs [] [] r1 r2 r3 r4 r5 r6 r7 r8 r9 r10 r11 r12 r13
        r14 r15 r16 r17 r18 r19 r20 r21 r22 r23 r24 r25 r26 r27 r28 r29 r30 r31 r32 r33 r34 r35 r36 t.pending) := by
    intro t h
    intros
    exact ⟨h.pending, fun _ => rfl, h.regs, fun _ => rfl⟩
  unfold State.srst
  dsimp only
  repeat' first
    | with_reducible assumption | with_reducible exact Keeps.refl _ | with_reducible apply he
    | with_reducible apply State.eraseKeys_keeps | with_reducible apply State.put_keeps
    | with_reducible apply State.resetCd_keeps | with_reducible apply State.resetLd_keeps
    | with_reducible apply State.resetMd_keeps | with_reducible apply State.resetRegs_keeps
    | with_reducible apply Keeps.foldl1 | with_reducible apply Keeps.cond | with_reducible apply KeepsOut.next
    | with_reducible apply KeepsOut.cond | with_reducible apply Keeps.foldl | intro _

theorem State.beginStart_keeps {s0 : State} (s : State) (kind : Nat) (last : Nat) (hk : Keeps s0 s) : Keeps s0
    (State.beginStart s kind last) := by
  unfold State.beginStart
  repeat' first
    | with_reducible assumption | with_reducible exact Keeps.refl _ | with_reducible apply State.allReset_keeps
    | with_reducible apply State.bump_keeps | with_reducible apply State.coldLoss_keeps
    | with_reducible apply State.porLoss_keeps | with_reducible apply State.put_keeps
    | with_reducible apply State.setPwr_keeps | with_reducible apply State.srst_keeps
    | with_reducible apply Keeps.foldl1 | extract_lets | with_reducible apply Keeps.cond
    | with_reducible apply KeepsOut.cond | with_reducible apply Keeps.foldl | intro _

theorem State.setPlane_keeps {s0 : State} (s : State) (l : Fin 6) (k : Fin 8) (p : LinkPlane) (hk : Keeps s0 s) : Keeps
    s0 (State.setPlane s l k p) := by
  unfold State.setPlane
  repeat' first
    | with_reducible assumption | with_reducible exact Keeps.refl _ | with_reducible apply State.setPort_keeps

theorem State.nextEpoch_keeps {s0 : State} (s : State) (l : Fin 6) (k : Fin 8) (hk : Keeps s0 s) : Keeps s0
    (State.nextEpoch s l k) := by
  unfold State.nextEpoch
  repeat' first
    | with_reducible assumption | with_reducible exact Keeps.refl _ | with_reducible apply State.lkCount_keeps
    | with_reducible apply State.put_keeps | with_reducible apply State.setPlane_keeps

theorem State.forceRekey_keeps {s0 : State} (s : State) (l : Fin 6) (k : Fin 8) (hk : Keeps s0 s) : Keeps s0
    (State.forceRekey s l k) := by
  unfold State.forceRekey
  repeat' first
    | with_reducible assumption | with_reducible exact Keeps.refl _ | with_reducible apply State.lkCount_keeps
    | with_reducible apply State.nextEpoch_keeps | with_reducible apply State.put_keeps
    | with_reducible apply State.setPlane_keeps | with_reducible apply Keeps.foldl1 | extract_lets
    | with_reducible apply Keeps.cond | with_reducible apply KeepsOut.cond | with_reducible apply Keeps.foldl
    | intro _

theorem State.fresh_keeps {s0 : State} (s : State) (w : Nat) (hk : Keeps s0 s) : Keeps s0 (State.fresh s w).2 := by
  unfold State.fresh
  repeat' first
    | with_reducible assumption | with_reducible exact Keeps.refl _ | with_reducible apply Keeps.foldl1 | extract_lets
    | with_reducible apply Keeps.cond | with_reducible apply KeepsOut.cond | with_reducible apply Keeps.foldl
    | (with_reducible apply Keeps.snd (by assumption)) | (with_reducible apply Keeps.fst (by assumption)) | intro _
    | split | fail_if_no_progress dsimp +zetaDelta only | (fail_if_no_progress with_reducible refine Keeps.record ?_)

theorem State.rand_keeps {s0 : State} (s : State) (n : Nat) (hk : Keeps s0 s) : Keeps s0 (State.rand s n).2 := by
  unfold State.rand
  repeat' first
    | with_reducible assumption | with_reducible exact Keeps.refl _ | with_reducible apply State.fresh_keeps

theorem State.freshKeys_keeps {s0 : State} (s : State) (k : Nat) (hk : Keeps s0 s) : Keeps s0 (State.freshKeys s k) := by
  unfold State.freshKeys
  repeat' first
    | with_reducible assumption | with_reducible exact Keeps.refl _ | with_reducible apply State.put_keeps
    | with_reducible apply State.rand_keeps | with_reducible apply State.setEng_keeps
    | with_reducible apply State.wake_keeps | with_reducible apply Keeps.foldl1 | extract_lets
    | with_reducible apply Keeps.cond | with_reducible apply KeepsOut.cond | with_reducible apply Keeps.foldl
    | intro _

theorem State.scrubbing_keeps {s0 : State} (s : State) (k : Nat) (hk : Keeps s0 s) : Keeps s0 (State.scrubbing s k) := by
  unfold State.scrubbing
  repeat' first
    | with_reducible assumption | with_reducible exact Keeps.refl _ | with_reducible apply State.put_keeps
    | with_reducible apply Keeps.foldl1 | extract_lets | with_reducible apply Keeps.cond
    | with_reducible apply KeepsOut.cond | with_reducible apply Keeps.foldl
    | (with_reducible apply Keeps.snd (by assumption)) | (with_reducible apply Keeps.fst (by assumption)) | intro _
    | split | fail_if_no_progress dsimp +zetaDelta only | (fail_if_no_progress with_reducible refine Keeps.record ?_)

theorem State.setStep_keeps {s0 : State} (s : State) (k : Nat) (n : Nat) (hk : Keeps s0 s) : Keeps s0 (State.setStep s k n) := by
  unfold State.setStep
  repeat' first
    | with_reducible assumption | with_reducible exact Keeps.refl _ | with_reducible apply State.put_keeps

theorem State.zeroCanton_keeps {s0 : State} (s : State) (k : Nat) (hk : Keeps s0 s) : Keeps s0 (State.zeroCanton s k) := by
  unfold State.zeroCanton
  repeat' first
    | with_reducible assumption | with_reducible exact Keeps.refl _ | with_reducible apply State.clearContexts_keeps
    | with_reducible apply State.put_keeps | with_reducible apply State.zeroCd_keeps
    | with_reducible apply State.zeroMd_keeps | with_reducible apply Keeps.foldl1 | extract_lets
    | with_reducible apply Keeps.cond | with_reducible apply KeepsOut.cond | with_reducible apply Keeps.foldl
    | intro _

theorem State.scrubErase_keeps {s0 : State} (s : State) (k : Nat) (hk : Keeps s0 s) : Keeps s0 (State.scrubErase s k) := by
  unfold State.scrubErase
  repeat' first
    | with_reducible assumption | with_reducible exact Keeps.refl _ | with_reducible apply State.eraseKeys_keeps
    | with_reducible apply State.freshKeys_keeps | with_reducible apply State.scrubbing_keeps
    | with_reducible apply State.setStep_keeps | with_reducible apply State.zeroCanton_keeps
    | with_reducible apply Keeps.foldl1 | extract_lets | with_reducible apply Keeps.cond
    | with_reducible apply KeepsOut.cond | with_reducible apply Keeps.foldl
    | (with_reducible apply Keeps.snd (by assumption)) | (with_reducible apply Keeps.fst (by assumption)) | intro _
    | split | fail_if_no_progress dsimp +zetaDelta only | (fail_if_no_progress with_reducible refine Keeps.record ?_)

theorem State.crst_keeps {s0 : State} (s : State) (k : Nat) (hk : Keeps s0 s) : Keeps s0 (State.crst s k) := by
  unfold State.crst
  repeat' first
    | with_reducible assumption | with_reducible exact Keeps.refl _ | with_reducible apply State.clearContexts_keeps
    | with_reducible apply State.eraseKeys_keeps | with_reducible apply State.forceRekey_keeps
    | with_reducible apply State.put_keeps | with_reducible apply State.resetCd_keeps
    | with_reducible apply State.resetMd_keeps | with_reducible apply State.resetRegs_keeps
    | with_reducible apply State.scrubErase_keeps | with_reducible apply Keeps.foldl1 | extract_lets
    | with_reducible apply Keeps.cond | with_reducible apply KeepsOut.cond | with_reducible apply Keeps.foldl
    | (with_reducible apply Keeps.snd (by assumption)) | (with_reducible apply Keeps.fst (by assumption)) | intro _
    | split | fail_if_no_progress dsimp +zetaDelta only | (fail_if_no_progress with_reducible refine Keeps.record ?_)

theorem State.hold_keeps {s0 : State} (s : State) (d : Fin 40) (q : Fin 4) (w : Cmd) (st : Nat) (hk : Keeps s0 s) :
    Keeps s0 (State.hold s d q w st) := by
  unfold State.hold
  repeat' first
    | with_reducible assumption | with_reducible exact Keeps.refl _ | with_reducible apply State.setQState_keeps
    | with_reducible apply State.setQue_keeps

theorem State.trainFabric_keeps {s0 : State} (s : State) (log : Nat) (hk : Keeps s0 s) : Keeps s0 (State.trainFabric s log) := by
  unfold State.trainFabric
  repeat' first
    | with_reducible assumption | with_reducible exact Keeps.refl _ | with_reducible apply State.put_keeps
    | with_reducible apply Keeps.foldl1 | extract_lets | with_reducible apply Keeps.cond
    | with_reducible apply KeepsOut.cond | with_reducible apply Keeps.foldl | intro _

theorem State.holdDies_keeps {s0 : State} (s : State) (ds : List Nat) (hold : Bool) (hk : Keeps s0 s) : Keeps s0
    (State.holdDies s ds hold) := by
  unfold State.holdDies
  repeat' first
    | with_reducible assumption | with_reducible exact Keeps.refl _ | with_reducible apply State.hold_keeps
    | with_reducible apply State.trainFabric_keeps | with_reducible apply Keeps.foldl1 | extract_lets
    | with_reducible apply Keeps.cond | with_reducible apply KeepsOut.cond | with_reducible apply Keeps.foldl
    | (with_reducible apply Keeps.snd (by assumption)) | (with_reducible apply Keeps.fst (by assumption)) | intro _
    | split | fail_if_no_progress dsimp +zetaDelta only | (fail_if_no_progress with_reducible refine Keeps.record ?_)

theorem State.dropHostKeys_keeps {s0 : State} (s : State) (k : Nat) (hk : Keeps s0 s) : Keeps s0 (State.dropHostKeys s k) := by
  unfold State.dropHostKeys
  repeat' first
    | with_reducible assumption | with_reducible exact Keeps.refl _ | with_reducible apply State.setCanton_keeps

theorem State.resetHd_keeps {s0 : State} (s : State) (hk : Keeps s0 s) : Keeps s0 (State.resetHd s) := by
  unfold State.resetHd
  repeat' first
    | with_reducible assumption | with_reducible exact Keeps.refl _ | with_reducible apply State.dropHostKeys_keeps
    | with_reducible apply State.put_keeps | with_reducible apply State.resetRegs_keeps
    | with_reducible apply State.setSec_keeps | with_reducible apply Keeps.foldl1 | extract_lets
    | with_reducible apply Keeps.cond | with_reducible apply KeepsOut.cond | with_reducible apply Keeps.foldl
    | (with_reducible apply Keeps.snd (by assumption)) | (with_reducible apply Keeps.fst (by assumption)) | intro _
    | split | fail_if_no_progress dsimp +zetaDelta only | (fail_if_no_progress with_reducible refine Keeps.record ?_)

theorem State.seedDie_keeps {s0 : State} (s : State) (seed : List Byte) (die : Nat) (hk : Keeps s0 s) : Keeps s0
    (State.seedDie s seed die) := by
  unfold State.seedDie
  repeat' first
    | with_reducible assumption | with_reducible exact Keeps.refl _ | with_reducible apply State.bump_keeps
    | with_reducible apply State.put_keeps | with_reducible apply State.setCd_keeps
    | with_reducible apply State.setUe_keeps | with_reducible apply Keeps.foldl1 | extract_lets
    | with_reducible apply Keeps.cond | with_reducible apply KeepsOut.cond | with_reducible apply Keeps.foldl
    | intro _

theorem State.runReset_keeps {s0 : State} (s : State) (r : ResetReq) (hk : Keeps s0 s) : Keeps s0 (State.runReset s r) := by
  unfold State.runReset
  repeat' first
    | with_reducible assumption | with_reducible exact Keeps.refl _ | with_reducible apply State.beginStart_keeps
    | with_reducible apply State.crst_keeps | with_reducible apply State.holdDies_keeps
    | with_reducible apply State.resetCd_keeps | with_reducible apply State.resetHd_keeps
    | with_reducible apply State.resetLd_keeps | with_reducible apply State.seedDie_keeps
    | with_reducible apply State.startTraining_keeps | with_reducible apply Keeps.foldl1 | extract_lets
    | with_reducible apply Keeps.cond | with_reducible apply KeepsOut.cond | with_reducible apply Keeps.foldl
    | intro _

theorem State.startReset_keeps {s0 : State} (s : State) (r : ResetReq) (src : Nat) (hk : Keeps s0 s) : Keeps s0
    (State.startReset s r src) := by
  unfold State.startReset
  repeat' first
    | with_reducible assumption | with_reducible exact Keeps.refl _ | with_reducible apply State.resetEvent_keeps
    | with_reducible apply State.runReset_keeps | with_reducible apply State.setPwr_keeps

theorem State.askReset_keeps {s0 : State} (s : State) (r : ResetReq) (src : Nat) (hk : Keeps s0 s) : Keeps s0
    (State.askReset s r src).1 := by
  unfold State.askReset
  repeat' first
    | with_reducible assumption | with_reducible exact Keeps.refl _ | with_reducible apply State.setPwr_keeps
    | with_reducible apply State.startReset_keeps | with_reducible apply Keeps.foldl1 | extract_lets
    | with_reducible apply Keeps.cond | with_reducible apply KeepsOut.cond | with_reducible apply Keeps.foldl
    | (with_reducible apply Keeps.snd (by assumption)) | (with_reducible apply Keeps.fst (by assumption)) | intro _
    | split

theorem State.deferSync_keeps {s0 : State} (s : State) (hk : Keeps s0 s) : Keeps s0 (State.deferSync s) := by
  unfold State.deferSync
  repeat' first
    | with_reducible assumption | with_reducible exact Keeps.refl _ | with_reducible apply State.put_keeps
    | with_reducible apply State.setPwr_keeps | with_reducible apply Keeps.foldl1 | extract_lets
    | with_reducible apply Keeps.cond | with_reducible apply KeepsOut.cond | with_reducible apply Keeps.foldl
    | intro _

theorem State.lastGasp_keeps {s0 : State} (s : State) (cause : Nat) (hk : Keeps s0 s) : Keeps s0 (State.lastGasp s cause) := by
  unfold State.lastGasp
  repeat' first
    | with_reducible assumption | with_reducible exact Keeps.refl _ | with_reducible apply State.deferSync_keeps
    | with_reducible apply State.setPwr_keeps | with_reducible apply State.setRel_keeps

theorem State.fatalMrst_keeps {s0 : State} (s : State) (hk : Keeps s0 s) : Keeps s0 (State.fatalMrst s) := by
  unfold State.fatalMrst
  repeat' first
    | with_reducible assumption | with_reducible exact Keeps.refl _ | with_reducible apply State.askReset_keeps
    | with_reducible apply State.lastGasp_keeps | with_reducible apply State.setPwr_keeps
    | with_reducible apply Keeps.foldl1 | extract_lets | with_reducible apply Keeps.cond
    | with_reducible apply KeepsOut.cond | with_reducible apply Keeps.foldl | intro _

theorem State.actOn_keeps {s0 : State} (s : State) (e : Event) (hk : Keeps s0 s) : Keeps s0 (State.actOn s e) := by
  unfold State.actOn
  repeat' first
    | with_reducible assumption | with_reducible exact Keeps.refl _ | with_reducible apply State.contain_keeps
    | with_reducible apply State.fatalMrst_keeps | with_reducible apply Keeps.foldl1 | extract_lets
    | with_reducible apply Keeps.cond | with_reducible apply KeepsOut.cond | with_reducible apply Keeps.foldl
    | (with_reducible apply Keeps.snd (by assumption)) | (with_reducible apply Keeps.fst (by assumption)) | intro _
    | split

theorem State.maSync_keeps {s0 : State} (s : State) (d : Fin 40) (a : Fin 4) (hk : Keeps s0 s) : Keeps s0 (State.maSync
    s d a) := by
  unfold State.maSync
  repeat' first
    | with_reducible assumption | with_reducible exact Keeps.refl _ | with_reducible apply State.put_keeps

theorem State.maShow_keeps {s0 : State} (s : State) (d : Fin 40) (a : Fin 4) (hk : Keeps s0 s) : Keeps s0 (State.maShow
    s d a) := by
  unfold State.maShow
  repeat' first
    | with_reducible assumption | with_reducible exact Keeps.refl _ | with_reducible apply State.maSync_keeps
    | with_reducible apply State.put_keeps

theorem State.veShow_keeps {s0 : State} (s : State) (d : Fin 40) (hk : Keeps s0 s) : Keeps s0 (State.veShow s d) := by
  unfold State.veShow
  repeat' first
    | with_reducible assumption | with_reducible exact Keeps.refl _ | with_reducible apply State.put_keeps

theorem State.readSync_keeps {s0 : State} (s : State) (a : Nat) (hk : Keeps s0 s) : Keeps s0 (State.readSync s a) := by
  unfold State.readSync
  repeat' first
    | with_reducible assumption | with_reducible exact Keeps.refl _ | with_reducible apply State.cadTick_keeps
    | with_reducible apply State.maShow_keeps | with_reducible apply State.veShow_keeps
    | with_reducible apply Keeps.foldl1 | extract_lets | with_reducible apply Keeps.cond
    | with_reducible apply KeepsOut.cond | with_reducible apply Keeps.foldl
    | (with_reducible apply Keeps.snd (by assumption)) | (with_reducible apply Keeps.fst (by assumption)) | intro _
    | split

theorem State.setSx_keeps {s0 : State} (s : State) (m : Fin 16) (x : Sx) (hk : Keeps s0 s) : Keeps s0 (State.setSx s m x) := by
  unfold State.setSx
  repeat' first
    | with_reducible assumption | with_reducible exact Keeps.refl _ | with_reducible apply Keeps.foldl1 | extract_lets
    | with_reducible apply Keeps.cond | with_reducible apply KeepsOut.cond | with_reducible apply Keeps.foldl
    | (with_reducible apply Keeps.snd (by assumption)) | (with_reducible apply Keeps.fst (by assumption)) | intro _
    | split | fail_if_no_progress dsimp +zetaDelta only | (fail_if_no_progress with_reducible refine Keeps.record ?_)

theorem State.sealEvent_keeps {s0 : State} (s : State) (m : Fin 16) (c : Fin 2) (code : Nat) (entry : Nat) (mpa : Nat)
    (hk : Keeps s0 s) : Keeps s0 (State.sealEvent s m c code entry mpa) := by
  unfold State.sealEvent
  repeat' first
    | with_reducible assumption | with_reducible exact Keeps.refl _ | with_reducible apply State.raise_keeps

theorem State.setChan_keeps {s0 : State} (s : State) (m : Fin 16) (c : Fin 2) (x : SealChan) (hk : Keeps s0 s) : Keeps
    s0 (State.setChan s m c x) := by
  unfold State.setChan
  repeat' first
    | with_reducible assumption | with_reducible exact Keeps.refl _ | with_reducible apply State.setEng_keeps

theorem State.corrected_keeps {s0 : State} (s : State) (m : Fin 16) (c : Fin 2) (hk : Keeps s0 s) : Keeps s0
    (State.corrected s m c) := by
  unfold State.corrected
  repeat' first
    | with_reducible assumption | with_reducible exact Keeps.refl _ | with_reducible apply State.bump_keeps
    | with_reducible apply State.sealEvent_keeps | with_reducible apply State.setChan_keeps
    | with_reducible apply Keeps.foldl1 | extract_lets | with_reducible apply Keeps.cond
    | with_reducible apply KeepsOut.cond | with_reducible apply Keeps.foldl | intro _

theorem State.stopCanton_keeps {s0 : State} (s : State) (m : Fin 16) (hk : Keeps s0 s) : Keeps s0 (State.stopCanton s m) := by
  unfold State.stopCanton
  repeat' first
    | with_reducible assumption | with_reducible exact Keeps.refl _ | with_reducible apply State.put_keeps
    | with_reducible apply State.setEng_keeps | with_reducible apply Keeps.foldl1 | extract_lets
    | with_reducible apply Keeps.cond | with_reducible apply KeepsOut.cond | with_reducible apply Keeps.foldl
    | intro _

theorem State.tagFail_keeps {s0 : State} (s : State) (m : Fin 16) (hk : Keeps s0 s) : Keeps s0 (State.tagFail s m) := by
  unfold State.tagFail
  repeat' first
    | with_reducible assumption | with_reducible exact Keeps.refl _ | with_reducible apply State.bump_keeps
    | with_reducible apply State.put_keeps

theorem State.cacheStage_keeps {s0 : State} (s : State) (m : Fin 16) (c : Fin 2) (f : CacheFault) (hk : Keeps s0 s) :
    Keeps s0 (s.cacheStage m c f).1 := by
  cases f
  · exact hk
  · exact State.sealEvent_keeps _ _ _ _ _ _ (State.bump_keeps _ _ _ _ (State.put_keeps _ _ _ _ hk))
  · exact State.sealEvent_keeps _ _ _ _ _ _ (State.stopCanton_keeps _ _ (State.put_keeps _ _ _ _ hk))
  · exact State.sealEvent_keeps _ _ _ _ _ _ (State.stopCanton_keeps _ _ (State.tagFail_keeps _ _ hk))

theorem State.addPoison_keeps {s0 : State} (s : State) (m : Fin 16) (c : Fin 2) (cls : Nat) (l : Nat) (security : Bool)
    (hk : Keeps s0 s) : Keeps s0 (State.addPoison s m c cls l security) := by
  unfold State.addPoison
  try dsimp only
  repeat' first
    | with_reducible assumption | with_reducible exact Keeps.refl _ | with_reducible apply State.bump_keeps
    | with_reducible apply State.put_keeps | with_reducible apply State.sealEvent_keeps
    | with_reducible apply State.setEng_keeps | with_reducible apply State.stopCanton_keeps
    | with_reducible apply State.syncPoison_keeps | with_reducible apply Keeps.foldl1
    | with_reducible apply Keeps.cond | with_reducible apply KeepsOut.cond | with_reducible apply Keeps.foldl
    | (with_reducible apply Keeps.snd (by assumption)) | (with_reducible apply Keeps.fst (by assumption)) | intro _
    | split

theorem State.failItem_keeps {s0 : State} (s : State) (m : Fin 16) (c : Fin 2) (cls : Nat) (l : Nat) (code : Nat)
    (badTag : Bool) (hk : Keeps s0 s) : Keeps s0 (State.failItem s m c cls l code badTag) := by
  unfold State.failItem
  repeat' first
    | with_reducible assumption | with_reducible exact Keeps.refl _ | with_reducible apply State.addPoison_keeps
    | with_reducible apply State.sealEvent_keeps | with_reducible apply State.tagFail_keeps
    | with_reducible apply Keeps.foldl1 | extract_lets | with_reducible apply Keeps.cond
    | with_reducible apply KeepsOut.cond | with_reducible apply Keeps.foldl | intro _

theorem State.noteFetch_keeps {s0 : State} (s : State) (m : Fin 16) (c : Fin 2) (b : BurstErrs) (hk : Keeps s0 s) :
    Keeps s0 (State.noteFetch s m c b) := by
  unfold State.noteFetch
  repeat' first
    | with_reducible assumption | with_reducible exact Keeps.refl _ | with_reducible apply State.bump_keeps
    | with_reducible apply State.corrected_keeps | with_reducible apply Keeps.foldl1 | extract_lets
    | with_reducible apply Keeps.cond | with_reducible apply KeepsOut.cond | with_reducible apply Keeps.foldl
    | (with_reducible apply Keeps.snd (by assumption)) | (with_reducible apply Keeps.fst (by assumption)) | intro _
    | split

theorem State.dataStage_keeps {s0 : State} (s : State) (m : Fin 16) (c : Fin 2) (l : Nat) (f : Fetched) (tag : Bool)
    (part : Bool) (hk : Keeps s0 s) : Keeps s0 (State.dataStage s m c l f tag part).1 := by
  unfold State.dataStage
  repeat' first
    | with_reducible assumption | with_reducible exact Keeps.refl _ | with_reducible apply State.failItem_keeps
    | with_reducible apply State.noteFetch_keeps | with_reducible apply Keeps.foldl1 | extract_lets
    | with_reducible apply Keeps.cond | with_reducible apply KeepsOut.cond | with_reducible apply Keeps.foldl
    | (with_reducible apply Keeps.snd (by assumption)) | (with_reducible apply Keeps.fst (by assumption)) | intro _
    | split

theorem State.checkKid_keeps {s0 : State} (s : State) (m : Fin 16) (ln : SealLine) (errs : List BurstErrs) (hk : Keeps
    s0 s) : Keeps s0 (State.checkKid s m ln errs) := by
  unfold State.checkKid
  repeat' first
    | with_reducible assumption | with_reducible exact Keeps.refl _ | with_reducible apply State.corrected_keeps
    | with_reducible apply State.failItem_keeps | with_reducible apply State.noteFetch_keeps
    | with_reducible apply State.sealEvent_keeps | with_reducible apply State.tagFail_keeps
    | with_reducible apply Keeps.foldl1 | extract_lets | with_reducible apply Keeps.cond
    | with_reducible apply KeepsOut.cond | with_reducible apply Keeps.foldl | intro _

theorem State.dirty_keeps {s0 : State} (s : State) (m : Fin 16) (ln : SealLine) (hk : Keeps s0 s) : Keeps s0
    (State.dirty s m ln) := by
  unfold State.dirty
  repeat' first
    | with_reducible assumption | with_reducible exact Keeps.refl _ | with_reducible apply State.setEng_keeps

theorem State.sealTally_keeps {s0 : State} (s : State) (m : Fin 16) (a : Nat) (n : Nat) (hk : Keeps s0 s) : Keeps s0
    (State.sealTally s m a n) := by
  unfold State.sealTally
  repeat' first
    | with_reducible assumption | with_reducible exact Keeps.refl _ | with_reducible apply State.bump_keeps
    | with_reducible apply Keeps.foldl1 | extract_lets | with_reducible apply Keeps.cond
    | with_reducible apply KeepsOut.cond | with_reducible apply Keeps.foldl | intro _

theorem State.touchLine_keeps {s0 : State} (s : State) (m : Fin 16) (ln : SealLine) (kids : List (Fin 64 × BurstErrs))
    (hk : Keeps s0 s) : Keeps s0 (State.touchLine s m ln kids) := by
  unfold State.touchLine
  repeat' first
    | with_reducible assumption | with_reducible exact Keeps.refl _ | with_reducible apply State.checkKid_keeps
    | with_reducible apply State.dirty_keeps | with_reducible apply State.sealTally_keeps
    | with_reducible apply State.setChan_keeps | with_reducible apply Keeps.foldl1 | extract_lets
    | with_reducible apply Keeps.cond | with_reducible apply KeepsOut.cond | with_reducible apply Keeps.foldl
    | intro _

theorem State.evictOne_keeps {s0 : State} (s : State) (m : Fin 16) (kids : List (Fin 64 × BurstErrs)) (ln : SealLine)
    (hk : Keeps s0 s) : Keeps s0 (State.evictOne s m kids ln) := by
  unfold State.evictOne
  repeat' first
    | with_reducible assumption | with_reducible exact Keeps.refl _ | with_reducible apply State.setEng_keeps
    | with_reducible apply State.touchLine_keeps | with_reducible apply Keeps.foldl1 | extract_lets
    | with_reducible apply Keeps.cond | with_reducible apply KeepsOut.cond | with_reducible apply Keeps.foldl
    | (with_reducible apply Keeps.snd (by assumption)) | (with_reducible apply Keeps.fst (by assumption)) | intro _
    | split

theorem State.evictLine_keeps {s0 : State} (s : State) (m : Fin 16) (kids : List (Fin 64 × BurstErrs)) (ln : SealLine)
    (hk : Keeps s0 s) : Keeps s0 (State.evictLine s m kids ln) := by
  unfold State.evictLine
  repeat' first
    | with_reducible assumption | with_reducible exact Keeps.refl _ | with_reducible apply State.evictOne_keeps
    | with_reducible apply Keeps.foldl1 | extract_lets | with_reducible apply Keeps.cond
    | with_reducible apply KeepsOut.cond | with_reducible apply Keeps.foldl | intro _

theorem State.fillLine_keeps {s0 : State} (s : State) (m : Fin 16) (kids : List (Fin 64 × BurstErrs)) (ln : SealLine)
    (hk : Keeps s0 s) : Keeps s0 (State.fillLine s m kids ln) := by
  unfold State.fillLine
  repeat' first
    | with_reducible assumption | with_reducible exact Keeps.refl _ | with_reducible apply State.evictLine_keeps
    | with_reducible apply State.setEng_keeps | with_reducible apply Keeps.foldl1 | extract_lets
    | with_reducible apply Keeps.cond | with_reducible apply KeepsOut.cond | with_reducible apply Keeps.foldl
    | (with_reducible apply Keeps.snd (by assumption)) | (with_reducible apply Keeps.fst (by assumption)) | intro _
    | split

theorem State.l2Stage_keeps {s0 : State} (s : State) (m : Fin 16) (c : Fin 2) (l : Nat) (f : Fetched) (hk : Keeps s0 s)
    : Keeps s0 (State.l2Stage s m c l f).1 := by
  unfold State.l2Stage
  repeat' first
    | with_reducible assumption | with_reducible exact Keeps.refl _ | with_reducible apply State.failItem_keeps
    | with_reducible apply State.fillLine_keeps | with_reducible apply State.noteFetch_keeps
    | with_reducible apply State.sealEvent_keeps | with_reducible apply State.sealTally_keeps
    | with_reducible apply State.tagFail_keeps | with_reducible apply Keeps.foldl1 | extract_lets
    | with_reducible apply Keeps.cond | with_reducible apply KeepsOut.cond | with_reducible apply Keeps.foldl
    | (with_reducible apply Keeps.snd (by assumption)) | (with_reducible apply Keeps.fst (by assumption)) | intro _
    | split

theorem thenStage_keeps {s0 : State} (r : State × Bool) (f : State → State × Bool) (hk : Keeps s0 r.1)
    (hf : ∀ t, Keeps s0 t → Keeps s0 (f t).1) : Keeps s0 (thenStage r f).1 := by
  unfold thenStage
  split
  · exact hf _ hk
  · exact hk

theorem State.l1Stage_keeps {s0 : State} (s : State) (m : Fin 16) (c : Fin 2) (l : Nat) (f : Fetched) (hk : Keeps s0 s)
    : Keeps s0 (State.l1Stage s m c l f).1 := by
  unfold State.l1Stage
  repeat' first
    | with_reducible assumption | with_reducible exact Keeps.refl _ | with_reducible apply State.failItem_keeps
    | with_reducible apply State.fillLine_keeps | with_reducible apply State.l2Stage_keeps
    | with_reducible apply State.noteFetch_keeps | with_reducible apply State.sealTally_keeps
    | with_reducible apply thenStage_keeps | with_reducible apply Keeps.foldl1 | extract_lets
    | with_reducible apply Keeps.cond | with_reducible apply KeepsOut.cond | with_reducible apply Keeps.foldl
    | (with_reducible apply Keeps.snd (by assumption)) | (with_reducible apply Keeps.fst (by assumption)) | intro _
    | split

theorem State.tagStage_keeps {s0 : State} (s : State) (m : Fin 16) (c : Fin 2) (l : Nat) (f : Fetched) (hk : Keeps s0 s)
    : Keeps s0 (State.tagStage s m c l f).1 := by
  unfold State.tagStage
  repeat' first
    | with_reducible assumption | with_reducible exact Keeps.refl _ | with_reducible apply State.failItem_keeps
    | with_reducible apply State.fillLine_keeps | with_reducible apply State.noteFetch_keeps
    | with_reducible apply State.sealTally_keeps | with_reducible apply Keeps.foldl1 | extract_lets
    | with_reducible apply Keeps.cond | with_reducible apply KeepsOut.cond | with_reducible apply Keeps.foldl
    | (with_reducible apply Keeps.snd (by assumption)) | (with_reducible apply Keeps.fst (by assumption)) | intro _
    | split

theorem State.fetchBlock_keeps {s0 : State} (s : State) (m : Fin 16) (c : Fin 2) (l : Nat) (f : Fetched) (old : Bool)
    (part : Bool) (hk : Keeps s0 s) : Keeps s0 (State.fetchBlock s m c l f old part).1 := by
  unfold State.fetchBlock
  repeat' first
    | with_reducible assumption | with_reducible exact Keeps.refl _ | with_reducible apply State.cacheStage_keeps
    | with_reducible apply State.dataStage_keeps | with_reducible apply State.evictLine_keeps
    | with_reducible apply State.l1Stage_keeps | with_reducible apply State.sealTally_keeps
    | with_reducible apply State.tagStage_keeps | with_reducible apply State.wr_keeps
    | with_reducible apply thenStage_keeps | with_reducible apply Keeps.foldl1 | extract_lets
    | with_reducible apply Keeps.cond | with_reducible apply KeepsOut.cond | with_reducible apply Keeps.foldl
    | (with_reducible apply Keeps.snd (by assumption)) | (with_reducible apply Keeps.fst (by assumption)) | intro _
    | split

theorem State.overflowTags_keeps {s0 : State} (s : State) (m : Fin 16) (c : Fin 2) (line : Nat) (own : Nat) (f :
    Fetched) (j : Nat) (hk : Keeps s0 s) : Keeps s0 (State.overflowTags s m c line own f j) := by
  unfold State.overflowTags
  repeat' first
    | with_reducible assumption | with_reducible exact Keeps.refl _ | with_reducible apply State.dirty_keeps
    | with_reducible apply State.failItem_keeps | with_reducible apply State.fillLine_keeps
    | with_reducible apply State.noteFetch_keeps | with_reducible apply State.sealTally_keeps
    | with_reducible apply Keeps.foldl1 | extract_lets | with_reducible apply Keeps.cond
    | with_reducible apply KeepsOut.cond | with_reducible apply Keeps.foldl | intro _

theorem State.nextCounter_keeps {s0 : State} (s : State) (m : Fin 16) (c : Fin 2) (l : Nat) (f : Fetched) (hk : Keeps s0
    s) : Keeps s0 (State.nextCounter s m c l f) := by
  unfold State.nextCounter
  repeat' first
    | with_reducible assumption | with_reducible exact Keeps.refl _ | with_reducible apply State.dirty_keeps
    | with_reducible apply State.overflowTags_keeps | with_reducible apply State.sealTally_keeps
    | with_reducible apply State.setChan_keeps | with_reducible apply Keeps.foldl1 | extract_lets
    | with_reducible apply Keeps.cond | with_reducible apply KeepsOut.cond | with_reducible apply Keeps.foldl
    | intro _

theorem State.putBytes_keeps {s0 : State} (s : State) (a : Nat) (bs : List Byte) (hk : Keeps s0 s) :
    Keeps s0 (s.putBytes a bs) :=
  ⟨hk.pending, fun k => State.putBytes_wf s a bs (hk.mem k), hk.regs, hk.poison⟩

theorem State.dramPut_keeps {s0 : State} (s : State) (a : Nat) (bs : List Byte) (hk : Keeps s0 s) : Keeps s0
    (State.dramPut s a bs) := by
  unfold State.dramPut
  repeat' first
    | with_reducible assumption | with_reducible exact Keeps.refl _ | with_reducible apply State.fetchBlock_keeps
    | with_reducible apply State.nextCounter_keeps | with_reducible apply State.putBytes_keeps
    | with_reducible apply Keeps.foldl1 | extract_lets | with_reducible apply Keeps.cond
    | with_reducible apply KeepsOut.cond | with_reducible apply Keeps.foldl
    | (with_reducible apply Keeps.snd (by assumption)) | (with_reducible apply Keeps.fst (by assumption)) | intro _
    | split

theorem State.sxPut_keeps {s0 : State} (s : State) (m : Fin 16) (i : Nat) (off : Nat) (n : Nat) (v : Nat) (hk : Keeps s0
    s) : Keeps s0 (State.sxPut s m i off n v) := by
  unfold State.sxPut
  repeat' first
    | with_reducible assumption | with_reducible exact Keeps.refl _ | with_reducible apply State.dramPut_keeps

theorem State.sxState_keeps {s0 : State} (s : State) (m : Fin 16) (i : Nat) (v : Nat) (hk : Keeps s0 s) : Keeps s0
    (State.sxState s m i v) := by
  unfold State.sxState
  repeat' first
    | with_reducible assumption | with_reducible exact Keeps.refl _ | with_reducible apply State.sxPut_keeps

theorem State.sxLead_keeps {s0 : State} (s : State) (m : Fin 16) (i : Nat) (v : Nat) (hk : Keeps s0 s) : Keeps s0
    (State.sxLead s m i v) := by
  unfold State.sxLead
  repeat' first
    | with_reducible assumption | with_reducible exact Keeps.refl _ | with_reducible apply State.sxPut_keeps

theorem State.sxFault_keeps {s0 : State} (s : State) (m : Fin 16) (code : Nat) (shard : Nat) (hk : Keeps s0 s) : Keeps
    s0 (State.sxFault s m code shard) := by
  unfold State.sxFault
  repeat' first
    | with_reducible assumption | with_reducible exact Keeps.refl _ | with_reducible apply State.wr_keeps
    | with_reducible apply Keeps.foldl1 | extract_lets | with_reducible apply Keeps.cond
    | with_reducible apply KeepsOut.cond | with_reducible apply Keeps.foldl | intro _

theorem State.sxEvent_keeps {s0 : State} (s : State) (m : Fin 16) (code : Nat) (e : SxEntry) (hk : Keeps s0 s) : Keeps
    s0 (State.sxEvent s m code e) := by
  unfold State.sxEvent
  repeat' first
    | with_reducible assumption | with_reducible exact Keeps.refl _ | with_reducible apply State.raise_keeps

theorem State.sxTally_keeps {s0 : State} (s : State) (m : Fin 16) (a : Nat) (n : Nat) (hk : Keeps s0 s) : Keeps s0
    (State.sxTally s m a n) := by
  unfold State.sxTally
  repeat' first
    | with_reducible assumption | with_reducible exact Keeps.refl _ | with_reducible apply State.bump_keeps
    | with_reducible apply Keeps.foldl1 | extract_lets | with_reducible apply Keeps.cond
    | with_reducible apply KeepsOut.cond | with_reducible apply Keeps.foldl | intro _

theorem State.sxSync_keeps {s0 : State} (s : State) (m : Fin 16) (hk : Keeps s0 s) : Keeps s0 (State.sxSync s m) := by
  unfold State.sxSync
  repeat' first
    | with_reducible assumption | with_reducible exact Keeps.refl _ | with_reducible apply State.put_keeps

theorem State.sxQueue_keeps {s0 : State} (s : State) (m : Fin 16) (i : SxItem) (hk : Keeps s0 s) : Keeps s0
    (State.sxQueue s m i) := by
  unfold State.sxQueue
  repeat' first
    | with_reducible assumption | with_reducible exact Keeps.refl _ | with_reducible apply Keeps.foldl1 | extract_lets
    | with_reducible apply Keeps.cond | with_reducible apply KeepsOut.cond | with_reducible apply Keeps.foldl
    | (with_reducible apply Keeps.snd (by assumption)) | (with_reducible apply Keeps.fst (by assumption)) | intro _
    | split | fail_if_no_progress dsimp +zetaDelta only | (fail_if_no_progress with_reducible refine Keeps.record ?_)

theorem State.notice_keeps {s0 : State} (s : State) (m : Fin 16) (f : SiteFrame) (kind : Nat) (named : Nat) (round :
    Nat) (lineage : Nat) (hk : Keeps s0 s) : Keeps s0 (State.notice s m f kind named round lineage) := by
  unfold State.notice
  repeat' first
    | with_reducible assumption | with_reducible exact Keeps.refl _ | with_reducible apply State.sxQueue_keeps

theorem State.sxDrop_keeps {s0 : State} (s : State) (m : Fin 16) (shard : Nat) (types : List Nat) (hk : Keeps s0 s) :
    Keeps s0 (State.sxDrop s m shard types) := by
  unfold State.sxDrop
  repeat' first
    | with_reducible assumption | with_reducible exact Keeps.refl _ | with_reducible apply State.setSx_keeps
    | with_reducible apply Keeps.foldl1 | extract_lets | with_reducible apply Keeps.cond
    | with_reducible apply KeepsOut.cond | with_reducible apply Keeps.foldl
    | (with_reducible apply Keeps.snd (by assumption)) | (with_reducible apply Keeps.fst (by assumption)) | intro _
    | split | fail_if_no_progress dsimp +zetaDelta only | (fail_if_no_progress with_reducible refine Keeps.record ?_)

theorem State.sxDropChunks_keeps {s0 : State} (s : State) (m : Fin 16) (shard : Nat) (out : Nat → Bool) (hk : Keeps s0
    s) : Keeps s0 (State.sxDropChunks s m shard out) := by
  unfold State.sxDropChunks
  repeat' first
    | with_reducible assumption | with_reducible exact Keeps.refl _ | with_reducible apply State.setSx_keeps
    | with_reducible apply Keeps.foldl1 | extract_lets | with_reducible apply Keeps.cond
    | with_reducible apply KeepsOut.cond | with_reducible apply Keeps.foldl
    | (with_reducible apply Keeps.snd (by assumption)) | (with_reducible apply Keeps.fst (by assumption)) | intro _
    | split | fail_if_no_progress dsimp +zetaDelta only | (fail_if_no_progress with_reducible refine Keeps.record ?_)

theorem State.forward_keeps {s0 : State} (s : State) (src : Nat) (op : MpaOp) (a : Nat) (hk : Keeps s0 s) : Keeps s0
    (State.forward s src op a) := by
  unfold State.forward
  repeat' first
    | with_reducible assumption | with_reducible exact Keeps.refl _ | with_reducible apply State.setMd_keeps
    | with_reducible apply Keeps.foldl1 | extract_lets | with_reducible apply Keeps.cond
    | with_reducible apply KeepsOut.cond | with_reducible apply Keeps.foldl
    | (with_reducible apply Keeps.snd (by assumption)) | (with_reducible apply Keeps.fst (by assumption)) | intro _
    | split

theorem State.newReq_keeps {s0 : State} (s : State) (hk : Keeps s0 s) : Keeps s0 (State.newReq s) := by
  unfold State.newReq
  repeat' first
    | with_reducible assumption | with_reducible exact Keeps.refl _ | with_reducible apply Keeps.foldl1 | extract_lets
    | with_reducible apply Keeps.cond | with_reducible apply KeepsOut.cond | with_reducible apply Keeps.foldl
    | (with_reducible apply Keeps.snd (by assumption)) | (with_reducible apply Keeps.fst (by assumption)) | intro _
    | split | fail_if_no_progress dsimp +zetaDelta only | (fail_if_no_progress with_reducible refine Keeps.record ?_)

theorem State.storeWrite_keeps {s0 : State} (s : State) (a : Nat) (bs : List Byte) (hk : Keeps s0 s) : Keeps s0
    (State.storeWrite s a bs) := by
  unfold State.storeWrite
  repeat' first
    | with_reducible assumption | with_reducible exact Keeps.refl _ | with_reducible apply State.coverLines_keeps
    | with_reducible apply State.putBytes_keeps

theorem State.mergeWrite_keeps {s0 : State} (s : State) (a : Nat) (bs : List Byte) (hk : Keeps s0 s) :
    Keeps s0 (s.mergeWrite a bs).1 := by
  unfold State.mergeWrite
  extract_lets lead tail whole part t1 t2
  have hp : ∀ (t : State × Bool) x l, Keeps s0 t.1 → Keeps s0 (part t x l).1 := by
    intro t x l h
    simp only [part]
    split
    · exact h
    split
    · exact h
    · exact State.storeWrite_keeps _ _ _ h
  have h1 : Keeps s0 t1.1 := hp _ _ _ hk
  have h2 : Keeps s0 t2.1 := by
    simp only [t2]
    split
    · exact h1
    · exact State.storeWrite_keeps _ _ _ h1
  exact hp _ _ _ h2

theorem State.putNum_keeps {s0 : State} (s : State) (a : Nat) (n : Nat) (v : Nat) (hk : Keeps s0 s) : Keeps s0
    (State.putNum s a n v) := by
  unfold State.putNum
  repeat' first
    | with_reducible assumption | with_reducible exact Keeps.refl _ | with_reducible apply State.putBytes_keeps

theorem State.storeApply_keeps {s0 : State} (s : State) (a : Nat) (op : MpaOp) (hk : Keeps s0 s) : Keeps s0
    (State.storeApply s a op).1 := by
  unfold State.storeApply
  repeat' first
    | with_reducible assumption | with_reducible exact Keeps.refl _ | with_reducible apply State.mergeWrite_keeps
    | with_reducible apply State.putNum_keeps | with_reducible apply Keeps.foldl1 | extract_lets
    | with_reducible apply Keeps.cond | with_reducible apply KeepsOut.cond | with_reducible apply Keeps.foldl
    | (with_reducible apply Keeps.snd (by assumption)) | (with_reducible apply Keeps.fst (by assumption)) | intro _
    | split

theorem State.storePost_keeps {s0 : State} (s : State) (src : Nat) (d : Nat) (off : Nat) (a : Nat) (op : MpaOp) (hk :
    Keeps s0 s) : Keeps s0 (State.storePost s src d off a op) := by
  unfold State.storePost
  repeat' first
    | with_reducible assumption | with_reducible exact Keeps.refl _ | with_reducible apply State.setCd_keeps
    | with_reducible apply State.storeApply_keeps | with_reducible apply Keeps.foldl1 | extract_lets
    | with_reducible apply Keeps.cond | with_reducible apply KeepsOut.cond | with_reducible apply Keeps.foldl
    | (with_reducible apply Keeps.snd (by assumption)) | (with_reducible apply Keeps.fst (by assumption)) | intro _
    | split | fail_if_no_progress dsimp +zetaDelta only | (fail_if_no_progress with_reducible refine Keeps.record ?_)

theorem State.mpaAdd_keeps {s0 : State} (s : State) (src : Nat) (a : Nat) (inc : Nat) (hk : Keeps s0 s) : Keeps s0
    (State.mpaAdd s src a inc) := by
  unfold State.mpaAdd
  repeat' first
    | with_reducible assumption | with_reducible exact Keeps.refl _ | with_reducible apply State.forward_keeps
    | with_reducible apply State.newReq_keeps | with_reducible apply State.storePost_keeps
    | with_reducible apply Keeps.foldl1 | extract_lets | with_reducible apply Keeps.cond
    | with_reducible apply KeepsOut.cond | with_reducible apply Keeps.foldl
    | (with_reducible apply Keeps.snd (by assumption)) | (with_reducible apply Keeps.fst (by assumption)) | intro _
    | split

theorem State.raiseCat_keeps {s0 : State} (s : State) (cat : Nat) (die : Nat) (rule : Nat) (canton : Option Nat) (det :
    List Byte) (hk : Keeps s0 s) : Keeps s0 (State.raiseCat s cat die rule canton det) := by
  unfold State.raiseCat
  repeat' first
    | with_reducible assumption | with_reducible exact Keeps.refl _ | with_reducible apply State.raise_keeps

theorem State.pennantTo_keeps {s0 : State} (s : State) (r : Requester) (a : Nat) (inc : Nat) (hk : Keeps s0 s) : Keeps
    s0 (State.pennantTo s r a inc) := by
  unfold State.pennantTo
  repeat' first
    | with_reducible assumption | with_reducible exact Keeps.refl _ | with_reducible apply State.mpaAdd_keeps
    | with_reducible apply State.raiseCat_keeps | with_reducible apply Keeps.foldl1 | extract_lets
    | with_reducible apply Keeps.cond | with_reducible apply KeepsOut.cond | with_reducible apply Keeps.foldl
    | (with_reducible apply Keeps.snd (by assumption)) | (with_reducible apply Keeps.fst (by assumption)) | intro _
    | split

theorem State.sxPennant_keeps {s0 : State} (s : State) (m : Fin 16) (shard : Nat) (hk : Keeps s0 s) : Keeps s0
    (State.sxPennant s m shard) := by
  unfold State.sxPennant
  repeat' first
    | with_reducible assumption | with_reducible exact Keeps.refl _ | with_reducible apply State.pennantTo_keeps
    | with_reducible apply State.sxFault_keeps | with_reducible apply Keeps.foldl1 | extract_lets
    | with_reducible apply Keeps.cond | with_reducible apply KeepsOut.cond | with_reducible apply Keeps.foldl
    | intro _

theorem State.setIf_keeps {s0 : State} (s : State) (c : Bool) (a : Nat) (f : Fld) (hk : Keeps s0 s) : Keeps s0
    (State.setIf s c a f) := by
  unfold State.setIf
  repeat' first
    | with_reducible assumption | with_reducible exact Keeps.refl _ | with_reducible apply State.put_keeps
    | with_reducible apply Keeps.foldl1 | extract_lets | with_reducible apply Keeps.cond
    | with_reducible apply KeepsOut.cond | with_reducible apply Keeps.foldl | intro _

theorem State.ueFlags_keeps {s0 : State} (s : State) (m : Fin 16) (f : Flags) (hk : Keeps s0 s) : Keeps s0
    (State.ueFlags s m f) := by
  unfold State.ueFlags
  repeat' first
    | with_reducible assumption | with_reducible exact Keeps.refl _ | with_reducible apply State.setIf_keeps

theorem State.formChunk_keeps {s0 : State} (s : State) (m : Fin 16) (e : SxEntry) (d : ShardDesc) (c : Nat) (hk : Keeps
    s0 s) : Keeps s0 (State.formChunk s m e d c).1 := by
  unfold State.formChunk
  repeat' first
    | with_reducible assumption | with_reducible exact Keeps.refl _ | with_reducible apply State.dramPut_keeps
    | with_reducible apply State.setUe_keeps | with_reducible apply State.ueFlags_keeps
    | with_reducible apply Keeps.foldl1 | extract_lets | with_reducible apply Keeps.cond
    | with_reducible apply KeepsOut.cond | with_reducible apply Keeps.foldl
    | (with_reducible apply Keeps.snd (by assumption)) | (with_reducible apply Keeps.fst (by assumption)) | intro _
    | split

theorem State.askSnapshot_keeps {s0 : State} (s : State) (m : Fin 16) (e : SxEntry) (site : Nat) (module : Nat) (die :
    Nat) (boot : Bool) (branch : Bool) (hk : Keeps s0 s) : Keeps s0 (State.askSnapshot s m e site module die boot
    branch) := by
  unfold State.askSnapshot
  repeat' first
    | with_reducible assumption | with_reducible exact Keeps.refl _ | with_reducible apply State.setSx_keeps
    | with_reducible apply State.sxQueue_keeps

theorem State.clearRecv_keeps {s0 : State} (s : State) (e : SxEntry) (hk : Keeps s0 s) : Keeps s0 (State.clearRecv s e) := by
  unfold State.clearRecv
  repeat' first
    | with_reducible assumption | with_reducible exact Keeps.refl _ | with_reducible apply State.dramPut_keeps

theorem State.sxBehind_keeps {s0 : State} (s : State) (m : Fin 16) (e : SxEntry) (hk : Keeps s0 s) : Keeps s0
    (State.sxBehind s m e) := by
  unfold State.sxBehind
  repeat' first
    | with_reducible assumption | with_reducible exact Keeps.refl _ | with_reducible apply State.clearRecv_keeps
    | with_reducible apply State.setSx_keeps | with_reducible apply State.sxDrop_keeps
    | with_reducible apply State.sxLead_keeps | with_reducible apply State.sxState_keeps
    | with_reducible apply Keeps.foldl1 | extract_lets | with_reducible apply Keeps.cond
    | with_reducible apply KeepsOut.cond | with_reducible apply Keeps.foldl | intro _

theorem State.sxAbandon_keeps {s0 : State} (s : State) (m : Fin 16) (e : SxEntry) (hk : Keeps s0 s) : Keeps s0
    (State.sxAbandon s m e) := by
  unfold State.sxAbandon
  repeat' first
    | with_reducible assumption | with_reducible exact Keeps.refl _ | with_reducible apply State.setSx_keeps
    | with_reducible apply State.sxDrop_keeps | with_reducible apply State.sxEvent_keeps
    | with_reducible apply State.sxState_keeps | with_reducible apply State.sxTally_keeps

theorem State.contribute_keeps {s0 : State} (s : State) (m : Fin 16) (e : SxEntry) (leader : Nat) (auxs : List Nat) (hk
    : Keeps s0 s) : Keeps s0 (State.contribute s m e leader auxs) := by
  unfold State.contribute
  repeat' first
    | with_reducible assumption | with_reducible exact Keeps.refl _ | with_reducible apply State.sxQueue_keeps
    | with_reducible apply Keeps.foldl1 | extract_lets | with_reducible apply Keeps.cond
    | with_reducible apply KeepsOut.cond | with_reducible apply Keeps.foldl | intro _

theorem State.setLead_keeps {s0 : State} (s : State) (m : Fin 16) (l : SxLead) (hk : Keeps s0 s) : Keeps s0
    (State.setLead s m l) := by
  unfold State.setLead
  repeat' first
    | with_reducible assumption | with_reducible exact Keeps.refl _ | with_reducible apply State.setSx_keeps

theorem State.setRound_keeps {s0 : State} (s : State) (m : Fin 16) (r : SxRound) (hk : Keeps s0 s) : Keeps s0
    (State.setRound s m r) := by
  unfold State.setRound
  repeat' first
    | with_reducible assumption | with_reducible exact Keeps.refl _ | with_reducible apply State.setSx_keeps

theorem State.claimRecv_keeps {s0 : State} (s : State) (m : Fin 16) (e : SxEntry) (hk : Keeps s0 s) : Keeps s0
    (State.claimRecv s m e) := by
  unfold State.claimRecv
  repeat' first
    | with_reducible assumption | with_reducible exact Keeps.refl _ | with_reducible apply State.clearRecv_keeps
    | with_reducible apply Keeps.foldl1 | extract_lets | with_reducible apply Keeps.cond
    | with_reducible apply KeepsOut.cond | with_reducible apply Keeps.foldl | intro _

theorem State.openEntry_keeps {s0 : State} (s : State) (m : Fin 16) (e : SxEntry) (hk : Keeps s0 s) : Keeps s0
    (State.openEntry s m e) := by
  unfold State.openEntry
  repeat' first
    | with_reducible assumption | with_reducible exact Keeps.refl _ | with_reducible apply State.claimRecv_keeps
    | with_reducible apply State.contribute_keeps | with_reducible apply State.formChunk_keeps
    | with_reducible apply State.setLead_keeps | with_reducible apply State.setRound_keeps
    | with_reducible apply State.sxFault_keeps | with_reducible apply State.sxLead_keeps
    | with_reducible apply State.sxState_keeps | with_reducible apply Keeps.foldl1 | extract_lets
    | with_reducible apply Keeps.cond | with_reducible apply KeepsOut.cond | with_reducible apply Keeps.foldl
    | (with_reducible apply Keeps.snd (by assumption)) | (with_reducible apply Keeps.fst (by assumption)) | intro _
    | split

theorem State.openRound_keeps {s0 : State} (s : State) (m : Fin 16) (hk : Keeps s0 s) : Keeps s0 (State.openRound s m) := by
  unfold State.openRound
  repeat' first
    | with_reducible assumption | with_reducible exact Keeps.refl _ | with_reducible apply State.askSnapshot_keeps
    | with_reducible apply State.openEntry_keeps | with_reducible apply State.put_keeps
    | with_reducible apply State.sxSync_keeps | with_reducible apply Keeps.foldl1 | extract_lets
    | with_reducible apply Keeps.cond | with_reducible apply KeepsOut.cond | with_reducible apply Keeps.foldl
    | (with_reducible apply Keeps.snd (by assumption)) | (with_reducible apply Keeps.fst (by assumption)) | intro _
    | split

theorem State.spTally_keeps {s0 : State} (s : State) (a : Nat) (n : Nat) (hk : Keeps s0 s) : Keeps s0 (State.spTally s a n) := by
  unfold State.spTally
  repeat' first
    | with_reducible assumption | with_reducible exact Keeps.refl _ | with_reducible apply State.bump_keeps
    | with_reducible apply Keeps.foldl1 | extract_lets | with_reducible apply Keeps.cond
    | with_reducible apply KeepsOut.cond | with_reducible apply Keeps.foldl | intro _

theorem State.siteCapped_keeps {s0 : State} (s : State) (kind : Fin 2) (code : Nat) (canton : Nat) (det : List Byte) (hk
    : Keeps s0 s) : Keeps s0 (State.siteCapped s kind code canton det) := by
  unfold State.siteCapped
  repeat' first
    | with_reducible assumption | with_reducible exact Keeps.refl _ | with_reducible apply State.raise_keeps
    | with_reducible apply Keeps.foldl1 | extract_lets | with_reducible apply Keeps.cond
    | with_reducible apply KeepsOut.cond | with_reducible apply Keeps.foldl
    | (with_reducible apply Keeps.snd (by assumption)) | (with_reducible apply Keeps.fst (by assumption)) | intro _
    | split | fail_if_no_progress dsimp +zetaDelta only | (fail_if_no_progress with_reducible refine Keeps.record ?_)

theorem State.siteHeard_keeps {s0 : State} (s : State) (k : Nat) (j : Nat) (hk : Keeps s0 s) : Keeps s0 (State.siteHeard
    s k j) := by
  unfold State.siteHeard
  repeat' first
    | with_reducible assumption | with_reducible exact Keeps.refl _ | with_reducible apply State.put_keeps
    | with_reducible apply State.raise_keeps | with_reducible apply Keeps.foldl1 | extract_lets
    | with_reducible apply Keeps.cond | with_reducible apply KeepsOut.cond | with_reducible apply Keeps.foldl
    | (with_reducible apply Keeps.snd (by assumption)) | (with_reducible apply Keeps.fst (by assumption)) | intro _
    | split | fail_if_no_progress dsimp +zetaDelta only | (fail_if_no_progress with_reducible refine Keeps.record ?_)

theorem State.authFrame_keeps {s0 : State} (s : State) (m : Fin 16) (f : SiteFrame) (hk : Keeps s0 s) : Keeps s0
    (State.authFrame s m f).1 := by
  unfold State.authFrame
  repeat' first
    | with_reducible assumption | with_reducible exact Keeps.refl _ | with_reducible apply State.add64_keeps
    | with_reducible apply State.raise_keeps | with_reducible apply State.siteCapped_keeps
    | with_reducible apply State.siteHeard_keeps | with_reducible apply State.spTally_keeps
    | with_reducible apply Keeps.foldl1 | extract_lets | with_reducible apply Keeps.cond
    | with_reducible apply KeepsOut.cond | with_reducible apply Keeps.foldl
    | (with_reducible apply Keeps.snd (by assumption)) | (with_reducible apply Keeps.fst (by assumption)) | intro _
    | split

theorem State.oweSack_keeps {s0 : State} (s : State) (m : Fin 16) (f : SiteFrame) (hk : Keeps s0 s) : Keeps s0
    (State.oweSack s m f) := by
  unfold State.oweSack
  repeat' first
    | with_reducible assumption | with_reducible exact Keeps.refl _ | with_reducible apply State.setSx_keeps

theorem State.dupFrame_keeps {s0 : State} (s : State) (m : Fin 16) (f : SiteFrame) (hk : Keeps s0 s) : Keeps s0
    (State.dupFrame s m f) := by
  unfold State.dupFrame
  repeat' first
    | with_reducible assumption | with_reducible exact Keeps.refl _ | with_reducible apply State.oweSack_keeps
    | with_reducible apply State.spTally_keeps

theorem State.onFrame_keeps {s0 : State} (s : State) (m : Fin 16) (f : SiteFrame) (act : State → SxEntry → List Byte → State)
    (hk : Keeps s0 s) (ha : ∀ t e b, Keeps s0 t → Keeps s0 (act t e b)) : Keeps s0 (s.onFrame m f act) := by
  unfold State.onFrame
  repeat' first
    | with_reducible assumption | with_reducible exact Keeps.refl _ | with_reducible apply ha
    | with_reducible apply State.authFrame_keeps | with_reducible apply State.notice_keeps
    | with_reducible apply State.sxSync_keeps | with_reducible apply Keeps.foldl1 | extract_lets
    | with_reducible apply Keeps.cond | with_reducible apply KeepsOut.next | with_reducible apply KeepsOut.cond
    | with_reducible apply Keeps.foldl | (with_reducible apply Keeps.snd (by assumption))
    | (with_reducible apply Keeps.fst (by assumption)) | intro _ | split

theorem State.meet_keeps {s0 : State} (s : State) (m : Fin 16) (e : SxEntry) (f : SiteFrame) (round : Nat) (lineage :
    Nat) (hk : Keeps s0 s) : Keeps s0 (State.meet s m e f round lineage) := by
  unfold State.meet
  repeat' first
    | with_reducible assumption | with_reducible exact Keeps.refl _ | with_reducible apply State.setSx_keeps
    | with_reducible apply State.sxBehind_keeps | with_reducible apply Keeps.foldl1 | extract_lets
    | with_reducible apply Keeps.cond | with_reducible apply KeepsOut.cond | with_reducible apply Keeps.foldl
    | intro _

theorem State.leadCheck_keeps {s0 : State} (s : State) (m : Fin 16) (f : SiteFrame) (e : SxEntry) (act : SxLead → State)
    (hk : Keeps s0 s) (ha : ∀ l, Keeps s0 (act l)) : Keeps s0 (s.leadCheck m f e act) := by
  unfold State.leadCheck
  repeat' first
    | with_reducible assumption | with_reducible exact Keeps.refl _ | with_reducible apply ha
    | with_reducible apply State.meet_keeps | with_reducible apply State.notice_keeps
    | with_reducible apply Keeps.foldl1 | extract_lets | with_reducible apply Keeps.cond
    | with_reducible apply KeepsOut.next | with_reducible apply KeepsOut.cond | with_reducible apply Keeps.foldl
    | (with_reducible apply Keeps.snd (by assumption)) | (with_reducible apply Keeps.fst (by assumption)) | intro _
    | split

theorem State.addCorr_keeps {s0 : State} (s : State) (m : Fin 16) (e : SxEntry) (c : Nat) (words : List Byte) (hk :
    Keeps s0 s) : Keeps s0 (State.addCorr s m e c words) := by
  unfold State.addCorr
  repeat' first
    | with_reducible assumption | with_reducible exact Keeps.refl _ | with_reducible apply State.dramPut_keeps

theorem State.applyRound_keeps {s0 : State} (s : State) (m : Fin 16) (e : SxEntry) (leader : Nat) (quorum : Nat) (wq :
    Nat) (counted : Nat → Bool) (items : List (Nat × Nat × List Byte)) (hk : Keeps s0 s) : Keeps s0 (State.applyRound s
    m e leader quorum wq counted items) := by
  unfold State.applyRound
  repeat' first
    | with_reducible assumption | with_reducible exact Keeps.refl _ | with_reducible apply State.dramPut_keeps
    | with_reducible apply State.setSx_keeps | with_reducible apply State.sxPennant_keeps
    | with_reducible apply State.sxPut_keeps | with_reducible apply State.sxState_keeps
    | with_reducible apply State.sxTally_keeps | with_reducible apply State.ueFlags_keeps
    | with_reducible apply Keeps.foldl1 | extract_lets | with_reducible apply Keeps.cond
    | with_reducible apply KeepsOut.cond | with_reducible apply Keeps.foldl
    | (with_reducible apply Keeps.snd (by assumption)) | (with_reducible apply Keeps.fst (by assumption)) | intro _
    | split

theorem State.sendMhead_keeps {s0 : State} (s : State) (m : Fin 16) (e : SxEntry) (l : SxLead) (status : Nat) (site :
    Nat) (hk : Keeps s0 s) : Keeps s0 (State.sendMhead s m e l status site) := by
  unfold State.sendMhead
  repeat' first
    | with_reducible assumption | with_reducible exact Keeps.refl _ | with_reducible apply State.sxQueue_keeps
    | with_reducible apply Keeps.foldl1 | extract_lets | with_reducible apply Keeps.cond
    | with_reducible apply KeepsOut.cond | with_reducible apply Keeps.foldl | intro _

theorem State.formMerge_keeps {s0 : State} (s : State) (m : Fin 16) (e : SxEntry) (l : SxLead) (hk : Keeps s0 s) : Keeps
    s0 (State.formMerge s m e l) := by
  unfold State.formMerge
  repeat' first
    | with_reducible assumption | with_reducible exact Keeps.refl _ | with_reducible apply State.applyRound_keeps
    | with_reducible apply State.clearRecv_keeps | with_reducible apply State.sendMhead_keeps
    | with_reducible apply State.setLead_keeps | with_reducible apply State.setSx_keeps
    | with_reducible apply State.sxLead_keeps | with_reducible apply State.sxQueue_keeps
    | with_reducible apply State.ueFlags_keeps | with_reducible apply Keeps.foldl1 | extract_lets
    | with_reducible apply Keeps.cond | with_reducible apply KeepsOut.cond | with_reducible apply Keeps.foldl
    | intro _

theorem State.destroyUncounted_keeps {s0 : State} (s : State) (m : Fin 16) (e : SxEntry) (incl : List Nat) (hk : Keeps
    s0 s) : Keeps s0 (State.destroyUncounted s m e incl) := by
  unfold State.destroyUncounted
  repeat' first
    | with_reducible assumption | with_reducible exact Keeps.refl _ | with_reducible apply State.dramPut_keeps
    | with_reducible apply Keeps.foldl1 | extract_lets | with_reducible apply Keeps.cond
    | with_reducible apply KeepsOut.cond | with_reducible apply Keeps.foldl | intro _

theorem State.tryApply_keeps {s0 : State} (s : State) (m : Fin 16) (e : SxEntry) (hk : Keeps s0 s) : Keeps s0
    (State.tryApply s m e) := by
  unfold State.tryApply
  repeat' first
    | with_reducible assumption | with_reducible exact Keeps.refl _ | with_reducible apply State.applyRound_keeps
    | with_reducible apply Keeps.foldl1 | extract_lets | with_reducible apply Keeps.cond
    | with_reducible apply KeepsOut.cond | with_reducible apply Keeps.foldl
    | (with_reducible apply Keeps.snd (by assumption)) | (with_reducible apply Keeps.fst (by assumption)) | intro _
    | split

theorem State.staleFold_keeps {s0 : State} (s : State) (m : Fin 16) (e : SxEntry) (d : ShardDesc) (round : Nat) (boot :
    Bool) (hk : Keeps s0 s) : Keeps s0 (State.staleFold s m e d round boot) := by
  unfold State.staleFold
  repeat' first
    | with_reducible assumption | with_reducible exact Keeps.refl _ | with_reducible apply State.dramPut_keeps
    | with_reducible apply State.sxEvent_keeps | with_reducible apply State.sxPut_keeps
    | with_reducible apply State.sxTally_keeps | with_reducible apply State.ueFlags_keeps
    | with_reducible apply Keeps.foldl1 | extract_lets | with_reducible apply Keeps.cond
    | with_reducible apply KeepsOut.cond | with_reducible apply Keeps.foldl | intro _

theorem State.derive_keeps {s0 : State} (s : State) (m : Fin 16) (d : ShardDesc) (sq : Nat) (hk : Keeps s0 s) :
    Keeps s0 (s.derive m d sq).1 := State.ueFlags_keeps _ _ _ (State.setUe_keeps _ _ _ hk)

theorem State.forwardWrite_keeps {s0 : State} (s : State) (src : Nat) (a : Nat) (bs : List Byte) (hk : Keeps s0 s) :
    Keeps s0 (State.forwardWrite s src a bs) := by
  unfold State.forwardWrite
  repeat' first
    | with_reducible assumption | with_reducible exact Keeps.refl _ | with_reducible apply State.forward_keeps
    | with_reducible apply Keeps.foldl1 | extract_lets | with_reducible apply Keeps.cond
    | with_reducible apply KeepsOut.cond | with_reducible apply Keeps.foldl | intro _

theorem State.rederive_keeps {s0 : State} (s : State) (m : Fin 16) (d : ShardDesc) (hk : Keeps s0 s) : Keeps s0
    (State.rederive s m d) := by
  unfold State.rederive
  try dsimp only
  repeat' first
    | with_reducible assumption | with_reducible exact Keeps.refl _ | with_reducible apply State.derive_keeps
    | with_reducible apply State.forwardWrite_keeps | with_reducible apply State.newReq_keeps
    | with_reducible apply Keeps.foldl1 | with_reducible apply Keeps.cond | with_reducible apply KeepsOut.cond
    | with_reducible apply Keeps.foldl | intro _

theorem State.tryRebase_keeps {s0 : State} (s : State) (m : Fin 16) (e : SxEntry) (d : ShardDesc) (hk : Keeps s0 s) :
    Keeps s0 (State.tryRebase s m e d) := by
  unfold State.tryRebase
  repeat' first
    | with_reducible assumption | with_reducible exact Keeps.refl _ | with_reducible apply State.dramPut_keeps
    | with_reducible apply State.put_keeps | with_reducible apply State.rederive_keeps
    | with_reducible apply State.setSx_keeps | with_reducible apply State.sxEvent_keeps
    | with_reducible apply State.sxPennant_keeps | with_reducible apply State.sxPut_keeps
    | with_reducible apply State.sxState_keeps | with_reducible apply State.sxTally_keeps
    | with_reducible apply Keeps.foldl1 | extract_lets | with_reducible apply Keeps.cond
    | with_reducible apply KeepsOut.cond | with_reducible apply Keeps.foldl
    | (with_reducible apply Keeps.snd (by assumption)) | (with_reducible apply Keeps.fst (by assumption)) | intro _
    | split

theorem State.leadDone_keeps {s0 : State} (s : State) (m : Fin 16) (shard : Nat) (hk : Keeps s0 s) : Keeps s0
    (State.leadDone s m shard) := by
  unfold State.leadDone
  repeat' first
    | with_reducible assumption | with_reducible exact Keeps.refl _ | with_reducible apply State.setSx_keeps
    | with_reducible apply State.sxLead_keeps | with_reducible apply Keeps.foldl1 | extract_lets
    | with_reducible apply Keeps.cond | with_reducible apply KeepsOut.cond | with_reducible apply Keeps.foldl
    | intro _

theorem State.sxUnsend_keeps {s0 : State} (s : State) (m : Fin 16) (e : SxEntry) (site : Nat) (hk : Keeps s0 s) : Keeps
    s0 (State.sxUnsend s m e site) := by
  unfold State.sxUnsend
  repeat' first
    | with_reducible assumption | with_reducible exact Keeps.refl _ | with_reducible apply State.setSx_keeps
    | with_reducible apply Keeps.foldl1 | extract_lets | with_reducible apply Keeps.cond
    | with_reducible apply KeepsOut.cond | with_reducible apply Keeps.foldl
    | (with_reducible apply Keeps.snd (by assumption)) | (with_reducible apply Keeps.fst (by assumption)) | intro _
    | split | fail_if_no_progress dsimp +zetaDelta only | (fail_if_no_progress with_reducible refine Keeps.record ?_)

theorem State.srttSample_keeps {s0 : State} (s : State) (k : Nat) (j : Nat) (us : Nat) (hk : Keeps s0 s) : Keeps s0
    (State.srttSample s k j us) := by
  unfold State.srttSample
  repeat' first
    | with_reducible assumption | with_reducible exact Keeps.refl _ | with_reducible apply State.put_keeps

theorem State.clearCounts_keeps {s0 : State} (s : State) (ctl : Nat) (l : List Nat) (hk : Keeps s0 s) : Keeps s0
    (State.clearCounts s ctl l) := by
  unfold State.clearCounts
  repeat' first
    | with_reducible assumption | with_reducible exact Keeps.refl _ | with_reducible apply State.zeroRegs_keeps
    | with_reducible apply Keeps.foldl1 | extract_lets | with_reducible apply Keeps.cond
    | with_reducible apply KeepsOut.cond | with_reducible apply Keeps.foldl
    | (with_reducible apply Keeps.snd (by assumption)) | (with_reducible apply Keeps.fst (by assumption)) | intro _
    | split | fail_if_no_progress dsimp +zetaDelta only | (fail_if_no_progress with_reducible refine Keeps.record ?_)

theorem State.showFail_keeps {s0 : State} (s : State) (hk : Keeps s0 s) : Keeps s0 (State.showFail s) := by
  unfold State.showFail
  repeat' first
    | with_reducible assumption | with_reducible exact Keeps.refl _ | with_reducible apply State.wr_keeps

theorem State.afterWrite_keeps {s0 : State} (s : State) (v : View) (a : Nat) (x : W32) (hk : Keeps s0 s) : Keeps s0
    (State.afterWrite s v a x) := by
  unfold State.afterWrite
  repeat' first
    | with_reducible assumption | with_reducible exact Keeps.refl _ | with_reducible apply State.cadSync_keeps
    | with_reducible apply State.clearCounts_keeps | with_reducible apply State.endSession_keeps
    | with_reducible apply State.put_keeps | with_reducible apply State.showFail_keeps
    | with_reducible apply State.showHealth_keeps | with_reducible apply State.showRecord_keeps
    | with_reducible apply State.startTraining_keeps | with_reducible apply State.syncPoison_keeps
    | with_reducible apply State.wr_keeps | with_reducible apply Keeps.foldl1 | extract_lets
    | with_reducible apply Keeps.cond | with_reducible apply KeepsOut.cond | with_reducible apply Keeps.foldl
    | (with_reducible apply Keeps.snd (by assumption)) | (with_reducible apply Keeps.fst (by assumption)) | intro _
    | split

theorem State.bufPut_keeps {s0 : State} (s : State) (off : Nat) (bs : List Byte) (hk : Keeps s0 s) : Keeps s0
    (State.bufPut s off bs) := by
  unfold State.bufPut
  repeat' first
    | with_reducible assumption | with_reducible exact Keeps.refl _ | with_reducible apply Keeps.foldl1 | extract_lets
    | with_reducible apply Keeps.cond | with_reducible apply KeepsOut.cond | with_reducible apply Keeps.foldl
    | (with_reducible apply Keeps.snd (by assumption)) | (with_reducible apply Keeps.fst (by assumption)) | intro _
    | split | fail_if_no_progress dsimp +zetaDelta only | (fail_if_no_progress with_reducible refine Keeps.record ?_)

theorem State.mgmt_keeps {s0 : State} (s : State) (f : State) (hk : Keeps s0 s) (hk1 : Keeps s0 f) : KeepsOut s0
    (State.mgmt s f) := by
  unfold State.mgmt
  repeat' first
    | with_reducible assumption | with_reducible exact Keeps.refl _ | with_reducible apply KeepsOut.next
    | with_reducible apply Keeps.foldl1 | extract_lets | with_reducible apply Keeps.cond
    | with_reducible apply KeepsOut.cond | with_reducible apply Keeps.foldl
    | (with_reducible apply Keeps.snd (by assumption)) | (with_reducible apply Keeps.fst (by assumption)) | intro _
    | split | fail_if_no_progress dsimp +zetaDelta only | (fail_if_no_progress with_reducible refine Keeps.record ?_)

theorem State.bufWrite_keeps {s0 : State} (s : State) (v : View) (a : Nat) (x : W32) (hk : Keeps s0 s) : Keeps s0
    (State.bufWrite s v a x) := by
  unfold State.bufWrite
  repeat' first
    | with_reducible assumption | with_reducible exact Keeps.refl _ | with_reducible apply State.bufPut_keeps
    | with_reducible apply State.mgmt_keeps | with_reducible apply Keeps.foldl1 | extract_lets
    | with_reducible apply Keeps.cond | with_reducible apply KeepsOut.cond | with_reducible apply Keeps.foldl
    | (with_reducible apply Keeps.snd (by assumption)) | (with_reducible apply Keeps.fst (by assumption)) | intro _
    | split | fail_if_no_progress dsimp +zetaDelta only | (fail_if_no_progress with_reducible refine Keeps.record ?_)

theorem regWrite_keeps {s0 : State} (v : View) (addr : Nat) (x : W32) (hw : W32) (s : State) (hk : Keeps s0 s) : Keeps
    s0 (regWrite v addr x hw s) := by
  unfold regWrite
  repeat' first
    | with_reducible assumption | with_reducible exact Keeps.refl _ | with_reducible apply State.afterWrite_keeps
    | with_reducible apply State.bufWrite_keeps | with_reducible apply State.wr_keeps
    | with_reducible apply Keeps.foldl1 | extract_lets | with_reducible apply Keeps.cond
    | with_reducible apply KeepsOut.cond | with_reducible apply Keeps.foldl
    | (with_reducible apply Keeps.snd (by assumption)) | (with_reducible apply Keeps.fst (by assumption)) | intro _
    | split

theorem State.veFlags_keeps {s0 : State} (s : State) (d : Fin 40) (f : Flags) (hk : Keeps s0 s) : Keeps s0
    (State.veFlags s d f) := by
  unfold State.veFlags
  repeat' first
    | with_reducible assumption | with_reducible exact Keeps.refl _ | with_reducible apply State.put_keeps

theorem State.veParity_keeps {s0 : State} (s : State) (d : Fin 40) (met : Bool) (hk : Keeps s0 s) : Keeps s0
    (State.veParity s d met) := by
  unfold State.veParity
  repeat' first
    | with_reducible assumption | with_reducible exact Keeps.refl _ | with_reducible apply State.raise_keeps
    | with_reducible apply State.veFlags_keeps | with_reducible apply Keeps.foldl1 | extract_lets
    | with_reducible apply Keeps.cond | with_reducible apply KeepsOut.cond | with_reducible apply Keeps.foldl
    | intro _

theorem State.gEvent_keeps {s0 : State} (s : State) (g : Nat) (code : Nat) (opseq : Nat) (hk : Keeps s0 s) : Keeps s0
    (State.gEvent s g code opseq) := by
  unfold State.gEvent
  repeat' first
    | with_reducible assumption | with_reducible exact Keeps.refl _ | with_reducible apply State.raise_keeps

theorem State.gDone_keeps {s0 : State} (s : State) (k : Nat) (hk : Keeps s0 s) : Keeps s0 (State.gDone s k) := by
  unfold State.gDone
  repeat' first
    | with_reducible assumption | with_reducible exact Keeps.refl _ | with_reducible apply State.put_keeps

theorem State.gRefuse_keeps {s0 : State} (s : State) (k : Nat) (hk : Keeps s0 s) : Keeps s0 (State.gRefuse s k) := by
  unfold State.gRefuse
  repeat' first
    | with_reducible assumption | with_reducible exact Keeps.refl _ | with_reducible apply State.put_keeps

theorem State.coresIrq_keeps {s0 : State} (s : State) (k : Nat) (hk : Keeps s0 s) : Keeps s0 (State.coresIrq s k) := by
  unfold State.coresIrq
  repeat' first
    | with_reducible assumption | with_reducible exact Keeps.refl _ | with_reducible apply State.setCd_keeps
    | with_reducible apply Keeps.foldl1 | extract_lets | with_reducible apply Keeps.cond
    | with_reducible apply KeepsOut.cond | with_reducible apply Keeps.foldl | intro _

theorem State.gSync_keeps {s0 : State} (s : State) (g : Nat) (hk : Keeps s0 s) : Keeps s0 (State.gSync s g) := by
  unfold State.gSync
  repeat' first
    | with_reducible assumption | with_reducible exact Keeps.refl _ | with_reducible apply State.put_keeps
    | with_reducible apply Keeps.foldl1 | extract_lets | with_reducible apply Keeps.cond
    | with_reducible apply KeepsOut.cond | with_reducible apply Keeps.foldl
    | (with_reducible apply Keeps.snd (by assumption)) | (with_reducible apply Keeps.fst (by assumption)) | intro _
    | split

theorem State.gFault_keeps {s0 : State} (s : State) (g : Nat) (reason : Nat) (opseq : Nat) (hk : Keeps s0 s) : Keeps s0
    (State.gFault s g reason opseq) := by
  unfold State.gFault
  repeat' first
    | with_reducible assumption | with_reducible exact Keeps.refl _ | with_reducible apply State.gEvent_keeps
    | with_reducible apply State.put_keeps

theorem State.gRefused_keeps {s0 : State} (s : State) (g opseq : Nat) (write : Bool) (l : List (Nat × Nat)) (hk : Keeps s0 s) :
    Keeps s0 (s.gRefused g opseq write l) := by
  unfold State.gRefused
  extract_lets r bad
  clear_value bad
  split
  · exact State.gFault_keeps _ _ _ _ (State.raiseCat_keeps _ _ _ _ _ _ hk)
  · exact State.gFault_keeps _ _ _ _ hk

theorem State.nameSlowest_keeps {s0 : State} (s : State) (g : Nat) (module : Nat) (die : Nat) (isLocal : Bool) (hk :
    Keeps s0 s) : Keeps s0 (State.nameSlowest s g module die isLocal) := by
  unfold State.nameSlowest
  repeat' first
    | with_reducible assumption | with_reducible exact Keeps.refl _ | with_reducible apply State.wr_keeps

theorem State.lagSync_keeps {s0 : State} (s : State) (g : Nat) (hk : Keeps s0 s) : Keeps s0 (State.lagSync s g) := by
  unfold State.lagSync
  repeat' first
    | with_reducible assumption | with_reducible exact Keeps.refl _ | with_reducible apply State.bump_keeps
    | with_reducible apply State.nameSlowest_keeps | with_reducible apply State.setGrp_keeps
    | with_reducible apply Keeps.foldl1 | extract_lets | with_reducible apply Keeps.cond
    | with_reducible apply KeepsOut.cond | with_reducible apply Keeps.foldl
    | (with_reducible apply Keeps.snd (by assumption)) | (with_reducible apply Keeps.fst (by assumption)) | intro _
    | split

theorem State.gUpdate_keeps {s0 : State} (s : State) (g : Nat) (hk : Keeps s0 s) : Keeps s0 (State.gUpdate s g) := by
  unfold State.gUpdate
  repeat' first
    | with_reducible assumption | with_reducible exact Keeps.refl _ | with_reducible apply State.gSync_keeps
    | with_reducible apply State.lagSync_keeps | with_reducible apply State.slotSync_keeps

theorem State.countPiece_keeps {s0 : State} (s : State) (k : Nat) (l : Nat) (hk : Keeps s0 s) : Keeps s0
    (State.countPiece s k l) := by
  unfold State.countPiece
  repeat' first
    | with_reducible assumption | with_reducible exact Keeps.refl _ | with_reducible apply State.add64_keeps
    | with_reducible apply Keeps.foldl1 | extract_lets | with_reducible apply Keeps.cond
    | with_reducible apply KeepsOut.cond | with_reducible apply Keeps.foldl | intro _

theorem State.gZero_keeps {s0 : State} (s : State) (g : Nat) (grans : List Nat) (hk : Keeps s0 s) : Keeps s0
    (State.gZero s g grans) := by
  unfold State.gZero
  repeat' first
    | with_reducible assumption | with_reducible exact Keeps.refl _ | with_reducible apply State.put_keeps
    | with_reducible apply State.setGrp_keeps | with_reducible apply State.zeroRegs_keeps

theorem State.resend_keeps {s0 : State} (s : State) (g : Nat) (rings : List Nat) (hk : Keeps s0 s) : Keeps s0
    (State.resend s g rings) := by
  unfold State.resend
  repeat' first
    | with_reducible assumption | with_reducible exact Keeps.refl _ | with_reducible apply State.gEvent_keeps
    | with_reducible apply State.setGrp_keeps | with_reducible apply Keeps.foldl1 | extract_lets
    | with_reducible apply Keeps.cond | with_reducible apply KeepsOut.cond | with_reducible apply Keeps.foldl
    | (with_reducible apply Keeps.snd (by assumption)) | (with_reducible apply Keeps.fst (by assumption)) | intro _
    | split | fail_if_no_progress dsimp +zetaDelta only | (fail_if_no_progress with_reducible refine Keeps.record ?_)

theorem State.completeAt_keeps {s0 : State} (s : State) (d : Fin 40) (e : UCmd) (at_ : Nat) (hk : Keeps s0 s) : Keeps s0
    (State.completeAt s d e at_) := by
  unfold State.completeAt
  repeat' first
    | with_reducible assumption | with_reducible exact Keeps.refl _ | with_reducible apply State.setCd_keeps
    | with_reducible apply Keeps.foldl1 | extract_lets | with_reducible apply Keeps.cond
    | with_reducible apply KeepsOut.cond | with_reducible apply Keeps.foldl | intro _

theorem State.complete_keeps {s0 : State} (s : State) (d : Fin 40) (e : UCmd) (hk : Keeps s0 s) : Keeps s0
    (State.complete s d e) := by
  unfold State.complete
  repeat' first
    | with_reducible assumption | with_reducible exact Keeps.refl _ | with_reducible apply State.completeAt_keeps

theorem State.gasSync_keeps {s0 : State} (s : State) (d : Fin 40) (hk : Keeps s0 s) : Keeps s0 (State.gasSync s d) := by
  unfold State.gasSync
  repeat' first
    | with_reducible assumption | with_reducible exact Keeps.refl _ | with_reducible apply State.put_keeps
    | with_reducible apply State.wr_keeps | with_reducible apply Keeps.foldl1 | extract_lets
    | with_reducible apply Keeps.cond | with_reducible apply KeepsOut.cond | with_reducible apply Keeps.foldl
    | intro _

theorem State.releaseHeld_keeps {s0 : State} (s : State) (d : Fin 40) (hk : Keeps s0 s) : Keeps s0 (State.releaseHeld s d) := by
  unfold State.releaseHeld
  repeat' first
    | with_reducible assumption | with_reducible exact Keeps.refl _ | with_reducible apply State.setCd_keeps
    | with_reducible apply State.storeApply_keeps | with_reducible apply Keeps.foldl1 | extract_lets
    | with_reducible apply Keeps.cond | with_reducible apply KeepsOut.cond | with_reducible apply Keeps.foldl
    | (with_reducible apply Keeps.snd (by assumption)) | (with_reducible apply Keeps.fst (by assumption)) | intro _
    | split | fail_if_no_progress dsimp +zetaDelta only | (fail_if_no_progress with_reducible refine Keeps.record ?_)

theorem State.drainDone_keeps {s0 : State} (s : State) (d : Fin 40) (g : Drain) (hk : Keeps s0 s) : Keeps s0
    (State.drainDone s d g) := by
  unfold State.drainDone
  repeat' first
    | with_reducible assumption | with_reducible exact Keeps.refl _ | with_reducible apply State.complete_keeps
    | with_reducible apply State.gasSync_keeps | with_reducible apply State.releaseHeld_keeps
    | with_reducible apply State.setCd_keeps

theorem State.drainAbort_keeps {s0 : State} (s : State) (d : Fin 40) (g : Drain) (hk : Keeps s0 s) : Keeps s0
    (State.drainAbort s d g) := by
  unfold State.drainAbort
  repeat' first
    | with_reducible assumption | with_reducible exact Keeps.refl _ | with_reducible apply State.drainDone_keeps
    | with_reducible apply State.put_keeps | with_reducible apply State.raise_keeps

theorem State.mpaWrite_keeps {s0 : State} (s : State) (src : Nat) (a : Nat) (bs : List Byte) (hk : Keeps s0 s) : Keeps
    s0 (State.mpaWrite s src a bs) := by
  unfold State.mpaWrite
  repeat' first
    | with_reducible assumption | with_reducible exact Keeps.refl _ | with_reducible apply State.forwardWrite_keeps
    | with_reducible apply State.newReq_keeps | with_reducible apply State.storePost_keeps
    | with_reducible apply State.storeWrite_keeps | with_reducible apply Keeps.foldl1 | extract_lets
    | with_reducible apply Keeps.cond | with_reducible apply KeepsOut.cond | with_reducible apply Keeps.foldl
    | (with_reducible apply Keeps.snd (by assumption)) | (with_reducible apply Keeps.fst (by assumption)) | intro _
    | split

theorem State.abortOps_keeps {s0 : State} (s : State) (g : Nat) (opseqs : List Nat) (hk : Keeps s0 s) : Keeps s0
    (State.abortOps s g opseqs) := by
  unfold State.abortOps
  repeat' first
    | with_reducible assumption | with_reducible exact Keeps.refl _ | with_reducible apply State.drainAbort_keeps
    | with_reducible apply State.mpaWrite_keeps | with_reducible apply State.put_keeps
    | with_reducible apply State.setGrp_keeps | with_reducible apply Keeps.foldl1 | extract_lets
    | with_reducible apply Keeps.cond | with_reducible apply KeepsOut.cond | with_reducible apply Keeps.foldl
    | (with_reducible apply Keeps.snd (by assumption)) | (with_reducible apply Keeps.fst (by assumption)) | intro _
    | split | fail_if_no_progress dsimp +zetaDelta only | (fail_if_no_progress with_reducible refine Keeps.record ?_)

theorem State.finishOp_keeps {s0 : State} (s : State) (g : Nat) (x : Group) (o : GOp) (hk : Keeps s0 s) : Keeps s0
    (State.finishOp s g x o) := by
  unfold State.finishOp
  repeat' first
    | with_reducible assumption | with_reducible exact Keeps.refl _ | with_reducible apply State.mpaAdd_keeps
    | with_reducible apply State.put_keeps | with_reducible apply State.setCd_keeps
    | with_reducible apply State.setGrp_keeps | with_reducible apply Keeps.foldl1 | extract_lets
    | with_reducible apply Keeps.cond | with_reducible apply KeepsOut.cond | with_reducible apply Keeps.foldl
    | intro _

theorem State.endOp_keeps {s0 : State} (s : State) (g : Nat) (x : Group) (o : GOp) (hk : Keeps s0 s) : Keeps s0
    (State.endOp s g x o) := by
  unfold State.endOp
  repeat' first
    | with_reducible assumption | with_reducible exact Keeps.refl _ | with_reducible apply State.finishOp_keeps
    | with_reducible apply State.mpaWrite_keeps | with_reducible apply State.setGrp_keeps
    | with_reducible apply Keeps.foldl1 | extract_lets | with_reducible apply Keeps.cond
    | with_reducible apply KeepsOut.cond | with_reducible apply Keeps.foldl
    | (with_reducible apply Keeps.snd (by assumption)) | (with_reducible apply Keeps.fst (by assumption)) | intro _
    | split

theorem State.gMismatch_keeps {s0 : State} (s : State) (g : Nat) (opseq : Nat) (hk : Keeps s0 s) : Keeps s0
    (State.gMismatch s g opseq) := by
  unfold State.gMismatch
  repeat' first
    | with_reducible assumption | with_reducible exact Keeps.refl _ | with_reducible apply State.coresIrq_keeps
    | with_reducible apply State.gEvent_keeps | with_reducible apply State.put_keeps
    | with_reducible apply State.wr_keeps

theorem State.deliverBytes_keeps {s0 : State} (s : State) (g : Nat) (d : GDesc) (h : GShape) (runs : List (Nat × Nat))
    (bs : List Byte) (hk : Keeps s0 s) : Keeps s0 (State.deliverBytes s g d h runs bs).1 := by
  unfold State.deliverBytes
  repeat' first
    | with_reducible assumption | with_reducible exact Keeps.refl _ | with_reducible apply State.mpaWrite_keeps
    | with_reducible apply Keeps.foldl1 | extract_lets | with_reducible apply Keeps.cond
    | with_reducible apply KeepsOut.cond | with_reducible apply Keeps.foldl
    | (with_reducible apply Keeps.snd (by assumption)) | (with_reducible apply Keeps.fst (by assumption)) | intro _
    | split

theorem State.uePost_keeps {s0 : State} (s : State) (m : Fin 16) (a : Nat) (bs : List Byte) (hk : Keeps s0 s) : Keeps s0
    (State.uePost s m a bs) := by
  unfold State.uePost
  repeat' first
    | with_reducible assumption | with_reducible exact Keeps.refl _ | with_reducible apply State.mpaWrite_keeps
    | with_reducible apply State.raiseCat_keeps | with_reducible apply Keeps.foldl1 | extract_lets
    | with_reducible apply Keeps.cond | with_reducible apply KeepsOut.cond | with_reducible apply Keeps.foldl
    | (with_reducible apply Keeps.snd (by assumption)) | (with_reducible apply Keeps.fst (by assumption)) | intro _
    | split

theorem State.linkEvent_keeps {s0 : State} (s : State) (l : Fin 6) (code : Nat) (plane : Nat) (value : Nat) (hk : Keeps
    s0 s) : Keeps s0 (State.linkEvent s l code plane value) := by
  unfold State.linkEvent
  repeat' first
    | with_reducible assumption | with_reducible exact Keeps.refl _ | with_reducible apply State.raise_keeps

theorem State.linkDown_keeps {s0 : State} (s : State) (l : Fin 6) (hk : Keeps s0 s) : Keeps s0 (State.linkDown s l) := by
  unfold State.linkDown
  repeat' first
    | with_reducible assumption | with_reducible exact Keeps.refl _ | with_reducible apply State.linkEvent_keeps
    | with_reducible apply State.put_keeps | with_reducible apply State.startTraining_keeps
    | with_reducible apply Keeps.foldl1 | extract_lets | with_reducible apply Keeps.cond
    | with_reducible apply KeepsOut.cond | with_reducible apply Keeps.foldl | intro _

theorem State.quench_keeps {s0 : State} (s : State) (bits : Nat) (monitor : Nat) (gasp : Nat) (mode : PowerMode) (hk :
    Keeps s0 s) : Keeps s0 (State.quench s bits monitor gasp mode) := by
  unfold State.quench
  repeat' first
    | with_reducible assumption | with_reducible exact Keeps.refl _ | with_reducible apply State.bump_keeps
    | with_reducible apply State.lastGasp_keeps | with_reducible apply State.put_keeps
    | with_reducible apply State.raise_keeps | with_reducible apply State.setPwr_keeps
    | with_reducible apply State.setRel_keeps | with_reducible apply State.wr_keeps
    | with_reducible apply Keeps.foldl1 | extract_lets | with_reducible apply Keeps.cond
    | with_reducible apply KeepsOut.cond | with_reducible apply Keeps.foldl
    | (with_reducible apply Keeps.snd (by assumption)) | (with_reducible apply Keeps.fst (by assumption)) | intro _
    | split | fail_if_no_progress dsimp +zetaDelta only | (fail_if_no_progress with_reducible refine Keeps.record ?_)

theorem State.qSync_keeps {s0 : State} (s : State) (d : Fin 40) (q : Fin 4) (hk : Keeps s0 s) : Keeps s0 (State.qSync s d q) := by
  unfold State.qSync
  repeat' first
    | with_reducible assumption | with_reducible exact Keeps.refl _ | with_reducible apply State.put_keeps

theorem State.dropSeq_keeps {s0 : State} (s : State) (d : Fin 40) (u : Fin 8) (seq : Nat) (hk : Keeps s0 s) : Keeps s0
    (State.dropSeq s d u seq) := by
  unfold State.dropSeq
  repeat' first
    | with_reducible assumption | with_reducible exact Keeps.refl _ | with_reducible apply State.setCd_keeps

theorem State.setMa_keeps {s0 : State} (s : State) (d : Fin 40) (a : Fin 4) (m : MArray) (hk : Keeps s0 s) : Keeps s0
    (State.setMa s d a m) := by
  unfold State.setMa
  repeat' first
    | with_reducible assumption | with_reducible exact Keeps.refl _ | with_reducible apply State.setCd_keeps

theorem State.maResume_keeps {s0 : State} (s : State) (d : Fin 40) (a : Fin 4) (seq : Nat) (hk : Keeps s0 s) : Keeps s0
    (State.maResume s d a seq) := by
  unfold State.maResume
  repeat' first
    | with_reducible assumption | with_reducible exact Keeps.refl _ | with_reducible apply State.setMa_keeps
    | with_reducible apply Keeps.foldl1 | extract_lets | with_reducible apply Keeps.cond
    | with_reducible apply KeepsOut.cond | with_reducible apply Keeps.foldl
    | (with_reducible apply Keeps.snd (by assumption)) | (with_reducible apply Keeps.fst (by assumption)) | intro _
    | split

theorem State.maSkip_keeps {s0 : State} (s : State) (d : Fin 40) (a : Fin 4) (seq : Nat) (hk : Keeps s0 s) : Keeps s0
    (State.maSkip s d a seq) := by
  unfold State.maSkip
  repeat' first
    | with_reducible assumption | with_reducible exact Keeps.refl _ | with_reducible apply State.dropSeq_keeps
    | with_reducible apply State.setMa_keeps | with_reducible apply Keeps.foldl1 | extract_lets
    | with_reducible apply Keeps.cond | with_reducible apply KeepsOut.cond | with_reducible apply Keeps.foldl
    | (with_reducible apply Keeps.snd (by assumption)) | (with_reducible apply Keeps.fst (by assumption)) | intro _
    | split

theorem State.restartUnit_keeps {s0 : State} (s : State) (d : Fin 40) (skip : Bool) (f : Fin 8 × Nat) (hk : Keeps s0 s)
    : Keeps s0 (State.restartUnit s d skip f) := by
  unfold State.restartUnit
  repeat' first
    | with_reducible assumption | with_reducible exact Keeps.refl _ | with_reducible apply State.dropSeq_keeps
    | with_reducible apply State.maResume_keeps | with_reducible apply State.maSkip_keeps
    | with_reducible apply State.setCd_keeps | with_reducible apply Keeps.foldl1 | extract_lets
    | with_reducible apply Keeps.cond | with_reducible apply KeepsOut.cond | with_reducible apply Keeps.foldl
    | (with_reducible apply Keeps.snd (by assumption)) | (with_reducible apply Keeps.fst (by assumption)) | intro _
    | split

theorem State.queueAbort_keeps {s0 : State} (s : State) (d : Fin 40) (q : Fin 4) (hk : Keeps s0 s) : Keeps s0
    (State.queueAbort s d q) := by
  unfold State.queueAbort
  repeat' first
    | with_reducible assumption | with_reducible exact Keeps.refl _ | with_reducible apply State.gasSync_keeps
    | with_reducible apply State.put_keeps | with_reducible apply State.qSync_keeps
    | with_reducible apply State.releaseHeld_keeps | with_reducible apply State.restartUnit_keeps
    | with_reducible apply State.setCd_keeps | with_reducible apply State.setQState_keeps
    | with_reducible apply State.setQue_keeps | with_reducible apply Keeps.foldl1 | extract_lets
    | with_reducible apply Keeps.cond | with_reducible apply KeepsOut.cond | with_reducible apply Keeps.foldl
    | intro _

theorem State.pass_keeps {s0 : State} (s : State) (d : Fin 40) (q : Fin 4) (hk : Keeps s0 s) : Keeps s0 (State.pass s d q) := by
  unfold State.pass
  repeat' first
    | with_reducible assumption | with_reducible exact Keeps.refl _ | with_reducible apply State.put_keeps
    | with_reducible apply State.setQue_keeps | with_reducible apply Keeps.foldl1 | extract_lets
    | with_reducible apply Keeps.cond | with_reducible apply KeepsOut.cond | with_reducible apply Keeps.foldl
    | (with_reducible apply Keeps.snd (by assumption)) | (with_reducible apply Keeps.fst (by assumption)) | intro _
    | split

theorem State.advance_keeps {s0 : State} (s : State) (d : Fin 40) (q : Fin 4) (hk : Keeps s0 s) : Keeps s0
    (State.advance s d q) := by
  unfold State.advance
  repeat' first
    | with_reducible assumption | with_reducible exact Keeps.refl _ | with_reducible apply State.pass_keeps
    | with_reducible apply State.qSync_keeps | with_reducible apply State.setQue_keeps

theorem State.psigSend_keeps {s0 : State} (s : State) (d : Fin 40) (e : UCmd) (a : Nat) (hk : Keeps s0 s) : Keeps s0
    (State.psigSend s d e a) := by
  unfold State.psigSend
  repeat' first
    | with_reducible assumption | with_reducible exact Keeps.refl _ | with_reducible apply State.forward_keeps
    | with_reducible apply State.newReq_keeps | with_reducible apply State.setCd_keeps

theorem State.restart_keeps {s0 : State} (s : State) (d : Fin 40) (q : Fin 4) (skip : Bool) (hk : Keeps s0 s) : Keeps s0
    (State.restart s d q skip) := by
  unfold State.restart
  repeat' first
    | with_reducible assumption | with_reducible exact Keeps.refl _ | with_reducible apply State.advance_keeps
    | with_reducible apply State.psigSend_keeps | with_reducible apply State.restartUnit_keeps
    | with_reducible apply State.setQue_keeps | with_reducible apply Keeps.foldl1 | extract_lets
    | with_reducible apply Keeps.cond | with_reducible apply KeepsOut.cond | with_reducible apply Keeps.foldl
    | intro _

theorem State.queueResume_keeps {s0 : State} (s : State) (d : Fin 40) (q : Fin 4) (skip : Bool) (hk : Keeps s0 s) :
    Keeps s0 (State.queueResume s d q skip) := by
  unfold State.queueResume
  repeat' first
    | with_reducible assumption | with_reducible exact Keeps.refl _ | with_reducible apply State.restart_keeps
    | with_reducible apply State.setQState_keeps | with_reducible apply Keeps.foldl1 | extract_lets
    | with_reducible apply Keeps.cond | with_reducible apply KeepsOut.cond | with_reducible apply Keeps.foldl
    | intro _

theorem State.queueStart_keeps {s0 : State} (s : State) (d : Fin 40) (q : Fin 4) (hk : Keeps s0 s) : Keeps s0
    (State.queueStart s d q) := by
  unfold State.queueStart
  repeat' first
    | with_reducible assumption | with_reducible exact Keeps.refl _ | with_reducible apply State.setQState_keeps
    | with_reducible apply Keeps.foldl1 | extract_lets | with_reducible apply Keeps.cond
    | with_reducible apply KeepsOut.cond | with_reducible apply Keeps.foldl | intro _

theorem State.loadSlot_keeps {s0 : State} (s : State) (k : Nat) (slot : Nat) (key : List Byte) (hk : Keeps s0 s) : Keeps
    s0 (State.loadSlot s k slot key) := by
  unfold State.loadSlot
  repeat' first
    | with_reducible assumption | with_reducible exact Keeps.refl _ | with_reducible apply Keeps.foldl1 | extract_lets
    | with_reducible apply Keeps.cond | with_reducible apply KeepsOut.cond | with_reducible apply Keeps.foldl
    | (with_reducible apply Keeps.snd (by assumption)) | (with_reducible apply Keeps.fst (by assumption)) | intro _
    | split | fail_if_no_progress dsimp +zetaDelta only | (fail_if_no_progress with_reducible refine Keeps.record ?_)

theorem State.rands_keeps {s0 : State} (s : State) (len n : Nat) (hk : Keeps s0 s) : Keeps s0 (s.rands len n).2 := by
  induction n generalizing s with
  | zero => exact hk
  | succ n ih =>
    unfold State.rands
    exact ih _ (State.rand_keeps s len hk)

theorem State.ckpt_keeps {s0 : State} (s : State) (k : Nat) (slot : Nat) (hk : Keeps s0 s) : Keeps s0 (State.ckpt s k
    slot).1 := by
  unfold State.ckpt
  repeat' first
    | with_reducible assumption | with_reducible exact Keeps.refl _ | with_reducible apply State.bufPut_keeps
    | with_reducible apply State.loadSlot_keeps | with_reducible apply State.rand_keeps
    | with_reducible apply State.rands_keeps | with_reducible apply Keeps.foldl1 | extract_lets
    | with_reducible apply Keeps.cond | with_reducible apply KeepsOut.cond | with_reducible apply Keeps.foldl
    | (with_reducible apply Keeps.snd (by assumption)) | (with_reducible apply Keeps.fst (by assumption)) | intro _
    | split

theorem State.secEvent_keeps {s0 : State} (s : State) (code : Nat) (k : Nat) (hk : Keeps s0 s) : Keeps s0
    (State.secEvent s code k) := by
  unfold State.secEvent
  repeat' first
    | with_reducible assumption | with_reducible exact Keeps.refl _ | with_reducible apply State.raise_keeps

theorem State.share_keeps {s0 : State} (s : State) (k : Nat) (hk : Keeps s0 s) : Keeps s0 (State.share s k).1 := by
  unfold State.share
  repeat' first
    | with_reducible assumption | with_reducible exact Keeps.refl _ | with_reducible apply State.ckpt_keeps
    | with_reducible apply State.loadSlot_keeps | with_reducible apply State.secEvent_keeps
    | with_reducible apply State.setCanton_keeps | with_reducible apply Keeps.foldl1 | extract_lets
    | with_reducible apply Keeps.cond | with_reducible apply KeepsOut.cond | with_reducible apply Keeps.foldl
    | (with_reducible apply Keeps.snd (by assumption)) | (with_reducible apply Keeps.fst (by assumption)) | intro _
    | split

theorem State.checkNorm_keeps {s0 : State} (s : State) (m : Fin 16) (layer : Nat) (step : Nat) (hk : Keeps s0 s) : Keeps
    s0 (State.checkNorm s m layer step) := by
  unfold State.checkNorm
  repeat' first
    | with_reducible assumption | with_reducible exact Keeps.refl _ | with_reducible apply State.pennantTo_keeps
    | with_reducible apply State.setUe_keeps | with_reducible apply State.ueFlags_keeps
    | with_reducible apply State.uePost_keeps | with_reducible apply Keeps.foldl1 | extract_lets
    | with_reducible apply Keeps.cond | with_reducible apply KeepsOut.cond | with_reducible apply Keeps.foldl
    | (with_reducible apply Keeps.snd (by assumption)) | (with_reducible apply Keeps.fst (by assumption)) | intro _
    | split

theorem State.dropLanded_keeps {s0 : State} (s : State) (m : Fin 16) (order : Nat) (hk : Keeps s0 s) : Keeps s0
    (State.dropLanded s m order) := by
  unfold State.dropLanded
  repeat' first
    | with_reducible assumption | with_reducible exact Keeps.refl _ | with_reducible apply State.setUe_keeps

theorem State.endAudit_keeps {s0 : State} (s : State) (m : Fin 16) (shard : Nat) (hk : Keeps s0 s) : Keeps s0
    (State.endAudit s m shard) := by
  unfold State.endAudit
  repeat' first
    | with_reducible assumption | with_reducible exact Keeps.refl _ | with_reducible apply State.put_keeps
    | with_reducible apply State.setUe_keeps | with_reducible apply Keeps.foldl1 | extract_lets
    | with_reducible apply Keeps.cond | with_reducible apply KeepsOut.cond | with_reducible apply Keeps.foldl
    | (with_reducible apply Keeps.snd (by assumption)) | (with_reducible apply Keeps.fst (by assumption)) | intro _
    | split

theorem State.ueEvent_keeps {s0 : State} (s : State) (m : Fin 16) (code : Nat) (shard : Nat) (step : Nat) (hk : Keeps s0
    s) : Keeps s0 (State.ueEvent s m code shard step) := by
  unfold State.ueEvent
  repeat' first
    | with_reducible assumption | with_reducible exact Keeps.refl _ | with_reducible apply State.raise_keeps

theorem State.holdCap_keeps {s0 : State} (s : State) (m : Fin 16) (shard : Nat) (step : Nat) (hk : Keeps s0 s) : Keeps
    s0 (State.holdCap s m shard step) := by
  unfold State.holdCap
  repeat' first
    | with_reducible assumption | with_reducible exact Keeps.refl _ | with_reducible apply State.put_keeps
    | with_reducible apply State.setUe_keeps | with_reducible apply State.ueEvent_keeps
    | with_reducible apply Keeps.foldl1 | extract_lets | with_reducible apply Keeps.cond
    | with_reducible apply KeepsOut.cond | with_reducible apply Keeps.foldl | intro _

theorem State.ueFault_keeps {s0 : State} (s : State) (m : Fin 16) (code : Nat) (shard : Nat) (hk : Keeps s0 s) : Keeps
    s0 (State.ueFault s m code shard) := by
  unfold State.ueFault
  repeat' first
    | with_reducible assumption | with_reducible exact Keeps.refl _ | with_reducible apply State.wr_keeps
    | with_reducible apply Keeps.foldl1 | extract_lets | with_reducible apply Keeps.cond
    | with_reducible apply KeepsOut.cond | with_reducible apply Keeps.foldl | intro _

theorem State.takeSquare_keeps {s0 : State} (s : State) (m : Fin 16) (l : Landed) (hk : Keeps s0 s) : Keeps s0
    (State.takeSquare s m l) := by
  unfold State.takeSquare
  repeat' first
    | with_reducible assumption | with_reducible exact Keeps.refl _ | with_reducible apply State.checkNorm_keeps
    | with_reducible apply State.dropLanded_keeps | with_reducible apply State.endAudit_keeps
    | with_reducible apply State.holdCap_keeps | with_reducible apply State.setUe_keeps
    | with_reducible apply State.ueFault_keeps | with_reducible apply Keeps.foldl1 | extract_lets
    | with_reducible apply Keeps.cond | with_reducible apply KeepsOut.cond | with_reducible apply Keeps.foldl
    | (with_reducible apply Keeps.snd (by assumption)) | (with_reducible apply Keeps.fst (by assumption)) | intro _
    | split

theorem State.takeAll_keeps {s0 : State} (s : State) (m : Fin 16) (hk : Keeps s0 s) : Keeps s0 (State.takeAll s m) := by
  unfold State.takeAll
  repeat' first
    | with_reducible assumption | with_reducible exact Keeps.refl _ | with_reducible apply State.takeSquare_keeps
    | with_reducible apply Keeps.foldl1 | extract_lets | with_reducible apply Keeps.cond
    | with_reducible apply KeepsOut.cond | with_reducible apply Keeps.foldl | intro _

theorem State.heldShards_keeps {s0 : State} (s : State) (m : Fin 16) (hk : Keeps s0 s) : Keeps s0 (State.heldShards s m) := by
  unfold State.heldShards
  repeat' first
    | with_reducible assumption | with_reducible exact Keeps.refl _ | with_reducible apply State.setUe_keeps

theorem State.uePerf_keeps {s0 : State} (s : State) (m : Fin 16) (a : Nat) (n : Nat) (hk : Keeps s0 s) : Keeps s0
    (State.uePerf s m a n) := by
  unfold State.uePerf
  repeat' first
    | with_reducible assumption | with_reducible exact Keeps.refl _ | with_reducible apply State.bump_keeps
    | with_reducible apply Keeps.foldl1 | extract_lets | with_reducible apply Keeps.cond
    | with_reducible apply KeepsOut.cond | with_reducible apply Keeps.foldl | intro _

theorem State.ueSync_keeps {s0 : State} (s : State) (m : Fin 16) (hk : Keeps s0 s) : Keeps s0 (State.ueSync s m) := by
  unfold State.ueSync
  repeat' first
    | with_reducible assumption | with_reducible exact Keeps.refl _ | with_reducible apply State.heldShards_keeps
    | with_reducible apply State.put_keeps | with_reducible apply State.setUe_keeps
    | with_reducible apply State.uePerf_keeps | with_reducible apply Keeps.foldl1 | extract_lets
    | with_reducible apply Keeps.cond | with_reducible apply KeepsOut.cond | with_reducible apply Keeps.foldl
    | intro _

theorem execUeSquareLand_keeps {s0 : State} (m : Fin 16) (shard : Nat) (square : Nat) (outer : Bool) (data : List Byte)
    (s : State) (hk : Keeps s0 s) : KeepsOut s0 (execUeSquareLand m shard square outer data s) := by
  unfold execUeSquareLand
  repeat' first
    | with_reducible assumption | with_reducible exact Keeps.refl _ | with_reducible apply State.putBytes_keeps
    | with_reducible apply State.setUe_keeps | with_reducible apply State.takeAll_keeps
    | with_reducible apply State.ueSync_keeps | with_reducible apply KeepsOut.next | with_reducible apply Keeps.foldl1
    | extract_lets | with_reducible apply Keeps.cond | with_reducible apply KeepsOut.cond
    | with_reducible apply Keeps.foldl | intro _ | split

theorem State.deliverLanding_keeps {s0 : State} (s : State) (o : GOp) (runs : List (Nat × Nat)) (codes : List Nat)
    (hk : Keeps s0 s) (r : State × List AsmSquare) (e : s.deliverLanding o runs codes = some r) : Keeps s0 r.1 := by
  have H : ∀ (g : Option (State × List AsmSquare) → AsmSquare → Option (State × List AsmSquare)),
      (∀ acc q, (∀ p, acc = some p → Keeps s0 p.1) → ∀ p, g acc q = some p → Keeps s0 p.1) →
      ∀ (l : List AsmSquare) (acc : Option (State × List AsmSquare)), (∀ p, acc = some p → Keeps s0 p.1) →
      ∀ p, l.foldl g acc = some p → Keeps s0 p.1 := by
    intro g hg l
    induction l with
    | nil => intro acc h; exact h
    | cons q l ih => intro acc h; exact ih _ (hg acc q h)
  unfold State.deliverLanding at e
  refine H _ ?_ _ _ (fun p h => by cases h; exact hk) r e
  intro acc q h p hp
  cases acc with
  | none => cases hp
  | some a =>
    dsimp only at hp
    split at hp
    · next t' ht' =>
      split at hp
      · cases hp
      · cases hp
        exact (execUeSquareLand_keeps _ _ _ _ _ _ (h _ rfl)).next_of _ ht'
    · cases hp

theorem State.deliver_keeps {s0 : State} (s : State) (g : Nat) (o : GOp) (h : GShape) (runs : List (Nat × Nat)) (codes : List Nat)
    (raw : Option (List Byte)) (poison : Bool) (hk : Keeps s0 s) (r : State × GOp)
    (e : s.deliver g o h runs codes raw poison = some r) : Keeps s0 r.1 := by
  unfold State.deliver at e
  extract_lets d codes o' bs q at e
  split at e
  · obtain ⟨p, hp, rfl⟩ := Option.map_eq_some_iff.mp e
    exact State.deliverLanding_keeps _ _ _ _ hk _ hp
  · cases e
    exact State.deliverBytes_keeps _ _ _ _ _ _ hk

theorem State.sendPiece_keeps {s0 : State} (s : State) (g : Nat) (u : Nat) (x : Group) (target : Nat) (p : Piece) (hk :
    Keeps s0 s) : Keeps s0 (State.sendPiece s g u x target p).1 := by
  unfold State.sendPiece
  repeat' first
    | with_reducible assumption | with_reducible exact Keeps.refl _ | with_reducible apply Keeps.foldl1 | extract_lets
    | with_reducible apply Keeps.cond | with_reducible apply KeepsOut.cond | with_reducible apply Keeps.foldl
    | (with_reducible apply Keeps.snd (by assumption)) | (with_reducible apply Keeps.fst (by assumption)) | intro _
    | split | fail_if_no_progress dsimp +zetaDelta only | (fail_if_no_progress with_reducible refine Keeps.record ?_)

theorem State.fanOut_keeps {s0 : State} (s : State) (g : Nat) (x : Group) (o : GOp) (h : GShape) (stages : List Nat)
    (off : Nat) (minus : Bool) (poison : Bool) (data : List Byte) (hk : Keeps s0 s) : Keeps s0 (State.fanOut s g x o h
    stages off minus poison data).1 := by
  unfold State.fanOut
  repeat' first
    | with_reducible assumption | with_reducible exact Keeps.refl _ | with_reducible apply State.sendPiece_keeps
    | with_reducible apply Keeps.foldl1 | extract_lets | with_reducible apply Keeps.cond
    | with_reducible apply KeepsOut.cond | with_reducible apply Keeps.foldl | intro _

theorem State.completed_keeps {s0 : State} (s : State) (g : Nat) (x : Group) (o : GOp) (h : GShape) (runs : List (Nat × Nat))
    (codes : List Nat) (minus poison : Bool) (hk : Keeps s0 s) :
    Keeps s0 ((s.completed g x o h runs codes minus poison).getD s) := by
  cases e : s.completed g x o h runs codes minus poison with
  | none => exact hk
  | some t =>
    unfold State.completed at e
    extract_lets here r at e
    obtain ⟨p, hp, rfl⟩ := Option.map_eq_some_iff.mp e
    have hp1 : Keeps s0 p.1 := by
      simp only [r] at hp
      split at hp
      · exact State.deliver_keeps _ _ _ _ _ _ _ _ hk _ hp
      · cases hp; exact hk
    dsimp only [Option.getD_some]
    apply State.countPiece_keeps
    apply State.setGrp_keeps
    split
    · apply State.fanOut_keeps
      split
      · exact State.gEvent_keeps _ _ _ _ hp1
      · exact hp1
    · dsimp only
      split
      · exact State.gEvent_keeps _ _ _ _ hp1
      · exact hp1

theorem State.combineReduce_keeps {s0 : State} (s : State) (g : Nat) (x : Group) (o : GOp) (u : Nat) (off : Nat) (len :
    Nat) (hk : Keeps s0 s) : Keeps s0 (State.combineReduce s g x o u off len) := by
  unfold State.combineReduce
  try dsimp only
  repeat' first
    | with_reducible assumption | with_reducible exact Keeps.refl _ | with_reducible apply State.completed_keeps
    | with_reducible apply State.countPiece_keeps | with_reducible apply State.gRefused_keeps
    | with_reducible apply State.sendPiece_keeps | with_reducible apply State.setGrp_keeps
    | with_reducible apply Keeps.foldl1 | with_reducible apply Keeps.cond | with_reducible apply KeepsOut.cond
    | with_reducible apply Keeps.foldl | (with_reducible apply Keeps.snd (by assumption))
    | (with_reducible apply Keeps.fst (by assumption)) | intro _ | split

theorem State.combineGather_keeps {s0 : State} (s : State) (g : Nat) (x : Group) (o : GOp) (u off len : Nat) (hk : Keeps s0 s) :
    Keeps s0 (s.combineGather g x o u off len) := by
  have hd : ∀ {o : GOp} {h runs codes raw poison t o'}, s.deliver g o h runs codes raw poison = some (t, o') → Keeps s0 t :=
    fun e => State.deliver_keeps _ _ _ _ _ _ _ _ hk _ e
  unfold State.combineGather
  repeat' first
    | with_reducible assumption | with_reducible exact Keeps.refl _ | (with_reducible exact hd (by assumption))
    | with_reducible apply State.countPiece_keeps | with_reducible apply State.deliver_keeps
    | with_reducible apply State.fanOut_keeps | with_reducible apply State.gEvent_keeps
    | with_reducible apply State.gRefused_keeps | with_reducible apply State.sendPiece_keeps
    | with_reducible apply State.setGrp_keeps | with_reducible apply Keeps.foldl1 | extract_lets
    | with_reducible apply Keeps.cond | with_reducible apply KeepsOut.next | with_reducible apply KeepsOut.cond
    | with_reducible apply Keeps.foldl | (with_reducible apply Keeps.snd (by assumption))
    | (with_reducible apply Keeps.fst (by assumption)) | intro _ | split

theorem State.combineDirect_keeps {s0 : State} (s : State) (g : Nat) (x : Group) (o : GOp) (off : Nat) (len : Nat) (hk :
    Keeps s0 s) : Keeps s0 (State.combineDirect s g x o off len) := by
  unfold State.combineDirect
  repeat' first
    | with_reducible assumption | with_reducible exact Keeps.refl _ | with_reducible apply State.countPiece_keeps
    | with_reducible apply State.deliverBytes_keeps | with_reducible apply State.gEvent_keeps
    | with_reducible apply State.gRefused_keeps | with_reducible apply State.setGrp_keeps
    | with_reducible apply Keeps.foldl1 | extract_lets | with_reducible apply Keeps.cond
    | with_reducible apply KeepsOut.cond | with_reducible apply Keeps.foldl
    | (with_reducible apply Keeps.snd (by assumption)) | (with_reducible apply Keeps.fst (by assumption)) | intro _
    | split | fail_if_no_progress dsimp +zetaDelta only | (fail_if_no_progress with_reducible refine Keeps.record ?_)

theorem State.sendBeacon_keeps {s0 : State} (s : State) (g : Nat) (u : Fin 7) (opseq : Nat) (named : Nat) (hk : Keeps s0
    s) : Keeps s0 (State.sendBeacon s g u opseq named) := by
  unfold State.sendBeacon
  repeat' first
    | with_reducible assumption | with_reducible exact Keeps.refl _ | with_reducible apply State.setGrp_keeps
    | with_reducible apply Keeps.foldl1 | extract_lets | with_reducible apply Keeps.cond
    | with_reducible apply KeepsOut.cond | with_reducible apply Keeps.foldl
    | (with_reducible apply Keeps.snd (by assumption)) | (with_reducible apply Keeps.fst (by assumption)) | intro _
    | split | fail_if_no_progress dsimp +zetaDelta only | (fail_if_no_progress with_reducible refine Keeps.record ?_)

theorem State.regionSync_keeps {s0 : State} (s : State) (k : Nat) (hk : Keeps s0 s) : Keeps s0 (State.regionSync s k) := by
  unfold State.regionSync
  repeat' first
    | with_reducible assumption | with_reducible exact Keeps.refl _ | with_reducible apply State.put_keeps
    | with_reducible apply State.setHost_keeps | with_reducible apply Keeps.foldl1 | extract_lets
    | with_reducible apply Keeps.cond | with_reducible apply KeepsOut.cond | with_reducible apply Keeps.foldl
    | intro _

theorem State.hostFieldsReset_keeps {s0 : State} (s : State) (hk : Keeps s0 s) : Keeps s0 s.hostFieldsReset := by
  unfold State.hostFieldsReset
  apply State.setHost_keeps
  refine ⟨hk.pending, hk.mem, fun k => Sparse.wf_filterMap _ _ ?_ (hk.regs k), hk.poison⟩
  intro p q hp e
  dsimp only at e
  split at e
  · split at e
    · split at e
      · cases e
      · next h => cases e; exact ⟨rfl, h⟩
    · cases e; exact ⟨rfl, hp⟩
  · cases e; exact ⟨rfl, hp⟩

theorem State.setJobs_keeps {s0 : State} (s : State) (k : Nat) (g : Nat) (l : List RingJob) (hk : Keeps s0 s) : Keeps s0
    (State.setJobs s k g l) := by
  unfold State.setJobs
  repeat' first
    | with_reducible assumption | with_reducible exact Keeps.refl _ | with_reducible apply State.regionSync_keeps
    | with_reducible apply State.setHost_keeps

theorem State.setRingState_keeps {s0 : State} (s : State) (k : Nat) (g : Nat) (n : Nat) (hk : Keeps s0 s) : Keeps s0
    (State.setRingState s k g n) := by
  unfold State.setRingState
  repeat' first
    | with_reducible assumption | with_reducible exact Keeps.refl _ | with_reducible apply State.put_keeps

theorem State.ringIdle_keeps {s0 : State} (s : State) (k : Nat) (g : Nat) (hk : Keeps s0 s) : Keeps s0 (State.ringIdle s
    k g) := by
  unfold State.ringIdle
  repeat' first
    | with_reducible assumption | with_reducible exact Keeps.refl _ | with_reducible apply State.setRingState_keeps
    | with_reducible apply Keeps.foldl1 | extract_lets | with_reducible apply Keeps.cond
    | with_reducible apply KeepsOut.cond | with_reducible apply Keeps.foldl | intro _

theorem State.recordMoved_keeps {s0 : State} (s : State) (k : Nat) (ring : Nat) (dir : Nat) (hk : Keeps s0 s) : Keeps s0
    (State.recordMoved s k ring dir) := by
  unfold State.recordMoved
  repeat' first
    | with_reducible assumption | with_reducible exact Keeps.refl _ | with_reducible apply State.raise_keeps
    | with_reducible apply State.setCanton_keeps | with_reducible apply Keeps.foldl1 | extract_lets
    | with_reducible apply Keeps.cond | with_reducible apply KeepsOut.cond | with_reducible apply Keeps.foldl
    | intro _

theorem State.runDesc_keeps {s0 : State} (s : State) (k : Nat) (g : Nat) (desc : List Byte) (host : Option (List Byte))
    (hk : Keeps s0 s) : Keeps s0 (State.runDesc s k g desc host).1 := by
  unfold State.runDesc
  repeat' first
    | with_reducible assumption | with_reducible exact Keeps.refl _ | with_reducible apply State.mpaWrite_keeps
    | with_reducible apply State.recordMoved_keeps | with_reducible apply State.setHost_keeps
    | with_reducible apply Keeps.foldl1 | extract_lets | with_reducible apply Keeps.cond
    | with_reducible apply KeepsOut.cond | with_reducible apply Keeps.foldl
    | (with_reducible apply Keeps.snd (by assumption)) | (with_reducible apply Keeps.fst (by assumption)) | intro _
    | split

theorem State.seqBack_keeps {s0 : State} (s : State) (k : Nat) (g : Nat) (jobs : List RingJob) (hk : Keeps s0 s) : Keeps
    s0 (State.seqBack s k g jobs) := by
  unfold State.seqBack
  repeat' first
    | with_reducible assumption | with_reducible exact Keeps.refl _ | with_reducible apply State.setCanton_keeps

theorem State.ringAgain_keeps {s0 : State} (s : State) (k : Nat) (g : Nat) (hk : Keeps s0 s) : Keeps s0 (State.ringAgain
    s k g) := by
  unfold State.ringAgain
  repeat' first
    | with_reducible assumption | with_reducible exact Keeps.refl _ | with_reducible apply State.setRingState_keeps

theorem State.setDpAddr_keeps {s0 : State} (s : State) (p : Nat) (a : Nat) (hk : Keeps s0 s) : Keeps s0 (State.setDpAddr
    s p a) := by
  unfold State.setDpAddr
  repeat' first
    | with_reducible assumption | with_reducible exact Keeps.refl _ | with_reducible apply State.put64_keeps

theorem State.dpRefuse_keeps {s0 : State} (s : State) (p : Nat) (k : Nat) (code : Nat) (hk : Keeps s0 s) : Keeps s0
    (State.dpRefuse s p k code) := by
  unfold State.dpRefuse
  repeat' first
    | with_reducible assumption | with_reducible exact Keeps.refl _ | with_reducible apply State.msix_keeps
    | with_reducible apply State.put_keeps | with_reducible apply State.raise_keeps
    | with_reducible apply Keeps.foldl1 | extract_lets | with_reducible apply Keeps.cond
    | with_reducible apply KeepsOut.cond | with_reducible apply Keeps.foldl | intro _

theorem State.dpAdvance_keeps {s0 : State} (s : State) (p : Nat) (n : Nat) (hk : Keeps s0 s) : Keeps s0 (State.dpAdvance
    s p n) := by
  unfold State.dpAdvance
  repeat' first
    | with_reducible assumption | with_reducible exact Keeps.refl _ | with_reducible apply State.setDpAddr_keeps
    | with_reducible apply Keeps.foldl1 | extract_lets | with_reducible apply Keeps.cond
    | with_reducible apply KeepsOut.cond | with_reducible apply Keeps.foldl | intro _

theorem State.dpStore_keeps {s0 : State} (s : State) (p : Fin 2) (bs : List Byte) (hk : Keeps s0 s) : Keeps s0
    (State.dpStore s p bs) := by
  unfold State.dpStore
  repeat' first
    | with_reducible assumption | with_reducible exact Keeps.refl _ | with_reducible apply State.mpaWrite_keeps
    | with_reducible apply State.setHost_keeps

theorem State.dpRecords_keeps {s0 : State} (s : State) (p : Fin 2) (k n : Nat) (hk : Keeps s0 s) :
    Keeps s0 (s.dpRecords p k n) := by
  induction n generalizing s with
  | zero => exact hk
  | succ n ih =>
    unfold State.dpRecords
    extract_lets st len drop
    have hd : ∀ (t : State) l, Keeps s0 t → Keeps s0 (drop t l) := fun t l h => State.setHost_keeps _ _ h
    split
    · exact hk
    split
    · exact State.dpRefuse_keeps _ _ _ _ (hd _ _ hk)
    split
    · extract_lets t
      have ht : Keeps s0 t := by
        simp only [t]
        split
        · exact State.raise_keeps _ _ _ _ _ hk
        · exact hk
      exact State.dpRefuse_keeps _ _ _ _ (hd _ _ ht)
    · split
      · exact State.dpRefuse_keeps _ _ _ _ (hd _ _ hk)
      split
      · exact State.dpRefuse_keeps _ _ _ _ (hd _ _ hk)
      · apply ih
        apply hd
        apply State.recordMoved_keeps
        apply State.setDpAddr_keeps
        exact State.dpStore_keeps _ _ _ hk

theorem State.bumpWrap_keeps {s0 : State} (s : State) (a : Nat) (f : Fld) (n : Nat) (hk : Keeps s0 s) : Keeps s0
    (State.bumpWrap s a f n) := by
  unfold State.bumpWrap
  repeat' first
    | with_reducible assumption | with_reducible exact Keeps.refl _ | with_reducible apply State.put_keeps

theorem State.dpWrite_keeps {s0 : State} (s : State) (p : Fin 2) (bs : List Byte) (hk : Keeps s0 s) : Keeps s0
    (State.dpWrite s p bs) := by
  unfold State.dpWrite
  repeat' first
    | with_reducible assumption | with_reducible exact Keeps.refl _ | with_reducible apply State.bumpWrap_keeps
    | with_reducible apply State.dpAdvance_keeps | with_reducible apply State.dpRecords_keeps
    | with_reducible apply State.dpRefuse_keeps | with_reducible apply State.dpStore_keeps
    | with_reducible apply State.setHost_keeps | with_reducible apply Keeps.foldl1 | extract_lets
    | with_reducible apply Keeps.cond | with_reducible apply KeepsOut.cond | with_reducible apply Keeps.foldl
    | intro _

theorem State.dpRead_keeps {s0 : State} (s : State) (p : Fin 2) (n : Nat) (hk : Keeps s0 s) : Keeps s0 (State.dpRead s p n) := by
  unfold State.dpRead
  repeat' first
    | with_reducible assumption | with_reducible exact Keeps.refl _ | with_reducible apply State.bumpWrap_keeps
    | with_reducible apply State.dpAdvance_keeps | with_reducible apply State.dpRefuse_keeps
    | with_reducible apply Keeps.foldl1 | extract_lets | with_reducible apply Keeps.cond
    | with_reducible apply KeepsOut.cond | with_reducible apply Keeps.foldl
    | (with_reducible apply Keeps.snd (by assumption)) | (with_reducible apply Keeps.fst (by assumption)) | intro _
    | split | fail_if_no_progress dsimp +zetaDelta only | (fail_if_no_progress with_reducible refine Keeps.record ?_)

theorem State.setDpCtl_keeps {s0 : State} (s : State) (p : Fin 2) (x : W32) (hk : Keeps s0 s) : Keeps s0 (State.setDpCtl
    s p x) := by
  unfold State.setDpCtl
  repeat' first
    | with_reducible assumption | with_reducible exact Keeps.refl _ | with_reducible apply State.setHost_keeps
    | with_reducible apply State.wr_keeps

theorem State.setHostTime_keeps {s0 : State} (s : State) (x : W32) (hk : Keeps s0 s) : Keeps s0 (State.setHostTime s x) := by
  unfold State.setHostTime
  repeat' first
    | with_reducible assumption | with_reducible exact Keeps.refl _ | with_reducible apply State.setHost_keeps
    | with_reducible apply State.wr_keeps

theorem State.post_keeps {s0 : State} (s : State) (k : Nat) (a : Nat) (full : Fld) (x : W32) (hk : Keeps s0 s) : Keeps
    s0 (State.post s k a full x) := by
  unfold State.post
  repeat' first
    | with_reducible assumption | with_reducible exact Keeps.refl _ | with_reducible apply State.put_keeps
    | with_reducible apply State.setIf_keeps | with_reducible apply State.wr_keeps

theorem State.cantonIrq_keeps {s0 : State} (s : State) (k : Nat) (hk : Keeps s0 s) : Keeps s0 (State.cantonIrq s k) := by
  unfold State.cantonIrq
  repeat' first
    | with_reducible assumption | with_reducible exact Keeps.refl _ | with_reducible apply State.setCd_keeps
    | with_reducible apply Keeps.foldl1 | extract_lets | with_reducible apply Keeps.cond
    | with_reducible apply KeepsOut.cond | with_reducible apply Keeps.foldl | intro _

theorem State.mboxTo_keeps {s0 : State} (s : State) (k : Nat) (x : W32) (hk : Keeps s0 s) : Keeps s0 (State.mboxTo s k x) := by
  unfold State.mboxTo
  repeat' first
    | with_reducible assumption | with_reducible exact Keeps.refl _ | with_reducible apply State.cantonIrq_keeps
    | with_reducible apply State.post_keeps

theorem State.hdmaPennant_keeps {s0 : State} (s : State) (k : Nat) (a : Nat) (inc : Nat) (hk : Keeps s0 s) : Keeps s0
    (State.hdmaPennant s k a inc) := by
  unfold State.hdmaPennant
  repeat' first
    | with_reducible assumption | with_reducible exact Keeps.refl _ | with_reducible apply State.pennantTo_keeps

theorem State.checkRetire_keeps {s0 : State} (s : State) (l : Fin 6) (k : Fin 8) (hk : Keeps s0 s) : Keeps s0
    (State.checkRetire s l k) := by
  unfold State.checkRetire
  repeat' first
    | with_reducible assumption | with_reducible exact Keeps.refl _ | with_reducible apply State.put_keeps
    | with_reducible apply State.setPlane_keeps | with_reducible apply Keeps.foldl1 | extract_lets
    | with_reducible apply Keeps.cond | with_reducible apply KeepsOut.cond | with_reducible apply Keeps.foldl
    | intro _

theorem State.linkEventCapped_keeps {s0 : State} (s : State) (l : Fin 6) (kind : Fin 3) (cap : Nat) (code : Nat) (plane
    : Nat) (value : Nat) (hk : Keeps s0 s) : Keeps s0 (State.linkEventCapped s l kind cap code plane value) := by
  unfold State.linkEventCapped
  repeat' first
    | with_reducible assumption | with_reducible exact Keeps.refl _ | with_reducible apply State.linkEvent_keeps
    | with_reducible apply State.setPort_keeps | with_reducible apply Keeps.foldl1 | extract_lets
    | with_reducible apply Keeps.cond | with_reducible apply KeepsOut.cond | with_reducible apply Keeps.foldl
    | intro _

theorem State.resendPackets_keeps {s0 : State} (s : State) (l : Fin 6) (k : Fin 8) (hit : Nat → Bool) (hk : Keeps s0 s)
    : Keeps s0 (State.resendPackets s l k hit) := by
  unfold State.resendPackets
  repeat' first
    | with_reducible assumption | with_reducible exact Keeps.refl _ | with_reducible apply State.linkDown_keeps
    | with_reducible apply State.linkEventCapped_keeps | with_reducible apply State.lkCount_keeps
    | with_reducible apply State.setPlane_keeps | with_reducible apply State.setPort_keeps
    | with_reducible apply Keeps.foldl1 | extract_lets | with_reducible apply Keeps.cond
    | with_reducible apply KeepsOut.cond | with_reducible apply Keeps.foldl | intro _

theorem State.applyAck_keeps {s0 : State} (s : State) (l : Fin 6) (k : Fin 8) (r : PlaneRec) (hk : Keeps s0 s) : Keeps
    s0 (State.applyAck s l k r) := by
  unfold State.applyAck
  repeat' first
    | with_reducible assumption | with_reducible exact Keeps.refl _ | with_reducible apply State.checkRetire_keeps
    | with_reducible apply State.resendPackets_keeps | with_reducible apply State.setPlane_keeps

theorem State.routePacket_keeps {s0 : State} (s : State) (l : Fin 6) (k : Fin 8) (t : TPacket) (hk : Keeps s0 s) : Keeps
    s0 (State.routePacket s l k t) := by
  unfold State.routePacket
  repeat' first
    | with_reducible assumption | with_reducible exact Keeps.refl _ | with_reducible apply State.setPlane_keeps
    | with_reducible apply State.setPort_keeps | with_reducible apply Keeps.foldl1 | extract_lets
    | with_reducible apply Keeps.cond | with_reducible apply KeepsOut.cond | with_reducible apply Keeps.foldl
    | (with_reducible apply Keeps.snd (by assumption)) | (with_reducible apply Keeps.fst (by assumption)) | intro _
    | split | fail_if_no_progress dsimp +zetaDelta only | (fail_if_no_progress with_reducible refine Keeps.record ?_)

theorem State.deliverPackets_keeps {s0 : State} (s : State) (l : Fin 6) (k : Fin 8) (n : Nat) (hk : Keeps s0 s) :
    Keeps s0 (s.deliverPackets l k n) := by
  induction n generalizing s with
  | zero => exact hk
  | succ n ih =>
    unfold State.deliverPackets
    extract_lets x
    split
    · exact hk
    · exact ih _ (State.routePacket_keeps _ _ _ _ (State.setPlane_keeps _ _ _ _ hk))

theorem State.tagFailed_keeps {s0 : State} (s : State) (l : Fin 6) (k : Fin 8) (seq : Nat) (hk : Keeps s0 s) : Keeps s0
    (State.tagFailed s l k seq) := by
  unfold State.tagFailed
  repeat' first
    | with_reducible assumption | with_reducible exact Keeps.refl _ | with_reducible apply State.linkEvent_keeps
    | with_reducible apply State.linkEventCapped_keeps | with_reducible apply State.lkCount_keeps
    | with_reducible apply State.setPlane_keeps | with_reducible apply State.startTraining_keeps
    | with_reducible apply Keeps.foldl1 | extract_lets | with_reducible apply Keeps.cond
    | with_reducible apply KeepsOut.cond | with_reducible apply Keeps.foldl | intro _

theorem State.acceptPacket_keeps {s0 : State} (s : State) (l : Fin 6) (k : Fin 8) (p : TorusPacket) (content : List
    Byte) (hk : Keeps s0 s) : Keeps s0 (State.acceptPacket s l k p content) := by
  unfold State.acceptPacket
  repeat' first
    | with_reducible assumption | with_reducible exact Keeps.refl _ | with_reducible apply State.deliverPackets_keeps
    | with_reducible apply State.lkCount_keeps | with_reducible apply State.setPlane_keeps
    | with_reducible apply Keeps.foldl1 | extract_lets | with_reducible apply Keeps.cond
    | with_reducible apply KeepsOut.cond | with_reducible apply Keeps.foldl | intro _

theorem State.answer_keeps {s0 : State} (s : State) (r : SealReq) (res : Option (List Byte)) (hk : Keeps s0 s) : Keeps
    s0 (State.answer s r res) := by
  unfold State.answer
  repeat' first
    | with_reducible assumption | with_reducible exact Keeps.refl _ | with_reducible apply State.setMd_keeps
    | with_reducible apply Keeps.foldl1 | extract_lets | with_reducible apply Keeps.cond
    | with_reducible apply KeepsOut.cond | with_reducible apply Keeps.foldl
    | (with_reducible apply Keeps.snd (by assumption)) | (with_reducible apply Keeps.fst (by assumption)) | intro _
    | split | fail_if_no_progress dsimp +zetaDelta only | (fail_if_no_progress with_reducible refine Keeps.record ?_)

theorem State.retireRx_keeps {s0 : State} (s : State) (l : Fin 6) (k : Fin 8) (drop : Bool) (hk : Keeps s0 s) : Keeps s0
    (State.retireRx s l k drop) := by
  unfold State.retireRx
  repeat' first
    | with_reducible assumption | with_reducible exact Keeps.refl _ | with_reducible apply State.answer_keeps
    | with_reducible apply State.deliverPackets_keeps | with_reducible apply State.put_keeps
    | with_reducible apply State.setPlane_keeps | with_reducible apply Keeps.foldl1 | extract_lets
    | with_reducible apply Keeps.cond | with_reducible apply KeepsOut.cond | with_reducible apply Keeps.foldl
    | (with_reducible apply Keeps.snd (by assumption)) | (with_reducible apply Keeps.fst (by assumption)) | intro _
    | split

theorem State.resendOn_keeps {s0 : State} (s : State) (l : Fin 6) (k : Option (Fin 8)) (hk : Keeps s0 s) : Keeps s0
    (State.resendOn s l k) := by
  unfold State.resendOn
  repeat' first
    | with_reducible assumption | with_reducible exact Keeps.refl _ | with_reducible apply State.resend_keeps
    | with_reducible apply Keeps.foldl1 | extract_lets | with_reducible apply Keeps.cond
    | with_reducible apply KeepsOut.cond | with_reducible apply Keeps.foldl | intro _

theorem State.applyRecord_keeps {s0 : State} (s : State) (l : Fin 6) (k : Fin 8) (r : PlaneRec) (hk : Keeps s0 s) :
    Keeps s0 (State.applyRecord s l k r) := by
  unfold State.applyRecord
  repeat' first
    | with_reducible assumption | with_reducible exact Keeps.refl _ | with_reducible apply State.applyAck_keeps
    | with_reducible apply State.linkEvent_keeps | with_reducible apply State.resendOn_keeps
    | with_reducible apply State.retireRx_keeps | with_reducible apply State.setPlane_keeps
    | with_reducible apply Keeps.foldl1 | extract_lets | with_reducible apply Keeps.cond
    | with_reducible apply KeepsOut.cond | with_reducible apply Keeps.foldl | intro _

theorem State.trainFailed_keeps {s0 : State} (s : State) (l : Fin 6) (code : Nat) (hk : Keeps s0 s) : Keeps s0
    (State.trainFailed s l code) := by
  unfold State.trainFailed
  repeat' first
    | with_reducible assumption | with_reducible exact Keeps.refl _ | with_reducible apply State.endSession_keeps
    | with_reducible apply State.linkEvent_keeps | with_reducible apply State.setPort_keeps

theorem State.portUp_keeps {s0 : State} (s : State) (l : Fin 6) (secret : List Byte) (hk : Keeps s0 s) : Keeps s0
    (State.portUp s l secret) := by
  unfold State.portUp
  repeat' first
    | with_reducible assumption | with_reducible exact Keeps.refl _ | with_reducible apply State.fresh_keeps
    | with_reducible apply State.put_keeps | with_reducible apply State.setPort_keeps
    | with_reducible apply State.zeroEpochs_keeps | with_reducible apply Keeps.foldl1 | extract_lets
    | with_reducible apply Keeps.cond | with_reducible apply KeepsOut.cond | with_reducible apply Keeps.foldl
    | intro _

theorem State.setArb_keeps {s0 : State} (s : State) (st : ArbStage) (a : ArbState) (hk : Keeps s0 s) : Keeps s0
    (State.setArb s st a) := by
  unfold State.setArb
  repeat' first
    | with_reducible assumption | with_reducible exact Keeps.refl _ | with_reducible apply Keeps.foldl1 | extract_lets
    | with_reducible apply Keeps.cond | with_reducible apply KeepsOut.cond | with_reducible apply Keeps.foldl
    | (with_reducible apply Keeps.snd (by assumption)) | (with_reducible apply Keeps.fst (by assumption)) | intro _
    | split | fail_if_no_progress dsimp +zetaDelta only | (fail_if_no_progress with_reducible refine Keeps.record ?_)

theorem State.arbCount_keeps {s0 : State} (s : State) (st : ArbStage) (a : Nat → Nat) (n : Nat) (hk : Keeps s0 s) :
    Keeps s0 (State.arbCount s st a n) := by
  unfold State.arbCount
  repeat' first
    | with_reducible assumption | with_reducible exact Keeps.refl _ | with_reducible apply State.lkCount_keeps
    | with_reducible apply Keeps.foldl1 | extract_lets | with_reducible apply Keeps.cond
    | with_reducible apply KeepsOut.cond | with_reducible apply Keeps.foldl
    | (with_reducible apply Keeps.snd (by assumption)) | (with_reducible apply Keeps.fst (by assumption)) | intro _
    | split

theorem State.sendHead_keeps {s0 : State} (s : State) (l : Fin 6) (r : ArbReq) (hk : Keeps s0 s) : Keeps s0
    (State.sendHead s l r) := by
  unfold State.sendHead
  repeat' first
    | with_reducible assumption | with_reducible exact Keeps.refl _ | with_reducible apply State.put64_keeps
    | with_reducible apply State.setPlane_keeps | with_reducible apply State.setPort_keeps
    | with_reducible apply Keeps.foldl1 | extract_lets | with_reducible apply Keeps.cond
    | with_reducible apply KeepsOut.cond | with_reducible apply Keeps.foldl
    | (with_reducible apply Keeps.snd (by assumption)) | (with_reducible apply Keeps.fst (by assumption)) | intro _
    | split | fail_if_no_progress dsimp +zetaDelta only | (fail_if_no_progress with_reducible refine Keeps.record ?_)

theorem State.carry_keeps {s0 : State} (s : State) (st : ArbStage) (a : ArbState) (reqs : List ArbReq) (hk : Keeps s0 s)
    : Keeps s0 (State.carry s st a reqs).1 := by
  unfold State.carry
  try dsimp only
  repeat' first
    | with_reducible assumption | with_reducible exact Keeps.refl _ | with_reducible apply State.arbCount_keeps
    | with_reducible apply State.sendHead_keeps | with_reducible apply Keeps.foldl1 | with_reducible apply Keeps.cond
    | with_reducible apply KeepsOut.cond | with_reducible apply Keeps.foldl
    | (with_reducible apply Keeps.snd (by assumption)) | (with_reducible apply Keeps.fst (by assumption)) | intro _
    | split

theorem State.decidePlane_keeps {s0 : State} (s : State) (st : ArbStage) (a : ArbState) (reqs : List ArbReq) (p : Fin 8)
    (hk : Keeps s0 s) : Keeps s0 (s.decidePlane st a reqs p).1 := by
  unfold State.decidePlane
  try dsimp only
  repeat' first
    | with_reducible assumption | with_reducible exact Keeps.refl _ | with_reducible apply State.arbCount_keeps
    | with_reducible apply Keeps.foldl1 | with_reducible apply Keeps.cond | with_reducible apply KeepsOut.next
    | with_reducible apply KeepsOut.cond | with_reducible apply Keeps.foldl
    | (with_reducible apply Keeps.snd (by assumption)) | (with_reducible apply Keeps.fst (by assumption)) | intro _
    | split

theorem State.mgmtSigned_keeps {s0 : State} (s : State) (type : Nat) (mseq : BitVec 64) (body sig : List Byte) (f : State → State)
    (hk : Keeps s0 s) (hf : ∀ t, Keeps s0 t → Keeps s0 (f t)) : KeepsOut s0 (s.mgmtSigned type mseq body sig f) := by
  unfold State.mgmtSigned
  repeat' first
    | with_reducible assumption | with_reducible exact Keeps.refl _ | with_reducible apply hf
    | (fail_if_no_progress with_reducible refine Keeps.record ?_) | with_reducible apply State.fresh_keeps
    | with_reducible apply State.mgmt_keeps | with_reducible apply State.raise_keeps
    | with_reducible apply State.setHost_keeps | with_reducible apply Keeps.foldl1 | extract_lets
    | with_reducible apply Keeps.cond | with_reducible apply KeepsOut.next | with_reducible apply KeepsOut.cond
    | with_reducible apply Keeps.foldl | intro _

theorem State.viewReset_keeps {s0 : State} (s : State) (v : View) (r : ResetReq) (hk : Keeps s0 s) : Keeps s0
    (State.viewReset s v r).1 := by
  unfold State.viewReset
  repeat' first
    | with_reducible assumption | with_reducible exact Keeps.refl _ | with_reducible apply State.askReset_keeps
    | with_reducible apply Keeps.foldl1 | extract_lets | with_reducible apply Keeps.cond
    | with_reducible apply KeepsOut.cond | with_reducible apply Keeps.foldl
    | (with_reducible apply Keeps.snd (by assumption)) | (with_reducible apply Keeps.fst (by assumption)) | intro _
    | split

theorem execRstCrst_keeps {s0 : State} (v : View) (k : Fin 8) (s : State) (hk : Keeps s0 s) : KeepsOut s0 (execRstCrst v
    k s) := by
  unfold execRstCrst
  repeat' first
    | with_reducible assumption | with_reducible exact Keeps.refl _ | with_reducible apply State.viewReset_keeps
    | with_reducible apply KeepsOut.next | with_reducible apply Keeps.foldl1 | extract_lets
    | with_reducible apply Keeps.cond | with_reducible apply KeepsOut.cond | with_reducible apply Keeps.foldl
    | intro _

theorem execRstDrst_keeps {s0 : State} (v : View) (die : Fin 64) (s : State) (hk : Keeps s0 s) : KeepsOut s0
    (execRstDrst v die s) := by
  unfold execRstDrst
  repeat' first
    | with_reducible assumption | with_reducible exact Keeps.refl _ | with_reducible apply State.viewReset_keeps
    | with_reducible apply KeepsOut.next | with_reducible apply Keeps.foldl1 | extract_lets
    | with_reducible apply Keeps.cond | with_reducible apply KeepsOut.cond | with_reducible apply Keeps.foldl
    | intro _

theorem execRstLrst_keeps {s0 : State} (v : View) (port : Fin 6) (s : State) (hk : Keeps s0 s) : KeepsOut s0
    (execRstLrst v port s) := by
  unfold execRstLrst
  repeat' first
    | with_reducible assumption | with_reducible exact Keeps.refl _ | with_reducible apply State.viewReset_keeps
    | with_reducible apply KeepsOut.next

theorem outState_keeps {s0 : State} (o : Out) (t : State) (hk : Keeps s0 t) (k : KeepsOut s0 o) :
    Keeps s0 (outState o t) := by
  cases o with
  | next u => exact k.next_of u rfl
  | fault f => exact hk
  | refused r => exact hk

theorem State.rstCmdWrite_keeps {s0 : State} (s : State) (x : W32) (hk : Keeps s0 s) : Keeps s0 (State.rstCmdWrite s x) := by
  unfold State.rstCmdWrite
  repeat' first
    | with_reducible assumption | with_reducible exact Keeps.refl _ | with_reducible apply State.mgmt_keeps
    | with_reducible apply State.viewReset_keeps | with_reducible apply execRstCrst_keeps
    | with_reducible apply execRstDrst_keeps | with_reducible apply execRstLrst_keeps
    | with_reducible apply outState_keeps | with_reducible apply Keeps.foldl1 | extract_lets
    | with_reducible apply Keeps.cond | with_reducible apply KeepsOut.cond | with_reducible apply Keeps.foldl
    | intro _

theorem execPark_keeps {s0 : State} (k : Fin 8) (s : State) (hk : Keeps s0 s) : KeepsOut s0 (execPark k s) := by
  unfold execPark
  repeat' first
    | with_reducible assumption | with_reducible exact Keeps.refl _ | with_reducible apply State.setPwr_keeps
    | with_reducible apply KeepsOut.next | with_reducible apply Keeps.foldl1 | extract_lets
    | with_reducible apply Keeps.cond | with_reducible apply KeepsOut.cond | with_reducible apply Keeps.foldl
    | intro _

theorem execStandby_keeps {s0 : State} (s : State) (hk : Keeps s0 s) : KeepsOut s0 (execStandby s) := by
  unfold execStandby
  repeat' first
    | with_reducible assumption | with_reducible exact Keeps.refl _ | with_reducible apply State.allReset_keeps
    | with_reducible apply State.raise_keeps | with_reducible apply State.setPwr_keeps
    | with_reducible apply KeepsOut.next | with_reducible apply Keeps.foldl1 | extract_lets
    | with_reducible apply Keeps.cond | with_reducible apply KeepsOut.cond | with_reducible apply Keeps.foldl
    | intro _

theorem State.parkEvent_keeps {s0 : State} (s : State) (what : Nat) (k : Nat) (hk : Keeps s0 s) : Keeps s0
    (State.parkEvent s what k) := by
  unfold State.parkEvent
  repeat' first
    | with_reducible assumption | with_reducible exact Keeps.refl _ | with_reducible apply State.raise_keeps

theorem State.sealUnpark_keeps {s0 : State} (s : State) (m : Fin 16) (ok : Bool) (hk : Keeps s0 s) : Keeps s0
    (State.sealUnpark s m ok) := by
  unfold State.sealUnpark
  repeat' first
    | with_reducible assumption | with_reducible exact Keeps.refl _ | with_reducible apply State.sealEvent_keeps
    | with_reducible apply State.stopCanton_keeps | with_reducible apply State.tagFail_keeps
    | with_reducible apply State.wake_keeps | with_reducible apply Keeps.foldl1 | extract_lets
    | with_reducible apply Keeps.cond | with_reducible apply KeepsOut.cond | with_reducible apply Keeps.foldl
    | intro _

theorem State.seedCanton_keeps {s0 : State} (s : State) (k : Nat) (hk : Keeps s0 s) : Keeps s0 (State.seedCanton s k) := by
  unfold State.seedCanton
  repeat' first
    | with_reducible assumption | with_reducible exact Keeps.refl _ | with_reducible apply State.seedDie_keeps
    | with_reducible apply Keeps.foldl1 | extract_lets | with_reducible apply Keeps.cond
    | with_reducible apply KeepsOut.cond | with_reducible apply Keeps.foldl | intro _

theorem State.setParked_keeps {s0 : State} (s : State) (k : Nat) (on : Bool) (hk : Keeps s0 s) : Keeps s0
    (State.setParked s k on) := by
  unfold State.setParked
  repeat' first
    | with_reducible assumption | with_reducible exact Keeps.refl _ | with_reducible apply State.put_keeps

theorem execUnpark_keeps {s0 : State} (k : Fin 8) (bad : List (Fin 16)) (s : State) (hk : Keeps s0 s) : KeepsOut s0
    (execUnpark k bad s) := by
  unfold execUnpark
  repeat' first
    | with_reducible assumption | with_reducible exact Keeps.refl _ | with_reducible apply State.parkEvent_keeps
    | with_reducible apply State.sealUnpark_keeps | with_reducible apply State.seedCanton_keeps
    | with_reducible apply State.setParked_keeps | with_reducible apply State.setPwr_keeps
    | with_reducible apply State.trainFabric_keeps | with_reducible apply State.zeroCd_keeps
    | with_reducible apply KeepsOut.next | with_reducible apply Keeps.foldl1 | extract_lets
    | with_reducible apply Keeps.cond | with_reducible apply KeepsOut.cond | with_reducible apply Keeps.foldl
    | intro _

theorem State.pwrCtlWrite_keeps {s0 : State} (s : State) (x : W32) (hk : Keeps s0 s) : Keeps s0 (State.pwrCtlWrite s x) := by
  unfold State.pwrCtlWrite
  repeat' first
    | with_reducible assumption | with_reducible exact Keeps.refl _ | with_reducible apply execPark_keeps
    | with_reducible apply execStandby_keeps | with_reducible apply execUnpark_keeps
    | with_reducible apply outState_keeps | with_reducible apply Keeps.foldl1 | extract_lets
    | with_reducible apply Keeps.cond | with_reducible apply KeepsOut.cond | with_reducible apply Keeps.foldl
    | intro _

theorem State.flRefuse_keeps {s0 : State} (s : State) (code : Nat) (hk : Keeps s0 s) : Keeps s0 (State.flRefuse s code) := by
  unfold State.flRefuse
  repeat' first
    | with_reducible assumption | with_reducible exact Keeps.refl _ | with_reducible apply State.put_keeps

theorem State.nvAsk_keeps {s0 : State} (s : State) (l : List NvWrite) (hk : Keeps s0 s) : Keeps s0 (State.nvAsk s l) := by
  unfold State.nvAsk
  repeat' first
    | with_reducible assumption | with_reducible exact Keeps.refl _ | with_reducible apply State.deferSync_keeps
    | with_reducible apply State.setPwr_keeps

theorem State.flRun_keeps {s0 : State} (s : State) (c : FlashCmd) (l : List NvWrite) (hk : Keeps s0 s) : Keeps s0
    (State.flRun s c l) := by
  unfold State.flRun
  repeat' first
    | with_reducible assumption | with_reducible exact Keeps.refl _ | with_reducible apply State.flCmd_keeps
    | with_reducible apply State.nvAsk_keeps | with_reducible apply State.put_keeps
    | with_reducible apply State.setPwr_keeps

theorem execBind_keeps {s0 : State} (s : State) (hk : Keeps s0 s) : KeepsOut s0 (execBind s) := by
  unfold execBind
  repeat' first
    | with_reducible assumption | with_reducible exact Keeps.refl _ | with_reducible apply State.flCmd_keeps
    | with_reducible apply State.flRefuse_keeps | with_reducible apply State.flRun_keeps
    | with_reducible apply State.raise_keeps | with_reducible apply KeepsOut.next | with_reducible apply Keeps.foldl1
    | extract_lets | with_reducible apply Keeps.cond | with_reducible apply KeepsOut.cond
    | with_reducible apply Keeps.foldl | intro _

theorem execCommit_keeps {s0 : State} (kind : Fin 8) (slot : Fin 2) (s : State) (hk : Keeps s0 s) : KeepsOut s0
    (execCommit kind slot s) := by
  unfold execCommit
  repeat' first
    | with_reducible assumption | with_reducible exact Keeps.refl _ | with_reducible apply State.flCmd_keeps
    | with_reducible apply State.flRefuse_keeps | with_reducible apply State.flRun_keeps
    | with_reducible apply KeepsOut.next | with_reducible apply Keeps.foldl1 | extract_lets
    | with_reducible apply Keeps.cond | with_reducible apply KeepsOut.cond | with_reducible apply Keeps.foldl
    | intro _

theorem execErase_keeps {s0 : State} (kind : Fin 8) (slot : Fin 2) (s : State) (hk : Keeps s0 s) : KeepsOut s0
    (execErase kind slot s) := by
  unfold execErase
  repeat' first
    | with_reducible assumption | with_reducible exact Keeps.refl _ | with_reducible apply State.flCmd_keeps
    | with_reducible apply State.flRefuse_keeps | with_reducible apply State.flRun_keeps
    | with_reducible apply KeepsOut.next | with_reducible apply Keeps.foldl1 | extract_lets
    | with_reducible apply Keeps.cond | with_reducible apply KeepsOut.cond | with_reducible apply Keeps.foldl
    | intro _

theorem execMcr_keeps {s0 : State} (s : State) (hk : Keeps s0 s) : KeepsOut s0 (execMcr s) := by
  unfold execMcr
  repeat' first
    | with_reducible assumption | with_reducible exact Keeps.refl _ | with_reducible apply State.flCmd_keeps
    | with_reducible apply State.flRefuse_keeps | with_reducible apply State.flRun_keeps
    | with_reducible apply State.raise_keeps | with_reducible apply KeepsOut.next | with_reducible apply Keeps.foldl1
    | extract_lets | with_reducible apply Keeps.cond | with_reducible apply KeepsOut.cond
    | with_reducible apply Keeps.foldl | (with_reducible apply Keeps.snd (by assumption))
    | (with_reducible apply Keeps.fst (by assumption)) | intro _ | split

theorem execProgram_keeps {s0 : State} (kind : Fin 8) (slot : Fin 2) (s : State) (hk : Keeps s0 s) : KeepsOut s0
    (execProgram kind slot s) := by
  unfold execProgram
  repeat' first
    | with_reducible assumption | with_reducible exact Keeps.refl _ | with_reducible apply State.flCmd_keeps
    | with_reducible apply State.flRefuse_keeps | with_reducible apply State.flRun_keeps
    | with_reducible apply KeepsOut.next | with_reducible apply Keeps.foldl1 | extract_lets
    | with_reducible apply Keeps.cond | with_reducible apply KeepsOut.cond | with_reducible apply Keeps.foldl
    | intro _

theorem State.flCmdWrite_keeps {s0 : State} (s : State) (x : W32) (hk : Keeps s0 s) : Keeps s0 (State.flCmdWrite s x) := by
  unfold State.flCmdWrite
  repeat' first
    | with_reducible assumption | with_reducible exact Keeps.refl _ | with_reducible apply execBind_keeps
    | with_reducible apply execCommit_keeps | with_reducible apply execErase_keeps
    | with_reducible apply execMcr_keeps | with_reducible apply execProgram_keeps
    | with_reducible apply outState_keeps | with_reducible apply Keeps.foldl1 | extract_lets
    | with_reducible apply Keeps.cond | with_reducible apply KeepsOut.cond | with_reducible apply Keeps.foldl
    | intro _

theorem State.badSig_keeps {s0 : State} (s : State) (k : Nat) (hk : Keeps s0 s) : Keeps s0 (State.badSig s k).1 := by
  unfold State.badSig
  repeat' first
    | with_reducible assumption | with_reducible exact Keeps.refl _ | with_reducible apply State.secEvent_keeps

theorem State.policyChanged_keeps {s0 : State} (s : State) (k : Nat) (hk : Keeps s0 s) : Keeps s0 (State.policyChanged s k) := by
  unfold State.policyChanged
  repeat' first
    | with_reducible assumption | with_reducible exact Keeps.refl _ | with_reducible apply State.bumpWrap_keeps
    | with_reducible apply State.secEvent_keeps | with_reducible apply State.setCanton_keeps

theorem State.workConserve_keeps {s0 : State} (s : State) (hk : Keeps s0 s) : Keeps s0 (State.workConserve s) := by
  unfold State.workConserve
  repeat' first
    | with_reducible assumption | with_reducible exact Keeps.refl _ | with_reducible apply State.put_keeps
    | with_reducible apply Keeps.foldl1 | extract_lets | with_reducible apply Keeps.cond
    | with_reducible apply KeepsOut.cond | with_reducible apply Keeps.foldl | intro _

theorem State.assign_keeps {s0 : State} (s : State) (k : Nat) (hk : Keeps s0 s) : Keeps s0 (State.assign s k).1 := by
  unfold State.assign
  repeat' first
    | with_reducible assumption | with_reducible exact Keeps.refl _ | with_reducible apply State.badSig_keeps
    | with_reducible apply State.freshKeys_keeps | with_reducible apply State.policyChanged_keeps
    | with_reducible apply State.put_keeps | with_reducible apply State.raise_keeps
    | with_reducible apply State.rand_keeps | with_reducible apply State.seedCanton_keeps
    | with_reducible apply State.setCanton_keeps | with_reducible apply State.workConserve_keeps
    | with_reducible apply Keeps.foldl1 | extract_lets | with_reducible apply Keeps.cond
    | with_reducible apply KeepsOut.cond | with_reducible apply Keeps.foldl
    | (with_reducible apply Keeps.snd (by assumption)) | (with_reducible apply Keeps.fst (by assumption)) | intro _
    | split | fail_if_no_progress dsimp +zetaDelta only | (fail_if_no_progress with_reducible refine Keeps.record ?_)

theorem State.secIrq_keeps {s0 : State} (s : State) (v : View) (hk : Keeps s0 s) : Keeps s0 (State.secIrq s v) := by
  unfold State.secIrq
  repeat' first
    | with_reducible assumption | with_reducible exact Keeps.refl _ | with_reducible apply State.cantonIrq_keeps
    | with_reducible apply State.msix_keeps | with_reducible apply Keeps.foldl1 | extract_lets
    | with_reducible apply Keeps.cond | with_reducible apply KeepsOut.cond | with_reducible apply Keeps.foldl
    | intro _

theorem State.secDone_keeps {s0 : State} (s : State) (v : View) (hk : Keeps s0 s) : Keeps s0 (State.secDone s v) := by
  unfold State.secDone
  repeat' first
    | with_reducible assumption | with_reducible exact Keeps.refl _ | with_reducible apply State.put_keeps
    | with_reducible apply State.secIrq_keeps

theorem State.secRefuse_keeps {s0 : State} (s : State) (v : View) (code : Nat) (hk : Keeps s0 s) : Keeps s0
    (State.secRefuse s v code) := by
  unfold State.secRefuse
  repeat' first
    | with_reducible assumption | with_reducible exact Keeps.refl _ | with_reducible apply State.put_keeps
    | with_reducible apply State.secIrq_keeps

theorem State.secCmd_keeps {s0 : State} (s : State) (v : View) (k : Nat) (f : State × Nat) (hk : Keeps s0 s)
    (hf : Keeps s0 f.1) : Keeps s0 (s.secCmd v k f) := by
  unfold State.secCmd
  repeat' first
    | with_reducible assumption | with_reducible exact Keeps.refl _ | with_reducible exact hf
    | with_reducible apply State.secDone_keeps | with_reducible apply State.secRefuse_keeps
    | with_reducible apply Keeps.foldl1 | extract_lets | with_reducible apply Keeps.cond
    | with_reducible apply KeepsOut.next | with_reducible apply KeepsOut.cond | with_reducible apply Keeps.foldl
    | intro _

theorem execSecAssign_keeps {s0 : State} (v : View) (k : Fin 8) (s : State) (hk : Keeps s0 s) : KeepsOut s0
    (execSecAssign v k s) := by
  unfold execSecAssign
  repeat' first
    | with_reducible assumption | with_reducible exact Keeps.refl _ | with_reducible apply State.assign_keeps
    | with_reducible apply State.secCmd_keeps | with_reducible apply KeepsOut.next

theorem execSecCkpt_keeps {s0 : State} (v : View) (k : Fin 8) (slot : Fin 16) (s : State) (hk : Keeps s0 s) : KeepsOut
    s0 (execSecCkpt v k slot s) := by
  unfold execSecCkpt
  repeat' first
    | with_reducible assumption | with_reducible exact Keeps.refl _ | with_reducible apply State.ckpt_keeps
    | with_reducible apply State.secCmd_keeps | with_reducible apply KeepsOut.next

theorem State.consentCmd_keeps {s0 : State} (s : State) (k : Nat) (hk : Keeps s0 s) : Keeps s0 (State.consentCmd s k).1 := by
  unfold State.consentCmd
  repeat' first
    | with_reducible assumption | with_reducible exact Keeps.refl _ | with_reducible apply State.badSig_keeps
    | with_reducible apply State.policyChanged_keeps | with_reducible apply State.put_keeps
    | with_reducible apply State.secEvent_keeps | with_reducible apply State.setCanton_keeps
    | with_reducible apply State.workConserve_keeps | with_reducible apply Keeps.foldl1 | extract_lets
    | with_reducible apply Keeps.cond | with_reducible apply KeepsOut.cond | with_reducible apply Keeps.foldl
    | (with_reducible apply Keeps.snd (by assumption)) | (with_reducible apply Keeps.fst (by assumption)) | intro _
    | split

theorem execSecConsent_keeps {s0 : State} (v : View) (k : Fin 8) (s : State) (hk : Keeps s0 s) : KeepsOut s0
    (execSecConsent v k s) := by
  unfold execSecConsent
  repeat' first
    | with_reducible assumption | with_reducible exact Keeps.refl _ | with_reducible apply State.consentCmd_keeps
    | with_reducible apply State.secCmd_keeps | with_reducible apply KeepsOut.next

theorem State.dataKey_keeps {s0 : State} (s : State) (k : Nat) (hk : Keeps s0 s) : Keeps s0 (State.dataKey s k).1 := by
  unfold State.dataKey
  repeat' first
    | with_reducible assumption | with_reducible exact Keeps.refl _ | with_reducible apply State.setCanton_keeps
    | with_reducible apply Keeps.foldl1 | extract_lets | with_reducible apply Keeps.cond
    | with_reducible apply KeepsOut.cond | with_reducible apply Keeps.foldl
    | (with_reducible apply Keeps.snd (by assumption)) | (with_reducible apply Keeps.fst (by assumption)) | intro _
    | split

theorem execSecDatakey_keeps {s0 : State} (v : View) (k : Fin 8) (s : State) (hk : Keeps s0 s) : KeepsOut s0
    (execSecDatakey v k s) := by
  unfold execSecDatakey
  repeat' first
    | with_reducible assumption | with_reducible exact Keeps.refl _ | with_reducible apply State.dataKey_keeps
    | with_reducible apply State.secCmd_keeps | with_reducible apply KeepsOut.next

theorem State.kaAlarm_keeps {s0 : State} (s : State) (purpose : Nat) (k : Nat) (hk : Keeps s0 s) : Keeps s0
    (State.kaAlarm s purpose k) := by
  unfold State.kaAlarm
  repeat' first
    | with_reducible assumption | with_reducible exact Keeps.refl _ | with_reducible apply State.raise_keeps

theorem State.kaOne_keeps {s0 : State} (s : State) (ka1 : List Byte) (hk : Keeps s0 s) : Keeps s0 (State.kaOne s ka1).1 := by
  unfold State.kaOne
  repeat' first
    | with_reducible assumption | with_reducible exact Keeps.refl _ | with_reducible apply State.kaAlarm_keeps
    | with_reducible apply State.rand_keeps | with_reducible apply State.setSec_keeps
    | with_reducible apply Keeps.foldl1 | extract_lets | with_reducible apply Keeps.cond
    | with_reducible apply KeepsOut.cond | with_reducible apply Keeps.foldl
    | (with_reducible apply Keeps.snd (by assumption)) | (with_reducible apply Keeps.fst (by assumption)) | intro _
    | split

theorem State.kaStart_keeps {s0 : State} (s : State) (purpose : Nat) (k : Nat) (hk : Keeps s0 s) : Keeps s0
    (State.kaStart s purpose k).1 := by
  unfold State.kaStart
  repeat' first
    | with_reducible assumption | with_reducible exact Keeps.refl _ | with_reducible apply State.rand_keeps
    | with_reducible apply State.setSec_keeps

theorem State.dropKa_keeps {s0 : State} (s : State) (i : Nat) (hk : Keeps s0 s) : Keeps s0 (State.dropKa s i) := by
  unfold State.dropKa
  repeat' first
    | with_reducible assumption | with_reducible exact Keeps.refl _ | with_reducible apply State.setSec_keeps

theorem State.useSecret_keeps {s0 : State} (s : State) (purpose : Nat) (k : Nat) (peer : Nat) (sec : List Byte) (hk :
    Keeps s0 s) : Keeps s0 (State.useSecret s purpose k peer sec) := by
  unfold State.useSecret
  repeat' first
    | with_reducible assumption | with_reducible exact Keeps.refl _ | with_reducible apply State.setCanton_keeps
    | with_reducible apply State.setSec_keeps | with_reducible apply Keeps.foldl1 | extract_lets
    | with_reducible apply Keeps.cond | with_reducible apply KeepsOut.cond | with_reducible apply Keeps.foldl
    | (with_reducible apply Keeps.snd (by assumption)) | (with_reducible apply Keeps.fst (by assumption)) | intro _
    | split | fail_if_no_progress dsimp +zetaDelta only | (fail_if_no_progress with_reducible refine Keeps.record ?_)

theorem State.kaThree_keeps {s0 : State} (s : State) (i : Nat) (ka3 : List Byte) (hk : Keeps s0 s) : Keeps s0
    (State.kaThree s i ka3).1 := by
  unfold State.kaThree
  repeat' first
    | with_reducible assumption | with_reducible exact Keeps.refl _ | with_reducible apply State.dropKa_keeps
    | with_reducible apply State.kaAlarm_keeps | with_reducible apply State.useSecret_keeps
    | with_reducible apply Keeps.foldl1 | extract_lets | with_reducible apply Keeps.cond
    | with_reducible apply KeepsOut.cond | with_reducible apply Keeps.foldl
    | (with_reducible apply Keeps.snd (by assumption)) | (with_reducible apply Keeps.fst (by assumption)) | intro _
    | split

theorem State.kaTwo_keeps {s0 : State} (s : State) (i : Nat) (ka2 : List Byte) (hk : Keeps s0 s) : Keeps s0 (State.kaTwo
    s i ka2).1 := by
  unfold State.kaTwo
  repeat' first
    | with_reducible assumption | with_reducible exact Keeps.refl _ | with_reducible apply State.dropKa_keeps
    | with_reducible apply State.kaAlarm_keeps | with_reducible apply State.useSecret_keeps
    | with_reducible apply Keeps.foldl1 | extract_lets | with_reducible apply Keeps.cond
    | with_reducible apply KeepsOut.cond | with_reducible apply Keeps.foldl
    | (with_reducible apply Keeps.snd (by assumption)) | (with_reducible apply Keeps.fst (by assumption)) | intro _
    | split

theorem State.kagree_keeps {s0 : State} (s : State) (k : Nat) (step : KaStep) (hk : Keeps s0 s) : Keeps s0 (State.kagree
    s k step).1 := by
  unfold State.kagree
  repeat' first
    | with_reducible assumption | with_reducible exact Keeps.refl _ | with_reducible apply State.bufPut_keeps
    | with_reducible apply State.kaOne_keeps | with_reducible apply State.kaStart_keeps
    | with_reducible apply State.kaThree_keeps | with_reducible apply State.kaTwo_keeps
    | with_reducible apply Keeps.foldl1 | extract_lets | with_reducible apply Keeps.cond
    | with_reducible apply KeepsOut.cond | with_reducible apply Keeps.foldl
    | (with_reducible apply Keeps.snd (by assumption)) | (with_reducible apply Keeps.fst (by assumption)) | intro _
    | split

theorem execSecKagree_keeps {s0 : State} (v : View) (k : Fin 8) (step : KaStep) (s : State) (hk : Keeps s0 s) : KeepsOut
    s0 (execSecKagree v k step s) := by
  unfold execSecKagree
  repeat' first
    | with_reducible assumption | with_reducible exact Keeps.refl _ | with_reducible apply State.kagree_keeps
    | with_reducible apply State.secCmd_keeps | with_reducible apply KeepsOut.next

theorem State.keyDrop_keeps {s0 : State} (s : State) (k : Nat) (slot : Nat) (hk : Keeps s0 s) : Keeps s0 (State.keyDrop
    s k slot) := by
  unfold State.keyDrop
  repeat' first
    | with_reducible assumption | with_reducible exact Keeps.refl _ | with_reducible apply State.setCanton_keeps
    | with_reducible apply Keeps.foldl1 | extract_lets | with_reducible apply Keeps.cond
    | with_reducible apply KeepsOut.cond | with_reducible apply Keeps.foldl
    | (with_reducible apply Keeps.snd (by assumption)) | (with_reducible apply Keeps.fst (by assumption)) | intro _
    | split | fail_if_no_progress dsimp +zetaDelta only | (fail_if_no_progress with_reducible refine Keeps.record ?_)

theorem execSecKeydrop_keeps {s0 : State} (v : View) (k : Fin 8) (slot : Fin 16) (s : State) (hk : Keeps s0 s) :
    KeepsOut s0 (execSecKeydrop v k slot s) := by
  unfold execSecKeydrop
  repeat' first
    | with_reducible assumption | with_reducible exact Keeps.refl _ | with_reducible apply State.keyDrop_keeps
    | with_reducible apply State.secCmd_keeps | with_reducible apply KeepsOut.next | with_reducible apply Keeps.foldl1
    | extract_lets | with_reducible apply Keeps.cond | with_reducible apply KeepsOut.cond
    | with_reducible apply Keeps.foldl | (with_reducible apply Keeps.snd (by assumption))
    | (with_reducible apply Keeps.fst (by assumption)) | intro _ | split

theorem State.release_keeps {s0 : State} (s : State) (k : Nat) (slot : Nat) (hk : Keeps s0 s) : Keeps s0 (State.release
    s k slot).1 := by
  unfold State.release
  repeat' first
    | with_reducible assumption | with_reducible exact Keeps.refl _ | with_reducible apply State.badSig_keeps
    | with_reducible apply State.bufPut_keeps | with_reducible apply State.loadSlot_keeps
    | with_reducible apply State.rand_keeps | with_reducible apply State.secEvent_keeps
    | with_reducible apply State.setCanton_keeps | with_reducible apply Keeps.foldl1 | extract_lets
    | with_reducible apply Keeps.cond | with_reducible apply KeepsOut.cond | with_reducible apply Keeps.foldl
    | (with_reducible apply Keeps.snd (by assumption)) | (with_reducible apply Keeps.fst (by assumption)) | intro _
    | split | fail_if_no_progress dsimp +zetaDelta only | (fail_if_no_progress with_reducible refine Keeps.record ?_)

theorem execSecRelease_keeps {s0 : State} (v : View) (k : Fin 8) (slot : Fin 16) (s : State) (hk : Keeps s0 s) :
    KeepsOut s0 (execSecRelease v k slot s) := by
  unfold execSecRelease
  repeat' first
    | with_reducible assumption | with_reducible exact Keeps.refl _ | with_reducible apply State.release_keeps
    | with_reducible apply State.secCmd_keeps | with_reducible apply KeepsOut.next

theorem State.resume_keeps {s0 : State} (s : State) (k : Nat) (slot : Nat) (hk : Keeps s0 s) : Keeps s0 (State.resume s
    k slot).1 := by
  unfold State.resume
  repeat' first
    | with_reducible assumption | with_reducible exact Keeps.refl _ | with_reducible apply State.badSig_keeps
    | with_reducible apply State.setCanton_keeps | with_reducible apply Keeps.foldl1 | extract_lets
    | with_reducible apply Keeps.cond | with_reducible apply KeepsOut.cond | with_reducible apply Keeps.foldl
    | (with_reducible apply Keeps.snd (by assumption)) | (with_reducible apply Keeps.fst (by assumption)) | intro _
    | split

theorem execSecResume_keeps {s0 : State} (v : View) (k : Fin 8) (slot : Fin 16) (s : State) (hk : Keeps s0 s) : KeepsOut
    s0 (execSecResume v k slot s) := by
  unfold execSecResume
  repeat' first
    | with_reducible assumption | with_reducible exact Keeps.refl _ | with_reducible apply State.resume_keeps
    | with_reducible apply State.secCmd_keeps | with_reducible apply KeepsOut.next

theorem State.abortGroups_keeps {s0 : State} (s : State) (k : Nat) (hk : Keeps s0 s) : Keeps s0 (State.abortGroups s k) := by
  unfold State.abortGroups
  repeat' first
    | with_reducible assumption | with_reducible exact Keeps.refl _ | with_reducible apply State.abortOps_keeps
    | with_reducible apply State.gEvent_keeps | with_reducible apply State.gUpdate_keeps
    | with_reducible apply State.lagSync_keeps | with_reducible apply State.put_keeps
    | with_reducible apply Keeps.foldl1 | extract_lets | with_reducible apply Keeps.cond
    | with_reducible apply KeepsOut.cond | with_reducible apply Keeps.foldl | intro _

theorem State.quiesce_keeps {s0 : State} (s : State) (k : Nat) (hk : Keeps s0 s) : Keeps s0 (State.quiesce s k) := by
  unfold State.quiesce
  repeat' first
    | with_reducible assumption | with_reducible exact Keeps.refl _ | with_reducible apply State.abortGroups_keeps
    | with_reducible apply State.put_keeps | with_reducible apply State.setCanton_keeps
    | with_reducible apply State.stopQueues_keeps | with_reducible apply Keeps.foldl1 | extract_lets
    | with_reducible apply Keeps.cond | with_reducible apply KeepsOut.cond | with_reducible apply Keeps.foldl
    | (with_reducible apply Keeps.snd (by assumption)) | (with_reducible apply Keeps.fst (by assumption)) | intro _
    | split | fail_if_no_progress dsimp +zetaDelta only | (fail_if_no_progress with_reducible refine Keeps.record ?_)

theorem State.beginScrub_keeps {s0 : State} (s : State) (k : Nat) (hk : Keeps s0 s) : Keeps s0 (State.beginScrub s k) := by
  unfold State.beginScrub
  repeat' first
    | with_reducible assumption | with_reducible exact Keeps.refl _ | with_reducible apply State.quiesce_keeps
    | with_reducible apply State.scrubbing_keeps | with_reducible apply State.setCanton_keeps
    | with_reducible apply State.setStep_keeps | with_reducible apply State.workConserve_keeps

theorem execSecScrub_keeps {s0 : State} (v : View) (k : Fin 8) (s : State) (hk : Keeps s0 s) : KeepsOut s0 (execSecScrub
    v k s) := by
  unfold execSecScrub
  repeat' first
    | with_reducible assumption | with_reducible exact Keeps.refl _ | with_reducible apply State.beginScrub_keeps
    | with_reducible apply State.secCmd_keeps | with_reducible apply KeepsOut.next | with_reducible apply Keeps.foldl1
    | extract_lets | with_reducible apply Keeps.cond | with_reducible apply KeepsOut.cond
    | with_reducible apply Keeps.foldl | (with_reducible apply Keeps.snd (by assumption))
    | (with_reducible apply Keeps.fst (by assumption)) | intro _ | split

theorem execSecShare_keeps {s0 : State} (v : View) (k : Fin 8) (s : State) (hk : Keeps s0 s) : KeepsOut s0 (execSecShare
    v k s) := by
  unfold execSecShare
  repeat' first
    | with_reducible assumption | with_reducible exact Keeps.refl _ | with_reducible apply State.secCmd_keeps
    | with_reducible apply State.share_keeps | with_reducible apply KeepsOut.next

theorem State.secCmdWrite_keeps {s0 : State} (s : State) (x : W32) (step : KaStep) (hk : Keeps s0 s) :
    Keeps s0 (s.secCmdWrite x step) := by
  unfold State.secCmdWrite
  repeat' first
    | with_reducible assumption | with_reducible exact Keeps.refl _ | with_reducible apply KeepsOut.next
    | with_reducible apply execSecAssign_keeps | with_reducible apply execSecCkpt_keeps
    | with_reducible apply execSecConsent_keeps | with_reducible apply execSecDatakey_keeps
    | with_reducible apply execSecKagree_keeps | with_reducible apply execSecKeydrop_keeps
    | with_reducible apply execSecRelease_keeps | with_reducible apply execSecResume_keeps
    | with_reducible apply execSecScrub_keeps | with_reducible apply execSecShare_keeps
    | with_reducible apply outState_keeps | with_reducible apply Keeps.foldl1 | extract_lets
    | with_reducible apply Keeps.cond | with_reducible apply KeepsOut.next | with_reducible apply KeepsOut.cond
    | with_reducible apply Keeps.foldl | intro _ | split

theorem execRegionDisable_keeps {s0 : State} (k : Fin 8) (r : Fin 16) (s : State) (hk : Keeps s0 s) : KeepsOut s0
    (execRegionDisable k r s) := by
  unfold execRegionDisable
  repeat' first
    | with_reducible assumption | with_reducible exact Keeps.refl _ | with_reducible apply State.regionSync_keeps
    | with_reducible apply State.setHost_keeps | with_reducible apply KeepsOut.next
    | with_reducible apply Keeps.foldl1 | extract_lets | with_reducible apply Keeps.cond
    | with_reducible apply KeepsOut.cond | with_reducible apply Keeps.foldl | intro _

theorem execSecOwnWrite_keeps {s0 : State} (v : View) (x : W32) (s : State) (hk : Keeps s0 s) : KeepsOut s0
    (execSecOwnWrite v x s) := by
  unfold execSecOwnWrite
  repeat' first
    | with_reducible assumption | with_reducible exact Keeps.refl _ | with_reducible apply State.put_keeps
    | with_reducible apply State.setSec_keeps | with_reducible apply KeepsOut.next | with_reducible apply Keeps.foldl1
    | extract_lets | with_reducible apply Keeps.cond | with_reducible apply KeepsOut.cond
    | with_reducible apply Keeps.foldl | intro _

theorem State.hostWrite_keeps {s0 : State} (s : State) (addr : Nat) (x : W32) (hk : Keeps s0 s) : Keeps s0
    (State.hostWrite s addr x) := by
  unfold State.hostWrite
  repeat' first
    | with_reducible assumption | with_reducible exact Keeps.refl _ | with_reducible apply State.flCmdWrite_keeps
    | with_reducible apply State.mboxTo_keeps | with_reducible apply State.pwrCtlWrite_keeps
    | with_reducible apply State.rstCmdWrite_keeps | with_reducible apply State.secCmdWrite_keeps
    | with_reducible apply State.setHostTime_keeps | with_reducible apply execRegionDisable_keeps
    | with_reducible apply execSecOwnWrite_keeps | with_reducible apply outState_keeps
    | with_reducible apply regWrite_keeps | with_reducible apply Keeps.foldl1 | extract_lets
    | with_reducible apply Keeps.cond | with_reducible apply KeepsOut.cond | with_reducible apply Keeps.foldl
    | (with_reducible apply Keeps.snd (by assumption)) | (with_reducible apply Keeps.fst (by assumption)) | intro _
    | split

theorem State.maPerf_keeps {s0 : State} (s : State) (d : Fin 40) (a : Fin 4) (reg : Nat) (n : Nat) (hk : Keeps s0 s) :
    Keeps s0 (State.maPerf s d a reg n) := by
  unfold State.maPerf
  repeat' first
    | with_reducible assumption | with_reducible exact Keeps.refl _ | with_reducible apply State.bump_keeps
    | with_reducible apply Keeps.foldl1 | extract_lets | with_reducible apply Keeps.cond
    | with_reducible apply KeepsOut.cond | with_reducible apply Keeps.foldl | intro _

theorem State.maPerf64_keeps {s0 : State} (s : State) (d : Fin 40) (a : Fin 4) (lo : Nat) (hi : Nat) (n : Nat) (hk :
    Keeps s0 s) : Keeps s0 (State.maPerf64 s d a lo hi n) := by
  unfold State.maPerf64
  repeat' first
    | with_reducible assumption | with_reducible exact Keeps.refl _ | with_reducible apply State.add64_keeps
    | with_reducible apply Keeps.foldl1 | extract_lets | with_reducible apply Keeps.cond
    | with_reducible apply KeepsOut.cond | with_reducible apply Keeps.foldl | intro _

theorem State.maFlags_keeps {s0 : State} (s : State) (d : Fin 40) (a : Fin 4) (f : Flags) (hk : Keeps s0 s) : Keeps s0
    (State.maFlags s d a f) := by
  unfold State.maFlags
  repeat' first
    | with_reducible assumption | with_reducible exact Keeps.refl _ | with_reducible apply State.setIf_keeps

theorem State.recordRefusal_keeps {s0 : State} (s : State) (a : Nat) (code : Nat) (opcode : Nat) (hk : Keeps s0 s) :
    Keeps s0 (State.recordRefusal s a code opcode) := by
  unfold State.recordRefusal
  repeat' first
    | with_reducible assumption | with_reducible exact Keeps.refl _ | with_reducible apply State.wr_keeps
    | with_reducible apply Keeps.foldl1 | extract_lets | with_reducible apply Keeps.cond
    | with_reducible apply KeepsOut.cond | with_reducible apply Keeps.foldl | intro _

theorem State.recordFault_keeps {s0 : State} (s : State) (d : Fin 40) (q : Nat) (code : Nat) (unit : Nat) (opcode : Nat)
    (depth : Nat) (idx : Nat) (hk : Keeps s0 s) : Keeps s0 (State.recordFault s d q code unit opcode depth idx) := by
  unfold State.recordFault
  repeat' first
    | with_reducible assumption | with_reducible exact Keeps.refl _ | with_reducible apply State.wr_keeps
    | with_reducible apply Keeps.foldl1 | extract_lets | with_reducible apply Keeps.cond
    | with_reducible apply KeepsOut.cond | with_reducible apply Keeps.foldl | intro _

theorem State.queueFault_keeps {s0 : State} (s : State) (d : Fin 40) (q : Fin 4) (code : Nat) (unit : Nat) (opcode :
    Nat) (depth : Nat) (idx : Nat) (hk : Keeps s0 s) : Keeps s0 (State.queueFault s d q code unit opcode depth idx) :=
    by
  unfold State.queueFault
  repeat' first
    | with_reducible assumption | with_reducible exact Keeps.refl _ | with_reducible apply State.put_keeps
    | with_reducible apply State.raise_keeps | with_reducible apply State.recordFault_keeps
    | with_reducible apply State.setCd_keeps

theorem State.unitFault_keeps {s0 : State} (s : State) (d : Fin 40) (u : Fin 8) (e : UCmd) (code : Nat) (hk : Keeps s0
    s) : Keeps s0 (State.unitFault s d u e code) := by
  unfold State.unitFault
  repeat' first
    | with_reducible assumption | with_reducible exact Keeps.refl _ | with_reducible apply State.queueFault_keeps
    | with_reducible apply State.setCd_keeps

theorem State.maRefuse_keeps {s0 : State} (s : State) (d : Fin 40) (a : Fin 4) (e : UCmd) (code : Nat) (hk : Keeps s0 s)
    : Keeps s0 (State.maRefuse s d a e code) := by
  unfold State.maRefuse
  repeat' first
    | with_reducible assumption | with_reducible exact Keeps.refl _ | with_reducible apply State.raise_keeps
    | with_reducible apply State.recordRefusal_keeps | with_reducible apply State.unitFault_keeps

theorem State.issueBatch_keeps {s0 : State} (s : State) (d : Fin 40) (a : Fin 4) (hk : Keeps s0 s) : Keeps s0
    (State.issueBatch s d a) := by
  unfold State.issueBatch
  repeat' first
    | with_reducible assumption | with_reducible exact Keeps.refl _ | with_reducible apply State.bumpWrap_keeps
    | with_reducible apply State.maSync_keeps | with_reducible apply State.put_keeps
    | with_reducible apply State.setMa_keeps | with_reducible apply Keeps.foldl1 | extract_lets
    | with_reducible apply Keeps.cond | with_reducible apply KeepsOut.cond | with_reducible apply Keeps.foldl
    | (with_reducible apply Keeps.snd (by assumption)) | (with_reducible apply Keeps.fst (by assumption)) | intro _
    | split

theorem State.popHead_keeps {s0 : State} (s : State) (d : Fin 40) (u : Fin 8) (hk : Keeps s0 s) : Keeps s0
    (State.popHead s d u) := by
  unfold State.popHead
  repeat' first
    | with_reducible assumption | with_reducible exact Keeps.refl _ | with_reducible apply State.setCd_keeps

theorem State.acceptHoist_keeps {s0 : State} (s : State) (d : Fin 40) (a : Fin 4) (e : UCmd) (hk : Keeps s0 s) : Keeps
    s0 (State.acceptHoist s d a e) := by
  unfold State.acceptHoist
  repeat' first
    | with_reducible assumption | with_reducible exact Keeps.refl _ | with_reducible apply State.maSync_keeps
    | with_reducible apply State.popHead_keeps | with_reducible apply State.setMa_keeps
    | with_reducible apply Keeps.foldl1 | extract_lets | with_reducible apply Keeps.cond
    | with_reducible apply KeepsOut.cond | with_reducible apply Keeps.foldl
    | (with_reducible apply Keeps.snd (by assumption)) | (with_reducible apply Keeps.fst (by assumption)) | intro _
    | split

theorem State.acceptPass_keeps {s0 : State} (s : State) (d : Fin 40) (a : Fin 4) (e : UCmd) (hk : Keeps s0 s) : Keeps s0
    (State.acceptPass s d a e) := by
  unfold State.acceptPass
  repeat' first
    | with_reducible assumption | with_reducible exact Keeps.refl _ | with_reducible apply State.maSync_keeps
    | with_reducible apply State.popHead_keeps | with_reducible apply State.setMa_keeps
    | with_reducible apply Keeps.foldl1 | extract_lets | with_reducible apply Keeps.cond
    | with_reducible apply KeepsOut.cond | with_reducible apply Keeps.foldl
    | (with_reducible apply Keeps.snd (by assumption)) | (with_reducible apply Keeps.fst (by assumption)) | intro _
    | split

theorem State.acceptCcfg_keeps {s0 : State} (s : State) (d : Fin 40) (a : Fin 4) (e : UCmd) (hk : Keeps s0 s) : Keeps s0
    (State.acceptCcfg s d a e) := by
  unfold State.acceptCcfg
  repeat' first
    | with_reducible assumption | with_reducible exact Keeps.refl _ | with_reducible apply State.complete_keeps
    | with_reducible apply State.maSync_keeps | with_reducible apply State.popHead_keeps
    | with_reducible apply State.put_keeps | with_reducible apply State.setMa_keeps

theorem State.acceptReq_keeps {s0 : State} (s : State) (d : Fin 40) (a : Fin 4) (e : UCmd) (cfg : Cmd) (hk : Keeps s0 s)
    : Keeps s0 (State.acceptReq s d a e cfg) := by
  unfold State.acceptReq
  repeat' first
    | with_reducible assumption | with_reducible exact Keeps.refl _ | with_reducible apply State.complete_keeps
    | with_reducible apply State.issueBatch_keeps | with_reducible apply State.maSync_keeps
    | with_reducible apply State.popHead_keeps | with_reducible apply State.setMa_keeps
    | with_reducible apply Keeps.foldl1 | extract_lets | with_reducible apply Keeps.cond
    | with_reducible apply KeepsOut.cond | with_reducible apply Keeps.foldl | intro _

theorem State.maAccept_keeps {s0 : State} (s : State) (d : Fin 40) (a : Fin 4) (hk : Keeps s0 s) : Keeps s0
    (State.maAccept s d a) := by
  unfold State.maAccept
  repeat' first
    | with_reducible assumption | with_reducible exact Keeps.refl _ | with_reducible apply State.acceptCcfg_keeps
    | with_reducible apply State.acceptHoist_keeps | with_reducible apply State.acceptPass_keeps
    | with_reducible apply State.acceptReq_keeps | with_reducible apply State.complete_keeps
    | with_reducible apply State.issueBatch_keeps | with_reducible apply State.maRefuse_keeps
    | with_reducible apply State.popHead_keeps | with_reducible apply State.setMa_keeps
    | with_reducible apply Keeps.foldl1 | extract_lets | with_reducible apply Keeps.cond
    | with_reducible apply KeepsOut.cond | with_reducible apply Keeps.foldl
    | (with_reducible apply Keeps.snd (by assumption)) | (with_reducible apply Keeps.fst (by assumption)) | intro _
    | split

theorem State.atHead_keeps {s0 : State} (s : State) (d : Fin 40) (u : Fin 8) (q : Fin 4) (w : Cmd) (hk : Keeps s0 s) :
    Keeps s0 (State.atHead s d u q w) := by
  unfold State.atHead
  repeat' first
    | with_reducible assumption | with_reducible exact Keeps.refl _ | with_reducible apply State.queueFault_keeps
    | with_reducible apply State.setCd_keeps | with_reducible apply Keeps.foldl1 | extract_lets
    | with_reducible apply Keeps.cond | with_reducible apply KeepsOut.cond | with_reducible apply Keeps.foldl
    | (with_reducible apply Keeps.snd (by assumption)) | (with_reducible apply Keeps.fst (by assumption)) | intro _
    | split

theorem State.enter_keeps {s0 : State} (s : State) (d : Fin 40) (u : Fin 8) (q : Fin 4) (w : Cmd) (hk : Keeps s0 s) :
    Keeps s0 (State.enter s d u q w).1 := by
  unfold State.enter
  repeat' first
    | with_reducible assumption | with_reducible exact Keeps.refl _ | with_reducible apply State.atHead_keeps
    | with_reducible apply Keeps.foldl1 | extract_lets | with_reducible apply Keeps.cond
    | with_reducible apply KeepsOut.cond | with_reducible apply Keeps.foldl
    | (with_reducible apply Keeps.snd (by assumption)) | (with_reducible apply Keeps.fst (by assumption)) | intro _
    | split

theorem State.maEnter_keeps {s0 : State} (s : State) (d : Fin 40) (a : Fin 4) (q : Fin 4) (w : Cmd) (hk : Keeps s0 s) :
    Keeps s0 (State.maEnter s d a q w) := by
  unfold State.maEnter
  repeat' first
    | with_reducible assumption | with_reducible exact Keeps.refl _ | with_reducible apply State.enter_keeps
    | with_reducible apply State.maAccept_keeps | with_reducible apply Keeps.foldl1 | extract_lets
    | with_reducible apply Keeps.cond | with_reducible apply KeepsOut.cond | with_reducible apply Keeps.foldl
    | intro _

theorem State.useGrant_keeps {s0 : State} (s : State) (d : Fin 40) (r : Fin 9) (k : LsKind) (hk : Keeps s0 s) : Keeps s0
    (State.useGrant s d r k) := by
  unfold State.useGrant
  repeat' first
    | with_reducible assumption | with_reducible exact Keeps.refl _ | with_reducible apply State.setCd_keeps

theorem State.passPoison_keeps {s0 : State} (s : State) (d : Fin 40) (a : Fin 4) (e : UCmd) (hk : Keeps s0 s) : Keeps s0
    (State.passPoison s d a e) := by
  unfold State.passPoison
  repeat' first
    | with_reducible assumption | with_reducible exact Keeps.refl _ | with_reducible apply State.setMa_keeps
    | with_reducible apply State.unitFault_keeps

theorem State.hoistPoison_keeps {s0 : State} (s : State) (d : Fin 40) (a : Fin 4) (e : UCmd) (hk : Keeps s0 s) : Keeps
    s0 (State.hoistPoison s d a e) := by
  unfold State.hoistPoison
  repeat' first
    | with_reducible assumption | with_reducible exact Keeps.refl _ | with_reducible apply State.setMa_keeps
    | with_reducible apply State.unitFault_keeps

theorem State.slotFeed_keeps {s0 : State} (s : State) (d : Fin 40) (a : Fin 4) (p : Pass) (hk : Keeps s0 s) : Keeps s0
    (State.slotFeed s d a p) := by
  unfold State.slotFeed
  repeat' first
    | with_reducible assumption | with_reducible exact Keeps.refl _ | with_reducible apply State.maPerf_keeps
    | with_reducible apply State.maPerf64_keeps | with_reducible apply State.maSync_keeps
    | with_reducible apply State.pass_keeps | with_reducible apply State.passPoison_keeps
    | with_reducible apply State.put_keeps | with_reducible apply State.setMa_keeps
    | with_reducible apply State.useGrant_keeps | with_reducible apply Keeps.foldl1 | extract_lets
    | with_reducible apply Keeps.cond | with_reducible apply KeepsOut.cond | with_reducible apply Keeps.foldl
    | (with_reducible apply Keeps.snd (by assumption)) | (with_reducible apply Keeps.fst (by assumption)) | intro _
    | split

theorem State.writeLine_keeps {s0 : State} (s : State) (d : Fin 40) (a : Fin 4) (r : FedRow) (col : Nat) (hk : Keeps s0
    s) : Keeps s0 (State.writeLine s d a r col) := by
  unfold State.writeLine
  repeat' first
    | with_reducible assumption | with_reducible exact Keeps.refl _ | with_reducible apply State.coverLines_keeps
    | with_reducible apply State.putNum_keeps | with_reducible apply State.setMa_keeps
    | with_reducible apply Keeps.foldl1 | extract_lets | with_reducible apply Keeps.cond
    | with_reducible apply KeepsOut.cond | with_reducible apply Keeps.foldl | intro _

theorem State.outPoison_keeps {s0 : State} (s : State) (d : Fin 40) (a : Fin 4) (r : FedRow) (hk : Keeps s0 s) : Keeps
    s0 (State.outPoison s d a r) := by
  unfold State.outPoison
  repeat' first
    | with_reducible assumption | with_reducible exact Keeps.refl _ | with_reducible apply State.maSync_keeps
    | with_reducible apply State.pass_keeps | with_reducible apply State.passPoison_keeps
    | with_reducible apply State.setCd_keeps | with_reducible apply State.setMa_keeps

theorem State.output_keeps {s0 : State} (s : State) (d : Fin 40) (a : Fin 4) (r : FedRow) (col : Nat) (par : MaParity)
    (hk : Keeps s0 s) : Keeps s0 (State.output s d a r col par) := by
  unfold State.output
  repeat' first
    | with_reducible assumption | with_reducible exact Keeps.refl _ | with_reducible apply State.maFlags_keeps
    | with_reducible apply State.maSync_keeps | with_reducible apply State.put_keeps
    | with_reducible apply State.raise_keeps | with_reducible apply State.setMa_keeps
    | with_reducible apply State.writeLine_keeps | with_reducible apply Keeps.foldl1 | extract_lets
    | with_reducible apply Keeps.cond | with_reducible apply KeepsOut.cond | with_reducible apply Keeps.foldl
    | intro _

theorem State.setSpdm_keeps {s0 : State} (s : State) (x : Spdm) (hk : Keeps s0 s) : Keeps s0 (State.setSpdm s x) := by
  unfold State.setSpdm
  repeat' first
    | with_reducible assumption | with_reducible exact Keeps.refl _ | with_reducible apply State.setSec_keeps

theorem State.spdmAnswer_keeps {s0 : State} (s : State) (tcp : Bool) (a : SpdmAnswer) (hk : Keeps s0 s) : Keeps s0
    (State.spdmAnswer s tcp a) := by
  unfold State.spdmAnswer
  repeat' first
    | with_reducible assumption | with_reducible exact Keeps.refl _ | with_reducible apply State.answer_keeps
    | with_reducible apply State.setSpdm_keeps | with_reducible apply Keeps.foldl1 | extract_lets
    | with_reducible apply Keeps.cond | with_reducible apply KeepsOut.cond | with_reducible apply Keeps.foldl
    | intro _

theorem State.spdmSigned_keeps {s0 : State} (s : State) (tcp : Bool) (a : SpdmAnswer) (hk : Keeps s0 s) : Keeps s0
    (State.spdmSigned s tcp a) := by
  unfold State.spdmSigned
  repeat' first
    | with_reducible assumption | with_reducible exact Keeps.refl _ | with_reducible apply State.setSpdm_keeps
    | with_reducible apply State.spdmAnswer_keeps | with_reducible apply Keeps.foldl1 | extract_lets
    | with_reducible apply Keeps.cond | with_reducible apply KeepsOut.cond | with_reducible apply Keeps.foldl
    | intro _

theorem State.putElem_keeps {s0 : State} (s : State) (a : Nat) (bits : Nat) (k : Nat) (x : Nat) (hk : Keeps s0 s) :
    Keeps s0 (State.putElem s a bits k x) := by
  unfold State.putElem
  repeat' first
    | with_reducible assumption | with_reducible exact Keeps.refl _ | with_reducible apply State.putBytes_keeps
    | with_reducible apply State.putNum_keeps | with_reducible apply Keeps.foldl1 | extract_lets
    | with_reducible apply Keeps.cond | with_reducible apply KeepsOut.cond | with_reducible apply Keeps.foldl
    | intro _

theorem State.setVe_keeps {s0 : State} (s : State) (d : Fin 40) (v : VEng) (hk : Keeps s0 s) : Keeps s0 (State.setVe s d v) := by
  unfold State.setVe
  repeat' first
    | with_reducible assumption | with_reducible exact Keeps.refl _ | with_reducible apply State.setCd_keeps

theorem State.writeElem_keeps {s0 : State} (s : State) (d : Fin 40) (o : Opnd) (fmt : Nat) (k : Nat) (c : Nat) (hk :
    Keeps s0 s) : Keeps s0 (State.writeElem s d o fmt k c) := by
  unfold State.writeElem
  repeat' first
    | with_reducible assumption | with_reducible exact Keeps.refl _ | with_reducible apply State.putElem_keeps
    | with_reducible apply State.setVe_keeps | with_reducible apply Keeps.foldl1 | extract_lets
    | with_reducible apply Keeps.cond | with_reducible apply KeepsOut.cond | with_reducible apply Keeps.foldl
    | (with_reducible apply Keeps.snd (by assumption)) | (with_reducible apply Keeps.fst (by assumption)) | intro _
    | split

theorem State.writeElems_keeps {s0 : State} (s : State) (d : Fin 40) (o : Opnd) (fmt k : Nat) (l : List (Option Nat))
    (hk : Keeps s0 s) : Keeps s0 (s.writeElems d o fmt k l) := by
  induction l generalizing s k with
  | nil => exact hk
  | cons x l ih =>
    unfold State.writeElems
    apply ih
    split
    · exact State.writeElem_keeps _ _ _ _ _ _ hk
    · exact hk

theorem State.writeMask_keeps {s0 : State} (s : State) (d : Fin 40) (v : Nat) (k : Nat) (bs : List (Option Bool)) (hk :
    Keeps s0 s) : Keeps s0 (State.writeMask s d v k bs) := by
  unfold State.writeMask
  repeat' first
    | with_reducible assumption | with_reducible exact Keeps.refl _ | with_reducible apply State.setVe_keeps

theorem State.storeAccess_keeps {s0 : State} (s : State) (src : Nat) (d : Nat) (off : Nat) (a : Nat) (op : MpaOp) (hk :
    Keeps s0 s) : Keeps s0 (State.storeAccess s src d off a op) := by
  unfold State.storeAccess
  repeat' first
    | with_reducible assumption | with_reducible exact Keeps.refl _ | with_reducible apply State.setCd_keeps
    | with_reducible apply State.storeApply_keeps | with_reducible apply Keeps.foldl1 | extract_lets
    | with_reducible apply Keeps.cond | with_reducible apply KeepsOut.cond | with_reducible apply Keeps.foldl
    | (with_reducible apply Keeps.snd (by assumption)) | (with_reducible apply Keeps.fst (by assumption)) | intro _
    | split | fail_if_no_progress dsimp +zetaDelta only | (fail_if_no_progress with_reducible refine Keeps.record ?_)

theorem State.dropErrs_keeps {s0 : State} (s : State) (id : Nat) (hk : Keeps s0 s) : Keeps s0 (State.dropErrs s id) := by
  unfold State.dropErrs
  repeat' first
    | with_reducible assumption | with_reducible exact Keeps.refl _ | with_reducible apply Keeps.foldl1 | extract_lets
    | with_reducible apply Keeps.cond | with_reducible apply KeepsOut.cond | with_reducible apply Keeps.foldl
    | (with_reducible apply Keeps.snd (by assumption)) | (with_reducible apply Keeps.fst (by assumption)) | intro _
    | split | fail_if_no_progress dsimp +zetaDelta only | (fail_if_no_progress with_reducible refine Keeps.record ?_)

theorem State.fabUp_keeps {s0 : State} (s : State) (die : Nat) (port : Nat) (on : Bool) (hk : Keeps s0 s) : Keeps s0
    (State.fabUp s die port on) := by
  unfold State.fabUp
  repeat' first
    | with_reducible assumption | with_reducible exact Keeps.refl _ | with_reducible apply State.put_keeps

theorem State.openGasp_keeps {s0 : State} (s : State) (hk : Keeps s0 s) : Keeps s0 (State.openGasp s) := by
  unfold State.openGasp
  try dsimp only
  repeat' first
    | with_reducible assumption | with_reducible exact Keeps.refl _ | with_reducible apply State.nvAsk_keeps
    | with_reducible apply State.raise_keeps | with_reducible apply State.setRel_keeps
    | with_reducible apply State.wr_keeps | with_reducible apply Keeps.foldl1 | with_reducible apply Keeps.cond
    | with_reducible apply KeepsOut.cond | with_reducible apply Keeps.foldl
    | (with_reducible apply Keeps.snd (by assumption)) | (with_reducible apply Keeps.fst (by assumption)) | intro _
    | split

theorem State.openLog_keeps {s0 : State} (s : State) (hk : Keeps s0 s) : Keeps s0 (State.openLog s) := by
  unfold State.openLog
  repeat' first
    | with_reducible assumption | with_reducible exact Keeps.refl _ | with_reducible apply State.setRel_keeps
    | with_reducible apply State.wr_keeps | with_reducible apply Keeps.foldl1 | extract_lets
    | with_reducible apply Keeps.cond | with_reducible apply KeepsOut.cond | with_reducible apply Keeps.foldl
    | (with_reducible apply Keeps.snd (by assumption)) | (with_reducible apply Keeps.fst (by assumption)) | intro _
    | split

theorem State.start1_keeps {s0 : State} (s : State) (env : StartEnv) (hk : Keeps s0 s) : Keeps s0 (State.start1 s env) := by
  unfold State.start1
  repeat' first
    | with_reducible assumption | with_reducible exact Keeps.refl _ | with_reducible apply State.openGasp_keeps
    | with_reducible apply State.openLog_keeps | with_reducible apply State.put_keeps
    | with_reducible apply State.setPwr_keeps

theorem State.start2_keeps {s0 : State} (s : State) (env : StartEnv) (hk : Keeps s0 s) : Keeps s0 (State.start2 s env) := by
  unfold State.start2
  repeat' first
    | with_reducible assumption | with_reducible exact Keeps.refl _ | with_reducible apply State.put_keeps
    | with_reducible apply State.raise_keeps | with_reducible apply Keeps.foldl1 | extract_lets
    | with_reducible apply Keeps.cond | with_reducible apply KeepsOut.cond | with_reducible apply Keeps.foldl
    | intro _

theorem State.recoverStart_keeps {s0 : State} (s : State) (rcause : Nat) (hk : Keeps s0 s) : Keeps s0 (s.recoverStart
    rcause) := by
  unfold State.recoverStart
  try dsimp only
  repeat' first
    | with_reducible assumption | with_reducible exact Keeps.refl _
    | (fail_if_no_progress with_reducible refine Keeps.record ?_) | with_reducible apply State.lastGasp_keeps
    | with_reducible apply State.put_keeps | with_reducible apply State.setPwr_keeps
    | with_reducible apply State.setRel_keeps | with_reducible apply Keeps.foldl1 | with_reducible apply Keeps.cond
    | with_reducible apply KeepsOut.next | with_reducible apply KeepsOut.cond | with_reducible apply Keeps.foldl
    | (with_reducible apply Keeps.snd (by assumption)) | (with_reducible apply Keeps.fst (by assumption)) | intro _
    | split

theorem State.recover380_keeps {s0 : State} (s : State) (rcause : Nat) (hk : Keeps s0 s) : KeepsStage s0 (s.recover380 rcause) :=
  KeepsStage.error (State.raise_keeps _ _ _ _ _ (State.recoverStart_keeps _ _ hk))

theorem State.showSlots_keeps {s0 : State} (s : State) (imgs : List BootImage) (hk : Keeps s0 s) : Keeps s0
    (State.showSlots s imgs) := by
  unfold State.showSlots
  repeat' first
    | with_reducible assumption | with_reducible exact Keeps.refl _ | with_reducible apply State.put_keeps
    | with_reducible apply State.raise_keeps | with_reducible apply Keeps.foldl1 | extract_lets
    | with_reducible apply Keeps.cond | with_reducible apply KeepsOut.cond | with_reducible apply Keeps.foldl
    | intro _

theorem State.start3_keeps {s0 : State} (s : State) (srst : Bool) (hk : Keeps s0 s) : KeepsStage s0 (s.start3 srst) := by
  unfold State.start3
  try dsimp only
  repeat' first
    | with_reducible assumption | with_reducible exact Keeps.refl _ | with_reducible apply State.recover380_keeps
    | with_reducible apply KeepsStage.ok | with_reducible apply KeepsStage.error
    | with_reducible apply KeepsStage.cond | (fail_if_no_progress with_reducible refine Keeps.record ?_)
    | with_reducible apply State.put_keeps | with_reducible apply State.setPwr_keeps
    | with_reducible apply State.showSlots_keeps | with_reducible apply State.srst_keeps
    | with_reducible apply Keeps.foldl1 | with_reducible apply Keeps.cond | with_reducible apply KeepsOut.next
    | with_reducible apply KeepsOut.cond | with_reducible apply Keeps.foldl | intro _ | split

theorem State.start4_keeps {s0 : State} (s : State) (por : Bool) (env : StartEnv) (hk : Keeps s0 s) : KeepsStage s0
    (s.start4 por env) := by
  unfold State.start4
  try dsimp only
  repeat' first
    | with_reducible assumption | with_reducible exact Keeps.refl _ | with_reducible apply State.recover380_keeps
    | with_reducible apply KeepsStage.ok | with_reducible apply KeepsStage.error
    | with_reducible apply KeepsStage.cond | (fail_if_no_progress with_reducible refine Keeps.record ?_)
    | with_reducible apply State.put_keeps | with_reducible apply State.raise_keeps
    | with_reducible apply State.recoverStart_keeps | with_reducible apply State.setSec_keeps
    | with_reducible apply Keeps.foldl1 | with_reducible apply Keeps.cond | with_reducible apply KeepsOut.next
    | with_reducible apply KeepsOut.cond | with_reducible apply Keeps.foldl | intro _

theorem State.start5_keeps {s0 : State} (s : State) (env : StartEnv) (hk : Keeps s0 s) : Keeps s0 (State.start5 s env) := by
  unfold State.start5
  repeat' first
    | with_reducible assumption | with_reducible exact Keeps.refl _ | with_reducible apply State.nvAsk_keeps
    | with_reducible apply State.put_keeps | with_reducible apply State.raise_keeps
    | with_reducible apply State.setRel_keeps | with_reducible apply State.showFail_keeps
    | with_reducible apply State.wr_keeps | with_reducible apply Keeps.foldl1 | extract_lets
    | with_reducible apply Keeps.cond | with_reducible apply KeepsOut.cond | with_reducible apply Keeps.foldl
    | intro _

theorem State.setDead_keeps {s0 : State} (s : State) (log : Nat) (hk : Keeps s0 s) : Keeps s0 (State.setDead s log) := by
  unfold State.setDead
  repeat' first
    | with_reducible assumption | with_reducible exact Keeps.refl _ | with_reducible apply State.put_keeps
    | with_reducible apply Keeps.foldl1 | extract_lets | with_reducible apply Keeps.cond
    | with_reducible apply KeepsOut.cond | with_reducible apply Keeps.foldl
    | (with_reducible apply Keeps.snd (by assumption)) | (with_reducible apply Keeps.fst (by assumption)) | intro _
    | split | fail_if_no_progress dsimp +zetaDelta only | (fail_if_no_progress with_reducible refine Keeps.record ?_)

theorem State.start6_keeps {s0 : State} (s : State) (env : StartEnv) (srst : Bool) (hk : Keeps s0 s) : KeepsStage s0
    (s.start6 env srst) := by
  unfold State.start6
  try dsimp only
  repeat' first
    | with_reducible assumption | with_reducible exact Keeps.refl _ | with_reducible apply State.recover380_keeps
    | with_reducible apply KeepsStage.ok | with_reducible apply KeepsStage.error
    | with_reducible apply KeepsStage.cond | (fail_if_no_progress with_reducible refine Keeps.record ?_)
    | with_reducible apply State.put_keeps | with_reducible apply State.raise_keeps
    | with_reducible apply State.recoverStart_keeps | with_reducible apply State.setDead_keeps
    | with_reducible apply State.setRel_keeps | with_reducible apply State.srst_keeps
    | with_reducible apply State.trainFabric_keeps | with_reducible apply Keeps.foldl1
    | with_reducible apply Keeps.cond | with_reducible apply KeepsOut.next | with_reducible apply KeepsOut.cond
    | with_reducible apply Keeps.foldl | intro _ | split

theorem State.start7_keeps {s0 : State} (s : State) (env : StartEnv) (hk : Keeps s0 s) : KeepsStage s0 (s.start7 env) := by
  unfold State.start7
  try dsimp only
  repeat' first
    | with_reducible assumption | with_reducible exact Keeps.refl _ | with_reducible apply State.recover380_keeps
    | with_reducible apply KeepsStage.ok | with_reducible apply KeepsStage.error
    | with_reducible apply KeepsStage.cond | (fail_if_no_progress with_reducible refine Keeps.record ?_)
    | with_reducible apply State.put_keeps | with_reducible apply State.raise_keeps
    | with_reducible apply State.recoverStart_keeps | with_reducible apply State.setEng_keeps
    | with_reducible apply State.wr_keeps | with_reducible apply Keeps.foldl1 | with_reducible apply Keeps.cond
    | with_reducible apply KeepsOut.next | with_reducible apply KeepsOut.cond | with_reducible apply Keeps.foldl
    | intro _ | split

theorem State.setSlices_keeps {s0 : State} (s : State) (log : Nat) (m : List Byte) (hk : Keeps s0 s) : Keeps s0
    (State.setSlices s log m) := by
  unfold State.setSlices
  repeat' first
    | with_reducible assumption | with_reducible exact Keeps.refl _ | with_reducible apply State.wr_keeps
    | with_reducible apply Keeps.foldl1 | extract_lets | with_reducible apply Keeps.cond
    | with_reducible apply KeepsOut.cond | with_reducible apply Keeps.foldl | intro _

theorem State.start8_keeps {s0 : State} (s : State)  (hk : Keeps s0 s) : KeepsStage s0 (s.start8 ) := by
  unfold State.start8
  try dsimp only
  repeat' first
    | with_reducible assumption | with_reducible exact Keeps.refl _ | with_reducible apply State.recover380_keeps
    | with_reducible apply KeepsStage.ok | with_reducible apply KeepsStage.error
    | with_reducible apply KeepsStage.cond | (fail_if_no_progress with_reducible refine Keeps.record ?_)
    | with_reducible apply State.linkEvent_keeps | with_reducible apply State.put_keeps
    | with_reducible apply State.put64_keeps | with_reducible apply State.setSlices_keeps
    | with_reducible apply State.wr_keeps | with_reducible apply Keeps.foldl1 | with_reducible apply Keeps.cond
    | with_reducible apply KeepsOut.next | with_reducible apply KeepsOut.cond | with_reducible apply Keeps.foldl
    | intro _

theorem State.startSteps_keeps {s0 : State} (s : State) (env : StartEnv) (hk : Keeps s0 s) : Keeps s0 (s.startSteps env) := by
  unfold State.startSteps
  extract_lets kind srst t1 t2 jp r
  have h1 : Keeps s0 t1 := by
    simp only [t1]
    split
    · exact hk
    · exact State.start1_keeps _ _ hk
  have h2 : Keeps s0 t2 := by
    simp only [t2]
    split
    · exact State.start2_keeps _ _ h1
    · exact h1
  have hj : ∀ u, Keeps s0 u → KeepsStage s0 (jp u) := by
    intro u h
    have h5 : Keeps s0 (if srst = true then u else u.start5 env) := by
      split
      · exact h
      · exact State.start5_keeps _ _ h
    exact (State.start6_keeps _ _ _ h5).bind (fun _ h => (State.start7_keeps _ _ h).bind (fun _ h => State.start8_keeps _ h))
  have hr : KeepsStage s0 r := by
    refine KeepsStage.bind (State.start3_keeps _ _ h2) (fun u h => ?_)
    clear_value jp t1 t2
    try dsimp only
    split
    · exact hj _ h
    · exact (State.start4_keeps _ _ _ h).bind (fun v h => hj _ h)
  clear_value r
  cases r with
  | ok t => exact hr.ok_of _ rfl
  | error t => exact State.wr_keeps _ _ _ (hr.error_of _ rfl)

theorem State.startNow_keeps {s0 : State} (s : State) (kind : Nat) (last : Nat) (src : Nat) (env : StartEnv) (hk : Keeps
    s0 s) : Keeps s0 (State.startNow s kind last src env) := by
  unfold State.startNow
  repeat' first
    | with_reducible assumption | with_reducible exact Keeps.refl _ | with_reducible apply State.beginStart_keeps
    | with_reducible apply State.resetEvent_keeps | with_reducible apply State.startSteps_keeps

theorem State.finishReset_keeps {s0 : State} (s : State) (hk : Keeps s0 s) : Keeps s0 (State.finishReset s) := by
  unfold State.finishReset
  repeat' first
    | with_reducible assumption | with_reducible exact Keeps.refl _ | with_reducible apply State.askReset_keeps
    | with_reducible apply State.holdDies_keeps | with_reducible apply State.setPwr_keeps
    | with_reducible apply Keeps.foldl1 | extract_lets | with_reducible apply Keeps.cond
    | with_reducible apply KeepsOut.cond | with_reducible apply Keeps.foldl
    | (with_reducible apply Keeps.snd (by assumption)) | (with_reducible apply Keeps.fst (by assumption)) | intro _
    | split

theorem State.pinHold_keeps {s0 : State} (s : State) (hk : Keeps s0 s) : Keeps s0 (State.pinHold s) := by
  unfold State.pinHold
  repeat' first
    | with_reducible assumption | with_reducible exact Keeps.refl _ | with_reducible apply State.allReset_keeps
    | with_reducible apply State.setPwr_keeps

theorem State.causeGone_keeps {s0 : State} (s : State) (c : QuenchCause) (hk : Keeps s0 s) : Keeps s0 (State.causeGone s c) := by
  unfold State.causeGone
  repeat' first
    | with_reducible assumption | with_reducible exact Keeps.refl _ | with_reducible apply State.setRel_keeps

theorem State.enterThrottle_keeps {s0 : State} (s : State) (cause : Nat) (hk : Keeps s0 s) : Keeps s0
    (State.enterThrottle s cause) := by
  unfold State.enterThrottle
  repeat' first
    | with_reducible assumption | with_reducible exact Keeps.refl _ | with_reducible apply State.bump_keeps
    | with_reducible apply State.put_keeps | with_reducible apply State.raise_keeps
    | with_reducible apply Keeps.foldl1 | extract_lets | with_reducible apply Keeps.cond
    | with_reducible apply KeepsOut.cond | with_reducible apply Keeps.foldl | intro _

theorem State.vinLow_keeps {s0 : State} (s : State) (mv : Nat) (hk : Keeps s0 s) : Keeps s0 (State.vinLow s mv) := by
  unfold State.vinLow
  repeat' first
    | with_reducible assumption | with_reducible exact Keeps.refl _ | with_reducible apply State.put_keeps

theorem State.thermal_keeps {s0 : State} (s : State) (hk : Keeps s0 s) : Keeps s0 (State.thermal s) := by
  unfold State.thermal
  repeat' first
    | with_reducible assumption | with_reducible exact Keeps.refl _ | with_reducible apply State.enterThrottle_keeps
    | with_reducible apply State.put_keeps | with_reducible apply State.setPwr_keeps

theorem State.sealPark_keeps {s0 : State} (s : State) (m : Fin 16) (hk : Keeps s0 s) : Keeps s0 (State.sealPark s m) := by
  unfold State.sealPark
  repeat' first
    | with_reducible assumption | with_reducible exact Keeps.refl _ | with_reducible apply State.evictLine_keeps
    | with_reducible apply State.setEng_keeps | with_reducible apply Keeps.foldl1 | extract_lets
    | with_reducible apply Keeps.cond | with_reducible apply KeepsOut.cond | with_reducible apply Keeps.foldl
    | intro _

theorem State.parkCanton_keeps {s0 : State} (s : State) (k : Nat) (hk : Keeps s0 s) : Keeps s0 (State.parkCanton s k) := by
  unfold State.parkCanton
  repeat' first
    | with_reducible assumption | with_reducible exact Keeps.refl _ | with_reducible apply State.parkEvent_keeps
    | with_reducible apply State.resetRegs_keeps | with_reducible apply State.sealPark_keeps
    | with_reducible apply State.setCanton_keeps | with_reducible apply State.setEng_keeps
    | with_reducible apply State.setParked_keeps | with_reducible apply State.syncPoison_keeps
    | with_reducible apply State.trainFabric_keeps | with_reducible apply State.wr_keeps
    | with_reducible apply State.zeroCd_keeps | with_reducible apply State.zeroMd_keeps
    | with_reducible apply Keeps.foldl1 | extract_lets | with_reducible apply Keeps.cond
    | with_reducible apply KeepsOut.cond | with_reducible apply Keeps.foldl | intro _

theorem State.releaseMd_keeps {s0 : State} (s : State) (m : Fin 16) (hk : Keeps s0 s) : Keeps s0 (State.releaseMd s m) := by
  unfold State.releaseMd
  repeat' first
    | with_reducible assumption | with_reducible exact Keeps.refl _ | with_reducible apply State.openRound_keeps
    | with_reducible apply State.put_keeps | with_reducible apply State.setSx_keeps
    | with_reducible apply State.tryRebase_keeps | with_reducible apply Keeps.foldl1 | extract_lets
    | with_reducible apply Keeps.cond | with_reducible apply KeepsOut.cond | with_reducible apply Keeps.foldl
    | (with_reducible apply Keeps.snd (by assumption)) | (with_reducible apply Keeps.fst (by assumption)) | intro _
    | split

theorem State.dropReq_keeps {s0 : State} (s : State) (m : Fin 16) (i : Nat) (hk : Keeps s0 s) : Keeps s0 (State.dropReq
    s m i) := by
  unfold State.dropReq
  repeat' first
    | with_reducible assumption | with_reducible exact Keeps.refl _ | with_reducible apply State.setEng_keeps

theorem State.poisonRefused_keeps {s0 : State} (s : State) (m : Fin 16) (c : Fin 2) (l : Nat) (hk : Keeps s0 s) : Keeps
    s0 (State.poisonRefused s m c l) := by
  unfold State.poisonRefused
  repeat' first
    | with_reducible assumption | with_reducible exact Keeps.refl _ | with_reducible apply State.put_keeps
    | with_reducible apply State.sealEvent_keeps

theorem State.refusePoison_keeps {s0 : State} (s : State) (m : Fin 16) (c : Fin 2) (l : Nat) (r : SealReq) (hk : Keeps
    s0 s) : Keeps s0 (State.refusePoison s m c l r) := by
  unfold State.refusePoison
  repeat' first
    | with_reducible assumption | with_reducible exact Keeps.refl _ | with_reducible apply State.answer_keeps
    | with_reducible apply State.poisonRefused_keeps

theorem State.partialWrite_keeps {s0 : State} (s : State) (m : Fin 16) (i : Nat) (f : Fetched) (r : SealReq) (c : Fin 2)
    (l : Nat) (new : State → List Byte) (hk : Keeps s0 s) : Keeps s0 (State.partialWrite s m i f r c l new) := by
  unfold State.partialWrite
  repeat' first
    | with_reducible assumption | with_reducible exact Keeps.refl _ | with_reducible apply State.answer_keeps
    | with_reducible apply State.dropReq_keeps | with_reducible apply State.fetchBlock_keeps
    | with_reducible apply State.nextCounter_keeps | with_reducible apply State.putBytes_keeps
    | with_reducible apply State.refusePoison_keeps | with_reducible apply Keeps.foldl1 | extract_lets
    | with_reducible apply Keeps.cond | with_reducible apply KeepsOut.cond | with_reducible apply Keeps.foldl
    | intro _

theorem State.readBlock_keeps {s0 : State} (s : State) (reads : BlockReads) (b : Nat) (hk : Keeps s0 s) : Keeps s0
    (State.readBlock s reads b).1 := by
  unfold State.readBlock
  repeat' first
    | with_reducible assumption | with_reducible exact Keeps.refl _ | with_reducible apply State.fetchBlock_keeps
    | with_reducible apply State.poisonRefused_keeps | with_reducible apply Keeps.foldl1 | extract_lets
    | with_reducible apply Keeps.cond | with_reducible apply KeepsOut.cond | with_reducible apply Keeps.foldl
    | (with_reducible apply Keeps.snd (by assumption)) | (with_reducible apply Keeps.fst (by assumption)) | intro _
    | split

theorem State.readBlocks_keeps {s0 : State} (s : State) (reads : BlockReads) (bs : List Nat) (hk : Keeps s0 s) : Keeps
    s0 (State.readBlocks s reads bs).1 := by
  unfold State.readBlocks
  repeat' first
    | with_reducible assumption | with_reducible exact Keeps.refl _ | with_reducible apply State.readBlock_keeps
    | with_reducible apply Keeps.foldl1 | extract_lets | with_reducible apply Keeps.cond
    | with_reducible apply KeepsOut.cond | with_reducible apply Keeps.foldl | intro _

theorem State.wipe_keeps {s0 : State} (s : State) (m : Fin 16) (c : Fin 2) (l : Nat) (n : Nat) (hk : Keeps s0 s) : Keeps
    s0 (State.wipe s m c l n) := by
  unfold State.wipe
  repeat' first
    | with_reducible assumption | with_reducible exact Keeps.refl _ | with_reducible apply State.zeroRange_keeps
    | with_reducible apply Keeps.foldl1 | extract_lets | with_reducible apply Keeps.cond
    | with_reducible apply KeepsOut.cond | with_reducible apply Keeps.foldl | intro _

theorem State.reinitBlocks_keeps {s0 : State} (s : State) (m : Fin 16) (e : PoisonEntry) (lost : List (Fin 64)) (hk :
    Keeps s0 s) : Keeps s0 (State.reinitBlocks s m e lost) := by
  unfold State.reinitBlocks
  repeat' first
    | with_reducible assumption | with_reducible exact Keeps.refl _ | with_reducible apply State.dirty_keeps
    | with_reducible apply State.fillLine_keeps | with_reducible apply State.sealTally_keeps
    | with_reducible apply State.setChan_keeps | with_reducible apply State.wipe_keeps
    | with_reducible apply Keeps.foldl1 | extract_lets | with_reducible apply Keeps.cond
    | with_reducible apply KeepsOut.cond | with_reducible apply Keeps.foldl | intro _

theorem State.reinitLines_keeps {s0 : State} (s : State) (m : Fin 16) (e : PoisonEntry) (hk : Keeps s0 s) : Keeps s0
    (State.reinitLines s m e) := by
  unfold State.reinitLines
  repeat' first
    | with_reducible assumption | with_reducible exact Keeps.refl _ | with_reducible apply State.fillLine_keeps
    | with_reducible apply State.put_keeps | with_reducible apply State.setChan_keeps
    | with_reducible apply State.setEng_keeps | with_reducible apply State.touchLine_keeps
    | with_reducible apply State.wipe_keeps | with_reducible apply Keeps.foldl1 | extract_lets
    | with_reducible apply Keeps.cond | with_reducible apply KeepsOut.cond | with_reducible apply Keeps.foldl
    | intro _

theorem State.scrubFail_keeps {s0 : State} (s : State) (m : Fin 16) (c : Fin 2) (n : Nat) (a : Nat) (mirror : BurstErrs)
    (hk : Keeps s0 s) : Keeps s0 (State.scrubFail s m c n a mirror) := by
  unfold State.scrubFail
  repeat' first
    | with_reducible assumption | with_reducible exact Keeps.refl _ | with_reducible apply State.failItem_keeps
    | with_reducible apply State.noteFetch_keeps | with_reducible apply State.sealEvent_keeps
    | with_reducible apply Keeps.foldl1 | extract_lets | with_reducible apply Keeps.cond
    | with_reducible apply KeepsOut.cond | with_reducible apply Keeps.foldl | intro _

theorem State.answerMsg_keeps {s0 : State} (s : State) (m : Option (List Byte)) (hk : Keeps s0 s) : Keeps s0
    (State.answerMsg s m) := by
  unfold State.answerMsg
  repeat' first
    | with_reducible assumption | with_reducible exact Keeps.refl _ | with_reducible apply Keeps.foldl1 | extract_lets
    | with_reducible apply Keeps.cond | with_reducible apply KeepsOut.cond | with_reducible apply Keeps.foldl
    | (with_reducible apply Keeps.snd (by assumption)) | (with_reducible apply Keeps.fst (by assumption)) | intro _
    | split | fail_if_no_progress dsimp +zetaDelta only | (fail_if_no_progress with_reducible refine Keeps.record ?_)

theorem State.endScan_keeps {s0 : State} (s : State) (hk : Keeps s0 s) : Keeps s0 (State.endScan s) := by
  unfold State.endScan
  repeat' first
    | with_reducible assumption | with_reducible exact Keeps.refl _ | with_reducible apply State.beginScrub_keeps
    | with_reducible apply State.setSec_keeps | with_reducible apply Keeps.foldl1 | extract_lets
    | with_reducible apply Keeps.cond | with_reducible apply KeepsOut.cond | with_reducible apply Keeps.foldl
    | (with_reducible apply Keeps.snd (by assumption)) | (with_reducible apply Keeps.fst (by assumption)) | intro _
    | split

theorem State.endDebug_keeps {s0 : State} (s : State) (hk : Keeps s0 s) : Keeps s0 (State.endDebug s) := by
  unfold State.endDebug
  repeat' first
    | with_reducible assumption | with_reducible exact Keeps.refl _ | with_reducible apply State.endScan_keeps
    | with_reducible apply State.put_keeps

theorem State.zeroDie_keeps {s0 : State} (s : State) (d : Nat) (hk : Keeps s0 s) : Keeps s0 (State.zeroDie s d) := by
  unfold State.zeroDie
  repeat' first
    | with_reducible assumption | with_reducible exact Keeps.refl _ | with_reducible apply State.zeroCd_keeps
    | with_reducible apply State.zeroMd_keeps | with_reducible apply State.zeroRange_keeps
    | with_reducible apply Keeps.foldl1 | extract_lets | with_reducible apply Keeps.cond
    | with_reducible apply KeepsOut.cond | with_reducible apply Keeps.foldl | intro _

theorem State.overwrite_keeps {s0 : State} (s : State) (k : Nat) (hk : Keeps s0 s) : Keeps s0 (State.overwrite s k) := by
  unfold State.overwrite
  repeat' first
    | with_reducible assumption | with_reducible exact Keeps.refl _ | with_reducible apply State.zeroRange_keeps

theorem State.headFault_keeps {s0 : State} (s : State) (d : Fin 40) (q : Fin 4) (w : Cmd) (code : Nat) (idx : Nat)
    (depth : Nat) (hk : Keeps s0 s) : Keeps s0 (State.headFault s d q w code idx depth) := by
  unfold State.headFault
  repeat' first
    | with_reducible assumption | with_reducible exact Keeps.refl _ | with_reducible apply State.queueFault_keeps

theorem State.ctrDue_keeps {s0 : State} (s : State) (d : Fin 40) (c : Nat) (n : Nat) (hk : Keeps s0 s) : Keeps s0
    (State.ctrDue s d c n) := by
  unfold State.ctrDue
  repeat' first
    | with_reducible assumption | with_reducible exact Keeps.refl _ | with_reducible apply State.setCd_keeps

theorem State.proceed_keeps {s0 : State} (s : State) (d : Fin 40) (q : Fin 4) (w : Cmd) (idx : Nat) (depth : Nat) (hk :
    Keeps s0 s) : Keeps s0 (State.proceed s d q w idx depth) := by
  unfold State.proceed
  repeat' first
    | with_reducible assumption | with_reducible exact Keeps.refl _ | with_reducible apply State.advance_keeps
    | with_reducible apply State.complete_keeps | with_reducible apply State.setQState_keeps
    | with_reducible apply State.setQue_keeps

theorem State.syncExec_keeps {s0 : State} (s : State) (d : Fin 40) (q : Fin 4) (w : Cmd) (idx : Nat) (depth : Nat) (hk :
    Keeps s0 s) : Keeps s0 (State.syncExec s d q w idx depth) := by
  unfold State.syncExec
  repeat' first
    | with_reducible assumption | with_reducible exact Keeps.refl _ | with_reducible apply State.advance_keeps
    | with_reducible apply State.complete_keeps | with_reducible apply State.ctrDue_keeps
    | with_reducible apply State.headFault_keeps | with_reducible apply State.hold_keeps
    | with_reducible apply State.mpaAdd_keeps | with_reducible apply State.pass_keeps
    | with_reducible apply State.proceed_keeps | with_reducible apply State.psigSend_keeps
    | with_reducible apply State.put_keeps | with_reducible apply State.qSync_keeps
    | with_reducible apply State.raiseCat_keeps | with_reducible apply State.setCd_keeps
    | with_reducible apply State.setQState_keeps | with_reducible apply State.setQue_keeps
    | with_reducible apply Keeps.foldl1 | extract_lets | with_reducible apply Keeps.cond
    | with_reducible apply KeepsOut.cond | with_reducible apply Keeps.foldl
    | (with_reducible apply Keeps.snd (by assumption)) | (with_reducible apply Keeps.fst (by assumption)) | intro _
    | split

theorem State.syncHead_keeps {s0 : State} (s : State) (d : Fin 40) (q : Fin 4) (w : Cmd) (hk : Keeps s0 s) : Keeps s0
    (State.syncHead s d q w) := by
  unfold State.syncHead
  repeat' first
    | with_reducible assumption | with_reducible exact Keeps.refl _ | with_reducible apply State.headFault_keeps
    | with_reducible apply State.syncExec_keeps | with_reducible apply Keeps.foldl1 | extract_lets
    | with_reducible apply Keeps.cond | with_reducible apply KeepsOut.cond | with_reducible apply Keeps.foldl
    | (with_reducible apply Keeps.snd (by assumption)) | (with_reducible apply Keeps.fst (by assumption)) | intro _
    | split

theorem State.queueTail_keeps {s0 : State} (s : State) (d : Fin 40) (q : Fin 4) (tail : Nat) (hk : Keeps s0 s) : Keeps
    s0 (State.queueTail s d q tail) := by
  unfold State.queueTail
  repeat' first
    | with_reducible assumption | with_reducible exact Keeps.refl _ | with_reducible apply State.headFault_keeps
    | with_reducible apply State.put_keeps | with_reducible apply State.qSync_keeps
    | with_reducible apply Keeps.foldl1 | extract_lets | with_reducible apply Keeps.cond
    | with_reducible apply KeepsOut.cond | with_reducible apply Keeps.foldl | intro _

theorem State.addCtrs_keeps {s0 : State} (s : State) (d : Fin 40) (l : List (Nat × Nat × Nat)) (hk : Keeps s0 s) : Keeps
    s0 (State.addCtrs s d l) := by
  unfold State.addCtrs
  repeat' first
    | with_reducible assumption | with_reducible exact Keeps.refl _ | with_reducible apply State.put_keeps
    | with_reducible apply Keeps.foldl1 | extract_lets | with_reducible apply Keeps.cond
    | with_reducible apply KeepsOut.cond | with_reducible apply Keeps.foldl | intro _

theorem State.settlePsig_keeps {s0 : State} (s : State) (d : Fin 40) (hk : Keeps s0 s) : Keeps s0 (State.settlePsig s d) := by
  unfold State.settlePsig
  repeat' first
    | with_reducible assumption | with_reducible exact Keeps.refl _ | with_reducible apply State.complete_keeps
    | with_reducible apply State.dropErrs_keeps | with_reducible apply State.queueFault_keeps
    | with_reducible apply State.setCd_keeps | with_reducible apply State.setQue_keeps
    | with_reducible apply Keeps.foldl1 | extract_lets | with_reducible apply Keeps.cond
    | with_reducible apply KeepsOut.cond | with_reducible apply Keeps.foldl | intro _

theorem State.queueCtl_keeps {s0 : State} (s : State) (d : Fin 40) (q : Fin 4) (bits : BitVec 5) (hk : Keeps s0 s) :
    Keeps s0 (State.queueCtl s d q bits) := by
  unfold State.queueCtl
  repeat' first
    | with_reducible assumption | with_reducible exact Keeps.refl _ | with_reducible apply State.queueAbort_keeps
    | with_reducible apply State.queueResume_keeps | with_reducible apply State.queueStart_keeps
    | with_reducible apply State.queueStop_keeps | with_reducible apply Keeps.foldl1 | extract_lets
    | with_reducible apply Keeps.cond | with_reducible apply KeepsOut.cond | with_reducible apply Keeps.foldl
    | intro _

theorem State.showReduction_keeps {s0 : State} (s : State) (l : Nat) (hk : Keeps s0 s) : Keeps s0 (State.showReduction s l) := by
  unfold State.showReduction
  repeat' first
    | with_reducible assumption | with_reducible exact Keeps.refl _ | with_reducible apply State.putBytes_keeps
    | with_reducible apply State.share_keeps | with_reducible apply Keeps.foldl1 | extract_lets
    | with_reducible apply Keeps.cond | with_reducible apply KeepsOut.cond | with_reducible apply Keeps.foldl
    | intro _

theorem State.showStaged_keeps {s0 : State} (s : State) (m : Nat) (hk : Keeps s0 s) : Keeps s0 (State.showStaged s m) := by
  unfold State.showStaged
  repeat' first
    | with_reducible assumption | with_reducible exact Keeps.refl _ | with_reducible apply State.putBytes_keeps
    | with_reducible apply Keeps.foldl1 | extract_lets | with_reducible apply Keeps.cond
    | with_reducible apply KeepsOut.cond | with_reducible apply Keeps.foldl | intro _

theorem State.start9_keeps {s0 : State} (s : State) (env : StartEnv) (hk : Keeps s0 s) : Keeps s0 (State.start9 s env) := by
  unfold State.start9
  repeat' first
    | with_reducible assumption | with_reducible exact Keeps.refl _ | with_reducible apply State.put_keeps
    | with_reducible apply State.raise_keeps | with_reducible apply State.scrubErase_keeps
    | with_reducible apply State.setPwr_keeps | with_reducible apply State.wr_keeps
    | with_reducible apply Keeps.foldl1 | extract_lets | with_reducible apply Keeps.cond
    | with_reducible apply KeepsOut.cond | with_reducible apply Keeps.foldl | intro _

theorem State.start10_keeps {s0 : State} (s : State) (hk : Keeps s0 s) : Keeps s0 (State.start10 s) := by
  unfold State.start10
  repeat' first
    | with_reducible assumption | with_reducible exact Keeps.refl _ | with_reducible apply State.put_keeps
    | with_reducible apply State.startTraining_keeps | with_reducible apply Keeps.foldl1 | extract_lets
    | with_reducible apply Keeps.cond | with_reducible apply KeepsOut.cond | with_reducible apply Keeps.foldl
    | intro _

theorem State.dmaFail_keeps {s0 : State} (s : State) (d : Fin 40) (x : DmaCmd) (code : Nat) (hk : Keeps s0 s) : Keeps s0
    (State.dmaFail s d x code) := by
  unfold State.dmaFail
  repeat' first
    | with_reducible assumption | with_reducible exact Keeps.refl _ | with_reducible apply State.setCd_keeps
    | with_reducible apply State.unitFault_keeps

theorem State.packetSend_keeps {s0 : State} (s : State) (d : Fin 40) (p : DmaPacket) (data : List Byte) (hk : Keeps s0
    s) : Keeps s0 (State.packetSend s d p data).1 := by
  unfold State.packetSend
  repeat' first
    | with_reducible assumption | with_reducible exact Keeps.refl _ | with_reducible apply State.forwardWrite_keeps
    | with_reducible apply State.newReq_keeps | with_reducible apply Keeps.foldl1 | extract_lets
    | with_reducible apply Keeps.cond | with_reducible apply KeepsOut.cond | with_reducible apply Keeps.foldl
    | (with_reducible apply Keeps.snd (by assumption)) | (with_reducible apply Keeps.fst (by assumption)) | intro _
    | split

theorem State.packetIssue_keeps {s0 : State} (s : State) (d : Fin 40) (pattern : W32) (p : DmaPacket) (hk : Keeps s0 s)
    : Keeps s0 (State.packetIssue s d pattern p).1 := by
  unfold State.packetIssue
  repeat' first
    | with_reducible assumption | with_reducible exact Keeps.refl _ | with_reducible apply State.forward_keeps
    | with_reducible apply State.newReq_keeps | with_reducible apply State.packetSend_keeps
    | with_reducible apply Keeps.foldl1 | extract_lets | with_reducible apply Keeps.cond
    | with_reducible apply KeepsOut.cond | with_reducible apply Keeps.foldl
    | (with_reducible apply Keeps.snd (by assumption)) | (with_reducible apply Keeps.fst (by assumption)) | intro _
    | split

theorem State.dmaIssue_keeps {s0 : State} (s : State) (d : Fin 40) (seq n : Nat) (hk : Keeps s0 s) :
    Keeps s0 (s.dmaIssue d seq n) := by
  induction n generalizing s with
  | zero => exact hk
  | succ n ih =>
    unfold State.dmaIssue
    try dsimp only
    repeat' first
      | with_reducible assumption | with_reducible exact Keeps.refl _ | with_reducible apply ih
      | with_reducible apply State.dmaFail_keeps | with_reducible apply State.packetIssue_keeps
      | with_reducible apply State.raiseCat_keeps | with_reducible apply State.setCd_keeps
      | with_reducible apply State.wr_keeps | with_reducible apply Keeps.foldl1 | with_reducible apply Keeps.cond
      | with_reducible apply KeepsOut.next | with_reducible apply KeepsOut.cond | with_reducible apply Keeps.foldl
      | (with_reducible apply Keeps.snd (by assumption)) | (with_reducible apply Keeps.fst (by assumption)) | intro _
      | split

theorem State.dmaPump_keeps {s0 : State} (s : State) (d : Fin 40) (hk : Keeps s0 s) : Keeps s0 (State.dmaPump s d) := by
  unfold State.dmaPump
  repeat' first
    | with_reducible assumption | with_reducible exact Keeps.refl _ | with_reducible apply State.dmaIssue_keeps
    | with_reducible apply Keeps.foldl1 | extract_lets | with_reducible apply Keeps.cond
    | with_reducible apply KeepsOut.cond | with_reducible apply Keeps.foldl | intro _

theorem State.dmaStart_keeps {s0 : State} (s : State) (d : Fin 40) (hk : Keeps s0 s) : Keeps s0 (State.dmaStart s d) := by
  unfold State.dmaStart
  repeat' first
    | with_reducible assumption | with_reducible exact Keeps.refl _ | with_reducible apply State.dmaIssue_keeps
    | with_reducible apply State.popHead_keeps | with_reducible apply State.setCd_keeps
    | with_reducible apply State.unitFault_keeps | with_reducible apply Keeps.foldl1 | extract_lets
    | with_reducible apply Keeps.cond | with_reducible apply KeepsOut.cond | with_reducible apply Keeps.foldl
    | (with_reducible apply Keeps.snd (by assumption)) | (with_reducible apply Keeps.fst (by assumption)) | intro _
    | split

theorem State.dmaEnter_keeps {s0 : State} (s : State) (d : Fin 40) (q : Fin 4) (w : Cmd) (hk : Keeps s0 s) : Keeps s0
    (State.dmaEnter s d q w) := by
  unfold State.dmaEnter
  repeat' first
    | with_reducible assumption | with_reducible exact Keeps.refl _ | with_reducible apply State.dmaStart_keeps
    | with_reducible apply State.enter_keeps | with_reducible apply Keeps.foldl1 | extract_lets
    | with_reducible apply Keeps.cond | with_reducible apply KeepsOut.cond | with_reducible apply Keeps.foldl
    | intro _

theorem State.dmaAcked_keeps {s0 : State} (s : State) (d : Fin 40) (cmd : Nat) (pkt : Nat) (x : DmaCmd) (hk : Keeps s0
    s) : Keeps s0 (State.dmaAcked s d cmd pkt x) := by
  unfold State.dmaAcked
  repeat' first
    | with_reducible assumption | with_reducible exact Keeps.refl _ | with_reducible apply State.complete_keeps
    | with_reducible apply State.dmaPump_keeps | with_reducible apply State.setCd_keeps
    | with_reducible apply Keeps.foldl1 | extract_lets | with_reducible apply Keeps.cond
    | with_reducible apply KeepsOut.cond | with_reducible apply Keeps.foldl | intro _

theorem State.dmaLand_keeps {s0 : State} (s : State) (d : Fin 40) (cmd : Nat) (pkt : Nat) (x : DmaCmd) (p : DmaPacket)
    (data : List Byte) (hk : Keeps s0 s) : Keeps s0 (State.dmaLand s d cmd pkt x p data) := by
  unfold State.dmaLand
  repeat' first
    | with_reducible assumption | with_reducible exact Keeps.refl _ | with_reducible apply State.dmaAcked_keeps
    | with_reducible apply State.dmaFail_keeps | with_reducible apply State.mergeWrite_keeps
    | with_reducible apply State.raiseCat_keeps | with_reducible apply Keeps.foldl1 | extract_lets
    | with_reducible apply Keeps.cond | with_reducible apply KeepsOut.cond | with_reducible apply Keeps.foldl
    | (with_reducible apply Keeps.snd (by assumption)) | (with_reducible apply Keeps.fst (by assumption)) | intro _
    | split

theorem State.hoistAccess_keeps {s0 : State} (s : State) (d : Fin 40) (a : Fin 4) (hk : Keeps s0 s) : Keeps s0
    (State.hoistAccess s d a) := by
  unfold State.hoistAccess
  repeat' first
    | with_reducible assumption | with_reducible exact Keeps.refl _ | with_reducible apply State.hoistPoison_keeps
    | with_reducible apply State.setMa_keeps | with_reducible apply State.useGrant_keeps
    | with_reducible apply Keeps.foldl1 | extract_lets | with_reducible apply Keeps.cond
    | with_reducible apply KeepsOut.cond | with_reducible apply Keeps.foldl
    | (with_reducible apply Keeps.snd (by assumption)) | (with_reducible apply Keeps.fst (by assumption)) | intro _
    | split

theorem State.eccFinding_keeps {s0 : State} (s : State) (d : Fin 40) (gas : Bool) (f : StoreEcc) (hk : Keeps s0 s) :
    Keeps s0 (s.eccFinding d gas f) := by
  have hp : ∀ (t : State) (n : Nat), Keeps s0 t → Keeps s0 { t with poison := Sparse.set (fun _ => false) t.poison n true } :=
    fun t n h => ⟨h.pending, h.mem, h.regs, fun k => Sparse.wf_set _ _ _ (h.poison k)⟩
  unfold State.eccFinding
  try dsimp only
  repeat' first
    | with_reducible assumption | with_reducible exact Keeps.refl _ | with_reducible apply hp
    | with_reducible apply State.bump_keeps | with_reducible apply State.put_keeps
    | with_reducible apply State.raise_keeps | with_reducible apply State.wr_keeps | with_reducible apply Keeps.foldl1
    | with_reducible apply Keeps.cond | with_reducible apply KeepsOut.next | with_reducible apply KeepsOut.cond
    | with_reducible apply Keeps.foldl | intro _

theorem State.coverDrain_keeps {s0 : State} (s : State) (d : Fin 40) (e : UCmd) (hk : Keeps s0 s) : Keeps s0
    (State.coverDrain s d e) := by
  unfold State.coverDrain
  repeat' first
    | with_reducible assumption | with_reducible exact Keeps.refl _ | with_reducible apply State.gasSync_keeps
    | with_reducible apply State.setCd_keeps | with_reducible apply Keeps.foldl1 | extract_lets
    | with_reducible apply Keeps.cond | with_reducible apply KeepsOut.cond | with_reducible apply Keeps.foldl
    | intro _

theorem State.gasHead_keeps {s0 : State} (s : State) (d : Fin 40) (hk : Keeps s0 s) : Keeps s0 (State.gasHead s d) := by
  unfold State.gasHead
  repeat' first
    | with_reducible assumption | with_reducible exact Keeps.refl _ | with_reducible apply State.complete_keeps
    | with_reducible apply State.coverDrain_keeps | with_reducible apply State.gasSync_keeps
    | with_reducible apply State.popHead_keeps | with_reducible apply State.zeroRange_keeps
    | with_reducible apply Keeps.foldl1 | extract_lets | with_reducible apply Keeps.cond
    | with_reducible apply KeepsOut.cond | with_reducible apply Keeps.foldl
    | (with_reducible apply Keeps.snd (by assumption)) | (with_reducible apply Keeps.fst (by assumption)) | intro _
    | split

theorem State.coverWaiting_keeps {s0 : State} (s : State) (d : Fin 40) (hk : Keeps s0 s) : Keeps s0 (State.coverWaiting s d) := by
  unfold State.coverWaiting
  repeat' first
    | with_reducible assumption | with_reducible exact Keeps.refl _ | with_reducible apply State.coverDrain_keeps
    | with_reducible apply Keeps.foldl1 | extract_lets | with_reducible apply Keeps.cond
    | with_reducible apply KeepsOut.cond | with_reducible apply Keeps.foldl | intro _

theorem State.gasEnter_keeps {s0 : State} (s : State) (d : Fin 40) (q : Fin 4) (w : Cmd) (hk : Keeps s0 s) : Keeps s0
    (State.gasEnter s d q w) := by
  unfold State.gasEnter
  repeat' first
    | with_reducible assumption | with_reducible exact Keeps.refl _ | with_reducible apply State.coverWaiting_keeps
    | with_reducible apply State.enter_keeps | with_reducible apply State.gasHead_keeps
    | with_reducible apply Keeps.foldl1 | extract_lets | with_reducible apply Keeps.cond
    | with_reducible apply KeepsOut.cond | with_reducible apply Keeps.foldl | intro _

theorem State.putNow_keeps {s0 : State} (s : State) (die : Nat) (a : Nat) (bs : List Byte) (hk : Keeps s0 s) : Keeps s0
    (State.putNow s die a bs) := by
  unfold State.putNow
  repeat' first
    | with_reducible assumption | with_reducible exact Keeps.refl _ | with_reducible apply State.dramPut_keeps
    | with_reducible apply State.mpaWrite_keeps | with_reducible apply Keeps.foldl1 | extract_lets
    | with_reducible apply Keeps.cond | with_reducible apply KeepsOut.cond | with_reducible apply Keeps.foldl
    | (with_reducible apply Keeps.snd (by assumption)) | (with_reducible apply Keeps.fst (by assumption)) | intro _
    | split

theorem State.ringPut_keeps {s0 : State} (s : State) (d : Fin 40) (q : Fin 4) (from_ : Nat) (l : List Cmd) (hk : Keeps
    s0 s) : Keeps s0 (State.ringPut s d q from_ l) := by
  unfold State.ringPut
  repeat' first
    | with_reducible assumption | with_reducible exact Keeps.refl _ | with_reducible apply State.putNow_keeps
    | with_reducible apply Keeps.foldl1 | extract_lets | with_reducible apply Keeps.cond
    | with_reducible apply KeepsOut.cond | with_reducible apply Keeps.foldl | intro _

theorem State.cadPass_keeps {s0 : State} (s : State) (k : Fin 8) (waiting : List Nat) (hk : Keeps s0 s) : Keeps s0
    (State.cadPass s k waiting) := by
  unfold State.cadPass
  repeat' first
    | with_reducible assumption | with_reducible exact Keeps.refl _ | with_reducible apply State.bump_keeps
    | with_reducible apply State.cadTick_keeps | with_reducible apply State.cantonIrq_keeps
    | with_reducible apply State.carry_keeps | with_reducible apply State.put_keeps
    | with_reducible apply State.raise_keeps | with_reducible apply State.setCad_keeps
    | with_reducible apply Keeps.foldl1 | extract_lets | with_reducible apply Keeps.cond
    | with_reducible apply KeepsOut.cond | with_reducible apply Keeps.foldl | intro _

theorem State.setJ_keeps {s0 : State} (s : State) (m : Fin 16) (i : Nat) (j : Journal) (hk : Keeps s0 s) : Keeps s0
    (State.setJ s m i j) := by
  unfold State.setJ
  repeat' first
    | with_reducible assumption | with_reducible exact Keeps.refl _ | with_reducible apply State.setUe_keeps

theorem State.checkLayer_keeps {s0 : State} (s : State) (m : Fin 16) (layer : Nat) (hk : Keeps s0 s) : Keeps s0
    (State.checkLayer s m layer) := by
  unfold State.checkLayer
  repeat' first
    | with_reducible assumption | with_reducible exact Keeps.refl _ | with_reducible apply State.pennantTo_keeps
    | with_reducible apply State.setUe_keeps | with_reducible apply Keeps.foldl1 | extract_lets
    | with_reducible apply Keeps.cond | with_reducible apply KeepsOut.cond | with_reducible apply Keeps.foldl
    | intro _

theorem State.writeJournal_keeps {s0 : State} (s : State) (m : Fin 16) (d : ShardDesc) (j : Journal) (hk : Keeps s0 s) :
    Keeps s0 (State.writeJournal s m d j) := by
  unfold State.writeJournal
  repeat' first
    | with_reducible assumption | with_reducible exact Keeps.refl _ | with_reducible apply State.mpaWrite_keeps

theorem State.ueStop_keeps {s0 : State} (s : State) (m : Fin 16) (i : Nat) (code : Nat) (hk : Keeps s0 s) : Keeps s0
    (State.ueStop s m i code) := by
  unfold State.ueStop
  repeat' first
    | with_reducible assumption | with_reducible exact Keeps.refl _ | with_reducible apply State.setJ_keeps
    | with_reducible apply State.ueEvent_keeps | with_reducible apply State.ueFault_keeps
    | with_reducible apply Keeps.foldl1 | extract_lets | with_reducible apply Keeps.cond
    | with_reducible apply KeepsOut.cond | with_reducible apply Keeps.foldl
    | (with_reducible apply Keeps.snd (by assumption)) | (with_reducible apply Keeps.fst (by assumption)) | intro _
    | split

theorem State.ueRead_keeps {s0 : State} (s : State) (m : Fin 16) (reads : BlockReads) (a : Nat) (n : Nat) (hk : Keeps s0
    s) : Keeps s0 (State.ueRead s m reads a n).1 := by
  unfold State.ueRead
  repeat' first
    | with_reducible assumption | with_reducible exact Keeps.refl _ | with_reducible apply State.raiseCat_keeps
    | with_reducible apply State.readBlocks_keeps | with_reducible apply Keeps.foldl1 | extract_lets
    | with_reducible apply Keeps.cond | with_reducible apply KeepsOut.cond | with_reducible apply Keeps.foldl
    | (with_reducible apply Keeps.snd (by assumption)) | (with_reducible apply Keeps.fst (by assumption)) | intro _
    | split

theorem State.handOver_keeps {s0 : State} (s : State) (m : Fin 16) (shard : Nat) (square : Nat) (phase : Nat) (writes :
    List (Nat × List Byte)) (d : ShardDesc) (copy : Journal) (hk : Keeps s0 s) : Keeps s0 (State.handOver s m shard
    square phase writes d copy) := by
  unfold State.handOver
  repeat' first
    | with_reducible assumption | with_reducible exact Keeps.refl _ | with_reducible apply State.forwardWrite_keeps
    | with_reducible apply State.newReq_keeps | with_reducible apply State.setUe_keeps
    | with_reducible apply Keeps.foldl1 | extract_lets | with_reducible apply Keeps.cond
    | with_reducible apply KeepsOut.cond | with_reducible apply Keeps.foldl | intro _

theorem State.burstMoments_keeps {s0 : State} (s : State) (m : Fin 16) (sh : Shard) (d : ShardDesc) (l : Landed) (hk :
    Keeps s0 s) : Keeps s0 (State.burstMoments s m sh d l) := by
  unfold State.burstMoments
  repeat' first
    | with_reducible assumption | with_reducible exact Keeps.refl _ | with_reducible apply State.bump_keeps
    | with_reducible apply State.handOver_keeps | with_reducible apply State.setJ_keeps
    | with_reducible apply State.setUe_keeps | with_reducible apply State.ueEvent_keeps
    | with_reducible apply State.ueFlags_keeps | with_reducible apply Keeps.foldl1 | extract_lets
    | with_reducible apply Keeps.cond | with_reducible apply KeepsOut.cond | with_reducible apply Keeps.foldl
    | intro _

theorem State.burstMaster_keeps {s0 : State} (s : State) (m : Fin 16) (sh : Shard) (d : ShardDesc) (hk : Keeps s0 s) :
    Keeps s0 (State.burstMaster s m sh d) := by
  unfold State.burstMaster
  repeat' first
    | with_reducible assumption | with_reducible exact Keeps.refl _ | with_reducible apply State.handOver_keeps
    | with_reducible apply State.setJ_keeps | with_reducible apply State.setUe_keeps
    | with_reducible apply State.ueFlags_keeps

theorem State.burstCopies_keeps {s0 : State} (s : State) (m : Fin 16) (sh : Shard) (d : ShardDesc) (hk : Keeps s0 s) :
    Keeps s0 (State.burstCopies s m sh d) := by
  unfold State.burstCopies
  try dsimp only
  repeat' first
    | with_reducible assumption | with_reducible exact Keeps.refl _ | with_reducible apply State.derive_keeps
    | with_reducible apply State.handOver_keeps

theorem State.beginStep_keeps {s0 : State} (s : State) (m : Fin 16) (sh : Shard) (d : ShardDesc) (l : Landed) (hk :
    Keeps s0 s) : Keeps s0 (State.beginStep s m sh d l).1 := by
  unfold State.beginStep
  repeat' first
    | with_reducible assumption | with_reducible exact Keeps.refl _ | with_reducible apply State.setJ_keeps
    | with_reducible apply State.ueFlags_keeps | with_reducible apply Keeps.foldl1 | extract_lets
    | with_reducible apply Keeps.cond | with_reducible apply KeepsOut.cond | with_reducible apply Keeps.foldl
    | (with_reducible apply Keeps.snd (by assumption)) | (with_reducible apply Keeps.fst (by assumption)) | intro _
    | split

theorem State.recoverShard_keeps {s0 : State} (s : State) (m : Fin 16) (reads : BlockReads) (i : Nat) (hk : Keeps s0 s)
    : Keeps s0 (State.recoverShard s m reads i) := by
  unfold State.recoverShard
  repeat' first
    | with_reducible assumption | with_reducible exact Keeps.refl _ | with_reducible apply State.burstCopies_keeps
    | with_reducible apply State.burstMaster_keeps | with_reducible apply State.readBlocks_keeps
    | with_reducible apply State.setJ_keeps | with_reducible apply State.ueEvent_keeps
    | with_reducible apply State.ueFault_keeps | with_reducible apply State.ueStop_keeps
    | with_reducible apply Keeps.foldl1 | extract_lets | with_reducible apply Keeps.cond
    | with_reducible apply KeepsOut.cond | with_reducible apply Keeps.foldl
    | (with_reducible apply Keeps.snd (by assumption)) | (with_reducible apply Keeps.fst (by assumption)) | intro _
    | split

theorem State.recoverNext_keeps {s0 : State} (s : State) (m : Fin 16) (reads : BlockReads) (n : Nat) (hk : Keeps s0 s) :
    Keeps s0 (s.recoverNext m reads n) := by
  induction n generalizing s with
  | zero => exact hk
  | succ n ih =>
    unfold State.recoverNext
    extract_lets u
    split
    · exact hk
    split
    · exact hk
    extract_lets w t t2 src
    have ht : Keeps s0 t := State.recoverShard_keeps _ _ _ _ hk
    split
    · exact State.put_keeps _ _ _ _ hk
    split
    · exact hk
    split
    · exact ht
    have h2 : Keeps s0 t2 := by
      simp only [t2]
      split
      · split
        · exact ht
        · exact State.ueEvent_keeps _ _ _ _ _ (State.bump_keeps _ _ _ _ ht)
      · exact ht
    exact ih _ (State.setUe_keeps _ _ _ h2)

theorem State.burstRefused_keeps {s0 : State} (s : State) (m : Fin 16) (b : Burst) (d : ShardDesc) (bad : List Nat) (hk
    : Keeps s0 s) : Keeps s0 (State.burstRefused s m b d bad) := by
  unfold State.burstRefused
  repeat' first
    | with_reducible assumption | with_reducible exact Keeps.refl _ | with_reducible apply State.ueStop_keeps
    | with_reducible apply State.writeJournal_keeps | with_reducible apply Keeps.foldl1 | extract_lets
    | with_reducible apply Keeps.cond | with_reducible apply KeepsOut.cond | with_reducible apply Keeps.foldl
    | (with_reducible apply Keeps.snd (by assumption)) | (with_reducible apply Keeps.fst (by assumption)) | intro _
    | split

theorem State.skipShard_keeps {s0 : State} (s : State) (m : Fin 16) (x : Shard) (d : ShardDesc) (t : Nat) (hk : Keeps s0
    s) : Keeps s0 (State.skipShard s m x d t) := by
  unfold State.skipShard
  repeat' first
    | with_reducible assumption | with_reducible exact Keeps.refl _ | with_reducible apply State.bump_keeps
    | with_reducible apply State.setJ_keeps | with_reducible apply State.setUe_keeps
    | with_reducible apply State.writeJournal_keeps

theorem State.skipDue_keeps {s0 : State} (s : State) (m : Fin 16) (i n : Nat) (hk : Keeps s0 s) :
    Keeps s0 (s.skipDue m i n) := by
  induction n generalizing s with
  | zero => exact hk
  | succ n ih =>
    unfold State.skipDue
    split
    · exact hk
    split
    · split
      · exact ih _ (State.skipShard_keeps _ _ _ _ _ hk)
      · exact hk
    · exact hk

theorem State.finishSquare_keeps {s0 : State} (s : State) (m : Fin 16) (sh : Shard) (d : ShardDesc) (hk : Keeps s0 s) :
    Keeps s0 (State.finishSquare s m sh d) := by
  unfold State.finishSquare
  repeat' first
    | with_reducible assumption | with_reducible exact Keeps.refl _ | with_reducible apply State.checkLayer_keeps
    | with_reducible apply State.setJ_keeps | with_reducible apply State.setUe_keeps
    | with_reducible apply State.skipDue_keeps | with_reducible apply Keeps.foldl1 | extract_lets
    | with_reducible apply Keeps.cond | with_reducible apply KeepsOut.cond | with_reducible apply Keeps.foldl
    | intro _

theorem State.skipStep_keeps {s0 : State} (s : State) (m : Fin 16) (layer : Nat) (t : Nat) (hk : Keeps s0 s) : Keeps s0
    (State.skipStep s m layer t) := by
  unfold State.skipStep
  try dsimp only
  repeat' first
    | with_reducible assumption | with_reducible exact Keeps.refl _ | with_reducible apply State.checkLayer_keeps
    | with_reducible apply State.setUe_keeps | with_reducible apply State.skipShard_keeps
    | with_reducible apply State.ueEvent_keeps | with_reducible apply Keeps.foldl1 | with_reducible apply Keeps.cond
    | with_reducible apply KeepsOut.cond | with_reducible apply Keeps.foldl
    | (with_reducible apply Keeps.snd (by assumption)) | (with_reducible apply Keeps.fst (by assumption)) | intro _
    | split

theorem State.addShard_keeps {s0 : State} (s : State) (m : Fin 16) (x : Shard) (hk : Keeps s0 s) : Keeps s0
    (State.addShard s m x) := by
  unfold State.addShard
  repeat' first
    | with_reducible assumption | with_reducible exact Keeps.refl _ | with_reducible apply State.setUe_keeps

theorem State.refuseDesc_keeps {s0 : State} (s : State) (m : Fin 16) (i : Nat) (d : Option ShardDesc) (hk : Keeps s0 s)
    : Keeps s0 (State.refuseDesc s m i d) := by
  unfold State.refuseDesc
  repeat' first
    | with_reducible assumption | with_reducible exact Keeps.refl _ | with_reducible apply State.addShard_keeps
    | with_reducible apply State.setUe_keeps | with_reducible apply State.ueEvent_keeps
    | with_reducible apply State.ueFault_keeps

theorem State.loadJournal_keeps {s0 : State} (s : State) (m : Fin 16) (reads : BlockReads) (i : Nat) (d : ShardDesc) (hk
    : Keeps s0 s) : Keeps s0 (State.loadJournal s m reads i d) := by
  unfold State.loadJournal
  repeat' first
    | with_reducible assumption | with_reducible exact Keeps.refl _ | with_reducible apply State.addShard_keeps
    | with_reducible apply State.ueEvent_keeps | with_reducible apply State.ueFault_keeps
    | with_reducible apply State.ueRead_keeps | with_reducible apply Keeps.foldl1 | extract_lets
    | with_reducible apply Keeps.cond | with_reducible apply KeepsOut.cond | with_reducible apply Keeps.foldl
    | intro _

theorem State.loadShard_keeps {s0 : State} (s : State) (m : Fin 16) (reads : BlockReads) (i : Nat) (hk : Keeps s0 s) :
    Keeps s0 (s.loadShard m reads i) := by
  unfold State.loadShard
  have hr : Keeps s0 (s.ueRead m reads (s.base4k (R.UE_TABLE_LO m) (R.UE_TABLE_HI m) + 256 * i) 256).1 :=
    State.ueRead_keeps _ _ _ _ _ hk
  dsimp only
  generalize s.ueRead m reads (s.base4k (R.UE_TABLE_LO m) (R.UE_TABLE_HI m) + 256 * i) 256 = r at hr ⊢
  split
  · exact State.refuseDesc_keeps _ _ _ _ hr
  split
  · exact hr
  split
  · exact State.loadJournal_keeps _ _ _ _ _ hr
  · exact State.refuseDesc_keeps _ _ _ _ hr

theorem State.loadShards_keeps {s0 : State} (s : State) (m : Fin 16) (reads : BlockReads) (hk : Keeps s0 s) : Keeps s0
    (State.loadShards s m reads) := by
  unfold State.loadShards
  repeat' first
    | with_reducible assumption | with_reducible exact Keeps.refl _ | with_reducible apply State.loadShard_keeps
    | with_reducible apply State.setUe_keeps | with_reducible apply Keeps.foldl1 | extract_lets
    | with_reducible apply Keeps.cond | with_reducible apply KeepsOut.cond | with_reducible apply Keeps.foldl
    | intro _

theorem State.loadTables_keeps {s0 : State} (s : State) (m : Fin 16) (reads : BlockReads) (hk : Keeps s0 s) :
    Keeps s0 (s.loadTables m reads) := by
  unfold State.loadTables
  have hr : Keeps s0 ((s.loadShards m reads).ueRead m reads (s.base4k (R.UE_SCHED_LO m) (R.UE_SCHED_HI m)) 256).1 :=
    State.ueRead_keeps _ _ _ _ _ (State.loadShards_keeps _ _ _ hk)
  dsimp only
  generalize (s.loadShards m reads).ueRead m reads (s.base4k (R.UE_SCHED_LO m) (R.UE_SCHED_HI m)) 256 = r at hr ⊢
  refine Keeps.foldl (fun u x h => State.checkLayer_keeps _ _ _ h) (State.setUe_keeps _ _ _ ?_)
  exact Keeps.cond (fun _ => State.ueFault_keeps _ _ _ _ hr) (fun _ => hr)

theorem State.ueTurn_keeps {s0 : State} (s : State) (m : Fin 16) (reads : BlockReads) (hk : Keeps s0 s) : Keeps s0
    (State.ueTurn s m reads) := by
  unfold State.ueTurn
  repeat' first
    | with_reducible assumption | with_reducible exact Keeps.refl _ | with_reducible apply State.loadTables_keeps
    | with_reducible apply State.recoverNext_keeps | with_reducible apply Keeps.foldl1 | extract_lets
    | with_reducible apply Keeps.cond | with_reducible apply KeepsOut.cond | with_reducible apply Keeps.foldl
    | intro _

theorem State.refuseCmd_keeps {s0 : State} (s : State) (m : Fin 16) (shard : Nat) (code : Nat) (hk : Keeps s0 s) : Keeps
    s0 (State.refuseCmd s m shard code) := by
  unfold State.refuseCmd
  repeat' first
    | with_reducible assumption | with_reducible exact Keeps.refl _ | with_reducible apply State.put_keeps
    | with_reducible apply State.ueFault_keeps

theorem State.startCmd_keeps {s0 : State} (s : State) (m : Fin 16) (op : Nat) (shard : Nat) (module : Nat) (die : Nat)
    (hk : Keeps s0 s) : Keeps s0 (State.startCmd s m op shard module die) := by
  unfold State.startCmd
  repeat' first
    | with_reducible assumption | with_reducible exact Keeps.refl _ | with_reducible apply State.put_keeps
    | with_reducible apply State.setUe_keeps

theorem State.sentCmd_keeps {s0 : State} (s : State) (m : Fin 16) (part : Bool) (hk : Keeps s0 s) : Keeps s0
    (State.sentCmd s m part) := by
  unfold State.sentCmd
  repeat' first
    | with_reducible assumption | with_reducible exact Keeps.refl _ | with_reducible apply State.setUe_keeps

theorem State.failCmd_keeps {s0 : State} (s : State) (m : Fin 16) (hk : Keeps s0 s) : Keeps s0 (State.failCmd s m) := by
  unfold State.failCmd
  repeat' first
    | with_reducible assumption | with_reducible exact Keeps.refl _ | with_reducible apply State.setUe_keeps
    | with_reducible apply State.ueStop_keeps | with_reducible apply Keeps.foldl1 | extract_lets
    | with_reducible apply Keeps.cond | with_reducible apply KeepsOut.cond | with_reducible apply Keeps.foldl
    | (with_reducible apply Keeps.snd (by assumption)) | (with_reducible apply Keeps.fst (by assumption)) | intro _
    | split

theorem State.refuseRun_keeps {s0 : State} (s : State) (m : Fin 16) (code : Nat) (event : Nat) (hk : Keeps s0 s) : Keeps
    s0 (State.refuseRun s m code event) := by
  unfold State.refuseRun
  repeat' first
    | with_reducible assumption | with_reducible exact Keeps.refl _ | with_reducible apply State.put_keeps
    | with_reducible apply State.refuseCmd_keeps | with_reducible apply State.setUe_keeps
    | with_reducible apply State.ueEvent_keeps | with_reducible apply Keeps.foldl1 | extract_lets
    | with_reducible apply Keeps.cond | with_reducible apply KeepsOut.cond | with_reducible apply Keeps.foldl
    | (with_reducible apply Keeps.snd (by assumption)) | (with_reducible apply Keeps.fst (by assumption)) | intro _
    | split

theorem State.runRederive_keeps {s0 : State} (s : State) (m : Fin 16) (reads : BlockReads) (d : ShardDesc) (hk : Keeps
    s0 s) : Keeps s0 (State.runRederive s m reads d) := by
  unfold State.runRederive
  repeat' first
    | with_reducible assumption | with_reducible exact Keeps.refl _ | with_reducible apply State.failCmd_keeps
    | with_reducible apply State.put_keeps | with_reducible apply State.readBlocks_keeps
    | with_reducible apply State.rederive_keeps | with_reducible apply State.sentCmd_keeps
    | with_reducible apply Keeps.foldl1 | extract_lets | with_reducible apply Keeps.cond
    | with_reducible apply KeepsOut.cond | with_reducible apply Keeps.foldl | intro _

theorem State.auditShard_keeps {s0 : State} (s : State) (m : Fin 16) (sh : Shard) (d : ShardDesc) (hk : Keeps s0 s) :
    Keeps s0 (State.auditShard s m sh d) := by
  unfold State.auditShard
  repeat' first
    | with_reducible assumption | with_reducible exact Keeps.refl _ | with_reducible apply State.newReq_keeps
    | with_reducible apply State.rederive_keeps | with_reducible apply State.setUe_keeps
    | with_reducible apply State.ueEvent_keeps | with_reducible apply State.wr_keeps
    | with_reducible apply Keeps.foldl1 | extract_lets | with_reducible apply Keeps.cond
    | with_reducible apply KeepsOut.cond | with_reducible apply Keeps.foldl | intro _

theorem State.runAudit_keeps {s0 : State} (s : State) (m : Fin 16) (reads : BlockReads) (sh : Shard) (d : ShardDesc) (hk
    : Keeps s0 s) : Keeps s0 (State.runAudit s m reads sh d) := by
  unfold State.runAudit
  repeat' first
    | with_reducible assumption | with_reducible exact Keeps.refl _ | with_reducible apply State.auditShard_keeps
    | with_reducible apply State.failCmd_keeps | with_reducible apply State.readBlocks_keeps
    | with_reducible apply State.sentCmd_keeps | with_reducible apply State.setUe_keeps
    | with_reducible apply Keeps.foldl1 | extract_lets | with_reducible apply Keeps.cond
    | with_reducible apply KeepsOut.cond | with_reducible apply Keeps.foldl | intro _

theorem State.ueSend_keeps {s0 : State} (s : State) (m : Fin 16) (a : Nat) (bs : List Byte) (hk : Keeps s0 s) : Keeps s0
    (State.ueSend s m a bs).1 := by
  unfold State.ueSend
  repeat' first
    | with_reducible assumption | with_reducible exact Keeps.refl _ | with_reducible apply State.forwardWrite_keeps
    | with_reducible apply State.raiseCat_keeps | with_reducible apply State.storePost_keeps
    | with_reducible apply Keeps.foldl1 | extract_lets | with_reducible apply Keeps.cond
    | with_reducible apply KeepsOut.cond | with_reducible apply Keeps.foldl
    | (with_reducible apply Keeps.snd (by assumption)) | (with_reducible apply Keeps.fst (by assumption)) | intro _
    | split

theorem State.exportRun_keeps {s0 : State} (m : Fin 16) (d : ShardDesc) (j : Journal) (b : CmdBlock) (key : List Byte)
    (reads : BlockReads) (l : List PlanRec) (s : State) (n k : Nat) (hk : Keeps s0 s) :
    Keeps s0 (State.exportRun m d j b key reads l s n k).1 := by
  induction l generalizing s n k with
  | nil => exact hk
  | cons x l ih =>
    unfold State.exportRun
    extract_lets size r h w
    have hr : Keeps s0 r.1 := State.readBlocks_keeps _ _ _ hk
    have hw : Keeps s0 w.1 := State.ueSend_keeps _ _ _ _ hr
    split
    · exact hk
    split
    · exact hr
    split
    · exact ih _ _ _ hw
    · exact hw

theorem State.runExport_keeps {s0 : State} (s : State) (m : Fin 16) (reads : BlockReads) (c : UeCmd) (sh : Shard) (d :
    ShardDesc) (hk : Keeps s0 s) : Keeps s0 (State.runExport s m reads c sh d) := by
  unfold State.runExport
  repeat' first
    | with_reducible assumption | with_reducible exact Keeps.refl _ | with_reducible apply State.ckpt_keeps
    | with_reducible apply State.exportRun_keeps | with_reducible apply State.failCmd_keeps
    | with_reducible apply State.newReq_keeps | with_reducible apply State.refuseRun_keeps
    | with_reducible apply State.sentCmd_keeps | with_reducible apply State.setUe_keeps
    | with_reducible apply State.ueRead_keeps | with_reducible apply State.ueSend_keeps
    | with_reducible apply Keeps.foldl1 | extract_lets | with_reducible apply Keeps.cond
    | with_reducible apply KeepsOut.cond | with_reducible apply Keeps.foldl
    | (with_reducible apply Keeps.snd (by assumption)) | (with_reducible apply Keeps.fst (by assumption)) | intro _
    | split

theorem State.importElems_keeps {s0 : State} (s : State) (m : Fin 16) (d : ShardDesc) (h : List Byte) (pay : List Byte)
    (a : Nat) (w : Nat) (hk : Keeps s0 s) : Keeps s0 (State.importElems s m d h pay a w) := by
  unfold State.importElems
  repeat' first
    | with_reducible assumption | with_reducible exact Keeps.refl _ | with_reducible apply State.forwardWrite_keeps
    | with_reducible apply Keeps.foldl1 | extract_lets | with_reducible apply Keeps.cond
    | with_reducible apply KeepsOut.cond | with_reducible apply Keeps.foldl | intro _

theorem State.importJournal_keeps {s0 : State} (s : State) (m : Fin 16) (sh : Shard) (d : ShardDesc) (r : Journal) (hk :
    Keeps s0 s) : Keeps s0 (State.importJournal s m sh d r) := by
  unfold State.importJournal
  repeat' first
    | with_reducible assumption | with_reducible exact Keeps.refl _ | with_reducible apply State.checkLayer_keeps
    | with_reducible apply State.forwardWrite_keeps | with_reducible apply State.setJ_keeps
    | with_reducible apply State.setUe_keeps

theorem State.runImport_keeps {s0 : State} (s : State) (m : Fin 16) (reads : BlockReads) (c : UeCmd) (sh : Shard) (d :
    ShardDesc) (hk : Keeps s0 s) : Keeps s0 (State.runImport s m reads c sh d) := by
  unfold State.runImport
  repeat' first
    | with_reducible assumption | with_reducible exact Keeps.refl _ | with_reducible apply State.failCmd_keeps
    | with_reducible apply State.importElems_keeps | with_reducible apply State.importJournal_keeps
    | with_reducible apply State.newReq_keeps | with_reducible apply State.refuseRun_keeps
    | with_reducible apply State.sentCmd_keeps | with_reducible apply State.setUe_keeps
    | with_reducible apply State.ueRead_keeps | with_reducible apply Keeps.foldl1 | extract_lets
    | with_reducible apply Keeps.cond | with_reducible apply KeepsOut.cond | with_reducible apply Keeps.foldl
    | (with_reducible apply Keeps.snd (by assumption)) | (with_reducible apply Keeps.fst (by assumption)) | intro _
    | split

theorem State.runSnapshot_keeps {s0 : State} (s : State) (m : Fin 16) (reads : BlockReads) (d : ShardDesc) (hk : Keeps
    s0 s) : Keeps s0 (State.runSnapshot s m reads d) := by
  unfold State.runSnapshot
  repeat' first
    | with_reducible assumption | with_reducible exact Keeps.refl _ | with_reducible apply State.failCmd_keeps
    | with_reducible apply State.forwardWrite_keeps | with_reducible apply State.newReq_keeps
    | with_reducible apply State.readBlocks_keeps | with_reducible apply State.sentCmd_keeps
    | with_reducible apply Keeps.foldl1 | extract_lets | with_reducible apply Keeps.cond
    | with_reducible apply KeepsOut.cond | with_reducible apply Keeps.foldl | intro _

theorem State.runReload_keeps {s0 : State} (s : State) (m : Fin 16) (reads : BlockReads) (hk : Keeps s0 s) : Keeps s0
    (State.runReload s m reads) := by
  unfold State.runReload
  repeat' first
    | with_reducible assumption | with_reducible exact Keeps.refl _ | with_reducible apply State.loadTables_keeps
    | with_reducible apply State.sentCmd_keeps | with_reducible apply State.setUe_keeps
    | with_reducible apply Keeps.foldl1 | extract_lets | with_reducible apply Keeps.cond
    | with_reducible apply KeepsOut.cond | with_reducible apply Keeps.foldl | intro _

theorem State.runCmd_keeps {s0 : State} (s : State) (m : Fin 16) (reads : BlockReads) (hk : Keeps s0 s) : Keeps s0
    (State.runCmd s m reads) := by
  unfold State.runCmd
  repeat' first
    | with_reducible assumption | with_reducible exact Keeps.refl _ | with_reducible apply State.runAudit_keeps
    | with_reducible apply State.runExport_keeps | with_reducible apply State.runImport_keeps
    | with_reducible apply State.runRederive_keeps | with_reducible apply State.runReload_keeps
    | with_reducible apply State.runSnapshot_keeps | with_reducible apply Keeps.foldl1 | extract_lets
    | with_reducible apply Keeps.cond | with_reducible apply KeepsOut.cond | with_reducible apply Keeps.foldl
    | (with_reducible apply Keeps.snd (by assumption)) | (with_reducible apply Keeps.fst (by assumption)) | intro _
    | split

theorem State.command_keeps {s0 : State} (s : State) (m : Fin 16) (op : Nat) (shard : Fin 16384) (states : List Nat)
    (reads : BlockReads) (module : Nat) (die : Nat) (hk : Keeps s0 s) : KeepsOut s0 (State.command s m op shard states
    reads module die) := by
  unfold State.command
  repeat' first
    | with_reducible assumption | with_reducible exact Keeps.refl _ | with_reducible apply State.refuseCmd_keeps
    | with_reducible apply State.runCmd_keeps | with_reducible apply State.startCmd_keeps
    | with_reducible apply State.ueSync_keeps | with_reducible apply KeepsOut.next | with_reducible apply Keeps.foldl1
    | extract_lets | with_reducible apply Keeps.cond | with_reducible apply KeepsOut.cond
    | with_reducible apply Keeps.foldl | intro _ | split

theorem State.startAudit_keeps {s0 : State} (s : State) (m : Fin 16) (reads : BlockReads) (sh : Shard) (d : ShardDesc)
    (hk : Keeps s0 s) : Keeps s0 (State.startAudit s m reads sh d) := by
  unfold State.startAudit
  repeat' first
    | with_reducible assumption | with_reducible exact Keeps.refl _ | with_reducible apply State.failCmd_keeps
    | with_reducible apply State.readBlocks_keeps | with_reducible apply State.setUe_keeps
    | with_reducible apply Keeps.foldl1 | extract_lets | with_reducible apply Keeps.cond
    | with_reducible apply KeepsOut.cond | with_reducible apply Keeps.foldl | intro _

theorem State.coverDest_keeps {s0 : State} (s : State) (d : Fin 40) (o : Opnd) (fmt : Nat) (n : Nat) (hk : Keeps s0 s) :
    Keeps s0 (State.coverDest s d o fmt n) := by
  unfold State.coverDest
  repeat' first
    | with_reducible assumption | with_reducible exact Keeps.refl _ | with_reducible apply State.coverLines_keeps
    | with_reducible apply Keeps.foldl1 | extract_lets | with_reducible apply Keeps.cond
    | with_reducible apply KeepsOut.cond | with_reducible apply Keeps.foldl
    | (with_reducible apply Keeps.snd (by assumption)) | (with_reducible apply Keeps.fst (by assumption)) | intro _
    | split

theorem State.writeResults_keeps {s0 : State} (s : State) (d : Fin 40) (w : Cmd) (o : Opnd) (fmt : Nat) (l : List
    (Option (Nat × Flags))) (hk : Keeps s0 s) : Keeps s0 (State.writeResults s d w o fmt l) := by
  unfold State.writeResults
  repeat' first
    | with_reducible assumption | with_reducible exact Keeps.refl _ | with_reducible apply State.coverDest_keeps
    | with_reducible apply State.veFlags_keeps | with_reducible apply State.writeElems_keeps
    | with_reducible apply Keeps.foldl1 | extract_lets | with_reducible apply Keeps.cond
    | with_reducible apply KeepsOut.cond | with_reducible apply Keeps.foldl | intro _

theorem State.veElem_keeps {s0 : State} (s : State) (d : Fin 40) (bad : List VeBad) (w : Cmd) (n : Nat) (hk : Keeps s0
    s) : Keeps s0 (State.veElem s d bad w n) := by
  unfold State.veElem
  repeat' first
    | with_reducible assumption | with_reducible exact Keeps.refl _ | with_reducible apply State.writeResults_keeps

theorem State.veSplit_keeps {s0 : State} (s : State) (d : Fin 40) (bad : List VeBad) (w : Cmd) (n : Nat) (hk : Keeps s0
    s) : Keeps s0 (State.veSplit s d bad w n) := by
  unfold State.veSplit
  repeat' first
    | with_reducible assumption | with_reducible exact Keeps.refl _ | with_reducible apply State.writeResults_keeps

theorem State.veCmp_keeps {s0 : State} (s : State) (d : Fin 40) (bad : List VeBad) (w : Cmd) (n : Nat) (hk : Keeps s0 s)
    : Keeps s0 (State.veCmp s d bad w n) := by
  unfold State.veCmp
  repeat' first
    | with_reducible assumption | with_reducible exact Keeps.refl _ | with_reducible apply State.writeMask_keeps
    | with_reducible apply Keeps.foldl1 | extract_lets | with_reducible apply Keeps.cond
    | with_reducible apply KeepsOut.cond | with_reducible apply Keeps.foldl
    | (with_reducible apply Keeps.snd (by assumption)) | (with_reducible apply Keeps.fst (by assumption)) | intro _
    | split

theorem State.veCvt_keeps {s0 : State} (s : State) (d : Fin 40) (bad : List VeBad) (w : Cmd) (n : Nat) (hk : Keeps s0 s)
    : Keeps s0 (State.veCvt s d bad w n) := by
  unfold State.veCvt
  repeat' first
    | with_reducible assumption | with_reducible exact Keeps.refl _ | with_reducible apply State.coverDest_keeps
    | with_reducible apply State.setVe_keeps | with_reducible apply State.writeElems_keeps
    | with_reducible apply State.writeResults_keeps | with_reducible apply Keeps.foldl1 | extract_lets
    | with_reducible apply Keeps.cond | with_reducible apply KeepsOut.cond | with_reducible apply Keeps.foldl
    | intro _

theorem State.veReduce_keeps {s0 : State} (s : State) (d : Fin 40) (bad : List VeBad) (w : Cmd) (hk : Keeps s0 s) :
    Keeps s0 (State.veReduce s d bad w) := by
  unfold State.veReduce
  repeat' first
    | with_reducible assumption | with_reducible exact Keeps.refl _ | with_reducible apply State.writeResults_keeps

theorem State.tloadRows_keeps {s0 : State} (s : State) (d : Fin 40) (w : Cmd) (cols r k : Nat) (hk : Keeps s0 s) :
    Keeps s0 (s.tloadRows d w cols r k) := by
  induction k generalizing s r with
  | zero => exact hk
  | succ k ih =>
    unfold State.tloadRows
    exact ih _ _ (Keeps.foldl (fun u x h => State.writeElem_keeps _ _ _ _ _ _ h) hk)

theorem State.veTstore_keeps {s0 : State} (s : State) (d : Fin 40) (bad : List VeBad) (w : Cmd) (rows : Nat) (hk : Keeps
    s0 s) : Keeps s0 (State.veTstore s d bad w rows) := by
  unfold State.veTstore
  repeat' first
    | with_reducible assumption | with_reducible exact Keeps.refl _ | with_reducible apply State.coverLines_keeps
    | with_reducible apply State.putElem_keeps | with_reducible apply State.setVe_keeps
    | with_reducible apply State.veFlags_keeps | with_reducible apply Keeps.foldl1 | extract_lets
    | with_reducible apply Keeps.cond | with_reducible apply KeepsOut.cond | with_reducible apply Keeps.foldl
    | intro _

theorem State.veTtrans_keeps {s0 : State} (s : State) (d : Fin 40) (bad : List VeBad) (w : Cmd) (hk : Keeps s0 s) :
    Keeps s0 (State.veTtrans s d bad w) := by
  unfold State.veTtrans
  repeat' first
    | with_reducible assumption | with_reducible exact Keeps.refl _ | with_reducible apply State.setVe_keeps

theorem State.veMask_keeps {s0 : State} (s : State) (d : Fin 40) (bad : List VeBad) (w : Cmd) (hk : Keeps s0 s) : Keeps
    s0 (State.veMask s d bad w) := by
  unfold State.veMask
  repeat' first
    | with_reducible assumption | with_reducible exact Keeps.refl _ | with_reducible apply State.storeWrite_keeps
    | with_reducible apply State.writeMask_keeps | with_reducible apply Keeps.foldl1 | extract_lets
    | with_reducible apply Keeps.cond | with_reducible apply KeepsOut.cond | with_reducible apply Keeps.foldl
    | (with_reducible apply Keeps.snd (by assumption)) | (with_reducible apply Keeps.fst (by assumption)) | intro _
    | split

theorem State.veSets_keeps {s0 : State} (s : State) (d : Fin 40) (w : Cmd) (hk : Keeps s0 s) : Keeps s0 (State.veSets s d w) := by
  unfold State.veSets
  repeat' first
    | with_reducible assumption | with_reducible exact Keeps.refl _ | with_reducible apply State.setVe_keeps

theorem State.veGetf_keeps {s0 : State} (s : State) (d : Fin 40) (w : Cmd) (hk : Keeps s0 s) : Keeps s0 (State.veGetf s d w) := by
  unfold State.veGetf
  repeat' first
    | with_reducible assumption | with_reducible exact Keeps.refl _ | with_reducible apply State.put_keeps
    | with_reducible apply State.setVe_keeps | with_reducible apply Keeps.foldl1 | extract_lets
    | with_reducible apply Keeps.cond | with_reducible apply KeepsOut.cond | with_reducible apply Keeps.foldl
    | intro _

theorem State.vePerf_keeps {s0 : State} (s : State) (d : Fin 40) (beat : Nat) (n : Nat) (act : Nat) (hk : Keeps s0 s) :
    Keeps s0 (State.vePerf s d beat n act) := by
  unfold State.vePerf
  repeat' first
    | with_reducible assumption | with_reducible exact Keeps.refl _ | with_reducible apply State.add64_keeps
    | with_reducible apply State.bump_keeps | with_reducible apply Keeps.foldl1 | extract_lets
    | with_reducible apply Keeps.cond | with_reducible apply KeepsOut.cond | with_reducible apply Keeps.foldl
    | intro _

theorem State.veEffect_keeps {s0 : State} (s : State) (d : Fin 40) (bad : List VeBad) (w : Cmd) (k : Nat) (hk : Keeps s0
    s) : Keeps s0 (State.veEffect s d bad w k) := by
  unfold State.veEffect
  repeat' first
    | with_reducible assumption | with_reducible exact Keeps.refl _ | with_reducible apply State.tloadRows_keeps
    | with_reducible apply State.veCmp_keeps | with_reducible apply State.veCvt_keeps
    | with_reducible apply State.veElem_keeps | with_reducible apply State.veGetf_keeps
    | with_reducible apply State.veMask_keeps | with_reducible apply State.veReduce_keeps
    | with_reducible apply State.veSets_keeps | with_reducible apply State.veSplit_keeps
    | with_reducible apply State.veTstore_keeps | with_reducible apply State.veTtrans_keeps
    | with_reducible apply Keeps.foldl1 | extract_lets | with_reducible apply Keeps.cond
    | with_reducible apply KeepsOut.cond | with_reducible apply Keeps.foldl | intro _

theorem State.veTick_keeps {s0 : State} (s : State) (d : Fin 40) (w : Cmd) (hk : Keeps s0 s) : Keeps s0 (State.veTick s d w) := by
  unfold State.veTick
  repeat' first
    | with_reducible assumption | with_reducible exact Keeps.refl _ | with_reducible apply State.setVe_keeps

theorem State.veRefuse_keeps {s0 : State} (s : State) (d : Fin 40) (e : UCmd) (code : Nat) (hk : Keeps s0 s) : Keeps s0
    (State.veRefuse s d e code) := by
  unfold State.veRefuse
  repeat' first
    | with_reducible assumption | with_reducible exact Keeps.refl _ | with_reducible apply State.raise_keeps
    | with_reducible apply State.recordRefusal_keeps | with_reducible apply State.unitFault_keeps

theorem State.veHead_keeps {s0 : State} (s : State) (d : Fin 40) (bad : List VeBad) (hk : Keeps s0 s) : Keeps s0
    (State.veHead s d bad) := by
  unfold State.veHead
  repeat' first
    | with_reducible assumption | with_reducible exact Keeps.refl _ | with_reducible apply State.completeAt_keeps
    | with_reducible apply State.popHead_keeps | with_reducible apply State.put_keeps
    | with_reducible apply State.unitFault_keeps | with_reducible apply State.veEffect_keeps
    | with_reducible apply State.veParity_keeps | with_reducible apply State.vePerf_keeps
    | with_reducible apply State.veRefuse_keeps | with_reducible apply State.veTick_keeps
    | with_reducible apply Keeps.foldl1 | extract_lets | with_reducible apply Keeps.cond
    | with_reducible apply KeepsOut.cond | with_reducible apply Keeps.foldl
    | (with_reducible apply Keeps.snd (by assumption)) | (with_reducible apply Keeps.fst (by assumption)) | intro _
    | split

theorem State.veRun_keeps {s0 : State} (s : State) (d : Fin 40) (q : Fin 4) (w : Cmd) (bad : List VeBad) (hk : Keeps s0
    s) : Keeps s0 (State.veRun s d q w bad) := by
  unfold State.veRun
  repeat' first
    | with_reducible assumption | with_reducible exact Keeps.refl _ | with_reducible apply State.enter_keeps
    | with_reducible apply State.veHead_keeps | with_reducible apply Keeps.foldl1 | extract_lets
    | with_reducible apply Keeps.cond | with_reducible apply KeepsOut.cond | with_reducible apply Keeps.foldl
    | intro _

end Sys2Proof.Machine
end

