-- ==== Sys2Proof/Tests/Slice0.lean ====
section
/-! SUPPORT. Ill-formed commands that WellFormed refuses, states and operands that meet the hypotheses of each clause of
each statement (named after the statement and its clause), and small tests of single steps. -/
namespace Sys2Proof.Tests
open Sys2Proof Sys2Proof.Machine
set_option linter.unusedVariables false
set_option Elab.async false

/-- A state with registers written. -/
def withRegs (s : State) (l : List (Nat × Nat)) : State := l.foldl (fun t p => t.wr p.1 (BitVec.ofNat 32 p.2)) s

/-- The module in RUN, one canton, ASSIGNED. -/
def base : State := withRegs State.reset [(R.BOOT_STATUS, 8), (R.CPOL_STATUS 0, 1)]
/-- A byte string in memory. -/
def withMem (s : State) (a : Nat) (bs : List Byte) : State := s.putBytes a bs
/-- A command word from its fields: value and lowest bit. -/
def word (l : List (Nat × Nat)) : Cmd := BitVec.ofNat 128 (l.foldl (fun n p => n + p.1 * 2 ^ p.2) 0)
/-- A command in a unit FIFO, from queue 0. -/
def ucmd (w : Cmd) : UCmd := ⟨0, w, 0, 0, 0, false⟩
/-- A die with one command in a unit FIFO. -/
def inFifo (s : State) (d : Fin 40) (u : Fin 8) (w : Cmd) : State := s.setCd d ((s.cd d).setFifo u [ucmd w])
/-- A die whose local store granted one access in this cycle. -/
def granting (s : State) (d : Fin 40) (r : Fin 9) (k : LsKind) : State :=
  s.setCd d { s.cd d with arb := { (s.cd d).arb with cycle := s.aclk, grants := [(r, k)] } }
/-- Place of ring index 0xFFFF of queue 3 on die 39, in a ring of 16 commands at 4 KiB of its local store. -/
def ringAt : Nat := lsBase 39 + 4096 + 240
/-- Die 39 with queue 3 in a state, HEAD at 0xFFFF and TAIL at 0, and one command there. -/
def queued (st : Nat) (w : Cmd) : State :=
  withMem (withRegs base [(R.SEQ_Q_STATUS 39 3, st), (R.SEQ_Q_BASE_LO 39 3, (lsBase 39 + 4096) % 2 ^ 32),
    (R.SEQ_Q_BASE_HI 39 3, lsBase 39 / 2 ^ 32), (R.SEQ_Q_SIZE 39 3, 4), (R.SEQ_Q_HEAD 39 3, 0xFFFF)]) ringAt (leBytes 16 w.toNat)
/-- A queue of die 39 that waits at a command since ACLK cycle 0. -/
def waits (s : State) (w : Cmd) : State := s.setQue 39 3 { s.que 39 3 with wait := some w }
/-- Canton 0 with 64 MiB of DRAM on 32 DIMMs, 32 MiB of it spread. -/
def dram2 : State := withRegs base [(R.ARCH_CFG, 4), (R.ARCH_CANTON_SIZE 0, 64), (R.ARCH_CANTON_SPREAD 0, 32)]
/-- A block of channel 1 in memory die 15's owned region (block 0x1003 of the channel). -/
def block15 : Nat := 0x3E01300
/-- Memory die 15 with keys and tree, requests waiting and accepted, one counter of channel 1, and poison entries. -/
def sealSt (reqs reads : List SealReq) (minors : Sparse Nat) (ptab : List (Nat × PoisonEntry)) : State :=
  let s := (dram2.put (R.SEAL_STATUS 15) F.SEAL_STATUS_KEYS 1).put (R.SEAL_STATUS 15) F.SEAL_STATUS_TREE 1
  s.setEng 15 { s.eng 15 with reqs := reqs, reads := reads, ptab := ptab,
                              chans := (s.eng 15).chans.set 1 { SealChan.reset with minors := minors } }
/-- A BF16 vector shard of one square with OUTER, in memory die 15's owned region. -/
def desc1 : ShardDesc :=
  { tensor := 77, ndim := 0, valid := true, layer := 3, opt := 1, outer := true, frozen := false, wfmt := 4, mbf16 := false,
    srm := false, srw := false, src := false, spare := false, shape := [1, 1, 1, 100], lo := [0, 0, 0, 0],
    hi := [0, 0, 0, 99], lrmul := 0x3F800000, decay := 0, beta1 := 0, beta2 := 0, eps := 0, olr := 0x3F800000, omu := 0,
    master := 0x3E00000, mom1 := 0x3E10000, mom2 := 0, plain := 0x3E20000, pscale := 0, trans := 0, tscale := 0,
    recov := 0x3E40000, jcopy := 0x3E30000, snap := 0x3E50000, omom := 0x3E60000 }
/-- Its journal in a state, with 4 outer steps and 9 inner ones behind it. -/
def journal1 (st : Nat) : Journal := { Journal.reset with state := st, ostep := 4, istep := 9 }
def shard1 (j : Journal) : Shard := ⟨16383, some desc1, j⟩
/-- Canton 0 with 64 MiB of DRAM. -/
def dramBase : State := withRegs base [(R.ARCH_CANTON_SIZE 0, 64)]

theorem wit_RegisterWriteFollowsAccessTypes :
    (∃ s : State, ∃ d : Fin 40, ∃ off : Nat, ∃ r : RegRow, ∃ x : W32, ∃ hw : W32, (off < 0x100000) ∧ (regAt (cdBase d + off) = some r) ∧ (r.die = .cd) ∧ (recordRegs.contains (r.die, r.off) = false) ∧ (s.dieOff d = false) ∧ (s.writeHeld r (cdBase d + off) = false) ∧ (reservedBits r x = 0)) ∧
    (∃ s : State, ∃ d : Fin 40, ∃ off : Nat, ∃ r : RegRow, ∃ x : W32, ∃ hw : W32, (off < 0x100000) ∧ (regAt (cdBase d + off) = some r) ∧ (r.die = .cd) ∧ (recordRegs.contains (r.die, r.off) = false) ∧ (s.dieOff d = false) ∧ (s.writeHeld r (cdBase d + off) = false) ∧ (reservedBits r x = 0)) :=
  ⟨⟨base, 39, 0x23044, (⟨"MA_PERF_CTL", .cd, 0x20044, [(4, 4096)], [⟨0, 0, .rw, 0, .n⟩, ⟨1, 1, .wo, 0, .n⟩]⟩), 1, 0, by decide, by decide, by decide, by decide, by decide, by decide, by decide⟩,
   ⟨(withRegs base [(R.VE_STATUS (cdBase 0), 0x300)]), 0, 0x24000, (⟨"VE_STATUS", .cd, 0x24000, [], [⟨0, 0, .ro, 0, .n⟩, ⟨1, 1, .ro, 0, .n⟩, ⟨2, 2, .ro, 0, .n⟩, ⟨8, 8, .rw1c, 0, .n⟩, ⟨9, 9, .rw1c, 0, .n⟩, ⟨10, 10, .rw1c, 0, .n⟩, ⟨11, 11, .rw1c, 0, .n⟩, ⟨12, 12, .rw1c, 0, .n⟩, ⟨13, 13, .rw1c, 0, .n⟩]⟩), 0x100, 0, by decide, by decide, by decide, by decide, by decide, by decide, by decide⟩⟩

theorem wit_ReservedAndForeignRegistersReadZero :
    (∃ s : State, ∃ v : View, ∃ addr : Nat, ∃ wr : Option W32, (s.crsReserved addr = true)) ∧
    (∃ s : State, ∃ v : View, ∃ addr : Nat, ∃ wr : Option W32, (s.crsReserved addr = true)) ∧
    (∃ s : State, ∃ d : Fin 40, ∃ addr : Nat, ∃ wr : Option W32, (s.foreign d addr wr.isNone = true)) :=
  ⟨⟨base, .host, 0x10FFFFC, (some 1), by decide⟩,
   ⟨base, .host, 0x3FFFFFC, none, by decide⟩,
   ⟨(withRegs base [(R.ARCH_CFG, 1)]), 0, (cdBase 39 + 0x24000), none, by decide⟩⟩

theorem wit_MemoryAccessIsCheckedOnceOnEntry_1 :
    (∃ s : State, ∃ r : Requester, ∃ op : MpaOp, ∃ addr : Nat, ∃ cat : Nat, (s.checkRange r (mpaWrites op) addr (mpaLen op) = .busError cat)) ∧
    (∃ s : State, ∃ r : Requester, ∃ op : MpaOp, ∃ addr : Nat, ∃ cat : Nat, (s.checkRange r (mpaWrites op) addr (mpaLen op) = .busError cat)) ∧
    (∃ s : State, ∃ r : Requester, ∃ addr : Nat, ∃ n : Nat, ∃ d : Nat, ∃ off : Nat, (s.checkRange r false addr n = .ok) ∧ (s.placeOf addr = .cd d off)) ∧
    (∃ s : State, ∃ r : Requester, ∃ addr : Nat, ∃ n : Nat, (s.checkRange r false addr n = .ok) ∧ (((∃ m, s.placeOf addr = .landing m) ∨ ∃ l, s.placeOf addr = .redmem l))) ∧
    (∃ s : State, ∃ r : Requester, ∃ bs : List Byte, ∃ addr : Nat, ∃ d : Nat, ∃ off : Nat, (s.checkRange r true addr bs.length = .ok) ∧ (s.placeOf addr = .cd d off) ∧ ((s.cd (fin40 d)).coversWindow off bs.length = false)) ∧
    (∃ s : State, ∃ r : Requester, ∃ inc : BitVec 64, ∃ addr : Nat, ∃ d : Nat, ∃ off : Nat, (s.checkRange r true addr 8 = .ok) ∧ (s.placeOf addr = .cd d off) ∧ ((s.cd (fin40 d)).coversWindow off 8 = false)) :=
  ⟨⟨base, (.die 0), (.read 1), 0x80000000000, 2, by decide⟩,
   ⟨base, (.hdma 0), (.write [1, 2]), (landBase 3), 4, by decide⟩,
   ⟨(withMem base (lsBase 39 + 64) [1, 2, 3]), (.die 39), (lsBase 39 + 64), 64, 39, 64, by decide, by decide⟩,
   ⟨(withMem base (landBase 3) [1]), .reduction, (landBase 3), 4, by decide, Or.inl ⟨3, by decide⟩⟩,
   ⟨({ base with poison := [((lsBase 39 + 64) / 64, true)] }), (.die 39), ([1, 2, 3, 4, 5, 6, 7]), (lsBase 39 + 62), 39, 62, by decide, by decide, by decide⟩,
   ⟨(withMem base (lsBase 39 + 64) [255, 255]), (.die 39), 2, (lsBase 39 + 64), 39, 64, by decide, by decide, by decide⟩⟩

theorem wit_MemoryAccessIsCheckedOnceOnEntry_2 :
    (∃ s : State, ∃ r : Requester, ∃ op : MpaOp, ∃ addr : Nat, ∃ d : Nat, ∃ off : Nat, (mpaWrites op = true) ∧ (s.checkRange r true addr (mpaLen op) = .ok) ∧ (s.placeOf addr = .cd d off) ∧ ((s.cd (fin40 d)).coversWindow off (mpaLen op) = true)) ∧
    (∃ s : State, ∃ r : Requester, ∃ op : MpaOp, ∃ addr : Nat, ∃ k : Nat, ∃ m : Nat, ∃ c : Nat, ∃ b : Nat, (s.checkRange r (mpaWrites op) addr (mpaLen op) = .ok) ∧ (s.placeOf addr = .dram k) ∧ (s.channelOf addr = some (m, c, b)) ∧ (0 < mpaLen op) ∧ (addr % 256 + mpaLen op ≤ 256)) ∧
    (∃ s : State, ∃ r : Requester, ∃ bs : List Byte, ∃ addr : Nat, ∃ k : Nat, (s.checkRange r true addr bs.length = .ok) ∧ (s.placeOf addr = .dram k)) :=
  ⟨⟨(base.setCd 39 { base.cd 39 with drains := [⟨ucmd 0, 0, 64, 0, 0, false, false, [], []⟩] }), (.die 39), (.write [1]), (lsBase 39 + 0x3000000), 39, 0x3000000, by decide, by decide, by decide, by decide⟩,
   ⟨dramBase, (.die 39), (.read 256), 0x3FFFF00, 0, 15, 0, 4194048, by decide, by decide, by decide, by decide, by decide⟩,
   ⟨dramBase, (.die 39), ([7]), 0x3FFFFFF, 0, by decide, by decide⟩⟩

theorem wit_FabricFlitsAndPacketsMove_1 :
    (∃ s : State, ∃ die : Fin 64, ∃ port : Fin 4, ∃ o : Nat, (neighbour die port = some o) ∧ (s.linkShut die port = false)) ∧
    (∃ s : State, ∃ die : Fin 64, ∃ port : Fin 4, ∃ o : Nat, (neighbour die port = some o) ∧ (s.linkShut die port = false)) ∧
    (∃ s : State, ∃ die : Fin 64, ∃ port : Fin 4, ∃ ok : Bool, (s.linkShut die port = true)) ∧
    (∃ s : State, ∃ die : Fin 64, ∃ port : Fin 4, ∃ o : Nat, (neighbour die port = some o) ∧ (Sparse.get (fun _ => 0) s.fabRetry (portKey die port) < 17)) ∧
    (∃ s : State, ∃ die : Fin 64, ∃ port : Fin 4, ∃ o : Nat, (neighbour die port = some o) ∧ (17 ≤ Sparse.get (fun _ => 0) s.fabRetry (portKey die port))) ∧
    (∃ s : State, ∃ id : Nat, ∃ src : Fin 64, ∃ dst : Fin 64, ∃ cls : PacketClass, ∃ flits : Nat, ∃ busy : Bool, ∃ shut : Bool, ∃ p : Packet, ((s.packets.find? (fun x => x.id == id)).getD (⟨id, src, dst, cls, turnOrder src dst, flits, (diePos src).1, (diePos src).2, false, s.now⟩ : Packet) = p) ∧ (0 < p.flits) ∧ (p.flits ≤ classMost p.cls) ∧ (s.linkShut (dieAt p.col p.row) (portTo (p.col, p.row) (nextHop p.col p.row (diePos p.dst).1 (diePos p.dst).2)) = shut) ∧ (busy = false) ∧ (shut = false) ∧ ((p.col, p.row) ≠ diePos p.dst)) :=
  ⟨⟨base, 63, 0, 51, by decide, by decide⟩,
   ⟨base, 63, 0, 51, by decide, by decide⟩,
   ⟨base, 0, 3, true, by decide⟩,
   ⟨({ base with fabRetry := [(portKey 63 0, 16)] }), 63, 0, 51, by decide, by decide⟩,
   ⟨({ base with fabRetry := [(portKey 63 0, 17)] }), 63, 0, 51, by decide, by decide⟩,
   ⟨base, 0, 0, 39, .request, 4, false, false, (⟨0, 0, 39, .request, 0, 4, 0, 1, false, 0⟩), by decide, by decide, by decide, by decide, by decide, by decide, by decide⟩⟩

theorem wit_FabricFlitsAndPacketsMove_2 :
    ∃ s : State, ∃ id : Nat, ∃ src : Fin 64, ∃ dst : Fin 64, ∃ cls : PacketClass, ∃ flits : Nat, ∃ busy : Bool, ∃ shut : Bool, ∃ p : Packet, ((s.packets.find? (fun x => x.id == id)).getD (⟨id, src, dst, cls, turnOrder src dst, flits, (diePos src).1, (diePos src).2, false, s.now⟩ : Packet) = p) ∧ (0 < p.flits) ∧ (p.flits ≤ classMost p.cls) ∧ (s.linkShut (dieAt p.col p.row) (portTo (p.col, p.row) (nextHop p.col p.row (diePos p.dst).1 (diePos p.dst).2)) = shut) ∧ (busy = true ∨ shut = true) :=
  ⟨base, 0, 0, 39, .bulk, 64, true, false, (⟨0, 0, 39, .bulk, 0, 64, 0, 1, false, 0⟩), by decide, by decide, by decide, by decide, by decide⟩
def snoop : Instr := .hostSnoop 0

theorem wit_StepRunsTheFrontCommand :
    (∃ s : State, ∃ c : Instr, ∃ r : List Instr, (s.pending = c :: r)) ∧
    (∃ s : State, (s.pending = [])) :=
  ⟨⟨({ base with pending := [snoop, snoop] }), snoop, ([snoop]), by decide⟩,
   ⟨base, by decide⟩⟩

theorem wit_EveryStepKeepsTheCanonicalForms :
    ∃ s : State, ∃ t : State, (Inv s) ∧ (step s = .next t) :=
  ⟨({ base with pending := [snoop] }), ({ base with resp := .miss }), by constructor <;> decide, rfl⟩
/-- MA_HOIST, BF16 with 128 active rows, SIG 5. -/
def hoistW : Cmd := word [(1, 0), (3, 8), (5, 12), (4, 56), (127, 82)]
/-- MA_PASS of 1,024 INT8 slots with the largest addresses, no SIG. -/
def passW : Cmd := word [(2, 0), (3, 8), (1023, 36), (2, 46), (3, 54), (1, 98)]
/-- MA_CCFG, INT8, MAXWAIT 5, SIGCTR 9. -/
def ccfgW : Cmd := word [(3, 0), (3, 8), (1, 12), (3, 16), (5, 20), (9, 80)]
/-- MA_REQ of 127 rows. -/
def reqW : Cmd := word [(4, 0), (3, 8), (1, 12), (126, 36), (7, 43)]
/-- MA_FLUSH. -/
def flushW : Cmd := word [(5, 0), (3, 8), (1, 12)]
/-- MA_HOIST, INT8. -/
def hoistI : Cmd := word [(1, 0), (3, 8), (3, 12), (3, 56), (127, 82)]
/-- A hoist in array 3. -/
def hoist1 (w : Cmd) (rows : Nat) : Hoist := ⟨1, ucmd w, 0, 0, 0, List.replicate rows (List.replicate 128 1), [], 0⟩
/-- A pass of 2 INT8 slots under hoist 1. -/
def pass1 : Pass :=
  { no := 0, hoist := 1, e := ucmd (word [(2, 0), (3, 8), (4, 12)]), slots := 2, fmt := 3, scaled := false, aaddr := 128,
    stride := 128, saddr := 0, daddr := 4096, gas := false, acc := false, zeroMasked := false, maskAt := none, lines := [],
    pos := 0, rows := [], batch := none, table := 0, hcmd := hoistI, own := none, endAt := 0 }
/-- One request row of an open batch. -/
def row1 : ReqRow := ⟨7, 0, 128, 0, ucmd reqW⟩
/-- A weight set of −128 in row 0, INT8, all columns. -/
def set1 : WeightSet := ⟨3, false, false, BitVec.ofNat 128 (2 ^ 128 - 1), 1, List.replicate 128 128, []⟩
/-- A tile row of −128 on its way, its column 127 to write, accumulating. -/
def fed1 (acc : Bool) : FedRow :=
  { pass := 0, slot := 0, fed := 0, masked := false, data := List.replicate 128 128, scales := [], fmt := 3, scaled := false,
    set := set1, setNo := 1, dest := lsBase 39 + 4096, acc := acc, stagger := false, todo := BitVec.ofNat 128 (2 ^ 127), held := [], outs := [(126, 7)] }
/-- Array 3 of die 39 with its state replaced, at tick n. -/
def array (f : MArray → MArray) (n : Nat) : State :=
  { base.setMa 39 3 (f (base.ma 39 3)) with now := n }

theorem wit_ArraysAcceptTheirCommands_1 :
    (∃ s : State, ∃ d : Fin 40, ∃ a : Fin 4, ∃ q : Fin 4, ∃ w : Cmd, ∃ e : UCmd, ∃ c : Instr, (s.head? d (maUnit a) = some e) ∧ (e.q = q) ∧ (e.w = w) ∧ (e.quiet = false) ∧ ((s.cd d).stopped[maUnit a] = false) ∧ (s.dieOff d = false) ∧ ((s.ma d a).accAt ≠ s.aclk + 1) ∧ (isUnit w a 0x01 = true) ∧ (hoistCause w = none) ∧ ((s.ma d a).waiting = none) ∧ (c ∈ ([.maHoist d a q w, .maCommandAccept d a] : List Instr))) ∧
    (∃ s : State, ∃ d : Fin 40, ∃ a : Fin 4, ∃ q : Fin 4, ∃ w : Cmd, ∃ e : UCmd, ∃ c : Instr, (s.head? d (maUnit a) = some e) ∧ (e.q = q) ∧ (e.w = w) ∧ (e.quiet = false) ∧ ((s.cd d).stopped[maUnit a] = false) ∧ (s.dieOff d = false) ∧ ((s.ma d a).accAt ≠ s.aclk + 1) ∧ (isUnit w a 0x01 = true) ∧ (hoistCause w = none) ∧ ((s.ma d a).waiting = none) ∧ (c ∈ ([.maHoist d a q w, .maCommandAccept d a] : List Instr))) ∧
    (∃ s : State, ∃ d : Fin 40, ∃ a : Fin 4, ∃ q : Fin 4, ∃ w : Cmd, ∃ e : UCmd, ∃ c : Instr, (s.head? d (maUnit a) = some e) ∧ (e.q = q) ∧ (e.w = w) ∧ (e.quiet = false) ∧ ((s.cd d).stopped[maUnit a] = false) ∧ (s.dieOff d = false) ∧ ((s.ma d a).accAt ≠ s.aclk + 1) ∧ (isUnit w a 0x02 = true) ∧ ((s.ma d a).coll.rows = []) ∧ (passCause (s.ma d a).lastHoist w = none) ∧ ((s.ma d a).held = none) ∧ ((s.ma d a).issued = []) ∧ (c ∈ ([.maPass d a q w, .maCommandAccept d a] : List Instr))) ∧
    (∃ s : State, ∃ d : Fin 40, ∃ a : Fin 4, ∃ q : Fin 4, ∃ w : Cmd, ∃ e : UCmd, ∃ c : Instr, (s.head? d (maUnit a) = some e) ∧ (e.q = q) ∧ (e.w = w) ∧ (e.quiet = false) ∧ ((s.cd d).stopped[maUnit a] = false) ∧ (s.dieOff d = false) ∧ ((s.ma d a).accAt ≠ s.aclk + 1) ∧ (isUnit w a 0x02 = true) ∧ ((s.ma d a).coll.rows = []) ∧ (passCause (s.ma d a).lastHoist w = none) ∧ ((s.ma d a).held = none) ∧ ((s.ma d a).issued = []) ∧ (c ∈ ([.maPass d a q w, .maCommandAccept d a] : List Instr))) ∧
    (∃ s : State, ∃ d : Fin 40, ∃ a : Fin 4, ∃ q : Fin 4, ∃ w : Cmd, ∃ e : UCmd, ∃ c : Instr, (s.head? d (maUnit a) = some e) ∧ (e.q = q) ∧ (e.w = w) ∧ (e.quiet = false) ∧ ((s.cd d).stopped[maUnit a] = false) ∧ (s.dieOff d = false) ∧ ((s.ma d a).accAt ≠ s.aclk + 1) ∧ (isUnit w a 0x03 = true) ∧ (ccfgCause w = none) ∧ (c ∈ ([.maCcfg d a q w, .maCommandAccept d a] : List Instr))) ∧
    (∃ s : State, ∃ d : Fin 40, ∃ a : Fin 4, ∃ q : Fin 4, ∃ w : Cmd, ∃ e : UCmd, ∃ cfg, ∃ c : Instr, (s.head? d (maUnit a) = some e) ∧ (e.q = q) ∧ (e.w = w) ∧ (e.quiet = false) ∧ ((s.cd d).stopped[maUnit a] = false) ∧ (s.dieOff d = false) ∧ ((s.ma d a).accAt ≠ s.aclk + 1) ∧ (isUnit w a 0x04 = true) ∧ ((s.ma d a).coll.cfg = some cfg) ∧ (reqCause (s.ma d a).lastHoist (s.ma d a).coll.cfg w = none) ∧ ((s.ma d a).coll.rows.length + (cbits w 42 36 + 1) ≤ 128) ∧ (c ∈ ([.maReq d a q w, .maCommandAccept d a] : List Instr))) :=
  ⟨⟨(inFifo base 39 3 hoistW), 39, 3, 0, hoistW, (ucmd hoistW), (Instr.maHoist 39 3 0 hoistW), by decide, by decide, by decide, by decide, by decide, by decide, by decide, by decide, by decide, by decide, by simp⟩,
   ⟨(inFifo base 39 3 hoistW), 39, 3, 0, hoistW, (ucmd hoistW), (Instr.maCommandAccept 39 3), by decide, by decide, by decide, by decide, by decide, by decide, by decide, by decide, by decide, by decide, by simp⟩,
   ⟨(inFifo (array (fun m => { m with lastHoist := some hoistI, hoists := 1 }) 0) 39 3 passW), 39, 3, 0, passW, (ucmd passW), (Instr.maPass 39 3 0 passW), by decide, by decide, by decide, by decide, by decide, by decide, by decide, by decide, by decide, by decide, by decide, by decide, by simp⟩,
   ⟨(inFifo (array (fun m => { m with lastHoist := some hoistI, hoists := 1, feeding := some pass1 }) 0) 39 3 passW), 39, 3, 0, passW, (ucmd passW), (Instr.maPass 39 3 0 passW), by decide, by decide, by decide, by decide, by decide, by decide, by decide, by decide, by decide, by decide, by decide, by decide, by simp⟩,
   ⟨(inFifo base 39 3 ccfgW), 39, 3, 0, ccfgW, (ucmd ccfgW), (Instr.maCcfg 39 3 0 ccfgW), by decide, by decide, by decide, by decide, by decide, by decide, by decide, by decide, by decide, by simp⟩,
   ⟨(inFifo (array (fun m => { m with lastHoist := some hoistI, coll := { m.coll with cfg := some ccfgW } }) 0) 39 3 reqW), 39, 3, 0, reqW, (ucmd reqW), ccfgW, (Instr.maReq 39 3 0 reqW), by decide, by decide, by decide, by decide, by decide, by decide, by decide, by decide, by decide, by decide, by decide, by simp⟩⟩

theorem wit_ArraysAcceptTheirCommands_2 :
    (∃ s : State, ∃ d : Fin 40, ∃ a : Fin 4, ∃ q : Fin 4, ∃ w : Cmd, ∃ e : UCmd, ∃ cfg, ∃ c : Instr, (s.head? d (maUnit a) = some e) ∧ (e.q = q) ∧ (e.w = w) ∧ (e.quiet = false) ∧ ((s.cd d).stopped[maUnit a] = false) ∧ (s.dieOff d = false) ∧ ((s.ma d a).accAt ≠ s.aclk + 1) ∧ (isUnit w a 0x04 = true) ∧ ((s.ma d a).coll.cfg = some cfg) ∧ (reqCause (s.ma d a).lastHoist (s.ma d a).coll.cfg w = none) ∧ ((s.ma d a).coll.rows.length + (cbits w 42 36 + 1) ≤ 128) ∧ (c ∈ ([.maReq d a q w, .maCommandAccept d a] : List Instr))) ∧
    (∃ s : State, ∃ d : Fin 40, ∃ a : Fin 4, ∃ q : Fin 4, ∃ w : Cmd, ∃ e : UCmd, ∃ cfg, ∃ c : Instr, (s.head? d (maUnit a) = some e) ∧ (e.q = q) ∧ (e.w = w) ∧ (e.quiet = false) ∧ ((s.cd d).stopped[maUnit a] = false) ∧ (s.dieOff d = false) ∧ ((s.ma d a).accAt ≠ s.aclk + 1) ∧ (isUnit w a 0x05 = true) ∧ ((s.ma d a).coll.cfg = some cfg) ∧ (cbits w 127 16 = 0) ∧ (c ∈ ([.maFlush d a q w, .maCommandAccept d a] : List Instr))) :=
  ⟨⟨(inFifo (array (fun m => { m with lastHoist := some hoistI, coll := { m.coll with cfg := some ccfgW, rows := [row1] } }) 0) 39 3 reqW), 39, 3, 0, reqW, (ucmd reqW), ccfgW, (Instr.maReq 39 3 0 reqW), by decide, by decide, by decide, by decide, by decide, by decide, by decide, by decide, by decide, by decide, by decide, by simp⟩,
   ⟨(inFifo (array (fun m => { m with lastHoist := some hoistI, coll := { m.coll with cfg := some ccfgW, rows := [row1] } }) 0) 39 3 flushW), 39, 3, 0, flushW, (ucmd flushW), ccfgW, (Instr.maFlush 39 3 0 flushW), by decide, by decide, by decide, by decide, by decide, by decide, by decide, by decide, by decide, by decide, by simp⟩⟩

theorem wit_WeightsStreamSwapAndFeed_1 :
    (∃ s : State, ∃ d : Fin 40, ∃ a : Fin 4, ∃ h : Hoist, (s.dieOff d = false) ∧ ((s.ma d a).stopHoist = none) ∧ ((s.ma d a).waiting = some h) ∧ ((s.ma d a).streaming = none) ∧ (s.granted d (maReq a) .hoist = true) ∧ (s.rowPoisoned d h.e.w 127 = false) ∧ (s.maskPoisoned d h.e.w = false) ∧ (h.rows = [])) ∧
    (∃ s : State, ∃ d : Fin 40, ∃ a : Fin 4, ∃ h : Hoist, (s.dieOff d = false) ∧ ((s.ma d a).stopHoist = none) ∧ ((s.ma d a).waiting = some h) ∧ ((s.ma d a).streaming = none) ∧ (s.granted d (maReq a) .hoist = true) ∧ (s.rowPoisoned d h.e.w 127 = false) ∧ (s.maskPoisoned d h.e.w = false) ∧ (h.rows = [])) ∧
    (∃ s : State, ∃ d : Fin 40, ∃ a : Fin 4, ∃ h : Hoist, (s.dieOff d = false) ∧ ((s.ma d a).streaming = some h) ∧ (128 ≤ h.rows.length) ∧ ((∀ p ∈ (s.ma d a).feeding.toList ++ (s.ma d a).held.toList ++ (s.ma d a).issued, h.no ≤ p.hoist)) ∧ (max (h.start + 128 + h.paused) ((s.ma d a).lastSlot + 1) ≤ s.aclk) ∧ (h.e.quiet = false)) ∧
    (∃ s : State, ∃ d : Fin 40, ∃ a : Fin 4, ∃ p : Pass, ∃ line : Nat, ∃ at_ : Nat, (s.dieOff d = false) ∧ ((s.ma d a).stopPass = none) ∧ ((s.ma d a).feeding = some p) ∧ (p.maskAt = some at_) ∧ (line * 512 < p.slots) ∧ ((∀ l ∈ p.lines, l.1 ≠ line)) ∧ (s.granted d (maReq a) .bitmap = true) ∧ (s.poisoned (lsBase d + at_ + 64 * line) 64 = false)) ∧
    (∃ s : State, ∃ d : Fin 40, ∃ a : Fin 4, ∃ p : Pass, (s.dieOff d = false) ∧ ((s.ma d a).stopPass = none) ∧ ((s.ma d a).feeding = some p) ∧ ((s.ma d a).offered ≠ s.aclk + 1) ∧ (p.hoist ≠ 0) ∧ (p.hoist ≤ (s.ma d a).fronts) ∧ ((s.ma d a).frontAt ≤ s.aclk) ∧ ((s.throttled = true → (s.ma d a).lastFeed ≠ 0 → (s.ma d a).lastFeed < s.aclk)) ∧ ((p.pos = 0 → drainHolds (s.cd d) p = false)) ∧ ((p.maskAt = none ∨ maskBit p.lines s.aclk p.pos = some true)) ∧ (s.granted d (maReq a) .feed = true) ∧ (s.poisoned (lsBase d + (slotAddr p p.pos).1) 128 = false) ∧ ((p.scaled = true → s.poisoned (lsBase d + (slotAddr p p.pos).2) 8 = false))) ∧
    (∃ s : State, ∃ d : Fin 40, ∃ a : Fin 4, ∃ p : Pass, (s.dieOff d = false) ∧ ((s.ma d a).stopPass = none) ∧ ((s.ma d a).feeding = some p) ∧ ((s.ma d a).offered ≠ s.aclk + 1) ∧ (p.hoist ≠ 0) ∧ (p.hoist ≤ (s.ma d a).fronts) ∧ ((s.ma d a).frontAt ≤ s.aclk) ∧ ((s.throttled = true → (s.ma d a).lastFeed ≠ 0 → (s.ma d a).lastFeed < s.aclk)) ∧ ((p.pos = 0 → drainHolds (s.cd d) p = false)) ∧ (p.maskAt ≠ none) ∧ (maskBit p.lines s.aclk p.pos = some false) ∧ (p.zeroMasked = false)) :=
  ⟨⟨(granting (withMem (array (fun m => { m with waiting := some (hoist1 hoistW 0) }) 7) (lsBase 39) [1, 2, 3]) 39 3 .hoist), 39, 3, (hoist1 hoistW 0), by decide, by decide, by decide, by decide, by decide, by decide, by decide, by decide⟩,
   ⟨(granting (withMem (array (fun m => { m with waiting := some (hoist1 hoistI 0), frontAt := 9 }) 7) (lsBase 39 + 16256) [1, 2, 3]) 39 3 .hoist), 39, 3, (hoist1 hoistI 0), by decide, by decide, by decide, by decide, by decide, by decide, by decide, by decide⟩,
   ⟨(array (fun m => { m with streaming := some (hoist1 hoistI 128) }) 256), 39, 3, (hoist1 hoistI 128), by decide, by decide, by simp [hoist1], by decide, by decide, by decide⟩,
   ⟨(granting (withMem (array (fun m => { m with feeding := some { pass1 with maskAt := some 64 } }) 7) (lsBase 39 + 64) [3]) 39 3 .bitmap), 39, 3, ({ pass1 with maskAt := some 64 }), 0, 64, by decide, by decide, by decide, by decide, by decide, by decide, by decide, by decide⟩,
   ⟨(granting (withMem (array (fun m => { m with feeding := some pass1, fronts := 1, active := { set1 with data := [] } }) 7) (lsBase 39 + 128) [3]) 39 3 .feed), 39, 3, pass1, by decide, by decide, by decide, by decide, by decide, by decide, by decide, by decide, by decide, by decide, by decide, by decide, by decide⟩,
   ⟨(array (fun m => { m with feeding := some { pass1 with maskAt := some 0, lines := [(0, 2, [2])] }, fronts := 1 }) 7), 39, 3, ({ pass1 with maskAt := some 0, lines := [(0, 2, [2])] }), by decide, by decide, by decide, by decide, by decide, by decide, by decide, by decide, by decide, by decide, by decide, by decide⟩⟩

theorem wit_WeightsStreamSwapAndFeed_2 :
    ∃ s : State, ∃ d : Fin 40, ∃ a : Fin 4, ∃ p : Pass, (s.dieOff d = false) ∧ ((s.ma d a).stopPass = none) ∧ ((s.ma d a).feeding = some p) ∧ ((s.ma d a).offered ≠ s.aclk + 1) ∧ (p.hoist ≠ 0) ∧ (p.hoist ≤ (s.ma d a).fronts) ∧ ((s.ma d a).frontAt ≤ s.aclk) ∧ ((s.throttled = true → (s.ma d a).lastFeed ≠ 0 → (s.ma d a).lastFeed < s.aclk)) ∧ ((p.pos = 0 → drainHolds (s.cd d) p = false)) ∧ ((p.maskAt = none ∨ maskBit p.lines s.aclk p.pos = some true)) ∧ (s.granted d (maReq a) .feed = false) :=
  ⟨(array (fun m => { m with feeding := some pass1, fronts := 1 }) 7), 39, 3, pass1, by decide, by decide, by decide, by decide, by decide, by decide, by decide, by decide, by decide, by decide, by decide⟩

theorem wit_OutputsAreWrittenAndPassesComplete :
    (∃ s : State, ∃ d : Fin 40, ∃ a : Fin 4, ∃ j : Fin 128, ∃ r : FedRow, ∃ v : Int, ∃ x : Nat, (s.dieOff d = false) ∧ ((s.ma d a).nextRow j = some r) ∧ ((s.ma d a).rows.find? (fun y => y.same r) = some r) ∧ (r.fed + 128 + j.val ≤ s.aclk) ∧ (r.fed + 126 + r.firstOf j ≤ s.aclk) ∧ ((s.ma d a).earlierWrite r j = false) ∧ (r.fmt = 3) ∧ (r.masked = false) ∧ (r.stagger = false) ∧ ((s.ma d a).bad.contains (r.setNo, j.val) = false) ∧ (r.set.diag = false) ∧ (r.set.fmt = 3) ∧ ((r.acc = true → s.poisoned (r.dest + 64 * (j.val / 16)) 64 = false)) ∧ (v = (if r.acc then signedN 32 (s.destOf (s.ma d a) r j) else 0) + ((List.range r.set.depth).map (fun k => signedN 8 (r.data.getD k 0).toNat * signedN 8 (r.set.data.getD (128 * k + j.val) 0).toNat)).sum) ∧ (x = unsignedN 32 (max (-2 ^ 31) (min (2 ^ 31 - 1) v)))) ∧
    (∃ s : State, ∃ d : Fin 40, ∃ a : Fin 4, ∃ j : Fin 128, ∃ r : FedRow, ∃ v : Int, ∃ x : Nat, (s.dieOff d = false) ∧ ((s.ma d a).nextRow j = some r) ∧ ((s.ma d a).rows.find? (fun y => y.same r) = some r) ∧ (r.fed + 128 + j.val ≤ s.aclk) ∧ (r.fed + 126 + r.firstOf j ≤ s.aclk) ∧ ((s.ma d a).earlierWrite r j = false) ∧ (r.fmt = 3) ∧ (r.masked = false) ∧ (r.stagger = false) ∧ ((s.ma d a).bad.contains (r.setNo, j.val) = false) ∧ (r.set.diag = false) ∧ (r.set.fmt = 3) ∧ ((r.acc = true → s.poisoned (r.dest + 64 * (j.val / 16)) 64 = false)) ∧ (v = (if r.acc then signedN 32 (s.destOf (s.ma d a) r j) else 0) + ((List.range r.set.depth).map (fun k => signedN 8 (r.data.getD k 0).toNat * signedN 8 (r.set.data.getD (128 * k + j.val) 0).toNat)).sum) ∧ (x = unsignedN 32 (max (-2 ^ 31) (min (2 ^ 31 - 1) v)))) ∧
    (∃ s : State, ∃ d : Fin 40, ∃ a : Fin 4, ∃ p : Pass, (s.dieOff d = false) ∧ ((s.ma d a).finished s.aclk false = some p) ∧ (p.e.quiet = false)) ∧
    (∃ s : State, ∃ d : Fin 40, ∃ a : Fin 4, ∃ p : Pass, ∃ c : Nat, (s.dieOff d = false) ∧ ((s.ma d a).finished s.aclk true = some p) ∧ (p.batch = some c)) ∧
    (∃ s : State, ∃ d : Fin 40, ∃ a : Fin 4, ∃ cfg : Cmd, (s.dieOff d = false) ∧ ((s.ma d a).coll.cfg = some cfg) ∧ ((s.ma d a).coll.rows ≠ []) ∧ ((s.ma d a).coll.opened + cbits cfg 39 20 ≤ s.aclk)) ∧
    (∃ s : State, ∃ d : Fin 40, ∃ a : Fin 4, (s.dieOff d = false)) :=
  ⟨⟨(withMem (array (fun m => { m with rows := [fed1 true] }) 510) (lsBase 39 + 4096 + 508) [0xFF, 0xFF, 0xFF, 0x7F]), 39, 3, 127, (fed1 true), (2 ^ 31 - 1 + 128 * 128), (2 ^ 31 - 1), by decide, by decide, by decide, by decide, by decide, by decide, by decide, by decide, by decide, by decide, by decide, by decide, by decide, by decide, by decide⟩,
   ⟨(withMem (array (fun m => { m with rows := [{ fed1 false with todo := BitVec.ofNat 128 (2 ^ 127 + 2 ^ 126), outs := [] }] }) 510) (lsBase 39 + 4096 + 508) [0xFF, 0xFF, 0xFF, 0x7F]), 39, 3, 127, ({ fed1 false with todo := BitVec.ofNat 128 (2 ^ 127 + 2 ^ 126), outs := [] }), (128 * 128), 16384, by decide, by decide, by decide, by decide, by decide, by decide, by decide, by decide, by decide, by decide, by decide, by decide, by decide, by decide, by decide⟩,
   ⟨(array (fun m => { m with draining := [pass1] }) 512), 39, 3, pass1, by decide, by decide, by decide⟩,
   ⟨(array (fun m => { m with draining := [{ pass1 with batch := some 9, rows := [row1] }] }) 512), 39, 3, ({ pass1 with batch := some 9, rows := [row1] }), 9, by decide, by decide, by decide⟩,
   ⟨(array (fun m => { m with coll := { m.coll with cfg := some ccfgW, rows := [row1] } }) 10), 39, 3, ccfgW, by decide, by decide, by decide, by decide⟩,
   ⟨(withRegs base [(R.MA_PERF_MAC_LO 39 3, 5)]), 39, 3, by decide⟩⟩
/-- A vector-engine word of layout E: opcode, elements, SRCF, DSTF, OPA, OPB, OPC, OPD, SIG 2. -/
def veWord (op n src dst a b c d : Nat) : Cmd :=
  word [(op, 0), (4, 8), (2, 12), (n - 1, 16), (src, 29), (dst, 33), (a, 37), (b, 58), (c, 79), (d, 100)]
/-- Operand fields: element k of tile register t, a stream, no operand, a mask register. -/
def oTile (t k : Nat) : Nat := t + 16 * k
def oStream (a : Nat) : Nat := 2 ^ 20 + a / 64
def oNone : Nat := 2 * 2 ^ 18
def oMask (v : Nat) : Nat := 3 * 2 ^ 18 + v
/-- Die 39 with a vector-engine instruction at its head, tile elements and mask registers set. -/
def veState (w : Cmd) (tiles : Sparse W32) (masks : Vector (BitVec 8192) 8) : State :=
  inFifo (base.setVe 39 { base.ve 39 with tiles := tiles, masks := masks }) 39 4 w
def masks0 : Vector (BitVec 8192) 8 := (Vector.replicate 8 0).set 7 5
def addW : Cmd := veWord 0x10 2 3 3 (oTile 15 4094) (oTile 0 0) oNone (oTile 1 0)
def loadW : Cmd := word [(0x40, 0), (4, 8), (1, 16), (1, 22), (1, 28), (1, 48), (15, 64), (62, 68), (62, 74), (3, 80)]
def transW : Cmd := word [(0x42, 0), (4, 8), (15, 16), (15, 20)]
def setsW : Cmd := word [(0x43, 0), (4, 8), (2, 12), (15, 16), (0xFFFFFFFF, 20)]
def getfW : Cmd := word [(0x47, 0), (4, 8), (15, 16), (1, 20)]
def tiles0 : Sparse W32 := [(0, 0x7FFFFFFF), (1, 5), (4095, 7), (65534, 1), (65535, 0xFFFFFFFF)]

theorem wit_VectorInstructionsCompleteWithTheirFrame :
    ∃ s : State, ∃ d : Fin 40, ∃ q : Fin 4, ∃ w : Cmd, ∃ bad : List VeBad, ∃ p : ((Fin 40 → Fin 4 → Cmd → List VeBad → Instr) × Nat), (VeReady s d q w bad) ∧ (p ∈ ([(Instr.vadd, 0x10), (Instr.vsub, 0x11), (Instr.vmul, 0x12), (Instr.vfma, 0x13), (Instr.vfnma, 0x14), (Instr.vmin, 0x15), (Instr.vmax, 0x16), (Instr.vsel, 0x17), (Instr.vcmpeq, 0x18), (Instr.vcmplt, 0x19), (Instr.vcmple, 0x1A), (Instr.vcmpun, 0x1B), (Instr.vsplit, 0x1C), (Instr.vscale, 0x1D), (Instr.vcvt, 0x1E), (Instr.vrcpe, 0x20), (Instr.vrsqe, 0x21), (Instr.vexp2e, 0x22), (Instr.vrsum, 0x30), (Instr.vrprod, 0x31), (Instr.vrmax, 0x32), (Instr.vrmin, 0x33), (Instr.vrmean, 0x34), (Instr.vrimax, 0x35), (Instr.vrimin, 0x36), (Instr.vtload, 0x40), (Instr.vtstore, 0x41), (Instr.vttrans, 0x42), (Instr.vsets, 0x43), (Instr.vmload, 0x44), (Instr.vmstore, 0x45), (Instr.vmop, 0x46), (Instr.vgetf, 0x47)] : List ((Fin 40 → Fin 4 → Cmd → List VeBad → Instr) × Nat))) ∧ (isUnit w 4 p.2 = true) :=
  ⟨(veState addW tiles0 masks0), 39, 0, addW, ([]), ((Instr.vadd, 0x10)), ⟨⟨ucmd (addW), by decide, by decide, by decide, by decide⟩, by decide, by decide, by decide, by decide, by decide⟩, by simp, by decide⟩

theorem wit_TileArithmeticIsExactOrRoundedOnce :
    (∃ s : State, ∃ d : Fin 40, ∃ q : Fin 4, ∃ w : Cmd, ∃ i : Nat, ∃ j : Nat, ∃ l : Nat, ∃ m : Nat, ∃ p : ((Fin 40 → Fin 4 → Cmd → List VeBad → Instr) × Nat × (Int → Int → Int → Int)), (VeReady s d q w []) ∧ (eMasken w = false) ∧ (eSat5 w = false) ∧ (eA w = .tile i) ∧ (eB w = .tile j) ∧ (eD w = .tile m) ∧ (eSrc w = 3) ∧ (eDst w = 3) ∧ (eC w = .tile l ∨ eC w = .none) ∧ (p ∈ ([(Instr.vadd, 0x10, fun a b _ => a + b), (Instr.vsub, 0x11, fun a b _ => a - b), (Instr.vmul, 0x12, fun a b _ => a * b), (Instr.vfma, 0x13, fun a b c => a * b + c), (Instr.vfnma, 0x14, fun a b c => c - a * b), (Instr.vmin, 0x15, fun a b _ => min a b), (Instr.vmax, 0x16, fun a b _ => max a b)] : List ((Fin 40 → Fin 4 → Cmd → List VeBad → Instr) × Nat × (Int → Int → Int → Int)))) ∧ (isUnit w 4 p.2.1 = true)) ∧
    (∃ s : State, ∃ d : Fin 40, ∃ q : Fin 4, ∃ w : Cmd, ∃ i : Nat, ∃ j : Nat, ∃ l : Nat, ∃ m : Nat, ∃ p : ((Fin 40 → Fin 4 → Cmd → List VeBad → Instr) × Nat × (Nat → Nat → Nat → Nat × Flags)), (VeReady s d q w []) ∧ (eMasken w = false) ∧ (eSat5 w = false) ∧ (eA w = .tile i) ∧ (eB w = .tile j) ∧ (eD w = .tile m) ∧ (eSrc w = 0) ∧ (eDst w = 0) ∧ (eC w = .tile l ∨ eC w = .none) ∧ (p ∈ ([(Instr.vadd, 0x10, fun a b _ => f32Add a b), (Instr.vsub, 0x11, fun a b _ => f32Sub a b), (Instr.vmul, 0x12, fun a b _ => f32Mul a b), (Instr.vfma, 0x13, fun a b c => f32Fma a b c)] : List ((Fin 40 → Fin 4 → Cmd → List VeBad → Instr) × Nat × (Nat → Nat → Nat → Nat × Flags)))) ∧ (isUnit w 4 p.2.1 = true)) ∧
    (∃ s : State, ∃ d : Fin 40, ∃ q : Fin 4, ∃ w : Cmd, ∃ i : Nat, ∃ j : Nat, ∃ l : Nat, ∃ m : Nat, ∃ v, (VeReady s d q w []) ∧ (eMasken w = false) ∧ (eSat5 w = false) ∧ (eA w = .tile i) ∧ (eB w = .tile j) ∧ (eD w = .tile m) ∧ (eSrc w = 3) ∧ (eDst w = 3) ∧ (eC w = .mask v) ∧ (isUnit w 4 0x17 = true)) :=
  ⟨⟨(veState addW tiles0 masks0), 39, 0, addW, (15 * 4096 + 4094), 0, 0, 4096, ((Instr.vadd, 0x10, fun a b _ => a + b)), ⟨⟨ucmd (addW), by decide, by decide, by decide, by decide⟩, by decide, by decide, by decide, by decide, by decide⟩, by decide, by decide, by decide, by decide, by decide, by decide, by decide, by decide, by simp, by decide⟩,
   ⟨(veState (veWord 0x13 2 0 0 (oTile 15 4094) (oTile 0 0) (oTile 0 0) (oTile 1 0)) [(0, 0x3F800000), (65534, 0x40000000)] masks0), 39, 0, (veWord 0x13 2 0 0 (oTile 15 4094) (oTile 0 0) (oTile 0 0) (oTile 1 0)), (15 * 4096 + 4094), 0, 0, 4096, ((Instr.vfma, 0x13, fun a b c => f32Fma a b c)), ⟨⟨ucmd (veWord 0x13 2 0 0 (oTile 15 4094) (oTile 0 0) (oTile 0 0) (oTile 1 0)), by decide, by decide, by decide, by decide⟩, by decide, by decide, by decide, by decide, by decide⟩, by decide, by decide, by decide, by decide, by decide, by decide, by decide, by decide, by simp, by decide⟩,
   ⟨(veState (veWord 0x17 3 3 3 (oTile 15 4093) (oTile 0 0) (oMask 7) (oTile 1 0)) tiles0 masks0), 39, 0, (veWord 0x17 3 3 3 (oTile 15 4093) (oTile 0 0) (oMask 7) (oTile 1 0)), (15 * 4096 + 4093), 0, 0, 4096, 7, ⟨⟨ucmd (veWord 0x17 3 3 3 (oTile 15 4093) (oTile 0 0) (oMask 7) (oTile 1 0)), by decide, by decide, by decide, by decide⟩, by decide, by decide, by decide, by decide, by decide⟩, by decide, by decide, by decide, by decide, by decide, by decide, by decide, by decide, by decide⟩⟩

theorem wit_ComparisonsAndMaskOperationsSetBits :
    (∃ s : State, ∃ d : Fin 40, ∃ q : Fin 4, ∃ w : Cmd, ∃ v : Nat, ∃ i : Nat, ∃ j : Nat, ∃ p : ((Fin 40 → Fin 4 → Cmd → List VeBad → Instr) × Nat × (Int → Int → Bool)), (VeReady s d q w []) ∧ (v < 8) ∧ (eMasken w = false) ∧ (eSrc w = 3) ∧ (eA w = .tile i) ∧ (eB w = .tile j) ∧ (eD w = .mask v) ∧ (p ∈ ([(Instr.vcmpeq, 0x18, fun a b => decide (a = b)), (Instr.vcmplt, 0x19, fun a b => decide (a < b)), (Instr.vcmple, 0x1A, fun a b => decide (a ≤ b)), (Instr.vcmpun, 0x1B, fun _ _ => false)] : List ((Fin 40 → Fin 4 → Cmd → List VeBad → Instr) × Nat × (Int → Int → Bool)))) ∧ (isUnit w 4 p.2.1 = true)) ∧
    (∃ s : State, ∃ d : Fin 40, ∃ q : Fin 4, ∃ w : Cmd, ∃ v : Nat, ∃ a : Nat, (VeReady s d q w []) ∧ (v < 8) ∧ (eA w = .stream a) ∧ (eD w = .mask v) ∧ (isUnit w 4 0x44 = true)) ∧
    (∃ s : State, ∃ d : Fin 40, ∃ q : Fin 4, ∃ w : Cmd, ∃ v : Nat, ∃ x : Nat, ∃ y : Nat, ∃ p : (Nat × (Bool → Bool → Bool)), (VeReady s d q w []) ∧ (v < 8) ∧ (x < 8) ∧ (y < 8) ∧ (eA w = .mask x) ∧ (eB w = .mask y) ∧ (eD w = .mask v) ∧ (isUnit w 4 0x46 = true) ∧ (p ∈ ([(0, and), (1, or), (3, xor)] : List (Nat × (Bool → Bool → Bool)))) ∧ (eSrc w = p.1)) ∧
    (∃ s : State, ∃ d : Fin 40, ∃ q : Fin 4, ∃ w : Cmd, ∃ v : Nat, ∃ a : Nat, (VeReady s d q w []) ∧ (v < 8) ∧ (eA w = .mask v) ∧ (eD w = .stream a) ∧ (isUnit w 4 0x45 = true)) :=
  ⟨⟨(veState (veWord 0x19 2 3 0 (oTile 15 4094) (oTile 0 0) oNone (oMask 7)) tiles0 masks0), 39, 0, (veWord 0x19 2 3 0 (oTile 15 4094) (oTile 0 0) oNone (oMask 7)), 7, (15 * 4096 + 4094), 0, ((Instr.vcmplt, 0x19, fun a b => decide (a < b))), ⟨⟨ucmd (veWord 0x19 2 3 0 (oTile 15 4094) (oTile 0 0) oNone (oMask 7)), by decide, by decide, by decide, by decide⟩, by decide, by decide, by decide, by decide, by decide⟩, by decide, by decide, by decide, by decide, by decide, by decide, by simp, by decide⟩,
   ⟨(withMem (veState (veWord 0x44 9 0 0 (oStream 64) oNone oNone (oMask 7)) [] masks0) (lsBase 39 + 64) [0x81, 0xFF]), 39, 0, (veWord 0x44 9 0 0 (oStream 64) oNone oNone (oMask 7)), 7, 64, ⟨⟨ucmd (veWord 0x44 9 0 0 (oStream 64) oNone oNone (oMask 7)), by decide, by decide, by decide, by decide⟩, by decide, by decide, by decide, by decide, by decide⟩, by decide, by decide, by decide, by decide⟩,
   ⟨(veState (veWord 0x46 3 3 0 (oMask 7) (oMask 0) oNone (oMask 7)) [] masks0), 39, 0, (veWord 0x46 3 3 0 (oMask 7) (oMask 0) oNone (oMask 7)), 7, 7, 0, ((3, xor)), ⟨⟨ucmd (veWord 0x46 3 3 0 (oMask 7) (oMask 0) oNone (oMask 7)), by decide, by decide, by decide, by decide⟩, by decide, by decide, by decide, by decide, by decide⟩, by decide, by decide, by decide, by decide, by decide, by decide, by decide, by decide, by decide⟩,
   ⟨(veState (veWord 0x45 9 0 0 (oMask 7) oNone oNone (oStream 64)) [] masks0), 39, 0, (veWord 0x45 9 0 0 (oMask 7) oNone oNone (oStream 64)), 7, 64, ⟨⟨ucmd (veWord 0x45 9 0 0 (oMask 7) oNone oNone (oStream 64)), by decide, by decide, by decide, by decide⟩, by decide, by decide, by decide, by decide, by decide⟩, by decide, by decide, by decide, by decide⟩⟩

theorem wit_MovesBetweenTilesScalarsAndStore :
    (∃ s : State, ∃ d : Fin 40, ∃ q : Fin 4, ∃ w : Cmd, (VeReady s d q w []) ∧ (isUnit w 4 0x40 = true) ∧ (cbits w 83 80 = 3)) ∧
    (∃ s : State, ∃ d : Fin 40, ∃ q : Fin 4, ∃ w : Cmd, (VeReady s d q w []) ∧ (isUnit w 4 0x42 = true)) ∧
    (∃ s : State, ∃ d : Fin 40, ∃ q : Fin 4, ∃ w : Cmd, (VeReady s d q w []) ∧ (isUnit w 4 0x43 = true)) ∧
    (∃ s : State, ∃ d : Fin 40, ∃ q : Fin 4, ∃ w : Cmd, (VeReady s d q w []) ∧ (isUnit w 4 0x47 = true)) ∧
    (∃ s : State, ∃ d : Fin 40, ∃ n : Nat, ∃ e : UCmd, (VeReady s d e.q e.w []) ∧ (s.head? d veUnit = some e) ∧ (isUnit e.w 4 0x43 = true) ∧ (s.veStill d = false)) ∧
    (∃ s : State, ∃ d : Fin 40, (s.dieOff d = false)) :=
  ⟨⟨(withMem (veState loadW [] masks0) (lsBase 39 + 64) [1, 2, 3, 4, 5]), 39, 0, loadW, ⟨⟨ucmd (loadW), by decide, by decide, by decide, by decide⟩, by decide, by decide, by decide, by decide, by decide⟩, by decide, by decide⟩,
   ⟨(veState transW tiles0 masks0), 39, 0, transW, ⟨⟨ucmd (transW), by decide, by decide, by decide, by decide⟩, by decide, by decide, by decide, by decide, by decide⟩, by decide⟩,
   ⟨(veState setsW tiles0 masks0), 39, 0, setsW, ⟨⟨ucmd (setsW), by decide, by decide, by decide, by decide⟩, by decide, by decide, by decide, by decide, by decide⟩, by decide⟩,
   ⟨(withRegs (veState getfW tiles0 masks0) [(R.VE_STATUS 39, 0x3F00)]), 39, 0, getfW, ⟨⟨ucmd (getfW), by decide, by decide, by decide, by decide⟩, by decide, by decide, by decide, by decide, by decide⟩, by decide⟩,
   ⟨(veState setsW tiles0 masks0), 39, 5, (ucmd setsW), ⟨⟨ucmd setsW, by decide, by decide, by decide, by decide⟩, by decide, by decide, by decide, by decide, by decide⟩, by decide, by decide, by decide⟩,
   ⟨base, 39, by decide⟩⟩
def waitW (n : Nat) : Cmd := word [(0x60, 0), (6, 8), (3, 12), (255, 16), (n, 24)]
def signalW : Cmd := word [(0x61, 0), (6, 8), (3, 12), (255, 16), (0xFFFF, 24)]
def baseW : Cmd := word [(0x64, 0), (6, 8), (3, 12), (7, 16), (2 ^ 42 - 1, 19)]
def callW : Cmd := word [(0x65, 0), (6, 8), ((lsBase 39 + 8192) / 16, 16), (0xFFFF, 63)]
def haltW : Cmd := word [(0x66, 0), (6, 8), (3, 12)]
def pennantW (op n : Nat) : Cmd := word [(op, 0), (6, 8), (3, 12), ((lsBase 39 + 64) / 8, 16), (n, 64)]
def vsetsW : Cmd := word [(0x43, 0), (4, 8), (2, 12), (15, 16), (5, 20)]
/-- SYNC_PSIGNAL of a pennant in DRAM. -/
def psigD : Cmd := word [(0x63, 0), (6, 8), (3, 12), (0x3FFFF00 / 8, 16), (9, 64)]
/-- Die 39 with a unit stopped by a fault of queue 3. -/
def stoppedBy (u : Fin 8) (seq : Nat) : State :=
  let s := (queued 5 haltW).setQue 39 3 { (queued 5 haltW).que 39 3 with fcode := 7, funit := [(u, seq)] }
  s.setCd 39 { s.cd 39 with stopped := (s.cd 39).stopped.set u true }
/-- Die 39 with pennant 5 in its store. -/
def pennant5 (s : State) : State := withMem s (lsBase 39 + 64) [5]

theorem wit_SyncCommandsExecuteAtTheHead :
    (∃ s : State, ∃ d : Fin 40, ∃ q : Fin 4, ∃ w : Cmd, ∃ a : Nat, ∃ idx : Nat, ∃ depth : Nat, (AtHead s d q w a idx depth) ∧ (isUnit w 6 0x60 = true) ∧ (s.waitMet d w = true)) ∧
    (∃ s : State, ∃ d : Fin 40, ∃ q : Fin 4, ∃ w : Cmd, ∃ a : Nat, ∃ idx : Nat, ∃ depth : Nat, (AtHead s d q w a idx depth) ∧ (isUnit w 6 0x60 = true) ∧ (s.waitMet d w = false)) ∧
    (∃ s : State, ∃ d : Fin 40, ∃ q : Fin 4, ∃ w : Cmd, ∃ a : Nat, ∃ idx : Nat, ∃ depth : Nat, (AtHead s d q w a idx depth) ∧ (isUnit w 6 0x61 = true)) ∧
    (∃ s : State, ∃ d : Fin 40, ∃ q : Fin 4, ∃ w : Cmd, ∃ a : Nat, ∃ idx : Nat, ∃ depth : Nat, (AtHead s d q w a idx depth) ∧ (isUnit w 6 0x64 = true)) ∧
    (∃ s : State, ∃ d : Fin 40, ∃ q : Fin 4, ∃ w : Cmd, ∃ a : Nat, ∃ idx : Nat, ∃ depth : Nat, (AtHead s d q w a idx depth) ∧ (isUnit w 6 0x65 = true)) ∧
    (∃ s : State, ∃ d : Fin 40, ∃ q : Fin 4, ∃ w : Cmd, ∃ a : Nat, ∃ idx : Nat, ∃ depth : Nat, (AtHead s d q w a idx depth) ∧ (isUnit w 6 0x66 = true)) :=
  ⟨⟨(queued 1 (waitW 0)), 39, 3, (waitW 0), ringAt, 0xFFFF, 0, by constructor <;> decide, by decide, by decide⟩,
   ⟨(queued 1 (waitW 1)), 39, 3, (waitW 1), ringAt, 0xFFFF, 0, by constructor <;> decide, by decide, by decide⟩,
   ⟨(queued 1 signalW), 39, 3, signalW, ringAt, 0xFFFF, 0, by constructor <;> decide, by decide⟩,
   ⟨(queued 1 baseW), 39, 3, baseW, ringAt, 0xFFFF, 0, by constructor <;> decide, by decide⟩,
   ⟨(queued 1 callW), 39, 3, callW, ringAt, 0xFFFF, 0, by constructor <;> decide, by decide⟩,
   ⟨(queued 1 haltW), 39, 3, haltW, ringAt, 0xFFFF, 0, by constructor <;> decide, by decide⟩⟩

theorem wit_WatchdogBarksOncePerWait :
    (∃ s : State, ∃ d : Fin 40, ∃ q : Fin 4, ∃ n : Nat, (s.get (R.SEQ_CFG d) F.SEQ_CFG_WDOG = n) ∧ (s.dieOff d = false) ∧ ((s.qState d q = 2 ∨ s.qState d q = 3)) ∧ (n ≠ 0) ∧ ((s.que d q).since + n * 1024 ≤ s.aclk) ∧ ((s.que d q).barked = false)) ∧
    (∃ s : State, ∃ d : Fin 40, ∃ q : Fin 4, ∃ n : Nat, (s.get (R.SEQ_CFG d) F.SEQ_CFG_WDOG = n) ∧ (s.dieOff d = false) ∧ ((s.qState d q = 2 ∨ s.qState d q = 3)) ∧ (n = 0)) :=
  ⟨⟨({ withRegs (waits (queued 2 (waitW 1)) (waitW 1)) [(R.SEQ_CFG 39, 0x100)] with now := 2048 }), 39, 3, 1, by decide, by decide, by decide, by decide, by decide, by decide⟩,
   ⟨(waits (queued 3 (waitW 1)) (waitW 1)), 39, 3, 0, by decide, by decide, by decide, by decide⟩⟩

theorem wit_PennantsAreAddedToAndWaitedFor :
    (∃ s : State, ∃ d : Fin 40, ∃ q : Fin 4, ∃ w : Cmd, ∃ a : Nat, ∃ idx : Nat, ∃ depth : Nat, ∃ p : Nat, ∃ n : Nat, ∃ off : Nat, (s.pennantAt d q w = p) ∧ (AtHead s d q w a idx depth) ∧ (isUnit w 6 0x63 = true) ∧ (s.check (asReq d) true p = .ok) ∧ (inDram p = false) ∧ (s.poisoned p 8 = false) ∧ (s.placeOf p = .cd n off) ∧ ((s.cd (fin40 n)).coversWindow off 8 = false)) ∧
    (∃ s : State, ∃ d : Fin 40, ∃ q : Fin 4, ∃ w : Cmd, ∃ a : Nat, ∃ idx : Nat, ∃ depth : Nat, ∃ p : Nat, ∃ m : Nat, ∃ c : Nat, ∃ b : Nat, (s.pennantAt d q w = p) ∧ (AtHead s d q w a idx depth) ∧ (isUnit w 6 0x63 = true) ∧ (s.check (asReq d) true p = .ok) ∧ (inDram p = true) ∧ (s.channelOf p = some (m, c, b))) ∧
    (∃ s : State, ∃ d : Fin 40, ∃ q : Fin 4, ∃ w : Cmd, ∃ a : Nat, ∃ idx : Nat, ∃ depth : Nat, ∃ p : Nat, (s.pennantAt d q w = p) ∧ (AtHead s d q w a idx depth) ∧ (isUnit w 6 0x62 = true) ∧ (s.check (asReq d) false p = .ok) ∧ (s.badRead p 8 = false)) ∧
    (∃ s : State, ∃ d : Fin 40, ∃ q : Fin 4, ∃ w : Cmd, ∃ a : Nat, ∃ idx : Nat, ∃ depth : Nat, ∃ p : Nat, (s.pennantAt d q w = p) ∧ (AtHead s d q w a idx depth) ∧ (isUnit w 6 0x62 = true) ∧ (s.check (asReq d) false p = .ok) ∧ (s.badRead p 8 = false)) ∧
    (∃ s : State, ∃ d : Fin 40, ∃ q : Fin 4, ∃ w : Cmd, ∃ a : Nat, ∃ idx : Nat, ∃ depth : Nat, ∃ p : Nat, (s.pennantAt d q w = p) ∧ (s.dieOff d = false) ∧ ((s.que d q).wait = some w) ∧ (s.qState d q = 3) ∧ (s.check (asReq d) false p = .ok) ∧ (s.badRead p 8 = false) ∧ ((ownPennant d p = true ∨ (s.que d q).polled + s.pollCycles d ≤ s.aclk))) ∧
    (∃ s : State, ∃ d : Fin 40, ∃ q : Fin 4, ∃ w : Cmd, ∃ a : Nat, ∃ idx : Nat, ∃ depth : Nat, ∃ p : Nat, (s.pennantAt d q w = p) ∧ (s.dieOff d = false) ∧ ((s.que d q).wait = some w) ∧ (s.qState d q = 3) ∧ (s.check (asReq d) false p = .ok) ∧ (s.badRead p 8 = false) ∧ ((ownPennant d p = true ∨ (s.que d q).polled + s.pollCycles d ≤ s.aclk))) :=
  ⟨⟨(pennant5 (queued 1 (pennantW 0x63 0xFFFF))), 39, 3, (pennantW 0x63 0xFFFF), ringAt, 0xFFFF, 0, (lsBase 39 + 64), 39, 64, by decide, by constructor <;> decide, by decide, by decide, by decide, by decide, by decide, by decide⟩,
   ⟨(withRegs (queued 1 psigD) [(R.ARCH_CANTON_SIZE 0, 64)]), 39, 3, psigD, ringAt, 0xFFFF, 0, 0x3FFFF00, 15, 0, 4194048, by decide, by constructor <;> decide, by decide, by decide, by decide, by decide⟩,
   ⟨(pennant5 (queued 1 (pennantW 0x62 5))), 39, 3, (pennantW 0x62 5), ringAt, 0xFFFF, 0, (lsBase 39 + 64), by decide, by constructor <;> decide, by decide, by decide, by decide⟩,
   ⟨(pennant5 (queued 1 (pennantW 0x62 6))), 39, 3, (pennantW 0x62 6), ringAt, 0xFFFF, 0, (lsBase 39 + 64), by decide, by constructor <;> decide, by decide, by decide, by decide⟩,
   ⟨(waits (pennant5 (queued 3 (pennantW 0x62 5))) (pennantW 0x62 5)), 39, 3, (pennantW 0x62 5), 0, 0, 0, (lsBase 39 + 64), by decide, by decide, by decide, by decide, by decide, by decide, by decide⟩,
   ⟨(waits (pennant5 (queued 3 (pennantW 0x62 6))) (pennantW 0x62 6)), 39, 3, (pennantW 0x62 6), 0, 0, 0, (lsBase 39 + 64), by decide, by decide, by decide, by decide, by decide, by decide, by decide⟩⟩

theorem wit_CountersSumTheirIncrements :
    (∃ s : State, ∃ d : Fin 40, ∃ c : Fin 256, ∃ n : BitVec 16, (s.dieOff d = false)) ∧
    (∃ s : State, ∃ d : Fin 40, ∃ c : Fin 256, (s.dieOff d = false) ∧ ((s.cd d).psig = [])) ∧
    (∃ s : State, ∃ d : Fin 40, ∃ q : Fin 4, ∃ w : Cmd, (s.dieOff d = false) ∧ ((s.que d q).wait = some w) ∧ (s.qState d q = 2) ∧ ((s.ctr d (cbits w 23 16) + 2 ^ 16 - cbits w 39 24) % 2 ^ 16 < 2 ^ 15)) ∧
    (∃ s : State, ∃ d : Fin 40, ∃ c : Fin 256, ∃ v : BitVec 16, (s.dieOff d = false)) :=
  ⟨⟨base, 39, 255, 7, by decide⟩,
   ⟨(base.setCd 39 { base.cd 39 with due := [(0, 255, 3), (1, 255, 4), (0, 7, 1)] }), 39, 255, by decide, by decide⟩,
   ⟨(waits (queued 2 (waitW 0)) (waitW 0)), 39, 3, (waitW 0), by decide, by decide, by decide, by decide⟩,
   ⟨(base.setCd 39 { base.cd 39 with due := [(5, 255, 3), (6, 255, 4), (5, 7, 1), (4, 255, 9)], came := [(5, 255, 2)] } |> fun s => { s with now := 10 }), 39, 255, 0xFFFF, by decide⟩⟩

theorem wit_QueuesDispatchInOrder_1 :
    (∃ s : State, ∃ d : Fin 40, ∃ q : Fin 4, ∃ tail : BitVec 16, (s.dieOff d = false) ∧ ((tail.toNat + 2 ^ 16 - s.qHead d q) % 2 ^ 16 ≤ s.qSize d q)) ∧
    (∃ s : State, ∃ d : Fin 40, ∃ q : Fin 4, ∃ tail : BitVec 16, ∃ p : AdapterProgram, ∃ w : Cmd, ∃ a : Nat, ∃ n : Nat, ∃ off : Nat, (s.dieOff d = false) ∧ (s.adapterCmds p = [w]) ∧ ((tail.toNat + 1 + 2 ^ 16 - s.qHead d q) % 2 ^ 16 ≤ s.qSize d q) ∧ (a = s.qBase d q + 16 * (tail.toNat % s.qSize d q)) ∧ (s.placeOf a = .cd n off) ∧ ((s.cd (fin40 n)).coversWindow off 16 = false)) ∧
    (∃ s : State, ∃ d : Fin 40, ∃ q : Fin 4, ∃ w : Cmd, ∃ a : Nat, ∃ idx : Nat, ∃ depth : Nat, ∃ u : Fin 8, (AtHead s d q w a idx depth) ∧ (s.check (asReq d) false a = .ok) ∧ (s.badRead a 16 = false) ∧ (unitOf w = u.val) ∧ (u ≠ 6) ∧ (((s.cd d).fifo u).length < 16) ∧ (s.yields d q u = false)) ∧
    (∃ s : State, ∃ d : Fin 40, ∃ q : Fin 4, (s.dieOff d = false) ∧ ((s.qState d q = 0 ∨ s.qState d q = 4 ∨ s.qState d q = 6)) ∧ (s.takesWork (s.cdCanton d) = true)) ∧
    (∃ s : State, ∃ d : Fin 40, ∃ q : Fin 4, (s.dieOff d = false) ∧ ((s.qState d q = 1 ∨ s.qState d q = 2 ∨ s.qState d q = 3))) ∧
    (∃ s : State, ∃ d : Fin 40, ∃ q : Fin 4, (s.dieOff d = false) ∧ (s.qState d q = 5) ∧ ((s.que d q).fcode ≠ 8) ∧ ((s.que d q).funit = []) ∧ ((s.que d q).back = [])) :=
  ⟨⟨(queued 1 haltW), 39, 3, 15, by decide, by decide⟩,
   ⟨(withMem (queued 1 haltW) (lsBase 39) ([1, 0, 0, 0, 0, 0, 0, 0] ++ leBytes 8 (2 ^ 44))), 39, 3, 0, (⟨BitVec.ofNat 48 (lsBase 39), [(4096, [haltW])]⟩), haltW, (lsBase 39 + 4096), 39, 4096, by decide, by decide, by decide, by decide, by decide, by decide⟩,
   ⟨(queued 1 vsetsW), 39, 3, vsetsW, ringAt, 0xFFFF, 0, 4, by constructor <;> decide, by decide, by decide, by decide, by decide, by decide, by decide⟩,
   ⟨(queued 6 haltW), 39, 3, by decide, by decide, by decide⟩,
   ⟨(waits (queued 2 (waitW 1)) (waitW 1)), 39, 3, by decide, by decide⟩,
   ⟨(queued 5 haltW), 39, 3, by decide, by decide, by decide, by decide, by decide⟩⟩

theorem wit_QueuesDispatchInOrder_2 :
    (∃ s : State, ∃ d : Fin 40, ∃ q : Fin 4, (s.dieOff d = false) ∧ (s.qState d q = 5) ∧ ((s.que d q).fcode ≠ 8) ∧ ((s.que d q).funit = []) ∧ ((s.que d q).back = [])) ∧
    (∃ s : State, ∃ d : Fin 40, ∃ q : Fin 4, ∃ c : Instr, (s.dieOff d = false) ∧ (s.qState d q = 5) ∧ ((s.que d q).fcode ≠ 8) ∧ (c ∈ ([.queueResume d ⟨q, 0⟩, .queueResumeSkip d ⟨q, 0⟩, .queueAbort d ⟨q, 0⟩] : List Instr))) ∧
    (∃ s : State, ∃ d : Fin 40, ∃ q : Fin 4, ∃ c : Instr, (s.dieOff d = false) ∧ (s.qState d q = 5) ∧ ((s.que d q).fcode ≠ 8) ∧ (c ∈ ([.queueResume d ⟨q, 0⟩, .queueResumeSkip d ⟨q, 0⟩, .queueAbort d ⟨q, 0⟩] : List Instr))) ∧
    (∃ s : State, ∃ d : Fin 40, ∃ q : Fin 4, ∃ also : BitVec 5, ∃ c : Instr, (s.dieOff d = false) ∧ (also.getLsbD 4 = true) ∧ (c ∈ ([.queueStart d ⟨q, also⟩, .queueStop d ⟨q, also⟩, .queueResume d ⟨q, also⟩, .queueResumeSkip d ⟨q, also⟩, .queueAbort d ⟨q, 0⟩] : List Instr))) ∧
    (∃ s : State, ∃ d : Fin 40, ∃ q : Fin 4, ∃ also : BitVec 5, ∃ c : Instr, (s.dieOff d = false) ∧ (also.getLsbD 4 = true) ∧ (c ∈ ([.queueStart d ⟨q, also⟩, .queueStop d ⟨q, also⟩, .queueResume d ⟨q, also⟩, .queueResumeSkip d ⟨q, also⟩, .queueAbort d ⟨q, 0⟩] : List Instr))) ∧
    (∃ s : State, ∃ d : Fin 40, ∃ q : Fin 4, ∃ also : BitVec 5, ∃ b : BitVec 5, ∃ resumed : Nat, ∃ stopped : Nat, ∃ p : ((BitVec 5 → Instr) × BitVec 5), (s.dieOff d = false) ∧ (p ∈ ([((fun b => Instr.queueStart d ⟨q, b⟩), 1), ((fun b => Instr.queueStop d ⟨q, b⟩), 2), ((fun b => Instr.queueResume d ⟨q, b⟩), 4), ((fun b => Instr.queueResumeSkip d ⟨q, b⟩), 12)] : List ((BitVec 5 → Instr) × BitVec 5))) ∧ (also ||| p.2 = b) ∧ (b.getLsbD 4 = false) ∧ (resumed = (if b.getLsbD 2 = true ∧ s.qState d q = 5 ∧ (s.que d q).fcode ≠ 8 then 1 else s.qState d q)) ∧ (stopped = (if b.getLsbD 1 = true ∧ (resumed = 1 ∨ resumed = 2 ∨ resumed = 3) then 6 else resumed))) :=
  ⟨⟨(queued 5 haltW), 39, 3, by decide, by decide, by decide, by decide, by decide⟩,
   ⟨(stoppedBy 4 3), 39, 3, (Instr.queueResume 39 ⟨3, 0⟩), by decide, by decide, by decide, by simp⟩,
   ⟨(stoppedBy 3 3), 39, 3, (Instr.queueAbort 39 ⟨3, 0⟩), by decide, by decide, by decide, by simp⟩,
   ⟨(inFifo (queued 5 haltW) 39 4 vsetsW), 39, 0, 17, (Instr.queueAbort 39 ⟨0, 0⟩), by decide, by decide, by simp⟩,
   ⟨(inFifo (queued 5 haltW) 39 4 vsetsW), 39, 0, 17, (Instr.queueStop 39 ⟨0, 17⟩), by decide, by decide, by simp⟩,
   ⟨(queued 5 haltW), 39, 3, 3, 7, 1, 6, (((fun b => Instr.queueResume 39 ⟨3, b⟩), 4)), by decide, by decide, by decide, by decide, by decide, by decide⟩⟩

theorem wit_QueuesDispatchInOrder_3 :
    ∃ s : State, ∃ d : Fin 40, ∃ q : Fin 4, ∃ also : BitVec 5, ∃ b : BitVec 5, ∃ resumed : Nat, ∃ stopped : Nat, ∃ p : ((BitVec 5 → Instr) × BitVec 5), (s.dieOff d = false) ∧ (p ∈ ([((fun b => Instr.queueStart d ⟨q, b⟩), 1), ((fun b => Instr.queueStop d ⟨q, b⟩), 2), ((fun b => Instr.queueResume d ⟨q, b⟩), 4), ((fun b => Instr.queueResumeSkip d ⟨q, b⟩), 12)] : List ((BitVec 5 → Instr) × BitVec 5))) ∧ (also ||| p.2 = b) ∧ (b.getLsbD 4 = false) ∧ (resumed = (if b.getLsbD 2 = true ∧ s.qState d q = 5 ∧ (s.que d q).fcode ≠ 8 then 1 else s.qState d q)) ∧ (stopped = (if b.getLsbD 1 = true ∧ (resumed = 1 ∨ resumed = 2 ∨ resumed = 3) then 6 else resumed)) :=
  ⟨(queued 1 haltW), 39, 3, 0, 2, 1, 6, (((fun b => Instr.queueStop 39 ⟨3, b⟩), 2)), by decide, by decide, by decide, by decide, by decide, by decide⟩
/-- DMA_COPY of 64 bytes inside die 39's store. -/
def copyW : Cmd := word [(0x50, 0), (5, 8), (4, 12), ((lsBase 39 + 64) / 64, 22), ((lsBase 39 + 4032) / 64, 64), (1, 106)]
def copyTodo : DmaTodo := ⟨some (lsBase 39 + 64), lsBase 39 + 4032, 128, 1, 0, 0, 0⟩
def copyPackets : List DmaPacket := [⟨some (lsBase 39 + 64), lsBase 39 + 4032, 64, 0, none⟩, ⟨some (lsBase 39 + 128), lsBase 39 + 4096, 64, 0, none⟩]
def zeroW : Cmd := word [(0x70, 0), (7, 8), (4, 12), (2 ^ 18 - 1, 16)]
def drainW : Cmd := word [(0x71, 0), (7, 8), (4, 12), (2 ^ 18 - 64, 16), (63, 34), (7, 52), (9, 64), (1, 80)]
def drain1 (st : Bool) : Drain := ⟨ucmd drainW, 2 ^ 18 - 64, 64, 7, 9, true, st, [], []⟩
def drains1 (st : Bool) : State := withMem (base.setCd 39 { base.cd 39 with drains := [drain1 st] }) (gasBase 39 + 0xFFF000) [1, 2, 3]
def flying (pat : W32) (p : DmaPacket) : DmaCmd := ⟨ucmd copyW, pat, { copyTodo with rows := 0 }, [p]⟩
def flies (x : DmaCmd) : State := withMem (base.setCd 39 { base.cd 39 with dma := [x] }) (lsBase 39 + 64) [1, 2, 3]
def pktS : DmaPacket := ⟨some (lsBase 39 + 64), lsBase 39 + 128, 64, 0, none⟩
def pktF : DmaPacket := ⟨none, lsBase 39 + 128, 4, 0, some [9, 8, 7, 6]⟩
def pktD : DmaPacket := ⟨none, 0x3FFFF00, 4, 5, some [9, 8, 7, 6]⟩
/-- Group 7 with a collective of the drain's OPSEQ and size, running or aborted. -/
def feeds (run : Bool) (s : State) : State :=
  let d : GDesc := { opseq := 9, op := 1, red := 0, dtype := 0, opb := 1, sk := 2, dk := 0, urgent := false, outer := false, len := 4096, trig := 0, tthresh := 0, src := 0, dst := 0, srcmap := 0, dstmap := 0, root := 0, done := 0, doneinc := 0, spare := false }
  { s with groups := [(7, { Group.reset with
      ops := if run then [⟨0, d, [], [], [], [], [], false, false, false, 0, [], none⟩] else []
      aborted := if run then [] else [9] })] }

theorem wit_DmaIssuesPacketsAndMovesBytes_1 :
    (∃ s : State, ∃ d : Fin 40, ∃ e : UCmd, ∃ todo : DmaTodo, ∃ pat : W32, ∃ p : (Instr × Nat), (UnitReady s d dmaUnit e) ∧ (s.takesWork (s.cdCanton d) = true) ∧ ((s.cd d).dma = []) ∧ (s.dmaPlan d e = some (todo, pat)) ∧ ((opcodeOf e.w = 0x51 → s.poisoned (lsBase d + cbits e.w 35 16 * 64) 64 = false)) ∧ (dmaHeld d (s.cd d) e.seq todo = false) ∧ ((∀ p ∈ firstPackets 16 todo, (∀ a, p.src = some a → s.checkRange (asReq d) false a p.len = .ok ∧ (inDram a = false → s.poisoned a p.len = false)) ∧ s.checkRange (asReq d) true p.dst p.len = .ok)) ∧ (p ∈ ([(Instr.dmaCopy d e.q e.w, 0x50), (Instr.dmaCopy2d d e.q e.w, 0x51), (Instr.dmaFill d e.q e.w, 0x52), (Instr.dmaCommandStart d, opcodeOf e.w)] : List (Instr × Nat))) ∧ (isUnit e.w 5 p.2 = true)) ∧
    (∃ s : State, ∃ d : Fin 40, ∃ e : UCmd, ∃ todo : DmaTodo, ∃ pat : W32, ∃ p : (Instr × Nat), (UnitReady s d dmaUnit e) ∧ (s.takesWork (s.cdCanton d) = true) ∧ ((s.cd d).dma = []) ∧ (s.dmaPlan d e = some (todo, pat)) ∧ ((opcodeOf e.w = 0x51 → s.poisoned (lsBase d + cbits e.w 35 16 * 64) 64 = false)) ∧ (dmaHeld d (s.cd d) e.seq todo = false) ∧ ((∀ p ∈ firstPackets 16 todo, (∀ a, p.src = some a → s.checkRange (asReq d) false a p.len = .ok ∧ (inDram a = false → s.poisoned a p.len = false)) ∧ s.checkRange (asReq d) true p.dst p.len = .ok)) ∧ (p ∈ ([(Instr.dmaCopy d e.q e.w, 0x50), (Instr.dmaCopy2d d e.q e.w, 0x51), (Instr.dmaFill d e.q e.w, 0x52), (Instr.dmaCommandStart d, opcodeOf e.w)] : List (Instr × Nat))) ∧ (isUnit e.w 5 p.2 = true)) ∧
    (∃ s : State, ∃ d : Fin 40, ∃ cmd : Nat, ∃ pkt : Nat, ∃ x : DmaCmd, ∃ p : DmaPacket, ∃ data : List Byte, ∃ k : Nat, ∃ off : Nat, (s.dieOff d = false) ∧ ((s.cd d).dma[cmd]? = some x) ∧ (x.out[pkt]? = some p) ∧ ((p.req ≠ 0 → s.reqWaits p.req = false)) ∧ (s.reqErred p.req = false) ∧ (data = p.data.getD (s.packetData x.pattern p)) ∧ (data.length = p.len) ∧ (x.e.quiet = false) ∧ (inDram p.dst = false) ∧ (s.checkRange (asReq d) true p.dst p.len = .ok) ∧ (s.placeOf p.dst = .cd k off) ∧ ((k = d.val ∨ (s.cd (fin40 k)).coversWindow off p.len = false)) ∧ ((∀ i ∈ List.range p.len, s.mergeLost p.dst p.len i = false))) ∧
    (∃ s : State, ∃ d : Fin 40, ∃ cmd : Nat, ∃ pkt : Nat, ∃ x : DmaCmd, ∃ p : DmaPacket, ∃ data : List Byte, ∃ k : Nat, ∃ off : Nat, (s.dieOff d = false) ∧ ((s.cd d).dma[cmd]? = some x) ∧ (x.out[pkt]? = some p) ∧ ((p.req ≠ 0 → s.reqWaits p.req = false)) ∧ (s.reqErred p.req = false) ∧ (data = p.data.getD (s.packetData x.pattern p)) ∧ (data.length = p.len) ∧ (x.e.quiet = false) ∧ (inDram p.dst = false) ∧ (s.checkRange (asReq d) true p.dst p.len = .ok) ∧ (s.placeOf p.dst = .cd k off) ∧ ((k = d.val ∨ (s.cd (fin40 k)).coversWindow off p.len = false)) ∧ ((∀ i ∈ List.range p.len, s.mergeLost p.dst p.len i = false))) :=
  ⟨⟨(inFifo base 39 5 copyW), 39, (ucmd copyW), copyTodo, 0, ((Instr.dmaCopy 39 0 copyW, 0x50)), by constructor <;> decide, by decide, by decide, by decide, by decide, by decide, by rw [show firstPackets 16 copyTodo = copyPackets by decide]; intro p hp; simp only [copyPackets, List.mem_cons, List.not_mem_nil, or_false] at hp; rcases hp with rfl | rfl <;> exact ⟨fun a ha => by cases ha; decide, by decide⟩, by decide, by decide⟩,
   ⟨(inFifo base 39 5 copyW), 39, (ucmd copyW), copyTodo, 0, ((Instr.dmaCommandStart 39, 0x50)), by constructor <;> decide, by decide, by decide, by decide, by decide, by decide, by rw [show firstPackets 16 copyTodo = copyPackets by decide]; intro p hp; simp only [copyPackets, List.mem_cons, List.not_mem_nil, or_false] at hp; rcases hp with rfl | rfl <;> exact ⟨fun a ha => by cases ha; decide, by decide⟩, by decide, by decide⟩,
   ⟨(flies (flying 0 pktS)), 39, 0, 0, (flying 0 pktS), pktS, ([1, 2, 3] ++ List.replicate 61 0), 39, 128, by decide, by decide, by decide, by decide, by decide, by decide, by decide, by decide, by decide, by decide, by decide, by decide, by decide⟩,
   ⟨(flies (flying 0 pktF)), 39, 0, 0, (flying 0 pktF), pktF, ([9, 8, 7, 6]), 39, 128, by decide, by decide, by decide, by decide, by decide, by decide, by decide, by decide, by decide, by decide, by decide, by decide, by decide⟩⟩

theorem wit_DmaIssuesPacketsAndMovesBytes_2 :
    (∃ s : State, ∃ d : Fin 40, ∃ cmd : Nat, ∃ pkt : Nat, ∃ x : DmaCmd, ∃ p : DmaPacket, ∃ data : List Byte, (s.dieOff d = false) ∧ ((s.cd d).dma[cmd]? = some x) ∧ (x.out[pkt]? = some p) ∧ ((p.req ≠ 0 → s.reqWaits p.req = false)) ∧ (s.reqErred p.req = false) ∧ (data = p.data.getD (s.packetData x.pattern p)) ∧ (data.length = p.len) ∧ (x.e.quiet = false) ∧ (inDram p.dst = true) ∧ (p.data.isSome = true) ∧ ((s.cd d).dma = [x]) ∧ (x.out = [p]) ∧ ((nextPacket x.todo).isNone = true)) ∧
    (∃ s : State, ∃ d : Fin 40, ∃ cmd : Nat, ∃ pkt : Nat, ∃ x : DmaCmd, ∃ res : MemResp, (s.dieOff d = false) ∧ ((s.cd d).dma[cmd]? = some x) ∧ (x.out[pkt]?.isSome = true) ∧ (res ≠ .ok)) :=
  ⟨⟨(flies (flying 0 pktD)), 39, 0, 0, (flying 0 pktD), pktD, ([9, 8, 7, 6]), by decide, by decide, by decide, by decide, by decide, by decide, by decide, by decide, by decide, by decide, by decide, by decide, by decide⟩,
   ⟨(flies (flying 0 pktS)), 39, 0, 0, (flying 0 pktS), .refused, by decide, by decide, by decide, by decide⟩⟩

theorem wit_GasIsZeroedDrainedAndArbitrated_1 :
    (∃ s : State, ∃ d : Fin 40, ∃ e : UCmd, (UnitReady s d gasUnit e) ∧ (isUnit e.w 7 0x70 = true) ∧ ((s.cd d).drains = [])) ∧
    (∃ s : State, ∃ d : Fin 40, ∃ e : UCmd, (UnitReady s d gasUnit e) ∧ (isUnit e.w 7 0x71 = true) ∧ ((s.cd d).drains = [])) ∧
    (∃ s : State, ∃ d : Fin 40, ∃ g : Drain, (s.dieOff d = false) ∧ ((s.cd d).drains = [g]) ∧ (g.started = false) ∧ (((s.cd d).fifo gasUnit).any (fun x => x.seq == g.e.seq) = false) ∧ (s.writerBefore d g = false)) ∧
    (∃ s : State, ∃ d : Fin 40, ∃ g : Drain, ∃ piece : Nat, (s.dieOff d = false) ∧ ((s.cd d).drains = [g]) ∧ (g.started = true) ∧ (s.opTakes g.group g.opseq (g.len * 64) = true) ∧ (piece < g.len / 64) ∧ (piece ∉ g.read) ∧ ((s.cd d).held = [])) ∧
    (∃ s : State, ∃ d : Fin 40, ∃ g : Drain, ∃ piece : Nat, (s.dieOff d = false) ∧ ((s.cd d).drains = [g]) ∧ (s.opAborted g.group g.opseq = true) ∧ ((s.cd d).held = []) ∧ (g.e.quiet = false)) ∧
    (∃ s : State, ∃ d : Fin 40, ∃ accs : List LsAccess, (s.dieOff d = false) ∧ ((accs.map (fun x => (x.req, x.kind))).Nodup)) :=
  ⟨⟨(withMem (inFifo base 39 7 zeroW) (gasBase 39 + 0xFFFFC0) [1, 2]), 39, (ucmd zeroW), by constructor <;> decide, by decide, by decide⟩,
   ⟨(inFifo (withRegs base [(R.GC_STATUS 7, 1)]) 39 7 drainW), 39, (ucmd drainW), by constructor <;> decide, by decide, by decide⟩,
   ⟨(drains1 false), 39, (drain1 false), by decide, by decide, by decide, by decide, by decide⟩,
   ⟨(feeds true (drains1 true)), 39, (drain1 true), 0, by decide, by decide, by decide, by decide, by decide, by decide, by decide⟩,
   ⟨(feeds false (drains1 true)), 39, (drain1 true), 0, by decide, by decide, by decide, by decide, by decide⟩,
   ⟨base, 39, ([⟨6, .other, [⟨false, 4032, 64, true⟩]⟩, ⟨7, .other, [⟨false, 8128, 1, true⟩]⟩]), by decide, by decide⟩⟩

theorem wit_GasIsZeroedDrainedAndArbitrated_2 :
    (∃ s : State, ∃ d : Fin 40, ∃ f : StoreEcc, ∃ gas : Bool, (s.dieOff d = false)) ∧
    (∃ s : State, ∃ d : Fin 40, ∃ f : StoreEcc, ∃ gas : Bool, (s.dieOff d = false)) :=
  ⟨⟨base, 39, (⟨2 ^ 18 - 1, true⟩), true, by decide⟩,
   ⟨base, 39, (⟨7, false⟩), false, by decide⟩⟩
/-- A variant table of two variants, 64 slots, each with one adapter, in an aligned page of DRAM. -/
def tableAt : Nat := 0x1000000
def header1 : List Byte := leBytes 2 1 ++ [15, 64] ++ leBytes 2 2 ++ leBytes 2 0 ++ leBytes 4 77 ++ List.replicate 52 0
def entry1 (i party group : Nat) : List Byte :=
  leBytes 2 i ++ [31, 7] ++ leBytes 4 0 ++ leBytes 4 (2 ^ party) ++ leBytes 2 group ++ [1, 0] ++ leBytes 3 0 ++ [0] ++
    leBytes 8 (2 ^ 63) ++ List.replicate 36 0
def tabled : State := withMem dram2 tableAt (header1 ++ entry1 0 0 5 ++ entry1 1 31 4095)
def active1 : VariantTable := ⟨15, tableAt, 77, 2, 2⟩
def activated : State := { tabled with tables := tabled.tables.set 0 [active1], jobs := tabled.jobs.set 0 77 }
def faulted : State := (queued 5 0).setQue 39 3 { (queued 5 0).que 39 3 with fcode := 7 }
def drainFor (g : Nat) : Cmd := word [(0x71, 0), (7, 8), (63, 34), (g, 52)]
def ringed (s : State) : State := withRegs s [(R.SEQ_Q_BASE_LO 39 3, (lsBase 39 + 4096) % 2 ^ 32),
  (R.SEQ_Q_BASE_HI 39 3, lsBase 39 / 2 ^ 32), (R.SEQ_Q_SIZE 39 3, 4), (R.SEQ_Q_TAIL 39 3, 0xFFFF), (R.SEQ_Q_HEAD 39 3, 0xFFF0)]
def cvtW : Cmd := word [(0x1E, 0), (4, 8), (2, 12), (1, 33), (2 ^ 20, 37), (2 * 2 ^ 18, 58), (2 * 2 ^ 18, 79), (2 ^ 20 + 1, 100), (1, 126)]
def seeded : State := ((inFifo base 39 4 cvtW).put (R.ARITH_SR_STATUS (cdBase 39)) F.ARITH_SR_STATUS_SEEDED 1).put (R.VE_STATUS 39) F.VE_STATUS_SRHOLD 1
/-- Canton 0's cadence controller running in a period of a kind with deadline 10 µs, at a time in µs. -/
def cadenced (kind us : Nat) (c : Cadence) : State :=
  let s := withRegs base [(R.CAD_STEP_PERIOD 0, 10), (R.CAD_ROUND_PERIOD 0, 20), (R.CAD_EVAL_PERIOD 0, 30), (R.CAD_DEADLINE_LO 0, 10)]
  let s := (((s.put (R.CAD_CTL 0) F.CAD_CTL_EN 1).put (R.CAD_CTL 0) F.CAD_CTL_CATCHUP 64).put (R.CAD_STATUS 0) F.CAD_STATUS_KIND kind)
  { s.setCad 0 c with now := us * ticksPerUs }
/-- Nothing has ended or begun. -/
def cad0 : Cadence := { Cadence.reset with on := true }

theorem wit_TrainingFirmwareActsOnItsTables_1 :
    (∃ s : State, ∃ d : Fin 40, ∃ q : Fin 4, ∃ base : Fin 8, ∃ fresh : BitVec 48, ∃ copy : List Byte, ∃ first : Bool, ∃ below : Bool, (s.qState d q = 5) ∧ ((s.que d q).fcode = 7) ∧ (first = true ∨ below = false)) ∧
    (∃ s : State, ∃ d : Fin 40, ∃ q : Fin 4, ∃ base : Fin 8, ∃ fresh : BitVec 48, ∃ copy : List Byte, ∃ x, ∃ off, (s.qState d q = 5) ∧ ((s.que d q).fcode = 7) ∧ (s.placeOf fresh.toNat = .cd x off) ∧ ((s.cd (fin40 x)).coversWindow off copy.length = false) ∧ (base ≠ 0) ∧ ((∀ i ∈ List.range copy.length, s.mergeLost fresh.toNat copy.length i = false))) ∧
    (∃ s : State, ∃ k : Fin 8, ∃ addr : BitVec 48, ∃ h : List Byte, ∃ es : List (List Byte), (s.bytes addr.toNat 64 = h) ∧ (addr.toNat % 4096 = 0) ∧ (headerOk h = true) ∧ ((List.range (fieldAt h 4 2)).map (fun i => s.bytes (addr.toNat + 64 + 64 * i) 64) = es) ∧ (s.placeOf addr.toNat = .dram k) ∧ (s.placeOf (addr.toNat + 63 + 64 * fieldAt h 4 2) = .dram k) ∧ ((∀ p ∈ (List.range (fieldAt h 4 2)).zip es, entryOk p.1 (fieldAt h 3 1) p.2 = true)) ∧ (s.tables[k] = []) ∧ (es.foldl (fun n e => n + popcount (fieldAt e 20 8) 64) 0 ≤ s.adapterLimit k)) ∧
    (∃ s : State, ∃ k : Fin 8, ∃ table : Fin 16, ∃ tag : W32, ∃ rows : Nat, ∃ tags : BitVec 48, ∃ segs : BitVec 48, (s.admits k table tag = true) ∧ (0 < rows) ∧ (rows ≤ 65536) ∧ (s.placeOf tags.toNat = .dram k) ∧ (s.placeOf segs.toNat = .dram k) ∧ (Apart tags.toNat (4 * rows) segs.toNat 16)) ∧
    (∃ s : State, ∃ k : Fin 8, ∃ table : Fin 16, ∃ tag : W32, ∃ rows : Nat, ∃ tags : BitVec 48, ∃ segs : BitVec 48, ∃ mine : List AdmittedSeq, (s.admits k table tag = true) ∧ (0 < rows) ∧ (s.admitted.filter (fun (b : AdmittedSeq) => b.canton == k.val) = mine) ∧ (rowsOf mine + rows ≤ 65536) ∧ ((segmentsOf (placeSeq mine ⟨k.val, table.val, tag &&& 0x7FFFF, rows⟩)).length ≤ 1024) ∧ ((∀ b ∈ mine, b.table = table.val))) ∧
    (∃ s : State, ∃ k : Fin 8, ∃ table : Fin 16, ∃ tag : W32, ∃ rows : Nat, ∃ tags : BitVec 48, ∃ segs : BitVec 48, ∃ fresh : Bool, (s.admits k table tag = false)) :=
  ⟨⟨faulted, 39, 3, 0, 0, ([]), true, true, by decide, by decide, by decide⟩,
   ⟨faulted, 39, 3, 7, (BitVec.ofNat 48 (lsBase 39 + 64)), ([1, 2, 3]), 39, 64, by decide, by decide, by decide, by decide, by decide, by decide⟩,
   ⟨tabled, 0, (BitVec.ofNat 48 tableAt), header1, ([entry1 0 0 5, entry1 1 31 4095]), by decide +kernel⟩,
   ⟨activated, 0, 15, (1 + 31 * 2 ^ 13), 2, (BitVec.ofNat 48 (tableAt + 0x1000)), (BitVec.ofNat 48 (tableAt + 0x1008)), by decide +kernel, by decide +kernel, by decide +kernel, by decide +kernel, by decide +kernel, by unfold Apart; decide +kernel⟩,
   ⟨activated, 0, 15, (1 + 31 * 2 ^ 13), 2, 0, 0, ([]), by decide +kernel⟩,
   ⟨activated, 0, 15, (1 + 30 * 2 ^ 13), 0, 0, 0, false, by decide +kernel⟩⟩

theorem wit_TrainingFirmwareActsOnItsTables_2 :
    (∃ s : State, ∃ d : Fin 40, ∃ q : Fin 4, ∃ table : Fin 16, ∃ variant : BitVec 12, ∃ w : Cmd, ∃ v : VariantTable, ∃ e : List Byte, ∃ x : Nat, ∃ off : Nat, (s.dieOff d = false) ∧ (s.tableOf ⟨s.cdCanton d % 8, Nat.mod_lt _ (by decide)⟩ table = some v) ∧ (variant.toNat < v.nvar) ∧ (s.variantEntry v variant.toNat = e) ∧ (s.drainRight d e w = true) ∧ ((fieldAt e 14 1).testBit 7 = false) ∧ (s.placeOf (s.qBase d q + 16 * (s.qTail d q % s.qSize d q)) = .cd x off) ∧ ((s.cd (fin40 x)).coversWindow off 16 = false) ∧ ((s.qTail d q + 1 + 2 ^ 16 - s.qHead d q) % 2 ^ 16 ≤ s.qSize d q)) ∧
    (∃ s : State, ∃ d : Fin 40, ∃ q : Fin 4, ∃ table : Fin 16, ∃ variant : BitVec 12, ∃ w : Cmd, ∃ v : VariantTable, ∃ e : List Byte, ∃ x : Nat, ∃ off : Nat, (s.dieOff d = false) ∧ (s.tableOf ⟨s.cdCanton d % 8, Nat.mod_lt _ (by decide)⟩ table = some v) ∧ (variant.toNat < v.nvar) ∧ (s.variantEntry v variant.toNat = e) ∧ (s.drainRight d e w = true) ∧ ((fieldAt e 14 1).testBit 7 = true)) ∧
    (∃ s : State, ∃ d : Fin 40, ∃ q : Fin 4, ∃ table : Fin 16, ∃ variant : BitVec 12, ∃ w : Cmd, ∃ v : VariantTable, ∃ e : List Byte, ∃ x : Nat, ∃ off : Nat, (s.dieOff d = false) ∧ (s.tableOf ⟨s.cdCanton d % 8, Nat.mod_lt _ (by decide)⟩ table = some v) ∧ (variant.toNat < v.nvar) ∧ (s.variantEntry v variant.toNat = e) ∧ (s.drainRight d e w = false)) ∧
    (∃ s : State, ∃ d : Fin 40, ∃ e : UCmd, (s.flag (R.ARITH_SR_STATUS (cdBase d)) F.ARITH_SR_STATUS_SEEDED = true) ∧ (s.flag (R.VE_STATUS d) F.VE_STATUS_SRHOLD = true) ∧ (s.head? d veUnit = some e) ∧ (isUnit e.w 4 0x1E = true) ∧ (VeReady (s.put (R.VE_STATUS d) F.VE_STATUS_SRHOLD 0) d e.q e.w [])) ∧
    (∃ s : State, ∃ m : Fin 16, (s.dieOff (40 + m.val) = false) ∧ (s.flag (R.ARITH_SR_STATUS (mdBase m)) F.ARITH_SR_STATUS_SEEDED = true) ∧ ((s.sx m).openWaits = false) ∧ ((s.sx m).rebases = [])) :=
  ⟨⟨(ringed activated), 39, 3, 15, 1, (drainFor 4095), active1, (entry1 1 31 4095), 39, (4096 + 240), by decide +kernel⟩,
   ⟨(withMem (ringed activated) (tableAt + 128 + 14) [0x81]), 39, 3, 15, 1, (drainFor 4095), active1, (leBytes 2 1 ++ [31, 7] ++ leBytes 4 0 ++ leBytes 4 (2 ^ 31) ++ leBytes 2 4095 ++ [0x81] ++ List.replicate 12 0 ++ [128] ++ List.replicate 36 0), 0, 0, by decide +kernel⟩,
   ⟨(ringed activated), 39, 3, 15, 1, (drainFor 4094), active1, (entry1 1 31 4095), 0, 0, by decide +kernel⟩,
   ⟨seeded, 39, (ucmd cvtW), by decide, by decide, by decide, by decide, ⟨⟨ucmd cvtW, by decide, by decide, by decide, by decide⟩, by decide, by decide, by decide, by decide, by decide⟩⟩,
   ⟨((base.put (R.ARITH_SR_STATUS (mdBase 15)) F.ARITH_SR_STATUS_SEEDED 1).put (R.UE_STATUS 15) F.UE_STATUS_SRHOLD 1), 15, by decide, by decide, by decide, by decide⟩⟩

theorem wit_CadencePeriodsFollowTheirDeadlines_1 :
    (∃ s : State, ∃ k : Fin 8, (s.flag (R.CAD_CTL k) F.CAD_CTL_EN = false) ∧ (s.cads[k].on = false) ∧ ((s.rd (R.CAD_STEP_PERIOD k)).toNat ≠ 0)) ∧
    (∃ s : State, ∃ k : Fin 8, (s.flag (R.CAD_CTL k) F.CAD_CTL_EN = false) ∧ (s.cads[k].on = false) ∧ ((s.rd (R.CAD_STEP_PERIOD k)).toNat = 0)) ∧
    (∃ s : State, ∃ k : Fin 8, ∃ kind : BitVec 2, ∃ running : List Nat, (s.cadRuns k = true) ∧ (kind.toNat = s.cadKind k) ∧ (s.cads[k].ended = none) ∧ (s.workEnded k running = true)) ∧
    (∃ s : State, ∃ k : Fin 8, ∃ waiting : List Nat, (s.cadRuns k = true) ∧ (s.cads[k].passed = false) ∧ (s.cadDeadline k ≤ s.cadTimer k) ∧ (s.cadKind k ≠ 3) ∧ ((∀ e, s.cads[k].ended = some e → s.cadDeadline k < e))) ∧
    (∃ s : State, ∃ k : Fin 8, ∃ waiting : List Nat, (s.cadRuns k = true) ∧ (s.cads[k].passed = false) ∧ (s.cadDeadline k ≤ s.cadTimer k) ∧ (s.cadKind k ≠ 3) ∧ ((∀ e, s.cads[k].ended = some e → s.cadDeadline k < e))) ∧
    (∃ s : State, ∃ k : Fin 8, ∃ waiting : List Nat, ∃ e, (s.cadRuns k = true) ∧ (s.cads[k].passed = false) ∧ (s.cadDeadline k ≤ s.cadTimer k) ∧ (s.cads[k].ended = some e) ∧ (e ≤ s.cadDeadline k) ∧ (s.cadKind k ≠ 3)) :=
  ⟨⟨(withRegs base [(R.CAD_STEP_PERIOD 0, 10)]), 0, by decide, by decide, by decide⟩,
   ⟨base, 0, by decide, by decide, by decide⟩,
   ⟨(cadenced 1 5 cad0), 0, 1, ([]), by decide, by decide, by decide, by decide⟩,
   ⟨(cadenced 1 10 cad0), 0, ([]), by decide, by decide, by decide, by decide, by intro e he; cases he⟩,
   ⟨(cadenced 1 11 { cad0 with ended := some 11 }), 0, ([]), by decide, by decide, by decide, by decide, by intro e he; cases he; decide⟩,
   ⟨(cadenced 2 11 { cad0 with ended := some 10 }), 0, ([]), 10, by decide, by decide, by decide, by decide, by decide, by decide⟩⟩

theorem wit_CadencePeriodsFollowTheirDeadlines_2 :
    (∃ s : State, ∃ k : Fin 8, ∃ waiting : List Nat, (s.cadRuns k = true) ∧ (s.cads[k].passed = false) ∧ (s.cadDeadline k ≤ s.cadTimer k) ∧ (s.cadKind k = 3)) ∧
    (∃ s : State, ∃ k : Fin 8, ∃ e : Nat, ∃ start : Nat, ∃ nom : Nat, ∃ kind : Nat, ∃ p : Nat, (s.cadRuns k = true) ∧ (s.cads[k].ended = some e) ∧ ((s.cads[k].passed = true ∨ (e ≤ s.cadDeadline k ∧ s.cadKind k ≠ 3))) ∧ (start = max e (s.cadDeadline k)) ∧ (start ≤ s.cadTimer k) ∧ (nom = s.cads[k].nominal + s.cadPeriod k (s.cadKind k)) ∧ (s.get (R.CAD_CTL k) F.CAD_CTL_RESYNC = 0) ∧ (kind = s.cadNext k) ∧ (p = s.cadPeriod k kind) ∧ (start + p < 2 ^ 64)) ∧
    (∃ s : State, ∃ k : Fin 8, ∃ e : Nat, ∃ start : Nat, ∃ nom : Nat, ∃ kind : Nat, ∃ p : Nat, (s.cadRuns k = true) ∧ (s.cads[k].ended = some e) ∧ ((s.cads[k].passed = true ∨ (e ≤ s.cadDeadline k ∧ s.cadKind k ≠ 3))) ∧ (start = max e (s.cadDeadline k)) ∧ (start ≤ s.cadTimer k) ∧ (nom = s.cads[k].nominal + s.cadPeriod k (s.cadKind k)) ∧ (s.get (R.CAD_CTL k) F.CAD_CTL_RESYNC = 0) ∧ (kind = s.cadNext k) ∧ (p = s.cadPeriod k kind) ∧ (start + p < 2 ^ 64)) ∧
    (∃ s : State, ∃ k : Fin 8, ∃ b : Nat, (s.cadRuns k = true) ∧ (s.cadKind k = 3) ∧ (s.cadTimer k < s.cadDeadline k) ∧ (b ∉ s.cads[k].started)) :=
  ⟨⟨(cadenced 3 10 { cad0 with carried := [7, 8] }), 0, ([8, 9]), by decide, by decide, by decide, by decide⟩,
   ⟨(cadenced 1 14 { cad0 with ended := some 14, passed := true }), 0, 14, 14, 10, 1, 10, by decide, by decide, by decide, by decide, by decide, by decide, by decide, by decide, by decide, by decide⟩,
   ⟨((cadenced 1 10 { cad0 with ended := some 4 }).put (R.CAD_STATUS 0) F.CAD_STATUS_DEBT 1), 0, 4, 10, 10, 1, 10, by decide, by decide, by decide, by decide, by decide, by decide, by decide, by decide, by decide, by decide⟩,
   ⟨(cadenced 3 9 { cad0 with carried := [7, 8] }), 0, 7, by decide, by decide, by decide, by decide⟩⟩
def fetch0 : Fetched := Fetched.good
/-- A burst with more symbols wrong than its code can correct. -/
def torn : BurstErrs := [List.replicate 16 (BitVec.ofNat 40 (2 ^ 40 - 1))]
def readReq : SealReq := ⟨3, 39, .read 16, block15⟩
def fullReq : SealReq := ⟨3, 39, .write (List.replicate 256 5), block15⟩
def partReq : SealReq := ⟨3, 39, .write [1, 2], block15 + 254⟩
def addReq : SealReq := ⟨3, 39, .add 0xFFFFFFFFFFFFFFFF, block15 + 248⟩
/-- Minor counter of the block: written, at 127. -/
def minor127 : Sparse Nat := [(2 ^ 40 + 0x1003, 127), (2 ^ 40 + 0x103F, 9)]
/-- A poison entry on the block alone, or on the 2 KiB around it. -/
def poison0 (cls : Nat) : List (Nat × PoisonEntry) := [(1023, ⟨1, cls, if cls = 0 then 0x1003 else 0x1000, true, block15, none⟩)]
def reinited (cls : Nat) : State :=
  let s := withMem (sealSt [] [] minor127 (poison0 cls)) block15 [1, 2, 3]
  (s.setEng 15 { s.eng 15 with reinit := some 1023 }).put (R.SEAL_REINIT_STATUS 15) F.SEAL_REINIT_STATUS_BUSY 1

theorem wit_SealedReadsReleaseOnlyVerifiedBlocks :
    (∃ s : State, ∃ u : State, ∃ m : Fin 16, ∃ i : Nat, ∃ n : Nat, ∃ r : SealReq, ∃ c : Fin 2, ∃ l : Nat, (s.servable m i = some (r, c, l)) ∧ (r.op = .read n) ∧ (s.dropReq m i = u) ∧ (s.sealShut m = false) ∧ (u.poisonHits m c l 256 = [])) ∧
    (∃ s : State, ∃ u : State, ∃ m : Fin 16, ∃ i : Nat, ∃ n : Nat, ∃ r : SealReq, ∃ c : Fin 2, ∃ l : Nat, (s.servable m i = some (r, c, l)) ∧ (r.op = .read n) ∧ (s.dropReq m i = u) ∧ (s.sealShut m = false) ∧ (u.poisonHits m c l 256 ≠ [])) ∧
    (∃ s : State, ∃ u : State, ∃ m : Fin 16, ∃ i : Nat, ∃ n : Nat, ∃ r : SealReq, ∃ c : Fin 2, ∃ l : Nat, (s.servable m i = some (r, c, l)) ∧ (r.op = .read n) ∧ (s.dropReq m i = u) ∧ (s.sealShut m = true)) ∧
    (∃ s : State, ∃ u : State, ∃ m : Fin 16, ∃ i : Nat, ∃ n : Nat, ∃ f : Fetched, ∃ r : SealReq, ∃ die : Nat, ∃ c : Fin 2, ∃ l : Nat, ∃ x : State × Bool, ((s.eng m).reads[i]? = some r) ∧ (r.op = .read n) ∧ (s.channelOf r.mpa = some (die, c.val, l)) ∧ (s.sealShut m = false) ∧ (s.setEng m { s.eng m with reads := (s.eng m).reads.eraseIdx i } = u) ∧ (u.fetchBlock m c (l / 256 * 256) f true false = x)) ∧
    (∃ s : State, ∃ u : State, ∃ m : Fin 16, ∃ i : Nat, ∃ n : Nat, ∃ f : Fetched, ∃ r : SealReq, ∃ die : Nat, ∃ c : Fin 2, ∃ l : Nat, ∃ x : State × Bool, ((s.eng m).reads[i]? = some r) ∧ (r.op = .read n) ∧ (s.channelOf r.mpa = some (die, c.val, l)) ∧ (s.sealShut m = false) ∧ (s.setEng m { s.eng m with reads := (s.eng m).reads.eraseIdx i } = u) ∧ (u.fetchBlock m c (l / 256 * 256) f true false = x)) ∧
    (∃ s : State, ∃ u : State, ∃ m : Fin 16, ∃ i : Nat, ∃ n : Nat, ∃ f : Fetched, ∃ r : SealReq, ∃ die : Nat, ∃ c : Fin 2, ∃ l : Nat, ((s.eng m).reads[i]? = some r) ∧ (r.op = .read n) ∧ (s.channelOf r.mpa = some (die, c.val, l)) ∧ (s.sealShut m = true) ∧ (s.setEng m { s.eng m with reads := (s.eng m).reads.eraseIdx i } = u)) :=
  ⟨⟨(sealSt [readReq] [] [] []), ((sealSt [readReq] [] [] []).dropReq 15 0), 15, 0, 16, readReq, 1, 0x100300, by decide, by decide, rfl, by decide, by decide⟩,
   ⟨(sealSt [readReq] [] [] (poison0 1)), ((sealSt [readReq] [] [] (poison0 1)).dropReq 15 0), 15, 0, 16, readReq, 1, 0x100300, by decide, by decide, rfl, by decide, by decide⟩,
   ⟨((sealSt [readReq] [] [] []).put (R.SEAL_STATUS 15) F.SEAL_STATUS_CCFATAL 1), (((sealSt [readReq] [] [] []).put (R.SEAL_STATUS 15) F.SEAL_STATUS_CCFATAL 1).dropReq 15 0), 15, 0, 16, readReq, 1, 0x100300, by decide, by decide, rfl, by decide⟩,
   ⟨(withMem (sealSt [] [readReq] minor127 []) block15 [1, 2]), (withMem (sealSt [] [] minor127 []) block15 [1, 2]), 15, 0, 16, fetch0, readReq, 15, 1, 0x100300, ((withMem (sealSt [] [] minor127 []) block15 [1, 2]).fetchBlock 15 1 0x100300 fetch0 true false), by decide, by decide, by decide, by decide, rfl, rfl⟩,
   ⟨(withMem (sealSt [] [readReq] minor127 []) block15 [1, 2]), (withMem (sealSt [] [] minor127 []) block15 [1, 2]), 15, 0, 16, ({ fetch0 with data := torn }), readReq, 15, 1, 0x100300, ((withMem (sealSt [] [] minor127 []) block15 [1, 2]).fetchBlock 15 1 0x100300 { fetch0 with data := torn } true false), by decide, by decide, by decide, by decide, rfl, rfl⟩,
   ⟨((sealSt [] [readReq] [] []).put (R.SEAL_STATUS 15) F.SEAL_STATUS_CCFATAL 1), ((sealSt [] [] [] []).put (R.SEAL_STATUS 15) F.SEAL_STATUS_CCFATAL 1), 15, 0, 16, fetch0, readReq, 15, 1, 0x100300, by decide, by decide, by decide, by decide, rfl⟩⟩

theorem wit_SealedWritesTakeTheNextCounter :
    (∃ s : State, ∃ u : State, ∃ m : Fin 16, ∃ i : Nat, ∃ f : Fetched, ∃ r : SealReq, ∃ c : Fin 2, ∃ l : Nat, ∃ bs : List Byte, ∃ x : State × Bool, (s.servable m i = some (r, c, l)) ∧ (r.op = .write bs) ∧ (bs.length = 256) ∧ (s.sealShut m = false) ∧ (s.dropReq m i = u) ∧ (u.fetchBlock m c l f false false = x) ∧ ((∀ p ∈ u.poisonHits m c l 256, p.2.cls = 0)) ∧ (x.2 = true)) ∧
    (∃ s : State, ∃ u : State, ∃ m : Fin 16, ∃ i : Nat, ∃ f : Fetched, ∃ r : SealReq, ∃ c : Fin 2, ∃ l : Nat, ∃ bs : List Byte, ∃ x : State × Bool, (s.servable m i = some (r, c, l)) ∧ (r.op = .write bs) ∧ (bs.length = 256) ∧ (s.sealShut m = false) ∧ (s.dropReq m i = u) ∧ (u.fetchBlock m c l f false false = x) ∧ ((∀ p ∈ u.poisonHits m c l 256, p.2.cls = 0)) ∧ (x.2 = false)) ∧
    (∃ s : State, ∃ u : State, ∃ m : Fin 16, ∃ i : Nat, ∃ f : Fetched, ∃ r : SealReq, ∃ c : Fin 2, ∃ l : Nat, ∃ bs : List Byte, ∃ x : State × Bool, (s.servable m i = some (r, c, l)) ∧ (r.op = .write bs) ∧ (bs.length = 256) ∧ (s.sealShut m = false) ∧ (s.dropReq m i = u) ∧ (u.fetchBlock m c l f false false = x) ∧ ((∃ p ∈ u.poisonHits m c l 256, p.2.cls ≠ 0))) ∧
    (∃ s : State, ∃ u : State, ∃ m : Fin 16, ∃ i : Nat, ∃ f : Fetched, ∃ r : SealReq, ∃ c : Fin 2, ∃ l : Nat, ∃ x : State × Bool, ∃ bs : List Byte, (s.servable m i = some (r, c, l)) ∧ (s.sealShut m = false) ∧ (s.dropReq m i = u) ∧ (u.poisonHits m c l 256 = []) ∧ (u.fetchBlock m c l f true true = x) ∧ (r.op = .write bs) ∧ (bs.length ≠ 256)) ∧
    (∃ s : State, ∃ u : State, ∃ m : Fin 16, ∃ i : Nat, ∃ f : Fetched, ∃ r : SealReq, ∃ c : Fin 2, ∃ l : Nat, ∃ x : State × Bool, ∃ inc, (s.servable m i = some (r, c, l)) ∧ (s.sealShut m = false) ∧ (s.dropReq m i = u) ∧ (u.poisonHits m c l 256 = []) ∧ (u.fetchBlock m c l f true true = x) ∧ (r.op = .add inc)) :=
  ⟨⟨(sealSt [fullReq] [] minor127 (poison0 0)), ((sealSt [fullReq] [] minor127 (poison0 0)).dropReq 15 0), 15, 0, ({ fetch0 with lost := [(63, torn)] }), fullReq, 1, 0x100300, (List.replicate 256 5), (((sealSt [fullReq] [] minor127 (poison0 0)).dropReq 15 0).fetchBlock 15 1 0x100300 { fetch0 with lost := [(63, torn)] } false false), by decide +kernel, by decide +kernel, by decide +kernel, by decide +kernel, rfl, rfl, by decide +kernel⟩,
   ⟨(sealSt [fullReq] [] minor127 []), ((sealSt [fullReq] [] minor127 []).dropReq 15 0), 15, 0, ({ fetch0 with l1 := torn }), fullReq, 1, 0x100300, (List.replicate 256 5), (((sealSt [fullReq] [] minor127 []).dropReq 15 0).fetchBlock 15 1 0x100300 { fetch0 with l1 := torn } false false), by decide +kernel, by decide +kernel, by decide +kernel, by decide +kernel, rfl, rfl, by decide +kernel⟩,
   ⟨(sealSt [fullReq] [] minor127 (poison0 1)), ((sealSt [fullReq] [] minor127 (poison0 1)).dropReq 15 0), 15, 0, fetch0, fullReq, 1, 0x100300, (List.replicate 256 5), (((sealSt [fullReq] [] minor127 (poison0 1)).dropReq 15 0).fetchBlock 15 1 0x100300 fetch0 false false), by decide +kernel, by decide +kernel, by decide +kernel, by decide +kernel, rfl, rfl, by decide +kernel⟩,
   ⟨(sealSt [partReq] [] [] []), ((sealSt [partReq] [] [] []).dropReq 15 0), 15, 0, fetch0, partReq, 1, 0x100300, (((sealSt [partReq] [] [] []).dropReq 15 0).fetchBlock 15 1 0x100300 fetch0 true true), ([1, 2]), by decide, by decide, rfl, by decide, rfl, by decide, by decide⟩,
   ⟨(withMem (sealSt [addReq] [] minor127 []) (block15 + 248) [3]), ((withMem (sealSt [addReq] [] minor127 []) (block15 + 248) [3]).dropReq 15 0), 15, 0, fetch0, addReq, 1, 0x100300, (((withMem (sealSt [addReq] [] minor127 []) (block15 + 248) [3]).dropReq 15 0).fetchBlock 15 1 0x100300 fetch0 true true), 0xFFFFFFFFFFFFFFFF, by decide, by decide, rfl, by decide, rfl, by decide⟩⟩

theorem wit_PoisonIsClearedByReinitAndTreesByKeys_1 :
    (∃ s : State, ∃ m : Fin 16, ∃ index : Fin 1024, (s.flag (R.SEAL_REINIT_STATUS m) F.SEAL_REINIT_STATUS_BUSY = true)) ∧
    (∃ s : State, ∃ m : Fin 16, ∃ index : Fin 1024, ∃ e : PoisonEntry, (s.flag (R.SEAL_REINIT_STATUS m) F.SEAL_REINIT_STATUS_BUSY = false) ∧ ((s.eng m).ptab.find? (fun p => p.1 == index.val) = some (index.val, e)) ∧ ((e.cls < 2 ∨ s.get (R.SEAL_GEN m) (genField e.ch) ≠ 255))) ∧
    (∃ s : State, ∃ m : Fin 16, ∃ index : Fin 1024, (s.flag (R.SEAL_REINIT_STATUS m) F.SEAL_REINIT_STATUS_BUSY = false) ∧ (((s.eng m).ptab.find? (fun p => p.1 == index.val) = none ∨ ∃ e, (s.eng m).ptab.find? (fun p => p.1 == index.val) = some (index.val, e) ∧ 2 ≤ e.cls ∧ s.get (R.SEAL_GEN m) (genField e.ch) = 255))) ∧
    (∃ s : State, ∃ m : Fin 16, ∃ lost : List (Fin 64), ∃ i : Nat, ∃ e : PoisonEntry, ((s.eng m).reinit = some i) ∧ ((s.eng m).ptab.find? (fun p => p.1 == i) = some (i, e))) ∧
    (∃ s : State, ∃ m : Fin 16, ∃ lost : List (Fin 64), ∃ i : Nat, ∃ e : PoisonEntry, ((s.eng m).reinit = some i) ∧ ((s.eng m).ptab.find? (fun p => p.1 == i) = some (i, e))) ∧
    (∃ s : State, ∃ m : Fin 16, ∃ lost : List (Fin 64), ∃ i : Nat, ((s.eng m).reinit = some i) ∧ ((s.eng m).ptab.find? (fun p => p.1 == i) = none)) :=
  ⟨⟨(reinited 0), 15, 1023, by decide⟩,
   ⟨(sealSt [] [] [] (poison0 2)), 15, 1023, (⟨1, 2, 0x1000, true, block15, none⟩), by decide, by decide, by decide⟩,
   ⟨(sealSt [] [] [] (poison0 2)), 15, 1022, by decide, Or.inl (by decide)⟩,
   ⟨(reinited 1), 15, ([0, 63]), 1023, (⟨1, 1, 0x1000, true, block15, none⟩), by decide, by decide⟩,
   ⟨(reinited 2), 15, ([]), 1023, (⟨1, 2, 0x1000, true, block15, none⟩), by decide, by decide⟩,
   ⟨((sealSt [] [] [] []).setEng 15 { (sealSt [] [] [] []).eng 15 with reinit := some 1023 }), 15, ([]), 1023, by decide, by decide⟩⟩

theorem wit_PoisonIsClearedByReinitAndTreesByKeys_2 :
    (∃ s : State, ∃ m : Fin 16, (s.flag (R.SEAL_STATUS m) F.SEAL_STATUS_KEYS = true) ∧ (s.flag (R.SEAL_STATUS m) F.SEAL_STATUS_TREE = false) ∧ (s.cantonStopped (s.colCanton (m.val % 8)) = false)) ∧
    (∃ s : State, ∃ m : Fin 16, ∃ mirror : BurstErrs, ∃ block : BurstErrs, ∃ total : Nat, (s.flag (R.MC_SCRUB_CTL m) F.MC_SCRUB_CTL_EN = true) ∧ ((s.eng m).asleep = false) ∧ (dimmBursts (s.nsOf m 0) + dimmBursts (s.nsOf m 1) = total) ∧ (total ≠ 0) ∧ (fetchOf block ≠ .badTag) ∧ ((s.eng m).patrolAt + s.get (R.MC_SCRUB_CTL m) F.MC_SCRUB_CTL_HOURS * 3600 * ticksPerSec / total ≤ s.now)) ∧
    (∃ s : State, ∃ m : Fin 16, ((s.eng m).asleep = false) ∧ ((s.eng m).scrubbed + ticksPerSec / 100 ≤ s.now)) ∧
    (∃ s : State, ∃ m : Fin 16, ((s.eng m).asleep = false) ∧ ((s.eng m).scrubbed + ticksPerSec / 100 ≤ s.now)) :=
  ⟨⟨(dram2.put (R.SEAL_STATUS 15) F.SEAL_STATUS_KEYS 1), 15, by decide, by decide, by decide⟩,
   ⟨({ withRegs ((sealSt [] [] [] []).put (R.MC_SCRUB_CTL 15) F.MC_SCRUB_CTL_EN 1) [(R.SEAL_DATAMIB 15 0, 1), (R.SEAL_DATAMIB 15 1, 1)] with now := 2 ^ 44 }), 15, ([]), ([]), 44288, by decide, by decide, by decide, by decide, by decide, by decide⟩,
   ⟨({ sealSt [] [] [] [] with now := 42000000 }), 15, by decide, by decide⟩,
   ⟨({ sealSt [] [] [] [] with now := 42000000 }), 15, by decide, by decide⟩⟩

theorem wit_MemoryChannelsRunTheirUpkeep :
    (∃ s : State, ∃ m : Fin 16, ∃ c : Fin 2, (s.flag (R.MC_STATUS m c) F.MC_STATUS_TRAINED = true) ∧ ((s.eng m).asleep = false) ∧ ((s.chan m c).stale = true ∨ (s.chan m c).recalAt + ticksPerSec / 10 ≤ s.now)) ∧
    (∃ s : State, ∃ m : Fin 16, ∃ c : Fin 2, (s.flag (R.MC_STATUS m c) F.MC_STATUS_TRAINED = true) ∧ ((s.eng m).asleep = false) ∧ ((s.chan m c).stale = false) ∧ (s.now < (s.chan m c).recalAt + ticksPerSec / 10)) ∧
    (∃ s : State, ∃ m : Fin 16, ∃ c : Fin 2, ∃ temps : List Nat, ∃ hot : Nat, (hot ∈ temps) ∧ ((∀ x ∈ temps, x ≤ hot))) ∧
    (∃ s : State, ∃ m : Fin 16, ∃ c : Fin 2, ∃ temps : List Nat, ∃ hot : Nat, (hot ∈ temps) ∧ ((∀ x ∈ temps, x ≤ hot))) ∧
    (∃ s : State, ∃ m : Fin 16, ∃ c : Fin 2, ∃ temps : List Nat, ∃ hot : Nat, (hot ∈ temps) ∧ ((∀ x ∈ temps, x ≤ hot))) :=
  ⟨⟨({ dram2.put (R.MC_STATUS 15 1) F.MC_STATUS_TRAINED 1 with now := 420000000 }), 15, 1, by decide, by decide, by decide⟩,
   ⟨({ dram2.put (R.MC_STATUS 15 1) F.MC_STATUS_TRAINED 1 with now := 419999999 }), 15, 1, by decide, by decide, by decide, by decide⟩,
   ⟨base, 15, 1, ([30, 95, 94]), 95, by decide, by decide⟩,
   ⟨((base.put (R.MC_STATUS 15 1) F.MC_STATUS_THROT 1)), 15, 1, ([30, 300, 94]), 300, by decide, by decide⟩,
   ⟨((base.put (R.MC_STATUS 15 1) F.MC_STATUS_THROT 1)), 15, 1, ([89]), 89, by decide, by decide⟩⟩
/-- The journal of its fifth outer step in progress. -/
def running1 : Journal := { journal1 1 with outer := true, tstep := 5, mstep := 5, wstep := 4 }
def landed1 : Landed := ⟨16383, 0, true, [127], 6, some 5⟩
/-- Memory die 15's engine, enabled, with the shard and more of its state. -/
def ueSt (j : Journal) (f : Ue → Ue) : State :=
  let s := (sealSt [] [] [] []).put (R.UE_CTL 15) F.UE_CTL_EN 1
  s.setUe 15 (f { s.ue 15 with shards := [shard1 j] })
def ueOff : State := (ueSt (journal1 0) id).put (R.UE_CTL 15) F.UE_CTL_EN 0
def withBurst (phase : Nat) (refused : List (Nat × Nat)) : State :=
  ueSt running1 (fun u => { u with burst := some ⟨16383, 0, phase, 8, 0⟩, landed := [landed1], refused := refused })
/-- The engine with a command block (destination 0x3F10000, slot 5) and the canton's key in slot 5. -/
def argued (chan kinds : Nat) (head : List Byte) : State :=
  let s := withRegs (ueSt (journal1 0) id) [(R.UE_CMDARG_LO 15, 0x3F00000)]
  let s := withMem s 0x3F00000 (leBytes 8 0x3F10000 ++ leBytes 8 0 ++ leBytes 8 1 ++ leBytes 4 9 ++ [5, BitVec.ofNat 8 chan] ++ leBytes 2 kinds)
  { withMem s 0x3F10000 head with keySlots := [(0, 5, List.replicate 32 7)] }
/-- Memory die 15's seal engine stopped by a security failure. -/
def shut (s : State) : State := s.put (R.SEAL_STATUS 15) F.SEAL_STATUS_CCFATAL 1
/-- Tables of the engine to be read. -/
def loading (s : State) : State := (s.put (R.UE_CTL 15) F.UE_CTL_EN 1).setUe 15 { s.ue 15 with load := true, shards := [] }
def audits (f : Ue → Ue) : State := withRegs (ueSt (journal1 0) f) [(R.UE_AUDIT_CTL 15, 9)]
def ueWaits (s : State) : State := s.setEng 15 { s.eng 15 with reqs := [⟨3, 55, .write [1], 0x3E30000⟩] }
/-- The shard with arrays laid over each other in a store, so that no fetch is needed. -/
def desc2 : ShardDesc := { desc1 with master := lsBase 39, omom := lsBase 39, snap := lsBase 39, plain := lsBase 39 }
def shard2 : Shard := ⟨16383, some desc2, journal1 0⟩
def ueSt2 (f : Ue → Ue) : State := ueSt (journal1 0) (fun u => f { u with shards := [shard2] })
def audits2 (f : Ue → Ue) : State := withRegs (ueSt2 f) [(R.UE_AUDIT_CTL 15, 9)]
def running2 : State := (ueSt2 (fun u => { u with cmd := some ⟨3, 16383, 0, false, false, true, 0, 0, 0⟩ })).put (R.UE_CMDSTAT 15) F.UE_CMDSTAT_BUSY 1
def auditing2 : State := running2.setUe 15 { running2.ue 15 with audit := some 16383 }
/-- The engine with a write still waiting for the shard's master. -/
def auditHeld : State :=
  let s := ueSt (journal1 0) id
  s.setEng 15 { s.eng 15 with reqs := [⟨3, 55, .write [1], desc1.master⟩] }
/-- Blocks outside DRAM come back, and change nothing. -/
theorem reads_stores (s : State) (reads : BlockReads) (bs : List Nat) (h : bs.all (fun b => (s.channelOf (256 * b)).isNone) = true) :
    s.readBlocks reads bs = (s, true) := by
  unfold State.readBlocks
  induction bs with
  | nil => rfl
  | cons b bs ih =>
    simp only [List.all_cons, Bool.and_eq_true, Option.isNone_iff_eq_none] at h
    have h1 : s.readBlock reads b = (s, true) := by unfold State.readBlock; simp [h.1]
    simpa [h1] using ih h.2
/-- A seal engine that is stopped gives no block. -/
theorem reads_shut (s : State) (reads : BlockReads) (bs : List Nat)
    (h : (!bs.isEmpty && bs.all (fun b => match s.channelOf (256 * b) with
      | some (k, _, _) => s.sealShut (fin16 k) | none => false)) = true) : s.readBlocks reads bs = (s, false) := by
  have go : ∀ (bs : List Nat) (ok : Bool), bs.all (fun b => match s.channelOf (256 * b) with
      | some (k, _, _) => s.sealShut (fin16 k) | none => false) = true →
      bs.foldl (fun r b => let x := r.1.readBlock reads b; (x.1, r.2 && x.2)) (s, ok) = (s, ok && bs.isEmpty) := by
    intro bs
    induction bs with
    | nil => simp
    | cons b bs ih =>
      intro ok h
      simp only [List.all_cons, Bool.and_eq_true] at h
      have h1 : s.readBlock reads b = (s, false) := by
        unfold State.readBlock
        split
        · rename_i e; simp [e] at h
        · rename_i e; simp only [e] at h; simp [h.1]
      simp only [List.foldl_cons, h1, Bool.and_false, List.isEmpty_cons]
      simpa using ih false h.2
  simp only [Bool.and_eq_true, Bool.not_eq_true'] at h
  unfold State.readBlocks
  rw [go bs true h.2, h.1]
  rfl

theorem wit_UpdateEngineLandsCommitsAndFinishes_1 :
    (∃ s : State, ∃ m : Fin 16, ∃ shard : Nat, ∃ square : Nat, ∃ outer : Bool, ∃ data : List Byte, ∃ gs : List Nat, ((s.shard? m shard).any (fun x => x.j.state == 3 || x.j.state == 4) = false) ∧ ((s.ue m).freeGrans ((data.length + 65535) / 65536) = some gs) ∧ (s.ueTakes m = false)) ∧
    (∃ s : State, ∃ m : Fin 16, ∃ shard : Nat, ∃ square : Nat, ∃ outer : Bool, ∃ data : List Byte, (((s.shard? m shard).any (fun x => x.j.state == 3 || x.j.state == 4) = true ∨ (s.ue m).freeGrans ((data.length + 65535) / 65536) = none))) ∧
    (∃ s : State, ∃ m : Fin 16, ∃ shard : Nat, ∃ square : Nat, ∃ outer : Bool, ∃ data : List Byte, (((s.shard? m shard).any (fun x => x.j.state == 3 || x.j.state == 4) = true ∨ (s.ue m).freeGrans ((data.length + 65535) / 65536) = none))) :=
  ⟨⟨((ueSt (journal1 0) (fun u => { u with landed := [⟨16383, 0, true, [0], 6, some 5⟩] })).put (R.UE_CTL 15) F.UE_CTL_PAUSE 1), 15, 16383, 1, true, ([1, 2, 3]), ([1]), by decide +kernel⟩,
   ⟨(ueSt (journal1 4) id), 15, 16383, 0, false, ([1]), by decide⟩,
   ⟨(ueSt (journal1 0) (fun u => { u with stagedGrans := List.range 128 })), 15, 16383, 0, false, ([1]), Or.inr (by decide +kernel)⟩⟩

theorem wit_UpdateEngineLandsCommitsAndFinishes_2 :
    (∃ s : State, ∃ m : Fin 16, ∃ x : W32, ∃ layer : Nat, ∃ step : Nat, ((f32 x.toNat).isFin = true) ∧ (s.get (R.UE_NORMTAG m) F.UE_NORMTAG_LAYER = layer) ∧ (s.get (R.UE_NORMTAG m) F.UE_NORMTAG_STEP = step) ∧ ((∀ l ∈ (s.ue m).landed, l.step.isSome = true))) ∧
    (∃ s : State, ∃ m : Fin 16, ∃ x : W32, ∃ layer : Nat, ∃ step : Nat, ((f32 x.toNat).isFin = true) ∧ (s.get (R.UE_NORMTAG m) F.UE_NORMTAG_LAYER = layer) ∧ (s.get (R.UE_NORMTAG m) F.UE_NORMTAG_STEP = step) ∧ ((∀ l ∈ (s.ue m).landed, l.step.isSome = true))) ∧
    (∃ s : State, ∃ u : State, ∃ m : Fin 16, ∃ reads : BlockReads, ∃ sh : Shard, ∃ d : ShardDesc, ∃ l : Landed, ∃ rest : List (Shard × ShardDesc × Landed), ∃ v : State, ∃ q : State, ∃ ok : Bool, (((s.ueTurn m reads).takeAll m).ueSync m = u) ∧ (u.ueTakes m = true) ∧ ((u.ue m).burst = none) ∧ (u.readySquares m = (sh, d, l) :: rest) ∧ (((d.srm || d.srw || d.src) = true → u.flag (R.ARITH_SR_STATUS (mdBase m)) F.ARITH_SR_STATUS_SEEDED = true)) ∧ (u.put (R.UE_STATUS m) F.UE_STATUS_SRHOLD 0 = v) ∧ (v.rangesBusy (d.squareReads l.square l.outer false) = false) ∧ ((if sh.j.state = 1 then v else (v.beginStep m sh d l).1).readBlocks reads (blocksOf (d.squareReads l.square l.outer false)) = (q, ok)) ∧ (ok = true)) :=
  ⟨⟨(withRegs (ueSt (journal1 0) (fun u => { u with landed := [⟨16383, 0, false, [0], 6, some 10⟩], recs := [⟨16383, false, 10, 1, 2, none⟩] })) [(R.UE_NORMTAG 15, 0xFFFF000A)]), 15, 0x40800000, 0xFFFF, 10, by decide +kernel⟩,
   ⟨(withRegs (ueSt (journal1 0) (fun u => { u with landed := [⟨16383, 0, false, [0], 6, some 10⟩], recs := [⟨16383, false, 10, 1, 0, none⟩] })) [(R.UE_NORMTAG 15, 0x0003000A)]), 15, 0xC0800000, 3, 10, by decide +kernel⟩,
   ⟨(ueSt2 (fun u => { u with landed := [landed1] })), ((((ueSt2 (fun u => { u with landed := [landed1] })).ueTurn 15 []).takeAll 15).ueSync 15), 15, ([]), shard2, desc2, landed1, ([]), ((((((ueSt2 (fun u => { u with landed := [landed1] })).ueTurn 15 []).takeAll 15).ueSync 15).put (R.UE_STATUS 15) F.UE_STATUS_SRHOLD 0)), ((((((((ueSt2 (fun u => { u with landed := [landed1] })).ueTurn 15 []).takeAll 15).ueSync 15).put (R.UE_STATUS 15) F.UE_STATUS_SRHOLD 0)).beginStep 15 (shard2) desc2 landed1).1), true, rfl, by decide +kernel, by decide +kernel, by decide +kernel, by decide +kernel, rfl, by decide +kernel, reads_stores _ _ _ (by decide +kernel), by decide +kernel⟩⟩

theorem wit_UpdateEngineLandsCommitsAndFinishes_3 :
    (∃ s : State, ∃ u : State, ∃ m : Fin 16, ∃ reads : BlockReads, ∃ sh : Shard, ∃ d : ShardDesc, ∃ l : Landed, ∃ rest : List (Shard × ShardDesc × Landed), ∃ v : State, ∃ q : State, ∃ ok : Bool, (((s.ueTurn m reads).takeAll m).ueSync m = u) ∧ (u.ueTakes m = true) ∧ ((u.ue m).burst = none) ∧ (u.readySquares m = (sh, d, l) :: rest) ∧ (((d.srm || d.srw || d.src) = true → u.flag (R.ARITH_SR_STATUS (mdBase m)) F.ARITH_SR_STATUS_SEEDED = true)) ∧ (u.put (R.UE_STATUS m) F.UE_STATUS_SRHOLD 0 = v) ∧ (v.rangesBusy (d.squareReads l.square l.outer false) = false) ∧ ((if sh.j.state = 1 then v else (v.beginStep m sh d l).1).readBlocks reads (blocksOf (d.squareReads l.square l.outer false)) = (q, ok)) ∧ (ok = false)) ∧
    (∃ s : State, ∃ m : Fin 16, ∃ b : Burst, ∃ sh : Shard, ∃ d : ShardDesc, ((s.ue m).burst = some b) ∧ (s.reqWaits b.id = false) ∧ (s.shard? m b.shard = some sh) ∧ (sh.desc = some d) ∧ (sh.j.state = 1) ∧ (b.square = sh.j.cursor) ∧ ((∀ l ∈ (s.ue m).landed, l.step.isSome = true)) ∧ ((∀ r ∈ (s.ue m).refused, r.1 ≠ b.id)) ∧ (b.phase = 1 ∨ b.phase = 2)) ∧
    (∃ s : State, ∃ m : Fin 16, ∃ b : Burst, ∃ sh : Shard, ∃ d : ShardDesc, ((s.ue m).burst = some b) ∧ (s.reqWaits b.id = false) ∧ (s.shard? m b.shard = some sh) ∧ (sh.desc = some d) ∧ (sh.j.state = 1) ∧ (b.square = sh.j.cursor) ∧ ((∀ l ∈ (s.ue m).landed, l.step.isSome = true)) ∧ ((∀ r ∈ (s.ue m).refused, r.1 ≠ b.id)) ∧ (b.phase = 1 ∨ b.phase = 2)) :=
  ⟨⟨(shut (ueSt (journal1 0) (fun u => { u with landed := [landed1] }))), ((((shut (ueSt (journal1 0) (fun u => { u with landed := [landed1] }))).ueTurn 15 []).takeAll 15).ueSync 15), 15, ([]), (shard1 (journal1 0)), desc1, landed1, ([]), ((((((shut (ueSt (journal1 0) (fun u => { u with landed := [landed1] }))).ueTurn 15 []).takeAll 15).ueSync 15).put (R.UE_STATUS 15) F.UE_STATUS_SRHOLD 0)), ((((((((shut (ueSt (journal1 0) (fun u => { u with landed := [landed1] }))).ueTurn 15 []).takeAll 15).ueSync 15).put (R.UE_STATUS 15) F.UE_STATUS_SRHOLD 0)).beginStep 15 (shard1 (journal1 0)) desc1 landed1).1), false, rfl, by decide +kernel, by decide +kernel, by decide +kernel, by decide +kernel, rfl, by decide +kernel, reads_shut _ _ _ (by decide +kernel), by decide +kernel⟩,
   ⟨(withBurst 1 []), 15, (⟨16383, 0, 1, 8, 0⟩), (shard1 running1), desc1, by decide, by decide, by decide, by decide, by decide, by decide, by decide, by decide, by decide⟩,
   ⟨(withBurst 2 []), 15, (⟨16383, 0, 2, 8, 0⟩), (shard1 running1), desc1, by decide, by decide, by decide, by decide, by decide, by decide, by decide, by decide, by decide⟩⟩

theorem wit_UpdateEngineLandsCommitsAndFinishes_4 :
    (∃ s : State, ∃ m : Fin 16, ∃ b : Burst, ∃ sh : Shard, ∃ d : ShardDesc, ((s.ue m).burst = some b) ∧ (s.reqWaits b.id = false) ∧ (s.shard? m b.shard = some sh) ∧ (sh.desc = some d) ∧ (sh.j.state = 1) ∧ (b.square = sh.j.cursor) ∧ ((∀ l ∈ (s.ue m).landed, l.step.isSome = true)) ∧ ((∀ r ∈ (s.ue m).refused, r.1 ≠ b.id)) ∧ (b.phase = 3) ∧ ((∀ r ∈ (s.ue m).recs, r.norm ≠ some none))) ∧
    (∃ s : State, ∃ m : Fin 16, ∃ b : Burst, ∃ sh : Shard, ∃ d : ShardDesc, ((s.ue m).burst = some b) ∧ (s.reqWaits b.id = false) ∧ (s.shard? m b.shard = some sh) ∧ (sh.desc = some d) ∧ (sh.j.state = 1) ∧ (b.square = sh.j.cursor) ∧ ((∀ l ∈ (s.ue m).landed, l.step.isSome = true)) ∧ ((∃ r ∈ (s.ue m).refused, r.1 = b.id))) :=
  ⟨⟨(withBurst 3 [(7, 5)]), 15, (⟨16383, 0, 3, 8, 0⟩), (shard1 running1), desc1, by decide, by decide, by decide, by decide, by decide, by decide, by decide, by decide, by decide, by decide⟩,
   ⟨(withBurst 3 [(8, 0x3E30000)]), 15, (⟨16383, 0, 3, 8, 0⟩), (shard1 running1), desc1, by decide, by decide, by decide, by decide, by decide, by decide, by decide, by decide⟩⟩

theorem wit_UpdateEngineIsEnabledPausedAndReset_1 :
    (∃ s : State, ∃ m : Fin 16, ∃ tables : BlockReads, ∃ journals : BlockReads, (s.flag (R.UE_CTL m) F.UE_CTL_EN = true)) ∧
    (∃ s : State, ∃ m : Fin 16, ∃ tables : BlockReads, ∃ journals : BlockReads, ∃ v : State, ∃ q : State, ∃ ok : Bool, (s.flag (R.UE_CTL m) F.UE_CTL_EN = false) ∧ (s.takesWork (s.mdCanton m) = true) ∧ (s.get (R.UE_TABLE_CNT m) F.UE_TABLE_CNT_COUNT = 0) ∧ ((s.ue m).burst = none) ∧ (s.ueWritesWait m = false) ∧ ((s.put (R.UE_CTL m) F.UE_CTL_EN 1).setUe m { s.ue m with load := true, shards := [] } = v) ∧ (v.ueRead m (tables ++ journals) (s.base4k (R.UE_SCHED_LO m) (R.UE_SCHED_HI m)) 256 = (q, ok))) ∧
    (∃ s : State, ∃ m : Fin 16, ∃ tables : BlockReads, ∃ journals : BlockReads, (s.flag (R.UE_CTL m) F.UE_CTL_EN = false) ∧ (s.takesWork (s.mdCanton m) = true) ∧ (s.ueWritesWait m = true)) :=
  ⟨⟨(ueSt (journal1 0) id), 15, ([]), ([]), by decide⟩,
   ⟨ueOff, 15, ([]), ([]), (loading ueOff), (((loading ueOff).ueRead 15 [] ((loading ueOff).base4k (R.UE_SCHED_LO 15) (R.UE_SCHED_HI 15)) 256).1), (((loading ueOff).ueRead 15 [] ((loading ueOff).base4k (R.UE_SCHED_LO 15) (R.UE_SCHED_HI 15)) 256).2), by decide +kernel, by decide +kernel, by decide +kernel, by decide +kernel, by decide +kernel, rfl, by decide +kernel⟩,
   ⟨(ueWaits ueOff), 15, ([]), ([]), by decide +kernel⟩⟩

theorem wit_UpdateEngineIsEnabledPausedAndReset_2 :
    (∃ s : State, ∃ m : Fin 16, ∃ tables : BlockReads, ∃ journals : BlockReads, (s.cmdBusy m = true)) ∧
    (∃ s : State, ∃ m : Fin 16, ∃ tables : BlockReads, ∃ journals : BlockReads, (s.cmdBusy m = false) ∧ ((∃ x ∈ (s.ue m).shards, x.j.state = 1 ∨ x.j.state = 2))) ∧
    (∃ s : State, ∃ m : Fin 16, ∃ tables : BlockReads, ∃ journals : BlockReads, (s.cmdBusy m = false) ∧ ((∀ x ∈ (s.ue m).shards, x.j.state ≠ 1 ∧ x.j.state ≠ 2)) ∧ (s.ueWritesWait m = false) ∧ (s.get (R.UE_TABLE_CNT m) F.UE_TABLE_CNT_COUNT = 0)) :=
  ⟨⟨((ueSt (journal1 0) id).put (R.UE_CMDSTAT 15) F.UE_CMDSTAT_BUSY 1), 15, ([]), ([]), by decide⟩,
   ⟨(ueSt running1 id), 15, ([]), ([]), by decide, by decide⟩,
   ⟨(ueSt (journal1 4) id), 15, ([]), ([]), by decide, by decide, by decide, by decide⟩⟩

theorem wit_UpdateEngineIsEnabledPausedAndReset_3 :
    (∃ s : State, ∃ m : Fin 16, ∃ tables : BlockReads, ∃ journals : BlockReads, (s.cmdBusy m = false) ∧ ((∀ x ∈ (s.ue m).shards, x.j.state ≠ 1 ∧ x.j.state ≠ 2)) ∧ (s.ueWritesWait m = true)) ∧
    (∃ s : State, ∃ m : Fin 16, ∃ shard : Fin 16384, ∃ x : Shard, ∃ d : ShardDesc, (s.cmdBusy m = false) ∧ ((s.ue m).norms = []) ∧ (s.cmdShard m shard [0, 3, 4] = some (x, d))) ∧
    (∃ s : State, ∃ m : Fin 16, ∃ reads : BlockReads, ∃ c : UeCmd, ((s.ue m).cmd = some c) ∧ (c.todo = false) ∧ (s.reqWaits c.id = false) ∧ ((c.op = 1 → (s.ue m).recov = []))) :=
  ⟨⟨(ueWaits (ueSt (journal1 4) id)), 15, ([]), ([]), by decide, by decide, by decide⟩,
   ⟨(ueSt (journal1 4) (fun u => { u with landed := [landed1] })), 15, 16383, (shard1 (journal1 4)), desc1, by decide, by decide, by decide⟩,
   ⟨((ueSt (journal1 0) (fun u => { u with cmd := some ⟨4, 16383, 8, false, true, false, 0, 0, 0⟩ })).put (R.UE_CMDSTAT 15) F.UE_CMDSTAT_BUSY 1), 15, ([]), (⟨4, 16383, 8, false, true, false, 0, 0, 0⟩), by decide, by decide, by decide, by decide⟩⟩

theorem wit_UpdateEngineIsEnabledPausedAndReset_4 :
    ∃ s : State, ∃ m : Fin 16, ∃ reads : BlockReads, ∃ c : UeCmd, ((s.ue m).cmd = some c) ∧ (c.todo = false) ∧ (s.reqWaits c.id = false) ∧ ((c.op = 1 → (s.ue m).recov = [])) :=
  ⟨((ueSt (journal1 0) (fun u => { u with cmd := some ⟨4, 16383, 8, false, false, false, 0, 0, 0⟩, refused := [(8, 1)] })).put (R.UE_CMDSTAT 15) F.UE_CMDSTAT_BUSY 1), 15, ([]), (⟨4, 16383, 8, false, false, false, 0, 0, 0⟩), by decide, by decide, by decide, by decide⟩

theorem wit_UpdateEngineCommandsRunOnTheirShards_1 :
    (∃ s : State, ∃ m : Fin 16, ∃ shard : Fin 16384, ∃ reads : BlockReads, ∃ module : BitVec 24, ∃ die : BitVec 8, ∃ c, (s.cmdBusy m = true) ∧ (c ∈ [Instr.ueRederive m shard reads, .ueAudit m shard reads, .ueExport m shard reads, .ueImport m shard ⟨module, die, reads⟩, .ueSnapshot m shard reads, .ueAuditInterval m ⟨shard, reads⟩])) ∧
    (∃ s : State, ∃ m : Fin 16, ∃ shard : Fin 16384, ∃ reads : BlockReads, ∃ module : BitVec 24, ∃ die : BitVec 8, ∃ c, (s.cmdBusy m = false) ∧ (s.cmdShard m shard [0, 3, 4, 5] = none) ∧ (s.flag (R.UE_FAULT m) F.UE_FAULT_VALID = false) ∧ (c ∈ [Instr.ueRederive m shard reads, .ueAudit m shard reads, .ueExport m shard reads, .ueImport m shard ⟨module, die, reads⟩, .ueSnapshot m shard reads])) ∧
    (∃ s : State, ∃ m : Fin 16, ∃ shard : Fin 16384, ∃ reads : BlockReads, ∃ module : BitVec 24, ∃ die : BitVec 8, ∃ x : Shard, ∃ d : ShardDesc, ∃ u : State, ∃ q : State, ∃ ok : Bool, (s.cmdBusy m = false) ∧ (s.cmdShard m shard [0] = some (x, d)) ∧ ((d.src = true → s.unseeded m = false)) ∧ ((s.startCmd m 2 shard).put (R.UE_STATUS m) F.UE_STATUS_SRHOLD 0 = u) ∧ (u.rangesBusy d.masterReads = false) ∧ (u.readBlocks reads (blocksOf d.masterReads) = (q, ok))) :=
  ⟨⟨((ueSt (journal1 0) id).put (R.UE_CMDSTAT 15) F.UE_CMDSTAT_BUSY 1), 15, 16383, ([]), 5, 55, (Instr.ueSnapshot 15 16383 []), by decide, by decide⟩,
   ⟨(ueSt running1 id), 15, 16383, ([]), 5, 55, (Instr.ueImport 15 16383 ⟨5, 55, []⟩), by decide, by decide, by decide, by decide⟩,
   ⟨(ueSt2 id), 15, 16383, ([]), 5, 55, shard2, desc2, (((ueSt2 id).startCmd 15 2 16383).put (R.UE_STATUS 15) F.UE_STATUS_SRHOLD 0), ((((ueSt2 id).startCmd 15 2 16383).put (R.UE_STATUS 15) F.UE_STATUS_SRHOLD 0)), true, by decide +kernel, by decide +kernel, by decide +kernel, rfl, by decide +kernel, reads_stores _ _ _ (by decide +kernel)⟩⟩

theorem wit_UpdateEngineCommandsRunOnTheirShards_2 :
    (∃ s : State, ∃ m : Fin 16, ∃ shard : Fin 16384, ∃ reads : BlockReads, ∃ module : BitVec 24, ∃ die : BitVec 8, ∃ x : Shard, ∃ d : ShardDesc, ∃ u : State, ∃ q : State, ∃ ok : Bool, (s.cmdBusy m = false) ∧ (s.cmdShard m shard [0] = some (x, d)) ∧ ((d.src = true → s.unseeded m = false)) ∧ ((s.startCmd m 2 shard).put (R.UE_STATUS m) F.UE_STATUS_SRHOLD 0 = u) ∧ (u.rangesBusy d.masterReads = false) ∧ (u.readBlocks reads (blocksOf d.masterReads) = (q, ok))) ∧
    (∃ s : State, ∃ m : Fin 16, ∃ shard : Fin 16384, ∃ reads : BlockReads, ∃ module : BitVec 24, ∃ die : BitVec 8, ∃ x : Shard, ∃ d : ShardDesc, ∃ u : State, ∃ q : State, ∃ ok : Bool, (s.cmdBusy m = false) ∧ (s.cmdShard m shard [0] = some (x, d)) ∧ (d.outer = true) ∧ (s.startCmd m 7 shard = u) ∧ (u.rangesBusy d.masterReads = false) ∧ (u.readBlocks reads (blocksOf d.masterReads) = (q, ok))) ∧
    (∃ s : State, ∃ m : Fin 16, ∃ shard : Fin 16384, ∃ reads : BlockReads, ∃ module : BitVec 24, ∃ die : BitVec 8, ∃ x : Shard, ∃ d : ShardDesc, ∃ u : State, ∃ q : State, ∃ ok : Bool, (s.cmdBusy m = false) ∧ (s.cmdShard m shard [0] = some (x, d)) ∧ (d.outer = true) ∧ (s.startCmd m 7 shard = u) ∧ (u.rangesBusy d.masterReads = false) ∧ (u.readBlocks reads (blocksOf d.masterReads) = (q, ok))) :=
  ⟨⟨(shut (ueSt (journal1 0) id)), 15, 16383, ([]), 5, 55, (shard1 (journal1 0)), desc1, (((shut (ueSt (journal1 0) id)).startCmd 15 2 16383).put (R.UE_STATUS 15) F.UE_STATUS_SRHOLD 0), ((((shut (ueSt (journal1 0) id)).startCmd 15 2 16383).put (R.UE_STATUS 15) F.UE_STATUS_SRHOLD 0)), false, by decide +kernel, by decide +kernel, by decide +kernel, rfl, by decide +kernel, reads_shut _ _ _ (by decide +kernel)⟩,
   ⟨(ueSt2 id), 15, 16383, ([]), 5, 55, shard2, desc2, ((ueSt2 id).startCmd 15 7 16383), (((ueSt2 id).startCmd 15 7 16383)), true, by decide +kernel, by decide +kernel, by decide +kernel, rfl, by decide +kernel, reads_stores _ _ _ (by decide +kernel)⟩,
   ⟨(shut (ueSt (journal1 0) id)), 15, 16383, ([]), 5, 55, (shard1 (journal1 0)), desc1, ((shut (ueSt (journal1 0) id)).startCmd 15 7 16383), (((shut (ueSt (journal1 0) id)).startCmd 15 7 16383)), false, by decide +kernel, by decide +kernel, by decide +kernel, rfl, by decide +kernel, reads_shut _ _ _ (by decide +kernel)⟩⟩

theorem wit_UpdateEngineCommandsRunOnTheirShards_3 :
    (∃ s : State, ∃ m : Fin 16, ∃ shard : Fin 16384, ∃ reads : BlockReads, ∃ module : BitVec 24, ∃ die : BitVec 8, ∃ x : Shard, ∃ d : ShardDesc, ∃ u : State, (s.cmdBusy m = false) ∧ (s.cmdShard m shard [0] = some (x, d)) ∧ ((s.setUe m { s.ue m with audit := none }).startCmd m 3 shard = u) ∧ (u.auditWaits m d = true)) ∧
    (∃ s : State, ∃ m : Fin 16, ∃ shard : Fin 16384, ∃ reads : BlockReads, ∃ module : BitVec 24, ∃ die : BitVec 8, ∃ x : Shard, ∃ d : ShardDesc, ∃ u : State, ∃ q : State, ∃ ok : Bool, (s.cmdBusy m = false) ∧ (s.cmdShard m shard [0] = some (x, d)) ∧ ((s.setUe m { s.ue m with audit := none }).startCmd m 3 shard = u) ∧ (u.auditWaits m d = false) ∧ (u.readBlocks reads (blocksOf d.auditReads) = (q, ok))) ∧
    (∃ s : State, ∃ m : Fin 16, ∃ shard : Fin 16384, ∃ reads : BlockReads, ∃ module : BitVec 24, ∃ die : BitVec 8, ∃ x : Shard, ∃ d : ShardDesc, ∃ u : State, ∃ q : State, ∃ ok : Bool, (s.cmdBusy m = false) ∧ (s.cmdShard m shard [0] = some (x, d)) ∧ ((s.setUe m { s.ue m with audit := none }).startCmd m 3 shard = u) ∧ (u.auditWaits m d = false) ∧ (u.readBlocks reads (blocksOf d.auditReads) = (q, ok))) :=
  ⟨⟨auditHeld, 15, 16383, ([]), 5, 55, (shard1 (journal1 0)), desc1, (((auditHeld).setUe 15 { (auditHeld).ue 15 with audit := none }).startCmd 15 3 16383), by decide +kernel, by decide +kernel, rfl, by decide +kernel⟩,
   ⟨(ueSt2 id), 15, 16383, ([]), 5, 55, shard2, desc2, (((ueSt2 id).setUe 15 { (ueSt2 id).ue 15 with audit := none }).startCmd 15 3 16383), (((ueSt2 id).setUe 15 { (ueSt2 id).ue 15 with audit := none }).startCmd 15 3 16383), true, by decide +kernel, by decide +kernel, rfl, by decide +kernel, reads_stores _ _ _ (by decide +kernel)⟩,
   ⟨(shut (ueSt (journal1 0) id)), 15, 16383, ([]), 5, 55, (shard1 (journal1 0)), desc1, (((shut (ueSt (journal1 0) id)).setUe 15 { (shut (ueSt (journal1 0) id)).ue 15 with audit := none }).startCmd 15 3 16383), (((shut (ueSt (journal1 0) id)).setUe 15 { (shut (ueSt (journal1 0) id)).ue 15 with audit := none }).startCmd 15 3 16383), false, by decide +kernel, by decide +kernel, rfl, by decide +kernel, reads_shut _ _ _ (by decide +kernel)⟩⟩

theorem wit_UpdateEngineCommandsRunOnTheirShards_4 :
    (∃ s : State, ∃ m : Fin 16, ∃ shard : Fin 16384, ∃ reads : BlockReads, ∃ module : BitVec 24, ∃ die : BitVec 8, ∃ x : Shard, ∃ d : ShardDesc, (s.cmdBusy m = false) ∧ (s.cmdShard m shard [0] = some (x, d)) ∧ (s.ueTakes m = true) ∧ (s.get (R.UE_AUDIT_CTL m) F.UE_AUDIT_CTL_EVERY ≠ 0) ∧ ((s.ue m).audited = []) ∧ (s.get (R.UE_AUDIT_CTL m) F.UE_AUDIT_CTL_EVERY ≤ x.j.istep) ∧ (s.auditWaits m d = false) ∧ ((s.ue m).audit = none)) ∧
    (∃ s : State, ∃ m : Fin 16, ∃ shard : Fin 16384, ∃ reads : BlockReads, ∃ module : BitVec 24, ∃ die : BitVec 8, ∃ x : Shard, ∃ d : ShardDesc, ∃ q : State, ∃ n : Nat, (s.cmdBusy m = false) ∧ (s.cmdShard m shard [0] = some (x, d)) ∧ (s.ueTakes m = true) ∧ (s.get (R.UE_AUDIT_CTL m) F.UE_AUDIT_CTL_EVERY ≠ 0) ∧ ((s.ue m).audited = []) ∧ (s.get (R.UE_AUDIT_CTL m) F.UE_AUDIT_CTL_EVERY ≤ x.j.istep) ∧ (s.auditWaits m d = false) ∧ ((s.ue m).audit = some x.idx) ∧ ((s.setUe m { s.ue m with audit := none }).readBlocks reads (blocksOf d.auditReads) = (q, true)) ∧ ((List.range d.nsq).foldl (fun n k => n + s.auditSquare d k) 0 = n)) ∧
    (∃ s : State, ∃ m : Fin 16, ∃ shard : Fin 16384, ∃ reads : BlockReads, ∃ module : BitVec 24, ∃ die : BitVec 8, ∃ x : Shard, ∃ d : ShardDesc, ∃ u : State, ∃ q : State, ∃ b : CmdBlock, (s.cmdBusy m = false) ∧ (s.cmdShard m shard [0] = some (x, d)) ∧ (s.startCmd m 4 shard = u) ∧ (u.rangesBusy [(s.cmdArg m, 64)] = false) ∧ (u.ueRead m reads (s.cmdArg m) 64 = (q, true)) ∧ (s.cmdBlock (s.cmdArg m) = b) ∧ (b.chan = 1) ∧ (s.released (s.mdCanton m) d x.j b.slot = false) ∧ (s.flag (R.UE_FAULT m) F.UE_FAULT_VALID = false)) :=
  ⟨⟨(audits id), 15, 16383, ([]), 5, 55, (shard1 (journal1 0)), desc1, by decide +kernel⟩,
   ⟨(audits2 (fun u => { u with audit := some 16383 })), 15, 16383, ([]), 5, 55, shard2, desc2, (((audits2 (fun u => { u with audit := some 16383 })).setUe 15 { (audits2 id).ue 15 with audit := none })), ((List.range desc2.nsq).foldl (fun n k => n + (audits2 (fun u => { u with audit := some 16383 })).auditSquare desc2 k) 0), by decide +kernel, by decide +kernel, by decide +kernel, by decide +kernel, by decide +kernel, by decide +kernel, by decide +kernel, by decide +kernel, reads_stores _ _ _ (by decide +kernel), rfl⟩,
   ⟨(argued 1 256 []), 15, 16383, ([]), 5, 55, (shard1 (journal1 0)), desc1, ((argued 1 256 []).startCmd 15 4 16383), ((((argued 1 256 []).startCmd 15 4 16383).ueRead 15 [] 0x3F00000 64).1), (⟨0x3F00000, 0x3F10000, 0, 1, 9, 5, 1, 256⟩), by decide +kernel, by decide +kernel, rfl, by decide +kernel⟩⟩

theorem wit_UpdateEngineCommandsRunOnTheirShards_5 :
    ∃ s : State, ∃ m : Fin 16, ∃ shard : Fin 16384, ∃ reads : BlockReads, ∃ module : BitVec 24, ∃ die : BitVec 8, ∃ x : Shard, ∃ d : ShardDesc, ∃ u : State, ∃ q : State, ∃ b : CmdBlock, ∃ key : List Byte, ∃ v : State, ∃ w : State, ∃ n : Nat, ∃ k : Nat, ∃ stop : ExportEnd, (s.cmdBusy m = false) ∧ (s.cmdShard m shard [0] = some (x, d)) ∧ (s.startCmd m 4 shard = u) ∧ (u.rangesBusy [(s.cmdArg m, 64)] = false) ∧ (u.ueRead m reads (s.cmdArg m) 64 = (q, true)) ∧ (s.cmdBlock (s.cmdArg m) = b) ∧ (b.chan = 0) ∧ (b.kinds < 64) ∧ (q.slotKey (s.mdCanton m) b.slot = some key) ∧ ((((q.exportPlan d x.j b).drop (q.exportFrom m shard b)).any (fun p => p.blocks.any q.blockBusy)) = false) ∧ (State.exportRun m d x.j b key reads ((q.exportPlan d x.j b).drop (q.exportFrom m shard b)) q.newReq 0 0 = (v, n, k, stop)) ∧ (stop ≠ .bad) ∧ (v.setUe m { v.ue m with cont := (if stop == .limit then some ⟨shard, b.ckpt, b.chan, b.kinds, q.exportFrom m shard b + k, b.seq + k⟩ else none) } = w) ∧ (w.checkRange (.updateEngine m) true (b.mpa + 32) 12 = .ok) :=
  ⟨(argued 0 1 []), 15, 16383, ([]), 5, 55, (shard1 (journal1 0)), desc1, ((argued 0 1 []).startCmd 15 4 16383), ((((argued 0 1 []).startCmd 15 4 16383).ueRead 15 [] 0x3F00000 64).1), (⟨0x3F00000, 0x3F10000, 0, 1, 9, 5, 0, 1⟩), (List.replicate 32 7), ((State.exportRun 15 desc1 (journal1 0) ⟨0x3F00000, 0x3F10000, 0, 1, 9, 5, 0, 1⟩ (List.replicate 32 7) [] (((((argued 0 1 []).startCmd 15 4 16383).ueRead 15 [] 0x3F00000 64).1.exportPlan desc1 (journal1 0) ⟨0x3F00000, 0x3F10000, 0, 1, 9, 5, 0, 1⟩).drop ((((argued 0 1 []).startCmd 15 4 16383).ueRead 15 [] 0x3F00000 64).1.exportFrom 15 16383 ⟨0x3F00000, 0x3F10000, 0, 1, 9, 5, 0, 1⟩)) (((argued 0 1 []).startCmd 15 4 16383).ueRead 15 [] 0x3F00000 64).1.newReq 0 0).1), (((State.exportRun 15 desc1 (journal1 0) ⟨0x3F00000, 0x3F10000, 0, 1, 9, 5, 0, 1⟩ (List.replicate 32 7) [] (((((argued 0 1 []).startCmd 15 4 16383).ueRead 15 [] 0x3F00000 64).1.exportPlan desc1 (journal1 0) ⟨0x3F00000, 0x3F10000, 0, 1, 9, 5, 0, 1⟩).drop ((((argued 0 1 []).startCmd 15 4 16383).ueRead 15 [] 0x3F00000 64).1.exportFrom 15 16383 ⟨0x3F00000, 0x3F10000, 0, 1, 9, 5, 0, 1⟩)) (((argued 0 1 []).startCmd 15 4 16383).ueRead 15 [] 0x3F00000 64).1.newReq 0 0).1).setUe 15 { ((State.exportRun 15 desc1 (journal1 0) ⟨0x3F00000, 0x3F10000, 0, 1, 9, 5, 0, 1⟩ (List.replicate 32 7) [] (((((argued 0 1 []).startCmd 15 4 16383).ueRead 15 [] 0x3F00000 64).1.exportPlan desc1 (journal1 0) ⟨0x3F00000, 0x3F10000, 0, 1, 9, 5, 0, 1⟩).drop ((((argued 0 1 []).startCmd 15 4 16383).ueRead 15 [] 0x3F00000 64).1.exportFrom 15 16383 ⟨0x3F00000, 0x3F10000, 0, 1, 9, 5, 0, 1⟩)) (((argued 0 1 []).startCmd 15 4 16383).ueRead 15 [] 0x3F00000 64).1.newReq 0 0).1).ue 15 with cont := some ⟨16383, 1, 0, 1, 0, 9⟩ }), ((State.exportRun 15 desc1 (journal1 0) ⟨0x3F00000, 0x3F10000, 0, 1, 9, 5, 0, 1⟩ (List.replicate 32 7) [] (((((argued 0 1 []).startCmd 15 4 16383).ueRead 15 [] 0x3F00000 64).1.exportPlan desc1 (journal1 0) ⟨0x3F00000, 0x3F10000, 0, 1, 9, 5, 0, 1⟩).drop ((((argued 0 1 []).startCmd 15 4 16383).ueRead 15 [] 0x3F00000 64).1.exportFrom 15 16383 ⟨0x3F00000, 0x3F10000, 0, 1, 9, 5, 0, 1⟩)) (((argued 0 1 []).startCmd 15 4 16383).ueRead 15 [] 0x3F00000 64).1.newReq 0 0).2.1), ((State.exportRun 15 desc1 (journal1 0) ⟨0x3F00000, 0x3F10000, 0, 1, 9, 5, 0, 1⟩ (List.replicate 32 7) [] (((((argued 0 1 []).startCmd 15 4 16383).ueRead 15 [] 0x3F00000 64).1.exportPlan desc1 (journal1 0) ⟨0x3F00000, 0x3F10000, 0, 1, 9, 5, 0, 1⟩).drop ((((argued 0 1 []).startCmd 15 4 16383).ueRead 15 [] 0x3F00000 64).1.exportFrom 15 16383 ⟨0x3F00000, 0x3F10000, 0, 1, 9, 5, 0, 1⟩)) (((argued 0 1 []).startCmd 15 4 16383).ueRead 15 [] 0x3F00000 64).1.newReq 0 0).2.2.1), .limit, by decide +kernel, by decide +kernel, rfl, by decide +kernel⟩

theorem wit_UpdateEngineCommandsRunOnTheirShards_6 :
    (∃ s : State, ∃ m : Fin 16, ∃ shard : Fin 16384, ∃ reads : BlockReads, ∃ module : BitVec 24, ∃ die : BitVec 8, ∃ c : UeCmd, ∃ x : Shard, ∃ d : ShardDesc, ∃ q : State, ∃ n : Nat, ((s.ue m).cmd = some c) ∧ (c.op = 3) ∧ (c.todo = true) ∧ (s.shard? m c.shard = some x) ∧ (x.desc = some d) ∧ ((∀ l ∈ (s.ue m).landed, l.step.isSome = true)) ∧ (s.auditWaits m d = false) ∧ ((if (s.ue m).audit = some x.idx then (s, true) else s.readBlocks reads (blocksOf d.auditReads)) = (q, true)) ∧ ((List.range d.nsq).foldl (fun n k => n + s.auditSquare d k) 0 = n)) ∧
    (∃ s : State, ∃ m : Fin 16, ∃ shard : Fin 16384, ∃ reads : BlockReads, ∃ module : BitVec 24, ∃ die : BitVec 8, ∃ c : UeCmd, ∃ x : Shard, ∃ d : ShardDesc, ∃ q : State, ∃ n : Nat, ((s.ue m).cmd = some c) ∧ (c.op = 3) ∧ (c.todo = true) ∧ (s.shard? m c.shard = some x) ∧ (x.desc = some d) ∧ ((∀ l ∈ (s.ue m).landed, l.step.isSome = true)) ∧ (s.auditWaits m d = false) ∧ ((if (s.ue m).audit = some x.idx then (s, true) else s.readBlocks reads (blocksOf d.auditReads)) = (q, true)) ∧ ((List.range d.nsq).foldl (fun n k => n + s.auditSquare d k) 0 = n)) ∧
    (∃ s : State, ∃ m : Fin 16, ∃ shard : Fin 16384, ∃ reads : BlockReads, ∃ module : BitVec 24, ∃ die : BitVec 8, ∃ x : Shard, ∃ d : ShardDesc, ∃ u : State, ∃ q : State, ∃ p : State, ∃ v : State, ∃ b : CmdBlock, ∃ h : List Byte, ∃ key : List Byte, ∃ nonce : List Byte, ∃ text : List Byte, (s.cmdBusy m = false) ∧ (s.cmdShard m shard [0, 3, 4, 5] = some (x, d)) ∧ (s.startCmd m 5 shard module.toNat die.toNat = u) ∧ (u.rangesBusy [(s.cmdArg m, 64)] = false) ∧ (u.ueRead m reads (s.cmdArg m) 64 = (q, true)) ∧ (s.cmdBlock (s.cmdArg m) = b) ∧ (q.rangesBusy [(b.addr, 128)] = false) ∧ (q.ueRead m reads b.addr 128 = (p, true)) ∧ (s.bytes b.addr 128 = h) ∧ (p.rangesBusy [(b.addr + 128, fieldAt h 96 8 + 16)] = false) ∧ (p.ueRead m reads (b.addr + 128) (fieldAt h 96 8 + 16) = (v, true)) ∧ (v.slotKey (s.mdCanton m) b.slot = some key) ∧ (fieldAt h 4 4 = v.jobs.getD (s.mdCanton m) 0) ∧ (fieldAt h 0 2 = 1) ∧ (leBytes 3 module.toNat ++ leBytes 1 die.toNat ++ leBytes 4 (fieldAt h 20 4) ++ List.replicate 4 0 = nonce) ∧ (s.bytes (b.addr + 128) (fieldAt h 96 8 + 16) = text)) :=
  ⟨⟨running2, 15, 16383, ([]), 5, 55, (⟨3, 16383, 0, false, false, true, 0, 0, 0⟩), shard2, desc2, ((running2)), ((List.range desc2.nsq).foldl (fun n k => n + (running2).auditSquare desc2 k) 0), by decide +kernel, by decide +kernel, by decide +kernel, by decide +kernel, by decide +kernel, by decide +kernel, by decide +kernel, (if_neg (by decide +kernel)).trans (reads_stores _ _ _ (by decide +kernel)), rfl⟩,
   ⟨auditing2, 15, 16383, ([]), 5, 55, (⟨3, 16383, 0, false, false, true, 0, 0, 0⟩), shard2, desc2, ((auditing2)), ((List.range desc2.nsq).foldl (fun n k => n + (auditing2).auditSquare desc2 k) 0), by decide +kernel, by decide +kernel, by decide +kernel, by decide +kernel, by decide +kernel, by decide +kernel, by decide +kernel, if_pos (by decide +kernel), rfl⟩,
   ⟨(argued 0 1 [1, 0, 5]), 15, 16383, ([]), 5, 55, (shard1 (journal1 0)), desc1, ((argued 0 1 [1, 0, 5]).startCmd 15 5 16383 5 55), ((((argued 0 1 [1, 0, 5]).startCmd 15 5 16383 5 55).ueRead 15 [] 0x3F00000 64).1), (((((argued 0 1 [1, 0, 5]).startCmd 15 5 16383 5 55).ueRead 15 [] 0x3F00000 64).1.ueRead 15 [] 0x3F10000 128).1), ((((((argued 0 1 [1, 0, 5]).startCmd 15 5 16383 5 55).ueRead 15 [] 0x3F00000 64).1.ueRead 15 [] 0x3F10000 128).1.ueRead 15 [] 0x3F10080 16).1), (⟨0x3F00000, 0x3F10000, 0, 1, 9, 5, 0, 1⟩), ([1, 0, 5] ++ List.replicate 125 0), (List.replicate 32 7), ([5, 0, 0, 55] ++ List.replicate 8 0), (List.replicate 16 0), by decide +kernel, by decide +kernel, rfl, by decide +kernel⟩⟩
/-- A descriptor of an operation on 16 FP32-wide bytes, source and destination in die 39's store. -/
def gdesc (op : Nat) : GDesc :=
  { opseq := 7, op := op, red := 0, dtype := 0, opb := op, sk := 0, dk := 0, urgent := false, outer := false, len := 16,
    trig := 0, tthresh := 0, src := lsBase 39 + 64, dst := lsBase 39 + 4096, srcmap := 0, dstmap := 0, root := 0, done := 0,
    doneinc := 0, spare := false }
def gop (d : GDesc) : GOp := ⟨65535, d, [], [], [], [], [], false, false, false, 0, [], none⟩
def gpiece (gather : Bool) (op psn : Nat) : Piece :=
  { job := 0, grp := 4095, gather := gather, minus := false, poison := false, urgent := false, opseq := 7, psn := psn, opb := op,
    stg := 0, inv := false, ovf := false, len := 16, offset := 0, srcidx := 1, data := [0, 0, 0, 0x40] }
/-- Group 4095 of canton 0 in a state, two members on one ring, NSLOT 4, its ring of 4 descriptors at 0x100000. -/
def grouped (st : Nat) (x : Group) : State :=
  let s := withRegs dram2 [(R.GC_STATUS 4095, st), (R.GC_MEMB 4095, 1), (R.GC_SUCC 4095, 1), (R.GC_PRED 4095, 1),
    (R.GC_QBASE_LO 4095, 0x100000), (R.GC_QHEAD 4095, 65535), (R.GC_PATIENCE 4095, 8)]
  let s := (s.put (R.GC_SLOT 4095) F.GC_SLOT_NSLOT 4).put (R.GC_QCTL 4095) F.GC_QCTL_SIZE 2
  { s with groups := [(4095, x)] }
def ungrouped (n : Nat) : State := { (grouped 0 Group.reset).put (R.GC_SLOT 4095) F.GC_SLOT_NSLOT n with groups := [] }
def staged (x : Group) : State :=
  let s := ((grouped 1 x).put (R.GC_STATUS 4095) F.GC_STATUS_STAGED 1).put (R.GC_STAGE 4095) F.GC_STAGE_MD 15
  s.setUe 15 { s.ue 15 with stagedGrans := [3, 4] }
def busy1 : Group := { Group.reset with ops := [gop (gdesc 1)] }
def ringed1 (r : GRing) : Group := { Group.reset with rings := (Group.reset.rings).set 5 r }
/-- An operation that has done all it owes, with a DONE pennant. -/
def doneOp : GOp := { gop { gdesc 2 with done := lsBase 39 + 128, doneinc := 3 } with written := [(0, 16)], closing := some 0 }
def gather1 : Piece := gpiece true 2 0
/-- A NOP descriptor with OPSEQ 7, as bytes in the ring's last place. -/
def nopBytes : List Byte := leBytes 2 7 ++ [6]
def fetching (b : List Byte) : State := withMem (grouped 1 { Group.reset with fetch := 65535, expect := 7, finished := [65535] }) (0x100000 + 384) b
def combining (u : Fin 7) (q : List Piece) (op : Nat) (src : List Byte) : State :=
  withMem (grouped 2 { busy1 with ops := [gop (gdesc op)], rings := (busy1.rings).set u { GRing.reset with waiting := q } }) (lsBase 39 + 64) src
/-- A NOP waiting in a queue that lies outside DRAM. -/
def nopOut : State := ((grouped 1 { Group.reset with fetched := [(65535, gdesc 6)] }).wr (R.GC_QBASE_LO 4095) 0xFFFFF000).wr (R.GC_QBASE_HI 4095) 0xFFFF

theorem wit_GroupCommandsMoveAGroupsState_1 :
    (∃ s : State, ∃ k : Fin 8, ∃ g : Fin 4096, (s.gState g = 0) ∧ (s.takesWork k = true) ∧ (((s.shape g).axis = true → (s.boxIndex g).isSome = true)) ∧ ((∀ l, l < 6 → s.get (R.GC_SLOT g) F.GC_SLOT_NSLOT ≤ s.freeSlots k l))) ∧
    (∃ s : State, ∃ k : Fin 8, ∃ g : Fin 4096, ∃ gs : List Nat, (s.gState g = 0) ∧ (s.takesWork k = true) ∧ (((s.shape g).axis = true → (s.boxIndex g).isSome = true)) ∧ ((∃ l, l < 6 ∧ s.freeSlots k l < s.get (R.GC_SLOT g) F.GC_SLOT_NSLOT)) ∧ ((s.ue (s.stageMd g)).freeGrans (s.get (R.GC_STAGE g) F.GC_STAGE_GRAN) = some gs) ∧ (s.mdCanton (s.stageMd g) = k.val)) ∧
    (∃ s : State, ∃ k : Fin 8, ∃ g : Fin 4096, ((s.gState g ≠ 0 ∨ s.takesWork k = false ∨ ((s.shape g).axis = true ∧ s.boxIndex g = none)))) ∧
    (∃ s : State, ∃ k : Fin 8, ∃ g : Fin 4096, ∃ c, ((s.grp g = none ∨ s.holds k g = false)) ∧ (c ∈ [Instr.groupClaim k g, .groupResume k g, .groupAbort k g, .groupReset k g, .groupFree k g])) ∧
    (∃ s : State, ∃ k : Fin 8, ∃ g : Fin 4096, ∃ c, ((s.grp g = none ∨ s.holds k g = false)) ∧ (c ∈ [Instr.groupClaim k g, .groupResume k g, .groupAbort k g, .groupReset k g, .groupFree k g])) ∧
    (∃ s : State, ∃ k : Fin 8, ∃ g : Fin 4096, ∃ x : Group, (s.grp g = some x) ∧ (s.holds k g = true) ∧ (s.gState g = 1) ∧ (x.ops = []) ∧ (s.flag (R.GC_STATUS g) F.GC_STATUS_STAGED = true) ∧ ((∀ l, l < 6 → s.get (R.GC_SLOT g) F.GC_SLOT_NSLOT ≤ s.freeSlots k l))) :=
  ⟨⟨(ungrouped 1024), 0, 4095, by decide, by decide, by decide, by decide⟩,
   ⟨(((ungrouped 1025).put (R.GC_STAGE 4095) F.GC_STAGE_MD 15).put (R.GC_STAGE 4095) F.GC_STAGE_GRAN 2), 0, 4095, ([0, 1]), by decide +kernel, by decide +kernel, by decide +kernel, ⟨5, by decide⟩, by decide +kernel⟩,
   ⟨(grouped 1 Group.reset), 0, 4095, by decide⟩,
   ⟨(grouped 1 Group.reset), 7, 4095, (Instr.groupReset 7 4095), by decide, by decide⟩,
   ⟨(ungrouped 4), 0, 4095, (Instr.groupFree 0 4095), by decide, by decide⟩,
   ⟨(staged { Group.reset with grans := [3] }), 0, 4095, ({ Group.reset with grans := [3] }), by decide, by decide, by decide, by decide, by decide, by decide⟩⟩

theorem wit_GroupCommandsMoveAGroupsState_2 :
    (∃ s : State, ∃ k : Fin 8, ∃ g : Fin 4096, ∃ x : Group, (s.grp g = some x) ∧ (s.holds k g = true) ∧ (s.gState g < 4)) ∧
    (∃ s : State, ∃ k : Fin 8, ∃ g : Fin 4096, ∃ x : Group, (s.grp g = some x) ∧ (s.holds k g = true) ∧ (s.gState g < 4)) ∧
    (∃ s : State, ∃ k : Fin 8, ∃ g : Fin 4096, ∃ x : Group, (s.grp g = some x) ∧ (s.holds k g = true)) ∧
    (∃ s : State, ∃ k : Fin 8, ∃ g : Fin 4096, ∃ x : Group, (s.grp g = some x) ∧ (s.holds k g = true) ∧ (3 ≤ s.gState g)) ∧
    (∃ s : State, ∃ k : Fin 8, ∃ g : Fin 4096, ∃ x : Group, (s.grp g = some x) ∧ (s.holds k g = true) ∧ (x.ops = [])) :=
  ⟨⟨(grouped 3 (ringed1 { GRing.reset with unacked := [(1, gpiece false 1 9)] })), 0, 4095, (ringed1 { GRing.reset with unacked := [(1, gpiece false 1 9)] }), by decide, by decide, by decide⟩,
   ⟨(grouped 3 busy1), 0, 4095, busy1, by decide, by decide, by decide⟩,
   ⟨(grouped 2 busy1), 0, 4095, busy1, by decide, by decide⟩,
   ⟨(grouped 5 busy1), 0, 4095, busy1, by decide, by decide, by decide⟩,
   ⟨(((grouped 1 Group.reset).put (R.GC_SLOT 4095) F.GC_SLOT_GRANTED 1).put (R.CL_SLOTS 5 0) F.CL_SLOTS_CLAIMED 9), 0, 4095, Group.reset, by decide, by decide, by decide⟩⟩

theorem wit_CommunicationQueuesRunInOrder_1 :
    (∃ s : State, ∃ k : Fin 8, ∃ g : Fin 4096, ∃ tail : BitVec 16, ∃ n : Nat, ((tail.toNat + 2 ^ 16 - s.get (R.GC_QHEAD g) F.GC_QHEAD_INDEX) % 2 ^ 16 = n) ∧ ((s.gState g = 0 ∨ (s.gCanton g = k.val ∧ n ≤ 2 ^ s.get (R.GC_QCTL g) F.GC_QCTL_SIZE)))) ∧
    (∃ s : State, ∃ k : Fin 8, ∃ g : Fin 4096, ∃ tail : BitVec 16, ∃ n : Nat, ((tail.toNat + 2 ^ 16 - s.get (R.GC_QHEAD g) F.GC_QHEAD_INDEX) % 2 ^ 16 = n) ∧ (s.gState g ≠ 0) ∧ (s.gCanton g = k.val) ∧ (2 ^ s.get (R.GC_QCTL g) F.GC_QCTL_SIZE < n)) ∧
    (∃ s : State, ∃ k : Fin 8, ∃ g : Fin 4096, ∃ tail : BitVec 16, ∃ n : Nat, ((tail.toNat + 2 ^ 16 - s.get (R.GC_QHEAD g) F.GC_QHEAD_INDEX) % 2 ^ 16 = n) ∧ (s.gState g ≠ 0) ∧ (s.gCanton g ≠ k.val)) ∧
    (∃ s : State, ∃ g : Fin 4096, ∃ x : Group, ∃ d : GDesc, ∃ r : Requester, (s.grp g = some x) ∧ (x.fetch ≠ s.get (R.GC_QTAIL g) F.GC_QTAIL_INDEX) ∧ (s.gState g < 4) ∧ (r = .hdma ⟨s.gCanton g % 8, Nat.mod_lt _ (by decide)⟩) ∧ (parseGDesc (s.bytes (s.descAt g x.fetch) 80) = d) ∧ (s.checkRange r false (s.descAt g x.fetch) 128 = .ok) ∧ (s.descOk g d = true) ∧ (d.opseq = x.expect)) ∧
    (∃ s : State, ∃ g : Fin 4096, ∃ x : Group, ∃ d : GDesc, ∃ r : Requester, (s.grp g = some x) ∧ (x.fetch ≠ s.get (R.GC_QTAIL g) F.GC_QTAIL_INDEX) ∧ (s.gState g < 4) ∧ (r = .hdma ⟨s.gCanton g % 8, Nat.mod_lt _ (by decide)⟩) ∧ (parseGDesc (s.bytes (s.descAt g x.fetch) 80) = d) ∧ (s.checkRange r false (s.descAt g x.fetch) 128 ≠ .ok ∨ s.descOk g d = false ∨ d.opseq ≠ x.expect)) ∧
    (∃ s : State, ∃ g : Fin 4096, ∃ x : Group, ∃ d : GDesc, ∃ r : Requester, (s.grp g = some x) ∧ (x.fetch ≠ s.get (R.GC_QTAIL g) F.GC_QTAIL_INDEX) ∧ (s.gState g < 4) ∧ (r = .hdma ⟨s.gCanton g % 8, Nat.mod_lt _ (by decide)⟩) ∧ (parseGDesc (s.bytes (s.descAt g x.fetch) 80) = d) ∧ (s.checkRange r false (s.descAt g x.fetch) 128 ≠ .ok ∨ s.descOk g d = false ∨ d.opseq ≠ x.expect)) :=
  ⟨⟨(grouped 1 Group.reset), 0, 4095, 3, 4, by decide, by decide⟩,
   ⟨(grouped 1 Group.reset), 0, 4095, 4, 5, by decide, by decide, by decide, by decide⟩,
   ⟨(grouped 1 Group.reset), 7, 4095, 4, 5, by decide, by decide, by decide⟩,
   ⟨(fetching nopBytes), 4095, ({ Group.reset with fetch := 65535, expect := 7, finished := [65535] }), (parseGDesc (nopBytes ++ List.replicate 77 0)), (.hdma 0), by decide +kernel⟩,
   ⟨(fetching [8, 0, 6]), 4095, ({ Group.reset with fetch := 65535, expect := 7, finished := [65535] }), (parseGDesc ([8, 0, 6] ++ List.replicate 77 0)), (.hdma 0), by decide +kernel, by decide +kernel, by decide +kernel, by decide +kernel, by decide +kernel, Or.inr (Or.inr (by decide))⟩,
   ⟨((fetching []).wr (R.GC_QBASE_LO 4095) 0x40000000), 4095, ({ Group.reset with fetch := 65535, expect := 7, finished := [65535] }), (parseGDesc (List.replicate 80 0)), (.hdma 0), by decide +kernel, by decide +kernel, by decide +kernel, by decide +kernel, by decide +kernel, Or.inl (by decide)⟩⟩

theorem wit_CommunicationQueuesRunInOrder_2 :
    (∃ s : State, ∃ g : Fin 4096, ∃ x : Group, ∃ i : Nat, ∃ n : Nat, ∃ d : GDesc, ∃ rest : List (Nat × GDesc), (s.grp g = some x) ∧ (x.fetched = (i, d) :: rest) ∧ (s.get (R.GC_QCTL g) F.GC_QCTL_TPOLL = n) ∧ (d.trig ≠ 0) ∧ (x.polledAt + 16 * (if n = 0 then 256 else n) * 3 ≤ s.now) ∧ (s.checkRange (.hdma ⟨s.gCanton g % 8, Nat.mod_lt _ (by decide)⟩) false d.trig 8 = .ok)) ∧
    (∃ s : State, ∃ g : Fin 4096, ∃ x : Group, ∃ i : Nat, ∃ n : Nat, ∃ d : GDesc, ∃ rest : List (Nat × GDesc), (s.grp g = some x) ∧ (x.fetched = (i, d) :: rest) ∧ ((s.gState g = 1 ∨ s.gState g = 2)) ∧ (s.takesWork (s.gCanton g) = true) ∧ (x.ops.length < s.get (R.GC_CFG g) F.GC_CFG_OUTS + 1) ∧ ((d.trig = 0 ∨ x.fired = true)) ∧ (d.op ≠ 6)) ∧
    (∃ s : State, ∃ g : Fin 4096, ∃ x : Group, ∃ i : Nat, ∃ n : Nat, ∃ d : GDesc, ∃ rest : List (Nat × GDesc), (s.grp g = some x) ∧ (x.fetched = (i, d) :: rest) ∧ ((s.gState g = 1 ∨ s.gState g = 2)) ∧ (s.takesWork (s.gCanton g) = true) ∧ (x.ops.length < s.get (R.GC_CFG g) F.GC_CFG_OUTS + 1) ∧ ((d.trig = 0 ∨ x.fired = true)) ∧ (d.op = 6) ∧ ((∀ o ∈ x.ops, o.d.opseq ≠ d.opseq)) ∧ ((∀ k, s.placeOf (s.descAt g i + 80) ≠ .dram k))) ∧
    (∃ s : State, ∃ g : Fin 4096, ∃ x : Group, ∃ i : Nat, ∃ n : Nat, ∃ d : GDesc, ∃ rest : List (Nat × GDesc), (s.grp g = some x) ∧ (x.fetched = (i, d) :: rest) ∧ ((s.gState g = 1 ∨ s.gState g = 2)) ∧ (s.takesWork (s.gCanton g) = true) ∧ (x.ops.length < s.get (R.GC_CFG g) F.GC_CFG_OUTS + 1) ∧ ((d.trig = 0 ∨ x.fired = true)) ∧ (d.op = 6) ∧ ((∀ o ∈ x.ops, o.d.opseq ≠ d.opseq)) ∧ ((∃ k, s.placeOf (s.descAt g i + 80) = .dram k)) ∧ ((s.channelOf (s.descAt g i + 80)).isSome = true)) ∧
    (∃ s : State, ∃ u : State, ∃ g : Fin 4096, ∃ opseq : BitVec 16, ∃ x : Group, ∃ o : GOp, (s.lagSync g = u) ∧ (u.grp g = some x) ∧ (x.ops.find? (fun p => p.d.opseq == opseq.toNat) = some o) ∧ (u.opDone g x o = true) ∧ (o.closing = none) ∧ ((∃ k, u.placeOf (u.descAt g o.idx + 80) = .dram k)) ∧ ((u.channelOf (u.descAt g o.idx + 80)).isSome = true)) ∧
    (∃ s : State, ∃ u : State, ∃ g : Fin 4096, ∃ opseq : BitVec 16, ∃ x : Group, ∃ o : GOp, ∃ id : Nat, (s.lagSync g = u) ∧ (u.grp g = some x) ∧ (x.ops.find? (fun p => p.d.opseq == opseq.toNat) = some o) ∧ (u.opDone g x o = true) ∧ (o.closing = some id) ∧ (u.reqWaits id = false) ∧ ((o.d.done ≠ 0 → ∃ d j, u.placeOf o.d.done = .cd d j ∧ (u.cd (fin40 d)).coversWindow j 8 = false ∧ u.poisoned o.d.done 8 = false))) :=
  ⟨⟨({ withMem (grouped 1 { Group.reset with fetched := [(65535, { gdesc 1 with trig := lsBase 39 + 8, tthresh := 5 })] }) (lsBase 39 + 8) [5] with now := 12288 }), 4095, ({ Group.reset with fetched := [(65535, { gdesc 1 with trig := lsBase 39 + 8, tthresh := 5 })] }), 65535, 16, ({ gdesc 1 with trig := lsBase 39 + 8, tthresh := 5 }), ([]), by decide, by decide, by decide, by decide, by decide, by decide⟩,
   ⟨(grouped 1 { Group.reset with fetched := [(65535, gdesc 1)] }), 4095, ({ Group.reset with fetched := [(65535, gdesc 1)] }), 65535, 0, (gdesc 1), ([]), by decide, by decide, by decide, by decide, by decide, by decide, by decide⟩,
   ⟨nopOut, 4095, ({ Group.reset with fetched := [(65535, gdesc 6)] }), 65535, 0, (gdesc 6), ([]), by decide, by decide, by decide, by decide, by decide, by decide, by decide, by decide, by have e : nopOut.placeOf (nopOut.descAt 4095 65535 + 80) = .reserved := (by decide +kernel); intro k h; exact absurd (e.symm.trans h) (by intro q; cases q)⟩,
   ⟨(grouped 1 { Group.reset with fetched := [(65535, gdesc 6)] }), 4095, ({ Group.reset with fetched := [(65535, gdesc 6)] }), 65535, 0, (gdesc 6), ([]), by decide +kernel, by decide +kernel, by decide +kernel, by decide +kernel, by decide +kernel, by decide +kernel, by decide +kernel, by decide +kernel, ⟨0, by decide +kernel⟩, by decide +kernel⟩,
   ⟨(grouped 2 { Group.reset with ops := [{ doneOp with closing := none }] }), ((grouped 2 { Group.reset with ops := [{ doneOp with closing := none }] }).lagSync 4095), 4095, 7, ({ Group.reset with ops := [{ doneOp with closing := none }] }), ({ doneOp with closing := none }), rfl, by decide +kernel, by decide +kernel, by decide +kernel, by decide +kernel, ⟨0, by decide +kernel⟩, by decide +kernel⟩,
   ⟨(grouped 2 { Group.reset with ops := [doneOp] }), ((grouped 2 { Group.reset with ops := [doneOp] }).lagSync 4095), 4095, 7, ({ Group.reset with ops := [doneOp] }), doneOp, 0, rfl, by decide +kernel, by decide +kernel, by decide +kernel, by decide +kernel, by decide +kernel, fun _ => ⟨39, 128, by decide +kernel, by decide +kernel, by decide +kernel⟩⟩⟩

theorem wit_CommunicationQueuesRunInOrder_3 :
    (∃ s : State, ∃ u : State, ∃ g : Fin 4096, ∃ opseq : BitVec 16, ∃ x : Group, ∃ o : GOp, (s.lagSync g = u) ∧ (u.grp g = some x) ∧ (x.ops.find? (fun p => p.d.opseq == opseq.toNat) = some o) ∧ (u.opDone g x o = false)) ∧
    (∃ s : State, ∃ u : State, ∃ g : Fin 4096, ∃ x : Group, (s.lagSync g = u) ∧ (u.grp g = some x) ∧ (x.ops ≠ []) ∧ (u.patience g ≠ 0) ∧ (x.progressAt + u.patience g ≤ u.now) ∧ (u.gState g < 3)) ∧
    (∃ s : State, ∃ g : Fin 4096, ∃ x : Group, ∃ opseqs : List Nat, (s.grp g = some x) ∧ ((∀ q ∈ opseqs, q ∈ x.aborted))) ∧
    (∃ s : State, ∃ g : Fin 4096, ∃ x : Group, ∃ opseqs : List Nat, (s.grp g = some x) ∧ ((∃ q ∈ opseqs, q ∉ x.aborted))) :=
  ⟨⟨(grouped 2 busy1), ((grouped 2 busy1).lagSync 4095), 4095, 7, busy1, (gop (gdesc 1)), rfl, by decide, by decide, by decide⟩,
   ⟨({ grouped 2 busy1 with now := 33600 }), ({ grouped 2 busy1 with now := 33600 }.lagSync 4095), 4095, (({ grouped 2 busy1 with now := 33600 }.lagSync 4095).grp 4095 |>.getD Group.reset), rfl, by decide, by decide, by decide, by decide, by decide⟩,
   ⟨(grouped 4 { Group.reset with aborted := [5, 7] }), 4095, ({ Group.reset with aborted := [5, 7] }), ([7]), by decide, by decide⟩,
   ⟨(grouped 2 { busy1 with aborted := [5] }), 4095, ({ busy1 with aborted := [5] }), ([5, 7]), by decide, ⟨7, by decide⟩⟩⟩

theorem wit_PiecesAreCombinedNumberedAndAcknowledged_1 :
    (∃ s : State, ∃ k : Fin 8, ∃ u : Fin 7, ∃ p : Piece, ∃ g : Nat, (p.grp % 4096 = g) ∧ (s.grp g = none)) ∧
    (∃ s : State, ∃ k : Fin 8, ∃ u : Fin 7, ∃ p : Piece, ∃ g : Nat, ∃ x : Group, (p.grp % 4096 = g) ∧ (s.grp g = some x) ∧ ((p.job ≠ (s.rd (R.GC_JOB g)).toNat ∨ s.gCanton g ≠ k.val))) ∧
    (∃ s : State, ∃ k : Fin 8, ∃ u : Fin 7, ∃ p : Piece, ∃ g : Nat, ∃ x : Group, (p.grp % 4096 = g) ∧ (s.grp g = some x) ∧ (p.job = (s.rd (R.GC_JOB g)).toNat) ∧ (s.gCanton g = k.val) ∧ (u ≠ 6) ∧ (2 ^ 31 ≤ (p.psn + 2 ^ 32 - (ringOf x u).expect) % 2 ^ 32)) ∧
    (∃ s : State, ∃ k : Fin 8, ∃ u : Fin 7, ∃ p : Piece, ∃ g : Nat, ∃ x : Group, (p.grp % 4096 = g) ∧ (s.grp g = some x) ∧ (p.job = (s.rd (R.GC_JOB g)).toNat) ∧ (s.gCanton g = k.val) ∧ (u ≠ 6) ∧ (p.psn = (ringOf x u).expect) ∧ (p.psn < 2 ^ 32) ∧ (s.flag (R.GC_STATUS g) F.GC_STATUS_STAGED = false) ∧ ((ringOf x u).waiting.length + (ringOf x u).unacked.length < s.get (R.GC_SLOT g) F.GC_SLOT_NSLOT) ∧ ((∀ o ∈ x.ops, o.d.opseq = p.opseq → o.d.opb = p.opb ∧ o.d.len = p.len)) ∧ ((∀ q ∈ x.fetched, q.2.opseq = p.opseq → q.2.opb = p.opb ∧ q.2.len = p.len)) ∧ (p.opseq ∉ x.aborted)) ∧
    (∃ s : State, ∃ g : Fin 4096, ∃ u : Fin 7, ∃ x : Group, (s.grp g = some x) ∧ ((ringOf x u).owed ≠ 0)) ∧
    (∃ s : State, ∃ g : Fin 4096, ∃ u : Fin 7, ∃ x : Group, ∃ psn : BitVec 32, ∃ member : Nat, (s.grp g = some x) ∧ (u ≠ 6)) :=
  ⟨⟨base, 0, 5, (gpiece false 1 0), 4095, by decide, by decide⟩,
   ⟨(grouped 1 Group.reset), 0, 5, ({ gpiece false 1 0 with job := 1 }), 4095, Group.reset, by decide, by decide, by decide⟩,
   ⟨(grouped 1 Group.reset), 0, 5, (gpiece false 1 0xFFFFFFFF), 4095, Group.reset, by decide, by decide, by decide, by decide, by decide, by decide⟩,
   ⟨(grouped 2 { busy1 with rings := busy1.rings.set 5 { GRing.reset with expect := 0xFFFFFFFF } }), 0, 5, (gpiece false 1 0xFFFFFFFF), 4095, ({ busy1 with rings := busy1.rings.set 5 { GRing.reset with expect := 0xFFFFFFFF } }), by decide, by decide, by decide, by decide, by decide, by decide, by decide, by decide, by decide, by decide, by decide, by decide⟩,
   ⟨({ grouped 1 (ringed1 { GRing.reset with owed := 1 }) with now := 4200 }), 4095, 5, (ringed1 { GRing.reset with owed := 1 }), by decide, by decide⟩,
   ⟨(grouped 1 (ringed1 { GRing.reset with unacked := [(1, gpiece false 1 0xFFFFFFFF), (1, gpiece false 1 0), (1, gpiece false 1 1)] })), 4095, 5, (ringed1 { GRing.reset with unacked := [(1, gpiece false 1 0xFFFFFFFF), (1, gpiece false 1 0), (1, gpiece false 1 1)] }), 0, 0, by decide, by decide⟩⟩

theorem wit_PiecesAreCombinedNumberedAndAcknowledged_2 :
    (∃ s : State, ∃ g : Fin 4096, ∃ u : Fin 7, ∃ x : Group, ∃ psn : BitVec 32, ∃ p : Nat × Piece, (s.grp g = some x) ∧ ((ringOf x u).unacked.find? (fun (p : Nat × Piece) => p.2.psn == psn.toNat) = some p) ∧ (((ringOf x u).noctx ≠ some psn.toNat ∨ (ringOf x u).offeredAt + ticksPerUs ≤ s.now))) ∧
    (∃ s : State, ∃ v : State, ∃ g : Fin 4096, ∃ u : Fin 7, ∃ opseq : BitVec 16, ∃ x : Group, ∃ o : GOp, ∃ h : GShape, ∃ off : Nat, ∃ len : Nat, ∃ home : Nat, ∃ minus : Bool, (s.lagSync g = v) ∧ (v.grp g = some x) ∧ (x.ops.find? (fun (q : GOp) => q.d.opseq == opseq.toNat) = some o) ∧ (v.shape g = h) ∧ (h.axis = false) ∧ (1 < h.n) ∧ (u.val < 2) ∧ (minus = (u.val == 1)) ∧ (sliceRuns off len (o.d.partRuns h 0 minus off) = [(off, len)]) ∧ (0 < len) ∧ (len ≤ 4096) ∧ (len % o.d.width = 0) ∧ (o.d.copies = false) ∧ (o.combinedAt u off = false) ∧ (o.earlierDone (o.d.partRuns h 0 minus off) u off = true) ∧ (o.d.sk = 0) ∧ (v.reachable g false (o.d.src + off) len = true) ∧ (o.d.homeCoord h 0 off = home) ∧ (h.me < h.n) ∧ (home < h.n) ∧ (h.me = (home + (if minus then h.n - 1 else 1)) % h.n) ∧ (v.slotsFull g x u = false)) ∧
    (∃ s : State, ∃ v : State, ∃ g : Fin 4096, ∃ u : Fin 7, ∃ opseq : BitVec 16, ∃ x : Group, ∃ o : GOp, ∃ h : GShape, ∃ off : Nat, ∃ len : Nat, ∃ home : Nat, ∃ minus : Bool, ∃ q : Piece, ∃ d : Nat, ∃ j : Nat, (s.lagSync g = v) ∧ (v.grp g = some x) ∧ (x.ops.find? (fun (q : GOp) => q.d.opseq == opseq.toNat) = some o) ∧ (v.shape g = h) ∧ (h.axis = false) ∧ (1 < h.n) ∧ (u.val < 2) ∧ (minus = (u.val == 1)) ∧ (sliceRuns off len (o.d.partRuns h 0 minus off) = [(off, len)]) ∧ (0 < len) ∧ (len ≤ 4096) ∧ (len % o.d.width = 0) ∧ (o.d.copies = false) ∧ (o.combinedAt u off = false) ∧ (o.earlierDone (o.d.partRuns h 0 minus off) u off = true) ∧ (o.d.sk = 0) ∧ (v.reachable g false (o.d.src + off) len = true) ∧ (o.d.homeCoord h 0 off = home) ∧ (h.me < h.n) ∧ (home < h.n) ∧ (h.me = home) ∧ ((ringOf x u).waiting.find? (fun (p : Piece) => !p.gather && p.opseq == o.d.opseq && p.offset == off && p.data.length == len) = some q) ∧ (q.poison = false) ∧ (v.badRead (o.d.src + off) len = false) ∧ (o.d.op = 1) ∧ (o.d.dk = 0) ∧ (v.flag (R.GC_STATUS g) F.GC_STATUS_STAGED = false) ∧ (v.reachable g true (o.d.dst + o.d.destOff h off) len = true) ∧ (v.placeOf (o.d.dst + o.d.destOff h off) = .cd d j) ∧ ((v.cd (fin40 d)).coversWindow j len = false) ∧ (v.poisoned (o.d.dst + o.d.destOff h off) len = false)) ∧
    (∃ s : State, ∃ v : State, ∃ g : Fin 4096, ∃ u : Fin 7, ∃ opseq : BitVec 16, ∃ x : Group, ∃ o : GOp, ∃ h : GShape, ∃ off : Nat, ∃ len : Nat, ∃ d : Nat, ∃ j : Nat, ∃ p : Piece, (s.lagSync g = v) ∧ (v.grp g = some x) ∧ (x.ops.find? (fun (q : GOp) => q.d.opseq == opseq.toNat) = some o) ∧ (v.shape g = h) ∧ (u.val < 6) ∧ ((o.d.sk = 2 → ∀ q ∈ v.feeding g o.d.opseq, q.2.len * 64 = o.d.drainBytes)) ∧ ((ringOf x u).waiting.find? (fun (p : Piece) => p.gather && p.opseq == o.d.opseq && p.offset == off && p.data.length == len) = some p) ∧ (sliceRuns off len (o.d.partRuns h (u.val / 2) p.minus off) = [(off, len)]) ∧ (p.poison = false) ∧ (o.d.dk = 0) ∧ (v.reachable g true (o.d.dst + o.d.destOff h off) len = true) ∧ (v.placeOf (o.d.dst + o.d.destOff h off) = .cd d j) ∧ ((v.cd (fin40 d)).coversWindow j len = false) ∧ (v.poisoned (o.d.dst + o.d.destOff h off) len = false)) :=
  ⟨⟨({ grouped 1 (ringed1 { GRing.reset with unacked := [(1, gpiece false 1 9)], noctx := some 9 }) with now := 4200 }), 4095, 5, (ringed1 { GRing.reset with unacked := [(1, gpiece false 1 9)], noctx := some 9 }), 9, ((1, gpiece false 1 9)), by decide, by decide, by decide⟩,
   ⟨(combining 0 [] 1 [0, 0, 0, 0, 0, 0, 0, 0, 0, 0, 0x80, 0x3F]), ((combining 0 [] 1 [0, 0, 0, 0, 0, 0, 0, 0, 0, 0, 0x80, 0x3F]).lagSync 4095), 4095, 0, 7, busy1, (gop (gdesc 1)), (⟨false, 2, 0, (1, 1, 1)⟩), 8, 4, 1, false, rfl, by decide +kernel⟩,
   ⟨(combining 0 [gpiece false 1 0] 1 [0, 0, 0x80, 0x3F]), ((combining 0 [gpiece false 1 0] 1 [0, 0, 0x80, 0x3F]).lagSync 4095), 4095, 0, 7, ({ busy1 with rings := (busy1.rings).set 0 { GRing.reset with waiting := [gpiece false 1 0] } }), (gop (gdesc 1)), (⟨false, 2, 0, (1, 1, 1)⟩), 0, 4, 0, false, (gpiece false 1 0), 39, 4096, rfl, by decide +kernel⟩,
   ⟨(combining 5 [gather1] 2 []), ((combining 5 [gather1] 2 []).lagSync 4095), 4095, 5, 7, ({ busy1 with ops := [gop (gdesc 2)], rings := (busy1.rings).set 5 { GRing.reset with waiting := [gather1] } }), (gop (gdesc 2)), (⟨false, 2, 0, (1, 1, 1)⟩), 0, 4, 39, 4096, gather1, rfl, by decide +kernel⟩⟩

theorem wit_PiecesAreCombinedNumberedAndAcknowledged_3 :
    (∃ s : State, ∃ v : State, ∃ g : Fin 4096, ∃ x : Group, (s.lagSync g = v) ∧ (v.grp g = some x) ∧ (v.patience g ≠ 0) ∧ (x.progressAt + v.patience g / 8 < v.now)) ∧
    (∃ s : State, ∃ v : State, ∃ g : Fin 4096, ∃ x : Group, ∃ u : Fin 6, ∃ opseq : BitVec 16, ∃ named : BitVec 17, (s.lagSync g = v) ∧ (v.grp g = some x) ∧ (x.ops = [])) :=
  ⟨⟨({ grouped 2 busy1 with now := 4203 }), ({ grouped 2 busy1 with now := 4203 }.lagSync 4095), 4095, (({ grouped 2 busy1 with now := 4203 }.lagSync 4095).grp 4095 |>.getD Group.reset), rfl, by decide +kernel⟩,
   ⟨(grouped 1 Group.reset), ((grouped 1 Group.reset).lagSync 4095), 4095, Group.reset, 5, 0, 0x1FFFF, rfl, by decide +kernel⟩⟩
/-- Port 5 in a state, enabled, with the neighbour that a 1 × 1 × 1 torus gives it. -/
def linked (st : Nat) : State := (base.put (R.LK_STATUS 5) F.LK_STATUS_STATE st).put (R.LK_NBR 5) F.LK_NBR_PORT 4
def onPort (s : State) (p : LinkPort) : State := s.setPort 5 p
def tpacket (seq : Nat) : TorusPacket := ⟨seq, 3, 0, false, 0, 63, 2, List.replicate 48 7⟩
def waitingPacket (k : Nat) : TPacket := ⟨6, k, 0, false, 1, 63, List.replicate 33 1, 0⟩
def keyed (x : LinkPlane) : State := (linked 2).setPlane 5 0 { x with rxKeys := [(3, [1, 2])] }
def urgentReq : ArbReq := ⟨6, 0, true, 4, 2, some ⟨2, 0, 63, List.replicate 32 0⟩⟩
def bulkReq : ArbReq := ⟨2, 0, false, 1, 5, none⟩
def arbBusy (budget : Nat) : ArbState :=
  { ArbState.reset with busy := (ArbState.reset.busy).set 0 (some (bulkReq, 2)), budget := Vector.replicate 8 budget }
def retryDue : State := onPort (linked 3) { LinkPort.reset with retryAt := some 0 }

theorem wit_TorusPacketsArriveOnceInOrder :
    (∃ s : State, ∃ l : Fin 6, ∃ k : Fin 8, ∃ p : TorusPacket, ∃ a : Arrival, ∃ x : LinkPlane, (s.portState l = 2) ∧ (k.val < s.cantons) ∧ (s.plane l k = x) ∧ ((0 < a.crcErr ∨ 0 < a.uncorrectable))) ∧
    (∃ s : State, ∃ l : Fin 6, ∃ k : Fin 8, ∃ p : TorusPacket, ∃ a : Arrival, ∃ x : LinkPlane, ∃ key, (s.portState l = 2) ∧ (k.val < s.cantons) ∧ (s.plane l k = x) ∧ (a.crcErr = 0) ∧ (a.uncorrectable = 0) ∧ (a.aborted = false) ∧ (keyOf x.rxKeys p.epoch = some key)) ∧
    (∃ s : State, ∃ l : Fin 6, ∃ k : Fin 8, ∃ p : TorusPacket, ∃ a : Arrival, ∃ x : LinkPlane, ∃ key, (s.portState l = 2) ∧ (k.val < s.cantons) ∧ (s.plane l k = x) ∧ (a.crcErr = 0) ∧ (a.uncorrectable = 0) ∧ (a.aborted = false) ∧ (keyOf x.rxKeys p.epoch = some key)) :=
  ⟨⟨(keyed LinkPlane.reset), 5, 0, (tpacket 0), (⟨1, 0, 1, false⟩), ({ LinkPlane.reset with rxKeys := [(3, [1, 2])] }), by decide, by decide, rfl, by decide⟩,
   ⟨(keyed LinkPlane.reset), 5, 0, (tpacket 4), (⟨1, 0, 0, false⟩), ({ LinkPlane.reset with rxKeys := [(3, [1, 2])] }), ([1, 2]), by decide, by decide, rfl, by decide, by decide, by decide, by decide⟩,
   ⟨(keyed { LinkPlane.reset with tagFails := [(4, 3)] }), 5, 0, (tpacket 4), (⟨1, 0, 0, false⟩), ({ LinkPlane.reset with tagFails := [(4, 3)], rxKeys := [(3, [1, 2])] }), ([1, 2]), by decide, by decide, rfl, by decide, by decide, by decide, by decide⟩⟩

theorem wit_PortsTrainGoDownAndRetry_1 :
    (∃ s : State, ∃ l : Fin 6, (s.portState l ≠ 0)) ∧
    (∃ s : State, ∃ l : Fin 6, (s.portState l ≠ 0)) ∧
    (∃ s : State, ∃ l : Fin 6, ∃ r : TrainResult, (s.portState l = 1) ∧ (r.lanes = 0xFFFF) ∧ (r.module_.toNat = s.facing l) ∧ (r.port.val = l.val ^^^ 1) ∧ (r.shape.val = s.get R.ARCH_CFG F.ARCH_CFG_CANTON_LOG2) ∧ (r.agreed = true) ∧ (s.groups = [])) ∧
    (∃ s : State, ∃ l : Fin 6, ∃ r : TrainResult, (s.portState l = 1) ∧ (r.lanes.toNat &&& 0xFF ≠ 0xFF) ∧ (r.lanes.toNat &&& 0xFF00 ≠ 0xFF00)) ∧
    (∃ s : State, ∃ l : Fin 6, ∃ r : TrainResult, (s.portState l = 1) ∧ (r.lanes = 0xFFFF) ∧ ((r.module_.toNat ≠ s.facing l ∨ r.port.val ≠ l.val ^^^ 1 ∨ r.shape.val ≠ s.get R.ARCH_CFG F.ARCH_CFG_CANTON_LOG2))) ∧
    (∃ s : State, ∃ l : Fin 6, ∃ r : TrainResult, (s.portState l = 1) ∧ (r.lanes = 0xFFFF) ∧ ((r.module_.toNat ≠ s.facing l ∨ r.port.val ≠ l.val ^^^ 1 ∨ r.shape.val ≠ s.get R.ARCH_CFG F.ARCH_CFG_CANTON_LOG2))) :=
  ⟨⟨(onPort (linked 2) { LinkPort.reset with control := some [5], planes := (LinkPort.reset.planes).set 7 { LinkPlane.reset with replay := [⟨tpacket 0, 0⟩], held := [(3, waitingPacket 7)] } }), 5, by decide⟩,
   ⟨((linked 3).put (R.LK_CFG 5) F.LK_CFG_EN 0), 5, by decide⟩,
   ⟨(linked 1), 5, (⟨0xFFFF, 0, 4, 1, 0, true, [3]⟩), by decide, by decide, by decide, by decide, by decide, by decide, by decide⟩,
   ⟨(linked 1), 5, (⟨0xFEFE, 0, 4, 1, 0, true, [3]⟩), by decide, by decide, by decide⟩,
   ⟨(linked 1), 5, (⟨0xFFFF, 0, 3, 1, 0, true, [3]⟩), by decide, by decide, by decide⟩,
   ⟨(linked 1), 5, (⟨0xFFFF, 1, 4, 1, 0, true, [3]⟩), by decide, by decide, by decide⟩⟩

theorem wit_PortsTrainGoDownAndRetry_2 :
    (∃ s : State, ∃ l : Fin 6, ∃ r : TrainResult, (s.portState l = 1) ∧ (r.lanes = 0xFFFF) ∧ (r.module_.toNat = s.facing l) ∧ (r.port.val = l.val ^^^ 1) ∧ (r.shape.val = s.get R.ARCH_CFG F.ARCH_CFG_CANTON_LOG2) ∧ (r.agreed = false)) ∧
    (∃ s : State, ∃ l : Fin 6, ∃ u, ((s.port l).retryAt = some u) ∧ (s.portState l = 3) ∧ (u ≤ s.now) ∧ (s.flag (R.LK_CFG l) F.LK_CFG_EN = true)) ∧
    (∃ s : State, ∃ l : Fin 6, ∃ c : Instr, (s.portState l = 2) ∧ ((c = .linkDown l .lock ∨ c = .cableRemove l))) ∧
    (∃ s : State, ∃ l : Fin 6, ∃ c : Instr, (s.portState l = 2) ∧ ((c = .linkDown l .lock ∨ c = .cableRemove l))) ∧
    (∃ s : State, ∃ l : Fin 6, ∃ n : Fin 16, (s.portState l = 2)) ∧
    (∃ s : State, ∃ l : Fin 6, ∃ n : Fin 16, (s.portState l = 2)) :=
  ⟨⟨(linked 1), 5, (⟨0xFFFF, 0, 4, 1, 0, false, [3]⟩), by decide, by decide, by decide, by decide, by decide, by decide⟩,
   ⟨retryDue, 5, 0, by decide, by decide, by decide, by decide⟩,
   ⟨(linked 2), 5, (Instr.linkDown 5 .lock), by decide, by decide⟩,
   ⟨((linked 2).put (R.LK_CFG 5) F.LK_CFG_EN 0), 5, (Instr.cableRemove 5), by decide, by decide⟩,
   ⟨((linked 2).put (R.LK_LANES 5) F.LK_LANES_ACTIVE 0xFFFF), 5, 15, by decide⟩,
   ⟨((linked 2).put (R.LK_LANES 5) F.LK_LANES_ACTIVE 0xFF), 5, 0, by decide⟩⟩

theorem wit_PortsTrainGoDownAndRetry_3 :
    ∃ s : State, ∃ l : Fin 6, (s.portState l ≠ 0) ∧ ((s.port l).cable = false) ∧ (s.flag (R.LK_CFG l) F.LK_CFG_EN = true) :=
  ⟨(onPort (linked 3) { LinkPort.reset with cable := false }), 5, by decide, by decide, by decide⟩

theorem wit_EpochsAdvanceAndDownPortsDiscard :
    (∃ s : State, ∃ l : Fin 6, ∃ k : Fin 8, ∃ key : List Byte, ∃ rest : List (Nat × List Byte), ∃ ep : Nat, (s.portState l = 2) ∧ (k.val < s.cantons) ∧ (s.flag (R.LK_EPOCH l k) F.LK_EPOCH_RETIRING = false) ∧ ((s.plane l k).retire = false) ∧ (s.get (R.LK_EPOCH l k) F.LK_EPOCH_TXEP = ep) ∧ ((s.plane l k).txKeys = (ep, key) :: rest) ∧ ((2 ^ 32 ≤ (s.plane l k).sent ∨ (s.get (R.LK_REKEY_CFG l) F.LK_REKEY_CFG_MS ≠ 0 ∧ (s.plane l k).epochAt + s.get (R.LK_REKEY_CFG l) F.LK_REKEY_CFG_MS * msTicks ≤ s.now)))) ∧
    (∃ s : State, ∃ l : Fin 6, ∃ k : Fin 8, ∃ key : List Byte, ∃ rest : List (Nat × List Byte), ∃ ep : Nat, (s.portState l = 2) ∧ (k.val < s.cantons) ∧ (s.flag (R.LK_EPOCH l k) F.LK_EPOCH_RETIRING = false) ∧ ((s.plane l k).retire = false) ∧ (s.get (R.LK_EPOCH l k) F.LK_EPOCH_TXEP = ep) ∧ ((s.plane l k).txKeys = (ep, key) :: rest) ∧ ((2 ^ 32 ≤ (s.plane l k).sent ∨ (s.get (R.LK_REKEY_CFG l) F.LK_REKEY_CFG_MS ≠ 0 ∧ (s.plane l k).epochAt + s.get (R.LK_REKEY_CFG l) F.LK_REKEY_CFG_MS * msTicks ≤ s.now)))) ∧
    (∃ s : State, ∃ l : Fin 6, ∃ k : Fin 8, ∃ planes : BitVec 8, (s.portState l = 2) ∧ (k.val < s.cantons)) ∧
    (∃ s : State, ∃ l : Fin 6, ∃ k : Fin 8, ∃ planes : BitVec 8, (s.portState l = 2) ∧ (k.val < s.cantons)) ∧
    (∃ s : State, ∃ l : Fin 6, ∃ k : Fin 8, ∃ old : List TPacket, ((s.portState l = 1 ∨ s.portState l = 3)) ∧ (old ≠ []) ∧ ((s.port l).queue.filter (fun q => q.plane == k.val && decide (max q.since (s.port l).downAt + s.get (R.LK_CFG l) F.LK_CFG_HOLDMS * msTicks ≤ s.now)) = old)) :=
  ⟨⟨(((linked 2).put (R.LK_EPOCH 5 0) F.LK_EPOCH_TXEP 255).setPlane 5 0 { LinkPlane.reset with sent := 4294967296, txKeys := [(255, [1])], replay := [⟨{ tpacket 0 with epoch := 255 }, 0⟩] }), 5, 0, ([1]), ([]), 255, by decide, by decide, by decide, by decide, by decide, by decide, by decide⟩,
   ⟨({ ((linked 2).put (R.LK_EPOCH 5 0) F.LK_EPOCH_TXEP 7).setPlane 5 0 { LinkPlane.reset with txKeys := [(7, [1])] } with now := 4200000000 }), 5, 0, ([1]), ([]), 7, by decide, by decide, by decide, by decide, by decide, by decide, by decide⟩,
   ⟨(((linked 2).put (R.LK_EPOCH 5 0) F.LK_EPOCH_TXEP 255).setPlane 5 0 { LinkPlane.reset with txKeys := [(255, [1])], replay := [⟨tpacket 0, 0⟩] }), 5, 0, 1, by decide, by decide⟩,
   ⟨(linked 2), 5, 0, 0xFE, by decide, by decide⟩,
   ⟨({ onPort (linked 3) { LinkPort.reset with queue := [waitingPacket 7, waitingPacket 0, waitingPacket 7] } with now := 420000000 }), 5, 7, ([waitingPacket 7, waitingPacket 7]), by decide, by decide, by decide⟩⟩

theorem wit_ArbitersServeUrgentFirst :
    (∃ s : State, ∃ st : ArbStage, ∃ reqs : List ArbReq, ∃ a : ArbState, (s.arb st = a) ∧ (divided st = false) ∧ (a.grant = none) ∧ (a.busy[(0 : Fin 8)] = none) ∧ (a.revoked[(0 : Fin 8)] = none) ∧ ((∃ r ∈ reqs, r.urgent = true ∧ a.masked.contains r.requester = false))) ∧
    (∃ s : State, ∃ st : ArbStage, ∃ reqs : List ArbReq, ∃ a : ArbState, (s.arb st = a) ∧ (divided st = false) ∧ (a.grant = none) ∧ (a.busy[(0 : Fin 8)] = none) ∧ (a.revoked[(0 : Fin 8)] = none) ∧ ((∀ r ∈ reqs, r.urgent = false)) ∧ ((∃ r ∈ reqs, a.masked.contains r.requester = false))) ∧
    (∃ s : State, ∃ l : Fin 6, ∃ reqs : List ArbReq, ∃ a : ArbState, ∃ p : Fin 8, ∃ r : ArbReq, ∃ n : Nat, (s.arb (.link l) = a) ∧ (a.grant = none) ∧ (p.val = a.slot % s.cantons) ∧ (a.busy[p] = some (r, n)) ∧ (r.urgent = false) ∧ ((∃ u ∈ reqs, u.urgent = true ∧ u.plane = p ∧ a.masked.contains u.requester = false ∧ s.maySend (.link l) u = true)) ∧ (s.countsStand (R.LK_CNT_CTL l) = false)) ∧
    (∃ s : State, ∃ l : Fin 6, ∃ reqs : List ArbReq, ∃ a : ArbState, ∃ p : Fin 8, ∃ r : ArbReq, ∃ n : Nat, (s.arb (.link l) = a) ∧ (a.grant = none) ∧ (p.val = a.slot % s.cantons) ∧ (a.busy[p] = some (r, n)) ∧ (r.urgent = false) ∧ ((∃ u ∈ reqs, u.urgent = true ∧ u.plane = p ∧ a.masked.contains u.requester = false ∧ s.maySend (.link l) u = true)) ∧ (s.countsStand (R.LK_CNT_CTL l) = false)) ∧
    (∃ s : State, ∃ l : Fin 6, ∃ a : ArbState, ∃ g : ArbReq, (s.arb (.link l) = a) ∧ (a.grant = some (g, false)) ∧ (a.masked.contains g.requester = false) ∧ ((∀ p : Fin 8, a.busy[p] = none ∧ a.revoked[p] = none)) ∧ (s.countsStand (R.LK_CNT_CTL l) = false)) :=
  ⟨⟨base, (.fabric 63 0), ([bulkReq, { urgentReq with age := 7 }, urgentReq]), ArbState.reset, by decide, by decide, by decide, by decide, by decide, ⟨urgentReq, by decide⟩⟩,
   ⟨(base.setArb (.memory 15 1) { ArbState.reset with last := Vector.replicate 8 2 }), (.memory 15 1), ([{ bulkReq with requester := 1 }, bulkReq]), ({ ArbState.reset with last := Vector.replicate 8 2 }), by decide, by decide, by decide, by decide, by decide, by decide, ⟨bulkReq, by decide⟩⟩,
   ⟨((linked 2).setArb (.link 5) (arbBusy 2)), 5, ([urgentReq]), (arbBusy 2), 0, bulkReq, 2, by decide, by decide, by decide, by decide, by decide, ⟨urgentReq, by decide⟩, by decide⟩,
   ⟨((linked 2).setArb (.link 5) (arbBusy 0)), 5, ([urgentReq]), (arbBusy 0), 0, bulkReq, 2, by decide, by decide, by decide, by decide, by decide, ⟨urgentReq, by decide⟩, by decide⟩,
   ⟨((linked 2).setArb (.link 5) { ArbState.reset with grant := some (bulkReq, false) }), 5, ({ ArbState.reset with grant := some (bulkReq, false) }), bulkReq, by decide, by decide, by decide, by decide, by decide⟩⟩

theorem wit_ControlCodewordsAcknowledgeAndReturn :
    (∃ s : State, ∃ l : Fin 6, (s.portState l = 2) ∧ ((s.port l).ctlAt + s.ctlPeriod l ≤ s.now)) ∧
    (∃ s : State, ∃ l : Fin 6, (s.portState l = 2) ∧ (s.now < (s.port l).ctlAt + s.ctlPeriod l)) ∧
    (∃ s : State, ∃ l : Fin 6, ∃ c : CtlWord, ∃ tag : List Byte, ∃ key : List Byte, (s.portState l = 2) ∧ ((s.port l).control = some key)) ∧
    (∃ s : State, ∃ l : Fin 6, ∃ c : CtlWord, ∃ tag : List Byte, ∃ key : List Byte, (s.portState l = 2) ∧ ((s.port l).control = some key)) ∧
    (∃ s : State, ∃ l : Fin 6, ∃ c : CtlWord, ∃ tag : List Byte, ∃ key : List Byte, (s.portState l = 2) ∧ ((s.port l).control = some key)) :=
  ⟨⟨({ onPort (linked 2) { LinkPort.reset with cseq := 9, planes := (LinkPort.reset.planes).set 7 { LinkPlane.reset with next := 5, top := 8, passed := [7], returns := Vector.replicate 6 2, retire := true } } with now := 20643 }), 5, by decide, by decide⟩,
   ⟨({ (linked 2).put (R.LK_STATUS 5) F.LK_STATUS_WIDTH8 1 with now := 20642 }), 5, by decide, by decide⟩,
   ⟨(onPort (linked 2) { LinkPort.reset with control := some [5], ctlFails := 2 }), 5, (⟨1, 0, []⟩), ([1]), ([5]), by decide, by decide⟩,
   ⟨(onPort (linked 2) { LinkPort.reset with control := some [5], ctlFails := 3 }), 5, (⟨1, 0, []⟩), ([1]), ([5]), by decide, by decide⟩,
   ⟨(onPort (linked 2) { LinkPort.reset with control := some [5], ctlFails := 2 }), 5, (⟨1, 0, []⟩), (ctlTag [5] ((onPort (linked 2) { LinkPort.reset with control := some [5], ctlFails := 2 }).nbrPort 5 0) ⟨1, 0, []⟩), ([5]), by decide, by decide⟩⟩
/-- Memory die 15's exchange: own site 5 (weight 2), site 9 (weight 1) at module 3 die 2; shard 1 with an entry in a state,
its receive area at 0x4000000, SEND at 0x5000000, EF at 0x6000000, MERGED at 0x7000000; SX_PEN at 0x8000000. -/
def sxEntryBytes (sxid flags st lst round : Nat) : List Byte :=
  leBytes 4 sxid ++ leBytes 4 (flags + 256 * st + 65536 * lst) ++ leBytes 4 round ++ leBytes 4 (if flags = 11 then 4 else 1) ++ leBytes 8 77 ++
    leBytes 8 0x6000000 ++ leBytes 8 0x5000000 ++ leBytes 8 0x4000000 ++ leBytes 8 0x7000000 ++ leBytes 8 0x9000000
def sxSt (sxid flags st lst round : Nat) (x : Sx) : State :=
  let s := withRegs base [(R.SX_TABLE_LO 15, 0x300000), (R.SX_TABLE_CNT 15, 2), (R.SX_SITES_LO 15, 0x200000), (R.SX_PEN_LO 15, 0x8000000)]
  let s := (s.put (R.SX_CTL 15) F.SX_CTL_EN 1).put (R.SX_CTL 15) F.SX_CTL_SITE 5
  let s := { s with pairSecrets := [(0, 3, [42])], jobs := base.jobs.set 0 6 }
  let s := withMem (withMem s (0x200000 + 32 * 5 + 8) [2]) (0x200000 + 32 * 9 + 8) [1]
  let s := withMem (withMem s (0x9000000 + 36) (leBytes 4 (3 + 2 * 2 ^ 17))) (0x300000 + 128) (sxEntryBytes sxid flags st lst round)
  (s.setUe 15 { s.ue 15 with shards := [{ shard1 (journal1 0) with idx := 1 }] }).setSx 15 x
/-- A frame from site 9, module 3, die 2, for the entry with SXID 5. -/
def frame (ftype sxid round item aux : Nat) (data : List Byte) : SiteFrame :=
  { magic := 0x4E47, version := 1, ftype := ftype, job := 6, srcSite := 9, dstSite := 5, stale := false, sealed_ := false, age := 0,
    sxid := sxid, round := round, item := item, srcModule := 3, srcDie := 2, fseq := 4, aux := aux,
    text := List.replicate 16 0 ++ data.reverse }
def lead1 (openAt : Nat) : SxLead := ⟨1, 8, some openAt, [], [], 0, 0, none, [], []⟩
def round1 : SxRound := ⟨1, 9, none, [], []⟩
def rebase1 (head : Option (Nat × Nat × Nat)) (boot : Bool) : SxRebase := ⟨1, 9, 3, 2, head, [], boot, false⟩
def withLead (l : SxLead) : Sx := { Sx.reset with leads := [l] }
def withRound (r : SxRound) : Sx := { Sx.reset with rounds := [r] }
def withRebase (r : SxRebase) : Sx := { Sx.reset with rebases := [r] }
def item1 : SxItem := ⟨1, 9, 3, 1, 5, 8, 0, false, false, 0, 0, [1], 4, 0, 0⟩
/-- The state in which a frame's payload is handed on. -/
def heardFrom (s : State) (m : Fin 16) (f : SiteFrame) : State :=
  (if s.countsStand R.SP_CNT_CTL then s else s.add64 R.SP_RXFR_LO R.SP_RXFR_HI 1).siteHeard (s.mdCanton m) f.srcSite
/-- A frame for this site is authenticated where the cipher opens it under the key of its pair secret. -/
theorem frameOpens (s : State) (m : Fin 16) (f : SiteFrame) (data : List Byte) {z : List Byte}
    (hg : ¬ (f.magic ≠ 0x4E47 ∨ f.version ≠ 1 ∨ f.job ≠ s.jobs.getD (s.mdCanton m) 0 ∨ f.dstSite ≠ s.ownSite m))
    (hz : s.pairSecret (s.mdCanton m) f.srcModule = some z)
    (ho : gcmOpen (siteKey z f.srcModule s.moduleId f.fseq) (siteNonce (siteHeader f (f.text.length - 16)))
      (siteHeader f (f.text.length - 16)) f.text = some data) : s.authFrame m f = (heardFrom s m f, some data) := by
  simp only [State.authFrame, if_neg hg, hz, Option.bind_some, ho, heardFrom]
/-- The cipher opens a frame from module 3 to module 0 under the pair secret. -/
def Opens (f : SiteFrame) (data : List Byte) : Prop :=
  gcmOpen (siteKey [42] 3 0 f.fseq) (siteNonce (siteHeader f (f.text.length - 16))) (siteHeader f (f.text.length - 16)) f.text = some data
/-- A DATA frame's chunk, a correction, and 8 KiB of an item. -/
def chunk9 : List Byte := List.replicate 8192 0x11 ++ List.replicate 128 127
def words9 : List Byte := 7 :: List.replicate 8191 3
def leadSt : State := sxSt 5 9 0 1 8 (withLead (lead1 0))
def corrSt : State := sxSt 5 11 0 2 8 (withLead { lead1 0 with incl := [2 ^ 9 + 2 ^ 17, 0, 0, 0], quorum := 2 ^ 9 })
def holdSt (st : Nat) (x : Sx) : State := sxSt 9 9 st 0 8 x
def sendItem (n : Nat) : Nat × SxItem := (15, { item1 with sxid := n })
def corrSt2 : State := sxSt 5 11 0 2 8 (withLead { lead1 0 with incl := [2 ^ 9, 0, 0, 0], quorum := 2 ^ 9, corrs := [(9, 0)] })
/-- A collection of round 8 in which site 9's chunk 0 has come. -/
def gotSt : State := withMem leadSt 0x4000000 (leBytes 8 (2 ^ 9))
def sackSt : State := sxSt 5 9 0 1 8 { Sx.reset with items := [item1, { item1 with fseq := 6 }] }
def sackFr : SiteFrame := frame 3 5 8 0 0 (leBytes 2 1 ++ leBytes 8 4 ++ leBytes 4 2)
/-- 8 KiB of zeros; a round with its head and all merge items but number 3; a snapshot with all items but number 15. -/
def words0 : List Byte := List.replicate 8192 0
def lastRound : SxRound := { round1 with head := some (77, 0x220, 3), counted := [(0, [1])], merged := [(0, 0, words0), (1, 0, words0), (2, 0, words0)] }
def lastSt : State := holdSt 1 (withRound lastRound)
def doneReb : SxRebase := { rebase1 (some (20, 55, 16)) false with got := List.range 15 }
def doneSt : State := holdSt 4 (withRebase doneReb)

theorem wit_SiteFramesAreAuthenticatedAndPaced_1 :
    (∃ s : State, ∃ m : Fin 16, ∃ f : SiteFrame, ∃ c, (c ∈ [Instr.data m f, .done m f, .sack m f, .include_ m f, .corr m f, .mhead m f, .merge m f, .snapreq m f, .snaphead m f, .snap m f, .notice m f, .probe m f]) ∧ ((f.magic ≠ 0x4E47 ∨ f.version ≠ 1 ∨ f.job ≠ s.jobs.getD (s.mdCanton m) 0 ∨ f.dstSite ≠ s.ownSite m))) ∧
    (∃ s : State, ∃ m : Fin 16, ∃ f : SiteFrame, ∃ c, ∃ u, (c ∈ [Instr.data m f, .done m f, .sack m f, .include_ m f, .corr m f, .mhead m f, .merge m f, .snapreq m f, .snaphead m f, .snap m f, .notice m f, .probe m f]) ∧ (s.authFrame m f = (u, none))) :=
  ⟨⟨leadSt, 15, ({ frame 1 5 8 0 0 [] with job := 7 }), (Instr.data 15 { frame 1 5 8 0 0 [] with job := 7 }), by decide, by decide⟩,
   ⟨({ leadSt with pairSecrets := [] }), 15, (frame 12 5 8 0 0 []), (Instr.probe 15 (frame 12 5 8 0 0 [])), ((({ leadSt with pairSecrets := [] } : State).authFrame 15 (frame 12 5 8 0 0 [])).1), by decide, rfl⟩⟩

theorem wit_SiteFramesAreAuthenticatedAndPaced_2 :
    ((Opens (frame 11 6 8 0 0 [1]) [1]) → (∃ s : State, ∃ m : Fin 16, ∃ f : SiteFrame, ∃ u : State, ∃ data : List Byte, ∃ c, (c ∈ [Instr.data m f, .done m f, .include_ m f, .corr m f, .mhead m f, .merge m f, .snapreq m f, .snaphead m f, .snap m f, .notice m f]) ∧ (s.authFrame m f = (u, some data)) ∧ ((s.flag (R.SX_CTL m) F.SX_CTL_EN = false ∨ u.sxFind m f.sxid = none)))) :=
  fun hA => ⟨leadSt, 15, (frame 11 6 8 0 0 [1]), (heardFrom leadSt 15 (frame 11 6 8 0 0 [1])), ([1]), (Instr.notice 15 (frame 11 6 8 0 0 [1])), by decide, frameOpens _ _ _ _ (by decide) rfl hA, by decide⟩

theorem wit_SiteFramesAreAuthenticatedAndPaced_3 :
    ((Opens (frame 1 5 8 0 0 [1]) [1]) → (∃ s : State, ∃ m : Fin 16, ∃ f : SiteFrame, ∃ u : State, ∃ data : List Byte, ∃ c, (c ∈ [Instr.data m f, .done m f, .include_ m f, .corr m f, .mhead m f, .merge m f, .snapreq m f, .snaphead m f, .snap m f, .notice m f]) ∧ (s.authFrame m f = (u, some data)) ∧ ((s.flag (R.SX_CTL m) F.SX_CTL_EN = false ∨ u.sxFind m f.sxid = none)))) :=
  fun hA => ⟨(leadSt.put (R.SX_CTL 15) F.SX_CTL_EN 0), 15, (frame 1 5 8 0 0 [1]), (heardFrom (leadSt.put (R.SX_CTL 15) F.SX_CTL_EN 0) 15 (frame 1 5 8 0 0 [1])), ([1]), (Instr.data 15 (frame 1 5 8 0 0 [1])), by decide, frameOpens _ _ _ _ (by decide) rfl hA, by decide⟩

theorem wit_SiteFramesAreAuthenticatedAndPaced_4 :
    (∃ s : State, ∃ p : Fin 2, ∃ k : Nat, ∃ q : Nat × SxItem, ∃ m : Fin 16, ∃ z : List Byte, (s.flag R.SP_STATUS (upField p) = true) ∧ (0 < s.cantons) ∧ (s.sites.slots[p] % s.cantons = k) ∧ (fin16 q.1 = m) ∧ (s.sites.queue.find? (fun q => s.colCanton (q.1 % 8) == k && s.portFor k q.2 == p.val && s.get (R.SP_RATE k q.2.site) F.SP_RATE_GBPS != 0 && decide (lookup2 s.sites.pace k q.2.site ≤ s.now)) = some q) ∧ (s.pairSecret k q.2.module = some z)) ∧
    (∃ s : State, ∃ p : Fin 2, ∃ k : Nat, ∃ q : Nat × SxItem, ∃ m : Fin 16, (s.flag R.SP_STATUS (upField p) = true) ∧ (0 < s.cantons) ∧ (s.sites.slots[p] % s.cantons = k) ∧ (fin16 q.1 = m) ∧ (s.sites.queue.find? (fun q => s.colCanton (q.1 % 8) == k && s.portFor k q.2 == p.val && s.get (R.SP_RATE k q.2.site) F.SP_RATE_GBPS != 0 && decide (lookup2 s.sites.pace k q.2.site ≤ s.now)) = some q) ∧ (s.pairSecret k q.2.module = none)) ∧
    (∃ s : State, ∃ p : Fin 2, ∃ k : Nat, (s.flag R.SP_STATUS (upField p) = true) ∧ (0 < s.cantons) ∧ (s.sites.slots[p] % s.cantons = k) ∧ (s.sites.queue.find? (fun q => s.colCanton (q.1 % 8) == k && s.portFor k q.2 == p.val && s.get (R.SP_RATE k q.2.site) F.SP_RATE_GBPS != 0 && decide (lookup2 s.sites.pace k q.2.site ≤ s.now)) = none) ∧ (k = 0) ∧ (s.flag (R.LK_ARB 0) F.LK_ARB_WCON = false)) ∧
    (∃ s : State, ∃ m : Fin 16, ∃ i : Nat, ∃ it : SxItem, ((s.sx m).items[i]? = some it) ∧ (it.at_ + s.rto (s.mdCanton m) it.site ≤ s.now)) ∧
    (∃ s : State, ∃ m : Fin 16, ∃ site : Fin 64, ∃ md : BitVec 17, ∃ die : Fin 16, ∃ k : Nat, ∃ since : Nat, ∃ seqs : List Nat, ((s.sx m).owed.find? (fun o => o.1 == md.toNat * 16 + die.val) = some (k, since, seqs)) ∧ (seqs ≠ [])) ∧
    (∃ s : State, ∃ p : Fin 2, ∃ x : SitePacket, (s.flag R.SP_STATUS (upField p) = true) ∧ ((x = .neighbourSolicitation ∨ x = .echoRequest))) :=
  ⟨⟨({ ((leadSt.put R.SP_STATUS F.SP_STATUS_UP1 1).put R.SP_STATUS F.SP_STATUS_UP0 1) with sites := { SiteEngine.reset with queue := [sendItem 5, sendItem 8] } }), 1, 0, (sendItem 8), 15, ([42]), by decide, by decide, by decide, by decide, by decide, by decide⟩,
   ⟨({ ((leadSt.put R.SP_STATUS F.SP_STATUS_UP1 1).put R.SP_STATUS F.SP_STATUS_UP0 1) with pairSecrets := [], sites := { SiteEngine.reset with queue := [sendItem 5, sendItem 8] } }), 1, 0, (sendItem 8), 15, by decide, by decide, by decide, by decide, by decide, by decide⟩,
   ⟨({ ((leadSt.put R.SP_STATUS F.SP_STATUS_UP1 1).put R.SP_STATUS F.SP_STATUS_UP0 1) with sites := { SiteEngine.reset with queue := [sendItem 5] } }), 1, 0, by decide, by decide, by decide, by decide, by decide, by decide⟩,
   ⟨({ sxSt 5 9 0 1 8 { Sx.reset with items := [item1, { item1 with tries := 3 }] } with now := 1680000000 }), 15, 1, ({ item1 with tries := 3 }), by decide, by decide⟩,
   ⟨(sxSt 5 9 0 1 8 { Sx.reset with owed := [(50, 0, [4, 6])] }), 15, 9, 3, 2, 50, 0, ([4, 6]), by decide, by decide⟩,
   ⟨(base.put R.SP_STATUS F.SP_STATUS_UP1 1), 1, .echoRequest, by decide, by decide⟩⟩

theorem wit_SiteFramesAreAuthenticatedAndPaced_5 :
    (∃ s : State, ∃ p : Fin 2, ∃ x : SitePacket, (s.flag R.SP_STATUS (upField p) = true) ∧ (x ≠ .neighbourSolicitation) ∧ (x ≠ .echoRequest) ∧ (s.countsStand R.SP_CNT_CTL = false)) ∧
    (∃ s : State, ∃ p : Fin 2, (s.flag R.SP_STATUS (upField p) = true)) ∧
    (∃ s : State, ∃ p : Fin 2, ∃ x : SitePacket, (s.flag R.SP_STATUS (upField p) = false)) ∧
    (∃ s : State, ∃ p : Fin 2, (s.flag R.SP_CFG (if p = 0 then F.SP_CFG_EN0 else F.SP_CFG_EN1) = true)) ∧
    (∃ s : State, ∃ p : Fin 2, ∃ site : Fin 64, ∃ mtu : Nat, (mtu < 8448)) ∧
    (∃ s : State, ∃ p : Fin 2, ∃ site : Fin 64, ∃ mtu : Nat, (8448 ≤ mtu)) :=
  ⟨⟨(base.put R.SP_STATUS F.SP_STATUS_UP1 1), 1, .ipv4, by decide, by decide, by decide, by decide⟩,
   ⟨(base.put R.SP_STATUS F.SP_STATUS_UP1 1), 1, by decide⟩,
   ⟨base, 1, .echoRequest, by decide⟩,
   ⟨(base.put R.SP_CFG F.SP_CFG_EN1 1), 1, by decide⟩,
   ⟨base, 1, 63, 8447, by decide⟩,
   ⟨base, 0, 0, 8448, by decide⟩⟩

theorem wit_LeadersCollectAndMerge_1 :
    ((Opens (frame 1 5 8 0 0 chunk9) chunk9) → (∃ s : State, ∃ m : Fin 16, ∃ f : SiteFrame, ∃ u : State, ∃ data : List Byte, ∃ e : SxEntry, (FrameFor s u m f data e) ∧ (Collects u m f e) ∧ (data.length = e.chunkBytes) ∧ (f.item < e.nchunk) ∧ ((u.collects m e = true → (u.recvBits e f.item).testBit f.srcSite = false)))) :=
  fun hA => ⟨leadSt, 15, (frame 1 5 8 0 0 chunk9), (heardFrom leadSt 15 (frame 1 5 8 0 0 chunk9)), chunk9, (leadSt.sxEntry 15 1), ⟨frameOpens _ _ _ _ (by decide) rfl hA, by decide, by decide +kernel⟩, by constructor <;> decide, by decide +kernel⟩

theorem wit_LeadersCollectAndMerge_2 :
    ((Opens (frame 1 5 8 0 0 chunk9) chunk9) → (∃ s : State, ∃ m : Fin 16, ∃ f : SiteFrame, ∃ u : State, ∃ data : List Byte, ∃ e : SxEntry, (FrameFor s u m f data e) ∧ (Collects u m f e) ∧ (data.length = e.chunkBytes) ∧ (f.item < e.nchunk) ∧ (u.collects m e = true) ∧ ((u.recvBits e f.item).testBit f.srcSite = true))) :=
  fun hA => ⟨gotSt, 15, (frame 1 5 8 0 0 chunk9), (heardFrom gotSt 15 (frame 1 5 8 0 0 chunk9)), chunk9, (gotSt.sxEntry 15 1), ⟨frameOpens _ _ _ _ (by decide) rfl hA, by decide, by decide +kernel⟩, by constructor <;> decide, by decide +kernel⟩

theorem wit_LeadersCollectAndMerge_3 :
    ((Opens (frame 2 5 8 0 0 []) []) → (∃ s : State, ∃ m : Fin 16, ∃ f : SiteFrame, ∃ u : State, ∃ data : List Byte, ∃ e : SxEntry, (FrameFor s u m f data e) ∧ (Collects u m f e))) :=
  fun hA => ⟨leadSt, 15, (frame 2 5 8 0 0 []), (heardFrom leadSt 15 (frame 2 5 8 0 0 [])), ([]), (leadSt.sxEntry 15 1), ⟨frameOpens _ _ _ _ (by decide) rfl hA, by decide, by decide +kernel⟩, by constructor <;> decide⟩

theorem wit_LeadersCollectAndMerge_4 :
    ((Opens (frame 5 5 8 0 0 words9) words9) → (∃ s : State, ∃ m : Fin 16, ∃ f : SiteFrame, ∃ u : State, ∃ data : List Byte, ∃ e : SxEntry, ∃ l : SxLead, (FrameFor s u m f data e) ∧ ((u.sx m).leads.find? (fun l => l.shard == e.idx && l.round == e.round) = some l) ∧ (f.round = e.round) ∧ (e.lstate = 2) ∧ (u.pastCorr m l = false) ∧ ((l.incl.getD f.item 0).testBit f.srcSite = true) ∧ (data.length = 8192) ∧ (l.corrs.contains (f.srcSite, f.item) = true))) :=
  fun hA => ⟨corrSt2, 15, (frame 5 5 8 0 0 words9), (heardFrom corrSt2 15 (frame 5 5 8 0 0 words9)), words9, (corrSt2.sxEntry 15 1), ({ lead1 0 with incl := [2 ^ 9, 0, 0, 0], quorum := 2 ^ 9, corrs := [(9, 0)] }), ⟨frameOpens _ _ _ _ (by decide) rfl hA, by decide, by decide +kernel⟩, by decide +kernel⟩

theorem wit_LeadersCollectAndMerge_5 :
    ((Opens (frame 5 5 8 0 0 words9) words9) → (∃ s : State, ∃ m : Fin 16, ∃ f : SiteFrame, ∃ u : State, ∃ data : List Byte, ∃ e : SxEntry, ∃ l : SxLead, (FrameFor s u m f data e) ∧ ((u.sx m).leads.find? (fun l => l.shard == e.idx && l.round == e.round) = some l) ∧ (f.round = e.round) ∧ (e.lstate = 2) ∧ (u.pastCorr m l = false) ∧ ((l.incl.getD f.item 0).testBit f.srcSite = true) ∧ (data.length = 8192) ∧ (l.corrs.contains (f.srcSite, f.item) = false) ∧ (u.corrsIn m { l with corrs := (f.srcSite, f.item) :: l.corrs } = false))) :=
  fun hA => ⟨corrSt, 15, (frame 5 5 8 0 0 words9), (heardFrom corrSt 15 (frame 5 5 8 0 0 words9)), words9, (corrSt.sxEntry 15 1), ({ lead1 0 with incl := [2 ^ 9 + 2 ^ 17, 0, 0, 0], quorum := 2 ^ 9 }), ⟨frameOpens _ _ _ _ (by decide) rfl hA, by decide, by decide +kernel⟩, by decide +kernel⟩

theorem wit_LeadersCollectAndMerge_6 :
    (∃ s : State, ∃ m : Fin 16, ∃ shard : Fin 16384, ∃ e : SxEntry, ∃ l : SxLead, (s.sxEntry m shard = e) ∧ ((s.sx m).leads.find? (fun l => l.shard == shard.val && l.round == e.round) = some l) ∧ (s.pastData m l = false)) ∧
    (∃ s : State, ∃ m : Fin 16, ∃ shard : Fin 16384, ∃ e : SxEntry, ∃ l : SxLead, (s.sxEntry m shard = e) ∧ ((s.sx m).leads.find? (fun l => l.shard == shard.val && l.round == e.round) = some l) ∧ (s.pastCorr m l = false)) ∧
    (∃ s : State, ∃ m : Fin 16, ∃ shard : Fin 16384, ∃ e : SxEntry, ∃ l : SxLead, ∃ wq : Nat, (s.sxEntry m shard = e) ∧ ((s.sx m).leads.find? (fun l => l.shard == shard.val && l.round == e.round) = some l) ∧ (s.pastData m l = true) ∧ (e.lstate = 1) ∧ (wq = (((List.range 64).filter (fun j => (s.ownSite m :: l.done).contains j && s.siteWeight m j != 0)).map (fun j => s.siteWeight m j)).sum) ∧ (256 * wq ≤ s.get (R.SX_PARAM m) F.SX_PARAM_QUORUM * s.weightAll m)) :=
  ⟨⟨({ leadSt with now := 1259999999 }), 15, 1, (leadSt.sxEntry 15 1), (lead1 0), by decide +kernel⟩,
   ⟨corrSt, 15, 1, (corrSt.sxEntry 15 1), ({ lead1 0 with incl := [2 ^ 9 + 2 ^ 17, 0, 0, 0], quorum := 2 ^ 9 }), by decide +kernel⟩,
   ⟨({ sxSt 5 9 1 1 8 (withLead (lead1 0)) with now := 1260000000 }.put (R.SX_PARAM 15) F.SX_PARAM_QUORUM 171), 15, 1, (leadSt.sxEntry 15 1 |> fun e => { e with state := 1 }), (lead1 0), 2, by decide +kernel⟩⟩

theorem wit_LeadersCollectAndMerge_7 :
    (∃ s : State, ∃ m : Fin 16, ∃ shard : Fin 16384, ∃ e : SxEntry, ∃ l : SxLead, ∃ wq : Nat, ∃ d, (s.sxEntry m shard = e) ∧ ((s.sx m).leads.find? (fun l => l.shard == shard.val && l.round == e.round) = some l) ∧ (s.pastData m l = true) ∧ (e.lstate = 1) ∧ (wq = (((List.range 64).filter (fun j => (s.ownSite m :: l.done).contains j && s.siteWeight m j != 0)).map (fun j => s.siteWeight m j)).sum) ∧ (s.get (R.SX_PARAM m) F.SX_PARAM_QUORUM * s.weightAll m < 256 * wq) ∧ (e.sealed_ = false) ∧ (l.senders = []) ∧ ((s.shard? m shard).bind (fun x => x.desc) = some d) ∧ (Apart (s.sxAt m shard) 128 (s.base4k (R.SX_PEN_LO m) (R.SX_PEN_HI m) + 8 * shard) 8) ∧ (Apart (s.sxAt m shard) 128 e.recv (8 * e.nchunk))) ∧
    (∃ s : State, ∃ m : Fin 16, ∃ shard : Fin 16384, ∃ e : SxEntry, ∃ l : SxLead, ∃ d : ShardDesc, (s.sxEntry m shard = e) ∧ ((s.sx m).leads.find? (fun l => l.shard == shard.val && l.round == e.round) = some l) ∧ (l.includedAt ≠ none) ∧ (e.lstate = 2) ∧ (s.pastCorr m l = true) ∧ (l.senders = []) ∧ ((s.shard? m shard).bind (fun x => x.desc) = some d) ∧ (Apart (s.sxAt m shard) 128 (s.base4k (R.SX_PEN_LO m) (R.SX_PEN_HI m) + 8 * shard) 8) ∧ (Apart (s.sxAt m shard) 128 e.recv (8 * e.nchunk))) :=
  ⟨⟨({ leadSt with now := 1260000000 }), 15, 1, (leadSt.sxEntry 15 1), (lead1 0), 2, desc1, by decide +kernel, by decide +kernel, by decide +kernel, by decide +kernel, by decide +kernel, by decide +kernel, by decide +kernel, by decide +kernel, by decide +kernel, by unfold Apart; decide +kernel, by unfold Apart; decide +kernel⟩,
   ⟨({ sxSt 5 9 1 2 8 (withLead { lead1 0 with includedAt := some 0, incl := [2 ^ 5], quorum := 32, wq := 2 }) with now := 2310000000 }), 15, 1, (leadSt.sxEntry 15 1 |> fun e => { e with state := 1, lstate := 2 }), ({ lead1 0 with includedAt := some 0, incl := [2 ^ 5], quorum := 32, wq := 2 }), desc1, by decide +kernel, by decide +kernel, by decide +kernel, by decide +kernel, by decide +kernel, by decide +kernel, by decide +kernel, by unfold Apart; decide +kernel, by unfold Apart; decide +kernel⟩⟩

theorem wit_LeadersCollectAndMerge_8 :
    ((Opens sackFr (leBytes 2 1 ++ leBytes 8 4 ++ leBytes 4 2)) → (∃ s : State, ∃ m : Fin 16, ∃ f : SiteFrame, ∃ u : State, ∃ data : List Byte, (s.authFrame m f = (u, some data)))) :=
  fun hA => ⟨sackSt, 15, sackFr, (heardFrom sackSt 15 sackFr), (leBytes 2 1 ++ leBytes 8 4 ++ leBytes 4 2), frameOpens _ _ _ _ (by decide) rfl hA⟩

theorem wit_LeadersCollectAndMerge_9 :
    (∃ s : State, ∃ m : Fin 16, ∃ shard : Fin 16384, ((s.sxEntry m shard).state = 2)) ∧
    (∃ s : State, ∃ m : Fin 16, ∃ shard : Fin 16384, ((s.sxEntry m shard).state ≠ 2)) :=
  ⟨⟨(holdSt 2 Sx.reset), 15, 1, by decide⟩,
   ⟨(holdSt 1 Sx.reset), 15, 1, by decide⟩⟩

theorem wit_HoldersOpenContributeAndApply_1 :
    (∃ s : State, ∃ m : Fin 16, (s.flag (R.SX_CTL m) F.SX_CTL_EN = true)) ∧
    (∃ s : State, ∃ m : Fin 16, (s.flag (R.SX_CTL m) F.SX_CTL_EN = false) ∧ (s.sxCount m = 0) ∧ (s.siteWeight m (s.ownSite m) ≠ 0)) ∧
    (∃ s : State, ∃ m : Fin 16, (s.flag (R.SX_CTL m) F.SX_CTL_EN = false) ∧ (s.flag (R.SX_CMDSTAT m) F.SX_CMDSTAT_BUSY = false) ∧ (s.flag (R.SX_FAULT m) F.SX_FAULT_VALID = false)) ∧
    (∃ s : State, ∃ m : Fin 16, (s.flag (R.SX_CTL m) F.SX_CTL_EN = true) ∧ (s.flag (R.SX_CMDSTAT m) F.SX_CMDSTAT_BUSY = false) ∧ (s.sxHolders m = [])) ∧
    (∃ s : State, ∃ m : Fin 16, ∃ e, ∃ d, ∃ leader, (s.flag (R.SX_CTL m) F.SX_CTL_EN = true) ∧ (s.flag (R.SX_CMDSTAT m) F.SX_CMDSTAT_BUSY = false) ∧ (s.sxHolders m = [e]) ∧ (e.state = 0) ∧ (e.sealed_ = false) ∧ ((e.sr = false ∨ s.unseeded m = false)) ∧ ((s.shard? m e.idx).bind (fun x => x.desc) = some d) ∧ (s.leaderOf m e = some leader)) ∧
    (∃ s : State, ∃ m : Fin 16, ∃ e, ∃ d, ∃ leader, (s.flag (R.SX_CTL m) F.SX_CTL_EN = true) ∧ (s.flag (R.SX_CMDSTAT m) F.SX_CMDSTAT_BUSY = false) ∧ (s.sxHolders m = [e]) ∧ (e.state = 0) ∧ (e.sealed_ = false) ∧ ((e.sr = false ∨ s.unseeded m = false)) ∧ ((s.shard? m e.idx).bind (fun x => x.desc) = some d) ∧ (s.leaderOf m e = some leader)) :=
  ⟨⟨leadSt, 15, by decide⟩,
   ⟨(((leadSt.put (R.SX_CTL 15) F.SX_CTL_EN 0).wr (R.SX_TABLE_CNT 15) 0)), 15, by decide, by decide, by decide⟩,
   ⟨base, 15, by decide, by decide, by decide⟩,
   ⟨(leadSt.wr (R.SX_TABLE_CNT 15) 0), 15, by decide, by decide, by decide⟩,
   ⟨(holdSt 0 Sx.reset), 15, ((holdSt 0 Sx.reset).sxEntry 15 1), desc1, 9, by decide +kernel⟩,
   ⟨(sxSt 5 9 0 0 8 Sx.reset), 15, ((sxSt 5 9 0 0 8 Sx.reset).sxEntry 15 1), desc1, 5, by decide +kernel⟩⟩

theorem wit_HoldersOpenContributeAndApply_2 :
    (∃ s : State, ∃ m : Fin 16, ∃ shard : Fin 16384, ∃ e : SxEntry, ∃ j, (s.sxEntry m shard = e) ∧ (s.flag (R.SX_CTL m) F.SX_CTL_EN = true) ∧ (s.flag (R.SX_CMDSTAT m) F.SX_CMDSTAT_BUSY = false) ∧ (shard.val < s.sxCount m) ∧ (e.valid = true) ∧ (e.holder = true) ∧ (e.round = 0) ∧ (e.state ≠ 5) ∧ (s.leaderOf m e = some j)) ∧
    (∃ s : State, ∃ m : Fin 16, ∃ shard : Fin 16384, ∃ e : SxEntry, (s.sxEntry m shard = e) ∧ (s.flag (R.SX_CTL m) F.SX_CTL_EN = true) ∧ (s.flag (R.SX_CMDSTAT m) F.SX_CMDSTAT_BUSY = false) ∧ (shard.val < s.sxCount m) ∧ (e.valid = true)) ∧
    (∃ s : State, ∃ m : Fin 16, ∃ shard : Fin 16384, ∃ e : SxEntry, (s.sxEntry m shard = e) ∧ (s.flag (R.SX_CTL m) F.SX_CTL_EN = true) ∧ (s.flag (R.SX_CMDSTAT m) F.SX_CMDSTAT_BUSY = false) ∧ (shard.val < s.sxCount m) ∧ (e.valid = true)) :=
  ⟨⟨(sxSt 9 9 3 0 0 Sx.reset), 15, 1, ((sxSt 9 9 3 0 0 Sx.reset).sxEntry 15 1), 9, by decide +kernel⟩,
   ⟨(sxSt 9 9 4 0 8 { Sx.reset with leads := [lead1 0], rebases := [rebase1 none false] }), 15, 1, ((sxSt 9 9 4 0 8 Sx.reset).sxEntry 15 1), by decide +kernel⟩,
   ⟨(sxSt 5 9 1 1 8 { Sx.reset with leads := [lead1 0], rounds := [round1] }), 15, 1, ((sxSt 5 9 1 1 8 Sx.reset).sxEntry 15 1), by decide +kernel⟩⟩

theorem wit_HoldersOpenContributeAndApply_3 :
    ((Opens (frame 4 9 8 0 0 (leBytes 8 (2 ^ 5))) (leBytes 8 (2 ^ 5))) → (∃ s : State, ∃ m : Fin 16, ∃ f : SiteFrame, ∃ u : State, ∃ data : List Byte, ∃ e : SxEntry, ∃ r : SxRound, ∃ i : Nat, (FrameFor s u m f data e) ∧ ((u.sx m).rounds.find? (fun r => r.shard == e.idx) = some r) ∧ (f.round = e.round) ∧ (e.state = 1) ∧ (r.leader = f.srcSite) ∧ (r.counted.any (fun p => p.1 == 65536 + f.item) = false) ∧ (i < data.length / 8) ∧ ((fieldAt data (8 * i) 8).testBit (u.ownSite m) = true) ∧ (u.needsCorr m (fieldAt data (8 * i) 8) = true))) :=
  fun hA => ⟨(holdSt 1 (withRound round1)), 15, (frame 4 9 8 0 0 (leBytes 8 (2 ^ 5))), (heardFrom (holdSt 1 (withRound round1)) 15 (frame 4 9 8 0 0 (leBytes 8 (2 ^ 5)))), (leBytes 8 (2 ^ 5)), ((holdSt 1 (withRound round1)).sxEntry 15 1), round1, 0, ⟨frameOpens _ _ _ _ (by decide) rfl hA, by decide, by decide +kernel⟩, by decide +kernel⟩

theorem wit_HoldersOpenContributeAndApply_4 :
    ((Opens (frame 4 9 8 0 0 (leBytes 8 (2 ^ 9))) (leBytes 8 (2 ^ 9))) → (∃ s : State, ∃ m : Fin 16, ∃ f : SiteFrame, ∃ u : State, ∃ data : List Byte, ∃ e : SxEntry, ∃ r : SxRound, ∃ i : Nat, (FrameFor s u m f data e) ∧ ((u.sx m).rounds.find? (fun r => r.shard == e.idx) = some r) ∧ (f.round = e.round) ∧ (e.state = 1) ∧ (r.leader = f.srcSite) ∧ (r.counted.any (fun p => p.1 == 65536 + f.item) = false) ∧ (i < data.length / 8) ∧ ((fieldAt data (8 * i) 8).testBit (u.ownSite m) = false))) :=
  fun hA => ⟨(holdSt 1 { withRound round1 with items := [{ item1 with sxid := 9 }] }), 15, (frame 4 9 8 0 0 (leBytes 8 (2 ^ 9))), (heardFrom (holdSt 1 { withRound round1 with items := [{ item1 with sxid := 9 }] }) 15 (frame 4 9 8 0 0 (leBytes 8 (2 ^ 9)))), (leBytes 8 (2 ^ 9)), ((holdSt 1 (withRound round1)).sxEntry 15 1), round1, 0, ⟨frameOpens _ _ _ _ (by decide) rfl hA, by decide, by decide +kernel⟩, by decide +kernel⟩

theorem wit_HoldersOpenContributeAndApply_5 :
    ((Opens (frame 6 9 8 0 (1 + 3 * 65536) (leBytes 8 77 ++ leBytes 8 0x220)) (leBytes 8 77 ++ leBytes 8 0x220)) → (∃ s : State, ∃ m : Fin 16, ∃ f : SiteFrame, ∃ u : State, ∃ data : List Byte, ∃ e : SxEntry, (FrameFor s u m f data e) ∧ (e.state < 3) ∧ (f.round = e.round) ∧ (f.item = 0) ∧ (fieldAt data 0 8 = e.lineage) ∧ ((u.roundOf m e f.srcSite).counted = []) ∧ (f.aux % 256 = 1))) :=
  fun hA => ⟨(holdSt 1 (withRound round1)), 15, (frame 6 9 8 0 (1 + 3 * 65536) (leBytes 8 77 ++ leBytes 8 0x220)), (heardFrom (holdSt 1 (withRound round1)) 15 (frame 6 9 8 0 (1 + 3 * 65536) (leBytes 8 77 ++ leBytes 8 0x220))), (leBytes 8 77 ++ leBytes 8 0x220), ((holdSt 1 (withRound round1)).sxEntry 15 1), ⟨frameOpens _ _ _ _ (by decide) rfl hA, by decide, by decide +kernel⟩, by decide +kernel⟩

theorem wit_HoldersOpenContributeAndApply_6 :
    ((Opens (frame 6 9 8 0 (3 * 65536) (leBytes 8 77 ++ leBytes 8 0x220)) (leBytes 8 77 ++ leBytes 8 0x220)) → (∃ s : State, ∃ m : Fin 16, ∃ f : SiteFrame, ∃ u : State, ∃ data : List Byte, ∃ e : SxEntry, (FrameFor s u m f data e) ∧ (e.state < 3) ∧ (f.round = e.round) ∧ (f.item = 0) ∧ (fieldAt data 0 8 = e.lineage) ∧ ((u.roundOf m e f.srcSite).counted = []) ∧ (f.aux % 256 ≠ 1) ∧ ((u.roundOf m e f.srcSite).merged = []) ∧ (0 < e.nchunk * e.chunkElems / 4096))) :=
  fun hA => ⟨(holdSt 1 (withRound round1)), 15, (frame 6 9 8 0 (3 * 65536) (leBytes 8 77 ++ leBytes 8 0x220)), (heardFrom (holdSt 1 (withRound round1)) 15 (frame 6 9 8 0 (3 * 65536) (leBytes 8 77 ++ leBytes 8 0x220))), (leBytes 8 77 ++ leBytes 8 0x220), ((holdSt 1 (withRound round1)).sxEntry 15 1), ⟨frameOpens _ _ _ _ (by decide) rfl hA, by decide, by decide +kernel⟩, by decide +kernel⟩

theorem wit_HoldersOpenContributeAndApply_7 :
    ((Opens (frame 7 9 8 3 0 words9) words9) → (∃ s : State, ∃ m : Fin 16, ∃ f : SiteFrame, ∃ u : State, ∃ data : List Byte, ∃ e : SxEntry, ∃ r : SxRound, (FrameFor s u m f data e) ∧ (e.state < 3) ∧ (f.round = e.round) ∧ (data.length = 8192) ∧ (u.roundOf m e f.srcSite = r) ∧ (r.merged.any (fun x => x.1 == f.item) = false) ∧ (r.head = none))) :=
  fun hA => ⟨(holdSt 1 (withRound round1)), 15, (frame 7 9 8 3 0 words9), (heardFrom (holdSt 1 (withRound round1)) 15 (frame 7 9 8 3 0 words9)), words9, ((holdSt 1 (withRound round1)).sxEntry 15 1), round1, ⟨frameOpens _ _ _ _ (by decide) rfl hA, by decide, by decide +kernel⟩, by decide +kernel⟩

theorem wit_HoldersOpenContributeAndApply_8 :
    ((Opens (frame 7 9 8 3 0 words0) words0) → (∃ s : State, ∃ m : Fin 16, ∃ f : SiteFrame, ∃ u : State, ∃ data : List Byte, ∃ e : SxEntry, ∃ r : SxRound, ∃ lin, ∃ q, ∃ wq, ∃ d, (FrameFor s u m f data e) ∧ (e.state < 3) ∧ (f.round = e.round) ∧ (data.length = 8192) ∧ (u.roundOf m e f.srcSite = r) ∧ (r.merged.any (fun x => x.1 == f.item) = false) ∧ (r.head = some (lin, q, wq)) ∧ ((List.range (max 1 ((e.nchunk + 65535) / 65536))).all (fun p => r.counted.any (fun c => c.1 == p)) = true) ∧ ((List.range (e.nchunk * e.chunkElems / 4096)).all (fun i => i == f.item || r.merged.any (fun x => x.1 == i)) = true) ∧ ((u.shard? m e.idx).bind (fun x => x.desc) = some d) ∧ (Apart (u.sxAt m e.idx) 128 (u.base4k (R.SX_PEN_LO m) (R.SX_PEN_HI m) + 8 * e.idx) 8))) :=
  fun hA => ⟨lastSt, 15, (frame 7 9 8 3 0 words0), (heardFrom lastSt 15 (frame 7 9 8 3 0 words0)), words0, (lastSt.sxEntry 15 1), lastRound, 77, 0x220, 3, desc1, ⟨frameOpens _ _ _ _ (by decide) rfl hA, by decide, by decide +kernel⟩, by decide +kernel, by decide +kernel, by decide +kernel, rfl, by decide +kernel, by decide +kernel, by decide +kernel, by decide +kernel, by decide +kernel, by unfold Apart; decide +kernel⟩

theorem wit_HoldersOpenContributeAndApply_9 :
    ((Opens (frame 11 9 8 0 1 []) []) → (∃ s : State, ∃ m : Fin 16, ∃ f : SiteFrame, ∃ u : State, ∃ data : List Byte, ∃ e : SxEntry, (FrameFor s u m f data e) ∧ (e.state = 1) ∧ (f.round = e.round) ∧ ((u.sx m).rounds.any (fun r => r.shard == e.idx && r.leader == f.srcSite) = true) ∧ (f.aux % 256 = 1))) :=
  fun hA => ⟨(holdSt 1 (withRound round1)), 15, (frame 11 9 8 0 1 []), (heardFrom (holdSt 1 (withRound round1)) 15 (frame 11 9 8 0 1 [])), ([]), ((holdSt 1 (withRound round1)).sxEntry 15 1), ⟨frameOpens _ _ _ _ (by decide) rfl hA, by decide, by decide +kernel⟩, by decide +kernel⟩

theorem wit_HoldersOpenContributeAndApply_10 :
    ((Opens (frame 11 9 8 0 4 []) []) → (∃ s : State, ∃ m : Fin 16, ∃ f : SiteFrame, ∃ u : State, ∃ data : List Byte, ∃ e : SxEntry, (FrameFor s u m f data e) ∧ (e.state = 1) ∧ (f.round = e.round) ∧ ((u.sx m).rounds.any (fun r => r.shard == e.idx && r.leader == f.srcSite) = true) ∧ (f.aux % 256 = 4))) :=
  fun hA => ⟨(holdSt 1 (withRound round1)), 15, (frame 11 9 8 0 4 []), (heardFrom (holdSt 1 (withRound round1)) 15 (frame 11 9 8 0 4 [])), ([]), ((holdSt 1 (withRound round1)).sxEntry 15 1), ⟨frameOpens _ _ _ _ (by decide) rfl hA, by decide, by decide +kernel⟩, by decide +kernel⟩

theorem wit_SnapshotsRebaseAndSitesStayInTouch_1 :
    ((Opens (frame 8 9 8 0 0 []) []) → (∃ s : State, ∃ m : Fin 16, ∃ f : SiteFrame, ∃ u : State, ∃ data : List Byte, ∃ e : SxEntry, ∃ sh : Shard, ∃ d : ShardDesc, (FrameFor s u m f data e) ∧ (u.shard? m e.idx = some sh) ∧ (sh.desc = some d) ∧ (e.state < 2) ∧ ((sh.j.state = 1 → sh.j.outer = false)) ∧ ((u.sx m).items.any (fun i => i.shard == e.idx && i.site == f.srcSite && (i.ftype == 9 || i.ftype == 10)) = false))) :=
  fun hA => ⟨(holdSt 1 Sx.reset), 15, (frame 8 9 8 0 0 []), (heardFrom (holdSt 1 Sx.reset) 15 (frame 8 9 8 0 0 [])), ([]), ((holdSt 1 Sx.reset).sxEntry 15 1), ({ shard1 (journal1 0) with idx := 1 }), desc1, ⟨frameOpens _ _ _ _ (by decide) rfl hA, by decide, by decide +kernel⟩, by decide +kernel⟩

theorem wit_SnapshotsRebaseAndSitesStayInTouch_2 :
    ((Opens (frame 9 9 20 0 0 (leBytes 8 55 ++ leBytes 4 16)) (leBytes 8 55 ++ leBytes 4 16)) → (∃ s : State, ∃ m : Fin 16, ∃ f : SiteFrame, ∃ u : State, ∃ data : List Byte, ∃ e : SxEntry, ∃ r : SxRebase, ∃ d : ShardDesc, ∃ i : Nat, (FrameFor s u m f data e) ∧ ((u.sx m).rebases.find? (fun r => r.shard == e.idx) = some r) ∧ ((u.shard? m e.idx).bind (fun x => x.desc) = some d) ∧ (r.site = f.srcSite) ∧ (r.module = f.srcModule) ∧ (r.head = none) ∧ (i < fieldAt data 8 4) ∧ (i ∉ r.got) ∧ (Apart (u.sxAt m e.idx) 128 e.ef (4 * d.exchElems)))) :=
  fun hA => ⟨(holdSt 3 (withRebase (rebase1 none true))), 15, (frame 9 9 20 0 0 (leBytes 8 55 ++ leBytes 4 16)), (heardFrom (holdSt 3 (withRebase (rebase1 none true))) 15 (frame 9 9 20 0 0 (leBytes 8 55 ++ leBytes 4 16))), (leBytes 8 55 ++ leBytes 4 16), ((holdSt 3 (withRebase (rebase1 none true))).sxEntry 15 1), (rebase1 none true), desc1, 15, ⟨frameOpens _ _ _ _ (by decide) rfl hA, by decide, by decide +kernel⟩, by decide +kernel, by decide +kernel, by decide +kernel, by decide +kernel, by decide +kernel, by decide +kernel, by decide +kernel, by unfold Apart; decide +kernel⟩

theorem wit_SnapshotsRebaseAndSitesStayInTouch_3 :
    ((Opens (frame 10 9 20 15 1 words9) words9) → (∃ s : State, ∃ m : Fin 16, ∃ f : SiteFrame, ∃ u : State, ∃ data : List Byte, ∃ e : SxEntry, ∃ r : SxRebase, ∃ d : ShardDesc, ∃ round : Nat, ∃ lineage : Nat, ∃ items : Nat, ∃ n : Nat, ∃ a : Nat, ∃ i, (FrameFor s u m f data e) ∧ ((u.sx m).rebases.find? (fun r => r.shard == e.idx) = some r) ∧ ((u.shard? m e.idx).bind (fun x => x.desc) = some d) ∧ (r.site = f.srcSite) ∧ (r.module = f.srcModule) ∧ (r.head = some (round, lineage, items)) ∧ (data.length = 8192) ∧ (d.exchElems / 2048 = n) ∧ (f.item < 2 * n) ∧ (f.item ∉ r.got) ∧ (a = (if f.aux % 2 = 0 then d.snap + 8192 * (f.item % n) else d.omom + 8192 * (f.item % n))) ∧ (i < items) ∧ (i ∉ f.item :: r.got))) :=
  fun hA => ⟨(holdSt 4 (withRebase (rebase1 (some (20, 55, 16)) false))), 15, (frame 10 9 20 15 1 words9), (heardFrom (holdSt 4 (withRebase (rebase1 (some (20, 55, 16)) false))) 15 (frame 10 9 20 15 1 words9)), words9, ((holdSt 4 (withRebase (rebase1 (some (20, 55, 16)) false))).sxEntry 15 1), (rebase1 (some (20, 55, 16)) false), desc1, 20, 55, 16, 8, (0x3E60000 + 8192 * 7), 0, ⟨frameOpens _ _ _ _ (by decide) rfl hA, by decide, by decide +kernel⟩, by decide +kernel⟩

theorem wit_SnapshotsRebaseAndSitesStayInTouch_4 :
    ((Opens (frame 10 9 20 15 1 words9) words9) → (∃ s : State, ∃ m : Fin 16, ∃ f : SiteFrame, ∃ u : State, ∃ data : List Byte, ∃ e : SxEntry, ∃ r : SxRebase, ∃ d : ShardDesc, ∃ round : Nat, ∃ lineage : Nat, ∃ items : Nat, ∃ n : Nat, ∃ a : Nat, (FrameFor s u m f data e) ∧ ((u.sx m).rebases.find? (fun r => r.shard == e.idx) = some r) ∧ ((u.shard? m e.idx).bind (fun x => x.desc) = some d) ∧ (r.site = f.srcSite) ∧ (r.module = f.srcModule) ∧ (r.head = some (round, lineage, items)) ∧ (data.length = 8192) ∧ (d.exchElems / 2048 = n) ∧ (f.item < 2 * n) ∧ (f.item ∉ r.got) ∧ (a = (if f.aux % 2 = 0 then d.snap + 8192 * (f.item % n) else d.omom + 8192 * (f.item % n))) ∧ ((List.range items).all (fun i => (f.item :: r.got).contains i) = true) ∧ ((d.src = false ∨ u.unseeded m = false)))) :=
  fun hA => ⟨doneSt, 15, (frame 10 9 20 15 1 words9), (heardFrom doneSt 15 (frame 10 9 20 15 1 words9)), words9, (doneSt.sxEntry 15 1), doneReb, desc1, 20, 55, 16, 8, (0x3E60000 + 8192 * 7), ⟨frameOpens _ _ _ _ (by decide) rfl hA, by decide, by decide +kernel⟩, by decide +kernel⟩

theorem wit_SnapshotsRebaseAndSitesStayInTouch_5 :
    ((Opens (frame 12 6 8 0 0 (leBytes 8 1 ++ [2])) (leBytes 8 1 ++ [2])) → (∃ s : State, ∃ m : Fin 16, ∃ f : SiteFrame, ∃ u : State, ∃ data : List Byte, (s.authFrame m f = (u, some data)) ∧ (f.srcSite < 64) ∧ ((∀ e, u.sxFind m f.sxid = some e → f.round ≤ e.round)))) :=
  fun hA => ⟨leadSt, 15, (frame 12 6 8 0 0 (leBytes 8 1 ++ [2])), (heardFrom leadSt 15 (frame 12 6 8 0 0 (leBytes 8 1 ++ [2]))), (leBytes 8 1 ++ [2]), frameOpens _ _ _ _ (by decide) rfl hA, by decide, by decide +kernel⟩

theorem wit_SnapshotsRebaseAndSitesStayInTouch_6 :
    ((Opens (frame 12 5 9 0 0 (leBytes 8 1 ++ [2])) (leBytes 8 1 ++ [2])) → (∃ s : State, ∃ m : Fin 16, ∃ f : SiteFrame, ∃ u : State, ∃ data : List Byte, ∃ e, (s.authFrame m f = (u, some data)) ∧ (f.srcSite < 64) ∧ (u.sxFind m f.sxid = some e) ∧ (e.round < f.round) ∧ (e.state < 3))) :=
  fun hA => ⟨leadSt, 15, (frame 12 5 9 0 0 (leBytes 8 1 ++ [2])), (heardFrom leadSt 15 (frame 12 5 9 0 0 (leBytes 8 1 ++ [2]))), (leBytes 8 1 ++ [2]), (leadSt.sxEntry 15 1), frameOpens _ _ _ _ (by decide) rfl hA, by decide +kernel⟩

theorem wit_SnapshotsRebaseAndSitesStayInTouch_7 :
    (∃ s : State, ∃ m : Fin 16, ∃ site : Fin 64, ∃ md : BitVec 17, (s.now < lookup2 s.sites.sentTo m md.toNat + secTicks)) ∧
    (∃ s : State, ∃ m : Fin 16, ∃ site : Fin 64, ∃ md : BitVec 17, (lookup2 s.sites.sentTo m md.toNat + secTicks ≤ s.now)) ∧
    (∃ s : State, ∃ k : Fin 8, ∃ site : Fin 64, ∃ lost : Nat, (s.get R.SP_LOSTMS F.SP_LOSTMS_MS * msTicks = lost) ∧ ((s.outOfTouch k site = true ∨ s.now < lookup2 s.sites.heard k site + lost))) ∧
    (∃ s : State, ∃ k : Fin 8, ∃ site : Fin 64, ∃ lost : Nat, (s.get R.SP_LOSTMS F.SP_LOSTMS_MS * msTicks = lost) ∧ (s.outOfTouch k site = false) ∧ (lookup2 s.sites.heard k site + lost ≤ s.now)) :=
  ⟨⟨({ base with now := 4199999999 }), 15, 63, 0, by decide⟩,
   ⟨({ base with now := 4200000000 }), 15, 63, 0, by decide⟩,
   ⟨({ base with now := 251999999999 }), 7, 63, 252000000000, by decide, Or.inr (by decide)⟩,
   ⟨({ base with now := 252000000000 }), 7, 63, 252000000000, by decide, by decide, by decide⟩⟩
/-- Canton 7 of 8 in a policy state, SEC_BUF owned by the host view and filled. -/
def secSt (pol : Nat) (c : CantonSec) (buf : List (Nat × List Byte)) : State :=
  let s := base.put R.ARCH_CFG F.ARCH_CFG_CANTON_LOG2 3
  let s := (s.put (R.CPOL_STATUS 7) F.CPOL_STATUS_STATE pol).put R.SEC_OWN F.SEC_OWN_VIEW 8
  buf.foldl (fun t p => t.bufPut p.1 p.2) (s.setCanton 7 c)
def party9 : Party := ⟨9, [1, 2], [3], [4]⟩
def manifest9 : Manifest := ⟨[party9], 1, 1, [5], [], [6]⟩
def held9 : CantonSec := { CantonSec.reset with manifest := some manifest9 }
def spdmSt (f : Spdm → Spdm) : State :=
  let s := base.put R.SEC_STATUS F.SEC_STATUS_IDOK 1
  { s with sec := { s.sec with spdm := f Spdm.reset } }
def starting (phase : Nat) : State :=
  let s := State.reset.put R.BOOT_STATUS F.BOOT_STATUS_PHASE phase
  { s with pwr := { s.pwr with mode := .starting } }
def ka1Msg (purpose : Nat) : List Byte := [1, BitVec.ofNat 8 purpose, 7, 0] ++ leBytes 4 0 ++ leBytes 4 131071 ++ List.replicate 1697 0
def agreement (initiator : Bool) : Agreement := ⟨2, 7, initiator, [1], ka1Msg 2, [], 0⟩
def agreeing (initiator : Bool) (now : Nat) : State :=
  let s := secSt 1 held9 []
  { s with now := now, sec := { s.sec with agreements := [⟨1, 0, true, [], [], [], 0⟩, agreement initiator] } }
def key9 : DataKey := ⟨9, 21, [8]⟩
/-- An ASSIGN argument for canton 7 with one party: assignment, manifest, policy record. -/
def assignArg : List (Nat × List Byte) :=
  [(0, [7, 3, 0, 0] ++ leBytes 4 99), (520, [1, 0, 1, 1] ++ leBytes 4 99 ++ [1]), (520 + 32, [9]),
   (520 + 32 + partyBytes + 512 + 512, [1, 0, 7, 3] ++ leBytes 4 99 ++ leBytes 4 0 ++ [1, 1, 1])]
def scanning (ds : List (Fin 64)) : State :=
  let s := secSt 1 held9 []
  { s with sec := { s.sec with tap := .scan ds } }
/-- An envelope for party 9, into slot 15, of which a share is handed in; bytes put into SEC_BUF after it. -/
def gatherSt (more : List (Nat × List Byte)) : State :=
  secSt 1 { held9 with gathers := [⟨15, 3, 9, 1, [], []⟩], wraps := [(9, [2]), (8, [3])] } ([(0, leBytes 8 3 ++ [9])] ++ more)

theorem wit_SpdmRespondsOnlyWithAnIdentity_1 :
    (∃ s : State, ∃ tcp : Bool, ∃ n : List Byte, ∃ share : List Byte, ∃ proof : List Byte, ∃ part : List Byte, ∃ keys : List Byte, ∃ o : Bool, ∃ a : Nat, ∃ b : Nat, ∃ c : Nat, ∃ m : Option (List Byte), ∃ i, (i ∈ [Instr.spdmGetVersion tcp, .spdmGetCapabilities tcp, .spdmNegotiateAlgorithms tcp o, .spdmGetDigests tcp, .spdmGetCertificate tcp a b c, .spdmChallenge tcp n, .spdmGetMeasurements tcp a m, .spdmKeyExchange tcp share, .spdmFinish tcp proof, .spdmEndSession tcp, .spdmChunkSend tcp a part, .spdmChunkGet tcp a, .spdmVendorDefinedRequest tcp keys]) ∧ (s.flag R.SEC_STATUS F.SEC_STATUS_IDOK = false) ∧ ((tcp = true ∨ s.pwr.mode ≠ .starting ∨ 3 ≤ s.get R.BOOT_STATUS F.BOOT_STATUS_PHASE))) ∧
    (∃ s : State, ∃ tcp : Bool, ∃ n : List Byte, ∃ share : List Byte, ∃ proof : List Byte, ∃ part : List Byte, ∃ keys : List Byte, ∃ o : Bool, ∃ a : Nat, ∃ b : Nat, ∃ c : Nat, ∃ m : Option (List Byte), ∃ i, (i ∈ [Instr.spdmGetVersion tcp, .spdmGetCapabilities tcp, .spdmNegotiateAlgorithms tcp o, .spdmGetDigests tcp, .spdmGetCertificate tcp a b c, .spdmChallenge tcp n, .spdmGetMeasurements tcp a m, .spdmKeyExchange tcp share, .spdmFinish tcp proof, .spdmEndSession tcp, .spdmChunkSend tcp a part, .spdmChunkGet tcp a, .spdmVendorDefinedRequest tcp keys]) ∧ (s.flag R.SEC_STATUS F.SEC_STATUS_IDOK = false) ∧ ((tcp = true ∨ s.pwr.mode ≠ .starting ∨ 3 ≤ s.get R.BOOT_STATUS F.BOOT_STATUS_PHASE))) ∧
    (∃ s : State, ∃ tcp : Bool, ∃ n : List Byte, ∃ share : List Byte, ∃ proof : List Byte, ∃ part : List Byte, ∃ keys : List Byte, ∃ o : Bool, ∃ a : Nat, ∃ b : Nat, ∃ c : Nat, ∃ m : Option (List Byte), ∃ i, (i ∈ [Instr.spdmGetVersion tcp, .spdmGetCapabilities tcp, .spdmNegotiateAlgorithms tcp o, .spdmGetDigests tcp, .spdmGetCertificate tcp a b c, .spdmChallenge tcp n, .spdmGetMeasurements tcp a m, .spdmKeyExchange tcp share, .spdmFinish tcp proof, .spdmEndSession tcp, .spdmChunkSend tcp a part, .spdmChunkGet tcp a, .spdmVendorDefinedRequest tcp keys]) ∧ (tcp = false) ∧ (s.pwr.mode = .starting) ∧ (s.get R.BOOT_STATUS F.BOOT_STATUS_PHASE < 3)) ∧
    (∃ s : State, ∃ tcp : Bool, (SpdmReady s tcp)) ∧
    (∃ s : State, ∃ tcp : Bool, (SpdmReady s tcp)) ∧
    (∃ s : State, ∃ tcp : Bool, (SpdmReady s tcp)) :=
  ⟨⟨(starting 3), false, ([]), ([]), ([]), ([]), ([]), false, 0, 0, 0, none, (Instr.spdmChallenge false []), by decide, by decide, by decide⟩,
   ⟨(starting 2), true, ([]), ([]), ([]), ([]), ([]), false, 0, 0, 0, none, (Instr.spdmGetVersion true), by decide, by decide, by decide⟩,
   ⟨(starting 2), false, ([]), ([]), ([]), ([]), ([]), false, 0, 0, 0, none, (Instr.spdmGetDigests false), by decide, by decide, by decide, by decide⟩,
   ⟨(spdmSt id), false, by constructor <;> decide⟩,
   ⟨(spdmSt id), false, by constructor <;> decide⟩,
   ⟨(spdmSt id), false, by constructor <;> decide⟩⟩

theorem wit_SpdmRespondsOnlyWithAnIdentity_2 :
    (∃ s : State, ∃ tcp : Bool, (SpdmReady s tcp)) ∧
    (∃ s : State, ∃ tcp : Bool, (SpdmReady s tcp)) ∧
    (∃ s : State, ∃ tcp : Bool, ∃ off : Nat, ∃ len : Nat, (SpdmReady s tcp)) ∧
    (∃ s : State, ∃ tcp : Bool, ∃ slot : Nat, ∃ off : Nat, ∃ len : Nat, (SpdmReady s tcp) ∧ (slot ≠ 0)) ∧
    (∃ s : State, ∃ tcp : Bool, ∃ n : List Byte, (SpdmReady s tcp)) ∧
    (∃ s : State, ∃ tcp : Bool, ∃ i : Nat, ∃ b : List Byte, (SpdmReady s tcp) ∧ (i ≠ 0) ∧ (s.measurement i = some b)) :=
  ⟨⟨(spdmSt id), false, by constructor <;> decide⟩,
   ⟨(spdmSt id), true, by constructor <;> decide⟩,
   ⟨(spdmSt id), false, 65535, 9, by constructor <;> decide⟩,
   ⟨(spdmSt id), false, 1, 0, 0, by constructor <;> decide, by decide⟩,
   ⟨(spdmSt id), false, ([1]), by constructor <;> decide⟩,
   ⟨(spdmSt id), false, 8, ((spdmSt id).rel.capMap), by constructor <;> decide, by decide, by decide⟩⟩

theorem wit_SpdmRespondsOnlyWithAnIdentity_3 :
    (∃ s : State, ∃ tcp : Bool, ∃ i : Nat, ∃ b : List Byte, ∃ n : List Byte, (SpdmReady s tcp) ∧ (i ≠ 0) ∧ (s.measurement i = some b)) ∧
    (∃ s : State, ∃ tcp : Bool, ∃ share : List Byte, (SpdmReady s tcp)) ∧
    (∃ s : State, ∃ tcp : Bool, ∃ key : List Byte, ∃ done : Bool, ∃ proof : List Byte, (SpdmReady s tcp) ∧ (s.sec.spdm.session = some (key, done))) ∧
    (∃ s : State, ∃ tcp : Bool, ∃ key : List Byte, ∃ done : Bool, ∃ proof : List Byte, (SpdmReady s tcp) ∧ (s.sec.spdm.session = some (key, done))) ∧
    (∃ s : State, ∃ tcp : Bool, ∃ q : Nat, ∃ part : List Byte, (SpdmReady s tcp)) ∧
    (∃ s : State, ∃ tcp : Bool, ∃ q : Nat, (SpdmReady s tcp) ∧ (q * 65536 < s.sec.spdm.long.length)) :=
  ⟨⟨(spdmSt id), false, 8, ((spdmSt id).rel.capMap), ([1]), by constructor <;> decide, by decide, by decide⟩,
   ⟨(spdmSt id), false, ([2]), by constructor <;> decide⟩,
   ⟨(spdmSt (fun x => { x with session := some ([3], false) })), false, ([3]), false, ([1]), by constructor <;> decide, by decide⟩,
   ⟨(spdmSt (fun x => { x with session := some ([3], true) })), false, ([3]), true, ([1]), by constructor <;> decide, by decide⟩,
   ⟨(spdmSt id), false, 1, ([1]), by constructor <;> decide⟩,
   ⟨(spdmSt (fun x => { x with long := [1, 2] })), false, 0, by constructor <;> decide, by decide⟩⟩

theorem wit_SpdmRespondsOnlyWithAnIdentity_4 :
    (∃ s : State, ∃ tcp : Bool, ∃ key : List Byte, ∃ keys : List Byte, (SpdmReady s tcp) ∧ (s.sec.spdm.session = some (key, true))) ∧
    (∃ s : State, ∃ tcp : Bool, ∃ keys : List Byte, (SpdmReady s tcp) ∧ ((∀ key : List Byte, s.sec.spdm.session ≠ some (key, true)))) ∧
    (∃ s : State, ∃ tcp : Bool, ∃ i : Nat, (i < 3)) ∧
    (∃ s : State, ∃ tcp : Bool, ∃ a : SpdmAnswer, ∃ at_ : Nat, (s.sec.spdm.waiting = some (a, at_))) :=
  ⟨⟨(spdmSt (fun x => { x with session := some ([3], true) })), false, ([3]), ([7]), by constructor <;> decide, by decide⟩,
   ⟨(spdmSt id), false, ([7]), by constructor <;> decide, (fun _ h => nomatch (h : none = some _))⟩,
   ⟨base, false, 2, by decide⟩,
   ⟨(spdmSt (fun x => { x with waiting := some (.error, 0) })), false, .error, 0, by decide⟩⟩

theorem wit_CantonsAreAssignedAndScrubbed_1 :
    (∃ s : State, ∃ v : View, ∃ x : W32, ((fldOf x F.SEC_OWN_VIEW = s.viewNo v ∨ fldOf x F.SEC_OWN_VIEW = 15)) ∧ ((s.get R.SEC_OWN F.SEC_OWN_VIEW = 15 ∨ s.get R.SEC_OWN F.SEC_OWN_VIEW = s.viewNo v))) ∧
    (∃ s : State, ∃ v : View, ∃ x : W32, ((fldOf x F.SEC_OWN_VIEW = s.viewNo v ∨ fldOf x F.SEC_OWN_VIEW = 15)) ∧ ((s.get R.SEC_OWN F.SEC_OWN_VIEW = 15 ∨ s.get R.SEC_OWN F.SEC_OWN_VIEW = s.viewNo v))) ∧
    (∃ s : State, ∃ v : View, ∃ x : W32, (¬ ((fldOf x F.SEC_OWN_VIEW = s.viewNo v ∨ fldOf x F.SEC_OWN_VIEW = 15) ∧ (s.get R.SEC_OWN F.SEC_OWN_VIEW = 15 ∨ s.get R.SEC_OWN F.SEC_OWN_VIEW = s.viewNo v)))) ∧
    (∃ s : State, ∃ v : View, ∃ k : Fin 8, ∃ slot : Fin 16, ∃ st : KaStep, ∃ c, (c ∈ [Instr.secAssign v k, .secKagree v k st, .secDatakey v k, .secCkpt v k slot, .secResume v k slot, .secShare v k, .secRelease v k slot, .secConsent v k, .secKeydrop v k slot, .secScrub v k]) ∧ (s.flag R.SEC_CMDSTAT F.SEC_CMDSTAT_BUSY = true)) ∧
    (∃ s : State, ∃ v : View, ∃ k : Fin 8, ∃ slot : Fin 16, ∃ st : KaStep, ∃ c, (c ∈ [Instr.secAssign v k, .secKagree v k st, .secDatakey v k, .secCkpt v k slot, .secResume v k slot, .secShare v k, .secRelease v k slot, .secConsent v k, .secKeydrop v k slot, .secScrub v k]) ∧ (s.flag R.SEC_CMDSTAT F.SEC_CMDSTAT_BUSY = false) ∧ (s.recovery = true)) ∧
    (∃ s : State, ∃ v : View, ∃ k : Fin 8, ∃ slot : Fin 16, ∃ st : KaStep, ∃ c, (c ∈ [Instr.secAssign v k, .secKagree v k st, .secDatakey v k, .secCkpt v k slot, .secResume v k slot, .secShare v k, .secRelease v k slot, .secConsent v k, .secKeydrop v k slot, .secScrub v k]) ∧ (s.flag R.SEC_CMDSTAT F.SEC_CMDSTAT_BUSY = false) ∧ (s.recovery = false) ∧ (s.get R.SEC_OWN F.SEC_OWN_VIEW ≠ s.viewNo v)) :=
  ⟨⟨((secSt 0 CantonSec.reset [(262143, [1])])), .host, 15, by decide, by decide⟩,
   ⟨(base.put R.SEC_OWN F.SEC_OWN_VIEW 15), .host, 8, by decide, by decide⟩,
   ⟨(secSt 0 CantonSec.reset []), (.core 39), 7, by decide⟩,
   ⟨(base.put R.SEC_CMDSTAT F.SEC_CMDSTAT_BUSY 1), .host, 0, 0, .one, (Instr.secScrub .host 0), by decide, by decide⟩,
   ⟨(base.put R.BOOT_STATUS F.BOOT_STATUS_PHASE 9), .host, 0, 0, .one, (Instr.secAssign .host 0), by decide, by decide, by decide⟩,
   ⟨(secSt 1 held9 []), (.core 39), 7, 0, .one, (Instr.secDatakey (.core 39) 7), by decide, by decide, by decide, by decide⟩⟩

theorem wit_CantonsAreAssignedAndScrubbed_2 :
    (∃ s : State, ∃ v : View, ∃ k : Fin 8, ∃ slot : Fin 16, ∃ st : KaStep, ∃ c, (c ∈ [Instr.secAssign v k, .secKagree v k st, .secDatakey v k, .secCkpt v k slot, .secResume v k slot, .secShare v k, .secRelease v k slot, .secConsent v k, .secKeydrop v k slot, .secScrub v k]) ∧ (s.flag R.SEC_CMDSTAT F.SEC_CMDSTAT_BUSY = false) ∧ (s.recovery = false) ∧ (s.get R.SEC_OWN F.SEC_OWN_VIEW = s.viewNo v) ∧ (((s.viewNo v ≠ 8 ∧ s.viewNo v ≠ k) ∨ s.cantons ≤ k))) ∧
    (∃ s : State, ∃ v : View, ∃ k : Fin 8, ∃ slot : Fin 16, ∃ st : KaStep, ∃ c, (c ∈ [Instr.secAssign v k, .secKagree v k st, .secDatakey v k, .secCkpt v k slot, .secResume v k slot, .secShare v k, .secRelease v k slot, .secConsent v k, .secKeydrop v k slot, .secScrub v k]) ∧ (s.flag R.SEC_CMDSTAT F.SEC_CMDSTAT_BUSY = false) ∧ (s.recovery = false) ∧ (s.get R.SEC_OWN F.SEC_OWN_VIEW = s.viewNo v) ∧ (((s.viewNo v ≠ 8 ∧ s.viewNo v ≠ k) ∨ s.cantons ≤ k))) ∧
    (∃ s : State, ∃ v : View, ∃ k : Fin 8, ∃ slot : Fin 16, ∃ st : KaStep, ∃ c, (c ∈ [Instr.secAssign v k, .secKagree v k st, .secDatakey v k, .secCkpt v k slot, .secResume v k slot, .secShare v k, .secRelease v k slot, .secConsent v k, .secKeydrop v k slot, .secScrub v k]) ∧ (SecReady s v k)) ∧
    (∃ s : State, ∃ v : View, ∃ k : Fin 8, ∃ m : Manifest, ∃ job : Nat, ∃ body : List Byte, ∃ sigs : List (List Byte), ∃ total : Nat, ∃ pol : List Byte, (SecReady s v k) ∧ (s.polState k = 0) ∧ (s.flag (R.SCRUB_STATUS k) F.SCRUB_STATUS_PEND = false) ∧ ((s.get R.CONT_STATUS F.CONT_STATUS_UNUSABLE).testBit k = false) ∧ (parseManifest (s.buf 520 (0x40000 - 520)) = (m, job, body, sigs, total)) ∧ (((s.buf 520 (0x40000 - 520)).drop total).take 256 = pol) ∧ (fieldAt (s.buf 0 520) 0 1 = k.val) ∧ (fieldAt (s.buf 0 520) 1 1 ≤ 3) ∧ (fieldAt (s.buf 0 520) 2 2 = 0) ∧ (fieldAt (s.buf 0 520) 4 4 = job) ∧ (1 ≤ m.parties.length) ∧ (m.parties.length ≤ 32) ∧ (1 ≤ m.resumeK) ∧ (m.resumeK ≤ m.parties.length) ∧ (1 ≤ m.releaseK) ∧ (m.releaseK ≤ m.parties.length) ∧ (fieldAt pol 0 2 = 1) ∧ (fieldAt pol 2 1 = k.val) ∧ (fieldAt pol 3 1 = fieldAt (s.buf 0 520) 1 1) ∧ (fieldAt pol 4 4 = job) ∧ (fieldAt pol 12 1 = m.parties.length) ∧ (fieldAt pol 13 1 = m.resumeK) ∧ (fieldAt pol 14 1 = m.releaseK) ∧ (fieldAt pol 15 1 = 0) ∧ (zeroAt pol 80 176 = true)) ∧
    (∃ s : State, ∃ v : View, ∃ k : Fin 8, (SecReady s v k) ∧ (s.polState k = 1)) ∧
    (∃ s : State, ∃ k : Fin 8, (s.polState k = 2) ∧ (s.get (R.SCRUB_STATUS k) F.SCRUB_STATUS_STEP = 1) ∧ (s.busyCanton k = false)) :=
  ⟨⟨((secSt 1 held9 []).put R.SEC_OWN F.SEC_OWN_VIEW 7), (.core 39), 6, 0, .one, (Instr.secConsent (.core 39) 6), by decide, by decide, by decide, by decide, by decide⟩,
   ⟨(base.put R.SEC_OWN F.SEC_OWN_VIEW 8), .host, 1, 0, .one, (Instr.secConsent .host 1), by decide, by decide, by decide, by decide, by decide⟩,
   ⟨(secSt 0 CantonSec.reset []), .host, 7, 0, .one, (Instr.secKeydrop .host 7 0), by decide, by constructor <;> decide⟩,
   ⟨(secSt 0 CantonSec.reset assignArg), .host, 7, ((parseManifest ((secSt 0 CantonSec.reset assignArg).buf 520 (0x40000 - 520))).1), 99, ((parseManifest ((secSt 0 CantonSec.reset assignArg).buf 520 (0x40000 - 520))).2.2.1), ((parseManifest ((secSt 0 CantonSec.reset assignArg).buf 520 (0x40000 - 520))).2.2.2.1), ((parseManifest ((secSt 0 CantonSec.reset assignArg).buf 520 (0x40000 - 520))).2.2.2.2), ((((secSt 0 CantonSec.reset assignArg).buf 520 (0x40000 - 520)).drop (parseManifest ((secSt 0 CantonSec.reset assignArg).buf 520 (0x40000 - 520))).2.2.2.2).take 256), by constructor <;> decide, by decide +kernel, by decide +kernel, by decide +kernel, rfl, rfl, by decide +kernel⟩,
   ⟨(secSt 1 held9 []), .host, 7, by constructor <;> decide, by decide⟩,
   ⟨((secSt 2 held9 []).put (R.SCRUB_STATUS 7) F.SCRUB_STATUS_STEP 1), 7, by decide +kernel⟩⟩

theorem wit_CantonsAreAssignedAndScrubbed_3 :
    (∃ s : State, ∃ k : Fin 8, (s.polState k = 2) ∧ (s.get (R.SCRUB_STATUS k) F.SCRUB_STATUS_STEP = 1) ∧ (s.busyCanton k = true)) ∧
    (∃ s : State, ∃ k : Fin 8, (s.polState k = 2) ∧ (s.get (R.SCRUB_STATUS k) F.SCRUB_STATUS_STEP = 1) ∧ ((s.canton k).scrubAt + 100 * msTicks < s.now)) ∧
    (∃ s : State, ∃ k : Fin 8, (s.polState k = 2) ∧ (s.get (R.SCRUB_STATUS k) F.SCRUB_STATUS_STEP = 1) ∧ (s.now ≤ (s.canton k).scrubAt + 100 * msTicks)) ∧
    (∃ s : State, ∃ k : Fin 8, (s.polState k = 2) ∧ (s.get (R.SCRUB_STATUS k) F.SCRUB_STATUS_STEP = 5) ∧ (s.treesUp k = true)) ∧
    (∃ s : State, ∃ v : View, ∃ k : Fin 8, (SecReady s v k) ∧ ((s.get R.CONT_STATUS F.CONT_STATUS_UNUSABLE).testBit k = true)) ∧
    (∃ s : State, ∃ v : View, ∃ k : Fin 8, (SecReady s v k) ∧ ((s.get R.CONT_STATUS F.CONT_STATUS_UNUSABLE).testBit k = false) ∧ (s.polState k ≠ 0)) :=
  ⟨⟨(((secSt 2 held9 []).put (R.SCRUB_STATUS 7) F.SCRUB_STATUS_STEP 1).wr (R.SEQ_Q_STATUS 39 3) 1), 7, by decide +kernel⟩,
   ⟨({ ((secSt 2 held9 []).put (R.SCRUB_STATUS 7) F.SCRUB_STATUS_STEP 1) with now := 420000001 }), 7, by decide, by decide, by decide⟩,
   ⟨({ ((secSt 2 held9 []).put (R.SCRUB_STATUS 7) F.SCRUB_STATUS_STEP 1) with now := 420000000 }), 7, by decide, by decide, by decide⟩,
   ⟨((((secSt 2 held9 []).put (R.SCRUB_STATUS 7) F.SCRUB_STATUS_STEP 5).put (R.SEAL_STATUS 7) F.SEAL_STATUS_TREE 1).put (R.SEAL_STATUS 15) F.SEAL_STATUS_TREE 1), 7, by decide, by decide, by decide⟩,
   ⟨((secSt 0 CantonSec.reset []).put R.CONT_STATUS F.CONT_STATUS_UNUSABLE 128), .host, 7, by constructor <;> decide, by decide⟩,
   ⟨(secSt 2 CantonSec.reset []), .host, 7, by constructor <;> decide, by decide, by decide⟩⟩

theorem wit_CantonsAreAssignedAndScrubbed_4 :
    ∃ s : State, ∃ v : View, ∃ k : Fin 8, (SecReady s v k) ∧ (s.polState k ≠ 1) :=
  ⟨(secSt 2 CantonSec.reset []), .host, 7, by constructor <;> decide, by decide⟩

theorem wit_KeyAgreementsAndPartyData_1 :
    (∃ s : State, ∃ msg : List Byte, ∃ p : Nat, ∃ k : Nat, (fieldAt msg 1 1 = p) ∧ (fieldAt msg 2 1 = k) ∧ ((msg.length ≠ 1709 ∨ fieldAt msg 0 1 ≠ 1 ∨ fieldAt msg 3 1 ≠ 0 ∨ idFits p (fieldAt msg 8 4) = false ∨ (p ≠ 1 ∧ fieldAt msg 4 4 ≠ s.jobs.getD k 0)))) ∧
    (∃ s : State, ∃ msg : List Byte, ∃ p : Nat, ∃ k : Nat, (fieldAt msg 1 1 = p) ∧ (fieldAt msg 2 1 = k) ∧ (msg.length = 1709) ∧ (fieldAt msg 0 1 = 1) ∧ (fieldAt msg 3 1 = 0) ∧ (s.admitsKa p k = false) ∧ (idFits p (fieldAt msg 8 4) = true) ∧ ((p = 1 ∨ fieldAt msg 4 4 = s.jobs.getD k 0))) ∧
    (∃ s : State, ∃ msg : List Byte, ∃ p : Nat, ∃ k : Nat, (fieldAt msg 1 1 = p) ∧ (fieldAt msg 2 1 = k) ∧ (msg.length = 1709) ∧ (fieldAt msg 0 1 = 1) ∧ (fieldAt msg 3 1 = 0) ∧ (s.admitsKa p k = true) ∧ (idFits p (fieldAt msg 8 4) = true) ∧ ((p = 1 ∨ fieldAt msg 4 4 = s.jobs.getD k 0))) ∧
    (∃ s : State, ∃ i : Nat, ∃ msg : List Byte, ∃ a : Agreement, (s.sec.agreements[i]? = some a) ∧ (a.initiator = true)) ∧
    (∃ s : State, ∃ i : Nat, ∃ msg : List Byte, ∃ a : Agreement, (s.sec.agreements[i]? = some a) ∧ (a.initiator = false)) ∧
    (∃ s : State, ∃ i : Nat, ∃ a : Agreement, (s.sec.agreements[i]? = some a) ∧ (a.at_ + 42000000000 ≤ s.now)) :=
  ⟨⟨(secSt 1 held9 []), ([0, 2, 7, 0]), 2, 7, by decide, by decide, Or.inl (by decide)⟩,
   ⟨(secSt 0 held9 []), (ka1Msg 2), 2, 7, by decide +kernel⟩,
   ⟨(secSt 1 held9 []), (ka1Msg 2), 2, 7, by decide +kernel⟩,
   ⟨(agreeing true 0), 1, ([1]), (agreement true), by decide +kernel⟩,
   ⟨(agreeing false 0), 1, ([1]), (agreement false), by decide +kernel⟩,
   ⟨(agreeing true 42000000000), 1, (agreement true), by decide +kernel⟩⟩

theorem wit_KeyAgreementsAndPartyData_2 :
    (∃ s : State, ∃ i : Nat, ∃ a : Agreement, (s.sec.agreements[i]? = some a) ∧ (s.now < a.at_ + 42000000000)) ∧
    (∃ s : State, ∃ v : View, ∃ k : Fin 8, ∃ p : Fin 16, (SecReady s v k) ∧ (s.polState k = 1) ∧ ((p = 2 ∨ p = 3 ∨ p = 4))) ∧
    (∃ s : State, ∃ v : View, ∃ k : Fin 8, ∃ p : Nat, ∃ n : Nat, ∃ w : List Byte, (SecReady s v k) ∧ (s.polState k = 1) ∧ (fieldAt (s.buf 0 4) 0 1 = p) ∧ (fieldAt (s.buf 0 4) 1 1 = n) ∧ (((s.canton k).wraps.find? (fun x => x.1 == p)) = some (p, w))) ∧
    (∃ s : State, ∃ v : View, ∃ k : Fin 8, ∃ p : Nat, ∃ n : Nat, ∃ w : List Byte, (SecReady s v k) ∧ (s.polState k = 1) ∧ (fieldAt (s.buf 0 4) 0 1 = p) ∧ (fieldAt (s.buf 0 4) 1 1 = n) ∧ (((s.canton k).wraps.find? (fun x => x.1 == p)) = some (p, w))) ∧
    (∃ s : State, ∃ k : Fin 8, ∃ id : BitVec 32, ∃ sig : List Byte, ∃ d : DataKey, ∃ p : Party, ((s.canton k).dataKeys.find? (fun y => y.keyId == id.toNat) = some d) ∧ ((s.canton k).party? d.party = some p)) ∧
    (∃ s : State, ∃ k : Fin 8, ∃ src : Nat, ∃ dst : Nat, ∃ len : Nat, ∃ h : List Byte, ∃ d : DataKey, (s.bytes src 32 = h) ∧ (fieldAt h 16 4 = len) ∧ (s.polState k = 1) ∧ ((s.canton k).dataKeys.find? (fun y => y.keyId == fieldAt h 4 4) = some d) ∧ (d.party = fieldAt h 0 1) ∧ (1 ≤ len) ∧ (len ≤ 16777216) ∧ (s.inSlice k src 32 = true) ∧ (s.inSlice k src (48 + len) = true) ∧ (s.inSlice k dst len = true) ∧ (s.readable src 32 = true) ∧ (s.readable src (48 + len) = true)) :=
  ⟨⟨(agreeing true 41999999999), 1, (agreement true), by decide +kernel⟩,
   ⟨(secSt 1 held9 []), .host, 7, 4, by constructor <;> decide, by decide, by decide⟩,
   ⟨(secSt 1 { held9 with wraps := [(9, [2])] } [(0, [9, 0])]), .host, 7, 9, 0, ([2]), by constructor <;> decide, by decide, by decide, by decide, by decide⟩,
   ⟨(secSt 1 { held9 with wraps := [(9, [2])] } [(0, [9, 8])]), .host, 7, 9, 8, ([2]), by constructor <;> decide, by decide, by decide, by decide, by decide⟩,
   ⟨(secSt 1 { held9 with dataKeys := [{ key9 with keyId := 4 }, key9] } []), 7, 21, ([]), key9, party9, by decide, by decide⟩,
   ⟨(withMem (dram2.setCanton 0 { held9 with dataKeys := [key9] }) 256 (leBytes 4 9 ++ leBytes 4 21 ++ leBytes 8 5 ++ leBytes 4 1)), 0, 256, 512, 1, (leBytes 4 9 ++ leBytes 4 21 ++ leBytes 8 5 ++ leBytes 4 1 ++ List.replicate 12 0), key9, by decide +kernel⟩⟩

theorem wit_KeyAgreementsAndPartyData_3 :
    (∃ s : State, ∃ k : Fin 8, ∃ src : Nat, ∃ dst : Nat, ∃ len : Nat, ∃ h : List Byte, ∃ d : DataKey, (s.bytes src 32 = h) ∧ (fieldAt h 16 4 = len) ∧ (s.polState k = 1) ∧ ((s.canton k).dataKeys.find? (fun y => y.keyId == fieldAt h 4 4) = some d) ∧ (d.party ≠ fieldAt h 0 1)) ∧
    (∃ s : State, ∃ v : View, ∃ k : Fin 8, (SecReady s v k) ∧ (fieldAt (s.buf 0 1709) 2 1 = k.val) ∧ (s.admitsKa (fieldAt (s.buf 0 1709) 1 1) k = true)) ∧
    (∃ s : State, ∃ v : View, ∃ k : Fin 8, ∃ i, (SecReady s v k) ∧ (s.kaOf k true = some i)) ∧
    (∃ s : State, ∃ v : View, ∃ k : Fin 8, ∃ i, (SecReady s v k) ∧ (s.kaOf k false = some i)) :=
  ⟨⟨(withMem (dram2.setCanton 0 { held9 with dataKeys := [key9] }) 256 (leBytes 4 8 ++ leBytes 4 21 ++ leBytes 8 5 ++ leBytes 4 1)), 0, 256, 512, 1, (leBytes 4 8 ++ leBytes 4 21 ++ leBytes 8 5 ++ leBytes 4 1 ++ List.replicate 12 0), key9, by decide +kernel⟩,
   ⟨((secSt 1 held9 [(0, [1, 2, 7, 0])])), .host, 7, by constructor <;> decide, by decide +kernel⟩,
   ⟨(agreeing true 0), .host, 7, 1, by constructor <;> decide, by decide +kernel⟩,
   ⟨(agreeing false 0), .host, 7, 1, by constructor <;> decide, by decide +kernel⟩⟩

theorem wit_CheckpointsReleasesAndConsent_1 :
    (∃ s : State, ∃ v : View, ∃ k : Fin 8, ∃ slot : Fin 16, ∃ m : Manifest, ∃ o : Nat, ∃ ps : List Party, (SecReady s v k) ∧ (s.polState k = 1) ∧ ((s.canton k).manifest = some m) ∧ (m.parties.length ≤ 32) ∧ (m.resumeK < 256) ∧ (fieldAt (s.buf 0 8) 0 1 = o) ∧ (ps = (if o = 0xFF then m.parties else m.parties.filter (fun p => p.id == o))) ∧ (ps ≠ [])) ∧
    (∃ s : State, ∃ v : View, ∃ k : Fin 8, ∃ slot : Fin 16, ∃ n : Nat, (SecReady s v k) ∧ (s.polState k = 1) ∧ (fieldAt (s.buf 0 96) 4 4 = s.jobs.getD k 0) ∧ (fieldAt (s.buf 0 96) 0 2 = 1) ∧ (fieldAt (s.buf 0 96) 3 1 = n) ∧ (n ≠ 0) ∧ (fieldAt (s.buf 0 96) 2 1 ≠ 0) ∧ (zeroAt (s.buf 0 96) 21 11 = true) ∧ (zeroAt (s.buf 0 96) 48 48 = true)) ∧
    (∃ s : State, ∃ v : View, ∃ k : Fin 8, ∃ g : Gather, ∃ p : Nat, ∃ w : List Byte, (SecReady s v k) ∧ (s.polState k = 1) ∧ (fieldAt (s.buf 0 60) 8 1 = p) ∧ ((s.canton k).gathers.find? (fun g => g.ckpt == fieldAt (s.buf 0 60) 0 8) = some g) ∧ ((s.canton k).wraps.find? (fun x => x.1 == p) = some (p, w)) ∧ (g.owner = 0xFF ∨ g.owner = p)) ∧
    (∃ s : State, ∃ v : View, ∃ k : Fin 8, ∃ slot : Fin 16, ∃ n : Nat, ∃ h : List Byte, ∃ b : List Byte, ∃ m : Manifest, (SecReady s v k) ∧ (s.polState k = 1) ∧ ((s.canton k).manifest = some m) ∧ (s.buf 0 96 = h) ∧ (fieldAt h 2 2 = n) ∧ (s.buf 0 (96 + 8 * n + 97 + 1568) = b) ∧ (fieldAt h 4 4 = s.jobs.getD k 0) ∧ ((s.canton k).reqIds.contains (fieldAt h 8 8) = false) ∧ (fieldAt h 0 2 = 1) ∧ (1 ≤ n) ∧ (n ≤ 64) ∧ (zeroAt h 88 8 = true) ∧ ((∀ i, i < n → zeroAt b (103 + 8 * i) 1 = true)) ∧ ((s.releases.filter (fun r => r.canton == k.val)).length < 4)) ∧
    (∃ s : State, ∃ v : View, ∃ k : Fin 8, ∃ slot : Fin 16, (SecReady s v k) ∧ (s.polState k = 1)) ∧
    (∃ s : State, ∃ v : View, ∃ k : Fin 8, ∃ slot : Fin 16, (SecReady s v k) ∧ (s.polState k ≠ 1)) :=
  ⟨⟨(secSt 1 held9 [(0, [0xFF])]), .host, 7, 15, manifest9, 0xFF, ([party9]), by constructor <;> decide, by decide, by decide, by decide, by decide, by decide, by decide, by decide⟩,
   ⟨(secSt 1 held9 [(0, [1, 0, 1, 1])]), .host, 7, 15, 1, by constructor <;> decide, by decide, by decide, by decide, by decide, by decide, by decide, by decide, by decide⟩,
   ⟨(gatherSt []), .host, 7, (⟨15, 3, 9, 1, [], []⟩), 9, ([2]), by constructor <;> decide, by decide, by decide, by decide, by decide, by decide⟩,
   ⟨(secSt 1 held9 [(0, [1, 0, 1, 0])]), .host, 7, 15, 1, ((secSt 1 held9 [(0, [1, 0, 1, 0])]).buf 0 96), ((secSt 1 held9 [(0, [1, 0, 1, 0])]).buf 0 (96 + 8 * 1 + 97 + 1568)), manifest9, by constructor <;> decide, by decide +kernel, by decide +kernel, rfl, by decide +kernel, rfl, by decide +kernel⟩,
   ⟨(secSt 1 held9 []), .host, 7, 15, by constructor <;> decide, by decide⟩,
   ⟨(secSt 2 held9 []), .host, 7, 15, by constructor <;> decide, by decide⟩⟩

theorem wit_CheckpointsReleasesAndConsent_2 :
    (∃ s : State, ∃ v : View, ∃ k : Fin 8, ∃ p : Party, ∃ bits : Nat, (SecReady s v k) ∧ (s.polState k = 1) ∧ ((s.canton k).party? (fieldAt (s.buf 0 520) 0 1) = some p) ∧ (fieldAt (s.buf 0 520) 1 1 = bits) ∧ (bits < 32) ∧ (fieldAt (s.buf 0 520) 2 2 = 0) ∧ (fieldAt (s.buf 0 520) 4 4 = (s.rd (R.CPOL_SEQ k)).toNat)) ∧
    (∃ s : State, ∃ v : View, ∃ k : Fin 8, ∃ p : Party, ∃ bits : Nat, (SecReady s v k) ∧ (s.polState k = 1) ∧ ((s.canton k).party? (fieldAt (s.buf 0 520) 0 1) = some p) ∧ (fieldAt (s.buf 0 520) 1 1 = bits) ∧ (bits < 32) ∧ (fieldAt (s.buf 0 520) 2 2 = 0) ∧ (fieldAt (s.buf 0 520) 4 4 ≠ (s.rd (R.CPOL_SEQ k)).toNat)) ∧
    (∃ s : State, ∃ k : Fin 8, ∃ party : Nat, ∃ bits : BitVec 8, ∃ sig : List Byte, ∃ p : Party, (s.polState k = 1) ∧ ((s.canton k).party? party = some p) ∧ ((bits.getLsbD 3 = true → s.sec.scanned = []))) ∧
    (∃ s : State, ∃ k : Fin 8, ∃ party : Nat, ∃ bits : BitVec 8, ∃ sig : List Byte, ∃ p : Party, (s.polState k = 1) ∧ ((s.canton k).party? party = some p) ∧ ((bits.getLsbD 3 = true → s.sec.scanned = []))) ∧
    (∃ s : State, ∃ v : View, ∃ k : Fin 8, ∃ slot : Fin 16, ∃ m : Manifest, ∃ o : Nat, ∃ ps : List Party, (SecReady s v k) ∧ (s.polState k = 1) ∧ ((s.canton k).manifest = some m) ∧ (m.parties.length ≤ 32) ∧ (m.resumeK < 256) ∧ (fieldAt (s.buf 0 8) 0 1 = o) ∧ (ps = (if o = 0xFF then m.parties else m.parties.filter (fun p => p.id == o))) ∧ (ps = [])) ∧
    (∃ s : State, ∃ v : View, ∃ k : Fin 8, ∃ g : Gather, ∃ p : Nat, ∃ w : List Byte, (SecReady s v k) ∧ (s.polState k = 1) ∧ (fieldAt (s.buf 0 60) 8 1 = p) ∧ ((s.canton k).gathers.find? (fun g => g.ckpt == fieldAt (s.buf 0 60) 0 8) = some g) ∧ ((s.canton k).wraps.find? (fun x => x.1 == p) = some (p, w)) ∧ (g.owner ≠ 0xFF) ∧ (g.owner ≠ p)) :=
  ⟨⟨(secSt 1 held9 [(0, [9, 31])]), .host, 7, party9, 31, by constructor <;> decide, by decide +kernel⟩,
   ⟨(secSt 1 held9 [(0, [9, 31, 0, 0, 1])]), .host, 7, party9, 31, by constructor <;> decide, by decide +kernel⟩,
   ⟨((secSt 1 held9 []).put (R.CPOL_STATUS 7) F.CPOL_STATUS_CONSENT 31), 7, 9, 8, ([]), party9, by decide, by decide, by decide⟩,
   ⟨((secSt 1 held9 [])), 7, 9, 4, ([]), party9, by decide, by decide, by decide⟩,
   ⟨(secSt 1 held9 [(0, [8])]), .host, 7, 15, manifest9, 8, ([]), by constructor <;> decide, by decide, by decide, by decide, by decide, by decide, by decide, by decide⟩,
   ⟨(gatherSt [(8, [8])]), .host, 7, (⟨15, 3, 9, 1, [], []⟩), 8, ([3]), by constructor <;> decide, by decide, by decide, by decide, by decide, by decide, by decide⟩⟩

theorem wit_ScanAndDebugOpenOnlyUnderConsent_1 :
    (∃ s : State, ((∀ ds : List (Fin 64), s.sec.tap ≠ .scan ds))) ∧
    (∃ s : State, ((∀ ds : List (Fin 64), s.sec.tap ≠ .scan ds))) ∧
    (∃ s : State, ∃ i, ((∀ ds : List (Fin 64), s.sec.tap ≠ .scan ds)) ∧ (i ∈ [TapInstr.samplePreload, .extest, .clamp, .highz])) ∧
    (∃ s : State, ∃ ds : List (Fin 64), ((∀ ds : List (Fin 64), s.sec.tap ≠ .scan ds))) ∧
    (∃ s : State, ∃ ds : List (Fin 64), ((∀ ds : List (Fin 64), s.sec.tap ≠ .scan ds))) ∧
    (∃ s : State, ∃ ds : List (Fin 64), (s.sec.tap = .scan ds)) :=
  ⟨⟨base, (fun _ h => nomatch (h : TapInstr.bypass = .scan _))⟩,
   ⟨base, (fun _ h => nomatch (h : TapInstr.bypass = .scan _))⟩,
   ⟨(base.put R.SEC_STATUS F.SEC_STATUS_DBGCONN 1), .extest, (fun _ h => nomatch (h : TapInstr.bypass = .scan _)), by decide⟩,
   ⟨((secSt 1 held9 []).put R.SEC_STATUS F.SEC_STATUS_DBGCONN 1), ([38, 63]), (fun _ h => nomatch (h : TapInstr.bypass = .scan _))⟩,
   ⟨(((secSt 1 held9 []).put R.SEC_STATUS F.SEC_STATUS_DBGCONN 1).put (R.CPOL_STATUS 7) F.CPOL_STATUS_CONSENT 1), ([39]), (fun _ h => nomatch (h : TapInstr.bypass = .scan _))⟩,
   ⟨(scanning [39]), ([39]), by decide⟩⟩

theorem wit_ScanAndDebugOpenOnlyUnderConsent_2 :
    (∃ s : State, ∃ ds : List (Fin 64), (s.sec.tap = .scan ds)) ∧
    (∃ s : State, ((∀ ds : List (Fin 64), s.sec.tap ≠ .scan ds))) ∧
    (∃ s : State, ∃ ds : List (Fin 64), ∃ i : TapInstr, (s.sec.tap = .scan ds) ∧ ((∀ k ∈ s.sec.scanned, k < 8))) ∧
    (∃ s : State, ∃ ds : List (Fin 64), (s.sec.tap = .scan ds) ∧ ((∀ k ∈ s.sec.scanned, k < 8))) :=
  ⟨⟨(scanning [63]), ([63]), by decide⟩,
   ⟨base, (fun _ h => nomatch (h : TapInstr.bypass = .scan _))⟩,
   ⟨({ scanning [39] with sec := { (scanning [39]).sec with scanned := [7] } }), ([39]), .bypass, by decide, by decide⟩,
   ⟨({ scanning [39] with sec := { (scanning [39]).sec with scanned := [7] } }), ([39]), by decide, by decide⟩⟩
/-- A ring descriptor: 16 bytes at MPA 0x100000, region 9, offset 0. -/
def ringDesc (dir len off : Nat) : List Byte := leBytes 8 0x100000 ++ leBytes 8 off ++ leBytes 4 len ++ leBytes 44 (9 + 256 * dir)
/-- Canton 0 with DRAM and host-path keys; ring 15 of 16 descriptors at 0x300000, HEAD 65535 and TAIL 0; region 9 of a page. -/
def hostSt (c : CantonSec) (ring rgn : Nat) (d : List Byte) : State :=
  let s := dram2.setCanton 0 { c with hostKeys := some ([1], [2]) }
  let s := withRegs s [(R.HI_RING_LO 0 15, 0x300000), (R.HI_RING_IDX 0 15, 0xFFFF0000), (R.HI_RGN_SIZE 0 9, 1), (R.HI_RGN_LO 0 9, 0x5000 + rgn),
    (R.HI_RING_CTL 0 15, ring + 8)]
  withMem s (0x300000 + 64 * 15) d
def ringJob (status dir : Nat) : RingJob := ⟨65535, ringDesc dir 16 0, status, 0⟩
def withJobs (s : State) (l : List RingJob) : State := { s with host := { s.host with rings := [((0, 15), l)] } }
/-- Port 1 on canton 0 at 256, DP_CTL as given. -/
def dpSt (ctl : Nat) : State := withRegs dram2 [(R.DP_CTL 1, ctl), (R.DP_ADDR_LO 1, 256), (R.HI_OUT_LEN 0, 1)]
def dpErr : State := (dpSt 1).put (R.DP_STATUS 1) F.DP_STATUS_ERR 1
def imaged (runs : Bool) : State := secSt 1 { held9 with images := [⟨0, 1, [], false⟩, ⟨0x1000, 4, [3], runs⟩] } []
def acked : State :=
  let s := sealSt [⟨7, 62, .read 4, 512⟩] [] [] []
  { s with host := { s.host with acks := s.host.acks.set 1 [7] } }
/-- A request of ring 15's record waits at a seal engine, or was answered with a bus error. -/
def ringWrites (reqs : List SealReq) (errs : List (Nat × Nat × Nat)) : State :=
  let s := withJobs (hostSt CantonSec.reset (1 + 2048) 7 []) [ringJob 1 0, ringJob 1 1]
  { s.setEng 15 { s.eng 15 with reqs := reqs } with busErrs := errs }
/-- Port 1 under HOSTPATH for canton 0 with keys, its stream as given. -/
def pathSt (c : CantonSec) (st : List Byte) : State :=
  let s := (dpSt 5).setCanton 0 { c with hostKeys := some ([1], [2]) }
  { s with host := { s.host with stream := s.host.stream.set 1 st } }
/-- The head of a record of 4 bytes for the bulk port of canton 0. -/
def pathHead : List Byte := [0, 0, 255, 255] ++ leBytes 4 4 ++ List.replicate 24 0
/-- A block of canton 0's slice poisoned; an image of canton 0 that runs. -/
def dpPoison (ctl : Nat) : State :=
  withRegs (sealSt [] [] [] [(1023, ⟨1, 0, 0x1003, true, block15, none⟩)]) [(R.DP_CTL 1, ctl), (R.DP_ADDR_LO 1, block15), (R.HI_OUT_LEN 0, 0x4000)]
def ranImage (s : State) : State := s.setCanton 0 { held9 with images := [⟨0x1000, 4, [3], true⟩] }

theorem wit_HostLinkInterruptsAndMailboxes_1 :
    (∃ s : State, ∃ r : HostTrain, (s.hostLost = false) ∧ (s.dark = false) ∧ (¬ (r.bad.toNat % 256 ≠ 0 ∧ r.bad.toNat / 256 ≠ 0))) ∧
    (∃ s : State, ∃ r : HostTrain, (s.hostLost = false) ∧ (s.dark = false) ∧ (¬ (r.bad.toNat % 256 ≠ 0 ∧ r.bad.toNat / 256 ≠ 0))) ∧
    (∃ s : State, ∃ r : HostTrain, (s.hostLost = false) ∧ (s.dark = false) ∧ (r.bad.toNat % 256 ≠ 0) ∧ (r.bad.toNat / 256 ≠ 0)) ∧
    (∃ s : State, (s.get R.HI_LINK F.HI_LINK_MODE ≠ 0)) ∧
    (∃ s : State, ∃ c, (Inv s) ∧ (c ∈ [Instr.perstAssert, .functionLevelReset])) ∧
    (∃ s : State, ∃ a : Nat, ∃ n : Nat, ((n = 4 ∨ n = 8)) ∧ (a % n = 0)) :=
  ⟨⟨base, (⟨true, 0x00FF, true⟩), by decide, by decide, by decide⟩,
   ⟨base, (⟨false, 0, false⟩), by decide, by decide, by decide⟩,
   ⟨base, (⟨true, 0x0101, true⟩), by decide, by decide, by decide, by decide⟩,
   ⟨(base.put R.HI_LINK F.HI_LINK_MODE 2), by decide⟩,
   ⟨(withJobs (hostSt CantonSec.reset (1 + 2048) 7 []) [ringJob 1 0]), Instr.perstAssert, by constructor <;> decide, by decide +kernel⟩,
   ⟨base, 8, 8, by decide, by decide⟩⟩

theorem wit_HostLinkInterruptsAndMailboxes_2 :
    (∃ s : State, ∃ a : Nat, ∃ n : Nat, (((n ≠ 4 ∧ n ≠ 8) ∨ a % n ≠ 0))) ∧
    (∃ s : State, (s.host.owed = true) ∧ ((∀ u, s.host.irqAt = some u → u + s.holdoff ≤ s.now))) ∧
    (∃ s : State, ∃ r : HostTrain, ((s.hostLost = true ∨ s.dark = true))) ∧
    (∃ s : State, (s.get R.HI_LINK F.HI_LINK_MODE = 0)) ∧
    (∃ s : State, ((s.host.owed = false ∨ (∃ u, s.host.irqAt = some u ∧ s.now < u + s.holdoff)))) ∧
    (∃ s : State, (s.host.owed = true) ∧ ((∀ u, s.host.irqAt = some u → u + s.holdoff ≤ s.now))) :=
  ⟨⟨base, 4, 8, by decide⟩,
   ⟨({ base with host := { base.host with owed := true, masked := 0xFFFFFFFFFFFFFFFE } }), by decide, (fun _ h => nomatch (h : none = some _))⟩,
   ⟨({ base with rel := { base.rel with unusable := [(62, 0x100)] } }), (⟨true, 0, true⟩), Or.inl (by decide)⟩,
   ⟨base, by decide⟩,
   ⟨base, by decide⟩,
   ⟨({ base with host := { base.host with owed := true, masked := 1 } }), by decide, (fun _ h => nomatch (h : none = some _))⟩⟩

theorem wit_RingsMoveHostRecordsInOrder_1 :
    (∃ s : State, ∃ k : Fin 8, ∃ g : Fin 16, ((s.canton k).hostKeys.isSome = true) ∧ (s.takesWork k = true) ∧ (s.flag (R.HI_RING_CTL k g) F.HI_RING_CTL_EN = false)) ∧
    (∃ s : State, ∃ k : Fin 8, ∃ g : Fin 16, ((s.canton k).hostKeys = none)) ∧
    (∃ s : State, ∃ k : Fin 8, ∃ g : Fin 16, ∃ host : Option (List Byte), ∃ a : Nat, ∃ idx : Nat, ∃ desc : List Byte, ∃ dir : Nat, ∃ len : Nat, ∃ r : Nat, (s.ringState k g = 1) ∧ (s.flag (R.HI_RING_CTL k g) F.HI_RING_CTL_EN = true) ∧ (s.takesWork k = true) ∧ ((s.canton k).hostKeys.isSome = true) ∧ ((s.canton k).spent = false) ∧ (idx = (s.ringHead k g + (s.jobsOf k g).length) % 65536) ∧ (idx ≠ s.ringTail k g) ∧ ((s.jobsOf k g).length < 4) ∧ ((∀ j ∈ s.jobsOf k g, j.status = 1)) ∧ (s.ringDescAt k g idx = a) ∧ (s.checkRange (.hdma (fin8 k.val)) false a 64 = .ok) ∧ (s.readable a 64 = true) ∧ (s.bytes a 64 = desc) ∧ (bitsN (fieldAt desc 21 1) 0 0 = dir) ∧ (fieldAt desc 16 4 = len) ∧ (bitsN (fieldAt desc 20 1) 3 0 = r) ∧ ((s.flag (R.HI_RGN_LO k r) F.HI_RGN_LO_EN = false ∨ s.flag (R.HI_RGN_LO k r) (if dir = 0 then F.HI_RGN_LO_TOMOD else F.HI_RGN_LO_TOHOST) = false ∨ fieldAt desc 8 8 % 16 ≠ 0 ∨ len < 1 ∨ 1048576 < len ∨ s.get (R.HI_RGN_SIZE k r) F.HI_RGN_SIZE_PAGES * 4096 < fieldAt desc 8 8 + len + 48))) ∧
    (∃ s : State, ∃ k : Fin 8, ∃ g : Fin 16, ∃ host : Option (List Byte), ∃ a : Nat, ∃ idx : Nat, ∃ desc : List Byte, ∃ dir : Nat, ∃ len : Nat, ∃ r : Nat, (s.ringState k g = 1) ∧ (s.flag (R.HI_RING_CTL k g) F.HI_RING_CTL_EN = true) ∧ (s.takesWork k = true) ∧ ((s.canton k).hostKeys.isSome = true) ∧ ((s.canton k).spent = false) ∧ (idx = (s.ringHead k g + (s.jobsOf k g).length) % 65536) ∧ (idx ≠ s.ringTail k g) ∧ ((s.jobsOf k g).length < 4) ∧ ((∀ j ∈ s.jobsOf k g, j.status = 1)) ∧ (s.ringDescAt k g idx = a) ∧ (s.checkRange (.hdma (fin8 k.val)) false a 64 = .ok) ∧ (s.readable a 64 = true) ∧ (s.bytes a 64 = desc) ∧ (bitsN (fieldAt desc 21 1) 0 0 = dir) ∧ (fieldAt desc 16 4 = len) ∧ (bitsN (fieldAt desc 20 1) 3 0 = r) ∧ ((s.flag (R.HI_RGN_LO k r) F.HI_RGN_LO_EN = false ∨ s.flag (R.HI_RGN_LO k r) (if dir = 0 then F.HI_RGN_LO_TOMOD else F.HI_RGN_LO_TOHOST) = false ∨ fieldAt desc 8 8 % 16 ≠ 0 ∨ len < 1 ∨ 1048576 < len ∨ s.get (R.HI_RGN_SIZE k r) F.HI_RGN_SIZE_PAGES * 4096 < fieldAt desc 8 8 + len + 48))) ∧
    (∃ s : State, ∃ k : Fin 8, ∃ g : Fin 16, ∃ host : Option (List Byte), ∃ a : Nat, ∃ idx : Nat, ∃ desc : List Byte, ∃ dir : Nat, ∃ len : Nat, ∃ r : Nat, ∃ bytes : List Byte, ∃ keys : List Byte × List Byte, (s.ringState k g = 1) ∧ (s.flag (R.HI_RING_CTL k g) F.HI_RING_CTL_EN = true) ∧ (s.takesWork k = true) ∧ ((s.canton k).hostKeys.isSome = true) ∧ ((s.canton k).spent = false) ∧ (idx = (s.ringHead k g + (s.jobsOf k g).length) % 65536) ∧ (idx ≠ s.ringTail k g) ∧ ((s.jobsOf k g).length < 4) ∧ ((∀ j ∈ s.jobsOf k g, j.status = 1)) ∧ (s.ringDescAt k g idx = a) ∧ (s.checkRange (.hdma (fin8 k.val)) false a 64 = .ok) ∧ (s.readable a 64 = true) ∧ (s.bytes a 64 = desc) ∧ (bitsN (fieldAt desc 21 1) 0 0 = dir) ∧ (fieldAt desc 16 4 = len) ∧ (bitsN (fieldAt desc 20 1) 3 0 = r) ∧ (s.flag (R.HI_RGN_LO k r) F.HI_RGN_LO_EN = true) ∧ (s.flag (R.HI_RGN_LO k r) (if dir = 0 then F.HI_RGN_LO_TOMOD else F.HI_RGN_LO_TOHOST) = true) ∧ (fieldAt desc 8 8 % 16 = 0) ∧ (1 ≤ len) ∧ (len ≤ 1048576) ∧ (fieldAt desc 8 8 + len + 48 ≤ s.get (R.HI_RGN_SIZE k r) F.HI_RGN_SIZE_PAGES * 4096) ∧ (host = some bytes) ∧ (dir = 0) ∧ ((s.canton k).hostKeys = some keys) ∧ (s.checkRange (.hdma (fin8 k.val)) true (fieldAt desc 0 6) len = .ok)) :=
  ⟨⟨(hostSt CantonSec.reset 0 0 []), 0, 15, by decide, by decide, by decide⟩,
   ⟨dram2, 0, 15, by decide⟩,
   ⟨(hostSt CantonSec.reset (1 + 2048) 1 (ringDesc 1 16 0)), 0, 15, none, (0x300000 + 64 * 15), 65535, (ringDesc 1 16 0), 1, 16, 9, by decide +kernel⟩,
   ⟨(hostSt CantonSec.reset (1 + 2048) 3 (ringDesc 0 4049 0)), 0, 15, none, (0x300000 + 64 * 15), 65535, (ringDesc 0 4049 0), 0, 4049, 9, by decide +kernel⟩,
   ⟨(hostSt CantonSec.reset (1 + 2048) 3 (ringDesc 0 4048 0)), 0, 15, (some [1]), (0x300000 + 64 * 15), 65535, (ringDesc 0 4048 0), 0, 4048, 9, ([1]), (([1], [2])), by decide +kernel⟩⟩

theorem wit_RingsMoveHostRecordsInOrder_2 :
    (∃ s : State, ∃ k : Fin 8, ∃ g : Fin 16, ∃ host : Option (List Byte), ∃ a : Nat, ∃ idx : Nat, ∃ desc : List Byte, ∃ dir : Nat, ∃ len : Nat, ∃ r : Nat, ∃ bytes : List Byte, ∃ keys : List Byte × List Byte, (s.ringState k g = 1) ∧ (s.flag (R.HI_RING_CTL k g) F.HI_RING_CTL_EN = true) ∧ (s.takesWork k = true) ∧ ((s.canton k).hostKeys.isSome = true) ∧ ((s.canton k).spent = false) ∧ (idx = (s.ringHead k g + (s.jobsOf k g).length) % 65536) ∧ (idx ≠ s.ringTail k g) ∧ ((s.jobsOf k g).length < 4) ∧ ((∀ j ∈ s.jobsOf k g, j.status = 1)) ∧ (s.ringDescAt k g idx = a) ∧ (s.checkRange (.hdma (fin8 k.val)) false a 64 = .ok) ∧ (s.readable a 64 = true) ∧ (s.bytes a 64 = desc) ∧ (bitsN (fieldAt desc 21 1) 0 0 = dir) ∧ (fieldAt desc 16 4 = len) ∧ (bitsN (fieldAt desc 20 1) 3 0 = r) ∧ (s.flag (R.HI_RGN_LO k r) F.HI_RGN_LO_EN = true) ∧ (s.flag (R.HI_RGN_LO k r) (if dir = 0 then F.HI_RGN_LO_TOMOD else F.HI_RGN_LO_TOHOST) = true) ∧ (fieldAt desc 8 8 % 16 = 0) ∧ (1 ≤ len) ∧ (len ≤ 1048576) ∧ (fieldAt desc 8 8 + len + 48 ≤ s.get (R.HI_RGN_SIZE k r) F.HI_RGN_SIZE_PAGES * 4096) ∧ (host = some bytes) ∧ (dir = 0) ∧ ((s.canton k).hostKeys = some keys) ∧ (s.checkRange (.hdma (fin8 k.val)) true (fieldAt desc 0 6) len = .ok)) ∧
    (∃ s : State, ∃ k : Fin 8, ∃ g : Fin 16, ∃ host : Option (List Byte), ∃ a : Nat, ∃ idx : Nat, ∃ desc : List Byte, ∃ dir : Nat, ∃ len : Nat, ∃ r : Nat, ∃ bytes : List Byte, ∃ keys : List Byte × List Byte, (s.ringState k g = 1) ∧ (s.flag (R.HI_RING_CTL k g) F.HI_RING_CTL_EN = true) ∧ (s.takesWork k = true) ∧ ((s.canton k).hostKeys.isSome = true) ∧ ((s.canton k).spent = false) ∧ (idx = (s.ringHead k g + (s.jobsOf k g).length) % 65536) ∧ (idx ≠ s.ringTail k g) ∧ ((s.jobsOf k g).length < 4) ∧ ((∀ j ∈ s.jobsOf k g, j.status = 1)) ∧ (s.ringDescAt k g idx = a) ∧ (s.checkRange (.hdma (fin8 k.val)) false a 64 = .ok) ∧ (s.readable a 64 = true) ∧ (s.bytes a 64 = desc) ∧ (bitsN (fieldAt desc 21 1) 0 0 = dir) ∧ (fieldAt desc 16 4 = len) ∧ (bitsN (fieldAt desc 20 1) 3 0 = r) ∧ (s.flag (R.HI_RGN_LO k r) F.HI_RGN_LO_EN = true) ∧ (s.flag (R.HI_RGN_LO k r) (if dir = 0 then F.HI_RGN_LO_TOMOD else F.HI_RGN_LO_TOHOST) = true) ∧ (fieldAt desc 8 8 % 16 = 0) ∧ (1 ≤ len) ∧ (len ≤ 1048576) ∧ (fieldAt desc 8 8 + len + 48 ≤ s.get (R.HI_RGN_SIZE k r) F.HI_RGN_SIZE_PAGES * 4096) ∧ (host = some bytes) ∧ (dir = 1) ∧ ((s.canton k).hostKeys = some keys) ∧ (s.checkRange (.hdma (fin8 k.val)) false (fieldAt desc 0 6) len = .ok) ∧ (s.readable (fieldAt desc 0 6) len = true)) ∧
    (∃ s : State, ∃ k : Fin 8, ∃ g : Fin 16, ∃ j : RingJob, ∃ rest : List RingJob, (s.jobsOf k g = j :: rest) ∧ (j.status = 1) ∧ ((bitsN (fieldAt j.desc 21 1) 0 0 = 0 → s.waitingAt 62 (fieldAt j.desc 0 6) (fieldAt j.desc 16 4) = false ∧ s.erred 62 (fieldAt j.desc 0 6) (fieldAt j.desc 16 4) = false))) ∧
    (∃ s : State, ∃ k : Fin 8, ∃ g : Fin 16, ∃ j : RingJob, ∃ rest : List RingJob, (s.jobsOf k g = j :: rest) ∧ (j.status ≠ 1)) ∧
    (∃ s : State, ∃ k : Fin 8, ∃ g : Fin 16, (s.ringState k g = 2)) ∧
    (∃ s : State, ∃ k : Fin 8, ∃ r : Fin 16, (s.flag (R.HI_RGN_LO k r) F.HI_RGN_LO_EN = true) ∧ (s.host.closing = []) ∧ ((∀ x ∈ s.host.rings, x.1.1 = k.val → ∀ j ∈ x.2, j.region ≠ r.val))) :=
  ⟨⟨(hostSt CantonSec.reset (1 + 2048) 3 (ringDesc 0 4 0)), 0, 15, (some ([0, 0, 15, 0] ++ leBytes 4 4 ++ List.replicate 44 0)), (0x300000 + 64 * 15), 65535, (ringDesc 0 4 0), 0, 4, 9, ([0, 0, 15, 0] ++ leBytes 4 4 ++ List.replicate 44 0), (([1], [2])), by decide +kernel⟩,
   ⟨(hostSt CantonSec.reset (1 + 2048) 5 (ringDesc 1 16 0)), 0, 15, (some []), (0x300000 + 64 * 15), 65535, (ringDesc 1 16 0), 1, 16, 9, ([]), (([1], [2])), by decide +kernel⟩,
   ⟨(withJobs (hostSt CantonSec.reset (1 + 2048) 7 []) [ringJob 1 0, ringJob 1 1]), 0, 15, (ringJob 1 0), ([ringJob 1 1]), by decide, by decide, by decide⟩,
   ⟨(withJobs (hostSt CantonSec.reset (1 + 2048) 7 []) [ringJob 7 0, ringJob 1 1]), 0, 15, (ringJob 7 0), ([ringJob 1 1]), by decide, by decide⟩,
   ⟨(hostSt CantonSec.reset (1 + 2 * 2048) 7 []), 0, 15, by decide⟩,
   ⟨(withJobs (hostSt CantonSec.reset 1 7 []) []), 0, 9, by decide, by decide, by decide⟩⟩

theorem wit_RingsMoveHostRecordsInOrder_3 :
    (∃ s : State, ∃ k : Fin 8, ∃ r : Fin 16, (s.flag (R.HI_RGN_LO k r) F.HI_RGN_LO_EN = true) ∧ (s.host.closing = []) ∧ ((∃ x ∈ s.host.rings, x.1.1 = k.val ∧ ∃ j ∈ x.2, j.region = r.val))) ∧
    (∃ s : State, ∃ k : Fin 8, ∃ g : Fin 16, ∃ j : RingJob, ∃ rest : List RingJob, (s.jobsOf k g = j :: rest) ∧ (j.status = 1) ∧ (bitsN (fieldAt j.desc 21 1) 0 0 = 0) ∧ (s.waitingAt 62 (fieldAt j.desc 0 6) (fieldAt j.desc 16 4) = true)) ∧
    (∃ s : State, ∃ k : Fin 8, ∃ g : Fin 16, ∃ j : RingJob, ∃ rest : List RingJob, (s.jobsOf k g = j :: rest) ∧ (j.status = 1) ∧ (bitsN (fieldAt j.desc 21 1) 0 0 = 0) ∧ (s.waitingAt 62 (fieldAt j.desc 0 6) (fieldAt j.desc 16 4) = false) ∧ (s.erred 62 (fieldAt j.desc 0 6) (fieldAt j.desc 16 4) = true)) :=
  ⟨⟨(withJobs (hostSt CantonSec.reset 1 7 []) [ringJob 1 0]), 0, 9, by decide, by decide, by decide⟩,
   ⟨(ringWrites [⟨7, 62, .write [1], 0x100000⟩] []), 0, 15, (ringJob 1 0), ([ringJob 1 1]), by decide, by decide, by decide, by decide⟩,
   ⟨(ringWrites [] [(62, 0x10000F, 7)]), 0, 15, (ringJob 1 0), ([ringJob 1 1]), by decide, by decide, by decide, by decide, by decide⟩⟩

theorem wit_BulkPortsAreCheckedPerAccess_1 :
    (∃ s : State, ∃ p : Fin 2, ∃ k : Nat, ∃ a : Nat, ∃ bs : List Byte, (s.get (R.DP_CTL p) F.DP_CTL_CANTON = k) ∧ (s.dpAddr p = a) ∧ (bs ≠ []) ∧ (bs.length ≤ 4096) ∧ (bs.length % 4 = 0) ∧ (s.flag (R.DP_STATUS p) F.DP_STATUS_ERR = true)) ∧
    (∃ s : State, ∃ p : Fin 2, ∃ k : Nat, ∃ a : Nat, ∃ bs : List Byte, ∃ code : Nat, (s.get (R.DP_CTL p) F.DP_CTL_CANTON = k) ∧ (s.dpAddr p = a) ∧ (bs ≠ []) ∧ (bs.length ≤ 4096) ∧ (bs.length % 4 = 0) ∧ (s.flag (R.DP_STATUS p) F.DP_STATUS_ERR = false) ∧ (((code = 1 ∧ (s.polState k ≠ 1 ∨ (s.flag (R.DP_CTL p) F.DP_CTL_KEY = false ∧ s.inSlice k a bs.length = false))) ∨ (code = 2 ∧ s.polState k = 1 ∧ (s.flag (R.DP_CTL p) F.DP_CTL_KEY = true ∨ s.inSlice k a bs.length = true) ∧ s.flag (R.DP_CTL p) F.DP_CTL_DIR = true) ∨ (code = 4 ∧ s.polState k = 1 ∧ s.flag (R.DP_CTL p) F.DP_CTL_DIR = false ∧ s.flag (R.DP_CTL p) F.DP_CTL_KEY = true ∧ (s.canton k).hostKeys = none) ∨ (code = 6 ∧ s.polState k = 1 ∧ s.flag (R.DP_CTL p) F.DP_CTL_DIR = false ∧ s.flag (R.DP_CTL p) F.DP_CTL_KEY = false ∧ s.inSlice k a bs.length = true ∧ s.mergesPoison a bs.length = true)))) ∧
    (∃ s : State, ∃ p : Fin 2, ∃ k : Nat, ∃ a : Nat, ∃ bs : List Byte, ∃ code : Nat, (s.get (R.DP_CTL p) F.DP_CTL_CANTON = k) ∧ (s.dpAddr p = a) ∧ (bs ≠ []) ∧ (bs.length ≤ 4096) ∧ (bs.length % 4 = 0) ∧ (s.flag (R.DP_STATUS p) F.DP_STATUS_ERR = false) ∧ (((code = 1 ∧ (s.polState k ≠ 1 ∨ (s.flag (R.DP_CTL p) F.DP_CTL_KEY = false ∧ s.inSlice k a bs.length = false))) ∨ (code = 2 ∧ s.polState k = 1 ∧ (s.flag (R.DP_CTL p) F.DP_CTL_KEY = true ∨ s.inSlice k a bs.length = true) ∧ s.flag (R.DP_CTL p) F.DP_CTL_DIR = true) ∨ (code = 4 ∧ s.polState k = 1 ∧ s.flag (R.DP_CTL p) F.DP_CTL_DIR = false ∧ s.flag (R.DP_CTL p) F.DP_CTL_KEY = true ∧ (s.canton k).hostKeys = none) ∨ (code = 6 ∧ s.polState k = 1 ∧ s.flag (R.DP_CTL p) F.DP_CTL_DIR = false ∧ s.flag (R.DP_CTL p) F.DP_CTL_KEY = false ∧ s.inSlice k a bs.length = true ∧ s.mergesPoison a bs.length = true)))) ∧
    (∃ s : State, ∃ p : Fin 2, ∃ k : Nat, ∃ a : Nat, ∃ bs : List Byte, ∃ code : Nat, (s.get (R.DP_CTL p) F.DP_CTL_CANTON = k) ∧ (s.dpAddr p = a) ∧ (bs ≠ []) ∧ (bs.length ≤ 4096) ∧ (bs.length % 4 = 0) ∧ (s.flag (R.DP_STATUS p) F.DP_STATUS_ERR = false) ∧ (((code = 1 ∧ (s.polState k ≠ 1 ∨ (s.flag (R.DP_CTL p) F.DP_CTL_KEY = false ∧ s.inSlice k a bs.length = false))) ∨ (code = 2 ∧ s.polState k = 1 ∧ (s.flag (R.DP_CTL p) F.DP_CTL_KEY = true ∨ s.inSlice k a bs.length = true) ∧ s.flag (R.DP_CTL p) F.DP_CTL_DIR = true) ∨ (code = 4 ∧ s.polState k = 1 ∧ s.flag (R.DP_CTL p) F.DP_CTL_DIR = false ∧ s.flag (R.DP_CTL p) F.DP_CTL_KEY = true ∧ (s.canton k).hostKeys = none) ∨ (code = 6 ∧ s.polState k = 1 ∧ s.flag (R.DP_CTL p) F.DP_CTL_DIR = false ∧ s.flag (R.DP_CTL p) F.DP_CTL_KEY = false ∧ s.inSlice k a bs.length = true ∧ s.mergesPoison a bs.length = true)))) ∧
    (∃ s : State, ∃ p : Fin 2, ∃ k : Nat, ∃ a : Nat, ∃ bs : List Byte, (s.get (R.DP_CTL p) F.DP_CTL_CANTON = k) ∧ (s.dpAddr p = a) ∧ (bs ≠ []) ∧ (bs.length ≤ 4096) ∧ (bs.length % 4 = 0) ∧ (s.flag (R.DP_STATUS p) F.DP_STATUS_ERR = false) ∧ (s.polState k = 1) ∧ (s.flag (R.DP_CTL p) F.DP_CTL_KEY = false) ∧ (s.inSlice k a bs.length = true) ∧ (s.flag (R.DP_CTL p) F.DP_CTL_DIR = false) ∧ (s.mergesPoison a bs.length = false)) ∧
    (∃ s : State, ∃ p : Fin 2, ∃ k : Nat, ∃ a : Nat, ∃ n : Nat, (s.get (R.DP_CTL p) F.DP_CTL_CANTON = k) ∧ (s.dpAddr p = a) ∧ (0 < n) ∧ (n ≤ 4096) ∧ (n % 4 = 0) ∧ (s.flag (R.DP_STATUS p) F.DP_STATUS_ERR = true)) :=
  ⟨⟨dpErr, 1, 0, 256, ([1, 2, 3, 4]), by decide +kernel⟩,
   ⟨(dpSt 3), 1, 0, 256, ([1, 2, 3, 4]), 2, by decide +kernel⟩,
   ⟨(dpSt 5), 1, 0, 256, ([1, 2, 3, 4]), 4, by decide +kernel⟩,
   ⟨base, 0, 0, 0, (List.replicate 4096 1), 1, by decide +kernel⟩,
   ⟨(dpSt 1), 1, 0, 256, ([1, 2, 3, 4]), by decide +kernel⟩,
   ⟨dpErr, 1, 0, 256, 4096, by decide +kernel⟩⟩

theorem wit_BulkPortsAreCheckedPerAccess_2 :
    (∃ s : State, ∃ p : Fin 2, ∃ k : Nat, ∃ a : Nat, ∃ n : Nat, ∃ code : Nat, (s.get (R.DP_CTL p) F.DP_CTL_CANTON = k) ∧ (s.dpAddr p = a) ∧ (0 < n) ∧ (n ≤ 4096) ∧ (n % 4 = 0) ∧ (s.flag (R.DP_STATUS p) F.DP_STATUS_ERR = false) ∧ (((code = 1 ∧ (s.polState k ≠ 1 ∨ s.inSlice k a n = false)) ∨ (code = 2 ∧ s.polState k = 1 ∧ s.inSlice k a n = true ∧ s.flag (R.DP_CTL p) F.DP_CTL_DIR = false) ∨ (code = 4 ∧ s.polState k = 1 ∧ s.inSlice k a n = true ∧ s.flag (R.DP_CTL p) F.DP_CTL_DIR = true ∧ s.flag (R.DP_CTL p) F.DP_CTL_KEY = true) ∨ (code = 3 ∧ s.polState k = 1 ∧ s.inSlice k a n = true ∧ s.flag (R.DP_CTL p) F.DP_CTL_DIR = true ∧ s.flag (R.DP_CTL p) F.DP_CTL_KEY = false ∧ s.inOut k a n = false) ∨ (code = 6 ∧ s.polState k = 1 ∧ s.inSlice k a n = true ∧ s.flag (R.DP_CTL p) F.DP_CTL_DIR = true ∧ s.flag (R.DP_CTL p) F.DP_CTL_KEY = false ∧ s.inOut k a n = true ∧ s.readable a n = false)))) ∧
    (∃ s : State, ∃ p : Fin 2, ∃ k : Nat, ∃ a : Nat, ∃ n : Nat, ∃ code : Nat, (s.get (R.DP_CTL p) F.DP_CTL_CANTON = k) ∧ (s.dpAddr p = a) ∧ (0 < n) ∧ (n ≤ 4096) ∧ (n % 4 = 0) ∧ (s.flag (R.DP_STATUS p) F.DP_STATUS_ERR = false) ∧ (((code = 1 ∧ (s.polState k ≠ 1 ∨ s.inSlice k a n = false)) ∨ (code = 2 ∧ s.polState k = 1 ∧ s.inSlice k a n = true ∧ s.flag (R.DP_CTL p) F.DP_CTL_DIR = false) ∨ (code = 4 ∧ s.polState k = 1 ∧ s.inSlice k a n = true ∧ s.flag (R.DP_CTL p) F.DP_CTL_DIR = true ∧ s.flag (R.DP_CTL p) F.DP_CTL_KEY = true) ∨ (code = 3 ∧ s.polState k = 1 ∧ s.inSlice k a n = true ∧ s.flag (R.DP_CTL p) F.DP_CTL_DIR = true ∧ s.flag (R.DP_CTL p) F.DP_CTL_KEY = false ∧ s.inOut k a n = false) ∨ (code = 6 ∧ s.polState k = 1 ∧ s.inSlice k a n = true ∧ s.flag (R.DP_CTL p) F.DP_CTL_DIR = true ∧ s.flag (R.DP_CTL p) F.DP_CTL_KEY = false ∧ s.inOut k a n = true ∧ s.readable a n = false)))) ∧
    (∃ s : State, ∃ p : Fin 2, ∃ k : Nat, ∃ a : Nat, ∃ n : Nat, (s.get (R.DP_CTL p) F.DP_CTL_CANTON = k) ∧ (s.dpAddr p = a) ∧ (0 < n) ∧ (n ≤ 4096) ∧ (n % 4 = 0) ∧ (s.flag (R.DP_STATUS p) F.DP_STATUS_ERR = false) ∧ (s.polState k = 1) ∧ (s.inSlice k a n = true) ∧ (s.flag (R.DP_CTL p) F.DP_CTL_DIR = true) ∧ (s.flag (R.DP_CTL p) F.DP_CTL_KEY = false) ∧ (s.inOut k a n = true) ∧ (s.readable a n = true)) ∧
    (∃ s : State, ∃ p : Fin 2, ∃ k : Nat, ∃ a : Nat, ∃ x : W32, (s.get (R.DP_CTL p) F.DP_CTL_CANTON = k) ∧ (s.dpAddr p = a)) ∧
    (∃ s : State, ∃ p : Fin 2, ∃ k : Nat, ∃ a : Nat, (s.get (R.DP_CTL p) F.DP_CTL_CANTON = k) ∧ (s.dpAddr p = a) ∧ ((∀ id ∈ s.host.acks[p], s.reqWaits id = false))) ∧
    (∃ s : State, ∃ p : Fin 2, ∃ k : Nat, ∃ a : Nat, (s.get (R.DP_CTL p) F.DP_CTL_CANTON = k) ∧ (s.dpAddr p = a) ∧ ((∃ id ∈ s.host.acks[p], s.reqWaits id = true))) :=
  ⟨⟨(dpSt 2), 1, 0, 256, 4096, 3, by decide +kernel⟩,
   ⟨(dpSt 6), 1, 0, 256, 4, 4, by decide +kernel⟩,
   ⟨(dpSt 2), 1, 0, 256, 3840, by decide +kernel⟩,
   ⟨(dpSt 2), 1, 0, 256, 0, by decide, by decide⟩,
   ⟨(dpSt 2), 1, 0, 256, by decide, by decide, by decide⟩,
   ⟨acked, 1, 0, 0, by decide, by decide, by decide⟩⟩

theorem wit_BulkPortsAreCheckedPerAccess_3 :
    (∃ s : State, ∃ p : Fin 2, ∃ k : Nat, ∃ a : Nat, ∃ bs : List Byte, ∃ code : Nat, (s.get (R.DP_CTL p) F.DP_CTL_CANTON = k) ∧ (s.dpAddr p = a) ∧ (bs ≠ []) ∧ (bs.length ≤ 4096) ∧ (bs.length % 4 = 0) ∧ (s.flag (R.DP_STATUS p) F.DP_STATUS_ERR = false) ∧ (((code = 1 ∧ (s.polState k ≠ 1 ∨ (s.flag (R.DP_CTL p) F.DP_CTL_KEY = false ∧ s.inSlice k a bs.length = false))) ∨ (code = 2 ∧ s.polState k = 1 ∧ (s.flag (R.DP_CTL p) F.DP_CTL_KEY = true ∨ s.inSlice k a bs.length = true) ∧ s.flag (R.DP_CTL p) F.DP_CTL_DIR = true) ∨ (code = 4 ∧ s.polState k = 1 ∧ s.flag (R.DP_CTL p) F.DP_CTL_DIR = false ∧ s.flag (R.DP_CTL p) F.DP_CTL_KEY = true ∧ (s.canton k).hostKeys = none) ∨ (code = 6 ∧ s.polState k = 1 ∧ s.flag (R.DP_CTL p) F.DP_CTL_DIR = false ∧ s.flag (R.DP_CTL p) F.DP_CTL_KEY = false ∧ s.inSlice k a bs.length = true ∧ s.mergesPoison a bs.length = true)))) ∧
    (∃ s : State, ∃ p : Fin 2, ∃ k : Nat, ∃ a : Nat, ∃ n : Nat, ∃ code : Nat, (s.get (R.DP_CTL p) F.DP_CTL_CANTON = k) ∧ (s.dpAddr p = a) ∧ (0 < n) ∧ (n ≤ 4096) ∧ (n % 4 = 0) ∧ (s.flag (R.DP_STATUS p) F.DP_STATUS_ERR = false) ∧ (((code = 1 ∧ (s.polState k ≠ 1 ∨ s.inSlice k a n = false)) ∨ (code = 2 ∧ s.polState k = 1 ∧ s.inSlice k a n = true ∧ s.flag (R.DP_CTL p) F.DP_CTL_DIR = false) ∨ (code = 4 ∧ s.polState k = 1 ∧ s.inSlice k a n = true ∧ s.flag (R.DP_CTL p) F.DP_CTL_DIR = true ∧ s.flag (R.DP_CTL p) F.DP_CTL_KEY = true) ∨ (code = 3 ∧ s.polState k = 1 ∧ s.inSlice k a n = true ∧ s.flag (R.DP_CTL p) F.DP_CTL_DIR = true ∧ s.flag (R.DP_CTL p) F.DP_CTL_KEY = false ∧ s.inOut k a n = false) ∨ (code = 6 ∧ s.polState k = 1 ∧ s.inSlice k a n = true ∧ s.flag (R.DP_CTL p) F.DP_CTL_DIR = true ∧ s.flag (R.DP_CTL p) F.DP_CTL_KEY = false ∧ s.inOut k a n = true ∧ s.readable a n = false)))) ∧
    (∃ s : State, ∃ p : Fin 2, ∃ k : Nat, ∃ a : Nat, ∃ bs : List Byte, ∃ st : List Byte, ∃ keys : List Byte × List Byte, (s.get (R.DP_CTL p) F.DP_CTL_CANTON = k) ∧ (s.dpAddr p = a) ∧ (bs ≠ []) ∧ (bs.length ≤ 4096) ∧ (bs.length % 4 = 0) ∧ (s.flag (R.DP_STATUS p) F.DP_STATUS_ERR = false) ∧ (s.polState k = 1) ∧ (s.flag (R.DP_CTL p) F.DP_CTL_KEY = true) ∧ (s.flag (R.DP_CTL p) F.DP_CTL_DIR = false) ∧ ((s.canton k).hostKeys = some keys) ∧ (s.host.stream[p] ++ bs = st) ∧ ((st.length < 32 ∨ (fieldAt st 4 4 ≤ 1048576 ∧ st.length < 48 + fieldAt st 4 4)))) ∧
    (∃ s : State, ∃ p : Fin 2, ∃ k : Nat, ∃ a : Nat, ∃ bs : List Byte, ∃ st : List Byte, ∃ keys : List Byte × List Byte, (s.get (R.DP_CTL p) F.DP_CTL_CANTON = k) ∧ (s.dpAddr p = a) ∧ (bs ≠ []) ∧ (bs.length ≤ 4096) ∧ (bs.length % 4 = 0) ∧ (s.flag (R.DP_STATUS p) F.DP_STATUS_ERR = false) ∧ (s.polState k = 1) ∧ (s.flag (R.DP_CTL p) F.DP_CTL_KEY = true) ∧ (s.flag (R.DP_CTL p) F.DP_CTL_DIR = false) ∧ ((s.canton k).hostKeys = some keys) ∧ (s.host.stream[p] ++ bs = st) ∧ ((st.length < 32 ∨ (fieldAt st 4 4 ≤ 1048576 ∧ st.length < 48 + fieldAt st 4 4)))) ∧
    (∃ s : State, ∃ p : Fin 2, ∃ k : Nat, ∃ a : Nat, ∃ bs : List Byte, ∃ st : List Byte, ∃ keys : List Byte × List Byte, (s.get (R.DP_CTL p) F.DP_CTL_CANTON = k) ∧ (s.dpAddr p = a) ∧ (bs ≠ []) ∧ (bs.length ≤ 4096) ∧ (bs.length % 4 = 0) ∧ (s.flag (R.DP_STATUS p) F.DP_STATUS_ERR = false) ∧ (s.polState k = 1) ∧ (s.flag (R.DP_CTL p) F.DP_CTL_KEY = true) ∧ (s.flag (R.DP_CTL p) F.DP_CTL_DIR = false) ∧ ((s.canton k).hostKeys = some keys) ∧ (s.host.stream[p] ++ bs = st) ∧ (((32 ≤ st.length ∧ 1048576 < fieldAt st 4 4) ∨ (48 + fieldAt st 4 4 ≤ st.length ∧ (fieldAt st 4 4 = 0 ∨ (s.canton k).spent = true))))) :=
  ⟨⟨(dpPoison 1), 1, 0, block15, ([1, 2, 3, 4]), 6, by decide +kernel⟩,
   ⟨(dpPoison 2), 1, 0, block15, 4, 6, by decide +kernel⟩,
   ⟨(pathSt CantonSec.reset []), 1, 0, 256, (List.replicate 28 0), (List.replicate 28 0), (([1], [2])), by decide +kernel⟩,
   ⟨(pathSt CantonSec.reset pathHead), 1, 0, 256, (List.replicate 16 0), (pathHead ++ List.replicate 16 0), (([1], [2])), by decide +kernel⟩,
   ⟨(pathSt CantonSec.reset (List.replicate 44 0)), 1, 0, 256, (List.replicate 4 0), (List.replicate 48 0), (([1], [2])), by decide +kernel⟩⟩

theorem wit_BulkPortsAreCheckedPerAccess_4 :
    ∃ s : State, ∃ p : Fin 2, ∃ k : Nat, ∃ a : Nat, ∃ bs : List Byte, ∃ st : List Byte, ∃ keys : List Byte × List Byte, (s.get (R.DP_CTL p) F.DP_CTL_CANTON = k) ∧ (s.dpAddr p = a) ∧ (bs ≠ []) ∧ (bs.length ≤ 4096) ∧ (bs.length % 4 = 0) ∧ (s.flag (R.DP_STATUS p) F.DP_STATUS_ERR = false) ∧ (s.polState k = 1) ∧ (s.flag (R.DP_CTL p) F.DP_CTL_KEY = true) ∧ (s.flag (R.DP_CTL p) F.DP_CTL_DIR = false) ∧ ((s.canton k).hostKeys = some keys) ∧ (s.host.stream[p] ++ bs = st) ∧ (((32 ≤ st.length ∧ 1048576 < fieldAt st 4 4) ∨ (48 + fieldAt st 4 4 ≤ st.length ∧ (fieldAt st 4 4 = 0 ∨ (s.canton k).spent = true)))) :=
  ⟨(pathSt CantonSec.reset (List.replicate 28 255)), 1, 0, 256, (List.replicate 4 0), (List.replicate 28 255 ++ List.replicate 4 0), (([1], [2])), by decide +kernel⟩

theorem wit_BulkPortsAreCheckedPerAccess_5 :
    (((pathSt CantonSec.reset pathHead).openRecord 0 0xFFFF 4 (pathHead ++ List.replicate 20 7) = .ok [7, 7, 7, 7]) → (∃ s : State, ∃ p : Fin 2, ∃ k : Nat, ∃ a : Nat, ∃ bs : List Byte, ∃ st : List Byte, ∃ keys : List Byte × List Byte, ∃ len : Nat, ∃ plain : List Byte, (s.get (R.DP_CTL p) F.DP_CTL_CANTON = k) ∧ (s.dpAddr p = a) ∧ (bs ≠ []) ∧ (bs.length ≤ 4096) ∧ (bs.length % 4 = 0) ∧ (s.flag (R.DP_STATUS p) F.DP_STATUS_ERR = false) ∧ (s.polState k = 1) ∧ (s.flag (R.DP_CTL p) F.DP_CTL_KEY = true) ∧ (s.flag (R.DP_CTL p) F.DP_CTL_DIR = false) ∧ ((s.canton k).hostKeys = some keys) ∧ (s.host.stream[p] ++ bs = st) ∧ (fieldAt st 4 4 = len) ∧ (1 ≤ len) ∧ (len ≤ 1048576) ∧ (st.length = 48 + len) ∧ ((s.canton k).spent = false) ∧ (k < 8) ∧ (s.openRecord k 0xFFFF len st = .ok plain) ∧ (s.inSlice k a len = true) ∧ (s.mergesPoison a len = false))) :=
  fun hA => ⟨(pathSt CantonSec.reset pathHead), 1, 0, 256, (List.replicate 20 7), (pathHead ++ List.replicate 20 7), (([1], [2])), 4, ([7, 7, 7, 7]), by decide, by decide, by decide, by decide, by decide, by decide, by decide, by decide, by decide, rfl, by decide, by decide, by decide, by decide, by decide, by decide, by decide, hA, by decide, by decide⟩

theorem wit_TenantImagesRunMeasuredAndConfined_1 :
    (∃ s : State, ∃ k : Fin 8, ∃ mpa : Nat, ∃ len : Nat, ∃ m : Manifest, (s.polState k = 1) ∧ ((s.canton k).manifest = some m) ∧ (0 < len) ∧ (len ≤ 2 ^ 28) ∧ (((s.canton k).images.filter (fun i => i.runs)).length < 8) ∧ (s.inSlice k mpa len = true) ∧ (s.readable mpa len = true)) ∧
    (∃ s : State, ∃ k : Fin 8, ∃ n : Nat, ∃ i : TenantImage, ∃ d : Fin 40, ∃ q : Fin 4, ∃ g : Fin 16, ∃ x : BitVec 16, ∃ table : Fin 16, ∃ variant : BitVec 12, ∃ w : Cmd, ((s.canton k).images[n]? = some i) ∧ (i.runs = true) ∧ (s.cdCanton d = k.val) ∧ (s.dieOff d = false) ∧ ((s.qState d q = 0 ∨ s.qState d q = 4 ∨ s.qState d q = 6)) ∧ (s.takesWork k = true)) ∧
    (∃ s : State, ∃ k : Fin 8, ∃ n : Nat, ∃ i : TenantImage, ∃ d : Fin 40, ∃ q : Fin 4, ∃ g : Fin 16, ∃ x : BitVec 16, ∃ table : Fin 16, ∃ variant : BitVec 12, ∃ w : Cmd, ((s.canton k).images[n]? = some i) ∧ (i.runs = true)) ∧
    (∃ s : State, ∃ k : Fin 8, ∃ n : Nat, ∃ i : TenantImage, ∃ d : Fin 40, ∃ q : Fin 4, ∃ g : Fin 16, ∃ x : BitVec 16, ∃ table : Fin 16, ∃ variant : BitVec 12, ∃ w : Cmd, ((s.canton k).images[n]? = some i) ∧ (i.runs = true) ∧ (s.cdCanton d ≠ k.val)) ∧
    (∃ s : State, ∃ k : Fin 8, ∃ n : Nat, ∃ i : TenantImage, ∃ d : Fin 40, ∃ q : Fin 4, ∃ g : Fin 16, ∃ x : BitVec 16, ∃ table : Fin 16, ∃ variant : BitVec 12, ∃ w : Cmd, ((s.canton k).images[n]? = some i) ∧ (i.runs = true) ∧ (s.cdCanton d ≠ k.val)) ∧
    (∃ s : State, ∃ k : Fin 8, ∃ n : Nat, ∃ i : TenantImage, ∃ d : Fin 40, ∃ q : Fin 4, ∃ g : Fin 16, ∃ x : BitVec 16, ∃ table : Fin 16, ∃ variant : BitVec 12, ∃ w : Cmd, ∃ c : HyperCall, ((s.canton k).images[n]? = some i) ∧ (i.runs = false)) :=
  ⟨⟨(dram2.setCanton 0 held9), 0, 512, 4, manifest9, by decide +kernel⟩,
   ⟨(imaged true), 7, 1, (⟨0x1000, 4, [3], true⟩), 39, 3, 15, 65535, 0, 0, 0, by decide, by decide, by decide, by decide, by decide, by decide⟩,
   ⟨(imaged true), 7, 1, (⟨0x1000, 4, [3], true⟩), 39, 3, 15, 65535, 0, 0, 0, by decide, by decide⟩,
   ⟨(imaged true), 7, 1, (⟨0x1000, 4, [3], true⟩), 38, 3, 15, 65535, 0, 0, 0, by decide, by decide, by decide⟩,
   ⟨(imaged true), 7, 1, (⟨0x1000, 4, [3], true⟩), 38, 3, 15, 65535, 0, 0, 0, by decide, by decide, by decide⟩,
   ⟨(imaged false), 7, 1, (⟨0x1000, 4, [3], false⟩), 38, 3, 15, 65535, 0, 0, 0, (.ring 0 0), by decide, by decide⟩⟩

theorem wit_TenantImagesRunMeasuredAndConfined_2 :
    (∃ s : State, ∃ d : Fin 40, ∃ n : Nat, ∃ i : TenantImage, ((s.canton (s.cdCanton d)).images[n]? = some i) ∧ (i.runs = true) ∧ (s.cdCanton d < 8)) ∧
    (∃ s : State, ∃ k : Fin 8, ∃ n : Nat, ∃ i : TenantImage, ∃ d : Fin 40, ∃ q : Fin 4, ∃ g : Fin 16, ∃ x : BitVec 16, ∃ table : Fin 16, ∃ variant : BitVec 12, ∃ w : Cmd, ∃ v : VariantTable, ∃ e : List Byte, ∃ dd : Nat, ∃ off : Nat, ((s.canton k).images[n]? = some i) ∧ (i.runs = true) ∧ (s.cdCanton d = k.val) ∧ (s.dieOff d = false) ∧ (s.tableOf ⟨s.cdCanton d % 8, Nat.mod_lt _ (by decide)⟩ table = some v) ∧ (variant.toNat < v.nvar) ∧ (s.variantEntry v variant.toNat = e) ∧ (s.drainRight d e w = true) ∧ ((fieldAt e 14 1).testBit 7 = false) ∧ (s.placeOf (s.qBase d q + 16 * (s.qTail d q % s.qSize d q)) = .cd dd off) ∧ ((s.cd (fin40 dd)).coversWindow off 16 = false) ∧ ((s.qTail d q + 1 + 2 ^ 16 - s.qHead d q) % 2 ^ 16 ≤ s.qSize d q)) ∧
    (∃ s : State, ∃ k : Fin 8, ∃ n : Nat, ∃ i : TenantImage, ∃ d : Fin 40, ∃ q : Fin 4, ∃ g : Fin 16, ∃ x : BitVec 16, ∃ table : Fin 16, ∃ variant : BitVec 12, ∃ w : Cmd, ∃ v : VariantTable, ∃ e : List Byte, ((s.canton k).images[n]? = some i) ∧ (i.runs = true) ∧ (s.cdCanton d = k.val) ∧ (s.dieOff d = false) ∧ (s.tableOf ⟨s.cdCanton d % 8, Nat.mod_lt _ (by decide)⟩ table = some v) ∧ (variant.toNat < v.nvar) ∧ (s.variantEntry v variant.toNat = e) ∧ (s.drainRight d e w = false)) :=
  ⟨⟨(imaged true), 39, 1, (⟨0x1000, 4, [3], true⟩), by decide, by decide, by decide⟩,
   ⟨(ranImage (ringed activated)), 0, 0, (⟨0x1000, 4, [3], true⟩), 39, 3, 0, 0, 15, 1, (drainFor 4095), active1, (entry1 1 31 4095), 39, (4096 + 240), by decide +kernel⟩,
   ⟨(ranImage (ringed activated)), 0, 0, (⟨0x1000, 4, [3], true⟩), 39, 3, 0, 0, 15, 1, (drainFor 4094), active1, (entry1 1 31 4095), by decide +kernel⟩⟩
def ev (code : Nat) (k : Option Nat) : Event := ⟨code, 63, k, List.replicate 12 0⟩
def raised (code : Nat) (k : Option Nat) : State := { base with events := [ev code k, ev 0x0063 none] }
def eventRing (tail head : Nat) : State :=
  let s := (raised 0x0265 none).put R.HI_EVQ_CTL F.HI_EVQ_CTL_EN 1
  ((s.put R.HI_LINK F.HI_LINK_MODE 1).wr R.HI_EVQ_TAIL (BitVec.ofNat 32 tail)).wr R.HI_EVQ_HEAD (BitVec.ofNat 32 head)
def withRel (s : State) (f : RelState → RelState) : State := { s with rel := f s.rel }
def withPwr (s : State) (f : PowerState → PowerState) : State := { s with pwr := f s.pwr }
def sample (dies dimms : List Nat) : SafetySample := ⟨dies, dimms, [1], 5, 450, 600, 65535, 1⟩
def hot : State := ((base.put R.PWR_STATUS F.PWR_STATUS_STATE 1).put R.PWR_STATUS F.PWR_STATUS_THERMAL 1)
def page1 : NvWrite := ⟨0x4100000, some [1, 2], 1, 0⟩
/-- The hold-up bank at a measured capacitance (0: not valid), with writes that wait. -/
def bank (uf : Nat) (l : List NvWrite) : State :=
  withPwr (withRegs base []) (fun p => { p with nvWait := l }) |> fun s =>
    if uf = 0 then s.put R.PWR_HOLDUP F.PWR_HOLDUP_VALID 0
    else (s.put R.PWR_HOLDUP F.PWR_HOLDUP_VALID 1).put R.PWR_HOLDUP F.PWR_HOLDUP_UF uf
def bufFl (bs : List Byte) : State := withPwr base (fun p => { p with flBuf := sparsePut zeroByte [] 0 bs })

theorem wit_ManagementRequestsAreSignedInOrder_1 :
    (∃ s : State, (s.mgmtLost = false)) ∧
    (∃ s : State, ∃ l : List Nat, ∃ u : State, (s.mgmtLost = false) ∧ (u = l.foldl (fun u a => u.readSync a) s)) ∧
    (∃ s : State, ∃ mseq : BitVec 64, ∃ sig : List Byte, ∃ fresh : Bool, ∃ a : Nat, ∃ x : W32, ∃ off : Nat, (s.mgmtLost = false) ∧ (fresh = decide (∀ m, s.host.mseq = some m → m < mseq.toNat))) ∧
    (∃ s : State, ∃ mseq : BitVec 64, ∃ sig : List Byte, ∃ fresh : Bool, ∃ a : Nat, ∃ x : W32, ∃ off : Nat, (s.mgmtLost = false) ∧ (fresh = decide (∀ m, s.host.mseq = some m → m < mseq.toNat))) ∧
    (∃ s : State, ∃ mseq : BitVec 64, ∃ sig : List Byte, ∃ fresh : Bool, ∃ a : BitVec 48, ∃ ctl : W32, (s.mgmtLost = false) ∧ (fresh = decide (∀ m, s.host.mseq = some m → m < mseq.toNat))) ∧
    (∃ s : State, ∃ mseq : BitVec 64, ∃ sig : List Byte, ∃ fresh : Bool, ∃ off : Nat, ∃ len : Nat, (s.mgmtLost = false) ∧ (fresh = decide (∀ m, s.host.mseq = some m → m < mseq.toNat))) :=
  ⟨⟨base, by decide⟩,
   ⟨base, ([R.BOOT_STATUS, R.VE_STATUS 39]), ([R.BOOT_STATUS, R.VE_STATUS 39].foldl (fun u a => State.readSync u a) base), by decide, rfl⟩,
   ⟨base, 1, ([]), true, (R.SEQ_Q_TAIL 39 3), 7, 0, by decide, by decide⟩,
   ⟨base, 1, ([]), true, R.RST_CMD, 2, 0x2010, by decide, by decide⟩,
   ⟨base, 1, ([]), true, 0xFFFFFFFFFFFF, 7, by decide, by decide⟩,
   ⟨({ base with host := { base.host with mseq := some 5 } }), 5, ([]), false, 0, 4, by decide, by decide⟩⟩

theorem wit_ManagementRequestsAreSignedInOrder_2 :
    (∃ s : State, ∃ mseq : BitVec 64, ∃ sig : List Byte, ∃ fresh : Bool, ∃ off : Nat, ∃ len : Nat, (s.mgmtLost = false) ∧ (fresh = decide (∀ m, s.host.mseq = some m → m < mseq.toNat))) ∧
    (∃ s : State, ∃ mseq : BitVec 64, ∃ sig : List Byte, ∃ fresh : Bool, ∃ off : Nat, ∃ bs : List Byte, (s.mgmtLost = false) ∧ (fresh = decide (∀ m, s.host.mseq = some m → m < mseq.toNat))) ∧
    (∃ s : State, ∃ mseq : BitVec 64, ∃ sig : List Byte, ∃ fresh : Bool, ∃ x : W32, ∃ step : KaStep, (s.mgmtLost = false) ∧ (fresh = decide (∀ m, s.host.mseq = some m → m < mseq.toNat))) ∧
    (∃ s : State, ∃ bs : List Byte, (s.mgmtLost = false)) ∧
    (∃ s : State, ∃ n : Nat, (s.mgmtLost = false)) ∧
    (∃ s : State, ∃ l : List Nat, ∃ bs : List Byte, ∃ sig : List Byte, ∃ n : Nat, ∃ m : BitVec 64, ∃ a : BitVec 48, ∃ x : W32, ∃ op : SecBufOp, ∃ c : Instr, (s.mgmtLost = true) ∧ (c ∈ ([.info, .mgmtRead l, .dpdata bs, .dpread n, .mgmtWrite n x m sig, .dpset a x m sig, .secbuf op m sig] : List Instr))) :=
  ⟨⟨({ (base.put R.SEC_OWN F.SEC_OWN_VIEW 8) with host := { base.host with mseq := some 5 } }), 6, ([]), true, 0, 4, by decide, by decide⟩,
   ⟨({ (base.put R.SEC_OWN F.SEC_OWN_VIEW 8) with host := { base.host with mseq := some 5 } }), 6, ([]), true, 262143, ([1, 2]), by decide, by decide⟩,
   ⟨base, 1, ([]), true, 10, (KaStep.start 0), by decide, by decide⟩,
   ⟨base, ([]), by decide⟩,
   ⟨base, 4, by decide⟩,
   ⟨(withPwr base (fun p => { p with mode := .standby })), ([]), ([1]), ([]), 4, 1, 0, 0, (SecBufOp.read 0 4), (Instr.mgmtWrite 4 0 1 []), by decide, by simp⟩⟩

theorem wit_EventsAreLoggedAndActedOn_1 :
    (∃ s : State, ∃ e : Event, ∃ rest : List Event, ∃ n : Nat, (s.events = e :: rest) ∧ (n = s.get64 R.EVL_NEXT_LO R.EVL_NEXT_HI)) ∧
    (∃ s : State, ∃ e : Event, ∃ rest : List Event, ∃ n : Nat, (s.events = e :: rest) ∧ (n = s.get64 R.EVL_NEXT_LO R.EVL_NEXT_HI) ∧ (s.flag R.HI_EVQ_CTL F.HI_EVQ_CTL_EN = false) ∧ (s.rel.lost = 0) ∧ (s.rel.window.length < 4096) ∧ (evCategory e.code < 3) ∧ (0 < s.refill.rel.tokens)) ∧
    (∃ s : State, ∃ e : Event, ∃ rest : List Event, ∃ n : Nat, (s.events = e :: rest) ∧ (n = s.get64 R.EVL_NEXT_LO R.EVL_NEXT_HI) ∧ (s.flag R.HI_EVQ_CTL F.HI_EVQ_CTL_EN = false) ∧ (s.rel.lost = 0) ∧ (s.rel.window.length < 4096) ∧ (4 ≤ evCategory e.code) ∧ (s.host.masked.getLsbD 1 = false)) ∧
    (∃ s : State, ∃ e : Event, ∃ rest : List Event, ∃ n : Nat, (s.events = e :: rest) ∧ (n = s.get64 R.EVL_NEXT_LO R.EVL_NEXT_HI) ∧ (s.flag R.HI_EVQ_CTL F.HI_EVQ_CTL_EN = true) ∧ (s.get R.HI_LINK F.HI_LINK_MODE ≠ 0) ∧ (evCategory e.code < 3) ∧ ((s.get R.HI_EVQ_TAIL F.HI_EVQ_TAIL_INDEX + 65536 - s.get R.HI_EVQ_HEAD F.HI_EVQ_HEAD_INDEX) % 65536 < min s.evqSize 65535)) ∧
    (∃ s : State, ∃ e : Event, ∃ rest : List Event, ∃ n : Nat, (s.events = e :: rest) ∧ (n = s.get64 R.EVL_NEXT_LO R.EVL_NEXT_HI) ∧ (s.flag R.HI_EVQ_CTL F.HI_EVQ_CTL_EN = true) ∧ (s.get R.HI_LINK F.HI_LINK_MODE ≠ 0) ∧ (evCategory e.code < 3) ∧ (min s.evqSize 65535 ≤ (s.get R.HI_EVQ_TAIL F.HI_EVQ_TAIL_INDEX + 65536 - s.get R.HI_EVQ_HEAD F.HI_EVQ_HEAD_INDEX) % 65536)) ∧
    (∃ s : State, ∃ e : Event, ∃ rest : List Event, ∃ n : Nat, ∃ k : Fin 8, (s.events = e :: rest) ∧ (n = s.get64 R.EVL_NEXT_LO R.EVL_NEXT_HI) ∧ (evCategory e.code = 3) ∧ (e.canton = some k.val) ∧ (s.polState k ≠ 2) ∧ ((s.get R.CONT_STATUS F.CONT_STATUS_CFATAL).testBit k = false)) :=
  ⟨⟨(raised 0x0265 none), (ev 0x0265 none), ([ev 0x0063 none]), 0, by decide, by decide⟩,
   ⟨(raised 0x0265 none), (ev 0x0265 none), ([ev 0x0063 none]), 0, by decide, by decide, by decide, by decide, by decide, by decide, by decide⟩,
   ⟨((raised 0x0467 none).setHost { base.host with masked := 0 }), (ev 0x0467 none), ([ev 0x0063 none]), 0, by decide, by decide, by decide, by decide, by decide, by decide, by decide⟩,
   ⟨(eventRing 3 65476), (ev 0x0265 none), ([ev 0x0063 none]), 0, by decide, by decide, by decide, by decide, by decide, by decide⟩,
   ⟨(eventRing 3 65475), (ev 0x0265 none), ([ev 0x0063 none]), 0, by decide, by decide, by decide, by decide, by decide, by decide⟩,
   ⟨(raised 0x3310 (some 7)), (ev 0x3310 (some 7)), ([ev 0x0063 none]), 0, 7, by decide, by decide, by decide, by decide, by decide, by decide⟩⟩

theorem wit_EventsAreLoggedAndActedOn_2 :
    (∃ s : State, ∃ e : Event, ∃ rest : List Event, ∃ n : Nat, (s.events = e :: rest) ∧ (n = s.get64 R.EVL_NEXT_LO R.EVL_NEXT_HI) ∧ (evCategory e.code = 3) ∧ (e.canton = none) ∧ (fatalCovered e.code = false) ∧ (s.pwr.nv = none) ∧ (s.get R.BOOT_STATUS F.BOOT_STATUS_PHASE = 8) ∧ (s.pwr.resetNow = none)) ∧
    (∃ s : State, ∃ e : Event, ∃ rest : List Event, ∃ n : Nat, ∃ w : NvWrite, (s.events = e :: rest) ∧ (n = s.get64 R.EVL_NEXT_LO R.EVL_NEXT_HI) ∧ (evCategory e.code = 3) ∧ (e.canton = none) ∧ (fatalCovered e.code = false) ∧ (s.pwr.nv = some w)) ∧
    (∃ s : State, ∃ k : Fin 8, ((s.get R.CONT_CTL F.CONT_CTL_AUTOCRST).testBit k = true) ∧ ((∃ u, (k.val, u) ∈ s.rel.containAt ∧ u ≤ s.now)) ∧ (s.get R.BOOT_STATUS F.BOOT_STATUS_PHASE = 8) ∧ (s.pwr.resetNow = none)) ∧
    (∃ s : State, ∃ k : Fin 8, ((∀ x ∈ s.rel.containAt, x.1 = k.val → s.now < x.2))) ∧
    (∃ s : State, ∃ u : State, ∃ v : View, ∃ a : Nat, ∃ key : Nat, ∃ hi : Bool, (s.readSync a = u) ∧ (u.keyFor v a = key) ∧ (u.readRefused v a = true)) ∧
    (∃ s : State, ∃ u : State, ∃ v : View, ∃ a : Nat, ∃ key : Nat, ∃ r : RegRow, (s.readSync a = u) ∧ (u.keyFor v a = key) ∧ (u.readRefused v a = false) ∧ (regAt key = some r) ∧ ((r.die, r.off) ∈ hwPairs)) :=
  ⟨⟨(raised 0x0388 none), (ev 0x0388 none), ([ev 0x0063 none]), 0, by decide, by decide, by decide, by decide, by decide, by decide, by decide, by decide⟩,
   ⟨(withPwr (raised 0x0388 none) (fun p => { p with nv := some page1 })), (ev 0x0388 none), ([ev 0x0063 none]), 0, page1, by decide, by decide, by decide, by decide, by decide, by decide⟩,
   ⟨(withRel (base.put R.CONT_CTL F.CONT_CTL_AUTOCRST 128) (fun x => { x with containAt := [(7, 0)] })), 7, by decide, ⟨0, by decide⟩, by decide, by decide⟩,
   ⟨(withRel base (fun x => { x with containAt := [(7, 1), (6, 0)] })), 7, by decide⟩,
   ⟨base, base, (View.core 39), (R.PWR_CANTON 7), (R.PWR_CANTON 7), true, rfl, by decide, by decide⟩,
   ⟨(base.wr (R.DP_ADDR_HI 0) 5), (base.wr (R.DP_ADDR_HI 0) 5), View.host, (R.DP_ADDR_LO 0), (R.DP_ADDR_LO 0), (⟨"DP_ADDR_LO", .hd, 0x5000, [(2, 32)], [⟨31, 0, .rwOwner, 0, .n⟩]⟩), rfl, by decide, by decide, by decide, by decide⟩⟩

theorem wit_EventsAreLoggedAndActedOn_3 :
    (∃ s : State, ∃ u : State, ∃ v : View, ∃ a : Nat, ∃ key : Nat, ∃ r : RegRow, (s.readSync a = u) ∧ (u.keyFor v a = key) ∧ (u.readRefused v a = false) ∧ (regAt key = some r) ∧ ((r.die, r.off) ∉ hwPairs)) ∧
    (∃ s : State, ∃ u : State, ∃ v : View, ∃ a : Nat, ∃ key : Nat, ∃ x, (s.readSync a = u) ∧ (u.keyFor v a = key) ∧ (u.readRefused v a = false) ∧ (u.latch.find? (fun p => p.1 == (v, key)) = some ((v, key), x))) ∧
    (∃ s : State, ∃ u : State, ∃ v : View, ∃ a : Nat, ∃ key : Nat, (s.readSync a = u) ∧ (u.keyFor v a = key) ∧ (u.readRefused v a = false) ∧ (u.latch.find? (fun p => p.1 == (v, key)) = none)) :=
  ⟨⟨base, base, View.host, R.HI_LINK, R.HI_LINK, (⟨"HI_LINK", .hd, 0x1000, [], [⟨1, 0, .ro, 0, .n⟩, ⟨2, 2, .ro, 0, .n⟩, ⟨3, 3, .ro, 0, .n⟩, ⟨4, 4, .ro, 0, .n⟩, ⟨31, 16, .ro, 0, .w⟩]⟩), rfl, by decide, by decide, by decide, by decide⟩,
   ⟨({ base with latch := [((View.host, R.DP_ADDR_HI 0), 7)] }), ({ base with latch := [((View.host, R.DP_ADDR_HI 0), 7)] }), View.host, (R.DP_ADDR_HI 0), (R.DP_ADDR_HI 0), 7, rfl, by decide, by decide, by decide⟩,
   ⟨({ base with latch := [((View.core 0, R.DP_ADDR_HI 0), 7)] }), ({ base with latch := [((View.core 0, R.DP_ADDR_HI 0), 7)] }), View.host, (R.DP_ADDR_HI 0), (R.DP_ADDR_HI 0), rfl, by decide, by decide, by decide⟩⟩

theorem wit_SensorsThrottleAndQuench_1 :
    (∃ s : State, ∃ x : SafetySample, (allBelow x.dies (s.throtC - 5) = true) ∧ ((∀ d ∈ x.dies, d = 0xFF ∨ d < s.throtC)) ∧ ((∀ i, i < 32 → x.dimms.getD i 0xFF = 0xFF ∨ x.dimms.getD i 0xFF < s.get R.SF_DIMMMAX F.SF_DIMMMAX_TEMP)) ∧ (x.inlet ≤ 450) ∧ (x.outlet ≤ 600) ∧ (s.rel.stFailed = []) ∧ (x.vin < 2 ^ 16)) ∧
    (∃ s : State, ∃ x : SafetySample, ((∃ d ∈ x.dies, d ≠ 0xFF ∧ s.throtC ≤ d)) ∧ (s.throttled = false) ∧ (x.inlet ≤ 450) ∧ (x.outlet ≤ 600) ∧ (s.rel.stFailed = []) ∧ ((∀ i, i < 32 → x.dimms.getD i 0xFF = 0xFF ∨ x.dimms.getD i 0xFF < s.get R.SF_DIMMMAX F.SF_DIMMMAX_TEMP))) ∧
    (∃ s : State, ∃ x : SafetySample, ∃ i : Fin 32, (s.clocked = true) ∧ (s.rel.dimmOver[i] = true) ∧ (x.dimms.getD i 0xFF ≠ 0xFF) ∧ (s.get R.SF_DIMMMAX F.SF_DIMMMAX_TEMP ≤ x.dimms.getD i 0xFF) ∧ (s.flag R.SF_STATUS F.SF_STATUS_QUENCHED = false) ∧ (s.rel.quenches = []) ∧ (s.get R.SF_QLIMIT F.SF_QLIMIT_COUNT ≠ 0) ∧ (s.rel.stFailed = [])) ∧
    (∃ s : State, ∃ c : BitVec 5, ∃ m : BitVec 8, (c ≠ 0) ∧ (s.clocked = true) ∧ (s.flag R.SF_STATUS F.SF_STATUS_QUENCHED = false)) ∧
    (∃ s : State, ∃ c : BitVec 5, ∃ m : BitVec 8, (c ≠ 0) ∧ (s.flag R.SF_STATUS F.SF_STATUS_QUENCHED = true)) ∧
    (∃ s : State, ∃ die : Fin 64, ∃ temp : BitVec 8, (s.throtC ≤ temp.toNat) ∧ (s.throttled = false)) :=
  ⟨⟨base, (sample [99, 0xFF] []), by decide, by decide, by decide, by decide, by decide, by decide, by decide⟩,
   ⟨base, (sample [104, 105] []), by decide, by decide, by decide, by decide, by decide, by decide⟩,
   ⟨(withRel base (fun x => { x with dimmOver := x.dimmOver.set 31 true })), (sample [] (List.replicate 31 0xFF ++ [254])), 31, by decide, by decide, by decide, by decide, by decide, by decide, by decide, by decide⟩,
   ⟨base, 31, 255, by decide, by decide, by decide⟩,
   ⟨(withRel (base.put R.SF_STATUS F.SF_STATUS_QUENCHED 1) (fun x => { x with causes := [.overvolt] })), 17, 0, by decide, by decide⟩,
   ⟨base, 63, 105, by decide, by decide⟩⟩

theorem wit_SensorsThrottleAndQuench_2 :
    (∃ s : State, ∃ die : Fin 64, ∃ temp : BitVec 8, (temp.toNat < s.throtC)) ∧
    (∃ s : State, ∃ mv : BitVec 16, (s.throttled = false)) ∧
    (∃ s : State, ∃ mv : BitVec 16, (s.flag R.PWR_STATUS F.PWR_STATUS_SUPPLY = true)) ∧
    (∃ s : State, (s.throttled = true) ∧ (s.flag R.PWR_STATUS F.PWR_STATUS_SUPPLY = false) ∧ (allBelow s.rel.temps.toList (s.throtC - 5) = true) ∧ (s.pwr.coolAt + 100 * msTicks ≤ s.now)) ∧
    (∃ s : State, (s.throttled = true) ∧ (s.flag R.PWR_STATUS F.PWR_STATUS_SUPPLY = true ∨ (s.flag R.PWR_STATUS F.PWR_STATUS_THERMAL = true ∧ (allBelow s.rel.temps.toList (s.throtC - 5) = false ∨ s.now < s.pwr.coolAt + 100 * msTicks)))) ∧
    (∃ s : State, ∃ k : Fin 8, ∃ w : BitVec 16, ∃ cap : Nat, (mcrNum s.pwr.mcr (132 + 2 * k.val) 2 = cap)) :=
  ⟨⟨base, 63, 104, by decide⟩,
   ⟨base, 1, by decide⟩,
   ⟨(base.put R.PWR_STATUS F.PWR_STATUS_SUPPLY 1), 50000, by decide⟩,
   ⟨({ hot with now := 420000000 }), by decide +kernel⟩,
   ⟨({ hot with now := 419999999 }), by decide +kernel⟩,
   ⟨base, 7, 65535, 0, by decide⟩⟩

theorem wit_SensorsThrottleAndQuench_3 :
    ∃ s : State, ∃ k : Fin 8, ∃ w : BitVec 16, ∃ cap : Nat, (mcrNum s.pwr.mcr (132 + 2 * k.val) 2 = cap) :=
  ⟨(withPwr base (fun p => { p with mcr := List.replicate 146 0 ++ [5, 0] })), 7, 6, 5, by decide +kernel⟩
/-- ERASE, PROGRAM beyond a slot and PROGRAM of its last chunk: whichever slot is named, the other is free. -/
theorem wit_flashSlot (s : State) (kind : Fin 8) : ∃ slot : Fin 2, s.namedSlot kind ≠ slot := by
  by_cases h : s.namedSlot kind = 0
  · exact ⟨1, by rw [h]; decide⟩
  · exact ⟨0, h⟩
theorem wit_flashFrame :
    (base.flag R.FL_STATUS F.FL_STATUS_BUSY = false ∧ (4 : Fin 8).val ≤ 4) ∧
    (let s := base.put R.FL_ADDR F.FL_ADDR_CHUNK 1;
      s.flag R.FL_STATUS F.FL_STATUS_BUSY = false ∧ (slotPlace 0 1).2 < (s.get R.FL_ADDR F.FL_ADDR_CHUNK + 1) * 0x10000) ∧
    (let s := base.put R.FL_ADDR F.FL_ADDR_CHUNK 63;
      s.flag R.FL_STATUS F.FL_STATUS_BUSY = false ∧ (s.get R.FL_ADDR F.FL_ADDR_CHUNK + 1) * 0x10000 ≤ (slotPlace 1 1).2) :=
  ⟨by decide, by decide, by decide⟩

theorem wit_FlashWritesWaitForTheHoldUpBank_1 :
    (∃ s : State, ∃ w : NvWrite, ∃ rest : List NvWrite, ∃ mv : Nat, (s.pwr.nv = none) ∧ (s.pwr.nvWait = w :: rest) ∧ ((s.pwr.mode ≠ .undervolt ∨ 13000 ≤ mv)) ∧ (s.flag R.PWR_HOLDUP F.PWR_HOLDUP_VALID = true) ∧ (60000 + (if w.page.isSome then 7200 else 960000) ≤ 650 * s.get R.PWR_HOLDUP F.PWR_HOLDUP_UF)) ∧
    (∃ s : State, ∃ w : NvWrite, ∃ rest : List NvWrite, ∃ mv : Nat, (s.pwr.nv = none) ∧ (s.pwr.nvWait = w :: rest) ∧ ((s.pwr.mode ≠ .undervolt ∨ 13000 ≤ mv)) ∧ (s.flag R.PWR_HOLDUP F.PWR_HOLDUP_VALID = true) ∧ (60000 + (if w.page.isSome then 7200 else 960000) ≤ 650 * s.get R.PWR_HOLDUP F.PWR_HOLDUP_UF)) ∧
    (∃ s : State, ∃ w : NvWrite, ∃ rest : List NvWrite, ∃ mv : Nat, (s.pwr.nv = none) ∧ (s.pwr.nvWait = w :: rest) ∧ ((s.pwr.mode ≠ .undervolt ∨ 13000 ≤ mv)) ∧ (s.flag R.PWR_HOLDUP F.PWR_HOLDUP_VALID = false)) ∧
    (∃ s : State, ∃ w : NvWrite, ∃ rest : List NvWrite, ∃ mv : Nat, (s.pwr.nv = none) ∧ (s.pwr.nvWait = w :: rest) ∧ ((s.pwr.mode ≠ .undervolt ∨ 13000 ≤ mv)) ∧ (s.flag R.PWR_HOLDUP F.PWR_HOLDUP_VALID = false) ∧ (w.since + 42000000000 < s.now) ∧ (s.pwr.nvTold = false)) ∧
    (∃ s : State, ∃ w : NvWrite, ∃ rest : List NvWrite, ∃ mv : Nat, (s.pwr.nv = none) ∧ (s.pwr.nvWait = w :: rest) ∧ ((s.pwr.mode ≠ .undervolt ∨ 13000 ≤ mv)) ∧ (s.flag R.PWR_HOLDUP F.PWR_HOLDUP_VALID = false) ∧ (s.pwr.nvTold = true)) ∧
    (∃ s : State, ∃ w : NvWrite, (s.pwr.nv = some w) ∧ (Sparse.wf Config.factory s.pwr.flash = true) ∧ (s.pwr.mrstWaits = none)) :=
  ⟨⟨(bank 104 [page1, { page1 with page := none }]), page1, ([{ page1 with page := none }]), 0, by decide, by decide, by decide, by decide, by decide⟩,
   ⟨(bank 1570 [{ page1 with page := none }]), ({ page1 with page := none }), ([]), 0, by decide, by decide, by decide, by decide, by decide⟩,
   ⟨(bank 0 [page1]), page1, ([]), 0, by decide, by decide, by decide, by decide⟩,
   ⟨({ bank 0 [page1] with now := 42000000001 }), page1, ([]), 0, by decide, by decide, by decide, by decide, by decide, by decide⟩,
   ⟨(withPwr (bank 0 [page1]) (fun p => { p with nvTold := true })), page1, ([]), 0, by decide, by decide, by decide, by decide, by decide⟩,
   ⟨(withPwr base (fun p => { p with nv := some page1 })), page1, by decide, rfl, by decide⟩⟩

theorem wit_FlashWritesWaitForTheHoldUpBank_2 :
    (∃ s : State, ∃ w : NvWrite, (s.pwr.nv = some w) ∧ (Sparse.wf Config.factory s.pwr.flash = true) ∧ (s.pwr.mrstWaits = some 4)) ∧
    (∃ s : State, ∃ w : NvWrite, (s.pwr.nv = some w) ∧ (Sparse.wf Config.factory s.pwr.flash = true) ∧ (s.pwr.mrstWaits = some 9)) ∧
    (∃ s : State, ∃ w : NvWrite, (s.pwr.nv = some w) ∧ (Sparse.wf Config.factory s.pwr.flash = true) ∧ (s.pwr.mrstWaits = some 5) ∧ (s.get R.BOOT_STATUS F.BOOT_STATUS_PHASE = 8) ∧ (s.pwr.resetNow = none)) ∧
    (∃ s : State, ∃ e : Nat, ∃ u : Nat, ∃ l : List (Nat × Nat), (s.rel.waiting = (e, u) :: l) ∧ ((s.pageSlots ≤ s.rel.waiting.length ∨ u + secTicks ≤ s.now))) ∧
    (∃ s : State, ∃ e : Nat, ∃ u : Nat, ∃ l : List (Nat × Nat), (s.rel.waiting = (e, u) :: l) ∧ ((s.pageSlots ≤ s.rel.waiting.length ∨ u + secTicks ≤ s.now))) ∧
    (∃ s : State, ∃ kind : Fin 8, ∃ slot : Fin 2, ∃ c, (s.flag R.FL_STATUS F.FL_STATUS_BUSY = true) ∧ (c ∈ [Instr.bind, .erase kind slot, .program kind slot, .commit kind slot, .mcr])) :=
  ⟨⟨(withPwr base (fun p => { p with nv := some page1, mrstWaits := some 4 })), page1, by decide, rfl, by decide⟩,
   ⟨(withPwr base (fun p => { p with nv := some page1, mrstWaits := some 9 })), page1, by decide, rfl, by decide⟩,
   ⟨(withPwr base (fun p => { p with nv := some page1, mrstWaits := some 5 })), page1, by decide, rfl, by decide, by decide, by decide⟩,
   ⟨({ withRel base (fun x => { x with waiting := [(3, 0)] }) with now := 4200000000 }), 3, 0, ([]), by decide, by decide⟩,
   ⟨(withRel base (fun x => { x with waiting := List.replicate 8 (3, 0), page := 15 })), 3, 0, (List.replicate 7 (3, 0)), by decide, by decide⟩,
   ⟨(base.put R.FL_STATUS F.FL_STATUS_BUSY 1), 0, 0, Instr.mcr, by decide, by decide⟩⟩

theorem wit_FlashWritesWaitForTheHoldUpBank_3 :
    (∃ s : State, ∃ kind : Fin 8, ∃ slot : Fin 2, ∃ c, (s.flag R.FL_STATUS F.FL_STATUS_BUSY = false) ∧ ((4 < kind.val ∨ s.namedSlot kind = slot)) ∧ (c ∈ [Instr.erase kind slot, .program kind slot])) ∧
    (∃ s : State, ∃ kind : Fin 8, ∃ slot : Fin 2, (s.flag R.FL_STATUS F.FL_STATUS_BUSY = false) ∧ (kind.val ≤ 4)) ∧
    (∃ s : State, ∃ kind : Fin 8, ∃ slot : Fin 2, (s.flag R.FL_STATUS F.FL_STATUS_BUSY = false) ∧ (s.flBuf 0 4 ≠ label "JVBD")) ∧
    (∃ s : State, ∃ kind : Fin 8, ∃ slot : Fin 2, (s.flag R.FL_STATUS F.FL_STATUS_BUSY = false) ∧ (s.flBuf 0 4 = label "JVBD")) ∧
    (∃ s : State, ∃ kind : Fin 8, ∃ slot : Fin 2, (s.flag R.FL_STATUS F.FL_STATUS_BUSY = false)) ∧
    (∃ s : State, ∃ c : FlashCmd, ∃ ok : Bool, (s.pwr.flCmd = some c) ∧ ((∀ w ∈ s.pwr.nvWait, w.owner ≠ 3)) ∧ ((∀ w, s.pwr.nv = some w → w.owner ≠ 3))) :=
  ⟨⟨base, 5, 1, (Instr.program 5 1), by decide, Or.inl (by decide), by decide⟩,
   ⟨base, 4, 1, by decide, by decide⟩,
   ⟨base, 0, 0, by decide +kernel⟩,
   ⟨(bufFl (label "JVBD")), 0, 0, by decide +kernel⟩,
   ⟨base, 0, 0, by decide⟩,
   ⟨(withPwr base (fun p => { p with flCmd := some ⟨5, 0, 0, 0⟩, nvWait := [page1] })), (⟨5, 0, 0, 0⟩), true, by decide, by decide, (fun _ h => nomatch (h : none = some _))⟩⟩

theorem wit_FlashWritesWaitForTheHoldUpBank_4 :
    ∃ s : State, ∃ c : FlashCmd, ∃ ok : Bool, (s.pwr.flCmd = some c) ∧ ((∃ w ∈ s.pwr.nvWait, w.owner = 3)) :=
  ⟨(withPwr base (fun p => { p with flCmd := some ⟨5, 0, 0, 0⟩, nvWait := [page1, { page1 with owner := 3 }] })), (⟨5, 0, 0, 0⟩), true, by decide, by decide⟩
/-- What a start finds: nothing wrong, a full hold-up bank, no DIMM. -/
def env0 : StartEnv := ⟨0, 53000, 500, true, true, [], false, 1, [], [], [], 5⟩
def moded (s : State) (m : PowerMode) : State := withPwr s (fun p => { p with mode := m })
def inReset (r : ResetReq) (l : List ResetReq) : State := withPwr base (fun p => { p with resetNow := some r, resets := l, mode := .running })
def parking (since now : Nat) (s : State) : State := { withPwr s (fun p => { p with park := [(0, since)] }) with now := now }

theorem wit_DieResetsStayWithinTheirRule :
    (∃ s : State, ∃ v : View, ∃ die : Fin 64, ∃ k : Fin 8, (40 ≤ die.val) ∧ (die.val < 56) ∧ (s.dieCanton die.val = some k.val)) ∧
    (∃ s : State, ∃ v : View, ∃ die : Fin 64, (die.val = 63)) ∧
    (∃ s : State, ∃ v : View, ∃ die : Fin 64, (die.val = 62) ∧ ((v = .host ∨ v = .mgmt)) ∧ (s.dark = false) ∧ (s.get R.BOOT_STATUS F.BOOT_STATUS_PHASE = 8) ∧ (s.pwr.resetNow = none)) :=
  ⟨⟨(secSt 1 held9 []), .host, 55, 7, by decide, by decide, by decide⟩,
   ⟨base, .host, 63, by decide⟩,
   ⟨(secSt 1 { held9 with hostKeys := some ([1], [2]) } []), .host, 62, by decide, Or.inl rfl, by decide, by decide, by decide⟩⟩

theorem wit_ResetsReachWhatTheyName_1 :
    (∃ s : State, ∃ v : View, ∃ env : StartEnv, ∃ k : Fin 8, ∃ die : Fin 64, ∃ l : Fin 6, ∃ c, (c ∈ [Instr.rstMrst v env, .rstSrst v env, .rstCrst v k, .rstDrst v die, .rstLrst v l]) ∧ (s.dark = true)) ∧
    (∃ s : State, ∃ v : View, ∃ env : StartEnv, ∃ k : Fin 8, ∃ die : Fin 64, ∃ l : Fin 6, ∃ c, (c ∈ [Instr.rstMrst v env, .rstSrst v env, .rstCrst v k, .rstDrst v die, .rstLrst v l]) ∧ (v = .safety)) ∧
    (∃ s : State, ∃ env : StartEnv, ∃ k : Fin 8, ∃ die : Fin 64, ∃ l : Fin 6, ∃ c, (s.dark = false) ∧ (k.val < s.cantons) ∧ (die.val < 40) ∧ (s.get R.BOOT_STATUS F.BOOT_STATUS_PHASE ≠ 8) ∧ (c ∈ [Instr.rstSrst .host env, .rstCrst .host k, .rstDrst .host die, .rstLrst .host l])) ∧
    (∃ s : State, ∃ env : StartEnv, ∃ k : Fin 8, ∃ die : Fin 64, ∃ l : Fin 6, ∃ n : ResetReq, (s.dark = false) ∧ (k.val < s.cantons) ∧ (die.val < 40) ∧ (s.get R.BOOT_STATUS F.BOOT_STATUS_PHASE = 8) ∧ (s.pwr.resetNow = some n) ∧ (s.includes n ⟨3, k.val⟩ = true)) ∧
    (∃ s : State, ∃ env : StartEnv, ∃ k : Fin 8, ∃ die : Fin 64, ∃ l : Fin 6, ∃ n : ResetReq, (s.dark = false) ∧ (k.val < s.cantons) ∧ (die.val < 40) ∧ (s.get R.BOOT_STATUS F.BOOT_STATUS_PHASE = 8) ∧ (s.pwr.resetNow = some n) ∧ (s.includes n ⟨3, k.val⟩ = true)) ∧
    (∃ s : State, ∃ env : StartEnv, ∃ k : Fin 8, ∃ die : Fin 64, ∃ l : Fin 6, ∃ n : ResetReq, (s.dark = false) ∧ (k.val < s.cantons) ∧ (die.val < 40) ∧ (s.get R.BOOT_STATUS F.BOOT_STATUS_PHASE = 8) ∧ (s.pwr.resetNow = some n) ∧ (s.includes n ⟨3, k.val⟩ = false) ∧ (s.includes ⟨3, k.val⟩ n = false)) :=
  ⟨⟨(moded base .quenched), .host, env0, 0, 0, 0, (Instr.rstCrst .host 0), by decide, by decide⟩,
   ⟨base, .safety, env0, 0, 0, 0, (Instr.rstMrst .safety env0), by decide, by decide⟩,
   ⟨State.reset, env0, 0, 39, 5, (Instr.rstDrst .host 39), by decide, by decide, by decide, by decide, by decide⟩,
   ⟨(inReset ⟨2, 0⟩ []), env0, 0, 39, 5, (⟨2, 0⟩), by decide, by decide, by decide, by decide, by decide, by decide⟩,
   ⟨(inReset ⟨3, 0⟩ []), env0, 0, 39, 5, (⟨3, 0⟩), by decide, by decide, by decide, by decide, by decide, by decide⟩,
   ⟨(inReset ⟨5, 3⟩ [⟨4, 62⟩]), env0, 0, 39, 5, (⟨5, 3⟩), by decide, by decide, by decide, by decide, by decide, by decide, by decide⟩⟩

theorem wit_ResetsReachWhatTheyName_2 :
    (∃ s : State, ∃ env : StartEnv, ∃ k : Fin 8, ∃ die : Fin 64, ∃ l : Fin 6, (s.dark = false) ∧ (k.val < s.cantons) ∧ (die.val < 40) ∧ (s.get R.BOOT_STATUS F.BOOT_STATUS_PHASE = 8) ∧ (s.pwr.resetNow = none) ∧ (s.polState k = 1)) ∧
    (∃ s : State, ∃ env : StartEnv, ∃ k : Fin 8, ∃ die : Fin 64, ∃ l : Fin 6, (s.dark = false) ∧ (k.val < s.cantons) ∧ (die.val < 40) ∧ (s.get R.BOOT_STATUS F.BOOT_STATUS_PHASE = 8) ∧ (s.pwr.resetNow = none)) ∧
    (∃ s : State, ∃ env : StartEnv, ∃ k : Fin 8, ∃ die : Fin 64, ∃ l : Fin 6, (s.dark = false) ∧ (k.val < s.cantons) ∧ (die.val < 40) ∧ (s.get R.BOOT_STATUS F.BOOT_STATUS_PHASE = 8) ∧ (s.pwr.resetNow = none) ∧ (s.portState l ≠ 0)) ∧
    (∃ s : State, ∃ env : StartEnv, ∃ k : Fin 8, ∃ die : Fin 64, ∃ l : Fin 6, (s.dark = false) ∧ (k.val < s.cantons) ∧ (die.val < 40) ∧ (s.get R.BOOT_STATUS F.BOOT_STATUS_PHASE = 8) ∧ (s.pwr.resetNow = none) ∧ (Inv s) ∧ (s.pwr.nv = none)) ∧
    (∃ s : State, ∃ env : StartEnv, ∃ k : Fin 8, ∃ die : Fin 64, ∃ l : Fin 6, (s.dark = false) ∧ (k.val < s.cantons) ∧ (die.val < 40) ∧ (s.get R.BOOT_STATUS F.BOOT_STATUS_PHASE = 8) ∧ (s.pwr.resetNow = none) ∧ (s.pwr.nv.isSome = true) ∧ (s.pwr.mode ≠ .starting)) ∧
    (∃ s : State, ∃ env : StartEnv, ∃ k : Fin 8, ∃ die : Fin 64, ∃ l : Fin 6, (s.dark = false) ∧ (k.val < s.cantons) ∧ (die.val < 40) ∧ (s.get R.BOOT_STATUS F.BOOT_STATUS_PHASE = 8) ∧ (s.pwr.resetNow = none)) :=
  ⟨⟨({ (secSt 1 held9 []) with keySlots := [(7, 3, [1]), (6, 3, [2])] }), env0, 7, 39, 5, by decide, by decide, by decide, by decide, by decide, by decide⟩,
   ⟨(withMem (secSt 1 held9 []) (lsBase 39 + 5) [7]), env0, 7, 39, 5, by decide, by decide, by decide, by decide, by decide⟩,
   ⟨(linked 2), env0, 0, 39, 5, by decide, by decide, by decide, by decide, by decide, by decide⟩,
   ⟨(withMem (secSt 1 held9 []) (lsBase 39 + 5) [7]), env0, 7, 39, 5, by decide +kernel, by decide +kernel, by decide +kernel, by decide +kernel, by decide +kernel, by constructor <;> decide, by decide +kernel⟩,
   ⟨(withPwr (secSt 1 held9 []) (fun p => { p with nv := some page1 })), env0, 7, 39, 5, by decide, by decide, by decide, by decide, by decide, by decide, by decide⟩,
   ⟨({ (secSt 1 held9 []) with keySlots := [(7, 3, [1])] }), env0, 7, 39, 5, by decide, by decide, by decide, by decide, by decide⟩⟩

theorem wit_ResetsReachWhatTheyName_3 :
    (∃ s : State, ∃ r : ResetReq, (s.pwr.resetNow = some r) ∧ (s.pwr.mode = .starting)) ∧
    (∃ s : State, ∃ r : ResetReq, (s.pwr.resetNow = some r) ∧ (s.pwr.mode ≠ .starting) ∧ (s.pwr.resets = [])) ∧
    (∃ s : State, ∃ r : ResetReq, ∃ n : ResetReq, ∃ rest : List ResetReq, (s.pwr.resetNow = some r) ∧ (s.pwr.mode ≠ .starting) ∧ (s.pwr.resets = n :: rest) ∧ (s.get R.BOOT_STATUS F.BOOT_STATUS_PHASE = 8) ∧ (3 ≤ n.kind) ∧ (n.kind ≤ 5)) :=
  ⟨⟨(withPwr (inReset ⟨4, 3⟩ []) (fun p => { p with mode := .starting })), (⟨4, 3⟩), by decide, by decide⟩,
   ⟨({ (inReset ⟨4, 3⟩ []) with inReset := base.inReset.set 3 true }), (⟨4, 3⟩), by decide, by decide, by decide⟩,
   ⟨(inReset ⟨4, 3⟩ [⟨5, 3⟩, ⟨4, 62⟩]), (⟨4, 3⟩), (⟨5, 3⟩), ([⟨4, 62⟩]), by decide, by decide, by decide, by decide, by decide, by decide⟩⟩

theorem wit_StartsFollowTheirCauses_1 :
    (∃ s : State, ∃ env : StartEnv, ∃ c : Instr, ∃ start : Nat, ∃ last : Nat, (((c = .powerOn env ∧ s.pwr.mode = .off ∧ start = 0 ∧ last = 0) ∨ (c = .inputRecovery env ∧ s.pwr.mode = .undervolt ∧ start = 1 ∧ last = 1) ∨ (c = .mrstNRelease env ∧ s.pwr.mode = .mrstLow ∧ s.pwr.startKind = start ∧ (start = 2 ∨ start = 4) ∧ last = 4) ∨ (c = .wakeAssert env ∧ s.pwr.mode = .standby ∧ start = 4 ∧ last = 5) ∨ (c = .refclkRestore env ∧ s.pwr.mode = .noRef ∧ (∀ x ∈ s.rel.causes, x = .refclk) ∧ start = 5 ∧ last = 3) ∨ (c = .overvoltageRecovery env ∧ s.pwr.mode = .overvolt ∧ (∀ x ∈ s.rel.causes, x = .overvolt) ∧ start = 6 ∧ last = 2)))) ∧
    (∃ s : State, ∃ env : StartEnv, ∃ c : Instr, ∃ start : Nat, ∃ last : Nat, (((c = .powerOn env ∧ s.pwr.mode = .off ∧ start = 0 ∧ last = 0) ∨ (c = .inputRecovery env ∧ s.pwr.mode = .undervolt ∧ start = 1 ∧ last = 1) ∨ (c = .mrstNRelease env ∧ s.pwr.mode = .mrstLow ∧ s.pwr.startKind = start ∧ (start = 2 ∨ start = 4) ∧ last = 4) ∨ (c = .wakeAssert env ∧ s.pwr.mode = .standby ∧ start = 4 ∧ last = 5) ∨ (c = .refclkRestore env ∧ s.pwr.mode = .noRef ∧ (∀ x ∈ s.rel.causes, x = .refclk) ∧ start = 5 ∧ last = 3) ∨ (c = .overvoltageRecovery env ∧ s.pwr.mode = .overvolt ∧ (∀ x ∈ s.rel.causes, x = .overvolt) ∧ start = 6 ∧ last = 2)))) ∧
    (∃ s : State, ∃ env : StartEnv, ∃ c : Instr, ∃ start : Nat, ∃ last : Nat, (((c = .powerOn env ∧ s.pwr.mode = .off ∧ start = 0 ∧ last = 0) ∨ (c = .inputRecovery env ∧ s.pwr.mode = .undervolt ∧ start = 1 ∧ last = 1) ∨ (c = .mrstNRelease env ∧ s.pwr.mode = .mrstLow ∧ s.pwr.startKind = start ∧ (start = 2 ∨ start = 4) ∧ last = 4) ∨ (c = .wakeAssert env ∧ s.pwr.mode = .standby ∧ start = 4 ∧ last = 5) ∨ (c = .refclkRestore env ∧ s.pwr.mode = .noRef ∧ (∀ x ∈ s.rel.causes, x = .refclk) ∧ start = 5 ∧ last = 3) ∨ (c = .overvoltageRecovery env ∧ s.pwr.mode = .overvolt ∧ (∀ x ∈ s.rel.causes, x = .overvolt) ∧ start = 6 ∧ last = 2)))) ∧
    (∃ s : State, ∃ env : StartEnv, ∃ c : Instr, ∃ start : Nat, ∃ last : Nat, (((c = .powerOn env ∧ s.pwr.mode = .off ∧ start = 0 ∧ last = 0) ∨ (c = .inputRecovery env ∧ s.pwr.mode = .undervolt ∧ start = 1 ∧ last = 1) ∨ (c = .mrstNRelease env ∧ s.pwr.mode = .mrstLow ∧ s.pwr.startKind = start ∧ (start = 2 ∨ start = 4) ∧ last = 4) ∨ (c = .wakeAssert env ∧ s.pwr.mode = .standby ∧ start = 4 ∧ last = 5) ∨ (c = .refclkRestore env ∧ s.pwr.mode = .noRef ∧ (∀ x ∈ s.rel.causes, x = .refclk) ∧ start = 5 ∧ last = 3) ∨ (c = .overvoltageRecovery env ∧ s.pwr.mode = .overvolt ∧ (∀ x ∈ s.rel.causes, x = .overvolt) ∧ start = 6 ∧ last = 2)))) ∧
    (∃ s : State, ∃ env : StartEnv, ∃ c : Instr, ∃ start : Nat, ∃ last : Nat, (((c = .powerOn env ∧ s.pwr.mode = .off ∧ start = 0 ∧ last = 0) ∨ (c = .inputRecovery env ∧ s.pwr.mode = .undervolt ∧ start = 1 ∧ last = 1) ∨ (c = .mrstNRelease env ∧ s.pwr.mode = .mrstLow ∧ s.pwr.startKind = start ∧ (start = 2 ∨ start = 4) ∧ last = 4) ∨ (c = .wakeAssert env ∧ s.pwr.mode = .standby ∧ start = 4 ∧ last = 5) ∨ (c = .refclkRestore env ∧ s.pwr.mode = .noRef ∧ (∀ x ∈ s.rel.causes, x = .refclk) ∧ start = 5 ∧ last = 3) ∨ (c = .overvoltageRecovery env ∧ s.pwr.mode = .overvolt ∧ (∀ x ∈ s.rel.causes, x = .overvolt) ∧ start = 6 ∧ last = 2)))) :=
  ⟨⟨State.reset, env0, (Instr.powerOn env0), 0, 0, Or.inl ⟨rfl, rfl, rfl, rfl⟩⟩,
   ⟨(moded State.reset .undervolt), env0, (Instr.inputRecovery env0), 1, 1, Or.inr (Or.inl ⟨rfl, rfl, rfl, rfl⟩)⟩,
   ⟨(withPwr (moded State.reset .mrstLow) (fun p => { p with startKind := 2 })), env0, (Instr.mrstNRelease env0), 2, 4, Or.inr (Or.inr (Or.inl ⟨rfl, rfl, rfl, Or.inl rfl, rfl⟩))⟩,
   ⟨(moded State.reset .standby), env0, (Instr.wakeAssert env0), 4, 5, Or.inr (Or.inr (Or.inr (Or.inl ⟨rfl, rfl, rfl, rfl⟩)))⟩,
   ⟨(withRel (moded base .noRef) (fun x => { x with causes := [.refclk] })), env0, (Instr.refclkRestore env0), 5, 3, Or.inr (Or.inr (Or.inr (Or.inr (Or.inl ⟨rfl, rfl, by decide, rfl, rfl⟩))))⟩⟩

theorem wit_StartsFollowTheirCauses_2 :
    (∃ s : State, ∃ env : StartEnv, ∃ c : Instr, ∃ start : Nat, ∃ last : Nat, (((c = .powerOn env ∧ s.pwr.mode = .off ∧ start = 0 ∧ last = 0) ∨ (c = .inputRecovery env ∧ s.pwr.mode = .undervolt ∧ start = 1 ∧ last = 1) ∨ (c = .mrstNRelease env ∧ s.pwr.mode = .mrstLow ∧ s.pwr.startKind = start ∧ (start = 2 ∨ start = 4) ∧ last = 4) ∨ (c = .wakeAssert env ∧ s.pwr.mode = .standby ∧ start = 4 ∧ last = 5) ∨ (c = .refclkRestore env ∧ s.pwr.mode = .noRef ∧ (∀ x ∈ s.rel.causes, x = .refclk) ∧ start = 5 ∧ last = 3) ∨ (c = .overvoltageRecovery env ∧ s.pwr.mode = .overvolt ∧ (∀ x ∈ s.rel.causes, x = .overvolt) ∧ start = 6 ∧ last = 2)))) ∧
    (∃ s : State, ∃ env : StartEnv, (s.pwr.mode ≠ .off)) ∧
    (∃ s : State, ∃ env : StartEnv, (s.pwr.mode ≠ .undervolt)) ∧
    (∃ s : State, ∃ env : StartEnv, (s.pwr.mode ≠ .standby)) ∧
    (∃ s : State, ∃ env : StartEnv, (s.pwr.mode ≠ .mrstLow) ∧ (s.pwr.mrstWaits ≠ some 4)) ∧
    (∃ s : State, ∃ env : StartEnv, (s.pwr.mode ≠ .mrstLow) ∧ (s.pwr.mrstWaits = some 4)) :=
  ⟨⟨(withRel (moded base .overvolt) (fun x => { x with causes := [.overvolt] })), env0, (Instr.overvoltageRecovery env0), 6, 2, Or.inr (Or.inr (Or.inr (Or.inr (Or.inr ⟨rfl, rfl, by decide, rfl, rfl⟩))))⟩,
   ⟨(moded base .running), env0, by decide⟩,
   ⟨base, env0, by decide⟩,
   ⟨base, env0, by decide⟩,
   ⟨base, env0, by decide, by decide⟩,
   ⟨(withPwr (moded base .running) (fun p => { p with nv := some page1, mrstWaits := some 4 })), env0, by decide, by decide⟩⟩

theorem wit_StartsFollowTheirCauses_3 :
    (∃ s : State, ∃ env : StartEnv, (s.pwr.mode ≠ .quenched)) ∧
    (∃ s : State, ∃ env : StartEnv, (s.pwr.mode ≠ .starting)) ∧
    (∃ s : State, ∃ env : StartEnv, (s.pwr.mode = .quenched) ∧ (s.quenchOver = true) ∧ (s.get R.BOOT_STATUS F.BOOT_STATUS_PHASE = 8) ∧ ((s.rd R.SF_QLAST).toNat.testBit 2 = false) ∧ ((s.rd R.SF_QLAST).toNat.testBit 3 = false)) ∧
    (∃ s : State, (s.pwr.mode ≠ .off) ∧ (s.pwr.mode ≠ .undervolt) ∧ (s.pwr.nv = none)) ∧
    (∃ s : State, (s.pwr.mode ≠ .off) ∧ (s.pwr.mode ≠ .undervolt) ∧ (s.pwr.nv.isSome = true)) ∧
    (∃ s : State, ∃ env : StartEnv, (s.pwr.mode = .starting) ∧ (s.get R.BOOT_STATUS F.BOOT_STATUS_PHASE = 7) ∧ (s.pwr.resets = []) ∧ (s.cantons ≤ 8)) :=
  ⟨⟨base, env0, by decide⟩,
   ⟨base, env0, by decide⟩,
   ⟨(moded (base.put R.SF_STATUS F.SF_STATUS_QUENCHED 1) .quenched), env0, by decide +kernel⟩,
   ⟨(moded base .running), by decide, by decide, by decide⟩,
   ⟨(withPwr (moded base .running) (fun p => { p with nv := some page1 })), by decide, by decide, by decide⟩,
   ⟨(moded (base.put R.BOOT_STATUS F.BOOT_STATUS_PHASE 7) .starting), env0, by decide, by decide, by decide, by decide⟩⟩

theorem wit_StartsFollowTheirCauses_4 :
    (∃ s : State, ∃ env : StartEnv, (s.pwr.mode = .starting) ∧ (s.get R.BOOT_STATUS F.BOOT_STATUS_PHASE ≠ 7) ∧ (s.pwr.resets = [])) ∧
    (∃ s : State, ∃ die : Fin 64, (s.pwr.mode = .starting) ∧ (die.val < 56)) ∧
    (∃ s : State, ∃ die : Fin 64, (s.pwr.mode = .starting) ∧ (56 ≤ die.val)) :=
  ⟨⟨(moded base .starting), env0, by decide +kernel⟩,
   ⟨(moded base .starting), 55, by decide, by decide⟩,
   ⟨(moded base .starting), 56, by decide, by decide⟩⟩

theorem wit_PowerIsLostParkedAndStoodBy_1 :
    (∃ s : State, (Inv s) ∧ (s.pwr.mode ≠ .off) ∧ (s.pwr.mode ≠ .undervolt)) ∧
    (∃ s : State, (s.clocked = true) ∧ (s.flag R.SF_STATUS F.SF_STATUS_QUENCHED = false) ∧ (s.rel.quenches = []) ∧ (s.get R.SF_QLIMIT F.SF_QLIMIT_COUNT ≠ 0)) ∧
    (∃ s : State, (s.clocked = true) ∧ (s.flag R.SF_STATUS F.SF_STATUS_QUENCHED = false) ∧ (s.rel.quenches = []) ∧ (s.get R.SF_QLIMIT F.SF_QLIMIT_COUNT ≠ 0)) ∧
    (∃ s : State, (s.pwr.mode = .standby) ∧ (s.flag R.SF_STATUS F.SF_STATUS_QUENCHED = false)) ∧
    (∃ s : State, ∃ k : Fin 8, (k.val < s.cantons) ∧ (s.parked k = false) ∧ (s.pwr.mode = .running) ∧ ((∀ x ∈ s.pwr.park, x.1 ≠ k.val))) ∧
    (∃ s : State, ∃ k : Fin 8, ∃ since : Nat, (s.pwr.park.find? (fun x => x.1 == k.val) = some (k.val, since)) ∧ (s.quiesced k = true)) :=
  ⟨⟨(moded base .running), by constructor <;> decide, by decide +kernel⟩,
   ⟨(moded base .running), by decide, by decide, by decide, by decide⟩,
   ⟨(moded base .running), by decide, by decide, by decide, by decide⟩,
   ⟨(moded base .standby), by decide, by decide⟩,
   ⟨(moded base .running), 0, by decide, by decide, by decide, by decide⟩,
   ⟨(parking 0 0 base), 0, 0, by decide +kernel⟩⟩

theorem wit_PowerIsLostParkedAndStoodBy_2 :
    (∃ s : State, ∃ k : Fin 8, ∃ since : Nat, (s.pwr.park.find? (fun x => x.1 == k.val) = some (k.val, since)) ∧ (s.quiesced k = false) ∧ (since + secTicks ≤ s.now)) ∧
    (∃ s : State, ∃ k : Fin 8, ∃ since : Nat, (s.pwr.park.find? (fun x => x.1 == k.val) = some (k.val, since)) ∧ (s.quiesced k = false) ∧ (s.now < since + secTicks)) ∧
    (∃ s : State, ∃ k : Fin 8, (s.parked k = true) ∧ ((∀ m ∈ s.cantonMds k, ∀ c : Fin 2, (s.chan (fin16 m) c).saved = (s.chan (fin16 m) c).root))) ∧
    (∃ s : State, ∃ k : Fin 8, ∃ bad : List (Fin 16), (s.parked k = true) ∧ ((∃ m ∈ s.cantonMds k, fin16 m ∈ bad))) ∧
    (∃ s : State, ∃ k : Fin 8, ∃ bad : List (Fin 16), (s.parked k = false)) ∧
    (∃ s : State, (s.pwr.mode = .running) ∧ (s.throttled = false) ∧ (s.get R.BOOT_STATUS F.BOOT_STATUS_PHASE = 8) ∧ ((∀ k, k < 8 → s.polState k = 0))) :=
  ⟨⟨(parking 0 4200000000 (base.wr (R.SEQ_Q_STATUS 39 3) 1)), 0, 0, by decide +kernel⟩,
   ⟨(parking 0 4199999999 (base.wr (R.SEQ_Q_STATUS 39 3) 1)), 0, 0, by decide +kernel⟩,
   ⟨((secSt 1 held9 []).wr R.PWR_STATUS 0x8000), 7, by decide +kernel⟩,
   ⟨((secSt 1 held9 []).wr R.PWR_STATUS 0x8000), 7, ([15]), by decide, ⟨15, by decide⟩⟩,
   ⟨(parking 0 0 base), 0, ([0]), by decide⟩,
   ⟨(moded (State.reset.put R.BOOT_STATUS F.BOOT_STATUS_PHASE 8) .running), by decide, by decide, by decide, by decide⟩⟩

theorem wit_PowerIsLostParkedAndStoodBy_3 :
    ∃ s : State, ((∃ k, k < 8 ∧ s.polState k ≠ 0)) :=
  ⟨(secSt 2 held9 []), ⟨7, by decide⟩⟩
/-! Terms that are no commands, one for each check of well-formedness, and their neighbours that are. -/
theorem test_refuses_wrong_opcode : wellFormed (.vadd 0 0 (word [(0x11, 0), (4, 8)]) []) = false := by decide
theorem test_refuses_wrong_unit : wellFormed (.vadd 0 0 (word [(0x10, 0), (5, 8)]) []) = false := by decide
theorem test_takes_vadd : wellFormed (.vadd 0 0 (word [(0x10, 0), (4, 8)]) []) = true := by decide
theorem test_refuses_wrong_array : wellFormed (.maPass 0 2 0 (word [(0x02, 0), (3, 8)])) = false := by decide
theorem test_refuses_unaligned_register : wellFormed (.registerWrite .host 2 0 0) = false := by decide
theorem test_refuses_register_past_crs : wellFormed (.mgmtRead [2 ^ 26]) = false := by decide
theorem test_takes_last_register : wellFormed (.registerPairRead .td (2 ^ 26 - 4) true) = true := by decide
theorem test_refuses_data_port_length : wellFormed (.dpDataRead 0 3) = false ∧ wellFormed (.dpread 0) = false := by decide
theorem test_refuses_data_port_over_4096 : wellFormed (.dpDataRead 0 4100) = false ∧ wellFormed (.dpDataRead 0 4096) = true := by decide
theorem test_refuses_unaligned_data_port_write : wellFormed (.dpDataWrite 1 [1, 2]) = false := by decide
theorem test_refuses_empty_access : wellFormed (.mpaAccess (.die 63) (.read 0) 0) = false := by decide
theorem test_refuses_request_of_no_unit :
    wellFormed (.arbiterDecision (.transit 0 1) [⟨0, 0, false, 0, 0, none⟩]) = false := by decide
theorem test_refuses_packet_off_link_stage :
    wellFormed (.arbiterDecision (.memory 0 0) [⟨0, 0, false, 0, 1, some ⟨0, 0, 0, []⟩⟩]) = false := by decide
theorem test_refuses_piece_of_other_length :
    wellFormed (.pieceReceive 0 0 ⟨0, 0, false, false, false, false, 0, 0, 0, 0, false, false, 2, 0, 0, [1]⟩) = false := by decide
theorem test_refuses_packet_without_tag :
    wellFormed (.torusPacketReceive 0 0 ⟨0, 0, 0, false, 0, 0, 0, [1]⟩ ⟨0, 0, 0, false⟩) = false := by decide
theorem test_refuses_codeword_of_seven_planes :
    wellFormed (.controlCodewordReceive 0 ⟨0, 0, List.replicate 7 ⟨0, [], false, false, false, []⟩⟩ (List.replicate 16 0)) = false := by
  decide
theorem test_refuses_codeword_without_tag :
    wellFormed (.controlCodewordReceive 0 ⟨0, 0, List.replicate 8 ⟨0, [], false, false, false, []⟩⟩ []) = false := by decide
theorem test_refuses_frame_of_site_64 :
    wellFormed (.done 0 ⟨0, 0, 0, 0, 64, 0, false, false, 0, 0, 0, 0, 0, 0, 0, 0, []⟩) = false := by decide
theorem test_refuses_start_without_sockets : wellFormed (.powerOn env0) = false := by decide
theorem test_refuses_sample_without_dies : wellFormed (.safetySample ⟨[], [], [], 0, 0, 0, 0, 0⟩) = false := by decide
theorem test_refuses_packet_of_no_flit : wellFormed (.fabricPacketHop 0 0 1 .request 0 false) = false := by decide
theorem test_refuses_requester_16 : wellFormed (.requesterMaskChange (.link 0) 16 true) = false := by decide
theorem test_refuses_deadline_on_die_40 : wellFormed (.cadDeadline 0 [39, 40]) = false := by decide
theorem test_refuses_temperature_256 : wellFormed (.dimmTempSample 0 0 [256]) = false := by decide
theorem test_refuses_line_lost_twice : wellFormed (.sealReinitComplete 0 [3, 3]) = false := by decide
theorem test_refuses_shard_16384 : wellFormed (.ueSquareLand 0 16384 0 false []) = false := by decide
theorem test_refuses_empty_piece : wellFormed (.pieceCombine 0 0 false 0 0 0) = false := by decide
theorem test_refuses_mtu_65536 : wellFormed (.packetTooBig 0 0 65536) = false := by decide
theorem test_refuses_certificate_slot_8 : wellFormed (.spdmGetCertificate false 8 0 0) = false := by decide
theorem test_refuses_short_nonce : wellFormed (.spdmChallenge false [0]) = false := by decide
theorem test_refuses_short_measurement_nonce : wellFormed (.spdmGetMeasurements true 1 (some [0])) = false := by decide
theorem test_refuses_party_16 : wellFormed (.consentWithdraw 0 16 0 []) = false := by decide
theorem test_refuses_snoop_past_mpa : wellFormed (.hostSnoop (2 ^ 48)) = false := by decide
theorem test_refuses_bar0_past_end : wellFormed (.bar0BadAccess (2 ^ 26) 8) = false := by decide
theorem test_refuses_empty_image : wellFormed (.tenantImageStart 0 0 0) = false := by decide


end Sys2Proof.Tests
end

section
/-! The state right after reset (O2). -/
namespace Sys2Proof.Machine

/-- The reset state lists nothing: registers, memory and poison marks are in canonical form. -/
theorem inv_reset : Inv State.reset := ⟨rfl, rfl, rfl⟩

/-- Every compute die stands at its reset state. -/
@[simp] theorem State.cd_reset (d : Fin 40) : State.reset.cd d = CDie.reset := by
  simp [State.cd, State.reset]

/-- Every program queue of a compute die at reset is the queue at reset. -/
@[simp] theorem State.que_reset (d : Fin 40) (q : Fin 4) : State.reset.que d q = QueueState.reset := by
  simp [State.que, CDie.reset]

/-- Every unit FIFO of a compute die at reset is empty. -/
@[simp] theorem CDie.fifo_reset (u : Fin 8) : CDie.reset.fifo u = [] := by
  simp [CDie.fifo, CDie.reset]

/-- Settles O2: nothing is listed at reset, so that registers and memory read their unlisted values. -/
theorem resetLeavesTheModuleIdle : Obligations.ResetLeavesTheModuleIdle := by
  refine ⟨fun _ => rfl, fun _ => rfl, rfl, rfl, fun d q => ?_, inv_reset⟩
  rw [State.que_reset, State.cd_reset]
  exact ⟨rfl, rfl, CDie.fifo_reset⟩

end Sys2Proof.Machine
end

section
/-! What every command keeps (O3): one lemma per command whose effect has branches, from the lemmas about the shared
operations in Laws/Keeps; a command that is one chain of operations stands in `exec_keeps` itself. -/
namespace Sys2Proof.Machine

theorem execCrsReservedAccess_keeps (s : State) (v : View) (addr : Nat) (wr : Option W32) :
    KeepsOut s (execCrsReservedAccess v addr wr s) := by
  unfold execCrsReservedAccess
  with_reducible repeat' first
    | exact .refl s | apply KeepsOut.next | apply State.raiseCat_keeps | intro _ | split
    | (fail_if_no_progress refine Keeps.record ?_)

theorem execCrsForeignAccess_keeps (s : State) (d : Fin 40) (addr : Nat) (wr : Option W32) :
    KeepsOut s (execCrsForeignAccess d addr wr s) := by
  unfold execCrsForeignAccess
  with_reducible repeat' first
    | exact .refl s | apply KeepsOut.next | apply State.raiseCat_keeps | intro _ | split
    | (fail_if_no_progress refine Keeps.record ?_)

theorem execMpaAccess_keeps (s : State) (r : Requester) (op : MpaOp) (addr : Nat) :
    KeepsOut s (execMpaAccess r op addr s) := by
  unfold execMpaAccess
  with_reducible repeat' first
    | exact .refl s | apply KeepsOut.next | apply State.raiseCat_keeps | apply State.newReq_keeps
    | apply State.forwardWrite_keeps | apply State.forward_keeps | apply State.storeAccess_keeps
    | apply State.storeWrite_keeps | apply State.putNum_keeps | apply Keeps.foldl | intro _ | split
    | (fail_if_no_progress refine Keeps.record ?_)

theorem execFabricFlitReceive_keeps (s : State) (die : Fin 64) (port : Fin 4) (crcOk : Bool) :
    KeepsOut s (execFabricFlitReceive die port crcOk s) := by
  unfold execFabricFlitReceive
  with_reducible repeat' first
    | exact .refl s | apply KeepsOut.next | apply State.bump_keeps | intro _ | split
    | (fail_if_no_progress refine Keeps.record ?_)

theorem execFabricPortDown_keeps (s : State) (die : Fin 64) (port : Fin 4) :
    KeepsOut s (execFabricPortDown die port s) := by
  unfold execFabricPortDown
  with_reducible repeat' first
    | exact .refl s | apply KeepsOut.next | apply State.fabUp_keeps | apply State.put_keeps
    | apply State.raiseCat_keeps | intro _ | split

theorem execFabricPacketHop_keeps (s : State) (id : Nat) (src dst : Fin 64) (cls : PacketClass) (flits : Nat)
    (busy : Bool) :
    KeepsOut s (execFabricPacketHop id src dst cls flits busy s) := by
  unfold execFabricPacketHop
  with_reducible repeat' first
    | exact .refl s | apply KeepsOut.next | extract_lets | intro _ | split
    | (fail_if_no_progress refine Keeps.record ?_)

theorem execArbiterDecision_keeps (s : State) (st : ArbStage) (reqs : List ArbReq) :
    KeepsOut s (execArbiterDecision st reqs s) := by
  unfold execArbiterDecision
  with_reducible repeat' first
    | exact .refl s | apply KeepsOut.next | apply State.carry_keeps | apply State.decidePlane_keeps
    | apply State.setArb_keeps | assumption | apply Keeps.foldl1 | intro _ | split

theorem execRequesterMaskChange_keeps (s : State) (st : ArbStage) (requester : Nat) (masked : Bool) :
    KeepsOut s (execRequesterMaskChange st requester masked s) := by
  unfold execRequesterMaskChange
  with_reducible repeat' first
    | exact .refl s | apply KeepsOut.next | apply State.arbCount_keeps | apply State.setArb_keeps | intro _ | split

theorem execSeedWaitRelease_keeps (s : State) (die : Fin 64) : KeepsOut s (execSeedWaitRelease die s) := by
  unfold execSeedWaitRelease
  with_reducible repeat' first
    | exact .refl s | apply KeepsOut.next | apply State.put_keeps | apply State.veHead_keeps
    | apply State.releaseMd_keeps | intro _ | split

theorem execMaCommandAccept_keeps (s : State) (d : Fin 40) (a : Fin 4) : KeepsOut s (execMaCommandAccept d a s) := by
  unfold execMaCommandAccept
  with_reducible repeat' first
    | exact .refl s | apply KeepsOut.next | apply State.maAccept_keeps | intro _ | split

theorem execMaStreamStart_keeps (s : State) (d : Fin 40) (a : Fin 4) : KeepsOut s (execMaStreamStart d a s) := by
  unfold execMaStreamStart
  with_reducible repeat' first
    | exact .refl s | apply KeepsOut.next | apply State.useGrant_keeps | apply State.hoistPoison_keeps
    | apply State.setMa_keeps | apply State.put_keeps | apply State.maPerf_keeps | apply State.maSync_keeps
    | apply Keeps.cond | extract_lets | intro _ | split

theorem execMaFrontStart_keeps (s : State) (d : Fin 40) (a : Fin 4) : KeepsOut s (execMaFrontStart d a s) := by
  unfold execMaFrontStart
  with_reducible repeat' first
    | exact .refl s | apply KeepsOut.next | apply State.setMa_keeps | apply State.maPerf_keeps | apply State.put_keeps
    | apply State.completeAt_keeps | apply State.maSync_keeps | apply Keeps.cond | extract_lets | intro _ | split

theorem execMaMaskLineRead_keeps (s : State) (d : Fin 40) (a : Fin 4) (line : Nat) :
    KeepsOut s (execMaMaskLineRead d a line s) := by
  unfold execMaMaskLineRead
  with_reducible repeat' first
    | exact .refl s | apply KeepsOut.next | apply State.useGrant_keeps | apply State.passPoison_keeps
    | apply State.setMa_keeps | extract_lets | intro _ | split

theorem execMaSlotFeed_keeps (s : State) (d : Fin 40) (a : Fin 4) : KeepsOut s (execMaSlotFeed d a s) := by
  unfold execMaSlotFeed
  with_reducible repeat' first
    | exact .refl s | apply KeepsOut.next | apply State.setMa_keeps | apply State.maRefuse_keeps
    | apply State.slotFeed_keeps | extract_lets | intro _ | split

theorem execMaOutputWrite_keeps (s : State) (d : Fin 40) (a : Fin 4) (col : Fin 128) (par : MaParity) :
    KeepsOut s (execMaOutputWrite d a col par s) := by
  unfold execMaOutputWrite
  with_reducible repeat' first
    | exact .refl s | apply KeepsOut.next | apply State.outPoison_keeps | apply State.setMa_keeps
    | apply State.output_keeps | apply Keeps.cond | extract_lets | intro _ | split

theorem execMaPassComplete_keeps (s : State) (d : Fin 40) (a : Fin 4) : KeepsOut s (execMaPassComplete d a s) := by
  unfold execMaPassComplete
  with_reducible repeat' first
    | exact .refl s | apply KeepsOut.next | apply State.setMa_keeps | apply State.complete_keeps
    | apply State.maSync_keeps | extract_lets | intro _ | split

theorem execMaCollectorTimeout_keeps (s : State) (d : Fin 40) (a : Fin 4) :
    KeepsOut s (execMaCollectorTimeout d a s) := by
  unfold execMaCollectorTimeout
  with_reducible repeat' first
    | exact .refl s | apply KeepsOut.next | apply State.issueBatch_keeps | extract_lets | intro _ | split

theorem execMaBatchComplete_keeps (s : State) (d : Fin 40) (a : Fin 4) : KeepsOut s (execMaBatchComplete d a s) := by
  unfold execMaBatchComplete
  with_reducible repeat' first
    | exact .refl s | apply KeepsOut.next | apply State.setMa_keeps | apply State.storeWrite_keeps
    | apply State.setCd_keeps | apply State.maSync_keeps | extract_lets | intro _ | split

theorem execMaPerfClear_keeps (s : State) (d : Fin 40) (a : Fin 4) : KeepsOut s (execMaPerfClear d a s) := by
  unfold execMaPerfClear
  with_reducible repeat' first
    | exact .refl s | apply KeepsOut.next | apply State.setMa_keeps | apply State.zeroRegs_keeps | intro _ | split

theorem execVeDependenceRelease_keeps (s : State) (d : Fin 40) (cycles : Nat) (bad : List VeBad) :
    KeepsOut s (execVeDependenceRelease d cycles bad s) := by
  unfold execVeDependenceRelease
  with_reducible repeat' first
    | exact .refl s | apply KeepsOut.next | apply State.bump_keeps | apply State.setVe_keeps
    | apply State.veHead_keeps | apply Keeps.cond | intro _ | split

theorem execVePerfClear_keeps (s : State) (d : Fin 40) : KeepsOut s (execVePerfClear d s) := by
  unfold execVePerfClear
  with_reducible repeat' first
    | exact .refl s | apply KeepsOut.next | apply State.setVe_keeps | apply State.zeroRegs_keeps | intro _ | split

theorem execSeqQueueTailWrite_keeps (s : State) (d : Fin 40) (q : Fin 4) (write : TailWrite) :
    KeepsOut s (execSeqQueueTailWrite d q write s) := by
  unfold execSeqQueueTailWrite
  with_reducible repeat' first
    | exact .refl s | apply KeepsOut.next | apply State.queueTail_keeps | apply State.ringPut_keeps | split

theorem execSeqDispatch_keeps (s : State) (d : Fin 40) (fetch : QueueRead) :
    KeepsOut s (execSeqDispatch d fetch s) := by
  unfold execSeqDispatch
  with_reducible repeat' first
    | exact .refl s | apply KeepsOut.next | apply State.raiseCat_keeps | apply State.headFault_keeps
    | apply State.syncExec_keeps | apply State.setCd_keeps | apply State.advance_keeps | apply State.coverDrain_keeps
    | extract_lets | intro _ | split

theorem execSeqCompletionSignal_keeps (s : State) (d : Fin 40) : KeepsOut s (execSeqCompletionSignal d s) := by
  unfold execSeqCompletionSignal
  with_reducible repeat' first
    | exact .refl s | apply KeepsOut.next | apply State.setCd_keeps | apply State.addCtrs_keeps
    | apply State.settlePsig_keeps | intro _ | split

theorem execSeqCtrWrite_keeps (s : State) (d : Fin 40) (c : Fin 256) (value : BitVec 16) :
    KeepsOut s (execSeqCtrWrite d c value s) := by
  unfold execSeqCtrWrite
  with_reducible repeat' first
    | exact .refl s | apply KeepsOut.next | apply State.setCd_keeps | apply State.put_keeps
    | apply State.addCtrs_keeps | intro _ | split

theorem execSeqCtrInc_keeps (s : State) (d : Fin 40) (c : Fin 256) (inc : BitVec 16) :
    KeepsOut s (execSeqCtrInc d c inc s) := by
  unfold execSeqCtrInc
  with_reducible repeat' first
    | exact .refl s | apply KeepsOut.next | apply State.ctrDue_keeps | intro _ | split

theorem execSyncWaitSatisfied_keeps (s : State) (d : Fin 40) (q : Fin 4) :
    KeepsOut s (execSyncWaitSatisfied d q s) := by
  unfold execSyncWaitSatisfied
  with_reducible repeat' first
    | exact .refl s | apply KeepsOut.next | apply State.proceed_keeps | intro _ | split

theorem execPennantPoll_keeps (s : State) (d : Fin 40) (poll : QueueRead) :
    KeepsOut s (execPennantPoll d poll s) := by
  unfold execPennantPoll
  with_reducible repeat' first
    | exact .refl s | apply KeepsOut.next | apply State.raiseCat_keeps | apply State.headFault_keeps
    | apply State.proceed_keeps | apply State.setQue_keeps | extract_lets | intro _ | split

theorem execSeqWaitWatchdog_keeps (s : State) (d : Fin 40) (q : Fin 4) : KeepsOut s (execSeqWaitWatchdog d q s) := by
  unfold execSeqWaitWatchdog
  with_reducible repeat' first
    | exact .refl s | apply KeepsOut.next | apply State.setQue_keeps | apply State.raise_keeps | extract_lets
    | intro _ | split

theorem execQueueStart_keeps (s : State) (d : Fin 40) (write : CtlWrite) : KeepsOut s (execQueueStart d write s) :=
  .next (State.queueCtl_keeps _ _ _ _ (.refl s))

theorem execDmaCommandStart_keeps (s : State) (d : Fin 40) : KeepsOut s (execDmaCommandStart d s) := by
  unfold execDmaCommandStart
  with_reducible repeat' first
    | exact .refl s | apply KeepsOut.next | apply State.dmaStart_keeps | intro _ | split

theorem execDmaPacketAck_keeps (s : State) (d : Fin 40) (cmd pkt : Nat) (res : MemResp) :
    KeepsOut s (execDmaPacketAck d cmd pkt res s) := by
  unfold execDmaPacketAck
  with_reducible repeat' first
    | exact .refl s | apply KeepsOut.next | apply State.raiseCat_keeps | apply State.dmaFail_keeps
    | apply State.dropErrs_keeps | apply State.packetSend_keeps | apply State.setCd_keeps | apply State.dmaLand_keeps
    | apply State.dmaAcked_keeps | intro _ | split

theorem execLsArbitrate_keeps (s : State) (d : Fin 40) (accs : List LsAccess) (lsEcc gasEcc : List StoreEcc) :
    KeepsOut s (execLsArbitrate d accs lsEcc gasEcc s) := by
  unfold execLsArbitrate
  with_reducible repeat' first
    | exact .refl s | apply KeepsOut.next | apply State.setCd_keeps | apply State.bump_keeps
    | apply State.hoistAccess_keeps | apply State.eccFinding_keeps | apply Keeps.foldl | apply Keeps.cond | intro _
    | split

theorem execGasDrainStart_keeps (s : State) (d : Fin 40) : KeepsOut s (execGasDrainStart d s) := by
  unfold execGasDrainStart
  with_reducible repeat' first
    | exact .refl s | apply KeepsOut.next | apply State.setCd_keeps | extract_lets | split

theorem execGasDrainPieceRead_keeps (s : State) (d : Fin 40) (group opseq piece : Nat) :
    KeepsOut s (execGasDrainPieceRead d group opseq piece s) := by
  unfold execGasDrainPieceRead
  with_reducible repeat' first
    | exact .refl s | apply KeepsOut.next | apply State.drainAbort_keeps | apply State.setCd_keeps
    | apply State.put_keeps | apply State.zeroRange_keeps | apply State.drainDone_keeps | apply State.gasSync_keeps
    | apply State.releaseHeld_keeps | apply Keeps.cond | extract_lets | intro _ | split

theorem execKeptInputRebuild_keeps (s : State) (d : Fin 40) (q : Fin 4) (first below : Bool) (base : Fin 8)
    (fresh : BitVec 48) (copy : List Byte) :
    KeepsOut s (execKeptInputRebuild d q first below base fresh copy s) := by
  unfold execKeptInputRebuild
  with_reducible repeat' first
    | exact .refl s | apply KeepsOut.next | apply State.mpaWrite_keeps | apply State.setQue_keeps
    | apply State.raise_keeps | apply Keeps.cond | intro _ | split | (fail_if_no_progress refine Keeps.record ?_)

theorem execVariantTableActivate_keeps (s : State) (k : Fin 8) (addr : BitVec 48) :
    KeepsOut s (execVariantTableActivate k addr s) := by
  unfold execVariantTableActivate
  with_reducible repeat' first
    | exact .refl s | apply KeepsOut.next | apply State.raise_keeps | extract_lets | intro _ | split
    | (fail_if_no_progress refine Keeps.record ?_)

theorem execSequenceAdmit_keeps (s : State) (k : Fin 8) (table : Fin 16) (tag : W32) (seq : BatchSeq) :
    KeepsOut s (execSequenceAdmit k table tag seq s) := by
  unfold execSequenceAdmit
  with_reducible repeat' first
    | exact .refl s | apply KeepsOut.next | apply State.putNow_keeps | apply State.raise_keeps | intro _ | split
    | (fail_if_no_progress refine Keeps.record ?_)

theorem execAdapterDrainRequest_keeps (s : State) (d : Fin 40) (q : Fin 4) (table : Fin 16)
    (variant : BitVec 12) (w : Cmd) :
    KeepsOut s (execAdapterDrainRequest d q table variant w s) := by
  unfold execAdapterDrainRequest
  with_reducible repeat' first
    | exact .refl s | apply KeepsOut.next | apply State.raise_keeps | apply State.ringPut_keeps
    | apply State.queueTail_keeps | extract_lets | intro _ | split

theorem execCadEnable_keeps (s : State) (k : Fin 8) : KeepsOut s (execCadEnable k s) := by
  unfold execCadEnable
  with_reducible repeat' first
    | exact .refl s | apply KeepsOut.next | apply State.put_keeps | apply State.cadSync_keeps | intro _ | split

theorem execCadDone_keeps (s : State) (k : Fin 8) (report : PeriodEnd) : KeepsOut s (execCadDone k report s) := by
  unfold execCadDone
  with_reducible repeat' first
    | exact .refl s | apply KeepsOut.next | apply State.setCad_keeps | apply State.cadTick_keeps | extract_lets
    | intro _ | split

theorem execCadDeadline_keeps (s : State) (k : Fin 8) (waiting : List Nat) :
    KeepsOut s (execCadDeadline k waiting s) := by
  unfold execCadDeadline
  with_reducible repeat' first
    | exact .refl s | apply KeepsOut.next | apply State.cadPass_keeps | intro _ | split

theorem execCadPeriodStart_keeps (s : State) (k : Fin 8) : KeepsOut s (execCadPeriodStart k s) := by
  unfold execCadPeriodStart
  with_reducible repeat' first
    | exact .refl s | apply KeepsOut.next | apply State.cadPass_keeps | apply State.setCad_keeps
    | apply State.cadBegin_keeps | apply State.cadTick_keeps | apply State.bump_keeps | apply State.raise_keeps
    | apply Keeps.cond | extract_lets | intro _ | split

theorem execEvalBatchStart_keeps (s : State) (k : Fin 8) (batch : Nat) :
    KeepsOut s (execEvalBatchStart k batch s) := by
  unfold execEvalBatchStart
  with_reducible repeat' first
    | exact .refl s | apply KeepsOut.next | apply State.setCad_keeps | extract_lets | intro _ | split

theorem execChannelRecalibrate_keeps (s : State) (m : Fin 16) (c : Fin 2) :
    KeepsOut s (execChannelRecalibrate m c s) := by
  unfold execChannelRecalibrate
  with_reducible repeat' first
    | exact .refl s | apply KeepsOut.next | apply State.setChan_keeps | extract_lets | intro _ | split

theorem execDimmTempSample_keeps (s : State) (m : Fin 16) (c : Fin 2) (temps : List Nat) :
    KeepsOut s (execDimmTempSample m c temps s) := by
  unfold execDimmTempSample
  with_reducible repeat' first
    | exact .refl s | apply KeepsOut.next | apply State.setChan_keeps | apply State.put_keeps
    | apply State.sealEvent_keeps | extract_lets | intro _ | split

theorem execSealRead_keeps (s : State) (m : Fin 16) (i : Nat) : KeepsOut s (execSealRead m i s) := by
  unfold execSealRead
  with_reducible repeat' first
    | exact .refl s | apply KeepsOut.next | apply State.dropReq_keeps | apply State.answer_keeps
    | apply State.refusePoison_keeps | apply State.setEng_keeps | extract_lets | intro _ | split

theorem execSealReadComplete_keeps (s : State) (m : Fin 16) (i : Nat) (f : Fetched) :
    KeepsOut s (execSealReadComplete m i f s) := by
  unfold execSealReadComplete
  with_reducible repeat' first
    | exact .refl s | apply KeepsOut.next | apply State.setEng_keeps | apply State.answer_keeps
    | apply State.fetchBlock_keeps | extract_lets | intro _ | split

theorem execSealFullWrite_keeps (s : State) (m : Fin 16) (i : Nat) (f : Fetched) :
    KeepsOut s (execSealFullWrite m i f s) := by
  unfold execSealFullWrite
  with_reducible repeat' first
    | exact .refl s | apply KeepsOut.next | apply State.dropReq_keeps | apply State.answer_keeps
    | apply State.refusePoison_keeps | apply State.fetchBlock_keeps | apply State.nextCounter_keeps
    | apply State.putBytes_keeps | apply State.setEng_keeps | apply State.syncPoison_keeps | extract_lets | intro _
    | split

theorem execSealPartialWrite_keeps (s : State) (m : Fin 16) (i : Nat) (f : Fetched) :
    KeepsOut s (execSealPartialWrite m i f s) := by
  unfold execSealPartialWrite
  with_reducible repeat' first
    | exact .refl s | apply KeepsOut.next | apply State.partialWrite_keeps | intro _ | split

theorem execSealAtomicAdd_keeps (s : State) (m : Fin 16) (i : Nat) (f : Fetched) :
    KeepsOut s (execSealAtomicAdd m i f s) := by
  unfold execSealAtomicAdd
  with_reducible repeat' first
    | exact .refl s | apply KeepsOut.next | apply State.partialWrite_keeps | split

theorem execSealReinit_keeps (s : State) (m : Fin 16) (index : Fin 1024) : KeepsOut s (execSealReinit m index s) := by
  unfold execSealReinit
  with_reducible repeat' first
    | exact .refl s | apply KeepsOut.next | apply State.put_keeps | apply State.sealEvent_keeps
    | apply State.setEng_keeps | intro _ | split

theorem execSealReinitComplete_keeps (s : State) (m : Fin 16) (lost : List (Fin 64)) :
    KeepsOut s (execSealReinitComplete m lost s) := by
  unfold execSealReinitComplete
  with_reducible repeat' first
    | exact .refl s | apply KeepsOut.next | apply State.reinitBlocks_keeps | apply State.reinitLines_keeps
    | apply State.setEng_keeps | apply State.put_keeps | apply State.syncPoison_keeps | intro _ | split

theorem execPatrolScrubStep_keeps (s : State) (m : Fin 16) (f mirror block : BurstErrs) :
    KeepsOut s (execPatrolScrubStep m f mirror block s) := by
  unfold execPatrolScrubStep
  with_reducible repeat' first
    | exact .refl s | apply KeepsOut.next | apply State.noteFetch_keeps | apply State.scrubFail_keeps
    | apply State.failItem_keeps | apply State.setEng_keeps | apply State.put_keeps | apply State.bump_keeps
    | apply Keeps.cond | extract_lets | intro _ | split

theorem execResidentScrub_keeps (s : State) (m : Fin 16) (r : CacheFault) : KeepsOut s (execResidentScrub m r s) := by
  unfold execResidentScrub
  with_reducible repeat' first
    | exact .refl s | apply KeepsOut.next | apply State.setEng_keeps | apply State.cacheStage_keeps | intro _ | split

theorem execTreeInitComplete_keeps (s : State) (m : Fin 16) : KeepsOut s (execTreeInitComplete m s) := by
  unfold execTreeInitComplete
  with_reducible repeat' first
    | exact .refl s | apply KeepsOut.next | apply State.newTree_keeps | apply State.put_keeps | intro _ | split

theorem execUeEnable_keeps (s : State) (m : Fin 16) (tables journals : BlockReads) :
    KeepsOut s (execUeEnable m tables journals s) := by
  unfold execUeEnable
  with_reducible repeat' first
    | exact .refl s | apply KeepsOut.next | apply State.put_keeps | apply State.setUe_keeps | apply State.ueTurn_keeps
    | apply State.takeAll_keeps | apply State.ueSync_keeps | intro _ | split

theorem execUeSquareCommit_keeps (s : State) (m : Fin 16) (reads : BlockReads) :
    KeepsOut s (execUeSquareCommit m reads s) := by
  unfold execUeSquareCommit
  have ht := State.ueSync_keeps _ m (State.takeAll_keeps _ m (State.ueTurn_keeps _ m reads (Keeps.refl s)))
  extract_lets t u
  have hu : Keeps s u := State.put_keeps _ _ _ _ ht
  refine .cond (fun _ => .next ht) fun _ => ?_
  split
  · exact .next ht
  next sh d l _ _ =>
    refine .cond (fun _ => .next (State.put_keeps _ _ _ _ ht)) fun _ => ?_
    extract_lets need r q
    have hr : Keeps s r.1 := by
      unfold r; split
      · exact hu
      · exact State.beginStep_keeps _ _ _ _ _ hu
    have hq : Keeps s q.1 := State.readBlocks_keeps _ _ _ hr
    refine .cond (fun _ => .next hu) fun _ => .cond (fun _ => .next ?_) fun _ => .next ?_
    · exact State.ueSync_keeps _ _ (State.burstMoments_keeps _ _ _ _ _ hq)
    · exact State.ueSync_keeps _ _ (State.ueStop_keeps _ _ _ _ hq)

theorem execUeBurstAck_keeps (s : State) (m : Fin 16) : KeepsOut s (execUeBurstAck m s) := by
  unfold execUeBurstAck
  with_reducible repeat' first
    | exact .refl s | apply KeepsOut.next | apply State.setUe_keeps | apply State.uePerf_keeps
    | apply State.ueSync_keeps | apply State.burstRefused_keeps | apply State.burstMaster_keeps
    | apply State.add64_keeps | apply State.burstCopies_keeps | apply State.finishSquare_keeps
    | apply State.takeAll_keeps | apply Keeps.cond | extract_lets | intro _ | split

theorem execUeNormin_keeps (s : State) (m : Fin 16) (sumsq : W32) : KeepsOut s (execUeNormin m sumsq s) := by
  unfold execUeNormin
  with_reducible repeat' first
    | exact .refl s | apply KeepsOut.next | apply State.ueFlags_keeps | apply State.wr_keeps | apply State.setUe_keeps
    | apply State.skipStep_keeps | apply State.takeAll_keeps | apply State.ueSync_keeps | apply Keeps.foldl | intro _
    | split

theorem execUeReload_keeps (s : State) (m : Fin 16) (tables journals : BlockReads) :
    KeepsOut s (execUeReload m tables journals s) := by
  unfold execUeReload
  with_reducible repeat' first
    | exact .refl s | apply KeepsOut.next | apply State.refuseCmd_keeps | apply State.startCmd_keeps
    | apply State.runCmd_keeps | apply State.ueTurn_keeps | apply State.takeAll_keeps | apply State.ueSync_keeps
    | intro _ | split

theorem execUeRederive_keeps (s : State) (m : Fin 16) (shard : Fin 16384) (reads : BlockReads) :
    KeepsOut s (execUeRederive m shard reads s) := by
  unfold execUeRederive
  with_reducible repeat' first
    | exact .refl s | apply KeepsOut.next | apply State.command_keeps

theorem execUeAudit_keeps (s : State) (m : Fin 16) (shard : Fin 16384) (reads : BlockReads) :
    KeepsOut s (execUeAudit m shard reads s) := by
  unfold execUeAudit
  with_reducible repeat' first
    | exact .refl s | apply KeepsOut.next | apply State.refuseCmd_keeps | apply State.setUe_keeps
    | apply State.startCmd_keeps | apply State.startAudit_keeps | apply State.ueSync_keeps | intro _ | split

theorem execUeAuditInterval_keeps (s : State) (m : Fin 16) (turn : AuditTurn) :
    KeepsOut s (execUeAuditInterval m turn s) := by
  unfold execUeAuditInterval
  with_reducible repeat' first
    | exact .refl s | apply KeepsOut.next | apply State.setUe_keeps | apply State.readBlocks_keeps
    | apply State.auditShard_keeps | apply State.ueStop_keeps | apply State.ueSync_keeps | extract_lets | intro _
    | split

theorem execUeExport_keeps (s : State) (m : Fin 16) (shard : Fin 16384) (reads : BlockReads) :
    KeepsOut s (execUeExport m shard reads s) := by
  unfold execUeExport
  with_reducible repeat' first
    | exact .refl s | apply KeepsOut.next | apply State.command_keeps

theorem execUeImport_keeps (s : State) (m : Fin 16) (shard : Fin 16384) (record : SealedRecord) :
    KeepsOut s (execUeImport m shard record s) := by
  unfold execUeImport
  with_reducible repeat' first
    | exact .refl s | apply KeepsOut.next | apply State.command_keeps

theorem execUeDisable_keeps (s : State) (m : Fin 16) (shard : Fin 16384) : KeepsOut s (execUeDisable m shard s) := by
  unfold execUeDisable
  with_reducible repeat' first
    | exact .refl s | apply KeepsOut.next | apply State.refuseCmd_keeps | apply State.startCmd_keeps
    | apply State.setJ_keeps | apply State.setUe_keeps | apply State.newReq_keeps | apply State.forwardWrite_keeps
    | apply State.sentCmd_keeps | apply State.checkNorm_keeps | apply State.checkLayer_keeps
    | apply State.ueSync_keeps | apply Keeps.foldl | intro _ | split

theorem execUeSnapshot_keeps (s : State) (m : Fin 16) (shard : Fin 16384) (reads : BlockReads) :
    KeepsOut s (execUeSnapshot m shard reads s) := by
  unfold execUeSnapshot
  with_reducible repeat' first
    | exact .refl s | apply KeepsOut.next | apply State.command_keeps | apply State.refuseCmd_keeps | intro _ | split

theorem execUeCommandComplete_keeps (s : State) (turn : EngineTurn) : KeepsOut s (execUeCommandComplete turn s) := by
  unfold execUeCommandComplete
  with_reducible repeat' first
    | exact .refl s | apply KeepsOut.next | apply State.runCmd_keeps | apply State.takeAll_keeps
    | apply State.ueSync_keeps | apply State.setUe_keeps | apply State.put_keeps | apply State.ueStop_keeps
    | apply Keeps.cond | extract_lets | intro _ | split

theorem execGroupCreate_keeps (s : State) (k : Fin 8) (g : Fin 4096) : KeepsOut s (execGroupCreate k g s) := by
  unfold execGroupCreate
  have hr := KeepsOut.next (State.gRefuse_keeps s k (Keeps.refl s))
  refine .cond (fun _ => hr) fun _ => ?_
  extract_lets axis idx h n need lack m
  clear_value idx
  split
  · exact hr
  next me =>
    extract_lets t0 t
    have ht : Keeps s t := State.put_keeps _ _ _ _ (State.put_keeps _ _ _ _ (State.put_keeps _ _ _ _ (.refl s)))
    refine .cond (fun _ => .next (State.gUpdate_keeps _ _ (State.gDone_keeps _ _
      (State.claimSlots_keeps _ _ _ _ (State.gZero_keeps _ _ _ ht))))) fun _ => ?_
    split
    · exact hr
    next gs _ =>
      refine .cond (fun _ => hr) fun _ => ?_
      extract_lets t1 x t2 t3 t4
      have h1 : Keeps s t1 := State.gZero_keeps _ _ _ ht
      have h2 : Keeps s t2 := State.setUe_keeps t1 m _ h1
      have h3 : Keeps s t3 := State.put_keeps t2 _ _ _ h2
      have h4 : Keeps s t4 := Keeps.foldl (fun _ _ h => State.bump_keeps _ _ _ _ h) h3
      exact .next (State.gUpdate_keeps _ _ (State.gDone_keeps _ _ (State.gEvent_keeps _ _ _ _
        (State.stagedCount_keeps _ _ h4))))

theorem execGroupClaim_keeps (s : State) (k : Fin 8) (g : Fin 4096) : KeepsOut s (execGroupClaim k g s) := by
  unfold execGroupClaim
  with_reducible repeat' first
    | exact .refl s | apply KeepsOut.next | apply State.gRefuse_keeps | apply State.returnGrans_keeps
    | apply State.claimSlots_keeps | apply State.gDone_keeps | apply State.bump_keeps | apply Keeps.foldl
    | extract_lets | intro _ | split

theorem execGroupResume_keeps (s : State) (k : Fin 8) (g : Fin 4096) : KeepsOut s (execGroupResume k g s) := by
  unfold execGroupResume
  with_reducible repeat' first
    | exact .refl s | apply KeepsOut.next | apply State.gRefuse_keeps | apply State.put_keeps
    | apply State.setGrp_keeps | apply State.resend_keeps | apply State.gDone_keeps | apply State.gUpdate_keeps
    | intro _ | split

theorem execGroupAbort_keeps (s : State) (k : Fin 8) (g : Fin 4096) : KeepsOut s (execGroupAbort k g s) := by
  unfold execGroupAbort
  with_reducible repeat' first
    | exact .refl s | apply KeepsOut.next | apply State.gRefuse_keeps | apply State.lagSync_keeps
    | apply State.abortOps_keeps | apply State.put_keeps | apply State.gEvent_keeps | apply State.gDone_keeps
    | apply State.gUpdate_keeps | intro _ | split

theorem execGroupReset_keeps (s : State) (k : Fin 8) (g : Fin 4096) : KeepsOut s (execGroupReset k g s) := by
  unfold execGroupReset
  with_reducible repeat' first
    | exact .refl s | apply KeepsOut.next | apply State.gRefuse_keeps | apply State.abortOps_keeps
    | apply State.gEvent_keeps | apply State.gZero_keeps | apply State.gDone_keeps | apply State.gUpdate_keeps
    | apply Keeps.cond | intro _ | split

theorem execGroupFree_keeps (s : State) (k : Fin 8) (g : Fin 4096) : KeepsOut s (execGroupFree k g s) := by
  unfold execGroupFree
  with_reducible repeat' first
    | exact .refl s | apply KeepsOut.next | apply State.gRefuse_keeps | apply State.claimSlots_keeps
    | apply State.returnGrans_keeps | apply State.put_keeps | apply State.dropGrp_keeps | apply State.slotSync_keeps
    | apply State.gDone_keeps | apply Keeps.cond | intro _ | split

theorem execGroupTailWrite_keeps (s : State) (k : Fin 8) (g : Fin 4096) (tail : BitVec 16) :
    KeepsOut s (execGroupTailWrite k g tail s) := by
  unfold execGroupTailWrite
  with_reducible repeat' first
    | exact .refl s | apply KeepsOut.next | apply State.put_keeps | apply State.gFault_keeps | extract_lets | intro _
    | split

theorem execDescriptorFetch_keeps (s : State) (g : Fin 4096) : KeepsOut s (execDescriptorFetch g s) := by
  fun_cases execDescriptorFetch g s with
  | case1 => exact .next (.refl s)
  | case2 => exact .next (.refl s)
  | case3 => exact .next (State.gRefused_keeps _ _ _ _ _ (.refl s))
  | case4 => exact .next (State.gFault_keeps _ _ _ _ (.refl s))
  | case5 => exact .next (State.setGrp_keeps _ _ _ (.refl s))

theorem execTriggerPoll_keeps (s : State) (g : Fin 4096) : KeepsOut s (execTriggerPoll g s) := by
  unfold execTriggerPoll
  with_reducible repeat' first
    | exact .refl s | apply KeepsOut.next | apply State.gRefused_keeps | apply State.setGrp_keeps | extract_lets
    | intro _ | split

theorem execOperationStart_keeps (s : State) (g : Fin 4096) : KeepsOut s (execOperationStart g s) := by
  unfold execOperationStart
  with_reducible repeat' first
    | exact .refl s | apply KeepsOut.next | apply State.lagSync_keeps | apply State.setGrp_keeps
    | apply State.mpaWrite_keeps | apply State.endOp_keeps | apply State.gUpdate_keeps | apply Keeps.foldl
    | apply KeepsOut.cond | extract_lets | intro _ | split

theorem execPieceCombine_keeps (s : State) (g : Fin 4096) (opseq : BitVec 16) (gather : Bool) (u : Fin 7)
    (off len : Nat) :
    KeepsOut s (execPieceCombine g opseq gather u off len s) := by
  unfold execPieceCombine
  with_reducible repeat' first
    | exact .refl s | apply KeepsOut.next | apply State.lagSync_keeps | apply State.gMismatch_keeps
    | apply State.combineDirect_keeps | apply State.combineGather_keeps | apply State.combineReduce_keeps
    | apply State.gUpdate_keeps | extract_lets | intro _ | split

theorem execPieceReceive_keeps (s : State) (k : Fin 8) (u : Fin 7) (p : Piece) :
    KeepsOut s (execPieceReceive k u p s) := by
  unfold execPieceReceive
  with_reducible repeat' first
    | exact .refl s | apply KeepsOut.next | apply State.gEvent_keeps | apply State.lagSync_keeps
    | apply State.bump_keeps | apply State.gMismatch_keeps | apply State.setGrp_keeps | apply State.mpaWrite_keeps
    | apply State.gUpdate_keeps | apply Keeps.cond | extract_lets | intro _ | split
    | (fail_if_no_progress refine Keeps.record ?_)

theorem execPieceAckSend_keeps (s : State) (g : Fin 4096) (u : Fin 7) : KeepsOut s (execPieceAckSend g u s) := by
  unfold execPieceAckSend
  with_reducible repeat' first
    | exact .refl s | apply KeepsOut.next | apply State.setGrp_keeps | extract_lets | intro _ | split
    | (fail_if_no_progress refine Keeps.record ?_)

theorem execPieceAck_keeps (s : State) (g : Fin 4096) (u : Fin 7) (member : Nat) (psn : BitVec 32) :
    KeepsOut s (execPieceAck g u member psn s) := by
  unfold execPieceAck
  with_reducible repeat' first
    | exact .refl s | apply KeepsOut.next | apply State.lagSync_keeps | apply State.setGrp_keeps
    | apply State.gUpdate_keeps | extract_lets | split

theorem execNoctxRetry_keeps (s : State) (g : Fin 4096) (u : Fin 7) (psn : BitVec 32) :
    KeepsOut s (execNoctxRetry g u psn s) := by
  unfold execNoctxRetry
  with_reducible repeat' first
    | exact .refl s | apply KeepsOut.next | apply State.setGrp_keeps | apply State.lagSync_keeps | extract_lets
    | intro _ | split | (fail_if_no_progress refine Keeps.record ?_)

theorem execOperationComplete_keeps (s : State) (g : Fin 4096) (opseq : BitVec 16) :
    KeepsOut s (execOperationComplete g opseq s) := by
  unfold execOperationComplete
  with_reducible repeat' first
    | exact .refl s | apply KeepsOut.next | apply State.lagSync_keeps | apply State.endOp_keeps
    | apply State.gUpdate_keeps | extract_lets | intro _ | split

theorem execBeaconSend_keeps (s : State) (g : Fin 4096) : KeepsOut s (execBeaconSend g s) := by
  unfold execBeaconSend
  with_reducible repeat' first
    | exact .refl s | apply KeepsOut.next | apply State.lagSync_keeps | apply State.sendBeacon_keeps
    | apply Keeps.foldl | extract_lets | intro _ | split

theorem execBeaconReceive_keeps (s : State) (g : Fin 4096) (u : Fin 6) (opseq : BitVec 16) (named : BitVec 17) :
    KeepsOut s (execBeaconReceive g u opseq named s) := by
  unfold execBeaconReceive
  with_reducible repeat' first
    | exact .refl s | apply KeepsOut.next | apply State.lagSync_keeps | apply State.setGrp_keeps
    | apply State.sendBeacon_keeps | extract_lets | intro _ | split

theorem execGroupStall_keeps (s : State) (g : Fin 4096) : KeepsOut s (execGroupStall g s) := by
  unfold execGroupStall
  with_reducible repeat' first
    | exact .refl s | apply KeepsOut.next | apply State.lagSync_keeps | apply State.put_keeps | apply State.wr_keeps
    | apply State.gEvent_keeps | apply State.coresIrq_keeps | extract_lets | intro _ | split

theorem execAbortMessageReceive_keeps (s : State) (g : Fin 4096) (opseqs : List Nat) :
    KeepsOut s (execAbortMessageReceive g opseqs s) := by
  unfold execAbortMessageReceive
  with_reducible repeat' first
    | exact .refl s | apply KeepsOut.next | apply State.lagSync_keeps | apply State.abortOps_keeps
    | apply State.put_keeps | apply State.gEvent_keeps | apply State.gUpdate_keeps | extract_lets | intro _ | split

theorem execControlCodewordSend_keeps (s : State) (l : Fin 6) : KeepsOut s (execControlCodewordSend l s) := by
  unfold execControlCodewordSend
  with_reducible repeat' first
    | exact .refl s | apply KeepsOut.next | apply State.setPort_keeps | extract_lets | intro _ | split

theorem execControlCodewordReceive_keeps (s : State) (l : Fin 6) (c : CtlWord) (tag : List Byte) :
    KeepsOut s (execControlCodewordReceive l c tag s) := by
  unfold execControlCodewordReceive
  with_reducible repeat' first
    | exact .refl s | apply KeepsOut.next | apply State.setPort_keeps | apply State.applyRecord_keeps
    | apply State.lkCount_keeps | apply State.linkEvent_keeps | apply State.startTraining_keeps | assumption
    | apply Keeps.foldl | extract_lets | intro _ | split

theorem execTorusPacketReceive_keeps (s : State) (l : Fin 6) (k : Fin 8) (p : TorusPacket) (a : Arrival) :
    KeepsOut s (execTorusPacketReceive l k p a s) := by
  unfold execTorusPacketReceive
  with_reducible repeat' first
    | exact .refl s | apply KeepsOut.next | apply State.add64_keeps | apply State.lkCount_keeps
    | apply State.setPlane_keeps | apply State.tagFailed_keeps | apply State.acceptPacket_keeps | apply Keeps.cond
    | extract_lets | intro _ | split

theorem execLinkTrainComplete_keeps (s : State) (l : Fin 6) (r : TrainResult) :
    KeepsOut s (execLinkTrainComplete l r s) := by
  unfold execLinkTrainComplete
  refine .cond (fun _ => .next (.refl s)) fun _ => ?_
  extract_lets t half narrow
  have ht : Keeps s t := State.bump_keeps _ _ _ _ (State.put_keeps _ _ _ _ (.refl s))
  clear_value half
  split
  · exact .next (State.linkDown_keeps _ _ (State.put_keeps _ _ _ _ ht))
  next h =>
    extract_lets u v w x
    have hv : Keeps s v := State.put_keeps _ _ _ _ (State.put_keeps _ _ _ _ (State.put_keeps _ _ _ _ ht))
    have hx : Keeps s x := State.wr_keeps _ _ _
      (.cond (fun _ => State.linkEvent_keeps _ _ _ _ _ (State.put_keeps _ _ _ _ hv)) fun _ => hv)
    exact .cond (fun _ => .next (State.trainFailed_keeps _ _ _ hx)) fun _ =>
      .cond (fun _ => .next (State.trainFailed_keeps _ _ _ hx)) fun _ =>
        .next (State.resendOn_keeps _ _ _ (State.portUp_keeps _ _ _ hx))

theorem execLinkTrainRetry_keeps (s : State) (l : Fin 6) : KeepsOut s (execLinkTrainRetry l s) := by
  unfold execLinkTrainRetry
  with_reducible repeat' first
    | exact .refl s | apply KeepsOut.next | apply State.startTraining_keeps | intro _ | split

theorem execLinkDown_keeps (s : State) (l : Fin 6) (why : DownCause) : KeepsOut s (execLinkDown l why s) := by
  unfold execLinkDown
  with_reducible repeat' first
    | exact .refl s | apply KeepsOut.next | apply State.linkDown_keeps | apply State.put_keeps
    | apply State.startTraining_keeps | extract_lets | intro _ | split

theorem execDownPortHoldExpire_keeps (s : State) (l : Fin 6) (k : Fin 8) :
    KeepsOut s (execDownPortHoldExpire l k s) := by
  unfold execDownPortHoldExpire
  with_reducible repeat' first
    | exact .refl s | apply KeepsOut.next | apply State.setPort_keeps | apply State.lkCount_keeps
    | apply State.setPlane_keeps | apply State.linkEvent_keeps | extract_lets | intro _ | split

theorem execEpochChange_keeps (s : State) (l : Fin 6) (k : Fin 8) : KeepsOut s (execEpochChange l k s) := by
  unfold execEpochChange
  with_reducible repeat' first
    | exact .refl s | apply KeepsOut.next | apply State.nextEpoch_keeps | apply State.put_keeps
    | apply State.linkEventCapped_keeps | apply State.checkRetire_keeps | extract_lets | intro _ | split

theorem execForcedRekey_keeps (s : State) (v : View) (l : Fin 6) (planes : BitVec 8) :
    KeepsOut s (execForcedRekey v l planes s) := by
  unfold execForcedRekey
  with_reducible repeat' first
    | exact .refl s | apply KeepsOut.next | apply State.forceRekey_keeps | apply Keeps.foldl | intro _

theorem execCableInsert_keeps (s : State) (l : Fin 6) : KeepsOut s (execCableInsert l s) := by
  unfold execCableInsert
  with_reducible repeat' first
    | exact .refl s | apply KeepsOut.next | apply State.setPort_keeps | apply State.startTraining_keeps | intro _
    | split

theorem execCableRemove_keeps (s : State) (l : Fin 6) : KeepsOut s (execCableRemove l s) := by
  unfold execCableRemove
  with_reducible repeat' first
    | exact .refl s | apply KeepsOut.next | apply State.setPort_keeps | apply State.linkDown_keeps | intro _ | split

theorem execSxEnable_keeps (s : State) (m : Fin 16) : KeepsOut s (execSxEnable m s) := by
  unfold execSxEnable
  with_reducible repeat' first
    | exact .refl s | apply KeepsOut.next | apply State.put_keeps | apply State.setSx_keeps
    | apply State.sxFault_keeps | apply State.sxState_keeps | apply State.sxPut_keeps | apply State.sxEvent_keeps
    | apply State.sxSync_keeps | assumption | apply Keeps.foldl | apply Keeps.cond | intro _ | split

theorem execOpenall_keeps (s : State) (m : Fin 16) : KeepsOut s (execOpenall m s) := by
  unfold execOpenall
  with_reducible repeat' first
    | exact .refl s | apply KeepsOut.next | apply State.put_keeps | apply State.sxFault_keeps
    | apply State.setSx_keeps | apply State.openRound_keeps | intro _ | split

theorem execBoot_keeps (s : State) (m : Fin 16) (shard : Fin 16384) : KeepsOut s (execBoot m shard s) := by
  unfold execBoot
  with_reducible repeat' first
    | exact .refl s | apply KeepsOut.next | apply State.askSnapshot_keeps | apply State.put_keeps
    | apply State.sxSync_keeps | apply State.sxFault_keeps | extract_lets | intro _ | split

theorem execSxDisable_keeps (s : State) (m : Fin 16) (shard : Fin 16384) : KeepsOut s (execSxDisable m shard s) := by
  unfold execSxDisable
  with_reducible repeat' first
    | exact .refl s | apply KeepsOut.next | apply State.sxAbandon_keeps | apply State.clearRecv_keeps
    | apply State.sxLead_keeps | apply State.setSx_keeps | apply State.sxDrop_keeps | apply State.sxState_keeps
    | apply State.sxPut_keeps | apply State.put_keeps | apply State.sxSync_keeps | apply State.sxFault_keeps
    | apply Keeps.cond | extract_lets | intro _ | split

theorem execData_keeps (s : State) (m : Fin 16) (f : SiteFrame) : KeepsOut s (execData m f s) := by
  unfold execData
  with_reducible repeat' first
    | exact .refl s | apply KeepsOut.next | apply State.onFrame_keeps | apply State.leadCheck_keeps
    | apply State.claimRecv_keeps | apply State.setLead_keeps | apply State.dupFrame_keeps | apply State.dramPut_keeps
    | apply State.oweSack_keeps | assumption | extract_lets | intro _ | split

theorem execDone_keeps (s : State) (m : Fin 16) (f : SiteFrame) : KeepsOut s (execDone m f s) := by
  unfold execDone
  with_reducible repeat' first
    | exact .refl s | apply KeepsOut.next | apply State.onFrame_keeps | apply State.leadCheck_keeps
    | apply State.setLead_keeps | apply State.dupFrame_keeps | apply State.claimRecv_keeps | apply State.oweSack_keeps
    | assumption | intro _ | split

theorem execSack_keeps (s : State) (m : Fin 16) (f : SiteFrame) : KeepsOut s (execSack m f s) := by
  unfold execSack
  with_reducible repeat' first
    | exact .refl s | apply KeepsOut.next | apply State.authFrame_keeps | apply State.setSx_keeps
    | apply State.srttSample_keeps | apply State.leadDone_keeps | apply State.sxSync_keeps | apply Keeps.foldl
    | apply Keeps.fst (by assumption) | intro _ | split

theorem execInclude_keeps (s : State) (m : Fin 16) (f : SiteFrame) : KeepsOut s (execInclude_ m f s) := by
  unfold execInclude_
  with_reducible repeat' first
    | exact .refl s | apply KeepsOut.next | apply State.onFrame_keeps | apply State.dupFrame_keeps
    | apply State.setRound_keeps | apply State.oweSack_keeps | apply State.sxDropChunks_keeps
    | apply State.sxQueue_keeps | assumption | apply Keeps.foldl | extract_lets | intro _ | split

theorem execCorr_keeps (s : State) (m : Fin 16) (f : SiteFrame) : KeepsOut s (execCorr m f s) := by
  unfold execCorr
  with_reducible repeat' first
    | exact .refl s | apply KeepsOut.next | apply State.onFrame_keeps | apply State.dupFrame_keeps
    | apply State.addCorr_keeps | apply State.setLead_keeps | apply State.oweSack_keeps | apply State.formMerge_keeps
    | assumption | extract_lets | intro _ | split

theorem execMhead_keeps (s : State) (m : Fin 16) (f : SiteFrame) : KeepsOut s (execMhead m f s) := by
  unfold execMhead
  with_reducible repeat' first
    | exact .refl s | apply KeepsOut.next | apply State.onFrame_keeps | apply State.oweSack_keeps
    | apply State.dupFrame_keeps | apply State.meet_keeps | apply State.sxDrop_keeps | apply State.setSx_keeps
    | apply State.sxState_keeps | apply State.setRound_keeps | apply State.tryApply_keeps | assumption | extract_lets
    | intro _ | split

theorem execMerge_keeps (s : State) (m : Fin 16) (f : SiteFrame) : KeepsOut s (execMerge m f s) := by
  unfold execMerge
  with_reducible repeat' first
    | exact .refl s | apply KeepsOut.next | apply State.onFrame_keeps | apply State.dupFrame_keeps
    | apply State.setRound_keeps | apply State.oweSack_keeps | apply State.tryApply_keeps | assumption | extract_lets
    | intro _ | split

theorem execSnapreq_keeps (s : State) (m : Fin 16) (f : SiteFrame) : KeepsOut s (execSnapreq m f s) := by
  unfold execSnapreq
  with_reducible repeat' first
    | exact .refl s | apply KeepsOut.next | apply State.onFrame_keeps | apply State.dupFrame_keeps
    | apply State.oweSack_keeps | apply State.sxQueue_keeps | assumption | apply Keeps.foldl | intro _ | split

theorem execSnaphead_keeps (s : State) (m : Fin 16) (f : SiteFrame) : KeepsOut s (execSnaphead m f s) := by
  unfold execSnaphead
  with_reducible repeat' first
    | exact .refl s | apply KeepsOut.next | apply State.onFrame_keeps | apply State.dupFrame_keeps
    | apply State.setSx_keeps | apply State.sxState_keeps | apply State.staleFold_keeps | apply State.sxDrop_keeps
    | apply State.oweSack_keeps | apply State.tryRebase_keeps | assumption | intro _ | split

theorem execSnap_keeps (s : State) (m : Fin 16) (f : SiteFrame) : KeepsOut s (execSnap m f s) := by
  unfold execSnap
  with_reducible repeat' first
    | exact .refl s | apply KeepsOut.next | apply State.onFrame_keeps | apply State.dupFrame_keeps
    | apply State.setSx_keeps | apply State.dramPut_keeps | apply State.oweSack_keeps | apply State.tryRebase_keeps
    | assumption | extract_lets | intro _ | split

theorem execNotice_keeps (s : State) (m : Fin 16) (f : SiteFrame) : KeepsOut s (execNotice m f s) := by
  unfold execNotice
  refine .next (State.onFrame_keeps _ _ _ _ (.refl s) fun t e data ht => ?_)
  extract_lets kind named u mine
  have hu : Keeps s u := .cond (fun _ => State.meet_keeps _ _ _ _ _ _ ht) fun _ => ht
  have ha : Keeps s (u.sxAbandon m e) := State.sxAbandon_keeps _ _ _ hu
  clear_value mine
  split
  · exact .cond (fun _ => State.leadDone_keeps _ _ _ (State.sxUnsend_keeps _ _ _ _ hu)) fun _ => hu
  next r =>
    have hd (l : List Nat) : Keeps s (u.sxDrop m e.idx l) := State.sxDrop_keeps _ _ _ _ hu
    exact .cond (fun _ => hd _) fun _ =>
      .cond (fun _ => State.contribute_keeps _ _ _ _ _ (State.setRound_keeps _ _ _ (hd _))) fun _ =>
      .cond (fun _ => State.setSx_keeps _ _ _ ha) fun _ => .cond (fun _ => ha) fun _ => hu

theorem execProbe_keeps (s : State) (m : Fin 16) (f : SiteFrame) : KeepsOut s (execProbe m f s) := by
  unfold execProbe
  with_reducible repeat' first
    | exact .refl s | apply KeepsOut.next | apply State.authFrame_keeps | apply State.put_keeps
    | apply State.meet_keeps | apply State.sxSync_keeps | apply Keeps.fst (by assumption) | extract_lets | intro _
    | split | (fail_if_no_progress refine Keeps.record ?_)

theorem execProbeSend_keeps (s : State) (m : Fin 16) (site : Fin 64) (module_ : BitVec 17) :
    KeepsOut s (execProbeSend m site module_ s) := by
  unfold execProbeSend
  with_reducible repeat' first
    | exact .refl s | apply KeepsOut.next | apply State.sxQueue_keeps | intro _ | split
    | (fail_if_no_progress refine Keeps.record ?_)

theorem execLeaderDataDeadline_keeps (s : State) (m : Fin 16) (shard : Fin 16384) :
    KeepsOut s (execLeaderDataDeadline m shard s) := by
  unfold execLeaderDataDeadline
  with_reducible repeat' first
    | exact .refl s | apply KeepsOut.next | apply State.sendMhead_keeps | apply State.clearRecv_keeps
    | apply State.sxLead_keeps | apply State.sxState_keeps | apply State.sxEvent_keeps | apply State.setSx_keeps
    | apply State.sxSync_keeps | apply State.sxTally_keeps | apply State.destroyUncounted_keeps
    | apply State.sxQueue_keeps | apply State.dramPut_keeps | apply State.addCorr_keeps | apply State.formMerge_keeps
    | apply State.setLead_keeps | assumption | apply Keeps.foldl | apply Keeps.cond | extract_lets | intro _ | split

theorem execLeaderCorrDeadline_keeps (s : State) (m : Fin 16) (shard : Fin 16384) :
    KeepsOut s (execLeaderCorrDeadline m shard s) := by
  unfold execLeaderCorrDeadline
  with_reducible repeat' first
    | exact .refl s | apply KeepsOut.next | apply State.sxTally_keeps | apply State.sxEvent_keeps
    | apply State.formMerge_keeps | apply State.sxSync_keeps | apply Keeps.cond | extract_lets | intro _ | split

theorem execFrameResendTimeout_keeps (s : State) (m : Fin 16) (i : Nat) :
    KeepsOut s (execFrameResendTimeout m i s) := by
  unfold execFrameResendTimeout
  with_reducible repeat' first
    | exact .refl s | apply KeepsOut.next | apply State.setSx_keeps | apply State.sxQueue_keeps
    | apply State.spTally_keeps | apply State.siteCapped_keeps | extract_lets | intro _ | split

theorem execSackSend_keeps (s : State) (m : Fin 16) (site : Fin 64) (module_ : BitVec 17) (die : Fin 16) :
    KeepsOut s (execSackSend m site module_ die s) := by
  unfold execSackSend
  with_reducible repeat' first
    | exact .refl s | apply KeepsOut.next | apply State.setSx_keeps | apply State.sxQueue_keeps | extract_lets
    | intro _ | split

theorem execSiteOutOfTouch_keeps (s : State) (k : Fin 8) (site : Fin 64) :
    KeepsOut s (execSiteOutOfTouch k site s) := by
  unfold execSiteOutOfTouch
  with_reducible repeat' first
    | exact .refl s | apply KeepsOut.next | apply State.put_keeps | apply State.raise_keeps
    | apply State.sxAbandon_keeps | apply State.leadDone_keeps | apply State.sxSync_keeps | assumption
    | apply Keeps.foldl | extract_lets | intro _ | split

theorem execExchangeCollectiveDone_keeps (s : State) (m : Fin 16) (shard : Fin 16384) :
    KeepsOut s (execExchangeCollectiveDone m shard s) := by
  unfold execExchangeCollectiveDone
  with_reducible repeat' first
    | exact .refl s | apply KeepsOut.next | apply State.sxState_keeps | apply State.sxSync_keeps | intro _ | split

theorem execPacketTooBig_keeps (s : State) (p : Fin 2) (site : Fin 64) (mtu : Nat) :
    KeepsOut s (execPacketTooBig p site mtu s) := by
  unfold execPacketTooBig
  with_reducible repeat' first
    | exact .refl s | apply KeepsOut.next | apply State.raise_keeps | intro _ | split
    | (fail_if_no_progress refine Keeps.record ?_)

theorem execSitePortLinkChange_keeps (s : State) (p : Fin 2) (up : Bool) :
    KeepsOut s (execSitePortLinkChange p up s) := by
  unfold execSitePortLinkChange
  with_reducible repeat' first
    | exact .refl s | apply KeepsOut.next | apply State.put_keeps | apply State.raise_keeps | intro _ | split

theorem execSpdmNegotiateAlgorithms_keeps (s : State) (tcp offered : Bool) :
    KeepsOut s (execSpdmNegotiateAlgorithms tcp offered s) := by
  unfold execSpdmNegotiateAlgorithms
  with_reducible repeat' first
    | exact .refl s | apply KeepsOut.next | apply State.setSpdm_keeps | apply State.spdmAnswer_keeps | intro _ | split

theorem execSpdmGetCertificate_keeps (s : State) (tcp : Bool) (slot off len : Nat) :
    KeepsOut s (execSpdmGetCertificate tcp slot off len s) := by
  unfold execSpdmGetCertificate
  with_reducible repeat' first
    | exact .refl s | apply KeepsOut.next | apply State.spdmAnswer_keeps | intro _ | split

theorem execSpdmGetMeasurements_keeps (s : State) (tcp : Bool) (index : Nat) (nonce : Option (List Byte)) :
    KeepsOut s (execSpdmGetMeasurements tcp index nonce s) := by
  unfold execSpdmGetMeasurements
  with_reducible repeat' first
    | exact .refl s | apply KeepsOut.next | apply State.spdmAnswer_keeps | apply State.spdmSigned_keeps | extract_lets
    | intro _ | split

theorem execSpdmKeyExchange_keeps (s : State) (tcp : Bool) (share : List Byte) :
    KeepsOut s (execSpdmKeyExchange tcp share s) := by
  unfold execSpdmKeyExchange
  with_reducible repeat' first
    | exact .refl s | apply KeepsOut.next | apply State.rand_keeps | apply State.setSpdm_keeps
    | apply State.spdmSigned_keeps | intro _ | split

theorem execSpdmFinish_keeps (s : State) (tcp : Bool) (proof : List Byte) :
    KeepsOut s (execSpdmFinish tcp proof s) := by
  unfold execSpdmFinish
  with_reducible repeat' first
    | exact .refl s | apply KeepsOut.next | apply State.setSpdm_keeps | apply State.spdmAnswer_keeps | intro _ | split

theorem execSpdmEndSession_keeps (s : State) (tcp : Bool) : KeepsOut s (execSpdmEndSession tcp s) := by
  unfold execSpdmEndSession
  with_reducible repeat' first
    | exact .refl s | apply KeepsOut.next | apply State.setSpdm_keeps | apply State.spdmAnswer_keeps | split

theorem execSpdmChunkGet_keeps (s : State) (tcp : Bool) (seq : Nat) : KeepsOut s (execSpdmChunkGet tcp seq s) := by
  unfold execSpdmChunkGet
  with_reducible repeat' first
    | exact .refl s | apply KeepsOut.next | apply State.spdmAnswer_keeps | apply State.setSpdm_keeps | extract_lets
    | intro _ | split

theorem execSpdmVendorDefinedRequest_keeps (s : State) (tcp : Bool) (keys : List Byte) :
    KeepsOut s (execSpdmVendorDefinedRequest tcp keys s) := by
  unfold execSpdmVendorDefinedRequest
  with_reducible repeat' first
    | exact .refl s | apply KeepsOut.next | apply State.setSec_keeps | apply State.put_keeps
    | apply State.spdmAnswer_keeps | split

theorem execDoeDiscovery_keeps (s : State) (index : Nat) : KeepsOut s (execDoeDiscovery index s) := by
  unfold execDoeDiscovery
  with_reducible repeat' first
    | exact .refl s | apply KeepsOut.next | apply State.setSpdm_keeps | extract_lets | split

theorem execKaTimeout_keeps (s : State) (i : Nat) : KeepsOut s (execKaTimeout i s) := by
  unfold execKaTimeout
  with_reducible repeat' first
    | exact .refl s | apply KeepsOut.next | apply State.dropKa_keeps | apply State.kaAlarm_keeps | intro _ | split

theorem execDatakeyWithdraw_keeps (s : State) (k : Fin 8) (keyId : BitVec 32) (sig : List Byte) :
    KeepsOut s (execDatakeyWithdraw k keyId sig s) := by
  unfold execDatakeyWithdraw
  with_reducible repeat' first
    | exact .refl s | apply KeepsOut.next | apply State.setCanton_keeps | apply State.badSig_keeps | extract_lets
    | intro _ | split

theorem execConsentWithdraw_keeps (s : State) (k : Fin 8) (party : Nat) (bits : BitVec 8) (sig : List Byte) :
    KeepsOut s (execConsentWithdraw k party bits sig s) := by
  unfold execConsentWithdraw
  with_reducible repeat' first
    | exact .refl s | apply KeepsOut.next | apply State.badSig_keeps | apply State.put_keeps
    | apply State.secEvent_keeps | apply State.endDebug_keeps | apply State.policyChanged_keeps
    | apply State.workConserve_keeps | apply Keeps.cond | extract_lets | intro _ | split

theorem execScrubQuiesced_keeps (s : State) (k : Fin 8) : KeepsOut s (execScrubQuiesced k s) := by
  unfold execScrubQuiesced
  with_reducible repeat' first
    | exact .refl s | apply KeepsOut.next | apply State.scrubErase_keeps | intro _ | split

theorem execScrubQuiesceTimeout_keeps (s : State) (k : Fin 8) : KeepsOut s (execScrubQuiesceTimeout k s) := by
  unfold execScrubQuiesceTimeout
  with_reducible repeat' first
    | exact .refl s | apply KeepsOut.next | apply State.crst_keeps | apply State.put_keeps
    | apply State.secEvent_keeps | intro _ | split

theorem execScrubComplete_keeps (s : State) (k : Fin 8) : KeepsOut s (execScrubComplete k s) := by
  unfold execScrubComplete
  with_reducible repeat' first
    | exact .refl s | apply KeepsOut.next | apply State.overwrite_keeps | apply State.forceRekey_keeps
    | apply State.eraseKeys_keeps | apply State.put_keeps | apply State.wr_keeps | apply State.setSec_keeps
    | apply State.setStep_keeps | apply State.bump_keeps | apply State.secEvent_keeps | apply State.workConserve_keeps
    | apply Keeps.foldl | apply Keeps.cond | intro _ | split

theorem execPartyRecordDecrypt_keeps (s : State) (k : Fin 8) (src dst : Nat) :
    KeepsOut s (execPartyRecordDecrypt k src dst s) := by
  unfold execPartyRecordDecrypt
  with_reducible repeat' first
    | exact .refl s | apply KeepsOut.next | apply State.raise_keeps | apply State.mpaWrite_keeps | extract_lets
    | intro _ | split | (fail_if_no_progress refine Keeps.record ?_)

theorem execIdeIntegrityFailure_keeps (s : State) : KeepsOut s (execIdeIntegrityFailure s) := by
  unfold execIdeIntegrityFailure
  with_reducible repeat' first
    | exact .refl s | apply KeepsOut.next | apply State.put_keeps | apply State.setHost_keeps
    | apply State.raise_keeps | assumption | apply Keeps.foldl | intro _ | split

theorem execTapInstruction_keeps (s : State) (i : TapInstr) : KeepsOut s (execTapInstruction i s) := by
  unfold execTapInstruction
  with_reducible repeat' first
    | exact .refl s | apply KeepsOut.next | apply State.endScan_keeps | apply State.setSec_keeps | intro _ | split
    | (fail_if_no_progress refine Keeps.record ?_)

theorem execScanEnable_keeps (s : State) : KeepsOut s (execScanEnable s) := by
  unfold execScanEnable
  with_reducible repeat' first
    | exact .refl s | apply KeepsOut.next | apply State.eraseKeys_keeps | apply State.zeroDie_keeps
    | apply State.setSec_keeps | apply State.put_keeps | apply State.raise_keeps | apply State.workConserve_keeps
    | apply Keeps.foldl | intro _ | split

theorem execHostLinkTrain_keeps (s : State) (t : HostTrain) : KeepsOut s (execHostLinkTrain t s) := by
  unfold execHostLinkTrain
  with_reducible repeat' first
    | exact .refl s | apply KeepsOut.next | apply State.put_keeps | apply State.raise_keeps | apply State.bump_keeps
    | extract_lets | intro _ | split

theorem execHostSnoop_keeps (s : State) (addr : Nat) : KeepsOut s (execHostSnoop addr s) := by
  unfold execHostSnoop
  with_reducible repeat' first
    | exact .refl s | apply KeepsOut.next | (fail_if_no_progress refine Keeps.record ?_)

theorem execBar0BadAccess_keeps (s : State) (addr size : Nat) : KeepsOut s (execBar0BadAccess addr size s) := by
  unfold execBar0BadAccess
  with_reducible repeat' first
    | exact .refl s | apply KeepsOut.next | apply State.raise_keeps | intro _ | split
    | (fail_if_no_progress refine Keeps.record ?_)

theorem execRingEnable_keeps (s : State) (k : Fin 8) (g : Fin 16) : KeepsOut s (execRingEnable k g s) := by
  unfold execRingEnable
  with_reducible repeat' first
    | exact .refl s | apply KeepsOut.next | apply State.put_keeps | apply State.setRingState_keeps | intro _ | split

theorem execRingDescriptorStart_keeps (s : State) (k : Fin 8) (g : Fin 16) (host : Option (List Byte)) :
    KeepsOut s (execRingDescriptorStart k g host s) := by
  fun_cases execRingDescriptorStart k g host s with
  | case1 => exact .next (State.setJobs_keeps _ _ _ _ (.refl s))
  | case2 => exact .next (State.setJobs_keeps _ _ _ _ (.refl s))
  | case3 => exact .next (State.setJobs_keeps _ _ _ _ (State.runDesc_keeps _ _ _ _ _ (.refl s)))
  | case4 => exact .next (.refl s)

theorem execRingDescriptorComplete_keeps (s : State) (k : Fin 8) (g : Fin 16) :
    KeepsOut s (execRingDescriptorComplete k g s) := by
  unfold execRingDescriptorComplete
  with_reducible repeat' first
    | exact .refl s | apply KeepsOut.next | apply State.mpaWrite_keeps | apply State.hdmaPennant_keeps
    | apply State.put_keeps | apply State.setJobs_keeps | apply State.msix_keeps | apply State.ringIdle_keeps
    | apply State.seqBack_keeps | apply State.setRingState_keeps | apply State.raise_keeps | apply Keeps.cond
    | extract_lets | intro _ | split | (fail_if_no_progress refine Keeps.record ?_)

theorem execRingRestart_keeps (s : State) (k : Fin 8) (g : Fin 16) : KeepsOut s (execRingRestart k g s) := by
  unfold execRingRestart
  with_reducible repeat' first
    | exact .refl s | apply KeepsOut.next | apply State.ringAgain_keeps | intro _ | split

theorem execRingAbort_keeps (s : State) (k : Fin 8) (g : Fin 16) : KeepsOut s (execRingAbort k g s) := by
  unfold execRingAbort
  with_reducible repeat' first
    | exact .refl s | apply KeepsOut.next | apply State.setJobs_keeps | apply State.put_keeps
    | apply State.ringAgain_keeps | intro _ | split

theorem execDpStatusRead_keeps (s : State) (p : Fin 2) : KeepsOut s (execDpStatusRead p s) := by
  unfold execDpStatusRead
  with_reducible repeat' first
    | exact .refl s | apply KeepsOut.next | apply State.setHost_keeps | intro _ | split
    | (fail_if_no_progress refine Keeps.record ?_)

theorem execEventReceive_keeps (s : State) : KeepsOut s (execEventReceive s) := by
  unfold execEventReceive
  with_reducible repeat' first
    | exact .refl s | apply KeepsOut.next | apply State.logEvent_keeps | apply State.actOn_keeps | split
    | (fail_if_no_progress refine Keeps.record ?_)

theorem execMboxToRead_keeps (s : State) (k : Fin 8) : KeepsOut s (execMboxToRead k s) := by
  unfold execMboxToRead
  with_reducible repeat' first
    | exact .refl s | apply KeepsOut.next | apply State.put_keeps | (fail_if_no_progress refine Keeps.record ?_)

theorem execMboxFromRead_keeps (s : State) (k : Fin 8) : KeepsOut s (execMboxFromRead k s) := by
  unfold execMboxFromRead
  with_reducible repeat' first
    | exact .refl s | apply KeepsOut.next | apply State.put_keeps | (fail_if_no_progress refine Keeps.record ?_)

theorem execInfo_keeps (s : State) : KeepsOut s (execInfo s) := by
  unfold execInfo
  with_reducible repeat' first
    | exact .refl s | apply KeepsOut.next | apply State.mgmt_keeps | (fail_if_no_progress refine Keeps.record ?_)

theorem execMgmtRead_keeps (s : State) (addrs : List Nat) : KeepsOut s (execMgmtRead addrs s) := by
  unfold execMgmtRead
  with_reducible repeat' first
    | exact .refl s | apply KeepsOut.next | apply State.readSync_keeps | apply State.mgmt_keeps | apply Keeps.foldl
    | (fail_if_no_progress refine Keeps.record ?_)

theorem execMgmtWrite_keeps (s : State) (addr : Nat) (x : W32) (mseq : BitVec 64) (sig : List Byte) :
    KeepsOut s (execMgmtWrite addr x mseq sig s) := by
  unfold execMgmtWrite
  with_reducible repeat' first
    | exact .refl s | apply KeepsOut.next | apply State.mgmtSigned_keeps | apply State.hostWrite_keeps | assumption
    | intro _ | (fail_if_no_progress refine Keeps.record ?_)

theorem execDpset_keeps (s : State) (addr : BitVec 48) (ctl : W32) (mseq : BitVec 64) (sig : List Byte) :
    KeepsOut s (execDpset addr ctl mseq sig s) := by
  unfold execDpset
  with_reducible repeat' first
    | exact .refl s | apply KeepsOut.next | apply State.mgmtSigned_keeps | apply State.setDpAddr_keeps
    | apply State.setDpCtl_keeps | assumption | intro _ | (fail_if_no_progress refine Keeps.record ?_)

theorem execDpdata_keeps (s : State) (bytes : List Byte) : KeepsOut s (execDpdata bytes s) := by
  unfold execDpdata
  with_reducible repeat' first
    | exact .refl s | apply KeepsOut.next | apply State.mgmt_keeps | apply State.dpWrite_keeps
    | (fail_if_no_progress refine Keeps.record ?_)

theorem execDpread_keeps (s : State) (len : Nat) : KeepsOut s (execDpread len s) := by
  unfold execDpread
  with_reducible repeat' first
    | exact .refl s | apply KeepsOut.next | apply State.mgmt_keeps | apply State.dpRead_keeps

theorem execSecbuf_keeps (s : State) (op : SecBufOp) (mseq : BitVec 64) (sig : List Byte) :
    KeepsOut s (execSecbuf op mseq sig s) := by
  unfold execSecbuf
  with_reducible repeat' first
    | exact .refl s | apply KeepsOut.next | apply State.mgmtSigned_keeps | apply State.bufPut_keeps
    | apply State.secCmdWrite_keeps | assumption | apply Keeps.cond | intro _ | split
    | (fail_if_no_progress refine Keeps.record ?_)

theorem execTenantImageStart_keeps (s : State) (k : Fin 8) (mpa len : Nat) :
    KeepsOut s (execTenantImageStart k mpa len s) := by
  unfold execTenantImageStart
  with_reducible repeat' first
    | exact .refl s | apply KeepsOut.next | apply State.setCanton_keeps | apply State.raise_keeps
    | apply State.secEvent_keeps | extract_lets | intro _ | split

theorem execGuestFault_keeps (s : State) (d : Fin 40) (img : Nat) : KeepsOut s (execGuestFault d img s) := by
  unfold execGuestFault
  with_reducible repeat' first
    | exact .refl s | apply KeepsOut.next | apply State.setCanton_keeps | apply State.raise_keeps | extract_lets
    | intro _ | split

theorem execPowerOn_keeps (s : State) (env : StartEnv) : KeepsOut s (execPowerOn env s) := by
  unfold execPowerOn
  with_reducible repeat' first
    | exact .refl s | apply KeepsOut.next | apply State.startNow_keeps | intro _ | split

theorem execStartUpComplete_keeps (s : State) (env : StartEnv) : KeepsOut s (execStartUpComplete env s) := by
  unfold execStartUpComplete
  with_reducible repeat' first
    | exact .refl s | apply KeepsOut.next | apply State.startSteps_keeps | apply State.start9_keeps
    | apply State.start10_keeps | apply State.finishReset_keeps | apply Keeps.cond | extract_lets | intro _ | split

theorem execPllLockTimeout_keeps (s : State) (die : Fin 64) : KeepsOut s (execPllLockTimeout die s) := by
  unfold execPllLockTimeout
  have h := State.start6_keeps s { quietEnv with plls := [die] } false (Keeps.refl s)
  refine .cond (fun _ => ?_) fun _ => .next (.refl s)
  extract_lets phase
  split
  next t e =>
    have k := h.ok_of t e
    exact .next (State.put_keeps _ _ _ _ (.cond (fun _ => State.setSlices_keeps _ _ _ k) fun _ => k))
  next t e => exact .next (h.error_of t e)

theorem execMrstNAssert_keeps (s : State) : KeepsOut s (execMrstNAssert s) := by
  unfold execMrstNAssert
  with_reducible repeat' first
    | exact .refl s | apply KeepsOut.next | apply State.setPwr_keeps | apply State.pinHold_keeps | intro _ | split

theorem execMrstNRelease_keeps (s : State) (env : StartEnv) : KeepsOut s (execMrstNRelease env s) := by
  unfold execMrstNRelease
  with_reducible repeat' first
    | exact .refl s | apply KeepsOut.next | apply State.startNow_keeps | apply State.setPwr_keeps | intro _ | split

theorem execWakeAssert_keeps (s : State) (env : StartEnv) : KeepsOut s (execWakeAssert env s) := by
  unfold execWakeAssert
  with_reducible repeat' first
    | exact .refl s | apply KeepsOut.next | apply State.startNow_keeps | intro _ | split

theorem execRstMrst_keeps (s : State) (v : View) (env : StartEnv) : KeepsOut s (execRstMrst v env s) := by
  unfold execRstMrst
  with_reducible repeat' first
    | exact .refl s | apply KeepsOut.next | apply State.setPwr_keeps | apply State.viewReset_keeps
    | apply State.startSteps_keeps | intro _ | split

theorem execRstSrst_keeps (s : State) (v : View) (env : StartEnv) : KeepsOut s (execRstSrst v env s) := by
  unfold execRstSrst
  with_reducible repeat' first
    | exact .refl s | apply KeepsOut.next | apply State.viewReset_keeps | apply State.startSteps_keeps | intro _
    | split

theorem execResetComplete_keeps (s : State) : KeepsOut s (execResetComplete s) := by
  unfold execResetComplete
  with_reducible repeat' first
    | exact .refl s | apply KeepsOut.next | apply State.finishReset_keeps | intro _ | split

theorem execRefclkLoss_keeps (s : State) : KeepsOut s (execRefclkLoss s) := by
  unfold execRefclkLoss
  with_reducible repeat' first
    | exact .refl s | apply KeepsOut.next | apply State.put_keeps | apply State.bump_keeps | apply State.raise_keeps
    | apply State.quench_keeps | intro _ | split

theorem execRefclkRestore_keeps (s : State) (env : StartEnv) : KeepsOut s (execRefclkRestore env s) := by
  unfold execRefclkRestore
  with_reducible repeat' first
    | exact .refl s | apply KeepsOut.next | apply State.causeGone_keeps | apply State.startNow_keeps
    | apply State.setPwr_keeps | apply State.put_keeps | intro _ | split

theorem execSupplyWarningClear_keeps (s : State) (lowest : BitVec 16) :
    KeepsOut s (execSupplyWarningClear lowest s) := by
  unfold execSupplyWarningClear
  with_reducible repeat' first
    | exact .refl s | apply KeepsOut.next | apply State.put_keeps | apply State.bump_keeps | apply State.vinLow_keeps
    | apply State.setPwr_keeps | apply State.raise_keeps | intro _ | split

theorem execUndervoltage_keeps (s : State) : KeepsOut s (execUndervoltage s) := by
  unfold execUndervoltage
  with_reducible repeat' first
    | exact .refl s | apply KeepsOut.next | apply State.lastGasp_keeps | apply State.allReset_keeps
    | apply State.put_keeps | apply State.bump_keeps | apply State.setPwr_keeps | apply State.raise_keeps | intro _
    | split

theorem execInputRecovery_keeps (s : State) (env : StartEnv) : KeepsOut s (execInputRecovery env s) := by
  unfold execInputRecovery
  with_reducible repeat' first
    | exact .refl s | apply KeepsOut.next | apply State.startNow_keeps | intro _ | split

theorem execOvervoltage_keeps (s : State) : KeepsOut s (execOvervoltage s) := by
  unfold execOvervoltage
  with_reducible repeat' first
    | exact .refl s | apply KeepsOut.next | apply State.quench_keeps | apply State.put_keeps | apply State.raise_keeps
    | intro _ | split

theorem execOvervoltageRecovery_keeps (s : State) (env : StartEnv) : KeepsOut s (execOvervoltageRecovery env s) := by
  unfold execOvervoltageRecovery
  with_reducible repeat' first
    | exact .refl s | apply KeepsOut.next | apply State.causeGone_keeps | apply State.startNow_keeps
    | apply State.setPwr_keeps | intro _ | split

theorem execThermalThrottle_keeps (s : State) (die : Fin 64) (temp : BitVec 8) :
    KeepsOut s (execThermalThrottle die temp s) := by
  unfold execThermalThrottle
  with_reducible repeat' first
    | exact .refl s | apply KeepsOut.next | apply State.setRel_keeps | apply State.thermal_keeps | intro _ | split

theorem execThrottleExit_keeps (s : State) : KeepsOut s (execThrottleExit s) := by
  unfold execThrottleExit
  with_reducible repeat' first
    | exact .refl s | apply KeepsOut.next | apply State.put_keeps | apply State.raise_keeps | extract_lets | intro _
    | split

theorem execPowerCapAdjust_keeps (s : State) (k : Fin 8) (watts : BitVec 16) :
    KeepsOut s (execPowerCapAdjust k watts s) := by
  unfold execPowerCapAdjust
  with_reducible repeat' first
    | exact .refl s | apply KeepsOut.next | apply State.put_keeps | apply State.setPwr_keeps | extract_lets | intro _
    | split

theorem execParkQuiesceCheck_keeps (s : State) (k : Fin 8) : KeepsOut s (execParkQuiesceCheck k s) := by
  unfold execParkQuiesceCheck
  with_reducible repeat' first
    | exact .refl s | apply KeepsOut.next | apply State.setPwr_keeps | apply State.parkCanton_keeps
    | apply State.parkEvent_keeps | intro _ | split

theorem execNvWriteStart_keeps (s : State) (bankMv : Nat) : KeepsOut s (execNvWriteStart bankMv s) := by
  unfold execNvWriteStart
  with_reducible repeat' first
    | exact .refl s | apply KeepsOut.next | apply State.setPwr_keeps | apply State.put_keeps
    | apply State.deferSync_keeps | apply Keeps.cond | intro _ | split

theorem execNvWriteDeferTimeout_keeps (s : State) : KeepsOut s (execNvWriteDeferTimeout s) := by
  unfold execNvWriteDeferTimeout
  with_reducible repeat' first
    | exact .refl s | apply KeepsOut.next | apply State.setPwr_keeps | apply State.raise_keeps | intro _ | split

theorem execFlCommandComplete_keeps (s : State) (ok : Bool) : KeepsOut s (execFlCommandComplete ok s) := by
  unfold execFlCommandComplete
  with_reducible repeat' first
    | exact .refl s | apply KeepsOut.next | apply State.put_keeps | apply State.setPwr_keeps
    | apply State.flRefuse_keeps | extract_lets | intro _ | split

theorem execQuench_keeps (s : State) (causes : BitVec 5) (monitor : BitVec 8) :
    KeepsOut s (execQuench causes monitor s) := by
  unfold execQuench
  with_reducible repeat' first
    | exact .refl s | apply KeepsOut.next | apply State.quench_keeps | intro _ | split

theorem execQuenchRestart_keeps (s : State) (env : StartEnv) : KeepsOut s (execQuenchRestart env s) := by
  unfold execQuenchRestart
  with_reducible repeat' first
    | exact .refl s | apply KeepsOut.next | apply State.startNow_keeps | apply State.beginStart_keeps
    | apply State.put_keeps | apply State.resetEvent_keeps | apply State.startSteps_keeps | extract_lets | intro _
    | split

theorem execSafetySample_keeps (s : State) (x : SafetySample) : KeepsOut s (execSafetySample x s) := by
  unfold execSafetySample
  with_reducible repeat' first
    | exact .refl s | apply KeepsOut.next | apply State.setRel_keeps | apply State.put_keeps
    | apply State.vinLow_keeps | apply State.raise_keeps | apply State.showHealth_keeps | apply State.thermal_keeps
    | apply State.setPwr_keeps | apply State.quench_keeps | apply KeepsOut.cond | extract_lets | intro _ | split

theorem execComparatorSelfTest_keeps (s : State) (monitor : BitVec 8) (ok : Bool) :
    KeepsOut s (execComparatorSelfTest monitor ok s) := by
  unfold execComparatorSelfTest
  with_reducible repeat' first
    | exact .refl s | apply KeepsOut.next | apply State.setRel_keeps | apply State.put_keeps | apply State.raise_keeps
    | intro _ | split

theorem execAutoCrst_keeps (s : State) (k : Fin 8) : KeepsOut s (execAutoCrst k s) := by
  unfold execAutoCrst
  with_reducible repeat' first
    | exact .refl s | apply KeepsOut.next | apply State.setRel_keeps | apply State.askReset_keeps | intro _ | split

theorem execEventLogPageProgram_keeps (s : State) : KeepsOut s (execEventLogPageProgram s) := by
  unfold execEventLogPageProgram
  with_reducible repeat' first
    | exact .refl s | apply KeepsOut.next | apply State.setRel_keeps | apply State.nvAsk_keeps | extract_lets
    | intro _ | split

theorem execDebugProbeInsert_keeps (s : State) : KeepsOut s (execDebugProbeInsert s) := by
  unfold execDebugProbeInsert
  with_reducible repeat' first
    | exact .refl s | apply KeepsOut.next | apply State.setSec_keeps | apply State.put_keeps | intro _ | split

theorem execRegisterPairRead_keeps (s : State) (v : View) (addr : Nat) (hi : Bool) :
    KeepsOut s (execRegisterPairRead v addr hi s) := by
  unfold execRegisterPairRead
  with_reducible repeat' first
    | exact .refl s | apply KeepsOut.next | apply State.readSync_keeps | extract_lets | intro _ | split
    | (fail_if_no_progress refine Keeps.record ?_)

theorem execPwrVinRead_keeps (s : State) : KeepsOut s (execPwrVinRead s) := by
  unfold execPwrVinRead
  with_reducible repeat' first
    | exact .refl s | apply KeepsOut.next | apply State.put_keeps | (fail_if_no_progress refine Keeps.record ?_)

theorem execHostLinkDown_keeps (s : State) : KeepsOut s (execHostLinkDown s) := by
  unfold execHostLinkDown
  with_reducible repeat' first
    | exact .refl s | apply KeepsOut.next | apply State.put_keeps | apply State.raise_keeps | intro _ | split

theorem execSitePortPacketReceive_keeps (s : State) (p : Fin 2) (x : SitePacket) :
    KeepsOut s (execSitePortPacketReceive p x s) := by
  unfold execSitePortPacketReceive
  with_reducible repeat' first
    | exact .refl s | apply KeepsOut.next | apply State.spTally_keeps | intro _ | split
    | (fail_if_no_progress refine Keeps.record ?_)

theorem execSitePortTransmitSlot_keeps (s : State) (p : Fin 2) : KeepsOut s (execSitePortTransmitSlot p s) := by
  unfold execSitePortTransmitSlot
  with_reducible repeat' first
    | exact .refl s | apply KeepsOut.next | apply State.sxFault_keeps | apply State.add64_keeps
    | apply State.setSx_keeps | apply KeepsOut.cond | extract_lets | intro _ | split
    | (fail_if_no_progress refine Keeps.record ?_)

theorem execEventRingHoldoffExpire_keeps (s : State) : KeepsOut s (execEventRingHoldoffExpire s) := by
  unfold execEventRingHoldoffExpire
  with_reducible repeat' first
    | exact .refl s | apply KeepsOut.next | apply State.evqIrq_keeps | intro _ | split

theorem execDoeResponseReady_keeps (s : State) : KeepsOut s (execDoeResponseReady s) := by
  unfold execDoeResponseReady
  with_reducible repeat' first
    | exact .refl s | apply KeepsOut.next | apply State.setSpdm_keeps | split

theorem execNvWriteComplete_keeps (s : State) : KeepsOut s (execNvWriteComplete s) := by
  unfold execNvWriteComplete
  with_reducible repeat' first
    | exact .refl s | apply KeepsOut.next | apply State.nvFinish_keeps | apply State.deferSync_keeps
    | apply State.pinHold_keeps | apply State.beginStart_keeps | apply State.resetEvent_keeps
    | apply State.setPwr_keeps | apply State.askReset_keeps | extract_lets | split

theorem execTenantHypercall_keeps (s : State) (k : Fin 8) (img : Nat) (call : HyperCall) :
    KeepsOut s (execTenantHypercall k img call s) := by
  unfold execTenantHypercall
  extract_lets runs
  refine .cond (fun _ => ?_) fun _ => .next (.refl s)
  cases call with
  | queue d q => exact .cond (fun _ => execQueueStart_keeps s d _) fun _ => .next (.refl s)
  | ring g tail => exact .next (State.put_keeps _ _ _ _ (.refl s))
  | drain d q table variant w =>
    exact .cond (fun _ => execAdapterDrainRequest_keeps s d q table variant w) fun _ => .next (.refl s)

/-- Whatever command runs, what every operation keeps is kept. -/
theorem exec_keeps (c : Instr) (s : State) : KeepsOut s (exec c s) := by
  cases c with
  | registerWrite => exact .next (regWrite_keeps _ _ _ _ _ (.refl s))
  | crsReservedAccess v addr wr => exact execCrsReservedAccess_keeps s v addr wr
  | crsForeignAccess d addr wr => exact execCrsForeignAccess_keeps s d addr wr
  | mpaAccess r op addr => exact execMpaAccess_keeps s r op addr
  | fabricFlitReceive die port crcOk => exact execFabricFlitReceive_keeps s die port crcOk
  | fabricPortDown die port => exact execFabricPortDown_keeps s die port
  | fabricPacketHop id src dst cls flits busy => exact execFabricPacketHop_keeps s id src dst cls flits busy
  | arbiterDecision st reqs => exact execArbiterDecision_keeps s st reqs
  | requesterMaskChange st requester masked => exact execRequesterMaskChange_keeps s st requester masked
  | seedWaitRelease die => exact execSeedWaitRelease_keeps s die
  | maCommandAccept d a => exact execMaCommandAccept_keeps s d a
  | maHoist | maPass | maCcfg | maReq | maFlush =>
    exact .next (State.maEnter_keeps _ _ _ _ _ (.refl s))
  | maStreamStart d a => exact execMaStreamStart_keeps s d a
  | maFrontStart d a => exact execMaFrontStart_keeps s d a
  | maMaskLineRead d a line => exact execMaMaskLineRead_keeps s d a line
  | maSlotFeed d a => exact execMaSlotFeed_keeps s d a
  | maOutputWrite d a col par => exact execMaOutputWrite_keeps s d a col par
  | maPassComplete d a => exact execMaPassComplete_keeps s d a
  | maCollectorTimeout d a => exact execMaCollectorTimeout_keeps s d a
  | maBatchComplete d a => exact execMaBatchComplete_keeps s d a
  | maPerfClear d a => exact execMaPerfClear_keeps s d a
  | vadd | vsub | vmul | vfma | vfnma | vmin | vmax | vsel | vcmpeq | vcmplt | vcmple | vcmpun | vsplit | vscale
  | vcvt | vrcpe | vrsqe | vexp2e | vrsum | vrprod | vrmax | vrmin | vrmean | vrimax | vrimin | vtload | vtstore
  | vttrans | vsets | vmload | vmstore | vmop | vgetf =>
    exact .next (State.veRun_keeps _ _ _ _ _ (.refl s))
  | veDependenceRelease d cycles bad => exact execVeDependenceRelease_keeps s d cycles bad
  | vePerfClear d => exact execVePerfClear_keeps s d
  | seqQueueTailWrite d q write => exact execSeqQueueTailWrite_keeps s d q write
  | seqDispatch d fetch => exact execSeqDispatch_keeps s d fetch
  | seqCompletionSignal d => exact execSeqCompletionSignal_keeps s d
  | seqCtrWrite d c value => exact execSeqCtrWrite_keeps s d c value
  | seqCtrInc d c inc => exact execSeqCtrInc_keeps s d c inc
  | syncWait => exact .next (State.syncHead_keeps _ _ _ _ (.refl s))
  | syncWaitSatisfied d q => exact execSyncWaitSatisfied_keeps s d q
  | syncSignal | syncPwait =>
    exact .next (State.syncHead_keeps _ _ _ _ (.refl s))
  | pennantPoll d poll => exact execPennantPoll_keeps s d poll
  | syncPsignal | syncSetbase | syncCall | syncHalt =>
    exact .next (State.syncHead_keeps _ _ _ _ (.refl s))
  | seqWaitWatchdog d q => exact execSeqWaitWatchdog_keeps s d q
  | queueStart d write => exact execQueueStart_keeps s d write
  | queueStop | queueResume | queueResumeSkip | queueAbort =>
    exact .next (State.queueCtl_keeps _ _ _ _ (.refl s))
  | dmaCopy | dmaCopy2d | dmaFill =>
    exact .next (State.dmaEnter_keeps _ _ _ _ (.refl s))
  | dmaCommandStart d => exact execDmaCommandStart_keeps s d
  | dmaPacketAck d cmd pkt res => exact execDmaPacketAck_keeps s d cmd pkt res
  | lsArbitrate d accs lsEcc gasEcc => exact execLsArbitrate_keeps s d accs lsEcc gasEcc
  | gasZero | gasDrain =>
    exact .next (State.gasEnter_keeps _ _ _ _ (.refl s))
  | gasDrainStart d => exact execGasDrainStart_keeps s d
  | gasDrainPieceRead d group opseq piece => exact execGasDrainPieceRead_keeps s d group opseq piece
  | keptInputRebuild d q first below base fresh copy =>
    exact execKeptInputRebuild_keeps s d q first below base fresh copy
  | variantTableActivate k addr => exact execVariantTableActivate_keeps s k addr
  | sequenceAdmit k table tag seq => exact execSequenceAdmit_keeps s k table tag seq
  | adapterDrainRequest d q table variant w => exact execAdapterDrainRequest_keeps s d q table variant w
  | cadEnable k => exact execCadEnable_keeps s k
  | cadDone k report => exact execCadDone_keeps s k report
  | cadDeadline k waiting => exact execCadDeadline_keeps s k waiting
  | cadPeriodStart k => exact execCadPeriodStart_keeps s k
  | evalBatchStart k batch => exact execEvalBatchStart_keeps s k batch
  | channelRecalibrate m c => exact execChannelRecalibrate_keeps s m c
  | dimmTempSample m c temps => exact execDimmTempSample_keeps s m c temps
  | sealRead m n => exact execSealRead_keeps s m n
  | sealReadComplete m n f => exact execSealReadComplete_keeps s m n f
  | sealFullWrite m n f => exact execSealFullWrite_keeps s m n f
  | sealPartialWrite m n f => exact execSealPartialWrite_keeps s m n f
  | sealAtomicAdd m n f => exact execSealAtomicAdd_keeps s m n f
  | sealReinit m index => exact execSealReinit_keeps s m index
  | sealReinitComplete m lost => exact execSealReinitComplete_keeps s m lost
  | patrolScrubStep m f mirror block => exact execPatrolScrubStep_keeps s m f mirror block
  | residentScrub m r => exact execResidentScrub_keeps s m r
  | treeInitComplete m => exact execTreeInitComplete_keeps s m
  | sealPerfClear => exact .next (State.clearCounts_keeps _ _ _ (.refl s))
  | ueEnable m tables journals => exact execUeEnable_keeps s m tables journals
  | uePause => exact .next (State.put_keeps _ _ _ _ (.refl s))
  | ueReset =>
    exact .next (State.ueSync_keeps _ _ (State.put_keeps _ _ _ _ (State.put_keeps _ _ _ _ (State.put_keeps _ _ _ _
      (State.setUe_keeps _ _ _ (.refl s))))))
  | ueSquareLand => exact execUeSquareLand_keeps _ _ _ _ _ _ (.refl s)
  | ueSquareCommit m reads => exact execUeSquareCommit_keeps s m reads
  | ueBurstAck m => exact execUeBurstAck_keeps s m
  | ueNormin m sumsq => exact execUeNormin_keeps s m sumsq
  | ueReload m tables journals => exact execUeReload_keeps s m tables journals
  | ueRederive m shard reads => exact execUeRederive_keeps s m shard reads
  | ueAudit m shard reads => exact execUeAudit_keeps s m shard reads
  | ueAuditInterval m turn => exact execUeAuditInterval_keeps s m turn
  | ueExport m shard reads => exact execUeExport_keeps s m shard reads
  | ueImport m shard record => exact execUeImport_keeps s m shard record
  | ueDisable m shard => exact execUeDisable_keeps s m shard
  | ueSnapshot m shard reads => exact execUeSnapshot_keeps s m shard reads
  | ueCommandComplete turn => exact execUeCommandComplete_keeps s turn
  | groupCreate k g => exact execGroupCreate_keeps s k g
  | groupClaim k g => exact execGroupClaim_keeps s k g
  | groupResume k g => exact execGroupResume_keeps s k g
  | groupAbort k g => exact execGroupAbort_keeps s k g
  | groupReset k g => exact execGroupReset_keeps s k g
  | groupFree k g => exact execGroupFree_keeps s k g
  | groupTailWrite k g tail => exact execGroupTailWrite_keeps s k g tail
  | descriptorFetch g => exact execDescriptorFetch_keeps s g
  | triggerPoll g => exact execTriggerPoll_keeps s g
  | operationStart g => exact execOperationStart_keeps s g
  | pieceCombine g opseq gather u off len => exact execPieceCombine_keeps s g opseq gather u off len
  | pieceReceive k u p => exact execPieceReceive_keeps s k u p
  | pieceAckSend g u => exact execPieceAckSend_keeps s g u
  | pieceAck g u member psn => exact execPieceAck_keeps s g u member psn
  | noctxRetry g u psn => exact execNoctxRetry_keeps s g u psn
  | operationComplete g opseq => exact execOperationComplete_keeps s g opseq
  | beaconSend g => exact execBeaconSend_keeps s g
  | beaconReceive g u opseq named => exact execBeaconReceive_keeps s g u opseq named
  | groupStall g => exact execGroupStall_keeps s g
  | abortMessageReceive g opseqs => exact execAbortMessageReceive_keeps s g opseqs
  | clCounterClear => exact .next (State.clearCounts_keeps _ _ _ (State.put_keeps _ _ _ _ (.refl s)))
  | controlCodewordSend l => exact execControlCodewordSend_keeps s l
  | controlCodewordReceive l c tag => exact execControlCodewordReceive_keeps s l c tag
  | torusPacketReceive l k p a => exact execTorusPacketReceive_keeps s l k p a
  | linkRetrain => exact .next (State.startTraining_keeps _ _ (.refl s))
  | linkTrainComplete l r => exact execLinkTrainComplete_keeps s l r
  | linkTrainRetry l => exact execLinkTrainRetry_keeps s l
  | linkDown l why => exact execLinkDown_keeps s l why
  | downPortHoldExpire l k => exact execDownPortHoldExpire_keeps s l k
  | epochChange l k => exact execEpochChange_keeps s l k
  | forcedRekey v l planes => exact execForcedRekey_keeps s v l planes
  | linkCounterClear => exact .next (State.clearCounts_keeps _ _ _ (.refl s))
  | cableInsert l => exact execCableInsert_keeps s l
  | cableRemove l => exact execCableRemove_keeps s l
  | sxEnable m => exact execSxEnable_keeps s m
  | openall m => exact execOpenall_keeps s m
  | boot m shard => exact execBoot_keeps s m shard
  | sxDisable m shard => exact execSxDisable_keeps s m shard
  | data m f => exact execData_keeps s m f
  | done m f => exact execDone_keeps s m f
  | sack m f => exact execSack_keeps s m f
  | include_ m f => exact execInclude_keeps s m f
  | corr m f => exact execCorr_keeps s m f
  | mhead m f => exact execMhead_keeps s m f
  | merge m f => exact execMerge_keeps s m f
  | snapreq m f => exact execSnapreq_keeps s m f
  | snaphead m f => exact execSnaphead_keeps s m f
  | snap m f => exact execSnap_keeps s m f
  | notice m f => exact execNotice_keeps s m f
  | probe m f => exact execProbe_keeps s m f
  | probeSend m site module_ => exact execProbeSend_keeps s m site module_
  | leaderDataDeadline m shard => exact execLeaderDataDeadline_keeps s m shard
  | leaderCorrDeadline m shard => exact execLeaderCorrDeadline_keeps s m shard
  | frameResendTimeout m n => exact execFrameResendTimeout_keeps s m n
  | sackSend m site module_ die => exact execSackSend_keeps s m site module_ die
  | siteOutOfTouch k site => exact execSiteOutOfTouch_keeps s k site
  | exchangeCollectiveDone m shard => exact execExchangeCollectiveDone_keeps s m shard
  | packetTooBig p site mtu => exact execPacketTooBig_keeps s p site mtu
  | sitePortLinkChange p up => exact execSitePortLinkChange_keeps s p up
  | sxCounterClear | spCounterClear =>
    exact .next (State.clearCounts_keeps _ _ _ (.refl s))
  | spdmGetVersion => exact .next (State.spdmAnswer_keeps _ _ _ (State.setSpdm_keeps _ _ (.refl s)))
  | spdmGetCapabilities => exact .next (State.spdmAnswer_keeps _ _ _ (.refl s))
  | spdmNegotiateAlgorithms tcp offered => exact execSpdmNegotiateAlgorithms_keeps s tcp offered
  | spdmGetDigests => exact .next (State.spdmAnswer_keeps _ _ _ (.refl s))
  | spdmGetCertificate tcp slot off len => exact execSpdmGetCertificate_keeps s tcp slot off len
  | spdmChallenge => exact .next (State.spdmSigned_keeps _ _ _ (.refl s))
  | spdmGetMeasurements tcp index nonce => exact execSpdmGetMeasurements_keeps s tcp index nonce
  | spdmKeyExchange tcp share => exact execSpdmKeyExchange_keeps s tcp share
  | spdmFinish tcp proof => exact execSpdmFinish_keeps s tcp proof
  | spdmEndSession tcp => exact execSpdmEndSession_keeps s tcp
  | spdmChunkSend => exact .next (State.spdmAnswer_keeps _ _ _ (State.setSpdm_keeps _ _ (.refl s)))
  | spdmChunkGet tcp seq => exact execSpdmChunkGet_keeps s tcp seq
  | spdmVendorDefinedRequest tcp keys => exact execSpdmVendorDefinedRequest_keeps s tcp keys
  | doeDiscovery index => exact execDoeDiscovery_keeps s index
  | doeAbort => exact .next (State.setSpdm_keeps _ _ (.refl s))
  | secOwnWrite => exact execSecOwnWrite_keeps _ _ _ (.refl s)
  | secAssign => exact execSecAssign_keeps _ _ _ (.refl s)
  | secKagree => exact execSecKagree_keeps _ _ _ _ (.refl s)
  | ka1 => exact .next (State.answerMsg_keeps _ _ (State.kaOne_keeps _ _ (.refl s)))
  | ka2 => exact .next (State.answerMsg_keeps _ _ (State.kaTwo_keeps _ _ _ (.refl s)))
  | ka3 => exact .next (State.answerMsg_keeps _ _ (State.kaThree_keeps _ _ _ (.refl s)))
  | kaTimeout n => exact execKaTimeout_keeps s n
  | secDatakey => exact execSecDatakey_keeps _ _ _ (.refl s)
  | datakeyWithdraw k keyId sig => exact execDatakeyWithdraw_keeps s k keyId sig
  | secCkpt => exact execSecCkpt_keeps _ _ _ _ (.refl s)
  | secResume => exact execSecResume_keeps _ _ _ _ (.refl s)
  | secShare => exact execSecShare_keeps _ _ _ (.refl s)
  | secRelease => exact execSecRelease_keeps _ _ _ _ (.refl s)
  | secConsent => exact execSecConsent_keeps _ _ _ (.refl s)
  | consentWithdraw k party bits sig => exact execConsentWithdraw_keeps s k party bits sig
  | secKeydrop => exact execSecKeydrop_keeps _ _ _ _ (.refl s)
  | secScrub => exact execSecScrub_keeps _ _ _ (.refl s)
  | scrubQuiesced k => exact execScrubQuiesced_keeps s k
  | scrubQuiesceTimeout k => exact execScrubQuiesceTimeout_keeps s k
  | scrubComplete k => exact execScrubComplete_keeps s k
  | partyRecordDecrypt k src dst => exact execPartyRecordDecrypt_keeps s k src dst
  | ideIntegrityFailure => exact execIdeIntegrityFailure_keeps s
  | tapInstruction ti => exact execTapInstruction_keeps s ti
  | scanEnable => exact execScanEnable_keeps s
  | hostLinkTrain t => exact execHostLinkTrain_keeps s t
  | perstAssert => exact .next (State.put_keeps _ _ _ _ (State.hostFieldsReset_keeps _ (.refl s)))
  | functionLevelReset => exact .next (State.hostFieldsReset_keeps _ (.refl s))
  | hostSnoop addr => exact execHostSnoop_keeps s addr
  | bar0BadAccess addr size => exact execBar0BadAccess_keeps s addr size
  | msixVectorUnmask => exact .next (State.setHost_keeps _ _ (.refl s))
  | regionDisable => exact execRegionDisable_keeps _ _ _ (.refl s)
  | ringEnable k g => exact execRingEnable_keeps s k g
  | ringDisable => exact .next (State.ringIdle_keeps _ _ _ (State.put_keeps _ _ _ _ (.refl s)))
  | ringDescriptorStart k g host => exact execRingDescriptorStart_keeps s k g host
  | ringDescriptorComplete k g => exact execRingDescriptorComplete_keeps s k g
  | ringRestart k g => exact execRingRestart_keeps s k g
  | ringAbort k g => exact execRingAbort_keeps s k g
  | dpDataWrite => exact .next (State.dpWrite_keeps _ _ _ (.refl s))
  | dpDataRead => exact .next (State.dpRead_keeps _ _ _ (.refl s))
  | dpCtlWrite => exact .next (State.setDpCtl_keeps _ _ _ (.refl s))
  | dpStatusRead p => exact execDpStatusRead_keeps s p
  | eventReceive => exact execEventReceive_keeps s
  | hosttimeWrite => exact .next (State.setHostTime_keeps _ _ (.refl s))
  | mboxToWrite => exact .next (State.mboxTo_keeps _ _ _ (.refl s))
  | mboxFromWrite => exact .next (State.msix_keeps _ _ (State.post_keeps _ _ _ _ _ (.refl s)))
  | mboxToRead k => exact execMboxToRead_keeps s k
  | mboxFromRead k => exact execMboxFromRead_keeps s k
  | info => exact execInfo_keeps s
  | mgmtRead addrs => exact execMgmtRead_keeps s addrs
  | mgmtWrite addr x mseq sig => exact execMgmtWrite_keeps s addr x mseq sig
  | dpset addr ctl mseq sig => exact execDpset_keeps s addr ctl mseq sig
  | dpdata bytes => exact execDpdata_keeps s bytes
  | dpread len => exact execDpread_keeps s len
  | secbuf op mseq sig => exact execSecbuf_keeps s op mseq sig
  | tenantImageStart k mpa len => exact execTenantImageStart_keeps s k mpa len
  | tenantHypercall k img call => exact execTenantHypercall_keeps s k img call
  | guestFault d img => exact execGuestFault_keeps s d img
  | serviceCoreCacheError => exact .next (State.raise_keeps _ _ _ _ _ (.refl s))
  | powerOn env => exact execPowerOn_keeps s env
  | startUpComplete env => exact execStartUpComplete_keeps s env
  | pllLockTimeout die => exact execPllLockTimeout_keeps s die
  | mrstNAssert => exact execMrstNAssert_keeps s
  | mrstNRelease env => exact execMrstNRelease_keeps s env
  | wakeAssert env => exact execWakeAssert_keeps s env
  | rstMrst v env => exact execRstMrst_keeps s v env
  | rstSrst v env => exact execRstSrst_keeps s v env
  | rstCrst => exact execRstCrst_keeps _ _ _ (.refl s)
  | rstDrst => exact execRstDrst_keeps _ _ _ (.refl s)
  | rstLrst => exact execRstLrst_keeps _ _ _ (.refl s)
  | resetComplete => exact execResetComplete_keeps s
  | refclkLoss => exact execRefclkLoss_keeps s
  | refclkRestore env => exact execRefclkRestore_keeps s env
  | supplyWarning =>
    exact .next (State.enterThrottle_keeps _ _ (State.setPwr_keeps _ _ (State.vinLow_keeps _ _
      (State.put_keeps _ _ _ _ (.refl s)))))
  | supplyWarningClear lowest => exact execSupplyWarningClear_keeps s lowest
  | undervoltage => exact execUndervoltage_keeps s
  | inputRecovery env => exact execInputRecovery_keeps s env
  | overvoltage => exact execOvervoltage_keeps s
  | overvoltageRecovery env => exact execOvervoltageRecovery_keeps s env
  | alwaysOnPowerLoss => exact .next (State.coldLoss_keeps _ (.refl s))
  | thermalThrottle die temp => exact execThermalThrottle_keeps s die temp
  | throttleExit => exact execThrottleExit_keeps s
  | powerCapAdjust k watts => exact execPowerCapAdjust_keeps s k watts
  | park => exact execPark_keeps _ _ (.refl s)
  | parkQuiesceCheck k => exact execParkQuiesceCheck_keeps s k
  | unpark => exact execUnpark_keeps _ _ _ (.refl s)
  | standby => exact execStandby_keeps _ (.refl s)
  | nvWriteStart bankMv => exact execNvWriteStart_keeps s bankMv
  | nvWriteDeferTimeout => exact execNvWriteDeferTimeout_keeps s
  | bind => exact execBind_keeps _ (.refl s)
  | erase => exact execErase_keeps _ _ _ (.refl s)
  | program => exact execProgram_keeps _ _ _ (.refl s)
  | commit => exact execCommit_keeps _ _ _ (.refl s)
  | mcr => exact execMcr_keeps _ (.refl s)
  | flCommandComplete ok => exact execFlCommandComplete_keeps s ok
  | quench causes monitor => exact execQuench_keeps s causes monitor
  | quenchRestart env => exact execQuenchRestart_keeps s env
  | safetySample x => exact execSafetySample_keeps s x
  | comparatorSelfTest monitor ok => exact execComparatorSelfTest_keeps s monitor ok
  | autoCrst k => exact execAutoCrst_keeps s k
  | eventLogPageProgram => exact execEventLogPageProgram_keeps s
  | debugProbeInsert => exact execDebugProbeInsert_keeps s
  | debugProbeRemove => exact .next (State.endDebug_keeps _ (State.setSec_keeps _ _ (.refl s)))
  | registerPairRead v addr hi => exact execRegisterPairRead_keeps s v addr hi
  | pwrVinRead => exact execPwrVinRead_keeps s
  | hostLinkDown => exact execHostLinkDown_keeps s
  | sitePortPacketReceive p x => exact execSitePortPacketReceive_keeps s p x
  | sitePortTransmitSlot p => exact execSitePortTransmitSlot_keeps s p
  | eventRingHoldoffExpire => exact execEventRingHoldoffExpire_keeps s
  | doeResponseReady => exact execDoeResponseReady_keeps s
  | nvWriteComplete => exact execNvWriteComplete_keeps s

/-- A step without a command waiting only lets a cycle pass. -/
theorem step_of_nil {s : State} (h : s.pending = []) : step s = .next { s with now := s.now + 1 } := by
  unfold step; rw [h]

theorem step_of_cons {s : State} {c : Instr} {rest : List Instr} (h : s.pending = c :: rest) :
    step s = exec c { s with pending := rest } := by
  unfold step; rw [h]

/-- What holds of the four fields decides the structural invariant. -/
theorem Inv.of_keeps {s t : State} (h : Inv s) (k : Keeps s t) : Inv t :=
  ⟨k.mem h.mem, k.regs h.regs, k.poison h.poison⟩

/-- Settles O3: every operation of the model, hence every command, keeps the canonical forms (`exec_keeps`), and the
step without a command touches none of the three maps. -/
theorem everyStepKeepsTheCanonicalForms : Obligations.EveryStepKeepsTheCanonicalForms := by
  intro s t hs hstep
  cases hp : s.pending with
  | nil =>
    rw [step_of_nil hp] at hstep
    cases hstep
    exact ⟨hs.mem, hs.regs, hs.poison⟩
  | cons c rest =>
    rw [step_of_cons hp] at hstep
    have hr : Inv { s with pending := rest } := ⟨hs.mem, hs.regs, hs.poison⟩
    exact hr.of_keeps ((exec_keeps c _).next_of t hstep)

end Sys2Proof.Machine
end

section
/-! What a register write does to the fields of a compute die's register (O5). -/
namespace Sys2Proof.Machine

/-! ### Addresses of a compute die -/

/-- The CRS range of a compute die. -/
theorem cdBase_add_lt (d : Fin 40) {off : Nat} (h : off < 0x100000) :
    0x1000000 ≤ cdBase d + off ∧ cdBase d + off < 0x3800000 := by
  have := d.isLt
  unfold cdBase
  omega

theorem crsDie_cdBase_add (d : Fin 40) {off : Nat} (h : off < 0x100000) :
    crsDie (cdBase d + off) = some (.cd, d.val, off) := by
  obtain ⟨lo, hi⟩ := cdBase_add_lt d h
  have h1 : (cdBase d + off - 0x1000000) / 0x100000 = d.val := by unfold cdBase; omega
  have h2 : (cdBase d + off - 0x1000000) % 0x100000 = off := by unfold cdBase; omega
  rw [crsDie, if_neg (by omega), if_neg (by omega), if_neg (by omega), if_neg (by omega), if_neg (by omega),
    if_neg (by omega), if_pos hi, h1, h2]

/-- No bank stands above an address of a compute die. -/
theorem crsDie_mod_cdBase_add (d : Fin 40) {off : Nat} (h : off < 0x100000) :
    crsDie ((cdBase d + off) % 0x4000000) = some (.cd, d.val, off) := by
  obtain ⟨_, hi⟩ := cdBase_add_lt d h
  rw [Nat.mod_eq_of_lt (by omega), crsDie_cdBase_add d h]

theorem inBuf_cdBase_add (d : Fin 40) {off : Nat} (h : off < 0x100000) : inBuf (cdBase d + off) = false := by
  obtain ⟨lo, _⟩ := cdBase_add_lt d h
  have : ¬ cdBase d + off < 0xD0000 := by omega
  simp [inBuf, this]

/-- A register found at an address stands in the table. -/
theorem mem_regTable_of_regAt {a : Nat} {r : RegRow} (h : regAt a = some r) : r ∈ regTable := by
  unfold regAt at h
  split at h
  · cases h
  · exact List.mem_of_find?_eq_some h

/-! ### Masks of the fields of a table row -/

/-- The bits of a row's fields that satisfy `p`. -/
def rowMask (r : RegRow) (p : FieldRow → Bool) : W32 :=
  BitVec.ofNat 32 (r.fields.foldl (fun n f => if p f then n + (2 ^ (f.hi + 1) - 2 ^ f.lo) else n) 0)

theorem regMask_eq_rowMask {a : Nat} {r : RegRow} (h : regAt a = some r) (p : FieldRow → Bool) :
    regMask a p = rowMask r p := by
  rw [regMask, h, rowMask]

/-- Whether a mask holds the whole of a field (`b` true) or nothing of it. -/
def covers (m : W32) (f : FieldRow) (b : Bool) : Bool :=
  m &&& fldMask (f.hi, f.lo) == if b then fldMask (f.hi, f.lo) else 0

theorem getLsbD_of_covers {m : W32} {f : FieldRow} {b : Bool} (h : covers m f b = true) (h32 : f.hi < 32) {i : Nat}
    (hlo : f.lo ≤ i) (hhi : i ≤ f.hi) : m.getLsbD i = b := by
  have hm : (fldMask (f.hi, f.lo)).getLsbD i = true := by
    rw [fldMask_getLsbD _ (Nat.le_trans hlo hhi) i (by omega)]
    simp [hlo, hhi]
  have e := congrArg (BitVec.getLsbD · i) (eq_of_beq h)
  simp only [BitVec.getLsbD_and, hm, Bool.and_true] at e
  rw [e]
  cases b
  · simp
  · simp [hm]

/-- What the table says of a field of a compute die's register: it lies in the word; the trust die's view writes the
whole of it or nothing of it, by its access type; and no RW1C field has a row of its own. -/
def fieldFits (r : RegRow) (f : FieldRow) : Bool :=
  decide (f.hi < 32) && covers (rowMask r (viewWrites .td)) f (viewWrites .td f) &&
    covers (rowMask r (fun g => g.acc == .rw1c)) f (f.acc == .rw1c) &&
    covers (namedBits ownFields r) f (ownFields.contains (r.die, r.off, f.lo)) &&
    (f.acc != .rw1c || !ownFields.contains (r.die, r.off, f.lo))

/-- Every field of every register of the compute dies fits. -/
theorem regTable_fieldFits : (regTable.all fun r => r.die != .cd || r.fields.all (fieldFits r)) = true := by
  decide +kernel

theorem fieldFits_of_regAt {a : Nat} {r : RegRow} (h : regAt a = some r) (hd : r.die = .cd) {f : FieldRow}
    (hf : f ∈ r.fields) : fieldFits r f = true := by
  have hr := List.all_eq_true.mp regTable_fieldFits r (mem_regTable_of_regAt h)
  rw [hd] at hr
  exact List.all_eq_true.mp hr f hf

/-- A list of fields of other dies names no bit of a row. -/
theorem namedBits_eq_zero {l : List (DieKind × Nat × Nat)} {r : RegRow} (h : ∀ e ∈ l, e.1 ≠ r.die) :
    namedBits l r = 0 := by
  have hl (lo : Nat) : (r.die, r.off, lo) ∉ l := fun m => h _ m rfl
  have (fs : List FieldRow) (m : W32) : fs.foldl (fun m f =>
      if l.contains (r.die, r.off, f.lo) then m ||| fldMask (f.hi, f.lo) else m) m = m := by
    induction fs with
    | nil => rfl
    | cons f fs ih => simp [hl]
  exact this r.fields 0

/-! ### The value a register takes -/

section
variable {s : State} {d : Fin 40} {off : Nat} {r : RegRow} (hoff : off < 0x100000)
  (hr : regAt (cdBase d + off) = some r)
include hoff hr

/-- The trust die may write the fields of a compute die's register that its view writes. -/
theorem writable_td_cd : s.writable .td (cdBase d + off) = rowMask r (viewWrites .td) := by
  simp only [State.writable, crsDie_mod_cdBase_add d hoff, regMask_eq_rowMask hr]
  rw [BitVec.ofNat_eq_ofNat, BitVec.not_zero, BitVec.and_allOnes]

/-- One bit of a field after a write by the trust die. -/
theorem written_td_getLsbD (hd : r.die = .cd) {x : W32} (hw : W32) (hx : reservedBits r x = 0) {f : FieldRow}
    (hf : f ∈ r.fields)
    {i : Nat} (hlo : f.lo ≤ i) (hhi : i ≤ f.hi) :
    (s.written .td r (cdBase d + off) x hw).getLsbD i =
      if f.acc = .rw1c then hw.getLsbD i || ((s.rd (cdBase d + off)).getLsbD i && !x.getLsbD i)
      else if viewWrites .td f && !ownFields.contains (r.die, r.off, f.lo) then x.getLsbD i
      else (s.rd (cdBase d + off)).getLsbD i := by
  have hfit := fieldFits_of_regAt hr hd hf
  simp only [fieldFits, Bool.and_eq_true, decide_eq_true_eq] at hfit
  obtain ⟨⟨⟨⟨h32, hW⟩, hC⟩, hO⟩, hown⟩ := hfit
  have hi : i < 32 := by omega
  have rise : namedBits ownRise r = 0 := namedBits_eq_zero (by rw [hd]; decide)
  have fall : namedBits ownFall r = 0 := namedBits_eq_zero (by rw [hd]; decide)
  simp only [State.written, writable_td_cd hoff hr, regMask_eq_rowMask hr, hx, rise, fall]
  simp only [BitVec.getLsbD_or, BitVec.getLsbD_and, BitVec.getLsbD_not, hi, decide_true,
    getLsbD_of_covers hW h32 hlo hhi, getLsbD_of_covers hC h32 hlo hhi, getLsbD_of_covers hO h32 hlo hhi]
  by_cases hacc : f.acc = .rw1c
  · have hno : ownFields.contains (r.die, r.off, f.lo) = false := by simpa [hacc] using hown
    have hview : viewWrites .td f = true := by simp [viewWrites, hacc]
    simp only [hacc, hno, hview]
    cases hw.getLsbD i <;> cases x.getLsbD i <;> simp
  · simp only [hacc, beq_eq_false_iff_ne.mpr hacc]
    cases viewWrites .td f <;> cases ownFields.contains (r.die, r.off, f.lo) <;> simp

end

/-- Two words that agree on the bits of a field have the same field. -/
theorem fldOf_congr {x y : W32} {f : Fld} (h : ∀ i, f.2 ≤ i → i ≤ f.1 → x.getLsbD i = y.getLsbD i) :
    fldOf x f = fldOf y f := by
  apply Nat.eq_of_testBit_eq
  intro i
  rw [fldOf_testBit, fldOf_testBit]
  by_cases hi : i < f.1 + 1 - f.2
  · rw [h _ (by omega) (by omega)]
  · simp [hi]

section
variable {a n off : Nat}

theorem keyFor_of_cd (h : crsDie a = some (.cd, n, off)) (s : State) (v : View) : s.keyFor v a = a := by
  unfold State.keyFor
  rw [h]

theorem regOff_of_cd (h : crsDie (a % 0x4000000) = some (.cd, n, off)) (s : State) : s.regOff a = s.dieOff n := by
  unfold State.regOff
  rw [h]

/-- A write of a compute die's register changes nothing beside the register. -/
theorem afterWrite_of_cd (h : crsDie a = some (.cd, n, off)) (s : State) (v : View) (y : W32) :
    s.afterWrite v a y = s := by
  unfold State.afterWrite
  rw [h]

/-- The trust die's write of a register, where nothing refuses it and the register is no fault record. -/
theorem regWrite_td_of_taken {s : State} {r : RegRow} (x hw : W32) (hkey : s.keyFor .td a = a)
    (hbuf : inBuf a = false) (hr : regAt a = some r) (hup : s.regOff a = false) (hheld : s.writeHeld r a = false)
    (hrec : recordRegs.contains (r.die, r.off) = false) :
    regWrite .td a x hw s = (s.wr a (s.written .td r a x hw)).afterWrite .td a x := by
  simp only [regWrite, hkey, hbuf, hr, hup, hheld, hrec, State.otherGroup]
  simp

end

/-- The trust die's write of a compute die's register, where the die answers, stores what `written` says. -/
theorem regWrite_td_cd {s : State} {d : Fin 40} {off : Nat} {r : RegRow} (x hw : W32) (hoff : off < 0x100000)
    (hr : regAt (cdBase d + off) = some r) (hrec : recordRegs.contains (r.die, r.off) = false)
    (hup : s.dieOff d = false) (hheld : s.writeHeld r (cdBase d + off) = false) :
    regWrite .td (cdBase d + off) x hw s =
      s.wr (cdBase d + off) (s.written .td r (cdBase d + off) x hw) := by
  have hcd := crsDie_cdBase_add d hoff
  rw [regWrite_td_of_taken x hw (keyFor_of_cd hcd s .td) (inBuf_cdBase_add d hoff) hr
    ((regOff_of_cd (crsDie_mod_cdBase_add d hoff) s).trans hup) hheld hrec, afterWrite_of_cd hcd]

/-- Settles O5: the register takes `written`, whose bits the table's masks decide field by field. -/
theorem registerWriteFollowsAccessTypes : Obligations.RegisterWriteFollowsAccessTypes := by
  intro s d off r x hw hoff hr hd hrec hup hheld hx
  have bit {f : FieldRow} (hf : f ∈ r.fields) {i : Nat} := written_td_getLsbD (s := s) (i := i) hoff hr hd hw hx hf
  refine ⟨_, rfl, ?_⟩
  have hq := regWrite_td_cd x hw hoff hr hrec hup hheld
  have hrd := (congrArg (State.rd · (cdBase d + off)) hq).trans (State.rd_wr_self _ _ _)
  refine ⟨fun f hf => ?_, fun b hb => ?_, ?_⟩
  · rw [hrd]
    refine ⟨fun hacc => ?_, fun hacc hown => ?_, fun hacc i hlo hhi => ?_⟩
    · exact fldOf_congr fun i hlo hhi => by simp [bit hf hlo hhi, viewWrites, hacc]
    · exact fldOf_congr fun i hlo hhi => by rw [bit hf hlo hhi, hacc, hown]; simp [viewWrites, hacc]
    · rw [bit hf hlo hhi, if_pos hacc]
  · rw [hq]; exact State.rd_wr_of_ne s _ (by simpa using hb)
  · rw [hq]; rfl

end Sys2Proof.Machine
end

section
/-! What the shared operations of events, resets and starts leave unchanged. -/
namespace Sys2Proof.Machine

/-! ### Sparse maps through filters that respect keys -/

/-- What `resetRegs` makes of an entry of the registers. -/
def resetEntry (hit : Nat → Bool) (lose : Kept → Bool) (p : Nat × W32) : Option (Nat × W32) :=
  if hit p.1 then
    let m := regMask p.1 (fun f => lose f.kept)
    let x := (p.2 &&& ~~~m) ||| (regReset p.1 &&& m)
    if x = regReset p.1 then none else some (p.1, x)
  else some p

theorem State.resetRegs_regs (s : State) (hit : Nat → Bool) (lose : Kept → Bool) :
    (s.resetRegs hit lose).regs = s.regs.filterMap (resetEntry hit lose) := rfl

/-- An entry that a map over the entries leaves as it is, where no entry changes its key. -/
theorem Sparse_get_filterMap_of_fixed {α : Type} (d : Nat → α) {m : Sparse α} {f : Nat × α → Option (Nat × α)} {k : Nat}
    (hkey : ∀ p q, f p = some q → q.1 = p.1) (hfix : ∀ x, (k, x) ∈ m → f (k, x) = some (k, x)) :
    Sparse.get d (m.filterMap f) k = Sparse.get d m k := by
  induction m with
  | nil => rfl
  | cons p m ih =>
    obtain ⟨j, x⟩ := p
    have ih := ih fun y hy => hfix y (List.mem_cons_of_mem _ hy)
    by_cases hj : k = j
    · subst hj
      rw [List.filterMap_cons_some (hfix x List.mem_cons_self)]
      simp [Sparse.get]
    · cases e : f (j, x) with
      | none => rw [List.filterMap_cons_none e, ih]; simp [Sparse.get, hj]
      | some q =>
        obtain ⟨j', x'⟩ := q
        have hq : j' = j := hkey _ _ e
        subst hq
        rw [List.filterMap_cons_some e]
        simp [Sparse.get, hj, ih]

/-- A reset changes no key. -/
theorem key_of_resetEntry {hit : Nat → Bool} {lose : Kept → Bool} (p q : Nat × W32)
    (e : resetEntry hit lose p = some q) : q.1 = p.1 := by
  unfold resetEntry at e
  dsimp only at e
  split at e
  · split at e
    · cases e
    · cases e; rfl
  · cases e; rfl

/-- A register that a reset does not hit reads as before. -/
theorem State.rd_resetRegs_of_not_hit (s : State) {hit : Nat → Bool} (lose : Kept → Bool) {a : Nat}
    (h : hit a = false) :
    (s.resetRegs hit lose).rd a = s.rd a :=
  Sparse_get_filterMap_of_fixed regReset key_of_resetEntry fun x _ => by simp [h]

/-! ### Addresses -/

/-- An address of the trust die's registers. -/
theorem crsDie_of_lt {a : Nat} (h : a < 0x100000) : crsDie (a % 0x4000000) = some (.td, 0, a) := by
  rw [Nat.mod_eq_of_lt (by omega), crsDie, if_pos h]

theorem regDie_of_lt {a : Nat} (h : a < 0x100000) : regDie a = some 63 := by
  rw [regDie, crsDie_of_lt h]

/-- Only the lowest 8 TiB of the address space is DRAM. -/
theorem placeOf_ne_dram (s : State) {a : Nat} (h : 0x80000000000 ≤ a) (k : Nat) : s.placeOf a ≠ .dram k := by
  rw [State.placeOf, if_neg (Nat.not_lt.mpr h)]
  dsimp only
  split_ifs <;> exact Place.noConfusion

theorem channelOf_eq_none (s : State) {a : Nat} (h : 0x80000000000 ≤ a) : s.channelOf a = none := by
  unfold State.channelOf
  split
  · next e => exact absurd e (placeOf_ne_dram s h _)
  · rfl

/-! ### Local stores zeroed -/

/-- What clearing a compute die leaves in memory. -/
theorem byte_zeroCd (s : State) (d : Fin 40) (queues : Bool) (a : Nat) :
    (s.zeroCd d queues).byte a =
      if (lsBase d ≤ a ∧ a < lsBase d + lsBytes) ∨ (gasBase d ≤ a ∧ a < gasBase d + gasBytes) then 0 else s.byte a := by
  unfold State.zeroCd
  dsimp only
  rw [State.byte_zeroRange, State.byte_zeroRange, State.byte_setCd]
  by_cases h1 : gasBase d ≤ a ∧ a < gasBase d + gasBytes
  · simp [h1]
  · by_cases h2 : lsBase d ≤ a ∧ a < lsBase d + lsBytes
    · simp [h2]
    · rw [if_neg h1, if_neg h2, if_neg (not_or.mpr ⟨h2, h1⟩)]; rfl

/-! ### A canton's reset in three parts -/

/-- The canton's dies reset, its view and tables cleared. -/
def State.crstDies (s : State) (k : Nat) : State :=
  let t := s.clearContexts (fun g => s.gCanton g == k)
  let t := (t.cantonCds k).foldl (fun t d => t.resetCd (fin40 d)) t
  let t := (t.cantonMds k).foldl (fun t m => t.resetMd (fin16 m)) t
  let t := t.resetRegs (fun a => cantonView k a) loseN
  { t with
    host := { t.host with rings := t.host.rings.filter (fun (r : (Nat × Nat) × List RingJob) => r.1.1 != k) }
    cads := t.cads.set (k % 8) Cadence.reset (Nat.mod_lt _ (by decide))
    tables := t.tables.set (k % 8) [] (Nat.mod_lt _ (by decide)) }

/-- The containment bit of the canton cleared. -/
def State.crstCfatal (t : State) (k : Nat) : State :=
  let fatal := t.get R.CONT_STATUS F.CONT_STATUS_CFATAL
  t.put R.CONT_STATUS F.CONT_STATUS_CFATAL (if fatal.testBit k then fatal - 2 ^ k else fatal)

/-- What follows, by the canton's state `st` before the reset. -/
def State.crstEnd (t : State) (k st : Nat) : State :=
  let t := { t with rel := { t.rel with containAt := t.rel.containAt.filter (fun (x : Nat × Nat) => x.1 != k) } }
  let parked := t.get R.PWR_STATUS F.PWR_STATUS_PARKED
  let t := t.put R.PWR_STATUS F.PWR_STATUS_PARKED (if parked.testBit k then parked - 2 ^ k else parked)
  if st = 0 then allPorts.foldl (fun t l => t.forceRekey l (fin8 k)) (t.eraseKeys k) else t.scrubErase k

theorem State.crst_eq (s : State) (k : Nat) : s.crst k = ((s.crstDies k).crstCfatal k).crstEnd k (s.polState k) := rfl

/-! ### What a reset of dies and cantons leaves apart -/

/-- Whether an address lies in a compute die's local store. -/
def inLs (a : Nat) : Prop := 0xF00000000000 ≤ a ∧ a < 0xF000A0000000 ∧ a % 0x4000000 < 0x3000000

/-- What the operations of a reset leave apart: the registers that `K` names, the bytes that `M` names, what has been
raised, the power state, the dies held in reset, the identity and MSEQ; a byte that reads 0 goes on reading 0, and no
key
or containment appears. -/
structure Spared (K M : Nat → Prop) (s t : State) : Prop where
  rd : ∀ a, K a → t.rd a = s.rd a
  byte : ∀ a, M a → t.byte a = s.byte a
  fade : ∀ a, s.byte a = 0 → t.byte a = 0
  events : t.events = s.events
  pwr : t.pwr = s.pwr
  inReset : t.inReset = s.inReset
  containAt : ∀ x ∈ t.rel.containAt, x ∈ s.rel.containAt
  keySlots : ∀ x ∈ t.keySlots, x ∈ s.keySlots
  identity : t.sec.identity = s.sec.identity
  mseq : t.host.mseq = s.host.mseq

/-- The parts of the state that `Spared` speaks of. -/
def State.sparedFields (s : State) :=
  (s.regs, s.mem, s.events, s.pwr, s.inReset, s.rel, s.keySlots, s.sec.identity, s.host.mseq)

namespace Spared
variable {K M : Nat → Prop} {s t u : State}

theorem refl (s : State) : Spared K M s s :=
  ⟨fun _ _ => rfl, fun _ _ => rfl, fun _ h => h, rfl, rfl, rfl, fun _ h => h, fun _ h => h, rfl, rfl⟩

theorem trans (h : Spared K M s t) (k : Spared K M t u) : Spared K M s u :=
  ⟨fun a ha => (k.rd a ha).trans (h.rd a ha), fun a ha => (k.byte a ha).trans (h.byte a ha),
    fun a ha => k.fade a (h.fade a ha), k.events.trans h.events, k.pwr.trans h.pwr, k.inReset.trans h.inReset,
    fun x hx => h.containAt x (k.containAt x hx), fun x hx => h.keySlots x (k.keySlots x hx),
    k.identity.trans h.identity, k.mseq.trans h.mseq⟩

theorem cond {c : Prop} {d : Decidable c} (h : c → Spared K M s t) (k : ¬ c → Spared K M s u) :
    Spared K M s (@ite State c d t u) := by
  by_cases e : c
  · rw [if_pos e]; exact h e
  · rw [if_neg e]; exact k e

theorem foldl {α : Type} {g : State → α → State} {l : List α}
    (hg : ∀ u, ∀ x ∈ l, Spared K M s u → Spared K M s (g u x)) (h : Spared K M s t) : Spared K M s (l.foldl g t) := by
  induction l generalizing t with
  | nil => exact h
  | cons x l ih =>
    exact ih (fun u y hy => hg u y (List.mem_cons_of_mem _ hy)) (hg t x List.mem_cons_self h)

/-- A change of fields of which none is left apart. -/
theorem record (h : Spared K M s t) (e : u.sparedFields = t.sparedFields) : Spared K M s u := by
  simp only [State.sparedFields, Prod.mk.injEq] at e
  obtain ⟨e1, e2, e3, e4, e5, e6, e7, e8, e9⟩ := e
  refine h.trans ⟨fun a _ => ?_, fun a _ => ?_, fun a ha => ?_, e3, e4, e5, fun x hx => e6 ▸ hx,
      fun x hx => e7 ▸ hx, e8, e9⟩
  · unfold State.rd; rw [e1]
  · unfold State.byte; rw [e2]
  · unfold State.byte at ha ⊢; rw [e2]; exact ha

theorem wr (h : Spared K M s t) {a : Nat} (x : W32) (ha : ¬ K a) : Spared K M s (t.wr a x) :=
  h.trans ⟨fun _ hb => State.rd_wr_of_ne _ _ fun e => ha (e ▸ hb), fun _ _ => rfl, fun _ hb => hb, rfl, rfl, rfl,
    fun _ hx => hx, fun _ hx => hx, rfl, rfl⟩

theorem put (h : Spared K M s t) {a : Nat} (f : Fld) (n : Nat) (ha : ¬ K a) : Spared K M s (t.put a f n) :=
  h.wr _ ha

theorem zeroRegs (h : Spared K M s t) {as : List Nat} (ha : ∀ a ∈ as, ¬ K a) : Spared K M s (t.zeroRegs as) :=
  foldl (fun _ a hm hu => hu.wr 0 (ha a hm)) h

theorem resetRegs (h : Spared K M s t) {hit : Nat → Bool} (lose : Kept → Bool) (ha : ∀ a, K a → hit a = false) :
    Spared K M s (t.resetRegs hit lose) :=
  h.trans ⟨fun b hb => State.rd_resetRegs_of_not_hit _ _ (ha b hb), fun _ _ => rfl, fun _ hb => hb, rfl, rfl, rfl,
    fun _ hx => hx, fun _ hx => hx, rfl, rfl⟩

theorem zeroRange (h : Spared K M s t) {a n : Nat} (ha : ∀ b, M b → ¬ (a ≤ b ∧ b < a + n)) :
    Spared K M s (t.zeroRange a n) := by
  refine h.trans ⟨fun _ _ => rfl, fun b hb => ?_, fun b hb => ?_, rfl, rfl, rfl, fun _ hx => hx, fun _ hx => hx,
      rfl, rfl⟩
  · rw [State.byte_zeroRange, if_neg (ha b hb)]
  · rw [State.byte_zeroRange, hb, ite_self]


/-! ### Operations on dies and cantons -/

section
variable (hK : ∀ a, K a → a < 0x100000) (hM : ∀ a, M a → inLs a)

section
include hK

/-- A register above the trust die's is not among those left apart. -/
theorem not_of_le {a : Nat} (ha : 0x100000 ≤ a) : ¬ K a := fun k => Nat.not_lt.mpr ha (hK a k)

theorem lkCount (h : Spared K M s t) (l : Fin 6) {a : Nat} (n : Nat) (ha : 0x100000 ≤ a) :
    Spared K M s (t.lkCount l a n) :=
  cond (fun _ => h) fun _ => h.put _ _ (not_of_le hK ha)

theorem slotSync (h : Spared K M s t) (k : Nat) : Spared K M s (t.slotSync k) := by
  refine foldl (fun u l _ hu => ?_) h
  have ha : ¬ K (R.CL_BUSY l k) := not_of_le hK (by unfold R.CL_BUSY bank ldBase; omega)
  exact cond (fun _ => hu.put _ _ ha) fun _ => (hu.put _ _ ha).put _ _ ha

theorem claimSlots (h : Spared K M s t) (k g : Nat) (claim : Bool) : Spared K M s (t.claimSlots k g claim) := by
  refine put (foldl (fun u l _ hu => ?_) h) _ _ (not_of_le hK (by unfold R.GC_SLOT bank ldBase; omega))
  exact hu.put _ _ (not_of_le hK (by unfold R.CL_SLOTS bank ldBase; omega))

theorem stagedCount (h : Spared K M s t) (k : Nat) : Spared K M s (t.stagedCount k) :=
  foldl (fun _ _ _ hu => hu.put _ _ (not_of_le hK (by unfold R.CL_STAGEDGRP bank ldBase; omega))) h

theorem returnGrans (h : Spared K M s t) (k g : Nat) : Spared K M s (t.returnGrans k g) := by
  unfold State.returnGrans
  split
  · exact h
  · extract_lets m u v w
    have hv : Spared K M s v := h.record rfl
    have hw : Spared K M s w := hv.record rfl
    exact stagedCount hK (hw.put _ _ (not_of_le hK (by unfold R.GC_STATUS bank ldBase; omega))) _

end
end

/-- Bytes dropped from memory where none of them is left apart. -/
theorem memFilter (h : Spared K M s t) {p : Nat → Bool} (hp : ∀ a, M a → p a = true) :
    Spared K M s { t with mem := t.mem.filter (fun c => p c.1) } := by
  have e (a : Nat) := Sparse_get_filter_key memDefault t.mem p a
  refine h.trans ⟨fun _ _ => rfl, fun a ha => ?_, fun a ha => ?_, rfl, rfl, rfl, fun _ hx => hx, fun _ hx => hx,
      rfl, rfl⟩
  · exact (e a).trans (if_pos (hp a ha))
  · refine (e a).trans ?_
    split
    · exact ha
    · rfl

section
variable (hK : ∀ a, K a → a < 0x100000) (hM : ∀ a, M a → inLs a)
include hK

omit hK in
theorem dropGrp (h : Spared K M s t) (g : Nat) : Spared K M s (t.dropGrp g) := h.record rfl

theorem clearContexts (h : Spared K M s t) (hit : Nat → Bool) : Spared K M s (t.clearContexts hit) := by
  refine foldl (fun u x _ hu => slotSync hK (resetRegs (dropGrp ?_ _) _ fun a ha => ?_) _) h
  · have hc : Spared K M s
        (if u.flag (R.GC_SLOT x.1) F.GC_SLOT_GRANTED then u.claimSlots (u.gCanton x.1) x.1 false else u) :=
      cond (fun _ => claimSlots hK hu _ _ _) fun _ => hu
    exact cond (fun _ => returnGrans hK hc _ _) fun _ => hc
  · simp only [crsDie_of_lt (hK a ha)]

theorem resetRegs_die (h : Spared K M s t) {d : Nat} (hd : d < 63) :
    Spared K M s (t.resetRegs (fun a => regDie a == some d) loseN) := by
  refine h.resetRegs _ fun a ha => ?_
  have : (63 == d) = false := by simp; omega
  simp only [regDie_of_lt (hK a ha), Option.some_beq_some, this]

theorem syncPoison (h : Spared K M s t) (m : Fin 16) : Spared K M s (t.syncPoison m) := by
  have hm (o : Nat) : ¬ K (mdBase m + o) := not_of_le hK (by unfold mdBase; omega)
  have h0 := h.put F.SEAL_POISON_CNT_ENTRIES (t.eng m).ptab.length (hm 0x10020)
  unfold State.syncPoison
  dsimp only
  split
  · refine zeroRegs h0 fun a ha => ?_
    simp only [List.mem_cons, List.not_mem_nil, or_false] at ha
    obtain rfl | rfl | rfl | rfl | rfl | rfl := ha <;> exact hm _
  · exact ((((((h0.wr _ (hm _)).wr _ (hm _)).wr _ (hm _)).wr _ (hm _)).wr _ (hm _)).wr _ (hm _))

omit hK in
theorem setEng (h : Spared K M s t) (m : Fin 16) (e : Seal) : Spared K M s (t.setEng m e) := h.record rfl

omit hK in
theorem wake (h : Spared K M s t) (m : Fin 16) : Spared K M s (t.wake m) :=
  cond (fun _ => setEng h _ _) fun _ => h

theorem nextEpoch (h : Spared K M s t) (l : Fin 6) (k : Fin 8) : Spared K M s (t.nextEpoch l k) := by
  unfold State.nextEpoch
  extract_lets x e n key y
  have hy : Spared K M s (t.setPlane l k y) := h.record rfl
  refine lkCount hK (hy.put _ _ (not_of_le hK ?_)) _ _ ?_
  · unfold R.LK_EPOCH ldBase; omega
  · unfold R.LK_REKEYS ldBase; omega

theorem forceRekey (h : Spared K M s t) (l : Fin 6) (k : Fin 8) : Spared K M s (t.forceRekey l k) := by
  refine cond (fun _ => h) fun _ => ?_
  extract_lets u x retire v
  have hv : Spared K M s v := (nextEpoch hK h l k).record rfl
  refine lkCount hK (hv.put _ _ (not_of_le hK ?_)) _ _ ?_
  · unfold R.LK_EPOCH ldBase; omega
  · unfold R.LK_DROP ldBase; omega

theorem zeroEpochs (h : Spared K M s t) (l : Fin 6) : Spared K M s (t.zeroEpochs l) := by
  refine foldl (fun u k _ hu => hu.zeroRegs fun a ha => ?_) h
  simp only [List.mem_cons, List.not_mem_nil, or_false] at ha
  obtain rfl | rfl | rfl := ha
  · exact not_of_le hK (by unfold R.LK_EPOCH ldBase; omega)
  · exact not_of_le hK (by unfold R.LK_SEQ_LO bank ldBase; omega)
  · exact not_of_le hK (by unfold R.LK_SEQ_HI bank ldBase; omega)

theorem endSession (h : Spared K M s t) (l : Fin 6) (st : Nat) : Spared K M s (t.endSession l st) := by
  unfold State.endSession
  extract_lets p lost p' u
  have hu : Spared K M s u := h.record rfl
  refine put (zeroEpochs hK (lkCount hK hu l _ ?_) l) _ _ (not_of_le hK ?_)
  · unfold R.LK_DROP ldBase; omega
  · unfold R.LK_STATUS ldBase; omega

theorem startTraining (h : Spared K M s t) (l : Fin 6) : Spared K M s (t.startTraining l) :=
  cond (fun _ => h) fun _ => endSession hK h _ _

/-- Crypto-erase drops keys and nothing else that is left apart. -/
theorem eraseKeys (h : Spared K M s t) (k : Nat) : Spared K M s (t.eraseKeys k) := by
  unfold State.eraseKeys
  extract_lets c c' u v sec w
  have hu : Spared K M s u := h.record rfl
  have hv : Spared K M s v := hu.trans ⟨fun _ _ => rfl, fun _ _ => rfl, fun _ hb => hb, rfl, rfl, rfl, fun _ hx => hx,
    fun _ hx => List.mem_of_mem_filter hx, rfl, rfl⟩
  have hw : Spared K M s w := hv.record rfl
  exact foldl (fun u m _ hu => put (setEng hu _ _) _ _ (not_of_le hK (by unfold R.SEAL_STATUS mdBase; omega))) hw

theorem freshKeys (h : Spared K M s t) (k : Nat) : Spared K M s (t.freshKeys k) := by
  refine foldl (fun u m _ hu => ?_) h
  have hm : ¬ K (R.SEAL_STATUS m) := not_of_le hK (by unfold R.SEAL_STATUS mdBase; omega)
  have hr : Spared K M s ((u.rand 32).2.rand 32).2 := (hu.record rfl : Spared K M s (u.rand 32).2).record rfl
  exact put (put (wake (setEng hr _ _) _) _ _ hm) _ _ hm

section
include hM

/-- A landing buffer holds no byte of a local store. -/
theorem zeroMd (h : Spared K M s t) (m : Fin 16) : Spared K M s (t.zeroMd m) := by
  unfold State.zeroMd
  extract_lets e e' u v
  have hu : Spared K M s u := h.record rfl
  have hv : Spared K M s v := hu.record rfl
  refine syncPoison hK (hv.zeroRange fun b hb => ?_) m
  obtain ⟨_, hlt, _⟩ := hM b hb
  unfold landBase
  omega

/-- A tree that starts anew clears DRAM alone. -/
theorem newTree (h : Spared K M s t) (m : Fin 16) : Spared K M s (t.newTree m) := by
  unfold State.newTree
  extract_lets e u v
  have hu : Spared K M s u := h.record rfl
  have hv : Spared K M s v := by
    refine hu.memFilter (p := fun a => match u.channelOf a with | some q => q.1 != m.val | none => true) fun a ha => ?_
    obtain ⟨hlo, _, _⟩ := hM a ha
    rw [channelOf_eq_none u (by omega)]
  exact syncPoison hK (hv.wr _ (not_of_le hK (by unfold R.SEAL_GEN mdBase; omega))) m

theorem resetMd (h : Spared K M s t) (m : Fin 16) : Spared K M s (t.resetMd m) :=
  newTree hK hM (wake (setEng (resetRegs_die hK (zeroMd hK hM h m) (by omega)) _ _) _) m

omit hK in
/-- A compute die cleared: no byte of its local store may be left apart; its accumulator store holds none of any. -/
theorem zeroCd (h : Spared K M s t) (d : Fin 40) (queues : Bool)
    (hd : ∀ b, M b → ¬ (lsBase d ≤ b ∧ b < lsBase d + lsBytes)) : Spared K M s (t.zeroCd d queues) := by
  unfold State.zeroCd
  extract_lets c u c' v
  have hu : Spared K M s u := h.record rfl
  have hv : Spared K M s v := hu.record rfl
  refine (hv.zeroRange hd).zeroRange fun b hb => ?_
  obtain ⟨hlo, hhi, hmod⟩ := hM b hb
  unfold gasBase lsBase gasBytes
  omega

theorem resetCd (h : Spared K M s t) (d : Fin 40) (hd : ∀ b, M b → ¬ (lsBase d ≤ b ∧ b < lsBase d + lsBytes)) :
    Spared K M s (t.resetCd d) :=
  resetRegs_die hK (zeroCd hM h d true hd) (by omega)

/-- A reduction memory holds no byte of a local store. -/
theorem resetLd (h : Spared K M s t) (l : Fin 6) : Spared K M s (t.resetLd l) := by
  have hz : Spared K M s (t.zeroRange (redBase l) 0x400000) := by
    refine h.zeroRange fun b hb => ?_
    obtain ⟨_, hlt, _⟩ := hM b hb
    unfold redBase
    omega
  unfold State.resetLd
  extract_lets st u v w
  have hu : Spared K M s u := endSession hK hz _ _
  have hv : Spared K M s v := resetRegs_die hK (clearContexts hK hu _) (by omega)
  have hw : Spared K M s w := hv.record rfl
  refine cond (fun _ => hw) fun _ => startTraining hK (hw.put _ _ (not_of_le hK ?_)) _
  unfold R.LK_STATUS ldBase
  omega

end
end

/-! ### A canton's reset -/

theorem cantons_eq (h : Spared K M s t) (ha : K R.ARCH_CFG) : t.cantons = s.cantons := by
  unfold State.cantons State.get
  rw [h.rd _ ha]

theorem cantonCds_eq (h : Spared K M s t) (ha : K R.ARCH_CFG) (k : Nat) : t.cantonCds k = s.cantonCds k := by
  unfold State.cantonCds State.colCanton
  rw [h.cantons_eq ha]

section
variable {k : Nat} (hK : ∀ a, K a → a < 0x100000) (hM : ∀ a, M a → inLs a)
include hK hM

/-- Step 4 of the scrub. -/
theorem zeroCanton (h : Spared K M s t) (ha : K R.ARCH_CFG)
    (hd : ∀ d ∈ s.cantonCds k, ∀ b, M b → ¬ (lsBase (fin40 d) ≤ b ∧ b < lsBase (fin40 d) + lsBytes)) :
    Spared K M s (t.zeroCanton k) := by
  have h1 : Spared K M s (t.clearContexts (fun g => t.gCanton g == k)) := clearContexts hK h _
  have h2 := foldl (l := (t.clearContexts (fun g => t.gCanton g == k)).cantonCds k)
    (g := fun t d => (t.zeroCd (fin40 d) false).put (R.ARITH_SR_STATUS (cdBase d)) F.ARITH_SR_STATUS_SEEDED 0)
    (fun u d hm hu => by
      rw [h1.cantonCds_eq ha] at hm
      exact (zeroCd hM hu (fin40 d) false (hd d hm)).put _ _
          (not_of_le hK (by unfold R.ARITH_SR_STATUS cdBase; omega))) h1
  exact foldl (fun u m _ hu => (zeroMd hK hM hu _).put _ _
      (not_of_le hK (by unfold R.ARITH_SR_STATUS mdBase; omega))) h2

omit hK hM in
theorem scrubbing (h : Spared K M s t) (hp : ¬ K (R.CPOL_STATUS k)) (hs : ¬ K (R.SCRUB_STATUS k)) :
    Spared K M s (t.scrubbing k) := by
  unfold State.scrubbing
  extract_lets sec u
  have hu : Spared K M s u := cond (fun _ => h.record rfl) fun _ => h
  exact ((hu.put _ _ hp).put _ _ hp).put _ _ hs

/-- Steps 3-5 of the scrub: of the trust die's registers they write those of the canton. -/
theorem scrubErase (h : Spared K M s t) (ha : K R.ARCH_CFG) (hp : ¬ K (R.CPOL_STATUS k)) (hs : ¬ K (R.SCRUB_STATUS k))
    (hd : ∀ d ∈ s.cantonCds k, ∀ b, M b → ¬ (lsBase (fin40 d) ≤ b ∧ b < lsBase (fin40 d) + lsBytes)) :
    Spared K M s (t.scrubErase k) :=
  record (put (scrubbing (freshKeys hK (zeroCanton hK hM (eraseKeys hK h k) ha hd) k) hp hs) _ _ hs) rfl

/-- A canton's dies reset and its view cleared. -/
theorem crstDies (h : Spared K M s t) (ha : K R.ARCH_CFG) (hv : ∀ a, K a → cantonView k a = false)
    (hd : ∀ d ∈ s.cantonCds k, ∀ b, M b → ¬ (lsBase (fin40 d) ≤ b ∧ b < lsBase (fin40 d) + lsBytes)) :
    Spared K M s (t.crstDies k) := by
  have h1 : Spared K M s (t.clearContexts (fun g => t.gCanton g == k)) := clearContexts hK h _
  have h2 := foldl (l := (t.clearContexts (fun g => t.gCanton g == k)).cantonCds k)
    (g := fun t d => t.resetCd (fin40 d))
    (fun u d hm hu => by
      rw [h1.cantonCds_eq ha] at hm
      exact resetCd hK hM hu (fin40 d) (hd d hm)) h1
  exact record (resetRegs (foldl (fun u m _ hu => resetMd hK hM hu _) h2) _ hv) rfl

/-- The end of a canton's reset. -/
theorem crstEnd (h : Spared K M s t) (st : Nat) (ha : K R.ARCH_CFG) (hw : ¬ K R.PWR_STATUS)
    (hp : ¬ K (R.CPOL_STATUS k)) (hs : ¬ K (R.SCRUB_STATUS k))
    (hd : ∀ d ∈ s.cantonCds k, ∀ b, M b → ¬ (lsBase (fin40 d) ≤ b ∧ b < lsBase (fin40 d) + lsBytes)) :
    Spared K M s (t.crstEnd k st) := by
  have h1 : Spared K M s
      { t with rel := { t.rel with containAt := t.rel.containAt.filter (fun (x : Nat × Nat) => x.1 != k) } } :=
    h.trans ⟨fun _ _ => rfl, fun _ _ => rfl, fun _ hb => hb, rfl, rfl, rfl,
      fun _ hx => List.mem_of_mem_filter hx, fun _ hx => hx, rfl, rfl⟩
  unfold State.crstEnd
  extract_lets rel u parked v
  have hv : Spared K M s v := h1.put _ _ hw
  exact cond (fun _ => foldl (fun u l _ hu => forceRekey hK hu l _) (eraseKeys hK hv k))
    fun _ => scrubErase hK hM hv ha hp hs hd
end

end Spared

/-! ### Operations that change registers alone -/

/-- The second state differs from the first in registers alone. -/
def RegsOnly (s t : State) : Prop := t = { s with regs := t.regs }

namespace RegsOnly
variable {s t : State}

theorem refl (s : State) : RegsOnly s s := rfl

theorem trans {u : State} (h : RegsOnly s t) (k : RegsOnly t u) : RegsOnly s u := by
  unfold RegsOnly at h k ⊢
  rw [k, h]

theorem wr (h : RegsOnly s t) (a : Nat) (x : W32) : RegsOnly s (t.wr a x) := h.trans rfl

theorem put (h : RegsOnly s t) (a : Nat) (f : Fld) (n : Nat) : RegsOnly s (t.put a f n) := h.trans rfl

theorem foldl {α : Type} {g : State → α → State} {l : List α} (hg : ∀ u x, RegsOnly s u → RegsOnly s (g u x))
    (h : RegsOnly s t) : RegsOnly s (l.foldl g t) := by
  induction l generalizing t with
  | nil => exact h
  | cons x l ih => exact ih (hg t x h)

end RegsOnly

/-- What no step of a fold changes. -/
theorem proj_foldl {α β : Type} (proj : State → β) {g : State → α → State} {l : List α}
    (hg : ∀ u, ∀ x ∈ l, proj (g u x) = proj u) (s : State) : proj (l.foldl g s) = proj s := by
  induction l generalizing s with
  | nil => rfl
  | cons x l ih =>
    exact (ih (fun u y hy => hg u y (List.mem_cons_of_mem _ hy)) _).trans (hg s x List.mem_cons_self)

/-- A register that no step of a fold writes. -/
theorem rd_foldl {α : Type} {g : State → α → State} {l : List α} {a : Nat}
    (hg : ∀ u, ∀ x ∈ l, (g u x).rd a = u.rd a) (s : State) : (l.foldl g s).rd a = s.rd a :=
  proj_foldl (State.rd · a) hg s

/-! ### Dies put into reset and taken out of it -/

theorem trainFabric_regsOnly (s : State) (log : Nat) : RegsOnly s (s.trainFabric log) :=
  RegsOnly.foldl (fun _ _ h => (h.put _ _ _).put _ _ _) (.refl s)

/-- Training of the fabric writes the ports' registers alone. -/
theorem rd_trainFabric (s : State) (log : Nat) {a : Nat} (h : ∀ d, d < 64 → a ≠ R.FAB_PORT_STATUS (dieCrs d)) :
    (s.trainFabric log).rd a = s.rd a :=
  rd_foldl (fun u d hd => by
    have := h d (List.mem_range.mp hd)
    rw [State.rd_put_of_ne _ _ _ this, State.rd_put_of_ne _ _ _ this]) s

/-- The dies that are in reset after `holdDies`. -/
def heldBy (s : State) (ds : List Nat) (hold : Bool) : Vector Bool 64 :=
  s.inReset.mapFinIdx (fun i x _ => if ds.contains i then hold else x)

theorem getElem_heldBy (s : State) (ds : List Nat) (hold : Bool) (d : Fin 64) :
    (heldBy s ds hold)[d] = if ds.contains d.val then hold else s.inReset[d] := by
  simp [heldBy]

theorem heldBy_nil (s : State) (hold : Bool) : heldBy s [] hold = s.inReset := by
  apply Vector.ext
  intro i hi
  simp [heldBy]

/-- Holding dies changes registers of the fabric's ports and the dies in reset. -/
theorem holdDies_eq (s : State) (ds : List Nat) (hold : Bool) :
    s.holdDies ds hold = { s with regs := (s.holdDies ds hold).regs, inReset := heldBy s ds hold } := by
  unfold State.holdDies
  cases ds with
  | nil => rw [heldBy_nil]; rfl
  | cons d ds => exact trainFabric_regsOnly _ _

theorem rd_holdDies (s : State) (ds : List Nat) (hold : Bool) {a : Nat}
    (h : ∀ d, d < 64 → a ≠ R.FAB_PORT_STATUS (dieCrs d)) : (s.holdDies ds hold).rd a = s.rd a := by
  unfold State.holdDies
  cases ds with
  | nil => rfl
  | cons d ds => exact rd_trainFabric _ _ h

/-- No register of the trust die from 0x1000 on is one of a fabric port. -/
theorem ne_fabPortStatus {a : Nat} (hlo : 0xF20 ≤ a) (hhi : a < 0x100000) (d : Nat) (_ : d < 64) :
    a ≠ R.FAB_PORT_STATUS (dieCrs d) := by
  unfold R.FAB_PORT_STATUS dieCrs
  split
  · unfold cdBase; omega
  · split
    · unfold mdBase; omega
    · split
      · unfold ldBase; omega
      · split
        · unfold hdBase; omega
        · unfold tdBase; omega

end Sys2Proof.Machine
end

section
/-! What a canton's reset gives. -/
namespace Sys2Proof.Machine

/-! ### What a canton's reset gives -/

/-- The registers of a canton's view that the trust die holds are its cadence registers. -/
theorem cantonView_of_td {k a : Nat} (hlt : a < 0x100000) (h : a < 0x400 ∨ k < 8 ∧ 0x600 ≤ a) :
    cantonView k a = false := by
  rw [cantonView, crsDie_of_lt hlt]
  simp only [Bool.and_eq_false_iff, decide_eq_false_iff_not]
  omega

section
variable {K M : Nat → Prop} {s t : State} {k : Nat}

/-- A canton's reset, of the trust die's registers, writes its cadence registers, CONT_STATUS, PWR_STATUS and the
canton's two status registers. -/
theorem Spared.crst (h : Spared K M s t) (hK : ∀ a, K a → a < 0x100000 ∧ (a < 0x400 ∨ k < 8 ∧ 0x600 ≤ a))
    (hM : ∀ a, M a → inLs a) (ha : K R.ARCH_CFG) (hc : ¬ K R.CONT_STATUS) (hw : ¬ K R.PWR_STATUS)
    (hp : ¬ K (R.CPOL_STATUS k)) (hs : ¬ K (R.SCRUB_STATUS k))
    (hd : ∀ d ∈ s.cantonCds k, ∀ b, M b → ¬ (lsBase (fin40 d) ≤ b ∧ b < lsBase (fin40 d) + lsBytes)) :
    Spared K M s (t.crst k) := by
  have hK' : ∀ a, K a → a < 0x100000 := fun a ka => (hK a ka).1
  rw [State.crst_eq]
  exact Spared.crstEnd hK' hM
    ((Spared.crstDies hK' hM h ha (fun a ka => cantonView_of_td (hK a ka).1 (hK a ka).2) hd).put _ _ hc) _ ha hw hp
        hs hd

/-- The shape is left apart, and no byte of memory is. -/
theorem crst_spared (s : State) (k : Nat) : Spared (· = R.ARCH_CFG) (fun _ => False) s (s.crst k) := by
  refine Spared.crst (.refl s) ?_ (fun _ h => h.elim) rfl ?_ ?_ ?_ ?_ (fun _ _ _ h => h.elim)
  · rintro a rfl; unfold R.ARCH_CFG tdBase; omega
  · unfold R.ARCH_CFG R.CONT_STATUS tdBase; omega
  · unfold R.ARCH_CFG R.PWR_STATUS tdBase; omega
  · unfold R.ARCH_CFG R.CPOL_STATUS tdBase; omega
  · unfold R.ARCH_CFG R.SCRUB_STATUS tdBase; omega

/-- Taking bit k out of a number of eight bits. -/
theorem testBit_clear : ∀ n, n < 256 → ∀ k, k < 8 →
    ((if n.testBit k then n - 2 ^ k else n) % 256).testBit k = false := by
  decide +kernel

theorem get_lt (s : State) (a : Nat) (f : Fld) : s.get a f < 2 ^ (f.1 + 1 - f.2) :=
  Nat.mod_lt _ (Nat.two_pow_pos _)

theorem crstCfatal_cfatal (t : State) (hk : k < 8) :
    ((t.crstCfatal k).get R.CONT_STATUS F.CONT_STATUS_CFATAL).testBit k = false := by
  unfold State.crstCfatal
  rw [State.get_put_self _ _ _ _ (by decide) (by decide)]
  exact testBit_clear _ (get_lt t R.CONT_STATUS F.CONT_STATUS_CFATAL) k hk

/-- The containment bit of the canton is clear after its reset. -/
theorem crst_cfatal (s : State) (hk : k < 8) :
    ((s.crst k).get R.CONT_STATUS F.CONT_STATUS_CFATAL).testBit k = false := by
  have h : Spared (fun a => a = R.ARCH_CFG ∨ a = R.CONT_STATUS) (fun _ => False) ((s.crstDies k).crstCfatal k)
      (s.crst k) := by
    rw [State.crst_eq]
    refine Spared.crstEnd ?_ (fun _ h => h.elim) (.refl _) _ (.inl rfl) ?_ ?_ ?_ (fun _ _ _ h => h.elim)
    · rintro a (rfl | rfl) <;> decide
    all_goals unfold R.ARCH_CFG R.CONT_STATUS tdBase
    · unfold R.PWR_STATUS tdBase; omega
    · unfold R.CPOL_STATUS tdBase; omega
    · unfold R.SCRUB_STATUS tdBase; omega
  unfold State.get
  rw [h.rd _ (.inr rfl)]
  exact crstCfatal_cfatal _ hk

/-! ### The canton that a reset scrubs -/

/-- The state that `scrubbing` writes its registers in: PEND of an overwrite still owed noted. -/
theorem scrubbing_eq (t : State) (k : Nat) : ∃ u : State, t.scrubbing k =
    ((u.put (R.CPOL_STATUS k) F.CPOL_STATUS_STATE 2).put (R.CPOL_STATUS k) F.CPOL_STATUS_CONSENT 0).put
      (R.SCRUB_STATUS k) F.SCRUB_STATUS_PEND 1 := ⟨_, rfl⟩

theorem cpol_ne_scrub (j k : Nat) : R.CPOL_STATUS j ≠ R.SCRUB_STATUS k := by
  unfold R.CPOL_STATUS R.SCRUB_STATUS
  omega

/-- The registers of a canton whose scrub has come to step 5. -/
theorem scrubErase_status (t : State) (k : Nat) :
    (t.scrubErase k).polState k = 2 ∧ (t.scrubErase k).get (R.SCRUB_STATUS k) F.SCRUB_STATUS_STEP = 5 ∧
      (t.scrubErase k).flag (R.SCRUB_STATUS k) F.SCRUB_STATUS_PEND = true := by
  obtain ⟨u, hu⟩ := scrubbing_eq (((t.eraseKeys k).zeroCanton k).freshKeys k) k
  have e (a : Nat) (f : Fld) : (t.scrubErase k).get a f =
      (((((u.put (R.CPOL_STATUS k) F.CPOL_STATUS_STATE 2).put (R.CPOL_STATUS k) F.CPOL_STATUS_CONSENT 0).put
      (R.SCRUB_STATUS k) F.SCRUB_STATUS_PEND 1).put (R.SCRUB_STATUS k) F.SCRUB_STATUS_STEP 5).get a f) := by
    rw [← hu]; rfl
  refine ⟨?_, ?_, ?_⟩
  · rw [State.polState, e, State.get_put_of_ne _ _ _ _ (cpol_ne_scrub k k),
        State.get_put_of_ne _ _ _ _ (cpol_ne_scrub k k),
      State.get_put_of_disjoint _ _ _ _ _ (by decide) (by decide) (by decide),
          State.get_put_self _ _ _ _ (by decide) (by decide)]
    rfl
  · rw [e, State.get_put_self _ _ _ _ (by decide) (by decide)]
    rfl
  · rw [State.flag, e, State.get_put_of_disjoint _ _ _ _ _ (by decide) (by decide) (by decide),
      State.get_put_self _ _ _ _ (by decide) (by decide)]
    rfl

theorem eraseKeys_keySlots (t : State) (k : Nat) : ∀ x ∈ (t.eraseKeys k).keySlots, x.1 ≠ k := by
  intro x hx
  have e : (t.eraseKeys k).keySlots = t.keySlots.filter (fun x => x.1 != k) := by
    unfold State.eraseKeys
    extract_lets c c' u v sec w
    exact proj_foldl State.keySlots (by intros; rfl) w
  rw [e] at hx
  simpa using List.of_mem_filter hx

/-- No key of the canton is left by the scrub. -/
theorem scrubErase_keySlots (t : State) (k : Nat) : ∀ x ∈ (t.scrubErase k).keySlots, x.1 ≠ k := by
  intro x hx
  have hK : ∀ a, a = R.ARCH_CFG → a < 0x100000 := by rintro a rfl; decide
  have hp : R.CPOL_STATUS k ≠ R.ARCH_CFG := by unfold R.CPOL_STATUS R.ARCH_CFG; omega
  have hs : R.SCRUB_STATUS k ≠ R.ARCH_CFG := by unfold R.SCRUB_STATUS R.ARCH_CFG; omega
  have h : Spared (· = R.ARCH_CFG) (fun _ => False) (t.eraseKeys k) (t.scrubErase k) :=
    Spared.record (Spared.put (Spared.scrubbing (Spared.freshKeys hK
      (Spared.zeroCanton hK (fun _ m => m.elim) (.refl _) rfl fun _ _ _ m => m.elim) k) hp hs) _ _ hs) rfl
  exact eraseKeys_keySlots t k x (h.keySlots x hx)

/-! ### Local stores after a canton's reset -/

/-- The bytes of a compute die's local store. -/
def inLsOf (d : Fin 40) (a : Nat) : Prop := lsBase d ≤ a ∧ a < lsBase d + lsBytes

theorem inLs_of_inLsOf {d : Fin 40} {a : Nat} (h : inLsOf d a) : inLs a := by
  obtain ⟨hlo, hhi⟩ := h
  have := d.isLt
  unfold lsBase lsBytes at *
  refine ⟨?_, ?_, ?_⟩ <;> omega

theorem inLsOf_unique {d e : Fin 40} {a : Nat} (h : inLsOf d a) (k : inLsOf e a) : d = e := by
  obtain ⟨hlo, hhi⟩ := h
  obtain ⟨klo, khi⟩ := k
  unfold lsBase lsBytes at *
  exact Fin.ext (by omega)

/-- What one step of a fold brings about and no step undoes. -/
theorem foldl_reaches {α : Type} {P : State → Prop} {g : State → α → State} {l : List α} {x : α} (hx : x ∈ l)
    (hkeep : ∀ u, ∀ y ∈ l, P u → P (g u y)) (hreach : ∀ u, P (g u x)) (s : State) : P (l.foldl g s) := by
  induction l generalizing s with
  | nil => cases hx
  | cons y l ih =>
    obtain rfl | hm := List.mem_cons.mp hx
    · refine List.foldlRecOn (motive := P) l g (hreach s) fun u hu z hz => ?_
      exact hkeep u z (List.mem_cons_of_mem _ hz) hu
    · exact ih hm (fun u z hz => hkeep u z (List.mem_cons_of_mem _ hz)) _

theorem fin40_val (d : Fin 40) : fin40 d.val = d := Fin.ext (Nat.mod_eq_of_lt d.isLt)

/-- The local stores of the canton's compute dies read 0 after its dies were reset. -/
theorem crstDies_byte (s : State) {k d : Nat} (hd : d ∈ s.cantonCds k) {a : Nat} (ha : inLsOf (fin40 d) a) :
    (s.crstDies k).byte a = 0 := by
  have hK : ∀ a, a = R.ARCH_CFG → a < 0x100000 := by rintro a rfl; decide
  have hM : ∀ a, (fun _ => False) a → inLs a := fun _ h => h.elim
  have h1 : Spared (· = R.ARCH_CFG) (fun _ => False) s (s.clearContexts (fun g => s.gCanton g == k)) :=
    Spared.clearContexts hK (.refl s) _
  unfold State.crstDies
  extract_lets u v w x
  have hv : v.byte a = 0 := by
    refine foldl_reaches (P := fun u => u.byte a = 0) (x := d) (by rwa [h1.cantonCds_eq rfl]) (fun y e _ hy => ?_)
        (fun y => ?_) u
    · exact (Spared.resetCd hK hM (.refl y) (fin40 e) fun _ m => m.elim).fade a hy
    · exact (byte_zeroCd y (fin40 d) true a).trans (if_pos (.inl ha))
  have hw : Spared (· = R.ARCH_CFG) (fun _ => False) v w :=
    Spared.foldl (fun y m _ hy => Spared.resetMd hK hM hy _) (.refl v)
  exact hw.fade a hv

/-- What a canton's reset leaves of the local stores: those of its compute dies read 0, the others read as before. -/
theorem crst_byte (s : State) {k : Nat} {d : Fin 40} {a : Nat} (ha : inLsOf d a) :
    (s.crst k).byte a = if d.val ∈ s.cantonCds k then 0 else s.byte a := by
  have hp : R.CPOL_STATUS k ≠ R.ARCH_CFG := by unfold R.CPOL_STATUS R.ARCH_CFG; omega
  have hs : R.SCRUB_STATUS k ≠ R.ARCH_CFG := by unfold R.SCRUB_STATUS R.ARCH_CFG; omega
  split
  · next hd =>
    have hz : ((s.crstDies k).crstCfatal k).byte a = 0 :=
      crstDies_byte s hd (show inLsOf (fin40 d.val) a by rwa [fin40_val])
    have h : Spared (· = R.ARCH_CFG) (fun _ => False) ((s.crstDies k).crstCfatal k)
        (((s.crstDies k).crstCfatal k).crstEnd k (s.polState k)) :=
      Spared.crstEnd (by rintro a rfl; decide) (fun _ m => m.elim) (.refl _) _ rfl (by decide) hp hs fun _ _ _ m =>
          m.elim
    exact h.fade a hz
  · next hd =>
    have h : Spared (· = R.ARCH_CFG) (inLsOf d) s (s.crst k) := by
      refine Spared.crst (.refl s) (by rintro a rfl; exact ⟨by decide, .inl (by decide)⟩)
          (fun _ m => inLs_of_inLsOf m) rfl (by decide) (by decide)
        hp hs fun e he b hb hb' => hd ?_
      have hlt : e < 40 := List.mem_range.mp (List.mem_of_mem_filter he)
      rw [inLsOf_unique hb hb']
      simpa [fin40, Nat.mod_eq_of_lt hlt] using he
    exact h.byte a ha

end

end Sys2Proof.Machine
end

section
/-! What the steps of a start leave alone, and where a start ends. -/
namespace Sys2Proof.Machine

/-! ### What the steps of a start leave alone -/

/-- The registers that record why the module starts, how often it was reset, and the state of each canton. -/
def startRecord (a : Nat) : Prop := a = R.RST_CAUSE ∨ a = R.RST_COUNT ∨ ∃ k, k < 8 ∧ a = R.CPOL_STATUS k

/-- Registers a start may write whole: those outside the canton states, BOOT_STATUS and the records of resets. -/
def startMayWrite (a : Nat) : Bool :=
  (decide (a < 0x1100) || decide (0x1180 ≤ a)) && a != 0x2000 && a != 0x2014 && a != 0x2018

theorem startMayWrite_of_lt {a : Nat} (h : a < 0x1100) : startMayWrite a = true := by
  have h0 : a ≠ 0x2000 := by omega
  have h1 : a ≠ 0x2014 := by omega
  have h2 : a ≠ 0x2018 := by omega
  simp [startMayWrite, h, h0, h1, h2]

theorem startMayWrite_of_le {a : Nat} (h : 0x2020 ≤ a) : startMayWrite a = true := by
  have h0 : a ≠ 0x2000 := by omega
  have h1 : a ≠ 0x2014 := by omega
  have h2 : a ≠ 0x2018 := by omega
  have h3 : 0x1180 ≤ a := by omega
  simp [startMayWrite, h0, h1, h2, h3]

theorem not_startRecord {a : Nat} (h : startMayWrite a = true) : ¬ startRecord a := by
  simp only [startMayWrite, Bool.and_eq_true, Bool.or_eq_true, decide_eq_true_eq, bne_iff_ne] at h
  obtain ⟨⟨⟨h, h0⟩, h1⟩, h2⟩ := h
  rintro (rfl | rfl | ⟨k, hk, rfl⟩)
  · exact h1 rfl
  · exact h2 rfl
  · unfold R.CPOL_STATUS tdBase at h
    omega

theorem bootStatus_ne {a : Nat} (h : startMayWrite a = true) : R.BOOT_STATUS ≠ a := by
  rintro rfl
  exact absurd h (by decide)

/-- What the steps of a start leave alone: the registers above, the kind of start, memory, keys, releases, the host's
side, all events raised before; and the identity where the start is no POR. -/
structure StartKeeps (por : Bool) (s t : State) : Prop where
  rd : ∀ a, startRecord a → t.rd a = s.rd a
  start : t.get R.BOOT_STATUS F.BOOT_STATUS_START = s.get R.BOOT_STATUS F.BOOT_STATUS_START
  mem : t.mem = s.mem
  keySlots : t.keySlots = s.keySlots
  releases : t.releases = s.releases
  host : t.host = s.host
  identity : por = false → t.sec.identity = s.sec.identity
  events : ∃ l, t.events = s.events ++ l

/-- The parts of the state that `StartKeeps` speaks of, but for the events. -/
def State.startFields (s : State) := (s.regs, s.mem, s.keySlots, s.releases, s.host, s.sec.identity)

namespace StartKeeps
variable {por : Bool} {s t u : State}

theorem refl (s : State) : StartKeeps por s s :=
  ⟨fun _ _ => rfl, rfl, rfl, rfl, rfl, rfl, fun _ => rfl, [], (List.append_nil _).symm⟩

theorem trans (h : StartKeeps por s t) (k : StartKeeps por t u) : StartKeeps por s u := by
  obtain ⟨l, hl⟩ := h.events
  obtain ⟨m, hm⟩ := k.events
  exact ⟨fun a ha => (k.rd a ha).trans (h.rd a ha), k.start.trans h.start, k.mem.trans h.mem,
      k.keySlots.trans h.keySlots,
    k.releases.trans h.releases, k.host.trans h.host, fun hp => (k.identity hp).trans (h.identity hp), l ++ m,
    by rw [hm, hl, List.append_assoc]⟩

theorem cond {c : Prop} {d : Decidable c} (h : c → StartKeeps por s t) (k : ¬ c → StartKeeps por s u) :
    StartKeeps por s (@ite State c d t u) := by
  by_cases e : c
  · rw [if_pos e]; exact h e
  · rw [if_neg e]; exact k e

theorem foldl {α : Type} {g : State → α → State} {l : List α}
    (hg : ∀ u, ∀ x ∈ l, StartKeeps por s u → StartKeeps por s (g u x)) (h : StartKeeps por s t) :
    StartKeeps por s (l.foldl g t) :=
  List.foldlRecOn (motive := StartKeeps por s) l g h fun u hu x hx => hg u x hx hu

/-- A change of fields that `StartKeeps` does not speak of, or of the events by what is added to them. -/
theorem record (h : StartKeeps por s t) (e : u.startFields = t.startFields) (l : List Event)
    (hl : u.events = t.events ++ l) : StartKeeps por s u := by
  simp only [State.startFields, Prod.mk.injEq] at e
  obtain ⟨e1, e2, e3, e4, e5, e6⟩ := e
  have hrd (a : Nat) : u.rd a = t.rd a := by unfold State.rd; rw [e1]
  exact h.trans ⟨fun a _ => hrd a, by unfold State.get; rw [hrd], e2, e3, e4, e5, fun _ => e6, l, hl⟩

theorem setPwr (h : StartKeeps por s t) (x : PowerState) : StartKeeps por s (t.setPwr x) :=
  h.record rfl [] (List.append_nil _).symm

theorem setRel (h : StartKeeps por s t) (x : RelState) : StartKeeps por s (t.setRel x) :=
  h.record rfl [] (List.append_nil _).symm

theorem setMd (h : StartKeeps por s t) (m : Fin 16) (x : MDie) : StartKeeps por s (t.setMd m x) :=
  h.record rfl [] (List.append_nil _).symm

theorem setEng (h : StartKeeps por s t) (m : Fin 16) (x : Seal) : StartKeeps por s (t.setEng m x) := h.setMd _ _

theorem raise (h : StartKeeps por s t) (code die : Nat) (c : Option Nat) (det : List Byte) :
    StartKeeps por s (t.raise code die c det) :=
  h.record rfl [_] rfl

theorem wr (h : StartKeeps por s t) {a : Nat} (x : W32) (ha : startMayWrite a = true) : StartKeeps por s (t.wr a x) :=
  h.trans ⟨fun _ hb => State.rd_wr_of_ne _ _ fun e => not_startRecord ha (e ▸ hb),
    State.get_wr_of_ne _ _ _ (bootStatus_ne ha), rfl, rfl, rfl, rfl, fun _ => rfl, [], (List.append_nil _).symm⟩

theorem put (h : StartKeeps por s t) {a : Nat} (f : Fld) (n : Nat) (ha : startMayWrite a = true) :
    StartKeeps por s (t.put a f n) :=
  h.wr _ ha

/-- A field of BOOT_STATUS other than START. -/
theorem putBoot (h : StartKeeps por s t) {f : Fld} (n : Nat) (hf : f.2 ≤ f.1) (hd : f.1 < 4 ∨ 6 < f.2) :
    StartKeeps por s (t.put R.BOOT_STATUS f n) := by
  have hne (a : Nat) (ha : startRecord a) : a ≠ R.BOOT_STATUS := by
    rintro rfl
    obtain h | h | ⟨k, hk, h⟩ := ha
    · exact absurd h (by decide)
    · exact absurd h (by decide)
    · unfold R.BOOT_STATUS R.CPOL_STATUS at h; omega
  exact h.trans ⟨fun a ha => State.rd_put_of_ne _ _ _ (hne a ha),
    State.get_put_of_disjoint _ _ _ _ _ hf (by decide) hd, rfl, rfl, rfl, rfl, fun _ => rfl, [],
        (List.append_nil _).symm⟩

/-! ### The steps -/

theorem deferSync (h : StartKeeps por s t) : StartKeeps por s t.deferSync := by
  unfold State.deferSync
  extract_lets held u v w
  have hw : StartKeeps por s w := ((h.put _ _ (by decide)).put _ _ (by decide)).put _ _ (by decide)
  exact cond (fun _ => hw.setPwr _) fun _ => hw

theorem nvAsk (h : StartKeeps por s t) (l : List NvWrite) : StartKeeps por s (t.nvAsk l) :=
  deferSync (h.setPwr _)

theorem lastGasp (h : StartKeeps por s t) (cause : Nat) : StartKeeps por s (t.lastGasp cause) :=
  deferSync ((h.setPwr _).setRel _)

theorem openLog (h : StartKeeps por s t) : StartKeeps por s t.openLog := by
  unfold State.openLog
  split
  · exact (h.wr _ (by decide)).setRel _
  · extract_lets u
    have hu : StartKeeps por s u := h.wr _ (by decide)
    split
    · exact hu.setRel _
    · exact hu.setRel _

theorem openGasp (h : StartKeeps por s t) : StartKeeps por s t.openGasp := by
  unfold State.openGasp
  extract_lets best
  clear_value best
  split
  · exact h
  next p n =>
    extract_lets a u rel v ahead w
    have hu : StartKeeps por s u := foldl (fun _ i _ hx => hx.wr _ (startMayWrite_of_le (by unfold R.LG_REC; omega))) h
    have hv : StartKeeps por s v := cond (fun _ => hu.setRel _) fun _ => hu
    have hw : StartKeeps por s w := cond (fun _ => hv) fun _ => nvAsk hv _
    exact cond (fun _ => (hw.setRel _).raise _ _ _ _) fun _ => hw

theorem start1 (h : StartKeeps por s t) (env : StartEnv) : StartKeeps por s (t.start1 env) := by
  unfold State.start1
  exact openGasp (openLog ((((h.setPwr _).putBoot _ (by decide) (by decide)).put _ _ (by decide)).put _ _ (by decide)))

theorem start2 (h : StartKeeps por s t) (env : StartEnv) : StartKeeps por s (t.start2 env) := by
  unfold State.start2
  extract_lets uf u
  have hu : StartKeeps por s u := (h.put _ _ (by decide)).put _ _ (by decide)
  exact cond (fun _ => (hu.put _ _ (by decide)).raise _ _ _ _) fun _ => hu

theorem showFail (h : StartKeeps por s t) : StartKeeps por s t.showFail :=
  (h.wr _ (by decide)).wr _ (by decide)

theorem showSlots (h : StartKeeps por s t) (imgs : List BootImage) : StartKeeps por s (t.showSlots imgs) := by
  refine foldl (fun u k _ hu => ?_) h
  extract_lets x v
  have hv : StartKeeps por s v := hu.put _ _ (by decide)
  exact cond (fun _ => hv.put _ _ (by decide)) fun _ => (hv.put _ _ (by decide)).raise _ _ _ _

theorem trainFabric (h : StartKeeps por s t) (log : Nat) : StartKeeps por s (t.trainFabric log) := by
  have ha (d : Nat) : startMayWrite (R.FAB_PORT_STATUS (dieCrs d)) = true := by
    unfold R.FAB_PORT_STATUS dieCrs
    split
    · exact startMayWrite_of_le (by unfold cdBase; omega)
    split
    · exact startMayWrite_of_le (by unfold mdBase; omega)
    split
    · exact startMayWrite_of_le (by unfold ldBase; omega)
    split
    · decide
    · decide
  exact foldl (fun u d _ hu => (hu.put _ _ (ha d)).put _ _ (ha d)) h

end StartKeeps

/-! ### The recovery profile -/

/-- A start that has ended in the recovery profile. -/
structure Recovered (por : Bool) (s t : State) : Prop where
  keeps : StartKeeps por s t
  phase : t.get R.BOOT_STATUS F.BOOT_STATUS_PHASE = 9

theorem get_congr {s t : State} {a : Nat} (h : t.rd a = s.rd a) (f : Fld) : t.get a f = s.get a f := by
  unfold State.get
  rw [h]

/-- Taking up what waits for the flash writes the three registers that show it. -/
theorem rd_deferSync (s : State) {a : Nat} (h1 : a ≠ R.PWR_HOLDUP) (h2 : a ≠ R.FL_STATUS) (h3 : a ≠ R.EVL_STATUS) :
    s.deferSync.rd a = s.rd a := by
  unfold State.deferSync
  extract_lets held u v w
  have hw : w.rd a = s.rd a := by
    unfold w v u
    rw [State.rd_put_of_ne _ _ _ h3, State.rd_put_of_ne _ _ _ h2, State.rd_put_of_ne _ _ _ h1]
  split
  · rw [State.rd_setPwr, hw]
  · exact hw

theorem rd_lastGasp (s : State) (cause : Nat) {a : Nat} (h1 : a ≠ R.PWR_HOLDUP) (h2 : a ≠ R.FL_STATUS)
    (h3 : a ≠ R.EVL_STATUS) : (s.lastGasp cause).rd a = s.rd a := by
  unfold State.lastGasp
  dsimp only
  rw [rd_deferSync _ h1 h2 h3, State.rd_setRel, State.rd_setPwr]

theorem Recovered.raise {por : Bool} {s t : State} (h : Recovered por s t) (code die : Nat) (c : Option Nat)
    (det : List Byte) :
    Recovered por s (t.raise code die c det) :=
  ⟨h.keeps.raise _ _ _ _, (get_congr (State.rd_raise _ _ _ _ _ _) _).trans h.phase⟩

theorem Recovered.setRel {por : Bool} {s t : State} (h : Recovered por s t) (x : RelState) : Recovered por s
    (t.setRel x) :=
  ⟨h.keeps.setRel _, (get_congr (State.rd_setRel _ _ _) _).trans h.phase⟩

theorem Recovered.wr {por : Bool} {s t : State} (h : Recovered por s t) {a : Nat} (x : W32)
    (ha : startMayWrite a = true) :
    Recovered por s (t.wr a x) :=
  ⟨h.keeps.wr _ ha, (State.get_wr_of_ne _ _ _ (bootStatus_ne ha)).trans h.phase⟩

theorem StartKeeps.recoverStart {por : Bool} {s t : State} (h : StartKeeps por s t) (rcause : Nat) :
    Recovered por s (t.recoverStart rcause) := by
  unfold State.recoverStart
  extract_lets u v pwr w rel x
  have hu : Recovered por s u := by
    refine ⟨(h.putBoot _ (by decide) (by decide)).putBoot _ (by decide) (by decide), ?_⟩
    unfold u
    rw [State.get_put_of_disjoint _ _ _ _ _ (by decide) (by decide) (by decide),
        State.get_put_self _ _ _ _ (by decide) (by decide)]
    rfl
  have hw : Recovered por s w :=
    ⟨(hu.keeps.record rfl [] (List.append_nil _).symm : StartKeeps por s v).setPwr _,
      (get_congr (State.rd_setPwr _ _ _) _).trans hu.phase⟩
  have hx : Recovered por s x := by
    unfold x
    split
    · exact hw.setRel _
    · exact hw
  split
  · exact ⟨hx.keeps.lastGasp _, (get_congr (rd_lastGasp _ _ (by decide) (by decide) (by decide)) _).trans hx.phase⟩
  · exact hx

/-! ### The stages -/

/-- A stage either goes on, or has ended in the recovery profile. -/
structure StartStage (por : Bool) (s : State) (r : Stage) : Prop where
  ok_of : ∀ t, r = .ok t → StartKeeps por s t
  error_of : ∀ t, r = .error t → Recovered por s t

namespace StartStage
variable {por : Bool} {s t : State}

theorem ok (h : StartKeeps por s t) : StartStage por s (.ok t) :=
  ⟨fun _ e => (by cases e; exact h), fun _ e => (by cases e)⟩

theorem error (h : Recovered por s t) : StartStage por s (.error t) :=
  ⟨fun _ e => (by cases e), fun _ e => (by cases e; exact h)⟩

theorem bind {r : Stage} {f : State → Stage} (h : StartStage por s r)
    (hf : ∀ t, StartKeeps por s t → StartStage por s (f t)) : StartStage por s (r >>= f) := by
  cases r with
  | ok t => exact hf t (h.ok_of t rfl)
  | error t => exact error (h.error_of t rfl)

/-- Stages that go on to a state have their last one go on to it. -/
theorem eq_ok_of_bind {r : Stage} {f : State → Stage} (h : (r >>= f) = .ok t) : ∃ u, f u = .ok t := by
  cases r with
  | ok u => exact ⟨u, h⟩
  | error u => cases h

theorem cond {r q : Stage} {c : Prop} {d : Decidable c} (h : c → StartStage por s r) (k : ¬ c → StartStage por s q) :
    StartStage por s (@ite Stage c d r q) := by
  by_cases e : c
  · rw [if_pos e]; exact h e
  · rw [if_neg e]; exact k e

theorem recover380 (h : StartKeeps por s t) (rcause : Nat) : StartStage por s (t.recover380 rcause) :=
  error ((h.recoverStart rcause).raise _ _ _ _)

theorem start3 (h : StartKeeps por s t) (srst : Bool) : StartStage por s (t.start3 srst) := by
  unfold State.start3
  extract_lets new imgs pwr u
  have hu : StartKeeps por s u := ((h.putBoot _ (by decide) (by decide)).setPwr _).showSlots _
  refine cond (fun _ => recover380 hu _) fun _ => cond (fun _ => recover380 hu _) fun _ => cond
      (fun _ => recover380 hu _) fun _ => ?_
  split
  · exact recover380 hu _
  · exact cond (fun _ => recover380 hu _) fun _ => cond (fun _ => recover380 (hu.setPwr _) _) fun _ => ok (hu.setPwr _)

/-- Step 4 derives the identity at a POR alone. -/
theorem start4 (h : StartKeeps por s t) (env : StartEnv) : StartStage por s (t.start4 por env) := by
  unfold State.start4
  extract_lets u key sec v
  have hu : StartKeeps por s u := h.putBoot _ (by decide) (by decide)
  have hv : StartKeeps por s v := by
    have hs : StartKeeps por u (u.setSec { sec with identity := key }) := by
      refine ⟨fun _ _ => rfl, rfl, rfl, rfl, rfl, rfl, fun hp => ?_, [], (List.append_nil _).symm⟩
      show key = u.sec.identity
      unfold key
      rw [hp]
      rfl
    exact StartKeeps.put (hu.trans hs) _ _ (by decide)
  exact cond (fun _ => error ((hv.recoverStart _).raise _ _ _ _)) fun _ => ok hv

end StartStage

namespace StartKeeps
variable {por : Bool} {s t : State}

theorem start5 (h : StartKeeps por s t) (env : StartEnv) : StartKeeps por s (t.start5 env) := by
  unfold State.start5
  extract_lets u copies v stored old run map_ w x marks rel y z1 z2 z3 z4 seq
  have hu : StartKeeps por s u := h.putBoot _ (by decide) (by decide)
  have hv : StartKeeps por s v := foldl (fun _ _ _ hc => cond (fun _ => hc) fun _ => hc.raise _ _ _ _) hu
  have hw : StartKeeps por s w := foldl (fun _ _ _ hc => hc.raise _ _ _ _) hv
  have hx : StartKeeps por s x := foldl (fun _ _ _ hc => hc.raise _ _ _ _) hw
  have h1 : StartKeeps por s z1 := ((hx.setRel _ : StartKeeps por s y).put _ _ (by decide)).put _ _ (by decide)
  have h2 : StartKeeps por s z2 := (h1.put _ _ (by decide)).put _ _ (by decide)
  have h3 : StartKeeps por s z3 := ((h2.put _ _ (by decide)).wr _ (by decide)).showFail
  have h4 : StartKeeps por s z4 := h3.raise _ _ _ _
  exact cond (fun _ => h4) fun _ => h4.nvAsk _

theorem setDead (h : StartKeeps por s t) (log : Nat) : StartKeeps por s (t.setDead log) := by
  unfold State.setDead
  extract_lets badK dead u v
  have hu : StartKeeps por s u := h.record rfl [] (List.append_nil _).symm
  have hv : StartKeeps por s v := hu.put _ _ (by decide)
  exact hv.record rfl [] (List.append_nil _).symm

theorem setSlices (h : StartKeeps por s t) (log : Nat) (m : List Byte) : StartKeeps por s (t.setSlices log m) := by
  refine foldl (fun u k hk hu => ?_) h
  have hlt := List.mem_range.mp hk
  extract_lets size base spread
  refine ((hu.wr _ (startMayWrite_of_lt ?_)).wr _ (startMayWrite_of_lt ?_)).wr _ (startMayWrite_of_lt ?_)
  · unfold R.ARCH_CANTON_BASE tdBase; omega
  · unfold R.ARCH_CANTON_SIZE tdBase; omega
  · unfold R.ARCH_CANTON_SPREAD tdBase; omega

end StartKeeps

namespace StartStage
variable {por : Bool} {s t : State}

theorem start6 (h : StartKeeps por s t) (env : StartEnv) (srst : Bool) : StartStage por s (t.start6 env srst) := by
  unfold State.start6
  extract_lets log u keep more rel v w x rel' y badK z
  have hv : StartKeeps por s v := (h.putBoot _ (by decide) (by decide)).setRel _
  have hw : StartKeeps por s w := hv.record rfl [] (List.append_nil _).symm
  have hx : StartKeeps por s x := (hw.setDead _).trainFabric _
  have hy : StartKeeps por s y := .cond (fun _ => hx) fun _ => hx.setRel _
  have hz : StartKeeps por s z := .foldl (fun _ _ _ hc => hc.raise _ _ _ _) hy
  split
  · exact error ((hz.recoverStart _).raise _ _ _ _)
  · exact cond (fun _ => error ((hz.recoverStart _).raise _ _ _ _)) fun _ => ok hz

theorem start7 (h : StartKeeps por s t) (env : StartEnv) : StartStage por s (t.start7 env) := by
  unfold State.start7
  extract_lets u speed use fitted first fast v full w a
  have hu : StartKeeps por s u := h.putBoot _ (by decide) (by decide)
  have hv : StartKeeps por s v := by
    refine .foldl (fun c x _ hc => ?_) hu
    have hm : startMayWrite (R.MC_STATUS (x.1 / 2) (x.1 % 2)) = true :=
      startMayWrite_of_le (by unfold R.MC_STATUS mdBase; omega)
    exact (((hc.put _ _ hm).put _ _ hm).put _ _ hm).wr _ (startMayWrite_of_le (by unfold R.SEAL_DATAMIB mdBase; omega))
  have hw : StartKeeps por s w := by
    refine .foldl (fun c m _ hc => ?_) hv
    extract_lets e
    exact (hc.setEng _ _).put _ _ (startMayWrite_of_le (by unfold R.SEAL_STATUS mdBase; omega))
  split
  · exact error ((hu.recoverStart _).raise _ _ _ _)
  · exact ok (((hw.put _ _ (by decide)).put _ _ (by decide)).put _ _ (by decide))

theorem start8 (h : StartKeeps por s t) : StartStage por s t.start8 := by
  unfold State.start8
  extract_lets m log u len st bad v w x y z z'
  have hu : StartKeeps por s u := h.putBoot _ (by decide) (by decide)
  have hv : StartKeeps por s v := (hu.put _ _ (by decide)).setSlices _ _
  clear_value v
  have hw : StartKeeps por s w := hv.record rfl [] (List.append_nil _).symm
  have hx : StartKeeps por s x := (hw.wr _ (by decide)).wr _ (by decide)
  have hy : StartKeeps por s y := (((hx.wr _ (by decide)).wr _ (by decide)).wr _ (by decide)).wr _ (by decide)
  have hz : StartKeeps por s z :=
    .foldl (fun _ _ _ hc => hc.put _ _ (startMayWrite_of_le (by unfold R.LK_ARB ldBase; omega))) hy
  have hz' : StartKeeps por s z' := .cond (fun _ => hz) fun _ => .foldl (fun _ _ _ hc =>
    (hc.put _ _ (startMayWrite_of_le (by unfold R.LK_STATUS ldBase; omega))).raise _ _ _ _) hz
  exact cond (fun _ => recover380 hu _) fun _ => ok (hz'.putBoot _ (by decide) (by decide))

end StartStage

/-- A start whose eighth step goes on has come to PHASE 7. -/
theorem start8_phase {s t : State} (h : s.start8 = .ok t) : t.get R.BOOT_STATUS F.BOOT_STATUS_PHASE = 7 := by
  unfold State.start8 at h
  extract_lets m log u len st bad v w x y z z' at h
  split at h
  · cases h
  · cases h
    rw [State.get_put_self _ _ _ _ (by decide) (by decide)]
    rfl

/-! ### The whole start -/

/-- Where a start ends: at PHASE 7, or in the recovery profile. -/
theorem startSteps_ends (s : State) (env : StartEnv) :
    StartKeeps (porStart s.pwr.startKind) s (s.startSteps env) ∧
      ((s.startSteps env).get R.BOOT_STATUS F.BOOT_STATUS_PHASE = 7 ∨
        (s.startSteps env).get R.BOOT_STATUS F.BOOT_STATUS_PHASE = 9) := by
  unfold State.startSteps
  extract_lets kind srst t u later r
  have ht : StartKeeps (porStart kind) s t := .cond (fun _ => .refl s) fun _ => StartKeeps.start1 (.refl s) env
  have hu : StartKeeps (porStart kind) s u := .cond (fun _ => ht.start2 env) fun _ => ht
  have hl (v : State) (hv : StartKeeps (porStart kind) s v) : StartStage (porStart kind) s (later v) :=
    .bind (.start6 (.cond (fun _ => hv) fun _ => hv.start5 env) env srst) fun _ h6 =>
      .bind (.start7 h6 env) fun _ h7 => .start8 h7
  have hr : StartStage (porStart kind) s r :=
    .bind (.start3 hu srst) fun _ h3 => .cond (fun _ => hl _ h3) fun _ => .bind (.start4 h3 env) hl
  have hphase (v : State) (hv : r = .ok v) : v.get R.BOOT_STATUS F.BOOT_STATUS_PHASE = 7 := by
    have hlater (a : State) (ha : later a = .ok v) : v.get R.BOOT_STATUS F.BOOT_STATUS_PHASE = 7 := by
      obtain ⟨b, hb⟩ := StartStage.eq_ok_of_bind ha
      obtain ⟨c, hc⟩ := StartStage.eq_ok_of_bind hb
      exact start8_phase hc
    obtain ⟨a, ha⟩ := StartStage.eq_ok_of_bind hv
    split at ha
    · exact hlater a ha
    · obtain ⟨b, hb⟩ := StartStage.eq_ok_of_bind ha
      exact hlater b hb
  clear_value r
  cases r with
  | ok v => exact ⟨hr.ok_of v rfl, .inl (hphase v rfl)⟩
  | error v =>
    have hv := (hr.error_of v rfl).wr (BitVec.ofNat 32 env.ms) (a := R.BOOT_TIME) (by decide)
    exact ⟨hv.keeps, .inr hv.phase⟩

end Sys2Proof.Machine
end

section
/-! Requests for a reset, and what a canton's, a die's and a port's reset reach (O58). -/
namespace Sys2Proof.Machine

/-! ### Requests for a reset -/

section
variable {s : State} {r n : ResetReq}

/-- The safety core asks for none. -/
theorem viewReset_safety (s : State) (r : ResetReq) : s.viewReset .safety r = (s, false) := rfl

theorem viewReset_of_dark (v : View) (r : ResetReq) (h : s.dark = true) : s.viewReset v r = (s, false) := by
  simp [State.viewReset, h]

theorem viewReset_host (r : ResetReq) (h : s.dark = false) : s.viewReset .host r = s.askReset r 2 := by
  simp [State.viewReset, State.mayReset, viewSrc, h]

/-- Before RUN nothing but an MRST is taken. -/
theorem askReset_of_not_run (src : Nat) (hp : s.get R.BOOT_STATUS F.BOOT_STATUS_PHASE ≠ 8) (hk : r.kind ≠ 1) :
    s.askReset r src = (s, false) :=
  if_pos ⟨hp, .inl hk⟩

theorem askReset_of_none (src : Nat) (hp : s.get R.BOOT_STATUS F.BOOT_STATUS_PHASE = 8) (hn : s.pwr.resetNow = none) :
    s.askReset r src = (s.startReset r src, true) := by
  rw [State.askReset, if_neg (fun h => h.1 hp), hn]

theorem askReset_of_included (src : Nat) (hp : s.get R.BOOT_STATUS F.BOOT_STATUS_PHASE = 8)
    (hn : s.pwr.resetNow = some n) (hi : s.includes n r = true) : s.askReset r src = (s, false) := by
  rw [State.askReset, if_neg (fun h => h.1 hp), hn]
  exact if_pos hi

/-- A reset that neither includes the one in progress nor is included in it waits. -/
theorem askReset_of_apart (src : Nat) (hp : s.get R.BOOT_STATUS F.BOOT_STATUS_PHASE = 8)
    (hn : s.pwr.resetNow = some n) (hi : s.includes n r = false) (hr : s.includes r n = false) :
    s.askReset r src = (s.setPwr { s.pwr with resets := s.pwr.resets ++ [r] }, false) := by
  rw [State.askReset, if_neg (fun h => h.1 hp), hn]
  dsimp only
  rw [hi, hr]
  rfl

/-- A reset of a die, as a view asks for it: of a memory die, its canton's. -/
theorem execRstDrst_of_lt (v : View) {die : Fin 64} (h : die.val < 40) :
    execRstDrst v die s = .next (s.viewReset v ⟨4, die⟩).1 := by
  rw [execRstDrst, if_neg (by omega), if_neg (by omega)]

/-- Where no view's request is taken, no command for a reset does anything. -/
theorem execRst_of_barred {v : View} (h : ∀ r, s.viewReset v r = (s, false))
    (hm : s.mayReset v ⟨1, 0⟩ = true → s.dark = true)
    (env : StartEnv) (k : Fin 8) (die : Fin 64) (l : Fin 6) :
    ∀ c ∈ [Instr.rstMrst v env, .rstSrst v env, .rstCrst v k, .rstDrst v die, .rstLrst v l], exec c s = .next s := by
  simp only [List.mem_cons, List.not_mem_nil, or_false]
  rintro c (rfl | rfl | rfl | rfl | rfl)
  · show execRstMrst v env s = _
    rw [execRstMrst, if_neg (fun ⟨_, hv, _, hd⟩ => by simp [hm hv] at hd), h]
    rfl
  · show execRstSrst v env s = _
    rw [execRstSrst, h]
    rfl
  · show execRstCrst v k s = _
    rw [execRstCrst, h, ite_self]
  · show execRstDrst v die s = _
    simp only [execRstDrst, h, ite_self]
  · show execRstLrst v l s = _
    rw [execRstLrst, h]

/-- Before RUN the host's requests other than for an MRST do nothing. -/
theorem execRst_before_run (hd : s.dark = false) (hp : s.get R.BOOT_STATUS F.BOOT_STATUS_PHASE ≠ 8) (env : StartEnv)
    (k : Fin 8) (die : Fin 64) (l : Fin 6) (hdie : die.val < 40) :
    ∀ c ∈ [Instr.rstSrst .host env, .rstCrst .host k, .rstDrst .host die, .rstLrst .host l], exec c s = .next s := by
  have h {r : ResetReq} (hk : r.kind ≠ 1) : s.viewReset .host r = (s, false) := by
    rw [viewReset_host r hd, askReset_of_not_run 2 hp hk]
  simp only [List.mem_cons, List.not_mem_nil, or_false]
  rintro c (rfl | rfl | rfl | rfl)
  · show execRstSrst .host env s = _
    rw [execRstSrst, h (r := ⟨2, 0⟩) (by decide)]
    rfl
  · show execRstCrst .host k s = _
    rw [execRstCrst, h (r := ⟨3, k⟩) (show 3 ≠ 1 by decide), ite_self]
  · show execRstDrst .host die s = _
    rw [execRstDrst_of_lt _ hdie, h (r := ⟨4, die⟩) (show 4 ≠ 1 by decide)]
  · show execRstLrst .host l s = _
    rw [execRstLrst, h (r := ⟨5, l⟩) (show 5 ≠ 1 by decide)]

/-- The host's CRST of a canton there is. -/
theorem exec_rstCrst_host (hd : s.dark = false) {k : Fin 8} (hk : k.val < s.cantons) :
    exec (.rstCrst .host k) s = .next (s.askReset ⟨3, k⟩ 2).1 := by
  show execRstCrst .host k s = _
  rw [execRstCrst, if_pos hk, viewReset_host _ hd]

theorem exec_rstDrst_host (hd : s.dark = false) {die : Fin 64} (h : die.val < 40) :
    exec (.rstDrst .host die) s = .next (s.askReset ⟨4, die⟩ 2).1 := by
  show execRstDrst .host die s = _
  rw [execRstDrst_of_lt _ h, viewReset_host _ hd]

theorem exec_rstLrst_host (hd : s.dark = false) (l : Fin 6) :
    exec (.rstLrst .host l) s = .next (s.askReset ⟨5, l⟩ 2).1 := by
  show execRstLrst .host l s = _
  rw [execRstLrst, viewReset_host _ hd]

end

/-! ### A reset begun -/

section
variable (s : State) (r : ResetReq) (src : Nat)

theorem startReset_events : ∃ e : Event, (s.startReset r src).events = (s.runReset r).events ++ [e] ∧
    e.code = 0x007D ∧ e.die = 63 ∧ e.canton = none := ⟨_, rfl, rfl, rfl, rfl⟩

theorem startReset_oneEvent (h : (s.runReset r).events = s.events) :
    OneEvent s (s.startReset r src) 0x007D 63 none := by
  obtain ⟨e, he, hc⟩ := startReset_events s r src
  exact ⟨e, by rw [he, h], hc⟩

theorem startReset_resets : (s.startReset r src).pwr.resets = (s.runReset r).pwr.resets := rfl

theorem rd_startReset (a : Nat) : (s.startReset r src).rd a = (s.runReset r).rd a := rfl

theorem byte_startReset (a : Nat) : (s.startReset r src).byte a = (s.runReset r).byte a := rfl

end

/-! ### A canton's reset -/

section
variable (s : State)

theorem runReset_crst (k : Nat) : s.runReset ⟨3, k⟩ = (s.crst k).holdDies (s.resetDies ⟨3, k⟩) true := rfl

theorem byte_holdDies (ds : List Nat) (hold : Bool) (a : Nat) : (s.holdDies ds hold).byte a = s.byte a := by
  rw [holdDies_eq]; rfl

theorem events_holdDies (ds : List Nat) (hold : Bool) : (s.holdDies ds hold).events = s.events := by
  rw [holdDies_eq]

theorem pwr_holdDies (ds : List Nat) (hold : Bool) : (s.holdDies ds hold).pwr = s.pwr := by
  rw [holdDies_eq]

theorem keySlots_holdDies (ds : List Nat) (hold : Bool) : (s.holdDies ds hold).keySlots = s.keySlots := by
  rw [holdDies_eq]

theorem mem_cantonCds_lt {k d : Nat} (h : d ∈ s.cantonCds k) : d < 40 :=
  List.mem_range.mp (List.mem_of_mem_filter h)

/-- A die of the list is held, or let go, as `hold` says. -/
theorem inReset_holdDies (ds : List Nat) (hold : Bool) (d : Fin 64) :
    (s.holdDies ds hold).inReset[d] = if ds.contains d.val then hold else s.inReset[d] := by
  rw [holdDies_eq]
  exact getElem_heldBy s ds hold d

theorem getD_inReset_holdDies {ds : List Nat} (hold : Bool) {d : Nat} (hd : d ∈ ds) (hlt : d < 64) :
    (s.holdDies ds hold).inReset.toList.getD d false = hold := by
  have h := inReset_holdDies s ds hold ⟨d, hlt⟩
  rw [if_pos (by simpa using hd)] at h
  rw [List.getD_eq_getElem?_getD]
  simpa [hlt] using h

end

section
variable {s : State} {k : Fin 8}

/-- A CRST begun in RUN of an ASSIGNED canton. -/
theorem startReset_crst (src : Nat) (hp : s.polState k = 1) :
    let t := s.startReset ⟨3, k.val⟩ src
    t.pwr.resetNow = some ⟨3, k.val⟩ ∧ t.polState k = 2 ∧ t.get (R.SCRUB_STATUS k) F.SCRUB_STATUS_STEP = 5 ∧
      t.flag (R.SCRUB_STATUS k) F.SCRUB_STATUS_PEND = true ∧ (∀ x ∈ t.keySlots, x.1 ≠ k.val) ∧
      OneEvent s t 0x007D 63 none ∧
      (∀ d ∈ s.cantonCds k, t.inReset.toList.getD d false = true ∧
        ∀ i, i < lsBytes → t.byte (lsBase (fin40 d) + i) = 0) ∧
      (∀ d : Fin 40, d.val ∉ s.cantonCds k → ∀ i, i < lsBytes → t.byte (lsBase d + i) = s.byte (lsBase d + i)) := by
  intro t
  obtain ⟨u, hu⟩ : ∃ u : State, s.crst k = u.scrubErase k := by
    rw [State.crst_eq, hp]
    exact ⟨_, rfl⟩
  have hrd {a : Nat} (hlo : 0xF20 ≤ a) (hhi : a < 0x100000) (f : Fld) : t.get a f = (u.scrubErase k).get a f := by
    refine get_congr ?_ f
    rw [← hu]
    exact (rd_startReset s _ src a).trans (rd_holdDies _ _ _ (ne_fabPortStatus hlo hhi))
  have hbyte (a : Nat) : t.byte a = (s.crst k).byte a := byte_holdDies _ _ _ _
  have hls (d : Fin 40) {i : Nat} (hi : i < lsBytes) : inLsOf d (lsBase d + i) := ⟨Nat.le_add_right _ _, by omega⟩
  have hk := k.isLt
  have hpol (f : Fld) : t.get (R.CPOL_STATUS k) f = (u.scrubErase k).get (R.CPOL_STATUS k) f :=
    hrd (by unfold R.CPOL_STATUS tdBase; omega) (by unfold R.CPOL_STATUS tdBase; omega) f
  have hscrub (f : Fld) : t.get (R.SCRUB_STATUS k) f = (u.scrubErase k).get (R.SCRUB_STATUS k) f :=
    hrd (by unfold R.SCRUB_STATUS tdBase; omega) (by unfold R.SCRUB_STATUS tdBase; omega) f
  obtain ⟨hstate, hstep, hpend⟩ := scrubErase_status u k
  refine ⟨rfl, (hpol _).trans hstate, (hscrub _).trans hstep, ?_, fun x hx => ?_, startReset_oneEvent _ _ _ ?_,
      fun d hd => ⟨?_, fun i hi => ?_⟩,
    fun d hd i hi => ?_⟩
  · rw [State.flag, hscrub]; exact hpend
  · have e : t.keySlots = (s.crst k).keySlots := keySlots_holdDies (s.crst k) _ true
    rw [e, hu] at hx
    exact scrubErase_keySlots u k x hx
  · rw [runReset_crst, events_holdDies]
    exact (crst_spared s k).events
  · have hlt := mem_cantonCds_lt s hd
    exact getD_inReset_holdDies _ true (List.mem_append_left _ hd) (by omega)
  · have hlt := mem_cantonCds_lt s hd
    rw [hbyte, crst_byte s (hls _ hi), if_pos]
    simpa [fin40, Nat.mod_eq_of_lt hlt] using hd
  · rw [hbyte, crst_byte s (hls _ hi), if_neg hd]

end

/-! ### A die's reset and a port's -/

section
variable (s : State)

/-- Seeding changes registers and the generators of a die. -/
theorem seedDie_spared (seed : List Byte) (die : Nat) :
    Spared (fun _ => False) (fun _ => True) s (s.seedDie seed die) := by
  unfold State.seedDie
  extract_lets mark d c m u
  have hmark (t : State) (b : Nat) (h : Spared (fun _ => False) (fun _ => True) s t) :
      Spared (fun _ => False) (fun _ => True) s (mark t b) := (h.put _ _ id).put _ _ id
  clear_value mark
  exact .cond (fun _ => hmark _ _ (.record (.refl s) rfl)) fun _ => hmark _ _ (.record (.refl s) rfl)

/-- A compute die's reset: held, cleared, and seeded anew where its canton is ASSIGNED. -/
theorem runReset_drst {d : Nat} (hd : d < 40) :
    Spared (fun _ => False) (fun _ => True) ((s.resetCd (fin40 d)).holdDies [d] true) (s.runReset ⟨4, d⟩) := by
  have e : s.runReset ⟨4, d⟩ = if d < 40 then
      let t := (s.resetCd (fin40 d)).holdDies [d] true
      let k := t.colCanton (d % 8)
      if t.polState k = 1 then t.seedDie (t.canton k).seed d else t
    else if d < 62 then (s.resetLd (fin6 (d - 56))).holdDies [d] true
    else s.resetHd.holdDies [d] true := rfl
  rw [e, if_pos hd]
  exact .cond (fun _ => seedDie_spared _ _ _) fun _ => .refl _

theorem resetCd_spared (d : Fin 40) : Spared (fun _ => False) (fun _ => False) s (s.resetCd d) :=
  Spared.resetCd (fun _ h => h.elim) (fun _ h => h.elim) (.refl s) d fun _ h => h.elim

theorem byte_resetCd (d : Fin 40) (a : Nat) : (s.resetCd d).byte a =
    if (lsBase d ≤ a ∧ a < lsBase d + lsBytes) ∨ (gasBase d ≤ a ∧ a < gasBase d + gasBytes) then 0 else s.byte a :=
  byte_zeroCd s d true a

/-- A DRST of a compute die begun in RUN. -/
theorem startReset_drst (src : Nat) {die : Fin 64} (hd : die.val < 40) :
    let t := s.startReset ⟨4, die.val⟩ src
    t.pwr.resetNow = some ⟨4, die.val⟩ ∧ t.inReset[die] = true ∧ OneEvent s t 0x007D 63 none ∧
      (∀ i, i < lsBytes → t.byte (lsBase (fin40 die.val) + i) = 0) ∧
      (∀ a, (a < lsBase (fin40 die.val) ∨ lsBase (fin40 die.val) + lsBytes ≤ a) →
        (a < gasBase (fin40 die.val) ∨ gasBase (fin40 die.val) + gasBytes ≤ a) → t.byte a = s.byte a) := by
  intro t
  have hr := runReset_drst s hd
  have hbyte (a : Nat) : t.byte a = (s.resetCd (fin40 die.val)).byte a :=
    (byte_startReset s _ src a).trans ((hr.byte a trivial).trans (byte_holdDies _ _ _ _))
  refine ⟨rfl, ?_, startReset_oneEvent _ _ _ ?_, fun i hi => ?_, fun a hl hg => ?_⟩
  · show (s.runReset ⟨4, die.val⟩).inReset[die] = true
    rw [hr.inReset]
    exact (inReset_holdDies (s.resetCd (fin40 die.val)) [die.val] true die).trans (if_pos (by simp))
  · exact hr.events.trans ((events_holdDies _ _ _).trans (resetCd_spared s _).events)
  · rw [hbyte, byte_resetCd, if_pos (.inl ⟨Nat.le_add_right _ _, by omega⟩)]
  · rw [hbyte, byte_resetCd, if_neg (by omega)]

theorem endSession_spared (l : Fin 6) (st : Nat) :
    Spared (fun _ => False) (fun _ => True) s (s.endSession l st) :=
  Spared.endSession (fun _ h => h.elim) (.refl s) l st

/-- The end of a session leaves the other ports alone. -/
theorem port_endSession {l m : Fin 6} (h : m ≠ l) (st : Nat) : (s.endSession l st).port m = s.port m := by
  unfold State.endSession
  extract_lets p lost p' u
  have hc : (u.lkCount l (R.LK_DROP l) lost).port m = u.port m := by
    unfold State.lkCount
    split <;> rfl
  have hz (v : State) : (v.zeroEpochs l).port m = v.port m := proj_foldl (State.port · m) (by intros; rfl) v
  have hp (v : State) (a : Nat) (f : Fld) (n : Nat) : (v.put a f n).port m = v.port m := rfl
  rw [hp, hz, hc]
  unfold u State.port State.setPort
  simp [Vector.getElem_set_ne, Fin.val_ne_of_ne h.symm]

/-- The state a session ends in. -/
theorem portState_endSession (l : Fin 6) {st : Nat} (h : st < 8) : (s.endSession l st).portState l = st := by
  unfold State.endSession State.portState
  rw [State.get_put_self _ _ _ _ (by decide) (by decide)]
  exact Nat.mod_eq_of_lt (show st < 2 ^ 3 from h)

/-- An LRST begun in RUN of a port in use. -/
theorem startReset_lrst (src : Nat) {l : Fin 6} (hl : s.portState l ≠ 0) :
    let t := s.startReset ⟨5, l.val⟩ src
    t.pwr.resetNow = some ⟨5, l.val⟩ ∧ OneEvent s t 0x007D 63 none ∧ SameMem s t ∧
      t.portState l = (if s.flag (R.LK_CFG l) F.LK_CFG_EN then 1 else 3) ∧
      ∀ m : Fin 6, m ≠ l → t.port m = s.port m := by
  intro t
  have hr : s.runReset ⟨5, l.val⟩ = s.endSession l (if s.flag (R.LK_CFG l) F.LK_CFG_EN then 1 else 3) := by
    have e : fin6 l.val = l := Fin.ext (Nat.mod_eq_of_lt l.isLt)
    show s.startTraining (fin6 l.val) = _
    rw [e, State.startTraining, if_neg hl]
  have hs := endSession_spared s l (if s.flag (R.LK_CFG l) F.LK_CFG_EN then 1 else 3)
  refine ⟨rfl, startReset_oneEvent _ _ _ ?_, fun a => ?_, ?_, fun m hm => ?_⟩
  · rw [hr]
    exact hs.events
  · rw [byte_startReset, hr]
    exact hs.byte a trivial
  · show (s.runReset ⟨5, l.val⟩).portState l = _
    rw [hr]
    exact portState_endSession s l (by split <;> decide)
  · show (s.runReset ⟨5, l.val⟩).port m = _
    rw [hr]
    exact port_endSession s hm _

end

end Sys2Proof.Machine
end

section
/-! A reset that is complete, and how a start is noted (O58). -/
namespace Sys2Proof.Machine

/-! ### A reset that is complete -/

section
variable (s : State)

/-- What a reset of a canton, die or port raises and asks of the power state before its own event: nothing. -/
def Silent (s t : State) : Prop := t.events = s.events ∧ t.pwr = s.pwr

theorem Silent.trans {s t u : State} (h : Silent s t) (k : Silent t u) : Silent s u :=
  ⟨k.1.trans h.1, k.2.trans h.2⟩

theorem Spared.silent {K M : Nat → Prop} {s t : State} (h : Spared K M s t) : Silent s t := ⟨h.events, h.pwr⟩

theorem holdDies_silent (ds : List Nat) (hold : Bool) : Silent s (s.holdDies ds hold) :=
  ⟨events_holdDies _ _ _, pwr_holdDies _ _ _⟩

/-- The host die's reset drops the keys of the host path. -/
theorem resetHd_silent : Silent s s.resetHd := by
  unfold State.resetHd
  extract_lets t u host v
  have ht : Silent s t :=
    ⟨proj_foldl State.events (g := fun t k => t.dropHostKeys k) (fun _ _ _ => rfl) s,
      proj_foldl State.pwr (g := fun t k => t.dropHostKeys k) (fun _ _ _ => rfl) s⟩
  clear_value t
  exact ht.trans ⟨rfl, rfl⟩

theorem resetLd_silent (l : Fin 6) : Silent s (s.resetLd l) :=
  (Spared.resetLd (K := fun _ => False) (M := fun _ => False) (fun _ h => h.elim) (fun _ h => h.elim) (.refl s)
      l).silent

theorem startTraining_silent (l : Fin 6) : Silent s (s.startTraining l) :=
  (Spared.startTraining (K := fun _ => False) (M := fun _ => False) (fun _ h => h.elim) (.refl s) l).silent

/-- A die's reset, of whichever kind the die is. -/
theorem runReset_die_silent (d : Nat) : Silent s (s.runReset ⟨4, d⟩) := by
  by_cases h : d < 40
  · exact (((resetCd_spared s _).silent.trans (holdDies_silent _ _ _))).trans (runReset_drst s h).silent
  · have e : s.runReset ⟨4, d⟩ =
        if d < 62 then (s.resetLd (fin6 (d - 56))).holdDies [d] true else s.resetHd.holdDies [d] true :=
      if_neg h
    rw [e]
    split
    · exact (resetLd_silent s _).trans (holdDies_silent _ _ _)
    · exact (resetHd_silent s).trans (holdDies_silent _ _ _)

theorem runReset_silent {r : ResetReq} (hlo : 3 ≤ r.kind) (hhi : r.kind ≤ 5) : Silent s (s.runReset r) := by
  obtain ⟨kind, idx⟩ := r
  obtain rfl | rfl | rfl : kind = 3 ∨ kind = 4 ∨ kind = 5 := by dsimp only at hlo hhi; omega
  · exact (crst_spared s idx).silent.trans (holdDies_silent _ _ _)
  · exact runReset_die_silent s idx
  · exact startTraining_silent s _

/-- The dies of a reset, let go. -/
def State.letGo (s : State) (r : ResetReq) : State :=
  (s.holdDies (s.resetDies r) false).setPwr { s.pwr with resetNow := none }

theorem finishReset_eq {r : ResetReq} (hr : s.pwr.resetNow = some r) : s.finishReset =
    match (s.letGo r).pwr.resets with
    | [] => s.letGo r
    | n :: rest => (((s.letGo r).setPwr { (s.letGo r).pwr with resets := rest }).askReset n 5).1 := by
  unfold State.finishReset
  rw [hr]
  rfl

theorem finishReset_of_last {r : ResetReq} (hr : s.pwr.resetNow = some r) (hl : s.pwr.resets = []) :
    s.finishReset = s.letGo r := by
  have h : (s.letGo r).pwr.resets = [] := hl
  rw [finishReset_eq s hr, h]

theorem finishReset_of_next {r n : ResetReq} {rest : List ResetReq} (hr : s.pwr.resetNow = some r)
    (hl : s.pwr.resets = n :: rest) : s.finishReset =
      (((s.letGo r).setPwr { s.pwr with resetNow := none, resets := rest }).askReset n 5).1 := by
  have h : (s.letGo r).pwr.resets = n :: rest := hl
  rw [finishReset_eq s hr, h]
  rfl

theorem execResetComplete_of_ne_starting (hm : s.pwr.mode ≠ .starting) :
    exec .resetComplete s = .next s.finishReset :=
  if_neg hm

theorem getD_letGo (r : ResetReq) {d : Nat} (hd : d ∈ s.resetDies r) :
    (s.letGo r).inReset.toList.getD d false = false := by
  by_cases hlt : d < 64
  · exact getD_inReset_holdDies s false hd hlt
  · rw [List.getD_eq_getElem?_getD, List.getElem?_eq_none (by simpa using Nat.le_of_not_lt hlt)]
    rfl

theorem inReset_letGo (r : ResetReq) {d : Fin 64} (hd : d.val ∉ s.resetDies r) :
    (s.letGo r).inReset[d] = s.inReset[d] :=
  (inReset_holdDies s _ false d).trans (if_neg (by simpa using hd))

theorem rd_letGo (r : ResetReq) {a : Nat} (h : ∀ d, d < 64 → a ≠ R.FAB_PORT_STATUS (dieCrs d)) :
    (s.letGo r).rd a = s.rd a :=
  (State.rd_setPwr _ _ _).trans (rd_holdDies s _ false h)

theorem letGo_eq (r : ResetReq) :
    s.letGo r = { s with regs := (s.letGo r).regs, pwr := (s.letGo r).pwr, inReset := (s.letGo r).inReset } := by
  have h : (s.letGo r) = { s.holdDies (s.resetDies r) false with pwr := { s.pwr with resetNow := none } } := rfl
  rw [h, holdDies_eq]

/-- The oldest reset that waits begins. -/
theorem finishReset_begins {r n : ResetReq} {rest : List ResetReq} (hr : s.pwr.resetNow = some r)
    (hl : s.pwr.resets = n :: rest) (hp : s.get R.BOOT_STATUS F.BOOT_STATUS_PHASE = 8) (hlo : 3 ≤ n.kind)
        (hhi : n.kind ≤ 5) :
    s.finishReset.pwr.resetNow = some n ∧ s.finishReset.pwr.resets = rest ∧
      OneEvent s s.finishReset 0x007D 63 none := by
  rw [finishReset_of_next s hr hl]
  generalize hu : (s.letGo r).setPwr { s.pwr with resetNow := none, resets := rest } = u
  have hpu : u.get R.BOOT_STATUS F.BOOT_STATUS_PHASE = 8 := by
    rw [← hp, ← hu]
    exact get_congr ((State.rd_setPwr _ _ _).trans (rd_letGo s r (ne_fabPortStatus (by decide) (by decide)))) _
  have hpwr : u.pwr = { s.pwr with resetNow := none, resets := rest } := by rw [← hu]; rfl
  have hev : u.events = s.events := by rw [← hu]; exact events_holdDies s _ false
  rw [askReset_of_none 5 hpu (by rw [hpwr])]
  obtain ⟨he, hw⟩ := runReset_silent u hlo hhi
  refine ⟨rfl, ?_, ?_⟩
  · show (u.startReset n 5).pwr.resets = rest
    rw [startReset_resets, hw, hpwr]
  · obtain ⟨e, h, hc⟩ := startReset_oneEvent u n 5 he
    exact ⟨e, h.trans (by rw [hev]), hc⟩

end

/-! ### The start that an MRST or SRST begins -/

/-- How a start that begins is noted: its kind, its cause, the counts, the quench cleared. -/
def State.noteStart (t : State) (kind last : Nat) : State :=
  let t := (t.put R.BOOT_STATUS F.BOOT_STATUS_START kind).put R.RST_CAUSE F.RST_CAUSE_LAST last
  let t := if kind = 0 then t else t.bump R.BOOT_STATUS F.BOOT_STATUS_STARTS 1
  let t := if kind = 0 ∨ porStart kind = true then t else t.bump R.RST_COUNT F.RST_COUNT_RESETS 1
  let t := (t.put R.SF_STATUS F.SF_STATUS_QUENCHED 0).put R.SF_STATUS F.SF_STATUS_QHOLD 0
  let t := t.put R.BOOT_STATUS F.BOOT_STATUS_PHASE (if kind = 3 then 4 else 0)
  t.setPwr { t.pwr with mode := .starting, startKind := kind, startAt := t.now, lastCode := last }

theorem beginStart_mrst (s : State) (last : Nat) : s.beginStart 2 last = (s.allReset loseCN).noteStart 2 last := rfl

theorem beginStart_srst (s : State) (last : Nat) : s.beginStart 3 last = s.srst.noteStart 3 last := rfl

section
variable (t : State) {kind last : Nat}

/-- Only the registers and the power state note a start. -/
theorem noteStart_eq (kind last : Nat) : t.noteStart kind last =
    { t with regs := (t.noteStart kind last).regs, pwr := (t.noteStart kind last).pwr } := by
  unfold State.noteStart
  dsimp only
  split <;> split <;> rfl

theorem startKind_noteStart (kind last : Nat) : (t.noteStart kind last).pwr.startKind = kind := rfl

/-- A field of another register, or of other bits of the register. -/
theorem get_put_apart (s : State) {a b : Nat} {f g : Fld} (n : Nat)
    (h : b ≠ a ∨ f.2 ≤ f.1 ∧ g.1 < 32 ∧ (g.1 < f.2 ∨ f.1 < g.2)) : (s.put a f n).get b g = s.get b g := by
  by_cases e : b = a
  · obtain h | ⟨hf, hg, hd⟩ := h
    · exact absurd e h
    · subst e
      exact State.get_put_of_disjoint _ _ _ _ _ hf hg hd.symm
  · exact State.get_put_of_ne _ _ _ _ e

/-- The registers that note a start that is no POR. -/
theorem get_noteStart (hk : kind = 2 ∨ kind = 3) (hl : last < 16) :
    (t.noteStart kind last).get R.BOOT_STATUS F.BOOT_STATUS_START = kind ∧
      (t.noteStart kind last).get R.RST_CAUSE F.RST_CAUSE_LAST = last ∧
      (t.noteStart kind last).get R.RST_COUNT F.RST_COUNT_RESETS =
        satN (2 ^ 16 - 1) (t.get R.RST_COUNT F.RST_COUNT_RESETS + 1) := by
  have hk0 : kind ≠ 0 := by omega
  have hpor : ¬ (kind = 0 ∨ porStart kind = true) := by obtain rfl | rfl := hk <;> decide
  unfold State.noteStart
  extract_lets u v w x y
  have hv : v = u.bump R.BOOT_STATUS F.BOOT_STATUS_STARTS 1 := if_neg hk0
  have hw : w = v.bump R.RST_COUNT F.RST_COUNT_RESETS 1 := if_neg hpor
  have hy (a : Nat) (f : Fld) :
      (y.setPwr { y.pwr with mode := .starting, startKind := kind, startAt := y.now, lastCode := last }).get a f =
      (((((u.bump R.BOOT_STATUS F.BOOT_STATUS_STARTS 1).bump R.RST_COUNT F.RST_COUNT_RESETS 1).put
        R.SF_STATUS F.SF_STATUS_QUENCHED 0).put R.SF_STATUS F.SF_STATUS_QHOLD 0).put R.BOOT_STATUS F.BOOT_STATUS_PHASE
        (if kind = 3 then 4 else 0)).get a f := by
    refine (get_congr (State.rd_setPwr _ _ _) f).trans ?_
    rw [← hv, ← hw]
  refine ⟨(hy _ _).trans ?_, (hy _ _).trans ?_, (hy _ _).trans ?_⟩ <;> unfold State.bump u
  · iterate 6 rw [get_put_apart _ _ (by decide)]
    rw [State.get_put_self _ _ _ _ (by decide) (by decide)]
    exact Nat.mod_eq_of_lt (show kind < 8 by omega)
  · iterate 5 rw [get_put_apart _ _ (by decide)]
    rw [State.get_put_self _ _ _ _ (by decide) (by decide)]
    exact Nat.mod_eq_of_lt hl
  · iterate 3 rw [get_put_apart _ _ (by decide)]
    rw [State.get_put_self _ _ _ _ (by decide) (by decide)]
    iterate 3 rw [get_put_apart _ _ (by decide)]
    exact Nat.mod_eq_of_lt (show satN (2 ^ 16 - 1) _ < 2 ^ 16 by unfold satN; split <;> omega)

theorem rd_noteStart (kind last : Nat) {a : Nat} (h0 : a ≠ R.BOOT_STATUS) (h1 : a ≠ R.RST_CAUSE) (h2 : a ≠ R.RST_COUNT)
    (h3 : a ≠ R.SF_STATUS) : (t.noteStart kind last).rd a = t.rd a := by
  unfold State.noteStart
  extract_lets u v w x y
  have hu : u.rd a = t.rd a := by unfold u; rw [State.rd_put_of_ne _ _ _ h1, State.rd_put_of_ne _ _ _ h0]
  have hv : v.rd a = u.rd a := by
    unfold v
    split
    · rfl
    · exact State.rd_put_of_ne _ _ _ h0
  have hw : w.rd a = v.rd a := by
    unfold w
    split
    · rfl
    · exact State.rd_put_of_ne _ _ _ h2
  rw [State.rd_setPwr]
  unfold y x
  rw [State.rd_put_of_ne _ _ _ h0, State.rd_put_of_ne _ _ _ h3, State.rd_put_of_ne _ _ _ h3, hw, hv, hu]

end

end Sys2Proof.Machine
end

section
/-! What an MRST and an SRST leave, and the statement (O58). -/
namespace Sys2Proof.Machine

/-- Where a start that an MRST or SRST begins ends up. -/
structure Started (v t : State) (kind last : Nat) : Prop where
  mem : t.mem = v.mem
  keySlots : t.keySlots = v.keySlots
  releases : t.releases = v.releases
  identity : t.sec.identity = v.sec.identity
  host : t.host = v.host
  pol : ∀ k, k < 8 → t.rd (R.CPOL_STATUS k) = v.rd (R.CPOL_STATUS k)
  start : t.get R.BOOT_STATUS F.BOOT_STATUS_START = kind
  last : t.get R.RST_CAUSE F.RST_CAUSE_LAST = last
  count : t.get R.RST_COUNT F.RST_COUNT_RESETS = satN (2 ^ 16 - 1) (v.get R.RST_COUNT F.RST_COUNT_RESETS + 1)
  phase : t.get R.BOOT_STATUS F.BOOT_STATUS_PHASE = 7 ∨ t.get R.BOOT_STATUS F.BOOT_STATUS_PHASE = 9
  event : ∃ e ∈ t.events, e.code = 0x007D

theorem started {s v : State} {r : ResetReq} {kind last : Nat} (h : s.runReset r = v.noteStart kind last)
    (hk : kind = 2 ∨ kind = 3) (hl : last < 16) (src : Nat) (env : StartEnv) :
    Started v ((s.startReset r src).startSteps env) kind last := by
  obtain ⟨hkeep, hphase⟩ := startSteps_ends (s.startReset r src) env
  have hpor : porStart (s.startReset r src).pwr.startKind = false := by
    have e : (s.startReset r src).pwr.startKind = (s.runReset r).pwr.startKind := rfl
    rw [e, h, startKind_noteStart]
    obtain rfl | rfl := hk <;> rfl
  rw [hpor] at hkeep
  generalize (s.startReset r src).startSteps env = t at *
  obtain ⟨hstart, hcause, hcount⟩ := get_noteStart v hk hl
  have hrd {a : Nat} (ha : startRecord a) : t.rd a = (v.noteStart kind last).rd a := by
    rw [hkeep.rd a ha, rd_startReset, h]
  have hget {a : Nat} (ha : startRecord a) (f : Fld) : t.get a f = (v.noteStart kind last).get a f :=
    get_congr (hrd ha) f
  obtain ⟨l, hev⟩ := hkeep.events
  obtain ⟨e, he, hc, _⟩ := startReset_events s r src
  have heq := noteStart_eq v kind last
  exact
    { mem := by rw [hkeep.mem]; show (s.runReset r).mem = _; rw [h, heq]
      keySlots := by rw [hkeep.keySlots]; show (s.runReset r).keySlots = _; rw [h, heq]
      releases := by rw [hkeep.releases]; show (s.runReset r).releases = _; rw [h, heq]
      identity := by rw [hkeep.identity rfl]; show (s.runReset r).sec.identity = _; rw [h, heq]
      host := by rw [hkeep.host]; show (s.runReset r).host = _; rw [h, heq]
      pol := fun k hk8 => by
        have hne (a : Nat) (ha : a < 0x1100 ∨ 0x1180 ≤ a) : R.CPOL_STATUS k ≠ a := by
          unfold R.CPOL_STATUS tdBase; omega
        rw [hrd (.inr (.inr ⟨k, hk8, rfl⟩)),
            rd_noteStart v kind last (hne _ (by decide)) (hne _ (by decide)) (hne _ (by decide)) (hne _ (by decide))]
      start := by
        rw [hkeep.start]
        exact (get_congr (by rw [rd_startReset, h]) _).trans hstart
      last := (hget (.inl rfl) _).trans hcause
      count := (hget (.inr (.inl rfl)) _).trans hcount
      phase := hphase
      event := ⟨e, by rw [hev, he]; simp, hc⟩ }

theorem byte_of_mem_nil {t : State} (h : t.mem = []) (a : Nat) : t.byte a = 0 := by
  unfold State.byte
  rw [h]
  rfl

/-! ### An MRST -/

/-- In canonical form no value listed is the default. -/
theorem Sparse_wfFrom_ne_default {α : Type} [DecidableEq α] {d : Nat → α} {m : Sparse α} {a k : Nat} {x : α}
    (h : Sparse.wfFrom d a m = true) (hx : (k, x) ∈ m) : x ≠ d k := by
  induction m generalizing a with
  | nil => cases hx
  | cons p m ih =>
    obtain ⟨j, y⟩ := p
    simp only [Sparse.wfFrom, Bool.and_eq_true, decide_eq_true_eq] at h
    obtain ⟨⟨_, hy⟩, hm⟩ := h
    obtain e | e := List.mem_cons.mp hx
    · cases e; exact hy
    · exact ih hm e

/-- What a reset makes of a register without a field that is lost. -/
theorem resetEntry_of_kept {hit : Nat → Bool} {lose : Kept → Bool} {a : Nat}
    (hm : hit a = false ∨ regMask a (fun f => lose f.kept) = 0) (x : W32) :
    resetEntry hit lose (a, x) = if hit a = true ∧ x = regReset a then none else some (a, x) := by
  show (if hit a then _ else some (a, x)) = _
  split
  · next hh =>
    have hm0 := hm.resolve_left (by simp [hh])
    have e : (x &&& ~~~(0 : W32)) ||| (regReset a &&& 0) = x := by
      show (x &&& ~~~0#32) ||| (regReset a &&& 0#32) = x
      rw [BitVec.not_zero, BitVec.and_allOnes, BitVec.and_zero, BitVec.or_zero]
    dsimp only
    rw [hm0, e]
    simp only [hh, true_and]
  · next hh => rw [if_neg (fun k => hh k.1)]

/-- A register without a field that is lost reads as before. -/
theorem rd_resetRegs_of_no_mask {s : State} (h : Sparse.wf regReset s.regs = true) (hit : Nat → Bool)
    {lose : Kept → Bool}
    {a : Nat} (hm : regMask a (fun f => lose f.kept) = 0) : (s.resetRegs hit lose).rd a = s.rd a :=
  Sparse_get_filterMap_of_fixed regReset key_of_resetEntry fun x hx =>
    (resetEntry_of_kept (.inr hm) x).trans (if_neg fun k => Sparse_wfFrom_ne_default h hx k.2)

theorem allReset_fields (s : State) (lose : Kept → Bool) :
    (s.allReset lose).mem = [] ∧ (s.allReset lose).keySlots = [] ∧ (s.allReset lose).releases = [] ∧
      (s.allReset lose).sec.identity = s.sec.identity := ⟨rfl, rfl, rfl, rfl⟩

theorem exec_rstMrst_host {s : State} (hd : s.dark = false) (hn : s.pwr.nv = none)
    (hp : s.get R.BOOT_STATUS F.BOOT_STATUS_PHASE = 8) (hr : s.pwr.resetNow = none) (env : StartEnv) :
    exec (.rstMrst .host env) s = .next ((s.startReset ⟨1, 0⟩ 2).startSteps env) := by
  have e : exec (.rstMrst .host env) s = execRstMrst .host env s := rfl
  rw [e, execRstMrst, if_neg (by simp [hn]), viewReset_host _ hd, askReset_of_none 2 hp hr]
  exact congrArg _ (if_pos rfl)

/-- While the flash is being written an MRST only waits. -/
theorem exec_rstMrst_host_waits {s : State} (hd : s.dark = false) (hn : s.pwr.nv.isSome = true)
    (hm : s.pwr.mode ≠ .starting)
    (env : StartEnv) : exec (.rstMrst .host env) s = .next { s with pwr := { s.pwr with mrstWaits := some 5 } } :=
  if_pos ⟨hn, rfl, .inl hm, hd⟩

theorem exec_rstSrst_host {s : State} (hd : s.dark = false) (hp : s.get R.BOOT_STATUS F.BOOT_STATUS_PHASE = 8)
    (hr : s.pwr.resetNow = none) (env : StartEnv) :
    exec (.rstSrst .host env) s = .next ((s.startReset ⟨2, 0⟩ 2).startSteps env) := by
  have e : exec (.rstSrst .host env) s = execRstSrst .host env s := rfl
  rw [e, execRstSrst, viewReset_host _ hd, askReset_of_none 2 hp hr]
  exact congrArg _ (if_pos rfl)

theorem started_mrst (s : State) (src : Nat) (env : StartEnv) :
    Started (s.allReset loseCN) ((s.startReset ⟨1, 0⟩ src).startSteps env) 2 5 :=
  started (r := ⟨1, 0⟩) (v := s.allReset loseCN) (beginStart_mrst s 5) (.inl rfl) (by decide) src env

theorem count_allReset {s : State} (h : Inv s) :
    (s.allReset loseCN).get R.RST_COUNT F.RST_COUNT_RESETS = s.get R.RST_COUNT F.RST_COUNT_RESETS :=
  get_congr (rd_resetRegs_of_no_mask h.regs (fun _ => true) (lose := loseCN) (by decide +kernel)) F.RST_COUNT_RESETS

/-! ### An SRST -/

theorem mem_of_mem_erase {α : Type} {m : Sparse α} {j : Nat} {p : Nat × α} (h : p ∈ Sparse.erase m j) :
    p ∈ m ∧ p.1 ≠ j := by
  induction m with
  | nil => cases h
  | cons q m ih =>
    obtain ⟨a, y⟩ := q
    unfold Sparse.erase at h
    split at h
    · exact ⟨List.mem_cons_of_mem _ (ih h).1, (ih h).2⟩
    · next hne =>
      obtain rfl | h := List.mem_cons.mp h
      · exact ⟨List.mem_cons_self, fun e => hne e.symm⟩
      · exact ⟨List.mem_cons_of_mem _ (ih h).1, (ih h).2⟩

/-- A write lists its place once, and of the other places what was listed. -/
theorem mem_of_mem_set {α : Type} [DecidableEq α] {d : Nat → α} {m : Sparse α} {j : Nat} {v : α} {p : Nat × α}
    (h : p ∈ Sparse.set d m j v) : p = (j, v) ∨ (p ∈ m ∧ p.1 ≠ j) := by
  induction m with
  | nil =>
    unfold Sparse.set at h
    split at h
    · cases h
    · exact .inl (List.mem_singleton.mp h)
  | cons q m ih =>
    have keep (k : p = (j, v) ∨ (p ∈ m ∧ p.1 ≠ j)) : p = (j, v) ∨ (p ∈ q :: m ∧ p.1 ≠ j) :=
      k.imp_right fun k => ⟨List.mem_cons_of_mem _ k.1, k.2⟩
    obtain ⟨a, y⟩ := q
    have front (k : p ∈ (a, y) :: Sparse.erase m j) (hne : j ≠ a) : p = (j, v) ∨ (p ∈ (a, y) :: m ∧ p.1 ≠ j) := by
      obtain rfl | k := List.mem_cons.mp k
      · exact .inr ⟨List.mem_cons_self, fun e => hne e.symm⟩
      · exact keep (.inr (mem_of_mem_erase k))
    unfold Sparse.set at h
    split at h
    · exact keep (ih h)
    · next hne =>
      split at h
      · split at h
        · exact front h hne
        · obtain rfl | h := List.mem_cons.mp h
          · exact .inl rfl
          · exact front h hne
      · obtain rfl | h := List.mem_cons.mp h
        · exact .inr ⟨List.mem_cons_self, fun e => hne e.symm⟩
        · exact keep (ih h)

/-- What a read gives is listed, or is the default. -/
theorem get_mem_or {α : Type} (d : Nat → α) (m : Sparse α) (k : Nat) :
    Sparse.get d m k = d k ∨ (k, Sparse.get d m k) ∈ m := by
  induction m with
  | nil => exact .inl rfl
  | cons q m ih =>
    obtain ⟨a, y⟩ := q
    unfold Sparse.get
    split
    · next e => exact .inr (e ▸ List.mem_cons_self)
    · exact ih.imp_right (List.mem_cons_of_mem _)

/-- The canton's status register lists no state but FREE, at whichever place it is listed. -/
def FreeAt (j : Nat) (s : State) : Prop := ∀ x, (R.CPOL_STATUS j, x) ∈ s.regs → fldOf x F.CPOL_STATUS_STATE = 0

section
variable {j : Nat} {s : State}

theorem FreeAt.wr (h : FreeAt j s) {a : Nat} {x : W32} (hx : R.CPOL_STATUS j = a → fldOf x F.CPOL_STATUS_STATE = 0) :
    FreeAt j (s.wr a x) := by
  intro y hy
  obtain e | e := mem_of_mem_set hy
  · obtain ⟨ea, rfl⟩ := Prod.mk.inj e
    exact hx ea
  · exact h y e.1

theorem FreeAt.put_of_ne (h : FreeAt j s) {a : Nat} (hne : R.CPOL_STATUS j ≠ a) (f : Fld) (n : Nat) :
    FreeAt j (s.put a f n) :=
  h.wr fun e => absurd e hne

theorem FreeAt.rd (h : FreeAt j s) (hj : j < 8) : s.polState j = 0 := by
  have hreset : ∀ j, j < 8 → fldOf (regReset (R.CPOL_STATUS j)) F.CPOL_STATUS_STATE = 0 := by decide +kernel
  obtain e | e := get_mem_or regReset s.regs (R.CPOL_STATUS j)
  · show fldOf (Sparse.get _ _ _) _ = 0
    rw [e]
    exact hreset j hj
  · exact h _ e

/-- Another field of a canton's status register. -/
theorem FreeAt.put_status (h : FreeAt j s) (hj : j < 8) (k : Nat) {f : Fld} (hf : f.2 ≤ f.1) (hd : 1 < f.2) (n : Nat) :
    FreeAt j (s.put (R.CPOL_STATUS k) f n) := by
  refine h.wr fun e => ?_
  rw [fldOf_fldSet_of_disjoint _ f _ n hf (by decide) (.inr hd), ← e]
  exact h.rd hj

theorem freeAt_put (j : Nat) (s : State) : FreeAt j (s.put (R.CPOL_STATUS j) F.CPOL_STATUS_STATE 0) := by
  intro y hy
  obtain e | e := mem_of_mem_set hy
  · obtain ⟨_, rfl⟩ := Prod.mk.inj e
    exact fldOf_fldSet _ _ 0 (by decide) (by decide)
  · exact absurd rfl e.2

/-- A reset that loses no field of the register lists nothing new there. -/
theorem FreeAt.resetRegs (h : FreeAt j s) {hit : Nat → Bool} {lose : Kept → Bool}
    (hm : hit (R.CPOL_STATUS j) = false ∨ regMask (R.CPOL_STATUS j) (fun f => lose f.kept) = 0) :
    FreeAt j (s.resetRegs hit lose) := by
  intro x hx
  rw [State.resetRegs_regs] at hx
  obtain ⟨⟨a, y⟩, hy, e⟩ := List.mem_filterMap.mp hx
  obtain rfl : R.CPOL_STATUS j = a := key_of_resetEntry _ _ e
  rw [resetEntry_of_kept hm] at e
  split at e
  · cases e
  · cases e
    exact h _ hy

end

/-! What an SRST leaves of the canton states and keys. -/

theorem cpol_ne_seal (j m : Nat) (hj : j < 8) : R.CPOL_STATUS j ≠ R.SEAL_STATUS m := by
  unfold R.CPOL_STATUS R.SEAL_STATUS tdBase mdBase
  omega

/-- A canton that is FREE in its register, with no key. -/
def Vacant (j : Nat) (s : State) : Prop := FreeAt j s ∧ ∀ x ∈ s.keySlots, x.1 ≠ j

section
variable {j : Nat} {s : State}

theorem Vacant.eraseKeys (h : Vacant j s) (hj : j < 8) (k : Nat) : Vacant j (s.eraseKeys k) := by
  refine ⟨?_, fun x hx => h.2 x
      ((Spared.eraseKeys (K := fun _ => False) (M := fun _ => False) (fun _ h => h.elim) (.refl s) k).keySlots x hx)⟩
  unfold State.eraseKeys
  extract_lets c c' u v sec w
  have hw : FreeAt j w := h.1
  exact List.foldlRecOn (motive := FreeAt j) _ _ hw fun t ht m _ => (show FreeAt j (t.setEng _ _) from ht).put_of_ne
      (cpol_ne_seal j m hj) _ _

/-- What an SRST does to a canton's view. -/
def State.srstView (t : State) (k : Nat) : State :=
  ((t.eraseKeys k).resetRegs (cantonView k) loseN).put (R.CPOL_STATUS k) F.CPOL_STATUS_STATE 0

theorem cpol_lt {j : Nat} (hj : j < 8) : 0x600 ≤ R.CPOL_STATUS j ∧ R.CPOL_STATUS j < 0x100000 := by
  unfold R.CPOL_STATUS tdBase
  omega

theorem Vacant.srstView (h : Vacant j s) (hj : j < 8) {k : Nat} (hk : k < 8) : Vacant j (s.srstView k) := by
  have he := h.eraseKeys hj k
  refine ⟨?_, he.2⟩
  by_cases e : k = j
  · subst e; exact freeAt_put _ _
  · refine (he.1.resetRegs (.inl (cantonView_of_td (cpol_lt hj).2 (.inr ⟨hk, (cpol_lt hj).1⟩)))).put_of_ne ?_ _ _
    unfold R.CPOL_STATUS
    omega

theorem vacant_srstView (j : Nat) (s : State) : Vacant j (s.srstView j) :=
  ⟨freeAt_put _ _, eraseKeys_keySlots s j⟩

end

/-- What an SRST leaves: no memory, no canton but FREE ones, no key of a canton; the identity and MSEQ stand. -/
theorem srst_leaves (s : State) : s.srst.mem = [] ∧ (∀ j, j < 8 → Vacant j s.srst) ∧
    s.srst.sec.identity = s.sec.identity ∧ s.srst.host.mseq = s.host.mseq := by
  have no : ∀ a, (fun _ : Nat => False) a → a < 0x100000 := fun _ h => h.elim
  have no' : ∀ a, (fun _ : Nat => False) a → inLs a := fun _ h => h.elim
  unfold State.srst
  extract_lets t1 t2 t3 t4 t5 t6 t7
  have h1 : Spared (fun _ => False) (fun _ => False) s t1 :=
    .foldl (fun _ _ _ hu => .resetCd no no' hu _ fun _ h => h.elim) (.refl s)
  have h2 : Spared (fun _ => False) (fun _ => False) s t2 := .foldl (fun _ _ _ hu => .resetMd no no' hu _) h1
  have h3 : Spared (fun _ => False) (fun _ => False) s t3 := .foldl (fun _ _ _ hu => .resetLd no no' hu _) h2
  have h4 : Spared (fun _ => False) (fun _ => False) s t4 :=
    .foldl (fun _ _ _ hu => (Spared.resetRegs (.eraseKeys no hu _) _ fun _ h => h.elim).put _ _ id) h3
  have h7 : Spared (fun _ => False) (fun _ => False) s t7 := by
    refine .put (.put (.resetRegs (.foldl (fun _ _ _ hu => ?_) h4) _ fun _ h => h.elim) _ _ id) _ _ id
    exact ((hu.put _ _ id).put _ _ id).put _ _ id
  have v7 (j : Nat) (hj : j < 8) : Vacant j t7 := by
    have v4 : Vacant j t4 := foldl_reaches (P := Vacant j) (g := State.srstView) (List.mem_range.mpr hj)
      (fun _ _ hk hu => hu.srstView hj (List.mem_range.mp hk)) (vacant_srstView j) t3
    have v5 : Vacant j t5 := by
      refine List.foldlRecOn (motive := Vacant j) _ _ v4 fun u hu k _ => ⟨?_, hu.2⟩
      exact ((hu.1.put_status hj k (by decide) (by decide) 0).put_status hj k (by decide) (by decide) 0).put_of_ne
        (cpol_ne_scrub j k) _ _
    clear_value t5
    have hmask : ∀ j, j < 8 → regMask (R.CPOL_STATUS j) (fun f => f.kept == .c) = 0 := by decide +kernel
    have v6 : FreeAt j t6 := v5.1.resetRegs (.inr (hmask j hj))
    have hne {a : Nat} (ha : 0x1180 ≤ a) : R.CPOL_STATUS j ≠ a := by
      unfold R.CPOL_STATUS tdBase
      omega
    exact ⟨(v6.put_of_ne (hne (by decide)) _ _).put_of_ne (hne (by decide)) _ _, v5.2⟩
  clear_value t7
  exact ⟨rfl, fun j hj => v7 j hj, h7.identity, h7.mseq⟩

/-! ### The statement -/

section
variable {s : State}

/-- An MRST begun in RUN. -/
theorem started_mrst_leaves (hi : Inv s) (src : Nat) (env : StartEnv) :
    let t := (s.startReset ⟨1, 0⟩ src).startSteps env
    (∀ a, t.byte a = 0) ∧ t.keySlots = [] ∧ t.releases = [] ∧ t.sec.identity = s.sec.identity ∧
      t.get R.RST_CAUSE F.RST_CAUSE_LAST = 5 ∧
      t.get R.RST_COUNT F.RST_COUNT_RESETS = satN (2 ^ 16 - 1) (s.get R.RST_COUNT F.RST_COUNT_RESETS + 1) ∧
      t.get R.BOOT_STATUS F.BOOT_STATUS_START = 2 ∧
      (t.get R.BOOT_STATUS F.BOOT_STATUS_PHASE = 7 ∨ t.get R.BOOT_STATUS F.BOOT_STATUS_PHASE = 9) ∧
      ∃ e ∈ t.events, e.code = 0x007D := by
  intro t
  have h : Started (s.allReset loseCN) t 2 5 := started_mrst s src env
  obtain ⟨hmem, hkeys, hrel, hid⟩ := allReset_fields s loseCN
  exact ⟨byte_of_mem_nil (h.mem.trans hmem), h.keySlots.trans hkeys, h.releases.trans hrel, h.identity.trans hid,
      h.last,
    h.count.trans (by rw [count_allReset hi]), h.start, h.phase, h.event⟩

/-- An SRST begun in RUN. -/
theorem started_srst_leaves (s : State) (src : Nat) (env : StartEnv) :
    let t := (s.startReset ⟨2, 0⟩ src).startSteps env
    (∀ a, t.byte a = 0) ∧ (∀ j, j < 8 → t.polState j = 0) ∧ (∀ x ∈ t.keySlots, 8 ≤ x.1) ∧
      t.sec.identity = s.sec.identity ∧ t.get R.RST_CAUSE F.RST_CAUSE_LAST = 6 ∧
      t.get R.BOOT_STATUS F.BOOT_STATUS_START = 3 ∧
      t.host.mseq = s.host.mseq ∧
      (t.get R.BOOT_STATUS F.BOOT_STATUS_PHASE = 7 ∨ t.get R.BOOT_STATUS F.BOOT_STATUS_PHASE = 9) ∧
      ∃ e ∈ t.events, e.code = 0x007D := by
  intro t
  have h : Started s.srst t 3 6 := started (r := ⟨2, 0⟩) (v := s.srst) (beginStart_srst s 6) (.inr rfl) (by decide)
      src env
  obtain ⟨hmem, hvac, hid, hseq⟩ := srst_leaves s
  refine ⟨byte_of_mem_nil (h.mem.trans hmem), fun j hj => ?_, fun x hx => ?_, h.identity.trans hid, h.last, h.start,
    (congrArg HostState.mseq h.host).trans hseq, h.phase, h.event⟩
  · exact (get_congr (h.pol j hj) _).trans ((hvac j hj).1.rd hj)
  · rw [h.keySlots] at hx
    by_contra hlt
    exact (hvac x.1 (by omega)).2 x hx rfl

end

/-- Settles O58: a request is taken, included or kept waiting by `askReset`; what each reset reaches is read off
`runReset`, kind by kind, and the start that follows an MRST or SRST leaves its record alone. -/
theorem resetsReachWhatTheyName : Obligations.ResetsReachWhatTheyName := by
  unfold Obligations.ResetsReachWhatTheyName
  refine ⟨fun s v env k die l c hc => ⟨fun hd => ?_, fun hv => ?_⟩,
      fun s env k die l hd hk hdie => ⟨fun hp => ?_, fun hp => ⟨?_, ?_, fun hn => ?_⟩⟩,
    fun s r hr => ⟨fun hm => if_pos hm, fun hm hl => ?_, fun n rest hm hl hp hlo hhi => ?_⟩⟩
  · exact execRst_of_barred (fun r => viewReset_of_dark v r hd) (fun _ => hd) env k die l c hc
  · subst hv
    exact execRst_of_barred (viewReset_safety s) (fun h => nomatch h) env k die l c hc
  · exact execRst_before_run hd hp env k die l hdie
  · intro n hn hi
    rw [exec_rstCrst_host hd hk, askReset_of_included 2 hp hn hi]
  · intro n hn hi hr
    rw [exec_rstCrst_host hd hk, askReset_of_apart 2 hp hn hi hr]
    exact ⟨_, rfl, rfl, rfl⟩
  · refine ⟨fun hpol => ?_, ?_, fun hl => ?_, fun hi hnv => ?_, fun hnv hm => ?_, ?_⟩
    · rw [exec_rstCrst_host hd hk, askReset_of_none 2 hp hn]
      exact ⟨_, rfl, startReset_crst 2 hpol⟩
    · rw [exec_rstDrst_host hd hdie, askReset_of_none 2 hp hn]
      exact ⟨_, rfl, startReset_drst s 2 hdie⟩
    · rw [exec_rstLrst_host hd l, askReset_of_none 2 hp hn]
      exact ⟨_, rfl, startReset_lrst s 2 hl⟩
    · exact ⟨_, exec_rstMrst_host hd hnv hp hn env, started_mrst_leaves hi 2 env⟩
    · exact exec_rstMrst_host_waits hd hnv hm env
    · exact ⟨_, exec_rstSrst_host hd hp hn env, started_srst_leaves s 2 env⟩
  · rw [execResetComplete_of_ne_starting s hm, finishReset_of_last s hr hl]
    exact ⟨_, rfl, rfl, fun d => getD_letGo s r, fun d => inReset_letGo s r, fun a => rd_letGo s r, letGo_eq s r⟩
  · rw [execResetComplete_of_ne_starting s hm]
    exact ⟨_, rfl, finishReset_begins s hr hl hp hlo hhi⟩

end Sys2Proof.Machine
end

section
/-! An event logged, and what logging leaves alone (O54). -/
namespace Sys2Proof.Machine

/-! ### What logging leaves alone -/

/-- The registers that logging an event writes, beside the number of the next: what was not stored, the record and the
health item shown, and the tail and the drops of the host's ring. -/
def logReg (a : Nat) : Bool :=
  decide (0x3000 ≤ a) && decide (a < 0x3008) || decide (0x3020 ≤ a) && decide (a < 0x3040) || a == 0x3504 ||
    a == 0x101020 || a == 0x101024

theorem ne_of_logReg {a b : Nat} (ha : logReg a = false) (hb : logReg b = true) : a ≠ b := by
  rintro rfl
  rw [ha] at hb
  cases hb

/-- What logging leaves alone: all registers but those above, and all of the state but what has been raised, the host's
side and the reliability state, of which the window and the containments stand. -/
structure LogKeeps (s t : State) : Prop where
  only : t = { s with regs := t.regs, rel := t.rel, events := t.events, host := t.host }
  rd : ∀ a, logReg a = false → t.rd a = s.rd a
  containAt : t.rel.containAt = s.rel.containAt
  window : t.rel.window = s.rel.window
  events : ∃ l, t.events = s.events ++ l

namespace LogKeeps
variable {s t u : State}

theorem refl (s : State) : LogKeeps s s := ⟨rfl, fun _ _ => rfl, rfl, rfl, [], (List.append_nil _).symm⟩

theorem trans (h : LogKeeps s t) (k : LogKeeps t u) : LogKeeps s u := by
  obtain ⟨l, hl⟩ := h.events
  obtain ⟨m, hm⟩ := k.events
  refine ⟨?_, fun a ha => (k.rd a ha).trans (h.rd a ha), k.containAt.trans h.containAt, k.window.trans h.window, l ++ m,
    by rw [hm, hl, List.append_assoc]⟩
  have hk := k.only
  rw [h.only] at hk
  exact hk

theorem cond {c : Prop} {d : Decidable c} (h : c → LogKeeps s t) (k : ¬ c → LogKeeps s u) :
    LogKeeps s (@ite State c d t u) := by
  by_cases e : c
  · rw [if_pos e]; exact h e
  · rw [if_neg e]; exact k e

theorem foldl {α : Type} {g : State → α → State} {l : List α}
    (hg : ∀ u, ∀ x ∈ l, LogKeeps s u → LogKeeps s (g u x)) (h : LogKeeps s t) : LogKeeps s (l.foldl g t) :=
  List.foldlRecOn (motive := LogKeeps s) l g h fun u hu x hx => hg u x hx hu

theorem wr (h : LogKeeps s t) {a : Nat} (x : W32) (ha : logReg a = true) : LogKeeps s (t.wr a x) :=
  h.trans ⟨rfl, fun _ hb => State.rd_wr_of_ne _ _ (ne_of_logReg hb ha), rfl, rfl, [], (List.append_nil _).symm⟩

theorem put (h : LogKeeps s t) {a : Nat} (f : Fld) (n : Nat) (ha : logReg a = true) : LogKeeps s (t.put a f n) :=
  h.wr _ ha

theorem setHost (h : LogKeeps s t) (x : HostState) : LogKeeps s (t.setHost x) :=
  h.trans ⟨rfl, fun _ _ => rfl, rfl, rfl, [], (List.append_nil _).symm⟩

theorem raise (h : LogKeeps s t) (code die : Nat) (c : Option Nat) (det : List Byte) :
    LogKeeps s (t.raise code die c det) :=
  h.trans ⟨rfl, fun _ _ => rfl, rfl, rfl, [_], rfl⟩

theorem setRel (h : LogKeeps s t) {x : RelState} (hc : x.containAt = t.rel.containAt) (hw : x.window = t.rel.window) :
    LogKeeps s (t.setRel x) :=
  h.trans ⟨rfl, fun _ _ => rfl, hc, hw, [], (List.append_nil _).symm⟩

theorem msix (h : LogKeeps s t) (v : Nat) : LogKeeps s (t.msix v) := .cond (fun _ => h.setHost _) fun _ => h.setHost _

theorem loseRecord (h : LogKeeps s t) : LogKeeps s t.loseRecord := setRel (h.put _ _ (by decide)) rfl rfl

theorem tellLosses (h : LogKeeps s t) : LogKeeps s t.tellLosses := by
  unfold State.tellLosses
  extract_lets due
  exact .cond (fun _ => (h.setRel (by rfl) (by rfl)).raise _ _ _ _) fun _ => h

theorem copyRecord (h : LogKeeps s t) (eseq cat : Nat) : LogKeeps s (t.copyRecord eseq cat) := by
  unfold State.copyRecord
  extract_lets u
  have hu : LogKeeps s u := h.setRel rfl rfl
  exact .cond (fun _ => hu.setRel rfl rfl) fun _ => .cond (fun _ => hu.setRel rfl rfl) fun _ => hu.loseRecord

theorem countEvent (h : LogKeeps s t) (e : Event) : LogKeeps s (t.countEvent e) := by
  unfold State.countEvent
  extract_lets i n rel
  exact wr (h.setRel (by rfl) (by rfl)) _ (by decide)

theorem evqIrq (h : LogKeeps s t) : LogKeeps s t.evqIrq := (h.setHost _).msix _

theorem evqWrite (h : LogKeeps s t) (r : EvRecord) : LogKeeps s (t.evqWrite r) := by
  unfold State.evqWrite
  extract_lets head tail u host base host' v w host''
  have hu : LogKeeps s u := h.put _ _ (by decide)
  have hw : LogKeeps s w := (h.setHost _).put _ _ (by decide)
  exact .cond (fun _ => h) fun _ => .cond (fun _ => .cond (fun _ => hu) fun _ => (hu.setHost _).raise _ _ _ _)
    fun _ => .cond (fun _ => hw.evqIrq) fun _ => hw.setHost _

theorem showRecord (h : LogKeeps s t) : LogKeeps s t.showRecord := by
  refine .foldl (fun u w hw hu => hu.wr _ ?_) (h.put _ _ (by decide))
  have hlt := List.mem_range.mp hw
  have e : ∀ w, w < 8 → logReg (R.EVL_REC w) = true := by decide
  exact e w hlt

end LogKeeps

/-! ### An event logged, in two parts -/

/-- The record that an event becomes. -/
def State.recordOf (s : State) (e : Event) : EvRecord := ⟨e, s.get64 R.EVL_NEXT_LO R.EVL_NEXT_HI, s.hostNs, false⟩

/-- The event numbered and put into the window. -/
def State.inWindow (s : State) (e : Event) : State :=
  (s.add64 R.EVL_NEXT_LO R.EVL_NEXT_HI 1).windowPut (s.recordOf e)

/-- The event copied and counted: the state that writes the host's ring. -/
def State.counted (s : State) (e : Event) : State :=
  ((s.inWindow e).copyRecord (s.get64 R.EVL_NEXT_LO R.EVL_NEXT_HI) (evCategory e.code)).countEvent e

theorem logEvent_eq (s : State) (e : Event) : s.logEvent e =
    (if 3 ≤ evCategory e.code then ((s.counted e).evqWrite (s.recordOf e)).showRecord.msix 1
      else ((s.counted e).evqWrite (s.recordOf e)).showRecord).tellLosses := rfl

/-- While the window has room nothing leaves it. -/
theorem windowPut_of_room {s : State} (r : EvRecord) (h : s.rel.window.length < 4096) :
    s.windowPut r = s.setRel { s.rel with window := r :: s.rel.window.take 4095 } := by
  unfold State.windowPut
  rw [List.getElem?_eq_none (by omega)]

/-- Everything of `LogKeeps` but the window. -/
theorem windowPut_keeps (s : State) (r : EvRecord) :
    LogKeeps (s.setRel { s.rel with window := r :: s.rel.window.take 4095 }) (s.windowPut r) := by
  unfold State.windowPut
  extract_lets rel gone t left
  have ht : LogKeeps t t := .refl t
  clear_value gone
  cases gone with
  | some o => exact .cond (fun _ => (ht.setRel (by rfl) (by rfl)).loseRecord) fun _ => ht
  | none => exact ht

/-- The event numbered and in the window, nothing else done. -/
def State.noted (s : State) (e : Event) : State :=
  (s.add64 R.EVL_NEXT_LO R.EVL_NEXT_HI 1).setRel { s.rel with window := s.recordOf e :: s.rel.window.take 4095 }

theorem counted_keeps (s : State) (e : Event) : LogKeeps (s.noted e) (s.counted e) :=
  .countEvent (.copyRecord (windowPut_keeps _ _) _ _) _

theorem logEvent_keeps (s : State) (e : Event) : LogKeeps (s.noted e) (s.logEvent e) := by
  rw [logEvent_eq]
  have h : LogKeeps (s.noted e) ((s.counted e).evqWrite (s.recordOf e)).showRecord :=
    .showRecord (.evqWrite (counted_keeps s e) _)
  exact .tellLosses (.cond (fun _ => h.msix _) fun _ => h)

theorem rd_noted (s : State) (e : Event) {a : Nat} (h0 : a ≠ R.EVL_NEXT_LO) (h1 : a ≠ R.EVL_NEXT_HI) :
    (s.noted e).rd a = s.rd a := by
  unfold State.noted
  rw [State.rd_setRel]
  exact (State.rd_wr_of_ne _ _ h1).trans (State.rd_wr_of_ne _ _ h0)

/-- A register that logging does not write. -/
theorem rd_logEvent (s : State) (e : Event) {a : Nat} (h : logReg a = false) (h0 : a ≠ R.EVL_NEXT_LO)
    (h1 : a ≠ R.EVL_NEXT_HI) :
    (s.logEvent e).rd a = s.rd a :=
  ((logEvent_keeps s e).rd a h).trans (rd_noted s e h0 h1)

theorem window_logEvent (s : State) (e : Event) :
    (s.logEvent e).rel.window = s.recordOf e :: s.rel.window.take 4095 :=
  (logEvent_keeps s e).window

/-- The number of the next event. -/
theorem next_logEvent (s : State) (e : Event) : (s.logEvent e).get64 R.EVL_NEXT_LO R.EVL_NEXT_HI =
    (s.get64 R.EVL_NEXT_LO R.EVL_NEXT_HI + 1) % 2 ^ 64 := by
  have hk := logEvent_keeps s e
  have hlo : (s.noted e).rd R.EVL_NEXT_LO = BitVec.ofNat 32 (s.get64 R.EVL_NEXT_LO R.EVL_NEXT_HI + 1) :=
    (State.rd_setRel _ _ _).trans ((State.rd_wr_of_ne _ _ (by decide)).trans (State.rd_wr_self _ _ _))
  have hhi : (s.noted e).rd R.EVL_NEXT_HI = BitVec.ofNat 32 ((s.get64 R.EVL_NEXT_LO R.EVL_NEXT_HI + 1) / 2 ^ 32) :=
    (State.rd_setRel _ _ _).trans (State.rd_wr_self _ _ _)
  generalize s.get64 R.EVL_NEXT_LO R.EVL_NEXT_HI = n at *
  unfold State.get64
  rw [hk.rd _ (by decide), hk.rd _ (by decide), hlo, hhi, BitVec.toNat_ofNat, BitVec.toNat_ofNat]
  omega

/-! ### What copying, the host's ring and the record shown do -/

section
variable {s : State}

theorem copyRecord_of_token (eseq : Nat) {cat : Nat} (hc : cat < 3) (ht : 0 < s.refill.rel.tokens) :
    s.copyRecord eseq cat = s.refill.setRel { s.refill.rel with
      waiting := s.refill.rel.waiting ++ [(eseq, s.refill.now)], tokens := s.refill.rel.tokens - 1 } := by
  rw [State.copyRecord, if_neg (by omega), if_pos ht]

theorem copyRecord_of_fatal (eseq : Nat) {cat : Nat} (hc : 3 ≤ cat) :
    s.copyRecord eseq cat = s.refill.setRel { s.refill.rel with
      waiting := s.refill.rel.waiting ++ [(eseq, s.refill.now)] } := by
  rw [State.copyRecord, if_pos hc]

/-- What waits to be copied, and what was lost, once an event is counted that is copied for sure. -/
theorem counted_waits (e : Event) (hroom : s.rel.window.length < 4096)
    (hc : 3 ≤ evCategory e.code ∨ evCategory e.code < 3 ∧ 0 < s.refill.rel.tokens) :
    (s.counted e).rel.waiting = s.rel.waiting ++ [(s.get64 R.EVL_NEXT_LO R.EVL_NEXT_HI, s.now)] ∧
      (s.counted e).rel.lost = s.rel.lost := by
  unfold State.counted State.inWindow
  rw [windowPut_of_room _ (by exact hroom)]
  obtain hc | ⟨hc, ht⟩ := hc
  · rw [copyRecord_of_fatal _ hc]
    exact ⟨rfl, rfl⟩
  · rw [copyRecord_of_token _ hc (by exact ht)]
    exact ⟨rfl, rfl⟩

/-- Counting raises nothing and leaves the host's side alone. -/
theorem counted_calm (e : Event) : (s.counted e).host = s.host ∧ (s.counted e).events = s.events := by
  have hp (t : State) (r : EvRecord) : (t.windowPut r).host = t.host ∧ (t.windowPut r).events = t.events := by
    unfold State.windowPut
    extract_lets gone rel u left
    clear_value gone
    cases gone with
    | some o => dsimp only; split <;> exact ⟨rfl, rfl⟩
    | none => exact ⟨rfl, rfl⟩
  have hc (t : State) (n c : Nat) : (t.copyRecord n c).host = t.host ∧ (t.copyRecord n c).events = t.events := by
    unfold State.copyRecord
    dsimp only
    split
    · exact ⟨rfl, rfl⟩
    · split <;> exact ⟨rfl, rfl⟩
  obtain ⟨hp1, hp2⟩ := hp (s.add64 R.EVL_NEXT_LO R.EVL_NEXT_HI 1) (s.recordOf e)
  obtain ⟨hc1, hc2⟩ := hc (s.inWindow e) (s.get64 R.EVL_NEXT_LO R.EVL_NEXT_HI) (evCategory e.code)
  exact ⟨hc1.trans hp1, hc2.trans hp2⟩

/-- Counting writes the number of the next event, what was not stored, and the health item shown. -/
theorem rd_counted (e : Event) {a : Nat} (h0 : a ≠ R.EVL_NEXT_LO) (h1 : a ≠ R.EVL_NEXT_HI) (h2 : a ≠ R.EVL_UNSTORED)
    (h3 : a ≠ R.HLTH_VAL) : (s.counted e).rd a = s.rd a := by
  have hl (t : State) : t.loseRecord.rd a = t.rd a := (State.rd_setRel _ _ _).trans (State.rd_put_of_ne _ _ _ h2)
  have hp (t : State) (r : EvRecord) : (t.windowPut r).rd a = t.rd a := by
    unfold State.windowPut
    extract_lets gone rel u left
    clear_value gone
    cases gone with
    | some o => dsimp only; split; exact (hl _).trans rfl; rfl
    | none => rfl
  have hc (t : State) (n c : Nat) : (t.copyRecord n c).rd a = t.rd a := by
    unfold State.copyRecord
    dsimp only
    split
    · rfl
    · split
      · rfl
      · exact (hl _).trans rfl
  have ha (t : State) : (t.add64 R.EVL_NEXT_LO R.EVL_NEXT_HI 1).rd a = t.rd a :=
    (State.rd_wr_of_ne _ _ h1).trans (State.rd_wr_of_ne _ _ h0)
  have hh (t : State) : (t.countEvent e).rd a = t.rd a := State.rd_wr_of_ne _ _ h3
  unfold State.counted State.inWindow
  rw [hh, hc, hp, ha]

theorem evqWrite_of_off (r : EvRecord) (h : s.flag R.HI_EVQ_CTL F.HI_EVQ_CTL_EN = false) : s.evqWrite r = s :=
  if_pos (.inl h)

theorem showRecord_regsOnly (s : State) : RegsOnly s s.showRecord :=
  RegsOnly.foldl (fun _ _ h => h.wr _ _) ((RegsOnly.refl s).put _ _ _)

theorem rd_showRecord (s : State) {a : Nat} (h0 : a ≠ R.EVL_STATUS) (h : ∀ w, w < 8 → a ≠ R.EVL_REC w) :
    s.showRecord.rd a = s.rd a := by
  refine (rd_foldl (fun u w hw => State.rd_wr_of_ne _ _ (h w (List.mem_range.mp hw))) _).trans ?_
  exact State.rd_put_of_ne _ _ _ h0

theorem tellLosses_of_none (h : s.rel.lost = 0) : s.tellLosses = s := by
  unfold State.tellLosses
  dsimp only
  rw [if_neg (fun k => by omega)]

/-- Telling losses raises an event at most, and no register shows it. -/
theorem tellLosses_calm (s : State) : s.tellLosses.host = s.host ∧ (∀ a, s.tellLosses.rd a = s.rd a) ∧
    ∀ x ∈ s.events, x ∈ s.tellLosses.events := by
  unfold State.tellLosses
  extract_lets due rel
  split
  · exact ⟨rfl, fun _ => rfl, fun x hx => List.mem_append_left _ hx⟩
  · exact ⟨rfl, fun _ => rfl, fun x hx => hx⟩

end

end Sys2Proof.Machine
end

section
/-! Containment of a canton and the restart of the module (O54). -/
namespace Sys2Proof.Machine

/-! ### A canton contained -/

/-- The unit FIFOs of a compute die stopped. -/
def State.stopUnits (t : State) (d : Nat) : State :=
  t.setCd (fin40 d) { t.cd (fin40 d) with stopped := Vector.replicate 8 true }

/-- The canton's queues and unit FIFOs stopped. -/
def State.halted (s : State) (k : Nat) : State :=
  ((s.stopQueues k).cantonCds k).foldl State.stopUnits (s.stopQueues k)

/-- The canton's bit in CONT_STATUS, 0x0388 and vector 1. -/
def State.markFatal (t : State) (k code : Nat) : State :=
  let t := t.put R.CONT_STATUS F.CONT_STATUS_CFATAL (t.get R.CONT_STATUS F.CONT_STATUS_CFATAL ||| 2 ^ k)
  (t.raise 0x0388 63 (some k) (bytes12 (leBytes 2 code))).msix 1

theorem contain_eq (s : State) (k code : Nat) : s.contain k code =
    (let t := (s.halted k).markFatal k code
     if (t.get R.CONT_CTL F.CONT_CTL_AUTOCRST).testBit k then
       t.setRel { t.rel with
         containAt := t.rel.containAt ++ [(k, t.now + t.get R.CONT_CTL F.CONT_CTL_DELAYMS * msTicks)] }
     else t) := rfl

/-- The parts of the state that halting a canton leaves alone. -/
def State.calmFields (s : State) := (s.rel, s.pwr, s.mem, s.now)

section
variable (s : State) (k : Nat)

theorem calm_queueStop (d : Fin 40) (q : Fin 4) : (s.queueStop d q).calmFields = s.calmFields := by
  unfold State.queueStop
  dsimp only
  split <;> rfl

theorem calm_stopQueues : (s.stopQueues k).calmFields = s.calmFields :=
  proj_foldl State.calmFields (fun u _ _ => proj_foldl State.calmFields (fun u q _ => calm_queueStop u _ q) u) s

theorem calm_halted : (s.halted k).calmFields = s.calmFields :=
  (proj_foldl State.calmFields (g := State.stopUnits) (fun _ _ _ => rfl) (s.stopQueues k)).trans (calm_stopQueues s k)

theorem rd_queueStop (d : Fin 40) (q : Fin 4) {a : Nat} (h : a < 0x100000) : (s.queueStop d q).rd a = s.rd a := by
  have hne : a ≠ R.SEQ_Q_STATUS d q := by unfold R.SEQ_Q_STATUS cdBase; omega
  unfold State.queueStop
  dsimp only
  split
  · exact (State.rd_put_of_ne _ _ _ hne).trans rfl
  · rfl

theorem rd_stopQueues {a : Nat} (h : a < 0x100000) : (s.stopQueues k).rd a = s.rd a :=
  rd_foldl (fun u _ _ => rd_foldl (fun u q _ => rd_queueStop u _ q h) u) s

theorem rd_halted {a : Nat} (h : a < 0x100000) : (s.halted k).rd a = s.rd a :=
  (rd_foldl (g := State.stopUnits) (fun _ _ _ => rfl) (s.stopQueues k)).trans (rd_stopQueues s k h)

theorem cantonCds_congr {t : State} (h : t.rd R.ARCH_CFG = s.rd R.ARCH_CFG) : t.cantonCds k = s.cantonCds k := by
  unfold State.cantonCds State.colCanton State.cantons
  rw [get_congr h]

/-- A queue that waits, fetches or runs no more. -/
def Stopped (d : Fin 40) (q : Fin 4) (t : State) : Prop := t.qState d q ≠ 1 ∧ t.qState d q ≠ 2 ∧ t.qState d q ≠ 3

theorem stopped_queueStop (d : Fin 40) (q : Fin 4) : Stopped d q (s.queueStop d q) := by
  unfold Stopped State.queueStop
  dsimp only
  split
  · have e (t : State) : (t.setQState d q 6).qState d q = 6 := State.get_put_self _ _ _ _ (by decide) (by decide)
    rw [e]
    decide
  · next h =>
    obtain ⟨h1, h⟩ := not_or.mp h
    obtain ⟨h2, h3⟩ := not_or.mp h
    exact ⟨h1, h2, h3⟩

/-- A queue stays stopped whichever queue is stopped next. -/
theorem Stopped.queueStop {s : State} {d : Fin 40} {q : Fin 4} (h : Stopped d q s) (e : Fin 40) (r : Fin 4) :
    Stopped d q (s.queueStop e r) := by
  by_cases hk : d = e ∧ q = r
  · obtain ⟨rfl, rfl⟩ := hk
    exact stopped_queueStop s d q
  · have hne : R.SEQ_Q_STATUS d q ≠ R.SEQ_Q_STATUS e r := fun ha => by
      have := d.isLt; have := e.isLt; have := q.isLt; have := r.isLt
      unfold R.SEQ_Q_STATUS cdBase at ha
      exact hk ⟨Fin.ext (by omega), Fin.ext (by omega)⟩
    have hq : (s.queueStop e r).qState d q = s.qState d q := by
      unfold State.queueStop
      dsimp only
      split
      · exact (State.get_put_of_ne _ _ _ _ hne).trans rfl
      · rfl
    unfold Stopped
    rw [hq]
    exact h

theorem stopped_stopQueues {d : Nat} (hd : d ∈ s.cantonCds k) (q : Fin 4) : Stopped (fin40 d) q (s.stopQueues k) := by
  refine foldl_reaches (P := Stopped (fin40 d) q) hd (fun u e _ hu => ?_) (fun u => ?_) s
  · exact List.foldlRecOn (motive := Stopped (fin40 d) q) _ _ hu fun v hv r _ => hv.queueStop _ r
  · refine foldl_reaches (P := Stopped (fin40 d) q) (x := q) ?_ (fun v r _ hv => hv.queueStop _ r)
      (fun v => stopped_queueStop v _ q) u
    revert q
    decide

/-- What halting a canton gives on its compute dies. -/
theorem halted_cds {d : Nat} (hd : d ∈ s.cantonCds k) :
    (∀ u : Fin 8, ((s.halted k).cd (fin40 d)).stopped[u] = true) ∧ ∀ q : Fin 4, Stopped (fin40 d) q (s.halted k) := by
  have hc : (s.stopQueues k).cantonCds k = s.cantonCds k := cantonCds_congr s k (rd_stopQueues s k (by decide))
  refine ⟨fun u => ?_, fun q => ?_⟩
  · refine foldl_reaches (P := fun t => (t.cd (fin40 d)).stopped[u] = true) (x := d) (by rwa [hc]) (fun t e _ ht => ?_)
      (fun t => ?_) (s.stopQueues k)
    · unfold State.stopUnits
      by_cases h : fin40 d = fin40 e
      · rw [h, State.cd_setCd_self]; simp
      · rw [State.cd_setCd_of_ne _ _ h]; exact ht
    · unfold State.stopUnits
      rw [State.cd_setCd_self]; simp
  · have e : (s.halted k).qState (fin40 d) q = (s.stopQueues k).qState (fin40 d) q :=
      get_congr (rd_foldl (g := State.stopUnits) (fun _ _ _ => rfl) (s.stopQueues k)) _
    unfold Stopped
    rw [e]
    exact stopped_stopQueues s k hd q

end

section
variable (t : State) (k code : Nat)

theorem msix_eq (v : Nat) : ∃ h : HostState, t.msix v = t.setHost h := by
  unfold State.msix
  split
  · exact ⟨_, rfl⟩
  · exact ⟨_, rfl⟩

/-- Marking a canton writes its bit, raises one event and tells the host. -/
theorem markFatal_eq : ∃ h : HostState, t.markFatal k code =
    ((t.put R.CONT_STATUS F.CONT_STATUS_CFATAL (t.get R.CONT_STATUS F.CONT_STATUS_CFATAL ||| 2 ^ k)).raise 0x0388 63
      (some k) (bytes12 (leBytes 2 code))).setHost h :=
  msix_eq _ 1

/-- Setting bit k in a number of eight bits. -/
theorem testBit_set : ∀ n, n < 256 → ∀ k, k < 8 → ((n ||| 2 ^ k) % 256).testBit k = true := by decide +kernel

theorem rd_markFatal {a : Nat} (h : a ≠ R.CONT_STATUS) : (t.markFatal k code).rd a = t.rd a := by
  obtain ⟨h', e⟩ := markFatal_eq t k code
  rw [e]
  exact State.rd_put_of_ne _ _ _ h

theorem cfatal_markFatal {k : Nat} (hk : k < 8) :
    ((t.markFatal k code).get R.CONT_STATUS F.CONT_STATUS_CFATAL).testBit k = true := by
  obtain ⟨h, e⟩ := markFatal_eq t k code
  have hg : (t.markFatal k code).get R.CONT_STATUS F.CONT_STATUS_CFATAL =
      (t.get R.CONT_STATUS F.CONT_STATUS_CFATAL ||| 2 ^ k) % 256 := by
    rw [e]
    exact (get_congr rfl _).trans (State.get_put_self _ _ _ _ (by decide) (by decide))
  rw [hg]
  exact testBit_set _ (get_lt t _ _) k hk

/-- Once the canton is marked, containment changes the reliability state alone: the automatic CRST is noted as due. -/
theorem contain_eq_setRel (s : State) : ∃ rel : RelState,
    s.contain k code = ((s.halted k).markFatal k code).setRel rel ∧
    rel.window = s.rel.window ∧ ((s.get R.CONT_CTL F.CONT_CTL_AUTOCRST).testBit k = true →
      (k, s.now + s.get R.CONT_CTL F.CONT_CTL_DELAYMS * msTicks) ∈ rel.containAt) := by
  obtain ⟨h, e⟩ := markFatal_eq (s.halted k) k code
  have hcalm := calm_halted s k
  simp only [State.calmFields, Prod.mk.injEq] at hcalm
  obtain ⟨hrel, _, _, hnow⟩ := hcalm
  have hctl (f : Fld) : ((s.halted k).markFatal k code).get R.CONT_CTL f = s.get R.CONT_CTL f :=
    get_congr ((rd_markFatal _ _ _ (by decide)).trans (rd_halted s k (by decide))) f
  have hrel' : ((s.halted k).markFatal k code).rel = s.rel := by rw [e]; exact hrel
  have hnow' : ((s.halted k).markFatal k code).now = s.now := by rw [e]; exact hnow
  rw [contain_eq]
  dsimp only
  rw [hctl, hctl, hrel', hnow']
  split
  · next ha => exact ⟨_, rfl, rfl, fun _ => List.mem_append_right _ List.mem_cons_self⟩
  · next ha => exact ⟨_, by rw [← hrel']; rfl, rfl, fun hc => absurd hc ha⟩

theorem window_contain (s : State) : (s.contain k code).rel.window = s.rel.window := by
  obtain ⟨rel, e, hw, _⟩ := contain_eq_setRel k code s
  rw [e]
  exact hw

/-- What containment gives and what it leaves alone. -/
theorem contain_gives (s : State) (code : Nat) {k : Nat} (hk : k < 8) :
    let t := s.contain k code
    (t.get R.CONT_STATUS F.CONT_STATUS_CFATAL).testBit k = true ∧
      (∀ d ∈ s.cantonCds k, (∀ u : Fin 8, (t.cd (fin40 d)).stopped[u] = true) ∧ ∀ q : Fin 4, Stopped (fin40 d) q t) ∧
      (∃ x ∈ t.events, x.code = 0x0388 ∧ x.canton = some k) ∧
      ((s.get R.CONT_CTL F.CONT_CTL_AUTOCRST).testBit k = true →
        (k, s.now + s.get R.CONT_CTL F.CONT_CTL_DELAYMS * msTicks) ∈ t.rel.containAt) ∧
      t.pwr = s.pwr ∧ t.mem = s.mem := by
  intro t
  obtain ⟨h, e⟩ := markFatal_eq (s.halted k) k code
  have hcalm := calm_halted s k
  simp only [State.calmFields, Prod.mk.injEq] at hcalm
  obtain ⟨_, hpwr, hmem, _⟩ := hcalm
  obtain ⟨rel, ht, _, hat⟩ := contain_eq_setRel k code s
  unfold t
  rw [ht]
  refine ⟨cfatal_markFatal _ _ hk, fun d hd => ?_, ?_, hat, ?_, ?_⟩
  · obtain ⟨h1, h2⟩ := halted_cds s k hd
    have hcd : ((s.halted k).markFatal k code).cd (fin40 d) = (s.halted k).cd (fin40 d) := by rw [e]; rfl
    refine ⟨fun u => (congrArg (fun c : CDie => c.stopped[u]) hcd).trans (h1 u), fun q => ?_⟩
    have hq : (((s.halted k).markFatal k code).setRel rel).qState (fin40 d) q = (s.halted k).qState (fin40 d) q := by
      refine get_congr ((State.rd_setRel _ _ _).trans (rd_markFatal _ _ _ ?_)) _
      unfold R.SEQ_Q_STATUS R.CONT_STATUS cdBase tdBase
      omega
    unfold Stopped
    rw [hq]
    exact h2 q
  · rw [e]
    exact ⟨_, List.mem_append_right _ List.mem_cons_self, rfl, rfl⟩
  · rw [e]; exact hpwr
  · rw [e]; exact hmem

end

/-! ### The module restarted -/

section
variable (s : State)

/-- Taking up what waits for the flash changes registers, and whether the host was told. -/
theorem deferSync_eq : ∃ told : Bool,
    s.deferSync = { s with regs := s.deferSync.regs, pwr := { s.pwr with nvTold := told } } := by
  unfold State.deferSync
  extract_lets held t u v
  have hv : RegsOnly s v := (((RegsOnly.refl s).put _ _ _).put _ _ _).put _ _ _
  clear_value v
  split
  · exact ⟨false, congrArg (fun w : State => w.setPwr { w.pwr with nvTold := false }) hv⟩
  · exact ⟨s.pwr.nvTold, hv⟩

/-- A last-gasp record asked for, before what waits for the flash is taken up. -/
def State.gaspAsked (s : State) (cause : Nat) : State :=
  let w : NvWrite := ⟨0x4000000 + s.rel.lgPage % 4096 * 256, some (s.lastGaspBytes cause), 2, s.now⟩
  (s.setPwr { s.pwr with nvWait := w :: s.pwr.nvWait }).setRel
    { s.rel with lseq := s.rel.lseq + 1, lgPage := (s.rel.lgPage + 1) % 4096 }

theorem lastGasp_eq_deferSync (cause : Nat) : s.lastGasp cause = (s.gaspAsked cause).deferSync := rfl

/-- What the power state holds once a last-gasp record is asked for. -/
theorem lastGasp_eq (cause : Nat) : ∃ (w : NvWrite) (told : Bool) (rel : RelState),
    w.owner = 2 ∧ rel.window = s.rel.window ∧
    s.lastGasp cause = { s with
      regs := (s.lastGasp cause).regs, pwr := { s.pwr with nvWait := w :: s.pwr.nvWait, nvTold := told },
          rel := rel } := by
  obtain ⟨told, e⟩ := deferSync_eq (s.gaspAsked cause)
  rw [← lastGasp_eq_deferSync] at e
  refine ⟨_, told, _, ?_, ?_, e⟩ <;> rfl

theorem runReset_mrst : s.runReset ⟨1, 0⟩ = (s.allReset loseCN).noteStart 2 5 := beginStart_mrst s 5

/-- The parts of the power state that noting a start sets or leaves. -/
theorem pwr_noteStart (kind last : Nat) : (s.noteStart kind last).pwr.mode = .starting ∧
    (s.noteStart kind last).pwr.startKind = kind ∧ (s.noteStart kind last).pwr.nvWait = s.pwr.nvWait := by
  refine ⟨rfl, rfl, ?_⟩
  unfold State.noteStart
  dsimp only
  split <;> split <;> rfl

theorem startReset_rel (r : ResetReq) (src : Nat) : (s.startReset r src).rel = (s.runReset r).rel := rfl

theorem startReset_mem (r : ResetReq) (src : Nat) : (s.startReset r src).mem = (s.runReset r).mem := rfl

theorem startReset_pwr (r : ResetReq) (src : Nat) :
    (s.startReset r src).pwr = { (s.runReset r).pwr with resetNow := some r } := rfl

theorem allReset_rel (lose : Kept → Bool) : (s.allReset lose).rel.window = s.rel.window := rfl

theorem allReset_nvWait (lose : Kept → Bool) : (s.allReset lose).pwr.nvWait =
    s.pwr.nvWait.filter (fun (w : NvWrite) => w.owner == 1 || w.owner == 2) := rfl

/-- An MRST asked for within the module leaves the window. -/
theorem window_askReset_mrst (src : Nat) : (s.askReset ⟨1, 0⟩ src).1.rel.window = s.rel.window := by
  have hs : (s.startReset ⟨1, 0⟩ src).rel.window = s.rel.window := by
    rw [startReset_rel, runReset_mrst, noteStart_eq]
    exact allReset_rel s loseCN
  unfold State.askReset
  split
  · rfl
  · split
    · exact hs
    · split
      · rfl
      · split
        · exact hs
        · rfl

theorem window_fatalMrst : s.fatalMrst.rel.window = s.rel.window := by
  obtain ⟨w, told, rel, _, hw, e⟩ := lastGasp_eq s 0
  have hg : (s.lastGasp 0).rel.window = s.rel.window := by rw [e]; exact hw
  unfold State.fatalMrst
  dsimp only
  split
  · exact hg
  · exact (window_askReset_mrst _ _).trans hg

/-- While the flash is being written the restart waits. -/
theorem fatalMrst_waits {w : NvWrite} (h : s.pwr.nv = some w) : s.fatalMrst.pwr.mrstWaits = some 5 ∧
    s.fatalMrst.pwr.nv = some w ∧ s.fatalMrst.pwr.mode = s.pwr.mode ∧ s.fatalMrst.mem = s.mem := by
  obtain ⟨w', told, rel, _, _, e⟩ := lastGasp_eq s 0
  have hnv : (s.lastGasp 0).pwr.nv = some w := by rw [e]; exact h
  have hmode : (s.lastGasp 0).pwr.mode = s.pwr.mode := by rw [e]
  have hmem : (s.lastGasp 0).mem = s.mem := by rw [e]
  have hf : s.fatalMrst = (s.lastGasp 0).setPwr { (s.lastGasp 0).pwr with mrstWaits := some 5 } :=
    if_pos (by rw [hnv]; rfl)
  rw [hf]
  exact ⟨rfl, hnv, hmode, hmem⟩

/-- With no write in progress the restart begins. -/
theorem fatalMrst_begins (hn : s.pwr.nv = none) (hp : s.get R.BOOT_STATUS F.BOOT_STATUS_PHASE = 8)
    (hr : s.pwr.resetNow = none) : s.fatalMrst.pwr.mode = .starting ∧ s.fatalMrst.pwr.startKind = 2 ∧
    s.fatalMrst.get R.RST_CAUSE F.RST_CAUSE_LAST = 5 ∧ (∃ w ∈ s.fatalMrst.pwr.nvWait, w.owner = 2) ∧
    ∀ a, s.fatalMrst.byte a = 0 := by
  obtain ⟨w, told, rel, hw, _, e⟩ := lastGasp_eq s 0
  have hpwr : (s.lastGasp 0).pwr = { s.pwr with nvWait := w :: s.pwr.nvWait, nvTold := told } := by rw [e]
  have hnv : (s.lastGasp 0).pwr.nv = none := by rw [hpwr]; exact hn
  have hnow : (s.lastGasp 0).pwr.resetNow = none := by rw [hpwr]; exact hr
  have hphase : (s.lastGasp 0).get R.BOOT_STATUS F.BOOT_STATUS_PHASE = 8 := by
    rw [← hp]
    exact get_congr (rd_lastGasp s 0 (by decide) (by decide) (by decide)) _
  have hf : s.fatalMrst = (s.lastGasp 0).startReset ⟨1, 0⟩ 5 := by
    unfold State.fatalMrst
    dsimp only
    rw [hnv, askReset_of_none 5 hphase hnow]
    rfl
  rw [hf]
  generalize s.lastGasp 0 = u at *
  obtain ⟨hmode, hkind, hwait⟩ := pwr_noteStart (u.allReset loseCN) 2 5
  rw [startReset_pwr, runReset_mrst]
  refine ⟨hmode, hkind, ?_, ⟨w, ?_, hw⟩, byte_of_mem_nil ?_⟩
  · rw [get_congr (rd_startReset u ⟨1, 0⟩ 5 R.RST_CAUSE), runReset_mrst]
    exact (get_noteStart (u.allReset loseCN) (kind := 2) (last := 5) (.inl rfl) (by decide)).2.1
  · show w ∈ ((u.allReset loseCN).noteStart 2 5).pwr.nvWait
    rw [hwait, allReset_nvWait, hpwr]
    exact List.mem_filter.mpr ⟨List.mem_cons_self, by simp [hw]⟩
  · rw [startReset_mem, runReset_mrst, noteStart_eq]
    exact (allReset_fields u loseCN).1

end

/-! ### What an event's category calls for -/

section
variable {s : State} {e : Event}

theorem actOn_of_ne (h : evCategory e.code ≠ 3) : s.actOn e = s := if_pos h

theorem actOn_canton {k : Nat} (h : evCategory e.code = 3) (hc : e.canton = some k) (hp : s.polState k ≠ 2)
    (hf : (s.get R.CONT_STATUS F.CONT_STATUS_CFATAL).testBit k = false) : s.actOn e = s.contain k e.code := by
  rw [State.actOn, if_neg (fun n => n h), hc]
  exact if_neg (fun n => n.elim hp (by simp [hf]))

theorem actOn_module (h : evCategory e.code = 3) (hc : e.canton = none) (hf : fatalCovered e.code = false) :
    s.actOn e = s.fatalMrst := by
  rw [State.actOn, if_neg (fun n => n h), hc]
  exact if_neg (by simp [hf])

theorem window_actOn (s : State) (e : Event) : (s.actOn e).rel.window = s.rel.window := by
  unfold State.actOn
  split
  · rfl
  · split
    · split
      · rfl
      · exact window_contain _ _ _
    · split
      · rfl
      · exact window_fatalMrst _

end

end Sys2Proof.Machine
end

section
/-! The automatic CRST, reads of pairs and the host's ring (O54). -/
namespace Sys2Proof.Machine

/-! ### The automatic CRST -/

section
variable {s : State} {k : Fin 8}

/-- The containments of the canton struck from what is due. -/
def State.crstTaken (s : State) (k : Fin 8) : State :=
  s.setRel { s.rel with containAt := s.rel.containAt.filter (fun (x : Nat × Nat) => x.1 != k.val) }

theorem exec_autoCrst_of_due (ha : (s.get R.CONT_CTL F.CONT_CTL_AUTOCRST).testBit k = true)
    (hd : ∃ u, (k.val, u) ∈ s.rel.containAt ∧ u ≤ s.now) : exec (.autoCrst k) s = .next
        ((s.crstTaken k).askReset ⟨3, k⟩ 5).1 := by
  obtain ⟨u, hu, hle⟩ := hd
  refine if_pos ?_
  rw [ha, Bool.and_true, List.any_eq_true]
  exact ⟨_, hu, by simp [hle]⟩

theorem exec_autoCrst_of_not_due (h : ∀ x ∈ s.rel.containAt, x.1 = k.val → s.now < x.2) :
    exec (.autoCrst k) s = .next s := by
  refine if_neg ?_
  rw [Bool.and_eq_true, List.any_eq_true]
  rintro ⟨⟨x, hx, hc⟩, _⟩
  simp only [Bool.and_eq_true, beq_iff_eq, decide_eq_true_eq] at hc
  have := h x hx hc.1
  omega

/-- The automatic CRST begun in RUN. -/
theorem autoCrst_begins (hp : s.get R.BOOT_STATUS F.BOOT_STATUS_PHASE = 8) (hr : s.pwr.resetNow = none) :
    let t := ((s.crstTaken k).askReset ⟨3, k⟩ 5).1
    t.pwr.resetNow = some ⟨3, k.val⟩ ∧ (t.get R.CONT_STATUS F.CONT_STATUS_CFATAL).testBit k = false ∧
      OneEvent s t 0x007D 63 none ∧ ∀ x ∈ t.rel.containAt, x.1 ≠ k.val := by
  intro t
  have hp' : (s.crstTaken k).get R.BOOT_STATUS F.BOOT_STATUS_PHASE = 8 := (get_congr (State.rd_setRel _ _ _) _).trans hp
  have hevents : (s.crstTaken k).events = s.events := rfl
  have hat : ∀ x ∈ (s.crstTaken k).rel.containAt, x.1 ≠ k.val := fun x hx => by
    simpa using List.of_mem_filter hx
  have ht : t = (s.crstTaken k).startReset ⟨3, k⟩ 5 := by
    unfold t
    rw [askReset_of_none 5 hp' (by exact hr)]
  rw [ht]
  generalize s.crstTaken k = u at *
  have hs := crst_spared u k
  refine ⟨rfl, ?_, ?_, fun x hx => hat x (hs.containAt x ?_)⟩
  · have e : (u.startReset ⟨3, k⟩ 5).get R.CONT_STATUS F.CONT_STATUS_CFATAL = (u.crst k).get R.CONT_STATUS
        F.CONT_STATUS_CFATAL :=
      get_congr ((rd_startReset u ⟨3, k⟩ 5 R.CONT_STATUS).trans
        (rd_holdDies (u.crst k) (u.resetDies ⟨3, k⟩) true (ne_fabPortStatus (by decide) (by decide)))) _
    rw [e]
    exact crst_cfatal u k.isLt
  · obtain ⟨e, he, hc⟩ := startReset_oneEvent u ⟨3, k⟩ 5
        (runReset_silent u (by exact Nat.le_refl 3) (by exact (by decide : 3 ≤ 5))).1
    exact ⟨e, he.trans (by rw [hevents]), hc⟩
  · have e : (u.startReset ⟨3, k⟩ 5).rel = (u.crst k).rel := by
      rw [startReset_rel, runReset_crst, holdDies_eq]
    rwa [e] at hx

end

/-! ### Reads of pairs -/

section
variable {s u : State} {v : View} {a key : Nat}

theorem exec_pairRead_refused (hu : s.readSync a = u) (hr : u.readRefused v a = true) (hi : Bool) :
    exec (.registerPairRead v a hi) s = .next { u with resp := .value (u.regRead v a) } := by
  subst hu
  exact if_pos hr


/-- The latched values of one view's register. -/
def latchOf (v : View) (k : Nat) (p : (View × Nat) × W32) : Bool := p.1 == (v, k)

/-- A read of _LO that is answered: of a pair of the hardware's it latches _HI. -/
theorem exec_pairRead_lo (hu : s.readSync a = u) (hk : u.keyFor v a = key) (hr : u.readRefused v a = false) {r : RegRow}
    (hreg : regAt key = some r) : exec (.registerPairRead v a false) s = .next
      (if hwPairs.contains (r.die, r.off) then
        { u with
          resp := .value (u.regRead v a)
          latch := ((v, key + 4), u.regRead v (a + 4)) :: u.latch.filter (fun p => !latchOf v (key + 4) p) }
      else { u with resp := .value (u.regRead v a) }) := by
  subst hu
  show execRegisterPairRead v a false s = _
  unfold execRegisterPairRead
  dsimp only
  rw [if_neg (by simp [hr]), hk, hreg]
  rfl

/-- A read of _HI answers what was latched for it, once. -/
theorem exec_pairRead_hi_latched (hu : s.readSync a = u) (hk : u.keyFor v a = key) (hr : u.readRefused v a = false)
    {x : W32}
    (hx : u.latch.find? (fun p => p.1 == (v, key)) = some ((v, key), x)) : exec (.registerPairRead v a true) s =
      .next { u with resp := .value x, latch := u.latch.filter (fun p => !(p.1 == (v, key))) } := by
  subst hu
  show execRegisterPairRead v a true s = _
  unfold execRegisterPairRead
  dsimp only
  rw [if_neg (by simp [hr]), if_pos rfl, hk, hx]

theorem exec_pairRead_hi_of_none (hu : s.readSync a = u) (hk : u.keyFor v a = key) (hr : u.readRefused v a = false)
    (hx : u.latch.find? (fun p => p.1 == (v, key)) = none) : exec (.registerPairRead v a true) s =
      .next { u with resp := .value (u.regRead v a) } := by
  subst hu
  show execRegisterPairRead v a true s = _
  unfold execRegisterPairRead
  dsimp only
  rw [if_neg (by simp [hr]), if_pos rfl, hk, hx]

/-- A value latched for one view's register is found first, and no other is lost. -/
theorem find?_latch (l : List ((View × Nat) × W32)) (v : View) (k : Nat) (x : W32) :
    (((v, k), x) :: l.filter (fun p => !latchOf v k p)).find? (fun p => p.1 == (v, k)) = some ((v, k), x) ∧
      ∀ q : View × Nat, q ≠ (v, k) →
        (((v, k), x) :: l.filter (fun p => !latchOf v k p)).find? (fun p => p.1 == q) =
          l.find? (fun p => p.1 == q) := by
  refine ⟨by simp, fun q hq => ?_⟩
  rw [List.find?_cons_of_neg (by simpa using hq.symm), List.find?_filter]
  congr 1
  funext p
  unfold latchOf
  by_cases h : p.1 = q
  · simp [h, hq]
  · simp [h]

end

/-! ### The host's ring -/

section
variable {s : State}

/-- What the ring gives of an event of the lower categories, with the ring on. -/
theorem logEvent_low (e : Event) (hc : evCategory e.code < 3) :
    s.logEvent e = ((s.counted e).evqWrite (s.recordOf e)).showRecord.tellLosses := by
  rw [logEvent_eq, if_neg (by omega)]

/-- Numbers in the ring: the registers that say where a record goes. -/
theorem rd_counted_of_hd (e : Event) {a : Nat} (h : 0x100000 ≤ a) : (s.counted e).rd a = s.rd a := by
  refine rd_counted e ?_ ?_ ?_ ?_ <;> rintro rfl <;> exact absurd h (by decide)

/-- After the ring was written its registers stand, and what was written and raised stays. -/
theorem logEvent_after (e : Event) (hc : evCategory e.code < 3) {a : Nat} (h : 0x100000 ≤ a) :
    (s.logEvent e).rd a = ((s.counted e).evqWrite (s.recordOf e)).rd a := by
  rw [logEvent_low e hc, (tellLosses_calm _).2.1, rd_showRecord]
  · rintro rfl
    exact absurd h (by decide)
  · rintro w hw rfl
    unfold R.EVL_REC tdBase at h
    omega

theorem host_logEvent (e : Event) (hc : evCategory e.code < 3) :
    (s.logEvent e).host = ((s.counted e).evqWrite (s.recordOf e)).host := by
  rw [logEvent_low e hc, (tellLosses_calm _).1, showRecord_regsOnly]

theorem events_logEvent (e : Event) (hc : evCategory e.code < 3) {x : Event}
    (hx : x ∈ ((s.counted e).evqWrite (s.recordOf e)).events) : x ∈ (s.logEvent e).events := by
  rw [logEvent_low e hc]
  refine (tellLosses_calm _).2.2 x ?_
  rw [showRecord_regsOnly]
  exact hx


/-- The entry of the ring after the last one written. -/
def State.evqPlace (s : State) : Nat :=
  s.get R.HI_EVQ_BASE_LO F.HI_EVQ_BASE_LO_ADDR * 4096 + (s.rd R.HI_EVQ_BASE_HI).toNat * 2 ^ 32 +
    32 * (s.get R.HI_EVQ_TAIL F.HI_EVQ_TAIL_INDEX % s.evqSize)

/-- Records in the ring that the host has not taken. -/
def State.evqUsed (s : State) : Nat :=
  (s.get R.HI_EVQ_TAIL F.HI_EVQ_TAIL_INDEX + 65536 - s.get R.HI_EVQ_HEAD F.HI_EVQ_HEAD_INDEX) % 65536

/-- A record written into the ring. -/
theorem evqWrite_of_room (r : EvRecord) (hen : s.flag R.HI_EVQ_CTL F.HI_EVQ_CTL_EN = true)
    (hm : s.get R.HI_LINK F.HI_LINK_MODE ≠ 0) (hroom : s.evqUsed < min s.evqSize 65535) :
    (s.evqWrite r).get R.HI_EVQ_TAIL F.HI_EVQ_TAIL_INDEX = (s.get R.HI_EVQ_TAIL F.HI_EVQ_TAIL_INDEX + 1) % 65536 ∧
      (s.evqWrite r).host.writes = s.host.writes ++ [(s.evqPlace, r.bytes)] := by
  have hirq (t : State) : ∃ h : HostState, t.evqIrq = t.setHost h ∧ h.writes = t.host.writes := by
    unfold State.evqIrq State.msix
    split <;> exact ⟨_, rfl, rfl⟩
  unfold State.evqWrite
  extract_lets head tail u host base host' v w host''
  have hw : w.get R.HI_EVQ_TAIL F.HI_EVQ_TAIL_INDEX = (tail + 1) % 65536 ∧
      w.host.writes = s.host.writes ++ [(s.evqPlace, r.bytes)] := by
    refine ⟨?_, rfl⟩
    unfold w
    rw [State.get_put_self _ _ _ _ (by decide) (by decide)]
    exact Nat.mod_mod _ _
  have hroom' : ¬ min s.evqSize 65535 ≤ (tail + 2 ^ 16 - head) % 2 ^ 16 := Nat.not_le.mpr hroom
  rw [if_neg (by simp [hen, hm]), if_neg hroom']
  clear_value w
  split
  · obtain ⟨h, e, hwr⟩ := hirq w
    rw [e]
    exact ⟨(get_congr rfl _).trans hw.1, hwr.trans hw.2⟩
  · exact ⟨(get_congr rfl _).trans hw.1, hw.2⟩

/-- A record that finds the ring full. -/
theorem evqWrite_of_full (r : EvRecord) (hen : s.flag R.HI_EVQ_CTL F.HI_EVQ_CTL_EN = true)
    (hm : s.get R.HI_LINK F.HI_LINK_MODE ≠ 0) (hfull : min s.evqSize 65535 ≤ s.evqUsed) :
    (s.evqWrite r).host.writes = s.host.writes ∧ (s.evqWrite r).host.overflow = true ∧
      (s.evqWrite r).get R.HI_EVQ_DROP F.HI_EVQ_DROP_COUNT = satN (2 ^ 32 - 1)
          (s.get R.HI_EVQ_DROP F.HI_EVQ_DROP_COUNT + 1) ∧
      ((∃ x ∈ (s.evqWrite r).events, x.code = 0x1066) ∨ s.host.overflow = true) := by
  unfold State.evqWrite
  extract_lets head tail u host base host' v w host''
  have hu : u.get R.HI_EVQ_DROP F.HI_EVQ_DROP_COUNT = satN (2 ^ 32 - 1)
      (s.get R.HI_EVQ_DROP F.HI_EVQ_DROP_COUNT + 1) := by
    unfold u State.bump
    rw [State.get_put_self _ _ _ _ (by decide) (by decide)]
    exact Nat.mod_eq_of_lt (show satN (2 ^ 32 - 1) _ < 2 ^ 32 by unfold satN; split <;> omega)
  have hhost : u.host = s.host := rfl
  have hfull' : min s.evqSize 65535 ≤ (tail + 2 ^ 16 - head) % 2 ^ 16 := hfull
  rw [if_neg (by simp [hen, hm]), if_pos hfull']
  clear_value u
  split
  · next ho =>
    rw [hhost] at ho ⊢
    exact ⟨rfl, ho, hu, .inr ho⟩
  · refine ⟨?_, rfl, (get_congr rfl _).trans hu, .inl ⟨_, List.mem_append_right _ List.mem_cons_self, rfl⟩⟩
    rw [← hhost]
    rfl

end

end Sys2Proof.Machine
end

section
/-! An event taken, and the statement (O54). -/
namespace Sys2Proof.Machine

/-! ### An event taken -/

/-- The state with one event less on its way. -/
def State.taken (s : State) (rest : List Event) : State := { s with events := rest }

theorem exec_eventReceive {s : State} {e : Event} {rest : List Event} (h : s.events = e :: rest) :
    exec .eventReceive s = .next (((s.taken rest).logEvent e).actOn e) := by
  show execEventReceive s = _
  unfold execEventReceive
  rw [h]
  rfl

section
variable {s : State} {e : Event}

/-- Logging an event that is copied for sure, with the host's ring off and no loss to tell. -/
theorem logEvent_of_off (hoff : s.flag R.HI_EVQ_CTL F.HI_EVQ_CTL_EN = false) (hlost : s.rel.lost = 0)
    (hroom : s.rel.window.length < 4096)
    (hc : 3 ≤ evCategory e.code ∨ evCategory e.code < 3 ∧ 0 < s.refill.rel.tokens) :
    s.logEvent e = if 3 ≤ evCategory e.code then (s.counted e).showRecord.msix 1 else (s.counted e).showRecord := by
  have hoff' : (s.counted e).flag R.HI_EVQ_CTL F.HI_EVQ_CTL_EN = false := by
    unfold State.flag
    rw [get_congr (rd_counted_of_hd e (by decide))]
    exact hoff
  have hlost' : (s.counted e).showRecord.rel.lost = 0 := by
    rw [showRecord_regsOnly]
    exact (counted_waits e hroom hc).2.trans hlost
  rw [logEvent_eq, evqWrite_of_off _ hoff']
  split
  · refine tellLosses_of_none ?_
    obtain ⟨h, eh⟩ := msix_eq (s.counted e).showRecord 1
    rw [eh]
    exact hlost'
  · exact tellLosses_of_none hlost'

/-- What waits, what is raised and what the host sees of a state that shows a record. -/
theorem showRecord_counted (hroom : s.rel.window.length < 4096)
    (hc : 3 ≤ evCategory e.code ∨ evCategory e.code < 3 ∧ 0 < s.refill.rel.tokens) :
    (s.counted e).showRecord.rel.waiting = s.rel.waiting ++ [(s.get64 R.EVL_NEXT_LO R.EVL_NEXT_HI, s.now)] ∧
      (s.counted e).showRecord.host = s.host ∧ (s.counted e).showRecord.events = s.events := by
  rw [showRecord_regsOnly]
  exact ⟨(counted_waits e hroom hc).1, (counted_calm e).1, (counted_calm e).2⟩

/-- An event of the lower categories that is copied: nothing else is raised. -/
theorem logEvent_low_copied (hoff : s.flag R.HI_EVQ_CTL F.HI_EVQ_CTL_EN = false) (hlost : s.rel.lost = 0)
    (hroom : s.rel.window.length < 4096) (hc : evCategory e.code < 3) (ht : 0 < s.refill.rel.tokens) :
    (s.logEvent e).rel.waiting = s.rel.waiting ++ [(s.get64 R.EVL_NEXT_LO R.EVL_NEXT_HI, s.now)] ∧
      (s.logEvent e).host = s.host ∧ (s.logEvent e).events = s.events := by
  rw [logEvent_of_off hoff hlost hroom (.inr ⟨hc, ht⟩), if_neg (by omega)]
  exact showRecord_counted hroom (.inr ⟨hc, ht⟩)

/-- An event of the upper categories: vector 1 follows it. -/
theorem logEvent_high_copied (hoff : s.flag R.HI_EVQ_CTL F.HI_EVQ_CTL_EN = false) (hlost : s.rel.lost = 0)
    (hroom : s.rel.window.length < 4096) (hc : 3 ≤ evCategory e.code) (hm : s.host.masked.getLsbD 1 = false) :
    (s.logEvent e).rel.waiting = s.rel.waiting ++ [(s.get64 R.EVL_NEXT_LO R.EVL_NEXT_HI, s.now)] ∧
      (s.logEvent e).host = { s.host with irqs := s.host.irqs ++ [1] } ∧ (s.logEvent e).events = s.events := by
  obtain ⟨hw, hh, he⟩ := showRecord_counted hroom (.inl hc)
  rw [logEvent_of_off hoff hlost hroom (.inl hc), if_pos hc, State.msix, hh,
      if_neg (fun h => Bool.noConfusion (hm.symm.trans h))]
  exact ⟨hw, rfl, he⟩

/-- The state that an event leaves that raises nothing and tells the host nothing. -/
theorem logEvent_eq_of {host : HostState} (hh : (s.logEvent e).host = host) :
    s.logEvent e = { s with
      regs := (s.logEvent e).regs, rel := (s.logEvent e).rel, events := (s.logEvent e).events, host := host } := by
  have h := (logEvent_keeps s e).only
  rw [hh] at h
  exact h

/-- Logging writes no other die's registers, no memory, nothing of the power state. -/
theorem logEvent_spares (s : State) (e : Event) : (s.logEvent e).pwr = s.pwr ∧ (s.logEvent e).mem = s.mem ∧
    (s.logEvent e).now = s.now := by
  have h := (logEvent_keeps s e).only
  refine ⟨?_, ?_, ?_⟩ <;> rw [h] <;> rfl

/-- A record into the host's ring. -/
theorem logEvent_ring (hen : s.flag R.HI_EVQ_CTL F.HI_EVQ_CTL_EN = true) (hm : s.get R.HI_LINK F.HI_LINK_MODE ≠ 0)
    (hc : evCategory e.code < 3) :
    (s.evqUsed < min s.evqSize 65535 →
      (s.logEvent e).get R.HI_EVQ_TAIL F.HI_EVQ_TAIL_INDEX = (s.get R.HI_EVQ_TAIL F.HI_EVQ_TAIL_INDEX + 1) % 65536 ∧
        (s.logEvent e).host.writes = s.host.writes ++ [(s.evqPlace, (s.recordOf e).bytes)]) ∧
    (min s.evqSize 65535 ≤ s.evqUsed →
      (s.logEvent e).host.writes = s.host.writes ∧ (s.logEvent e).host.overflow = true ∧
        (s.logEvent e).get R.HI_EVQ_DROP F.HI_EVQ_DROP_COUNT =
          satN (2 ^ 32 - 1) (s.get R.HI_EVQ_DROP F.HI_EVQ_DROP_COUNT + 1) ∧
        ((∃ x ∈ (s.logEvent e).events, x.code = 0x1066) ∨ s.host.overflow = true)) := by
  have hget {a : Nat} (ha : 0x100000 ≤ a) (f : Fld) : (s.counted e).get a f = s.get a f := get_congr
      (rd_counted_of_hd e ha) f
  have hhost := (counted_calm (s := s) e).1
  have hsize : (s.counted e).evqSize = s.evqSize := by
    unfold State.evqSize
    rw [hget (by decide)]
  have hused : (s.counted e).evqUsed = s.evqUsed := by
    unfold State.evqUsed
    rw [hget (by decide), hget (by decide)]
  have hplace : (s.counted e).evqPlace = s.evqPlace := by
    unfold State.evqPlace
    rw [hget (by decide), hget (by decide), rd_counted_of_hd e (by decide), hsize]
  have hen' : (s.counted e).flag R.HI_EVQ_CTL F.HI_EVQ_CTL_EN = true := by
    unfold State.flag
    rw [hget (by decide)]
    exact hen
  have hm' : (s.counted e).get R.HI_LINK F.HI_LINK_MODE ≠ 0 := by rwa [hget (by decide)]
  refine ⟨fun hroom => ?_, fun hfull => ?_⟩
  · obtain ⟨htail, hwr⟩ := evqWrite_of_room (s.recordOf e) hen' hm' (by rwa [hused, hsize])
    rw [hget (by decide)] at htail
    rw [hhost, hplace] at hwr
    exact ⟨(get_congr (logEvent_after e hc (by decide)) _).trans htail, by rw [host_logEvent e hc, hwr]⟩
  · obtain ⟨hwr, hover, hdrop, hev⟩ := evqWrite_of_full (s.recordOf e) hen' hm' (by rwa [hused, hsize])
    rw [hget (by decide)] at hdrop
    rw [hhost] at hwr hev
    refine ⟨by rw [host_logEvent e hc, hwr], by rw [host_logEvent e hc, hover],
      (get_congr (logEvent_after e hc (by decide)) _).trans hdrop, hev.imp_left ?_⟩
    rintro ⟨x, hx, hcode⟩
    exact ⟨x, events_logEvent e hc hx, hcode⟩

end

/-! ### The statement -/

section
variable {s : State} {e : Event} {rest : List Event}

/-- The register that a canton's event or the module's is judged by reads as before the event was logged. -/
theorem get_logEvent_taken (e : Event) (rest : List Event) {a : Nat} (h : logReg a = false) (h0 : a ≠ R.EVL_NEXT_LO)
    (h1 : a ≠ R.EVL_NEXT_HI) (f : Fld) : ((s.taken rest).logEvent e).get a f = s.get a f :=
  get_congr (rd_logEvent (s.taken rest) e h h0 h1) f

/-- A fatal event of a canton that is neither SCRUBBING nor contained. -/
theorem eventReceive_contains {k : Fin 8} (hc : evCategory e.code = 3) (hk : e.canton = some k.val)
    (hp : s.polState k ≠ 2)
    (hf : (s.get R.CONT_STATUS F.CONT_STATUS_CFATAL).testBit k = false) :
    let t := ((s.taken rest).logEvent e).actOn e
    (t.get R.CONT_STATUS F.CONT_STATUS_CFATAL).testBit k = true ∧
      (∀ d ∈ s.cantonCds k, (∀ u : Fin 8, (t.cd (fin40 d)).stopped[u] = true) ∧
        ∀ q : Fin 4, t.qState (fin40 d) q ≠ 1 ∧ t.qState (fin40 d) q ≠ 2 ∧ t.qState (fin40 d) q ≠ 3) ∧
      (∃ x ∈ t.events, x.code = 0x0388 ∧ x.canton = some k.val) ∧
      ((s.get R.CONT_CTL F.CONT_CTL_AUTOCRST).testBit k = true →
        (k.val, s.now + s.get R.CONT_CTL F.CONT_CTL_DELAYMS * msTicks) ∈ t.rel.containAt) ∧ t.pwr = s.pwr ∧ SameMem
            s t := by
  intro t
  obtain ⟨hpwr, hmem, hnow⟩ := logEvent_spares (s.taken rest) e
  have hpol : ((s.taken rest).logEvent e).polState k = s.polState k := by
    have hlog : ∀ k, k < 8 → logReg (R.CPOL_STATUS k) = false := by decide
    have hne {a : Nat} (ha : 0x1180 ≤ a) : R.CPOL_STATUS k ≠ a := by
      have := k.isLt
      unfold R.CPOL_STATUS tdBase
      omega
    exact get_logEvent_taken e rest (hlog k k.isLt) (hne (by decide)) (hne (by decide)) _
  have hcf : ((s.taken rest).logEvent e).get R.CONT_STATUS F.CONT_STATUS_CFATAL = s.get R.CONT_STATUS
      F.CONT_STATUS_CFATAL :=
    get_logEvent_taken e rest (by decide) (by decide) (by decide) _
  have hctl (f : Fld) : ((s.taken rest).logEvent e).get R.CONT_CTL f = s.get R.CONT_CTL f :=
    get_logEvent_taken e rest (by decide) (by decide) (by decide) f
  have hcds : ((s.taken rest).logEvent e).cantonCds k = s.cantonCds k :=
    cantonCds_congr (s.taken rest) k (rd_logEvent (s.taken rest) e (by decide) (by decide) (by decide))
  have ht : t = ((s.taken rest).logEvent e).contain k e.code := actOn_canton hc hk (by rwa [hpol]) (by rwa [hcf])
  rw [ht]
  have h := contain_gives ((s.taken rest).logEvent e) e.code k.isLt
  rw [hcds, hctl, hctl, hpwr, hmem, hnow] at h
  obtain ⟨h1, h2, h3, h4, h5, h6⟩ := h
  exact ⟨h1, h2, h3, h4, h5, fun a => State.byte_congr h6 a⟩

end

/-- Settles O54: what logging leaves alone (`LogKeeps`) lets each clause be read off the one step that writes what the
clause names: the copy, the ring, containment or the restart. -/
theorem eventsAreLoggedAndActedOn : Obligations.EventsAreLoggedAndActedOn := by
  unfold Obligations.EventsAreLoggedAndActedOn
  refine ⟨fun s e rest n hev hn => ?_, fun s k => ⟨fun ha hd hp hr => ?_, exec_autoCrst_of_not_due⟩,
    fun s u v a key hu hk =>
        ⟨fun hr hi => ?_, fun hr => ⟨fun r hreg => ⟨fun hpair => ?_, fun hpair => ?_⟩, fun x hx => ?_, fun hx => ?_⟩⟩⟩
  · subst hn
    rw [exec_eventReceive hev]
    refine ⟨⟨_, rfl, (s.taken rest).recordOf e, (window_actOn _ e).trans (window_logEvent _ e), rfl, rfl, rfl⟩,
      fun hoff hlost hroom => ⟨fun hc ht => ?_, fun hc hm => ?_⟩, fun hen hm hc => ⟨fun hroom => ?_, fun hfull => ?_⟩,
      fun k hc hk hp hf => ⟨_, rfl, eventReceive_contains hc hk hp hf⟩, fun hc hk hf hnv hp hr => ?_,
          fun w hc hk hf hnv => ?_⟩
    · rw [actOn_of_ne (by omega)]
      obtain ⟨hw, hh, he⟩ := logEvent_low_copied (s := s.taken rest) hoff hlost hroom hc ht
      refine ⟨_, rfl, hw, he, next_logEvent (s.taken rest) e, ?_⟩
      have h := logEvent_eq_of hh
      rw [he] at h
      exact h
    · rw [actOn_of_ne (by omega)]
      obtain ⟨hw, hh, he⟩ := logEvent_high_copied (s := s.taken rest) (e := e) hoff hlost hroom (by omega) hm
      refine ⟨_, rfl, hw, hh, ?_⟩
      have h := logEvent_eq_of (s := s.taken rest) (e := e) rfl
      rw [he] at h
      exact h
    · rw [actOn_of_ne (by omega)]
      obtain ⟨htail, hwr⟩ := (logEvent_ring (s := s.taken rest) hen hm hc).1 hroom
      exact ⟨_, rfl, htail, (s.taken rest).recordOf e, rfl, rfl, hwr⟩
    · rw [actOn_of_ne (by omega)]
      exact ⟨_, rfl, (logEvent_ring (s := s.taken rest) hen hm hc).2 hfull⟩
    · obtain ⟨hpwr, _, _⟩ := logEvent_spares (s.taken rest) e
      rw [actOn_module hc hk hf]
      refine ⟨_, rfl, fatalMrst_begins _ (by rw [hpwr]; exact hnv) ?_ (by rw [hpwr]; exact hr)⟩
      rw [get_logEvent_taken e rest (by decide) (by decide) (by decide)]
      exact hp
    · obtain ⟨hpwr, hmem, _⟩ := logEvent_spares (s.taken rest) e
      rw [actOn_module hc hk hf]
      obtain ⟨h1, h2, h3, h4⟩ := fatalMrst_waits ((s.taken rest).logEvent e) (w := w) (by rw [hpwr]; exact hnv)
      exact ⟨_, rfl, h1, h2, h3.trans (congrArg PowerState.mode hpwr), fun a => State.byte_congr (h4.trans hmem) a⟩
  · rw [exec_autoCrst_of_due ha hd]
    exact ⟨_, rfl, autoCrst_begins hp hr⟩
  · exact ⟨_, exec_pairRead_refused hu hr hi, rfl⟩
  · rw [exec_pairRead_lo hu hk hr hreg, if_pos (by simpa using hpair)]
    obtain ⟨h1, h2⟩ := find?_latch u.latch v (key + 4) (u.regRead v (a + 4))
    exact ⟨_, rfl, rfl, h1, rfl, h2⟩
  · rw [exec_pairRead_lo hu hk hr hreg, if_neg (by simpa using hpair)]
    exact ⟨_, rfl, rfl⟩
  · exact ⟨_, exec_pairRead_hi_latched hu hk hr hx, rfl, rfl, rfl⟩
  · exact ⟨_, exec_pairRead_hi_of_none hu hk hr hx, rfl⟩

end Sys2Proof.Machine
end

section
/-! Accesses to reserved and foreign registers (O6). -/
namespace Sys2Proof.Machine

/-- An event of a category and a die adds one entry, whose code tells the die's source class and the category (R16). -/
theorem exists_event_raiseCat (s : State) (cat die rule : Nat) (c : Option Nat) (det : List Byte) :
    ∃ e : Event, (s.raiseCat cat die rule c det).events = s.events ++ [e] ∧ e.die = die ∧
      e.code / 256 = dieClass die * 16 + cat := by
  refine ⟨_, State.raiseCat_events _ _ _ _ _ _, rfl, ?_⟩
  have hcause := (Config.cause rule).isLt
  dsimp only
  omega

theorem exec_crsReservedAccess_of_reserved {s : State} {addr : Nat} (h : s.crsReserved addr = true) (v : View)
    (wr : Option W32) : exec (.crsReservedAccess v addr wr) s =
      .next ({ s with resp := if wr.isNone then .value 0 else .done }.raiseCat 0 63 35 none (detail 0 0 addr)) :=
  if_pos h

theorem exec_crsForeignAccess_of_foreign {s : State} {d : Fin 40} {addr : Nat} {wr : Option W32}
    (h : s.foreign d addr wr.isNone = true) : exec (.crsForeignAccess d addr wr) s =
      .next ({ s with resp := if wr.isNone then .value 0 else .done }.raiseCat 4 d 36 (some (s.colCanton (d.val % 8)))
        (detail 0 0 addr)) :=
  if_pos h

/-- The events of a compute die are of source class 4 (R16). -/
theorem dieClass_cd (d : Fin 40) : dieClass d.val = 4 := if_pos d.isLt

/-- Settles O6: either access answers and raises one event, and an event changes nothing but the list of events. -/
theorem reservedAndForeignRegistersReadZero : Obligations.ReservedAndForeignRegistersReadZero := by
  unfold Obligations.ReservedAndForeignRegistersReadZero
  refine ⟨fun s v addr wr h => ?_, fun s d addr wr h => ?_⟩
  · rw [exec_crsReservedAccess_of_reserved h]
    exact ⟨_, rfl, rfl, exists_event_raiseCat _ 0 63 35 _ _, rfl⟩
  · rw [exec_crsForeignAccess_of_foreign h]
    obtain ⟨e, he, hdie, hcode⟩ := exists_event_raiseCat { s with resp := if wr.isNone then .value 0 else .done } 4 d 36
      (some (s.colCanton (d.val % 8))) (detail 0 0 addr)
    exact ⟨_, rfl, rfl, ⟨e, he, hdie, by rw [hcode, dieClass_cd]⟩, rfl⟩

end Sys2Proof.Machine
end

section
/-! Numbers in memory, and writes that merge words (O7). -/
namespace Sys2Proof.Machine

/-! ### Numbers in memory -/

theorem leNat_leBytes (k n : Nat) : leNat (leBytes k n) = n % 256 ^ k := by
  induction k generalizing n with
  | zero => simp [leBytes, leNat, Nat.mod_one]
  | succ k ih =>
    rw [leBytes, leNat, ih, Nat.pow_succ', Nat.mod_mul, BitVec.toNat_ofNat]

/-- Bytes read are those that single reads give. -/
theorem State.bytes_eq_map (s : State) (a n : Nat) : s.bytes a n = (List.range n).map (fun i => s.byte (a + i)) := by
  induction n generalizing a with
  | zero => rfl
  | succ n ih =>
    rw [State.bytes, ih, List.range_succ_eq_map]
    simp [Function.comp_def, Nat.add_comm, Nat.add_left_comm]

/-- What was written is read again. -/
theorem State.bytes_putBytes_self (s : State) (a : Nat) (bs : List Byte) : (s.putBytes a bs).bytes a bs.length = bs := by
  rw [State.bytes_eq_map]
  refine List.ext_getElem (by simp) fun i hi _ => ?_
  have hlt : i < bs.length := by simpa using hi
  rw [List.getElem_map, List.getElem_range, State.byte_putBytes, if_pos (by omega), Nat.add_sub_cancel_left]
  simp [hlt]

theorem State.num_putNum_self (s : State) (a n v : Nat) : (s.putNum a n v).num a n = v % 256 ^ n := by
  have h := s.bytes_putBytes_self a (leBytes n v)
  rw [leBytes_length] at h
  rw [State.num, State.putNum, h, leNat_leBytes]

/-! ### Poison marks of lines -/

/-- Whether a line of a store is poisoned (R180). -/
def State.lineBad (s : State) (x : Nat) : Bool := Sparse.get (fun _ => false) s.poison x

/-- A range within one line is poisoned where that line is. -/
theorem State.poisoned_eq_lineBad (s : State) {a n x : Nat} (hn : 0 < n) (hlo : a / 64 = x) (hhi : (a + n - 1) / 64 = x) :
    s.poisoned a n = s.lineBad x := by
  have hone : (a + n + 63) / 64 - a / 64 = 1 := by omega
  rw [State.poisoned, hone, hlo]
  simp [State.lineBad]

/-- A write leaves the mark of a line it does not cover. -/
theorem State.lineBad_storeWrite (s : State) {a x : Nat} {bs : List Byte} (h : a + bs.length < x * 64 + 64) :
    (s.storeWrite a bs).lineBad x = s.lineBad x := by
  refine (Sparse_get_filter_key _ s.poison
    (fun k => !(decide (a ≤ k * 64) && decide (k * 64 + 64 ≤ a + bs.length))) x).trans (if_pos ?_)
  simp
  omega

/-! ### A write carried out piece by piece (R179) -/

/-- What `mergeWrite` does with the part of a word: it is written, unless its line is poisoned. -/
def mergePart (t : State × Bool) (x : Nat) (l : List Byte) : State × Bool :=
  if l.isEmpty then t else if t.1.poisoned x l.length then (t.1, true) else (t.1.storeWrite x l, t.2)

/-- What `mergeWrite` does with the words written whole. -/
def mergeWhole (t : State × Bool) (x : Nat) (l : List Byte) : State × Bool :=
  if l.isEmpty then t else (t.1.storeWrite x l, t.2)

/-- Bytes before the first word boundary. -/
def mergeLead (a n : Nat) : Nat := min n ((4 - a % 4) % 4)

/-- Bytes from the last word boundary on. -/
def mergeTail (a n : Nat) : Nat := (n - mergeLead a n) % 4

theorem State.mergeWrite_eq (s : State) (a : Nat) (bs : List Byte) :
    s.mergeWrite a bs =
      mergePart (mergeWhole (mergePart (s, false) a (bs.take (mergeLead a bs.length))) (a + mergeLead a bs.length)
        ((bs.drop (mergeLead a bs.length)).take (bs.length - mergeLead a bs.length - mergeTail a bs.length)))
        (a + bs.length - mergeTail a bs.length) (bs.drop (bs.length - mergeTail a bs.length)) := rfl

/-- The first `k` bytes of a write have been dealt with: those not lost are written, and a bus error is due where one is
lost; marks of lines that reach beyond them stand. -/
structure Merged (s : State) (a : Nat) (bs : List Byte) (k : Nat) (t : State × Bool) : Prop where
  written : ∀ i, i < k → t.1.byte (a + i) = if s.mergeLost a bs.length i then s.byte (a + i) else bs.getD i 0
  outside : ∀ b, b < a ∨ a + k ≤ b → t.1.byte b = s.byte b
  answer : t.2 = (List.range k).any (s.mergeLost a bs.length)
  marks : ∀ x, a + k < x * 64 + 64 → t.1.lineBad x = s.lineBad x
  frame : t.1 = { s with mem := t.1.mem, poison := t.1.poison }

section
variable {s : State} {a k m : Nat} {bs : List Byte} {t : State × Bool}

theorem Merged.start (s : State) (a : Nat) (bs : List Byte) : Merged s a bs 0 (s, false) :=
  ⟨fun _ h => absurd h (Nat.not_lt_zero _), fun _ _ => rfl, rfl, fun _ _ => rfl, rfl⟩

theorem any_range_add (p : Nat → Bool) (k m : Nat) :
    (List.range (k + m)).any p = ((List.range k).any p || (List.range m).any (fun i => p (k + i))) := by
  rw [List.range_add, List.any_append, List.any_map]
  rfl

/-- The next `m` bytes are written. -/
theorem Merged.write (h : Merged s a bs k t) (hm : k + m ≤ bs.length)
    (hl : ∀ i, k ≤ i → i < k + m → s.mergeLost a bs.length i = false) :
    Merged s a bs (k + m) (t.1.storeWrite (a + k) ((bs.drop k).take m), t.2) := by
  have hlen : ((bs.drop k).take m).length = m := by simp; omega
  refine ⟨fun i hi => ?_, fun b hb => ?_, ?_, fun x hx => ?_, ?_⟩
  · rw [State.byte_storeWrite, hlen]
    by_cases hk : i < k
    · rw [if_neg (by omega), h.written i hk]
    · have hsub : a + i - (a + k) = i - k := by omega
      have hget : ((bs.drop k).take m).getD (i - k) 0 = bs.getD i 0 := by
        simp [List.getD_eq_getElem?_getD, show i - k < m by omega, show k + (i - k) = i by omega]
      rw [if_pos (by omega), hsub, hget, hl i (by omega) hi]
      rfl
  · rw [State.byte_storeWrite, hlen, if_neg (by omega), h.outside b (by omega)]
  · have hnone : (List.range m).any (fun i => s.mergeLost a bs.length (k + i)) = false := by
      simpa using fun i hi => hl (k + i) (by omega) (by omega)
    rw [any_range_add, hnone, Bool.or_false, ← h.answer]
  · rw [State.lineBad_storeWrite _ (by rw [hlen]; omega), h.marks x (by omega)]
  · rw [h.frame]; rfl

/-- The next `m` bytes are lost. -/
theorem Merged.lose (h : Merged s a bs k t) (hpos : 0 < m)
    (hl : ∀ i, k ≤ i → i < k + m → s.mergeLost a bs.length i = true) : Merged s a bs (k + m) (t.1, true) := by
  refine ⟨fun i hi => ?_, fun b hb => h.outside b (by omega), ?_, fun x hx => h.marks x (by omega), h.frame⟩
  · by_cases hk : i < k
    · exact h.written i hk
    · rw [hl i (by omega) hi, if_pos rfl, h.outside _ (by omega)]
  · have hone : (List.range m).any (fun i => s.mergeLost a bs.length (k + i)) = true :=
      List.any_eq_true.mpr ⟨0, List.mem_range.mpr hpos, hl (k + 0) (by omega) (by omega)⟩
    rw [any_range_add, hone, Bool.or_true]

/-- The next `m` bytes are whole words. -/
theorem Merged.whole (h : Merged s a bs k t) (hm : k + m ≤ bs.length)
    (hw : ∀ i, k ≤ i → i < k + m → a ≤ (a + i) / 4 * 4 ∧ (a + i) / 4 * 4 + 4 ≤ a + bs.length) :
    Merged s a bs (k + m) (mergeWhole t (a + k) ((bs.drop k).take m)) := by
  by_cases hz : m = 0
  · subst hz
    simpa [mergeWhole] using h
  · have hne : ((bs.drop k).take m).isEmpty = false := by simp; omega
    rw [mergeWhole, hne, if_neg Bool.false_ne_true]
    refine h.write hm fun i hlo hhi => ?_
    obtain ⟨h1, h2⟩ := hw i hlo hhi
    simp [State.mergeLost, Nat.not_lt.mpr h1, Nat.not_lt.mpr h2]

/-- The next `m` bytes are part of one word that is not written whole. -/
theorem Merged.part (h : Merged s a bs k t) (hm : k + m ≤ bs.length)
    (hw : ∀ i, k ≤ i → i < k + m → (a + i) / 4 = (a + k) / 4 ∧
      ((a + i) / 4 * 4 < a ∨ a + bs.length < (a + i) / 4 * 4 + 4)) :
    Merged s a bs (k + m) (mergePart t (a + k) ((bs.drop k).take m)) := by
  by_cases hz : m = 0
  · subst hz
    simpa [mergePart] using h
  · have hlen : ((bs.drop k).take m).length = m := by simp; omega
    have hne : ((bs.drop k).take m).isEmpty = false := by simp; omega
    obtain ⟨hlast, _⟩ := hw (k + m - 1) (by omega) (by omega)
    have hbad : t.1.poisoned (a + k) m = s.lineBad ((a + k) / 64) := by
      rw [t.1.poisoned_eq_lineBad (by omega) rfl (by omega), h.marks _ (by omega)]
    have hlost : ∀ i, k ≤ i → i < k + m → s.mergeLost a bs.length i = s.lineBad ((a + k) / 64) := fun i hlo hhi => by
      obtain ⟨hword, hend⟩ := hw i hlo hhi
      rw [State.mergeLost, s.poisoned_eq_lineBad (x := (a + k) / 64) Nat.one_pos (by omega) (by omega)]
      obtain hend | hend := hend <;> simp [hend]
    rw [mergePart, hne, hlen, hbad, if_neg Bool.false_ne_true]
    cases hb : s.lineBad ((a + k) / 64) with
    | false => exact h.write hm fun i hlo hhi => (hlost i hlo hhi).trans hb
    | true => exact h.lose (by omega) fun i hlo hhi => (hlost i hlo hhi).trans hb

end

/-- A write to a store deals with all its bytes: the part of the first word, the whole words, the part of the last. -/
theorem State.merged_mergeWrite (s : State) (a : Nat) (bs : List Byte) : Merged s a bs bs.length (s.mergeWrite a bs) := by
  have hlead : mergeLead a bs.length = min bs.length ((4 - a % 4) % 4) := rfl
  have htail : mergeTail a bs.length = (bs.length - mergeLead a bs.length) % 4 := rfl
  rw [State.mergeWrite_eq]
  generalize mergeLead a bs.length = lead at *
  generalize mergeTail a bs.length = tail at *
  have h0 := (Merged.start s a bs).part (m := lead) (by omega) (fun i hlo hhi => by omega)
  have h1 := h0.whole (m := bs.length - lead - tail) (by omega) (fun i hlo hhi => by omega)
  have h2 := h1.part (m := tail) (by omega) (fun i hlo hhi => by omega)
  have hend : 0 + lead + (bs.length - lead - tail) + tail = bs.length := by omega
  have hpos : a + (0 + lead + (bs.length - lead - tail)) = a + bs.length - tail := by omega
  have hdrop : 0 + lead + (bs.length - lead - tail) = bs.length - tail := by omega
  have htake : (bs.drop (bs.length - tail)).take tail = bs.drop (bs.length - tail) :=
    List.take_of_length_le (by simp; omega)
  rw [hend, hpos, hdrop, htake] at h2
  simpa using h2

end Sys2Proof.Machine
end

section
/-! An access to memory, checked on its entry and served where it leads (O7). -/
namespace Sys2Proof.Machine

/-! ### What a store does with an access from the fabric -/

section
variable {s : State} {src d off a : Nat}

theorem storeAccess_read (n : Nat) : s.storeAccess src d off a (.read n) =
    { s with resp := if s.poisoned a n then .busError else .data (s.bytes a n) } := by
  unfold State.storeAccess
  dsimp only
  split <;> rfl

theorem storeAccess_held {op : MpaOp} (hop : mpaWrites op = true)
    (hc : (s.cd (fin40 d)).coversWindow off (mpaLen op) = true) :
    s.storeAccess src d off a op =
      s.setCd (fin40 d) { s.cd (fin40 d) with held := (s.cd (fin40 d)).held ++ [(⟨src, a, op⟩ : HeldWrite)] } := by
  cases op with
  | read n => cases hop
  | write bs => exact if_pos hc
  | add inc => exact if_pos hc

theorem storeAccess_applied {op : MpaOp} (hop : mpaWrites op = true)
    (hc : (s.cd (fin40 d)).coversWindow off (mpaLen op) = false) :
    s.storeAccess src d off a op =
      { (s.storeApply a op).1 with resp := if (s.storeApply a op).2 then .busError else .done } := by
  have hne : ¬ (s.cd (fin40 d)).coversWindow off (mpaLen op) = true := by simp [hc]
  cases op with
  | read n => cases hop
  | write bs => exact if_neg hne
  | add inc => exact if_neg hne

end

/-! ### What is forwarded to a seal engine -/

/-- A range within one seal block is one piece. -/
theorem blockPieces_of_block {fuel a n : Nat} (hn : 0 < n) (hb : a % 256 + n ≤ 256) :
    blockPieces (fuel + 2) a n = [(a, n)] := by
  have hmin : min n (256 - a % 256) = n := by omega
  simp [blockPieces, hmin, Nat.pos_iff_ne_zero.mp hn]

/-- A new request number moves nothing of the address map. -/
theorem placeOf_newReq (s : State) (a : Nat) : s.newReq.placeOf a = s.placeOf a := by
  have hcantons : s.newReq.cantons = s.cantons := rfl
  have hbase : s.newReq.sliceBase = s.sliceBase := rfl
  have hsize : s.newReq.sliceSize = s.sliceSize := rfl
  have hspread : s.newReq.spreadSize = s.spreadSize := rfl
  have howned : s.newReq.ownedSize = s.ownedSize := rfl
  have hmds : s.newReq.cantonMds = s.cantonMds := rfl
  have hparked : s.newReq.parked = s.parked := rfl
  have hoff : s.newReq.dieOff = s.dieOff := rfl
  unfold State.placeOf
  rw [hcantons, hbase, hsize, hspread, howned, hmds, hparked, hoff]

theorem channelOf_newReq (s : State) (a : Nat) : s.newReq.channelOf a = s.channelOf a := by
  unfold State.channelOf
  rw [placeOf_newReq]
  rfl

theorem forward_newReq {s : State} {a m c b : Nat} (h : s.channelOf a = some (m, c, b)) (src : Nat) (op : MpaOp) :
    s.newReq.forward src op a = { s with reqNo := s.reqNo + 1 }.setMd (fin16 m)
      { s.md (fin16 m) with
        eng := { s.eng (fin16 m) with reqs := (s.eng (fin16 m)).reqs ++ [(⟨s.reqNo + 1, src, op, a⟩ : SealReq)] } } := by
  rw [State.forward, channelOf_newReq, h]
  rfl

/-- What is forwarded changes requests alone. -/
theorem State.forward_spares (s : State) (src : Nat) (op : MpaOp) (a : Nat) :
    ((s.forward src op a).mem, (s.forward src op a).regs, (s.forward src op a).events) = (s.mem, s.regs, s.events) := by
  unfold State.forward
  split <;> rfl

theorem State.forwardWrite_spares (s : State) (src a : Nat) (bs : List Byte) :
    ((s.forwardWrite src a bs).mem, (s.forwardWrite src a bs).regs, (s.forwardWrite src a bs).events) =
      (s.mem, s.regs, s.events) :=
  proj_foldl (fun t : State => (t.mem, t.regs, t.events)) (fun u _ _ => u.forward_spares _ _ _) s

theorem forwardWrite_of_block {s : State} {src a : Nat} {bs : List Byte} (hn : 0 < bs.length)
    (hb : a % 256 + bs.length ≤ 256) : s.forwardWrite src a bs = s.forward src (.write bs) a := by
  rw [State.forwardWrite, blockPieces_of_block hn hb]
  simp

/-! ### An access, by what the check says and where it leads -/

section
variable {s : State} {r : Requester} {op : MpaOp} {addr : Nat}

theorem exec_mpaAccess_refused {cat : Nat} (h : s.checkRange r (mpaWrites op) addr (mpaLen op) = .busError cat) :
    exec (.mpaAccess r op addr) s =
      .next ({ s with resp := .busError }.raiseCat cat (entryDie r) 28 (s.reqCanton r) (detail 0 0 addr)) := by
  change execMpaAccess r op addr s = _
  unfold execMpaAccess
  rw [h]

theorem exec_mpaAccess_store {d off : Nat} (h : s.checkRange r (mpaWrites op) addr (mpaLen op) = .ok)
    (hp : s.placeOf addr = .cd d off) :
    exec (.mpaAccess r op addr) s = .next (s.storeAccess (entryDie r) d off addr op) := by
  change execMpaAccess r op addr s = _
  unfold execMpaAccess
  rw [h, hp]

theorem exec_mpaAccess_buffer {n : Nat} (h : s.checkRange r false addr n = .ok)
    (hp : (∃ m, s.placeOf addr = .landing m) ∨ ∃ l, s.placeOf addr = .redmem l) :
    exec (.mpaAccess r (.read n) addr) s = .next { s with resp := .data ((s.showPlace (s.placeOf addr)).bytes addr n) } := by
  change execMpaAccess r (.read n) addr s = _
  have h' : s.checkRange r (mpaWrites (.read n)) addr (mpaLen (.read n)) = .ok := h
  unfold execMpaAccess
  obtain ⟨m, hp⟩ | ⟨l, hp⟩ := hp <;> rw [h', hp]

theorem exec_mpaAccess_dram_write {bs : List Byte} {k : Nat} (h : s.checkRange r true addr bs.length = .ok)
    (hp : s.placeOf addr = .dram k) :
    exec (.mpaAccess r (.write bs) addr) s = .next (s.newReq.forwardWrite (entryDie r) addr bs) := by
  change execMpaAccess r (.write bs) addr s = _
  have h' : s.checkRange r (mpaWrites (.write bs)) addr (mpaLen (.write bs)) = .ok := h
  unfold execMpaAccess
  rw [h', hp]

/-- An access to DRAM within one block is one part. -/
theorem exec_mpaAccess_dram_block {k : Nat} (h : s.checkRange r (mpaWrites op) addr (mpaLen op) = .ok)
    (hp : s.placeOf addr = .dram k) (hn : 0 < mpaLen op) (hb : addr % 256 + mpaLen op ≤ 256) :
    exec (.mpaAccess r op addr) s = .next (s.newReq.forward (entryDie r) op addr) := by
  cases op with
  | read n =>
    change execMpaAccess r (.read n) addr s = _
    unfold execMpaAccess
    rw [h, hp]
    exact congrArg (fun l => Host.Outcome.next (List.foldl _ s.newReq l)) (blockPieces_of_block hn hb)
  | write bs => rw [exec_mpaAccess_dram_write h hp, forwardWrite_of_block hn hb]
  | add inc =>
    change execMpaAccess r (.add inc) addr s = _
    unfold execMpaAccess
    rw [h, hp]

end

/-- Settles O7: the check decides whether the access goes on, and its place which of the stores' and the seal engines'
rules above it follows. -/
theorem memoryAccessIsCheckedOnceOnEntry : Obligations.MemoryAccessIsCheckedOnceOnEntry := by
  unfold Obligations.MemoryAccessIsCheckedOnceOnEntry
  refine ⟨fun s r op addr cat h => ?_, fun s r addr n d off h hp => ?_, fun s r addr n h hp => ?_,
    fun s r bs addr d off h hp hc => ?_, fun s r inc addr d off h hp hc => ?_, fun s r op addr d off hop h hp hc => ?_,
    fun s r op addr k m c b h hp hch hn hb => ?_, fun s r bs addr k h hp => ?_⟩
  · rw [exec_mpaAccess_refused h]
    exact ⟨_, rfl, rfl, exists_event_raiseCat _ cat (entryDie r) 28 _ _, rfl⟩
  · rw [exec_mpaAccess_store h hp, storeAccess_read]
    exact ⟨_, rfl, rfl, rfl⟩
  · rw [exec_mpaAccess_buffer h hp]
    exact ⟨_, rfl, rfl, rfl⟩
  · rw [exec_mpaAccess_store h hp, storeAccess_applied rfl hc]
    have hm : Merged s addr bs bs.length (s.storeApply addr (.write bs)) := s.merged_mergeWrite addr bs
    refine ⟨_, rfl, ?_, hm.written, hm.outside, ?_⟩
    · dsimp only
      rw [hm.answer]
    · rw [hm.frame]
  · rw [exec_mpaAccess_store h hp, storeAccess_applied rfl hc, State.storeApply]
    cases s.poisoned addr 8 with
    | true => exact ⟨_, rfl, rfl, rfl, fun _ _ => rfl, rfl⟩
    | false =>
      exact ⟨_, rfl, rfl, s.num_putNum_self addr 8 _, fun b hb => s.byte_putBytes_of_outside addr (leBytes 8 _) b
        (by rwa [leBytes_length]), rfl⟩
  · rw [exec_mpaAccess_store (by rw [hop]; exact h) hp, storeAccess_held hop hc]
  · rw [exec_mpaAccess_dram_block h hp hn hb, forward_newReq hch]
  · rw [exec_mpaAccess_dram_write h hp]
    have hs := s.newReq.forwardWrite_spares (entryDie r) addr bs
    simp only [Prod.mk.injEq] at hs
    obtain ⟨hmem, hregs, hevents⟩ := hs
    exact ⟨_, rfl, fun a => State.byte_congr hmem a, hregs, hevents⟩

end Sys2Proof.Machine
end

section
/-! The package fabric: flits and ports (O8). -/
namespace Sys2Proof.Machine

/-! ### Flits -/

section
variable {s : State} {die : Fin 64} {port : Fin 4}

theorem exec_fabricFlitReceive_shut (h : s.linkShut die port = true) (ok : Bool) :
    exec (.fabricFlitReceive die port ok) s = .next s := if_pos h

theorem exec_fabricFlitReceive_good (h : s.linkShut die port = false) : exec (.fabricFlitReceive die port true) s =
    .next { s with fabRetry := Sparse.set (fun _ => 0) s.fabRetry (portKey die port) 0 } :=
  if_neg (by simp [h])

theorem exec_fabricFlitReceive_bad {o : Nat} (hn : neighbour die port = some o) (h : s.linkShut die port = false) :
    exec (.fabricFlitReceive die port false) s =
      .next ({ s with
        fabRetry := Sparse.set (fun _ => 0) s.fabRetry (portKey die port)
          (Sparse.get (fun _ => 0) s.fabRetry (portKey die port) + 1) }.bump
            (R.FAB_PORT_STATUS (dieCrs o)) F.FAB_PORT_STATUS_RETRY_CNT 1) := by
  change execFabricFlitReceive die port false s = _
  rw [execFabricFlitReceive, h, hn]
  rfl

end

/-- A counter field raised stops at its largest value. -/
theorem State.get_bump_self (s : State) (a : Nat) (f : Fld) (n : Nat) (h : f.2 ≤ f.1) (h32 : f.1 < 32) :
    (s.bump a f n).get a f = satN (2 ^ (f.1 + 1 - f.2) - 1) (s.get a f + n) := by
  have hpos := Nat.two_pow_pos (f.1 + 1 - f.2)
  rw [State.bump, State.get_put_self _ _ _ _ h h32]
  refine Nat.mod_eq_of_lt ?_
  unfold satN
  split <;> omega

/-! ### A port declared down -/

/-- One bit of a four-bit number cleared. -/
theorem testBit_clear_bit : ∀ n < 16, ∀ p q : Fin 4,
    ((if n.testBit p then n - 2 ^ p.val else n) % 16).testBit q = (n.testBit q && q != p) := by decide +kernel

section
variable (s : State) (die : Nat) (port q : Fin 4)

theorem rd_fabUp {a : Nat} (on : Bool) (h : a ≠ R.FAB_PORT_STATUS (dieCrs die)) : (s.fabUp die port on).rd a = s.rd a :=
  State.rd_put_of_ne _ _ _ h

/-- UP of a die whose port falls. -/
theorem testBit_up_fabUp_off :
    ((s.fabUp die port false).get (R.FAB_PORT_STATUS (dieCrs die)) F.FAB_PORT_STATUS_UP).testBit q =
      ((s.get (R.FAB_PORT_STATUS (dieCrs die)) F.FAB_PORT_STATUS_UP).testBit q && q != port) :=
  (congrArg (Nat.testBit · q) (State.get_put_self _ _ _ _ (by decide) (by decide))).trans
    (testBit_clear_bit _ (get_lt s _ F.FAB_PORT_STATUS_UP) port q)

/-- A port that is not up stays so when a port falls. -/
theorem testBit_up_fabUp_of_down {a : Nat} (h : (s.get a F.FAB_PORT_STATUS_UP).testBit q = false) :
    ((s.fabUp die port false).get a F.FAB_PORT_STATUS_UP).testBit q = false := by
  by_cases ha : a = R.FAB_PORT_STATUS (dieCrs die)
  · subst ha
    rw [testBit_up_fabUp_off, h, Bool.false_and]
  · rwa [get_congr (rd_fabUp s die port false ha)]

end

/-- The registers of both sides once a port has been declared down: UP falls on both, DOWN is set at the port. -/
def State.portFallen (s : State) (die port o : Nat) : State :=
  ((s.fabUp die port false).fabUp o ((port + 2) % 4) false).put (R.FAB_PORT_STATUS (dieCrs die)) F.FAB_PORT_STATUS_DOWN
    (s.get (R.FAB_PORT_STATUS (dieCrs die)) F.FAB_PORT_STATUS_DOWN ||| 2 ^ port)

section
variable (s : State) (die o : Nat) (port : Fin 4)

theorem portFallen_down :
    ((s.portFallen die port o).get (R.FAB_PORT_STATUS (dieCrs die)) F.FAB_PORT_STATUS_DOWN).testBit port = true := by
  rw [State.portFallen, State.get_put_self _ _ _ _ (by decide) (by decide), Nat.testBit_mod_two_pow]
  have hlt : port.val < F.FAB_PORT_STATUS_DOWN.1 + 1 - F.FAB_PORT_STATUS_DOWN.2 := port.isLt
  simp [hlt]

/-- DOWN lies apart from UP in its register. -/
theorem portFallen_up (a : Nat) : (s.portFallen die port o).get a F.FAB_PORT_STATUS_UP =
    ((s.fabUp die port false).fabUp o ((port.val + 2) % 4) false).get a F.FAB_PORT_STATUS_UP :=
  get_put_apart _ _ (.inr (by decide))

/-- The port of the die across the link. -/
def farPort (port : Fin 4) : Fin 4 := ⟨(port.val + 2) % 4, Nat.mod_lt _ (by decide)⟩

theorem portFallen_near :
    ((s.portFallen die port o).get (R.FAB_PORT_STATUS (dieCrs die)) F.FAB_PORT_STATUS_UP).testBit port = false := by
  rw [portFallen_up]
  refine testBit_up_fabUp_of_down _ o (farPort port) port ?_
  rw [testBit_up_fabUp_off, bne_self_eq_false, Bool.and_false]

theorem portFallen_far : ((s.portFallen die port o).get (R.FAB_PORT_STATUS (dieCrs o)) F.FAB_PORT_STATUS_UP).testBit
    ((port.val + 2) % 4) = false := by
  rw [portFallen_up]
  refine (testBit_up_fabUp_off _ o (farPort port) (farPort port)).trans ?_
  rw [bne_self_eq_false, Bool.and_false]

theorem portFallen_onlyRegs :
    OnlyRegs [R.FAB_PORT_STATUS (dieCrs die), R.FAB_PORT_STATUS (dieCrs o)] s (s.portFallen die port o) := by
  intro a ha
  obtain ⟨hdie, ho⟩ : a ≠ R.FAB_PORT_STATUS (dieCrs die) ∧ a ≠ R.FAB_PORT_STATUS (dieCrs o) := by simpa using ha
  exact (State.rd_put_of_ne _ _ _ hdie).trans ((rd_fabUp _ o (farPort port) false ho).trans (rd_fabUp s die port false hdie))

end

section
variable {s : State} {die : Fin 64} {port : Fin 4} {o : Nat}

theorem exec_fabricPortDown_early (hn : neighbour die port = some o)
    (h : Sparse.get (fun _ => 0) s.fabRetry (portKey die port) < 17) : exec (.fabricPortDown die port) s = .next s := by
  change execFabricPortDown die port s = _
  rw [execFabricPortDown, hn]
  exact if_pos h

theorem exec_fabricPortDown_due (hn : neighbour die port = some o)
    (h : 17 ≤ Sparse.get (fun _ => 0) s.fabRetry (portKey die port)) : exec (.fabricPortDown die port) s =
      .next (((s.portFallen die port o).raiseCat 3 die 25 (s.linkCanton die o) (detail port 0 0)).raiseCat 3 o 25
        (s.linkCanton die o) (detail ((port.val + 2) % 4) 0 0)) := by
  change execFabricPortDown die port s = _
  rw [execFabricPortDown, hn]
  exact if_neg (Nat.not_lt.mpr h)

end

end Sys2Proof.Machine
end

section
/-! The package fabric: packets, and the statement (O8). -/
namespace Sys2Proof.Machine

/-- A hop brings a packet one step nearer to its destination, in columns and rows (R21). -/
theorem nextHop_nearer {col row dcol drow : Nat} (h : (col, row) ≠ (dcol, drow)) :
    (((nextHop col row dcol drow).1 : Int) - dcol).natAbs + (((nextHop col row dcol drow).2 : Int) - drow).natAbs + 1 =
      ((col : Int) - dcol).natAbs + ((row : Int) - drow).natAbs := by
  have hne : col ≠ dcol ∨ row ≠ drow := by
    by_contra hc
    push Not at hc
    exact h (Prod.ext hc.1 hc.2)
  have vert (hrow : row ≠ drow) : ((col : Int) - dcol).natAbs +
      (((if row < drow then row + 1 else if drow < row then row - 1 else row : Nat) : Int) - drow).natAbs + 1 =
      ((col : Int) - dcol).natAbs + ((row : Int) - drow).natAbs := by split_ifs <;> omega
  have horiz (hcol : col ≠ dcol) :
      (((if col < dcol then col + 1 else if dcol < col then col - 1 else col : Nat) : Int) - dcol).natAbs +
      ((row : Int) - drow).natAbs + 1 = ((col : Int) - dcol).natAbs + ((row : Int) - drow).natAbs := by
    split_ifs <;> omega
  unfold nextHop
  extract_lets v w
  by_cases h7 : drow = 7
  · rw [if_pos h7]
    by_cases hrow : row = 7
    · rw [if_neg (not_not.mpr hrow)]
      exact horiz (by omega)
    · rw [if_pos hrow]
      exact vert (by omega)
  · rw [if_neg h7]
    by_cases hcol : col = dcol
    · rw [if_neg (not_not.mpr hcol)]
      exact vert (by omega)
    · rw [if_pos hcol]
      exact horiz hcol

/-- The packet of an id, where it stands in the fabric, or at its source where it is not in it yet. -/
def State.packetOf (s : State) (id : Nat) (src dst : Fin 64) (cls : PacketClass) (flits : Nat) : Packet :=
  (s.packets.find? (fun x => x.id == id)).getD
    ⟨id, src, dst, cls, turnOrder src dst, flits, (diePos src).1, (diePos src).2, false, s.now⟩

/-- Where a packet's next hop leads. -/
def Packet.hop (p : Packet) : Nat × Nat := nextHop p.col p.row (diePos p.dst).1 (diePos p.dst).2

/-- A packet one hop on. -/
def Packet.moved (p : Packet) (now : Nat) : Packet :=
  { p with col := p.hop.1, row := p.hop.2, waiting := false, arrive := max p.arrive now + hopTicks }

section
variable {s : State} {id : Nat} {src dst : Fin 64} {cls : PacketClass} {flits : Nat} {busy : Bool} {p : Packet}
  (hp : s.packetOf id src dst cls flits = p) (hpos : 0 < p.flits) (hmost : p.flits ≤ classMost p.cls)
include hp hpos hmost

theorem exec_fabricPacketHop : exec (.fabricPacketHop id src dst cls flits busy) s =
    if busy || s.linkShut (dieAt p.col p.row) (portTo (p.col, p.row) p.hop) then
      .next { s with packets := { p with waiting := true } :: s.packets.filter (fun x => x.id != id) }
    else if p.hop = diePos p.dst then .next { s with packets := s.packets.filter (fun x => x.id != id) }
    else .next { s with packets := p.moved s.now :: s.packets.filter (fun x => x.id != id) } := by
  subst hp
  exact if_neg fun h => h.elim (Nat.ne_of_gt hpos) (Nat.not_lt.mpr hmost)

theorem exec_fabricPacketHop_waits
    (h : busy = true ∨ s.linkShut (dieAt p.col p.row) (portTo (p.col, p.row) p.hop) = true) :
    exec (.fabricPacketHop id src dst cls flits busy) s =
      .next { s with packets := { p with waiting := true } :: s.packets.filter (fun x => x.id != id) } := by
  rw [exec_fabricPacketHop hp hpos hmost, if_pos (by simpa using h)]

theorem exec_fabricPacketHop_moves (hb : busy = false)
    (hs : s.linkShut (dieAt p.col p.row) (portTo (p.col, p.row) p.hop) = false) :
    exec (.fabricPacketHop id src dst cls flits busy) s =
      if p.hop = diePos p.dst then .next { s with packets := s.packets.filter (fun x => x.id != id) }
      else .next { s with packets := p.moved s.now :: s.packets.filter (fun x => x.id != id) } := by
  rw [exec_fabricPacketHop hp hpos hmost, if_neg (by simp [hb, hs])]

end

/-- Settles O8: flits and ports by what a field holds once it is written, packets by `nextHop_nearer`. -/
theorem fabricFlitsAndPacketsMove : Obligations.FabricFlitsAndPacketsMove := by
  unfold Obligations.FabricFlitsAndPacketsMove
  refine ⟨fun s die port o hn hs => ⟨?_, ?_⟩, fun s die port ok hs => exec_fabricFlitReceive_shut hs ok,
    fun s die port o hn => ⟨exec_fabricPortDown_early hn, fun h => ?_⟩,
    fun s id src dst cls flits busy shut p hp hpos hmost hshut => ⟨fun hb hs hne => ?_, fun h => ?_⟩⟩
  · rw [exec_fabricFlitReceive_bad hn hs]
    refine ⟨_, rfl, Sparse.get_set_self _ _ _ _, State.get_bump_self _ _ F.FAB_PORT_STATUS_RETRY_CNT 1 (by decide)
      (by decide), fun a ha => ?_, rfl⟩
    exact State.rd_put_of_ne _ _ _ (by simpa using ha)
  · rw [exec_fabricFlitReceive_good hs]
    exact ⟨_, rfl, Sparse.get_set_self _ _ _ _, rfl⟩
  · rw [exec_fabricPortDown_due hn h]
    obtain ⟨e, he, hedie, hecode⟩ :=
      exists_event_raiseCat (s.portFallen die port o) 3 die 25 (s.linkCanton die o) (detail port 0 0)
    obtain ⟨f, hf, hfdie, hfcode⟩ := exists_event_raiseCat
      ((s.portFallen die port o).raiseCat 3 die 25 (s.linkCanton die o) (detail port 0 0)) 3 o 25 (s.linkCanton die o)
      (detail ((port.val + 2) % 4) 0 0)
    have hevents : (s.portFallen die port o).events = s.events := rfl
    refine ⟨_, rfl, portFallen_down s die o port, portFallen_near s die o port, portFallen_far s die o port,
      ⟨e, f, ?_, hedie, hfdie, by omega, by omega⟩, portFallen_onlyRegs s die o port, rfl⟩
    rw [hf, he, hevents, List.append_assoc]
    rfl
  · rw [exec_fabricPacketHop_moves hp hpos hmost hb (hshut.trans hs)]
    by_cases hend : p.hop = diePos p.dst
    · rw [if_pos hend]
      exact ⟨_, rfl, ⟨p.moved s.now, .inr ⟨rfl, hend⟩, nextHop_nearer hne⟩, rfl⟩
    · rw [if_neg hend]
      exact ⟨_, rfl, ⟨p.moved s.now, .inl rfl, nextHop_nearer hne⟩, rfl⟩
  · rw [exec_fabricPacketHop_waits hp hpos hmost (h.imp_right hshut.trans)]
    exact ⟨_, rfl, rfl, rfl⟩

end Sys2Proof.Machine
end

section
/-! The cadence controller: its registers, and what starts, passes and begins a period (O24). -/
namespace Sys2Proof.Machine

/-! ### Registers -/

/-- Two registers of one canton's cadence controller are not the same. -/
theorem cadReg_ne {a b : Nat} (k : Nat) (h : a ≠ b) : tdBase + a + k * 64 ≠ tdBase + b + k * 64 := by omega

theorem flag_congr {s t : State} {a : Nat} (h : t.rd a = s.rd a) (f : Fld) : t.flag a f = s.flag a f := by
  unfold State.flag
  rw [get_congr h]

theorem get64_congr {s t : State} {lo hi : Nat} (h0 : t.rd lo = s.rd lo) (h1 : t.rd hi = s.rd hi) :
    t.get64 lo hi = s.get64 lo hi := by
  unfold State.get64
  rw [h0, h1]

theorem rd_put64_of_ne (s : State) {a lo hi : Nat} (n : Nat) (h0 : a ≠ lo) (h1 : a ≠ hi) :
    (s.put64 lo hi n).rd a = s.rd a :=
  (State.rd_wr_of_ne _ _ h1).trans (State.rd_wr_of_ne _ _ h0)

/-- A pair set gives the value set, in the 64 bits it has. -/
theorem get64_put64 (s : State) {lo hi : Nat} (n : Nat) (h : lo ≠ hi) : (s.put64 lo hi n).get64 lo hi = n % 2 ^ 64 := by
  have hlo : (s.put64 lo hi n).rd lo = BitVec.ofNat 32 n := by
    rw [State.put64, State.rd_wr_of_ne _ _ h, State.rd_wr_self]
  have hhi : (s.put64 lo hi n).rd hi = BitVec.ofNat 32 (n / 2 ^ 32) := State.rd_wr_self _ _ _
  rw [State.get64, hlo, hhi, BitVec.toNat_ofNat, BitVec.toNat_ofNat, ← Nat.mod_mul, ← Nat.pow_add]

/-- A one-bit field set. -/
theorem flag_put_self (s : State) (a : Nat) (f : Fld) (n : Nat) (h : f.2 = f.1) (h32 : f.1 < 32) (hn : n < 2) :
    (s.put a f n).flag a f = decide (n = 1) := by
  rw [State.flag, State.get_put_self _ _ _ _ h.le h32, h, Nat.add_sub_cancel_left, Nat.pow_one, Nat.mod_eq_of_lt hn]
  rfl

/-- The second state differs from the first in registers and cadence controllers alone. -/
def RegsCads (s t : State) : Prop := t = { s with regs := t.regs, cads := t.cads }

theorem RegsCads.trans {s t u : State} (h : RegsCads s t) (k : RegsCads t u) : RegsCads s u := by
  unfold RegsCads at h k ⊢
  rw [k, h]

theorem RegsOnly.regsCads {s t : State} (h : RegsOnly s t) : RegsCads s t := by
  unfold RegsOnly at h
  unfold RegsCads
  rw [h]

section
variable (s : State) (k : Fin 8)

@[simp] theorem cads_setCad_self (c : Cadence) : (s.setCad k c).cads[k] = c := by simp [State.setCad]

theorem rd_cadTick {a : Nat} (h0 : a ≠ R.CAD_TIMER_LO k) (h1 : a ≠ R.CAD_TIMER_HI k) : (s.cadTick k).rd a = s.rd a :=
  rd_put64_of_ne _ _ h0 h1

theorem cadTick_onlyRegs : OnlyRegs [R.CAD_TIMER_LO k, R.CAD_TIMER_HI k] s (s.cadTick k) := fun a ha => by
  obtain ⟨h0, h1⟩ : a ≠ R.CAD_TIMER_LO k ∧ a ≠ R.CAD_TIMER_HI k := by simpa using ha
  exact rd_cadTick s k h0 h1

theorem cadTick_regsCads : RegsCads s (s.cadTick k) := (((RegsOnly.refl s).wr _ _).wr _ _).regsCads

/-! ### A period begins (R224) -/

/-- Length of a period of a kind that makes good a debt. -/
def State.cadLen (s : State) (k : Fin 8) (kind debt : Nat) : Nat :=
  s.cadPeriod k kind - min debt (s.get (R.CAD_CTL k) F.CAD_CTL_CATCHUP * s.cadPeriod k kind / 256)

variable (kind nom start : Nat)

theorem cadBegin_regsCads : RegsCads s (s.cadBegin k kind nom start) := by
  have hset : RegsCads s
      (s.setCad k { s.cads[k] with nominal := nom, start := start, passed := false, ended := none, started := [] }) := rfl
  exact hset.trans
    ((((((((RegsOnly.refl _).wr _ _).wr _ _).put _ _ _).put _ _ _).put _ _ _).put _ _ _).wr _ _).regsCads

theorem cadBegin_cad : (s.cadBegin k kind nom start).cads[k] =
    { s.cads[k] with nominal := nom, start := start, passed := false, ended := none, started := [] } :=
  cads_setCad_self s k _

/-- Beyond the status and the debt, a period that begins writes its deadline. -/
theorem rd_cadBegin {a : Nat} (h0 : a ≠ R.CAD_STATUS k) (h1 : a ≠ R.CAD_DEBT k) : (s.cadBegin k kind nom start).rd a =
    (s.put64 (R.CAD_DEADLINE_LO k) (R.CAD_DEADLINE_HI k) (start + s.cadLen k kind (start - nom))).rd a := by
  refine (State.rd_wr_of_ne _ _ h1).trans ?_
  iterate 4 refine (State.rd_put_of_ne _ _ _ h0).trans ?_
  rfl

theorem rd_cadBegin_of_ne {a : Nat} (h0 : a ≠ R.CAD_STATUS k) (h1 : a ≠ R.CAD_DEBT k) (h2 : a ≠ R.CAD_DEADLINE_LO k)
    (h3 : a ≠ R.CAD_DEADLINE_HI k) : (s.cadBegin k kind nom start).rd a = s.rd a :=
  (rd_cadBegin s k kind nom start h0 h1).trans (rd_put64_of_ne _ _ h2 h3)

theorem cadBegin_deadline :
    (s.cadBegin k kind nom start).cadDeadline k = (start + s.cadLen k kind (start - nom)) % 2 ^ 64 :=
  (get64_congr (rd_cadBegin s k kind nom start (cadReg_ne k (by decide)) (cadReg_ne k (by decide)))
    (rd_cadBegin s k kind nom start (cadReg_ne k (by decide)) (cadReg_ne k (by decide)))).trans
    (get64_put64 _ _ (cadReg_ne k (by decide)))

theorem cadBegin_kind (h : kind < 4) : (s.cadBegin k kind nom start).cadKind k = kind := by
  refine (get_congr (State.rd_wr_of_ne _ _ (cadReg_ne k (by decide))) _).trans ?_
  iterate 3 refine (get_put_apart _ _ (.inr (by decide))).trans ?_
  exact (State.get_put_self _ _ _ _ (by decide) (by decide)).trans (Nat.mod_eq_of_lt h)

theorem cadBegin_debt :
    (s.cadBegin k kind nom start).flag (R.CAD_STATUS k) F.CAD_STATUS_DEBT = decide (nom < start) := by
  refine (flag_congr (State.rd_wr_of_ne _ _ (cadReg_ne k (by decide))) _).trans ?_
  refine (congrArg (· == 1) (get_put_apart _ _ (.inr (by decide)))).trans ?_
  refine (flag_put_self _ _ _ _ rfl (by decide) (by split <;> decide)).trans (decide_eq_decide.mpr ?_)
  split <;> omega

end

/-! ### EN (R229) -/

section
variable {s : State} {k : Fin 8}

theorem exec_cadEnable (h : s.flag (R.CAD_CTL k) F.CAD_CTL_EN = false) :
    exec (.cadEnable k) s = .next ((s.put (R.CAD_CTL k) F.CAD_CTL_EN 1).cadSync k) := if_neg (by simp [h])

theorem cadSync_starts (hen : s.flag (R.CAD_CTL k) F.CAD_CTL_EN = true) (hp : s.cadPeriod k 1 ≠ 0)
    (hon : s.cads[k].on = false) : s.cadSync k = s.cadStart k :=
  if_pos (by
    rw [hen, hon]
    simpa using hp)

theorem cadSync_waits (hp : s.cadPeriod k 1 = 0) (hon : s.cads[k].on = false) : s.cadSync k = s :=
  (if_neg (by simp [hp])).trans (if_neg (by simp only [hon, Bool.and_false, Bool.false_eq_true, not_false_eq_true]))

end

section
variable (s : State) (k : Fin 8)

theorem cadStart_cad : (s.cadStart k).cads[k] = { Cadence.reset with origin := s.now, on := true } := by
  refine (cadBegin_cad _ k 1 0 0).trans ?_
  rw [cads_setCad_self]
  rfl

theorem cadStart_regsCads : RegsCads s (s.cadStart k) := by
  have hset : RegsCads s (s.setCad k { Cadence.reset with origin := s.now, on := true }) := rfl
  exact hset.trans ((cadBegin_regsCads _ k 1 0 0).trans (cadTick_regsCads _ k))

theorem cadStart_kind : (s.cadStart k).cadKind k = 1 :=
  (get_congr (rd_cadTick _ k (cadReg_ne k (by decide)) (cadReg_ne k (by decide))) _).trans
    (cadBegin_kind _ k 1 0 0 (by decide))

theorem cadStart_deadline : (s.cadStart k).cadDeadline k = (s.rd (R.CAD_STEP_PERIOD k)).toNat := by
  refine (get64_congr (rd_cadTick _ k (cadReg_ne k (by decide)) (cadReg_ne k (by decide)))
    (rd_cadTick _ k (cadReg_ne k (by decide)) (cadReg_ne k (by decide)))).trans ((cadBegin_deadline _ k 1 0 0).trans ?_)
  have hlen : (s.setCad k { Cadence.reset with origin := s.now, on := true }).cadLen k 1 (0 - 0) =
      (s.rd (R.CAD_STEP_PERIOD k)).toNat := by
    rw [State.cadLen, Nat.sub_self, Nat.zero_min, Nat.sub_zero]
    rfl
  rw [hlen, Nat.zero_add]
  exact Nat.mod_eq_of_lt (lt_trans (BitVec.isLt _) (by decide))

theorem cadStart_timer : (s.cadStart k).cadTimer k = 0 := by
  have hnow : (s.cadStart k).now = s.now := rfl
  rw [State.cadTimer, cadStart_cad, hnow]
  simp

theorem rd_cadStart_ctl : (s.cadStart k).rd (R.CAD_CTL k) = s.rd (R.CAD_CTL k) :=
  (rd_cadTick _ k (cadReg_ne k (by decide)) (cadReg_ne k (by decide))).trans
    (rd_cadBegin_of_ne _ k 1 0 0 (cadReg_ne k (by decide)) (cadReg_ne k (by decide)) (cadReg_ne k (by decide))
      (cadReg_ne k (by decide)))

end

/-! ### A deadline passes (R226-R229) -/

section
variable {s : State} {k : Fin 8}

theorem exec_cadDone {report : PeriodEnd} (hr : s.cadRuns k = true) (hk : report.kind.toNat = s.cadKind k)
    (he : s.cads[k].ended = none) (hw : s.workEnded k report.running = true) : exec (.cadDone k report) s =
      .next ((s.setCad k { s.cads[k] with ended := some (s.cadTimer k) }).cadTick k) := if_pos ⟨hr, hk, he, hw⟩

theorem exec_cadDeadline (waiting : List Nat) (hr : s.cadRuns k = true) (hp : s.cads[k].passed = false)
    (ht : s.cadDeadline k ≤ s.cadTimer k) : exec (.cadDeadline k waiting) s = .next (s.cadPass k waiting) :=
  if_pos ⟨hr, hp, ht⟩

/-- Interrupting service cores changes compute dies alone. -/
theorem cantonIrq_eq (s : State) (k : Nat) : s.cantonIrq k = { s with cds := (s.cantonIrq k).cds } := by
  have h : { s.cantonIrq k with cds := s.cds } = s :=
    proj_foldl (g := fun t d => t.setCd (fin40 d) { t.cd (fin40 d) with coreIrq := true })
      (fun t : State => { t with cds := s.cds }) (fun _ _ _ => rfl) s
  exact congrArg (fun t : State => { t with cds := (s.cantonIrq k).cds }) h

theorem mem_cantonCds {k : Nat} {d : Fin 40} (h : s.cdCanton d = k) : d.val ∈ s.cantonCds k := by
  simpa [State.cantonCds, State.cdCanton] using h

/-- Every service core of the canton is interrupted. -/
theorem coreIrq_cantonIrq {k : Nat} {d : Fin 40} (h : s.cdCanton d = k) : ((s.cantonIrq k).cd d).coreIrq = true := by
  refine foldl_reaches (P := fun t => (t.cd d).coreIrq = true) (mem_cantonCds h) (fun u e _ hu => ?_) (fun u => ?_) s
  · by_cases hd : d = fin40 e
    · subst hd
      rw [State.cd_setCd_self]
    · rwa [State.cd_setCd_of_ne _ _ hd]
  · rw [fin40_val, State.cd_setCd_self]

/-- The evaluation batches that wait once a deadline has passed (R226). -/
def State.cadLeft (s : State) (k : Fin 8) (waiting : List Nat) : List Nat :=
  waiting ++ s.cads[k].carried.filter (fun b => !waiting.contains b)

/-- What every deadline does: it has passed, and the service cores are interrupted. -/
def State.cadOver (s : State) (k : Fin 8) (waiting : List Nat) : State :=
  ((s.setCad k { s.cads[k] with
    passed := true
    carried := if s.cadKind k == 3 then (if s.flag (R.CAD_CTL k) F.CAD_CTL_ECARRY then s.cadLeft k waiting else [])
      else s.cads[k].carried }).cantonIrq k).cadTick k

/-- Whether the period's work has not ended by its deadline. -/
def State.cadLate (s : State) (k : Fin 8) : Bool :=
  match s.cads[k].ended with
  | none => true
  | some e => decide (s.cadDeadline k < e)

/-- What is done for a late period. -/
def State.tellLate (s t : State) (k : Fin 8) : State :=
  ((t.put (R.CAD_STATUS k) F.CAD_STATUS_LATE 1).bump (R.CAD_COUNT k) F.CAD_COUNT_LATE 1).raise 0x5020 (s.svcDie k) (some k)
    (s.svcDetail k 0 (s.cadKind k))

theorem cadPass_eq (s : State) (k : Fin 8) (waiting : List Nat) : s.cadPass k waiting =
    let t := if s.cadLate k then s.tellLate (s.cadOver k waiting) k else s.cadOver k waiting
    if s.cadKind k == 3 && !s.flag (R.CAD_CTL k) F.CAD_CTL_ECARRY && !(s.cadLeft k waiting).isEmpty then
      t.raise 0x5024 (s.svcDie k) (some k) (s.svcDetail k 0 (s.cadLeft k waiting).length)
    else t := rfl

/-- What is told of a deadline leaves controllers, dies and memory as they are. -/
theorem cadPass_spares (s : State) (k : Fin 8) (waiting : List Nat) :
    (s.cadPass k waiting).cads = (s.cadOver k waiting).cads ∧ (s.cadPass k waiting).cds = (s.cadOver k waiting).cds ∧
      (s.cadPass k waiting).mem = (s.cadOver k waiting).mem := by
  rw [cadPass_eq]
  dsimp only
  split <;> split <;> exact ⟨rfl, rfl, rfl⟩

theorem cadPass_of_no_window {waiting : List Nat} (h : s.cadKind k ≠ 3) : s.cadPass k waiting =
    if s.cadLate k then s.tellLate (s.cadOver k waiting) k else s.cadOver k waiting := by
  rw [cadPass_eq]
  simp [h]

end

section
variable (s : State) (k : Fin 8) (waiting : List Nat)

theorem cadOver_cad : (s.cadOver k waiting).cads[k] = { s.cads[k] with
    passed := true
    carried := if s.cadKind k == 3 then (if s.flag (R.CAD_CTL k) F.CAD_CTL_ECARRY then s.cadLeft k waiting else [])
      else s.cads[k].carried } := by
  unfold State.cadOver
  rw [cantonIrq_eq]
  exact cads_setCad_self s k _

theorem cadOver_mem : (s.cadOver k waiting).mem = s.mem := by
  unfold State.cadOver
  rw [cantonIrq_eq]
  rfl

theorem cadOver_events : (s.cadOver k waiting).events = s.events := by
  unfold State.cadOver
  rw [cantonIrq_eq]
  rfl

theorem cadOver_onlyRegs : OnlyRegs [R.CAD_TIMER_LO k, R.CAD_TIMER_HI k] s (s.cadOver k waiting) := fun a ha => by
  refine (cadTick_onlyRegs _ k a ha).trans ?_
  rw [cantonIrq_eq]
  rfl

theorem cadPass_cad : (s.cadPass k waiting).cads[k] = (s.cadOver k waiting).cads[k] := by
  obtain ⟨hcads, _, _⟩ := cadPass_spares s k waiting
  rw [hcads]

theorem cadPass_mem : (s.cadPass k waiting).mem = s.mem := by
  obtain ⟨_, _, hmem⟩ := cadPass_spares s k waiting
  rw [hmem, cadOver_mem]

theorem cadPass_irq {d : Fin 40} (h : s.cdCanton d = k.val) : ((s.cadPass k waiting).cd d).coreIrq = true := by
  obtain ⟨_, hcds, _⟩ := cadPass_spares s k waiting
  rw [State.cd, hcds]
  exact coreIrq_cantonIrq (s := s.setCad k _) h

end

section
variable {s : State} {k : Fin 8}

/-- The state after a deadline of which nothing is told: the period's work had ended, or it had passed before. -/
structure Over (s u : State) (k : Fin 8) : Prop where
  cad : u.cads[k] = { s.cads[k] with passed := true }
  regs : OnlyRegs [R.CAD_TIMER_LO k, R.CAD_TIMER_HI k] s u
  events : u.events = s.events
  mem : u.mem = s.mem

theorem over_cadOver {waiting : List Nat} (h : s.cadKind k ≠ 3) : Over s (s.cadOver k waiting) k where
  cad := by rw [cadOver_cad, if_neg (by simpa using h)]
  regs := cadOver_onlyRegs s k waiting
  events := cadOver_events s k waiting
  mem := cadOver_mem s k waiting

theorem Over.of_passed (h : s.cads[k].passed = true) : Over s s k where
  cad := by rw [← h]
  regs := fun _ _ => rfl
  events := rfl
  mem := rfl

theorem cadPass_of_ended {waiting : List Nat} {e : Nat} (he : s.cads[k].ended = some e) (hd : e ≤ s.cadDeadline k)
    (hk : s.cadKind k ≠ 3) : s.cadPass k waiting = s.cadOver k waiting := by
  have hlate : s.cadLate k = false := by
    unfold State.cadLate
    rw [he]
    exact decide_eq_false (Nat.not_lt.mpr hd)
  rw [cadPass_of_no_window hk, hlate, if_neg Bool.false_ne_true]

theorem cadPass_of_late {waiting : List Nat} (he : ∀ e, s.cads[k].ended = some e → s.cadDeadline k < e)
    (hk : s.cadKind k ≠ 3) : s.cadPass k waiting = s.tellLate (s.cadOver k waiting) k := by
  have hlate : s.cadLate k = true := by
    unfold State.cadLate
    cases hend : s.cads[k].ended with
    | none => rfl
    | some e => exact decide_eq_true (he e hend)
  rw [cadPass_of_no_window hk, hlate, if_pos rfl]

theorem satN_eq_min (lim n : Nat) : satN lim n = min lim n := by
  unfold satN
  split <;> omega

theorem tellLate_late (s t : State) (k : Fin 8) : (s.tellLate t k).flag (R.CAD_STATUS k) F.CAD_STATUS_LATE = true :=
  (flag_congr (State.rd_put_of_ne _ _ _ (cadReg_ne k (by decide))) _).trans
    (flag_put_self t _ _ 1 rfl (by decide) (by decide))

theorem tellLate_count (s t : State) (k : Fin 8) : (s.tellLate t k).get (R.CAD_COUNT k) F.CAD_COUNT_LATE =
    min (2 ^ 16 - 1) (t.get (R.CAD_COUNT k) F.CAD_COUNT_LATE + 1) := by
  have hne : R.CAD_COUNT k ≠ R.CAD_STATUS k := cadReg_ne k (by decide)
  refine (State.get_bump_self _ _ _ 1 (by decide) (by decide)).trans ?_
  rw [State.get_put_of_ne _ _ _ _ hne]
  exact satN_eq_min _ _

end

end Sys2Proof.Machine
end

section
/-! The cadence controller: the next period, and the statement (O24). -/
namespace Sys2Proof.Machine

/-! ### What is the same once a deadline has passed -/

section
variable {s u : State} {k : Fin 8} (h : OnlyRegs [R.CAD_TIMER_LO k, R.CAD_TIMER_HI k] s u)
include h

theorem rd_of_onlyTimer {a : Nat} (h0 : a ≠ R.CAD_TIMER_LO k) (h1 : a ≠ R.CAD_TIMER_HI k) : u.rd a = s.rd a :=
  h a (by simp [h0, h1])

theorem cadKind_of_onlyTimer : u.cadKind k = s.cadKind k :=
  get_congr (rd_of_onlyTimer h (cadReg_ne k (by decide)) (cadReg_ne k (by decide))) _

theorem cadPeriod_of_onlyTimer (kind : Nat) : u.cadPeriod k kind = s.cadPeriod k kind := by
  unfold State.cadPeriod
  rw [rd_of_onlyTimer h (a := R.CAD_STEP_PERIOD k) (cadReg_ne k (by decide)) (cadReg_ne k (by decide)),
    rd_of_onlyTimer h (a := R.CAD_ROUND_PERIOD k) (cadReg_ne k (by decide)) (cadReg_ne k (by decide)),
    rd_of_onlyTimer h (a := R.CAD_EVAL_PERIOD k) (cadReg_ne k (by decide)) (cadReg_ne k (by decide))]

theorem get_cadCtl_of_onlyTimer (f : Fld) : u.get (R.CAD_CTL k) f = s.get (R.CAD_CTL k) f :=
  get_congr (rd_of_onlyTimer h (cadReg_ne k (by decide)) (cadReg_ne k (by decide))) f

theorem cadLen_of_onlyTimer (kind debt : Nat) : u.cadLen k kind debt = s.cadLen k kind debt := by
  unfold State.cadLen
  rw [cadPeriod_of_onlyTimer h, get_cadCtl_of_onlyTimer h]

end

theorem Over.next {s u : State} {k : Fin 8} (h : Over s u k) : u.cadNext k = s.cadNext k := by
  have hevery (f : Fld) : u.get (R.CAD_EVERY k) f = s.get (R.CAD_EVERY k) f :=
    get_congr (rd_of_onlyTimer h.regs (cadReg_ne k (by decide)) (cadReg_ne k (by decide))) f
  unfold State.cadNext
  rw [h.cad, cadKind_of_onlyTimer h.regs, hevery, hevery]

theorem cadNext_lt (s : State) (k : Fin 8) : s.cadNext k < 4 := by
  unfold State.cadNext
  dsimp only
  split_ifs <;> simp

/-! ### The next period (R223, R224) -/

/-- A step more has begun, where the next period is a step period. -/
def State.cadStepped (u : State) (k : Fin 8) : State :=
  if u.cadNext k = 1 then u.setCad k { u.cads[k] with step := u.cads[k].step + 1 } else u

theorem cadStepped_regs (u : State) (k : Fin 8) : (u.cadStepped k).regs = u.regs := by
  unfold State.cadStepped
  split <;> rfl

theorem cadStepped_regsCads (u : State) (k : Fin 8) : RegsCads u (u.cadStepped k) := by
  unfold State.cadStepped
  split <;> rfl

/-- Nominal start of the next period. -/
def State.cadNominal (u : State) (k : Fin 8) : Nat := u.cads[k].nominal + u.cadPeriod k (u.cadKind k)

/-- The next period begun, where no resynchronisation applies. -/
def State.cadBegun (u : State) (k : Fin 8) (start : Nat) : State :=
  ((u.cadStepped k).cadBegin k (u.cadNext k) (u.cadNominal k) start).cadTick k

theorem cadBegun_regsCads (u : State) (k : Fin 8) (start : Nat) : RegsCads u (u.cadBegun k start) :=
  (cadStepped_regsCads u k).trans ((cadBegin_regsCads _ k _ _ _).trans (cadTick_regsCads _ k))

/-- The state after the deadline of the present period. -/
def State.cadAfter (s : State) (k : Fin 8) : State := if s.cads[k].passed then s else s.cadPass k []

theorem exec_cadPeriodStart {s : State} {k : Fin 8} {e : Nat} (hr : s.cadRuns k = true) (he : s.cads[k].ended = some e)
    (ht : max e (s.cadDeadline k) ≤ s.cadTimer k) (hres : (s.cadAfter k).get (R.CAD_CTL k) F.CAD_CTL_RESYNC = 0) :
    exec (.cadPeriodStart k) s =
      let u := s.cadAfter k
      let start := max e (s.cadDeadline k)
      if u.flag (R.CAD_STATUS k) F.CAD_STATUS_DEBT = true ∧ start - u.cadNominal k = 0 then
        .next ((u.cadBegun k start).raise 0x5021 (u.svcDie k) (some k) (u.svcDetail k 0 start))
      else .next (u.cadBegun k start) := by
  have hgo : ¬ (s.cadRuns k = false ∨ s.cadTimer k < max e (s.cadDeadline k)) := by
    rw [hr]
    exact fun h => h.elim Bool.noConfusion (Nat.not_lt.mpr ht)
  change execCadPeriodStart k s = _
  unfold execCadPeriodStart
  extract_lets c u cu kind nom before resync t _ start
  have hc : c.ended = some e := he
  rw [hc]
  refine (if_neg hgo).trans ?_
  extract_lets move v
  have hmove : ¬ move := fun h => h.1 hres
  have hv : v = u.cadBegun k start :=
    congrArg (fun n => State.cadTick (t.cadBegin k kind n start) k) (if_neg hmove)
  rw [hv]
  exact if_neg hmove

/-- A period of a kind has begun at `start` (R224): its starts, its deadline and its debt; memory is as before. -/
structure Begun (s t : State) (k : Fin 8) (kind start : Nat) : Prop where
  start_eq : t.cads[k].start = start
  nominal_eq : t.cads[k].nominal = s.cadNominal k
  kind_eq : t.cadKind k = kind
  deadline : t.cadDeadline k = start + s.cadLen k kind (start - s.cadNominal k)
  debt : t.flag (R.CAD_STATUS k) F.CAD_STATUS_DEBT = decide (s.cadNominal k < start)
  mem : t.mem = s.mem

theorem Begun.raise {s t : State} {k : Fin 8} {kind start : Nat} (h : Begun s t k kind start) (code die : Nat)
    (c : Option Nat) (det : List Byte) : Begun s (t.raise code die c det) k kind start :=
  ⟨h.start_eq, h.nominal_eq, h.kind_eq, h.deadline, h.debt, h.mem⟩

section
variable {s u : State} {k : Fin 8} (h : Over s u k)
include h

theorem Over.nominal : u.cadNominal k = s.cadNominal k := by
  unfold State.cadNominal
  rw [h.cad, cadPeriod_of_onlyTimer h.regs, cadKind_of_onlyTimer h.regs]

theorem Over.events_begun (start : Nat) : (u.cadBegun k start).events = s.events :=
  (congrArg State.events (cadBegun_regsCads u k start)).trans h.events

/-- What the next period after a deadline leaves, where its end can be told. -/
theorem Over.begun {start kind : Nat} (hkind : kind = s.cadNext k) (hp : start + s.cadPeriod k kind < 2 ^ 64) :
    Begun s (u.cadBegun k start) k kind start := by
  have hregs : OnlyRegs [R.CAD_TIMER_LO k, R.CAD_TIMER_HI k] s (u.cadStepped k) := fun a ha => by
    rw [State.rd, cadStepped_regs]
    exact h.regs a ha
  have hcad : (u.cadBegun k start).cads[k] = _ := cadBegin_cad _ k (u.cadNext k) (u.cadNominal k) start
  have hstatus : (u.cadBegun k start).rd (R.CAD_STATUS k) = _ :=
    rd_cadTick _ k (cadReg_ne k (by decide)) (cadReg_ne k (by decide))
  have hlen : s.cadLen k kind (start - s.cadNominal k) ≤ s.cadPeriod k kind := Nat.sub_le _ _
  refine ⟨by rw [hcad], by rw [hcad, h.nominal], (get_congr hstatus _).trans ?_, ?_, (flag_congr hstatus _).trans ?_,
    (congrArg State.mem (cadBegun_regsCads u k start)).trans h.mem⟩
  · exact (cadBegin_kind _ k _ _ _ (cadNext_lt u k)).trans (h.next.trans hkind.symm)
  · refine (get64_congr (rd_cadTick _ k (cadReg_ne k (by decide)) (cadReg_ne k (by decide)))
      (rd_cadTick _ k (cadReg_ne k (by decide)) (cadReg_ne k (by decide)))).trans ((cadBegin_deadline _ k _ _ _).trans ?_)
    rw [cadLen_of_onlyTimer hregs, h.next, h.nominal, ← hkind]
    exact Nat.mod_eq_of_lt (by omega)
  · rw [cadBegin_debt, h.nominal]

end

theorem over_cadAfter {s : State} {k : Fin 8} {e : Nat} (he : s.cads[k].ended = some e)
    (h : s.cads[k].passed = true ∨ e ≤ s.cadDeadline k ∧ s.cadKind k ≠ 3) : Over s (s.cadAfter k) k := by
  unfold State.cadAfter
  cases hp : s.cads[k].passed with
  | true => exact .of_passed hp
  | false =>
    obtain ⟨hd, hk⟩ := h.resolve_left (by rw [hp]; exact Bool.false_ne_true)
    rw [if_neg Bool.false_ne_true, cadPass_of_ended he hd hk]
    exact over_cadOver hk

theorem exec_evalBatchStart {s : State} {k : Fin 8} {b : Nat} (hr : s.cadRuns k = true) (hk : s.cadKind k = 3)
    (ht : s.cadTimer k < s.cadDeadline k) (hb : b ∉ s.cads[k].started) : exec (.evalBatchStart k b) s =
      .next (s.setCad k { s.cads[k] with
        started := s.cads[k].started ++ [b]
        carried := s.cads[k].carried.filter (fun x => x != b) }) :=
  if_pos ⟨hr, hk, ht, by simpa using hb⟩

/-- The next period begins; of a debt that has come back to 0 the event 0x5021 tells. -/
theorem cadPeriodStart_begins {s : State} {k : Fin 8} {e start : Nat} (hr : s.cadRuns k = true)
    (he : s.cads[k].ended = some e) (hpass : s.cads[k].passed = true ∨ e ≤ s.cadDeadline k ∧ s.cadKind k ≠ 3)
    (hstart : start = max e (s.cadDeadline k)) (ht : start ≤ s.cadTimer k)
    (hres : s.get (R.CAD_CTL k) F.CAD_CTL_RESYNC = 0) (hp : start + s.cadPeriod k (s.cadNext k) < 2 ^ 64) :
    Yields (exec (.cadPeriodStart k) s) (fun t => Begun s t k (s.cadNext k) start ∧
      if s.flag (R.CAD_STATUS k) F.CAD_STATUS_DEBT = true ∧ start ≤ s.cadNominal k then
        ∃ v : Event, t.events = s.events ++ [v] ∧ v.code = 0x5021 else t.events = s.events) := by
  subst hstart
  have ho := over_cadAfter he hpass
  have hbegun := ho.begun rfl hp
  have hevents := ho.events_begun (max e (s.cadDeadline k))
  have hdebt : (s.cadAfter k).flag (R.CAD_STATUS k) F.CAD_STATUS_DEBT = s.flag (R.CAD_STATUS k) F.CAD_STATUS_DEBT :=
    flag_congr (rd_of_onlyTimer ho.regs (cadReg_ne k (by decide)) (cadReg_ne k (by decide))) _
  rw [exec_cadPeriodStart hr he ht ((get_cadCtl_of_onlyTimer ho.regs _).trans hres)]
  simp only [hdebt, ho.nominal, Nat.sub_eq_zero_iff_le]
  by_cases hback : s.flag (R.CAD_STATUS k) F.CAD_STATUS_DEBT = true ∧ max e (s.cadDeadline k) ≤ s.cadNominal k
  · simp only [if_pos hback]
    exact ⟨_, rfl, hbegun.raise _ _ _ _, _, by rw [State.raise_events, hevents], rfl⟩
  · simp only [if_neg hback]
    exact ⟨_, rfl, hbegun, hevents⟩

/-- EN with a step period starts the controller. -/
theorem cadEnable_starts {s : State} {k : Fin 8} (hen : s.flag (R.CAD_CTL k) F.CAD_CTL_EN = false)
    (hon : s.cads[k].on = false) (hp : s.cadPeriod k 1 ≠ 0) :
    exec (.cadEnable k) s = .next ((s.put (R.CAD_CTL k) F.CAD_CTL_EN 1).cadStart k) := by
  have hne : R.CAD_STEP_PERIOD k ≠ R.CAD_CTL k := cadReg_ne k (by decide)
  have hdue : (s.put (R.CAD_CTL k) F.CAD_CTL_EN 1).cadPeriod k 1 ≠ 0 := by
    rwa [State.cadPeriod, if_pos rfl, State.rd_put_of_ne _ _ _ hne]
  rw [exec_cadEnable hen, cadSync_starts (flag_put_self _ _ _ 1 rfl (by decide) (by decide)) hdue hon]

/-- EN without a step period waits for one. -/
theorem cadEnable_waits {s : State} {k : Fin 8} (hen : s.flag (R.CAD_CTL k) F.CAD_CTL_EN = false)
    (hon : s.cads[k].on = false) (hp : s.cadPeriod k 1 = 0) :
    exec (.cadEnable k) s = .next (s.put (R.CAD_CTL k) F.CAD_CTL_EN 1) := by
  have hne : R.CAD_STEP_PERIOD k ≠ R.CAD_CTL k := cadReg_ne k (by decide)
  have hwait : (s.put (R.CAD_CTL k) F.CAD_CTL_EN 1).cadPeriod k 1 = 0 := by
    rwa [State.cadPeriod, if_pos rfl, State.rd_put_of_ne _ _ _ hne]
  rw [exec_cadEnable hen, cadSync_waits hwait hon]

/-- A controller that EN has just started is in a step period from 0 on. -/
theorem cadStart_gives {s : State} {k : Fin 8} (hctl : s.flag (R.CAD_CTL k) F.CAD_CTL_EN = true) :
    (s.cadStart k).flag (R.CAD_CTL k) F.CAD_CTL_EN = true ∧ (s.cadStart k).cadKind k = 1 ∧
      (s.cadStart k).cadDeadline k = (s.rd (R.CAD_STEP_PERIOD k)).toNat ∧ (s.cadStart k).cads[k].start = 0 ∧
      (s.cadStart k).cads[k].nominal = 0 ∧ (s.cadStart k).cads[k].step = 0 ∧ (s.cadStart k).cads[k].on = true ∧
      (s.cadStart k).cadTimer k = 0 := by
  refine ⟨(flag_congr (rd_cadStart_ctl s k) _).trans hctl, cadStart_kind s k, cadStart_deadline s k, ?_, ?_, ?_, ?_,
    cadStart_timer s k⟩ <;> rw [cadStart_cad] <;> rfl

/-- Settles O24: a period's registers are those `cadBegin` writes, and a deadline changes them only where the period is
late. -/
theorem cadencePeriodsFollowTheirDeadlines : Obligations.CadencePeriodsFollowTheirDeadlines := by
  unfold Obligations.CadencePeriodsFollowTheirDeadlines
  refine ⟨fun s k hen hon => ⟨fun hp => ?_, fun hp => ?_⟩, fun s k kind running hr hk he hw => ?_,
    fun s k waiting hr hp ht => ⟨fun hk he => ?_, fun e he hd hk => ?_, fun hk => ?_⟩,
    fun s k e start nom kind p hr he hpass hstart hle hnom hres hkind hp hlt => ?_, fun s k b hr hk ht hb => ?_⟩
  · have hne : R.CAD_STEP_PERIOD k ≠ R.CAD_CTL k := cadReg_ne k (by decide)
    obtain ⟨hctl, hkind, hdeadline, hstart, hnom, hstep, hruns, htimer⟩ :=
      cadStart_gives (flag_put_self s (R.CAD_CTL k) F.CAD_CTL_EN 1 rfl (by decide) (by decide))
    rw [State.rd_put_of_ne _ _ _ hne] at hdeadline
    have hput : RegsCads s (s.put (R.CAD_CTL k) F.CAD_CTL_EN 1) := rfl
    exact ⟨_, cadEnable_starts hen hon hp, hctl, hkind, hdeadline, hstart, hnom, hstep, hruns, htimer,
      hput.trans (cadStart_regsCads _ k)⟩
  · exact ⟨_, cadEnable_waits hen hon hp, flag_put_self s _ _ 1 rfl (by decide) (by decide),
      fun a ha => State.rd_put_of_ne _ _ _ (by simpa using ha), rfl⟩
  · rw [exec_cadDone hr hk he hw]
    refine ⟨_, rfl, ?_, cadTick_onlyRegs _ k, rfl⟩
    exact congrArg Cadence.ended (cads_setCad_self s k _)
  · rw [exec_cadDeadline waiting hr hp ht]
    refine ⟨_, rfl, by rw [cadPass_cad, cadOver_cad], ?_, ?_, ?_, fun d => cadPass_irq s k waiting,
      State.byte_congr (cadPass_mem s k waiting)⟩
    · rw [cadPass_of_late he hk, tellLate_late]
    · have hcount : (s.cadOver k waiting).rd (R.CAD_COUNT k) = s.rd (R.CAD_COUNT k) :=
        rd_of_onlyTimer (cadOver_onlyRegs s k waiting) (cadReg_ne k (by decide)) (cadReg_ne k (by decide))
      rw [cadPass_of_late he hk, tellLate_count, get_congr hcount]
    · rw [cadPass_of_late he hk]
      exact ⟨_, congrArg (· ++ _) (cadOver_events s k waiting), rfl, rfl⟩
  · rw [exec_cadDeadline waiting hr hp ht]
    refine ⟨_, rfl, by rw [cadPass_cad, cadOver_cad], ?_, fun d => cadPass_irq s k waiting, ?_,
      State.byte_congr (cadPass_mem s k waiting)⟩
    · rw [cadPass_of_ended he hd hk, cadOver_events]
    · rw [cadPass_of_ended he hd hk]
      exact cadOver_onlyRegs s k waiting
  · rw [exec_cadDeadline waiting hr hp ht]
    refine ⟨_, rfl, by rw [cadPass_cad, cadOver_cad], ?_, State.byte_congr (cadPass_mem s k waiting)⟩
    rw [cadPass_cad, cadOver_cad, hk]
    rfl
  · subst hkind hp hnom
    obtain ⟨t, ht, hb, hevents⟩ := cadPeriodStart_begins hr he hpass hstart hle hres hlt
    exact ⟨t, ht, hb.start_eq, hb.nominal_eq, hb.kind_eq, hb.deadline, hb.debt, hevents, State.byte_congr hb.mem⟩
  · rw [exec_evalBatchStart hr hk ht hb]
    refine ⟨_, rfl, congrArg Cadence.started (cads_setCad_self s k _), ?_, rfl⟩
    rw [cads_setCad_self]
    simp

end Sys2Proof.Machine
end

section
/-! Runs of bytes and numbers in memory. -/
namespace Sys2Proof.Machine

/-- A list of bytes stands in memory from an address on. -/
def StoredAt (t : State) (a : Nat) (bs : List Byte) : Prop := ∀ i, i < bs.length → t.byte (a + i) = bs.getD i 0

section
variable {s t : State} {a b n k v : Nat} {xs ys bs : List Byte}

theorem State.num_congr (h : ∀ i, i < n → t.byte (a + i) = s.byte (a + i)) : t.num a n = s.num a n := by
  unfold State.num
  rw [State.bytes_eq_map, State.bytes_eq_map]
  congr 1
  exact List.map_congr_left fun i hi => h i (List.mem_range.mp hi)

theorem State.num_putNum_of_apart (s : State) (v : Nat) (h : a + n ≤ b ∨ b + k ≤ a) :
    (s.putNum b k v).num a n = s.num a n :=
  State.num_congr fun i hi => by
    rw [State.putNum, State.byte_putBytes_of_outside]
    rw [leBytes_length]
    omega

theorem storedAt_putBytes (s : State) (a : Nat) (bs : List Byte) : StoredAt (s.putBytes a bs) a bs := fun i hi => by
  rw [State.byte_putBytes, if_pos (by omega), Nat.add_sub_cancel_left]

theorem storedAt_storeWrite (s : State) (a : Nat) (bs : List Byte) : StoredAt (s.storeWrite a bs) a bs := fun i hi => by
  rw [State.byte_storeWrite, if_pos (by omega), Nat.add_sub_cancel_left]

/-- What stands in memory stands there after a change elsewhere. -/
theorem StoredAt.congr (h : StoredAt s a bs) (hb : ∀ i, i < bs.length → t.byte (a + i) = s.byte (a + i)) :
    StoredAt t a bs := fun i hi => (hb i hi).trans (h i hi)

theorem StoredAt.left (h : StoredAt t a (xs ++ ys)) : StoredAt t a xs := fun i hi => by
  rw [h i (by rw [List.length_append]; omega), List.getD_append _ _ _ _ hi]

theorem StoredAt.right (h : StoredAt t a (xs ++ ys)) : StoredAt t (a + xs.length) ys := fun i hi => by
  rw [Nat.add_assoc, h _ (by rw [List.length_append]; omega), List.getD_append_right _ _ _ _ (by omega),
    Nat.add_sub_cancel_left]

/-- One of a row of blocks of equal length. -/
theorem StoredAt.flatten {l : List (List Byte)} (h : StoredAt t a l.flatten) (hn : ∀ x ∈ l, x.length = n) {i : Nat}
    (hi : i < l.length) : StoredAt t (a + n * i) l[i] := by
  induction l generalizing a i with
  | nil => exact absurd hi (Nat.not_lt_zero _)
  | cons x l ih =>
    have hx : x.length = n := hn x List.mem_cons_self
    rw [List.flatten_cons] at h
    cases i with
    | zero => exact h.left
    | succ i =>
      have := ih (i := i) h.right (fun y hy => hn y (List.mem_cons_of_mem _ hy)) (by simpa using hi)
      rw [hx, Nat.add_assoc, Nat.add_comm n, ← Nat.mul_succ] at this
      exact this

theorem StoredAt.bytes_eq (h : StoredAt t a bs) : t.bytes a bs.length = bs := by
  rw [State.bytes_eq_map]
  refine List.ext_getElem (by simp) fun i hi hi' => ?_
  rw [List.getElem_map, List.getElem_range, h i hi', List.getD_eq_getElem _ _ hi']

theorem StoredAt.num (h : StoredAt t a (leBytes n v)) : t.num a n = v % 256 ^ n := by
  have := h.bytes_eq
  rw [leBytes_length] at this
  rw [State.num, this, leNat_leBytes]

end

end Sys2Proof.Machine
end

section
/-! The vector engine runs the instruction at the head of its FIFO (R155, R165): what is booked beside its effect. -/
namespace Sys2Proof.Machine

theorem opcodeOf_of_isUnit {w : Cmd} {u op : Nat} (h : isUnit w u op = true) : opcodeOf w = op := by
  unfold isUnit at h
  simp only [Bool.and_eq_true, decide_eq_true_eq] at h
  exact h.2

@[simp] theorem State.ve_setVe_self (s : State) (d : Fin 40) (v : VEng) : (s.setVe d v).ve d = v := by
  simp [State.ve, State.setVe]

theorem State.cd_setVe_self (s : State) (d : Fin 40) (v : VEng) : (s.setVe d v).cd d = { s.cd d with ve := v } := by
  simp [State.setVe]

/-- What is booked beside the effect `v` of the instruction `e`, started in state `s` (R156, R159, R165). -/
def State.veBooked (v s : State) (d : Fin 40) (bad : List VeBad) (e : UCmd) : State :=
  let n := veCount e.w
  let act := if opcodeOf e.w < 0x40 then ((List.range n).filter (fun k => s.active d bad e.w k)).length else n
  let t := ((v.put (R.VE_STATUS d) F.VE_STATUS_SRHOLD 0).veParity d (s.veMeets d bad e.w n)).vePerf d
    (if opcodeOf e.w < 0x40 then veBeat e.w else 512) n act
  ((t.veTick d e.w).popHead d veUnit).completeAt d e (s.veLast d e.w + 1)

section
variable {s : State} {d : Fin 40} {q : Fin 4} {w : Cmd} {bad : List VeBad}

/-- A ready instruction has its effect whole, and is booked. -/
theorem veHead_of_ready {e : UCmd} (h : VeReady s d q e.w bad) (he : s.head? d veUnit = some e) :
    s.veHead d bad = (s.veEffect d bad e.w (veCount e.w)).veBooked s d bad e := by
  have hseed : (veSr e.w && !s.flag (R.ARITH_SR_STATUS (cdBase d)) F.ARITH_SR_STATUS_SEEDED) = false := by
    cases hsr : veSr e.w with
    | false => rfl
    | true => rw [h.seeded hsr]; rfl
  unfold State.veHead State.veBooked
  simp only [h.free, he, h.fine, hseed, h.clean, Nat.lt_irrefl, if_false, Bool.false_eq_true]

theorem veRun_of_ready (h : VeReady s d q w bad) :
    ∃ e : UCmd, e.q = q ∧ e.w = w ∧ e.quiet = false ∧
      s.veRun d q w bad = (s.veEffect d bad w (veCount w)).veBooked s d bad e := by
  obtain ⟨e, he, hq, hw, hl⟩ := h.head
  have hwaits : (s.cd d).waits veUnit q w = true :=
    List.any_eq_true.mpr ⟨e, List.mem_of_mem_head? he, by simp [hq, hw]⟩
  have henter : s.enter d veUnit q w = (s, true) := by
    simp [State.enter, State.atHead, h.runs, hwaits, he, hq, hw]
  refine ⟨e, hq, hw, hl, ?_⟩
  rw [State.veRun, henter, if_pos rfl]
  subst hw
  exact veHead_of_ready h he

/-! ### What booking leaves alone -/

variable (v : State) {e : UCmd}

theorem State.cd_veParity (met : Bool) (x : Fin 40) : (v.veParity d met).cd x = v.cd x := by
  cases met <;> rfl

theorem State.byte_veParity (met : Bool) (b : Nat) : (v.veParity d met).byte b = v.byte b := by
  cases met <;> rfl

theorem State.cd_vePerf (beat n act : Nat) (x : Fin 40) : (v.vePerf d beat n act).cd x = v.cd x := by
  unfold State.vePerf
  split <;> rfl

theorem State.byte_vePerf (beat n act b : Nat) : (v.vePerf d beat n act).byte b = v.byte b := by
  unfold State.vePerf
  split <;> rfl

theorem State.rd_completeAt (at_ a : Nat) : (v.completeAt d e at_).rd a = v.rd a := by
  unfold State.completeAt
  split <;> rfl

theorem State.byte_completeAt (at_ b : Nat) : (v.completeAt d e at_).byte b = v.byte b := by
  unfold State.completeAt
  split <;> rfl

/-- A completion adds its increment, if it signals, and leaves the rest of the die. -/
theorem State.cd_completeAt (he : e.quiet = false) (at_ : Nat) :
    (v.completeAt d e at_).cd d = { v.cd d with due := (v.cd d).due ++ sigDue e.q e.w at_ } := by
  unfold State.completeAt sigDue
  by_cases hs : sigOf e.w = 0 <;> simp [hs, he]

/-- The compute die after an instruction is booked: its effect's, with the FIFO, the increments due and the engine's
timeline moved on. -/
theorem cd_veBooked (he : e.quiet = false) : ∃ i n, (v.veBooked s d bad e).cd d =
    { v.cd d with
      ve := { (v.cd d).ve with issueAt := i, doneAt := n }
      fifos := (v.cd d).fifos.set veUnit ((v.cd d).fifo veUnit).tail
      due := (v.cd d).due ++ sigDue e.q e.w (s.veLast d e.w + 1) } := by
  unfold State.veBooked
  extract_lets n act t
  have ht : t.cd d = v.cd d := by rw [State.cd_vePerf, State.cd_veParity, State.cd_put]
  refine ⟨t.veStart d e.w + t.veCycles e.w, max (t.ve d).doneAt (t.veLast d e.w + 1), ?_⟩
  rw [State.cd_completeAt _ he, State.popHead, State.cd_setCd_self, State.veTick, State.cd_setVe_self, State.ve, ht]
  rfl

theorem tile_veBooked (he : e.quiet = false) (x : Nat) :
    ((v.veBooked s d bad e).ve d).tile x = (v.ve d).tile x := by
  obtain ⟨i, n, h⟩ := cd_veBooked (s := s) (bad := bad) (d := d) v he
  rw [State.ve, h]
  rfl

theorem fifo_veBooked (he : e.quiet = false) :
    ((v.veBooked s d bad e).cd d).fifo veUnit = ((v.cd d).fifo veUnit).tail := by
  obtain ⟨i, n, h⟩ := cd_veBooked (s := s) (bad := bad) (d := d) v he
  simp [CDie.fifo, h]

theorem due_veBooked (he : e.quiet = false) :
    ((v.veBooked s d bad e).cd d).due = (v.cd d).due ++ sigDue e.q e.w (s.veLast d e.w + 1) := by
  obtain ⟨i, n, h⟩ := cd_veBooked (s := s) (bad := bad) (d := d) v he
  rw [h]

theorem byte_veBooked (b : Nat) : (v.veBooked s d bad e).byte b = v.byte b := by
  rw [State.veBooked, State.byte_completeAt]
  exact (State.byte_vePerf _ _ _ _ _).trans (State.byte_veParity _ _ _)

end

end Sys2Proof.Machine
end

section
/-! Element-wise arithmetic into a tile operand (O13). -/
namespace Sys2Proof

/-! ### Words of 32 bits -/

theorem unsignedN_lt (w : Nat) (i : Int) : unsignedN w i < 2 ^ w := by
  have hpos : (0 : Int) < ((2 ^ w : Nat) : Int) := by positivity
  have := Int.emod_lt_of_pos i hpos
  have := Int.emod_nonneg i (ne_of_gt hpos)
  unfold unsignedN
  omega

theorem unsignedN_signedN_32 (n : Nat) : unsignedN 32 (signedN 32 n) = n % 2 ^ 32 := by
  unfold unsignedN signedN
  split <;> norm_num at * <;> omega

theorem signedN_32_range (n : Nat) : -2 ^ 31 ≤ signedN 32 n ∧ signedN 32 n ≤ 2 ^ 31 - 1 := by
  unfold signedN
  split <;> norm_num at * <;> omega

theorem satInt_32 (z : Int) : (satInt 32 z).1 = max (-2 ^ 31) (min (2 ^ 31 - 1) z) := by
  unfold satInt
  norm_num
  split
  · omega
  · split <;> omega

theorem signed_lt_of_le {c : Nat} (s : Bool) (h : c ≤ 0x7F800000) : NFmt.fp32.signed s c < 2 ^ 32 := by
  unfold NFmt.signed NFmt.width
  cases s <;> norm_num <;> omega

/-- A rounded result is a 32-bit word. -/
theorem fp32_rne_lt (v : FVal) : NFmt.fp32.rne v < 2 ^ 32 := by
  have hinf : ∀ s, (NFmt.fp32.infResult false s).1 < 2 ^ 32 := fun s => signed_lt_of_le s le_rfl
  unfold NFmt.rne NFmt.round
  cases v with
  | nan => decide
  | inf s => exact hinf s
  | fin s m e =>
    simp only [roundQ]
    split
    · exact hinf s
    · next h => exact signed_lt_of_le s (le_trans (Nat.not_lt.mp h) (by decide))

end Sys2Proof

namespace Sys2Proof.Machine

/-! ### Elements of a tile written -/

section
variable {d : Fin 40} {w : Cmd}

theorem State.tile_writeElem (s : State) (d : Fin 40) (m fmt k c x : Nat) :
    ((s.writeElem d (.tile m) fmt k c).ve d).tile x =
      if x = m + k then widen fmt c % 2 ^ 32 else (s.ve d).tile x := by
  rw [State.writeElem, State.ve_setVe_self, VEng.tile, Sparse.get_set]
  split
  · exact BitVec.toNat_ofNat _ _
  · rfl

/-- Elements k, k + 1, … of a tile operand written with a list of codes. -/
theorem State.tile_writeElems (cs : List Nat) (s : State) (d : Fin 40) (m fmt k x : Nat) :
    ((s.writeElems d (.tile m) fmt k (cs.map some)).ve d).tile x =
      if m + k ≤ x ∧ x < m + k + cs.length then widen fmt (cs.getD (x - (m + k)) 0) % 2 ^ 32 else (s.ve d).tile x := by
  induction cs generalizing s k with
  | nil => rw [if_neg (by simp)]; rfl
  | cons c cs ih =>
    rw [List.map_cons, State.writeElems]
    rw [ih, State.tile_writeElem]
    by_cases hx : x = m + k
    · subst hx
      rw [if_neg (by omega), if_pos rfl, if_pos (by simp), Nat.sub_self]
      rfl
    · rw [if_neg hx]
      by_cases hr : m + (k + 1) ≤ x ∧ x < m + (k + 1) + cs.length
      · rw [if_pos hr, if_pos (by rw [List.length_cons]; omega), show x - (m + k) = x - (m + (k + 1)) + 1 by omega,
          List.getD_cons_succ]
      · rw [if_neg hr, if_neg (by rw [List.length_cons]; omega)]

/-- The code and flags of element k of an element-wise instruction on operands of the source format (R137). -/
def State.elemResult (s : State) (d : Fin 40) (w : Cmd) (k : Nat) : Nat × Flags :=
  let f := eSrc w
  let sel := match eC w with | .mask v => maskBitOf (s.ve d) [] v k | _ => false
  let r := arith (opcodeOf w) (s.readElem d [] (eA w) f k) (s.readElem d [] (eB w) f k) (s.readElem d [] (eC w) f k) sel
  let p := roundTo (eDst w) (eSat5 w) .rne r.1
  (p.1, { p.2 with inv := p.2.inv || r.2 })

theorem veElem_eq (s : State) (n : Nat) (hm : eMasken w = false) (hlo : 0x10 ≤ opcodeOf w) (hhi : opcodeOf w ≤ 0x17) :
    s.veElem d [] w n =
      s.writeResults d w (eD w) (eDst w) ((List.range n).map (fun k => some (s.elemResult d w k))) := by
  have hest : isEst (opcodeOf w) = false := by
    unfold isEst
    simp only [Bool.and_eq_false_iff, decide_eq_false_iff_not]
    omega
  have hsc : opcodeOf w ≠ 0x1D := by omega
  unfold State.veElem
  simp [State.active, hm, hest, hsc]
  rfl

theorem veEffect_elem (s : State) (n : Nat) (hlo : 0x10 ≤ opcodeOf w) (hhi : opcodeOf w ≤ 0x17) :
    s.veEffect d [] w n = s.veElem d [] w n := by
  unfold State.veEffect isRed isMaskOp isCmp
  generalize opcodeOf w = op at hlo hhi
  have : op = 0x10 ∨ op = 0x11 ∨ op = 0x12 ∨ op = 0x13 ∨ op = 0x14 ∨ op = 0x15 ∨ op = 0x16 ∨ op = 0x17 := by omega
  rcases this with rfl | rfl | rfl | rfl | rfl | rfl | rfl | rfl <;> rfl

/-- An unmasked element-wise instruction with a tile destination writes each element's result, and no other tile
element. -/
theorem veRun_tile {s : State} {q : Fin 4} {m : Nat} (h : VeReady s d q w []) (hm : eMasken w = false)
    (hlo : 0x10 ≤ opcodeOf w) (hhi : opcodeOf w ≤ 0x17) (hd : eD w = .tile m) (x : Nat) :
    ((s.veRun d q w []).ve d).tile x =
      if m ≤ x ∧ x < m + eN w then widen (eDst w) (s.elemResult d w (x - m)).1 % 2 ^ 32 else (s.ve d).tile x := by
  obtain ⟨e, -, -, hquiet, hrun⟩ := veRun_of_ready h
  have hcount : veCount w = eN w := by
    unfold veCount
    rw [if_neg (by omega), if_neg (by omega), if_neg (by omega)]
  have hcodes : destCodes w ((List.range (eN w)).map (fun k => some (s.elemResult d w k))) =
      ((List.range (eN w)).map (fun k => (s.elemResult d w k).1)).map some := by
    simp [destCodes, Function.comp_def]
  rw [hrun, tile_veBooked _ hquiet, hcount, veEffect_elem s _ hlo hhi, veElem_eq s _ hm hlo hhi, hd]
  have hwr : ∀ l : List (Option (Nat × Flags)), ((s.writeResults d w (.tile m) (eDst w) l).ve d) =
      (s.writeElems d (.tile m) (eDst w) 0 (destCodes w l)).ve d := fun l => by
    unfold State.writeResults State.coverDest State.ve
    split <;> rfl
  rw [hwr, hcodes, State.tile_writeElems, List.length_map, List.length_range, Nat.add_zero]
  split
  · next hx => rw [List.getD_eq_getElem _ _ (by simp; omega)]; simp
  · rfl

end

end Sys2Proof.Machine
end

section
/-! The arithmetic of tile elements, and the statement (O13). -/
namespace Sys2Proof.Machine

/-- What an unmasked instruction leaves of the tile elements: `r` in the n elements of the destination, the old ones
elsewhere. -/
def TileWritten (s t : State) (d : Fin 40) (m n : Nat) (r : Nat → Nat) : Prop :=
  (∀ k, k < n → (t.ve d).tile (m + k) = r k) ∧ ∀ x, x < m ∨ m + n ≤ x → (t.ve d).tile x = (s.ve d).tile x

/-! ### Results in their register words -/

theorem sat32_lt (z : Int) : sat32 z < 2 ^ 32 := unsignedN_lt 32 _

/-- An integer result is saturated, and its register word is its code. -/
theorem widen_roundTo_int (sat5 : Bool) (z : Int) : widen 3 (roundTo 3 sat5 .rne (.i z)).1 = sat32 z := by
  have hcode : (roundTo 3 sat5 .rne (.i z)).1 = unsignedN 32 (satInt 32 z).1 := rfl
  have hword : ∀ c, widen 3 c = unsignedN 32 (signedN 32 c) := fun _ => rfl
  rw [hword, unsignedN_signedN_32, hcode, Nat.mod_eq_of_lt (unsignedN_lt 32 _), satInt_32]
  rfl

/-- A 32-bit word read as an integer saturates to itself. -/
theorem sat32_signedN {n : Nat} (h : n < 2 ^ 32) : sat32 (signedN 32 n) = n := by
  obtain ⟨hlo, hhi⟩ := signedN_32_range n
  rw [sat32, min_eq_right hhi, max_eq_right hlo, unsignedN_signedN_32, Nat.mod_eq_of_lt h]

theorem VEng.tile_lt (v : VEng) (x : Nat) : v.tile x < 2 ^ 32 := BitVec.isLt _

/-! ### Operands -/

theorem firstCause_eq_none {l : List (Nat × Bool)} (h : firstCause l = none) : ∀ p ∈ l, p.2 = false := by
  induction l with
  | nil => simp
  | cons p l ih =>
    obtain ⟨c, b⟩ := p
    cases b with
    | true => cases h
    | false =>
      intro q hq
      obtain rfl | hq := List.mem_cons.mp hq
      · rfl
      · exact ih h q hq

/-- A fused product takes its third operand from where one can be (R133). -/
theorem eC_ne_none_of_fused {w : Cmd} (h : veCause w = none) (hop : opcodeOf w = 0x13 ∨ opcodeOf w = 0x14) :
    eC w ≠ .none := by
  intro hc
  have hcause : veCause w = eCause (opcodeOf w) w := by
    unfold veCause
    obtain hop | hop := hop <;> rw [hop] <;> rfl
  have hroles : rolesOf (opcodeOf w) w = (.val, .val, .val, .dest) := if_pos hop
  have hred : isRed (opcodeOf w) = false := by obtain hop | hop := hop <;> rw [hop] <;> rfl
  rw [hcause, eCause, hroles] at h
  have := firstCause_eq_none h _ (List.mem_cons_of_mem _ List.mem_cons_self)
  simp [hred, hc, roleOk] at this

section
variable {s : State} {d : Fin 40} {q : Fin 4} {w : Cmd} {i j l m : Nat}

theorem tileWritten_veRun (h : VeReady s d q w []) (hm : eMasken w = false) (hd : eD w = .tile m) {op : Nat}
    (hop : opcodeOf w = op) (hrange : 0x10 ≤ op ∧ op ≤ 0x17) {r : Nat → Nat}
    (hr : ∀ k, widen (eDst w) (s.elemResult d w k).1 = r k) (hlt : ∀ k, r k < 2 ^ 32) :
    TileWritten s (s.veRun d q w []) d m (eN w) r := by
  subst hop
  obtain ⟨hlo, hhi⟩ := hrange
  refine ⟨fun k hk => ?_, fun x hx => ?_⟩
  · rw [veRun_tile h hm hlo hhi hd, if_pos (by omega), Nat.add_sub_cancel_left, hr, Nat.mod_eq_of_lt (hlt k)]
  · rw [veRun_tile h hm hlo hhi hd, if_neg (by omega)]

/-- INT32: where `z` is the exact value of the operation, the results are `z` saturated. -/
theorem tileWritten_int (h : VeReady s d q w []) (hm : eMasken w = false) (ha : eA w = .tile i) (hb : eB w = .tile j)
    (hd : eD w = .tile m) (hsrc : eSrc w = 3) (hdst : eDst w = 3) {op : Nat} (hop : opcodeOf w = op)
    (hrange : 0x10 ≤ op ∧ op ≤ 0x17) {z : Nat → Int}
    (hz : ∀ k sel, (arith op (.i (tileInt s d (i + k))) (.i (tileInt s d (j + k))) (s.readElem d [] (eC w) 3 k) sel).1 =
      .i (z k)) :
    TileWritten s (s.veRun d q w []) d m (eN w) (fun k => sat32 (z k)) := by
  refine tileWritten_veRun h hm hd hop hrange (fun k => ?_) (fun k => sat32_lt _)
  have hread : ∀ n, s.readElem d [] (.tile n) 3 k = .i (tileInt s d (n + k)) := fun _ => rfl
  simp only [State.elemResult, hsrc, hdst, ha, hb, hop, hread, hz, widen_roundTo_int]

/-- FP32: where `r` is the exact value of the operation, the results are the words of `r` rounded once. -/
theorem tileWritten_fp32 (h : VeReady s d q w []) (hm : eMasken w = false) (hs : eSat5 w = false) (ha : eA w = .tile i)
    (hb : eB w = .tile j) (hd : eD w = .tile m) (hsrc : eSrc w = 0) (hdst : eDst w = 0) {op : Nat}
    (hop : opcodeOf w = op) (hrange : 0x10 ≤ op ∧ op ≤ 0x17) {r : Nat → FVal × Bool}
    (hr : ∀ k sel, (arith op (.f (f32 ((s.ve d).tile (i + k)))) (.f (f32 ((s.ve d).tile (j + k))))
      (s.readElem d [] (eC w) 0 k) sel).1 = .f (r k).1) :
    TileWritten s (s.veRun d q w []) d m (eN w) (fun k => widen 0 (f32Round (r k)).1) := by
  refine tileWritten_veRun h hm hd hop hrange (fun k => ?_) (fun k => fp32_rne_lt _)
  have hread : ∀ n, s.readElem d [] (.tile n) 0 k = .f (f32 ((s.ve d).tile (n + k))) := fun _ => rfl
  have hround : ∀ x : FVal, (roundTo 0 false .rne (.f x)).1 = (NFmt.fp32.round false .rne x).1 := fun _ => rfl
  simp only [State.elemResult, hsrc, hdst, hs, ha, hb, hop, hread, hr, hround, f32Round]

end

/-- Settles O13: every form is an element-wise instruction with a tile destination, by the exact value
that its opcode asks for. -/
theorem tileArithmeticIsExactOrRoundedOnce : Obligations.TileArithmeticIsExactOrRoundedOnce := by
  intro s d q w i j l m h hm hs ha hb hd
  have third : opcodeOf w = 0x13 ∨ opcodeOf w = 0x14 → eC w = .tile l ∨ eC w = .none → eC w = .tile l :=
    fun hop hc => hc.resolve_right (eC_ne_none_of_fused h.fine hop)
  refine ⟨fun hsrc hdst hc p hp hu => ?_, fun hsrc hdst hc p hp hu => ?_, fun v hsrc hdst hc hu => ?_⟩
  · have hop := opcodeOf_of_isUnit hu
    have done {op : Nat} (hop : opcodeOf w = op) := tileWritten_int h hm ha hb hd hsrc hdst hop
    have hread (hf : opcodeOf w = 0x13 ∨ opcodeOf w = 0x14) (k : Nat) :
        s.readElem d [] (eC w) 3 k = .i (tileInt s d (l + k)) := by rw [third hf hc]; rfl
    simp only [List.mem_cons, List.not_mem_nil, or_false] at hp
    rcases hp with rfl | rfl | rfl | rfl | rfl | rfl | rfl
    · exact ⟨_, rfl, done hop (by decide) fun _ _ => rfl⟩
    · exact ⟨_, rfl, done hop (by decide) fun _ _ => rfl⟩
    · exact ⟨_, rfl, done hop (by decide) fun _ _ => rfl⟩
    · exact ⟨_, rfl, done hop (by decide) fun k _ => by rw [hread (.inl hop)]; rfl⟩
    · exact ⟨_, rfl, done hop (by decide) fun k _ => by rw [hread (.inr hop)]; rfl⟩
    · exact ⟨_, rfl, done hop (by decide) fun _ _ => rfl⟩
    · exact ⟨_, rfl, done hop (by decide) fun _ _ => rfl⟩
  · have hop := opcodeOf_of_isUnit hu
    have done {op : Nat} (hop : opcodeOf w = op) := tileWritten_fp32 h hm hs ha hb hd hsrc hdst hop
    have hread (hf : opcodeOf w = 0x13 ∨ opcodeOf w = 0x14) (k : Nat) :
        s.readElem d [] (eC w) 0 k = .f (f32 ((s.ve d).tile (l + k))) := by rw [third hf hc]; rfl
    simp only [List.mem_cons, List.not_mem_nil, or_false] at hp
    rcases hp with rfl | rfl | rfl | rfl
    · exact ⟨_, rfl, done hop (by decide) fun _ _ => rfl⟩
    · exact ⟨_, rfl, done hop (by decide) fun _ _ => rfl⟩
    · exact ⟨_, rfl, done hop (by decide) fun _ _ => rfl⟩
    · exact ⟨_, rfl, done hop (by decide) fun k _ => by rw [hread (.inl hop)]; rfl⟩
  · have hop := opcodeOf_of_isUnit hu
    refine ⟨_, rfl, tileWritten_veRun h hm hd hop (by decide) (fun k => ?_) (fun k => ?_)⟩
    · have hread : ∀ n, s.readElem d [] (.tile n) 3 k = .i (signedN 32 ((s.ve d).tile (n + k))) := fun _ => rfl
      have hsel : ∀ x y c sel, (arith 0x17 (.i x) (.i y) c sel).1 = .i (if sel then x else y) := fun _ _ _ _ => rfl
      have hbit : maskBitOf (s.ve d) [] v k = ((s.ve d).masks.getD v 0).toNat.testBit k := rfl
      simp only [State.elemResult, hsrc, hdst, ha, hb, hc, hop, hread, hsel, hbit, widen_roundTo_int]
      split <;> exact sat32_signedN (VEng.tile_lt _ _)
    · split <;> exact VEng.tile_lt _ _

end Sys2Proof.Machine
end

section
/-! What the shared operations of an array change (O11). -/
namespace Sys2Proof.Machine

section
variable (s : State) (d : Fin 40) (a : Fin 4)

@[simp] theorem State.ma_setMa_self (m : MArray) : (s.setMa d a m).ma d a = m := by simp [State.ma, State.setMa]

@[simp] theorem State.byte_setMa (m : MArray) (b : Nat) : (s.setMa d a m).byte b = s.byte b := rfl

theorem State.setCd_cd (s : State) (d : Fin 40) : s.setCd d (s.cd d) = s := by
  simp [State.setCd, State.cd]

/-! ### Steps that change registers, compute dies and memory alone -/

/-- The second state differs from the first in registers, compute dies, memory and poison marks alone. -/
def DieOnly (s t : State) : Prop := t = { s with regs := t.regs, cds := t.cds, mem := t.mem, poison := t.poison }

theorem DieOnly.trans {s t u : State} (h : DieOnly s t) (k : DieOnly t u) : DieOnly s u := by
  unfold DieOnly at h k ⊢
  rw [k, h]

theorem DieOnly.regsOnly {s t u : State} (h : DieOnly s t) (k : RegsOnly t u) : DieOnly s u := by
  unfold RegsOnly at k
  unfold DieOnly at h ⊢
  rw [k, h]

theorem setMa_dieOnly (m : MArray) : DieOnly s (s.setMa d a m) := rfl

theorem setCd_dieOnly (c : CDie) : DieOnly s (s.setCd d c) := rfl

theorem storeWrite_dieOnly (x : Nat) (bs : List Byte) : DieOnly s (s.storeWrite x bs) := rfl

/-- Where memory and its marks are as before, registers and compute dies alone have changed. -/
theorem DieOnly.of_mem {s t : State} (h : DieOnly s t) (hm : t.mem = s.mem) (hp : t.poison = s.poison) :
    t = { s with regs := t.regs, cds := t.cds } := by
  unfold DieOnly at h
  rw [hm, hp] at h
  exact h

/-! ### Status and flags -/

theorem maSync_regsOnly : RegsOnly s (s.maSync d a) :=
  ((((RegsOnly.refl s).put _ _ _).put _ _ _).put _ _ _).put _ _ _

theorem rd_maSync {x : Nat} (h : x ∉ [R.MA_STATUS d a, R.MA_COLL d a]) : (s.maSync d a).rd x = s.rd x := by
  simp only [List.mem_cons, List.not_mem_nil, or_false, not_or] at h
  unfold State.maSync
  rw [State.rd_put_of_ne _ _ _ h.2, State.rd_put_of_ne _ _ _ h.1, State.rd_put_of_ne _ _ _ h.1,
    State.rd_put_of_ne _ _ _ h.1]

@[simp] theorem byte_maSync (b : Nat) : (s.maSync d a).byte b = s.byte b := rfl

theorem maStatus_ne_maColl : R.MA_STATUS d a ≠ R.MA_COLL d a := by
  unfold R.MA_STATUS R.MA_COLL
  omega

theorem flag_ovf_maSync : (s.maSync d a).flag (R.MA_STATUS d a) F.MA_STATUS_OVF =
    s.flag (R.MA_STATUS d a) F.MA_STATUS_OVF := by
  unfold State.flag State.maSync
  rw [State.get_put_of_ne _ _ _ _ (maStatus_ne_maColl d a), State.get_put_of_disjoint _ _ _ _ _ (by decide) (by decide) (by decide),
    State.get_put_of_disjoint _ _ _ _ _ (by decide) (by decide) (by decide),
    State.get_put_of_disjoint _ _ _ _ _ (by decide) (by decide) (by decide)]

theorem State.setIf_regsOnly (c : Bool) (x : Nat) (f : Fld) : RegsOnly s (s.setIf c x f) := by
  cases c <;> rfl

theorem State.rd_setIf_of_ne (c : Bool) {x y : Nat} (f : Fld) (h : y ≠ x) : (s.setIf c x f).rd y = s.rd y := by
  cases c
  · rfl
  · exact State.rd_put_of_ne _ _ _ h

theorem maFlags_regsOnly (f : Flags) : RegsOnly s (s.maFlags d a f) :=
  ((State.setIf_regsOnly _ _ _ _).trans (State.setIf_regsOnly _ _ _ _)).trans (State.setIf_regsOnly _ _ _ _)

theorem rd_maFlags (f : Flags) {x : Nat} (h : x ≠ R.MA_STATUS d a) : (s.maFlags d a f).rd x = s.rd x := by
  unfold State.maFlags
  rw [State.rd_setIf_of_ne _ _ _ h, State.rd_setIf_of_ne _ _ _ h, State.rd_setIf_of_ne _ _ _ h]

/-- An overflow sets OVF (R120). -/
theorem flag_ovf_maFlags {f : Flags} (h : f.ovf = true) :
    (s.maFlags d a f).flag (R.MA_STATUS d a) F.MA_STATUS_OVF = true := by
  have hset : ∀ u : State, (u.setIf f.ovf (R.MA_STATUS d a) F.MA_STATUS_OVF).get (R.MA_STATUS d a) F.MA_STATUS_OVF = 1 :=
    fun u => by rw [h, State.setIf, if_pos rfl, State.get_put_self _ _ _ _ (by decide) (by decide)]; rfl
  unfold State.maFlags State.flag
  cases f.unf with
  | false => exact beq_iff_eq.mpr (hset _)
  | true =>
    rw [State.setIf, if_pos rfl, State.get_put_of_disjoint _ _ _ _ _ (by decide) (by decide) (by decide)]
    exact beq_iff_eq.mpr (hset _)

/-! ### Completions -/

/-- A command that is no repeat completes by adding the increment it signals. -/
theorem State.completeAt_eq {e : UCmd} (he : e.quiet = false) (at_ : Nat) :
    s.completeAt d e at_ = s.setCd d { s.cd d with due := (s.cd d).due ++ sigDue e.q e.w at_ } := by
  unfold State.completeAt sigDue
  by_cases hs : sigOf e.w = 0
  · rw [if_pos (.inl hs), if_pos hs, List.append_nil]
    exact (State.setCd_cd s d).symm
  · rw [if_neg (by simp [hs, he]), if_neg hs]

theorem draining_afterRetry (m : MArray) (p : Pass) : (s.afterRetry d m p).draining = m.draining := by
  unfold State.afterRetry
  split <;> rfl

end

/-! ### Passes and batches -/

section
variable {s : State} {d : Fin 40} {a : Fin 4} {p : Pass}

/-- The first of the passes fed whole taken from the array. -/
def State.leaves (s : State) (d : Fin 40) (a : Fin 4) (p : Pass) : State :=
  s.setMa d a (s.afterRetry d { s.ma d a with draining := (s.ma d a).draining.tail } p)

theorem draining_leaves : ((s.leaves d a p).ma d a).draining = (s.ma d a).draining.tail :=
  (congrArg MArray.draining (State.ma_setMa_self s d a _)).trans (draining_afterRetry s d _ p)

theorem due_leaves : ((s.leaves d a p).cd d).due = (s.cd d).due := by
  rw [State.leaves, State.setMa, State.cd_setCd_self]

theorem exec_maPassComplete (hd : s.dieOff d = false) (hp : (s.ma d a).finished s.aclk false = some p) :
    exec (.maPassComplete d a) s = .next (((s.leaves d a p).completeAt d p.e (s.aclk + 1)).maSync d a) := by
  change execMaPassComplete d a s = _
  unfold execMaPassComplete
  rw [if_neg (by simp [hd]), hp]
  rfl

theorem passComplete_gives (hd : s.dieOff d = false) (hp : (s.ma d a).finished s.aclk false = some p)
    (hq : p.e.quiet = false) :
    Yields (exec (.maPassComplete d a) s) (fun t => (t.ma d a).draining = (s.ma d a).draining.tail ∧
      (t.cd d).due = (s.cd d).due ++ sigDue p.e.q p.e.w (s.aclk + 1) ∧
      OnlyRegs [R.MA_STATUS d a, R.MA_COLL d a] s t ∧ t = { s with regs := t.regs, cds := t.cds }) := by
  refine ⟨_, exec_maPassComplete hd hp, ?_⟩
  rw [State.completeAt_eq _ _ hq]
  have hcd (u : State) : (u.maSync d a).cd d = u.cd d := rfl
  refine ⟨?_, ?_, fun x hx => rd_maSync _ d a hx, DieOnly.of_mem (((setMa_dieOnly s d a _).trans (setCd_dieOnly _ d _)).regsOnly (maSync_regsOnly _ d a)) rfl rfl⟩
  · rw [State.ma, hcd, State.cd_setCd_self]
    exact draining_leaves
  · rw [hcd, State.cd_setCd_self, due_leaves]

/-- The side table of a batch (R105). -/
def sideTable (p : Pass) : List Byte := (List.range 128).flatMap (fun i => leBytes 4 (sideEntry p.rows[i]?))

theorem sideTable_eq_flatten :
    sideTable p = ((List.range 128).map (fun i => leBytes 4 (sideEntry p.rows[i]?))).flatten := rfl

theorem length_sideTable : (sideTable p).length = 512 := by
  rw [sideTable_eq_flatten, List.length_flatten, List.map_map]
  simp [Function.comp_def, leBytes_length]

/-- A batch taken from the array, with its side table written. -/
def State.leavesTable (s : State) (d : Fin 40) (a : Fin 4) (p : Pass) : State :=
  (s.leaves d a p).storeWrite (lsBase d + p.table) (sideTable p)

theorem cd_leavesTable : (s.leavesTable d a p).cd d = (s.leaves d a p).cd d := State.cd_storeWrite _ _ _ _

theorem rd_leavesTable (x : Nat) : (s.leavesTable d a p).rd x = s.rd x := State.rd_storeWrite _ _ _ _

theorem exec_maBatchComplete (hd : s.dieOff d = false) (hp : (s.ma d a).finished s.aclk true = some p) :
    exec (.maBatchComplete d a) s = .next (((s.leavesTable d a p).setCd d { (s.leavesTable d a p).cd d with
      due := ((s.leavesTable d a p).cd d).due ++ [(s.aclk + 1, p.batch.getD 0, 1)] }).maSync d a) := by
  change execMaBatchComplete d a s = _
  unfold execMaBatchComplete State.leavesTable State.leaves sideTable
  rw [if_neg (by simp [hd]), hp]

theorem sideEntry_lt (r : Option ReqRow) : sideEntry r < 256 ^ 4 := by
  unfold sideEntry
  cases r with
  | none => decide
  | some r => norm_num; omega

theorem batchComplete_gives (hd : s.dieOff d = false) (hp : (s.ma d a).finished s.aclk true = some p) {c : Nat}
    (hc : p.batch = some c) :
    Yields (exec (.maBatchComplete d a) s) (fun t => (t.ma d a).draining = (s.ma d a).draining.tail ∧
      (∀ i, i < 128 → t.num (lsBase d + p.table + 4 * i) 4 = sideEntry p.rows[i]?) ∧
      MemOutside (lsBase d + p.table) 512 s t ∧ (t.cd d).due = (s.cd d).due ++ [(s.aclk + 1, c, 1)] ∧
      OnlyRegs [R.MA_STATUS d a, R.MA_COLL d a] s t ∧
      t = { s with regs := t.regs, cds := t.cds, mem := t.mem, poison := t.poison }) := by
  refine ⟨_, exec_maBatchComplete hd hp, ?_⟩
  have hcd (v : State) : (v.maSync d a).cd d = v.cd d := rfl
  have hlen : ∀ l ∈ (List.range 128).map (fun i => leBytes 4 (sideEntry p.rows[i]?)), l.length = 4 := by
    intro l hl
    obtain ⟨i, -, rfl⟩ := List.mem_map.mp hl
    exact leBytes_length _ _
  refine ⟨?_, fun i hi => ?_, fun b hb => ?_, ?_, fun x hx => ((rd_maSync _ d a hx).trans (State.rd_setCd _ d _ x)).trans (rd_leavesTable x),
    (((setMa_dieOnly s d a _).trans (storeWrite_dieOnly _ _ _)).trans (setCd_dieOnly _ d _)).regsOnly
      (maSync_regsOnly _ d a)⟩
  · rw [State.ma, hcd, State.cd_setCd_self, cd_leavesTable]
    exact draining_leaves
  · have h := storedAt_storeWrite (s.leaves d a p) (lsBase d + p.table) (sideTable p)
    rw [sideTable_eq_flatten] at h
    replace h := h.flatten hlen (i := i) (by simpa using hi)
    rw [List.getElem_map, List.getElem_range] at h
    rw [State.num_congr fun k _ => (byte_maSync _ d a _).trans (State.byte_setCd _ d _ _)]
    exact h.num.trans (Nat.mod_eq_of_lt (sideEntry_lt _))
  · rw [byte_maSync, State.byte_setCd, State.leavesTable, State.byte_storeWrite, if_neg (by rw [length_sideTable]; omega)]
    rfl
  · rw [hcd, State.cd_setCd_self, cd_leavesTable, due_leaves, hc]
    rfl

/-- The pass that an issued batch becomes (R105). -/
def State.batchPass (s : State) (d : Fin 40) (a : Fin 4) (cfg : Cmd) : Pass :=
  let m := s.ma d a
  let buf := s.get (R.MA_COLL d a) F.MA_COLL_BUF
  { no := m.passes, hoist := m.hoists, e := m.coll.cfgq, slots := m.coll.rows.length, fmt := cbits cfg 18 16,
    scaled := cbit cfg 19, aaddr := 0, stride := 0, saddr := 0, daddr := cbits cfg 59 40 * 64 + buf * 65536,
    gas := false, acc := false, zeroMasked := false, maskAt := none, lines := [], pos := 0, rows := m.coll.rows,
    batch := some (cbits cfg 87 80), table := cbits cfg 79 60 * 64 + buf * 512, hcmd := m.lastHoist.getD 0,
    own := none, endAt := 0 }

/-- An issued batch leaves the collector empty and stands in the feeding place or behind the held pass (R105). -/
theorem issueBatch_eq {cfg : Cmd} (hcfg : (s.ma d a).coll.cfg = some cfg) (hrows : (s.ma d a).coll.rows ≠ []) :
    ∃ m : MArray, s.issueBatch d a = ((((s.setMa d a m).put (R.MA_COLL d a) F.MA_COLL_BUF
        (1 - s.get (R.MA_COLL d a) F.MA_COLL_BUF)).bumpWrap (R.MA_COLL d a) F.MA_COLL_BATCHES 1).put
          (R.MA_COLL_TIMER d a) F.MA_COLL_TIMER_WAITED 0).maSync d a ∧
      m.coll.rows = [] ∧ s.batchPass d a cfg ∈ m.feeding.toList ++ m.issued := by
  obtain ⟨r, rs, hl⟩ := List.exists_cons_of_ne_nil hrows
  unfold State.issueBatch
  simp only [hl, hcfg]
  cases hf : (s.ma d a).feeding with
  | none => exact ⟨_, rfl, rfl, by simp [State.batchPass, hl]⟩
  | some f => exact ⟨_, rfl, rfl, by simp [State.batchPass, hl]⟩

theorem issueBatch_gives {cfg : Cmd} (hcfg : (s.ma d a).coll.cfg = some cfg) (hrows : (s.ma d a).coll.rows ≠ []) :
    let t := s.issueBatch d a
    (t.ma d a).coll.rows = [] ∧
      (∃ p ∈ (t.ma d a).feeding.toList ++ (t.ma d a).issued, p.rows = (s.ma d a).coll.rows ∧
        p.batch = some (cbits cfg 87 80)) ∧
      OnlyRegs [R.MA_STATUS d a, R.MA_COLL d a, R.MA_COLL_TIMER d a] s t ∧
      t = { s with regs := t.regs, cds := t.cds } := by
  intro t
  obtain ⟨m, hissue, hm, hp⟩ : ∃ m, t = _ ∧ _ := issueBatch_eq hcfg hrows
  have hma : t.ma d a = m := by rw [hissue]; exact State.ma_setMa_self s d a m
  refine ⟨by rw [hma, hm], ⟨_, by rw [hma]; exact hp, rfl, rfl⟩, fun x hx => ?_,
    by rw [hissue]; exact DieOnly.of_mem ((setMa_dieOnly s d a m).regsOnly
      (((((RegsOnly.refl _).put _ _ _).put _ _ _).put _ _ _).trans (maSync_regsOnly _ d a))) rfl rfl⟩
  simp only [List.mem_cons, List.not_mem_nil, or_false, not_or] at hx
  obtain ⟨hst, hco, htm⟩ := hx
  rw [hissue, rd_maSync _ d a (by simp [hst, hco]), State.rd_put_of_ne _ _ _ htm, State.bumpWrap,
    State.rd_put_of_ne _ _ _ hco, State.rd_put_of_ne _ _ _ hco]
  rfl

theorem exec_maCollectorTimeout {cfg : Cmd} (hd : s.dieOff d = false) (hcfg : (s.ma d a).coll.cfg = some cfg)
    (hrows : (s.ma d a).coll.rows ≠ []) (hdue : (s.ma d a).coll.opened + cbits cfg 39 20 ≤ s.aclk) :
    exec (.maCollectorTimeout d a) s = .next (s.issueBatch d a) := by
  change execMaCollectorTimeout d a s = _
  unfold execMaCollectorTimeout
  simp only [hd, hcfg, Bool.false_eq_true, if_false]
  rw [if_pos (by simp [hrows, hdue])]

/-- The performance counters of an array. -/
def maPerfRegs (d : Fin 40) (a : Fin 4) : List Nat :=
  [R.MA_PERF_ACTIVE_LO d a, R.MA_PERF_ACTIVE_HI d a, R.MA_PERF_MAC_LO d a, R.MA_PERF_MAC_HI d a,
    R.MA_PERF_ILOCK d a, R.MA_PERF_HWAIT d a, R.MA_PERF_BUBBLE d a, R.MA_PERF_MASKED d a, R.MA_PERF_HUNUSED d a]

theorem maPerfClear_gives (hd : s.dieOff d = false) :
    Yields (exec (.maPerfClear d a) s) (fun t => (∀ r ∈ maPerfRegs d a, t.rd r = 0) ∧ OnlyRegs (maPerfRegs d a) s t ∧
      t = { s with regs := t.regs, cds := t.cds }) := by
  refine ⟨(s.setMa d a { s.ma d a with clrAt := s.aclk + 1 }).zeroRegs (maPerfRegs d a), ?_, fun r hr => ?_,
    fun r hr => ?_, ?_⟩
  · change execMaPerfClear d a s = _
    unfold execMaPerfClear
    rw [if_neg (by simp [hd])]
    rfl
  · rw [State.rd_zeroRegs, if_pos hr]
  · rw [State.rd_zeroRegs, if_neg hr]
    rfl
  · rw [State.zeroRegs_eq]
    rfl

end

end Sys2Proof.Machine
end

section
/-! Words written one after the other (R179). -/
namespace Sys2Proof.Machine

/-- Words written at their columns, one after the other. -/
def State.putWords (s : State) (base : Nat) (l : List (Nat × Nat)) : State :=
  l.foldl (fun t o => t.putNum (base + 4 * o.1) 4 o.2) s

section
variable (s : State) (base : Nat)

theorem State.putWords_concat (l : List (Nat × Nat)) (o : Nat × Nat) :
    s.putWords base (l ++ [o]) = (s.putWords base l).putNum (base + 4 * o.1) 4 o.2 := by
  unfold State.putWords
  rw [List.foldl_append]
  rfl

theorem State.putWords_eq (l : List (Nat × Nat)) : s.putWords base l = { s with mem := (s.putWords base l).mem } := by
  induction l using List.reverseRecOn with
  | nil => rfl
  | append_singleton l o ih =>
    rw [State.putWords_concat, ih]
    rfl

theorem State.byte_putWords_of_outside {l : List (Nat × Nat)} {b : Nat}
    (h : ∀ o ∈ l, b < base + 4 * o.1 ∨ base + 4 * o.1 + 4 ≤ b) : (s.putWords base l).byte b = s.byte b := by
  induction l using List.reverseRecOn with
  | nil => rfl
  | append_singleton l o ih =>
    rw [State.putWords_concat, State.putNum, State.byte_putBytes_of_outside, ih fun x hx => h x (List.mem_append_left _ hx)]
    rw [leBytes_length]
    exact h o (List.mem_append_right _ List.mem_cons_self)

/-- A column to which one value alone is written holds it. -/
theorem State.num_putWords {l : List (Nat × Nat)} {o : Nat × Nat} (ho : o ∈ l) (h : ∀ p ∈ l, p.1 = o.1 → p.2 = o.2) :
    (s.putWords base l).num (base + 4 * o.1) 4 = o.2 % 256 ^ 4 := by
  induction l using List.reverseRecOn with
  | nil => cases ho
  | append_singleton l p ih =>
    rw [State.putWords_concat]
    by_cases hp : p.1 = o.1
    · rw [hp, h p (List.mem_append_right _ List.mem_cons_self) hp, State.num_putNum_self]
    · have hl : o ∈ l := by
        obtain hl | hl := List.mem_append.mp ho
        · exact hl
        · exact absurd (congrArg Prod.fst (List.mem_singleton.mp hl)).symm hp
      rw [State.num_putNum_of_apart _ _ (by omega), ih hl fun x hx => h x (List.mem_append_left _ hx)]

end

end Sys2Proof.Machine
end

section
/-! An output of an array computed, and its line written (O11). -/
namespace Sys2Proof.Machine

/-! ### The rows of an array -/

theorem FedRow.same_iff {x r : FedRow} : x.same r = true ↔ x.pass = r.pass ∧ x.slot = r.slot := by
  simp [FedRow.same]

theorem FedRow.same_congr {x y r : FedRow} (h : x.same y = true) : x.same r = y.same r := by
  obtain ⟨hp, hs⟩ := FedRow.same_iff.mp h
  simp [FedRow.same, hp, hs]

/-- A row replaced by one of its own slot leaves what stands before it. -/
theorem takeWhile_setRow {m : MArray} {x r : FedRow} (h : x.same r = true) :
    (m.setRow x).rows.takeWhile (fun y => !y.same r) = m.rows.takeWhile (fun y => !y.same r) := by
  unfold MArray.setRow
  dsimp only
  induction m.rows with
  | nil => rfl
  | cons y l ih =>
    have hyr : y.same x = true → y.same r = true := fun hy => (FedRow.same_congr hy).trans h
    rw [List.map_cons]
    by_cases hy : y.same x = true
    · rw [if_pos hy, List.takeWhile_cons_of_neg (by simp [h]), List.takeWhile_cons_of_neg (by simp [hyr hy])]
    · rw [if_neg hy]
      by_cases hr : y.same r = true
      · rw [List.takeWhile_cons_of_neg (by simp [hr]), List.takeWhile_cons_of_neg (by simp [hr])]
      · rw [List.takeWhile_cons_of_pos (by simp [hr]), List.takeWhile_cons_of_pos (by simp [hr]), ih]

/-- A change of rows that keeps their slots keeps which row is found. -/
theorem find?_same_map {g : FedRow → FedRow} {r : FedRow} (hg : ∀ y, (g y).same r = y.same r) (l : List FedRow) :
    (l.map g).find? (fun y => y.same r) = (l.find? (fun y => y.same r)).map g := by
  rw [List.find?_map]
  congr 2
  exact funext hg

theorem FedRow.same_congr_right {x y r : FedRow} (h : x.same y = true) : r.same x = r.same y := by
  obtain ⟨hp, hs⟩ := FedRow.same_iff.mp h
  simp [FedRow.same, hp, hs]

theorem find?_setRow {m : MArray} {x r y : FedRow} (h : x.same r = true)
    (hf : m.rows.find? (fun z => z.same r) = some y) : (m.setRow x).rows.find? (fun z => z.same x) = some x := by
  have hxx : x.same x = true := FedRow.same_iff.mpr ⟨rfl, rfl⟩
  have hyr : y.same r = true := List.find?_some (p := fun z : FedRow => z.same r) hf
  have hx : (fun z : FedRow => z.same x) = fun z => z.same r := funext fun z => FedRow.same_congr_right h
  have hg (z : FedRow) : (if z.same x then x else z).same x = z.same x := by
    split
    · next hz => rw [hxx, hz]
    · rfl
  unfold MArray.setRow
  dsimp only
  rw [find?_same_map hg, hx, hf, Option.map_some, FedRow.same_congr_right h, if_pos hyr]

/-- The row of an output computed: the column is done, the output waits for its line. -/
def FedRow.withOut (r : FedRow) (j x : Nat) : FedRow :=
  { r with todo := r.todo &&& ~~~ (BitVec.ofNat 128 (2 ^ j)), outs := r.outs ++ [(j, x)] }

theorem find?_computed {m : MArray} {r : FedRow} (j x : Nat) (h : m.rows.find? (fun y => y.same r) = some r) :
    (m.computed r j x).rows.find? (fun y => y.same r) = some (r.withOut j x) := by
  have hrr : r.same r = true := FedRow.same_iff.mpr ⟨rfl, rfl⟩
  unfold MArray.computed
  dsimp only
  rw [find?_same_map, h, Option.map_some, if_pos hrr]
  · rfl
  · intro y
    split
    · next hy => rw [hy]; exact hrr
    · rfl

/-! ### The destination element (R84, R85) -/

section
variable {s : State} {d : Fin 40} {a : Fin 4} {r : FedRow} {j : Nat}

theorem readDest_eq (m : MArray) (r : FedRow) (line : Nat) : ∃ h, s.readDest m r line = { r with held := h } := by
  unfold State.readDest
  split
  · exact ⟨r.held, rfl⟩
  · exact ⟨_, rfl⟩

/-- Reading the destination line leaves what the output path meets at a column of it. -/
theorem destOf_readDest (m n : MArray) (t : State) (hmem : ∀ b, t.byte b = s.byte b)
    (hahead : n.rows.takeWhile (fun y => !y.same r) = m.rows.takeWhile (fun y => !y.same r)) :
    t.destOf n (s.readDest m r (j / 16)) j = s.destOf m r j := by
  have hnum : ∀ x, t.num x 4 = s.num x 4 := fun x => State.num_congr fun i _ => hmem _
  have hbase : ∀ h : List (Nat × Nat), (n.ahead { r with held := h } (r.dest + 4 * j)).getD (t.num (r.dest + 4 * j) 4) =
      (m.ahead r (r.dest + 4 * j)).getD (s.num (r.dest + 4 * j) 4) := fun h => by
    have he : n.ahead { r with held := h } (r.dest + 4 * j) = m.ahead r (r.dest + 4 * j) := by
      unfold MArray.ahead
      rw [← hahead]
      rfl
    rw [he, hnum]
  unfold State.readDest
  by_cases hany : (r.held.any fun h => h.1 / 16 == j / 16) = true
  · rw [if_pos hany]
    unfold State.destOf
    cases r.held.find? (fun h => h.1 == j) with
    | some h => rfl
    | none => exact hbase r.held
  · have hnone : r.held.find? (fun h => h.1 == j) = none := by
      rw [List.find?_eq_none]
      intro h hh hj
      exact hany (List.any_eq_true.mpr ⟨h, hh, by rw [beq_iff_eq.mp hj]; exact beq_self_eq_true _⟩)
    have hold : s.destOf m r j = (m.ahead r (r.dest + 4 * j)).getD (s.num (r.dest + 4 * j) 4) := by
      rw [State.destOf, hnone]
    rw [if_neg hany, State.destOf]
    dsimp only
    rw [List.find?_append, hnone, Option.none_or, List.find?_map]
    cases hf : (lineCols r.set.cols (j / 16)).find? ((fun h : Nat × Nat => h.1 == j) ∘ fun c => (c, s.destOf m r c)) with
    | none => exact (hbase _).trans hold.symm
    | some c =>
      have hc : c = j := beq_iff_eq.mp (List.find?_some (p := (fun h : Nat × Nat => h.1 == j) ∘ fun c => (c, s.destOf m r c)) hf)
      rw [hc]
      rfl

/-! ### The output computed -/

/-- An output path that is due: what `output` meets, in the state and the row the destination line has been read into. -/
structure OutputDue (s u : State) (d : Fin 40) (a : Fin 4) (r y : FedRow) (j : Nat) : Prop where
  frame : u = { s with cds := u.cds }
  row : y = { r with held := y.held }
  first : (u.ma d a).rows.find? (fun z => z.same y) = some y
  bad : (u.ma d a).bad = (s.ma d a).bad
  dest : u.destOf (u.ma d a) y j = s.destOf (s.ma d a) r j

theorem exec_maOutputWrite {j : Fin 128} (hd : s.dieOff d = false) (hnext : (s.ma d a).nextRow j = some r)
    (hfirst : (s.ma d a).rows.find? (fun y => y.same r) = some r) (hdue : r.fed + 128 + j.val ≤ s.aclk)
    (hread : r.fed + 126 + r.firstOf j ≤ s.aclk) (hearly : (s.ma d a).earlierWrite r j = false)
    (hmask : r.masked = false) (hclean : r.acc = true → s.poisoned (r.dest + 64 * (j.val / 16)) 64 = false) :
    ∃ u y, OutputDue s u d a r y j ∧ exec (.maOutputWrite d a j .none) s = .next (u.output d a y j .none) := by
  change ∃ u y, _ ∧ execMaOutputWrite d a j .none s = _
  unfold execMaOutputWrite
  simp only [hnext, hd, Bool.false_or, decide_eq_true_eq, hmask, Bool.not_false, Bool.and_true, if_neg (Nat.not_lt.mpr hread)]
  by_cases hacc : r.acc = true
  · have hcl : s.poisoned (r.dest + 64 * (j.val / 16)) 64 = false := hclean hacc
    obtain ⟨h, hy⟩ := readDest_eq (s := s) (s.ma d a) r (j.val / 16)
    have hsame : (s.readDest (s.ma d a) r (j.val / 16)).same r = true := by rw [hy]; exact FedRow.same_iff.mpr ⟨rfl, rfl⟩
    refine ⟨s.setMa d a ((s.ma d a).setRow (s.readDest (s.ma d a) r (j.val / 16))), s.readDest (s.ma d a) r (j.val / 16),
      ⟨rfl, by rw [hy], ?_, ?_, ?_⟩, ?_⟩
    · rw [State.ma_setMa_self]
      exact find?_setRow hsame hfirst
    · rw [State.ma_setMa_self]
      rfl
    · rw [State.ma_setMa_self]
      exact destOf_readDest _ _ _ (fun b => State.byte_setCd _ _ _ b) (takeWhile_setRow hsame)
    · have hlate : ¬ (s.aclk < (s.readDest (s.ma d a) r (j.val / 16)).fed + 128 + j.val ∨
          (s.ma d a).earlierWrite (s.readDest (s.ma d a) r (j.val / 16)) j.val = true) := by
        rw [hy]
        rintro (hlt | he)
        · exact Nat.not_lt.mpr hdue hlt
        · exact Bool.false_ne_true (hearly.symm.trans he)
      simp only [hacc, hcl, Bool.and_false, Bool.false_eq_true, if_false, if_true]
      rw [if_neg hlate]
  · refine ⟨s, r, ⟨rfl, rfl, hfirst, rfl, rfl⟩, ?_⟩
    simp [hacc, hearly, Nat.not_lt.mpr hdue]

end

end Sys2Proof.Machine
end

section
/-! The whole output step, and the statement (O11). -/
namespace Sys2Proof.Machine

/-! ### The value (R69, R84) -/

theorem satInt_32_over {z : Int} (h : z < -2 ^ 31 ∨ 2 ^ 31 ≤ z) : (satInt 32 z).2 = true := by
  unfold satInt
  norm_num at h ⊢
  split
  · rfl
  · rw [if_pos (by omega)]

theorem foldl_add_eq_sum (f : Nat → Int) (l : List Nat) (c : Int) :
    l.foldl (fun c k => c + f k) c = c + (l.map f).sum := by
  induction l generalizing c with
  | nil => simp
  | cons k l ih => rw [List.foldl_cons, ih, List.map_cons, List.sum_cons, add_assoc]

/-- An INT8 output is the destination element plus the exact sum, saturated (R69, R84). -/
theorem outputWord_int8 {r : FedRow} (hmask : r.masked = false) (hfmt : r.fmt = 3) (hdiag : r.set.diag = false)
    (hset : r.set.fmt = 3) (j dst : Nat) {v : Int}
    (hv : v = (if r.acc then signedN 32 dst else 0) + ((List.range r.set.depth).map (fun k =>
      signedN 8 (r.data.getD k 0).toNat * signedN 8 (r.set.data.getD (128 * k + j) 0).toNat)).sum) :
    outputWord r j dst = (unsignedN 32 (satInt 32 v).1, { ovf := (satInt 32 v).2 }) := by
  have hind : termIndices r.set j = List.range r.set.depth := by
    unfold termIndices
    simp [hset, hdiag]
  have hsum : columnSumInt r j = ((List.range r.set.depth).map (fun k =>
      signedN 8 (r.data.getD k 0).toNat * signedN 8 (r.set.data.getD (128 * k + j) 0).toNat)).sum := by
    rw [columnSumInt, hind, foldl_add_eq_sum, zero_add]
    rfl
  rw [outputWord, if_neg (by simp [hmask]), if_pos hfmt, hsum, ← hv]

/-! ### The line (R179) -/

section
variable {s v : State} {d : Fin 40} {a : Fin 4} {r : FedRow} {j : Nat}

theorem writeLine_of_waiting (h : r.lineDone j = false) : v.writeLine d a r j = v := by
  unfold State.writeLine
  rw [if_neg (by simp [h])]

/-- The outputs of the line of a column. -/
def FedRow.lineOuts (r : FedRow) (j : Nat) : List (Nat × Nat) := r.outs.filter (fun o => o.1 / 16 == j / 16)

theorem writeLine_of_done (h : r.lineDone j = true) : ∃ (w : State) (m : MArray), v.writeLine d a r j = w.setMa d a m ∧
    (∀ b, w.byte b = (v.putWords r.dest (r.lineOuts j)).byte b) ∧ w = { v with mem := w.mem, poison := w.poison } := by
  have hmine : r.outs.partition (fun o => o.1 / 16 == j / 16) =
      (r.lineOuts j, r.outs.filter (fun o => !(o.1 / 16 == j / 16))) := by
    rw [List.partition_eq_filter_filter]
    rfl
  unfold State.writeLine
  rw [if_pos h, hmine]
  have hp : v.putWords r.dest (r.lineOuts j) = { v with mem := (v.putWords r.dest (r.lineOuts j)).mem } :=
    State.putWords_eq _ _ _
  change ∃ (w : State) (m : MArray),
    (let p := v.putWords r.dest (r.lineOuts j)
     let t := if (r.lineOuts j).length = 16 then p.coverLines (r.dest + 64 * (j / 16)) 64 else p
     let m := (t.ma d a).setRow { r with outs := r.outs.filter (fun o => !(o.1 / 16 == j / 16)) }
     t.setMa d a { m with rows := m.rows.filter (fun x => x.todo != 0 || !x.outs.isEmpty) }) = w.setMa d a m ∧ _ ∧ _
  generalize v.putWords r.dest (r.lineOuts j) = p at hp ⊢
  refine ⟨_, _, rfl, fun b => ?_, ?_⟩
  · split <;> rfl
  · rw [hp]
    split <;> rfl

theorem writeLine_dieOnly : DieOnly v (v.writeLine d a r j) := by
  by_cases h : r.lineDone j = true
  · obtain ⟨w, m, hw, -, hf⟩ := writeLine_of_done (v := v) (d := d) (a := a) h
    rw [hw, hf]
    rfl
  · rw [writeLine_of_waiting (by simpa using h)]
    rfl

theorem rd_writeLine (x : Nat) : (v.writeLine d a r j).rd x = v.rd x := by
  by_cases h : r.lineDone j = true
  · obtain ⟨w, m, hw, -, hf⟩ := writeLine_of_done (v := v) (d := d) (a := a) h
    rw [hw, State.setMa, State.rd_setCd, hf]
    rfl
  · rw [writeLine_of_waiting (by simpa using h)]

theorem byte_writeLine_of_outside {b : Nat} (h : b < r.dest + 64 * (j / 16) ∨ r.dest + 64 * (j / 16) + 64 ≤ b) :
    (v.writeLine d a r j).byte b = v.byte b := by
  by_cases hd : r.lineDone j = true
  · obtain ⟨w, m, hw, hb, -⟩ := writeLine_of_done (v := v) (d := d) (a := a) hd
    rw [hw, State.byte_setMa, hb, State.byte_putWords_of_outside]
    intro o ho
    have hline : o.1 / 16 = j / 16 := beq_iff_eq.mp (List.mem_filter.mp ho).2
    omega
  · rw [writeLine_of_waiting (by simpa using hd)]

/-- A column of a line written to which one value alone belongs holds it. -/
theorem num_writeLine (h : r.lineDone j = true) {o : Nat × Nat} (ho : o ∈ r.lineOuts j)
    (hone : ∀ p ∈ r.lineOuts j, p.1 = o.1 → p.2 = o.2) :
    (v.writeLine d a r j).num (r.dest + 4 * o.1) 4 = o.2 % 256 ^ 4 := by
  obtain ⟨w, m, hw, hb, -⟩ := writeLine_of_done (v := v) (d := d) (a := a) h
  rw [hw, ← State.num_putWords v r.dest ho hone]
  exact State.num_congr fun i _ => (State.byte_setMa _ _ _ _ _).trans (hb _)

/-- The column computed last holds its output. -/
theorem num_writeLine_withOut {x : Nat} (h : (r.withOut j x).lineDone j = true) (hx : x < 256 ^ 4) :
    (v.writeLine d a (r.withOut j x) j).num (r.dest + 4 * j) 4 = x := by
  obtain ⟨w, m, hw, hb, -⟩ := writeLine_of_done (v := v) (d := d) (a := a) h
  have hlast : (r.withOut j x).lineOuts j = r.lineOuts j ++ [(j, x)] := by
    simp [FedRow.lineOuts, FedRow.withOut, List.filter_append]
  rw [hw, State.num_congr (s := v.putWords r.dest ((r.withOut j x).lineOuts j))
    fun i _ => (State.byte_setMa _ _ _ _ _).trans (hb _), hlast, State.putWords_concat, State.num_putNum_self]
  exact Nat.mod_eq_of_lt hx

theorem testBit_todo_withOut {x c : Nat} (hc : c < 128) :
    (r.withOut j x).todo.toNat.testBit c = (r.todo.toNat.testBit c && !(c == j)) := by
  have h : (r.withOut j x).todo.getLsbD c = (r.todo.getLsbD c && !(c == j)) := by
    simp only [FedRow.withOut, BitVec.getLsbD_and, BitVec.getLsbD_not, BitVec.getLsbD_ofNat, hc, decide_true,
      Bool.true_and, Nat.testBit_two_pow]
    congr 2
    exact decide_eq_decide.mpr eq_comm |>.trans (Bool.beq_eq_decide_eq c j).symm
  exact h

/-- The line is complete once its last column is computed. -/
theorem lineDone_withOut (hj : j < 128) (x : Nat) : (r.withOut j x).lineDone j = r.lastOf j := by
  unfold FedRow.lineDone FedRow.lastOf
  rw [Bool.eq_iff_iff, List.all_eq_true, List.all_eq_true]
  refine forall₂_congr fun c hc => ?_
  have hlt : c < 128 := by
    simp only [lineCols, List.mem_filter, List.mem_map, List.mem_range] at hc
    omega
  rw [testBit_todo_withOut hlt]
  cases c == j <;> simp

/-! ### The step -/

theorem output_eq {y : FedRow} (hy : (v.ma d a).rows.find? (fun z => z.same y) = some y) (hst : y.stagger = false)
    (hbad : (v.ma d a).bad.contains (y.setNo, j) = false) {x : Nat} {fl : Flags}
    (hx : outputWord y j (v.destOf (v.ma d a) y j) = (x, fl)) :
    v.output d a y j .none =
      (((v.setMa d a ((v.ma d a).computed y j x)).writeLine d a (y.withOut j x) j).maFlags d a fl).maSync d a := by
  unfold State.output
  simp only [MArray.parity, hy, Option.getD_some, hst, hbad, hx]
  simp [find?_computed j x hy]

end

/-- What an output of value `x` and flags `fl` gives: it waits in its row, or its line is written (R179). -/
structure OutputGiven (s t : State) (d : Fin 40) (a : Fin 4) (r : FedRow) (j x : Nat) (fl : Flags) : Prop where
  waits : r.lastOf j = false → SameMem s t ∧ ∃ y ∈ (t.ma d a).rows, y.same r = true ∧ y.outs = r.outs ++ [(j, x)] ∧
    y.todo = r.todo &&& ~~~ (BitVec.ofNat 128 (2 ^ j))
  last : r.lastOf j = true → t.num (r.dest + 4 * j) 4 = x
  line : r.lastOf j = true → ∀ o ∈ r.outs, o.1 / 16 = j / 16 → o.1 ≠ j → (∀ p ∈ r.outs, p.1 = o.1 → p = o) →
    o.2 < 2 ^ 32 → t.num (r.dest + 4 * o.1) 4 = o.2
  ovf : fl.ovf = true → t.flag (R.MA_STATUS d a) F.MA_STATUS_OVF = true
  outside : MemOutside (r.dest + 64 * (j / 16)) 64 s t
  regs : OnlyRegs [R.MA_STATUS d a, R.MA_COLL d a] s t
  frame : DieOnly s t

theorem outputGiven_output {s u : State} {d : Fin 40} {a : Fin 4} {j : Nat} {r y : FedRow}
    (h : OutputDue s u d a r y j) (hj : j < 128) (hst : r.stagger = false)
    (hbad : (s.ma d a).bad.contains (r.setNo, j) = false) {x : Nat} {fl : Flags}
    (hx : outputWord y j (s.destOf (s.ma d a) r j) = (x, fl)) (hlt : x < 256 ^ 4) :
    OutputGiven s (u.output d a y j .none) d a r j x fl := by
  obtain ⟨hframe, hrow, hfirst, hubad, hdest⟩ := h
  have hsetNo : y.setNo = r.setNo := by rw [hrow]
  have hout : y.outs = r.outs := by rw [hrow]
  have hydest : y.dest = r.dest := by rw [hrow]
  have hdone : (y.withOut j x).lineDone j = r.lastOf j := (lineDone_withOut hj x).trans (by rw [hrow]; rfl)
  rw [output_eq hfirst (by rw [hrow]; exact hst) (by rw [hubad, hsetNo]; exact hbad) (hdest.symm ▸ hx)]
  generalize hv : u.setMa d a ((u.ma d a).computed y j x) = v
  have hvs : DieOnly s v := by rw [← hv, hframe]; rfl
  have hvbyte (b : Nat) : v.byte b = s.byte b := by rw [← hv, hframe]; rfl
  have hvrd (b : Nat) : v.rd b = s.rd b := by rw [← hv, hframe]; rfl
  have hbyte (w : State) (b : Nat) : ((w.maFlags d a fl).maSync d a).byte b = w.byte b := by
    rw [byte_maSync, maFlags_regsOnly]; rfl
  have hma (w : State) : ((w.maFlags d a fl).maSync d a).ma d a = w.ma d a := by
    rw [maSync_regsOnly, maFlags_regsOnly]; rfl
  refine ⟨fun hl => ⟨fun b => ?_, y.withOut j x, ?_, ?_, ?_, ?_⟩, fun hl => ?_, fun hl o ho hline hne hone ho32 => ?_,
    fun hf => ?_, fun b hb => ?_, fun b hb => ?_, ?_⟩
  · rw [hbyte, writeLine_of_waiting (hdone.trans hl), hvbyte]
  · rw [hma, writeLine_of_waiting (hdone.trans hl), ← hv, State.ma_setMa_self]
    exact List.mem_of_find?_eq_some (find?_computed j x hfirst)
  · rw [hrow]
    exact FedRow.same_iff.mpr ⟨rfl, rfl⟩
  · rw [← hout]
    rfl
  · rw [hrow]
    rfl
  · rw [State.num_congr fun i _ => hbyte _ _, ← hydest]
    exact num_writeLine_withOut (hdone.trans hl) hlt
  · have hmem : o ∈ (y.withOut j x).lineOuts j :=
      List.mem_filter.mpr ⟨List.mem_append_left _ (hout ▸ ho), by simp [hline]⟩
    have huniq : ∀ p ∈ (y.withOut j x).lineOuts j, p.1 = o.1 → p.2 = o.2 := fun p hp hpo => by
      obtain hp | hp := List.mem_append.mp (List.mem_of_mem_filter hp)
      · rw [hone p (hout ▸ hp) hpo]
      · rw [List.mem_singleton.mp hp] at hpo
        exact absurd hpo.symm hne
    rw [State.num_congr fun i _ => hbyte _ _, ← hydest]
    exact (num_writeLine (hdone.trans hl) hmem huniq).trans (Nat.mod_eq_of_lt ho32)
  · rw [flag_ovf_maSync]
    exact flag_ovf_maFlags _ d a hf
  · rw [hbyte, byte_writeLine_of_outside (by change b < y.dest + _ ∨ y.dest + _ + 64 ≤ b; rw [hydest]; exact hb), hvbyte]
  · have hne : b ≠ R.MA_STATUS d a := fun he => hb (he ▸ List.mem_cons_self)
    rw [rd_maSync _ d a hb, rd_maFlags _ d a _ hne, rd_writeLine, hvrd]
  · exact ((hvs.trans writeLine_dieOnly).regsOnly (maFlags_regsOnly _ d a fl)).regsOnly (maSync_regsOnly _ d a)

/-- Settles O11: an output is computed in the row its line has been read into (`outputGiven_output`); passes, batches and
counters by the step that completes, issues or clears them. -/
theorem outputsAreWrittenAndPassesComplete : Obligations.OutputsAreWrittenAndPassesComplete := by
  intro s d a hd
  refine ⟨fun j r v x hnext hfirst hdue hread hearly hfmt hmask hst hbad hdiag hset hclean hv hx => ?_,
    fun p hp hq => passComplete_gives hd hp hq, fun p c hp hc => batchComplete_gives hd hp hc,
    fun cfg hcfg hrows hdue => ⟨_, exec_maCollectorTimeout hd hcfg hrows hdue, issueBatch_gives hcfg hrows⟩,
    maPerfClear_gives hd⟩
  obtain ⟨u, y, h, hexec⟩ := exec_maOutputWrite hd hnext hfirst hdue hread hearly hmask hclean
  have hxv : x = unsignedN 32 (satInt 32 v).1 := by rw [hx, satInt_32]
  have hword : outputWord y j (s.destOf (s.ma d a) r j) = (x, { ovf := (satInt 32 v).2 }) := by
    rw [hxv, h.row]
    exact outputWord_int8 hmask hfmt hdiag hset _ _ hv
  have g := outputGiven_output h j.isLt hst hbad hword (hxv ▸ unsignedN_lt 32 _)
  exact ⟨_, hexec, g.waits, fun hl => ⟨g.last hl, g.line hl⟩, fun hover => g.ovf (satInt_32_over hover), g.outside, g.regs,
    g.frame⟩

end Sys2Proof.Machine
end

section
/-! What a conversion of the vector engine changes (R140, R141). -/
namespace Sys2Proof.Machine

/-- A step of the vector engine of die d: outside `M` memory is as before, of the registers VE_STATUS alone has changed,
and of the die the vector engine's own state. -/
structure VeOnly (d : Fin 40) (M : Nat → Prop) (s t : State) : Prop where
  byte : ∀ b, ¬ M b → t.byte b = s.byte b
  rd : ∀ a, a ≠ R.VE_STATUS d → t.rd a = s.rd a
  cd : ∃ v, t.cd d = { s.cd d with ve := v }

namespace VeOnly
variable {d : Fin 40} {M : Nat → Prop} {s t u : State}

theorem refl (s : State) : VeOnly d M s s := ⟨fun _ _ => rfl, fun _ _ => rfl, _, rfl⟩

theorem trans (h : VeOnly d M s t) (k : VeOnly d M t u) : VeOnly d M s u := by
  refine ⟨fun b hb => (k.byte b hb).trans (h.byte b hb), fun a ha => (k.rd a ha).trans (h.rd a ha), ?_⟩
  obtain ⟨v, hv⟩ := h.cd
  obtain ⟨x, hx⟩ := k.cd
  exact ⟨x, by rw [hx, hv]⟩

theorem setVe (h : VeOnly d M s t) (v : VEng) : VeOnly d M s (t.setVe d v) :=
  h.trans ⟨fun _ _ => rfl, fun _ _ => rfl, v, State.cd_setVe_self t d v⟩

theorem veFlags (h : VeOnly d M s t) (f : Flags) : VeOnly d M s (t.veFlags d f) :=
  h.trans ⟨fun _ _ => rfl, fun _ ha => State.rd_put_of_ne _ _ _ ha, _, rfl⟩

theorem coverDest (h : VeOnly d M s t) (o : Opnd) (fmt n : Nat) : VeOnly d M s (t.coverDest d o fmt n) := by
  cases o with
  | stream a => exact h.trans ⟨fun _ _ => rfl, fun _ _ => rfl, _, rfl⟩
  | _ => exact h

end VeOnly

/-! ### Elements of a stream written -/

theorem vBits_cases (fmt : Nat) : vBits fmt = 4 ∨ vBits fmt = 8 ∨ vBits fmt = 16 ∨ vBits fmt = 32 := by
  unfold vBits
  split <;> decide

/-- An element of a stream lies within the bytes of the stream. -/
theorem byte_putElem_of_outside (s : State) {a bits k n x b : Nat}
    (hbits : bits = 4 ∨ bits = 8 ∨ bits = 16 ∨ bits = 32) (hk : k < n) (h : b < a ∨ a + (n * bits + 7) / 8 ≤ b) :
    (s.putElem a bits k x).byte b = s.byte b := by
  unfold State.putElem
  split
  · next h4 =>
    subst h4
    rw [State.byte_putBytes_of_outside]
    rw [List.length_singleton]
    omega
  · rw [State.putNum, State.byte_putBytes_of_outside]
    rw [leBytes_length]
    rcases hbits with rfl | rfl | rfl | rfl <;> omega

theorem putElem_rest (s : State) (a bits k x : Nat) :
    s.putElem a bits k x = { s with mem := (s.putElem a bits k x).mem } := by
  unfold State.putElem
  split <;> rfl

/-- `M` holds of every byte of a stream operand of n elements. -/
def CoversOpnd (d : Fin 40) (M : Nat → Prop) (o : Opnd) (fmt n : Nat) : Prop :=
  ∀ a, o = .stream a → ∀ b, lsBase d + a ≤ b → b < lsBase d + a + streamLen fmt n → M b

section
variable {d : Fin 40} {M : Nat → Prop} {o : Opnd} {fmt n : Nat} {w : Cmd}

theorem writeElem_veOnly (s : State) (hM : CoversOpnd d M o fmt n) {k : Nat} (hk : k < n) (c : Nat) :
    VeOnly d M s (s.writeElem d o fmt k c) := by
  cases o with
  | stream a =>
    have hrest := putElem_rest s (lsBase d + a) (vBits fmt) k c
    refine ⟨fun b hb => byte_putElem_of_outside s (vBits_cases fmt) hk ?_, fun x _ => ?_, (s.cd d).ve, ?_⟩
    · have := mt (hM a rfl b)
      unfold streamLen at this
      by_contra hc
      exact hb (hM a rfl b (by omega) (by unfold streamLen; omega))
    · change (s.putElem (lsBase d + a) (vBits fmt) k c).rd x = _
      rw [hrest]; rfl
    · change (s.putElem (lsBase d + a) (vBits fmt) k c).cd d = _
      rw [hrest]; rfl
  | tile i => exact (VeOnly.refl s).setVe _
  | scalar i => exact (VeOnly.refl s).setVe _
  | _ => exact .refl s

theorem writeElems_veOnly (l : List (Option Nat)) (s : State) (k : Nat) (hM : CoversOpnd d M o fmt n)
    (hk : k + l.length ≤ n) : VeOnly d M s (s.writeElems d o fmt k l) := by
  induction l generalizing s k with
  | nil => exact .refl s
  | cons x l ih =>
    rw [List.length_cons] at hk
    cases x with
    | none => exact ih s (k + 1) (by omega)
    | some c => exact (writeElem_veOnly s hM (by omega) c).trans (ih _ (k + 1) (by omega))

theorem writeResults_veOnly (s : State) (l : List (Option (Nat × Flags))) (hM : CoversOpnd d M o fmt l.length) :
    VeOnly d M s (s.writeResults d w o fmt l) := by
  have hwr : VeOnly d M s (s.writeElems d o fmt 0 (destCodes w l)) :=
    writeElems_veOnly _ s 0 hM (by rw [destCodes, List.length_map, Nat.zero_add])
  unfold State.writeResults
  dsimp only
  split
  · exact (hwr.coverDest _ _ _).veFlags _
  · exact hwr.veFlags _

/-- A conversion writes its results and, to a scaled format, its scales. -/
theorem veCvt_veOnly (s : State) (bad : List VeBad) (hD : CoversOpnd d M (eD w) (eDst w) n)
    (hC : CoversOpnd d M (eC w) 8 ((n + 31) / 32)) : VeOnly d M s (s.veCvt d bad w n) := by
  have hset (v : VEng) : VeOnly d M s (s.setVe d v) := (VeOnly.refl s).setVe v
  have hres (f : Nat → Option (Nat × Flags)) (t : State) :
      VeOnly d M t (t.writeResults d w (eD w) (eDst w) ((List.range n).map f)) :=
    writeResults_veOnly t _ (by rw [List.length_map, List.length_range]; exact hD)
  have hscales (f : Nat → Nat) (t : State) :
      VeOnly d M t (t.writeElems d (eC w) 8 0 (((List.range ((n + 31) / 32)).map f).map some)) :=
    writeElems_veOnly _ t 0 hC (by simp)
  unfold State.veCvt
  extract_lets act draws mode vals s1 f scales l t l'
  split
  · exact (((hset _).trans (hres _ _)).trans (hscales _ _)).coverDest _ _ _
  · exact (hset _).trans (hres _ _)

end

/-! ### A conversion executed -/

/-- The registers that an instruction of the vector engine may change (R159). -/
def veRegs (d : Fin 40) : List Nat :=
  [R.VE_STATUS d, R.VE_PERF_ACTIVE_LO d, R.VE_PERF_ACTIVE_HI d, R.VE_PERF_ELEM_LO d, R.VE_PERF_ELEM_HI d,
    R.VE_PERF_MASKED d]

section
variable {s : State} {d : Fin 40} {bad : List VeBad} {e : UCmd}

theorem rd_vePerf (v : State) (beat n act : Nat) {a : Nat} (h : a ∉ (veRegs d).tail) :
    (v.vePerf d beat n act).rd a = v.rd a := by
  simp only [veRegs, List.tail_cons, List.mem_cons, List.not_mem_nil, or_false, not_or] at h
  obtain ⟨h1, h2, h3, h4, h5⟩ := h
  unfold State.vePerf
  split
  · rfl
  · simp [State.bump, State.add64, State.put64, h1, h2, h3, h4, h5]

theorem rd_veParity (v : State) (met : Bool) {a : Nat} (h : a ≠ R.VE_STATUS d) : (v.veParity d met).rd a = v.rd a := by
  cases met
  · rfl
  · exact State.rd_put_of_ne _ _ _ h

theorem rd_veBooked_perf (v : State) {a : Nat} (h : a ∉ (veRegs d).tail) : (v.veBooked s d bad e).rd a =
    ((v.put (R.VE_STATUS d) F.VE_STATUS_SRHOLD 0).veParity d (s.veMeets d bad e.w (veCount e.w))).rd a := by
  unfold State.veBooked
  rw [State.rd_completeAt, State.popHead, State.rd_setCd, State.veTick, State.setVe, State.rd_setCd]
  exact rd_vePerf _ _ _ _ h

theorem rd_veBooked (v : State) {a : Nat} (h : a ∉ veRegs d) : (v.veBooked s d bad e).rd a = v.rd a := by
  obtain ⟨hst, hperf⟩ := not_or.mp (mt List.mem_cons.mpr h)
  rw [rd_veBooked_perf v hperf, rd_veParity _ _ hst, State.rd_put_of_ne _ _ _ hst]

/-- An instruction executed is not held for its generators. -/
theorem srhold_veBooked (v : State) : (v.veBooked s d bad e).flag (R.VE_STATUS d) F.VE_STATUS_SRHOLD = false := by
  have hperf : R.VE_STATUS d ∉ (veRegs d).tail := by
    simp only [veRegs, List.tail_cons, List.mem_cons, List.not_mem_nil, or_false, not_or, R.VE_STATUS,
      R.VE_PERF_ACTIVE_LO, R.VE_PERF_ACTIVE_HI, R.VE_PERF_ELEM_LO, R.VE_PERF_ELEM_HI, R.VE_PERF_MASKED]
    omega
  have h0 : (v.put (R.VE_STATUS d) F.VE_STATUS_SRHOLD 0).get (R.VE_STATUS d) F.VE_STATUS_SRHOLD = 0 :=
    State.get_put_self _ _ _ _ (by decide) (by decide)
  rw [State.flag, State.get, rd_veBooked_perf v hperf]
  change (State.get _ _ _ == 1) = false
  cases s.veMeets d bad e.w (veCount e.w) with
  | false => rw [State.veParity, if_neg Bool.false_ne_true, h0]; rfl
  | true =>
    change (State.get (State.put _ _ _ _) _ _ == 1) = false
    rw [State.get_put_of_disjoint _ _ _ _ _ (by decide) (by decide) (by decide), h0]
    rfl

/-- A ready conversion completes: the FIFO and the increments due move on, and outside its destination memory is as
before. -/
theorem veHead_cvt (h : VeReady s d e.q e.w bad) (he : s.head? d veUnit = some e) (hq : e.quiet = false)
    (hop : opcodeOf e.w = 0x1E) :
    ((s.veHead d bad).cd d).fifo veUnit = ((s.cd d).fifo veUnit).tail ∧
      ((s.veHead d bad).cd d).due = (s.cd d).due ++ sigDue e.q e.w (s.veLast d e.w + 1) ∧
      (∀ b, ¬ VeWrites d e.w b → (s.veHead d bad).byte b = s.byte b) ∧ OnlyRegs (veRegs d) s (s.veHead d bad) ∧
      (s.veHead d bad).flag (R.VE_STATUS d) F.VE_STATUS_SRHOLD = false := by
  have hspans : (eSpans (opcodeOf e.w) e.w).2 =
      [spanOf (eD e.w) (eDst e.w) (eN e.w), spanOf (eC e.w) 8 ((eN e.w + 31) / 32)] := by rw [hop]; rfl
  have hcovers {o : Opnd} {fmt n : Nat} (ho : spanOf o fmt n ∈ (eSpans (opcodeOf e.w) e.w).2) :
      CoversOpnd d (VeWrites d e.w) o fmt n := fun a ha b hlo hhi =>
    .inr ⟨.inl (by rw [hop]; decide), a, streamLen fmt n, vBits fmt, by rw [ha] at ho; exact ho, hlo, hhi⟩
  have heffect : s.veEffect d bad e.w (veCount e.w) = s.veCvt d bad e.w (eN e.w) := by
    unfold State.veEffect veCount isRed isMaskOp isCmp
    rw [hop]
    rfl
  obtain ⟨hbyte, hrd, v, hcd⟩ : VeOnly d (VeWrites d e.w) s (s.veCvt d bad e.w (eN e.w)) :=
    veCvt_veOnly s bad (hcovers (by rw [hspans]; exact List.mem_cons_self))
      (hcovers (by rw [hspans]; exact List.mem_cons_of_mem _ List.mem_cons_self))
  rw [veHead_of_ready h he, heffect]
  refine ⟨?_, ?_, fun b hb => (byte_veBooked _ b).trans (hbyte b hb), fun a ha => ?_, srhold_veBooked _⟩
  · rw [fifo_veBooked _ hq, hcd]
    rfl
  · rw [due_veBooked _ hq, hcd]
  · rw [rd_veBooked _ ha]
    exact hrd a fun hst => ha (hst ▸ List.mem_cons_self)

end

end Sys2Proof.Machine
end

section
/-! Bytes written to DRAM at once, with nothing amiss (R243-R247). -/
namespace Sys2Proof.Machine

/-- A step of the seal engines: memory dies and their registers alone have changed. -/
structure SealOnly (s t : State) : Prop where
  frame : t = { s with regs := t.regs, mds := t.mds }
  rd : ∀ a, a < 0x100000 → t.rd a = s.rd a

namespace SealOnly
variable {s t u : State}

theorem refl (s : State) : SealOnly s s := ⟨rfl, fun _ _ => rfl⟩

theorem trans (h : SealOnly s t) (k : SealOnly t u) : SealOnly s u := by
  obtain ⟨hf, hr⟩ := h
  obtain ⟨kf, kr⟩ := k
  exact ⟨by rw [kf, hf], fun a ha => (kr a ha).trans (hr a ha)⟩

theorem cond {c : Prop} {d : Decidable c} (h : c → SealOnly s t) (k : ¬ c → SealOnly s u) :
    SealOnly s (if c then t else u) := by
  split
  · next hc => exact h hc
  · next hc => exact k hc

theorem foldl {α : Type} {g : State → α → State} (hg : ∀ u x, SealOnly u (g u x)) (l : List α) (s : State) :
    SealOnly s (l.foldl g s) := by
  induction l generalizing s with
  | nil => exact .refl s
  | cons x l ih => exact (hg s x).trans (ih _)

theorem stage {r : State × Bool} {f : State → State × Bool} (h : SealOnly s r.1) (k : ∀ t, SealOnly t (f t).1) :
    SealOnly s (thenStage r f).1 := by
  unfold thenStage
  split
  · exact h.trans (k _)
  · exact h

theorem setEng (s : State) (m : Fin 16) (e : Seal) : SealOnly s (s.setEng m e) := ⟨rfl, fun _ _ => rfl⟩

theorem setChan (s : State) (m : Fin 16) (c : Fin 2) (x : SealChan) : SealOnly s (s.setChan m c x) := setEng s m _

theorem dirty (s : State) (m : Fin 16) (ln : SealLine) : SealOnly s (s.dirty m ln) := setEng s m _

theorem sealTally (s : State) (m : Fin 16) {a : Nat} (n : Nat) (ha : 0x100000 ≤ a) : SealOnly s (s.sealTally m a n) :=
  cond (fun _ => .refl s) fun _ => ⟨rfl, fun b hb => State.rd_put_of_ne _ _ _ (by omega)⟩

end SealOnly

section
variable (s : State) (m : Fin 16) (c : Fin 2) (l : Nat)

theorem noteFetch_nil : s.noteFetch m c [] = s := rfl

theorem checkKid_nil (ln : SealLine) : s.checkKid m ln [] = s := by
  unfold State.checkKid
  split <;> rfl

theorem touchLine_sealOnly (ln : SealLine) : SealOnly s (s.touchLine m ln []) := by
  have htally : 0x100000 ≤ R.SEAL_PERF_OVF m := by unfold R.SEAL_PERF_OVF mdBase; omega
  have hkids : ∀ j, errsOf ([] : List (Fin 64 × BurstErrs)) j = [] := fun _ => rfl
  unfold State.touchLine
  extract_lets spill r t t'
  have ht : SealOnly s t := (SealOnly.setChan s m _ _).trans (.sealTally _ m _ htally)
  have ht' : SealOnly s t' := .cond (fun _ => ht.trans ((SealOnly.dirty _ _ _).trans (.dirty _ _ _))) fun _ => ht
  refine .cond (fun _ => ht'.trans (.foldl (fun u j => ?_) _ _)) fun _ => ht'
  refine .cond (fun _ => .refl u) fun _ => ?_
  rw [hkids, checkKid_nil]
  exact .refl u

theorem evictOne_sealOnly (ln : SealLine) : SealOnly s (s.evictOne m [] ln) := by
  unfold State.evictOne
  split
  · exact .refl s
  · extract_lets t
    have ht : SealOnly s t := .cond (fun _ => touchLine_sealOnly s m ln) fun _ => .refl s
    exact ht.trans (.setEng _ _ _)

theorem evictLine_sealOnly (ln : SealLine) : SealOnly s (s.evictLine m [] ln) :=
  .foldl (fun u x => evictOne_sealOnly u m x) _ s

theorem fillLine_sealOnly (ln : SealLine) : SealOnly s (s.fillLine m [] ln) := by
  unfold State.fillLine
  refine .cond (fun _ => .refl s) fun _ => ?_
  extract_lets same cap old t
  have ht : SealOnly s t := by
    refine .cond (fun _ => ?_) fun _ => .refl s
    split
    · exact evictLine_sealOnly s m _
    · exact .refl s
  exact ht.trans (.setEng _ _ _)

/-! ### The stages of a fetch that meets nothing amiss -/

theorem perf_cc : 0x100000 ≤ R.SEAL_PERF_CCMISS m := by unfold R.SEAL_PERF_CCMISS mdBase; omega

theorem perf_tc : 0x100000 ≤ R.SEAL_PERF_TCMISS m := by unfold R.SEAL_PERF_TCMISS mdBase; omega

theorem l2Stage_sealOnly : SealOnly s (s.l2Stage m c l Fetched.good).1 := by
  have h : s.l2Stage m c l Fetched.good = if s.cached m ⟨c, 2, l / 2 ^ 20⟩ then (s, true) else
      ((s.sealTally m (R.SEAL_PERF_CCMISS m) 1).fillLine m [] ⟨c, 2, l / 2 ^ 20⟩, true) := rfl
  rw [h]
  split
  · exact .refl s
  · exact (SealOnly.sealTally s m 1 (perf_cc m)).trans (fillLine_sealOnly _ _ _)

theorem tagStage_sealOnly : SealOnly s (s.tagStage m c l Fetched.good).1 := by
  have h : s.tagStage m c l Fetched.good = if s.cached m ⟨c, 3, l / 2048⟩ then (s, true) else
      ((s.sealTally m (R.SEAL_PERF_TCMISS m) 1).fillLine m [] ⟨c, 3, l / 2048⟩, true) := rfl
  rw [h]
  split
  · exact .refl s
  · exact (SealOnly.sealTally s m 1 (perf_tc m)).trans (fillLine_sealOnly _ _ _)

theorem l1Stage_sealOnly : SealOnly s (s.l1Stage m c l Fetched.good).1 := by
  have hok : fetchOf [] = .ok := rfl
  have hne : (Fetch.ok == Fetch.ecc) = false := rfl
  have hslot (i : Nat) : slotWrong [] i = false := rfl
  unfold State.l1Stage
  dsimp only
  split
  · exact .refl s
  · refine .stage (l2Stage_sealOnly s m c l) fun t => ?_
    have hl1 : Fetched.good.l1 = [] := rfl
    have hl1tag : Fetched.good.l1tag = [] := rfl
    have hkids : Fetched.good.kids = [] := rfl
    simp only [hl1, hl1tag, hkids, hok, hne, hslot, noteFetch_nil, Bool.and_false, reduceCtorEq, or_self,
      Bool.false_eq_true, if_false]
    refine SealOnly.trans ?_ ((fillLine_sealOnly _ _ _).trans (fillLine_sealOnly _ _ _))
    have hcc : SealOnly t (t.sealTally m (R.SEAL_PERF_CCMISS m) 1) := .sealTally t m 1 (perf_cc m)
    exact .cond (fun _ => hcc) fun _ => hcc.trans (.sealTally _ m 1 (perf_tc m))

theorem fetchBlock_sealOnly : SealOnly s (s.fetchBlock m c l Fetched.good false false).1 := by
  have hcache : SealOnly s (s.cacheStage m c Fetched.good.cache).1 := .refl s
  unfold State.fetchBlock
  dsimp only
  refine .stage (.stage hcache fun t => l1Stage_sealOnly t m c l) fun t => ?_
  refine .stage ?_ fun u => ?_
  · simp only [Bool.and_false, Bool.not_false, Bool.or_true, Bool.or_false, Bool.false_eq_true, if_false, if_true]
    exact tagStage_sealOnly t m c l
  · rw [if_neg (by simp)]
    exact .refl u

theorem overflowTags_sealOnly (line own j : Nat) : SealOnly s (s.overflowTags m c line own Fetched.good j) := by
  have hok : fetchOf [] = .ok := rfl
  have hne : (Fetch.ok == Fetch.ecc) = false := rfl
  have hslot (i : Nat) : slotWrong [] i = false := rfl
  have hlost (i : Nat) : (errsOf Fetched.good.lost i).getD 0 [] = [] := rfl
  have htags : (errsOf Fetched.good.lostTags j).getD 0 [] = [] := rfl
  have hkids : Fetched.good.kids = [] := rfl
  unfold State.overflowTags
  simp only [htags, hlost, hkids, hok, hne, hslot, noteFetch_nil, Bool.and_false, reduceCtorEq, or_self,
    Bool.false_eq_true, if_false, ite_self]
  refine SealOnly.trans ?_ ((fillLine_sealOnly _ _ _).trans (.dirty _ _ _))
  refine SealOnly.trans ?_ (.foldl (fun u _ => .refl u) _ _)
  exact .cond (fun _ => .refl s) fun _ => .sealTally s m 1 (perf_tc m)

theorem nextCounter_sealOnly : SealOnly s (s.nextCounter m c l Fetched.good) := by
  have htally : 0x100000 ≤ R.SEAL_PERF_OVF m := by unfold R.SEAL_PERF_OVF mdBase; omega
  unfold State.nextCounter
  dsimp only
  refine SealOnly.trans (.cond (fun _ => ?_) fun _ => .setChan s m c _) ((SealOnly.dirty _ _ _).trans (.dirty _ _ _))
  exact (SealOnly.foldl (fun u j => overflowTags_sealOnly u m c _ _ j) _ s).trans
    ((SealOnly.setChan _ m c _).trans (.sealTally _ m 1 htally))

/-- Bytes written to DRAM at once: the seal engines' counters move on, and the bytes stand in memory. -/
theorem dramPut_eq (a : Nat) (bs : List Byte) : ∃ u, SealOnly s u ∧ s.dramPut a bs = u.putBytes a bs := by
  refine ⟨_, .foldl (fun u b => ?_) _ s, rfl⟩
  split
  · exact .refl u
  · exact (fetchBlock_sealOnly u _ _ _).trans (nextCounter_sealOnly _ _ _ _)

end

/-! ### The map of memory -/

theorem cantons_le (s : State) : s.cantons ≤ 8 :=
  Nat.pow_le_pow_right (n := 2) (by decide) (Nat.le_of_lt_succ (get_lt s R.ARCH_CFG F.ARCH_CFG_CANTON_LOG2))

/-- Whether a die answers follows from registers of the trust die, the dies in reset and the dies out of use. -/
theorem dieOff_congr {s t : State} (hrd : ∀ a, a < 0x100000 → t.rd a = s.rd a) (hres : t.inReset = s.inReset)
    (hdead : t.deadDies = s.deadDies) (k : Nat) : t.dieOff k = s.dieOff k := by
  have hcantons : t.cantons = s.cantons := by rw [State.cantons, get_congr (hrd _ (by decide))]; rfl
  have hcol : t.colCanton = s.colCanton := by funext c; rw [State.colCanton, hcantons]; rfl
  have hparked : t.parked = s.parked := by funext k; rw [State.parked, hrd _ (by decide)]; rfl
  have hfrozen : t.frozen = s.frozen := by rw [State.frozen, State.flag, get_congr (hrd _ (by decide))]; rfl
  unfold State.dieOff State.dieCanton
  rw [hres, hdead, hparked, hfrozen, hcol]

/-- What stands at an address follows from registers of the trust die, the dies in reset and the dies out of use. -/
theorem placeOf_congr {s t : State} (hrd : ∀ a, a < 0x100000 → t.rd a = s.rd a) (hres : t.inReset = s.inReset)
    (hdead : t.deadDies = s.deadDies) (a : Nat) : t.placeOf a = s.placeOf a := by
  have hget (a : Nat) (ha : a < 0x100000) (f : Fld) : t.get a f = s.get a f := get_congr (hrd a ha) f
  have hcantons : t.cantons = s.cantons := by rw [State.cantons, hget _ (by decide)]; rfl
  have hcol : t.colCanton = s.colCanton := by funext c; rw [State.colCanton, hcantons]; rfl
  have hmds : t.cantonMds = s.cantonMds := by funext k; rw [State.cantonMds, hcol]; rfl
  have hparked : t.parked = s.parked := by funext k; rw [State.parked, hrd _ (by decide)]; rfl
  have hoff : t.dieOff = s.dieOff := funext (dieOff_congr hrd hres hdead)
  have hchannels : t.channels = s.channels := by rw [State.channels, hget _ (by decide)]; rfl
  have hslice (k : Nat) (hk : k < 8) : t.sliceBase k = s.sliceBase k ∧ t.sliceSize k = s.sliceSize k ∧
      t.spreadSize k = s.spreadSize k := by
    refine ⟨?_, ?_, ?_⟩
    · rw [State.sliceBase, hget _ (by unfold R.ARCH_CANTON_BASE tdBase; omega)]; rfl
    · rw [State.sliceSize, hget _ (by unfold R.ARCH_CANTON_SIZE tdBase; omega)]; rfl
    · rw [State.spreadSize, hget _ (by unfold R.ARCH_CANTON_SPREAD tdBase; omega)]; rfl
  have howned (k : Nat) (hk : k < 8) : t.ownedSize k = s.ownedSize k := by
    obtain ⟨-, hsize, hspread⟩ := hslice k hk
    rw [State.ownedSize, hsize, hspread, hmds, hchannels]; rfl
  have hlt (k : Nat) (hk : k ∈ List.range s.cantons) : k < 8 :=
    Nat.lt_of_lt_of_le (List.mem_range.mp hk) (cantons_le s)
  unfold State.placeOf
  rw [hcantons, hoff, hparked, hmds]
  rw [List.find?_congr (p₂ := fun k => decide (s.sliceBase k ≤ a) && decide (a < s.sliceBase k + s.sliceSize k)) fun k hk => by
    obtain ⟨hbase, hsize, -⟩ := hslice k (hlt k hk)
    rw [hbase, hsize]]
  cases hf : (List.range s.cantons).find? (fun k => decide (s.sliceBase k ≤ a) && decide (a < s.sliceBase k + s.sliceSize k)) with
  | none => rfl
  | some k =>
    have hk := hlt k (List.mem_of_find?_eq_some hf)
    obtain ⟨hbase, -, hspread⟩ := hslice k hk
    simp only [hbase, hspread, howned k hk]

end Sys2Proof.Machine
end

section
/-! Firmware's writes: into stores, and into DRAM at once (R179, R207, R253). -/
namespace Sys2Proof.Machine

section
variable {s : State} {src a x off : Nat} {bs : List Byte}

/-- A write by a block of the module to a range of a store, as posted where no drain covers the range. -/
def State.posted (s : State) (src a : Nat) (bs : List Byte) : State :=
  { (s.mergeWrite a bs).1 with
    busErrs := if (s.mergeWrite a bs).2 then s.busErrs ++ [(src, a, 0)] else s.busErrs }

theorem storePost_of_open (hc : (s.cd (fin40 x)).coversWindow off bs.length = false) :
    s.storePost src x off a (.write bs) = s.posted src a bs := by
  have h : s.storePost src x off a (.write bs) = if (s.mergeWrite a bs).2 then
      { (s.mergeWrite a bs).1 with busErrs := (s.mergeWrite a bs).1.busErrs ++ [(src, a, 0)] }
      else (s.mergeWrite a bs).1 := if_neg (by simp [hc])
  rw [h, State.posted, (s.merged_mergeWrite a bs).frame]
  split <;> rfl

theorem storePost_of_covered (hc : (s.cd (fin40 x)).coversWindow off bs.length = true) :
    s.storePost src x off a (.write bs) = s.setCd (fin40 x)
      { s.cd (fin40 x) with held := (s.cd (fin40 x)).held ++ [(⟨src, a, .write bs⟩ : HeldWrite)] } := if_pos hc

theorem posted_eq (s : State) (src a : Nat) (bs : List Byte) : s.posted src a bs =
    { s with mem := (s.posted src a bs).mem, poison := (s.posted src a bs).poison,
             busErrs := (s.posted src a bs).busErrs } := by
  unfold State.posted
  rw [(s.merged_mergeWrite a bs).frame]

/-- What a posted write leaves: its bytes, where none is lost, and every byte outside as before. -/
theorem storedAt_posted (hl : ∀ i, i < bs.length → s.mergeLost a bs.length i = false) :
    StoredAt (s.posted src a bs) a bs := fun i hi => by
  have h := (s.merged_mergeWrite a bs).written i hi
  rw [hl i hi, if_neg Bool.false_ne_true] at h
  exact h

theorem memOutside_posted : MemOutside a bs.length s (s.posted src a bs) := (s.merged_mergeWrite a bs).outside

theorem mpaWrite_of_store (hp : s.placeOf a = .cd x off)
    (hc : (s.cd (fin40 x)).coversWindow off bs.length = false) : s.mpaWrite src a bs = s.posted src a bs := by
  unfold State.mpaWrite
  rw [hp]
  exact storePost_of_open hc

/-- No byte of a write of whole words is merged. -/
theorem mergeLost_of_words {n i : Nat} (ha : a % 4 = 0) (hn : n % 4 = 0) (hi : i < n) : s.mergeLost a n i = false := by
  unfold State.mergeLost
  rw [decide_eq_false (by omega), decide_eq_false (by omega)]
  rfl

/-! ### What firmware's writes leave -/

/-- The sequences admitted and the last answer. -/
def State.loaderFields (s : State) := (s.admitted, s.resp)

theorem loaderFields_forward (s : State) (src : Nat) (op : MpaOp) (a : Nat) :
    (s.forward src op a).loaderFields = s.loaderFields := by
  unfold State.forward
  split
  · next m _ _ _ => exact congrArg₂ Prod.mk (State.setMd_admitted ..) (State.setMd_resp ..)
  · rfl

theorem loaderFields_storePost (s : State) (src x off a : Nat) (bs : List Byte) :
    (s.storePost src x off a (.write bs)).loaderFields = s.loaderFields := by
  cases hc : (s.cd (fin40 x)).coversWindow off bs.length with
  | true =>
    rw [storePost_of_covered hc]
    exact congrArg₂ Prod.mk (State.setCd_admitted ..) (State.setCd_resp ..)
  | false =>
    rw [storePost_of_open hc, posted_eq]
    rfl

theorem loaderFields_mpaWrite (s : State) (src a : Nat) (bs : List Byte) :
    (s.mpaWrite src a bs).loaderFields = s.loaderFields := by
  unfold State.mpaWrite
  cases s.placeOf a with
  | dram k => exact proj_foldl State.loaderFields (fun u p _ => loaderFields_forward u src _ _) s.newReq
  | cd d off => exact loaderFields_storePost s src d off a bs
  | _ => rfl

theorem putNow_of_dram {k : Nat} (hp : s.placeOf a = .dram k) : s.putNow src a bs = s.dramPut a bs := by
  unfold State.putNow
  rw [hp]

theorem putNow_of_cd (hp : s.placeOf a = .cd x off) : s.putNow src a bs = s.mpaWrite src a bs := by
  unfold State.putNow
  rw [hp]

theorem loaderFields_putNow (s : State) (src a : Nat) (bs : List Byte) :
    (s.putNow src a bs).loaderFields = s.loaderFields := by
  cases hp : s.placeOf a with
  | dram k =>
    obtain ⟨u, hu, hput⟩ := dramPut_eq s a bs
    rw [putNow_of_dram hp, hput]
    change u.loaderFields = _
    rw [hu.frame]
    rfl
  | _ =>
    have h : s.putNow src a bs = s.mpaWrite src a bs := by unfold State.putNow; rw [hp]
    rw [h, loaderFields_mpaWrite]

/-- Firmware's bytes in DRAM stand there at once, and every byte outside is as before. -/
theorem putNow_dram_gives {k : Nat} (hp : s.placeOf a = .dram k) :
    StoredAt (s.putNow src a bs) a bs ∧ MemOutside a bs.length s (s.putNow src a bs) ∧
      (∀ b, (s.putNow src a bs).placeOf b = s.placeOf b) := by
  obtain ⟨u, hu, hput⟩ := dramPut_eq s a bs
  rw [putNow_of_dram hp, hput]
  have hmem : u.mem = s.mem := by rw [hu.frame]
  have hres : u.inReset = s.inReset := by rw [hu.frame]
  have hdead : u.deadDies = s.deadDies := by rw [hu.frame]
  exact ⟨storedAt_putBytes u a bs,
    fun b hb => (State.byte_putBytes_of_outside _ _ _ _ hb).trans (State.byte_congr hmem b),
    placeOf_congr (fun x hx => (State.rd_putBytes ..).trans (hu.rd x hx)) hres hdead⟩

end

end Sys2Proof.Machine
end

section
/-! Kept inputs, variant tables, sequences and adapter drains (O23). -/
namespace Sys2Proof.Machine

/-! ### Kept inputs (R207) -/

section
variable {s : State} {d : Fin 40} {q : Fin 4} {base : Fin 8} {fresh : BitVec 48} {copy : List Byte}

theorem exec_keptInputRebuild_lost (hs : s.qState d q = 5) (hf : (s.que d q).fcode = 7) {first below : Bool}
    (h : first = true ∨ below = false) : exec (.keptInputRebuild d q first below base fresh copy) s =
      .next { s with lostSteps := s.lostSteps ++ [(d.val, q.val)] } := by
  change execKeptInputRebuild d q first below base fresh copy s = _
  unfold execKeptInputRebuild
  rw [if_pos ⟨hs, hf⟩, if_pos h]

/-- The copy posted, and its address in a base register of the queue. -/
def State.keptPosted (s : State) (d : Fin 40) (q : Fin 4) (base : Fin 8) (fresh : BitVec 48) (copy : List Byte) : State :=
  (s.posted d fresh.toNat copy).setQue d q
    { s.que d q with bases := (s.que d q).bases.set base (BitVec.ofNat 42 (fresh.toNat / 64)) }

theorem exec_keptInputRebuild_copied {x off : Nat} (hs : s.qState d q = 5) (hf : (s.que d q).fcode = 7)
    (hp : s.placeOf fresh.toNat = .cd x off) (hc : (s.cd (fin40 x)).coversWindow off copy.length = false)
    (hb : base ≠ 0) : ∃ canton det, exec (.keptInputRebuild d q false true base fresh copy) s =
      .next ((s.keptPosted d q base fresh copy).raise 0x5133 d canton det) := by
  have hque : (s.posted d fresh.toNat copy).que d q = s.que d q := by rw [posted_eq]; rfl
  have hbase : base.val ≠ 0 := fun h => hb (Fin.ext h)
  have h : exec (.keptInputRebuild d q false true base fresh copy) s = .next (State.raise (s.keptPosted d q base fresh copy)
      0x5133 d (some ((s.keptPosted d q base fresh copy).cdCanton d))
      (detail 0 (((s.keptPosted d q base fresh copy).cads.getD ((s.keptPosted d q base fresh copy).cdCanton d)
        Cadence.reset).step % 65536) fresh.toNat)) := by
    change execKeptInputRebuild d q false true base fresh copy s = _
    unfold execKeptInputRebuild
    rw [if_pos ⟨hs, hf⟩, if_neg (by simp), mpaWrite_of_store hp hc]
    simp only [hque, hbase, if_false]
    rfl
  exact ⟨_, _, h⟩

theorem State.que_setQue (u : State) (d : Fin 40) (q : Fin 4) (y : QueueState) : (u.setQue d q y).que d q = y := by
  simp [State.que, State.setQue]

theorem keptInputRebuild_copied_gives {x off : Nat} (hs : s.qState d q = 5) (hf : (s.que d q).fcode = 7)
    (hp : s.placeOf fresh.toNat = .cd x off) (hc : (s.cd (fin40 x)).coversWindow off copy.length = false)
    (hb : base ≠ 0) (hl : ∀ i ∈ List.range copy.length, s.mergeLost fresh.toNat copy.length i = false) :
    Yields (exec (.keptInputRebuild d q false true base fresh copy) s) (fun t =>
      (∀ i, i < copy.length → t.byte (fresh.toNat + i) = copy.getD i 0) ∧ MemOutside fresh.toNat copy.length s t ∧
      (∀ n : Fin 8, (t.que d q).bases[n] =
        if n = base then BitVec.ofNat 42 (fresh.toNat / 64) else (s.que d q).bases[n]) ∧
      (∃ e : Event, t.events = s.events ++ [e] ∧ e.code = 0x5133 ∧ e.die = d.val) ∧ t.regs = s.regs) := by
  obtain ⟨canton, det, h⟩ := exec_keptInputRebuild_copied (copy := copy) hs hf hp hc hb
  have hev : (s.keptPosted d q base fresh copy).events = s.events := by
    rw [State.keptPosted, State.setQue, State.setCd_events, posted_eq]
  have hregs : (s.keptPosted d q base fresh copy).regs = s.regs := by
    rw [State.keptPosted, State.setQue, State.setCd_regs, posted_eq]
  have hbyte (b : Nat) : ((s.keptPosted d q base fresh copy).raise 0x5133 d canton det).byte b =
      (s.posted d fresh.toNat copy).byte b := by
    rw [State.byte_raise, State.keptPosted, State.setQue, State.byte_setCd]
  have hque : ((s.keptPosted d q base fresh copy).raise 0x5133 d canton det).que d q =
      { s.que d q with bases := (s.que d q).bases.set base (BitVec.ofNat 42 (fresh.toNat / 64)) } := by
    rw [State.que, State.cd_raise]
    exact State.que_setQue _ d q _
  refine ⟨_, h, fun i hi => ?_, fun b hb => ?_, fun n => ?_, ⟨⟨0x5133, d, canton, det⟩, ?_, rfl, rfl⟩, ?_⟩
  · rw [hbyte]
    exact storedAt_posted (fun i hi => hl i (List.mem_range.mpr hi)) i hi
  · rw [hbyte]
    exact memOutside_posted b hb
  · rw [hque]
    simp only [Fin.getElem_fin, Vector.getElem_set, Fin.ext_iff, eq_comm]
  · rw [State.raise_events, hev]
  · rw [State.raise_regs, hregs]

end

/-! ### Variant tables (R213-R215) -/

theorem variantTableActivate_gives {s : State} {k : Fin 8} {addr : BitVec 48} {h : List Byte} {es : List (List Byte)}
    (hh : s.bytes addr.toNat 64 = h) (ha : addr.toNat % 4096 = 0) (hok : headerOk h = true)
    (hes : (List.range (fieldAt h 4 2)).map (fun i => s.bytes (addr.toNat + 64 + 64 * i) 64) = es)
    (hp : s.placeOf addr.toNat = .dram k) (hend : s.placeOf (addr.toNat + 63 + 64 * fieldAt h 4 2) = .dram k)
    (hent : ∀ p ∈ (List.range (fieldAt h 4 2)).zip es, entryOk p.1 (fieldAt h 3 1) p.2 = true) (htab : s.tables[k] = [])
    (hlim : es.foldl (fun n e => n + popcount (fieldAt e 20 8) 64) 0 ≤ s.adapterLimit k) :
    Yields (exec (.variantTableActivate k addr) s) (fun t =>
      (∃ v, t.tables[k] = [v] ∧ v.id = fieldAt h 2 1 ∧ v.addr = addr.toNat ∧ v.nvar = fieldAt h 4 2) ∧
      (∀ j : Fin 8, j ≠ k → t.tables[j] = s.tables[j]) ∧ t = { s with tables := t.tables }) := by
  have hexec : exec (.variantTableActivate k addr) s = .next { s with
        tables := s.tables.set k
          ([⟨fieldAt h 2 1, addr.toNat, fieldAt h 8 4, fieldAt h 4 2,
            es.foldl (fun n e => n + popcount (fieldAt e 20 8) 64) 0⟩] : List VariantTable) } := by
    change execVariantTableActivate k addr s = _
    unfold execVariantTableActivate
    simp only [hh, hes, htab, List.filter_nil, List.nil_append, List.length_nil, List.foldl_nil, Nat.zero_add]
    rw [if_pos]
    simp [ha, hp, hend, hok, hlim]
    exact fun i x hx => hent (i, x) hx
  refine ⟨_, hexec, ⟨_, Vector.getElem_set_self _, rfl, rfl, rfl⟩, fun j hj => ?_, rfl⟩
  exact Vector.getElem_set_ne k.isLt j.isLt fun he => hj (Fin.ext he.symm)

end Sys2Proof.Machine
end

section
/-! Sequences admitted to a micro-batch (R216-R218). -/
namespace Sys2Proof.Machine

section
variable {s : State} {k : Fin 8} {table : Fin 16} {tag : W32} {rows : Nat} {tags segs : BitVec 48}

/-- The micro-batch under way of a canton noted, and the command answered. -/
def State.batchNoted (s : State) (k : Fin 8) (batch : List AdmittedSeq) : State :=
  { s with admitted := s.admitted.filter (fun (b : AdmittedSeq) => b.canton != k.val) ++ batch, resp := .done }

theorem rd_batchNoted (s : State) (k : Fin 8) (batch : List AdmittedSeq) (a : Nat) :
    (s.batchNoted k batch).rd a = s.rd a := rfl

theorem placeOf_batchNoted (s : State) (k : Fin 8) (batch : List AdmittedSeq) (a : Nat) :
    (s.batchNoted k batch).placeOf a = s.placeOf a := by
  have hres : (s.batchNoted k batch).inReset = s.inReset := rfl
  have hdead : (s.batchNoted k batch).deadDies = s.deadDies := rfl
  exact placeOf_congr (fun x _ => rd_batchNoted s k batch x) hres hdead a

/-- A micro-batch noted, its row tags and its segment table written. -/
def State.batchWritten (s : State) (k : Fin 8) (table : Nat) (batch : List AdmittedSeq) (tags segs : BitVec 48) : State :=
  ((s.batchNoted k batch).putNow (s.svcDie k) tags.toNat (rowTags batch)).putNow (s.svcDie k) segs.toNat
    (segmentTable table batch)

theorem batchWritten_loader (s : State) (k : Fin 8) (table : Nat) (batch : List AdmittedSeq) (tags segs : BitVec 48) :
    (s.batchWritten k table batch tags segs).loaderFields =
      (s.admitted.filter (fun (b : AdmittedSeq) => b.canton != k.val) ++ batch, .done) :=
  (loaderFields_putNow ..).trans (loaderFields_putNow ..)

theorem exec_sequenceAdmit_fresh (h : s.admits k table tag = true) :
    exec (.sequenceAdmit k table tag ⟨rows, true, tags, segs⟩) s =
      .next (s.batchWritten k table [⟨k.val, table.val, tag &&& 0x7FFFF, rows⟩] tags segs) := by
  change execSequenceAdmit k table tag ⟨rows, true, tags, segs⟩ s = _
  unfold execSequenceAdmit
  rw [if_pos h]
  rfl

theorem exec_sequenceAdmit_joins {mine : List AdmittedSeq} (h : s.admits k table tag = true)
    (hm : s.admitted.filter (fun (b : AdmittedSeq) => b.canton == k.val) = mine)
    (hr : rowsOf (placeSeq mine ⟨k.val, table.val, tag &&& 0x7FFFF, rows⟩) ≤ 65536)
    (hsegs : (segmentsOf (placeSeq mine ⟨k.val, table.val, tag &&& 0x7FFFF, rows⟩)).length ≤ 1024)
    (ht : ∀ b ∈ mine, b.table = table.val) :
    exec (.sequenceAdmit k table tag ⟨rows, false, tags, segs⟩) s =
      .next (s.batchWritten k table (placeSeq mine ⟨k.val, table.val, tag &&& 0x7FFFF, rows⟩) tags segs) := by
  have hany : mine.any (fun b => b.table != table.val) = false := by
    rw [List.any_eq_false]
    intro b hb
    simp [ht b hb]
  change execSequenceAdmit k table tag ⟨rows, false, tags, segs⟩ s = _
  unfold execSequenceAdmit
  rw [if_pos h]
  simp only [hm, hany, decide_eq_false (Nat.not_lt.mpr hr), decide_eq_false (Nat.not_lt.mpr hsegs), Bool.or_self,
    Bool.false_eq_true, if_false]
  rfl

theorem exec_sequenceAdmit_dropped (h : s.admits k table tag = false) (fresh : Bool) :
    exec (.sequenceAdmit k table tag ⟨rows, fresh, tags, segs⟩) s = .next (s.raise 0x5230 (s.svcDie k) (some k)
      (s.svcDetail k (bitsN tag.toNat 17 13) (bitsN tag.toNat 11 0 + 65536 * table.val))) :=
  if_neg (by rw [h]; exact Bool.false_ne_true)

/-! ### Rows of a micro-batch -/

theorem rowsOf_eq_sum (l : List AdmittedSeq) : rowsOf l = (l.map AdmittedSeq.rows).sum := by
  rw [rowsOf, List.sum_eq_foldl, List.foldl_map]

/-- A sequence placed among those of a micro-batch adds its rows. -/
theorem rowsOf_placeSeq (l : List AdmittedSeq) (a : AdmittedSeq) : rowsOf (placeSeq l a) = rowsOf l + a.rows := by
  have hsplit : (placeSeq l a).Perm (a :: l) := by
    have hnot : (fun b : AdmittedSeq => decide (a.key < b.key)) = fun b => !decide (b.key ≤ a.key) := by
      funext b
      rw [← decide_not, decide_eq_decide, Nat.not_le]
    unfold placeSeq
    rw [hnot]
    exact List.perm_middle.trans (.cons a (List.filter_append_perm _ l))
  rw [rowsOf_eq_sum, rowsOf_eq_sum, (hsplit.map _).sum_eq, List.map_cons, List.sum_cons, Nat.add_comm]

/-! ### The tables of a micro-batch of one sequence -/

theorem segmentsOf_singleton (a : AdmittedSeq) : segmentsOf [a] = [(a.key, 0, a.rows)] := by
  simp [segmentsOf, List.eraseDups_cons]

theorem key_of_tag (canton table : Nat) : AdmittedSeq.key ⟨canton, table, tag &&& 0x7FFFF, rows⟩ =
    if tag.getLsbD 12 then 4096 else bitsN tag.toNat 11 0 := by
  have hbit : (tag &&& 0x7FFFF).getLsbD 12 = tag.getLsbD 12 := by simp
  have hlow : bitsN (tag &&& 0x7FFFF).toNat 11 0 = bitsN tag.toNat 11 0 := by
    have : (tag &&& 0x7FFFF).toNat = tag.toNat % 2 ^ 19 := by
      rw [BitVec.toNat_and]
      exact Nat.and_two_pow_sub_one_eq_mod tag.toNat 19
    unfold bitsN
    rw [this]
    simp
  unfold AdmittedSeq.key
  simp only [hbit, hlow]

/-- The segment of a micro-batch of one sequence, as the segment table holds it. -/
theorem segment_value_lt (hr : rows ≤ 65536) :
    (rows - 1) * 2 ^ 16 + (if tag.getLsbD 12 then 2 ^ 44 else bitsN tag.toNat 11 0 * 2 ^ 32) < 256 ^ 8 := by
  have hlow : bitsN tag.toNat 11 0 < 4096 := by unfold bitsN; omega
  split <;> omega

theorem segmentTable_singleton (canton : Nat) : segmentTable table [⟨canton, table.val, tag &&& 0x7FFFF, rows⟩] =
    leBytes 2 1 ++ leBytes 1 table ++ List.replicate 5 0 ++ leBytes 8 ((rows - 1) * 2 ^ 16 +
      (if tag.getLsbD 12 then 2 ^ 44 else bitsN tag.toNat 11 0 * 2 ^ 32)) := by
  have hlow : bitsN tag.toNat 11 0 ≠ 4096 := by unfold bitsN; omega
  unfold segmentTable
  rw [segmentsOf_singleton, key_of_tag]
  cases tag.getLsbD 12 <;> simp [hlow]

theorem rowTags_singleton (a : AdmittedSeq) : rowTags [a] = (List.replicate a.rows (leBytes 4 a.tag.toNat)).flatten := by
  simp [rowTags]

theorem batchWritten_singleton_gives {a : AdmittedSeq} (ha : a = ⟨k.val, table.val, tag &&& 0x7FFFF, rows⟩)
    (hr : rows ≤ 65536) (htags : s.placeOf tags.toNat = .dram k) (hsegs : s.placeOf segs.toNat = .dram k)
    (hapart : Apart tags.toNat (4 * rows) segs.toNat 16) :
    StoredAt (s.batchWritten k table [a] tags segs) tags.toNat (rowTags [a]) ∧
    StoredAt (s.batchWritten k table [a] tags segs) segs.toNat (segmentTable table [a]) := by
  have hlen : (rowTags [a]).length = 4 * rows := by
    rw [rowTags_singleton, ha]
    simp [leBytes_length, Nat.mul_comm]
  have hseglen : (segmentTable table [a]).length = 16 := by
    rw [ha, segmentTable_singleton]
    simp [leBytes_length]
  obtain ⟨hfirst, -, hplace⟩ := putNow_dram_gives (src := s.svcDie k) (bs := rowTags [a])
    ((placeOf_batchNoted s k [a] tags.toNat).trans htags)
  obtain ⟨hsecond, houtside, -⟩ := putNow_dram_gives (src := s.svcDie k) (bs := segmentTable table [a])
    ((hplace segs.toNat).trans ((placeOf_batchNoted s k [a] segs.toNat).trans hsegs))
  refine ⟨hfirst.congr fun i hi => houtside _ ?_, hsecond⟩
  unfold Apart at hapart
  omega

/-! ### What the data loader does with a sequence -/

/-- A sequence that begins a micro-batch: the tag of each of its rows, and a segment table of one segment. -/
theorem sequenceAdmit_fresh_gives (h : s.admits k table tag = true) (hr : rows ≤ 65536)
    (htags : s.placeOf tags.toNat = .dram k) (hsegs : s.placeOf segs.toNat = .dram k)
    (hapart : Apart tags.toNat (4 * rows) segs.toNat 16) :
    Yields (exec (.sequenceAdmit k table tag ⟨rows, true, tags, segs⟩) s) (fun t =>
      (∃ a : AdmittedSeq, t.admitted = s.admitted.filter (fun (b : AdmittedSeq) => b.canton != k.val) ++ [a] ∧
        a.tag = tag &&& 0x7FFFF ∧ a.rows = rows ∧ a.table = table.val) ∧
      t.resp = .done ∧ (∀ i, i < rows → t.num (tags.toNat + 4 * i) 4 = (tag &&& 0x7FFFF).toNat) ∧
      t.num segs.toNat 2 = 1 ∧ t.num (segs.toNat + 2) 1 = table.val ∧
      t.num (segs.toNat + 8) 8 = (rows - 1) * 2 ^ 16 +
        (if tag.getLsbD 12 then 2 ^ 44 else bitsN tag.toNat 11 0 * 2 ^ 32)) := by
  obtain ⟨hrows, hseg⟩ := batchWritten_singleton_gives (s := s) (table := table) (tag := tag) rfl hr htags hsegs hapart
  have hloader := batchWritten_loader s k table [⟨k.val, table.val, tag &&& 0x7FFFF, rows⟩] tags segs
  rw [segmentTable_singleton] at hseg
  rw [rowTags_singleton] at hrows
  refine ⟨_, exec_sequenceAdmit_fresh h, ⟨_, congrArg Prod.fst hloader, rfl, rfl, rfl⟩, congrArg Prod.snd hloader,
    fun i hi => ?_, ?_, ?_, ?_⟩
  · have hrow := hrows.flatten (n := 4) (fun x hx => by rw [List.eq_of_mem_replicate hx, leBytes_length])
      (i := i) (by simpa using hi)
    rw [List.getElem_replicate] at hrow
    exact hrow.num.trans (Nat.mod_eq_of_lt (tag &&& 0x7FFFF).isLt)
  · exact hseg.left.left.left.num
  · have htable := hseg.left.left.right.num
    rw [leBytes_length] at htable
    exact htable.trans (Nat.mod_eq_of_lt (by omega))
  · exact hseg.right.num.trans (Nat.mod_eq_of_lt (segment_value_lt hr))

/-- A sequence that joins the micro-batch under way of its canton. -/
theorem sequenceAdmit_joins_gives {mine : List AdmittedSeq} (h : s.admits k table tag = true)
    (hm : s.admitted.filter (fun (b : AdmittedSeq) => b.canton == k.val) = mine) (hr : rowsOf mine + rows ≤ 65536)
    (hsegs : (segmentsOf (placeSeq mine ⟨k.val, table.val, tag &&& 0x7FFFF, rows⟩)).length ≤ 1024)
    (ht : ∀ b ∈ mine, b.table = table.val) :
    Yields (exec (.sequenceAdmit k table tag ⟨rows, false, tags, segs⟩) s) (fun t =>
      t.admitted = s.admitted.filter (fun (b : AdmittedSeq) => b.canton != k.val) ++
        placeSeq mine ⟨k.val, table.val, tag &&& 0x7FFFF, rows⟩ ∧ t.resp = .done) := by
  have hloader := batchWritten_loader s k table (placeSeq mine ⟨k.val, table.val, tag &&& 0x7FFFF, rows⟩) tags segs
  exact ⟨_, exec_sequenceAdmit_joins h hm (by rwa [rowsOf_placeSeq]) hsegs ht, congrArg Prod.fst hloader,
    congrArg Prod.snd hloader⟩

/-- A sequence that is not admitted is dropped. -/
theorem sequenceAdmit_dropped_gives (h : s.admits k table tag = false) (fresh : Bool) :
    Yields (exec (.sequenceAdmit k table tag ⟨rows, fresh, tags, segs⟩) s) (fun t =>
      (∃ e : Event, t.events = s.events ++ [e] ∧ e.code = 0x5230) ∧ t = { s with events := t.events }) :=
  ⟨_, exec_sequenceAdmit_dropped h fresh, ⟨_, rfl, rfl⟩, rfl⟩

end

end Sys2Proof.Machine
end

section
/-! Adapter drains queued (R219, R221, R222). -/
namespace Sys2Proof.Machine

section
variable {s : State} {d : Fin 40} {q : Fin 4}

/-! ### TAIL moved -/

theorem rd_qSync (s : State) (d : Fin 40) (q : Fin 4) {a : Nat} (h : a ≠ R.SEQ_Q_STATUS d q) :
    (s.qSync d q).rd a = s.rd a :=
  (State.rd_put_of_ne _ _ _ h).trans (State.rd_put_of_ne _ _ _ h)

/-- TAIL exposes commands where the ring holds them; no memory changes. -/
theorem queueTail_gives {tail : Nat} (hoff : s.dieOff d = false) (ht : tail < 2 ^ 16)
    (hroom : (tail + 2 ^ 16 - s.qHead d q) % 2 ^ 16 ≤ s.qSize d q) :
    (s.queueTail d q tail).qTail d q = tail ∧ (s.queueTail d q tail).mem = s.mem ∧
      OnlyRegs [R.SEQ_Q_TAIL d q, R.SEQ_Q_STATUS d q] s (s.queueTail d q tail) := by
  have heq : s.queueTail d q tail = (s.put (R.SEQ_Q_TAIL d q) F.SEQ_Q_TAIL_INDEX tail).qSync d q := by
    unfold State.queueTail
    rw [if_neg (by simp [hoff]), if_neg (Nat.not_lt.mpr hroom)]
  have hne : R.SEQ_Q_TAIL d q ≠ R.SEQ_Q_STATUS d q := by
    unfold R.SEQ_Q_TAIL R.SEQ_Q_STATUS
    omega
  rw [heq]
  refine ⟨?_, rfl, fun a ha => ?_⟩
  · rw [State.qTail, get_congr (rd_qSync _ d q hne), State.get_put_self _ _ _ _ (by decide) (by decide)]
    exact Nat.mod_eq_of_lt ht
  · obtain ⟨h1, h2⟩ : a ≠ R.SEQ_Q_TAIL d q ∧ a ≠ R.SEQ_Q_STATUS d q := by simpa using ha
    rw [rd_qSync _ d q h2, State.rd_put_of_ne _ _ _ h1]

theorem cmdAt_of_stored {t : State} {a : Nat} {w : Cmd} (h : StoredAt t a (leBytes 16 w.toNat)) : t.cmdAt a = w := by
  have hnum : t.num a 16 = w.toNat := h.num.trans (Nat.mod_eq_of_lt w.isLt)
  rw [State.cmdAt, hnum, BitVec.ofNat_toNat, BitVec.setWidth_eq]

/-! ### A command put into a ring -/

/-- Where the command at a ring's tail lies. -/
def State.ringSlot (s : State) (d : Fin 40) (q : Fin 4) : Nat := s.qBase d q + 16 * (s.qTail d q % s.qSize d q)

theorem ringPut_of_store {x off : Nat} {w : Cmd} (hp : s.placeOf (s.ringSlot d q) = .cd x off)
    (hc : (s.cd (fin40 x)).coversWindow off 16 = false) :
    s.ringPut d q (s.qTail d q) [w] = s.posted d (s.ringSlot d q) (leBytes 16 w.toNat) := by
  have hring : s.ringPut d q (s.qTail d q) [w] = s.putNow d (s.ringSlot d q) (leBytes 16 w.toNat) := by
    rw [State.ringPut, List.zipIdx_singleton, List.foldl_cons, List.foldl_nil, Nat.add_zero, State.ringSlot]
  have hcov : (s.cd (fin40 x)).coversWindow off (leBytes 16 w.toNat).length = false := by rwa [leBytes_length]
  exact hring.trans ((putNow_of_cd hp).trans (mpaWrite_of_store hp hcov))

/-- A command put at a ring's tail in a store: its word stands there, and memory outside is as before. -/
theorem ringPut_gives {x off : Nat} {w : Cmd} (hp : s.placeOf (s.ringSlot d q) = .cd x off)
    (hc : (s.cd (fin40 x)).coversWindow off 16 = false) :
    StoredAt (s.ringPut d q (s.qTail d q) [w]) (s.ringSlot d q) (leBytes 16 w.toNat) ∧
      MemOutside (s.ringSlot d q) 16 s (s.ringPut d q (s.qTail d q) [w]) ∧
      (s.ringPut d q (s.qTail d q) [w]).regs = s.regs ∧ (s.ringPut d q (s.qTail d q) [w]).dieOff d = s.dieOff d := by
  have haligned : s.ringSlot d q % 4 = 0 := by
    unfold State.ringSlot State.qBase
    omega
  rw [ringPut_of_store hp hc]
  have hlen := leBytes_length 16 w.toNat
  have hregs : (s.posted d (s.ringSlot d q) (leBytes 16 w.toNat)).regs = s.regs := by rw [posted_eq]
  have hres : (s.posted d (s.ringSlot d q) (leBytes 16 w.toNat)).inReset = s.inReset := by rw [posted_eq]
  have hdead : (s.posted d (s.ringSlot d q) (leBytes 16 w.toNat)).deadDies = s.deadDies := by rw [posted_eq]
  refine ⟨storedAt_posted fun i hi => mergeLost_of_words haligned (by rw [hlen]) hi, ?_, hregs,
    dieOff_congr (fun a _ => by rw [State.rd, hregs]; rfl) hres hdead d⟩
  have h := memOutside_posted (s := s) (src := d) (a := s.ringSlot d q) (bs := leBytes 16 w.toNat)
  rwa [hlen] at h

/-! ### An adapter drain asked for -/

variable {table : Fin 16} {variant : BitVec 12} {w : Cmd} {v : VariantTable} {e : List Byte}

/-- The entry that a drain asks for is in an active table of the die's canton. -/
def State.HasEntry (s : State) (d : Fin 40) (table : Fin 16) (variant : BitVec 12) (v : VariantTable) (e : List Byte) : Prop :=
  s.tableOf ⟨s.cdCanton d % 8, Nat.mod_lt _ (by decide)⟩ table = some v ∧ variant.toNat < v.nvar ∧
    s.variantEntry v variant.toNat = e

/-- What is done with a drain whose entry there is. -/
theorem exec_adapterDrainRequest (h : s.HasEntry d table variant v e) :
    exec (.adapterDrainRequest d q table variant w) s =
      if s.drainRight d e w = false then .next (s.raise 0x5431 d (some (s.cdCanton d % 8))
        (s.svcDetail (s.cdCanton d % 8) table variant.toNat))
      else if (fieldAt e 14 1).testBit 7 then .next s
      else .next ((s.ringPut d q (s.qTail d q) [w]).queueTail d q ((s.qTail d q + 1) % 65536)) := by
  obtain ⟨htab, hlt, hent⟩ := h
  change execAdapterDrainRequest d q table variant w s = _
  unfold execAdapterDrainRequest
  simp only [htab, Option.bind_some, hlt, if_true, hent]

theorem adapterDrainRequest_queued {x off : Nat} (h : s.HasEntry d table variant v e) (hoff : s.dieOff d = false)
    (hr : s.drainRight d e w = true) (hf : (fieldAt e 14 1).testBit 7 = false)
    (hp : s.placeOf (s.ringSlot d q) = .cd x off) (hc : (s.cd (fin40 x)).coversWindow off 16 = false)
    (hroom : (s.qTail d q + 1 + 2 ^ 16 - s.qHead d q) % 2 ^ 16 ≤ s.qSize d q) :
    Yields (exec (.adapterDrainRequest d q table variant w) s) (fun t =>
      t.qTail d q = (s.qTail d q + 1) % 2 ^ 16 ∧ t.cmdAt (s.ringSlot d q) = w ∧ MemOutside (s.ringSlot d q) 16 s t ∧
        OnlyRegs [R.SEQ_Q_TAIL d q, R.SEQ_Q_STATUS d q] s t) := by
  have hexec := exec_adapterDrainRequest (q := q) (w := w) h
  rw [hr, hf, if_neg (by decide), if_neg (by decide)] at hexec
  obtain ⟨hstored, houtside, hregs, hdie⟩ := ringPut_gives (w := w) hp hc
  have hrd (a : Nat) : (s.ringPut d q (s.qTail d q) [w]).rd a = s.rd a := by rw [State.rd, hregs]; rfl
  have hhead : (s.ringPut d q (s.qTail d q) [w]).qHead d q = s.qHead d q := get_congr (hrd _) _
  have hsize : (s.ringPut d q (s.qTail d q) [w]).qSize d q = s.qSize d q := by
    rw [State.qSize, get_congr (hrd _)]; rfl
  have hlt : s.qHead d q < 2 ^ 16 := get_lt s _ _
  obtain ⟨htail, hmem, honly⟩ := queueTail_gives (q := q) (tail := (s.qTail d q + 1) % 65536) (hdie.trans hoff)
    (by omega) (by rw [hhead, hsize]; omega)
  refine ⟨_, hexec, htail, cmdAt_of_stored (hstored.congr fun i _ => State.byte_congr hmem _),
    fun b hb => (State.byte_congr hmem b).trans (houtside b hb), fun a ha => (honly a ha).trans (hrd a)⟩

theorem adapterDrainRequest_skipped (h : s.HasEntry d table variant v e) (hr : s.drainRight d e w = true)
    (hf : (fieldAt e 14 1).testBit 7 = true) : exec (.adapterDrainRequest d q table variant w) s = .next s := by
  rw [exec_adapterDrainRequest h, hr, hf]
  rfl

theorem adapterDrainRequest_refused (h : s.HasEntry d table variant v e) (hr : s.drainRight d e w = false) :
    Yields (exec (.adapterDrainRequest d q table variant w) s) (fun t =>
      (∃ e : Event, t.events = s.events ++ [e] ∧ e.code = 0x5431 ∧ e.die = d.val) ∧ t = { s with events := t.events }) := by
  rw [exec_adapterDrainRequest h, if_pos hr]
  exact ⟨_, rfl, ⟨_, rfl, rfl, rfl⟩, rfl⟩

end

end Sys2Proof.Machine
end

section
/-! Work held for unseeded generators goes on (R66); training firmware's tables (O23). -/
namespace Sys2Proof.Machine

section
variable {s : State}

/-! ### A vector engine's hold lifted -/

variable {d : Fin 40} {e : UCmd}

/-- The hold of a vector engine lifted. -/
def State.veUnheld (s : State) (d : Fin 40) : State := s.put (R.VE_STATUS d) F.VE_STATUS_SRHOLD 0

theorem rd_veUnheld_of_ne (s : State) {d : Fin 40} {a : Nat} (h : a ≠ R.VE_STATUS d) : (s.veUnheld d).rd a = s.rd a :=
  State.rd_put_of_ne _ _ _ h

theorem rd_veUnheld_of_lt (s : State) (d : Fin 40) {a : Nat} (h : a < 0x100000) : (s.veUnheld d).rd a = s.rd a :=
  rd_veUnheld_of_ne s (by unfold R.VE_STATUS cdBase; omega)

theorem cd_veUnheld (s : State) (d x : Fin 40) : (s.veUnheld d).cd x = s.cd x := State.cd_put ..

theorem dieOff_veUnheld (s : State) (d : Fin 40) (k : Nat) : (s.veUnheld d).dieOff k = s.dieOff k := by
  have hres : (s.veUnheld d).inReset = s.inReset := State.put_inReset ..
  have hdead : (s.veUnheld d).deadDies = s.deadDies := State.put_deadDies ..
  exact dieOff_congr (fun a ha => rd_veUnheld_of_lt s d ha) hres hdead k

/-- When an instruction makes its last write does not turn on the hold. -/
theorem veLast_veUnheld (s : State) (d : Fin 40) (w : Cmd) : (s.veUnheld d).veLast d w = s.veLast d w := by
  have haclk : (s.veUnheld d).aclk = s.aclk := by rw [State.aclk, State.veUnheld, State.put_now, State.aclk]
  have hve : (s.veUnheld d).ve d = s.ve d := by rw [State.ve, cd_veUnheld, State.ve]
  have hthrottled : (s.veUnheld d).throttled = s.throttled := by
    rw [State.throttled, State.flag, get_congr (rd_veUnheld_of_lt s d (by decide)), State.throttled, State.flag]
  simp only [State.veLast, State.veStart, State.veCycles, haclk, hve, hthrottled]

theorem exec_seedWaitRelease_cd (hoff : s.dieOff d = false)
    (hseed : s.flag (R.ARITH_SR_STATUS (cdBase d)) F.ARITH_SR_STATUS_SEEDED = true)
    (hheld : s.flag (R.VE_STATUS d) F.VE_STATUS_SRHOLD = true) :
    exec (.seedWaitRelease ⟨d.val, by omega⟩) s = .next ((s.veUnheld d).veHead d []) := by
  change execSeedWaitRelease ⟨d.val, _⟩ s = _
  unfold execSeedWaitRelease
  simp only [hoff, Bool.false_eq_true, if_false, d.isLt, if_true, hseed, hheld, Bool.and_self, fin40_val]
  rfl

/-- A conversion held for unseeded generators runs once they are seeded. -/
theorem seedWaitRelease_cd_gives (hseed : s.flag (R.ARITH_SR_STATUS (cdBase d)) F.ARITH_SR_STATUS_SEEDED = true)
    (hheld : s.flag (R.VE_STATUS d) F.VE_STATUS_SRHOLD = true) (hhead : s.head? d veUnit = some e)
    (hop : isUnit e.w 4 0x1E = true) (h : VeReady (s.veUnheld d) d e.q e.w []) :
    Yields (exec (.seedWaitRelease ⟨d.val, by omega⟩) s) (fun t =>
      (t.cd d).fifo veUnit = ((s.cd d).fifo veUnit).tail ∧
      (t.cd d).due = (s.cd d).due ++ sigDue e.q e.w (s.veLast d e.w + 1) ∧
      (∀ b, ¬ VeWrites d e.w b → t.byte b = s.byte b) ∧ OnlyRegs (veRegs d) s t ∧
      t.flag (R.VE_STATUS d) F.VE_STATUS_SRHOLD = false) := by
  have hfirst : (s.veUnheld d).head? d veUnit = some e := by rw [State.head?, cd_veUnheld]; exact hhead
  obtain ⟨x, hx, -, -, hquiet⟩ := h.head
  obtain rfl : e = x := Option.some.inj (hfirst.symm.trans hx)
  obtain ⟨hfifo, hdue, hbyte, hregs, hflag⟩ := veHead_cvt h hfirst hquiet (opcodeOf_of_isUnit hop)
  rw [cd_veUnheld] at hfifo hdue
  rw [veLast_veUnheld] at hdue
  refine ⟨_, exec_seedWaitRelease_cd ((dieOff_veUnheld s d d).symm.trans h.runs) hseed hheld, hfifo, hdue,
    fun b hb => (hbyte b hb).trans (State.byte_put ..), fun a ha => (hregs a ha).trans (rd_veUnheld_of_ne s ?_), hflag⟩
  rintro rfl
  exact ha List.mem_cons_self

/-! ### An update engine's hold lifted -/

theorem seedWaitRelease_md_gives {m : Fin 16} (hoff : s.dieOff (40 + m.val) = false)
    (hseed : s.flag (R.ARITH_SR_STATUS (mdBase m)) F.ARITH_SR_STATUS_SEEDED = true)
    (hopen : (s.sx m).openWaits = false) (hreb : (s.sx m).rebases = []) :
    Yields (exec (.seedWaitRelease ⟨40 + m.val, by omega⟩) s) (fun t =>
      t.flag (R.UE_STATUS m) F.UE_STATUS_SRHOLD = false ∧ OnlyRegs [R.UE_STATUS m] s t ∧ t = { s with regs := t.regs }) := by
  have hrelease : s.releaseMd m = s.put (R.UE_STATUS m) F.UE_STATUS_SRHOLD 0 := by
    have hsx : (s.put (R.UE_STATUS m) F.UE_STATUS_SRHOLD 0).sx m = s.sx m := rfl
    unfold State.releaseMd
    simp only [hsx, hopen, hreb, Bool.false_eq_true, if_false, List.foldl_nil]
  have hexec : exec (.seedWaitRelease ⟨40 + m.val, by omega⟩) s = .next (s.put (R.UE_STATUS m) F.UE_STATUS_SRHOLD 0) := by
    have hm : fin16 (40 + m.val - 40) = m := Fin.ext (by simp only [fin16]; omega)
    change execSeedWaitRelease ⟨40 + m.val, _⟩ s = _
    unfold execSeedWaitRelease
    rw [if_neg (by simp [hoff]), if_neg (by simp), if_pos (by simp; omega), if_pos (by simpa using hseed), hm, hrelease]
  refine ⟨_, hexec, ?_, fun a ha => State.rd_put_of_ne _ _ _ (by simpa using ha), rfl⟩
  rw [State.flag, State.get_put_self _ _ _ _ (by decide) (by decide)]
  rfl

end

/-- Settles O23: each step of training firmware by the fields that its writes leave, a write into DRAM at once changing
nothing else but the seal engines' counters. -/
theorem trainingFirmwareActsOnItsTables : Obligations.TrainingFirmwareActsOnItsTables := by
  unfold Obligations.TrainingFirmwareActsOnItsTables
  exact ⟨
    fun s d q base fresh copy hs hf =>
      ⟨fun _ _ h => ⟨_, exec_keptInputRebuild_lost hs hf h, rfl⟩,
        fun _ _ hp hc hb hl => keptInputRebuild_copied_gives hs hf hp hc hb hl⟩,
    fun s k addr h es hh ha hok hes hp hend hent htab hlim =>
      variantTableActivate_gives hh ha hok hes hp hend hent htab hlim,
    fun s k table tag rows tags segs =>
      ⟨fun h _ hr htags hsegs hapart => sequenceAdmit_fresh_gives h hr htags hsegs hapart,
        fun h _ mine hm hr hsegs ht => sequenceAdmit_joins_gives h hm hr hsegs ht,
        fun h fresh => sequenceAdmit_dropped_gives h fresh⟩,
    fun s d q table variant w v e x off hoff htab hlt hent =>
      ⟨fun hr hf hp hc hroom => adapterDrainRequest_queued ⟨htab, hlt, hent⟩ hoff hr hf hp hc hroom,
        fun hr hf => adapterDrainRequest_skipped ⟨htab, hlt, hent⟩ hr hf,
        fun hr => adapterDrainRequest_refused ⟨htab, hlt, hent⟩ hr⟩,
    fun s d e hseed hheld hhead hop h => seedWaitRelease_cd_gives hseed hheld hhead hop h,
    fun s m hoff hseed hopen hreb => seedWaitRelease_md_gives hoff hseed hopen hreb⟩

end Sys2Proof.Machine
end

section
/-! A command taken from the head of an array's FIFO: what taking it and issuing the open batch change (O9). -/
namespace Sys2Proof.Machine

/-- The second state differs from the first in compute dies and in the listed registers alone. -/
structure ArrayStep (as : List Nat) (s t : State) : Prop where
  regs : OnlyRegs as s t
  frame : t = { s with regs := t.regs, cds := t.cds }

namespace ArrayStep
variable {as : List Nat} {s t u : State} {d : Fin 40} {a : Fin 4}

theorem refl (s : State) : ArrayStep as s s := ⟨fun _ _ => rfl, rfl⟩

theorem trans (h : ArrayStep as s t) (k : ArrayStep as t u) : ArrayStep as s u :=
  ⟨fun x hx => (k.regs x hx).trans (h.regs x hx), by rw [k.frame, h.frame]⟩

theorem setCd (h : ArrayStep as s t) (c : CDie) : ArrayStep as s (t.setCd d c) := h.trans ⟨fun _ _ => rfl, rfl⟩

theorem setMa (h : ArrayStep as s t) (m : MArray) : ArrayStep as s (t.setMa d a m) := h.setCd _

theorem put (h : ArrayStep as s t) {x : Nat} (hx : x ∈ as) (f : Fld) (n : Nat) : ArrayStep as s (t.put x f n) :=
  h.trans ⟨fun _ hy => State.rd_put_of_ne t f n fun he => hy (he ▸ hx), rfl⟩

theorem maSync (h : ArrayStep as s t) (hs : R.MA_STATUS d a ∈ as) (hc : R.MA_COLL d a ∈ as) :
    ArrayStep as s (t.maSync d a) :=
  (((h.put hs _ _).put hs _ _).put hs _ _).put hc _ _

theorem completeAt (h : ArrayStep as s t) (e : UCmd) (n : Nat) : ArrayStep as s (t.completeAt d e n) := by
  unfold State.completeAt
  split
  · exact h
  · exact h.setCd _

theorem complete (h : ArrayStep as s t) (e : UCmd) : ArrayStep as s (t.complete d e) := h.completeAt e _

theorem aclk (h : ArrayStep as s t) : t.aclk = s.aclk := by rw [h.frame]; rfl

/-- A command completed in a step of this cycle sends its increment in the next one (R165). -/
theorem due_complete (h : ArrayStep as s t) {e : UCmd} (he : e.quiet = false) :
    ((t.complete d e).cd d).due = (t.cd d).due ++ sigDue e.q e.w (s.aclk + 1) := by
  rw [State.complete, State.cd_completeAt _ he, h.aclk]

end ArrayStep

section
variable (s : State) (d : Fin 40) (a : Fin 4)

/-! ### Arrays, FIFOs, increments due and the cycle -/

@[simp] theorem State.cd_maSync (x : Fin 40) : (s.maSync d a).cd x = s.cd x := rfl

@[simp] theorem State.ma_maSync : (s.maSync d a).ma d a = s.ma d a := rfl

@[simp] theorem State.ma_put (x : Nat) (f : Fld) (n : Nat) : (s.put x f n).ma d a = s.ma d a := rfl

@[simp] theorem State.aclk_setMa (m : MArray) : (s.setMa d a m).aclk = s.aclk := rfl

@[simp] theorem State.aclk_put (x : Nat) (f : Fld) (n : Nat) : (s.put x f n).aclk = s.aclk := rfl

theorem State.ma_completeAt (e : UCmd) (n : Nat) : (s.completeAt d e n).ma d a = s.ma d a := by
  unfold State.completeAt
  split
  · rfl
  · simp [State.ma]

@[simp] theorem State.fifo_setMa (m : MArray) (u : Fin 8) : ((s.setMa d a m).cd d).fifo u = (s.cd d).fifo u := by
  simp [State.setMa, CDie.fifo]

@[simp] theorem State.due_setMa (m : MArray) : ((s.setMa d a m).cd d).due = (s.cd d).due := by
  simp [State.setMa]

@[simp] theorem State.fifo_popHead (u : Fin 8) : ((s.popHead d u).cd d).fifo u = ((s.cd d).fifo u).tail := by
  simp [State.popHead, CDie.fifo, CDie.setFifo]

@[simp] theorem State.due_popHead (u : Fin 8) : ((s.popHead d u).cd d).due = (s.cd d).due := by
  simp [State.popHead, CDie.setFifo]

theorem State.fifo_completeAt (e : UCmd) (n : Nat) (u : Fin 8) :
    ((s.completeAt d e n).cd d).fifo u = (s.cd d).fifo u := by
  unfold State.completeAt
  split
  · rfl
  · simp [CDie.fifo]

/-- The registers of an array that taking a command can change. -/
def maTakeRegs (d : Fin 40) (a : Fin 4) : List Nat := [R.MA_STATUS d a, R.MA_COLL d a, R.MA_COLL_TIMER d a]

/-! ### The open batch issued (R104, R105) -/

/-- What issuing the open batch leaves alone: the places of hoists, the configuration, the die's FIFOs and increments
due. -/
structure BatchIssued (s u : State) (d : Fin 40) (a : Fin 4) : Prop where
  step : ArrayStep (maTakeRegs d a) s u
  waiting : (u.ma d a).waiting = (s.ma d a).waiting
  hoists : (u.ma d a).hoists = (s.ma d a).hoists
  cfg : (u.ma d a).coll.cfg = (s.ma d a).coll.cfg
  fifo : ∀ v, (u.cd d).fifo v = (s.cd d).fifo v
  due : (u.cd d).due = (s.cd d).due

theorem issueBatch_of_no_rows {s : State} {d : Fin 40} {a : Fin 4} (h : (s.ma d a).coll.rows = []) :
    s.issueBatch d a = s := by
  unfold State.issueBatch
  simp only [h]

theorem issueBatch_of_no_cfg {s : State} {d : Fin 40} {a : Fin 4} (h : (s.ma d a).coll.cfg = none) :
    s.issueBatch d a = s := by
  cases hrows : (s.ma d a).coll.rows with
  | nil => exact issueBatch_of_no_rows hrows
  | cons r rs =>
    unfold State.issueBatch
    simp only [hrows, h]

/-- An issued batch is a change of the array's passes and rows, and of its registers. -/
theorem issueBatch_eq_setMa {s : State} {d : Fin 40} {a : Fin 4} {cfg : Cmd} (hcfg : (s.ma d a).coll.cfg = some cfg)
    (hrows : (s.ma d a).coll.rows ≠ []) :
    ∃ f i, s.issueBatch d a = ((((s.setMa d a { s.ma d a with
        passes := (s.ma d a).passes + 1, coll := { (s.ma d a).coll with rows := [] }, feeding := f, issued := i }).put
          (R.MA_COLL d a) F.MA_COLL_BUF (1 - s.get (R.MA_COLL d a) F.MA_COLL_BUF)).bumpWrap
          (R.MA_COLL d a) F.MA_COLL_BATCHES 1).put (R.MA_COLL_TIMER d a) F.MA_COLL_TIMER_WAITED 0).maSync d a := by
  obtain ⟨r, rs, hl⟩ := List.exists_cons_of_ne_nil hrows
  unfold State.issueBatch
  simp only [hl, hcfg]
  cases hf : (s.ma d a).feeding with
  | none => exact ⟨_, _, rfl⟩
  | some f => exact ⟨_, _, rfl⟩

theorem issueBatch_keeps : BatchIssued s (s.issueBatch d a) d a := by
  by_cases hrows : (s.ma d a).coll.rows = []
  · rw [issueBatch_of_no_rows hrows]
    exact ⟨.refl s, rfl, rfl, rfl, fun _ => rfl, rfl⟩
  cases hcfg : (s.ma d a).coll.cfg with
  | none =>
    rw [issueBatch_of_no_cfg hcfg]
    exact ⟨.refl s, rfl, rfl, rfl, fun _ => rfl, rfl⟩
  | some cfg =>
    obtain ⟨-, -, hregs, hframe⟩ := issueBatch_gives hcfg hrows
    refine ⟨⟨hregs, hframe⟩, ?_, ?_, ?_, fun v => ?_, ?_⟩ <;>
    · obtain ⟨f, i, h⟩ := issueBatch_eq_setMa hcfg hrows
      simp [h, State.bumpWrap]

theorem rows_issueBatch {s : State} {d : Fin 40} {a : Fin 4} {cfg : Cmd} (hcfg : (s.ma d a).coll.cfg = some cfg) :
    ((s.issueBatch d a).ma d a).coll.rows = [] := by
  by_cases hrows : (s.ma d a).coll.rows = []
  · rw [issueBatch_of_no_rows hrows, hrows]
  · exact (issueBatch_gives hcfg hrows).1

/-- Bringing the status up to date leaves the fields of MA_COLL above ROWS. -/
theorem get_maColl_maSync {f : Fld} (hrows : 7 < f.2) (h32 : f.1 < 32) :
    (s.maSync d a).get (R.MA_COLL d a) f = s.get (R.MA_COLL d a) f := by
  have hne : R.MA_COLL d a ≠ R.MA_STATUS d a := (maStatus_ne_maColl d a).symm
  unfold State.maSync
  rw [State.get_put_of_disjoint _ _ _ _ _ (by decide) h32 (.inl hrows), State.get_put_of_ne _ _ _ _ hne,
    State.get_put_of_ne _ _ _ _ hne, State.get_put_of_ne _ _ _ _ hne]

/-- An issued batch leaves the next one the other buffer (R105). -/
theorem buf_issueBatch {s : State} {d : Fin 40} {a : Fin 4} {cfg : Cmd} (hcfg : (s.ma d a).coll.cfg = some cfg)
    (hrows : (s.ma d a).coll.rows ≠ []) :
    (s.issueBatch d a).get (R.MA_COLL d a) F.MA_COLL_BUF = 1 - s.get (R.MA_COLL d a) F.MA_COLL_BUF := by
  obtain ⟨f, i, h⟩ := issueBatch_eq_setMa hcfg hrows
  have hne : R.MA_COLL d a ≠ R.MA_COLL_TIMER d a := by unfold R.MA_COLL R.MA_COLL_TIMER; omega
  rw [h, get_maColl_maSync _ d a (by decide) (by decide), State.get_put_of_ne _ _ _ _ hne, State.bumpWrap,
    State.get_put_of_disjoint _ _ _ _ _ (by decide) (by decide) (by decide),
    State.get_put_self _ _ _ _ (by decide) (by decide)]
  exact Nat.mod_eq_of_lt (by change _ < 2; omega)

/-! ### A command taken from the FIFO -/

/-- The command at the head of the FIFO taken away, and the array replaced. -/
def State.takes (s : State) (d : Fin 40) (a : Fin 4) (m : MArray) : State := (s.popHead d (maUnit a)).setMa d a m

@[simp] theorem State.ma_takes (m : MArray) : (s.takes d a m).ma d a = m := State.ma_setMa_self _ _ _ _

@[simp] theorem State.fifo_takes (m : MArray) :
    ((s.takes d a m).cd d).fifo (maUnit a) = ((s.cd d).fifo (maUnit a)).tail :=
  (State.fifo_setMa _ d a m _).trans (State.fifo_popHead s d _)

@[simp] theorem State.due_takes (m : MArray) : ((s.takes d a m).cd d).due = (s.cd d).due :=
  (State.due_setMa _ d a m).trans (State.due_popHead s d _)

end

theorem ArrayStep.takes {as : List Nat} {s t : State} (h : ArrayStep as s t) (d : Fin 40) (a : Fin 4) (m : MArray) :
    ArrayStep as s (t.takes d a m) := (h.setCd _).setMa m

/-! ### The command at the head -/

/-- Command (q, w) stands at the head of the FIFO of an array that may take it: neither stopped nor off, and no command
taken in this cycle. -/
structure TakesHead (s : State) (d : Fin 40) (a q : Fin 4) (w : Cmd) (e : UCmd) : Prop where
  head : s.head? d (maUnit a) = some e
  queue : e.q = q
  word : e.w = w
  loud : e.quiet = false
  runs : (s.cd d).stopped[maUnit a] = false
  on : s.dieOff d = false
  free : (s.ma d a).accAt ≠ s.aclk + 1

section
variable {s : State} {d : Fin 40} {a q : Fin 4} {w : Cmd} {e : UCmd}

theorem maEnter_of_takesHead (h : TakesHead s d a q w e) : s.maEnter d a q w = s.maAccept d a := by
  have hwaits : (s.cd d).waits (maUnit a) q w = true :=
    List.any_eq_true.mpr ⟨e, List.mem_of_mem_head? h.head, by simp [h.queue, h.word]⟩
  have henter : s.enter d (maUnit a) q w = (s, true) := by
    simp [State.enter, State.atHead, h.on, hwaits, h.head, h.queue, h.word]
  rw [State.maEnter, henter, if_pos rfl]

/-- The command's own row and the acceptance step alike take it (R96). -/
theorem exec_of_takesHead (h : TakesHead s d a q w e) {c c' : Instr} (hc : c ∈ [c', .maCommandAccept d a])
    (hrow : exec c' s = .next (s.maEnter d a q w)) : exec c s = .next (s.maAccept d a) := by
  simp only [List.mem_cons, List.not_mem_nil, or_false] at hc
  obtain rfl | rfl := hc
  · rw [hrow, maEnter_of_takesHead h]
  · change execMaCommandAccept d a s = _
    rw [execMaCommandAccept, if_neg (by simp [h.on])]

theorem maAccept_hoist (h : TakesHead s d a q w e) (hop : isUnit w a 0x01 = true) (hfine : hoistCause w = none) :
    s.maAccept d a = (s.issueBatch d a).acceptHoist d a e := by
  have ho : opcodeOf w = 1 := opcodeOf_of_isUnit hop
  simp [State.maAccept, h.runs, h.free, h.head, ho, h.word, hfine]

theorem maAccept_pass (h : TakesHead s d a q w e) (hop : isUnit w a 0x02 = true) (hrows : (s.ma d a).coll.rows = [])
    (hfine : passCause (s.ma d a).lastHoist w = none) : s.maAccept d a = s.acceptPass d a e := by
  have ho : opcodeOf w = 2 := opcodeOf_of_isUnit hop
  simp [State.maAccept, h.runs, h.free, h.head, ho, h.word, issueBatch_of_no_rows hrows, hfine]

theorem maAccept_ccfg (h : TakesHead s d a q w e) (hop : isUnit w a 0x03 = true) (hfine : ccfgCause w = none) :
    s.maAccept d a = (s.issueBatch d a).acceptCcfg d a e := by
  have ho : opcodeOf w = 3 := opcodeOf_of_isUnit hop
  simp [State.maAccept, h.runs, h.free, h.head, ho, h.word, hfine]

theorem maAccept_req (h : TakesHead s d a q w e) (hop : isUnit w a 0x04 = true) {cfg : Cmd}
    (hcfg : (s.ma d a).coll.cfg = some cfg) (hfine : reqCause (s.ma d a).lastHoist (s.ma d a).coll.cfg w = none) :
    s.maAccept d a = s.acceptReq d a e cfg := by
  have ho : opcodeOf w = 4 := opcodeOf_of_isUnit hop
  rw [hcfg] at hfine
  simp [State.maAccept, h.runs, h.free, h.head, ho, h.word, hcfg, hfine]

theorem maAccept_flush (h : TakesHead s d a q w e) (hop : isUnit w a 0x05 = true) (hfine : cbits w 127 16 = 0) :
    s.maAccept d a = (((s.issueBatch d a).popHead d (maUnit a)).complete d e).setMa d a
      { (s.issueBatch d a).ma d a with accAt := (s.issueBatch d a).aclk + 1 } := by
  have ho : opcodeOf w = 5 := opcodeOf_of_isUnit hop
  simp [State.maAccept, h.runs, h.free, h.head, ho, h.word, hfine]

end

end Sys2Proof.Machine
end

section
/-! The commands of an array taken one by one, and the statement (O9). -/
namespace Sys2Proof.Machine

section
variable {s : State} {d : Fin 40} {a q : Fin 4} {w : Cmd} {e : UCmd} {c : Instr}

theorem maStatus_mem_maTakeRegs : R.MA_STATUS d a ∈ maTakeRegs d a := by simp [maTakeRegs]

theorem maColl_mem_maTakeRegs : R.MA_COLL d a ∈ maTakeRegs d a := by simp [maTakeRegs]

theorem ArrayStep.maSync_takeRegs {t : State} (h : ArrayStep (maTakeRegs d a) s t) :
    ArrayStep (maTakeRegs d a) s (t.maSync d a) :=
  h.maSync maStatus_mem_maTakeRegs maColl_mem_maTakeRegs

/-! ### MA_HOIST (R113) -/

/-- An accepted hoist takes the free waiting place (R96). -/
theorem acceptHoist_of_free (hfree : (s.ma d a).waiting = none) :
    ∃ m : MArray, s.acceptHoist d a e = (s.takes d a m).maSync d a ∧
      (∃ g, m.waiting = some g ∧ g.e = e ∧ g.no = (s.ma d a).hoists + 1) ∧
      m.hoists = (s.ma d a).hoists + 1 ∧ m.lastHoist = some e.w := by
  unfold State.acceptHoist
  simp only [hfree]
  exact ⟨_, rfl, ⟨_, rfl, rfl, rfl⟩, rfl, rfl⟩

theorem hoist_taken (h : TakesHead s d a q w e) (hop : isUnit w a 0x01 = true) (hfine : hoistCause w = none)
    (hfree : (s.ma d a).waiting = none) (hc : c ∈ [.maHoist d a q w, .maCommandAccept d a]) :
    Yields (exec c s) (fun t =>
      (∃ g, (t.ma d a).waiting = some g ∧ g.e = e ∧ g.no = (s.ma d a).hoists + 1) ∧
      (t.ma d a).hoists = (s.ma d a).hoists + 1 ∧ (t.ma d a).lastHoist = some w ∧
      (t.cd d).fifo (maUnit a) = ((s.cd d).fifo (maUnit a)).tail ∧
      OnlyRegs (maTakeRegs d a) s t ∧ t = { s with regs := t.regs, cds := t.cds }) := by
  have k := issueBatch_keeps s d a
  obtain ⟨m, hm, hplace, hhoists, hlast⟩ := acceptHoist_of_free (e := e) (k.waiting.trans hfree)
  rw [k.hoists] at hplace hhoists
  have hstep := (k.step.takes d a m).maSync_takeRegs
  refine ⟨_, exec_of_takesHead h hc rfl, ?_⟩
  rw [maAccept_hoist h hop hfine, hm]
  refine ⟨?_, ?_, ?_, ?_, hstep.regs, hstep.frame⟩
  · rw [State.ma_maSync, State.ma_takes]
    exact hplace
  · rw [State.ma_maSync, State.ma_takes, hhoists]
  · rw [State.ma_maSync, State.ma_takes, hlast, h.word]
  · rw [State.cd_maSync, State.fifo_takes, k.fifo]

/-! ### MA_PASS (R114) -/

/-- The pass that an MA_PASS becomes (R114). -/
def State.passOf (s : State) (d : Fin 40) (a : Fin 4) (e : UCmd) : Pass :=
  { no := (s.ma d a).passes, hoist := (s.ma d a).hoists, e := e, slots := cbits e.w 45 36 + 1, fmt := cbits e.w 56 54,
    scaled := cbit e.w 57, aaddr := cbits e.w 35 16 * 64, stride := cbits e.w 53 46 * 64, saddr := cbits e.w 77 58 * 64,
    daddr := cbits e.w 97 78 * 64, gas := cbit e.w 98, acc := cbit e.w 99, zeroMasked := cbit e.w 100,
    maskAt := if cbit e.w 101 then some (cbits e.w 121 102 * 64) else none, lines := [], pos := 0, rows := [],
    batch := none, table := 0, hcmd := (s.ma d a).lastHoist.getD 0, own := none, endAt := 0 }

theorem acceptPass_of_idle (hfeed : (s.ma d a).feeding = none) (hheld : (s.ma d a).held = none)
    (hissued : (s.ma d a).issued = []) :
    s.acceptPass d a e = (s.takes d a { s.ma d a with
      feeding := some (s.passOf d a e), passes := (s.ma d a).passes + 1, accAt := s.aclk + 1 }).maSync d a := by
  unfold State.acceptPass
  simp only [hfeed, hheld, hissued]
  rfl

theorem acceptPass_of_feeding {p : Pass} (hfeed : (s.ma d a).feeding = some p) (hheld : (s.ma d a).held = none)
    (hissued : (s.ma d a).issued = []) :
    s.acceptPass d a e = (s.takes d a { s.ma d a with
      held := some (s.passOf d a e), passes := (s.ma d a).passes + 1, accAt := s.aclk + 1 }).maSync d a := by
  unfold State.acceptPass
  simp only [hfeed, hheld, hissued]
  rfl

/-- An accepted pass takes the feeding place of an idle array, or the held place behind a feeding pass (R96). -/
theorem acceptPass_eq (hheld : (s.ma d a).held = none) (hissued : (s.ma d a).issued = []) :
    ∃ m : MArray, s.acceptPass d a e = (s.takes d a m).maSync d a ∧
      ((s.ma d a).feeding = none → m.feeding = some (s.passOf d a e)) ∧
      ((s.ma d a).feeding ≠ none → m.feeding = (s.ma d a).feeding ∧ m.held = some (s.passOf d a e)) := by
  cases hfeed : (s.ma d a).feeding with
  | none => exact ⟨_, acceptPass_of_idle hfeed hheld hissued, fun _ => rfl, fun hn => absurd rfl hn⟩
  | some p => exact ⟨_, acceptPass_of_feeding hfeed hheld hissued,
    fun hn => absurd hn (Option.some_ne_none p), fun _ => ⟨hfeed, rfl⟩⟩

theorem pass_taken (h : TakesHead s d a q w e) (hop : isUnit w a 0x02 = true) (hrows : (s.ma d a).coll.rows = [])
    (hfine : passCause (s.ma d a).lastHoist w = none) (hheld : (s.ma d a).held = none)
    (hissued : (s.ma d a).issued = []) (hc : c ∈ [.maPass d a q w, .maCommandAccept d a]) :
    Yields (exec c s) (fun t =>
      (∃ p, ((s.ma d a).feeding = none → (t.ma d a).feeding = some p) ∧
        ((s.ma d a).feeding ≠ none → (t.ma d a).feeding = (s.ma d a).feeding ∧ (t.ma d a).held = some p) ∧
        p.e = e ∧ p.hoist = (s.ma d a).hoists ∧ p.slots = cbits w 45 36 + 1 ∧
        p.fmt = cbits w 56 54 ∧ p.aaddr = 64 * cbits w 35 16 ∧ p.daddr = 64 * cbits w 97 78 ∧ p.gas = cbit w 98 ∧
        p.acc = cbit w 99 ∧ p.pos = 0) ∧
      (t.cd d).fifo (maUnit a) = ((s.cd d).fifo (maUnit a)).tail ∧
      OnlyRegs [R.MA_STATUS d a, R.MA_COLL d a] s t ∧ t = { s with regs := t.regs, cds := t.cds }) := by
  obtain ⟨m, hm, hidle, hbehind⟩ := acceptPass_eq (e := e) hheld hissued
  have hstep : ArrayStep [R.MA_STATUS d a, R.MA_COLL d a] s ((s.takes d a m).maSync d a) :=
    ((ArrayStep.refl s).takes d a m).maSync (by simp) (by simp)
  refine ⟨_, exec_of_takesHead h hc rfl, ?_⟩
  rw [maAccept_pass h hop hrows hfine, hm]
  refine ⟨⟨s.passOf d a e, ?_, ?_, rfl, rfl, ?_⟩, State.fifo_takes s d a m, hstep.regs, hstep.frame⟩
  · rw [State.ma_maSync, State.ma_takes]
    exact hidle
  · rw [State.ma_maSync, State.ma_takes]
    exact hbehind
  · rw [← h.word]
    exact ⟨rfl, rfl, Nat.mul_comm _ _, Nat.mul_comm _ _, rfl, rfl, rfl⟩

/-! ### MA_CCFG (R102, R115) -/

/-- The array with a new configuration in force (R102). -/
def State.configured (s : State) (d : Fin 40) (a : Fin 4) (e : UCmd) : MArray :=
  { s.ma d a with coll := { (s.ma d a).coll with cfg := some e.w, cfgq := e }, accAt := s.aclk + 1 }

theorem acceptCcfg_eq : s.acceptCcfg d a e = (((((s.takes d a (s.configured d a e)).put (R.MA_COLL d a)
    F.MA_COLL_CFG 1).put (R.MA_COLL d a) F.MA_COLL_BUF 0).complete d e).maSync d a) := rfl

theorem State.get_complete (x : Nat) (f : Fld) : (s.complete d e).get x f = s.get x f :=
  get_congr (State.rd_completeAt s _ x) f

theorem ccfg_taken (h : TakesHead s d a q w e) (hop : isUnit w a 0x03 = true) (hfine : ccfgCause w = none)
    (hc : c ∈ [.maCcfg d a q w, .maCommandAccept d a]) :
    Yields (exec c s) (fun t =>
      (t.ma d a).coll.cfg = some w ∧ t.get (R.MA_COLL d a) F.MA_COLL_CFG = 1 ∧
      t.get (R.MA_COLL d a) F.MA_COLL_BUF = 0 ∧
      (t.cd d).due = (s.cd d).due ++ sigDue q w (s.aclk + 1) ∧
      (t.cd d).fifo (maUnit a) = ((s.cd d).fifo (maUnit a)).tail ∧
      OnlyRegs (maTakeRegs d a) s t ∧ t = { s with regs := t.regs, cds := t.cds }) := by
  have k := issueBatch_keeps s d a
  refine ⟨_, exec_of_takesHead h hc rfl, ?_⟩
  rw [maAccept_ccfg h hop hfine, acceptCcfg_eq]
  have hput := ((k.step.takes d a ((s.issueBatch d a).configured d a e)).put maColl_mem_maTakeRegs F.MA_COLL_CFG 1).put
    maColl_mem_maTakeRegs F.MA_COLL_BUF 0
  have hstep := (hput.complete (d := d) e).maSync_takeRegs
  refine ⟨?_, ?_, ?_, ?_, ?_, hstep.regs, hstep.frame⟩
  · rw [State.ma_maSync, State.complete, State.ma_completeAt, State.ma_put, State.ma_put, State.ma_takes, ← h.word]
    rfl
  · rw [get_maColl_maSync _ d a (by decide) (by decide), State.get_complete,
      State.get_put_of_disjoint _ _ _ _ _ (by decide) (by decide) (by decide),
      State.get_put_self _ _ _ _ (by decide) (by decide)]
    rfl
  · rw [get_maColl_maSync _ d a (by decide) (by decide), State.get_complete,
      State.get_put_self _ _ _ _ (by decide) (by decide)]
    rfl
  · rw [State.cd_maSync, hput.due_complete h.loud, State.cd_put, State.cd_put, State.due_takes, k.due, h.queue, h.word]
  · rw [State.cd_maSync, State.complete, State.fifo_completeAt, State.cd_put, State.cd_put, State.fifo_takes, k.fifo]

/-! ### MA_REQ (R103, R104, R116) -/

theorem length_reqRows (e : UCmd) (scaled : Bool) : (reqRows e scaled).length = cbits e.w 42 36 + 1 := by
  simp [reqRows]

/-- The array with a request's rows in its open batch (R103). -/
def State.joined (s : State) (d : Fin 40) (a : Fin 4) (e : UCmd) (cfg : Cmd) : MArray :=
  let m := s.ma d a
  { m with
    coll := { m.coll with
      rows := m.coll.rows ++ reqRows e (cbit cfg 19)
      opened := if m.coll.rows.isEmpty then s.aclk else m.coll.opened }
    accAt := s.aclk + 1 }

/-- A request taken into the open batch, and completed. -/
def State.joins (s : State) (d : Fin 40) (a : Fin 4) (e : UCmd) (cfg : Cmd) : State :=
  ((s.takes d a (s.joined d a e cfg)).complete d e).maSync d a

theorem ma_joins (cfg : Cmd) : (s.joins d a e cfg).ma d a = s.joined d a e cfg := by
  rw [State.joins, State.ma_maSync, State.complete, State.ma_completeAt, State.ma_takes]

theorem joins_step (cfg : Cmd) : ArrayStep (maTakeRegs d a) s (s.joins d a e cfg) :=
  (((ArrayStep.refl s).takes d a _).complete e).maSync_takeRegs

theorem due_joins (he : e.quiet = false) (cfg : Cmd) :
    ((s.joins d a e cfg).cd d).due = (s.cd d).due ++ sigDue e.q e.w (s.aclk + 1) := by
  rw [State.joins, State.cd_maSync, ((ArrayStep.refl (as := []) s).takes d a _).due_complete he, State.due_takes]

theorem fifo_joins (cfg : Cmd) :
    ((s.joins d a e cfg).cd d).fifo (maUnit a) = ((s.cd d).fifo (maUnit a)).tail := by
  rw [State.joins, State.cd_maSync, State.complete, State.fifo_completeAt, State.fifo_takes]

/-- A request that fits joins the open batch, which is issued where it is full or need not wait (R103, R104). -/
theorem acceptReq_of_fits {cfg : Cmd} (hfits : (s.ma d a).coll.rows.length + (cbits e.w 42 36 + 1) ≤ 128) :
    s.acceptReq d a e cfg =
      if (s.ma d a).coll.rows.length + (cbits e.w 42 36 + 1) = 128 ∨ cbits cfg 39 20 = 0 then
        (s.joins d a e cfg).issueBatch d a
      else s.joins d a e cfg := by
  have hlen : ((s.joins d a e cfg).ma d a).coll.rows.length = (s.ma d a).coll.rows.length + (cbits e.w 42 36 + 1) := by
    rw [ma_joins, State.joined, List.length_append, length_reqRows]
  have hno : ¬ 128 < (s.ma d a).coll.rows.length + (reqRows e (cbit cfg 19)).length := by
    rw [length_reqRows]
    exact Nat.not_lt.mpr hfits
  unfold State.acceptReq
  rw [← hlen]
  dsimp only
  rw [if_neg hno]
  rfl

theorem req_taken (h : TakesHead s d a q w e) {cfg : Cmd} (hop : isUnit w a 0x04 = true)
    (hcfg : (s.ma d a).coll.cfg = some cfg) (hfine : reqCause (s.ma d a).lastHoist (s.ma d a).coll.cfg w = none)
    (hfits : (s.ma d a).coll.rows.length + (cbits w 42 36 + 1) ≤ 128)
    (hc : c ∈ [.maReq d a q w, .maCommandAccept d a]) :
    Yields (exec c s) (fun t =>
      ((s.ma d a).coll.rows.length + (cbits w 42 36 + 1) < 128 → cbits cfg 39 20 ≠ 0 →
        (t.ma d a).coll.rows = (s.ma d a).coll.rows ++ reqRows e (cbit cfg 19)) ∧
      ((s.ma d a).coll.rows.length + (cbits w 42 36 + 1) = 128 ∨ cbits cfg 39 20 = 0 →
        (t.ma d a).coll.rows = [] ∧
        ∃ p ∈ (t.ma d a).feeding.toList ++ (t.ma d a).issued,
          p.rows = (s.ma d a).coll.rows ++ reqRows e (cbit cfg 19) ∧ p.batch = some (cbits cfg 87 80)) ∧
      (t.cd d).due = (s.cd d).due ++ sigDue q w (s.aclk + 1) ∧
      (t.cd d).fifo (maUnit a) = ((s.cd d).fifo (maUnit a)).tail ∧
      OnlyRegs (maTakeRegs d a) s t ∧ t = { s with regs := t.regs, cds := t.cds }) := by
  obtain rfl := h.word
  obtain rfl := h.queue
  have hrows : ((s.joins d a e cfg).ma d a).coll.rows = (s.ma d a).coll.rows ++ reqRows e (cbit cfg 19) := by
    rw [ma_joins]; rfl
  refine ⟨_, exec_of_takesHead h hc rfl, ?_⟩
  rw [maAccept_req h hop hcfg hfine, acceptReq_of_fits hfits]
  split
  case isTrue hfull =>
    have hne : ((s.joins d a e cfg).ma d a).coll.rows ≠ [] := by
      rw [hrows, ← List.length_pos_iff, List.length_append, length_reqRows]
      omega
    have hcfg' : ((s.joins d a e cfg).ma d a).coll.cfg = some cfg := by rw [ma_joins]; exact hcfg
    obtain ⟨hempty, hpass, -, -⟩ := issueBatch_gives hcfg' hne
    have k := issueBatch_keeps (s.joins d a e cfg) d a
    have hstep := (joins_step (d := d) (a := a) (e := e) cfg).trans k.step
    exact ⟨fun hlt hwait => by omega, fun _ => ⟨hempty, hrows ▸ hpass⟩, k.due.trans (due_joins h.loud cfg),
      (k.fifo _).trans (fifo_joins cfg), hstep.regs, hstep.frame⟩
  case isFalse hopen =>
    have hstep := joins_step (s := s) (d := d) (a := a) (e := e) cfg
    exact ⟨fun _ _ => hrows, fun hfull => absurd hfull hopen, due_joins h.loud cfg, fifo_joins cfg,
      hstep.regs, hstep.frame⟩

/-! ### MA_FLUSH (R117) -/

theorem flush_taken (h : TakesHead s d a q w e) {cfg : Cmd} (hop : isUnit w a 0x05 = true)
    (hcfg : (s.ma d a).coll.cfg = some cfg) (hfine : cbits w 127 16 = 0)
    (hc : c ∈ [.maFlush d a q w, .maCommandAccept d a]) :
    Yields (exec c s) (fun t =>
      (t.ma d a).coll.rows = [] ∧
      ((s.ma d a).coll.rows ≠ [] → t.get (R.MA_COLL d a) F.MA_COLL_BUF = 1 - s.get (R.MA_COLL d a) F.MA_COLL_BUF) ∧
      (t.cd d).due = (s.cd d).due ++ sigDue q w (s.aclk + 1) ∧
      (t.cd d).fifo (maUnit a) = ((s.cd d).fifo (maUnit a)).tail ∧
      OnlyRegs (maTakeRegs d a) s t ∧ t = { s with regs := t.regs, cds := t.cds }) := by
  have k := issueBatch_keeps s d a
  have hpop := k.step.setCd (d := d) (((s.issueBatch d a).cd d).setFifo (maUnit a)
    (((s.issueBatch d a).cd d).fifo (maUnit a)).tail)
  have hstep := (hpop.complete (d := d) e).setMa (d := d) (a := a)
    { (s.issueBatch d a).ma d a with accAt := (s.issueBatch d a).aclk + 1 }
  refine ⟨_, exec_of_takesHead h hc rfl, ?_⟩
  rw [maAccept_flush h hop hfine]
  refine ⟨?_, fun hrows => ?_, ?_, ?_, hstep.regs, hstep.frame⟩
  · rw [State.ma_setMa_self]
    exact rows_issueBatch hcfg
  · exact (State.get_complete (s := (s.issueBatch d a).popHead d (maUnit a)) _ _).trans (buf_issueBatch hcfg hrows)
  · rw [State.due_setMa, State.popHead, hpop.due_complete h.loud, ← State.popHead, State.due_popHead, k.due,
      h.queue, h.word]
  · rw [State.fifo_setMa, State.complete, State.fifo_completeAt, State.fifo_popHead, k.fifo]

end

/-- Settles O9: the command at the head is taken by its own row and by the acceptance step alike (`exec_of_takesHead`),
and what it then changes is said once for each command. -/
theorem arraysAcceptTheirCommands : Obligations.ArraysAcceptTheirCommands := by
  intro s d a q w e hhead hqueue hword hloud hruns hon hfree
  have h : TakesHead s d a q w e := ⟨hhead, hqueue, hword, hloud, hruns, hon, hfree⟩
  exact ⟨fun hop hfine hwait _ hc => hoist_taken h hop hfine hwait hc,
    fun hop hrows hfine hheld hissued _ hc => pass_taken h hop hrows hfine hheld hissued hc,
    fun hop hfine _ hc => ccfg_taken h hop hfine hc,
    fun _ hop hcfg hfine hfits _ hc => req_taken h hop hcfg hfine hfits hc,
    fun _ hop hcfg hfine _ hc => flush_taken h hop hcfg hfine hc⟩

end Sys2Proof.Machine
end

section
/-! Weights streamed and swapped in (R89-R92, R100). -/
namespace Sys2Proof.Machine

section
variable {s t u : State} {d : Fin 40} {a : Fin 4}

/-! ### Steps that change registers alone, and grants used -/

theorem RegsOnly.cd (h : RegsOnly s t) (x : Fin 40) : t.cd x = s.cd x := by rw [h]; rfl

theorem RegsOnly.ma (h : RegsOnly s t) : t.ma d a = s.ma d a := by rw [h]; rfl

/-- Registers changed after a step that changed registers and compute dies alone. -/
theorem RegsOnly.after (h : t = { s with regs := t.regs, cds := t.cds }) (k : RegsOnly t u) :
    u = { s with regs := u.regs, cds := u.cds } := by
  rw [k, h]

theorem maPerf_regsOnly (s : State) (d : Fin 40) (a : Fin 4) (reg n : Nat) : RegsOnly s (s.maPerf d a reg n) := by
  unfold State.maPerf
  split <;> rfl

theorem maPerf64_regsOnly (s : State) (d : Fin 40) (a : Fin 4) (lo hi n : Nat) :
    RegsOnly s (s.maPerf64 d a lo hi n) := by
  unfold State.maPerf64
  split <;> rfl

theorem ArrayStep.maPerf {as : List Nat} (h : ArrayStep as s t) {x : Nat} (hx : x ∈ as) (n : Nat) :
    ArrayStep as s (t.maPerf d a x n) := by
  unfold State.maPerf
  split
  · exact h
  · exact h.put hx _ _

theorem ArrayStep.useGrant {as : List Nat} (h : ArrayStep as s t) (r : Fin 9) (k : LsKind) :
    ArrayStep as s (t.useGrant d r k) := h.setCd _

/-- Bytes are read from memory alone. -/
theorem State.bytes_congr (h : t.mem = s.mem) (x n : Nat) : t.bytes x n = s.bytes x n := by
  rw [State.bytes_eq_map, State.bytes_eq_map]
  exact List.map_congr_left fun i _ => by rw [State.byte, State.byte, h]

theorem bytes_useGrant (r : Fin 9) (k : LsKind) (x n : Nat) : (s.useGrant d r k).bytes x n = s.bytes x n :=
  State.bytes_congr (s := s) (t := s.useGrant d r k) rfl x n

theorem hoistCols_useGrant (r : Fin 9) (k : LsKind) (w : Cmd) : (s.useGrant d r k).hoistCols d w = s.hoistCols d w := by
  unfold State.hoistCols State.num
  rw [bytes_useGrant]

theorem streamRow_useGrant (r : Fin 9) (k : LsKind) (h : Hoist) :
    (s.useGrant d r k).streamRow d h = s.streamRow d h := by
  have hrow (w : Cmd) (i : Nat) : (s.useGrant d r k).weightRow d w i = s.weightRow d w i := by
    unfold State.weightRow
    simp only [bytes_useGrant]
    rfl
  unfold State.streamRow
  simp only [hrow, bytes_useGrant]
  rfl

/-! ### A stream starts (R92) -/

/-- The waiting hoist as its stream starts: begun in this cycle or with the front before it, its column mask and its
first row read (R92, R100). -/
def State.begun (s : State) (d : Fin 40) (a : Fin 4) (h : Hoist) : Hoist :=
  let g := s.streamRow d h
  { g with start := max s.aclk (s.ma d a).frontAt, cols := s.hoistCols d h.e.w }

theorem streamRow_first {h : Hoist} (hrows : h.rows = []) :
    (s.streamRow d h).e = h.e ∧ (s.streamRow d h).no = h.no ∧
      (s.streamRow d h).rows.head? = some (s.weightRow d h.e.w 127) ∧
      (s.streamRow d h).rows.length = (if cbits h.e.w 58 56 = 4 then 2 else 1) := by
  unfold State.streamRow
  by_cases hbf : cbits h.e.w 58 56 = 4 <;> simp [hbf, hrows]

/-- A stream started: the waiting hoist, its first row read by the granted access, is the streaming one. -/
def State.streamStarted (s : State) (d : Fin 40) (a : Fin 4) (h : Hoist) : State :=
  (((s.useGrant d (maReq a) .hoist).setMa d a { s.ma d a with
    waiting := none, streaming := some (s.begun d a h) }).put (R.MA_STATUS d a) F.MA_STATUS_HWAIT 0).maSync d a

theorem ma_streamStarted (h : Hoist) : (s.streamStarted d a h).ma d a =
    { s.ma d a with waiting := none, streaming := some (s.begun d a h) } := by
  rw [State.streamStarted, State.ma_maSync, State.ma_put, State.ma_setMa_self]

theorem streamStarted_step (h : Hoist) : ArrayStep [R.MA_STATUS d a, R.MA_COLL d a] s (s.streamStarted d a h) :=
  ((((ArrayStep.refl s).useGrant _ _).setMa _).put (by simp) _ _).maSync (by simp) (by simp)

section
variable {h : Hoist} (hd : s.dieOff d = false) (hstop : (s.ma d a).stopHoist = none)
  (hwait : (s.ma d a).waiting = some h) (hfree : (s.ma d a).streaming = none)
  (hgrant : s.granted d (maReq a) .hoist = true) (hrow : s.rowPoisoned d h.e.w 127 = false)
  (hmask : s.maskPoisoned d h.e.w = false) (hrows : h.rows = [])
include hd hstop hwait hfree hgrant hrow hmask hrows

theorem exec_maStreamStart : exec (.maStreamStart d a) s = .next (s.streamStarted d a h) := by
  have hread : (s.streamRow d h).rows ≠ [] := by
    obtain ⟨-, -, -, hlen⟩ := streamRow_first (s := s) (d := d) hrows
    rw [← List.length_pos_iff, hlen]
    split <;> decide
  change execMaStreamStart d a s = _
  unfold execMaStreamStart State.streamStarted
  simp only [hwait, hd, hstop, hfree, hgrant, hrow, hmask, hrows, List.isEmpty_nil, Option.isSome_none, Option.any_none,
    Bool.or_self, Bool.and_self, Bool.and_false, Bool.false_eq_true, if_false, if_true, List.isEmpty_iff,
    streamRow_useGrant, hoistCols_useGrant, hread]
  rfl

theorem streamStart_gives :
    Yields (exec (.maStreamStart d a) s) (fun t => (t.ma d a).waiting = none ∧
      (∃ g, (t.ma d a).streaming = some g ∧ g.e = h.e ∧ g.no = h.no ∧ g.start = max s.aclk (s.ma d a).frontAt ∧
        g.cols = s.hoistCols d h.e.w ∧ g.rows.head? = some (s.weightRow d h.e.w 127) ∧
        g.rows.length = (if cbits h.e.w 58 56 = 4 then 2 else 1)) ∧
      OnlyRegs [R.MA_STATUS d a, R.MA_COLL d a] s t ∧ t = { s with regs := t.regs, cds := t.cds }) := by
  obtain ⟨he, hno, hhead, hlen⟩ := streamRow_first (s := s) (d := d) hrows
  have hstep := streamStarted_step (s := s) (d := d) (a := a) h
  refine ⟨_, exec_maStreamStart hd hstop hwait hfree hgrant hrow hmask hrows, ?_,
    ⟨s.begun d a h, ?_, he, hno, rfl, rfl, hhead, hlen⟩, hstep.regs, hstep.frame⟩
  · rw [ma_streamStarted]
  · rw [ma_streamStarted]

end

/-! ### A front starts (R91) -/

/-- The array after a front has started: the streamed weights are the active set (R91). -/
def MArray.swapped (m : MArray) (h : Hoist) : MArray :=
  { m with
    streaming := none, active := setOf h, actCmd := h.e.w, frontAt := frontCycle h m.lastSlot, fronts := h.no,
    used := false, bad := m.bad.filter (fun b => m.rows.any (fun r => r.setNo == b.1)) }

/-- The weight set swapped in; the set before it is counted where no slot was fed under it (R121). -/
def State.swaps (s : State) (d : Fin 40) (a : Fin 4) (h : Hoist) : State :=
  let t := s.setMa d a ((s.ma d a).swapped h)
  if decide (0 < (s.ma d a).fronts) && !(s.ma d a).used then t.maPerf d a (R.MA_PERF_HUNUSED d a) 1 else t

theorem swaps_regsOnly (h : Hoist) : RegsOnly (s.setMa d a ((s.ma d a).swapped h)) (s.swaps d a h) := by
  unfold State.swaps
  dsimp only
  split
  · exact maPerf_regsOnly _ _ _ _ _
  · exact .refl _

theorem swaps_step {as : List Nat} (hx : R.MA_PERF_HUNUSED d a ∈ as) (h : Hoist) : ArrayStep as s (s.swaps d a h) := by
  unfold State.swaps
  dsimp only
  split
  · exact ((ArrayStep.refl s).setMa _).maPerf hx 1
  · exact (ArrayStep.refl s).setMa _

/-- A front started: the status shows the new set, and the hoist completes when its front has crossed (R91, R165). -/
def State.frontStarted (s : State) (d : Fin 40) (a : Fin 4) (h : Hoist) : State :=
  ((((s.swaps d a h).put (R.MA_STATUS d a) F.MA_STATUS_WFMT (setOf h).fmt).put (R.MA_STATUS d a) F.MA_STATUS_ACTCOL
    (countCols (setOf h).cols 128)).completeAt d h.e (frontCycle h (s.ma d a).lastSlot + 255)).maSync d a

theorem ma_frontStarted (h : Hoist) : (s.frontStarted d a h).ma d a = (s.ma d a).swapped h := by
  rw [State.frontStarted, State.ma_maSync, State.ma_completeAt, State.ma_put, State.ma_put, (swaps_regsOnly h).ma,
    State.ma_setMa_self]

theorem due_frontStarted {h : Hoist} (hloud : h.e.quiet = false) : ((s.frontStarted d a h).cd d).due =
    (s.cd d).due ++ sigDue h.e.q h.e.w (frontCycle h (s.ma d a).lastSlot + 255) := by
  rw [State.frontStarted, State.cd_maSync, State.cd_completeAt _ hloud, State.cd_put, State.cd_put,
    (swaps_regsOnly h).cd, State.due_setMa]

theorem frontStarted_step (h : Hoist) :
    ArrayStep [R.MA_STATUS d a, R.MA_COLL d a, R.MA_PERF_HUNUSED d a] s (s.frontStarted d a h) :=
  ((((swaps_step (by simp) h).put (by simp) _ _).put (by simp) _ _).completeAt _ _).maSync (by simp) (by simp)

section
variable {h : Hoist} (hd : s.dieOff d = false) (hstream : (s.ma d a).streaming = some h) (hread : 128 ≤ h.rows.length)
  (hold : ∀ p ∈ (s.ma d a).feeding.toList ++ (s.ma d a).held.toList ++ (s.ma d a).issued, h.no ≤ p.hoist)
  (hdue : frontCycle h (s.ma d a).lastSlot ≤ s.aclk)
include hd hstream hread hold hdue

theorem exec_maFrontStart : exec (.maFrontStart d a) s = .next (s.frontStarted d a h) := by
  have hnone : ((s.ma d a).feeding.toList ++ (s.ma d a).held.toList ++ (s.ma d a).issued).any
      (fun p => decide (p.hoist < h.no)) = false :=
    List.any_eq_false.mpr fun p hp => by simpa using hold p hp
  change execMaFrontStart d a s = _
  unfold execMaFrontStart
  simp only [hstream, hd, hnone, Bool.false_eq_true, if_false, false_or]
  rw [if_neg (by omega)]
  rfl

theorem frontStart_gives (hloud : h.e.quiet = false) :
    Yields (exec (.maFrontStart d a) s) (fun t => (t.ma d a).streaming = none ∧ (t.ma d a).active = setOf h ∧
      (t.ma d a).frontAt = frontCycle h (s.ma d a).lastSlot ∧ (t.ma d a).fronts = h.no ∧
      (t.cd d).due = (s.cd d).due ++ sigDue h.e.q h.e.w ((t.ma d a).frontAt + 255) ∧
      OnlyRegs [R.MA_STATUS d a, R.MA_COLL d a, R.MA_PERF_HUNUSED d a] s t ∧
      t = { s with regs := t.regs, cds := t.cds }) := by
  have hstep := frontStarted_step (s := s) (d := d) (a := a) h
  refine ⟨_, exec_maFrontStart hd hstream hread hold hdue, ?_⟩
  beta_reduce
  rw [ma_frontStarted]
  exact ⟨rfl, rfl, rfl, rfl, due_frontStarted hloud, hstep.regs, hstep.frame⟩

end

/-! ### A bitmap line read (R99) -/

theorem maskLineRead_gives {p : Pass} {line at_ : Nat} (hd : s.dieOff d = false) (hstop : (s.ma d a).stopPass = none)
    (hfeed : (s.ma d a).feeding = some p) (hat : p.maskAt = some at_) (hline : line * 512 < p.slots)
    (hnew : ∀ l ∈ p.lines, l.1 ≠ line) (hgrant : s.granted d (maReq a) .bitmap = true)
    (hclean : s.poisoned (lsBase d + at_ + 64 * line) 64 = false) :
    Yields (exec (.maMaskLineRead d a line) s) (fun t =>
      (t.ma d a).feeding =
        some { p with lines := p.lines ++ [(line, s.aclk, s.bytes (lsBase d + at_ + 64 * line) 64)] } ∧
      t = { s with cds := t.cds }) := by
  have hwants : p.wantsLine line = true := by
    simp only [Pass.wantsLine, hat, hline, Option.isSome_some, decide_true, Bool.true_and, Bool.not_eq_true',
      List.any_eq_false, beq_iff_eq]
    exact hnew
  refine ⟨(s.useGrant d (maReq a) .bitmap).setMa d a { s.ma d a with
    feeding := some { p with lines := p.lines ++ [(line, s.aclk, s.bytes (lsBase d + at_ + 64 * line) 64)] } },
    ?_, ?_, rfl⟩
  · change execMaMaskLineRead d a line s = _
    unfold execMaMaskLineRead
    simp [hd, hgrant, hstop, hfeed, hwants, hat, hclean]
  · rw [State.ma_setMa_self]

end

end Sys2Proof.Machine
end

section
/-! Slots fed, passed over and offered again (R83, R94, R99), and the statement (O10). -/
namespace Sys2Proof.Machine

/-- The array with its feeding pass past a slot fed or passed over in this cycle. -/
def MArray.pastSlot (m : MArray) (p : Pass) (now : Nat) : MArray :=
  { ({ m with offered := now + 1 }).passSlot p now with lastFeed := now + 1 }

theorem MArray.rows_passSlot (m : MArray) (p : Pass) (now : Nat) : (m.passSlot p now).rows = m.rows := by
  unfold MArray.passSlot
  split
  · rfl
  · dsimp only
    split <;> rfl

theorem MArray.rows_pastSlot (m : MArray) (p : Pass) (now : Nat) : (m.pastSlot p now).rows = m.rows :=
  MArray.rows_passSlot _ p now

theorem MArray.feeding_pastSlot (m : MArray) {p : Pass} (now : Nat) (h : p.pos + 1 < p.slots) :
    (m.pastSlot p now).feeding = some { p with pos := p.pos + 1 } := by
  unfold MArray.pastSlot MArray.passSlot
  rw [if_pos h]

/-- Where the rows of two arrays are the same, so are they with a row more on its way. -/
theorem MArray.rows_feedRow_congr {m n : MArray} (h : m.rows = n.rows) (r : FedRow) :
    (m.feedRow r).rows = (n.feedRow r).rows := by
  unfold MArray.feedRow
  split
  · exact h
  · exact congrArg (· ++ [r]) h

section
variable {s : State} {d : Fin 40} {a : Fin 4} {p : Pass}

/-- The row of a slot that is fed (R83, R94). -/
def State.slotRow (s : State) (d : Fin 40) (a : Fin 4) (p : Pass) : FedRow :=
  let w := p.own.getD (s.ma d a).active
  { pass := p.no, slot := p.pos, fed := s.aclk, masked := false,
    data := s.bytes (lsBase d + (slotAddr p p.pos).1) 128,
    scales := if p.scaled then s.bytes (lsBase d + (slotAddr p p.pos).2) 8 else [], fmt := p.fmt, scaled := p.scaled,
    set := w, setNo := p.hoist, dest := passBase d p + 512 * p.pos, acc := p.acc, stagger := false, todo := w.cols,
    held := [], outs := [] }

/-- The next slot of the feeding pass can be offered in this cycle: the array runs, the front of the pass has started,
and neither the half rate of THROTTLED nor a drain holds it (R88, R94, R109). -/
structure SlotReady (s : State) (d : Fin 40) (a : Fin 4) (p : Pass) : Prop where
  on : s.dieOff d = false
  runs : (s.ma d a).stopPass = none
  feeds : (s.ma d a).feeding = some p
  once : (s.ma d a).offered ≠ s.aclk + 1
  hoisted : p.hoist ≠ 0
  started : p.hoist ≤ (s.ma d a).fronts
  front : (s.ma d a).frontAt ≤ s.aclk
  paced : s.throttled = true → (s.ma d a).lastFeed ≠ 0 → (s.ma d a).lastFeed < s.aclk
  drained : p.pos = 0 → drainHolds (s.cd d) p = false

/-- A slot offered past the interlock. -/
abbrev State.offersSlot (s : State) (d : Fin 40) (a : Fin 4) : State :=
  (s.setMa d a { s.ma d a with offered := s.aclk + 1 }).put (R.MA_STATUS d a) F.MA_STATUS_ILOCK 0

theorem throttled_offersSlot : (s.offersSlot d a).throttled = s.throttled := by
  have hne : R.PWR_STATUS ≠ R.MA_STATUS d a := by
    unfold R.PWR_STATUS R.MA_STATUS tdBase cdBase
    omega
  exact flag_congr (State.rd_put_of_ne _ _ _ hne) _

theorem drainHolds_offersSlot : drainHolds ((s.offersSlot d a).cd d) p = drainHolds (s.cd d) p := by
  simp [drainHolds, State.offersSlot, State.setMa]

theorem exec_maSlotFeed (h : SlotReady s d a p) : exec (.maSlotFeed d a) s = .next (s.slotFeed d a p) := by
  change execMaSlotFeed d a s = _
  unfold execMaSlotFeed
  simp only [h.feeds, h.on, h.runs, h.once, h.hoisted, Option.isSome_none, decide_false, Bool.or_self,
    Bool.false_eq_true, if_false]

namespace SlotReady

theorem interlock (h : SlotReady s d a p) : ¬ ((s.ma d a).fronts < p.hoist ∨ s.aclk < (s.ma d a).frontAt) :=
  not_or.mpr ⟨Nat.not_lt.mpr h.started, Nat.not_lt.mpr h.front⟩

theorem pace (h : SlotReady s d a p) :
    ¬ (((s.offersSlot d a).throttled = true ∧ (s.ma d a).lastFeed ≠ 0) ∧ s.aclk ≤ (s.ma d a).lastFeed) := by
  rw [throttled_offersSlot]
  exact fun ⟨⟨hthr, hfed⟩, hle⟩ => Nat.not_lt.mpr hle (h.paced hthr hfed)

theorem drain (h : SlotReady s d a p) : ¬ (p.pos = 0 ∧ drainHolds ((s.offersSlot d a).cd d) p = true) := by
  rw [drainHolds_offersSlot]
  exact fun ⟨hpos, hd⟩ => Bool.false_ne_true ((h.drained hpos).symm.trans hd)

end SlotReady

/-- A slot is not masked where its pass has no bitmap, or where its bit there is 1 (R99). -/
theorem unmasked_cases (hbit : p.maskAt = none ∨ maskBit p.lines s.aclk p.pos = some true) :
    p.maskAt = none ∨ ∃ x, p.maskAt = some x ∧ maskBit p.lines s.aclk p.pos = some true := by
  cases hm : p.maskAt with
  | none => exact .inl rfl
  | some x => exact .inr ⟨x, rfl, hbit.resolve_left (by simp [hm])⟩

/-- A slot whose access is not granted is a bubble (R94). -/
theorem slotFeed_bubble (h : SlotReady s d a p) (hbit : p.maskAt = none ∨ maskBit p.lines s.aclk p.pos = some true)
    (hgrant : s.granted d (maReq a) .feed = false) :
    s.slotFeed d a p = (s.offersSlot d a).maPerf d a (R.MA_PERF_BUBBLE d a) 1 := by
  unfold State.slotFeed
  simp only [Bool.or_eq_true, Bool.and_eq_true, decide_eq_true_eq, beq_iff_eq]
  simp only [State.aclk_setMa, State.aclk_put, h.interlock, h.pace, h.drain, hgrant, if_false, Bool.not_false, if_true]
  obtain hm | ⟨x, hm, hb⟩ := unmasked_cases hbit
  · simp only [hm]
  · simp only [hm, hb]

/-- A masked slot under KEEP is passed over (R99). -/
theorem slotFeed_masked (h : SlotReady s d a p) (hmask : p.maskAt ≠ none)
    (hbit : maskBit p.lines s.aclk p.pos = some false) (hkeep : p.zeroMasked = false) :
    s.slotFeed d a p = (((s.offersSlot d a).setMa d a ((s.ma d a).pastSlot p s.aclk)).maPerf d a
      (R.MA_PERF_MASKED d a) 1).maSync d a := by
  obtain ⟨x, hx⟩ := Option.ne_none_iff_exists'.mp hmask
  unfold State.slotFeed
  simp only [Bool.or_eq_true, Bool.and_eq_true, decide_eq_true_eq, beq_iff_eq]
  simp only [State.aclk_setMa, State.aclk_put, h.interlock, h.pace, h.drain, hx, hbit, hkeep, if_false, Bool.not_false,
    if_true]
  rfl

/-- A granted slot that meets no poisoned line is fed (R83, R94). -/
theorem slotFeed_fed (h : SlotReady s d a p) (hbit : p.maskAt = none ∨ maskBit p.lines s.aclk p.pos = some true)
    (hgrant : s.granted d (maReq a) .feed = true) (hrow : s.poisoned (lsBase d + (slotAddr p p.pos).1) 128 = false)
    (hscales : p.scaled = true → s.poisoned (lsBase d + (slotAddr p p.pos).2) 8 = false) :
    s.slotFeed d a p = (((((s.offersSlot d a).useGrant d (maReq a) .feed).setMa d a
      { ((s.ma d a).pastSlot p s.aclk).feedRow (s.slotRow d a p) with used := true }).maPerf64 d a
        (R.MA_PERF_ACTIVE_LO d a) (R.MA_PERF_ACTIVE_HI d a) 1).maPerf64 d a (R.MA_PERF_MAC_LO d a)
        (R.MA_PERF_MAC_HI d a) (macsOf (p.own.getD (s.ma d a).active))).maSync d a := by
  have hclean : ¬ (s.poisoned (lsBase d + (slotAddr p p.pos).1) 128 = true ∨
      p.scaled = true ∧ s.poisoned (lsBase d + (slotAddr p p.pos).2) 8 = true) := by
    rintro (hp | ⟨hs, hp⟩)
    · exact Bool.false_ne_true (hrow.symm.trans hp)
    · exact Bool.false_ne_true ((hscales hs).symm.trans hp)
  have hbytes (x n : Nat) : ((s.offersSlot d a).useGrant d (maReq a) .feed).bytes x n = s.bytes x n :=
    State.bytes_congr (s := s) (t := (s.offersSlot d a).useGrant d (maReq a) .feed) rfl x n
  have hpoison (x n : Nat) : ((s.offersSlot d a).useGrant d (maReq a) .feed).poisoned x n = s.poisoned x n := rfl
  unfold State.slotFeed
  simp only [Bool.or_eq_true, Bool.and_eq_true, decide_eq_true_eq, beq_iff_eq]
  simp only [State.aclk_setMa, State.aclk_put, h.interlock, h.pace, h.drain, hgrant, if_false, Bool.not_true,
    Bool.false_eq_true, hpoison, hclean, hbytes]
  obtain hm | ⟨x, hm, hb⟩ := unmasked_cases hbit
  · simp only [hm]
    rfl
  · simp only [hm, hb]
    rfl

theorem slotFeed_fed_gives (h : SlotReady s d a p) (hbit : p.maskAt = none ∨ maskBit p.lines s.aclk p.pos = some true)
    (hgrant : s.granted d (maReq a) .feed = true) (hrow : s.poisoned (lsBase d + (slotAddr p p.pos).1) 128 = false)
    (hscales : p.scaled = true → s.poisoned (lsBase d + (slotAddr p p.pos).2) 8 = false) :
    Yields (exec (.maSlotFeed d a) s) (fun t =>
      (∃ r, (t.ma d a).rows = ((s.ma d a).feedRow r).rows ∧ r.pass = p.no ∧ r.slot = p.pos ∧ r.fed = s.aclk ∧
        r.masked = false ∧ r.data = s.bytes (lsBase d + (slotAddr p p.pos).1) 128 ∧
        r.scales = (if p.scaled then s.bytes (lsBase d + (slotAddr p p.pos).2) 8 else []) ∧
        r.set = p.own.getD (s.ma d a).active ∧ r.todo = r.set.cols ∧ r.dest = passBase d p + 512 * p.pos) ∧
      t = { s with regs := t.regs, cds := t.cds }) := by
  refine ⟨_, exec_maSlotFeed h, ?_⟩
  rw [slotFeed_fed h hbit hgrant hrow hscales]
  generalize hv : ((s.offersSlot d a).useGrant d (maReq a) .feed).setMa d a
    { ((s.ma d a).pastSlot p s.aclk).feedRow (s.slotRow d a p) with used := true } = v
  have hregs : RegsOnly v (((v.maPerf64 d a (R.MA_PERF_ACTIVE_LO d a) (R.MA_PERF_ACTIVE_HI d a) 1).maPerf64 d a
      (R.MA_PERF_MAC_LO d a) (R.MA_PERF_MAC_HI d a) (macsOf (p.own.getD (s.ma d a).active))).maSync d a) :=
    ((maPerf64_regsOnly v d a _ _ _).trans (maPerf64_regsOnly _ d a _ _ _)).trans (maSync_regsOnly _ d a)
  refine ⟨⟨s.slotRow d a p, ?_, rfl, rfl, rfl, rfl, rfl, rfl, rfl, rfl, rfl⟩, RegsOnly.after (by rw [← hv]; rfl) hregs⟩
  rw [hregs.ma, ← hv, State.ma_setMa_self]
  exact MArray.rows_feedRow_congr (MArray.rows_pastSlot _ p _) _

theorem slotFeed_masked_gives (h : SlotReady s d a p) (hmask : p.maskAt ≠ none)
    (hbit : maskBit p.lines s.aclk p.pos = some false) (hkeep : p.zeroMasked = false) :
    Yields (exec (.maSlotFeed d a) s) (fun t =>
      (t.ma d a).rows = (s.ma d a).rows ∧
      (p.pos + 1 < p.slots → (t.ma d a).feeding = some { p with pos := p.pos + 1 }) ∧
      t = { s with regs := t.regs, cds := t.cds }) := by
  refine ⟨_, exec_maSlotFeed h, ?_⟩
  rw [slotFeed_masked h hmask hbit hkeep]
  generalize hv : (s.offersSlot d a).setMa d a ((s.ma d a).pastSlot p s.aclk) = v
  have hregs : RegsOnly v ((v.maPerf d a (R.MA_PERF_MASKED d a) 1).maSync d a) :=
    (maPerf_regsOnly v d a _ _).trans (maSync_regsOnly _ d a)
  have hma : v.ma d a = (s.ma d a).pastSlot p s.aclk := by rw [← hv, State.ma_setMa_self]
  refine ⟨?_, fun hlt => ?_, RegsOnly.after (by rw [← hv]; rfl) hregs⟩
  · rw [hregs.ma, hma, MArray.rows_pastSlot]
  · rw [hregs.ma, hma, MArray.feeding_pastSlot _ _ hlt]

theorem slotFeed_bubble_gives (h : SlotReady s d a p)
    (hbit : p.maskAt = none ∨ maskBit p.lines s.aclk p.pos = some true)
    (hgrant : s.granted d (maReq a) .feed = false) :
    Yields (exec (.maSlotFeed d a) s) (fun t =>
      t.ma d a = { s.ma d a with offered := s.aclk + 1 } ∧ t = { s with regs := t.regs, cds := t.cds }) := by
  have hregs := maPerf_regsOnly (s.offersSlot d a) d a (R.MA_PERF_BUBBLE d a) 1
  refine ⟨_, exec_maSlotFeed h, ?_⟩
  rw [slotFeed_bubble h hbit hgrant]
  refine ⟨?_, RegsOnly.after rfl hregs⟩
  rw [hregs.ma, State.ma_put, State.ma_setMa_self]

end

/-- Settles O10: the array's steps for weights and bitmap lines by what each leaves; a slot offered by its bit in the
bitmap and its access (`slotFeed_fed`, `slotFeed_masked`, `slotFeed_bubble`). -/
theorem weightsStreamSwapAndFeed : Obligations.WeightsStreamSwapAndFeed := by
  intro s d a hd
  refine ⟨fun h hstop hwait hfree hgrant hrow hmask hrows =>
      streamStart_gives hd hstop hwait hfree hgrant hrow hmask hrows,
    fun h hstream hread hold hdue hloud => frontStart_gives hd hstream hread hold hdue hloud,
    fun p line at_ hstop hfeed hat hline hnew hgrant hclean =>
      maskLineRead_gives hd hstop hfeed hat hline hnew hgrant hclean,
    fun p hstop hfeed honce hhoist hstarted hfront hpace hdrain => ?_⟩
  have h : SlotReady s d a p := ⟨hd, hstop, hfeed, honce, hhoist, hstarted, hfront, hpace, hdrain⟩
  exact ⟨fun hbit hgrant hrow hscales => slotFeed_fed_gives h hbit hgrant hrow hscales,
    fun hmask hbit hkeep => slotFeed_masked_gives h hmask hbit hkeep,
    fun hbit hgrant => slotFeed_bubble_gives h hbit hgrant⟩

end Sys2Proof.Machine
end

section
/-! What each instruction of the vector engine changes (R124, R127, R135-R141). -/
namespace Sys2Proof.Machine

/-- A step of the vector engine of die d and of nothing else: beside what `VeOnly` says, poison marks may have changed,
and no other die or unit has. -/
structure VeStep (d : Fin 40) (M : Nat → Prop) (s t : State) : Prop extends VeOnly d M s t where
  frame : DieOnly s t
  others : ∀ x : Fin 40, x ≠ d → t.cd x = s.cd x

namespace VeStep
variable {d : Fin 40} {M : Nat → Prop} {s t u : State}

theorem refl (s : State) : VeStep d M s s := ⟨.refl s, rfl, fun _ _ => rfl⟩

theorem trans (h : VeStep d M s t) (k : VeStep d M t u) : VeStep d M s u :=
  ⟨h.toVeOnly.trans k.toVeOnly, h.frame.trans k.frame, fun x hx => (k.others x hx).trans (h.others x hx)⟩

/-- Memory written within `M`. -/
theorem ofMem (hb : ∀ b, ¬ M b → t.byte b = s.byte b) (h : t = { s with mem := t.mem }) : VeStep d M s t := by
  refine ⟨⟨hb, fun a _ => ?_, (s.cd d).ve, ?_⟩, ?_, fun x _ => ?_⟩
  · rw [h]; rfl
  · rw [h]; rfl
  · rw [DieOnly, h]
  · rw [h]; rfl

theorem setVe (h : VeStep d M s t) (v : VEng) : VeStep d M s (t.setVe d v) :=
  h.trans ⟨(VeOnly.refl t).setVe v, rfl, fun _ hx => State.cd_setCd_of_ne _ _ hx⟩

theorem putStatus (h : VeStep d M s t) (f : Fld) (n : Nat) : VeStep d M s (t.put (R.VE_STATUS d) f n) :=
  h.trans ⟨⟨fun _ _ => rfl, fun _ ha => State.rd_put_of_ne _ _ _ ha, _, rfl⟩, rfl, fun _ _ => rfl⟩

theorem veFlags (h : VeStep d M s t) (f : Flags) : VeStep d M s (t.veFlags d f) := h.putStatus _ _

theorem coverLines (h : VeStep d M s t) (a n : Nat) : VeStep d M s (t.coverLines a n) :=
  h.trans ⟨⟨fun _ _ => rfl, fun _ _ => rfl, _, rfl⟩, rfl, fun _ _ => rfl⟩

theorem coverDest (h : VeStep d M s t) (o : Opnd) (fmt n : Nat) : VeStep d M s (t.coverDest d o fmt n) := by
  cases o with
  | stream a => exact h.coverLines _ _
  | _ => exact h

theorem writeMask (h : VeStep d M s t) (v k : Nat) (bs : List (Option Bool)) : VeStep d M s (t.writeMask d v k bs) :=
  h.setVe _

theorem foldl {α : Type} {g : State → α → State} {l : List α} (hg : ∀ u, ∀ x ∈ l, VeStep d M u (g u x))
    (h : VeStep d M s t) : VeStep d M s (l.foldl g t) := by
  induction l generalizing t with
  | nil => exact h
  | cons x l ih => exact ih (fun u y hy => hg u y (List.mem_cons_of_mem _ hy)) (h.trans (hg t x List.mem_cons_self))

end VeStep

/-! ### Destinations written -/

section
variable {d : Fin 40} {M : Nat → Prop} {o : Opnd} {fmt n : Nat} {w : Cmd}

theorem writeElem_veStep (s : State) (hM : CoversOpnd d M o fmt n) {k : Nat} (hk : k < n) (c : Nat) :
    VeStep d M s (s.writeElem d o fmt k c) := by
  have hbyte := (writeElem_veOnly s hM hk c).byte
  cases o with
  | stream a => exact .ofMem hbyte (putElem_rest ..)
  | tile i => exact (VeStep.refl s).setVe _
  | scalar i => exact (VeStep.refl s).setVe _
  | _ => exact .refl s

theorem writeElems_veStep (l : List (Option Nat)) (s : State) (k : Nat) (hM : CoversOpnd d M o fmt n)
    (hk : k + l.length ≤ n) : VeStep d M s (s.writeElems d o fmt k l) := by
  induction l generalizing s k with
  | nil => exact .refl s
  | cons x l ih =>
    rw [List.length_cons] at hk
    cases x with
    | none => exact ih s (k + 1) (by omega)
    | some c => exact (writeElem_veStep s hM (by omega) c).trans (ih _ (k + 1) (by omega))

theorem writeResults_veStep (s : State) (l : List (Option (Nat × Flags))) (hM : CoversOpnd d M o fmt n)
    (hl : l.length = n) : VeStep d M s (s.writeResults d w o fmt l) := by
  have hwr : VeStep d M s (s.writeElems d o fmt 0 (destCodes w l)) :=
    writeElems_veStep _ s 0 hM (by rw [destCodes, List.length_map, Nat.zero_add, hl])
  unfold State.writeResults
  dsimp only
  split
  · exact (hwr.coverDest _ _ _).veFlags _
  · exact hwr.veFlags _

/-! ### The effects of the instructions -/

variable (s : State) (bad : List VeBad)

theorem veElem_veStep (hD : CoversOpnd d M (eD w) (eDst w) n) : VeStep d M s (s.veElem d bad w n) :=
  writeResults_veStep s _ hD (by rw [List.length_map, List.length_range])

theorem veSplit_veStep (hD : CoversOpnd d M (eD w) (eDst w) n) (hC : CoversOpnd d M (eC w) 3 n) :
    VeStep d M s (s.veSplit d bad w n) :=
  (writeResults_veStep s _ hD (by simp)).trans (writeResults_veStep _ _ hC (by simp))

theorem veCmp_veStep : VeStep d M s (s.veCmp d bad w n) := by
  unfold State.veCmp
  dsimp only
  split
  · exact (VeStep.refl s).writeMask _ _ _
  · exact .refl s

theorem veCvt_veStep (hD : CoversOpnd d M (eD w) (eDst w) n) (hC : CoversOpnd d M (eC w) 8 ((n + 31) / 32)) :
    VeStep d M s (s.veCvt d bad w n) := by
  have hset (v : VEng) : VeStep d M s (s.setVe d v) := (VeStep.refl s).setVe v
  unfold State.veCvt
  extract_lets act draws mode vals e s1 f scales l t _ l'
  split
  · exact (((hset _).trans (writeResults_veStep s1 l hD (by simp [l]))).trans
      (writeElems_veStep _ t 0 hC (by simp [scales]))).coverDest _ _ _
  · exact (hset _).trans (writeResults_veStep s1 l' hD (by simp [l']))

theorem veReduce_veStep (hD : CoversOpnd d M (eD w) (if isIdx (opcodeOf w) then 3 else eDst w) (redCount w)) :
    VeStep d M s (s.veReduce d bad w) := by
  refine writeResults_veStep s _ hD ?_
  rw [List.length_map, redCount]
  split
  · simp
  · split <;> simp

theorem tloadRows_veStep (cols r k : Nat) : VeStep d M s (s.tloadRows d w cols r k) := by
  induction k generalizing s r with
  | zero => exact .refl s
  | succ k ih =>
    refine VeStep.trans (.foldl (fun u c _ => ?_) (.refl s)) (ih _ (r + 1))
    exact (VeStep.refl u).setVe _

/-- A VTSTORE writes, of each row, the bytes its elements take. -/
theorem veTstore_veStep (rows : Nat)
    (hM : ∀ r, r < rows → ∀ b, tRow d w r ≤ b → b < tRow d w r + streamLen (cbits w 83 80) (cbits w 27 22 + 1) → M b) :
    VeStep d M s (s.veTstore d bad w rows) := by
  unfold State.veTstore
  extract_lets cols f draws res s1 t
  refine VeStep.veFlags (.foldl (fun u r hr => ?_) ((VeStep.refl s).setVe _)) _
  have hrow : res.getD r [] = (List.range cols).map (fun c => roundTo f (cbit w 85)
      (if cbit w 84 then .sr (draws.2.getD (r * cols + c) 0) else .rne) (s.tileVal d bad f (tilePos w r c))) := by
    rw [List.getD_eq_getElem _ _ (by simpa [res] using hr)]
    simp [res]
  refine VeStep.coverLines (.foldl (fun v p hp => ?_) (.refl u)) _ _
  have hlt : p.2 < cols := by
    rw [hrow] at hp
    simpa using List.snd_lt_of_mem_zipIdx hp
  refine .ofMem (fun b hb => byte_putElem_of_outside v (vBits_cases f) hlt ?_) (putElem_rest ..)
  by_contra hc
  have hin : tRow d w r ≤ b ∧ b < tRow d w r + streamLen f cols := by unfold streamLen; omega
  exact hb (hM r (List.mem_range.mp hr) b hin.1 hin.2)

theorem veTtrans_veStep : VeStep d M s (s.veTtrans d bad w) := (VeStep.refl s).setVe _

theorem veSets_veStep : VeStep d M s (s.veSets d w) := (VeStep.refl s).setVe _

theorem veGetf_veStep : VeStep d M s (s.veGetf d w) := by
  unfold State.veGetf
  dsimp only
  split
  · exact ((VeStep.refl s).setVe _).putStatus _ _
  · exact (VeStep.refl s).setVe _

/-- A mask instruction writes its mask register, or the bytes of its stream. -/
theorem veMask_veStep (hM : ∀ a, eD w = .stream a → ∀ b, lsBase d + a ≤ b → b < lsBase d + a + (eN w + 7) / 8 → M b) :
    VeStep d M s (s.veMask d bad w) := by
  unfold State.veMask
  extract_lets n bit byte
  split
  · split
    · exact (VeStep.refl s).writeMask _ _ _
    · exact (VeStep.refl s).writeMask _ _ _
  · next a ha =>
    refine VeStep.coverLines (.ofMem (fun b hb => State.byte_putBytes_of_outside _ _ _ _ ?_) rfl) _ _
    rw [List.length_map, List.length_range]
    by_contra hc
    exact hb (hM a ha b (by omega) (by omega))
  · exact .refl s

/-! ### Where an instruction writes -/

/-- The kinds of the first operand and the destination of an instruction of layout E or R that is not refused (R133). -/
theorem roles_of_eCause {op : Nat} (h : eCause op w = .none) :
    roleOk (rolesOf op w).1 (eA w) = true ∧ roleOk (rolesOf op w).2.2.2 (eD w) = true := by
  have := firstCause_eq_none h _ (List.mem_cons_of_mem _ List.mem_cons_self)
  simp only [Bool.or_eq_false_iff, Bool.not_eq_false'] at this
  tauto

theorem isMaskOp_cases {op : Nat} (h : isMaskOp op = true) : op = 0x44 ∨ op = 0x45 ∨ op = 0x46 := by
  simp only [isMaskOp, Bool.and_eq_true, decide_eq_true_eq] at h
  omega

/-- The cause of a mask instruction to be refused is one of layout E. -/
theorem veCause_mask (hop : isMaskOp (opcodeOf w) = true) : veCause w = eCause (opcodeOf w) w := by
  unfold veCause
  obtain hop | hop | hop := isMaskOp_cases hop <;> rw [hop] <;> rfl

/-- A mask instruction other than VMSTORE has a mask register as its destination. -/
theorem eD_mask_of_ready (h : veCause w = .none) (hop : opcodeOf w = 0x44 ∨ opcodeOf w = 0x46) : ∃ v, eD w = .mask v := by
  have hmask : isMaskOp (opcodeOf w) = true := by obtain hop | hop := hop <;> rw [hop] <;> rfl
  have hrole : (rolesOf (opcodeOf w) w).2.2.2 = .maskR := by obtain hop | hop := hop <;> rw [hop] <;> rfl
  have hd := (roles_of_eCause ((veCause_mask hmask).symm.trans h)).2
  rw [hrole] at hd
  cases hD : eD w with
  | mask v => exact ⟨v, rfl⟩
  | _ => rw [hD] at hd; cases hd

/-- The destination ranges of a layout E or R instruction are where it may write. -/
theorem coversOpnd_of_span (hop : opcodeOf w < 0x40) (ho : spanOf o fmt n ∈ (eSpans (opcodeOf w) w).2) :
    CoversOpnd d (VeWrites d w) o fmt n := fun a ha b hlo hhi =>
  .inr ⟨.inl hop, a, streamLen fmt n, vBits fmt, by rw [ha] at ho; exact ho, hlo, hhi⟩

theorem veOpcode_of_ready (h : veCause w = none) : veOpcode (opcodeOf w) = true := by
  by_contra hc
  have : veCause w = some 1 := if_pos (by simpa using hc)
  rw [this] at h
  cases h

/-- The instructions that compute on elements count them by N (R131, R134). -/
theorem veCount_of_lt (h : opcodeOf w < 0x40) : veCount w = eN w := by
  unfold veCount
  rw [if_neg (by omega), if_neg (by omega), if_neg (by omega)]

theorem isMaskOp_of_lt {op : Nat} (h : op < 0x40) : isMaskOp op = false := by
  rw [Bool.eq_false_iff]
  exact fun hm => by have := isMaskOp_cases hm; omega

/-- The effect of an instruction that computes on elements. -/
theorem veEffect_of_lt (h : opcodeOf w < 0x40) : s.veEffect d bad w (veCount w) =
    if isRed (opcodeOf w) then s.veReduce d bad w
    else if isCmp (opcodeOf w) then s.veCmp d bad w (eN w)
    else if opcodeOf w = 0x1C then s.veSplit d bad w (eN w)
    else if opcodeOf w = 0x1E then s.veCvt d bad w (eN w)
    else s.veElem d bad w (eN w) := by
  rw [veCount_of_lt h]
  unfold State.veEffect
  dsimp only
  rw [if_neg (by omega), if_neg (by omega), if_neg (by omega), if_neg (by omega), if_neg (by omega),
    if_neg (show eN w ≠ 0 from Nat.succ_ne_zero _), isMaskOp_of_lt h, if_neg Bool.false_ne_true]

/-- The effect of a mask instruction. -/
theorem veEffect_of_mask (h : isMaskOp (opcodeOf w) = true) : s.veEffect d bad w (veCount w) = s.veMask d bad w := by
  have hcount : veCount w = eN w := by
    unfold veCount
    obtain h | h | h := isMaskOp_cases h <;> rw [h] <;> rfl
  rw [hcount]
  unfold State.veEffect
  obtain h | h | h := isMaskOp_cases h <;> rw [h] <;> rfl

theorem dests_of_red {op : Nat} (h : isRed op = true) :
    (eSpans op w).2 = [spanOf (eD w) (if isIdx op then 3 else eDst w) (redCount w)] := by
  unfold eSpans
  rw [if_pos h]

/-- Element-wise instructions with one destination. -/
theorem dests_of_elem {op : Nat} (h : op < 0x40) (hred : ¬ isRed op = true) (h1C : op ≠ 0x1C) (h1E : op ≠ 0x1E) :
    (eSpans op w).2 = [spanOf (eD w) (eDst w) (eN w)] := by
  unfold eSpans
  simp only [hred, if_neg h1C, if_neg h1E, if_neg (show op ≠ 0x44 by omega), if_neg (show op ≠ 0x45 by omega),
    if_neg (show op ≠ 0x46 by omega), Bool.false_eq_true, if_false]
  split <;> rfl

/-- An instruction that computes on elements changes its destinations, VE_STATUS and the engine's own state. -/
theorem veEffect_veStep_of_lt (h : opcodeOf w < 0x40) :
    VeStep d (VeWrites d w) s (s.veEffect d bad w (veCount w)) := by
  have hspan {o : Opnd} {fmt n : Nat} (ho : spanOf o fmt n ∈ (eSpans (opcodeOf w) w).2) :=
    coversOpnd_of_span (d := d) h ho
  rw [veEffect_of_lt s bad h]
  split_ifs with hred hcmp h1C h1E
  · exact veReduce_veStep s bad (hspan (by rw [dests_of_red hred]; exact List.mem_cons_self))
  · exact veCmp_veStep s bad
  · have hdests : (eSpans (opcodeOf w) w).2 = [spanOf (eD w) (eDst w) (eN w), spanOf (eC w) 3 (eN w)] := by
      rw [h1C]; rfl
    exact veSplit_veStep s bad (hspan (by simp [hdests])) (hspan (by simp [hdests]))
  · have hdests : (eSpans (opcodeOf w) w).2 =
        [spanOf (eD w) (eDst w) (eN w), spanOf (eC w) 8 ((eN w + 31) / 32)] := by
      rw [h1E]; rfl
    exact veCvt_veStep s bad (hspan (by simp [hdests])) (hspan (by simp [hdests]))
  · exact veElem_veStep s bad (hspan (by rw [dests_of_elem h hred h1C h1E]; exact List.mem_cons_self))

/-- Of the mask instructions VMSTORE alone writes memory. -/
theorem veEffect_veStep_of_mask (h : veCause w = none) (hmask : isMaskOp (opcodeOf w) = true) :
    VeStep d (VeWrites d w) s (s.veEffect d bad w (veCount w)) := by
  rw [veEffect_of_mask s bad hmask]
  refine veMask_veStep s bad fun a ha b hlo hhi => ?_
  by_cases h45 : opcodeOf w = 0x45
  · refine .inr ⟨.inr h45, a, (eN w + 7) / 8, 1, ?_, hlo, hhi⟩
    rw [h45]
    simp [eSpans, isRed, ha]
  · obtain ⟨v, hv⟩ := eD_mask_of_ready h (by have := isMaskOp_cases hmask; omega)
    rw [hv] at ha
    cases ha

/-- An instruction that is not refused changes its destination, VE_STATUS and the engine's own state. -/
theorem veEffect_veStep (h : veCause w = none) : VeStep d (VeWrites d w) s (s.veEffect d bad w (veCount w)) := by
  by_cases hlt : opcodeOf w < 0x40
  · exact veEffect_veStep_of_lt s bad hlt
  by_cases hmask : isMaskOp (opcodeOf w) = true
  · exact veEffect_veStep_of_mask s bad h hmask
  have hop : opcodeOf w = 0x40 ∨ opcodeOf w = 0x41 ∨ opcodeOf w = 0x42 ∨ opcodeOf w = 0x43 ∨ opcodeOf w = 0x47 := by
    have := veOpcode_of_ready h
    simp only [veOpcode, isEst, isRed, Bool.or_eq_true, Bool.and_eq_true, decide_eq_true_eq] at this
    simp only [isMaskOp, Bool.and_eq_true, decide_eq_true_eq] at hmask
    omega
  unfold State.veEffect
  extract_lets op cols
  split_ifs with h40 h41 h42 h43 h47
  · exact tloadRows_veStep s _ _ _
  · have hrows : veCount w / cols = cbits w 21 16 + 1 := by
      rw [veCount, if_pos (.inr h41), Nat.mul_div_cancel _ (Nat.succ_pos _)]
    rw [hrows]
    exact veTstore_veStep s bad _ fun r hr b hlo hhi => .inl ⟨h41, r, hr, hlo, hhi⟩
  · exact veTtrans_veStep s bad
  · exact veSets_veStep s
  · exact veGetf_veStep s
  all_goals omega

end
end Sys2Proof.Machine
end

section
/-! An instruction of the vector engine executed, and the statement (O12). -/
namespace Sys2Proof.Machine

section
variable {s : State} {d : Fin 40} {q : Fin 4} {w : Cmd} {bad : List VeBad} {e : UCmd} (v : State)

theorem events_veParity (met : Bool) (hm : met = false) : (v.veParity d met).events = v.events := by
  subst hm
  rfl

theorem events_vePerf (beat n act : Nat) : (v.vePerf d beat n act).events = v.events := by
  unfold State.vePerf
  split <;> rfl

/-- The second state differs from the first in registers, events and compute dies alone. -/
def BookOnly (s t : State) : Prop := t = { s with regs := t.regs, events := t.events, cds := t.cds }

theorem BookOnly.trans {s t u : State} (h : BookOnly s t) (k : BookOnly t u) : BookOnly s u := by
  unfold BookOnly at h k ⊢
  rw [k, h]

theorem veParity_bookOnly (met : Bool) : BookOnly v (v.veParity d met) := by
  cases met <;> rfl

theorem vePerf_bookOnly (beat n act : Nat) : BookOnly v (v.vePerf d beat n act) := by
  unfold State.vePerf
  split <;> rfl

theorem completeAt_bookOnly (at_ : Nat) : BookOnly v (v.completeAt d e at_) := by
  unfold State.completeAt
  split <;> rfl

theorem setCd_bookOnly (c : CDie) : BookOnly v (v.setCd d c) := rfl

theorem put_bookOnly (a : Nat) (f : Fld) (n : Nat) : BookOnly v (v.put a f n) := rfl

/-- Booking changes registers, events and the compute die alone. -/
theorem veBooked_bookOnly : BookOnly v (v.veBooked s d bad e) := by
  unfold State.veBooked
  extract_lets n act t
  have ht : BookOnly v t :=
    ((put_bookOnly v _ _ _).trans (veParity_bookOnly _ _)).trans (vePerf_bookOnly _ _ _ _)
  exact ((ht.trans (setCd_bookOnly _ _)).trans (setCd_bookOnly _ _)).trans (completeAt_bookOnly _ _)

/-- Booking leaves the other compute dies alone. -/
theorem cd_veBooked_of_ne {x : Fin 40} (hx : x ≠ d) : (v.veBooked s d bad e).cd x = v.cd x := by
  have hcomplete (u : State) (at_ : Nat) : (u.completeAt d e at_).cd x = u.cd x := by
    unfold State.completeAt
    split
    · rfl
    · exact State.cd_setCd_of_ne _ _ hx
  unfold State.veBooked
  dsimp only
  rw [hcomplete, State.popHead, State.cd_setCd_of_ne _ _ hx, State.veTick, State.setVe, State.cd_setCd_of_ne _ _ hx,
    State.cd_vePerf, State.cd_veParity, State.cd_put]

/-- Without a register parity error no event is raised. -/
theorem events_veBooked (h : s.veMeets d bad e.w (veCount e.w) = false) :
    (v.veBooked s d bad e).events = v.events := by
  have hcomplete (u : State) (at_ : Nat) : (u.completeAt d e at_).events = u.events := by
    unfold State.completeAt
    split <;> rfl
  unfold State.veBooked
  dsimp only
  rw [hcomplete]
  exact (events_vePerf _ _ _ _).trans (events_veParity _ _ h)

/-- A ready instruction completes, and changes its destination, the engine's registers and state, and what is booked. -/
theorem veRun_gives (h : VeReady s d q w bad) : Yields (.next (s.veRun d q w bad)) (fun t =>
    (t.cd d).fifo veUnit = ((s.cd d).fifo veUnit).tail ∧
    (t.cd d).due = (s.cd d).due ++ sigDue q w (s.veLast d w + 1) ∧
    (∀ b, ¬ VeWrites d w b → t.byte b = s.byte b) ∧
    OnlyRegs (veRegs d) s t ∧
    (∀ x : Fin 40, x ≠ d → t.cd x = s.cd x) ∧ (t.cd d).arrays = (s.cd d).arrays ∧
    (t.cd d).queues = (s.cd d).queues ∧ (s.veMeets d bad w (veCount w) = false → t.events = s.events) ∧
    t = { s with regs := t.regs, mem := t.mem, poison := t.poison, cds := t.cds, events := t.events }) := by
  obtain ⟨e, rfl, rfl, hloud, hrun⟩ := veRun_of_ready h
  have heffect := veEffect_veStep (d := d) s bad h.fine
  rw [hrun]
  generalize s.veEffect d bad e.w (veCount e.w) = v at heffect
  obtain ⟨⟨hbyte, hrd, x, hcd⟩, hframe, hothers⟩ := heffect
  obtain ⟨i, n, hbooked⟩ := cd_veBooked (s := s) (bad := bad) (d := d) v hloud
  refine ⟨_, rfl, ?_, ?_, fun b hb => (byte_veBooked v b).trans (hbyte b hb), fun a ha => ?_,
    fun x hx => (cd_veBooked_of_ne v hx).trans (hothers x hx), ?_, ?_, fun hmeets => ?_, ?_⟩
  · rw [fifo_veBooked v hloud, hcd]; rfl
  · rw [due_veBooked v hloud, hcd]
  · exact (rd_veBooked v ha).trans (hrd a fun hst => ha (hst ▸ List.mem_cons_self))
  · rw [hbooked, hcd]
  · rw [hbooked, hcd]
  · rw [events_veBooked v hmeets, hframe]
  · have hbook := veBooked_bookOnly (s := s) (d := d) (bad := bad) (e := e) v
    unfold BookOnly at hbook
    unfold DieOnly at hframe
    rw [hbook, hframe]

end

/-- Settles O12: every instruction of the list runs as `veRun` does, and a ready one changes what `veRun_gives` says. -/
theorem vectorInstructionsCompleteWithTheirFrame : Obligations.VectorInstructionsCompleteWithTheirFrame := by
  intro s d q w bad h p hp _
  have hexec : exec (p.1 d q w bad) s = .next (s.veRun d q w bad) := by
    fin_cases hp <;> rfl
  rw [hexec]
  exact veRun_gives h

end Sys2Proof.Machine
end

section
/-! Bits of mask registers and of bytes (R129, R139). -/
namespace Sys2Proof.Machine

/-! ### Mask registers -/

theorem getLsbD_writeMaskBits_one (m : BitVec 8192) (k : Nat) (x : Bool) {i : Nat} (hi : i < 8192) :
    (writeMaskBits m k [some x]).getLsbD i = if i = k then x else m.getLsbD i := by
  have hone : (BitVec.ofNat 8192 (2 ^ k)).getLsbD i = decide (i = k) := by
    rw [BitVec.getLsbD_ofNat, Nat.testBit_two_pow, decide_eq_true hi, Bool.true_and]
    exact decide_eq_decide.mpr eq_comm
  cases x with
  | false =>
    change (m &&& ~~~ BitVec.ofNat 8192 (2 ^ k)).getLsbD i = _
    rw [BitVec.getLsbD_and, BitVec.getLsbD_not, hone]
    by_cases h : i = k <;> simp [h, hi]
  | true =>
    change (m ||| BitVec.ofNat 8192 (2 ^ k)).getLsbD i = _
    rw [BitVec.getLsbD_or, hone]
    by_cases h : i = k <;> simp [h]

theorem writeMaskBits_cons (m : BitVec 8192) (k : Nat) (x : Option Bool) (xs : List (Option Bool)) :
    writeMaskBits m k (x :: xs) = writeMaskBits (writeMaskBits m k [x]) (k + 1) xs := rfl

/-- Bits of a mask register written from bit k on. -/
theorem getLsbD_writeMaskBits (bs : List Bool) (m : BitVec 8192) (k : Nat) {i : Nat} (hi : i < 8192) :
    (writeMaskBits m k (bs.map some)).getLsbD i =
      if k ≤ i ∧ i < k + bs.length then bs.getD (i - k) false else m.getLsbD i := by
  induction bs generalizing m k with
  | nil => rw [if_neg (by simp)]; rfl
  | cons x bs ih =>
    rw [List.map_cons, writeMaskBits_cons, ih, getLsbD_writeMaskBits_one m k x hi]
    by_cases hk : i = k
    · subst hk
      rw [if_neg (by omega), if_pos rfl, if_pos (by simp), Nat.sub_self]
      rfl
    · rw [if_neg hk]
      by_cases hr : k + 1 ≤ i ∧ i < k + 1 + bs.length
      · rw [if_pos hr, if_pos (by rw [List.length_cons]; omega), show i - k = i - (k + 1) + 1 by omega,
          List.getD_cons_succ]
      · rw [if_neg hr, if_neg (by rw [List.length_cons]; omega)]

/-! ### Bytes -/

/-- A number whose bits below n are those of `p`, summed up from the lowest, has them. -/
theorem testBit_sum_bits (p : Nat → Prop) [DecidablePred p] (n : Nat) :
    (List.range n).foldl (fun x j => if p j then x + 2 ^ j else x) 0 < 2 ^ n ∧
    ∀ i, ((List.range n).foldl (fun x j => if p j then x + 2 ^ j else x) 0).testBit i =
      (decide (i < n) && decide (p i)) := by
  induction n with
  | zero => simp
  | succ n ih =>
    obtain ⟨hlt, hbits⟩ := ih
    rw [List.range_succ, List.foldl_append]
    generalize (List.range n).foldl (fun x j => if p j then x + 2 ^ j else x) 0 = x at hlt hbits
    simp only [List.foldl_cons, List.foldl_nil]
    by_cases hp : p n
    · rw [if_pos hp]
      refine ⟨by rw [Nat.pow_succ]; omega, fun i => ?_⟩
      have hor : x + 2 ^ n = 2 ^ n ||| x := by
        have := Nat.two_pow_add_eq_or_of_lt hlt 1
        rw [Nat.mul_one] at this
        rw [Nat.add_comm, this]
      rw [hor, Nat.testBit_or, Nat.testBit_two_pow, hbits]
      by_cases hi : i = n
      · subst hi; simp [hp]
      · have : i < n + 1 ↔ i < n := by omega
        simp [this, Ne.symm hi]
    · rw [if_neg hp]
      refine ⟨by rw [Nat.pow_succ]; omega, fun i => ?_⟩
      rw [hbits]
      by_cases hi : i = n
      · subst hi; simp [hp]
      · have : i < n + 1 ↔ i < n := by omega
        simp [this]

end Sys2Proof.Machine
end

section
/-! Comparisons and mask instructions (R129, R137, R139), and the statement (O14). -/
namespace Sys2Proof.Machine

/-- What an instruction leaves of mask register v: `f` in the n first bits, the old ones elsewhere. -/
def MaskWritten (s t : State) (d : Fin 40) (v n : Nat) (f : Nat → Bool) : Prop :=
  ∀ k, k < 8192 → ((t.ve d).masks.getD v 0).getLsbD k = if k < n then f k else ((s.ve d).masks.getD v 0).getLsbD k

section
variable {s : State} {d : Fin 40} {q : Fin 4} {w : Cmd} {v : Nat}

/-- Booking moves the engine's timeline on and leaves its registers. -/
theorem ve_veBooked (u : State) {bad : List VeBad} {e : UCmd} (he : e.quiet = false) :
    ∃ i n, (u.veBooked s d bad e).ve d = { u.ve d with issueAt := i, doneAt := n } := by
  obtain ⟨i, n, h⟩ := cd_veBooked (s := s) (bad := bad) (d := d) u he
  exact ⟨i, n, by rw [State.ve, h]; rfl⟩

/-- The engine's registers after a ready instruction are those its effect leaves. -/
theorem ve_veRun {bad : List VeBad} (h : VeReady s d q w bad) :
    ∃ i n, (s.veRun d q w bad).ve d =
      { (s.veEffect d bad w (veCount w)).ve d with issueAt := i, doneAt := n } := by
  obtain ⟨e, -, -, hloud, hrun⟩ := veRun_of_ready h
  rw [hrun]
  exact ve_veBooked _ hloud

theorem maskWritten_veRun (h : VeReady s d q w []) (hv : v < 8) {f : Nat → Bool}
    (heffect : s.veEffect d [] w (veCount w) = s.writeMask d v 0 ((List.range (eN w)).map (fun k => some (f k)))) :
    MaskWritten s (s.veRun d q w []) d v (eN w) f := by
  obtain ⟨i, n, hve⟩ := ve_veRun h
  intro k hk
  rw [hve, heffect, State.writeMask, State.ve_setVe_self]
  have hmask : ((s.ve d).masks.setIfInBounds v
      (writeMaskBits ((s.ve d).masks.getD v 0) 0 ((List.range (eN w)).map (fun k => some (f k))))).getD v 0 =
      writeMaskBits ((s.ve d).masks.getD v 0) 0 (((List.range (eN w)).map f).map some) := by
    simp [Vector.getD, hv, Function.comp_def]
  dsimp only
  rw [hmask, getLsbD_writeMaskBits _ _ _ hk, List.length_map, List.length_range, Nat.zero_add]
  by_cases hlt : k < eN w
  · rw [if_pos ⟨Nat.zero_le _, hlt⟩, if_pos hlt, List.getD_eq_getElem _ _ (by simpa using hlt)]
    simp
  · rw [if_neg (fun h => hlt h.2), if_neg hlt]

/-- An unmasked comparison of INT32 tile operands. -/
theorem maskWritten_compare {i j : Nat} (h : VeReady s d q w []) (hv : v < 8) (hm : eMasken w = false)
    (hsrc : eSrc w = 3) (ha : eA w = .tile i) (hb : eB w = .tile j) (hd : eD w = .mask v)
    (hop : isCmp (opcodeOf w) = true) :
    MaskWritten s (s.veRun d q w []) d v (eN w)
      (fun k => compare (opcodeOf w) (.i (tileInt s d (i + k))) (.i (tileInt s d (j + k)))) := by
  have hrange : 0x18 ≤ opcodeOf w ∧ opcodeOf w ≤ 0x1B := by simpa [isCmp] using hop
  have hred : isRed (opcodeOf w) = false := by
    simp only [isRed, Bool.and_eq_false_iff, decide_eq_false_iff_not]
    omega
  refine maskWritten_veRun h hv ?_
  have hactive (k : Nat) : s.active d [] w k = true := by simp [State.active, hm]
  have hread (n k : Nat) : s.readElem d [] (.tile n) 3 k = .i (tileInt s d (n + k)) := rfl
  rw [veEffect_of_lt s [] (by omega), hred, hop, if_neg Bool.false_ne_true, if_pos rfl, State.veCmp]
  simp only [hactive, hsrc, ha, hb, hd, hread, if_true]

/-- Bit k of a mask operand, no parity error being met. -/
theorem maskBitOf_nil (e : VEng) (x k : Nat) : maskBitOf e [] x k = (e.masks.getD x 0).getLsbD k := rfl

theorem maskWritten_vmload {a : Nat} (h : VeReady s d q w []) (hv : v < 8) (ha : eA w = .stream a) (hd : eD w = .mask v)
    (hop : opcodeOf w = 0x44) :
    MaskWritten s (s.veRun d q w []) d v (eN w) (fun k => (s.byte (lsBase d + a + k / 8)).toNat.testBit (k % 8)) := by
  refine maskWritten_veRun h hv ?_
  rw [veEffect_of_mask s [] (by rw [hop]; rfl), State.veMask]
  simp only [hd, ha, hop, if_true]

theorem maskWritten_vmop {x y : Nat} (h : VeReady s d q w []) (hv : v < 8) (ha : eA w = .mask x) (hb : eB w = .mask y)
    (hd : eD w = .mask v) (hop : opcodeOf w = 0x46) :
    MaskWritten s (s.veRun d q w []) d v (eN w) (fun k => maskFn (eSrc w)
      (((s.ve d).masks.getD x 0).getLsbD k) (((s.ve d).masks.getD y 0).getLsbD k)) := by
  have hne : (0x46 : Nat) ≠ 0x44 := by decide
  refine maskWritten_veRun h hv ?_
  rw [veEffect_of_mask s [] (by rw [hop]; rfl), State.veMask]
  simp only [hd, ha, hb, hop, if_neg hne, maskBitOf_nil]

/-- A VMSTORE puts bit k of its mask into bit k mod 8 of byte k / 8, and 0 beyond N (R139). -/
theorem testBit_vmstore {a : Nat} (h : VeReady s d q w []) (ha : eA w = .mask v) (hd : eD w = .stream a)
    (hop : opcodeOf w = 0x45) {k : Nat} (hk : k < 8 * ((eN w + 7) / 8)) :
    ((s.veRun d q w []).byte (lsBase d + a + k / 8)).toNat.testBit (k % 8) =
      (decide (k < eN w) && ((s.ve d).masks.getD v 0).getLsbD k) := by
  obtain ⟨e, -, -, -, hrun⟩ := veRun_of_ready h
  have hdiv : k / 8 < (eN w + 7) / 8 := by omega
  have hk8 : 8 * (k / 8) + k % 8 = k := Nat.div_add_mod k 8
  rw [hrun, byte_veBooked, veEffect_of_mask s [] (by rw [hop]; rfl), State.veMask]
  simp only [hd, ha, maskBitOf_nil]
  rw [State.byte_storeWrite, if_pos ⟨Nat.le_add_right _ _, by rw [List.length_map, List.length_range]; omega⟩,
    Nat.add_sub_cancel_left, List.getD_eq_getElem _ _ (by rwa [List.length_map, List.length_range]),
    List.getElem_map, List.getElem_range]
  obtain ⟨hlt, hbits⟩ := testBit_sum_bits
    (fun j => 8 * (k / 8) + j < eN w ∧ ((s.ve d).masks.getD v 0).getLsbD (8 * (k / 8) + j) = true) 8
  rw [BitVec.toNat_ofNat, Nat.mod_eq_of_lt hlt, hbits, hk8]
  have hk' : k % 8 < 8 := Nat.mod_lt _ (by decide)
  rw [decide_eq_true hk', Bool.true_and, Bool.decide_and, Bool.decide_eq_true]

end

/-- Settles O14: comparisons, VMLOAD and VMOP write a mask register by `maskWritten_veRun`; VMSTORE writes bytes whose
bits are summed up. -/
theorem comparisonsAndMaskOperationsSetBits : Obligations.ComparisonsAndMaskOperationsSetBits := by
  intro s d q w v h hv
  refine ⟨fun i j hm hsrc ha hb hd p hp hu => ?_,
    fun a ha hd hu => ⟨_, rfl, maskWritten_vmload h hv ha hd (opcodeOf_of_isUnit hu)⟩,
    fun x y _ _ ha hb hd hu p hp hf => ?_,
    fun a ha hd hu => ⟨_, rfl, fun k hk => testBit_vmstore h ha hd (opcodeOf_of_isUnit hu) hk⟩⟩
  · have hop := opcodeOf_of_isUnit hu
    have done := maskWritten_compare h hv hm hsrc ha hb hd
    rw [hop] at done
    simp only [List.mem_cons, List.not_mem_nil, or_false] at hp
    rcases hp with rfl | rfl | rfl | rfl <;> exact ⟨_, rfl, done rfl⟩
  · have done := maskWritten_vmop h hv ha hb hd (opcodeOf_of_isUnit hu)
    rw [hf] at done
    simp only [List.mem_cons, List.not_mem_nil, or_false] at hp
    rcases hp with rfl | rfl | rfl <;> exact ⟨_, rfl, done⟩

end Sys2Proof.Machine
end

section
/-! Moves between tiles and the local store (R135, R136). -/
namespace Sys2Proof.Machine

theorem leNat_lt (l : List Byte) : leNat l < 256 ^ l.length := by
  induction l with
  | nil => decide
  | cons b l ih =>
    have := b.isLt
    rw [leNat, List.length_cons, Nat.pow_succ]
    omega

theorem State.num_lt (s : State) (a n : Nat) : s.num a n < 256 ^ n := by
  have := leNat_lt (s.bytes a n)
  rwa [State.length_bytes] at this

/-- An INT32 word is its own register word. -/
theorem widen_int32 (c : Nat) : widen 3 c = c % 2 ^ 32 := unsignedN_signedN_32 c

section
variable {s : State} {d : Fin 40} {q : Fin 4} {w : Cmd}

/-- The tile elements after a ready instruction are those its effect leaves. -/
theorem tile_veRun {bad : List VeBad} (h : VeReady s d q w bad) (x : Nat) :
    ((s.veRun d q w bad).ve d).tile x = ((s.veEffect d bad w (veCount w)).ve d).tile x := by
  obtain ⟨i, n, hve⟩ := ve_veRun h
  rw [hve]
  rfl

/-! ### VTLOAD -/

/-- An accepted move of a rectangle lies in its tile: its places are told apart by row and column (R135). -/
theorem tilePos_inj (h : tCause (opcodeOf w) w = none) {r c r' c' : Nat} (hr : r < cbits w 21 16 + 1)
    (hc : c < cbits w 27 22 + 1) (hr' : r' < cbits w 21 16 + 1) (hc' : c' < cbits w 27 22 + 1)
    (heq : tilePos w r c = tilePos w r' c') : r = r' ∧ c = c' := by
  unfold tilePos at heq
  cases ht : cbit w 86
  all_goals
    rw [tCause, ht] at h
    have h5 := firstCause_eq_none h _ (List.mem_cons_of_mem _ (List.mem_cons_of_mem _ List.mem_cons_self))
    simp only [ht, Bool.false_eq_true, if_false, if_true, Bool.or_eq_false_iff, decide_eq_false_iff_not] at h5 heq
    omega

/-- Row r of a VTLOAD in INT32, its first n elements. -/
def State.tloadRow (s : State) (d : Fin 40) (w : Cmd) (r n : Nat) : State :=
  (List.range n).foldl (fun t c => t.writeElem d (.tile (tilePos w r c)) (cbits w 83 80) 0
    (s.elemAt (tRow d w r) (vBits (cbits w 83 80)) c)) s

theorem tloadRows_succ (cols r k : Nat) :
    s.tloadRows d w cols r (k + 1) = (s.tloadRow d w r cols).tloadRows d w cols (r + 1) k := rfl

theorem byte_tloadRow (r n b : Nat) : (s.tloadRow d w r n).byte b = s.byte b := by
  unfold State.tloadRow
  refine proj_foldl (State.byte · b) (fun _ _ _ => ?_) s
  rfl

/-- What a rectangle of words leaves of the tile elements: word c of row r at its place, for the rows from r0 to r1 and
the first n columns, and the old elements elsewhere. -/
def Loaded (s t : State) (d : Fin 40) (w : Cmd) (r0 r1 n : Nat) : Prop :=
  (∀ r c, r0 ≤ r → r < r1 → c < n → (t.ve d).tile (tilePos w r c) = s.num (tRow d w r + 4 * c) 4) ∧
  ∀ x, (∀ r c, r0 ≤ r → r < r1 → c < n → x ≠ tilePos w r c) → (t.ve d).tile x = (s.ve d).tile x

variable (hfmt : cbits w 83 80 = 3) (hcause : tCause (opcodeOf w) w = none)
include hfmt hcause

theorem loaded_tloadRow {r n : Nat} (hr : r < cbits w 21 16 + 1) (hn : n ≤ cbits w 27 22 + 1) :
    Loaded s (s.tloadRow d w r n) d w r (r + 1) n := by
  induction n with
  | zero => exact ⟨fun _ c _ _ hc => absurd hc (Nat.not_lt_zero c), fun _ _ => rfl⟩
  | succ n ih =>
    obtain ⟨hin, hout⟩ := ih (by omega)
    have hstep (x : Nat) : ((s.tloadRow d w r (n + 1)).ve d).tile x =
        if x = tilePos w r n then s.num (tRow d w r + 4 * n) 4 else ((s.tloadRow d w r n).ve d).tile x := by
      have hword : s.elemAt (tRow d w r) (vBits 3) n = s.num (tRow d w r + 4 * n) 4 := by
        rw [Nat.mul_comm 4]; rfl
      have hlt : s.num (tRow d w r + 4 * n) 4 < 2 ^ 32 := s.num_lt _ 4
      unfold State.tloadRow
      rw [List.range_succ, List.foldl_append, List.foldl_cons, List.foldl_nil, State.tile_writeElem, hfmt, hword,
        widen_int32, Nat.mod_mod, Nat.mod_eq_of_lt hlt, Nat.add_zero]
    refine ⟨fun r' c hlo hhi hc => ?_, fun x hx => ?_⟩
    · obtain rfl : r' = r := by omega
      rw [hstep]
      by_cases hcn : c = n
      · rw [hcn, if_pos rfl]
      · rw [if_neg fun heq => hcn (tilePos_inj hcause hr (by omega) hr (by omega) heq).2]
        exact hin r' c le_rfl (Nat.lt_succ_self _) (by omega)
    · rw [hstep, if_neg (hx r n le_rfl (Nat.lt_succ_self _) (Nat.lt_succ_self _))]
      exact hout x fun r' c hlo hhi hc => hx r' c hlo hhi (by omega)

theorem loaded_tloadRows {r k n : Nat} (hr : r + k ≤ cbits w 21 16 + 1) (hn : n ≤ cbits w 27 22 + 1) :
    Loaded s (s.tloadRows d w n r k) d w r (r + k) n := by
  induction k generalizing s r with
  | zero => exact ⟨fun _ _ hlo hhi _ => absurd hhi (by omega), fun _ _ => rfl⟩
  | succ k ih =>
    obtain ⟨hrow, hrest⟩ := loaded_tloadRow (s := s) (d := d) hfmt hcause (r := r) (by omega) hn
    obtain ⟨hin, hout⟩ := ih (s := s.tloadRow d w r n) (r := r + 1) (by omega)
    rw [tloadRows_succ]
    refine ⟨fun r' c hlo hhi hc => ?_, fun x hx => ?_⟩
    · by_cases hr' : r' = r
      · subst hr'
        rw [hout _ fun r2 c2 hlo2 hhi2 hc2 heq => ?_, hrow r' c le_rfl (Nat.lt_succ_self _) hc]
        have := (tilePos_inj hcause (by omega) (by omega) (by omega) (by omega) heq).1
        omega
      · rw [hin r' c (by omega) (by omega) hc]
        exact State.num_congr fun i _ => byte_tloadRow r n _
    · rw [hout x fun r' c hlo hhi hc => hx r' c (by omega) (by omega) hc,
        hrest x fun r' c hlo hhi hc => hx r' c hlo (by omega) hc]

end

section
variable {s : State} {d : Fin 40} {q : Fin 4} {w : Cmd}

/-- A VTLOAD in INT32 puts the words of its rows at their places (R135). -/
theorem loaded_vtload (h : VeReady s d q w []) (hop : opcodeOf w = 0x40) (hfmt : cbits w 83 80 = 3) :
    Loaded s (s.veRun d q w []) d w 0 (cbits w 21 16 + 1) (cbits w 27 22 + 1) := by
  have hcause : tCause (opcodeOf w) w = none := by
    have : veCause w = tCause (opcodeOf w) w := by unfold veCause; rw [hop]; rfl
    exact this.symm.trans h.fine
  have heffect : s.veEffect d [] w (veCount w) = s.tloadRows d w (cbits w 27 22 + 1) 0 (cbits w 21 16 + 1) := by
    have hrows : veCount w / (cbits w 27 22 + 1) = cbits w 21 16 + 1 := by
      rw [veCount, if_pos (.inl hop), Nat.mul_div_cancel _ (Nat.succ_pos _)]
    rw [State.veEffect, if_pos hop, hrows]
  obtain ⟨hin, hout⟩ := loaded_tloadRows (s := s) (d := d) hfmt hcause (r := 0) (k := cbits w 21 16 + 1) (by omega) le_rfl
  rw [Nat.zero_add] at hin hout
  refine ⟨fun r c hlo hr hc => ?_, fun x hx => ?_⟩
  · rw [tile_veRun h, heffect, hin r c hlo hr hc]
  · rw [tile_veRun h, heffect, hout x hx]

/-! ### VTTRANS -/

/-- A run of n places of a sparse map written one after the other. -/
theorem Sparse_get_foldl_set (m : Sparse W32) (a n : Nat) (f : Nat → W32) (x : Nat) :
    Sparse.get tileDefault ((List.range n).foldl (fun m k => Sparse.set tileDefault m (a + k) (f k)) m) x =
      if a ≤ x ∧ x < a + n then f (x - a) else Sparse.get tileDefault m x := by
  induction n with
  | zero => rw [if_neg (by omega)]; rfl
  | succ n ih =>
    rw [List.range_succ, List.foldl_append, List.foldl_cons, List.foldl_nil, Sparse.get_set, ih]
    by_cases hx : x = a + n
    · rw [if_pos hx, if_pos (by omega), hx, Nat.add_sub_cancel_left]
    · rw [if_neg hx]
      exact if_congr (by omega) rfl rfl

theorem tile_veTtrans (x : Nat) : ((s.veTtrans d [] w).ve d).tile x =
    if cbits w 23 20 * 4096 ≤ x ∧ x < cbits w 23 20 * 4096 + 4096 then
      (s.ve d).tile (cbits w 19 16 * 4096 + 64 * ((x - cbits w 23 20 * 4096) % 64) + (x - cbits w 23 20 * 4096) / 64)
    else (s.ve d).tile x := by
  unfold State.veTtrans
  rw [State.ve_setVe_self, VEng.tile]
  dsimp only
  rw [Sparse_get_foldl_set]
  split
  · rw [BitVec.toNat_ofNat]
    exact Nat.mod_eq_of_lt (VEng.tile_lt _ _)
  · rfl

/-- VTTRANS writes the transpose of its source tile into its destination tile (R136). -/
theorem transposed_vttrans (h : VeReady s d q w []) (hop : opcodeOf w = 0x42) :
    (∀ i j, i < 64 → j < 64 → ((s.veRun d q w []).ve d).tile (cbits w 23 20 * 4096 + 64 * i + j) =
      (s.ve d).tile (cbits w 19 16 * 4096 + 64 * j + i)) ∧
    (∀ x, x / 4096 ≠ cbits w 23 20 → ((s.veRun d q w []).ve d).tile x = (s.ve d).tile x) := by
  have heffect : s.veEffect d [] w (veCount w) = s.veTtrans d [] w := by
    unfold State.veEffect
    rw [hop]
    rfl
  refine ⟨fun i j hi hj => ?_, fun x hx => ?_⟩
  · rw [tile_veRun h, heffect, tile_veTtrans, if_pos (by omega)]
    congr 1
    omega
  · rw [tile_veRun h, heffect, tile_veTtrans, if_neg (by omega)]

end

end Sys2Proof.Machine
end

section
/-! Scalars, flags, dependence releases and counters of the vector engine, and the statement (O15). -/
namespace Sys2Proof.Machine

section
variable {s : State} {d : Fin 40} {q : Fin 4} {w : Cmd} {bad : List VeBad}

/-- A scalar register read after one was set. -/
theorem scal_setIfInBounds (v : Vector W32 16) (m : Nat) (x : W32) (n : Fin 16) :
    (v.setIfInBounds m x)[n] = if n.val = m then x else v[n] := by
  rw [Fin.getElem_fin, Vector.getElem_setIfInBounds]
  exact if_congr eq_comm rfl rfl

/-! ### VSETS (R136) -/

theorem veEffect_vsets (s : State) (hop : opcodeOf w = 0x43) : s.veEffect d bad w (veCount w) = s.veSets d w := by
  unfold State.veEffect
  rw [hop]
  rfl

theorem ve_veSets (s : State) : (s.veSets d w).ve d =
    { s.ve d with scal := (s.ve d).scal.setIfInBounds (cbits w 19 16) (BitVec.ofNat 32 (cbits w 51 20)) } :=
  State.ve_setVe_self ..

theorem vsets_gives (h : VeReady s d q w bad) (hop : opcodeOf w = 0x43) :
    (∀ n : Fin 16, ((s.veRun d q w bad).ve d).scal[n] =
      if n.val = cbits w 19 16 then BitVec.ofNat 32 (cbits w 51 20) else (s.ve d).scal[n]) ∧
    ((s.veRun d q w bad).ve d).tiles = (s.ve d).tiles := by
  obtain ⟨i, k, hve⟩ := ve_veRun h
  rw [hve, veEffect_vsets s hop, ve_veSets]
  exact ⟨fun n => scal_setIfInBounds _ _ _ n, rfl⟩

/-! ### VGETF (R136) -/

theorem status_notMem_perf (d : Fin 40) : R.VE_STATUS d ∉ (veRegs d).tail := by
  simp only [veRegs, List.tail_cons, List.mem_cons, List.not_mem_nil, or_false, not_or, R.VE_STATUS,
    R.VE_PERF_ACTIVE_LO, R.VE_PERF_ACTIVE_HI, R.VE_PERF_ELEM_LO, R.VE_PERF_ELEM_HI, R.VE_PERF_MASKED]
  omega

/-- Without a register parity error, booking leaves the flags as they are. -/
theorem get_flags_veBooked (v : State) {e : UCmd} (h : s.veMeets d bad e.w (veCount e.w) = false) :
    (v.veBooked s d bad e).get (R.VE_STATUS d) veFlagField = v.get (R.VE_STATUS d) veFlagField := by
  rw [State.get, rd_veBooked_perf v (status_notMem_perf d), h]
  exact State.get_put_of_disjoint _ _ _ _ _ (by decide) (by decide) (by decide)

theorem veGetf_gives (s : State) :
    (∀ n : Fin 16, ((s.veGetf d w).ve d).scal[n] =
      if n.val = cbits w 19 16 then BitVec.ofNat 32 (s.get (R.VE_STATUS d) veFlagField) else (s.ve d).scal[n]) ∧
    (s.veGetf d w).get (R.VE_STATUS d) veFlagField =
      if cbit w 20 then 0 else s.get (R.VE_STATUS d) veFlagField := by
  unfold State.veGetf
  extract_lets e x t
  have hve : (t.ve d).scal = e.scal.setIfInBounds (cbits w 19 16) (BitVec.ofNat 32 x) := by
    rw [State.ve_setVe_self]
  split
  · exact ⟨fun n => (congrArg (·[n]) hve).trans (scal_setIfInBounds _ _ _ n),
      State.get_put_self _ _ _ _ (by decide) (by decide)⟩
  · exact ⟨fun n => (congrArg (·[n]) hve).trans (scal_setIfInBounds _ _ _ n), rfl⟩

theorem vgetf_gives (h : VeReady s d q w []) (hop : opcodeOf w = 0x47) :
    (∀ n : Fin 16, ((s.veRun d q w []).ve d).scal[n] =
      if n.val = cbits w 19 16 then BitVec.ofNat 32 (s.get (R.VE_STATUS d) veFlagField) else (s.ve d).scal[n]) ∧
    (s.veRun d q w []).get (R.VE_STATUS d) veFlagField =
      if cbit w 20 then 0 else s.get (R.VE_STATUS d) veFlagField := by
  obtain ⟨hscal, hflags⟩ := veGetf_gives (d := d) (w := w) s
  have heffect : s.veEffect d [] w (veCount w) = s.veGetf d w := by
    unfold State.veEffect
    rw [hop]
    rfl
  have hmeets : s.veMeets d [] w (veCount w) = false := by
    unfold State.veMeets
    rw [hop]
    rfl
  constructor
  · obtain ⟨i, k, hve⟩ := ve_veRun h
    rw [hve, heffect]
    exact hscal
  · obtain ⟨e, -, rfl, -, hrun⟩ := veRun_of_ready h
    rw [hrun, get_flags_veBooked _ hmeets, heffect, hflags]

/-! ### A dependence release (R149) -/

/-- An instruction let go after a stall of n cycles: they are counted, and the engine issues that much later. -/
def State.veReleased (s : State) (d : Fin 40) (n : Nat) : State :=
  let t := s.bump (R.VE_PERF_DEPWAIT d) F.VE_PERF_DEPWAIT_COUNT n
  t.setVe d { s.ve d with issueAt := max (s.ve d).issueAt s.aclk + n }

theorem exec_veDependenceRelease {n : Nat} (hoff : s.dieOff d = false) (hstill : s.veStill d = false) :
    exec (.veDependenceRelease d n bad) s = .next ((s.veReleased d n).veHead d bad) := by
  change execVeDependenceRelease d n bad s = _
  unfold execVeDependenceRelease
  simp only [hoff, hstill, Bool.false_eq_true, if_false]
  rfl

theorem cd_veReleased (s : State) (n : Nat) : (s.veReleased d n).cd d =
    { s.cd d with ve := { s.ve d with issueAt := max (s.ve d).issueAt s.aclk + n } } := State.cd_setVe_self ..

theorem head?_veReleased (s : State) (n : Nat) : (s.veReleased d n).head? d veUnit = s.head? d veUnit := by
  rw [State.head?, cd_veReleased]
  rfl

theorem scal_veReleased (s : State) (n : Nat) : ((s.veReleased d n).ve d).scal = (s.ve d).scal := by
  rw [State.ve, cd_veReleased]

theorem rd_veReleased (s : State) (n : Nat) {a : Nat} (h : a ≠ R.VE_PERF_DEPWAIT d) :
    (s.veReleased d n).rd a = s.rd a := State.rd_put_of_ne _ _ _ h

theorem depwait_veReleased (s : State) (n : Nat) :
    (s.veReleased d n).get (R.VE_PERF_DEPWAIT d) F.VE_PERF_DEPWAIT_COUNT =
      min (2 ^ 32 - 1) (s.get (R.VE_PERF_DEPWAIT d) F.VE_PERF_DEPWAIT_COUNT + n) := by
  change (s.bump _ _ _).get _ _ = _
  rw [State.bump, State.get_put_self _ _ _ _ (by decide) (by decide), satN_eq_min]
  exact Nat.mod_eq_of_lt (lt_of_le_of_lt (min_le_left _ _) (by decide))

/-- A VSETS that was ready is ready once it is let go. -/
theorem veReady_veReleased {n : Nat} (h : VeReady s d q w bad) (hop : opcodeOf w = 0x43) :
    VeReady (s.veReleased d n) d q w bad := by
  have hstopped := congrArg (fun c : CDie => c.stopped[veUnit]) (cd_veReleased (d := d) s n)
  refine ⟨by rw [head?_veReleased]; exact h.head, hstopped.trans h.free, ?_, h.fine, fun hsr => ?_, ?_⟩
  · refine (dieOff_congr (fun a ha => rd_veReleased s n ?_) rfl rfl d).trans h.runs
    unfold R.VE_PERF_DEPWAIT cdBase
    omega
  · rw [veSr, hop] at hsr
    cases hsr
  · unfold State.veDone
    rw [hop]
    rfl

theorem depwait_notMem_veRegs (d : Fin 40) : R.VE_PERF_DEPWAIT d ∉ veRegs d := by
  simp only [veRegs, List.mem_cons, List.not_mem_nil, or_false, not_or, R.VE_STATUS, R.VE_PERF_DEPWAIT,
    R.VE_PERF_ACTIVE_LO, R.VE_PERF_ACTIVE_HI, R.VE_PERF_ELEM_LO, R.VE_PERF_ELEM_HI, R.VE_PERF_MASKED]
  omega

theorem release_vsets_gives {n : Nat} {e : UCmd} (h : VeReady s d e.q e.w bad) (he : s.head? d veUnit = some e)
    (hop : opcodeOf e.w = 0x43) (hstill : s.veStill d = false) :
    Yields (exec (.veDependenceRelease d n bad) s) (fun t =>
      t.get (R.VE_PERF_DEPWAIT d) F.VE_PERF_DEPWAIT_COUNT =
        min (2 ^ 32 - 1) (s.get (R.VE_PERF_DEPWAIT d) F.VE_PERF_DEPWAIT_COUNT + n) ∧
      (∀ k : Fin 16, (t.ve d).scal[k] =
        if k.val = cbits e.w 19 16 then BitVec.ofNat 32 (cbits e.w 51 20) else (s.ve d).scal[k]) ∧
      (t.cd d).fifo veUnit = ((s.cd d).fifo veUnit).tail) := by
  obtain ⟨x, hx, -, -, hloud⟩ := h.head
  obtain rfl : e = x := Option.some.inj (he.symm.trans hx)
  have hfirst : (s.veReleased d n).head? d veUnit = some e := (head?_veReleased s n).trans he
  refine ⟨_, exec_veDependenceRelease h.runs hstill, ?_⟩
  rw [veHead_of_ready (veReady_veReleased h hop) hfirst, veEffect_vsets _ hop]
  refine ⟨?_, fun k => ?_, ?_⟩
  · rw [get_congr (rd_veBooked _ (depwait_notMem_veRegs d))]
    exact depwait_veReleased s n
  · obtain ⟨i, m, hve⟩ :=
      ve_veBooked (s := s.veReleased d n) (bad := bad) (d := d) ((s.veReleased d n).veSets d e.w) hloud
    rw [hve, ve_veSets, scal_veReleased]
    exact scal_setIfInBounds _ _ _ k
  · rw [fifo_veBooked _ hloud, State.veSets, State.cd_setVe_self, cd_veReleased]
    rfl

/-! ### The counters cleared (R159) -/

/-- The performance counters of a vector engine. -/
def vePerfRegs (d : Fin 40) : List Nat :=
  [R.VE_PERF_ACTIVE_LO d, R.VE_PERF_ACTIVE_HI d, R.VE_PERF_ELEM_LO d, R.VE_PERF_ELEM_HI d, R.VE_PERF_LSWAIT d,
    R.VE_PERF_DEPWAIT d, R.VE_PERF_MASKED d]

theorem vePerfClear_gives (hoff : s.dieOff d = false) : Yields (exec (.vePerfClear d) s) (fun t =>
    (∀ r ∈ vePerfRegs d, t.rd r = 0) ∧ OnlyRegs (vePerfRegs d) s t ∧ t = { s with regs := t.regs, cds := t.cds } ∧
    (t.ve d).gens = (s.ve d).gens ∧ (t.ve d).tiles = (s.ve d).tiles ∧ (t.ve d).masks = (s.ve d).masks) := by
  have hve : ((s.setVe d { s.ve d with clrAt := s.aclk + 1 }).zeroRegs (vePerfRegs d)).ve d =
      { s.ve d with clrAt := s.aclk + 1 } := by
    rw [State.zeroRegs_eq]
    exact State.ve_setVe_self ..
  refine ⟨(s.setVe d { s.ve d with clrAt := s.aclk + 1 }).zeroRegs (vePerfRegs d), ?_, fun r hr => ?_,
    fun r hr => ?_, ?_, ?_⟩
  · change execVePerfClear d s = _
    unfold execVePerfClear
    rw [hoff, if_neg Bool.false_ne_true]
    rfl
  · rw [State.rd_zeroRegs, if_pos hr]
  · rw [State.rd_zeroRegs, if_neg hr]
    rfl
  · rw [State.zeroRegs_eq]
    rfl
  · rw [hve]
    exact ⟨rfl, rfl, rfl⟩

end

/-- Settles O15: each move by what its effect leaves, a release by the head it runs, CLEAR by the registers it zeroes. -/
theorem movesBetweenTilesScalarsAndStore : Obligations.MovesBetweenTilesScalarsAndStore := by
  refine ⟨fun s d q w h => ⟨fun hu hfmt => ?_, fun hu => ⟨_, rfl, transposed_vttrans h (opcodeOf_of_isUnit hu)⟩,
    fun hu => ⟨_, rfl, vsets_gives h (opcodeOf_of_isUnit hu)⟩, fun hu => ?_⟩,
    fun s d n e h he hu hstill => release_vsets_gives h he (opcodeOf_of_isUnit hu) hstill,
    fun s d hoff => vePerfClear_gives hoff⟩
  · obtain ⟨hin, hout⟩ := loaded_vtload h (opcodeOf_of_isUnit hu) hfmt
    exact ⟨_, rfl, fun r c hr hc => hin r c (Nat.zero_le _) hr hc,
      fun x hx => hout x fun r c _ hr hc => hx r c hr hc⟩
  · obtain ⟨hscal, hflags⟩ := vgetf_gives h (opcodeOf_of_isUnit hu)
    exact ⟨_, rfl, hscal, fun hclr => by rw [hflags, if_pos hclr], fun hclr => by rw [hflags, if_neg (by simp [hclr])]⟩

end Sys2Proof.Machine
end

section
/-! A queue that goes on past its command, and one that waits at it (R160, R162, R193): what its registers, its call stack and
its die hold then. -/
namespace Sys2Proof.Machine

section
variable {s t : State} {d : Fin 40} {q : Fin 4}

/-! ### A queue beside its registers -/

theorem que_of_cd (h : t.cd d = s.cd d) : t.que d q = s.que d q := congrArg (fun c : CDie => c.queues[q]) h

theorem que_setCd_self (c : CDie) : (s.setCd d c).que d q = c.queues[q] := by rw [State.que, State.cd_setCd_self]

@[simp] theorem que_put (a : Nat) (f : Fld) (n : Nat) : (s.put a f n).que d q = s.que d q := rfl

@[simp] theorem que_setQue_self (x : QueueState) : (s.setQue d q x).que d q = x := by simp [State.que, State.setQue]

theorem que_setQue_of_ne {p : Fin 4} (h : p ≠ q) (x : QueueState) : (s.setQue d q x).que d p = s.que d p := by
  have hv : q.val ≠ p.val := fun he => h (Fin.ext he.symm)
  simp [State.que, State.setQue, hv]

theorem cd_setQue_self (x : QueueState) :
    (s.setQue d q x).cd d = { s.cd d with queues := (s.cd d).queues.set q x } := State.cd_setCd_self _ _ _

theorem rd_setQue (x : QueueState) (a : Nat) : (s.setQue d q x).rd a = s.rd a := rfl

theorem que_completeAt (e : UCmd) (n : Nat) : (s.completeAt d e n).que d q = s.que d q := by
  unfold State.completeAt
  split
  · rfl
  · rw [que_setCd_self]; rfl

/-! ### The registers of a queue -/

theorem seqHead_ne_status : R.SEQ_Q_HEAD d q ≠ R.SEQ_Q_STATUS d q := by
  unfold R.SEQ_Q_HEAD R.SEQ_Q_STATUS; omega

theorem seqTail_ne_status : R.SEQ_Q_TAIL d q ≠ R.SEQ_Q_STATUS d q := by
  unfold R.SEQ_Q_TAIL R.SEQ_Q_STATUS; omega

theorem seqTail_ne_head : R.SEQ_Q_TAIL d q ≠ R.SEQ_Q_HEAD d q := by
  unfold R.SEQ_Q_TAIL R.SEQ_Q_HEAD; omega

theorem qState_congr (h : t.rd (R.SEQ_Q_STATUS d q) = s.rd (R.SEQ_Q_STATUS d q)) : t.qState d q = s.qState d q :=
  get_congr h _

theorem qHead_congr (h : t.rd (R.SEQ_Q_HEAD d q) = s.rd (R.SEQ_Q_HEAD d q)) : t.qHead d q = s.qHead d q := get_congr h _

theorem qTail_congr (h : t.rd (R.SEQ_Q_TAIL d q) = s.rd (R.SEQ_Q_TAIL d q)) : t.qTail d q = s.qTail d q := get_congr h _

/-- STATE read after it was set. -/
theorem qState_setQState {n : Nat} (hn : n < 8) : (s.setQState d q n).qState d q = n := by
  rw [State.qState, State.setQState, State.get_put_self _ _ _ _ (by decide) (by decide)]
  exact Nat.mod_eq_of_lt hn

/-- STATE stands where another field of STATUS is set. -/
theorem qState_put_status {f : Fld} (hlo : 2 < f.2) (hf : f.2 ≤ f.1) (n : Nat) :
    (s.put (R.SEQ_Q_STATUS d q) f n).qState d q = s.qState d q :=
  State.get_put_of_disjoint _ _ _ _ _ hf (by decide) (.inr hlo)

theorem qState_qSync : (s.qSync d q).qState d q = s.qState d q :=
  (qState_put_status (by decide) (by decide) _).trans (qState_put_status (by decide) (by decide) _)

theorem qHead_qSync : (s.qSync d q).qHead d q = s.qHead d q := qHead_congr (rd_qSync s d q seqHead_ne_status)

theorem cd_qSync (x : Fin 40) : (s.qSync d q).cd x = s.cd x := rfl

/-! ### Moved on by one command -/

/-- The call stack once the next command has been passed, without the blocks that have run out (R160). -/
def stackPast : List Frame → List Frame
  | [] => []
  | f :: fs => dropDone ({ f with addr := f.addr + 16, left := f.left - 1, pos := f.pos + 1 } :: fs)

/-- A queue outside any call passes a command by HEAD, one in a call by the innermost block. -/
theorem pass_of_empty (h : (s.que d q).stack = []) :
    s.pass d q = s.put (R.SEQ_Q_HEAD d q) F.SEQ_Q_HEAD_INDEX (s.qHead d q + 1) := by
  unfold State.pass
  simp only [h]

theorem pass_of_block {f : Frame} {fs : List Frame} (h : (s.que d q).stack = f :: fs) :
    s.pass d q = s.setQue d q { s.que d q with
      stack := { f with addr := f.addr + 16, left := f.left - 1, pos := f.pos + 1 } :: fs } := by
  unfold State.pass
  simp only [h]

theorem pass_step {as : List Nat} (hh : R.SEQ_Q_HEAD d q ∈ as) : ArrayStep as s (s.pass d q) := by
  cases h : (s.que d q).stack with
  | nil => rw [pass_of_empty h]; exact (ArrayStep.refl s).put hh _ _
  | cons f fs => rw [pass_of_block h]; exact (ArrayStep.refl s).setCd _

theorem ArrayStep.qSync {as : List Nat} (h : ArrayStep as s t) (hs : R.SEQ_Q_STATUS d q ∈ as) :
    ArrayStep as s (t.qSync d q) := (h.put hs _ _).put hs _ _

theorem ArrayStep.setQState {as : List Nat} (h : ArrayStep as s t) (hs : R.SEQ_Q_STATUS d q ∈ as) (n : Nat) :
    ArrayStep as s (t.setQState d q n) := h.put hs _ _

theorem ArrayStep.setQue {as : List Nat} (h : ArrayStep as s t) (x : QueueState) : ArrayStep as s (t.setQue d q x) :=
  h.setCd _

/-- Moving on changes the queue's STATUS and HEAD, and its die. -/
theorem ArrayStep.advance {as : List Nat} (h : ArrayStep as s t) (hs : R.SEQ_Q_STATUS d q ∈ as)
    (hh : R.SEQ_Q_HEAD d q ∈ as) : ArrayStep as s (t.advance d q) :=
  h.trans (((pass_step hh).setQue _).qSync hs)

/-- Of the die, moving on changes the queue's call stack alone. -/
theorem cd_advance : (s.advance d q).cd d = { s.cd d with
    queues := (s.cd d).queues.set q { s.que d q with stack := stackPast (s.que d q).stack } } := by
  unfold State.advance
  rw [cd_qSync, cd_setQue_self]
  cases h : (s.que d q).stack with
  | nil => rw [pass_of_empty h, State.cd_put, que_put, h]; rfl
  | cons f fs => rw [pass_of_block h, que_setQue_self, cd_setQue_self]; simp [stackPast]

theorem qState_advance : (s.advance d q).qState d q = s.qState d q := by
  unfold State.advance
  rw [qState_qSync]
  cases h : (s.que d q).stack with
  | nil => rw [pass_of_empty h]; exact qState_congr (State.rd_put_of_ne _ _ _ seqHead_ne_status.symm)
  | cons f fs => rw [pass_of_block h]; rfl

/-- Outside any call, HEAD moves on by one. -/
theorem qHead_pass (h : (s.que d q).stack = []) : (s.pass d q).qHead d q = (s.qHead d q + 1) % 65536 := by
  rw [pass_of_empty h]
  exact State.get_put_self _ _ _ _ (by decide) (by decide)

theorem qHead_advance (h : (s.que d q).stack = []) : (s.advance d q).qHead d q = (s.qHead d q + 1) % 65536 :=
  qHead_qSync.trans (qHead_pass h)

/-- A queue that has moved on from a state with the same call stack and HEAD. -/
theorem movedOn_advance (hst : (t.que d q).stack = (s.que d q).stack) (hh : t.qHead d q = s.qHead d q) :
    MovedOn d q s (t.advance d q) := fun h => by rw [qHead_advance (hst.trans h), hh]

/-! ### A command of the queue itself complete, and the queue past it -/

/-- What the end of a SYNC command leaves behind a step `t` of it: its increment due, the queue moved on. -/
structure Finished (s t : State) (d : Fin 40) (q : Fin 4) (w : Cmd) : Prop where
  die : ∃ st, t.cd d = { s.cd d with
    due := (s.cd d).due ++ sigDue q w (s.aclk + 1)
    queues := (s.cd d).queues.set q { s.que d q with stack := st } }
  state : t.qState d q = s.qState d q
  moved : MovedOn d q s t
  step : ArrayStep [R.SEQ_Q_STATUS d q, R.SEQ_Q_HEAD d q] s t

theorem finished_complete_advance (w : Cmd) (idx depth : Nat) :
    Finished s ((s.complete d (asCmd q w idx depth)).advance d q) d q w := by
  have hcd := State.cd_completeAt (d := d) s (e := asCmd q w idx depth) rfl (s.aclk + 1)
  have hque : (s.complete d (asCmd q w idx depth)).que d q = s.que d q := que_completeAt _ _
  have hrd (a : Nat) : (s.complete d (asCmd q w idx depth)).rd a = s.rd a := State.rd_completeAt _ _ _
  refine ⟨⟨stackPast (s.que d q).stack, ?_⟩, qState_advance.trans (qState_congr (hrd _)),
    movedOn_advance (congrArg QueueState.stack hque) (qHead_congr (hrd _)),
    ((ArrayStep.refl s).complete _).advance (by simp) (by simp)⟩
  rw [cd_advance, hque, State.complete, hcd]
  rfl

theorem Finished.due {w : Cmd} (h : Finished s t d q w) :
    (t.cd d).due = (s.cd d).due ++ sigDue q w (s.aclk + 1) := by
  obtain ⟨st, hdie⟩ := h.die
  rw [hdie]

theorem Finished.que {w : Cmd} (h : Finished s t d q w) : ∃ st, t.que d q = { s.que d q with stack := st } := by
  obtain ⟨st, hdie⟩ := h.die
  refine ⟨st, ?_⟩
  rw [State.que, hdie]
  simp

/-- A command finished in a state that differs from `s` in what the command did: the queue has moved on from `s`. -/
theorem Finished.from {x : State} {w : Cmd} (h : Finished x t d q w)
    (hx : ArrayStep [R.SEQ_Q_STATUS d q, R.SEQ_Q_HEAD d q] s x) (hst : (x.que d q).stack = (s.que d q).stack)
    (hh : x.qHead d q = s.qHead d q) :
    (t.cd d).due = (x.cd d).due ++ sigDue q w (s.aclk + 1) ∧ MovedOn d q s t ∧
      ArrayStep [R.SEQ_Q_STATUS d q, R.SEQ_Q_HEAD d q] s t :=
  ⟨by rw [h.due, hx.aclk], fun he => by rw [h.moved (hst.trans he), hh], hx.trans h.step⟩

/-- What proceeding from a wait leaves (R167, R169). -/
structure Proceeded (s t : State) (d : Fin 40) (q : Fin 4) (w : Cmd) : Prop where
  runs : t.qState d q = 1
  free : (t.que d q).wait = none
  due : (t.cd d).due = (s.cd d).due ++ sigDue q w (s.aclk + 1)
  moved : MovedOn d q s t
  step : ArrayStep [R.SEQ_Q_STATUS d q, R.SEQ_Q_HEAD d q] s t

theorem proceeded_proceed (s : State) (d : Fin 40) (q : Fin 4) (w : Cmd) (idx depth : Nat) :
    Proceeded s (s.proceed d q w idx depth) d q w := by
  obtain ⟨x, hx⟩ : ∃ x, (s.setQue d q { s.que d q with wait := none, barked := false }).setQState d q 1 = x := ⟨_, rfl⟩
  have hp : s.proceed d q w idx depth = (x.complete d (asCmd q w idx depth)).advance d q := by rw [← hx]; rfl
  have hstate : x.qState d q = 1 := by rw [← hx]; exact qState_setQState (by decide)
  have hque : x.que d q = { s.que d q with wait := none, barked := false } := by
    rw [← hx, State.setQState, que_put, que_setQue_self]
  have hhead : x.qHead d q = s.qHead d q := by
    rw [← hx]; exact qHead_congr (State.rd_put_of_ne _ _ _ seqHead_ne_status)
  have hdue : (x.cd d).due = (s.cd d).due := by rw [← hx, State.setQState, State.cd_put, cd_setQue_self]
  have hstep : ArrayStep [R.SEQ_Q_STATUS d q, R.SEQ_Q_HEAD d q] s x := by
    rw [← hx]; exact ((ArrayStep.refl s).setQue _).setQState (by simp) 1
  have hfin := finished_complete_advance (s := x) (d := d) (q := q) w idx depth
  rw [hp]
  refine ⟨hfin.state.trans hstate, ?_, ?_, fun h => ?_, hstep.trans hfin.step⟩
  · obtain ⟨st, hst⟩ := hfin.que
    rw [hst, hque]
  · rw [hfin.due, hdue, hstep.aclk]
  · rw [hfin.moved (by rw [hque]; exact h), hhead]

/-- What waiting at a command leaves (R167, R169). -/
theorem hold_gives (s : State) (d : Fin 40) (q : Fin 4) (w : Cmd) {st : Nat} (hst : st < 8) :
    (s.hold d q w st).qState d q = st ∧ ((s.hold d q w st).que d q).wait = some w ∧
      ((s.hold d q w st).cd d).due = (s.cd d).due ∧ ArrayStep [R.SEQ_Q_STATUS d q] s (s.hold d q w st) := by
  refine ⟨qState_setQState hst, ?_, ?_, ((ArrayStep.refl s).setQue _).setQState (by simp) st⟩
  · rw [State.hold, State.setQState, que_put, que_setQue_self]
  · rw [State.hold, State.setQState, State.cd_put, cd_setQue_self]

/-! ### The command at the head of a running queue -/

/-- A SYNC command at the head of its queue is executed (R162, R190). -/
theorem syncHead_of_atHead {w : Cmd} {a idx depth : Nat} (h : AtHead s d q w a idx depth) :
    s.syncHead d q w = s.syncExec d q w idx depth := by
  unfold State.syncHead
  simp only [h.place, h.clock, h.runs, h.word, h.fine, ne_eq, not_true_eq_false, or_self, Bool.false_eq_true, if_false]

theorem ArrayStep.mono {as bs : List Nat} (h : ArrayStep as s t) (hsub : as ⊆ bs) : ArrayStep bs s t :=
  ⟨fun a ha => h.regs a fun hm => ha (hsub hm), h.frame⟩

end

end Sys2Proof.Machine
end

section
/-! The SYNC commands that counters, base registers, calls and halts need (O16). -/
namespace Sys2Proof.Machine

section
variable (s : State) (d : Fin 40) (q : Fin 4) {w : Cmd} (idx depth : Nat)

/-! ### SYNC_WAIT (R167, R171) -/

theorem syncExec_wait_met (hop : opcodeOf w = 0x60) (hm : s.waitMet d w = true) :
    s.syncExec d q w idx depth = s.proceed d q w idx depth := by
  unfold State.syncExec
  simp only [hop, hm, if_true]

theorem syncExec_wait_unmet (hop : opcodeOf w = 0x60) (hm : s.waitMet d w = false) :
    s.syncExec d q w idx depth =
      (s.hold d q w 2).put (R.SEQ_Q_STATUS d q) F.SEQ_Q_STATUS_WCTR (cbits w 23 16) := by
  unfold State.syncExec
  simp only [hop, hm, if_true, Bool.false_eq_true, if_false]

theorem wait_unmet_gives (hop : opcodeOf w = 0x60) (hm : s.waitMet d w = false) :
    (s.syncExec d q w idx depth).qState d q = 2 ∧ ((s.syncExec d q w idx depth).que d q).wait = some w ∧
      (s.syncExec d q w idx depth).get (R.SEQ_Q_STATUS d q) F.SEQ_Q_STATUS_WCTR = cbits w 23 16 ∧
      ((s.syncExec d q w idx depth).cd d).due = (s.cd d).due ∧
      ArrayStep [R.SEQ_Q_STATUS d q] s (s.syncExec d q w idx depth) := by
  obtain ⟨hstate, hwait, hdue, hstep⟩ := hold_gives s d q w (st := 2) (by decide)
  rw [syncExec_wait_unmet s d q idx depth hop hm]
  refine ⟨(qState_put_status (by decide) (by decide) _).trans hstate, by rw [que_put, hwait], ?_,
    by rw [State.cd_put, hdue], hstep.put (by simp) _ _⟩
  rw [State.get_put_self _ _ _ _ (by decide) (by decide)]
  exact Nat.mod_eq_of_lt (Nat.mod_lt _ (by decide))

/-! ### SYNC_SIGNAL (R166, R171) -/

theorem syncExec_signal (hop : opcodeOf w = 0x61) : s.syncExec d q w idx depth =
    ((s.ctrDue d (cbits w 23 16) (cbits w 39 24)).complete d (asCmd q w idx depth)).advance d q := by
  unfold State.syncExec
  simp [hop]

theorem signal_gives (hop : opcodeOf w = 0x61) :
    ((s.syncExec d q w idx depth).cd d).due =
        (s.cd d).due ++ [(s.aclk + 1, cbits w 23 16, cbits w 39 24)] ++ sigDue q w (s.aclk + 1) ∧
      MovedOn d q s (s.syncExec d q w idx depth) ∧
      ArrayStep [R.SEQ_Q_STATUS d q, R.SEQ_Q_HEAD d q] s (s.syncExec d q w idx depth) := by
  have hque : (s.ctrDue d (cbits w 23 16) (cbits w 39 24)).que d q = s.que d q := que_setCd_self _
  obtain ⟨hdue, hmoved, hstep⟩ := (finished_complete_advance (d := d) (q := q)
    (s := s.ctrDue d (cbits w 23 16) (cbits w 39 24)) w idx depth).from ((ArrayStep.refl s).setCd _)
    (congrArg QueueState.stack hque) rfl
  rw [syncExec_signal s d q idx depth hop]
  refine ⟨?_, hmoved, hstep⟩
  rw [hdue, State.ctrDue, State.cd_setCd_self]

/-! ### SYNC_SETBASE (R172) -/

/-- Queue q with a base register written. -/
def State.based (s : State) (d : Fin 40) (q : Fin 4) (n : Nat) (b : BitVec 42) : State :=
  s.setQue d q { s.que d q with bases := (s.que d q).bases.setIfInBounds n b }

theorem syncExec_setbase (hop : opcodeOf w = 0x64) : s.syncExec d q w idx depth =
    ((s.based d q (cbits w 18 16) (BitVec.ofNat 42 (cbits w 60 19))).complete d (asCmd q w idx depth)).advance d q := by
  unfold State.syncExec
  simp [hop, State.based]

theorem setbase_gives (hop : opcodeOf w = 0x64) :
    (∀ n : Fin 8, ((s.syncExec d q w idx depth).que d q).bases[n] =
        if n.val = cbits w 18 16 then BitVec.ofNat 42 (cbits w 60 19) else (s.que d q).bases[n]) ∧
      ((s.syncExec d q w idx depth).cd d).due = (s.cd d).due ++ sigDue q w (s.aclk + 1) ∧
      MovedOn d q s (s.syncExec d q w idx depth) ∧
      ArrayStep [R.SEQ_Q_STATUS d q, R.SEQ_Q_HEAD d q] s (s.syncExec d q w idx depth) := by
  rw [syncExec_setbase s d q idx depth hop]
  generalize cbits w 18 16 = i
  generalize BitVec.ofNat 42 (cbits w 60 19) = b
  have hfin := finished_complete_advance (d := d) (q := q) (s := s.based d q i b) w idx depth
  have hque : (s.based d q i b).que d q = _ := que_setQue_self _
  obtain ⟨hdue, hmoved, hstep⟩ := hfin.from (s := s) ((ArrayStep.refl s).setQue _) (by rw [hque]) rfl
  refine ⟨fun n => ?_, ?_, hmoved, hstep⟩
  · obtain ⟨st, hst⟩ := hfin.que
    rw [hst, hque]
    simp [Vector.getElem_setIfInBounds, eq_comm]
  · rw [hdue, State.based, cd_setQue_self]

/-! ### SYNC_CALL (R173) -/

theorem syncExec_call (hop : opcodeOf w = 0x65) : s.syncExec d q w idx depth =
    ((s.pass d q).setQue d q { (s.pass d q).que d q with
      stack := ⟨s.relocate d q (cbits w 59 16) 16 (cbits w 62 60), cbits w 78 63 + 1, 0⟩ ::
        ((s.pass d q).que d q).stack }).qSync d q := by
  unfold State.syncExec
  simp [hop]

theorem call_gives (hop : opcodeOf w = 0x65) :
    ((s.syncExec d q w idx depth).que d q).stack.head? =
        some ⟨s.relocate d q (cbits w 59 16) 16 (cbits w 62 60), cbits w 78 63 + 1, 0⟩ ∧
      MovedOn d q s (s.syncExec d q w idx depth) ∧
      ArrayStep [R.SEQ_Q_STATUS d q, R.SEQ_Q_HEAD d q] s (s.syncExec d q w idx depth) := by
  rw [syncExec_call s d q idx depth hop]
  refine ⟨?_, fun h => qHead_qSync.trans (qHead_pass h), ((pass_step (by simp)).setQue _).qSync (by simp)⟩
  rw [que_of_cd (cd_qSync d), que_setQue_self]
  rfl

/-! ### SYNC_HALT (R173) -/

theorem syncExec_halt (hop : opcodeOf w = 0x66) : ∃ t, Finished s t d q w ∧ s.syncExec d q w idx depth =
    (t.setQState d q 4).setCd d { t.cd d with coreIrq := true } := by
  refine ⟨_, finished_complete_advance w idx depth, ?_⟩
  unfold State.syncExec
  simp [hop, State.setQState]

theorem halt_gives (hop : opcodeOf w = 0x66) :
    (s.syncExec d q w idx depth).qState d q = 4 ∧ ((s.syncExec d q w idx depth).cd d).coreIrq = true ∧
      ((s.syncExec d q w idx depth).cd d).due = (s.cd d).due ++ sigDue q w (s.aclk + 1) ∧
      MovedOn d q s (s.syncExec d q w idx depth) ∧
      ArrayStep [R.SEQ_Q_STATUS d q, R.SEQ_Q_HEAD d q] s (s.syncExec d q w idx depth) := by
  obtain ⟨t, hfin, hexec⟩ := syncExec_halt s d q idx depth hop
  rw [hexec]
  refine ⟨qState_setQState (by decide), ?_, ?_, fun h => ?_, (hfin.step.setQState (by simp) 4).setCd _⟩
  · rw [State.cd_setCd_self]
  · rw [State.cd_setCd_self, hfin.due]
  · exact (qHead_congr (State.rd_put_of_ne _ _ _ seqHead_ne_status)).trans (hfin.moved h)

end

/-- Settles O16: each SYNC command at its queue's head by what its execution leaves (`proceeded_proceed`,
`wait_unmet_gives`, `signal_gives`, `setbase_gives`, `call_gives`, `halt_gives`). -/
theorem syncCommandsExecuteAtTheHead : Obligations.SyncCommandsExecuteAtTheHead := by
  intro s d q w a idx depth hat
  have hnext (c : Instr) (hc : exec c s = .next (s.syncHead d q w)) : exec c s = .next (s.syncExec d q w idx depth) := by
    rw [hc, syncHead_of_atHead hat]
  refine ⟨fun hu hm => ⟨_, hnext _ rfl, ?_⟩, fun hu hm => ⟨_, hnext _ rfl, ?_⟩, fun hu => ⟨_, hnext _ rfl, ?_⟩,
    fun hu => ⟨_, hnext _ rfl, ?_⟩, fun hu => ⟨_, hnext _ rfl, ?_⟩, fun hu => ⟨_, hnext _ rfl, ?_⟩⟩ <;>
    have hop := opcodeOf_of_isUnit hu
  · obtain ⟨hruns, hfree, hdue, hmoved, hregs, hframe⟩ := proceeded_proceed s d q w idx depth
    rw [syncExec_wait_met s d q idx depth hop hm]
    exact ⟨hruns, hfree, hdue, hmoved, hregs, hframe⟩
  · obtain ⟨hstate, hwait, hctr, hdue, hregs, hframe⟩ := wait_unmet_gives s d q idx depth hop hm
    exact ⟨hstate, hwait, hctr, hdue, hregs, hframe⟩
  · obtain ⟨hdue, hmoved, hregs, hframe⟩ := signal_gives s d q idx depth hop
    exact ⟨hdue, hmoved, hregs, hframe⟩
  · obtain ⟨hbases, hdue, hmoved, hregs, hframe⟩ := setbase_gives s d q idx depth hop
    exact ⟨hbases, hdue, hmoved, hregs, hframe⟩
  · obtain ⟨hstack, hmoved, hregs, hframe⟩ := call_gives s d q idx depth hop
    exact ⟨hstack, hmoved, hregs, hframe⟩
  · obtain ⟨hstate, hirq, hdue, hmoved, hregs, hframe⟩ := halt_gives s d q idx depth hop
    exact ⟨hstate, hirq, hdue, hmoved, hregs, hframe⟩

end Sys2Proof.Machine
end

section
/-! The watchdog of a wait and the counters (O18, O19). -/
namespace Sys2Proof.Machine

section
variable {s : State} {d : Fin 40} {q : Fin 4}

/-! ### The watchdog (R170) -/

/-- A queue whose watchdog has fired for its wait. -/
def State.barks (s : State) (d : Fin 40) (q : Fin 4) : State := s.setQue d q { s.que d q with barked := true }

theorem exec_watchdog_fires {n : Nat} (hn : s.get (R.SEQ_CFG d) F.SEQ_CFG_WDOG = n) (hoff : s.dieOff d = false)
    (hwaits : s.qState d q = 2 ∨ s.qState d q = 3) (hpos : n ≠ 0) (hlong : (s.que d q).since + n * 1024 ≤ s.aclk)
    (hquiet : (s.que d q).barked = false) :
    exec (.seqWaitWatchdog d q) s =
      .next ((s.barks d q).raise 0x4067 d (some ((s.barks d q).cdCanton d)) (detail q 0 0)) := by
  change execSeqWaitWatchdog d q s = _
  unfold execSeqWaitWatchdog
  simp only [hn]
  exact if_pos ⟨hoff, hwaits, hpos, hquiet, hlong⟩

theorem exec_watchdog_barked (h : (s.que d q).barked = true) : exec (.seqWaitWatchdog d q) s = .next s := by
  change execSeqWaitWatchdog d q s = _
  unfold execSeqWaitWatchdog
  simp [h]

theorem exec_watchdog_unset (h : s.get (R.SEQ_CFG d) F.SEQ_CFG_WDOG = 0) : exec (.seqWaitWatchdog d q) s = .next s := by
  change execSeqWaitWatchdog d q s = _
  unfold execSeqWaitWatchdog
  simp [h]

end

/-- Settles O18: the watchdog fires once, since it notes on the queue's wait that it has (`exec_watchdog_barked`). -/
theorem watchdogBarksOncePerWait : Obligations.WatchdogBarksOncePerWait := by
  intro s d q n hn hoff hwaits
  refine ⟨fun hpos hlong hquiet => ?_, fun hzero => exec_watchdog_unset (hn.trans hzero)⟩
  have hque : ((s.barks d q).raise 0x4067 d (some ((s.barks d q).cdCanton d)) (detail q 0 0)).que d q =
      { s.que d q with barked := true } := que_setQue_self _
  refine ⟨_, exec_watchdog_fires hn hoff hwaits hpos hlong hquiet, ⟨_, rfl, rfl, rfl⟩, rfl, ?_, ?_, rfl,
    exec_watchdog_barked ?_⟩ <;>
    rw [hque]

section
variable {s : State} {d : Fin 40}

/-! ### Counters (R164-R167) -/

/-- The amounts for counter c in a list of increments, summed. -/
def ctrSum (l : List (Nat × Nat × Nat)) (c : Nat) : Nat :=
  ((l.filter (fun x => x.2.1 == c)).map (fun x => x.2.2)).sum

theorem ctrSum_cons (x : Nat × Nat × Nat) (l : List (Nat × Nat × Nat)) (c : Nat) :
    ctrSum (x :: l) c = (if x.2.1 = c then x.2.2 else 0) + ctrSum l c := by
  unfold ctrSum
  by_cases h : x.2.1 = c <;> simp [h]

theorem seqCtr_injective {i j : Nat} (h : R.SEQ_CTR d i = R.SEQ_CTR d j) : i = j := by
  unfold R.SEQ_CTR at h; omega

theorem ctr_lt (c : Nat) : s.ctr d c < 2 ^ 16 := get_lt _ _ _

theorem ctr_put_self (c n : Nat) : (s.put (R.SEQ_CTR d c) F.SEQ_CTR_VALUE n).ctr d c = n % 2 ^ 16 :=
  State.get_put_self _ _ _ _ (by decide) (by decide)

theorem ctr_put_of_ne {c i : Nat} (n : Nat) (h : i ≠ c) :
    (s.put (R.SEQ_CTR d i) F.SEQ_CTR_VALUE n).ctr d c = s.ctr d c :=
  State.get_put_of_ne _ _ _ _ fun he => h (seqCtr_injective he).symm

theorem addCtrs_cons (x : Nat × Nat × Nat) (l : List (Nat × Nat × Nat)) : s.addCtrs d (x :: l) =
    (s.put (R.SEQ_CTR d x.2.1) F.SEQ_CTR_VALUE (s.ctr d x.2.1 + x.2.2)).addCtrs d l := rfl

/-- Increments of a cycle are summed, modulo 2^16 (R166). -/
theorem ctr_addCtrs (l : List (Nat × Nat × Nat)) (s : State) (c : Nat) :
    (s.addCtrs d l).ctr d c = (s.ctr d c + ctrSum l c) % 2 ^ 16 := by
  induction l generalizing s with
  | nil => exact (Nat.mod_eq_of_lt (ctr_lt c)).symm
  | cons x l ih =>
    rw [addCtrs_cons, ih, ctrSum_cons]
    by_cases h : x.2.1 = c
    · subst h
      rw [ctr_put_self, if_pos rfl, Nat.mod_add_mod, Nat.add_assoc]
    · rw [ctr_put_of_ne _ h, if_neg h, Nat.zero_add]

theorem addCtrs_regsOnly (l : List (Nat × Nat × Nat)) (s : State) : RegsOnly s (s.addCtrs d l) :=
  RegsOnly.foldl (fun _ _ h => h.put _ _ _) (.refl s)

theorem rd_addCtrs {l : List (Nat × Nat × Nat)} {a : Nat} (h : ∀ x ∈ l, a ≠ R.SEQ_CTR d x.2.1) (s : State) :
    (s.addCtrs d l).rd a = s.rd a :=
  rd_foldl (fun _ x hx => State.rd_put_of_ne _ _ _ (h x hx)) s

/-! ### A write of a counter -/

/-- The increments for counter c that arrive in this cycle: due ones, and ones that have come. -/
def State.arriving (s : State) (d : Fin 40) (c : Nat) : List (Nat × Nat × Nat) :=
  ((s.cd d).came ++ (s.cd d).due).filter (fun x => x.1 == s.aclk && x.2.1 == c)

theorem ctrWrite_gives (hoff : s.dieOff d = false) (c : Fin 256) (v : BitVec 16) :
    ∃ x : CDie, exec (.seqCtrWrite d c v) s =
      .next (((s.setCd d x).put (R.SEQ_CTR d c) F.SEQ_CTR_VALUE v.toNat).addCtrs d (s.arriving d c)) := by
  refine ⟨{ s.cd d with
    due := (s.cd d).due.filter (fun x => !(decide (x.1 ≤ s.aclk) && x.2.1 == c.val))
    came := ((s.cd d).came ++ (s.cd d).due.filter (fun x => decide (x.1 ≤ s.aclk) && x.2.1 == c.val)).filter
      (fun x => x.1 == s.aclk) }, ?_⟩
  have hsame : (((s.cd d).came ++ (s.cd d).due.filter (fun x => decide (x.1 ≤ s.aclk) && x.2.1 == c.val)).filter
      (fun x => x.1 == s.aclk)).filter (fun x => decide (x.1 ≤ s.aclk) && x.2.1 == c.val) = s.arriving d c := by
    unfold State.arriving
    simp only [List.filter_append, List.filter_filter]
    congr 1 <;> refine List.filter_congr fun x _ => ?_ <;>
    · by_cases hx : x.1 = s.aclk
      · simp [hx]
      · simp [beq_eq_false_iff_ne.mpr hx]
  change execSeqCtrWrite d c v s = _
  unfold execSeqCtrWrite
  rw [if_neg (by simp [hoff])]
  dsimp only
  rw [hsame]

theorem arriving_counter {c : Nat} {x : Nat × Nat × Nat} (h : x ∈ s.arriving d c) : x.2.1 = c := by
  have h2 := (List.mem_filter.mp h).2
  simp only [Bool.and_eq_true, beq_iff_eq] at h2
  exact h2.2

theorem ctrSum_arriving (c : Nat) :
    ctrSum (s.arriving d c) c = ((s.arriving d c).map (fun x => x.2.2)).sum := by
  unfold ctrSum
  rw [List.filter_eq_self.mpr fun x hx => beq_iff_eq.mpr (arriving_counter hx)]

/-! ### SEQ_COMPLETION_SIGNAL (R165) -/

theorem setCd_cd (s : State) (d : Fin 40) : s.setCd d (s.cd d) = s := by simp [State.setCd, State.cd]

theorem settlePsig_of_none (hp : (s.cd d).psig = []) : s.settlePsig d = s := by
  unfold State.settlePsig
  rw [hp, List.filter_nil, List.filter_nil, List.foldl_nil, ← hp]
  exact setCd_cd s d

theorem exec_completionSignal (hoff : s.dieOff d = false) (hp : (s.cd d).psig = []) :
    ∃ x : CDie, x.due = (s.cd d).due.filter (fun x => decide (s.aclk < x.1)) ∧
      exec (.seqCompletionSignal d) s =
        .next ((s.setCd d x).addCtrs d ((s.cd d).due.filter (fun x => decide (x.1 ≤ s.aclk)))) := by
  refine ⟨{ s.cd d with
    due := (s.cd d).due.filter (fun x => !decide (x.1 ≤ s.aclk))
    came := ((s.cd d).came ++ (s.cd d).due.filter (fun x => decide (x.1 ≤ s.aclk))).filter (fun x => x.1 == s.aclk) },
    List.filter_congr fun x _ => by rw [← decide_not]; exact decide_eq_decide.mpr Nat.not_le, ?_⟩
  change execSeqCompletionSignal d s = _
  unfold execSeqCompletionSignal
  rw [if_neg (by simp [hoff])]
  dsimp only
  rw [settlePsig_of_none]
  rw [(addCtrs_regsOnly _ _).cd, State.cd_setCd_self]
  exact hp

end

/-- Settles O19: increments for one counter are summed into it (`ctr_addCtrs`), after a write's value; a satisfied wait
proceeds (`proceeded_proceed`). -/
theorem countersSumTheirIncrements : Obligations.CountersSumTheirIncrements := by
  refine ⟨fun s d c v hoff => ?_, fun s d c n hoff => ?_, fun s d c hoff hp => ?_, fun s d q w hoff hw hst hm => ?_⟩
  · obtain ⟨x, hexec⟩ := ctrWrite_gives hoff c v
    refine ⟨_, hexec, ?_, fun a ha => ?_, ?_⟩
    · rw [ctr_addCtrs, ctr_put_self, Nat.mod_add_mod, ctrSum_arriving]
      rfl
    · rw [List.mem_singleton] at ha
      rw [rd_addCtrs fun x hx => by rw [arriving_counter hx]; exact ha, State.rd_put_of_ne _ _ _ ha, State.rd_setCd]
    · exact RegsOnly.after rfl (addCtrs_regsOnly _ _)
  · refine ⟨s.ctrDue d c n.toNat, ?_, ?_, rfl⟩
    · change execSeqCtrInc d c n s = _
      rw [execSeqCtrInc, if_neg (by simp [hoff])]
    · rw [State.ctrDue, State.cd_setCd_self]
  · obtain ⟨x, hdue, hexec⟩ := exec_completionSignal hoff hp
    refine ⟨_, hexec, ?_, ?_, RegsOnly.after rfl (addCtrs_regsOnly _ _)⟩
    · rw [ctr_addCtrs, ctrSum, List.filter_filter]
      simp only [Bool.and_comm]
      rfl
    · rw [(addCtrs_regsOnly _ _).cd, State.cd_setCd_self, hdue]
  · have hmet : s.waitMet d w = true := decide_eq_true hm
    obtain ⟨hruns, hfree, hdue, hmoved, hregs, hframe⟩ :=
      proceeded_proceed s d q w (s.waitPlace d q).1 (s.waitPlace d q).2
    refine ⟨_, ?_, hruns, hfree, hdue, hmoved, hregs, hframe⟩
    change execSyncWaitSatisfied d q s = _
    unfold execSyncWaitSatisfied
    simp only [hw, hoff, hst, hmet, and_self, if_true]

end Sys2Proof.Machine
end

section
/-! Pennants added to, waited for and polled (O17). -/
namespace Sys2Proof.Machine

section
variable {s : State} {d : Fin 40} {q : Fin 4} {w : Cmd} {idx depth p : Nat}

/-! ### SYNC_PSIGNAL, its pennant in a store (R169, R180) -/

theorem mpaAdd_of_store {src n off inc : Nat} (hplace : s.placeOf p = .cd n off)
    (hopen : (s.cd (fin40 n)).coversWindow off 8 = false) (hclean : s.poisoned p 8 = false) :
    s.mpaAdd src p inc = s.putNum p 8 (s.num p 8 + (BitVec.ofNat 64 inc).toNat) := by
  unfold State.mpaAdd State.storePost State.storeApply
  simp [hplace, hopen, hclean]

theorem syncExec_psignal_store (hop : opcodeOf w = 0x63) (hp : s.pennantAt d q w = p)
    (hchk : s.check (asReq d) true p = .ok) (hdram : inDram p = false) (hclean : s.poisoned p 8 = false) :
    s.syncExec d q w idx depth = ((s.mpaAdd d p (cbits w 79 64)).complete d (asCmd q w idx depth)).advance d q := by
  unfold State.syncExec State.badRead
  simp [hop, hp, hchk, hdram, hclean]

theorem psignal_store_gives {n off : Nat} (hop : opcodeOf w = 0x63) (hp : s.pennantAt d q w = p)
    (hchk : s.check (asReq d) true p = .ok) (hdram : inDram p = false) (hclean : s.poisoned p 8 = false)
    (hplace : s.placeOf p = .cd n off) (hopen : (s.cd (fin40 n)).coversWindow off 8 = false) :
    ∃ t, s.syncExec d q w idx depth = t ∧ t.num p 8 = (s.num p 8 + cbits w 79 64) % 2 ^ 64 ∧ MemOutside p 8 s t ∧
      (t.cd d).due = (s.cd d).due ++ sigDue q w (s.aclk + 1) ∧ MovedOn d q s t ∧
      OnlyRegs [R.SEQ_Q_STATUS d q, R.SEQ_Q_HEAD d q] s t ∧ t = { s with regs := t.regs, cds := t.cds, mem := t.mem } := by
  refine ⟨_, (syncExec_psignal_store hop hp hchk hdram hclean).trans (by rw [mpaAdd_of_store hplace hopen hclean]), ?_⟩
  generalize hv : s.num p 8 + (BitVec.ofNat 64 (cbits w 79 64)).toNat = v
  obtain ⟨t, ht⟩ : ∃ t, ((s.putNum p 8 v).complete d (asCmd q w idx depth)).advance d q = t := ⟨_, rfl⟩
  have hfin : Finished (s.putNum p 8 v) t d q w := ht ▸ finished_complete_advance w idx depth
  have hmem : t.mem = (s.putNum p 8 v).mem := by rw [hfin.step.frame]
  rw [ht]
  refine ⟨?_, fun b hb => ?_, hfin.due, hfin.moved, hfin.step.regs, ?_⟩
  · have hnum : t.num p 8 = (s.putNum p 8 v).num p 8 := State.num_congr fun i _ => State.byte_congr hmem _
    rw [hnum, State.num_putNum_self, ← hv, BitVec.toNat_ofNat]
    exact Nat.add_mod_mod _ _ _
  · exact (State.byte_congr hmem b).trans (s.byte_putBytes_of_outside p _ b (by rwa [leBytes_length]))
  · rw [hfin.step.frame]
    rfl

/-! ### SYNC_PSIGNAL, its pennant in DRAM (R169, R257) -/

theorem syncExec_psignal_dram (hop : opcodeOf w = 0x63) (hp : s.pennantAt d q w = p)
    (hchk : s.check (asReq d) true p = .ok) (hdram : inDram p = true) :
    s.syncExec d q w idx depth = (s.psigSend d (asCmd q w idx depth) p).advance d q := by
  unfold State.syncExec
  simp [hop, hp, hchk, hdram]

/-- An addition sent to a seal engine: its request waits there, and the command waits for the answer. -/
theorem psigSend_eq {e : UCmd} {m c b : Nat} (hch : s.channelOf p = some (m, c, b)) : s.psigSend d e p =
    ({ s with reqNo := s.reqNo + 1 }.setMd (fin16 m) { s.md (fin16 m) with
      eng := { s.eng (fin16 m) with reqs := (s.eng (fin16 m)).reqs ++
        [(⟨s.reqNo + 1, d, .add (BitVec.ofNat 64 (cbits e.w 79 64)), p⟩ : SealReq)] } }).setCd d
      { s.cd d with psig := (s.cd d).psig ++ [({ e with w := resolved e.w p }, s.reqNo + 1)] } := by
  unfold State.psigSend
  rw [forward_newReq hch]
  rfl

theorem psignal_dram_gives {m c b : Nat} (hop : opcodeOf w = 0x63) (hp : s.pennantAt d q w = p)
    (hchk : s.check (asReq d) true p = .ok) (hdram : inDram p = true) (hch : s.channelOf p = some (m, c, b)) :
    ∃ t, s.syncExec d q w idx depth = t ∧
      (t.eng (fin16 m)).reqs = (s.eng (fin16 m)).reqs ++
        [(⟨s.reqNo + 1, d.val, .add (BitVec.ofNat 64 (cbits w 79 64)), p⟩ : SealReq)] ∧
      (∃ e, (t.cd d).psig = (s.cd d).psig ++ [(e, s.reqNo + 1)] ∧ e.q = q) ∧
      (t.cd d).due = (s.cd d).due ∧ MovedOn d q s t ∧ OnlyRegs [R.SEQ_Q_STATUS d q, R.SEQ_Q_HEAD d q] s t ∧
      t = { s with regs := t.regs, cds := t.cds, mds := t.mds, reqNo := t.reqNo } := by
  refine ⟨_, (syncExec_psignal_dram hop hp hchk hdram).trans (by rw [psigSend_eq hch]), ?_⟩
  generalize hu : State.setCd _ d _ = u
  have hcd : u.cd d = { s.cd d with psig := (s.cd d).psig ++
      [({ asCmd q w idx depth with w := resolved w p }, s.reqNo + 1)] } := by rw [← hu, State.cd_setCd_self]; rfl
  have hmd : u.eng (fin16 m) = { s.eng (fin16 m) with reqs := (s.eng (fin16 m)).reqs ++
      [(⟨s.reqNo + 1, d.val, .add (BitVec.ofNat 64 (cbits w 79 64)), p⟩ : SealReq)] } := by
    rw [← hu, State.eng, State.md_setCd, State.md_setMd_self]; rfl
  have hque : u.que d q = s.que d q := by rw [State.que, hcd]; rfl
  have hstep : ArrayStep [R.SEQ_Q_STATUS d q, R.SEQ_Q_HEAD d q] u (u.advance d q) :=
    (ArrayStep.refl u).advance (by simp) (by simp)
  have heng : (u.advance d q).eng (fin16 m) = u.eng (fin16 m) := by rw [hstep.frame]; rfl
  have hrd (a : Nat) : u.rd a = s.rd a := by rw [← hu]; rfl
  refine ⟨by rw [heng, hmd], ⟨{ asCmd q w idx depth with w := resolved w p }, ?_, rfl⟩, ?_,
    movedOn_advance (congrArg QueueState.stack hque) (qHead_congr (hrd _)),
    fun a ha => (hstep.regs a ha).trans (hrd a), ?_⟩
  · rw [cd_advance, hcd]
  · rw [cd_advance, hcd]
  · rw [hstep.frame, ← hu]
    rfl

/-! ### SYNC_PWAIT (R169, R172) -/

/-- A queue at a pennant that can be read: it goes on where the threshold is met, and waits otherwise. -/
theorem syncExec_pwait (hop : opcodeOf w = 0x62) (hp : s.pennantAt d q w = p)
    (hchk : s.check (asReq d) false p = .ok) (hread : s.badRead p 8 = false) :
    s.syncExec d q w idx depth = if s.pennantMet d q w then s.proceed d q w idx depth else s.hold d q w 3 := by
  unfold State.syncExec
  simp [hop, hp, hchk, hread]

theorem pennantMet_eq (hp : s.pennantAt d q w = p) : s.pennantMet d q w = decide (cbits w 111 64 ≤ s.num p 8) := by
  rw [State.pennantMet, hp]

/-! ### A poll (R169) -/

theorem exec_pennantPoll (hoff : s.dieOff d = false) (hw : (s.que d q).wait = some w) (hst : s.qState d q = 3)
    (hp : s.pennantAt d q w = p) (hchk : s.check (asReq d) false p = .ok) (hread : s.badRead p 8 = false)
    (hdue : ownPennant d p = true ∨ (s.que d q).polled + s.pollCycles d ≤ s.aclk) :
    exec (.pennantPoll d ⟨q, .ok⟩) s =
      .next (if s.pennantMet d q w then s.proceed d q w (s.waitPlace d q).1 (s.waitPlace d q).2
        else s.setQue d q { s.que d q with polled := s.aclk }) := by
  have hearly : ¬ (ownPennant d p = false ∧ s.aclk < (s.que d q).polled + s.pollCycles d) := fun ⟨hown, hlt⟩ => by
    obtain hown' | hle := hdue
    · rw [hown] at hown'; cases hown'
    · omega
  change execPennantPoll d ⟨q, .ok⟩ s = _
  unfold execPennantPoll
  simp only [hw, hst, hp, hoff, hchk, hread, Bool.false_eq_true, ne_eq, not_true_eq_false, or_self, if_false, hearly]
  cases s.pennantMet d q w <;> rfl

end

/-- Settles O17: the addition is made in the store, or asked of the seal engine that owns the pennant; a wait and a poll go
on by `proceeded_proceed` once the threshold is met. -/
theorem pennantsAreAddedToAndWaitedFor : Obligations.PennantsAreAddedToAndWaitedFor := by
  intro s d q w a idx depth p hp
  have hnext (hat : AtHead s d q w a idx depth) (c : Instr) (hc : exec c s = .next (s.syncHead d q w)) :
      exec c s = .next (s.syncExec d q w idx depth) := by rw [hc, syncHead_of_atHead hat]
  refine ⟨fun n off hat hu hchk hdram hclean hplace hopen => ?_, fun m c b hat hu hchk hdram hch => ?_,
    fun hat hu hchk hread => ⟨_, hnext hat _ rfl, ?_⟩, fun hoff hw hst hchk hread hdue =>
      ⟨_, exec_pennantPoll hoff hw hst hp hchk hread hdue, ?_⟩⟩
  · obtain ⟨t, ht, hgives⟩ := psignal_store_gives (idx := idx) (depth := depth) (opcodeOf_of_isUnit hu) hp hchk hdram
      hclean hplace hopen
    exact ⟨t, ht ▸ hnext hat _ rfl, hgives⟩
  · obtain ⟨t, ht, hgives⟩ := psignal_dram_gives (idx := idx) (depth := depth) (opcodeOf_of_isUnit hu) hp hchk hdram hch
    exact ⟨t, ht ▸ hnext hat _ rfl, hgives⟩
  · rw [syncExec_pwait (opcodeOf_of_isUnit hu) hp hchk hread, pennantMet_eq hp]
    by_cases hmet : cbits w 111 64 ≤ s.num p 8
    · obtain ⟨hruns, hfree, -, hmoved, hregs, hframe⟩ := proceeded_proceed s d q w idx depth
      simp only [hmet, decide_true, if_true]
      exact ⟨⟨hruns, hfree, hmoved⟩, hregs, hframe⟩
    · obtain ⟨hstate, hwait, -, hstep⟩ := hold_gives s d q w (st := 3) (by decide)
      obtain ⟨hregs, hframe⟩ := hstep.mono (bs := [R.SEQ_Q_STATUS d q, R.SEQ_Q_HEAD d q]) (by simp)
      simp only [hmet, decide_false, Bool.false_eq_true, if_false]
      exact ⟨⟨hstate, hwait⟩, hregs, hframe⟩
  · rw [pennantMet_eq hp]
    by_cases hmet : cbits w 111 64 ≤ s.num p 8
    · obtain ⟨hruns, hfree, -, hmoved, hregs, hframe⟩ :=
        proceeded_proceed s d q w (s.waitPlace d q).1 (s.waitPlace d q).2
      simp only [hmet, decide_true, if_true]
      exact ⟨⟨hruns, hfree, hmoved⟩, hregs, hframe⟩
    · simp only [hmet, decide_false, Bool.false_eq_true, if_false]
      refine ⟨⟨hst, ?_, ?_⟩, fun _ _ => rfl, rfl⟩ <;> rw [que_setQue_self]
      exact hw

end Sys2Proof.Machine
end

section
/-! What the shared operations of the gradient accumulator store change (R184, R193). -/
namespace Sys2Proof.Machine

section
variable {s t : State} {d : Fin 40}

/-! ### The status of the drains -/

theorem gasSync_regsOnly (s : State) (d : Fin 40) : RegsOnly s (s.gasSync d) :=
  RegsOnly.foldl (fun _ _ h => h.wr _ _) (((RegsOnly.refl s).put _ _ _).put _ _ _)

theorem rd_gasSync {a : Nat} (hs : a ≠ R.GAS_STATUS d) (hm : ∀ i < 8, a ≠ R.GAS_DRAINMAP d i) :
    (s.gasSync d).rd a = s.rd a := by
  unfold State.gasSync
  rw [rd_foldl fun u i hi => State.rd_wr_of_ne _ _ (hm i (List.mem_range.mp hi)), State.rd_put_of_ne _ _ _ hs,
    State.rd_put_of_ne _ _ _ hs]

/-- The fields of GAS_STATUS above ACTIVE stand. -/
theorem get_gasStatus_gasSync {f : Fld} (hlo : 3 < f.2) (hhi : f.1 < 32) :
    (s.gasSync d).get (R.GAS_STATUS d) f = s.get (R.GAS_STATUS d) f := by
  have hmap : ∀ u : State, ∀ i ∈ List.range 8, ∀ x, (u.wr (R.GAS_DRAINMAP d i) x).rd (R.GAS_STATUS d) =
      u.rd (R.GAS_STATUS d) := fun u i _ x => State.rd_wr_of_ne _ _ (by unfold R.GAS_STATUS R.GAS_DRAINMAP; omega)
  have hactive : F.GAS_STATUS_ACTIVE.1 < f.2 := hlo
  have hdraining : F.GAS_STATUS_DRAINING.1 < f.2 := Nat.lt_of_le_of_lt (by decide) hlo
  unfold State.gasSync
  rw [get_congr (rd_foldl (fun u i hi => hmap u i hi _) _), State.get_put_of_disjoint _ _ _ _ _ (by decide) hhi (.inl hactive),
    State.get_put_of_disjoint _ _ _ _ _ (by decide) hhi (.inl hdraining)]

theorem seqHead_gasSync (q : Fin 4) : (s.gasSync d).rd (R.SEQ_Q_HEAD d q) = s.rd (R.SEQ_Q_HEAD d q) :=
  rd_gasSync (by unfold R.SEQ_Q_HEAD R.GAS_STATUS; omega) fun i _ => by unfold R.SEQ_Q_HEAD R.GAS_DRAINMAP; omega

theorem seqTail_gasSync (q : Fin 4) : (s.gasSync d).rd (R.SEQ_Q_TAIL d q) = s.rd (R.SEQ_Q_TAIL d q) :=
  rd_gasSync (by unfold R.SEQ_Q_TAIL R.GAS_STATUS; omega) fun i _ => by unfold R.SEQ_Q_TAIL R.GAS_DRAINMAP; omega

theorem seqStatus_gasSync (q : Fin 4) : (s.gasSync d).rd (R.SEQ_Q_STATUS d q) = s.rd (R.SEQ_Q_STATUS d q) :=
  rd_gasSync (by unfold R.SEQ_Q_STATUS R.GAS_STATUS; omega) fun i _ => by
    unfold R.SEQ_Q_STATUS R.GAS_DRAINMAP; omega

/-! ### Granules covered -/

/-- The drain that a GAS_DRAIN names, as it covers its granules (R184). -/
def drainNamed (e : UCmd) : Drain :=
  ⟨e, cbits e.w 33 16, cbits e.w 51 34 + 1, cbits e.w 63 52, cbits e.w 79 64, cbit e.w 80, false, [], []⟩

theorem coverDrain_eq (s : State) (d : Fin 40) (e : UCmd) : s.coverDrain d e =
    if (s.cd d).drains.any (fun g => g.e.seq == e.seq) then s
    else (s.setCd d { s.cd d with drains := (s.cd d).drains ++ [drainNamed e] }).gasSync d := rfl

/-- Of the die, covering changes the drains alone; no memory changes. -/
theorem coverDrain_gives (s : State) (d : Fin 40) (e : UCmd) :
    (∃ l, (s.coverDrain d e).cd d = { s.cd d with drains := l }) ∧ (s.coverDrain d e).mem = s.mem ∧
      ∀ q : Fin 4, (s.coverDrain d e).rd (R.SEQ_Q_HEAD d q) = s.rd (R.SEQ_Q_HEAD d q) := by
  rw [coverDrain_eq]
  split
  · exact ⟨⟨_, rfl⟩, rfl, fun _ => rfl⟩
  · refine ⟨⟨(s.cd d).drains ++ [drainNamed e], ?_⟩, ?_, fun q => (seqHead_gasSync q).trans (State.rd_setCd ..)⟩
    · rw [(gasSync_regsOnly _ d).cd, State.cd_setCd_self]
    · rw [gasSync_regsOnly]
      rfl

/-! ### Held writes released -/

theorem storeApply_frame (s : State) (a : Nat) (op : MpaOp) :
    (s.storeApply a op).1 = { s with mem := (s.storeApply a op).1.mem, poison := (s.storeApply a op).1.poison } := by
  cases op with
  | read n => rfl
  | write bs => exact (s.merged_mergeWrite a bs).frame
  | add inc =>
    unfold State.storeApply
    dsimp only
    split <;> rfl

/-- Whether a held write's granules are all released. -/
def CDie.freed (c : CDie) (d : Fin 40) (h : HeldWrite) : Bool :=
  !c.coversWindow (h.addr - lsBase d) (match h.op with | .write bs => bs.length | _ => 8)

/-- A held write made. -/
def State.makeHeld (s : State) (h : HeldWrite) : State :=
  let r := s.storeApply h.addr h.op
  if r.2 then { r.1 with busErrs := r.1.busErrs ++ [(h.src, h.addr, 0)] } else r.1

theorem releaseHeld_eq (s : State) (d : Fin 40) : s.releaseHeld d =
    ((s.cd d).held.filter ((s.cd d).freed d)).foldl State.makeHeld
      (s.setCd d { s.cd d with held := (s.cd d).held.filter (fun h => !(s.cd d).freed d h) }) := rfl

theorem makeHeld_spares (s : State) (h : HeldWrite) : ((s.makeHeld h).cds, (s.makeHeld h).regs) = (s.cds, s.regs) := by
  unfold State.makeHeld
  dsimp only
  rw [storeApply_frame]
  split <;> rfl

/-- Releasing held writes changes no register, and of the die the writes held alone. -/
theorem releaseHeld_gives (s : State) (d : Fin 40) :
    (∃ l, (s.releaseHeld d).cd d = { s.cd d with held := l }) ∧ (s.releaseHeld d).regs = s.regs := by
  have hfold (t : State) (l : List HeldWrite) := proj_foldl (fun u : State => (u.cds, u.regs)) (l := l)
    (fun u h _ => makeHeld_spares u h) t
  rw [releaseHeld_eq]
  obtain ⟨hcds, hregs⟩ := Prod.mk.inj (hfold
    (s.setCd d { s.cd d with held := (s.cd d).held.filter (fun h => !(s.cd d).freed d h) })
    ((s.cd d).held.filter ((s.cd d).freed d)))
  exact ⟨⟨_, by rw [State.cd, hcds]; exact State.cd_setCd_self s d _⟩, hregs⟩

/-- Where no write is held, none is released. -/
theorem releaseHeld_of_none (h : (s.cd d).held = []) : s.releaseHeld d = s := by
  rw [releaseHeld_eq, h, List.filter_nil, List.filter_nil, List.foldl_nil, ← h]
  exact setCd_cd s d

end

end Sys2Proof.Machine
end

section
/-! TAIL moved with and without an adapter pass, and a command dispatched to its unit (O20). -/
namespace Sys2Proof.Machine

section
variable {s : State} {d : Fin 40} {q : Fin 4}

/-! ### TAIL (R160, R161, R219) -/

theorem queueTail_of_room {tail : Nat} (hoff : s.dieOff d = false)
    (hroom : (tail + 2 ^ 16 - s.qHead d q) % 2 ^ 16 ≤ s.qSize d q) :
    s.queueTail d q tail = (s.put (R.SEQ_Q_TAIL d q) F.SEQ_Q_TAIL_INDEX tail).qSync d q := by
  unfold State.queueTail
  rw [if_neg (by simp [hoff]), if_neg (Nat.not_lt.mpr hroom)]

/-- TAIL set where the ring holds the commands: the queue keeps its state, and registers alone change. -/
theorem queueTail_keeps {tail : Nat} (hoff : s.dieOff d = false)
    (hroom : (tail + 2 ^ 16 - s.qHead d q) % 2 ^ 16 ≤ s.qSize d q) :
    (s.queueTail d q tail).qState d q = s.qState d q ∧ RegsOnly s (s.queueTail d q tail) := by
  rw [queueTail_of_room hoff hroom]
  exact ⟨qState_qSync.trans (qState_congr (State.rd_put_of_ne _ _ _ seqTail_ne_status.symm)),
    (((RegsOnly.refl s).put _ _ _).put _ _ _).put _ _ _⟩

/-- A posted write of whole words meets no poisoned word: memory and poison marks alone change. -/
theorem posted_frame_of_words {src a : Nat} {bs : List Byte} (ha : a % 4 = 0) (hn : bs.length % 4 = 0) :
    s.posted src a bs = { s with mem := (s.posted src a bs).mem, poison := (s.posted src a bs).poison } := by
  have hm := s.merged_mergeWrite a bs
  have hnone : (s.mergeWrite a bs).2 = false := by
    rw [hm.answer, List.any_eq_false]
    intro i hi
    rw [mergeLost_of_words ha hn (List.mem_range.mp hi)]
    exact Bool.false_ne_true
  unfold State.posted
  rw [hnone, if_neg Bool.false_ne_true, hm.frame]

/-- Where the command of a ring's index lies. -/
def State.ringPlace (s : State) (d : Fin 40) (q : Fin 4) (i : Nat) : Nat := s.qBase d q + 16 * (i % s.qSize d q)

theorem ringPlace_aligned (i : Nat) : s.ringPlace d q i % 4 = 0 := by
  unfold State.ringPlace State.qBase; omega

/-- One command written into a ring in a store. -/
theorem ringPut_one {x off i : Nat} {w : Cmd} (hp : s.placeOf (s.ringPlace d q i) = .cd x off)
    (hc : (s.cd (fin40 x)).coversWindow off 16 = false) :
    s.ringPut d q i [w] = s.posted d (s.ringPlace d q i) (leBytes 16 w.toNat) := by
  have hring : s.ringPut d q i [w] = s.putNow d (s.ringPlace d q i) (leBytes 16 w.toNat) := by
    rw [State.ringPut, List.zipIdx_singleton, List.foldl_cons, List.foldl_nil, Nat.add_zero, State.ringPlace]
  rw [hring, putNow_of_cd hp, mpaWrite_of_store hp (by rwa [leBytes_length])]

theorem exec_tailWrite_adapter (s : State) (d : Fin 40) (q : Fin 4) (tail : BitVec 16) (p : AdapterProgram) :
    exec (.seqQueueTailWrite d q ⟨tail, some p⟩) s = .next ((s.ringPut d q tail.toNat (s.adapterCmds p)).queueTail d q
      ((tail.toNat + (s.adapterCmds p).length) % 65536)) := rfl

/-- TAIL set after a change `u` of memory and poison marks: that change, and the registers of TAIL. -/
theorem queueTail_after {u : State} {tail : Nat} (hoff : s.dieOff d = false) (ht : tail < 2 ^ 16)
    (hroom : (tail + 2 ^ 16 - s.qHead d q) % 2 ^ 16 ≤ s.qSize d q)
    (hu : u = { s with mem := u.mem, poison := u.poison }) :
    (u.queueTail d q tail).qTail d q = tail ∧ (u.queueTail d q tail).mem = u.mem ∧
      OnlyRegs [R.SEQ_Q_TAIL d q, R.SEQ_Q_STATUS d q] s (u.queueTail d q tail) ∧
      u.queueTail d q tail = { s with
        regs := (u.queueTail d q tail).regs, mem := (u.queueTail d q tail).mem,
        poison := (u.queueTail d q tail).poison } := by
  have hrd (a : Nat) : u.rd a = s.rd a := by rw [hu]; rfl
  have huoff : u.dieOff d = false := by
    rw [← hoff]
    exact dieOff_congr (fun a _ => hrd a) (by rw [hu]) (by rw [hu]) d
  have huroom : (tail + 2 ^ 16 - u.qHead d q) % 2 ^ 16 ≤ u.qSize d q := by
    have hsize : u.qSize d q = s.qSize d q := by rw [State.qSize, get_congr (hrd _)]; rfl
    rw [qHead_congr (hrd _), hsize]
    exact hroom
  obtain ⟨htail, hmem, honly⟩ := queueTail_gives huoff ht huroom
  obtain ⟨-, hregs⟩ := queueTail_keeps huoff huroom
  refine ⟨htail, hmem, fun a ha => (honly a ha).trans (hrd a), ?_⟩
  rw [hregs, hu]

/-- With an adapter pass of one command, the command is written behind TAIL, which then exposes it. -/
theorem tailWrite_adapter_gives {tail : BitVec 16} {p : AdapterProgram} {w : Cmd} {n off : Nat}
    (hoff : s.dieOff d = false) (hw : s.adapterCmds p = [w])
    (hroom : (tail.toNat + 1 + 2 ^ 16 - s.qHead d q) % 2 ^ 16 ≤ s.qSize d q)
    (hp : s.placeOf (s.ringPlace d q tail.toNat) = .cd n off)
    (hc : (s.cd (fin40 n)).coversWindow off 16 = false) :
    Yields (exec (.seqQueueTailWrite d q ⟨tail, some p⟩) s) (fun t =>
      t.qTail d q = (tail.toNat + 1) % 2 ^ 16 ∧ t.cmdAt (s.ringPlace d q tail.toNat) = w ∧
        MemOutside (s.ringPlace d q tail.toNat) 16 s t ∧ OnlyRegs [R.SEQ_Q_TAIL d q, R.SEQ_Q_STATUS d q] s t ∧
        t = { s with regs := t.regs, mem := t.mem, poison := t.poison }) := by
  have hlen := leBytes_length 16 w.toNat
  have hstored : StoredAt (s.posted d (s.ringPlace d q tail.toNat) (leBytes 16 w.toNat)) (s.ringPlace d q tail.toNat)
      (leBytes 16 w.toNat) :=
    storedAt_posted fun i hi => mergeLost_of_words (ringPlace_aligned _) (by rw [hlen]) hi
  have houtside := memOutside_posted (s := s) (src := d) (a := s.ringPlace d q tail.toNat) (bs := leBytes 16 w.toNat)
  have hlt : s.qHead d q < 2 ^ 16 := get_lt s _ _
  obtain ⟨htail, hmem, honly, hframe⟩ := queueTail_after (q := q) (tail := (tail.toNat + 1) % 2 ^ 16) hoff
    (Nat.mod_lt _ (by decide)) (Nat.le_trans (by omega) hroom) (posted_frame_of_words (s := s) (src := d)
      (bs := leBytes 16 w.toNat) (ringPlace_aligned (s := s) (d := d) (q := q) tail.toNat) (by rw [hlen]))
  have hexec := exec_tailWrite_adapter s d q tail p
  rw [hw, List.length_singleton, ringPut_one hp hc] at hexec
  rw [hlen] at houtside
  exact ⟨_, hexec, htail, cmdAt_of_stored (hstored.congr fun i _ => State.byte_congr hmem _),
    fun b hb => (State.byte_congr hmem b).trans (houtside b hb), honly, hframe⟩

/-! ### Dispatch (R162) -/

/-- The die with a command put at the end of a unit's FIFO. -/
def CDie.dispatched (c : CDie) (u : Fin 8) (e : UCmd) : CDie :=
  { c.setFifo u (c.fifo u ++ [e]) with seq := c.seq + 1, lastTook := c.lastTook.set u e.q }

variable {w : Cmd} {a idx depth : Nat} {u : Fin 8}

/-- A command put at the end of its unit's FIFO, and its queue past it. -/
def State.dispatches (s : State) (d : Fin 40) (u : Fin 8) (e : UCmd) : State :=
  (s.setCd d ((s.cd d).dispatched u e)).advance d e.q

/-- The command at the head of a queue as its unit's FIFO takes it. -/
def State.offered (s : State) (d : Fin 40) (q : Fin 4) (w : Cmd) (idx depth : Nat) : UCmd :=
  ⟨q, w, idx, depth, (s.cd d).seq, false⟩

/-- A drain covers its granules from its dispatch on (R184). -/
theorem exec_dispatch (hat : AtHead s d q w a idx depth) (hchk : s.check (asReq d) false a = .ok)
    (hread : s.badRead a 16 = false) (hu : unitOf w = u.val) (hsync : u ≠ 6)
    (hroom : ((s.cd d).fifo u).length < 16) (hturn : s.yields d q u = false) :
    exec (.seqDispatch d ⟨q, .ok⟩) s = .next (if u = 7 ∧ opcodeOf w = 0x71
      then (s.dispatches d u (s.offered d q w idx depth)).coverDrain d (s.offered d q w idx depth)
      else s.dispatches d u (s.offered d q w idx depth)) := by
  have hlt : unitOf w < 8 := hu ▸ u.isLt
  obtain rfl : u = ⟨unitOf w, hlt⟩ := Fin.ext hu.symm
  have hfree : ¬ (16 ≤ ((s.cd d).fifo ⟨unitOf w, hlt⟩).length ∨ s.yields d q ⟨unitOf w, hlt⟩ = true) := by
    rw [hturn, not_or]
    exact ⟨Nat.not_le.mpr hroom, Bool.false_ne_true⟩
  change execSeqDispatch d ⟨q, .ok⟩ s = _
  unfold execSeqDispatch
  simp only [hat.clock, hat.runs, hat.place, hchk, hread, hat.word, hat.fine, Bool.false_eq_true, ne_eq,
    not_true_eq_false, or_self, if_false, reduceCtorEq]
  rw [dif_pos hlt, if_neg (by decide), if_neg hsync, if_neg hfree]
  rfl

theorem fifo_dispatched (c : CDie) (u v : Fin 8) (e : UCmd) :
    (c.dispatched u e).fifo v = if v = u then c.fifo u ++ [e] else c.fifo v := by
  by_cases h : v = u
  · subst h
    simp [CDie.dispatched, CDie.fifo, CDie.setFifo]
  · have hv : u.val ≠ v.val := fun he => h (Fin.ext he.symm)
    simp [CDie.dispatched, CDie.fifo, CDie.setFifo, h, hv]

/-- What dispatching leaves: the command at the end of its unit's FIFO, the other FIFOs as before, the queue past it, and
memory as before. -/
structure Dispatched (s t : State) (d : Fin 40) (q : Fin 4) (u : Fin 8) (e : UCmd) : Prop where
  put : (t.cd d).fifo u = (s.cd d).fifo u ++ [e]
  others : ∀ v : Fin 8, v ≠ u → (t.cd d).fifo v = (s.cd d).fifo v
  moved : MovedOn d q s t
  mem : t.mem = s.mem

theorem dispatched_dispatches (u : Fin 8) (e : UCmd) : Dispatched s (s.dispatches d u e) d e.q u e := by
  have hfifo (v : Fin 8) : ((s.dispatches d u e).cd d).fifo v = ((s.cd d).dispatched u e).fifo v := by
    rw [State.dispatches, cd_advance, State.cd_setCd_self]; rfl
  have hque : (s.setCd d ((s.cd d).dispatched u e)).que d e.q = s.que d e.q := que_setCd_self _
  have hstep := (ArrayStep.refl (as := [R.SEQ_Q_STATUS d e.q, R.SEQ_Q_HEAD d e.q])
    (s.setCd d ((s.cd d).dispatched u e))).advance (d := d) (q := e.q) (by simp) (by simp)
  refine ⟨by rw [hfifo, fifo_dispatched, if_pos rfl], fun v hv => by rw [hfifo, fifo_dispatched, if_neg hv],
    movedOn_advance (congrArg QueueState.stack hque) rfl, ?_⟩
  rw [State.dispatches, hstep.frame]
  rfl

theorem Dispatched.coverDrain {t : State} {e : UCmd} (h : Dispatched s t d q u e) (g : UCmd) :
    Dispatched s (t.coverDrain d g) d q u e := by
  obtain ⟨⟨l, hcd⟩, hmem, hhead⟩ := coverDrain_gives t d g
  have hfifo (v : Fin 8) : ((t.coverDrain d g).cd d).fifo v = (t.cd d).fifo v := by rw [hcd]; rfl
  exact ⟨(hfifo u).trans h.put, fun v hv => (hfifo v).trans (h.others v hv),
    fun hs => (qHead_congr (hhead q)).trans (h.moved hs), hmem.trans h.mem⟩

end

end Sys2Proof.Machine
end

section
/-! Queue control: START, STOP, RESUME, SKIP and ABORT (R191, O20). -/
namespace Sys2Proof.Machine

/-! ### Units restarted -/

/-- A die replaced twice is replaced by the second. -/
theorem setCd_setCd (s : State) (d : Fin 40) (c e : CDie) : (s.setCd d c).setCd d e = s.setCd d e := by
  simp [State.setCd]

/-- What restarting units of a die changes: its FIFOs, its arrays and the stopped units, of which none is added. -/
def Restarted (d : Fin 40) (s t : State) : Prop :=
  ∃ (f : Vector (List UCmd) 8) (a : Vector MArray 4) (st : Vector Bool 8),
    t = s.setCd d { s.cd d with fifos := f, arrays := a, stopped := st } ∧
    ∀ u : Fin 8, (s.cd d).stopped[u] = false → st[u] = false

namespace Restarted
variable {d : Fin 40} {s t u : State}

theorem refl (s : State) : Restarted d s s := ⟨_, _, _, (setCd_cd s d).symm, fun _ h => h⟩

theorem trans (h : Restarted d s t) (k : Restarted d t u) : Restarted d s u := by
  obtain ⟨f, a, st, rfl, hst⟩ := h
  obtain ⟨f', a', st', rfl, hst'⟩ := k
  refine ⟨f', a', st', ?_, fun v hv => hst' v ?_⟩
  · rw [State.cd_setCd_self, setCd_setCd]
  · rw [State.cd_setCd_self]
    exact hst v hv

theorem setMa (h : Restarted d s t) (a : Fin 4) (m : MArray) : Restarted d s (t.setMa d a m) :=
  h.trans ⟨_, _, _, rfl, fun _ hv => hv⟩

theorem dropSeq (h : Restarted d s t) (v : Fin 8) (seq : Nat) : Restarted d s (t.dropSeq d v seq) :=
  h.trans ⟨_, _, _, rfl, fun _ hv => hv⟩

theorem maResume (h : Restarted d s t) (a : Fin 4) (seq : Nat) : Restarted d s (t.maResume d a seq) := by
  unfold State.maResume
  dsimp only
  split
  · split
    · split
      · exact h.setMa _ _
      · exact h.setMa _ _
    · exact h.setMa _ _
  · split
    · exact h.setMa _ _
    · exact h

theorem maSkip (h : Restarted d s t) (a : Fin 4) (seq : Nat) : Restarted d s (t.maSkip d a seq) := by
  unfold State.maSkip
  dsimp only
  split
  · exact h.setMa _ _
  · split
    · split
      · split
        · exact h.setMa _ _
        · split
          · exact h.setMa _ _
          · exact h
      · exact h.setMa _ _
      · exact h
    · exact h.dropSeq _ _

theorem queues (h : Restarted d s t) : (t.cd d).queues = (s.cd d).queues := by
  obtain ⟨f, a, st, rfl, -⟩ := h
  rw [State.cd_setCd_self]

theorem que (h : Restarted d s t) (q : Fin 4) : t.que d q = s.que d q := congrArg (·[q]) h.queues

theorem held (h : Restarted d s t) : (t.cd d).held = (s.cd d).held := by
  obtain ⟨f, a, st, rfl, -⟩ := h
  rw [State.cd_setCd_self]

theorem stopped (h : Restarted d s t) {v : Fin 8} (hv : (s.cd d).stopped[v] = false) :
    (t.cd d).stopped[v] = false := by
  obtain ⟨f, a, st, rfl, hst⟩ := h
  rw [State.cd_setCd_self]
  exact hst v hv

theorem mem (h : Restarted d s t) : t.mem = s.mem := by
  obtain ⟨f, a, st, rfl, -⟩ := h
  rfl

theorem rd (h : Restarted d s t) (a : Nat) : t.rd a = s.rd a := by
  obtain ⟨f, b, st, rfl, -⟩ := h
  rfl

/-- A unit goes on that no other queue holds. -/
theorem go (s : State) (d : Fin 40) (v : Fin 8) :
    Restarted d s (s.setCd d { s.cd d with stopped := (s.cd d).stopped.set v false }) := by
  refine ⟨_, _, _, rfl, fun w hw => ?_⟩
  by_cases he : v = w
  · subst he; simp
  · have hne : v.val ≠ w.val := fun hx => he (Fin.ext hx)
    simpa [hne] using hw

theorem ofUnit (h : Restarted d s t) (skip : Bool) (f : Fin 8 × Nat) : Restarted d s (t.restartUnit d skip f) := by
  unfold State.restartUnit
  extract_lets c v
  have hv : Restarted d s v := by
    refine h.trans ?_
    unfold v
    split
    · exact .refl t
    · exact go t d f.1
  split
  · split
    · exact hv.maSkip _ _
    · exact hv.maResume _ _
  · split
    · exact hv.dropSeq _ _
    · exact hv

theorem ofUnits (skip : Bool) (l : List (Fin 8 × Nat)) (h : Restarted d s t) :
    Restarted d s (l.foldl (fun t f => t.restartUnit d skip f) t) := by
  induction l generalizing t with
  | nil => exact h
  | cons f l ih => exact ih (h.ofUnit skip f)

end Restarted

section
variable {s : State} {d : Fin 40} {q : Fin 4}

/-- A unit that no queue of the die holds goes on. -/
theorem stopped_restartUnit (skip : Bool) {f : Fin 8 × Nat} (h : (s.cd d).heldUnit f.1 = false) :
    ((s.restartUnit d skip f).cd d).stopped[f.1] = false := by
  have hgo : (((s.setCd d { s.cd d with stopped := (s.cd d).stopped.set f.1 false })).cd d).stopped[f.1] = false := by
    rw [State.cd_setCd_self]
    simp
  unfold State.restartUnit
  simp only [h, Bool.false_eq_true, if_false]
  split
  · split
    · exact ((Restarted.refl _).maSkip _ _).stopped hgo
    · exact ((Restarted.refl _).maResume _ _).stopped hgo
  · split
    · exact ((Restarted.refl _).dropSeq _ _).stopped hgo
    · exact hgo

theorem stopped_restartUnits (skip : Bool) {l : List (Fin 8 × Nat)} {f : Fin 8 × Nat} (hf : f ∈ l)
    (h : (s.cd d).heldUnit f.1 = false) :
    ((l.foldl (fun t f => t.restartUnit d skip f) s).cd d).stopped[f.1] = false := by
  induction l generalizing s with
  | nil => cases hf
  | cons g l ih =>
    have hstep := (Restarted.refl (d := d) s).ofUnit skip g
    obtain rfl | hf := List.mem_cons.mp hf
    · exact ((Restarted.refl _).ofUnits skip l).stopped (stopped_restartUnit skip h)
    · exact ih hf (by rw [CDie.heldUnit, hstep.queues]; exact h)

/-- A unit is held by no queue once the one queue that held it gives it up. -/
theorem heldUnit_setQue_of_sole {x : QueueState} {u : Fin 8} (hx : x.funit = [])
    (hsole : ∀ p : Fin 4, p ≠ q → ∀ g ∈ (s.que d p).funit, g.1 ≠ u) :
    ((s.setQue d q x).cd d).heldUnit u = false := by
  rw [CDie.heldUnit, List.any_eq_false]
  intro y hy
  obtain ⟨i, hi, rfl⟩ := List.getElem_of_mem hy
  have hlt : i < 4 := by simpa using hi
  have hget : ((s.setQue d q x).cd d).queues.toList[i] = (s.setQue d q x).que d ⟨i, hlt⟩ := by
    rw [Vector.getElem_toList]; rfl
  rw [hget, List.any_eq_true]
  rintro ⟨g, hg, hgu⟩
  by_cases hp : (⟨i, hlt⟩ : Fin 4) = q
  · rw [hp, que_setQue_self, hx] at hg
    cases hg
  · rw [que_setQue_of_ne hp] at hg
    exact hsole _ hp g hg (by simpa using hgu)

/-! ### Pennant additions sent again (R191) -/

theorem psigSend_gives (s : State) (d : Fin 40) (e : UCmd) (a : Nat) :
    (∃ l, (s.psigSend d e a).cd d = { s.cd d with psig := l }) ∧ (s.psigSend d e a).regs = s.regs := by
  have hcd : (s.newReq.forward d (.add (BitVec.ofNat 64 (cbits e.w 79 64))) a).cd d = s.cd d := by
    unfold State.forward
    split <;> rfl
  have hregs := (Prod.mk.inj (Prod.mk.inj (s.newReq.forward_spares d (.add (BitVec.ofNat 64 (cbits e.w 79 64))) a)).2).1
  refine ⟨⟨(s.cd d).psig ++ [({ e with w := resolved e.w a },
    (s.newReq.forward d (.add (BitVec.ofNat 64 (cbits e.w 79 64))) a).reqNo)], ?_⟩, hregs⟩
  rw [State.psigSend, State.cd_setCd_self, hcd]

theorem psigSends_give (l : List UCmd) (s : State) :
    (∃ p, (l.foldl (fun t e => t.psigSend d e (cbits e.w 60 16 * 8)) s).cd d = { s.cd d with psig := p }) ∧
      (l.foldl (fun t e => t.psigSend d e (cbits e.w 60 16 * 8)) s).regs = s.regs := by
  induction l generalizing s with
  | nil => exact ⟨⟨_, rfl⟩, rfl⟩
  | cons e l ih =>
    obtain ⟨⟨p, hcd⟩, hregs⟩ := ih (s.psigSend d e (cbits e.w 60 16 * 8))
    obtain ⟨⟨p', hcd'⟩, hregs'⟩ := psigSend_gives s d e (cbits e.w 60 16 * 8)
    exact ⟨⟨p, hcd.trans (by rw [hcd'])⟩, hregs.trans hregs'⟩

/-! ### RESUME -/

/-- Queue q with what its faults held given up. -/
def State.freed (s : State) (d : Fin 40) (q : Fin 4) : State :=
  s.setQue d q { s.que d q with funit := [], back := [], fcode := 0 }

theorem restart_of_head (hf : (s.que d q).funit = []) (hb : (s.que d q).back = []) (skip : Bool) :
    s.restart d q skip = if skip then (s.freed d q).advance d q else s.freed d q := by
  unfold State.restart
  simp only [hf, hb, List.isEmpty_nil, Bool.and_self, if_true]
  rfl

theorem restart_of_held (h : (s.que d q).funit ≠ [] ∨ (s.que d q).back ≠ []) (skip : Bool) :
    s.restart d q skip = if skip then (s.que d q).funit.foldl (fun t f => t.restartUnit d true f) (s.freed d q)
      else (s.que d q).back.foldl (fun t e => t.psigSend d e (cbits e.w 60 16 * 8))
        ((s.que d q).funit.foldl (fun t f => t.restartUnit d false f) (s.freed d q)) := by
  have hne : ((s.que d q).funit.isEmpty && (s.que d q).back.isEmpty) = false := by
    rw [Bool.and_eq_false_iff]
    simpa using h
  unfold State.restart
  simp only [hne, Bool.false_eq_true, if_false]
  cases skip <;> rfl

/-- A restart writes STATUS and HEAD of its queue alone. -/
theorem rd_restart (skip : Bool) {a : Nat} (hs : a ≠ R.SEQ_Q_STATUS d q) (hh : a ≠ R.SEQ_Q_HEAD d q) :
    (s.restart d q skip).rd a = s.rd a := by
  by_cases h : (s.que d q).funit = [] ∧ (s.que d q).back = []
  · rw [restart_of_head h.1 h.2]
    cases skip with
    | false => rfl
    | true => exact (((ArrayStep.refl (as := [R.SEQ_Q_STATUS d q, R.SEQ_Q_HEAD d q]) (s.freed d q)).advance
        (d := d) (q := q) (by simp) (by simp)).regs a (by simp [hs, hh]))
  · rw [restart_of_held (by rwa [← not_and_or])]
    have hu (skip : Bool) := (((Restarted.refl (s.freed d q)).ofUnits (d := d) skip (s.que d q).funit).rd a).trans
      (rd_setQue _ a)
    cases skip with
    | true => exact hu true
    | false =>
      obtain ⟨-, hregs⟩ := psigSends_give (d := d) (s.que d q).back
        ((s.que d q).funit.foldl (fun t f => t.restartUnit d false f) (s.freed d q))
      simp only [Bool.false_eq_true, if_false]
      rw [State.rd, hregs]
      exact hu false

/-- Every unit that the queue alone held goes on. -/
theorem stopped_restart (skip : Bool) {f : Fin 8 × Nat} (hf : f ∈ (s.que d q).funit)
    (hsole : ∀ p : Fin 4, p ≠ q → ∀ g ∈ (s.que d p).funit, g.1 ≠ f.1) :
    ((s.restart d q skip).cd d).stopped[f.1] = false := by
  have hheld : ((s.freed d q).cd d).heldUnit f.1 = false := heldUnit_setQue_of_sole rfl hsole
  rw [restart_of_held (.inl (List.ne_nil_of_mem hf))]
  cases skip with
  | true => exact stopped_restartUnits true hf hheld
  | false =>
    obtain ⟨⟨l, hcd⟩, -⟩ := psigSends_give (d := d) (s.que d q).back
      ((s.que d q).funit.foldl (fun t f => t.restartUnit d false f) (s.freed d q))
    rw [if_neg Bool.false_ne_true, congrArg CDie.stopped hcd]
    exact stopped_restartUnits false hf hheld

/-! ### Each bit's effect on the queue's state -/

theorem qState_queueStart : (s.queueStart d q).qState d q =
    if (s.qState d q = 0 ∨ s.qState d q = 4 ∨ s.qState d q = 6) ∧ s.takesWork (s.cdCanton d) = true then 1
    else s.qState d q := by
  unfold State.queueStart
  dsimp only
  split
  · exact qState_setQState (by decide)
  · rfl

theorem qState_queueStop : (s.queueStop d q).qState d q =
    if s.qState d q = 1 ∨ s.qState d q = 2 ∨ s.qState d q = 3 then 6 else s.qState d q := by
  unfold State.queueStop
  dsimp only
  split
  · exact qState_setQState (by decide)
  · rfl

theorem qState_queueResume (skip : Bool) : (s.queueResume d q skip).qState d q =
    if s.qState d q = 5 ∧ (s.que d q).fcode ≠ 8 then 1 else s.qState d q := by
  unfold State.queueResume
  split
  · exact qState_setQState (by decide)
  · rfl

/-- What control leaves alone of the registers of the trust die. -/
theorem rd_queueResume (skip : Bool) {a : Nat} (ha : a < 0x100000) : (s.queueResume d q skip).rd a = s.rd a := by
  have hs : a ≠ R.SEQ_Q_STATUS d q := by unfold R.SEQ_Q_STATUS cdBase; omega
  have hh : a ≠ R.SEQ_Q_HEAD d q := by unfold R.SEQ_Q_HEAD cdBase; omega
  unfold State.queueResume
  split
  · exact (State.rd_put_of_ne _ _ _ hs).trans (rd_restart skip hs hh)
  · rfl

/-- Whether the die's canton takes work follows from registers of the trust die. -/
theorem takesWork_congr {s t : State} (hrd : ∀ a, a < 0x100000 → t.rd a = s.rd a) (d : Fin 40) :
    t.takesWork (t.cdCanton d) = s.takesWork (s.cdCanton d) := by
  have hcantons : t.cantons = s.cantons := by rw [State.cantons, get_congr (hrd _ (by decide))]; rfl
  have hcanton : t.cdCanton d = s.cdCanton d := by
    rw [State.cdCanton, State.colCanton, hcantons]; rfl
  have hlt : s.cdCanton d < 8 := by
    have hc := cantons_le s
    have hm : d.val % 8 * s.cantons ≤ 7 * 8 := Nat.mul_le_mul (by omega) hc
    rw [State.cdCanton, State.colCanton]
    omega
  rw [hcanton, State.takesWork, get_congr (hrd _ (by unfold R.CPOL_STATUS tdBase; omega)), get_congr (hrd _ (by decide))]
  rfl

/-! ### A write of CTL (R191, R193) -/

theorem queueCtl_of_abort (hoff : s.dieOff d = false) {b : BitVec 5} (hb : b.getLsbD 4 = true) :
    s.queueCtl d q b = s.queueAbort d q := by
  unfold State.queueCtl
  rw [if_neg (by simp [hoff]), if_pos hb]

/-- Without ABORT: RESUME, then STOP, then START. -/
theorem queueCtl_of_others (hoff : s.dieOff d = false) {b : BitVec 5} (hb : b.getLsbD 4 = false) :
    s.queueCtl d q b =
      let t := if b.getLsbD 2 then s.queueResume d q (b.getLsbD 3) else s
      let t := if b.getLsbD 1 then t.queueStop d q else t
      if b.getLsbD 0 then t.queueStart d q else t := by
  unfold State.queueCtl
  rw [if_neg (by simp [hoff]), if_neg (by rw [hb]; exact Bool.false_ne_true)]

theorem qState_queueCtl (hoff : s.dieOff d = false) {b : BitVec 5} (hb : b.getLsbD 4 = false) {resumed stopped : Nat}
    (hres : resumed = if b.getLsbD 2 = true ∧ s.qState d q = 5 ∧ (s.que d q).fcode ≠ 8 then 1 else s.qState d q)
    (hstop : stopped = if b.getLsbD 1 = true ∧ (resumed = 1 ∨ resumed = 2 ∨ resumed = 3) then 6 else resumed) :
    (s.queueCtl d q b).qState d q =
      if b.getLsbD 0 = true ∧ (stopped = 0 ∨ stopped = 4 ∨ stopped = 6) ∧ s.takesWork (s.cdCanton d) = true then 1
      else stopped := by
  rw [queueCtl_of_others hoff hb]
  extract_lets t u
  have ht : t.qState d q = resumed ∧ ∀ a, a < 0x100000 → t.rd a = s.rd a := by
    unfold t
    cases hb2 : b.getLsbD 2 with
    | false => exact ⟨by simp only [hres, hb2, Bool.false_eq_true, false_and, if_false], fun _ _ => rfl⟩
    | true =>
      exact ⟨by simp only [if_true, qState_queueResume, hres, hb2, true_and], fun a ha => rd_queueResume _ ha⟩
  obtain ⟨htState, htRd⟩ := ht
  have hu : u.qState d q = stopped ∧ ∀ a, a < 0x100000 → u.rd a = s.rd a := by
    unfold u
    cases hb1 : b.getLsbD 1 with
    | false => exact ⟨by simp only [Bool.false_eq_true, if_false, false_and, hstop, hb1, htState], htRd⟩
    | true =>
      exact ⟨by simp only [if_true, qState_queueStop, hstop, hb1, true_and, htState],
        fun a ha => (rd_queueStop t d q ha).trans (htRd a ha)⟩
  obtain ⟨huState, huRd⟩ := hu
  cases b.getLsbD 0 with
  | false => simpa using huState
  | true => simp [qState_queueStart, huState, takesWork_congr huRd]

end

end Sys2Proof.Machine
end

section
/-! ABORT, and what the bits of CTL do to a queue in each state (R191, O20). -/
namespace Sys2Proof.Machine

section
variable {s : State} {d : Fin 40} {q : Fin 4}

/-! ### ABORT -/

/-- Queue q without its call stack, its wait and what its faults held. -/
def State.emptied (s : State) (d : Fin 40) (q : Fin 4) : State :=
  s.setQue d q { s.que d q with stack := [], wait := none, funit := [], back := [], fcode := 0 }

/-- The units of queue q restarted without the commands they held, and the queue's commands gone from the FIFOs. -/
def State.discarded (s : State) (d : Fin 40) (q : Fin 4) : State :=
  let t := (s.que d q).funit.foldl (fun t f => t.restartUnit d true f) (s.emptied d q)
  t.setCd d ((t.cd d).dropQueued q)

/-- Queue q idle, with HEAD at TAIL. -/
def State.idled (s : State) (d : Fin 40) (q : Fin 4) : State :=
  ((s.put (R.SEQ_Q_HEAD d q) F.SEQ_Q_HEAD_INDEX (s.qTail d q)).setQState d q 0).qSync d q

theorem queueAbort_eq (s : State) (d : Fin 40) (q : Fin 4) : s.queueAbort d q =
    (((if (s.head? d 4).any (fun e => e.q == q) then (s.discarded d q).put (R.VE_STATUS d) F.VE_STATUS_SRHOLD 0
      else s.discarded d q).idled d q).gasSync d).releaseHeld d := rfl

theorem idled_gives (s : State) (d : Fin 40) (q : Fin 4) : (s.idled d q).qState d q = 0 ∧
    (s.idled d q).qHead d q = (s.idled d q).qTail d q ∧ RegsOnly s (s.idled d q) := by
  refine ⟨qState_qSync.trans (qState_setQState (by decide)), ?_,
    ((((RegsOnly.refl s).put _ _ _).put _ _ _).put _ _ _).put _ _ _⟩
  have hhead : (s.idled d q).qHead d q = s.qTail d q % 65536 :=
    qHead_qSync.trans ((qHead_congr (State.rd_put_of_ne _ _ _ seqHead_ne_status)).trans
      (State.get_put_self _ _ _ _ (by decide) (by decide)))
  have htail : (s.idled d q).qTail d q = s.qTail d q :=
    qTail_congr ((rd_qSync _ d q seqTail_ne_status).trans
      ((State.rd_put_of_ne _ _ _ seqTail_ne_status).trans (State.rd_put_of_ne _ _ _ seqTail_ne_head)))
  rw [hhead, htail]
  exact Nat.mod_eq_of_lt (get_lt s _ F.SEQ_Q_TAIL_INDEX)

/-- What is discarded: the queue is cleared, its commands are in no FIFO, and the units it alone held go on. -/
theorem discarded_gives (s : State) (d : Fin 40) (q : Fin 4) :
    (s.discarded d q).que d q = (s.emptied d q).que d q ∧ (s.discarded d q).mem = s.mem ∧
      ((s.discarded d q).cd d).held = (s.cd d).held ∧
      (∀ u : Fin 8, ∀ e ∈ ((s.discarded d q).cd d).fifo u, e.q ≠ q) := by
  obtain ⟨t, ht⟩ : ∃ t, (s.que d q).funit.foldl (fun t f => t.restartUnit d true f) (s.emptied d q) = t := ⟨_, rfl⟩
  have hre : Restarted d (s.emptied d q) t := ht ▸ (Restarted.refl _).ofUnits true _
  have hdis : s.discarded d q = t.setCd d ((t.cd d).dropQueued q) := by rw [State.discarded, ht]
  have hcd : (s.discarded d q).cd d = (t.cd d).dropQueued q := by rw [hdis, State.cd_setCd_self]
  have hemptied : ((s.emptied d q).cd d).held = (s.cd d).held := by rw [State.emptied, cd_setQue_self]
  refine ⟨?_, ?_, ?_, fun u e he => ?_⟩
  · rw [State.que, hcd]
    exact hre.que q
  · rw [hdis]
    exact hre.mem
  · rw [hcd]
    exact hre.held.trans hemptied
  · rw [hcd] at he
    have hmem : e ∈ ((t.cd d).fifo u).filter (fun e => e.q != q) := by
      simpa [CDie.dropQueued, CDie.fifo] using he
    exact bne_iff_ne.mp (List.mem_filter.mp hmem).2

theorem stopped_discarded {f : Fin 8 × Nat} (hf : f ∈ (s.que d q).funit)
    (hsole : ∀ p : Fin 4, p ≠ q → ∀ g ∈ (s.que d p).funit, g.1 ≠ f.1) :
    ((s.discarded d q).cd d).stopped[f.1] = false := by
  have hheld : ((s.emptied d q).cd d).heldUnit f.1 = false := heldUnit_setQue_of_sole rfl hsole
  rw [State.discarded, State.cd_setCd_self]
  exact stopped_restartUnits true hf hheld

/-- After ABORT the die is as what was discarded leaves it, but for the writes held for drains. -/
theorem queueAbort_gives (s : State) (d : Fin 40) (q : Fin 4) :
    (s.queueAbort d q).qState d q = 0 ∧ (s.queueAbort d q).qHead d q = (s.queueAbort d q).qTail d q ∧
      (∃ l, (s.queueAbort d q).cd d = { (s.discarded d q).cd d with held := l }) ∧
      ((s.cd d).held = [] → (s.queueAbort d q).mem = s.mem) := by
  obtain ⟨t, ht⟩ : ∃ t, (if (s.head? d 4).any (fun e => e.q == q)
      then (s.discarded d q).put (R.VE_STATUS d) F.VE_STATUS_SRHOLD 0 else s.discarded d q) = t := ⟨_, rfl⟩
  have hts : RegsOnly (s.discarded d q) t := by
    rw [← ht]
    split
    · exact (RegsOnly.refl _).put _ _ _
    · exact RegsOnly.refl _
  obtain ⟨hstate, hhead, hregs⟩ := idled_gives t d q
  have hgas := gasSync_regsOnly (t.idled d q) d
  obtain ⟨⟨l, hcd⟩, hrel⟩ := releaseHeld_gives ((t.idled d q).gasSync d) d
  obtain ⟨-, hmem, hheld, -⟩ := discarded_gives s d q
  have hdie : ((t.idled d q).gasSync d).cd d = (s.discarded d q).cd d := by rw [hgas.cd, hregs.cd, hts.cd]
  have hrd (a : Nat) : (((t.idled d q).gasSync d).releaseHeld d).rd a = ((t.idled d q).gasSync d).rd a := by
    rw [State.rd, hrel]; rfl
  rw [queueAbort_eq, ht]
  refine ⟨?_, ?_, ⟨l, by rw [hcd, hdie]⟩, fun hnone => ?_⟩
  · exact (qState_congr ((hrd _).trans (seqStatus_gasSync q))).trans hstate
  · exact ((qHead_congr ((hrd _).trans (seqHead_gasSync q))).trans hhead).trans
      (qTail_congr ((hrd _).trans (seqTail_gasSync q))).symm
  · rw [releaseHeld_of_none (by rw [hdie, hheld, hnone]), hgas, hregs, hts]
    exact hmem

theorem stopped_queueAbort {f : Fin 8 × Nat} (hf : f ∈ (s.que d q).funit)
    (hsole : ∀ p : Fin 4, p ≠ q → ∀ g ∈ (s.que d p).funit, g.1 ≠ f.1) :
    ((s.queueAbort d q).cd d).stopped[f.1] = false := by
  obtain ⟨-, -, ⟨l, hcd⟩, -⟩ := queueAbort_gives s d q
  rw [congrArg CDie.stopped hcd]
  exact stopped_discarded hf hsole

/-- ABORT: idle with HEAD at TAIL, outside any call and any wait, and no command of the queue in a FIFO. -/
theorem queueAbort_clears (s : State) (d : Fin 40) (q : Fin 4) :
    (s.queueAbort d q).qState d q = 0 ∧ (s.queueAbort d q).qHead d q = (s.queueAbort d q).qTail d q ∧
      ((s.queueAbort d q).que d q).stack = [] ∧ ((s.queueAbort d q).que d q).wait = none ∧
      ((s.cd d).held = [] → SameMem s (s.queueAbort d q)) ∧
      ∀ u : Fin 8, ∀ e ∈ ((s.queueAbort d q).cd d).fifo u, e.q ≠ q := by
  obtain ⟨hstate, hhead, ⟨l, hcd⟩, hmem⟩ := queueAbort_gives s d q
  obtain ⟨hque, -, -, hfifo⟩ := discarded_gives s d q
  have hq : (s.queueAbort d q).que d q =
      { s.que d q with stack := [], wait := none, funit := [], back := [], fcode := 0 } := by
    have hsame : (s.queueAbort d q).que d q = (s.discarded d q).que d q := by
      rw [State.que, hcd]; rfl
    rw [hsame, hque, State.emptied, que_setQue_self]
  refine ⟨hstate, hhead, by rw [hq], by rw [hq], fun hnone => State.byte_congr (hmem hnone), fun u e he => hfifo u e ?_⟩
  rw [hcd] at he
  exact he

/-! ### START, STOP, RESUME and SKIP alone -/

theorem queueStart_gives (h : s.qState d q = 0 ∨ s.qState d q = 4 ∨ s.qState d q = 6)
    (hw : s.takesWork (s.cdCanton d) = true) :
    (s.queueStart d q).qState d q = 1 ∧ OnlyRegs [R.SEQ_Q_STATUS d q] s (s.queueStart d q) ∧
      RegsOnly s (s.queueStart d q) := by
  refine ⟨qState_queueStart.trans (if_pos ⟨h, hw⟩), ?_⟩
  rw [State.queueStart, if_pos ⟨h, hw⟩]
  exact ⟨((ArrayStep.refl s).setQState (by simp) 1).regs, (RegsOnly.refl s).put _ _ _⟩

theorem queueStop_gives (h : s.qState d q = 1 ∨ s.qState d q = 2 ∨ s.qState d q = 3) :
    (s.queueStop d q).qState d q = 6 ∧ ((s.queueStop d q).que d q).wait = none ∧
      ArrayStep [R.SEQ_Q_STATUS d q] s (s.queueStop d q) := by
  refine ⟨qState_queueStop.trans (if_pos h), ?_⟩
  rw [State.queueStop, if_pos h]
  exact ⟨by rw [State.setQState, que_put, que_setQue_self],
    ((ArrayStep.refl s).setQue _).setQState (by simp) 6⟩

/-- RESUME of a fault found at the head of the queue. -/
theorem queueResume_of_head (hs : s.qState d q = 5) (hc : (s.que d q).fcode ≠ 8) (hf : (s.que d q).funit = [])
    (hb : (s.que d q).back = []) :
    (s.queueResume d q false).qState d q = 1 ∧ ArrayStep [R.SEQ_Q_STATUS d q] s (s.queueResume d q false) := by
  refine ⟨(qState_queueResume false).trans (if_pos ⟨hs, hc⟩), ?_⟩
  rw [State.queueResume, if_pos ⟨hs, hc⟩, restart_of_head hf hb, if_neg Bool.false_ne_true]
  exact ((ArrayStep.refl s).setQue _).setQState (by simp) 1

/-- With SKIP the queue moves on past the command. -/
theorem queueResume_skip_of_head (hs : s.qState d q = 5) (hc : (s.que d q).fcode ≠ 8) (hf : (s.que d q).funit = [])
    (hb : (s.que d q).back = []) :
    (s.queueResume d q true).qState d q = 1 ∧ MovedOn d q s (s.queueResume d q true) ∧
      ArrayStep [R.SEQ_Q_STATUS d q, R.SEQ_Q_HEAD d q] s (s.queueResume d q true) := by
  refine ⟨(qState_queueResume true).trans (if_pos ⟨hs, hc⟩), ?_⟩
  have hmoved : MovedOn d q s ((s.freed d q).advance d q) :=
    movedOn_advance (by rw [State.freed, que_setQue_self]) rfl
  rw [State.queueResume, if_pos ⟨hs, hc⟩, restart_of_head hf hb, if_pos rfl]
  exact ⟨fun h => (qHead_congr (State.rd_put_of_ne _ _ _ seqHead_ne_status)).trans (hmoved h),
    (((ArrayStep.refl s).setQue _).advance (by simp) (by simp)).setQState (by simp) 1⟩

theorem stopped_queueResume (hs : s.qState d q = 5) (hc : (s.que d q).fcode ≠ 8) (skip : Bool) {f : Fin 8 × Nat}
    (hf : f ∈ (s.que d q).funit) (hsole : ∀ p : Fin 4, p ≠ q → ∀ g ∈ (s.que d p).funit, g.1 ≠ f.1) :
    ((s.queueResume d q skip).cd d).stopped[f.1] = false := by
  rw [State.queueResume, if_pos ⟨hs, hc⟩]
  exact stopped_restart skip hf hsole

/-! ### A write of CTL with other bits -/

/-- The bits that a queue's control instruction writes besides those of its argument. -/
theorem exec_ctl (s : State) (d : Fin 40) (q : Fin 4) (also : BitVec 5) :
    exec (.queueStart d ⟨q, also⟩) s = .next (s.queueCtl d q (also ||| 1)) ∧
      exec (.queueStop d ⟨q, also⟩) s = .next (s.queueCtl d q (also ||| 2)) ∧
      exec (.queueResume d ⟨q, also⟩) s = .next (s.queueCtl d q (also ||| 4)) ∧
      exec (.queueResumeSkip d ⟨q, also⟩) s = .next (s.queueCtl d q (also ||| 12)) ∧
      exec (.queueAbort d ⟨q, also⟩) s = .next (s.queueCtl d q (also ||| 16)) := ⟨rfl, rfl, rfl, rfl, rfl⟩

/-- A control instruction alone acts by the one bit (SKIP beside RESUME) that it names. -/
theorem exec_ctl_alone (hoff : s.dieOff d = false) :
    exec (.queueStart d ⟨q, 0⟩) s = .next (s.queueStart d q) ∧
      exec (.queueStop d ⟨q, 0⟩) s = .next (s.queueStop d q) ∧
      exec (.queueResume d ⟨q, 0⟩) s = .next (s.queueResume d q false) ∧
      exec (.queueResumeSkip d ⟨q, 0⟩) s = .next (s.queueResume d q true) ∧
      exec (.queueAbort d ⟨q, 0⟩) s = .next (s.queueAbort d q) := by
  have hstart : s.queueCtl d q 1 = s.queueStart d q := queueCtl_of_others hoff (by decide)
  have hstop : s.queueCtl d q 2 = s.queueStop d q := queueCtl_of_others hoff (by decide)
  have hresume : s.queueCtl d q 4 = s.queueResume d q false := queueCtl_of_others hoff (by decide)
  have hskip : s.queueCtl d q 12 = s.queueResume d q true := queueCtl_of_others hoff (by decide)
  have habort : s.queueCtl d q 16 = s.queueAbort d q := queueCtl_of_abort hoff (by decide)
  rw [← hstart, ← hstop, ← hresume, ← hskip, ← habort]
  exact exec_ctl s d q 0

/-- A write that holds ABORT, whichever instruction makes it, is ABORT. -/
theorem exec_ctl_of_abort (hoff : s.dieOff d = false) {also : BitVec 5} (h : also.getLsbD 4 = true) {c : Instr}
    (hc : c ∈ ([.queueStart d ⟨q, also⟩, .queueStop d ⟨q, also⟩, .queueResume d ⟨q, also⟩,
      .queueResumeSkip d ⟨q, also⟩, .queueAbort d ⟨q, 0⟩] : List Instr)) : exec c s = .next (s.queueAbort d q) := by
  have hor (k : BitVec 5) : s.queueCtl d q (also ||| k) = s.queueAbort d q :=
    queueCtl_of_abort hoff (by rw [BitVec.getLsbD_or, h, Bool.true_or])
  obtain ⟨hstart, hstop, hresume, hskip, -⟩ := exec_ctl s d q also
  obtain ⟨-, -, -, -, habort⟩ := exec_ctl_alone (q := q) hoff
  simp only [List.mem_cons, List.not_mem_nil, or_false] at hc
  obtain rfl | rfl | rfl | rfl | rfl := hc
  · rw [hstart, hor]
  · rw [hstop, hor]
  · rw [hresume, hor]
  · rw [hskip, hor]
  · exact habort

/-- Every write of CTL without ABORT, by whichever instruction, is the control of its bits. -/
theorem exec_ctl_of_mem {also : BitVec 5} {p : (BitVec 5 → Instr) × BitVec 5}
    (hp : p ∈ ([((fun b => Instr.queueStart d ⟨q, b⟩), 1), ((fun b => Instr.queueStop d ⟨q, b⟩), 2),
      ((fun b => Instr.queueResume d ⟨q, b⟩), 4), ((fun b => Instr.queueResumeSkip d ⟨q, b⟩), 12)] :
        List ((BitVec 5 → Instr) × BitVec 5))) : exec (p.1 also) s = .next (s.queueCtl d q (also ||| p.2)) := by
  obtain ⟨hstart, hstop, hresume, hskip, -⟩ := exec_ctl s d q also
  simp only [List.mem_cons, List.not_mem_nil, or_false] at hp
  obtain rfl | rfl | rfl | rfl := hp
  · exact hstart
  · exact hstop
  · exact hresume
  · exact hskip

/-- RESUME, SKIP and ABORT of a queue in FAULT let every unit that it alone held go on. -/
theorem restarts_units (hoff : s.dieOff d = false) (hs : s.qState d q = 5) (hcode : (s.que d q).fcode ≠ 8) {c : Instr}
    (hc : c ∈ ([.queueResume d ⟨q, 0⟩, .queueResumeSkip d ⟨q, 0⟩, .queueAbort d ⟨q, 0⟩] : List Instr)) :
    Yields (exec c s) (fun t => ∀ f ∈ (s.que d q).funit,
      (∀ p : Fin 4, p ≠ q → ∀ g ∈ (s.que d p).funit, g.1 ≠ f.1) → (t.cd d).stopped[f.1] = false) := by
  obtain ⟨-, -, hresume, hskip, habort⟩ := exec_ctl_alone (q := q) hoff
  simp only [List.mem_cons, List.not_mem_nil, or_false] at hc
  obtain rfl | rfl | rfl := hc
  · exact ⟨_, hresume, fun f hf => stopped_queueResume hs hcode false hf⟩
  · exact ⟨_, hskip, fun f hf => stopped_queueResume hs hcode true hf⟩
  · exact ⟨_, habort, fun f hf => stopped_queueAbort hf⟩

end

/-- Settles O20: a queue's TAIL, its dispatch and its control, one lemma for each. -/
theorem queuesDispatchInOrder : Obligations.QueuesDispatchInOrder := by
  unfold Obligations.QueuesDispatchInOrder
  refine ⟨fun s d q tail hoff hroom => ?_, fun s d q tail p w a n off hoff hw hroom ha hp hc => ?_,
    fun s d q w a idx depth u hat hchk hread hu hsync hroom hturn => ?_, fun s d q hoff => ?_⟩
  · obtain ⟨htail, -, honly⟩ := queueTail_gives hoff tail.isLt hroom
    obtain ⟨hstate, hregs⟩ := queueTail_keeps hoff hroom
    exact ⟨_, rfl, htail, hstate, honly, hregs⟩
  · subst ha
    exact tailWrite_adapter_gives hoff hw hroom hp hc
  · have hd := dispatched_dispatches (s := s) (d := d) u (s.offered d q w idx depth)
    have hexec := exec_dispatch hat hchk hread hu hsync hroom hturn
    have hout : Dispatched s (if u = 7 ∧ opcodeOf w = 0x71
        then (s.dispatches d u (s.offered d q w idx depth)).coverDrain d (s.offered d q w idx depth)
        else s.dispatches d u (s.offered d q w idx depth)) d q u (s.offered d q w idx depth) := by
      split
      · exact hd.coverDrain _
      · exact hd
    exact ⟨_, hexec, hout.put, hout.others, hout.moved, State.byte_congr hout.mem⟩
  · obtain ⟨hstart, hstop, hresume, hskip, -⟩ := exec_ctl_alone (q := q) hoff
    refine ⟨fun hs hw => ?_, fun hs => ?_, fun hs hcode hf hb => ⟨?_, ?_⟩,
      fun hs hcode c hc => restarts_units hoff hs hcode hc,
      fun also h c hc => ⟨_, exec_ctl_of_abort hoff h hc, queueAbort_clears s d q⟩,
      fun also b resumed stopped p hp hb hb4 hres hstopped => ⟨_, exec_ctl_of_mem hp, ?_⟩⟩
    · exact ⟨_, hstart, queueStart_gives hs hw⟩
    · obtain ⟨hst, hwait, hstep⟩ := queueStop_gives hs
      exact ⟨_, hstop, hst, hwait, hstep.regs, hstep.frame⟩
    · obtain ⟨hst, hstep⟩ := queueResume_of_head hs hcode hf hb
      exact ⟨_, hresume, hst, hstep.regs, hstep.frame⟩
    · obtain ⟨hst, hmoved, hstep⟩ := queueResume_skip_of_head hs hcode hf hb
      exact ⟨_, hskip, hst, hmoved, hstep.regs, hstep.frame⟩
    · rw [hb]
      exact qState_queueCtl hoff hb4 hres hstopped

end Sys2Proof.Machine
end

section
/-! The gradient accumulator store: GAS_ZERO, GAS_DRAIN and the pieces of a drain (R183 to R187, O22). -/
namespace Sys2Proof.Machine

/-- A command that stands at the head of its unit's FIFO is executed without entering again (R162). -/
theorem enter_of_ready {s : State} {d : Fin 40} {u : Fin 8} {e : UCmd} (h : UnitReady s d u e) :
    s.enter d u e.q e.w = (s, true) := by
  have hwaits : (s.cd d).waits u e.q e.w = true :=
    List.any_eq_true.mpr ⟨e, List.mem_of_mem_head? h.head, by simp⟩
  simp [State.enter, State.atHead, h.runs, hwaits, h.head]

/-- A completion changes the compute dies alone. -/
theorem complete_frame (s : State) (d : Fin 40) (e : UCmd) :
    s.complete d e = { s with cds := (s.complete d e).cds } := by
  unfold State.complete State.completeAt
  split <;> rfl

theorem any_eq_of_head? {s : State} {d : Fin 40} {u : Fin 8} {e : UCmd} (h : s.head? d u = some e) :
    ((s.cd d).fifo u).any (fun x => x.seq == e.seq) = true :=
  List.any_eq_true.mpr ⟨e, List.mem_of_mem_head? h, beq_self_eq_true _⟩

section
variable {s : State} {d : Fin 40} {e : UCmd} {g : Drain}

/-! ### GAS_ZERO -/

theorem coversRange_of_none {c : CDie} (h : c.drains = []) (off n : Nat) : c.coversRange off n = false := by
  rw [CDie.coversRange, List.any_eq_false]
  intro i _
  rw [CDie.covers, h, List.any_nil]
  exact Bool.false_ne_true

theorem gasEnter_of_ready (h : UnitReady s d gasUnit e) : s.gasEnter d e.q e.w = s.gasHead d := by
  rw [State.gasEnter, enter_of_ready h, if_pos rfl]

theorem gasHead_zero (h : UnitReady s d gasUnit e) (hop : opcodeOf e.w = 0x70) (hd : (s.cd d).drains = []) :
    s.gasHead d = ((s.zeroRange (gasBase d + cbits e.w 33 16 * 64) ((cbits e.w 51 34 + 1) * 64)).popHead d
      gasUnit).complete d e := by
  have hfree : CDie.coversRange { s.cd d with drains := (s.cd d).drains.filter (fun g => decide (g.e.seq < e.seq)) }
      (cbits e.w 33 16 * 64) ((cbits e.w 51 34 + 1) * 64) = false :=
    coversRange_of_none (by rw [hd]; rfl) _ _
  unfold State.gasHead
  rw [h.free, if_neg Bool.false_ne_true, h.head]
  dsimp only
  rw [if_pos hop, hfree, if_neg Bool.false_ne_true]

theorem gasZero_gives (h : UnitReady s d gasUnit e) (hop : isUnit e.w 7 0x70 = true) (hd : (s.cd d).drains = []) :
    Yields (exec (.gasZero d e.q e.w) s) (fun t =>
      (∀ b, t.byte b = if gasBase d + 64 * cbits e.w 33 16 ≤ b ∧
          b < gasBase d + 64 * cbits e.w 33 16 + 64 * (cbits e.w 51 34 + 1) then 0 else s.byte b) ∧
        (t.cd d).fifo gasUnit = ((s.cd d).fifo gasUnit).tail ∧
        (t.cd d).due = (s.cd d).due ++ sigDue e.q e.w (s.aclk + 1) ∧
        t = { s with mem := t.mem, poison := t.poison, cds := t.cds }) := by
  obtain ⟨z, hz⟩ : ∃ z, s.zeroRange (gasBase d + cbits e.w 33 16 * 64) ((cbits e.w 51 34 + 1) * 64) = z := ⟨_, rfl⟩
  have hframe : z = { s with mem := z.mem, poison := z.poison } := by rw [← hz]; rfl
  have hexec : exec (.gasZero d e.q e.w) s = .next ((z.popHead d gasUnit).complete d e) := by
    change execGasZero d e.q e.w s = _
    rw [execGasZero, gasEnter_of_ready h, gasHead_zero h (opcodeOf_of_isUnit hop) hd, hz]
  have hcd : z.cd d = s.cd d := by rw [hframe]; rfl
  refine ⟨_, hexec, fun b => ?_, ?_, ?_, ?_⟩
  · have hbyte : ((z.popHead d gasUnit).complete d e).byte b = z.byte b := State.byte_completeAt _ _ _
    rw [hbyte, ← hz, State.byte_zeroRange, Nat.mul_comm _ 64, Nat.mul_comm _ 64]
  · rw [State.complete, State.fifo_completeAt, State.fifo_popHead, hcd]
  · have haclk : (z.popHead d gasUnit).aclk = s.aclk := by rw [hframe]; rfl
    rw [State.complete, State.cd_completeAt _ h.loud, haclk]
    exact congrArg (· ++ _) ((State.due_popHead ..).trans (congrArg CDie.due hcd))
  · rw [complete_frame, hframe]
    rfl

/-! ### GAS_DRAIN becomes active -/

theorem isEmpty_activeDrains (h : ∀ x ∈ (s.cd d).drains, ((s.cd d).fifo gasUnit).any (fun y => y.seq == x.e.seq) = true) :
    (s.cd d).activeDrains = [] := by
  rw [CDie.activeDrains, List.filter_eq_nil_iff]
  intro x hx
  rw [h x hx]
  exact Bool.false_ne_true

theorem gasDrain_gives (h : UnitReady s d gasUnit e) (hop : isUnit e.w 7 0x71 = true) (hd : (s.cd d).drains = []) :
    Yields (exec (.gasDrain d e.q e.w) s) (fun t => (t.cd d).drains = [drainNamed e] ∧
      (t.cd d).fifo gasUnit = ((s.cd d).fifo gasUnit).tail ∧ SameMem s t ∧
      t = { s with regs := t.regs, cds := t.cds }) := by
  obtain ⟨c, hc⟩ : ∃ c, ({ s.cd d with drains := [drainNamed e] } : CDie) = c := ⟨_, rfl⟩
  have hcover : s.coverDrain d e = (s.setCd d c).gasSync d := by
    rw [coverDrain_eq, hd, List.any_nil, if_neg Bool.false_ne_true, ← hc]
    rfl
  have hcd : ((s.setCd d c).gasSync d).cd d = c := by rw [(gasSync_regsOnly _ d).cd, State.cd_setCd_self]
  have hactive : (((s.setCd d c).gasSync d).cd d).activeDrains = [] := by
    refine isEmpty_activeDrains fun x hx => ?_
    rw [hcd, ← hc] at hx ⊢
    rw [List.mem_singleton.mp hx]
    exact any_eq_of_head? h.head
  have hexec : exec (.gasDrain d e.q e.w) s = .next ((((s.setCd d c).gasSync d).popHead d gasUnit).gasSync d) := by
    have hne : opcodeOf e.w ≠ 0x70 := by rw [opcodeOf_of_isUnit hop]; decide
    change execGasDrain d e.q e.w s = _
    rw [execGasDrain, gasEnter_of_ready h, State.gasHead, h.free, if_neg Bool.false_ne_true, h.head]
    dsimp only
    rw [if_neg hne, hcover, hactive, if_neg (by decide)]
  obtain ⟨t, ht⟩ : ∃ t, ((s.setCd d c).gasSync d).popHead d gasUnit = t := ⟨_, rfl⟩
  have hframe : t = { s with regs := t.regs, cds := t.cds } := by
    rw [← ht, State.popHead, State.setCd, gasSync_regsOnly (s.setCd d c) d]
    rfl
  have hafter : t.gasSync d = { s with regs := (t.gasSync d).regs, cds := (t.gasSync d).cds } :=
    RegsOnly.after hframe (gasSync_regsOnly t d)
  rw [ht] at hexec
  refine ⟨_, hexec, ?_, ?_, State.byte_congr (by rw [hafter]), hafter⟩
  · rw [(gasSync_regsOnly _ d).cd, ← ht, State.popHead, State.cd_setCd_self, CDie.setFifo, hcd, ← hc]
  · rw [(gasSync_regsOnly _ d).cd, ← ht, State.fifo_popHead, hcd, ← hc]
    rfl

/-! ### A drain starts -/

theorem gasDrainStart_gives (hoff : s.dieOff d = false) (hd : (s.cd d).drains = [g]) (hs : g.started = false)
    (hout : ((s.cd d).fifo gasUnit).any (fun x => x.seq == g.e.seq) = false) (hw : s.writerBefore d g = false) :
    Yields (exec (.gasDrainStart d) s) (fun t =>
      (t.cd d).drains = [{ g with started := true }] ∧ t = { s with cds := t.cds }) := by
  have hactive : (s.cd d).activeDrains = [g] := by
    rw [CDie.activeDrains, hd]
    simp [hout]
  have hexec : exec (.gasDrainStart d) s =
      .next (s.setCd d { s.cd d with drains := [{ g with started := true }] }) := by
    change execGasDrainStart d s = _
    unfold execGasDrainStart
    simp [hactive, hd, hoff, hs, hw]
  exact ⟨_, hexec, by rw [State.cd_setCd_self], rfl⟩

/-! ### The end of a drain -/

/-- What the end of a drain leaves while no write waits for it: the drain and its command gone, its increment due. -/
theorem drainDone_gives (hheld : (s.cd d).held = []) : ∃ f due,
    (s.drainDone d g).cd d = { s.cd d with
      fifos := f, drains := (s.cd d).drains.filter (fun x => x.e.seq != g.e.seq), due := due } ∧
    (g.e.quiet = false → due = (s.cd d).due ++ sigDue g.e.q g.e.w (s.aclk + 1)) ∧
    s.drainDone d g = { s with regs := (s.drainDone d g).regs, cds := (s.drainDone d g).cds } ∧
    ∀ fld : Fld, 3 < fld.2 → fld.1 < 32 →
      (s.drainDone d g).get (R.GAS_STATUS d) fld = s.get (R.GAS_STATUS d) fld := by
  obtain ⟨c, hc⟩ : ∃ c, { (s.cd d).setFifo gasUnit (((s.cd d).fifo gasUnit).filter (fun e => e.seq != g.e.seq)) with
      drains := (s.cd d).drains.filter (fun x => x.e.seq != g.e.seq) } = c := ⟨_, rfl⟩
  obtain ⟨t, ht⟩ : ∃ t, (s.setCd d c).complete d g.e = t := ⟨_, rfl⟩
  have hdone : s.drainDone d g = (t.gasSync d).releaseHeld d := by rw [← ht, ← hc]; rfl
  have htcd : ∃ due, t.cd d = { c with due := due } ∧
      (g.e.quiet = false → due = c.due ++ sigDue g.e.q g.e.w (s.aclk + 1)) := by
    rw [← ht]
    cases hq : g.e.quiet with
    | false =>
      refine ⟨c.due ++ sigDue g.e.q g.e.w (s.aclk + 1), ?_, fun _ => rfl⟩
      rw [State.complete, State.cd_completeAt _ hq, State.cd_setCd_self]
      rfl
    | true =>
      refine ⟨c.due, ?_, fun h => absurd h (by decide)⟩
      rw [State.complete, State.completeAt, if_pos (.inr hq), State.cd_setCd_self]
  obtain ⟨due, hdie, hdue⟩ := htcd
  have hgas : (t.gasSync d).cd d = { c with due := due } := ((gasSync_regsOnly t d).cd d).trans hdie
  have hrel : (t.gasSync d).releaseHeld d = t.gasSync d :=
    releaseHeld_of_none (by rw [hgas, ← hc]; exact hheld)
  have hstep : t = { s with cds := t.cds } := by rw [← ht, complete_frame]; rfl
  rw [hdone, hrel]
  refine ⟨c.fifos, due, by rw [hgas, ← hc]; rfl, fun hq => by rw [hdue hq, ← hc]; rfl,
    RegsOnly.after (by rw [hstep]) (gasSync_regsOnly t d), fun fld hlo hhi => ?_⟩
  rw [get_gasStatus_gasSync hlo hhi, hstep]
  rfl

/-! ### A piece read -/

/-- A drain with one more piece read. -/
def Drain.readPiece (g : Drain) (piece : Nat) : Drain :=
  let g := { g with read := piece :: g.read }
  { g with released := g.granules.filter g.granuleRead }

/-- The first byte of a drain's piece. -/
def Drain.pieceAt (d : Fin 40) (g : Drain) (piece : Nat) : Nat := gasBase d + (g.line + 64 * piece) * 64

/-- What the drain engine hands to the collective. -/
def State.pieceOf (s : State) (d : Fin 40) (g : Drain) (piece : Nat) : DrainPiece :=
  ⟨g.group, g.opseq, 4096 * piece, s.bytes (g.pieceAt d piece) 4096, s.poisoned (g.pieceAt d piece) 4096⟩

/-- A piece of the die's one drain read, and zeroed under ZAFTER. -/
def State.readPiece (s : State) (d : Fin 40) (g : Drain) (piece : Nat) : State :=
  let t := s.setCd d { s.cd d with drains := [g.readPiece piece], sent := (s.cd d).sent ++ [s.pieceOf d g piece] }
  let t := if s.poisoned (g.pieceAt d piece) 4096 then t.put (R.GAS_STATUS d) F.GAS_STATUS_DPOISON 1 else t
  if g.zafter then t.zeroRange (g.pieceAt d piece) 4096 else t

theorem drainOf_sole (hd : (s.cd d).drains = [g]) : (s.cd d).drainOf g.group g.opseq = some (0, g) := by
  simp [CDie.drainOf, hd, List.findIdx?_cons]

/-- An operation that takes a region runs, and has not been aborted. -/
theorem opAborted_of_takes {n : Nat} (h : s.opTakes g.group g.opseq n = true) :
    s.opAborted g.group g.opseq = false := by
  have hruns : s.opRuns g.group g.opseq = true := by
    obtain ⟨x, hx, hany⟩ := (Option.any_eq_true ..).mp h
    obtain ⟨o, ho, hand⟩ := List.any_eq_true.mp hany
    exact (Option.any_eq_true ..).mpr ⟨x, hx, List.any_eq_true.mpr ⟨o, ho, (Bool.and_eq_true_iff.mp hand).1⟩⟩
  rw [State.opAborted, hruns]
  rfl

theorem exec_pieceRead (hoff : s.dieOff d = false) (hd : (s.cd d).drains = [g]) {piece : Nat} (hs : g.started = true)
    (ht : s.opTakes g.group g.opseq (g.len * 64) = true) (hp : piece < g.len / 64) (hr : piece ∉ g.read) :
    exec (.gasDrainPieceRead d g.group g.opseq piece) s = .next
      (if (g.readPiece piece).released.length = (g.readPiece piece).granules.length
        then (s.readPiece d g piece).drainDone d (g.readPiece piece)
        else ((s.readPiece d g piece).gasSync d).releaseHeld d) := by
  have hgo : (!g.started || !s.opTakes g.group g.opseq (g.len * 64) || decide (g.len / 64 ≤ piece) ||
      g.read.contains piece) = false := by simp [hs, ht, hr, hp]
  change execGasDrainPieceRead d g.group g.opseq piece s = _
  unfold execGasDrainPieceRead
  dsimp only
  rw [drainOf_sole hd]
  dsimp only
  rw [hoff, if_neg Bool.false_ne_true, opAborted_of_takes ht, if_neg Bool.false_ne_true, hgo,
    if_neg Bool.false_ne_true, hd, List.set_cons_zero]
  unfold State.readPiece State.pieceOf Drain.readPiece Drain.pieceAt
  dsimp only
  split <;> rfl

theorem readPiece_gives (s : State) (d : Fin 40) (g : Drain) (piece : Nat) :
    (s.readPiece d g piece).cd d = { s.cd d with
      drains := [g.readPiece piece], sent := (s.cd d).sent ++ [s.pieceOf d g piece] } ∧
    (∀ b, (s.readPiece d g piece).byte b = if g.zafter = true ∧ g.pieceAt d piece ≤ b ∧ b < g.pieceAt d piece + 4096
      then 0 else s.byte b) ∧
    s.readPiece d g piece = { s with
      regs := (s.readPiece d g piece).regs, cds := (s.readPiece d g piece).cds
      mem := (s.readPiece d g piece).mem, poison := (s.readPiece d g piece).poison } := by
  obtain ⟨c, hc⟩ : ∃ c, { s.cd d with
      drains := [g.readPiece piece], sent := (s.cd d).sent ++ [s.pieceOf d g piece] } = c := ⟨_, rfl⟩
  obtain ⟨t, ht⟩ : ∃ t, (if s.poisoned (g.pieceAt d piece) 4096
      then (s.setCd d c).put (R.GAS_STATUS d) F.GAS_STATUS_DPOISON 1 else s.setCd d c) = t := ⟨_, rfl⟩
  have hregs : RegsOnly (s.setCd d c) t := by
    rw [← ht]
    split
    · exact (RegsOnly.refl _).put _ _ _
    · exact RegsOnly.refl _
  have hread : s.readPiece d g piece = if g.zafter then t.zeroRange (g.pieceAt d piece) 4096 else t := by
    rw [← ht, ← hc]; rfl
  have hcd : t.cd d = c := by rw [hregs.cd, State.cd_setCd_self]
  have hbyte (b : Nat) : t.byte b = s.byte b := by rw [hregs]; rfl
  have hframe : t = { s with regs := t.regs, cds := t.cds } := RegsOnly.after rfl hregs
  rw [hread, hc]
  cases g.zafter with
  | false => exact ⟨hcd, fun b => by simp [hbyte], by rw [if_neg Bool.false_ne_true, hframe]⟩
  | true =>
    refine ⟨hcd, fun b => ?_, ?_⟩
    · rw [if_pos rfl, State.byte_zeroRange, hbyte]
      simp
    · rw [if_pos rfl, State.zeroRange, State.coverLines, hframe]

/-- Once every piece is read, every granule is released. -/
theorem released_readPiece {piece : Nat} (h : ∀ p ∈ List.range (g.len / 64), p = piece ∨ p ∈ g.read) :
    (g.readPiece piece).released.length = (g.readPiece piece).granules.length := by
  have hall : ∀ gr, ({ g with read := piece :: g.read } : Drain).granuleRead gr = true := by
    intro gr
    rw [Drain.granuleRead, List.all_eq_true]
    intro p hp
    rw [Bool.or_eq_true_iff]
    exact .inr (List.contains_iff_mem.mpr (List.mem_cons.mpr (h p hp)))
  have hgr : (g.readPiece piece).released = g.granules := List.filter_eq_self.mpr fun gr _ => hall gr
  rw [hgr]
  rfl

theorem pieceRead_gives (hoff : s.dieOff d = false) (hd : (s.cd d).drains = [g]) {piece : Nat} (hs : g.started = true)
    (ht : s.opTakes g.group g.opseq (g.len * 64) = true) (hp : piece < g.len / 64) (hr : piece ∉ g.read)
    (hheld : (s.cd d).held = []) :
    Yields (exec (.gasDrainPieceRead d g.group g.opseq piece) s) (fun t =>
      (t.cd d).sent = (s.cd d).sent ++ [s.pieceOf d g piece] ∧
      (∀ b, t.byte b = if g.zafter = true ∧ g.pieceAt d piece ≤ b ∧ b < g.pieceAt d piece + 4096 then 0
        else s.byte b) ∧
      ((∀ p ∈ List.range (g.len / 64), p = piece ∨ p ∈ g.read) → g.e.quiet = false →
        (t.cd d).drains = [] ∧ (t.cd d).due = (s.cd d).due ++ sigDue g.e.q g.e.w (s.aclk + 1)) ∧
      t = { s with regs := t.regs, cds := t.cds, mem := t.mem, poison := t.poison }) := by
  obtain ⟨hcd, hbyte, hframe⟩ := readPiece_gives s d g piece
  have hheld' : ((s.readPiece d g piece).cd d).held = [] := by rw [hcd]; exact hheld
  refine ⟨_, exec_pieceRead hoff hd hs ht hp hr, ?_⟩
  by_cases hlast : (g.readPiece piece).released.length = (g.readPiece piece).granules.length
  · rw [if_pos hlast]
    obtain ⟨f, due, hdie, hdue, hdone, -⟩ := drainDone_gives (g := g.readPiece piece) hheld'
    have haclk : (s.readPiece d g piece).aclk = s.aclk := by rw [hframe]; rfl
    refine ⟨by rw [hdie, hcd], fun b => by rw [← hbyte b, hdone]; rfl, fun _ hq => ⟨?_, ?_⟩, by rw [hdone, hframe]⟩
    · rw [hdie, hcd]
      simp
    · rw [hdie, hdue hq, hcd, haclk]
      rfl
  · rw [if_neg hlast, releaseHeld_of_none (by rw [(gasSync_regsOnly _ d).cd]; exact hheld')]
    have hregs := gasSync_regsOnly (s.readPiece d g piece) d
    refine ⟨by rw [hregs.cd, hcd], fun b => by rw [← hbyte b, hregs]; rfl,
      fun hall => absurd (released_readPiece hall) hlast, by rw [hregs, hframe]⟩

/-! ### A drain aborted (R187) -/

theorem drainAbort_gives (hoff : s.dieOff d = false) (hd : (s.cd d).drains = [g]) (piece : Nat)
    (ha : s.opAborted g.group g.opseq = true) (hheld : (s.cd d).held = []) (hq : g.e.quiet = false) :
    Yields (exec (.gasDrainPieceRead d g.group g.opseq piece) s) (fun t =>
      t.flag (R.GAS_STATUS d) F.GAS_STATUS_DABORT = true ∧ (t.cd d).drains = [] ∧
      (∃ v : Event, t.events = s.events ++ [v] ∧ v.code = 0x4262 ∧ v.die = d.val) ∧
      (t.cd d).due = (s.cd d).due ++ sigDue g.e.q g.e.w (s.aclk + 1) ∧ SameMem s t) := by
  obtain ⟨x, hx⟩ : ∃ x, (s.put (R.GAS_STATUS d) F.GAS_STATUS_DABORT 1).raise 0x4262 d
      (some ((s.put (R.GAS_STATUS d) F.GAS_STATUS_DABORT 1).cdCanton d)) (detail g.group g.opseq 0) = x := ⟨_, rfl⟩
  have hexec : exec (.gasDrainPieceRead d g.group g.opseq piece) s = .next (x.drainDone d g) := by
    change execGasDrainPieceRead d g.group g.opseq piece s = _
    unfold execGasDrainPieceRead
    dsimp only
    rw [drainOf_sole hd]
    dsimp only
    rw [hoff, if_neg Bool.false_ne_true, if_pos ha, State.drainAbort, hx]
  have hcd : x.cd d = s.cd d := by rw [← hx]; rfl
  have habort : x.get (R.GAS_STATUS d) F.GAS_STATUS_DABORT = 1 := by
    rw [← hx]; exact State.get_put_self _ _ _ _ (by decide) (by decide)
  obtain ⟨f, due, hdie, hdue, hdone, hstatus⟩ := drainDone_gives (g := g) (by rw [hcd]; exact hheld)
  refine ⟨_, hexec, ?_, ?_, ⟨_, by rw [hdone, ← hx]; rfl, rfl, rfl⟩, ?_, fun b => by rw [hdone, ← hx]; rfl⟩
  · rw [State.flag, hstatus _ (by decide) (by decide), habort]
    rfl
  · rw [hdie, hcd, hd]
    simp
  · rw [hdie, hdue hq, hcd, ← hx]
    rfl

end

end Sys2Proof.Machine
end

section
/-! Faults that a unit finds, the arbiters of the die's two stores, and their SECDED findings (R178, R180, R190, O22). -/
namespace Sys2Proof.Machine

section
variable {s t u : State} {d : Fin 40}

/-! ### Faults (R190, R191) -/

theorem recordFault_regsOnly (s : State) (d : Fin 40) (q code unit opcode depth idx : Nat) :
    RegsOnly s (s.recordFault d q code unit opcode depth idx) := by
  unfold State.recordFault
  dsimp only
  split
  · exact RegsOnly.refl s
  · exact ((RegsOnly.refl s).wr _ _).wr _ _

/-- What a queue's fault leaves: the queue in FAULT, its code kept, and the rest of the die but the core's interrupt. -/
theorem queueFault_gives (s : State) (d : Fin 40) (q : Fin 4) (code unit opcode depth idx : Nat) :
    (s.queueFault d q code unit opcode depth idx).cd d = { s.cd d with
      coreIrq := true, queues := (s.cd d).queues.set q { s.que d q with fcode := code } } ∧
    (s.queueFault d q code unit opcode depth idx).qState d q = 5 ∧
    s.queueFault d q code unit opcode depth idx = { s with
      regs := (s.queueFault d q code unit opcode depth idx).regs
      cds := (s.queueFault d q code unit opcode depth idx).cds
      events := (s.queueFault d q code unit opcode depth idx).events } := by
  obtain ⟨t, ht⟩ : ∃ t, (s.recordFault d q code unit opcode depth idx).put (R.SEQ_Q_STATUS d q)
      F.SEQ_Q_STATUS_STATE 5 = t := ⟨_, rfl⟩
  have hregs : RegsOnly s t := ht ▸ (recordFault_regsOnly s d q code unit opcode depth idx).put _ _ _
  have hcd : t.cd d = s.cd d := hregs.cd d
  have hstate : t.qState d q = 5 := ht ▸ State.get_put_self _ _ _ _ (by decide) (by decide)
  obtain ⟨c, hc⟩ : ∃ c, ({ t.cd d with
      coreIrq := true, queues := (t.cd d).queues.set q { (t.cd d).queues[q] with fcode := code } } : CDie) = c :=
    ⟨_, rfl⟩
  have hfault : s.queueFault d q code unit opcode depth idx = (t.setCd d c).raise 0x4260 d (some (s.cdCanton d))
      (detail q code ((t.setCd d c).rd (R.SEQ_FAULT d)).toNat) := by rw [← hc, ← ht]; rfl
  rw [hfault]
  refine ⟨?_, hstate, ?_⟩
  · have hdie : ((t.setCd d c).raise 0x4260 d (some (s.cdCanton d))
        (detail q code ((t.setCd d c).rd (R.SEQ_FAULT d)).toNat)).cd d = (t.setCd d c).cd d := rfl
    rw [hdie, State.cd_setCd_self, ← hc, hcd]
    rfl
  · rw [hregs]
    rfl

/-- What a unit's fault leaves: its queue in FAULT, and of the die the FIFOs, the engines and the arbiters as they were. -/
theorem unitFault_gives (s : State) (d : Fin 40) (v : Fin 8) (e : UCmd) (code : Nat) :
    (∃ st qs, (s.unitFault d v e code).cd d = { s.cd d with stopped := st, coreIrq := true, queues := qs }) ∧
    (s.unitFault d v e code).qState d e.q = 5 ∧
    s.unitFault d v e code = { s with
      regs := (s.unitFault d v e code).regs
      cds := (s.unitFault d v e code).cds
      events := (s.unitFault d v e code).events } := by
  obtain ⟨c, hc⟩ : ∃ c, ({ s.cd d with
      stopped := (s.cd d).stopped.set v true
      queues := (s.cd d).queues.set e.q { (s.cd d).queues[e.q] with
        funit := ((s.cd d).queues[e.q]).funit ++ [(v, e.seq)] } } : CDie) = c := ⟨_, rfl⟩
  obtain ⟨hcd, hstate, hframe⟩ :=
    queueFault_gives (s.setCd d c) d e.q code (unitOf e.w) (opcodeOf e.w) e.depth e.idx
  have hfault : s.unitFault d v e code =
      (s.setCd d c).queueFault d e.q code (unitOf e.w) (opcodeOf e.w) e.depth e.idx := by rw [← hc]; rfl
  rw [hfault]
  refine ⟨⟨c.stopped, c.queues.set e.q { (s.setCd d c).que d e.q with fcode := code }, ?_⟩, hstate, hframe⟩
  rw [hcd, State.cd_setCd_self, ← hc]

/-! ### Counts of refusals (R178) -/

theorem refusals_setRefusals (l : List (Fin 9 × LsKind × Nat)) (r r' : Fin 9) (k k' : LsKind) (n : Nat) :
    refusals (setRefusals l r k n) r' k' = if (r', k') = (r, k) then n else refusals l r' k' := by
  unfold refusals setRefusals
  by_cases h : (r', k') = (r, k)
  · obtain ⟨rfl, rfl⟩ := Prod.mk.inj h
    rw [if_pos rfl, List.find?_cons_of_pos (by simp)]
  · have hne : ¬ (r = r' ∧ k = k') := fun hk => h (by rw [hk.1, hk.2])
    rw [if_neg h, List.find?_cons_of_neg (by simpa using hne), List.find?_filter]
    have hsame : (fun x : Fin 9 × LsKind × Nat => decide ((!(x.1 == r && x.2.1 == k)) = true ∧
        (x.1 == r' && x.2.1 == k') = true)) = fun x => x.1 == r' && x.2.1 == k' := by
      funext x
      rw [Bool.eq_iff_iff, decide_eq_true_iff]
      refine and_iff_right_of_imp fun hx => ?_
      obtain ⟨rfl, rfl⟩ : x.1 = r' ∧ x.2.1 = k' := by simpa using hx
      have hother : ¬ x.1 = r ∨ ¬ x.2.1 = k := not_and_or.mp fun h => hne ⟨h.1.symm, h.2.symm⟩
      simpa using hother
    rw [hsame]

/-- The counts after a cycle's accesses, each set once. -/
theorem refusals_foldl (f : Want → Nat) (l : List Want) (c : List (Fin 9 × LsKind × Nat)) :
    (∀ r k, (r, k) ∉ l.map (fun x => (x.1.req, x.1.kind)) →
      refusals (l.foldl (fun c x => setRefusals c x.1.req x.1.kind (f x)) c) r k = refusals c r k) ∧
    ((l.map (fun x => (x.1.req, x.1.kind))).Nodup → ∀ x ∈ l,
      refusals (l.foldl (fun c x => setRefusals c x.1.req x.1.kind (f x)) c) x.1.req x.1.kind = f x) := by
  induction l generalizing c with
  | nil => exact ⟨fun _ _ _ => rfl, fun _ x hx => absurd hx (by simp)⟩
  | cons y l ih =>
    obtain ⟨hkeep, hset⟩ := ih (setRefusals c y.1.req y.1.kind (f y))
    refine ⟨fun r k hrk => ?_, fun hnd x hx => ?_⟩
    · rw [List.map_cons, List.mem_cons, not_or] at hrk
      rw [List.foldl_cons, hkeep r k hrk.2, refusals_setRefusals, if_neg hrk.1]
    · rw [List.map_cons, List.nodup_cons] at hnd
      rw [List.foldl_cons]
      obtain rfl | hx := List.mem_cons.mp hx
      · rw [hkeep _ _ hnd.1, refusals_setRefusals, if_pos rfl]
      · exact hset hnd.2 x hx

/-! ### A cycle's decision (R178) -/

/-- The keys of the accesses that the decision grants are the grants; the count of a granted access is 0, that of another
goes up by one. -/
theorem decide_counts (b : StoreArb) (now : Nat) {l : List Want} (hnd : (l.map (fun x => (x.1.req, x.1.kind))).Nodup)
    {x : Want} (hx : x ∈ l) : refusals (b.decide_ now l).refused x.1.req x.1.kind =
      if (b.decide_ now l).grants.contains (x.1.req, x.1.kind) then 0
      else refusals b.refused x.1.req x.1.kind + 1 :=
  (refusals_foldl (fun x => if (b.decide_ now l).grants.contains (x.1.req, x.1.kind) then 0
    else refusals b.refused x.1.req x.1.kind + 1) l b.refused).2 hnd x hx

/-- While nothing is reserved, an access that comes alone is granted. -/
theorem decide_alone {b : StoreArb} (hresv : b.resv = []) (now : Nat) (x : Want) :
    (b.decide_ now [x]).grants = [(x.1.req, x.1.kind)] := by
  have hwaiting : ∀ w ∈ [x].filter (fun y => decide (8 ≤ refusals b.refused y.1.req y.1.kind)), w = x :=
    fun w hw => List.mem_singleton.mp (List.mem_filter.mp hw).1
  have hvisit : visit now ([x].filter (fun y => decide (8 ≤ refusals b.refused y.1.req y.1.kind))) ([], [], [], []) x =
      (x.2.1, x.2.2.map (fun r => (now + r.1, r.2, x.1.req)), [x], []) := by
    unfold visit
    rw [if_pos, List.nil_append, List.nil_append, List.nil_append]
    rw [Bool.and_eq_true, List.all_eq_true, List.all_eq_true]
    refine ⟨fun _ _ => rfl, fun r _ => ?_⟩
    rw [List.any_nil, Bool.not_false, Bool.true_and, Bool.not_eq_true', List.any_eq_false]
    intro w hw
    simp [hwaiting w hw]
  unfold StoreArb.decide_
  rw [hresv]
  change ((([x].foldl (visit now _) ([], [], [], [])).2.2.1).map _ = _)
  rw [List.foldl_cons, List.foldl_nil, hvisit]
  rfl

/-- With no access presented, none is granted or refused. -/
theorem decide_none (b : StoreArb) (now : Nat) : (b.decide_ now []).grants = [] ∧ (b.decide_ now []).denied = [] :=
  ⟨rfl, rfl⟩

/-! ### Streams advance (R90, R93) -/

/-- A step that of the arbiters uses up grants of hoists alone, and otherwise changes registers, dies and events. -/
def HoistsOnly (d : Fin 40) (s t : State) : Prop :=
  (t.cd d).arb.refused = (s.cd d).arb.refused ∧
  (∃ p : Fin 9 × LsKind → Bool, (∀ x, x.2 ≠ .hoist → p x = true) ∧
    (t.cd d).arb.grants = (s.cd d).arb.grants.filter p) ∧
  t = { s with regs := t.regs, cds := t.cds, events := t.events }

namespace HoistsOnly

/-- A step that keeps the arbiters. -/
theorem of_arb (h : (t.cd d).arb = (s.cd d).arb) (hf : t = { s with regs := t.regs, cds := t.cds, events := t.events }) :
    HoistsOnly d s t :=
  ⟨by rw [h], ⟨fun _ => true, fun _ _ => rfl, by rw [h, List.filter_true]⟩, hf⟩

theorem refl (s : State) : HoistsOnly d s s := of_arb rfl rfl

theorem trans (h : HoistsOnly d s t) (k : HoistsOnly d t u) : HoistsOnly d s u := by
  obtain ⟨href, ⟨p, hp, hg⟩, hf⟩ := h
  obtain ⟨href', ⟨p', hp', hg'⟩, hf'⟩ := k
  refine ⟨href'.trans href, ⟨fun x => p' x && p x, fun x hx => Bool.and_eq_true_iff.mpr ⟨hp' x hx, hp x hx⟩, ?_⟩, ?_⟩
  · rw [hg', hg, List.filter_filter]
  · rw [hf', hf]

theorem useGrant (s : State) (r : Fin 9) : HoistsOnly d s (s.useGrant d r .hoist) := by
  refine ⟨by rw [State.useGrant, State.cd_setCd_self], ⟨fun g => g != (r, .hoist), fun x hx => ?_, ?_⟩, rfl⟩
  · exact bne_iff_ne.mpr fun h => hx (by rw [h])
  · rw [State.useGrant, State.cd_setCd_self]

theorem setMa (s : State) (a : Fin 4) (m : MArray) : HoistsOnly d s (s.setMa d a m) :=
  of_arb (by rw [State.setMa, State.cd_setCd_self]) rfl

theorem hoistPoison (s : State) (a : Fin 4) (e : UCmd) : HoistsOnly d s (s.hoistPoison d a e) := by
  obtain ⟨m, hm⟩ : ∃ m, s.hoistPoison d a e = (s.setMa d a m).unitFault d (maUnit a) e 7 := ⟨_, rfl⟩
  obtain ⟨⟨st, qs, hcd⟩, -, hframe⟩ := unitFault_gives (s.setMa d a m) d (maUnit a) e 7
  rw [hm]
  exact (setMa s a m).trans (of_arb (by rw [hcd]) hframe)

theorem hoistAccess (s : State) (a : Fin 4) : HoistsOnly d s (s.hoistAccess d a) := by
  unfold State.hoistAccess
  dsimp only
  split
  · exact refl s
  · split
    · exact refl s
    · split
      · exact useGrant s _
      · split
        · split
          · exact (useGrant s _).trans (hoistPoison _ _ _)
          · exact (useGrant s _).trans (setMa _ _ _)
        · split
          · exact setMa s _ _
          · exact refl s

theorem foldl {α : Type} {g : State → α → State} (hg : ∀ u x, HoistsOnly d u (g u x)) (l : List α)
    (h : HoistsOnly d s t) : HoistsOnly d s (l.foldl g t) := by
  induction l generalizing t with
  | nil => exact h
  | cons x l ih => exact ih (h.trans (hg t x))

theorem mem_grants (h : HoistsOnly d s t) {x : Fin 9 × LsKind} (hx : x.2 ≠ .hoist) :
    x ∈ (t.cd d).arb.grants ↔ x ∈ (s.cd d).arb.grants := by
  obtain ⟨-, ⟨p, hp, hg⟩, -⟩ := h
  rw [hg, List.mem_filter, hp x hx]
  exact and_iff_left rfl

end HoistsOnly

/-- In a cycle without grants and refusals, streams change their die alone. -/
theorem hoistAccess_idle {s : State} (a : Fin 4) (hg : (s.cd d).arb.grants = []) (hn : (s.cd d).arb.denied = []) :
    ((s.hoistAccess d a).cd d).arb.grants = [] ∧ ((s.hoistAccess d a).cd d).arb.denied = [] ∧
      s.hoistAccess d a = { s with cds := (s.hoistAccess d a).cds } := by
  unfold State.hoistAccess
  dsimp only
  split
  · exact ⟨hg, hn, rfl⟩
  · split
    · exact ⟨hg, hn, rfl⟩
    · split
      · refine ⟨?_, ?_, rfl⟩
        · rw [State.useGrant, State.cd_setCd_self, hg]
          rfl
        · rw [State.useGrant, State.cd_setCd_self]
          exact hn
      · rw [hg, hn]
        exact ⟨hg, hn, rfl⟩

theorem hoistAccesses_idle (l : List (Fin 4)) {s : State} (hg : (s.cd d).arb.grants = [])
    (hn : (s.cd d).arb.denied = []) : l.foldl (fun t a => t.hoistAccess d a) s =
      { s with cds := (l.foldl (fun t a => t.hoistAccess d a) s).cds } := by
  induction l generalizing s with
  | nil => rfl
  | cons a l ih =>
    obtain ⟨hg', hn', hf⟩ := hoistAccess_idle a hg hn
    rw [List.foldl_cons, ih hg' hn', hf]

/-! ### The arbiters (R178, R180) -/

/-- The accesses of a cycle with what they need. -/
def State.wants (s : State) (d : Fin 40) (accs : List LsAccess) : List Want := accs.map (fun x => (x, s.accNeeds d x))

/-- The die's arbiters after the cycle's decision. -/
def State.decided (s : State) (d : Fin 40) (accs : List LsAccess) : State :=
  s.setCd d { s.cd d with arb := (s.cd d).arb.decide_ s.aclk (s.wants d accs) }

/-- Refusals counted by the local store and the vector engine. -/
def State.countRefusals (s : State) (d : Fin 40) (l : List Want) : State :=
  let t := if l.any (fun x => (s.cd d).arb.denied.contains (x.1.req, x.1.kind) && touches false x)
    then s.bump (R.LS_PERF_REFUSED d) F.LS_PERF_REFUSED_COUNT 1 else s
  if (s.cd d).arb.denied.any (fun x => x.1 == 4) && !t.veStill d
    then t.bump (R.VE_PERF_LSWAIT d) F.VE_PERF_LSWAIT_COUNT 1 else t

theorem countRefusals_regsOnly (s : State) (d : Fin 40) (l : List Want) : RegsOnly s (s.countRefusals d l) := by
  unfold State.countRefusals
  extract_lets t
  have ht : RegsOnly s t := by
    unfold t
    split
    · exact (RegsOnly.refl s).put _ _ _
    · exact RegsOnly.refl s
  split
  · exact ht.put _ _ _
  · exact ht

theorem exec_lsArbitrate (hoff : s.dieOff d = false) (accs : List LsAccess) (lsEcc gasEcc : List StoreEcc) :
    exec (.lsArbitrate d accs lsEcc gasEcc) s = .next (gasEcc.foldl (fun t f => t.eccFinding d true f)
      (lsEcc.foldl (fun t f => t.eccFinding d false f) (([0, 1, 2, 3] : List (Fin 4)).foldl (fun t a => t.hoistAccess d a)
        ((s.decided d accs).countRefusals d (s.wants d accs))))) := by
  have harb : ((s.decided d accs).cd d).arb = (s.cd d).arb.decide_ s.aclk (s.wants d accs) := by
    rw [State.decided, State.cd_setCd_self]
  change execLsArbitrate d accs lsEcc gasEcc s = _
  unfold execLsArbitrate State.countRefusals
  rw [hoff, if_neg Bool.false_ne_true, harb]
  rfl

/-- The decision on a cycle's accesses: their counts of refusals, and the grants of those that are no hoists. -/
theorem arbitrate_gives (hoff : s.dieOff d = false) {accs : List LsAccess}
    (hnd : (accs.map (fun x => (x.req, x.kind))).Nodup) :
    Yields (exec (.lsArbitrate d accs [] []) s) (fun t =>
      (∀ x ∈ accs, (refusals (t.cd d).arb.refused x.req x.kind = 0 ∨
          refusals (t.cd d).arb.refused x.req x.kind = refusals (s.cd d).arb.refused x.req x.kind + 1) ∧
        (x.kind ≠ .hoist → ((x.req, x.kind) ∈ (t.cd d).arb.grants ↔ refusals (t.cd d).arb.refused x.req x.kind = 0))) ∧
      (∀ x, accs = [x] → (s.cd d).arb.resv = [] → x.kind ≠ .hoist → (t.cd d).arb.grants = [(x.req, x.kind)]) ∧
      t = { s with regs := t.regs, cds := t.cds, events := t.events }) := by
  obtain ⟨b, hb⟩ : ∃ b, (s.cd d).arb.decide_ s.aclk (s.wants d accs) = b := ⟨_, rfl⟩
  obtain ⟨v, hv⟩ : ∃ v, (s.decided d accs).countRefusals d (s.wants d accs) = v := ⟨_, rfl⟩
  have hregs : RegsOnly (s.decided d accs) v := hv ▸ countRefusals_regsOnly _ _ _
  have hvarb : (v.cd d).arb = b := by rw [hregs.cd, State.decided, State.cd_setCd_self, hb]
  have hvframe : v = { s with regs := v.regs, cds := v.cds } := RegsOnly.after rfl hregs
  have hhoists := (HoistsOnly.refl (d := d) v).foldl (fun u a => HoistsOnly.hoistAccess u a) [0, 1, 2, 3]
  have hexec := exec_lsArbitrate hoff accs [] []
  rw [hv, List.foldl_nil, List.foldl_nil] at hexec
  obtain ⟨hrefused, ⟨p, hp, hgrants⟩, hframe⟩ := id hhoists
  rw [hvarb] at hrefused hgrants
  have hkeys : ((s.wants d accs).map (fun x => (x.1.req, x.1.kind))).Nodup := by
    rw [State.wants, List.map_map]
    exact hnd
  refine ⟨_, hexec, fun x hx => ?_, fun x hx hresv hkind => ?_, by rw [hframe, hvframe]⟩
  · have hcount : refusals b.refused x.req x.kind = if b.grants.contains (x.req, x.kind) then 0
        else refusals (s.cd d).arb.refused x.req x.kind + 1 := by
      rw [← hb]
      exact decide_counts _ _ hkeys (x := (x, s.accNeeds d x)) (List.mem_map_of_mem hx)
    rw [hrefused]
    refine ⟨?_, fun hkind => ?_⟩
    · rw [hcount]
      split
      · exact .inl rfl
      · exact .inr rfl
    · rw [hhoists.mem_grants hkind, hvarb, hcount]
      by_cases hg : (x.req, x.kind) ∈ b.grants
      · simp [hg]
      · simp [hg]
  · have halone : b.grants = [(x.req, x.kind)] := by
      rw [← hb, hx]
      exact decide_alone hresv _ (x, s.accNeeds d x)
    rw [hgrants, halone]
    exact List.filter_eq_self.mpr fun y hy => hp y (by rw [List.mem_singleton.mp hy]; exact hkind)

/-! ### SECDED findings (R180) -/

/-- The poison marks after a finding: its line is marked where it cannot be corrected. -/
def eccPoison (m : Sparse Bool) (d : Fin 40) (gas : Bool) (f : StoreEcc) : Sparse Bool :=
  if f.uncorrectable then Sparse.set (fun _ => false) m ((if gas then gasBase d else lsBase d) / 64 + f.line) true else m

/-- The event of a finding. -/
def eccCode (gas uncorrectable : Bool) : Nat :=
  match gas, uncorrectable with
  | true, true => 0x4266 | true, false => 0x4165 | false, true => 0x4264 | false, false => 0x4163

/-- A finding marks its line, sets registers and raises its event. -/
theorem eccFinding_eq (s : State) (d : Fin 40) (gas : Bool) (f : StoreEcc) : ∃ t can det,
    RegsOnly { s with poison := eccPoison s.poison d gas f } t ∧
      s.eccFinding d gas f = t.raise (eccCode gas f.uncorrectable) d can det := by
  unfold State.eccFinding eccPoison
  cases f.uncorrectable with
  | false => cases gas <;> exact ⟨_, _, _, ((RegsOnly.refl s).put _ _ _).put _ _ _, rfl⟩
  | true => cases gas <;> exact ⟨_, _, _, ((RegsOnly.refl _).put _ _ _).wr _ _, rfl⟩

theorem eccFinding_gives (s : State) (d : Fin 40) (gas : Bool) (f : StoreEcc) :
    (s.eccFinding d gas f).poison = eccPoison s.poison d gas f ∧
    (∃ v : Event, (s.eccFinding d gas f).events = s.events ++ [v] ∧ v.die = d.val ∧
      v.code = eccCode gas f.uncorrectable) ∧
    s.eccFinding d gas f = { s with
      regs := (s.eccFinding d gas f).regs, poison := (s.eccFinding d gas f).poison
      events := (s.eccFinding d gas f).events } := by
  obtain ⟨t, can, det, hregs, heq⟩ := eccFinding_eq s d gas f
  rw [heq, hregs]
  exact ⟨rfl, ⟨_, rfl, rfl, rfl⟩, rfl⟩

theorem get_eccPoison (m : Sparse Bool) (d : Fin 40) (gas : Bool) (f : StoreEcc) (l : Nat) :
    Sparse.get (fun _ => false) (eccPoison m d gas f) l =
      if f.uncorrectable = true ∧ l = (if gas then gasBase d else lsBase d) / 64 + f.line then true
      else Sparse.get (fun _ => false) m l := by
  unfold eccPoison
  split
  · next h => simp only [Sparse.get_set, h, true_and]
  · next h => rw [if_neg fun hl => h hl.1]

theorem arbitrate_ecc (hoff : s.dieOff d = false) (f : StoreEcc) (gas : Bool) :
    Yields (exec (.lsArbitrate d [] (if gas then [] else [f]) (if gas then [f] else [])) s) (fun t =>
      (∀ l, Sparse.get (fun _ => false) t.poison l =
        if f.uncorrectable = true ∧ l = (if gas then gasBase d else lsBase d) / 64 + f.line then true
        else Sparse.get (fun _ => false) s.poison l) ∧
      (∃ v : Event, t.events = s.events ++ [v] ∧ v.die = d.val ∧
        v.code = match gas, f.uncorrectable with
          | true, true => 0x4266 | true, false => 0x4165 | false, true => 0x4264 | false, false => 0x4163) ∧
      t = { s with regs := t.regs, cds := t.cds, poison := t.poison, events := t.events }) := by
  obtain ⟨v, hv⟩ : ∃ v, (s.decided d []).countRefusals d (s.wants d []) = v := ⟨_, rfl⟩
  have hregs : RegsOnly (s.decided d []) v := hv ▸ countRefusals_regsOnly _ _ _
  have hvarb : (v.cd d).arb = (s.cd d).arb.decide_ s.aclk [] := by rw [hregs.cd, State.decided, State.cd_setCd_self]; rfl
  have hvframe : v = { s with regs := v.regs, cds := v.cds } := RegsOnly.after rfl hregs
  obtain ⟨hg, hn⟩ := decide_none (s.cd d).arb s.aclk
  obtain ⟨h, hh⟩ : ∃ h, ([0, 1, 2, 3] : List (Fin 4)).foldl (fun t a => t.hoistAccess d a) v = h := ⟨_, rfl⟩
  have hidle := hoistAccesses_idle (d := d) [0, 1, 2, 3] (hvarb ▸ hg) (hvarb ▸ hn)
  rw [hh] at hidle
  have hexec : exec (.lsArbitrate d [] (if gas then [] else [f]) (if gas then [f] else [])) s =
      .next (h.eccFinding d gas f) := by
    rw [exec_lsArbitrate hoff, hv, hh]
    cases gas <;> rfl
  have hframe : h = { s with regs := h.regs, cds := h.cds } := by rw [hidle, hvframe]
  have hpoison : h.poison = s.poison := by rw [hframe]
  have hevents : h.events = s.events := by rw [hframe]
  obtain ⟨hline, ⟨e, hevent, hdie, hcode⟩, hecc⟩ := eccFinding_gives h d gas f
  exact ⟨_, hexec, fun l => by rw [hline, hpoison, get_eccPoison], ⟨e, by rw [hevent, hevents], hdie, hcode⟩,
    by rw [hecc, hframe]⟩

end

/-- Settles O22: the two commands of the GAS unit, the drain engine and the arbiters, one lemma for each. -/
theorem gasIsZeroedDrainedAndArbitrated : Obligations.GasIsZeroedDrainedAndArbitrated := by
  unfold Obligations.GasIsZeroedDrainedAndArbitrated
  refine ⟨fun s d e h => ⟨fun hop hd => gasZero_gives h hop hd, fun hop hd => ?_⟩,
    fun s d g hoff hd => ⟨fun hs hout hw => gasDrainStart_gives hoff hd hs hout hw,
      fun piece hs ht hp hr hheld => ?_, fun piece ha hheld hq => drainAbort_gives hoff hd piece ha hheld hq⟩,
    fun s d hoff => ⟨fun accs hnd => arbitrate_gives hoff hnd, fun f gas => arbitrate_ecc hoff f gas⟩⟩
  · obtain ⟨t, hexec, hdrains, hrest⟩ := gasDrain_gives h hop hd
    exact ⟨t, hexec, ⟨drainNamed e, hdrains, rfl, rfl, rfl, rfl, rfl, rfl, rfl, rfl, rfl⟩, hrest⟩
  · have hat : g.pieceAt d piece = gasBase d + 64 * g.line + 4096 * piece := by unfold Drain.pieceAt; omega
    obtain ⟨t, hexec, hsent, hbyte, hrest⟩ := pieceRead_gives hoff hd hs ht hp hr hheld
    rw [hat] at hbyte
    exact ⟨t, hexec, ⟨s.pieceOf d g piece, hsent, rfl, rfl, rfl, congrArg (s.bytes · 4096) hat,
      congrArg (s.poisoned · 4096) hat⟩, hbyte, hrest⟩

end Sys2Proof.Machine
end

section
/-! Writes at the seal engine (R246, O26). The statement quantifies over every state, and the level of a cache line (R250) is
a number without a bound: writing back a changed line of level 0 raises the minor of the block itself. -/
namespace Sys2Proof.Machine

/-- A cache line at level 0, below the levels 1 to 4 of R250, whose parent counter is the block's own minor. -/
def strayLine : SealLine := ⟨1, 0, 0x1003⟩

/-- Memory die 15 with a write of the whole block waiting, and the stray line changed in its cache. -/
def strayState : State :=
  let s := Tests.sealSt [Tests.fullReq] [] [] []
  s.setEng 15 { s.eng 15 with lines := [(strayLine, true)] }

/-- Fetches without an error, for which the cache gives up the stray line. -/
def strayFetch : Fetched := { Fetched.good with evict := [strayLine] }

/-- The block's minor after an outcome. -/
def blockMinor : Out → Option Nat
  | .next t => some ((t.chan 15 1).minor 1 0x1003)
  | _ => none

theorem strayState_servable : strayState.servable 15 0 = some (Tests.fullReq, 1, 0x100300) := by decide +kernel

theorem strayState_open : strayState.sealShut 15 = false := by decide +kernel

theorem strayState_unpoisoned : (strayState.dropReq 15 0).poisonHits 15 1 0x100300 256 = [] := by decide +kernel

theorem strayState_fetches :
    ((strayState.dropReq 15 0).fetchBlock 15 1 0x100300 strayFetch false false).2 = true := by decide +kernel

theorem strayState_unwritten : (strayState.chan 15 1).minor 1 0x1003 = 0 := by decide +kernel

/-- The line written back and the write itself each raise the minor. -/
theorem strayState_counts_twice : blockMinor (exec (.sealFullWrite 15 0 strayFetch) strayState) = some 2 := by
  decide +kernel

/-- Refutes O26: of a full write the block's minor should go up by one, but in `strayState` it goes up by two, as the write
makes the cache give up a changed line of level 0. The model's own fills are of the levels 1 to 4, so that the
counterexample is no state of a run; it refutes the clause on the counter, and no other. -/
theorem not_sealedWritesTakeTheNextCounter : ¬ Obligations.SealedWritesTakeTheNextCounter := by
  unfold Obligations.SealedWritesTakeTheNextCounter
  rintro ⟨hfull, -⟩
  obtain ⟨hwrite, -, -⟩ := hfull strayState _ 15 0 strayFetch Tests.fullReq 1 0x100300 (List.replicate 256 5) _
    strayState_servable rfl List.length_replicate strayState_open rfl rfl
  obtain ⟨t, hexec, -, -, hminor, -⟩ := hwrite (by simp [strayState_unpoisoned]) strayState_fetches
  have htwice := strayState_counts_twice
  have hblock : 0x100300 / 256 = 0x1003 := by decide
  rw [hexec, blockMinor, ← hblock, hminor, hblock, strayState_unwritten] at htwice
  exact absurd htwice (by decide)

end Sys2Proof.Machine
end

section
/-! The DMA unit: packets issued, packets landed, commands that fail (R174 to R176, O21). -/
namespace Sys2Proof.Machine

/-! ### Requests sent -/

/-- The second state differs from the first in compute dies and in what has been asked of the seal engines. -/
def Asks (s t : State) : Prop := t = { s with cds := t.cds, mds := t.mds, reqNo := t.reqNo }

namespace Asks
variable {s t u : State}

theorem refl (s : State) : Asks s s := rfl

theorem trans (h : Asks s t) (k : Asks t u) : Asks s u := by
  unfold Asks at h k ⊢
  rw [k, h]

theorem setCd (h : Asks s t) (d : Fin 40) (c : CDie) : Asks s (t.setCd d c) := h.trans rfl

theorem mem (h : Asks s t) : t.mem = s.mem := by rw [h]

theorem rd (h : Asks s t) (a : Nat) : t.rd a = s.rd a := by rw [h]; rfl

theorem poisoned (h : Asks s t) (a n : Nat) : t.poisoned a n = s.poisoned a n := by rw [h]; rfl

theorem placeOf (h : Asks s t) (a : Nat) : t.placeOf a = s.placeOf a :=
  placeOf_congr (fun a _ => h.rd a) (by rw [h]) (by rw [h]) a

/-- What R28 says does not depend on what has been asked. -/
theorem checkRange (h : Asks s t) (r : Requester) (write : Bool) (a n : Nat) :
    t.checkRange r write a n = s.checkRange r write a n := by
  have hcanton : t.reqCanton r = s.reqCanton r := by rw [h]; cases r <;> rfl
  have hinspect : t.inspect = s.inspect := by rw [h]; rfl
  have hcol : t.colCanton = s.colCanton := by rw [h]; rfl
  have hcheck (b : Nat) : t.check r write b = s.check r write b := by
    unfold State.check
    rw [h.placeOf, hcanton, hinspect, hcol]
  unfold State.checkRange
  simp only [hcheck]

end Asks

section
variable {s t : State} {d : Fin 40}

theorem asks_forward (s : State) (src : Nat) (op : MpaOp) (a : Nat) :
    Asks s (s.forward src op a) ∧ (s.forward src op a).cds = s.cds := by
  unfold State.forward
  split <;> exact ⟨rfl, rfl⟩

/-- Parts of a request asked for one after another. -/
theorem asks_foldl {α : Type} {g : State → α → State} (hg : ∀ u x, Asks u (g u x) ∧ (g u x).cds = u.cds)
    (l : List α) (s : State) : Asks s (l.foldl g s) ∧ (l.foldl g s).cds = s.cds := by
  induction l generalizing s with
  | nil => exact ⟨.refl s, rfl⟩
  | cons x l ih =>
    obtain ⟨hask, hcds⟩ := ih (g s x)
    obtain ⟨hask', hcds'⟩ := hg s x
    exact ⟨hask'.trans hask, hcds.trans hcds'⟩

/-! ### A packet issued -/

/-- Where a packet goes from and to, and its length. -/
def DmaPacket.route (p : DmaPacket) : Option Nat × Nat × Nat := (p.src, p.dst, p.len)

theorem packetSend_gives (s : State) (d : Fin 40) (p : DmaPacket) (data : List Byte) :
    Asks s (s.packetSend d p data).1 ∧ (s.packetSend d p data).1.cds = s.cds ∧
      (s.packetSend d p data).2.route = p.route := by
  unfold State.packetSend
  split
  · obtain ⟨hask, hcds⟩ := asks_foldl (fun u x => asks_forward u d _ _) _ s.newReq
    exact ⟨Asks.trans (t := s.newReq) rfl hask, hcds, rfl⟩
  · exact ⟨.refl s, rfl, rfl⟩

/-- A packet issued asks the seal engines, if anybody; it goes where it was to go. -/
theorem packetIssue_gives (s : State) (d : Fin 40) (pattern : W32) (p : DmaPacket) :
    Asks s (s.packetIssue d pattern p).1 ∧ (s.packetIssue d pattern p).1.cds = s.cds ∧
      (s.packetIssue d pattern p).2.route = p.route := by
  unfold State.packetIssue
  split
  · obtain ⟨hask, hcds⟩ := asks_foldl (fun u x => asks_forward u d _ _) _ s.newReq
    exact ⟨Asks.trans (t := s.newReq) rfl hask, hcds, rfl⟩
  · exact packetSend_gives s d p _

/-- A packet that R28 allows and whose source in a store is not poisoned. -/
def Permitted (s : State) (d : Fin 40) (p : DmaPacket) : Prop :=
  (∀ a, p.src = some a → s.checkRange (asReq d) false a p.len = .ok ∧
    (inDram a = false → s.poisoned a p.len = false)) ∧ s.checkRange (asReq d) true p.dst p.len = .ok

theorem Permitted.asks {p : DmaPacket} (h : Permitted s d p) (k : Asks s t) : Permitted t d p := by
  obtain ⟨hsrc, hdst⟩ := h
  refine ⟨fun a ha => ?_, (k.checkRange _ _ _ _).trans hdst⟩
  obtain ⟨hok, hpois⟩ := hsrc a ha
  exact ⟨(k.checkRange _ _ _ _).trans hok, fun hd => (k.poisoned _ _).trans (hpois hd)⟩

theorem Permitted.read {p : DmaPacket} (h : Permitted s d p) :
    (match p.src with | some a => s.checkRange (asReq d) false a p.len | none => .ok) = Verdict.ok := by
  cases hp : p.src with
  | none => rfl
  | some a => exact (h.1 a hp).1

theorem Permitted.clean {p : DmaPacket} (h : Permitted s d p) :
    p.src.any (fun a => !inDram a && s.poisoned a p.len) = false := by
  cases hp : p.src with
  | none => rfl
  | some a =>
    rw [Option.any_some]
    cases ha : inDram a with
    | true => rfl
    | false => rw [(h.1 a hp).2 ha]; rfl

/-! ### The packets of a command (R176) -/

/-- A packet is at most 4 KiB and crosses no 4 KiB boundary of its destination. -/
theorem nextPacket_bounds {todo rest : DmaTodo} {p : DmaPacket} (h : nextPacket todo = some (p, rest)) :
    p.len ≤ 4096 ∧ p.dst % 4096 + p.len ≤ 4096 := by
  unfold nextPacket at h
  split at h
  · cases h
  · extract_lets src dst room n q step at h
    have hroom : room ≤ 4096 - dst % 4096 := Nat.min_le_left _ _
    have hn : n ≤ room := Nat.min_le_right _ _
    have hp : p = q := by
      split at h
      · exact ((Prod.mk.inj (Option.some.inj h)).1).symm
      · exact ((Prod.mk.inj (Option.some.inj h)).1).symm
    have hmod : dst % 4096 < 4096 := Nat.mod_lt _ (by decide)
    have hlen : p.len = n := by rw [hp]
    have hdst : p.dst = dst := by rw [hp]
    rw [hlen, hdst]
    omega

theorem firstPackets_bounds {n : Nat} {todo : DmaTodo} {p : DmaPacket} (h : p ∈ firstPackets n todo) :
    p.len ≤ 4096 ∧ p.dst % 4096 + p.len ≤ 4096 := by
  induction n generalizing todo with
  | zero => cases h
  | succ n ih =>
    rw [firstPackets] at h
    split at h
    · next q rest hnext =>
      obtain rfl | h := List.mem_cons.mp h
      · exact nextPacket_bounds hnext
      · exact ih h
    · cases h

theorem find?_sole (x : DmaCmd) : [x].find? (fun y => y.e.seq == x.e.seq) = some x :=
  List.find?_cons_of_pos (beq_self_eq_true x.e.seq)

/-- One packet of the only command in flight. -/
theorem dmaIssue_step {x : DmaCmd} {p : DmaPacket} {rest : DmaTodo} {fuel : Nat} (hx : (s.cd d).dma = [x])
    (hroom : x.out.length < 16) (hnext : nextPacket x.todo = some (p, rest)) (hp : Permitted s d p) :
    s.dmaIssue d x.e.seq (fuel + 1) = ((s.packetIssue d x.pattern p).1.setCd d
      { s.cd d with dma := [{ x with todo := rest, out := x.out ++ [(s.packetIssue d x.pattern p).2] }] }).dmaIssue d
        x.e.seq fuel := by
  obtain ⟨-, hcds, -⟩ := packetIssue_gives s d x.pattern p
  have hcd : (s.packetIssue d x.pattern p).1.cd d = s.cd d := congrArg (·[d]) hcds
  have hfew : ¬ (16 ≤ x.out.length ∨ 64 ≤ (s.cd d).dmaOut) := by
    have hout : (s.cd d).dmaOut = x.out.length := by rw [CDie.dmaOut, hx]; simp
    omega
  rw [State.dmaIssue, hx, find?_sole]
  dsimp only
  rw [if_neg hfew, hnext]
  dsimp only
  split
  · rw [hp.clean, if_neg Bool.false_ne_true, hcd, hx, List.map_cons, List.map_nil, if_pos rfl]
  · next hrefused => exact absurd (hp.read.symm.trans hrefused) Verdict.noConfusion
  · next hrefused => exact absurd (hp.2.symm.trans hrefused) Verdict.noConfusion

/-- What issuing the packets of the only command leaves: those packets outstanding behind the ones before. -/
theorem dmaIssue_sole (fuel : Nat) {s : State} {x : DmaCmd} (hx : (s.cd d).dma = [x])
    (hroom : x.out.length + fuel = 16) (hall : ∀ p ∈ firstPackets fuel x.todo, Permitted s d p) :
    ∃ y, (s.dmaIssue d x.e.seq fuel).cd d = { s.cd d with dma := [y] } ∧ y.e = x.e ∧ y.pattern = x.pattern ∧
      y.out.map DmaPacket.route = x.out.map DmaPacket.route ++ (firstPackets fuel x.todo).map DmaPacket.route ∧
      Asks s (s.dmaIssue d x.e.seq fuel) := by
  induction fuel generalizing s x with
  | zero =>
    refine ⟨x, ?_, rfl, rfl, by rw [firstPackets, List.map_nil, List.append_nil], .refl s⟩
    rw [State.dmaIssue, ← hx]
  | succ fuel ih =>
    cases hnext : nextPacket x.todo with
    | none =>
      have hnone : firstPackets (fuel + 1) x.todo = [] := by rw [firstPackets, hnext]
      have hstop : s.dmaIssue d x.e.seq (fuel + 1) = s := by
        rw [State.dmaIssue, hx, find?_sole]
        dsimp only
        split
        · rfl
        · rw [hnext]
      rw [hnone, hstop]
      exact ⟨x, by rw [← hx], rfl, rfl, (List.append_nil _).symm, .refl s⟩
    | some pr =>
      obtain ⟨p, rest⟩ := pr
      have hcons : firstPackets (fuel + 1) x.todo = p :: firstPackets fuel rest := by rw [firstPackets, hnext]
      rw [hcons] at hall ⊢
      obtain ⟨hask, -, hroute⟩ := packetIssue_gives s d x.pattern p
      obtain ⟨z, hz⟩ : ∃ z : DmaCmd, { x with todo := rest, out := x.out ++ [(s.packetIssue d x.pattern p).2] } = z :=
        ⟨_, rfl⟩
      obtain ⟨u, hu⟩ : ∃ u, (s.packetIssue d x.pattern p).1.setCd d { s.cd d with dma := [z] } = u := ⟨_, rfl⟩
      have hask' : Asks s u := hu ▸ hask.setCd d _
      have hcd : u.cd d = { s.cd d with dma := [z] } := by rw [← hu, State.cd_setCd_self]
      have hze : z.e = x.e := by rw [← hz]
      have hout : z.out.length + fuel = 16 := by rw [← hz, List.length_append, List.length_singleton]; omega
      have htodo : z.todo = rest := by rw [← hz]
      have hstep := dmaIssue_step (fuel := fuel) hx (by omega) hnext (hall p List.mem_cons_self)
      rw [hz, hu, ← hze] at hstep
      obtain ⟨y, hy, hye, hyp, hyo, hyask⟩ := ih (s := u) (x := z) (by rw [hcd]) hout (by
        rw [htodo]
        exact fun q hq => (hall q (List.mem_cons_of_mem _ hq)).asks hask')
      rw [← hze, hstep]
      refine ⟨y, by rw [hy, hcd], hye, by rw [hyp, ← hz], ?_, hask'.trans hyask⟩
      rw [hyo, htodo, ← hz, List.map_append, List.map_singleton, hroute, List.append_assoc]
      rfl

/-! ### A command that fails (R176, R191) -/

/-- The command is out of flight and back at the head of the FIFO, its queue in FAULT. -/
theorem dmaFail_gives (s : State) (d : Fin 40) (x : DmaCmd) (code : Nat) :
    (s.dmaFail d x code).qState d x.e.q = 5 ∧
      ((s.dmaFail d x code).cd d).fifo dmaUnit = x.e :: (s.cd d).fifo dmaUnit ∧
      (∀ y ∈ ((s.dmaFail d x code).cd d).dma, y.e.seq ≠ x.e.seq) ∧
      s.dmaFail d x code = { s with
        regs := (s.dmaFail d x code).regs, cds := (s.dmaFail d x code).cds, events := (s.dmaFail d x code).events } := by
  obtain ⟨c, hc⟩ : ∃ c, { s.cd d with dma := (s.cd d).dma.filter (fun y => y.e.seq != x.e.seq) }.setFifo dmaUnit
      (x.e :: (s.cd d).fifo dmaUnit) = c := ⟨_, rfl⟩
  have hfail : s.dmaFail d x code = (s.setCd d c).unitFault d dmaUnit x.e code := by rw [← hc]; rfl
  obtain ⟨⟨st, qs, hcd⟩, hstate, hframe⟩ := unitFault_gives (s.setCd d c) d dmaUnit x.e code
  rw [State.cd_setCd_self] at hcd
  rw [hfail]
  refine ⟨hstate, ?_, fun y hy => ?_, hframe⟩
  · rw [hcd, ← hc]
    simp [CDie.fifo, CDie.setFifo]
  · rw [hcd, ← hc] at hy
    exact bne_iff_ne.mp (List.mem_filter.mp hy).2

theorem mem_dmaFail (s : State) (d : Fin 40) (x : DmaCmd) (code : Nat) : (s.dmaFail d x code).mem = s.mem := by
  obtain ⟨-, -, -, hframe⟩ := dmaFail_gives s d x code
  rw [hframe]

/-- Issuing packets changes no memory: a store is written when a packet lands (R176). -/
theorem mem_dmaIssue (s : State) (d : Fin 40) (seq fuel : Nat) : (s.dmaIssue d seq fuel).mem = s.mem := by
  induction fuel generalizing s with
  | zero => rfl
  | succ fuel ih =>
    rw [State.dmaIssue]
    split
    · rfl
    · split
      · rfl
      · split
        · rfl
        · dsimp only
          split
          · split
            · exact mem_dmaFail ..
            · rw [ih]
              exact (packetIssue_gives ..).1.mem
          · exact mem_dmaFail ..
          · exact mem_dmaFail ..

theorem mem_dmaPump (s : State) (d : Fin 40) : (s.dmaPump d).mem = s.mem :=
  proj_foldl State.mem (fun u _ _ => mem_dmaIssue u d _ 16) s

theorem mem_dmaAcked (s : State) (d : Fin 40) (cmd pkt : Nat) (x : DmaCmd) : (s.dmaAcked d cmd pkt x).mem = s.mem := by
  unfold State.dmaAcked
  dsimp only
  rw [mem_dmaPump]
  split
  · rw [complete_frame]
    rfl
  · rfl

/-! ### The last packet of the only command -/

/-- With its last packet the only command leaves the unit and sends its increment. -/
theorem dmaAcked_last {cmd pkt : Nat} {x : DmaCmd} {p : DmaPacket} (hx : (s.cd d).dma[cmd]? = some x)
    (hp : x.out[pkt]? = some p) (hq : x.e.quiet = false) (hsole : (s.cd d).dma = [x]) (hout : x.out = [p])
    (hlast : (nextPacket x.todo).isNone = true) :
    ((s.dmaAcked d cmd pkt x).cd d).dma = [] ∧
      ((s.dmaAcked d cmd pkt x).cd d).due = (s.cd d).due ++ sigDue x.e.q x.e.w (s.aclk + 1) ∧
      s.dmaAcked d cmd pkt x = { s with cds := (s.dmaAcked d cmd pkt x).cds } := by
  obtain rfl : cmd = 0 := by
    have hlt := (List.getElem?_eq_some_iff.mp hx).1
    rw [hsole, List.length_singleton] at hlt
    omega
  obtain rfl : pkt = 0 := by
    have hlt := (List.getElem?_eq_some_iff.mp hp).1
    rw [hout, List.length_singleton] at hlt
    omega
  obtain ⟨t, ht⟩ : ∃ t, (s.setCd d { s.cd d with dma := [] }).complete d x.e = t := ⟨_, rfl⟩
  have hcd : t.cd d = { s.cd d with dma := [], due := (s.cd d).due ++ sigDue x.e.q x.e.w (s.aclk + 1) } := by
    rw [← ht, State.complete, State.cd_completeAt _ hq, State.cd_setCd_self]
    rfl
  have hacked : s.dmaAcked d 0 0 x = t := by
    unfold State.dmaAcked
    dsimp only
    rw [hout, List.eraseIdx_cons_zero, List.isEmpty_nil, hlast, Bool.true_and, if_pos rfl, hsole,
      List.eraseIdx_cons_zero, ht, State.dmaPump, hcd]
    rfl
  rw [hacked]
  refine ⟨by rw [hcd], by rw [hcd], ?_⟩
  rw [← ht, complete_frame]
  rfl

end

end Sys2Proof.Machine
end

section
/-! DMA commands started and their packets acknowledged (R174 to R176, O21). -/
namespace Sys2Proof.Machine

section
variable {s : State} {d : Fin 40} {e : UCmd} {todo : DmaTodo} {pat : W32}

/-! ### A command starts -/

/-- A command that the DMA unit may start, with nothing in flight before it: what it has to move, and no cause to hold it
back or refuse it. -/
structure DmaReady (s : State) (d : Fin 40) (e : UCmd) (todo : DmaTodo) (pat : W32) : Prop where
  unit : UnitReady s d dmaUnit e
  works : s.takesWork (s.cdCanton d) = true
  idle : (s.cd d).dma = []
  plan : s.dmaPlan d e = some (todo, pat)
  clean : opcodeOf e.w = 0x51 → s.poisoned (lsBase d + cbits e.w 35 16 * 64) 64 = false
  free : dmaHeld d (s.cd d) e.seq todo = false

/-- The state with the command out of the FIFO and in flight, with no packet yet. -/
def State.dmaTaken (s : State) (d : Fin 40) (e : UCmd) (todo : DmaTodo) (pat : W32) : State :=
  (s.popHead d dmaUnit).setCd d { (s.popHead d dmaUnit).cd d with dma := [⟨e, pat, todo, []⟩] }

theorem dmaStart_of_ready (h : DmaReady s d e todo pat) : s.dmaStart d = (s.dmaTaken d e todo pat).dmaIssue d e.seq 16 := by
  have hgo : ((s.cd d).stopped[dmaUnit] || !s.takesWork (s.cdCanton d)) = false := by rw [h.unit.free, h.works]; rfl
  have hfew : ¬ 8 ≤ (s.cd d).dma.length := by rw [h.idle]; decide
  have hclean : ¬ (opcodeOf e.w = 0x51 ∧ s.poisoned (lsBase d + cbits e.w 35 16 * 64) 64 = true) := fun hp =>
    Bool.false_ne_true ((h.clean hp.1).symm.trans hp.2)
  have hidle : ((s.popHead d dmaUnit).cd d).dma = [] := by
    rw [State.popHead, State.cd_setCd_self]
    exact h.idle
  unfold State.dmaStart
  rw [hgo, if_neg Bool.false_ne_true, h.unit.head]
  dsimp only
  rw [if_neg hfew, if_neg hclean, h.plan]
  dsimp only
  rw [h.free, if_neg Bool.false_ne_true, hidle]
  rfl

/-- The DMA commands of a queue, each with its opcode, and the start of the command at the head. -/
theorem exec_dma_of_ready (h : UnitReady s d dmaUnit e) {p : Instr × Nat}
    (hp : p ∈ ([(Instr.dmaCopy d e.q e.w, 0x50), (Instr.dmaCopy2d d e.q e.w, 0x51), (Instr.dmaFill d e.q e.w, 0x52),
        (Instr.dmaCommandStart d, opcodeOf e.w)] : List (Instr × Nat))) : exec p.1 s = .next (s.dmaStart d) := by
  have henter : s.dmaEnter d e.q e.w = s.dmaStart d := by rw [State.dmaEnter, enter_of_ready h, if_pos rfl]
  simp only [List.mem_cons, List.not_mem_nil, or_false] at hp
  obtain rfl | rfl | rfl | rfl := hp
  · exact congrArg Host.Outcome.next henter
  · exact congrArg Host.Outcome.next henter
  · exact congrArg Host.Outcome.next henter
  · change execDmaCommandStart d s = _
    rw [execDmaCommandStart, h.runs, if_neg Bool.false_ne_true]

/-- A started command is in flight with its first 16 packets outstanding; no memory changes yet. -/
theorem dmaStart_gives (h : DmaReady s d e todo pat) (hall : ∀ p ∈ firstPackets 16 todo, Permitted s d p) :
    ((s.dmaStart d).cd d).fifo dmaUnit = ((s.cd d).fifo dmaUnit).tail ∧
      (∃ x, ((s.dmaStart d).cd d).dma = [x] ∧ x.e = e ∧ x.pattern = pat ∧
        x.out.map DmaPacket.route = (firstPackets 16 todo).map DmaPacket.route ∧
        ∀ y ∈ x.out, y.len ≤ 4096 ∧ y.dst % 4096 + y.len ≤ 4096) ∧ Asks s (s.dmaStart d) := by
  obtain ⟨x, hx⟩ : ∃ x : DmaCmd, (⟨e, pat, todo, []⟩ : DmaCmd) = x := ⟨_, rfl⟩
  obtain ⟨t, ht⟩ : ∃ t, s.dmaTaken d e todo pat = t := ⟨_, rfl⟩
  have hask : Asks s t := by
    rw [← ht]
    exact ((Asks.refl s).setCd d _).setCd d _
  have hcd : t.cd d = { (s.popHead d dmaUnit).cd d with dma := [x] } := by
    rw [← ht, ← hx, State.dmaTaken, State.cd_setCd_self]
  have hfifo : (t.cd d).fifo dmaUnit = ((s.cd d).fifo dmaUnit).tail := by
    rw [hcd]
    exact State.fifo_popHead s d dmaUnit
  have hxe : x.e = e := by rw [← hx]
  obtain ⟨y, hy, hye, hyp, hyo, hyask⟩ := dmaIssue_sole (d := d) 16 (s := t) (x := x) (by rw [hcd]) (by rw [← hx]; rfl)
    (by rw [← hx]; exact fun p hp => (hall p hp).asks hask)
  have hroutes : y.out.map DmaPacket.route = (firstPackets 16 todo).map DmaPacket.route := by rw [hyo, ← hx]; rfl
  rw [dmaStart_of_ready h, ht, ← hxe]
  refine ⟨?_, ⟨y, by rw [hy], hye, by rw [hyp, ← hx], hroutes, fun z hz => ?_⟩, hask.trans hyask⟩
  · rw [hy]
    exact hfifo
  · obtain ⟨p, hp, hpz⟩ := List.mem_map.mp (hroutes ▸ List.mem_map_of_mem (f := DmaPacket.route) hz)
    obtain ⟨-, hdstlen⟩ := Prod.mk.inj hpz
    obtain ⟨hdst, hlen⟩ := Prod.mk.inj hdstlen
    rw [← hdst, ← hlen]
    exact firstPackets_bounds hp

/-- What a DMA_COPY moves (R172, R174). -/
theorem dmaPlan_copy (h : s.dmaPlan d e = some (todo, pat)) (hop : opcodeOf e.w = 0x50) :
    todo.src = some ((cbits e.w 63 22 * 64 + 64 * ((s.que d e.q).bases.getD (cbits e.w 18 16) 0).toNat) % 2 ^ 48) ∧
      todo.dst = (cbits e.w 105 64 * 64 + 64 * ((s.que d e.q).bases.getD (cbits e.w 21 19) 0).toNat) % 2 ^ 48 ∧
      todo.len = (cbits e.w 125 106 + 1) * 64 ∧ todo.rows = 1 := by
  unfold State.dmaPlan at h
  dsimp only at h
  rw [if_pos hop] at h
  obtain ⟨rfl, -⟩ := Prod.mk.inj (Option.some.inj h)
  exact ⟨rfl, rfl, rfl, rfl⟩

/-! ### A packet acknowledged -/

variable {cmd pkt : Nat} {x : DmaCmd} {p : DmaPacket}

/-- A packet of a die with its clock comes to its end without an error. -/
structure PacketDone (s : State) (d : Fin 40) (cmd pkt : Nat) (x : DmaCmd) (p : DmaPacket) : Prop where
  runs : s.dieOff d = false
  command : (s.cd d).dma[cmd]? = some x
  packet : x.out[pkt]? = some p
  answered : p.req ≠ 0 → s.reqWaits p.req = false
  good : s.reqErred p.req = false

/-- Unless its bytes have come from DRAM and go on to DRAM, the packet is acknowledged or lands. -/
theorem exec_packetAck_done (h : PacketDone s d cmd pkt x p) (hd : inDram p.dst = false ∨ p.data.isSome = true) :
    exec (.dmaPacketAck d cmd pkt .ok) s = .next (if inDram p.dst then s.dmaAcked d cmd pkt x
      else s.dmaLand d cmd pkt x p (p.data.getD (s.packetData x.pattern p))) := by
  have hwait : ¬ (p.req ≠ 0 ∧ s.reqWaits p.req = true) := fun hw =>
    Bool.false_ne_true ((h.answered hw.1).symm.trans hw.2)
  change execDmaPacketAck d cmd pkt .ok s = _
  unfold execDmaPacketAck
  rw [h.command]
  dsimp only
  rw [h.packet]
  dsimp only
  rw [h.runs, if_neg Bool.false_ne_true, if_neg (by decide), if_neg (by decide), if_neg hwait, h.good,
    if_neg Bool.false_ne_true]
  cases hdata : p.data with
  | some data => rfl
  | none =>
    have hstore : inDram p.dst = false := hd.resolve_right (by rw [hdata]; decide)
    rw [hstore]
    rfl

/-- A packet taken by a store is merged into it, and acknowledged. -/
theorem dmaLand_of_store {data : List Byte} {k off : Nat} (hchk : s.checkRange (asReq d) true p.dst p.len = .ok)
    (hplace : s.placeOf p.dst = .cd k off) (hfree : k = d.val ∨ (s.cd (fin40 k)).coversWindow off p.len = false)
    (hlen : data.length = p.len) (hkeep : ∀ i ∈ List.range p.len, s.mergeLost p.dst p.len i = false) :
    s.dmaLand d cmd pkt x p data = (s.mergeWrite p.dst data).1.dmaAcked d cmd pkt x := by
  have hhold : ¬ (k ≠ d.val ∧ (s.cd (fin40 k)).coversWindow off p.len = true) := fun hh =>
    hfree.elim hh.1 fun hf => Bool.false_ne_true (hf.symm.trans hh.2)
  have hwhole : (s.mergeWrite p.dst data).2 = false := by
    rw [(s.merged_mergeWrite p.dst data).answer, hlen, List.any_eq_false]
    intro i hi
    rw [hkeep i hi]
    exact Bool.false_ne_true
  unfold State.dmaLand
  rw [hchk, hplace]
  dsimp only
  rw [if_neg hhold, hwhole, if_neg Bool.false_ne_true]

/-- A packet that a store takes has moved exactly its bytes; the only command's last one ends the command. -/
theorem packetAck_store {data : List Byte} {k off : Nat} (h : PacketDone s d cmd pkt x p)
    (hdata : data = p.data.getD (s.packetData x.pattern p)) (hlen : data.length = p.len) (hq : x.e.quiet = false)
    (hd : inDram p.dst = false) (hchk : s.checkRange (asReq d) true p.dst p.len = .ok)
    (hplace : s.placeOf p.dst = .cd k off) (hfree : k = d.val ∨ (s.cd (fin40 k)).coversWindow off p.len = false)
    (hkeep : ∀ i ∈ List.range p.len, s.mergeLost p.dst p.len i = false) :
    Yields (exec (.dmaPacketAck d cmd pkt .ok) s) (fun t =>
      (∀ i, i < p.len → t.byte (p.dst + i) = data.getD i 0) ∧ MemOutside p.dst p.len s t ∧
      ((s.cd d).dma = [x] → x.out = [p] → (nextPacket x.todo).isNone = true →
        (t.cd d).dma = [] ∧ (t.cd d).due = (s.cd d).due ++ sigDue x.e.q x.e.w (s.aclk + 1) ∧
        t = { s with cds := t.cds, mem := t.mem, poison := t.poison })) := by
  obtain ⟨u, hu⟩ : ∃ u, (s.mergeWrite p.dst data).1 = u := ⟨_, rfl⟩
  have hm := s.merged_mergeWrite p.dst data
  have hframe : u = { s with mem := u.mem, poison := u.poison } := hu ▸ hm.frame
  have hcd : u.cd d = s.cd d := by rw [hframe]; rfl
  have haclk : u.aclk = s.aclk := by rw [hframe]; rfl
  have hmem (b : Nat) : (u.dmaAcked d cmd pkt x).byte b = u.byte b := State.byte_congr (mem_dmaAcked ..) b
  have hexec := exec_packetAck_done h (.inl hd)
  rw [hd, if_neg Bool.false_ne_true, ← hdata, dmaLand_of_store hchk hplace hfree hlen hkeep, hu] at hexec
  refine ⟨_, hexec, fun i hi => ?_, fun b hb => ?_, fun hsole hout hlast => ?_⟩
  · rw [hmem, ← hu, hm.written i (hlen ▸ hi), hlen, hkeep i (List.mem_range.mpr hi), if_neg Bool.false_ne_true]
  · rw [hmem, ← hu]
    exact hm.outside b (hlen.symm ▸ hb)
  · obtain ⟨hdma, hdue, hend⟩ := dmaAcked_last (s := u) (by rw [hcd]; exact h.command) h.packet hq
      (by rw [hcd]; exact hsole) hout hlast
    exact ⟨hdma, by rw [hdue, hcd, haclk], by rw [hend, hframe]⟩

/-- A packet that is refused, or whose source is bad, stops its command. -/
theorem packetAck_bad {res : MemResp} (hoff : s.dieOff d = false) (hx : (s.cd d).dma[cmd]? = some x)
    (hp : x.out[pkt]?.isSome = true) (hres : res ≠ .ok) :
    Yields (exec (.dmaPacketAck d cmd pkt res) s) (fun t => t.qState d x.e.q = 5 ∧
      (t.cd d).fifo dmaUnit = x.e :: (s.cd d).fifo dmaUnit ∧ (∀ y ∈ (t.cd d).dma, y.e.seq ≠ x.e.seq) ∧
      t = { s with regs := t.regs, cds := t.cds, events := t.events }) := by
  obtain ⟨p, hsome⟩ := Option.isSome_iff_exists.mp hp
  have hexec : exec (.dmaPacketAck d cmd pkt res) s = .next (if res = .refused
      then (s.raiseCat 2 d 28 (some (s.cdCanton d)) (detail 0 0 p.dst)).dmaFail d x 6 else s.dmaFail d x 7) := by
    change execDmaPacketAck d cmd pkt res s = _
    unfold execDmaPacketAck
    rw [hx]
    dsimp only
    rw [hsome]
    dsimp only
    rw [hoff, if_neg Bool.false_ne_true]
    cases res with
    | ok => exact absurd rfl hres
    | refused => rw [if_pos rfl, if_pos rfl]
    | poisoned => rw [if_neg (by decide), if_pos rfl, if_neg (by decide)]
  refine ⟨_, hexec, ?_⟩
  split
  · obtain ⟨hstate, hfifo, hgone, hframe⟩ :=
      dmaFail_gives (s.raiseCat 2 d 28 (some (s.cdCanton d)) (detail 0 0 p.dst)) d x 6
    exact ⟨hstate, hfifo, hgone, hframe⟩
  · exact dmaFail_gives s d x 7

end

/-- Settles O21: the start of a command, by induction on its packets; a packet acknowledged; a packet in error. -/
theorem dmaIssuesPacketsAndMovesBytes : Obligations.DmaIssuesPacketsAndMovesBytes := by
  unfold Obligations.DmaIssuesPacketsAndMovesBytes
  refine ⟨fun s d e todo pat hunit hworks hidle hplan hclean hfree hall p hp hop => ?_,
    fun s d cmd pkt x p data hoff hx hpk hans hgood hdata hlen hq =>
      ⟨fun k off hd hchk hplace hfree hkeep => packetAck_store ⟨hoff, hx, hpk, hans, hgood⟩ hdata hlen hq hd hchk hplace
        hfree hkeep, fun hd hsome hsole hout hlast => ?_⟩,
    fun s d cmd pkt x res hoff hx hpk hres => packetAck_bad hoff hx hpk hres⟩
  · obtain ⟨hfifo, hflight, hask⟩ := dmaStart_gives ⟨hunit, hworks, hidle, hplan, hclean, hfree⟩ hall
    exact ⟨_, exec_dma_of_ready hunit hp, hfifo, hflight,
      fun h50 => dmaPlan_copy hplan ((opcodeOf_of_isUnit hop).trans h50), hask⟩
  · have hexec := exec_packetAck_done ⟨hoff, hx, hpk, hans, hgood⟩ (.inr hsome)
    rw [hd, if_pos rfl] at hexec
    exact ⟨_, hexec, dmaAcked_last hx hpk hq hsole hout hlast⟩

end Sys2Proof.Machine
end

section
/-! The seal engine's state: engines, channels and poison registers through writes (R233 to R267). -/
namespace Sys2Proof.Machine

section
variable (s : State) (m : Fin 16)

@[simp] theorem State.eng_setEng_self (e : Seal) : (s.setEng m e).eng m = e := by
  simp [State.eng, State.setEng]

theorem State.eng_setEng_of_ne {n : Fin 16} (e : Seal) (h : n ≠ m) : (s.setEng m e).eng n = s.eng n := by
  rw [State.eng, State.setEng, State.md_setMd_of_ne s _ h, State.eng]

@[simp] theorem State.eng_put (a : Nat) (f : Fld) (n : Nat) : (s.put a f n).eng m = s.eng m := rfl

@[simp] theorem State.rd_setEng (e : Seal) (a : Nat) : (s.setEng m e).rd a = s.rd a := rfl

@[simp] theorem State.byte_setEng (e : Seal) (b : Nat) : (s.setEng m e).byte b = s.byte b := rfl

@[simp] theorem State.eng_sealEvent (c : Fin 2) (code entry mpa : Nat) (n : Fin 16) :
    (s.sealEvent m c code entry mpa).eng n = s.eng n := rfl

theorem State.chan_setChan_self (c : Fin 2) (x : SealChan) : (s.setChan m c x).chan m c = x := by
  simp [State.chan, State.setChan]

/-- A seal or channel event is one more event, of its code and its die. -/
theorem State.sealEvent_oneMore (c : Fin 2) (code entry mpa : Nat) :
    ∃ e : Event, (s.sealEvent m c code entry mpa).events = s.events ++ [e] ∧ e.code = code ∧ e.die = 40 + m.val :=
  ⟨_, rfl, rfl, rfl⟩

end

end Sys2Proof.Machine
end

section
/-! The upkeep of a memory channel: recalibration, temperature, counters cleared (R233, R234, R267, O28). -/
namespace Sys2Proof.Machine

/-! ### Recalibration (R233) -/

section
variable {s : State} {m : Fin 16} {c : Fin 2}

theorem channelRecalibrate_due (htrained : s.flag (R.MC_STATUS m c) F.MC_STATUS_TRAINED = true)
    (hawake : (s.eng m).asleep = false) (hdue : (s.chan m c).stale = true ∨ (s.chan m c).recalAt + ticksPerSec / 10 ≤ s.now) :
    exec (.channelRecalibrate m c) s = .next (s.setChan m c { s.chan m c with recalAt := s.now, stale := false }) := by
  change execChannelRecalibrate m c s = _
  unfold execChannelRecalibrate
  rw [if_pos ⟨htrained, hawake, hdue⟩]

theorem channelRecalibrate_early (hstale : (s.chan m c).stale = false)
    (hearly : s.now < (s.chan m c).recalAt + ticksPerSec / 10) : exec (.channelRecalibrate m c) s = .next s := by
  change execChannelRecalibrate m c s = _
  unfold execChannelRecalibrate
  rw [if_neg]
  rintro ⟨-, -, hdue | hdue⟩
  · exact Bool.false_ne_true (hstale.symm.trans hdue)
  · exact absurd hdue (Nat.not_le.mpr hearly)

end

/-! ### Temperature (R234) -/

theorem foldl_max_eq {l : List Nat} {hot : Nat} (hmem : hot ∈ l) (hmax : ∀ x ∈ l, x ≤ hot) : l.foldl max 0 = hot := by
  rw [List.foldl_eq_foldr]
  exact Nat.le_antisymm (List.max_le_of_forall_le l hot hmax) (List.le_max_of_le hmem (Nat.le_refl hot))

/-- The state once a temperature is taken note of, before the cap is seen to. -/
def State.sampled (s : State) (m : Fin 16) (c : Fin 2) (hot : Nat) : State :=
  (s.setChan m c { s.chan m c with halved := decide (85 ≤ hot) }).put (R.MC_STATUS m c) F.MC_STATUS_TEMP (satN 255 hot)

section
variable (s : State) (m : Fin 16) (c : Fin 2) (hot : Nat)

theorem get_temp_sampled : (s.sampled m c hot).get (R.MC_STATUS m c) F.MC_STATUS_TEMP = min 255 hot := by
  rw [State.sampled, State.get_put_self _ _ _ _ (by decide) (by decide), satN_eq_min]
  exact Nat.mod_eq_of_lt (Nat.lt_of_le_of_lt (Nat.min_le_left 255 hot) (by decide))

theorem flag_throt_sampled : (s.sampled m c hot).flag (R.MC_STATUS m c) F.MC_STATUS_THROT =
    s.flag (R.MC_STATUS m c) F.MC_STATUS_THROT := by
  rw [State.flag, State.sampled, State.get_put_of_disjoint _ _ _ _ _ (by decide) (by decide) (by decide)]
  rfl

theorem halved_sampled : ((s.sampled m c hot).chan m c).halved = decide (85 ≤ hot) :=
  congrArg SealChan.halved (State.chan_setChan_self s m c _)

theorem rd_sampled {a : Nat} (h : a ≠ R.MC_STATUS m c) : (s.sampled m c hot).rd a = s.rd a := State.rd_put_of_ne _ _ _ h

theorem get_temp_put_throt (x : State) (n : Nat) :
    (x.put (R.MC_STATUS m c) F.MC_STATUS_THROT n).get (R.MC_STATUS m c) F.MC_STATUS_TEMP =
      x.get (R.MC_STATUS m c) F.MC_STATUS_TEMP :=
  State.get_put_of_disjoint _ _ _ _ _ (by decide) (by decide) (by decide)

end

theorem exec_dimmTempSample {temps : List Nat} {hot : Nat} (s : State) (m : Fin 16) (c : Fin 2) (hmem : hot ∈ temps)
    (hmax : ∀ x ∈ temps, x ≤ hot) : exec (.dimmTempSample m c temps) s =
      if 95 ≤ hot ∧ s.flag (R.MC_STATUS m c) F.MC_STATUS_THROT = false then
        .next (((s.sampled m c hot).put (R.MC_STATUS m c) F.MC_STATUS_THROT 1).sealEvent m c 0x301A 0xFFFF 0)
      else if hot < 90 then .next ((s.sampled m c hot).put (R.MC_STATUS m c) F.MC_STATUS_THROT 0)
      else .next (s.sampled m c hot) := by
  change execDimmTempSample m c temps s = _
  unfold execDimmTempSample
  rw [foldl_max_eq hmem hmax]
  rfl

/-- What a sample leaves (R234). -/
structure SampleTaken (s t : State) (m : Fin 16) (c : Fin 2) (hot : Nat) : Prop where
  temp : t.get (R.MC_STATUS m c) F.MC_STATUS_TEMP = min 255 hot
  halved : (t.chan m c).halved = decide (85 ≤ hot)
  regs : OnlyRegs [R.MC_STATUS m c] s t
  mem : SameMem s t

theorem sampleTaken_sampled (s : State) (m : Fin 16) (c : Fin 2) (hot : Nat) : SampleTaken s (s.sampled m c hot) m c hot :=
  ⟨get_temp_sampled s m c hot, halved_sampled s m c hot, fun _ ha => rd_sampled s m c hot (List.ne_of_not_mem_cons ha),
    fun _ => rfl⟩

theorem SampleTaken.put_throt {s t : State} {m : Fin 16} {c : Fin 2} {hot : Nat} (h : SampleTaken s t m c hot) (n : Nat) :
    SampleTaken s (t.put (R.MC_STATUS m c) F.MC_STATUS_THROT n) m c hot :=
  ⟨(get_temp_put_throt m c t n).trans h.temp, h.halved,
    fun a ha => (State.rd_put_of_ne _ _ _ (List.ne_of_not_mem_cons ha)).trans (h.regs a ha), h.mem⟩

theorem SampleTaken.sealEvent {s t : State} {m : Fin 16} {c : Fin 2} {hot : Nat} (h : SampleTaken s t m c hot)
    (code entry mpa : Nat) : SampleTaken s (t.sealEvent m c code entry mpa) m c hot := ⟨h.temp, h.halved, h.regs, h.mem⟩

theorem dimmTempSample_gives {temps : List Nat} {hot : Nat} (s : State) (m : Fin 16) (c : Fin 2) (hmem : hot ∈ temps)
    (hmax : ∀ x ∈ temps, x ≤ hot) : Yields (exec (.dimmTempSample m c temps) s) (fun t => SampleTaken s t m c hot ∧
      t.flag (R.MC_STATUS m c) F.MC_STATUS_THROT =
        (if 95 ≤ hot then true else if hot < 90 then false else s.flag (R.MC_STATUS m c) F.MC_STATUS_THROT) ∧
      (if 95 ≤ hot ∧ s.flag (R.MC_STATUS m c) F.MC_STATUS_THROT = false then
        ∃ e : Event, t.events = s.events ++ [e] ∧ e.code = 0x301A ∧ e.die = 40 + m.val else t.events = s.events)) := by
  have htaken := sampleTaken_sampled s m c hot
  rw [exec_dimmTempSample s m c hmem hmax]
  by_cases hcap : 95 ≤ hot ∧ s.flag (R.MC_STATUS m c) F.MC_STATUS_THROT = false
  · rw [if_pos hcap]
    refine ⟨_, rfl, (htaken.put_throt 1).sealEvent _ _ _, ?_, ?_⟩
    · rw [if_pos hcap.1]
      exact flag_put_self _ _ _ 1 rfl (by decide) (by decide)
    · rw [if_pos hcap]
      exact State.sealEvent_oneMore _ m c _ _ _
  · rw [if_neg hcap]
    by_cases hcool : hot < 90
    · rw [if_pos hcool]
      refine ⟨_, rfl, htaken.put_throt 0, ?_, by rw [if_neg hcap]; rfl⟩
      rw [if_neg (by omega), if_pos hcool]
      exact flag_put_self _ _ _ 0 rfl (by decide) (by decide)
    · rw [if_neg hcool]
      refine ⟨_, rfl, htaken, ?_, by rw [if_neg hcap]; rfl⟩
      rw [if_neg hcool, flag_throt_sampled]
      split
      · next hhot => exact Bool.eq_true_of_not_eq_false fun h => hcap ⟨hhot, h⟩
      · rfl

/-! ### Counters cleared (R267) -/

/-- The performance counters of a seal engine. -/
def sealPerfRegs (m : Fin 16) : List Nat := [R.SEAL_PERF_OVF m, R.SEAL_PERF_RMW m, R.SEAL_PERF_CCMISS m, R.SEAL_PERF_TCMISS m]

theorem sealPerfClear_gives (s : State) (m : Fin 16) : Yields (exec (.sealPerfClear m) s) (fun t =>
    (∀ a ∈ sealPerfRegs m, t.rd a = 0) ∧ OnlyRegs (sealPerfRegs m) s t ∧
      t = { s with regs := t.regs, cleared := t.cleared }) := by
  refine ⟨_, rfl, fun a ha => ?_, fun a ha => ?_, ?_⟩
  · exact (State.rd_zeroRegs _ _ a).trans (if_pos ha)
  · exact (State.rd_zeroRegs _ _ a).trans (if_neg ha)
  · rw [State.clearCounts, State.zeroRegs_eq]

/-- Settles O28: recalibration by the two sides of its condition, a sample by where its hottest sensor lies, CLEAR by the
registers it zeroes. -/
theorem memoryChannelsRunTheirUpkeep : Obligations.MemoryChannelsRunTheirUpkeep := by
  unfold Obligations.MemoryChannelsRunTheirUpkeep
  refine ⟨fun s m c htrained hawake => ⟨fun hdue => ⟨_, channelRecalibrate_due htrained hawake hdue,
    State.chan_setChan_self s m c _, rfl⟩, channelRecalibrate_early⟩, fun s m c temps hot hmem hmax => ?_, sealPerfClear_gives⟩
  obtain ⟨t, hexec, ⟨htemp, hhalved, hregs, hbytes⟩, hthrot, hevents⟩ := dimmTempSample_gives s m c hmem hmax
  exact ⟨t, hexec, htemp, hhalved, hthrot, hevents, hregs, hbytes⟩

end Sys2Proof.Machine
end

section
/-! Reads at the seal engine (R245, R252, O25). As with writes (O26), the statement quantifies over every state, and writing
back a changed cache line of level 0 moves on the minor of a block while that block is read. -/
namespace Sys2Proof.Machine

/-- Memory die 15 with a read accepted of a block that holds [1, 2] and whose minor is 127, and the stray line changed in its
cache. -/
def strayRead : State :=
  let s := Tests.withMem (Tests.sealSt [] [Tests.readReq] Tests.minor127 []) Tests.block15 [1, 2]
  s.setEng 15 { s.eng 15 with lines := [(strayLine, true)] }

/-- The read taken from the engine. -/
def strayTaken : State := strayRead.setEng 15 { strayRead.eng 15 with reads := (strayRead.eng 15).reads.eraseIdx 0 }

/-- What an outcome answers to the outside. -/
def answerOf : Out → Option Resp
  | .next t => some t.resp
  | _ => none

theorem strayRead_channel : strayRead.channelOf Tests.readReq.mpa = some (15, (1 : Fin 2).val, 0x100300) := by decide +kernel

theorem strayRead_open : strayRead.sealShut 15 = false := by decide +kernel

theorem strayRead_fetches :
    (strayTaken.fetchBlock 15 1 (0x100300 / 256 * 256) strayFetch true false).2 = true := by decide +kernel

theorem strayRead_written : strayRead.writtenBlock 15 1 (0x100300 / 256 * 256) = true := by decide +kernel

theorem strayRead_holds : strayRead.bytes Tests.readReq.mpa 16 = [1, 2] ++ List.replicate 14 0 := by decide +kernel

theorem strayTaken_alone : strayTaken.reqWaits Tests.readReq.id = false ∧ strayTaken.got = [] := by decide +kernel

/-- The line written back overflows the block's minor from 127 to 0, so that the block counts as never written. -/
theorem strayRead_answers_zeros :
    answerOf (exec (.sealReadComplete 15 0 strayFetch) strayRead) = some (.data (List.replicate 16 0)) := by decide +kernel

/-- Refutes O25: a completed read should answer the bytes of a written block, but in `strayRead` it answers zeros, as the
fetch makes the cache give up a changed line of level 0. The model's own fills are of the levels 1 to 4, so that the
counterexample is no state of a run; what it refutes is the clause on the bytes answered. -/
theorem not_sealedReadsReleaseOnlyVerifiedBlocks : ¬ Obligations.SealedReadsReleaseOnlyVerifiedBlocks := by
  unfold Obligations.SealedReadsReleaseOnlyVerifiedBlocks
  rintro ⟨-, hcomplete, -⟩
  obtain ⟨t, hexec, -, -, hgood, -⟩ := hcomplete strayRead strayTaken 15 0 16 strayFetch Tests.readReq 15 1 0x100300 _
    rfl rfl strayRead_channel strayRead_open rfl rfl
  obtain ⟨-, hwhole⟩ := hgood strayRead_fetches
  obtain ⟨halone, hgot⟩ := strayTaken_alone
  obtain ⟨-, hresp⟩ := hwhole halone (by rw [hgot]; rfl)
  have hzeros := strayRead_answers_zeros
  rw [if_pos strayRead_written, strayRead_holds] at hresp
  rw [hexec, answerOf, hresp] at hzeros
  exact absurd hzeros (by decide)

end Sys2Proof.Machine
end

section
/-! What the seal engine's upkeep leaves alone: addresses, lines filled and written back, the poison registers, ranges that
are lost (R250, R259, R261). -/
namespace Sys2Proof.Machine

/-! ### Where a channel-local address lies (R261) -/

theorem colCanton_lt (s : State) {col : Nat} (h : col < 8) : s.colCanton col < 8 := by
  have hmul : col * s.cantons ≤ 7 * 8 := Nat.mul_le_mul (by omega) (cantons_le s)
  unfold State.colCanton
  omega

section
variable {s t : State} (hrd : ∀ a, a < 0x100000 → t.rd a = s.rd a)
include hrd

theorem colCanton_congr (col : Nat) : t.colCanton col = s.colCanton col := by
  rw [State.colCanton, State.cantons, get_congr (hrd _ (by decide))]
  rfl

theorem cantonMds_congr (k : Nat) : t.cantonMds k = s.cantonMds k := by
  unfold State.cantonMds
  simp only [colCanton_congr hrd]

theorem channels_congr : t.channels = s.channels := by
  rw [State.channels, get_congr (hrd _ (by decide))]
  rfl

theorem slice_congr {k : Nat} (hk : k < 8) : t.sliceBase k = s.sliceBase k ∧ t.spreadSize k = s.spreadSize k ∧
    t.ownedSize k = s.ownedSize k := by
  have hspread : t.spreadSize k = s.spreadSize k := by
    rw [State.spreadSize, get_congr (hrd _ (by unfold R.ARCH_CANTON_SPREAD tdBase; omega))]; rfl
  have hsize : t.sliceSize k = s.sliceSize k := by
    rw [State.sliceSize, get_congr (hrd _ (by unfold R.ARCH_CANTON_SIZE tdBase; omega))]; rfl
  refine ⟨?_, hspread, ?_⟩
  · rw [State.sliceBase, get_congr (hrd _ (by unfold R.ARCH_CANTON_BASE tdBase; omega))]; rfl
  · rw [State.ownedSize, hsize, hspread, cantonMds_congr hrd, channels_congr hrd]; rfl

theorem mpaOf_congr (m : Fin 16) (c : Fin 2) (l : Nat) : t.mpaOf m c l = s.mpaOf m c l := by
  obtain ⟨hbase, hspread, howned⟩ := slice_congr hrd (colCanton_lt s (Nat.mod_lt m.val (by decide : 0 < 8)))
  unfold State.mpaOf
  simp only [colCanton_congr hrd, cantonMds_congr hrd, channels_congr hrd, hbase, hspread, howned]

theorem mpaPages_congr (m : Fin 16) (c : Fin 2) (l n : Nat) : t.mpaPages m c l n = s.mpaPages m c l n := by
  unfold State.mpaPages
  simp only [mpaOf_congr hrd]

end

theorem channelOf_setEng (s : State) (m : Fin 16) (e : Seal) (a : Nat) : (s.setEng m e).channelOf a = s.channelOf a := by
  have hplace : (s.setEng m e).placeOf a = s.placeOf a := placeOf_congr (fun x _ => State.rd_setEng s m e x) rfl rfl a
  unfold State.channelOf
  rw [hplace]
  rfl

/-! ### Lines filled and written back (R247, R250) -/

theorem SealOnly.put (s : State) {a : Nat} (f : Fld) (n : Nat) (ha : 0x100000 ≤ a) : SealOnly s (s.put a f n) :=
  ⟨rfl, fun _ hb => State.rd_put_of_ne _ _ _ (by omega)⟩

section
variable {a : Nat} {m : Fin 16} (h : a ≠ R.SEAL_PERF_OVF m)
include h

theorem rd_sealTally_ovf (s : State) (n : Nat) : (s.sealTally m (R.SEAL_PERF_OVF m) n).rd a = s.rd a := by
  unfold State.sealTally
  split
  · rfl
  · exact State.rd_put_of_ne _ _ _ h

theorem rd_touchLine (s : State) (ln : SealLine) : (s.touchLine m ln []).rd a = s.rd a := by
  have hkids : ∀ j, errsOf ([] : List (Fin 64 × BurstErrs)) j = [] := fun _ => rfl
  unfold State.touchLine
  extract_lets spill r t t'
  have ht : t.rd a = s.rd a := rd_sealTally_ovf h _ _
  have ht' : t'.rd a = s.rd a := by
    unfold t'
    split <;> exact ht
  split
  · refine (rd_foldl (fun u j _ => ?_) t').trans ht'
    rw [hkids, checkKid_nil, ite_self]
  · exact ht'

theorem rd_evictOne (s : State) (ln : SealLine) : (s.evictOne m [] ln).rd a = s.rd a := by
  unfold State.evictOne
  split
  · rfl
  · rw [State.rd_setEng]
    split
    · exact rd_touchLine h s ln
    · rfl

theorem rd_evictLine (s : State) (ln : SealLine) : (s.evictLine m [] ln).rd a = s.rd a :=
  rd_foldl (fun u x _ => rd_evictOne h u x) s

theorem rd_fillLine (s : State) (ln : SealLine) : (s.fillLine m [] ln).rd a = s.rd a := by
  unfold State.fillLine
  split
  · rfl
  · extract_lets same cap old t
    change t.rd a = s.rd a
    unfold t
    by_cases hfull : cap ≤ same.length
    · rw [if_pos hfull]
      split
      · exact rd_evictLine h s _
      · rfl
    · rw [if_neg hfull]

end

/-! ### The poison registers (R256) -/

theorem RegsOnly.eng {s t : State} (h : RegsOnly s t) (m : Fin 16) : t.eng m = s.eng m := by rw [h]; rfl

theorem RegsOnly.byte {s t : State} (h : RegsOnly s t) (b : Nat) : t.byte b = s.byte b := by rw [h]; rfl

theorem syncPoison_regsOnly (s : State) (m : Fin 16) : RegsOnly s (s.syncPoison m) := by
  unfold State.syncPoison
  dsimp only
  split
  · exact (RegsOnly.refl s |>.put _ _ _).trans (State.zeroRegs_eq _ _)
  · exact RegsOnly.refl s |>.put _ _ _ |>.wr _ _ |>.wr _ _ |>.wr _ _ |>.wr _ _ |>.wr _ _ |>.wr _ _

theorem rd_syncPoison (s : State) (m : Fin 16) {a : Nat} (h : a < R.SEAL_POISON_CNT m ∨ R.SEAL_PREC5 m < a) :
    (s.syncPoison m).rd a = s.rd a := by
  obtain ⟨hcnt, hrec⟩ : a ≠ R.SEAL_POISON_CNT m ∧ a ∉ [R.SEAL_PREC0 m, R.SEAL_PREC1 m, R.SEAL_PREC2 m, R.SEAL_PREC3 m,
      R.SEAL_PREC4 m, R.SEAL_PREC5 m] := by
    simp only [R.SEAL_PREC0, R.SEAL_PREC1, R.SEAL_PREC2, R.SEAL_PREC3, R.SEAL_PREC4, R.SEAL_PREC5, R.SEAL_POISON_CNT,
      List.mem_cons, List.not_mem_nil, or_false] at h ⊢
    omega
  unfold State.syncPoison
  dsimp only
  split
  · rw [State.rd_zeroRegs, if_neg hrec, State.rd_put_of_ne _ _ _ hcnt]
  · simp only [List.mem_cons, List.not_mem_nil, or_false, not_or] at hrec
    obtain ⟨h0, h1, h2, h3, h4, h5⟩ := hrec
    rw [State.rd_wr_of_ne _ _ h5, State.rd_wr_of_ne _ _ h4, State.rd_wr_of_ne _ _ h3, State.rd_wr_of_ne _ _ h2,
      State.rd_wr_of_ne _ _ h1, State.rd_wr_of_ne _ _ h0, State.rd_put_of_ne _ _ _ hcnt]

/-! ### Ranges that are lost (R259) -/

theorem byte_foldl_zeroRange (l : List (Nat × Nat)) (s : State) (b : Nat) :
    (l.foldl (fun t p => t.zeroRange p.1 p.2) s).byte b = if ∃ p ∈ l, p.1 ≤ b ∧ b < p.1 + p.2 then 0 else s.byte b := by
  induction l generalizing s with
  | nil => simp
  | cons p l ih =>
    rw [List.foldl_cons, ih, State.byte_zeroRange]
    simp only [List.exists_mem_cons_iff]
    by_cases hp : p.1 ≤ b ∧ b < p.1 + p.2
    · simp only [hp, and_self, if_true, true_or, ite_self]
    · rw [if_neg hp]
      simp only [hp, false_or]

section
variable (s : State) (m : Fin 16) (c : Fin 2) (l n : Nat)

theorem byte_wipe (b : Nat) : (s.wipe m c l n).byte b =
    if ∃ p ∈ s.mpaPages m c l n, p.1 ≤ b ∧ b < p.1 + p.2 then 0 else s.byte b := byte_foldl_zeroRange _ s b

theorem rd_wipe (a : Nat) : (s.wipe m c l n).rd a = s.rd a := 
  rd_foldl (g := fun t (p : Nat × Nat) => t.zeroRange p.1 p.2) (fun _ _ _ => rfl) s

theorem byte_wipe_block (b : Nat) : (s.wipe m c l 256).byte b =
    if s.mpaOf m c l ≤ b ∧ b < s.mpaOf m c l + 256 then 0 else s.byte b := by
  rw [byte_wipe, State.mpaPages, if_pos (by decide : 256 ≤ 4096)]
  simp only [List.exists_mem_cons_iff, List.not_mem_nil, false_and, exists_false, or_false]

/-- Blocks of an L1 line lost, those of a list that `gone` names. -/
def State.wipeBlocks (s : State) (m : Fin 16) (c : Fin 2) (line : Nat) (gone : Nat → Bool) (l : List Nat) : State :=
  l.foldl (fun t j => if gone j then t.wipe m c ((64 * line + j) * 256) 256 else t) s

theorem byte_wipeBlocks (line : Nat) (gone : Nat → Bool) (l : List Nat) (b : Nat) :
    (s.wipeBlocks m c line gone l).byte b =
      if ∃ j ∈ l, gone j = true ∧ s.mpaOf m c ((64 * line + j) * 256) ≤ b ∧ b < s.mpaOf m c ((64 * line + j) * 256) + 256
      then 0 else s.byte b := by
  induction l generalizing s with
  | nil => simp [State.wipeBlocks]
  | cons j l ih =>
    have hcons : s.wipeBlocks m c line gone (j :: l) =
      (if gone j then s.wipe m c ((64 * line + j) * 256) 256 else s).wipeBlocks m c line gone l := rfl
    rw [hcons]
    simp only [List.exists_mem_cons_iff]
    by_cases hgone : gone j = true
    · rw [if_pos hgone, ih, byte_wipe_block]
      simp only [mpaOf_congr (fun a _ => rd_wipe s m c _ 256 a), hgone, true_and]
      by_cases hin : s.mpaOf m c ((64 * line + j) * 256) ≤ b ∧ b < s.mpaOf m c ((64 * line + j) * 256) + 256 <;>
        simp [hin]
    · rw [if_neg hgone, ih]
      simp [hgone]

end

end Sys2Proof.Machine
end

section
/-! Poison entries cleared (R258, R259, O27). -/
namespace Sys2Proof.Machine

/-! ### A reinit begun (R259) -/

section
variable {s : State} {m : Fin 16} {index : Fin 1024}

theorem sealReinit_busy (h : s.flag (R.SEAL_REINIT_STATUS m) F.SEAL_REINIT_STATUS_BUSY = true) :
    exec (.sealReinit m index) s = .next s := by
  change execSealReinit m index s = _
  unfold execSealReinit
  rw [if_pos h]

variable (h : s.flag (R.SEAL_REINIT_STATUS m) F.SEAL_REINIT_STATUS_BUSY = false)
include h

theorem sealReinit_starts {e : PoisonEntry} (hfind : (s.eng m).ptab.find? (fun p => p.1 == index.val) = some (index.val, e))
    (hgen : e.cls < 2 ∨ s.get (R.SEAL_GEN m) (genField e.ch) ≠ 255) : exec (.sealReinit m index) s =
      .next ((s.setEng m { s.eng m with reinit := some index.val }).put (R.SEAL_REINIT_STATUS m)
        F.SEAL_REINIT_STATUS_BUSY 1) := by
  change execSealReinit m index s = _
  unfold execSealReinit
  rw [if_neg (by rw [h]; exact Bool.false_ne_true), hfind]
  exact if_neg fun hspent => hgen.elim (Nat.not_lt.mpr hspent.1) (· hspent.2)

theorem sealReinit_refused (hno : (s.eng m).ptab.find? (fun p => p.1 == index.val) = none ∨
      ∃ e, (s.eng m).ptab.find? (fun p => p.1 == index.val) = some (index.val, e) ∧ 2 ≤ e.cls ∧
        s.get (R.SEAL_GEN m) (genField e.ch) = 255) :
    ∃ c mpa, exec (.sealReinit m index) s =
      .next ((s.put (R.SEAL_REINIT_STATUS m) F.SEAL_REINIT_STATUS_REFUSED 1).sealEvent m c 0x3209 index mpa) := by
  change ∃ c mpa, execSealReinit m index s = _
  unfold execSealReinit
  rw [if_neg (by rw [h]; exact Bool.false_ne_true)]
  obtain hnone | ⟨e, hfind, hcls, hgen⟩ := hno
  · rw [hnone]
    exact ⟨0, 0, rfl⟩
  · rw [hfind]
    exact ⟨e.ch, e.mpa, if_pos ⟨hcls, hgen⟩⟩

end

/-! ### A reinit completed (R259) -/

/-- The end of a reinit: its entry is gone, DONE set. -/
def State.reinitEnds (t : State) (m : Fin 16) (i : Nat) : State :=
  (((t.setEng m { t.eng m with reinit := none, ptab := (t.eng m).ptab.filter (fun p => p.1 != i) }).put
    (R.SEAL_REINIT_STATUS m) F.SEAL_REINIT_STATUS_BUSY 0).put (R.SEAL_REINIT_STATUS m) F.SEAL_REINIT_STATUS_DONE 1).syncPoison m

section
variable {s : State} {m : Fin 16} {i : Nat} (lost : List (Fin 64)) (h : (s.eng m).reinit = some i)
include h

theorem exec_sealReinitComplete_of_entry {e : PoisonEntry}
    (hfind : (s.eng m).ptab.find? (fun p => p.1 == i) = some (i, e)) : exec (.sealReinitComplete m lost) s =
      .next ((if e.cls < 2 then s.reinitBlocks m e lost else s.reinitLines m e).reinitEnds m i) := by
  change execSealReinitComplete m lost s = _
  unfold execSealReinitComplete
  rw [h]
  dsimp only
  rw [hfind]
  rfl

theorem exec_sealReinitComplete_of_none (hfind : (s.eng m).ptab.find? (fun p => p.1 == i) = none) :
    exec (.sealReinitComplete m lost) s = .next (s.reinitEnds m i) := by
  change execSealReinitComplete m lost s = _
  unfold execSealReinitComplete
  rw [h]
  dsimp only
  rw [hfind]
  rfl

end

section
variable (t : State) (m : Fin 16) (i : Nat)

theorem eng_reinitEnds : (t.reinitEnds m i).eng m =
    { t.eng m with reinit := none, ptab := (t.eng m).ptab.filter (fun p => p.1 != i) } := by
  rw [State.reinitEnds, (syncPoison_regsOnly _ m).eng, State.eng_put, State.eng_put, State.eng_setEng_self]

theorem byte_reinitEnds (b : Nat) : (t.reinitEnds m i).byte b = t.byte b := by
  rw [State.reinitEnds, (syncPoison_regsOnly _ m).byte, State.byte_put, State.byte_put, State.byte_setEng]

theorem get_gen_reinitEnds (f : Fld) : (t.reinitEnds m i).get (R.SEAL_GEN m) f = t.get (R.SEAL_GEN m) f := by
  have hne : R.SEAL_GEN m ≠ R.SEAL_REINIT_STATUS m := by unfold R.SEAL_GEN R.SEAL_REINIT_STATUS; omega
  refine get_congr ?_ f
  rw [State.reinitEnds, rd_syncPoison _ _ (.inl (by unfold R.SEAL_GEN R.SEAL_POISON_CNT; omega)),
    State.rd_put_of_ne _ _ _ hne, State.rd_put_of_ne _ _ _ hne, State.rd_setEng]

/-- What the end of a reinit leaves, whatever has been done for its entry. -/
theorem reinitEnds_gives : (∀ p ∈ ((t.reinitEnds m i).eng m).ptab, p.1 ≠ i) ∧ ((t.reinitEnds m i).eng m).reinit = none ∧
    (t.reinitEnds m i).flag (R.SEAL_REINIT_STATUS m) F.SEAL_REINIT_STATUS_DONE = true ∧
    (t.reinitEnds m i).flag (R.SEAL_REINIT_STATUS m) F.SEAL_REINIT_STATUS_BUSY = false := by
  have hrd (x : State) : (x.syncPoison m).rd (R.SEAL_REINIT_STATUS m) = x.rd (R.SEAL_REINIT_STATUS m) :=
    rd_syncPoison _ _ (.inr (by unfold R.SEAL_PREC5 R.SEAL_REINIT_STATUS; omega))
  rw [eng_reinitEnds]
  refine ⟨fun p hp => by simpa using (List.mem_filter.mp hp).2, rfl, ?_, ?_⟩
  · rw [State.reinitEnds, flag_congr (hrd _)]
    exact flag_put_self _ _ _ 1 rfl (by decide) (by decide)
  · rw [State.reinitEnds, flag_congr (hrd _), State.flag,
      State.get_put_of_disjoint _ _ _ _ _ (by decide) (by decide) (by decide)]
    exact flag_put_self _ _ _ 0 rfl (by decide) (by decide)

end

/-! ### What is lost (R259) -/

section
variable (s : State) (m : Fin 16) (e : PoisonEntry)

/-- Whether block j of the entry's L1 line is lost: named as unverifiable, or in the range of a class 1 entry. -/
def PoisonEntry.gone (e : PoisonEntry) (lost : List (Fin 64)) (j : Nat) : Bool :=
  (e.cls == 1 && (decide (e.base ≤ (64 * (e.base / 16384) + j) * 256) &&
    decide ((64 * (e.base / 16384) + j) * 256 < e.base + classBytes e.cls))) || lost.any (fun k => k.val == j)

/-- Classes 0 and 1: counters and caches are brought up to date, then the lost blocks read 0. -/
theorem reinitBlocks_eq (lost : List (Fin 64)) : ∃ u, SealOnly s u ∧
    s.reinitBlocks m e lost = u.wipeBlocks m e.ch (e.base / 16384) (e.gone lost) (List.range 64) := by
  have htally : 0x100000 ≤ R.SEAL_PERF_OVF m := by unfold R.SEAL_PERF_OVF mdBase; omega
  refine ⟨_, ?_, rfl⟩
  refine .trans ?_ (.foldl (fun u j => (fillLine_sealOnly u m _).trans (.dirty _ _ _)) _ _)
  refine .trans ?_ (.dirty _ _ _)
  refine .trans ?_ (.sealTally _ _ _ htally)
  exact ((fillLine_sealOnly s m _).trans (fillLine_sealOnly _ m _)).trans (.setChan _ _ _ _)

theorem genField_wf (c : Fin 2) : (genField c).2 ≤ (genField c).1 ∧ (genField c).1 < 32 ∧
    (genField c).1 + 1 - (genField c).2 = 8 := by
  revert c
  decide

/-- Classes 2 to 5: the generation goes up, lines are written new past the caches, then the whole range reads 0. -/
theorem reinitLines_eq : ∃ u, SealOnly s u ∧
    u.get (R.SEAL_GEN m) (genField e.ch) = (s.get (R.SEAL_GEN m) (genField e.ch) + 1) % 256 ∧
    s.reinitLines m e = u.wipe m e.ch e.base (classBytes e.cls) := by
  have hgen : 0x100000 ≤ R.SEAL_GEN m := by unfold R.SEAL_GEN mdBase; omega
  have hne : R.SEAL_GEN m ≠ R.SEAL_PERF_OVF m := by unfold R.SEAL_GEN R.SEAL_PERF_OVF; omega
  obtain ⟨hlo, hhi, hwidth⟩ := genField_wf e.ch
  unfold State.reinitLines
  extract_lets g s1 n l1 l2 renew stale eng s2 s3 t t'
  have h3 : SealOnly s s3 ∧ s3.rd (R.SEAL_GEN m) = s1.rd (R.SEAL_GEN m) := by
    have h2 : SealOnly s s2 := (SealOnly.put s _ _ hgen).trans (.setEng _ _ _)
    unfold s3
    split
    · exact ⟨h2.trans (fillLine_sealOnly _ _ _), rd_fillLine hne _ _⟩
    · exact ⟨h2, rfl⟩
  have ht : SealOnly s t := h3.1.trans (.setChan _ _ _ _)
  have ht' : SealOnly s t' ∧ t'.rd (R.SEAL_GEN m) = t.rd (R.SEAL_GEN m) := by
    unfold t'
    split
    · exact ⟨ht.trans (.foldl (fun u i => touchLine_sealOnly u m _) _ _), rd_foldl (fun u i _ => rd_touchLine hne u _) _⟩
    · exact ⟨ht.trans (.foldl (fun u i => touchLine_sealOnly u m _) _ _), rd_foldl (fun u i _ => rd_touchLine hne u _) _⟩
  refine ⟨t', ht'.1, ?_, rfl⟩
  rw [get_congr (ht'.2.trans h3.2), State.get_put_self _ _ _ _ hlo hhi, hwidth]
  rfl

theorem SealOnly.byte {s t : State} (h : SealOnly s t) (b : Nat) : t.byte b = s.byte b := by
  rw [h.frame]
  rfl

theorem byte_reinitLines (b : Nat) : (s.reinitLines m e).byte b =
    if ∃ p ∈ s.mpaPages m e.ch e.base (classBytes e.cls), p.1 ≤ b ∧ b < p.1 + p.2 then 0 else s.byte b := by
  obtain ⟨u, hu, -, heq⟩ := reinitLines_eq s m e
  rw [heq, byte_wipe, hu.byte, mpaPages_congr hu.rd]

theorem get_gen_reinitLines : (s.reinitLines m e).get (R.SEAL_GEN m) (genField e.ch) =
    (s.get (R.SEAL_GEN m) (genField e.ch) + 1) % 256 := by
  obtain ⟨u, -, hgen, heq⟩ := reinitLines_eq s m e
  rw [heq, get_congr (rd_wipe u m _ _ _ _), hgen]

theorem byte_reinitBlocks (lost : List (Fin 64)) (b : Nat) : (s.reinitBlocks m e lost).byte b =
    if ∃ j ∈ List.range 64, e.gone lost j = true ∧ s.mpaOf m e.ch ((64 * (e.base / 16384) + j) * 256) ≤ b ∧
      b < s.mpaOf m e.ch ((64 * (e.base / 16384) + j) * 256) + 256 then 0 else s.byte b := by
  obtain ⟨u, hu, heq⟩ := reinitBlocks_eq s m e lost
  rw [heq, byte_wipeBlocks, hu.byte]
  simp only [mpaOf_congr hu.rd]

/-- The blocks lost, as the statement names them. -/
theorem gone_iff {e : PoisonEntry} {lost : List (Fin 64)} (j : Nat) : (j < 64 ∧ e.gone lost j = true) ↔
    (∃ k ∈ lost, k.val = j) ∨ (e.cls = 1 ∧ j < 64 ∧ e.base ≤ (64 * (e.base / 16384) + j) * 256 ∧
      (64 * (e.base / 16384) + j) * 256 < e.base + 2048) := by
  have hlost : (∃ k ∈ lost, k.val = j) → j < 64 := fun ⟨k, _, hk⟩ => hk ▸ k.isLt
  have hone : e.cls = 1 → classBytes e.cls = 2048 := fun h => by rw [h]; rfl
  simp only [PoisonEntry.gone, Bool.or_eq_true, Bool.and_eq_true, beq_iff_eq, decide_eq_true_eq, List.any_eq_true]
  constructor
  · rintro ⟨hj, ⟨hcls, hlo, hhi⟩ | hnamed⟩
    · exact .inr ⟨hcls, hj, hlo, by rw [← hone hcls]; exact hhi⟩
    · exact .inl hnamed
  · rintro (hnamed | ⟨hcls, hj, hlo, hhi⟩)
    · exact ⟨hlost hnamed, .inr hnamed⟩
    · exact ⟨hj, .inl ⟨hcls, hlo, by rw [hone hcls]; exact hhi⟩⟩

/-- The whole range of a class 2 to 5 entry reads 0, every other byte is kept. -/
theorem reinitLines_loses : (∀ b, (∃ p ∈ s.mpaPages m e.ch e.base (classBytes e.cls), p.1 ≤ b ∧ b < p.1 + p.2) →
      (s.reinitLines m e).byte b = 0) ∧
    (∀ b, (∀ p ∈ s.mpaPages m e.ch e.base (classBytes e.cls), b < p.1 ∨ p.1 + p.2 ≤ b) →
      (s.reinitLines m e).byte b = s.byte b) := by
  refine ⟨fun b hb => ?_, fun b hb => ?_⟩
  · rw [byte_reinitLines, if_pos hb]
  · rw [byte_reinitLines, if_neg]
    rintro ⟨p, hp, hin⟩
    have := hb p hp
    omega

/-- The lost blocks of a class 0 or 1 entry read 0, every other byte is kept. -/
theorem reinitBlocks_loses {lost : List (Fin 64)} {gone : Nat → Prop} (hgone : ∀ j, gone j ↔ j < 64 ∧ e.gone lost j = true) :
    (∀ j n, gone j → n < 256 →
      (s.reinitBlocks m e lost).byte (s.mpaOf m e.ch ((64 * (e.base / 16384) + j) * 256) + n) = 0) ∧
    (∀ b, (∀ j, gone j → b < s.mpaOf m e.ch ((64 * (e.base / 16384) + j) * 256) ∨
      s.mpaOf m e.ch ((64 * (e.base / 16384) + j) * 256) + 256 ≤ b) → (s.reinitBlocks m e lost).byte b = s.byte b) := by
  refine ⟨fun j n hj hn => ?_, fun b hb => ?_⟩
  · obtain ⟨hlt, hlost⟩ := (hgone j).mp hj
    rw [byte_reinitBlocks, if_pos ⟨j, List.mem_range.mpr hlt, hlost, by omega, by omega⟩]
  · rw [byte_reinitBlocks, if_neg]
    rintro ⟨j, hlt, hlost, hin⟩
    have := hb j ((hgone j).mpr ⟨List.mem_range.mp hlt, hlost⟩)
    omega

end

end Sys2Proof.Machine
end

section
/-! A tree written new, the scrubs, and the statement (R260, R262, R263, O27). -/
namespace Sys2Proof.Machine

/-! ### A tree initialised (R263) -/

/-- Whether an address is one of memory die m's DRAM. -/
def State.ofDie (s : State) (m : Fin 16) (a : Nat) : Bool :=
  match s.channelOf a with
  | some q => q.1 == m.val
  | none => false

section
variable (s : State) (m : Fin 16)

theorem ofDie_of_channelOf {a c l : Nat} (h : s.channelOf a = some (m.val, c, l)) : s.ofDie m a = true := by
  rw [State.ofDie, h]
  exact beq_self_eq_true m.val

theorem ofDie_of_no_channel {a : Nat} (h : ∀ c l, s.channelOf a ≠ some (m.val, c, l)) : s.ofDie m a = false := by
  unfold State.ofDie
  split
  · next q hq =>
    obtain ⟨n, c, l⟩ := q
    exact beq_false_of_ne fun (hn : n = m.val) => h c l (hn ▸ hq)
  · rfl

/-- The engine's part of a new tree: counters and roots 0, nothing cached or poisoned. -/
def Seal.emptied (e : Seal) : Seal :=
  { e with chans := e.chans.map (fun c => { c with minors := [], majors := [], root := 0 }), lines := [], ptab := [] }

/-- A new tree before its registers are written: the engine emptied, and none of its die's DRAM listed. -/
def State.withoutTree (s : State) (m : Fin 16) : State :=
  { s.setEng m (s.eng m).emptied with mem := s.mem.filter (fun c => !s.ofDie m c.1) }

theorem newTree_eq : s.newTree m = ((s.withoutTree m).wr (R.SEAL_GEN m) 0).syncPoison m := by
  have hkept (a : Nat) : (match (s.setEng m (s.eng m).emptied).channelOf a with | some q => q.1 != m.val | none => true) =
      !s.ofDie m a := by
    rw [channelOf_setEng, State.ofDie]
    split <;> rfl
  have hmem : (s.setEng m (s.eng m).emptied).mem.filter (fun c =>
      match (s.setEng m (s.eng m).emptied).channelOf c.1 with | some q => q.1 != m.val | none => true) =
      s.mem.filter (fun c => !s.ofDie m c.1) := by
    simp only [hkept]
    rfl
  rw [State.withoutTree, ← hmem]
  rfl

theorem eng_newTree : (s.newTree m).eng m = (s.eng m).emptied := by
  rw [newTree_eq, (syncPoison_regsOnly _ m).eng]
  exact State.eng_setEng_self s m _

theorem byte_newTree (a : Nat) : (s.newTree m).byte a = if s.ofDie m a then 0 else s.byte a := by
  rw [newTree_eq, (syncPoison_regsOnly _ m).byte]
  refine (Sparse_get_filter_key memDefault s.mem (fun a => !s.ofDie m a) a).trans ?_
  cases s.ofDie m a <;> rfl

theorem rd_gen_newTree : (s.newTree m).rd (R.SEAL_GEN m) = 0 := by
  rw [newTree_eq, rd_syncPoison _ _ (.inl (by unfold R.SEAL_GEN R.SEAL_POISON_CNT; omega))]
  exact State.rd_wr_self _ _ _

theorem emptied_chan (e : Seal) (c : Fin 2) (b : Nat) : (e.emptied.chans[c]).minor 1 b = 0 ∧ (e.emptied.chans[c]).root = 0 := by
  have hchan : e.emptied.chans[c] = { e.chans[c] with minors := [], majors := [], root := 0 } := by
    simp [Seal.emptied]
  rw [hchan]
  exact ⟨rfl, rfl⟩

theorem treeInitComplete_gives (hkeys : s.flag (R.SEAL_STATUS m) F.SEAL_STATUS_KEYS = true)
    (htree : s.flag (R.SEAL_STATUS m) F.SEAL_STATUS_TREE = false)
    (hruns : s.cantonStopped (s.colCanton (m.val % 8)) = false) :
    Yields (exec (.treeInitComplete m) s) (fun t => t.flag (R.SEAL_STATUS m) F.SEAL_STATUS_TREE = true ∧
      t.rd (R.SEAL_GEN m) = 0 ∧ (t.eng m).ptab = [] ∧
      (∀ (c : Fin 2) (b : Nat), (t.chan m c).minor 1 b = 0 ∧ (t.chan m c).root = 0) ∧
      (∀ a c l, s.channelOf a = some (m.val, c, l) → t.byte a = 0) ∧
      (∀ a, (∀ c l, s.channelOf a ≠ some (m.val, c, l)) → t.byte a = s.byte a)) := by
  have hexec : exec (.treeInitComplete m) s = .next ((s.newTree m).put (R.SEAL_STATUS m) F.SEAL_STATUS_TREE 1) := by
    change execTreeInitComplete m s = _
    unfold execTreeInitComplete
    rw [if_pos ⟨hkeys, htree, hruns⟩]
  refine ⟨_, hexec, flag_put_self _ _ _ 1 rfl (by decide) (by decide), ?_, ?_, fun c b => ?_, fun a c l ha => ?_,
    fun a ha => ?_⟩
  · rw [State.rd_put_of_ne _ _ _ (by unfold R.SEAL_GEN R.SEAL_STATUS; omega), rd_gen_newTree]
  · rw [State.eng_put, eng_newTree]
    rfl
  · rw [State.chan, State.eng_put, eng_newTree]
    exact emptied_chan _ c b
  · rw [State.byte_put, byte_newTree, ofDie_of_channelOf s m ha, if_pos rfl]
  · rw [State.byte_put, byte_newTree, ofDie_of_no_channel s m ha, if_neg Bool.false_ne_true]

end

/-! ### The patrol scrub (R262) -/

/-- A patrol step that meets nothing amiss: the position moves on, PROGRESS shows it, and a full pass is counted. -/
def State.patrolled (s : State) (m : Fin 16) (total : Nat) : State :=
  let q := (s.eng m).scrub % total + 1
  let t := (s.setEng m { s.eng m with scrub := q % total, patrolAt := s.now }).put (R.MC_SCRUB_STATUS m)
    F.MC_SCRUB_STATUS_PROGRESS (q % total * 1024 / total)
  if q = total then t.bump (R.MC_SCRUB_STATUS m) F.MC_SCRUB_STATUS_PASSES 1 else t

section
variable {s : State} {m : Fin 16} {total : Nat}

theorem exec_patrolScrubStep_clean {mirror block : BurstErrs} (hen : s.flag (R.MC_SCRUB_CTL m) F.MC_SCRUB_CTL_EN = true)
    (hawake : (s.eng m).asleep = false) (htotal : dimmBursts (s.nsOf m 0) + dimmBursts (s.nsOf m 1) = total)
    (hpos : total ≠ 0) (hblock : fetchOf block ≠ .badTag)
    (hdue : (s.eng m).patrolAt + s.get (R.MC_SCRUB_CTL m) F.MC_SCRUB_CTL_HOURS * 3600 * ticksPerSec / total ≤ s.now) :
    exec (.patrolScrubStep m [] mirror block) s = .next (s.patrolled m total) := by
  have hclean : (fetchOf block == .badTag) = false := beq_false_of_ne hblock
  have hecc : fetchOf [] ≠ .ecc := by decide
  change execPatrolScrubStep m [] mirror block s = _
  unfold execPatrolScrubStep
  rw [hen, hawake, if_neg (by decide)]
  dsimp only
  rw [htotal, if_neg (not_or.mpr ⟨hpos, Nat.not_lt.mpr hdue⟩)]
  simp only [noteFetch_nil, hecc, if_false, hclean, Bool.and_false, Bool.false_eq_true]
  rfl

theorem rd_patrolled {a : Nat} (h : a ≠ R.MC_SCRUB_STATUS m) : (s.patrolled m total).rd a = s.rd a := by
  unfold State.patrolled
  dsimp only
  split
  · exact (State.rd_put_of_ne _ _ _ h).trans (State.rd_put_of_ne _ _ _ h)
  · exact State.rd_put_of_ne _ _ _ h

theorem patrolled_frame : s.patrolled m total =
    { s with regs := (s.patrolled m total).regs, mds := (s.patrolled m total).mds } := by
  unfold State.patrolled
  dsimp only
  split <;> rfl

theorem eng_patrolled : (s.patrolled m total).eng m =
    { s.eng m with scrub := ((s.eng m).scrub % total + 1) % total, patrolAt := s.now } := by
  unfold State.patrolled
  dsimp only
  split <;> exact State.eng_setEng_self s m _

theorem get_progress_patrolled (hpos : total ≠ 0) : (s.patrolled m total).get (R.MC_SCRUB_STATUS m)
    F.MC_SCRUB_STATUS_PROGRESS = ((s.eng m).scrub % total + 1) % total * 1024 / total := by
  have hlt : ((s.eng m).scrub % total + 1) % total * 1024 / total < 1024 := by
    have := Nat.mod_lt ((s.eng m).scrub % total + 1) (Nat.pos_of_ne_zero hpos)
    rw [Nat.div_lt_iff_lt_mul (Nat.pos_of_ne_zero hpos)]
    omega
  have hput (x : State) (n : Nat) (hn : n < 1024) : (x.put (R.MC_SCRUB_STATUS m) F.MC_SCRUB_STATUS_PROGRESS n).get
      (R.MC_SCRUB_STATUS m) F.MC_SCRUB_STATUS_PROGRESS = n :=
    (State.get_put_self _ _ _ _ (by decide) (by decide)).trans (Nat.mod_eq_of_lt hn)
  unfold State.patrolled
  dsimp only
  split
  · exact (State.get_put_of_disjoint _ _ _ _ _ (by decide) (by decide) (by decide)).trans (hput _ _ hlt)
  · exact hput _ _ hlt

end

/-! ### The resident scrub (R260, R262) -/

section
variable (s : State) (m : Fin 16)

/-- An engine whose channels are put into self-refresh. -/
def State.sleepEng (t : State) (i : Nat) : State := t.setEng (fin16 i) { t.eng (fin16 i) with asleep := true }

theorem asleep_sleepEng {n : Fin 16} {i : Nat} (h : (s.eng n).asleep = true ∨ fin16 i = n) :
    ((s.sleepEng i).eng n).asleep = true := by
  unfold State.sleepEng
  by_cases hn : n = fin16 i
  · rw [hn, State.eng_setEng_self]
  · rw [State.eng_setEng_of_ne _ _ _ hn]
    exact h.resolve_right fun hi => hn hi.symm

theorem asleep_foldl_sleepEng {n : Fin 16} (l : List Nat) (h : (s.eng n).asleep = true ∨ ∃ i ∈ l, fin16 i = n) :
    ((l.foldl State.sleepEng s).eng n).asleep = true := by
  induction l generalizing s with
  | nil => exact h.resolve_right (by simp)
  | cons i l ih =>
    refine ih (s.sleepEng i) ?_
    obtain hs | ⟨j, hj, hn⟩ := h
    · exact .inl (asleep_sleepEng s (.inl hs))
    · obtain rfl | hj := List.mem_cons.mp hj
      · exact .inl (asleep_sleepEng s (.inr hn))
      · exact .inr ⟨j, hj, hn⟩

theorem stopCanton_sealOnly : SealOnly s (s.stopCanton m) :=
  (SealOnly.put s _ _ (by unfold R.SEAL_STATUS mdBase; omega)).trans (.foldl (fun u i => .setEng u (fin16 i) _) _ _)

theorem flag_ccfatal_stopCanton : (s.stopCanton m).flag (R.SEAL_STATUS m) F.SEAL_STATUS_CCFATAL = true := by
  refine (flag_congr ?_ _).trans (flag_put_self s _ _ 1 rfl (by decide) (by decide))
  exact rd_foldl (fun u i _ => State.rd_setEng u _ _ _) _

/-- Every engine of the canton sleeps once the canton is stopped. -/
theorem asleep_stopCanton {n : Fin 16} (h : s.colCanton (n.val % 8) = s.colCanton (m.val % 8)) :
    ((s.stopCanton m).eng n).asleep = true := by
  have hstatus : 0x100000 ≤ R.SEAL_STATUS m := by unfold R.SEAL_STATUS mdBase; omega
  have hcol := colCanton_congr (SealOnly.put s F.SEAL_STATUS_CCFATAL 1 hstatus).rd
  refine asleep_foldl_sleepEng _ _ (.inr ⟨n.val, ?_, Fin.ext (Nat.mod_eq_of_lt n.isLt)⟩)
  rw [State.cantonMds, List.mem_filter, hcol, hcol, h]
  exact ⟨List.mem_range.mpr n.isLt, beq_self_eq_true _⟩

end

section
variable {s : State} {m : Fin 16}

theorem exec_residentScrub (hawake : (s.eng m).asleep = false) (hdue : (s.eng m).scrubbed + ticksPerSec / 100 ≤ s.now)
    (r : CacheFault) : exec (.residentScrub m r) s =
      .next ((s.setEng m { s.eng m with scrubbed := s.now }).cacheStage m 0 r).1 := by
  change execResidentScrub m r s = _
  unfold execResidentScrub
  rw [if_neg]
  rintro (hasleep | hearly)
  · exact Bool.false_ne_true (hawake.symm.trans hasleep)
  · exact absurd hdue (Nat.not_le.mpr hearly)

theorem residentScrub_ecc_gives (hawake : (s.eng m).asleep = false)
    (hdue : (s.eng m).scrubbed + ticksPerSec / 100 ≤ s.now) :
    Yields (exec (.residentScrub m .ecc) s) (fun t => t.flag (R.SEAL_STATUS m) F.SEAL_STATUS_CCFATAL = true ∧
      (∀ n : Fin 16, s.colCanton (n.val % 8) = s.colCanton (m.val % 8) → (t.eng n).asleep = true) ∧
      ∃ e : Event, t.events = s.events ++ [e] ∧ e.code = 0x330B ∧ e.die = 40 + m.val) := by
  obtain ⟨u, hu⟩ : ∃ u, (s.setEng m { s.eng m with scrubbed := s.now }).put (R.CC_STATUS m) F.CC_STATUS_ECCUNC 1 = u := ⟨_, rfl⟩
  have hseal : SealOnly s u := by
    rw [← hu]
    exact (SealOnly.setEng s m _).trans (.put _ _ _ (by unfold R.CC_STATUS mdBase; omega))
  have hevents : (u.stopCanton m).events = s.events := by
    rw [(hseal.trans (stopCanton_sealOnly u m)).frame]
  obtain ⟨e, he, hcode, hdie⟩ := State.sealEvent_oneMore (u.stopCanton m) m 0 0x330B 0xFFFF 0
  refine ⟨(u.stopCanton m).sealEvent m 0 0x330B 0xFFFF 0, ?_, flag_ccfatal_stopCanton u m, fun n hn => ?_,
    e, by rw [he, hevents], hcode, hdie⟩
  · rw [exec_residentScrub hawake hdue, ← hu]
    rfl
  · refine asleep_stopCanton u m ?_
    rw [colCanton_congr hseal.rd, colCanton_congr hseal.rd, hn]

end

/-! ### The statement -/

/-- Settles O27: a reinit by what stands at its entry, its end by the bytes of what is lost (`byte_reinitLines`,
`byte_reinitBlocks`), a new tree by what it empties, the scrubs by what one step of each leaves. -/
theorem poisonIsClearedByReinitAndTreesByKeys : Obligations.PoisonIsClearedByReinitAndTreesByKeys := by
  unfold Obligations.PoisonIsClearedByReinitAndTreesByKeys
  refine ⟨fun s m index => ⟨sealReinit_busy, fun hidle => ⟨fun e hfind hgen => ?_, fun hno => ?_⟩⟩,
    fun s m lost i e h hfind => ⟨_, exec_sealReinitComplete_of_entry lost h hfind, ?_⟩, fun s m lost i h hfind => ?_,
    fun s m hkeys htree hruns => treeInitComplete_gives s m hkeys htree hruns,
    fun s m mirror block total hen hawake htotal hpos hblock hdue => ?_,
    fun s m hawake hdue => ⟨⟨_, exec_residentScrub hawake hdue .ok, ?_, rfl⟩, residentScrub_ecc_gives hawake hdue⟩⟩
  · refine ⟨_, sealReinit_starts hidle hfind hgen, flag_put_self _ _ _ 1 rfl (by decide) (by decide), ?_,
      fun a ha => State.rd_put_of_ne _ _ _ (List.ne_of_not_mem_cons ha), rfl⟩
    rw [State.eng_put, State.eng_setEng_self]
  · obtain ⟨c, mpa, hexec⟩ := sealReinit_refused hidle hno
    exact ⟨_, hexec, flag_put_self _ _ _ 1 rfl (by decide) (by decide), State.sealEvent_oneMore _ m c _ _ _,
      fun a ha => State.rd_put_of_ne _ _ _ (List.ne_of_not_mem_cons ha), rfl⟩
  · obtain ⟨hptab, hreinit, hdone, hbusy⟩ :=
      reinitEnds_gives (if e.cls < 2 then s.reinitBlocks m e lost else s.reinitLines m e) m i
    refine ⟨hptab, hreinit, hdone, hbusy, fun hcls => ?_, fun hcls gone hgone => ?_⟩
    · simp only [if_neg (Nat.not_lt.mpr hcls), get_gen_reinitEnds, get_gen_reinitLines, byte_reinitEnds, true_and]
      exact reinitLines_loses s m e
    · simp only [if_pos hcls, byte_reinitEnds]
      exact reinitBlocks_loses s m e fun j => (hgone j).trans (gone_iff j).symm
  · obtain ⟨-, hreinit, hdone, hbusy⟩ := reinitEnds_gives s m i
    exact ⟨_, exec_sealReinitComplete_of_none lost h hfind, hreinit, hdone, hbusy, byte_reinitEnds s m i⟩
  · refine ⟨_, exec_patrolScrubStep_clean hen hawake htotal hpos hblock hdue, ?_, ?_, get_progress_patrolled hpos,
      fun a ha => rd_patrolled (List.ne_of_not_mem_cons ha), patrolled_frame⟩
    · rw [eng_patrolled]
    · rw [eng_patrolled]
  · exact congrArg Seal.scrubbed (State.eng_setEng_self s m _)

end Sys2Proof.Machine
end
